-- ==== Sys2Proof/Word.lean ====
section
/-! DEFINITION. The word types of the Gofel. -/

namespace Sys2Proof

/-- A register word (R62: the register space accepts 32-bit accesses). -/
abbrev Word := BitVec 32

/-- A byte of a memory, a frame or a digest. -/
abbrev Byte := BitVec 8

/-- A cycle stamp: the cycle number (48 bits) and the phase in ticks (16 bits), R31. -/
structure Stamp where
  cyc : Nat
  ph  : Nat
  deriving DecidableEq, Repr

/-- The shared status codes of Table 0-3 (R10). -/
inductive Status where
  | ok | zeroLen | delayed | refusedQuota | refusedPriority | keyRetired | integFail | prot
  | degraded | timeout | part | holdover | cfgInvalid | notOwner | skipped | powerLost
  deriving DecidableEq, Repr

end Sys2Proof
end

