-- ==== Sys2Proof/Syntax.lean ====
section
/-! DEFINITION. The commands of the Gofel: one constructor per row of spec/opcode_table.json, with the
row's operands. What the environment measures (voltages, samples, correlations, frames received) is
an operand. -/

namespace Sys2Proof

/-- The requester of a register access (R64, Table 23-1): a host session, a hart or the
management core. -/
inductive Port where
  | hsp (ses : Nat) | eth (ses : Nat) | i2t (ses : Nat) | hart (h : Nat) | mgmt
  deriving DecidableEq, Repr

/-- One register access as it reaches the register space (R61 to R64, R78, R80): the requester and
its tenant, the byte address, the size in bytes, the replay flag and, for a write, the data word
with the carry code that travelled with it. -/
structure Access where
  port   : Port
  tc     : Fin 64
  addr   : BitVec 32
  size   : Nat := 4
  replay : Bool := false
  data   : Word := 0
  cc     : Byte := 0
  deriving DecidableEq, Repr

/-- A write of one word to the register that a command names, through the direct window: the
requester, its tenant, the whole data word and its carry code. -/
structure RegWrite where
  port : Port
  tc   : Fin 64
  data : Word
  cc   : Byte
  deriving DecidableEq, Repr

/-- A read of the register that a command names, through the direct window. -/
structure RegRead where
  port : Port
  tc   : Fin 64
  deriving DecidableEq, Repr

/-- One edge of a scheduling entry (R48, R50): its signal, or the quiet slot derived from it. -/
inductive SchedEdge where
  | assertSignal | releaseSignal | openQuiet | closeQuiet
  deriving DecidableEq, Repr

/-- A conversion on its way to its consumers (R126, R133, R142): the converter, the position m of its
sample instant in the cycle, the raw code, whether it reached its clip, and the bits that flip on
the way to the CTF, to metrology and to power quality. -/
structure SampleIn where
  conv   : Fin 74
  pos    : Fin 1024
  raw    : BitVec 24
  clip   : Bool
  errCtf : BitVec 40 := 0
  errMte : BitVec 40 := 0
  errPqe : BitVec 40 := 0
  deriving DecidableEq, Repr

/-- Bits of the stored words of an accumulator block that have flipped (R180, R181): a channel or a
virtual meter, and the word: accumulators, then tariffs, then the sum check, for a channel ACC_UFA
and ACC_UFC; from 16 on the residues. -/
structure AccUpset where
  vm   : Bool
  idx  : Fin 256
  word : Fin 24
  flip : BitVec 64
  deriving DecidableEq, Repr

/-- The kinds of access of a core to its memory map; the cache-block operations cbo.clean, cbo.flush and cbo.inval
work on a block of 64 bytes (R292). -/
inductive AccessKind where
  | load | store | fetch | clean | flush | inval
  deriving DecidableEq, Repr

/-- An access of a core to its physical map (R293, R294, R301): the core (0 to 3 the application harts,
4 the management core), whether in machine mode, whether PMP permits it, its kind, address, size in
bytes (a cache-block operation is of 64), the bytes stored or, from the QSPI window, the bytes that
the flash returns; what an error check met (corrected, or uncorrectable, in the L2 or in the memory);
the bits that flip between the register space and the port; a setting of CCX_RPLY before it. -/
structure HartAccess where
  core    : Fin 5
  machine : Bool
  pmp     : Bool := true
  kind    : AccessKind
  addr    : BitVec 40
  size    : Nat
  data    : List Byte := []
  ecc     : Option (Bool × Bool) := none
  flip    : BitVec 40 := 0
  replay  : Bool := false
  deriving DecidableEq, Repr

/-- An image slot as the flash returns it: whether it answers, and its bytes from the base of the
slot. -/
structure SlotImage where
  answers : Bool
  bytes   : List Byte
  deriving DecidableEq, Repr

/-- A tone frame as it is received (R332 to R334): the 12 bytes of its FCH, its payload, the receiver's
stamp phase at the first sample of payload symbol 0, the average SNR in 0.25 dB by segment and
active tone after this frame, and the EUI under which the receiver knows the origin. -/
structure ToneIn where
  fch     : List Byte
  payload : List Byte
  eui     : BitVec 64
  phase0  : BitVec 16
  snr     : List (List Int)
  deriving DecidableEq, Repr


/-- A frame of the sweep chain as it is received (R386, R388): the code groups found invalid since the
frame before, and the header, payload and CRC-32 between /S/ and /T/. -/
structure ChainFrame where
  bad   : BitVec 16 := 0
  bytes : List Byte
  deriving DecidableEq, Repr

/-- What the gauge converter has measured in one second (R479): the sum of its 1,000 current samples in
codes, the sum of its 1,000 samples of VPACK in codes, for each cell the sum of the samples kept in
0.1 mV and their number, and VIN and VBAT as the PMU reads them in mV. -/
structure GaugeSecond where
  current : Int
  pack    : Nat
  cells   : List (Nat × Nat)
  vin     : BitVec 16
  vbat    : BitVec 16
  deriving DecidableEq, Repr

/-- One pair of millisecond samples at a burst edge (R486): current and VPACK in codes. -/
structure GaugeSample where
  current : BitVec 16
  pack    : BitVec 16
  deriving DecidableEq, Repr

/-- A request of a host as it arrives (R557, R567, R568): the interface (0 HSP, 1 Ethernet, 2 I²C), its bytes (on
Ethernet the whole payload of the datagram, HE_SEQ and tag included), and on Ethernet the address and port
of its source. -/
structure HostReq where
  iface : Fin 3
  bytes : List Byte
  src   : BitVec 48 := 0
  deriving DecidableEq, Repr
/-- The commands. -/
inductive Instr where
  /-- CONFIG_WRITE (R64): A register write to a field that has no row of its own is checked for carry code, ownership, LOCK and encoding and then performed or refused with a status code. -/
  | configWrite (a : Access)
  /-- READ_CLEAR (R83): An owner's read of an RC field returns and clears it and replaces the page's replay record. -/
  | readClear (a : Access)
  /-- REPLAY_READ (R83): A read with the replay flag set returns the page's replay record without clearing anything, or returns zero with SKIPPED. -/
  | replayRead (a : Access)
  /-- CTRL_PRST (R67): A write of 1 to CTRL_PRST returns every RW field of the page to reset, recomputes INTEG and logs a page reset. -/
  | ctrlPrst (page : Fin 1024) (w : RegWrite)
  /-- LOCK_READ (R73): An owner's read of LOCK issues a fresh challenge drawn from the random bit generator. -/
  | lockRead (page : Fin 1024) (r : RegRead)
  /-- LOCK_WRITE (R74): A write to LOCK with a correct and timely response sets or clears LOCK_HELD, and otherwise fails and uses up the challenge. -/
  | lockWrite (page : Fin 1024) (w : RegWrite)
  /-- IRQ_CLR (R92): A write of 1 to a bit of IRQ_CLR clears the same bit of IRQ_RAW. -/
  | irqClr (page : Fin 1024) (w : RegWrite)
  /-- INTEG_SCRUB (R86): The scrubber recomputes the configuration CRC of a page and opens or closes a mismatch run. -/
  | integScrub (page : Fin 1024) (upset : Option (Nat × Nat))
  /-- SEALED_PAGE_REWRITE (R87): The management core rewrites a sealed page from its Cellar copy after a mismatch run opens, and logs the restoration. -/
  | sealedPageRewrite (page : Fin 1024)
  /-- CYCLE_BOUNDARY (R57): At each cycle boundary the CTF latches the stamp and UTC pair, and configuration changes scheduled for that boundary take effect. -/
  | cycleBoundary (period : BitVec 24)
  /-- SAMPLE_WORD (R142): A converter delivers a carry-coded sample word, and each consumer checks it against the expected converter, cycle and position. -/
  | sampleWord (w : SampleIn)
  /-- CHANNEL_LOST (R36): A channel is declared lost when no positive crossing has been confirmed for the timeout, which may switch the reference or enter holdover. -/
  | channelLost (code : Fin 8)
  /-- LOSS (R41): In LOCKED, no confirmed reference crossing by 4,096 ct after the predicted crossing moves the CTF to FLYWHEEL. -/
  | loss
  /-- ACQUIRE_RESTART (R41): Sixteen cycles in ACQUIRE without meeting the lock condition restart acquisition and count CTF_ACQFAIL. -/
  | acquireRestart
  /-- REVERT (R45): A higher-priority channel, qualified with a valid offset for CTF_REVERT_CYC cycles, becomes the reference at the next boundary. -/
  | revert
  /-- CTF_REACQ (R41): A write of 1 to CTF_REACQ by the page owner moves the CTF to ACQUIRE. -/
  | ctfReacq (w : RegWrite)
  /-- CTF_FORCE_NEXT (R45): A write of 1 to CTF_FORCE_NEXT treats the current reference as lost at the next cycle boundary. -/
  | ctfForceNext (w : RegWrite)
  /-- SEED (R32): A write of CTF_SEED_HI submits the stamp seed, which is accepted once per cold start before the first lock. -/
  | seed (w : RegWrite)
  /-- STAMP_READ (R33): A read of CTF_STAMP_LO returns the low half of the stamp and latches the high half. -/
  | stampRead (r : RegRead)
  /-- PAIR_FREEZE (R57): A read of CTF_PAIR_STAMP_LO freezes the four pair registers. -/
  | pairFreeze (r : RegRead)
  /-- PAIR_RELEASE (R57): A read of CTF_PAIR_SUB releases the frozen pair. -/
  | pairRelease (r : RegRead)
  /-- UTC_SET (R56): A write to CTF_UTC_SET by the page owner requests a load of the RTC count. -/
  | utcSet (w : RegWrite)
  /-- UTC_LOAD (R56): At the next whole-second boundary the RTC takes the written count, clears CTF_UTC_EST and logs UTC_SET. -/
  | utcLoad
  /-- CTF_COMMIT (R51): A write of 1 to CTF_COMMIT validates the shadow scheduling bank for activation at a stated cycle, or refuses it. -/
  | ctfCommit (w : RegWrite)
  /-- SCHED_ACTIVATE (R51): At phase 0 of the commit cycle the validated shadow bank becomes active. -/
  | schedActivate
  /-- SCHED_SIGNAL (R50): An enabled scheduling entry asserts or releases its consumer signal at its tick, including the quiet-slot gate. -/
  | schedSignal (entry : Fin 256) (edge : SchedEdge)
  /-- XT32_STOP (R30): When XT32 stops, CD00 and CD57 move to divided ROSC, a clock-glitch run opens and UTC is marked estimated. -/
  | xt32Stop
  /-- REF48_RETRY (R29): With no valid REF48 at cold start, the management core retries every 100 ms and holds the device on ROSC. -/
  | ref48Retry (valid : Bool)
  /-- ACTIVATE (R101): A TNC_TCMD activate command moves a tenant from OFF to ACTIVE. -/
  | activate (w : RegWrite)
  /-- SUSPEND (R101): A TNC_TCMD suspend command moves an ACTIVE tenant to SUSPENDED. -/
  | suspend (w : RegWrite)
  /-- RESUME (R101): A TNC_TCMD resume command returns a SUSPENDED tenant to ACTIVE. -/
  | resume (w : RegWrite)
  /-- SOFT_RESET (R120): A soft reset skips the tenant's queued items and clears its counters and ring. -/
  | softReset (w : RegWrite)
  /-- FULL_RESET (R121): A full reset performs a soft reset, revokes every grant, clears the tenant's meters and quotas and places the tenant in OFF. -/
  | fullReset (w : RegWrite)
  /-- TENANT_RESET_DONE (R120): When the last started item or revoke of a resetting tenant completes, the reset ends and reports its code. -/
  | tenantResetDone (tenant : Fin 64)
  /-- TNC_CX_SOFTRST (R122): A tenant's write of 1 to TNC_CX_SOFTRST requests a soft reset of itself, which is refused for TC00 and TC01. -/
  | tncCxSoftrst (tenant : Fin 64) (w : RegWrite)
  /-- GRANT (R103): A TNC_GCMD grant moves a page, key slot, Cellar unit or endpoint from its home owner to a target tenant. -/
  | grant (w : RegWrite)
  /-- REVOKE (R103): A TNC_GCMD revoke returns a resource to its home owner, resetting, erasing or wiping it as its class requires. -/
  | revoke (w : RegWrite)
  /-- ALIAS_MAP (R107): A write to TNC_AM_MAP sets or clears the mapping of the selected alias slot. -/
  | aliasMap (w : RegWrite)
  /-- TNC_SEAL_REQ (R110): A write of 1 to TNC_SEAL_REQ starts the sealing steps of TC01. -/
  | tncSealReq (lost : Option (Fin 2048)) (w : RegWrite)
  /-- SEAL_COMPLETE (R111): When the seal marker has been written, the seal is logged, TNC_SEALED sets and billed accumulation begins with the next cycle. -/
  | sealComplete
  /-- TNC_UNSEAL_ARM (R112): A write of 1 to TNC_UNSEAL_ARM arms an unseal for 65,536 ct. -/
  | tncUnsealArm (w : RegWrite)
  /-- TNC_UNSEAL_REQ (R112): An armed write of 1 to TNC_UNSEAL_REQ unseals TC01 and stops billed accumulation. -/
  | tncUnsealReq (w : RegWrite)
  /-- ARM_WINDOW_EXPIRY (R615): An arming window of 65,536 ct ends without the armed request, and the arming lapses. -/
  | armWindowExpiry
  /-- REFILL_PERIOD (R113): A refill period of a contended resource begins, quotas refill, new quota values take effect and the turn order advances. -/
  | refillPeriod (resource : Fin 4)
  /-- ITEM_LATEST_TIME (R115): An admitted item not started by its latest time completes with REFUSED_PRIORITY, and its cost returns to the quota. -/
  | itemLatestTime (resource : Fin 4) (rank : Option Bool)
  /-- CONT_TEST_START (R146): Every ACS_CONT_PER cycles, the ACS takes the next masked channel and drives the 100 µA test current for one cycle, or skips the channel. -/
  | contTestStart
  /-- CONT_TEST_RESULT (R146): At the end of the test cycle, the ACS computes the burden resistance and writes ACS_CONT_R. -/
  | contTestResult
  /-- ACS_CAL_ZERO (R147): A write of 1 to ACS_CAL_ZERO starts the zero step of a channel calibration. -/
  | acsCalZero (w : RegWrite)
  /-- ACS_CAL_FULL (R148): A write of 1 to ACS_CAL_FULL starts the full-scale step of a channel calibration. -/
  | acsCalFull (w : RegWrite)
  /-- ACS_CAL_ABORT (R150): A write of 1 to ACS_CAL_ABORT ends the step in progress with SKIPPED at the next boundary. -/
  | acsCalAbort (w : RegWrite)
  /-- CAL_ZERO_DONE (R147): After ACS_CAL_NCYC cycles, the zero step writes the means and the offset coefficients. -/
  | calZeroDone
  /-- CAL_FULL_DONE (R149): After ACS_CAL_NCYC locked cycles, the full-scale step computes and writes the gain coefficients and may set ACS_CALOK. -/
  | calFullDone
  /-- CAL_TIMEOUT (R148): A full-scale step that has not gathered its cycles within ACS_CAL_NCYC + 64 cycles completes with TIMEOUT. -/
  | calTimeout
  /-- METROLOGY_CLOSE (R157): Metrology computes the closed cycle of every channel once its neighbour samples arrive, and delivers records, readbacks and exports. -/
  | metrologyClose (upsets : List AccUpset)
  /-- ACC_CYC_READ (R179): A read of ACC_CYC or ACC_VCYC latches every other word of the block. -/
  | accCycRead (vm : Bool) (idx : Fin 256) (r : RegRead)
  /-- MTE_RD_CYC_READ (R176): A read of MTE_RD_CYC or MTE_RD_VCYC latches the other readback words of the block. -/
  | mteRdCycRead (ch : Fin 72) (r : RegRead)
  /-- ACC_VCLR (R188): A write of 1 to ACC_VCLR logs the final values and zeroes the virtual meter at the next cycle boundary. -/
  | accVclr (meter : Fin 256) (w : RegWrite)
  /-- SPILL_INCREMENT (R192): At 4,096 ct after a close, each pulse output adds the increment of its quantity to its spill register and sets its effective width. -/
  | spillIncrement
  /-- PULSE_START (R194): A pulse starts once the pending count is at least 1 and 2w has passed since the previous pulse began. -/
  | pulseStart (k : Fin 16)
  /-- PULSE_END (R194): A pulse ends after its width, and the pin returns to its inactive level. -/
  | pulseEnd (k : Fin 16)
  /-- PIN_READBACK (R196): A comparator reads the pulse pin 20 µs after each edge and counts and logs mismatches in runs. -/
  | pinReadback (k : Fin 16) (level : Bool)
  /-- PQE_WINDOW (R205): At every half-cycle stamp phase, the PQE computes U_w and opens or closes voltage events. -/
  | pqeWindow
  /-- PQE_BLOCK_END (R203): At the end of an aggregation block, the PQE latches harmonics, THD and unbalance for all channels. -/
  | pqeBlockEnd
  /-- VSENSE_CLASSIFY (R210): After PQE_CLS_CYC cycles of a voltage-sense event, and at each later block end, the PQE classifies the low phase. -/
  | vsenseClassify
  /-- PQE_HCYC_READ (R217): A read of PQE_HCYC latches the harmonic window of the selected channel. -/
  | pqeHcycRead (r : RegRead)
  /-- ENTRY_PULL (R227): An idle, ungated tile engine takes the oldest eligible Sparge entry, checks it and starts it. -/
  | entryPull (engine : Fin 32)
  /-- TILE_COMPLETE (R232): A tile completes, reports its outcome and engine time, and signals or poisons its sync counter. -/
  | tileComplete (engine : Fin 32) (ticks : BitVec 32) (corrected : Nat) (unc : Option (BitVec 40))
  /-- TILE_DEADLINE (R229): A tile not started by phase 0 of its deadline cycle completes with TIMEOUT without running. -/
  | tileDeadline
  /-- TUN_CK_RESCLR (R224): A write of 1 to TUN_CK_RESCLR invalidates the cluster's resident region at its next tile boundary. -/
  | tunCkResclr (cluster : Fin 8) (w : RegWrite)
  /-- TUN_BST_ARM (R238): A write of 1 to TUN_BST_ARM submits a load-step burst as an INF item of TC00. -/
  | tunBstArm (w : RegWrite)
  /-- BURST_DRAIN (R239): From TUN_BST_LEAD ticks before the start stamp, the named clusters take no entries. -/
  | burstDrain
  /-- BURST_REP_START (R239): A burst repetition starts on the named clusters and sends its rising edge with its stamp to the gauge. -/
  | burstRepStart
  /-- BURST_REP_END (R240): A burst repetition ends, sends its falling edge to the gauge and, after the last repetition, completes the burst. -/
  | burstRepEnd
  /-- ROUTE (R248): The Lauter router gates a batch, assigns capacity slots in the Grist unit and gathers accepted rows into dispatch buffers. -/
  | routeOp (ns : BitVec 32) (checkUnc : Bool) (unc : Option (Nat × BitVec 40))
  /-- COMBINE (R257): The router combines expert output rows with their gate weights onto the residual in fixed order. -/
  | combineOp (checkUnc : Bool) (unc : Option (Nat × BitVec 40))
  /-- ROUTER_DEADLINE (R259): A ROUTE or COMBINE not started by its deadline completes with TIMEOUT. -/
  | routerDeadline
  /-- LTR_WCOMMIT (R249): A write of 1 to LTR_WCOMMIT makes the shadow weight table active, or refuses it. -/
  | ltrWcommit (w : RegWrite)
  /-- BARM_RING_POLL (R269): The engine checks a tenant's ring area and reads new submission slots into its pool, refusing failing lists. -/
  | barmRingPoll (tenant : Fin 64)
  /-- BARM_KICK (R269): A write of a tenant's bit in BARM_KICK polls that tenant's ring at once. -/
  | barmKick (tenant : Fin 64) (w : RegWrite)
  /-- WINDOW_BOUNDARY (R276): At each inference window boundary, the engine computes window capacity, admits fenced lists and starts lists against uncommitted capacity. -/
  | windowBoundary
  /-- BARM_APPEND (R279): The engine appends the next entry of a started list to the Sparge list once room exists, or issues it to the router. -/
  | barmAppend
  /-- EXPERT_EXPAND (R280): When its ROUTE has completed and its wait is met, an EXPERT entry generates its expert tiles. -/
  | expertExpand
  /-- INSIGHT_DELIVER (R286): An INSIGHT entry whose wait is met reads its region once and writes an insight record. -/
  | insightDeliver
  /-- LIST_COMPLETE (R284): When every entry of a list has completed, the engine charges it, frees its counters and writes its completion record. -/
  | listComplete
  /-- BARM_RECORD_RELEASE (R287): A record held for a full completion ring is written when a slot frees. -/
  | barmRecordRelease (tenant : Fin 64)
  /-- CCX_TCTX (R296): A machine-mode write to CCX_TCTX sets the hart's tenant context and loads its inference windows, or is refused for TC01. -/
  | ccxTctx (hart : Fin 4) (tc : Fin 64) (valid : Bool)
  /-- STAMP_COMPARE (R299): When CCX_STAMP reaches CCX_STCMP, bit 16 of mip is set. -/
  | stampCompare (hart : Fin 4) (write : Option (BitVec 64))
  /-- HART_MEMORY_ACCESS (R301): A supervisor or user access to shared inference SRAM or LPDDR4X is checked against the tenant's windows and faults when outside them. -/
  | hartMemoryAccess (a : HartAccess)
  /-- CCX_DDR_INIT (R304): A write of 1 to CCX_DDR_INIT starts LPDDR4X initialisation and training. -/
  | ccxDdrInit (w : RegWrite)
  /-- DDR_INIT_DONE (R304): Training converges, the initialisation completes with OK and CCX_DDR_READY sets. -/
  | ddrInitDone
  /-- DDR_TRAIN_TIMEOUT (R304): Training that has not converged within 50 ms completes with TIMEOUT. -/
  | ddrTrainTimeout
  /-- CCX_QSP_GO (R305): A write of 1 to CCX_QSP_GO starts one QSPI command, or refuses it with PROTECTED under the slot protection. -/
  | ccxQspGo (w : RegWrite)
  /-- QSPI_COMPLETE (R305): A QSPI command completes, CCX_QSP_GO clears and CCX_QSP_CODE holds its status. -/
  | qspiComplete (data : List Byte)
  /-- BOOT_SELECT (R310): The boot ROM reads the boot record, verifies and loads a slot, and starts it, falls back to the other slot or enters recovery. -/
  | bootSelect (slotA slotB : SlotImage) (lost : Option (Fin 4))
  /-- MGC_TRIAL (R311): A write of 1 to MGC_TRIAL places the other slot on trial with three tries. -/
  | mgcTrial (w : RegWrite) (lost : Bool)
  /-- MGC_BOOTOK (R311): A write of 1 to MGC_BOOTOK confirms the running slot as preferred and good. -/
  | mgcBootok (w : RegWrite) (lost : Bool)
  /-- RECOVERY_RETRY (R313): In recovery, the boot ROM repeats selection every 10 s and after each successful program or erase. -/
  | recoveryRetry (slotA slotB : SlotImage) (lost : Option (Fin 4))
  /-- MGC_WKICK (R314): A write of 1 to MGC_WKICK restarts the management watchdog. -/
  | mgcWkick (w : RegWrite)
  /-- MGC_WATCHDOG (R314): Expiry of the management watchdog causes a system reset. -/
  | mgcWatchdog
  /-- CCX_KICK (R314): A write of a hart's bit in CCX_KICK restarts that hart's watchdog. -/
  | ccxKick (hart : Fin 4) (w : RegWrite)
  /-- HART_WATCHDOG (R314): Expiry of a hart watchdog resets that hart, sets CCX_HWDT and raises source 83. -/
  | hartWatchdog (hart : Fin 4)
  /-- CCX_HRST (R539): A write of a hart's bit in CCX_HRST resets that hart's architectural state. -/
  | ccxHrst (hart : Fin 4) (w : RegWrite)
  /-- MGC_CCXRELOAD (R315): A write of 1 to MGC_CCXRELOAD has the boot ROM service reread the application section. -/
  | mgcCcxreload (w : RegWrite)
  /-- RELOAD_COMPLETE (R315): The reload completes with OK, or with INTEG_FAIL, which logs RELOAD_FAIL and performs a system reset. -/
  | reloadComplete (app : List Byte)
  /-- RESTORE_PAGE (R317): Restore-sequencer op 0x1 rewrites a sealed page from its sealed copy. -/
  | restorePage (w : RegWrite)
  /-- RESTORE_ACC (R547): Restore-sequencer op 0x2 restores the billing state from the newer valid accumulator copy. -/
  | restoreAcc (w : RegWrite)
  /-- SAVE_ACC (R547): Restore-sequencer op 0x3 saves the billing state into the older accumulator copy between two closes. -/
  | saveAcc (w : RegWrite)
  /-- RESTORE_SEQ_DONE (R317): A restore-sequencer command completes in MGC_RSTS and interrupts the management core. -/
  | restoreSeqDone (lost : Option (BitVec 12))
  /-- MGC_DB_TOCCX (R302): A write of 1 to MGC_DB_TOCCX raises interrupt source 81 for the harts. -/
  | mgcDbToccx (w : RegWrite)
  /-- MGC_DB_TOMGC (R302): A write of 1 to MGC_DB_TOMGC interrupts the management core. -/
  | mgcDbTomgc (w : RegWrite)
  /-- TONE_TRANSMIT (R331): The PLT takes a frame from the MAC, latches the level, state and map, chooses the mode and starts sending. -/
  | toneTransmit
  /-- TONE_TX_COMPLETE (R341): A tone frame ends, PLT_TXEN is released and the request completes. -/
  | toneTxComplete
  /-- TONE_RECEIVE (R332): The PLT receives a tone frame, checks its FCH and delivers it to the MAC or drops and counts it. -/
  | toneReceive (f : ToneIn)
  /-- DRIVER_FAULT (R341): PLT_DFLT driven low stops the DAC, releases PLT_TXEN and cuts the frame with PARTIAL. -/
  | driverFault (low : Bool) (symbols : BitVec 10)
  /-- TMREQ (R336): A received TMREQ is answered with a map set for that neighbour. -/
  | tmreq
  /-- TMRSP (R334): A received TMRSP installs the neighbour's map set as the transmit map and corrects Δ. -/
  | tmrsp
  /-- TMAP_REFRESH (R336): After PLT_TMREF cycles with enough frames received, the PLT issues a new map set to the neighbour. -/
  | tmapRefresh (neighbour : Fin 64)
  /-- TMAP_EXPIRE (R336): A transmit map not renewed for 4 × PLT_TMREF cycles becomes invalid, or a previous issued set ages out after 64 cycles. -/
  | tmapExpire
  /-- PULSE_SLOT_DECIDE (R345): At the end of a usable pulse window, the PLP decides the slot's symbol and assembles the frames of its streams. -/
  | pulseSlotDecide (entry : Fin 256) (c0 c1 c2 c3 : BitVec 16)
  /-- DOWNLINK_REQUEST (R348): The MAC queues a downlink frame for a stream, to be sent in the stream's next ack window. -/
  | downlinkRequest (stream : Fin 64)
  /-- DOWNLINK_TIMEOUT (R348): A downlink with no ack window of its stream within PLP_DLWAIT cycles completes with TIMEOUT. -/
  | downlinkTimeout (stream : Fin 64)
  /-- PLM_RING_POLL (R353): The PLM checks an endpoint ring and takes transmit descriptors, refusing failing ones. -/
  | plmRingPoll (endpoint : Fin 128)
  /-- ACCESS_SLOT (R355): At a slot boundary of the window sequence on an idle medium, a device whose draw matches starts its frame. -/
  | accessSlot (window : Fin 4) (slot : Fin 16)
  /-- ACK_TIMEOUT (R359): An attempt whose acknowledgement is not heard in time fails, and the frame is retried or completes with TIMEOUT. -/
  | ackTimeout
  /-- REASSEMBLY_TIMEOUT (R364): A frame not reassembled within 64 cycles of its first segment is dropped and counted. -/
  | reassemblyTimeout
  /-- HELLO_SEND (R369): Once every PLM_HELLO cycles, the device broadcasts HELLO at P1. -/
  | helloSend
  /-- HELLO (R370): A received HELLO creates or refreshes a neighbour entry and may make it BIDIR or reveal an address conflict. -/
  | hello
  /-- BYE (R370): A received BYE removes the neighbour entry with its maps and routes. -/
  | bye
  /-- PLM_LEAVE (R371): A write of 1 to PLM_LEAVE sends BYE at P1. -/
  | plmLeave (w : RegWrite)
  /-- NEIGHBOUR_AGE (R370): A neighbour not heard for PLM_AGE times its HELLO period is removed. -/
  | neighbourAge
  /-- RADV_SEND (R373): Every PLM_RADV cycles, or soon after a route change, the device broadcasts RADV. -/
  | radvSend
  /-- RADV (R373): A received RADV updates the route candidates and the chosen route for each destination. -/
  | radv
  /-- ROUTE_AGE (R373): A route not refreshed for PLM_AGE × PLM_RADV cycles is removed. -/
  | routeAge
  /-- PLM_EP_KCOMMIT (R352): A write of 1 to PLM_EP_KCOMMIT commits the endpoint key and increments its generation. -/
  | plmEpKcommit (endpoint : Fin 128) (w : RegWrite)
  /-- PLM_SITEKEY_COMMIT (R362): A write of PLM_SITEKEY3 commits the site key. -/
  | plmSitekeyCommit (w : RegWrite)
  /-- PLM_JOIN (R375): A write to PLM_JOIN opens a join window and posts join-slot schedule requests. -/
  | plmJoin (w : RegWrite)
  /-- JOIN_WINDOW_CLOSE (R375): The join window ends after its length in cycles, and its entries are removed. -/
  | joinWindowClose
  /-- JOIN (R376): A JOIN heard on a join stream is verified and admitted with an ADMIT, or dropped and counted. -/
  | join
  /-- NODE_UPLINK (R378): A verified node DATA or ALARM uplink is delivered to its endpoint, relayed to sinks and acknowledged when requested. -/
  | nodeUplink
  /-- NODE_LEAVE (R377): A LEAVE from a node makes its entry DEPARTED and frees its stream. -/
  | nodeLeave
  /-- NODE_SILENT (R377): A node with no good frame for four keepalive intervals becomes SILENT. -/
  | nodeSilent (stream : Fin 64)
  /-- NODE_DEPARTED (R377): A SILENT node becomes DEPARTED after PLM_NHOLD cycles, freeing its stream and entry. -/
  | nodeDeparted (stream : Fin 64)
  /-- NRELAY (R378): A received NRELAY segment is verified under the node's MIC and delivered, or dropped as a replay. -/
  | nrelay
  /-- STORED_UPLINK_DELIVER (R379): Uplinks stored in D3 are delivered in order once rings are reachable again. -/
  | storedUplinkDeliver
  /-- SCHED_REQUEST_LATE (R380): A schedule request not active by its named cycle counts in PLM_SRQLATEN. -/
  | schedRequestLate
  /-- RGREQ (R381): A received RGREQ makes the peer anchor and listen for the probed node, then answer with RGRSP. -/
  | rgreq
  /-- RGRSP (R382): A received RGRSP lets the home choose and grant a repeater. -/
  | rgrsp
  /-- RGRANT (R382): A received RGRANT installs an ACTIVE or STANDBY repeater grant with its lease. -/
  | rgrant
  /-- RGREV (R382): A received RGREV withdraws a repeater grant and posts its removal. -/
  | rgrev
  /-- GRANT_RENEW (R382): The home renews a repeater grant before half its lease has run. -/
  | grantRenew (stream : Fin 64)
  /-- GRANT_EXPIRE (R382): A repeater grant whose lease runs out is dropped and its slot removal posted. -/
  | grantExpire (stream : Fin 64)
  /-- STANDBY_TAKEOVER (R383): A STANDBY repeater that has not heard the home for PLM_RG_DEAD cycles becomes ACTIVE. -/
  | standbyTakeover (stream : Fin 64)
  /-- TAKEOVER_LIMIT (R383): A repeater drops its grant after PLM_RG_MAXACT cycles of continuous home silence. -/
  | takeoverLimit (stream : Fin 64)
  /-- LINK_UP (R386): A chain receiver declares its link up after 64 valid idle sets. -/
  | linkUp (upstream : Bool) (bad : BitVec 16)
  /-- LINK_DOWN (R386): A chain receiver declares its link down on loss of signal or 256 code groups without K28.5. -/
  | linkDown (upstream : Bool) (bad : BitVec 16)
  /-- ENUM (R390): A received ENUM assigns the chain position and propagates enumeration downstream. -/
  | enum (frame : ChainFrame)
  /-- ANNOUNCE (R390): An ANNOUNCE relayed to the head records a device and may complete the enumeration. -/
  | announce (frame : ChainFrame)
  /-- LINK (R390): A LINK frame reaching the head triggers enumeration. -/
  | link (frame : ChainFrame)
  /-- SWC_ENUM (R390): A write of 1 to SWC_ENUM, or another trigger at the head, starts or defers an enumeration. -/
  | swcEnum (w : RegWrite)
  /-- ENUM_TIMEOUT (R390): An enumeration completes 1 ms after ENUM was sent, and the head records the device list. -/
  | enumTimeout
  /-- ALIGN_EXCHANGE (R393): Every SWC_APER cycles a device sends ALIGNREQ to its upstream neighbour. -/
  | alignExchange (t1 : BitVec 8)
  /-- ALIGNREQ (R393): A received ALIGNREQ is answered with ALIGNRSP carrying t2, t3 and the responder's offset. -/
  | alignreq (frame : ChainFrame) (t2 : BitVec 8) (turn : BitVec 32)
  /-- ALIGNRSP (R393): A received ALIGNRSP yields θ, d and the new offset O_k and updates the alignment state. -/
  | alignrsp (frame : ChainFrame) (t4 : BitVec 8)
  /-- ALIGN_TIMEOUT (R394): No ALIGNRSP within SWC_ATMO cycles makes the device unaligned. -/
  | alignTimeout
  /-- SWC_SW_GO (R397): A write of 1 to SWC_SW_GO on the head submits a sweep and sends SWEEP. -/
  | swcSwGo (w : RegWrite)
  /-- SWEEP (R398): A received SWEEP is forwarded, held pending and acknowledged with CMDACK. -/
  | sweep (frame : ChainFrame)
  /-- CMDACK (R401): A CMDACK reaching the head marks the position REACHED. -/
  | cmdack (frame : ChainFrame)
  /-- SWEEP_EXECUTE (R399): At the local tick of the execution stamp, the device executes the sweep, logs it, stores the result and sends RESULT. -/
  | sweepExecute
  /-- RESULT (R401): A RESULT reaching the head marks the position EXECUTED with its status and datum. -/
  | result (frame : ChainFrame)
  /-- REPORT_FINAL (R401): SWC_RWAIT cycles after the execution stamp, the head finalises the sweep report and logs its data. -/
  | reportFinal
  /-- SWC_F_GO (R402): A write of 1 to SWC_F_GO sends FETCH for a position of a held report. -/
  | swcFGo (w : RegWrite)
  /-- FETCH (R400): A device that receives FETCH naming its EUI answers with RESULT from its local store. -/
  | fetch (frame : ChainFrame)
  /-- FETCH_TIMEOUT (R402): A fetch with no RESULT within 1 ms completes with TIMEOUT. -/
  | fetchTimeout
  /-- SWC_OFS_READ (R404): A read of SWC_OFS_LO latches SWC_OFS_HI and SWC_OFS_FR. -/
  | swcOfsRead (r : RegRead)
  /-- SWC_RHDR_READ (R404): A read of SWC_RHDR latches the selected sweep report. -/
  | swcRhdrRead (r : RegRead)
  /-- MAG_ON (R405): A magnetic source at or above its threshold for its dwell is detected and logged. -/
  | magOn (source : Fin 10) (b peak : BitVec 16)
  /-- MAG_OFF (R405): A magnetic condition below its release level for its dwell is released and logged. -/
  | magOff (source : Fin 10) (b : BitVec 16)
  /-- ENC_OPEN (R405): An enclosure input active for TMP_EDEB is detected as open and logged. -/
  | encOpen (input : Fin 4)
  /-- ENC_CLOSE (R405): An enclosure input inactive for TMP_EDEB is released and logged. -/
  | encClose (input : Fin 4)
  /-- SUPPLY_GLITCH (R406): A supply comparator outside 85–115 % for 10 ns opens or counts a SUPPLY_GLITCH run. -/
  | supplyGlitch (supply : Fin 6) (high : Bool)
  /-- CLOCK_GLITCH (R406): A REF48 period or frequency fault, or an XT32 stop, opens or counts a CLOCK_GLITCH run. -/
  | clockGlitch (xt32 : Bool)
  /-- GLITCH_RUN_END (R406): 1,000 ms without a glitch of a detector ends its run with an END entry carrying the count. -/
  | glitchRunEnd (detector : Fin 8)
  /-- TEMP_OUT (R405): A thermal reading outside TMP_TLO to TMP_THI, or no valid site for 1 ms, is detected and logged. -/
  | tempOut (valid : Bool) (temp : BitVec 16)
  /-- TEMP_BACK (R405): The temperature back inside the range by TMP_THYS for 100 ms is released and logged. -/
  | tempBack (temp : BitVec 16)
  /-- LOG_EVENT (R412): The log engine accepts an event from a block's queue, stamps it, chains it and writes it, or coalesces or counts it. -/
  | logEvent
  /-- SEAL_WRITE (R415): The signature completes and the seal pair is written, or zeros are written and SEAL_FAIL follows. -/
  | sealWrite
  /-- CLG_SEALNOW (R417): A write of 1 to CLG_SEALNOW pads the current block and seals it. -/
  | clgSealnow (w : RegWrite)
  /-- CLG_RELEASE (R420): A write to CLG_RELEASE releases every sealed block below the number and logs LOG_RELEASE. -/
  | clgRelease (w : RegWrite)
  /-- CLG_RDW0_READ (R426): A read of CLG_RDW0 returns a log slot in the requester's view and latches the rest of the slot. -/
  | clgRdw0Read (r : RegRead)
  /-- CLG_EXP_GO (R427): A write of 1 to CLG_EXP_GO starts an export of blocks in the requester's view. -/
  | clgExpGo (w : RegWrite)
  /-- EXPORT_COMPLETE (R427): An export finishes writing its header and blocks and completes in CLG_EXP_CODE. -/
  | exportComplete
  /-- CLG_FW_CODE (R428): A write to CLG_FW_CODE submits a firmware event code to the log, or refuses it. -/
  | clgFwCode (w : RegWrite)
  /-- FULLCNT_SAVE (R422): While the log is full, its class counters are saved in the control record at least every 64 cycles. -/
  | fullcntSave
  /-- SEC_RING_POLL (R447): The security engine checks a tenant's ring and takes descriptors, checking each under R449. -/
  | secRingPoll (tenant : Fin 64)
  /-- SHA256 (R430): Operation 0x01 computes a SHA-256 digest of the input. -/
  | sha256
  /-- HMAC (R430): Operation 0x02 computes an HMAC-SHA-256 tag under a slot key. -/
  | hmac
  /-- CCM_ENC (R430): Operation 0x03 encrypts and authenticates a payload with AES-CCM. -/
  | ccmEnc
  /-- CCM_DEC (R450): Operation 0x04 decrypts and verifies with AES-CCM and writes zeros on tag mismatch. -/
  | ccmDec
  /-- SIGN (R430): Operation 0x05 signs a digest with ECDSA P-256. -/
  | sign
  /-- VERIFY (R450): Operation 0x06 verifies an ECDSA P-256 signature and reports the result in SEC_C_RES. -/
  | verify
  /-- ECDH (R449): Operation 0x07 derives a key by ECDH and HKDF into the destination slot as a rewrite. -/
  | ecdh
  /-- RANDOM (R430): Operation 0x08 writes bytes from the DRBG. -/
  | random
  /-- LOAD (R436): Operation 0x10 loads key material into a slot as a rewrite. -/
  | load
  /-- GENERATE (R436): Operation 0x11 generates a key in a slot as a rewrite. -/
  | generate
  /-- ERASE (R437): Operation 0x12 erases a slot, incrementing its generation and zeroizing latched contents. -/
  | erase
  /-- PUBKEY (R434): Operation 0x13 writes the public key of a type 4 slot. -/
  | pubkey
  /-- SEC_OP_COMPLETE (R451): A security operation completes, commits any rewrite and writes its completion record. -/
  | secOpComplete (unit : Fin 6)
  /-- ERASE_DEADLINE (R437): 2 ms after an erase is accepted, operations still holding the old contents abort with KEY_RETIRED and the contents are zeroized. -/
  | eraseDeadline (slot : Fin 32)
  /-- RBG_FAIL (R432): A noise-source health-test failure sets SEC_RBGERR and counts SEC_RBGFAILN. -/
  | rbgFail
  /-- RBG_RECOVER (R432): After 1,024 consecutive passing samples, SEC_RBGERR clears. -/
  | rbgRecover
  /-- SEC_RBADV (R446): A write of 1 to SEC_RBADV advances the OTP rollback counter to MGC_B_SVN. -/
  | secRbadv (w : RegWrite)
  /-- SEC_REVK0 (R446): A write of 1 to SEC_REVK0 programs the revoked bit of root key 0. -/
  | secRevk0 (w : RegWrite)
  /-- SEC_REVK1 (R446): A write of 1 to SEC_REVK1 programs the revoked bit of root key 1. -/
  | secRevk1 (w : RegWrite)
  /-- SEC_IDARM (R444): A write of 1 to SEC_IDARM arms identity retirement. -/
  | secIdarm (w : RegWrite)
  /-- SEC_IDRETIRE (R444): An armed write of 1 to SEC_IDRETIRE erases slot 0 and programs the OTP retired bit. -/
  | secIdretire (w : RegWrite)
  /-- CEL_RING_POLL (R462): The Cellar checks a tenant's command ring and takes descriptors, checking each under R463. -/
  | celRingPoll (tenant : Fin 64)
  /-- CEL_READ (R463): A READ command reads groups of a held unit into memory. -/
  | celRead
  /-- CEL_WRITE (R468): A WRITE command writes groups of a held unit from memory. -/
  | celWrite
  /-- CEL_ZERO (R468): A ZERO command writes groups of a held unit to zero. -/
  | celZero
  /-- CEL_COMMAND_COMPLETE (R464): A Cellar command ends, with OK, INTEG_FAIL or POWER_LOST, and writes its completion record. -/
  | celCommandComplete (fail : Option (Fin 1024))
  /-- SCRUB (R472): Every CEL_SCRUB × 10 µs the scrubber reads and restores the next group. -/
  | scrub (upsets : List (Fin 131072 × BitVec 72))
  /-- CEL_UNRESV (R460): A write of 1 to CEL_UNRESV wipes a reserved unit and returns it home. -/
  | celUnresv (w : RegWrite)
  /-- CEL_BPARM (R461): A write of 1 to CEL_BPARM arms lowering of block-protect. -/
  | celBparm (w : RegWrite)
  /-- CEL_BP_WRITE (R461): A write to CEL_BP raises protection at once, or lowers it only after a valid arming. -/
  | celBpWrite (w : RegWrite)
  /-- CEL_M_GO (R466): A write of 1 to CEL_M_GO reads or writes up to 8 groups of a system area through the management port. -/
  | celMGo (fail : Option (Fin 8)) (w : RegWrite)
  /-- UNIT_WIPE_DONE (R458): When the last group of a unit wipe is written, the unit becomes home or granted, and the grant or revoke completes. -/
  | unitWipeDone
  /-- ESTIMATION_STEP (R480): Once per second the gauge runs one estimation step of counting, rest, end points, OCV correction and the clamp. -/
  | estimationStep (m : GaugeSecond)
  /-- BURST_EDGE (R486): A burst edge from the Tun array yields an impedance step that the gauge accepts or rejects. -/
  | burstEdge (pre post : GaugeSample) (alone : Bool)
  /-- OPEN_WIRE_TEST (R490): The gauge draws 50 µA between two lines for 10 ms and judges whether a line is open. -/
  | openWireTest (before after : BitVec 16)
  /-- BGA_OWNOW (R490): A write of 1 to BGA_OWNOW starts a test of every sense line. -/
  | bgaOwnow (w : RegWrite)
  /-- BGA_MNT_GO (R488): A write of 1 to BGA_MNT_GO starts a maintenance discharge. -/
  | bgaMntGo (w : RegWrite)
  /-- BGA_MNT_ABORT (R488): A write of 1 to BGA_MNT_ABORT ends the maintenance discharge with SKIPPED. -/
  | bgaMntAbort (w : RegWrite)
  /-- MNT_END (R488): BGA_MNT_END passing before the empty point ends the maintenance discharge with TIMEOUT. -/
  | mntEnd
  /-- BGA_RESTORE (R496): A write of 1 to BGA_RESTORE loads the gauge state from BGA_RIN, or refuses it. -/
  | bgaRestore (w : RegWrite)
  /-- BGA_COLD (R497): A write of 1 to BGA_COLD starts the gauge from the design capacity and the first reading. -/
  | bgaCold (w : RegWrite)
  /-- BGA_TCOMMIT (R498): A write of 1 to BGA_TCOMMIT makes the shadow OCV table active, or refuses it. -/
  | bgaTcommit (w : RegWrite)
  /-- SNAPSHOT (R494): A read of BGA_REC0 takes a snapshot of the gauge state and latches the record words. -/
  | snapshot (r : RegRead)
  /-- VIN_LOST (R499): VIN below 8.5 V for 20 µs, or above 17.5 V for 10 µs, is lost, and the power path moves to the pack. -/
  | vinLost (vin vbat : BitVec 16)
  /-- VIN_PRESENT (R499): VIN in range for 10 ms is present again, and the PMU returns to ON_VIN. -/
  | vinPresent (vin vbat : BitVec 16)
  /-- POWER_UP (R504): VSYS at or above 5.0 V for 1 ms starts the rail sequence of Table 20-2. -/
  | powerUp (strap : Fin 4) (held : Bool) (vin vbat : BitVec 16)
  /-- RAIL_FAULT (R502): A rail that fails to ramp or falls below 85 % is faulted, and the PMU powers down. -/
  | railFault (rail : Fin 7)
  /-- RAIL_RESTART (R505): One second after a faulted rail, the PMU restarts from step 1, or holds the rails off after the third fault. -/
  | railRestart
  /-- AUX_ATTEMPT (R507): An AUXOUT attempt ramps the output for 4 ms under the current limit. -/
  | auxAttempt
  /-- AUX_ATTEMPT_CHECK (R507): At the end of the ramp plus 1 ms, an attempt succeeds or fails, latching AUXOUT off after the fourth failure. -/
  | auxAttemptCheck (mv : BitVec 16)
  /-- AUX_DROP (R509): A running AUXOUT below 70 % for 1 ms is switched off and signalled down to the tone channel. -/
  | auxDrop (mv : BitVec 16)
  /-- AUX_GOOD_HOLD (R507): AUXOUT good for 10 s without a break returns the attempt count to zero. -/
  | auxGoodHold
  /-- PMU_AUX_RETRY (R508): A write of 1 to PMU_AUX_RETRY clears the latch and starts attempt 1. -/
  | pmuAuxRetry (w : RegWrite)
  /-- PMU_AUX_EN (R508): A write of PMU_AUX_EN starts AUXOUT from 0 to 1, or switches it off when written 0. -/
  | pmuAuxEn (on : Bool) (w : RegWrite)
  /-- WRITE_BLOCK_ASSERT (R511): A brown-out condition asserts the Cellar write block and opens the CHOLD switch. -/
  | writeBlockAssert (cut : BitVec 12)
  /-- WRITE_BLOCK_RELEASE (R511): With no condition for 10 ms and CHOLD at 3.2 V, the write block is released. -/
  | writeBlockRelease
  /-- CUTOFF_WARNING (R512): VBAT at the warning threshold for 1 s on the pack enters CUT_PENDING and gives the gauge its cut-off notice. -/
  | cutoffWarning (vbat : BitVec 16)
  /-- PMU_CUTACK (R512): A write of 1 to PMU_CUTACK lets the PMU proceed to cut-off. -/
  | pmuCutack (w : RegWrite)
  /-- CUT_GRACE (R512): PMU_CUTGRACE milliseconds without acknowledgement lead the PMU to cut-off. -/
  | cutGrace
  /-- HARD_CUTOFF (R513): VBAT at the hard threshold for 10 ms goes straight to the cut-off sequence. -/
  | hardCutoff (vbat : BitVec 16)
  /-- CUTOFF_SEQUENCE (R512): The PMU logs PACK_CUTOFF, drains the log, asserts the write block, powers down and enters CUT_OFF. -/
  | cutoffSequence
  /-- CHARGE_DONE (R514): Current below BGA_ITAPER for 60 s at the charge voltage ends the charge in DONE. -/
  | chargeDone
  /-- CHARGE_RESTART (R514): VBAT falling PMU_CHG_RECH below the charge voltage restarts charging. -/
  | chargeRestart (vbat : BitVec 16)
  /-- CHARGE_TEMP (R514): The NTC ratio leaving or re-entering its band suspends or resumes charging. -/
  | chargeTemp (ratio : Byte)
  /-- CHARGE_TIMEOUT (R514): A charge running PMU_CHG_TMAX hours without DONE stops in FAULT. -/
  | chargeTimeout
  /-- PMU_KILN_ARM (R515): A write of 1 to PMU_KILN_ARM arms Kiln entry. -/
  | pmuKilnArm (w : RegWrite)
  /-- PMU_KILN_GO (R515): An armed write of 1 to PMU_KILN_GO accepts Kiln entry and has the MAC send BYE. -/
  | pmuKilnGo (w : RegWrite)
  /-- PMU_KILN_CONFIRM (R515): A write of 1 to PMU_KILN_CONFIRM logs KILN_IN, seals the log, powers down and enters KILN. -/
  | pmuKilnConfirm (w : RegWrite)
  /-- KILN_TIMEOUT (R515): No confirmation within PMU_KILN_TMO ends the Kiln entry with TIMEOUT. -/
  | kilnTimeout
  /-- KILN_EXIT (R516): VIN becoming present or KWAKE low for 1 s ends Kiln mode and starts power-up. -/
  | kilnExit (kwake : Bool) (vin vbat : BitVec 16)
  /-- AVS_STEP (R525): Every 1 ms, each unpinned AVS rail moves one code toward the target margin within its envelope. -/
  | avsStep
  /-- SUPPLY_LOOP (R526): The supply loop raises a rail or the Tun divisor when margin or voltage falls short, and hands back after 10 ms clear. -/
  | supplyLoop (margins : List (BitVec 16)) (volts : List (List (BitVec 16)))
  /-- THERMAL_LOOP (R527): Every 1 ms the thermal loop adjusts the Tun divisor and cluster mask from the thermal sites. -/
  | thermalLoop (temps : List (BitVec 16))
  /-- DEGRADE_DESCENT (R529): A descent condition lowers the level in one step, performing each entered level's actions and logging DEGRADE. -/
  | degradeDescent
  /-- DEGRADE_ASCENT (R530): When its conditions hold, the level ascends one step at the next window boundary, or from D3 to D2 on VIN. -/
  | degradeAscent
  /-- MON_CAP (R534): A write to MON_CAP sets the lowest permitted level and may cause a descent at the next window boundary. -/
  | monCap (cap : Fin 4) (w : RegWrite)
  /-- MON_ASCEND (R535): A write of 1 to MON_ASCEND sets MON_ASCOK and permits ascent. -/
  | monAscend (w : RegWrite)
  /-- INSPECT_EXPIRE (R536): A start on the pack that has run MON_INSPECT seconds in D2 without VIN descends to D3. -/
  | inspectExpire
  /-- COLD_START (R551): A cold start runs power-up, OTP and key load, Cellar and log recovery, seal re-establishment and image selection. -/
  | coldStart (otpOk : Bool)
  /-- SYSTEM_RESET (R539): A watchdog, RELOAD_FAIL, SYS_RSTN or a debug request restarts the control complex while billing runs on. -/
  | systemReset (debug : Bool)
  /-- HOST_READ (R559): A host-access READ frame reads up to 16 words as accesses of the session's tenant. -/
  | hostRead (r : HostReq)
  /-- HOST_WRITE (R559): A host-access WRITE frame writes up to 16 carry-coded words, stopping at the first failing word. -/
  | hostWrite (r : HostReq)
  /-- LOCKPAIR (R560): A LOCKPAIR frame reads LOCK and writes the computed response back to back. -/
  | lockpair (r : HostReq)
  /-- OPEN (R561): An OPEN frame starts a session for a tenant and key slot and returns a nonce. -/
  | openSession (r : HostReq)
  /-- PROVE (R561): A PROVE frame with a matching tag opens the session, and failures count toward lockout. -/
  | prove (r : HostReq)
  /-- CLOSE (R562): A CLOSE frame closes the session. -/
  | closeSession (r : HostReq)
  /-- DISCOVER (R564): A DISCOVER frame returns the device's identity and places without a session. -/
  | discover (r : HostReq)
  /-- LOCKOUT_END (R561): The 10 s lockout of an interface after three failed proofs ends. -/
  | lockoutEnd (iface : Fin 3)
  /-- HSP_CS_CUT (R565): HSP_CSN rising mid-request discards the request and counts HSP_CUTN. -/
  | hspCsCut
  /-- NOTE (R569): On a rise of a session tenant's summary line, and every ETH_NOTEMS while it stays high, a NOTE datagram is sent. -/
  | note (session : Fin 16)
  /-- ETH_TX_DESC (R570): The MAC sends the frame of the next owned transmit descriptor and clears OWN. -/
  | ethTxDesc
  /-- ETH_RX_FRAME (R570): A received non-host frame is written to the next owned receive descriptor, or dropped. -/
  | ethRxFrame (frame : List Byte)
  /-- ETH_MD_GO (R571): A write of 1 to ETH_MD_GO performs one MDIO operation. -/
  | ethMdGo (answer : BitVec 16) (w : RegWrite)
  /-- PHY_POLL (R571): Every 100 ms the MDIO master reads the PHY link status into ETH_LINK. -/
  | phyPoll (link : Bool)
  /-- UART_TXDATA (R573): A write to UART_TXDATA queues a byte that is sent after the idle gap with DE control and collision check. -/
  | uartTxdata (uart : Fin 2) (w : RegWrite)
  /-- UART_RX_CHAR (R572): A received character is stored in the receive FIFO with its error bit. -/
  | uartRxChar (uart : Fin 2) (char : Byte) (err : Bool)
  /-- UART_RXDATA_READ (R578): A read of UART_RXDATA returns and removes the oldest received byte. -/
  | uartRxdataRead (uart : Fin 2) (r : RegRead)
  /-- UART_EOF (R573): A receive gap of UART_GAP bit times after a character raises UART_I_EOF. -/
  | uartEof (uart : Fin 2) (idle : Bool)
  /-- GPIO_EDGE (R574): A selected edge on an input pin sets its bit in GPIO_EVT. -/
  | gpioEdge (pin : Fin 48) (level : Bool)
  /-- TIN_CHANGE (R575): A tariff input that holds a new level for TIN_DEB ms changes its debounced level and counts activations. -/
  | tinChange (input : Fin 8) (level : Bool)
  /-- DBG_ARM (R576): A write of 1 to DBG_ARM arms a debug mode change. -/
  | dbgArm (w : RegWrite)
  /-- DBG_REQ (R576): A write of DBG_REQ after a valid arming changes the debug mode and logs it. -/
  | dbgReq (w : RegWrite)
  /-- XT32_RESTART (R406): When XT32 runs again after a stop, the CLOCK_GLITCH run opened by the stop ends, CD00 and CD57 return to the crystal and UTC stops being marked estimated. -/
  | xt32Restart
  /-- PLIC_CLAIM (R302): A hart's claim of an interrupt source at the platform interrupt controller clears the pending source, and a claim of source 81 clears MGC_DB_TOCCX. -/
  | plicClaim (context : Fin 8)
  /-- PROBE_TIMEOUT (R381): A peer probed by RGREQ that hears nothing within 4 × P × PLM_RG_PROBE cycles answers RGRSP with TIMEOUT and drops the probe slot. -/
  | probeTimeout (stream : Fin 64)
  /-- PACK_PRESENCE_CHANGE (R499): VBAT crossing N × PMU_CUT_VCELL while on VIN makes the pack present or not present, starting or stopping the charger and the pack-pair drive. -/
  | packPresenceChange (vbat : BitVec 16)
  /-- VSYS_POWER_DOWN (R505): VSYS falling below 4.5 V powers the rails down in reverse order, ending a no-pack outage. -/
  | vsysPowerDown
  /-- UART_TX_END (R573): When the transmit FIFO has emptied, the UART releases UARTn_DE UART_DETAIL bit times after the last stop bit and raises UART_I_TXE. -/
  | uartTxEnd (uart : Fin 2)
  deriving DecidableEq, Repr

end Sys2Proof
end

