-- ==== Sys2Proof/Decode.lean ====
section
/-! DEFINITION. The command that a word spells by the bits of the opcode table. The table gives none of
its rows bits: the commands are events and operations of the block, not words. -/

namespace Sys2Proof

/-- The command spelled by a word of `nbits` bits: no row of the table has bits. -/
def decodeTableWord (_nbits _w : Nat) : Option Instr := none

end Sys2Proof
end

