-- ==== Sys2Proof/Config.lean ====
section
/-! DEFINITION. What an implementation fixes and the manual leaves open: the free values.
Each is an opaque constant, so that no proof can see a value of it. -/

namespace Sys2Proof.Config

/-- Free bits: the `n`-th value drawn where the manual states no value (log entry 7).
`State.free` counts the draws. -/
opaque freeWord : Nat → BitVec 256

/-- The 8-tap interpolation of R162: the coefficients are not given. The value at a fractional
position in 1/65,536 of a sample, from eight neighbouring samples (log entry 9). -/
opaque interpolate : Nat → List Int → Int

/-- The contents of the boot ROM, byte by byte: the manual gives its duties and not its code (log entry 32). -/
opaque bootRom : Nat → BitVec 8

end Sys2Proof.Config
end

