-- ==== Sys2Proof/Machine/Bits.lean ====
section
/-! DEFINITION. Bit fields, byte order, rounding, stamps and status codes: the small arithmetic that
every meaning uses. -/

namespace Sys2Proof.Machine

/-- Bits `lo + width - 1 : lo` of a number. -/
def bits (n lo width : Nat) : Nat := n / 2 ^ lo % 2 ^ width

/-- Bit `k` of a number. -/
def bit (n k : Nat) : Bool := n / 2 ^ k % 2 == 1

/-- `n` with bits `lo + width - 1 : lo` replaced by `v`. -/
def putBits (n lo width v : Nat) : Nat :=
  n - bits n lo width * 2 ^ lo + v % 2 ^ width * 2 ^ lo

/-- `n` with bit `k` set. -/
def setBit (n k : Nat) : Nat := if bit n k then n else n + 2 ^ k

/-- `n` with bit `k` clear. -/
def clearBit (n k : Nat) : Nat := if bit n k then n - 2 ^ k else n

/-- 1 or 0. -/
def b2n (b : Bool) : Nat := if b then 1 else 0

/-- The numbers of the bits set among the lowest `w`. -/
def bitsSet (n w : Nat) : List Nat := (List.range w).filter (bit n)

/-- The two's complement value of the lowest `w` bits. -/
def signed (w n : Nat) : Int :=
  let m := n % 2 ^ w
  if m < 2 ^ (w - 1) then (m : Int) else (m : Int) - (2 ^ w : Nat)

/-- The `w` bits of a two's complement number. -/
def unsigned (w : Nat) (i : Int) : Nat := (i % (2 ^ w : Nat)).toNat

/-- `i` limited to `w`-bit two's complement. -/
def satSigned (w : Nat) (i : Int) : Int :=
  max (-(2 ^ (w - 1) : Nat)) (min i ((2 ^ (w - 1) : Nat) - 1))

/-- A count that saturates at the largest number of `w` bits. -/
def satNat (w n : Nat) : Nat := min n (2 ^ w - 1)

/-- The quotient rounded to the nearest integer, halves away from zero. -/
def divRound (a : Int) (b : Nat) : Int :=
  if b = 0 then 0
  else if a < 0 then -(((2 * a.natAbs + b) / (2 * b) : Nat) : Int)
  else (((2 * a.natAbs + b) / (2 * b) : Nat) : Int)

/-- The same for natural numbers. -/
def divRoundNat (a b : Nat) : Nat := if b = 0 then 0 else (2 * a + b) / (2 * b)

/-- The quotient rounded up. -/
def ceilDiv (a b : Nat) : Nat := if b = 0 then 0 else (a + b - 1) / b

/-- The integer square root, by Newton steps on `fuel`. -/
def isqrtAux (n : Nat) : Nat → Nat → Nat
  | 0, x => x
  | fuel + 1, x =>
    let y := (x + n / x) / 2
    if y < x then isqrtAux n fuel y else x

/-- The largest number whose square is at most `n`. -/
def isqrt (n : Nat) : Nat :=
  if n < 2 then n else isqrtAux n (Nat.log2 n + 8) (2 ^ (Nat.log2 n / 2 + 1))

/-- The square root rounded to the nearest integer. -/
def isqrtRound (n : Nat) : Nat :=
  let r := isqrt n
  if n > r * r + r then r + 1 else r

/-- `k` bytes of a number, least significant first (R8). -/
def leBytes : Nat → Nat → List Byte
  | 0, _ => []
  | k + 1, n => BitVec.ofNat 8 n :: leBytes k (n / 256)

/-- The number held in bytes, least significant first (R8). -/
def leNat : List Byte → Nat
  | [] => 0
  | b :: bs => b.toNat + 256 * leNat bs

/-- `k` bytes of a number, most significant first. -/
def beBytes (k n : Nat) : List Byte := (leBytes k n).reverse

/-- The number held in bytes, most significant first. -/
def beNat (l : List Byte) : Nat := leNat l.reverse

/-- Bytes `o` to `o + k - 1` of a list as a number, least significant first. -/
def leAt (l : List Byte) (o k : Nat) : Nat := leNat ((l.drop o).take k)

/-- The bytes of an ASCII text. -/
def ascii (t : String) : List Byte := t.toList.map fun c => BitVec.ofNat 8 c.toNat

/-- A list padded with zeros to `n` bytes, or cut there. -/
def padTo (n : Nat) (l : List Byte) : List Byte := (l ++ List.replicate n 0).take n

/-- The 64 bits of a stamp: the cycle in bits 63:16, the phase in bits 15:0. -/
def stampNat (s : Stamp) : Nat := s.cyc % 2 ^ 48 * 65536 + s.ph % 65536

/-- The stamp with the given 64 bits. -/
def stampOf (n : Nat) : Stamp := ⟨n / 65536 % 2 ^ 48, n % 65536⟩

/-- `s` is before `t`. -/
def stampLt (s t : Stamp) : Bool := stampNat s < stampNat t

/-- `n` ticks after a stamp. -/
def stampAdd (s : Stamp) (n : Nat) : Stamp := stampOf ((stampNat s + n) % 2 ^ 64)

/-- The code of a status (Table 0-3). -/
def codeOf : Status → Nat
  | .ok => 0x00 | .zeroLen => 0x01 | .delayed => 0x02 | .refusedQuota => 0x03
  | .refusedPriority => 0x04 | .keyRetired => 0x05 | .integFail => 0x06 | .prot => 0x07
  | .degraded => 0x08 | .timeout => 0x09 | .part => 0x0A | .holdover => 0x0B
  | .cfgInvalid => 0x0C | .notOwner => 0x0D | .skipped => 0x0E | .powerLost => 0x0F

/-- The status of a stored code (Table 0-3). -/
def statusOf (n : Nat) : Status :=
  match n with
  | 0x00 => .ok | 0x01 => .zeroLen | 0x02 => .delayed | 0x03 => .refusedQuota
  | 0x04 => .refusedPriority | 0x05 => .keyRetired | 0x06 => .integFail | 0x07 => .prot
  | 0x08 => .degraded | 0x09 => .timeout | 0x0A => .part | 0x0B => .holdover
  | 0x0C => .cfgInvalid | 0x0D => .notOwner | 0x0E => .skipped | _ => .powerLost

/-- The place of a status in the order of R11; the lowest is reported. -/
def rankOf : Status → Nat
  | .integFail => 1 | .notOwner => 2 | .prot => 3 | .cfgInvalid => 4 | .zeroLen => 5
  | .keyRetired => 6 | .powerLost => 7 | .refusedQuota => 8 | .refusedPriority => 9
  | .timeout => 10 | .skipped => 11 | .part => 12 | .holdover => 13 | .degraded => 14
  | .delayed => 15 | .ok => 16

/-- The status that R11 reports of two. -/
def firstOf (a b : Status) : Status := if rankOf a ≤ rankOf b then a else b

end Sys2Proof.Machine
end

