-- ==== Sys2Proof/Machine/Cells.lean ====
section
/-! DEFINITION. Sparse maps: lists of (key, value) pairs in one canonical form, keys strictly rising
and no value equal to what an unlisted key reads as. Memory, the register space and the tables of
the engines are held in this form, so that equal contents are equal data. -/

namespace Sys2Proof.Machine

/-- The value at key `k`; `d` where it is not listed. -/
def cellAt {α : Type} (d : α) (k : Nat) : List (Nat × α) → α
  | [] => d
  | (j, v) :: r => if k = j then v else cellAt d k r

/-- The list with key `k` removed. -/
def cellErase {α : Type} (k : Nat) : List (Nat × α) → List (Nat × α)
  | [] => []
  | (j, v) :: r => if k = j then cellErase k r else (j, v) :: cellErase k r

/-- The list with `v` at key `k`, in rising order of keys. -/
def cellInsert {α : Type} (k : Nat) (v : α) : List (Nat × α) → List (Nat × α)
  | [] => [(k, v)]
  | (j, u) :: r =>
    if k < j then (k, v) :: (j, u) :: r
    else if k = j then (k, v) :: r
    else (j, u) :: cellInsert k v r

/-- The list with `v` at key `k`; a value equal to the default `d` is not listed. -/
def cellPut {α : Type} [DecidableEq α] (d : α) (k : Nat) (v : α) (l : List (Nat × α)) :
    List (Nat × α) :=
  if v = d then cellErase k l else cellInsert k v l

/-- Keys strictly rise, all of them above `b` where `b` is given. -/
def cellsRise {α : Type} : Option Nat → List (Nat × α) → Bool
  | _, [] => true
  | none, (j, _) :: r => cellsRise (some j) r
  | some b, (j, _) :: r => b < j && cellsRise (some j) r

/-- The canonical form: keys strictly rise and no listed value is the default of its key. -/
def cellsWf {α : Type} [DecidableEq α] (d : Nat → α) (l : List (Nat × α)) : Bool :=
  cellsRise none l && l.all fun e => decide (e.2 ≠ d e.1)

end Sys2Proof.Machine
end

