-- ==== Sys2Proof/Machine/RegMap.lean ====
section
/-! DEFINITION. The register map: the page index (Table 3-10), the common header (Table 3-2), the
registers and fields of every page with their access codes and reset values, from the register
tables of the chapters, and a name for every field. -/

namespace Sys2Proof.Machine

/-- The access codes of Table 0-2 (R3). -/
inductive AccessCode where
  | rw | ro | rc | w1c | w1s | wo
  deriving DecidableEq, Repr

/-- One field of a register: bits `hi : lo`, its access code, its reset value, whether its chapter
exempts it from LOCK (R75) and whether it names it readable by every tenant (R68). -/
structure FieldRow where
  hi     : Nat
  lo     : Nat
  acc    : AccessCode
  reset  : Nat
  exempt : Bool
  pub    : Bool
  deriving DecidableEq, Repr

/-- The registers at byte offset `off + s1 * i + s2 * j` of a page, `i < n1` and `j < n2`. -/
structure RegRow where
  off    : Nat
  n1     : Nat
  s1     : Nat
  n2     : Nat
  s2     : Nat
  fields : List FieldRow
  deriving DecidableEq, Repr

/-- The owner of a row of pages at reset (Table 3-10). -/
inductive HomeOwner where
  /-- one tenant owns every page of the row -/
  | one (t : Nat)
  /-- page n of the row belongs to TCn -/
  | each
  deriving DecidableEq, Repr

/-- Whether the pages of a row move by grant (Table 3-10). -/
inductive Grantability where
  | fixed | grantable
  deriving DecidableEq, Repr

/-- One row of the page index, Table 3-10 (R95). -/
structure PageRow where
  first : Nat
  last  : Nat
  home  : HomeOwner
  grant : Grantability
  deriving DecidableEq, Repr

/-- The page index, Table 3-10 (R95). -/
def pageIndex : List PageRow := [
  ⟨0x000, 0x000, .one 0, .fixed⟩,  -- SYS
  ⟨0x001, 0x001, .one 0, .fixed⟩,  -- IAG
  ⟨0x002, 0x005, .one 0, .fixed⟩,  -- TNC
  ⟨0x010, 0x011, .one 0, .fixed⟩,  -- CTF
  ⟨0x020, 0x028, .one 1, .fixed⟩,  -- ACS
  ⟨0x029, 0x029, .one 1, .fixed⟩,  -- ACS
  ⟨0x030, 0x030, .one 1, .fixed⟩,  -- MTE
  ⟨0x031, 0x038, .one 1, .fixed⟩,  -- MTE
  ⟨0x039, 0x039, .one 1, .fixed⟩,  -- MTE
  ⟨0x040, 0x047, .one 1, .fixed⟩,  -- ACC
  ⟨0x048, 0x048, .one 1, .fixed⟩,  -- ACC
  ⟨0x060, 0x06f, .one 1, .grantable⟩,  -- PLS
  ⟨0x070, 0x070, .one 0, .grantable⟩,  -- PQE
  ⟨0x080, 0x080, .one 0, .fixed⟩,  -- TUN
  ⟨0x081, 0x088, .one 0, .fixed⟩,  -- TUN
  ⟨0x090, 0x090, .one 0, .fixed⟩,  -- LTR
  ⟨0x098, 0x098, .one 0, .fixed⟩,  -- BARM
  ⟨0x0a0, 0x0a3, .one 0, .fixed⟩,  -- CCX
  ⟨0x0a8, 0x0a8, .one 0, .fixed⟩,  -- MGC
  ⟨0x0b0, 0x0b1, .one 0, .fixed⟩,  -- PLT
  ⟨0x0b4, 0x0b4, .one 0, .fixed⟩,  -- PLP
  ⟨0x0b8, 0x0bb, .one 0, .fixed⟩,  -- PLM
  ⟨0x0c0, 0x0c0, .one 0, .fixed⟩,  -- SWC
  ⟨0x0c8, 0x0c8, .one 0, .fixed⟩,  -- TMP
  ⟨0x0cc, 0x0cc, .one 0, .fixed⟩,  -- CLG
  ⟨0x0d0, 0x0d0, .one 0, .fixed⟩,  -- SEC
  ⟨0x0d8, 0x0d8, .one 0, .fixed⟩,  -- CEL
  ⟨0x0e0, 0x0e0, .one 0, .fixed⟩,  -- BGA
  ⟨0x0e8, 0x0e9, .one 0, .fixed⟩,  -- PMU
  ⟨0x0f0, 0x0f0, .one 0, .fixed⟩,  -- MON
  ⟨0x100, 0x100, .one 0, .fixed⟩,  -- ETH
  ⟨0x104, 0x104, .one 0, .fixed⟩,  -- HSP
  ⟨0x108, 0x108, .one 0, .fixed⟩,  -- I2T
  ⟨0x10c, 0x10d, .one 0, .grantable⟩,  -- UART
  ⟨0x110, 0x110, .one 0, .grantable⟩,  -- GPIO
  ⟨0x114, 0x114, .one 0, .grantable⟩,  -- TIN
  ⟨0x118, 0x118, .one 0, .fixed⟩,  -- DBG
  ⟨0x140, 0x17f, .each, .fixed⟩,  -- ACC
  ⟨0x300, 0x33f, .each, .fixed⟩  -- TNC
  ]

/-- A place in the register space: `width` bits from bit `lo` of the word at byte offset `off` of
`page`. Fields wider than 32 bits go on in the words above. -/
structure Fld where
  page  : Nat
  off   : Nat
  lo    : Nat
  width : Nat
  deriving DecidableEq, Repr

namespace RegMap

/-- Registers of the common header that hold a value of their own: Table 3-2. Bits 24 to 31 of
CTRL hold the page reset request; ID, VERSION, STATUS, IRQ_PEND, LOCK, OWNER and INTEG have their
own rules. -/
def header : List RegRow := [
  ⟨0x00, 1, 4096, 1, 4096, [⟨31, 26, .ro, 0, false, true⟩, ⟨25, 16, .ro, 0, false, true⟩, ⟨15, 0, .ro, 0, false, true⟩]⟩,  -- ID
  ⟨0x04, 1, 4096, 1, 4096, [⟨23, 16, .ro, 0xb1, false, true⟩, ⟨15, 8, .ro, 1, false, true⟩, ⟨7, 0, .ro, 0, false, true⟩]⟩,  -- VERSION
  ⟨0x08, 1, 4096, 1, 4096, [⟨31, 31, .w1s, 0, false, false⟩]⟩,  -- CTRL
  ⟨0x0c, 1, 4096, 1, 4096, [⟨31, 31, .ro, 0, false, false⟩, ⟨30, 30, .ro, 0, false, false⟩, ⟨29, 29, .ro, 0, false, false⟩, ⟨28, 28, .ro, 0, false, false⟩]⟩,  -- STATUS
  ⟨0x10, 1, 4096, 1, 4096, [⟨31, 0, .w1c, 0, true, false⟩]⟩,  -- IRQ_RAW
  ⟨0x14, 1, 4096, 1, 4096, [⟨31, 0, .rw, 0, false, false⟩]⟩,  -- IRQ_EN
  ⟨0x18, 1, 4096, 1, 4096, [⟨31, 0, .ro, 0, false, false⟩]⟩,  -- IRQ_PEND
  ⟨0x1c, 1, 4096, 1, 4096, [⟨31, 0, .wo, 0, true, false⟩]⟩,  -- IRQ_CLR
  ⟨0x20, 1, 4096, 1, 4096, [⟨31, 31, .wo, 0, true, false⟩, ⟨30, 30, .wo, 0, true, false⟩, ⟨17, 17, .ro, 0, true, false⟩, ⟨16, 16, .ro, 0, true, false⟩, ⟨15, 0, .ro, 0, true, false⟩]⟩,  -- LOCK
  ⟨0x24, 1, 4096, 1, 4096, [⟨15, 8, .ro, 0, false, true⟩, ⟨5, 0, .ro, 0, false, true⟩]⟩,  -- OWNER
  ⟨0x28, 1, 4096, 1, 4096, [⟨31, 31, .w1c, 0, true, false⟩, ⟨28, 25, .ro, 0, false, false⟩, ⟨24, 24, .ro, 0, false, false⟩, ⟨23, 18, .ro, 0, false, false⟩, ⟨17, 8, .ro, 0, false, false⟩, ⟨7, 0, .ro, 0, false, false⟩]⟩,  -- ERRCAP
  ⟨0x2c, 1, 4096, 1, 4096, [⟨31, 0, .ro, 0, false, false⟩]⟩,  -- INTEG
  ⟨0x30, 4, 4, 1, 4096, [⟨31, 0, .ro, 0, false, false⟩]⟩  -- reserved
  ]

/-- Registers of page 0x000 after the common header, from the register tables of its chapter. -/
def regs000 : List RegRow := [
  ⟨0x40, 1, 4096, 1, 4096, [⟨31, 0, .ro, 0x640000be, false, true⟩]⟩,  -- SYS_PART
  ⟨0x44, 1, 4096, 1, 4096, [⟨7, 0, .ro, 0xb1, false, true⟩]⟩,  -- SYS_REV
  ⟨0x48, 4, 4, 1, 4096, [⟨31, 0, .ro, 0, false, true⟩]⟩,  -- SYS_UID0–SYS_UID3
  ⟨0x58, 1, 4096, 1, 4096, [⟨5, 0, .ro, 0, false, true⟩]⟩,  -- SYS_WHOAMI
  ⟨0x5c, 1, 4096, 1, 4096, [⟨15, 0, .rc, 0, false, true⟩, ⟨31, 16, .rc, 0, false, true⟩]⟩,  -- SYS_HPERR
  ⟨0x80, 32, 4, 1, 4096, [⟨31, 0, .ro, 0, false, true⟩]⟩  -- SYS_PMAP0–SYS_PMAP31
  ]

/-- Registers of page 0x001 after the common header, from the register tables of its chapter. -/
def regs001 : List RegRow := [
  ⟨0x40, 32, 4, 1, 4096, [⟨31, 0, .ro, 0, false, false⟩]⟩,  -- IAG_PSUM0–IAG_PSUM31
  ⟨0xc0, 1, 4096, 1, 4096, [⟨31, 0, .ro, 0, false, false⟩]⟩,  -- IAG_TSUM_LO
  ⟨0xc4, 1, 4096, 1, 4096, [⟨31, 0, .ro, 0, false, false⟩]⟩  -- IAG_TSUM_HI
  ]

/-- Registers of page 0x002 after the common header, from the register tables of its chapter. -/
def regs002 : List RegRow := [
  ⟨0x40, 1, 4096, 1, 4096, [⟨31, 0, .ro, 5, false, false⟩]⟩,  -- TNC_TSTATE0
  ⟨0x44, 3, 4, 1, 4096, [⟨31, 0, .ro, 0, false, false⟩]⟩,  -- TNC_TSTATE13
  ⟨0x50, 1, 4096, 1, 4096, [⟨5, 0, .wo, 0, false, false⟩, ⟨10, 8, .wo, 0, false, false⟩]⟩,  -- TNC_TCMD
  ⟨0x54, 1, 4096, 1, 4096, [⟨7, 0, .ro, 0, false, false⟩, ⟨8, 8, .ro, 0, false, false⟩]⟩,  -- TNC_TSTS
  ⟨0x58, 1, 4096, 1, 4096, [⟨9, 0, .rw, 0, false, false⟩]⟩,  -- TNC_GARG
  ⟨0x5c, 1, 4096, 1, 4096, [⟨5, 0, .wo, 0, false, false⟩, ⟨11, 8, .wo, 0, false, false⟩, ⟨12, 12, .wo, 0, false, false⟩]⟩,  -- TNC_GCMD
  ⟨0x60, 1, 4096, 1, 4096, [⟨7, 0, .ro, 0, false, false⟩, ⟨8, 8, .ro, 0, false, false⟩]⟩,  -- TNC_GSTS
  ⟨0x64, 1, 4096, 1, 4096, [⟨9, 0, .rw, 0, false, false⟩, ⟨19, 16, .rw, 0, false, false⟩]⟩,  -- TNC_GQSEL
  ⟨0x68, 1, 4096, 1, 4096, [⟨5, 0, .ro, 0, false, false⟩, ⟨8, 8, .ro, 0, false, false⟩]⟩,  -- TNC_GQOWN
  ⟨0x70, 1, 4096, 1, 4096, [⟨0, 0, .w1s, 0, false, false⟩, ⟨1, 1, .w1s, 0, false, false⟩, ⟨2, 2, .w1s, 0, false, false⟩]⟩,  -- TNC_SEAL
  ⟨0x74, 1, 4096, 1, 4096, [⟨7, 0, .ro, 0, false, false⟩, ⟨8, 8, .ro, 0, false, false⟩, ⟨9, 9, .ro, 0, false, false⟩]⟩,  -- TNC_SEALSTS
  ⟨0x78, 1, 4096, 1, 4096, [⟨31, 0, .ro, 0, false, false⟩]⟩,  -- TNC_SEAL_CYC_LO
  ⟨0x7c, 1, 4096, 1, 4096, [⟨15, 0, .ro, 0, false, false⟩]⟩,  -- TNC_SEAL_CYC_HI
  ⟨0x80, 1, 4096, 1, 4096, [⟨31, 0, .ro, 0, false, false⟩]⟩  -- TNC_UNBILLED
  ]

/-- Registers of page 0x003 after the common header, from the register tables of its chapter. -/
def regs003 : List RegRow := [
  ⟨0x100, 64, 32, 1, 4096, [⟨15, 0, .rw, 0, false, false⟩, ⟨25, 24, .rw, 0, false, false⟩]⟩,  -- TNC_QINFt
  ⟨0x104, 64, 32, 1, 4096, [⟨23, 0, .rw, 0, false, false⟩]⟩,  -- TNC_QAIRt
  ⟨0x108, 64, 32, 1, 4096, [⟨7, 0, .rw, 0, false, false⟩, ⟨31, 16, .rw, 0, false, false⟩]⟩,  -- TNC_QRESt
  ⟨0x110, 64, 32, 1, 4096, [⟨31, 0, .rw, 0, false, false⟩]⟩,  -- TNC_CHV_LOt
  ⟨0x114, 64, 32, 1, 4096, [⟨31, 0, .rw, 0, false, false⟩]⟩  -- TNC_CHV_HIt
  ]

/-- Registers of page 0x004 after the common header, from the register tables of its chapter. -/
def regs004 : List RegRow := [
  ⟨0x40, 1, 4096, 1, 4096, [⟨5, 0, .rw, 0, false, false⟩, ⟨15, 8, .rw, 0, false, false⟩]⟩,  -- TNC_AM_SEL
  ⟨0x44, 1, 4096, 1, 4096, [⟨9, 0, .rw, 0, false, false⟩, ⟨31, 31, .rw, 0, false, false⟩]⟩,  -- TNC_AM_MAP
  ⟨0x48, 1, 4096, 1, 4096, [⟨7, 0, .ro, 0, false, false⟩]⟩  -- TNC_AM_STS
  ]

/-- Registers of page 0x005 after the common header, from the register tables of its chapter. -/
def regs005 : List RegRow := [
  ⟨0x40, 4, 4, 1, 4096, [⟨29, 24, .ro, 0, false, false⟩, ⟨21, 16, .ro, 0, false, false⟩, ⟨13, 8, .ro, 0, false, false⟩, ⟨5, 0, .ro, 0, false, false⟩]⟩,  -- TNC_RR
  ⟨0x50, 1, 4096, 1, 4096, [⟨15, 0, .rc, 0, false, false⟩, ⟨31, 16, .rc, 0, false, false⟩]⟩,  -- TNC_PRE
  ⟨0x54, 1, 4096, 1, 4096, [⟨15, 0, .rc, 0, false, false⟩]⟩  -- TNC_PRE_SAFE
  ]

/-- Registers of page 0x010 after the common header, from the register tables of its chapter. -/
def regs010_0 : List RegRow := [
  ⟨0x40, 1, 4096, 1, 4096, [⟨31, 0, .ro, 0, false, true⟩]⟩,  -- CTF_STAMP_LO
  ⟨0x44, 1, 4096, 1, 4096, [⟨31, 0, .ro, 0, false, true⟩]⟩,  -- CTF_STAMP_HI
  ⟨0x48, 1, 4096, 1, 4096, [⟨2, 0, .ro, 0, false, true⟩, ⟨6, 4, .ro, 0, false, true⟩, ⟨10, 8, .ro, 0, false, true⟩]⟩,  -- CTF_STATE
  ⟨0x4c, 1, 4096, 1, 4096, [⟨23, 0, .rw, 0x654321, false, false⟩]⟩,  -- CTF_REFPRI
  ⟨0x50, 1, 4096, 1, 4096, [⟨11, 0, .rw, 0xcd, false, false⟩, ⟨24, 16, .rw, 0x3c, false, false⟩]⟩,  -- CTF_ZCCFG
  ⟨0x54, 1, 4096, 1, 4096, [⟨1, 0, .rw, 2, false, false⟩, ⟨2, 2, .rw, 0, false, false⟩, ⟨3, 3, .rw, 1, false, false⟩, ⟨15, 8, .rw, 0x32, false, false⟩]⟩,  -- CTF_LOOP
  ⟨0x58, 1, 4096, 1, 4096, [⟨23, 0, .ro, 0xea600, false, true⟩]⟩,  -- CTF_PERIOD
  ⟨0x5c, 1, 4096, 1, 4096, [⟨15, 0, .ro, 0, false, false⟩]⟩,  -- CTF_PHERR
  ⟨0x60, 1, 4096, 1, 4096, [⟨7, 0, .rc, 0, false, false⟩, ⟨15, 8, .rc, 0, false, false⟩, ⟨23, 16, .rc, 0, false, false⟩, ⟨31, 24, .rc, 0, false, false⟩]⟩,  -- CTF_EVCNT
  ⟨0x64, 1, 4096, 1, 4096, [⟨5, 0, .ro, 0, false, false⟩, ⟨13, 8, .ro, 0, false, false⟩]⟩,  -- CTF_QUAL
  ⟨0x68, 1, 4096, 1, 4096, [⟨31, 0, .ro, 0, false, false⟩]⟩,  -- CTF_HOLD_CYC
  ⟨0x70, 6, 4, 1, 4096, [⟨15, 0, .ro, 0, false, false⟩, ⟨31, 16, .ro, 0, false, false⟩]⟩,  -- CTF_OFS1–CTF_OFS6
  ⟨0xa0, 1, 4096, 1, 4096, [⟨31, 0, .wo, 0, false, false⟩]⟩,  -- CTF_SEED_LO
  ⟨0xa4, 1, 4096, 1, 4096, [⟨31, 0, .wo, 0, false, false⟩]⟩,  -- CTF_SEED_HI
  ⟨0xa8, 1, 4096, 1, 4096, [⟨31, 0, .ro, 0, false, false⟩]⟩,  -- CTF_UTC
  ⟨0xac, 1, 4096, 1, 4096, [⟨14, 0, .ro, 0, false, false⟩, ⟨31, 31, .ro, 1, false, false⟩]⟩,  -- CTF_UTC_SUB
  ⟨0xb0, 1, 4096, 1, 4096, [⟨31, 0, .wo, 0, false, false⟩]⟩,  -- CTF_UTC_SET
  ⟨0xb4, 1, 4096, 1, 4096, [⟨7, 0, .rw, 0, false, false⟩]⟩,  -- CTF_RTC_TRIM
  ⟨0xb8, 1, 4096, 1, 4096, [⟨31, 0, .ro, 0, false, true⟩]⟩,  -- CTF_PAIR_STAMP_LO
  ⟨0xbc, 1, 4096, 1, 4096, [⟨31, 0, .ro, 0, false, true⟩]⟩,  -- CTF_PAIR_STAMP_HI
  ⟨0xc0, 1, 4096, 1, 4096, [⟨31, 0, .ro, 0, false, true⟩]⟩,  -- CTF_PAIR_UTC
  ⟨0xc4, 1, 4096, 1, 4096, [⟨14, 0, .ro, 0, false, true⟩]⟩,  -- CTF_PAIR_SUB
  ⟨0xc8, 1, 4096, 1, 4096, [⟨7, 0, .ro, 0, false, false⟩]⟩,  -- CTF_CFGSTS
  ⟨0xcc, 1, 4096, 1, 4096, [⟨0, 0, .w1s, 0, false, false⟩, ⟨1, 1, .w1s, 0, false, false⟩]⟩  -- CTF_CMD
  ]

/-- Registers of the same pages, continued. -/
def regs010_1 : List RegRow := [
  ⟨0xd0, 1, 4096, 1, 4096, [⟨0, 0, .rw, 1, false, false⟩, ⟨27, 16, .rw, 0x100, false, false⟩]⟩,  -- CTF_QCFG
  ⟨0x10, 1, 4096, 1, 4096, [⟨0, 0, .w1c, 0, false, false⟩, ⟨1, 1, .w1c, 0, false, false⟩, ⟨2, 2, .w1c, 0, false, false⟩, ⟨3, 3, .w1c, 0, false, false⟩, ⟨4, 4, .w1c, 0, false, false⟩, ⟨5, 5, .w1c, 0, false, false⟩, ⟨6, 6, .w1c, 0, false, false⟩, ⟨7, 7, .w1c, 0, false, false⟩]⟩  -- IRQ_RAW
  ]

/-- All of them. -/
def regs010 : List RegRow := regs010_0 ++ regs010_1

/-- Registers of page 0x011 after the common header, from the register tables of its chapter. -/
def regs011 : List RegRow := [
  ⟨0x40, 1, 4096, 1, 4096, [⟨0, 0, .w1s, 0, false, false⟩, ⟨1, 1, .rw, 0, false, false⟩, ⟨8, 8, .ro, 0, false, false⟩]⟩,  -- CTF_SCHED_CTRL
  ⟨0x44, 1, 4096, 1, 4096, [⟨7, 0, .ro, 0, false, false⟩, ⟨15, 8, .ro, 0, false, false⟩, ⟨23, 16, .ro, 0, false, false⟩, ⟨31, 24, .ro, 0, false, false⟩]⟩,  -- CTF_SCHED_STS
  ⟨0x48, 1, 4096, 1, 4096, [⟨31, 0, .rw, 0, false, false⟩]⟩,  -- CTF_SCHED_AT_LO
  ⟨0x4c, 1, 4096, 1, 4096, [⟨15, 0, .rw, 0, false, false⟩]⟩,  -- CTF_SCHED_AT_HI
  ⟨0x100, 256, 8, 1, 4096, [⟨31, 0, .rw, 0, false, false⟩]⟩,  -- CTF_SLOTn_LO, n  0–255
  ⟨0x104, 256, 8, 1, 4096, [⟨31, 0, .rw, 0, false, false⟩]⟩  -- CTF_SLOTn_HI, n  0–255
  ]

/-- Registers of pages 0x020–0x027 after the common header, from the register tables of its chapter. -/
def regs020_027 : List RegRow := [
  ⟨0x40, 1, 4096, 1, 4096, [⟨3, 0, .rw, 0, false, false⟩]⟩  -- ACS_PAIR
  ]

/-- Registers of pages 0x020–0x028 after the common header, from the register tables of its chapter. -/
def regs020_028 : List RegRow := [
  ⟨0x100, 8, 32, 1, 4096, [⟨2, 0, .rw, 0, false, false⟩, ⟨6, 4, .rw, 0, false, false⟩, ⟨8, 8, .rw, 0, false, false⟩, ⟨11, 9, .rw, 4, false, false⟩, ⟨16, 16, .rw, 1, false, false⟩]⟩,  -- ACS_CFG
  ⟨0x104, 8, 32, 1, 4096, [⟨23, 0, .rw, 0, false, false⟩]⟩,  -- ACS_OFS
  ⟨0x108, 8, 32, 1, 4096, [⟨23, 0, .rw, 0x400000, false, false⟩]⟩,  -- ACS_GAIN
  ⟨0x10c, 8, 32, 1, 4096, [⟨0, 0, .ro, 0, false, false⟩, ⟨1, 1, .ro, 0, false, false⟩, ⟨2, 2, .ro, 0, false, false⟩, ⟨3, 3, .ro, 0, false, false⟩, ⟨10, 8, .ro, 0, false, false⟩]⟩,  -- ACS_STS
  ⟨0x110, 8, 32, 1, 4096, [⟨15, 0, .rc, 0, false, false⟩, ⟨31, 16, .rc, 0, false, false⟩]⟩,  -- ACS_CNT
  ⟨0x114, 8, 32, 1, 4096, [⟨15, 0, .ro, 0, false, false⟩, ⟨23, 16, .ro, 0, false, false⟩]⟩,  -- ACS_CONT
  ⟨0x10, 1, 4096, 1, 4096, [⟨0, 0, .w1c, 0, false, false⟩, ⟨1, 1, .w1c, 0, false, false⟩, ⟨2, 2, .w1c, 0, false, false⟩]⟩  -- IRQ_RAW
  ]

/-- Registers of page 0x028 after the common header, from the register tables of its chapter. -/
def regs028 : List RegRow := [
  ⟨0x40, 1, 4096, 1, 4096, [⟨3, 0, .rw, 0, false, false⟩, ⟨7, 4, .rw, 0, false, false⟩]⟩,  -- ACS_VPAIR
  ⟨0x200, 2, 32, 1, 4096, [⟨2, 0, .rw, 0, false, false⟩, ⟨6, 4, .rw, 3, false, false⟩, ⟨8, 8, .rw, 0, false, false⟩, ⟨11, 9, .rw, 4, false, false⟩, ⟨16, 16, .rw, 1, false, false⟩]⟩,  -- ACS_CFG of DX0, DX1
  ⟨0x204, 2, 32, 1, 4096, [⟨23, 0, .rw, 0, false, false⟩]⟩,  -- ACS_OFS of DX0, DX1
  ⟨0x208, 2, 32, 1, 4096, [⟨23, 0, .rw, 0x400000, false, false⟩]⟩,  -- ACS_GAIN of DX0, DX1
  ⟨0x20c, 2, 32, 1, 4096, [⟨0, 0, .ro, 0, false, false⟩, ⟨1, 1, .ro, 0, false, false⟩, ⟨2, 2, .ro, 0, false, false⟩, ⟨3, 3, .ro, 0, false, false⟩, ⟨10, 8, .ro, 0, false, false⟩]⟩,  -- ACS_STS of DX0, DX1
  ⟨0x210, 2, 32, 1, 4096, [⟨15, 0, .rc, 0, false, false⟩, ⟨31, 16, .rc, 0, false, false⟩]⟩,  -- ACS_CNT of DX0, DX1
  ⟨0x214, 2, 32, 1, 4096, [⟨15, 0, .ro, 0, false, false⟩, ⟨23, 16, .ro, 0, false, false⟩]⟩  -- ACS_CONT of DX0, DX1
  ]

/-- Registers of page 0x029 after the common header, from the register tables of its chapter. -/
def regs029 : List RegRow := [
  ⟨0x40, 1, 4096, 1, 4096, [⟨6, 0, .rw, 0, false, false⟩, ⟨15, 8, .rw, 0, false, false⟩]⟩,  -- ACS_CAL_SEL
  ⟨0x44, 1, 4096, 1, 4096, [⟨23, 0, .rw, 0, false, false⟩]⟩,  -- ACS_CAL_TGT
  ⟨0x48, 1, 4096, 1, 4096, [⟨0, 0, .w1s, 0, false, false⟩, ⟨1, 1, .w1s, 0, false, false⟩, ⟨2, 2, .w1s, 0, false, false⟩]⟩,  -- ACS_CAL_CMD
  ⟨0x4c, 1, 4096, 1, 4096, [⟨7, 0, .ro, 0, false, false⟩, ⟨8, 8, .ro, 0, false, false⟩]⟩,  -- ACS_CAL_STS
  ⟨0x50, 1, 4096, 1, 4096, [⟨23, 0, .ro, 0, false, false⟩]⟩,  -- ACS_CAL_MEAN
  ⟨0x54, 1, 4096, 1, 4096, [⟨23, 0, .ro, 0, false, false⟩]⟩,  -- ACS_CAL_MEAN2
  ⟨0x58, 1, 4096, 1, 4096, [⟨23, 0, .ro, 0, false, false⟩]⟩,  -- ACS_CAL_RMS
  ⟨0x5c, 1, 4096, 1, 4096, [⟨23, 0, .ro, 0, false, false⟩]⟩,  -- ACS_CAL_RMS2
  ⟨0x80, 1, 4096, 1, 4096, [⟨3, 0, .rw, 1, true, false⟩]⟩,  -- ACS_DX0_SEL
  ⟨0x84, 1, 4096, 1, 4096, [⟨3, 0, .rw, 0xc, true, false⟩]⟩,  -- ACS_DX1_SEL
  ⟨0x88, 1, 4096, 1, 4096, [⟨23, 0, .ro, 0, false, true⟩, ⟨31, 24, .ro, 0, false, true⟩]⟩,  -- ACS_DX0_VAL
  ⟨0x8c, 1, 4096, 1, 4096, [⟨23, 0, .ro, 0, false, true⟩, ⟨31, 24, .ro, 0, false, true⟩]⟩,  -- ACS_DX1_VAL
  ⟨0x90, 1, 4096, 1, 4096, [⟨15, 0, .ro, 0, false, true⟩]⟩,  -- ACS_T25
  ⟨0xa0, 1, 4096, 1, 4096, [⟨7, 0, .rw, 0x32, false, false⟩, ⟨23, 8, .rw, 0x400, false, false⟩, ⟨31, 31, .rw, 0, false, false⟩]⟩,  -- ACS_CONT_CFG
  ⟨0xa4, 1, 4096, 1, 4096, [⟨31, 0, .rw, 0, false, false⟩]⟩,  -- ACS_CONT_MASK_LO
  ⟨0xa8, 1, 4096, 1, 4096, [⟨31, 0, .rw, 0, false, false⟩]⟩,  -- ACS_CONT_MASK_HI
  ⟨0x10, 1, 4096, 1, 4096, [⟨0, 0, .w1c, 0, false, false⟩, ⟨1, 1, .w1c, 0, false, false⟩]⟩  -- IRQ_RAW
  ]

/-- Registers of page 0x030 after the common header, from the register tables of its chapter. -/
def regs030 : List RegRow := [
  ⟨0x40, 1, 4096, 1, 4096, [⟨2, 0, .rw, 0, false, false⟩, ⟨6, 4, .rw, 0, false, false⟩]⟩,  -- MTE_BUSCFG
  ⟨0x44, 1, 4096, 1, 4096, [⟨23, 0, .rw, 0xb0000, false, false⟩]⟩,  -- MTE_VPRES
  ⟨0x48, 1, 4096, 1, 4096, [⟨0, 0, .rw, 0, true, false⟩]⟩,  -- MTE_EXPCTL
  ⟨0x4c, 1, 4096, 1, 4096, [⟨31, 0, .rc, 0, false, false⟩]⟩,  -- MTE_UNMEAS
  ⟨0x50, 1, 4096, 1, 4096, [⟨31, 0, .rc, 0, false, false⟩]⟩,  -- MTE_EXP_SKIPN
  ⟨0x54, 1, 4096, 1, 4096, [⟨31, 0, .ro, 0, false, false⟩]⟩,  -- MTE_LAST_LO
  ⟨0x58, 1, 4096, 1, 4096, [⟨15, 0, .ro, 0, false, false⟩]⟩,  -- MTE_LAST_HI
  ⟨0x5c, 1, 4096, 1, 4096, [⟨7, 0, .ro, 0, false, false⟩]⟩,  -- MTE_CFGSTS
  ⟨0x10, 1, 4096, 1, 4096, [⟨0, 0, .w1c, 0, false, false⟩, ⟨1, 1, .w1c, 0, false, false⟩, ⟨2, 2, .w1c, 0, false, false⟩, ⟨3, 3, .w1c, 0, false, false⟩]⟩  -- IRQ_RAW
  ]

/-- Registers of pages 0x031–0x038 after the common header, from the register tables of its chapter. -/
def regs031_038 : List RegRow := [
  ⟨0x100, 8, 128, 1, 4096, [⟨3, 0, .rw, 0, false, false⟩, ⟨7, 4, .rw, 0, false, false⟩, ⟨8, 8, .rw, 0, false, false⟩, ⟨9, 9, .rw, 1, false, false⟩]⟩,  -- MTE_BIND
  ⟨0x104, 8, 128, 1, 4096, [⟨31, 0, .rw, 0, false, false⟩]⟩,  -- MTE_IFS
  ⟨0x108, 8, 128, 1, 4096, [⟨23, 0, .rw, 0x400000, false, false⟩]⟩,  -- MTE_GI
  ⟨0x10c, 8, 128, 1, 4096, [⟨23, 0, .rw, 0, false, false⟩]⟩,  -- MTE_OI
  ⟨0x110, 8, 128, 1, 4096, [⟨23, 0, .rw, 0x400000, false, false⟩]⟩,  -- MTE_GP
  ⟨0x114, 8, 128, 1, 4096, [⟨23, 0, .rw, 0, false, false⟩]⟩,  -- MTE_OP
  ⟨0x118, 8, 128, 1, 4096, [⟨23, 0, .rw, 0x400000, false, false⟩]⟩,  -- MTE_GQ
  ⟨0x11c, 8, 128, 1, 4096, [⟨23, 0, .rw, 0, false, false⟩]⟩,  -- MTE_OQ
  ⟨0x120, 8, 128, 1, 4096, [⟨17, 0, .rw, 0, false, false⟩]⟩,  -- MTE_PH
  ⟨0x124, 8, 128, 1, 4096, [⟨15, 0, .rw, 0, false, false⟩]⟩,  -- MTE_PHT
  ⟨0x128, 8, 128, 1, 4096, [⟨23, 0, .rw, 0x1446, false, false⟩]⟩,  -- MTE_ISTART
  ⟨0x12c, 8, 128, 1, 4096, [⟨23, 0, .rw, 0x200000, false, false⟩]⟩,  -- MTE_NLP
  ⟨0x130, 8, 128, 1, 4096, [⟨23, 0, .rw, 0x200000, false, false⟩]⟩,  -- MTE_NLQ
  ⟨0x140, 8, 128, 1, 4096, [⟨31, 0, .ro, 0, false, false⟩]⟩,  -- MTE_RD_CYC
  ⟨0x144, 8, 128, 1, 4096, [⟨31, 0, .ro, 0, false, false⟩]⟩,  -- MTE_RD_RMS
  ⟨0x148, 8, 128, 1, 4096, [⟨31, 0, .ro, 0, false, false⟩]⟩,  -- MTE_RD_P
  ⟨0x14c, 8, 128, 1, 4096, [⟨31, 0, .ro, 0, false, false⟩]⟩,  -- MTE_RD_Q
  ⟨0x150, 8, 128, 1, 4096, [⟨31, 0, .ro, 0, false, false⟩]⟩,  -- MTE_RD_S
  ⟨0x154, 8, 128, 1, 4096, [⟨15, 0, .ro, 0, false, false⟩, ⟨18, 16, .ro, 0, false, false⟩]⟩,  -- MTE_RD_ANG
  ⟨0x158, 8, 128, 1, 4096, [⟨15, 0, .ro, 0, false, false⟩, ⟨23, 16, .ro, 0, false, false⟩, ⟨31, 24, .ro, 0, false, false⟩]⟩,  -- MTE_RD_FLG
  ⟨0x160, 8, 128, 1, 4096, [⟨15, 0, .rc, 0, false, false⟩, ⟨31, 16, .rc, 0, false, false⟩]⟩,  -- MTE_CNT
  ⟨0x164, 8, 128, 1, 4096, [⟨15, 0, .rc, 0, false, false⟩, ⟨31, 16, .rc, 0, false, false⟩]⟩  -- MTE_NLCNT
  ]

/-- Registers of page 0x039 after the common header, from the register tables of its chapter. -/
def regs039 : List RegRow := [
  ⟨0x100, 8, 64, 1, 4096, [⟨31, 0, .rw, 0, false, false⟩]⟩,  -- MTE_VFS
  ⟨0x104, 8, 64, 1, 4096, [⟨23, 0, .rw, 0x400000, false, false⟩]⟩,  -- MTE_GV
  ⟨0x108, 8, 64, 1, 4096, [⟨23, 0, .rw, 0, false, false⟩]⟩,  -- MTE_OV
  ⟨0x120, 8, 64, 1, 4096, [⟨31, 0, .ro, 0, false, false⟩]⟩,  -- MTE_RD_VCYC
  ⟨0x124, 8, 64, 1, 4096, [⟨31, 0, .ro, 0, false, false⟩]⟩,  -- MTE_RD_V
  ⟨0x128, 8, 64, 1, 4096, [⟨15, 0, .ro, 0, false, false⟩]⟩,  -- MTE_RD_VANG
  ⟨0x12c, 8, 64, 1, 4096, [⟨15, 0, .ro, 0, false, false⟩, ⟨23, 16, .ro, 0, false, false⟩, ⟨31, 24, .ro, 0, false, false⟩]⟩,  -- MTE_RD_VFLG
  ⟨0x130, 8, 64, 1, 4096, [⟨15, 0, .rc, 0, false, false⟩]⟩  -- MTE_VCNT
  ]

/-- Registers of pages 0x040–0x047 after the common header, from the register tables of its chapter. -/
def regs040_047 : List RegRow := [
  ⟨0x100, 8, 128, 8, 8, [⟨31, 0, .ro, 0, false, false⟩]⟩,  -- ACC_Qq_LO, q  0–7
  ⟨0x104, 8, 128, 8, 8, [⟨31, 0, .ro, 0, false, false⟩]⟩,  -- ACC_Qq_HI
  ⟨0x140, 8, 128, 1, 4096, [⟨31, 0, .ro, 0, false, false⟩]⟩,  -- ACC_SUM_LO
  ⟨0x144, 8, 128, 1, 4096, [⟨31, 0, .ro, 0, false, false⟩]⟩,  -- ACC_SUM_HI
  ⟨0x148, 8, 128, 1, 4096, [⟨31, 0, .ro, 0, false, false⟩]⟩,  -- ACC_CYC
  ⟨0x14c, 8, 128, 1, 4096, [⟨7, 0, .ro, 0, false, false⟩, ⟨8, 8, .ro, 0, false, false⟩, ⟨9, 9, .ro, 0, false, false⟩]⟩,  -- ACC_CST
  ⟨0x150, 8, 128, 1, 4096, [⟨31, 0, .ro, 0, false, false⟩]⟩,  -- ACC_UFA_LO
  ⟨0x154, 8, 128, 1, 4096, [⟨31, 0, .ro, 0, false, false⟩]⟩,  -- ACC_UFA_HI
  ⟨0x158, 8, 128, 1, 4096, [⟨31, 0, .ro, 0, false, false⟩]⟩,  -- ACC_UFC
  ⟨0x160, 8, 128, 4, 4, [⟨15, 0, .ro, 0, false, false⟩, ⟨31, 16, .ro, 0, false, false⟩]⟩,  -- ACC_RESk, k  0–3
  ⟨0x170, 8, 128, 1, 4096, [⟨15, 0, .rc, 0, false, false⟩, ⟨31, 16, .rc, 0, false, false⟩]⟩  -- ACC_ECNT
  ]

/-- Registers of page 0x048 after the common header, from the register tables of its chapter. -/
def regs048 : List RegRow := [
  ⟨0x40, 1, 4096, 1, 4096, [⟨0, 0, .rw, 1, false, false⟩]⟩,  -- ACC_UFCFG
  ⟨0x44, 1, 4096, 1, 4096, [⟨31, 0, .ro, 0, false, false⟩]⟩,  -- ACC_BAD_LO
  ⟨0x48, 1, 4096, 1, 4096, [⟨31, 0, .ro, 0, false, false⟩]⟩,  -- ACC_BAD_HI
  ⟨0x4c, 1, 4096, 1, 4096, [⟨15, 0, .ro, 0, false, false⟩]⟩,  -- ACC_PLSOVR
  ⟨0x50, 1, 4096, 1, 4096, [⟨31, 0, .ro, 0, false, false⟩]⟩,  -- ACC_LAST
  ⟨0x10, 1, 4096, 1, 4096, [⟨0, 0, .w1c, 0, false, false⟩, ⟨1, 1, .w1c, 0, false, false⟩, ⟨2, 2, .w1c, 0, false, false⟩, ⟨3, 3, .w1c, 0, false, false⟩]⟩  -- IRQ_RAW
  ]

/-- Registers of pages 0x060–0x06f after the common header, from the register tables of its chapter. -/
def regs060_06F : List RegRow := [
  ⟨0x40, 1, 4096, 1, 4096, [⟨1, 0, .rw, 0, false, false⟩, ⟨15, 8, .rw, 0, false, false⟩, ⟨19, 16, .rw, 0, false, false⟩]⟩,  -- PLS_SRC
  ⟨0x44, 1, 4096, 1, 4096, [⟨31, 0, .rw, 0, false, false⟩]⟩,  -- PLS_CONST
  ⟨0x48, 1, 4096, 1, 4096, [⟨7, 0, .rw, 0x50, false, false⟩, ⟨8, 8, .rw, 0, false, false⟩, ⟨9, 9, .rw, 0, false, false⟩]⟩,  -- PLS_CFG
  ⟨0x4c, 1, 4096, 1, 4096, [⟨15, 0, .ro, 0, false, false⟩, ⟨16, 16, .ro, 0, false, false⟩, ⟨17, 17, .ro, 0, false, false⟩]⟩,  -- PLS_STS
  ⟨0x50, 1, 4096, 1, 4096, [⟨17, 0, .ro, 0x13880, false, false⟩]⟩,  -- PLS_WEFF
  ⟨0x54, 1, 4096, 1, 4096, [⟨31, 0, .ro, 0, false, false⟩]⟩,  -- PLS_SPILL_LO
  ⟨0x58, 1, 4096, 1, 4096, [⟨31, 0, .ro, 0, false, false⟩]⟩,  -- PLS_SPILL_HI
  ⟨0x5c, 1, 4096, 1, 4096, [⟨31, 0, .ro, 0, false, false⟩]⟩,  -- PLS_PCOUNT
  ⟨0x60, 1, 4096, 1, 4096, [⟨15, 0, .rc, 0, false, false⟩, ⟨31, 16, .rc, 0, false, false⟩]⟩,  -- PLS_CNT
  ⟨0x64, 1, 4096, 1, 4096, [⟨15, 0, .rc, 0, false, false⟩]⟩,  -- PLS_CNT2
  ⟨0x68, 1, 4096, 1, 4096, [⟨7, 0, .ro, 0, false, false⟩]⟩,  -- PLS_CFGSTS
  ⟨0x10, 1, 4096, 1, 4096, [⟨0, 0, .w1c, 0, false, false⟩, ⟨1, 1, .w1c, 0, false, false⟩, ⟨2, 2, .w1c, 0, false, false⟩]⟩  -- IRQ_RAW
  ]

/-- Registers of page 0x070 after the common header, from the register tables of its chapter. -/
def regs070_0 : List RegRow := [
  ⟨0x40, 1, 4096, 1, 4096, [⟨0, 0, .rw, 1, false, false⟩, ⟨14, 8, .rw, 0x64, false, false⟩, ⟨23, 16, .rw, 0xa, false, false⟩]⟩,  -- PQE_CTL
  ⟨0x44, 1, 4096, 1, 4096, [⟨23, 0, .rw, 0, false, false⟩]⟩,  -- PQE_UDIN1
  ⟨0x48, 1, 4096, 1, 4096, [⟨23, 0, .rw, 0, false, false⟩]⟩,  -- PQE_UDIN2
  ⟨0x4c, 1, 4096, 1, 4096, [⟨7, 0, .rw, 0xb4, false, false⟩, ⟨15, 8, .rw, 0xdc, false, false⟩, ⟨23, 16, .rw, 0xa, false, false⟩, ⟨31, 24, .rw, 4, false, false⟩]⟩,  -- PQE_RMSTH
  ⟨0x50, 1, 4096, 1, 4096, [⟨15, 0, .rw, 0x1f4, false, false⟩, ⟨23, 16, .rw, 0xa, false, false⟩]⟩,  -- PQE_FCFG
  ⟨0x54, 1, 4096, 1, 4096, [⟨15, 0, .rw, 0xc8, false, false⟩]⟩,  -- PQE_UNBTH
  ⟨0x58, 1, 4096, 1, 4096, [⟨7, 0, .rw, 0xa, false, false⟩, ⟨15, 8, .rw, 0x14, false, false⟩, ⟨23, 16, .rw, 0x14, false, false⟩, ⟨31, 24, .rw, 0x28, false, false⟩]⟩,  -- PQE_SPCFG
  ⟨0x5c, 1, 4096, 1, 4096, [⟨23, 0, .rw, 0x2000, false, false⟩]⟩,  -- PQE_LIVE_I
  ⟨0x60, 1, 4096, 1, 4096, [⟨8, 1, .rw, 0xff, false, false⟩]⟩,  -- PQE_LOGMASK
  ⟨0x64, 1, 4096, 1, 4096, [⟨6, 0, .rw, 0, false, false⟩]⟩,  -- PQE_HSEL
  ⟨0x68, 1, 4096, 1, 4096, [⟨7, 0, .ro, 0, false, false⟩, ⟨15, 8, .ro, 0, false, false⟩, ⟨22, 16, .ro, 0, false, false⟩, ⟨24, 24, .ro, 0, false, false⟩, ⟨25, 25, .ro, 0, false, false⟩]⟩,  -- PQE_HSTS
  ⟨0x6c, 1, 4096, 1, 4096, [⟨31, 0, .ro, 0, false, false⟩]⟩,  -- PQE_HCYC
  ⟨0x70, 1, 4096, 1, 4096, [⟨23, 0, .ro, 0, false, false⟩]⟩,  -- PQE_H1
  ⟨0x74, 1, 4096, 1, 4096, [⟨15, 0, .ro, 0, false, false⟩]⟩,  -- PQE_THD
  ⟨0x80, 1, 4096, 1, 4096, [⟨19, 0, .ro, 0, false, false⟩]⟩,  -- PQE_FREQ1
  ⟨0x84, 1, 4096, 1, 4096, [⟨19, 0, .ro, 0, false, false⟩]⟩,  -- PQE_FREQ2
  ⟨0x88, 1, 4096, 1, 4096, [⟨1, 0, .ro, 0, false, false⟩, ⟨9, 8, .ro, 0, false, false⟩]⟩,  -- PQE_SEQ
  ⟨0x8c, 1, 4096, 1, 4096, [⟨15, 0, .ro, 0, false, false⟩, ⟨31, 16, .ro, 0, false, false⟩]⟩,  -- PQE_UNB
  ⟨0x90, 4, 4, 1, 4096, [⟨31, 0, .ro, 0, false, false⟩]⟩,  -- PQE_CTV0–3
  ⟨0xa0, 1, 4096, 1, 4096, [⟨23, 0, .ro, 0, false, false⟩]⟩,  -- PQE_VSV
  ⟨0xb0, 1, 4096, 1, 4096, [⟨5, 0, .ro, 0, false, false⟩]⟩,  -- PQE_RING_WR
  ⟨0xb4, 1, 4096, 1, 4096, [⟨5, 0, .rw, 0, true, false⟩]⟩,  -- PQE_RING_RD
  ⟨0xb8, 1, 4096, 1, 4096, [⟨15, 0, .rc, 0, false, false⟩]⟩,  -- PQE_RING_OVF
  ⟨0xbc, 1, 4096, 1, 4096, [⟨7, 0, .ro, 0, false, false⟩]⟩  -- PQE_CFGSTS
  ]

/-- Registers of the same pages, continued. -/
def regs070_1 : List RegRow := [
  ⟨0x400, 99, 4, 1, 4096, [⟨15, 0, .ro, 0, false, false⟩, ⟨31, 16, .ro, 0, false, false⟩]⟩,  -- PQE_HRh
  ⟨0x600, 64, 4, 1, 4096, [⟨15, 0, .rw, 0xffff, false, false⟩]⟩,  -- PQE_CT_RLIMk
  ⟨0x800, 64, 32, 8, 4, [⟨31, 0, .ro, 0, false, false⟩]⟩,  -- PQE_RINGi
  ⟨0x10, 1, 4096, 1, 4096, [⟨0, 0, .w1c, 0, false, false⟩, ⟨1, 1, .w1c, 0, false, false⟩, ⟨2, 2, .w1c, 0, false, false⟩, ⟨3, 3, .w1c, 0, false, false⟩]⟩  -- IRQ_RAW
  ]

/-- All of them. -/
def regs070 : List RegRow := regs070_0 ++ regs070_1

/-- Registers of page 0x080 after the common header, from the register tables of its chapter. -/
def regs080 : List RegRow := [
  ⟨0x40, 1, 4096, 1, 4096, [⟨7, 0, .rw, 0xff, false, false⟩, ⟨9, 8, .rw, 0, false, false⟩]⟩,  -- TUN_CTL
  ⟨0x44, 1, 4096, 1, 4096, [⟨7, 0, .ro, 0, false, false⟩, ⟨11, 8, .ro, 1, false, false⟩, ⟨12, 12, .ro, 0, false, false⟩, ⟨14, 13, .ro, 0, false, false⟩]⟩,  -- TUN_STAT
  ⟨0x48, 1, 4096, 1, 4096, [⟨10, 0, .ro, 0, false, false⟩]⟩,  -- TUN_SPOCC
  ⟨0x4c, 1, 4096, 1, 4096, [⟨31, 0, .rc, 0, false, false⟩]⟩,  -- TUN_TILEN
  ⟨0x50, 1, 4096, 1, 4096, [⟨15, 0, .rc, 0, false, false⟩, ⟨31, 16, .rc, 0, false, false⟩]⟩,  -- TUN_ERRN
  ⟨0x54, 1, 4096, 1, 4096, [⟨15, 0, .ro, 0, false, false⟩]⟩,  -- TUN_GATECT
  ⟨0x60, 1, 4096, 1, 4096, [⟨7, 0, .rw, 0, false, false⟩, ⟨12, 8, .rw, 0x10, false, false⟩, ⟨23, 16, .rw, 1, false, false⟩]⟩,  -- TUN_BST_CFG
  ⟨0x64, 1, 4096, 1, 4096, [⟨15, 0, .rw, 0x400, false, false⟩, ⟨31, 16, .rw, 0, false, false⟩]⟩,  -- TUN_BST_TIM
  ⟨0x68, 1, 4096, 1, 4096, [⟨31, 0, .rw, 0, false, false⟩]⟩,  -- TUN_BST_AT_LO
  ⟨0x6c, 1, 4096, 1, 4096, [⟨31, 0, .rw, 0, false, false⟩]⟩,  -- TUN_BST_AT_HI
  ⟨0x70, 1, 4096, 1, 4096, [⟨11, 0, .rw, 0x200, false, false⟩]⟩,  -- TUN_BST_LEAD
  ⟨0x74, 1, 4096, 1, 4096, [⟨0, 0, .w1s, 0, false, false⟩]⟩,  -- TUN_BST_CMD
  ⟨0x78, 1, 4096, 1, 4096, [⟨7, 0, .ro, 0, false, false⟩, ⟨8, 8, .ro, 0, false, false⟩, ⟨23, 16, .ro, 0, false, false⟩]⟩,  -- TUN_BST_STS
  ⟨0x7c, 1, 4096, 1, 4096, [⟨31, 0, .ro, 0, false, false⟩]⟩,  -- TUN_BST_RUN
  ⟨0x80, 1, 4096, 1, 4096, [⟨31, 0, .ro, 0, false, false⟩]⟩,  -- TUN_BST_FIRST_LO
  ⟨0x84, 1, 4096, 1, 4096, [⟨31, 0, .ro, 0, false, false⟩]⟩,  -- TUN_BST_FIRST_HI
  ⟨0x88, 1, 4096, 1, 4096, [⟨31, 0, .ro, 0, false, false⟩]⟩,  -- TUN_BST_LAST_LO
  ⟨0x8c, 1, 4096, 1, 4096, [⟨31, 0, .ro, 0, false, false⟩]⟩,  -- TUN_BST_LAST_HI
  ⟨0x100, 128, 4, 1, 4096, [⟨15, 0, .rw, 0, false, false⟩, ⟨31, 31, .rw, 0, false, false⟩]⟩,  -- TUN_SYNCc
  ⟨0x800, 64, 32, 4, 8, [⟨27, 0, .rw, 0, false, false⟩]⟩,  -- TUN_WINt_w_BASE, t  0–63, w  0–3
  ⟨0x804, 64, 32, 4, 8, [⟨27, 0, .rw, 0, false, false⟩, ⟨28, 28, .rw, 0, false, false⟩, ⟨29, 29, .rw, 0, false, false⟩, ⟨31, 31, .rw, 0, false, false⟩]⟩,  -- TUN_WINt_w_SIZE
  ⟨0x10, 1, 4096, 1, 4096, [⟨0, 0, .w1c, 0, false, false⟩, ⟨1, 1, .w1c, 0, false, false⟩, ⟨2, 2, .w1c, 0, false, false⟩]⟩  -- IRQ_RAW
  ]

/-- Registers of pages 0x081–0x088 after the common header, from the register tables of its chapter. -/
def regs081_088 : List RegRow := [
  ⟨0x40, 1, 4096, 1, 4096, [⟨3, 0, .ro, 0, false, false⟩, ⟨7, 4, .ro, 0, false, false⟩, ⟨8, 8, .ro, 0, false, false⟩, ⟨9, 9, .ro, 0, false, false⟩]⟩,  -- TUN_CK_STS
  ⟨0x44, 1, 4096, 1, 4096, [⟨31, 0, .rc, 0, false, false⟩]⟩,  -- TUN_CK_TILEN
  ⟨0x48, 1, 4096, 1, 4096, [⟨31, 0, .rc, 0, false, false⟩]⟩,  -- TUN_CK_BUSYCT
  ⟨0x4c, 1, 4096, 1, 4096, [⟨31, 0, .rc, 0, false, false⟩]⟩,  -- TUN_CK_GATECT
  ⟨0x50, 1, 4096, 1, 4096, [⟨15, 0, .rc, 0, false, false⟩, ⟨31, 16, .rc, 0, false, false⟩]⟩,  -- TUN_CK_ECC
  ⟨0x54, 1, 4096, 1, 4096, [⟨31, 0, .ro, 0, false, false⟩]⟩,  -- TUN_CK_ECCADR_LO
  ⟨0x58, 1, 4096, 1, 4096, [⟨7, 0, .ro, 0, false, false⟩]⟩,  -- TUN_CK_ECCADR_HI
  ⟨0x5c, 1, 4096, 1, 4096, [⟨0, 0, .w1s, 0, false, false⟩]⟩,  -- TUN_CK_CMD
  ⟨0x10, 1, 4096, 1, 4096, [⟨0, 0, .w1c, 0, false, false⟩, ⟨1, 1, .w1c, 0, false, false⟩]⟩  -- IRQ_RAW
  ]

/-- Registers of page 0x090 after the common header, from the register tables of its chapter. -/
def regs090 : List RegRow := [
  ⟨0x40, 1, 4096, 1, 4096, [⟨0, 0, .rw, 1, false, false⟩]⟩,  -- LTR_CTL
  ⟨0x44, 1, 4096, 1, 4096, [⟨0, 0, .ro, 0, false, false⟩, ⟨1, 1, .ro, 0, false, false⟩, ⟨13, 8, .ro, 0, false, false⟩, ⟨31, 16, .ro, 0, false, false⟩]⟩,  -- LTR_STAT
  ⟨0x48, 1, 4096, 1, 4096, [⟨31, 0, .rc, 0, false, false⟩]⟩,  -- LTR_OPN
  ⟨0x4c, 1, 4096, 1, 4096, [⟨15, 0, .rc, 0, false, false⟩, ⟨31, 16, .rc, 0, false, false⟩]⟩,  -- LTR_ERRN
  ⟨0x50, 1, 4096, 1, 4096, [⟨31, 0, .ro, 0, false, false⟩]⟩,  -- LTR_GNS
  ⟨0x54, 1, 4096, 1, 4096, [⟨31, 0, .rc, 0, false, false⟩]⟩,  -- LTR_GMAX
  ⟨0x58, 1, 4096, 1, 4096, [⟨0, 0, .w1s, 0, false, false⟩, ⟨1, 1, .rw, 0, false, false⟩, ⟨8, 8, .ro, 0, false, false⟩]⟩,  -- LTR_WCTL
  ⟨0x5c, 1, 4096, 1, 4096, [⟨7, 0, .ro, 0, false, false⟩]⟩,  -- LTR_CFGSTS
  ⟨0x100, 64, 4, 1, 4096, [⟨31, 0, .rc, 0, false, false⟩]⟩,  -- LTR_OVFe
  ⟨0x200, 64, 4, 1, 4096, [⟨31, 0, .rc, 0, false, false⟩]⟩,  -- LTR_TSKIPt
  ⟨0x400, 128, 4, 1, 4096, [⟨15, 0, .rw, 0, false, false⟩, ⟨31, 16, .rw, 0, false, false⟩]⟩,  -- LTR_WTABi
  ⟨0x10, 1, 4096, 1, 4096, [⟨0, 0, .w1c, 0, false, false⟩, ⟨1, 1, .w1c, 0, false, false⟩, ⟨2, 2, .w1c, 0, false, false⟩, ⟨3, 3, .w1c, 0, false, false⟩, ⟨4, 4, .w1c, 0, false, false⟩]⟩  -- IRQ_RAW
  ]

/-- Registers of page 0x098 after the common header, from the register tables of its chapter. -/
def regs098 : List RegRow := [
  ⟨0x40, 1, 4096, 1, 4096, [⟨0, 0, .rw, 1, false, false⟩]⟩,  -- BARM_CTL
  ⟨0x44, 1, 4096, 1, 4096, [⟨7, 0, .rw, 8, false, false⟩, ⟨15, 8, .rw, 0, false, false⟩]⟩,  -- BARM_WIN
  ⟨0x48, 1, 4096, 1, 4096, [⟨15, 0, .rw, 0x1000, false, false⟩]⟩,  -- BARM_POLL
  ⟨0x4c, 1, 4096, 1, 4096, [⟨31, 0, .wo, 0, false, false⟩]⟩,  -- BARM_KICK_LO
  ⟨0x50, 1, 4096, 1, 4096, [⟨31, 0, .wo, 0, false, false⟩]⟩,  -- BARM_KICK_HI
  ⟨0x54, 1, 4096, 1, 4096, [⟨8, 0, .ro, 0, false, false⟩, ⟨24, 16, .ro, 0, false, false⟩]⟩,  -- BARM_STAT
  ⟨0x58, 1, 4096, 1, 4096, [⟨19, 0, .ro, 0, false, false⟩]⟩,  -- BARM_WCAP
  ⟨0x5c, 1, 4096, 1, 4096, [⟨19, 0, .ro, 0, false, false⟩]⟩,  -- BARM_WFREE
  ⟨0x60, 1, 4096, 1, 4096, [⟨31, 0, .ro, 0, false, false⟩]⟩,  -- BARM_WCUR_LO
  ⟨0x64, 1, 4096, 1, 4096, [⟨15, 0, .ro, 0, false, false⟩]⟩,  -- BARM_WCUR_HI
  ⟨0x68, 1, 4096, 1, 4096, [⟨15, 0, .rc, 0, false, false⟩, ⟨31, 16, .rc, 0, false, false⟩]⟩,  -- BARM_CNT
  ⟨0x6c, 1, 4096, 1, 4096, [⟨31, 0, .rc, 0, false, false⟩]⟩,  -- BARM_SPSTALL
  ⟨0x70, 1, 4096, 1, 4096, [⟨7, 0, .ro, 0, false, false⟩]⟩,  -- BARM_CFGSTS
  ⟨0x100, 64, 32, 1, 4096, [⟨31, 6, .rw, 0, false, false⟩]⟩,  -- BARM_RBASE_LO
  ⟨0x104, 64, 32, 1, 4096, [⟨7, 0, .rw, 0, false, false⟩]⟩,  -- BARM_RBASE_HI
  ⟨0x108, 64, 32, 1, 4096, [⟨3, 0, .rw, 0, false, false⟩, ⟨11, 8, .rw, 0, false, false⟩, ⟨31, 31, .rw, 0, false, false⟩]⟩,  -- BARM_RCFG
  ⟨0x10c, 64, 32, 1, 4096, [⟨0, 0, .ro, 0, false, false⟩, ⟨1, 1, .ro, 0, false, false⟩]⟩,  -- BARM_RSTS
  ⟨0x110, 64, 32, 1, 4096, [⟨15, 0, .rc, 0, false, false⟩, ⟨31, 16, .rc, 0, false, false⟩]⟩,  -- BARM_RCNT
  ⟨0x10, 1, 4096, 1, 4096, [⟨0, 0, .w1c, 0, false, false⟩, ⟨1, 1, .w1c, 0, false, false⟩, ⟨2, 2, .w1c, 0, false, false⟩, ⟨3, 3, .w1c, 0, false, false⟩]⟩  -- IRQ_RAW
  ]

/-- Registers of page 0x0a0 after the common header, from the register tables of its chapter. -/
def regs0A0 : List RegRow := [
  ⟨0x40, 1, 4096, 1, 4096, [⟨3, 0, .rw, 0, false, false⟩, ⟨11, 8, .w1s, 0, false, false⟩]⟩,  -- CCX_HCTL
  ⟨0x44, 1, 4096, 1, 4096, [⟨3, 0, .ro, 0, false, false⟩, ⟨11, 8, .w1c, 0, false, false⟩]⟩,  -- CCX_HSTS
  ⟨0x48, 1, 4096, 1, 4096, [⟨15, 0, .rw, 0x3e8, false, false⟩, ⟨31, 31, .rw, 0, false, false⟩]⟩,  -- CCX_WDTCFG
  ⟨0x4c, 1, 4096, 1, 4096, [⟨3, 0, .w1s, 0, true, false⟩]⟩,  -- CCX_WDTKICK
  ⟨0x50, 4, 4, 1, 4096, [⟨5, 0, .ro, 0, false, false⟩, ⟨8, 8, .ro, 0, false, false⟩]⟩,  -- CCX_CTXh, h  0–3
  ⟨0x60, 1, 4096, 1, 4096, [⟨15, 0, .rc, 0, false, false⟩, ⟨31, 16, .rc, 0, false, false⟩]⟩,  -- CCX_CNT
  ⟨0x64, 1, 4096, 1, 4096, [⟨31, 0, .ro, 0, false, false⟩]⟩,  -- CCX_FLT_LO
  ⟨0x68, 1, 4096, 1, 4096, [⟨7, 0, .ro, 0, false, false⟩]⟩,  -- CCX_FLT_HI
  ⟨0x10, 1, 4096, 1, 4096, [⟨0, 0, .w1c, 0, false, false⟩, ⟨1, 1, .w1c, 0, false, false⟩]⟩  -- IRQ_RAW
  ]

/-- Registers of page 0x0a1 after the common header, from the register tables of its chapter. -/
def regs0A1 : List RegRow := [
  ⟨0x40, 1, 4096, 1, 4096, [⟨15, 0, .rc, 0, false, false⟩, ⟨31, 16, .rc, 0, false, false⟩]⟩,  -- CCX_M_ECC
  ⟨0x44, 1, 4096, 1, 4096, [⟨31, 0, .ro, 0, false, false⟩]⟩,  -- CCX_M_EADR_LO
  ⟨0x48, 1, 4096, 1, 4096, [⟨7, 0, .ro, 0, false, false⟩]⟩,  -- CCX_M_EADR_HI
  ⟨0x10, 1, 4096, 1, 4096, [⟨0, 0, .w1c, 0, false, false⟩]⟩  -- IRQ_RAW
  ]

/-- Registers of page 0x0a2 after the common header, from the register tables of its chapter. -/
def regs0A2 : List RegRow := [
  ⟨0x40, 1, 4096, 1, 4096, [⟨2, 0, .rw, 2, false, false⟩, ⟨5, 4, .rw, 2, false, false⟩, ⟨8, 8, .rw, 0, false, false⟩]⟩,  -- CCX_DDR_CFG
  ⟨0x44, 1, 4096, 1, 4096, [⟨0, 0, .w1s, 0, false, false⟩]⟩,  -- CCX_DDR_CMD
  ⟨0x48, 1, 4096, 1, 4096, [⟨7, 0, .ro, 0, false, false⟩, ⟨8, 8, .ro, 0, false, false⟩]⟩,  -- CCX_DDR_STS
  ⟨0x4c, 1, 4096, 1, 4096, [⟨15, 0, .ro, 0, false, false⟩]⟩,  -- CCX_DDR_SIZE
  ⟨0x50, 1, 4096, 1, 4096, [⟨15, 0, .rc, 0, false, false⟩, ⟨31, 16, .rc, 0, false, false⟩]⟩,  -- CCX_DDR_ECC
  ⟨0x54, 1, 4096, 1, 4096, [⟨31, 0, .ro, 0, false, false⟩]⟩,  -- CCX_DDR_EADR
  ⟨0x10, 1, 4096, 1, 4096, [⟨0, 0, .w1c, 0, false, false⟩, ⟨1, 1, .w1c, 0, false, false⟩]⟩  -- IRQ_RAW
  ]

/-- Registers of page 0x0a3 after the common header, from the register tables of its chapter. -/
def regs0A3 : List RegRow := [
  ⟨0x40, 1, 4096, 1, 4096, [⟨1, 0, .rw, 0, false, false⟩, ⟨2, 2, .rw, 0, false, false⟩, ⟨11, 8, .rw, 4, false, false⟩]⟩,  -- CCX_QSP_CFG
  ⟨0x44, 1, 4096, 1, 4096, [⟨7, 0, .rw, 0, false, false⟩, ⟨11, 8, .rw, 0, false, false⟩, ⟨13, 12, .rw, 0, false, false⟩, ⟨16, 16, .rw, 0, false, false⟩]⟩,  -- CCX_QSP_OP
  ⟨0x48, 1, 4096, 1, 4096, [⟨31, 0, .rw, 0, false, false⟩]⟩,  -- CCX_QSP_ADDR
  ⟨0x4c, 1, 4096, 1, 4096, [⟨8, 0, .rw, 0, false, false⟩]⟩,  -- CCX_QSP_LEN
  ⟨0x50, 1, 4096, 1, 4096, [⟨0, 0, .w1s, 0, false, false⟩]⟩,  -- CCX_QSP_CMD
  ⟨0x54, 1, 4096, 1, 4096, [⟨7, 0, .ro, 0, false, false⟩]⟩,  -- CCX_QSP_STS
  ⟨0x58, 1, 4096, 1, 4096, [⟨0, 0, .ro, 0, false, false⟩, ⟨1, 1, .ro, 0, false, false⟩]⟩,  -- CCX_QSP_WP
  ⟨0x100, 64, 4, 1, 4096, [⟨31, 0, .rw, 0, false, false⟩]⟩  -- CCX_QSP_BUFw, w  0–63
  ]

/-- Registers of page 0x0a8 after the common header, from the register tables of its chapter. -/
def regs0A8 : List RegRow := [
  ⟨0x40, 1, 4096, 1, 4096, [⟨0, 0, .ro, 0, false, false⟩, ⟨3, 2, .ro, 0, false, false⟩, ⟨11, 8, .ro, 0, false, false⟩, ⟨15, 12, .ro, 0, false, false⟩, ⟨21, 16, .ro, 0, false, false⟩]⟩,  -- MGC_BSTS
  ⟨0x44, 1, 4096, 1, 4096, [⟨31, 0, .ro, 0, false, false⟩]⟩,  -- MGC_BVER
  ⟨0x48, 1, 4096, 1, 4096, [⟨7, 0, .ro, 0, false, false⟩]⟩,  -- MGC_BREC
  ⟨0x4c, 1, 4096, 1, 4096, [⟨0, 0, .w1s, 0, false, false⟩, ⟨1, 1, .w1s, 0, false, false⟩, ⟨2, 2, .w1s, 0, false, false⟩, ⟨8, 8, .rw, 0, false, false⟩]⟩,  -- MGC_BCMD
  ⟨0x50, 1, 4096, 1, 4096, [⟨7, 0, .ro, 0, false, false⟩]⟩,  -- MGC_BCODE
  ⟨0x54, 1, 4096, 1, 4096, [⟨15, 0, .rw, 0x7d0, false, false⟩, ⟨31, 31, .rw, 1, false, false⟩]⟩,  -- MGC_WDT
  ⟨0x58, 1, 4096, 1, 4096, [⟨0, 0, .w1s, 0, true, false⟩]⟩,  -- MGC_WKICK
  ⟨0x5c, 1, 4096, 1, 4096, [⟨3, 0, .wo, 0, false, false⟩, ⟨25, 16, .wo, 0, false, false⟩]⟩,  -- MGC_RCMD
  ⟨0x60, 1, 4096, 1, 4096, [⟨7, 0, .ro, 0, false, false⟩, ⟨8, 8, .ro, 0, false, false⟩, ⟨31, 16, .ro, 0, false, false⟩]⟩,  -- MGC_RSTS
  ⟨0x64, 1, 4096, 1, 4096, [⟨15, 0, .rw, 0xffff, false, false⟩]⟩,  -- MGC_IMAP
  ⟨0x68, 1, 4096, 1, 4096, [⟨15, 0, .rw, 0, false, false⟩]⟩,  -- MGC_WBASE
  ⟨0x80, 8, 4, 1, 4096, [⟨31, 0, .rw, 0, false, false⟩]⟩,  -- MGC_MB_OUTw, w  0–7
  ⟨0xa0, 8, 4, 1, 4096, [⟨31, 0, .rw, 0, false, false⟩]⟩,  -- MGC_MB_INw, w  0–7
  ⟨0xc0, 1, 4096, 1, 4096, [⟨0, 0, .w1s, 0, false, false⟩, ⟨1, 1, .w1s, 0, false, false⟩]⟩,  -- MGC_MB_DB
  ⟨0x10, 1, 4096, 1, 4096, [⟨0, 0, .w1c, 0, false, false⟩, ⟨1, 1, .w1c, 0, false, false⟩, ⟨2, 2, .w1c, 0, false, false⟩]⟩  -- IRQ_RAW
  ]

/-- Registers of page 0x0b0 after the common header, from the register tables of its chapter. -/
def regs0B0 : List RegRow := [
  ⟨0x40, 1, 4096, 1, 4096, [⟨0, 0, .rw, 0, false, false⟩, ⟨6, 4, .rw, 0, false, false⟩, ⟨8, 8, .rw, 0, false, false⟩]⟩,  -- PLT_CTL
  ⟨0x44, 1, 4096, 1, 4096, [⟨5, 0, .rw, 0x3f, false, false⟩]⟩,  -- PLT_TXLVL
  ⟨0x48, 1, 4096, 1, 4096, [⟨4, 0, .rw, 4, false, false⟩]⟩,  -- PLT_SPAN
  ⟨0x4c, 1, 4096, 1, 4096, [⟨15, 0, .rw, 0x258, false, false⟩, ⟨18, 16, .rw, 4, false, false⟩, ⟨21, 20, .rw, 0, false, false⟩, ⟨31, 31, .rw, 0, false, false⟩]⟩,  -- PLT_TMCFG
  ⟨0x50, 1, 4096, 1, 4096, [⟨7, 0, .rw, 0xc, false, false⟩, ⟨15, 8, .rw, 4, false, false⟩]⟩,  -- PLT_TMMARG
  ⟨0x54, 4, 4, 1, 4096, [⟨31, 0, .rw, 0, false, false⟩]⟩,  -- PLT_TMASK0–3
  ⟨0x64, 1, 4096, 1, 4096, [⟨0, 0, .ro, 0, false, false⟩, ⟨1, 1, .ro, 0, false, false⟩, ⟨2, 2, .ro, 0, false, false⟩, ⟨3, 3, .ro, 0, false, false⟩, ⟨4, 4, .ro, 0, false, false⟩, ⟨14, 8, .ro, 0, false, false⟩]⟩,  -- PLT_STS
  ⟨0x68, 1, 4096, 1, 4096, [⟨15, 0, .rc, 0, false, false⟩, ⟨31, 16, .rc, 0, false, false⟩]⟩,  -- PLT_RXCNT
  ⟨0x6c, 1, 4096, 1, 4096, [⟨15, 0, .rc, 0, false, false⟩, ⟨31, 16, .rc, 0, false, false⟩]⟩,  -- PLT_RXCNT2
  ⟨0x70, 1, 4096, 1, 4096, [⟨15, 0, .rc, 0, false, false⟩, ⟨31, 16, .rc, 0, false, false⟩]⟩,  -- PLT_TXCNT
  ⟨0x74, 1, 4096, 1, 4096, [⟨7, 0, .ro, 0, false, false⟩]⟩,  -- PLT_CFGSTS
  ⟨0x10, 1, 4096, 1, 4096, [⟨0, 0, .w1c, 0, false, false⟩, ⟨1, 1, .w1c, 0, false, false⟩, ⟨2, 2, .w1c, 0, false, false⟩]⟩  -- IRQ_RAW
  ]

/-- Registers of page 0x0b1 after the common header, from the register tables of its chapter. -/
def regs0B1 : List RegRow := [
  ⟨0x40, 1, 4096, 1, 4096, [⟨5, 0, .rw, 0, false, false⟩, ⟨8, 8, .rw, 0, false, false⟩, ⟨19, 16, .rw, 0, false, false⟩]⟩,  -- PLT_TMSEL
  ⟨0x44, 1, 4096, 1, 4096, [⟨7, 0, .ro, 0, false, false⟩, ⟨9, 8, .ro, 0, false, false⟩, ⟨14, 10, .ro, 0, false, false⟩, ⟨15, 15, .ro, 0, false, false⟩, ⟨31, 16, .ro, 0, false, false⟩]⟩,  -- PLT_TMINFO
  ⟨0x48, 1, 4096, 1, 4096, [⟨31, 0, .ro, 0, false, false⟩]⟩,  -- PLT_TMAGE
  ⟨0x100, 9, 4, 1, 4096, [⟨31, 0, .ro, 0, false, false⟩]⟩  -- PLT_TMDATAw
  ]

/-- Registers of page 0x0b4 after the common header, from the register tables of its chapter. -/
def regs0B4 : List RegRow := [
  ⟨0x40, 1, 4096, 1, 4096, [⟨0, 0, .rw, 0, false, false⟩, ⟨1, 1, .rw, 0, false, false⟩]⟩,  -- PLP_CTL
  ⟨0x44, 1, 4096, 1, 4096, [⟨15, 0, .rw, 0x400, false, false⟩, ⟨19, 16, .rw, 0xc, false, false⟩]⟩,  -- PLP_DET
  ⟨0x48, 1, 4096, 1, 4096, [⟨15, 0, .rw, 0xbb8, false, false⟩]⟩,  -- PLP_DLWAIT
  ⟨0x4c, 1, 4096, 1, 4096, [⟨15, 0, .rc, 0, false, false⟩, ⟨31, 16, .rc, 0, false, false⟩]⟩,  -- PLP_CNT
  ⟨0x50, 1, 4096, 1, 4096, [⟨15, 0, .rc, 0, false, false⟩, ⟨31, 16, .rc, 0, false, false⟩]⟩,  -- PLP_CNT2
  ⟨0x54, 1, 4096, 1, 4096, [⟨15, 0, .rc, 0, false, false⟩, ⟨31, 16, .rc, 0, false, false⟩]⟩,  -- PLP_CNT3
  ⟨0x58, 1, 4096, 1, 4096, [⟨15, 0, .ro, 0, false, false⟩, ⟨17, 16, .ro, 0, false, false⟩, ⟨19, 18, .ro, 0, false, false⟩, ⟨29, 24, .ro, 0, false, false⟩]⟩,  -- PLP_LAST
  ⟨0x5c, 1, 4096, 1, 4096, [⟨7, 0, .ro, 0, false, false⟩]⟩,  -- PLP_CFGSTS
  ⟨0x100, 64, 4, 1, 4096, [⟨29, 24, .rw, 0, true, false⟩, ⟨21, 16, .rw, 0, true, false⟩, ⟨13, 8, .rw, 0, true, false⟩, ⟨5, 0, .rw, 0, true, false⟩, ⟨31, 31, .rw, 0, true, false⟩, ⟨23, 23, .rw, 0, true, false⟩, ⟨15, 15, .rw, 0, true, false⟩, ⟨7, 7, .rw, 0, true, false⟩]⟩,  -- PLP_EMAP
  ⟨0x10, 1, 4096, 1, 4096, [⟨0, 0, .w1c, 0, false, false⟩, ⟨1, 1, .w1c, 0, false, false⟩, ⟨2, 2, .w1c, 0, false, false⟩]⟩  -- IRQ_RAW
  ]

/-- Registers of page 0x0b8 after the common header, from the register tables of its chapter. -/
def regs0B8 : List RegRow := [
  ⟨0x40, 1, 4096, 1, 4096, [⟨0, 0, .rw, 0, false, false⟩, ⟨15, 8, .rw, 0, false, false⟩, ⟨16, 16, .w1s, 0, false, false⟩, ⟨17, 17, .w1c, 0, false, false⟩, ⟨18, 18, .rw, 1, false, false⟩]⟩,  -- PLM_CTL
  ⟨0x44, 1, 4096, 1, 4096, [⟨15, 0, .rw, 0x1f4, false, false⟩, ⟨31, 16, .rw, 0x3e8, false, false⟩]⟩,  -- PLM_TIME
  ⟨0x48, 1, 4096, 1, 4096, [⟨3, 0, .rw, 3, false, false⟩, ⟨6, 4, .rw, 3, false, false⟩, ⟨15, 8, .rw, 0x40, false, false⟩, ⟨23, 16, .rw, 0x28, false, false⟩]⟩,  -- PLM_MAC
  ⟨0x4c, 1, 4096, 1, 4096, [⟨15, 0, .wo, 0, false, false⟩]⟩,  -- PLM_JOIN
  ⟨0x50, 1, 4096, 1, 4096, [⟨7, 0, .rw, 0x10, false, false⟩, ⟨15, 8, .rw, 0x40, false, false⟩, ⟨31, 16, .rw, 0xc350, false, false⟩]⟩,  -- PLM_NODECFG
  ⟨0x54, 1, 4096, 1, 4096, [⟨15, 0, .rw, 0x7530, false, false⟩, ⟨23, 16, .rw, 0x96, false, false⟩, ⟨27, 24, .rw, 4, false, false⟩]⟩,  -- PLM_RGCFG
  ⟨0x58, 1, 4096, 1, 4096, [⟨31, 0, .rw, 0x41eb00, false, false⟩]⟩,  -- PLM_RG_MAXACT
  ⟨0x5c, 1, 4096, 1, 4096, [⟨7, 0, .rw, 0xc0, false, false⟩]⟩,  -- PLM_SBASE
  ⟨0x60, 4, 4, 1, 4096, [⟨31, 0, .wo, 0, false, false⟩]⟩,  -- PLM_SITEKEY0–3
  ⟨0x70, 1, 4096, 1, 4096, [⟨15, 0, .rc, 0, false, false⟩, ⟨31, 16, .rc, 0, false, false⟩]⟩,  -- PLM_CNT0
  ⟨0x74, 1, 4096, 1, 4096, [⟨15, 0, .rc, 0, false, false⟩, ⟨31, 16, .rc, 0, false, false⟩]⟩,  -- PLM_CNT1
  ⟨0x78, 1, 4096, 1, 4096, [⟨15, 0, .rc, 0, false, false⟩, ⟨31, 16, .rc, 0, false, false⟩]⟩,  -- PLM_CNT2
  ⟨0x7c, 1, 4096, 1, 4096, [⟨15, 0, .rc, 0, false, false⟩, ⟨31, 16, .rc, 0, false, false⟩]⟩,  -- PLM_CNT3
  ⟨0x80, 1, 4096, 1, 4096, [⟨15, 0, .rc, 0, false, false⟩, ⟨31, 16, .rc, 0, false, false⟩]⟩,  -- PLM_CNT4
  ⟨0x84, 1, 4096, 1, 4096, [⟨15, 0, .rc, 0, false, false⟩]⟩,  -- PLM_CNT5
  ⟨0x90, 1, 4096, 1, 4096, [⟨3, 0, .ro, 0, false, false⟩]⟩,  -- PLM_SRQ_WR
  ⟨0x94, 1, 4096, 1, 4096, [⟨3, 0, .rw, 0, true, false⟩]⟩,  -- PLM_SRQ_RD
  ⟨0x100, 16, 16, 4, 4, [⟨31, 0, .ro, 0, false, false⟩]⟩,  -- PLM_SRQi
  ⟨0x200, 16, 16, 4, 4, [⟨31, 0, .ro, 0, false, false⟩]⟩,  -- PLM_EVi
  ⟨0x300, 1, 4096, 1, 4096, [⟨3, 0, .ro, 0, false, false⟩]⟩,  -- PLM_EV_WR
  ⟨0x304, 1, 4096, 1, 4096, [⟨3, 0, .rw, 0, false, false⟩]⟩  -- PLM_EV_RD
  ]

/-- Registers of page 0x0b9 after the common header, from the register tables of its chapter. -/
def regs0B9 : List RegRow := [
  ⟨0x40, 1, 4096, 1, 4096, [⟨7, 0, .rw, 0, false, false⟩, ⟨9, 8, .rw, 0, false, false⟩]⟩,  -- PLM_TSEL
  ⟨0x44, 1, 4096, 1, 4096, [⟨31, 0, .ro, 0, false, false⟩]⟩,  -- PLM_TINFO0
  ⟨0x48, 2, 4, 1, 4096, [⟨31, 0, .ro, 0, false, false⟩]⟩,  -- PLM_TINFO1–2
  ⟨0x50, 1, 4096, 1, 4096, [⟨31, 0, .ro, 0, false, false⟩]⟩  -- PLM_TINFO3
  ]

/-- Registers of pages 0x0ba–0x0bb after the common header, from the register tables of its chapter. -/
def regs0BA_0BB : List RegRow := [
  ⟨0x100, 64, 48, 1, 4096, [⟨31, 6, .rw, 0, false, false⟩]⟩,  -- PLM_EP_RB_LO
  ⟨0x104, 64, 48, 1, 4096, [⟨7, 0, .rw, 0, false, false⟩]⟩,  -- PLM_EP_RB_HI
  ⟨0x108, 64, 48, 1, 4096, [⟨3, 0, .rw, 0, false, false⟩, ⟨7, 4, .rw, 0, false, false⟩, ⟨11, 8, .rw, 0, false, false⟩, ⟨13, 12, .rw, 0, false, false⟩, ⟨14, 14, .rw, 0, false, false⟩, ⟨31, 31, .rw, 0, false, false⟩]⟩,  -- PLM_EP_CFG
  ⟨0x10c, 64, 48, 1, 4096, [⟨15, 0, .rw, 0, false, false⟩]⟩,  -- PLM_EP_NIDR
  ⟨0x110, 64, 48, 1, 4096, [⟨31, 0, .rw, 0, false, false⟩]⟩,  -- PLM_EP_SINK
  ⟨0x114, 64, 48, 4, 4, [⟨31, 0, .wo, 0, false, false⟩]⟩,  -- PLM_EP_KEY0–3
  ⟨0x124, 64, 48, 1, 4096, [⟨0, 0, .w1s, 0, false, false⟩, ⟨15, 8, .ro, 0, false, false⟩]⟩,  -- PLM_EP_KST
  ⟨0x128, 64, 48, 1, 4096, [⟨0, 0, .ro, 0, false, false⟩, ⟨15, 8, .ro, 0, false, false⟩, ⟨31, 16, .rc, 0, false, false⟩]⟩  -- PLM_EP_STS
  ]

/-- Registers of page 0x0c0 after the common header, from the register tables of its chapter. -/
def regs0C0_0 : List RegRow := [
  ⟨0x40, 1, 4096, 1, 4096, [⟨0, 0, .rw, 0, false, false⟩, ⟨1, 1, .rw, 0, false, false⟩, ⟨15, 8, .rw, 1, false, false⟩, ⟨23, 16, .rw, 4, false, false⟩, ⟨31, 24, .rw, 8, false, false⟩]⟩,  -- SWC_CTL
  ⟨0x44, 1, 4096, 1, 4096, [⟨5, 0, .ro, 0x3f, false, false⟩, ⟨8, 8, .ro, 0, false, false⟩, ⟨9, 9, .ro, 0, false, false⟩, ⟨10, 10, .ro, 0, false, false⟩, ⟨11, 11, .ro, 0, false, false⟩, ⟨12, 12, .ro, 0, false, false⟩, ⟨19, 16, .ro, 0, false, false⟩]⟩,  -- SWC_STS
  ⟨0x48, 1, 4096, 1, 4096, [⟨5, 0, .ro, 0, false, false⟩, ⟨31, 16, .ro, 0, false, false⟩]⟩,  -- SWC_NDEV
  ⟨0x4c, 1, 4096, 1, 4096, [⟨31, 0, .ro, 0, false, false⟩]⟩,  -- SWC_OFS_LO
  ⟨0x50, 1, 4096, 1, 4096, [⟨31, 0, .ro, 0, false, false⟩]⟩,  -- SWC_OFS_HI
  ⟨0x54, 1, 4096, 1, 4096, [⟨7, 0, .ro, 0, false, false⟩]⟩,  -- SWC_OFS_FR
  ⟨0x58, 1, 4096, 1, 4096, [⟨23, 0, .ro, 0, false, false⟩]⟩,  -- SWC_DELAY
  ⟨0x60, 1, 4096, 1, 4096, [⟨31, 0, .rw, 0, false, false⟩]⟩,  -- SWC_SW_AT_LO
  ⟨0x64, 1, 4096, 1, 4096, [⟨31, 0, .rw, 0, false, false⟩]⟩,  -- SWC_SW_AT_HI
  ⟨0x68, 1, 4096, 1, 4096, [⟨3, 0, .rw, 1, false, false⟩, ⟨8, 8, .w1s, 0, false, false⟩]⟩,  -- SWC_SW_CMD
  ⟨0x6c, 1, 4096, 1, 4096, [⟨15, 0, .ro, 0, false, false⟩, ⟨23, 16, .ro, 0, false, false⟩, ⟨31, 24, .ro, 0, false, false⟩]⟩,  -- SWC_SW_STS
  ⟨0x70, 1, 4096, 1, 4096, [⟨0, 0, .w1s, 0, false, false⟩]⟩,  -- SWC_ENUMCMD
  ⟨0x74, 1, 4096, 1, 4096, [⟨15, 0, .rc, 0, false, false⟩, ⟨31, 16, .rc, 0, false, false⟩]⟩,  -- SWC_CNT
  ⟨0x78, 1, 4096, 1, 4096, [⟨15, 0, .rc, 0, false, false⟩, ⟨31, 16, .rc, 0, false, false⟩]⟩,  -- SWC_CNT2
  ⟨0x7c, 1, 4096, 1, 4096, [⟨15, 0, .rw, 0, false, false⟩, ⟨21, 16, .rw, 0, false, false⟩, ⟨24, 24, .w1s, 0, false, false⟩]⟩,  -- SWC_FETCH
  ⟨0x80, 1, 4096, 1, 4096, [⟨15, 0, .rw, 0, false, false⟩]⟩,  -- SWC_RSEL
  ⟨0x84, 1, 4096, 1, 4096, [⟨7, 0, .ro, 0, false, false⟩, ⟨8, 8, .ro, 0, false, false⟩, ⟨21, 16, .ro, 0, false, false⟩]⟩,  -- SWC_RHDR
  ⟨0x100, 32, 8, 2, 4, [⟨31, 0, .ro, 0, false, false⟩]⟩,  -- SWC_DEVn_LO, _HI
  ⟨0x200, 32, 32, 1, 4096, [⟨1, 0, .ro, 0, false, false⟩, ⟨15, 8, .ro, 0, false, false⟩, ⟨16, 16, .ro, 0, false, false⟩]⟩,  -- SWC_RPTn, +0x00
  ⟨0x208, 32, 32, 2, 4, [⟨31, 0, .ro, 0, false, false⟩]⟩,  -- +0x08, +0x0C
  ⟨0x210, 32, 32, 2, 4, [⟨31, 0, .ro, 0, false, false⟩]⟩,  -- +0x10, +0x14
  ⟨0x218, 32, 32, 2, 4, [⟨31, 0, .ro, 0, false, false⟩]⟩,  -- +0x18, +0x1C
  ⟨0x600, 16, 32, 1, 4096, [⟨15, 0, .ro, 0, false, false⟩, ⟨23, 16, .ro, 0, false, false⟩, ⟨27, 24, .ro, 0, false, false⟩, ⟨31, 31, .ro, 0, false, false⟩]⟩,  -- SWC_LRk, +0x00
  ⟨0x608, 16, 32, 2, 4, [⟨31, 0, .ro, 0, false, false⟩]⟩  -- +0x08, +0x0C
  ]

/-- Registers of the same pages, continued. -/
def regs0C0_1 : List RegRow := [
  ⟨0x610, 16, 32, 2, 4, [⟨31, 0, .ro, 0, false, false⟩]⟩,  -- +0x10, +0x14
  ⟨0x10, 1, 4096, 1, 4096, [⟨0, 0, .w1c, 0, false, false⟩, ⟨1, 1, .w1c, 0, false, false⟩, ⟨2, 2, .w1c, 0, false, false⟩, ⟨3, 3, .w1c, 0, false, false⟩, ⟨4, 4, .w1c, 0, false, false⟩]⟩  -- IRQ_RAW
  ]

/-- All of them. -/
def regs0C0 : List RegRow := regs0C0_0 ++ regs0C0_1

/-- Registers of page 0x0c8 after the common header, from the register tables of its chapter. -/
def regs0C8 : List RegRow := [
  ⟨0x40, 1, 4096, 1, 4096, [⟨7, 0, .rw, 0x50, false, false⟩, ⟨15, 8, .rw, 0xa, false, false⟩, ⟨31, 16, .rw, 0x64, false, false⟩]⟩,  -- TMP_HALL
  ⟨0x44, 1, 4096, 1, 4096, [⟨7, 0, .rw, 0xff, false, false⟩, ⟨15, 8, .rw, 0, false, false⟩, ⟨31, 16, .rw, 0x64, false, false⟩]⟩,  -- TMP_MAGCFG
  ⟨0x48, 1, 4096, 1, 4096, [⟨3, 0, .rw, 0xf, false, false⟩, ⟨7, 4, .rw, 0, false, false⟩, ⟨15, 8, .rw, 0xa, false, false⟩]⟩,  -- TMP_ENCCFG
  ⟨0x4c, 1, 4096, 1, 4096, [⟨7, 0, .rw, 0xd3, false, false⟩, ⟨15, 8, .rw, 0x82, false, false⟩, ⟨19, 16, .rw, 5, false, false⟩]⟩,  -- TMP_TEMP
  ⟨0x50, 1, 4096, 1, 4096, [⟨1, 0, .ro, 0, false, false⟩, ⟨15, 8, .ro, 0, false, false⟩, ⟨19, 16, .ro, 0, false, false⟩, ⟨20, 20, .ro, 0, false, false⟩, ⟨21, 21, .ro, 0, false, false⟩, ⟨22, 22, .ro, 0, false, false⟩]⟩,  -- TMP_STS
  ⟨0x54, 1, 4096, 1, 4096, [⟨15, 0, .ro, 0, false, false⟩, ⟨31, 16, .ro, 0, false, false⟩]⟩,  -- TMP_HB
  ⟨0x58, 1, 4096, 1, 4096, [⟨15, 0, .rc, 0, false, false⟩, ⟨31, 16, .rc, 0, false, false⟩]⟩,  -- TMP_CNT
  ⟨0x5c, 1, 4096, 1, 4096, [⟨15, 0, .rc, 0, false, false⟩, ⟨31, 16, .rc, 0, false, false⟩]⟩,  -- TMP_CNT2
  ⟨0x60, 1, 4096, 1, 4096, [⟨7, 0, .ro, 0, false, false⟩]⟩,  -- TMP_CFGSTS
  ⟨0x100, 2, 8, 1, 4096, [⟨31, 0, .rw, 0xffffffff, false, false⟩]⟩,  -- TMP_COVs_LO, s  0–9 of HS0, HS1
  ⟨0x110, 8, 8, 1, 4096, [⟨31, 0, .rw, 0, false, false⟩]⟩,  -- TMP_COVs_LO, s  0–9 of MAG07
  ⟨0x104, 2, 8, 1, 4096, [⟨31, 0, .rw, 0xffffffff, false, false⟩]⟩,  -- TMP_COVs_HI of HS0, HS1
  ⟨0x114, 8, 8, 1, 4096, [⟨31, 0, .rw, 0, false, false⟩]⟩,  -- TMP_COVs_HI of MAG07
  ⟨0x10, 1, 4096, 1, 4096, [⟨0, 0, .w1c, 0, false, false⟩, ⟨1, 1, .w1c, 0, false, false⟩, ⟨2, 2, .w1c, 0, false, false⟩, ⟨3, 3, .w1c, 0, false, false⟩]⟩  -- IRQ_RAW
  ]

/-- Registers of page 0x0cc after the common header, from the register tables of its chapter. -/
def regs0CC_0 : List RegRow := [
  ⟨0x40, 1, 4096, 1, 4096, [⟨1, 0, .ro, 0, false, false⟩, ⟨8, 8, .ro, 0, false, false⟩, ⟨9, 9, .ro, 0, false, false⟩]⟩,  -- CLG_STS
  ⟨0x44, 1, 4096, 1, 4096, [⟨31, 0, .ro, 0, false, false⟩]⟩,  -- CLG_HEADBLK
  ⟨0x48, 1, 4096, 1, 4096, [⟨7, 0, .ro, 0, false, false⟩]⟩,  -- CLG_HEADPOS
  ⟨0x4c, 1, 4096, 1, 4096, [⟨31, 0, .ro, 0, false, false⟩]⟩,  -- CLG_TAIL
  ⟨0x50, 1, 4096, 1, 4096, [⟨14, 0, .ro, 0, false, false⟩]⟩,  -- CLG_FREE
  ⟨0x54, 1, 4096, 1, 4096, [⟨13, 0, .rw, 0x800, false, false⟩]⟩,  -- CLG_RESVR
  ⟨0x58, 1, 4096, 1, 4096, [⟨31, 0, .wo, 0, false, false⟩]⟩,  -- CLG_RELEASE
  ⟨0x5c, 1, 4096, 1, 4096, [⟨0, 0, .w1s, 0, false, false⟩]⟩,  -- CLG_CMD
  ⟨0x60, 1, 4096, 1, 4096, [⟨7, 0, .ro, 0, false, false⟩]⟩,  -- CLG_CSTS
  ⟨0x64, 1, 4096, 1, 4096, [⟨31, 0, .ro, 0, false, false⟩]⟩,  -- CLG_LASTH_LO
  ⟨0x68, 1, 4096, 1, 4096, [⟨31, 0, .ro, 0, false, false⟩]⟩,  -- CLG_LASTH_HI
  ⟨0x6c, 1, 4096, 1, 4096, [⟨15, 0, .rc, 0, false, false⟩, ⟨31, 16, .rc, 0, false, false⟩]⟩,  -- CLG_CNT
  ⟨0x70, 1, 4096, 1, 4096, [⟨31, 0, .rw, 0, true, false⟩]⟩,  -- CLG_RD_BLK
  ⟨0x74, 1, 4096, 1, 4096, [⟨7, 0, .rw, 0, true, false⟩, ⟨15, 8, .ro, 0, false, false⟩]⟩,  -- CLG_RD_SEL
  ⟨0x80, 8, 4, 1, 4096, [⟨31, 0, .ro, 0, false, false⟩]⟩,  -- CLG_RDW0–7
  ⟨0xa0, 1, 4096, 1, 4096, [⟨31, 0, .rw, 0, true, false⟩]⟩,  -- CLG_EXP_BLK
  ⟨0xa4, 1, 4096, 1, 4096, [⟨6, 0, .rw, 0, true, false⟩]⟩,  -- CLG_EXP_CNT
  ⟨0xa8, 1, 4096, 1, 4096, [⟨31, 6, .rw, 0, true, false⟩]⟩,  -- CLG_EXP_DST_LO
  ⟨0xac, 1, 4096, 1, 4096, [⟨7, 0, .rw, 0, true, false⟩]⟩,  -- CLG_EXP_DST_HI
  ⟨0xb0, 1, 4096, 1, 4096, [⟨0, 0, .w1s, 0, true, false⟩]⟩,  -- CLG_EXP_CMD
  ⟨0xb4, 1, 4096, 1, 4096, [⟨7, 0, .ro, 0, false, false⟩, ⟨8, 8, .ro, 0, false, false⟩]⟩,  -- CLG_EXP_STS
  ⟨0xc0, 1, 4096, 1, 4096, [⟨31, 0, .rw, 0, false, false⟩]⟩,  -- CLG_FW_DATA_LO
  ⟨0xc4, 1, 4096, 1, 4096, [⟨31, 0, .rw, 0, false, false⟩]⟩,  -- CLG_FW_DATA_HI
  ⟨0xc8, 1, 4096, 1, 4096, [⟨15, 0, .wo, 0, false, false⟩, ⟨23, 16, .wo, 0, false, false⟩]⟩  -- CLG_FW_CODE
  ]

/-- Registers of the same pages, continued. -/
def regs0CC_1 : List RegRow := [
  ⟨0xcc, 1, 4096, 1, 4096, [⟨7, 0, .ro, 0, false, false⟩]⟩,  -- CLG_FW_STS
  ⟨0x100, 8, 4, 1, 4096, [⟨31, 0, .ro, 0, false, false⟩]⟩,  -- CLG_FULLCNTc
  ⟨0x10, 1, 4096, 1, 4096, [⟨0, 0, .w1c, 0, false, false⟩, ⟨1, 1, .w1c, 0, false, false⟩, ⟨2, 2, .w1c, 0, false, false⟩, ⟨3, 3, .w1c, 0, false, false⟩]⟩  -- IRQ_RAW
  ]

/-- All of them. -/
def regs0CC : List RegRow := regs0CC_0 ++ regs0CC_1

/-- Registers of page 0x0d0 after the common header, from the register tables of its chapter. -/
def regs0D0 : List RegRow := [
  ⟨0x40, 1, 4096, 1, 4096, [⟨0, 0, .rw, 1, false, false⟩]⟩,  -- SEC_CTL
  ⟨0x44, 1, 4096, 1, 4096, [⟨0, 0, .ro, 0, false, false⟩, ⟨1, 1, .ro, 0, false, false⟩, ⟨2, 2, .ro, 0, false, false⟩, ⟨13, 8, .ro, 0, false, false⟩]⟩,  -- SEC_STS
  ⟨0x48, 1, 4096, 1, 4096, [⟨5, 0, .ro, 0, false, false⟩, ⟨9, 8, .ro, 0, false, false⟩]⟩,  -- SEC_RBCNT
  ⟨0x4c, 1, 4096, 1, 4096, [⟨0, 0, .w1s, 0, false, false⟩, ⟨1, 1, .w1s, 0, false, false⟩, ⟨2, 2, .w1s, 0, false, false⟩, ⟨3, 3, .w1s, 0, false, false⟩, ⟨4, 4, .w1s, 0, false, false⟩]⟩,  -- SEC_OCMD
  ⟨0x50, 1, 4096, 1, 4096, [⟨7, 0, .ro, 0, false, false⟩]⟩,  -- SEC_OSTS
  ⟨0x54, 1, 4096, 1, 4096, [⟨15, 0, .rc, 0, false, false⟩, ⟨31, 16, .rc, 0, false, false⟩]⟩,  -- SEC_CNT
  ⟨0x58, 1, 4096, 1, 4096, [⟨15, 0, .rc, 0, false, false⟩]⟩,  -- SEC_RBGCNT
  ⟨0x60, 16, 4, 1, 4096, [⟨31, 0, .ro, 0, false, true⟩]⟩,  -- SEC_IDPUB0–15
  ⟨0x100, 64, 16, 1, 4096, [⟨31, 6, .rw, 0, false, false⟩]⟩,  -- SEC_RBASE_LOt
  ⟨0x104, 64, 16, 1, 4096, [⟨7, 0, .rw, 0, false, false⟩]⟩,  -- SEC_RBASE_HIt
  ⟨0x108, 64, 16, 1, 4096, [⟨3, 0, .rw, 0, false, false⟩, ⟨11, 8, .rw, 0, false, false⟩, ⟨31, 31, .rw, 0, false, false⟩]⟩,  -- SEC_RCFGt
  ⟨0x10c, 64, 16, 1, 4096, [⟨0, 0, .ro, 0, false, false⟩]⟩,  -- SEC_RSTSt
  ⟨0x500, 32, 4, 1, 4096, [⟨2, 0, .ro, 0, false, true⟩, ⟨3, 3, .ro, 0, false, true⟩, ⟨9, 4, .ro, 0, false, true⟩, ⟨15, 10, .ro, 0, false, true⟩, ⟨23, 16, .ro, 0, false, true⟩, ⟨25, 24, .ro, 0, false, true⟩]⟩,  -- SEC_SLOTs, s  0–31
  ⟨0x10, 1, 4096, 1, 4096, [⟨0, 0, .w1c, 0, false, false⟩, ⟨1, 1, .w1c, 0, false, false⟩, ⟨2, 2, .w1c, 0, false, false⟩, ⟨3, 3, .w1c, 0, false, false⟩]⟩  -- IRQ_RAW
  ]

/-- Registers of page 0x0d8 after the common header, from the register tables of its chapter. -/
def regs0D8 : List RegRow := [
  ⟨0x40, 1, 4096, 1, 4096, [⟨0, 0, .rw, 1, false, false⟩]⟩,  -- CEL_CTL
  ⟨0x44, 1, 4096, 1, 4096, [⟨1, 0, .rw, 0, false, false⟩]⟩,  -- CEL_BPR
  ⟨0x48, 1, 4096, 1, 4096, [⟨15, 0, .rw, 0x32, false, false⟩]⟩,  -- CEL_SCRUBR
  ⟨0x4c, 1, 4096, 1, 4096, [⟨0, 0, .ro, 0, false, false⟩, ⟨1, 1, .ro, 0, false, false⟩, ⟨12, 8, .ro, 0, false, false⟩]⟩,  -- CEL_STS
  ⟨0x50, 1, 4096, 1, 4096, [⟨16, 0, .ro, 0, false, false⟩]⟩,  -- CEL_SCPOS
  ⟨0x54, 1, 4096, 1, 4096, [⟨31, 0, .ro, 0, false, false⟩]⟩,  -- CEL_SCPASS
  ⟨0x58, 1, 4096, 1, 4096, [⟨15, 0, .rc, 0, false, false⟩, ⟨31, 16, .rc, 0, false, false⟩]⟩,  -- CEL_ECNT
  ⟨0x5c, 1, 4096, 1, 4096, [⟨16, 0, .ro, 0, false, false⟩]⟩,  -- CEL_UEADR
  ⟨0x60, 1, 4096, 1, 4096, [⟨15, 0, .rc, 0, false, false⟩]⟩,  -- CEL_WFAIL
  ⟨0x64, 1, 4096, 1, 4096, [⟨0, 0, .w1s, 0, false, false⟩, ⟨1, 1, .w1s, 0, false, false⟩, ⟨13, 8, .rw, 0, false, false⟩]⟩,  -- CEL_CMD
  ⟨0x68, 1, 4096, 1, 4096, [⟨7, 0, .ro, 0, false, false⟩]⟩,  -- CEL_CSTS
  ⟨0x70, 1, 4096, 1, 4096, [⟨7, 0, .ro, 0, false, false⟩, ⟨8, 8, .w1c, 0, true, false⟩, ⟨31, 16, .ro, 0, false, false⟩]⟩,  -- CEL_IR0
  ⟨0x74, 1, 4096, 1, 4096, [⟨15, 0, .ro, 0, false, false⟩, ⟨22, 16, .ro, 0, false, false⟩]⟩,  -- CEL_IR1
  ⟨0x80, 1, 4096, 1, 4096, [⟨16, 0, .rw, 0x10000, false, false⟩]⟩,  -- CEL_MADDR
  ⟨0x84, 1, 4096, 1, 4096, [⟨3, 0, .rw, 0, false, false⟩, ⟨4, 4, .rw, 0, false, false⟩, ⟨8, 8, .w1s, 0, false, false⟩]⟩,  -- CEL_MCTL
  ⟨0x88, 1, 4096, 1, 4096, [⟨7, 0, .ro, 0, false, false⟩, ⟨15, 8, .ro, 0, false, false⟩, ⟨16, 16, .ro, 0, false, false⟩]⟩,  -- CEL_MSTS
  ⟨0xc0, 16, 4, 1, 4096, [⟨31, 0, .rw, 0, false, false⟩]⟩,  -- CEL_MBUFw, w  0–15
  ⟨0x100, 64, 4, 1, 4096, [⟨5, 0, .ro, 0, false, false⟩, ⟨9, 8, .ro, 0, false, false⟩, ⟨12, 12, .ro, 0, false, false⟩, ⟨13, 13, .ro, 0, false, false⟩]⟩,  -- CEL_UNITu, u  0–63
  ⟨0x200, 64, 16, 1, 4096, [⟨31, 6, .rw, 0, false, false⟩]⟩,  -- CEL_RBASE_LOt
  ⟨0x204, 64, 16, 1, 4096, [⟨7, 0, .rw, 0, false, false⟩]⟩,  -- CEL_RBASE_HIt
  ⟨0x208, 64, 16, 1, 4096, [⟨3, 0, .rw, 0, false, false⟩, ⟨11, 8, .rw, 0, false, false⟩, ⟨31, 31, .rw, 0, false, false⟩]⟩,  -- CEL_RCFGt
  ⟨0x20c, 64, 16, 1, 4096, [⟨0, 0, .ro, 0, false, false⟩]⟩,  -- CEL_RSTSt
  ⟨0x10, 1, 4096, 1, 4096, [⟨0, 0, .w1c, 0, false, false⟩, ⟨1, 1, .w1c, 0, false, false⟩, ⟨2, 2, .w1c, 0, false, false⟩, ⟨3, 3, .w1c, 0, false, false⟩, ⟨4, 4, .w1c, 0, false, false⟩, ⟨5, 5, .w1c, 0, false, false⟩]⟩  -- IRQ_RAW
  ]

/-- Registers of page 0x0e0 after the common header, from the register tables of its chapter. -/
def regs0E0_0 : List RegRow := [
  ⟨0x40, 1, 4096, 1, 4096, [⟨0, 0, .rw, 0, false, false⟩, ⟨1, 1, .rw, 0, false, false⟩]⟩,  -- BGA_CTL
  ⟨0x44, 1, 4096, 1, 4096, [⟨2, 0, .rw, 4, false, false⟩, ⟨4, 4, .rw, 0, false, false⟩, ⟨31, 16, .rw, 0x2710, false, false⟩]⟩,  -- BGA_PACK
  ⟨0x48, 1, 4096, 1, 4096, [⟨15, 0, .rw, 0x1388, false, false⟩]⟩,  -- BGA_RSHR
  ⟨0x4c, 1, 4096, 1, 4096, [⟨15, 0, .rw, 0x8ca0, false, false⟩, ⟨31, 16, .rw, 0x6d60, false, false⟩]⟩,  -- BGA_VTHR
  ⟨0x50, 1, 4096, 1, 4096, [⟨15, 0, .rw, 0x14, false, false⟩, ⟨31, 16, .rw, 0xc8, false, false⟩]⟩,  -- BGA_ITHR
  ⟨0x54, 1, 4096, 1, 4096, [⟨15, 0, .rw, 0x708, false, false⟩, ⟨23, 16, .rw, 1, false, false⟩, ⟨31, 24, .rw, 0x18, false, false⟩]⟩,  -- BGA_TIME
  ⟨0x58, 1, 4096, 1, 4096, [⟨15, 0, .rw, 0x2710, false, false⟩, ⟨31, 16, .rw, 0x64, false, false⟩]⟩,  -- BGA_EST
  ⟨0x5c, 1, 4096, 1, 4096, [⟨15, 0, .rw, 0xc8, false, false⟩, ⟨23, 16, .rw, 2, false, false⟩]⟩,  -- BGA_ZCFG
  ⟨0x60, 1, 4096, 1, 4096, [⟨15, 0, .rw, 0x1f4, false, false⟩]⟩,  -- BGA_ZDEFR
  ⟨0x64, 1, 4096, 1, 4096, [⟨15, 0, .rw, 0x258, false, false⟩, ⟨23, 16, .rw, 0x19, false, false⟩, ⟨31, 24, .rw, 5, false, false⟩]⟩,  -- BGA_SNS
  ⟨0x68, 1, 4096, 1, 4096, [⟨15, 0, .rw, 0x61a8, false, false⟩, ⟨31, 16, .rw, 0xa7f8, false, false⟩]⟩,  -- BGA_VCLIM
  ⟨0x6c, 1, 4096, 1, 4096, [⟨0, 0, .w1s, 0, true, false⟩, ⟨1, 1, .w1s, 0, true, false⟩, ⟨2, 2, .w1s, 0, true, false⟩, ⟨3, 3, .w1s, 0, true, false⟩, ⟨4, 4, .w1s, 0, true, false⟩, ⟨5, 5, .w1s, 0, true, false⟩]⟩,  -- BGA_CMD
  ⟨0x70, 1, 4096, 1, 4096, [⟨31, 0, .rw, 0, false, false⟩]⟩,  -- BGA_MNT_END
  ⟨0x74, 1, 4096, 1, 4096, [⟨1, 0, .ro, 0, false, false⟩, ⟨2, 2, .ro, 0, false, false⟩, ⟨3, 3, .ro, 0, false, false⟩, ⟨4, 4, .ro, 0, false, false⟩, ⟨5, 5, .ro, 0, false, false⟩, ⟨6, 6, .ro, 0, false, false⟩, ⟨7, 7, .ro, 0, false, false⟩, ⟨9, 8, .ro, 0, false, false⟩, ⟨23, 16, .ro, 0, false, false⟩]⟩,  -- BGA_STS
  ⟨0x78, 1, 4096, 1, 4096, [⟨7, 0, .ro, 0, false, false⟩, ⟨15, 8, .ro, 0, false, false⟩, ⟨23, 16, .ro, 0, false, false⟩]⟩,  -- BGA_CODES
  ⟨0x7c, 1, 4096, 1, 4096, [⟨13, 0, .ro, 0, false, true⟩, ⟨29, 16, .ro, 0, false, true⟩]⟩,  -- BGA_SOC
  ⟨0x80, 1, 4096, 1, 4096, [⟨31, 0, .ro, 0, false, false⟩]⟩,  -- BGA_QR
  ⟨0x84, 1, 4096, 1, 4096, [⟨31, 0, .ro, 0, false, false⟩]⟩,  -- BGA_QMAXR
  ⟨0x88, 1, 4096, 1, 4096, [⟨15, 0, .ro, 0, false, true⟩, ⟨31, 16, .ro, 0xffff, false, true⟩]⟩,  -- BGA_I
  ⟨0x8c, 1, 4096, 1, 4096, [⟨15, 0, .ro, 0, false, false⟩]⟩,  -- BGA_VP
  ⟨0x90, 4, 4, 1, 4096, [⟨15, 0, .ro, 0, false, false⟩]⟩,  -- BGA_VCELL1–4
  ⟨0xa0, 1, 4096, 1, 4096, [⟨15, 0, .ro, 0, false, false⟩, ⟨31, 16, .ro, 0, false, false⟩]⟩,  -- BGA_ZR
  ⟨0xa4, 1, 4096, 1, 4096, [⟨31, 0, .ro, 0, false, false⟩]⟩,  -- BGA_RESTT
  ⟨0xa8, 1, 4096, 1, 4096, [⟨1, 0, .ro, 0, false, false⟩, ⟨6, 4, .ro, 0, false, false⟩]⟩  -- BGA_SENSE
  ]

/-- Registers of the same pages, continued. -/
def regs0E0_1 : List RegRow := [
  ⟨0xac, 1, 4096, 1, 4096, [⟨31, 0, .ro, 0, false, false⟩]⟩,  -- BGA_LRN
  ⟨0xb0, 1, 4096, 1, 4096, [⟨15, 0, .rc, 0, false, false⟩, ⟨31, 16, .rc, 0, false, false⟩]⟩,  -- BGA_CNT
  ⟨0xb4, 1, 4096, 1, 4096, [⟨15, 0, .rc, 0, false, false⟩, ⟨31, 16, .rc, 0, false, false⟩]⟩,  -- BGA_CNT2
  ⟨0xc0, 16, 4, 1, 4096, [⟨31, 0, .ro, 0, false, false⟩]⟩,  -- BGA_RECw, w  0–15
  ⟨0x100, 16, 4, 1, 4096, [⟨31, 0, .rw, 0, false, false⟩]⟩,  -- BGA_RINw, w  0–15
  ⟨0x200, 32, 4, 1, 4096, [⟨15, 0, .rw, 0, false, false⟩, ⟨29, 16, .rw, 0, false, false⟩]⟩,  -- BGA_OCVj
  ⟨0x10, 1, 4096, 1, 4096, [⟨0, 0, .w1c, 0, false, false⟩, ⟨1, 1, .w1c, 0, false, false⟩, ⟨2, 2, .w1c, 0, false, false⟩, ⟨3, 3, .w1c, 0, false, false⟩, ⟨4, 4, .w1c, 0, false, false⟩, ⟨5, 5, .w1c, 0, false, false⟩]⟩  -- IRQ_RAW
  ]

/-- All of them. -/
def regs0E0 : List RegRow := regs0E0_0 ++ regs0E0_1

/-- Registers of page 0x0e8 after the common header, from the register tables of its chapter. -/
def regs0E8 : List RegRow := [
  ⟨0x40, 1, 4096, 1, 4096, [⟨2, 0, .ro, 1, false, false⟩, ⟨3, 3, .ro, 0, false, false⟩, ⟨4, 4, .ro, 0, false, false⟩, ⟨5, 5, .ro, 0, false, false⟩, ⟨6, 6, .ro, 1, false, false⟩, ⟨7, 7, .ro, 0, false, false⟩]⟩,  -- PMU_STS
  ⟨0x44, 1, 4096, 1, 4096, [⟨0, 0, .rw, 0, false, false⟩]⟩,  -- PMU_PATH
  ⟨0x48, 1, 4096, 1, 4096, [⟨15, 0, .ro, 0, false, false⟩, ⟨31, 16, .ro, 0, false, false⟩]⟩,  -- PMU_VMEAS
  ⟨0x4c, 1, 4096, 1, 4096, [⟨15, 0, .rw, 0xa8c, false, false⟩, ⟨31, 16, .rw, 0xaf0, false, false⟩]⟩,  -- PMU_CUT
  ⟨0x50, 1, 4096, 1, 4096, [⟨15, 0, .rw, 0x7d0, false, false⟩]⟩,  -- PMU_CUTGR
  ⟨0x54, 1, 4096, 1, 4096, [⟨0, 0, .rw, 0, false, false⟩, ⟨31, 16, .rw, 0x3e8, false, false⟩]⟩,  -- PMU_CHG
  ⟨0x58, 1, 4096, 1, 4096, [⟨15, 0, .rw, 0xe10, false, false⟩, ⟨31, 16, .rw, 0x64, false, false⟩]⟩,  -- PMU_CHGV
  ⟨0x5c, 1, 4096, 1, 4096, [⟨7, 0, .rw, 0xc, false, false⟩, ⟨15, 8, .rw, 0x54, false, false⟩, ⟨23, 16, .rw, 0xbe, false, false⟩]⟩,  -- PMU_CHGT
  ⟨0x60, 1, 4096, 1, 4096, [⟨2, 0, .ro, 0, false, false⟩]⟩,  -- PMU_CHGSTS
  ⟨0x64, 1, 4096, 1, 4096, [⟨0, 0, .w1s, 0, false, false⟩, ⟨1, 1, .w1s, 0, false, false⟩, ⟨2, 2, .w1s, 0, true, false⟩, ⟨3, 3, .w1s, 0, true, false⟩]⟩,  -- PMU_CMD
  ⟨0x68, 1, 4096, 1, 4096, [⟨15, 0, .rw, 0x7d0, false, false⟩]⟩,  -- PMU_KILNCFG
  ⟨0x6c, 1, 4096, 1, 4096, [⟨7, 0, .ro, 0, false, false⟩, ⟨15, 8, .ro, 0, false, false⟩]⟩,  -- PMU_CODES
  ⟨0x70, 1, 4096, 1, 4096, [⟨2, 0, .ro, 0, false, false⟩]⟩,  -- PMU_WAKE
  ⟨0x74, 1, 4096, 1, 4096, [⟨15, 0, .rc, 0, false, false⟩, ⟨31, 16, .rc, 0, false, false⟩]⟩,  -- PMU_CNT
  ⟨0x10, 1, 4096, 1, 4096, [⟨0, 0, .w1c, 0, false, false⟩, ⟨1, 1, .w1c, 0, false, false⟩, ⟨2, 2, .w1c, 0, false, false⟩, ⟨3, 3, .w1c, 0, false, false⟩, ⟨4, 4, .w1c, 0, false, false⟩, ⟨5, 5, .w1c, 0, false, false⟩, ⟨6, 6, .w1c, 0, false, false⟩]⟩  -- IRQ_RAW
  ]

/-- Registers of page 0x0e9 after the common header, from the register tables of its chapter. -/
def regs0E9 : List RegRow := [
  ⟨0x40, 1, 4096, 1, 4096, [⟨6, 0, .ro, 0x3c, false, false⟩, ⟨14, 8, .rw, 0, false, false⟩, ⟨22, 16, .rw, 0x50, false, false⟩, ⟨30, 24, .rw, 0x3c, false, false⟩, ⟨31, 31, .rw, 0, false, false⟩]⟩,  -- PMU_VCORE
  ⟨0x44, 1, 4096, 1, 4096, [⟨6, 0, .ro, 0, false, false⟩, ⟨14, 8, .rw, 0, false, false⟩, ⟨22, 16, .rw, 0x50, false, false⟩, ⟨30, 24, .rw, 0x3c, false, false⟩, ⟨31, 31, .rw, 0, false, false⟩]⟩,  -- PMU_VTUN
  ⟨0x48, 1, 4096, 1, 4096, [⟨6, 0, .rw, 0x14, false, false⟩]⟩,  -- PMU_VCD3
  ⟨0x4c, 1, 4096, 1, 4096, [⟨8, 0, .ro, 0, false, false⟩, ⟨23, 16, .ro, 0, false, false⟩]⟩,  -- PMU_RGSTS
  ⟨0x50, 1, 4096, 1, 4096, [⟨0, 0, .rw, 0, false, false⟩, ⟨1, 1, .rw, 0, false, false⟩, ⟨2, 2, .rw, 0, false, false⟩, ⟨3, 3, .w1s, 0, false, false⟩]⟩,  -- PMU_AUXCFG
  ⟨0x54, 1, 4096, 1, 4096, [⟨2, 0, .ro, 0, false, false⟩, ⟨6, 4, .ro, 0, false, false⟩, ⟨31, 16, .ro, 0, false, false⟩]⟩,  -- PMU_AUXSTS
  ⟨0x58, 1, 4096, 1, 4096, [⟨15, 0, .rc, 0, false, false⟩]⟩  -- PMU_AUXCNT
  ]

/-- Registers of page 0x0f0 after the common header, from the register tables of its chapter. -/
def regs0F0 : List RegRow := [
  ⟨0x40, 1, 4096, 1, 4096, [⟨1, 0, .rw, 0, false, false⟩, ⟨8, 8, .w1s, 0, true, false⟩]⟩,  -- MON_CTL
  ⟨0x44, 1, 4096, 1, 4096, [⟨2, 0, .ro, 2, false, true⟩, ⟨10, 8, .ro, 5, false, true⟩, ⟨12, 12, .ro, 0, false, true⟩, ⟨13, 13, .ro, 0, false, true⟩, ⟨14, 14, .ro, 0, false, true⟩, ⟨20, 16, .ro, 0, false, true⟩, ⟨31, 24, .ro, 0, false, true⟩]⟩,  -- MON_STS
  ⟨0x48, 1, 4096, 1, 4096, [⟨7, 0, .rw, 0x69, false, false⟩, ⟨15, 8, .rw, 0x6e, false, false⟩, ⟨23, 16, .rw, 0x73, false, false⟩, ⟨31, 24, .rw, 0x76, false, false⟩]⟩,  -- MON_THR
  ⟨0x4c, 1, 4096, 1, 4096, [⟨3, 0, .rw, 8, false, false⟩, ⟨15, 8, .rw, 0xa, false, false⟩, ⟨31, 16, .rw, 0x12c, false, false⟩]⟩,  -- MON_TIME
  ⟨0x50, 1, 4096, 1, 4096, [⟨7, 0, .rw, 0x32, false, false⟩, ⟨15, 8, .rw, 0xa, false, false⟩, ⟨23, 16, .rw, 0xf, false, false⟩]⟩,  -- MON_AVS
  ⟨0x54, 1, 4096, 1, 4096, [⟨3, 0, .ro, 1, false, false⟩, ⟨15, 8, .ro, 0, false, false⟩]⟩,  -- MON_THROT
  ⟨0x58, 1, 4096, 1, 4096, [⟨15, 0, .ro, 0, false, true⟩, ⟨31, 16, .ro, 0, false, true⟩]⟩,  -- MON_HOT
  ⟨0x60, 8, 4, 1, 4096, [⟨31, 16, .ro, 0, false, true⟩, ⟨15, 0, .ro, 0, false, true⟩]⟩,  -- MON_TSw
  ⟨0x80, 12, 4, 1, 4096, [⟨31, 16, .ro, 0, false, false⟩, ⟨15, 0, .ro, 0, false, false⟩]⟩,  -- MON_VSw
  ⟨0xb0, 6, 4, 1, 4096, [⟨31, 16, .ro, 0, false, false⟩, ⟨15, 0, .ro, 0, false, false⟩]⟩,  -- MON_PMw
  ⟨0xd0, 4, 4, 1, 4096, [⟨31, 0, .ro, 0, false, false⟩]⟩,  -- MON_OVRc
  ⟨0xe0, 1, 4096, 1, 4096, [⟨15, 0, .rc, 0, false, false⟩, ⟨31, 16, .rc, 0, false, false⟩]⟩,  -- MON_CNT
  ⟨0x10, 1, 4096, 1, 4096, [⟨0, 0, .w1c, 0, false, false⟩, ⟨1, 1, .w1c, 0, false, false⟩, ⟨2, 2, .w1c, 0, false, false⟩, ⟨3, 3, .w1c, 0, false, false⟩, ⟨4, 4, .w1c, 0, false, false⟩, ⟨5, 5, .w1c, 0, false, false⟩]⟩  -- IRQ_RAW
  ]

/-- Registers of page 0x100 after the common header, from the register tables of its chapter. -/
def regs100 : List RegRow := [
  ⟨0x40, 1, 4096, 1, 4096, [⟨0, 0, .rw, 0, false, false⟩, ⟨2, 1, .rw, 2, false, false⟩, ⟨3, 3, .rw, 1, false, false⟩, ⟨4, 4, .rw, 1, false, false⟩, ⟨12, 8, .rw, 0, false, false⟩]⟩,  -- ETH_CTL
  ⟨0x44, 1, 4096, 1, 4096, [⟨31, 0, .rw, 0, false, false⟩]⟩,  -- ETH_MAC_LO
  ⟨0x48, 1, 4096, 1, 4096, [⟨15, 0, .rw, 0, false, false⟩]⟩,  -- ETH_MAC_HI
  ⟨0x4c, 1, 4096, 1, 4096, [⟨31, 0, .rw, 0, false, false⟩]⟩,  -- ETH_IP
  ⟨0x50, 1, 4096, 1, 4096, [⟨15, 0, .rw, 0xb1a0, false, false⟩, ⟨31, 16, .rw, 0x3e8, false, false⟩]⟩,  -- ETH_PORT
  ⟨0x54, 1, 4096, 1, 4096, [⟨3, 0, .rw, 0, false, false⟩, ⟨7, 4, .rw, 0, false, false⟩, ⟨31, 16, .rw, 0x600, false, false⟩]⟩,  -- ETH_RING
  ⟨0x58, 4, 4, 1, 4096, [⟨31, 0, .rw, 0, false, false⟩]⟩,  -- ETH_RB
  ⟨0x68, 1, 4096, 1, 4096, [⟨9, 0, .ro, 0, false, false⟩, ⟨25, 16, .ro, 0, false, false⟩]⟩,  -- ETH_HEAD
  ⟨0x6c, 1, 4096, 1, 4096, [⟨15, 0, .rw, 0, false, false⟩, ⟨20, 16, .rw, 0, false, false⟩, ⟨25, 24, .rw, 2, false, false⟩, ⟨26, 26, .rw, 0, false, false⟩, ⟨31, 31, .w1s, 0, false, false⟩]⟩,  -- ETH_MDIO
  ⟨0x70, 1, 4096, 1, 4096, [⟨0, 0, .ro, 0, false, false⟩, ⟨23, 16, .ro, 0, false, false⟩]⟩,  -- ETH_STS
  ⟨0x74, 1, 4096, 1, 4096, [⟨15, 0, .rc, 0, false, false⟩, ⟨31, 16, .rc, 0, false, false⟩]⟩,  -- ETH_CNT
  ⟨0x78, 1, 4096, 1, 4096, [⟨15, 0, .rc, 0, false, false⟩, ⟨31, 16, .rc, 0, false, false⟩]⟩,  -- ETH_CNT2
  ⟨0x10, 1, 4096, 1, 4096, [⟨0, 0, .w1c, 0, false, false⟩]⟩  -- IRQ_RAW
  ]

/-- Registers of page 0x104 after the common header, from the register tables of its chapter. -/
def regs104 : List RegRow := [
  ⟨0x40, 1, 4096, 1, 4096, [⟨7, 0, .ro, 0, false, false⟩]⟩,  -- HSP_STS
  ⟨0x44, 8, 4, 1, 4096, [⟨5, 0, .ro, 0, false, false⟩, ⟨12, 8, .ro, 0, false, false⟩]⟩,  -- HSP_SESs, s  0–7
  ⟨0x70, 1, 4096, 1, 4096, [⟨15, 0, .rc, 0, false, false⟩, ⟨31, 16, .rc, 0, false, false⟩]⟩,  -- HSP_CNT
  ⟨0x74, 1, 4096, 1, 4096, [⟨15, 0, .rc, 0, false, false⟩]⟩,  -- HSP_CNT2
  ⟨0x10, 1, 4096, 1, 4096, [⟨0, 0, .w1c, 0, false, false⟩]⟩  -- IRQ_RAW
  ]

/-- Registers of page 0x108 after the common header, from the register tables of its chapter. -/
def regs108 : List RegRow := [
  ⟨0x40, 1, 4096, 1, 4096, [⟨6, 0, .rw, 0x5a, false, false⟩, ⟨8, 8, .rw, 1, false, false⟩]⟩,  -- I2T_CTL
  ⟨0x44, 2, 4, 1, 4096, [⟨5, 0, .ro, 0, false, false⟩, ⟨8, 8, .ro, 0, false, false⟩]⟩,  -- I2T_SESs, s  0–1
  ⟨0x50, 1, 4096, 1, 4096, [⟨15, 0, .rc, 0, false, false⟩, ⟨31, 16, .rc, 0, false, false⟩]⟩,  -- I2T_CNT
  ⟨0x10, 1, 4096, 1, 4096, [⟨0, 0, .w1c, 0, false, false⟩]⟩  -- IRQ_RAW
  ]

/-- Registers of pages 0x10c–0x10d after the common header, from the register tables of its chapter. -/
def regs10C_10D : List RegRow := [
  ⟨0x40, 1, 4096, 1, 4096, [⟨11, 0, .rw, 0x138, false, false⟩, ⟨15, 12, .rw, 8, false, false⟩, ⟨18, 16, .rw, 0, false, false⟩, ⟨31, 31, .rw, 0, false, false⟩]⟩,  -- UART_CFG
  ⟨0x44, 1, 4096, 1, 4096, [⟨3, 0, .rw, 1, false, false⟩, ⟨7, 4, .rw, 1, false, false⟩, ⟨15, 8, .rw, 0x23, false, false⟩]⟩,  -- UART_DE
  ⟨0x48, 1, 4096, 1, 4096, [⟨7, 0, .wo, 0, false, false⟩]⟩,  -- UART_TXDATA
  ⟨0x4c, 1, 4096, 1, 4096, [⟨7, 0, .rc, 0, false, false⟩, ⟨8, 8, .rc, 0, false, false⟩, ⟨9, 9, .rc, 0, false, false⟩]⟩,  -- UART_RXDATA
  ⟨0x50, 1, 4096, 1, 4096, [⟨6, 0, .ro, 0, false, false⟩, ⟨14, 8, .ro, 0, false, false⟩, ⟨16, 16, .ro, 0, false, false⟩]⟩,  -- UART_STS
  ⟨0x54, 1, 4096, 1, 4096, [⟨15, 0, .rc, 0, false, false⟩, ⟨31, 16, .rc, 0, false, false⟩]⟩,  -- UART_CNT
  ⟨0x10, 1, 4096, 1, 4096, [⟨0, 0, .w1c, 0, false, false⟩, ⟨1, 1, .w1c, 0, false, false⟩, ⟨2, 2, .w1c, 0, false, false⟩]⟩  -- IRQ_RAW
  ]

/-- Registers of page 0x110 after the common header, from the register tables of its chapter. -/
def regs110 : List RegRow := [
  ⟨0x40, 1, 4096, 1, 4096, [⟨31, 0, .rw, 0, false, false⟩]⟩,  -- GPIO_DIR0, 1
  ⟨0x44, 1, 4096, 1, 4096, [⟨15, 0, .rw, 0, false, false⟩]⟩,  -- GPIO_DIR0, 1
  ⟨0x48, 1, 4096, 1, 4096, [⟨31, 0, .rw, 0, false, false⟩]⟩,  -- GPIO_OUT0, 1
  ⟨0x4c, 1, 4096, 1, 4096, [⟨15, 0, .rw, 0, false, false⟩]⟩,  -- GPIO_OUT0, 1
  ⟨0x50, 1, 4096, 1, 4096, [⟨31, 0, .ro, 0, false, false⟩]⟩,  -- GPIO_IN0, 1
  ⟨0x54, 1, 4096, 1, 4096, [⟨15, 0, .ro, 0, false, false⟩]⟩,  -- GPIO_IN0, 1
  ⟨0x58, 1, 4096, 1, 4096, [⟨31, 0, .w1c, 0, true, false⟩]⟩,  -- GPIO_EVT0, 1
  ⟨0x5c, 1, 4096, 1, 4096, [⟨15, 0, .w1c, 0, true, false⟩]⟩,  -- GPIO_EVT0, 1
  ⟨0x60, 6, 4, 1, 4096, [⟨31, 0, .rw, 0, false, false⟩]⟩,  -- GPIO_MODE
  ⟨0x100, 12, 4, 1, 4096, [⟨27, 24, .rw, 0, false, false⟩, ⟨19, 16, .rw, 0, false, false⟩, ⟨11, 8, .rw, 0, false, false⟩, ⟨3, 0, .rw, 0, false, false⟩, ⟨30, 30, .rw, 0, false, false⟩, ⟨22, 22, .rw, 0, false, false⟩, ⟨14, 14, .rw, 0, false, false⟩, ⟨6, 6, .rw, 0, false, false⟩, ⟨31, 31, .rw, 0, false, false⟩, ⟨23, 23, .rw, 0, false, false⟩, ⟨15, 15, .rw, 0, false, false⟩, ⟨7, 7, .rw, 0, false, false⟩]⟩,  -- GPIO_CSEL
  ⟨0x10, 1, 4096, 1, 4096, [⟨0, 0, .w1c, 0, false, false⟩]⟩  -- IRQ_RAW
  ]

/-- Registers of page 0x114 after the common header, from the register tables of its chapter. -/
def regs114 : List RegRow := [
  ⟨0x40, 1, 4096, 1, 4096, [⟨7, 0, .rw, 0xff, false, false⟩, ⟨15, 8, .rw, 0x14, false, false⟩]⟩,  -- TIN_CFG
  ⟨0x44, 1, 4096, 1, 4096, [⟨7, 0, .ro, 0, false, false⟩]⟩,  -- TIN_LVL
  ⟨0x50, 8, 4, 1, 4096, [⟨15, 0, .rc, 0, false, false⟩]⟩,  -- TIN_CNTk
  ⟨0x10, 1, 4096, 1, 4096, [⟨0, 0, .w1c, 0, false, false⟩]⟩  -- IRQ_RAW
  ]

/-- Registers of page 0x118 after the common header, from the register tables of its chapter. -/
def regs118 : List RegRow := [
  ⟨0x40, 1, 4096, 1, 4096, [⟨1, 0, .ro, 0, false, false⟩, ⟨8, 8, .ro, 0, false, false⟩, ⟨23, 16, .ro, 0, false, false⟩]⟩,  -- DBG_STS
  ⟨0x44, 1, 4096, 1, 4096, [⟨0, 0, .w1s, 0, true, false⟩, ⟨9, 8, .wo, 0, false, false⟩]⟩,  -- DBG_CMD
  ⟨0x48, 1, 4096, 1, 4096, [⟨31, 0, .ro, 0x16400567, false, false⟩]⟩,  -- DBG_IDCODE
  ⟨0x10, 1, 4096, 1, 4096, [⟨0, 0, .w1c, 0, false, false⟩]⟩  -- IRQ_RAW
  ]

/-- Registers of pages 0x140–0x17f after the common header, from the register tables of its chapter. -/
def regs140_17F : List RegRow := [
  ⟨0x100, 4, 256, 16, 4, [⟨5, 0, .rw, 0, false, false⟩, ⟨8, 8, .rw, 0, false, false⟩, ⟨15, 15, .rw, 0, false, false⟩]⟩,  -- ACC_VTj, j  0–15
  ⟨0x140, 4, 256, 5, 8, [⟨31, 0, .ro, 0, false, false⟩]⟩,  -- ACC_VQq_LO, q  0–4
  ⟨0x144, 4, 256, 5, 8, [⟨31, 0, .ro, 0, false, false⟩]⟩,  -- ACC_VQq_HI
  ⟨0x168, 4, 256, 4, 8, [⟨31, 0, .ro, 0, false, false⟩]⟩,  -- ACC_VTRFk_LO, k  0–3
  ⟨0x16c, 4, 256, 4, 8, [⟨31, 0, .ro, 0, false, false⟩]⟩,  -- ACC_VTRFk_HI
  ⟨0x188, 4, 256, 1, 4096, [⟨31, 0, .ro, 0, false, false⟩]⟩,  -- ACC_VSUM_LO
  ⟨0x18c, 4, 256, 1, 4096, [⟨31, 0, .ro, 0, false, false⟩]⟩,  -- ACC_VSUM_HI
  ⟨0x190, 4, 256, 1, 4096, [⟨31, 0, .ro, 0, false, false⟩]⟩,  -- ACC_VCYC
  ⟨0x194, 4, 256, 1, 4096, [⟨7, 0, .ro, 0, false, false⟩, ⟨8, 8, .ro, 0, false, false⟩, ⟨9, 9, .ro, 0, false, false⟩, ⟨13, 12, .ro, 0, false, false⟩]⟩,  -- ACC_VST
  ⟨0x198, 4, 256, 1, 4096, [⟨2, 0, .rw, 0, false, false⟩, ⟨5, 4, .rw, 0, false, false⟩, ⟨8, 8, .w1s, 0, false, false⟩]⟩,  -- ACC_VCTL
  ⟨0x40, 1, 4096, 1, 4096, [⟨7, 0, .ro, 0, false, false⟩]⟩,  -- ACC_VMSTS
  ⟨0x10, 1, 4096, 1, 4096, [⟨0, 0, .w1c, 0, false, false⟩, ⟨1, 1, .w1c, 0, false, false⟩, ⟨2, 2, .w1c, 0, false, false⟩]⟩  -- IRQ_RAW
  ]

/-- Registers of pages 0x300–0x33f after the common header, from the register tables of its chapter. -/
def regs300_33F : List RegRow := [
  ⟨0x40, 1, 4096, 1, 4096, [⟨1, 0, .ro, 0, false, false⟩, ⟨8, 8, .ro, 0, false, false⟩, ⟨21, 16, .ro, 0, false, false⟩]⟩,  -- TNC_CX_STATE
  ⟨0x44, 1, 4096, 1, 4096, [⟨0, 0, .w1s, 0, false, false⟩]⟩,  -- TNC_CX_CMD
  ⟨0x48, 1, 4096, 1, 4096, [⟨15, 0, .ro, 0, false, false⟩, ⟨31, 16, .ro, 0, false, false⟩]⟩,  -- TNC_CX_INF
  ⟨0x4c, 1, 4096, 1, 4096, [⟨23, 0, .ro, 0, false, false⟩]⟩,  -- TNC_CX_AIR
  ⟨0x50, 1, 4096, 1, 4096, [⟨7, 0, .ro, 0, false, false⟩, ⟨31, 16, .ro, 0, false, false⟩]⟩,  -- TNC_CX_RES
  ⟨0x60, 4, 8, 1, 4096, [⟨15, 0, .rc, 0, false, false⟩, ⟨31, 16, .rc, 0, false, false⟩]⟩,  -- TNC_CNTA_r
  ⟨0x64, 4, 8, 1, 4096, [⟨15, 0, .rc, 0, false, false⟩, ⟨31, 16, .rc, 0, false, false⟩]⟩,  -- TNC_CNTB_r
  ⟨0xc0, 1, 4096, 1, 4096, [⟨4, 0, .ro, 0, false, false⟩]⟩,  -- TNC_RING_WR
  ⟨0xc4, 1, 4096, 1, 4096, [⟨4, 0, .rw, 0, true, false⟩]⟩,  -- TNC_RING_RD
  ⟨0xc8, 1, 4096, 1, 4096, [⟨15, 0, .rc, 0, false, false⟩]⟩,  -- TNC_RING_OVF
  ⟨0x200, 32, 16, 4, 4, [⟨31, 0, .ro, 0, false, false⟩]⟩  -- TNC_RINGk
  ]

/-- Entries 0 to 31 of the weight table at reset (R249). -/
def ltrW0 : List Nat := [16384, 16640, 16896, 17151, 17407, 17661, 17916, 18169, 18421, 18673, 18923, 19173, 19420, 19667, 19912, 20155, 20397, 20636, 20874, 21110, 21344, 21575, 21804, 22031, 22255, 22477, 22696, 22913, 23127, 23338, 23547, 23753]

/-- Entries 32 to 63 of the weight table at reset (R249). -/
def ltrW1 : List Nat := [23955, 24155, 24352, 24546, 24737, 24925, 25110, 25292, 25471, 25646, 25819, 25988, 26155, 26318, 26479, 26636, 26790, 26941, 27090, 27235, 27377, 27516, 27653, 27786, 27917, 28045, 28169, 28292, 28411, 28528, 28642, 28753]

/-- Entries 64 to 95 of the weight table at reset (R249). -/
def ltrW2 : List Nat := [28862, 28968, 29072, 29173, 29272, 29368, 29462, 29554, 29644, 29731, 29816, 29899, 29979, 30058, 30135, 30210, 30282, 30353, 30422, 30489, 30555, 30618, 30680, 30740, 30799, 30856, 30912, 30966, 31018, 31069, 31119, 31167]

/-- Entries 96 to 127 of the weight table at reset (R249). -/
def ltrW3 : List Nat := [31214, 31260, 31304, 31347, 31389, 31430, 31469, 31508, 31545, 31581, 31616, 31651, 31684, 31716, 31747, 31778, 31807, 31836, 31864, 31891, 31917, 31943, 31968, 31992, 32015, 32038, 32060, 32081, 32102, 32122, 32141, 32160]

/-- Entries 128 to 159 of the weight table at reset (R249). -/
def ltrW4 : List Nat := [32179, 32196, 32214, 32231, 32247, 32263, 32278, 32293, 32307, 32321, 32335, 32348, 32361, 32373, 32385, 32397, 32408, 32419, 32430, 32440, 32450, 32460, 32469, 32478, 32487, 32496, 32504, 32512, 32520, 32527, 32535, 32542]

/-- Entries 160 to 191 of the weight table at reset (R249). -/
def ltrW5 : List Nat := [32549, 32555, 32562, 32568, 32574, 32580, 32586, 32592, 32597, 32602, 32607, 32612, 32617, 32622, 32626, 32630, 32635, 32639, 32643, 32647, 32650, 32654, 32657, 32661, 32664, 32667, 32670, 32673, 32676, 32679, 32682, 32684]

/-- Entries 192 to 223 of the weight table at reset (R249). -/
def ltrW6 : List Nat := [32687, 32689, 32692, 32694, 32696, 32699, 32701, 32703, 32705, 32707, 32709, 32711, 32712, 32714, 32716, 32717, 32719, 32720, 32722, 32723, 32725, 32726, 32727, 32728, 32730, 32731, 32732, 32733, 32734, 32735, 32736, 32737]

/-- Entries 224 to 255 of the weight table at reset (R249). -/
def ltrW7 : List Nat := [32738, 32739, 32740, 32741, 32742, 32742, 32743, 32744, 32745, 32745, 32746, 32747, 32747, 32748, 32749, 32749, 32750, 32750, 32751, 32752, 32752, 32753, 32753, 32753, 32754, 32754, 32755, 32755, 32756, 32756, 32756, 32757]

/-- Entry `i` of the weight table at reset (R249). -/
def ltrW (i : Nat) : Nat :=
  (ltrW0 ++ ltrW1 ++ ltrW2 ++ ltrW3 ++ ltrW4 ++ ltrW5 ++ ltrW6 ++ ltrW7).getD i 0

/-- The register rows of every row of pages. -/
def blocks : List (Nat × Nat × List RegRow) := [
  (0x000, 0x000, regs000),
  (0x001, 0x001, regs001),
  (0x002, 0x002, regs002),
  (0x003, 0x003, regs003),
  (0x004, 0x004, regs004),
  (0x005, 0x005, regs005),
  (0x010, 0x010, regs010),
  (0x011, 0x011, regs011),
  (0x020, 0x027, regs020_027),
  (0x020, 0x028, regs020_028),
  (0x028, 0x028, regs028),
  (0x029, 0x029, regs029),
  (0x030, 0x030, regs030),
  (0x031, 0x038, regs031_038),
  (0x039, 0x039, regs039),
  (0x040, 0x047, regs040_047),
  (0x048, 0x048, regs048),
  (0x060, 0x06f, regs060_06F),
  (0x070, 0x070, regs070),
  (0x080, 0x080, regs080),
  (0x081, 0x088, regs081_088),
  (0x090, 0x090, regs090),
  (0x098, 0x098, regs098),
  (0x0a0, 0x0a0, regs0A0),
  (0x0a1, 0x0a1, regs0A1),
  (0x0a2, 0x0a2, regs0A2),
  (0x0a3, 0x0a3, regs0A3),
  (0x0a8, 0x0a8, regs0A8),
  (0x0b0, 0x0b0, regs0B0),
  (0x0b1, 0x0b1, regs0B1),
  (0x0b4, 0x0b4, regs0B4),
  (0x0b8, 0x0b8, regs0B8),
  (0x0b9, 0x0b9, regs0B9),
  (0x0ba, 0x0bb, regs0BA_0BB),
  (0x0c0, 0x0c0, regs0C0),
  (0x0c8, 0x0c8, regs0C8),
  (0x0cc, 0x0cc, regs0CC),
  (0x0d0, 0x0d0, regs0D0),
  (0x0d8, 0x0d8, regs0D8),
  (0x0e0, 0x0e0, regs0E0),
  (0x0e8, 0x0e8, regs0E8),
  (0x0e9, 0x0e9, regs0E9),
  (0x0f0, 0x0f0, regs0F0),
  (0x100, 0x100, regs100),
  (0x104, 0x104, regs104),
  (0x108, 0x108, regs108),
  (0x10c, 0x10d, regs10C_10D),
  (0x110, 0x110, regs110),
  (0x114, 0x114, regs114),
  (0x118, 0x118, regs118),
  (0x140, 0x17f, regs140_17F),
  (0x300, 0x33f, regs300_33F)
  ]

/-- The row of the page index that lists page `p`. -/
def indexRow (p : Nat) : Option PageRow := pageIndex.find? fun r => r.first ≤ p && p ≤ r.last

/-- Page `p` is implemented (R95). -/
def assigned (p : Nat) : Bool := (indexRow p).isSome

/-- The owner of page `p` at reset (Table 3-10). -/
def homeOwner (p : Nat) : Nat :=
  match indexRow p with
  | some ⟨f, _, .each, _⟩ => p - f
  | some ⟨_, _, .one t, _⟩ => t
  | none => 0

/-- Page `p` is marked grantable (Table 3-10). -/
def grantable (p : Nat) : Bool :=
  match indexRow p with
  | some r => r.grant == .grantable
  | none => false

/-- `off` is an offset of the row's registers. -/
def RegRow.holds (r : RegRow) (off : Nat) : Bool :=
  r.off ≤ off &&
    (let d := off - r.off
     let i := d / r.s1
     let e := d % r.s1
     i < r.n1 && e % r.s2 == 0 && e / r.s2 < r.n2)

/-- The register rows of page `p` after the header. -/
def rowsOf (p : Nat) : List RegRow :=
  (blocks.filter fun b => b.1 ≤ p && p ≤ b.2.1).flatMap fun b => b.2.2

/-- The fields of the word at offset `off` of page `p`; none where the word is reserved. -/
def fieldsAt (p off : Nat) : List FieldRow :=
  if off < 0x40 then (header.filter fun r => RegRow.holds r off).flatMap (·.fields)
  else ((rowsOf p).filter fun r => RegRow.holds r off).flatMap (·.fields)

/-- 32 bits of the page map: bit b of word k is 1 when page 32k + b is implemented (Table 3-11). -/
def pmap (k : Nat) : Nat :=
  (List.range 32).foldl (fun a b => a + if assigned (32 * k + b) then 2 ^ b else 0) 0

/-- The reset words that are not one number for a whole row of registers: ID and OWNER (Table
3-2), SYS_PMAP (Table 3-11), the context pages (Table 4-12), the unit table (Table 18-8) and the
weight table (R249). -/
def specialReset (p off : Nat) : Option Nat :=
  if off = 0x00 then
    match indexRow p with
    | some r => some (r.first + p * 65536 + (p - r.first) * 2 ^ 26)
    | none => none
  else if off = 0x24 then some (homeOwner p)
  else if p = 0x000 ∧ 0x80 ≤ off then some (pmap ((off - 0x80) / 4))
  else if 0x300 ≤ p ∧ off = 0x40 then
    some ((p - 0x300) * 65536 + if p ≤ 0x301 then 1 else 0)
  else if p = 0x0D8 ∧ 0x100 ≤ off ∧ off < 0x140 then some 0x1000
  else if p = 0x090 ∧ 0x400 ≤ off ∧ off < 0x600 then
    let i := (off - 0x400) / 4
    some (ltrW (2 * i) + ltrW (2 * i + 1) * 65536)
  else none

/-- The value of the word at offset `off` of page `p` after a reset that clears it: every field at
the value of its Reset column; X and OTP fields at zero (log entries 5 and 6). -/
def resetWord (p off : Nat) : Word :=
  match specialReset p off with
  | some v => BitVec.ofNat 32 v
  | none => BitVec.ofNat 32 ((fieldsAt p off).foldl (fun a f => a + f.reset * 2 ^ f.lo) 0)

/-- The bits of a word that belong to fields with the access code `a`. -/
def maskOf (a : AccessCode) (fs : List FieldRow) : Nat :=
  (fs.filter fun f => f.acc == a).foldl (fun m f => m + (2 ^ (f.hi + 1) - 2 ^ f.lo)) 0

end RegMap

/-! ## The name of every field

One definition per field of the register tables, with the page, the offset, the lowest bit and the
width. A page number `p` counts from the first page of the row; `c` counts blocks of a page, `i`
and `j` registers of an array. -/

namespace Reg

def IRQ_RAW (p : Nat) : Fld := ⟨p, 0x10, 0, 32⟩
def IRQ_EN (p : Nat) : Fld := ⟨p, 0x14, 0, 32⟩
def LOCK_HELD (p : Nat) : Fld := ⟨p, 0x20, 16, 1⟩
def LOCK_SEAL (p : Nat) : Fld := ⟨p, 0x20, 17, 1⟩
def OWN_TC (p : Nat) : Fld := ⟨p, 0x24, 0, 6⟩
def OWN_GEN (p : Nat) : Fld := ⟨p, 0x24, 8, 8⟩
def ERR_CODE (p : Nat) : Fld := ⟨p, 0x28, 0, 8⟩
def ERR_WORD (p : Nat) : Fld := ⟨p, 0x28, 8, 10⟩
def ERR_TC (p : Nat) : Fld := ⟨p, 0x28, 18, 6⟩
def ERR_WR (p : Nat) : Fld := ⟨p, 0x28, 24, 1⟩
def ERR_CNT (p : Nat) : Fld := ⟨p, 0x28, 25, 4⟩
def ERR_VALID (p : Nat) : Fld := ⟨p, 0x28, 31, 1⟩
def INTEG_CRC (p : Nat) : Fld := ⟨p, 0x2c, 0, 32⟩
def STS_SEALED (p : Nat) : Fld := ⟨p, 0x0c, 28, 1⟩
def STS_INTEGERR (p : Nat) : Fld := ⟨p, 0x0c, 31, 1⟩

/-! Page 0x010. -/
def CTF_STAMP_LO : Fld := ⟨0x10, 0x40, 0, 32⟩
def CTF_STAMP_HI : Fld := ⟨0x10, 0x44, 0, 32⟩
def CTF_ST : Fld := ⟨0x10, 0x48, 0, 3⟩
def CTF_REF : Fld := ⟨0x10, 0x48, 4, 3⟩
def CTF_ORIGIN : Fld := ⟨0x10, 0x48, 8, 3⟩
def CTF_PRI : Fld := ⟨0x10, 0x4c, 0, 24⟩
def CTF_HYST : Fld := ⟨0x10, 0x50, 0, 12⟩
def CTF_TMO : Fld := ⟨0x10, 0x50, 16, 9⟩
def CTF_BW : Fld := ⟨0x10, 0x54, 0, 2⟩
def CTF_NOMF : Fld := ⟨0x10, 0x54, 2, 1⟩
def CTF_REVERT_EN : Fld := ⟨0x10, 0x54, 3, 1⟩
def CTF_REVERT_CYC : Fld := ⟨0x10, 0x54, 8, 8⟩
def CTF_PERIOD : Fld := ⟨0x10, 0x58, 0, 24⟩
def CTF_PHERR : Fld := ⟨0x10, 0x5c, 0, 16⟩
def CTF_SWITCH : Fld := ⟨0x10, 0x60, 0, 8⟩
def CTF_HOLDN : Fld := ⟨0x10, 0x60, 8, 8⟩
def CTF_GLITCH : Fld := ⟨0x10, 0x60, 16, 8⟩
def CTF_ACQFAIL : Fld := ⟨0x10, 0x60, 24, 8⟩
def CTF_QOK : Fld := ⟨0x10, 0x64, 0, 6⟩
def CTF_OFSOK : Fld := ⟨0x10, 0x64, 8, 6⟩
def CTF_HOLD_CYC : Fld := ⟨0x10, 0x68, 0, 32⟩
def CTF_OFSP (i : Nat) : Fld := ⟨0x10, 0x70 + 4 * i, 0, 16⟩
def CTF_OFSN (i : Nat) : Fld := ⟨0x10, 0x70 + 4 * i, 16, 16⟩
def CTF_SEED_LO : Fld := ⟨0x10, 0xa0, 0, 32⟩
def CTF_SEED_HI : Fld := ⟨0x10, 0xa4, 0, 32⟩
def CTF_UTC : Fld := ⟨0x10, 0xa8, 0, 32⟩
def CTF_UTC_FRAC : Fld := ⟨0x10, 0xac, 0, 15⟩
def CTF_UTC_EST : Fld := ⟨0x10, 0xac, 31, 1⟩
def CTF_UTC_SET : Fld := ⟨0x10, 0xb0, 0, 32⟩
def CTF_TRIM : Fld := ⟨0x10, 0xb4, 0, 8⟩
def CTF_PSL : Fld := ⟨0x10, 0xb8, 0, 32⟩
def CTF_PSH : Fld := ⟨0x10, 0xbc, 0, 32⟩
def CTF_PUTC : Fld := ⟨0x10, 0xc0, 0, 32⟩
def CTF_PFRAC : Fld := ⟨0x10, 0xc4, 0, 15⟩
def CTF_CCODE : Fld := ⟨0x10, 0xc8, 0, 8⟩
def CTF_REACQ : Fld := ⟨0x10, 0xcc, 0, 1⟩
def CTF_FORCE_NEXT : Fld := ⟨0x10, 0xcc, 1, 1⟩
def CTF_QAUTO : Fld := ⟨0x10, 0xd0, 0, 1⟩
def CTF_QGUARD : Fld := ⟨0x10, 0xd0, 16, 12⟩
def CTF_I_LOCKED : Fld := ⟨0x10, 0x10, 0, 1⟩
def CTF_I_LOSS : Fld := ⟨0x10, 0x10, 1, 1⟩
def CTF_I_SWITCH : Fld := ⟨0x10, 0x10, 2, 1⟩
def CTF_I_HOLD_IN : Fld := ⟨0x10, 0x10, 3, 1⟩
def CTF_I_HOLD_OUT : Fld := ⟨0x10, 0x10, 4, 1⟩
def CTF_I_COMMIT : Fld := ⟨0x10, 0x10, 5, 1⟩
def CTF_I_UTCSET : Fld := ⟨0x10, 0x10, 6, 1⟩
def CTF_I_XT32 : Fld := ⟨0x10, 0x10, 7, 1⟩

/-! Page 0x011. -/
def CTF_COMMIT : Fld := ⟨0x11, 0x40, 0, 1⟩
def CTF_VIEW : Fld := ⟨0x11, 0x40, 1, 1⟩
def CTF_ABANK : Fld := ⟨0x11, 0x40, 8, 1⟩
def CTF_SCODE : Fld := ⟨0x11, 0x44, 0, 8⟩
def CTF_FIRST : Fld := ⟨0x11, 0x44, 8, 8⟩
def CTF_ZCNT : Fld := ⟨0x11, 0x44, 16, 8⟩
def CTF_NOANCH : Fld := ⟨0x11, 0x44, 24, 8⟩
def CTF_AT_LO : Fld := ⟨0x11, 0x48, 0, 32⟩
def CTF_AT_HI : Fld := ⟨0x11, 0x4c, 0, 16⟩
def CTF_SLOT_LO (i : Nat) : Fld := ⟨0x11, 0x100 + 8 * i, 0, 32⟩
def CTF_SLOT_HI (i : Nat) : Fld := ⟨0x11, 0x104 + 8 * i, 0, 32⟩

/-! Page 0x000. -/
def SYS_PART : Fld := ⟨0x0, 0x40, 0, 32⟩
def SYS_SIREV : Fld := ⟨0x0, 0x44, 0, 8⟩
def SYS_UID (i : Nat) : Fld := ⟨0x0, 0x48 + 4 * i, 0, 32⟩
def SYS_TC : Fld := ⟨0x0, 0x58, 0, 6⟩
def SYS_HPERR : Fld := ⟨0x0, 0x5c, 0, 16⟩
def SYS_NOSLOT : Fld := ⟨0x0, 0x5c, 16, 16⟩
def SYS_PMAP (i : Nat) : Fld := ⟨0x0, 0x80 + 4 * i, 0, 32⟩

/-! Page 0x001. -/
def IAG_PSUM (i : Nat) : Fld := ⟨0x1, 0x40 + 4 * i, 0, 32⟩
def IAG_TSUM_LO : Fld := ⟨0x1, 0xc0, 0, 32⟩
def IAG_TSUM_HI : Fld := ⟨0x1, 0xc4, 0, 32⟩

/-! Page 0x002. -/
/-- State of tenant `t` (Table 4-1). -/
def TNC_TST (t : Nat) : Fld := ⟨0x2, 0x40 + 4 * (t / 16), 2 * (t % 16), 2⟩
def TNC_T_TC : Fld := ⟨0x2, 0x50, 0, 6⟩
def TNC_T_OP : Fld := ⟨0x2, 0x50, 8, 3⟩
def TNC_T_CODE : Fld := ⟨0x2, 0x54, 0, 8⟩
def TNC_T_BUSY : Fld := ⟨0x2, 0x54, 8, 1⟩
def TNC_G_IDX : Fld := ⟨0x2, 0x58, 0, 10⟩
def TNC_G_TC : Fld := ⟨0x2, 0x5c, 0, 6⟩
def TNC_G_CLASS : Fld := ⟨0x2, 0x5c, 8, 4⟩
def TNC_G_OP : Fld := ⟨0x2, 0x5c, 12, 1⟩
def TNC_G_CODE : Fld := ⟨0x2, 0x60, 0, 8⟩
def TNC_G_BUSY : Fld := ⟨0x2, 0x60, 8, 1⟩
def TNC_GQ_IDX : Fld := ⟨0x2, 0x64, 0, 10⟩
def TNC_GQ_CLASS : Fld := ⟨0x2, 0x64, 16, 4⟩
def TNC_GQ_TC : Fld := ⟨0x2, 0x68, 0, 6⟩
def TNC_GQ_BUSY : Fld := ⟨0x2, 0x68, 8, 1⟩
def TNC_SEAL_REQ : Fld := ⟨0x2, 0x70, 0, 1⟩
def TNC_UNSEAL_ARM : Fld := ⟨0x2, 0x70, 1, 1⟩
def TNC_UNSEAL_REQ : Fld := ⟨0x2, 0x70, 2, 1⟩
def TNC_S_CODE : Fld := ⟨0x2, 0x74, 0, 8⟩
def TNC_SEALED : Fld := ⟨0x2, 0x74, 8, 1⟩
def TNC_S_BUSY : Fld := ⟨0x2, 0x74, 9, 1⟩
def TNC_SC_LO : Fld := ⟨0x2, 0x78, 0, 32⟩
def TNC_SC_HI : Fld := ⟨0x2, 0x7c, 0, 16⟩
def TNC_UNBILLED : Fld := ⟨0x2, 0x80, 0, 32⟩

/-! Page 0x003. -/
def TNC_QINF (i : Nat) : Fld := ⟨0x3, 0x100 + 32 * i, 0, 16⟩
def TNC_CLASS (i : Nat) : Fld := ⟨0x3, 0x100 + 32 * i, 24, 2⟩
def TNC_QAIR (i : Nat) : Fld := ⟨0x3, 0x104 + 32 * i, 0, 24⟩
def TNC_QSEC (i : Nat) : Fld := ⟨0x3, 0x108 + 32 * i, 0, 8⟩
def TNC_QCEL (i : Nat) : Fld := ⟨0x3, 0x108 + 32 * i, 16, 16⟩
def TNC_CHV_LO (i : Nat) : Fld := ⟨0x3, 0x110 + 32 * i, 0, 32⟩
def TNC_CHV_HI (i : Nat) : Fld := ⟨0x3, 0x114 + 32 * i, 0, 32⟩

/-! Page 0x004. -/
def TNC_AM_TC : Fld := ⟨0x4, 0x40, 0, 6⟩
def TNC_AM_SLOT : Fld := ⟨0x4, 0x40, 8, 8⟩
def TNC_AM_PAGE : Fld := ⟨0x4, 0x44, 0, 10⟩
def TNC_AM_VALID : Fld := ⟨0x4, 0x44, 31, 1⟩
def TNC_AM_CODE : Fld := ⟨0x4, 0x48, 0, 8⟩

/-! Page 0x005. -/
/-- Tenant served first on resource `r` (0 INF, 1 AIR, 2 SEC, 3 CEL) at class `c`. -/
def TNC_RR (r c : Nat) : Fld := ⟨0x5, 0x40 + 4 * r, 8 * c, 6⟩
def TNC_PRE_BILL : Fld := ⟨0x5, 0x50, 0, 16⟩
def TNC_PRE_EVID : Fld := ⟨0x5, 0x50, 16, 16⟩
def TNC_PRE_SAFE : Fld := ⟨0x5, 0x54, 0, 16⟩

/-! Pages 0x300–0x33f. -/
def TNC_CX_ST (p : Nat) : Fld := ⟨(0x300 + p), 0x40, 0, 2⟩
def TNC_CX_SEALED (p : Nat) : Fld := ⟨(0x300 + p), 0x40, 8, 1⟩
def TNC_CX_TC (p : Nat) : Fld := ⟨(0x300 + p), 0x40, 16, 6⟩
def TNC_CX_SOFTRST (p : Nat) : Fld := ⟨(0x300 + p), 0x44, 0, 1⟩
def TNC_CX_QINF (p : Nat) : Fld := ⟨(0x300 + p), 0x48, 0, 16⟩
def TNC_CX_UINF (p : Nat) : Fld := ⟨(0x300 + p), 0x48, 16, 16⟩
def TNC_CX_RAIR (p : Nat) : Fld := ⟨(0x300 + p), 0x4c, 0, 24⟩
def TNC_CX_RSEC (p : Nat) : Fld := ⟨(0x300 + p), 0x50, 0, 8⟩
def TNC_CX_RCEL (p : Nat) : Fld := ⟨(0x300 + p), 0x50, 16, 16⟩
def TNC_DLY (p i : Nat) : Fld := ⟨(0x300 + p), 0x60 + 8 * i, 0, 16⟩
def TNC_RFQ (p i : Nat) : Fld := ⟨(0x300 + p), 0x60 + 8 * i, 16, 16⟩
def TNC_RFP (p i : Nat) : Fld := ⟨(0x300 + p), 0x64 + 8 * i, 0, 16⟩
def TNC_SKP (p i : Nat) : Fld := ⟨(0x300 + p), 0x64 + 8 * i, 16, 16⟩
def TNC_RING_WR (p : Nat) : Fld := ⟨(0x300 + p), 0xc0, 0, 5⟩
def TNC_RING_RD (p : Nat) : Fld := ⟨(0x300 + p), 0xc4, 0, 5⟩
def TNC_RING_OVF (p : Nat) : Fld := ⟨(0x300 + p), 0xc8, 0, 16⟩
def TNC_RING (p i : Nat) : Fld := ⟨(0x300 + p), 0x200 + 16 * i, 0, 128⟩

/-! Pages 0x020–0x027. -/
def ACS_PAIR (p : Nat) : Fld := ⟨(0x20 + p), 0x40, 0, 4⟩

/-! Page 0x028. -/
def ACS_VPAIR0 : Fld := ⟨0x28, 0x40, 0, 4⟩
def ACS_VPAIR1 : Fld := ⟨0x28, 0x40, 4, 4⟩

/-! Pages 0x020–0x028. -/
def ACS_PGA (p c : Nat) : Fld := ⟨(0x20 + p), 0x100 + 32 * c, 0, 3⟩
def ACS_MUX (p c : Nat) : Fld := ⟨(0x20 + p), 0x100 + 32 * c, 4, 3⟩
def ACS_INT_EN (p c : Nat) : Fld := ⟨(0x20 + p), 0x100 + 32 * c, 8, 1⟩
def ACS_ILEAK (p c : Nat) : Fld := ⟨(0x20 + p), 0x100 + 32 * c, 9, 3⟩
def ACS_EN (p c : Nat) : Fld := ⟨(0x20 + p), 0x100 + 32 * c, 16, 1⟩
def ACS_OFS (p c : Nat) : Fld := ⟨(0x20 + p), 0x104 + 32 * c, 0, 24⟩
def ACS_GAIN (p c : Nat) : Fld := ⟨(0x20 + p), 0x108 + 32 * c, 0, 24⟩
def ACS_CALOK (p c : Nat) : Fld := ⟨(0x20 + p), 0x10c + 32 * c, 0, 1⟩
def ACS_PAIRED (p c : Nat) : Fld := ⟨(0x20 + p), 0x10c + 32 * c, 1, 1⟩
def ACS_OOS (p c : Nat) : Fld := ⟨(0x20 + p), 0x10c + 32 * c, 2, 1⟩
def ACS_CLIP (p c : Nat) : Fld := ⟨(0x20 + p), 0x10c + 32 * c, 3, 1⟩
def ACS_CALGAIN (p c : Nat) : Fld := ⟨(0x20 + p), 0x10c + 32 * c, 8, 3⟩
def ACS_OVRN (p c : Nat) : Fld := ⟨(0x20 + p), 0x110 + 32 * c, 0, 16⟩
def ACS_SKIPN (p c : Nat) : Fld := ⟨(0x20 + p), 0x110 + 32 * c, 16, 16⟩
def ACS_CONT_R (p c : Nat) : Fld := ⟨(0x20 + p), 0x114 + 32 * c, 0, 16⟩
def ACS_CONT_CODE (p c : Nat) : Fld := ⟨(0x20 + p), 0x114 + 32 * c, 16, 8⟩
def ACS_I_OVR (p : Nat) : Fld := ⟨(0x20 + p), 0x10, 0, 1⟩
def ACS_I_SKIP (p : Nat) : Fld := ⟨(0x20 + p), 0x10, 1, 1⟩
def ACS_I_CONT (p : Nat) : Fld := ⟨(0x20 + p), 0x10, 2, 1⟩

/-! Page 0x029. -/
def ACS_CAL_CONV : Fld := ⟨0x29, 0x40, 0, 7⟩
def ACS_CAL_NCYC : Fld := ⟨0x29, 0x40, 8, 8⟩
def ACS_CAL_TGT : Fld := ⟨0x29, 0x44, 0, 24⟩
def ACS_CAL_ZERO : Fld := ⟨0x29, 0x48, 0, 1⟩
def ACS_CAL_FULL : Fld := ⟨0x29, 0x48, 1, 1⟩
def ACS_CAL_ABORT : Fld := ⟨0x29, 0x48, 2, 1⟩
def ACS_CAL_CODE : Fld := ⟨0x29, 0x4c, 0, 8⟩
def ACS_CAL_BUSY : Fld := ⟨0x29, 0x4c, 8, 1⟩
def ACS_CAL_MEAN : Fld := ⟨0x29, 0x50, 0, 24⟩
def ACS_CAL_MEAN2 : Fld := ⟨0x29, 0x54, 0, 24⟩
def ACS_CAL_RMS : Fld := ⟨0x29, 0x58, 0, 24⟩
def ACS_CAL_RMS2 : Fld := ⟨0x29, 0x5c, 0, 24⟩
def ACS_DX0_SRC : Fld := ⟨0x29, 0x80, 0, 4⟩
def ACS_DX1_SRC : Fld := ⟨0x29, 0x84, 0, 4⟩
def ACS_DX0_MEAN : Fld := ⟨0x29, 0x88, 0, 24⟩
def ACS_DX0_CODE : Fld := ⟨0x29, 0x88, 24, 8⟩
def ACS_DX1_MEAN : Fld := ⟨0x29, 0x8c, 0, 24⟩
def ACS_DX1_CODE : Fld := ⟨0x29, 0x8c, 24, 8⟩
def ACS_T25 : Fld := ⟨0x29, 0x90, 0, 16⟩
def ACS_CONT_PER : Fld := ⟨0x29, 0xa0, 0, 8⟩
def ACS_CONT_IMAX : Fld := ⟨0x29, 0xa0, 8, 16⟩
def ACS_CONT_EN : Fld := ⟨0x29, 0xa0, 31, 1⟩
def ACS_CONT_MLO : Fld := ⟨0x29, 0xa4, 0, 32⟩
def ACS_CONT_MHI : Fld := ⟨0x29, 0xa8, 0, 32⟩
def ACS_I_CALDONE : Fld := ⟨0x29, 0x10, 0, 1⟩
def ACS_I_DX : Fld := ⟨0x29, 0x10, 1, 1⟩

/-! Page 0x030. -/
def MTE_BUS1_MODE : Fld := ⟨0x30, 0x40, 0, 3⟩
def MTE_BUS2_MODE : Fld := ⟨0x30, 0x40, 4, 3⟩
def MTE_VPRES : Fld := ⟨0x30, 0x44, 0, 24⟩
def MTE_EXP_EN : Fld := ⟨0x30, 0x48, 0, 1⟩
def MTE_UNMEAS : Fld := ⟨0x30, 0x4c, 0, 32⟩
def MTE_EXP_SKIPN : Fld := ⟨0x30, 0x50, 0, 32⟩
def MTE_LAST_LO : Fld := ⟨0x30, 0x54, 0, 32⟩
def MTE_LAST_HI : Fld := ⟨0x30, 0x58, 0, 16⟩
def MTE_CCODE : Fld := ⟨0x30, 0x5c, 0, 8⟩
def MTE_I_CLOSE : Fld := ⟨0x30, 0x10, 0, 1⟩
def MTE_I_SUB : Fld := ⟨0x30, 0x10, 1, 1⟩
def MTE_I_UNMEAS : Fld := ⟨0x30, 0x10, 2, 1⟩
def MTE_I_PHCL : Fld := ⟨0x30, 0x10, 3, 1⟩

/-! Pages 0x031–0x038. -/
def MTE_VPOS (p c : Nat) : Fld := ⟨(0x31 + p), 0x100 + 128 * c, 0, 4⟩
def MTE_VNEG (p c : Nat) : Fld := ⟨(0x31 + p), 0x100 + 128 * c, 4, 4⟩
def MTE_INV (p c : Nat) : Fld := ⟨(0x31 + p), 0x100 + 128 * c, 8, 1⟩
def MTE_EN (p c : Nat) : Fld := ⟨(0x31 + p), 0x100 + 128 * c, 9, 1⟩
def MTE_IFS (p c : Nat) : Fld := ⟨(0x31 + p), 0x104 + 128 * c, 0, 32⟩
def MTE_GI (p c : Nat) : Fld := ⟨(0x31 + p), 0x108 + 128 * c, 0, 24⟩
def MTE_OI (p c : Nat) : Fld := ⟨(0x31 + p), 0x10c + 128 * c, 0, 24⟩
def MTE_GP (p c : Nat) : Fld := ⟨(0x31 + p), 0x110 + 128 * c, 0, 24⟩
def MTE_OP (p c : Nat) : Fld := ⟨(0x31 + p), 0x114 + 128 * c, 0, 24⟩
def MTE_GQ (p c : Nat) : Fld := ⟨(0x31 + p), 0x118 + 128 * c, 0, 24⟩
def MTE_OQ (p c : Nat) : Fld := ⟨(0x31 + p), 0x11c + 128 * c, 0, 24⟩
def MTE_PHA (p c : Nat) : Fld := ⟨(0x31 + p), 0x120 + 128 * c, 0, 18⟩
def MTE_PHT (p c : Nat) : Fld := ⟨(0x31 + p), 0x124 + 128 * c, 0, 16⟩
def MTE_ISTART (p c : Nat) : Fld := ⟨(0x31 + p), 0x128 + 128 * c, 0, 24⟩
def MTE_NLP (p c : Nat) : Fld := ⟨(0x31 + p), 0x12c + 128 * c, 0, 24⟩
def MTE_NLQ (p c : Nat) : Fld := ⟨(0x31 + p), 0x130 + 128 * c, 0, 24⟩
def MTE_RD_CYC (p c : Nat) : Fld := ⟨(0x31 + p), 0x140 + 128 * c, 0, 32⟩
def MTE_RD_RMS (p c : Nat) : Fld := ⟨(0x31 + p), 0x144 + 128 * c, 0, 32⟩
def MTE_RD_P (p c : Nat) : Fld := ⟨(0x31 + p), 0x148 + 128 * c, 0, 32⟩
def MTE_RD_Q (p c : Nat) : Fld := ⟨(0x31 + p), 0x14c + 128 * c, 0, 32⟩
def MTE_RD_S (p c : Nat) : Fld := ⟨(0x31 + p), 0x150 + 128 * c, 0, 32⟩
def MTE_RD_ANGLE (p c : Nat) : Fld := ⟨(0x31 + p), 0x154 + 128 * c, 0, 16⟩
def MTE_RD_QUAD (p c : Nat) : Fld := ⟨(0x31 + p), 0x154 + 128 * c, 16, 3⟩
def MTE_RD_FLAGS (p c : Nat) : Fld := ⟨(0x31 + p), 0x158 + 128 * c, 0, 16⟩
def MTE_RD_REP (p c : Nat) : Fld := ⟨(0x31 + p), 0x158 + 128 * c, 16, 8⟩
def MTE_RD_STS (p c : Nat) : Fld := ⟨(0x31 + p), 0x158 + 128 * c, 24, 8⟩
def MTE_REPN (p c : Nat) : Fld := ⟨(0x31 + p), 0x160 + 128 * c, 0, 16⟩
def MTE_SUBN (p c : Nat) : Fld := ⟨(0x31 + p), 0x160 + 128 * c, 16, 16⟩
def MTE_NLPN (p c : Nat) : Fld := ⟨(0x31 + p), 0x164 + 128 * c, 0, 16⟩
def MTE_NLQN (p c : Nat) : Fld := ⟨(0x31 + p), 0x164 + 128 * c, 16, 16⟩

/-! Page 0x039. -/
def MTE_VFS (c : Nat) : Fld := ⟨0x39, 0x100 + 64 * c, 0, 32⟩
def MTE_GV (c : Nat) : Fld := ⟨0x39, 0x104 + 64 * c, 0, 24⟩
def MTE_OV (c : Nat) : Fld := ⟨0x39, 0x108 + 64 * c, 0, 24⟩
def MTE_RD_VCYC (c : Nat) : Fld := ⟨0x39, 0x120 + 64 * c, 0, 32⟩
def MTE_RD_V (c : Nat) : Fld := ⟨0x39, 0x124 + 64 * c, 0, 32⟩
def MTE_RD_VANGLE (c : Nat) : Fld := ⟨0x39, 0x128 + 64 * c, 0, 16⟩
def MTE_RD_VFLAGS (c : Nat) : Fld := ⟨0x39, 0x12c + 64 * c, 0, 16⟩
def MTE_RD_VREP (c : Nat) : Fld := ⟨0x39, 0x12c + 64 * c, 16, 8⟩
def MTE_RD_VSTS (c : Nat) : Fld := ⟨0x39, 0x12c + 64 * c, 24, 8⟩
def MTE_VREPN (c : Nat) : Fld := ⟨0x39, 0x130 + 64 * c, 0, 16⟩

/-! Pages 0x040–0x047. -/
def ACC_Q_LO (p c i : Nat) : Fld := ⟨(0x40 + p), 0x100 + 128 * c + 8 * i, 0, 32⟩
def ACC_Q_HI (p c i : Nat) : Fld := ⟨(0x40 + p), 0x104 + 128 * c + 8 * i, 0, 32⟩
def ACC_SUM_LO (p c : Nat) : Fld := ⟨(0x40 + p), 0x140 + 128 * c, 0, 32⟩
def ACC_SUM_HI (p c : Nat) : Fld := ⟨(0x40 + p), 0x144 + 128 * c, 0, 32⟩
def ACC_CYC (p c : Nat) : Fld := ⟨(0x40 + p), 0x148 + 128 * c, 0, 32⟩
def ACC_CCODE (p c : Nat) : Fld := ⟨(0x40 + p), 0x14c + 128 * c, 0, 8⟩
def ACC_F_BAD (p c : Nat) : Fld := ⟨(0x40 + p), 0x14c + 128 * c, 8, 1⟩
def ACC_F_UF (p c : Nat) : Fld := ⟨(0x40 + p), 0x14c + 128 * c, 9, 1⟩
def ACC_UFA_LO (p c : Nat) : Fld := ⟨(0x40 + p), 0x150 + 128 * c, 0, 32⟩
def ACC_UFA_HI (p c : Nat) : Fld := ⟨(0x40 + p), 0x154 + 128 * c, 0, 32⟩
def ACC_UFC (p c : Nat) : Fld := ⟨(0x40 + p), 0x158 + 128 * c, 0, 32⟩
def ACC_RES_A (p c i : Nat) : Fld := ⟨(0x40 + p), 0x160 + 128 * c + 4 * i, 0, 16⟩
def ACC_RES_B (p c i : Nat) : Fld := ⟨(0x40 + p), 0x160 + 128 * c + 4 * i, 16, 16⟩
def ACC_CORRN (p c : Nat) : Fld := ⟨(0x40 + p), 0x170 + 128 * c, 0, 16⟩
def ACC_REBN (p c : Nat) : Fld := ⟨(0x40 + p), 0x170 + 128 * c, 16, 16⟩

/-! Page 0x048. -/
def ACC_UF_EN : Fld := ⟨0x48, 0x40, 0, 1⟩
def ACC_BAD_LO : Fld := ⟨0x48, 0x44, 0, 32⟩
def ACC_BAD_HI : Fld := ⟨0x48, 0x48, 0, 32⟩
def ACC_PLSOVR : Fld := ⟨0x48, 0x4c, 0, 16⟩
def ACC_LAST : Fld := ⟨0x48, 0x50, 0, 32⟩
def ACC_I_CORR : Fld := ⟨0x48, 0x10, 0, 1⟩
def ACC_I_REB : Fld := ⟨0x48, 0x10, 1, 1⟩
def ACC_I_BAD : Fld := ⟨0x48, 0x10, 2, 1⟩
def ACC_I_UF : Fld := ⟨0x48, 0x10, 3, 1⟩

/-! Pages 0x140–0x17f. -/
def ACC_VT_CH (p c i : Nat) : Fld := ⟨(0x140 + p), 0x100 + 256 * c + 4 * i, 0, 6⟩
def ACC_VT_NEG (p c i : Nat) : Fld := ⟨(0x140 + p), 0x100 + 256 * c + 4 * i, 8, 1⟩
def ACC_VT_EN (p c i : Nat) : Fld := ⟨(0x140 + p), 0x100 + 256 * c + 4 * i, 15, 1⟩
def ACC_VQ_LO (p c i : Nat) : Fld := ⟨(0x140 + p), 0x140 + 256 * c + 8 * i, 0, 32⟩
def ACC_VQ_HI (p c i : Nat) : Fld := ⟨(0x140 + p), 0x144 + 256 * c + 8 * i, 0, 32⟩
def ACC_VTRF_LO (p c i : Nat) : Fld := ⟨(0x140 + p), 0x168 + 256 * c + 8 * i, 0, 32⟩
def ACC_VTRF_HI (p c i : Nat) : Fld := ⟨(0x140 + p), 0x16c + 256 * c + 8 * i, 0, 32⟩
def ACC_VSUM_LO (p c : Nat) : Fld := ⟨(0x140 + p), 0x188 + 256 * c, 0, 32⟩
def ACC_VSUM_HI (p c : Nat) : Fld := ⟨(0x140 + p), 0x18c + 256 * c, 0, 32⟩
def ACC_VCYC (p c : Nat) : Fld := ⟨(0x140 + p), 0x190 + 256 * c, 0, 32⟩
def ACC_VCODE (p c : Nat) : Fld := ⟨(0x140 + p), 0x194 + 256 * c, 0, 8⟩
def ACC_VF_VIEW (p c : Nat) : Fld := ⟨(0x140 + p), 0x194 + 256 * c, 8, 1⟩
def ACC_VF_BAD (p c : Nat) : Fld := ⟨(0x140 + p), 0x194 + 256 * c, 9, 1⟩
def ACC_VTRF_CUR (p c : Nat) : Fld := ⟨(0x140 + p), 0x194 + 256 * c, 12, 2⟩
def ACC_VTRF_SRC (p c : Nat) : Fld := ⟨(0x140 + p), 0x198 + 256 * c, 0, 3⟩
def ACC_VTRF_REG (p c : Nat) : Fld := ⟨(0x140 + p), 0x198 + 256 * c, 4, 2⟩
def ACC_VCLR (p c : Nat) : Fld := ⟨(0x140 + p), 0x198 + 256 * c, 8, 1⟩
def ACC_V_CCODE (p : Nat) : Fld := ⟨(0x140 + p), 0x40, 0, 8⟩
def ACC_I_VVIEW (p : Nat) : Fld := ⟨(0x140 + p), 0x10, 0, 1⟩
def ACC_I_VCLR (p : Nat) : Fld := ⟨(0x140 + p), 0x10, 1, 1⟩
def ACC_I_VBAD (p : Nat) : Fld := ⟨(0x140 + p), 0x10, 2, 1⟩

/-! Pages 0x060–0x06f. -/
def PLS_SKIND (p : Nat) : Fld := ⟨(0x60 + p), 0x40, 0, 2⟩
def PLS_SIDX (p : Nat) : Fld := ⟨(0x60 + p), 0x40, 8, 8⟩
def PLS_SQ (p : Nat) : Fld := ⟨(0x60 + p), 0x40, 16, 4⟩
def PLS_CONST (p : Nat) : Fld := ⟨(0x60 + p), 0x44, 0, 32⟩
def PLS_WIDTH (p : Nat) : Fld := ⟨(0x60 + p), 0x48, 0, 8⟩
def PLS_POL (p : Nat) : Fld := ⟨(0x60 + p), 0x48, 8, 1⟩
def PLS_OD (p : Nat) : Fld := ⟨(0x60 + p), 0x48, 9, 1⟩
def PLS_PEND (p : Nat) : Fld := ⟨(0x60 + p), 0x4c, 0, 16⟩
def PLS_OVR (p : Nat) : Fld := ⟨(0x60 + p), 0x4c, 16, 1⟩
def PLS_ACT (p : Nat) : Fld := ⟨(0x60 + p), 0x4c, 17, 1⟩
def PLS_WEFF (p : Nat) : Fld := ⟨(0x60 + p), 0x50, 0, 18⟩
def PLS_SPILL_LO (p : Nat) : Fld := ⟨(0x60 + p), 0x54, 0, 32⟩
def PLS_SPILL_HI (p : Nat) : Fld := ⟨(0x60 + p), 0x58, 0, 32⟩
def PLS_PCOUNT (p : Nat) : Fld := ⟨(0x60 + p), 0x5c, 0, 32⟩
def PLS_RBERRN (p : Nat) : Fld := ⟨(0x60 + p), 0x60, 0, 16⟩
def PLS_OVRN (p : Nat) : Fld := ⟨(0x60 + p), 0x60, 16, 16⟩
def PLS_CUTN (p : Nat) : Fld := ⟨(0x60 + p), 0x64, 0, 16⟩
def PLS_CCODE (p : Nat) : Fld := ⟨(0x60 + p), 0x68, 0, 8⟩
def PLS_I_PULSE (p : Nat) : Fld := ⟨(0x60 + p), 0x10, 0, 1⟩
def PLS_I_OVR (p : Nat) : Fld := ⟨(0x60 + p), 0x10, 1, 1⟩
def PLS_I_RB (p : Nat) : Fld := ⟨(0x60 + p), 0x10, 2, 1⟩

/-! Page 0x070. -/
def PQE_EN : Fld := ⟨0x70, 0x40, 0, 1⟩
def PQE_HMAX : Fld := ⟨0x70, 0x40, 8, 7⟩
def PQE_AGG : Fld := ⟨0x70, 0x40, 16, 8⟩
def PQE_UDIN1 : Fld := ⟨0x70, 0x44, 0, 24⟩
def PQE_UDIN2 : Fld := ⟨0x70, 0x48, 0, 24⟩
def PQE_SAG_TH : Fld := ⟨0x70, 0x4c, 0, 8⟩
def PQE_SWL_TH : Fld := ⟨0x70, 0x4c, 8, 8⟩
def PQE_INT_TH : Fld := ⟨0x70, 0x4c, 16, 8⟩
def PQE_HYS : Fld := ⟨0x70, 0x4c, 24, 8⟩
def PQE_FDEV : Fld := ⟨0x70, 0x50, 0, 16⟩
def PQE_FCYC : Fld := ⟨0x70, 0x50, 16, 8⟩
def PQE_UNB_TH : Fld := ⟨0x70, 0x54, 0, 16⟩
def PQE_CLS_CYC : Fld := ⟨0x70, 0x58, 0, 8⟩
def PQE_ANG_TOL : Fld := ⟨0x70, 0x58, 8, 8⟩
def PQE_VN_TH : Fld := ⟨0x70, 0x58, 16, 8⟩
def PQE_LOSS_TH : Fld := ⟨0x70, 0x58, 24, 8⟩
def PQE_LIVE_I : Fld := ⟨0x70, 0x5c, 0, 24⟩
def PQE_LOGM : Fld := ⟨0x70, 0x60, 1, 8⟩
def PQE_HCH : Fld := ⟨0x70, 0x64, 0, 7⟩
def PQE_H_STS : Fld := ⟨0x70, 0x68, 0, 8⟩
def PQE_H_USED : Fld := ⟨0x70, 0x68, 8, 8⟩
def PQE_H_H : Fld := ⟨0x70, 0x68, 16, 7⟩
def PQE_H_ASYNC : Fld := ⟨0x70, 0x68, 24, 1⟩
def PQE_H_NOANG : Fld := ⟨0x70, 0x68, 25, 1⟩
def PQE_HCYC : Fld := ⟨0x70, 0x6c, 0, 32⟩
def PQE_H1 : Fld := ⟨0x70, 0x70, 0, 24⟩
def PQE_THD : Fld := ⟨0x70, 0x74, 0, 16⟩
def PQE_F1 : Fld := ⟨0x70, 0x80, 0, 20⟩
def PQE_F2 : Fld := ⟨0x70, 0x84, 0, 20⟩
def PQE_SEQ1 : Fld := ⟨0x70, 0x88, 0, 2⟩
def PQE_SEQ2 : Fld := ⟨0x70, 0x88, 8, 2⟩
def PQE_U2_1 : Fld := ⟨0x70, 0x8c, 0, 16⟩
def PQE_U2_2 : Fld := ⟨0x70, 0x8c, 16, 16⟩
def PQE_CTV (i : Nat) : Fld := ⟨0x70, 0x90 + 4 * i, 0, 32⟩
def PQE_VSV : Fld := ⟨0x70, 0xa0, 0, 24⟩
def PQE_RING_WR : Fld := ⟨0x70, 0xb0, 0, 6⟩
def PQE_RING_RD : Fld := ⟨0x70, 0xb4, 0, 6⟩
def PQE_RING_OVF : Fld := ⟨0x70, 0xb8, 0, 16⟩
def PQE_CCODE : Fld := ⟨0x70, 0xbc, 0, 8⟩
def PQE_HR_MAG (i : Nat) : Fld := ⟨0x70, 0x400 + 4 * i, 0, 16⟩
def PQE_HR_ANG (i : Nat) : Fld := ⟨0x70, 0x400 + 4 * i, 16, 16⟩
def PQE_CT_RLIM (i : Nat) : Fld := ⟨0x70, 0x600 + 4 * i, 0, 16⟩
def PQE_RING (i : Nat) : Fld := ⟨0x70, 0x800 + 32 * i, 0, 256⟩
def PQE_I_BLOCK : Fld := ⟨0x70, 0x10, 0, 1⟩
def PQE_I_EVENT : Fld := ⟨0x70, 0x10, 1, 1⟩
def PQE_I_SENSE : Fld := ⟨0x70, 0x10, 2, 1⟩
def PQE_I_OVF : Fld := ⟨0x70, 0x10, 3, 1⟩

/-! Page 0x080. -/
def TUN_CLEN : Fld := ⟨0x80, 0x40, 0, 8⟩
def TUN_FREQ : Fld := ⟨0x80, 0x40, 8, 2⟩
def TUN_RESV : Fld := ⟨0x80, 0x44, 0, 8⟩
def TUN_THDIV : Fld := ⟨0x80, 0x44, 8, 4⟩
def TUN_GATED : Fld := ⟨0x80, 0x44, 12, 1⟩
def TUN_LVL : Fld := ⟨0x80, 0x44, 13, 2⟩
def TUN_SPN : Fld := ⟨0x80, 0x48, 0, 11⟩
def TUN_TILEN : Fld := ⟨0x80, 0x4c, 0, 32⟩
def TUN_ERRN : Fld := ⟨0x80, 0x50, 0, 16⟩
def TUN_SKIPN : Fld := ⟨0x80, 0x50, 16, 16⟩
def TUN_GATECT : Fld := ⟨0x80, 0x54, 0, 16⟩
def TUN_BST_CLM : Fld := ⟨0x80, 0x60, 0, 8⟩
def TUN_BST_LVL : Fld := ⟨0x80, 0x60, 8, 5⟩
def TUN_BST_REP : Fld := ⟨0x80, 0x60, 16, 8⟩
def TUN_BST_LEN : Fld := ⟨0x80, 0x64, 0, 16⟩
def TUN_BST_GAP : Fld := ⟨0x80, 0x64, 16, 16⟩
def TUN_BST_AT_LO : Fld := ⟨0x80, 0x68, 0, 32⟩
def TUN_BST_AT_HI : Fld := ⟨0x80, 0x6c, 0, 32⟩
def TUN_BST_LEAD : Fld := ⟨0x80, 0x70, 0, 12⟩
def TUN_BST_ARM : Fld := ⟨0x80, 0x74, 0, 1⟩
def TUN_BST_CODE : Fld := ⟨0x80, 0x78, 0, 8⟩
def TUN_BST_BUSY : Fld := ⟨0x80, 0x78, 8, 1⟩
def TUN_BST_CCODE : Fld := ⟨0x80, 0x78, 16, 8⟩
def TUN_BST_RUN : Fld := ⟨0x80, 0x7c, 0, 32⟩
def TUN_BF_LO : Fld := ⟨0x80, 0x80, 0, 32⟩
def TUN_BF_HI : Fld := ⟨0x80, 0x84, 0, 32⟩
def TUN_BL_LO : Fld := ⟨0x80, 0x88, 0, 32⟩
def TUN_BL_HI : Fld := ⟨0x80, 0x8c, 0, 32⟩
def TUN_SYNC_VAL (i : Nat) : Fld := ⟨0x80, 0x100 + 4 * i, 0, 16⟩
def TUN_SYNC_POIS (i : Nat) : Fld := ⟨0x80, 0x100 + 4 * i, 31, 1⟩
def TUN_WIN_BASE (i j : Nat) : Fld := ⟨0x80, 0x800 + 32 * i + 8 * j, 0, 28⟩
def TUN_WIN_SIZE (i j : Nat) : Fld := ⟨0x80, 0x804 + 32 * i + 8 * j, 0, 28⟩
def TUN_WIN_R (i j : Nat) : Fld := ⟨0x80, 0x804 + 32 * i + 8 * j, 28, 1⟩
def TUN_WIN_W (i j : Nat) : Fld := ⟨0x80, 0x804 + 32 * i + 8 * j, 29, 1⟩
def TUN_WIN_EN (i j : Nat) : Fld := ⟨0x80, 0x804 + 32 * i + 8 * j, 31, 1⟩
def TUN_I_BURST : Fld := ⟨0x80, 0x10, 0, 1⟩
def TUN_I_ERR : Fld := ⟨0x80, 0x10, 1, 1⟩
def TUN_I_EMPTY : Fld := ⟨0x80, 0x10, 2, 1⟩

/-! Pages 0x081–0x088. -/
def TUN_CK_BUSY (p : Nat) : Fld := ⟨(0x81 + p), 0x40, 0, 4⟩
def TUN_CK_STAGED (p : Nat) : Fld := ⟨(0x81 + p), 0x40, 4, 4⟩
def TUN_CK_GATED (p : Nat) : Fld := ⟨(0x81 + p), 0x40, 8, 1⟩
def TUN_CK_RESV (p : Nat) : Fld := ⟨(0x81 + p), 0x40, 9, 1⟩
def TUN_CK_TILEN (p : Nat) : Fld := ⟨(0x81 + p), 0x44, 0, 32⟩
def TUN_CK_BUSYCT (p : Nat) : Fld := ⟨(0x81 + p), 0x48, 0, 32⟩
def TUN_CK_GATECT (p : Nat) : Fld := ⟨(0x81 + p), 0x4c, 0, 32⟩
def TUN_CK_CORRN (p : Nat) : Fld := ⟨(0x81 + p), 0x50, 0, 16⟩
def TUN_CK_UNCN (p : Nat) : Fld := ⟨(0x81 + p), 0x50, 16, 16⟩
def TUN_CK_EA_LO (p : Nat) : Fld := ⟨(0x81 + p), 0x54, 0, 32⟩
def TUN_CK_EA_HI (p : Nat) : Fld := ⟨(0x81 + p), 0x58, 0, 8⟩
def TUN_CK_RESCLR (p : Nat) : Fld := ⟨(0x81 + p), 0x5c, 0, 1⟩
def TUN_CK_I_UNC (p : Nat) : Fld := ⟨(0x81 + p), 0x10, 0, 1⟩
def TUN_CK_I_RES (p : Nat) : Fld := ⟨(0x81 + p), 0x10, 1, 1⟩

/-! Page 0x090. -/
def LTR_EN : Fld := ⟨0x90, 0x40, 0, 1⟩
def LTR_BUSY : Fld := ⟨0x90, 0x44, 0, 1⟩
def LTR_OPC : Fld := ⟨0x90, 0x44, 1, 1⟩
def LTR_TC : Fld := ⟨0x90, 0x44, 8, 6⟩
def LTR_ITEM : Fld := ⟨0x90, 0x44, 16, 16⟩
def LTR_OPN : Fld := ⟨0x90, 0x48, 0, 32⟩
def LTR_ERRN : Fld := ⟨0x90, 0x4c, 0, 16⟩
def LTR_SKPN : Fld := ⟨0x90, 0x4c, 16, 16⟩
def LTR_GNS : Fld := ⟨0x90, 0x50, 0, 32⟩
def LTR_GMAX : Fld := ⟨0x90, 0x54, 0, 32⟩
def LTR_WCOMMIT : Fld := ⟨0x90, 0x58, 0, 1⟩
def LTR_WVIEW : Fld := ⟨0x90, 0x58, 1, 1⟩
def LTR_WBANK : Fld := ⟨0x90, 0x58, 8, 1⟩
def LTR_CCODE : Fld := ⟨0x90, 0x5c, 0, 8⟩
def LTR_OVF (i : Nat) : Fld := ⟨0x90, 0x100 + 4 * i, 0, 32⟩
def LTR_TSKIP (i : Nat) : Fld := ⟨0x90, 0x200 + 4 * i, 0, 32⟩
def LTR_W_EVEN (i : Nat) : Fld := ⟨0x90, 0x400 + 4 * i, 0, 16⟩
def LTR_W_ODD (i : Nat) : Fld := ⟨0x90, 0x400 + 4 * i, 16, 16⟩
def LTR_I_ROUTE : Fld := ⟨0x90, 0x10, 0, 1⟩
def LTR_I_COMBINE : Fld := ⟨0x90, 0x10, 1, 1⟩
def LTR_I_ERR : Fld := ⟨0x90, 0x10, 2, 1⟩
def LTR_I_OVF : Fld := ⟨0x90, 0x10, 3, 1⟩
def LTR_I_WCOMMIT : Fld := ⟨0x90, 0x10, 4, 1⟩

/-! Page 0x098. -/
def BARM_EN : Fld := ⟨0x98, 0x40, 0, 1⟩
def BARM_WLEN : Fld := ⟨0x98, 0x44, 0, 8⟩
def BARM_WOFS : Fld := ⟨0x98, 0x44, 8, 8⟩
def BARM_POLL : Fld := ⟨0x98, 0x48, 0, 16⟩
def BARM_KICK_LO : Fld := ⟨0x98, 0x4c, 0, 32⟩
def BARM_KICK_HI : Fld := ⟨0x98, 0x50, 0, 32⟩
def BARM_NPOOL : Fld := ⟨0x98, 0x54, 0, 9⟩
def BARM_NRUN : Fld := ⟨0x98, 0x54, 16, 9⟩
def BARM_WCAP : Fld := ⟨0x98, 0x58, 0, 20⟩
def BARM_WFREE : Fld := ⟨0x98, 0x5c, 0, 20⟩
def BARM_WC_LO : Fld := ⟨0x98, 0x60, 0, 32⟩
def BARM_WC_HI : Fld := ⟨0x98, 0x64, 0, 16⟩
def BARM_LISTN : Fld := ⟨0x98, 0x68, 0, 16⟩
def BARM_BADN : Fld := ⟨0x98, 0x68, 16, 16⟩
def BARM_SPSTALL : Fld := ⟨0x98, 0x6c, 0, 32⟩
def BARM_CCODE : Fld := ⟨0x98, 0x70, 0, 8⟩
def BARM_RB_LO (c : Nat) : Fld := ⟨0x98, 0x100 + 32 * c, 6, 26⟩
def BARM_RB_HI (c : Nat) : Fld := ⟨0x98, 0x104 + 32 * c, 0, 8⟩
def BARM_RSL (c : Nat) : Fld := ⟨0x98, 0x108 + 32 * c, 0, 4⟩
def BARM_RCL (c : Nat) : Fld := ⟨0x98, 0x108 + 32 * c, 8, 4⟩
def BARM_REN (c : Nat) : Fld := ⟨0x98, 0x108 + 32 * c, 31, 1⟩
def BARM_RFAULT (c : Nat) : Fld := ⟨0x98, 0x10c + 32 * c, 0, 1⟩
def BARM_RHOLD (c : Nat) : Fld := ⟨0x98, 0x10c + 32 * c, 1, 1⟩
def BARM_RADM (c : Nat) : Fld := ⟨0x98, 0x110 + 32 * c, 0, 16⟩
def BARM_RREF (c : Nat) : Fld := ⟨0x98, 0x110 + 32 * c, 16, 16⟩
def BARM_I_DONE : Fld := ⟨0x98, 0x10, 0, 1⟩
def BARM_I_REFUSE : Fld := ⟨0x98, 0x10, 1, 1⟩
def BARM_I_RFAULT : Fld := ⟨0x98, 0x10, 2, 1⟩
def BARM_I_STALL : Fld := ⟨0x98, 0x10, 3, 1⟩

/-! Page 0x0a0. -/
def CCX_RUN : Fld := ⟨0xa0, 0x40, 0, 4⟩
def CCX_HRST : Fld := ⟨0xa0, 0x40, 8, 4⟩
def CCX_HUP : Fld := ⟨0xa0, 0x44, 0, 4⟩
def CCX_HWDT : Fld := ⟨0xa0, 0x44, 8, 4⟩
def CCX_WDT_MS : Fld := ⟨0xa0, 0x48, 0, 16⟩
def CCX_WDT_EN : Fld := ⟨0xa0, 0x48, 31, 1⟩
def CCX_KICK : Fld := ⟨0xa0, 0x4c, 0, 4⟩
def CCX_C_TC (i : Nat) : Fld := ⟨0xa0, 0x50 + 4 * i, 0, 6⟩
def CCX_C_TCV (i : Nat) : Fld := ⟨0xa0, 0x50 + 4 * i, 8, 1⟩
def CCX_TCREFN : Fld := ⟨0xa0, 0x60, 0, 16⟩
def CCX_MEMFLTN : Fld := ⟨0xa0, 0x60, 16, 16⟩
def CCX_FLT_LO : Fld := ⟨0xa0, 0x64, 0, 32⟩
def CCX_FLT_HI : Fld := ⟨0xa0, 0x68, 0, 8⟩
def CCX_I_WDT : Fld := ⟨0xa0, 0x10, 0, 1⟩
def CCX_I_MEMFLT : Fld := ⟨0xa0, 0x10, 1, 1⟩

/-! Page 0x0a1. -/
def CCX_M_CORRN : Fld := ⟨0xa1, 0x40, 0, 16⟩
def CCX_M_UNCN : Fld := ⟨0xa1, 0x40, 16, 16⟩
def CCX_M_EA_LO : Fld := ⟨0xa1, 0x44, 0, 32⟩
def CCX_M_EA_HI : Fld := ⟨0xa1, 0x48, 0, 8⟩
def CCX_M_I_UNC : Fld := ⟨0xa1, 0x10, 0, 1⟩

/-! Page 0x0a2. -/
def CCX_DDR_DENS : Fld := ⟨0xa2, 0x40, 0, 3⟩
def CCX_DDR_RATE : Fld := ⟨0xa2, 0x40, 4, 2⟩
def CCX_DDR_RANKS : Fld := ⟨0xa2, 0x40, 8, 1⟩
def CCX_DDR_INIT : Fld := ⟨0xa2, 0x44, 0, 1⟩
def CCX_DDR_CODE : Fld := ⟨0xa2, 0x48, 0, 8⟩
def CCX_DDR_READY : Fld := ⟨0xa2, 0x48, 8, 1⟩
def CCX_DDR_MIB : Fld := ⟨0xa2, 0x4c, 0, 16⟩
def CCX_DDR_CORRN : Fld := ⟨0xa2, 0x50, 0, 16⟩
def CCX_DDR_UNCN : Fld := ⟨0xa2, 0x50, 16, 16⟩
def CCX_DDR_EA : Fld := ⟨0xa2, 0x54, 0, 32⟩
def CCX_DDR_I_INIT : Fld := ⟨0xa2, 0x10, 0, 1⟩
def CCX_DDR_I_UNC : Fld := ⟨0xa2, 0x10, 1, 1⟩

/-! Page 0x0a3. -/
def CCX_QSP_LANES : Fld := ⟨0xa3, 0x40, 0, 2⟩
def CCX_QSP_A4 : Fld := ⟨0xa3, 0x40, 2, 1⟩
def CCX_QSP_DIV : Fld := ⟨0xa3, 0x40, 8, 4⟩
def CCX_QSP_OPC : Fld := ⟨0xa3, 0x44, 0, 8⟩
def CCX_QSP_DUMMY : Fld := ⟨0xa3, 0x44, 8, 4⟩
def CCX_QSP_DIR : Fld := ⟨0xa3, 0x44, 12, 2⟩
def CCX_QSP_HASADDR : Fld := ⟨0xa3, 0x44, 16, 1⟩
def CCX_QSP_ADDR : Fld := ⟨0xa3, 0x48, 0, 32⟩
def CCX_QSP_LEN : Fld := ⟨0xa3, 0x4c, 0, 9⟩
def CCX_QSP_GO : Fld := ⟨0xa3, 0x50, 0, 1⟩
def CCX_QSP_CODE : Fld := ⟨0xa3, 0x54, 0, 8⟩
def CCX_QSP_WPA : Fld := ⟨0xa3, 0x58, 0, 1⟩
def CCX_QSP_WPB : Fld := ⟨0xa3, 0x58, 1, 1⟩
def CCX_QSP_BUF (i : Nat) : Fld := ⟨0xa3, 0x100 + 4 * i, 0, 32⟩

/-! Page 0x0a8. -/
def MGC_B_SLOT : Fld := ⟨0xa8, 0x40, 0, 1⟩
def MGC_B_REASON : Fld := ⟨0xa8, 0x40, 2, 2⟩
def MGC_B_FAILA : Fld := ⟨0xa8, 0x40, 8, 4⟩
def MGC_B_FAILB : Fld := ⟨0xa8, 0x40, 12, 4⟩
def MGC_B_SVN : Fld := ⟨0xa8, 0x40, 16, 6⟩
def MGC_BVER : Fld := ⟨0xa8, 0x44, 0, 32⟩
def MGC_BREC : Fld := ⟨0xa8, 0x48, 0, 8⟩
def MGC_BOOTOK : Fld := ⟨0xa8, 0x4c, 0, 1⟩
def MGC_TRIAL : Fld := ⟨0xa8, 0x4c, 1, 1⟩
def MGC_CCXRELOAD : Fld := ⟨0xa8, 0x4c, 2, 1⟩
def MGC_TSLOT : Fld := ⟨0xa8, 0x4c, 8, 1⟩
def MGC_BCODE : Fld := ⟨0xa8, 0x50, 0, 8⟩
def MGC_WDT_MS : Fld := ⟨0xa8, 0x54, 0, 16⟩
def MGC_WDT_EN : Fld := ⟨0xa8, 0x54, 31, 1⟩
def MGC_WKICK : Fld := ⟨0xa8, 0x58, 0, 1⟩
def MGC_R_OP : Fld := ⟨0xa8, 0x5c, 0, 4⟩
def MGC_R_PAGE : Fld := ⟨0xa8, 0x5c, 16, 10⟩
def MGC_R_CODE : Fld := ⟨0xa8, 0x60, 0, 8⟩
def MGC_R_BUSY : Fld := ⟨0xa8, 0x60, 8, 1⟩
def MGC_R_LAST : Fld := ⟨0xa8, 0x60, 16, 16⟩
def MGC_IMAP : Fld := ⟨0xa8, 0x64, 0, 16⟩
def MGC_WBASE : Fld := ⟨0xa8, 0x68, 0, 16⟩
def MGC_MB_OUT (i : Nat) : Fld := ⟨0xa8, 0x80 + 4 * i, 0, 32⟩
def MGC_MB_IN (i : Nat) : Fld := ⟨0xa8, 0xa0 + 4 * i, 0, 32⟩
def MGC_DB_TOCCX : Fld := ⟨0xa8, 0xc0, 0, 1⟩
def MGC_DB_TOMGC : Fld := ⟨0xa8, 0xc0, 1, 1⟩
def MGC_I_DB : Fld := ⟨0xa8, 0x10, 0, 1⟩
def MGC_I_RDONE : Fld := ⟨0xa8, 0x10, 1, 1⟩
def MGC_I_BCMD : Fld := ⟨0xa8, 0x10, 2, 1⟩

/-! Page 0x0b0. -/
def PLT_EN : Fld := ⟨0xb0, 0x40, 0, 1⟩
def PLT_BAND : Fld := ⟨0xb0, 0x40, 4, 3⟩
def PLT_BANDC_EN : Fld := ⟨0xb0, 0x40, 8, 1⟩
def PLT_TXLVL : Fld := ⟨0xb0, 0x44, 0, 6⟩
def PLT_SPAN : Fld := ⟨0xb0, 0x48, 0, 5⟩
def PLT_TMREF : Fld := ⟨0xb0, 0x4c, 0, 16⟩
def PLT_TMMAXC : Fld := ⟨0xb0, 0x4c, 16, 3⟩
def PLT_TMRATE : Fld := ⟨0xb0, 0x4c, 20, 2⟩
def PLT_TMPIN : Fld := ⟨0xb0, 0x4c, 31, 1⟩
def PLT_TMMARG : Fld := ⟨0xb0, 0x50, 0, 8⟩
def PLT_TMMINF : Fld := ⟨0xb0, 0x50, 8, 8⟩
def PLT_TMASK (i : Nat) : Fld := ⟨0xb0, 0x54 + 4 * i, 0, 32⟩
def PLT_AUXDN : Fld := ⟨0xb0, 0x64, 0, 1⟩
def PLT_TXACT : Fld := ⟨0xb0, 0x64, 1, 1⟩
def PLT_BLIND : Fld := ⟨0xb0, 0x64, 2, 1⟩
def PLT_ROBUST : Fld := ⟨0xb0, 0x64, 3, 1⟩
def PLT_DFLTS : Fld := ⟨0xb0, 0x64, 4, 1⟩
def PLT_NTONE : Fld := ⟨0xb0, 0x64, 8, 7⟩
def PLT_RXOKN : Fld := ⟨0xb0, 0x68, 0, 16⟩
def PLT_HCSN : Fld := ⟨0xb0, 0x68, 16, 16⟩
def PLT_NOMAPN : Fld := ⟨0xb0, 0x6c, 0, 16⟩
def PLT_RSVN : Fld := ⟨0xb0, 0x6c, 16, 16⟩
def PLT_TXN : Fld := ⟨0xb0, 0x70, 0, 16⟩
def PLT_TXABN : Fld := ⟨0xb0, 0x70, 16, 16⟩
def PLT_CCODE : Fld := ⟨0xb0, 0x74, 0, 8⟩
def PLT_I_TXDONE : Fld := ⟨0xb0, 0x10, 0, 1⟩
def PLT_I_FAULT : Fld := ⟨0xb0, 0x10, 1, 1⟩
def PLT_I_MAP : Fld := ⟨0xb0, 0x10, 2, 1⟩

/-! Page 0x0b1. -/
def PLT_TM_NB : Fld := ⟨0xb1, 0x40, 0, 6⟩
def PLT_TM_DIR : Fld := ⟨0xb1, 0x40, 8, 1⟩
def PLT_TM_MAP : Fld := ⟨0xb1, 0x40, 16, 4⟩
def PLT_TM_GEN : Fld := ⟨0xb1, 0x44, 0, 8⟩
def PLT_TM_RATE : Fld := ⟨0xb1, 0x44, 8, 2⟩
def PLT_TM_SPAN : Fld := ⟨0xb1, 0x44, 10, 5⟩
def PLT_TM_VALID : Fld := ⟨0xb1, 0x44, 15, 1⟩
def PLT_TM_DELTA : Fld := ⟨0xb1, 0x44, 16, 16⟩
def PLT_TMAGE : Fld := ⟨0xb1, 0x48, 0, 32⟩
def PLT_TMDATA (i : Nat) : Fld := ⟨0xb1, 0x100 + 4 * i, 0, 32⟩

/-! Page 0x0b4. -/
def PLP_EN : Fld := ⟨0xb4, 0x40, 0, 1⟩
def PLP_DLEN : Fld := ⟨0xb4, 0x40, 1, 1⟩
def PLP_THR : Fld := ⟨0xb4, 0x44, 0, 16⟩
def PLP_MARG : Fld := ⟨0xb4, 0x44, 16, 4⟩
def PLP_DLWAIT : Fld := ⟨0xb4, 0x48, 0, 16⟩
def PLP_FRMN : Fld := ⟨0xb4, 0x4c, 0, 16⟩
def PLP_CRCN : Fld := ⟨0xb4, 0x4c, 16, 16⟩
def PLP_ERSN : Fld := ⟨0xb4, 0x50, 0, 16⟩
def PLP_BADWIN : Fld := ⟨0xb4, 0x50, 16, 16⟩
def PLP_BRKN : Fld := ⟨0xb4, 0x54, 0, 16⟩
def PLP_DLN : Fld := ⟨0xb4, 0x54, 16, 16⟩
def PLP_LASTC : Fld := ⟨0xb4, 0x58, 0, 16⟩
def PLP_LASTP : Fld := ⟨0xb4, 0x58, 16, 2⟩
def PLP_LASTK : Fld := ⟨0xb4, 0x58, 18, 2⟩
def PLP_LASTS : Fld := ⟨0xb4, 0x58, 24, 6⟩
def PLP_CCODE : Fld := ⟨0xb4, 0x5c, 0, 8⟩
def PLP_EMAP_STR (n : Nat) : Fld := ⟨0xb4, 0x100 + 4 * (n / 4), 8 * (n % 4) + 0, 6⟩
def PLP_EMAP_VAL (n : Nat) : Fld := ⟨0xb4, 0x100 + 4 * (n / 4), 8 * (n % 4) + 7, 1⟩
def PLP_I_FRAME : Fld := ⟨0xb4, 0x10, 0, 1⟩
def PLP_I_DLDONE : Fld := ⟨0xb4, 0x10, 1, 1⟩
def PLP_I_BAD : Fld := ⟨0xb4, 0x10, 2, 1⟩

/-! Page 0x0b8. -/
def PLM_EN : Fld := ⟨0xb8, 0x40, 0, 1⟩
def PLM_SADDR : Fld := ⟨0xb8, 0x40, 8, 8⟩
def PLM_LEAVE : Fld := ⟨0xb8, 0x40, 16, 1⟩
def PLM_CONFLICT : Fld := ⟨0xb8, 0x40, 17, 1⟩
def PLM_RG_STBY : Fld := ⟨0xb8, 0x40, 18, 1⟩
def PLM_HELLO : Fld := ⟨0xb8, 0x44, 0, 16⟩
def PLM_RADV : Fld := ⟨0xb8, 0x44, 16, 16⟩
def PLM_AGE : Fld := ⟨0xb8, 0x48, 0, 4⟩
def PLM_RETRY : Fld := ⟨0xb8, 0x48, 4, 3⟩
def PLM_HOPPEN : Fld := ⟨0xb8, 0x48, 8, 8⟩
def PLM_EIFS : Fld := ⟨0xb8, 0x48, 16, 8⟩
def PLM_JOINLEN : Fld := ⟨0xb8, 0x4c, 0, 16⟩
def PLM_PMIN : Fld := ⟨0xb8, 0x50, 0, 8⟩
def PLM_ADMLEAD : Fld := ⟨0xb8, 0x50, 8, 8⟩
def PLM_NHOLD : Fld := ⟨0xb8, 0x50, 16, 16⟩
def PLM_RG_LEASE : Fld := ⟨0xb8, 0x54, 0, 16⟩
def PLM_RG_DEAD : Fld := ⟨0xb8, 0x54, 16, 8⟩
def PLM_RG_PROBE : Fld := ⟨0xb8, 0x54, 24, 4⟩
def PLM_RG_MAXACT : Fld := ⟨0xb8, 0x58, 0, 32⟩
def PLM_SBASE : Fld := ⟨0xb8, 0x5c, 0, 8⟩
def PLM_SITEKEY (i : Nat) : Fld := ⟨0xb8, 0x60 + 4 * i, 0, 32⟩
def PLM_NOROOMN : Fld := ⟨0xb8, 0x70, 0, 16⟩
def PLM_BADMICN : Fld := ⟨0xb8, 0x70, 16, 16⟩
def PLM_REPLAYN : Fld := ⟨0xb8, 0x74, 0, 16⟩
def PLM_FWDDROPN : Fld := ⟨0xb8, 0x74, 16, 16⟩
def PLM_REASMN : Fld := ⟨0xb8, 0x78, 0, 16⟩
def PLM_RSVN : Fld := ⟨0xb8, 0x78, 16, 16⟩
def PLM_JOINBADN : Fld := ⟨0xb8, 0x7c, 0, 16⟩
def PLM_JOINFULLN : Fld := ⟨0xb8, 0x7c, 16, 16⟩
def PLM_NBFULLN : Fld := ⟨0xb8, 0x80, 0, 16⟩
def PLM_D3DROPN : Fld := ⟨0xb8, 0x80, 16, 16⟩
def PLM_SRQLATEN : Fld := ⟨0xb8, 0x84, 0, 16⟩
def PLM_SRQ_WR : Fld := ⟨0xb8, 0x90, 0, 4⟩
def PLM_SRQ_RD : Fld := ⟨0xb8, 0x94, 0, 4⟩
def PLM_SRQ (i : Nat) : Fld := ⟨0xb8, 0x100 + 16 * i, 0, 128⟩
def PLM_EV (i : Nat) : Fld := ⟨0xb8, 0x200 + 16 * i, 0, 128⟩
def PLM_EV_WR : Fld := ⟨0xb8, 0x300, 0, 4⟩
def PLM_EV_RD : Fld := ⟨0xb8, 0x304, 0, 4⟩

/-! Page 0x0b9. -/
def PLM_T_IDX : Fld := ⟨0xb9, 0x40, 0, 8⟩
def PLM_T_TAB : Fld := ⟨0xb9, 0x40, 8, 2⟩
def PLM_T_W0 : Fld := ⟨0xb9, 0x44, 0, 32⟩
def PLM_T_EUI (i : Nat) : Fld := ⟨0xb9, 0x48 + 4 * i, 0, 32⟩
def PLM_T_W3 : Fld := ⟨0xb9, 0x50, 0, 32⟩

/-! Pages 0x0ba–0x0bb. -/
def PLM_EP_RBL (p c : Nat) : Fld := ⟨(0xba + p), 0x100 + 48 * c, 6, 26⟩
def PLM_EP_RBH (p c : Nat) : Fld := ⟨(0xba + p), 0x104 + 48 * c, 0, 8⟩
def PLM_EP_TL (p c : Nat) : Fld := ⟨(0xba + p), 0x108 + 48 * c, 0, 4⟩
def PLM_EP_CL (p c : Nat) : Fld := ⟨(0xba + p), 0x108 + 48 * c, 4, 4⟩
def PLM_EP_RL (p c : Nat) : Fld := ⟨(0xba + p), 0x108 + 48 * c, 8, 4⟩
def PLM_EP_PMAX (p c : Nat) : Fld := ⟨(0xba + p), 0x108 + 48 * c, 12, 2⟩
def PLM_EP_ADMIT (p c : Nat) : Fld := ⟨(0xba + p), 0x108 + 48 * c, 14, 1⟩
def PLM_EP_EN (p c : Nat) : Fld := ⟨(0xba + p), 0x108 + 48 * c, 31, 1⟩
def PLM_EP_NID (p c : Nat) : Fld := ⟨(0xba + p), 0x10c + 48 * c, 0, 16⟩
def PLM_EP_SINK (p c : Nat) : Fld := ⟨(0xba + p), 0x110 + 48 * c, 0, 32⟩
def PLM_EP_KEY (p c i : Nat) : Fld := ⟨(0xba + p), 0x114 + 48 * c + 4 * i, 0, 32⟩
def PLM_EP_KCOMMIT (p c : Nat) : Fld := ⟨(0xba + p), 0x124 + 48 * c, 0, 1⟩
def PLM_EP_KGEN (p c : Nat) : Fld := ⟨(0xba + p), 0x124 + 48 * c, 8, 8⟩
def PLM_EP_RFAULT (p c : Nat) : Fld := ⟨(0xba + p), 0x128 + 48 * c, 0, 1⟩
def PLM_EP_CCODE (p c : Nat) : Fld := ⟨(0xba + p), 0x128 + 48 * c, 8, 8⟩
def PLM_EP_RXDROPN (p c : Nat) : Fld := ⟨(0xba + p), 0x128 + 48 * c, 16, 16⟩

/-! Page 0x0c0. -/
def SWC_EN : Fld := ⟨0xc0, 0x40, 0, 1⟩
def SWC_HEAD : Fld := ⟨0xc0, 0x40, 1, 1⟩
def SWC_APER : Fld := ⟨0xc0, 0x40, 8, 8⟩
def SWC_ATMO : Fld := ⟨0xc0, 0x40, 16, 8⟩
def SWC_RWAIT : Fld := ⟨0xc0, 0x40, 24, 8⟩
def SWC_POS : Fld := ⟨0xc0, 0x44, 0, 6⟩
def SWC_UPLNK : Fld := ⟨0xc0, 0x44, 8, 1⟩
def SWC_DNLNK : Fld := ⟨0xc0, 0x44, 9, 1⟩
def SWC_ALIGNED : Fld := ⟨0xc0, 0x44, 10, 1⟩
def SWC_OVER : Fld := ⟨0xc0, 0x44, 11, 1⟩
def SWC_ENUM_BUSY : Fld := ⟨0xc0, 0x44, 12, 1⟩
def SWC_NOUT : Fld := ⟨0xc0, 0x44, 16, 4⟩
def SWC_NDEV : Fld := ⟨0xc0, 0x48, 0, 6⟩
def SWC_ENUMNO : Fld := ⟨0xc0, 0x48, 16, 16⟩
def SWC_OFS_LO : Fld := ⟨0xc0, 0x4c, 0, 32⟩
def SWC_OFS_HI : Fld := ⟨0xc0, 0x50, 0, 32⟩
def SWC_OFS_FR : Fld := ⟨0xc0, 0x54, 0, 8⟩
def SWC_DELAY : Fld := ⟨0xc0, 0x58, 0, 24⟩
def SWC_AT_LO : Fld := ⟨0xc0, 0x60, 0, 32⟩
def SWC_AT_HI : Fld := ⟨0xc0, 0x64, 0, 32⟩
def SWC_SW_KIND : Fld := ⟨0xc0, 0x68, 0, 4⟩
def SWC_SW_GO : Fld := ⟨0xc0, 0x68, 8, 1⟩
def SWC_SW_ID : Fld := ⟨0xc0, 0x6c, 0, 16⟩
def SWC_SW_CODE : Fld := ⟨0xc0, 0x6c, 16, 8⟩
def SWC_F_CODE : Fld := ⟨0xc0, 0x6c, 24, 8⟩
def SWC_ENUM : Fld := ⟨0xc0, 0x70, 0, 1⟩
def SWC_CGERRN : Fld := ⟨0xc0, 0x74, 0, 16⟩
def SWC_CRCN : Fld := ⟨0xc0, 0x74, 16, 16⟩
def SWC_LINKDNN : Fld := ⟨0xc0, 0x78, 0, 16⟩
def SWC_ALGLOSTN : Fld := ⟨0xc0, 0x78, 16, 16⟩
def SWC_F_ID : Fld := ⟨0xc0, 0x7c, 0, 16⟩
def SWC_F_POS : Fld := ⟨0xc0, 0x7c, 16, 6⟩
def SWC_F_GO : Fld := ⟨0xc0, 0x7c, 24, 1⟩
def SWC_R_ID : Fld := ⟨0xc0, 0x80, 0, 16⟩
def SWC_R_CODE : Fld := ⟨0xc0, 0x84, 0, 8⟩
def SWC_R_FINAL : Fld := ⟨0xc0, 0x84, 8, 1⟩
def SWC_R_NDEV : Fld := ⟨0xc0, 0x84, 16, 6⟩
def SWC_DEV_EUI (n : Nat) : Fld := ⟨0xc0, 0x100 + 8 * n, 0, 64⟩
def SWC_RP_STATE (i : Nat) : Fld := ⟨0xc0, 0x200 + 32 * i, 0, 2⟩
def SWC_RP_STS (i : Nat) : Fld := ⟨0xc0, 0x200 + 32 * i, 8, 8⟩
def SWC_RP_FETCHED (i : Nat) : Fld := ⟨0xc0, 0x200 + 32 * i, 16, 1⟩
def SWC_RP_STAMP (n : Nat) : Fld := ⟨0xc0, 0x208 + 32 * n, 0, 64⟩
def SWC_RP_DATUM (n : Nat) : Fld := ⟨0xc0, 0x210 + 32 * n, 0, 64⟩
def SWC_RP_EUI (n : Nat) : Fld := ⟨0xc0, 0x218 + 32 * n, 0, 64⟩
def SWC_LR_ID (i : Nat) : Fld := ⟨0xc0, 0x600 + 32 * i, 0, 16⟩
def SWC_LR_STS (i : Nat) : Fld := ⟨0xc0, 0x600 + 32 * i, 16, 8⟩
def SWC_LR_KIND (i : Nat) : Fld := ⟨0xc0, 0x600 + 32 * i, 24, 4⟩
def SWC_LR_VALID (i : Nat) : Fld := ⟨0xc0, 0x600 + 32 * i, 31, 1⟩
def SWC_LR_STAMP (n : Nat) : Fld := ⟨0xc0, 0x608 + 32 * n, 0, 64⟩
def SWC_LR_DATUM (n : Nat) : Fld := ⟨0xc0, 0x610 + 32 * n, 0, 64⟩
def SWC_I_LINK : Fld := ⟨0xc0, 0x10, 0, 1⟩
def SWC_I_ENUM : Fld := ⟨0xc0, 0x10, 1, 1⟩
def SWC_I_REPORT : Fld := ⟨0xc0, 0x10, 2, 1⟩
def SWC_I_ALIGN : Fld := ⟨0xc0, 0x10, 3, 1⟩
def SWC_I_EXEC : Fld := ⟨0xc0, 0x10, 4, 1⟩

/-! Page 0x0c8. -/
def TMP_HTH : Fld := ⟨0xc8, 0x40, 0, 8⟩
def TMP_HHYS : Fld := ⟨0xc8, 0x40, 8, 8⟩
def TMP_HDWELL : Fld := ⟨0xc8, 0x40, 16, 16⟩
def TMP_MPOL : Fld := ⟨0xc8, 0x44, 0, 8⟩
def TMP_MEN : Fld := ⟨0xc8, 0x44, 8, 8⟩
def TMP_MDWELL : Fld := ⟨0xc8, 0x44, 16, 16⟩
def TMP_EPOL : Fld := ⟨0xc8, 0x48, 0, 4⟩
def TMP_EEN : Fld := ⟨0xc8, 0x48, 4, 4⟩
def TMP_EDEB : Fld := ⟨0xc8, 0x48, 8, 8⟩
def TMP_TLO : Fld := ⟨0xc8, 0x4c, 0, 8⟩
def TMP_THI : Fld := ⟨0xc8, 0x4c, 8, 8⟩
def TMP_THYS : Fld := ⟨0xc8, 0x4c, 16, 4⟩
def TMP_HACT : Fld := ⟨0xc8, 0x50, 0, 2⟩
def TMP_MACT : Fld := ⟨0xc8, 0x50, 8, 8⟩
def TMP_EACT : Fld := ⟨0xc8, 0x50, 16, 4⟩
def TMP_TLOW : Fld := ⟨0xc8, 0x50, 20, 1⟩
def TMP_THIGH : Fld := ⟨0xc8, 0x50, 21, 1⟩
def TMP_XT32 : Fld := ⟨0xc8, 0x50, 22, 1⟩
def TMP_HB0 : Fld := ⟨0xc8, 0x54, 0, 16⟩
def TMP_HB1 : Fld := ⟨0xc8, 0x54, 16, 16⟩
def TMP_SGLN : Fld := ⟨0xc8, 0x58, 0, 16⟩
def TMP_CGLN : Fld := ⟨0xc8, 0x58, 16, 16⟩
def TMP_MAGN : Fld := ⟨0xc8, 0x5c, 0, 16⟩
def TMP_ENCN : Fld := ⟨0xc8, 0x5c, 16, 16⟩
def TMP_CCODE : Fld := ⟨0xc8, 0x60, 0, 8⟩
def TMP_COV_LO (i : Nat) : Fld := ⟨0xc8, 0x100 + 8 * i, 0, 32⟩
def TMP_COV_HI (i : Nat) : Fld := ⟨0xc8, 0x104 + 8 * i, 0, 32⟩
def TMP_I_MAG : Fld := ⟨0xc8, 0x10, 0, 1⟩
def TMP_I_ENC : Fld := ⟨0xc8, 0x10, 1, 1⟩
def TMP_I_GLITCH : Fld := ⟨0xc8, 0x10, 2, 1⟩
def TMP_I_TEMP : Fld := ⟨0xc8, 0x10, 3, 1⟩

/-! Page 0x0cc. -/
def CLG_MODE : Fld := ⟨0xcc, 0x40, 0, 2⟩
def CLG_SIGNING : Fld := ⟨0xcc, 0x40, 8, 1⟩
def CLG_KEYOK : Fld := ⟨0xcc, 0x40, 9, 1⟩
def CLG_HEADBLK : Fld := ⟨0xcc, 0x44, 0, 32⟩
def CLG_HEADPOS : Fld := ⟨0xcc, 0x48, 0, 8⟩
def CLG_TAIL : Fld := ⟨0xcc, 0x4c, 0, 32⟩
def CLG_FREE : Fld := ⟨0xcc, 0x50, 0, 15⟩
def CLG_RESV : Fld := ⟨0xcc, 0x54, 0, 14⟩
def CLG_RELEASE : Fld := ⟨0xcc, 0x58, 0, 32⟩
def CLG_SEALNOW : Fld := ⟨0xcc, 0x5c, 0, 1⟩
def CLG_CCODE : Fld := ⟨0xcc, 0x60, 0, 8⟩
def CLG_LH_LO : Fld := ⟨0xcc, 0x64, 0, 32⟩
def CLG_LH_HI : Fld := ⟨0xcc, 0x68, 0, 32⟩
def CLG_COALN : Fld := ⟨0xcc, 0x6c, 0, 16⟩
def CLG_TORNN : Fld := ⟨0xcc, 0x6c, 16, 16⟩
def CLG_RD_BLK : Fld := ⟨0xcc, 0x70, 0, 32⟩
def CLG_RD_POS : Fld := ⟨0xcc, 0x74, 0, 8⟩
def CLG_RD_CODE : Fld := ⟨0xcc, 0x74, 8, 8⟩
def CLG_RDW (i : Nat) : Fld := ⟨0xcc, 0x80 + 4 * i, 0, 32⟩
def CLG_EXP_BLK : Fld := ⟨0xcc, 0xa0, 0, 32⟩
def CLG_EXP_CNT : Fld := ⟨0xcc, 0xa4, 0, 7⟩
def CLG_ED_LO : Fld := ⟨0xcc, 0xa8, 6, 26⟩
def CLG_ED_HI : Fld := ⟨0xcc, 0xac, 0, 8⟩
def CLG_EXP_GO : Fld := ⟨0xcc, 0xb0, 0, 1⟩
def CLG_EXP_CODE : Fld := ⟨0xcc, 0xb4, 0, 8⟩
def CLG_EXP_BUSY : Fld := ⟨0xcc, 0xb4, 8, 1⟩
def CLG_FD_LO : Fld := ⟨0xcc, 0xc0, 0, 32⟩
def CLG_FD_HI : Fld := ⟨0xcc, 0xc4, 0, 32⟩
def CLG_FW_EC : Fld := ⟨0xcc, 0xc8, 0, 16⟩
def CLG_FW_TC : Fld := ⟨0xcc, 0xc8, 16, 8⟩
def CLG_FW_CCODE : Fld := ⟨0xcc, 0xcc, 0, 8⟩
def CLG_FULLCNT (i : Nat) : Fld := ⟨0xcc, 0x100 + 4 * i, 0, 32⟩
def CLG_I_SEAL : Fld := ⟨0xcc, 0x10, 0, 1⟩
def CLG_I_MODE : Fld := ⟨0xcc, 0x10, 1, 1⟩
def CLG_I_SEALFAIL : Fld := ⟨0xcc, 0x10, 2, 1⟩
def CLG_I_EXP : Fld := ⟨0xcc, 0x10, 3, 1⟩

/-! Page 0x0d0. -/
def SEC_EN : Fld := ⟨0xd0, 0x40, 0, 1⟩
def SEC_IDOK : Fld := ⟨0xd0, 0x44, 0, 1⟩
def SEC_IDRET : Fld := ⟨0xd0, 0x44, 1, 1⟩
def SEC_RBGERR : Fld := ⟨0xd0, 0x44, 2, 1⟩
def SEC_UBUSY : Fld := ⟨0xd0, 0x44, 8, 6⟩
def SEC_RBC : Fld := ⟨0xd0, 0x48, 0, 6⟩
def SEC_REVK : Fld := ⟨0xd0, 0x48, 8, 2⟩
def SEC_RBADV : Fld := ⟨0xd0, 0x4c, 0, 1⟩
def SEC_REVK0 : Fld := ⟨0xd0, 0x4c, 1, 1⟩
def SEC_REVK1 : Fld := ⟨0xd0, 0x4c, 2, 1⟩
def SEC_IDARM : Fld := ⟨0xd0, 0x4c, 3, 1⟩
def SEC_IDRETIRE : Fld := ⟨0xd0, 0x4c, 4, 1⟩
def SEC_O_CODE : Fld := ⟨0xd0, 0x50, 0, 8⟩
def SEC_OPN : Fld := ⟨0xd0, 0x54, 0, 16⟩
def SEC_ABORTN : Fld := ⟨0xd0, 0x54, 16, 16⟩
def SEC_RBGFAILN : Fld := ⟨0xd0, 0x58, 0, 16⟩
def SEC_IDPUB (i : Nat) : Fld := ⟨0xd0, 0x60 + 4 * i, 0, 32⟩
def SEC_RB_LO (i : Nat) : Fld := ⟨0xd0, 0x100 + 16 * i, 6, 26⟩
def SEC_RB_HI (i : Nat) : Fld := ⟨0xd0, 0x104 + 16 * i, 0, 8⟩
def SEC_RSL (i : Nat) : Fld := ⟨0xd0, 0x108 + 16 * i, 0, 4⟩
def SEC_RCL (i : Nat) : Fld := ⟨0xd0, 0x108 + 16 * i, 8, 4⟩
def SEC_REN (i : Nat) : Fld := ⟨0xd0, 0x108 + 16 * i, 31, 1⟩
def SEC_RFAULT (i : Nat) : Fld := ⟨0xd0, 0x10c + 16 * i, 0, 1⟩
def SEC_S_TYPE (i : Nat) : Fld := ⟨0xd0, 0x500 + 4 * i, 0, 3⟩
def SEC_S_PERSIST (i : Nat) : Fld := ⟨0xd0, 0x500 + 4 * i, 3, 1⟩
def SEC_S_USE (i : Nat) : Fld := ⟨0xd0, 0x500 + 4 * i, 4, 6⟩
def SEC_S_OWN (i : Nat) : Fld := ⟨0xd0, 0x500 + 4 * i, 10, 6⟩
def SEC_S_GEN (i : Nat) : Fld := ⟨0xd0, 0x500 + 4 * i, 16, 8⟩
def SEC_S_STATE (i : Nat) : Fld := ⟨0xd0, 0x500 + 4 * i, 24, 2⟩
def SEC_I_RBG : Fld := ⟨0xd0, 0x10, 0, 1⟩
def SEC_I_ERASE : Fld := ⟨0xd0, 0x10, 1, 1⟩
def SEC_I_OTP : Fld := ⟨0xd0, 0x10, 2, 1⟩
def SEC_I_RFAULT : Fld := ⟨0xd0, 0x10, 3, 1⟩

/-! Page 0x0d8. -/
def CEL_EN : Fld := ⟨0xd8, 0x40, 0, 1⟩
def CEL_BP : Fld := ⟨0xd8, 0x44, 0, 2⟩
def CEL_SCRUB : Fld := ⟨0xd8, 0x48, 0, 16⟩
def CEL_WBLK : Fld := ⟨0xd8, 0x4c, 0, 1⟩
def CEL_BUSY : Fld := ⟨0xd8, 0x4c, 1, 1⟩
def CEL_BADN : Fld := ⟨0xd8, 0x4c, 8, 5⟩
def CEL_SCPOS : Fld := ⟨0xd8, 0x50, 0, 17⟩
def CEL_SCPASS : Fld := ⟨0xd8, 0x54, 0, 32⟩
def CEL_CORRN : Fld := ⟨0xd8, 0x58, 0, 16⟩
def CEL_UNCN : Fld := ⟨0xd8, 0x58, 16, 16⟩
def CEL_UEADR : Fld := ⟨0xd8, 0x5c, 0, 17⟩
def CEL_WFAILN : Fld := ⟨0xd8, 0x60, 0, 16⟩
def CEL_BPARM : Fld := ⟨0xd8, 0x64, 0, 1⟩
def CEL_UNRESV : Fld := ⟨0xd8, 0x64, 1, 1⟩
def CEL_UR_UNIT : Fld := ⟨0xd8, 0x64, 8, 6⟩
def CEL_CCODE : Fld := ⟨0xd8, 0x68, 0, 8⟩
def CEL_IR_SRC : Fld := ⟨0xd8, 0x70, 0, 8⟩
def CEL_IR_VALID : Fld := ⟨0xd8, 0x70, 8, 1⟩
def CEL_IR_LAST : Fld := ⟨0xd8, 0x70, 16, 16⟩
def CEL_IR_ITEM : Fld := ⟨0xd8, 0x74, 0, 16⟩
def CEL_IR_UNIT : Fld := ⟨0xd8, 0x74, 16, 7⟩
def CEL_M_GRP : Fld := ⟨0xd8, 0x80, 0, 17⟩
def CEL_M_NGRP : Fld := ⟨0xd8, 0x84, 0, 4⟩
def CEL_M_DIR : Fld := ⟨0xd8, 0x84, 4, 1⟩
def CEL_M_GO : Fld := ⟨0xd8, 0x84, 8, 1⟩
def CEL_M_CODE : Fld := ⟨0xd8, 0x88, 0, 8⟩
def CEL_M_LAST : Fld := ⟨0xd8, 0x88, 8, 8⟩
def CEL_M_BUSY : Fld := ⟨0xd8, 0x88, 16, 1⟩
def CEL_MBUF (i : Nat) : Fld := ⟨0xd8, 0xc0 + 4 * i, 0, 32⟩
def CEL_U_HOLD (i : Nat) : Fld := ⟨0xd8, 0x100 + 4 * i, 0, 6⟩
def CEL_U_STATE (i : Nat) : Fld := ⟨0xd8, 0x100 + 4 * i, 8, 2⟩
def CEL_U_SYS (i : Nat) : Fld := ⟨0xd8, 0x100 + 4 * i, 12, 1⟩
def CEL_U_BP (i : Nat) : Fld := ⟨0xd8, 0x100 + 4 * i, 13, 1⟩
def CEL_RB_LO (i : Nat) : Fld := ⟨0xd8, 0x200 + 16 * i, 6, 26⟩
def CEL_RB_HI (i : Nat) : Fld := ⟨0xd8, 0x204 + 16 * i, 0, 8⟩
def CEL_RSL (i : Nat) : Fld := ⟨0xd8, 0x208 + 16 * i, 0, 4⟩
def CEL_RCL (i : Nat) : Fld := ⟨0xd8, 0x208 + 16 * i, 8, 4⟩
def CEL_REN (i : Nat) : Fld := ⟨0xd8, 0x208 + 16 * i, 31, 1⟩
def CEL_RFAULT (i : Nat) : Fld := ⟨0xd8, 0x20c + 16 * i, 0, 1⟩
def CEL_I_UNC : Fld := ⟨0xd8, 0x10, 0, 1⟩
def CEL_I_WFAIL : Fld := ⟨0xd8, 0x10, 1, 1⟩
def CEL_I_PASS : Fld := ⟨0xd8, 0x10, 2, 1⟩
def CEL_I_MDONE : Fld := ⟨0xd8, 0x10, 3, 1⟩
def CEL_I_RFAULT : Fld := ⟨0xd8, 0x10, 4, 1⟩
def CEL_I_PWR : Fld := ⟨0xd8, 0x10, 5, 1⟩

/-! Page 0x0e0. -/
def BGA_EN : Fld := ⟨0xe0, 0x40, 0, 1⟩
def BGA_RESTPIN : Fld := ⟨0xe0, 0x40, 1, 1⟩
def BGA_NCELL : Fld := ⟨0xe0, 0x44, 0, 3⟩
def BGA_CHEM : Fld := ⟨0xe0, 0x44, 4, 1⟩
def BGA_DESCAP : Fld := ⟨0xe0, 0x44, 16, 16⟩
def BGA_RSH : Fld := ⟨0xe0, 0x48, 0, 16⟩
def BGA_VFULL : Fld := ⟨0xe0, 0x4c, 0, 16⟩
def BGA_VEMPTY : Fld := ⟨0xe0, 0x4c, 16, 16⟩
def BGA_IREST : Fld := ⟨0xe0, 0x50, 0, 16⟩
def BGA_ITAPER : Fld := ⟨0xe0, 0x50, 16, 16⟩
def BGA_TREST : Fld := ⟨0xe0, 0x54, 0, 16⟩
def BGA_CATCH : Fld := ⟨0xe0, 0x54, 16, 8⟩
def BGA_ZAGE : Fld := ⟨0xe0, 0x54, 24, 8⟩
def BGA_CEFF : Fld := ⟨0xe0, 0x58, 0, 16⟩
def BGA_MINSLOPE : Fld := ⟨0xe0, 0x58, 16, 16⟩
def BGA_ZMIN : Fld := ⟨0xe0, 0x5c, 0, 16⟩
def BGA_ZSET : Fld := ⟨0xe0, 0x5c, 16, 8⟩
def BGA_ZDEF : Fld := ⟨0xe0, 0x60, 0, 16⟩
def BGA_OWPER : Fld := ⟨0xe0, 0x64, 0, 16⟩
def BGA_OWTH : Fld := ⟨0xe0, 0x64, 16, 8⟩
def BGA_SUMTOL : Fld := ⟨0xe0, 0x64, 24, 8⟩
def BGA_VCMIN : Fld := ⟨0xe0, 0x68, 0, 16⟩
def BGA_VCMAX : Fld := ⟨0xe0, 0x68, 16, 16⟩
def BGA_RESTORE : Fld := ⟨0xe0, 0x6c, 0, 1⟩
def BGA_COLD : Fld := ⟨0xe0, 0x6c, 1, 1⟩
def BGA_MNT_GO : Fld := ⟨0xe0, 0x6c, 2, 1⟩
def BGA_MNT_ABORT : Fld := ⟨0xe0, 0x6c, 3, 1⟩
def BGA_OWNOW : Fld := ⟨0xe0, 0x6c, 4, 1⟩
def BGA_TCOMMIT : Fld := ⟨0xe0, 0x6c, 5, 1⟩
def BGA_MNT_END : Fld := ⟨0xe0, 0x70, 0, 32⟩
def BGA_ST : Fld := ⟨0xe0, 0x74, 0, 2⟩
def BGA_ONPACK : Fld := ⟨0xe0, 0x74, 2, 1⟩
def BGA_RESTING : Fld := ⟨0xe0, 0x74, 3, 1⟩
def BGA_ESTF : Fld := ⟨0xe0, 0x74, 4, 1⟩
def BGA_LEARNED : Fld := ⟨0xe0, 0x74, 5, 1⟩
def BGA_LRNACT : Fld := ⟨0xe0, 0x74, 6, 1⟩
def BGA_ZWANT : Fld := ⟨0xe0, 0x74, 7, 1⟩
def BGA_MNT_ST : Fld := ⟨0xe0, 0x74, 8, 2⟩
def BGA_CCODE : Fld := ⟨0xe0, 0x74, 16, 8⟩
def BGA_RST_CODE : Fld := ⟨0xe0, 0x78, 0, 8⟩
def BGA_MNT_CODE : Fld := ⟨0xe0, 0x78, 8, 8⟩
def BGA_LRN_CODE : Fld := ⟨0xe0, 0x78, 16, 8⟩
def BGA_SOCR : Fld := ⟨0xe0, 0x7c, 0, 14⟩
def BGA_SOCS : Fld := ⟨0xe0, 0x7c, 16, 14⟩
def BGA_Q : Fld := ⟨0xe0, 0x80, 0, 32⟩
def BGA_QMAX : Fld := ⟨0xe0, 0x84, 0, 32⟩
def BGA_IMEAN : Fld := ⟨0xe0, 0x88, 0, 16⟩
def BGA_TTE : Fld := ⟨0xe0, 0x88, 16, 16⟩
def BGA_VPACK : Fld := ⟨0xe0, 0x8c, 0, 16⟩
def BGA_VCELL (i : Nat) : Fld := ⟨0xe0, 0x90 + 4 * i, 0, 16⟩
def BGA_Z : Fld := ⟨0xe0, 0xa0, 0, 16⟩
def BGA_ZN : Fld := ⟨0xe0, 0xa0, 16, 16⟩
def BGA_RESTT : Fld := ⟨0xe0, 0xa4, 0, 32⟩
def BGA_SV : Fld := ⟨0xe0, 0xa8, 0, 2⟩
def BGA_SIDX : Fld := ⟨0xe0, 0xa8, 4, 3⟩
def BGA_LRN : Fld := ⟨0xe0, 0xac, 0, 32⟩
def BGA_ZACCN : Fld := ⟨0xe0, 0xb0, 0, 16⟩
def BGA_ZREJN : Fld := ⟨0xe0, 0xb0, 16, 16⟩
def BGA_OCVN : Fld := ⟨0xe0, 0xb4, 0, 16⟩
def BGA_OCVSKN : Fld := ⟨0xe0, 0xb4, 16, 16⟩
def BGA_REC (i : Nat) : Fld := ⟨0xe0, 0xc0 + 4 * i, 0, 32⟩
def BGA_RIN (i : Nat) : Fld := ⟨0xe0, 0x100 + 4 * i, 0, 32⟩
def BGA_OCV_V (i : Nat) : Fld := ⟨0xe0, 0x200 + 4 * i, 0, 16⟩
def BGA_OCV_SOC (i : Nat) : Fld := ⟨0xe0, 0x200 + 4 * i, 16, 14⟩
def BGA_I_REC : Fld := ⟨0xe0, 0x10, 0, 1⟩
def BGA_I_SENSE : Fld := ⟨0xe0, 0x10, 1, 1⟩
def BGA_I_LEARN : Fld := ⟨0xe0, 0x10, 2, 1⟩
def BGA_I_MNT : Fld := ⟨0xe0, 0x10, 3, 1⟩
def BGA_I_REST : Fld := ⟨0xe0, 0x10, 4, 1⟩
def BGA_I_ZWANT : Fld := ⟨0xe0, 0x10, 5, 1⟩

/-! Page 0x0e8. -/
def PMU_PST : Fld := ⟨0xe8, 0x40, 0, 3⟩
def PMU_VINOK : Fld := ⟨0xe8, 0x40, 3, 1⟩
def PMU_VINOV : Fld := ⟨0xe8, 0x40, 4, 1⟩
def PMU_PACKOK : Fld := ⟨0xe8, 0x40, 5, 1⟩
def PMU_WBLK : Fld := ⟨0xe8, 0x40, 6, 1⟩
def PMU_RFAULT : Fld := ⟨0xe8, 0x40, 7, 1⟩
def PMU_PACK_EN : Fld := ⟨0xe8, 0x44, 0, 1⟩
def PMU_VIN_MV : Fld := ⟨0xe8, 0x48, 0, 16⟩
def PMU_VBAT_MV : Fld := ⟨0xe8, 0x48, 16, 16⟩
def PMU_CUT_VCELL : Fld := ⟨0xe8, 0x4c, 0, 16⟩
def PMU_CUTW_VCELL : Fld := ⟨0xe8, 0x4c, 16, 16⟩
def PMU_CUTGRACE : Fld := ⟨0xe8, 0x50, 0, 16⟩
def PMU_CHG_EN : Fld := ⟨0xe8, 0x54, 0, 1⟩
def PMU_CHG_I : Fld := ⟨0xe8, 0x54, 16, 16⟩
def PMU_CHG_VCELL : Fld := ⟨0xe8, 0x58, 0, 16⟩
def PMU_CHG_RECH : Fld := ⟨0xe8, 0x58, 16, 16⟩
def PMU_CHG_TMAX : Fld := ⟨0xe8, 0x5c, 0, 8⟩
def PMU_NTC_HOT : Fld := ⟨0xe8, 0x5c, 8, 8⟩
def PMU_NTC_COLD : Fld := ⟨0xe8, 0x5c, 16, 8⟩
def PMU_CHG_ST : Fld := ⟨0xe8, 0x60, 0, 3⟩
def PMU_KILN_ARM : Fld := ⟨0xe8, 0x64, 0, 1⟩
def PMU_KILN_GO : Fld := ⟨0xe8, 0x64, 1, 1⟩
def PMU_KILN_CONFIRM : Fld := ⟨0xe8, 0x64, 2, 1⟩
def PMU_CUTACK : Fld := ⟨0xe8, 0x64, 3, 1⟩
def PMU_KILN_TMO : Fld := ⟨0xe8, 0x68, 0, 16⟩
def PMU_KILN_CODE : Fld := ⟨0xe8, 0x6c, 0, 8⟩
def PMU_CCODE : Fld := ⟨0xe8, 0x6c, 8, 8⟩
def PMU_WAKE_SRC : Fld := ⟨0xe8, 0x70, 0, 3⟩
def PMU_VINLOSTN : Fld := ⟨0xe8, 0x74, 0, 16⟩
def PMU_WBLKN : Fld := ⟨0xe8, 0x74, 16, 16⟩
def PMU_I_VIN : Fld := ⟨0xe8, 0x10, 0, 1⟩
def PMU_I_CUT : Fld := ⟨0xe8, 0x10, 1, 1⟩
def PMU_I_KILN : Fld := ⟨0xe8, 0x10, 2, 1⟩
def PMU_I_AUX : Fld := ⟨0xe8, 0x10, 3, 1⟩
def PMU_I_CHG : Fld := ⟨0xe8, 0x10, 4, 1⟩
def PMU_I_RAIL : Fld := ⟨0xe8, 0x10, 5, 1⟩
def PMU_I_WBLK : Fld := ⟨0xe8, 0x10, 6, 1⟩

/-! Page 0x0e9. -/
def PMU_VC_SET : Fld := ⟨0xe9, 0x40, 0, 7⟩
def PMU_VC_MIN : Fld := ⟨0xe9, 0x40, 8, 7⟩
def PMU_VC_MAX : Fld := ⟨0xe9, 0x40, 16, 7⟩
def PMU_VC_PINV : Fld := ⟨0xe9, 0x40, 24, 7⟩
def PMU_VC_PIN : Fld := ⟨0xe9, 0x40, 31, 1⟩
def PMU_VT_SET : Fld := ⟨0xe9, 0x44, 0, 7⟩
def PMU_VT_MIN : Fld := ⟨0xe9, 0x44, 8, 7⟩
def PMU_VT_MAX : Fld := ⟨0xe9, 0x44, 16, 7⟩
def PMU_VT_PINV : Fld := ⟨0xe9, 0x44, 24, 7⟩
def PMU_VT_PIN : Fld := ⟨0xe9, 0x44, 31, 1⟩
def PMU_VC_D3 : Fld := ⟨0xe9, 0x48, 0, 7⟩
def PMU_PG : Fld := ⟨0xe9, 0x4c, 0, 9⟩
def PMU_RFLT : Fld := ⟨0xe9, 0x4c, 16, 8⟩
def PMU_AUX_EN : Fld := ⟨0xe9, 0x50, 0, 1⟩
def PMU_AUX_V : Fld := ⟨0xe9, 0x50, 1, 1⟩
def PMU_AUX_D3 : Fld := ⟨0xe9, 0x50, 2, 1⟩
def PMU_AUX_RETRY : Fld := ⟨0xe9, 0x50, 3, 1⟩
def PMU_AUX_ST : Fld := ⟨0xe9, 0x54, 0, 3⟩
def PMU_AUX_ATT : Fld := ⟨0xe9, 0x54, 4, 3⟩
def PMU_AUX_MV : Fld := ⟨0xe9, 0x54, 16, 16⟩
def PMU_AUXFLTN : Fld := ⟨0xe9, 0x58, 0, 16⟩

/-! Page 0x0f0. -/
def MON_CAP : Fld := ⟨0xf0, 0x40, 0, 2⟩
def MON_ASCEND : Fld := ⟨0xf0, 0x40, 8, 1⟩
def MON_LVL : Fld := ⟨0xf0, 0x44, 0, 3⟩
def MON_CAUSE : Fld := ⟨0xf0, 0x44, 8, 3⟩
def MON_ASCOK : Fld := ⟨0xf0, 0x44, 12, 1⟩
def MON_REFDRIFT : Fld := ⟨0xf0, 0x44, 13, 1⟩
def MON_VCFAIL : Fld := ⟨0xf0, 0x44, 14, 1⟩
def MON_TSBADN : Fld := ⟨0xf0, 0x44, 16, 5⟩
def MON_CCODE : Fld := ⟨0xf0, 0x44, 24, 8⟩
def MON_TTHR : Fld := ⟨0xf0, 0x48, 0, 8⟩
def MON_TD1 : Fld := ⟨0xf0, 0x48, 8, 8⟩
def MON_TCLU : Fld := ⟨0xf0, 0x48, 16, 8⟩
def MON_TD2 : Fld := ⟨0xf0, 0x48, 24, 8⟩
def MON_THYS : Fld := ⟨0xf0, 0x4c, 0, 4⟩
def MON_UPDWELL : Fld := ⟨0xf0, 0x4c, 8, 8⟩
def MON_INSPECT : Fld := ⟨0xf0, 0x4c, 16, 16⟩
def MON_AVS_TGT : Fld := ⟨0xf0, 0x50, 0, 8⟩
def MON_AVS_HYS : Fld := ⟨0xf0, 0x50, 8, 8⟩
def MON_MARG_MIN : Fld := ⟨0xf0, 0x50, 16, 8⟩
def MON_TDIV : Fld := ⟨0xf0, 0x54, 0, 4⟩
def MON_TMASK : Fld := ⟨0xf0, 0x54, 8, 8⟩
def MON_THOT : Fld := ⟨0xf0, 0x58, 0, 16⟩
def MON_TCOLD : Fld := ⟨0xf0, 0x58, 16, 16⟩
def MON_TS (k : Nat) : Fld := ⟨0xf0, 0x60 + 4 * (k / 2), 16 * (k % 2), 16⟩
def MON_VS (k : Nat) : Fld := ⟨0xf0, 0x80 + 4 * (k / 2), 16 * (k % 2), 16⟩
def MON_PM (k : Nat) : Fld := ⟨0xf0, 0xb0 + 4 * (k / 2), 16 * (k % 2), 16⟩
def MON_OVR (i : Nat) : Fld := ⟨0xf0, 0xd0 + 4 * i, 0, 32⟩
def MON_DEGN : Fld := ⟨0xf0, 0xe0, 0, 16⟩
def MON_REFN : Fld := ⟨0xf0, 0xe0, 16, 16⟩
def MON_I_LEVEL : Fld := ⟨0xf0, 0x10, 0, 1⟩
def MON_I_OVR : Fld := ⟨0xf0, 0x10, 1, 1⟩
def MON_I_THROT : Fld := ⟨0xf0, 0x10, 2, 1⟩
def MON_I_SUPPLY : Fld := ⟨0xf0, 0x10, 3, 1⟩
def MON_I_REF : Fld := ⟨0xf0, 0x10, 4, 1⟩
def MON_I_TSBAD : Fld := ⟨0xf0, 0x10, 5, 1⟩

/-! Page 0x100. -/
def ETH_EN : Fld := ⟨0x100, 0x40, 0, 1⟩
def ETH_SPEED : Fld := ⟨0x100, 0x40, 1, 2⟩
def ETH_DISC_EN : Fld := ⟨0x100, 0x40, 3, 1⟩
def ETH_APOLL : Fld := ⟨0x100, 0x40, 4, 1⟩
def ETH_PHYAD : Fld := ⟨0x100, 0x40, 8, 5⟩
def ETH_MAC_LO : Fld := ⟨0x100, 0x44, 0, 32⟩
def ETH_MAC_HI : Fld := ⟨0x100, 0x48, 0, 16⟩
def ETH_IP : Fld := ⟨0x100, 0x4c, 0, 32⟩
def ETH_HPORT : Fld := ⟨0x100, 0x50, 0, 16⟩
def ETH_NOTEMS : Fld := ⟨0x100, 0x50, 16, 16⟩
def ETH_TXL : Fld := ⟨0x100, 0x54, 0, 4⟩
def ETH_RXL : Fld := ⟨0x100, 0x54, 4, 4⟩
def ETH_RXBUF : Fld := ⟨0x100, 0x54, 16, 16⟩
/-- Ring base words: 0 and 1 transmit, 2 and 3 receive. -/
def ETH_RB (i : Nat) : Fld := ⟨0x100, 0x58 + 4 * i, 0, 32⟩
def ETH_TXHEAD : Fld := ⟨0x100, 0x68, 0, 10⟩
def ETH_RXHEAD : Fld := ⟨0x100, 0x68, 16, 10⟩
def ETH_MD_DATA : Fld := ⟨0x100, 0x6c, 0, 16⟩
def ETH_MD_REG : Fld := ⟨0x100, 0x6c, 16, 5⟩
def ETH_MD_OP : Fld := ⟨0x100, 0x6c, 24, 2⟩
def ETH_MD_C45 : Fld := ⟨0x100, 0x6c, 26, 1⟩
def ETH_MD_GO : Fld := ⟨0x100, 0x6c, 31, 1⟩
def ETH_LINK : Fld := ⟨0x100, 0x70, 0, 1⟩
def ETH_NSES : Fld := ⟨0x100, 0x70, 16, 8⟩
def ETH_TAGN : Fld := ⟨0x100, 0x74, 0, 16⟩
def ETH_SEQN : Fld := ⟨0x100, 0x74, 16, 16⟩
def ETH_RXDROPN : Fld := ⟨0x100, 0x78, 0, 16⟩
def ETH_HCRCN : Fld := ⟨0x100, 0x78, 16, 16⟩
def ETH_I_RING : Fld := ⟨0x100, 0x10, 0, 1⟩

/-! Page 0x104. -/
def HSP_OPEN : Fld := ⟨0x104, 0x40, 0, 8⟩
def HSP_S_TC (i : Nat) : Fld := ⟨0x104, 0x44 + 4 * i, 0, 6⟩
def HSP_S_SLOT (i : Nat) : Fld := ⟨0x104, 0x44 + 4 * i, 8, 5⟩
def HSP_HCRCN : Fld := ⟨0x104, 0x70, 0, 16⟩
def HSP_CUTN : Fld := ⟨0x104, 0x70, 16, 16⟩
def HSP_PROVEN : Fld := ⟨0x104, 0x74, 0, 16⟩
def HSP_I_OPEN : Fld := ⟨0x104, 0x10, 0, 1⟩

/-! Page 0x108. -/
def I2T_ADDR : Fld := ⟨0x108, 0x40, 0, 7⟩
def I2T_EN : Fld := ⟨0x108, 0x40, 8, 1⟩
def I2T_S_TC (i : Nat) : Fld := ⟨0x108, 0x44 + 4 * i, 0, 6⟩
def I2T_S_OPEN (i : Nat) : Fld := ⟨0x108, 0x44 + 4 * i, 8, 1⟩
def I2T_HCRCN : Fld := ⟨0x108, 0x50, 0, 16⟩
def I2T_PROVEN : Fld := ⟨0x108, 0x50, 16, 16⟩
def I2T_I_OPEN : Fld := ⟨0x108, 0x10, 0, 1⟩

/-! Pages 0x10c–0x10d. -/
def UART_DIVI (p : Nat) : Fld := ⟨(0x10c + p), 0x40, 0, 12⟩
def UART_DIVF (p : Nat) : Fld := ⟨(0x10c + p), 0x40, 12, 4⟩
def UART_FMT (p : Nat) : Fld := ⟨(0x10c + p), 0x40, 16, 3⟩
def UART_EN (p : Nat) : Fld := ⟨(0x10c + p), 0x40, 31, 1⟩
def UART_DELEAD (p : Nat) : Fld := ⟨(0x10c + p), 0x44, 0, 4⟩
def UART_DETAIL (p : Nat) : Fld := ⟨(0x10c + p), 0x44, 4, 4⟩
def UART_GAP (p : Nat) : Fld := ⟨(0x10c + p), 0x44, 8, 8⟩
def UART_TXD (p : Nat) : Fld := ⟨(0x10c + p), 0x48, 0, 8⟩
def UART_RXD (p : Nat) : Fld := ⟨(0x10c + p), 0x4c, 0, 8⟩
def UART_RXERR (p : Nat) : Fld := ⟨(0x10c + p), 0x4c, 8, 1⟩
def UART_RXVALID (p : Nat) : Fld := ⟨(0x10c + p), 0x4c, 9, 1⟩
def UART_RXN (p : Nat) : Fld := ⟨(0x10c + p), 0x50, 0, 7⟩
def UART_TXN (p : Nat) : Fld := ⟨(0x10c + p), 0x50, 8, 7⟩
def UART_BIAS (p : Nat) : Fld := ⟨(0x10c + p), 0x50, 16, 1⟩
def UART_COLLN (p : Nat) : Fld := ⟨(0x10c + p), 0x54, 0, 16⟩
def UART_TXOVN (p : Nat) : Fld := ⟨(0x10c + p), 0x54, 16, 16⟩
def UART_I_EOF (p : Nat) : Fld := ⟨(0x10c + p), 0x10, 0, 1⟩
def UART_I_COLL (p : Nat) : Fld := ⟨(0x10c + p), 0x10, 1, 1⟩
def UART_I_TXE (p : Nat) : Fld := ⟨(0x10c + p), 0x10, 2, 1⟩

/-! Page 0x110. -/
/-- Bit of pin `k`. -/
def GPIO_DIR (k : Nat) : Fld := ⟨0x110, 0x40 + 4 * (k / 32), k % 32, 1⟩
/-- Bit of pin `k`. -/
def GPIO_OUT (k : Nat) : Fld := ⟨0x110, 0x48 + 4 * (k / 32), k % 32, 1⟩
/-- Bit of pin `k`. -/
def GPIO_IN (k : Nat) : Fld := ⟨0x110, 0x50 + 4 * (k / 32), k % 32, 1⟩
/-- Bit of pin `k`. -/
def GPIO_EVT (k : Nat) : Fld := ⟨0x110, 0x58 + 4 * (k / 32), k % 32, 1⟩
def GPIO_PULL (k : Nat) : Fld := ⟨0x110, 0x60 + 4 * (k / 8), 4 * (k % 8), 2⟩
def GPIO_EDGE (k : Nat) : Fld := ⟨0x110, 0x60 + 4 * (k / 8), 4 * (k % 8) + 2, 2⟩
def GPIO_CS_SIG (k : Nat) : Fld := ⟨0x110, 0x100 + 4 * (k / 4), 8 * (k % 4) + 0, 4⟩
def GPIO_CS_INV (k : Nat) : Fld := ⟨0x110, 0x100 + 4 * (k / 4), 8 * (k % 4) + 6, 1⟩
def GPIO_CS_EN (k : Nat) : Fld := ⟨0x110, 0x100 + 4 * (k / 4), 8 * (k % 4) + 7, 1⟩
def GPIO_I_EVT : Fld := ⟨0x110, 0x10, 0, 1⟩

/-! Page 0x114. -/
def TIN_POL : Fld := ⟨0x114, 0x40, 0, 8⟩
def TIN_DEB : Fld := ⟨0x114, 0x40, 8, 8⟩
def TIN_LVL : Fld := ⟨0x114, 0x44, 0, 8⟩
def TIN_CNT (i : Nat) : Fld := ⟨0x114, 0x50 + 4 * i, 0, 16⟩
def TIN_I_CHG : Fld := ⟨0x114, 0x10, 0, 1⟩

/-! Page 0x118. -/
def DBG_MODE : Fld := ⟨0x118, 0x40, 0, 2⟩
def DBG_ATTACH : Fld := ⟨0x118, 0x40, 8, 1⟩
def DBG_CCODE : Fld := ⟨0x118, 0x40, 16, 8⟩
def DBG_ARM : Fld := ⟨0x118, 0x44, 0, 1⟩
def DBG_REQ : Fld := ⟨0x118, 0x44, 8, 2⟩
def DBG_IDCODE : Fld := ⟨0x118, 0x48, 0, 32⟩
def DBG_I_MODE : Fld := ⟨0x118, 0x10, 0, 1⟩

end Reg

end Sys2Proof.Machine
end

