-- ==== Sys2Proof/Machine/State.lean ====
section
/-! DEFINITION. The state of the Gofel: the register space, the memories, what each block holds beside
its registers, the responses and outputs, and the queue of the commands that wait. Plain data. -/

namespace Sys2Proof.Machine

/-! ## Register pages (chapter 3) -/

/-- A LOCK challenge outstanding on a page: its value, the tenant that read it and the REF48 clock
at which the page returned it (R73, R74). -/
structure Challenge where
  value : Nat
  tc    : Nat
  clk   : Nat
  deriving DecidableEq, Repr

/-- The replay record of a page: the word offset, the requester and the value of the last
clearing read (R83). -/
structure Replay where
  off   : Nat
  tc    : Nat
  value : Word
  deriving DecidableEq, Repr

/-- What a page holds beside its registers. -/
structure PageState where
  /-- the outstanding LOCK challenge (R73) -/
  chal    : Option Challenge := none
  /-- consecutive failed LOCK writes, modulo 3 (R77) -/
  fails   : Nat := 0
  /-- the replay record (R83) -/
  replay  : Option Replay := none
  /-- a scrub has completed since the last reset (R86) -/
  scrubbed : Bool := false
  /-- the page has not been scrubbed since its domain stopped (R86) -/
  stale   : Bool := false
  /-- the page has been rewritten from the sealed copy in the present mismatch run (R87) -/
  mended  : Bool := false
  /-- upsets of configuration words that no write has replaced: byte offset and bits changed (R87) -/
  upsets  : List (Nat × Nat) := []
  deriving DecidableEq, Repr

/-- An event that a block has raised to the log engine (R412): code, tenant (255: the device) and
the eight data bytes of Table 16-6. -/
structure LogEvent where
  code : Nat
  tc   : Nat
  data : List Byte
  deriving DecidableEq, Repr

/-- The result of the last access or frame that the block answered (R64, R559). -/
structure Response where
  code : Status := .ok
  /-- words or bytes returned, lowest first -/
  data : List Nat := []
  /-- the carry code of each word returned (R80) -/
  cc   : List Nat := []
  /-- words completed (HF_DONE) -/
  done : Nat := 0
  deriving DecidableEq, Repr

/-- Where the block puts what it sends. -/
inductive Channel where
  /-- a NOTE or a response on a host interface: its code (Table 23-1) -/
  | host (iface : Nat)
  /-- an Ethernet frame of firmware -/
  | ethernet
  /-- a management frame or segment on the tone channel -/
  | tone
  /-- a downlink symbol of the pulse channel -/
  | pulse
  /-- a frame to the upstream or the downstream neighbour of the sweep chain -/
  | chainUp | chainDown
  /-- a byte on an RS-485 line -/
  | uart (n : Nat)
  /-- an operation on the MDIO bus -/
  | mdio
  /-- a command on the QSPI bus -/
  | qspi
  deriving DecidableEq, Repr

/-- One thing the block has sent: where, and its bytes or fields in the order of its rule. -/
structure Output where
  chan : Channel
  data : List Nat
  deriving DecidableEq, Repr

/-! ## Cycle-time fabric (chapter 2) -/

/-- One polarity of the zero-crossing detector of a channel (R34, R35, R37, R38). -/
structure CrossState where
  /-- the detector is armed -/
  armed    : Bool := false
  /-- present samples at or beyond the level in succession, 0 to 2 -/
  count    : Nat := 0
  /-- tick and value of the last present sample before the sign change -/
  before   : Option (Nat × Int) := none
  /-- tick and value of the first present sample after it -/
  after    : Option (Nat × Int) := none
  /-- tick of the last accepted crossing -/
  last     : Option Nat := none
  /-- the most recent measurements against the stamp while LOCKED, newest first, at most 16 -/
  meas     : List Nat := []
  /-- the measurements meet R38 -/
  ok       : Bool := false
  /-- the last valid value since the last re-phase (R53) -/
  lastOk   : Option Nat := none
  deriving DecidableEq, Repr

/-- What the CTF keeps of one phase voltage channel, codes 1 to 6 (R34 to R38, R45). -/
structure ChanState where
  pos       : CrossState := {}
  neg       : CrossState := {}
  /-- intervals between accepted positive crossings in the range of R37, in succession, at most 3 -/
  good      : Nat := 0
  /-- cycles for which the channel has been qualified -/
  qualCyc   : Nat := 0
  /-- consecutive cycles qualified with a valid offset (R45) -/
  revertCyc : Nat := 0
  /-- declared lost since the last accepted positive crossing (R36) -/
  lost      : Bool := true
  deriving DecidableEq, Repr

/-- What the CTF holds beside its registers. -/
structure CtfState where
  /-- channels of codes 1 to 6 -/
  chans     : List ChanState := [{}, {}, {}, {}, {}, {}]
  /-- cycle number and phase; they stand at zero in the stamp until the seed (R32) -/
  cyc       : Nat := 0
  ph        : Nat := 0
  /-- the seed has been accepted in this cold start (R32) -/
  seeded    : Bool := false
  /-- the CTF has been LOCKED since the cold start (R32) -/
  everLocked : Bool := false
  /-- the tick at which the present cycle opened -/
  cycTick   : Nat := 0
  /-- the present cycle ends at the next positive crossing of the reference (R47) -/
  rephase   : Bool := false
  /-- HOLDOVER has been entered and no re-phase has left it -/
  leaving   : Bool := false
  /-- the CTF has left LOCKED in the present cycle (R148) -/
  unlocked  : Bool := false
  /-- reference crossings within 16 ct in succession (R41) -/
  lockCnt   : Nat := 0
  /-- reference crossings beyond 256 ct in succession (R41) -/
  overCnt   : Nat := 0
  /-- cycles since entry to ACQUIRE (R41) -/
  acqCyc    : Nat := 0
  /-- CTF_FORCE_NEXT waits for the next boundary (R45) -/
  forceNext : Bool := false
  /-- periods of LOCKED cycles since the last re-phase, newest first, at most 16 (R46) -/
  periods   : List Nat := []
  /-- the pair registers are frozen (R57) -/
  pairHeld  : Bool := false
  /-- a validated commit waits for this cycle (R51) -/
  commitAt  : Option Nat := none
  /-- the active scheduling bank, entry by entry, 64 bits each (R49) -/
  active    : List (Nat × BitVec 64) := []
  /-- entries of the active bank that assert their signal (R50) -/
  asserted  : List Nat := []
  /-- entries of consumer PLP whose derived quiet slot is open (R48) -/
  quiet     : List Nat := []
  /-- count written to CTF_UTC_SET and waiting (R56) -/
  utcSet    : Option Nat := none
  /-- UTC has not been set since the RTC lost power (R56) -/
  utcLost   : Bool := true
  /-- 1/32,768 s of the RTC not yet a whole fraction, in 1/48,000,000 -/
  rtcAcc    : Nat := 0
  /-- XT32 runs (R30) -/
  xt32      : Bool := true
  /-- retries of the REF48 check while the device is held on ROSC (R29) -/
  refWait   : Option Nat := none
  deriving DecidableEq, Repr

/-! ## Tenancy (chapter 4) -/

/-- A grant or revoke that has not completed: target, class, index, grant (R102). -/
structure GrantCmd where
  tc    : Nat
  cls   : Nat
  idx   : Nat
  grant : Bool
  deriving DecidableEq, Repr

/-- A tenant reset in progress (R120, R121). -/
structure TenantReset where
  tc    : Nat
  full  : Bool
  /-- the state the tenant returns to -/
  back  : Nat
  /-- requested through TNC_CX_SOFTRST -/
  own   : Bool
  /-- the grants have been revoked, with the code of that -/
  code  : Option Status := none
  deriving DecidableEq, Repr

/-- What the tenancy pages hold beside their registers. -/
structure TncState where
  resets   : List TenantReset := []
  grantCmd : Option GrantCmd := none
  /-- alias maps: key 256 t + slot, the page mapped (R107) -/
  aliases  : List (Nat × Nat) := []
  /-- quota remaining in the period: key 64 r + t, r = 1 to 4 (R115) -/
  left     : List (Nat × Nat) := []
  /-- quota in force: key 64 r + t (R105) -/
  quota    : List (Nat × Nat) := []
  /-- units to be debited from a tenant's next refill: key 64 r + t (R283, R365) -/
  debt     : List (Nat × Nat) := []
  /-- key 4 r + class: one more than the tenant served last in the period (R113) -/
  turn     : List (Nat × Nat) := []
  /-- keys 4 r + class for which TNC_RR names a tenant that has been served (R113) -/
  served   : List Nat := []
  /-- one more than the first cycle of the period in force, by resource (R105, Table 4-4) -/
  period   : List (Nat × Nat) := []
  /-- sequence number of each tenant's ring records (Table 4-7) -/
  seq      : List (Nat × Nat) := []
  /-- outcomes announced in the present period: key 1024 t + 16 r + code (R118) -/
  told     : List Nat := []
  /-- the sealing steps wait for the seal marker: the digest of the sealed copy (R110) -/
  sealing  : Option Nat := none
  /-- tick of a valid unseal arming (R112) -/
  armed    : Option Nat := none
  /-- TC01 has been sealed at least once (Table 4-8) -/
  everSealed : Bool := false
  deriving DecidableEq, Repr

/-! ## Conversion (chapter 5) -/

/-- Sums over one cycle: samples, their sum and the sum of their squares. -/
structure CycleSums where
  n   : Nat := 0
  sum : Int := 0
  sq  : Nat := 0
  deriving DecidableEq, Repr

/-- What the ACS keeps of one converter and, where it is the primary of a channel, of the channel. -/
structure ConvState where
  /-- tick of the previous sample instant (R127) -/
  last   : Option Nat := none
  /-- the integrator, in 1/65,536 of a code (R135, log entry 13) -/
  integ  : Int := 0
  /-- a zero step has completed with OK since the last change (R149) -/
  zeroOk : Bool := false
  /-- a sample of the present cycle clipped -/
  clip   : Bool := false
  /-- raw samples of the present cycle; the squares are of the raw sample plus ACS_OFS (R147, R148) -/
  raw    : CycleSums := {}
  /-- calibrated samples of the channel: present, last and last but one cycle (R143, R146) -/
  cal    : CycleSums := {}
  cal1   : CycleSums := {}
  cal2   : CycleSums := {}
  deriving DecidableEq, Repr

/-- The calibration step in progress (R147 to R150). -/
structure CalStep where
  /-- the full-scale step; otherwise the zero step -/
  full    : Bool
  conv    : Nat
  ncyc    : Nat
  /-- cycles gathered and cycles since the start -/
  got     : Nat := 0
  elapsed : Nat := 0
  /-- a boundary has opened the first whole cycle -/
  opened  : Bool := false
  /-- the step ends with SKIPPED at the next boundary -/
  abort   : Bool := false
  clip    : Bool := false
  /-- sums of the converter and of its partner -/
  a       : CycleSums := {}
  b       : CycleSums := {}
  deriving DecidableEq, Repr

/-- What the ACS holds beside its registers. -/
structure AcsState where
  convs    : List (Nat × ConvState) := []
  cal      : Option CalStep := none
  /-- the pairing of the cycle before the present one: ACS_PAIR of banks 0 to 7 and ACS_VPAIR -/
  pairs    : List Nat := [0, 0, 0, 0, 0, 0, 0, 0, 0]
  /-- the channel after which the continuity test goes on, and cycles since its last round -/
  contNext : Nat := 0
  contCyc  : Nat := 0
  /-- the channel under test, and whether its test cycle has closed -/
  testing  : Option Nat := none
  testDone : Bool := false
  deriving DecidableEq, Repr

/-! ## Metrology (chapter 6) -/

/-- A sample word as metrology has received it: its place in units of 32 ct, its value, whether it is
present, and its overrange and test flags (R140, R158). -/
structure Samp where
  idx  : Nat
  val  : Int
  ok   : Bool
  ovr  : Bool
  test : Bool
  deriving DecidableEq, Repr

/-- The samples of one channel over one cycle: values with missing positions replaced, and whether
each was present; the partner converter's stream where the channel is paired (R158). -/
structure CycleStream where
  prim : List (Int × Bool) := []
  half : List (Int × Bool) := []
  ovr  : Bool := false
  test : Bool := false
  deriving DecidableEq, Repr

/-- What is fixed at the boundary that opens a cycle: the CTF state, the seal, the channels under a
magnetic condition, the tariff input levels, the configuration (R155, R175, R178, R183, R189). -/
structure CycleOpen where
  st     : Nat := 0
  sealed : Bool := false
  field  : Nat := 0
  tin    : Nat := 0
  force  : List (Nat × Word) := []
  deriving DecidableEq, Repr

/-- A cycle that has ended and waits for its close (R155 to R157). -/
structure CycleEnd where
  opening : CycleOpen
  cyc     : Nat
  closeSt : Nat
  rephase : Bool
  /-- length in REF48 clocks (R166) -/
  len     : Nat
  /-- the channel that carried a continuity test -/
  cont    : Option Nat
  /-- the reference channel code -/
  ref     : Nat
  deriving DecidableEq, Repr

/-- The result of one channel for one cycle (R170, R172). -/
structure ChanRec where
  /-- energies in 2^−16 µWh, µvarh, µVAh -/
  p    : Int := 0
  q    : Int := 0
  sa   : Int := 0
  quad : Nat := 0
  code : Status := .ok
  flags : Nat := 0
  rep  : Nat := 0
  /-- readbacks: mA or mV, mW, mvar, mVA, angle -/
  rms  : Nat := 0
  pw   : Int := 0
  qw   : Int := 0
  sw   : Nat := 0
  ang  : Int := 0
  deriving DecidableEq, Repr

/-- What metrology keeps of one channel: the last result neither substituted nor zeroed, and the
length of the present substituted run (R159). -/
structure MteChan where
  good : ChanRec := {}
  run  : Nat := 0
  deriving DecidableEq, Repr

/-- What metrology holds beside its registers. -/
structure MteState where
  /-- samples of the present cycle by channel, newest first -/
  cur     : List (Nat × List Samp) := []
  /-- the cycle that waits for its close, and the one before it -/
  last    : List (Nat × CycleStream) := []
  prev    : List (Nat × CycleStream) := []
  opening : CycleOpen := {}
  due     : Option CycleEnd := none
  chans   : List (Nat × MteChan) := []
  /-- unmeasured cycles with voltage in the present run (R156) -/
  unmeas  : Nat := 0
  deriving DecidableEq, Repr

/-! ## Accumulators, virtual meters and pulse outputs (chapter 7) -/

/-- What the accumulators hold beside their registers. -/
structure AccState where
  /-- residues of virtual meters: key 4 m + 0 active, 1 reactive, 2 apparent (R185, Table 22-4) -/
  vres    : List (Nat × Nat) := []
  /-- integer increments of the last close: key 8 ch + q, and 8 m + q for meters (R191) -/
  incCh   : List (Nat × Nat) := []
  incVm   : List (Nat × Nat) := []
  /-- length of the closed cycle whose spill increments are due (R192) -/
  spillDue : Option Nat := none
  /-- PLS_SRC of each output at the opening boundary of that cycle -/
  srcOpen : List Nat := []
  /-- meters cleared at the boundary that closed the cycle that waits (R188) -/
  cleared : List Nat := []
  /-- terms whose channel has left the view: key 16 m + j (R186) -/
  outside : List Nat := []
  /-- no further cycle is added (R548) -/
  frozen  : Bool := false
  /-- a close has been made, and op 0x2 has been accepted, since the cold start (R317) -/
  closed  : Bool := false
  restored : Bool := false
  /-- closes with PLS_OVR in the present run, by output (R195) -/
  ovrRun  : List (Nat × Nat) := []
  /-- mismatching edges in the present run, by output (R196) -/
  rbRun   : List (Nat × Nat) := []
  /-- outputs with an edge whose read-back is due (R196) -/
  edges   : List Nat := []
  deriving DecidableEq, Repr

/-! ## Power quality (chapter 8) -/

/-- An open event of the PQE: its kind and channel byte (Table 8-3), the tick of its start, the
extreme or last value, the channel or verdict of PQE_E_VAL2, and whether a phase of its bus has been
excluded since it opened (R206, R213). -/
structure PqEvent where
  kind : Nat
  ch   : Nat
  tick : Nat
  ext  : Nat
  val2 : Nat
  excl : Bool := false
  deriving DecidableEq, Repr

/-- What the PQE gathers for a phase channel with an open voltage-sense event (R210): half-cycles since
it opened, whether it has been classified, whether a block end asks for it again, the bound channels
that were live before, mean squares by channel, and phasor products by phase and channel. -/
structure VSense where
  half  : Nat := 0
  seen  : Bool := false
  again : Bool := false
  live  : List Nat := []
  sq    : List (Nat × (Nat × Nat)) := []
  prod  : List (Nat × (Int × Int)) := []
  deriving DecidableEq, Repr

/-- The harmonic sums of a channel over a block (R201): usable cycles, mean squares by order in
1/2^55 code², the angles of the first usable cycle and the sums of the differences from them. -/
structure HarmSum where
  used  : Nat := 0
  z     : List Nat := []
  first : List Int := []
  diff  : List Int := []
  deriving DecidableEq, Repr

/-- The latched results of a channel (Table 8-5). -/
structure HarmRes where
  sts   : Nat := 0
  used  : Nat := 0
  h     : Nat := 0
  async : Bool := false
  noang : Bool := false
  cyc   : Nat := 0
  h1    : Nat := 0
  thd   : Nat := 0
  mag   : List Nat := []
  ang   : List Nat := []
  deriving DecidableEq, Repr

/-- A block in progress, or one that has ended and waits to be latched (R201 to R204, R208): cycles,
whether one closed in FLYWHEEL or in D2, sums by channel, unbalance by bus as cycles and sum of
squares in 1/2^40, the last cycle, the configuration in force and whether it ended without a
lock. -/
structure PqeBlock where
  n     : Nat := 0
  hold  : Bool := false
  cut   : Bool := false
  chans : List (Nat × HarmSum) := []
  unb   : List (Nat × (Nat × Nat)) := []
  cyc   : Nat := 0
  agg   : Nat := 0
  force : List (Nat × Word) := []
  free  : Bool := false
  deriving DecidableEq, Repr

/-- What the PQE holds beside its registers. -/
structure PqeState where
  /-- samples of the present cycle by channel, newest first; the last cycle by channel -/
  cur    : List (Nat × List Samp) := []
  last   : List (Nat × List (Int × Bool)) := []
  /-- the window due: 1 at phase 0, 2 at phase 32,768 (R205) -/
  due    : Nat := 0
  /-- the last window of each phase channel: sum of squares and positions -/
  win    : List (Nat × (Nat × Nat)) := []
  /-- open events, oldest first -/
  opens  : List PqEvent := []
  /-- voltage-sense events by phase channel code -/
  vs     : List (Nat × VSense) := []
  /-- consecutive counts: 16 bus + 0, 1, 2 outside FREQ_HIGH, LOW, RANGE; 3, 4, 5 inside; 6 positive,
  7 negative cycles (R207, R208) -/
  runs   : List (Nat × Nat) := []
  /-- the last angles of the healthy bus, newest first, at most 16: of phase channels by code, of
  current channels by 16 + channel, in 1/65,536 of a turn (R210) -/
  held   : List (Nat × List Int) := []
  /-- channels whose last continuity result lay above the limit (R209) -/
  ctOver : List Nat := []
  block  : PqeBlock := {}
  ended  : Option PqeBlock := none
  res    : List (Nat × HarmRes) := []
  /-- sequence number of the next record (R213) -/
  seq    : Nat := 0
  deriving DecidableEq, Repr

/-! ## Inference (chapters 9 to 11) -/

/-- An entry of the Sparge list: its 512 bits and, where a Barm list made it, the list and the index
of its entry (R225, R272). -/
structure SpEntry where
  word : BitVec 512
  src  : Option (Nat × Nat) := none
  deriving DecidableEq, Repr

/-- A tile on an engine: its entry, the level at its start, and whether D1 or a divisor above 1 has
touched it (R228, R235, R237, R241). -/
structure RunTile where
  entry : SpEntry
  level : Nat
  deg   : Bool
  deriving DecidableEq, Repr

/-- A burst from its arming to its end (R238 to R240). -/
structure Burst where
  clm   : Nat
  rep   : Nat
  len   : Nat
  gap   : Nat
  start : Nat
  lead  : Nat
  cost  : Nat
  /-- 0 armed, 1 draining or in a gap, 2 in a repetition -/
  phase : Nat := 0
  /-- repetitions begun, ungated ticks run -/
  done  : Nat := 0
  ran   : Nat := 0
  /-- started in FLYWHEEL or HOLDOVER -/
  held  : Bool := false
  deriving DecidableEq, Repr

/-- What the Tun array holds beside its registers and memories. -/
structure TunState where
  /-- the Sparge list, oldest first -/
  sparge : List SpEntry := []
  /-- running and staged tiles by engine -/
  run    : List (Nat × RunTile) := []
  staged : List (Nat × SpEntry) := []
  /-- clusters whose resident region becomes invalid at their next tile boundary (R224) -/
  resClr : List Nat := []
  burst  : Option Burst := none
  /-- tick of the gate's last edge, tick from which gated ticks are not yet counted, gated ticks
  counted in the present cycle (R233) -/
  gateAt   : Nat := 0
  gateFrom : Nat := 0
  gateCt   : Nat := 0
  /-- edges sent to the gauge: rising, stamp (R240) -/
  edges  : List (Bool × Nat) := []
  deriving DecidableEq, Repr

/-- A ROUTE or COMBINE that waits for the router (R244). -/
structure RouterOp where
  combine : Bool
  desc    : Nat
  wcnt    : Nat
  wval    : Nat
  scnt    : Nat
  tc      : Nat
  item    : Nat
  dlc     : Nat
  src     : Nat × Nat
  deriving DecidableEq, Repr

/-- What the router holds beside its registers; the shadow weight bank stands in the registers. -/
structure LtrState where
  ops    : List RouterOp := []
  /-- words of the active weight bank that differ from reset (R249) -/
  active : List (Nat × Word) := []
  deriving DecidableEq, Repr

/-- The ring of a tenant as in force when a list was admitted (R268, R291). -/
structure RingCfg where
  base : Nat := 0
  sl   : Nat := 0
  cl   : Nat := 0
  deriving DecidableEq, Repr

/-- An EXPERT entry that has been expanded: its index, group counter, tiles generated, and the first
code of its tiles (R281). -/
structure ExpertGroup where
  idx   : Nat
  ctr   : Nat
  tiles : Nat
  code  : Status
  deriving DecidableEq, Repr

/-- A Barm list from the pool to its completion (R274 to R286). -/
structure BarmList where
  id      : Nat
  tc      : Nat
  cls     : Nat
  ring    : RingCfg
  ncnt    : Nat
  cost    : Nat
  item    : Nat
  fence   : Nat
  dead    : Nat
  entries : List (BitVec 512)
  /-- 0 pooled, 1 admitted, 2 started -/
  phase   : Nat := 0
  /-- the refill period of its admission -/
  window  : Nat := 0
  started : Nat := 0
  delayed : Bool := false
  /-- physical counters of the local ones -/
  ctrs    : List Nat := []
  /-- index of the next entry to append -/
  next    : Nat := 0
  /-- EXPERT and INSIGHT entries reached and not completed -/
  waits   : List Nat := []
  groups  : List ExpertGroup := []
  /-- codes of completed entries, by index -/
  codes   : List (Nat × Status) := []
  /-- ROUTE entries whose result an EXPERT may expand (R280) -/
  routes  : List Nat := []
  ticks   : Nat := 0
  tiles   : Nat := 0
  sat     : Nat := 0
  skc     : Nat := 0
  /-- a tile completed with DEGRADED -/
  deg     : Bool := false
  /-- passed over while a safety loop had reduced the capacity (R289) -/
  safe    : Bool := false
  deriving DecidableEq, Repr

/-- A completion record held for a full ring (R287). -/
structure HeldRecord where
  tc   : Nat
  ring : RingCfg
  rec' : BitVec 512
  deriving DecidableEq, Repr

/-- What the Barm list engine holds beside its registers. -/
structure BarmState where
  /-- lists, in the order in which they were read -/
  lists  : List BarmList := []
  /-- started lists, in the order in which they started -/
  order  : List Nat := []
  /-- number of the next list -/
  nextId : Nat := 0
  /-- generated tiles that wait for room (R279) -/
  backlog : List SpEntry := []
  /-- physical counters in use: 0 to 111 by lists, 112 to 127 by expansions -/
  used   : List Nat := []
  held   : List HeldRecord := []
  /-- window length and origin in force (R267) -/
  wlen   : Nat := 8
  wofs   : Nat := 0
  /-- a window has begun -/
  opened : Bool := false
  /-- tick at which the present stall began (R279) -/
  stall  : Option Nat := none
  /-- first and last cycle of the last stay in D2 or below (R290) -/
  below  : Option (Nat × Option Nat) := none
  deriving DecidableEq, Repr

/-! ## Cellar (chapter 18) -/

/-- A write of a device writer that waits for the write block to lift (R469): source code of
CEL_IR_SRC, area code of CEL_IR_UNIT, first group and the data of the groups. -/
structure CelDevWrite where
  src   : Nat
  area  : Nat
  first : Nat
  data  : List (BitVec 64)
  deriving DecidableEq, Repr

/-- A command of a ring of the Cellar or of the security engine, or a transmit descriptor of the
PLM, that has been taken and not completed: its tenant, class, words, cost, period of admission, submission
stamp, and whether it has started. -/
structure RingItem where
  tc     : Nat
  cls    : Nat
  word   : BitVec 512
  cost   : Nat := 0
  period : Nat := 0
  at'    : Nat := 0
  deriving DecidableEq, Repr

/-- A completion record of 256 bits held for a full ring (R367): tenant or endpoint, its words. -/
structure HeldWord where
  key  : Nat
  rec' : BitVec 256
  deriving DecidableEq, Repr

/-- A wipe of a tenant unit in progress (R458 to R460): its next state and holder, whether a grant
command waits for it, and the tenant that had reserved a unit released under R460. -/
structure UnitWipe where
  unit    : Nat
  state   : Nat
  holder  : Nat
  command : Bool
  release : Option Nat := none
  deriving DecidableEq, Repr

/-- A Cellar command that runs: its item, the groups that it writes, whether it started late. -/
structure CelRun where
  item : RingItem
  data : List (BitVec 64)
  late : Bool
  deriving DecidableEq, Repr

/-- The interruption record of the always-on domain (R471). -/
structure CelIr where
  src  : Nat
  last : Nat
  item : Nat
  unit : Nat
  deriving DecidableEq, Repr

/-- What the Cellar holds beside its registers. -/
structure CelState where
  /-- groups that differ from manufacture: 64 data bits, 8 check bits above them (R454, R455) -/
  groups : List (Nat × BitVec 72) := []
  /-- the list of known-bad groups (R473) -/
  bad    : List Nat := []
  /-- the write block of the PMU, and device writes that wait for it (R469) -/
  queued : List CelDevWrite := []
  /-- tenant commands admitted, and the one that runs (R465) -/
  items  : List RingItem := []
  run    : Option CelRun := none
  held   : List HeldWord := []
  wipes  : List UnitWipe := []
  /-- tick of the arming of CEL_BPARM (R461) -/
  armed  : Option Nat := none
  /-- the interruption record in the always-on domain (R471) -/
  ir     : Option CelIr := none
  /-- rings stopped by a system reset until TC00 writes their base (R540) -/
  stopped : List Nat := []
  deriving DecidableEq, Repr

/-! ## Control complex and management core (chapter 12) -/

/-- The exceptions that an access of a hart raises (R293, R297, R301). -/
inductive AccessFault where
  | load | store | fetch
  deriving DecidableEq, Repr

/-- What an application hart holds beside its page: its device-specific CSRs (Table 12-3) and the
result of its last access. CCX_TC and CCX_TCV stand in CCX_CTXh. -/
structure Hart where
  tsts  : Nat := 0
  stcmp : BitVec 64 := BitVec.allOnes 64
  rply  : Bool := false
  /-- CCX_RSTAT: code and word address -/
  rstat : Nat := 0
  /-- bit 16 of mip (R299) -/
  irq16 : Bool := false
  /-- the access fault of the last access -/
  fault : Option AccessFault := none
  /-- REF48 clock of the last kick, in 1/65,536 (R314) -/
  kicked : Nat := 0
  deriving DecidableEq, Repr

/-- A block of 64 bytes of the LPDDR4X in the caches of the harts, and whether a store has changed it since it was
last written back (R295). -/
structure CacheBlock where
  data  : BitVec 512
  dirty : Bool := false
  deriving DecidableEq, Repr

/-- A QSPI command that runs (R305): opcode, direction, address as sent, length. -/
structure QspiCmd where
  opc  : Nat
  dir  : Nat
  addr : Nat
  len  : Nat
  deriving DecidableEq, Repr

/-- The image that runs, as its header describes the application section (R307, R315). -/
structure BootImage where
  aofs : Nat
  alen : Nat
  load : Nat
  dig  : List Byte
  deriving DecidableEq, Repr

/-- What the control complex holds beside its registers. -/
structure CcxState where
  /-- H0 to H3 -/
  harts  : List (Nat × Hart) := []
  /-- words of the platform interrupt controller: priorities, enables, thresholds -/
  plic   : List (Nat × Word) := []
  /-- sources claimed and not completed -/
  served : List Nat := []
  /-- words of the core timer: msip and mtimecmp, and what mtime exceeds the count of REF48 by -/
  timer  : List (Nat × Word) := []
  mtimeOfs : Nat := 0
  /-- control SRAM -/
  sram   : List Host.Cell := []
  /-- management SRAM (R294) -/
  mgmt   : List Host.Cell := []
  /-- an initialisation of the LPDDR4X runs (R304) -/
  training : Bool := false
  /-- the boot ROM is in recovery: the harts are held in reset, the slots are not protected (R313) -/
  recovery : Bool := false
  /-- a QSPI command runs -/
  qspi   : Option QspiCmd := none
  /-- the command that the restore sequencer runs: op and page (R317) -/
  seq    : Option (Nat × Nat) := none
  /-- a reload of the application section runs (R315) -/
  reload : Bool := false
  /-- blocks of 64 bytes of the LPDDR4X that the caches of the harts hold (R295) -/
  cache  : List (Nat × CacheBlock) := []
  /-- the boot ROM is about to select an image; the image that runs (R310) -/
  bootDue : Bool := false
  image  : Option BootImage := none
  /-- REF48 clock of the last kick of the management watchdog, in 1/65,536 (R314) -/
  wkick  : Nat := 0
  /-- MGC_BOOTOK has completed with OK since this start; root key of the running image (R312, R446) -/
  bootOk : Bool := false
  kidx   : Nat := 0
  deriving DecidableEq, Repr

/-! ## Powerline physical layer (chapter 13) -/

/-- A tone-map set (R333, R335): segment maps 0 to 7 and the cycle-blind map as codes of the active
tones, and the cycle of its issue or receipt. -/
structure MapSet where
  gen   : Nat
  rate  : Nat
  span  : Nat
  maps  : List (List Nat)
  dcorr : Nat
  at'   : Nat
  valid : Bool := true
  deriving DecidableEq, Repr

/-- What the PLT keeps of a neighbour (R333 to R336). -/
structure PltLink where
  issued    : Option MapSet := none
  prev      : Option MapSet := none
  received  : Option MapSet := none
  delta     : Nat := 0
  /-- average SNR in 0.25 dB, by segment and active tone -/
  snr       : List (List Int) := []
  eSum      : Int := 0
  eNum      : Nat := 0
  /-- frames received since the last issue -/
  frames    : Nat := 0
  lastIssue : Option Nat := none
  /-- a frame named an unknown generation (R332) -/
  want      : Bool := false
  deriving DecidableEq, Repr

/-- A tone frame that is being sent (R331, R341): its code, tick and stamp of the first preamble sample
and length in REF48 clocks. -/
structure PltTx where
  code  : Status
  tick  : Nat
  stamp : Nat
  clk   : Nat
  len   : Nat
  deriving DecidableEq, Repr

/-- What the PLT holds beside its registers. -/
structure PltState where
  links : List (Nat × PltLink) := []
  tx    : Option PltTx := none
  /-- PLT_DFLT is low -/
  dflt  : Bool := false
  /-- PLT_TXEN -/
  txen  : Bool := false
  deriving DecidableEq, Repr

/-- A pulse frame in progress (R347): symbols after the sync, stamp of the anchor of its first slot,
smallest C_p*, any of it in FLYWHEEL. -/
structure PlpFrame where
  syms  : List Nat
  start : Nat
  least : Nat
  held  : Bool
  deriving DecidableEq, Repr

/-- A frame that the PLP delivers (R347): stream, payload, direction bit, stamp of its first sync slot,
smallest C_p*, whether it carries HOLDOVER. -/
structure PulseIn where
  stream : Nat
  data   : List Byte
  down   : Bool
  stamp  : Nat
  least  : Nat
  held   : Bool
  deriving DecidableEq, Repr

/-- A downlink request (R348): payload, cycle of the request, what the MAC knows it by. -/
structure Downlink where
  data : List Byte
  cyc  : Nat
  ref  : Nat
  deriving DecidableEq, Repr

/-- A stream of the pulse channel (R343 to R348). -/
structure PlpStream where
  /-- the last decided symbols, oldest first, at most 8: dibit (4 where there is none), C_p*, stamp of
  the anchor, FLYWHEEL -/
  recent : List (Nat × Nat × Nat × Bool) := []
  frame  : Option PlpFrame := none
  /-- slots of the ack window passed -/
  ack    : Option Nat := none
  queued : Option Downlink := none
  /-- dibits of the downlink frame still to send, symbols sent -/
  send   : Option (List Nat × Nat) := none
  deriving DecidableEq, Repr

/-- What the PLP holds beside its registers: its streams, and PLP_DRV1, PLP_DRV2 with PLP_PSEL1,
PLP_PSEL2 of the last pulse. -/
structure PlpState where
  streams : List (Nat × PlpStream) := []
  drv     : Nat × Nat := (0, 0)
  deriving DecidableEq, Repr

/-! ## Powerline MAC (chapter 14) -/

/-- A route that a neighbour has advertised (R373). -/
structure Advert where
  dest : Nat
  next : Nat
  hops : Nat
  cost : Nat
  cyc  : Nat
  deriving DecidableEq, Repr

/-- An entry of the neighbour table (R370). -/
structure Neighbour where
  eui   : Nat
  saddr : Nat
  bidir : Bool
  hello : Nat
  heard : Nat
  level : Nat := 0
  /-- the acknowledgement ratio S -/
  ratio : Nat := 256
  adv   : List Advert := []
  deriving DecidableEq, Repr

/-- A MAC frame that waits to be sent, with what is known of its attempts (R358 to R366). `kind`: 0
relayed, 1 the device's own, 2 a tenant's. -/
structure TxFrame where
  id     : Nat
  kind   : Nat
  type   : Nat
  prio   : Nat
  ackReq : Bool
  nid    : Nat
  orig   : Nat
  fdst   : Nat
  hops   : Nat := 8
  data   : List Byte
  /-- a relayed segment, header, payload and MIC -/
  raw    : Option (List Byte) := none
  ep     : Nat := 0
  tc     : Nat := 0
  cls    : Nat := 0
  item   : Nat := 0
  cost   : Nat := 0
  period : Nat := 0
  /-- stamps of the requested time and of the latest time -/
  asked  : Nat := 0
  latest : Nat := 0
  segs   : Nat := 1
  cur    : Nat := 0
  tries  : Nat := 0
  atts   : Nat := 0
  acked  : Nat := 0
  first  : Option Nat := none
  late   : Bool := false
  occ    : Nat := 0
  nxt    : Nat := 0
  path   : Nat := 0
  /-- the downlink of a node that this frame takes to a repeater -/
  down   : Option Nat := none
  /-- counter and link sequence of the present segment once it has been built -/
  ctr    : Option (Nat × Nat) := none
  deriving DecidableEq, Repr

/-- The attempt that is being made (R355 to R359): frame, segment, next hop, sequence, tick of its start,
whether it waits for an acknowledgement. -/
structure Attempt where
  frame  : Nat
  bytes  : List Byte
  nxt    : Nat
  seq    : Nat
  ackReq : Bool
  tick   : Nat := 0
  code   : Status := .ok
  taken  : Bool := false
  waits  : Bool := false
  deriving DecidableEq, Repr

/-- A frame in reassembly (R364). -/
structure Reassembly where
  orig  : Nat
  nid   : Nat
  type  : Nat
  first : Nat
  next  : Nat
  data  : List Byte
  cyc   : Nat
  deriving DecidableEq, Repr

/-- A management message received (chapter 14): origin, its EUI, the message, the stamp of the first
payload symbol of its frame. -/
structure MgmtIn where
  orig  : Nat
  eui   : Nat
  data  : List Byte
  stamp : Nat
  deriving DecidableEq, Repr

/-- An NRELAY segment received: origin, node EUI, network, node frame, hops remaining. -/
structure RelayIn where
  orig  : Nat
  nid   : Nat
  eui   : Nat
  data  : List Byte
  hops  : Nat
  deriving DecidableEq, Repr

/-- A downlink for a node that the MAC holds (R378): payload layout with its MIC, and the frame of a
tenant where it has one: endpoint, item, tenant, whether it is a DATA downlink. -/
structure NodeDown where
  ref  : Nat
  stream : Nat
  data : List Byte
  isData : Bool
  /-- handed to the PLP, or sent to a repeater -/
  given : Bool := false
  src  : Option (Nat × Nat × Nat) := none
  deriving DecidableEq, Repr

/-- An entry of the node table (R376 to R378). -/
structure NodeEntry where
  eui    : Nat
  nid    : Nat
  ep     : Nat
  stream : Nat
  entry  : Nat
  anchor : Nat
  period : Nat
  cofs   : Nat
  keep   : Nat
  /-- cycle in which the entry became SILENT -/
  silent : Option Nat := none
  /-- last counter accepted upward, last used downward -/
  up     : Nat
  down   : Nat := 0
  heard  : Nat
  /-- smallest C_p* of the last 8 frames, none for a broken or lost one -/
  recent : List (Option Nat) := []
  /-- repeater: short address, role (1 STANDBY, 2 ACTIVE), grant identifier -/
  grant  : Option (Nat × Nat × Nat) := none
  deriving DecidableEq, Repr

/-- A join slot (R375): scheduling entry, stream, anchor code. -/
structure JoinSlot where
  entry  : Nat
  stream : Nat
  anchor : Nat
  deriving DecidableEq, Repr

/-- A repeater grant that this device holds (R382, R383). -/
structure RepGrant where
  id      : Nat
  home    : Nat
  /-- 1 STANDBY, 2 ACTIVE -/
  role    : Nat
  eui     : Nat
  nid     : Nat
  stream  : Nat
  entry   : Nat
  lease   : Nat
  sinks   : Nat
  /-- cycle in which the home was last heard -/
  heard   : Nat
  /-- cycle of the takeover of a STANDBY repeater -/
  taken   : Option Nat := none
  deriving DecidableEq, Repr

/-- A probe that this device makes for a home (R381). -/
structure Probe where
  id     : Nat
  home   : Nat
  eui    : Nat
  nid    : Nat
  period : Nat
  stream : Nat
  entry  : Nat
  since  : Nat
  frames : Nat := 0
  least  : Nat := 65535
  deriving DecidableEq, Repr

/-- A probe that this device, as home, has asked of a peer, and the answer (R381, R382). -/
structure Asked where
  id     : Nat
  peer   : Nat
  stream : Nat
  role   : Nat
  cyc    : Nat
  answer : Option (Status × Nat) := none
  deriving DecidableEq, Repr

/-- A schedule request (R380): index, entry word, stream, remove, cycle. -/
structure SchedReq where
  idx    : Nat
  word   : Nat
  stream : Nat
  remove : Bool
  cyc    : Nat
  deriving DecidableEq, Repr

/-- A verified node uplink kept in D3 (R379). -/
structure StoredUp where
  stream : Nat
  eui    : Nat
  ep     : Nat
  ctr    : Nat
  data   : List Byte
  stamp  : Nat
  held   : Bool
  deriving DecidableEq, Repr

/-- What the powerline MAC holds beside its registers. -/
structure PlmState where
  /-- holders of the endpoints (class 0x4 of Table 4-2); 0 where not granted -/
  owner   : List (Nat × Nat) := []
  /-- committed endpoint keys -/
  keys    : List (Nat × BitVec 128) := []
  siteKey : BitVec 128 := 0
  nbs     : List (Nat × Neighbour) := []
  queue   : List TxFrame := []
  nextId  : Nat := 0
  attempt : Option Attempt := none
  /-- REF48 clock at which the last own transmission ended, in 1/65,536 -/
  lastEnd : Option Nat := none
  /-- link sequence by next hop -/
  seqs    : List (Nat × Nat) := []
  /-- frame counters by network -/
  ctrs    : List (Nat × Nat) := []
  /-- highest counters accepted: origin, network, counter, most recently used first (R363) -/
  cache   : List (Nat × Nat × Nat) := []
  reasm   : List Reassembly := []
  mgmt    : List MgmtIn := []
  relays  : List RelayIn := []
  nodeIn  : List PulseIn := []
  held    : List HeldWord := []
  nodes   : List NodeEntry := []
  downs   : List NodeDown := []
  joins   : List JoinSlot := []
  /-- cycle in which the join window ends -/
  joinEnd : Option Nat := none
  /-- words asked for scheduling entries -/
  srqWords : List (Nat × Nat) := []
  stored  : List StoredUp := []
  srq     : List SchedReq := []
  due     : List SchedReq := []
  evSeq   : Nat := 0
  grants  : List RepGrant := []
  probes  : List Probe := []
  asked   : List Asked := []
  nextGrant : Nat := 1
  radvSoon : Bool := false
  /-- costs of the routes as last advertised -/
  told    : List (Nat × Nat) := []
  /-- endpoint rings stopped by a system reset (R540) -/
  stopped : List Nat := []
  deriving DecidableEq, Repr

/-! ## Sweep chain (chapter 15) -/

/-- A sweep that this device has acknowledged and not executed (R398): identifier, kind, execution stamp in head
time. -/
structure Sweep where
  id   : Nat
  kind : Nat
  head : Nat
  deriving DecidableEq, Repr

/-- An entry of a report (R401): 0 UNREACHED, 1 REACHED, 2 EXECUTED, with the result. -/
structure ReportEntry where
  eui     : Nat
  st      : Nat := 0
  code    : Nat := 0
  fetched : Bool := false
  stamp   : Nat := 0
  datum   : Nat := 0
  deriving DecidableEq, Repr

/-- A report at the head (R401). -/
structure SweepReport where
  id      : Nat
  head    : Nat
  final   : Bool := false
  entries : List ReportEntry
  deriving DecidableEq, Repr

/-- The request of an alignment exchange (R393): its sequence and t1 in 1/256 ct. -/
structure AlignReq where
  seq : Nat
  t1  : Nat
  deriving DecidableEq, Repr

/-- A fetch that waits (R402): identifier, EUI, REF48 clock of its FETCH in 1/65,536. -/
structure FetchRun where
  id  : Nat
  eui : Nat
  clk : Nat
  deriving DecidableEq, Repr

/-- What the sweep chain holds beside its registers. -/
structure SwcState where
  /-- sweeps pending in this device, in the order received (R398) -/
  pending : List Sweep := []
  /-- reports at the head, oldest first (R401) -/
  reports : List SweepReport := []
  /-- an enumeration that runs: REF48 clock of its ENUM in 1/65,536; one that is deferred (R390) -/
  enum    : Option Nat := none
  wanted  : Bool := false
  /-- positions announced (R390) -/
  found   : List (Nat × Nat) := []
  fetch   : Option FetchRun := none
  /-- next alignment sequence, the exchange that runs, the cycle of the last exchange (R393) -/
  seq     : Nat := 0
  req     : Option AlignReq := none
  last    : Option Nat := none
  /-- stamp of the last ALIGNRSP, its aligned bit, the last two values of θ (R394) -/
  rsp     : Option Nat := none
  upOk    : Bool := false
  theta   : Option Int := none
  before  : Option Int := none
  /-- O_k in 1/256 ct (R393) -/
  offset  : Int := 0
  /-- place of the next result in the local store (R399) -/
  next    : Nat := 0
  deriving DecidableEq, Repr

/-! ## Tamper monitors (chapter 16) -/

/-- A tamper condition that is on (R405): REF48 clock of its detection in 1/65,536, and for the temperature
condition its kind. -/
structure TmpCond where
  since : Nat
  kind  : Nat := 0
  deriving DecidableEq, Repr

/-- A glitch run (R406): glitches after the first, REF48 clock of the last in 1/65,536. -/
structure GlitchRun where
  count : Nat
  last  : Nat
  deriving DecidableEq, Repr

/-- A run of failing sample words of a converter (R410): cycles and words so far; failing words and consumers
seen in the present cycle. -/
structure CarryRun where
  cycles : Nat := 0
  words  : Nat := 0
  now    : Nat := 0
  deriving DecidableEq, Repr

/-- What the tamper monitors hold beside their registers. -/
structure TmpState where
  /-- magnetic sources on: 0, 1 Hall sites, 2 to 9 MAG inputs -/
  mags   : List (Nat × TmpCond) := []
  encs   : List (Nat × TmpCond) := []
  temp   : Option TmpCond := none
  /-- supplies 0 to 5, 6 REF48, 7 XT32 -/
  runs   : List (Nat × GlitchRun) := []
  /-- carry runs by converter (R410) -/
  carry  : List (Nat × CarryRun) := []
  deriving DecidableEq, Repr

/-! ## Cask log (chapter 16) -/

/-- An export that is being written (R427): the page of its register set, first block, count, destination, tenant
of the windows, tenant of the view. -/
structure ExportRun where
  set   : Nat
  first : Nat
  count : Nat
  dst   : Nat
  tc    : Nat
  view  : Option Nat
  deriving DecidableEq, Repr

/-- What the log engine holds beside its registers and the log region. -/
structure ClgState where
  /-- events held before the seed (R412) -/
  early  : List LogEvent := []
  /-- H_in of blocks -/
  hins   : List (Nat × Nat) := []
  /-- blocks whose seal is being computed -/
  signing : List Nat := []
  /-- the block whose seal ends a CLG_SEALNOW (R417) -/
  sealNow : Option Nat := none
  /-- keys written since the last seal, and the table of repeats (R421) -/
  written : List Nat := []
  table  : List (Nat × Nat) := []
  /-- stamp of the first event counted while full (R422) -/
  first  : Option Nat := none
  exports : List ExportRun := []
  /-- write counter of the newest log control record -/
  ctl    : Nat := 0
  /-- head and tail are known (R420, R552) -/
  known  : Bool := true
  /-- events lost, in the always-on domain; none once it has lost power (R418) -/
  lost   : Option Nat := some 0
  deriving DecidableEq, Repr

/-! ## Security engine (chapter 17) -/

/-- What a rewrite commits to a slot (R436). -/
structure KeyPut where
  slot  : Nat
  type  : Nat
  use   : Nat
  pers  : Bool
  owner : Nat
  mat   : List Byte
  deriving DecidableEq, Repr

/-- An operation that runs (R435 to R437): its item, opcode, unit, slot and the generation latched; whether it
holds contents of that slot; what it will write and where; the rewrite that it
commits. -/
structure SecOp where
  item  : RingItem
  op    : Nat
  unit  : Nat
  slot  : Nat
  gen   : Nat
  holds : Bool
  out   : List Byte := []
  addr  : Nat := 0
  res   : Bool := true
  code  : Status := .ok
  put   : Option KeyPut := none
  deriving DecidableEq, Repr

/-- An erase that has been accepted and not completed (R437): slot, REF48 clock in 1/65,536, operations aborted,
the item it came from; whether a grant command waits for it; the owner it is logged for; the generations
of the sets of contents that operations held at acceptance. -/
structure SecErase where
  slot    : Nat
  clk     : Nat
  aborted : Nat := 0
  item    : Option RingItem := none
  command : Bool := false
  owner   : Nat
  gens    : List Nat := []
  deriving DecidableEq, Repr

/-- What the security engine holds beside its registers. -/
structure SecState where
  /-- key material by slot -/
  mats    : List (Nat × List Byte) := []
  items   : List RingItem := []
  ops     : List SecOp := []
  erases  : List SecErase := []
  held    : List HeldWord := []
  /-- tick of an arming of SEC_IDRETIRE (R444) -/
  armed   : Option Nat := none
  /-- REF48 clock of the last failure of the noise source -/
  failed  : Option Nat := none
  /-- OTP words (R445) -/
  otp     : List (Nat × BitVec 64) := []
  /-- rings stopped by a system reset (R540) -/
  stopped : List Nat := []
  deriving DecidableEq, Repr

/-! ## Backup gauge (chapter 19) -/

/-- A cell that has left its range and the lines whose test it waits for (R490, R491). -/
structure CellProbe where
  cell  : Nat
  lines : List Nat
  deriving DecidableEq, Repr

/-- What the gauge holds beside its registers. -/
structure BgaState where
  /-- the active OCV table: V_j and SOC_j (R498) -/
  table  : List (Nat × Nat) := []
  /-- the rest timer: REF48 clocks counted as seconds, cycles counted since the last switch, whether it counts
  cycles, the cycle last counted (R21, R481) -/
  restClk : Nat := 0
  restCyc : Nat := 0
  cycles : Bool := false
  restAt : Nat := 0
  /-- multiples of BGA_TREST that this rest has reached (R482) -/
  rests  : Nat := 0
  /-- consecutive seconds towards the full and the empty point (R483) -/
  full   : Nat := 0
  empty  : Nat := 0
  /-- D and the discharged charge since the last restore, as sums of current samples (R480, Table 19-2) -/
  dsum   : Nat := 0
  thru   : Nat := 0
  base   : Nat := 0
  /-- completed learnings, stamp of the last, sequence number of the last snapshot, S at it (R493, R494) -/
  lrnn   : Nat := 0
  lstamp : Nat := 0
  seq    : Nat := 0
  lastS  : Nat := 0
  /-- accepted steps, seconds since the last (R487, R494) -/
  steps  : Nat := 0
  since  : Nat := 0
  /-- BGA_COLD waits for its first second (R497) -/
  cold   : Bool := false
  /-- the last mean of each cell: sum and count (R479) -/
  means  : List (Nat × Nat) := []
  /-- runs of the sum check, and its verdict (R491) -/
  sumBad : Nat := 0
  sumOk  : Nat := 0
  measBad : Bool := false
  /-- lines found open, cells out of range and their probes, the verdict on a cell, seconds in range -/
  opens  : List Nat := []
  outs   : List Nat := []
  probes : List CellProbe := []
  cellBad : Option Nat := none
  inside : Nat := 0
  /-- lines to be tested, seconds since the last round (R490) -/
  lines  : List Nat := []
  owTime : Nat := 0
  deriving DecidableEq, Repr

/-! ## Supplies (chapter 20) -/

/-- What the PMU holds beside its registers. -/
structure PmuState where
  /-- the rails of Table 20-2 steps 1 to 6 are good -/
  railsUp : Bool := false
  /-- the straps AUXCFG1 and AUXCFG0 -/
  strap  : Nat := 0
  /-- REF48 clock, in 1/65,536, at which the present charge began (R514); the NTC ratio is outside its band; the
  fault holds -/
  charge : Option Nat := none
  ntcOut : Bool := false
  /-- clocks of the rail faults of the last 10 minutes (R505), and of the fault that a restart follows -/
  faults : List Nat := []
  restart : Option Nat := none
  /-- clock of the last change of AUXOUT's sequence (R507) -/
  aux    : Nat := 0
  /-- clock of the cut-off warning (R512), and its sequence is due -/
  cut    : Option Nat := none
  cutDue : Bool := false
  /-- tick of PMU_KILN_ARM, clock of the accepted entry (R515) -/
  armed  : Option Nat := none
  kiln   : Option Nat := none
  /-- VIN has been absent since Kiln entry (R516) -/
  gone   : Bool := false
  deriving DecidableEq, Repr

/-! ## Monitors and the degrade ladder (chapter 21) -/

/-- What the monitors hold beside their registers; runs are counted in passes of their loop. -/
structure MonState where
  /-- invalid thermal sites with their readings in range since (R521) -/
  bad    : List (Nat × Nat) := []
  /-- the thermal loop's divisor: milliseconds at or above MON_TTHR, below it less the hysteresis, since
  the last change (R527) -/
  thDiv  : Nat := 1
  divHot : Nat := 0
  divCool : Nat := 0
  divAge : Nat := 1000
  /-- milliseconds by cluster at or above MON_TCLU, below it less the hysteresis -/
  cluHot : List (Nat × Nat) := []
  cluCool : List (Nat × Nat) := []
  /-- milliseconds at or above MON_TD1 and MON_TD2, below them less the hysteresis (R529, R530) -/
  hot1   : Nat := 0
  hot2   : Nat := 0
  cool1  : Nat := 0
  cool2  : Nat := 0
  /-- milliseconds since the last transition -/
  dwell  : Nat := 0
  /-- the supply loop: its divisor, passes since a rail's conditions held, passes with VTUN at code 80 (R526) -/
  supDiv : Nat := 1
  clear  : List (Nat × Nat) := []
  top    : Nat := 0
  /-- override episodes open (R524) -/
  overs  : List Nat := []
  /-- consecutive bandgap readings within the limit (R528) -/
  good   : Nat := 0
  /-- a descent through VIN loss is due (R529) -/
  lost   : Bool := false
  deriving DecidableEq, Repr

/-! ## Starts (chapter 22) -/

/-- What the always-on domain and the start sequence hold beside the registers. -/
structure StartState where
  /-- starts since the last power-on (Table 22-3) -/
  count  : Nat := 0
  /-- the level before the start, as the DEGRADE entry shows it (R541) -/
  prev   : Nat := 7
  /-- the kind of the next start: 0 power-on, 1 wake, 2 rail restart -/
  kind   : Nat := 0
  /-- a cold start has run since the rails came up -/
  begun  : Bool := false
  /-- REF48 clock of the release of the management core, in 1/65,536 (R536) -/
  since  : Nat := 0
  /-- the rails went down because VIN was lost with no pack (R505) -/
  noPack : Bool := false
  deriving DecidableEq, Repr

/-! ## Host and field interfaces (chapter 23) -/

/-- A session, opened or waiting for its proof (R561, R562): interface 1 HSP, 2 Ethernet, 3 I²C; the clock of its
OPEN; on Ethernet its key, its peer and the state of its sequence (R568, R569). -/
structure Session where
  iface : Nat
  num   : Nat
  tc    : Nat
  slot  : Nat
  gen   : Nat
  nonce : List Byte
  clk   : Nat
  isOpen : Bool := false
  /-- opened in recovery, with no proof (R563) -/
  bare  : Bool := false
  key   : List Byte := []
  peer  : Nat := 0
  seq   : Option Nat := none
  /-- the stored response (R568) -/
  resp  : List Byte := []
  /-- the counter of its NOTEs; the summary line was high at the last, which was sent at a clock -/
  notes : Nat := 0
  high  : Bool := false
  noted : Nat := 0
  deriving DecidableEq, Repr

/-- A UART (R572, R573): received bytes with their error bits, bytes to send, UARTn_DE. -/
structure Uart where
  rx : List (Byte × Bool) := []
  tx : List Byte := []
  de : Bool := false
  deriving DecidableEq, Repr

/-- What the host and field interfaces hold beside their registers. -/
structure HifState where
  sessions : List Session := []
  /-- clocks of failed proofs and ends of lockouts, by interface (R561) -/
  fails  : List (Nat × Nat) := []
  locks  : List (Nat × Nat) := []
  uarts  : List (Nat × Uart) := []
  /-- tick of DBG_ARM (R576) -/
  armed  : Option Nat := none
  deriving DecidableEq, Repr

/-! ## The machine -/

/-- The state of the Gofel. -/
structure State where
  /-- the register space: every register word that differs from its reset value, keyed by
  4,096 p + offset -/
  regs    : List (Nat × Word) := []
  /-- the register words as they stood at the boundary that opened the present cycle: the
  configuration in force where a chapter lets a write take effect at a boundary -/
  inForce : List (Nat × Word) := []
  /-- upper words of wide values as latched by the last read of their lowest word (R63) -/
  latch   : List (Nat × Word) := []
  /-- lower words of wide values written and not yet committed (R63) -/
  hold    : List (Nat × Word) := []
  /-- blocks whose words a read of their cycle register has latched, by key (R176, R179, R217) -/
  latched : List Nat := []
  /-- what each page holds beside its registers -/
  pages   : List (Nat × PageState) := []
  /-- ticks of CD05 since power-up (R615) -/
  ticks   : Nat := 0
  /-- REF48 clocks since power-up, in 1/65,536 -/
  clk     : Nat := 0
  /-- events waiting for the log engine, oldest first (R412) -/
  events  : List LogEvent := []
  /-- the last response -/
  resp    : Response := {}
  /-- what the block has put on its outputs, oldest first -/
  out     : List Output := []
  /-- count of the free values drawn (the model's own, log entry 7) -/
  free    : Nat := 0
  ctf     : CtfState := {}
  tnc     : TncState := {}
  acs     : AcsState := {}
  mte     : MteState := {}
  acc     : AccState := {}
  pqe     : PqeState := {}
  tun     : TunState := {}
  ltr     : LtrState := {}
  barm    : BarmState := {}
  ccx     : CcxState := {}
  cel     : CelState := {}
  plt     : PltState := {}
  plp     : PlpState := {}
  plm     : PlmState := {}
  tmp     : TmpState := {}
  clg     : ClgState := {}
  sec     : SecState := {}
  swc     : SwcState := {}
  bga     : BgaState := {}
  pmu     : PmuState := {}
  mon     : MonState := {}
  start   : StartState := {}
  hif     : HifState := {}
  /-- the inference memory: shared SRAM, resident regions, LPDDR4X, by 40-bit address -/
  mem     : List Host.Cell := []
  /-- the commands that wait, first in first out -/
  pending : List Instr := []
  deriving DecidableEq, Repr

/-- The Gofel right after power-on, before its first command (R538, R539): every register at the
value of its Reset column, every memory and queue empty. -/
def State.reset : State := {}

/-! ## Outcomes -/

/-- Faults: no command of this block faults. -/
inductive Fault where
  /-- never raised: no rule of the manual stops the block; safe -/
  | none
  deriving DecidableEq, Repr

/-- Refusals. -/
inductive Refusal where
  /-- raised by Dispatch for a command that has no meaning yet; safe -/
  | notModelled (mnemonic : String)
  deriving DecidableEq, Repr

end Sys2Proof.Machine
end

