-- ==== Sys2Proof/Machine/Ops.lean ====
section
/-! DEFINITION. The named operations over the register space, the memory, the clocks, the free values,
the events for the log and the ring records of tenants. -/

namespace Sys2Proof.Machine

open Reg

/-! ## Outcomes -/

/-- The outcome of a command of this block: the next state. -/
abbrev Result := Host.Outcome State Fault Refusal

/-! ## Registers -/

/-- The key of a register word: 4,096 p + byte offset. -/
def regKey (page off : Nat) : Nat := page * 4096 + off

/-- The reset word at a key. -/
def resetKey (k : Nat) : Word := RegMap.resetWord (k / 4096) (k % 4096)

/-- The word at byte offset `off` of `page`, as stored. -/
def State.reg (s : State) (page off : Nat) : Nat :=
  (cellAt (RegMap.resetWord page off) (regKey page off) s.regs).toNat

/-- The state with `v` stored at byte offset `off` of `page`. -/
def State.setReg (s : State) (page off v : Nat) : State :=
  { s with regs := cellPut (RegMap.resetWord page off) (regKey page off) (BitVec.ofNat 32 v) s.regs }

/-- The words of a field that is wider than one word, lowest first. -/
def State.regWide (s : State) (page off : Nat) : Nat → Nat
  | 0 => 0
  | n + 1 => s.reg page off + 2 ^ 32 * s.regWide page (off + 4) n

/-- `n` words stored from `off` upwards, lowest first. -/
def State.setWide (s : State) (page off : Nat) : Nat → Nat → State
  | 0, _ => s
  | n + 1, v => (s.setReg page off (v % 2 ^ 32)).setWide page (off + 4) n (v / 2 ^ 32)

/-- The value of a field. -/
def State.rd (s : State) (f : Fld) : Nat :=
  if f.width ≤ 32 then bits (s.reg f.page f.off) f.lo f.width
  else s.regWide f.page f.off ((f.width + 31) / 32)

/-- The state with a field at `v`. -/
def State.wr (s : State) (f : Fld) (v : Nat) : State :=
  if f.width ≤ 32 then s.setReg f.page f.off (putBits (s.reg f.page f.off) f.lo f.width v)
  else s.setWide f.page f.off ((f.width + 31) / 32) v

/-- A field that holds a bit. -/
def State.on (s : State) (f : Fld) : Bool := s.rd f == 1

/-- The word in force at byte offset `off` of `page` in the present cycle. -/
def State.regIn (s : State) (page off : Nat) : Nat :=
  (cellAt (RegMap.resetWord page off) (regKey page off) s.inForce).toNat

/-- The value of a field in force in the present cycle. -/
def State.cfg (s : State) (f : Fld) : Nat := bits (s.regIn f.page f.off) f.lo f.width

/-- A counter that gains `n` and saturates at the largest value of its field. -/
def State.count (s : State) (f : Fld) (n : Nat := 1) : State :=
  s.wr f (satNat f.width (s.rd f + n))

/-- The 64-bit value of a pair of words. -/
def State.rd64 (s : State) (lo hi : Fld) : Nat := s.rd lo + 2 ^ 32 * s.rd hi

/-- The pair of words with a 64-bit value. -/
def State.wr64 (s : State) (lo hi : Fld) (v : Nat) : State :=
  (s.wr lo (v % 2 ^ 32)).wr hi (v / 2 ^ 32 % 2 ^ 32)

/-- Bit `b` of IRQ_RAW of `page` set: the event of that bit (R65). -/
def State.raise (s : State) (page b : Nat) : State :=
  s.wr (IRQ_RAW page) (setBit (s.rd (IRQ_RAW page)) b)

/-- The words of `page` at the offsets that satisfy `p` return to their reset values. -/
def State.clearRegs (s : State) (page : Nat) (p : Nat → Bool) : State :=
  { s with regs := s.regs.filter fun e => !(e.1 / 4096 == page && p (e.1 % 4096)) }

/-! ## What a page holds beside its registers -/

/-- The page state of `page`. -/
def State.pg (s : State) (page : Nat) : PageState := cellAt {} page s.pages

/-- The state with the page state of `page` changed. -/
def State.setPg (s : State) (page : Nat) (f : PageState → PageState) : State :=
  { s with pages := cellPut {} page (f (s.pg page)) s.pages }

/-! ## Memory -/

/-- What a byte that nothing has written reads as: zero (DESIGN CHOICE, log entry 8). -/
def blankByte : Byte := 0

/-- The byte at an address. -/
def memByte (m : List Host.Cell) (a : Nat) : Byte := cellAt blankByte a m

/-- The memory with a byte stored. -/
def memPut (m : List Host.Cell) (a : Nat) (b : Byte) : List Host.Cell := cellPut blankByte a b m

/-- `n` bytes from an address upwards. -/
def memBytes (m : List Host.Cell) (a : Nat) : Nat → List Byte
  | 0 => []
  | n + 1 => memByte m a :: memBytes m (a + 1) n

/-- Bytes stored from an address upwards. -/
def memStore (m : List Host.Cell) (a : Nat) : List Byte → List Host.Cell
  | [] => m
  | b :: bs => memStore (memPut m a b) (a + 1) bs

/-- The canonical form of memory: addresses strictly rise and no blank byte is listed. -/
def memWf (m : List Host.Cell) : Bool := cellsWf (fun _ => blankByte) m

/-- `n` bytes of the inference memory. -/
def State.bytes (s : State) (a n : Nat) : List Byte := memBytes s.mem a n

/-- Bytes stored in the inference memory. -/
def State.store (s : State) (a : Nat) (bs : List Byte) : State :=
  { s with mem := memStore s.mem a bs }

/-! ## Time -/

/-- The REF48 clocks since power-up. -/
def State.now (s : State) : Nat := s.clk / 65536

/-- The clocks of `ms` milliseconds of REF48. -/
def msClocks (ms : Nat) : Nat := ms * 48000

/-- The stamp: zero until the seed is accepted (R32). -/
def State.stamp (s : State) : Stamp := if s.ctf.seeded then ⟨s.ctf.cyc, s.ctf.ph⟩ else ⟨0, 0⟩

/-- The CTF state codes of Table 2-1. -/
def ctfFree : Nat := 0
def ctfAcquire : Nat := 1
def ctfLocked : Nat := 2
def ctfFlywheel : Nat := 3
def ctfHoldover : Nat := 4

/-- The state of the CTF (Table 2-1). -/
def State.ctfSt (s : State) : Nat := s.rd CTF_ST

/-- A reference channel counts as locked (R553). -/
def State.refLocked (s : State) : Bool :=
  s.ctfSt == ctfAcquire || s.ctfSt == ctfLocked || s.ctfSt == ctfFlywheel

/-- Results that carry a stamp report HOLDOVER (R43). -/
def State.estimated (s : State) : Bool := s.ctfSt == ctfFlywheel || s.ctfSt == ctfHoldover

/-- OK, or HOLDOVER while stamps are estimates (R43). -/
def State.okOr (s : State) : Status := if s.estimated then .holdover else .ok

/-- The RTC after 1/48,000,000 s times `n`: the fraction counts 1/32,768 s and carries into the
seconds (R55). -/
def State.rtcAdvance (s : State) (n : Nat) : State :=
  let acc := s.ctf.rtcAcc + n * 32768
  let frac := s.rd CTF_UTC_FRAC + acc / 48000000
  let s := { s with ctf := { s.ctf with rtcAcc := acc % 48000000 } }
  (s.wr CTF_UTC_FRAC (frac % 32768)).wr CTF_UTC ((s.rd CTF_UTC + frac / 32768) % 2 ^ 32)

/-- `n` ticks of CD05 pass within the present cycle, at the period that CTF_PERIOD shows; the
phase stands at 65,535 until the boundary command (log entry 1). -/
def State.advance (s : State) (n : Nat) : State :=
  let clk' := s.clk + n * s.rd CTF_PERIOD
  let t := { s with ticks := s.ticks + n, clk := clk',
                    ctf := { s.ctf with ph := min 65535 (s.ctf.ph + n) } }
  t.rtcAdvance (clk' / 65536 - s.clk / 65536)

/-- Time passes until the phase is at least `p`. -/
def State.advanceTo (s : State) (p : Nat) : State :=
  if s.ctf.ph < p then s.advance (p - s.ctf.ph) else s

/-! ## Free values -/

/-- The next free value, `w` bits wide, and the state that has drawn it (log entry 7). -/
def State.draw (s : State) (w : Nat) : Nat × State :=
  ((Config.freeWord s.free).toNat % 2 ^ w, { s with free := s.free + 1 })

/-! ## The degrade level -/

/-- The degrade level, 0 to 3 (R529). -/
def State.level (s : State) : Nat := s.rd MON_LVL

/-! ## Events for the log -/

/-- The tenant field of an event of the device as a whole (R413). -/
def deviceTc : Nat := 255

/-- An event raised to the log engine with eight data bytes given as a number, b0 lowest
(R412, Table 16-6). -/
def State.log (s : State) (code tc data : Nat) : State :=
  { s with events := s.events ++ [⟨code, tc, leBytes 8 data⟩] }

/-! ## Tenants -/

/-- State codes of Table 4-1. -/
def tenOff : Nat := 0
def tenActive : Nat := 1
def tenSuspended : Nat := 2
def tenResetting : Nat := 3

/-- The state of tenant `t` (Table 4-1). -/
def State.tenant (s : State) (t : Nat) : Nat := s.rd (TNC_TST t)

/-- The state of tenant `t` changed, on page 0x002 and on its context page (Tables 4-8, 4-12). -/
def State.setTenant (s : State) (t v : Nat) : State := (s.wr (TNC_TST t) v).wr (TNC_CX_ST t) v

/-- A ring record on the context page of tenant `t`: kind, code, resource and detail of Table 4-7.
A full ring counts it in TNC_RING_OVF (R118, R119). -/
def State.ringRecord (s : State) (t kind code res detail : Nat) : State :=
  let w := s.rd (TNC_RING_WR t)
  if (w + 1) % 32 = s.rd (TNC_RING_RD t) then s.count (TNC_RING_OVF t)
  else
    let seq := cellAt 0 t s.tnc.seq
    let v := stampNat s.stamp + kind * 2 ^ 64 + code * 2 ^ 72 + res * 2 ^ 80 + seq * 2 ^ 88
      + detail % 2 ^ 32 * 2 ^ 96
    let s := (s.wr (TNC_RING t w) v).wr (TNC_RING_WR t) ((w + 1) % 32)
    { s with tnc := { s.tnc with seq := cellPut 0 t ((seq + 1) % 256) s.tnc.seq } }

/-- The tenants in a state. -/
def State.tenantsIn (s : State) (st : Nat) : List Nat :=
  (List.range 64).filter fun t => s.tenant t == st

/-- The same ring record for every ACTIVE tenant. -/
def State.ringAll (s : State) (kind code res detail : Nat) : State :=
  (s.tenantsIn tenActive).foldl (fun s t => s.ringRecord t kind code res detail) s

/-- Resource codes of Table 4-4. -/
def resInf : Nat := 1
def resAir : Nat := 2
def resSec : Nat := 3
def resCel : Nat := 4

/-- An item of tenant `t` on resource `r` has completed with `c`: the counters of R117 and, for the
first outcome of the resource and code in the period, a ring record of kind 0x1 naming the item
(R118). -/
def State.outcome (s : State) (t r : Nat) (c : Status) (item : Nat) : State :=
  let f : Option Fld := match c with
    | .delayed => some (TNC_DLY t (r - 1))
    | .refusedQuota => some (TNC_RFQ t (r - 1))
    | .refusedPriority => some (TNC_RFP t (r - 1))
    | .skipped => some (TNC_SKP t (r - 1))
    | _ => none
  match f with
  | none => s
  | some f =>
    let s := s.count f
    let key := t * 1024 + r * 16 + codeOf c
    if key ∈ s.tnc.told then s
    else
      let s := s.ringRecord t 1 (codeOf c) r (item % 65536)
      { s with tnc := { s.tnc with told := key :: s.tnc.told } }

/-! ## Outputs -/

/-- The block sends something. -/
def State.send (s : State) (c : Channel) (data : List Nat) : State :=
  { s with out := s.out ++ [⟨c, data⟩] }

/-- Bytes as the numbers of an output. -/
def byteNats (l : List Byte) : List Nat := l.map (·.toNat)

end Sys2Proof.Machine
end

