-- ==== Sys2Proof/Machine/Flags.lean ====
section
/-! DEFINITION. Check codes and computed bits: the carry code (R79), CRC-32 (R85), CRC-16 (R325), the
pending lines and summaries (R92 to R94), the gating of pages (R25) and the values of registers that
are computed when they are read. -/

namespace Sys2Proof.Machine

open Reg

/-! ## Check codes -/

/-- One bit step of the CRC-8 of R79. -/
def crc8Step (c : BitVec 8) : BitVec 8 := if c.msb then (c <<< 1) ^^^ 0x2F#8 else c <<< 1

/-- The CRC-8 register after one more byte (R79). -/
def crc8Byte (c b : BitVec 8) : BitVec 8 :=
  let x := c ^^^ b
  crc8Step (crc8Step (crc8Step (crc8Step (crc8Step (crc8Step (crc8Step (crc8Step x)))))))

/-- CRC-8 with polynomial 0x2F, initial value and final XOR 0xFF (R79). -/
def crc8 (l : List Byte) : Byte := l.foldl crc8Byte 0xFF#8 ^^^ 0xFF#8

/-- The carry code of a word (R79, Table 3-4): direction, tenant, address A, data. -/
def carryCode (write : Bool) (tc a : Nat) (data : Word) : Byte :=
  crc8 (beBytes 8 (b2n write * 2 ^ 62 + tc % 64 * 2 ^ 56 + a % 2 ^ 24 * 2 ^ 32 + data.toNat))

/-- `n` bit steps of the reflected CRC-32 (R85). -/
def crc32Bits : Nat → Nat → Nat
  | 0, c => c
  | n + 1, c => if c % 2 = 1 then crc32Bits n ((c / 2) ^^^ 0xEDB88320) else crc32Bits n (c / 2)

/-- The CRC-32 register after the bytes of a list (R85). -/
def crc32Over : Nat → List Byte → Nat
  | c, [] => c
  | c, b :: l => crc32Over (crc32Bits 8 (c ^^^ b.toNat)) l

/-- The CRC-32 of IEEE 802.3: reflected, initial value and final XOR 0xFFFF_FFFF (R85). -/
def crc32 (l : List Byte) : Nat := crc32Over 0xFFFFFFFF l ^^^ 0xFFFFFFFF

/-- `n` bit steps of the CRC-16 of R325: polynomial 0x1021, most significant bit first. -/
def crc16Bits : Nat → Nat → Nat
  | 0, c => c
  | n + 1, c => if 0x8000 ≤ c then crc16Bits n ((2 * c) ^^^ 0x11021) else crc16Bits n (2 * c)

/-- The CRC-16 register after the bytes of a list (R325). -/
def crc16Over : Nat → List Byte → Nat
  | c, [] => c
  | c, b :: l => crc16Over (crc16Bits 8 (c ^^^ (256 * b.toNat))) l

/-- The CRC-16 of R325: initial value 0xFFFF, no reflection, no final XOR. -/
def crc16 (l : List Byte) : Nat := crc16Over 0xFFFF l

/-! ## The domains of the pages -/

/-- Every domain of the block of `page` runs, and the block is not held off: Table 1-3 at the
present level and R556. Pages of blocks marked Rq never count as gated; a page of a block marked Lk
runs while a reference channel is locked (R25). -/
def State.pageRuns (s : State) (page : Nat) : Bool :=
  let inference := (0x080 ≤ page && page ≤ 0x088) || page == 0x090 || page == 0x098
  if s.level ≤ 1 then true
  else if s.level = 2 then !inference
  else if (0x020 ≤ page && page ≤ 0x027) || (0x060 ≤ page && page ≤ 0x06F) then s.refLocked
  else !(inference || page == 0x070 || (0x0A0 ≤ page && page ≤ 0x0A3) || page == 0x0B0
    || page == 0x0B1 || page == 0x0C0 || page == 0x100 || page == 0x104 || page == 0x108
    || page == 0x10C || page == 0x10D || page == 0x118)

/-! ## Configuration words and INTEG -/

/-- The mask of the RW fields of a word. -/
def rwMask (page off : Nat) : Nat := RegMap.maskOf .rw (RegMap.fieldsAt page off)

/-- The offsets of the configuration words of `page`, ascending: CTRL, IRQ_EN and every word from
0x040 that holds an RW field (R85). -/
def configOffs (page : Nat) : List Nat :=
  [0x08, 0x14] ++ ((List.range 1008).map fun k => 0x40 + 4 * k).filter fun o => rwMask page o != 0

/-- The CRC-32 over configuration words given by a reading function (R85). -/
def configCrc (page : Nat) (f : Nat → Nat) : Nat :=
  crc32 ((configOffs page).flatMap fun o => leBytes 4 (f o &&& rwMask page o))

/-- The bits of the word at `off` that an upset has changed since the last write (R87). -/
def State.upsetAt (s : State) (page off : Nat) : Nat :=
  (s.pg page).upsets.foldl (fun a u => if u.1 = off then a ^^^ u.2 else a) 0

/-- The reference value of a page: its configuration words as they were last written (R86). -/
def State.integRef (s : State) (page : Nat) : Nat :=
  configCrc page fun o => s.reg page o ^^^ s.upsetAt page o

/-- The check over the fields as they are stored (R86). -/
def State.integNow (s : State) (page : Nat) : Nat := configCrc page fun o => s.reg page o

/-! ## Pending lines -/

/-- IRQ_PEND of `page` (R92). -/
def State.irqPend (s : State) (page : Nat) : Nat := s.rd (IRQ_RAW page) &&& s.rd (IRQ_EN page)

/-- The pending line of `page` (R92). -/
def State.pendLine (s : State) (page : Nat) : Bool :=
  RegMap.assigned page && s.irqPend page != 0

/-- The pages with their pending line high that satisfy `p`. -/
def State.pendPages (s : State) (p : Nat → Bool) : List Nat :=
  (List.range 1024).filter fun n => s.pendLine n && p n

/-- IAG_PSUM word `k` in a view: the pending lines of pages 32k to 32k + 31 (R92, R94). -/
def State.psum (s : State) (k : Nat) (view : Nat → Bool) : Nat :=
  (List.range 32).foldl (fun a b =>
    if s.pendLine (32 * k + b) && view (32 * k + b) then a + 2 ^ b else a) 0

/-- The summary line of tenant `t`: a pending line of a page it owns (R93). -/
def State.summary (s : State) (t : Nat) : Bool :=
  s.pendPages (fun n => s.rd (OWN_TC n) == t) != []

/-- The summary lines of tenants `first` to `first + 31` in a view (R94). -/
def State.tsum (s : State) (first : Nat) (view : Nat → Bool) : Nat :=
  (List.range 32).foldl (fun a b =>
    if view (first + b) && s.summary (first + b) then a + 2 ^ b else a) 0

/-! ## Wide values -/

/-- Values of more than one word that follow R63: `words` consecutive words from offset
`off + s1 * i + s2 * j` of the pages `first` to `last`, `i < n1` and `j < n2`. -/
structure WideRow where
  first : Nat
  last  : Nat
  off   : Nat
  n1    : Nat
  s1    : Nat
  n2    : Nat
  s2    : Nat
  words : Nat
  deriving DecidableEq, Repr

/-- The wide values of the register tables. -/
def wideRows : List WideRow := [
  ⟨0x001, 0x001, 0xc0, 1, 4096, 1, 4096, 2⟩,  -- IAG_TSUM_LO
  ⟨0x002, 0x002, 0x78, 1, 4096, 1, 4096, 2⟩,  -- TNC_SEAL_CYC_LO
  ⟨0x003, 0x003, 0x110, 64, 32, 1, 4096, 2⟩,  -- TNC_CHV_LOt
  ⟨0x010, 0x010, 0x40, 1, 4096, 1, 4096, 2⟩,  -- CTF_STAMP_LO
  ⟨0x010, 0x010, 0xa0, 1, 4096, 1, 4096, 2⟩,  -- CTF_SEED_LO
  ⟨0x011, 0x011, 0x48, 1, 4096, 1, 4096, 2⟩,  -- CTF_SCHED_AT_LO
  ⟨0x011, 0x011, 0x100, 256, 8, 1, 4096, 2⟩,  -- CTF_SLOTn_LO, n = 0–255
  ⟨0x029, 0x029, 0xa4, 1, 4096, 1, 4096, 2⟩,  -- ACS_CONT_MASK_LO
  ⟨0x030, 0x030, 0x54, 1, 4096, 1, 4096, 2⟩,  -- MTE_LAST_LO
  ⟨0x040, 0x047, 0x100, 8, 128, 8, 8, 2⟩,  -- ACC_Qq_LO, q = 0–7
  ⟨0x040, 0x047, 0x140, 8, 128, 1, 4096, 2⟩,  -- ACC_SUM_LO
  ⟨0x040, 0x047, 0x150, 8, 128, 1, 4096, 2⟩,  -- ACC_UFA_LO
  ⟨0x048, 0x048, 0x44, 1, 4096, 1, 4096, 2⟩,  -- ACC_BAD_LO
  ⟨0x060, 0x06f, 0x54, 1, 4096, 1, 4096, 2⟩,  -- PLS_SPILL_LO
  ⟨0x070, 0x070, 0x800, 64, 32, 1, 4096, 8⟩,  -- PQE_RINGi
  ⟨0x080, 0x080, 0x68, 1, 4096, 1, 4096, 2⟩,  -- TUN_BST_AT_LO
  ⟨0x080, 0x080, 0x80, 1, 4096, 1, 4096, 2⟩,  -- TUN_BST_FIRST_LO
  ⟨0x080, 0x080, 0x88, 1, 4096, 1, 4096, 2⟩,  -- TUN_BST_LAST_LO
  ⟨0x081, 0x088, 0x54, 1, 4096, 1, 4096, 2⟩,  -- TUN_CK_ECCADR_LO
  ⟨0x098, 0x098, 0x60, 1, 4096, 1, 4096, 2⟩,  -- BARM_WCUR_LO
  ⟨0x098, 0x098, 0x100, 64, 32, 1, 4096, 2⟩,  -- BARM_RBASE_LO
  ⟨0x0a0, 0x0a0, 0x64, 1, 4096, 1, 4096, 2⟩,  -- CCX_FLT_LO
  ⟨0x0a1, 0x0a1, 0x44, 1, 4096, 1, 4096, 2⟩,  -- CCX_M_EADR_LO
  ⟨0x0b8, 0x0b8, 0x100, 16, 16, 1, 4096, 4⟩,  -- PLM_SRQi
  ⟨0x0b8, 0x0b8, 0x200, 16, 16, 1, 4096, 4⟩,  -- PLM_EVi
  ⟨0x0ba, 0x0bb, 0x100, 64, 48, 1, 4096, 2⟩,  -- PLM_EP_RB_LO
  ⟨0x0c0, 0x0c0, 0x4c, 1, 4096, 1, 4096, 2⟩,  -- SWC_OFS_LO
  ⟨0x0c0, 0x0c0, 0x60, 1, 4096, 1, 4096, 2⟩,  -- SWC_SW_AT_LO
  ⟨0x0c0, 0x0c0, 0x100, 32, 8, 1, 4096, 2⟩,  -- SWC_DEVn_LO, _HI
  ⟨0x0c0, 0x0c0, 0x208, 32, 32, 1, 4096, 2⟩,  -- +0x08, +0x0C
  ⟨0x0c0, 0x0c0, 0x210, 32, 32, 1, 4096, 2⟩,  -- +0x10, +0x14
  ⟨0x0c0, 0x0c0, 0x218, 32, 32, 1, 4096, 2⟩,  -- +0x18, +0x1C
  ⟨0x0c0, 0x0c0, 0x608, 16, 32, 1, 4096, 2⟩,  -- +0x08, +0x0C
  ⟨0x0c0, 0x0c0, 0x610, 16, 32, 1, 4096, 2⟩,  -- +0x10, +0x14
  ⟨0x0c8, 0x0c8, 0x100, 2, 8, 1, 4096, 2⟩,  -- TMP_COVs_LO, s = 0–9 of HS0, HS1
  ⟨0x0c8, 0x0c8, 0x110, 8, 8, 1, 4096, 2⟩,  -- TMP_COVs_LO, s = 0–9 of MAG0-7
  ⟨0x0cc, 0x0cc, 0x64, 1, 4096, 1, 4096, 2⟩,  -- CLG_LASTH_LO
  ⟨0x0cc, 0x0cc, 0xa8, 1, 4096, 1, 4096, 2⟩,  -- CLG_EXP_DST_LO
  ⟨0x0cc, 0x0cc, 0xc0, 1, 4096, 1, 4096, 2⟩,  -- CLG_FW_DATA_LO
  ⟨0x0d0, 0x0d0, 0x100, 64, 16, 1, 4096, 2⟩,  -- SEC_RBASE_LOt
  ⟨0x0d8, 0x0d8, 0x200, 64, 16, 1, 4096, 2⟩,  -- CEL_RBASE_LOt
  ⟨0x100, 0x100, 0x44, 1, 4096, 1, 4096, 2⟩,  -- ETH_MAC_LO
  ⟨0x140, 0x17f, 0x140, 4, 256, 5, 8, 2⟩,  -- ACC_VQq_LO, q = 0–4
  ⟨0x140, 0x17f, 0x168, 4, 256, 4, 8, 2⟩,  -- ACC_VTRFk_LO, k = 0–3
  ⟨0x140, 0x17f, 0x188, 4, 256, 1, 4096, 2⟩,  -- ACC_VSUM_LO
  ⟨0x300, 0x33f, 0x200, 32, 16, 1, 4096, 4⟩,  -- TNC_RINGk
  ⟨0x100, 0x100, 0x58, 1, 4096, 1, 4096, 2⟩,  -- ETH_RB (receive)
  ⟨0x100, 0x100, 0x60, 1, 4096, 1, 4096, 2⟩  -- ETH_RB (transmit)
  ]

/-- The lowest offset of the wide value that a row holds at `off`. -/
def WideRow.base (r : WideRow) (off : Nat) : Option Nat :=
  if off < r.off then none
  else
    let i := (off - r.off) / r.s1
    let d := off - r.off - r.s1 * i
    let j := d / r.s2
    let b := r.off + r.s1 * i + r.s2 * j
    if i < r.n1 ∧ j < r.n2 ∧ off < b + 4 * r.words then some b else none

/-- The lowest offset and the number of words of the wide value that holds the word at `off`. -/
def wideOf (page off : Nat) : Option (Nat × Nat) :=
  (wideRows.filter fun r => r.first ≤ page && page ≤ r.last).findSome? fun r =>
    (r.base off).map fun b => (b, r.words)

end Sys2Proof.Machine
end

