-- ==== Sys2Proof/Machine/Operands.lean ====
section
/-! DEFINITION. Register accesses: address decoding (R61, R62, R71, R78), the checks before a page
performs an access in the order of R11, the protection of LOCK (R75), wide values (R63), the store
of a word by the access codes of its fields (R3 to R5), reads with their effects (R68, R83), and the
answer with its capture (R64, R66). -/

namespace Sys2Proof.Machine

open Reg

/-! ## Requesters -/

/-- The interface code of a requester, Table 23-1; 0 is the register-access port of a core. -/
def portCode : Port → Nat
  | .hsp _ => 1
  | .eth _ => 2
  | .i2t _ => 3
  | .hart _ => 0
  | .mgmt => 0

/-- The initiator of a WRITE_REFUSED entry: 0 host, 1 hart, 2 management core (Table 16-6). -/
def portInitiator : Port → Nat
  | .hsp _ => 0
  | .eth _ => 0
  | .i2t _ => 0
  | .hart _ => 1
  | .mgmt => 2

/-- The requester is a host session. -/
def portHost (p : Port) : Bool := portInitiator p == 0

/-! ## Address decoding -/

/-- Where an address of the register space leads. -/
inductive Target where
  | page (p off : Nat)
  | slot (t slot off : Nat)
  | nowhere
  deriving DecidableEq, Repr

/-- Table 3-1: the direct window, an alias window, or a range that no page receives. A page that
Table 3-10 does not list decodes as a reserved range (R61). -/
def targetOf (a : Nat) : Target :=
  if 0x40000000 ≤ a ∧ a < 0x40400000 then
    let p := (a - 0x40000000) / 4096
    if RegMap.assigned p then .page p (a % 4096) else .nowhere
  else if 0x60000000 ≤ a ∧ a < 0x64000000 then
    let b := a - 0x60000000
    .slot (b / 1048576) (b / 4096 % 256) (a % 4096)
  else .nowhere

/-- The page that slot `k` of the alias window of tenant `t` reaches: Table 3-3 and the alias maps
of R107. -/
def State.slotPage (s : State) (t k : Nat) : Option Nat :=
  match k with
  | 0x00 => some (0x300 + t)
  | 0x01 => some 0x000
  | 0x02 => some 0x010
  | 0x03 => some 0x001
  | 0x04 => some 0x0CC
  | 0x05 => some (0x140 + t)
  | _ =>
    match s.tnc.aliases.find? fun e => e.1 == 256 * t + k with
    | some e => some e.2
    | none => none

/-- The address A of R78. -/
def addressA (a : Nat) (replay : Bool) : Nat :=
  let r := b2n replay * 2 ^ 22
  if 0x60000000 ≤ a then 2 ^ 23 + r + a / 4096 % 256 * 1024 + a / 4 % 1024
  else r + a / 4096 % 1024 * 1024 + a / 4 % 1024

/-- An access that has reached a page: the requester, the page, the byte offset of the word, and
the alias slot used. -/
structure Req where
  port : Port
  tc   : Nat
  page : Nat
  off  : Nat
  slot : Option Nat := none
  deriving DecidableEq, Repr

/-- An access with the address it carries resolved: the page and offset where it reaches one, the
alias window and slot where it uses one. -/
structure Route where
  page : Option Nat
  off  : Nat
  win  : Option Nat
  slot : Option Nat
  deriving DecidableEq, Repr

/-- The route of an address; none for a range that no page receives. -/
def State.route (s : State) (a : Nat) : Option Route :=
  match targetOf a with
  | .page p off => some ⟨some p, off, none, none⟩
  | .slot t k off =>
    match s.slotPage t k with
    | some p => some ⟨some p, off, some t, some k⟩
    | none => some ⟨none, off, some t, some k⟩
  | .nowhere => none

/-! ## Who may access a page -/

/-- Pages of the billing island (R108). -/
def inIsland (page : Nat) : Bool :=
  (0x020 ≤ page && page ≤ 0x048) || (0x060 ≤ page && page ≤ 0x06F)
    || (0x140 ≤ page && page ≤ 0x17F)

/-- Table 4-3: a write into the billing island from `port` under tenant `tc` is permitted. -/
def State.firewallPasses (s : State) (port : Port) (tc page : Nat) : Bool :=
  let pls := 0x060 ≤ page && page ≤ 0x06F
  !inIsland page || (portHost port &&
    if tc = 1 then !pls || s.rd (OWN_TC page) == 1
    else decide (2 ≤ tc) && (page == 0x140 + tc || (pls && s.rd (OWN_TC page) == tc)))

/-- Table 4-1: the state of tenant `tc` lets the access be performed. A write of TNC_CX_SOFTRST by a tenant in
RESETTING reaches its page, which answers it (R122). -/
def State.tenantPasses (s : State) (write : Bool) (tc page off : Nat) : Bool :=
  let st := s.tenant tc
  if st = tenActive then true
  else if st = tenOff then !write && (page == 0x000 || page == 0x300 + tc)
  else !write || (page == 0x300 + tc && (off == 0x0C4 || (off == 0x044 && st == tenResetting)))

/-- The registers that page 0x0CC holds once per tenant (R425). -/
def perTenant (page off : Nat) : Bool :=
  page == 0x0CC && 0x070 ≤ off && off < 0x0B8

/-- The requester counts as the owner of the word: OWN_TC, or, for the registers held once per
tenant, the tenant whose view is reached (R68, R425). -/
def State.owns (s : State) (q : Req) : Bool :=
  s.rd (OWN_TC q.page) == q.tc || (perTenant q.page q.off && q.slot.isSome)

/-- R68 with R97, R94, R124 and R425: the requester may read the word. -/
def State.mayRead (s : State) (q : Req) : Bool :=
  if q.off < 0x40 then
    q.off == 0x00 || q.off == 0x04 || q.off == 0x24 || s.rd (OWN_TC q.page) == q.tc || q.tc == 0
  else
    s.owns q || (RegMap.fieldsAt q.page q.off).any (·.pub)
      || (q.page == 0x001 && q.slot.isSome) || (0x300 ≤ q.page && q.tc == 0)

/-- The word holds a field that LOCK protects (R75). -/
def lockProtected (page off : Nat) : Bool :=
  (RegMap.fieldsAt page off).any fun f =>
    !f.exempt && (f.acc == .rw || f.acc == .wo || f.acc == .w1s)

/-- LOCK_HELD of a page. -/
def State.held (s : State) (page : Nat) : Bool := s.on (LOCK_HELD page)

/-! ## Scrubs (R86, R87) -/

/-- A scrub of `page`: it compares the stored fields with the reference, opens a mismatch run with
its events, or closes it (R86, R87). -/
def State.scrubPage (s : State) (page : Nat) : State :=
  let bad := s.integNow page != s.integRef page
  let s := s.setPg page fun g => { g with scrubbed := true, stale := false }
  if bad then
    if s.on (STS_INTEGERR page) then s
    else
      let s := s.setPg page fun g => { g with mended := false }
      ((s.wr (STS_INTEGERR page) 1).raise page 31).log 0x5005 (s.rd (OWN_TC page)) page
  else s.wr (STS_INTEGERR page) 0

/-- A page that has not been scrubbed since its domain stopped is scrubbed before it performs
another access (R86). -/
def State.scrubFirst (s : State) (page : Nat) : State :=
  if (s.pg page).stale && s.pageRuns page then s.scrubPage page else s

/-! ## Failed LOCK writes -/

/-- A write to LOCK that fails: the challenge is used up, and every third failure in succession on a
page is logged (R74, R77). -/
def State.lockFailed (s : State) (page : Nat) : State :=
  let n := (s.pg page).fails + 1
  let s := s.setPg page fun g => { g with chal := none, fails := n % 3 }
  if n % 3 = 0 then s.log 0x5004 (s.rd (OWN_TC page)) page else s

/-! ## The answer -/

/-- A page captures a failing access (R66). -/
def State.capture (s : State) (page off tc : Nat) (write : Bool) (c : Status) : State :=
  if c = .ok ∨ c = .holdover ∨ c = .degraded ∨ c = .delayed then s
  else if s.on (ERR_VALID page) then s.count (ERR_CNT page)
  else
    (s.setReg page 0x28 (codeOf c + off / 4 * 2 ^ 8 + tc * 2 ^ 18 + b2n write * 2 ^ 24
      + 2 ^ 31)).raise page 31

/-- The answer to a write. -/
def State.answer (s : State) (c : Status) : State := { s with resp := { code := c } }

/-- The answer to a read of one word, with its carry code (R64, R80): a code other than OK, HOLDOVER
or DEGRADED returns zero. -/
def State.answerRead (s : State) (tc a : Nat) (c : Status) (v : Nat) : State :=
  let w := if c = .ok ∨ c = .holdover ∨ c = .degraded then v else 0
  { s with resp := { code := c, data := [w],
                     cc := [(carryCode false tc a (BitVec.ofNat 32 w)).toNat] } }

/-! ## The checks before a page performs an access -/

/-- What stops an access before its page performs it, in the order of R11 and R62, with the event
logged for a refused write: carry code, firewall, tenant state, alias window, ownership, alignment
and replay flag, gated domain. -/
def State.stopOf (s : State) (write : Bool) (a : Access) (r : Route) : Option (Status × Nat) :=
  let tc := a.tc.val
  let aligned := a.size == 4 && a.addr.toNat % 4 == 0
  let off := r.off / 4 * 4
  if write ∧ a.cc ≠ carryCode true tc (addressA a.addr.toNat a.replay) a.data then
    some (.integFail, 0x5003)
  else
    match r.page with
    | none =>
      some (.notOwner, 0x5001)
    | some p =>
      let q : Req := ⟨a.port, tc, p, off, r.slot⟩
      if write && !s.firewallPasses a.port tc p then some (.notOwner, 0x5002)
      else if !s.tenantPasses write tc p off then some (.notOwner, 0x5001)
      else if r.win.isSome && r.win != some tc then some (.notOwner, 0x5001)
      else if write && !s.owns q then some (.notOwner, 0x5001)
      else if !write && !s.mayRead q then some (.notOwner, 0x5001)
      else if !aligned || (write && a.replay) then
        if write && s.held p && lockProtected p off then some (.prot, 0)
        else some (.cfgInvalid, 0)
      else if 0x40 ≤ off && !s.pageRuns p then some (.skipped, 0)
      else none

/-- What a stop leaves: SYS_HPERR and SYS_NOSLOT, the event of a refused write, the capture, and the
challenge of a LOCK that a non-owner has written (R66, R69, R71, R74, R81). -/
def State.stopped (s : State) (write : Bool) (a : Access) (r : Route) (c : Status × Nat) : State :=
  let tc := a.tc.val
  let off := r.off / 4 * 4
  let s := if c.1 = .integFail then s.count SYS_HPERR else s
  let s := if c.1 = .notOwner ∧ r.page = none ∧ r.win = some tc then s.count SYS_NOSLOT else s
  let s :=
    if !write ∨ c.2 = 0 then s
    else if c.2 = 0x5003 then
      s.log 0x5003 deviceTc (addressA a.addr.toNat a.replay + portCode a.port * 2 ^ 24)
    else
      let place := match r.page with
        | some p => p
        | none => 0xFFFF + r.slot.getD 0 * 2 ^ 40
      s.log c.2 tc (place + off / 4 * 2 ^ 16 + portInitiator a.port * 2 ^ 32)
  match r.page with
  | none => s
  | some p =>
    let s := if write ∧ off = 0x20 ∧ c.1 = .notOwner then s.lockFailed p else s
    s.capture p off tc write c.1

/-! ## Words and their fields -/

/-- The word that a LOCK-protected write leaves to perform: exempt fields and W1C fields as written,
the other fields as they stand; and whether that is the word written (R75). -/
def lockMerge (fs : List FieldRow) (old d : Nat) : Nat × Bool :=
  fs.foldl (fun (x : Nat × Bool) f =>
    let w := f.hi + 1 - f.lo
    let stand := if f.acc == .rw then bits old f.lo w else 0
    if f.exempt || f.acc == .w1c || f.acc == .ro || f.acc == .rc then x
    else (putBits x.1 f.lo w stand, x.2 && bits d f.lo w == stand)) (d, true)

/-- Some field of the word may be written while LOCK is held (R75). -/
def lockFree (fs : List FieldRow) : Bool :=
  fs.any fun f => f.acc == .w1c || (f.exempt && (f.acc == .rw || f.acc == .wo || f.acc == .w1s))

/-- A word as the access codes of its fields let a write of `d` change it (R3 to R5): RW fields take
the value, W1C bits written 1 clear; W1S and WO fields act and store nothing. -/
def storedWord (fs : List FieldRow) (old d : Nat) : Nat :=
  let rw := RegMap.maskOf .rw fs
  let w1c := RegMap.maskOf .w1c fs
  let kept := old &&& (0xFFFFFFFF ^^^ rw)
  (kept ||| (d &&& rw)) &&& (0xFFFFFFFF ^^^ (w1c &&& d))

/-- The upsets of a word end with a write of it (R87). -/
def State.mendUpsets (s : State) (page off : Nat) : State :=
  if (s.pg page).upsets.any (·.1 == off) then
    s.setPg page fun g => { g with upsets := g.upsets.filter (·.1 != off) }
  else s

/-- The value held for a lower word of a wide value, or the word as it stands (R63). -/
def State.heldWord (s : State) (page off : Nat) : Nat :=
  match s.hold.find? fun e => e.1 == regKey page off with
  | some e => e.2.toNat
  | none => s.reg page off

/-- A write of `d` to one word, stored by the access codes of its fields. -/
def State.storeOne (s : State) (page off d : Nat) : State :=
  (s.setReg page off (storedWord (RegMap.fieldsAt page off) (s.reg page off) d)).mendUpsets page off

/-- The held lower words of a wide value are committed, `n` of them from `off` (R63). -/
def State.commitHeld (s : State) (page off : Nat) : Nat → State
  | 0 => s
  | n + 1 =>
    let t := s.storeOne page off (s.heldWord page off)
    let t := { t with hold := cellErase (regKey page off) t.hold }
    t.commitHeld page (off + 4) n

/-- A write of `d` is stored: the word, and with the highest word of a wide value its lower words
(R63). -/
def State.storeWord (s : State) (page off d : Nat) : State :=
  match wideOf page off with
  | some (b, n) => ((s.commitHeld page b (n - 1)).storeOne page off d)
  | none => s.storeOne page off d

/-- A write waits in the hold register: it is not the highest word of its wide value (R63). -/
def isHeldWord (page off : Nat) : Bool :=
  match wideOf page off with
  | some (b, n) => decide (off + 4 < b + 4 * n) && (rwMask page off != 0
      || RegMap.maskOf .wo (RegMap.fieldsAt page off) != 0)
  | none => false

/-- What a family of pages does with a write of a block register that has passed the checks: the
request, the data word; the code it completes with and the state after it. -/
abbrev Writer := State → Req → Nat → Status × State

/-- What a family does with a read that has passed the checks: code, value and state. -/
abbrev Reader := State → Req → Status × Nat × State

/-- The writer of a register without checks or actions of its own. -/
def plainWrite : Writer := fun s q d => (.ok, s.storeWord q.page q.off d)

/-- A write that a check refuses changes nothing (R6, R89). -/
def refuse (c : Status) (s : State) : Status × State := (c, s)

/-- A write stored when a condition on it holds, and refused with CFG_INVALID otherwise (R6). -/
def storeIf (ok : Bool) : Writer := fun s q d =>
  if ok then plainWrite s q d else (.cfgInvalid, s)

/-- The page under which a request's held words are kept: page 0x0CC holds one destination address per tenant
(R425). -/
def holdPage (q : Req) : Nat :=
  if q.page = 0x0CC ∧ q.off < 0x0C0 ∧ q.slot.isSome = true ∧ q.tc ≠ 0 then 0x400 + q.tc else q.page

/-- The page performs a write: LOCK first (R75), then the hold register of wide values (R63), then
the writer of the family. -/
def State.perform (s : State) (h : Writer) (q : Req) (d : Nat) : Status × State :=
  let fs := RegMap.fieldsAt q.page q.off
  if s.held q.page && lockProtected q.page q.off then
    if lockFree fs then
      let m := lockMerge fs (s.reg q.page q.off) d
      let r := h s q m.1
      (if m.2 then r.1 else firstOf .prot r.1, r.2)
    else (.prot, s)
  else if isHeldWord q.page q.off then
    (.ok, { s with hold := cellInsert (regKey (holdPage q) q.off) (BitVec.ofNat 32 d) s.hold })
  else h s q d

/-- A register write from its arrival to its answer (R64). -/
def State.write (s : State) (h : Writer) (a : Access) : State :=
  match s.route a.addr.toNat with
  | none => s.answer .cfgInvalid
  | some r =>
    let s := match r.page with
      | some p => s.scrubFirst p
      | none => s
    match s.stopOf true a r with
    | some c => (s.stopped true a r c).answer c.1
    | none =>
      let q : Req := ⟨a.port, a.tc.val, r.page.getD 0, r.off, r.slot⟩
      let x := s.perform h q a.data.toNat
      (x.2.capture q.page q.off q.tc true x.1).answer x.1

/-- The byte address of a word of a page in the direct window (R61). -/
def directAddr (page off : Nat) : BitVec 32 := BitVec.ofNat 32 (0x40000000 + page * 4096 + off)

/-- A command that writes the register at `off` of `page`: the data word is the requester's with the
command's own fields put in by `f`. -/
def State.writeReg (s : State) (h : Writer) (page off : Nat) (w : RegWrite) (f : Nat → Nat) : State :=
  s.write h { port := w.port, tc := w.tc, addr := directAddr page off,
              data := BitVec.ofNat 32 (f w.data.toNat), cc := w.cc }

/-! ## Reads -/

/-- The word as a read shows it: WO fields and reserved bits as zero (R3, R5). -/
def shownWord (fs : List FieldRow) (v : Nat) : Nat :=
  v &&& (RegMap.maskOf .rw fs ||| RegMap.maskOf .ro fs ||| RegMap.maskOf .rc fs
    ||| RegMap.maskOf .w1c fs ||| RegMap.maskOf .w1s fs)

/-- The upper words of a wide value are latched, `n` of them from `off` (R63). -/
def State.latchWords (s : State) (page off : Nat) : Nat → State
  | 0 => s
  | n + 1 =>
    let t := { s with latch := cellInsert (regKey page off) (BitVec.ofNat 32 (s.reg page off)) s.latch }
    t.latchWords page (off + 4) n

/-- The word at an offset as a read takes it: the latch for an upper word of a wide value once its
lowest word has been read (R63; log entry 11), otherwise the register. -/
def State.readWord (s : State) (page off : Nat) : Nat :=
  match wideOf page off with
  | some (b, _) =>
    if off = b then s.reg page off
    else
      match s.latch.find? fun e => e.1 == regKey page off with
      | some e => e.2.toNat
      | none => s.reg page off
  | none => s.reg page off

/-- An owner's read of RC fields clears them and replaces the replay record (R68, R83). -/
def State.clearOnRead (s : State) (q : Req) (v : Nat) : State :=
  let rc := RegMap.maskOf .rc (RegMap.fieldsAt q.page q.off)
  if rc = 0 ∨ s.owns q = false then s
  else
    (s.setReg q.page q.off (s.reg q.page q.off &&& (0xFFFFFFFF ^^^ rc))).setPg q.page fun g =>
      { g with replay := some ⟨q.off / 4, q.tc, BitVec.ofNat 32 v⟩ }

/-- The reader of a register that is read as it is stored. -/
def plainRead : Reader := fun s q =>
  let v := shownWord (RegMap.fieldsAt q.page q.off) (s.readWord q.page q.off)
  let t := match wideOf q.page q.off with
    | some (b, n) => if q.off = b then s.latchWords q.page (b + 4) (n - 1) else s
    | none => s
  (.ok, v, t.clearOnRead q v)

/-- A read with the replay flag (R83). -/
def State.replay (s : State) (q : Req) : Status × Nat × State :=
  match (s.pg q.page).replay with
  | some r => if r.off = q.off / 4 ∧ r.tc = q.tc then (.ok, r.value.toNat, s) else (.skipped, 0, s)
  | none => (.skipped, 0, s)

/-- A register read from its arrival to its answer (R64). -/
def State.read (s : State) (h : Reader) (a : Access) : State :=
  let A := addressA a.addr.toNat a.replay
  match s.route a.addr.toNat with
  | none => s.answerRead a.tc.val A .ok 0
  | some r =>
    let s := match r.page with
      | some p => s.scrubFirst p
      | none => s
    match s.stopOf false a r with
    | some c => (s.stopped false a r c).answerRead a.tc.val A c.1 0
    | none =>
      let q : Req := ⟨a.port, a.tc.val, r.page.getD 0, r.off, r.slot⟩
      let x := if a.replay then s.replay q else h s q
      (x.2.2.capture q.page q.off q.tc false x.1).answerRead a.tc.val A x.1 x.2.1

/-- A command that reads the register at `off` of `page` through the direct window. -/
def State.readReg (s : State) (h : Reader) (page off : Nat) (r : RegRead) : State :=
  s.read h { port := r.port, tc := r.tc, addr := directAddr page off }

/-! ## Page reset -/

/-- Every RW field of CTRL, of IRQ_EN and of the words from 0x040 of `page` returns to its reset
value (R67). -/
def State.resetRw (s : State) (page : Nat) : State :=
  let t := (configOffs page).foldl (fun t o =>
    let m := rwMask page o
    t.setReg page o ((t.reg page o &&& (0xFFFFFFFF ^^^ m)) |||
      ((RegMap.resetWord page o).toNat &&& m))) s
  { t.setPg page (fun g => { g with replay := none, upsets := [] }) with
    hold := t.hold.filter fun e => e.1 / 4096 != page }

end Sys2Proof.Machine
end

