-- ==== Sys2Proof/Machine/Ctf.lean ====
section
/-! DEFINITION. The cycle-time fabric (chapter 2): crossings, offsets, states, the reference, the stamp
seed, the pair, UTC, the scheduling table and its signals. -/

namespace Sys2Proof.Machine

open Reg

/-! ## Lists of channels -/

/-- The channels of the priority list in force, in order: the entries before the first empty one
(R39). -/
def State.priorities (s : State) : List Nat :=
  let v := s.cfg CTF_PRI
  ((List.range 6).map fun k => bits v (4 * k) 4).takeWhile (· != 0)

/-- The channel of code `c`, 1 to 6. -/
def State.chan (s : State) (c : Nat) : ChanState := s.ctf.chans.getD (c - 1) {}

/-- The state with the channel of code `c` changed. -/
def State.setChan (s : State) (c : Nat) (f : ChanState → ChanState) : State :=
  { s with ctf := { s.ctf with chans := s.ctf.chans.set (c - 1) (f (s.chan c)) } }

/-- Four accepted positive crossings in succession at intervals of 45 to 65 Hz (R37). -/
def ChanState.qualified (c : ChanState) : Bool := c.good == 3

/-- The learned positive offset is valid (R38). -/
def ChanState.offsetOk (c : ChanState) : Bool := c.pos.ok

/-- CTF_QUAL shows the channels (R37, R38). -/
def State.showQual (s : State) : State :=
  let q := (List.range 6).foldl (fun a k => a + if (s.chan (k + 1)).qualified then 2 ^ k else 0) 0
  let o := (List.range 6).foldl (fun a k => a + if (s.chan (k + 1)).offsetOk then 2 ^ k else 0) 0
  (s.wr CTF_QOK q).wr CTF_OFSOK o

/-! ## Measurements -/

/-- The circular distance from `b` to `a` in a cycle of 65,536 ticks, −32,768 to 32,767. -/
def phaseDiff (a b : Nat) : Int := (((a : Int) - b + 32768) % 65536) - 32768

/-- The mean phase of measurements (R37). -/
def meanPhase : List Nat → Nat
  | [] => 0
  | m :: l =>
    let t := ((m :: l).map fun x => phaseDiff x m).foldl (· + ·) 0
    ((m : Int) + divRound t (l.length + 1)).toNat % 65536

/-- The span of measurements in ticks (R38). -/
def spanPhase : List Nat → Nat
  | [] => 0
  | m :: l =>
    let d := l.map fun x => phaseDiff x m
    (d.foldl max 0 - d.foldl min 0).toNat

/-- Sixteen measurements that span no more than 64 ct on a channel qualified for 16 cycles (R38). -/
def CrossState.meets (x : CrossState) (qualCyc : Nat) : Bool :=
  decide (16 ≤ qualCyc) && x.meas.length == 16 && decide (spanPhase x.meas ≤ 64)

/-- The validity of one polarity judged anew; a valid value is kept for R53. -/
def CrossState.judge (x : CrossState) (qualCyc : Nat) : CrossState :=
  let ok := x.meets qualCyc
  { x with ok := ok, lastOk := if ok then some (meanPhase x.meas) else x.lastOk }

/-- Both offsets of channel `c` judged anew (R38). -/
def State.judgeChan (s : State) (c : Nat) : State :=
  (s.setChan c fun h => { h with pos := h.pos.judge h.qualCyc, neg := h.neg.judge h.qualCyc }).showQual

/-- A channel stops being qualified: its measurements and averages are discarded (R38). -/
def ChanState.unqualify (h : ChanState) : ChanState :=
  { h with good := 0, qualCyc := 0, revertCyc := 0,
           pos := { h.pos with meas := [], ok := false },
           neg := { h.neg with meas := [], ok := false } }

/-! ## States and the reference -/

/-- The period frozen on entry to FLYWHEEL or HOLDOVER: the mean of up to 16 LOCKED cycles since the
last re-phase, else the period in force (R46). -/
def State.freeze (s : State) : State :=
  match s.ctf.periods with
  | [] => s
  | l => s.wr CTF_PERIOD (divRoundNat (l.foldl (· + ·) 0) l.length)

/-- Entry to HOLDOVER: the period is frozen, no channel is the reference, and the cycle count starts;
a holdover entered again before its re-phase goes on counting (Table 2-2, R46). -/
def State.enterHoldover (s : State) : State :=
  let old := s.rd CTF_REF
  let s := if s.ctfSt = ctfFlywheel then s else s.freeze
  let s := if s.ctf.leaving then s else s.wr CTF_HOLD_CYC 0
  let s := { s with ctf := { s.ctf with rephase := false, leaving := true } }
  ((((s.wr CTF_ST ctfHoldover).wr CTF_REF 0).count CTF_HOLDN).raise 0x010 3).log 0x2002 deviceTc old

/-- Entry to LOCKED (Table 2-2). -/
def State.enterLocked (s : State) : State :=
  let s := s.wr CTF_ST ctfLocked
  { s with ctf := { s.ctf with lockCnt := 0, overCnt := 0, everLocked := true } }

/-- Channel `c` becomes reference and origin, the current cycle is to end at its next positive
crossing, and every offset is invalid (Table 2-2, R47). -/
def State.acquireOn (s : State) (c : Nat) : State :=
  let s := ((s.wr CTF_ST ctfAcquire).wr CTF_REF c).wr CTF_ORIGIN c
  { s with ctf := { s.ctf with
      rephase := true, acqCyc := 0, lockCnt := 0, overCnt := 0,
      chans := s.ctf.chans.map fun (h : ChanState) =>
        { h with revertCyc := 0, pos := { h.pos with meas := [], ok := false },
                 neg := { h.neg with meas := [], ok := false } } } }.showQual

/-- The first channel of the priority list that is qualified, apart from `x`. -/
def State.firstQualified (s : State) (x : Nat) : Option Nat :=
  s.priorities.find? fun c => c != x && (s.chan c).qualified

/-- FREE, once the seed is accepted, and HOLDOVER end when a listed channel is qualified; ACQUIRE
without a reference takes one in the same way (Table 2-2, R544; log entry 12). -/
def State.seek (s : State) : State :=
  let st := s.ctfSt
  if (st = ctfFree ∧ s.ctf.seeded = true) ∨ st = ctfHoldover ∨ (st = ctfAcquire ∧ s.rd CTF_REF = 0) then
    match s.firstQualified 0 with
    | some c => s.acquireOn c
    | none => s
  else s

/-- The switch target of R44. -/
def State.switchTarget (s : State) : Option Nat :=
  let r := s.rd CTF_REF
  s.priorities.find? fun c => c != r && (s.chan c).qualified && (s.chan c).offsetOk

/-- Channel `c` becomes the reference without a re-phase: counted, interrupt, power entry; `kind` 1
for a revert (R44, R45). -/
def State.switchTo (s : State) (c kind : Nat) : State :=
  let old := s.rd CTF_REF
  let s := { s with ctf := { s.ctf with
    chans := s.ctf.chans.map fun (h : ChanState) => { h with revertCyc := 0 } } }
  (((s.wr CTF_REF c).count CTF_SWITCH).raise 0x010 2).log 0x2001 deviceTc
    (old + c * 2 ^ 8 + kind * 2 ^ 16)

/-- The CTF leaves LOCKED for another state. -/
def State.leaveLocked (s : State) (st : Nat) : State :=
  { s.wr CTF_ST st with ctf := { s.ctf with unlocked := true, acqCyc := 0, lockCnt := 0, overCnt := 0 } }

/-- The reference is lost in FLYWHEEL: to LOCKED on the switch target, or to HOLDOVER (Table 2-2). -/
def State.flywheelLost (s : State) : State :=
  match s.switchTarget with
  | some c => (s.switchTo c 0).enterLocked
  | none => s.enterHoldover

/-- The reference is lost: what Table 2-2 does in the present state. In LOCKED nothing happens
before FLYWHEEL is entered. -/
def State.referenceLost (s : State) : State :=
  let st := s.ctfSt
  if st = ctfFlywheel then s.flywheelLost
  else if st = ctfAcquire then
    match s.firstQualified (s.rd CTF_REF) with
    | some c => s.acquireOn c
    | none => s.enterHoldover
  else s

/-- FLYWHEEL is entered: LOSS interrupt, the period frozen; a reference already declared lost is
acted on at once (Table 2-2). -/
def State.enterFlywheel (s : State) : State :=
  let s := (s.freeze.leaveLocked ctfFlywheel).raise 0x010 1
  if (s.chan (s.rd CTF_REF)).lost then s.flywheelLost else s

/-- The loss forced by CTF_FORCE_NEXT at a boundary (R45). -/
def State.forcedLoss (s : State) : State :=
  if s.rd CTF_REF = 0 then s
  else if s.ctfSt = ctfLocked then
    ((s.freeze.leaveLocked ctfFlywheel).raise 0x010 1).flywheelLost
  else s.referenceLost

/-! ## Crossings -/

/-- One present sample of value `w` at tick `t` in the detector of one polarity, `w` counted in the
direction of the crossing and `h` the level H: the detector after it, and the interpolated tick of a
crossing that it confirms (R34). -/
def CrossState.present (x : CrossState) (t : Nat) (w : Int) (h : Nat) : CrossState × Option Nat :=
  let x :=
    if w < 0 then { x with before := some (t, w), after := none }
    else
      match x.after with
      | some _ => x
      | none => { x with after := some (t, w) }
  if w ≤ -(h : Int) then ({ x with armed := true, count := 0 }, none)
  else if (h : Int) ≤ w ∧ x.armed = true then
    if x.count = 1 then
      let at' := match x.before, x.after with
        | some (tb, wb), some (ta, wa) =>
          tb + (divRound (((ta - tb : Nat) : Int) * -wb) (wa - wb).toNat).toNat
        | _, _ => t
      ({ x with armed := false, count := 0 }, some at')
    else ({ x with count := 1 }, none)
  else ({ x with count := 0 }, none)

/-- The last accepted crossing is less than 32,768 ct ago (R35). -/
def CrossState.tooSoon (x : CrossState) (i : Nat) : Bool :=
  match x.last with
  | some l => decide (i < l + 32768)
  | none => false

/-- An interval of `n` ticks lies between 1/65 s and 1/45 s at the present period (R37). -/
def State.intervalOk (s : State) (n : Nat) : Bool :=
  let c := n * s.rd CTF_PERIOD
  decide (48000000 * 65536 ≤ c * 65) && decide (c * 45 ≤ 48000000 * 65536)

/-- The phase of tick `i` in the stamp (R37). -/
def State.phaseAt (s : State) (i : Nat) : Nat :=
  (((i : Int) - s.ctf.cycTick) % 65536).toNat

/-- A measurement joins the most recent 16 (R37). -/
def CrossState.measure (x : CrossState) (m : Nat) : CrossState :=
  { x with meas := (m :: x.meas).take 16 }

/-- While LOCKED, the accepted crossing of a qualified channel at tick `i` is measured and the moving
average shown in CTF_OFSn (R37, R38). -/
def State.learn (s : State) (c : Nat) (positive : Bool) (i : Nat) : State :=
  if s.ctfSt = ctfLocked ∧ (s.chan c).qualified = true then
    let m := s.phaseAt i
    let s := s.setChan c fun h =>
      if positive then { h with pos := h.pos.measure m } else { h with neg := h.neg.measure m }
    let h := s.chan c
    let s := if positive then s.wr (CTF_OFSP (c - 1)) (meanPhase h.pos.meas)
      else s.wr (CTF_OFSN (c - 1)) (meanPhase h.neg.meas)
    s.judgeChan c
  else s

/-- The reference crossing of an accepted positive crossing at tick `i`: the crossing less the
channel's learned offset, which is zero for the origin (R40); its phase error in ticks. -/
def State.phaseError (s : State) (i : Nat) : Int :=
  let r := s.rd CTF_REF
  let off := if r = s.rd CTF_ORIGIN then 0 else s.rd (CTF_OFSP (r - 1))
  phaseDiff (s.phaseAt i) off

/-- A reference crossing with its phase error acts on the state (R41, Table 2-2). -/
def State.referenceCrossing (s : State) (i : Nat) : State :=
  let e := s.phaseError i
  let s := s.wr CTF_PHERR (unsigned 16 e)
  let st := s.ctfSt
  if st = ctfAcquire ∧ s.ctf.rephase = false then
    if e.natAbs ≤ 16 then
      if 3 ≤ s.ctf.lockCnt then (s.enterLocked).raise 0x010 0
      else { s with ctf := { s.ctf with lockCnt := s.ctf.lockCnt + 1 } }
    else { s with ctf := { s.ctf with lockCnt := 0 } }
  else if st = ctfLocked then
    if 256 < e.natAbs then
      if 1 ≤ s.ctf.overCnt then
        s.leaveLocked ctfAcquire
      else { s with ctf := { s.ctf with overCnt := s.ctf.overCnt + 1 } }
    else { s with ctf := { s.ctf with overCnt := 0 } }
  else if st = ctfFlywheel then s.enterLocked
  else s

/-- An accepted positive crossing of channel `c` at tick `i` (R35 to R38). -/
def State.acceptPositive (s : State) (c i : Nat) : State :=
  let h := s.chan c
  let good := match h.pos.last with
    | some l => if s.intervalOk (i - l) then min 3 (h.good + 1) else 0
    | none => 0
  let s := s.setChan c fun h =>
    let h := if good = 0 then h.unqualify else { h with good := good }
    { h with lost := false, pos := { h.pos with last := some i } }
  let s := s.showQual.learn c true i
  let s := if s.rd CTF_REF = c then s.referenceCrossing i else s
  s.seek

/-- A sample of channel `c` at the present tick reaches the detectors: `v` is its value, none where
the word is absent. The state after it, and whether the sample confirmed an accepted positive
crossing of the reference while a re-phase waits (R34, R35, R47). -/
def State.ctfSample (s : State) (c : Nat) (v : Option Int) : State × Bool :=
  match v with
  | none =>
    (s.setChan c fun h => { h with pos := { h.pos with count := 0 }, neg := { h.neg with count := 0 } },
      false)
  | some v =>
    let hy := s.rd CTF_HYST * 2048
    let p := (s.chan c).pos.present s.ticks v hy
    let n := (s.chan c).neg.present s.ticks (-v) hy
    let s := s.setChan c fun h => { h with pos := p.1, neg := n.1 }
    let s := match n.2 with
      | none => s
      | some i =>
        if (s.chan c).neg.tooSoon i then s.count CTF_GLITCH
        else (s.setChan c fun h => { h with neg := { h.neg with last := some i } }).learn c false i
    match p.2 with
    | none => (s, false)
    | some i =>
      if (s.chan c).pos.tooSoon i then (s.count CTF_GLITCH, false)
      else
        let waits := s.ctf.rephase && s.rd CTF_REF == c
        (s.acceptPositive c i, waits)

/-! ## Scheduling table -/

/-- Entry `n` of the shadow bank: the 64 bits of its two words (Table 2-7). -/
def State.shadowEntry (s : State) (n : Nat) : Nat := s.rd64 (CTF_SLOT_LO n) (CTF_SLOT_HI n)

/-- Entry `n` of the active bank. -/
def State.activeEntry (s : State) (n : Nat) : Nat := (cellAt 0#64 n s.ctf.active).toNat

/-- The fields of Table 2-3. -/
def entStart (e : Nat) : Nat := bits e 0 16
def entLen (e : Nat) : Nat := bits e 16 16
def entCons (e : Nat) : Nat := bits e 32 4
def entSig (e : Nat) : Nat := bits e 36 4
def entPer (e : Nat) : Nat := bits e 40 8
def entCofs (e : Nat) : Nat := bits e 48 8
def entAnch (e : Nat) : Nat := bits e 56 4
def entHold (e : Nat) : Bool := bit e 60
def entEn (e : Nat) : Bool := bit e 61

/-- An enabled entry whose length or period is zero (R52). -/
def entNoop (e : Nat) : Bool := entEn e && (entLen e == 0 || entPer e == 0)

/-- An enabled entry that a commit refuses: a reserved anchor, an offset outside its period, or a
consumer or signal that R54 does not list (R51, R54). -/
def entBad (e : Nat) : Bool :=
  let c := entCons e
  let a := entAnch e
  entEn e &&
    (!((c == 1 || c == 2) && entSig e == 0 || c == 5 || c == 7)
      || !(a ≤ 6 || (9 ≤ a && a ≤ 14))
      || (entPer e != 0 && decide (entPer e ≤ entCofs e)))

/-- The phase of an anchor; none where no offset of its channel has been valid since the last
re-phase (R53). -/
def State.anchorPhase (s : State) (a : Nat) : Option Nat :=
  if a = 0 then some 0
  else if a ≤ 6 then (s.chan a).pos.lastOk
  else (s.chan (a - 8)).neg.lastOk

/-- The number of entries of the active bank that satisfy `p`. -/
def State.countEntries (s : State) (p : Nat → Bool) : Nat :=
  ((List.range 256).filter fun n => p (s.activeEntry n)).length

/-- CTF_NOANCH counts the enabled entries of the active bank that have no anchor (R53). -/
def State.countNoAnchor (s : State) : State :=
  s.wr CTF_NOANCH (min 255 (s.countEntries fun e =>
    entEn e && !entNoop e && (s.anchorPhase (entAnch e)).isNone))

/-- An entry of the active bank acts in the present cycle: enabled, not a no-op, with an anchor, in
its cycle of the period, and held where the CTF is in FLYWHEEL or HOLDOVER (R50, R52, R53). -/
def State.entryActs (s : State) (e : Nat) : Bool :=
  entEn e && !entNoop e && (s.anchorPhase (entAnch e)).isSome
    && decide ((s.stamp.cyc + entPer e - entCofs e) % entPer e = 0)
    && (!s.estimated || entHold e)

/-- A signal of a consumer is asserted by some entry (R50). -/
def State.signalOn (s : State) (cons sig : Nat) : Bool :=
  s.ctf.asserted.any fun n => entCons (s.activeEntry n) == cons && entSig (s.activeEntry n) == sig

/-- The Tun quiet-slot gate: an asserted TUN entry or a derived quiet slot (R48). -/
def State.quietGate (s : State) : Bool := s.signalOn 1 0 || s.ctf.quiet != []

/-- The tick in the cycle at which an edge of an entry falls (R48, R50). -/
def State.edgePhase (s : State) (e : Nat) (edge : SchedEdge) : Nat :=
  let st := (s.anchorPhase (entAnch e)).getD 0 + entStart e
  match edge with
  | .assertSignal => st % 65536
  | .releaseSignal => (st + entLen e) % 65536
  | .openQuiet => (st + 65536 - s.rd CTF_QGUARD) % 65536
  | .closeQuiet => (st + entLen e + s.rd CTF_QGUARD) % 65536

/-- The validation of the shadow bank: the first bad entry (R51). -/
def State.firstBadEntry (s : State) : Option Nat :=
  (List.range 256).find? fun n => entBad (s.shadowEntry n)

/-- The outcome of a commit is shown with its interrupt (R51). -/
def State.commitCode (s : State) (c : Status) : State := (s.wr CTF_SCODE (codeOf c)).raise 0x010 5

/-- A commit (R51, R52). -/
def State.schedCommit (s : State) : State :=
  let at' := s.rd CTF_AT_LO + 2 ^ 32 * s.rd CTF_AT_HI
  match s.firstBadEntry with
  | some n => (s.wr CTF_FIRST n).commitCode .cfgInvalid
  | none =>
    if at' * 65536 < stampNat s.stamp + 1024 then s.commitCode .timeout
    else
      let z := ((List.range 256).filter fun n => entNoop (s.shadowEntry n)).length
      let s := s.wr CTF_ZCNT (min 255 z)
      { s with ctf := { s.ctf with commitAt := some at' } }

/-- The shadow bank becomes active and the active bank becomes the shadow (R51). -/
def State.swapBanks (s : State) : State :=
  let new := ((List.range 256).filter fun n => s.shadowEntry n != 0).map fun n =>
    (n, BitVec.ofNat 64 (s.shadowEntry n))
  let old := s.ctf.active
  let s := (List.range 256).foldl (fun s n =>
    s.wr64 (CTF_SLOT_LO n) (CTF_SLOT_HI n) (cellAt 0#64 n old).toNat) s
  let s := { s with ctf := { s.ctf with active := new, asserted := [], quiet := [], commitAt := none } }
  ((s.wr CTF_ABANK (1 - s.rd CTF_ABANK)).commitCode .ok).countNoAnchor

/-! ## Boundaries -/

/-- The stamp of a boundary with the UTC count is latched, unless the pair is frozen or the stamp is
held (R57). -/
def State.latchPair (s : State) : State :=
  if s.ctf.pairHeld ∨ s.ctf.seeded = false then s
  else
    ((s.wr64 CTF_PSL CTF_PSH (stampNat s.stamp)).wr CTF_PUTC (s.rd CTF_UTC)).wr CTF_PFRAC
      (s.rd CTF_UTC_FRAC)

/-- A cycle more for every qualified channel (R38, R45). -/
def State.qualCycle (s : State) : State :=
  let locked := s.ctfSt == ctfLocked
  let s := { s with ctf := { s.ctf with chans := s.ctf.chans.map fun (h : ChanState) =>
    let h := if h.qualified then { h with qualCyc := h.qualCyc + 1 } else h
    let h := { h with pos := h.pos.judge h.qualCyc, neg := h.neg.judge h.qualCyc }
    { h with revertCyc := if locked && h.qualified && h.offsetOk then h.revertCyc + 1 else 0 } } }
  s.showQual

/-- The CTF at a cycle boundary, after the cycle number has been advanced: the pair, the
configuration of R39, the counts of R38, R41, R45 and R46, a forced loss (R31, R45, R57). -/
def State.ctfBoundary (s : State) (rephase : Bool) : State :=
  let s := s.latchPair
  let s :=
    if rephase then
      let s := { s with ctf := { s.ctf with
        rephase := false, periods := [], lockCnt := 0, asserted := [], quiet := [],
        chans := s.ctf.chans.map fun (h : ChanState) =>
          { h with pos := { h.pos with lastOk := none }, neg := { h.neg with lastOk := none } } } }
      if s.ctf.leaving then
        ({ s with ctf := { s.ctf with leaving := false } }.raise 0x010 4).log 0x2003 deviceTc
          (s.rd CTF_REF + s.rd CTF_HOLD_CYC * 2 ^ 32)
      else s
    else s
  let s := if s.ctf.forceNext then
      { s with ctf := { s.ctf with forceNext := false } }.forcedLoss
    else s
  let s := if s.ctfSt = ctfAcquire then { s with ctf := { s.ctf with acqCyc := s.ctf.acqCyc + 1 } }
    else s
  s.qualCycle.seek.countNoAnchor

/-- The cycle in progress closes at the present tick, and the next opens at phase 0 (R31, R47). -/
def State.openCycle (s : State) : State :=
  let s := if s.ctfSt = ctfHoldover ∨ s.ctf.leaving = true then s.count CTF_HOLD_CYC else s
  { s with inForce := s.regs,
           ctf := { s.ctf with
             cyc := if s.ctf.seeded then (s.ctf.cyc + 1) % 2 ^ 48 else s.ctf.cyc,
             ph := 0, cycTick := s.ticks, unlocked := false } }

/-- The rest of the cycle passes and CTF_PERIOD takes the period measured: the nominal one in FREE;
it stays frozen in FLYWHEEL and HOLDOVER (R46). -/
def State.closePeriod (s : State) (period : Nat) : State :=
  let st := s.ctfSt
  let s := s.advance (65536 - s.ctf.ph)
  if st = ctfFlywheel ∨ st = ctfHoldover then s
  else
    let p := if st = ctfFree then (if s.on CTF_NOMF then 800000 else 960000) else period
    let s := s.wr CTF_PERIOD p
    if st = ctfLocked then
      { s with ctf := { s.ctf with periods := (p :: s.ctf.periods).take 16 } }
    else s

/-! ## Register access -/

/-- The code of a configuration write of page 0x010 is shown in CTF_CFGSTS. -/
def State.ctfCode (r : Status × State) : Status × State := (r.1, r.2.wr CTF_CCODE (codeOf r.1))

/-- The check of a priority list (R39). -/
def refpriCheck (v : Nat) : Status :=
  let l := ((List.range 6).map fun k => bits v (4 * k) 4).takeWhile (· != 0)
  if l.isEmpty then .zeroLen
  else if l.any (7 ≤ ·) ∨ l.eraseDups.length ≠ l.length then .cfgInvalid
  else .ok

/-- Writes of pages 0x010 and 0x011 (R32, R39, R41, R45, R51, R56, R60). -/
def ctfWrite : Writer := fun s q d =>
  let cfg (c : Status) : Status × State :=
    State.ctfCode (if c = .ok then plainWrite s q d else (c, s))
  if q.page = 0x010 then
    match q.off with
    | 0x04C => cfg (refpriCheck d)
    | 0x050 =>
      cfg (if bits d 0 12 = 0 ∨ bits d 16 9 < 10 ∨ 500 < bits d 16 9 then .cfgInvalid else .ok)
    | 0x054 => cfg (if bits d 8 8 = 0 then .zeroLen else .ok)
    | 0x0B4 => cfg (if bits d 0 8 = 0x80 then .cfgInvalid else .ok)
    | 0x0D0 => cfg .ok
    | 0x0A4 =>
      if s.ctf.seeded ∨ s.ctf.everLocked then (.prot, s)
      else
        let lo := s.heldWord 0x010 0x0A0
        let seed := stampOf (lo + 2 ^ 32 * d)
        let s := { s with hold := cellErase (regKey 0x010 0x0A0) s.hold }
        (.ok, { s with ctf := { s.ctf with
          seeded := true, cyc := (seed.cyc + 1) % 2 ^ 48, ph := 0, cycTick := s.ticks } }.seek)
    | 0x0B0 => (.ok, { s with ctf := { s.ctf with utcSet := some d } })
    | 0x0CC =>
      let s := if bit d 0 ∧ s.ctfSt ≠ ctfFree then
          (s.leaveLocked ctfAcquire).seek
        else s
      (.ok, if bit d 1 then { s with ctf := { s.ctf with forceNext := true } } else s)
    | _ => plainWrite s q d
  else
    match q.off with
    | 0x040 =>
      let s := s.wr CTF_VIEW (bits d 1 1)
      (.ok, if bit d 0 then s.schedCommit else s)
    | _ => plainWrite s q d

/-- Reads of pages 0x010 and 0x011: the stamp with its latch (R33), the frozen pair (R57), the view
of the scheduling bank (Table 2-6). Results with a stamp report HOLDOVER under R43. -/
def ctfRead : Reader := fun s q =>
  if q.page = 0x010 then
    match q.off with
    | 0x040 =>
      let v := stampNat s.stamp
      (s.okOr, v % 2 ^ 32, { s with
        latch := cellInsert (regKey 0x010 0x044) (BitVec.ofNat 32 (v / 2 ^ 32)) s.latch })
    | 0x044 => (s.okOr, (cellAt 0#32 (regKey 0x010 0x044) s.latch).toNat, s)
    | 0x0B8 => (s.okOr, s.rd CTF_PSL, { s with ctf := { s.ctf with pairHeld := true } })
    | 0x0BC => (s.okOr, s.rd CTF_PSH, s)
    | 0x0C4 => (.ok, s.rd CTF_PFRAC, { s with ctf := { s.ctf with pairHeld := false } })
    | _ => plainRead s q
  else if 0x100 ≤ q.off ∧ q.off < 0x900 ∧ s.on CTF_VIEW then
    let e := s.activeEntry ((q.off - 0x100) / 8)
    (.ok, if q.off % 8 = 0 then e % 2 ^ 32 else e / 2 ^ 32, s)
  else plainRead s q

/-! ## Commands -/

/-- ACQUIRE_RESTART (R41): sixteen cycles in ACQUIRE without lock restart acquisition. -/
def execAcquireRestart (s : State) : Result :=
  .next (if s.ctfSt = ctfAcquire ∧ 16 ≤ s.ctf.acqCyc then
      { s with ctf := { s.ctf with acqCyc := 0, lockCnt := 0 } }.count CTF_ACQFAIL
    else s)

/-- The channel to which the reference reverts: the first of higher priority that has been qualified
with a valid offset for CTF_REVERT_CYC cycles (R45). -/
def State.revertTarget (s : State) : Option Nat :=
  (s.priorities.takeWhile (· != s.rd CTF_REF)).find? fun c =>
    decide (s.rd CTF_REVERT_CYC ≤ (s.chan c).revertCyc)

/-- REVERT (R45): at a boundary in LOCKED the reference reverts. -/
def execRevert (s : State) : Result :=
  .next (if s.ctfSt = ctfLocked ∧ s.on CTF_REVERT_EN then
      match s.revertTarget with
      | some c => s.switchTo c 1
      | none => s
    else s)

/-- CTF_FORCE_NEXT (R45): a write of 1 to CTF_FORCE_NEXT. -/
def execCtfForceNext (w : RegWrite) (s : State) : Result :=
  .next (s.writeReg ctfWrite 0x010 0x0CC w (setBit · 1))

/-- STAMP_READ (R33): a read of CTF_STAMP_LO. -/
def execStampRead (r : RegRead) (s : State) : Result := .next (s.readReg ctfRead 0x010 0x040 r)

/-- PAIR_FREEZE (R57): a read of CTF_PAIR_STAMP_LO. -/
def execPairFreeze (r : RegRead) (s : State) : Result := .next (s.readReg ctfRead 0x010 0x0B8 r)

/-- PAIR_RELEASE (R57): a read of CTF_PAIR_SUB. -/
def execPairRelease (r : RegRead) (s : State) : Result := .next (s.readReg ctfRead 0x010 0x0C4 r)

/-- UTC_SET (R56): a write to CTF_UTC_SET. -/
def execUtcSet (w : RegWrite) (s : State) : Result :=
  .next (s.writeReg ctfWrite 0x010 0x0B0 w id)

/-- UTC_LOAD (R56): at a whole second of the RTC the written count is loaded and logged. -/
def execUtcLoad (s : State) : Result :=
  .next (match s.ctf.utcSet with
    | none => s
    | some v =>
      let old := s.rd CTF_UTC
      let s := { s with ctf := { s.ctf with utcSet := none, utcLost := false, rtcAcc := 0 } }
      let s := ((s.wr CTF_UTC v).wr CTF_UTC_FRAC 0).wr CTF_UTC_EST (b2n (!s.ctf.xt32))
      (s.raise 0x010 6).log 0x4001 deviceTc (old + v % 2 ^ 32 * 2 ^ 32))

/-- CTF_COMMIT (R51): a write of 1 to CTF_COMMIT. -/
def execCtfCommit (w : RegWrite) (s : State) : Result :=
  .next (s.writeReg ctfWrite 0x011 0x040 w (setBit · 0))

/-- REF48_RETRY (R29): at a cold start without REF48 the check is repeated; the retries are counted,
and logged once the clock is valid. -/
def execRef48Retry (valid : Bool) (s : State) : Result :=
  .next (match valid, s.ctf.refWait with
    | true, none => s
    | true, some n =>
      { s with ctf := { s.ctf with refWait := none } }.log 0x2004 deviceTc (n * 2 ^ 32)
    | false, r => { s with ctf := { s.ctf with refWait := some (r.getD 0 + 1) } })

end Sys2Proof.Machine
end

