-- ==== Sys2Proof/Machine/Acs.lean ====
section
/-! DEFINITION. Analogue inputs and conversion (chapter 5): the sample chain and its carry code,
interleaved pairs, diagnostic readings, the burden-continuity test and system calibration. -/

namespace Sys2Proof.Machine

open Reg

/-! ## Converters and channels -/

/-- What the ACS keeps of converter `c`. -/
def State.conv (s : State) (c : Nat) : ConvState := cellAt {} c s.acs.convs

/-- The state with what the ACS keeps of converter `c` changed. -/
def State.setConv (s : State) (c : Nat) (f : ConvState → ConvState) : State :=
  { s with acs := { s.acs with convs := cellPut {} c (f (s.conv c)) s.acs.convs } }

/-- The bank of a converter (Table 5-1). -/
def bankOf (c : Nat) : Nat := c / 8 - c / 72

/-- The position of a converter on its page (Table 5-1). -/
def posOf (c : Nat) : Nat := c - 8 * bankOf c

/-- The channel of a code of ACS_VPAIR (R137). -/
def vpairChan (v : Nat) : Option Nat :=
  match v with
  | 1 => some 64 | 2 => some 65 | 3 => some 66 | 4 => some 68 | 5 => some 69 | 6 => some 70
  | 7 => some 67 | 8 => some 71 | _ => none

/-- The CTF code of a channel, 1 to 6 for the phase voltages (R39). -/
def ctfCodeOf (ch : Nat) : Nat :=
  match ch with
  | 64 => 1 | 65 => 2 | 66 => 3 | 68 => 4 | 69 => 5 | 70 => 6 | _ => 0

/-- The primary channel that converter `c` partners under a pairing (R136, R137). -/
def partnerOf (pairs : List Nat) (c : Nat) : Option Nat :=
  if c < 64 then
    if c % 2 = 1 ∧ bit (pairs.getD (c / 8) 0) (c % 8 / 2) then some (c - 1) else none
  else if c = 72 then vpairChan (bits (pairs.getD 8 0) 0 4)
  else if c = 73 then vpairChan (bits (pairs.getD 8 0) 4 4)
  else none

/-- The partner converter of channel `ch` under a pairing. -/
def pairedBy (pairs : List Nat) (ch : Nat) : Option Nat :=
  (if ch < 64 then [ch + 1] else [72, 73]).find? fun c => partnerOf pairs c == some ch

/-- The pairing in force in the present cycle (R138). -/
def State.pairing (s : State) : List Nat :=
  (List.range 9).map fun b => s.regIn (0x020 + b) 0x040

/-- A channel runs at double rate (R136, R137). -/
def State.doubleRate (s : State) (ch : Nat) : Bool := (pairedBy s.pairing ch).isSome

/-- A channel is out of service: its converter partners another channel (R136). -/
def State.outOfService (s : State) (ch : Nat) : Bool := (partnerOf s.pairing ch).isSome

/-- The gain of Table 5-2 set for a converter. -/
def State.pgaGain (s : State) (c : Nat) : Nat := 2 ^ s.rd (ACS_PGA (bankOf c) (posOf c))

/-! ## The sample chain -/

/-- The carry code of a sample word (R141). -/
def sampleCode (cyc conv phase low : Nat) : Byte :=
  crc8 (beBytes 8 (cyc % 256 * 2 ^ 56 + conv * 2 ^ 48 + phase * 2 ^ 32 + low % 2 ^ 32))

/-- A sample word with its carry code (R140). -/
def sampleWord (cyc conv phase low : Nat) : BitVec 40 :=
  BitVec.ofNat 40 ((sampleCode cyc conv phase low).toNat * 2 ^ 32 + low % 2 ^ 32)

/-- A consumer's check of a word against the converter, cycle and position it expects (R142). -/
def sampleOk (cyc conv phase : Nat) (w : BitVec 40) : Bool :=
  w == sampleWord cyc conv phase w.toNat

/-- Offset and gain of R133 on a raw sample. -/
def correct (x ofs : Int) (gain : Nat) : Int := ((x + ofs) * gain + 2 ^ 21) / 2 ^ 22

/-- 2π in 1/2^48. -/
def twoPi48 : Nat := 1768559438007110

/-- The integrator of R135 after the sample `u`: `n` samples per cycle, leak shift `l`, period `p`;
the state counts 1/65,536 of a code and keeps 40 bits (log entry 13). -/
def integrate (y u : Int) (n l p : Nat) : Int :=
  satSigned 40 (y - y / 2 ^ l + divRound (u * twoPi48 * p) (n * 960000 * 2 ^ 32))

/-- The limit of R132 on a result. -/
def sat24 (y : Int) : Int := max (-8388607) (min 8388607 y)

/-- What a conversion delivers: the channel, the phase of the sample instant, whether the partner
converter took it, and the word as the bank makes it. -/
structure Delivery where
  chan  : Nat
  phase : Nat
  half  : Bool
  word  : BitVec 40
  deriving DecidableEq, Repr

/-- A sample joins sums. -/
def CycleSums.add (x : CycleSums) (v w : Int) : CycleSums :=
  { n := x.n + 1, sum := x.sum + v, sq := x.sq + w.natAbs ^ 2 }

/-- Two sums together. -/
def CycleSums.plus (x y : CycleSums) : CycleSums :=
  { n := x.n + y.n, sum := x.sum + y.sum, sq := x.sq + y.sq }

/-- The channel is under test in the present cycle (R146). -/
def State.underTest (s : State) (ch : Nat) : Bool := s.acs.testing == some ch && !s.acs.testDone

/-- A conversion at its sample instant: skipped or disabled positions, the clip, the chain of R133,
the counts and the word (R126, R127, R132 to R142). -/
def State.convert (s : State) (w : SampleIn) : State × Delivery :=
  let c := w.conv.val
  let b := bankOf c
  let k := posOf c
  let partner := partnerOf s.pairing c
  let ch := partner.getD c
  let half := partner.isSome
  let phase := 64 * w.pos.val + if half then 32 else 0
  let s := s.advanceTo phase
  let cyc := s.stamp.cyc
  let hb := b2n half * 2 ^ 27
  if !s.on (ACS_EN b k) then (s, ⟨ch, phase, half, sampleWord cyc c phase (2 ^ 24 + hb)⟩)
  else
    let soon := match (s.conv c).last with
      | some l => decide (s.ticks < l + 62)
      | none => false
    if soon then
      ((s.count (ACS_SKIPN b k)).raise (0x020 + b) 1,
        ⟨ch, phase, half, sampleWord cyc c phase (2 ^ 24 + hb)⟩)
    else
      let x := w.raw.toInt
      let o := signed 24 (s.rd (ACS_OFS b k))
      let y := correct x o (s.rd (ACS_GAIN b k))
      let pb := bankOf ch
      let pk := posOf ch
      let s := s.setConv c fun v => { v with
        last := some s.ticks, clip := v.clip || w.clip, raw := v.raw.add x (x + o) }
      let n := if s.doubleRate ch then 2048 else 1024
      let i := integrate (s.conv ch).integ y n (10 + s.rd (ACS_ILEAK pb pk)) (s.rd CTF_PERIOD)
      let integrates := ch < 72 && s.on (ACS_INT_EN pb pk)
      let z := sat24 (if integrates then i / 65536 else y)
      let s := s.setConv ch fun v => { v with
        integ := if integrates then i else v.integ, cal := v.cal.add z z }
      let s := if w.clip then (s.count (ACS_OVRN b k)).raise (0x020 + b) 0 else s
      let mux := s.rd (ACS_MUX b k)
      let test := (!half && (mux == 1 || mux == 2)) || s.underTest ch
      let low := unsigned 24 z + b2n w.clip * 2 ^ 25 + b2n test * 2 ^ 26 + hb
      (s, ⟨ch, phase, half, sampleWord cyc c phase low⟩)

/-! ## Calibration -/

/-- A write changes PGA, MUX, INT_EN, ILEAK or pairing of the channel of converter `c`: the step on it
ends with SKIPPED at the next boundary (R150). -/
def State.calDisturb (s : State) (c : Nat) : State :=
  match s.acs.cal with
  | none => s
  | some k =>
    if k.conv = c ∨ pairedBy s.pairing k.conv = some c then
      { s with acs := { s.acs with cal := some { k with abort := true } } }
    else s

/-- A step completes with a code (Table 5-10). -/
def State.calEnd (s : State) (c : Status) : State :=
  let s := { s with acs := { s.acs with cal := none } }
  let s := ((s.wr ACS_CAL_BUSY 0).wr ACS_CAL_ZERO 0).wr ACS_CAL_FULL 0
  (s.wr ACS_CAL_CODE (codeOf c)).raise 0x029 0

/-- A step is started (R147, R148, R150). -/
def State.calStart (s : State) (full : Bool) : Status × State :=
  if s.acs.cal.isSome then (.refusedPriority, s)
  else if s.rd ACS_CAL_NCYC = 0 then (.ok, s.wr ACS_CAL_CODE (codeOf .zeroLen))
  else
    (.ok, { s.wr ACS_CAL_BUSY 1 with acs := { s.acs with
      cal := some { full := full, conv := s.rd ACS_CAL_CONV, ncyc := s.rd ACS_CAL_NCYC } } })

/-- The converters of the channel of a step: its primary and its partner. -/
def State.calConvs (s : State) (k : CalStep) : Nat × Option Nat := (k.conv, pairedBy s.pairing k.conv)

/-- The mean of sums; where the channel has produced no sample the manual states none, and the value
is free (log entry 7). -/
def State.meanOf (s : State) (x : CycleSums) : Int × State :=
  if x.n = 0 then let d := s.draw 24; (signed 24 d.1, d.2) else (divRound x.sum x.n, s)

/-- The end of a zero step: means and offsets (R147). -/
def State.zeroEnd (s : State) (k : CalStep) : State :=
  let p := s.calConvs k
  let m1 := s.meanOf k.a
  let m2 := match p.2 with
    | some _ => m1.2.meanOf k.b
    | none => (0, m1.2)
  let s := (m2.2.wr ACS_CAL_MEAN (unsigned 24 m1.1)).wr ACS_CAL_MEAN2 (unsigned 24 m2.1)
  if 524288 < m1.1.natAbs ∨ 524288 < m2.1.natAbs then s.calEnd .cfgInvalid
  else
    let put (s : State) (c : Nat) (m : Int) : State :=
      (s.wr (ACS_OFS (bankOf c) (posOf c)) (unsigned 24 (-m))).setConv c fun v => { v with zeroOk := true }
    let s := put s p.1 m1.1
    let s := match p.2 with
      | some c => put s c m2.1
      | none => s
    s.calEnd .ok

/-- sin(π ÷ N) in 1/2^48, N = 1,024 or 2,048 (R148). -/
def sinPiN (n : Nat) : Nat := if n = 2048 then 431777037209 else 863553058405

/-- 1 ÷ H of R148 in 1/2^32: the integrator's response at the mains frequency, 1 without one. -/
def invH (intEn : Bool) (n l p : Nat) : Nat :=
  if intEn then
    let q := 2 ^ (48 - l)
    let d := q * q + (2 ^ 48 - q) * 4 * sinPiN n / 2 ^ 48 * sinPiN n
    isqrt d * 960000 * n * 2 ^ 32 / (p * twoPi48)
  else 2 ^ 32

/-- The gain of R148 for sums of squares, and the rms. -/
def calGain (x : CycleSums) (tgt inv : Nat) : Nat :=
  let r := isqrt ((4194304 * tgt) ^ 2 * x.n * 2 ^ 64 / x.sq)
  divRoundNat (r * inv) (2 ^ 64)

/-- The rms of sums, rounded. -/
def rmsOf (x : CycleSums) : Nat := if x.n = 0 then 0 else isqrtRound (x.sq / x.n)

/-- A gain lies in the range of R149. -/
def gainOk (g : Nat) : Bool := 0x300000 ≤ g && g ≤ 0x555555

/-- The end of a full-scale step: gains, rms values and the calibrated flag (R148, R149). -/
def State.fullEnd (s : State) (k : CalStep) : State :=
  let p := s.calConvs k
  let b := bankOf k.conv
  let i := posOf k.conv
  let n := if p.2.isSome then 2048 else 1024
  let inv := invH (s.on (ACS_INT_EN b i)) n (10 + s.rd (ACS_ILEAK b i)) (s.rd CTF_PERIOD)
  let tgt := s.rd ACS_CAL_TGT
  let g1 := calGain k.a tgt inv
  let g2 := calGain k.b tgt inv
  let bad := k.a.sq = 0 ∨ gainOk g1 = false ∨
    (p.2.isSome = true ∧ (k.b.sq = 0 ∨ gainOk g2 = false))
  if bad ∨ k.clip = true ∨ 7340032 < tgt then s.calEnd .cfgInvalid
  else
    let s := (s.wr ACS_CAL_RMS (rmsOf k.a)).wr ACS_CAL_RMS2 (if p.2.isSome then rmsOf k.b else 0)
    let cs := p.1 :: p.2.toList
    let zero := cs.all fun c => (s.conv c).zeroOk
    let put (s : State) (c g : Nat) : State :=
      let s := s.wr (ACS_GAIN (bankOf c) (posOf c)) g
      if zero then
        (s.wr (ACS_CALOK (bankOf c) (posOf c)) 1).wr (ACS_CALGAIN (bankOf c) (posOf c)) (s.rd (ACS_PGA b i))
      else s
    let s := put s p.1 g1
    let s := match p.2 with
      | some c => put s c g2
      | none => s
    s.calEnd .ok

/-- The step at a cycle boundary: an aborted step ends; a whole cycle is gathered, for the full-scale
step only a cycle spent in LOCKED (R147, R148, R150). `unlocked`: the CTF left LOCKED in the closed
cycle. -/
def State.calBoundary (s : State) (unlocked : Bool) : State :=
  match s.acs.cal with
  | none => s
  | some k =>
    if k.abort then s.calEnd .skipped
    else
      let p := s.calConvs k
      let locked := s.ctfSt == ctfLocked
      let k := { k with elapsed := k.elapsed + 1 }
      let k :=
        if !k.opened then { k with opened := !k.full || locked }
        else if k.full && (unlocked || !locked) then
          { k with got := 0, a := {}, b := {}, clip := false, opened := locked }
        else if k.ncyc ≤ k.got then k
        else
          { k with
            got := k.got + 1, a := k.a.plus (s.conv p.1).raw,
            b := match p.2 with
              | some c => k.b.plus (s.conv c).raw
              | none => k.b,
            clip := k.clip || (s.conv p.1).clip || (p.2.any fun c => (s.conv c).clip) }
      { s with acs := { s.acs with cal := some k } }

/-! ## Boundaries -/

/-- The reading of DXn at a boundary (R143, R144). -/
def State.dxReading (s : State) (n : Nat) (pairs : List Nat) : State :=
  let c := 72 + n
  let mean : Fld := if n = 0 then ACS_DX0_MEAN else ACS_DX1_MEAN
  let code : Fld := if n = 0 then ACS_DX0_CODE else ACS_DX1_CODE
  let src := bits (cellAt (RegMap.resetWord 0x029 (0x080 + 4 * n)) (regKey 0x029 (0x080 + 4 * n))
    s.inForce).toNat 0 4
  if (partnerOf pairs c).isSome then (s.wr code (codeOf .skipped)).raise 0x029 1
  else if src = 0 ∨ s.rd (ACS_MUX 8 (8 + n)) ≠ 3 then s
  else
    let x := (s.conv c).cal
    if x.n = 0 then s
    else
      let s := (s.wr mean (unsigned 24 (divRound x.sum x.n))).wr code (codeOf s.okOr)
      if s.estimated then s.raise 0x029 1 else s

/-- The cycle closes for converter `c`: the clip flag is shown and the sums move on (R132, R146). -/
def State.rollConv (s : State) (c : Nat) : State :=
  let v := s.conv c
  (s.wr (ACS_CLIP (bankOf c) (posOf c)) (b2n v.clip)).setConv c fun v =>
    { v with clip := false, raw := {}, cal := {}, cal1 := v.cal, cal2 := v.cal1 }

/-- The converters whose pairing differs between two pairings, with the channels they serve. -/
def pairChanged (old new : List Nat) : List Nat :=
  ((List.range 74).filter fun c => partnerOf old c != partnerOf new c).flatMap fun c =>
    c :: ((partnerOf old c).toList ++ (partnerOf new c).toList)

/-- A change of pairing takes effect for converter `c` (R135, R138, R149). -/
def State.pairChange (s : State) (c : Nat) : State :=
  (s.wr (ACS_CALOK (bankOf c) (posOf c)) 0).setConv c fun v => { v with integ := 0, zeroOk := false }

/-- ACS_PAIRED and ACS_OOS of converter `c` under the pairing in force (Table 5-8). -/
def State.showPair (s : State) (c : Nat) : State :=
  let out := s.outOfService c
  let s := s.wr (ACS_OOS (bankOf c) (posOf c)) (b2n out)
  s.wr (ACS_PAIRED (bankOf c) (posOf c)) (b2n (out || s.doubleRate c))

/-- The ACS at a cycle boundary, the closed cycle's pairing still in `acs.pairs` and the new one in
force: diagnostic readings, calibration, the sums, the pairing, the continuity test (R138, R143 to
R148). -/
def State.acsBoundary (s : State) (unlocked : Bool) (srcs : List (Nat × Word)) : State :=
  let old := s.acs.pairs
  let now := s.inForce
  let s := { s with inForce := srcs }
  let s := (s.dxReading 0 old).dxReading 1 old
  let s := s.calBoundary unlocked
  let s := { s with inForce := now }
  let s := (List.range 74).foldl State.rollConv s
  let new := s.pairing
  let changed := pairChanged old new
  let s := changed.foldl State.pairChange s
  let s := if changed.isEmpty then s else (List.range 74).foldl State.showPair s
  { s with acs := { s.acs with
      pairs := new, contCyc := s.acs.contCyc + 1,
      testDone := s.acs.testDone || s.acs.testing.isSome } }

/-! ## Continuity test -/

/-- The channel is in the mask of the continuity test (R146). -/
def State.contMasked (s : State) (ch : Nat) : Bool :=
  bit (s.rd ACS_CONT_MLO + 2 ^ 32 * s.rd ACS_CONT_MHI) ch

/-- The channel can be tested: small current, no integrator, in service (R146). -/
def State.contTestable (s : State) (ch : Nat) : Bool :=
  decide (rmsOf (s.conv ch).cal1 ≤ 16 * s.rd ACS_CONT_IMAX)
    && !s.on (ACS_INT_EN (bankOf ch) (posOf ch)) && !s.outOfService ch

/-- The round of the continuity test over the masked channels in order: channels that cannot be
tested become SKIPPED, and the first that can is tested (R146). -/
def State.contRound (s : State) : List Nat → State
  | [] => s
  | ch :: rest =>
    if s.contTestable ch then
      { s with acs := { s.acs with contNext := ch, testing := some ch, testDone := false } }
    else (s.wr (ACS_CONT_CODE (bankOf ch) (posOf ch)) (codeOf .skipped)).contRound rest

/-- The result of a test whose cycle has closed: the resistance in 0.01 Ω (R146). -/
def State.contResult (s : State) (ch : Nat) : State :=
  let t := (s.conv ch).cal1
  let p := (s.conv ch).cal2
  let num := (t.sum * p.n - p.sum * t.n) * 96334
  let den := t.n * p.n * 1000000 * s.pgaGain ch
  let d := s.draw 16
  let r := if den = 0 then d else (satNat 16 (divRound num den).toNat, s)
  let s := r.2.wr (ACS_CONT_R (bankOf ch) (posOf ch)) r.1
  let s := (s.wr (ACS_CONT_CODE (bankOf ch) (posOf ch)) 0).raise (0x020 + bankOf ch) 2
  { s with acs := { s.acs with testing := none, testDone := false } }

/-! ## Register access -/

/-- Writes of pages 0x020 to 0x029 (R130, R134, R137, R146 to R152). -/
def acsWrite : Writer := fun s q d =>
  if q.page = 0x029 then
    match q.off with
    | 0x040 => storeIf (bits d 0 7 ≤ 71) s q d
    | 0x048 =>
      let z := if bit d 0 then s.calStart false else (.ok, s)
      let f := if bit d 1 then z.2.calStart true else (.ok, z.2)
      let s := match bit d 2, f.2.acs.cal with
        | true, some k => { f.2 with acs := { f.2.acs with cal := some { k with abort := true } } }
        | _, _ => f.2
      (firstOf z.1 f.1, s)
    | 0x080 => storeIf (bits d 0 4 ≤ 0xD) s q d
    | 0x084 => storeIf (bits d 0 4 ≤ 0xD) s q d
    | 0x0A0 => if bits d 0 8 = 0 then (.zeroLen, s) else plainWrite s q d
    | _ => plainWrite s q d
  else
    let b := q.page - 0x020
    if q.off = 0x040 then
      let a := bits d 0 4
      let e := bits d 4 4
      if b = 8 ∧ (8 < a ∨ 8 < e ∨ (a = e ∧ a ≠ 0)) then (.cfgInvalid, s)
      else
        let old := s.reg q.page 0x040
        let s := (s.storeWord q.page q.off d)
        let new := s.reg q.page 0x040
        let set (v : Nat) := s.pairing.set b v
        (.ok, (pairChanged (set old) (set new)).foldl State.calDisturb s)
    else if q.off < 0x100 then plainWrite s q d
    else
      let c := 8 * b + (q.off - 0x100) / 32
      match (q.off - 0x100) % 32 with
      | 0x00 =>
        let dx := 72 ≤ c
        let mux := bits d 4 3
        if 5 < bits d 0 3 ∨ 3 < mux ∨ (mux = 3 ∧ !dx) ∨ bits d 9 3 = 7 ∨ (dx ∧ bit d 8) then
          (.cfgInvalid, s)
        else
          let old := s.reg q.page q.off
          let s := s.storeWord q.page q.off d
          let differ (lo w : Nat) := bits old lo w != bits d lo w
          let s := if differ 0 3 || differ 4 3 || differ 8 1 || differ 9 3 then s.calDisturb c else s
          let s := if differ 0 3 || differ 8 1 then s.setConv c fun v => { v with zeroOk := false }
            else s
          (.ok, if differ 8 1 then s.setConv c fun v => { v with integ := 0 } else s)
      | 0x08 => storeIf (gainOk (bits d 0 24)) s q d
      | _ => plainWrite s q d

/-! ## Commands -/

/-- CONT_TEST_START (R146): every ACS_CONT_PER cycles the next masked channel is tested or skipped;
no test runs while the current banks are gated. -/
def execContTestStart (s : State) : Result :=
  .next (
    if s.on ACS_CONT_EN ∧ s.rd ACS_CONT_PER ≤ s.acs.contCyc ∧ s.acs.testing = none ∧
        s.pageRuns 0x020 = true then
      let n := s.acs.contNext
      let order := (List.range 64).map fun k => (n + 1 + k) % 64
      { s with acs := { s.acs with contCyc := 0 } }.contRound (order.filter s.contMasked)
    else s)

/-- ACS_CAL_ZERO (R147): a write of 1 to ACS_CAL_ZERO. -/
def execAcsCalZero (w : RegWrite) (s : State) : Result :=
  .next (s.writeReg acsWrite 0x029 0x048 w (setBit · 0))

/-- ACS_CAL_FULL (R148): a write of 1 to ACS_CAL_FULL. -/
def execAcsCalFull (w : RegWrite) (s : State) : Result :=
  .next (s.writeReg acsWrite 0x029 0x048 w (setBit · 1))

/-- ACS_CAL_ABORT (R150): a write of 1 to ACS_CAL_ABORT. -/
def execAcsCalAbort (w : RegWrite) (s : State) : Result :=
  .next (s.writeReg acsWrite 0x029 0x048 w (setBit · 2))

/-- CAL_ZERO_DONE (R147): a zero step that has gathered its cycles writes means and offsets. -/
def execCalZeroDone (s : State) : Result :=
  .next (match s.acs.cal with
    | some k => if k.full = false ∧ k.ncyc ≤ k.got ∧ k.abort = false then s.zeroEnd k else s
    | none => s)

/-- CAL_FULL_DONE (R149): a full-scale step that has gathered its cycles writes the gains. -/
def execCalFullDone (s : State) : Result :=
  .next (match s.acs.cal with
    | some k => if k.full = true ∧ k.ncyc ≤ k.got ∧ k.abort = false then s.fullEnd k else s
    | none => s)

/-- CAL_TIMEOUT (R148): a full-scale step past ACS_CAL_NCYC + 64 cycles completes with TIMEOUT. -/
def execCalTimeout (s : State) : Result :=
  .next (match s.acs.cal with
    | some k =>
      if k.full = true ∧ k.got < k.ncyc ∧ k.ncyc + 64 ≤ k.elapsed then s.calEnd .timeout else s
    | none => s)

end Sys2Proof.Machine
end

