-- ==== Sys2Proof/Machine/Mte.lean ====
section
/-! DEFINITION. The metrology engine (chapter 6): sample streams, phase correction, the quantities of a
cycle, thresholds, quadrants, substitution, readbacks and the export to inference. -/

namespace Sys2Proof.Machine

open Reg

/-! ## Samples -/

/-- A sample joins a list held newest first; a second word for one place replaces the first. -/
def putSamp (x : Samp) : List Samp → List Samp
  | [] => [x]
  | y :: l =>
    if y.idx < x.idx then x :: y :: l
    else if y.idx = x.idx then x :: l
    else y :: putSamp x l

/-- A word delivered to metrology for channel `ch`: present unless its carry code fails or it carries
ACS_SW_NOS (R142, R158). -/
def State.mteSample (s : State) (d : Delivery) (good : Bool) (w : BitVec 40) : State :=
  let n := w.toNat
  let x : Samp := ⟨d.phase / 32, signed 24 n, good && !bit n 24, good && bit n 25, good && bit n 26⟩
  { s with mte := { s.mte with
      cur := cellPut [] d.chan (putSamp x (cellAt [] d.chan s.mte.cur)) s.mte.cur } }

/-- `n` positions of a stream from place `i` on, two places apart, with missing positions replaced by
the same position of the previous cycle where it was present there, else by zero (R158). -/
def fillStream : Nat → Nat → List (Int × Bool) → List Samp → List (Int × Bool)
  | 0, _, _, _ => []
  | n + 1, i, prev, l =>
    let l := l.dropWhile (·.idx < i)
    let sub : Int × Bool := match prev.head? with
      | some (v, true) => (v, false)
      | _ => (0, false)
    let here : Int × Bool := match l.head? with
      | some x => if x.idx = i ∧ x.ok then (x.val, true) else sub
      | none => sub
    here :: fillStream n (i + 2) (prev.drop 1) l

/-- The stream of channel `ch` over the cycle that closes. -/
def State.closeStream (s : State) (pairs : List Nat) (ch : Nat) : CycleStream :=
  let old := cellAt {} ch s.mte.last
  let l := (cellAt [] ch s.mte.cur).reverse
  { prim := fillStream 1024 0 old.prim (l.filter fun x => x.idx % 2 = 0),
    half := if (pairedBy pairs ch).isSome then
        fillStream 1024 1 old.half (l.filter fun x => x.idx % 2 = 1)
      else [],
    ovr := l.any (·.ovr), test := l.any (·.test) }

/-- Metrology at a cycle boundary: the streams move on, and the cycle that ends waits for its close.
`pairs`: the pairing of that cycle; `now`: what is fixed at this boundary for the next. -/
def State.mteBoundary (s : State) (pairs : List Nat) (e : CycleEnd) (now : CycleOpen) : State :=
  let streams := ((List.range 72).filter fun ch =>
      cellAt [] ch s.mte.cur != [] || cellAt {} ch s.mte.last != {}).map fun ch =>
    (ch, s.closeStream pairs ch)
  { s with mte := { s.mte with
      cur := [], last := streams, prev := s.mte.last, opening := now, due := some e } }

/-! ## Configuration of the closed cycle -/

/-- A field as it was in force in a configuration (R175). -/
def fldIn (force : List (Nat × Word)) (f : Fld) : Nat :=
  bits (cellAt (RegMap.resetWord f.page f.off) (regKey f.page f.off) force).toNat f.lo f.width

/-- The page of a current channel counts from 0x031. -/
def icPage (ch : Nat) : Nat := ch / 8

/-- The phase channels of a bus mode as codes of bus 1 (Table 6-1). -/
def modePhases (m : Nat) : List Nat :=
  match m with
  | 1 => [1] | 2 => [1, 2] | 3 => [1, 2, 3] | 4 => [1, 2, 3] | _ => []

/-- Voltage code `v` lies on a bus whose mode lists it. -/
def codeListed (m1 m2 v : Nat) : Bool :=
  if v ≤ 3 then modePhases m1 |>.contains v else modePhases m2 |>.contains (v - 3)

/-- The channel number of a voltage code (Table 5-1). -/
def chanOfCode (v : Nat) : Nat := if v ≤ 3 then 63 + v else 64 + v

/-- Channels 64 to 71 that are measured: phases always, VNb in mode 0x4 only (Table 6-1). -/
def voltageMeasured (force : List (Nat × Word)) (ch : Nat) : Bool :=
  if ch = 67 then fldIn force MTE_BUS1_MODE == 4
  else if ch = 71 then fldIn force MTE_BUS2_MODE == 4
  else true

/-! ## Streams of a channel -/

/-- 1,024 absent positions. -/
def absent : List (Int × Bool) := List.replicate 1024 (0, false)

/-- The closed stream of a channel; absent where nothing was delivered. -/
def State.stream (s : State) (ch : Nat) : CycleStream :=
  let x := cellAt {} ch s.mte.last
  if x.prim = [] then { x with prim := absent } else x

/-- The values of primary and partner in the order of their instants. -/
def interleave : List Int → List Int → List Int
  | a :: l, b :: m => a :: b :: interleave l m
  | l, [] => l
  | [], m => m

/-- The merged values of a stream. -/
def CycleStream.merged (x : CycleStream) : List Int := interleave (x.prim.map (·.1)) (x.half.map (·.1))

/-- Every second value: the samples at phases 64m of a merged stream. -/
def everySecond : List Int → List Int
  | a :: _ :: l => a :: everySecond l
  | l => l

/-- The missing positions of the two streams of a channel: the larger number, and their sum. -/
def CycleStream.missing (x : CycleStream) : Nat × Nat :=
  let a := (x.prim.filter (!·.2)).length
  let b := (x.half.filter (!·.2)).length
  (max a b, a + b)

/-! ## Phase correction -/

/-- The phase lead of the integrator at the fundamental, in 1/65,536 of a position of 64 ct, for `n`
samples per cycle and leak shift `l` (R135, R162). -/
def integratorLead (n l : Nat) : Int :=
  let sn := sinPiN n
  let cs := isqrt (2 ^ 96 - sn * sn)
  let leak := 2 ^ (48 - l)
  let a := 2 ^ 48 - leak
  angleIn (1024 * 65536) (leak + a * (2 * sn * sn) / 2 ^ 96 : Nat) (a * (2 * sn * cs) / 2 ^ 96 : Nat)

/-- The delay of R162 in 1/65,536 of a position, and whether it was clamped. -/
def phaseDelay (pha pht lead : Int) (p : Nat) : Int × Bool :=
  let d := pha * 16 + divRound (pht * 3221225472) (1000 * p) + lead
  if 32 * 65536 < d then (32 * 65536, true)
  else if d < -(32 * 65536) then (-(32 * 65536), true)
  else (d, false)

/-- Interpolated values at `n` successive windows of eight samples (R162, log entry 9). -/
def interpolateAll (f : Nat) : Nat → List Int → List Int
  | 0, _ => []
  | n + 1, l => Config.interpolate f (l.take 8) :: interpolateAll f n (l.drop 1)

/-- A stream delayed by `d` in 1/65,536 of its sample period, with the last 80 samples before it and
the first 80 after it; a whole number of samples is a shift (R162, log entry 9). -/
def delayed (d : Int) (before x after : List Int) : List Int :=
  let k := d / 65536
  let f := (d % 65536).toNat
  let all := before ++ x ++ after
  if f = 0 then ((all.drop (80 - k).toNat).take x.length)
  else interpolateAll f x.length (all.drop (76 - k).toNat)

/-- The first samples of the next cycle, missing ones taken from this cycle (R158, R162). -/
def State.nextHead (s : State) (ch : Nat) (x : CycleStream) : List Int :=
  let l := (cellAt [] ch s.mte.cur).reverse
  let a := fillStream 80 0 (x.prim.map fun v => (v.1, true)) (l.filter fun y => y.idx % 2 = 0)
  let b := fillStream 80 1 (x.half.map fun v => (v.1, true)) (l.filter fun y => y.idx % 2 = 1)
  (interleave (a.map (·.1)) (if x.half = [] then [] else b.map (·.1))).take 80

/-- The last samples of the cycle before. -/
def State.prevTail (s : State) (ch : Nat) (paired : Bool) : List Int :=
  let y := cellAt {} ch s.mte.prev
  let y := if y.prim = [] then { y with prim := absent } else y
  let h := if y.half = [] then absent else y.half
  let m := if paired then interleave (y.prim.map (·.1)) (h.map (·.1)) else y.prim.map (·.1)
  m.drop (m.length - 80)

/-! ## Sums -/

/-- Σ a·b. -/
def dot : List Int → List Int → Int
  | a :: l, b :: m => a * b + dot l m
  | _, _ => 0

/-- Σ x[n]·cos and −Σ x[n]·sin with the twiddle factors of `n` samples per cycle from place `i` on
(R163). -/
def fourier (step : Nat) : Nat → List Int → Int × Int
  | _, [] => (0, 0)
  | i, a :: l =>
    let r := fourier step (i + step) l
    (a * cos17 i + r.1, -(a * sin17 i) + r.2)

/-- The fundamental of a stream of 1,024 or 2,048 samples, in code × 2^17. -/
def fundamental (x : List Int) : Int × Int := fourier (2048 / max 1 x.length) 0 x

/-- gain × √(max(0, sum ÷ n + 256·ofs)), the gain in Q2.22, rounded and kept in 24 bits (R163, R164). -/
def rmsCode (gain : Nat) (sum : Int) (n : Nat) (ofs : Int) : Nat :=
  let m := (sum + 256 * ofs * n).toNat
  satNat 24 (divRoundNat (gain * isqrt (m * 2 ^ 64 / n)) (2 ^ 54))

/-- The rms code of a full-scale sine (R131). -/
def kRms : Nat := 5190186

/-- A gain or offset register as a signed number. -/
def ofs24 (n : Nat) : Int := signed 24 n

/-! ## One channel -/

/-- The flags of Table 6-6 that follow from the state in which the cycle closed. -/
def closeFlags (st : Nat) : Nat := b2n (st == ctfFlywheel) + b2n (st == ctfAcquire) * 2

/-- The status of a cycle (R171). -/
def cycleStatus (fail skip part hold : Bool) : Status :=
  if fail then .integFail else if skip then .skipped else if part then .part
  else if hold then .holdover else .ok

/-- The rms code of voltage channel `ch` in the closed cycle (R164). -/
def State.voltageCode (s : State) (force : List (Nat × Word)) (ch : Nat) : Nat :=
  let x := (s.stream ch).merged
  let c := ch - 64
  rmsCode (fldIn force (MTE_GV c)) (dot x x) x.length (ofs24 (fldIn force (MTE_OV c)))

/-- The quantities of a current channel in codes: rms current, rms voltage, P, Q, S, angle (R163). -/
structure Codes where
  irms : Nat
  vrms : Nat
  p    : Int
  q    : Int
  sa   : Int
  ang  : Int
  dblp : Bool
  clamped : Bool
  deriving DecidableEq, Repr

/-- Steps 3 to 8 of Table 6-2 for current channel `ch`. -/
def State.codesOf (s : State) (e : CycleEnd) (ch : Nat) : Codes :=
  let g := e.opening.force
  let k := icPage ch
  let c := ch % 8
  let x := s.stream ch
  let vp := fldIn g (MTE_VPOS k c)
  let vn := fldIn g (MTE_VNEG k c)
  let paired := x.half != []
  let raw := x.merged
  let mean := if e.cont = some ch then divRound (raw.foldl (· + ·) 0) raw.length else 0
  let cur := raw.map (· - mean)
  let n := raw.length
  let lead := if fldIn g (ACS_INT_EN (bankOf ch) (posOf ch)) = 1 then
      integratorLead n (10 + fldIn g (ACS_ILEAK (bankOf ch) (posOf ch)))
    else 0
  let d := phaseDelay (signed 18 (fldIn g (MTE_PHA k c))) (signed 16 (fldIn g (MTE_PHT k c))) lead e.len
  let del := if paired then 2 * d.1 else d.1
  let cur := if del = 0 then cur
    else delayed del ((s.prevTail ch paired).map (· - mean)) cur ((s.nextHead ch x).map (· - mean))
  let cur := if fldIn g (MTE_INV k c) = 1 then cur.map (-·) else cur
  let sp := s.stream (chanOfCode vp)
  let sn := s.stream (chanOfCode vn)
  let vdbl := sp.half != [] && (vn == 0 || sn.half != [])
  let vstream (y : CycleStream) := if vdbl then y.merged else y.prim.map (·.1)
  let v := if vp = 0 then []
    else if vn = 0 then vstream sp
    else (vstream sp).zipWith (· - ·) (vstream sn)
  let dblp := paired && vdbl && vp != 0
  let ci := if dblp || !paired then cur else everySecond cur
  let cv := if dblp || !vdbl then v else everySecond v
  let np : Nat := if dblp then 2048 else 1024
  let xv := fundamental cv
  let xi := fundamental ci
  let re := xv.1 * xi.1 + xv.2 * xi.2
  let im := xv.2 * xi.1 - xv.1 * xi.2
  let gi := fldIn g (MTE_GI k c)
  let irms := rmsCode gi (dot cur cur) n (ofs24 (fldIn g (MTE_OI k c)))
  let vrms := if vp = 0 then 0
    else if vn = 0 then s.voltageCode g (chanOfCode vp)
    else satNat 24 (isqrtRound ((dot v v).toNat / v.length))
  let p := divRound (fldIn g (MTE_GP k c) * (dot cv ci + 256 * ofs24 (fldIn g (MTE_OP k c)) * np))
    (np * 2 ^ 22)
  let q := divRound (fldIn g (MTE_GQ k c) *
      (2 * im + 256 * ofs24 (fldIn g (MTE_OQ k c)) * (np * np * 2 ^ 34 : Nat))) (np * np * 2 ^ 56)
  if vp = 0 then ⟨irms, 0, 0, 0, 0, 0, false, d.2⟩
  else ⟨irms, vrms, p, q, vrms * irms, angleIn 65536 im re, dblp, d.2⟩

/-- The quadrant of Table 6-5. -/
def quadrant (p q : Int) : Nat :=
  if p = 0 ∧ q = 0 then 0
  else if 0 ≤ p then (if 0 ≤ q then 1 else 4)
  else (if 0 ≤ q then 2 else 3)

/-- A power code as an energy of the cycle in 2^−16 units, for the scales of R166 and a cycle of
`len` REF48 clocks. -/
def energyOf (x : Int) (ifs vfs len : Nat) : Int :=
  divRound (x * ifs * vfs * len * (65536 * 1000000)) (2 ^ 32 * kRms ^ 2 * (3600 * 48000000))

/-- A power code in milliwatts (R166). -/
def milliPower (x : Int) (ifs vfs : Nat) : Int :=
  divRound (x * ifs * vfs * 1000) (2 ^ 32 * kRms ^ 2)

/-- An rms code in thousandths of its unit (R166). -/
def milliRms (x fs : Nat) : Nat := satNat 32 (divRoundNat (x * fs * 1000) (65536 * kRms))

/-- The streams that channel `ch` uses: its own and its bound voltages (R158). -/
def usedStreams (force : List (Nat × Word)) (ch : Nat) : List Nat :=
  let vp := fldIn force (MTE_VPOS (icPage ch) (ch % 8))
  let vn := fldIn force (MTE_VNEG (icPage ch) (ch % 8))
  ch :: ((if vp = 0 then [] else [chanOfCode vp]) ++ (if vn = 0 then [] else [chanOfCode vn]))

/-- The measured result of a current channel whose cycle is neither substituted nor skipped: steps 3
to 11 of Table 6-2 (R163 to R169). -/
def State.measured (s : State) (e : CycleEnd) (ch flags rep : Nat) : ChanRec :=
  let g := e.opening.force
  let k := icPage ch
  let c := ch % 8
  let x := s.codesOf e ch
  let start := x.irms < fldIn g (MTE_ISTART k c)
  let p := if start then 0 else x.p
  let q := if start then 0 else x.q
  let sa := if start then 0 else x.sa
  let nlp := p.natAbs < 256 * fldIn g (MTE_NLP k c)
  let nlq := q.natAbs < 256 * fldIn g (MTE_NLQ k c)
  let p := if nlp then 0 else p
  let q := if nlq then 0 else q
  let sa := if nlp ∧ nlq then 0 else sa
  let vp := fldIn g (MTE_VPOS k c)
  let vfs := fldIn g (MTE_VFS (chanOfCode vp - 64))
  let ifs := fldIn g (MTE_IFS k c)
  let nov := vp == 0 || decide (x.vrms < fldIn g MTE_VPRES)
  { p := energyOf p ifs vfs e.len, q := energyOf q ifs vfs e.len, sa := energyOf sa ifs vfs e.len,
    quad := quadrant p q,
    code := cycleStatus false false (rep != 0) (e.closeSt == ctfFlywheel),
    flags := flags + b2n start * 2 ^ 3 + b2n nlp * 2 ^ 4 + b2n nlq * 2 ^ 5
      + b2n (e.cont == some ch) * 2 ^ 7 + b2n x.dblp * 2 ^ 9 + b2n nov * 2 ^ 12
      + b2n x.clamped * 2 ^ 13,
    rep := satNat 8 rep,
    rms := milliRms x.irms ifs,
    pw := satSigned 32 (milliPower p ifs vfs), qw := satSigned 32 (milliPower q ifs vfs),
    sw := satNat 32 (milliPower sa ifs vfs).toNat,
    ang := if start then 0 else x.ang }

/-- A substituted run of channel `ch` ends: its entry carries the length (R159). -/
def State.endSubst (s : State) (ch : Nat) : State :=
  let m := cellAt {} ch s.mte.chans
  if m.run = 0 then s
  else
    let s := s.log 0x3006 1 (ch + m.run * 2 ^ 32)
    { s with mte := { s.mte with chans := cellPut {} ch { m with run := 0 } s.mte.chans } }

/-- A substituted cycle of channel `ch` with `worst` missing positions: the last good values for
eight cycles, then zero with INTEG_FAIL (R159). -/
def State.substitute (s : State) (e : CycleEnd) (ch flags worst : Nat) : ChanRec × State :=
  let m := cellAt {} ch s.mte.chans
  let n := m.run + 1
  let s := if n = 1 then (s.log 0x3005 1 ch).raise 0x030 1 else s
  let s := s.count (MTE_SUBN (icPage ch) (ch % 8))
  let s := { s with mte := { s.mte with chans := cellPut {} ch { m with run := n } s.mte.chans } }
  let hold := e.closeSt == ctfFlywheel
  let r : ChanRec :=
    if n ≤ 8 then { m.good with code := cycleStatus false false true hold }
    else { code := .integFail }
  ({ r with flags := flags + 4, rep := satNat 8 worst }, s)

/-- The result of current channel `ch` for the closed cycle (R157 to R161). -/
def State.channelClose (s : State) (e : CycleEnd) (ch : Nat) : ChanRec × State :=
  let g := e.opening.force
  let k := icPage ch
  let c := ch % 8
  let base := closeFlags e.closeSt
  let pairs := (List.range 9).map fun b => (cellAt (RegMap.resetWord (0x020 + b) 0x040)
    (regKey (0x020 + b) 0x040) g).toNat
  if fldIn g (MTE_EN k c) = 0 then
    ({ code := .skipped, flags := base + 2 ^ 11 }, s.endSubst ch)
  else if (partnerOf pairs ch).isSome ∨ fldIn g (ACS_EN (bankOf ch) (posOf ch)) = 0 then
    ({ code := .skipped, flags := base + 2 ^ 10 }, s.endSubst ch)
  else
    let x := s.stream ch
    let used := usedStreams g ch
    let ovr := used.any fun u => (s.stream u).ovr
    let base := base + b2n ovr * 2 ^ 8
    if x.test && e.cont != some ch then
      ({ code := .skipped, flags := base + 2 ^ 6 }, s.endSubst ch)
    else
      let miss := used.map fun u => (s.stream u).missing
      let worst := miss.foldl (fun a m => max a m.1) 0
      if 32 < worst then s.substitute e ch base worst
      else
        let rep := miss.foldl (fun a m => a + m.2) 0
        let s := (s.endSubst ch).count (MTE_REPN k c) rep
        let r := s.measured e ch base rep
        let s := if bit r.flags 4 then s.count (MTE_NLPN k c) else s
        let s := if bit r.flags 5 then s.count (MTE_NLQN k c) else s
        let s := if bit r.flags 13 then s.raise 0x030 3 else s
        (r, { s with mte := { s.mte with
          chans := cellPut {} ch { cellAt {} ch s.mte.chans with good := r } s.mte.chans } })

/-- The result of voltage channel `ch`, 64 to 71, for the closed cycle (R158, R164, R172). -/
def State.voltageClose (s : State) (e : CycleEnd) (ch : Nat) : ChanRec × State :=
  let g := e.opening.force
  let c := ch - 64
  let base := closeFlags e.closeSt
  if fldIn g (ACS_EN 8 (posOf ch)) = 0 then ({ code := .skipped, flags := base + 2 ^ 10 }, s)
  else if !voltageMeasured g ch then ({ code := .skipped, flags := base }, s)
  else
    let x := s.stream ch
    let base := base + b2n x.ovr * 2 ^ 8
    if x.test then ({ code := .skipped, flags := base + 2 ^ 6 }, s)
    else
      let rep := x.missing.2
      let v := s.voltageCode g ch
      let f := fundamental (x.prim.map (·.1))
      let r := fundamental ((s.stream (chanOfCode e.ref)).prim.map (·.1))
      let ang := angleIn 65536 (f.2 * r.1 - f.1 * r.2) (f.1 * r.1 + f.2 * r.2)
      ({ code := cycleStatus false false (rep != 0) (e.closeSt == ctfFlywheel),
         flags := base + b2n (decide (v < fldIn g MTE_VPRES)) * 2 ^ 12, rep := satNat 8 rep,
         rms := milliRms v (fldIn g (MTE_VFS c)), ang := ang },
       s.count (MTE_VREPN c) rep)

/-! ## Readbacks and export -/

/-- The readbacks of channel `ch` (Tables 6-11 and 6-12). -/
def State.readback (s : State) (cyc ch : Nat) (r : ChanRec) : State :=
  if ch < 64 then
    let k := icPage ch
    let c := ch % 8
    let s := ((s.wr (MTE_RD_CYC k c) (cyc % 2 ^ 32)).wr (MTE_RD_RMS k c) r.rms).wr (MTE_RD_P k c)
      (unsigned 32 r.pw)
    let s := ((s.wr (MTE_RD_Q k c) (unsigned 32 r.qw)).wr (MTE_RD_S k c) r.sw).wr (MTE_RD_ANGLE k c)
      (unsigned 16 r.ang)
    (((s.wr (MTE_RD_QUAD k c) r.quad).wr (MTE_RD_FLAGS k c) r.flags).wr (MTE_RD_REP k c) r.rep).wr
      (MTE_RD_STS k c) (codeOf r.code)
  else
    let c := ch - 64
    let s := ((s.wr (MTE_RD_VCYC c) (cyc % 2 ^ 32)).wr (MTE_RD_V c) r.rms).wr (MTE_RD_VANGLE c)
      (unsigned 16 r.ang)
    ((s.wr (MTE_RD_VFLAGS c) r.flags).wr (MTE_RD_VREP c) r.rep).wr (MTE_RD_VSTS c) (codeOf r.code)

/-- An export record (Table 6-7). -/
def exportRecord (cyc ch : Nat) (r : ChanRec) : List Byte :=
  let b := leBytes 4 cyc ++ leBytes 1 ch ++ leBytes 1 r.quad ++ leBytes 1 (codeOf r.code)
    ++ leBytes 1 r.rep ++ leBytes 2 r.flags ++ leBytes 2 (unsigned 16 r.ang) ++ leBytes 4 r.rms
    ++ leBytes 4 (unsigned 32 r.pw) ++ leBytes 4 (unsigned 32 r.qw) ++ leBytes 4 r.sw
  b ++ leBytes 4 (crc32 b)

/-- The export records of a close, or its count while the inference interconnect is Off (R172). -/
def State.exportClose (s : State) (cyc : Nat) (l : List (Nat × ChanRec)) : State :=
  if !s.on MTE_EXP_EN then s
  else if 2 ≤ s.level then s.count MTE_EXP_SKIPN
  else l.foldl (fun s x =>
    s.store (0xFF0000 + 4096 * (cyc % 16) + 32 * x.1) (exportRecord cyc x.1 x.2)) s

/-! ## Unmeasured cycles -/

/-- The boundary falls in a state in which metrology closes (R155). -/
def closingState (st : Nat) : Bool := st == ctfAcquire || st == ctfLocked || st == ctfFlywheel

/-- The cycle is measured (R155). -/
def CycleEnd.measured (e : CycleEnd) : Bool :=
  closingState e.opening.st && closingState e.closeSt && !e.rephase

/-- The rms of phase channel `ch` over the samples of the cycle exceeds MTE_VPRES (R156). -/
def State.voltagePresent (s : State) (e : CycleEnd) (ch : Nat) : Bool :=
  let x := (s.stream ch).prim.filter (·.2) |>.map (·.1)
  let g := e.opening.force
  decide (x ≠ []) && decide (fldIn g MTE_VPRES <
    rmsCode (fldIn g (MTE_GV (ch - 64))) (dot x x) x.length (ofs24 (fldIn g (MTE_OV (ch - 64)))))

/-- The phase channels of the declared buses (Table 6-1). -/
def declaredPhases (force : List (Nat × Word)) : List Nat :=
  (modePhases (fldIn force MTE_BUS1_MODE)).map chanOfCode
    ++ (modePhases (fldIn force MTE_BUS2_MODE)).map fun v => chanOfCode (v + 3)

/-- An unmeasured run ends with its entry (R156). -/
def State.endUnmeas (s : State) : State :=
  if s.mte.unmeas = 0 then s
  else
    { s with mte := { s.mte with unmeas := 0 } }.log 0x3004 1 (s.mte.unmeas * 2 ^ 32)

/-- A cycle that is not closed: with voltage present it counts and opens or goes on with a run
(R156). -/
def State.unmeasured (s : State) (e : CycleEnd) : State :=
  if (declaredPhases e.opening.force).any (s.voltagePresent e) then
    let s := s.count MTE_UNMEAS
    let s := if s.mte.unmeas = 0 then (s.log 0x3003 1 0).raise 0x030 2 else s
    { s with mte := { s.mte with unmeas := s.mte.unmeas + 1 } }
  else s.endUnmeas

/-- The results of all channels of a measured cycle, with readbacks and export (R157, R172). -/
def State.mteClose (s : State) (e : CycleEnd) : List (Nat × ChanRec) × State :=
  let x := (List.range 64).foldl (fun (a : List (Nat × ChanRec) × State) ch =>
    let r := a.2.channelClose e ch
    (a.1 ++ [(ch, r.1)], r.2)) ([], s.endUnmeas)
  let x := (List.range 8).foldl (fun (a : List (Nat × ChanRec) × State) c =>
    let r := a.2.voltageClose e (64 + c)
    (a.1 ++ [(64 + c, r.1)], r.2)) x
  let s := x.1.foldl (fun s r => s.readback e.cyc r.1 r.2) x.2
  let s := (s.wr MTE_LAST_LO (e.cyc % 2 ^ 32)).wr MTE_LAST_HI (e.cyc / 2 ^ 32 % 65536)
  (x.1, (s.exportClose e.cyc x.1).raise 0x030 0)

/-! ## Register access -/

/-- The check of a binding (R154). -/
def State.bindCheck (s : State) (d : Nat) : Bool :=
  let vp := bits d 0 4
  let vn := bits d 4 4
  let m1 := s.rd MTE_BUS1_MODE
  let m2 := s.rd MTE_BUS2_MODE
  !(6 < vp || 6 < vn || (vn != 0 && vp == 0) || (vn != 0 && vn == vp)
    || (vn != 0 && decide (vp ≤ 3) != decide (vn ≤ 3))
    || (vp != 0 && !codeListed m1 m2 vp) || (vn != 0 && !codeListed m1 m2 vn)
    || (vn != 0 && s.rd (MTE_VFS (chanOfCode vp - 64)) != s.rd (MTE_VFS (chanOfCode vn - 64))))

/-- The check of bus modes: no enabled channel bound outside them (R153). -/
def State.modeCheck (s : State) (m1 m2 : Nat) : Bool :=
  m1 ≤ 4 && m2 ≤ 4 && (List.range 64).all fun ch =>
    let vp := s.rd (MTE_VPOS (icPage ch) (ch % 8))
    let vn := s.rd (MTE_VNEG (icPage ch) (ch % 8))
    !s.on (MTE_EN (icPage ch) (ch % 8)) ||
      ((vp == 0 || codeListed m1 m2 vp) && (vn == 0 || codeListed m1 m2 vn))

/-- A gain of R165. -/
def gainFine (g : Nat) : Bool := 0x380000 ≤ g && g ≤ 0x480000

/-- Writes of pages 0x030 to 0x039, with their code in MTE_CFGSTS (R153, R154, R165, R176). -/
def mteWrite : Writer := fun s q d =>
  let ok :=
    if q.page = 0x030 then
      if q.off = 0x040 then s.modeCheck (bits d 0 3) (bits d 4 3) else true
    else if q.off < 0x100 then true
    else if q.page = 0x039 then
      if (q.off - 0x100) % 64 = 4 then gainFine (bits d 0 24) else true
    else
      match (q.off - 0x100) % 128 with
      | 0x00 => s.bindCheck d
      | 0x08 => gainFine (bits d 0 24)
      | 0x10 => gainFine (bits d 0 24)
      | 0x18 => gainFine (bits d 0 24)
      | _ => true
  if rwMask q.page q.off = 0 then plainWrite s q d
  else
    let r := storeIf ok s q d
    (r.1, r.2.wr MTE_CCODE (codeOf r.1))

/-- The words of a block from offset `base` that a read of its cycle register latches, `n` of them
(R176, R179). -/
def State.latchBlock (s : State) (page base n : Nat) : State :=
  let s := s.latchWords page base n
  { s with latched := regKey page base :: s.latched.erase (regKey page base) }

/-- A read of a block of `n` words at `base` whose cycle register stands at `cycOff`: that register
latches the block, and a latched block is read from the latch; RC words are read live (R176,
R179). -/
def readBlock (base n cycOff : Nat) : Reader := fun s q =>
  if q.off = cycOff then
    let t := s.latchBlock q.page base n
    (.ok, s.reg q.page q.off, t)
  else if regKey q.page base ∈ s.latched ∧ RegMap.maskOf .ro (RegMap.fieldsAt q.page q.off) ≠ 0 then
    (.ok, shownWord (RegMap.fieldsAt q.page q.off)
      (cellAt 0#32 (regKey q.page q.off) s.latch).toNat, s)
  else plainRead s q

/-- Reads of pages 0x030 to 0x039 (R176). -/
def mteRead : Reader := fun s q =>
  if q.page = 0x030 ∨ q.off < 0x100 then plainRead s q
  else if q.page = 0x039 then
    let b := 0x100 + (q.off - 0x100) / 64 * 64
    if b + 0x20 ≤ q.off ∧ q.off < b + 0x30 then readBlock (b + 0x20) 4 (b + 0x20) s q else plainRead s q
  else
    let b := 0x100 + (q.off - 0x100) / 128 * 128
    if b + 0x40 ≤ q.off ∧ q.off < b + 0x60 then readBlock (b + 0x40) 7 (b + 0x40) s q else plainRead s q

/-- MTE_RD_CYC_READ (R176): a read of MTE_RD_CYC of channel `ch`, or of MTE_RD_VCYC for `ch` from 64
on, latches its block. -/
def execMteRdCycRead (ch : Fin 72) (r : RegRead) (s : State) : Result :=
  .next (if ch.val < 64 then
      s.readReg mteRead (0x031 + ch.val / 8) (0x140 + ch.val % 8 * 128) r
    else s.readReg mteRead 0x039 (0x120 + (ch.val - 64) * 64) r)

end Sys2Proof.Machine
end

