-- ==== Sys2Proof/Machine/Acc.lean ====
section
/-! DEFINITION. Accumulators, virtual meters and pulse outputs (chapter 7), the close of a cycle, and
the loss of a reference crossing, which may gate the pulse outputs. -/

namespace Sys2Proof.Machine

open Reg

/-! ## Channel accumulators -/

/-- The 64-bit words of the block of channel `ch` or of meter `m`: accumulators, tariffs, sum check,
under-field words. -/
def accFlds (vm : Bool) (i w : Nat) : Fld × Fld :=
  if vm then
    let p := i / 4
    let c := i % 4
    if w < 5 then (ACC_VQ_LO p c w, ACC_VQ_HI p c w)
    else if w < 9 then (ACC_VTRF_LO p c (w - 5), ACC_VTRF_HI p c (w - 5))
    else (ACC_VSUM_LO p c, ACC_VSUM_HI p c)
  else
    let p := i / 8
    let c := i % 8
    if w < 8 then (ACC_Q_LO p c w, ACC_Q_HI p c w)
    else if w = 8 then (ACC_SUM_LO p c, ACC_SUM_HI p c)
    else (ACC_UFA_LO p c, ACC_UFA_HI p c)

/-- A 64-bit word of a block. -/
def State.accWord (s : State) (vm : Bool) (i w : Nat) : Nat :=
  s.rd64 (accFlds vm i w).1 (accFlds vm i w).2

/-- The state with a 64-bit word of a block. -/
def State.setAccWord (s : State) (vm : Bool) (i w v : Nat) : State :=
  s.wr64 (accFlds vm i w).1 (accFlds vm i w).2 (v % 2 ^ 64)

/-- The number of words that the sum check of a block covers; the sum check follows them. -/
def sumWords (vm : Bool) : Nat := if vm then 9 else 8

/-- A word and the sum check gain an increment (R177). -/
def State.accGain (s : State) (vm : Bool) (i w n : Nat) : State :=
  (s.setAccWord vm i w (s.accWord vm i w + n)).setAccWord vm i (sumWords vm)
    (s.accWord vm i (sumWords vm) + n)

/-- The residue of quantity `q` of channel `ch`. -/
def resFld (ch q : Nat) : Fld :=
  if q % 2 = 0 then ACC_RES_A (ch / 8) (ch % 8) (q / 2) else ACC_RES_B (ch / 8) (ch % 8) (q / 2)

/-- Quantity `q` of channel `ch` receives `e` in units of 2^−16: the integer part joins the
accumulator, the remainder is the residue (R177); the increment is kept for the pulse outputs. -/
def State.accAdd (s : State) (ch q e : Nat) : State :=
  let t := s.rd (resFld ch q) + e
  let n := t / 65536
  let s := (s.wr (resFld ch q) (t % 65536)).accGain false ch q n
  { s with acc := { s.acc with incCh := cellPut 0 (8 * ch + q) n s.acc.incCh } }

/-- The quantities that a quadrant feeds, with their energies (Table 7-1). -/
def quadrantFeeds (r : ChanRec) : List (Nat × Nat) :=
  match r.quad with
  | 1 => [(0, r.p.toNat), (2, r.q.toNat), (6, r.sa.toNat)]
  | 2 => [(1, (-r.p).toNat), (3, r.q.toNat), (7, r.sa.toNat)]
  | 3 => [(1, (-r.p).toNat), (4, (-r.q).toNat), (7, r.sa.toNat)]
  | 4 => [(0, r.p.toNat), (5, (-r.q).toNat), (6, r.sa.toNat)]
  | _ => []

/-- The record of channel `ch` is added, with the under-field words where a magnetic condition
covered the channel (R177, R183). -/
def State.accumulate (s : State) (e : CycleEnd) (ch : Nat) (r : ChanRec) : State :=
  let p := ch / 8
  let c := ch % 8
  let s := (quadrantFeeds r).foldl (fun s x => s.accAdd ch x.1 x.2) s
  let under := bit e.opening.field ch && fldIn e.opening.force ACC_UF_EN == 1
  if under then
    let n := cellAt 0 (8 * ch) s.acc.incCh + cellAt 0 (8 * ch + 1) s.acc.incCh
    let s := s.wr64 (ACC_UFA_LO p c) (ACC_UFA_HI p c)
      ((s.rd64 (ACC_UFA_LO p c) (ACC_UFA_HI p c) + n) % 2 ^ 64)
    let s := if s.on (ACC_F_UF p c) then s else s.raise 0x048 3
    (s.count (ACC_UFC p c)).wr (ACC_F_UF p c) 1
  else s.wr (ACC_F_UF p c) 0

/-! ## Virtual meters -/

/-- The channel view of a tenant in a configuration: TC01 sees every channel (R104, R106). -/
def viewIn (force : List (Nat × Word)) (t : Nat) : Nat :=
  if t = 1 then 2 ^ 64 - 1
  else fldIn force (TNC_CHV_LO t) + 2 ^ 32 * fldIn force (TNC_CHV_HI t)

/-- The term words of a configuration that are enabled: meter, term, word. -/
def termsIn (force : List (Nat × Word)) : List (Nat × Nat × Nat) :=
  (force.filter fun e =>
      0x140 ≤ e.1 / 4096 && e.1 / 4096 ≤ 0x17F && 0x100 ≤ e.1 % 4096 && e.1 % 4096 < 0x500
        && e.1 % 256 < 0x40 && bit e.2.toNat 15).map fun e =>
    (4 * (e.1 / 4096 - 0x140) + (e.1 % 4096 - 0x100) / 256, e.1 % 256 / 4, e.2.toNat)

/-- Meter `m` adds a net energy to quantity `w`, its residue being the `k`-th of the meter; the
integer increment (R185). -/
def State.vmAdd (s : State) (m w k e : Nat) : Nat × State :=
  let t := cellAt 0 (4 * m + k) s.acc.vres + e
  let n := t / 65536
  let s := s.accGain true m w n
  (n, { s with acc := { s.acc with
      vres := cellPut 0 (4 * m + k) (t % 65536) s.acc.vres,
      incVm := cellPut 0 (8 * m + w) n s.acc.incVm } })

/-- The tariff of meter `m` at the opening boundary (R189). -/
def tariffOf (o : CycleOpen) (m : Nat) : Nat :=
  let src := fldIn o.force (ACC_VTRF_SRC (m / 4) (m % 4))
  if src = 0 then fldIn o.force (ACC_VTRF_REG (m / 4) (m % 4)) else bits o.tin (2 * (src - 1)) 2

/-- The close of meter `m` with its enabled terms (R185, R186). -/
def State.meterClose (s : State) (e : CycleEnd) (recs : List (Nat × ChanRec)) (m : Nat)
    (terms : List Nat) : State :=
  let p := m / 4
  let c := m % 4
  let s := (s.wr (ACC_VCYC p c) (e.cyc % 2 ^ 32)).wr (ACC_VTRF_CUR p c) (tariffOf e.opening m)
  if terms = [] then s.wr (ACC_VCODE p c) (codeOf .zeroLen)
  else
    let view := viewIn e.opening.force p
    let rec' (t : Nat) : ChanRec := cellAt {} (bits t 0 6) recs
    let sum (f : ChanRec → Int) : Int := terms.foldl (fun a t =>
      if bit view (bits t 0 6) then a + (if bit t 8 then -f (rec' t) else f (rec' t)) else a) 0
    let pn := sum (·.p)
    let qn := sum (·.q)
    let sn := sum (·.sa)
    let code := terms.foldl (fun a t => firstOf a (rec' t).code) .ok
    let x := s.vmAdd m (if 0 ≤ pn then 0 else 1) 0 pn.natAbs
    let s := if 0 ≤ pn then x.2.accGain true m (5 + tariffOf e.opening m) x.1 else x.2
    let s := (s.vmAdd m (if 0 ≤ qn then 2 else 3) 1 qn.natAbs).2
    let s := (s.vmAdd m 4 2 sn.toNat).2
    s.wr (ACC_VCODE p c) (codeOf (if s.on (ACC_VF_BAD p c) then .integFail else code))

/-! ## Integrity -/

/-- The sum of the accumulator words of a block. -/
def State.blockSum (s : State) (vm : Bool) (i : Nat) : Nat :=
  ((List.range (sumWords vm)).foldl (fun a w => a + s.accWord vm i w) 0) % 2 ^ 64

/-- ACC_F_BAD or ACC_VF_BAD of a block. -/
def badFld (vm : Bool) (i : Nat) : Fld :=
  if vm then ACC_VF_BAD (i / 4) (i % 4) else ACC_F_BAD (i / 8) (i % 8)

/-- A block becomes unrecoverable (R180, R187). -/
def State.markBad (s : State) (vm : Bool) (i : Nat) : State :=
  let s := (s.wr (badFld vm i) 1).log 0x3012 1 (b2n vm + i * 2 ^ 8)
  if vm then s.raise (0x140 + i / 4) 2
  else
    let f := if i < 32 then ACC_BAD_LO else ACC_BAD_HI
    (s.wr f (setBit (s.rd f) (i % 32))).raise 0x048 2

/-- A word has been rebuilt: counted and logged (R180). -/
def State.rebuilt (s : State) (vm : Bool) (i w : Nat) : State :=
  let s := if vm then s else s.count (ACC_REBN (i / 8) (i % 8))
  (s.raise 0x048 1).log 0x3011 1 (b2n vm + i * 2 ^ 8 + w * 2 ^ 16)

/-- A word or a residue has been corrected. -/
def State.corrected (s : State) (vm : Bool) (i : Nat) : State :=
  (if vm then s else s.count (ACC_CORRN (i / 8) (i % 8))).raise 0x048 0

/-- A residue with flipped bits: a parity failure sets it to zero (R181). -/
def State.residueUpset (s : State) (vm : Bool) (i k flip : Nat) : State :=
  let odd := (bitsSet flip 16).length % 2 = 1
  if vm then
    let key := 4 * i + k
    let v := cellAt 0 key s.acc.vres
    let v := if odd then 0 else v ^^^ flip % 65536
    let s := if odd then s.corrected vm i else s
    { s with acc := { s.acc with vres := cellPut 0 key v s.acc.vres } }
  else
    let f := resFld i k
    if odd then (s.wr f 0).corrected vm i else s.wr f (s.rd f ^^^ flip % 65536)

/-- The read-back of a block after an update: single errors corrected, one uncorrectable word or a
differing sum rebuilt, more words bad (R180). -/
def State.readBack (s : State) (vm : Bool) (i : Nat) (ups : List (Nat × Nat)) : State :=
  let words := ups.filter fun u => u.1 < 16
  let single := words.filter fun u => (bitsSet u.2 64).length == 1
  let multi := words.filter fun u => decide (2 ≤ (bitsSet u.2 64).length)
  let s := (ups.filter fun u => 16 ≤ u.1).foldl (fun s u => s.residueUpset vm i (u.1 - 16) u.2) s
  let s := single.foldl (fun s _ => s.corrected vm i) s
  let s := (multi.filter fun u => u.1 ≤ 9).foldl (fun s u =>
    s.setAccWord vm i u.1 (s.accWord vm i u.1 ^^^ u.2)) s
  let s := if vm then s else (multi.filter fun u => u.1 == 10).foldl (fun s u =>
    s.wr (ACC_UFC (i / 8) (i % 8)) (s.rd (ACC_UFC (i / 8) (i % 8)) ^^^ u.2 % 2 ^ 32)) s
  let n := sumWords vm
  let covered := multi.filter fun u => u.1 ≤ n
  match covered with
  | [] =>
    if s.on (badFld vm i) ∨ s.blockSum vm i = s.accWord vm i n then s
    else (s.setAccWord vm i n (s.blockSum vm i)).rebuilt vm i n
  | [u] =>
    if u.1 = n then (s.setAccWord vm i n (s.blockSum vm i)).rebuilt vm i n
    else
      let others := s.blockSum vm i + 2 ^ 64 - s.accWord vm i u.1
      (s.setAccWord vm i u.1 (s.accWord vm i n + 2 ^ 64 * 2 - others)).rebuilt vm i u.1
  | _ => s.markBad vm i

/-- The upsets of one block. -/
def upsetsOf (l : List AccUpset) (vm : Bool) (i : Nat) : List (Nat × Nat) :=
  (l.filter fun u => u.vm == vm && u.idx.val == i).map fun u => (u.word.val, u.flip.toNat)

/-! ## The close -/

/-- The status of the last close of channel `ch` (R178 to R180). -/
def State.closeStatus (s : State) (cyc ch : Nat) (c : Status) : State :=
  let f := ACC_F_BAD (ch / 8) (ch % 8)
  (s.wr (ACC_CYC (ch / 8) (ch % 8)) (cyc % 2 ^ 32)).wr (ACC_CCODE (ch / 8) (ch % 8))
    (codeOf (if s.on f then .integFail else c))

/-- A measured cycle is added to the accumulators and to every meter, when TC01 was sealed at its
opening boundary and nothing withholds it (R177, R178, R185, R548). -/
def State.addCycle (s : State) (e : CycleEnd) (recs : List (Nat × ChanRec)) (ups : List AccUpset) :
    State :=
  let s := { s with acc := { s.acc with
      incCh := [], incVm := [], spillDue := some e.len,
      srcOpen := (List.range 16).map fun k => fldIn e.opening.force ⟨0x060 + k, 0x040, 0, 32⟩ } }
  let chans := recs.filter fun r => r.1 < 64
  if e.opening.sealed = false then
    chans.foldl (fun s r => s.closeStatus e.cyc r.1 .skipped) s
  else if s.acc.frozen then
    let s := chans.foldl (fun s r => s.closeStatus e.cyc r.1 .skipped) s
    let s := s.count MTE_UNMEAS
    let s := if s.mte.unmeas = 0 then (s.log 0x3003 1 0).raise 0x030 2 else s
    { s with mte := { s.mte with unmeas := s.mte.unmeas + 1 } }
  else
    let s := chans.foldl (fun s r =>
      ((s.accumulate e r.1 r.2).readBack false r.1 (upsetsOf ups false r.1)).closeStatus e.cyc r.1
        r.2.code) s
    let terms := termsIn e.opening.force
    let s := (List.range 256).foldl (fun s m =>
      if m ∈ s.acc.cleared then s
      else
        (s.meterClose e recs m ((terms.filter fun t => t.1 == m).map fun t => t.2.2)).readBack true m
          (upsetsOf ups true m)) s
    s.wr ACC_LAST (e.cyc % 2 ^ 32)

/-- METROLOGY_CLOSE (R155 to R157, R170, R177, R185): the ended cycle is closed, or counted as
unmeasured, once. -/
def execMetrologyClose (upsets : List AccUpset) (s : State) : Result :=
  .next (match s.mte.due with
    | none => s
    | some e =>
      let s := { s with mte := { s.mte with due := none } }
      let s := if e.measured then
          let x := s.mteClose e
          x.2.addCycle e x.1 upsets
        else s.unmeasured e
      let s := if s.tnc.everSealed && !e.opening.sealed then s.count TNC_UNBILLED else s
      { s with acc := { s.acc with cleared := [], closed := true } })

/-! ## Meters at a boundary and their clears -/

/-- The final values of meter `m` are logged (R121, R188): five quantities and four tariffs. -/
def State.logFinals (s : State) (m : Nat) : State :=
  (List.range 9).foldl (fun s w =>
    s.log 0x4014 (m / 4) (m + w * 2 ^ 8 + satNat 48 (s.accWord true m w) * 2 ^ 16)) s

/-- Meter `m` is cleared: finals logged, values, residues, sum check and ACC_VF_BAD zero (R188). -/
def State.clearMeter (s : State) (m : Nat) : State :=
  let s := s.logFinals m
  let s := (List.range 10).foldl (fun s w => s.setAccWord true m w 0) s
  let s := ((s.wr (ACC_VF_BAD (m / 4) (m % 4)) 0).wr (ACC_VCLR (m / 4) (m % 4)) 0).raise
    (0x140 + m / 4) 1
  { s with acc := { s.acc with
      vres := (List.range 4).foldl (fun l k => cellErase (4 * m + k) l) s.acc.vres,
      cleared := m :: s.acc.cleared.erase m } }

/-- The view flag of meter `m` follows its terms outside the view (R186). -/
def State.showView (s : State) (m : Nat) : State :=
  s.wr (ACC_VF_VIEW (m / 4) (m % 4)) (b2n (s.acc.outside.any fun k => k / 16 == m))

/-- Enabled terms in force whose channel lies outside the view in force are flagged (R104, R186). -/
def State.checkViews (s : State) : State :=
  (termsIn s.inForce).foldl (fun s t =>
    let key := 16 * t.1 + t.2.1
    if bit (viewIn s.inForce (t.1 / 4)) (bits t.2.2 0 6) ∨ key ∈ s.acc.outside then s
    else
      ({ s with acc := { s.acc with outside := key :: s.acc.outside } }.showView t.1).raise
        (0x140 + t.1 / 4) 0) s

/-! ## Pulse outputs -/

/-- The spill register of output `k`. -/
def State.spill (s : State) (k : Nat) : Nat := s.rd64 (PLS_SPILL_LO k) (PLS_SPILL_HI k)

/-- PLS_CONST of output `k` in force (R191). -/
def State.plsConst (s : State) (k : Nat) : Nat := s.cfg (PLS_CONST k)

/-- The pending count of output `k` (R191). -/
def State.plsPending (s : State) (k : Nat) : Nat :=
  if s.plsConst k = 0 then 0 else s.spill k / s.plsConst k

/-- The spill register of output `k` takes a value, and PLS_PEND shows the pending count. -/
def State.setSpill (s : State) (k v : Nat) : State :=
  let s := s.wr64 (PLS_SPILL_LO k) (PLS_SPILL_HI k) (v % 2 ^ 64)
  s.wr (PLS_PEND k) (satNat 16 (s.plsPending k))

/-- A change of source takes effect at a boundary: the spill is discarded and logged (R190); the
pending count follows the constant in force (R191). -/
def State.plsBoundary (s : State) (old : List (Nat × Word)) (k : Nat) : State :=
  let f : Fld := ⟨0x060 + k, 0x040, 0, 32⟩
  if fldIn old f = fldIn s.inForce f then s.setSpill k (s.spill k)
  else
    let s := s.log 0x4017 (s.rd (OWN_TC (0x060 + k))) (k + satNat 56 (s.spill k) * 2 ^ 8)
    s.setSpill k 0

/-- The accumulators and pulse outputs at a boundary; `old` is the configuration in force before
(R186, R188, R190). -/
def State.accBoundary (s : State) (old : List (Nat × Word)) : State :=
  let s := (List.range 256).foldl (fun s m =>
    if s.on (ACC_VCLR (m / 4) (m % 4)) then s.clearMeter m else s) s
  (List.range 16).foldl (fun s k => s.plsBoundary old k) s.checkViews

/-- The increment that output `k` takes from the last close: of the source in force, where it was in
force at the opening boundary of the closed cycle (R190, R191). -/
def State.spillGain (s : State) (k : Nat) : Nat :=
  let w := s.cfg ⟨0x060 + k, 0x040, 0, 32⟩
  if s.plsConst k = 0 ∨ s.acc.srcOpen.getD k 0 ≠ w then 0
  else
    match bits w 0 2 with
    | 1 => cellAt 0 (8 * bits w 8 8 + bits w 16 4) s.acc.incCh
    | 2 => cellAt 0 (8 * bits w 8 8 + bits w 16 4) s.acc.incVm
    | _ => 0

/-- PLS_OVR of output `k` and its mirror on page 0x048. -/
def State.setOverrun (s : State) (k : Nat) (b : Bool) : State :=
  let v := s.rd ACC_PLSOVR
  (s.wr (PLS_OVR k) (b2n b)).wr ACC_PLSOVR (if b then setBit v k else clearBit v k)

/-- The overrun of output `k` at a close: set below 4 ms, counted, cleared and logged (R195). -/
def State.overrun (s : State) (k : Nat) (short : Bool) : State :=
  let n := cellAt 0 k s.acc.ovrRun
  if short then
    let s := if s.on (PLS_OVR k) then s else ((s.setOverrun k true).raise (0x060 + k) 1).log 0x3021 1 k
    { s.count (PLS_OVRN k) with acc := { s.acc with ovrRun := cellPut 0 k (n + 1) s.acc.ovrRun } }
  else if !s.on (PLS_OVR k) then s
  else if s.plsPending k ≤ 1 then
    let s := { s with acc := { s.acc with ovrRun := cellErase k s.acc.ovrRun } }
    (s.setOverrun k false).log 0x3022 1 (k + n * 2 ^ 32)
  else
    { s.count (PLS_OVRN k) with acc := { s.acc with ovrRun := cellPut 0 k (n + 1) s.acc.ovrRun } }

/-- Output `k` at 4,096 ct after a close of `len` REF48 clocks: the increment, the effective width of
Table 7-2, the overrun (R191 to R195). -/
def State.spillClose (s : State) (len k : Nat) : State :=
  let g := s.spillGain k
  let s := s.setSpill k (s.spill k + g)
  let w := s.cfg (PLS_WIDTH k)
  let t := len * s.plsConst k
  let long := g = 0 ∨ 2 * w * 1000 * 48 * g ≤ t
  let short := g ≠ 0 ∧ t < 4000 * 48 * g
  let eff := if long then w * 1000 else if short then 2000 else t / (96 * g)
  (s.wr (PLS_WEFF k) eff).overrun k (decide short)

/-- A pulse on output `k` ends: the pin returns to its inactive level. -/
def State.pulseOff (s : State) (k : Nat) : State :=
  let s := s.wr (PLS_ACT k) 0
  { s with acc := { s.acc with edges := k :: s.acc.edges.erase k } }

/-- While CD17 is gated no pulse stands: one in progress ends and counts in PLS_CUTN (R197). -/
def State.cutPulses (s : State) : State :=
  if s.pageRuns 0x060 then s
  else
    (List.range 16).foldl (fun s k =>
      if s.on (PLS_ACT k) then
        let s := (s.wr (PLS_ACT k) 0).count (PLS_CUTN k)
        { s with acc := { s.acc with edges := s.acc.edges.erase k } }
      else s) s

/-- Pages whose domain ran in `old` and does not run now are to be scrubbed before they are accessed
again (R86), and pulses are cut (R197). -/
def State.gateFrom (s old : State) : State :=
  let stop := (List.range 1024).filter fun p =>
    RegMap.assigned p && old.pageRuns p && !s.pageRuns p
  (stop.foldl (fun s p => s.setPg p fun g => { g with stale := true }) s).cutPulses

/-- The page reset of output `k`: the spill, the pending count and the pulse count go, and the reset
configuration is in force at once (R67, R198, Table 7-9); a pulse in progress completes. -/
def State.plsPageReset (s : State) (k : Nat) : State :=
  let s := { s with inForce := s.inForce.filter fun e => e.1 / 4096 != 0x060 + k }
  ((s.setSpill k 0).wr (PLS_PCOUNT k) 0).setOverrun k false

/-! ## Register access -/

/-- A term write (R104, R184): outside the view NOT_OWNER, one channel twice CFG_INVALID; an accepted
change is logged. -/
def State.termWrite (s : State) (q : Req) (m j d : Nat) : Status × State :=
  let p := m / 4
  let c := m % 4
  let ch := bits d 0 6
  let en := bit d 15
  let view := viewIn s.regs p
  let twice := (List.range 16).any fun i =>
    i != j && s.on (ACC_VT_EN p c i) && s.rd (ACC_VT_CH p c i) == ch
  if en ∧ !bit view ch then (.notOwner, s)
  else if en ∧ twice then (.cfgInvalid, s)
  else
    let old := s.reg q.page q.off
    let s := s.storeWord q.page q.off d
    let new := s.reg q.page q.off
    let s := { s with acc := { s.acc with outside := s.acc.outside.erase (16 * m + j) } }.showView m
    (.ok, if old = new then s else s.log 0x4016 p (m + j * 2 ^ 8 + new % 65536 * 2 ^ 16))

/-- Writes of pages 0x040 to 0x048 and 0x140 to 0x17F (R184, R188, R189). -/
def accWrite : Writer := fun s q d =>
  if q.page < 0x140 ∨ q.off < 0x100 ∨ 0x500 ≤ q.off then plainWrite s q d
  else
    let m := 4 * (q.page - 0x140) + (q.off - 0x100) / 256
    let o := q.off % 256
    let r :=
      if o < 0x40 then s.termWrite q m (o / 4) d
      else if o = 0x98 then
        if 4 < bits d 0 3 then (.cfgInvalid, s)
        else
          let s := s.storeWord q.page q.off d
          (.ok, if bit d 8 then s.wr (ACC_VCLR (m / 4) (m % 4)) 1 else s)
      else plainWrite s q d
    if o < 0x40 ∨ o = 0x98 then (r.1, r.2.wr (ACC_V_CCODE (m / 4)) (codeOf r.1)) else r

/-- Reads of the accumulator pages: a read of ACC_CYC or ACC_VCYC latches the block (R179). -/
def accRead : Reader := fun s q =>
  if q.off < 0x100 ∨ q.page = 0x048 then plainRead s q
  else if q.page < 0x140 then
    let b := 0x100 + (q.off - 0x100) / 128 * 128
    readBlock b 32 (b + 0x48) s q
  else
    let b := 0x100 + (q.off - 0x100) / 256 * 256
    if q.off < b + 0x40 ∨ 0x98 ≤ q.off - b then plainRead s q
    else readBlock (b + 0x40) 22 (b + 0x90) s q

/-- The check of a pulse source on output `k` (R190). -/
def State.sourceCheck (s : State) (k d : Nat) : Status :=
  let owner := s.rd (OWN_TC (0x060 + k))
  let i := bits d 8 8
  let q := bits d 16 4
  match bits d 0 2 with
  | 0 => .ok
  | 1 => if owner ≠ 1 then .notOwner else if 63 < i ∨ 7 < q then .cfgInvalid else .ok
  | 2 => if i / 4 ≠ owner then .notOwner else if 4 < q then .cfgInvalid else .ok
  | _ => .cfgInvalid

/-- Writes of pages 0x060 to 0x06F, with their code in PLS_CFGSTS (R190, R191). -/
def plsWrite : Writer := fun s q d =>
  let k := q.page - 0x060
  let cfg (c : Status) (s : State) : Status × State := (c, s.wr (PLS_CCODE k) (codeOf c))
  match q.off with
  | 0x040 =>
    let c := s.sourceCheck k d
    cfg c (if c = .ok then s.storeWord q.page q.off d else s)
  | 0x044 => cfg (if d = 0 then .zeroLen else .ok) (s.storeWord q.page q.off d)
  | 0x048 =>
    if bits d 0 8 = 0 then cfg .cfgInvalid s else cfg .ok (s.storeWord q.page q.off d)
  | _ => plainWrite s q d

/-! ## Commands -/

/-- ACC_CYC_READ (R179): a read of ACC_CYC of a channel or ACC_VCYC of a meter. -/
def execAccCycRead (vm : Bool) (idx : Fin 256) (r : RegRead) (s : State) : Result :=
  let i := idx.val
  .next (if vm then s.readReg accRead (0x140 + i / 4) (0x190 + i % 4 * 256) r
    else s.readReg accRead (0x040 + i % 64 / 8) (0x148 + i % 8 * 128) r)

/-- ACC_VCLR (R188): a write of 1 to ACC_VCLR of a meter, its other fields written as they stand. -/
def execAccVclr (meter : Fin 256) (w : RegWrite) (s : State) : Result :=
  let i := meter.val
  .next (s.writeReg accWrite (0x140 + i / 4) (0x198 + i % 4 * 256) w (setBit · 8))

/-- SPILL_INCREMENT (R192): at 4,096 ct after a close every output takes its increment. -/
def execSpillIncrement (s : State) : Result :=
  .next (match s.acc.spillDue with
    | none => s
    | some len =>
      let s := { s with acc := { s.acc with spillDue := none } }
      ((List.range 16).foldl (fun s k => s.spillClose len k) s).cutPulses)

/-- PULSE_START (R194): a pulse starts while one is pending; it takes PLS_CONST from the spill. -/
def execPulseStart (k : Fin 16) (s : State) : Result :=
  let k := k.val
  .next (
    if s.plsConst k = 0 ∨ s.plsPending k = 0 ∨ s.on (PLS_ACT k) ∨ s.pageRuns (0x060 + k) = false then s
    else
      let s := (s.setSpill k (s.spill k - s.plsConst k)).wr (PLS_ACT k) 1
      let s := (s.wr (PLS_PCOUNT k) ((s.rd (PLS_PCOUNT k) + 1) % 2 ^ 32)).raise (0x060 + k) 0
      { s with acc := { s.acc with edges := k :: s.acc.edges.erase k } })

/-- PULSE_END (R194): the pulse on output `k` ends. -/
def execPulseEnd (k : Fin 16) (s : State) : Result :=
  .next (if s.on (PLS_ACT k.val) then s.pulseOff k.val else s)

/-- PIN_READBACK (R196): the level read 20 µs after an edge is compared with the driven one; runs of
mismatches are counted and logged. -/
def execPinReadback (k : Fin 16) (level : Bool) (s : State) : Result :=
  let k := k.val
  .next (
    if k ∉ s.acc.edges then s
    else
      let s := { s with acc := { s.acc with edges := s.acc.edges.erase k } }
      let driven := s.on (PLS_ACT k) != s.on (PLS_POL k)
      let n := cellAt 0 k s.acc.rbRun
      if level != driven then
        let s := (s.count (PLS_RBERRN k)).raise (0x060 + k) 2
        let s := if n = 0 then s.log 0x3023 1 k else s
        { s with acc := { s.acc with rbRun := cellPut 0 k (n + 1) s.acc.rbRun } }
      else if n = 0 then s
      else
        { s with acc := { s.acc with rbRun := cellErase k s.acc.rbRun } }.log 0x3024 1
          (k + n * 2 ^ 32))

/-- LOSS (R41): LOCKED without a reference crossing moves to FLYWHEEL. -/
def execLoss (s : State) : Result :=
  .next (if s.ctfSt = ctfLocked then s.enterFlywheel.gateFrom s else s)

end Sys2Proof.Machine
end

