-- ==== Sys2Proof/Machine/Quota.lean ====
section
/-! DEFINITION. Contended resources (chapter 4): quotas and their refill periods (R105, R114, R115), the
turns of tenants within a class (R113), and the order in which waiting items are served. -/

namespace Sys2Proof.Machine

open Reg

/-! ## Quotas -/

/-- The state with what the tenancy pages hold changed. -/
def State.setTnc (s : State) (f : TncState → TncState) : State := { s with tnc := f s.tnc }

/-- The quota of tenant `t` on resource `r` as page 0x003 states it (Table 4-9). -/
def State.quotaSet (s : State) (r t : Nat) : Nat :=
  match r with
  | 1 => s.rd (TNC_QINF t)
  | 2 => s.rd (TNC_QAIR t)
  | 3 => s.rd (TNC_QSEC t)
  | _ => s.rd (TNC_QCEL t)

/-- What remains of a quota in the period. -/
def State.quotaLeft (s : State) (r t : Nat) : Nat := cellAt 0 (64 * r + t) s.tnc.left

/-- The context page of tenant `t` shows its quota on resource `r` (Table 4-12). -/
def State.quotaShow (s : State) (r t : Nat) : State :=
  let q := cellAt 0 (64 * r + t) s.tnc.quota
  let l := s.quotaLeft r t
  match r with
  | 1 => (s.wr (TNC_CX_QINF t) q).wr (TNC_CX_UINF t) (satNat 16 (q - l))
  | 2 => s.wr (TNC_CX_RAIR t) (satNat 24 l)
  | 3 => s.wr (TNC_CX_RSEC t) (satNat 8 l)
  | _ => s.wr (TNC_CX_RCEL t) (satNat 16 l)

/-- What remains of a quota takes a value. -/
def State.quotaPut (s : State) (r t n : Nat) : State :=
  (s.setTnc fun x => { x with left := cellPut 0 (64 * r + t) n x.left }).quotaShow r t

/-- An item of cost `n` is admitted against the quota, or refused: none (R115). -/
def State.takeQuota (s : State) (r t n : Nat) : Option State :=
  if s.quotaLeft r t < n then none else some (s.quotaPut r t (s.quotaLeft r t - n))

/-- A cost returns to the quota, where the period of its admission is still current (R115, R283). -/
def State.giveBack (s : State) (r t n period : Nat) : State :=
  if cellAt 0 r s.tnc.period = period then s.quotaPut r t (s.quotaLeft r t + n) else s

/-- The period in force of a resource: one more than its first cycle, 0 before the first. -/
def State.periodOf (s : State) (r : Nat) : Nat := cellAt 0 r s.tnc.period

/-- A refill period of resource `r` begins with cycle `first`: quotas refill, new values take effect,
the turns begin afresh and outcomes are announced again (R105, R113, R118). -/
def State.refill (s : State) (r first : Nat) : State :=
  let s := s.setTnc fun x => { x with
    period := cellPut 0 r (first + 1) x.period,
    turn := x.turn.filter fun e => e.1 / 4 != r,
    told := x.told.filter fun k => k % 1024 / 16 != r }
  (List.range 64).foldl (fun s t =>
    let q := s.quotaSet r t
    let k := 64 * r + t
    let d := min q (cellAt 0 k s.tnc.debt)
    let s := s.setTnc fun x => { x with
      quota := cellPut 0 k q x.quota,
      debt := cellPut 0 k (cellAt 0 k x.debt - d) x.debt }
    s.quotaPut r t (q - d)) s

/-! ## Turns -/

/-- Tenants in the order of their turns at a class of a resource: after the one served last in the
period; at the start of a period after the one served first in the previous one (R113). -/
def State.turnOrder (s : State) (r c : Nat) : List Nat :=
  let k := 4 * r + c
  let first := match cellAt 0 k s.tnc.turn with
    | 0 => if s.tnc.served.contains k then s.rd (TNC_RR (r - 1) c) + 1 else 0
    | n => n
  (List.range 64).map fun i => (first + i) % 64

/-- Tenant `t` is served at class `c` of resource `r`. -/
def State.serveTurn (s : State) (r c t : Nat) : State :=
  let k := 4 * r + c
  let s := if cellAt 0 k s.tnc.turn = 0 then s.wr (TNC_RR (r - 1) c) t else s
  s.setTnc fun x => { x with
    turn := cellPut 0 k (t + 1) x.turn, served := k :: x.served.erase k }

/-- The next tenant to serve among those that wait, given by class and tenant: the highest class,
within it the next turn (R113). -/
def State.nextServed (s : State) (r : Nat) (waits : Nat → Nat → Bool) : Option (Nat × Nat) :=
  [3, 2, 1, 0].findSome? fun c =>
    ((s.turnOrder r c).find? fun t => waits c t).map fun t => (c, t)

end Sys2Proof.Machine
end

