-- ==== Sys2Proof/Machine/Tile.lean ====
section
/-! DEFINITION. The arithmetic of tiles (R219, R220, R236): integer formats, bfloat16 with binary32 sums,
the epilogue; the fields of a Sparge list entry (Table 9-4). -/

namespace Sys2Proof.Machine

/-! ## Binary floating point -/

/-- A value of bfloat16 or binary32: (−1)^neg × m × 2^e, an infinity or a NaN. -/
inductive FVal where
  | fin (neg : Bool) (m : Nat) (e : Int)
  | inf (neg : Bool)
  | nan
  deriving DecidableEq, Repr

/-- The value of a word with `f` fraction bits and eight exponent bits; a subnormal is zero
(R220). -/
def floatOf (f n : Nat) : FVal :=
  let neg := bit n (f + 8)
  let e := bits n f 8
  let m := bits n 0 f
  if e = 255 then (if m = 0 then .inf neg else .nan)
  else if e = 0 then .fin neg 0 0
  else .fin neg (2 ^ f + m) ((e : Int) - 127 - f)

/-- A natural number divided by 2^k, rounded to nearest, ties to even. -/
def shiftEven (m k : Nat) : Nat :=
  let q := m / 2 ^ k
  let r := m % 2 ^ k
  if 2 * r < 2 ^ k then q else if 2 ^ k < 2 * r then q + 1 else q + q % 2

/-- A finite value rounded to `p` significant bits, nearest even; below the normal range it is zero,
above it an infinity (R220). -/
def roundFloat (p : Nat) (neg : Bool) (m : Nat) (e : Int) : FVal :=
  if m = 0 then .fin neg 0 0
  else
    let k := Nat.log2 m + 1 - p
    let r := shiftEven m k
    let e := e + k
    let top := e + (Nat.log2 r : Int)
    if top < -126 then .fin neg 0 0 else if 127 < top then .inf neg else .fin neg r e

/-- The word of a value, with `f` fraction bits; every NaN is 0x7FC0… (R220). -/
def floatWord (f : Nat) (x : FVal) : Nat :=
  match x with
  | .nan => 0x1FF * 2 ^ (f - 1)
  | .inf neg => b2n neg * 2 ^ (f + 8) + 255 * 2 ^ f
  | .fin neg m e =>
    if m = 0 then b2n neg * 2 ^ (f + 8)
    else
      let l := Nat.log2 m
      let frac := if l ≤ f then m * 2 ^ (f - l) else m / 2 ^ (l - f)
      b2n neg * 2 ^ (f + 8) + (e + l + 127).toNat * 2 ^ f + frac % 2 ^ f

/-- The exact product (R220). -/
def FVal.mul : FVal → FVal → FVal
  | .nan, _ => .nan
  | _, .nan => .nan
  | .inf a, .inf b => .inf (a != b)
  | .inf a, .fin b m _ => if m = 0 then .nan else .inf (a != b)
  | .fin a m _, .inf b => if m = 0 then .nan else .inf (a != b)
  | .fin a m e, .fin b n f => .fin (a != b) (m * n) (e + f)

/-- The sum in binary32 (R220). -/
def FVal.add : FVal → FVal → FVal
  | .nan, _ => .nan
  | _, .nan => .nan
  | .inf a, .inf b => if a = b then .inf a else .nan
  | .inf a, _ => .inf a
  | _, .inf b => .inf b
  | .fin a m e, .fin b n f =>
    let g := min e f
    let x : Int := (m * 2 ^ (e - g).toNat : Nat)
    let y : Int := (n * 2 ^ (f - g).toNat : Nat)
    let t := (if a then -x else x) + (if b then -y else y)
    if t = 0 then .fin (a && b) 0 0 else roundFloat 24 (decide (t < 0)) t.natAbs g

/-- The value is negative, a negative zero included. -/
def FVal.negative : FVal → Bool
  | .fin neg _ _ => neg
  | .inf neg => neg
  | .nan => false

/-- A binary32 value in bfloat16 (R220; log entry 15). -/
def FVal.narrow : FVal → FVal
  | .fin neg m e => roundFloat 8 neg m e
  | x => x

/-! ## Sparge list entries -/

/-- The fields of Table 9-4, of an entry as a number. -/
def spOp (w : Nat) : Nat := bits w 0 4
def spFmt (w : Nat) : Nat := bits w 4 2
def spAcc (w : Nat) : Bool := bit w 6
def spAlt4 (w : Nat) : Bool := bit w 7
def spAct (w : Nat) : Nat := bits w 8 2
def spOfmt (w : Nat) : Nat := bits w 10 2
def spBias (w : Nat) : Bool := bit w 12
def spClm (w : Nat) : Nat := bits w 16 8
def spTc (w : Nat) : Nat := bits w 24 6
def spMb (w : Nat) : Nat := bits w 32 3
def spNb (w : Nat) : Nat := bits w 36 3
def spK (w : Nat) : Nat := bits w 40 11
def spItem (w : Nat) : Nat := bits w 64 16
def spSeq (w : Nat) : Nat := bits w 80 16
def spWcnt (w : Nat) : Nat := bits w 96 8
def spScnt (w : Nat) : Nat := bits w 104 8
def spWval (w : Nat) : Nat := bits w 112 16
def spDlc (w : Nat) : Nat := bits w 128 32
def spA (w : Nat) : Nat := bits w 160 40
def spB (w : Nat) : Nat := bits w 200 40
def spC (w : Nat) : Nat := bits w 240 40
def spBadr (w : Nat) : Nat := bits w 280 40
def spB4 (w : Nat) : Nat := bits w 320 40
def spAstr (w : Nat) : Nat := bits w 360 16
def spBstr (w : Nat) : Nat := bits w 376 16
def spCstr (w : Nat) : Nat := bits w 392 16
def spQmul (w : Nat) : Nat := bits w 408 16
def spQsh (w : Nat) : Nat := bits w 424 5
def spClen (w : Nat) : Nat := bits w 432 16

/-- The CRC-32 that bits 511:480 of a 64-byte record hold: over its bytes 0 to 59 (R85). -/
def crcOf64 (w : Nat) : Nat := crc32 (leBytes 60 w)

/-- A 64-byte record passes its CRC. -/
def crcOk64 (w : Nat) : Bool := bits w 480 32 == crcOf64 w

/-- A 64-byte record with its CRC put in. -/
def withCrc64 (w : Nat) : Nat := w % 2 ^ 480 + crcOf64 w * 2 ^ 480

/-! ## Operands -/

/-- Bytes of `n` elements of an operand format: int8, int4, bf16. -/
def elemBytes (fmt n : Nat) : Nat := match fmt with
  | 0 => n
  | 1 => n / 2
  | _ => 2 * n

/-- Bytes of `n` elements of an output format: 32-bit, int8, bf16, int4. -/
def outBytes (ofmt n : Nat) : Nat := match ofmt with
  | 0 => 4 * n
  | 1 => n
  | 2 => 2 * n
  | _ => n / 2

/-- The integers of a row: int8 or int4, the lower index in bits 3:0 (Table 9-1). -/
def intRow (fmt : Nat) (l : List Byte) : List Int :=
  if fmt = 1 then l.flatMap fun b => [signed 4 b.toNat, signed 4 (b.toNat / 16)]
  else l.map fun b => signed 8 b.toNat

/-- The bfloat16 values of a row. -/
def floatRow : List Byte → List FVal
  | a :: b :: l => floatOf 7 (a.toNat + 256 * b.toNat) :: floatRow l
  | _ => []

/-- The words of a row. -/
def wordRow : List Byte → List Nat
  | a :: b :: c :: d :: l => leNat [a, b, c, d] :: wordRow l
  | _ => []

/-- Σ a·b, exact (R220). -/
def intDot : List Int → List Int → Int
  | a :: l, b :: m => a * b + intDot l m
  | _, _ => 0

/-- Σ a·b in binary32 in ascending order of k, from `x` on (R220). -/
def floatDot (x : FVal) : List FVal → List FVal → FVal
  | a :: l, b :: m => floatDot (x.add (a.mul b)) l m
  | _, _ => x

/-- The substitute of an int8 element of A in D1: ÷ 16, rounded, within int4 (R236). -/
def alt4 (a : Int) : Int := max (-8) (min 7 (divRound a 16))

/-- An integer element after the epilogue: activation, then the output format (R220). -/
def intOut (w : Nat) (acc : Int) : Int :=
  let acc := if spAct w = 1 then max 0 acc else acc
  let q := divRound (acc * spQmul w) (2 ^ spQsh w)
  match spOfmt w with
  | 1 => max (-128) (min 127 q)
  | 3 => max (-8) (min 7 q)
  | _ => acc

/-- A binary32 element after the epilogue, as a word. -/
def floatOut (w : Nat) (x : FVal) : Nat :=
  let x := if spAct w = 1 ∧ x.negative = true then .fin false 0 0 else x
  if spOfmt w = 2 then floatWord 7 x.narrow else floatWord 23 x

/-- A row of the result in memory form. -/
def packRow (ofmt : Nat) : List Nat → List Byte
  | a :: b :: l =>
    if ofmt = 3 then BitVec.ofNat 8 (a % 16 + b % 16 * 16) :: packRow ofmt l
    else leBytes (outBytes ofmt 1) a ++ leBytes (outBytes ofmt 1) b ++ packRow ofmt l
  | [a] => leBytes (outBytes ofmt 1) a
  | [] => []

/-- What a MATMUL tile reads: rows of A and of B or its substitute, rows of C where it accumulates, the
bias vector. -/
structure TileIn where
  a    : List (List Byte)
  b    : List (List Byte)
  c    : List (List Byte)
  bias : List Byte
  deriving DecidableEq, Repr

/-- Rows of a MATMUL result as bytes, and whether saturation to int32 changed one (R220, R236).
`alt`: the int4 substitution runs. -/
def tileRows (w : Nat) (alt : Bool) (x : TileIn) : List (List Byte) × Bool :=
  let n := 16 * spNb w
  let bias := if spBias w then wordRow x.bias else List.replicate n 0
  if spFmt w = 2 then
    let bs := x.b.map floatRow
    let rows := (List.range (16 * spMb w)).map fun i =>
      let a := floatRow (x.a.getD i [])
      let c := if spAcc w then wordRow (x.c.getD i []) else List.replicate n 0
      (List.range n).map fun j =>
        let s := floatDot (floatOf 23 (c.getD j 0)) a (bs.getD j [])
        floatOut w (if spBias w then s.add (floatOf 23 (bias.getD j 0)) else s)
    (rows.map (packRow (spOfmt w)), false)
  else
    let fmt := if alt then 1 else spFmt w
    let bs := x.b.map (intRow fmt)
    let rows := (List.range (16 * spMb w)).map fun i =>
      let a := intRow (spFmt w) (x.a.getD i [])
      let a := if alt then a.map alt4 else a
      let c := if spAcc w then (wordRow (x.c.getD i [])).map (signed 32) else List.replicate n 0
      (List.range n).map fun j =>
        let p := intDot a (bs.getD j [])
        let acc := c.getD j 0 + (if alt then 256 * p else p) + signed 32 (bias.getD j 0)
        (satSigned 32 acc, satSigned 32 acc != acc)
    (rows.map fun r => packRow (spOfmt w) (r.map fun v => unsigned 32 (intOut w v.1)),
      rows.any fun r => r.any (·.2))

end Sys2Proof.Machine
end

