-- ==== Sys2Proof/Machine/Tun.lean ====
section
/-! DEFINITION. The Tun array (chapter 9): the inference address map and tenant windows, sync counters, the
Sparge list and its engines, quiet-slot gating, degrade levels and load-step bursts; the reports that
the Barm list engine receives of its entries. -/

namespace Sys2Proof.Machine

open Reg

/-- The state with what the Tun array holds changed. -/
def State.setTun (s : State) (f : TunState → TunState) : State := { s with tun := f s.tun }

/-- The state with what the Barm list engine holds changed. -/
def State.setBarm (s : State) (f : BarmState → BarmState) : State := { s with barm := f s.barm }

/-! ## The inference address map (Table 9-3) -/

/-- The first address of the resident region of cluster `k`. -/
def residentBase (k : Nat) : Nat := 0x1000000 + 0x100000 * k

/-- The first address of the alias of the running cluster's resident region. -/
def aliasBase : Nat := 0x1800000

/-- The length of a resident region. -/
def residentLen : Nat := 0x80000

/-- The first address of the LPDDR4X. -/
def ddrBase : Nat := 0x100000000

/-- An address with the alias of cluster `k` resolved. -/
def resolve (k a : Nat) : Nat :=
  if aliasBase ≤ a ∧ a < aliasBase + residentLen then residentBase k + (a - aliasBase) else a

/-- The resident region that holds a resolved address. -/
def residentOf (a : Nat) : Option Nat :=
  if residentBase 0 ≤ a ∧ a < aliasBase ∧ (a - residentBase 0) % 0x100000 < residentLen then
    some ((a - residentBase 0) / 0x100000)
  else none

/-- The end of the memory that holds a resolved address; none outside the map (R222), and none for
LPDDR4X that is not ready or lies above its size (R304, log entry 16). -/
def State.mapEnd (s : State) (a : Nat) : Option Nat :=
  if a < 0x1000000 then some 0x1000000
  else if ddrBase ≤ a then
    let e := ddrBase + s.rd CCX_DDR_MIB * 0x100000
    if s.on CCX_DDR_READY ∧ a < e then some e else none
  else (residentOf a).map fun k => residentBase k + residentLen

/-- `n` bytes from `a` on are covered by pieces, given by the end of the piece that holds an
address. -/
def covered (next : Nat → Option Nat) : Nat → Nat → Nat → Bool
  | _, _, 0 => true
  | 0, _, _ => false
  | fuel + 1, a, n =>
    match next a with
    | some e => if a + n ≤ e then true else covered next fuel e (a + n - e)
    | none => false

/-- Every byte of a range lies in the map. -/
def State.mapped (s : State) (a n : Nat) : Bool := covered s.mapEnd 16 a n

/-- The end of a window of tenant `t` that holds a resolved address and permits the access, for
cluster `k` where one runs (R223). -/
def State.windowEnd (s : State) (k : Option Nat) (t : Nat) (write : Bool) (a : Nat) : Option Nat :=
  (List.range 4).findSome? fun w =>
    let ok := s.on (TUN_WIN_EN t w) && s.on (if write then TUN_WIN_W t w else TUN_WIN_R t w)
    let b := s.rd (TUN_WIN_BASE t w) * 4096
    let e := b + s.rd (TUN_WIN_SIZE t w) * 4096
    let a' := match k with
      | some k => if residentOf a = some k then aliasBase + (a - residentBase k) else a
      | none => a
    if !ok then none
    else if b ≤ a ∧ a < e then some e
    else if a' ≠ a ∧ b ≤ a' ∧ a' < e then some (a + (min e (aliasBase + residentLen) - a'))
    else none

/-- Every byte of a range of resolved addresses lies in windows of tenant `t` that permit the access
(R223); a write into the export region never does (R172). -/
def State.granted (s : State) (k : Option Nat) (t : Nat) (write : Bool) (a n : Nat) : Bool :=
  covered (s.windowEnd k t write) 16 a n
    && !(write && decide (a < 0x1000000) && decide (0xFF0000 < a + n))

/-- A range that an operation touches: address, length, write. -/
structure Span where
  addr  : Nat
  len   : Nat
  write : Bool
  deriving DecidableEq, Repr

/-- `n` rows of `len` bytes, `stride` apart. -/
def rowSpans (a stride n len : Nat) (write : Bool) : List Span :=
  (List.range n).map fun i => ⟨a + i * stride, len, write⟩

/-- The first span that the windows of tenant `t` do not permit; bytes outside the map are left to the
check of addresses (log entry 16). -/
def State.firstDenied (s : State) (k : Option Nat) (t : Nat) (l : List Span) : Option Span :=
  l.find? fun x =>
    let a := match k with
      | some k => resolve k x.addr
      | none => x.addr
    s.mapped a x.len && !s.granted k t x.write a x.len

/-- A window check that failed is logged: initiator, address, write (Table 16-6). -/
def State.windowFault (s : State) (t initiator : Nat) (x : Span) : State :=
  s.log 0x5006 t (initiator + x.addr % 2 ^ 40 * 2 ^ 8 + b2n x.write * 2 ^ 48)

/-! ## Sync counters -/

/-- A wait is met: no counter named, or it holds the value (R227). -/
def State.waitMet (s : State) (c v : Nat) : Bool :=
  c == 0xFF || decide (v ≤ s.rd (TUN_SYNC_VAL (c % 128)))

/-- The counter waited on is poisoned (R230). -/
def State.waitPoisoned (s : State) (c : Nat) : Bool := c != 0xFF && s.on (TUN_SYNC_POIS (c % 128))

/-- Codes that do not poison (R230). -/
def cleanCode (c : Status) : Bool := c == .ok || c == .holdover || c == .degraded

/-- Completion with a code signals a counter, and poisons it where the code is not clean; ZERO_LEN
signals nothing (R230). -/
def State.signal (s : State) (c : Nat) (code : Status) : State :=
  if c = 0xFF ∨ code = .zeroLen then s
  else
    let s := s.count (TUN_SYNC_VAL (c % 128))
    if cleanCode code then s else s.wr (TUN_SYNC_POIS (c % 128)) 1

/-! ## Reports to the Barm list engine -/

/-- The list with an identifier. -/
def State.listOf (s : State) (id : Nat) : Option BarmList := s.barm.lists.find? (·.id == id)

/-- A list changes. -/
def State.setList (s : State) (id : Nat) (f : BarmList → BarmList) : State :=
  s.setBarm fun b => { b with lists := b.lists.map fun l => if l.id = id then f l else l }

/-- The entry with an index, as a number. -/
def BarmList.entry (l : BarmList) (i : Nat) : Nat := ((l.entries.getD i 0#512)).toNat

/-- The physical counter of a local one (R272). -/
def BarmList.phys (l : BarmList) (c : Nat) : Nat := if c = 0xFF then 0xFF else l.ctrs.getD c 0xFF

/-- An entry of a list completes with a code. -/
def State.entryDone (s : State) (id i : Nat) (c : Status) : State :=
  s.setList id fun l => { l with
    codes := l.codes ++ [(i, c)], waits := l.waits.erase i, deg := l.deg || c == .degraded }

/-- An EXPERT entry completes: its counter is signalled once, its group counter freed (R281). -/
def State.expertDone (s : State) (l : BarmList) (i : Nat) (c : Status) (poison : Bool) : State :=
  let code : Status := if poison && cleanCode c then .skipped else c
  let s := s.signal (l.phys (spScnt (l.entry i))) code
  let s := s.setBarm fun b => match l.groups.find? (·.idx == i) with
    | some g => { b with used := b.used.erase g.ctr }
    | none => b
  (s.entryDone l.id i c).setList l.id fun l => { l with groups := l.groups.filter (·.idx != i) }

/-- The report of a completed entry of a list: code, saturation, ticks, whether it ran (R232, R281,
R284). Its counter has been signalled. -/
def State.report (s : State) (src : Option (Nat × Nat)) (c : Status) (sat ran : Bool) (ticks : Nat) :
    State :=
  match src with
  | none => s
  | some (id, i) =>
    let s := s.setList id fun l => { l with
      ticks := l.ticks + ticks, tiles := l.tiles + b2n ran, sat := l.sat + b2n sat,
      deg := l.deg || c == .degraded }
    match s.listOf id with
    | none => s
    | some l =>
      match l.groups.find? (·.idx == i) with
      | none => s.entryDone id i c
      | some g =>
        let g' := { g with code := firstOf g.code c }
        let l' := { l with groups := l.groups.map fun x => if x.idx = i then g' else x }
        let s := s.setList id fun _ => l'
        if g.tiles ≤ s.rd (TUN_SYNC_VAL g.ctr) then
          s.expertDone l' i g'.code (s.on (TUN_SYNC_POIS g.ctr))
        else s

/-! ## Checks of an entry -/

/-- The int4 substitution applies to an entry started at a level (R236). -/
def runsAlt4 (w level : Nat) : Bool := level == 1 && spAlt4 w && spFmt w == 0

/-- The format and address of B as run. -/
def bFmt (w : Nat) (alt : Bool) : Nat := if alt then 1 else spFmt w
def bAddr (w : Nat) (alt : Bool) : Nat := if alt then spB4 w else spB w
def bStride (w : Nat) (alt : Bool) : Nat := if alt then spBstr w / 2 else spBstr w

/-- Every range that an entry reads and writes (R223). -/
def entrySpans (w : Nat) (alt : Bool) : List Span :=
  match spOp w with
  | 1 =>
    let m := 16 * spMb w
    let n := 16 * spNb w
    rowSpans (spA w) (spAstr w) m (elemBytes (spFmt w) (spK w)) false
      ++ rowSpans (bAddr w alt) (bStride w alt) n (elemBytes (bFmt w alt) (spK w)) false
      ++ (if spBias w then [⟨spBadr w, 4 * n, false⟩] else [])
      ++ (if spAcc w then rowSpans (spC w) (spCstr w) m (4 * n) false else [])
      ++ rowSpans (spC w) (spCstr w) m (outBytes (spOfmt w) n) true
  | 2 => [⟨spA w, 64 * spClen w, false⟩, ⟨spC w, 64 * spClen w, true⟩]
  | _ => []

/-- Check 3 of R226: reserved encodings, excluded combinations, addresses, strides and staged bytes. -/
def State.entryBad (s : State) (k w : Nat) (alt : Bool) : Bool :=
  let ctr (c : Nat) := decide (127 < c) && c != 0xFF
  let fmt := spFmt w
  let o := spOfmt w
  let row := elemBytes fmt (spK w)
  let out := 16 * spNb w
  let e := match fmt with
    | 0 => 16
    | 1 => 8
    | _ => 32
  let spans := entrySpans w alt
  let common := ctr (spWcnt w) || ctr (spScnt w)
    || spans.any fun x => !s.mapped (resolve k x.addr) x.len
  match spOp w with
  | 1 =>
    common || fmt == 3 || decide (1 < spAct w) || decide (4 < spMb w) || decide (4 < spNb w)
      || decide (1024 < spK w) || (spAcc w && o != 0) || (spAlt4 w && fmt != 0)
      || ((o == 1 || o == 3) && fmt == 2) || (o == 2 && fmt != 2)
      || [spA w, spB w, spB4 w, spC w, spBadr w].any (· % 16 != 0)
      || [spAstr w, spBstr w, spCstr w].any (· % 16 != 0)
      || decide (spAstr w < row) || decide (spBstr w < row) || decide (spCstr w < outBytes o out)
      || ((fmt == 1 || alt) && spK w % 2 == 1)
      || decide (49152 < (spMb w + spNb w) * spK w * e)
      || spans.any fun x => x.write && (residentOf (resolve k x.addr)).isSome
  | 2 => common || [spA w, spC w].any (· % 64 != 0)
  | 3 => common
  | _ => true

/-- The zero extents of check 4 (R226). -/
def entryEmpty (w : Nat) : Bool :=
  (spOp w == 1 && (spMb w == 0 || spNb w == 0 || spK w == 0)) || (spOp w == 2 && spClen w == 0)

/-- The entry reads a resident region that is not valid (R224). -/
def State.readsInvalid (s : State) (k w : Nat) (alt : Bool) : Bool :=
  (entrySpans w alt).any fun x => !x.write &&
    match residentOf (resolve k x.addr) with
    | some r => !bit (s.rd TUN_RESV) r
    | none => false

/-- The outcome of the checks before an entry starts on cluster `k`: none where it may run (R226,
R230, R224). -/
def State.entryStop (s : State) (k w : Nat) (alt : Bool) : Option Status :=
  if !crcOk64 w then some .integFail
  else if (s.firstDenied (some k) (spTc w) (entrySpans w alt)).isSome then some .notOwner
  else if s.entryBad k w alt then some .cfgInvalid
  else if entryEmpty w then some .zeroLen
  else if s.waitPoisoned (spWcnt w) || s.readsInvalid k w alt then some .skipped
  else none

/-- What a stop logs (R19, R223). -/
def State.logStop (s : State) (k w : Nat) (alt : Bool) (c : Status) : State :=
  if c = .integFail then s.log 0x7003 (spTc w) (spItem w + spSeq w * 2 ^ 16)
  else if c = .notOwner then
    match s.firstDenied (some k) (spTc w) (entrySpans w alt) with
    | some x => s.windowFault (spTc w) 4 x
    | none => s
  else s

/-! ## Completion -/

/-- The counters of completed tiles (Tables 9-8, 9-9). -/
def State.countTile (s : State) (c : Status) : State :=
  if c = .zeroLen then s
  else
    let s := s.count TUN_TILEN
    if c = .integFail ∨ c = .notOwner ∨ c = .cfgInvalid then (s.count TUN_ERRN).raise 0x080 1
    else if c = .skipped ∨ c = .timeout then s.count TUN_SKIPN
    else s

/-- An entry completes without running. -/
def State.endEntry (s : State) (e : SpEntry) (c : Status) : State :=
  ((s.countTile c).signal (spScnt e.word.toNat) c).report e.src c false false 0

/-- The Sparge list takes a new value; TUN_I_EMPTY when it becomes empty (Table 9-9). -/
def State.setSparge (s : State) (l : List SpEntry) : State :=
  let t := s.setTun fun x => { x with sparge := l }
  if l = [] ∧ s.tun.sparge ≠ [] then t.raise 0x080 2 else t

/-- A deadline of 32 cycle bits has been reached or lies too far ahead (R229). -/
def deadlinePassed (cyc dlc : Nat) : Bool :=
  let ahead := (dlc + 2 ^ 32 - cyc % 2 ^ 32) % 2 ^ 32
  ahead == 0 || decide (2 ^ 31 < ahead)

/-- Entries not started whose deadline has been reached complete with TIMEOUT (R229). -/
def State.expireEntries (s : State) : State :=
  let late (e : SpEntry) := deadlinePassed s.stamp.cyc (spDlc e.word.toNat)
  let gone := s.tun.sparge.filter late ++ (s.tun.staged.map (·.2)).filter late
  let s := s.setSparge (s.tun.sparge.filter fun e => !late e)
  let s := s.setTun fun x => { x with staged := x.staged.filter fun e => !late e.2 }
  gone.foldl (fun s e => s.endEntry e .timeout) s

/-- Clusters that take entries: enabled and not masked (R227, R527). -/
def State.clusters (s : State) : List Nat :=
  (List.range 8).filter fun k => bit (s.rd TUN_CLEN) k && !bit (s.rd MON_TMASK) k

/-- An entry is eligible for cluster `k` (R227). -/
def State.eligible (s : State) (k : Nat) (e : SpEntry) : Bool :=
  let w := e.word.toNat
  bit (spClm w) k && s.waitMet (spWcnt w) (spWval w) && s.clusters.contains k

/-- Eligible SIGNAL entries complete, at most `fuel` of them (R226). -/
def State.settleSignals : Nat → State → State
  | 0, s => s
  | fuel + 1, s =>
    match s.tun.sparge.find? fun e => spOp e.word.toNat == 3 &&
        (List.range 8).any fun k => s.eligible k e with
    | none => s
    | some e =>
      let w := e.word.toNat
      let t := s.setSparge (s.tun.sparge.erase e)
      match t.entryStop 0 w false with
      | some c => ((t.logStop 0 w false c).endEntry e c).settleSignals fuel
      | none => (t.endEntry e t.okOr).settleSignals fuel

/-! ## Quiet slots -/

/-- The clocks of cluster `k` are stopped: the gate has been asserted for 2k ct, or has been released
for less (R233). -/
def State.clusterGated (s : State) (k : Nat) : Bool :=
  let since := s.ticks - s.tun.gateAt
  if s.quietGate then decide (2 * k ≤ since) else decide (s.tun.gateAt ≠ 0) && decide (since < 2 * k)

/-- Gated ticks up to the present tick are counted (Tables 9-8, 9-10). -/
def State.countGated (s : State) : State :=
  let n := s.ticks - s.tun.gateFrom
  let s := s.setTun fun x => { x with gateCt := x.gateCt + n, gateFrom := s.ticks }
  (List.range 8).foldl (fun s k => s.count (TUN_CK_GATECT k) n) s

/-! ## Bursts -/

/-- The stamp of the rising edge of repetition `n`, from 1 (R239). -/
def Burst.rise (b : Burst) (n : Nat) : Nat := b.start + (n - 1) * (b.len + b.gap)

/-- The falling edge of a burst at a stamp is sent to the gauge (R240). -/
def State.burstFall (s : State) (at' : Nat) : State :=
  let s := s.wr64 TUN_BL_LO TUN_BL_HI at'
  s.setTun fun x => { x with edges := x.edges ++ [(false, at')] }

/-- A burst completes with a code (R238, R239). -/
def State.burstEnd (s : State) (b : Burst) (c : Status) : State :=
  let s := ((s.wr TUN_BST_CODE (codeOf c)).wr TUN_BST_BUSY 0).wr TUN_BST_RUN b.ran
  (s.setTun fun x => { x with burst := none }).raise 0x080 0

/-- A burst is cut: a repetition in progress ends now (R239). -/
def State.burstCut (s : State) (c : Status) : State :=
  match s.tun.burst with
  | none => s
  | some b =>
    if b.phase = 2 then
      let at' := stampNat s.stamp
      let ran := min b.len (at' - b.rise b.done)
      (s.burstFall at').burstEnd { b with ran := b.ran + ran } c
    else s.burstEnd b c

/-- The gate has changed between two states: its edge is noted, a stopped repetition ends (R233,
R239). -/
def State.tunGate (s old : State) : State :=
  if old.quietGate = s.quietGate then s
  else if s.quietGate then
    let s := s.setTun fun x => { x with gateAt := s.ticks, gateFrom := s.ticks }
    match s.tun.burst with
    | some b => if b.phase = 2 then s.burstCut .part else s
    | none => s
  else s.countGated.setTun fun x => { x with gateAt := s.ticks }

/-- The gated ticks of the closed cycle are shown (Table 9-8). -/
def State.tunBoundary (s : State) : State :=
  let s := if s.quietGate then s.countGated else s
  (s.wr TUN_GATECT (satNat 16 s.tun.gateCt)).setTun fun x => { x with gateCt := 0 }

/-- A burst is submitted (R238). -/
def State.burstArm (s : State) : Status × State :=
  if s.on TUN_BST_BUSY then (.refusedPriority, s)
  else
    let clm := s.rd TUN_BST_CLM
    let rep := s.rd TUN_BST_REP
    let len := s.rd TUN_BST_LEN
    let b : Burst := {
      clm := clm, rep := rep, len := len, gap := s.rd TUN_BST_GAP,
      start := s.rd64 TUN_BST_AT_LO TUN_BST_AT_HI, lead := s.rd TUN_BST_LEAD,
      cost := 4 * (bitsSet clm 8).length * ceilDiv (rep * len) 1024 }
    if 2 ≤ s.level then (.ok, s.burstEnd b .skipped)
    else
      match s.takeQuota 1 0 b.cost with
      | none => (.ok, (s.outcome 0 resInf .refusedQuota 0).burstEnd b .refusedQuota)
      | some t =>
        if b.start < stampNat s.stamp + b.lead + 64 then (.ok, s.burstEnd b .timeout)
        else (.ok, (t.wr TUN_BST_BUSY 1).setTun fun x => { x with burst := some b })

/-- The cluster drains or runs a burst (R239). -/
def State.drains (s : State) (k : Nat) : Bool :=
  match s.tun.burst with
  | some b => b.phase != 0 && bit b.clm k
  | none => false

/-! ## Resident regions -/

/-- The resident region of cluster `k` becomes invalid (R224). -/
def State.invalidate (s : State) (k : Nat) : State :=
  let v := s.rd TUN_RESV
  let s := if bit v k then (s.wr TUN_RESV (clearBit v k)).raise (0x081 + k) 1 else s
  s.setTun fun x => { x with resClr := x.resClr.erase k }

/-- A tile runs on an engine of cluster `k`. -/
def State.clusterBusy (s : State) (k : Nat) : Bool := s.tun.run.any fun e => e.1 / 4 == k

/-- A write of 1 to TUN_CK_RESCLR: at the next tile boundary, at once where no tile runs (R224). -/
def State.resClear (s : State) (k : Nat) : State :=
  if s.clusterBusy k then s.setTun fun x => { x with resClr := k :: x.resClr.erase k }
  else s.invalidate k

/-! ## Levels -/

/-- A level or divisor that degrades every running tile (R237, R241). -/
def State.degradeRunning (s : State) : State :=
  s.setTun fun x => { x with run := x.run.map fun e => (e.1, { e.2 with deg := true }) }

/-- Entry into D2 or below: the burst ends, entries not started complete with SKIPPED, resident
regions become invalid and lose their contents (R224, R235, R239). -/
def State.tunEnterD2 (s : State) : State :=
  let s := s.burstCut .skipped
  let gone := s.tun.staged.map (·.2) ++ s.tun.sparge
  let s := (s.setSparge []).setTun fun x => { x with staged := [] }
  let s := gone.foldl (fun s e => s.endEntry e .skipped) s
  let s := (List.range 8).foldl State.invalidate s
  { s with mem := s.mem.filter fun c => (residentOf c.1).isNone }

/-- Return to D1 or D0: an empty list, counters at zero and unpoisoned (R235). -/
def State.tunReturn (s : State) : State :=
  s.clearRegs 0x080 fun o => 0x100 ≤ o && o < 0x300

/-! ## Register access -/

/-- Writes of pages 0x080 to 0x088 (R224, R238, R243). -/
def tunWrite : Writer := fun s q d =>
  let note (r : Status × State) : Status × State := (r.1, r.2.wr TUN_BST_CCODE (codeOf r.1))
  if q.page ≠ 0x080 then
    if q.off = 0x05C then (.ok, if bit d 0 then s.resClear (q.page - 0x081) else s)
    else plainWrite s q d
  else
    match q.off with
    | 0x060 =>
      let l := bits d 8 5
      note (if l = 0 ∨ 16 < l then (.cfgInvalid, s)
        else if bits d 16 8 = 0 then (.zeroLen, s) else plainWrite s q d)
    | 0x064 => note (if bits d 0 16 = 0 then (.zeroLen, s) else plainWrite s q d)
    | 0x070 => storeIf (decide (64 ≤ bits d 0 12)) s q d
    | 0x074 => if bit d 0 then s.burstArm else (.ok, s)
    | _ =>
      if 0x800 ≤ q.off ∧ q.off % 8 = 4 ∧ bits d 0 28 = 0 then (.zeroLen, s) else plainWrite s q d

/-- Reads of pages 0x080 to 0x088: the status words are computed (Tables 9-8, 9-10). -/
def tunRead : Reader := fun s q =>
  if q.page = 0x080 then
    match q.off with
    | 0x044 =>
      (.ok, putBits (putBits (s.reg 0x080 0x044) 12 1 (b2n s.quietGate)) 13 2 (min 2 s.level), s)
    | 0x048 => (.ok, s.tun.sparge.length, s)
    | _ => plainRead s q
  else if q.off = 0x040 then
    let k := q.page - 0x081
    let mask (l : List Nat) : Nat := (List.range 4).foldl (fun a j =>
      if l.contains (4 * k + j) then a + 2 ^ j else a) 0
    (.ok, mask (s.tun.run.map (·.1)) + mask (s.tun.staged.map (·.1)) * 2 ^ 4
      + b2n (s.clusterGated k) * 2 ^ 8 + b2n (bit (s.rd TUN_RESV) k) * 2 ^ 9, s)
  else plainRead s q

/-! ## Commands -/

/-- A checked entry starts on engine `e` (R228). -/
def State.startTile (s : State) (e : Nat) (x : SpEntry) : State :=
  s.setTun fun t => { t with
    run := cellInsert e ⟨x, s.level, decide (1 < s.rd TUN_THDIV)⟩ t.run }

/-- Engine `e` takes an entry: it is checked, and starts or is staged (R226, R227). -/
def State.takeEntry (s : State) (e : Nat) (x : SpEntry) : State :=
  let k := e / 4
  let w := x.word.toNat
  let alt := runsAlt4 w s.level
  let s := s.setSparge (s.tun.sparge.erase x)
  match s.entryStop k w alt with
  | some c => ((s.logStop k w alt c).endEntry x c).settleSignals 1024
  | none =>
    if s.tun.run.any (·.1 == e) then
      s.setTun fun t => { t with staged := cellInsert e x t.staged }
    else s.startTile e x

/-- ENTRY_PULL (R227): an ungated engine without a staged entry takes the oldest eligible one. -/
def execEntryPull (engine : Fin 32) (s : State) : Result :=
  let e := engine.val
  .next (
    if s.pageRuns 0x080 = false ∨ s.clusterGated (e / 4) = true ∨ s.drains (e / 4) = true
        ∨ s.tun.staged.any (·.1 == e) = true then s
    else
      let s := s.expireEntries.settleSignals 1024
      match s.tun.sparge.find? fun x => spOp x.word.toNat != 3 && s.eligible (e / 4) x with
      | some x => s.takeEntry e x
      | none => s)

/-- The rows of the operands of a tile on cluster `k`. -/
def State.tileIn (s : State) (k w : Nat) (alt : Bool) : TileIn :=
  let m := 16 * spMb w
  let n := 16 * spNb w
  let row (a len : Nat) := s.bytes (resolve k a) len
  { a := (List.range m).map fun i => row (spA w + i * spAstr w) (elemBytes (spFmt w) (spK w)),
    b := (List.range n).map fun j =>
      row (bAddr w alt + j * bStride w alt) (elemBytes (bFmt w alt) (spK w)),
    c := if spAcc w then (List.range m).map fun i => row (spC w + i * spCstr w) (4 * n) else [],
    bias := if spBias w then row (spBadr w) (4 * n) else [] }

/-- The result of an entry on cluster `k` is written; whether saturation changed an element (R220,
R224). -/
def State.runEntry (s : State) (k w : Nat) (alt : Bool) : State × Bool :=
  if spOp w = 2 then
    let t := s.store (resolve k (spC w)) (s.bytes (resolve k (spA w)) (64 * spClen w))
    let t := match residentOf (resolve k (spC w)) with
      | some r => t.wr TUN_RESV (setBit (t.rd TUN_RESV) r)
      | none => t
    (t, false)
  else
    let r := tileRows w alt (s.tileIn k w alt)
    ((r.1.zip (List.range r.1.length)).foldl (fun s x =>
      s.store (resolve k (spC w + x.2 * spCstr w)) x.1) s, r.2)

/-- A staged entry of engine `e` starts where its windows still permit it (R223, R228). -/
def State.startStaged (s : State) (e : Nat) : State :=
  match s.tun.staged.find? (·.1 == e) with
  | none => s
  | some (_, x) =>
    let k := e / 4
    let w := x.word.toNat
    let alt := runsAlt4 w s.level
    let s := s.setTun fun t => { t with staged := cellErase e t.staged }
    match s.firstDenied (some k) (spTc w) (entrySpans w alt) with
    | some _ => ((s.logStop k w alt .notOwner).endEntry x .notOwner).settleSignals 1024
    | none => if s.readsInvalid k w alt then s.endEntry x .skipped else s.startTile e x

/-- An uncorrectable word read by a tile of cluster `k` (R221). -/
def State.tileUnc (s : State) (k w a : Nat) : State :=
  let s := (s.count (TUN_CK_UNCN k)).raise (0x081 + k) 0
  (s.wr64 (TUN_CK_EA_LO k) (TUN_CK_EA_HI k) (a % 2 ^ 40)).log 0x7001 (spTc w) (k + a % 2 ^ 40 * 2 ^ 8)

/-- TILE_COMPLETE (R220, R221, R232): the tile on an engine ends after `ticks` ungated ticks, having
met corrected words and at most one uncorrectable word. -/
def execTileComplete (engine : Fin 32) (ticks : BitVec 32) (corrected : Nat)
    (unc : Option (BitVec 40)) (s : State) : Result :=
  let e := engine.val
  let k := e / 4
  .next (match s.tun.run.find? (·.1 == e) with
    | none => s
    | some (_, x) =>
      if s.clusterGated k then s
      else
        let w := x.entry.word.toNat
        let alt := runsAlt4 w x.level
        let s := s.setTun fun t => { t with run := cellErase e t.run }
        let s := s.count (TUN_CK_CORRN k) corrected
        let r := match unc with
          | some a => (s.tileUnc k w a.toNat, false)
          | none => s.runEntry k w alt
        let s := r.1
        let soft := if x.deg || x.level != 0 || s.level != 0 then firstOf .degraded s.okOr else s.okOr
        let c := if unc.isSome then .integFail else soft
        let s := (s.count (TUN_CK_TILEN k)).count (TUN_CK_BUSYCT k) ticks.toNat
        let s := (s.countTile c).signal (spScnt w) c
        let s := s.report x.entry.src c r.2 true ticks.toNat
        let s := if s.tun.resClr.contains k then s.invalidate k else s
        (if s.level ≤ 1 then s.startStaged e else s).settleSignals 1024)

/-- TILE_DEADLINE (R229): entries not started by phase 0 of their deadline cycle complete with
TIMEOUT. -/
def execTileDeadline (s : State) : Result := .next (s.expireEntries.settleSignals 1024)

/-- TUN_CK_RESCLR (R224): a write of 1 to TUN_CK_RESCLR of a cluster. -/
def execTunCkResclr (cluster : Fin 8) (w : RegWrite) (s : State) : Result :=
  .next (s.writeReg tunWrite (0x081 + cluster.val) 0x05C w (setBit · 0))

/-- TUN_BST_ARM (R238): a write of 1 to TUN_BST_ARM. -/
def execTunBstArm (w : RegWrite) (s : State) : Result :=
  .next (s.writeReg tunWrite 0x080 0x074 w (setBit · 0))

/-- BURST_DRAIN (R239): the named clusters of an armed burst stop taking entries. -/
def execBurstDrain (s : State) : Result :=
  .next (match s.tun.burst with
    | some b => if b.phase = 0 then s.setTun fun x => { x with burst := some { b with phase := 1 } } else s
    | none => s)

/-- BURST_REP_START (R239, R240): the next repetition begins, the first only on idle engines. -/
def execBurstRepStart (s : State) : Result :=
  .next (match s.tun.burst with
    | some b =>
      if b.phase ≠ 1 then s
      else if b.done = 0 ∧ (List.range 8).any (fun k => bit b.clm k && s.clusterBusy k) = true then
        s.burstEnd b .timeout
      else if s.quietGate then s.burstEnd b .part
      else
        let n := b.done + 1
        let at' := b.rise n
        let s := if n = 1 then s.wr64 TUN_BF_LO TUN_BF_HI at' else s
        s.setTun fun x => { x with
          edges := x.edges ++ [(true, at')],
          burst := some { b with phase := 2, done := n, held := b.held || (n == 1 && s.estimated) } }
    | none => s)

/-- BURST_REP_END (R239, R240): the repetition in progress ends; after the last the burst completes. -/
def execBurstRepEnd (s : State) : Result :=
  .next (match s.tun.burst with
    | some b =>
      if b.phase ≠ 2 then s
      else
        let s := s.burstFall (b.rise b.done + b.len)
        let b := { b with ran := b.ran + b.len, phase := 1 }
        if b.rep ≤ b.done then s.burstEnd b (if b.held then .holdover else .ok)
        else s.setTun fun x => { x with burst := some b }
    | none => s)

end Sys2Proof.Machine
end

