-- ==== Sys2Proof/Machine/Ltr.lean ====
section
/-! DEFINITION. The Lauter router (chapter 10): route and expert descriptors with their checks, gating, the
Grist sort, gather, combine, the weight table, and the outcomes of its operations. -/

namespace Sys2Proof.Machine

open Reg

/-- The state with what the router holds changed. -/
def State.setLtr (s : State) (f : LtrState → LtrState) : State := { s with ltr := f s.ltr }

/-! ## Descriptors -/

/-- The fields of a route descriptor (Table 10-1), of a descriptor as a number. -/
def rdT (w : Nat) : Nat := bits w 0 13
def rdH (w : Nat) : Nat := bits w 16 11
def rdNe (w : Nat) : Nat := bits w 32 7
def rdK (w : Nat) : Nat := bits w 40 2
def rdXfmt (w : Nat) : Nat := bits w 42 2
def rdMode (w : Nat) : Nat := bits w 44 1
def rdCmb (w : Nat) : Bool := bit w 45
def rdResen (w : Nat) : Bool := bit w 46
def rdDshift (w : Nat) : Nat := bits w 48 5
def rdLog (w : Nat) : Nat := bits w 64 40
def rdX (w : Nat) : Nat := bits w 104 40
def rdTrr (w : Nat) : Nat := bits w 144 40
def rdDtab (w : Nat) : Nat := bits w 184 40
def rdY (w : Nat) : Nat := bits w 224 40
def rdResid (w : Nat) : Nat := bits w 264 40
def rdEdt (w : Nat) : Nat := bits w 304 40
def rdLstr (w : Nat) : Nat := bits w 344 16
def rdXstr (w : Nat) : Nat := bits w 360 16
def rdYstr (w : Nat) : Nat := bits w 376 16
def rdRstr (w : Nat) : Nat := bits w 392 16

/-- The fields of an expert descriptor (Table 10-2). -/
def edCap (w : Nat) : Nat := bits w 0 13
def edHome (w : Nat) : Nat := bits w 16 3
def edDbuf (w : Nat) : Nat := bits w 32 40
def edObuf (w : Nat) : Nat := bits w 72 40
def edDstr (w : Nat) : Nat := bits w 112 16
def edOstr (w : Nat) : Nat := bits w 128 16

/-- A 32-byte record passes its CRC over bytes 0 to 27 (R85). -/
def crcOk32 (w : Nat) : Bool := bits w 224 32 == crc32 (leBytes 28 w)

/-- A 32-byte record with its CRC put in. -/
def withCrc32 (w : Nat) : Nat := w % 2 ^ 224 + crc32 (leBytes 28 w) * 2 ^ 224

/-- The number in `n` bytes of inference memory. -/
def State.memNat (s : State) (a n : Nat) : Nat := leNat (s.bytes a n)

/-- The expert descriptors of a route (R246). -/
def State.experts (s : State) (d : Nat) : List Nat :=
  (List.range (rdNe d)).map fun e => s.memNat (rdEdt d + 32 * e) 32

/-- The row bound of an expert. -/
def rowBound (mode cap : Nat) : Nat :=
  if cap = 0 then 0 else if mode = 0 then 16 * ceilDiv cap 16 else 16 * ((cap + 120) / 16)

/-- Bytes of an activation row. -/
def xBytes (d : Nat) : Nat := if rdXfmt d = 1 then rdH d / 2 else rdH d

/-- The regions of an operation, row by row (R247). -/
def routerSpans (combine : Bool) (d : Nat) (eds : List Nat) : List Span :=
  let t := rdT d
  let h4 := 4 * rdH d
  let bound (e : Nat) := rowBound (rdMode d) (edCap e)
  if combine then
    [⟨rdTrr d, 32 * t, false⟩]
      ++ eds.flatMap (fun e => rowSpans (edObuf e) (edOstr e) (bound e) h4 false)
      ++ (if rdResen d then rowSpans (rdResid d) (rdRstr d) t h4 false else [])
      ++ rowSpans (rdY d) (rdYstr d) t h4 true
  else
    rowSpans (rdLog d) (rdLstr d) t (4 * rdNe d) false
      ++ rowSpans (rdX d) (rdXstr d) t (xBytes d) false
      ++ [⟨rdTrr d, 32 * t, true⟩, ⟨rdDtab d, 66 * 64, true⟩]
      ++ eds.flatMap (fun e => rowSpans (edDbuf e) (edDstr e) (bound e) (xBytes d) true)

/-- The memory that the router reaches: shared SRAM and LPDDR4X (R244). -/
def State.routerMapped (s : State) (x : Span) : Bool :=
  s.mapped x.addr x.len && (residentOf x.addr).isNone

/-- Check 3 of R247. -/
def State.routerBad (s : State) (combine : Bool) (d : Nat) (eds : List Nat) : Bool :=
  let h4 := 4 * rdH d
  decide (4096 < rdT d) || decide (1024 < rdH d) || decide (64 < rdNe d) || rdK d == 3
    || decide (1 < rdXfmt d) || decide (rdNe d < rdK d) || (rdXfmt d == 1 && rdH d % 2 == 1)
    || eds.any (fun e => decide (4096 < edCap e) || edDbuf e % 16 != 0 || edObuf e % 16 != 0
        || edDstr e % 16 != 0 || edOstr e % 16 != 0 || decide (edDstr e < xBytes d)
        || decide (edOstr e < h4))
    || [rdLog d, rdX d, rdTrr d, rdDtab d, rdY d, rdResid d, rdEdt d].any (· % 16 != 0)
    || [rdLstr d, rdXstr d, rdYstr d, rdRstr d].any (· % 16 != 0)
    || decide (rdLstr d < 4 * rdNe d) || decide (rdXstr d < xBytes d) || decide (rdYstr d < h4)
    || (rdResen d && decide (rdRstr d < h4)) || (combine && !rdCmb d)
    || (routerSpans combine d eds).any fun x => !s.routerMapped x

/-- The outcome of the checks of R247: none where the operation may run. -/
def State.routerStop (s : State) (op : RouterOp) (d : Nat) (eds : List Nat) (checkUnc : Bool) :
    Option Status :=
  if !s.mapped op.desc 64 then some .cfgInvalid
  else if checkUnc || !crcOk64 d || eds.any (fun e => !crcOk32 e) then some .integFail
  else if (s.firstDenied none op.tc (routerSpans op.combine d eds)).isSome then some .notOwner
  else if s.routerBad op.combine d eds then some .cfgInvalid
  else if rdT d = 0 ∨ rdH d = 0 ∨ rdNe d = 0 ∨ rdK d = 0 then some .zeroLen
  else none

/-! ## Gating (R248) -/

/-- The lowest index of the largest value, skipping an index. -/
def argMax (skip : Option Nat) (l : List Int) : Nat :=
  ((l.zip (List.range l.length)).foldl (fun (b : Option (Int × Nat)) x =>
    if some x.2 = skip then b
    else match b with
      | none => some x
      | some y => if y.1 < x.1 then some x else b) none).elim 0 (·.2)

/-- What gating decides for a token. -/
structure Gate where
  e0   : Nat
  e1   : Nat
  w0   : Nat
  w1   : Nat
  tie0 : Bool
  tie1 : Bool
  deriving DecidableEq, Repr

/-- Gating of one token (R248). -/
def gateToken (k dshift : Nat) (wtab : Nat → Nat) (l : List Int) : Gate :=
  let v (e : Nat) := l.getD e 0
  let e0 := argMax none l
  let other (e : Nat) (skip : List Nat) := (List.range l.length).any fun i =>
    !skip.contains i && v i == v e
  if k = 1 then ⟨e0, 0, 0x8000, 0, other e0 [e0], false⟩
  else
    let e1 := argMax (some e0) l
    let d := min 255 ((v e0 - v e1).toNat / 2 ^ dshift)
    let w0 := wtab d
    ⟨e0, e1, w0, 0x8000 - w0, other e0 [e0], other e1 [e0, e1]⟩

/-- The weight table: the active bank (R249). -/
def State.weight (s : State) (i : Nat) : Nat :=
  let off := 0x400 + 4 * (i / 2)
  let w := (cellAt (RegMap.resetWord 0x090 off) off s.ltr.active).toNat
  if i % 2 = 0 then w % 65536 else w / 65536

/-! ## The Grist sort (R250) -/

/-- The running counters of the Grist unit. -/
structure Grist where
  req  : List Nat
  acc  : List Nat
  /-- accepted choices by expert and shard: index 8 e + s -/
  cnt  : List Nat
  /-- the slots of the choices so far, newest first: token, choice, expert, slot -/
  took : List (Nat × Nat × Nat × Option Nat)
  deriving DecidableEq, Repr

/-- One choice of the loop of R250. -/
def Grist.choice (g : Grist) (caps : List Nat) (shard t j e : Nat) : Grist :=
  let req := g.req.set e (g.req.getD e 0 + 1)
  let a := g.acc.getD e 0
  if a < caps.getD e 0 then
    { req := req, acc := g.acc.set e (a + 1),
      cnt := g.cnt.set (8 * e + shard) (g.cnt.getD (8 * e + shard) 0 + 1),
      took := (t, j, e, some a) :: g.took }
  else { g with req := req, took := (t, j, e, none) :: g.took }

/-- The whole sort of R250. -/
def grist (k tokens : Nat) (caps : List Nat) (gates : List Gate) : Grist :=
  let ne := caps.length
  let size := ceilDiv tokens 8
  (gates.zip (List.range tokens)).foldl (fun g x =>
      let t := x.2
      let sh := t / size
      let g := g.choice caps sh t 0 x.1.e0
      if k = 2 then g.choice caps sh t 1 x.1.e1 else g)
    ⟨List.replicate ne 0, List.replicate ne 0, List.replicate (8 * ne) 0, []⟩

/-- The slot of a choice. -/
def Grist.slot (g : Grist) (t j : Nat) : Option Nat :=
  (g.took.find? fun x => x.1 == t && x.2.1 == j).bind (·.2.2.2)

/-- Accepted choices of expert `e` in shard `sh`. -/
def Grist.count (g : Grist) (e sh : Nat) : Nat := g.cnt.getD (8 * e + sh) 0

/-- The first dispatch row of a shard in mode 1 (R256). -/
def Grist.first (g : Grist) (e sh : Nat) : Nat :=
  (List.range sh).foldl (fun a i => a + 16 * ceilDiv (g.count e i) 16) 0

/-- The dispatch row of a slot of expert `e` (R256). -/
def Grist.row (g : Grist) (mode size e slot t : Nat) : Nat :=
  if mode = 0 then slot
  else
    let sh := t / size
    let before := (List.range sh).foldl (fun a i => a + g.count e i) 0
    g.first e sh + (slot - before)

/-- LTR_DT_ROWS of an expert (R256). -/
def Grist.rows (g : Grist) (mode e : Nat) : Nat :=
  if mode = 0 then 16 * ceilDiv (g.acc.getD e 0) 16 else g.first e 8

/-! ## Records -/

/-- The status of a token (R252). -/
def tokenStatus (k : Nat) (s0 s1 : Option Nat) : Status :=
  if k = 1 then (if s0.isNone then .skipped else .ok)
  else if s0.isNone && s1.isNone then .skipped
  else if s0.isNone || s1.isNone then .part else .ok

/-- A token route record (Table 10-3). -/
def tokenRecord (d : Nat) (g : Grist) (t : Nat) (x : Gate) : Nat :=
  let k := rdK d
  let size := ceilDiv (rdT d) 8
  let s0 := g.slot t 0
  let s1 := if k = 2 then g.slot t 1 else none
  let row (e : Nat) (s : Option Nat) := match s with
    | some n => g.row (rdMode d) size e n t
    | none => 0xFFFF
  withCrc32 (t + x.e0 * 2 ^ 16 + x.e1 * 2 ^ 24 + k * 2 ^ 30 + s0.getD 0xFFFF * 2 ^ 32
    + s1.getD 0xFFFF * 2 ^ 48 + row x.e0 s0 * 2 ^ 64 + row x.e1 s1 * 2 ^ 80 + x.w0 * 2 ^ 96
    + x.w1 * 2 ^ 112 + codeOf (tokenStatus k s0 s1) * 2 ^ 128 + b2n x.tie0 * 2 ^ 136
    + b2n x.tie1 * 2 ^ 137)

/-- A dispatch table entry (Table 10-4). -/
def dispatchEntry (d : Nat) (g : Grist) (e ed : Nat) : Nat :=
  let req := g.req.getD e 0
  let acc := g.acc.getD e 0
  let shards := (List.range 8).foldl (fun a i =>
    let rs := if rdMode d = 0 then 0 else g.first e i
    let cn := if rdMode d = 0 then (if i = 0 then acc else 0) else g.count e i
    a + (rs % 65536 + cn * 65536) * 2 ^ (64 + 32 * i)) 0
  withCrc64 (req + acc * 2 ^ 16 + (req - acc) * 2 ^ 32 + edHome ed * 2 ^ 48 + shards
    + g.rows (rdMode d) e * 2 ^ 320)

/-- The choices skipped for capacity. -/
def Grist.skipped (g : Grist) : Nat := (g.took.filter fun x => x.2.2.2.isNone).length

/-- The route summary, entry 64 (Table 10-5). -/
def routeSummary (d : Nat) (g : Grist) (c : Status) (stamp ns : Nat) : Nat :=
  let k := rdK d
  let st (t : Nat) := tokenStatus k (g.slot t 0) (if k = 2 then g.slot t 1 else none)
  let n (c : Status) := ((List.range (rdT d)).filter fun t => st t == c).length
  let ch := rdT d * k
  withCrc64 (rdT d + ch * 2 ^ 16 + (ch - g.skipped) * 2 ^ 32 + g.skipped * 2 ^ 48
    + n .skipped * 2 ^ 64 + n .part * 2 ^ 80 + codeOf c * 2 ^ 96 + rdMode d * 2 ^ 104
    + stamp * 2 ^ 128 + ns * 2 ^ 192)

/-! ## Outcomes -/

/-- An operation completes with a code: its counter, the page, and the report to the list (R230, R261,
Table 10-7). -/
def State.routerDone (s : State) (op : RouterOp) (c : Status) (skc : Nat) : State :=
  let s := s.signal op.scnt c
  let s :=
    if c = .zeroLen then s
    else
      let s := (s.count LTR_OPN).raise 0x090 (if op.combine then 1 else 0)
      if c = .integFail ∨ c = .notOwner ∨ c = .cfgInvalid then (s.count LTR_ERRN).raise 0x090 2
      else if c = .skipped ∨ c = .timeout then s.count LTR_SKPN
      else s
  let usable := !op.combine && (cleanCode c || (c == .skipped && skc != 0))
  (s.entryDone op.src.1 op.src.2 c).setList op.src.1 fun l => { l with
    skc := l.skc + skc, routes := if usable then op.src.2 :: l.routes else l.routes }

/-- What a failed check logs (R247). -/
def State.routerLog (s : State) (op : RouterOp) (d : Nat) (eds : List Nat) (c : Status) : State :=
  if c = .integFail then s.log 0x7005 op.tc op.item
  else if c = .notOwner then
    match s.firstDenied none op.tc (routerSpans op.combine d eds) with
    | some x => s.windowFault op.tc 5 x
    | none => s
  else s

/-- The first `n` writes of an operation, or all of them. -/
def State.applyWrites (s : State) (l : List (Nat × List Byte)) (n : Option Nat) : State :=
  let w := match n with
    | some n => l.take n
    | none => l
  w.foldl (fun s x => s.store x.1 x.2) s

/-- An uncorrectable word ends an operation (R262). -/
def State.routerUnc (s : State) (op : RouterOp) (a : Nat) : State :=
  s.log 0x7002 op.tc (a % 2 ^ 40 * 2 ^ 8)

/-! ## ROUTE -/

/-- A row of int32 values. -/
def State.intRowAt (s : State) (a n : Nat) : List Int := (wordRow (s.bytes a (4 * n))).map (signed 32)

/-- The rows gathered into dispatch buffers, experts and rows ascending (R256). -/
def State.gather (s : State) (d : Nat) (g : Grist) (eds : List Nat) : List (Nat × List Byte) :=
  let size := ceilDiv (rdT d) 8
  let n := xBytes d
  (eds.zip (List.range eds.length)).flatMap fun x =>
    let e := x.2
    let took := g.took.filterMap fun c =>
      if c.2.2.1 = e then c.2.2.2.map fun sl => (g.row (rdMode d) size e sl c.1, c.1) else none
    (List.range (g.rows (rdMode d) e)).map fun r =>
      (edDbuf x.1 + r * edDstr x.1,
        match took.find? (·.1 == r) with
        | some (_, t) => s.bytes (rdX d + t * rdXstr d) n
        | none => List.replicate n 0)

/-- The counts of choices skipped for capacity (R253). -/
def State.countSkips (s : State) (op : RouterOp) (g : Grist) : State :=
  let n := g.skipped
  if n = 0 then s
  else
    let s := (g.took.filter fun c => c.2.2.2.isNone).foldl (fun s c =>
      (s.count (LTR_OVF c.2.2.1)).outcome op.tc resInf .skipped op.item) s
    (s.count (LTR_TSKIP op.tc) n).raise 0x090 3

/-- A ROUTE that has passed its checks (R248 to R256). `ns`: the time that the Grist unit took, at
most 12 µs (R251). -/
def State.runRoute (s : State) (op : RouterOp) (d : Nat) (eds : List Nat) (ns : Nat)
    (unc : Option (Nat × BitVec 40)) : State :=
  let k := rdK d
  let gates := (List.range (rdT d)).map fun t =>
    gateToken k (rdDshift d) s.weight (s.intRowAt (rdLog d + t * rdLstr d) (rdNe d))
  let g := grist k (rdT d) (eds.map edCap) gates
  let recs := (gates.zip (List.range (rdT d))).map fun x =>
    (rdTrr d + 32 * x.2, leBytes 32 (tokenRecord d g x.2 x.1))
  let table := (eds.zip (List.range eds.length)).map fun x =>
    (rdDtab d + 64 * x.2, leBytes 64 (dispatchEntry d g x.2 x.1))
  let ns := min ns 12000
  let c : Status := match unc with
    | some _ => .integFail
    | none => if g.skipped = 0 then s.okOr else firstOf .skipped s.okOr
  let sum := routeSummary d g c (stampNat s.stamp) ns
  let s := s.applyWrites (recs ++ table ++ s.gather d g eds) (unc.map (·.1))
  let s := s.store (rdDtab d + 64 * 64) (leBytes 64 sum)
  match unc with
  | some (_, a) => (s.routerUnc op a.toNat).routerDone op c 0
  | none =>
    let s := (s.wr LTR_GNS ns).wr LTR_GMAX (max (s.rd LTR_GMAX) ns)
    (s.countSkips op g).routerDone op c g.skipped

/-! ## COMBINE -/

/-- The accepted choices of a token route record in ascending expert index: expert, row, weight
(R257). -/
def accepted (w : Nat) : List (Nat × Nat × Nat) :=
  let a := (bits w 16 6, bits w 64 16, bits w 96 16)
  let b := (bits w 24 6, bits w 80 16, bits w 112 16)
  let l := (if bits w 32 16 = 0xFFFF then [] else [a])
    ++ (if bits w 30 2 = 2 ∧ bits w 48 16 ≠ 0xFFFF then [b] else [])
  match l with
  | [x, y] => if y.1 < x.1 then [y, x] else [x, y]
  | l => l

/-- One element of a combined row and whether a saturation changed it (R257, R258). -/
def combineElem (a : Int) (l : List (Int × Nat)) : Int × Bool :=
  l.foldl (fun (x : Int × Bool) c =>
    let q := divRound (c.1 * c.2) 32768
    let q' := satSigned 32 q
    let t := x.1 + q'
    (satSigned 32 t, x.2 || q' != q || satSigned 32 t != t)) (a, false)

/-- A combined row and the elements saturated in it (R257). -/
def State.combineRow (s : State) (d : Nat) (eds : List Nat) (t : Nat) : List Byte × Nat :=
  let h := rdH d
  let res := if rdResen d then s.intRowAt (rdResid d + t * rdRstr d) h else List.replicate h 0
  let outs := (accepted (s.memNat (rdTrr d + 32 * t) 32)).map fun c =>
    let ed := eds.getD c.1 0
    (s.intRowAt (edObuf ed + c.2.1 * edOstr ed) h, c.2.2)
  let row := (List.range h).map fun i =>
    combineElem (res.getD i 0) (outs.map fun o => (o.1.getD i 0, o.2))
  (row.flatMap fun x => leBytes 4 (unsigned 32 x.1), (row.filter (·.2)).length)

/-- A COMBINE that has passed its checks (R257, R258). -/
def State.runCombine (s : State) (op : RouterOp) (d : Nat) (eds : List Nat)
    (unc : Option (Nat × BitVec 40)) : State :=
  let rows := (List.range (rdT d)).map fun t => (t, s.combineRow d eds t)
  let sat := satNat 32 (rows.foldl (fun a r => a + r.2.2) 0)
  let c : Status := if unc.isSome then .integFail else s.okOr
  let sum := withCrc64 (codeOf c * 2 ^ 96 + rdMode d * 2 ^ 104 + stampNat s.stamp * 2 ^ 128
    + sat * 2 ^ 192)
  let s := s.applyWrites (rows.map fun r => (rdY d + r.1 * rdYstr d, r.2.1)) (unc.map (·.1))
  let s := s.store (rdDtab d + 64 * 65) (leBytes 64 sum)
  match unc with
  | some (_, a) => (s.routerUnc op a.toNat).routerDone op c 0
  | none => s.routerDone op c 0

/-! ## Taking operations -/

/-- Operations not started by phase 0 of their deadline cycle complete with TIMEOUT (R259). -/
def State.expireOps (s : State) : State :=
  let late (o : RouterOp) := deadlinePassed s.stamp.cyc o.dlc
  let gone := s.ltr.ops.filter late
  gone.foldl (fun s o => s.routerDone o .timeout 0)
    (s.setLtr fun x => { x with ops := x.ops.filter fun o => !late o })

/-- The oldest eligible operation is taken where it is of the kind asked for (R244, R260). -/
def State.takeOp (s : State) (combine : Bool) (ns : Nat) (checkUnc : Bool)
    (unc : Option (Nat × BitVec 40)) : State :=
  let s := s.expireOps
  match s.ltr.ops.find? fun o => s.waitMet o.wcnt o.wval with
  | none => s
  | some op =>
    if op.combine ≠ combine then s
    else
      let s := s.setLtr fun x => { x with ops := x.ops.erase op }
      if s.on LTR_EN = false ∨ s.pageRuns 0x090 = false then s.routerDone op .skipped 0
      else
        let d := s.memNat op.desc 64
        let eds := s.experts d
        match s.routerStop op d eds checkUnc with
        | some c => (s.routerLog op d eds c).routerDone op c 0
        | none =>
          if s.waitPoisoned op.wcnt then s.routerDone op .skipped 0
          else if combine then s.runCombine op d eds unc
          else s.runRoute op d eds ns unc

/-- Entry into D2 or below: every operation that waits completes with SKIPPED (R260). -/
def State.ltrEnterD2 (s : State) : State :=
  s.ltr.ops.foldl (fun s o => s.routerDone o .skipped 0) (s.setLtr fun x => { x with ops := [] })

/-! ## Register access -/

/-- A commit of the shadow weight table (R249): the banks change places. -/
def State.weightCommit (s : State) : Status × State :=
  let w (i : Nat) := s.rd (if i % 2 = 0 then LTR_W_EVEN (i / 2) else LTR_W_ODD (i / 2))
  let ok := (List.range 256).all fun i =>
    decide (0x4000 ≤ w i) && decide (w i ≤ 0x8000) && (i == 0 || decide (w (i - 1) ≤ w i))
  let s := s.raise 0x090 4
  if ok then
    let words := (List.range 128).map fun i => (0x400 + 4 * i, s.reg 0x090 (0x400 + 4 * i))
    let old := s.ltr.active
    let new := words.foldl (fun l x =>
      cellPut (RegMap.resetWord 0x090 x.1) x.1 (BitVec.ofNat 32 x.2) l) []
    let s := words.foldl (fun s x =>
      s.setReg 0x090 x.1 (cellAt (RegMap.resetWord 0x090 x.1) x.1 old).toNat) s
    (.ok, (s.setLtr fun x => { x with active := new }).wr LTR_WBANK (1 - s.rd LTR_WBANK))
  else (.cfgInvalid, s)

/-- Writes of page 0x090, with their code in LTR_CFGSTS (R249, R266). -/
def ltrWrite : Writer := fun s q d =>
  let r : Status × State :=
    if q.off = 0x058 then
      let s := s.storeWord q.page q.off d
      if bit d 0 then s.weightCommit else (.ok, s)
    else plainWrite s q d
  (r.1, r.2.wr LTR_CCODE (codeOf r.1))

/-- Reads of page 0x090: LTR_WVIEW selects the bank shown (R249). -/
def ltrRead : Reader := fun s q =>
  if 0x400 ≤ q.off ∧ q.off < 0x600 ∧ s.on LTR_WVIEW = true then
    (.ok, (cellAt (RegMap.resetWord 0x090 q.off) q.off s.ltr.active).toNat, s)
  else plainRead s q

/-! ## Commands -/

/-- ROUTE (R248): the router takes the oldest eligible operation, a ROUTE. `ns`: the time of the Grist
unit; `checkUnc`: a word read in the checks is uncorrectable; `unc`: an uncorrectable word met after
a number of writes, with its address. -/
def execRouteOp (ns : BitVec 32) (checkUnc : Bool) (unc : Option (Nat × BitVec 40)) (s : State) :
    Result :=
  .next ((s.takeOp false ns.toNat checkUnc unc).settleSignals 1024)

/-- COMBINE (R257): the router takes the oldest eligible operation, a COMBINE. -/
def execCombineOp (checkUnc : Bool) (unc : Option (Nat × BitVec 40)) (s : State) : Result :=
  .next ((s.takeOp true 0 checkUnc unc).settleSignals 1024)

/-- ROUTER_DEADLINE (R259): operations not started by their deadline complete with TIMEOUT. -/
def execRouterDeadline (s : State) : Result := .next (s.expireOps.settleSignals 1024)

/-- LTR_WCOMMIT (R249): a write of 1 to LTR_WCOMMIT, LTR_WVIEW written as the data word has it. -/
def execLtrWcommit (w : RegWrite) (s : State) : Result :=
  .next (s.writeReg ltrWrite 0x090 0x058 w (setBit · 0))

end Sys2Proof.Machine
end

