-- ==== Sys2Proof/Machine/Barm.lean ====
section
/-! DEFINITION. Barm command lists (chapter 11): inference windows and their capacity, rings, admission,
the start and expansion of lists, charging, completion and insight records. -/

namespace Sys2Proof.Machine

open Reg

/-! ## Windows -/

/-- The offset of a cycle within its window (R267). -/
def State.inWindow (s : State) (n : Nat) : Nat :=
  let l := max 1 s.barm.wlen
  (n + l - s.barm.wofs % l) % l

/-- The first cycle of the current window. -/
def State.windowCyc (s : State) : Nat := s.rd BARM_WC_LO + 2 ^ 32 * s.rd BARM_WC_HI

/-- The first cycle of the next window. -/
def State.windowNext (s : State) : Nat :=
  s.windowCyc + (max 1 s.barm.wlen - s.inWindow s.windowCyc)

/-- A window boundary has been reached that has not been acted on. -/
def State.windowDue (s : State) : Bool :=
  !s.barm.opened || decide (s.windowNext ≤ s.stamp.cyc)

/-- The first cycle of the window that holds the present cycle. -/
def State.windowFirst (s : State) : Nat := s.stamp.cyc - s.inWindow s.stamp.cyc

/-- Intervals in rising order of their starts. -/
def insertSpan (x : Nat × Nat) : List (Nat × Nat) → List (Nat × Nat)
  | [] => [x]
  | y :: l => if x.1 ≤ y.1 then x :: y :: l else y :: insertSpan x l

/-- The length of the union of intervals in rising order, counted from a tick on. -/
def unionLen : Nat → List (Nat × Nat) → Nat
  | _, [] => 0
  | from', (a, b) :: l =>
    let a := max a from'
    (b - a) + unionLen (max from' b) l

/-- The ticks of `n` cycles from cycle `first` on in which the gate will assert (R48, R276). -/
def State.gatedTicks (s : State) (first n : Nat) : Nat :=
  let lo := first * 65536
  let hi := (first + n) * 65536
  let g := s.rd CTF_QGUARD
  let spans := (List.range (n + 2)).flatMap fun i =>
    if first + i = 0 then []
    else
      let c := first + i - 1
      s.ctf.active.filterMap fun x =>
        let e := x.2.toNat
        let acts := entEn e && !entNoop e && (c + entPer e - entCofs e) % max 1 (entPer e) == 0
        match s.anchorPhase (entAnch e) with
        | none => none
        | some a =>
          let b := c * 65536 + (a + entStart e) % 65536
          if !acts then none
          else if entCons e = 1 then some (max lo b, min hi (b + entLen e))
          else if entCons e = 2 ∧ s.on CTF_QAUTO then some (max lo (b - g), min hi (b + entLen e + g))
          else none
  unionLen lo ((spans.filter fun x => x.1 < x.2).foldr insertSpan [])

/-- The capacity of a window of `n` cycles (R276). -/
def State.capacity (s : State) (first n : Nat) : Nat :=
  s.clusters.length * (4 * ((n * 65536 - s.gatedTicks first n) / 1024))

/-- Quanta of a sum of ticks (R283). -/
def quantaOf (ticks : Nat) : Nat := ceilDiv ticks 1024

/-- The quanta that bursts and running lists hold of a window (R276). -/
def State.committed (s : State) (first n : Nat) : Nat :=
  let burst := match s.tun.burst with
    | some b => if first ≤ b.start / 65536 ∧ b.start / 65536 < first + n then b.cost else 0
    | none => 0
  (s.barm.lists.filter (·.phase == 2)).foldl (fun a l => a + (l.cost - quantaOf l.ticks)) burst

/-- Capacity and uncommitted quanta of the current window are computed (R276, R289). -/
def State.computeCapacity (s : State) : State :=
  let first := s.windowCyc
  let n := s.windowNext - first
  let cap := s.capacity first n
  (s.wr BARM_WCAP (satNat 20 cap)).wr BARM_WFREE (satNat 20 (cap - s.committed first n))

/-! ## Rings -/

/-- The ring of tenant `t` as configured (Table 11-5). -/
def State.ringOf (s : State) (t : Nat) : RingCfg :=
  ⟨s.rd (BARM_RB_LO t) * 64 + s.rd (BARM_RB_HI t) * 2 ^ 32, s.rd (BARM_RSL t), s.rd (BARM_RCL t)⟩

/-- The address of the first completion slot (Table 11-1). -/
def RingCfg.compBase (r : RingCfg) : Nat := r.base + 0x40 + 64 * ceilDiv (2 ^ r.sl) 8

/-- The length of a ring area. -/
def RingCfg.len (r : RingCfg) : Nat := r.compBase + 64 * 2 ^ r.cl - r.base

/-- A range may be read, or written, by the engine for tenant `t` (R223). -/
def State.tenantMay (s : State) (t : Nat) (write : Bool) (a n : Nat) : Bool :=
  s.mapped a n && s.granted none t write a n

/-- A 16-bit index of a ring. -/
def State.ringIdx (s : State) (a : Nat) : Nat := s.memNat a 2

/-- A completion ring has a free slot (R268). -/
def State.ringRoom (s : State) (r : RingCfg) : Bool :=
  (s.ringIdx (r.base + 0x08) + 65536 - s.ringIdx (r.base + 0x0C)) % 65536 != 2 ^ r.cl

/-- A record is put in the next completion slot. -/
def State.putRecord (s : State) (r : RingCfg) (w : Nat) : State :=
  let i := s.ringIdx (r.base + 0x08)
  (s.store (r.compBase + 64 * (i % 2 ^ r.cl)) (leBytes 64 w)).store (r.base + 0x08)
    (leBytes 2 ((i + 1) % 65536))

/-- A record of tenant `t` is written, or held while the ring is full (R287). -/
def State.sendRecord (s : State) (t : Nat) (r : RingCfg) (w : Nat) : State :=
  if s.barm.held.any (·.tc == t) || !s.ringRoom r then
    (s.setBarm fun b => { b with held := b.held ++ [⟨t, r, BitVec.ofNat 512 w⟩] }).wr (BARM_RHOLD t) 1
  else s.putRecord r w

/-- Held records of tenant `t` are written while there is room, at most `fuel` (R287). -/
def State.releaseRecords (t : Nat) : Nat → State → State
  | 0, s => s
  | fuel + 1, s =>
    match s.barm.held.find? (·.tc == t) with
    | none => s.wr (BARM_RHOLD t) 0
    | some h =>
      if s.ringRoom h.ring then
        State.releaseRecords t fuel
          ((s.setBarm fun b => { b with held := b.held.erase h }).putRecord h.ring h.rec'.toNat)
      else s

/-- A list completion record (Table 11-4). -/
def State.completion (s : State) (c : Status) (item ndone first fcode ticks quanta tiles sat skc start :
    Nat) : Nat :=
  withCrc64 (1 + codeOf c * 2 ^ 8 + item * 2 ^ 16 + stampNat s.stamp * 2 ^ 32 + ndone * 2 ^ 96
    + first * 2 ^ 112 + fcode * 2 ^ 128 + satNat 32 ticks * 2 ^ 160 + satNat 16 quanta * 2 ^ 192
    + satNat 16 tiles * 2 ^ 208 + satNat 16 sat * 2 ^ 224 + satNat 16 skc * 2 ^ 240
    + start % 2 ^ 48 * 2 ^ 256)

/-- The record of a list that runs nothing. -/
def State.refusalRecord (s : State) (t : Nat) (r : RingCfg) (c : Status) (item : Nat) : State :=
  s.sendRecord t r (s.completion c item 0 0xFFFF 0 0 0 0 0 0 0)

/-! ## Headers and entries -/

/-- The fields of a list header (Table 11-2). -/
def lhVer (w : Nat) : Nat := bits w 0 4
def lhNent (w : Nat) : Nat := bits w 16 11
def lhNcnt (w : Nat) : Nat := bits w 27 5
def lhCost (w : Nat) : Nat := bits w 32 16
def lhItem (w : Nat) : Nat := bits w 48 16
def lhFence (w : Nat) : Nat := bits w 64 48
def lhDead (w : Nat) : Nat := bits w 112 48
def lhEcrc (w : Nat) : Nat := bits w 160 32

/-- The fields of entries of types 4 to 7 (Table 11-3); the tile fields stand as in Table 9-4. -/
def enNcol (w : Nat) : Nat := bits w 51 9
def enRidx (w : Nat) : Nat := bits w 64 10
def enTag (w : Nat) : Nat := bits w 128 16
def enAddr (w : Nat) : Nat := bits w 160 40
def enLen (w : Nat) : Nat := bits w 200 24

/-- An entry with index `i` carries a reserved encoding, a counter beyond the list's, or names no
earlier ROUTE (check 7 of R274). -/
def entryReserved (es : List Nat) (ncnt i w : Nat) : Bool :=
  let ty := spOp w
  let ctr (c : Nat) := c != 0xFF && decide (ncnt ≤ c)
  ty == 0 || decide (7 < ty) || ctr (spWcnt w) || ctr (spScnt w)
    || (ty == 6 && (decide (256 < enNcol w) || decide (4 < spNb w) || decide (1024 < spK w)
        || decide (1 < spFmt w) || decide (1 < spAct w) || spOfmt w == 2 || decide (i ≤ enRidx w)
        || spOp (es.getD (enRidx w) 0) != 4))
    || (ty == 7 && decide (65536 < enLen w))

/-- Check 7 of R274. -/
def State.listReserved (s : State) (h : Nat) (es : List Nat) : Bool :=
  lhVer h != 1 || decide (1024 < lhNent h) || decide (16 < lhNcnt h)
    || (lhCost h == 0 && lhNent h != 0) || decide (lhDead h < lhFence h)
    || decide (s.windowNext + s.barm.wlen ≤ lhFence h)
    || (es.zip (List.range es.length)).any fun x => entryReserved es (lhNcnt h) x.2 x.1

/-- The window that holds a fence ended while the device was in D2 or below (R290). -/
def State.endedBelow (s : State) (fence : Nat) : Bool :=
  match s.barm.below with
  | some (a, some b) =>
    let e := fence + (max 1 s.barm.wlen - s.inWindow fence)
    decide (a < e) && decide (e ≤ b)
  | _ => false

/-- The checks of R274 on the list in a slot: the first that fails, or the header and the entries. -/
def State.checkList (s : State) (t slot : Nat) : Except (Status × Nat × Option Span) (Nat × List Nat) :=
  let a := bits slot 0 40
  if s.tenant t ≠ tenActive then .error (.notOwner, 0, none)
  else if a % 64 ≠ 0 then .error (.cfgInvalid, 0, none)
  else if !s.tenantMay t false a 64 then .error (.notOwner, 0, some ⟨a, 64, false⟩)
  else
    let h := s.memNat a 64
    let item := lhItem h
    let n := lhNent h
    if !crcOk64 h then .error (.integFail, item, none)
    else if !s.tenantMay t false (a + 64) (64 * n) then
      .error (.notOwner, item, some ⟨a + 64, 64 * n, false⟩)
    else
      let es := (List.range n).map fun i => s.memNat (a + 64 + 64 * i) 64
      if es.any (fun w => !crcOk64 w) || crc32 (es.flatMap fun w => leBytes 4 (bits w 480 32)) != lhEcrc h
      then .error (.integFail, item, none)
      else if s.listReserved h es then .error (.cfgInvalid, item, none)
      else if n = 0 then .error (.zeroLen, item, none)
      else if lhDead h ≤ s.stamp.cyc then .error (.timeout, item, none)
      else if s.endedBelow (lhFence h) then .error (.skipped, item, none)
      else .ok (h, es)

/-- A list fails: record, counters, log (R274). -/
def State.failList (s : State) (t : Nat) (r : RingCfg) (c : Status) (item : Nat) (x : Option Span) :
    State :=
  let s :=
    if c = .zeroLen then s
    else
      let s := (s.count (BARM_RREF t)).raise 0x098 1
      let s := if c = .integFail ∨ c = .notOwner ∨ c = .cfgInvalid then s.count BARM_BADN else s
      s.outcome t resInf c item
  let s := if c = .integFail then s.log 0x7004 t item else s
  let s := match x with
    | some x => s.windowFault t 6 x
    | none => s
  s.refusalRecord t r c item

/-! ## Admission and start -/

/-- A list leaves the engine. -/
def State.dropList (s : State) (id : Nat) : State :=
  s.setBarm fun b => { b with
    lists := b.lists.filter (·.id != id), order := b.order.erase id }

/-- A list not started completes with a code; its cost returns to the quota where it was admitted
(R278, R290). -/
def State.endUnstarted (s : State) (l : BarmList) (c : Status) : State :=
  let s := s.dropList l.id
  let s := if l.phase = 1 then s.giveBack 1 l.tc l.cost l.window else s
  let s := s.outcome l.tc resInf c l.item
  let s := if l.safe ∧ c = .refusedPriority then s.count TNC_PRE_SAFE else s
  ((s.count BARM_LISTN).raise 0x098 0).refusalRecord l.tc l.ring c l.item

/-- A pooled list is admitted against the quota of the current window, or refused (R275). -/
def State.admitList (s : State) (l : BarmList) : State :=
  match s.takeQuota 1 l.tc l.cost with
  | some t =>
    (t.setList l.id fun l => { l with phase := 1, window := s.periodOf 1 }).count (BARM_RADM l.tc)
  | none => (s.dropList l.id).failList l.tc l.ring .refusedQuota l.item none

/-- Pooled lists whose window has begun and whose tenant is ACTIVE are admitted (R275, R290). -/
def State.admitPooled (s : State) : State :=
  (s.barm.lists.filter fun l =>
    l.phase == 0 && decide (l.fence < s.windowNext) && s.tenant l.tc == tenActive).foldl
    State.admitList s

/-- The physical counters free for lists, or for expansions (R277, R280). -/
def State.freeCounters (s : State) (group : Bool) : List Nat :=
  (if group then (List.range 16).map (112 + ·) else List.range 112).filter fun c =>
    !s.barm.used.contains c

/-- A physical counter at zero, poison clear. -/
def State.zeroCounter (s : State) (c : Nat) : State := (s.wr (TUN_SYNC_VAL c) 0).wr (TUN_SYNC_POIS c) 0

/-- A list fits the uncommitted capacity and the free counters (R277). -/
def State.fits (s : State) (l : BarmList) : Bool :=
  decide (l.cost ≤ s.rd BARM_WFREE) && decide (l.ncnt ≤ (s.freeCounters false).length)

/-- The list of a tenant and class whose turn it is, of those carried over or of the others: the
oldest admitted one whose fence has passed (R113, R277). -/
def State.turnList (s : State) (carried : Bool) (c t : Nat) : Option BarmList :=
  if s.barm.held.any (·.tc == t) then none
  else s.barm.lists.find? fun l =>
    l.phase == 1 && l.cls == c && l.tc == t && decide (l.fence ≤ s.stamp.cyc)
      && (decide (l.window < s.periodOf 1)) == carried

/-- The next list to start (R113, R277). -/
def State.nextStart (s : State) : Option BarmList :=
  [3, 2, 1, 0].findSome? fun c => [true, false].findSome? fun carried =>
    (s.turnOrder 1 c).findSome? fun t =>
      match s.turnList carried c t with
      | some l => if s.fits l then some l else none
      | none => none

/-- A list starts: capacity committed, counters allocated (R277, R278). -/
def State.startList (s : State) (l : BarmList) : State :=
  let cs := (s.freeCounters false).take l.ncnt
  let s := (s.wr BARM_WFREE (s.rd BARM_WFREE - l.cost)).serveTurn 1 l.cls l.tc
  let s := cs.foldl State.zeroCounter s
  let s := s.setList l.id fun l => { l with
    phase := 2, started := s.stamp.cyc, delayed := decide (l.fence < s.windowCyc), ctrs := cs }
  s.setBarm fun b => { b with used := cs ++ b.used, order := b.order ++ [l.id] }

/-- Lists start while uncommitted capacity remains, at most `fuel` (R277). -/
def State.startLists : Nat → State → State
  | 0, s => s
  | fuel + 1, s =>
    if s.on BARM_EN then
      match s.nextStart with
      | some l => State.startLists fuel (s.startList l)
      | none =>
        if s.rd MON_TMASK = 0 then s
        else s.setBarm fun b => { b with lists := b.lists.map fun l =>
          if l.phase = 1 ∧ l.fence ≤ s.stamp.cyc ∧ s.rd BARM_WFREE < l.cost then { l with safe := true }
          else l }
    else s

/-- Lists whose fence has passed start (R277). -/
def State.startAll (s : State) : State := State.startLists 256 s

/-- One submission slot is read: the list enters the pool or fails (R274). -/
def State.readSlot (s : State) (t : Nat) (r : RingCfg) : State :=
  let i := s.ringIdx (r.base + 0x04)
  let slot := s.memNat (r.base + 0x40 + 8 * (i % 2 ^ r.sl)) 8
  let s := match s.checkList t slot with
    | .error (c, item, x) => s.failList t r c item x
    | .ok (h, es) =>
      let l : BarmList := {
        id := s.barm.nextId, tc := t, cls := s.rd (TNC_CLASS t), ring := r, ncnt := lhNcnt h,
        cost := lhCost h, item := lhItem h, fence := lhFence h, dead := lhDead h,
        entries := es.map (BitVec.ofNat 512) }
      let s := s.setBarm fun b => { b with lists := b.lists ++ [l], nextId := b.nextId + 1 }
      if l.fence < s.windowNext then s.admitList l else s
  s.store (r.base + 0x04) (leBytes 2 ((i + 1) % 65536))

/-- Submission slots are read while there are new ones and the pool has room, at most `fuel`. -/
def State.readSlots (t : Nat) (r : RingCfg) : Nat → State → State
  | 0, s => s
  | fuel + 1, s =>
    if s.ringIdx r.base = s.ringIdx (r.base + 0x04) ∨ 256 ≤ (s.barm.lists.filter (·.phase != 2)).length
    then s
    else State.readSlots t r fuel (s.readSlot t r)

/-- A poll of the ring of tenant `t` (R269, R274). -/
def State.pollRing (s : State) (t : Nat) : State :=
  if s.on BARM_EN = false ∨ s.on (BARM_REN t) = false ∨ s.pageRuns 0x098 = false then s
  else
    let r := s.ringOf t
    let ok := s.tenantMay t false r.base r.len && s.tenantMay t true r.base r.len
    let n := (s.ringIdx r.base + 65536 - s.ringIdx (r.base + 0x04)) % 65536
    if !ok || decide (2 ^ r.sl < n) then
      if s.on (BARM_RFAULT t) then s
      else ((s.wr (BARM_RFAULT t) 1).raise 0x098 2).log 0x5007 t 0
    else (State.readSlots t r 256 (s.wr (BARM_RFAULT t) 0)).startAll

/-! ## Expansion -/

/-- The Sparge entry built from the image of entry `i` of a list (R272). -/
def BarmList.image (l : BarmList) (i : Nat) : Nat :=
  let w := l.entry i
  let w := putBits (putBits w 24 6 l.tc) 30 2 l.cls
  let w := putBits (putBits (putBits w 64 16 l.item) 80 16 i) 128 32 l.dead
  withCrc64 (putBits (putBits w 96 8 (l.phys (spWcnt w))) 104 8 (l.phys (spScnt w)))

/-- The router operation of entry `i` of a list (R244, R273). -/
def BarmList.routerOp (l : BarmList) (i : Nat) : RouterOp :=
  let w := l.entry i
  { combine := spOp w == 5, desc := enAddr w, wcnt := l.phys (spWcnt w), wval := spWval w,
    scnt := l.phys (spScnt w), tc := l.tc, item := l.item, dlc := l.dead % 2 ^ 32, src := (l.id, i) }

/-- The engine moves on to the next entry of a list. -/
def State.advanceList (s : State) (id : Nat) : State := s.setList id fun l => { l with next := l.next + 1 }

/-- An entry of a list completes without being issued: its counter is signalled and poisoned. -/
def State.endIssued (s : State) (l : BarmList) (i : Nat) (c : Status) : State :=
  (s.signal (l.phys (spScnt (l.entry i))) c).entryDone l.id i c

/-- A stall on a full Sparge list ends (R279). -/
def State.endStall (s : State) : State :=
  match s.barm.stall with
  | some t => (s.count BARM_SPSTALL (s.ticks - t)).setBarm fun b => { b with stall := none }
  | none => s

/-- The engine stalls on a full Sparge list (R279). -/
def State.beginStall (s : State) : State :=
  match s.barm.stall with
  | some _ => s
  | none => (s.setBarm fun b => { b with stall := some s.ticks }).raise 0x098 3

/-- An entry joins the Sparge list. -/
def State.appendEntry (s : State) (x : SpEntry) : State := s.endStall.setSparge (s.tun.sparge ++ [x])

/-- The Sparge list is full (R225). -/
def State.spargeFull (s : State) : Bool := decide (1024 ≤ s.tun.sparge.length)

/-- Generated tiles join the Sparge list while there is room, at most `fuel` (R279). -/
def State.drainBacklog : Nat → State → State
  | 0, s => s
  | fuel + 1, s =>
    match s.barm.backlog with
    | [] => s
    | x :: l =>
      if s.spargeFull then s.beginStall
      else State.drainBacklog fuel ((s.setBarm fun b => { b with backlog := l }).appendEntry x)

/-- The list whose next entry is appended: the first in the order of starting (R279). -/
def State.appending (s : State) : Option BarmList :=
  (s.barm.order.filterMap s.listOf).find? fun l => l.next < l.entries.length

/-- The deadline of a list has been reached. -/
def State.listLate (s : State) (l : BarmList) : Bool := decide (l.dead ≤ s.stamp.cyc)

/-- BARM_APPEND (R279): the next entry of the first started list is appended or issued; past the
deadline it completes with TIMEOUT. -/
def execBarmAppend (s : State) : Result :=
  .next (
    if s.pageRuns 0x098 = false then s
    else if s.barm.backlog ≠ [] then (State.drainBacklog 1 s).settleSignals 1024
    else
      match s.appending with
      | none => s
      | some l =>
        let i := l.next
        let ty := spOp (l.entry i)
        if s.listLate l then ((s.advanceList l.id).endIssued l i .timeout).settleSignals 1024
        else if ty ≤ 3 then
          if s.spargeFull then s.beginStall
          else
            ((s.advanceList l.id).appendEntry
              ⟨BitVec.ofNat 512 (l.image i), some (l.id, i)⟩).settleSignals 1024
        else if ty ≤ 5 then
          (s.advanceList l.id).setLtr fun x => { x with ops := x.ops ++ [l.routerOp i] }
        else (s.advanceList l.id).setList l.id fun l => { l with waits := l.waits ++ [i] })

/-- The tiles of one run of rows of an expert (R280): `st` is the stage descriptor. -/
def runTiles (l : BarmList) (i ctr st cl r0 rows : Nat) : List SpEntry :=
  let w := l.entry i
  let nb := spNb w
  let ncol := enNcol w
  let fst := bits st 0 40
  let astr := bits st 40 16
  let bstr := bits st 144 16
  let cstr := bits st 200 16
  (List.range (ceilDiv rows 64)).flatMap fun ri =>
    let r := 64 * ri
    (List.range (ceilDiv ncol (max 1 nb))).map fun ci =>
      let c := nb * ci
      let mb := min 4 ((rows - r) / 16)
      let v := w % 2 ^ 13 / 16 * 16 + 1 + 2 ^ cl * 2 ^ 16 + l.tc * 2 ^ 24 + l.cls * 2 ^ 30
        + mb * 2 ^ 32 + min nb (ncol - c) * 2 ^ 36 + spK w * 2 ^ 40 + l.item * 2 ^ 64 + i * 2 ^ 80
        + 0xFF * 2 ^ 96 + ctr * 2 ^ 104 + l.dead % 2 ^ 32 * 2 ^ 128
        + (fst + (r0 + r) * astr) % 2 ^ 40 * 2 ^ 160
        + (bits st 64 40 + 16 * c * bstr) % 2 ^ 40 * 2 ^ 200
        + (bits st 160 40 + (r0 + r) * cstr + outBytes (spOfmt w) (16 * c)) % 2 ^ 40 * 2 ^ 240
        + (bits st 216 40 + 64 * c) % 2 ^ 40 * 2 ^ 280
        + (bits st 104 40 + 8 * c * bstr) % 2 ^ 40 * 2 ^ 320
        + astr * 2 ^ 360 + bstr * 2 ^ 376 + cstr * 2 ^ 392 + spQmul w * 2 ^ 408 + spQsh w * 2 ^ 424
      ⟨BitVec.ofNat 512 (withCrc64 v), some (l.id, i)⟩

/-- The tiles of an EXPERT entry from its dispatch and stage tables (R280). -/
def expertTiles (l : BarmList) (i ctr mode : Nat) (dts sts : List Nat) : List SpEntry :=
  (dts.zip sts).flatMap fun x =>
    let rows := bits x.1 320 16
    if rows = 0 then []
    else if mode = 0 then runTiles l i ctr x.2 (bits x.1 48 3) 0 rows
    else (List.range 8).flatMap fun sh =>
      let cn := bits x.1 (64 + 32 * sh + 16) 13
      if cn = 0 then [] else runTiles l i ctr x.2 sh (bits x.1 (64 + 32 * sh) 16) (16 * ceilDiv cn 16)

/-- An EXPERT entry that may be expanded now: its ROUTE has completed and its wait is met (R279). -/
def State.expertReady (s : State) (l : BarmList) (i : Nat) : Bool :=
  let w := l.entry i
  spOp w == 6 && !(l.groups.any (·.idx == i)) && l.codes.any (·.1 == enRidx w)
    && s.waitMet (l.phys (spWcnt w)) (spWval w)

/-- An EXPERT entry is expanded, or completes with the outcome of R281. -/
def State.expand (s : State) (l : BarmList) (i : Nat) : State :=
  let w := l.entry i
  let d := s.memNat (enAddr (l.entry (enRidx w))) 64
  let ne := rdNe d
  let dts := (List.range ne).map fun e => s.memNat (rdDtab d + 64 * e) 64
  let sum := s.memNat (rdDtab d + 64 * 64) 64
  let sts := (List.range ne).map fun e => s.memNat (enAddr w + 64 * e) 64
  let bad := !crcOk64 d || !crcOk64 sum || dts.any (fun x => !crcOk64 x)
    || (dts.zip sts).any fun x => bits x.1 320 16 != 0 && !crcOk64 x.2
  if spNb w = 0 ∨ spK w = 0 ∨ enNcol w = 0 then s.entryDone l.id i .zeroLen
  else if !l.routes.contains (enRidx w) || s.waitPoisoned (l.phys (spWcnt w)) then
    s.endIssued l i .skipped
  else if bad then (s.log 0x7005 l.tc l.item).endIssued l i .integFail
  else
    match s.freeCounters true with
    | [] => s
    | g :: _ =>
      let tiles := expertTiles l i g (bits sum 104 1) dts sts
      if 8192 < tiles.length then s.endIssued l i .cfgInvalid
      else if tiles = [] then s.endIssued l i s.okOr
      else
        let s := (s.zeroCounter g).setBarm fun b => { b with
          used := g :: b.used, backlog := b.backlog ++ tiles }
        State.drainBacklog 1024
          (s.setList l.id fun l => { l with groups := ⟨i, g, tiles.length, .ok⟩ :: l.groups })

/-- Entries of a kind that wait in started lists, in order. -/
def State.waiting (s : State) (ty : Nat) : List (BarmList × Nat) :=
  (s.barm.order.filterMap s.listOf).flatMap fun l =>
    (l.waits.filter fun i => spOp (l.entry i) == ty && !(l.groups.any (·.idx == i))).map fun i => (l, i)

/-- Entries of a kind that wait past the deadline of their list complete with TIMEOUT (log entry
17). -/
def State.expireWaits (s : State) (ty : Nat) : State :=
  ((s.waiting ty).filter fun x => s.listLate x.1).foldl (fun s x => s.endIssued x.1 x.2 .timeout) s

/-- EXPERT_EXPAND (R280, R281): the first EXPERT entry that is ready is expanded. -/
def execExpertExpand (s : State) : Result :=
  .next (
    if s.pageRuns 0x098 = false then s
    else
      let s := s.expireWaits 6
      let s := match (s.waiting 6).find? fun x => s.expertReady x.1 x.2 with
        | some x => s.expand x.1 x.2
        | none => s
      s.settleSignals 1024)

/-! ## Insights -/

/-- An insight record (Table 11-4). -/
def State.insightRecord (s : State) (l : BarmList) (i : Nat) (c : Status) (region : List Byte) : Nat :=
  let w := l.entry i
  withCrc64 (2 + codeOf c * 2 ^ 8 + l.item * 2 ^ 16 + stampNat s.stamp * 2 ^ 32 + i * 2 ^ 96
    + enTag w * 2 ^ 112 + enAddr w * 2 ^ 304 + enLen w * 2 ^ 344 + crc32 region * 2 ^ 368
    + leNat (padTo 10 region) * 2 ^ 400)

/-- An INSIGHT entry whose wait is met is delivered (R286). -/
def State.deliver (s : State) (l : BarmList) (i : Nat) : State :=
  let w := l.entry i
  let a := enAddr w
  let n := enLen w
  if n = 0 then s.entryDone l.id i .zeroLen
  else if !s.tenantMay l.tc false a n then
    (s.windowFault l.tc 6 ⟨a, n, false⟩).endIssued l i .notOwner
  else if s.waitPoisoned (l.phys (spWcnt w)) then s.endIssued l i .skipped
  else
    let c : Status := if s.estimated then .holdover else if l.deg then .degraded else .ok
    (s.sendRecord l.tc l.ring (s.insightRecord l i c (s.bytes a n))).endIssued l i c

/-- INSIGHT_DELIVER (R286): the first INSIGHT entry whose wait is met is delivered. -/
def execInsightDeliver (s : State) : Result :=
  .next (
    if s.pageRuns 0x098 = false then s
    else
      let s := s.expireWaits 7
      let s := match (s.waiting 7).find? fun x =>
          s.waitMet (x.1.phys (spWcnt (x.1.entry x.2))) (spWval (x.1.entry x.2)) with
        | some x => s.deliver x.1 x.2
        | none => s
      s.settleSignals 1024)

/-! ## Completion -/

/-- The status of a completed list (R284). -/
def BarmList.status (l : BarmList) : Status :=
  (l.codes.filter fun x => x.2 != .zeroLen && x.2 != .ok).foldl (fun a x => firstOf a x.2)
    (if l.delayed then .delayed else .ok)

/-- The first entry whose code is none of OK, HOLDOVER, DEGRADED or ZERO_LEN (Table 11-4). -/
def BarmList.firstBad (l : BarmList) : Nat × Nat :=
  match (List.range l.entries.length).findSome? fun i =>
      (l.codes.find? fun x => x.1 == i && !cleanCode x.2 && x.2 != .zeroLen).map fun x => (i, x.2) with
  | some (i, c) => (i, codeOf c)
  | none => (0xFFFF, 0)

/-- The charge of a completed list (R283). -/
def State.chargeList (s : State) (l : BarmList) : State :=
  let q := quantaOf l.ticks
  if q ≤ l.cost then s.giveBack 1 l.tc (l.cost - q) l.window
  else s.setTnc fun x => { x with
    debt := cellPut 0 (64 + l.tc) (cellAt 0 (64 + l.tc) x.debt + (q - l.cost)) x.debt }

/-- A list completes: charge, counters, record (R283 to R285). -/
def State.completeList (s : State) (l : BarmList) : State :=
  let c := l.status
  let bad := l.firstBad
  let s := (s.chargeList l).dropList l.id
  let s := s.setBarm fun b => { b with used := b.used.filter fun k => !l.ctrs.contains k }
  let s := s.outcome l.tc resInf c l.item
  let s := if l.safe ∧ c = .delayed then s.count TNC_PRE_SAFE else s
  let s := s.sendRecord l.tc l.ring (s.completion c l.item l.entries.length bad.1 bad.2 l.ticks
    (quantaOf l.ticks) l.tiles l.sat l.skc l.started)
  (s.count BARM_LISTN).raise 0x098 0

/-- A started list whose every entry has completed. -/
def State.finished (s : State) : Option BarmList :=
  (s.barm.order.filterMap s.listOf).find? fun l =>
    l.codes.length == l.entries.length && decide (l.entries.length ≤ l.next)

/-- LIST_COMPLETE (R284): a list whose entries have all completed is charged, its counters freed, its
record written; further lists may start (R277). -/
def execListComplete (s : State) : Result :=
  .next (match s.finished with
    | some l =>
      let s := s.completeList l
      if s.pageRuns 0x098 then s.startAll else s
    | none => s)

/-- BARM_RECORD_RELEASE (R287): records held for a full ring are written while slots are free. -/
def execBarmRecordRelease (tenant : Fin 64) (s : State) : Result :=
  .next (if s.barm.held.any (·.tc == tenant.val) then
      let s := State.releaseRecords tenant.val (s.barm.held.length + 1) s
      if s.pageRuns 0x098 then s.startAll else s
    else s)

/-! ## Boundaries, levels, resets -/

/-- WINDOW_BOUNDARY (R267, R275 to R277): a new window with its capacity; quotas refill, fenced lists
are admitted and lists start. -/
def execWindowBoundary (s : State) : Result :=
  .next (
    if s.pageRuns 0x098 = false ∨ s.windowDue = false then s
    else
      let s := s.setBarm fun b => { b with
        wlen := max 1 (s.rd BARM_WLEN), wofs := s.rd BARM_WOFS, opened := true }
      let first := s.windowFirst
      let s := (s.wr BARM_WC_LO (first % 2 ^ 32)).wr BARM_WC_HI (first / 2 ^ 32)
      let s := if s.periodOf 1 = first + 1 then s else s.refill 1 first
      s.computeCapacity.admitPooled.startAll)

/-- Lists not started by phase 0 of their deadline complete with REFUSED_PRIORITY (R278). -/
def State.barmLatest (s : State) : State :=
  (s.barm.lists.filter fun l => l.phase != 2 && s.listLate l).foldl
    (fun s l => s.endUnstarted l .refusedPriority) s

/-- Lists of tenant `t`, or of all, that have not started complete with SKIPPED (R120, R290). -/
def State.barmSkip (s : State) (t : Option Nat) : State :=
  (s.barm.lists.filter fun l => l.phase != 2 && (t == none || t == some l.tc)).foldl
    (fun s l => s.endUnstarted l .skipped) s

/-- Entry into D2 or below (R290): lists not started, and the entries of started lists that no unit
has taken, complete with SKIPPED. -/
def State.barmEnterD2 (s : State) : State :=
  let s := s.barmSkip none
  let gone := s.barm.backlog
  let s := s.setBarm fun b => { b with backlog := [], below := some (s.stamp.cyc, none) }
  let s := gone.foldl (fun s x => s.endEntry x .skipped) s
  let s := (s.waiting 6 ++ s.waiting 7).foldl (fun s x => s.endIssued x.1 x.2 .skipped) s
  let left := (s.barm.order.filterMap s.listOf).flatMap fun l =>
    ((List.range l.entries.length).filter fun i => l.next ≤ i).map fun i => (l, i)
  left.foldl (fun s x => (s.advanceList x.1.id).endIssued x.1 x.2 .skipped) s

/-- Return to D1 or above (R290). -/
def State.barmReturn (s : State) : State :=
  s.setBarm fun b => { b with below := b.below.map fun x => (x.1, some s.stamp.cyc) }

/-! ## Register access -/

/-- A ring word of tenant `t` is written (R291). -/
def State.ringWrite (s : State) (q : Req) (t d : Nat) : Status × State :=
  let ren := s.on (BARM_REN t)
  match q.off % 32 with
  | 0x04 =>
    let lo := s.heldWord q.page (q.off - 4)
    if ren ∧ (lo / 64 ≠ s.rd (BARM_RB_LO t) ∨ bits d 0 8 ≠ s.rd (BARM_RB_HI t)) then (.cfgInvalid, s)
    else plainWrite s q d
  | 0x08 =>
    let sl := bits d 0 4
    let cl := bits d 8 4
    if 8 < sl ∨ 8 < cl ∨ (t = 1 ∧ bit d 31) ∨ (ren ∧ (sl ≠ s.rd (BARM_RSL t) ∨ cl ≠ s.rd (BARM_RCL t)))
    then (.cfgInvalid, s)
    else plainWrite s q d
  | _ => plainWrite s q d

/-- Writes of page 0x098, with the code of configuration writes in BARM_CFGSTS (R267, R269, R291). -/
def barmWrite : Writer := fun s q d =>
  let note (r : Status × State) : Status × State := (r.1, r.2.wr BARM_CCODE (codeOf r.1))
  let kick (first : Nat) : Status × State := (.ok, (bitsSet d 32).foldl (fun s b => s.pollRing (first + b)) s)
  if 0x100 ≤ q.off then note (s.ringWrite q ((q.off - 0x100) / 32) d)
  else
    match q.off with
    | 0x044 =>
      note (if bits d 0 8 = 0 then (.zeroLen, s)
        else if bits d 0 8 ≤ bits d 8 8 then (.cfgInvalid, s) else plainWrite s q d)
    | 0x048 => note (storeIf (decide (64 ≤ bits d 0 16)) s q d)
    | 0x04C => kick 0
    | 0x050 => kick 32
    | _ => note (plainWrite s q d)

/-- Reads of page 0x098: the numbers of lists are computed. -/
def barmRead : Reader := fun s q =>
  if q.off = 0x054 then
    let n := (s.barm.lists.filter (·.phase == 2)).length
    (.ok, satNat 9 (s.barm.lists.length - n) + satNat 9 n * 2 ^ 16, s)
  else plainRead s q

/-! ## Commands -/

/-- BARM_RING_POLL (R269): the poll of a tenant's ring. -/
def execBarmRingPoll (tenant : Fin 64) (s : State) : Result := .next (s.pollRing tenant.val)

/-- BARM_KICK (R269): a write of a tenant's bit in BARM_KICK. -/
def execBarmKick (tenant : Fin 64) (w : RegWrite) (s : State) : Result :=
  let t := tenant.val
  .next (s.writeReg barmWrite 0x098 (if t < 32 then 0x04C else 0x050) w (setBit · (t % 32)))

end Sys2Proof.Machine
end

