-- ==== Sys2Proof/Machine/Ccx.lean ====
section
/-! DEFINITION. The control complex (chapter 12): harts and their device-specific CSRs, the platform
interrupt controller, the LPDDR4X and QSPI controllers. -/

namespace Sys2Proof.Machine

open Reg

/-- The state with what the control complex holds changed. -/
def State.setCcx (s : State) (f : CcxState → CcxState) : State := { s with ccx := f s.ccx }

/-- Hart `h`. -/
def State.hart (s : State) (h : Nat) : Hart := cellAt {} h s.ccx.harts

/-- The state with hart `h` changed. -/
def State.setHart (s : State) (h : Nat) (f : Hart → Hart) : State :=
  s.setCcx fun c => { c with harts := cellPut {} h (f (s.hart h)) c.harts }

/-! ## Time that a command implies -/

/-- Time passes until the REF48 clock, in 1/65,536, is at least `t`. -/
def State.waitUntil (s : State) (t : Nat) : State :=
  if s.clk < t then s.advance (ceilDiv (t - s.clk) (max 1 (s.rd CTF_PERIOD))) else s

/-- `ms` milliseconds of REF48 in 1/65,536 of its clock. -/
def msTicks (ms : Nat) : Nat := msClocks ms * 65536

/-! ## Tenant contexts -/

/-- The tenant that an access of hart `h` carries: 0 in machine mode, otherwise CCX_TC, and none while
no context is set (R297). -/
def State.hartTenant (s : State) (h : Nat) (machine : Bool) : Option Nat :=
  if machine then some 0 else if s.on (CCX_C_TCV h) then some (s.rd (CCX_C_TC h)) else none

/-- CCX_TCTX (R296): a machine-mode write of CCX_TCTX by hart `hart`. -/
def execCcxTctx (hart : Fin 4) (tc : Fin 64) (valid : Bool) (s : State) : Result :=
  .next (
    let h := hart.val
    if bit (s.rd CCX_HUP) h = false then s
    else if tc.val = 1 then
      ((s.setHart h fun x => { x with tsts := codeOf .cfgInvalid }).count CCX_TCREFN).log 0x5008
        deviceTc h
    else
      ((s.setHart h fun x => { x with tsts := codeOf .ok }).wr (CCX_C_TC h) tc.val).wr (CCX_C_TCV h)
        (b2n valid))

/-- Bit 16 of mip of hart `h` (R299). -/
def State.compareStamp (s : State) (h : Nat) : State :=
  s.setHart h fun x => { x with irq16 := decide (x.stcmp.toNat ≤ stampNat s.stamp) }

/-- STAMP_COMPARE (R299): hart `hart` compares CCX_STAMP with CCX_STCMP; `write`: the value that it has
written into CCX_STCMP before. -/
def execStampCompare (hart : Fin 4) (write : Option (BitVec 64)) (s : State) : Result :=
  .next (
    if bit (s.rd CCX_HUP) hart.val = false then s
    else
      let s := match write with
        | some v => s.setHart hart.val fun x => { x with stcmp := v }
        | none => s
      s.compareStamp hart.val)

/-! ## Hart resets -/

/-- The architectural state of hart `h` is reset (R296, R539). -/
def State.resetHart (s : State) (h : Nat) : State :=
  ((s.setHart h fun _ => {}).wr (CCX_C_TC h) 0).wr (CCX_C_TCV h) 0

/-- The harts that CCX_RUN releases run, and none of them in D3 or while they are held in reset
(Table 12-1, R313). A hart that starts to run has its watchdog count from then. -/
def State.runHarts (s : State) : State :=
  let run := if s.ccx.recovery ∨ 3 ≤ s.level then 0 else s.rd CCX_RUN
  let s := (List.range 4).foldl (fun s h =>
    if bit run h && !bit (s.rd CCX_HUP) h then s.setHart h fun x => { x with kicked := s.clk }
    else if !bit run h && bit (s.rd CCX_HUP) h then s.resetHart h
    else s) s
  s.wr CCX_HUP run

/-- Entry into D3: the harts go into reset, the contents of control SRAM, shared inference SRAM and
LPDDR4X are lost (Table 12-1, R303, R304). -/
def State.ccxEnterD3 (s : State) : State :=
  let s := ((List.range 4).foldl (fun s h => s.resetHart h) s).wr CCX_RUN 0
  let s := (((s.wr CCX_HUP 0).wr CCX_DDR_READY 0).wr CCX_DDR_INIT 0).wr CCX_QSP_GO 0
  { s with ccx := { s.ccx with sram := [], cache := [], training := false, qspi := none },
           mem := s.mem.filter fun e => 0x1000000 ≤ e.1 && e.1 < ddrBase }

/-! ## Interrupt controller -/

/-- The pages whose pending lines are sources 65 to 80 (Table 12-4). -/
def sourcePages : List Nat :=
  [0x002, 0x010, 0x080, 0x090, 0x098, 0x0B8, 0x0C0, 0x0C8, 0x0CC, 0x0D0, 0x0D8, 0x0E0, 0x0E8, 0x0F0,
   0x100, 0x104]

/-- The code of consumer CCX in a scheduling entry (Table 2-4). -/
def consCcx : Nat := 7

/-- The line of interrupt source `n` (R302, Table 12-4). -/
def State.sourceLine (s : State) (n : Nat) : Bool :=
  if n = 0 then false
  else if n ≤ 64 then s.summary (n - 1)
  else if n ≤ 80 then s.pendLine (sourcePages.getD (n - 65) 0)
  else if n = 81 then s.on MGC_DB_TOCCX
  else if n = 82 then s.on CCX_M_I_UNC || s.on CCX_DDR_I_UNC
  else if n = 83 then s.rd CCX_HWDT != 0
  else if n ≤ 99 then s.signalOn consCcx (n - 84)
  else false

/-- A word of the interrupt controller. -/
def State.plicWord (s : State) (off : Nat) : Nat := (cellAt 0#32 off s.ccx.plic).toNat

/-- The priority of a source, 1 to 7; 0 never interrupts. -/
def State.plicPrio (s : State) (n : Nat) : Nat := s.plicWord (4 * n) % 8

/-- Source `n` is enabled for a context. -/
def State.plicEnabled (s : State) (ctx n : Nat) : Bool :=
  bit (s.plicWord (0x2000 + 0x80 * ctx + 4 * (n / 32))) (n % 32)

/-- Source `n` is pending: its line is high and it is not being served. -/
def State.plicPending (s : State) (n : Nat) : Bool :=
  s.sourceLine n && !s.ccx.served.contains n

/-- The source that a context would claim: enabled, pending, of the highest priority above 0, the
lowest number among equals; 0 where there is none. -/
def State.plicBest (s : State) (ctx : Nat) : Nat :=
  (List.range 100).foldl (fun b n =>
    if s.plicEnabled ctx n && s.plicPending n && decide (0 < s.plicPrio n)
      && (b == 0 || decide (s.plicPrio b < s.plicPrio n)) then n else b) 0

/-- A context claims its source; a claim of source 81 clears MGC_DB_TOCCX (R302, Table 12-14). -/
def State.plicClaim (s : State) (ctx : Nat) : Nat × State :=
  let n := s.plicBest ctx
  if n = 0 then (0, s)
  else
    let t := s.setCcx fun c => { c with served := n :: c.served }
    (n, if n = 81 then t.wr MGC_DB_TOCCX 0 else t)

/-- PLIC_CLAIM (R302): context 2h is hart h in machine mode, 2h + 1 in supervisor mode. -/
def execPlicClaim (context : Fin 8) (s : State) : Result :=
  .next (
    let r := s.plicClaim context.val
    { r.2 with resp := { code := .ok, data := [r.1] } })

/-- The machine external interrupt of the management core (R302). -/
def State.mgcInterrupt (s : State) : Bool :=
  (bitsSet (s.rd MGC_IMAP) 16).any (fun i => s.pendLine (sourcePages.getD i 0))
    || s.on MGC_DB_TOMGC || s.on MGC_I_RDONE

/-! ## Watchdogs of the harts -/

/-- HART_WATCHDOG (R314): CCX_WDT_MS have passed since the last kick of a running hart. -/
def execHartWatchdog (hart : Fin 4) (s : State) : Result :=
  .next (
    let h := hart.val
    if s.on CCX_WDT_EN = false ∨ bit (s.rd CCX_HUP) h = false then s
    else
      let s := s.waitUntil ((s.hart h).kicked + msTicks (s.rd CCX_WDT_MS))
      let s := s.resetHart h
      let s := s.setHart h fun x => { x with kicked := s.clk }
      (s.wr CCX_HWDT (setBit (s.rd CCX_HWDT) h)).raise 0x0A0 0)

/-! ## LPDDR4X -/

/-- The addressable size in MiB: seven eighths of the device (R304). -/
def ddrMib (dens : Nat) : Nat := 512 * 2 ^ dens / 8 * 7

/-- DDR_INIT_DONE (R304): training has converged. -/
def execDdrInitDone (s : State) : Result :=
  .next (
    if s.ccx.training = false then s
    else
      let s := s.setCcx fun c => { c with training := false }
      ((((s.wr CCX_DDR_INIT 0).wr CCX_DDR_CODE (codeOf .ok)).wr CCX_DDR_READY 1).wr CCX_DDR_MIB
        (ddrMib (s.rd CCX_DDR_DENS))).raise 0x0A2 0)

/-- DDR_TRAIN_TIMEOUT (R304): training has not converged within 50 ms. -/
def execDdrTrainTimeout (s : State) : Result :=
  .next (
    if s.ccx.training = false then s
    else
      let s := s.setCcx fun c => { c with training := false }
      (((s.wr CCX_DDR_INIT 0).wr CCX_DDR_CODE (codeOf .timeout)).wr CCX_DDR_READY 0).raise 0x0A2 0)

/-! ## QSPI -/

/-- The base and end of the image slots. -/
def slotBase (n : Nat) : Nat := if n = 0 then 0x100000 else 0x900000
def slotLen : Nat := 0x800000

/-- The opcodes of R306. -/
def isProgram (o : Nat) : Bool := o == 0x02 || o == 0x12 || o == 0x32 || o == 0x34
def isChipErase (o : Nat) : Bool := o == 0x60 || o == 0xC7
def eraseBlock (o : Nat) : Option Nat :=
  if o = 0x20 ∨ o = 0x21 then some 0x1000
  else if o = 0x52 then some 0x8000
  else if o = 0xD8 ∨ o = 0xDC then some 0x10000
  else none

/-- Ranges [a, a + n) and [b, b + m) meet. -/
def meets (a n b m : Nat) : Bool := decide (0 < n) && decide (a < b + m) && decide (b < a + n)

/-- A range of the flash that R306 protects meets [a, a + n). -/
def State.flashProtected (s : State) (a n : Nat) : Bool :=
  meets a n 0 0x100000 || (s.on CCX_QSP_WPA && meets a n (slotBase 0) slotLen)
    || (s.on CCX_QSP_WPB && meets a n (slotBase 1) slotLen)

/-- The command that the registers of the controller describe; a 3-byte address is sent without its
upper byte. -/
def State.qspiCmd (s : State) : QspiCmd :=
  let a := s.rd CCX_QSP_ADDR
  ⟨s.rd CCX_QSP_OPC, s.rd CCX_QSP_DIR, if s.on CCX_QSP_A4 then a else a % 2 ^ 24, s.rd CCX_QSP_LEN⟩

/-- The code with which the controller turns a command away, in the order of R11 (R305, R306). -/
def State.qspiStop (s : State) (c : QspiCmd) : Option Status :=
  let erase := match eraseBlock c.opc with
    | some n => s.flashProtected (c.addr / n * n) n
    | none => false
  if isChipErase c.opc || erase || (isProgram c.opc && s.flashProtected c.addr c.len) then some .prot
  else if c.dir = 0 ∧ c.len ≠ 0 then some .cfgInvalid
  else if c.dir ≠ 0 ∧ c.len = 0 then some .zeroLen
  else none

/-- The data of a write command, from the buffer. -/
def State.qspiData (s : State) (n : Nat) : List Nat :=
  ((List.range 64).flatMap fun i => byteNats (leBytes 4 (s.rd (CCX_QSP_BUF i)))).take n

/-- A write of 1 to CCX_QSP_GO: the command is turned away, or is sent (R305, R306). -/
def State.qspiGo (s : State) : State :=
  if s.ccx.qspi.isSome then s
  else
    let c := s.qspiCmd
    match s.qspiStop c with
    | some code => s.wr CCX_QSP_CODE (codeOf code)
    | none =>
      let s := (s.setCcx fun x => { x with qspi := some c }).wr CCX_QSP_GO 1
      s.send .qspi ([c.opc, s.rd CCX_QSP_DUMMY, c.dir, s.rd CCX_QSP_HASADDR, c.addr, c.len,
        s.rd CCX_QSP_LANES, s.rd CCX_QSP_A4, s.rd CCX_QSP_DIV]
        ++ if c.dir = 2 then s.qspiData c.len else [])

/-- Bytes of the flash stored in the buffer from its start. -/
def State.qspiFill (s : State) (l : List Byte) : State :=
  (List.range 64).foldl (fun s i =>
    let old := leBytes 4 (s.rd (CCX_QSP_BUF i))
    let new := (l.drop (4 * i)).take 4
    if new = [] then s else s.wr (CCX_QSP_BUF i) (leNat (new ++ old.drop new.length))) s

/-- QSPI_COMPLETE (R305): the command that runs completes; `data`: what the flash returned. -/
def execQspiComplete (data : List Byte) (s : State) : Result :=
  .next (
    match s.ccx.qspi with
    | none => s
    | some c =>
      let s := s.setCcx fun x => { x with qspi := none }
      let s := if c.dir = 1 then s.qspiFill (padTo c.len data) else s
      (s.wr CCX_QSP_GO 0).wr CCX_QSP_CODE (codeOf .ok))

/-! ## Register access -/

/-- Writes of pages 0x0A0 to 0x0A3 (Tables 12-10 to 12-13). -/
def ccxWrite : Writer := fun s q d =>
  if q.page = 0x0A0 then
    if q.off = 0x040 then
      let s := s.storeWord q.page q.off d
      let s := (bitsSet (bits d 8 4) 4).foldl (fun s h => s.resetHart h) s
      (.ok, s.runHarts)
    else if q.off = 0x048 then storeIf (bits d 0 16 != 0) s q d
    else if q.off = 0x04C then
      (.ok, (bitsSet (bits d 0 4) 4).foldl (fun s h => s.setHart h fun x => { x with kicked := s.clk }) s)
    else plainWrite s q d
  else if q.page = 0x0A2 then
    if q.off = 0x040 then storeIf (decide (bits d 0 3 ≤ 3) && bits d 4 2 != 3) s q d
    else if q.off = 0x044 then
      (.ok, if bit d 0 then (s.setCcx fun c => { c with training := true }).wr CCX_DDR_INIT 1 else s)
    else plainWrite s q d
  else if q.page = 0x0A3 then
    if q.off = 0x040 then storeIf (bits d 0 2 != 3 && bits d 8 4 != 0) s q d
    else if q.off = 0x044 then storeIf (bits d 12 2 != 3) s q d
    else if q.off = 0x04C then storeIf (decide (bits d 0 9 ≤ 256)) s q d
    else if q.off = 0x050 then (.ok, if bit d 0 then s.qspiGo else s)
    else plainWrite s q d
  else plainWrite s q d

/-- CCX_DDR_INIT (R304): a write of 1 to CCX_DDR_INIT. -/
def execCcxDdrInit (w : RegWrite) (s : State) : Result :=
  .next (s.writeReg ccxWrite 0x0A2 0x044 w (setBit · 0))

/-- CCX_QSP_GO (R305): a write of 1 to CCX_QSP_GO. -/
def execCcxQspGo (w : RegWrite) (s : State) : Result :=
  .next (s.writeReg ccxWrite 0x0A3 0x050 w (setBit · 0))

/-- CCX_KICK (R314): a write of the bit of a hart in CCX_KICK. -/
def execCcxKick (hart : Fin 4) (w : RegWrite) (s : State) : Result :=
  .next (s.writeReg ccxWrite 0x0A0 0x04C w (setBit · hart.val))

/-- CCX_HRST (R539): a write of the bit of a hart in CCX_HRST. -/
def execCcxHrst (hart : Fin 4) (w : RegWrite) (s : State) : Result :=
  .next (s.writeReg ccxWrite 0x0A0 0x040 w (setBit · (8 + hart.val)))

end Sys2Proof.Machine
end

