-- ==== Sys2Proof/Machine/Crypto.lean ====
section
/-! DEFINITION. The algorithms of the security engine and of the powerline MAC (R362, R430): SHA-256,
HMAC-SHA-256, HKDF-SHA-256, AES-128 and AES-256 in CCM mode, and ECDSA and ECDH over P-256. The
standards that the rules name (FIPS 180-4, FIPS 198-1, RFC 5869, FIPS 197, SP 800-38C, FIPS 186-4)
define them. -/

namespace Sys2Proof.Machine

/-! ## SHA-256 (FIPS 180-4) -/

/-- The round constants. -/
def shaK : List Nat :=
  [0x428a2f98, 0x71374491, 0xb5c0fbcf, 0xe9b5dba5, 0x3956c25b, 0x59f111f1, 0x923f82a4, 0xab1c5ed5,
   0xd807aa98, 0x12835b01, 0x243185be, 0x550c7dc3, 0x72be5d74, 0x80deb1fe, 0x9bdc06a7, 0xc19bf174]
  ++
  [0xe49b69c1, 0xefbe4786, 0x0fc19dc6, 0x240ca1cc, 0x2de92c6f, 0x4a7484aa, 0x5cb0a9dc, 0x76f988da,
   0x983e5152, 0xa831c66d, 0xb00327c8, 0xbf597fc7, 0xc6e00bf3, 0xd5a79147, 0x06ca6351, 0x14292967]
  ++
  [0x27b70a85, 0x2e1b2138, 0x4d2c6dfc, 0x53380d13, 0x650a7354, 0x766a0abb, 0x81c2c92e, 0x92722c85,
   0xa2bfe8a1, 0xa81a664b, 0xc24b8b70, 0xc76c51a3, 0xd192e819, 0xd6990624, 0xf40e3585, 0x106aa070]
  ++
  [0x19a4c116, 0x1e376c08, 0x2748774c, 0x34b0bcb5, 0x391c0cb3, 0x4ed8aa4a, 0x5b9cca4f, 0x682e6ff3,
   0x748f82ee, 0x78a5636f, 0x84c87814, 0x8cc70208, 0x90befffa, 0xa4506ceb, 0xbef9a3f7, 0xc67178f2]

/-- The eight working words. -/
structure ShaWords where
  a : Word
  b : Word
  c : Word
  d : Word
  e : Word
  f : Word
  g : Word
  h : Word
  deriving DecidableEq, Repr

/-- The initial hash value. -/
def shaInit : ShaWords :=
  ⟨0x6a09e667, 0xbb67ae85, 0x3c6ef372, 0xa54ff53a, 0x510e527f, 0x9b05688c, 0x1f83d9ab, 0x5be0cd19⟩

/-- The message schedule after the words at hand, newest first, extended by `n` words. -/
def shaExtend : Nat → List Word → List Word
  | 0, l => l
  | n + 1, l =>
    let w2 := l.getD 1 0
    let w7 := l.getD 6 0
    let w15 := l.getD 14 0
    let w16 := l.getD 15 0
    let s0 := w15.rotateRight 7 ^^^ w15.rotateRight 18 ^^^ (w15 >>> 3)
    let s1 := w2.rotateRight 17 ^^^ w2.rotateRight 19 ^^^ (w2 >>> 10)
    shaExtend n ((w16 + s0 + w7 + s1) :: l)

/-- One round with the sum of its constant and its schedule word. -/
def shaRound (x : ShaWords) (kw : Word) : ShaWords :=
  let s1 := x.e.rotateRight 6 ^^^ x.e.rotateRight 11 ^^^ x.e.rotateRight 25
  let ch := (x.e &&& x.f) ^^^ (~~~x.e &&& x.g)
  let t1 := x.h + s1 + ch + kw
  let s0 := x.a.rotateRight 2 ^^^ x.a.rotateRight 13 ^^^ x.a.rotateRight 22
  let maj := (x.a &&& x.b) ^^^ (x.a &&& x.c) ^^^ (x.b &&& x.c)
  ⟨t1 + (s0 + maj), x.a, x.b, x.c, x.d + t1, x.e, x.f, x.g⟩

/-- One block of 64 bytes. -/
def shaBlock (x : ShaWords) (block : List Byte) : ShaWords :=
  let ws := (List.range 16).map fun i => BitVec.ofNat 32 (beNat ((block.drop (4 * i)).take 4))
  let sched := (shaExtend 48 ws.reverse).reverse
  let y := (List.zip shaK sched).foldl (fun y kw => shaRound y (BitVec.ofNat 32 kw.1 + kw.2)) x
  ⟨x.a + y.a, x.b + y.b, x.c + y.c, x.d + y.d, x.e + y.e, x.f + y.f, x.g + y.g, x.h + y.h⟩

/-- `n` blocks. -/
def shaBlocks : Nat → ShaWords → List Byte → ShaWords
  | 0, x, _ => x
  | n + 1, x, l => shaBlocks n (shaBlock x (l.take 64)) (l.drop 64)

/-- SHA-256 of a byte string, 32 bytes. -/
def sha256 (m : List Byte) : List Byte :=
  let zeros := (119 - m.length % 64) % 64
  let p := m ++ 0x80#8 :: List.replicate zeros 0#8 ++ beBytes 8 (8 * m.length)
  let x := shaBlocks (p.length / 64) shaInit p
  [x.a, x.b, x.c, x.d, x.e, x.f, x.g, x.h].flatMap fun w => beBytes 4 w.toNat

/-! ## HMAC-SHA-256 (FIPS 198-1), HKDF-SHA-256 (RFC 5869) -/

/-- HMAC-SHA-256. -/
def hmac (key m : List Byte) : List Byte :=
  let k := padTo 64 (if 64 < key.length then sha256 key else key)
  sha256 (k.map (· ^^^ 0x5C#8) ++ sha256 (k.map (· ^^^ 0x36#8) ++ m))

/-- The first `n` bytes, at most 32, of HKDF-SHA-256. -/
def hkdf (salt ikm info : List Byte) (n : Nat) : List Byte :=
  (hmac (hmac salt ikm) (info ++ [1#8])).take n

/-! ## AES (FIPS 197) -/

/-- Doubling in the field of AES. -/
def xtime (b : Byte) : Byte := BitVec.ofNat 8 (if 128 ≤ b.toNat then (2 * b.toNat) ^^^ 0x11B else 2 * b.toNat)

/-- The table of SubBytes: for each high half byte the values of its 16 bytes, the first lowest. -/
def sBox : List Nat :=
  [0x76abd7fe2b670130c56f6bf27b777c63, 0xc072a49cafa2d4adf04759fa7dc982ca,
   0x1531d871f1e5a534ccf73f362693fdb7, 0x75b227ebe28012079a059618c323c704,
   0x842fe329b3d63b52a05a6e1b1a2c8309, 0xcf584c4a39becb6a5bb1fc20ed00d153,
   0xa89f3c507f02f94585334d43fbaaefd0, 0xd2f3ff1021dab6bcf5389d928f40a351,
   0x73195d643d7ea7c41744975fec130ccd, 0xdb0b5ede14b8ee4688902a22dc4f8160,
   0x79e4959162acd3c25c2406490a3a32e0, 0x08ae7a65eaf4566ca94ed58d6d37c8e7,
   0x8a8bbd4b1f74dde8c6b4a61c2e2578ba, 0x9e1dc186b95735610ef6034866b53e70,
   0xdf2855cee9871e9b948ed9691198f8e1, 0x16bb54b00f2d99416842e6bf0d89a18c]

/-- The substitution of SubBytes. -/
def subByte (b : Byte) : Byte := BitVec.ofNat 8 ((sBox.getD (b.toNat / 16) 0) >>> (8 * (b.toNat % 16)))

/-- The exclusive or of two byte strings of one length. -/
def xorBytes (a b : List Byte) : List Byte := (List.zip a b).map fun x => x.1 ^^^ x.2

/-- The expanded key after the words at hand, newest first, `n` words more; `nk` key words, `rcon` the
present round constant, `i` the number of the word made next. -/
def aesExpand (nk : Nat) : Nat → Nat → Byte → List (List Byte) → List (List Byte)
  | 0, _, _, l => l
  | n + 1, i, rcon, l =>
    let prev := l.getD 0 []
    let old := l.getD (nk - 1) []
    if i % nk = 0 then
      let r := (prev.drop 1 ++ prev.take 1).map subByte
      let t := xorBytes r [rcon, 0, 0, 0]
      aesExpand nk n (i + 1) (xtime rcon) (xorBytes old t :: l)
    else
      let t := if nk = 8 ∧ i % nk = 4 then prev.map subByte else prev
      aesExpand nk n (i + 1) rcon (xorBytes old t :: l)

/-- The round keys, 16 bytes each, of a key of 16 or 32 bytes. -/
def aesKeys (key : List Byte) : List (List Byte) :=
  let nk := key.length / 4
  let nr := nk + 6
  let ws := (List.range nk).map fun i => (key.drop (4 * i)).take 4
  let all := (aesExpand nk (4 * (nr + 1) - nk) nk 1#8 ws.reverse).reverse
  (List.range (nr + 1)).map fun r => ((all.drop (4 * r)).take 4).flatten

/-- ShiftRows; byte r + 4c stands in row r, column c. -/
def shiftRows (s : List Byte) : List Byte :=
  (List.range 16).map fun k => s.getD ((k + 4 * (k % 4)) % 16) 0

/-- MixColumns on one column. -/
def mixColumn (c : List Byte) : List Byte :=
  (List.range 4).map fun i =>
    let a (j : Nat) := c.getD ((i + j) % 4) 0
    xtime (a 0) ^^^ (xtime (a 1) ^^^ a 1) ^^^ a 2 ^^^ a 3

/-- MixColumns. -/
def mixColumns (s : List Byte) : List Byte :=
  (List.range 4).flatMap fun c => mixColumn ((s.drop (4 * c)).take 4)

/-- The rounds after the first key addition. -/
def aesRounds : List (List Byte) → List Byte → List Byte
  | [], s => s
  | [k], s => xorBytes (shiftRows (s.map subByte)) k
  | k :: ks, s => aesRounds ks (xorBytes (mixColumns (shiftRows (s.map subByte))) k)

/-- The AES cipher on one block. -/
def aes (keys : List (List Byte)) (block : List Byte) : List Byte :=
  match keys with
  | [] => block
  | k :: ks => aesRounds ks (xorBytes block k)

/-! ## CCM (SP 800-38C) -/

/-- Blocks of 16 bytes, the last padded with zeros; `n` blocks. -/
def blocks16 : Nat → List Byte → List (List Byte)
  | 0, _ => []
  | n + 1, l => padTo 16 l :: blocks16 n (l.drop 16)

/-- A byte string as padded blocks. -/
def padBlocks (l : List Byte) : List (List Byte) := blocks16 ((l.length + 15) / 16) l

/-- The length prefix of the associated data. -/
def aadPrefix (n : Nat) : List Byte :=
  if n = 0 then [] else if n < 0xFF00 then beBytes 2 n else [0xFF, 0xFE] ++ beBytes 4 n

/-- The CBC-MAC value of CCM before its encryption: `t` tag bytes; the length field has 15 less the
nonce length bytes. -/
def ccmMac (keys : List (List Byte)) (nonce aad msg : List Byte) (t : Nat) : List Byte :=
  let q := 15 - nonce.length
  let flags := (if aad = [] then 0 else 64) + (t - 2) / 2 * 8 + (q - 1)
  let b0 := BitVec.ofNat 8 flags :: nonce ++ beBytes q msg.length
  let all := b0 :: (padBlocks (aadPrefix aad.length ++ aad) ++ padBlocks msg)
  all.foldl (fun x b => aes keys (xorBytes x b)) (List.replicate 16 0)

/-- The counter block with number `i`. -/
def ccmCtr (nonce : List Byte) (i : Nat) : List Byte :=
  BitVec.ofNat 8 (14 - nonce.length) :: nonce ++ beBytes (15 - nonce.length) i

/-- A byte string enciphered or deciphered in counter mode from counter 1. -/
def ccmStream (keys : List (List Byte)) (nonce msg : List Byte) : List Byte :=
  let ks := (List.range ((msg.length + 15) / 16)).flatMap fun i => aes keys (ccmCtr nonce (i + 1))
  xorBytes msg ks

/-- The tag of a message. -/
def ccmTag (keys : List (List Byte)) (nonce aad msg : List Byte) (t : Nat) : List Byte :=
  (xorBytes (ccmMac keys nonce aad msg t) (aes keys (ccmCtr nonce 0))).take t

/-- CCM encryption: ciphertext, then tag of `t` bytes. -/
def ccmSeal (key nonce aad msg : List Byte) (t : Nat) : List Byte :=
  let keys := aesKeys key
  ccmStream keys nonce msg ++ ccmTag keys nonce aad msg t

/-- CCM decryption of ciphertext and tag: the payload where the tag matches. -/
def ccmOpen (key nonce aad ct : List Byte) (t : Nat) : Option (List Byte) :=
  if ct.length < t then none
  else
    let keys := aesKeys key
    let n := ct.length - t
    let msg := ccmStream keys nonce (ct.take n)
    if ccmTag keys nonce aad msg t = ct.drop n then some msg else none

/-! ## P-256 (FIPS 186-4) -/

/-- The field prime. -/
def ecP : Nat := 0xffffffff00000001000000000000000000000000ffffffffffffffffffffffff

/-- The group order. -/
def ecN : Nat := 0xffffffff00000000ffffffffffffffffbce6faada7179e84f3b9cac2fc632551

/-- The coefficient b; a is -3. -/
def ecB : Nat := 0x5ac635d8aa3a93e7b3ebbd55769886bc651d06b0cc53b0f63bce3c3e27d2604b

/-- The base point. -/
def ecG : Nat × Nat :=
  (0x6b17d1f2e12c4247f8bce6e563a440f277037d812deb33a0f4a13945d898c296,
   0x4fe342e2fe1a7f9b8ee7eb4a7c0f9e162bce33576b315ececbb6406837bf51f5)

/-- `b` to the power given by the lowest `n` bits of `e`, modulo `m`. -/
def powMod (m : Nat) : Nat → Nat → Nat → Nat
  | 0, _, _ => 1 % m
  | n + 1, b, e =>
    let r := powMod m n (b * b % m) (e / 2)
    if e % 2 = 1 then r * b % m else r

/-- The inverse modulo a prime below 2^256. -/
def invMod (m a : Nat) : Nat := powMod m 256 (a % m) (m - 2)

/-- The difference modulo `m`. -/
def subMod (m a b : Nat) : Nat := (a % m + m - b % m) % m

/-- A point; none is the point at infinity. -/
abbrev EcPoint := Option (Nat × Nat)

/-- The sum of two points. -/
def ecAdd (p q : EcPoint) : EcPoint :=
  match p, q with
  | none, q => q
  | p, none => p
  | some (x1, y1), some (x2, y2) =>
    if x1 = x2 ∧ (y1 + y2) % ecP = 0 then none
    else
      let l := if x1 = x2 then (3 * x1 * x1 + ecP - 3) * invMod ecP (2 * y1) % ecP
        else subMod ecP y2 y1 * invMod ecP (subMod ecP x2 x1) % ecP
      let x := subMod ecP (l * l) (x1 + x2)
      some (x, subMod ecP (l * subMod ecP x1 x) y1)

/-- The multiple of a point by the lowest `n` bits of `k`. -/
def ecMul : Nat → Nat → EcPoint → EcPoint
  | 0, _, _ => none
  | n + 1, k, p =>
    let r := ecMul n (k / 2) (ecAdd p p)
    if k % 2 = 1 then ecAdd p r else r

/-- A point lies on the curve and is not the point at infinity. -/
def onCurve (x y : Nat) : Bool :=
  decide (x < ecP) && decide (y < ecP)
    && (y * y % ecP == (x * x * x + (ecP - 3) * x + ecB) % ecP)

/-- The public key of a scalar. -/
def ecPublic (d : Nat) : Nat × Nat := (ecMul 256 d (some ecG)).getD (0, 0)

/-- 64 bytes of a point: X, then Y. -/
def pointBytes (p : Nat × Nat) : List Byte := beBytes 32 p.1 ++ beBytes 32 p.2

/-- The signature of a digest with the nonce `k`; none where r or s is zero. -/
def ecdsaSign (d k : Nat) (digest : List Byte) : Option (Nat × Nat) :=
  let r := ((ecMul 256 k (some ecG)).getD (0, 0)).1 % ecN
  let s := invMod ecN k * (beNat digest + r * d) % ecN
  if r = 0 ∨ s = 0 then none else some (r, s)

/-- The verification of a signature under a public key. -/
def ecdsaVerify (q : Nat × Nat) (digest : List Byte) (r s : Nat) : Bool :=
  if r = 0 ∨ s = 0 ∨ ecN ≤ r ∨ ecN ≤ s ∨ onCurve q.1 q.2 = false then false
  else
    let w := invMod ecN s
    let u1 := beNat digest * w % ecN
    let u2 := r * w % ecN
    match ecAdd (ecMul 256 u1 (some ecG)) (ecMul 256 u2 (some q)) with
    | none => false
    | some (x, _) => x % ecN == r

end Sys2Proof.Machine
end

