-- ==== Sys2Proof/Machine/Plp.lean ====
section
/-! DEFINITION. The pulse channel (chapter 13): slots and streams, the decision of symbols, frames, ack
windows and downlinks. -/

namespace Sys2Proof.Machine

open Reg

/-- The state with what the PLP holds changed. -/
def State.setPlp (s : State) (f : PlpState → PlpState) : State := { s with plp := f s.plp }

/-- Stream `n`. -/
def State.plpStream (s : State) (n : Nat) : PlpStream := cellAt {} n s.plp.streams

/-- The state with stream `n` changed. -/
def State.setStream (s : State) (n : Nat) (f : PlpStream → PlpStream) : State :=
  s.setPlp fun p => { p with streams := cellPut {} n (f (s.plpStream n)) p.streams }

/-! ## Slots -/

/-- The window of an entry covers -5,120 to +5,120 ct about its anchor (R342). -/
def usableWindow (e : Nat) : Bool :=
  let a := signed 16 (entStart e)
  decide (a ≤ -5120) && decide (5120 ≤ a + entLen e)

/-- The stream of scheduling entry `n` (R343). -/
def State.streamOf (s : State) (n : Nat) : Option Nat :=
  if s.on (PLP_EMAP_VAL n) then some (s.rd (PLP_EMAP_STR n)) else none

/-- Entries of the pulse channel that act in the present cycle on the anchor of entry `n`, with
window (R342, R343). -/
def State.sharedSlot (s : State) (n : Nat) : List Nat :=
  let a := entAnch (s.activeEntry n)
  (s.ctf.active.filter fun x =>
    let e := x.2.toNat
    entCons e == 2 && entSig e == 0 && entAnch e == a && s.entryActs e && usableWindow e).map (·.1)

/-- The streams that a slot of entry `n` belongs to (R343). -/
def State.slotStreams (s : State) (n : Nat) : List Nat :=
  (List.range 64).filter fun k => (n :: s.sharedSlot n).any fun m => s.streamOf m == some k

/-- The channel of an anchor, codes 1 to 6; anchor 0x0 stands for CTF_ORIGIN (R342). -/
def State.anchorChannel (s : State) (a : Nat) : Nat := if a = 0 then s.rd CTF_ORIGIN else a % 8

/-- Slots are decided: not in HOLDOVER or FREE (R347). -/
def State.slotsDecided (s : State) : Bool := s.ctfSt != ctfHoldover && s.ctfSt != ctfFree

/-! ## Downlink (R348) -/

/-- The bytes of a pulse frame (Table 13-10). -/
def pulseFrame (down : Bool) (data : List Byte) : List Byte :=
  let body := BitVec.ofNat 8 (data.length + 64 * b2n down) :: data
  [0xE4, 0x1B] ++ body ++ beBytes 2 (crc16 body)

/-- The dibits of bytes, most significant first (R346). -/
def dibits (l : List Byte) : List Nat :=
  l.flatMap fun b => [b.toNat / 64, b.toNat / 16 % 4, b.toNat / 4 % 4, b.toNat % 4]

/-- The byte of four dibits. -/
def undibit (l : List Nat) : Nat := l.foldl (fun a d => 4 * a + d % 4) 0

/-- The bytes of dibits. -/
def undibits : Nat → List Nat → List Byte
  | 0, _ => []
  | n + 1, l => BitVec.ofNat 8 (undibit (l.take 4)) :: undibits n (l.drop 4)

/-- A pulse on the bus and phase of a channel (Table 13-8). -/
def State.pulse (s : State) (chan dibit : Nat) : State :=
  let bus := (chan - 1) / 3
  let phase := (chan - 1) % 3 + 1
  (s.setPlp fun p => { p with drv := (bus + 1, phase) }).send .pulse [bus + 1, phase, dibit]

/-- A downlink request has completed: the MAC learns its code and the symbols sent. -/
structure DownDone where
  ref  : Nat
  code : Status
  sent : Nat
  deriving DecidableEq, Repr

/-- A downlink of stream `n` ends (R348, Table 13-17). -/
def State.endDownlink (s : State) (n : Nat) (c : Status) : Option DownDone × State :=
  let x := s.plpStream n
  match x.queued with
  | none => (none, s)
  | some d =>
    let sent := match x.send with
      | some y => y.2
      | none => 0
    let s := (s.setStream n fun x => { x with queued := none, send := none }).raise 0x0B4 1
    (some ⟨d.ref, c, sent⟩, if c = .ok then s.count PLP_DLN else s)

/-- The slot of stream `n` carries a symbol of its downlink: one that is being sent, or one that starts in
slot 1 or 2 of the ack window (R348). -/
def State.downSlot (s : State) (n : Nat) : Option (List Nat × Nat) :=
  let x := s.plpStream n
  match x.send with
  | some y => some y
  | none =>
    match x.queued, x.ack with
    | some d, some k =>
      if k < 2 ∧ s.level ≤ 2 ∧ s.on PLP_DLEN then some (dibits (pulseFrame true d.data), 0) else none
    | _, _ => none

/-- A slot of the ack window passes: nine of them (R348). -/
def PlpStream.ackPass (x : PlpStream) : PlpStream :=
  { x with ack := match x.ack with
      | some k => if k + 1 < 9 then some (k + 1) else none
      | none => none }

/-! ## Frames (R346, R347) -/

/-- The dibits of the sync. -/
def syncDibits : List Nat := dibits [0xE4, 0x1B]

/-- What a decided symbol makes of a stream. -/
inductive SlotEffect where
  | none
  | erased
  | failed
  | frame (f : PulseIn)
  deriving DecidableEq, Repr

/-- A frame in progress takes a symbol; erased and idle symbols count as dibit 0 (R347). -/
def frameStep (n : Nat) (f : PlpFrame) (d c : Nat) (held : Bool) : Option PlpFrame × SlotEffect :=
  let f := { f with syms := f.syms ++ [if d = 4 then 0 else d], least := min f.least c,
                    held := f.held || held }
  let len := undibit (f.syms.take 4)
  let k := f.syms.length
  if k < 4 then (some f, .none)
  else if len % 64 = 0 ∨ 32 < len % 64 ∨ 128 ≤ len then (none, .failed)
  else if k < 4 + 4 * (len % 64) + 8 then (some f, .none)
  else
    let body := undibits (1 + len % 64) f.syms
    let crc := undibits 2 (f.syms.drop (4 + 4 * (len % 64)))
    if beNat crc ≠ crc16 body then (none, .failed)
    else (none, .frame ⟨n, body.drop 1, decide (64 ≤ len), f.start, f.least, f.held⟩)

/-- Stream `n` takes a decided symbol: dibit, 4 for idle or erasure (R347). -/
def PlpStream.take (x : PlpStream) (n d c stamp : Nat) (held : Bool) : PlpStream × SlotEffect :=
  match x.frame with
  | some f =>
    let r := frameStep n f d c held
    let x := { x with frame := r.1, recent := [] }
    match r.2 with
    | .frame p => ({ x with ack := if p.down then x.ack else some 0 }, .frame p)
    | e => (x, e)
  | none =>
    let l := (x.recent ++ [(d, c, stamp, held)])
    let l := l.drop (l.length - 8)
    if l.map (·.1) = syncDibits then
      ({ x with recent := [], frame := some {
          syms := [], start := ((l.head?.map (·.2.2.1)).getD 0),
          least := (l.map (·.2.1)).foldl min c, held := l.any (·.2.2.2) } }, .none)
    else ({ x with recent := l }, .none)

/-! ## Decisions (R345) -/

/-- The position of the largest correlation and the second largest. -/
def bestTwo (c : List Nat) : Nat × Nat × Nat :=
  let m := c.foldl max 0
  let p := ((List.range 4).find? fun i => c.getD i 0 == m).getD 0
  (p, m, ((List.range 4).filter (· != p)).foldl (fun a i => max a (c.getD i 0)) 0)

/-- The decision: 0 symbol, 1 idle, 2 erasure (R345). -/
def State.decideSymbol (s : State) (c : List Nat) : Nat × Nat × Nat :=
  let b := bestTwo c
  let k := if b.2.1 < s.rd PLP_THR then 1 else if 8 * b.2.1 < s.rd PLP_MARG * b.2.2 then 2 else 0
  (k, b.1, b.2.1)

/-- The stamp of the anchor crossing of an entry in the present cycle. -/
def State.anchorStamp (s : State) (n : Nat) : Nat :=
  match s.anchorPhase (entAnch (s.activeEntry n)) with
  | some p => stampNat ⟨s.stamp.cyc, p⟩
  | none => stampNat s.stamp

/-- A slot of stream `n` that is not decided: a frame in progress breaks, a downlink is cut (R347,
R348). -/
def State.missSlot (s : State) (n : Nat) : Option DownDone × State :=
  let x := s.plpStream n
  let s := if x.frame.isSome then (s.count PLP_BRKN).raise 0x0B4 2 else s
  let s := s.setStream n fun x => { x.ackPass with frame := none, recent := [] }
  if x.send.isSome then s.endDownlink n .part else (none, s)

/-- A slot of stream `n` in which the PLP sends (R347, R348): `y`, the dibits left and the symbols
sent. -/
def State.sendSlot (s : State) (n chan : Nat) (y : List Nat × Nat) : Option DownDone × State :=
  match y.1 with
  | [] => (none, s)
  | d :: l =>
    let s := s.pulse chan d
    let x := s.plpStream n
    let s := if x.frame.isSome then (s.count PLP_BRKN).raise 0x0B4 2 else s
    let s := s.setStream n fun x => { x.ackPass with frame := none, recent := [], send := some (l, y.2 + 1) }
    if l = [] then s.endDownlink n .ok else (none, s)

/-- A slot of stream `n` with a decided symbol (R347): delivered frames. -/
def State.takeSlot (s : State) (n d c stamp : Nat) : List PulseIn × State :=
  let x := s.plpStream n
  let erased := x.frame.isSome && d == 4
  let r := x.take n d c stamp (s.ctfSt == ctfFlywheel)
  let passed := if x.ack.isSome && r.1.ack == x.ack then r.1.ackPass else r.1
  let s := s.setStream n fun _ => passed
  let s := if erased then s.count PLP_ERSN else s
  match r.2 with
  | .failed => ([], (s.count PLP_CRCN).raise 0x0B4 2)
  | .frame p => ([p], (s.count PLP_FRMN).raise 0x0B4 0)
  | _ => ([], s)

/-- The decision on a slot of entry `n` with its correlations (R345, R347, R348): the frames delivered and the
downlinks completed. -/
def State.decideSlot (s : State) (n : Nat) (c : List Nat) : List PulseIn × List DownDone × State :=
  let e := s.activeEntry n
  let streams := s.slotStreams n
  if s.on PLP_EN = false then ([], [], s)
  else if !s.slotsDecided || !entEn e || entCons e != 2 || entSig e != 0 || !usableWindow e then
    streams.foldl (fun x k =>
      let r := x.2.2.missSlot k
      (x.1, x.2.1 ++ r.1.toList, r.2)) ([], [], s)
  else
    let chan := s.anchorChannel (entAnch e)
    let stamp := s.anchorStamp n
    if streams.any fun k => (s.downSlot k).isSome then
      streams.foldl (fun x k =>
        let t := x.2.2
        let r := match t.downSlot k with
          | some y => t.sendSlot k chan y
          | none => t.missSlot k
        (x.1, x.2.1 ++ r.1.toList, r.2)) ([], [], s)
    else
      let v := s.decideSymbol c
      let s := ((s.wr PLP_LASTC (v.2.2 % 65536)).wr PLP_LASTP v.2.1).wr PLP_LASTK v.1
      let s := s.wr PLP_LASTS (streams.headD 0)
      streams.foldl (fun x k =>
        let r := x.2.2.takeSlot k (if v.1 = 0 then v.2.1 else 4) v.2.2 stamp
        (x.1 ++ r.1, x.2.1, r.2)) ([], [], s)

/-- A pulse entry asserts its signal: an unusable window is ignored and counted (R342). -/
def State.plpWindow (s : State) (n : Nat) : State :=
  let e := s.activeEntry n
  if s.on PLP_EN ∧ entCons e = 2 ∧ usableWindow e = false then (s.count PLP_BADWIN).raise 0x0B4 2 else s

/-- Entry into D3: downlinks that are being sent are cut (R348). -/
def State.plpEnterD3 (s : State) : List DownDone × State :=
  (List.range 64).foldl (fun x k =>
    if (x.2.plpStream k).send.isSome then
      let r := x.2.endDownlink k .part
      (x.1 ++ r.1.toList, r.2)
    else x) ([], s)

/-! ## Register access -/

/-- Writes of page 0x0B4 (R350). -/
def plpWrite : Writer := fun s q d =>
  let c : Status := match q.off with
    | 0x044 => if bits d 16 4 < 8 then .cfgInvalid else .ok
    | 0x048 => if bits d 0 16 = 0 then .zeroLen else .ok
    | _ => .ok
  let s := if c = .ok then s.storeWord q.page q.off d else s
  (c, s.wr PLP_CCODE (codeOf c))

end Sys2Proof.Machine
end

