-- ==== Sys2Proof/Machine/Plt.lean ====
section
/-! DEFINITION. The tone channel (chapter 13): active tones, the coding of frames, the choice of the mode,
tone-map sets, and the line driver. -/

namespace Sys2Proof.Machine

open Reg

/-- The state with what the PLT holds changed. -/
def State.setPlt (s : State) (f : PltState → PltState) : State := { s with plt := f s.plt }

/-- What the PLT keeps of neighbour `i`. -/
def State.link (s : State) (i : Nat) : PltLink := cellAt {} i s.plt.links

/-- The state with what the PLT keeps of neighbour `i` changed. -/
def State.setLink (s : State) (i : Nat) (f : PltLink → PltLink) : State :=
  s.setPlt fun p => { p with links := cellPut {} i (f (s.link i)) p.links }

/-! ## Tones -/

/-- The tones of a band plan (Table 13-1): the first and the number. -/
def bandTones (b : Nat) : List Nat :=
  let r : Nat × Nat := match b with
    | 1 => (8, 12)
    | 2 => (21, 11)
    | 3 => (33, 31)
    | 4 => (33, 72)
    | _ => (0, 0)
  (List.range r.2).map (r.1 + ·)

/-- The active tones of a plan under masks (R320, R321). -/
def activeTones (band : Nat) (bandC : Bool) (mask : Nat → Nat) : List Nat :=
  (bandTones band).filter fun k =>
    !bit (mask (k / 32)) (k % 32) && !(band == 2 && !bandC && decide (27 ≤ k) && decide (k ≤ 30))

/-- The active tones (R320). -/
def State.tones (s : State) : List Nat :=
  activeTones (s.rd PLT_BAND) (s.on PLT_BANDC_EN) fun w => s.rd (PLT_TMASK w)

/-- N_T (R320). -/
def State.nTones (s : State) : Nat := s.tones.length

/-! ## Coding (R325, R326, R330) -/

/-- The bits of bytes, each byte least significant bit first. -/
def bitsOf (l : List Byte) : List Bool := l.flatMap fun b => (List.range 8).map fun i => b.getLsbD i

/-- The scrambling of x^7 + x^4 + 1, the register as its last seven output bits, newest first. -/
def scramble : List Bool → List Bool → List Bool
  | _, [] => []
  | r, b :: l =>
    let n := r.getD 6 false ^^ r.getD 3 false
    (b ^^ n) :: scramble (n :: r.take 6) l

/-- The outputs of the convolutional code of constraint length 7, generators 133 and 171 (octal), for
each input bit; the register holds the last six input bits, newest first. -/
def convolve : List Bool → List Bool → List (Bool × Bool)
  | _, [] => []
  | r, b :: l =>
    let x (i : Nat) := r.getD i false
    (b ^^ x 1 ^^ x 2 ^^ x 4 ^^ x 5, b ^^ x 0 ^^ x 1 ^^ x 2 ^^ x 5) :: convolve (b :: r.take 5) l

/-- Puncturing at a rate: 0 1/2, 1 2/3, 2 3/4 (R326). -/
def puncture (rate : Nat) (l : List (Bool × Bool)) : List Bool :=
  (l.zip (List.range l.length)).flatMap fun x =>
    let a := x.1.1
    let b := x.1.2
    match rate with
    | 0 => [a, b]
    | 1 => if x.2 % 2 = 0 then [a, b] else [a]
    | _ => if x.2 % 3 = 0 then [a, b] else if x.2 % 3 = 1 then [a] else [b]

/-- The coded bits of an FCH (R325). -/
def fchBits (fch : List Byte) : List Bool :=
  puncture 0 (convolve [] (bitsOf fch ++ List.replicate 6 false))

/-- The coded stream of a payload in a mode at a rate (R326, R330). -/
def codedStream (mode rate : Nat) (payload : List Byte) : List Bool :=
  let l := puncture rate (convolve [] (scramble (List.replicate 7 true) (bitsOf payload)
    ++ List.replicate 6 false))
  if mode = 0 then l ++ l ++ l ++ l else l

/-- The number of bits of the coded stream of `n` bytes. -/
def codedLen (mode rate n : Nat) : Nat :=
  let k := 8 * n + 6
  match rate with
  | 0 => if mode = 0 then 8 * k else 2 * k
  | 1 => 2 * k - k / 2
  | _ => 2 * k - (k + 1) / 3 - k / 3

/-! ## Symbols (R327 to R330) -/

/-- The segment of payload symbol `n` (R327). -/
def segmentOf (ph0 tsc n : Nat) : Nat := (ph0 * 64 + n * tsc) / 524288 % 8

/-- The half-cycle of payload symbol `n` (R327). -/
def halfOf (ph0 tsc n : Nat) : Nat := (ph0 * 64 + n * tsc) / 2097152

/-- The codes of the active tones in payload symbol `n`: segment maps in mode 1, the cycle-blind map in
mode 2, DBPSK throughout in mode 0 (R328, R330). -/
def symbolCodes (mode nt : Nat) (maps : List (List Nat)) (ph0 tsc n : Nat) : List Nat :=
  match mode with
  | 0 => List.replicate nt 1
  | 1 => maps.getD (segmentOf ph0 tsc n) []
  | _ => maps.getD 8 []

/-- The sum of a list. -/
def sumNat (l : List Nat) : Nat := l.foldl (· + ·) 0

/-- The least number of payload symbols whose capacity holds `need` bits, from symbol `n` on, at most
1,023 (R326). -/
def symbolsFor (cap : Nat → Nat) : Nat → Nat → Nat → Nat
  | 0, n, _ => n
  | fuel + 1, n, need =>
    if need = 0 then n
    else symbolsFor cap fuel (n + 1) (need - min need (cap n))

/-- The smallest prime above the square root of `l` that does not divide it (R329). -/
def interleavePrime (l : Nat) : Nat :=
  let isPrime (p : Nat) := decide (2 ≤ p) && (List.range p).all fun d => d < 2 || p % d != 0
  (((List.range (isqrt l + 64)).filter fun p => isqrt l < p && isPrime p && l % p != 0).head?).getD 1

/-- A block interleaved: coded bit i at position i p mod L (R329). -/
def interleaveBlock (l : List Bool) : List Bool :=
  let n := l.length
  let p := interleavePrime n
  let inv := ((List.range n).map fun i => (i * p % max 1 n, l.getD i false))
  (List.range n).map fun j => ((inv.find? fun x => x.1 == j).map (·.2)).getD false

/-- The coded stream placed on the payload symbols: for each symbol the label of each active tone
(R328, R329). The symbols are given by their codes, the blocks by the half-cycle count. -/
def placeBlocks (codes : List (List Nat)) (blockOf : Nat → Nat) (stream : List Bool) :
    List (List Nat) :=
  let idx := List.range codes.length
  let cap (n : Nat) := sumNat (codes.getD n [])
  let blocks := (List.range (blockOf (codes.length - 1) + 1)).map fun b => idx.filter (blockOf · == b)
  let step (x : List Bool × List (List Nat)) (ns : List Nat) :=
    let len := sumNat (ns.map cap)
    let bl := interleaveBlock (x.1.take len ++ List.replicate (len - x.1.length) false)
    let place (y : List Bool × List (List Nat)) (n : Nat) :=
      let tones := (codes.getD n []).foldl (fun (z : List Bool × List Nat) c =>
        (z.1.drop c, z.2 ++ [(List.range c).foldl (fun a i => a + b2n (z.1.getD i false) * 2 ^ i) 0]))
        (y.1, [])
      (tones.1, y.2 ++ [tones.2])
    (x.1.drop len, (ns.foldl place (bl, x.2)).2)
  (blocks.foldl step (stream, [])).2

/-! ## The frame control header (Table 13-4) -/

/-- The fields of an FCH. -/
structure Fch where
  mode : Nat
  gen  : Nat
  nsym : Nat
  rate : Nat
  span : Nat
  ce   : Bool
  src  : Nat
  ph0  : Nat
  tsc  : Nat
  deriving DecidableEq, Repr

/-- The 12 bytes of an FCH with its check (R324, R325). -/
def Fch.bytes (f : Fch) : List Byte :=
  let b := leBytes 10 (f.mode + f.gen * 2 ^ 2 + f.nsym * 2 ^ 10 + f.rate * 2 ^ 20 + f.span * 2 ^ 22
    + b2n f.ce * 2 ^ 27 + f.src * 2 ^ 32 + f.ph0 * 2 ^ 40 + f.tsc * 2 ^ 56)
  b ++ leBytes 2 (crc16 b)

/-- The fields of a received FCH. -/
def fchOf (l : List Byte) : Fch :=
  let w := leNat l
  ⟨bits w 0 2, bits w 2 8, bits w 10 10, bits w 20 2, bits w 22 5, bit w 27, bits w 32 8, bits w 40 16,
    bits w 56 16⟩

/-- The check of a received FCH passes. -/
def fchGood (l : List Byte) : Bool := l.length == 12 && crc16 (l.take 10) == leNat (l.drop 10)

/-- A received FCH carries a reserved encoding (Table 13-4). -/
def Fch.reserved (f : Fch) : Bool :=
  f.mode == 3 || f.nsym == 0 || f.rate == 3 || f.span == 0 || decide (16 < f.span)

/-! ## Times -/

/-- REF48 clocks in ticks at the present period, rounded down. -/
def State.clocksToTicks (s : State) (n : Nat) : Nat := n * 65536 / max 1 (s.rd CTF_PERIOD)

/-- N_FCH (Table 13-3). -/
def nFch (nt : Nat) : Nat := ceilDiv 204 nt

/-- The clocks from the first preamble sample to payload symbol 0: 1,920 us, then 240 us a symbol. -/
def headClocks (nt : Nat) (ce : Bool) : Nat := 48 * (1920 + 240 * (nFch nt + 2 * b2n ce))

/-- The clocks of a frame. -/
def frameClocks (nt : Nat) (ce : Bool) (nsym : Nat) : Nat := headClocks nt ce + 48 * 240 * nsym

/-- PLT_F_TSC (R327). -/
def State.symbolTicks (s : State) : Nat := divRoundNat 48318382080 (max 1 (s.rd CTF_PERIOD)) % 65536

/-! ## Choosing the mode (Table 13-6) -/

/-- The tone channel is disabled: held off, gated, or without AUXOUT (R22, R321, R340). -/
def State.toneOff (s : State) : Bool :=
  !s.on PLT_EN || s.rd PLT_BAND == 0 || !bit (s.rd PMU_PG) 7 || decide (3 ≤ s.level)

/-- A map has a tone with a code that is not zero. -/
def mapUsed (m : List Nat) : Bool := m.any (· != 0)

/-- Some segment map of a set is used; the cycle-blind map is. -/
def MapSet.segments (m : MapSet) : Bool := (m.maps.take 8).any mapUsed
def MapSet.blind (m : MapSet) : Bool := mapUsed (m.maps.getD 8 [])

/-- The mode of Table 13-6 for a transmit map at a level. -/
def State.modeAt (s : State) (m : Option MapSet) (level : Nat) : Nat :=
  match m with
  | none => 0
  | some m =>
    if 2 ≤ level then 0
    else if s.ctfSt = ctfLocked then if m.segments then 1 else 0
    else if m.blind then 2 else 0

/-- The transmit map for a neighbour entry: the set received, while it is valid (R336). -/
def State.transmitMap (s : State) (i : Option Nat) : Option MapSet :=
  match i with
  | none => none
  | some i =>
    match (s.link i).received with
    | some m => if m.valid then some m else none
    | none => none

/-- How a frame is sent to a neighbour entry, or broadcast: mode, rate, span, generation, maps,
channel estimation. -/
structure TxPlan where
  mode : Nat
  rate : Nat
  span : Nat
  gen  : Nat
  maps : List (List Nat)
  ce   : Bool
  deriving DecidableEq, Repr

/-- The plan for a frame that starts now (R331, Table 13-6). -/
def State.txPlan (s : State) (i : Option Nat) : TxPlan :=
  let m := s.transmitMap i
  let mode := s.modeAt m s.level
  match m, mode with
  | some m, 1 => ⟨1, m.rate, m.span, m.gen, m.maps, (m.maps.take 8).any (·.contains 4)⟩
  | some m, 2 => ⟨2, m.rate, m.span, m.gen, m.maps, (m.maps.getD 8 []).contains 4⟩
  | _, _ => ⟨0, 0, s.rd PLT_SPAN, 0, [], false⟩

/-- The payload symbols of `n` bytes under a plan, from a phase on. -/
def State.planSymbols (s : State) (p : TxPlan) (ph0 n : Nat) : Nat :=
  symbolsFor (fun k => sumNat (symbolCodes p.mode s.nTones p.maps ph0 s.symbolTicks k)) 1023 0
    (codedLen p.mode p.rate n)

/-- The bits that 1,023 payload symbols carry under a plan, at the least favourable segment. -/
def State.planCapacity (s : State) (p : TxPlan) : Nat :=
  let cap (ph : Nat) := sumNat ((List.range 1023).map fun k =>
    sumNat (symbolCodes p.mode s.nTones p.maps ph s.symbolTicks k))
  match p.mode with
  | 1 => ((List.range 8).map fun g => cap (8192 * g)).foldl min (cap 0)
  | _ => cap 0

/-! ## Registers of the tone channel -/

/-- The status bits that follow from the state (Table 13-13). -/
def State.pltShow (s : State) : State :=
  let s := s.wr PLT_ROBUST (b2n (s.level == 2))
  let s := s.wr PLT_BLIND (b2n (s.ctfSt != ctfLocked))
  let s := s.wr PLT_DFLTS (b2n s.plt.dflt)
  (s.wr PLT_NTONE (s.nTones % 128)).wr PLT_TXACT (b2n s.plt.tx.isSome)

/-! ## Receiving (R332 to R334) -/

/-- The receiver holds generation `g` for neighbour `i`, as current or as previous (R332, R336). -/
def State.holdsGen (s : State) (i : Option Nat) (g : Nat) : Bool :=
  match i with
  | none => false
  | some i =>
    let l := s.link i
    [l.issued, l.prev].any fun m => match m with
      | some m => m.gen == g
      | none => false

/-- The phase error of a frame, folded (R334). -/
def foldPhase (a b : Nat) : Int := phaseDiff a b

/-- The verdict of R332 on a received frame from neighbour entry `i`: delivered, with the counters and
averages of R333 and R334. -/
def State.pltAccept (s : State) (f : ToneIn) (i : Option Nat) : Bool × State :=
  if !fchGood f.fch then (false, s.count PLT_HCSN)
  else
    let h := fchOf f.fch
    if h.reserved then (false, s.count PLT_RSVN)
    else if h.mode ≠ 0 ∧ s.holdsGen i h.gen = false then
      let s := s.count PLT_NOMAPN
      (false, match i with
        | some i => s.setLink i fun l => { l with want := true }
        | none => s)
    else
      let s := s.count PLT_RXOKN
      (true, match i with
        | some i => s.setLink i fun l => { l with
            snr := f.snr, frames := l.frames + 1, eNum := l.eNum + 1,
            eSum := l.eSum + foldPhase f.phase0.toNat h.ph0 }
        | none => s)

/-! ## Tone-map sets (R333 to R337) -/

/-- The code of a tone of an average SNR under a margin (R333), in 0.25 dB. -/
def toneCode (maxc : Nat) (margin snr : Int) : Nat :=
  ((List.range 4).filter fun k =>
    decide (k + 1 ≤ maxc) && decide ([12, 24, 44, 60].getD k 0 + margin ≤ snr)).length

/-- The set issued to neighbour `i` (R333, R334). -/
def State.makeSet (s : State) (i : Nat) : MapSet :=
  let l := s.link i
  let nt := s.nTones
  let seg (g : Nat) := (List.range nt).map fun k =>
    toneCode (s.rd PLT_TMMAXC) (s.rd PLT_TMMARG) ((l.snr.getD g []).getD k 0)
  let segs := (List.range 8).map seg
  let blind := (List.range nt).map fun k => (segs.map fun m => m.getD k 0).foldl min 4
  let mean : Int := divRound l.eSum l.eNum
  { gen := match l.issued with
      | some m => (m.gen + 1) % 256
      | none => 1,
    rate := s.rd PLT_TMRATE, span := s.rd PLT_SPAN, maps := segs ++ [blind], dcorr := unsigned 16 mean,
    at' := s.stamp.cyc }

/-- A map packed with 3 bits a tone (R335). -/
def packMap (m : List Nat) : List Byte :=
  leBytes ((3 * m.length + 7) / 8)
    ((m.zip (List.range m.length)).foldl (fun a x => a + x.1 % 8 * 2 ^ (3 * x.2)) 0)

/-- A TMRSP (Table 13-7). -/
def tmrspBytes (band nt : Nat) (m : MapSet) : List Byte :=
  let same (k : Nat) := 1 ≤ k && m.maps.getD k [] == m.maps.getD (k - 1) []
  let rep := (List.range 8).foldl (fun a k => if same k then a + 2 ^ k else a) 0
  [2, BitVec.ofNat 8 m.gen, BitVec.ofNat 8 (band + m.rate * 8), BitVec.ofNat 8 m.span]
    ++ leBytes 2 m.dcorr ++ [BitVec.ofNat 8 nt, BitVec.ofNat 8 rep] ++ packMap (m.maps.getD 8 [])
    ++ ((List.range 8).filter fun k => !same k).flatMap fun k => packMap (m.maps.getD k [])

/-- `n` codes unpacked. -/
def unpackMap (n : Nat) (l : List Byte) : List Nat :=
  (List.range n).map fun k => bits (leNat l) (3 * k) 3

/-- The segment maps of a TMRSP after the cycle-blind map: repeated ones copied (R335). -/
def tmrspMaps (nt size rep : Nat) : Nat → List (List Nat) → List Byte → List (List Nat)
  | 0, acc, _ => acc
  | n + 1, acc, l =>
    let k := acc.length
    if 1 ≤ k ∧ bit rep k then tmrspMaps nt size rep n (acc ++ [acc.getD (k - 1) []]) l
    else tmrspMaps nt size rep n (acc ++ [unpackMap nt (l.take size)]) (l.drop size)

/-- The set of a received TMRSP; none where its plan or tone count differs (R335). -/
def State.tmrspSet (s : State) (l : List Byte) : Option MapSet :=
  let nt := s.nTones
  let size := (3 * nt + 7) / 8
  let b2 := leAt l 2 1
  if bits b2 0 3 ≠ s.rd PLT_BAND ∨ leAt l 6 1 ≠ nt then none
  else
    some { gen := leAt l 1 1, rate := bits b2 3 2, span := leAt l 3 1,
           maps := tmrspMaps nt size (leAt l 7 1) 8 [] (l.drop (8 + size))
             ++ [unpackMap nt ((l.drop 8).take size)],
           dcorr := leAt l 4 2, at' := s.stamp.cyc }

/-- A set installed as the transmit map for neighbour `i`; Δ is corrected (R334, R336). -/
def State.installSet (s : State) (i : Nat) (m : MapSet) : State :=
  (s.setLink i fun l => { l with received := some m, delta := (l.delta + m.dcorr) % 65536 }).raise
    0x0B0 2

/-- A set may be sent to neighbour `i` now: at most one in 16 cycles (R336). -/
def State.issueFree (s : State) (i : Nat) : Bool :=
  match (s.link i).lastIssue with
  | some c => decide (c + 16 ≤ s.stamp.cyc)
  | none => true

/-- New generations may be issued: not pinned, not in D2 or below (R337, R340). -/
def State.mapsAdapt (s : State) : Bool := !s.on PLT_TMPIN && decide (s.level ≤ 1)

/-- The issue of a new set to neighbour `i` is recorded (R336). -/
def State.recordIssue (s : State) (i : Nat) (m : MapSet) : State :=
  (s.setLink i fun l => { l with
    prev := l.issued.map fun p => { p with at' := s.stamp.cyc }, issued := some m,
    lastIssue := some s.stamp.cyc, eSum := 0, eNum := 0, frames := 0, want := false }).raise 0x0B0 2

/-- TMAP_EXPIRE (R336): received sets not renewed for 4 times PLT_TMREF cycles become invalid, previous
issued sets age out after 64 cycles. -/
def execTmapExpire (s : State) : Result :=
  .next (
    let c := s.stamp.cyc
    let limit := 4 * s.rd PLT_TMREF
    let ids := s.plt.links.map (·.1)
    ids.foldl (fun s i => s.setLink i fun l => { l with
      received := l.received.map fun m => { m with valid := m.valid && decide (c < m.at' + limit) },
      prev := match l.prev with
        | some p => if c < p.at' + 64 then some p else none
        | none => none }) s)

/-! ## Register access -/

/-- A page word with the word written in place of the stored one. -/
def State.maskWith (s : State) (off d w : Nat) : Nat :=
  if off = 0x054 + 4 * w then d else s.rd (PLT_TMASK w)

/-- Writes of page 0x0B0 (R320, R321, R336, R339, R350). -/
def pltCheck (s : State) (off d : Nat) : Status :=
  match off with
  | 0x040 =>
    let b := bits d 4 3
    if 5 ≤ b ∨ (b ≠ 0 ∧ (activeTones b (bit d 8) fun w => s.rd (PLT_TMASK w)).length < 4) then .cfgInvalid
    else .ok
  | 0x048 => if bits d 0 5 = 0 ∨ 16 < bits d 0 5 then .cfgInvalid else .ok
  | 0x04C =>
    if bits d 16 3 = 0 ∨ 4 < bits d 16 3 ∨ bits d 20 2 = 3 then .cfgInvalid
    else if bits d 0 16 = 0 then .zeroLen
    else .ok
  | _ =>
    if 0x054 ≤ off ∧ off ≤ 0x060 then
      let b := s.rd PLT_BAND
      if b ≠ 0 ∧ (activeTones b (s.on PLT_BANDC_EN) (s.maskWith off d)).length < 4 then .cfgInvalid
      else .ok
    else .ok

/-- Writes of pages 0x0B0 and 0x0B1, with their code in PLT_CFGSTS. -/
def pltWrite : Writer := fun s q d =>
  let c : Status := if q.page = 0x0B0 then pltCheck s q.off d
    else if q.off = 0x040 ∧ 9 ≤ bits d 16 4 then .cfgInvalid else .ok
  let s := if c = .ok then s.storeWord q.page q.off d else s
  (c, (if q.page = 0x0B0 then s.wr PLT_CCODE (codeOf c) else s).pltShow)

/-- The map that PLT_TMSEL names, with its set (Table 13-15). -/
def State.selectedSet (s : State) : Option MapSet :=
  let l := s.link (s.rd PLT_TM_NB)
  if s.on PLT_TM_DIR then l.received else l.issued

/-- A read of PLT_TMINFO latches the selected map (R350). -/
def State.latchMap (s : State) : State :=
  let l := s.link (s.rd PLT_TM_NB)
  match s.selectedSet with
  | none => (List.range 9).foldl (fun s w => s.wr (PLT_TMDATA w) 0) ((s.setReg 0x0B1 0x044 0).wr PLT_TMAGE 0)
  | some m =>
    let s := ((s.wr PLT_TM_GEN m.gen).wr PLT_TM_RATE m.rate).wr PLT_TM_SPAN m.span
    let s := (s.wr PLT_TM_VALID (b2n m.valid)).wr PLT_TM_DELTA (if s.on PLT_TM_DIR then l.delta else m.dcorr)
    let s := s.wr PLT_TMAGE ((s.stamp.cyc - m.at') % 2 ^ 32)
    let codes := m.maps.getD (s.rd PLT_TM_MAP) []
    (List.range 9).foldl (fun s w =>
      s.wr (PLT_TMDATA w) ((List.range 8).foldl (fun a k => a + codes.getD (8 * w + k) 0 * 2 ^ (4 * k)) 0)) s

/-- Reads of pages 0x0B0 and 0x0B1. -/
def pltRead : Reader := fun s q =>
  plainRead (if q.page = 0x0B1 ∧ q.off = 0x044 then s.latchMap
    else if q.page = 0x0B0 ∧ q.off = 0x064 then s.pltShow else s) q

end Sys2Proof.Machine
end

