-- ==== Sys2Proof/Machine/Store.lean ====
section
/-! DEFINITION. The array of the Cellar (R454, R455, R467 to R474): the check code of a group, reads with
their restore, writes, the write block, and the interruption record. -/

namespace Sys2Proof.Machine

open Reg

/-- The state with what the Cellar holds changed. -/
def State.setCel (s : State) (f : CelState → CelState) : State := { s with cel := f s.cel }

/-! ## Check code (R455) -/

/-- The number of bits set of an 8-bit value. -/
def weight8 (n : Nat) : Nat := (bitsSet n 8).length

/-- P_0, P_1 and so on: the 8-bit values of weight 3, 5 or 7 in rising order. -/
def celP : List Nat := (List.range 256).filter fun n => weight8 n == 3 || weight8 n == 5 || weight8 n == 7

/-- Q_0, Q_1 and so on: the 8-bit values of weight 2 in rising order. -/
def celQ : List Nat := (List.range 256).filter fun n => weight8 n == 2

/-- The check bits of a group (R455). -/
def celCheck (g d : Nat) : Nat :=
  let p := (bitsSet d 64).foldl (fun a j => a ^^^ celP.getD j 0) 0
  (bitsSet g 17).foldl (fun a k => a ^^^ celQ.getD k 0) p

/-- The 72 bits of a group with data `d`. -/
def celWord (g d : Nat) : BitVec 72 := BitVec.ofNat 72 (d % 2 ^ 64 + celCheck g d * 2 ^ 64)

/-- What a read makes of a group: clean, corrected or uncorrectable (R455). -/
inductive GroupRead where
  | clean (d : Nat)
  | corrected (d : Nat)
  | bad
  deriving DecidableEq, Repr

/-- The verdict on the 72 bits of a group (R455). -/
def celJudge (g : Nat) (w : BitVec 72) : GroupRead :=
  let d := w.toNat % 2 ^ 64
  let syn := (w.toNat / 2 ^ 64) ^^^ celCheck g d
  if syn = 0 then .clean d
  else if weight8 syn = 1 then .corrected d
  else
    match (List.range 64).find? fun j => celP.getD j 0 == syn with
    | some j => .corrected (d ^^^ 2 ^ j)
    | none => .bad

/-- The 72 bits of group `g`. -/
def State.celRaw (s : State) (g : Nat) : BitVec 72 := cellAt (celWord g 0) g s.cel.groups

/-- The 72 bits of group `g` replaced. -/
def State.celPutRaw (s : State) (g : Nat) (w : BitVec 72) : State :=
  s.setCel fun c => { c with groups := cellPut (celWord g 0) g w c.groups }

/-- Cells of the array flip. -/
def State.celUpset (s : State) (l : List (Fin 131072 × BitVec 72)) : State :=
  l.foldl (fun s x => s.celPutRaw x.1.val (s.celRaw x.1.val ^^^ x.2)) s

/-! ## Group operations -/

/-- The known-bad list takes a value (Table 18-8). -/
def State.celBad (s : State) (l : List Nat) : State :=
  (s.setCel fun c => { c with bad := l }).wr CEL_BADN l.length

/-- A group has been found uncorrectable (R473). -/
def State.celFound (s : State) (g : Nat) : State :=
  if s.cel.bad.contains g then s
  else
    let s := (((s.wr CEL_UEADR g).count CEL_UNCN).raise 0x0D8 0).log 0x5005 (s.rd (OWN_TC 0x0D8)) 0x00D8
    if s.cel.bad.length < 16 then s.celBad (s.cel.bad ++ [g]) else s

/-- A read of a group, with its restore (R467, R473): the data, none where it is uncorrectable, and
whether it was corrected. -/
def State.celRead (s : State) (g : Nat) : Option Nat × Bool × State :=
  match celJudge g (s.celRaw g) with
  | .clean d => (some d, false, s)
  | .corrected d => (some d, true, (s.celPutRaw g (celWord g d)).count CEL_CORRN)
  | .bad => (none, false, s.celFound g)

/-- A write of a group (R468); it leaves the known-bad list (R473). -/
def State.celWrite (s : State) (g d : Nat) : State :=
  let s := s.celPutRaw g (celWord g d)
  if s.cel.bad.contains g then s.celBad (s.cel.bad.erase g) else s

/-- A group whose verify has mismatched twice (R474). -/
def State.celVerifyFailed (s : State) (g : Nat) : State :=
  let s := ((s.count CEL_WFAILN).raise 0x0D8 1).log 0x5005 (s.rd (OWN_TC 0x0D8)) 0x00D8
  if s.cel.bad.contains g ∨ 16 ≤ s.cel.bad.length then s else s.celBad (s.cel.bad ++ [g])

/-- `n` groups read from `g` on, up to the first that is uncorrectable (R473): their data, the groups
corrected. -/
def State.celReadRun (s : State) : Nat → Nat → List Nat × Nat × State
  | _, 0 => ([], 0, s)
  | g, n + 1 =>
    match s.celRead g with
    | (none, _, t) => ([], 0, t)
    | (some d, c, t) =>
      let r := t.celReadRun (g + 1) n
      (d :: r.1, b2n c + r.2.1, r.2.2)

/-- Groups written from `g` on. -/
def State.celWriteRun (s : State) : Nat → List Nat → State
  | _, [] => s
  | g, d :: l => (s.celWrite g d).celWriteRun (g + 1) l

/-- The data of `n` bytes as groups. -/
def groupsOf : Nat → List Byte → List Nat
  | 0, _ => []
  | n + 1, l => leNat (l.take 8) :: groupsOf n (l.drop 8)

/-- Bytes as groups, the last padded with zeros. -/
def toGroups (l : List Byte) : List Nat := groupsOf ((l.length + 7) / 8) l

/-- The bytes of groups. -/
def groupBytes (l : List Nat) : List Byte := l.flatMap fun d => leBytes 8 d

/-! ## Device writers -/

/-- The codes of CEL_IR_SRC beyond the tenants (Table 18-8). -/
def srcLog : Nat := 0x40
def srcSealing : Nat := 0x41
def srcRestore : Nat := 0x42
def srcPort : Nat := 0x43
def srcSec : Nat := 0x44
def srcPlm : Nat := 0x45
def srcGrant : Nat := 0x46

/-- The PMU asserts the write block (R469, R511). -/
def State.celBlocked (s : State) : Bool := s.on PMU_WBLK

/-- A command has ended with POWER_LOST: the interruption record is written (R471, Table 18-9). -/
def State.celLost (s : State) (src last item unit : Nat) : State :=
  (s.setCel fun c => { c with ir := some ⟨src, last, item, unit⟩ }).raise 0x0D8 5

/-- A write of a device writer: at once, or when the write block lifts (R469). -/
def State.devWrite (s : State) (src area g : Nat) (l : List Nat) : State :=
  if s.celBlocked then
    s.setCel fun c => { c with queued := c.queued ++ [⟨src, area, g, l.map (BitVec.ofNat 64)⟩] }
  else s.celWriteRun g l

/-- A write of a device writer that the write block cuts after `n` groups (R469 to R471). -/
def State.devWriteCut (s : State) (src area g n : Nat) (l : List Nat) : State :=
  (s.celWriteRun g (l.take n)).celLost src (if n = 0 then 0xFFFF else n - 1) 0 area

/-- The write block has lifted: the device writes that waited are performed (R469). -/
def State.devFlush (s : State) : State :=
  let l := s.cel.queued
  l.foldl (fun s x => s.celWriteRun x.first (x.data.map (·.toNat)))
    (s.setCel fun c => { c with queued := [] })

/-- The first group of a byte address of the Cellar. -/
def celGroup (byte : Nat) : Nat := byte / 8

/-- Codes of the areas of Table 18-2 in CEL_IR_UNIT. -/
def areaBoot : Nat := 0x40
def areaStamp : Nat := 0x41
def areaGauge : Nat := 0x42
def areaLogCtl : Nat := 0x43
def areaMarker : Nat := 0x44
def areaUnits : Nat := 0x45
def areaFrames : Nat := 0x46
def areaKeys : Nat := 0x47
def areaSealed : Nat := 0x48
def areaAcc : Nat := 0x49

end Sys2Proof.Machine
end

