-- ==== Sys2Proof/Machine/Plm.lean ====
section
/-! DEFINITION. The powerline MAC on the tone channel (chapter 14): endpoints and their rings, the queue and
its attempts, segments and their protection, reassembly and forwarding, neighbours and routes. -/

namespace Sys2Proof.Machine

open Reg

/-- The state with what the MAC holds changed. -/
def State.setPlm (s : State) (f : PlmState → PlmState) : State := { s with plm := f s.plm }

/-- The EUI of this device: bits 63:0 of SYS_UID. -/
def State.eui (s : State) : Nat := s.rd (SYS_UID 0) + 2 ^ 32 * s.rd (SYS_UID 1)

/-- The short address of this device. -/
def State.saddr (s : State) : Nat := s.rd PLM_SADDR

/-! ## Register rings (R119) -/

/-- A partner event is written, or dropped while its ring is full (R385). -/
def State.partner (s : State) (kind who : Nat) : State :=
  let w := s.rd PLM_EV_WR
  if (w + 1) % 16 = s.rd PLM_EV_RD then s
  else
    let seq := s.plm.evSeq
    let s := s.wr (PLM_EV w) (stampNat s.stamp + (kind + who % 256 * 2 ^ 8) * 2 ^ 64 + seq * 2 ^ 96)
    (s.wr PLM_EV_WR ((w + 1) % 16)).setPlm fun p => { p with evSeq := (seq + 1) % 2 ^ 32 }

/-- Schedule requests that wait are written while the ring has room, at most `fuel` (R380, R385). -/
def State.srqFlush : Nat → State → State
  | 0, s => s
  | fuel + 1, s =>
    match s.plm.srq with
    | [] => s
    | r :: l =>
      let w := s.rd PLM_SRQ_WR
      if (w + 1) % 16 = s.rd PLM_SRQ_RD then s
      else
        let s := s.wr (PLM_SRQ w) (r.word + (r.idx + r.stream * 2 ^ 8 + b2n r.remove * 2 ^ 16) * 2 ^ 64
          + r.cyc % 2 ^ 32 * 2 ^ 96)
        State.srqFlush fuel ((s.wr PLM_SRQ_WR ((w + 1) % 16)).setPlm fun p => { p with srq := l })

/-- A schedule request is posted (R380). -/
def State.postSched (s : State) (r : SchedReq) : State :=
  (s.setPlm fun p => { p with srq := p.srq ++ [r], due := p.due ++ [r] }).srqFlush 16

/-! ## Neighbours -/

/-- The index of the neighbour entry with a short address. -/
def State.nbIndex (s : State) (a : Nat) : Option Nat :=
  (s.plm.nbs.find? fun x => x.2.saddr == a).map (·.1)

/-- The neighbour entry with an index. -/
def State.nb (s : State) (i : Nat) : Option Neighbour := (s.plm.nbs.find? (·.1 == i)).map (·.2)

/-- A neighbour entry changes. -/
def State.setNb (s : State) (i : Nat) (f : Neighbour → Neighbour) : State :=
  s.setPlm fun p => { p with nbs := p.nbs.map fun x => if x.1 = i then (i, f x.2) else x }

/-- Bits per tone of a code (Table 13-5). -/
def codeBits (m : List Nat) : Nat := sumNat m

/-- The link cost to neighbour `i` (R372). -/
def State.linkCost (s : State) (i : Nat) : Nat :=
  match s.nb i with
  | none => 65535
  | some n =>
    if n.ratio = 0 then 65535
    else
      let r : Nat × Nat := match s.transmitMap (some i) with
        | some m =>
          let sum := sumNat ((m.maps.take 8).map codeBits)
          match m.rate with
          | 0 => (sum, 8 * 2)
          | 1 => (2 * sum, 8 * 3)
          | _ => (3 * sum, 8 * 4)
        | none => (s.nTones, 8)
      if r.1 = 0 then 65534
      else min 65534 (ceilDiv (1048576 * r.2) (r.1 * n.ratio) + s.rd PLM_HOPPEN)

/-- The candidates for destination `d` (R373): index of the neighbour, hops, cost, short address. -/
def State.candidates (s : State) (d : Nat) : List (Nat × Nat × Nat × Nat) :=
  s.plm.nbs.filterMap fun x =>
    if !x.2.bidir then none
    else
      match x.2.adv.find? (·.dest == d) with
      | none => none
      | some a =>
        let c := s.linkCost x.1 + a.cost
        if a.next = s.saddr ∨ 7 < a.hops ∨ 65535 ≤ c then none
        else some (x.1, a.hops + 1, c, x.2.saddr)

/-- Candidate `a` is preferred to `b` (R373). -/
def routeBetter (a b : Nat × Nat × Nat × Nat) : Bool :=
  if a.2.2.1 ≠ b.2.2.1 then decide (a.2.2.1 < b.2.2.1)
  else if a.2.1 ≠ b.2.1 then decide (a.2.1 < b.2.1)
  else decide (a.2.2.2 < b.2.2.2)

/-- The route to destination `d` (R373): index of the neighbour, hops, cost, short address. -/
def State.routeTo (s : State) (d : Nat) : Option (Nat × Nat × Nat × Nat) :=
  (s.candidates d).foldl (fun b x => match b with
    | none => some x
    | some y => if routeBetter x y then some x else some y) none

/-- The destinations that have a route. -/
def State.destinations (s : State) : List Nat :=
  (List.range 255).filter fun d => d != 0 && d != s.saddr && (s.routeTo d).isSome

/-- Routes lost, or changed in cost by more than one quarter, call for an RADV (R373). -/
def State.noteRoutes (s : State) : State :=
  let changed := s.plm.told.any fun x =>
    match s.routeTo x.1 with
    | none => true
    | some r => decide (x.2 < 4 * (r.2.2.1 - x.2)) || decide (x.2 < 4 * (x.2 - r.2.2.1))
  if changed then s.setPlm fun p => { p with radvSoon := true } else s

/-! ## Endpoints -/

/-- The tenant that holds endpoint `e`. -/
def State.epOwner (s : State) (e : Nat) : Nat := cellAt 0 e s.plm.owner

/-- Endpoint `e` is enabled. -/
def State.epOn (s : State) (e : Nat) : Bool := s.on (PLM_EP_EN (e / 64) (e % 64))

/-- The enabled endpoint of a network. -/
def State.epOfNid (s : State) (nid : Nat) : Option Nat :=
  if nid = 0 then none
  else (List.range 128).find? fun e => s.epOn e && s.rd (PLM_EP_NID (e / 64) (e % 64)) == nid

/-- The ring area of an endpoint (Table 14-1): base, and the numbers of its slots. -/
structure EpRing where
  base : Nat
  tl   : Nat
  cl   : Nat
  rl   : Nat
  deriving DecidableEq, Repr

/-- The ring area of endpoint `e`. -/
def State.epRing (s : State) (e : Nat) : EpRing :=
  let p := e / 64
  let k := e % 64
  ⟨s.rd (PLM_EP_RBL p k) * 64 + s.rd (PLM_EP_RBH p k) * 2 ^ 32, s.rd (PLM_EP_TL p k), s.rd (PLM_EP_CL p k),
    s.rd (PLM_EP_RL p k)⟩

/-- The parts of a ring area. -/
def EpRing.desc (r : EpRing) (j : Nat) : Nat := r.base + 0x40 + 32 * (j % 2 ^ r.tl)
def EpRing.comp (r : EpRing) (j : Nat) : Nat := r.base + 0x40 + 32 * 2 ^ r.tl + 32 * (j % 2 ^ r.cl)
def EpRing.slot (r : EpRing) (j : Nat) : Nat :=
  r.base + 0x40 + 32 * 2 ^ r.tl + 32 * 2 ^ r.cl + 512 * (j % 2 ^ r.rl)
def EpRing.len (r : EpRing) : Nat := 0x40 + 32 * 2 ^ r.tl + 32 * 2 ^ r.cl + 512 * 2 ^ r.rl

/-- The ring of endpoint `e` can be reached: enabled, its area inside the windows, and not stopped or
gated (R353, R379, R540). -/
def State.epUsable (s : State) (e : Nat) : Bool :=
  let r := s.epRing e
  let t := s.epOwner e
  s.epOn e && decide (s.level ≤ 2) && !s.plm.stopped.contains e && s.tenantMay t false r.base r.len
    && s.tenantMay t true r.base r.len

/-- A completion record of endpoint `e` is put in its ring. -/
def State.epPut (s : State) (e w : Nat) : State :=
  let r := s.epRing e
  let i := s.ringIdx (r.base + 0x08)
  (s.store (r.comp i) (leBytes 32 w)).store (r.base + 0x08) (leBytes 2 ((i + 1) % 65536))

/-- The completion ring of endpoint `e` has room. -/
def State.epRoom (s : State) (e : Nat) : Bool :=
  let r := s.epRing e
  s.epUsable e && (s.ringIdx (r.base + 0x08) + 65536 - s.ringIdx (r.base + 0x0C)) % 65536 != 2 ^ r.cl

/-- A record of endpoint `e` is written, or held while the ring is full (R367). Records of a ring stopped
by a system reset are discarded (R540). -/
def State.epRecord (s : State) (e w : Nat) : State :=
  if s.plm.stopped.contains e then s
  else if s.plm.held.any (·.key == e) || !s.epRoom e then
    s.setPlm fun p => { p with held := p.held ++ [⟨e, BitVec.ofNat 256 w⟩] }
  else s.epPut e w

/-- Held records of endpoint `e` are written while there is room, at most `fuel`. -/
def State.epRelease (e : Nat) : Nat → State → State
  | 0, s => s
  | fuel + 1, s =>
    match s.plm.held.find? (·.key == e) with
    | none => s
    | some h =>
      if s.epRoom e then
        State.epRelease e fuel ((s.setPlm fun p => { p with held := p.held.erase h }).epPut e h.rec'.toNat)
      else s

/-- A completion record (Table 14-3). -/
def plmRecord (item : Nat) (c : Status) (atts segs stamp occ nxt hops : Nat) : Nat :=
  withCrc32 (item + codeOf c * 2 ^ 16 + satNat 4 atts * 2 ^ 24 + satNat 4 segs * 2 ^ 28 + stamp * 2 ^ 32
    + satNat 32 occ * 2 ^ 96 + nxt * 2 ^ 128 + satNat 4 hops * 2 ^ 136)

/-- A received frame is put in the next receive slot of endpoint `e` (Table 14-4); none where no slot is
free or the ring cannot be reached. -/
def State.epReceive (s : State) (e kind : Nat) (c : Status) (orig hops stamp eui ctr str : Nat)
    (data : List Byte) : Option State :=
  let r := s.epRing e
  let i := s.ringIdx (r.base + 0x10)
  let room := (i + 65536 - s.ringIdx (r.base + 0x14)) % 65536 != 2 ^ r.rl
  if s.epUsable e && room then
    let head := leBytes 28 (kind + codeOf c * 2 ^ 8 + orig * 2 ^ 16 + hops * 2 ^ 24 + stamp * 2 ^ 32
      + eui * 2 ^ 96 + ctr * 2 ^ 160 + data.length * 2 ^ 192 + str * 2 ^ 208)
    let s := s.store (r.slot i) (head ++ leBytes 4 (crc32 (head ++ data)) ++ data)
    some (s.store (r.base + 0x10) (leBytes 2 ((i + 1) % 65536)))
  else none

/-! ## Frame counters (R363) -/

/-- The groups of the frame-counter records (Table 18-2). -/
def frameGroup : Nat := celGroup 0x80400

/-- The record of a network in the Cellar: its group and counter. -/
def State.ctrRecord (s : State) (nid : Nat) : Option (Nat × Nat) :=
  (List.range 256).findSome? fun k =>
    match celJudge (frameGroup + k) (s.celRaw (frameGroup + k)) with
    | .bad => none
    | .clean d => if bit d 16 && bits d 0 16 == nid then some (k, bits d 32 32) else none
    | .corrected d => if bit d 16 && bits d 0 16 == nid then some (k, bits d 32 32) else none

/-- The counter of a network is stored (R363). -/
def State.ctrStore (s : State) (nid c : Nat) : State :=
  let free (k : Nat) := s.celRaw (frameGroup + k) == celWord (frameGroup + k) 0
  let k := match s.ctrRecord nid with
    | some r => r.1
    | none => ((List.range 256).find? free).getD 255
  s.devWrite srcPlm areaFrames (frameGroup + k) [nid + 2 ^ 16 + c * 2 ^ 32]

/-- The counter of a network before its next segment; after a start it resumes from the stored value plus
65,536 (R363). -/
def State.ctrNow (s : State) (nid : Nat) : Nat × State :=
  match s.plm.ctrs.find? (·.1 == nid) with
  | some x => (x.2, s)
  | none =>
    let c := match s.ctrRecord nid with
      | some r => (r.2 + 65536) % 2 ^ 32
      | none => 0
    (c, s.ctrStore nid c)

/-- The counter of the next segment originated for a network (R363). -/
def State.ctrNext (s : State) (nid : Nat) : Nat × State :=
  let r := s.ctrNow nid
  let c := (r.1 + 1) % 2 ^ 32
  let s := r.2.setPlm fun p => { p with ctrs := cellInsert nid c p.ctrs }
  (c, if c % 65536 = 0 then s.ctrStore nid c else s)

/-- A counter of an origin and network is checked against the cache and entered; none for a replay
(R363). -/
def State.ctrAccept (s : State) (orig nid c : Nat) : Option State :=
  let rest := s.plm.cache.filter fun x => !(x.1 == orig && x.2.1 == nid)
  let put := s.setPlm fun p => { p with cache := (orig, nid, c) :: rest.take 511 }
  match s.plm.cache.find? fun x => x.1 == orig && x.2.1 == nid with
  | some x => if c ≤ x.2.2 then none else some put
  | none => some put

/-! ## Segments (R360, R362) -/

/-- The 16 bytes of a segment header (Table 14-6). -/
def segHeader (type prio : Nat) (ackReq sec : Bool) (nxt txs orig fdst hops seq seg nid ctr len : Nat) :
    List Byte :=
  leBytes 16 (type + prio * 2 ^ 4 + b2n ackReq * 2 ^ 6 + b2n sec * 2 ^ 7 + nxt * 2 ^ 8 + txs * 2 ^ 16
    + orig * 2 ^ 24 + fdst * 2 ^ 32 + hops * 2 ^ 40 + seq * 2 ^ 48 + seg * 2 ^ 56 + nid * 2 ^ 64
    + ctr * 2 ^ 80 + len * 2 ^ 112)

/-- The additional data of a segment: its header with the fields that change at each hop at zero. -/
def segAad (h : List Byte) : List Byte :=
  h.set 1 0 |>.set 2 0 |>.set 5 0 |>.set 6 0

/-- The nonce of a segment. -/
def segNonce (eui ctr seg : Nat) : List Byte := leBytes 8 eui ++ beBytes 4 ctr ++ leBytes 1 seg

/-- A segment with its FCS. -/
def withFcs (l : List Byte) : List Byte := l ++ leBytes 4 (crc32 l)

/-- The key bytes of a 128-bit key, word 0 lowest. -/
def keyBytes (k : BitVec 128) : List Byte := leBytes 16 k.toNat

/-- The key that protects a segment of a type and network: the site key for management, the key of the
endpoint for data (R362). -/
def State.segKey (s : State) (type nid : Nat) : Option (List Byte) :=
  if type = 3 then some (keyBytes s.plm.siteKey)
  else
    match s.epOfNid nid with
    | some e => (s.plm.keys.find? (·.1 == e)).map fun x => keyBytes x.2
    | none => none

/-- The payload of segment `k` of `n`: equal in length to within one byte, the earlier ones taking the
extra bytes (R360). -/
def segPart (data : List Byte) (n k : Nat) : List Byte :=
  let q := data.length / n
  let r := data.length % n
  let o := q * k + min k r
  (data.drop o).take (q + b2n (decide (k < r)))

/-- The segments that a payload needs under a plan: the fewest that fit 1,023 symbols; none where 16 do
not suffice (R360). -/
def State.segCount (s : State) (p : TxPlan) (n : Nat) : Option Nat :=
  let cap := s.planCapacity p
  ((List.range 16).map (· + 1)).find? fun k =>
    decide (codedLen p.mode p.rate (ceilDiv n k + 28) ≤ cap)

/-! ## The transmit queue -/

/-- The clocks from the end of a unicast frame with ACKREQ to the end of the wait for its
acknowledgement: 200 us, an acknowledgement in mode 0, 100 us. -/
def State.ackClocks (s : State) : Nat :=
  48 * 300 + frameClocks s.nTones false (ceilDiv (codedLen 0 0 8) (max 1 s.nTones))

/-- The clocks of one attempt of a segment with `n` payload bytes under a plan. -/
def State.attemptClocks (s : State) (p : TxPlan) (ackReq : Bool) (n : Nat) : Nat :=
  frameClocks s.nTones p.ce (s.planSymbols p 0 (n + 28)) + (if ackReq then s.ackClocks else 0)

/-- A frame joins the queue. -/
def State.enqueue (s : State) (f : TxFrame) : State :=
  s.setPlm fun p => { p with queue := p.queue ++ [{ f with id := p.nextId }], nextId := p.nextId + 1 }

/-- A management message of this device, broadcast or to a device (chapter 14). -/
def State.sendMgmt (s : State) (fdst : Nat) (data : List Byte) : State :=
  s.enqueue { id := 0, kind := 1, type := 3, prio := 1, ackReq := decide (fdst ≠ 0xFF), nid := 0,
              orig := s.saddr, fdst := fdst, data := data }

/-- The neighbour entry that a frame to `fdst` is sent to now: none for a broadcast; no route (R366). -/
def State.hopFor (s : State) (fdst : Nat) : Option (Option (Nat × Nat × Nat × Nat)) :=
  if fdst = 0xFF then some none
  else
    match s.nbIndex fdst, s.routeTo fdst with
    | _, some r => some (some r)
    | some i, none => some (some (i, 1, 0, fdst))
    | none, none => none

/-- A frame of the queue changes. -/
def State.setFrame (s : State) (id : Nat) (f : TxFrame → TxFrame) : State :=
  s.setPlm fun p => { p with queue := p.queue.map fun x => if x.id = id then f x else x }

/-- The charge of a tenant frame is settled: a shortfall returns, an excess is debited from the next refill
(R365). -/
def State.settleAir (s : State) (f : TxFrame) (occ : Nat) : State :=
  if occ ≤ f.cost then s.giveBack 2 f.tc (f.cost - occ) f.period
  else
    s.setTnc fun x => { x with
      debt := cellPut 0 (128 + f.tc) (cellAt 0 (128 + f.tc) x.debt + (occ - f.cost)) x.debt }

/-- A downlink for a node ends with a code: that of a tenant is reported (R366, R367). -/
def State.endNodeDown (s : State) (ref : Nat) (c : Status) (hops : Nat) : State :=
  match s.plm.downs.find? (·.ref == ref) with
  | none => s
  | some d =>
    let s := s.setPlm fun p => { p with downs := p.downs.filter (·.ref != ref) }
    match d.src with
    | none => s
    | some (e, item, t) => (s.outcome t resAir c item).epRecord e (plmRecord item c 0 0 0 0 0 hops)

/-- A frame leaves the queue with a code; a frame of a tenant is charged and reported (R365 to R367). -/
def State.endFrame (s : State) (f : TxFrame) (c : Status) : State :=
  let s := s.setPlm fun p => { p with
    queue := p.queue.filter (·.id != f.id),
    attempt := match p.attempt with
      | some a => if a.frame = f.id then none else some a
      | none => none }
  let s := match f.down with
    | some r => s.endNodeDown r c 0
    | none => s
  if f.kind = 2 then
    ((s.settleAir f f.occ).outcome f.tc resAir c f.item).epRecord f.ep
      (plmRecord f.item c f.atts f.acked (f.first.getD 0) f.occ f.nxt f.path)
  else s

/-- Frames of a priority in the order of R358: relayed, own, tenants by class and turn. -/
def State.nextFrame (s : State) (prio : Nat) : Option TxFrame :=
  let l := s.plm.queue.filter fun f =>
    f.prio == prio && (!s.on PLM_CONFLICT || (f.kind == 1 && f.data.head? == some 0x10))
  match l.find? (·.kind == 0) with
  | some f => some f
  | none =>
    match l.find? (·.kind == 1) with
    | some f => some f
    | none =>
      match s.nextServed 2 (fun c t => l.any fun f => f.kind == 2 && f.cls == c && f.tc == t) with
      | some (c, t) => l.find? fun f => f.kind == 2 && f.cls == c && f.tc == t
      | none => none

/-- The link sequence to a next hop (Table 14-6). -/
def State.linkSeq (s : State) (nxt : Nat) : Nat × State :=
  let n := cellAt 0 nxt s.plm.seqs
  (n, s.setPlm fun p => { p with seqs := cellInsert nxt ((n + 1) % 256) p.seqs })

/-- The next crossing of a node's slot as a stamp. -/
def State.nextCrossing (s : State) (n : NodeEntry) : Nat :=
  let ph := (s.anchorPhase n.anchor).getD 0
  let c := s.stamp.cyc + b2n (decide (ph < s.stamp.ph))
  (c + (n.cofs + n.period - c % max 1 n.period) % max 1 n.period) * 65536 + ph

/-- An RGREQ takes D_cyc and PH as it is sent, from the slot of the node it names and the stamp of its first
payload symbol (R381). -/
def State.freshData (s : State) (f : TxFrame) (nxt : Nat) : List Byte :=
  if f.kind = 1 ∧ f.type = 3 ∧ f.data.head? = some 0x20#8 then
    match s.plm.nodes.find? fun n => n.eui == leAt f.data 4 8 && n.nid == leAt f.data 12 2 with
    | none => f.data
    | some n =>
      let i := s.nbIndex nxt
      let d := match s.nbIndex f.fdst with
        | some k => (s.link k).delta
        | none => 0
      let slot := s.nextCrossing n + d
      let first := stampNat s.stamp + s.clocksToTicks (headClocks s.nTones (s.txPlan i).ce) + d
      f.data.take 16 ++ leBytes 2 ((slot / 65536 + 65536 - first / 65536) % 65536) ++ leBytes 2 (slot % 65536)
  else f.data

/-- The present segment of a frame as it is sent to a next hop, and its link sequence; none where its key
has been erased (R352). -/
def State.buildSegment (s : State) (f : TxFrame) (nxt : Nat) : Option (List Byte × Nat) × State :=
  let q := s.linkSeq nxt
  match f.raw with
  | some raw =>
    let l := raw.set 1 (BitVec.ofNat 8 nxt) |>.set 2 (BitVec.ofNat 8 s.saddr)
      |>.set 5 (BitVec.ofNat 8 f.hops) |>.set 6 (BitVec.ofNat 8 q.1)
    (some (withFcs l, q.1), q.2)
  | none =>
    let r : Nat × State := match f.ctr with
      | some c => (c.1, q.2)
      | none => q.2.ctrNext f.nid
    let s := r.2.setFrame f.id fun x => { x with ctr := some (r.1, q.1) }
    let part := segPart (s.freshData f nxt) f.segs f.cur
    let seg := f.cur + 16 * b2n (decide (f.cur + 1 = f.segs))
    let sec := f.type != 4
    let h := segHeader f.type f.prio f.ackReq sec nxt s.saddr f.orig f.fdst f.hops q.1 seg f.nid r.1
      part.length
    if sec then
      match s.segKey f.type f.nid with
      | some k => (some (withFcs (h ++ ccmSeal k (segNonce s.eui r.1 seg) (segAad h) part 8), q.1), s)
      | none => (none, s)
    else (some (withFcs (h ++ part), q.1), s)

/-- Slots of the windows P0 to P3 (Table 14-5). -/
def windowSlots (prio : Nat) : Nat := [16, 8, 4, 2].getD prio 0

/-- ACCESS_SLOT (R355 to R358): at slot `slot` of the window of a priority on an idle medium the draw of the
frame offered matches: its attempt starts. -/
def execAccessSlot (window : Fin 4) (slot : Fin 16) (s : State) : Result :=
  .next (
    if windowSlots window.val ≤ slot.val || !s.on PLM_EN || s.saddr == 0 || s.plm.attempt.isSome
      || s.plt.tx.isSome then s
    else
      match s.nextFrame window.val with
      | none => s
      | some f =>
        let s := if s.on PLT_BANDC_EN then
            match s.plm.lastEnd with
            | some t => s.waitUntil (t + msTicks 125)
            | none => s
          else s
        let s := if f.kind = 2 then s.serveTurn 2 f.cls f.tc else s
        if f.kind = 2 ∧ f.first = none ∧ f.latest ≤ stampNat s.stamp then s.endFrame f .refusedPriority
        else if s.toneOff then s.endFrame f .skipped
        else
          match s.hopFor f.fdst with
          | none => s.endFrame f .skipped
          | some hop =>
            let nxt := match hop with
              | some r => r.2.2.2
              | none => 0xFF
            let x := s.buildSegment f nxt
            match x.1 with
            | none => x.2.endFrame f .keyRetired
            | some b =>
              let s := x.2.setFrame f.id fun g => { g with nxt := nxt }
              let a : Attempt := {
                frame := f.id, bytes := b.1, nxt := nxt, seq := b.2, ackReq := f.ackReq && nxt != 0xFF }
              s.setPlm fun p => { p with attempt := some a })

/-! ## Ends of attempts (R359, R366) -/

/-- The acknowledgement ratio after a unicast attempt (R372). -/
def ratioStep (r : Nat) (acked : Bool) : Nat := min 256 (r - ceilDiv r 8 + if acked then 32 else 0)

/-- The attempt ends with the medium: occupancy and ratio are noted (R365, R372). -/
def State.closeAttempt (s : State) (a : Attempt) (acked : Bool) : State :=
  let s := s.setFrame a.frame fun f => { f with occ := f.occ + (s.ticks - a.tick) }
  let s := s.setPlm fun p => { p with attempt := none }
  if a.ackReq then
    match s.nbIndex a.nxt with
    | some i => (s.setNb i fun n => { n with ratio := ratioStep n.ratio acked }).noteRoutes
    | none => s
  else s

/-- A segment has been sent, or acknowledged where that was asked: the next segment, or the end of the
frame with the code of R366. -/
def State.segmentDone (s : State) (a : Attempt) (acked : Bool) : State :=
  let s := s.closeAttempt a acked
  match s.plm.queue.find? (·.id == a.frame) with
  | none => s
  | some f =>
    let f := { f with acked := f.acked + b2n acked, cur := f.cur + 1, tries := 0, ctr := none }
    if f.cur < f.segs then s.setFrame f.id fun _ => f
    else s.endFrame f (if f.late then firstOf .delayed a.code else a.code)

/-- An attempt that has failed: a retry, or TIMEOUT when they are exhausted (R359, R366). -/
def State.segmentFailed (s : State) (a : Attempt) : State :=
  let s := s.closeAttempt a false
  match s.plm.queue.find? (·.id == a.frame) with
  | none => s
  | some f =>
    if f.tries < s.rd PLM_RETRY then s.setFrame f.id fun g => { g with tries := g.tries + 1 }
    else s.endFrame f .timeout

/-- ACK_TIMEOUT (R359): the acknowledgement has not been heard in time. -/
def execAckTimeout (s : State) : Result :=
  .next (
    match s.plm.attempt with
    | some a =>
      if a.waits then
        let e := match s.plm.lastEnd with
          | some t => t + s.ackClocks * 65536
          | none => s.clk
        (s.waitUntil e).segmentFailed a
      else s
    | none => s)

/-- The PLT has completed a request with a code that sends nothing more (R331, R341, R366). -/
def State.requestCut (s : State) (a : Attempt) (c : Status) : State :=
  let s := s.setFrame a.frame fun f => { f with occ := f.occ + if a.taken then s.ticks - a.tick else 0 }
  let s := s.setPlm fun p => { p with attempt := none }
  match s.plm.queue.find? (·.id == a.frame) with
  | none => s
  | some f => s.endFrame f c

/-! ## Sending a tone frame (R331, R341) -/

/-- What the PLT sends of a frame: FCH bytes, the coded FCH, then the labels of each payload symbol. -/
def State.toneOutput (s : State) (p : TxPlan) (h : Fch) (bytes : List Byte) : List Nat :=
  let nt := s.nTones
  let codes := (List.range h.nsym).map (symbolCodes p.mode nt p.maps h.ph0 h.tsc)
  let block (n : Nat) := (halfOf h.ph0 h.tsc n - halfOf h.ph0 h.tsc 0) / max 1 p.span
  byteNats h.bytes ++ (fchBits h.bytes).map b2n
    ++ (placeBlocks codes block (codedStream p.mode p.rate bytes)).flatten

/-- TONE_TRANSMIT (R331): the PLT takes the frame that the MAC offers, latches the level, the CTF state and the
map, chooses the mode and starts. -/
def execToneTransmit (s : State) : Result :=
  .next (
    match s.plm.attempt, s.plt.tx with
    | some a, none =>
      if a.taken then s
      else if a.bytes = [] then (s.requestCut a .zeroLen).raise 0x0B0 0
      else if s.toneOff then
        let s := if bit (s.rd PMU_PG) 7 then s else (s.wr PLT_AUXDN 1).raise 0x0B0 1
        (s.requestCut a .skipped).raise 0x0B0 0
      else if s.plt.dflt then ((s.requestCut a .skipped).raise 0x0B0 0).raise 0x0B0 1
      else
        let i := if a.nxt = 0xFF then none else s.nbIndex a.nxt
        let p := s.txPlan i
        let cut := decide (s.level = 2) && s.modeAt (s.transmitMap i) 0 != 0
        let code := firstOf (if cut then .degraded else .ok) s.okOr
        let nt := s.nTones
        let delta := match i with
          | some i => (s.link i).delta
          | none => 0
        let ph0 := (s.stamp.ph + s.clocksToTicks (headClocks nt p.ce) + delta) % 65536
        let nsym := s.planSymbols p ph0 a.bytes.length
        let h : Fch := ⟨p.mode, p.gen, nsym, if p.mode = 0 then 0 else p.rate, p.span, p.ce, s.saddr, ph0,
          s.symbolTicks⟩
        let s := s.send .tone (s.toneOutput p h a.bytes)
        let tx : PltTx := ⟨code, s.ticks, stampNat s.stamp, s.clk, frameClocks nt p.ce nsym⟩
        let s := s.setPlt fun x => { x with txen := true, tx := some tx }
        let st := stampNat s.stamp
        let s := s.setFrame a.frame fun f => { f with
          atts := f.atts + 1, first := some (f.first.getD st),
          late := f.late || (f.first.isNone && f.kind == 2 && decide (f.asked < st)) }
        let b := { a with taken := true, tick := s.ticks, code := code }
        (s.setPlm fun x => { x with attempt := some b }).pltShow
    | _, _ => s)

/-- TONE_TX_COMPLETE (R341): the last sample has been sent; PLT_TXEN is released 20 us after it and the
request completes. -/
def execToneTxComplete (s : State) : Result :=
  .next (
    match s.plt.tx with
    | none => s
    | some x =>
      let e := x.clk + x.len * 65536
      let s := s.waitUntil e
      let s := s.setPlm fun p => { p with lastEnd := some e }
      let s := match s.plm.attempt with
        | none => s
        | some a =>
          if a.ackReq then s.setPlm fun p => { p with attempt := some { a with waits := true } }
          else s.segmentDone a false
      let s := s.waitUntil (e + 48 * 20 * 65536)
      let s := s.setPlt fun y => { y with tx := none, txen := false }
      ((s.count PLT_TXN).raise 0x0B0 0).pltShow)

/-- A frame that is being sent is cut (R341): PARTIAL with the symbols sent. -/
def State.cutTone (s : State) : State :=
  match s.plt.tx with
  | none => s
  | some _ =>
    let s := s.setPlt fun y => { y with tx := none, txen := false }
    let s := (((s.count PLT_TXABN).raise 0x0B0 0).raise 0x0B0 1).pltShow
    let s := s.setPlm fun p => { p with lastEnd := some s.clk }
    match s.plm.attempt with
    | none => s
    | some a => s.requestCut a .part

/-- DRIVER_FAULT (R341): the level of PLT_DFLT; `symbols`: the payload symbols sent when it cuts a frame. -/
def execDriverFault (low : Bool) (symbols : BitVec 10) (s : State) : Result :=
  .next (
    if low && !s.plt.dflt then
      let cut := s.plt.tx.isSome
      let s := (s.setPlt fun p => { p with dflt := true }).log 0x6001 deviceTc 0
      let s := s.cutTone.pltShow
      if cut then { s with resp := { code := .part, done := symbols.toNat } } else s
    else (s.setPlt fun p => { p with dflt := low }).pltShow)

/-- AUXOUT fails: the tone channel is disabled, a frame is cut (R22, R340, R341). -/
def State.pltAuxDown (s : State) : State :=
  if s.on PLT_AUXDN then s
  else
    let s := if s.on PLT_EN then s.log 0x6001 deviceTc 1 else s
    ((s.wr PLT_AUXDN 1).cutTone).raise 0x0B0 1

/-- AUXOUT is good again. -/
def State.pltAuxUp (s : State) : State := s.wr PLT_AUXDN 0

/-! ## Receiving segments (R359 to R364, R374) -/

/-- An acknowledgement (R361). -/
def ackBytes (dst me seq : Nat) : List Byte :=
  withFcs [2, BitVec.ofNat 8 dst, BitVec.ofNat 8 me, BitVec.ofNat 8 seq]

/-- A segment received, its header apart (Table 14-6). -/
structure Segment where
  type : Nat
  prio : Nat
  ackReq : Bool
  sec  : Bool
  nxt  : Nat
  txs  : Nat
  orig : Nat
  fdst : Nat
  hops : Nat
  seq  : Nat
  seg  : Nat
  nid  : Nat
  ctr  : Nat
  len  : Nat
  head : List Byte
  body : List Byte
  /-- stamp of the first payload symbol of its frame -/
  first : Nat
  deriving DecidableEq, Repr

/-- The fields of a segment without its FCS. -/
def segmentOfBytes (l : List Byte) (first : Nat) : Segment :=
  let w := leNat (l.take 16)
  ⟨bits w 0 4, bits w 4 2, bit w 6, bit w 7, bits w 8 8, bits w 16 8, bits w 24 8, bits w 32 8, bits w 40 4,
    bits w 48 8, bits w 56 8, bits w 64 16, bits w 80 32, bits w 112 16, l.take 16, l.drop 16, first⟩

/-- An acknowledgement is sent 200 us after the frame (R359, R361). -/
def State.sendAck (s : State) (g : Segment) : State :=
  if g.ackReq ∧ g.nxt = s.saddr ∧ s.toneOff = false then
    s.send .tone (byteNats (ackBytes g.txs s.saddr g.seq))
  else s

/-- A whole frame of this device is placed: into the ring of its endpoint, or with the management messages
or relays; none where there is no room. -/
def State.placeFrame (s : State) (g : Segment) (eui : Nat) (data : List Byte) (ctr : Nat) : Option State :=
  match g.type with
  | 1 =>
    match s.epOfNid g.nid with
    | none => some s
    | some e => s.epReceive e 1 s.okOr g.orig (9 - g.hops) (stampNat s.stamp) eui ctr 0xFF data
  | 3 => some (s.setPlm fun p => { p with mgmt := p.mgmt ++ [⟨g.orig, eui, data, g.first⟩] })
  | _ =>
    some (s.setPlm fun p => { p with
      relays := p.relays ++ [⟨g.orig, g.nid, leNat (data.take 8), data.drop 8, g.hops⟩] })

/-- Reassembly (R364): none where the frame finds no room. -/
def State.reassemble (s : State) (g : Segment) (eui : Nat) (data : List Byte) : Option State :=
  let k := g.seg % 16
  let last := bit g.seg 4
  if k = 0 ∧ last then s.placeFrame g eui data g.ctr
  else if k = 0 then
    if 8 ≤ s.plm.reasm.length then some (s.count PLM_REASMN)
    else some (s.setPlm fun p => { p with
      reasm := p.reasm ++ [⟨g.orig, g.nid, g.type, g.ctr, 1, data, s.stamp.cyc⟩] })
  else
    match s.plm.reasm.find? fun r =>
        r.orig == g.orig && r.nid == g.nid && r.type == g.type && r.next == k && r.first + k == g.ctr with
    | none =>
      some ((s.setPlm fun p => { p with reasm := p.reasm.filter fun r =>
        !(r.orig == g.orig && r.nid == g.nid) }).count PLM_REASMN)
    | some r =>
      if last then
        (s.setPlm fun p => { p with reasm := p.reasm.erase r }).placeFrame g eui (r.data ++ data) r.first
      else
        some (s.setPlm fun p => { p with
          reasm := p.reasm.map fun x => if x = r then { r with next := k + 1, data := r.data ++ data } else x })

/-- A segment for another device is forwarded (R374). -/
def State.forward (s : State) (g : Segment) : State :=
  if g.hops = 0 ∨ (s.hopFor g.fdst).isNone then s.count PLM_FWDDROPN
  else if 32 ≤ (s.plm.queue.filter (·.kind == 0)).length then s.count PLM_NOROOMN
  else
    (s.enqueue { id := 0, kind := 0, type := g.type, prio := g.prio, ackReq := g.ackReq, nid := g.nid,
                 orig := g.orig, fdst := g.fdst, hops := g.hops - 1, data := [],
                 raw := some (g.head ++ g.body) }).sendAck g

/-- The payload of a segment after its protection: none where the MIC does not verify; the outer none where
this device holds no key for it (R362). -/
def State.openSegment (s : State) (g : Segment) (eui : Nat) : Option (Option (List Byte)) :=
  if !g.sec then some (some (g.body.take g.len))
  else
    match s.segKey g.type g.nid with
    | none => none
    | some k => some (ccmOpen k (segNonce eui g.ctr g.seg) (segAad g.head) (g.body.take (g.len + 8)) 8)

/-- A segment addressed to this device (R359, R362 to R364). -/
def State.acceptSegment (s : State) (g : Segment) (eui : Nat) : State :=
  if (g.type == 3 || g.type == 1) && !g.sec then s.count PLM_BADMICN
  else
    match s.openSegment g eui with
    | none => s
    | some none => s.count PLM_BADMICN
    | some (some data) =>
      match if g.type = 4 then some s else s.ctrAccept g.orig g.nid g.ctr with
      | none => s.count PLM_REPLAYN
      | some t =>
        match t.reassemble g eui data with
        | some u => u.sendAck g
        | none => s.count PLM_NOROOMN

/-- A frame has been heard from a neighbour (R370, R383). -/
def State.heardFrom (s : State) (a : Nat) : State :=
  let s := match s.nbIndex a with
    | some i => s.setNb i fun n => { n with heard := s.stamp.cyc }
    | none => s
  s.setPlm fun p => { p with grants := p.grants.map fun g =>
    if g.home = a then
      { g with heard := s.stamp.cyc, taken := none,
               lease := g.lease - min (s.stamp.cyc - g.heard) (s.rd PLM_RG_DEAD) }
    else g }

/-- SEGMENT_RECEIVE (R361, R362): the payload of a tone frame that the PLT has delivered. -/
def State.macReceive (s : State) (l : List Byte) (src eui first : Nat) : State :=
  if s.on PLM_EN = false then s
  else
    let good := decide (4 ≤ l.length) && crc32 (l.take (l.length - 4)) == leNat (l.drop (l.length - 4))
    let s := s.heardFrom src
    if !good then s.count PLM_BADMICN
    else if l.length = 8 ∧ l.head? = some 2#8 then
      match s.plm.attempt with
      | some a =>
        if a.waits ∧ leAt l 1 1 = s.saddr ∧ leAt l 2 1 = a.nxt ∧ leAt l 3 1 = a.seq then s.segmentDone a true
        else s
      | none => s
    else
      let g := segmentOfBytes (l.take (l.length - 4)) first
      if l.length < 20 ∨ g.txs = s.saddr then s
      else if g.nxt ≠ s.saddr ∧ g.nxt ≠ 0xFF then s
      else if !(g.type == 1 || g.type == 3 || g.type == 4) then s.count PLM_RSVN
      else if g.fdst ≠ s.saddr ∧ g.fdst ≠ 0xFF then s.forward g
      else s.acceptSegment g eui

/-- The stamp of the first payload symbol of a frame that has just ended: its length before now, at the phase
measured (R334). -/
def State.firstSymbol (s : State) (f : ToneIn) : Nat :=
  let h := fchOf f.fch
  let t := stampNat s.stamp + 65536 - h.nsym * s.symbolTicks / 64
  ((t : Int) - phaseDiff (t % 65536) f.phase0.toNat).toNat - 65536

/-- TONE_RECEIVE (R332): the PLT receives a frame and delivers it to the MAC, or drops and counts it. -/
def execToneReceive (f : ToneIn) (s : State) : Result :=
  .next (
    if s.toneOff || s.plt.tx.isSome then s
    else
      let src := (fchOf f.fch).src
      let r := s.pltAccept f (s.nbIndex src)
      if r.1 then r.2.macReceive f.payload src f.eui.toNat (s.firstSymbol f) else r.2)

/-- REASSEMBLY_TIMEOUT (R364): frames not reassembled within 64 cycles of their first segment are
dropped. -/
def execReassemblyTimeout (s : State) : Result :=
  .next (
    let late := s.plm.reasm.filter fun r => r.cyc + 64 ≤ s.stamp.cyc
    (s.setPlm fun p => { p with reasm := p.reasm.filter fun r => s.stamp.cyc < r.cyc + 64 }).count PLM_REASMN
      late.length)

/-! ## Management messages -/

/-- The first management message with a name is taken. -/
def State.takeMgmt (s : State) (name : Nat) : Option (MgmtIn × State) :=
  match s.plm.mgmt.find? fun m => leAt m.data 0 1 == name with
  | none => none
  | some m => some (m, s.setPlm fun p => { p with mgmt := p.mgmt.erase m })

/-- The names of management messages. -/
def knownMessage (n : Nat) : Bool := [0x01, 0x02, 0x10, 0x11, 0x12, 0x20, 0x21, 0x22, 0x23].contains n

/-- Messages of other names are dropped and counted. -/
def State.dropUnknown (s : State) : State :=
  let bad := s.plm.mgmt.filter fun m => !knownMessage (leAt m.data 0 1)
  (s.setPlm fun p => { p with mgmt := p.mgmt.filter fun m => knownMessage (leAt m.data 0 1) }).count PLM_RSVN
    bad.length

/-- A set is sent to neighbour `i` (R335, R336). -/
def State.sendSet (s : State) (i : Nat) (m : MapSet) : State :=
  match s.nb i with
  | none => s
  | some n => s.sendMgmt n.saddr (tmrspBytes (s.rd PLT_BAND) s.nTones m)

/-- A new set is issued to neighbour `i` (R336). -/
def State.issueSet (s : State) (i : Nat) : State :=
  let m := s.makeSet i
  (s.sendSet i m).recordIssue i m

/-- TMREQ (R336, R337): a received TMREQ is answered with a map set. -/
def execTmreq (s : State) : Result :=
  .next (
    match s.takeMgmt 0x01 with
    | none => s.dropUnknown
    | some (m, s) =>
      match s.nbIndex m.orig with
      | none => s
      | some i =>
        if s.mapsAdapt then if s.issueFree i then s.issueSet i else s
        else
          match (s.link i).issued with
          | some x => s.sendSet i x
          | none => s)

/-- TMRSP (R334 to R336): a received TMRSP installs the transmit map of its sender. -/
def execTmrsp (s : State) : Result :=
  .next (
    match s.takeMgmt 0x02 with
    | none => s.dropUnknown
    | some (m, s) =>
      match s.nbIndex m.orig with
      | none => s
      | some i =>
        match s.tmrspSet m.data with
        | none => s.count PLT_RSVN
        | some x => (s.installSet i x).noteRoutes)

/-- TMAP_REFRESH (R336): a new set to a neighbour, after PLT_TMREF cycles with enough frames or after a frame of an
unknown generation. -/
def execTmapRefresh (neighbour : Fin 64) (s : State) : Result :=
  .next (
    let i := neighbour.val
    let l := s.link i
    let due := match l.lastIssue with
      | some c => decide (c + s.rd PLT_TMREF ≤ s.stamp.cyc) && decide (s.rd PLT_TMMINF ≤ l.frames)
      | none => decide (s.rd PLT_TMMINF ≤ l.frames)
    if (s.nb i).isSome && (due || l.want) && s.issueFree i && s.mapsAdapt && !s.toneOff then s.issueSet i
    else s)

/-! ## Discovery (R369 to R371) -/

/-- A HELLO of this device (Table 14-7). -/
def State.helloBytes (s : State) : List Byte :=
  let n := s.plm.nbs.map (·.2.saddr)
  0x10 :: leBytes 8 s.eui ++ [BitVec.ofNat 8 s.saddr,
    BitVec.ofNat 8 (s.level + 4 * b2n (!s.toneOff))] ++ leBytes 2 (s.rd PLM_HELLO)
    ++ [BitVec.ofNat 8 n.length] ++ n.map (BitVec.ofNat 8)

/-- HELLO_SEND (R369): the HELLO of the period. -/
def execHelloSend (s : State) : Result :=
  .next (if s.on PLM_EN ∧ s.saddr ≠ 0 ∧ s.level ≤ 2 then s.sendMgmt 0xFF s.helloBytes else s)

/-- A neighbour entry is removed with its maps and routes (R370); `why`: 0 aged, 1 BYE. -/
def State.dropNb (s : State) (i why : Nat) : State :=
  match s.nb i with
  | none => s
  | some n =>
    let s := s.setPlm fun p => { p with nbs := p.nbs.filter (·.1 != i), radvSoon := true }
    let s := s.setPlt fun p => { p with links := p.links.filter (·.1 != i) }
    (s.partner 2 n.saddr).log 0x6002 deviceTc (n.saddr + why * 2 ^ 8)

/-- The entry for a new device: a free one, or the NEW entry heard least recently (R370). -/
def State.nbPlace (s : State) : Option Nat :=
  match (List.range 64).find? fun i => (s.nb i).isNone with
  | some i => some i
  | none =>
    (((s.plm.nbs.filter fun x => !x.2.bidir).foldl (fun b x => match b with
      | none => some x
      | some y => if x.2.heard < y.2.heard then some x else some y) none).map (·.1))

/-- HELLO (R370, R371): a received HELLO. -/
def execHello (s : State) : Result :=
  .next (
    match s.takeMgmt 0x10 with
    | none => s.dropUnknown
    | some (m, s) =>
      let eui := leAt m.data 1 8
      let a := leAt m.data 9 1
      let lists := ((m.data.drop 14).take (leAt m.data 13 1)).contains (BitVec.ofNat 8 s.saddr)
      if a = s.saddr ∧ eui ≠ s.eui then
        let s := s.log 0x6003 deviceTc a
        if eui < s.eui then s.wr PLM_CONFLICT 1 else s
      else
        let set (n : Neighbour) : Neighbour := { n with
          saddr := a, hello := leAt m.data 11 2, heard := s.stamp.cyc, bidir := n.bidir || lists,
          level := bits (leAt m.data 10 1) 0 2 }
        match s.plm.nbs.find? fun x => x.2.eui == eui with
        | some x => s.setNb x.1 set
        | none =>
          match s.nbPlace with
          | none => s.count PLM_NBFULLN
          | some i =>
            let n := set { eui := eui, saddr := a, bidir := false, hello := 0, heard := 0 }
            let s := s.setPlm fun p => { p with nbs := cellInsert i n (p.nbs.filter (·.1 != i)) }
            (s.setPlt fun p => { p with links := p.links.filter (·.1 != i) }).partner 1 a)

/-- BYE (R370): a received BYE removes its sender. -/
def execBye (s : State) : Result :=
  .next (
    match s.takeMgmt 0x11 with
    | none => s.dropUnknown
    | some (m, s) =>
      match s.nbIndex (leAt m.data 1 1) with
      | some i => s.dropNb i 1
      | none => s)

/-- NEIGHBOUR_AGE (R370, R384): neighbours not heard for PLM_AGE times their period are removed; entries do
not age in D3. -/
def execNeighbourAge (s : State) : Result :=
  .next (
    if 3 ≤ s.level then s
    else
      (s.plm.nbs.filter fun x => x.2.heard + s.rd PLM_AGE * x.2.hello ≤ s.stamp.cyc).foldl
        (fun s x => s.dropNb x.1 0) s)

/-- A BYE of this device (R371); the reason byte is 0 for PLM_LEAVE and 1 for Kiln mode. -/
def State.sendBye (s : State) (reason : Nat) : State :=
  s.sendMgmt 0xFF [0x11, BitVec.ofNat 8 s.saddr, BitVec.ofNat 8 reason]

/-! ## Routing (R372, R373) -/

/-- An RADV of this device (R372). -/
def State.radvBytes (s : State) : List Byte :=
  let own := [(s.saddr, s.saddr, 0, 0)]
  let l := (own ++ s.destinations.filterMap fun d =>
    (s.routeTo d).map fun r => (d, r.2.2.2, r.2.1, r.2.2.1)).take 48
  0x12 :: BitVec.ofNat 8 l.length :: l.flatMap fun x =>
    [BitVec.ofNat 8 x.1, BitVec.ofNat 8 x.2.1, BitVec.ofNat 8 x.2.2.1] ++ leBytes 2 x.2.2.2

/-- RADV_SEND (R373): the RADV of the period, or after a change. -/
def execRadvSend (s : State) : Result :=
  .next (
    if s.on PLM_EN ∧ s.saddr ≠ 0 ∧ s.level ≤ 2 then
      let told := s.destinations.filterMap fun d => (s.routeTo d).map fun r => (d, r.2.2.1)
      (s.sendMgmt 0xFF s.radvBytes).setPlm fun p => { p with radvSoon := false, told := told }
    else s)

/-- RADV (R373): a received RADV replaces what its sender has advertised. -/
def execRadv (s : State) : Result :=
  .next (
    match s.takeMgmt 0x12 with
    | none => s.dropUnknown
    | some (m, s) =>
      match s.nbIndex m.orig with
      | none => s
      | some i =>
        let adv := (List.range (min 48 (leAt m.data 1 1))).map fun k =>
          (⟨leAt m.data (2 + 5 * k) 1, leAt m.data (3 + 5 * k) 1, leAt m.data (4 + 5 * k) 1,
            leAt m.data (5 + 5 * k) 2, s.stamp.cyc⟩ : Advert)
        let keep (n : Neighbour) := n.adv.filter fun a => !adv.any (·.dest == a.dest)
        (s.setNb i fun n => { n with adv := keep n ++ adv }).noteRoutes)

/-- ROUTE_AGE (R373, R384): routes not refreshed for PLM_AGE times PLM_RADV cycles are removed. -/
def execRouteAge (s : State) : Result :=
  .next (
    if 3 ≤ s.level then s
    else
      let limit := s.rd PLM_AGE * s.rd PLM_RADV
      (s.setPlm fun p => { p with nbs := p.nbs.map fun x =>
        (x.1, { x.2 with adv := x.2.adv.filter fun a => decide (s.stamp.cyc < a.cyc + limit) }) }).noteRoutes)

end Sys2Proof.Machine
end

