-- ==== Sys2Proof/Machine/Rings.lean ====
section
/-! DEFINITION. Command rings of 64-byte descriptors and 32-byte records (R447, R462), and the end of a grant or
revoke command (R102). -/

namespace Sys2Proof.Machine

open Reg

/-! ## Rings -/

/-- A ring area: base, 2^sl descriptors, 2^cl records (R447). -/
structure CmdRing where
  base : Nat
  sl   : Nat
  cl   : Nat
  deriving DecidableEq, Repr

/-- The address of descriptor `i`. -/
def CmdRing.desc (r : CmdRing) (i : Nat) : Nat := r.base + 0x40 + 64 * (i % 2 ^ r.sl)

/-- The address of record `i`. -/
def CmdRing.rec' (r : CmdRing) (i : Nat) : Nat := r.base + 0x40 + 64 * 2 ^ r.sl + 32 * (i % 2 ^ r.cl)

/-- The length of the area. -/
def CmdRing.len (r : CmdRing) : Nat := 0x40 + 64 * 2 ^ r.sl + 32 * 2 ^ r.cl

/-- The area lies inside the windows of tenant `t`, for reading and for writing (R269). -/
def State.cmdRingMay (s : State) (t : Nat) (r : CmdRing) : Bool :=
  s.tenantMay t false r.base r.len && s.tenantMay t true r.base r.len

/-- New descriptors of a ring. -/
def State.cmdNew (s : State) (r : CmdRing) : Nat :=
  (s.ringIdx r.base + 65536 - s.ringIdx (r.base + 0x04)) % 65536

/-- The ring has room for a record (R268). -/
def State.cmdRoom (s : State) (r : CmdRing) : Bool :=
  (s.ringIdx (r.base + 0x08) + 65536 - s.ringIdx (r.base + 0x0C)) % 65536 != 2 ^ r.cl

/-- A record is put in the ring. -/
def State.cmdPut (s : State) (r : CmdRing) (w : Nat) : State :=
  let i := s.ringIdx (r.base + 0x08)
  (s.store (r.rec' i) (leBytes 32 w)).store (r.base + 0x08) (leBytes 2 ((i + 1) % 65536))

/-- The next descriptor. -/
def State.cmdNext (s : State) (r : CmdRing) : Nat := s.memNat (r.desc (s.ringIdx (r.base + 0x04))) 64

/-- The next descriptor has been taken. -/
def State.cmdTaken (s : State) (r : CmdRing) : State :=
  s.store (r.base + 0x04) (leBytes 2 ((s.ringIdx (r.base + 0x04) + 1) % 65536))

/-- The CRC-32 over bytes 0 to 59 of a descriptor of 64 bytes is right. -/
def cmdCrcOk (w : Nat) : Bool := crc32 (leBytes 60 w) == bits w 480 32

/-- The first item of a list that satisfies `p`, in the order of service of resource `r`: classes and turns,
within a tenant the order of its ring (R113). -/
def State.nextItem (s : State) (r : Nat) (l : List RingItem) (p : RingItem → Bool) : Option RingItem :=
  match s.nextServed r (fun c t => l.any fun x => x.cls == c && x.tc == t && p x) with
  | some (c, t) => l.find? fun x => x.cls == c && x.tc == t && p x
  | none => none

/-- An item submitted at a stamp is delayed: the end of the cycle after its submission has passed. -/
def State.itemLate (s : State) (x : RingItem) : Bool :=
  decide ((x.at' / 65536 + 2) * 65536 ≤ stampNat s.stamp)

/-! ## Grants -/

/-- The outstanding grant or revoke completes with OK: status, log, ring record (R102). `detail`: the fields
above bit 18 of the entry. -/
def State.grantEnd (s : State) (detail : Nat) : State :=
  match s.tnc.grantCmd with
  | none => s
  | some g =>
    let s := s.setTnc fun x => { x with grantCmd := none }
    let s := (s.wr TNC_G_CODE (codeOf .ok)).wr TNC_G_BUSY 0
    let s := s.log (if g.grant then 0x4011 else 0x4012) g.tc
      (g.idx + g.tc * 2 ^ 10 + g.cls * 2 ^ 16 + detail * 2 ^ 20)
    s.ringRecord g.tc (if g.grant then 2 else 3) (codeOf .ok) g.cls g.idx

end Sys2Proof.Machine
end

