-- ==== Sys2Proof/Machine/Sec.lean ====
section
/-! DEFINITION. The security engine (chapter 17): key slots, their generations, persistence and erase, the operations of
the rings, the random bit generator, the identity key and the OTP field area. -/

namespace Sys2Proof.Machine

open Reg

/-- The state with what the security engine holds changed. -/
def State.setSec (s : State) (f : SecState → SecState) : State := { s with sec := f s.sec }

/-! ## OTP (R445, R446) -/

/-- Word `w` of the OTP. -/
def State.otpWord (s : State) (w : Nat) : Nat := (cellAt 0#64 w s.sec.otp).toNat

/-- Words `w` to `w + n - 1` as one number, the first lowest. -/
def State.otpWords (s : State) (w : Nat) : Nat → Nat
  | 0 => 0
  | n + 1 => s.otpWord w + 2 ^ 64 * s.otpWords (w + 1) n

/-- Physical bit `i` of the field area. -/
def State.otpPhys (s : State) (i : Nat) : Bool := bit (s.otpWord (120 + i / 64)) (i % 64)

/-- Logical bit `j` of the field area: the majority of its three physical bits. -/
def State.otpField (s : State) (j : Nat) : Bool :=
  decide (2 ≤ ((List.range 3).filter fun i => s.otpPhys (3 * j + i)).length)

/-- Physical bit `i` of the field area is programmed. -/
def State.otpBurn (s : State) (i : Nat) : State :=
  let w := 120 + i / 64
  s.setSec fun x => { x with otp := cellPut 0#64 w (BitVec.ofNat 64 (setBit (s.otpWord w) (i % 64))) x.otp }

/-- Logical bit `j` is programmed as its three physical bits, in ascending order. -/
def State.otpSet (s : State) (j : Nat) : State := ((s.otpBurn (3 * j)).otpBurn (3 * j + 1)).otpBurn (3 * j + 2)

/-- The rollback counter: the count of set bits. -/
def State.rollback (s : State) : Nat := ((List.range 63).filter s.otpField).length

/-- The registers that show the OTP (Tables 3-9, 17-2, 17-7). -/
def State.otpShow (s : State) : State :=
  let s := (s.wr SEC_RBC s.rollback).wr SEC_REVK (b2n (s.otpField 63) + 2 * b2n (s.otpField 64))
  s.wr SEC_IDRET (b2n (s.otpField 65))

/-! ## Slots (R433 to R439) -/

/-- The usage bits that a type permits (Table 17-1). -/
def typeUsage (t : Nat) : Nat :=
  match t with
  | 1 => 0x03 | 2 => 0x03 | 3 => 0x10 | 4 => 0x2C | 5 => 0x08 | _ => 0

/-- The material bytes of a type (Table 17-1). -/
def typeLen (t : Nat) : Nat :=
  match t with
  | 1 => 16 | 2 => 32 | 3 => 32 | 4 => 32 | 5 => 64 | _ => 0

/-- Material that R433 admits for a type. -/
def materialOk (t : Nat) (m : List Byte) : Bool :=
  if t = 4 then decide (1 ≤ beNat m) && decide (beNat m < ecN)
  else if t = 5 then onCurve (beNat (m.take 32)) (beNat (m.drop 32))
  else true

/-- The material of a slot. -/
def State.slotMat (s : State) (k : Nat) : List Byte := cellAt [] k s.sec.mats

/-- The owner, type and generation of a slot. -/
def State.slotOwn (s : State) (k : Nat) : Nat := s.rd (SEC_S_OWN k)
def State.slotType (s : State) (k : Nat) : Nat := s.rd (SEC_S_TYPE k)
def State.slotGen (s : State) (k : Nat) : Nat := s.rd (SEC_S_GEN k)

/-- The state field of a slot (Table 17-7): erasing, rewrite pending, valid or empty. -/
def State.slotShow (s : State) (k : Nat) : State :=
  let c := if s.sec.erases.any (·.slot == k) then 2
    else if s.sec.ops.any fun o => o.put.any (·.slot == k) then 3
    else if s.slotType k = 0 then 0 else 1
  s.wr (SEC_S_STATE k) c

/-- Group and words of record `i` of a slot in the key area (R441, Table 18-2). -/
def keyGroup (slot i : Nat) : Nat := celGroup (0x82000 + 256 * slot + 128 * i)

/-- The key that wraps the material of a slot (R441): HKDF with no salt, the slot number as info. -/
def State.wrapKey (s : State) (slot : Nat) : List Byte :=
  hkdf [] (beBytes 32 (s.otpWords 6 4)) [BitVec.ofNat 8 slot] 32

/-- The nonce of a key record. -/
def keyNonce (slot ctr : Nat) : List Byte := leBytes 4 ctr ++ leBytes 9 slot

/-- A key record (log entry 25): write counter, attributes, the length of the material, then the wrapped
material and its tag of 16 bytes. -/
def State.keyRecord (s : State) (slot ctr : Nat) : List Byte :=
  let head := leBytes 4 ctr ++ leBytes 4 (s.reg 0x0D0 (0x500 + 4 * slot) % 2 ^ 24)
  let m := s.slotMat slot
  padTo 128 (head ++ leBytes 8 m.length ++ ccmSeal (s.wrapKey slot) (keyNonce slot ctr) head m 16)

/-- What a key record restores: counter, attributes, material; none where it does not verify. -/
def State.readKeyRecord (s : State) (slot i : Nat) : Option (Nat × Nat × List Byte) × State :=
  let r := s.celReadRun (keyGroup slot i) 16
  if r.1.length < 16 then (none, r.2.2)
  else
    let b := groupBytes r.1
    let ctr := leAt b 0 4
    let n := leAt b 8 8
    if ctr = 0 ∨ 64 < n then (none, r.2.2)
    else
      match ccmOpen (s.wrapKey slot) (keyNonce slot ctr) (b.take 8) ((b.drop 16).take (n + 16)) 16 with
      | some m => (some (ctr, leAt b 4 4, m), r.2.2)
      | none => (none, r.2.2)

/-- The record with the higher counter. -/
def newerRecord (a b : Option (Nat × Nat × List Byte)) : Option (Nat × Nat × List Byte) :=
  match a, b with
  | some x, some y => if x.1 < y.1 then some y else some x
  | some x, none => some x
  | none, y => y

/-- The slot's record that does not hold the higher counter is written (R441). -/
def State.persist (s : State) (slot : Nat) : State :=
  let a := s.readKeyRecord slot 0
  let b := a.2.readKeyRecord slot 1
  let ca := (a.1.map (·.1)).getD 0
  let cb := (b.1.map (·.1)).getD 0
  let i := if ca ≤ cb then 0 else 1
  b.2.devWrite srcSec areaKeys (keyGroup slot i) (toGroups (b.2.keyRecord slot (max ca cb + 1)))

/-- A rewrite is committed (R436, R439, R441). -/
def State.commitPut (s : State) (p : KeyPut) : State :=
  let g := (s.slotGen p.slot + 1) % 256
  let s := ((s.wr (SEC_S_TYPE p.slot) p.type).wr (SEC_S_USE p.slot) p.use).wr (SEC_S_GEN p.slot) g
  let s := (s.wr (SEC_S_OWN p.slot) p.owner).wr (SEC_S_PERSIST p.slot) (b2n p.pers)
  let s := s.setSec fun x => { x with mats := cellPut [] p.slot p.mat x.mats }
  let s := (s.slotShow p.slot).log 0x5011 p.owner (p.slot + g * 2 ^ 8 + p.type * 2 ^ 16)
  if p.pers then s.persist p.slot else s

/-! ## Records and completion -/

/-- The ring of tenant `t` (Table 17-7). -/
def State.secRing (s : State) (t : Nat) : CmdRing :=
  ⟨s.rd (SEC_RB_LO t) * 64 + s.rd (SEC_RB_HI t) * 2 ^ 32, s.rd (SEC_RSL t), s.rd (SEC_RCL t)⟩

/-- The fields of a descriptor (Table 17-4). -/
def sdOp (w : Nat) : Nat := bits w 0 8
def sdSlot (w : Nat) : Nat := bits w 8 5
def sdDst (w : Nat) : Nat := bits w 16 5
def sdGchk (w : Nat) : Bool := bit w 21
def sdPers (w : Nat) : Bool := bit w 22
def sdGen (w : Nat) : Nat := bits w 24 8
def sdItem (w : Nat) : Nat := bits w 32 16
def sdIn (w : Nat) : Nat := bits w 64 40
def sdIlen (w : Nat) : Nat := bits w 104 21
def sdOut (w : Nat) : Nat := bits w 128 40
def sdAux (w : Nat) : Nat := bits w 192 40
def sdAlen (w : Nat) : Nat := bits w 232 16
def sdP0 (w : Nat) : Nat := bits w 248 4
def sdP1 (w : Nat) : Nat := bits w 252 4
def sdUse (w : Nat) : Nat := bits w 256 6

/-- Records of tenant `t` that are held are written while there is room, at most `fuel`. -/
def State.secRelease (t : Nat) : Nat → State → State
  | 0, s => s
  | fuel + 1, s =>
    match s.sec.held.find? (·.key == t) with
    | none => s
    | some h =>
      if s.cmdRoom (s.secRing t) then
        State.secRelease t fuel
          ((s.setSec fun x => { x with held := x.held.erase h }).cmdPut (s.secRing t) h.rec'.toNat)
      else s

/-- A completion record of tenant `t` (Table 17-6): written, or held while the ring is full; discarded while a
system reset keeps the ring stopped (R451, R540). -/
def State.secRecord (s : State) (t w : Nat) (c : Status) (res : Bool) (gen olen : Nat) : State :=
  let s := s.outcome t resSec c (sdItem w)
  let v := withCrc32 (sdItem w + codeOf c * 2 ^ 16 + b2n res * 2 ^ 24 + sdSlot w * 2 ^ 32 + gen * 2 ^ 40
    + olen * 2 ^ 48 + stampNat s.stamp * 2 ^ 72)
  if s.sec.stopped.contains t then s
  else if s.sec.held.any (·.key == t) || !s.cmdRoom (s.secRing t) then
    s.setSec fun x => { x with held := x.held ++ [⟨t, BitVec.ofNat 256 v⟩] }
  else s.cmdPut (s.secRing t) v

/-- The record of an operation that runs nothing. -/
def State.secRefuse (s : State) (x : RingItem) (c : Status) : State :=
  s.secRecord x.tc x.word.toNat c false (s.slotGen (sdSlot x.word.toNat)) 0

/-- Units shown busy (Table 17-7). -/
def State.unitShow (s : State) : State :=
  s.wr SEC_UBUSY ((List.range 6).foldl (fun a u =>
    a + b2n (s.sec.ops.any (·.unit == u)) * 2 ^ u) 0)

/-- An operation holds a set of contents that was latched when the erase `e` was accepted (R437). -/
def SecErase.heldBy (e : SecErase) (o : SecOp) : Bool := o.holds && o.slot == e.slot && e.gens.contains o.gen

/-- Erases whose contents no operation holds any more complete (R437). -/
def State.settleErases (s : State) : State :=
  let done := s.sec.erases.filter fun e => !s.sec.ops.any e.heldBy
  done.foldl (fun s e =>
    let g := s.slotGen e.slot
    let s := s.setSec fun x => { x with erases := x.erases.filter (· != e) }
    let s := (s.slotShow e.slot).raise 0x0D0 1
    let s := s.log 0x5012 e.owner (e.slot + g * 2 ^ 8 + e.aborted * 2 ^ 16)
    let s := match e.item with
      | some x => (s.count SEC_OPN).secRecord x.tc x.word.toNat
          (firstOf (if s.itemLate x then .delayed else .ok) s.okOr) true g 0
      | none => s
    if e.command then s.grantEnd 0 else s) s

/-- An erase of a slot is accepted (R437): generation, type 0, the records of a persistent slot. -/
def State.eraseSlot (s : State) (k : Nat) (item : Option RingItem) (command : Bool) (owner : Nat) : State :=
  let gens := (s.sec.ops.filter fun o => o.holds && o.slot == k).map (·.gen)
  let s := (s.wr (SEC_S_GEN k) ((s.slotGen k + 1) % 256)).wr (SEC_S_TYPE k) 0
  let s := s.wr (SEC_S_USE k) 0
  let s := s.setSec fun x => { x with
    mats := cellErase k x.mats, erases := x.erases ++ [⟨k, s.clk, 0, item, command, owner, gens⟩] }
  let s := if s.on (SEC_S_PERSIST k) then s.persist k else s
  let s := if k = 0 then (s.wr SEC_IDOK 0).wr CLG_KEYOK 0 else s
  (s.slotShow k).settleErases

/-! ## Checks (R449) -/

/-- The bytes of input that an operation of 0x01 to 0x13 reads, its auxiliary bytes, and the bytes that it
writes to memory. -/
def secExtents (w : Nat) : Nat × Nat × Nat :=
  let n := sdIlen w
  let t := 2 * sdP1 w
  match sdOp w with
  | 0x01 => (n, 0, 32)
  | 0x02 => (n, 0, 32)
  | 0x03 => (n, sdAlen w, n + t)
  | 0x04 => (n, sdAlen w, n - t)
  | 0x05 => (n, 0, 64)
  | 0x06 => (n, sdAlen w, 0)
  | 0x07 => (n, sdAlen w, 0)
  | 0x08 => (0, 0, n)
  | 0x10 => (n, 0, 0)
  | 0x13 => (0, 0, 64)
  | _ => (0, 0, 0)

/-- The operation names SEC_D_SLOT. -/
def secNames (op : Nat) : Bool := op != 0x01 && op != 0x08

/-- Type and usage that Table 17-5 asks of the slot. -/
def secSlotFits (op type use : Nat) : Bool :=
  match op with
  | 0x02 => type == 3 && bit use 4
  | 0x03 => (type == 1 || type == 2) && bit use 0
  | 0x04 => (type == 1 || type == 2) && bit use 1
  | 0x05 => type == 4 && bit use 2
  | 0x06 => (type == 4 || type == 5) && bit use 3
  | 0x07 => type == 4 && bit use 5
  | 0x12 => type != 0
  | 0x13 => type == 4
  | _ => true

/-- A LOAD from the ring of TC00 into an empty slot held by TC01 (R440). -/
def State.authorityLoad (s : State) (t w : Nat) : Bool :=
  t == 0 && sdOp w == 0x10 && s.slotOwn (sdSlot w) == 1 && s.slotType (sdSlot w) == 0

/-- Step 2 of R449: the tenant may name the slots and reach the memory. -/
def State.secMay (s : State) (t w : Nat) : Bool :=
  let x := secExtents w
  let k := sdSlot w
  let own := !secNames (sdOp w) || s.slotOwn k == t || (sdOp w == 0x13 && k == 0) || s.authorityLoad t w
  let dst := sdOp w != 0x07 || s.slotOwn (sdDst w) == t
  own && dst && s.tenantMay t false (sdIn w) x.1 && s.tenantMay t false (sdAux w) x.2.1
    && s.tenantMay t true (sdOut w) x.2.2

/-- Step 4 of R449: a reserved encoding, a slot that does not fit, a length or value outside range. -/
def State.secBad (s : State) (w : Nat) : Bool :=
  let op := sdOp w
  let n := sdIlen w
  let k := sdSlot w
  let type := sdP0 w
  let ty := s.slotType k
  let rewrite := op == 0x07 || op == 0x10 || op == 0x11
  let known := (1 ≤ op && op ≤ 8) || (0x10 ≤ op && op ≤ 0x13)
  let inp := s.bytes (sdIn w) n
  !known || decide (1048576 < n) || !secSlotFits op ty (s.rd (SEC_S_USE k))
    || (rewrite && (typeLen type == 0 || sdUse w &&& typeUsage type != sdUse w))
    || ((op == 0x05 || op == 0x06) && n != 32)
    || (op == 0x07 && (n != 64 || type == 5 || !onCurve (beNat (inp.take 32)) (beNat (inp.drop 32))))
    || (op == 0x10 && (n != typeLen type || !materialOk type inp))
    || (op == 0x11 && type == 5)
    || ((op == 0x03 || op == 0x04) &&
        (decide (type < 7) || decide (13 < type) || decide (sdP1 w < 2) || decide (8 < sdP1 w)
          || decide (sdAlen w < type) || decide (2 ^ (8 * (15 - type)) ≤ n)))

/-- The checks of R449 on a descriptor: the first that fails. -/
def State.secCheck (s : State) (t w : Nat) : Option Status :=
  let op := sdOp w
  let k := sdSlot w
  if s.tenant t ≠ tenActive then some .notOwner
  else if !cmdCrcOk w then some .integFail
  else if !s.secMay t w then some .notOwner
  else if (secNames op && k == 0 && op != 0x13) || (op == 0x07 && sdDst w == 0)
      || (s.authorityLoad t w && s.on TNC_SEALED) then some .prot
  else if s.secBad w then some .cfgInvalid
  else if sdIlen w = 0 ∧ ((1 ≤ op ∧ op ≤ 4) ∨ op = 8) then some .zeroLen
  else if sdGchk w ∧ secNames op ∧ s.slotGen k ≠ sdGen w then some .keyRetired
  else none

/-- One descriptor of tenant `t` is taken (R449). -/
def State.secTake (s : State) (t : Nat) : State :=
  let r := s.secRing t
  let w := s.cmdNext r
  let x : RingItem := ⟨t, s.rd (TNC_CLASS t), BitVec.ofNat 512 w, max 1 (ceilDiv (sdIlen w) 8192),
    s.periodOf 3, stampNat s.stamp⟩
  let s := match s.secCheck t w with
    | some c => s.secRefuse x c
    | none =>
      match s.takeQuota 3 t x.cost with
      | some s => s.setSec fun y => { y with items := y.items ++ [x] }
      | none => s.secRefuse x .refusedQuota
  s.cmdTaken r

/-- Descriptors are taken while there are new ones and no record is held, at most `fuel`. -/
def State.secTakes (t : Nat) : Nat → State → State
  | 0, s => s
  | fuel + 1, s =>
    if s.cmdNew (s.secRing t) = 0 ∨ s.sec.held.any (·.key == t) = true then s
    else State.secTakes t fuel (s.secTake t)

/-- SEC_RING_POLL (R447): the ring of a tenant is checked and its new descriptors are taken. -/
def execSecRingPoll (tenant : Fin 64) (s : State) : Result :=
  .next (
    let t := tenant.val
    if !s.on SEC_EN || !s.on (SEC_REN t) || decide (3 ≤ s.level) || s.sec.stopped.contains t then s
    else
      let r := s.secRing t
      if !s.cmdRingMay t r || decide (2 ^ r.sl < s.cmdNew r) then
        if s.on (SEC_RFAULT t) then s
        else ((s.wr (SEC_RFAULT t) 1).raise 0x0D0 3).log 0x5007 t 0
      else State.secTakes t 256 (State.secRelease t 256 (s.wr (SEC_RFAULT t) 0)))

/-! ## Operations -/

/-- `n` random bytes: the DRBG's output is free (R430, log entry 7). -/
def State.randomBytes (s : State) : Nat → List Byte × State
  | 0 => ([], s)
  | n + 1 =>
    let d := s.draw 8
    let r := d.2.randomBytes n
    (BitVec.ofNat 8 d.1 :: r.1, r.2)

/-- A random scalar from 1 to n − 1. -/
def State.randomScalar (s : State) : Nat × State :=
  let d := s.draw 256
  (1 + d.1 % (ecN - 1), d.2)

/-- An ECDSA signature with nonces drawn until one is good, at most `fuel` more (R430). -/
def State.signWith (s : State) (d : Nat) (digest : List Byte) : Nat → List Byte × State
  | 0 => ([], s)
  | fuel + 1 =>
    let k := s.randomScalar
    match ecdsaSign d k.1 digest with
    | some x => (beBytes 32 x.1 ++ beBytes 32 x.2, k.2)
    | none => k.2.signWith d digest fuel

/-- The units that perform an opcode (R430): 0 public key, 1 hash, 2 and 3 AES, 4 random, 5 key management. -/
def unitsOf (op : Nat) : List Nat :=
  match op with
  | 0x01 => [1] | 0x02 => [1] | 0x03 => [2, 3] | 0x04 => [2, 3] | 0x05 => [0] | 0x06 => [0] | 0x07 => [0]
  | 0x08 => [4] | _ => [5]

/-- A free unit for an opcode. -/
def State.freeUnit (s : State) (op : Nat) : Option Nat :=
  (unitsOf op).find? fun u => !s.sec.ops.any (·.unit == u)

/-- The next admitted item of an opcode whose unit is free (R113): of the items for the same units, the first. -/
def State.secNext (s : State) (op : Nat) : Option (Nat × RingItem) :=
  match s.freeUnit op with
  | none => none
  | some u =>
    match s.nextItem 3 s.sec.items fun x => unitsOf (sdOp x.word.toNat) == unitsOf op with
    | some x => if sdOp x.word.toNat = op then some (u, x) else none
    | none => none

/-- An item leaves the queue of admitted operations. -/
def State.secDrop (s : State) (x : RingItem) : State :=
  s.setSec fun y => { y with items := y.items.erase x }

/-- What the start of an operation finds (R432, R435, R438): the code that ends it without running. -/
def State.secStartCheck (s : State) (x : RingItem) : Option Status :=
  let w := x.word.toNat
  let op := sdOp w
  let k := sdSlot w
  if secNames op && !(s.slotOwn k == x.tc || (op == 0x13 && k == 0) || s.authorityLoad x.tc w) then
    some .notOwner
  else if op = 0x07 ∧ s.slotOwn (sdDst w) ≠ x.tc then some .notOwner
  else if !secSlotFits op (s.slotType k) (s.rd (SEC_S_USE k)) then some .cfgInvalid
  else if sdGchk w ∧ secNames op ∧ s.slotGen k ≠ sdGen w then some .keyRetired
  else if s.on SEC_RBGERR ∧ (op = 5 ∨ op = 7 ∨ op = 8 ∨ op = 0x11) then some .integFail
  else none

/-- An operation of an opcode starts: the next item is latched and computed by `f`, which gives its output, its
result and its rewrite (R435). -/
def State.secStart (s : State) (op : Nat) (f : State → Nat → List Byte → List Byte × Bool × Option KeyPut × State) :
    State :=
  match s.secNext op with
  | none => s
  | some (u, x) =>
    let w := x.word.toNat
    let k := sdSlot w
    let s := (s.secDrop x).serveTurn 3 x.cls x.tc
    match s.secStartCheck x with
    | some c => s.secRefuse x c
    | none =>
      let r := f s w (s.slotMat k)
      let o : SecOp := {
        item := x, op := op, unit := u, slot := k, gen := s.slotGen k,
        holds := secNames op && op != 0x10 && op != 0x11 && op != 0x12,
        out := r.1, addr := sdOut w, res := r.2.1, put := r.2.2.1,
        code := firstOf (if s.itemLate x then .delayed else .ok) s.okOr }
      let s := (r.2.2.2.setSec fun y => { y with ops := y.ops ++ [o] }).unitShow
      match r.2.2.1 with
      | some p => s.slotShow p.slot
      | none => s

/-- The input of a descriptor. -/
def State.secInput (s : State) (w : Nat) : List Byte := s.bytes (sdIn w) (sdIlen w)

/-- The nonce and the associated data of a CCM descriptor. -/
def State.secNonce (s : State) (w : Nat) : List Byte := s.bytes (sdAux w) (sdP0 w)
def State.secAad (s : State) (w : Nat) : List Byte := s.bytes (sdAux w + sdP0 w) (sdAlen w - sdP0 w)

/-- SHA256: operation 0x01. -/
def execSha256 (s : State) : Result :=
  .next (s.secStart 0x01 fun s w _ => (sha256 (s.secInput w), true, none, s))

/-- HMAC: operation 0x02. -/
def execHmac (s : State) : Result :=
  .next (s.secStart 0x02 fun s w key => (hmac key (s.secInput w), true, none, s))

/-- CCM_ENC: operation 0x03. -/
def execCcmEnc (s : State) : Result :=
  .next (s.secStart 0x03 fun s w key =>
    (ccmSeal key (s.secNonce w) (s.secAad w) (s.secInput w) (2 * sdP1 w), true, none, s))

/-- CCM_DEC: operation 0x04; zeros where the tag does not match (R450). -/
def execCcmDec (s : State) : Result :=
  .next (s.secStart 0x04 fun s w key =>
    match ccmOpen key (s.secNonce w) (s.secAad w) (s.secInput w) (2 * sdP1 w) with
    | some m => (m, true, none, s)
    | none => (List.replicate (sdIlen w - 2 * sdP1 w) 0, false, none, s))

/-- SIGN: operation 0x05. -/
def execSign (s : State) : Result :=
  .next (s.secStart 0x05 fun s w key =>
    let r := s.signWith (beNat key) (s.secInput w) 8
    (r.1, true, none, r.2))

/-- VERIFY: operation 0x06 (R450). -/
def execVerify (s : State) : Result :=
  .next (s.secStart 0x06 fun s w key =>
    let q := if key.length = 32 then ecPublic (beNat key) else (beNat (key.take 32), beNat (key.drop 32))
    let sig := padTo 64 (s.bytes (sdAux w) (sdAlen w))
    ([], ecdsaVerify q (s.secInput w) (beNat (sig.take 32)) (beNat (sig.drop 32)), none, s))

/-- The rewrite of a descriptor: slot, type, usage, persistence, owner, material. -/
def keyPut (w slot owner : Nat) (m : List Byte) : Option KeyPut :=
  some ⟨slot, sdP0 w, sdUse w, sdPers w, owner, m⟩

/-- ECDH: operation 0x07; the key derived goes into SEC_D_DST (R449). -/
def execEcdh (s : State) : Result :=
  .next (s.secStart 0x07 fun s w key =>
    let p := s.secInput w
    let x := (ecMul 256 (beNat key) (some (beNat (p.take 32), beNat (p.drop 32)))).getD (0, 0)
    let aux := s.bytes (sdAux w) (sdAlen w)
    let m := hkdf (aux.take 32) (beBytes 32 x.1) (aux.drop 32) (typeLen (sdP0 w))
    ([], true, keyPut w (sdDst w) (s.slotOwn (sdDst w)) m, s))

/-- RANDOM: operation 0x08. -/
def execRandom (s : State) : Result :=
  .next (s.secStart 0x08 fun s w _ =>
    let r := s.randomBytes (sdIlen w)
    (r.1, true, none, r.2))

/-- LOAD: operation 0x10, a rewrite. -/
def execLoad (s : State) : Result :=
  .next (s.secStart 0x10 fun s w _ => ([], true, keyPut w (sdSlot w) (s.slotOwn (sdSlot w)) (s.secInput w), s))

/-- GENERATE: operation 0x11, a rewrite. -/
def execGenerate (s : State) : Result :=
  .next (s.secStart 0x11 fun s w _ =>
    let k := sdSlot w
    if sdP0 w = 4 then
      let d := s.randomScalar
      ([], true, keyPut w k (s.slotOwn k) (beBytes 32 d.1), d.2)
    else
      let r := s.randomBytes (typeLen (sdP0 w))
      ([], true, keyPut w k (s.slotOwn k) r.1, r.2))

/-- ERASE: operation 0x12 is accepted as the key-management unit takes it (R437). -/
def execErase (s : State) : Result :=
  .next (
    match s.secNext 0x12 with
    | none => s
    | some (_, x) =>
      let s := (s.secDrop x).serveTurn 3 x.cls x.tc
      match s.secStartCheck x with
      | some c => s.secRefuse x c
      | none => s.eraseSlot (sdSlot x.word.toNat) (some x) false x.tc)

/-- PUBKEY: operation 0x13. -/
def execPubkey (s : State) : Result :=
  .next (s.secStart 0x13 fun s _ key => (pointBytes (ecPublic (beNat key)), true, none, s))

/-- An operation leaves its unit with a code: output, rewrite, record (R434, R436, R450, R451). -/
def State.secFinish (s : State) (o : SecOp) (c : Status) : State :=
  let s := (s.setSec fun y => { y with ops := y.ops.filter (· != o) }).unitShow
  let w := o.item.word.toNat
  let s := if c = Status.keyRetired then s.count SEC_ABORTN
    else (s.count SEC_OPN).store o.addr o.out
  let s := match o.put with
    | some p => if c = Status.keyRetired then s.slotShow p.slot else s.commitPut p
    | none => s
  let gen := match o.put with
    | some p => if p.slot = o.slot then s.slotGen p.slot else o.gen
    | none => o.gen
  let done := if c = Status.keyRetired then 0 else o.out.length
  (s.secRecord o.item.tc w c (o.res && c != Status.keyRetired) gen done).settleErases

/-- SEC_OP_COMPLETE (R451): the operation on a unit completes. -/
def execSecOpComplete (unit : Fin 6) (s : State) : Result :=
  .next (
    match s.sec.ops.find? (·.unit == unit.val) with
    | some o => s.secFinish o o.code
    | none => s)

/-- ERASE_DEADLINE (R437): 2 ms after an erase of a slot, operations that still hold its contents abort. -/
def execEraseDeadline (slot : Fin 32) (s : State) : Result :=
  .next (
    let k := slot.val
    match s.sec.erases.find? (·.slot == k) with
    | none => s
    | some e =>
      let s := s.waitUntil (e.clk + msTicks 2)
      let l := s.sec.ops.filter e.heldBy
      let s := s.setSec fun x => { x with erases := x.erases.map fun y =>
        if y = e then { y with aborted := y.aborted + l.length } else y }
      l.foldl (fun s o => s.secFinish o .keyRetired) s)

/-- Entry into D3: operations admitted and not started are SKIPPED (R452). -/
def State.secEnterD3 (s : State) : State :=
  let l := s.sec.items
  l.foldl (fun s x => s.secRefuse x .skipped) (s.setSec fun y => { y with items := [] })

/-! ## Random bit generator (R432) -/

/-- RBG_FAIL: a health test of the noise source fails. -/
def execRbgFail (s : State) : Result :=
  .next (
    let old := s.on SEC_RBGERR
    let s := ((s.wr SEC_RBGERR 1).count SEC_RBGFAILN).setSec fun x => { x with failed := some s.clk }
    if old then s else s.raise 0x0D0 0)

/-- RBG_RECOVER: 1,024 samples in succession have passed, one a microsecond. -/
def execRbgRecover (s : State) : Result :=
  .next (
    if s.on SEC_RBGERR then
      let t := match s.sec.failed with
        | some c => c + 48 * 1024 * 65536
        | none => s.clk
      ((s.waitUntil t).wr SEC_RBGERR 0).raise 0x0D0 0
    else s)

/-! ## OTP commands and identity (R442 to R446) -/

/-- An OTP command completes (R446). -/
def State.otpDone (s : State) (c : Status) : State := ((s.otpShow).wr SEC_O_CODE (codeOf c)).raise 0x0D0 2

/-- An OTP command: POWER_LOST while writes are blocked or outside D0 to D2, else a check and its action; where
both apply, the first in the order of R11. -/
def State.otpCommand (s : State) (c : Status) (f : State → State) : State :=
  let c := if s.celBlocked ∨ 3 ≤ s.level then firstOf .powerLost c else c
  if c = .ok then (f s).otpDone .ok else s.otpDone c

/-- SEC_RBADV sets counter bits up to MGC_B_SVN. -/
def State.rollbackAdvance (s : State) : State :=
  let n := s.rd MGC_B_SVN
  let c : Status := if !s.ccx.bootOk then .prot else if n ≤ s.rollback then .skipped else .ok
  s.otpCommand c fun s => (List.range 63).foldl (fun s j => if s.rollback < n then s.otpSet j else s) s

/-- Retirement of the identity (R444): armed within 65,536 ct. -/
def State.retireIdentity (s : State) : State :=
  let armed := match s.sec.armed with
    | some t => decide (s.ticks ≤ t + 65536)
    | none => false
  let s := s.setSec fun x => { x with armed := none }
  s.otpCommand (if armed then .ok else .timeout) fun s => (s.eraseSlot 0 none false 0).otpSet 65

/-- The commands of SEC_OCMD in a word written. -/
def State.otpWrite (s : State) (d : Nat) : State :=
  let s := if bit d 0 then s.rollbackAdvance else s
  let revoke (k : Nat) (s : State) : State :=
    s.otpCommand (if s.ccx.kidx = k then .prot else .ok) fun s => s.otpSet (63 + k)
  let s := if bit d 1 then revoke 0 s else s
  let s := if bit d 2 then revoke 1 s else s
  let s := if bit d 4 then s.retireIdentity else s
  if bit d 3 then s.setSec fun x => { x with armed := some s.ticks } else s

/-- The identity load of a cold start (R442): `ok`, the OTP words pass their check. The self-test signs and
verifies a test message. -/
def State.loadIdentity (s : State) (ok : Bool) : State :=
  let fail (c : Nat) (s : State) : State :=
    ((s.wr SEC_IDOK 0).wr CLG_KEYOK 0).log 0x5011 0 (c * 2 ^ 24)
  if s.otpField 65 then fail 2 s
  else if !ok then fail 0 s
  else
    let d := s.otpWords 2 4
    if d = 0 ∨ ecN ≤ d then fail 1 s
    else
      let q := pointBytes (ecPublic d)
      let s := ((s.wr (SEC_S_TYPE 0) 4).wr (SEC_S_USE 0) 4).wr (SEC_S_GEN 0) 1
      let s := s.setSec fun x => { x with mats := cellPut [] 0 (beBytes 32 d) x.mats }
      let s := (List.range 16).foldl (fun s k => s.wr (SEC_IDPUB k) (leAt q (4 * k) 4)) (s.slotShow 0)
      ((s.wr SEC_IDOK 1).wr CLG_KEYOK 1).log 0x5011 0 (2 ^ 8 + 4 * 2 ^ 16)

/-- A slot takes what its newer record holds; without one it is empty, which is logged unless its area is blank
(R441). -/
def State.restoreSlot (s : State) (k : Nat) (best : Option (Nat × Nat × List Byte)) (blank : Bool) : State :=
  match best with
  | some x =>
    ((s.setReg 0x0D0 (0x500 + 4 * k) x.2.1).setSec fun y => { y with mats := cellPut [] k x.2.2 y.mats }).slotShow k
  | none => if blank then s else s.log 0x5011 (s.slotOwn k) k

/-- Persistent slots are restored at a cold start; the others are empty (R441). -/
def State.restoreSlots (s : State) : State :=
  ((List.range 31).map (· + 1)).foldl (fun s k =>
    let a := s.readKeyRecord k 0
    let b := a.2.readKeyRecord k 1
    let best := newerRecord a.1 b.1
    let s := b.2
    let blank := (List.range 32).all fun i => s.celRaw (keyGroup k 0 + i) == celWord (keyGroup k 0 + i) 0
    s.restoreSlot k best blank) s

/-! ## Registers (R453) -/

/-- Writes of page 0x0D0. -/
def secWrite : Writer := fun s q d =>
  if q.off = 0x04C then (.ok, s.otpWrite d)
  else if 0x100 ≤ q.off ∧ q.off < 0x500 then
    let t := (q.off - 0x100) / 16
    let old := s.reg q.page q.off
    let on := s.on (SEC_REN t)
    let bad := match q.off % 16 with
      | 0x4 => on && (bits d 0 8 != bits old 0 8
          || s.heldWord q.page (q.off - 4) / 64 != s.reg q.page (q.off - 4) / 64)
      | 0x8 => decide (8 < bits d 0 4) || decide (8 < bits d 8 4)
          || (on && (bits d 0 4 != bits old 0 4 || bits d 8 4 != bits old 8 4))
      | _ => false
    if bad then (.cfgInvalid, s)
    else
      let s := s.storeWord q.page q.off d
      (.ok, if q.off % 16 ≤ 4 then s.setSec fun x => { x with stopped := x.stopped.erase t } else s)
  else plainWrite s q d

/-- SEC_RBADV (R446). -/
def execSecRbadv (w : RegWrite) (s : State) : Result :=
  .next (s.writeReg secWrite 0x0D0 0x04C w fun d => setBit d 0)

/-- SEC_REVK0 (R446). -/
def execSecRevk0 (w : RegWrite) (s : State) : Result :=
  .next (s.writeReg secWrite 0x0D0 0x04C w fun d => setBit d 1)

/-- SEC_REVK1 (R446). -/
def execSecRevk1 (w : RegWrite) (s : State) : Result :=
  .next (s.writeReg secWrite 0x0D0 0x04C w fun d => setBit d 2)

/-- SEC_IDARM (R444). -/
def execSecIdarm (w : RegWrite) (s : State) : Result :=
  .next (s.writeReg secWrite 0x0D0 0x04C w fun d => setBit d 3)

/-- SEC_IDRETIRE (R444). -/
def execSecIdretire (w : RegWrite) (s : State) : Result :=
  .next (s.writeReg secWrite 0x0D0 0x04C w fun d => setBit d 4)

end Sys2Proof.Machine
end

