-- ==== Sys2Proof/Machine/Clg.lean ====
section
/-! DEFINITION. The Cask log (chapter 16): entries, chaining, blocks and seals, coalescing and the full mode, release,
views and export, and page 0x0CC. -/

namespace Sys2Proof.Machine

open Reg

/-- The state with what the log engine holds changed. -/
def State.setClg (s : State) (f : ClgState → ClgState) : State := { s with clg := f s.clg }

/-! ## Event codes (Table 16-6) -/

/-- Codes of severity 3, 2 and 0; every other code of the table has severity 1. -/
def alarmCodes : List Nat := [0x1001, 0x1011, 0x1021, 0x1031, 0x1041, 0x2004, 0x2033, 0x2034, 0x3001, 0x3005,
  0x3012, 0x3023, 0x3031, 0x3032, 0x5002, 0x5003, 0x5008, 0x5009, 0x500A, 0x500B, 0x500C, 0x5F01, 0x6003,
  0x6014, 0x6015, 0x6016, 0x7001, 0x7002, 0x7003, 0x7004, 0x7005]
def warningCodes : List Nat := [0x1022, 0x1032, 0x2002, 0x2021, 0x2022, 0x2031, 0x2041, 0x3002, 0x3003, 0x3006,
  0x3011, 0x3024, 0x4002, 0x4005, 0x4015, 0x4022, 0x4023, 0x5001, 0x5004, 0x5005, 0x5006, 0x5007, 0x5F02,
  0x5F03, 0x5F21, 0x6001, 0x8002, 0x8014]

/-- The severity of a code. -/
def severityOf (code : Nat) : Nat :=
  if alarmCodes.contains code then 3
  else if warningCodes.contains code then 2
  else if code = 0x5F10 then 0
  else 1

/-- The class of a code. -/
def classOf (code : Nat) : Nat := code / 4096

/-- The key of an event: code, tenant and its first two data bytes (R421). -/
def eventKey (code tc data : Nat) : Nat := code + tc * 2 ^ 16 + data % 65536 * 2 ^ 24

/-! ## Places -/

/-- Head block, position and tail. -/
def State.logHead (s : State) : Nat := s.rd CLG_HEADBLK
def State.logPos (s : State) : Nat := s.rd CLG_HEADPOS
def State.logTail (s : State) : Nat := s.rd CLG_TAIL

/-- Free slots (chapter 16). -/
def State.logFree (s : State) : Nat := 16384 - (256 * (s.logHead - s.logTail) + s.logPos)

/-- The first group of slot `p` of block `b`. -/
def slotGroup (b p : Nat) : Nat := ((b % 64) * 256 + p) * 4

/-- The bytes of SYS_UID. -/
def State.uidBytes (s : State) : List Byte := (List.range 4).flatMap fun k => leBytes 4 (s.rd (SYS_UID k))

/-- The first eight bytes of a digest as a number, byte 0 lowest. -/
def trunc8 (l : List Byte) : Nat := leNat ((sha256 l).take 8)

/-- H_in of block 0 (R414). -/
def State.firstHin (s : State) : Nat := trunc8 (ascii "CASKINIT" ++ s.uidBytes)

/-- H_in of block `b` (R414). -/
def State.hin (s : State) (b : Nat) : Nat :=
  match s.clg.hins.find? (·.1 == b) with
  | some x => x.2
  | none => if b = 0 then s.firstHin else 0

/-- The newest chained hash. -/
def State.lastHash (s : State) : Nat :=
  if s.logPos = 0 then s.hin s.logHead else s.rd CLG_LH_LO + 2 ^ 32 * s.rd CLG_LH_HI

/-- The registers that show the log (Table 16-9). -/
def State.clgShow (s : State) : State :=
  (s.wr CLG_FREE (satNat 15 s.logFree)).wr CLG_SIGNING (b2n (s.clg.signing != []))

/-- The mode takes a value (R421, R422). -/
def State.setLogMode (s : State) (m : Nat) : State :=
  if s.rd CLG_MODE = m then s else (s.wr CLG_MODE m).raise 0x0CC 1

/-- The log writes nothing: it is full, or its head is unknown (R422, R552). -/
def State.logFull (s : State) : Bool := s.rd CLG_MODE == 2

/-! ## The control record (chapter 16; layout: log entry 26) -/

/-- The log control record: counter, head, tail, H_in of head and of tail, the class counters, the stamp of the
first event counted, CRC-32. -/
def State.logRecord (s : State) : List Byte :=
  let b := leBytes 8 (s.clg.ctl + 1) ++ leBytes 4 s.logHead ++ leBytes 4 s.logTail ++ leBytes 8 (s.hin s.logHead)
    ++ leBytes 8 (s.hin s.logTail) ++ ((List.range 8).flatMap fun c => leBytes 4 (s.rd (CLG_FULLCNT c)))
    ++ leBytes 8 (s.clg.first.getD 0)
  let b := padTo 124 b
  b ++ leBytes 4 (crc32 b)

/-- The log control record is written, in the copy that is not the newer (R457). -/
def State.saveLogRecord (s : State) : State :=
  let l := s.logRecord
  let n := s.clg.ctl + 1
  let g := celGroup (if n % 2 = 1 then 0x80100 else 0x80180)
  (s.setClg fun c => { c with ctl := n }).devWrite srcLog areaLogCtl g (toGroups l)

/-! ## Entries (R411) -/

/-- Bytes 0 to 23 of an entry accepted now; `deferred`: its stamp is taken at the write (Table 16-3). -/
def State.entryHead (s : State) (code tc data : Nat) (deferred : Bool) : List Byte :=
  let sev := severityOf code + 32 * b2n deferred + 64 * b2n s.estimated + 128 * s.rd CTF_UTC_EST
  leBytes 8 (stampNat s.stamp) ++ leBytes 4 (s.rd CTF_UTC) ++ leBytes 2 code
    ++ [BitVec.ofNat 8 tc, BitVec.ofNat 8 sev] ++ leBytes 8 data

/-- One entry is written at the head and chained (R411, R414). -/
def State.putEntry (s : State) (code tc data : Nat) (deferred : Bool) : State :=
  let s := if s.logHead = 0 ∧ s.logPos = 0 ∧ s.clg.ctl = 0 then s.saveLogRecord else s
  let h := s.entryHead code tc data deferred
  let hash := trunc8 (leBytes 8 s.lastHash ++ h)
  let b := s.logHead
  let p := s.logPos
  let s := s.devWrite srcLog (b % 64) (slotGroup b p) (toGroups (h ++ leBytes 8 hash))
  let s := (s.wr CLG_LH_LO (hash % 2 ^ 32)).wr CLG_LH_HI (hash / 2 ^ 32)
  let s := s.setClg fun c => { c with
    written := eventKey code tc data :: c.written,
    hins := if p = 0 ∧ b = 0 then cellInsert 0 s.firstHin c.hins else c.hins }
  (s.wr CLG_HEADPOS (p + 1)).clgShow

/-- The entry of a row of the table of repeats (R421). -/
def State.putCoalesce (s : State) (k : Nat × Nat) : State :=
  s.putEntry 0x5F20 deviceTc (bits k.1 0 16 + bits k.1 16 8 * 2 ^ 16 + bits k.1 24 16 * 2 ^ 24
    + satNat 24 k.2 * 2 ^ 40) false

/-- The table of repeats is written and cleared (R421). -/
def State.flushTable (s : State) : State :=
  s.clg.table.foldl State.putCoalesce (s.setClg fun c => { c with table := [] })

/-- `n` PAD entries (R417). -/
def State.putPads (s : State) : Nat → State
  | 0 => s
  | n + 1 => (s.putEntry 0x5F10 deviceTc 0 false).putPads n

/-- Both seal slots of a block as zeros (R416). -/
def State.zeroSeal (s : State) (b : Nat) : State :=
  s.devWrite srcLog (b % 64) (slotGroup b 254) (List.replicate 8 0)

/-- The current block is closed: its signature is submitted, and the next block begins (R415). -/
def State.closeBlock (s : State) : State :=
  let b := s.logHead
  let h := s.lastHash
  let s := s.setClg fun c => { c with
    signing := c.signing ++ [b], written := [], table := [],
    hins := (cellInsert (b + 1) h c.hins).filter fun x => b + 1 < x.1 + 64 }
  ((s.wr CLG_HEADBLK (b + 1)).wr CLG_HEADPOS 0).clgShow

/-- The block is filled to position 253 and closed (R417, R422). -/
def State.padAndClose (s : State) : State :=
  let s := s.flushTable
  (s.putPads (254 - s.logPos)).closeBlock

/-- After an entry or a repeat: repeats are written before the block ends, a full block is closed, and the mode
follows the free slots (R415, R421, R422). -/
def State.logSettle (s : State) : State :=
  let s := if 254 ≤ s.logPos + s.clg.table.length then s.flushTable else s
  let s := if 254 ≤ s.logPos then s.closeBlock else s
  if s.logFree ≤ 32 then
    let s := if s.logPos = 0 then s else s.padAndClose
    (s.setLogMode 2).clgShow
  else if s.logFree ≤ s.rd CLG_RESV then s.setLogMode 1
  else s.setLogMode 0

/-- An event counts in CLG_FULLCNTc of its class (R422). -/
def State.countFull (s : State) (code : Nat) : State :=
  let s := s.count (CLG_FULLCNT (classOf code - 1))
  s.setClg fun c => { c with first := some (c.first.getD (stampNat s.stamp)) }

/-- An event is written, coalesced or counted (R421, R422). -/
def State.acceptEvent (s : State) (code tc data : Nat) (deferred : Bool) : State :=
  if s.logFull then s.countFull code
  else
    let k := eventKey code tc data
    let row := s.clg.table.find? (·.1 == k)
    if s.rd CLG_MODE = 1 ∧ s.clg.written.contains k = true ∧ (row.isSome = true ∨ s.clg.table.length < 16) then
      let n := (row.map (·.2)).getD 0
      let s := (s.count CLG_COALN).setClg fun c => { c with
        table := if row.isSome then c.table.map fun x => if x.1 = k then (k, n + 1) else x
          else c.table ++ [(k, 1)] }
      s.logSettle
    else (s.putEntry code tc data deferred).logSettle

/-- One FULL_SUMMARY entry for each class whose count is not zero; then the counts are clear (R412, R422). -/
def State.putSummaries (s : State) : State :=
  let s := (List.range 8).foldl (fun s c =>
    let n := s.rd (CLG_FULLCNT c)
    if n = 0 ∨ s.logFull = true then s
    else ((s.putEntry 0x5F21 deviceTc (c + 1 + n * 2 ^ 32) false).wr (CLG_FULLCNT c) 0).logSettle) s
  s.setClg fun c => { c with first := none }

/-- LOG_EVENT (R412): the oldest event raised is accepted: held before the seed, lost while Cellar writes are
blocked. -/
def State.takeEvent (s : State) : State :=
  match s.events with
  | [] => s
  | e :: l =>
    let s := { s with events := l }
    if s.celBlocked then
      if s.start.begun then s.setClg fun c => { c with lost := c.lost.map (· + 1) } else { s with events := e :: l }
    else if s.ctf.seeded then s.acceptEvent e.code e.tc (leNat e.data) false
    else if s.clg.early.length < 128 then s.setClg fun c => { c with early := c.early ++ [e] }
    else s.countFull e.code

/-- LOG_EVENT (R412). -/
def execLogEvent (s : State) : Result := .next s.takeEvent

/-- The events raised so far are accepted, at most `fuel`. -/
def State.drainEvents : Nat → State → State
  | 0, s => s
  | fuel + 1, s => if s.events = [] then s else State.drainEvents fuel s.takeEvent

/-! ## Seals (R415, R416) -/

/-- The 32 bytes of a slot as they are stored; none where a group is uncorrectable. -/
def State.slotBytes (s : State) (b p : Nat) : Option (List Byte) × State :=
  let r := s.celReadRun (slotGroup b p) 4
  if r.1.length < 4 then (none, r.2.2) else (some (groupBytes r.1), r.2.2)

/-- The bytes of a slot without a record of the read. -/
def State.slotRaw (s : State) (b p : Nat) : List Byte :=
  (List.range 4).flatMap fun k => leBytes 8 ((s.celRaw (slotGroup b p + k)).toNat % 2 ^ 64)

/-- The seal message of a block (Table 16-4). -/
def State.sealMessage (s : State) (b : Nat) : List Byte :=
  let hashes := (List.range 254).map fun p => (s.slotRaw b p).drop 24
  ascii "CASKSEAL" ++ s.uidBytes ++ leBytes 8 b ++ leBytes 8 (s.hin b) ++ (s.slotRaw b 253).drop 24
    ++ sha256 hashes.flatten ++ List.replicate 32 0

/-- The seal of block `b` ends: CLG_SEALNOW and the control record (R415 to R417). -/
def State.sealDone (s : State) (b : Nat) : State :=
  let s := s.setClg fun c => { c with signing := c.signing.erase b }
  let s := if s.clg.sealNow = some b then
      (s.setClg fun c => { c with sealNow := none }).wr CLG_CCODE (codeOf .ok)
    else s
  s.saveLogRecord.clgShow

/-- A block is signed with the identity key and its seal pair written (R415). -/
def State.signBlock (s : State) (b : Nat) : State :=
  let r := s.signWith (beNat (s.slotMat 0)) (sha256 (s.sealMessage b)) 8
  r.2.devWrite srcLog (b % 64) (slotGroup b 254) (toGroups r.1)

/-- The signature of the oldest block completes, or its slots are written as zeros; a write block delays it
(R415, R416). -/
def State.sealStep (s : State) : State :=
  match s.clg.signing with
  | [] => s
  | b :: _ =>
    if s.celBlocked then s
    else if s.on SEC_IDOK ∧ s.on SEC_RBGERR = false then ((s.signBlock b).raise 0x0CC 0).sealDone b
    else
      let why := if s.on SEC_IDOK then 1 else 0
      let s := ((s.zeroSeal b).raise 0x0CC 2).sealDone b
      s.acceptEvent 0x5F01 deviceTc (b % 2 ^ 32 + why * 2 ^ 32) false

/-- SEAL_WRITE (R415, R416). -/
def execSealWrite (s : State) : Result := .next s.sealStep

/-- Every seal that is due is written, at most `fuel`. -/
def State.finishSeals : Nat → State → State
  | 0, s => s
  | fuel + 1, s => if s.clg.signing = [] then s else State.finishSeals fuel s.sealStep

/-- A block has its seal: it is closed and not being signed. -/
def State.blockSealed (s : State) (b : Nat) : Bool := decide (b < s.logHead) && !s.clg.signing.contains b

/-- CLG_SEALNOW (R417): SKIPPED while the log is full or before the seed. -/
def State.sealNow (s : State) : State :=
  if s.logFull || !s.ctf.seeded || s.celBlocked then s.wr CLG_CCODE (codeOf .skipped)
  else
    let b := s.logHead
    (s.setClg fun c => { c with sealNow := some b }).padAndClose.logSettle

/-! ## Release (R420) -/

/-- A release of every block below `t`. -/
def State.releaseLog (s : State) (t : Nat) : Status × State :=
  let unsealed := s.clg.signing.any fun b => b < t
  if !s.clg.known || decide (s.logHead < t) then (.cfgInvalid, s)
  else if t ≤ s.logTail then (.zeroLen, s)
  else if unsealed then (.cfgInvalid, s)
  else
    let full := s.logFull
    let s := (s.wr CLG_TAIL t).clgShow
    let s := if full then (s.setLogMode 1).putSummaries else s
    (.ok, (s.logSettle.saveLogRecord).log 0x4042 deviceTc t)

/-! ## Head at start (R418) -/

/-- What a log control record holds: counter, head, tail, H_in of both, counters, first stamp; none where it is not
valid. -/
def logRecordOf (l : List Byte) : Option (Nat × Nat × Nat × Nat × Nat) :=
  if l.length = 128 ∧ crc32 (l.take 124) = leAt l 124 4 ∧ leAt l 0 8 ≠ 0 then
    some (leAt l 0 8, leAt l 8 4, leAt l 12 4, leAt l 16 8, leAt l 24 8)
  else none

/-- A copy of the log control record. -/
def State.readLogRecord (s : State) (byte : Nat) : List Byte × State :=
  let r := s.celReadRun (celGroup byte) 16
  (groupBytes r.1, r.2.2)

/-- The head is followed from position `p` of block `b` with the hash before it, at most `fuel` positions:
position, hash, last stamp. -/
def State.followChain (s : State) (b : Nat) : Nat → Nat → Nat → Nat → Nat × Nat × Nat
  | 0, p, h, t => (p, h, t)
  | fuel + 1, p, h, t =>
    let e := s.slotRaw b p
    let x := trunc8 (leBytes 8 h ++ e.take 24)
    if x = leAt e 24 8 then s.followChain b fuel (p + 1) x (leAt e 0 8) else (p, h, t)

/-- The slot at the head is torn (R418). -/
def State.slotTorn (s : State) (b p last : Nat) : Bool :=
  let e := s.slotRaw b p
  e.any (· != 0) && decide (last ≤ leAt e 0 8)

/-- A slot at the head is treated as R418 states. -/
def State.tornHead (s : State) (last : Nat) : State :=
  if s.slotTorn s.logHead s.logPos last then (s.count CLG_TORNN).log 0x5F02 deviceTc 1 else s

/-- The log engine finds its head at a cold start (R418, R552). -/
def State.findHead (s : State) : State :=
  let a := s.readLogRecord 0x80100
  let b := a.2.readLogRecord 0x80180
  let s := b.2
  let best := [logRecordOf a.1, logRecordOf b.1].foldl (fun m x => match m, x with
    | some y, some z => if y.1 < z.1 then some z else some y
    | none, z => z
    | y, none => y) none
  match best with
  | none =>
    let blank := (List.range 65536).all fun g => s.celRaw g == celWord g 0
    if blank then s
    else (s.setClg fun c => { c with known := false }).setLogMode 2
  | some (n, head, tail, hh, ht) =>
    let rec' := if (logRecordOf a.1).any (·.1 == n) then a.1 else b.1
    let blocks := (List.range (head - tail)).map (tail + ·)
    let hins := (tail, ht) :: blocks.map fun b => (b + 1, leAt (s.slotRaw b 253) 24 8)
    let s := s.setClg fun c => { c with
      ctl := n, known := true, hins := cellInsert head hh (hins.foldl (fun l x => cellInsert x.1 x.2 l) []),
      first := if leAt rec' 64 8 = 0 then none else some (leAt rec' 64 8) }
    let s := (List.range 8).foldl (fun s c => s.wr (CLG_FULLCNT c) (leAt rec' (32 + 4 * c) 4)) s
    let f := s.followChain head 254 0 hh 0
    let s := ((s.wr CLG_TAIL tail).wr CLG_HEADBLK head).wr CLG_HEADPOS f.1
    let s := (s.wr CLG_LH_LO (f.2.1 % 2 ^ 32)).wr CLG_LH_HI (f.2.1 / 2 ^ 32)
    let s := if f.1 < 254 then s.tornHead f.2.2 else s.closeBlock
    let s := if s.logFree ≤ 32 then s.setLogMode 2 else if s.logFree ≤ s.rd CLG_RESV then s.setLogMode 1 else s
    s.clgShow

/-- LOG_LOST where events were lost (R418): `any`, the log held entries before this start. -/
def State.logLost (s : State) (any : Bool) : State :=
  let s' := s.setClg fun c => { c with lost := some 0 }
  match s.clg.lost with
  | some 0 => s
  | some n => s'.log 0x5F03 deviceTc (satNat 32 n)
  | none => if any then s'.log 0x5F03 deviceTc 0xFFFFFFFF else s'

/-- A block whose 254 entries are written has a seal that does not verify (R416). -/
def State.sealBad (s : State) (b : Nat) : Bool :=
  let r := beNat (s.slotRaw b 254)
  let t := beNat (s.slotRaw b 255)
  let q := ecPublic (beNat (s.slotMat 0))
  (r == 0 && t == 0) || !ecdsaVerify q (sha256 (s.sealMessage b)) r t

/-- Before the first entry of a start, retained blocks without a good seal are signed (R416). -/
def State.resignBlocks (s : State) : State :=
  if s.on SEC_IDOK then
    ((List.range (s.logHead - s.logTail)).map (s.logTail + ·)).foldl (fun s b =>
      if s.sealBad b then
        (s.signBlock b).setClg fun c => { c with signing := c.signing.erase b }
      else s) s
  else s

/-- The seed has been accepted: held events are written, then the summaries (R412). -/
def State.clgSeeded (s : State) : State :=
  let s := s.resignBlocks
  let l := s.clg.early
  let s := s.setClg fun c => { c with early := [] }
  let s := l.foldl (fun s e => s.acceptEvent e.code e.tc (leNat e.data) true) s
  if s.logFull then s else s.putSummaries

/-- Cellar writes are blocked: the events that wait are lost (R418). -/
def State.clgBlocked (s : State) : State :=
  let n := s.events.length
  { s with events := [] }.setClg fun c => { c with lost := c.lost.map (· + n) }

/-- The write block lifts without a start (R418). -/
def State.clgLifted (s : State) : State := (s.tornHead (2 ^ 64)).logLost true

/-! ## Views (R424 to R426) -/

/-- An entry is seen in full by tenant `t` (R424). -/
def entrySeen (t : Nat) (e : List Byte) : Bool :=
  let code := leAt e 12 2
  let tc := leAt e 14 1
  let c := classOf code
  tc == t || (tc == 0xFF && (c == 1 || c == 2 || c == 8)) || (tc == 1 && c == 3)
    || (decide (0x5F01 ≤ code) && decide (code ≤ 0x5F21))

/-- A slot in a view: the entries of others redacted, seal slots in full (R424). -/
def viewSlot (view : Option Nat) (p : Nat) (e : List Byte) : List Byte :=
  match view with
  | none => e
  | some t =>
    if 254 ≤ p ∨ entrySeen t e = true then e
    else List.replicate 12 0 ++ [0xFE, 0xFF] ++ List.replicate 10 0 ++ e.drop 24

/-- A block can still be read: at most 63 blocks below the head (log entry 27). -/
def State.blockHeld (s : State) (b : Nat) : Bool :=
  s.clg.known && decide (b ≤ s.logHead) && decide (s.logHead < b + 64)

/-- The slots written in a block that can be read. -/
def State.slotsIn (s : State) (b : Nat) : Nat :=
  if b = s.logHead then s.logPos else if s.clg.signing.contains b then 254 else 256

/-- The page of the register set of a request (R425): the page itself for TC00, else one of the tenant's own. -/
def clgSet (q : Req) : Nat := if q.slot.isSome ∧ q.tc ≠ 0 then 0x400 + q.tc else 0x0CC

/-- The view of a request (R425): full through the direct window. -/
def clgView (q : Req) : Option Nat := if q.slot.isSome then some q.tc else none

/-- The field of a register set. -/
def inSet (set : Nat) (f : Fld) : Fld := { f with page := set }

/-- The slot selected in a register set (R426): the code and its 32 bytes. -/
def State.readSelected (s : State) (set : Nat) (view : Option Nat) : Status × List Byte × State :=
  let b := s.rd (inSet set CLG_RD_BLK)
  let p := s.rd (inSet set CLG_RD_POS)
  if s.blockHeld b ∧ p < s.slotsIn b then
    let r := s.slotBytes b p
    match r.1 with
    | some e => (.ok, viewSlot view p e, r.2)
    | none => (.integFail, List.replicate 32 0, r.2)
  else (.cfgInvalid, List.replicate 32 0, s)

/-- Reads of page 0x0CC: the registers held once per tenant come from the set of the requester; CLG_RDW0 returns the
slot selected and latches the rest (R425, R426). -/
def clgRead : Reader := fun s q =>
  if perTenant q.page q.off then
    let set := clgSet q
    let s := if q.off = 0x080 then
        let r := s.readSelected set (clgView q)
        let s := r.2.2.wr (inSet set CLG_RD_CODE) (codeOf r.1)
        (List.range 8).foldl (fun s k => s.wr (inSet set (CLG_RDW k)) (leAt r.2.1 (4 * k) 4)) s
      else s
    (.ok, shownWord (RegMap.fieldsAt 0x0CC q.off) (s.reg set q.off), s)
  else plainRead s q

/-! ## Export (R427) -/

/-- The bytes of one block of an export: slots beyond the head as 0xFF. -/
def State.exportBlock (s : State) (view : Option Nat) (b : Nat) : List Byte :=
  (List.range 256).flatMap fun p =>
    if p < s.slotsIn b then viewSlot view p (s.slotRaw b p) else List.replicate 32 0xFF

/-- The export header (Table 16-5). -/
def State.exportHeader (s : State) (x : ExportRun) : List Byte :=
  let last := s.slotsIn (x.first + x.count - 1) % 256
  let pub := (List.range 16).flatMap fun k => leBytes 4 (s.rd (SEC_IDPUB k))
  let h := ascii "CASKEXP1" ++ s.uidBytes ++ leBytes 8 x.first ++ leBytes 4 x.count
    ++ [BitVec.ofNat 8 (x.view.getD 0xFF), BitVec.ofNat 8 last, 0, 0] ++ leBytes 8 (s.hin x.first) ++ pub
    ++ List.replicate 12 0
  h ++ leBytes 4 (crc32 h)

/-- An export is asked for in a register set (R427). -/
def State.startExport (s : State) (set tc : Nat) (view : Option Nat) : State :=
  let first := s.rd (inSet set CLG_EXP_BLK)
  let n := s.rd (inSet set CLG_EXP_CNT)
  let dst := s.rd (inSet set CLG_ED_LO) * 64 + s.rd (inSet set CLG_ED_HI) * 2 ^ 32
  let held := (List.range n).all fun k => s.blockHeld (first + k)
  let c : Status :=
    if n ≠ 0 ∧ s.tenantMay tc true dst (128 + 8192 * n) = false then .notOwner
    else if !held then .cfgInvalid
    else if n = 0 then .zeroLen
    else .ok
  if c = .ok then
    (s.wr (inSet set CLG_EXP_BUSY) 1).setClg fun x => { x with
      exports := x.exports ++ [⟨set, first, n, dst, tc, view⟩] }
  else (s.wr (inSet set CLG_EXP_CODE) (codeOf c)).raise 0x0CC 3

/-- EXPORT_COMPLETE (R427): the oldest export writes its header and blocks and completes. -/
def execExportComplete (s : State) : Result :=
  .next (
    match s.clg.exports with
    | [] => s
    | x :: l =>
      let bytes := s.exportHeader x ++ (List.range x.count).flatMap fun k => s.exportBlock x.view (x.first + k)
      let s := (s.setClg fun c => { c with exports := l }).store x.dst bytes
      ((s.wr (inSet x.set CLG_EXP_BUSY) 0).wr (inSet x.set CLG_EXP_CODE) 0).raise 0x0CC 3)

/-! ## Registers (R428, R429) -/

/-- The tenant of a code that firmware may submit (Table 16-6). -/
def firmwareTc (code : Nat) : Option Nat :=
  match code with
  | 0x2004 => some 0xFF
  | 0x2041 => some 0xFF
  | 0x4002 => some 0xFF
  | 0x4023 => some 1
  | _ => none

/-- A write of a register held once per tenant (R425, R427). -/
def State.clgTenantWrite (s : State) (q : Req) (d : Nat) : Status × State :=
  let set := clgSet q
  match q.off with
  | 0x0A4 =>
    if 64 < bits d 0 7 then (.cfgInvalid, s) else (.ok, s.wr (inSet set CLG_EXP_CNT) d)
  | 0x0AC =>
    let put (s : State) (off d : Nat) : State :=
      s.setReg set off (storedWord (RegMap.fieldsAt 0x0CC off) (s.reg set off) d)
    let t := put (put s 0x0A8 (s.heldWord set 0x0A8)) 0x0AC d
    (.ok, { t with hold := cellErase (regKey set 0x0A8) t.hold })
  | 0x0B0 =>
    if !bit d 0 then (.ok, s)
    else if s.on (inSet set CLG_EXP_BUSY) then (.refusedPriority, s)
    else (.ok, s.startExport set q.tc (clgView q))
  | _ =>
    (.ok, s.setReg set q.off (storedWord (RegMap.fieldsAt 0x0CC q.off) (s.reg set q.off) d))

/-- Writes of page 0x0CC. -/
def clgWrite : Writer := fun s q d =>
  let ccode (r : Status × State) : Status × State := (r.1, r.2.wr CLG_CCODE (codeOf r.1))
  if perTenant q.page q.off then s.clgTenantWrite q d
  else
    match q.off with
    | 0x054 =>
      ccode (if bits d 0 14 < 512 ∨ 8192 < bits d 0 14 then (.cfgInvalid, s)
        else (.ok, s.storeWord q.page q.off d))
    | 0x058 => ccode (s.releaseLog d)
    | 0x05C => (.ok, if bit d 0 then s.sealNow else s)
    | 0x0C8 =>
      let tc := bits d 16 8
      if firmwareTc (bits d 0 16) = some tc then
        (.ok, (s.log (bits d 0 16) tc (s.rd CLG_FD_LO + 2 ^ 32 * s.rd CLG_FD_HI)).wr CLG_FW_CCODE 0)
      else (.cfgInvalid, s.wr CLG_FW_CCODE (codeOf .cfgInvalid))
    | _ => plainWrite s q d

/-- CLG_SEALNOW (R417): a write of 1. -/
def execClgSealnow (w : RegWrite) (s : State) : Result :=
  .next (s.writeReg clgWrite 0x0CC 0x05C w fun d => setBit d 0)

/-- CLG_RELEASE (R420): a write of a block number. -/
def execClgRelease (w : RegWrite) (s : State) : Result :=
  .next (s.writeReg clgWrite 0x0CC 0x058 w id)

/-- CLG_FW_CODE (R428): a write of a code and its tenant. -/
def execClgFwCode (w : RegWrite) (s : State) : Result :=
  .next (s.writeReg clgWrite 0x0CC 0x0C8 w id)

/-- The byte address of a word of page 0x0CC for a requester: the alias slot 0x04 of its tenant, or the direct
window for TC00 (R425). -/
def clgAddr (tc off : Nat) : BitVec 32 :=
  if tc = 0 then directAddr 0x0CC off else BitVec.ofNat 32 (0x60000000 + tc * 1048576 + 4 * 4096 + off)

/-- CLG_EXP_GO (R427): a write of 1, in the requester's view. -/
def execClgExpGo (w : RegWrite) (s : State) : Result :=
  .next (s.write clgWrite { port := w.port, tc := w.tc, addr := clgAddr w.tc.val 0x0B0,
                            data := BitVec.ofNat 32 (setBit w.data.toNat 0), cc := w.cc })

/-- CLG_RDW0_READ (R426): a read of CLG_RDW0, in the requester's view. -/
def execClgRdw0Read (r : RegRead) (s : State) : Result :=
  .next (s.read clgRead { port := r.port, tc := r.tc, addr := clgAddr r.tc.val 0x080 })

/-- FULLCNT_SAVE (R422): while the log is full its counters are saved. -/
def execFullcntSave (s : State) : Result :=
  .next (if s.logFull ∧ s.clg.known = true then s.saveLogRecord else s)

end Sys2Proof.Machine
end

