-- ==== Sys2Proof/Machine/Bga.lean ====
section
/-! DEFINITION. The backup gauge (chapter 19): estimation, rest and OCV correction, end points and learning,
impedance, maintenance discharge, sense wires, records and page 0x0E0; the state of the power path and of the
charger, which the gauge shares with the PMU (R500, R510, R514). -/

namespace Sys2Proof.Machine

open Reg

/-- The state with what the gauge holds changed. -/
def State.setBga (s : State) (f : BgaState → BgaState) : State := { s with bga := f s.bga }

/-- The state with what the PMU holds changed. -/
def State.setPmu (s : State) (f : PmuState → PmuState) : State := { s with pmu := f s.pmu }

/-! ## The power path and the charger -/

/-- PMU states (Table 20-4). -/
def pstKiln : Nat := 0
def pstStart : Nat := 1
def pstOnVin : Nat := 2
def pstOnPack : Nat := 3
def pstCutPending : Nat := 4
def pstCutOff : Nat := 5

/-- The state of the PMU. -/
def State.pst (s : State) : Nat := s.rd PMU_PST

/-- Charger states (Table 20-8). -/
def chgOff : Nat := 0
def chgCurrent : Nat := 1
def chgVoltage : Nat := 2
def chgDone : Nat := 3
def chgTemp : Nat := 4
def chgFault : Nat := 5

/-- The charger takes a state; each change raises PMU_I_CHG (R514). -/
def State.setChg (s : State) (c : Nat) : State :=
  if s.rd PMU_CHG_ST = c then s else (s.wr PMU_CHG_ST c).raise 0x0E8 4

/-- The charger may run (R514). -/
def State.chgMay (s : State) : Bool :=
  s.pst == pstOnVin && decide (s.level ≤ 2) && s.on PMU_CHG_EN && s.on PMU_PACKOK && s.rd BGA_MNT_ST != 2

/-- A charge begins. -/
def State.chgBegin (s : State) : State :=
  (s.setPmu fun p => { p with charge := some s.clk }).setChg (if s.pmu.ntcOut then chgTemp else chgCurrent)

/-- The charger follows its conditions: it stops, except in FAULT, or starts (R514). -/
def State.chgFollow (s : State) : State :=
  let c := s.rd PMU_CHG_ST
  if c = chgFault then s
  else if !s.chgMay then (s.setPmu fun p => { p with charge := none }).setChg chgOff
  else if c = chgOff then s.chgBegin
  else s

/-- BGA_ONPACK: the device runs from the pack with the charger off; its rise makes a snapshot due (R494). -/
def State.onpackFollow (s : State) : State :=
  let now := s.pst == pstOnPack || s.pst == pstCutPending
  let old := s.on BGA_ONPACK
  let s := s.wr BGA_ONPACK (b2n now)
  if now && !old && s.rd BGA_ST == 2 then s.raise 0x0E0 0 else s

/-- The PMU takes a state (R510). -/
def State.setPst (s : State) (p : Nat) : State := ((s.wr PMU_PST p).onpackFollow).chgFollow

/-! ## Fractions -/

/-- The sum of two fractions. -/
def addFrac (a b : Int × Nat) : Int × Nat := (a.1 * b.2 + b.1 * a.2, a.2 * b.2)

/-- `a` is at most `b`. -/
def leFrac (a b : Int × Nat) : Bool := decide (a.1 * b.2 ≤ b.1 * a.2)

/-! ## Measurements (R479) -/

/-- States of the gauge (R492). -/
def bgaOff : Nat := 0
def bgaWait : Nat := 1
def bgaRun : Nat := 2

/-- The gauge is in RUN. -/
def State.bgaRuns (s : State) : Bool := s.rd BGA_ST == bgaRun

/-- Ī in µA: one code is 1,525,880 / BGA_RSH µA, of 1,000 samples. -/
def State.meanUa (s : State) (m : GaugeSecond) : Int × Nat := (m.current * 1525880, 1000 * s.rd BGA_RSH)

/-- V̄ ÷ `n` in 0.1 mV: one code is 4 of them, of 1,000 samples. -/
def meanV (m : GaugeSecond) (n : Nat) : Int × Nat := (m.pack, 250 * n)

/-- A charging second. -/
def State.charging (s : State) (m : GaugeSecond) : Bool := !leFrac (s.meanUa m) (1000 * s.rd BGA_IREST, 1)

/-- A discharging second. -/
def State.discharging (s : State) (m : GaugeSecond) : Bool :=
  !leFrac (-(1000 * s.rd BGA_IREST : Nat), 1) (s.meanUa m)

/-- The means of the second are taken over and shown; a cell without a sample keeps its mean (R479). -/
def State.takeMeans (s : State) (m : GaugeSecond) : State :=
  let n := s.rd BGA_NCELL
  let l := (List.range n).map fun k =>
    let x := m.cells.getD k (0, 0)
    if x.2 = 0 then s.bga.means.getD k (0, 1) else x
  let s := s.setBga fun b => { b with means := l }
  let ua := s.meanUa m
  let s := s.wr BGA_IMEAN (unsigned 16 (satSigned 16 (divRound ua.1 (1000 * ua.2))))
  let s := s.wr BGA_VPACK (satNat 16 (divRoundNat m.pack 2500))
  (List.range 4).foldl (fun s k =>
    let x := l.getD k (0, 1)
    s.wr (BGA_VCELL k) (satNat 16 (divRoundNat x.1 x.2))) s

/-! ## Sense wires (R490, R491) -/

/-- Some verdict other than OK stands. -/
def State.senseBad (s : State) : Bool := s.rd BGA_SV != 0

/-- Learning ends with a code; BGA_LRN_CODE says how. -/
def State.learnEnd (s : State) (c : Status) : State :=
  if s.on BGA_LRNACT then
    (((s.wr BGA_LRNACT 0).wr BGA_LRN_CODE (codeOf c)).raise 0x0E0 2).setBga fun b => { b with dsum := 0 }
  else s

/-- The verdict follows the first row of Table 19-1 that applies; a verdict ends learning (R484, R491). -/
def State.senseShow (s : State) : State :=
  let v : Nat × Nat :=
    if s.bga.measBad then (3, 0)
    else
      match s.bga.opens.foldl (fun a k => some (min k (a.getD k))) (none : Option Nat) with
      | some k => (1, k)
      | none =>
        match s.bga.cellBad with
        | some k => (2, k)
        | none => (0, 0)
  let changed := s.rd BGA_SV != v.1 || s.rd BGA_SIDX != v.2
  let s := (s.wr BGA_SV v.1).wr BGA_SIDX v.2
  let s := if changed then s.raise 0x0E0 1 else s
  if v.1 = 0 then s else s.learnEnd .skipped

/-- A cell out of range whose two lines have been tested since it left, and pass, is at fault (row 3). -/
def State.probeSettle (s : State) : State :=
  let s := s.setBga fun b => { b with probes := b.probes.filter fun p => p.lines != [] }
  let bad := s.bga.outs.filter fun k =>
    !(s.bga.probes.any fun p => p.cell == k) && !s.bga.opens.contains (k - 1) && !s.bga.opens.contains k
  let s := s.setBga fun b => { b with cellBad := bad.foldl (fun a k => some (min k (a.getD k))) b.cellBad }
  s.senseShow

/-- The sum check and the range check of a second (R490, R491). -/
def State.senseStep (s : State) (m : GaugeSecond) : State :=
  let n := s.rd BGA_NCELL
  let l := s.bga.means
  let sum := l.foldl (fun a x => addFrac a ((x.1 : Int), x.2)) ((0 : Int), 1)
  let v := meanV m 1
  let d := sum.1 * v.2 - v.1 * sum.2
  let off := decide (100 * s.rd BGA_SUMTOL * (sum.2 * v.2) < d.natAbs)
  let s := s.setBga fun b =>
    let bad := if off then b.sumBad + 1 else 0
    let good := if off then 0 else b.sumOk + 1
    { b with sumBad := bad, sumOk := good,
             measBad := if b.measBad then decide (good < 60) else decide (3 ≤ bad) }
  let outs := ((List.range n).filter fun k =>
    let x := l.getD k (0, 1)
    decide (x.1 < s.rd BGA_VCMIN * x.2) || decide (s.rd BGA_VCMAX * x.2 < x.1)).map (· + 1)
  let fresh := outs.filter fun k => !s.bga.outs.contains k
  let s := s.setBga fun b =>
    let inside := if outs = [] then b.inside + 1 else 0
    { b with outs := outs, inside := inside,
             cellBad := if 60 ≤ inside then none else b.cellBad,
             probes := b.probes ++ fresh.map (fun k => ⟨k, [k - 1, k]⟩),
             lines := (fresh.flatMap fun k => [k - 1, k]) ++ b.lines }
  let due := decide (s.rd BGA_OWPER ≤ s.bga.owTime + 1)
  let s := s.setBga fun b => { b with
    owTime := if due then 0 else b.owTime + 1,
    lines := if due then b.lines ++ List.range (n + 1) else b.lines }
  s.probeSettle

/-- OPEN_WIRE_TEST (R490): the next line is tested; `before`, `after`: the cell bounded by its two lines in 0.1 mV,
in the millisecond before the test and in its last. -/
def execOpenWireTest (before after : BitVec 16) (s : State) : Result :=
  .next (
    match s.bga.lines with
    | [] => s
    | k :: l =>
      if s.rd BGA_ST = bgaOff then s
      else
        let bad := decide (after.toNat + 100 * s.rd BGA_OWTH < before.toNat)
        let s := s.setBga fun b => { b with
          lines := l, opens := if bad then k :: b.opens.erase k else b.opens.erase k,
          probes := b.probes.map fun p => { p with lines := p.lines.erase k } }
        s.probeSettle)

/-! ## The OCV table (R482) -/

/-- The table point of a cell voltage in 0.1 mV: the segment, and the state of charge by linear interpolation. -/
def ocvAt (t : List (Nat × Nat)) (v : Int × Nat) : Nat × Nat :=
  let p (k : Nat) := t.getD k (0, 0)
  let v := if leFrac v ((p 0).1, 1) then (((p 0).1 : Int), 1)
    else if leFrac ((p 31).1, 1) v then (((p 31).1 : Int), 1) else v
  let j := (List.range 31).foldl (fun j k => if leFrac ((p k).1, 1) v then k else j) 0
  let dv := (p (j + 1)).1 - (p j).1
  let ds := (p (j + 1)).2 - (p j).2
  (j, (((p j).2 : Int) + divRound ((v.1 - (p j).1 * v.2) * ds) (v.2 * dv)).toNat)

/-- S or S_ocv as charge, or as a share of Q_max. -/
def State.chargeOf (s : State) (soc : Nat) : Nat := divRoundNat (soc * s.rd BGA_QMAX) 10000

/-- The rest timer in seconds. -/
def State.restSeconds (s : State) : Nat := (s.bga.restClk + s.bga.restCyc * s.rd CTF_PERIOD) / 48000000

/-- The rest timer shown. -/
def State.restShow (s : State) : State :=
  (s.wr BGA_RESTT (satNat 32 s.restSeconds)).wr BGA_RESTING (b2n (decide (s.rd BGA_TREST ≤ s.restSeconds)))

/-- The rest timer at zero. -/
def State.restClear (s : State) : State :=
  s.setBga fun b => { b with restClk := 0, restCyc := 0, rests := 0 }

/-- One second of the rest timer (R21, R481). -/
def State.restUpdate (s : State) (m : GaugeSecond) : State :=
  let p := max 1 (s.rd CTF_PERIOD)
  let s :=
    if s.refLocked = s.bga.cycles then s
    else if s.refLocked then
      s.setBga fun b => { b with cycles := true, restCyc := b.restClk / p, restClk := b.restClk % p }
    else s.setBga fun b => { b with cycles := false, restClk := b.restClk + b.restCyc * p, restCyc := 0 }
  let s :=
    if s.charging m || s.discharging m || s.on BGA_RESTPIN then s.restClear
    else if s.bga.cycles then s.setBga fun b => { b with restCyc := b.restCyc + (s.ctf.cyc - b.restAt) }
    else s.setBga fun b => { b with restClk := b.restClk + 48000000 }
  (s.setBga fun b => { b with restAt := s.ctf.cyc }).restShow

/-- An OCV correction (R482). -/
def State.ocvCorrect (s : State) (m : GaugeSecond) : State :=
  let t := s.bga.table
  let r := ocvAt t (meanV m (s.rd BGA_NCELL))
  let dv := (t.getD (r.1 + 1) (0, 0)).1 - (t.getD r.1 (0, 0)).1
  let ds := (t.getD (r.1 + 1) (0, 0)).2 - (t.getD r.1 (0, 0)).2
  if dv * 1000 < s.rd BGA_MINSLOPE * ds then s.count BGA_OCVSKN
  else (((s.wr BGA_Q (s.chargeOf r.2)).count BGA_OCVN).raise 0x0E0 4).wr BGA_ESTF 0

/-- A correction where the timer has reached a further multiple of BGA_TREST (R482). -/
def State.ocvDue (s : State) (m : GaugeSecond) : State :=
  let k := s.restSeconds / max 1 (s.rd BGA_TREST)
  if s.bga.rests < k ∧ s.charging m = false ∧ s.discharging m = false then
    (s.setBga fun b => { b with rests := k }).ocvCorrect m
  else s

/-! ## End points and learning (R483, R484, R488) -/

/-- A maintenance discharge completes (R488): the path returns to VIN, the charger is enabled. -/
def State.mntDone (s : State) (c : Status) : State :=
  let s := ((s.wr BGA_MNT_ST 0).wr BGA_MNT_CODE (codeOf c)).raise 0x0E0 3
  if s.pst = pstOnPack ∧ s.on PMU_VINOK = true then s.setPst pstOnVin else s.chgFollow

/-- The full point: learning starts, a maintenance discharge goes on to its discharge (R484, R488). -/
def State.fullPoint (s : State) : State :=
  let s := ((s.wr BGA_Q (s.rd BGA_QMAX)).wr BGA_ESTF 0).raise 0x0E0 0
  let s := if s.senseBad then s else (s.wr BGA_LRNACT 1).setBga fun b => { b with dsum := 0 }
  if s.rd BGA_MNT_ST = 1 then
    let s := s.wr BGA_MNT_ST 2
    if s.pst = pstOnVin then s.setPst pstOnPack else s
  else s

/-- D in µAh, rounded. -/
def State.learned (s : State) : Nat := divRoundNat (s.bga.dsum * 1525880) (3600000 * s.rd BGA_RSH)

/-- The empty point: Q is zero and learning completes (R483, R484). -/
def State.emptyPoint (s : State) : State :=
  let s := ((s.wr BGA_Q 0).wr BGA_ESTF 0).raise 0x0E0 0
  let num := s.bga.dsum * 1525880
  let unit := 36000 * s.rd BGA_RSH * (s.rd BGA_DESCAP * 1000)
  let good := s.on BGA_LRNACT && decide (unit * 50 ≤ num) && decide (num ≤ unit * 120)
  let s :=
    if !s.on BGA_LRNACT then s
    else if good then
      let d := s.learned
      let s := ((s.wr BGA_QMAX d).wr BGA_LEARNED 1).wr BGA_LRN d
      let s := s.setBga fun b => { b with lrnn := satNat 16 (b.lrnn + 1), lstamp := stampNat s.stamp }
      (s.learnEnd .ok).raise 0x0E0 0
    else s.learnEnd .cfgInvalid
  if s.rd BGA_MNT_ST = 2 then
    s.mntDone (if good then .ok else .part)
  else s

/-- The PMU's cut-off notice (R483, R512). -/
def State.cutNotice (s : State) : State :=
  if s.bgaRuns then
    let s := s.emptyPoint
    (s.wr BGA_SOCS 0).wr BGA_SOCR 0
  else s

/-! ## The estimation step (R480) -/

/-- Coulomb counting: Q, D and the discharged charge. -/
def State.countCharge (s : State) (m : GaugeSecond) : State :=
  let up := decide (0 < m.current)
  let eff := if up then s.rd BGA_CEFF else 10000
  let dq := divRound (m.current * 1525880 * eff) (1000 * 3600 * 10000 * s.rd BGA_RSH)
  let q := ((s.rd BGA_Q : Int) + dq)
  let s := s.wr BGA_Q (max 0 (min q (s.rd BGA_QMAX : Int))).toNat
  let n := (-m.current).toNat
  let s := s.setBga fun b => { b with thru := b.thru + n, dsum := if s.on BGA_LRNACT then b.dsum + n else b.dsum }
  if up && s.charging m then s.learnEnd .skipped else s

/-- The runs of seconds towards the end points (R483). -/
def State.endRuns (s : State) (m : GaugeSecond) : State :=
  let n := s.rd BGA_NCELL
  let full := s.charging m && leFrac (s.rd BGA_VFULL, 1) (meanV m n)
    && !leFrac (1000 * s.rd BGA_ITAPER, 1) (s.meanUa m)
  let low := if s.senseBad then leFrac (meanV m n) (s.rd BGA_VEMPTY, 1)
    else (s.bga.means.take n).any fun x => decide (x.1 ≤ s.rd BGA_VEMPTY * x.2)
  s.setBga fun b => { b with
    full := if full then b.full + 1 else 0,
    empty := if s.discharging m && low then b.empty + 1 else 0 }

/-- Time to empty (R485). -/
def State.timeToEmpty (s : State) (m : GaugeSecond) : Nat :=
  if !s.discharging m then 65535
  else
    let ua := s.meanUa m
    let i : Int := ua.1.natAbs
    -- v_e in 0.1 mV: BGA_VEMPTY + |Ī| in mA times Z in 0.1 mΩ over 1,000 N
    let n := s.rd BGA_NCELL
    let ve := addFrac ((s.rd BGA_VEMPTY : Int), 1) (i * s.rd BGA_Z, ua.2 * 1000 * (1000 * n))
    let soc := (ocvAt s.bga.table ve).2
    let left : Int := (s.rd BGA_Q : Int) * 10000 - (soc * s.rd BGA_QMAX : Nat)
    min 65534 ((max left 0) * 60 * ua.2 / (10000 * i)).toNat

/-- S and R after a step (R480). -/
def State.socShow (s : State) (m : GaugeSecond) (full empty : Bool) : State :=
  let prev := s.rd BGA_SOCS
  let soc := divRoundNat (10000 * s.rd BGA_Q) (s.rd BGA_QMAX)
  let r := s.rd BGA_SOCR
  let r := if full then 10000
    else if empty then 0
    else if s.charging m then min soc (r + (soc - prev) + s.rd BGA_CATCH)
    else min r soc
  let s := (s.wr BGA_SOCS soc).wr BGA_SOCR r
  if s.bga.lastS + 100 ≤ soc ∨ soc + 100 ≤ s.bga.lastS then s.raise 0x0E0 0 else s

/-- Impedance steps are wanted (R487). -/
def State.zWant (s : State) : State :=
  let want := s.on BGA_ONPACK && (decide (s.rd BGA_ZN < 8) || decide (s.rd BGA_ZAGE * 3600 ≤ s.bga.since))
  if want && !s.on BGA_ZWANT then (s.wr BGA_ZWANT 1).raise 0x0E0 5 else s

/-- The first second after BGA_COLD: S and R from V̄ ÷ N through the table, Q from S (R497). -/
def State.coldStep (s : State) (m : GaugeSecond) : State :=
  let soc := (ocvAt s.bga.table (meanV m (s.rd BGA_NCELL))).2
  let s := (s.wr BGA_SOCS soc).wr BGA_SOCR soc
  (s.wr BGA_Q (s.chargeOf soc)).setBga fun b => { b with cold := false }

/-- One step of RUN (R480). -/
def State.runStep (s : State) (m : GaugeSecond) : State :=
  let s := (s.countCharge m).restUpdate m
  let s := s.endRuns m
  let full := s.bga.full == 60
  let empty := s.bga.empty == 10
  let s := if full then s.fullPoint else s
  let s := if empty then s.emptyPoint else s
  let s := s.ocvDue m
  (s.socShow m full empty).wr BGA_TTE (s.timeToEmpty m)

/-- The charger's part of a second: at the charge voltage it holds it (R514). -/
def State.chgStep (s : State) : State :=
  if s.rd PMU_CHG_ST = chgCurrent ∧ s.rd BGA_NCELL * s.rd PMU_CHG_VCELL ≤ s.rd PMU_VBAT_MV then s.setChg chgVoltage
  else s

/-- ESTIMATION_STEP (R479, R480): one second of CD00. -/
def execEstimationStep (m : GaugeSecond) (s : State) : Result :=
  .next (
    let s := ((s.wr PMU_VIN_MV m.vin.toNat).wr PMU_VBAT_MV m.vbat.toNat).chgStep
    if s.rd BGA_ST = bgaOff then s
    else
      let s := s.setBga fun b => { b with since := b.since + 1 }
      let s := ((s.takeMeans m).senseStep m).zWant
      if !s.bgaRuns then s
      else if s.bga.cold then s.coldStep m
      else s.runStep m)

/-! ## Impedance (R486, R487) -/

/-- BURST_EDGE (R486): the samples before and after an edge; `alone`: no other edge between them. -/
def execBurstEdge (pre post : GaugeSample) (alone : Bool) (s : State) : Result :=
  .next (
    if s.rd BGA_ST = bgaOff then s
    else
      let di := signed 16 post.current.toNat - signed 16 pre.current.toNat
      let dv : Int := (post.pack.toNat : Int) - pre.pack.toNat
      let rsh := s.rd BGA_RSH
      let z := divRound (dv * di.sign * (400 * rsh * 10000)) (di.natAbs * 1525880)
      let good := s.on BGA_ONPACK && alone && decide (s.rd BGA_ZMIN * 1000 * rsh ≤ di.natAbs * 1525880)
        && decide (5 ≤ z) && decide (z ≤ 20000)
      if !good then s.count BGA_ZREJN
      else
        let old : Int := s.rd BGA_Z
        let s := s.wr BGA_Z (if s.rd BGA_ZN = 0 then z else old + divRound (z - old) 8).toNat
        let s := ((s.count BGA_ZN).count BGA_ZACCN).setBga fun b => { b with steps := b.steps + 1, since := 0 }
        let s := s.wr BGA_ZWANT (b2n (s.on BGA_ZWANT && decide (s.rd BGA_ZN < 8)))
        if s.bgaRuns ∧ s.bga.steps % 8 = 0 then s.raise 0x0E0 0 else s)

/-! ## Maintenance discharge (R488) -/

/-- BGA_MNT_GO. -/
def State.mntStart (s : State) : Status × State :=
  let utc := s.rd CTF_UTC
  let e := s.rd BGA_MNT_END
  if !s.bgaRuns || !s.on PMU_VINOK || s.senseBad || decide (e < utc + 3600) || decide (utc + 604800 < e)
      || s.rd BGA_MNT_ST != 0 then (.cfgInvalid, s)
  else (.ok, (s.wr BGA_MNT_ST 1).chgFollow)

/-- BGA_MNT_ABORT: SKIPPED. -/
def State.mntAbort (s : State) : State := if s.rd BGA_MNT_ST = 0 then s else s.mntDone .skipped

/-- MNT_END (R488): BGA_MNT_END has passed before the empty point. -/
def execMntEnd (s : State) : Result :=
  .next (if s.rd BGA_MNT_ST ≠ 0 ∧ s.rd BGA_MNT_END ≤ s.rd CTF_UTC then s.mntDone .timeout else s)

/-! ## Restore and records (R492 to R497) -/

/-- The record in BGA_RIN. -/
def State.rinBytes (s : State) : List Byte := (List.range 16).flatMap fun k => leBytes 4 (s.rd (BGA_RIN k))

/-- The carry code of a record (R493). -/
def State.recordCc (s : State) (b : List Byte) : Nat := crc32 (b.take 60 ++ s.uidBytes)

/-- What BGA_RESTORE makes of a record (R496). -/
def State.restoreCheck (s : State) (b : List Byte) : Status :=
  let cap := s.rd BGA_DESCAP * 1000
  let qmax := leAt b 8 4
  if leAt b 60 4 ≠ s.recordCc b then .integFail
  else if leAt b 0 2 ≠ 1 ∨ leAt b 2 1 ≠ s.rd BGA_CHEM ∨ leAt b 3 1 ≠ s.rd BGA_NCELL
      ∨ leAt b 48 2 ≠ s.rd BGA_DESCAP ∨ qmax < leAt b 12 4 ∨ 10000 < leAt b 16 2 ∨ 10000 < leAt b 18 2
      ∨ qmax * 100 < cap * 50 ∨ cap * 120 < qmax * 100 then .cfgInvalid
  else .ok

/-- A start of estimation: learning and the runs of seconds are clear. -/
def State.bgaEnter (s : State) : State :=
  let s := (s.learnEnd .skipped).setBga fun b => { b with full := 0, empty := 0, thru := 0, restAt := s.ctf.cyc }
  s.restClear.wr BGA_ST bgaRun

/-- BGA_RESTORE (R496, R497). -/
def State.bgaRestore (s : State) : State :=
  let b := s.rinBytes
  let c : Status := if s.rd BGA_ST = bgaOff then .cfgInvalid
    else if s.bgaRuns then .skipped else s.restoreCheck b
  let s := s.wr BGA_RST_CODE (codeOf c)
  if c ≠ .ok then s
  else
    let s := s.bgaEnter
    let s := ((s.wr BGA_QMAX (leAt b 8 4)).wr BGA_Q (leAt b 12 4)).wr BGA_SOCS (leAt b 16 2)
    let s := ((s.wr BGA_SOCR (leAt b 18 2)).wr BGA_Z (leAt b 20 2)).wr BGA_ZN (leAt b 22 2)
    let s := (s.wr BGA_LEARNED (leAt b 26 1)).wr BGA_ESTF (leAt b 26 1 / 2)
    let s := s.setBga fun x => { x with
      lrnn := leAt b 24 2, lstamp := leAt b 40 8, seq := leAt b 4 4, base := leAt b 52 4, lastS := leAt b 16 2,
      cold := false }
    if s.rd CTF_UTC_EST = 0 ∧ leAt b 36 4 + s.rd BGA_TREST ≤ s.rd CTF_UTC then
      (s.setBga fun x => { x with restClk := s.rd BGA_TREST * 48000000, cycles := false }).restShow
    else s

/-- BGA_COLD (R497). -/
def State.bgaCold (s : State) : State :=
  if s.rd BGA_ST = bgaOff then s.wr BGA_RST_CODE (codeOf .cfgInvalid)
  else if s.bgaRuns then s.wr BGA_RST_CODE (codeOf .skipped)
  else
    let s := (s.bgaEnter).wr BGA_RST_CODE (codeOf .ok)
    let s := ((s.wr BGA_QMAX (s.rd BGA_DESCAP * 1000)).wr BGA_Z (s.rd BGA_ZDEF)).wr BGA_ESTF 1
    s.setBga fun x => { x with cold := true, base := 0 }

/-- BGA_TCOMMIT (R498). -/
def State.bgaCommit (s : State) : Status × State :=
  let t := (List.range 32).map fun j => (s.rd (BGA_OCV_V j), s.rd (BGA_OCV_SOC j))
  let rise := (List.range 31).all fun j =>
    decide ((t.getD j (0, 0)).1 < (t.getD (j + 1) (0, 0)).1)
      && decide ((t.getD j (0, 0)).2 ≤ (t.getD (j + 1) (0, 0)).2)
  if rise && (t.getD 0 (0, 0)).2 == 0 && (t.getD 31 (0, 0)).2 == 10000 then
    (.ok, s.setBga fun b => { b with table := t })
  else (.cfgInvalid, s)

/-- The discharged charge over life in mAh (Table 19-2). -/
def State.throughput (s : State) : Nat :=
  satNat 32 (s.bga.base + s.bga.thru * 1525880 / (1000 * 3600 * 1000 * max 1 (s.rd BGA_RSH)))

/-- The restore record of the present state (R493). -/
def State.gaugeRecord (s : State) (seq : Nat) : List Byte :=
  let b := leBytes 2 1 ++ leBytes 1 (s.rd BGA_CHEM) ++ leBytes 1 (s.rd BGA_NCELL) ++ leBytes 4 seq
    ++ leBytes 4 (s.rd BGA_QMAX) ++ leBytes 4 (s.rd BGA_Q) ++ leBytes 2 (s.rd BGA_SOCS)
    ++ leBytes 2 (s.rd BGA_SOCR) ++ leBytes 2 (s.rd BGA_Z) ++ leBytes 2 (s.rd BGA_ZN)
    ++ leBytes 2 s.bga.lrnn ++ leBytes 1 (s.rd BGA_LEARNED + 2 * s.rd BGA_ESTF) ++ leBytes 1 0
    ++ leBytes 8 (stampNat s.stamp) ++ leBytes 4 (s.rd CTF_UTC) ++ leBytes 8 s.bga.lstamp
    ++ leBytes 2 (s.rd BGA_DESCAP) ++ leBytes 2 0 ++ leBytes 4 s.throughput ++ leBytes 4 0
  b ++ leBytes 4 (s.recordCc b)

/-- A snapshot in BGA_REC; zeros outside RUN (R494). -/
def State.takeSnapshot (s : State) : State :=
  let seq := (s.bga.seq + 1) % 2 ^ 32
  let b := if s.bgaRuns then s.gaugeRecord seq else []
  let s := if s.bgaRuns then s.setBga fun x => { x with seq := seq, lastS := s.rd BGA_SOCS } else s
  (List.range 16).foldl (fun s k => s.wr (BGA_REC k) (leAt b (4 * k) 4)) s

/-! ## Page 0x0E0 (R498) -/

/-- The range checks of Table 19-4. -/
def bgaRange (off d : Nat) : Bool :=
  let within (lo w a b : Nat) : Bool := decide (a ≤ bits d lo w) && decide (bits d lo w ≤ b)
  match off with
  | 0x044 => within 0 3 2 4 && within 16 16 2000 40000
  | 0x048 => within 0 16 500 50000
  | 0x050 => within 0 16 1 1000 && within 16 16 1 10000
  | 0x054 => within 0 16 60 65535 && within 24 8 1 255
  | 0x058 => within 0 16 9000 10000
  | 0x05C => within 0 16 200 5000 && within 16 8 1 50
  | 0x060 => within 0 16 5 20000
  | 0x064 => within 0 16 1 65535 && within 16 8 15 255 && within 24 8 1 255
  | _ => true

/-- The commands of BGA_CMD in the order of their bits; the first status other than OK answers. -/
def State.bgaCommand (s : State) (d : Nat) : Status × State :=
  let s := if bit d 0 then s.bgaRestore else s
  let s := if bit d 1 then s.bgaCold else s
  let r : Status × State := if bit d 2 then s.mntStart else (.ok, s)
  let s := if bit d 3 then r.2.mntAbort else r.2
  let s := if bit d 4 ∧ s.rd BGA_ST ≠ bgaOff then
    s.setBga fun b => { b with lines := b.lines ++ List.range (s.rd BGA_NCELL + 1) } else s
  let t : Status × State := if bit d 5 then s.bgaCommit else (.ok, s)
  let c := firstOf r.1 t.1
  let c := if bit d 0 || bit d 1 then firstOf c (statusOf (t.2.rd BGA_RST_CODE)) else c
  (c, t.2)

/-- Writes of page 0x0E0; the cut-off of all cells stays at or above 5,000 mV (R513). -/
def bgaWrite : Writer := fun s q d =>
  let r : Status × State :=
    if q.off = 0x06C then s.bgaCommand d
    else if !bgaRange q.off d then (.cfgInvalid, s)
    else if q.off = 0x044 ∧ bits d 0 3 * s.rd PMU_CUT_VCELL < 5000 then (.cfgInvalid, s)
    else if q.off = 0x040 then
      if bit d 0 && s.bga.table == [] then (.cfgInvalid, s)
      else
        let was := s.on BGA_EN
        let s := s.storeWord q.page q.off d
        let s := if !bit d 0 then ((s.learnEnd .skipped).mntAbort).wr BGA_ST bgaOff
          else if was then s else s.wr BGA_ST bgaWait
        (.ok, if bit d 1 then s.restClear.restShow else s)
    else if (q.off = 0x044 ∨ q.off = 0x048) ∧ s.bgaRuns = true ∧ storedWord (RegMap.fieldsAt q.page q.off)
        (s.reg q.page q.off) d ≠ s.reg q.page q.off then (.prot, s)
    else plainWrite s q d
  (r.1, r.2.wr BGA_CCODE (codeOf r.1))

/-- Reads of page 0x0E0. -/
def bgaRead : Reader := fun s q => plainRead (if q.off = 0x0C0 then s.takeSnapshot else s) q

/-- BGA_OWNOW (R490): a write of 1. -/
def execBgaOwnow (w : RegWrite) (s : State) : Result :=
  .next (s.writeReg bgaWrite 0x0E0 0x06C w fun d => setBit d 4)

/-- BGA_MNT_GO (R488): a write of 1. -/
def execBgaMntGo (w : RegWrite) (s : State) : Result :=
  .next (s.writeReg bgaWrite 0x0E0 0x06C w fun d => setBit d 2)

/-- BGA_MNT_ABORT (R488): a write of 1. -/
def execBgaMntAbort (w : RegWrite) (s : State) : Result :=
  .next (s.writeReg bgaWrite 0x0E0 0x06C w fun d => setBit d 3)

/-- BGA_RESTORE (R496): a write of 1. -/
def execBgaRestore (w : RegWrite) (s : State) : Result :=
  .next (s.writeReg bgaWrite 0x0E0 0x06C w fun d => setBit d 0)

/-- BGA_COLD (R497): a write of 1. -/
def execBgaCold (w : RegWrite) (s : State) : Result :=
  .next (s.writeReg bgaWrite 0x0E0 0x06C w fun d => setBit d 1)

/-- BGA_TCOMMIT (R498): a write of 1. -/
def execBgaTcommit (w : RegWrite) (s : State) : Result :=
  .next (s.writeReg bgaWrite 0x0E0 0x06C w fun d => setBit d 5)

/-- SNAPSHOT (R494): a read of BGA_REC0. -/
def execSnapshot (r : RegRead) (s : State) : Result :=
  .next (s.readReg bgaRead 0x0E0 0x0C0 r)

end Sys2Proof.Machine
end

