-- ==== Sys2Proof/Machine/Cel.lean ====
section
/-! DEFINITION. The Cellar (chapter 18): the unit table and its wipes, tenant rings and commands, the
management port, the scrubber, block-protect and page 0x0D8. -/

namespace Sys2Proof.Machine

open Reg

/-! ## Units (R458 to R461) -/

/-- States of a unit. -/
def unitHome : Nat := 0
def unitGranted : Nat := 1
def unitReserved : Nat := 2
def unitPending : Nat := 3

/-- State and holder of unit `u`. -/
def State.unitState (s : State) (u : Nat) : Nat := s.rd (CEL_U_STATE u)
def State.unitHolder (s : State) (u : Nat) : Nat := s.rd (CEL_U_HOLD u)

/-- Tenant `t` holds unit `u`: by grant, or TC00 a tenant unit at home (Table 4-2; DEDUCED, log entry 35). -/
def State.unitHeld (s : State) (u t : Nat) : Bool :=
  (s.unitState u == unitGranted && s.unitHolder u == t) || (t == 0 && s.unitState u == unitHome && decide (16 ≤ u))

/-- The first group of unit `u` (R454). -/
def unitGroup (u : Nat) : Nat := 0x10000 + 1024 * u

/-- The first group of the unit table (Table 18-2). -/
def unitTable : Nat := celGroup 0x80240

/-- The eight bytes of a group of the unit table. -/
def State.unitWord (s : State) (k : Nat) : Nat :=
  leNat ((List.range 8).map fun i =>
    BitVec.ofNat 8 (s.unitHolder (8 * k + i) + 64 * s.unitState (8 * k + i)))

/-- Unit `u` changes its state: the register and, in one group write, the unit table (R458). -/
def State.unitPut (s : State) (u st holder : Nat) : State :=
  let s := (s.wr (CEL_U_STATE u) st).wr (CEL_U_HOLD u) holder
  s.devWrite srcGrant areaUnits (unitTable + u / 8) [s.unitWord (u / 8)]

/-- Units that CEL_BP covers (R461). -/
def bpCovers (bp u : Nat) : Bool :=
  match bp with
  | 0 => false
  | 1 => decide (48 ≤ u)
  | 2 => decide (32 ≤ u)
  | _ => decide (16 ≤ u)

/-- Unit `u` is covered now. -/
def State.unitCovered (s : State) (u : Nat) : Bool := bpCovers (s.rd CEL_BP) u

/-- CEL_U_BP follows CEL_BP. -/
def State.bpShow (s : State) : State :=
  (List.range 64).foldl (fun s u => s.wr (CEL_U_BP u) (b2n (s.unitCovered u))) s

/-- A wipe of unit `u` begins: the unit is wipe pending (R458 to R460). -/
def State.startWipe (s : State) (w : UnitWipe) : State :=
  (s.unitPut w.unit unitPending 0).setCel fun c => { c with wipes := c.wipes ++ [w] }

/-- A unit is written to zero. -/
def State.zeroUnit (s : State) (u : Nat) : State := s.celWriteRun (unitGroup u) (List.replicate 1024 0)

/-- UNIT_WIPE_DONE (R458, R459): the last group of the oldest wipe is written at a command boundary; the unit takes
its next state and the command that waits for it completes. -/
def execUnitWipeDone (s : State) : Result :=
  .next (
    match s.cel.wipes with
    | [] => s
    | w :: l =>
      if s.celBlocked || s.cel.run.isSome then s
      else
        let s := (s.zeroUnit w.unit).setCel fun c => { c with wipes := l }
        let s := s.unitPut w.unit w.state w.holder
        let s := match w.release with
          | some t => s.log 0x4012 t (w.unit + t * 2 ^ 10 + 3 * 2 ^ 16)
          | none => s
        if w.command then s.grantEnd 0 else s)

/-- Unit `u` is granted to tenant `t` by a command: at once, or after a wipe where its contents belong to another
or its holder is unknown (R458, R459). The grant has passed the checks of R102. -/
def State.unitGrant (s : State) (u t : Nat) : State :=
  if s.unitState u = unitReserved ∧ s.unitHolder u ≠ t then s.startWipe ⟨u, unitGranted, t, true, none⟩
  else (s.unitPut u unitGranted t).grantEnd 0

/-- A grant of unit `u` to `t` would wipe it. -/
def State.unitGrantWipes (s : State) (u t : Nat) : Bool :=
  s.unitState u == unitReserved && s.unitHolder u != t

/-- Unit `u` is revoked: by a command, or by a full reset of its holder (R121). -/
def State.unitRevoke (s : State) (u : Nat) (command : Bool) : State :=
  s.startWipe ⟨u, unitHome, 0, command, none⟩

/-- CEL_UNRESV (R460). -/
def State.unitRelease (s : State) : Status × State :=
  let u := s.rd CEL_UR_UNIT
  let c : Status :=
    if s.unitState u ≠ unitReserved then .cfgInvalid
    else if s.unitCovered u then .prot
    else .ok
  let s := s.wr CEL_CCODE (codeOf c)
  (c, if c = .ok then s.startWipe ⟨u, unitHome, 0, false, some (s.unitHolder u)⟩ else s)

/-! ## Start (R458, R471) -/

/-- A group of the unit table as read at a start; an unreadable one is rewritten. -/
def State.readUnits (s : State) (k : Nat) : State :=
  match s.celRead (unitTable + k) with
  | (some d, _, s) =>
    (List.range 8).foldl (fun s i =>
      (s.wr (CEL_U_STATE (8 * k + i)) (bits d (8 * i + 6) 2)).wr (CEL_U_HOLD (8 * k + i)) (bits d (8 * i) 6)) s
  | (none, _, s) =>
    let s := (List.range 8).foldl (fun s i =>
      let u := 8 * k + i
      (s.wr (CEL_U_STATE u) (if u < 16 then unitHome else unitReserved)).wr (CEL_U_HOLD u) 0) s
    s.celWrite (unitTable + k) (s.unitWord k)

/-- The Cellar starts: the interruption record is shown, the unit table is read, pending wipes are made, units of
tenants that are not ACTIVE become reserved (R458, R471). -/
def State.celStart (s : State) : State :=
  let s := match s.cel.ir with
    | none => s
    | some r => ((((s.wr CEL_IR_SRC r.src).wr CEL_IR_VALID 1).wr CEL_IR_LAST r.last).wr CEL_IR_ITEM r.item).wr
        CEL_IR_UNIT r.unit
  let s := (List.range 8).foldl State.readUnits s
  let s := (List.range 64).foldl (fun s u =>
    if s.unitState u = unitPending then (s.zeroUnit u).unitPut u unitHome 0
    else if s.unitState u = unitGranted ∧ s.tenant (s.unitHolder u) ≠ tenActive then
      s.unitPut u unitReserved (s.unitHolder u)
    else s) s
  s.bpShow

/-! ## Rings and commands (R462 to R465) -/

/-- The ring of tenant `t` (Table 18-8). -/
def State.celRing (s : State) (t : Nat) : CmdRing :=
  ⟨s.rd (CEL_RB_LO t) * 64 + s.rd (CEL_RB_HI t) * 2 ^ 32, s.rd (CEL_RSL t), s.rd (CEL_RCL t)⟩

/-- The fields of a descriptor (Table 18-3). -/
def cdOp (w : Nat) : Nat := bits w 0 4
def cdUnit (w : Nat) : Nat := bits w 16 6
def cdGofs (w : Nat) : Nat := bits w 32 10
def cdNgrp (w : Nat) : Nat := bits w 48 11
def cdItem (w : Nat) : Nat := bits w 64 16
def cdMem (w : Nat) : Nat := bits w 96 40

/-- The first group of a command. -/
def cdGroup (w : Nat) : Nat := unitGroup (cdUnit w) + cdGofs w

/-- Records of tenant `t` that are held are written while there is room, at most `fuel`. -/
def State.celRelease (t : Nat) : Nat → State → State
  | 0, s => s
  | fuel + 1, s =>
    match s.cel.held.find? (·.key == t) with
    | none => s
    | some h =>
      if s.cmdRoom (s.celRing t) then
        State.celRelease t fuel
          ((s.setCel fun x => { x with held := x.held.erase h }).cmdPut (s.celRing t) h.rec'.toNat)
      else s

/-- A completion record (Table 18-4): written, or held while the ring is full (R464); discarded while a system
reset keeps the ring stopped (R540). `last`: groups completed. -/
def State.celRecord (s : State) (t w : Nat) (c : Status) (groups corr : Nat) : State :=
  let s := s.outcome t resCel c (cdItem w)
  let v := withCrc32 (cdItem w + codeOf c * 2 ^ 16 + (groups + 65535) % 65536 * 2 ^ 32 + corr * 2 ^ 48
    + stampNat s.stamp * 2 ^ 64)
  if s.cel.stopped.contains t then s
  else if s.cel.held.any (·.key == t) || !s.cmdRoom (s.celRing t) then
    s.setCel fun x => { x with held := x.held ++ [⟨t, BitVec.ofNat 256 v⟩] }
  else s.cmdPut (s.celRing t) v

/-- A command that runs nothing completes. -/
def State.celRefuse (s : State) (x : RingItem) (c : Status) : State :=
  s.celRecord x.tc x.word.toNat c 0 0

/-- The tenant may name the unit: its holder, or TC00 for a READ of CU00 and CU02 to CU11 (R463). -/
def State.celNames (s : State) (t w : Nat) : Bool :=
  let u := cdUnit w
  s.unitHeld u t || (t == 0 && cdOp w == 1 && (u == 0 || (2 ≤ u && u ≤ 11)))

/-- Step 2 of R463: the tenant may name the unit and reach the memory. -/
def State.celMay (s : State) (t w : Nat) : Bool :=
  let op := cdOp w
  s.celNames t w && (op == 3 || s.tenantMay t (op == 1) (cdMem w) (8 * cdNgrp w))

/-- The checks of R463: the first that fails. -/
def State.celCheck (s : State) (t w : Nat) : Option Status :=
  let op := cdOp w
  if s.tenant t ≠ tenActive then some .notOwner
  else if !cmdCrcOk w then some .integFail
  else if !s.celMay t w then some .notOwner
  else if (op == 2 || op == 3) && s.unitCovered (cdUnit w) then some .prot
  else if op = 0 ∨ 3 < op ∨ 1024 < cdNgrp w ∨ (op ≠ 3 ∧ cdMem w % 8 ≠ 0) ∨ 1024 < cdGofs w + cdNgrp w then
    some .cfgInvalid
  else if cdNgrp w = 0 then some .zeroLen
  else none

/-- One descriptor of tenant `t` is taken (R463). -/
def State.celTake (s : State) (t : Nat) : State :=
  let r := s.celRing t
  let w := s.cmdNext r
  let x : RingItem := ⟨t, s.rd (TNC_CLASS t), BitVec.ofNat 512 w, if cdOp w = 1 then 0 else cdNgrp w,
    s.periodOf 4, stampNat s.stamp⟩
  let s := match s.celCheck t w with
    | some c => s.celRefuse x c
    | none =>
      match s.takeQuota 4 t x.cost with
      | some s => s.setCel fun y => { y with items := y.items ++ [x] }
      | none => s.celRefuse x .refusedQuota
  s.cmdTaken r

/-- Descriptors are taken while there are new ones and no record is held, at most `fuel`. -/
def State.celTakes (t : Nat) : Nat → State → State
  | 0, s => s
  | fuel + 1, s =>
    if s.cmdNew (s.celRing t) = 0 ∨ s.cel.held.any (·.key == t) = true then s
    else State.celTakes t fuel (s.celTake t)

/-- CEL_RING_POLL (R462): the ring of a tenant is checked and its new descriptors are taken. -/
def execCelRingPoll (tenant : Fin 64) (s : State) : Result :=
  .next (
    let t := tenant.val
    if !s.on CEL_EN || !s.on (CEL_REN t) || decide (3 ≤ s.level) || s.cel.stopped.contains t || s.celBlocked then s
    else
      let r := s.celRing t
      if !s.cmdRingMay t r || decide (2 ^ r.sl < s.cmdNew r) then
        if s.on (CEL_RFAULT t) then s
        else ((s.wr (CEL_RFAULT t) 1).raise 0x0D8 4).log 0x5007 t 0
      else State.celTakes t 256 (State.celRelease t 256 (s.wr (CEL_RFAULT t) 0)))

/-- What the start of a command finds: its unit held no longer, or covered (R461). -/
def State.celStartCheck (s : State) (x : RingItem) : Option Status :=
  let w := x.word.toNat
  let u := cdUnit w
  if !s.celNames x.tc w then some .notOwner
  else if cdOp w ≠ 1 ∧ s.unitCovered u = true then some .prot
  else none

/-- A command of opcode `op` starts, where the next one by the order of service is of that opcode, none runs and
Cellar writes are not blocked (R465, R469). -/
def State.celStartOp (s : State) (op : Nat) : State :=
  if s.celBlocked || s.cel.run.isSome then s
  else
    match s.nextItem 4 s.cel.items fun _ => true with
    | none => s
    | some x =>
      let w := x.word.toNat
      if cdOp w ≠ op then s
      else
        let s := (s.setCel fun y => { y with items := y.items.erase x }).serveTurn 4 x.cls x.tc
        match s.celStartCheck x with
        | some c => (s.celRefuse x c).giveBack 4 x.tc x.cost x.period
        | none =>
          let l := match op with
            | 2 => groupsOf (cdNgrp w) (s.bytes (cdMem w) (8 * cdNgrp w))
            | 3 => List.replicate (cdNgrp w) 0
            | _ => []
          (s.setCel fun y => { y with run := some ⟨x, l.map (BitVec.ofNat 64), s.itemLate x⟩ }).wr CEL_BUSY 1

/-- CEL_READ (R463): the next command, a READ, starts. -/
def execCelRead (s : State) : Result := .next (s.celStartOp 1)

/-- CEL_WRITE (R468): the next command, a WRITE, starts. -/
def execCelWrite (s : State) : Result := .next (s.celStartOp 2)

/-- CEL_ZERO (R468): the next command, a ZERO, starts. -/
def execCelZero (s : State) : Result := .next (s.celStartOp 3)

/-- A started command ends after at most `cap` groups: the groups completed, the groups corrected, whether a group
failed. `fail`: the group whose verify mismatches twice, which holds an open value (R473, R474). -/
def State.celEffect (s : State) (r : CelRun) (cap : Nat) (fail : Option Nat) : Nat × Nat × Bool × State :=
  let w := r.item.word.toNat
  let g := cdGroup w
  if cdOp w = 1 then
    let n := min cap (cdNgrp w)
    let x := s.celReadRun g n
    (x.1.length, x.2.1, decide (x.1.length < n), x.2.2.store (cdMem w) (groupBytes x.1))
  else
    let l := (r.data.map (·.toNat)).take cap
    match fail with
    | none => (l.length, 0, false, s.celWriteRun g l)
    | some k =>
      if k < l.length then
        let s := s.celWriteRun g (l.take k)
        let d := s.draw 72
        (k, 0, true, (d.2.celPutRaw (g + k) (BitVec.ofNat 72 d.1)).celVerifyFailed (g + k))
      else (l.length, 0, false, s.celWriteRun g l)

/-- CEL_COMMAND_COMPLETE (R464): the command that runs ends, with OK or INTEG_FAIL. -/
def execCelCommandComplete (fail : Option (Fin 1024)) (s : State) : Result :=
  .next (
    match s.cel.run with
    | none => s
    | some r =>
      let x := s.celEffect r 1024 (fail.map (·.val))
      let s := (x.2.2.2.setCel fun y => { y with run := none }).wr CEL_BUSY 0
      let good := firstOf (if r.late then .delayed else .ok) s.okOr
      s.celRecord r.item.tc r.item.word.toNat (if x.2.2.1 then .integFail else good) x.1 x.2.1)

/-- The write block cuts the operation that runs after `n` groups (R469 to R471): a command ends with POWER_LOST
and the cost of what it has not written returns; a wipe writes the rest when the block lifts. -/
def State.celCut (s : State) (n : Nat) : State :=
  match s.cel.run with
  | some r =>
    let w := r.item.word.toNat
    let x := s.celEffect r n none
    let s := (x.2.2.2.setCel fun y => { y with run := none }).wr CEL_BUSY 0
    let s := (s.celRecord r.item.tc w .powerLost x.1 x.2.1).giveBack 4 r.item.tc
      (if cdOp w = 1 then 0 else cdNgrp w - x.1) r.item.period
    s.celLost r.item.tc ((x.1 + 65535) % 65536) (cdItem w) (cdUnit w)
  | none =>
    match s.cel.wipes with
    | [] => s
    | w :: _ =>
      (s.celWriteRun (unitGroup w.unit) (List.replicate (min n 1024) 0)).celLost srcGrant
        ((min n 1024 + 65535) % 65536) 0 w.unit

/-- Entry into D3 (R476): commands admitted and not started are SKIPPED. -/
def State.celEnterD3 (s : State) : State :=
  let l := s.cel.items
  l.foldl (fun s x => s.celRefuse x .skipped) (s.setCel fun y => { y with items := [] })

/-! ## Scrubber (R472) -/

/-- The scrubber moves on by one group; a completed pass is counted. -/
def State.scrubNext (s : State) : State :=
  let g := s.rd CEL_SCPOS
  if g = 131071 then ((s.wr CEL_SCPOS 0).wr CEL_SCPASS ((s.rd CEL_SCPASS + 1) % 2 ^ 32)).raise 0x0D8 2
  else s.wr CEL_SCPOS (g + 1)

/-- Groups of the known-bad list are skipped, at most `fuel` (R473). -/
def State.scrubSkip : Nat → State → State
  | 0, s => s
  | fuel + 1, s => if s.cel.bad.contains (s.rd CEL_SCPOS) then State.scrubSkip fuel s.scrubNext else s

/-- SCRUB (R472): the next group is read and restored; `upsets`: cells of the array that have flipped before. -/
def execScrub (upsets : List (Fin 131072 × BitVec 72)) (s : State) : Result :=
  .next (
    let s := s.celUpset upsets
    if s.celBlocked then s
    else
      let s := State.scrubSkip 17 s
      (s.celRead (s.rd CEL_SCPOS)).2.2.scrubNext)

/-! ## Management port (R466) -/

/-- A group that Table 18-2 assigns to the management port. -/
def portGroup (g : Nat) : Bool :=
  g == 0x10000 || g == 0x10008 || g == 0x10009 || (0x10010 ≤ g && g ≤ 0x1001F)

/-- The port command ends. -/
def State.portEnd (s : State) (c : Status) (groups : Nat) : Status × State :=
  (c, ((s.wr CEL_M_CODE (codeOf c)).wr CEL_M_LAST ((groups + 255) % 256)).raise 0x0D8 3)

/-- The data of a group of the port. -/
def State.portData (s : State) (i : Nat) : Nat := s.rd (CEL_MBUF (2 * i)) + 2 ^ 32 * s.rd (CEL_MBUF (2 * i + 1))

/-- CEL_M_GO (R466); `fail`: the group whose verify mismatches twice. -/
def State.portGo (s : State) (fail : Option Nat) : Status × State :=
  let g := s.rd CEL_M_GRP
  let n := s.rd CEL_M_NGRP
  if s.on CEL_M_BUSY then (.refusedPriority, s)
  else if n = 0 then s.portEnd .zeroLen 0
  else if 8 < n ∨ !((List.range n).all fun i => portGroup (g + i)) then s.portEnd .cfgInvalid 0
  else if s.celBlocked then
    (s.celLost srcPort 0xFFFF 0 (if g = 0x10000 then areaBoot else if g < 0x10010 then areaStamp else areaGauge)).portEnd
      .powerLost 0
  else if s.on CEL_M_DIR then
    let l := (List.range n).map s.portData
    match fail with
    | none => (s.celWriteRun g l).portEnd .ok n
    | some k =>
      if k < n then
        let s := s.celWriteRun g (l.take k)
        let d := s.draw 72
        ((d.2.celPutRaw (g + k) (BitVec.ofNat 72 d.1)).celVerifyFailed (g + k)).portEnd .integFail k
      else (s.celWriteRun g l).portEnd .ok n
  else
    let x := s.celReadRun g n
    let s := (List.range x.1.length).foldl (fun s i =>
      let d := x.1.getD i 0
      (s.wr (CEL_MBUF (2 * i)) (d % 2 ^ 32)).wr (CEL_MBUF (2 * i + 1)) (d / 2 ^ 32)) x.2.2
    s.portEnd (if x.1.length < n then .integFail else .ok) x.1.length

/-! ## Page 0x0D8 (R477) -/

/-- The arming of CEL_BPARM still holds (R461). -/
def State.bpArmed (s : State) : Bool :=
  match s.cel.armed with
  | some t => decide (s.ticks ≤ t + 65536)
  | none => false

/-- A write of CEL_BP (R461). -/
def State.bpWrite (s : State) (q : Req) (d : Nat) : Status × State :=
  let armed := s.bpArmed
  let s := s.setCel fun c => { c with armed := none }
  if bits d 0 2 < s.rd CEL_BP ∧ armed = false then (.timeout, s)
  else (.ok, (s.storeWord q.page q.off d).bpShow)

/-- A write of the ring registers of a tenant. -/
def State.celRingWrite (s : State) (q : Req) (d : Nat) : Status × State :=
  let t := (q.off - 0x200) / 16
  let old := s.reg q.page q.off
  let on := s.on (CEL_REN t)
  let bad := match q.off % 16 with
    | 0x4 => on && (bits d 0 8 != bits old 0 8
        || s.heldWord q.page (q.off - 4) / 64 != s.reg q.page (q.off - 4) / 64)
    | 0x8 => decide (8 < bits d 0 4) || decide (8 < bits d 8 4)
        || (on && (bits d 0 4 != bits old 0 4 || bits d 8 4 != bits old 8 4))
    | _ => false
  if bad then (.cfgInvalid, s)
  else
    let s := s.storeWord q.page q.off d
    (.ok, if q.off % 16 ≤ 4 then s.setCel fun x => { x with stopped := x.stopped.erase t } else s)

/-- Writes of page 0x0D8; `fail`: as in R474, for a command of the management port. -/
def celWriter (fail : Option Nat) : Writer := fun s q d =>
  let ccode (r : Status × State) : Status × State := (r.1, r.2.wr CEL_CCODE (codeOf r.1))
  if q.off = 0x044 then ccode (s.bpWrite q d)
  else if q.off = 0x048 then ccode (if bits d 0 16 = 0 then (.cfgInvalid, s) else plainWrite s q d)
  else if q.off = 0x064 then
    let s := s.storeWord q.page q.off d
    let s := if bit d 0 then s.setCel fun c => { c with armed := some s.ticks } else s
    if bit d 1 then s.unitRelease else ccode (.ok, s)
  else if q.off = 0x080 ∨ q.off = 0x084 ∨ (0x0C0 ≤ q.off ∧ q.off < 0x100) then
    if q.port ≠ .mgmt then (.notOwner, s)
    else if q.off = 0x084 then
      if s.on CEL_M_BUSY then (.refusedPriority, s)
      else
        let s := s.storeWord q.page q.off d
        if bit d 8 then s.portGo fail else (.ok, s)
    else plainWrite s q d
  else if 0x200 ≤ q.off ∧ q.off < 0x600 then ccode (s.celRingWrite q d)
  else ccode (plainWrite s q d)

/-- CEL_UNRESV (R460): a write of 1. -/
def execCelUnresv (w : RegWrite) (s : State) : Result :=
  .next (s.writeReg (celWriter none) 0x0D8 0x064 w fun d => setBit d 1)

/-- CEL_BPARM (R461): a write of 1. -/
def execCelBparm (w : RegWrite) (s : State) : Result :=
  .next (s.writeReg (celWriter none) 0x0D8 0x064 w fun d => setBit d 0)

/-- CEL_BP_WRITE (R461). -/
def execCelBpWrite (w : RegWrite) (s : State) : Result :=
  .next (s.writeReg (celWriter none) 0x0D8 0x044 w id)

/-- CEL_M_GO (R466): a write of 1. -/
def execCelMGo (fail : Option (Fin 8)) (w : RegWrite) (s : State) : Result :=
  .next (s.writeReg (celWriter (fail.map (·.val))) 0x0D8 0x084 w fun d => setBit d 8)

end Sys2Proof.Machine
end

