-- ==== Sys2Proof/Machine/Hif.lean ====
section
/-! DEFINITION. Host and field interfaces (chapter 23) but for the host-access frame: sessions and their
end, notification, the Ethernet rings and MDIO, UARTs, GPIO, tariff inputs, the debug port, and their pages. -/

namespace Sys2Proof.Machine

open Reg

/-- The state with what the interfaces hold changed. -/
def State.setHif (s : State) (f : HifState → HifState) : State := { s with hif := f s.hif }

/-! ## Sessions (R556, R562) -/

/-- Interface codes of Table 23-1. -/
def ifHsp : Nat := 1
def ifEth : Nat := 2
def ifI2c : Nat := 3

/-- The sessions of an interface (Table 23-1). -/
def sessionCount (iface : Nat) : Nat :=
  match iface with
  | 1 => 8
  | 2 => 16
  | _ => 2

/-- The page of an interface. -/
def ifacePage (iface : Nat) : Nat :=
  match iface with
  | 1 => 0x104
  | 2 => 0x100
  | _ => 0x108

/-- The session of a number. -/
def State.session? (s : State) (iface num : Nat) : Option Session :=
  s.hif.sessions.find? fun x => x.iface == iface && x.num == num

/-- The pages show the sessions that are open (Tables 23-5 to 23-7). -/
def State.hifShow (s : State) : State :=
  let opened (i n : Nat) : Bool := match s.session? i n with
    | some x => x.isOpen
    | none => false
  let tc (i n : Nat) : Nat := match s.session? i n with
    | some x => if x.isOpen then x.tc else 0
    | none => 0
  let slot (i n : Nat) : Nat := match s.session? i n with
    | some x => if x.isOpen then x.slot else 0
    | none => 0
  let t := s.wr HSP_OPEN ((List.range 8).foldl (fun a n => a + b2n (opened 1 n) * 2 ^ n) 0)
  let t := (List.range 8).foldl (fun t n => (t.wr (HSP_S_TC n) (tc 1 n)).wr (HSP_S_SLOT n) (slot 1 n)) t
  let t := (List.range 2).foldl (fun t n => (t.wr (I2T_S_TC n) (tc 3 n)).wr (I2T_S_OPEN n) (b2n (opened 3 n))) t
  t.wr ETH_NSES (s.hif.sessions.filter fun x => x.iface == ifEth && x.isOpen).length

/-- The event of an interface at which a session opens or closes. -/
def State.sessionEvent (s : State) (iface : Nat) : State :=
  if iface = ifEth then s else s.raise (ifacePage iface) 0

/-- A session is set aside (R562). -/
def State.endSession (s : State) (iface num : Nat) : State :=
  match s.session? iface num with
  | none => s
  | some x =>
    let s := s.setHif fun h => { h with sessions := h.sessions.filter fun y => !(y.iface == iface && y.num == num) }
    (if x.isOpen then s.sessionEvent iface else s).hifShow

/-- Every session closes (R556). -/
def State.endSessions (s : State) : State :=
  s.hif.sessions.foldl (fun s x => s.endSession x.iface x.num) s

/-- HSP_IRQN, or I2T_ALERTN, is driven low (R566). -/
def State.lineLow (s : State) (iface : Nat) : Bool :=
  s.pageRuns (ifacePage iface)
    && s.hif.sessions.any fun x => x.iface == iface && x.isOpen && s.summary x.tc

/-- A host interface that runs now (Table 23-1). -/
def State.ifaceRuns (s : State) (iface : Nat) : Bool :=
  s.pageRuns (ifacePage iface)
    && (if iface = ifEth then s.on ETH_EN && s.rd ETH_IP != 0
        else if iface = ifI2c then s.on I2T_EN else true)

/-- LOCKOUT_END (R561): 10 s after the third failed proof. -/
def execLockoutEnd (iface : Fin 3) (s : State) : Result :=
  .next (
    let i := iface.val + 1
    match s.hif.locks.find? (·.1 == i) with
    | none => s
    | some x => (s.waitUntil x.2).setHif fun h => { h with locks := h.locks.filter (·.1 != i) })

/-- HSP_CS_CUT (R565): a request that HSP_CSN cuts short. -/
def execHspCsCut (s : State) : Result :=
  .next (if s.pageRuns 0x104 then s.count HSP_CUTN else s)

/-! ## Notification on Ethernet (R569) -/

/-- A response header (Table 23-2). -/
def respHead (op ses code done : Nat) : List Byte :=
  let b := [BitVec.ofNat 8 op, BitVec.ofNat 8 ses, BitVec.ofNat 8 code, BitVec.ofNat 8 done]
  b ++ beBytes 2 (crc16 b)

/-- A session is changed. -/
def State.setSession (s : State) (iface num : Nat) (f : Session → Session) : State :=
  s.setHif fun h => { h with
    sessions := h.sessions.map fun x => if x.iface = iface ∧ x.num = num then f x else x }

/-- A datagram to the peer of a session, tagged under its key (R568). -/
def tagged (key : List Byte) (seq : Nat) (b : List Byte) : List Byte :=
  let p := leBytes 4 seq ++ b
  p ++ (hmac key p).take 8

/-- A NOTE is sent (R569). -/
def State.sendNote (s : State) (x : Session) : State :=
  let d := tagged x.key (2 ^ 31 + x.notes % 2 ^ 31) (respHead 0xA0 x.num 0 0)
  let s := s.setSession x.iface x.num fun y => { y with notes := y.notes + 1, high := true, noted := s.clk }
  s.send (.host ifEth) (x.peer :: byteNats d)

/-- NOTE (R569): on a rise of the summary line of a session's tenant, and every ETH_NOTEMS while it stays high. -/
def execNote (session : Fin 16) (s : State) : Result :=
  .next (
    match s.session? ifEth session.val with
    | none => s
    | some x =>
      if !(x.isOpen && s.ifaceRuns ifEth) then s
      else if !s.summary x.tc then s.setSession ifEth x.num fun y => { y with high := false }
      else if x.high then (s.waitUntil (x.noted + msTicks (s.rd ETH_NOTEMS))).sendNote x
      else s.sendNote x)

/-! ## Ethernet rings (R570) -/

/-- Bytes of memory as the MAC and the harts reach it: control SRAM, or the inference memory. -/
def State.sysBytes (s : State) (a n : Nat) : List Byte :=
  if 0x8000000 ≤ a ∧ a < 0x8400000 then memBytes s.ccx.sram a n else s.bytes a n

/-- The same, stored. -/
def State.sysStore (s : State) (a : Nat) (l : List Byte) : State :=
  if 0x8000000 ≤ a ∧ a < 0x8400000 then s.setCcx fun c => { c with sram := memStore c.sram a l } else s.store a l

/-- The ring bases (Table 23-5). -/
def State.txBase (s : State) : Nat := s.rd (ETH_RB 0) / 16 * 16 + s.rd (ETH_RB 1) % 256 * 2 ^ 32
def State.rxBase (s : State) : Nat := s.rd (ETH_RB 2) / 16 * 16 + s.rd (ETH_RB 3) % 256 * 2 ^ 32

/-- A descriptor completes with a code: OWN is cleared. -/
def State.descDone (s : State) (a : Nat) (c : Status) : State :=
  (s.sysStore (a + 8) [BitVec.ofNat 8 (codeOf c), 0]).raise 0x100 0

/-- ETH_TX_DESC (R570): the next transmit descriptor. -/
def execEthTxDesc (s : State) : Result :=
  .next (
    let a := s.txBase + 16 * s.rd ETH_TXHEAD
    let d := s.sysBytes a 16
    if !(s.pageRuns 0x100 && s.on ETH_EN && bit (leAt d 9 1) 0) then s
    else
      let n := leAt d 6 2
      let s := s.wr ETH_TXHEAD ((s.rd ETH_TXHEAD + 1) % 2 ^ s.rd ETH_TXL)
      if n = 0 then s.descDone a .zeroLen
      else (s.send .ethernet (byteNats (s.sysBytes (leAt d 0 5) n))).descDone a .ok)

/-- ETH_RX_FRAME (R570): a frame that is not for the host-access engine. -/
def execEthRxFrame (frame : List Byte) (s : State) : Result :=
  .next (
    if !(s.pageRuns 0x100 && s.on ETH_EN) then s
    else
      let a := s.rxBase + 16 * s.rd ETH_RXHEAD
      let d := s.sysBytes a 16
      if !bit (leAt d 9 1) 0 then s.count ETH_RXDROPN
      else
        let s := s.wr ETH_RXHEAD ((s.rd ETH_RXHEAD + 1) % 2 ^ s.rd ETH_RXL)
        if s.rd ETH_RXBUF < frame.length then s.descDone a .part
        else
          ((s.sysStore (leAt d 0 5) frame).sysStore (a + 6) (leBytes 2 frame.length)).descDone a .ok)

/-- One MDIO operation of firmware (R571); `answer`: what the PHY returns to a read. -/
def State.mdioRun (s : State) (answer : Nat) : State :=
  let op := s.rd ETH_MD_OP
  let s := s.send .mdio [s.rd ETH_MD_C45, op, s.rd ETH_PHYAD, s.rd ETH_MD_REG, s.rd ETH_MD_DATA]
  if op = 2 then s.wr ETH_MD_DATA answer else s

/-- PHY_POLL (R571): the link status of the PHY. -/
def execPhyPoll (link : Bool) (s : State) : Result :=
  .next (
    if s.pageRuns 0x100 ∧ s.on ETH_APOLL = true then
      (s.send .mdio [0, 2, s.rd ETH_PHYAD, 1, 0]).wr ETH_LINK (b2n link)
    else s)

/-! ## UARTs (R572, R573) -/

/-- UART `n`. -/
def State.uart (s : State) (n : Nat) : Uart := cellAt {} n s.hif.uarts

/-- The registers that show the FIFOs. -/
def State.uartShow (s : State) (n : Nat) : State :=
  let u := s.uart n
  let h := u.rx.head?
  let s := (s.wr (UART_RXD n) ((h.map (·.1.toNat)).getD 0)).wr (UART_RXERR n) (b2n ((h.map (·.2)).getD false))
  ((s.wr (UART_RXVALID n) (b2n h.isSome)).wr (UART_RXN n) u.rx.length).wr (UART_TXN n) u.tx.length

/-- UART `n` changed. -/
def State.setUart (s : State) (n : Nat) (f : Uart → Uart) : State :=
  (s.setHif fun h => { h with uarts := cellPut {} n (f (s.uart n)) h.uarts }).uartShow n

/-- UART `n` runs. -/
def State.uartRuns (s : State) (n : Nat) : Bool := s.pageRuns (0x10C + n) && s.on (UART_EN n)

/-- A byte is queued (R573): it is lost where the FIFO is full. -/
def State.uartQueue (s : State) (n : Nat) (b : Byte) : State :=
  if 64 ≤ (s.uart n).tx.length then s.count (UART_TXOVN n)
  else
    let s := s.setUart n fun u => { u with tx := u.tx ++ [b], de := u.de || s.on (UART_EN n) }
    s.wr (UART_BIAS n) 0

/-- UART_RX_CHAR (R572, R573): a character on the line; while UARTn_DE is asserted it is the echo of the oldest
byte sent. -/
def execUartRxChar (uart : Fin 2) (char : Byte) (err : Bool) (s : State) : Result :=
  .next (
    let n := uart.val
    let u := s.uart n
    if !s.uartRuns n then s
    else
      let s := s.wr (UART_BIAS n) 0
      match u.de, u.tx with
      | true, b :: l =>
        let s := s.send (.uart n) [b.toNat]
        if char = b ∧ err = false then s.setUart n fun u => { u with tx := l }
        else ((s.setUart n fun u => { u with tx := [], de := false }).count (UART_COLLN n)).raise (0x10C + n) 1
      | _, _ =>
        if 64 ≤ u.rx.length then s.count (UART_TXOVN n)
        else s.setUart n fun u => { u with rx := u.rx ++ [(char, err)] })

/-- UART_TX_END (R573): the transmit FIFO has emptied and UARTn_DE is released. -/
def execUartTxEnd (uart : Fin 2) (s : State) : Result :=
  .next (
    let n := uart.val
    let u := s.uart n
    if !(s.uartRuns n && u.de) then s
    else
      let s := u.tx.foldl (fun s b => s.send (.uart n) [b.toNat]) s
      (s.setUart n fun u => { u with tx := [], de := false }).raise (0x10C + n) 2)

/-- UART_EOF (R573): a gap of UART_GAP bit times after a character; `idle`: the line has rested at the idle level
for 1 ms with UARTn_DE released. -/
def execUartEof (uart : Fin 2) (idle : Bool) (s : State) : Result :=
  .next (
    let n := uart.val
    if !s.uartRuns n then s
    else (s.raise (0x10C + n) 0).wr (UART_BIAS n) (b2n (idle && !(s.uart n).de)))

/-- Writes of pages 0x10C and 0x10D. -/
def uartWrite : Writer := fun s q d =>
  let n := q.page - 0x10C
  match q.off with
  | 0x040 => storeIf (decide (48 ≤ 16 * bits d 0 12 + bits d 12 4) && decide (bits d 16 3 ≤ 4)) s q d
  | 0x044 => storeIf (bits d 8 8 != 0) s q d
  | 0x048 => (.ok, s.uartQueue n (BitVec.ofNat 8 d))
  | _ => plainWrite s q d

/-- Reads of pages 0x10C and 0x10D: an owner's read of UART_RXDATA removes the byte. -/
def uartRead : Reader := fun s q =>
  let n := q.page - 0x10C
  if q.off = 0x04C then
    let r := plainRead s q
    if s.owns q then (r.1, r.2.1, r.2.2.setUart n fun u => { u with rx := u.rx.drop 1 }) else r
  else plainRead s q

/-- UART_TXDATA (R573). -/
def execUartTxdata (uart : Fin 2) (w : RegWrite) (s : State) : Result :=
  .next (s.writeReg uartWrite (0x10C + uart.val) 0x048 w id)

/-- UART_RXDATA_READ (R578). -/
def execUartRxdataRead (uart : Fin 2) (r : RegRead) (s : State) : Result :=
  .next (s.readReg uartRead (0x10C + uart.val) 0x04C r)

/-! ## GPIO (R574) -/

/-- The code of consumer GPIO in a scheduling entry (Table 2-4). -/
def consGpio : Nat := 5

/-- The level that output `k` drives. -/
def State.gpioDrive (s : State) (k : Nat) : Bool :=
  if s.on (GPIO_CS_EN k) then s.signalOn consGpio (s.rd (GPIO_CS_SIG k)) != s.on (GPIO_CS_INV k)
  else s.on (GPIO_OUT k)

/-- The pins that are outputs show their levels. -/
def State.gpioShow (s : State) : State :=
  (List.range 48).foldl (fun s k => if s.on (GPIO_DIR k) then s.wr (GPIO_IN k) (b2n (s.gpioDrive k)) else s) s

/-- GPIO_EDGE (R574): the level of an input pin changes. -/
def execGpioEdge (pin : Fin 48) (level : Bool) (s : State) : Result :=
  .next (
    let k := pin.val
    if s.on (GPIO_DIR k) ∨ s.on (GPIO_IN k) = level then s
    else
      let s := s.wr (GPIO_IN k) (b2n level)
      if bit (s.rd (GPIO_EDGE k)) (if level then 0 else 1) then (s.wr (GPIO_EVT k) 1).raise 0x110 0 else s)

/-- Writes of page 0x110. -/
def gpioWrite : Writer := fun s q d =>
  let pulls := (List.range 8).all fun k => bits d (4 * k) 2 != 3
  if 0x060 ≤ q.off ∧ q.off < 0x078 ∧ pulls = false then (.cfgInvalid, s)
  else
    let r := plainWrite s q d
    (r.1, r.2.gpioShow)

/-! ## Tariff and status inputs (R575) -/

/-- TIN_CHANGE (R575): an input has held a level for TIN_DEB ms. -/
def execTinChange (input : Fin 8) (level : Bool) (s : State) : Result :=
  .next (
    let k := input.val
    let now := level == bit (s.rd TIN_POL) k
    let old := s.rd TIN_LVL
    if bit old k = now then s
    else
      let s := (s.wr TIN_LVL (if now then setBit old k else clearBit old k)).raise 0x114 0
      if now then s.count (TIN_CNT k) else s)

/-- Writes of page 0x114. -/
def tinWrite : Writer := fun s q d =>
  if q.off = 0x040 then
    if s.on TNC_SEALED then (.prot, s) else storeIf (bits d 8 8 != 0) s q d
  else plainWrite s q d

/-! ## Debug port (R576) -/

/-- A write of DBG_REQ: a mode change after a valid arming. -/
def State.dbgRequest (s : State) (mode : Nat) : Status × State :=
  let armed := match s.hif.armed with
    | some t => decide (s.ticks ≤ t + 65536)
    | none => false
  let s := s.setHif fun h => { h with armed := none }
  let c : Status := if mode = 3 then .cfgInvalid else if armed then .ok else .timeout
  let s := s.wr DBG_CCODE (codeOf c)
  if c = .ok ∧ s.rd DBG_MODE ≠ mode then
    (c, ((s.wr DBG_MODE mode).raise 0x118 0).log 0x4004 (s.rd (OWN_TC 0x118))
      (0x0118 + b2n (mode != 0) * 2 ^ 16))
  else (c, s)

/-- Writes of page 0x118: a write of 1 to DBG_ARM arms, any other write of DBG_CMD submits. -/
def dbgWrite : Writer := fun s q d =>
  if q.off = 0x044 then
    if bit d 0 then (.ok, s.setHif fun h => { h with armed := some s.ticks }) else s.dbgRequest (bits d 8 2)
  else plainWrite s q d

/-- DBG_ARM (R576): a write of 1. -/
def execDbgArm (w : RegWrite) (s : State) : Result :=
  .next (s.writeReg dbgWrite 0x118 0x044 w fun d => setBit d 0)

/-- DBG_REQ (R576): a write of DBG_REQ. -/
def execDbgReq (w : RegWrite) (s : State) : Result :=
  .next (s.writeReg dbgWrite 0x118 0x044 w fun d => clearBit d 0)

/-! ## Pages 0x100, 0x104 and 0x108 (R578) -/

/-- Writes of page 0x100; `answer`: what the PHY returns to an MDIO read. -/
def ethWriter (answer : Nat) : Writer := fun s q d =>
  match q.off with
  | 0x040 => storeIf (bits d 1 2 != 3) s q d
  | 0x050 => storeIf (decide (10 ≤ bits d 16 16)) s q d
  | 0x054 => storeIf (decide (bits d 0 4 ≤ 10) && decide (bits d 4 4 ≤ 10) && decide (64 ≤ bits d 16 16)
      && decide (bits d 16 16 ≤ 9216)) s q d
  | 0x06C =>
    if bits d 24 2 = 3 then (.cfgInvalid, s)
    else
      let s := s.storeWord q.page q.off d
      (.ok, if bit d 31 then s.mdioRun answer else s)
  | _ => plainWrite s q d

/-- Writes of page 0x108. -/
def i2tWrite : Writer := fun s q d =>
  if q.off = 0x040 then storeIf (decide (8 ≤ bits d 0 7) && decide (bits d 0 7 < 0x78)) s q d
  else plainWrite s q d

/-- ETH_MD_GO (R571): a write of 1. -/
def execEthMdGo (answer : BitVec 16) (w : RegWrite) (s : State) : Result :=
  .next (s.writeReg (ethWriter answer.toNat) 0x100 0x06C w fun d => setBit d 31)

end Sys2Proof.Machine
end

