-- ==== Sys2Proof/Machine/PlmNode.lean ====
section
/-! DEFINITION. The powerline MAC above its queue (chapter 14): endpoint rings, join windows, battery nodes, their
downlinks, repeater grants, and the registers of pages 0x0B8 to 0x0BB. -/

namespace Sys2Proof.Machine

open Reg

/-! ## Slots of the pulse channel -/

/-- A scheduling entry of the pulse channel: pulse window, period, offset and anchor (Table 2-3, R342). -/
def pulseEntry (period cofs anchor : Nat) : Nat :=
  putBits 0 0 16 (65536 - 5120) + 10240 * 2 ^ 16 + 2 * 2 ^ 32 + period * 2 ^ 40 + cofs * 2 ^ 48
    + anchor * 2 ^ 56 + 2 ^ 61

/-- The slots that the MAC has given out: stream, entry, anchor, period, offset. -/
def State.plmSlots (s : State) : List (Nat × Nat × Nat × Nat × Nat) :=
  (s.plm.joins.map fun j => (j.stream, j.entry, j.anchor, 1, 0))
    ++ (s.plm.nodes.map fun n => (n.stream, n.entry, n.anchor, n.period, n.cofs))
    ++ ((s.plm.grants.map fun g => (g.stream, g.entry)) ++ (s.plm.probes.map fun g => (g.stream, g.entry))).map
      fun x => match s.plm.srqWords.find? (·.1 == x.2) with
        | some w => (x.1, x.2, entAnch w.2, entPer w.2, entCofs w.2)
        | none => (x.1, x.2, 0, 0, 0)

/-- A free stream. -/
def State.freeStream (s : State) : Option Nat :=
  (List.range 64).find? fun k => !s.plmSlots.any (·.1 == k)

/-- A free entry of those that the MAC may ask for (chapter 14). -/
def State.freeEntry (s : State) : Option Nat :=
  ((List.range 64).map (s.rd PLM_SBASE + ·)).find? fun k => !s.plmSlots.any (·.2.1 == k)

/-- Two periodic slots meet in some cycle. -/
def slotsMeet (p1 c1 p2 c2 : Nat) : Bool :=
  let g := Nat.gcd p1 p2
  if g = 0 then false else c1 % g == c2 % g

/-- No other stream than `but` shares anchor tick and cycle with a slot (R376). -/
def State.slotFree (s : State) (but anchor period cofs : Nat) : Bool :=
  !s.plmSlots.any fun x => x.1 != but && x.2.2.1 == anchor && slotsMeet x.2.2.2.1 x.2.2.2.2 period cofs

/-- An entry is asked for, active by cycle `cyc` (R380). -/
def State.askEntry (s : State) (entry stream word cyc : Nat) : State :=
  (s.setPlm fun p => { p with srqWords := cellInsert entry word p.srqWords }).postSched
    ⟨entry, word, stream, false, cyc⟩

/-- The removal of an entry is asked for (R380), and its stream ends. -/
def State.dropEntry (s : State) (entry stream : Nat) : State :=
  let s := s.setPlm fun p => { p with srqWords := p.srqWords.filter (·.1 != entry) }
  (s.setStream stream fun _ => {}).postSched ⟨entry, 0, stream, true, s.stamp.cyc + s.rd PLM_ADMLEAD⟩

/-- SCHED_REQUEST_LATE (R380): requests not active by their cycle are counted. -/
def execSchedRequestLate (s : State) : Result :=
  .next (
    let due := s.plm.due.filter fun r => r.cyc ≤ s.stamp.cyc
    let late := due.filter fun r =>
      if r.remove then entEn (s.activeEntry r.idx) else s.activeEntry r.idx != r.word
    (s.setPlm fun p => { p with due := p.due.filter fun r => s.stamp.cyc < r.cyc }).count PLM_SRQLATEN
      late.length)

/-! ## Endpoint rings (R353, R354) -/

/-- The fields of a transmit descriptor (Table 14-2). -/
def tdItem (w : Nat) : Nat := bits w 0 16
def tdFdst (w : Nat) : Nat := bits w 16 8
def tdPrio (w : Nat) : Nat := bits w 24 2
def tdAck (w : Nat) : Bool := bit w 26
def tdNode (w : Nat) : Bool := bit w 27
def tdEui (w : Nat) : Nat := bits w 32 64
def tdLen (w : Nat) : Nat := bits w 96 16
def tdBuf (w : Nat) : Nat := bits w 128 40
def tdDead (w : Nat) : Nat := bits w 192 32

/-- The checks of R354 on a descriptor of endpoint `e`: the first that fails. -/
def State.tdCheck (s : State) (e w : Nat) : Option Status :=
  let t := s.epOwner e
  if s.tenant t ≠ tenActive then some .notOwner
  else if crc32 (leBytes 28 w) ≠ bits w 224 32 then some .integFail
  else if !s.tenantMay t false (tdBuf w) (tdLen w) then some .notOwner
  else if 480 < tdLen w || s.rd (PLM_EP_PMAX (e / 64) (e % 64)) < tdPrio w
      || (tdNode w && (tdFdst w != 0 || 25 < tdLen w)) || (!tdNode w && tdFdst w == 0) then
    some .cfgInvalid
  else if tdLen w = 0 then some .zeroLen
  else none

/-- A descriptor is refused with its record (R354). -/
def State.refuseTd (s : State) (e w : Nat) (c : Status) : State :=
  (s.outcome (s.epOwner e) resAir c (tdItem w)).epRecord e (plmRecord (tdItem w) c 0 0 0 0 0 0)

/-- The cycle that a deadline names: the first from now on with these 32 bits (log entry 23). -/
def State.deadlineCyc (s : State) (d : Nat) : Nat :=
  s.stamp.cyc + (d + 2 ^ 32 - s.stamp.cyc % 2 ^ 32) % 2 ^ 32

/-- A downlink for a node waits for its request; the state and its reference. -/
def State.addDown (s : State) (stream : Nat) (data : List Byte) (isData : Bool)
    (src : Option (Nat × Nat × Nat)) : State :=
  s.setPlm fun p => { p with
    downs := p.downs ++ [⟨p.nextId, stream, data, isData, false, src⟩], nextId := p.nextId + 1 }

/-- The nonce of a node frame (Table 14-8). -/
def nodeNonce (eui ctr : Nat) (down : Bool) (type : Nat) : List Byte :=
  leBytes 8 eui ++ beBytes 4 ctr ++ [BitVec.ofNat 8 (type + 128 * b2n down)]

/-- The committed key of endpoint `e`. -/
def State.epKey (s : State) (e : Nat) : Option (List Byte) :=
  (s.plm.keys.find? (·.1 == e)).map fun x => keyBytes x.2

/-- A downlink frame for node `n`: its counter is `n.down` + 1, `msg` stands before or after the counter
(Table 14-8). -/
def nodeDownFrame (key : List Byte) (n : NodeEntry) (type : Nat) (msg : List Byte) : List Byte :=
  let c := n.down + 1
  let head := BitVec.ofNat 8 type :: leBytes 2 (c % 65536)
  let x := ccmSeal key (nodeNonce n.eui c true type) head msg 4
  if type = 8 then head.take 1 ++ x.take msg.length ++ head.drop 1 ++ x.drop msg.length else head ++ x

/-- Node `n` of the table changes. -/
def State.setNode (s : State) (stream : Nat) (f : NodeEntry → NodeEntry) : State :=
  s.setPlm fun p => { p with nodes := p.nodes.map fun n => if n.stream = stream then f n else n }

/-- The node entry of a stream. -/
def State.nodeOn (s : State) (stream : Nat) : Option NodeEntry := s.plm.nodes.find? (·.stream == stream)

/-- A segment of an NRELAY frame to a device: the node EUI, then the node frame (log entry 24). -/
def State.sendRelay (s : State) (fdst nid prio eui : Nat) (data : List Byte) (down : Option Nat) : State :=
  s.enqueue { id := 0, kind := 1, type := 4, prio := prio, ackReq := true, nid := nid, orig := s.saddr,
              fdst := fdst, data := leBytes 8 eui ++ data, down := down }

/-- A downlink of type `type` is queued for node `n` (R378). -/
def State.nodeDownlink (s : State) (n : NodeEntry) (stream type : Nat) (msg : List Byte)
    (src : Option (Nat × Nat × Nat)) : State :=
  match s.epKey n.ep with
  | none => s
  | some k =>
    let s := s.addDown stream (nodeDownFrame k n type msg) (type == 9) src
    s.setNode n.stream fun m => { m with down := m.down + 1 }

/-- A descriptor that asks for a downlink to a node (Table 14-2): without such a node it is SKIPPED. -/
def State.nodeTd (s : State) (e w : Nat) : State :=
  match s.plm.nodes.find? fun n => n.eui == tdEui w && n.ep == e with
  | none => s.refuseTd e w .skipped
  | some n =>
    if (s.epKey e).isNone then s.refuseTd e w .keyRetired
    else s.nodeDownlink n n.stream 9 (s.bytes (tdBuf w) (tdLen w)) (some (e, tdItem w, s.epOwner e))

/-- A descriptor of a tone frame: its cost is admitted against the airtime quota (R365, R366). -/
def State.toneTd (s : State) (e w : Nat) : State :=
  let t := s.epOwner e
  let fdst := tdFdst w
  let hop := match s.hopFor fdst with
    | some (some r) => some r
    | _ => none
  let p := s.txPlan (hop.map (·.1))
  let ack := tdAck w && fdst != 0xFF
  match s.segCount p (tdLen w) with
  | none => s.refuseTd e w .cfgInvalid
  | some k =>
    let lens := (List.range k).map fun i => (segPart (s.bytes (tdBuf w) (tdLen w)) k i).length
    if s.on PLT_BANDC_EN ∧ lens.any (fun n => 48000000 < s.attemptClocks p false n) then
      s.refuseTd e w .cfgInvalid
    else
      let cost := sumNat (lens.map fun n => s.clocksToTicks (s.attemptClocks p ack n))
      match s.takeQuota 2 t cost with
      | none => s.refuseTd e w .refusedQuota
      | some s =>
        let limit := s.stamp.cyc + 64
        let dead := if tdDead w = 0 then limit else min limit (s.deadlineCyc (tdDead w))
        s.enqueue { id := 0, kind := 2, type := 1, prio := tdPrio w, ackReq := ack,
                    nid := s.rd (PLM_EP_NID (e / 64) (e % 64)), orig := s.saddr, fdst := fdst,
                    data := s.bytes (tdBuf w) (tdLen w), ep := e, tc := t, cls := s.rd (TNC_CLASS t),
                    item := tdItem w, cost := cost, period := s.periodOf 2,
                    asked := (s.stamp.cyc + 2) * 65536 - 1, latest := dead * 65536, segs := k,
                    path := match hop with
                      | some r => r.2.1
                      | none => 0 }

/-- One descriptor of endpoint `e` is taken. -/
def State.takeTd (s : State) (e : Nat) : State :=
  let r := s.epRing e
  let i := s.ringIdx (r.base + 0x04)
  let w := s.memNat (r.desc i) 32
  let s := match s.tdCheck e w with
    | some c => s.refuseTd e w c
    | none => if tdNode w then s.nodeTd e w else s.toneTd e w
  s.store (r.base + 0x04) (leBytes 2 ((i + 1) % 65536))

/-- Descriptors are taken while there are new ones and no record is held, at most `fuel` (R367). -/
def State.takeTds (e : Nat) : Nat → State → State
  | 0, s => s
  | fuel + 1, s =>
    let r := s.epRing e
    if s.ringIdx r.base = s.ringIdx (r.base + 0x04) ∨ s.plm.held.any (·.key == e) = true then s
    else State.takeTds e fuel (s.takeTd e)

/-- PLM_RING_POLL (R353, R354): the ring of an endpoint is checked and its new descriptors are taken. -/
def execPlmRingPoll (endpoint : Fin 128) (s : State) : Result :=
  .next (
    let e := endpoint.val
    let p := e / 64
    let k := e % 64
    if !s.on PLM_EN || !s.epOn e || decide (3 ≤ s.level) || s.plm.stopped.contains e then s
    else
      let r := s.epRing e
      let n := (s.ringIdx r.base + 65536 - s.ringIdx (r.base + 0x04)) % 65536
      if !s.epUsable e || decide (2 ^ r.tl < n) then
        if s.on (PLM_EP_RFAULT p k) then s
        else (s.wr (PLM_EP_RFAULT p k) 1).log 0x5007 (s.epOwner e) (1 + e * 2 ^ 8)
      else State.takeTds e 256 (State.epRelease e 256 (s.wr (PLM_EP_RFAULT p k) 0)))

/-! ## Uplinks -/

/-- The smallest counter above `last` with the 16 bits sent; those bits where nothing was accepted yet
(chapter 14; log entry 24). -/
def ctrAbove (last : Option Nat) (c : Nat) : Nat :=
  match last with
  | some l => l + 1 + (c + 65536 - (l + 1) % 65536) % 65536
  | none => c

/-- The largest counter not above `last` with the 16 bits sent. -/
def ctrBelow (last : Option Nat) (c : Nat) : Option Nat :=
  match last with
  | some l => if (l + 65536 - c) % 65536 ≤ l then some (l - (l + 65536 - c) % 65536) else none
  | none => none

/-- The last counter accepted of a node: in the node table, else in the cache of R363. -/
def State.nodeLast (s : State) (eui nid : Nat) : Option Nat :=
  match s.plm.nodes.find? fun n => n.eui == eui && n.nid == nid with
  | some n => some n.up
  | none => (s.plm.cache.find? fun x => x.1 == 256 + eui && x.2.1 == nid).map (·.2.2)

/-- What a node frame proves to be. -/
inductive NodeCheck where
  | good (ctr : Nat) (data : List Byte)
  | replay
  | bad
  deriving DecidableEq, Repr

/-- An uplink of types 2, 3 and 4 is verified under a key (Table 14-8, R378). -/
def checkUplink (key : List Byte) (eui : Nat) (last : Option Nat) (l : List Byte) : NodeCheck :=
  let type := leAt l 0 1 % 16
  let head := l.take 3
  let try' (c : Nat) := ccmOpen key (nodeNonce eui c false type) head (l.drop 3) 4
  let c := ctrAbove last (leAt l 1 2)
  if l.length < 7 then .bad
  else
    match try' c with
    | some d => .good c d
    | none =>
      match ctrBelow last (leAt l 1 2) with
      | some b => if (try' b).isSome then .replay else .bad
      | none => .bad

/-- An uplink is delivered to endpoint `e`, or dropped for a full ring (R368). -/
def State.deliverUplink (s : State) (e : Nat) (held : Bool) (orig hops stamp eui ctr stream : Nat)
    (data : List Byte) : State :=
  match s.epReceive e 2 (if held then .holdover else .ok) orig hops stamp eui ctr stream data with
  | some t => t
  | none => s.count (PLM_EP_RXDROPN (e / 64) (e % 64))

/-- An ALARM as log entries: the EUI, then the counter and the data as received (R379, Table 16-6). -/
def State.logAlarm (s : State) (tc eui ctr : Nat) (data : List Byte) : State :=
  let s := (s.log 0x6014 tc eui).log 0x6015 tc (ctr + leAt data 0 4 * 2 ^ 32)
  let rest := data.drop 4
  (List.range (ceilDiv rest.length 8)).foldl (fun s k => s.log 0x6016 tc (leAt rest (8 * k) 8)) s

/-- The sinks named in a word, other than this device and than `but` (R378). -/
def State.sinksOf (s : State) (w but : Nat) : List Nat :=
  ((List.range 4).map fun k => bits w (8 * k) 8).filter fun d => d != 0 && d != s.saddr && d != but

/-- The first node frame that satisfies `p` is taken. -/
def State.takeNode (s : State) (p : PulseIn → Bool) : Option (PulseIn × State) :=
  match s.plm.nodeIn.find? p with
  | none => none
  | some f => some (f, s.setPlm fun x => { x with nodeIn := x.nodeIn.erase f })

/-- The type of a node frame. -/
def PulseIn.type (f : PulseIn) : Nat := leAt f.data 0 1 % 16

/-- A good uplink of node `n` has been heard. -/
def State.noteUplink (s : State) (n : NodeEntry) (ctr : Nat) (least : Option Nat) : State :=
  s.setNode n.stream fun m => { m with
    up := ctr, heard := s.stamp.cyc, silent := none,
    recent := match least with
      | some c => (m.recent ++ [some c]).drop ((m.recent.length + 1) - 8)
      | none => m.recent }

/-! ## Seeking a repeater (R381, R382) -/

/-- The least C_p* that a grant calls for. -/
def State.grantLevel (s : State) : Nat := 2 * s.rd PLP_THR

/-- The home hears node `n` poorly (R382). -/
def State.hearsPoorly (s : State) (n : NodeEntry) : Bool :=
  (n.recent.any fun x => match x with
    | some c => decide (c < s.grantLevel)
    | none => false) || decide (2 ≤ (n.recent.filter (·.isNone)).length)

/-- The role that the home seeks for node `n` (R382). -/
def State.roleSought (s : State) (n : NodeEntry) : Nat :=
  if s.hearsPoorly n then 2
  else if s.on PLM_RG_STBY ∧ s.sinksOf (s.rd (PLM_EP_SINK (n.ep / 64) (n.ep % 64))) 0 ≠ [] then 1
  else 0

/-- An RGREQ (log entry 24): identifier, role 3, EUI, NID, period, polarity; D_cyc and PH follow as it is sent. -/
def rgreqBytes (id : Nat) (n : NodeEntry) : List Byte :=
  0x20 :: leBytes 2 id ++ [3] ++ leBytes 8 n.eui ++ leBytes 2 n.nid
    ++ [BitVec.ofNat 8 n.period, BitVec.ofNat 8 (b2n (decide (8 < n.anchor))), 0, 0, 0, 0]

/-- The home probes its peers for node `n`, where it seeks a grant and none is held or asked for (R381,
R382). -/
def State.seekGrant (s : State) (stream : Nat) : State :=
  match s.nodeOn stream with
  | none => s
  | some n =>
    let role := s.roleSought n
    if role = 0 ∨ n.grant.isSome = true ∨ s.plm.asked.any (·.stream == stream) = true ∨ 2 < s.level then s
    else
      (s.plm.nbs.filter (·.2.bidir)).foldl (fun s x =>
        let id := s.plm.nextGrant
        (s.sendMgmt x.2.saddr (rgreqBytes id n)).setPlm fun p => { p with
          nextGrant := (p.nextGrant + 1) % 65536,
          asked := p.asked ++ [⟨id, x.2.saddr, stream, role, s.stamp.cyc, none⟩] }) s

/-- A change of a grant is told: partner event and log (R370, Table 16-6). -/
def State.tellGrant (s : State) (tc stream role peer : Nat) : State :=
  (s.partner 6 stream).log 0x6021 tc (stream + role * 2 ^ 8 + peer * 2 ^ 16)

/-- An RGRANT (log entry 24): identifier, role, lease, sinks. -/
def State.rgrantBytes (s : State) (id role ep : Nat) : List Byte :=
  0x22 :: leBytes 2 id ++ [BitVec.ofNat 8 role] ++ leBytes 2 (s.rd PLM_RG_LEASE)
    ++ leBytes 4 (s.rd (PLM_EP_SINK (ep / 64) (ep % 64)))

/-- The home withdraws the grant of a node (R382). -/
def State.revokeGrant (s : State) (stream : Nat) : State :=
  match s.nodeOn stream with
  | none => s
  | some n =>
    match n.grant with
    | none => s
    | some (peer, _, id) =>
      let s := s.setNode stream fun m => { m with grant := none }
      (s.sendMgmt peer (0x23 :: leBytes 2 id)).tellGrant (s.epOwner n.ep) stream 0 peer

/-! ## Admission (R375, R376) -/

/-- A free slot of period `P` at a join anchor: anchor code, offset O and CTF_S_COFS. -/
def State.findSlot (s : State) (but join period c0 lead : Nat) : Option (Nat × Nat × Nat) :=
  [join, join + 8].findSome? fun a =>
    match s.anchorPhase a, s.anchorPhase join with
    | some x, some y =>
      let shift := b2n (decide (x < y))
      ((List.range 254).map (· + 2)).findSome? fun o =>
        let c := (c0 + o + shift) % period
        if lead ≤ c0 + o - s.stamp.cyc ∧ s.slotFree but a period c = true then some (a, o, c) else none
    | _, _ => none

/-- A JOIN whose key check has passed is admitted, or counted (R376): `old` is the entry of a node already in
the table. -/
def State.admitNode (s : State) (j : JoinSlot) (e ctr : Nat) (l : List Byte) (old : Option NodeEntry) : State :=
  let eui := leAt l 1 8
  let nid := leAt l 9 2
  let p := max (2 ^ (leAt l 13 1 % 16)) (s.rd PLM_PMIN)
  let c0 := s.stamp.cyc + 92
  let place : Option (Nat × Nat) := match old with
    | some n => some (n.stream, n.entry)
    | none =>
      match s.freeStream, s.freeEntry with
      | some a, some b => some (a, b)
      | _, _ => none
  match place with
  | none => s.count PLM_JOINFULLN
  | some (stream, entry) =>
    match s.findSlot stream j.anchor p c0 (s.rd PLM_ADMLEAD) with
    | none => s.count PLM_JOINFULLN
    | some (a, o, c) =>
      let n : NodeEntry := {
        eui := eui, nid := nid, ep := e, stream := stream, entry := entry, anchor := a, period := p, cofs := c,
        keep := leAt l 13 1 / 16, up := ctr, heard := s.stamp.cyc,
        down := match old with
          | some n => n.down
          | none => 0,
        grant := match old with
          | some n => n.grant
          | none => none }
      let s := s.setPlm fun x => { x with nodes := (x.nodes.filter (·.stream != stream)) ++ [n] }
      let s := s.askEntry entry stream (pulseEntry p c a) (c0 + o)
      let msg := leBytes 8 eui ++ [BitVec.ofNat 8 p, BitVec.ofNat 8 o,
        BitVec.ofNat 8 (b2n (decide (8 < a)) + n.keep * 16)]
      let s := s.nodeDownlink n j.stream 8 msg none
      ((s.partner 3 stream).log 0x6011 (s.epOwner e) eui).seekGrant stream

/-- JOIN (R376): a JOIN heard on a join stream. -/
def execJoin (s : State) : Result :=
  .next (
    match s.takeNode fun f => s.plm.joins.any (·.stream == f.stream) && f.type == 1 with
    | none => s
    | some (f, s) =>
      match s.plm.joins.find? (·.stream == f.stream) with
      | none => s
      | some j =>
        let l := f.data
        let eui := leAt l 1 8
        let nid := leAt l 9 2
        let e := (s.epOfNid nid).getD 128
        let ok := s.on (PLM_EP_ADMIT (e / 64) (e % 64)) && decide (e < 128)
        let ctr := ctrAbove (s.nodeLast eui nid) (leAt l 11 2)
        let good := match s.epKey e with
          | some k => (ccmOpen k (nodeNonce eui ctr false 1) (l.take 14) (l.drop 14) 4).isSome
          | none => false
        if l.length ≠ 18 || !ok || !good then s.count PLM_JOINBADN
        else if 7 < leAt l 13 1 % 16 then s.count PLM_RSVN
        else s.admitNode j e ctr l (s.plm.nodes.find? fun n => n.eui == eui && n.nid == nid))

/-- A join window opens (R375): a schedule request and a join stream for every phase channel of a declared
bus. -/
def State.openJoin (s : State) (len : Nat) : State :=
  let chans := modePhases (s.cfg MTE_BUS1_MODE) ++ (modePhases (s.cfg MTE_BUS2_MODE)).map (· + 3)
  let s := s.setPlm fun p => { p with joinEnd := some (s.stamp.cyc + len) }
  chans.foldl (fun s c =>
    if s.plm.joins.any (·.anchor == c) then s
    else
      match s.freeStream, s.freeEntry with
      | some a, some b =>
        (s.setPlm fun p => { p with joins := p.joins ++ [⟨b, a, c⟩] }).askEntry b a (pulseEntry 1 0 c)
          (s.stamp.cyc + s.rd PLM_ADMLEAD)
      | _, _ => s) s

/-- JOIN_WINDOW_CLOSE (R375): the join window ends and its entries are removed. -/
def execJoinWindowClose (s : State) : Result :=
  .next (
    match s.plm.joinEnd with
    | none => s
    | some c =>
      if s.stamp.cyc < c then s
      else
        let l := s.plm.joins
        let s := s.setPlm fun p => { p with joins := [], joinEnd := none }
        l.foldl (fun s j => s.dropEntry j.entry j.stream) s)

/-! ## Nodes (R377 to R379) -/

/-- The cycles of a keepalive interval of node `n` (R377). -/
def NodeEntry.interval (n : NodeEntry) : Nat := 64 * 2 ^ n.keep * n.period

/-- A node departs: its stream and entry are free, its downlinks end (R377). -/
def State.departNode (s : State) (n : NodeEntry) : State :=
  let s := s.revokeGrant n.stream
  let s := (s.plm.downs.filter (·.stream == n.stream)).foldl (fun s d => s.endNodeDown d.ref .skipped 0) s
  let s := s.setPlm fun p => { p with
    nodes := p.nodes.filter (·.stream != n.stream), asked := p.asked.filter (·.stream != n.stream) }
  ((s.dropEntry n.entry n.stream).partner 5 n.stream).log 0x6013 (s.epOwner n.ep) n.eui

/-- The home acknowledges an uplink of node `n` where no DATA downlink is queued, through its repeater where it
has an ACTIVE one (R378). -/
def State.ackNode (s : State) (n : NodeEntry) (ctr : Nat) : State :=
  if 3 ≤ s.level ∨ s.plm.downs.any (fun d => d.stream == n.stream && d.isData) = true then s
  else s.nodeDownlink n n.stream 10 (leBytes 2 (ctr % 65536)) none

/-- A good uplink of node `n` heard by its home: delivered or stored, relayed, acknowledged (R378, R379). -/
def State.homeUplink (s : State) (n : NodeEntry) (f : PulseIn) (ctr : Nat) (data : List Byte) : State :=
  let s := s.noteUplink n ctr (some f.least)
  let tc := s.epOwner n.ep
  let alarm := f.type == 4
  let s :=
    if 3 ≤ s.level then
      let s := if alarm then s.logAlarm tc n.eui ctr ((f.data.drop 3).take data.length) else s
      if 64 ≤ s.plm.stored.length then s.count PLM_D3DROPN
      else s.setPlm fun p => { p with
        stored := p.stored ++ [⟨n.stream, n.eui, n.ep, ctr, data, f.stamp, f.held⟩] }
    else
      let s := s.deliverUplink n.ep f.held s.saddr 0 f.stamp n.eui ctr n.stream data
      (s.sinksOf (s.rd (PLM_EP_SINK (n.ep / 64) (n.ep % 64))) 0).foldl
        (fun s d => s.sendRelay d n.nid (if alarm then 3 else 2) n.eui f.data none) s
  let s := if bit (leAt f.data 0 1) 7 then s.ackNode { n with up := ctr } ctr else s
  s.seekGrant n.stream

/-- A repeater forwards an uplink that it has heard: ACTIVE to the home and the sinks, after a takeover to the
sinks only, STANDBY not at all (R382, R383). -/
def State.repeatUplink (s : State) (g : RepGrant) (f : PulseIn) : State :=
  let prio := if f.type = 4 then 3 else 2
  let dsts := if g.role = 2 then g.home :: s.sinksOf g.sinks g.home
    else if g.taken.isSome then s.sinksOf g.sinks g.home else []
  let s := dsts.foldl (fun s d => s.sendRelay d g.nid prio g.eui f.data none) s
  if dsts ≠ [] ∧ ((List.range 4).any fun k => bits g.sinks (8 * k) 8 == s.saddr) = true then
    s.setPlm fun p => { p with relays := p.relays ++ [⟨s.saddr, g.nid, g.eui, f.data, 9⟩] }
  else s

/-- NODE_UPLINK (R378, R379): a DATA or ALARM frame of a node, at its home or at a repeater. -/
def execNodeUplink (s : State) : Result :=
  .next (
    match s.takeNode fun f => (f.type == 2 || f.type == 4) &&
        (s.plm.nodes.any (·.stream == f.stream) || s.plm.grants.any (·.stream == f.stream)) with
    | none => s
    | some (f, s) =>
      match s.nodeOn f.stream with
      | some n =>
        match s.epKey n.ep with
        | none => s
        | some k =>
          match checkUplink k n.eui (some n.up) f.data with
          | .good c d => s.homeUplink n f c d
          | .replay => s.count PLM_REPLAYN
          | .bad => s.count PLM_BADMICN
      | none =>
        match s.plm.grants.find? (·.stream == f.stream) with
        | some g => if 3 ≤ s.level then s else s.repeatUplink g f
        | none => s)

/-- NODE_LEAVE (R377): a LEAVE of a node makes its entry DEPARTED. -/
def execNodeLeave (s : State) : Result :=
  .next (
    match s.takeNode fun f => f.type == 3 && s.plm.nodes.any (·.stream == f.stream) with
    | none => s
    | some (f, s) =>
      match s.nodeOn f.stream with
      | none => s
      | some n =>
        match s.epKey n.ep with
        | none => s
        | some k =>
          match checkUplink k n.eui (some n.up) f.data with
          | .good _ _ => s.departNode n
          | .replay => s.count PLM_REPLAYN
          | .bad => s.count PLM_BADMICN)

/-- NODE_SILENT (R377): four intervals without a good frame of the node on a stream. -/
def execNodeSilent (stream : Fin 64) (s : State) : Result :=
  .next (
    match s.nodeOn stream.val with
    | none => s
    | some n =>
      if n.silent.isSome ∨ s.stamp.cyc < n.heard + 4 * n.interval then s
      else
        ((s.setNode n.stream fun m => { m with silent := some s.stamp.cyc }).partner 4 n.stream).log 0x6012
          (s.epOwner n.ep) n.eui)

/-- NODE_DEPARTED (R377): a SILENT node after PLM_NHOLD further cycles. -/
def execNodeDeparted (stream : Fin 64) (s : State) : Result :=
  .next (
    match s.nodeOn stream.val with
    | none => s
    | some n =>
      match n.silent with
      | none => s
      | some c => if s.stamp.cyc < c + s.rd PLM_NHOLD then s else s.departNode n)

/-- A downlink of a node that the home has relayed to this repeater: sent in the node's next ack window (R383). -/
def State.relayDown (s : State) (r : RelayIn) : State :=
  match s.plm.grants.find? fun g => g.eui == r.eui && g.nid == r.nid with
  | some g => s.addDown g.stream r.data (r.data.head? == some 9#8) none
  | none => s

/-- NRELAY (R378): a relayed node frame is verified and delivered, or dropped. -/
def execNrelay (s : State) : Result :=
  .next (
    match s.plm.relays with
    | [] => s
    | r :: l =>
      let s := s.setPlm fun p => { p with relays := l }
      let type := leAt r.data 0 1 % 16
      if 8 ≤ type then s.relayDown r
      else
        match s.epOfNid r.nid with
        | none => s
        | some e =>
          match s.epKey e with
          | none => s
          | some k =>
            match checkUplink k r.eui (s.nodeLast r.eui r.nid) r.data with
            | .replay => s.count PLM_REPLAYN
            | .bad => s.count PLM_BADMICN
            | .good c d =>
              let t := match s.plm.nodes.find? fun n => n.eui == r.eui && n.nid == r.nid with
                | some n => if type = 3 then s.departNode n
                    else
                      let s := s.noteUplink n c none
                      if bit (leAt r.data 0 1) 7 then s.ackNode { n with up := c } c else s
                | none => (s.ctrAccept (256 + r.eui) r.nid c).getD s
              if type = 3 then t
              else t.deliverUplink e t.estimated r.orig (9 - r.hops) (stampNat t.stamp) r.eui c 0xFF d)

/-- STORED_UPLINK_DELIVER (R379): uplinks stored in D3 are delivered in order. -/
def execStoredUplinkDeliver (s : State) : Result :=
  .next (
    if 3 ≤ s.level then s
    else
      let l := s.plm.stored
      let s := s.setPlm fun p => { p with stored := [] }
      l.foldl (fun s u => s.deliverUplink u.ep u.held s.saddr 0 u.stamp u.eui u.ctr u.stream u.data) s)

/-! ## Repeaters (R381 to R383) -/

/-- An RGRSP (log entry 24): identifier, code, frames heard, smallest C_p*. -/
def rgrspBytes (id : Nat) (c : Status) (frames least : Nat) : List Byte :=
  0x21 :: leBytes 2 id ++ [BitVec.ofNat 8 (codeOf c), BitVec.ofNat 8 frames] ++ leBytes 2 least

/-- A probe is dropped with its slot. -/
def State.dropProbe (s : State) (p : Probe) : State :=
  (s.setPlm fun x => { x with probes := x.probes.filter (·.id != p.id) }).dropEntry p.entry p.stream

/-- RGREQ (R381): a peer is asked to listen for a node. -/
def execRgreq (s : State) : Result :=
  .next (
    match s.takeMgmt 0x20 with
    | none => s.dropUnknown
    | some (m, s) =>
      let id := leAt m.data 1 2
      let eui := leAt m.data 4 8
      let nid := leAt m.data 12 2
      let p := leAt m.data 14 1
      let d := signed 16 (leAt m.data 16 2)
      let ph := leAt m.data 18 2
      let s := match s.plm.probes.find? fun x => x.home == m.orig && x.eui == eui with
        | some x => s.dropProbe x
        | none => s
      let near (a : Nat) : Bool := match s.anchorPhase a with
        | some x => decide ((phaseDiff x ph).natAbs ≤ 256)
        | none => false
      match [1, 2, 3, 4, 5, 6, 9, 10, 11, 12, 13, 14].find? near with
      | none => s.sendMgmt m.orig (rgrspBytes id .cfgInvalid 0 0)
      | some a =>
        let cofs := (((m.stamp / 65536 : Nat) : Int) + d).toNat % max 1 p
        match s.freeStream, s.freeEntry with
        | some st, some en =>
          if p = 0 ∨ s.slotFree 64 a p cofs = false then s.sendMgmt m.orig (rgrspBytes id .refusedQuota 0 0)
          else
            let x : Probe := {
              id := id, home := m.orig, eui := eui, nid := nid, period := p, stream := st, entry := en,
              since := s.stamp.cyc }
            (s.setPlm fun y => { y with probes := y.probes ++ [x] }).askEntry en st (pulseEntry p cofs a)
              (s.stamp.cyc + s.rd PLM_ADMLEAD)
        | _, _ => s.sendMgmt m.orig (rgrspBytes id .refusedQuota 0 0))

/-- A frame has been heard on the slot of a probe; the last one asked for is answered (R381). -/
def State.probeFrame (s : State) (f : PulseIn) : State :=
  match s.plm.probes.find? (·.stream == f.stream) with
  | none => s
  | some x =>
    let y := { x with frames := x.frames + 1, least := min x.least f.least }
    let s := s.setPlm fun p => { p with probes := p.probes.map fun z => if z.id = x.id then y else z }
    if y.frames = s.rd PLM_RG_PROBE then s.sendMgmt y.home (rgrspBytes y.id .ok y.frames y.least) else s

/-- PROBE_TIMEOUT (R381): a probe that hears nothing answers TIMEOUT and its slot is dropped. -/
def execProbeTimeout (stream : Fin 64) (s : State) : Result :=
  .next (
    match s.plm.probes.find? (·.stream == stream.val) with
    | none => s
    | some x =>
      if x.frames ≠ 0 ∨ s.stamp.cyc < x.since + 4 * x.period * s.rd PLM_RG_PROBE then s
      else (s.dropProbe x).sendMgmt x.home (rgrspBytes x.id .timeout 0 0))

/-- The answers to the probes of a stream, best first: OK with a sufficient C_p*, the largest, then the lower
path cost (R382). -/
def State.bestAsked (s : State) (stream : Nat) : Option Asked :=
  let cost (a : Asked) : Nat := match s.routeTo a.peer with
    | some r => r.2.2.1
    | none => 65535
  let val (a : Asked) : Nat := match a.answer with
    | some (.ok, c) => c
    | _ => 0
  ((s.plm.asked.filter fun a => a.stream == stream && a.answer.isSome && decide (s.grantLevel ≤ val a)
      && a.answer.any (·.1 == .ok)).foldl (fun b a => match b with
    | none => some a
    | some b => if val b < val a ∨ (val b = val a ∧ cost a < cost b) then some a else some b) none)

/-- RGRSP (R382): an answer to a probe; when all are in, or the time of a probe has run, the best peer is granted
and the others are released. -/
def execRgrsp (s : State) : Result :=
  .next (
    match s.takeMgmt 0x21 with
    | none => s.dropUnknown
    | some (m, s) =>
      let id := leAt m.data 1 2
      match s.plm.asked.find? (·.id == id) with
      | none => s
      | some a =>
        let ans := (statusOf (leAt m.data 3 1), leAt m.data 5 2)
        let s := s.setPlm fun p => { p with
          asked := p.asked.map fun x => if x.id = id then { x with answer := some ans } else x }
        match s.nodeOn a.stream with
        | none => s
        | some n =>
          let mine := s.plm.asked.filter (·.stream == a.stream)
          let waits := mine.any (·.answer.isNone)
            && decide (s.stamp.cyc < a.cyc + 4 * n.period * s.rd PLM_RG_PROBE)
          if waits then s
          else
            let best := s.bestAsked a.stream
            let others := mine.filter fun x => best.all (·.id != x.id) && x.answer.any (·.1 == .ok)
            let s := others.foldl (fun s x => s.sendMgmt x.peer (0x23 :: leBytes 2 x.id)) s
            let s := s.setPlm fun p => { p with asked := p.asked.filter (·.stream != a.stream) }
            match best with
            | none => s
            | some b =>
              let s := s.setNode n.stream fun x => { x with grant := some (b.peer, b.role, b.id) }
              (s.sendMgmt b.peer (s.rgrantBytes b.id b.role n.ep)).tellGrant (s.epOwner n.ep) n.stream b.role
                b.peer)

/-- The tenant under which a change of a grant on a network is logged: that of its endpoint, else the device. -/
def State.grantTc (s : State) (nid : Nat) : Nat :=
  match s.epOfNid nid with
  | some e => s.epOwner e
  | none => deviceTc

/-- RGRANT (R382): a grant is installed in place of its probe, or its lease is renewed. -/
def execRgrant (s : State) : Result :=
  .next (
    match s.takeMgmt 0x22 with
    | none => s.dropUnknown
    | some (m, s) =>
      let id := leAt m.data 1 2
      let role := leAt m.data 3 1
      let lease := leAt m.data 4 2
      let sinks := leAt m.data 6 4
      match s.plm.grants.find? fun g => g.id == id && g.home == m.orig with
      | some _ =>
        s.setPlm fun p => { p with grants := p.grants.map fun g =>
          if g.id = id ∧ g.home = m.orig then
            { g with role := role, lease := lease, sinks := sinks, heard := s.stamp.cyc }
          else g }
      | none =>
        match s.plm.probes.find? fun x => x.id == id && x.home == m.orig with
        | none => s
        | some x =>
          let g : RepGrant := {
            id := id, home := m.orig, role := role, eui := x.eui, nid := x.nid, stream := x.stream,
            entry := x.entry, lease := lease, sinks := sinks, heard := s.stamp.cyc }
          (s.setPlm fun p => { p with
            probes := p.probes.filter (·.id != x.id), grants := p.grants ++ [g] }).tellGrant (s.grantTc x.nid)
            x.stream role s.saddr)

/-- A repeater drops a grant (R382, R383). -/
def State.dropGrant (s : State) (g : RepGrant) : State :=
  ((s.setPlm fun p => { p with grants := p.grants.filter (·.stream != g.stream) }).dropEntry g.entry
    g.stream).tellGrant (s.grantTc g.nid) g.stream 0 s.saddr

/-- RGREV (R382): a grant, or a probe that has been answered, is withdrawn. -/
def execRgrev (s : State) : Result :=
  .next (
    match s.takeMgmt 0x23 with
    | none => s.dropUnknown
    | some (m, s) =>
      let id := leAt m.data 1 2
      match s.plm.grants.find? fun g => g.id == id && g.home == m.orig with
      | some g => s.dropGrant g
      | none =>
        match s.plm.probes.find? fun x => x.id == id && x.home == m.orig with
        | some x => s.dropProbe x
        | none => s)

/-- GRANT_RENEW (R382): the home renews the grant of the node on a stream. -/
def execGrantRenew (stream : Fin 64) (s : State) : Result :=
  .next (
    match s.nodeOn stream.val with
    | none => s
    | some n =>
      match n.grant with
      | some (peer, role, id) => s.sendMgmt peer (s.rgrantBytes id role n.ep)
      | none => s)

/-- The grant on a stream. -/
def State.grantOn (s : State) (stream : Nat) : Option RepGrant :=
  s.plm.grants.find? (·.stream == stream)

/-- GRANT_EXPIRE (R382): the lease has run out; it counts down only while the home is heard. -/
def execGrantExpire (stream : Fin 64) (s : State) : Result :=
  .next (
    match s.grantOn stream.val with
    | none => s
    | some g =>
      if g.lease ≤ min (s.stamp.cyc - g.heard) (s.rd PLM_RG_DEAD) then s.dropGrant g else s)

/-- STANDBY_TAKEOVER (R383): nothing has been heard from the home for PLM_RG_DEAD cycles. -/
def execStandbyTakeover (stream : Fin 64) (s : State) : Result :=
  .next (
    match s.grantOn stream.val with
    | none => s
    | some g =>
      if g.role ≠ 1 ∨ g.taken.isSome ∨ s.stamp.cyc < g.heard + s.rd PLM_RG_DEAD then s
      else
        (s.setPlm fun p => { p with grants := p.grants.map fun x =>
          if x.stream = g.stream then { x with taken := some s.stamp.cyc } else x }).tellGrant (s.grantTc g.nid)
          g.stream 2 s.saddr)

/-- TAKEOVER_LIMIT (R383): the grant is dropped after PLM_RG_MAXACT cycles of silence of the home. -/
def execTakeoverLimit (stream : Fin 64) (s : State) : Result :=
  .next (
    match s.grantOn stream.val with
    | none => s
    | some g =>
      if g.taken.isSome ∧ g.heard + s.rd PLM_RG_MAXACT ≤ s.stamp.cyc then s.dropGrant g else s)

/-! ## Slots and downlinks -/

/-- Downlinks that the PLP has completed end (R348, R366). -/
def State.downsDone (s : State) (l : List DownDone) : State :=
  l.foldl (fun s d => s.endNodeDown d.ref d.code 0) s

/-- A node frame that the PLP delivers is kept where a stream of this device expects it (R376 to R381). -/
def State.nodeFrame (s : State) (f : PulseIn) : State :=
  if f.down then s
  else
    let s := s.probeFrame f
    let join := s.plm.joins.any (·.stream == f.stream) && f.type == 1
    let node := (s.plm.nodes.any (·.stream == f.stream) || s.plm.grants.any (·.stream == f.stream))
      && (f.type == 2 || f.type == 3 || f.type == 4)
    if join || node then s.setPlm fun p => { p with nodeIn := p.nodeIn ++ [f] } else s

/-- Frames of nodes that broke or failed in this slot are noted (R382). -/
def State.noteLost (s : State) (l : List Nat) : State :=
  l.foldl (fun s k => (s.setNode k fun m => { m with
    recent := (m.recent ++ [none]).drop ((m.recent.length + 1) - 8) }).seekGrant k) s

/-- PULSE_SLOT_DECIDE (R345 to R348): the symbol of a slot, given by its correlations C_0 to C_3. -/
def execPulseSlotDecide (entry : Fin 256) (c0 c1 c2 c3 : BitVec 16) (s : State) : Result :=
  .next (
    let busy := (s.slotStreams entry.val).filter fun k => (s.plpStream k).frame.isSome
    let r := s.decideSlot entry.val ([c0, c1, c2, c3].map (·.toNat))
    let t := r.2.2
    let lost := busy.filter fun k => (t.plpStream k).frame.isNone && !r.1.any (·.stream == k)
    (r.1.foldl State.nodeFrame (t.downsDone r.2.1)).noteLost lost)

/-- The repeater through which the downlinks of a node go (R383). -/
def State.downRepeater (s : State) (stream : Nat) : Option (Nat × NodeEntry) :=
  match s.nodeOn stream with
  | none => none
  | some n =>
    match n.grant with
    | some (peer, 2, _) => if s.toneOff then none else some (peer, n)
    | _ => none

/-- DOWNLINK_REQUEST (R348): the oldest downlink of a stream is handed to the PLP, or to the repeater of its node. -/
def execDownlinkRequest (stream : Fin 64) (s : State) : Result :=
  .next (
    let k := stream.val
    match s.plm.downs.find? fun d => d.stream == k && !d.given with
    | none => s
    | some d =>
      let mark (x : NodeDown) : NodeDown := if x.ref = d.ref then { x with given := true } else x
      let give (s : State) : State := s.setPlm fun p => { p with downs := p.downs.map mark }
      if 3 ≤ s.level ∨ s.on PLP_DLEN = false then
        (s.raise 0x0B4 1).endNodeDown d.ref .skipped 0
      else
        match s.downRepeater k with
        | some (peer, n) => (give s).sendRelay peer n.nid 2 n.eui d.data (some d.ref)
        | none =>
          if (s.plpStream k).queued.isSome then s
          else (give s).setStream k fun x => { x with queued := some ⟨d.data, s.stamp.cyc, d.ref⟩ })

/-- DOWNLINK_TIMEOUT (R348): no ack window of the stream has begun within PLP_DLWAIT cycles. -/
def execDownlinkTimeout (stream : Fin 64) (s : State) : Result :=
  .next (
    let x := s.plpStream stream.val
    match x.queued with
    | none => s
    | some d =>
      if x.send.isSome ∨ s.stamp.cyc < d.cyc + s.rd PLP_DLWAIT then s
      else
        let r := s.endDownlink stream.val .timeout
        r.2.downsDone r.1.toList)

/-! ## Degrade, revocation and reset -/

/-- Entry into D3: queued tone frames end with SKIPPED, downlinks that are being sent with PARTIAL (R348,
R384). -/
def State.plmEnterD3 (s : State) : State :=
  let s := s.cutTone
  let s := s.plm.queue.foldl (fun s f => s.endFrame f .skipped) s
  let r := s.plpEnterD3
  r.2.downsDone r.1

/-- The key of an endpoint is erased; frames not yet encrypted end with KEY_RETIRED (R352). -/
def State.plmErase (s : State) (e : Nat) : State :=
  let s := s.setPlm fun p => { p with keys := p.keys.filter (·.1 != e) }
  let s := (List.range 4).foldl (fun s k => s.wr (PLM_EP_KEY (e / 64) (e % 64) k) 0) s
  (s.plm.queue.filter fun f => f.kind == 2 && f.ep == e).foldl (fun s f =>
    if s.plm.attempt.any (·.frame == f.id) then s else s.endFrame f .keyRetired) s

/-- What a revocation leaves of endpoint `e` beside its key: its nodes are dropped. -/
def State.plmUnbind (s : State) (e : Nat) : State :=
  (s.plm.nodes.filter (·.ep == e)).foldl State.departNode s

/-- The rings of the endpoints stop at a system reset; held records are discarded (R540). -/
def State.plmStopRings (s : State) : State :=
  s.setPlm fun p => { p with stopped := List.range 128, held := [] }

/-! ## Registers (R385) -/

/-- The words of PLM_TINFO (Table 14-10). -/
def State.tableInfo (s : State) : Nat × Nat × Nat :=
  let i := s.rd PLM_T_IDX
  match s.rd PLM_T_TAB with
  | 0 =>
    match s.nb i with
    | some n => (n.saddr + (if n.bidir then 2 else 1) * 2 ^ 8 + s.linkCost i * 2 ^ 16, n.eui, n.ratio)
    | none => (0, 0, 0)
  | 1 =>
    match s.routeTo i with
    | some r => (putBits (i + r.2.2.2 * 2 ^ 8) 16 16 (r.2.2.1 / 16 * 16 + r.2.1 % 16), 0, 0)
    | none => (0, 0, 0)
  | _ =>
    match s.nodeOn i with
    | some n =>
      let g := match n.grant with
        | some x => x.1 + x.2.1 * 2 ^ 8
        | none => 0
      (n.stream + (if n.silent.isSome then 2 else 1) * 2 ^ 8 + n.ep % 64 * 2 ^ 10 + n.ep / 64 * 2 ^ 16
        + n.period * 2 ^ 24, n.eui, g)
    | none => (0, 0, 0)

/-- Reads of pages 0x0B8 to 0x0BB (R385): PLM_TINFO0 latches the entry selected. -/
def plmRead : Reader := fun s q =>
  if q.page = 0x0B9 ∧ q.off = 0x044 then
    let x := s.tableInfo
    let s := (s.wr PLM_T_W0 x.1).wr PLM_T_W3 x.2.2
    plainRead ((s.wr (PLM_T_EUI 0) (x.2.1 % 2 ^ 32)).wr (PLM_T_EUI 1) (x.2.1 / 2 ^ 32)) q
  else plainRead s q

/-- The check of a write of page 0x0B8. -/
def plmCheck (off d : Nat) : Status :=
  match off with
  | 0x040 => if bits d 8 8 = 0xFF then .cfgInvalid else .ok
  | 0x044 => if bits d 0 16 = 0 ∨ bits d 16 16 = 0 then .cfgInvalid else .ok
  | 0x048 => if bits d 0 4 = 0 ∨ bits d 16 8 = 0 then .cfgInvalid else .ok
  | 0x04C => if bits d 0 16 = 0 then .zeroLen else .ok
  | 0x050 => if bits d 0 8 = 0 ∨ bits d 8 8 < 8 ∨ bits d 16 16 = 0 then .cfgInvalid else .ok
  | 0x054 => if bits d 0 16 < 16 ∨ bits d 16 8 < 16 ∨ bits d 24 4 = 0 then .cfgInvalid else .ok
  | 0x05C => if 192 < bits d 0 8 then .cfgInvalid else .ok
  | _ => .ok

/-- What a write of page 0x0B8 does once stored. -/
def State.plmWritten (s : State) (off d : Nat) : State :=
  match off with
  | 0x040 =>
    let s := s.wr PLM_CONFLICT 0
    if bit d 16 then s.sendBye 0 else s
  | 0x04C => s.openJoin (bits d 0 16)
  | 0x06C =>
    let key := (List.range 4).foldl (fun a k => a + s.rd (PLM_SITEKEY k) * 2 ^ (32 * k)) 0
    s.setPlm fun p => { p with siteKey := BitVec.ofNat 128 key }
  | 0x094 => s.srqFlush 16
  | _ => s

/-- The check of a write of an endpoint block: offset in the block (R351, R385, Table 14-11). -/
def State.epCheck (s : State) (e off d : Nat) : Status :=
  let p := e / 64
  let k := e % 64
  let old := s.reg (0x0BA + p) (0x100 + 48 * k + off)
  let on := s.epOn e
  match off with
  | 0x04 =>
    let lo := 0x100 + 48 * k
    let moved := s.heldWord (0x0BA + p) lo / 64 ≠ s.reg (0x0BA + p) lo / 64 ∨ bits d 0 8 ≠ bits old 0 8
    if on ∧ moved then .cfgInvalid else .ok
  | 0x08 =>
    let nid := s.rd (PLM_EP_NID p k)
    let shared := (List.range 128).any fun x => x != e && s.epOn x && s.rd (PLM_EP_NID (x / 64) (x % 64)) == nid
    if 8 < bits d 0 4 ∨ 8 < bits d 4 4 ∨ 8 < bits d 8 4 then .cfgInvalid
    else if on ∧ bits d 0 12 ≠ bits old 0 12 then .cfgInvalid
    else if bits d 12 2 = 3 ∧ s.epOwner e ≠ 0 then .cfgInvalid
    else if bit d 31 = true ∧ (nid = 0 ∨ shared = true ∨ s.epOwner e = 1) then .cfgInvalid
    else .ok
  | 0x0C => if on ∧ bits d 0 16 ≠ bits old 0 16 then .cfgInvalid else .ok
  | _ => .ok

/-- The key of an endpoint is committed (R352). -/
def State.commitKey (s : State) (e : Nat) : State :=
  let p := e / 64
  let k := e % 64
  let key := (List.range 4).foldl (fun a i => a + s.rd (PLM_EP_KEY p k i) * 2 ^ (32 * i)) 0
  (s.setPlm fun x => { x with keys := cellInsert e (BitVec.ofNat 128 key) x.keys }).wr (PLM_EP_KGEN p k)
    ((s.rd (PLM_EP_KGEN p k) + 1) % 256)

/-- A word of pages 0x0B8 to 0x0BB is stored; a word of a key, which reads as zero, is kept for the commit that
takes it (R352, R362). -/
def State.storePlm (s : State) (key : Bool) (q : Req) (d : Nat) : State :=
  if key then s.setReg q.page q.off d else s.storeWord q.page q.off d

/-- Writes of pages 0x0B8 to 0x0BB (R385). -/
def plmWrite : Writer := fun s q d =>
  if q.page = 0x0B8 then
    let c := plmCheck q.off d
    let key := 0x060 ≤ q.off && q.off ≤ 0x06C
    (c, if c = .ok then (s.storePlm key q d).plmWritten q.off d else s)
  else if q.page = 0x0B9 then
    if q.off = 0x040 ∧ bits d 8 2 = 3 then (.cfgInvalid, s) else (.ok, s.storeWord q.page q.off d)
  else
    let k := (q.off - 0x100) / 48
    let off := (q.off - 0x100) % 48
    let e := 64 * (q.page - 0x0BA) + k
    if q.off < 0x100 ∨ 64 ≤ k then (.ok, s)
    else
      let c := s.epCheck e off d
      let s := if c = .ok then
          let s := s.storePlm (0x14 ≤ off && off ≤ 0x20) q d
          if off = 0x24 ∧ bit d 0 = true then s.commitKey e
          else if off = 0x08 ∧ bit d 31 = true then
            s.setPlm fun p => { p with stopped := p.stopped.filter (· != e) }
          else s
        else s
      (c, s.wr (PLM_EP_CCODE (q.page - 0x0BA) k) (codeOf c))

/-- PLM_LEAVE (R371): a write of 1 to PLM_LEAVE. -/
def execPlmLeave (w : RegWrite) (s : State) : Result :=
  .next (s.writeReg plmWrite 0x0B8 0x040 w fun d => setBit d 16)

/-- PLM_JOIN (R375): a write to PLM_JOIN. -/
def execPlmJoin (w : RegWrite) (s : State) : Result :=
  .next (s.writeReg plmWrite 0x0B8 0x04C w id)

/-- PLM_SITEKEY_COMMIT (R362): a write of PLM_SITEKEY3. -/
def execPlmSitekeyCommit (w : RegWrite) (s : State) : Result :=
  .next (s.writeReg plmWrite 0x0B8 0x06C w id)

/-- PLM_EP_KCOMMIT (R352): a write of 1 to PLM_EP_KCOMMIT. -/
def execPlmEpKcommit (endpoint : Fin 128) (w : RegWrite) (s : State) : Result :=
  .next (s.writeReg plmWrite (0x0BA + endpoint.val / 64) (0x124 + 48 * (endpoint.val % 64)) w
    fun d => setBit d 0)

end Sys2Proof.Machine
end

