-- ==== Sys2Proof/Machine/Pqe.lean ====
section
/-! DEFINITION. Power quality (chapter 8): harmonics, voltage, frequency and sequence events, sense-path
verdicts, the event ring; the result of a continuity test and the loss of a channel, which act on
them. -/

namespace Sys2Proof.Machine

open Reg

/-! ## State -/

/-- The state with what the PQE holds changed. -/
def State.setPqe (s : State) (f : PqeState → PqeState) : State := { s with pqe := f s.pqe }

/-- The PQE works: enabled, its domain running (R216, Table 8-5). -/
def State.pqeRuns (s : State) : Bool := s.cfg PQE_EN == 1 && s.pageRuns 0x070

/-- The status of PQE results: HOLDOVER while the stamp is an estimate or absent (R215). -/
def State.pqeStatus (s : State) : Status :=
  if s.estimated ∨ s.ctfSt = ctfFree then .holdover else .ok

/-- Bus 1 or 2 of a phase channel code. -/
def busOf (code : Nat) : Nat := if code ≤ 3 then 1 else 2

/-- The mode of a bus in a configuration. -/
def busMode (force : List (Nat × Word)) (bus : Nat) : Nat :=
  fldIn force (if bus = 1 then MTE_BUS1_MODE else MTE_BUS2_MODE)

/-- The phase channel codes of a bus in a configuration (Table 6-1). -/
def busPhases (force : List (Nat × Word)) (bus : Nat) : List Nat :=
  (modePhases (busMode force bus)).map fun v => v + 3 * (bus - 1)

/-- Udin of a bus in force. -/
def State.udin (s : State) (bus : Nat) : Nat := s.cfg (if bus = 1 then PQE_UDIN1 else PQE_UDIN2)

/-- A mean square given as a sum and a number of positions lies below `th` × 0.5 % of `udin`. -/
def rmsBelow (x : Nat × Nat) (th udin : Nat) : Bool := decide (x.1 * 40000 < x.2 * (th * udin) ^ 2)

/-- It lies above. -/
def rmsAbove (x : Nat × Nat) (th udin : Nat) : Bool := decide (x.2 * (th * udin) ^ 2 < x.1 * 40000)

/-- The rms code of a mean square. -/
def rmsMean (x : Nat × Nat) : Nat := if x.2 = 0 then 0 else isqrtRound (x.1 / x.2)

/-! ## Records -/

/-- A record joins the event ring, or is counted where the ring is full (R213). -/
def State.pqeRecord (s : State) (kind : Nat) (close : Bool) (c : Status) (dur ch val1 val2 by' : Nat) :
    State :=
  let w := s.rd PQE_RING_WR
  if (w + 1) % 64 = s.rd PQE_RING_RD then (s.count PQE_RING_OVF).raise 0x070 3
  else
    let b := leBytes 8 (stampNat s.stamp) ++ leBytes 4 (satNat 32 dur)
      ++ leBytes 4 (kind + b2n close * 2 ^ 8 + codeOf c * 2 ^ 16 + s.pqe.seq * 2 ^ 24)
      ++ leBytes 1 ch ++ leBytes 4 val1 ++ leBytes 1 val2 ++ leBytes 1 by' ++ leBytes 1 0
      ++ leBytes 4 (s.rd CTF_UTC)
    let s := s.wr (PQE_RING w) (leNat (b ++ leBytes 4 (crc32 b)))
    ((s.wr PQE_RING_WR ((w + 1) % 64)).setPqe fun p => { p with seq := (p.seq + 1) % 256 }).raise 0x070 1

/-- The entry of a record in the log (R214, Table 16-6). -/
def State.pqeLog (s : State) (kind : Nat) (close : Bool) (ch val1 val2 : Nat) : State :=
  let v := val1 % 2 ^ 32 * 2 ^ 32
  if kind = 0x10 then s.log 0x3031 1 (ch + val2 * 2 ^ 8 + b2n close * 2 ^ 16 + v)
  else if kind = 0x11 then s.log 0x3032 1 (ch + val2 * 2 ^ 8 + b2n close * 2 ^ 16 + v)
  else if bit (s.cfg PQE_LOGM) (kind - 1) then
    s.log (0x2010 + kind) deviceTc (ch + b2n close * 2 ^ 8 + v)
  else s

/-- PQE_E_VAL1 of an event: an rms code of a phase becomes millivolts (Table 8-3). -/
def State.eventVal (s : State) (kind ext val2 ch : Nat) : Nat :=
  let volts (c : Nat) := milliRms ext (s.cfg (MTE_VFS (c - 64)))
  if kind ≤ 3 then volts val2 else if kind = 0x10 then volts ch else ext

/-- An event opens: its record, its entry, its place among the open ones (R213). -/
def State.openEvent (s : State) (kind ch ext val2 : Nat) : State :=
  let v := s.eventVal kind ext val2 ch
  let s := (s.pqeRecord kind false s.pqeStatus 0 ch v val2 0).pqeLog kind false ch v val2
  s.setPqe fun p => { p with opens := p.opens ++ [⟨kind, ch, s.ticks, ext, val2, false⟩] }

/-- The open event of a kind and channel. -/
def State.eventOf (s : State) (kind ch : Nat) : Option PqEvent :=
  s.pqe.opens.find? fun e => e.kind == kind && e.ch == ch

/-- An open event closes with a status: its record and entry (R213). -/
def State.closeAs (s : State) (e : PqEvent) (c : Status) : State :=
  let v := s.eventVal e.kind e.ext e.val2 e.ch
  let dur := (s.ticks - e.tick) / 32768
  let by' := if e.kind ≤ 3 ∧ e.excl = true then 2 else 0
  let s := (s.pqeRecord e.kind true c dur e.ch v e.val2 by').pqeLog e.kind true e.ch v e.val2
  s.setPqe fun p => { p with opens := p.opens.filter (· != e) }

/-- An open event closes. -/
def State.closeEvent (s : State) (kind ch : Nat) : State :=
  match s.eventOf kind ch with
  | some e => s.closeAs e s.pqeStatus
  | none => s

/-- An open event changes. -/
def State.setEvent (s : State) (kind ch : Nat) (f : PqEvent → PqEvent) : State :=
  s.setPqe fun p => { p with opens := p.opens.map fun e => if e.kind = kind ∧ e.ch = ch then f e else e }

/-! ## Verdicts -/

/-- Verdict codes of PQE_VSV. -/
def vsNormal : Nat := 0
def vsLow : Nat := 1
def vsOpenTap : Nat := 2
def vsPhaseLoss : Nat := 3
def vsInterruption : Nat := 4
def vsNeutral : Nat := 5
def vsWaveform : Nat := 6

/-- The voltage verdict of phase channel code `c`. -/
def State.verdict (s : State) (c : Nat) : Nat := bits (s.rd PQE_VSV) (4 * (c - 1)) 4

/-- The voltage verdict of a phase channel changes (Tables 8-5, 8-6); the open event carries it. -/
def State.setVerdict (s : State) (c v : Nat) : State :=
  if s.verdict c = v then s
  else
    let s := (s.wr PQE_VSV (putBits (s.rd PQE_VSV) (4 * (c - 1)) 4 v)).raise 0x070 2
    if v = vsNormal then s else s.setEvent 0x10 (chanOfCode c) fun e => { e with val2 := v }

/-! ## Samples -/

/-- A word delivered to the PQE: usable unless its carry code fails or it carries NOS, OVR or TEST
(R200). -/
def State.pqeSample (s : State) (d : Delivery) (good : Bool) (w : BitVec 40) : State :=
  let n := w.toNat
  let x : Samp := ⟨d.phase / 32, signed 24 n, good && bits n 24 3 == 0, false, false⟩
  s.setPqe fun p => { p with cur := cellPut [] d.chan (putSamp x (cellAt [] d.chan p.cur)) p.cur }

/-- The positions of two streams in the order of their instants. -/
def interleavePos : List (Int × Bool) → List (Int × Bool) → List (Int × Bool)
  | a :: l, b :: m => a :: b :: interleavePos l m
  | l, [] => l
  | [], m => m

/-- The first `n` positions of the present cycle of channel `ch`, and of its partner, merged. -/
def State.pqePositions (s : State) (pairs : List Nat) (n ch : Nat) : List (Int × Bool) :=
  let l := (cellAt [] ch s.pqe.cur).reverse
  let a := fillStream n 0 [] (l.filter fun x => x.idx % 2 = 0)
  if (pairedBy pairs ch).isSome then
    interleavePos a (fillStream n 1 [] (l.filter fun x => x.idx % 2 = 1))
  else a

/-- The positions of channel `ch` over the cycle that ends at the due window (R205). -/
def State.windowOf (s : State) (mid : Bool) (ch : Nat) : List (Int × Bool) :=
  let last := cellAt [] ch s.pqe.last
  if mid then last.drop (last.length / 2) ++ s.pqePositions s.pairing 512 ch else last

/-- A list of positions without an unusable one, as values. -/
def usableValues (l : List (Int × Bool)) : Option (List Int) :=
  if l ≠ [] ∧ l.all (·.2) = true then some (l.map (·.1)) else none

/-- The sum of squares and the number of values. -/
def squares (l : List Int) : Nat × Nat := ((dot l l).toNat, l.length)

/-- The transform of order `h` of a stream (R201), in code × 2^17. -/
def harmonic (h : Nat) (x : List Int) : Int × Int := fourier (h * (2048 / max 1 x.length)) 0 x

/-- a·conj(b). -/
def conjMul (a b : Int × Int) : Int × Int := (a.1 * b.1 + a.2 * b.2, a.2 * b.1 - a.1 * b.2)

/-- The angle of a phasor in 1/65,536 of a turn. -/
def argOf (x : Int × Int) : Int := angleIn 65536 x.2 x.1

/-- An angle brought to the half turn around zero. -/
def wrapAngle (a : Int) : Int := (a + 32768) % 65536 - 32768

/-- The mean of angles, taken as differences from the first. -/
def meanAngle : List Int → Int
  | [] => 0
  | a :: l => wrapAngle (a + divRound (l.foldl (fun t b => t + wrapAngle (b - a)) 0) (l.length + 1))

/-! ## Harmonics -/

/-- The highest order of a channel at a level, for its rate (R202). -/
def highOrder (dbl : Bool) (hmax level : Nat) : Nat :=
  let h := min (if dbl then 100 else 50) hmax
  if level = 2 then min h 15 else h

/-- The bound voltage channel of a current channel, by MTE_VPOS. -/
def boundTo (force : List (Nat × Word)) (ch : Nat) : Option Nat :=
  let v := fldIn force (MTE_VPOS (icPage ch) (ch % 8))
  if v = 0 then none else some (chanOfCode v)

/-- The angle of order `h` of a channel in one cycle (R202). -/
def orderAngle (volt : Option (List Int)) (ch h : Nat) (x : Int × Int) (x1 : Int × Int) : Int :=
  if ch < 64 then
    match volt with
    | some v => if v = [] then 0 else argOf (conjMul (harmonic h v) x)
    | none => 0
  else wrapAngle (argOf x - (h : Int) * argOf x1)

/-- A usable cycle joins the sums of a channel (R201). -/
def HarmSum.add (a : HarmSum) (volt : Option (List Int)) (ch hmax : Nat) (x : List Int) : HarmSum :=
  let orders := (List.range hmax).map fun k => harmonic (k + 1) x
  let scale := if x.length = 2048 then 1 else 4
  let z := orders.map fun c => (c.1.natAbs ^ 2 + c.2.natAbs ^ 2) * scale
  let x1 := orders.headD (0, 0)
  let ang := (List.range hmax).map fun k => orderAngle volt ch (k + 1) (orders.getD k (0, 0)) x1
  if a.used = 0 then { used := 1, z := z, first := ang, diff := ang.map fun _ => 0 }
  else
    { a with
      used := a.used + 1,
      z := (List.range hmax).map fun k => a.z.getD k 0 + z.getD k 0,
      diff := (List.range hmax).map fun k =>
        a.diff.getD k 0 + wrapAngle (ang.getD k 0 - a.first.getD k 0) }

/-- The channels whose streams the closed cycle holds. -/
def State.pqeStreams (s : State) : List (Nat × List Int) :=
  s.pqe.last.filterMap fun e => (usableValues e.2).map fun v => (e.1, v)

/-- The voltage stream against which the angles of a current channel stand: empty where none is
usable. -/
def voltStream (force : List (Nat × Word)) (xs : List (Nat × List Int)) (ch : Nat) :
    Option (List Int) :=
  (boundTo force ch).map fun v => cellAt [] v xs

/-- The closed cycle joins the block (R201, R202). -/
def State.blockCycle (s : State) (force : List (Nat × Word)) (closeSt : Nat) : State :=
  let xs := if closingState closeSt then s.pqeStreams else []
  let hmax := fldIn force PQE_HMAX
  let b := s.pqe.block
  let chans := xs.foldl (fun l e =>
    let a := cellAt {} e.1 l
    let h := highOrder (e.2.length == 2048) hmax s.level
    cellPut {} e.1 (a.add (voltStream force xs e.1) e.1 h e.2) l) b.chans
  s.setPqe fun p => { p with block := { b with
    n := b.n + 1, hold := b.hold || closeSt == ctfFlywheel, cut := b.cut || s.level == 2,
    chans := chans } }

/-! ## Sequence and unbalance -/

/-- √3/2 in 1/2^40. -/
def halfRoot3 : Int := 952205001410

/-- Three times the positive- or negative-sequence phasor in 1/2^41: with a = e^(j120°) and its square
exchanged for the negative one (R208). -/
def sequence (neg : Bool) (a b c : Int × Int) : Int × Int :=
  let r := if neg then -(2 * halfRoot3) else 2 * halfRoot3
  let m := (2 ^ 40 : Int)
  (2 * m * a.1 - m * (b.1 + c.1) - r * (b.2 - c.2), 2 * m * a.2 - m * (b.2 + c.2) + r * (b.1 - c.1))

/-- The squared magnitude of a phasor. -/
def normSq (x : Int × Int) : Nat := x.1.natAbs ^ 2 + x.2.natAbs ^ 2

/-- A consecutive count. -/
def State.runOf (s : State) (k : Nat) : Nat := cellAt 0 k s.pqe.runs

/-- A consecutive count goes on or starts again. -/
def State.tally (s : State) (k : Nat) (b : Bool) : State :=
  s.setPqe fun p => { p with runs := cellPut 0 k (if b then cellAt 0 k p.runs + 1 else 0) p.runs }

/-- PQE_SEQ of a bus. -/
def seqFld (bus : Nat) : Fld := if bus = 1 then PQE_SEQ1 else PQE_SEQ2

/-- Sequence and unbalance of a bus over the closed cycle (R208). -/
def State.seqCycle (s : State) (force : List (Nat × Word)) (closeSt bus : Nat) : State :=
  let mode := busMode force bus
  let xs := (busPhases force bus).map fun c => usableValues (cellAt [] (chanOfCode c) s.pqe.last)
  let th := fldIn force PQE_LOSS_TH
  let ud := fldIn force (if bus = 1 then PQE_UDIN1 else PQE_UDIN2)
  match xs with
  | [some a, some b, some c] =>
    if (mode = 3 ∨ mode = 4) ∧ closingState closeSt = true ∧
        [a, b, c].all (fun x => rmsAbove (squares x) th ud) = true then
      let f (x : List Int) := fundamental x
      let p := normSq (sequence false (f a) (f b) (f c))
      let n := normSq (sequence true (f a) (f b) (f c))
      let pos := decide (n < p)
      let s := (s.wr (seqFld bus) (if pos then 1 else 2)).tally (16 * bus + 6) pos
      let s := s.tally (16 * bus + 7) (!pos)
      let u := cellAt (0, 0) bus s.pqe.block.unb
      let s := s.setPqe fun q => { q with block := { q.block with
        unb := cellPut (0, 0) bus (u.1 + 1, u.2 + n * 2 ^ 40 / max 1 p) q.block.unb } }
      let ev := s.eventOf 7 (0x80 + bus)
      if ev.isNone ∧ 16 ≤ s.runOf (16 * bus + 7) then s.openEvent 7 (0x80 + bus) 0 0
      else if ev.isSome ∧ 16 ≤ s.runOf (16 * bus + 6) then s.closeEvent 7 (0x80 + bus)
      else s
    else s.wr (seqFld bus) 0
  | _ => s.wr (seqFld bus) 0

/-! ## The healthy bus -/

/-- The bus is healthy: every phase at or above the loss threshold, no verdict on it (R210; log entry
14). -/
def State.busHealthy (s : State) (force : List (Nat × Word)) (bus : Nat) : Bool :=
  let ps := busPhases force bus
  ps != [] && ps.all fun c =>
    s.verdict c == vsNormal && match usableValues (cellAt [] (chanOfCode c) s.pqe.last) with
      | some v => !rmsBelow (squares v) (s.cfg PQE_LOSS_TH) (s.udin bus)
      | none => false

/-- An angle joins the last sixteen held under a key. -/
def State.hold16 (s : State) (key : Nat) (a : Int) : State :=
  s.setPqe fun p => { p with held := cellPut [] key ((a :: cellAt [] key p.held).take 16) p.held }

/-- The displacement of the phases from the first and φ of the current channels, of a healthy bus
over the closed cycle (R210). -/
def State.holdAngles (s : State) (force : List (Nat × Word)) (bus : Nat) : State :=
  if s.busHealthy force bus then
    let xs := s.pqeStreams
    let f (ch : Nat) := fundamental (cellAt [] ch xs)
    let ps := busPhases force bus
    let v1 := f (chanOfCode (ps.headD 1))
    let s := ps.foldl (fun s c => s.hold16 c (argOf (conjMul v1 (f (chanOfCode c))))) s
    (List.range 64).foldl (fun s ch =>
      if cellAt [] ch xs != [] && ps.any fun c => boundTo force ch == some (chanOfCode c) then
        s.hold16 (16 + ch) (argOf (conjMul (f ((boundTo force ch).getD 64)) (f ch)))
      else s) s
  else s

/-- The PQE at a cycle boundary; `old` and `pairs` are the configuration and the pairing of the closed
cycle, `cyc` its number, `closeSt` the CTF state in which it closed. -/
def State.pqeBoundary (s : State) (old : List (Nat × Word)) (pairs : List Nat) (cyc closeSt : Nat) :
    State :=
  let streams := s.pqe.cur.map fun e => (e.1, s.pqePositions pairs 1024 e.1)
  let s := s.setPqe fun p => { p with cur := [], last := streams }
  if fldIn old PQE_EN = 1 ∧ s.pageRuns 0x070 = true then
    let s := [1, 2].foldl (fun s b => (s.seqCycle old closeSt b).holdAngles old b) s
    let s := s.blockCycle old closeSt
    let b := s.pqe.block
    if fldIn old PQE_AGG ≤ b.n then
      let b := { b with cyc := cyc, agg := fldIn old PQE_AGG, force := old,
                        free := !closingState closeSt }
      s.setPqe fun p => { p with block := {}, ended := some b, due := 1 }
    else s.setPqe fun p => { p with due := 1 }
  else s.setPqe fun p => { p with due := 0, block := {} }

/-! ## Voltage events -/

/-- The windows of the phases of a bus that are not excluded; none where one is unusable (R200,
R206). -/
def State.busWindows (s : State) (bus : Nat) : Option (List (Nat × (Nat × Nat))) :=
  let ps := (busPhases s.inForce bus).filter fun c => s.verdict c != vsOpenTap
  if ps ≠ [] ∧ ps.all (fun c => cellAt (0, 0) c s.pqe.win != (0, 0)) = true then
    some (ps.map fun c => (c, cellAt (0, 0) c s.pqe.win))
  else none

/-- The extreme window of a bus: lowest or highest rms, with its phase. -/
def extremeOf (high : Bool) : List (Nat × (Nat × Nat)) → Nat × Nat
  | [] => (0, 0)
  | [(c, x)] => (rmsMean x, chanOfCode c)
  | (c, x) :: l =>
    let e := extremeOf high l
    let r := rmsMean x
    if (if high then e.1 ≤ r else r ≤ e.1) then (r, chanOfCode c) else e

/-- One event of a bus at a window: it opens, follows its extreme, or closes (Table 8-1). -/
def State.busEvent (s : State) (kind bus : Nat) (x : Nat × Nat) (opens closes : Bool) : State :=
  let ch := 0x80 + bus
  match s.eventOf kind ch with
  | none => if opens then s.openEvent kind ch x.1 x.2 else s
  | some e =>
    let better := if kind = 2 then decide (e.ext < x.1) else decide (x.1 < e.ext)
    let s := if better && !closes then s.setEvent kind ch fun e => { e with ext := x.1, val2 := x.2 } else s
    if closes then s.closeEvent kind ch else s

/-- The voltage events of a bus at the last window (R206, Table 8-1). -/
def State.busEvents (s : State) (bus : Nat) : State :=
  match s.busWindows bus with
  | none => s
  | some ws =>
    let u := s.udin bus
    let sag := s.cfg PQE_SAG_TH
    let swl := s.cfg PQE_SWL_TH
    let int := s.cfg PQE_INT_TH
    let hys := s.cfg PQE_HYS
    let low := extremeOf false ws
    let high := extremeOf true ws
    let s := s.busEvent 1 bus low (ws.any fun w => rmsBelow w.2 sag u)
      (ws.all fun w => !rmsBelow w.2 (sag + hys) u)
    let s := s.busEvent 2 bus high (ws.any fun w => rmsAbove w.2 swl u)
      (ws.all fun w => !rmsAbove w.2 (swl - hys) u)
    s.busEvent 3 bus low (ws.all fun w => rmsBelow w.2 int u)
      (ws.any fun w => !rmsBelow w.2 (int + hys) u)

/-! ## Voltage sense -/

/-- The current channels bound to a phase channel. -/
def State.boundChannels (s : State) (c : Nat) : List Nat :=
  (List.range 64).filter fun ch => boundTo s.inForce ch == some (chanOfCode c)

/-- A mean square exceeds that of a threshold code. -/
def msAbove (x : Nat × Nat) (code : Nat) : Bool := decide (x.2 * code ^ 2 < x.1)

/-- A voltage-sense event of phase `c` opens, or takes the place of WAVEFORM (R210, R211). -/
def State.openSense (s : State) (c : Nat) : State :=
  let live := (s.boundChannels c).filter fun ch =>
    match usableValues (cellAt [] ch s.pqe.last) with
    | some v => msAbove (squares v) (s.cfg PQE_LIVE_I)
    | none => false
  let s := if s.verdict c = vsWaveform then s
    else s.openEvent 0x10 (chanOfCode c) (rmsMean (cellAt (0, 0) c s.pqe.win)) vsLow
  (s.setVerdict c vsLow).setPqe fun p => { p with
    vs := cellInsert c { live := live } p.vs }

/-- The one-cycle windows of a cycle since the event opened join its sums (R210). -/
def State.gatherSense (s : State) (mid : Bool) (c : Nat) (v : VSense) : VSense :=
  let val (ch : Nat) := usableValues (s.windowOf mid ch)
  let bus := busOf c
  let vn := if bus = 1 then 67 else 71
  let chans := s.boundChannels c
  let sq := (vn :: chans).foldl (fun l ch =>
    match val ch with
    | some x =>
      let o := cellAt (0, 0) ch l
      let n := squares x
      cellPut (0, 0) ch (o.1 + n.1, o.2 + n.2) l
    | none => l) v.sq
  let ys := (busPhases s.inForce bus).filter (· != c)
  let prod := ys.foldl (fun l y => chans.foldl (fun l ch =>
    match val (chanOfCode y), val ch with
    | some a, some b =>
      let o := cellAt (0, 0) (64 * y + ch) l
      let n := conjMul (fundamental a) (fundamental b)
      cellPut (0, 0) (64 * y + ch) (o.1 + n.1, o.2 + n.2) l
    | _, _ => l) l) v.prod
  { v with sq := sq, prod := prod }

/-- A voltage-sense event of phase `c` closes (R210, R211). -/
def State.closeSense (s : State) (c : Nat) : State :=
  let s := (s.closeEvent 0x10 (chanOfCode c)).setVerdict c vsNormal
  s.setPqe fun p => { p with vs := cellErase c p.vs }

/-- The voltage sense of phase channel `c` at a window (R210). -/
def State.senseWindow (s : State) (mid : Bool) (c : Nat) : State :=
  let x := cellAt (0, 0) c s.pqe.win
  let u := s.udin (busOf c)
  let th := s.cfg PQE_LOSS_TH
  if x = (0, 0) then s
  else if s.verdict c = vsNormal ∨ s.verdict c = vsWaveform then
    if rmsBelow x th u then s.openSense c else s
  else if rmsBelow x (th + s.cfg PQE_HYS) u then
    let s := s.setEvent 0x10 (chanOfCode c) fun e => { e with ext := min e.ext (rmsMean x) }
    match s.pqe.vs.find? fun e => e.1 == c with
    | some (_, v) =>
      let v := { v with half := v.half + 1 }
      let v := if v.half % 2 = 0 then s.gatherSense mid c v else v
      s.setPqe fun p => { p with vs := cellInsert c v p.vs }
    | none => s
  else s.closeSense c

/-- What is done at phase `p` of the present cycle, stamped there (R205). -/
def State.atPhase (s : State) (p : Nat) (f : State → State) : State :=
  let t := f { s with ticks := s.ctf.cycTick + p, ctf := { s.ctf with ph := p } }
  { t with ticks := s.ticks, ctf := { t.ctf with ph := s.ctf.ph } }

/-- PQE_WINDOW (R205, R206, R210): the window due is taken for every phase channel of a declared bus,
and the events it feeds open or close. -/
def execPqeWindow (s : State) : Result :=
  .next (
    if s.pqe.due = 0 ∨ s.pqeRuns = false then s
    else
      let mid := s.pqe.due == 2
      let s := if mid then s.advanceTo 32768 else s
      let cs := busPhases s.inForce 1 ++ busPhases s.inForce 2
      let win := cs.foldl (fun l c =>
        match usableValues (s.windowOf mid (chanOfCode c)) with
        | some v => cellPut (0, 0) c (squares v) l
        | none => cellErase c l) []
      let s := s.setPqe fun p => { p with due := if mid then 0 else 2, win := win }
      s.atPhase (if mid then 32768 else 0) fun s =>
        ((cs.foldl (fun s c => s.senseWindow mid c) s).busEvents 1).busEvents 2)

/-- The verdict of Table 8-2 for phase `c`. -/
def State.classify (s : State) (c : Nat) (v : VSense) : Nat :=
  let bus := busOf c
  let u := s.udin bus
  let ps := busPhases s.inForce bus
  let w (p : Nat) := cellAt (0, 0) p s.pqe.win
  let vn := cellAt (0, 0) (if bus = 1 then 67 else 71) v.sq
  let live := (s.boundChannels c).filter fun ch =>
    let x := cellAt (0, 0) ch v.sq
    x.2 != 0 && msAbove x (s.cfg PQE_LIVE_I)
  let healthy := ps.filter fun y =>
    y != c && s.verdict y == vsNormal && w y != (0, 0) && !rmsBelow (w y) (s.cfg PQE_LOSS_TH) u
  let disp (p : Nat) := cellAt [] p s.pqe.held
  let fits (ch : Nat) := healthy.any fun y =>
    let x := cellAt (0, 0) (64 * y + ch) v.prod
    let phi := cellAt [] (16 + ch) s.pqe.held
    x != (0, 0) && phi != [] && disp c != [] && disp y != [] &&
      let d := wrapAngle (argOf x - (meanAngle (disp c) - meanAngle (disp y)) - meanAngle phi)
      decide (d.natAbs * 360 ≤ s.cfg PQE_ANG_TOL * 65536)
  if ps.all fun p => w p != (0, 0) && rmsBelow (w p) (s.cfg PQE_INT_TH) u then vsInterruption
  else if busMode s.inForce bus = 4 ∧ vn.2 ≠ 0 ∧ rmsAbove vn (s.cfg PQE_VN_TH) u = true then vsNeutral
  else if live.any fits then vsOpenTap
  else if live ≠ [] ∨ v.live ≠ [] then vsPhaseLoss
  else vsLow

/-- Phase `c` is classified where that is due: after PQE_CLS_CYC cycles, and while unresolved after
each block end (R210). An open tap leaves the voltage events of its bus from this window on
(R206). -/
def State.classifyDue (s : State) (c : Nat) : State :=
  match s.pqe.vs.find? fun e => e.1 == c with
  | none => s
  | some (_, v) =>
    if s.verdict c = vsLow ∧ 2 * s.cfg PQE_CLS_CYC ≤ v.half ∧ (v.seen = false ∨ v.again = true) then
      let r := s.classify c v
      let s := s.setPqe fun p => { p with
        vs := cellInsert c { v with seen := true, again := false } p.vs }
      let s := s.setVerdict c r
      if r = vsOpenTap then
        let b := 0x80 + busOf c
        let s := s.setPqe fun p => { p with opens := p.opens.map fun e =>
          if e.kind ≤ 3 ∧ e.ch = b then { e with excl := true } else e }
        s.busEvents (busOf c)
      else s
    else s

/-- VSENSE_CLASSIFY (R210): every low phase whose classification is due is classified. -/
def execVsenseClassify (s : State) : Result :=
  .next (if s.pqeRuns then (List.range 6).foldl (fun s k => s.classifyDue (k + 1)) s else s)

/-! ## Block ends -/

/-- √(10^k a ÷ b) of sums of squares, limited to `w` bits; free where b is zero, the manual stating no
ratio there (log entry 7). -/
def State.ratioOf (s : State) (scale a b w : Nat) : Nat × State :=
  if b = 0 then s.draw w else (satNat w (isqrtRound (scale * a / b)), s)

/-- The bus of a channel: of a voltage channel its own, of a current channel that of its voltage. -/
def chanBus (force : List (Nat × Word)) (ch : Nat) : Option Nat :=
  if 64 ≤ ch then some (if ch < 68 then 1 else 2)
  else (boundTo force ch).map fun v => if v < 68 then 1 else 2

/-- The channel runs asynchronously: no phase channel of its bus has a valid learned offset (R204). -/
def State.asyncChan (s : State) (force : List (Nat × Word)) (ch : Nat) : Bool :=
  match chanBus force ch with
  | some b => (busPhases force b).all fun c => !(s.chan c).offsetOk
  | none => false

/-- The results of a channel for an ended block (R201 to R204). -/
def State.blockResult (s : State) (b : PqeBlock) (ch : Nat) : HarmRes × State :=
  let a := cellAt {} ch b.chans
  let pairs := (List.range 9).map fun k => (cellAt (RegMap.resetWord (0x020 + k) 0x040)
    (regKey (0x020 + k) 0x040) b.force).toNat
  let dbl := (pairedBy pairs ch).isSome
  let full := highOrder dbl (fldIn b.force PQE_HMAX) 0
  let h := if b.cut then min full 15 else full
  let vdbl := match boundTo b.force ch with
    | some v => (pairedBy pairs v).isSome
    | none => false
  let cap := if 64 ≤ ch ∨ (dbl = true ∧ vdbl = true) then 100
    else if (boundTo b.force ch).isNone then 0 else 50
  let base : HarmRes := { cellAt {} ch s.pqe.res with
    h := h, async := s.asyncChan b.force ch, noang := decide (cap < h), cyc := b.cyc }
  if a.used = 0 ∨ b.free = true then ({ base with sts := codeOf .skipped, used := 0 }, s)
  else
    let c : Status :=
      if a.used < b.agg then .part else if b.hold then .holdover
      else if h < full then .degraded else .ok
    let z1 := a.z.getD 0 0
    let upper := (a.z.take h).drop 1
    let t := s.ratioOf 100000000 (upper.foldl (· + ·) 0) z1 16
    let m := (List.range 99).foldl (fun (x : List Nat × State) k =>
      if k + 2 ≤ h then
        let r := x.2.ratioOf (2 ^ 32) (a.z.getD (k + 1) 0) z1 16
        (x.1 ++ [r.1], r.2)
      else (x.1 ++ [0], x.2)) ([], t.2)
    let ang := (List.range 99).map fun k =>
      if k + 2 ≤ min h cap then
        unsigned 16 (a.first.getD (k + 1) 0 + divRound (a.diff.getD (k + 1) 0) a.used)
      else 0
    ({ base with sts := codeOf c, used := a.used,
                 h1 := satNat 24 (isqrtRound (z1 / (a.used * 2 ^ 55))), thd := t.1, mag := m.1,
                 ang := ang }, m.2)

/-- The unbalance of a bus over an ended block (R208): the register, and the event. A value beyond
its field is not stated and is free (log entry 7). -/
def State.unbalance (s : State) (b : PqeBlock) (bus : Nat) : State :=
  let u := cellAt (0, 0) bus b.unb
  if u.1 = 0 ∨ b.free = true then s
  else
    let f := if bus = 1 then PQE_U2_1 else PQE_U2_2
    let v := isqrtRound (u.2 * 10 ^ 8 / (u.1 * 2 ^ 40))
    let d := if v < 65536 then (v, s) else s.draw 16
    let s := d.2.wr f d.1
    let above := fldIn b.force PQE_UNB_TH ^ 2 * u.1 * 2 ^ 40 < u.2 * 10 ^ 8
    match s.eventOf 8 (0x80 + bus) with
    | none => if above then s.openEvent 8 (0x80 + bus) d.1 0 else s
    | some _ =>
      if above then s
      else (s.setEvent 8 (0x80 + bus) fun e => { e with ext := d.1 }).closeEvent 8 (0x80 + bus)

/-- PQE_BLOCK_END (R203): an ended block is latched for all channels. -/
def execPqeBlockEnd (s : State) : Result :=
  .next (match s.pqe.ended with
    | none => s
    | some b =>
      if s.pqeRuns then
        let x := (List.range 72).foldl (fun (x : List (Nat × HarmRes) × State) ch =>
          let r := x.2.blockResult b ch
          (x.1 ++ [(ch, r.1)], r.2)) ([], s)
        let s := x.2.setPqe fun p => { p with
          ended := none, res := x.1,
          vs := p.vs.map fun e => (e.1, { e.2 with again := e.2.seen }) }
        ((s.unbalance b 1).unbalance b 2).raise 0x070 0
      else s)

/-! ## Frequency -/

/-- The nominal frequency in mHz (R207). -/
def State.nominal (s : State) : Nat := if s.on CTF_NOMF then 60000 else 50000

/-- One frequency event of a bus with its consecutive intervals outside and inside its band. -/
def State.freqEvent (s : State) (kind bus f : Nat) (barred outside : Bool) : State :=
  let k := kind - 4
  let s := (s.tally (16 * bus + k) outside).tally (16 * bus + 3 + k) (!outside)
  let n := s.cfg PQE_FCYC
  match s.eventOf kind (0x80 + bus) with
  | none =>
    if !barred && decide (n ≤ s.runOf (16 * bus + k)) then s.openEvent kind (0x80 + bus) f 0 else s
  | some _ =>
    let s := s.setEvent kind (0x80 + bus) fun e => { e with ext := f }
    if barred || decide (n ≤ s.runOf (16 * bus + 3 + k)) then s.closeEvent kind (0x80 + bus) else s

/-- The frequency of a bus from an interval of `n` ticks between confirmed crossings (R207). -/
def State.frequency (s : State) (bus n : Nat) : State :=
  let f := satNat 20 (divRoundNat (48000000000 * 65536) (n * s.rd CTF_PERIOD))
  let s := s.wr (if bus = 1 then PQE_F1 else PQE_F2) f
  let dev := s.cfg PQE_FDEV
  let s := s.freqEvent 6 bus f false (decide (f < 45000) || decide (65000 < f))
  let range := (s.eventOf 6 (0x80 + bus)).isSome
  let s := s.freqEvent 4 bus f range (decide (s.nominal + dev < f))
  s.freqEvent 5 bus f range (decide (f + dev < s.nominal))

/-- The CTF has confirmed a positive crossing of channel code `c`; `old` is the state before it
(R207, R211). -/
def State.pqeCrossing (s : State) (old : State) (c : Nat) : State :=
  if (s.chan c).pos.last = (old.chan c).pos.last ∨ s.pqeRuns = false then s
  else
    let bus := busOf c
    let first := (busPhases s.inForce bus).find? fun k => !(s.chan k).lost
    let s := if s.verdict c = vsWaveform then s.closeSense c else s
    match first == some c && !(old.chan c).lost, (old.chan c).pos.last, (s.chan c).pos.last with
    | true, some l, some i => if l < i then s.frequency bus (i - l) else s
    | _, _, _ => s

/-- The CTF has declared phase channel `c` lost while its voltage is up: WAVEFORM (R211). -/
def State.pqeLost (s : State) (c : Nat) : State :=
  let x := cellAt (0, 0) c s.pqe.win
  if s.pqeRuns = true ∧ x ≠ (0, 0) ∧ s.verdict c = vsNormal
      ∧ rmsBelow x (s.cfg PQE_LOSS_TH) (s.udin (busOf c)) = false then
    (s.openEvent 0x10 (chanOfCode c) (rmsMean x) vsWaveform).setVerdict c vsWaveform
  else s

/-! ## CT verdicts -/

/-- The CT verdict of current channel `ch`. -/
def State.ctVerdict (s : State) (ch : Nat) : Nat := bits (s.rd (PQE_CTV (ch / 16))) (2 * (ch % 16)) 2

/-- The CT verdict of a channel changes, and its sense event opens or closes (R209). -/
def State.setCtVerdict (s : State) (ch v r : Nat) : State :=
  if s.ctVerdict ch = v then s
  else
    let f := PQE_CTV (ch / 16)
    let s := (s.wr f (putBits (s.rd f) (2 * (ch % 16)) 2 v)).raise 0x070 2
    match s.eventOf 0x11 ch with
    | none => if 2 ≤ v then s.openEvent 0x11 ch r v else s
    | some _ =>
      if 2 ≤ v then s.setEvent 0x11 ch fun e => { e with val2 := v, ext := r }
      else (s.setEvent 0x11 ch fun e => { e with ext := r }).closeEvent 0x11 ch

/-- A continuity result with code OK sets the verdict of its channel (R209). -/
def State.ctResult (s : State) (ch : Nat) : State :=
  if s.pqeRuns then
    let r := s.rd (ACS_CONT_R (bankOf ch) (posOf ch))
    let high := decide (s.cfg (PQE_CT_RLIM ch) < r)
    let twice := high && s.pqe.ctOver.contains ch
    let s := s.setPqe fun p => { p with
      ctOver := if high then ch :: p.ctOver.erase ch else p.ctOver.erase ch }
    if r = 0xFFFF then s.setCtVerdict ch 3 r
    else if twice then s.setCtVerdict ch 2 r
    else if high then s
    else s.setCtVerdict ch 1 r
  else s

/-! ## Levels and resets -/

/-- Before D3 gates the PQE every open event closes with SKIPPED, and the voltage verdicts return to
NORMAL; CT verdicts stay (R216). -/
def State.pqeEnterD3 (s : State) : State :=
  let s := s.pqe.opens.foldl (fun s e => s.closeAs e .skipped) s
  (s.wr PQE_VSV 0).setPqe fun p => { p with
    cur := [], last := [], due := 0, win := [], opens := [], vs := [], runs := [], held := [],
    block := {}, ended := none }

/-- The page reset empties the ring (Table 4-2). -/
def State.pqePageReset (s : State) : State := (s.wr PQE_RING_RD 0).wr PQE_RING_WR 0

/-! ## Register access -/

/-- Writes of page 0x070, with their code in PQE_CFGSTS (R203, R217). -/
def pqeWrite : Writer := fun s q d =>
  let r : Status × State :=
    match q.off with
    | 0x040 =>
      let h := bits d 8 7
      if h < 2 ∨ 100 < h then (.cfgInvalid, s)
      else if bits d 16 8 = 0 then (.zeroLen, s)
      else plainWrite s q d
    | 0x050 => storeIf (bits d 16 8 != 0) s q d
    | 0x058 => storeIf (bits d 0 8 != 0 && bits d 8 8 != 0 && decide (bits d 8 8 ≤ 90)) s q d
    | 0x064 => storeIf (decide (bits d 0 7 ≤ 71)) s q d
    | _ => plainWrite s q d
  if q.off = 0x0B4 ∨ q.off < 0x040 then r else (r.1, r.2.wr PQE_CCODE (codeOf r.1))

/-- The words of the harmonic window for the selected channel, by offset. -/
def State.harmWord (s : State) (off : Nat) : Nat :=
  let r := cellAt {} (s.cfg PQE_HCH) s.pqe.res
  match off with
  | 0x068 => r.sts + r.used * 2 ^ 8 + r.h * 2 ^ 16 + b2n r.async * 2 ^ 24 + b2n r.noang * 2 ^ 25
  | 0x06C => r.cyc % 2 ^ 32
  | 0x070 => r.h1
  | 0x074 => r.thd
  | _ =>
    let k := (off - 0x400) / 4
    if off < 0x400 then 0 else r.mag.getD k 0 + r.ang.getD k 0 * 2 ^ 16

/-- The offsets of the harmonic window beside PQE_HCYC. -/
def harmOffs : List Nat := [0x068, 0x070, 0x074] ++ (List.range 99).map fun k => 0x400 + 4 * k

/-- Reads of page 0x070: a read of PQE_HCYC latches the window of the selected channel (R217). -/
def pqeRead : Reader := fun s q =>
  if q.off = 0x06C then
    let t := harmOffs.foldl (fun t o => t.setReg 0x070 o (s.harmWord o)) s
    let k := regKey 0x070 0x06C
    (.ok, s.harmWord 0x06C, { t with latched := k :: t.latched.erase k })
  else if harmOffs.contains q.off && !s.latched.contains (regKey 0x070 0x06C) then
    (.ok, s.harmWord q.off, s)
  else plainRead s q

/-! ## Commands -/

/-- PQE_HCYC_READ (R217): a read of PQE_HCYC. -/
def execPqeHcycRead (r : RegRead) (s : State) : Result := .next (s.readReg pqeRead 0x070 0x06C r)

/-- CONT_TEST_RESULT (R146, R209): at the end of the test cycle the resistance and the verdict. -/
def execContTestResult (s : State) : Result :=
  .next (match s.acs.testing with
    | some ch => if s.acs.testDone then (s.contResult ch).ctResult ch else s
    | none => s)

/-- CHANNEL_LOST (R36): a channel is declared lost; a lost reference acts as Table 2-2 states, which
may gate the domains marked Lk (R28, R197); the PQE takes note (R211). -/
def execChannelLost (code : Fin 8) (s : State) : Result :=
  let c := code.val
  .next (
    if c = 0 ∨ c = 7 then s
    else
      let t := (s.setChan c fun h => { h.unqualify with lost := true }).showQual
      ((if t.rd CTF_REF = c then t.referenceLost else t).gateFrom s).pqeLost c)

end Sys2Proof.Machine
end

