-- ==== Sys2Proof/Machine/Swc.lean ====
section
/-! DEFINITION. The sweep chain (chapter 15): links, frames, enumeration, stamp alignment, sweeps, reports and
page 0x0C0. -/

namespace Sys2Proof.Machine

open Reg

/-- The state with what the sweep chain holds changed. -/
def State.setSwc (s : State) (f : SwcState → SwcState) : State := { s with swc := f s.swc }

/-- This device is the head. -/
def State.swcHead (s : State) : Bool := s.on SWC_HEAD

/-- CD45 and CD46 run (R403). -/
def State.swcRuns (s : State) : Bool := decide (s.level < 3)

/-! ## Frames (R388) -/

/-- The bytes of a frame. -/
def State.chainBytes (s : State) (type : Nat) (payload : List Byte) : List Byte :=
  let h := leBytes 1 type ++ leBytes 1 (s.rd SWC_POS) ++ [0] ++ leBytes 1 payload.length ++ payload
  h ++ leBytes 4 (crc32 h)

/-- A frame is sent upstream where the link is up; the head ignores its upstream port. -/
def State.sendUp (s : State) (type : Nat) (payload : List Byte) : State :=
  if s.on SWC_UPLNK ∧ s.swcHead = false then s.send .chainUp (byteNats (s.chainBytes type payload)) else s

/-- A frame is sent downstream where the link is up. -/
def State.sendDown (s : State) (type : Nat) (payload : List Byte) : State :=
  if s.on SWC_DNLNK then s.send .chainDown (byteNats (s.chainBytes type payload)) else s

/-- The CRC, the type and the length of a frame are right (R388). -/
def chainOk (type len : Nat) (b : List Byte) : Bool :=
  b.length == len + 8 && leAt b 0 1 == type && leAt b 3 1 == len
    && leAt b (len + 4) 4 == crc32 (b.take (len + 4))

/-- A frame arrives: its payload where it stands, or it is dropped and counted (R386, R388). -/
def State.chainTake (s : State) (type len : Nat) (f : ChainFrame) : Option (List Byte) × State :=
  if !s.swcRuns then (none, s)
  else
    let s := s.count SWC_CGERRN f.bad.toNat
    if chainOk type len f.bytes then (some ((f.bytes.drop 4).take len), s) else (none, s.count SWC_CRCN)

/-- A received frame goes on, as it was received (R389). -/
def State.relayUp (s : State) (f : ChainFrame) : State :=
  if s.on SWC_UPLNK ∧ s.on SWC_OVER = false then s.send .chainUp (byteNats f.bytes) else s

/-- The same downstream. -/
def State.chainDown (s : State) (f : ChainFrame) : State :=
  if s.on SWC_DNLNK ∧ s.on SWC_OVER = false then s.send .chainDown (byteNats f.bytes) else s

/-! ## Enumeration (R390) -/

/-- Sweeps outstanding at the head (R401). -/
def State.outstanding (s : State) : Nat := (s.swc.reports.filter fun r => !r.final).length

/-- SWC_ENUM_BUSY and SWC_NOUT follow. -/
def State.swcShow (s : State) : State :=
  (s.wr SWC_ENUM_BUSY (b2n (s.swc.enum.isSome || s.swc.wanted))).wr SWC_NOUT s.outstanding

/-- The head enumerates, or defers it while a sweep is outstanding (R390). -/
def State.enumerate (s : State) : State :=
  if !(s.swcHead && s.on SWC_EN && s.swcRuns) then s
  else if s.outstanding ≠ 0 then (s.setSwc fun c => { c with wanted := true }).swcShow
  else
    let n := (s.rd SWC_ENUMNO + 1) % 65536
    let s := (s.wr SWC_ENUMNO n).wr SWC_POS 0
    let s := s.setSwc fun c => { c with enum := some s.clk, wanted := false, found := [] }
    (s.sendDown 0x01 (leBytes 1 1 ++ leBytes 2 n)).swcShow

/-- The enumeration is complete: SWC_DEVn, SWC_NDEV, the entry of the log (R390). -/
def State.enumDone (s : State) : State :=
  let n := s.swc.found.foldl (fun m x => max m x.1) 0
  let l := (List.range (n + 1)).map fun k => if k = 0 then s.eui else cellAt 0 k s.swc.found
  let s := (List.range 32).foldl (fun s k => s.wr (SWC_DEV_EUI k) (l.getD k 0)) s
  let s := (s.wr SWC_NDEV (n + 1)).setSwc fun c => { c with enum := none, found := [] }
  ((s.raise 0x0C0 1).log (0x8101 + n) deviceTc (trunc8 (l.flatMap (leBytes 8)))).swcShow

/-- ENUM (R390): a position is taken, or the device lies beyond position 31. -/
def execEnum (frame : ChainFrame) (s : State) : Result :=
  .next (
    match s.chainTake 0x01 3 frame with
    | (none, s) => s
    | (some b, s) =>
      let p := leAt b 0 1
      let n := leAt b 1 2
      if s.swcHead then s
      else if p ≤ 31 then
        let s := ((s.wr SWC_POS p).wr SWC_OVER 0).wr SWC_ENUMNO n
        let s := s.sendUp 0x02 (leBytes 1 p ++ leBytes 8 s.eui ++ leBytes 1 (s.rd SYS_SIREV)
          ++ leBytes 1 (s.rd SWC_DNLNK) ++ leBytes 2 n)
        s.sendDown 0x01 (leBytes 1 (p + 1) ++ leBytes 2 n)
      else if p = 32 then ((s.wr SWC_POS 0x3F).wr SWC_OVER 1).log 0x8002 deviceTc n
      else s)

/-- ANNOUNCE (R390): the head records the position; the last device ends the enumeration. -/
def execAnnounce (frame : ChainFrame) (s : State) : Result :=
  .next (
    match s.chainTake 0x02 13 frame with
    | (none, s) => s
    | (some b, s) =>
      let p := leAt b 0 1
      if !s.swcHead then s.relayUp frame
      else if s.swc.enum.isSome ∧ leAt b 11 2 = s.rd SWC_ENUMNO ∧ 1 ≤ p ∧ p ≤ 31 then
        let s := s.setSwc fun c => { c with found := cellInsert p (leAt b 1 8) c.found }
        if bit (leAt b 10 1) 0 then s else s.enumDone
      else s)

/-- LINK (R390, R391): at the head it starts an enumeration. -/
def execLink (frame : ChainFrame) (s : State) : Result :=
  .next (
    match s.chainTake 0x09 2 frame with
    | (none, s) => s
    | (some _, s) => if s.swcHead then s.enumerate else s.relayUp frame)

/-- ENUM_TIMEOUT (R390): 1 ms after ENUM. -/
def execEnumTimeout (s : State) : Result :=
  .next (match s.swc.enum with
    | none => s
    | some t => (s.waitUntil (t + msTicks 1)).enumDone)

/-! ## Links (R386, R391) -/

/-- A link changes state. -/
def State.linkSet (s : State) (upstream up : Bool) : State :=
  let f := if upstream then SWC_UPLNK else SWC_DNLNK
  if s.on f = up then s
  else
    let s := (s.wr f (b2n up)).raise 0x0C0 0
    let s := if up then s else s.count SWC_LINKDNN
    if upstream then if up || s.swcHead then s else s.wr SWC_POS 0x3F
    else if s.swcHead then s.enumerate
    else s.sendUp 0x09 (leBytes 1 (s.rd SWC_POS) ++ leBytes 1 (b2n up))

/-- LINK_UP (R386): 64 valid idle sets. -/
def execLinkUp (upstream : Bool) (bad : BitVec 16) (s : State) : Result :=
  .next (if s.swcRuns then (s.count SWC_CGERRN bad.toNat).linkSet upstream true else s)

/-- LINK_DOWN (R386): loss of signal, or 256 code groups without K28.5. -/
def execLinkDown (upstream : Bool) (bad : BitVec 16) (s : State) : Result :=
  .next (if s.swcRuns then (s.count SWC_CGERRN bad.toNat).linkSet upstream false else s)

/-! ## Stamp alignment (R393, R394) -/

/-- The conditions of R394. -/
def State.alignedNow (s : State) : Bool :=
  if s.swcHead then s.on SWC_EN
  else
    match s.swc.rsp, s.swc.theta, s.swc.before with
    | some r, some a, some b =>
      decide (stampNat s.stamp < r + s.rd SWC_ATMO * 65536) && s.swc.upOk && decide ((a - b).natAbs ≤ 64)
    | _, _, _ => false

/-- SWC_ALIGNED follows; a change raises its event, a loss counts (R394). -/
def State.alignShow (s : State) : State :=
  let now := s.alignedNow
  if s.on SWC_ALIGNED = now then s
  else
    let s := (s.wr SWC_ALIGNED (b2n now)).raise 0x0C0 3
    if now then s else s.count SWC_ALGLOSTN

/-- O_k: zero at the head. -/
def State.chainOffset (s : State) : Int := if s.swcHead then 0 else s.swc.offset

/-- O_k as SWC_OFS shows it, modulo 2^72. -/
def State.offsetShow (s : State) : State :=
  let n := unsigned 72 s.chainOffset
  ((s.wr SWC_OFS_FR (n % 256)).wr SWC_OFS_LO (n / 256 % 2 ^ 32)).wr SWC_OFS_HI (n / 2 ^ 40)

/-- The local stamp of head stamp `h`: H - O_k, rounded to the nearest tick. -/
def State.localOf (s : State) (h : Nat) : Int := divRound ((h : Int) * 256 - s.chainOffset) 256

/-- A local instant in 1/256 ct. -/
def State.chainTime (s : State) (frac : BitVec 8) : Nat := stampNat s.stamp * 256 + frac.toNat

/-- ALIGN_EXCHANGE (R393): every SWC_APER cycles an ALIGNREQ goes upstream; `t1`: the fraction of its instant. -/
def execAlignExchange (t1 : BitVec 8) (s : State) : Result :=
  .next (
    let due := match s.swc.last with
      | some c => decide (c + s.rd SWC_APER ≤ s.ctf.cyc)
      | none => true
    if !(s.swcRuns && s.on SWC_UPLNK && !s.swcHead && due) then s
    else
      let n := s.swc.seq
      let s := s.setSwc fun c => { c with seq := (n + 1) % 65536, req := some ⟨n, s.chainTime t1⟩,
                                          last := some s.ctf.cyc }
      s.sendUp 0x03 (leBytes 2 n))

/-- ALIGNREQ (R393): answered with t2, t3 and O; `t2`: the fraction of its instant, `turn`: t3 - t2 in 1/256 ct. -/
def execAlignreq (frame : ChainFrame) (t2 : BitVec 8) (turn : BitVec 32) (s : State) : Result :=
  .next (
    match s.chainTake 0x03 2 frame with
    | (none, s) => s
    | (some b, s) =>
      let t := s.chainTime t2
      s.sendDown 0x04 (b ++ leBytes 9 t ++ leBytes 9 (t + turn.toNat) ++ leBytes 9 (unsigned 72 s.chainOffset)
        ++ leBytes 1 (s.rd SWC_ALIGNED)))

/-- ALIGNRSP (R393): θ, d and O_k; `t4`: the fraction of its instant. -/
def execAlignrsp (frame : ChainFrame) (t4 : BitVec 8) (s : State) : Result :=
  .next (
    match s.chainTake 0x04 30 frame with
    | (none, s) => s
    | (some b, s) =>
      match s.swc.req with
      | none => s
      | some r =>
        if s.swcHead ∨ r.seq ≠ leAt b 0 2 then s
        else
          let t1 : Int := r.t1
          let t2 : Int := leAt b 2 9
          let t3 : Int := leAt b 11 9
          let t4 : Int := s.chainTime t4
          let th := divRound ((t2 - t1) - (t4 - t3)) 2
          let d := divRound ((t4 - t1) - (t3 - t2)) 2
          let s := s.setSwc fun c => { c with
            req := none, rsp := some (stampNat s.stamp), upOk := bit (leAt b 29 1) 0,
            before := c.theta, theta := some th, offset := signed 72 (leAt b 20 9) + th }
          ((s.wr SWC_DELAY (unsigned 24 d)).offsetShow).alignShow)

/-- ALIGN_TIMEOUT (R394): no ALIGNRSP within SWC_ATMO cycles. -/
def execAlignTimeout (s : State) : Result := .next s.alignShow

/-! ## Reports at the head (R401, R402) -/

/-- The overall code of a report (R401). -/
def SweepReport.code (r : SweepReport) : Status :=
  if r.entries.any (·.st != 2) then .part
  else r.entries.foldl (fun c e => firstOf c (statusOf e.code)) .ok

/-- A report changes. -/
def State.setReport (s : State) (id : Nat) (f : SweepReport → SweepReport) : State :=
  s.setSwc fun c => { c with reports := c.reports.map fun r => if r.id = id then f r else r }

/-- The newest report of a sweep. -/
def State.report? (s : State) (id : Nat) : Option SweepReport := s.swc.reports.reverse.find? (·.id == id)

/-- SWEEP_REPORT of Table 16-6: 1 final, 2 update. -/
def State.logReport (s : State) (r : SweepReport) (how : Nat) : State :=
  s.log 0x8013 deviceTc (r.id + codeOf r.code * 2 ^ 16 + how * 2 ^ 24)

/-- A report becomes final: the report and the datum of each EXECUTED position are logged (R401). -/
def State.finalise (s : State) (r : SweepReport) : State :=
  let s := (s.setReport r.id fun x => { x with final := true }).logReport r 1
  let s := (List.range r.entries.length).foldl (fun s k =>
    match r.entries[k]? with
    | some e => if e.st = 2 then s.log (0x8200 + k) deviceTc e.datum else s
    | none => s) s
  (s.raise 0x0C0 2).swcShow

/-- A result is recorded at its position, found by EUI (R401); a fetched or late one updates the report (R402). -/
def State.recordResult (s : State) (id eui code stamp datum : Nat) (fetched : Bool) : State :=
  match s.report? id with
  | none => s
  | some r =>
    match r.entries.findIdx? (·.eui == eui) with
    | none => s
    | some k =>
      let s := s.setReport id fun r => { r with
        entries := r.entries.set k ⟨eui, 2, code, fetched, stamp, datum⟩ }
      if fetched ∨ r.final then
        match s.report? id with
        | some r => ((s.logReport r 2).log (0x8200 + k) deviceTc datum).raise 0x0C0 2
        | none => s
      else s

/-- REPORT_FINAL (R401): SWC_RWAIT cycles after the execution stamp; a deferred enumeration then runs. -/
def execReportFinal (s : State) : Result :=
  .next (
    match s.swc.reports.find? fun r =>
      !r.final && decide (r.head + s.rd SWC_RWAIT * 65536 ≤ stampNat s.stamp) with
    | none => s
    | some r =>
      let s := s.finalise r
      if s.swc.wanted ∧ s.outstanding = 0 then s.enumerate else s)

/-! ## Sweeps -/

/-- SWC_SW_GO (R397): a sweep is submitted. -/
def State.submitSweep (s : State) : Status × State :=
  let kind := s.rd SWC_SW_KIND
  let h := s.rd64 SWC_AT_LO SWC_AT_HI
  let now := stampNat s.stamp
  let c : Status :=
    if !s.swcHead || !(kind == 1 || kind == 2) || decide (now + 65535 * 65536 < h) then .cfgInvalid
    else if h < now + 262144 then .timeout
    else if 8 ≤ s.outstanding ∨ s.swc.enum.isSome then .refusedPriority
    else .ok
  let s := s.wr SWC_SW_CODE (codeOf c)
  if c ≠ .ok then (c, s)
  else
    let id := (s.rd SWC_SW_ID + 1) % 65536
    let l := (List.range (max 1 (s.rd SWC_NDEV))).map fun k =>
      ({ eui := if k = 0 then s.eui else s.rd (SWC_DEV_EUI k) } : ReportEntry)
    let r : SweepReport := { id := id, head := h, entries := l }
    let s := s.setSwc fun x => { x with
      pending := x.pending ++ [⟨id, kind, h⟩], reports := (x.reports ++ [r]).drop (x.reports.length - 7) }
    let s := (s.wr SWC_SW_ID id).sendDown 0x05 (leBytes 2 id ++ leBytes 1 kind ++ leBytes 8 h ++ [0])
    (.ok, (s.log 0x8010 deviceTc (id + kind * 2 ^ 16 + h / 65536 % 2 ^ 32 * 2 ^ 32)).swcShow)

/-- SWEEP (R398): forwarded, held, and acknowledged with the code that the device will report. -/
def execSweep (frame : ChainFrame) (s : State) : Result :=
  .next (
    match s.chainTake 0x05 12 frame with
    | (none, s) => s
    | (some b, s) =>
      if s.swcHead then s
      else
        let s := s.chainDown frame
        let id := leAt b 0 2
        let kind := leAt b 2 1
        let h := leAt b 3 8
        let full := decide (8 ≤ s.swc.pending.length)
        if s.rd SWC_POS = 0x3F ∨ !(kind == 1 || kind == 2) ∨ full then s
        else
          let c : Status := if s.localOf h < stampNat s.stamp then .timeout
            else if !s.on SWC_EN then .skipped else .ok
          let s := if c = .ok then s.setSwc fun x => { x with pending := x.pending ++ [⟨id, kind, h⟩] } else s
          s.sendUp 0x06 (leBytes 2 id ++ leBytes 1 (s.rd SWC_POS) ++ leBytes 1 (codeOf c)))

/-- CMDACK (R401): at the head the position is REACHED. -/
def execCmdack (frame : ChainFrame) (s : State) : Result :=
  .next (
    match s.chainTake 0x06 4 frame with
    | (none, s) => s
    | (some b, s) =>
      if !s.swcHead then s.relayUp frame
      else
        let k := leAt b 2 1
        s.setReport (leAt b 0 2) fun r => { r with
          entries := r.entries.modify k fun e => if e.st = 0 then { e with st := 1 } else e })

/-- RESULT as a payload (Table 15-1). -/
def State.resultPayload (s : State) (id code stamp datum : Nat) (fetched : Bool) : List Byte :=
  leBytes 2 id ++ leBytes 1 (s.rd SWC_POS) ++ leBytes 1 code ++ leBytes 8 s.eui ++ leBytes 8 stamp
    ++ leBytes 8 datum ++ leBytes 1 (b2n fetched)

/-- A result in the local store, in place of the oldest (R399). -/
def State.storeResult (s : State) (x : Sweep) (code stamp datum : Nat) : State :=
  let k := s.swc.next
  let s := s.setSwc fun c => { c with next := (k + 1) % 16 }
  let s := (((s.wr (SWC_LR_ID k) x.id).wr (SWC_LR_STS k) code).wr (SWC_LR_KIND k) x.kind).wr (SWC_LR_VALID k) 1
  (s.wr (SWC_LR_STAMP k) stamp).wr (SWC_LR_DATUM k) datum

/-- The status of the last closed cycle: the first under R11 among its measured channels (log entry 28). -/
def State.lastStatus (s : State) : Status :=
  (List.range 64).foldl (fun c ch =>
    if s.on (MTE_EN (ch / 8) (ch % 8)) then firstOf c (statusOf (s.rd (MTE_RD_STS (ch / 8) (ch % 8)))) else c) .ok

/-- A sweep is executed: its entries in the log, its datum, its result (R396, R399). -/
def State.runSweep (s : State) (x : Sweep) : State :=
  let c : Status := if !s.on SWC_ALIGNED ∨ s.estimated then .holdover else .ok
  let at' := stampNat s.stamp
  let s := s.drainEvents s.events.length
  let s := (s.log 0x8011 deviceTc
    (x.id + x.kind * 2 ^ 16 + codeOf c * 2 ^ 24 + x.head / 65536 % 2 ^ 32 * 2 ^ 32)).takeEvent
  let datum := if x.kind = 2 then s.lastHash
    else s.rd64 MTE_LAST_LO MTE_LAST_HI % 2 ^ 48 + codeOf s.lastStatus * 2 ^ 48
  let s := (s.log 0x8012 deviceTc datum).takeEvent
  let s := (s.storeResult x (codeOf c) at' datum).raise 0x0C0 4
  if s.swcHead then s.recordResult x.id s.eui (codeOf c) at' datum false
  else s.sendUp 0x07 (s.resultPayload x.id (codeOf c) at' datum false)

/-- The pending sweep that comes first: the lowest execution tick, then the order received (R399). -/
def State.firstSweep (s : State) : Option Sweep :=
  s.swc.pending.foldl (fun a x => match a with
    | none => some x
    | some y => if x.head < y.head then some x else a) none

/-- SWEEP_EXECUTE (R399): at the local tick of the execution stamp. -/
def execSweepExecute (s : State) : Result :=
  .next (
    match s.firstSweep with
    | none => s
    | some x =>
      let t := s.localOf x.head
      if !s.swcRuns ∨ ((s.ctf.cyc : Int) + 1) * 65536 ≤ t then s
      else
        let s := if (s.ctf.cyc : Int) * 65536 ≤ t then s.advanceTo (t.toNat % 65536) else s
        (s.setSwc fun c => { c with pending := c.pending.erase x }).runSweep x)

/-- RESULT (R401, R402): at the head it is recorded; the result of a fetch ends it. -/
def execResult (frame : ChainFrame) (s : State) : Result :=
  .next (
    match s.chainTake 0x07 29 frame with
    | (none, s) => s
    | (some b, s) =>
      if !s.swcHead then s.relayUp frame
      else
        let id := leAt b 0 2
        let eui := leAt b 4 8
        let fetched := bit (leAt b 28 1) 0
        let s := s.recordResult id eui (leAt b 3 1) (leAt b 12 8) (leAt b 20 8) fetched
        match s.swc.fetch with
        | none => s
        | some f =>
          if fetched ∧ f.id = id ∧ f.eui = eui then
            (s.setSwc fun c => { c with fetch := none }).wr SWC_F_CODE (codeOf .ok)
          else s)

/-- SWC_F_GO (R402): FETCH for a position of a held report. -/
def State.startFetch (s : State) : Status × State :=
  match s.report? (s.rd SWC_F_ID) with
  | none => (.cfgInvalid, s.wr SWC_F_CODE (codeOf .cfgInvalid))
  | some r =>
    match r.entries[s.rd SWC_F_POS]? with
    | none => (.cfgInvalid, s.wr SWC_F_CODE (codeOf .cfgInvalid))
    | some e =>
      if !s.swcHead then (.cfgInvalid, s.wr SWC_F_CODE (codeOf .cfgInvalid))
      else
        let s := s.setSwc fun c => { c with fetch := some ⟨r.id, e.eui, s.clk⟩ }
        (.ok, s.sendDown 0x08 (leBytes 2 r.id ++ leBytes 8 e.eui))

/-- FETCH (R400): the device named answers from its local store. -/
def execFetch (frame : ChainFrame) (s : State) : Result :=
  .next (
    match s.chainTake 0x08 10 frame with
    | (none, s) => s
    | (some b, s) =>
      let id := leAt b 0 2
      if s.swcHead then s
      else if leAt b 2 8 ≠ s.eui then s.chainDown frame
      else
        let l := (List.range 16).map fun i => (s.swc.next + 15 - i) % 16
        match l.find? fun k => s.on (SWC_LR_VALID k) && s.rd (SWC_LR_ID k) == id with
        | some k => s.sendUp 0x07 (s.resultPayload id (s.rd (SWC_LR_STS k)) (s.rd (SWC_LR_STAMP k))
            (s.rd (SWC_LR_DATUM k)) true)
        | none => s.sendUp 0x07 (s.resultPayload id (codeOf .skipped) 0 0 true))

/-- FETCH_TIMEOUT (R402): 1 ms without a RESULT. -/
def execFetchTimeout (s : State) : Result :=
  .next (match s.swc.fetch with
    | none => s
    | some f => ((s.waitUntil (f.clk + msTicks 1)).setSwc fun c => { c with fetch := none }).wr SWC_F_CODE
        (codeOf .timeout))

/-! ## Degrade levels (R403) -/

/-- Entry into D3: pending sweeps are SKIPPED, reports are final as they stand, the position is given up. -/
def State.swcEnterD3 (s : State) : State :=
  let s := s.swc.pending.foldl (fun s x =>
    (s.storeResult x (codeOf .skipped) (stampNat s.stamp) 0).log 0x8014 deviceTc x.id) s
  let s := s.setSwc fun c => { c with pending := [] }
  let s := if s.swcHead then (s.swc.reports.filter fun r => !r.final).foldl State.finalise s else s
  let s := s.setSwc fun c => { c with enum := none, wanted := false, found := [], req := none }
  let s := if s.on SWC_UPLNK || s.on SWC_DNLNK then s.raise 0x0C0 0 else s
  (((s.wr SWC_POS 0x3F).wr SWC_UPLNK 0).wr SWC_DNLNK 0).swcShow

/-- Return to D2: the head enumerates. -/
def State.swcReturn (s : State) : State := s.enumerate

/-! ## Page 0x0C0 (R404) -/

/-- Writes of page 0x0C0. -/
def swcWrite : Writer := fun s q d =>
  match q.off with
  | 0x040 =>
    if bits d 8 8 = 0 ∨ bits d 16 8 = 0 ∨ bits d 24 8 = 0 then (.cfgInvalid, s)
    else
      let en := s.on SWC_EN
      let head := s.swcHead
      let s := s.storeWord q.page q.off d
      let s := if s.swcHead = head then s else s.wr SWC_POS (if s.swcHead then 0 else 0x3F)
      let s := s.offsetShow.alignShow
      (.ok, if en then s else s.enumerate)
  | 0x068 =>
    let s := s.storeWord q.page q.off d
    if bit d 8 then s.submitSweep else (.ok, s)
  | 0x070 => (.ok, if bit d 0 then s.enumerate else s)
  | 0x07C =>
    let s := s.storeWord q.page q.off d
    if bit d 24 then s.startFetch else (.ok, s)
  | _ => plainWrite s q d

/-- The report selected by SWC_R_ID in SWC_RHDR and SWC_RPTn (R404). -/
def State.latchReport (s : State) : State :=
  let r := s.report? (s.rd SWC_R_ID)
  let l := (r.map (·.entries)).getD []
  let s := (s.wr SWC_R_CODE (codeOf ((r.map (·.code)).getD .cfgInvalid))).wr SWC_R_FINAL
    (b2n ((r.map (·.final)).getD false))
  let s := s.wr SWC_R_NDEV l.length
  (List.range 32).foldl (fun s k =>
    let e := l.getD k { eui := 0 }
    let s := ((s.wr (SWC_RP_STATE k) e.st).wr (SWC_RP_STS k) e.code).wr (SWC_RP_FETCHED k) (b2n e.fetched)
    ((s.wr (SWC_RP_STAMP k) e.stamp).wr (SWC_RP_DATUM k) e.datum).wr (SWC_RP_EUI k) e.eui) s

/-- Reads of page 0x0C0. -/
def swcRead : Reader := fun s q =>
  match q.off with
  | 0x04C => plainRead (s.latchWords 0x0C0 0x054 1) q
  | 0x054 =>
    match s.latch.find? fun e => e.1 == regKey 0x0C0 0x054 with
    | some e => (.ok, e.2.toNat, s)
    | none => plainRead s q
  | 0x084 => plainRead s.latchReport q
  | _ => plainRead s q

/-- SWC_ENUM (R390): a write of 1. -/
def execSwcEnum (w : RegWrite) (s : State) : Result :=
  .next (s.writeReg swcWrite 0x0C0 0x070 w fun d => setBit d 0)

/-- SWC_SW_GO (R397): a write of 1. -/
def execSwcSwGo (w : RegWrite) (s : State) : Result :=
  .next (s.writeReg swcWrite 0x0C0 0x068 w fun d => setBit d 8)

/-- SWC_F_GO (R402): a write of 1. -/
def execSwcFGo (w : RegWrite) (s : State) : Result :=
  .next (s.writeReg swcWrite 0x0C0 0x07C w fun d => setBit d 24)

/-- SWC_OFS_READ (R404): a read of SWC_OFS_LO latches SWC_OFS_HI and SWC_OFS_FR. -/
def execSwcOfsRead (r : RegRead) (s : State) : Result :=
  .next (s.readReg swcRead 0x0C0 0x04C r)

/-- SWC_RHDR_READ (R404): a read of SWC_RHDR latches the selected report. -/
def execSwcRhdrRead (r : RegRead) (s : State) : Result :=
  .next (s.readReg swcRead 0x0C0 0x084 r)

end Sys2Proof.Machine
end

