-- ==== Sys2Proof/Machine/Tmp.lean ====
section
/-! DEFINITION. The tamper monitors (chapter 16): conditions, glitch runs, coverage and page 0x0C8. -/

namespace Sys2Proof.Machine

open Reg

/-- The state with what the tamper monitors hold changed. -/
def State.setTmp (s : State) (f : TmpState → TmpState) : State := { s with tmp := f s.tmp }

/-- The milliseconds of REF48 since a clock. -/
def State.msSince (s : State) (clk : Nat) : Nat := (s.clk - clk) / msTicks 1

/-- Codes shown in TMP_STS (Table 16-7). -/
def State.tmpShow (s : State) : State :=
  let on (l : List (Nat × TmpCond)) (first n : Nat) : Nat := (List.range n).foldl (fun a k =>
    a + b2n (l.any (·.1 == first + k)) * 2 ^ k) 0
  let s := ((s.wr TMP_HACT (on s.tmp.mags 0 2)).wr TMP_MACT (on s.tmp.mags 2 8)).wr TMP_EACT (on s.tmp.encs 0 4)
  let kind := match s.tmp.temp with
    | some c => c.kind
    | none => 2
  let s := (s.wr TMP_TLOW (b2n (kind == 0))).wr TMP_THIGH (b2n (kind == 1))
  s.wr TMP_XT32 (b2n (!s.ctf.xt32))

/-- A magnetic source can be detected: a Hall site always, a MAG input where it is wired (R405). -/
def State.magWired (s : State) (k : Nat) : Bool := decide (k < 2) || bit (s.cfg TMP_MEN) (k - 2)

/-- A magnetic condition is released. -/
def State.magRelease (s : State) (k : Nat) : State :=
  match s.tmp.mags.find? (·.1 == k) with
  | none => s
  | some c =>
    let s := s.setTmp fun t => { t with mags := cellErase k t.mags }
    ((s.tmpShow).raise 0x0C8 0).log 0x1002 deviceTc (k + satNat 32 (s.msSince c.2.since) * 2 ^ 32)

/-- An enclosure condition is released. -/
def State.encRelease (s : State) (k : Nat) : State :=
  match s.tmp.encs.find? (·.1 == k) with
  | none => s
  | some c =>
    let s := s.setTmp fun t => { t with encs := cellErase k t.encs }
    ((s.tmpShow).raise 0x0C8 1).log 0x1012 deviceTc (k + satNat 32 (s.msSince c.2.since) * 2 ^ 32)

/-- The reading of a Hall site is shown. -/
def State.hallShow (s : State) (k b : Nat) : State :=
  if k = 0 then s.wr TMP_HB0 b else if k = 1 then s.wr TMP_HB1 b else s

/-- MAG_ON (R405): a magnetic source has met its threshold for its dwell; `b` the reading and `peak` the peak of
|B| in 0.5 mT, for a Hall site. -/
def execMagOn (source : Fin 10) (b peak : BitVec 16) (s : State) : Result :=
  .next (
    let k := source.val
    let s := s.hallShow k b.toNat
    if s.tmp.mags.any (·.1 == k) || !s.magWired k || (decide (k < 2) && decide (b.toNat < s.cfg TMP_HTH)) then s
    else
      let s := s.setTmp fun t => { t with mags := cellInsert k ⟨s.clk, 0⟩ t.mags }
      (((s.tmpShow).count TMP_MAGN).raise 0x0C8 0).log 0x1001 deviceTc
        (k + (if k < 2 then peak.toNat else 0) * 2 ^ 16))

/-- MAG_OFF (R405): a magnetic source has been below its release level for its dwell. -/
def execMagOff (source : Fin 10) (b : BitVec 16) (s : State) : Result :=
  .next (
    let k := source.val
    let s := s.hallShow k b.toNat
    if k < 2 ∧ s.cfg TMP_HTH - s.cfg TMP_HHYS ≤ b.toNat then s else s.magRelease k)

/-- ENC_OPEN (R405): an enclosure input has been active for its debounce. -/
def execEncOpen (input : Fin 4) (s : State) : Result :=
  .next (
    let k := input.val
    if s.tmp.encs.any (·.1 == k) || !bit (s.cfg TMP_EEN) k then s
    else
      let s := s.setTmp fun t => { t with encs := cellInsert k ⟨s.clk, 0⟩ t.encs }
      (((s.tmpShow).count TMP_ENCN).raise 0x0C8 1).log 0x1011 deviceTc k)

/-- ENC_CLOSE (R405): an enclosure input has been inactive for its debounce. -/
def execEncClose (input : Fin 4) (s : State) : Result := .next (s.encRelease input.val)

/-! ## Glitches (R406) -/

/-- A glitch of detector `k` opens its run with an entry, or counts in it. -/
def State.glitch (s : State) (k code data : Nat) : State :=
  match s.tmp.runs.find? (·.1 == k) with
  | some r => s.setTmp fun t => { t with runs := cellInsert k ⟨r.2.count + 1, s.clk⟩ t.runs }
  | none =>
    ((s.setTmp fun t => { t with runs := cellInsert k ⟨0, s.clk⟩ t.runs }).raise 0x0C8 2).log code deviceTc data

/-- The run of detector `k` ends with its count of later glitches. -/
def State.glitchEnd (s : State) (k : Nat) : State :=
  match s.tmp.runs.find? (·.1 == k) with
  | none => s
  | some r =>
    let s := s.setTmp fun t => { t with runs := cellErase k t.runs }
    let code := if k < 6 then 0x1022 else 0x1032
    s.log code deviceTc ((if k < 6 then k else k - 6) + satNat 32 r.2.count * 2 ^ 32)

/-- SUPPLY_GLITCH (R406): a supply below 85 %, or above 115 %, of its set point. -/
def execSupplyGlitch (supply : Fin 6) (high : Bool) (s : State) : Result :=
  .next ((s.count TMP_SGLN).glitch supply.val 0x1021 (supply.val + (1 + b2n high) * 2 ^ 8))

/-- XT32 stops: CD00 and CD57 move to ROSC, the run opens, UTC counts as estimated (R30, R406). -/
def State.xt32Stops (s : State) : State :=
  if s.ctf.xt32 then
    let s := { s with ctf := { s.ctf with xt32 := false } }
    ((((s.wr CTF_UTC_EST 1).raise 0x010 7).count TMP_CGLN).glitch 7 0x1031 1).tmpShow
  else s

/-- CLOCK_GLITCH (R406): a fault of REF48, or a stop of XT32. -/
def execClockGlitch (xt32 : Bool) (s : State) : Result :=
  .next (if xt32 then s.xt32Stops else (s.count TMP_CGLN).glitch 6 0x1031 0)

/-- XT32_STOP (R30): the crystal stops. -/
def execXt32Stop (s : State) : Result := .next s.xt32Stops

/-- XT32_RESTART (R406): the crystal runs again; the run that its stop opened ends. -/
def execXt32Restart (s : State) : Result :=
  .next (
    if s.ctf.xt32 then s
    else
      let s := { s with ctf := { s.ctf with xt32 := true } }
      ((s.wr CTF_UTC_EST (b2n s.ctf.utcLost)).glitchEnd 7).tmpShow)

/-- GLITCH_RUN_END (R406): 1,000 ms without a glitch of a detector; the run of a stopped XT32 goes on. -/
def execGlitchRunEnd (detector : Fin 8) (s : State) : Result :=
  .next (
    let k := detector.val
    match s.tmp.runs.find? (·.1 == k) with
    | none => s
    | some r => if k = 7 then s else (s.waitUntil (r.2.last + msTicks 1000)).glitchEnd k)

/-! ## Temperature -/

/-- The limits of the range in 0.1 °C: TMP_TLO is signed, TMP_THI, whose reset value 0x82 is +130, is not (Table
16-7, log entry 34). -/
def State.tempLow (s : State) : Int := 10 * signed 8 (s.cfg TMP_TLO)
def State.tempHigh (s : State) : Int := 10 * (s.cfg TMP_THI : Int)

/-- TEMP_OUT (R405): a reading, in 0.1 °C, outside the range, or none valid for 1 ms. -/
def execTempOut (valid : Bool) (temp : BitVec 16) (s : State) : Result :=
  .next (
    let t := temp.toInt
    let low := decide (t < s.tempLow)
    let high := decide (s.tempHigh < t)
    if s.tmp.temp.isSome || (valid && !low && !high) then s
    else
      let kind := if !valid then 2 else if low then 0 else 1
      let s := s.setTmp fun x => { x with temp := some ⟨s.clk, kind⟩ }
      ((s.tmpShow).raise 0x0C8 3).log 0x1041 deviceTc
        (kind + (if valid then unsigned 8 (divRound t 10) else 0) * 2 ^ 8))

/-- TEMP_BACK (R405): a valid reading, in 0.1 °C, inside the range by TMP_THYS for 100 ms. -/
def execTempBack (temp : BitVec 16) (s : State) : Result :=
  .next (
    let t := temp.toInt
    let h : Int := 10 * s.cfg TMP_THYS
    match s.tmp.temp with
    | none => s
    | some c =>
      if t < s.tempLow + h ∨ s.tempHigh - h < t then s
      else
        let s := s.setTmp fun x => { x with temp := none }
        ((s.tmpShow).raise 0x0C8 3).log 0x1042 deviceTc (c.kind + satNat 32 (s.msSince c.since) * 2 ^ 32))

/-! ## Coverage and boundaries -/

/-- The channels covered by a magnetic condition at a boundary (R407), by the configuration that it brings into
force. -/
def State.fieldMask (s : State) : Nat :=
  s.tmp.mags.foldl (fun a x => a ||| (s.cfg (TMP_COV_LO x.1) + 2 ^ 32 * s.cfg (TMP_COV_HI x.1))) 0

/-- The configuration of the monitors takes effect at a boundary: conditions of inputs no longer wired are
released (R405, R429). -/
def State.tmpBoundary (s : State) : State :=
  let s := (s.tmp.mags.filter fun x => !s.magWired x.1).foldl (fun s x => s.magRelease x.1) s
  (s.tmp.encs.filter fun x => !bit (s.cfg TMP_EEN) x.1).foldl (fun s x => s.encRelease x.1) s

/-! ## Carry runs of sample words (R410) -/

/-- A word of a converter fails at consumers: bit 0 the CTF, 1 metrology, 2 power quality. -/
def State.carryFail (s : State) (conv mask : Nat) : State :=
  let r := cellAt {} conv s.tmp.carry
  let opens := r.cycles == 0 && r.now == 0
  let s := s.setTmp fun t => { t with
    carry := cellInsert conv { r with words := r.words + 1, now := r.now ||| mask } t.carry }
  if opens then s.log 0x3001 1 (conv + mask * 2 ^ 8 + s.stamp.cyc % 2 ^ 32 * 2 ^ 32) else s

/-- A cycle ends: runs without a failing word in it end with their counts. -/
def State.carryCycle (s : State) : State :=
  s.tmp.carry.foldl (fun s x =>
    if x.2.now = 0 then
      (s.setTmp fun t => { t with carry := cellErase x.1 t.carry }).log 0x3002 1
        (x.1 + satNat 16 x.2.cycles * 2 ^ 16 + satNat 32 x.2.words * 2 ^ 32)
    else s.setTmp fun t => { t with
      carry := cellInsert x.1 { x.2 with cycles := x.2.cycles + 1, now := 0 } t.carry }) s

/-! ## Registers (R429) -/

/-- The check of a write of page 0x0C8. -/
def tmpCheck (off d : Nat) : Status :=
  let dwell (n : Nat) : Bool := decide (10 ≤ n) && decide (n ≤ 10000)
  let ok := match off with
    | 0x040 => decide (20 ≤ bits d 0 8) && decide (bits d 8 8 < bits d 0 8) && dwell (bits d 16 16)
    | 0x044 => dwell (bits d 16 16)
    | 0x048 => bits d 8 8 != 0
    | 0x04C => decide (signed 8 (bits d 0 8) < (bits d 8 8 : Int)) && bits d 16 4 != 0
    | _ => true
  if ok then .ok else .cfgInvalid

/-- Writes of page 0x0C8: an accepted write is logged as TMP_CONFIG, a pair of words as two entries. -/
def tmpWrite : Writer := fun s q d =>
  let c := tmpCheck q.off d
  if c = .ok then
    let s := s.storeWord q.page q.off d
    let entry (s : State) (o : Nat) : State := s.log 0x4041 deviceTc (o / 4 + s.reg q.page o * 2 ^ 32)
    let s := if 0x100 ≤ q.off then entry s (q.off - 4) else s
    (.ok, (entry s q.off).wr TMP_CCODE 0)
  else (c, s.wr TMP_CCODE (codeOf c))

end Sys2Proof.Machine
end

