-- ==== Sys2Proof/Machine/Level.lean ====
section
/-! DEFINITION. What every change of the degrade level does (R531 to R533): the rails and AUXOUT of the level
(Table 20-6, R503, R506 to R509), the entry actions of each block, the evidence; and the AUXOUT sequence. -/

namespace Sys2Proof.Machine

open Reg

/-- The state with what the monitors hold changed. -/
def State.setMon (s : State) (f : MonState → MonState) : State := { s with mon := f s.mon }

/-! ## The AVS rails (R503) -/

/-- The nearest code inside an envelope. -/
def clampCode (lo hi c : Nat) : Nat := max lo (min hi c)

/-- The code of VCORE under software control: PMU_VC_D3 in D3, the pinned code, or the code within the
envelope (R503). -/
def State.vcoreCode (s : State) (c : Nat) : Nat :=
  if 3 ≤ s.level then s.rd PMU_VC_D3
  else if s.on PMU_VC_PIN then s.rd PMU_VC_PINV
  else clampCode (s.rd PMU_VC_MIN) (s.rd PMU_VC_MAX) c

/-- The code of VTUN under software control: 0 while it is off, which it is below D1 (R504, Table 20-6). -/
def State.vtunCode (s : State) (c : Nat) : Nat :=
  if 2 ≤ s.level then 0
  else if s.on PMU_VT_PIN then s.rd PMU_VT_PINV
  else clampCode (s.rd PMU_VT_MIN) (s.rd PMU_VT_MAX) c

/-- The code at which a rail starts (Table 20-2). -/
def startCode : Nat := 60

/-- The rails of the level, in the order of PMU_PG. The power-good of LPDDR4X follows PMU_DDREN (log
entry 29). -/
def State.railsGood (s : State) : Nat :=
  if !s.pmu.railsUp then 2 ^ 6
  else
    2 ^ 0 + 2 ^ 2 + 2 ^ 4 + 2 ^ 5 + 2 ^ 6 + (if s.level ≤ 1 then 2 ^ 1 else 0)
      + (if s.level ≤ 2 then 2 ^ 3 + 2 ^ 8 else 0) + (if s.rd PMU_AUX_ST = 2 then 2 ^ 7 else 0)

/-- The rails follow the level, the envelopes and the pins, except a rail that the supply loop holds (R503,
R517, R526). -/
def State.railsFollow (s : State) : State :=
  if s.pmu.railsUp then
    let s := if 0 ∈ s.mon.overs then s else s.wr PMU_VC_SET (s.vcoreCode (s.rd PMU_VC_SET))
    let off := s.rd PMU_VT_SET = 0 && !bit (s.rd PMU_PG) 1
    let s :=
      if 1 ∈ s.mon.overs ∧ s.level ≤ 1 then s
      else s.wr PMU_VT_SET (s.vtunCode (if off then startCode else s.rd PMU_VT_SET))
    s.wr PMU_PG s.railsGood
  else (s.wr PMU_VT_SET 0).wr PMU_PG s.railsGood

/-! ## AUXOUT (R506 to R509) -/

/-- AUXOUT's states (Table 20-10). -/
def auxOff : Nat := 0
def auxRamp : Nat := 1
def auxGood : Nat := 2
def auxWait : Nat := 3
def auxLatched : Nat := 4

/-- AUXOUT may run (R506). -/
def State.auxMay (s : State) : Bool :=
  s.pmu.railsUp && s.on PMU_AUX_EN && (decide (s.level ≤ 2) || s.on PMU_AUX_D3)

/-- AUXOUT takes a state; the moment is kept, and the tone channel is told (R509). -/
def State.setAux (s : State) (st : Nat) : State :=
  let was := s.rd PMU_AUX_ST
  let s := (s.setPmu fun p => { p with aux := s.clk }).wr PMU_AUX_ST st
  let s := s.wr PMU_PG s.railsGood
  let s := if (st = auxGood ∨ was = auxGood ∨ st = auxLatched) ∧ st ≠ was then s.raise 0x0E8 3 else s
  if st = auxGood then s.pltAuxUp else s.pltAuxDown

/-- Attempt 1 starts, with no failed attempts (R508). -/
def State.auxStart (s : State) : State := (s.wr PMU_AUX_ATT 0).setAux auxRamp

/-- AUXOUT is switched off; the sequence is over. -/
def State.auxStop (s : State) : State := ((s.wr PMU_AUX_ATT 0).wr PMU_AUX_MV 0).setAux auxOff

/-- AUXOUT follows the level and PMU_AUX_EN. -/
def State.auxFollow (s : State) : State :=
  let st := s.rd PMU_AUX_ST
  if !s.auxMay then (if st = auxOff then s.pltAuxDown else s.auxStop)
  else if st = auxOff then s.auxStart
  else s

/-- The output is at or above 70 % of the set voltage. -/
def State.auxHolds (s : State) (mv : Nat) : Bool :=
  decide ((if s.on PMU_AUX_V then 12000 else 5000) * 7 ≤ mv * 10)

/-- An attempt has failed (R507): AUXOUT is off, and latched off after the fourth in a row. -/
def State.auxFail (s : State) : State :=
  let n := min 4 (s.rd PMU_AUX_ATT + 1)
  let s := (s.wr PMU_AUX_ATT n).count PMU_AUXFLTN
  let s := s.log 0x2034 deviceTc (n + (if n = 4 then 256 else 0))
  s.setAux (if n = 4 then auxLatched else auxWait)

/-- AUX_ATTEMPT (R507): 250 ms after a switch-off the next attempt starts. -/
def execAuxAttempt (s : State) : Result :=
  .next (
    if s.rd PMU_AUX_ST ≠ auxWait then s
    else (s.waitUntil (s.pmu.aux + msTicks 250)).setAux auxRamp)

/-- AUX_ATTEMPT_CHECK (R507): the output at the end of the ramp plus 1 ms. -/
def execAuxAttemptCheck (mv : BitVec 16) (s : State) : Result :=
  .next (
    if s.rd PMU_AUX_ST ≠ auxRamp then s
    else
      let s := (s.waitUntil (s.pmu.aux + msTicks 5)).wr PMU_AUX_MV mv.toNat
      if s.auxHolds mv.toNat then s.setAux auxGood else s.auxFail)

/-- AUX_DROP (R507, R509): the output of a running AUXOUT has lain below 70 % for 1 ms. -/
def execAuxDrop (mv : BitVec 16) (s : State) : Result :=
  .next (
    if s.rd PMU_AUX_ST ≠ auxGood ∨ s.auxHolds mv.toNat then s
    else (s.wr PMU_AUX_MV mv.toNat).auxFail)

/-- AUX_GOOD_HOLD (R507): good for 10 s without a break. -/
def execAuxGoodHold (s : State) : Result :=
  .next (
    if s.rd PMU_AUX_ST ≠ auxGood then s
    else (s.waitUntil (s.pmu.aux + msTicks 10000)).wr PMU_AUX_ATT 0)

/-! ## A transition (R531 to R533) -/

/-- The entry actions of D2 (R235, R260, R290). -/
def State.enterD2 (s : State) : State := s.tunEnterD2.ltrEnterD2.barmEnterD2

/-- The entry actions of D3 (R216, R303, R384, R403, R452, R476, R535, R556). -/
def State.enterD3 (s : State) : State :=
  let s := s.pqeEnterD3.ccxEnterD3.plmEnterD3
  (s.secEnterD3.celEnterD3.swcEnterD3.endSessions).wr MON_ASCOK 0

/-- Aging of neighbours and routes restarts at the return to D2 (R384). -/
def State.agesRestart (s : State) : State :=
  let c := s.stamp.cyc
  s.setPlm fun p => { p with nbs := p.nbs.map fun x =>
    (x.1, { x.2 with heard := c, adv := x.2.adv.map fun a => { a with cyc := c } }) }

/-- What an ascent brings back: the Tun list and its counters, the lists; the chain and the powerline tables. -/
def State.leaveLevel (s : State) (old new : Nat) : State :=
  let s := if 3 ≤ old ∧ new ≤ 2 then s.swcReturn.agesRestart else s
  if 2 ≤ old ∧ new ≤ 1 then s.tunReturn.barmReturn else s

/-- The evidence of a transition (R533): one DEGRADE entry, ring records of kind 0x6, MON_DEGN, MON_I_LEVEL. -/
def State.tellLevel (s : State) (old new cause : Nat) : State :=
  let s := s.log 0x2021 deviceTc (old + new * 2 ^ 8 + cause * 2 ^ 16)
  ((s.ringAll 6 0 0 new).count MON_DEGN).raise 0x0F0 0

/-- The level becomes `new` through `cause`, with the entry actions of every level entered first (R532). -/
def State.transition (s : State) (new cause : Nat) : State :=
  let old := s.level
  let t := if old = 0 ∧ 1 ≤ new then s.degradeRunning else s
  let t := if old ≤ 1 ∧ 2 ≤ new then t.enterD2 else t
  let t := if old ≤ 2 ∧ 3 ≤ new then t.enterD3 else t
  let t := (t.wr MON_LVL new).wr MON_CAUSE cause
  let t := t.tellLevel old new cause
  let t := t.setMon fun m => { m with dwell := 0, lost := m.lost && decide (new ≤ 2) }
  let t := if new < old then t.leaveLevel old new else t
  ((t.railsFollow.auxFollow).chgFollow).gateFrom s

end Sys2Proof.Machine
end

