-- ==== Sys2Proof/Machine/Mon.lean ====
section
/-! DEFINITION. The monitors (chapter 21): sites, AVS, the supply and thermal loops, reference drift, the degrade
ladder, page 0x0F0. -/

namespace Sys2Proof.Machine

open Reg

/-! ## Overrides (R524) -/

/-- An action of a safety loop on quantity `c` of Table 21-3: the first of an episode counts and is logged. -/
def State.override (s : State) (c : Nat) : State :=
  if c ∈ s.mon.overs then s
  else
    let s := s.count (MON_OVR c)
    let s := (s.log 0x2022 deviceTc (c + s.rd (MON_OVR c) * 2 ^ 32)).raise 0x0F0 1
    s.setMon fun m => { m with overs := c :: m.overs }

/-- The episode of quantity `c` ends. -/
def State.handBack (s : State) (c : Nat) : State := s.setMon fun m => { m with overs := m.overs.filter (· != c) }

/-- The divisor in force is the larger of the two loops' (R527); a change above 1 degrades what runs (R237). -/
def State.throttle (s : State) : State :=
  let d := max s.mon.thDiv s.mon.supDiv
  if d = s.rd MON_TDIV then s
  else
    let s := ((s.wr MON_TDIV d).wr TUN_THDIV d).raise 0x0F0 2
    if d = 1 then s.handBack 2 else (s.override 2).degradeRunning

/-! ## AVS (R525) -/

/-- The lowest margin of the process sites of an AVS rail: 0 VCORE, 1 VTUN. -/
def State.leastMargin (s : State) (rail : Nat) : Int :=
  ((List.range 6).map fun k => signed 16 (s.rd (MON_PM (6 * rail + k)))).foldl min 32767

/-- The code after one step of regulation. -/
def State.avsCode (s : State) (rail c : Nat) : Nat :=
  let m := s.leastMargin rail
  if (s.rd MON_AVS_TGT + s.rd MON_AVS_HYS : Int) < m then c - 1
  else if m < (s.rd MON_AVS_TGT : Int) then c + 1
  else c

/-- AVS_STEP (R525): every 1 ms, each AVS rail that runs under software control and is not pinned. -/
def execAvsStep (s : State) : Result :=
  .next (
    if s.pmu.railsUp = false then s
    else
      let s := if 0 ∈ s.mon.overs then s else s.wr PMU_VC_SET (s.vcoreCode (s.avsCode 0 (s.rd PMU_VC_SET)))
      if 1 ∈ s.mon.overs ∨ 2 ≤ s.level then s
      else s.wr PMU_VT_SET (s.vtunCode (s.avsCode 1 (s.rd PMU_VT_SET))))

/-! ## Supply loop (R526) -/

/-- A reading in mV lies below 92 % of the voltage of a code. -/
def underVolt (mv code : Nat) : Bool := decide (1000 * mv < 92 * (6500 + 25 * code))

/-- The register of an AVS rail's code. -/
def railCode (rail : Nat) : Fld := if rail = 0 then PMU_VC_SET else PMU_VT_SET

/-- A condition of the supply loop holds for a rail: a margin below MON_MARG_MIN, or a voltage site below 92 % in
every reading of the pass. -/
def State.railShort (s : State) (rail : Nat) (volts : List (List (BitVec 16))) : Bool :=
  decide (s.leastMargin rail < (s.rd MON_MARG_MIN : Int))
    || ((volts.drop (8 * rail)).take 8).any fun l =>
      l != [] && l.all fun v => underVolt v.toNat (s.rd (railCode rail))

/-- A rail at code 80 is still short: VCORE is reported, VTUN divides the Tun clock every 10 ms. -/
def State.railTop (s : State) (rail : Nat) : State :=
  if rail = 0 then (if s.on MON_VCFAIL then s else (s.wr MON_VCFAIL 1).raise 0x0F0 3)
  else
    let n := s.mon.top + 1
    let s := s.setMon fun m => { m with top := n }
    if n % 100 = 0 then (s.setMon fun m => { m with supDiv := min 8 (2 * m.supDiv) }).throttle else s

/-- One pass of the supply loop over a rail. -/
def State.supplyRail (s : State) (rail : Nat) (volts : List (List (BitVec 16))) : State :=
  if s.railShort rail volts then
    let s := s.setMon fun m => { m with clear := cellPut 0 rail 0 m.clear }
    let c := s.rd (railCode rail)
    if 80 ≤ c then s.railTop rail else (s.override rail).wr (railCode rail) (min 80 (c + 4))
  else
    let n := cellAt 0 rail s.mon.clear + 1
    let s := s.setMon fun m => { m with clear := cellPut 0 rail n m.clear, top := if rail = 1 then 0 else m.top }
    if n < 100 then s
    else
      let s := if rail ∈ s.mon.overs then (s.handBack rail).railsFollow else s
      if rail = 0 then s.wr MON_VCFAIL 0 else (s.setMon fun m => { m with supDiv := 1 }).throttle

/-- SUPPLY_LOOP (R520, R526): one pass of 100 µs: the margins of PS00 to PS11, and for VS00 to VS23 the readings since
the last pass. -/
def execSupplyLoop (margins : List (BitVec 16)) (volts : List (List (BitVec 16))) (s : State) : Result :=
  .next (
    let s := (margins.take 12).zipIdx.foldl (fun s x => s.wr (MON_PM x.2) x.1.toNat) s
    let s := (volts.take 24).zipIdx.foldl (fun s x =>
      match x.1.getLast? with
      | some v => s.wr (MON_VS x.2) v.toNat
      | none => s) s
    if s.pmu.railsUp = false then s
    else
      let s := s.supplyRail 0 volts
      if 2 ≤ s.level then s else s.supplyRail 1 volts)

/-! ## Thermal loop (R521, R527) -/

/-- A reading in 0.1 °C that is valid (R521). -/
def tempValid (t : Int) : Bool := decide (-550 ≤ t) && decide (t ≤ 1500)

/-- One reading of a site: it is shown, and the site becomes invalid or valid again. -/
def State.tempSite (s : State) (k : Nat) (t : Int) : State :=
  let s := s.wr (MON_TS k) (unsigned 16 t)
  match s.mon.bad.find? (·.1 == k) with
  | none =>
    if tempValid t then s
    else (s.setMon fun m => { m with bad := m.bad ++ [(k, 0)] }).raise 0x0F0 5
  | some (_, n) =>
    if !tempValid t then s.setMon fun m => { m with bad := m.bad.map fun x => if x.1 = k then (k, 0) else x }
    else if n + 1 < 100 then
      s.setMon fun m => { m with bad := m.bad.map fun x => if x.1 = k then (k, n + 1) else x }
    else s.setMon fun m => { m with bad := m.bad.filter (·.1 != k) }

/-- The site counts in the loops. -/
def State.siteValid (s : State) (k : Nat) : Bool := !s.mon.bad.any (·.1 == k)

/-- MON_THOT, MON_TCOLD and MON_TSBADN; they hold their values while no site is valid. -/
def State.tempShow (s : State) : State :=
  let l := ((List.range 16).filter s.siteValid).map fun k => signed 16 (s.rd (MON_TS k))
  let s := s.wr MON_TSBADN s.mon.bad.length
  match l with
  | [] => s
  | t :: r => (s.wr MON_THOT (unsigned 16 (r.foldl max t))).wr MON_TCOLD (unsigned 16 (r.foldl min t))

/-- Three or more sites are invalid. -/
def State.sitesBad (s : State) : Bool := decide (3 ≤ s.mon.bad.length)

/-- T_hot in 0.1 °C; with three or more invalid sites at least MON_TD1 (R521). -/
def State.tHot (s : State) : Int :=
  let t := signed 16 (s.rd MON_THOT)
  if s.sitesBad then max t (10 * s.rd MON_TD1 : Nat) else t

/-- A count that goes on while a condition holds. -/
def countWhile (b : Bool) (n : Nat) : Nat := if b then n + 1 else 0

/-- A temperature has reached a threshold in °C. -/
def hotAt (t : Int) (thr : Nat) : Bool := decide ((10 * thr : Nat) ≤ t)

/-- A temperature lies below a threshold less the hysteresis. -/
def coolAt (t : Int) (thr hys : Nat) : Bool := decide (t < (10 * thr : Int) - 10 * hys)

/-- The divisor stage. -/
def State.divisorStep (s : State) (t : Int) : State :=
  let thr := s.rd MON_TTHR
  let s := s.setMon fun m => { m with
    divHot := countWhile (hotAt t thr) m.divHot, divCool := countWhile (coolAt t thr (s.rd MON_THYS)) m.divCool
    divAge := m.divAge + 1 }
  let m := s.mon
  if 10 ≤ m.divHot ∧ 100 ≤ m.divAge ∧ m.thDiv < 8 then
    (s.setMon fun m => { m with thDiv := 2 * m.thDiv, divAge := 0 }).throttle
  else if 1000 ≤ m.divCool ∧ 1000 ≤ m.divAge ∧ 1 < m.thDiv then
    (s.setMon fun m => { m with thDiv := m.thDiv / 2, divAge := 0 }).throttle
  else s

/-- The mask stage of cluster `k`; a site that is not valid changes nothing. -/
def State.maskStep (s : State) (k : Nat) : State :=
  if !s.siteValid k then s
  else
    let t := signed 16 (s.rd (MON_TS k))
    let thr := s.rd MON_TCLU
    let hot := countWhile (hotAt t thr) (cellAt 0 k s.mon.cluHot)
    let cool := countWhile (coolAt t thr (s.rd MON_THYS)) (cellAt 0 k s.mon.cluCool)
    let s := s.setMon fun m => { m with cluHot := cellPut 0 k hot m.cluHot, cluCool := cellPut 0 k cool m.cluCool }
    let mask := s.rd MON_TMASK
    if 10 ≤ hot then (if bit mask k then s else (s.wr MON_TMASK (setBit mask k)).override 3)
    else if 1000 ≤ cool then s.wr MON_TMASK (clearBit mask k)
    else s

/-- What a change of the mask leads to (R289, R524, R527). -/
def State.maskTell (s : State) (old : Nat) : State :=
  let new := s.rd MON_TMASK
  if new = old then s
  else
    let s := s.raise 0x0F0 2
    let s := if new = 0 then s.handBack 3 else s
    if s.pageRuns 0x098 then s.computeCapacity.startAll else s

/-- The runs that the ladder counts, one millisecond on. -/
def State.ladderStep (s : State) (t : Int) : State :=
  let h := s.rd MON_THYS
  let d1 := s.rd MON_TD1
  let d2 := s.rd MON_TD2
  s.setMon fun m => { m with
    hot1 := countWhile (hotAt t d1) m.hot1, hot2 := countWhile (hotAt t d2) m.hot2
    cool1 := countWhile (coolAt t d1 h) m.cool1, cool2 := countWhile (coolAt t d2 h) m.cool2, dwell := m.dwell + 1 }

/-- THERMAL_LOOP (R520, R521, R527): one pass of 1 ms with the readings of TS00 to TS15 in 0.1 °C. -/
def execThermalLoop (temps : List (BitVec 16)) (s : State) : Result :=
  .next (
    let s := ((temps.take 16).zipIdx.foldl (fun s x => s.tempSite x.2 (signed 16 x.1.toNat)) s).tempShow
    let t := s.tHot
    let s := s.divisorStep t
    let old := s.rd MON_TMASK
    (((List.range 8).foldl State.maskStep s).maskTell old).ladderStep t)

/-! ## Reference drift (R528) -/

/-- A bandgap reading, in codes of 96.334 nV, departs from 600.0 mV by more than 3.0 mV (R584, Table 5-6). -/
def bandgapOff (mean : Int) : Bool := decide (3000000000 < (mean * 96334 - 600000000000).natAbs)

/-- DXn has reported the bandgap at this boundary with OK or HOLDOVER. -/
def State.bandgapRead (s : State) (n : Nat) : Bool :=
  let code := s.rd (if n = 0 then ACS_DX0_CODE else ACS_DX1_CODE)
  s.cfg (if n = 0 then ACS_DX0_SRC else ACS_DX1_SRC) == 1 && s.rd (ACS_MUX 8 (8 + n)) == 3
    && (code == codeOf .ok || code == codeOf .holdover)

/-- The comparison at a cycle boundary, for DX0 or DX1. -/
def State.refCompare (s : State) (n : Nat) : State :=
  if !s.bandgapRead n then s
  else if bandgapOff (signed 24 (s.rd (if n = 0 then ACS_DX0_MEAN else ACS_DX1_MEAN))) then
    (((s.setMon fun m => { m with good := 0 }).wr MON_REFDRIFT 1).count MON_REFN).raise 0x0F0 4
  else
    let s := s.setMon fun m => { m with good := m.good + 1 }
    if 64 ≤ s.mon.good then s.wr MON_REFDRIFT 0 else s

/-! ## The degrade ladder (R529 to R531) -/

/-- The level that heat requires. -/
def State.heatLevel (s : State) : Nat :=
  if 10 ≤ s.mon.hot2 then 2 else if 10 ≤ s.mon.hot1 ∨ s.sitesBad = true then 1 else 0

/-- An inference window begins here (R267, R531). -/
def State.atWindow (s : State) : Bool := s.stamp.cyc == s.windowFirst && s.stamp.ph == 0

/-- DEGRADE_DESCENT (R529, R531): the lowest level that a row of Table 21-4 requires now. -/
def execDegradeDescent (s : State) : Result :=
  .next (
    let heat := s.heatLevel
    let cap := s.rd MON_CAP
    if s.mon.lost ∧ s.level < 3 then s.transition 3 3
    else if s.level < heat ∧ (cap ≤ heat ∨ s.atWindow = false) then s.transition heat 1
    else if s.level < cap ∧ s.atWindow = true then s.transition cap 0
    else s)

/-- A step up from D2 or D1 may occur (R530, R536). -/
def State.mayAscend (s : State) : Bool :=
  let l := s.level
  let wait := s.rd MON_UPDWELL * 1000
  s.on MON_ASCOK && decide (s.rd MON_CAP < l) && decide (s.heatLevel < l) && !s.mon.lost
    && decide (wait ≤ (if l = 2 then s.mon.cool2 else s.mon.cool1)) && decide (wait ≤ s.mon.dwell)
    && !(s.rd PMU_WAKE_SRC == 2 && s.rd PMU_PST == pstOnPack)

/-- DEGRADE_ASCENT (R530, R531, Table 22-7). -/
def execDegradeAscent (s : State) : Result :=
  .next (
    let l := s.level
    if l = 3 then (if s.rd PMU_PST = pstOnVin then s.transition 2 4 else s)
    else if l ≠ 0 ∧ s.mayAscend = true ∧ s.atWindow = true then s.transition (l - 1) 7
    else s)

/-- INSPECT_EXPIRE (R536): a start on the pack has run MON_INSPECT seconds. -/
def execInspectExpire (s : State) : Result :=
  .next (
    if s.rd PMU_WAKE_SRC ≠ 2 ∨ s.rd PMU_PST ≠ pstOnPack ∨ s.on PMU_VINOK = true ∨ s.level ≠ 2 then s
    else (s.waitUntil (s.start.since + msTicks (1000 * s.rd MON_INSPECT))).transition 3 6)

/-! ## Page 0x0F0 (R522, R527, R534 to R537) -/

/-- The range checks of Table 21-7. -/
def monRange (off d : Nat) : Bool :=
  let b (k : Nat) : Nat := bits d (8 * k) 8
  match off with
  | 0x040 => bits d 0 2 != 3
  | 0x048 =>
    decide (60 ≤ b 0) && decide (b 0 ≤ b 1) && decide (b 1 ≤ b 2) && decide (b 2 ≤ b 3) && decide (b 0 ≤ 110)
      && decide (b 1 ≤ 114) && decide (b 2 ≤ 117) && decide (b 3 ≤ 120)
  | 0x04C => decide (2 ≤ bits d 0 4) && b 1 != 0
  | 0x050 =>
    decide (20 ≤ b 0) && decide (b 0 ≤ 200) && decide (1 ≤ b 1) && decide (b 1 ≤ 100) && decide (10 ≤ b 2)
      && decide (b 2 < b 0)
  | _ => true

/-- A write of 1 to MON_ASCEND (R535). -/
def State.ascend (s : State) : Status × State :=
  if 3 ≤ s.level then (.prot, s)
  else if s.on MON_ASCOK then (.skipped, s)
  else (.ok, s.wr MON_ASCOK 1)

/-- Writes of page 0x0F0. -/
def monWrite : Writer := fun s q d =>
  let r : Status × State :=
    if !monRange q.off d then (.cfgInvalid, s)
    else if q.off = 0x04C ∧ bits d 16 16 = 0 then (.zeroLen, s)
    else
      let s := s.storeWord q.page q.off d
      if q.off = 0x040 ∧ bit d 8 = true then s.ascend else (.ok, s)
  (r.1, r.2.wr MON_CCODE (codeOf r.1))

/-- MON_CAP (R534): a write of the field. -/
def execMonCap (cap : Fin 4) (w : RegWrite) (s : State) : Result :=
  .next (s.writeReg monWrite 0x0F0 0x040 w fun d => putBits d 0 2 cap.val)

/-- MON_ASCEND (R535): a write of 1. -/
def execMonAscend (w : RegWrite) (s : State) : Result := .next (s.writeReg monWrite 0x0F0 0x040 w (setBit · 8))

end Sys2Proof.Machine
end

