-- ==== Sys2Proof/Machine/Seal.lean ====
section
/-! DEFINITION. The seal of TC01 (R110 to R112, R545) and the sealed copy in the Cellar (Tables 4-5, 18-2): its
layout, its digest, the marker, the rewrite of a page from it (R87, R317). -/

namespace Sys2Proof.Machine

open Reg

/-- The pages of TC01. -/
def State.tc01Pages (s : State) : List Nat :=
  (List.range 1024).filter fun p => RegMap.assigned p && s.rd (OWN_TC p) == 1

/-! ## The sealed copy -/

/-- The first group and the number of groups of the sealed copy, and the group of the marker (Table 18-2). -/
def sealedCopy : Nat := celGroup 0x84000
def sealedLen : Nat := 2048
def sealMarker : Nat := celGroup 0x80200

/-- The configuration words of a page with every bit outside an RW field at zero (R85). -/
def State.configWords (s : State) (page : Nat) : List Nat :=
  (configOffs page).map fun o => s.reg page o &&& rwMask page o

/-- Words two to a group, the lower first. -/
def pairWords : List Nat → List Nat
  | [] => []
  | [a] => [a]
  | a :: b :: l => (a + b * 2 ^ 32) :: pairWords l

/-- The groups of a page in the sealed copy: page number, count of words and INTEG_CRC, then the words (log
entry 30). -/
def State.pageCopy (s : State) (page : Nat) : List Nat :=
  let w := s.configWords page
  (page + w.length * 2 ^ 16 + s.integRef page * 2 ^ 32) :: pairWords w

/-- The sealed copy: the pages of TC01 ascending, then zeros (Table 4-5, step 2). -/
def State.sealedGroups (s : State) : List Nat :=
  let l := s.tc01Pages.flatMap s.pageCopy
  (l ++ List.replicate (sealedLen - l.length) 0).take sealedLen

/-- The first 8 bytes of SHA-256 over the sealed copy (Table 4-5, step 4). -/
def copyDigest (l : List Nat) : Nat := trunc8 (groupBytes l)

/-- The sealed copy as read; none where a group is uncorrectable. -/
def State.readSealed (s : State) : Option (List Nat) × State :=
  let r := s.celReadRun sealedCopy sealedLen
  (if r.1.length = sealedLen then some r.1 else none, r.2.2)

/-- The entries of a sealed copy: page, INTEG_CRC, words. -/
def copyPages : Nat → List Nat → List (Nat × Nat × List Nat)
  | 0, _ => []
  | _, [] => []
  | fuel + 1, h :: l =>
    if h = 0 then []
    else
      let n := bits h 16 16
      let g := (n + 1) / 2
      (bits h 0 16, bits h 32 32, ((l.take g).flatMap fun d => [d % 2 ^ 32, d / 2 ^ 32]).take n)
        :: copyPages fuel (l.drop g)

/-- A page takes configuration words; bits outside RW fields stand (R87). -/
def State.putConfig (s : State) (page : Nat) (w : List Nat) : State :=
  (List.zip (configOffs page) w).foldl (fun s x =>
    let m := rwMask page x.1
    (s.setReg page x.1 ((s.reg page x.1 &&& (0xFFFFFFFF ^^^ m)) ||| (x.2 &&& m))).mendUpsets page x.1) s

/-- The sealed copy matches the marker: its entries (R111). -/
def State.checkedCopy (s : State) : Option (List (Nat × Nat × List Nat)) × State :=
  match s.celRead sealMarker with
  | (some d, _, s) =>
    let r := s.readSealed
    match r.1 with
    | some l => (if d ≠ 0 ∧ copyDigest l = d then some (copyPages 256 l) else none, r.2)
    | none => (none, r.2)
  | (none, _, s) => (none, s)

/-- Page `page` is rewritten from the sealed copy and the restoration logged; a copy that fails its check writes
nothing (R87, R317). -/
def State.rewritePage (s : State) (page : Nat) : Status × State :=
  let r := s.checkedCopy
  let x : Option (Nat × Nat × List Nat) := r.1.bind fun l => l.find? (·.1 == page)
  let c : Status := match x with
    | some y => if configCrc page (fun o => cellAt 0 o (List.zip (configOffs page) y.2.2)) = y.2.1 then .ok
        else .integFail
    | none => .integFail
  let s := if c = .ok then r.2.putConfig page ((x.map (·.2.2)).getD []) else r.2
  (c, s.log 0x4005 (s.rd (OWN_TC page)) (page + codeOf c * 2 ^ 16))

/-! ## Locks -/

/-- LOCK_HELD takes a value; every change is logged (R77). -/
def State.setHeld (s : State) (page : Nat) (b : Bool) : State :=
  if s.held page = b then s
  else (s.wr (LOCK_HELD page) (b2n b)).log 0x4004 (s.rd (OWN_TC page)) (page + b2n b * 2 ^ 16)

/-- LOCK_SEAL and STS_SEALED of a page. -/
def State.setSealed (s : State) (page : Nat) (b : Bool) : State :=
  (s.wr (LOCK_SEAL page) (b2n b)).wr (STS_SEALED page) (b2n b)

/-- Every page of TC01 is locked and sealed (Table 4-5, step 3). -/
def State.sealPages (s : State) : State :=
  s.tc01Pages.foldl (fun s p => (s.setHeld p true).setSealed p true) s

/-- LOCK_SEAL and STS_SEALED clear on every page of TC01; LOCK_HELD stays (R112, Table 4-5). -/
def State.unsealPages (s : State) : State := s.tc01Pages.foldl (fun s p => s.setSealed p false) s

/-- TNC_SEALED and its mirror on every context page. -/
def State.showSealed (s : State) (b : Bool) : State :=
  (List.range 64).foldl (fun s t => s.wr (TNC_CX_SEALED t) (b2n b)) (s.wr TNC_SEALED (b2n b))

/-! ## Sealing (R110, R111) -/

/-- A sealing ends with a failure. -/
def State.sealFailed (s : State) (c : Status) : State :=
  ((s.wr TNC_S_CODE (codeOf c)).wr TNC_S_BUSY 0).setTnc fun x => { x with sealing := none }

/-- TNC_SEAL_REQ (Table 4-5, steps 1 to 3); `lost`: the supply fails after so many groups of the copy. A request
while one runs changes nothing. -/
def State.sealRequest (s : State) (lost : Option Nat) : Status × State :=
  if s.on TNC_SEALED then (.prot, s)
  else if s.on TNC_S_BUSY then (.ok, s)
  else if s.tc01Pages.any fun p => s.on (STS_INTEGERR p) then (.ok, s.sealFailed .integFail)
  else if s.celBlocked then (.ok, s.sealFailed .powerLost)
  else
    let l := s.sealedGroups
    match lost with
    | some n => (.ok, (s.devWriteCut srcSealing areaSealed sealedCopy n l).sealFailed .powerLost)
    | none =>
      let s := (s.celWriteRun sealedCopy l).sealPages
      (.ok, (s.wr TNC_S_BUSY 1).setTnc fun x => { x with sealing := some (copyDigest l) })

/-- A sealing that waits for its marker fails with the supply: the pages return to LOCK_SEAL 0 (Table 4-5,
step 4). -/
def State.sealCut (s : State) : State :=
  match s.tnc.sealing with
  | none => s
  | some _ => (s.unsealPages.sealFailed .powerLost).celLost srcSealing 0xFFFF 0 areaMarker

/-- ACC_F_BAD of every channel clears (R182). -/
def State.clearBad (s : State) : State :=
  ((List.range 64).foldl (fun s c => s.wr (badFld false c) 0) s).setWide 0x048 0x044 2 0

/-- SEAL_COMPLETE (Table 4-5, steps 4 and 5): marker, log, TNC_SEALED, the first billed cycle, ring records. -/
def execSealComplete (s : State) : Result :=
  .next (
    match s.tnc.sealing with
    | none => s
    | some d =>
      if s.celBlocked then s.sealCut
      else
        let s := (s.celWrite sealMarker d).log 0x4021 1 d
        let s := (s.showSealed true).wr64 TNC_SC_LO TNC_SC_HI ((s.stamp.cyc + 1) % 2 ^ 48)
        let s := (s.clearBad.ringAll 5 0 0 1).wr TNC_S_BUSY 0
        (s.wr TNC_S_CODE (codeOf .ok)).setTnc fun x => { x with sealing := none, everSealed := true })

/-! ## Unsealing (R112) -/

/-- An arming of `t` is valid: within 65,536 ct. -/
def State.armValid (s : State) (t : Option Nat) : Bool :=
  match t with
  | some t => decide (s.ticks ≤ t + 65536)
  | none => false

/-- TNC_UNSEAL_REQ: the cycle in progress is billed, no later one is. -/
def State.unsealRequest (s : State) : Status × State :=
  let ok := s.armValid s.tnc.armed
  let s := s.setTnc fun x => { x with armed := none }
  let c : Status := if !ok then .timeout else if s.on TNC_SEALED then .ok else .cfgInvalid
  let s := s.wr TNC_S_CODE (codeOf c)
  if c = .ok then
    let s := (s.unsealPages.showSealed false).devWrite srcSealing areaMarker sealMarker [0]
    let s := (s.log 0x4022 1 (s.stamp.cyc % 2 ^ 32)).log 0x500C 1 (s.stamp.cyc % 2 ^ 32)
    (c, s.ringAll 5 0 0 0)
  else (c, s)

/-! ## Re-establishment (R545) -/

/-- Each page of a copy carries the INTEG_CRC recorded for it. -/
def copyMatches (l : List (Nat × Nat × List Nat)) : Bool :=
  l.all fun y => configCrc y.1 (fun o => cellAt 0 o (List.zip (configOffs y.1) y.2.2)) == y.2.1

/-- At a cold start the seal is re-established from the copy; a marker whose check fails leaves TC01 unsealed
with INTEG_FAIL and an entry; no marker, nothing (R545). -/
def State.sealRestore (s : State) : State :=
  if s.celRaw sealMarker = celWord sealMarker 0 then s
  else
    let r := s.checkedCopy
    match r.1 with
    | some l =>
      if copyMatches l then
        let s := l.foldl (fun s y => s.putConfig y.1 y.2.2) r.2
        let s := (l.foldl (fun s y => (s.setHeld y.1 true).setSealed y.1 true) s).showSealed true
        s.setTnc fun x => { x with everSealed := true }
      else (r.2.wr TNC_S_CODE (codeOf .integFail)).log 0x500C 1 (r.2.stamp.cyc % 2 ^ 32)
    | none => (r.2.wr TNC_S_CODE (codeOf .integFail)).log 0x500C 1 (r.2.stamp.cyc % 2 ^ 32)

/-- The seed has been accepted: the first cycle that opens after it is the first billed one (R545). -/
def State.sealSeeded (s : State) : State :=
  if s.on TNC_SEALED then s.wr64 TNC_SC_LO TNC_SC_HI ((s.ctf.cyc + 1) % 2 ^ 48) else s

end Sys2Proof.Machine
end

