-- ==== Sys2Proof/Machine/Tnc.lean ====
section
/-! DEFINITION. Tenancy (chapter 4): tenant states, grants and revocations, quotas and views, alias maps, tenant
resets, sealing requests, refill periods and latest times, arming windows, and pages 0x002 to 0x005 and 0x300 to
0x33F (R98 to R124). -/

namespace Sys2Proof.Machine

open Reg

/-! ## Page reset of a granted page (R67, R103) -/

/-- The effect of CTRL_PRST on a page that can be granted, with its entry: every RW field returns to reset, and the
rings, spills and drives that follow them. -/
def State.grantReset (s : State) (p : Nat) : State :=
  let s := s.resetRw p
  let s :=
    if 0x060 ≤ p ∧ p ≤ 0x06F then s.plsPageReset (p - 0x060)
    else if p = 0x070 then s.pqePageReset
    else if p = 0x110 then s.gpioShow
    else s
  s.log 0x4003 (s.rd (OWN_TC p)) p

/-- A page changes its owner: generation, page reset, LOCK_HELD (R103). -/
def State.movePage (s : State) (p t : Nat) : State :=
  let s := (s.wr (OWN_TC p) t).wr (OWN_GEN p) ((s.rd (OWN_GEN p) + 1) % 256)
  (s.grantReset p).setHeld p false

/-- The pending count and the spill that a move of a pulse output discards, as the entry of the move shows them
(Table 16-6). -/
def State.discarded (s : State) (p : Nat) : Nat :=
  if 0x060 ≤ p ∧ p ≤ 0x06F then
    satNat 16 (s.plsPending (p - 0x060)) + satNat 28 (s.spill (p - 0x060)) * 2 ^ 16
  else 0

/-! ## Grants and revocations (R102, R103) -/

/-- The holder of a resource of a class; the home owner where it is not granted. -/
def State.holderOf (s : State) (cls i : Nat) : Nat :=
  match cls with
  | 1 => s.rd (OWN_TC i)
  | 2 => s.slotOwn i
  | 3 => if s.unitState i = unitGranted then s.unitHolder i else 0
  | _ => s.epOwner i

/-- The index lies in the range of its class (Table 4-2); units 0 to 15 are the device's (R456). -/
def indexOk (cls i : Nat) : Bool :=
  match cls with
  | 1 => RegMap.grantable i
  | 2 => decide (i < 32)
  | 3 => decide (16 ≤ i) && decide (i < 64)
  | 4 => decide (i < 128)
  | _ => false

/-- The resource is at its home owner. -/
def State.atHome (s : State) (cls i : Nat) : Bool :=
  match cls with
  | 1 => s.rd (OWN_TC i) == RegMap.homeOwner i
  | 3 => s.unitState i == unitHome || s.unitState i == unitReserved
  | _ => s.holderOf cls i == 0

/-- PROTECTED by Table 4-2: a sealed page, a slot that holds a key or is the device's, a covered unit. -/
def State.moveBarred (s : State) (grant : Bool) (cls i t : Nat) : Bool :=
  match cls with
  | 1 => grant && s.on (STS_SEALED i)
  | 2 => grant && (i == 0 || s.slotType i != 0)
  | 3 => s.unitCovered i && (!grant || s.unitGrantWipes i t)
  | _ => false

/-- A grant or revoke command: the code that refuses it (R102). -/
def State.moveCheck (s : State) (grant : Bool) (cls i t : Nat) : Status :=
  let target := t != 0 && (t != 1 || cls == 2 || cls == 3) && s.tenant t == tenActive
  let ok := target && indexOk cls i
    && (if grant then s.atHome cls i else s.holderOf cls i == t && !(cls == 2 && i == 0))
  let c : Status := if ok then .ok else .cfgInvalid
  if indexOk cls i && s.moveBarred grant cls i t then firstOf .prot c else c

/-- Frames queued on endpoint `e` are SKIPPED, its key is erased, its partner bindings are dropped (Table 4-2). -/
def State.dropEndpoint (s : State) (e : Nat) : State :=
  let s := (s.plm.queue.filter fun f =>
      f.kind == 2 && f.ep == e && !s.plm.attempt.any (·.frame == f.id)).foldl
    (fun s f => s.endFrame f .skipped) s
  ((s.plmErase e).plmUnbind e).setPlm fun p => { p with owner := cellErase e p.owner }

/-- A revocation outside a command, by a full reset: its entry and its ring record (R102, R121). -/
def State.revokeTold (s : State) (t cls i detail : Nat) : State :=
  let s := s.log 0x4012 t (i + t * 2 ^ 10 + cls * 2 ^ 16 + detail * 2 ^ 20)
  s.ringRecord t 3 (codeOf .ok) cls i

/-- A resource of tenant `t` goes home, for a command or for a full reset (Table 4-2). -/
def State.revoke (s : State) (command : Bool) (cls i t : Nat) : State :=
  let told (s : State) (d : Nat) : State := if command then s.grantEnd d else s.revokeTold t cls i d
  match cls with
  | 1 => told (s.movePage i (RegMap.homeOwner i)) (s.discarded i)
  | 2 =>
    let s := if command then s else s.revokeTold t cls i 0
    (s.wr (SEC_S_OWN i) 0).eraseSlot i none command t
  | 3 =>
    let s := if command then s else s.revokeTold t cls i 0
    s.unitRevoke i command
  | _ => told (s.dropEndpoint i) 0

/-- A resource is granted to tenant `t` by the command (Table 4-2). -/
def State.grantTo (s : State) (cls i t : Nat) : State :=
  match cls with
  | 1 => (s.movePage i t).grantEnd (s.discarded i)
  | 2 => (s.wr (SEC_S_OWN i) t).grantEnd 0
  | 3 => s.unitGrant i t
  | _ => (s.setPlm fun p => { p with owner := cellPut 0 i t p.owner }).grantEnd 0

/-- A write of TNC_GCMD (R102). -/
def State.grantCommand (s : State) (d : Nat) : Status × State :=
  if s.on TNC_G_BUSY then (.refusedQuota, s)
  else
    let t := bits d 0 6
    let cls := bits d 8 4
    let grant := bit d 12
    let i := s.rd TNC_G_IDX
    let c := s.moveCheck grant cls i t
    let s := s.wr TNC_G_CODE (codeOf c)
    if c ≠ .ok then (c, s)
    else
      let s := (s.wr TNC_G_BUSY 1).setTnc fun x => { x with grantCmd := some ⟨t, cls, i, grant⟩ }
      (.ok, if grant then s.grantTo cls i t else s.revoke true cls i t)

/-- The words of TNC_GQOWN for the resource selected in TNC_GQSEL (Table 4-8). -/
def State.grantQuery (s : State) : Nat :=
  let cls := s.rd TNC_GQ_CLASS
  let i := s.rd TNC_GQ_IDX
  let known := if cls = 1 then RegMap.assigned i else (cls == 3 && decide (i < 64)) || indexOk cls i
  let busy := (cls == 2 && s.sec.erases.any (·.slot == i)) || (cls == 3 && s.cel.wipes.any (·.unit == i))
  if known then s.holderOf cls i + b2n busy * 2 ^ 8 else 0

/-! ## Tenant states (R99 to R101) -/

/-- A tenant takes a state: entry and ring record of kind 0x4 (R101, R118). -/
def State.moveTenant (s : State) (t st op : Nat) : State :=
  ((s.setTenant t st).log 0x4013 t (st + op * 2 ^ 8)).ringRecord t 4 (codeOf .ok) 0 st

/-- Items of tenant `t` that are queued and not started complete with SKIPPED (R120). -/
def State.skipQueued (s : State) (t : Nat) : State :=
  let s := s.barmSkip (some t)
  let s := (s.plm.queue.filter fun f =>
      f.kind == 2 && f.tc == t && f.first.isNone && !s.plm.attempt.any (·.frame == f.id)).foldl
    (fun s f => s.endFrame f .skipped) s
  let s := (s.plm.downs.filter fun d => !d.given && d.src.any (·.2.2 == t)).foldl
    (fun s d => s.endNodeDown d.ref .skipped 0) s
  let l := s.sec.items.filter (·.tc == t)
  let s := l.foldl (fun s x => s.secRefuse x .skipped)
    (s.setSec fun y => { y with items := y.items.filter (·.tc != t) })
  let l := s.cel.items.filter (·.tc == t)
  l.foldl (fun s x => s.celRefuse x .skipped)
    (s.setCel fun y => { y with items := y.items.filter (·.tc != t) })

/-- An item of tenant `t` has started and not ended. -/
def State.itemRuns (s : State) (t : Nat) : Bool :=
  s.barm.lists.any (·.tc == t) || s.plm.queue.any (fun f => f.kind == 2 && f.tc == t)
    || s.plm.downs.any (fun d => d.src.any (·.2.2 == t)) || s.sec.ops.any (·.item.tc == t)
    || s.cel.run.any (·.item.tc == t)

/-- The counters and the ring of a context page clear (R120). -/
def State.clearContext (s : State) (t : Nat) : State :=
  let s := s.clearRegs (0x300 + t) fun o => (0x060 ≤ o && o < 0x080) || (0x200 ≤ o && o < 0x400)
  ((s.wr (TNC_RING_WR t) 0).wr (TNC_RING_RD t) 0).wr (TNC_RING_OVF t) 0

/-- A reset of tenant `t` begins (R120). -/
def State.resetTenant (s : State) (t : Nat) (full own : Bool) : State :=
  let back := s.tenant t
  let s := (s.skipQueued t).clearContext t
  let s := s.setTnc fun x => { x with resets := x.resets ++ [⟨t, full, back, own, none⟩] }
  (s.wr TNC_T_BUSY 1).moveTenant t tenResetting (if full then 5 else 4)

/-- A write of TNC_TCMD (R101, R122). -/
def State.tenantCommand (s : State) (d : Nat) : Status × State :=
  let t := bits d 0 6
  let op := bits d 8 3
  let st := s.tenant t
  let fits := (op == 1 && st == tenOff) || (op == 2 && st == tenActive) || (op == 3 && st == tenSuspended)
    || ((op == 4 || op == 5) && (st == tenActive || st == tenSuspended))
  let c : Status :=
    if s.on TNC_T_BUSY then .refusedPriority
    else if t = 1 ∧ (op = 4 ∨ op = 5) ∧ s.on TNC_SEALED then .prot
    else if t < 2 ∨ !fits then .cfgInvalid
    else .ok
  if c ≠ .ok then (c, s.wr TNC_T_CODE (codeOf c))
  else if op = 4 ∨ op = 5 then (.ok, s.resetTenant t (op == 5) false)
  else (.ok, (s.moveTenant t (if op = 2 then tenSuspended else tenActive) op).wr TNC_T_CODE (codeOf .ok))

/-- Everything that tenant `t` holds by grant is revoked; a covered unit stays, with PROTECTED (R121). -/
def State.revokeAll (s : State) (t : Nat) : Status × State :=
  let pages := (List.range 1024).filter fun p => RegMap.grantable p && s.rd (OWN_TC p) == t
  let s := pages.foldl (fun s p => s.revoke false 1 p t) s
  let slots := (List.range 32).filter fun k => k != 0 && s.slotOwn k == t
  let s := slots.foldl (fun s k => s.revoke false 2 k t) s
  let units := (List.range 64).filter fun u => s.unitHeld u t
  let c : Status := if units.any s.unitCovered then .prot else .ok
  let s := (units.filter fun u => !s.unitCovered u).foldl (fun s u => s.revoke false 3 u t) s
  let eps := (List.range 128).filter fun e => s.epOwner e == t
  (c, eps.foldl (fun s e => s.revoke false 4 e t) s)

/-- The meters of tenant `t` are cleared at the next boundary, their terms disabled (R121, R188). -/
def State.clearMeters (s : State) (t : Nat) : State :=
  let s := (List.range 4).foldl (fun s c =>
    let s := (List.range 16).foldl (fun s i => s.wr (ACC_VT_EN t c i) 0) s
    (s.wr (ACC_VTRF_SRC t c) 0).wr (ACC_VCLR t c) 1) s
  { s with acc := { s.acc with outside := s.acc.outside.filter fun k => k / 64 != t } }

/-- The full reset after its soft part (R121): grants, meters, quotas, class, view, alias maps. -/
def State.fullPart (s : State) (t : Nat) : Status × State :=
  let r := s.revokeAll t
  let s := r.2.clearMeters t
  let s := s.clearRegs 0x003 fun o => 0x100 + 32 * t ≤ o && o < 0x120 + 32 * t
  (r.1, s.setTnc fun x => { x with aliases := x.aliases.filter fun e => e.1 / 256 != t })

/-- A revoke of tenant `t` has not ended: an erase or a wipe. -/
def State.revokeRuns (s : State) (t : Nat) : Bool :=
  s.sec.erases.any (fun e => e.owner == t && !e.command) || s.cel.wipes.any fun w => !w.command && w.release.isNone

/-- The reset of a tenant ends: its state, its code (R120, R121). -/
def State.resetEnds (s : State) (r : TenantReset) (c : Status) : State :=
  let s := s.setTnc fun x => { x with resets := x.resets.filter (·.tc != r.tc) }
  let s := s.wr TNC_T_BUSY (b2n (s.tnc.resets != []))
  let s := if r.own then s.wr (TNC_CX_SOFTRST r.tc) 0 else s.wr TNC_T_CODE (codeOf c)
  s.moveTenant r.tc (if r.full then tenOff else r.back) (if r.full then 5 else 4)

/-- TENANT_RESET_DONE (R120, R121): the last started item, or the last revoke, of the tenant has ended. -/
def execTenantResetDone (tenant : Fin 64) (s : State) : Result :=
  .next (
    match s.tnc.resets.find? (·.tc == tenant.val) with
    | none => s
    | some r =>
      if s.itemRuns r.tc then s
      else if !r.full then s.resetEnds r .ok
      else
        let x : Status × State := match r.code with
          | some c => (c, s)
          | none =>
            let y := s.fullPart r.tc
            (y.1, y.2.setTnc fun x => { x with
              resets := x.resets.map fun z => if z = r then { z with code := some y.1 } else z })
        if x.2.revokeRuns r.tc then x.2 else x.2.resetEnds r x.1)

/-- TNC_CX_SOFTRST of tenant `t` (R120, R122). -/
def State.softReset (s : State) (t : Nat) : Status × State :=
  if t = 0 then (.cfgInvalid, s)
  else if t = 1 then (if s.on TNC_SEALED then .prot else .cfgInvalid, s)
  else if s.tenant t = tenResetting then (.skipped, s)
  else (.ok, s.resetTenant t false true)

/-! ## Views and quotas (R104 to R106) -/

/-- The channels that leave the view of tenant `t`: an entry each with the meters affected (R104). -/
def State.viewRemoved (s : State) (t old new : Nat) : State :=
  (bitsSet old 64).foldl (fun s ch =>
    if bit new ch then s
    else
      let hit := (List.range 4).filter fun v =>
        (List.range 16).any fun i => s.on (ACC_VT_EN t v i) && s.rd (ACC_VT_CH t v i) == ch
      s.log 0x4015 t (ch * 2 ^ 8 + (hit.foldl (fun a v => a + 2 ^ v) 0) * 2 ^ 16)) s

/-- A write of a quota block (Table 4-9). -/
def quotaWrite : Writer := fun s q d =>
  let t := (q.off - 0x100) / 32
  let o := (q.off - 0x100) % 32
  if q.off < 0x100 then plainWrite s q d
  else if t = 1 ∧ ((o = 0 ∧ bits d 0 16 ≠ 0) ∨ (o = 4 ∧ bits d 0 24 ≠ 0)) then (.cfgInvalid, s)
  else if t = 1 ∧ (o = 0x10 ∨ o = 0x14) then (.ok, s)
  else if o = 0x14 then
    let old := s.rd64 (TNC_CHV_LO t) (TNC_CHV_HI t)
    let s := s.storeWord q.page q.off d
    (.ok, s.viewRemoved t old (s.rd64 (TNC_CHV_LO t) (TNC_CHV_HI t)))
  else plainWrite s q d

/-! ## Alias maps (R107) -/

/-- A write of TNC_AM_MAP. -/
def State.aliasWrite (s : State) (d : Nat) : Status × State :=
  let k := s.rd TNC_AM_SLOT
  let key := 256 * s.rd TNC_AM_TC + k
  let p := bits d 0 10
  let c : Status := if k ≤ 5 ∨ RegMap.assigned p = false then .cfgInvalid else .ok
  let s := s.wr TNC_AM_CODE (codeOf c)
  if c ≠ .ok then (c, s)
  else
    let rest := s.tnc.aliases.filter fun e => e.1 != key
    (c, s.setTnc fun x => { x with aliases := if bit d 31 then (key, p) :: rest else rest })

/-- TNC_AM_MAP as a read shows it. -/
def State.aliasShow (s : State) : Nat :=
  match s.tnc.aliases.find? fun e => e.1 == 256 * s.rd TNC_AM_TC + s.rd TNC_AM_SLOT with
  | some e => e.2 + 2 ^ 31
  | none => 0

/-! ## Register access (R124) -/

/-- The bits of TNC_SEAL in their order; `lost`: the supply fails during step 2 of Table 4-5. -/
def State.sealBits (s : State) (d : Nat) (lost : Option Nat) : Status × State :=
  let r : Status × State := if bit d 0 then s.sealRequest lost else (.ok, s)
  let s := if bit d 1 then r.2.setTnc fun x => { x with armed := some r.2.ticks } else r.2
  let u : Status × State := if bit d 2 then s.unsealRequest else (.ok, s)
  (firstOf r.1 u.1, u.2)

/-- Writes of the tenancy pages and the context pages. -/
def tncWriter (lost : Option Nat) : Writer := fun s q d =>
  if q.page = 0x002 then
    match q.off with
    | 0x050 => s.tenantCommand d
    | 0x05C => s.grantCommand d
    | 0x070 => s.sealBits d lost
    | _ => plainWrite s q d
  else if q.page = 0x003 then quotaWrite s q d
  else if q.page = 0x004 ∧ q.off = 0x044 then s.aliasWrite d
  else if 0x300 ≤ q.page ∧ q.off = 0x044 then
    if bit d 0 then s.softReset (q.page - 0x300) else (.ok, s)
  else plainWrite s q d

/-- Reads of the tenancy pages and the context pages: computed words, the view of TC01; RC counters clear for the
owning tenant only (R106, R124). -/
def tncRead : Reader := fun s q =>
  if q.page = 0x002 ∧ q.off = 0x068 then (.ok, s.grantQuery, s)
  else if q.page = 0x003 ∧ (q.off = 0x130 ∨ q.off = 0x134) then (.ok, 0xFFFFFFFF, s)
  else if q.page = 0x004 ∧ q.off = 0x044 then (.ok, s.aliasShow, s)
  else plainRead s q

/-- ACTIVATE (R101): a write of TNC_TCMD with operation 0x1. -/
def execActivate (w : RegWrite) (s : State) : Result :=
  .next (s.writeReg (tncWriter none) 0x002 0x050 w fun d => putBits d 8 3 1)

/-- SUSPEND (R101): operation 0x2. -/
def execSuspend (w : RegWrite) (s : State) : Result :=
  .next (s.writeReg (tncWriter none) 0x002 0x050 w fun d => putBits d 8 3 2)

/-- RESUME (R101): operation 0x3. -/
def execResume (w : RegWrite) (s : State) : Result :=
  .next (s.writeReg (tncWriter none) 0x002 0x050 w fun d => putBits d 8 3 3)

/-- SOFT_RESET (R120): operation 0x4. -/
def execSoftReset (w : RegWrite) (s : State) : Result :=
  .next (s.writeReg (tncWriter none) 0x002 0x050 w fun d => putBits d 8 3 4)

/-- FULL_RESET (R121): operation 0x5. -/
def execFullReset (w : RegWrite) (s : State) : Result :=
  .next (s.writeReg (tncWriter none) 0x002 0x050 w fun d => putBits d 8 3 5)

/-- TNC_CX_SOFTRST (R122): a write of 1 on the context page of `tenant`. -/
def execTncCxSoftrst (tenant : Fin 64) (w : RegWrite) (s : State) : Result :=
  .next (s.writeReg (tncWriter none) (0x300 + tenant.val) 0x044 w fun d => setBit d 0)

/-- GRANT (R103): a write of TNC_GCMD with TNC_G_OP at 1. -/
def execGrant (w : RegWrite) (s : State) : Result :=
  .next (s.writeReg (tncWriter none) 0x002 0x05C w fun d => setBit d 12)

/-- REVOKE (R103): a write of TNC_GCMD with TNC_G_OP at 0. -/
def execRevoke (w : RegWrite) (s : State) : Result :=
  .next (s.writeReg (tncWriter none) 0x002 0x05C w fun d => clearBit d 12)

/-- ALIAS_MAP (R107): a write of TNC_AM_MAP. -/
def execAliasMap (w : RegWrite) (s : State) : Result :=
  .next (s.writeReg (tncWriter none) 0x004 0x044 w id)

/-- TNC_SEAL_REQ (R110): a write of 1. -/
def execTncSealReq (lost : Option (Fin 2048)) (w : RegWrite) (s : State) : Result :=
  .next (s.writeReg (tncWriter (lost.map (·.val))) 0x002 0x070 w fun d => setBit d 0)

/-- TNC_UNSEAL_ARM (R112): a write of 1. -/
def execTncUnsealArm (w : RegWrite) (s : State) : Result :=
  .next (s.writeReg (tncWriter none) 0x002 0x070 w fun d => setBit d 1)

/-- TNC_UNSEAL_REQ (R112): a write of 1. -/
def execTncUnsealReq (w : RegWrite) (s : State) : Result :=
  .next (s.writeReg (tncWriter none) 0x002 0x070 w fun d => setBit d 2)

/-! ## Periods and deadlines -/

/-- ARM_WINDOW_EXPIRY (R615): armings whose 65,536 ct have passed lapse. -/
def execArmWindowExpiry (s : State) : Result :=
  let keep (t : Option Nat) : Option Nat := if s.armValid t then t else none
  .next (((((s.setTnc fun x => { x with armed := keep x.armed }).setCel fun x => { x with
    armed := keep x.armed }).setSec fun x => { x with armed := keep x.armed }).setPmu fun x => { x with
    armed := keep x.armed }).setHif fun x => { x with armed := keep x.armed })

/-- REFILL_PERIOD (R105, R113, R114): a refill period of a resource begins: of INF with its inference window, of the
others every 64 cycles. -/
def execRefillPeriod (resource : Fin 4) (s : State) : Result :=
  .next (
    let r := resource.val + 1
    let c := s.stamp.cyc
    let first := if r = resInf then s.windowFirst else c - c % 64
    if s.periodOf r = first + 1 then s else s.refill r first)

/-- Stamps `n` cycles after the submission of an item have passed. -/
def State.itemPast (s : State) (n : Nat) (x : RingItem) : Bool := decide (x.at' + n * 65536 < stampNat s.stamp)

/-- Items of resource `r` not started by their latest time complete with REFUSED_PRIORITY, their cost returns
(R115, Table 4-4). -/
def State.expireItems (s : State) (r : Nat) : State :=
  match r with
  | 1 => s.barmLatest
  | 2 =>
    (s.plm.queue.filter fun f => f.kind == 2 && f.first.isNone && !s.plm.attempt.any (·.frame == f.id)
      && decide (f.latest ≤ stampNat s.stamp)).foldl (fun s f => s.endFrame f .refusedPriority) s
  | 3 =>
    let l := s.sec.items.filter (s.itemPast 4)
    l.foldl (fun s x => (s.secRefuse x .refusedPriority).giveBack 3 x.tc x.cost x.period)
      (s.setSec fun y => { y with items := y.items.filter fun x => !s.itemPast 4 x })
  | _ =>
    let l := s.cel.items.filter (s.itemPast 2)
    l.foldl (fun s x => (s.celRefuse x .refusedPriority).giveBack 4 x.tc x.cost x.period)
      (s.setCel fun y => { y with items := y.items.filter fun x => !s.itemPast 2 x })

/-- The items of tenants that wait on resource `r`. -/
def State.waitingItems (s : State) (r : Nat) : Nat :=
  match r with
  | 1 => (s.barm.lists.filter (·.phase != 2)).length
  | 2 => (s.plm.queue.filter (·.kind == 2)).length
  | 3 => s.sec.items.length
  | _ => s.cel.items.length

/-- ITEM_LATEST_TIME (R115) on a resource; `rank`: the rank 1 or 2 that took the capacity, where one did
(Table 4-11). -/
def execItemLatestTime (resource : Fin 4) (rank : Option Bool) (s : State) : Result :=
  .next (
    let r := resource.val + 1
    let t := s.expireItems r
    let n := s.waitingItems r - t.waitingItems r
    match rank with
    | none => t
    | some evidence => if evidence then t.count TNC_PRE_EVID n else t.count TNC_PRE_BILL n)

end Sys2Proof.Machine
end

