-- ==== Sys2Proof/Machine/Acopy.lean ====
section
/-! DEFINITION. The accumulator copies and the restore sequencer (R317, R546 to R549, Table 22-4). -/

namespace Sys2Proof.Machine

open Reg

/-! ## The copy (Table 22-4) -/

/-- The first group of copy A and of copy B, and their length (Table 18-2). -/
def copyGroup (b : Bool) : Nat := celGroup (if b then 0x90000 else 0x88000)
def copyLen : Nat := 4096

/-- The bytes of channel `c`. -/
def State.copyChannel (s : State) (c : Nat) : List Byte :=
  ((List.range 8).flatMap fun w => leBytes 8 (s.accWord false c w)) ++ leBytes 8 (s.accWord false c 9)
    ++ leBytes 4 (s.rd (ACC_UFC (c / 8) (c % 8))) ++ ((List.range 8).flatMap fun q => leBytes 2 (s.rd (resFld c q)))
    ++ leBytes 4 (s.rd (badFld false c))

/-- The bytes of meter `m`; byte 94 holds the source in bits 2:0 and the tariff in 5:4, byte 95 ACC_VF_BAD in bit 0
and ACC_VF_VIEW in bit 1 (log entry 31). -/
def State.copyMeter (s : State) (m : Nat) : List Byte :=
  let p := m / 4
  let c := m % 4
  ((List.range 16).map fun i => BitVec.ofNat 8
      (s.rd (ACC_VT_CH p c i) + s.rd (ACC_VT_NEG p c i) * 2 ^ 6 + s.rd (ACC_VT_EN p c i) * 2 ^ 7))
    ++ ((List.range 9).flatMap fun w => leBytes 8 (s.accWord true m w))
    ++ ((List.range 3).flatMap fun k => leBytes 2 (cellAt 0 (4 * m + k) s.acc.vres))
    ++ [BitVec.ofNat 8 (s.rd (ACC_VTRF_SRC p c) + s.rd (ACC_VTRF_REG p c) * 2 ^ 4),
        BitVec.ofNat 8 (s.rd (ACC_VF_BAD p c) + s.rd (ACC_VF_VIEW p c) * 2)]

/-- The bytes of output `k`. -/
def State.copyOutput (s : State) (k : Nat) : List Byte :=
  leBytes 8 (s.spill k) ++ leBytes 4 (s.rd (PLS_PCOUNT k)) ++ leBytes 4 (s.rd (OWN_TC (0x060 + k)))

/-- Bytes 0x0040 to 0x7B3F. -/
def State.copyBody (s : State) : List Byte :=
  ((List.range 64).flatMap s.copyChannel) ++ ((List.range 256).flatMap s.copyMeter)
    ++ ((List.range 16).flatMap s.copyOutput)
    ++ (List.range 64).flatMap fun t => leBytes 4 (s.rd (TNC_CHV_LO t)) ++ leBytes 4 (s.rd (TNC_CHV_HI t))

/-- The stamp of the boundary that closed the last cycle included: that of the cycle after ACC_LAST; zero before the
first close. -/
def State.lastClose (s : State) : Nat :=
  if !s.acc.closed && !s.acc.restored then 0
  else
    let c := s.ctf.cyc
    let last := c + 2 ^ 32 - (c + 2 ^ 32 - s.rd ACC_LAST) % 2 ^ 32 - 2 ^ 32
    stampNat ⟨last + 1, 0⟩

/-- A copy with its sequence number and carry code (R546). -/
def State.copyBytes (s : State) (seq : Nat) : List Byte :=
  let head := padTo 60 (ascii "ACCCOPY1" ++ leBytes 4 seq ++ leBytes 8 s.lastClose
    ++ [BitVec.ofNat 8 (s.rd TNC_SEALED)])
  let body := s.copyBody
  padTo (8 * copyLen) (head ++ leBytes 4 (crc32 (head ++ body ++ s.uidBytes)) ++ body)

/-- A copy as read: blank, valid with its bytes, or neither (R546). -/
def State.readCopy (s : State) (b : Bool) : Bool × Option (List Byte) × State :=
  let r := s.celReadRun (copyGroup b) copyLen
  let l := groupBytes r.1
  let good := r.1.length = copyLen ∧ l.take 8 = ascii "ACCCOPY1"
    ∧ crc32 (l.take 60 ++ (l.drop 0x40).take 0x7B00 ++ s.uidBytes) = leAt l 60 4
  (r.1.head? == some 0, if good then some l else none, r.2.2)

/-- The newer valid copy and which it is; whether both are blank (R546). -/
def State.newerCopy (s : State) : Option (Bool × List Byte) × Bool × State :=
  let a := s.readCopy false
  let b := a.2.2.readCopy true
  let best := match a.2.1, b.2.1 with
    | some x, some y => if leAt x 8 4 < leAt y 8 4 then some (true, y) else some (false, x)
    | some x, none => some (false, x)
    | none, some y => some (true, y)
    | none, none => none
  (best, a.1 && b.1, b.2.2)

/-! ## Op 0x2 (R547) -/

/-- Channel `c` takes its bytes and the last cycle; its sum check is rebuilt. -/
def State.putChannel (s : State) (l : List Byte) (last c : Nat) : State :=
  let o := 0x0040 + 96 * c
  let s := (List.range 8).foldl (fun s w => s.setAccWord false c w (leAt l (o + 8 * w) 8)) s
  let s := s.setAccWord false c 9 (leAt l (o + 64) 8)
  let s := s.wr (ACC_UFC (c / 8) (c % 8)) (leAt l (o + 72) 4)
  let s := (List.range 8).foldl (fun s q => s.wr (resFld c q) (leAt l (o + 76 + 2 * q) 2)) s
  let bad := leAt l (o + 92) 4 % 2
  let f := if c < 32 then ACC_BAD_LO else ACC_BAD_HI
  let s := (s.wr (badFld false c) bad).wr f (if bad = 1 then setBit (s.rd f) (c % 32) else clearBit (s.rd f) (c % 32))
  (s.setAccWord false c 8 (s.blockSum false c)).wr (ACC_CYC (c / 8) (c % 8)) (last % 2 ^ 32)

/-- Meter `m` takes its bytes and the last cycle; its sum check is rebuilt. -/
def State.putMeter (s : State) (l : List Byte) (last m : Nat) : State :=
  let o := 0x1840 + 96 * m
  let p := m / 4
  let c := m % 4
  let s := (List.range 16).foldl (fun s i =>
    let b := leAt l (o + i) 1
    ((s.wr (ACC_VT_CH p c i) (bits b 0 6)).wr (ACC_VT_NEG p c i) (bits b 6 1)).wr (ACC_VT_EN p c i) (bits b 7 1)) s
  let s := (List.range 9).foldl (fun s w => s.setAccWord true m w (leAt l (o + 16 + 8 * w) 8)) s
  let s := (List.range 3).foldl (fun s k =>
    { s with acc := { s.acc with vres := cellPut 0 (4 * m + k) (leAt l (o + 88 + 2 * k) 2) s.acc.vres } }) s
  let b := leAt l (o + 94) 1
  let v := leAt l (o + 95) 1
  let s := (s.wr (ACC_VTRF_SRC p c) (bits b 0 3)).wr (ACC_VTRF_REG p c) (bits b 4 2)
  let s := (s.wr (ACC_VF_BAD p c) (bits v 0 1)).wr (ACC_VF_VIEW p c) (bits v 1 1)
  (s.setAccWord true m 9 (s.blockSum true m)).wr (ACC_VCYC p c) (last % 2 ^ 32)

/-- Output `k`: restored where TC01 held it, otherwise its loss is logged. -/
def State.putOutput (s : State) (l : List Byte) (k : Nat) : State :=
  let o := 0x7840 + 16 * k
  let t := leAt l (o + 12) 1
  if t = 1 then (s.setSpill k (leAt l o 8)).wr (PLS_PCOUNT k) (leAt l (o + 8) 4)
  else
    s.log 0x4012 (t % 64) (0x060 + k + t % 64 * 2 ^ 10 + 2 ^ 16 + satNat 28 (leAt l o 8) * 2 ^ 36)

/-- The billing state is restored from a copy. -/
def State.restoreFrom (s : State) (l : List Byte) : State :=
  let last := leAt l 0x0C 8 / 65536 - 1
  let s := (List.range 64).foldl (fun s t =>
    if t = 1 then s
    else (s.wr (TNC_CHV_LO t) (leAt l (0x7940 + 8 * t) 4)).wr (TNC_CHV_HI t) (leAt l (0x7944 + 8 * t) 4)) s
  let s := (List.range 64).foldl (fun s c => s.putChannel l last c) s
  let s := (List.range 256).foldl (fun s m => s.putMeter l last m) s
  ((List.range 16).foldl (fun s k => s.putOutput l k) s).wr ACC_LAST (last % 2 ^ 32)

/-- Every block becomes bad, with one entry (R547). -/
def State.allBad (s : State) : State :=
  let s := (List.range 64).foldl (fun s c => s.wr (badFld false c) 1) s
  let s := (List.range 256).foldl (fun s m => s.wr (badFld true m) 1) s
  ((s.wr ACC_BAD_LO 0xFFFFFFFF).wr ACC_BAD_HI 0xFFFFFFFF).log 0x3012 1 0

/-- Op 0x2. -/
def State.restoreBilling (s : State) : Status × State :=
  let r := s.newerCopy
  match r.1 with
  | some x => (.ok, r.2.2.restoreFrom x.2)
  | none => if r.2.1 then (.zeroLen, r.2.2) else (.integFail, r.2.2.allBad)

/-! ## Op 0x3 (R547, R549) -/

/-- The older copy is written; `lost`: the write block interrupts it after so many groups. -/
def State.saveBilling (s : State) (lost : Option Nat) : State :=
  let r := s.newerCopy
  let s := r.2.2
  let x : Bool × Nat := match r.1 with
    | some y => (!y.1, (leAt y.2 8 4 + 1) % 2 ^ 32)
    | none => (false, 1)
  let l := toGroups (s.copyBytes x.2)
  match lost with
  | none => s.celWriteRun (copyGroup x.1) l
  | some n => s.devWriteCut srcRestore areaAcc (copyGroup x.1) n l

/-! ## The sequencer (R317) -/

/-- A command of the sequencer ends. -/
def State.seqEnd (s : State) (c : Status) (last : Nat) : State :=
  let s := s.setCcx fun x => { x with seq := none }
  (((s.wr MGC_R_CODE (codeOf c)).wr MGC_R_BUSY 0).wr MGC_R_LAST last).raise 0x0A8 1

/-- The command that runs ends; a system reset since its submission loses its result. -/
def State.seqFinish (s : State) (c : Status) (last : Nat) : State :=
  if s.on MGC_R_BUSY then s.seqEnd c last else s.setCcx fun x => { x with seq := none }

/-- A command is submitted (R317). -/
def State.seqSubmit (s : State) (op page : Nat) : Status × State :=
  if s.on MGC_R_BUSY || s.ccx.seq.isSome then (.refusedPriority, s)
  else
    let c : Status :=
      if op = 0 ∨ 3 < op then .cfgInvalid
      else if op = 1 ∧ s.on (STS_SEALED page) = false then .prot
      else if op = 2 ∧ (s.acc.restored || s.acc.closed) = true then .prot
      else .ok
    if c ≠ .ok then (c, s.seqEnd c 0)
    else
      let s := if op = 2 then { s with acc := { s.acc with restored := true } } else s
      (.ok, (s.setCcx fun x => { x with seq := some (op, page) }).wr MGC_R_BUSY 1)

/-- The command that runs completes; a save waits for the write block to lift (R317, R469). -/
def State.seqDone (s : State) (lost : Option Nat) : State :=
  match s.ccx.seq with
  | none => s
  | some (1, p) =>
    let r := s.rewritePage p
    r.2.seqFinish r.1 0
  | some (2, _) =>
    let r := s.restoreBilling
    r.2.seqFinish r.1 0
  | some _ =>
    match lost with
    | some n => (s.saveBilling (some n)).seqFinish .powerLost ((n + 65535) % 65536)
    | none => if s.celBlocked then s else (s.saveBilling none).seqFinish .ok 0

/-- RESTORE_SEQ_DONE (R317). -/
def execRestoreSeqDone (lost : Option (BitVec 12)) (s : State) : Result := .next (s.seqDone (lost.map (·.toNat)))

/-- The write block interrupts a save that runs, after `n` groups. -/
def State.seqCut (s : State) (n : Nat) : State :=
  match s.ccx.seq with
  | some (3, _) => s.seqDone (some (min n (copyLen - 1)))
  | _ => s

/-- VIN is lost with no pack: a save starts by itself and no further cycle is added (R549). -/
def State.autoSave (s : State) : State :=
  let s := { s with acc := { s.acc with frozen := true } }
  match s.ccx.seq with
  | some (3, _) => s
  | _ => ((s.seqDone none).setCcx fun x => { x with seq := some (3, 0) }).wr MGC_R_BUSY 1

end Sys2Proof.Machine
end

