-- ==== Sys2Proof/Machine/Pmu.lean ====
section
/-! DEFINITION. The PMU (chapter 20): VIN and the pack, power-up and power-down, AUXOUT's commands, the Cellar
write block, cut-off, the charger and Kiln mode. -/

namespace Sys2Proof.Machine

open Reg

/-! ## VIN, the pack and the path (R499, R500) -/

/-- VIN lies outside the range in which a present VIN stays present. -/
def vinBad (vin : Nat) : Bool := decide (vin < 8500) || decide (17500 < vin)

/-- VIN lies inside the range in which it becomes present. -/
def vinGood (vin : Nat) : Bool := decide (8800 ≤ vin) && decide (vin ≤ 16500)

/-- A start on the pack through KWAKE, which no register of the pack precedes. -/
def State.wokenOnPack (s : State) : Bool :=
  s.rd PMU_WAKE_SRC == 2 && (s.pst == pstStart || s.pst == pstOnPack)

/-- The pack is present at a VBAT (R499). -/
def State.packAt (s : State) (vbat : Nat) : Bool :=
  (s.on PMU_PACK_EN || s.wokenOnPack) && decide (s.rd BGA_NCELL * s.rd PMU_CUT_VCELL ≤ vbat)

/-- PMU_PACKOK and the charger follow the pack. -/
def State.packShow (s : State) : State := (s.wr PMU_PACKOK (b2n (s.packAt (s.rd PMU_VBAT_MV)))).chgFollow

/-- The VIN pair is on (R500). -/
def State.vinPair (s : State) : Bool :=
  s.on PMU_VINOK && s.rd BGA_MNT_ST != 2 && s.pst != pstKiln && s.pst != pstCutOff

/-- The pack pair: 0 held off, 1 an ideal diode, 2 fully on (R500). -/
def State.packPair (s : State) : Nat :=
  if s.pst = pstKiln ∨ s.pst = pstCutOff ∨ s.on PMU_PACKOK = false then 0
  else if s.vinPair then 1 else 2

/-- The PMU's readings of VIN and VBAT. -/
def State.pmuMeasure (s : State) (vin vbat : Nat) : State := (s.wr PMU_VIN_MV vin).wr PMU_VBAT_MV vbat

/-- The descent through VIN loss, due within 1 ms, happens before anything later (R529, R531). -/
def State.settleLoss (s : State) : State := if s.mon.lost then s.transition 3 3 else s

/-- Billing goes on, unless a Kiln entry waits (R548). -/
def State.thaw (s : State) : State := { s with acc := { s.acc with frozen := s.pmu.kiln.isSome } }

/-- VIN_LOST (R499, Table 20-4): in ON_VIN the pack takes over, or without one a save starts (R549). -/
def execVinLost (vin vbat : BitVec 16) (s : State) : Result :=
  .next (
    if s.on PMU_VINOK = false ∨ vinBad vin.toNat = false then s
    else
      let s := (s.wr PMU_VINOK 0).setPmu fun p => { p with gone := true }
      let s := if 17500 < vin.toNat then s.wr PMU_VINOV 1 else s
      if s.pmu.railsUp = false then s
      else
        let s := (((s.pmuMeasure vin.toNat vbat.toNat).count PMU_VINLOSTN).raise 0x0E8 0).log 0x2031 deviceTc vbat.toNat
        let s := s.packShow.mntAbort
        let lost (s : State) : State := s.setMon fun m => { m with lost := true }
        if s.pst = pstOnVin then
          if s.on PMU_PACKOK then lost (s.setPst pstOnPack) else s.autoSave
        else if s.pst = pstOnPack then lost s
        else s)

/-- A start of a kind is due, with its cause (R538, Table 20-8). -/
def State.startDue (s : State) (kind wake : Nat) : State :=
  let s := (s.wr PMU_WAKE_SRC wake).setPst pstStart
  { s with start := { s.start with kind := kind, noPack := false } }

/-- Kiln mode ends (R516). -/
def State.leaveKiln (s : State) (wake : Nat) : State := (s.startDue 1 wake).log 0x2036 deviceTc 0

/-- What follows from VIN present again in the state of the PMU (Table 20-4, R505, R516). -/
def State.vinBack (s : State) : State :=
  if s.pst = pstKiln then s.leaveKiln 1
  else if s.pst = pstCutOff then s.startDue 1 3
  else if s.pst = pstStart then
    if s.pmu.railsUp then s.setPst pstOnVin
    else if s.on PMU_RFAULT then
      if s.pmu.gone then (s.wr PMU_RFAULT 0).startDue 2 4 else s
    else if s.start.noPack then s.startDue 2 5
    else s
  else if s.pst = pstCutPending then
    ((s.setPmu fun p => { p with cut := none, cutDue := false }).thaw).setPst pstOnVin
  else if s.pst = pstOnPack then s.setPst pstOnVin
  else s.thaw.chgFollow

/-- VIN_PRESENT (R499, R514, Table 20-4). -/
def execVinPresent (vin vbat : BitVec 16) (s : State) : Result :=
  .next (
    if s.on PMU_VINOK ∨ vinGood vin.toNat = false ∨ (s.pst = pstKiln ∧ s.pmu.gone = false) then s
    else
      let s := ((s.settleLoss.pmuMeasure vin.toNat vbat.toNat).wr PMU_VINOK 1).wr PMU_VINOV 0
      let s := (s.raise 0x0E8 0).log 0x2032 deviceTc vbat.toNat
      let s := if s.rd PMU_CHG_ST = chgFault then s.setChg chgOff else s
      let s := s.vinBack
      s.setPmu fun p => { p with gone := false })

/-- PACK_PRESENCE_CHANGE (R499, R500). -/
def execPackPresenceChange (vbat : BitVec 16) (s : State) : Result :=
  .next (
    if s.pmu.railsUp = false then s
    else
      let s := (s.wr PMU_VBAT_MV vbat.toNat).packShow
      if s.pst = pstStart ∧ s.on PMU_PACKOK = true ∧ s.on PMU_VINOK = false then s.setPst pstOnPack else s)

/-! ## The Cellar write block (R511) -/

/-- The write block asserts; an operation that runs has written `cut` groups (R469, R511). -/
def State.blockAssert (s : State) (cut : Nat) : State :=
  if s.celBlocked then s
  else
    let s := ((s.celCut cut).seqCut cut).sealCut
    let s := (((s.wr PMU_WBLK 1).wr CEL_WBLK 1).count PMU_WBLKN).raise 0x0E8 6
    s.clgBlocked

/-- WRITE_BLOCK_ASSERT (R511). -/
def execWriteBlockAssert (cut : BitVec 12) (s : State) : Result := .next (s.blockAssert cut.toNat)

/-- The write block is released: what waited is written (R469, R418). -/
def State.blockRelease (s : State) : State :=
  if s.celBlocked = false ∨ s.pmu.railsUp = false then s
  else
    let s := ((s.wr PMU_WBLK 0).wr CEL_WBLK 0).raise 0x0E8 6
    if s.start.begun then s.devFlush.clgLifted else s

/-- WRITE_BLOCK_RELEASE (R511). -/
def execWriteBlockRelease (s : State) : Result := .next s.blockRelease

/-! ## Power-up and power-down (R504, R505) -/

/-- The level that the start after this power-down shows (R541). -/
def State.levelBefore (s : State) : Nat := if s.start.begun then s.level else s.start.prev

/-- What survives a power-down in the Cellar, the OTP, the always-on domain and the PMU (Table 22-2). -/
def State.coldKept (s : State) : State :=
  { State.reset with
    regs := s.regs.filter fun e => e.1 / 4096 == 0x0E8 || e.1 / 4096 == 0x0E9
    ticks := s.ticks, clk := s.clk, resp := s.resp, out := s.out, free := s.free, pending := s.pending
    cel := { groups := s.cel.groups, ir := s.cel.ir }
    sec := { otp := s.sec.otp }
    clg := { lost := s.clg.lost }
    ctf := { xt32 := s.ctf.xt32, utcLost := s.ctf.utcLost, rtcAcc := s.ctf.rtcAcc }
    pmu := { s.pmu with railsUp := false, charge := none, ntcOut := false, cut := none, cutDue := false,
                        armed := none, kiln := none }
    start := { s.start with prev := s.levelBefore, begun := false } }

/-- The registers of the always-on domain (Table 22-2). -/
def alwaysOn : List Fld := [CTF_UTC, CTF_UTC_FRAC, CTF_UTC_EST, CTF_TRIM, MON_CAP]

/-- Every domain but VAO loses power (Tables 22-1 and 22-2); the write block stands. -/
def State.dark (s : State) : State :=
  let t := alwaysOn.foldl (fun t f => t.wr f (s.rd f)) s.coldKept
  let t := (((t.wr PMU_WBLK 1).wr CEL_WBLK 1).wr PMU_VT_SET 0).wr PMU_CHG_ST chgOff
  ((t.wr PMU_AUX_ST auxOff).wr PMU_AUX_ATT 0).wr PMU_PG t.railsGood

/-- The PMU powers down (R505): the write block asserts first; how much of an operation that runs is written is a
free value. -/
def State.powerDown (s : State) : State :=
  let r := s.draw 12
  (r.2.blockAssert r.1).dark

/-- VAO was lost as well: the always-on domain is cleared (Table 22-2). -/
def State.powerOn (s : State) : State :=
  let t := alwaysOn.foldl (fun t f => t.wr f 0) s.dark
  let t := (t.clearRegs 0x0E8 fun _ => true).clearRegs 0x0E9 fun _ => true
  { t with
    ctf := {}, clg := { lost := none }, pmu := {}, start := {}
    cel := { groups := s.cel.groups } }.wr CTF_UTC_EST 1

/-- The rails are good: the PMU pages are at their reset values but for what the always-on domain and the inputs
hold, AUXOUT as the straps ask (R504, R506, Table 20-2). -/
def State.railsRise (s : State) (vin vbat : Nat) : State :=
  let keep := [PMU_PST, PMU_VINOK, PMU_VINOV, PMU_WAKE_SRC]
  let t := (s.clearRegs 0x0E8 fun _ => true).clearRegs 0x0E9 fun _ => true
  let t := keep.foldl (fun t f => t.wr f (s.rd f)) t
  let t := (t.wr PMU_AUX_EN (b2n (s.pmu.strap == 1 || s.pmu.strap == 2))).wr PMU_AUX_V (b2n (s.pmu.strap == 2))
  let t := t.pmuMeasure vin vbat
  let t := t.wr PMU_VINOK (b2n (if s.on PMU_VINOK then !vinBad vin else vinGood vin))
  let t := { t with pmu := { t.pmu with railsUp := true, gone := !t.on PMU_VINOK },
                    start := { t.start with since := t.clk, noPack := false } }
  let t := ((t.wr PMU_VC_SET startCode).wr PMU_PG t.railsGood).packShow.auxFollow
  if t.on PMU_VINOK then t.setPst pstOnVin
  else if t.on PMU_PACKOK then t.setPst pstOnPack
  else t

/-- POWER_UP (R504, R538): VSYS has been at or above 5.0 V for 1 ms; `held`: VAO stayed up since the last
power-down. -/
def execPowerUp (strap : Fin 4) (held : Bool) (vin vbat : BitVec 16) (s : State) : Result :=
  .next (
    if s.pmu.railsUp then s
    else if !held then
      let s := s.powerOn
      (s.setPmu fun p => { p with strap := strap.val }).railsRise vin.toNat vbat.toNat
    else if s.pst ≠ pstStart ∨ s.pmu.restart.isSome ∨ s.on PMU_RFAULT = true
        ∨ (s.start.noPack ∧ vinGood vin.toNat = false) then s
    else
      let s := if s.start.noPack then s.startDue 2 5 else s
      let s := if s.start.kind = 0 then s.setPmu fun p => { p with strap := strap.val } else s
      s.railsRise vin.toNat vbat.toNat)

/-- RAIL_FAULT (R502, R505): a rail, in the order of PMU_PG. -/
def execRailFault (rail : Fin 7) (s : State) : Result :=
  .next (
    if s.pmu.railsUp = false ∨ bit (s.rd PMU_PG) rail.val = false then s
    else
      let s := (((s.wr PMU_RFLT (2 ^ rail.val)).raise 0x0E8 5).powerDown).setPst pstStart
      let l := (s.pmu.faults.filter fun t => s.clk - t < msTicks 600000) ++ [s.clk]
      let s := s.setPmu fun p => { p with faults := l }
      if 3 ≤ l.length then (s.wr PMU_RFAULT 1).setPmu fun p => { p with restart := none, gone := !s.on PMU_VINOK }
      else s.setPmu fun p => { p with restart := some s.clk })

/-- RAIL_RESTART (R505): 1 s after the fault a start is due. -/
def execRailRestart (s : State) : Result :=
  .next (
    match s.pmu.restart with
    | none => s
    | some t =>
      let s := s.waitUntil (t + msTicks 1000)
      (s.setPmu fun p => { p with restart := none }).startDue 2 4)

/-- VSYS_POWER_DOWN (R505): VSYS has fallen below 4.5 V. -/
def execVsysPowerDown (s : State) : Result :=
  .next (
    if s.pmu.railsUp = false then s
    else
      let lost := !s.on PMU_VINOK
      let s := s.powerDown.setPst pstStart
      { s with start := { s.start with kind := 2, noPack := lost } })

/-! ## Cut-off (R512, R513) -/

/-- The cut-off warning: CUT_PENDING, the gauge's empty point, no further cycle is billed (R512, R548). -/
def State.cutWarn (s : State) : State :=
  let s := (s.settleLoss.setPst pstCutPending).cutNotice.raise 0x0E8 1
  let s := s.setPmu fun p => { p with cut := some s.clk }
  { s with acc := { s.acc with frozen := true } }

/-- CUTOFF_WARNING (R512): VBAT has been at or below N × PMU_CUTW_VCELL for 1 s; with VIN present it is the gauge's
empty point alone. -/
def execCutoffWarning (vbat : BitVec 16) (s : State) : Result :=
  .next (
    if s.pst ≠ pstOnPack ∨ s.rd BGA_NCELL * s.rd PMU_CUTW_VCELL < vbat.toNat then s
    else
      let s := s.wr PMU_VBAT_MV vbat.toNat
      if s.on PMU_VINOK then s.cutNotice else s.cutWarn)

/-- CUT_GRACE (R512): PMU_CUTGRACE milliseconds have passed. -/
def execCutGrace (s : State) : Result :=
  .next (
    match s.pmu.cut with
    | none => s
    | some t =>
      if s.pst ≠ pstCutPending ∨ s.pmu.cutDue = true then s
      else (s.waitUntil (t + msTicks (s.rd PMU_CUTGRACE))).setPmu fun p => { p with cutDue := true })

/-- HARD_CUTOFF (R513): VBAT has been at or below N × PMU_CUT_VCELL for 10 ms. -/
def execHardCutoff (vbat : BitVec 16) (s : State) : Result :=
  .next (
    if (s.pst ≠ pstOnPack ∧ s.pst ≠ pstCutPending) ∨ s.on PMU_VINOK = true
        ∨ s.rd BGA_NCELL * s.rd PMU_CUT_VCELL < vbat.toNat then s
    else
      let s := s.wr PMU_VBAT_MV vbat.toNat
      let s := if s.pst = pstOnPack then s.cutWarn else s
      s.setPmu fun p => { p with cutDue := true })

/-- More events than the log engine can ever hold waiting. -/
def drainFuel (s : State) : Nat := s.events.length + 64

/-- CUTOFF_SEQUENCE (R512): log, drain, write block, 10 µs, power-down. -/
def execCutoffSequence (s : State) : Result :=
  .next (
    if s.pst ≠ pstCutPending ∨ s.pmu.cutDue = false then s
    else
      let s := s.log 0x2033 deviceTc (s.rd PMU_VBAT_MV)
      let s := (s.drainEvents (drainFuel s)).powerDown.setPst pstCutOff
      { s with start := { s.start with prev := 4 } })

/-! ## Charger (R514) -/

/-- CHARGE_DONE: below BGA_ITAPER for 60 consecutive seconds at the charge voltage. -/
def execChargeDone (s : State) : Result :=
  .next (
    if s.rd PMU_CHG_ST ≠ chgVoltage then s
    else (s.setPmu fun p => { p with charge := none }).setChg chgDone)

/-- CHARGE_RESTART: VBAT ÷ N has fallen PMU_CHG_RECH below PMU_CHG_VCELL. -/
def execChargeRestart (vbat : BitVec 16) (s : State) : Result :=
  .next (
    if s.rd PMU_CHG_ST ≠ chgDone
        ∨ s.rd BGA_NCELL * (s.rd PMU_CHG_VCELL - s.rd PMU_CHG_RECH) < vbat.toNat then s
    else (s.wr PMU_VBAT_MV vbat.toNat).chgBegin)

/-- CHARGE_TEMP: the PACK_NTC ratio has left its band, or is back inside. -/
def execChargeTemp (ratio : Byte) (s : State) : Result :=
  .next (
    let r := ratio.toNat
    let out := decide (r < s.rd PMU_NTC_HOT) || decide (s.rd PMU_NTC_COLD < r) || decide (250 < r)
    let s := s.setPmu fun p => { p with ntcOut := out }
    let c := s.rd PMU_CHG_ST
    if out && (c == chgCurrent || c == chgVoltage) then s.setChg chgTemp
    else if !out && c == chgTemp then s.setChg chgCurrent
    else s)

/-- CHARGE_TIMEOUT: one charge has run PMU_CHG_TMAX hours. -/
def execChargeTimeout (s : State) : Result :=
  .next (
    match s.pmu.charge with
    | none => s
    | some t =>
      ((s.waitUntil (t + msTicks (3600000 * s.rd PMU_CHG_TMAX))).setPmu fun p => { p with charge := none }).setChg
        chgFault)

/-! ## Kiln mode (R515, R516) -/

/-- The answer to PMU_KILN_GO, in the order of R11. -/
def State.kilnCheck (s : State) : Status :=
  if s.pst = pstStart ∨ s.pst = pstCutPending ∨ s.pst = pstCutOff then .cfgInvalid
  else if s.on TNC_S_BUSY then .refusedPriority
  else
    match s.pmu.armed with
    | none => .timeout
    | some t => if s.ticks - t ≤ 65536 then .ok else .timeout

/-- PMU_KILN_GO: the entry is accepted, or completes with its code. -/
def State.kilnGo (s : State) : Status × State :=
  if s.pmu.kiln.isSome then (.skipped, s)
  else
    let c := s.kilnCheck
    let s := (s.wr PMU_KILN_CODE (codeOf c)).setPmu fun p => { p with armed := none }
    if c ≠ .ok then (c, s)
    else
      let s := (s.raise 0x0E8 2).setPmu fun p => { p with kiln := some s.clk }
      let s := if s.toneOff then s else s.sendBye 1
      (.ok, { s with acc := { s.acc with frozen := true } })

/-- PMU_KILN_CONFIRM: log, seal, write block, power-down, KILN. -/
def State.kilnConfirm (s : State) : State :=
  if s.pmu.kiln = none then s
  else
    let s := s.log 0x2035 deviceTc 0
    let s := (s.drainEvents (drainFuel s)).sealNow.finishSeals 64
    let s := (s.drainEvents (drainFuel s)).powerDown.setPst pstKiln
    let s := s.setPmu fun p => { p with gone := !s.on PMU_VINOK }
    { s with start := { s.start with prev := 4 } }

/-- KILN_TIMEOUT: no confirmation within PMU_KILN_TMO milliseconds; billing goes on unless a cut-off waits. -/
def execKilnTimeout (s : State) : Result :=
  .next (
    match s.pmu.kiln with
    | none => s
    | some t =>
      let s := s.waitUntil (t + msTicks (s.rd PMU_KILN_TMO))
      let s := (s.wr PMU_KILN_CODE (codeOf .timeout)).setPmu fun p => { p with kiln := none }
      { s with acc := { s.acc with frozen := s.pmu.cut.isSome } })

/-- KILN_EXIT (R516): KWAKE low for 1 s, or VIN present after an absence. -/
def execKilnExit (kwake : Bool) (vin vbat : BitVec 16) (s : State) : Result :=
  .next (
    if s.pst ≠ pstKiln then s
    else if kwake then (s.pmuMeasure vin.toNat vbat.toNat).leaveKiln 2
    else if s.pmu.gone = false ∨ vinGood vin.toNat = false then s
    else ((s.pmuMeasure vin.toNat vbat.toNat).wr PMU_VINOK 1).leaveKiln 1)

/-! ## Register access (R519) -/

/-- The range checks of Table 20-8, with R513. -/
def State.pmuRange (s : State) (off d : Nat) : Bool :=
  let within (lo w a b : Nat) : Bool := decide (a ≤ bits d lo w) && decide (bits d lo w ≤ b)
  match off with
  | 0x04C => decide (5000 ≤ s.rd BGA_NCELL * bits d 0 16) && decide (bits d 0 16 + 50 ≤ bits d 16 16)
  | 0x050 => within 0 16 100 10000
  | 0x054 => within 16 16 50 5000
  | 0x058 => within 0 16 3400 4200 && within 16 16 20 500
  | 0x05C => within 0 8 1 48 && decide (bits d 8 8 < bits d 16 8)
  | 0x068 => within 0 16 100 60000
  | _ => true

/-- The codes of an AVS rail (R503): none above 80, the minimum not above the maximum, the pinned code between. -/
def railCodes (d : Nat) : Bool :=
  decide (bits d 8 7 ≤ bits d 24 7) && decide (bits d 24 7 ≤ bits d 16 7) && decide (bits d 16 7 ≤ 80)

/-- The write of PMU_AUXCFG (R506, R508). -/
def State.auxWrite (s : State) (q : Req) (d : Nat) : Status × State :=
  let was := s.on PMU_AUX_EN
  if was && bit d 1 != s.on PMU_AUX_V then (.cfgInvalid, s)
  else
    let s := s.storeWord q.page q.off d
    let s :=
      if was && !bit d 0 then s.auxStop
      else if !was && bit d 0 && s.auxMay then s.auxStart
      else s.auxFollow
    let s :=
      if !bit d 3 then s
      else if s.rd PMU_AUX_ST = auxGood ∨ s.auxMay = false then s.wr PMU_AUX_ATT 0
      else s.auxStart
    (.ok, s)

/-- PMU_CMD, its bits in order. -/
def State.pmuCommand (s : State) (d : Nat) : Status × State :=
  let s := if bit d 0 then s.setPmu fun p => { p with armed := some s.ticks } else s
  let r : Status × State := if bit d 1 then s.kilnGo else (.ok, s)
  let s := if bit d 2 then r.2.kilnConfirm else r.2
  (r.1, if bit d 3 ∧ s.pst = pstCutPending then s.setPmu fun p => { p with cutDue := true } else s)

/-- Configuration of page 0x0E8. -/
def State.pmuConfig (s : State) (q : Req) (d : Nat) : Status × State :=
  if !s.pmuRange q.off d then (.cfgInvalid, s)
  else
    let was := s.on PMU_CHG_EN
    let s := s.storeWord q.page q.off d
    let s := if s.rd PMU_CHG_ST = chgFault ∧ was = false ∧ s.on PMU_CHG_EN = true then s.setChg chgOff else s
    (.ok, s.packShow)

/-- Configuration of page 0x0E9. -/
def State.railConfig (s : State) (q : Req) (d : Nat) : Status × State :=
  let ok := match q.off with
    | 0x040 => railCodes d
    | 0x044 => railCodes d
    | 0x048 => decide (bits d 0 7 ≤ 80)
    | _ => true
  if q.off = 0x050 then s.auxWrite q d
  else if !ok then (.cfgInvalid, s)
  else (.ok, (s.storeWord q.page q.off d).railsFollow)

/-- Writes of pages 0x0E8 and 0x0E9. -/
def pmuWrite : Writer := fun s q d =>
  if q.page = 0x0E8 ∧ q.off = 0x064 then s.pmuCommand d
  else
    let r := if q.page = 0x0E8 then s.pmuConfig q d else s.railConfig q d
    (r.1, r.2.wr PMU_CCODE (codeOf r.1))

/-- PMU_AUX_RETRY (R508): a write of 1. -/
def execPmuAuxRetry (w : RegWrite) (s : State) : Result := .next (s.writeReg pmuWrite 0x0E9 0x050 w (setBit · 3))

/-- PMU_AUX_EN (R508): a write of the bit. -/
def execPmuAuxEn (on : Bool) (w : RegWrite) (s : State) : Result :=
  .next (s.writeReg pmuWrite 0x0E9 0x050 w fun d => if on then setBit d 0 else clearBit d 0)

/-- PMU_CUTACK (R512): a write of 1. -/
def execPmuCutack (w : RegWrite) (s : State) : Result := .next (s.writeReg pmuWrite 0x0E8 0x064 w (setBit · 3))

/-- PMU_KILN_ARM (R515): a write of 1. -/
def execPmuKilnArm (w : RegWrite) (s : State) : Result := .next (s.writeReg pmuWrite 0x0E8 0x064 w (setBit · 0))

/-- PMU_KILN_GO (R515): a write of 1. -/
def execPmuKilnGo (w : RegWrite) (s : State) : Result := .next (s.writeReg pmuWrite 0x0E8 0x064 w (setBit · 1))

/-- PMU_KILN_CONFIRM (R515): a write of 1. -/
def execPmuKilnConfirm (w : RegWrite) (s : State) : Result := .next (s.writeReg pmuWrite 0x0E8 0x064 w (setBit · 2))

end Sys2Proof.Machine
end

