-- ==== Sys2Proof/Machine/Start.lean ====
section
/-! DEFINITION. Starts and resets (chapter 22): the cold start, the system reset, the reset record. -/

namespace Sys2Proof.Machine

open Reg

/-- The registers that show the OTP take their values (R445). -/
def State.loadOtp (s : State) : State :=
  let uid := s.otpWords 0 2
  let s := (List.range 4).foldl (fun s k => s.wr (SYS_UID k) (uid / 2 ^ (32 * k) % 2 ^ 32)) s
  let mac := s.otpWord 32
  (((s.wr ACS_T25 (s.otpWord 18 % 65536)).wr ETH_MAC_LO (mac % 2 ^ 32)).wr ETH_MAC_HI (mac / 2 ^ 32 % 65536)).otpShow

/-- The reset record (R541, Table 22-3). -/
def State.resetRecord (s : State) (kind sys prev : Nat) : State :=
  (s.wr (MGC_MB_OUT 0) (kind + s.rd PMU_WAKE_SRC * 2 ^ 4 + sys * 2 ^ 8 + prev * 2 ^ 12)).wr (MGC_MB_OUT 1)
    s.start.count

/-- A start is counted; the count is zero at a power-on. -/
def State.countStart (s : State) (kind : Nat) : State :=
  { s with start := { s.start with count := if kind = 0 then 0 else satNat 32 (s.start.count + 1), since := s.clk } }

/-- D2 with cause 5, as every start but a system reset in D3 gives it (R541). -/
def State.startLevel (s : State) (prev : Nat) : State :=
  (((s.wr MON_LVL 2).wr MON_CAUSE 5).tellLevel prev 2 5).setMon fun m => { m with dwell := 0 }

/-- The log engine and the Cellar start once the write block has been released (Table 22-5, step 4). -/
def State.startStores (s : State) : State :=
  let s := s.celStart.findHead
  let s := s.logLost (decide (s.rd CLG_HEADBLK ≠ 0) || decide (s.rd CLG_HEADPOS ≠ 0))
  s.resignBlocks.sealRestore

/-- COLD_START (R538 to R545, R551): steps 2 to 4 of Table 22-5; `otpOk`: the OTP words pass their check. The boot
ROM is then about to select an image. -/
def execColdStart (otpOk : Bool) (s : State) : Result :=
  .next (
    if s.pmu.railsUp = false ∨ s.start.begun = true then s
    else
      let kind := s.start.kind
      let prev := s.start.prev
      let s := (s.countStart kind).resetRecord kind 0 prev
      let s := ((s.startLevel prev).railsFollow).auxFollow
      let s := ((s.loadOtp).loadIdentity otpOk).restoreSlots
      let s := s.blockRelease
      let s := { s with start := { s.start with begun := true } }
      s.startStores.setCcx fun c => { c with bootDue := true })

/-! ## System reset (R539, R540) -/

/-- The pages that a system reset returns to their reset values (Table 22-2). -/
def warmPage (p : Nat) : Bool :=
  p == 0x000 || p == 0x001 || (0x080 ≤ p && p < 0x0B0) || (0x100 ≤ p && p < 0x140)

/-- The blocks that a system reset restarts lose what they hold; the sequencer goes on. -/
def State.warmBlocks (s : State) : State :=
  { s with
    regs := s.regs.filter fun e => !warmPage (e.1 / 4096)
    latch := s.latch.filter fun e => !warmPage (e.1 / 4096)
    hold := s.hold.filter fun e => !warmPage (e.1 / 4096)
    inForce := s.inForce.filter fun e => !warmPage (e.1 / 4096)
    pages := s.pages.filter fun e => !warmPage e.1
    tun := {}, ltr := {}, barm := {}, hif := {}
    ccx := { sram := s.ccx.sram, mgmt := s.ccx.mgmt, seq := s.ccx.seq, mtimeOfs := s.ccx.mtimeOfs }
    mem := s.mem.filter fun e => e.1 < ddrBase }

/-- The rings of the security engine, the Cellar and the powerline MAC stop (R540). -/
def State.stopRings (s : State) : State :=
  let all := List.range 64
  let s := (s.setSec fun x => { x with stopped := all, held := [] }).setCel fun x =>
    { x with stopped := all, held := [] }
  s.plmStopRings

/-- A system reset with its cause of Table 22-3. -/
def State.systemReset (s : State) (cause : Nat) : State :=
  let s := s.settleLoss.endSessions
  let prev := s.level
  let div := s.rd TUN_THDIV
  let s := (s.warmBlocks.stopRings.loadOtp).wr TUN_THDIV div
  let s := (s.countStart 3).resetRecord 3 cause prev
  let s := if 3 ≤ prev then s.log 0x2021 deviceTc (prev + prev * 2 ^ 8 + 5 * 2 ^ 16) else s.transition 2 5
  s.setCcx fun c => { c with bootDue := true }

/-- SYSTEM_RESET (R538, R577): SYS_RSTN, or with `debug` the request of the debug transport, which acts only in
OPEN. -/
def execSystemReset (debug : Bool) (s : State) : Result :=
  .next (
    if s.pmu.railsUp = false ∨ s.start.begun = false ∨ (debug = true ∧ s.rd DBG_MODE ≠ 2) then s
    else s.systemReset (if debug then 4 else 3))

end Sys2Proof.Machine
end

