-- ==== Sys2Proof/Machine/Boot.lean ====
section
/-! DEFINITION. Boot images (chapter 12): the boot record, verification, selection, trial and recovery; the
management watchdog, the reload of the application section, the doorbells, page 0x0A8. -/

namespace Sys2Proof.Machine

open Reg

/-! ## The boot record (R309) -/

/-- The group that holds it. -/
def bootGroup : Nat := celGroup 0x80000

/-- Its fields. -/
def brPref (w : Nat) : Nat := bits w 0 1
def brTrial (w : Nat) : Bool := bit w 1
def brTries (w : Nat) : Nat := bits w 2 2
def brGood (w : Nat) : Nat := bits w 4 1

/-- A record with its preferred slot, trial, tries and confirmed slot, its sequence one on. -/
def brWith (w pref : Nat) (trial : Bool) (tries good : Nat) : Nat :=
  pref + b2n trial * 2 + tries * 4 + good * 16 + (bits w 8 8 + 1) % 256 * 256 + bits w 32 32 * 2 ^ 32

/-- The preferred slot is the confirmed one and no trial runs. -/
def brRevert (w : Nat) : Nat := brWith w (brGood w) false (brTries w) (brGood w)

/-- The record as the boot ROM reads it; a free value where the group cannot be corrected. -/
def State.readBoot (s : State) : Nat × State :=
  let r := s.celReadRun bootGroup 1
  match r.1 with
  | d :: _ => (d, r.2.2)
  | [] => r.2.2.draw 64

/-- The record is written through the management port (R310, R466): false where the write ends with POWER_LOST;
`lost`: the supply fails in it, and the record is the old or the new one. -/
def State.writeBoot (s : State) (w : Nat) (lost : Bool) : Bool × State :=
  if s.celBlocked then (false, s)
  else if lost then
    let r := s.draw 1
    if r.1 = 1 then (false, (r.2.celWrite bootGroup w).celLost srcPort 0 0 areaBoot)
    else (false, r.2.celLost srcPort 0xFFFF 0 areaBoot)
  else (true, (s.celWrite bootGroup w).wr MGC_BREC (w % 256))

/-! ## Verification (R307, R308) -/

/-- The place of the management SRAM, of the control SRAM and the length of each (R293, R294). -/
def mgmtBase : Nat := 0x10000000
def mgmtLen : Nat := 0x40000
def sramBase : Nat := 0x08000000
def sramLen : Nat := 0x400000

/-- `n` bytes at an offset of a slot. -/
def imageAt (x : SlotImage) (o n : Nat) : List Byte := padTo n ((x.bytes.drop o).take n)

/-- A field of the header, least significant byte first. -/
def imageField (x : SlotImage) (o n : Nat) : Nat := leNat (imageAt x o n)

/-- The reserved bytes of a header are zero. -/
def imageReserved (x : SlotImage) : Bool :=
  imageField x 0x06 2 == 0 && imageField x 0x0E 2 == 0 && imageField x 0x24 4 == 0 && imageField x 0x38 8 == 0

/-- A section lies inside its slot at a multiple of 256 behind the header, its length in range. -/
def sectionFits (ofs len most : Nat) : Bool :=
  decide (1 ≤ len) && decide (len ≤ most) && decide (0x100 ≤ ofs) && ofs % 256 == 0 && decide (ofs + len ≤ slotLen)

/-- Check 0x5 of Table 12-6. -/
def imagePlaced (x : SlotImage) : Bool :=
  let ment := imageField x 0x18 4
  let load := imageField x 0x28 8
  let aent := imageField x 0x30 8
  sectionFits (imageField x 0x10 4) (imageField x 0x14 4) 229376 && sectionFits (imageField x 0x1C 4) (imageField x 0x20 4) 4194304
    && decide (mgmtBase ≤ ment) && decide (ment < mgmtBase + mgmtLen)
    && decide (sramBase ≤ load) && decide (load + imageField x 0x20 4 ≤ sramBase + sramLen)
    && decide (sramBase ≤ aent) && decide (aent < sramBase + sramLen)

/-- Root-key digest `k` (Table 17-2); words hold their bytes lowest first. -/
def State.rootDigest (s : State) (k : Nat) : List Byte := leBytes 32 (s.otpWords (10 + 4 * k) 4)

/-- The key of the header is root key MGC_H_KIDX and is not revoked. -/
def State.keyGood (s : State) (x : SlotImage) : Bool :=
  let k := imageField x 0x0D 1
  decide (k ≤ 1) && sha256 (imageAt x 0x80 64) == s.rootDigest k && !s.otpField (63 + k)

/-- The signature of the header verifies. -/
def imageSigned (x : SlotImage) : Bool :=
  ecdsaVerify (beNat (imageAt x 0x80 32), beNat (imageAt x 0xA0 32)) (sha256 (imageAt x 0 0xC0)) (beNat (imageAt x 0xC0 32))
    (beNat (imageAt x 0xE0 32))

/-- The sections. -/
def imageMgmt (x : SlotImage) : List Byte := imageAt x (imageField x 0x10 4) (imageField x 0x14 4)
def imageApp (x : SlotImage) : List Byte := imageAt x (imageField x 0x1C 4) (imageField x 0x20 4)

/-- The first check that fails, 0 where all pass (Table 12-6). -/
def State.slotCheck (s : State) (x : SlotImage) : Nat :=
  if !x.answers then 8
  else if imageField x 0 4 ≠ 0x4C464F47 ∨ imageField x 4 2 ≠ 1 ∨ imageReserved x = false then 1
  else if !s.keyGood x then 2
  else if imageField x 0x0C 1 < s.rollback then 3
  else if !imageSigned x then 4
  else if !imagePlaced x then 5
  else if sha256 (imageMgmt x) ≠ imageAt x 0x40 32 then 6
  else if sha256 (imageApp x) ≠ imageAt x 0x60 32 then 7
  else 0

/-- A slot is verified and its sections are loaded; the code of the check goes to MGC_B_FAILA or MGC_B_FAILB. -/
def State.verifyLoad (s : State) (slot : Nat) (x : SlotImage) : Bool × State :=
  let c := s.slotCheck x
  let s := s.wr (if slot = 0 then MGC_B_FAILA else MGC_B_FAILB) c
  let read := c = 0 ∨ 6 ≤ c
  let s := if read ∧ c ≠ 8 then s.setCcx fun y => { y with mgmt := memStore y.mgmt mgmtBase (imageMgmt x) } else s
  let s := if c = 0 ∨ c = 7 then s.setCcx fun y => { y with sram := memStore y.sram (imageField x 0x28 8) (imageApp x) } else s
  (c == 0, s)

/-! ## Selection (R310, R313) -/

/-- A verified slot is started (R310, R314). -/
def State.startImage (s : State) (slot reason : Nat) (x : SlotImage) : State :=
  let s := (((s.wr MGC_B_SLOT slot).wr MGC_B_REASON reason).wr MGC_B_SVN (imageField x 0x0C 1)).wr MGC_BVER (imageField x 8 4)
  let s := (s.wr CCX_QSP_WPA (b2n (slot == 0))).wr CCX_QSP_WPB (b2n (slot == 1))
  (s.setCcx fun c => { c with
    recovery := false, bootDue := false, bootOk := false, kidx := imageField x 0x0D 1, wkick := s.clk
    image := some ⟨imageField x 0x1C 4, imageField x 0x20 4, imageField x 0x28 8, imageAt x 0x60 32⟩ }).runHarts

/-- Neither slot verifies: recovery (R313). -/
def State.enterRecovery (s : State) : State :=
  let s := if s.ccx.recovery then s else
    s.log 0x500A deviceTc (s.rd MGC_B_FAILA + s.rd MGC_B_FAILB * 2 ^ 8)
  let s := ((s.wr CCX_QSP_WPA 0).wr CCX_QSP_WPB 0).wr (OWN_TC 0x0A3) 0
  (s.setCcx fun c => { c with recovery := true, bootDue := false, image := none }).runHarts

/-- The boot ROM stops until the next start (R310). -/
def State.bootStops (s : State) : State := s.setCcx fun c => { c with bootDue := false, recovery := false }

/-- The last steps of the selection: the trial ends, the other slot, or recovery; `n`: the writes made. -/
def State.selectOther (s : State) (w pref reason n : Nat) (img : Nat → SlotImage) (lost : Option Nat) : State :=
  let r : Bool × State :=
    if brTrial w then
      let r := s.writeBoot (brRevert w) (lost == some n)
      (r.1, if r.1 then r.2.log 0x4032 deviceTc (brGood w) else r.2)
    else (true, s)
  if !r.1 then r.2.bootStops
  else
    let v := r.2.verifyLoad (1 - pref) (img (1 - pref))
    if v.1 then v.2.startImage (1 - pref) (if reason = 0 then 1 else reason) (img (1 - pref))
    else v.2.enterRecovery

/-- The selection of R310; `lost`: the write of the record in which the supply fails. -/
def State.selectImage (s : State) (img : Nat → SlotImage) (lost : Option Nat) : State :=
  let b := s.readBoot
  let w := b.1
  let s := ((b.2.wr MGC_BREC (w % 256)).wr MGC_B_FAILA 0).wr MGC_B_FAILB 0
  let used := brTrial w && brTries w == 0
  let w' := if used then brRevert w else if brTrial w then brWith w (brPref w) true (brTries w - 1) (brGood w) else w
  let r := if brTrial w then s.writeBoot w' (lost == some 0) else (true, s)
  if !r.1 then r.2.bootStops
  else
    let s := if used then r.2.log 0x4032 deviceTc (brGood w) else r.2
    let reason := if used then 2 else 0
    let pref := brPref w'
    let v := s.verifyLoad pref (img pref)
    if v.1 then v.2.startImage pref reason (img pref)
    else v.2.selectOther w' pref reason (b2n (brTrial w)) img lost

/-- The slots by number. -/
def slotOf (a b : SlotImage) (k : Nat) : SlotImage := if k = 0 then a else b

/-- BOOT_SELECT (R310): the two slots as the flash returns them. -/
def execBootSelect (slotA slotB : SlotImage) (lost : Option (Fin 4)) (s : State) : Result :=
  .next (if s.ccx.bootDue then s.selectImage (slotOf slotA slotB) (lost.map (·.val)) else s)

/-- RECOVERY_RETRY (R313): the selection is repeated. -/
def execRecoveryRetry (slotA slotB : SlotImage) (lost : Option (Fin 4)) (s : State) : Result :=
  .next (if s.ccx.recovery then s.selectImage (slotOf slotA slotB) (lost.map (·.val)) else s)

/-! ## Boot commands (R311, R315) -/

/-- A boot command completes. -/
def State.bootDone (s : State) (c : Status) : Status × State :=
  (c, (s.wr MGC_BCODE (codeOf c)).raise 0x0A8 2)

/-- MGC_TRIAL: the slot of MGC_TSLOT on trial. -/
def State.bootTrial (s : State) (lost : Bool) : Status × State :=
  let slot := s.rd MGC_TSLOT
  if slot = s.rd MGC_B_SLOT then s.bootDone .cfgInvalid
  else
    let b := s.readBoot
    let r := b.2.writeBoot (brWith b.1 slot true 3 (brGood b.1)) lost
    if r.1 then (r.2.log 0x4031 deviceTc slot).bootDone .ok else r.2.bootDone .powerLost

/-- MGC_BOOTOK: the running slot is preferred and good. -/
def State.bootConfirm (s : State) (lost : Bool) : Status × State :=
  let slot := s.rd MGC_B_SLOT
  let ver := s.rd MGC_BVER
  let b := s.readBoot
  let r := b.2.writeBoot (putBits (brWith b.1 slot false 0 slot) 32 32 ver) lost
  if r.1 then
    let s := r.2.log 0x4033 deviceTc (slot + ver * 2 ^ 32)
    (s.setCcx fun c => { c with bootOk := true }).bootDone .ok
  else r.2.bootDone .powerLost

/-- MGC_BCMD: the slot number is stored, then the commands in the order of their bits. -/
def State.bootCommand (s : State) (q : Req) (d : Nat) (lost : Bool) : Status × State :=
  let s := s.storeWord q.page q.off d
  let r : Status × State := if bit d 0 then s.bootConfirm lost else (.ok, s)
  let t : Status × State := if bit d 1 then r.2.bootTrial lost else (.ok, r.2)
  (firstOf r.1 t.1,
    if bit d 2 ∧ t.2.ccx.image.isSome then t.2.setCcx fun c => { c with reload := true } else t.2)

/-- RELOAD_COMPLETE (R315): the application section as read again; a digest that differs is logged and resets the
system. -/
def execReloadComplete (app : List Byte) (s : State) : Result :=
  .next (
    match s.ccx.image with
    | none => s
    | some x =>
      if s.ccx.reload = false then s
      else
        let s := s.setCcx fun c => { c with reload := false }
        let l := padTo x.alen app
        if sha256 l = x.dig then
          ((s.setCcx fun c => { c with sram := memStore c.sram x.load l }).bootDone .ok).2
        else ((s.bootDone .integFail).2.log 0x500B deviceTc 0).systemReset 2)

/-- MGC_WATCHDOG (R314): MGC_WDT_MS have passed since the last kick of a running image. -/
def execMgcWatchdog (s : State) : Result :=
  .next (
    if s.on MGC_WDT_EN = false ∨ s.ccx.image = none then s
    else (s.waitUntil (s.ccx.wkick + msTicks (s.rd MGC_WDT_MS))).systemReset 1)

/-! ## Page 0x0A8 -/

/-- Writes of page 0x0A8 (Table 12-14); `lost`: the supply fails in the write of the boot record. -/
def mgcWriter (lost : Bool) : Writer := fun s q d =>
  if q.off = 0x04C then s.bootCommand q d lost
  else if q.off = 0x054 then storeIf (bits d 0 16 != 0) s q d
  else if q.off = 0x058 then (.ok, if bit d 0 then s.setCcx fun c => { c with wkick := s.clk } else s)
  else if q.off = 0x05C then s.seqSubmit (bits d 0 4) (bits d 16 10)
  else if q.off = 0x0C0 then
    let s := if bit d 0 then s.wr MGC_DB_TOCCX 1 else s
    (.ok, if bit d 1 then (s.wr MGC_DB_TOMGC 1).raise 0x0A8 0 else s)
  else plainWrite s q d

/-- MGC_TRIAL (R311). -/
def execMgcTrial (w : RegWrite) (lost : Bool) (s : State) : Result :=
  .next (s.writeReg (mgcWriter lost) 0x0A8 0x04C w (setBit · 1))

/-- MGC_BOOTOK (R311). -/
def execMgcBootok (w : RegWrite) (lost : Bool) (s : State) : Result :=
  .next (s.writeReg (mgcWriter lost) 0x0A8 0x04C w (setBit · 0))

/-- MGC_CCXRELOAD (R315). -/
def execMgcCcxreload (w : RegWrite) (s : State) : Result :=
  .next (s.writeReg (mgcWriter false) 0x0A8 0x04C w (setBit · 2))

/-- MGC_WKICK (R314). -/
def execMgcWkick (w : RegWrite) (s : State) : Result := .next (s.writeReg (mgcWriter false) 0x0A8 0x058 w (setBit · 0))

/-- RESTORE_PAGE (R317, op 0x1). -/
def execRestorePage (w : RegWrite) (s : State) : Result :=
  .next (s.writeReg (mgcWriter false) 0x0A8 0x05C w fun d => putBits d 0 4 1)

/-- RESTORE_ACC (R317, R547, op 0x2). -/
def execRestoreAcc (w : RegWrite) (s : State) : Result :=
  .next (s.writeReg (mgcWriter false) 0x0A8 0x05C w fun d => putBits d 0 4 2)

/-- SAVE_ACC (R317, R547, op 0x3). -/
def execSaveAcc (w : RegWrite) (s : State) : Result :=
  .next (s.writeReg (mgcWriter false) 0x0A8 0x05C w fun d => putBits d 0 4 3)

/-- MGC_DB_TOCCX (R302). -/
def execMgcDbToccx (w : RegWrite) (s : State) : Result := .next (s.writeReg (mgcWriter false) 0x0A8 0x0C0 w (setBit · 0))

/-- MGC_DB_TOMGC (R302). -/
def execMgcDbTomgc (w : RegWrite) (s : State) : Result := .next (s.writeReg (mgcWriter false) 0x0A8 0x0C0 w (setBit · 1))

end Sys2Proof.Machine
end

