-- ==== Sys2Proof/Machine/Pages.lean ====
section
/-! DEFINITION. The register pages as a whole (chapter 3): the common header with LOCK, interrupts and the page reset
(R65 to R77, R92), pages SYS and IAG (R94, R97), the scrubs (R86, R87), and the writer and the reader of every
register. -/

namespace Sys2Proof.Machine

open Reg

/-! ## The blocks -/

/-- Writes of a block register of a page below 0x080. -/
def lowWrite : Writer := fun s q d =>
  if q.page ≤ 0x001 then plainWrite s q d
  else if q.page ≤ 0x005 then tncWriter none s q d
  else if q.page ≤ 0x011 then ctfWrite s q d
  else if q.page ≤ 0x029 then acsWrite s q d
  else if q.page ≤ 0x039 then mteWrite s q d
  else if q.page ≤ 0x048 then accWrite s q d
  else if q.page ≤ 0x06F then plsWrite s q d
  else pqeWrite s q d

/-- Writes of a block register of pages 0x080 to 0x0B1. -/
def midWrite : Writer := fun s q d =>
  if q.page ≤ 0x088 then tunWrite s q d
  else if q.page = 0x090 then ltrWrite s q d
  else if q.page = 0x098 then barmWrite s q d
  else if q.page ≤ 0x0A3 then ccxWrite s q d
  else if q.page = 0x0A8 then mgcWriter false s q d
  else pltWrite s q d

/-- Writes of a block register of pages 0x0B4 to 0x0F0. -/
def highWrite : Writer := fun s q d =>
  if q.page = 0x0B4 then plpWrite s q d
  else if q.page ≤ 0x0BB then plmWrite s q d
  else if q.page = 0x0C0 then swcWrite s q d
  else if q.page = 0x0C8 then tmpWrite s q d
  else if q.page = 0x0CC then clgWrite s q d
  else if q.page = 0x0D0 then secWrite s q d
  else if q.page = 0x0D8 then celWriter none s q d
  else if q.page = 0x0E0 then bgaWrite s q d
  else if q.page ≤ 0x0E9 then pmuWrite s q d
  else monWrite s q d

/-- A write of page 0x100; what the PHY answers to an MDIO read is a free value. -/
def ethWrite : Writer := fun s q d =>
  if q.off = 0x06C ∧ bit d 31 = true then
    let r := s.draw 16
    ethWriter r.1 r.2 q d
  else ethWriter 0 s q d

/-- Writes of a block register from page 0x100 upwards. -/
def topWrite : Writer := fun s q d =>
  if q.page = 0x100 then ethWrite s q d
  else if q.page = 0x104 then plainWrite s q d
  else if q.page = 0x108 then i2tWrite s q d
  else if q.page ≤ 0x10D then uartWrite s q d
  else if q.page = 0x110 then gpioWrite s q d
  else if q.page = 0x114 then tinWrite s q d
  else if q.page = 0x118 then dbgWrite s q d
  else if q.page ≤ 0x17F then accWrite s q d
  else tncWriter none s q d

/-- The seed has just been accepted: the log and the seal take up the stamp (R419, R545). -/
def State.seedFollow (s old : State) : State :=
  if s.ctf.seeded = true ∧ old.ctf.seeded = false then s.clgSeeded.sealSeeded else s

/-- What a write leads to beside its block: the stamp after a seed, the pages gated by a change of the CTF state. -/
def State.writeFollow (s old : State) (page : Nat) : State :=
  if page = 0x010 then (s.seedFollow old).gateFrom old else s

/-- Writes of the block registers. -/
def bodyWrite : Writer := fun s q d =>
  let r := if q.page < 0x080 then lowWrite s q d
    else if q.page ≤ 0x0B1 then midWrite s q d
    else if q.page ≤ 0x0F0 then highWrite s q d
    else topWrite s q d
  (r.1, r.2.writeFollow s q.page)

/-- Page SYS: SYS_TC shows the requester (R97). -/
def sysRead : Reader := fun s q => if q.off = 0x058 then (.ok, q.tc, s) else plainRead s q

/-- Page IAG: the pending lines and the summaries, in the view of the tenant through its alias window (R94); a read
of IAG_TSUM_LO latches IAG_TSUM_HI for that view (R63). -/
def iagRead : Reader := fun s q =>
  let mine (n : Nat) : Bool := q.slot.isNone || s.rd (OWN_TC n) == q.tc
  let own (t : Nat) : Bool := q.slot.isNone || t == q.tc
  let key := regKey 0x001 (0x400 + 4 * (if q.slot.isSome then q.tc else 0))
  if q.off < 0x0C0 then (.ok, s.psum ((q.off - 0x040) / 4) mine, s)
  else if q.off = 0x0C0 then
    (.ok, s.tsum 0 own, { s with latch := cellInsert key (BitVec.ofNat 32 (s.tsum 32 own)) s.latch })
  else if q.off = 0x0C4 then
    (.ok, match s.latch.find? fun e => e.1 == key with
      | some e => e.2.toNat
      | none => s.tsum 32 own, s)
  else plainRead s q

/-- Reads of the block registers. -/
def bodyRead : Reader := fun s q =>
  if q.page = 0x000 then sysRead s q
  else if q.page = 0x001 then iagRead s q
  else if q.page ≤ 0x005 then tncRead s q
  else if q.page ≤ 0x011 then ctfRead s q
  else if q.page ≤ 0x029 then plainRead s q
  else if q.page ≤ 0x039 then mteRead s q
  else if q.page ≤ 0x048 then accRead s q
  else if q.page ≤ 0x06F then plainRead s q
  else if q.page = 0x070 then pqeRead s q
  else if q.page ≤ 0x088 then tunRead s q
  else if q.page = 0x090 then ltrRead s q
  else if q.page = 0x098 then barmRead s q
  else if q.page = 0x0B0 ∨ q.page = 0x0B1 then pltRead s q
  else if 0x0B8 ≤ q.page ∧ q.page ≤ 0x0BB then plmRead s q
  else if q.page = 0x0C0 then swcRead s q
  else if q.page = 0x0CC then clgRead s q
  else if q.page = 0x0E0 then bgaRead s q
  else if q.page = 0x10C ∨ q.page = 0x10D then uartRead s q
  else if 0x140 ≤ q.page ∧ q.page ≤ 0x17F then accRead s q
  else if 0x300 ≤ q.page then tncRead s q
  else plainRead s q

/-! ## Page reset (R67) -/

/-- Current banks and DX: what a change of the reset fields disturbs (R149, R150). -/
def State.acsReset (s old : State) (b : Nat) : State :=
  let s := (pairChanged old.pairing s.pairing).foldl State.calDisturb s
  (List.range 8).foldl (fun s i =>
    let off := 0x100 + 32 * i
    let change := old.reg (0x020 + b) off ^^^ s.reg (0x020 + b) off
    if change = 0 then s
    else
      let s := s.calDisturb (8 * b + i)
      let s := if bits change 0 3 ≠ 0 ∨ bit change 8 = true then s.setConv (8 * b + i) fun v =>
          { v with zeroOk := false } else s
      if bit change 8 then s.setConv (8 * b + i) fun v => { v with integ := 0 } else s) s

/-- The sweep chain after a reset of its page. -/
def State.swcReset (s old : State) : State :=
  let s := if s.swcHead = old.swcHead then s else s.wr SWC_POS (if s.swcHead then 0 else 0x3F)
  s.offsetShow.alignShow

/-- The gauge after a reset of its page: it is disabled. -/
def State.bgaReset (s : State) : State := (((s.learnEnd .skipped).mntAbort).wr BGA_ST bgaOff)

/-- The rails and AUXOUT after a reset of their page: AUXOUT as the straps ask (R506). -/
def State.railReset (s : State) : State :=
  let s := (s.wr PMU_AUX_EN (b2n (s.pmu.strap == 1 || s.pmu.strap == 2))).wr PMU_AUX_V (b2n (s.pmu.strap == 2))
  s.auxFollow.railsFollow

/-- The tenants lose the views that a reset of page 0x003 takes (R104). -/
def State.viewsReset (s old : State) : State :=
  (List.range 64).foldl (fun s t =>
    let v := old.rd64 (TNC_CHV_LO t) (TNC_CHV_HI t)
    if t = 1 ∨ v = 0 then s else s.viewRemoved t v 0) s

/-- What follows the fields of a page that its reset has changed, in `s`; `old` is the state before. -/
def State.resetFollow (s old : State) (p : Nat) : State :=
  if p = 0x003 then s.viewsReset old
  else if p = 0x004 then s.setTnc fun x => { x with aliases := [] }
  else if 0x020 ≤ p ∧ p ≤ 0x028 then s.acsReset old (p - 0x020)
  else if 0x060 ≤ p ∧ p ≤ 0x06F then s.plsPageReset (p - 0x060)
  else if p = 0x070 then s.pqePageReset
  else if p = 0x0A0 then s.runHarts
  else if p = 0x0B0 then s.pltShow
  else if p = 0x0C0 then s.swcReset old
  else if p = 0x0D8 then s.bpShow
  else if p = 0x0E0 then s.bgaReset
  else if p = 0x0E8 then s.packShow
  else if p = 0x0E9 then s.railReset
  else if p = 0x0F0 then s.wr MON_CAP (old.rd MON_CAP)
  else if p = 0x110 then s.gpioShow
  else if 0x140 ≤ p ∧ p ≤ 0x17F then
    { s with acc := { s.acc with outside := s.acc.outside.filter fun k => k / 64 != p - 0x140 } }
  else s

/-- A page reset: every RW field of the page at its reset value, and the entry (R67). -/
def State.pageReset (s : State) (p : Nat) : State :=
  ((s.resetRw p).resetFollow s p).log 0x4003 (s.rd (OWN_TC p)) p

/-! ## LOCK (R73 to R77) -/

/-- A write to LOCK within the challenge: the codes that apply to a failing one, OK otherwise (R74, R76). -/
def State.lockCheck (s : State) (q : Req) (d : Nat) : Status :=
  match (s.pg q.page).chal with
  | none => .cfgInvalid
  | some c =>
    let late : Status := if c.clk + 480 < s.now then .timeout else .ok
    let wrong : Status :=
      if bit d 31 = false ∨ bits d 0 16 ≠ c.value ^^^ q.page ∨ c.tc ≠ q.tc then .cfgInvalid else .ok
    let kept : Status := if s.on (LOCK_SEAL q.page) ∧ bit d 30 = false then .prot else .ok
    firstOf (firstOf late wrong) kept

/-- A write to LOCK. -/
def State.lockWrite (s : State) (q : Req) (d : Nat) : Status × State :=
  let c := s.lockCheck q d
  if c = .ok then
    (.ok, (s.setPg q.page fun g => { g with chal := none, fails := 0 }).setHeld q.page (bit d 30))
  else (c, s.lockFailed q.page)

/-- LOCK_HELD and LOCK_SEAL as LOCK shows them. -/
def State.lockBits (s : State) (page : Nat) : Nat :=
  b2n (s.held page) * 2 ^ 16 + b2n (s.on (LOCK_SEAL page)) * 2 ^ 17

/-- A read of LOCK: the owner gets a fresh challenge, unless the random bit generator has failed (R73, R432). -/
def State.lockRead (s : State) (q : Req) : Status × Nat × State :=
  if s.owns q = false ∨ s.on SEC_RBGERR = true then (.ok, s.lockBits q.page, s)
  else
    let r := s.draw 16
    let t := r.2.setPg q.page fun g => { g with chal := some ⟨r.1, q.tc, s.now⟩ }
    (.ok, r.1 + s.lockBits q.page, t)

/-! ## The common header -/

/-- Bits of IRQ_RAW are cleared; the doorbell to the management core is its event bit (R92, R302). -/
def State.rawClear (s : State) (page d : Nat) : State :=
  let s := s.wr (IRQ_RAW page) (s.rd (IRQ_RAW page) &&& (0xFFFFFFFF ^^^ d))
  if page = 0x0A8 ∧ bit d 0 = true then s.wr MGC_DB_TOMGC 0 else s

/-- Writes of the common header. -/
def headWrite : Writer := fun s q d =>
  match q.off with
  | 0x08 => (.ok, if bit d 31 then s.pageReset q.page else s)
  | 0x10 => (.ok, s.rawClear q.page d)
  | 0x1C => (.ok, s.rawClear q.page d)
  | 0x20 => s.lockWrite q d
  | 0x28 => (.ok, if bit d 31 then (s.wr (ERR_VALID q.page) 0).wr (ERR_CNT q.page) 0 else s)
  | _ => plainWrite s q d

/-- Reads of the common header: STS_CLKOFF, STS_LOCKED, IRQ_PEND, LOCK and INTEG are computed. -/
def headRead : Reader := fun s q =>
  match q.off with
  | 0x0C =>
    (.ok, putBits (putBits (s.reg q.page 0x0C) 29 1 (b2n (!s.pageRuns q.page))) 30 1 (b2n (s.held q.page)), s)
  | 0x18 => (.ok, s.irqPend q.page, s)
  | 0x20 => s.lockRead q
  | 0x2C => (.ok, if (s.pg q.page).scrubbed then s.integRef q.page else 0, s)
  | _ => plainRead s q

/-- The writer of every register. -/
def anyWrite : Writer := fun s q d => if q.off < 0x40 then headWrite s q d else bodyWrite s q d

/-- The reader of every register. -/
def anyRead : Reader := fun s q => if q.off < 0x40 then headRead s q else bodyRead s q

/-! ## Commands -/

/-- CONFIG_WRITE (R64): a write of any register. -/
def execConfigWrite (a : Access) (s : State) : Result := .next (s.write anyWrite a)

/-- READ_CLEAR (R83): a read of any register; the owner's read of an RC field clears it. -/
def execReadClear (a : Access) (s : State) : Result := .next (s.read anyRead { a with replay := false })

/-- REPLAY_READ (R83): a read with the replay flag. -/
def execReplayRead (a : Access) (s : State) : Result := .next (s.read anyRead { a with replay := true })

/-- CTRL_PRST (R67): a write of 1 to the page reset of `page`. -/
def execCtrlPrst (page : Fin 1024) (w : RegWrite) (s : State) : Result :=
  .next (s.writeReg anyWrite page.val 0x08 w (setBit · 31))

/-- LOCK_READ (R73): a read of LOCK of `page`. -/
def execLockRead (page : Fin 1024) (r : RegRead) (s : State) : Result :=
  .next (s.readReg anyRead page.val 0x20 r)

/-- LOCK_WRITE (R74): a write of LOCK of `page`. -/
def execLockWrite (page : Fin 1024) (w : RegWrite) (s : State) : Result :=
  .next (s.writeReg anyWrite page.val 0x20 w id)

/-- IRQ_CLR (R92): a write of IRQ_CLR of `page`. -/
def execIrqClr (page : Fin 1024) (w : RegWrite) (s : State) : Result :=
  .next (s.writeReg anyWrite page.val 0x1C w id)

/-- The stored bits of a configuration word flip: byte offset, bits. Bits outside its RW fields hold no
configuration (R85). -/
def State.upset (s : State) (page : Nat) (u : Nat × Nat) : State :=
  let o := u.1 / 4 * 4
  let m := u.2 &&& rwMask page o
  if o ∈ configOffs page ∧ m ≠ 0 then
    (s.setReg page o (s.reg page o ^^^ m)).setPg page fun g => { g with upsets := g.upsets ++ [(o, m)] }
  else s

/-- INTEG_SCRUB (R86, R87): a scrub of `page`, once its domain runs; `upset`: bits that have flipped since the last
one. -/
def execIntegScrub (page : Fin 1024) (upset : Option (Nat × Nat)) (s : State) : Result :=
  .next (
    if RegMap.assigned page.val = false then s
    else
      let s := match upset with
        | some u => s.upset page.val u
        | none => s
      if s.pageRuns page.val then s.scrubPage page.val else s)

/-- SEALED_PAGE_REWRITE (R87): a sealed page in a mismatch run is rewritten from the sealed copy, once per run. -/
def execSealedPageRewrite (page : Fin 1024) (s : State) : Result :=
  .next (
    if s.on (STS_SEALED page.val) ∧ s.on (STS_INTEGERR page.val) = true ∧ (s.pg page.val).mended = false then
      (s.rewritePage page.val).2.setPg page.val fun g => { g with mended := true }
    else s)

/-- SEED (R32): a write of CTF_SEED_HI. -/
def execSeed (w : RegWrite) (s : State) : Result := .next (s.writeReg anyWrite 0x010 0x0A4 w id)

/-- CTF_REACQ (R41): a write of 1 to CTF_REACQ. -/
def execCtfReacq (w : RegWrite) (s : State) : Result := .next (s.writeReg anyWrite 0x010 0x0CC w (setBit · 0))

end Sys2Proof.Machine
end

