-- ==== Sys2Proof/Machine/Boundary.lean ====
section
/-! DEFINITION. Cycle boundaries, sample words and the signals of the scheduling table, which act on several blocks
at once (R31, R47 to R51, R57, R126, R142). -/

namespace Sys2Proof.Machine

open Reg

/-! ## What follows a change of the CTF -/

/-- The CTF state has changed: pages of blocks marked Lk may have stopped (R25). -/
def State.ctfFollow (s old : State) : State := if s.ctfSt = old.ctfSt then s else s.gateFrom old

/-- Signals of the scheduling table have changed: the quiet-slot gate and the pins (R48, R574). -/
def State.signalFollow (s old : State) : State :=
  if s.ctf.asserted = old.ctf.asserted ∧ s.ctf.quiet = old.ctf.quiet then s else (s.tunGate old).gpioShow

/-! ## Cycle boundaries -/

/-- The cycle that ends at the present tick, as metrology is to close it (R155, R166). -/
def State.endingCycle (s : State) (rephase : Bool) : CycleEnd where
  opening := s.mte.opening
  cyc     := s.stamp.cyc
  closeSt := s.ctfSt
  rephase := rephase
  len     := if rephase then s.ctf.ph * s.rd CTF_PERIOD / 65536 else s.rd CTF_PERIOD
  cont    := if s.acs.testDone then none else s.acs.testing
  ref     := s.rd CTF_REF

/-- What is fixed at the boundary for the cycle that it opens. -/
def State.openingNow (s : State) : CycleOpen where
  st     := s.ctfSt
  sealed := s.on TNC_SEALED
  field  := s.fieldMask
  tin    := s.rd TIN_LVL
  force  := s.inForce

/-- The reference comparison of both diagnostic channels, by the configuration of the closed cycle (R528). -/
def State.refBoundary (s : State) (force : List (Nat × Word)) : State :=
  { ({ s with inForce := force }.refCompare 0).refCompare 1 with inForce := s.inForce }

/-- The boundary at the present tick; `rephase`: it ends a re-phase cycle (R47, R57). -/
def State.boundary (s : State) (rephase : Bool) : State :=
  let e := s.endingCycle rephase
  let force := s.inForce
  let pairs := s.acs.pairs
  let t := (s.openCycle.tmpBoundary).ctfBoundary rephase
  let t := (t.acsBoundary s.ctf.unlocked force).refBoundary force
  let t := (t.mteBoundary pairs e t.openingNow).accBoundary force
  let t := t.pqeBoundary force pairs e.cyc e.closeSt
  let t := (t.tunBoundary.startAll).carryCycle
  (t.signalFollow s).ctfFollow s

/-- CYCLE_BOUNDARY (R57): the phase counter wraps; `period`: the period that the CTF has measured (R46). -/
def execCycleBoundary (period : BitVec 24) (s : State) : Result :=
  .next ((s.closePeriod period.toNat).boundary false)

/-! ## Sample words -/

/-- The word reaches the CTF, which uses it where it passes its check and is neither NOS nor TEST (R34, R142). -/
def State.sampleCtf (s : State) (d : Delivery) (good : Bool) (w : BitVec 40) : State :=
  let code := ctfCodeOf d.chan
  if code = 0 then s
  else
    let n := w.toNat
    let v := if good && !bit n 24 && !bit n 26 then some (signed 24 n) else none
    let r := s.ctfSample code v
    let t := (r.1.pqeCrossing s code).ctfFollow s
    if r.2 then t.boundary true else t

/-- The consumers that find a word bad: bit 0 the CTF, bit 1 metrology, bit 2 power quality (R410). -/
def badConsumers (d : Delivery) (g : Bool × Bool × Bool) : Nat :=
  b2n (!g.1 && ctfCodeOf d.chan != 0) + b2n (!g.2.1) * 2 + b2n (!g.2.2) * 4

/-- A word on its way to its consumers, with the bits that flip (R142). -/
def State.deliverSample (s : State) (w : SampleIn) (d : Delivery) : State :=
  let good (flip : BitVec 40) : Bool := sampleOk s.stamp.cyc w.conv.val d.phase (d.word ^^^ flip)
  let g : Bool × Bool × Bool := (good w.errCtf, good w.errMte, good w.errPqe)
  let m := badConsumers d g
  let s := (s.mteSample d g.2.1 (d.word ^^^ w.errMte)).pqeSample d g.2.2 (d.word ^^^ w.errPqe)
  (if m = 0 then s else s.carryFail w.conv.val m).sampleCtf d g.1 (d.word ^^^ w.errCtf)

/-- SAMPLE_WORD (R142): a conversion at its position of the cycle; a bank whose domain is gated delivers nothing, and
the diagnostic channels have no consumer. -/
def execSampleWord (w : SampleIn) (s : State) : Result :=
  .next (
    if s.pageRuns (0x020 + bankOf w.conv.val) = false then s
    else
      let r := s.convert w
      if 72 ≤ r.2.chan then r.1 else r.1.deliverSample w r.2)

/-! ## Scheduling table -/

/-- SCHED_ACTIVATE (R51): in the commit cycle the validated bank becomes active. -/
def execSchedActivate (s : State) : Result :=
  .next (match s.ctf.commitAt with
    | none => s
    | some n => if s.ctf.seeded = true ∧ n ≤ s.ctf.cyc then s.swapBanks.signalFollow s else s)

/-- The edge of entry `n` is due: what it changes in the signals (R48, R50). -/
def State.signalEdge (s : State) (n : Nat) (edge : SchedEdge) : Option CtfState :=
  let e := s.activeEntry n
  let c := s.ctf
  match edge with
  | .assertSignal => if s.entryActs e then some { c with asserted := n :: c.asserted.erase n } else none
  | .releaseSignal => if n ∈ c.asserted then some { c with asserted := c.asserted.erase n } else none
  | .openQuiet =>
    if s.entryActs e ∧ entCons e = 2 ∧ s.on CTF_QAUTO then some { c with quiet := n :: c.quiet.erase n } else none
  | .closeQuiet => if n ∈ c.quiet then some { c with quiet := c.quiet.erase n } else none

/-- SCHED_SIGNAL (R48, R50): an edge of an entry of the active bank at its tick. -/
def execSchedSignal (entry : Fin 256) (edge : SchedEdge) (s : State) : Result :=
  .next (
    let n := entry.val
    match s.signalEdge n edge with
    | none => s
    | some _ =>
      let t := s.advanceTo (s.edgePhase (s.activeEntry n) edge)
      let t := match t.signalEdge n edge with
        | some c => { t with ctf := c }
        | none => t
      let t := t.signalFollow s
      if edge = .assertSignal then t.plpWindow n else t)

end Sys2Proof.Machine
end

