-- ==== Sys2Proof/Machine/Access.lean ====
section
/-! DEFINITION. Accesses of the cores to their physical maps (R292 to R303): shared inference SRAM and LPDDR4X with the
window check and the caches of the harts, the core timer, the interrupt controller, the register space. -/

namespace Sys2Proof.Machine

open Reg

/-! ## Outcomes -/

/-- The access fault of a kind of access; that of a cache-block operation is a store fault. -/
def faultKind : AccessKind → AccessFault
  | .load => .load
  | .fetch => .fetch
  | _ => .store

/-- The access reads. -/
def accessReads : AccessKind → Bool
  | .load => true
  | .fetch => true
  | _ => false

/-- The access is a cache-block operation. -/
def cacheOp : AccessKind → Bool
  | .clean => true
  | .flush => true
  | .inval => true
  | _ => false

/-- The access raises an access fault. -/
def State.coreFault (s : State) (a : HartAccess) : State :=
  { s.setHart a.core.val fun h => { h with fault := some (faultKind a.kind) } with resp := {} }

/-- The access completes with a code and bytes. -/
def State.coreDone (s : State) (a : HartAccess) (c : Status) (data : List Byte) : State :=
  { s.setHart a.core.val fun h => { h with fault := none } with resp := { code := c, data := byteNats data } }

/-- The first byte and the number of bytes that an access touches; a cache-block operation works on its block
(R292). -/
def accessSpan (a : HartAccess) (addr : Nat) : Nat × Nat :=
  if cacheOp a.kind then (addr / 64 * 64, 64) else (addr, a.size)

/-- The range lies in [base, base + len). -/
def within (r : Nat × Nat) (base len : Nat) : Bool := decide (base ≤ r.1) && decide (r.1 + r.2 ≤ base + len)

/-! ## Error checks (R303, R304) -/

/-- A word of memory `m` (0 control SRAM, 1 L2, 2 management SRAM, 3 LPDDR4X) has been corrected, or is
uncorrectable. -/
def State.eccNote (s : State) (m addr : Nat) (unc : Bool) : State :=
  let w := addr / 8 * 8
  if !unc then s.count (if m = 3 then CCX_DDR_CORRN else CCX_M_CORRN)
  else
    let s := if m = 3 then ((s.count CCX_DDR_UNCN).wr CCX_DDR_EA ((w - ddrBase) % 2 ^ 32)).raise 0x0A2 1
      else (((s.count CCX_M_UNCN).wr CCX_M_EA_LO (w % 2 ^ 32)).wr CCX_M_EA_HI (w / 2 ^ 32 % 256)).raise 0x0A1 0
    s.log 0x5009 deviceTc (m + w * 2 ^ 8)

/-- What the error check of a read met in memory `m`, or in the L2; whether it was uncorrectable. -/
def State.eccCheck (s : State) (a : HartAccess) (m addr : Nat) : Bool × State :=
  match a.ecc with
  | some (unc, inL2) =>
    if accessReads a.kind then (unc, s.eccNote (if inL2 && a.core.val != 4 then 1 else m) addr unc) else (false, s)
  | none => (false, s)

/-! ## The window check (R301) -/

/-- An access in supervisor or user mode to shared inference SRAM or LPDDR4X lies in windows of the hart's tenant; a
cache-block operation may read or write. Without a tenant context no window holds. -/
def State.windowPasses (s : State) (a : HartAccess) (r : Nat × Nat) : Bool :=
  let h := a.core.val
  let may (write : Bool) : Bool := covered (s.windowEnd none (s.rd (CCX_C_TC h)) write) 16 r.1 r.2
  a.machine || h == 4 || (s.on (CCX_C_TCV h) && match a.kind with
    | .load => may false
    | .fetch => may false
    | .store => may true
    | _ => may false || may true)

/-- A failing access: fault, count, address, interrupt, entry. -/
def State.hartDenied (s : State) (a : HartAccess) (r : Nat × Nat) : State :=
  let h := a.core.val
  let s := (((s.count CCX_MEMFLTN).wr CCX_FLT_LO (r.1 % 2 ^ 32)).wr CCX_FLT_HI (r.1 / 2 ^ 32 % 256)).raise 0x0A0 1
  (s.log 0x5006 (s.rd (CCX_C_TC h)) (h + r.1 * 2 ^ 8 + b2n (a.kind == .store) * 2 ^ 48)).coreFault a

/-! ## LPDDR4X through the caches (R295) -/

/-- Block `b` in the caches. -/
def State.block? (s : State) (b : Nat) : Option CacheBlock := (s.ccx.cache.find? fun e => e.1 == b).map (·.2)

/-- Block `b` is in the caches, read from memory where it was not. -/
def State.fillBlock (s : State) (b : Nat) : State :=
  match s.block? b with
  | some _ => s
  | none => s.setCcx fun c => { c with
      cache := cellInsert b ⟨BitVec.ofNat 512 (leNat (s.bytes (64 * b) 64)), false⟩ c.cache }

/-- The blocks that a range touches. -/
def blocksOf (r : Nat × Nat) : List Nat := if r.2 = 0 then [] else [r.1 / 64, (r.1 + r.2 - 1) / 64].eraseDups

/-- The byte at an address as the caches hold it. -/
def State.cachedByte (s : State) (a : Nat) : Byte :=
  match s.block? (a / 64) with
  | some x => BitVec.ofNat 8 (bits x.data.toNat (8 * (a % 64)) 8)
  | none => memByte s.mem a

/-- A byte stored into its block. -/
def State.storeCached (s : State) (a : Nat) : List Byte → State
  | [] => s
  | v :: l =>
    match s.block? (a / 64) with
    | some x =>
      let d := putBits x.data.toNat (8 * (a % 64)) 8 v.toNat
      (s.setCcx fun c => { c with cache := cellInsert (a / 64) ⟨BitVec.ofNat 512 d, true⟩ c.cache }).storeCached (a + 1) l
    | none => s.storeCached (a + 1) l

/-- A block that a store has changed is written back. -/
def State.cleanBlock (s : State) (b : Nat) : State :=
  match s.block? b with
  | some ⟨d, true⟩ =>
    (s.store (64 * b) (leBytes 64 d.toNat)).setCcx fun c => { c with cache := cellInsert b ⟨d, false⟩ c.cache }
  | _ => s

/-- A block leaves the caches. -/
def State.dropBlock (s : State) (b : Nat) : State := s.setCcx fun c => { c with cache := cellErase b c.cache }

/-- An access of a hart to LPDDR4X. -/
def State.ddrAccess (s : State) (a : HartAccess) (r : Nat × Nat) : State :=
  let b := r.1 / 64
  match a.kind with
  | .store => (((blocksOf r).foldl State.fillBlock s).storeCached r.1 (padTo r.2 a.data)).coreDone a .ok []
  | .clean => (s.cleanBlock b).coreDone a .ok []
  | .flush => ((s.cleanBlock b).dropBlock b).coreDone a .ok []
  | .inval => (s.dropBlock b).coreDone a .ok []
  | _ =>
    let s := (blocksOf r).foldl State.fillBlock s
    s.coreDone a .ok ((List.range r.2).map fun i => s.cachedByte (r.1 + i))

/-! ## Core timer [PRESUMED: the standard layout, log entry 33] -/

/-- mtime: microseconds of REF48 (R293). -/
def State.mtime (s : State) : Nat := (s.now / 48 + s.ccx.mtimeOfs) % 2 ^ 64

/-- A word of the core timer: msip of hart h at 4h, mtimecmp at 0x4000 + 8h, mtime at 0xBFF8. -/
def State.timerWord (s : State) (off : Nat) : Nat :=
  if off = 0xBFF8 then s.mtime % 2 ^ 32
  else if off = 0xBFFC then s.mtime / 2 ^ 32
  else (cellAt 0#32 off s.ccx.timer).toNat

/-- A word stored; words that no register holds take nothing. -/
def State.timerPut (s : State) (off v : Nat) : State :=
  let put (w : Nat) : State := s.setCcx fun c => { c with timer := cellPut 0#32 off (BitVec.ofNat 32 w) c.timer }
  let set (t : Nat) : State := s.setCcx fun c => { c with mtimeOfs := (t + 2 ^ 64 - s.now / 48 % 2 ^ 64) % 2 ^ 64 }
  if off < 16 then put (v % 2)
  else if 0x4000 ≤ off ∧ off < 0x4020 then put v
  else if off = 0xBFF8 then set (s.mtime / 2 ^ 32 * 2 ^ 32 + v % 2 ^ 32)
  else if off = 0xBFFC then set (v % 2 ^ 32 * 2 ^ 32 + s.mtime % 2 ^ 32)
  else s

/-- The machine timer interrupt and the machine software interrupt of hart `h`. -/
def State.timerIrq (s : State) (h : Nat) : Bool :=
  decide (s.timerWord (0x4000 + 8 * h) + 2 ^ 32 * s.timerWord (0x4004 + 8 * h) ≤ s.mtime)
def State.softIrq (s : State) (h : Nat) : Bool := s.timerWord (4 * h) == 1

/-! ## Interrupt controller (R302) [PRESUMED: the layout of the PLIC specification, log entry 33] -/

/-- A word of the interrupt controller as it is read; a read of a claim register claims. -/
def State.plicRead (s : State) (off : Nat) : Nat × State :=
  if off < 0x1000 then (if off < 512 then s.plicPrio (off / 4) else 0, s)
  else if off < 0x1010 then
    let first := 8 * (off - 0x1000)
    ((List.range 32).foldl (fun a k => if s.plicPending (first + k) then a + 2 ^ k else a) 0, s)
  else if 0x2000 ≤ off ∧ off < 0x2400 then (if off % 128 < 16 then s.plicWord off else 0, s)
  else if 0x200000 ≤ off ∧ off < 0x208000 then
    if off % 0x1000 = 0 then (s.plicWord off, s)
    else if off % 0x1000 = 4 then s.plicClaim ((off - 0x200000) / 0x1000)
    else (0, s)
  else (0, s)

/-- A word written; a write of a claim register completes its source for a context that enables it. -/
def State.plicWrite (s : State) (off v : Nat) : State :=
  let put (w : Nat) : State := s.setCcx fun c => { c with plic := cellPut 0#32 off (BitVec.ofNat 32 w) c.plic }
  if off < 512 then (if off < 4 then s else put (v % 8))
  else if 0x2000 ≤ off ∧ off < 0x2400 ∧ off % 128 < 16 then put (if off % 128 = 0 then v / 2 * 2 else v)
  else if 0x200000 ≤ off ∧ off < 0x208000 then
    let ctx := (off - 0x200000) / 0x1000
    if off % 0x1000 = 0 then put (v % 8)
    else if off % 0x1000 = 4 ∧ v < 128 ∧ s.plicEnabled ctx v = true then
      s.setCcx fun c => { c with served := c.served.erase v }
    else s
  else s

/-- The external interrupt of a context: a source above its threshold waits. -/
def State.plicIrq (s : State) (ctx : Nat) : Bool :=
  decide (s.plicWord (0x200000 + 0x1000 * ctx) < s.plicPrio (s.plicBest ctx))

/-- A device that is reached in aligned words: the timer in words and pairs of words, the interrupt controller in
words; anything else, and a fetch, is an access fault. -/
def State.deviceAccess (s : State) (a : HartAccess) (r : Nat × Nat) (timer : Bool) : State :=
  let off := r.1 - if timer then 0x2000000 else 0xC000000
  let sizeOk := r.2 == 4 || (timer && r.2 == 8)
  if !sizeOk || r.1 % r.2 != 0 then s.coreFault a
  else
    match a.kind with
    | .load =>
      if timer then
        let v := s.timerWord off + if r.2 = 8 then 2 ^ 32 * s.timerWord (off + 4) else 0
        s.coreDone a .ok (leBytes r.2 v)
      else
        let x := s.plicRead off
        x.2.coreDone a .ok (leBytes 4 x.1)
    | .store =>
      let v := leNat (padTo r.2 a.data)
      if timer then
        let s := s.timerPut off (v % 2 ^ 32)
        (if r.2 = 8 then s.timerPut (off + 4) (v / 2 ^ 32) else s).coreDone a .ok []
      else (s.plicWrite off v).coreDone a .ok []
    | _ => s.coreFault a

/-! ## The register space (R297, R298) -/

/-- CCX_RSTAT of a hart: the code and the word address. -/
def State.setRstat (s : State) (core : Nat) (c : Status) (addr : Nat) : State :=
  if core = 4 then s else s.setHart core fun h => { h with rstat := codeOf c + addr * 2 ^ 8 }

/-- The requester of a register access: a hart, or the management core, which issues it as TC00. -/
def corePort (core : Fin 5) : Port := if core.val = 4 then .mgmt else .hart core.val

/-- A register access as the port of the core issues it: `tc` the tenant it carries. -/
def State.regAccess (s : State) (a : HartAccess) (addr : Nat) (tc : Fin 64) : State :=
  let core := a.core.val
  let rply := core != 4 && (s.hart core).rply
  match a.kind with
  | .load =>
    let acc : Access := { port := corePort a.core, tc := tc, addr := BitVec.ofNat 32 addr, size := a.size, replay := rply }
    let A := addressA addr rply
    let t := s.read anyRead acc
    let t := if core = 4 then t else t.setHart core fun h => { h with rply := false }
    let w := BitVec.ofNat 32 (t.resp.data.headD 0) ^^^ a.flip.setWidth 32
    let cc := BitVec.ofNat 8 (t.resp.cc.headD 0) ^^^ (a.flip >>> 32).setWidth 8
    if cc = carryCode false tc.val A w then
      let c := t.resp.code
      (t.setRstat core c A).coreDone a c (leBytes 4 w.toNat)
    else (t.setRstat core .integFail A).coreFault a
  | .store =>
    let A := addressA addr false
    let w := BitVec.ofNat 32 (leNat (padTo 4 (a.data.take 4)))
    let cc := carryCode true tc.val A w
    let acc : Access := { port := corePort a.core, tc := tc, addr := BitVec.ofNat 32 addr, size := a.size,
                          data := w ^^^ a.flip.setWidth 32, cc := cc ^^^ (a.flip >>> 32).setWidth 8 }
    let t := s.write anyWrite acc
    let c := t.resp.code
    (t.setRstat core c A).coreDone a c []
  | _ => s.coreFault a

/-- The tenant of a register access of a core; none where it is not issued (R297). -/
def State.coreTenant (s : State) (a : HartAccess) : Option (Fin 64) :=
  if a.core.val = 4 then some 0
  else (s.hartTenant a.core.val a.machine).map fun t => Fin.ofNat 64 t

/-! ## The maps -/

/-- A memory that a core reaches without a window check: control SRAM or management SRAM. -/
def State.sramAccess (s : State) (a : HartAccess) (r : Nat × Nat) (mgmt : Bool) : State :=
  let e := s.eccCheck a (if mgmt then 2 else 0) r.1
  if e.1 then e.2.coreFault a
  else
    let s := e.2
    match a.kind with
    | .store =>
      let l := padTo r.2 a.data
      (s.setCcx fun c => if mgmt then { c with mgmt := memStore c.mgmt r.1 l } else { c with
        sram := memStore c.sram r.1 l }).coreDone a .ok []
    | .load => s.coreDone a .ok (memBytes (if mgmt then s.ccx.mgmt else s.ccx.sram) r.1 r.2)
    | .fetch => s.coreDone a .ok (memBytes (if mgmt then s.ccx.mgmt else s.ccx.sram) r.1 r.2)
    | _ => s.coreDone a .ok []

/-- Shared inference SRAM: a store that meets the export region is dropped with NOT_OWNER (R172, R293). -/
def State.sharedAccess (s : State) (a : HartAccess) (r : Nat × Nat) : State :=
  match a.kind with
  | .store =>
    if 0xFF0000 < r.1 + r.2 then s.coreDone a .notOwner []
    else (s.store r.1 (padTo r.2 a.data)).coreDone a .ok []
  | .load => s.coreDone a .ok (s.bytes r.1 r.2)
  | .fetch => s.coreDone a .ok (s.bytes r.1 r.2)
  | _ => s.coreDone a .ok []

/-- LPDDR4X, of a hart through the caches, of the management core directly. -/
def State.dramAccess (s : State) (a : HartAccess) (r : Nat × Nat) : State :=
  let e := s.eccCheck a 3 r.1
  if e.1 then e.2.coreFault a
  else if a.core.val ≠ 4 then e.2.ddrAccess a r
  else if a.kind = .store then (e.2.store r.1 (padTo r.2 a.data)).coreDone a .ok []
  else e.2.coreDone a .ok (e.2.bytes r.1 r.2)

/-- The bytes of a read that come from outside: flash, boot ROM. -/
def State.romAccess (s : State) (a : HartAccess) (l : List Byte) : State :=
  if accessReads a.kind then s.coreDone a .ok l
  else if a.kind = .store then s.coreFault a
  else s.coreDone a .ok []

/-- The map of the application harts (R293, Table 12-2). In D3 its memories are not reached. -/
def State.appAccess (s : State) (a : HartAccess) (addr : Nat) : State :=
  let r := accessSpan a addr
  if within r 0 0x1000000 then
    if 3 ≤ s.level then s.coreFault a
    else if s.windowPasses a r then s.sharedAccess a r else s.hartDenied a r
  else if within r ddrBase (s.rd CCX_DDR_MIB * 0x100000) && s.on CCX_DDR_READY then
    if s.windowPasses a r then s.dramAccess a r else s.hartDenied a r
  else if within r sramBase sramLen then if 3 ≤ s.level then s.coreFault a else s.sramAccess a r false
  else if within r 0x20000000 0x10000000 then s.romAccess a (padTo r.2 a.data)
  else if within r 0x2000000 0x10000 then s.deviceAccess a r true
  else if within r 0xC000000 0x4000000 then s.deviceAccess a r false
  else if within r 0x40000000 0x40000000 then
    match s.coreTenant a with
    | some t => s.regAccess a addr t
    | none => s.coreFault a
  else s.coreFault a

/-- The map of the management core (R294). -/
def State.mgmtAccess (s : State) (a : HartAccess) (addr : Nat) : State :=
  let r := accessSpan a addr
  if cacheOp a.kind then s.coreFault a
  else if within r 0 0x20000 then
    s.romAccess a ((List.range r.2).map fun i => Config.bootRom (r.1 + i))
  else if within r mgmtBase mgmtLen then s.sramAccess a r true
  else if within r 0x20000000 0x10000000 then s.romAccess a (padTo r.2 a.data)
  else if within r 0x40000000 0x40000000 then s.regAccess a addr 0
  else if within r 0x80000000 0x4000000 then s.appAccess a (s.rd MGC_WBASE * 0x4000000 + (addr - 0x80000000))
  else s.coreFault a

/-- HART_MEMORY_ACCESS (R293, R294, R301): an access of a core; a hart that does not run makes none. -/
def execHartMemoryAccess (a : HartAccess) (s : State) : Result :=
  .next (
    let c := a.core.val
    if c ≠ 4 ∧ bit (s.rd CCX_HUP) c = false then s
    else
      let s := if a.replay ∧ c ≠ 4 then s.setHart c fun h => { h with rply := true } else s
      if a.pmp = false then s.coreFault a
      else if c = 4 then s.mgmtAccess a a.addr.toNat
      else s.appAccess a a.addr.toNat)

end Sys2Proof.Machine
end

