-- ==== Sys2Proof/Machine/HostFrame.lean ====
section
/-! DEFINITION. The host-access frame (R557 to R564) and its framing on HSP, I²C and Ethernet (R565, R567, R568). -/

namespace Sys2Proof.Machine

open Reg

/-! ## Requests (R557) -/

/-- A request of Table 23-2: its interface, its bytes and, on Ethernet, its source. -/
structure Request where
  iface : Nat
  bytes : List Byte
  src   : Nat
  deriving DecidableEq, Repr

/-- Byte `n` of a request; zero where it is missing. -/
def Request.byte (q : Request) (n : Nat) : Nat := (q.bytes.getD n 0).toNat

/-- HF_OP, HF_SES, HF_ADDR and HF_CNT. -/
def Request.op (q : Request) : Nat := q.byte 0
def Request.ses (q : Request) : Nat := q.byte 1
def Request.addr (q : Request) : Nat := q.byte 2 + 2 ^ 8 * q.byte 3 + 2 ^ 16 * q.byte 4
def Request.cnt (q : Request) : Nat := q.byte 5

/-- Opcodes of Table 23-2. -/
def opRead : Nat := 0x01
def opWrite : Nat := 0x02
def opLock : Nat := 0x04
def opOpen : Nat := 0x10
def opProve : Nat := 0x11
def opClose : Nat := 0x12
def opDiscover : Nat := 0x30
def hostOps : List Nat := [opRead, opWrite, opLock, opOpen, opProve, opClose, opDiscover]

/-- HF_HCRC agrees with bytes 0 to 5. -/
def Request.crcOk (q : Request) : Bool :=
  decide (8 ≤ q.bytes.length) && crc16 (q.bytes.take 6) == q.byte 6 * 2 ^ 8 + q.byte 7

/-- What a request is answered with: code, HF_DONE, payload; and the words with their carry codes for the record of
the response. -/
structure Reply where
  code : Status
  done : Nat := 0
  data : List Byte := []
  words : List Nat := []
  ccs  : List Nat := []
  deriving DecidableEq, Repr

/-! ## Words of a session (R559) -/

/-- The byte address that A names for tenant `tc` (R78): a page, or a slot of the tenant's own alias window. -/
def byteAddr (tc A : Nat) : Nat :=
  if bit A 23 then 0x60000000 + tc * 0x100000 + bits A 10 8 * 0x1000 + bits A 0 10 * 4
  else 0x40000000 + bits A 10 10 * 0x1000 + bits A 0 10 * 4

/-- The requester of a session. -/
def sessionPort (x : Session) : Port :=
  match x.iface with
  | 1 => .hsp x.num
  | 2 => .eth x.num
  | _ => .i2t x.num

/-- One access of a session at A. -/
def sessionAccess (x : Session) (A : Nat) (data : Word) (cc : Byte) : Access :=
  { port := sessionPort x, tc := Fin.ofNat 64 x.tc, addr := BitVec.ofNat 32 (byteAddr x.tc A), replay := bit A 22
    data := data, cc := cc }

/-- A session of recovery reaches pages 0x000, 0x0A3 and 0x0A8 only (R563). -/
def State.bareBars (s : State) (x : Session) (A : Nat) : Bool :=
  x.bare && match s.route (byteAddr x.tc A) with
    | some r => match r.page with
      | some p => !(p == 0x000 || p == 0x0A3 || p == 0x0A8)
      | none => true
    | none => true

/-- The access lets the frame go on. -/
def goesOn (c : Status) : Bool := c == .ok || c == .holdover || c == .degraded

/-- A READ of `n` words from A on. -/
def State.readWords (s : State) (x : Session) (r : Reply) : Nat → Nat → Reply × State
  | 0, _ => (r, s)
  | n + 1, A =>
    let t := if s.bareBars x A then s.answerRead x.tc A .notOwner 0 else s.read anyRead (sessionAccess x A 0 0)
    if goesOn t.resp.code then
      let w := t.resp.data.headD 0
      let cc := t.resp.cc.headD 0
      t.readWords x { code := firstOf r.code t.resp.code, done := r.done + 1,
                      data := r.data ++ leBytes 4 w ++ [BitVec.ofNat 8 cc],
                      words := r.words ++ [w], ccs := r.ccs ++ [cc] } n (A + 1)
    else ({ r with code := t.resp.code }, t)

/-- A WRITE of `n` words of 5 bytes from A on. -/
def State.writeWords (s : State) (x : Session) (r : Reply) : Nat → Nat → List Byte → Reply × State
  | 0, _, _ => (r, s)
  | n + 1, A, l =>
    let w := BitVec.ofNat 32 (leNat (l.take 4))
    let cc := l.getD 4 0
    let t := if s.bareBars x A then s.answer .notOwner else s.write anyWrite (sessionAccess x A w cc)
    if goesOn t.resp.code then
      t.writeWords x { r with code := firstOf r.code t.resp.code, done := r.done + 1 } n (A + 1) (l.drop 5)
    else ({ r with code := t.resp.code }, t)

/-- The page that A reaches for a session. -/
def State.pageOf (s : State) (x : Session) (A : Nat) : Nat :=
  ((s.route (byteAddr x.tc A)).bind (·.page)).getD 0

/-- LOCKPAIR (R560): the read of LOCK and the write with the response that the interface computes. -/
def State.lockPair (s : State) (x : Session) (A : Nat) (set : Bool) : Reply × State :=
  if s.bareBars x A then ({ code := .notOwner }, s)
  else
    let t := s.read anyRead (sessionAccess x A 0 0)
    let chal := t.resp.data.headD 0 % 65536
    let w : Word := BitVec.ofNat 32 ((chal ^^^ s.pageOf x A) + b2n set * 2 ^ 30 + 2 ^ 31)
    let a := sessionAccess x A w 0
    let t := t.write anyWrite { a with cc := carryCode true x.tc (addressA a.addr.toNat a.replay) w }
    let c := t.resp.code
    ({ code := c, done := b2n (c == .ok) }, t)

/-! ## Opening and closing (R561 to R563) -/

/-- The interface is in lockout. -/
def State.lockedOut (s : State) (iface : Nat) : Bool := s.hif.locks.any fun x => x.1 == iface && decide (s.clk < x.2)

/-- A slot of type 3 with usage MAC (Table 17-1). -/
def State.macSlot (s : State) (k : Nat) : Bool := s.slotType k == 3 && bit (s.rd (SEC_S_USE k)) 4

/-- A session replaces the one of its number. -/
def State.putSession (s : State) (x : Session) : State :=
  let s := s.endSession x.iface x.num
  let s := (s.setHif fun h => { h with sessions := h.sessions ++ [x] }).hifShow
  if x.isOpen then s.sessionEvent x.iface else s

/-- OPEN of tenant `t` with slot `k` (R561, R563). -/
def State.openFrame (s : State) (q : Request) : Reply × State :=
  let t := q.byte 2
  let k := q.byte 3
  let new : Session := { iface := q.iface, num := q.ses, tc := t, slot := k, gen := s.slotGen k, nonce := [],
                         clk := s.clk, peer := q.src }
  if s.ccx.recovery ∧ t = 0 ∧ q.iface ≠ ifEth then
    ({ code := .ok }, s.putSession { new with isOpen := true, bare := true })
  else if 64 ≤ t ∨ 32 ≤ k ∨ s.tenant t ≠ tenActive ∨ s.slotOwn k ≠ t ∨ s.lockedOut q.iface = true then
    ({ code := .notOwner }, s)
  else if s.macSlot k = false then ({ code := .cfgInvalid }, s)
  else if s.on SEC_RBGERR then ({ code := .integFail }, s)
  else
    let r := s.randomBytes 16
    ({ code := .ok, data := r.1 }, r.2.putSession { new with nonce := r.1 })

/-- The message of a proof (R561). -/
def State.proofMessage (s : State) (x : Session) : List Byte :=
  ascii "GOFELSES" ++ x.nonce ++ s.uidBytes ++ leBytes 1 x.iface ++ leBytes 1 x.num ++ leBytes 1 x.tc

/-- A failed proof is counted on its interface. -/
def State.countProof (s : State) (iface : Nat) : State :=
  if iface = ifHsp then s.count HSP_PROVEN else if iface = ifI2c then s.count I2T_PROVEN else s

/-- A proof fails: entry, count, and the third within 1 s starts a lockout of 10 s (R561). -/
def State.proofFails (s : State) (x : Session) : State :=
  let s := (s.log 0x5001 x.tc (ifacePage x.iface)).countProof x.iface
  let l := (s.hif.fails.filter fun e => e.1 != x.iface || decide (s.clk < e.2 + msTicks 1000)) ++ [(x.iface, s.clk)]
  if 3 ≤ (l.filter (·.1 == x.iface)).length then
    s.setHif fun h => { h with fails := l.filter (·.1 != x.iface),
                               locks := h.locks.filter (·.1 != x.iface) ++ [(x.iface, s.clk + msTicks 10000)] }
  else s.setHif fun h => { h with fails := l }

/-- PROVE (R561, R568); `seq`: its HE_SEQ on Ethernet. -/
def State.proveFrame (s : State) (q : Request) (seq : Nat) : Reply × State :=
  match s.session? q.iface q.ses with
  | none => ({ code := .timeout }, s)
  | some x =>
    if x.isOpen then ({ code := .timeout }, s)
    else
      let t := s.endSession x.iface x.num
      if x.clk + msTicks 1000 < s.clk ∨ x.peer ≠ q.src then ({ code := .timeout }, t)
      else if s.slotGen x.slot ≠ x.gen then ({ code := .keyRetired }, t)
      else
        let key := s.slotMat x.slot
        if (q.bytes.drop 8).take 16 = (hmac key (s.proofMessage x)).take 16 then
          let ks := if x.iface = ifEth then (hmac key (ascii "GOFELSK1" ++ x.nonce)).take 16 else []
          ({ code := .ok }, t.putSession { x with isOpen := true, key := ks,
                                                  seq := if x.iface = ifEth then some seq else none })
        else ({ code := .notOwner }, t.proofFails x)

/-! ## Discovery (R564, Table 23-3) -/

/-- The payload of a DISCOVER response. -/
def State.discoverBytes (s : State) : List Byte :=
  leBytes 4 (s.rd SYS_PART) ++ leBytes 1 (s.rd SYS_SIREV) ++ s.uidBytes ++ beBytes 4 (s.rd ETH_IP)
    ++ leBytes 1 (s.rd PLM_SADDR) ++ leBytes 1 (s.rd SWC_POS)
    ++ leBytes 1 (b2n (s.on TNC_SEALED) + min 2 s.level * 2)

/-! ## The checks of a request (R558) -/

/-- The header-CRC counter of an interface. -/
def hcrcCount (iface : Nat) : Fld :=
  if iface = ifHsp then HSP_HCRCN else if iface = ifEth then ETH_HCRCN else I2T_HCRCN

/-- The session that a request names: a number beyond the count, a closed session, a retired key (R556, R562). -/
def State.sessionCheck (s : State) (q : Request) : Status :=
  if sessionCount q.iface ≤ q.ses then .cfgInvalid
  else if q.op = opOpen ∨ q.op = opProve then .ok
  else
    match s.session? q.iface q.ses with
    | some x => if !x.isOpen then .notOwner else if !x.bare && s.slotGen x.slot != x.gen then .keyRetired else .ok
    | none => .notOwner

/-- The form of a request: opcode, HF_CNT, length, page end, replay flag, zero count (R558, steps 3 and 4). -/
def Request.formCheck (q : Request) : Status :=
  let words := q.op = opRead ∨ q.op = opWrite
  let addressed := words ∨ q.op = opLock
  if q.op ∉ hostOps ∨ 16 < q.cnt ∨ (q.op = opWrite ∧ q.bytes.length ≠ 8 + 5 * q.cnt)
      ∨ (words ∧ 1024 < bits q.addr 0 10 + q.cnt) ∨ (addressed ∧ bit q.addr 22 = true ∧ q.cnt ≠ 1)
      ∨ (q.op = opLock ∧ (1 < q.cnt ∨ bits q.addr 0 10 ≠ 8)) then .cfgInvalid
  else if words ∧ q.cnt = 0 then .zeroLen
  else .ok

/-- A request whose form holds is performed by its opcode, in the session it names. -/
def State.performFrame (s : State) (q : Request) (seq : Nat) : Reply × State :=
  if q.op = opOpen then s.openFrame q
  else if q.op = opProve then s.proveFrame q seq
  else if q.op = opDiscover then ({ code := .ok, data := s.discoverBytes }, s)
  else
    match s.session? q.iface q.ses with
    | none => ({ code := .notOwner }, s)
    | some x =>
      if q.op = opRead then s.readWords x { code := .ok } q.cnt q.addr
      else if q.op = opWrite then s.writeWords x { code := .ok } q.cnt q.addr (q.bytes.drop 8)
      else if q.op = opLock then s.lockPair x q.addr (q.cnt == 1)
      else ({ code := .ok }, s.endSession x.iface x.num)

/-- A request from its arrival to its reply. DISCOVER needs no session. -/
def State.request (s : State) (q : Request) (seq : Nat) : Reply × State :=
  if !q.crcOk then ({ code := .integFail }, s.count (hcrcCount q.iface))
  else
    let c := if q.op = opDiscover then .ok else s.sessionCheck q
    if c = .keyRetired then ({ code := c }, s.endSession q.iface q.ses)
    else if c ≠ .ok then ({ code := c }, s)
    else if q.formCheck ≠ .ok then ({ code := q.formCheck }, s)
    else s.performFrame q seq

/-! ## Framing -/

/-- The bytes of a response (Table 23-2). -/
def Reply.bytes (r : Reply) (q : Request) : List Byte :=
  respHead ((q.op + 128) % 256 ||| 128) q.ses (codeOf r.code) r.done ++ r.data

/-- The response is on record. -/
def State.noteReply (s : State) (r : Reply) : State :=
  { s with resp := { code := r.code, data := if r.words = [] then byteNats r.data else r.words, cc := r.ccs,
                     done := r.done } }

/-- The bytes that a request needs: those of HSP end a request of their own, the rest is ignored (R565). -/
def Request.need (q : Request) : Nat :=
  if q.op = opWrite then 8 + 5 * min 17 q.cnt else if q.op = opProve then 24 else 8

/-- A request on HSP or I²C; one that HSP_CSN cuts short is counted (R565, R567). -/
def State.serialFrame (s : State) (q : Request) : State :=
  let cut : Bool := q.iface == ifHsp && decide (q.bytes.length < (if q.bytes.length < 8 then 8 else q.need))
  if cut then s.count HSP_CUTN
  else
    let q := if q.iface = ifHsp then { q with bytes := q.bytes.take q.need } else q
    let x := s.request q 0
    (x.2.noteReply x.1).send (.host q.iface) (0xA5 :: byteNats (x.1.bytes q))

/-- A datagram to a source: HE_SEQ, response, tag; a zero tag where no session holds a key (R568). -/
def datagram (key : Option (List Byte)) (seq : Nat) (b : List Byte) : List Byte :=
  match key with
  | some k => tagged k seq b
  | none => leBytes 4 seq ++ b ++ List.replicate 8 0

/-- The key of the open session of a number. -/
def State.sessionKey (s : State) (num : Nat) : Option (List Byte) :=
  (s.session? ifEth num).bind fun x => if x.isOpen then some x.key else none

/-- The response to a datagram is sent and, while its session is open, stored with its HE_SEQ. -/
def State.sendReply (s : State) (q : Request) (seq : Nat) (key : Option (List Byte)) (r : Reply) : State :=
  let k := (s.sessionKey q.ses).orElse fun _ => key
  let d := datagram k seq (r.bytes q)
  let s := if q.op = opDiscover then s else s.setSession ifEth q.ses fun y =>
    if y.isOpen then { y with seq := some seq, resp := d } else y
  (s.noteReply r).send (.host ifEth) (q.src :: byteNats d)

/-- OPEN, PROVE and DISCOVER carry a zero tag and belong to no open session (R568). -/
def Request.free (q : Request) : Bool := q.op == opOpen || q.op == opProve || q.op == opDiscover

/-- The source or the tag of a datagram fails: `x` is the open session that it names, `body` all that the tag
covers. -/
def tagFails (q : Request) (body tag : List Byte) (x : Option Session) : Bool :=
  if q.free then tag != List.replicate 8 0
  else match x with
    | some y => y.peer != q.src || tag != (hmac y.key body).take 8
    | none => false

/-- The datagram repeats the last one accepted by the session. -/
def repeats (q : Request) (seq : Nat) (y : Session) : Bool :=
  (q.op == opProve || !q.free) && y.seq == some seq && y.peer == q.src

/-- A datagram on Ethernet (R568): source and tag, then HE_SEQ, then the request. -/
def State.datagramIn (s : State) (l : List Byte) (src : Nat) : State :=
  let n := l.length
  let seq := leNat (l.take 4)
  let body := l.take (n - 8)
  let q : Request := ⟨ifEth, body.drop 4, src⟩
  let x := (s.session? ifEth q.ses).filter (·.isOpen)
  let late (y : Session) : Bool := !q.free && y.seq.any fun last => decide (seq < last)
  if q.op = opDiscover ∧ s.on ETH_DISC_EN = false then s
  else if n < 20 ∨ tagFails q body (l.drop (n - 8)) x = true then s.count ETH_TAGN
  else
    match x.filter (repeats q seq) with
    | some y => s.send (.host ifEth) (src :: byteNats y.resp)
    | none =>
      if x.any late then s.count ETH_SEQN
      else
        let r := s.request q seq
        r.2.sendReply q seq (if q.free then none else x.map (·.key)) r.1

/-- A request of opcode `op`, or one whose opcode no row names, on an interface that runs. -/
def State.hostFrame (s : State) (op : Nat) (r : HostReq) : State :=
  let iface := r.iface.val + 1
  let o := ((if iface = ifEth then r.bytes.drop 4 else r.bytes).getD 0 0).toNat
  if s.ifaceRuns iface = false ∨ (o ≠ op ∧ o ∈ hostOps) then s
  else if iface = ifEth then s.datagramIn r.bytes r.src.toNat
  else s.serialFrame ⟨iface, r.bytes, 0⟩

/-! ## Commands -/

/-- HOST_READ (R559). -/
def execHostRead (r : HostReq) (s : State) : Result := .next (s.hostFrame opRead r)

/-- HOST_WRITE (R559). -/
def execHostWrite (r : HostReq) (s : State) : Result := .next (s.hostFrame opWrite r)

/-- LOCKPAIR (R560). -/
def execLockpair (r : HostReq) (s : State) : Result := .next (s.hostFrame opLock r)

/-- OPEN (R561). -/
def execOpenSession (r : HostReq) (s : State) : Result := .next (s.hostFrame opOpen r)

/-- PROVE (R561). -/
def execProve (r : HostReq) (s : State) : Result := .next (s.hostFrame opProve r)

/-- CLOSE (R562). -/
def execCloseSession (r : HostReq) (s : State) : Result := .next (s.hostFrame opClose r)

/-- DISCOVER (R564). -/
def execDiscover (r : HostReq) (s : State) : Result := .next (s.hostFrame opDiscover r)

end Sys2Proof.Machine
end

