-- ==== Sys2Proof/Machine/Dispatch.lean ====
section
/-! DEFINITION. The meaning of each command: one arm per constructor. -/

namespace Sys2Proof.Machine

/-- The effect of a command on everything but the queue. -/
def exec (i : Instr) (s : State) : Host.Outcome State Fault Refusal :=
  match i with
  | .configWrite a => Sys2Proof.Machine.execConfigWrite a s
  | .readClear a => Sys2Proof.Machine.execReadClear a s
  | .replayRead a => Sys2Proof.Machine.execReplayRead a s
  | .ctrlPrst page w => Sys2Proof.Machine.execCtrlPrst page w s
  | .lockRead page r => Sys2Proof.Machine.execLockRead page r s
  | .lockWrite page w => Sys2Proof.Machine.execLockWrite page w s
  | .irqClr page w => Sys2Proof.Machine.execIrqClr page w s
  | .integScrub page upset => Sys2Proof.Machine.execIntegScrub page upset s
  | .sealedPageRewrite page => Sys2Proof.Machine.execSealedPageRewrite page s
  | .cycleBoundary period => Sys2Proof.Machine.execCycleBoundary period s
  | .sampleWord w => Sys2Proof.Machine.execSampleWord w s
  | .channelLost code => Sys2Proof.Machine.execChannelLost code s
  | .loss => Sys2Proof.Machine.execLoss s
  | .acquireRestart => Sys2Proof.Machine.execAcquireRestart s
  | .revert => Sys2Proof.Machine.execRevert s
  | .ctfReacq w => Sys2Proof.Machine.execCtfReacq w s
  | .ctfForceNext w => Sys2Proof.Machine.execCtfForceNext w s
  | .seed w => Sys2Proof.Machine.execSeed w s
  | .stampRead r => Sys2Proof.Machine.execStampRead r s
  | .pairFreeze r => Sys2Proof.Machine.execPairFreeze r s
  | .pairRelease r => Sys2Proof.Machine.execPairRelease r s
  | .utcSet w => Sys2Proof.Machine.execUtcSet w s
  | .utcLoad => Sys2Proof.Machine.execUtcLoad s
  | .ctfCommit w => Sys2Proof.Machine.execCtfCommit w s
  | .schedActivate => Sys2Proof.Machine.execSchedActivate s
  | .schedSignal entry edge => Sys2Proof.Machine.execSchedSignal entry edge s
  | .xt32Stop => Sys2Proof.Machine.execXt32Stop s
  | .ref48Retry valid => Sys2Proof.Machine.execRef48Retry valid s
  | .activate w => Sys2Proof.Machine.execActivate w s
  | .suspend w => Sys2Proof.Machine.execSuspend w s
  | .resume w => Sys2Proof.Machine.execResume w s
  | .softReset w => Sys2Proof.Machine.execSoftReset w s
  | .fullReset w => Sys2Proof.Machine.execFullReset w s
  | .tenantResetDone tenant => Sys2Proof.Machine.execTenantResetDone tenant s
  | .tncCxSoftrst tenant w => Sys2Proof.Machine.execTncCxSoftrst tenant w s
  | .grant w => Sys2Proof.Machine.execGrant w s
  | .revoke w => Sys2Proof.Machine.execRevoke w s
  | .aliasMap w => Sys2Proof.Machine.execAliasMap w s
  | .tncSealReq lost w => Sys2Proof.Machine.execTncSealReq lost w s
  | .sealComplete => Sys2Proof.Machine.execSealComplete s
  | .tncUnsealArm w => Sys2Proof.Machine.execTncUnsealArm w s
  | .tncUnsealReq w => Sys2Proof.Machine.execTncUnsealReq w s
  | .armWindowExpiry => Sys2Proof.Machine.execArmWindowExpiry s
  | .refillPeriod resource => Sys2Proof.Machine.execRefillPeriod resource s
  | .itemLatestTime resource rank => Sys2Proof.Machine.execItemLatestTime resource rank s
  | .contTestStart => Sys2Proof.Machine.execContTestStart s
  | .contTestResult => Sys2Proof.Machine.execContTestResult s
  | .acsCalZero w => Sys2Proof.Machine.execAcsCalZero w s
  | .acsCalFull w => Sys2Proof.Machine.execAcsCalFull w s
  | .acsCalAbort w => Sys2Proof.Machine.execAcsCalAbort w s
  | .calZeroDone => Sys2Proof.Machine.execCalZeroDone s
  | .calFullDone => Sys2Proof.Machine.execCalFullDone s
  | .calTimeout => Sys2Proof.Machine.execCalTimeout s
  | .metrologyClose upsets => Sys2Proof.Machine.execMetrologyClose upsets s
  | .accCycRead vm idx r => Sys2Proof.Machine.execAccCycRead vm idx r s
  | .mteRdCycRead ch r => Sys2Proof.Machine.execMteRdCycRead ch r s
  | .accVclr meter w => Sys2Proof.Machine.execAccVclr meter w s
  | .spillIncrement => Sys2Proof.Machine.execSpillIncrement s
  | .pulseStart k => Sys2Proof.Machine.execPulseStart k s
  | .pulseEnd k => Sys2Proof.Machine.execPulseEnd k s
  | .pinReadback k level => Sys2Proof.Machine.execPinReadback k level s
  | .pqeWindow => Sys2Proof.Machine.execPqeWindow s
  | .pqeBlockEnd => Sys2Proof.Machine.execPqeBlockEnd s
  | .vsenseClassify => Sys2Proof.Machine.execVsenseClassify s
  | .pqeHcycRead r => Sys2Proof.Machine.execPqeHcycRead r s
  | .entryPull engine => Sys2Proof.Machine.execEntryPull engine s
  | .tileComplete engine ticks corrected unc => Sys2Proof.Machine.execTileComplete engine ticks corrected unc s
  | .tileDeadline => Sys2Proof.Machine.execTileDeadline s
  | .tunCkResclr cluster w => Sys2Proof.Machine.execTunCkResclr cluster w s
  | .tunBstArm w => Sys2Proof.Machine.execTunBstArm w s
  | .burstDrain => Sys2Proof.Machine.execBurstDrain s
  | .burstRepStart => Sys2Proof.Machine.execBurstRepStart s
  | .burstRepEnd => Sys2Proof.Machine.execBurstRepEnd s
  | .routeOp ns checkUnc unc => Sys2Proof.Machine.execRouteOp ns checkUnc unc s
  | .combineOp checkUnc unc => Sys2Proof.Machine.execCombineOp checkUnc unc s
  | .routerDeadline => Sys2Proof.Machine.execRouterDeadline s
  | .ltrWcommit w => Sys2Proof.Machine.execLtrWcommit w s
  | .barmRingPoll tenant => Sys2Proof.Machine.execBarmRingPoll tenant s
  | .barmKick tenant w => Sys2Proof.Machine.execBarmKick tenant w s
  | .windowBoundary => Sys2Proof.Machine.execWindowBoundary s
  | .barmAppend => Sys2Proof.Machine.execBarmAppend s
  | .expertExpand => Sys2Proof.Machine.execExpertExpand s
  | .insightDeliver => Sys2Proof.Machine.execInsightDeliver s
  | .listComplete => Sys2Proof.Machine.execListComplete s
  | .barmRecordRelease tenant => Sys2Proof.Machine.execBarmRecordRelease tenant s
  | .ccxTctx hart tc valid => Sys2Proof.Machine.execCcxTctx hart tc valid s
  | .stampCompare hart write => Sys2Proof.Machine.execStampCompare hart write s
  | .hartMemoryAccess a => Sys2Proof.Machine.execHartMemoryAccess a s
  | .ccxDdrInit w => Sys2Proof.Machine.execCcxDdrInit w s
  | .ddrInitDone => Sys2Proof.Machine.execDdrInitDone s
  | .ddrTrainTimeout => Sys2Proof.Machine.execDdrTrainTimeout s
  | .ccxQspGo w => Sys2Proof.Machine.execCcxQspGo w s
  | .qspiComplete data => Sys2Proof.Machine.execQspiComplete data s
  | .bootSelect slotA slotB lost => Sys2Proof.Machine.execBootSelect slotA slotB lost s
  | .mgcTrial w lost => Sys2Proof.Machine.execMgcTrial w lost s
  | .mgcBootok w lost => Sys2Proof.Machine.execMgcBootok w lost s
  | .recoveryRetry slotA slotB lost => Sys2Proof.Machine.execRecoveryRetry slotA slotB lost s
  | .mgcWkick w => Sys2Proof.Machine.execMgcWkick w s
  | .mgcWatchdog => Sys2Proof.Machine.execMgcWatchdog s
  | .ccxKick hart w => Sys2Proof.Machine.execCcxKick hart w s
  | .hartWatchdog hart => Sys2Proof.Machine.execHartWatchdog hart s
  | .ccxHrst hart w => Sys2Proof.Machine.execCcxHrst hart w s
  | .mgcCcxreload w => Sys2Proof.Machine.execMgcCcxreload w s
  | .reloadComplete app => Sys2Proof.Machine.execReloadComplete app s
  | .restorePage w => Sys2Proof.Machine.execRestorePage w s
  | .restoreAcc w => Sys2Proof.Machine.execRestoreAcc w s
  | .saveAcc w => Sys2Proof.Machine.execSaveAcc w s
  | .restoreSeqDone lost => Sys2Proof.Machine.execRestoreSeqDone lost s
  | .mgcDbToccx w => Sys2Proof.Machine.execMgcDbToccx w s
  | .mgcDbTomgc w => Sys2Proof.Machine.execMgcDbTomgc w s
  | .toneTransmit => Sys2Proof.Machine.execToneTransmit s
  | .toneTxComplete => Sys2Proof.Machine.execToneTxComplete s
  | .toneReceive f => Sys2Proof.Machine.execToneReceive f s
  | .driverFault low symbols => Sys2Proof.Machine.execDriverFault low symbols s
  | .tmreq => Sys2Proof.Machine.execTmreq s
  | .tmrsp => Sys2Proof.Machine.execTmrsp s
  | .tmapRefresh neighbour => Sys2Proof.Machine.execTmapRefresh neighbour s
  | .tmapExpire => Sys2Proof.Machine.execTmapExpire s
  | .pulseSlotDecide entry c0 c1 c2 c3 => Sys2Proof.Machine.execPulseSlotDecide entry c0 c1 c2 c3 s
  | .downlinkRequest stream => Sys2Proof.Machine.execDownlinkRequest stream s
  | .downlinkTimeout stream => Sys2Proof.Machine.execDownlinkTimeout stream s
  | .plmRingPoll endpoint => Sys2Proof.Machine.execPlmRingPoll endpoint s
  | .accessSlot window slot => Sys2Proof.Machine.execAccessSlot window slot s
  | .ackTimeout => Sys2Proof.Machine.execAckTimeout s
  | .reassemblyTimeout => Sys2Proof.Machine.execReassemblyTimeout s
  | .helloSend => Sys2Proof.Machine.execHelloSend s
  | .hello => Sys2Proof.Machine.execHello s
  | .bye => Sys2Proof.Machine.execBye s
  | .plmLeave w => Sys2Proof.Machine.execPlmLeave w s
  | .neighbourAge => Sys2Proof.Machine.execNeighbourAge s
  | .radvSend => Sys2Proof.Machine.execRadvSend s
  | .radv => Sys2Proof.Machine.execRadv s
  | .routeAge => Sys2Proof.Machine.execRouteAge s
  | .plmEpKcommit endpoint w => Sys2Proof.Machine.execPlmEpKcommit endpoint w s
  | .plmSitekeyCommit w => Sys2Proof.Machine.execPlmSitekeyCommit w s
  | .plmJoin w => Sys2Proof.Machine.execPlmJoin w s
  | .joinWindowClose => Sys2Proof.Machine.execJoinWindowClose s
  | .join => Sys2Proof.Machine.execJoin s
  | .nodeUplink => Sys2Proof.Machine.execNodeUplink s
  | .nodeLeave => Sys2Proof.Machine.execNodeLeave s
  | .nodeSilent stream => Sys2Proof.Machine.execNodeSilent stream s
  | .nodeDeparted stream => Sys2Proof.Machine.execNodeDeparted stream s
  | .nrelay => Sys2Proof.Machine.execNrelay s
  | .storedUplinkDeliver => Sys2Proof.Machine.execStoredUplinkDeliver s
  | .schedRequestLate => Sys2Proof.Machine.execSchedRequestLate s
  | .rgreq => Sys2Proof.Machine.execRgreq s
  | .rgrsp => Sys2Proof.Machine.execRgrsp s
  | .rgrant => Sys2Proof.Machine.execRgrant s
  | .rgrev => Sys2Proof.Machine.execRgrev s
  | .grantRenew stream => Sys2Proof.Machine.execGrantRenew stream s
  | .grantExpire stream => Sys2Proof.Machine.execGrantExpire stream s
  | .standbyTakeover stream => Sys2Proof.Machine.execStandbyTakeover stream s
  | .takeoverLimit stream => Sys2Proof.Machine.execTakeoverLimit stream s
  | .linkUp upstream bad => Sys2Proof.Machine.execLinkUp upstream bad s
  | .linkDown upstream bad => Sys2Proof.Machine.execLinkDown upstream bad s
  | .enum frame => Sys2Proof.Machine.execEnum frame s
  | .announce frame => Sys2Proof.Machine.execAnnounce frame s
  | .link frame => Sys2Proof.Machine.execLink frame s
  | .swcEnum w => Sys2Proof.Machine.execSwcEnum w s
  | .enumTimeout => Sys2Proof.Machine.execEnumTimeout s
  | .alignExchange t1 => Sys2Proof.Machine.execAlignExchange t1 s
  | .alignreq frame t2 turn => Sys2Proof.Machine.execAlignreq frame t2 turn s
  | .alignrsp frame t4 => Sys2Proof.Machine.execAlignrsp frame t4 s
  | .alignTimeout => Sys2Proof.Machine.execAlignTimeout s
  | .swcSwGo w => Sys2Proof.Machine.execSwcSwGo w s
  | .sweep frame => Sys2Proof.Machine.execSweep frame s
  | .cmdack frame => Sys2Proof.Machine.execCmdack frame s
  | .sweepExecute => Sys2Proof.Machine.execSweepExecute s
  | .result frame => Sys2Proof.Machine.execResult frame s
  | .reportFinal => Sys2Proof.Machine.execReportFinal s
  | .swcFGo w => Sys2Proof.Machine.execSwcFGo w s
  | .fetch frame => Sys2Proof.Machine.execFetch frame s
  | .fetchTimeout => Sys2Proof.Machine.execFetchTimeout s
  | .swcOfsRead r => Sys2Proof.Machine.execSwcOfsRead r s
  | .swcRhdrRead r => Sys2Proof.Machine.execSwcRhdrRead r s
  | .magOn source b peak => Sys2Proof.Machine.execMagOn source b peak s
  | .magOff source b => Sys2Proof.Machine.execMagOff source b s
  | .encOpen input => Sys2Proof.Machine.execEncOpen input s
  | .encClose input => Sys2Proof.Machine.execEncClose input s
  | .supplyGlitch supply high => Sys2Proof.Machine.execSupplyGlitch supply high s
  | .clockGlitch xt32 => Sys2Proof.Machine.execClockGlitch xt32 s
  | .glitchRunEnd detector => Sys2Proof.Machine.execGlitchRunEnd detector s
  | .tempOut valid temp => Sys2Proof.Machine.execTempOut valid temp s
  | .tempBack temp => Sys2Proof.Machine.execTempBack temp s
  | .logEvent => Sys2Proof.Machine.execLogEvent s
  | .sealWrite => Sys2Proof.Machine.execSealWrite s
  | .clgSealnow w => Sys2Proof.Machine.execClgSealnow w s
  | .clgRelease w => Sys2Proof.Machine.execClgRelease w s
  | .clgRdw0Read r => Sys2Proof.Machine.execClgRdw0Read r s
  | .clgExpGo w => Sys2Proof.Machine.execClgExpGo w s
  | .exportComplete => Sys2Proof.Machine.execExportComplete s
  | .clgFwCode w => Sys2Proof.Machine.execClgFwCode w s
  | .fullcntSave => Sys2Proof.Machine.execFullcntSave s
  | .secRingPoll tenant => Sys2Proof.Machine.execSecRingPoll tenant s
  | .sha256 => Sys2Proof.Machine.execSha256 s
  | .hmac => Sys2Proof.Machine.execHmac s
  | .ccmEnc => Sys2Proof.Machine.execCcmEnc s
  | .ccmDec => Sys2Proof.Machine.execCcmDec s
  | .sign => Sys2Proof.Machine.execSign s
  | .verify => Sys2Proof.Machine.execVerify s
  | .ecdh => Sys2Proof.Machine.execEcdh s
  | .random => Sys2Proof.Machine.execRandom s
  | .load => Sys2Proof.Machine.execLoad s
  | .generate => Sys2Proof.Machine.execGenerate s
  | .erase => Sys2Proof.Machine.execErase s
  | .pubkey => Sys2Proof.Machine.execPubkey s
  | .secOpComplete unit => Sys2Proof.Machine.execSecOpComplete unit s
  | .eraseDeadline slot => Sys2Proof.Machine.execEraseDeadline slot s
  | .rbgFail => Sys2Proof.Machine.execRbgFail s
  | .rbgRecover => Sys2Proof.Machine.execRbgRecover s
  | .secRbadv w => Sys2Proof.Machine.execSecRbadv w s
  | .secRevk0 w => Sys2Proof.Machine.execSecRevk0 w s
  | .secRevk1 w => Sys2Proof.Machine.execSecRevk1 w s
  | .secIdarm w => Sys2Proof.Machine.execSecIdarm w s
  | .secIdretire w => Sys2Proof.Machine.execSecIdretire w s
  | .celRingPoll tenant => Sys2Proof.Machine.execCelRingPoll tenant s
  | .celRead => Sys2Proof.Machine.execCelRead s
  | .celWrite => Sys2Proof.Machine.execCelWrite s
  | .celZero => Sys2Proof.Machine.execCelZero s
  | .celCommandComplete fail => Sys2Proof.Machine.execCelCommandComplete fail s
  | .scrub upsets => Sys2Proof.Machine.execScrub upsets s
  | .celUnresv w => Sys2Proof.Machine.execCelUnresv w s
  | .celBparm w => Sys2Proof.Machine.execCelBparm w s
  | .celBpWrite w => Sys2Proof.Machine.execCelBpWrite w s
  | .celMGo fail w => Sys2Proof.Machine.execCelMGo fail w s
  | .unitWipeDone => Sys2Proof.Machine.execUnitWipeDone s
  | .estimationStep m => Sys2Proof.Machine.execEstimationStep m s
  | .burstEdge pre post alone => Sys2Proof.Machine.execBurstEdge pre post alone s
  | .openWireTest before after => Sys2Proof.Machine.execOpenWireTest before after s
  | .bgaOwnow w => Sys2Proof.Machine.execBgaOwnow w s
  | .bgaMntGo w => Sys2Proof.Machine.execBgaMntGo w s
  | .bgaMntAbort w => Sys2Proof.Machine.execBgaMntAbort w s
  | .mntEnd => Sys2Proof.Machine.execMntEnd s
  | .bgaRestore w => Sys2Proof.Machine.execBgaRestore w s
  | .bgaCold w => Sys2Proof.Machine.execBgaCold w s
  | .bgaTcommit w => Sys2Proof.Machine.execBgaTcommit w s
  | .snapshot r => Sys2Proof.Machine.execSnapshot r s
  | .vinLost vin vbat => Sys2Proof.Machine.execVinLost vin vbat s
  | .vinPresent vin vbat => Sys2Proof.Machine.execVinPresent vin vbat s
  | .powerUp strap held vin vbat => Sys2Proof.Machine.execPowerUp strap held vin vbat s
  | .railFault rail => Sys2Proof.Machine.execRailFault rail s
  | .railRestart => Sys2Proof.Machine.execRailRestart s
  | .auxAttempt => Sys2Proof.Machine.execAuxAttempt s
  | .auxAttemptCheck mv => Sys2Proof.Machine.execAuxAttemptCheck mv s
  | .auxDrop mv => Sys2Proof.Machine.execAuxDrop mv s
  | .auxGoodHold => Sys2Proof.Machine.execAuxGoodHold s
  | .pmuAuxRetry w => Sys2Proof.Machine.execPmuAuxRetry w s
  | .pmuAuxEn on w => Sys2Proof.Machine.execPmuAuxEn on w s
  | .writeBlockAssert cut => Sys2Proof.Machine.execWriteBlockAssert cut s
  | .writeBlockRelease => Sys2Proof.Machine.execWriteBlockRelease s
  | .cutoffWarning vbat => Sys2Proof.Machine.execCutoffWarning vbat s
  | .pmuCutack w => Sys2Proof.Machine.execPmuCutack w s
  | .cutGrace => Sys2Proof.Machine.execCutGrace s
  | .hardCutoff vbat => Sys2Proof.Machine.execHardCutoff vbat s
  | .cutoffSequence => Sys2Proof.Machine.execCutoffSequence s
  | .chargeDone => Sys2Proof.Machine.execChargeDone s
  | .chargeRestart vbat => Sys2Proof.Machine.execChargeRestart vbat s
  | .chargeTemp ratio => Sys2Proof.Machine.execChargeTemp ratio s
  | .chargeTimeout => Sys2Proof.Machine.execChargeTimeout s
  | .pmuKilnArm w => Sys2Proof.Machine.execPmuKilnArm w s
  | .pmuKilnGo w => Sys2Proof.Machine.execPmuKilnGo w s
  | .pmuKilnConfirm w => Sys2Proof.Machine.execPmuKilnConfirm w s
  | .kilnTimeout => Sys2Proof.Machine.execKilnTimeout s
  | .kilnExit kwake vin vbat => Sys2Proof.Machine.execKilnExit kwake vin vbat s
  | .avsStep => Sys2Proof.Machine.execAvsStep s
  | .supplyLoop margins volts => Sys2Proof.Machine.execSupplyLoop margins volts s
  | .thermalLoop temps => Sys2Proof.Machine.execThermalLoop temps s
  | .degradeDescent => Sys2Proof.Machine.execDegradeDescent s
  | .degradeAscent => Sys2Proof.Machine.execDegradeAscent s
  | .monCap cap w => Sys2Proof.Machine.execMonCap cap w s
  | .monAscend w => Sys2Proof.Machine.execMonAscend w s
  | .inspectExpire => Sys2Proof.Machine.execInspectExpire s
  | .coldStart otpOk => Sys2Proof.Machine.execColdStart otpOk s
  | .systemReset debug => Sys2Proof.Machine.execSystemReset debug s
  | .hostRead r => Sys2Proof.Machine.execHostRead r s
  | .hostWrite r => Sys2Proof.Machine.execHostWrite r s
  | .lockpair r => Sys2Proof.Machine.execLockpair r s
  | .openSession r => Sys2Proof.Machine.execOpenSession r s
  | .prove r => Sys2Proof.Machine.execProve r s
  | .closeSession r => Sys2Proof.Machine.execCloseSession r s
  | .discover r => Sys2Proof.Machine.execDiscover r s
  | .lockoutEnd iface => Sys2Proof.Machine.execLockoutEnd iface s
  | .hspCsCut => Sys2Proof.Machine.execHspCsCut s
  | .note session => Sys2Proof.Machine.execNote session s
  | .ethTxDesc => Sys2Proof.Machine.execEthTxDesc s
  | .ethRxFrame frame => Sys2Proof.Machine.execEthRxFrame frame s
  | .ethMdGo answer w => Sys2Proof.Machine.execEthMdGo answer w s
  | .phyPoll link => Sys2Proof.Machine.execPhyPoll link s
  | .uartTxdata uart w => Sys2Proof.Machine.execUartTxdata uart w s
  | .uartRxChar uart char err => Sys2Proof.Machine.execUartRxChar uart char err s
  | .uartRxdataRead uart r => Sys2Proof.Machine.execUartRxdataRead uart r s
  | .uartEof uart idle => Sys2Proof.Machine.execUartEof uart idle s
  | .gpioEdge pin level => Sys2Proof.Machine.execGpioEdge pin level s
  | .tinChange input level => Sys2Proof.Machine.execTinChange input level s
  | .dbgArm w => Sys2Proof.Machine.execDbgArm w s
  | .dbgReq w => Sys2Proof.Machine.execDbgReq w s
  | .xt32Restart => Sys2Proof.Machine.execXt32Restart s
  | .plicClaim context => Sys2Proof.Machine.execPlicClaim context s
  | .probeTimeout stream => Sys2Proof.Machine.execProbeTimeout stream s
  | .packPresenceChange vbat => Sys2Proof.Machine.execPackPresenceChange vbat s
  | .vsysPowerDown => Sys2Proof.Machine.execVsysPowerDown s
  | .uartTxEnd uart => Sys2Proof.Machine.execUartTxEnd uart s

end Sys2Proof.Machine
end

