-- ==== Sys2Proof/Safety.lean ====
section
/-! DEFINITION. The terms in which statements speak: when a register access reaches its page and is performed
there, what a command answers, and what a safe step is. -/

namespace Sys2Proof.Machine

/-- The write of `d` to the word at `off` of `page` arrives with a correct carry code, passes the firewall, the
tenant state and the ownership check, finds the page's domain running and its scrub not due, and LOCK does
not cover the word: the page performs it (R11, R62, R68, R75, R86, R108). -/
def State.admitsWrite (s : State) (page off : Nat) (w : RegWrite) (d : Nat) : Bool :=
  w.cc == carryCode true w.tc.val (addressA (directAddr page off).toNat false) (BitVec.ofNat 32 d)
    && s.firewallPasses w.port w.tc.val page && s.tenantPasses true w.tc.val page off
    && s.owns ⟨w.port, w.tc.val, page, off, none⟩ && (decide (off < 0x40) || s.pageRuns page)
    && !(s.held page && lockProtected page off) && !(s.pg page).stale

/-- A read of the word at `off` of `page` passes the tenant state and the read check, finds the page's domain
running and its scrub not due: the page performs it. -/
def State.admitsRead (s : State) (page off : Nat) (r : RegRead) : Bool :=
  s.tenantPasses false r.tc.val page off && s.mayRead ⟨r.port, r.tc.val, page, off, none⟩
    && (decide (off < 0x40) || s.pageRuns page) && !(s.pg page).stale

/-- A command answers a next state of which `P` holds. -/
def Answers (c : Instr) (s : State) (P : State → Prop) : Prop :=
  ∃ t, exec c s = .next t ∧ P t

/-- An outcome that is a next state of which `P` holds. -/
def Outcome.holds (o : Host.Outcome State Fault Refusal) (P : State → Prop) : Prop :=
  ∃ t, o = .next t ∧ P t

/-! ## What a command leaves -/

/-- The parts of the state. -/
inductive Part where
  | regs | inForce | latch | hold | latched | pages | ticks | clk | events | resp
  | out | free | ctf | tnc | acs | mte | acc | pqe | tun | ltr
  | barm | ccx | cel | plt | plp | plm | tmp | clg | sec | swc
  | bga | pmu | mon | start | hif | mem | pending
  deriving DecidableEq, Repr

/-- Two states agree on a part. -/
def Part.same (s t : State) : Part → Prop
  | .regs => t.regs = s.regs
  | .inForce => t.inForce = s.inForce
  | .latch => t.latch = s.latch
  | .hold => t.hold = s.hold
  | .latched => t.latched = s.latched
  | .pages => t.pages = s.pages
  | .ticks => t.ticks = s.ticks
  | .clk => t.clk = s.clk
  | .events => t.events = s.events
  | .resp => t.resp = s.resp
  | .out => t.out = s.out
  | .free => t.free = s.free
  | .ctf => t.ctf = s.ctf
  | .tnc => t.tnc = s.tnc
  | .acs => t.acs = s.acs
  | .mte => t.mte = s.mte
  | .acc => t.acc = s.acc
  | .pqe => t.pqe = s.pqe
  | .tun => t.tun = s.tun
  | .ltr => t.ltr = s.ltr
  | .barm => t.barm = s.barm
  | .ccx => t.ccx = s.ccx
  | .cel => t.cel = s.cel
  | .plt => t.plt = s.plt
  | .plp => t.plp = s.plp
  | .plm => t.plm = s.plm
  | .tmp => t.tmp = s.tmp
  | .clg => t.clg = s.clg
  | .sec => t.sec = s.sec
  | .swc => t.swc = s.swc
  | .bga => t.bga = s.bga
  | .pmu => t.pmu = s.pmu
  | .mon => t.mon = s.mon
  | .start => t.start = s.start
  | .hif => t.hif = s.hif
  | .mem => t.mem = s.mem
  | .pending => t.pending = s.pending

/-- Every part of the state but those listed is as before: what a command does not list, it leaves. -/
def SameBut (parts : List Part) (s t : State) : Prop := ∀ p : Part, p ∉ parts → p.same s t

/-- A safe step: the machine goes on and its memory stays in canonical form. -/
def safeStep (s : State) : Prop :=
  ∃ t, step s = .next t ∧ (memWf s.mem = true → memWf t.mem = true)

end Sys2Proof.Machine
end

