-- ==== Sys2Proof/WellFormed.lean ====
section
/-! DEFINITION. Well-formed commands: operands that the hardware can present. -/

namespace Sys2Proof

open Machine

/-- A requester that exists: the sessions of Table 23-1 (R556), 4 harts. -/
def Port.wf : Port → Bool
  | .hsp n => decide (n < 8)
  | .eth n => decide (n < 16)
  | .i2t n => decide (n < 2)
  | .hart h => decide (h < 4)
  | .mgmt => true

/-- An access of 1, 2, 4 or 8 bytes by a requester that exists. -/
def Access.wf (a : Access) : Bool := a.port.wf && [1, 2, 4, 8].contains a.size

/-- An access of a core: a cache-block operation has no data and comes from a hart; a store brings its bytes; the
other accesses are of 1, 2, 4 or 8 bytes. -/
def HartAccess.wf (a : HartAccess) : Bool :=
  match a.kind with
  | .clean | .flush | .inval => decide (a.core.val < 4)
  | .store => [1, 2, 4, 8].contains a.size && a.data.length == a.size
  | .load | .fetch => [1, 2, 4, 8].contains a.size

/-- An image slot of at most 8 MiB (R307). -/
def SlotImage.wf (x : SlotImage) : Bool := decide (x.bytes.length ≤ 2 ^ 23)

/-- A tone frame with an FCH of 12 bytes (Table 13-4). -/
def ToneIn.wf (f : ToneIn) : Bool := f.fch.length == 12

/-- A chain frame with header and CRC (R388). -/
def ChainFrame.wf (f : ChainFrame) : Bool := decide (8 ≤ f.bytes.length)

/-- A reading of at most four cells (chapter 19). -/
def GaugeSecond.wf (m : GaugeSecond) : Bool := decide (m.cells.length ≤ 4)

/-- A request of at least one byte. -/
def HostReq.wf (r : HostReq) : Bool := !r.bytes.isEmpty

/-- A channel number below 64 where the block is a channel's. -/
def AccUpset.wf (u : AccUpset) : Bool := u.vm || decide (u.idx.val < 64)

/-- Upset bits of a word of a page: its offset and the bits. -/
def upsetWf : Option (Nat × Nat) → Bool
  | some u => decide (u.1 < 4096) && u.1 % 4 == 0 && decide (u.2 < 2 ^ 32)
  | none => true

/-- A command with operands that the hardware can present. -/
def Instr.wf : Instr → Bool
  | .configWrite a => a.wf
  | .readClear a => a.wf
  | .replayRead a => a.wf
  | .ctrlPrst page w => RegMap.assigned page.val && w.port.wf
  | .lockRead page r => RegMap.assigned page.val && r.port.wf
  | .lockWrite page w => RegMap.assigned page.val && w.port.wf
  | .irqClr page w => RegMap.assigned page.val && w.port.wf
  | .integScrub page upset => RegMap.assigned page.val && upsetWf upset
  | .sealedPageRewrite page => RegMap.assigned page.val
  | .cycleBoundary _ => true
  | .sampleWord _ => true
  | .channelLost _ => true
  | .loss => true
  | .acquireRestart => true
  | .revert => true
  | .ctfReacq w => w.port.wf
  | .ctfForceNext w => w.port.wf
  | .seed w => w.port.wf
  | .stampRead r => r.port.wf
  | .pairFreeze r => r.port.wf
  | .pairRelease r => r.port.wf
  | .utcSet w => w.port.wf
  | .utcLoad => true
  | .ctfCommit w => w.port.wf
  | .schedActivate => true
  | .schedSignal _ _ => true
  | .xt32Stop => true
  | .ref48Retry _ => true
  | .activate w => w.port.wf
  | .suspend w => w.port.wf
  | .resume w => w.port.wf
  | .softReset w => w.port.wf
  | .fullReset w => w.port.wf
  | .tenantResetDone _ => true
  | .tncCxSoftrst _ w => w.port.wf
  | .grant w => w.port.wf
  | .revoke w => w.port.wf
  | .aliasMap w => w.port.wf
  | .tncSealReq _ w => w.port.wf
  | .sealComplete => true
  | .tncUnsealArm w => w.port.wf
  | .tncUnsealReq w => w.port.wf
  | .armWindowExpiry => true
  | .refillPeriod _ => true
  | .itemLatestTime _ _ => true
  | .contTestStart => true
  | .contTestResult => true
  | .acsCalZero w => w.port.wf
  | .acsCalFull w => w.port.wf
  | .acsCalAbort w => w.port.wf
  | .calZeroDone => true
  | .calFullDone => true
  | .calTimeout => true
  | .metrologyClose upsets => upsets.all AccUpset.wf
  | .accCycRead vm idx r => (vm || decide (idx.val < 64)) && r.port.wf
  | .mteRdCycRead _ r => r.port.wf
  | .accVclr _ w => w.port.wf
  | .spillIncrement => true
  | .pulseStart _ => true
  | .pulseEnd _ => true
  | .pinReadback _ _ => true
  | .pqeWindow => true
  | .pqeBlockEnd => true
  | .vsenseClassify => true
  | .pqeHcycRead r => r.port.wf
  | .entryPull _ => true
  | .tileComplete _ _ _ _ => true
  | .tileDeadline => true
  | .tunCkResclr _ w => w.port.wf
  | .tunBstArm w => w.port.wf
  | .burstDrain => true
  | .burstRepStart => true
  | .burstRepEnd => true
  | .routeOp _ _ _ => true
  | .combineOp _ _ => true
  | .routerDeadline => true
  | .ltrWcommit w => w.port.wf
  | .barmRingPoll _ => true
  | .barmKick _ w => w.port.wf
  | .windowBoundary => true
  | .barmAppend => true
  | .expertExpand => true
  | .insightDeliver => true
  | .listComplete => true
  | .barmRecordRelease _ => true
  | .ccxTctx _ _ _ => true
  | .stampCompare _ _ => true
  | .hartMemoryAccess a => a.wf
  | .ccxDdrInit w => w.port.wf
  | .ddrInitDone => true
  | .ddrTrainTimeout => true
  | .ccxQspGo w => w.port.wf
  | .qspiComplete data => decide (data.length ≤ 256)
  | .bootSelect slotA slotB _ => slotA.wf && slotB.wf
  | .mgcTrial w _ => w.port.wf
  | .mgcBootok w _ => w.port.wf
  | .recoveryRetry slotA slotB _ => slotA.wf && slotB.wf
  | .mgcWkick w => w.port.wf
  | .mgcWatchdog => true
  | .ccxKick _ w => w.port.wf
  | .hartWatchdog _ => true
  | .ccxHrst _ w => w.port.wf
  | .mgcCcxreload w => w.port.wf
  | .reloadComplete _ => true
  | .restorePage w => w.port.wf
  | .restoreAcc w => w.port.wf
  | .saveAcc w => w.port.wf
  | .restoreSeqDone _ => true
  | .mgcDbToccx w => w.port.wf
  | .mgcDbTomgc w => w.port.wf
  | .toneTransmit => true
  | .toneTxComplete => true
  | .toneReceive f => f.wf
  | .driverFault _ _ => true
  | .tmreq => true
  | .tmrsp => true
  | .tmapRefresh _ => true
  | .tmapExpire => true
  | .pulseSlotDecide _ _ _ _ _ => true
  | .downlinkRequest _ => true
  | .downlinkTimeout _ => true
  | .plmRingPoll _ => true
  | .accessSlot _ _ => true
  | .ackTimeout => true
  | .reassemblyTimeout => true
  | .helloSend => true
  | .hello => true
  | .bye => true
  | .plmLeave w => w.port.wf
  | .neighbourAge => true
  | .radvSend => true
  | .radv => true
  | .routeAge => true
  | .plmEpKcommit _ w => w.port.wf
  | .plmSitekeyCommit w => w.port.wf
  | .plmJoin w => w.port.wf
  | .joinWindowClose => true
  | .join => true
  | .nodeUplink => true
  | .nodeLeave => true
  | .nodeSilent _ => true
  | .nodeDeparted _ => true
  | .nrelay => true
  | .storedUplinkDeliver => true
  | .schedRequestLate => true
  | .rgreq => true
  | .rgrsp => true
  | .rgrant => true
  | .rgrev => true
  | .grantRenew _ => true
  | .grantExpire _ => true
  | .standbyTakeover _ => true
  | .takeoverLimit _ => true
  | .linkUp _ _ => true
  | .linkDown _ _ => true
  | .enum frame => frame.wf
  | .announce frame => frame.wf
  | .link frame => frame.wf
  | .swcEnum w => w.port.wf
  | .enumTimeout => true
  | .alignExchange _ => true
  | .alignreq frame _ _ => frame.wf
  | .alignrsp frame _ => frame.wf
  | .alignTimeout => true
  | .swcSwGo w => w.port.wf
  | .sweep frame => frame.wf
  | .cmdack frame => frame.wf
  | .sweepExecute => true
  | .result frame => frame.wf
  | .reportFinal => true
  | .swcFGo w => w.port.wf
  | .fetch frame => frame.wf
  | .fetchTimeout => true
  | .swcOfsRead r => r.port.wf
  | .swcRhdrRead r => r.port.wf
  | .magOn _ _ _ => true
  | .magOff _ _ => true
  | .encOpen _ => true
  | .encClose _ => true
  | .supplyGlitch _ _ => true
  | .clockGlitch _ => true
  | .glitchRunEnd _ => true
  | .tempOut _ _ => true
  | .tempBack _ => true
  | .logEvent => true
  | .sealWrite => true
  | .clgSealnow w => w.port.wf
  | .clgRelease w => w.port.wf
  | .clgRdw0Read r => r.port.wf
  | .clgExpGo w => w.port.wf
  | .exportComplete => true
  | .clgFwCode w => w.port.wf
  | .fullcntSave => true
  | .secRingPoll _ => true
  | .sha256 => true
  | .hmac => true
  | .ccmEnc => true
  | .ccmDec => true
  | .sign => true
  | .verify => true
  | .ecdh => true
  | .random => true
  | .load => true
  | .generate => true
  | .erase => true
  | .pubkey => true
  | .secOpComplete _ => true
  | .eraseDeadline _ => true
  | .rbgFail => true
  | .rbgRecover => true
  | .secRbadv w => w.port.wf
  | .secRevk0 w => w.port.wf
  | .secRevk1 w => w.port.wf
  | .secIdarm w => w.port.wf
  | .secIdretire w => w.port.wf
  | .celRingPoll _ => true
  | .celRead => true
  | .celWrite => true
  | .celZero => true
  | .celCommandComplete _ => true
  | .scrub _ => true
  | .celUnresv w => w.port.wf
  | .celBparm w => w.port.wf
  | .celBpWrite w => w.port.wf
  | .celMGo _ w => w.port.wf
  | .unitWipeDone => true
  | .estimationStep m => m.wf
  | .burstEdge _ _ _ => true
  | .openWireTest _ _ => true
  | .bgaOwnow w => w.port.wf
  | .bgaMntGo w => w.port.wf
  | .bgaMntAbort w => w.port.wf
  | .mntEnd => true
  | .bgaRestore w => w.port.wf
  | .bgaCold w => w.port.wf
  | .bgaTcommit w => w.port.wf
  | .snapshot r => r.port.wf
  | .vinLost _ _ => true
  | .vinPresent _ _ => true
  | .powerUp _ _ _ _ => true
  | .railFault _ => true
  | .railRestart => true
  | .auxAttempt => true
  | .auxAttemptCheck _ => true
  | .auxDrop _ => true
  | .auxGoodHold => true
  | .pmuAuxRetry w => w.port.wf
  | .pmuAuxEn _ w => w.port.wf
  | .writeBlockAssert _ => true
  | .writeBlockRelease => true
  | .cutoffWarning _ => true
  | .pmuCutack w => w.port.wf
  | .cutGrace => true
  | .hardCutoff _ => true
  | .cutoffSequence => true
  | .chargeDone => true
  | .chargeRestart _ => true
  | .chargeTemp _ => true
  | .chargeTimeout => true
  | .pmuKilnArm w => w.port.wf
  | .pmuKilnGo w => w.port.wf
  | .pmuKilnConfirm w => w.port.wf
  | .kilnTimeout => true
  | .kilnExit _ _ _ => true
  | .avsStep => true
  | .supplyLoop margins volts => margins.length == 12 && volts.length == 24
  | .thermalLoop temps => temps.length == 16
  | .degradeDescent => true
  | .degradeAscent => true
  | .monCap _ w => w.port.wf
  | .monAscend w => w.port.wf
  | .inspectExpire => true
  | .coldStart _ => true
  | .systemReset _ => true
  | .hostRead r => r.wf
  | .hostWrite r => r.wf
  | .lockpair r => r.wf
  | .openSession r => r.wf
  | .prove r => r.wf
  | .closeSession r => r.wf
  | .discover r => r.wf
  | .lockoutEnd _ => true
  | .hspCsCut => true
  | .note _ => true
  | .ethTxDesc => true
  | .ethRxFrame frame => decide (14 ≤ frame.length)
  | .ethMdGo _ w => w.port.wf
  | .phyPoll _ => true
  | .uartTxdata _ w => w.port.wf
  | .uartRxChar _ _ _ => true
  | .uartRxdataRead _ r => r.port.wf
  | .uartEof _ _ => true
  | .gpioEdge _ _ => true
  | .tinChange _ _ => true
  | .dbgArm w => w.port.wf
  | .dbgReq w => w.port.wf
  | .xt32Restart => true
  | .plicClaim _ => true
  | .probeTimeout _ => true
  | .packPresenceChange _ => true
  | .vsysPowerDown => true
  | .uartTxEnd _ => true

end Sys2Proof
end

