-- ==== Sys2Proof/Certificates/Slice0/Obligations.lean ====
section
/-! DEFINITION. The statements for the provers: one proposition each. -/

open Sys2Proof Sys2Proof.Machine Sys2Proof.Machine.Reg

/-! ## Words that the statements share -/

namespace Sys2Proof.Machine

/-- Every word of the register space other than those of the pages that `p` names is as before. -/
def RegsBut (p : Nat → Bool) (s t : State) : Prop :=
  ∀ page off : Nat, page < 1024 → off < 4096 → p page = false → t.reg page off = s.reg page off

/-- The write of the whole word `w.data` to offset `off` of `page`, as an access through the direct window. -/
def wordAccess (page off : Nat) (w : RegWrite) : Access :=
  { port := w.port, tc := w.tc, addr := directAddr page off, data := w.data, cc := w.cc }

/-- The read of offset `off` of `page`, as an access through the direct window. -/
def readAccess (page off : Nat) (r : RegRead) : Access :=
  { port := r.port, tc := r.tc, addr := directAddr page off }

/-- The request that reaches a page through the direct window. -/
def reqOf (page off : Nat) (port : Port) (tc : Fin 64) : Req := ⟨port, tc.val, page, off, none⟩

/-- An event stands last in the queue of the log engine. -/
def Logged (s t : State) (code tc data : Nat) : Prop :=
  t.events = s.events ++ [⟨code, tc, leBytes 8 data⟩]

end Sys2Proof.Machine

/-! ## The cycle-time fabric (chapter 2) -/

/-- LOSS moves LOCKED to FLYWHEEL while the reference is not declared lost. CHANNEL_LOST marks channel codes 1 to 6 and ends
their qualification; a reference lost in FLYWHEEL without a switch target enters HOLDOVER, counted, with no
reference and its power entry, and one with a target returns to LOCKED on it, counted as a switch. ACQUIRE_RESTART
after sixteen cycles counts CTF_ACQFAIL. REVERT switches to the channel of higher priority. A performed CTF_REACQ
outside FREE enters ACQUIRE; CTF_FORCE_NEXT waits for the boundary. CYCLE_BOUNDARY opens the next cycle at phase 0
with the next cycle number once the seed is accepted. -/
def Obligations.CtfTransitionsComplete : Prop :=
  (∀ s : State, s.ctfSt = ctfLocked → (s.chan (s.rd CTF_REF)).lost = false →
    Answers .loss s fun t => t.ctfSt = ctfFlywheel ∧ bit (t.rd (IRQ_RAW 0x010)) 1 = true) ∧
  (∀ (s : State) (c : Fin 8), 1 ≤ c.val → c.val ≤ 6 → s.ctf.chans.length = 6 → s.rd CTF_REF ≠ c.val →
    Answers (.channelLost c) s fun t =>
      (t.chan c.val).lost = true ∧ (t.chan c.val).qualified = false ∧ t.ctfSt = s.ctfSt) ∧
  (∀ (s : State) (c : Fin 8), 1 ≤ c.val → c.val ≤ 6 → s.rd CTF_REF = c.val → s.ctfSt = ctfFlywheel →
    (∀ k ∈ s.priorities, k = c.val ∨ (s.chan k).qualified = false ∨ (s.chan k).offsetOk = false) →
    Answers (.channelLost c) s fun t =>
      t.ctfSt = ctfHoldover ∧ t.rd CTF_REF = 0 ∧ t.rd CTF_HOLDN = satNat 8 (s.rd CTF_HOLDN + 1) ∧
      (⟨0x2002, deviceTc, leBytes 8 c.val⟩ : LogEvent) ∈ t.events) ∧
  (∀ (s : State) (c : Fin 8) (d : Nat), 1 ≤ c.val → c.val ≤ 6 → s.rd CTF_REF = c.val → s.ctfSt = ctfFlywheel →
    s.switchTarget = some d → 1 ≤ d → d ≤ 6 →
    Answers (.channelLost c) s fun t =>
      t.ctfSt = ctfLocked ∧ t.rd CTF_REF = d ∧ t.rd CTF_SWITCH = satNat 8 (s.rd CTF_SWITCH + 1)) ∧
  (∀ s : State, s.ctfSt = ctfAcquire → 16 ≤ s.ctf.acqCyc →
    Answers .acquireRestart s fun t =>
      t.ctfSt = ctfAcquire ∧ t.rd CTF_ACQFAIL = satNat 8 (s.rd CTF_ACQFAIL + 1) ∧ t.ctf.acqCyc = 0 ∧
      SameBut [.regs, .ctf] s t) ∧
  (∀ (s : State) (c : Nat), s.ctfSt = ctfLocked → s.on CTF_REVERT_EN = true → s.revertTarget = some c → c ≤ 6 →
    Answers .revert s fun t =>
      t.rd CTF_REF = c ∧ t.rd CTF_SWITCH = satNat 8 (s.rd CTF_SWITCH + 1) ∧
      Logged s t 0x2001 deviceTc (s.rd CTF_REF + c * 2 ^ 8 + 2 ^ 16) ∧ t.ctfSt = ctfLocked) ∧
  (∀ (s : State) (w : RegWrite), s.admitsWrite 0x010 0x0CC w (setBit w.data.toNat 0) = true →
    s.ctfSt ≠ ctfFree →
    Answers (.ctfReacq w) s fun t => t.resp.code = .ok ∧ t.ctfSt = ctfAcquire) ∧
  (∀ (s : State) (w : RegWrite), s.admitsWrite 0x010 0x0CC w (setBit w.data.toNat 1) = true →
    Answers (.ctfForceNext w) s fun t => t.resp.code = .ok ∧ t.ctf.forceNext = true) ∧
  (∀ (s : State) (p : BitVec 24),
    Answers (.cycleBoundary p) s fun t =>
      t.ctf.ph = 0 ∧ t.ctf.cyc = if s.ctf.seeded then (s.ctf.cyc + 1) % 2 ^ 48 else s.ctf.cyc)

/-- A performed SEED before the first lock starts the stamp at phase 0 of the cycle after the seed's, and a later one is
answered PROTECTED and leaves the stamp. STAMP_READ answers the low half of the stamp and latches the high half.
PAIR_FREEZE holds the pair and PAIR_RELEASE releases it. UTC_SET holds a count that UTC_LOAD loads and logs with
the old one. XT32_STOP marks UTC estimated and XT32_RESTART ends that where UTC was not lost. REF48_RETRY counts
retries and logs them once the clock is valid. -/
def Obligations.CtfTimekeepingComplete : Prop :=
  (∀ (s : State) (w : RegWrite), s.admitsWrite 0x010 0x0A4 w w.data.toNat = true →
    (s.ctf.seeded = false → s.ctf.everLocked = false →
      Answers (.seed w) s fun t =>
        t.resp.code = .ok ∧ t.ctf.seeded = true ∧
        t.stamp = ⟨((stampOf (s.heldWord 0x010 0x0A0 + 2 ^ 32 * w.data.toNat)).cyc + 1) % 2 ^ 48, 0⟩) ∧
    (s.ctf.seeded = true ∨ s.ctf.everLocked = true →
      Answers (.seed w) s fun t => t.resp.code = .prot ∧ t.stamp = s.stamp)) ∧
  (∀ (s : State) (r : RegRead), s.admitsRead 0x010 0x040 r = true →
    Answers (.stampRead r) s fun t =>
      t.resp.code = s.okOr ∧ t.resp.data = [stampNat s.stamp % 2 ^ 32] ∧
      cellAt 0#32 (regKey 0x010 0x044) t.latch = BitVec.ofNat 32 (stampNat s.stamp / 2 ^ 32) ∧
      SameBut [.latch, .resp] s t) ∧
  (∀ (s : State) (r : RegRead), s.admitsRead 0x010 0x0B8 r = true →
    Answers (.pairFreeze r) s fun t =>
      t.resp.data = [s.rd CTF_PSL] ∧ t.ctf.pairHeld = true ∧ SameBut [.ctf, .resp] s t) ∧
  (∀ (s : State) (r : RegRead), s.admitsRead 0x010 0x0C4 r = true →
    Answers (.pairRelease r) s fun t =>
      t.resp.data = [s.rd CTF_PFRAC] ∧ t.ctf.pairHeld = false ∧ SameBut [.ctf, .resp] s t) ∧
  (∀ (s : State) (w : RegWrite), s.admitsWrite 0x010 0x0B0 w w.data.toNat = true →
    Answers (.utcSet w) s fun t =>
      t.resp.code = .ok ∧ t.ctf.utcSet = some w.data.toNat ∧ SameBut [.ctf, .resp] s t) ∧
  (∀ (s : State) (v : Nat), s.ctf.utcSet = some v → v < 2 ^ 32 →
    Answers .utcLoad s fun t =>
      t.rd CTF_UTC = v ∧ t.rd CTF_UTC_FRAC = 0 ∧ t.ctf.utcSet = none ∧
      Logged s t 0x4001 deviceTc (s.rd CTF_UTC + v * 2 ^ 32) ∧ t.stamp = s.stamp) ∧
  (∀ s : State, s.ctf.xt32 = true →
    Answers .xt32Stop s fun t => t.ctf.xt32 = false ∧ t.on CTF_UTC_EST = true) ∧
  (∀ s : State, s.ctf.xt32 = false →
    Answers .xt32Restart s fun t => t.ctf.xt32 = true ∧ t.on CTF_UTC_EST = s.ctf.utcLost) ∧
  (∀ s : State, Answers (.ref48Retry false) s fun t =>
    t.ctf.refWait = some (s.ctf.refWait.getD 0 + 1) ∧ SameBut [.ctf] s t) ∧
  (∀ (s : State) (n : Nat), s.ctf.refWait = some n →
    Answers (.ref48Retry true) s fun t =>
      t.ctf.refWait = none ∧ Logged s t 0x2004 deviceTc (n * 2 ^ 32) ∧ SameBut [.ctf, .events] s t)

/-- A performed CTF_COMMIT of a bank without a bad entry at least 1,024 ct before its cycle waits for that cycle; a bank
with a bad entry is refused with CFG_INVALID and a late one with TIMEOUT, in CTF_SCODE. In the commit cycle
SCHED_ACTIVATE makes every entry of the shadow bank active and reports OK. SCHED_SIGNAL asserts an entry that acts
in the cycle and releases an asserted one; quiet slots open with CTF_QAUTO for entries of PLP and close. -/
def Obligations.SchedulingTableComplete : Prop :=
  (∀ (s : State) (w : RegWrite), s.admitsWrite 0x011 0x040 w (setBit w.data.toNat 0) = true →
    (s.firstBadEntry = none →
      stampNat s.stamp + 1024 ≤ (s.rd CTF_AT_LO + 2 ^ 32 * s.rd CTF_AT_HI) * 65536 →
      Answers (.ctfCommit w) s fun t =>
        t.resp.code = .ok ∧ t.ctf.commitAt = some (s.rd CTF_AT_LO + 2 ^ 32 * s.rd CTF_AT_HI)) ∧
    (s.firstBadEntry = none →
      (s.rd CTF_AT_LO + 2 ^ 32 * s.rd CTF_AT_HI) * 65536 < stampNat s.stamp + 1024 →
      Answers (.ctfCommit w) s fun t =>
        t.rd CTF_SCODE = codeOf .timeout ∧ t.ctf.commitAt = s.ctf.commitAt ∧ t.ctf.active = s.ctf.active) ∧
    (∀ n, s.firstBadEntry = some n →
      Answers (.ctfCommit w) s fun t =>
        t.rd CTF_SCODE = codeOf .cfgInvalid ∧ t.rd CTF_FIRST = n ∧ t.ctf.commitAt = s.ctf.commitAt ∧
        t.ctf.active = s.ctf.active)) ∧
  (∀ (s : State) (n : Nat), s.ctf.commitAt = some n → s.ctf.seeded = true → n ≤ s.ctf.cyc →
    Answers .schedActivate s fun t =>
      t.ctf.commitAt = none ∧ t.rd CTF_SCODE = codeOf .ok ∧
      ∀ k : Fin 256, t.activeEntry k.val = s.shadowEntry k.val) ∧
  (∀ (s : State) (n : Fin 256), s.entryActs (s.activeEntry n.val) = true →
    s.edgePhase (s.activeEntry n.val) .assertSignal ≤ s.ctf.ph →
    Answers (.schedSignal n .assertSignal) s fun t => n.val ∈ t.ctf.asserted) ∧
  (∀ (s : State) (n : Fin 256), n.val ∈ s.ctf.asserted →
    s.edgePhase (s.activeEntry n.val) .releaseSignal ≤ s.ctf.ph →
    Answers (.schedSignal n .releaseSignal) s fun t => t.ctf.asserted = s.ctf.asserted.erase n.val) ∧
  (∀ (s : State) (n : Fin 256), s.entryActs (s.activeEntry n.val) = true →
    entCons (s.activeEntry n.val) = 2 → s.on CTF_QAUTO = true →
    s.edgePhase (s.activeEntry n.val) .openQuiet ≤ s.ctf.ph →
    Answers (.schedSignal n .openQuiet) s fun t => n.val ∈ t.ctf.quiet ∧ t.quietGate = true) ∧
  (∀ (s : State) (n : Fin 256), n.val ∈ s.ctf.quiet →
    s.edgePhase (s.activeEntry n.val) .closeQuiet ≤ s.ctf.ph →
    Answers (.schedSignal n .closeQuiet) s fun t => t.ctf.quiet = s.ctf.quiet.erase n.val)

/-! ## Register pages (chapter 3) -/

/-- A step with a command at the front of the queue is exec of that command on the state with the rest of the
queue, and on an empty queue one tick of CD05 passes (the model's choice, log entry 1). -/
def Obligations.StepRunsFrontCommand : Prop :=
  (∀ (s : State) (c : Instr) (rest : List Instr),
    step { s with pending := c :: rest } = exec c { s with pending := rest }) ∧
  (∀ s : State, s.pending = [] → step s = .next (s.advance 1))

/-- Whatever the command and the state: after a step the queue is the queue before it without its first command.
No command adds, drops or reorders commands that wait. -/
def Obligations.StepKeepsQueueOrder : Prop :=
  ∀ s t : State, step s = .next t → t.pending = s.pending.tail

/-- From every state whose inference memory is in canonical form (addresses strictly rising, no blank byte
listed), a step answers a state whose memory is in canonical form. -/
def Obligations.StepKeepsMemoryForm : Prop :=
  ∀ s t : State, memWf s.mem = true → step s = .next t → memWf t.mem = true

/-- After power-on the queue and the memory are empty, the memory is in canonical form, and every register word
of every page reads as the Reset columns of its tables state: among them the part number, VERSION 0x00B1_0100,
the owners of Table 3-10, TC00 and TC01 ACTIVE and every other tenant OFF. -/
def Obligations.ResetLeaves : Prop :=
  State.reset.pending = [] ∧ memWf State.reset.mem = true ∧ State.reset.mem = [] ∧
  (∀ page off : Nat, State.reset.reg page off = (RegMap.resetWord page off).toNat) ∧
  State.reset.reg 0x000 0x040 = 0x640000BE ∧
  (∀ page : Fin 1024, RegMap.assigned page.val = true →
    State.reset.reg page.val 0x04 = 0x00B10100 ∧
    State.reset.rd (OWN_TC page.val) = RegMap.homeOwner page.val) ∧
  (∀ t : Fin 64, State.reset.tenant t.val = if t.val ≤ 1 then tenActive else tenOff)

/-- Two words that differ in one bit of what the carry code covers (one bit of the data, of the address A, of the
tenant number, or the direction) have different carry codes. -/
def Obligations.CarryCodeSeesOneBit : Prop :=
  ∀ (dir : Bool) (tc : BitVec 6) (a : BitVec 24) (d : Word),
    (∀ k : Fin 32, carryCode dir tc.toNat a.toNat (d ^^^ (1#32 <<< k.val)) ≠ carryCode dir tc.toNat a.toNat d) ∧
    (∀ k : Fin 24, carryCode dir tc.toNat (a ^^^ (1#24 <<< k.val)).toNat d ≠ carryCode dir tc.toNat a.toNat d) ∧
    (∀ k : Fin 6, carryCode dir (tc ^^^ (1#6 <<< k.val)).toNat a.toNat d ≠ carryCode dir tc.toNat a.toNat d) ∧
    carryCode (!dir) tc.toNat a.toNat d ≠ carryCode dir tc.toNat a.toNat d

/-- A write that leads to a page, through the direct window or an alias window, with a wrong carry code is answered
INTEG_FAIL, is counted in SYS_HPERR, and is captured in ERRCAP of the page where no capture is held; its HOST_CC
entry names the address and the interface; and every other register word of the device, in this page or another,
is as it was. Where the page's scrub was due (R86), the scrub comes first, so that case is left out. -/
def Obligations.FailingCarryCodeIsNotPerformed : Prop :=
  ∀ (s : State) (a : Access) (r : Route) (p : Nat),
    s.route a.addr.toNat = some r → r.page = some p → p < 1024 → (s.pg p).stale = false →
    a.cc ≠ carryCode true a.tc.val (addressA a.addr.toNat a.replay) a.data →
    Answers (.configWrite a) s fun t =>
      t.resp.code = .integFail ∧
      t.rd SYS_HPERR = satNat 16 (s.rd SYS_HPERR + 1) ∧
      Logged s t 0x5003 deviceTc (addressA a.addr.toNat a.replay + portCode a.port * 2 ^ 24) ∧
      (s.on (ERR_VALID p) = false →
        t.reg p 0x28 = codeOf .integFail + r.off / 4 * 2 ^ 8 + a.tc.val * 2 ^ 18 + 2 ^ 24 + 2 ^ 31) ∧
      (∀ q o : Nat, q < 1024 → o < 4096 → ¬(q = 0x000 ∧ o = 0x5C) →
        ¬(q = p ∧ (o = 0x28 ∨ o = 0x10)) → t.reg q o = s.reg q o) ∧
      SameBut [.regs, .events, .resp] s t

/-- Whatever a tenant writes, at whatever address, size or carry code: where the address leads to a page that it does not
own (and whose word is not held once per tenant), no block register of that page changes; page 0x000, whose
counters count refused accesses, apart. -/
def Obligations.NonOwnerWriteChangesNothing : Prop :=
  ∀ (s t : State) (a : Access) (r : Route) (p : Nat),
    s.route a.addr.toNat = some r → r.page = some p → p ≠ 0x000 → p < 1024 →
    s.owns ⟨a.port, a.tc.val, p, r.off / 4 * 4, r.slot⟩ = false →
    exec (.configWrite a) s = .next t →
    ∀ o : Nat, 0x40 ≤ o → o < 4096 → t.reg p o = s.reg p o

/-- An address decodes as Table 3-1 states: the direct window to page p of Table 3-10, the alias windows to their slot, every other
address and every unassigned page to nothing. There a write answers CFG_INVALID and a read zero with OK and the
carry code over the address used, and nothing else changes: no capture, no log entry, no counter. -/
def Obligations.ReservedRangesAnswer : Prop :=
  (∀ p off : Nat, p < 1024 → off < 4096 →
    targetOf (0x40000000 + p * 0x1000 + off) =
      if RegMap.assigned p then .page p off else .nowhere) ∧
  (∀ t k off : Nat, t < 64 → k < 256 → off < 4096 →
    targetOf (0x60000000 + t * 0x100000 + k * 0x1000 + off) = .slot t k off) ∧
  (∀ a : Nat, (0x40400000 ≤ a ∧ a < 0x60000000) ∨ 0x64000000 ≤ a → targetOf a = .nowhere) ∧
  (∀ (s : State) (a : Access), targetOf a.addr.toNat = .nowhere →
    Answers (.configWrite a) s fun t =>
      t.resp.code = .cfgInvalid ∧ SameBut [.resp] s t) ∧
  (∀ (s : State) (a : Access), targetOf a.addr.toNat = .nowhere →
    Answers (.readClear a) s fun t =>
      t.resp.code = .ok ∧ t.resp.data = [0] ∧
      t.resp.cc = [(carryCode false a.tc.val (addressA a.addr.toNat false) 0).toNat] ∧ SameBut [.resp] s t)

/-- A performed write of IRQ_EN (CONFIG_WRITE) stores the word; IRQ_CLR clears in IRQ_RAW exactly the bits written 1 (and, on page 0x0A8, MGC_DB_TOMGC with bit 0); CTRL_PRST
returns every configuration word of a page to its reset value (stated for pages whose reset has no follow-up in
another register) and logs the page reset; INTEG_SCRUB of a page with no mismatch run opens one when stored and
reference configuration differ, sets STS_INTEGERR and logs INTEG_ERR, and ends it when they agree;
SEALED_PAGE_REWRITE logs the restoration and happens once per run. -/
def Obligations.HeaderCommandsComplete : Prop :=
  (∀ (s : State) (page : Fin 1024) (w : RegWrite), RegMap.assigned page.val = true →
    s.admitsWrite page.val 0x14 w w.data.toNat = true →
    Answers (.configWrite (wordAccess page.val 0x14 w)) s fun t =>
      t.resp.code = .ok ∧ t.rd (IRQ_EN page.val) = w.data.toNat ∧
      (∀ p o : Nat, p < 1024 → o < 4096 → ¬(p = page.val ∧ o = 0x14) → t.reg p o = s.reg p o)) ∧
  (∀ (s : State) (page : Fin 1024) (w : RegWrite), RegMap.assigned page.val = true →
    s.admitsWrite page.val 0x1C w w.data.toNat = true →
    Answers (.irqClr page w) s fun t =>
      t.resp.code = .ok ∧
      (∀ b : Fin 32, bit (t.rd (IRQ_RAW page.val)) b.val =
        (bit (s.rd (IRQ_RAW page.val)) b.val && !bit w.data.toNat b.val)) ∧
      (∀ p o : Nat, p < 1024 → o < 4096 → ¬(p = page.val ∧ o = 0x10) → ¬(p = 0x0A8 ∧ o = 0x0C0) →
        t.reg p o = s.reg p o)) ∧
  (∀ (s : State) (page : Fin 1024) (w : RegWrite), RegMap.assigned page.val = true →
    s.admitsWrite page.val 0x08 w (setBit w.data.toNat 31) = true →
    Answers (.ctrlPrst page w) s fun t =>
      t.resp.code = .ok ∧
      t.events.getLast? = some ⟨0x4003, t.rd (OWN_TC page.val), leBytes 8 page.val⟩) ∧
  (∀ s : State, ∀ page : Fin 1024, ∀ w : RegWrite, page.val ∈ [0x029, 0x030, 0x090, 0x098, 0x0C8, 0x0CC, 0x114] →
    s.admitsWrite page.val 0x08 w (setBit w.data.toNat 31) = true →
    Answers (.ctrlPrst page w) s fun t =>
      ∀ o ∈ configOffs page.val, t.reg page.val o &&& rwMask page.val o =
        (RegMap.resetWord page.val o).toNat &&& rwMask page.val o) ∧
  (∀ (s : State) (page : Fin 1024), RegMap.assigned page.val = true → s.pageRuns page.val = true →
    s.integNow page.val ≠ s.integRef page.val → s.on (STS_INTEGERR page.val) = false →
    Answers (.integScrub page none) s fun t =>
      t.on (STS_INTEGERR page.val) = true ∧ Logged s t 0x5005 (s.rd (OWN_TC page.val)) page.val) ∧
  (∀ (s : State) (page : Fin 1024), RegMap.assigned page.val = true → s.pageRuns page.val = true →
    s.integNow page.val = s.integRef page.val →
    Answers (.integScrub page none) s fun t =>
      t.on (STS_INTEGERR page.val) = false ∧ t.events = s.events) ∧
  (∀ (s : State) (page : Fin 1024), s.on (STS_SEALED page.val) = true → s.on (STS_INTEGERR page.val) = true →
    (s.pg page.val).mended = false →
    Answers (.sealedPageRewrite page) s fun t =>
      (t.pg page.val).mended = true ∧ (∃ e, t.events.getLast? = some e ∧ e.code = 0x4005) ∧
      exec (.sealedPageRewrite page) t = .next t)

/-- A read of LOCK by the owner answers a challenge that the page then holds. A write of LOCK within 480 REF48
clocks of it, by the tenant that read it, with LOCK_KEY and the challenge XOR the page number, takes or releases
the lock and uses the challenge up; LOCK_SEAL prevents a release. A later write answers TIMEOUT, a wrong response
or none outstanding CFG_INVALID; both leave LOCK_HELD and use the challenge up. -/
def Obligations.LockChallengeProtocol : Prop :=
  (∀ (s : State) (page : Fin 1024) (r : RegRead), RegMap.assigned page.val = true →
    s.admitsRead page.val 0x20 r = true → s.rd (OWN_TC page.val) = r.tc.val → s.on SEC_RBGERR = false →
    Answers (.lockRead page r) s fun t =>
      t.resp.code = .ok ∧
      ∃ c, (t.pg page.val).chal = some c ∧ c.tc = r.tc.val ∧ c.clk = s.now ∧ c.value < 2 ^ 16 ∧
        t.resp.data = [c.value + s.lockBits page.val]) ∧
  (∀ (s : State) (page : Fin 1024) (w : RegWrite) (c : Challenge), RegMap.assigned page.val = true →
    s.admitsWrite page.val 0x20 w w.data.toNat = true → (s.pg page.val).chal = some c →
    (c.tc = w.tc.val ∧ s.now ≤ c.clk + 480 ∧ bit w.data.toNat 31 = true ∧
        bits w.data.toNat 0 16 = c.value ^^^ page.val ∧
        (s.on (LOCK_SEAL page.val) = false ∨ bit w.data.toNat 30 = true) →
      Answers (.lockWrite page w) s fun t =>
        t.resp.code = .ok ∧ t.held page.val = bit w.data.toNat 30 ∧ (t.pg page.val).chal = none) ∧
    (c.tc = w.tc.val ∧ c.clk + 480 < s.now ∧ bit w.data.toNat 31 = true ∧
        bits w.data.toNat 0 16 = c.value ^^^ page.val ∧ s.on (LOCK_SEAL page.val) = false →
      Answers (.lockWrite page w) s fun t =>
        t.resp.code = .timeout ∧ t.held page.val = s.held page.val ∧ (t.pg page.val).chal = none) ∧
    (bit w.data.toNat 31 = false ∨ bits w.data.toNat 0 16 ≠ c.value ^^^ page.val →
      s.on (LOCK_SEAL page.val) = false →
      Answers (.lockWrite page w) s fun t =>
        t.resp.code = .cfgInvalid ∧ t.held page.val = s.held page.val ∧ (t.pg page.val).chal = none)) ∧
  (∀ (s : State) (page : Fin 1024) (w : RegWrite), RegMap.assigned page.val = true →
    s.admitsWrite page.val 0x20 w w.data.toNat = true → (s.pg page.val).chal = none →
    Answers (.lockWrite page w) s fun t =>
      t.resp.code = .cfgInvalid ∧ t.held page.val = s.held page.val ∧ (t.pg page.val).chal = none)

/-- The owner's performed READ_CLEAR of an activation counter of page TIN answers the count, clears it and leaves the replay
record; a REPLAY_READ of the same word by the same tenant from that state answers the same count and clears
nothing; a replay read of another word is SKIPPED with zero. -/
def Obligations.ReadClearThenReplay : Prop :=
  ∀ (s : State) (k : Fin 8) (r : RegRead),
    s.admitsRead 0x114 (0x50 + 4 * k.val) r = true → s.rd (OWN_TC 0x114) = r.tc.val →
    Answers (.readClear (readAccess 0x114 (0x50 + 4 * k.val) r)) s fun t =>
      t.resp.code = .ok ∧ t.resp.data = [s.rd (TIN_CNT k.val)] ∧ t.rd (TIN_CNT k.val) = 0 ∧
      (∀ p o : Nat, p < 1024 → o < 4096 → ¬(p = 0x114 ∧ o = 0x50 + 4 * k.val) → t.reg p o = s.reg p o) ∧
      (Answers (.replayRead (readAccess 0x114 (0x50 + 4 * k.val) r)) t fun u =>
        u.resp.code = .ok ∧ u.resp.data = [s.rd (TIN_CNT k.val)] ∧ u.regs = t.regs) ∧
      (∀ j : Fin 8, j ≠ k →
        Answers (.replayRead (readAccess 0x114 (0x50 + 4 * j.val) r)) t fun u =>
          u.resp.code = .skipped ∧ u.resp.data = [0] ∧ u.rd (TIN_CNT j.val) = t.rd (TIN_CNT j.val))


/-! ## Tenancy (chapter 4) -/

/-- While no reset runs, a performed TNC_TCMD naming a tenant above TC01 completes with OK: ACTIVATE takes it from OFF to
ACTIVE, SUSPEND from ACTIVE to SUSPENDED, RESUME from SUSPENDED to ACTIVE, each with its log entry and in both
pages that show the state; SOFT_RESET and FULL_RESET take an ACTIVE or SUSPENDED tenant to RESETTING, with
TNC_T_BUSY at 1 and the reset outstanding. TNC_CX_SOFTRST does the same for the tenant itself; TC00 gets CFG_INVALID,
TC01 PROTECTED while sealed and CFG_INVALID otherwise, a tenant in RESETTING SKIPPED. TENANT_RESET_DONE, once nothing
of the tenant runs, returns a soft reset to the state before it and a full reset whose revocations have ended to OFF. -/
def Obligations.TenantStatesComplete : Prop :=
  (∀ (s : State) (w : RegWrite), s.admitsWrite 0x002 0x050 w (putBits w.data.toNat 8 3 1) = true →
    s.on TNC_T_BUSY = false → 2 ≤ bits w.data.toNat 0 6 → s.tenant (bits w.data.toNat 0 6) = tenOff →
    Answers (.activate w) s fun t =>
      t.resp.code = .ok ∧ t.tenant (bits w.data.toNat 0 6) = tenActive ∧
      t.rd (TNC_CX_ST (bits w.data.toNat 0 6)) = tenActive ∧
      (⟨0x4013, bits w.data.toNat 0 6, leBytes 8 (tenActive + 1 * 2 ^ 8)⟩ : LogEvent) ∈ t.events) ∧
  (∀ (s : State) (w : RegWrite), s.admitsWrite 0x002 0x050 w (putBits w.data.toNat 8 3 2) = true →
    s.on TNC_T_BUSY = false → 2 ≤ bits w.data.toNat 0 6 → s.tenant (bits w.data.toNat 0 6) = tenActive →
    Answers (.suspend w) s fun t =>
      t.resp.code = .ok ∧ t.tenant (bits w.data.toNat 0 6) = tenSuspended ∧
      t.rd (TNC_CX_ST (bits w.data.toNat 0 6)) = tenSuspended ∧
      (⟨0x4013, bits w.data.toNat 0 6, leBytes 8 (tenSuspended + 2 * 2 ^ 8)⟩ : LogEvent) ∈ t.events) ∧
  (∀ (s : State) (w : RegWrite), s.admitsWrite 0x002 0x050 w (putBits w.data.toNat 8 3 3) = true →
    s.on TNC_T_BUSY = false → 2 ≤ bits w.data.toNat 0 6 → s.tenant (bits w.data.toNat 0 6) = tenSuspended →
    Answers (.resume w) s fun t =>
      t.resp.code = .ok ∧ t.tenant (bits w.data.toNat 0 6) = tenActive ∧
      t.rd (TNC_CX_ST (bits w.data.toNat 0 6)) = tenActive ∧
      (⟨0x4013, bits w.data.toNat 0 6, leBytes 8 (tenActive + 3 * 2 ^ 8)⟩ : LogEvent) ∈ t.events) ∧
  (∀ (s : State) (w : RegWrite), s.admitsWrite 0x002 0x050 w (putBits w.data.toNat 8 3 4) = true →
    s.on TNC_T_BUSY = false → 2 ≤ bits w.data.toNat 0 6 →
    s.tenant (bits w.data.toNat 0 6) = tenActive ∨ s.tenant (bits w.data.toNat 0 6) = tenSuspended →
    Answers (.softReset w) s fun t =>
      t.resp.code = .ok ∧ t.tenant (bits w.data.toNat 0 6) = tenResetting ∧ t.on TNC_T_BUSY = true ∧
      (⟨bits w.data.toNat 0 6, false, s.tenant (bits w.data.toNat 0 6), false, none⟩ : TenantReset) ∈ t.tnc.resets) ∧
  (∀ (s : State) (w : RegWrite), s.admitsWrite 0x002 0x050 w (putBits w.data.toNat 8 3 5) = true →
    s.on TNC_T_BUSY = false → 2 ≤ bits w.data.toNat 0 6 →
    s.tenant (bits w.data.toNat 0 6) = tenActive ∨ s.tenant (bits w.data.toNat 0 6) = tenSuspended →
    Answers (.fullReset w) s fun t =>
      t.resp.code = .ok ∧ t.tenant (bits w.data.toNat 0 6) = tenResetting ∧ t.on TNC_T_BUSY = true ∧
      (⟨bits w.data.toNat 0 6, true, s.tenant (bits w.data.toNat 0 6), false, none⟩ : TenantReset) ∈ t.tnc.resets) ∧
  (∀ (s : State) (tenant : Fin 64) (w : RegWrite),
    s.admitsWrite (0x300 + tenant.val) 0x044 w (setBit w.data.toNat 0) = true →
    (2 ≤ tenant.val → s.tenant tenant.val ≠ tenResetting →
      Answers (.tncCxSoftrst tenant w) s fun t =>
        t.resp.code = .ok ∧ t.tenant tenant.val = tenResetting ∧ t.on TNC_T_BUSY = true ∧
        (⟨tenant.val, false, s.tenant tenant.val, true, none⟩ : TenantReset) ∈ t.tnc.resets) ∧
    (2 ≤ tenant.val → s.tenant tenant.val = tenResetting →
      Answers (.tncCxSoftrst tenant w) s fun t =>
        t.resp.code = .skipped ∧ t.tenant tenant.val = tenResetting ∧ t.tnc = s.tnc) ∧
    (tenant.val < 2 →
      Answers (.tncCxSoftrst tenant w) s fun t =>
        t.resp.code = (if tenant.val = 1 ∧ s.on TNC_SEALED = true then .prot else .cfgInvalid) ∧ t.tnc = s.tnc)) ∧
  (∀ (s : State) (tenant : Fin 64) (r : TenantReset),
    s.tnc.resets.find? (·.tc == tenant.val) = some r → s.itemRuns tenant.val = false →
    (r.full = false → r.back < 4 →
      Answers (.tenantResetDone tenant) s fun t =>
        t.tenant tenant.val = r.back ∧ (∀ x ∈ t.tnc.resets, x.tc ≠ tenant.val) ∧
        t.on TNC_T_BUSY = (t.tnc.resets != [])) ∧
    (∀ c, r.full = true → r.code = some c → s.revokeRuns tenant.val = false →
      Answers (.tenantResetDone tenant) s fun t =>
        t.tenant tenant.val = tenOff ∧ (∀ x ∈ t.tnc.resets, x.tc ≠ tenant.val) ∧
        (r.own = false → t.rd TNC_T_CODE = codeOf c)) ∧
    (r.full = true → r.code = none →
      Answers (.tenantResetDone tenant) s fun t =>
        (∀ e ∈ t.tnc.aliases, e.1 / 256 ≠ tenant.val) ∧
        (t.tenant tenant.val = tenOff ∨ ∃ x ∈ t.tnc.resets, x.tc = tenant.val ∧ x.code ≠ none)))

/-- While no command is outstanding, GRANT of a page at its home owner to an ACTIVE tenant above TC01, the page not sealed,
sets OWN_TC and OWN_GEN, resets the page, releases its lock, and completes with OK and its log entry; REVOKE returns
a granted page to its home owner. A free empty key slot, a unit at home and an endpoint change hands the same way.
A failing check leaves its code in TNC_G_CODE and moves nothing. ALIAS_MAP of a slot above 0x05 maps it to an
assigned page, or unmaps it. -/
def Obligations.GrantsComplete : Prop :=
  (∀ (s : State) (w : RegWrite), s.admitsWrite 0x002 0x05C w (setBit w.data.toNat 12) = true →
    s.on TNC_G_BUSY = false →
    (bits w.data.toNat 8 4 = 1 → 2 ≤ bits w.data.toNat 0 6 → s.tenant (bits w.data.toNat 0 6) = tenActive →
      RegMap.grantable (s.rd TNC_G_IDX) = true → s.on (STS_SEALED (s.rd TNC_G_IDX)) = false →
      s.rd (OWN_TC (s.rd TNC_G_IDX)) = RegMap.homeOwner (s.rd TNC_G_IDX) →
      Answers (.grant w) s fun t =>
        t.resp.code = .ok ∧ t.rd TNC_G_CODE = codeOf .ok ∧ t.on TNC_G_BUSY = false ∧
        t.rd (OWN_TC (s.rd TNC_G_IDX)) = bits w.data.toNat 0 6 ∧
        t.rd (OWN_GEN (s.rd TNC_G_IDX)) = (s.rd (OWN_GEN (s.rd TNC_G_IDX)) + 1) % 256 ∧
        t.held (s.rd TNC_G_IDX) = false ∧
        ∃ e ∈ t.events, e.code = 0x4011 ∧ e.tc = bits w.data.toNat 0 6) ∧
    (bits w.data.toNat 8 4 = 2 → 1 ≤ bits w.data.toNat 0 6 → s.tenant (bits w.data.toNat 0 6) = tenActive →
      1 ≤ s.rd TNC_G_IDX → s.rd TNC_G_IDX < 32 → s.slotOwn (s.rd TNC_G_IDX) = 0 →
      s.slotType (s.rd TNC_G_IDX) = 0 →
      Answers (.grant w) s fun t =>
        t.resp.code = .ok ∧ t.rd TNC_G_CODE = codeOf .ok ∧ t.on TNC_G_BUSY = false ∧
        t.slotOwn (s.rd TNC_G_IDX) = bits w.data.toNat 0 6) ∧
    (bits w.data.toNat 8 4 = 3 → 1 ≤ bits w.data.toNat 0 6 → s.tenant (bits w.data.toNat 0 6) = tenActive →
      16 ≤ s.rd TNC_G_IDX → s.rd TNC_G_IDX < 64 → s.unitState (s.rd TNC_G_IDX) = unitHome →
      Answers (.grant w) s fun t =>
        t.resp.code = .ok ∧ t.rd TNC_G_CODE = codeOf .ok ∧ t.on TNC_G_BUSY = false ∧
        t.unitState (s.rd TNC_G_IDX) = unitGranted ∧ t.unitHolder (s.rd TNC_G_IDX) = bits w.data.toNat 0 6) ∧
    (bits w.data.toNat 8 4 = 4 → 2 ≤ bits w.data.toNat 0 6 → s.tenant (bits w.data.toNat 0 6) = tenActive →
      s.rd TNC_G_IDX < 128 → s.epOwner (s.rd TNC_G_IDX) = 0 →
      Answers (.grant w) s fun t =>
        t.resp.code = .ok ∧ t.on TNC_G_BUSY = false ∧
        t.epOwner (s.rd TNC_G_IDX) = bits w.data.toNat 0 6) ∧
    (s.moveCheck true (bits w.data.toNat 8 4) (s.rd TNC_G_IDX) (bits w.data.toNat 0 6) ≠ .ok →
      Answers (.grant w) s fun t =>
        t.resp.code = s.moveCheck true (bits w.data.toNat 8 4) (s.rd TNC_G_IDX) (bits w.data.toNat 0 6) ∧
        t.rd TNC_G_CODE = codeOf t.resp.code ∧ t.tnc = s.tnc ∧ t.sec = s.sec ∧ t.cel = s.cel ∧ t.plm = s.plm)) ∧
  (∀ (s : State) (w : RegWrite), s.admitsWrite 0x002 0x05C w (clearBit w.data.toNat 12) = true →
    s.on TNC_G_BUSY = false → 2 ≤ bits w.data.toNat 0 6 → s.tenant (bits w.data.toNat 0 6) = tenActive →
    (bits w.data.toNat 8 4 = 1 → RegMap.grantable (s.rd TNC_G_IDX) = true →
      s.rd (OWN_TC (s.rd TNC_G_IDX)) = bits w.data.toNat 0 6 →
      Answers (.revoke w) s fun t =>
        t.resp.code = .ok ∧ t.on TNC_G_BUSY = false ∧
        t.rd (OWN_TC (s.rd TNC_G_IDX)) = RegMap.homeOwner (s.rd TNC_G_IDX) ∧
        t.rd (OWN_GEN (s.rd TNC_G_IDX)) = (s.rd (OWN_GEN (s.rd TNC_G_IDX)) + 1) % 256 ∧
        ∃ e ∈ t.events, e.code = 0x4012 ∧ e.tc = bits w.data.toNat 0 6) ∧
    (bits w.data.toNat 8 4 = 2 → 1 ≤ s.rd TNC_G_IDX → s.rd TNC_G_IDX < 32 →
      s.slotOwn (s.rd TNC_G_IDX) = bits w.data.toNat 0 6 →
      Answers (.revoke w) s fun t =>
        t.resp.code = .ok ∧ t.slotOwn (s.rd TNC_G_IDX) = 0 ∧ t.slotType (s.rd TNC_G_IDX) = 0) ∧
    (bits w.data.toNat 8 4 = 4 → s.rd TNC_G_IDX < 128 → s.epOwner (s.rd TNC_G_IDX) = bits w.data.toNat 0 6 →
      Answers (.revoke w) s fun t =>
        t.resp.code = .ok ∧ t.on TNC_G_BUSY = false ∧ t.epOwner (s.rd TNC_G_IDX) = 0)) ∧
  (∀ (s : State) (w : RegWrite), s.admitsWrite 0x004 0x044 w w.data.toNat = true →
    6 ≤ s.rd TNC_AM_SLOT → RegMap.assigned (bits w.data.toNat 0 10) = true →
    Answers (.aliasMap w) s fun t =>
      t.resp.code = .ok ∧ t.rd TNC_AM_CODE = codeOf .ok ∧
      t.slotPage (s.rd TNC_AM_TC) (s.rd TNC_AM_SLOT) =
        (if bit w.data.toNat 31 then some (bits w.data.toNat 0 10) else none) ∧
      (∀ u k : Nat, u < 64 → k < 256 → ¬(u = s.rd TNC_AM_TC ∧ k = s.rd TNC_AM_SLOT) →
        t.slotPage u k = s.slotPage u k))

/-- A performed TNC_SEAL_REQ of an unsealed TC01, none of whose pages is in a mismatch run, with the supply good, writes
the sealed copy and leaves the sealing outstanding with TNC_S_BUSY at 1; while sealed it answers PROTECTED. SEAL_COMPLETE writes the
marker, logs the digest, sets TNC_SEALED and the first billed cycle, the next one. TNC_UNSEAL_ARM arms;
TNC_UNSEAL_REQ within 65,536 ct of it unseals, logs both entries and uses the arming up, and without a valid
arming answers TIMEOUT and leaves the seal. ARM_WINDOW_EXPIRY drops an arming that has lapsed and keeps a valid one. -/
def Obligations.SealComplete : Prop :=
  (∀ (s : State) (w : RegWrite), s.admitsWrite 0x002 0x070 w (setBit w.data.toNat 0) = true →
    bits w.data.toNat 1 2 = 0 →
    (s.on TNC_SEALED = false → s.on TNC_S_BUSY = false →
      (∀ p ∈ s.tc01Pages, s.on (STS_INTEGERR p) = false) → s.celBlocked = false →
      Answers (.tncSealReq none w) s fun t =>
        t.resp.code = .ok ∧ t.on TNC_S_BUSY = true ∧ t.tnc.sealing = some (copyDigest s.sealedGroups) ∧
        (∀ p ∈ s.tc01Pages, t.held p = true ∧ t.on (STS_SEALED p) = true ∧ t.on (LOCK_SEAL p) = true)) ∧
    (s.on TNC_SEALED = true →
      Answers (.tncSealReq none w) s fun t => t.resp.code = .prot ∧ t.tnc = s.tnc ∧ t.cel = s.cel)) ∧
  (∀ (s : State) (d : Nat), s.tnc.sealing = some d → s.celBlocked = false →
    Answers .sealComplete s fun t =>
      t.on TNC_SEALED = true ∧ t.on TNC_S_BUSY = false ∧ t.rd TNC_S_CODE = codeOf .ok ∧ t.tnc.sealing = none ∧
      t.rd64 TNC_SC_LO TNC_SC_HI = (s.stamp.cyc + 1) % 2 ^ 48 ∧
      (∀ k : Fin 64, t.on (TNC_CX_SEALED k.val) = true) ∧
      t.celRaw sealMarker = celWord sealMarker d ∧
      (⟨0x4021, 1, leBytes 8 d⟩ : LogEvent) ∈ t.events) ∧
  (∀ (s : State) (w : RegWrite), s.admitsWrite 0x002 0x070 w (setBit w.data.toNat 1) = true →
    bit w.data.toNat 0 = false → bit w.data.toNat 2 = false →
    Answers (.tncUnsealArm w) s fun t =>
      t.resp.code = .ok ∧ t.tnc.armed = some s.ticks ∧ SameBut [.tnc, .resp] s t) ∧
  (∀ (s : State) (w : RegWrite) (a : Nat), s.admitsWrite 0x002 0x070 w (setBit w.data.toNat 2) = true →
    bits w.data.toNat 0 2 = 0 → s.tnc.armed = some a →
    (s.ticks ≤ a + 65536 → s.on TNC_SEALED = true →
      Answers (.tncUnsealReq w) s fun t =>
        t.resp.code = .ok ∧ t.tnc.armed = none ∧ t.on TNC_SEALED = false ∧
        (∀ k : Fin 64, t.on (TNC_CX_SEALED k.val) = false) ∧
        (∀ p ∈ s.tc01Pages, t.on (STS_SEALED p) = false) ∧
        (∃ e ∈ t.events, e.code = 0x4022) ∧ ∃ e ∈ t.events, e.code = 0x500C) ∧
    (a + 65536 < s.ticks →
      Answers (.tncUnsealReq w) s fun t =>
        t.resp.code = .timeout ∧ t.on TNC_SEALED = s.on TNC_SEALED ∧ t.tnc.armed = none)) ∧
  (∀ (s : State) (a : Nat), s.tnc.armed = some a →
    Answers .armWindowExpiry s fun t =>
      t.tnc.armed = (if s.ticks ≤ a + 65536 then some a else none) ∧ SameBut [.tnc, .cel, .sec, .pmu, .hif] s t)

/-- REFILL_PERIOD of a resource whose period in force is an earlier one gives every tenant its quota of page 0x003 less its
debt, shows it on the context page and begins the turns afresh; in the same period it changes nothing.
ITEM_LATEST_TIME on SEC and CEL completes every item of a tenant whose latest time (4 and 2 cycles after its submission,
Table 4-4) has passed and keeps the others. -/
def Obligations.QuotaPeriodsComplete : Prop :=
  (∀ (s : State) (r : Fin 4), r.val ≠ 0 → s.periodOf (r.val + 1) ≠ s.stamp.cyc - s.stamp.cyc % 64 + 1 →
    Answers (.refillPeriod r) s fun t =>
      t.periodOf (r.val + 1) = s.stamp.cyc - s.stamp.cyc % 64 + 1 ∧
      (∀ k : Fin 64, t.quotaLeft (r.val + 1) k.val = s.quotaSet (r.val + 1) k.val -
        min (s.quotaSet (r.val + 1) k.val) (cellAt 0 (64 * (r.val + 1) + k.val) s.tnc.debt)) ∧
      SameBut [.regs, .tnc] s t) ∧
  (∀ (s : State), s.periodOf 1 ≠ s.windowFirst + 1 →
    Answers (.refillPeriod 0) s fun t =>
      t.periodOf 1 = s.windowFirst + 1 ∧
      (∀ k : Fin 64, t.quotaLeft 1 k.val =
        s.quotaSet 1 k.val - min (s.quotaSet 1 k.val) (cellAt 0 (64 + k.val) s.tnc.debt)) ∧
      SameBut [.regs, .tnc] s t) ∧
  (∀ (s : State) (r : Fin 4), r.val ≠ 0 → s.periodOf (r.val + 1) = s.stamp.cyc - s.stamp.cyc % 64 + 1 →
    Answers (.refillPeriod r) s fun t => t = s) ∧
  (∀ (s : State), Answers (.itemLatestTime 2 none) s fun t =>
    t.sec.items = s.sec.items.filter fun x => !s.itemPast 4 x) ∧
  (∀ (s : State), Answers (.itemLatestTime 3 none) s fun t =>
    t.cel.items = s.cel.items.filter fun x => !s.itemPast 2 x)

/-! ## Analogue inputs and conversion (chapter 5) -/

/-- With no step in progress and ACS_CAL_NCYC not zero, ACS_CAL_ZERO and ACS_CAL_FULL start their step on the selected
converter, with ACS_CAL_BUSY at 1; with ACS_CAL_NCYC at zero the code is ZERO_LEN; while a step runs the answer is
REFUSED_PRIORITY and the step goes on. ACS_CAL_ABORT marks the step in progress. A zero step of an unpaired channel that has
gathered its cycles writes the rounded mean and its negative as ACS_OFS, with OK, or CFG_INVALID and no offset where the mean
exceeds 524,288. A full-scale step writes the computed gain where R149 accepts it. CAL_TIMEOUT ends a full-scale
step that is late, with no coefficient changed. -/
def Obligations.AcsCalibrationComplete : Prop :=
  (∀ (s : State) (w : RegWrite), s.admitsWrite 0x029 0x048 w (setBit w.data.toNat 0) = true →
    bits w.data.toNat 1 2 = 0 →
    (s.acs.cal = none → s.rd ACS_CAL_NCYC ≠ 0 →
      Answers (.acsCalZero w) s fun t =>
        t.resp.code = .ok ∧ t.on ACS_CAL_BUSY = true ∧
        t.acs.cal = some { full := false, conv := s.rd ACS_CAL_CONV, ncyc := s.rd ACS_CAL_NCYC }) ∧
    (s.acs.cal = none → s.rd ACS_CAL_NCYC = 0 →
      Answers (.acsCalZero w) s fun t =>
        t.resp.code = .ok ∧ t.rd ACS_CAL_CODE = codeOf .zeroLen ∧ t.acs = s.acs) ∧
    (∀ k, s.acs.cal = some k →
      Answers (.acsCalZero w) s fun t => t.resp.code = .refusedPriority ∧ t.acs = s.acs)) ∧
  (∀ (s : State) (w : RegWrite), s.admitsWrite 0x029 0x048 w (setBit w.data.toNat 1) = true →
    bit w.data.toNat 0 = false → bit w.data.toNat 2 = false →
    (s.acs.cal = none → s.rd ACS_CAL_NCYC ≠ 0 →
      Answers (.acsCalFull w) s fun t =>
        t.resp.code = .ok ∧ t.on ACS_CAL_BUSY = true ∧
        t.acs.cal = some { full := true, conv := s.rd ACS_CAL_CONV, ncyc := s.rd ACS_CAL_NCYC }) ∧
    (∀ k, s.acs.cal = some k →
      Answers (.acsCalFull w) s fun t => t.resp.code = .refusedPriority ∧ t.acs = s.acs)) ∧
  (∀ (s : State) (w : RegWrite) (k : CalStep), s.admitsWrite 0x029 0x048 w (setBit w.data.toNat 2) = true →
    bits w.data.toNat 0 2 = 0 → s.acs.cal = some k →
    Answers (.acsCalAbort w) s fun t =>
      t.resp.code = .ok ∧ t.acs.cal = some { k with abort := true } ∧ SameBut [.acs, .resp] s t) ∧
  (∀ (s : State) (k : CalStep), s.acs.cal = some k → k.full = false → k.ncyc ≤ k.got → k.abort = false →
    k.conv < 72 → pairedBy s.pairing k.conv = none → k.a.n ≠ 0 →
    ((divRound k.a.sum k.a.n).natAbs ≤ 524288 →
      Answers .calZeroDone s fun t =>
        t.acs.cal = none ∧ t.on ACS_CAL_BUSY = false ∧ t.rd ACS_CAL_CODE = codeOf .ok ∧
        t.rd (ACS_OFS (bankOf k.conv) (posOf k.conv)) = unsigned 24 (-(divRound k.a.sum k.a.n)) ∧
        t.rd ACS_CAL_MEAN = unsigned 24 (divRound k.a.sum k.a.n)) ∧
    (524288 < (divRound k.a.sum k.a.n).natAbs →
      Answers .calZeroDone s fun t =>
        t.acs.cal = none ∧ t.on ACS_CAL_BUSY = false ∧ t.rd ACS_CAL_CODE = codeOf .cfgInvalid ∧
        ∀ b p : Nat, b < 9 → p < 10 → t.rd (ACS_OFS b p) = s.rd (ACS_OFS b p))) ∧
  (∀ (s : State) (k : CalStep) (g : Nat), s.acs.cal = some k → k.full = true → k.ncyc ≤ k.got → k.abort = false →
    k.conv < 72 → pairedBy s.pairing k.conv = none → k.clip = false → s.rd ACS_CAL_TGT ≤ 7340032 → k.a.sq ≠ 0 →
    g = calGain k.a (s.rd ACS_CAL_TGT) (invH (s.on (ACS_INT_EN (bankOf k.conv) (posOf k.conv))) 1024
      (10 + s.rd (ACS_ILEAK (bankOf k.conv) (posOf k.conv))) (s.rd CTF_PERIOD)) → gainOk g = true →
    Answers .calFullDone s fun t =>
      t.acs.cal = none ∧ t.rd ACS_CAL_CODE = codeOf .ok ∧
      t.rd (ACS_GAIN (bankOf k.conv) (posOf k.conv)) = g ∧
      ((s.conv k.conv).zeroOk = true → t.on (ACS_CALOK (bankOf k.conv) (posOf k.conv)) = true)) ∧
  (∀ (s : State) (k : CalStep), s.acs.cal = some k → k.full = true → k.got < k.ncyc →
    k.ncyc + 64 ≤ k.elapsed →
    Answers .calTimeout s fun t =>
      t.acs.cal = none ∧ t.on ACS_CAL_BUSY = false ∧ t.rd ACS_CAL_CODE = codeOf .timeout ∧
      (∀ b p : Nat, b < 9 → p < 10 →
        t.rd (ACS_OFS b p) = s.rd (ACS_OFS b p) ∧ t.rd (ACS_GAIN b p) = s.rd (ACS_GAIN b p)))

/-- A conversion of a running bank by an enabled, unpaired current converter without an integrator, at least 62 ct after the last and with no
bit flipped, adds its sample to the sums of the converter, gives metrology the calibrated sample at its place, and logs nothing; a bank
whose domain is gated delivers nothing. While ACS_CONT_EN is 1 and ACS_CONT_PER cycles have passed, CONT_TEST_START tests the next
masked channel that can be tested, and CONT_TEST_RESULT of a closed test writes its resistance with OK. -/
def Obligations.SamplesComplete : Prop :=
  (∀ (s : State) (w : SampleIn), s.pageRuns (0x020 + bankOf w.conv.val) = false →
    Answers (.sampleWord w) s fun t => t = s) ∧
  (∀ (s : State) (w : SampleIn), w.conv.val < 64 → s.pageRuns (0x020 + bankOf w.conv.val) = true →
    s.on (ACS_EN (bankOf w.conv.val) (posOf w.conv.val)) = true → partnerOf s.pairing w.conv.val = none →
    (∀ l, (s.conv w.conv.val).last = some l → l + 62 ≤ s.ticks) →
    s.on (ACS_INT_EN (bankOf w.conv.val) (posOf w.conv.val)) = false →
    w.errCtf = 0 → w.errMte = 0 → w.errPqe = 0 →
    Answers (.sampleWord w) s fun t =>
      (t.conv w.conv.val).raw = (s.conv w.conv.val).raw.add w.raw.toInt
        (w.raw.toInt + signed 24 (s.rd (ACS_OFS (bankOf w.conv.val) (posOf w.conv.val)))) ∧
      (∃ x ∈ cellAt [] w.conv.val t.mte.cur, x.idx = 2 * w.pos.val ∧ x.ok = true ∧ x.ovr = w.clip ∧
        x.val = sat24 (correct w.raw.toInt (signed 24 (s.rd (ACS_OFS (bankOf w.conv.val) (posOf w.conv.val))))
          (s.rd (ACS_GAIN (bankOf w.conv.val) (posOf w.conv.val))))) ∧
      t.ctf.ph = max s.ctf.ph (64 * w.pos.val) ∧ t.events = s.events) ∧
  (∀ (s : State) (ch : Nat), s.on ACS_CONT_EN = true → s.rd ACS_CONT_PER ≤ s.acs.contCyc →
    s.acs.testing = none → s.pageRuns 0x020 = true →
    ((((List.range 64).map fun k => (s.acs.contNext + 1 + k) % 64).filter s.contMasked).find?
      s.contTestable) = some ch →
    Answers .contTestStart s fun t =>
      t.acs.testing = some ch ∧ t.acs.contNext = ch ∧ t.acs.contCyc = 0 ∧ SameBut [.regs, .acs] s t) ∧
  (∀ (s : State) (ch : Nat), ch < 64 → s.acs.testing = some ch → s.acs.testDone = true →
    (s.conv ch).cal1.n ≠ 0 → (s.conv ch).cal2.n ≠ 0 →
    Answers .contTestResult s fun t =>
      t.acs.testing = none ∧ t.rd (ACS_CONT_CODE (bankOf ch) (posOf ch)) = codeOf .ok ∧
      t.rd (ACS_CONT_R (bankOf ch) (posOf ch)) = satNat 16 (divRound
        (((s.conv ch).cal1.sum * (s.conv ch).cal2.n - (s.conv ch).cal2.sum * (s.conv ch).cal1.n) * 96334)
        ((s.conv ch).cal1.n * (s.conv ch).cal2.n * 1000000 * s.pgaGain ch)).toNat)

/-! ## Metrology, accumulators and pulses (chapters 6 and 7) -/

/-- METROLOGY_CLOSE takes up the ended cycle once: afterwards no cycle is due, and repeated it changes nothing. A cycle
whose opening boundary did not find TC01 sealed changes no accumulator, tariff or sum check of any channel or meter, and is
counted unbilled once TC01 has ever been sealed. A measured sealed cycle whose adding nothing withholds leaves its number in ACC_LAST
and in ACC_CYC of every channel. -/
def Obligations.MetrologyCloseComplete : Prop :=
  (∀ s : State, s.mte.due = none → Answers (.metrologyClose []) s fun t => t = s) ∧
  (∀ (s : State) (e : CycleEnd) (ups : List AccUpset), s.mte.due = some e →
    Answers (.metrologyClose ups) s fun t => t.mte.due = none ∧ t.acc.closed = true ∧ t.acc.cleared = []) ∧
  (∀ (s : State) (e : CycleEnd) (ups : List AccUpset), s.mte.due = some e → e.opening.sealed = false →
    Answers (.metrologyClose ups) s fun t =>
      (∀ i w : Nat, i < 64 → w < 10 → t.accWord false i w = s.accWord false i w) ∧
      (∀ i w : Nat, i < 256 → w < 10 → t.accWord true i w = s.accWord true i w) ∧
      t.rd TNC_UNBILLED = if s.tnc.everSealed then satNat (TNC_UNBILLED).width (s.rd TNC_UNBILLED + 1)
        else s.rd TNC_UNBILLED) ∧
  (∀ (s : State) (e : CycleEnd), s.mte.due = some e → e.opening.sealed = true → e.measured = true →
    s.acc.frozen = false →
    Answers (.metrologyClose []) s fun t =>
      t.rd ACC_LAST = e.cyc % 2 ^ 32 ∧
      (∀ ch : Fin 64, t.rd (ACC_CYC (ch.val / 8) (ch.val % 8)) = e.cyc % 2 ^ 32))

/-- Adding e units of 1/65,536 to a quantity of a channel raises accumulator and residue together by exactly e, modulo the
width of the pair, leaves every other quantity of the channel, and a block whose sum check agreed with its words
still agrees (R177, R180). -/
def Obligations.AccumulatorConservesEnergy : Prop :=
  ∀ (s : State) (ch q e : Nat), ch < 64 → q < 8 →
    (((s.accAdd ch q e).accWord false ch q * 65536 + (s.accAdd ch q e).rd (resFld ch q)) % 2 ^ 80 =
      (s.accWord false ch q * 65536 + s.rd (resFld ch q) + e) % 2 ^ 80) ∧
    (∀ r : Nat, r < 8 → r ≠ q →
      (s.accAdd ch q e).accWord false ch r = s.accWord false ch r ∧
      (s.accAdd ch q e).rd (resFld ch r) = s.rd (resFld ch r)) ∧
    (s.blockSum false ch = s.accWord false ch 8 →
      (s.accAdd ch q e).blockSum false ch = (s.accAdd ch q e).accWord false ch 8)

/-- A performed read of the cycle register of a block, of metrology or of the accumulators, answers it and latches every word of
the block as it stands, so that later reads of the block return one cycle. Nothing but the latch and the answer changes. -/
def Obligations.BlockReadsComplete : Prop :=
  (∀ (s : State) (ch : Fin 72) (r : RegRead), ch.val < 64 →
    s.admitsRead (0x031 + ch.val / 8) (0x140 + ch.val % 8 * 128) r = true →
    Answers (.mteRdCycRead ch r) s fun t =>
      t.resp.code = .ok ∧ t.resp.data = [s.reg (0x031 + ch.val / 8) (0x140 + ch.val % 8 * 128)] ∧
      (∀ i : Fin 7, cellAt 0#32 (regKey (0x031 + ch.val / 8) (0x140 + ch.val % 8 * 128 + 4 * i.val)) t.latch =
        BitVec.ofNat 32 (s.reg (0x031 + ch.val / 8) (0x140 + ch.val % 8 * 128 + 4 * i.val))) ∧
      SameBut [.latch, .latched, .resp] s t) ∧
  (∀ (s : State) (ch : Fin 72) (r : RegRead), 64 ≤ ch.val →
    s.admitsRead 0x039 (0x120 + (ch.val - 64) * 64) r = true →
    Answers (.mteRdCycRead ch r) s fun t =>
      t.resp.code = .ok ∧ t.resp.data = [s.reg 0x039 (0x120 + (ch.val - 64) * 64)] ∧
      (∀ i : Fin 4, cellAt 0#32 (regKey 0x039 (0x120 + (ch.val - 64) * 64 + 4 * i.val)) t.latch =
        BitVec.ofNat 32 (s.reg 0x039 (0x120 + (ch.val - 64) * 64 + 4 * i.val))) ∧
      SameBut [.latch, .latched, .resp] s t) ∧
  (∀ (s : State) (i : Fin 256) (r : RegRead), i.val < 64 →
    s.admitsRead (0x040 + i.val / 8) (0x148 + i.val % 8 * 128) r = true →
    Answers (.accCycRead false i r) s fun t =>
      t.resp.code = .ok ∧ t.resp.data = [s.reg (0x040 + i.val / 8) (0x148 + i.val % 8 * 128)] ∧
      (∀ k : Fin 32, cellAt 0#32 (regKey (0x040 + i.val / 8) (0x100 + i.val % 8 * 128 + 4 * k.val)) t.latch =
        BitVec.ofNat 32 (s.reg (0x040 + i.val / 8) (0x100 + i.val % 8 * 128 + 4 * k.val))) ∧
      SameBut [.latch, .latched, .resp] s t) ∧
  (∀ (s : State) (i : Fin 256) (r : RegRead),
    s.admitsRead (0x140 + i.val / 4) (0x190 + i.val % 4 * 256) r = true →
    Answers (.accCycRead true i r) s fun t =>
      t.resp.code = .ok ∧ t.resp.data = [s.reg (0x140 + i.val / 4) (0x190 + i.val % 4 * 256)] ∧
      (∀ k : Fin 22, cellAt 0#32 (regKey (0x140 + i.val / 4) (0x140 + i.val % 4 * 256 + 4 * k.val)) t.latch =
        BitVec.ofNat 32 (s.reg (0x140 + i.val / 4) (0x140 + i.val % 4 * 256 + 4 * k.val))) ∧
      SameBut [.latch, .latched, .resp] s t)

/-- A performed ACC_VCLR with a legal tariff source leaves the clear pending for the boundary, with OK in the page's configuration status.
SPILL_INCREMENT adds to every spill its increment of the last close, once. PULSE_START of an output with a
pending pulse, none in progress and its domain running takes PLS_CONST from the spill, counts the pulse and drives it; PULSE_END
returns the pin to its inactive level. PIN_READBACK of an output with an edge to check leaves everything but the check where the level agrees
and no run is open, counts a level that differs with the start of a run logged, and logs the end of a run with its length. -/
def Obligations.PulsesComplete : Prop :=
  (∀ (s : State) (m : Fin 256) (w : RegWrite),
    s.admitsWrite (0x140 + m.val / 4) (0x198 + m.val % 4 * 256) w (setBit w.data.toNat 8) = true →
    bits w.data.toNat 0 3 ≤ 4 →
    Answers (.accVclr m w) s fun t =>
      t.resp.code = .ok ∧ t.on (ACC_VCLR (m.val / 4) (m.val % 4)) = true ∧
      t.rd (ACC_V_CCODE (m.val / 4)) = codeOf .ok ∧ t.events = s.events) ∧
  (∀ (s : State) (len : Nat), s.acc.spillDue = some len →
    Answers .spillIncrement s fun t =>
      t.acc.spillDue = none ∧ (∀ k : Fin 16, t.spill k.val = (s.spill k.val + s.spillGain k.val) % 2 ^ 64)) ∧
  (∀ (s : State) (k : Fin 16), s.plsConst k.val ≠ 0 → s.plsPending k.val ≠ 0 → s.on (PLS_ACT k.val) = false →
    s.pageRuns (0x060 + k.val) = true →
    Answers (.pulseStart k) s fun t =>
      t.on (PLS_ACT k.val) = true ∧ t.spill k.val + s.plsConst k.val = s.spill k.val ∧
      t.rd (PLS_PCOUNT k.val) = (s.rd (PLS_PCOUNT k.val) + 1) % 2 ^ 32 ∧ k.val ∈ t.acc.edges ∧
      bit (t.rd (IRQ_RAW (0x060 + k.val))) 0 = true ∧ SameBut [.regs, .acc] s t) ∧
  (∀ (s : State) (k : Fin 16), s.on (PLS_ACT k.val) = true →
    Answers (.pulseEnd k) s fun t =>
      t.on (PLS_ACT k.val) = false ∧ t.spill k.val = s.spill k.val ∧ k.val ∈ t.acc.edges ∧
      SameBut [.regs, .acc] s t) ∧
  (∀ (s : State) (k : Fin 16) (level : Bool), k.val ∈ s.acc.edges →
    (level = (s.on (PLS_ACT k.val) != s.on (PLS_POL k.val)) → cellAt 0 k.val s.acc.rbRun = 0 →
      Answers (.pinReadback k level) s fun t =>
        t.acc.edges = s.acc.edges.erase k.val ∧ SameBut [.acc] s t) ∧
    (level ≠ (s.on (PLS_ACT k.val) != s.on (PLS_POL k.val)) →
      Answers (.pinReadback k level) s fun t =>
        t.rd (PLS_RBERRN k.val) = satNat 16 (s.rd (PLS_RBERRN k.val) + 1) ∧
        bit (t.rd (IRQ_RAW (0x060 + k.val))) 2 = true ∧
        cellAt 0 k.val t.acc.rbRun = cellAt 0 k.val s.acc.rbRun + 1 ∧
        (cellAt 0 k.val s.acc.rbRun = 0 → Logged s t 0x3023 1 k.val)) ∧
    (level = (s.on (PLS_ACT k.val) != s.on (PLS_POL k.val)) → cellAt 0 k.val s.acc.rbRun ≠ 0 →
      Answers (.pinReadback k level) s fun t =>
        cellAt 0 k.val t.acc.rbRun = 0 ∧
        Logged s t 0x3024 1 (k.val + cellAt 0 k.val s.acc.rbRun * 2 ^ 32)))

/-! ## Power quality (chapter 8) -/

/-- While the PQE runs, PQE_WINDOW takes the window that is due and makes the next one due: after the window at the boundary
the one at half the cycle, after that none; a normal phase of a declared bus whose window lies below the loss threshold
becomes LOW. VSENSE_CLASSIFY of the one open event, low for PQE_CLS_CYC cycles, sets the verdict of Table 8-2. PQE_BLOCK_END
latches the ended block for all 72 channels, SKIPPED where no cycle was usable. A performed read of PQE_HCYC
answers the block's cycle and latches the harmonic window of the selected channel. -/
def Obligations.PowerQualityComplete : Prop :=
  (∀ s : State, s.pqe.due = 1 → s.pqeRuns = true →
    Answers .pqeWindow s fun t =>
      t.pqe.due = 2 ∧
      ∀ (c : Nat) (v : List Int), c ∈ busPhases s.inForce 1 ++ busPhases s.inForce 2 →
        usableValues (s.windowOf false (chanOfCode c)) = some v → squares v ≠ (0, 0) →
        s.verdict c = vsNormal → rmsBelow (squares v) (s.cfg PQE_LOSS_TH) (s.udin (busOf c)) = true →
        t.verdict c = vsLow) ∧
  (∀ s : State, s.pqe.due = 2 → s.pqeRuns = true →
    Answers .pqeWindow s fun t => t.pqe.due = 0 ∧ 32768 ≤ t.ctf.ph) ∧
  (∀ (s : State) (c : Nat) (v : VSense), s.pqeRuns = true → 1 ≤ c → c ≤ 6 → s.pqe.vs = [(c, v)] →
    s.verdict c = vsLow → 2 * s.cfg PQE_CLS_CYC ≤ v.half → v.seen = false →
    Answers .vsenseClassify s fun t => t.verdict c = s.classify c v) ∧
  (∀ (s : State) (b : PqeBlock), s.pqe.ended = some b → s.pqeRuns = true →
    Answers .pqeBlockEnd s fun t =>
      t.pqe.ended = none ∧ bit (t.rd (IRQ_RAW 0x070)) 0 = true ∧
      ∀ ch : Fin 72, (cellAt {} ch.val t.pqe.res).cyc = b.cyc ∧
        ((cellAt {} ch.val b.chans).used = 0 → (cellAt {} ch.val t.pqe.res).sts = codeOf .skipped)) ∧
  (∀ (s : State) (r : RegRead), s.admitsRead 0x070 0x06C r = true →
    Answers (.pqeHcycRead r) s fun t =>
      t.resp.code = .ok ∧ t.resp.data = [s.harmWord 0x06C] ∧
      (∀ o ∈ harmOffs, t.reg 0x070 o = s.harmWord o % 2 ^ 32) ∧ SameBut [.regs, .latched, .resp] s t)

/-! ## Inference: Tun array, router, list engine (chapters 9 to 11) -/

/-- With nothing late and no SIGNAL entry eligible, ENTRY_PULL on an ungated engine with no staged entry takes the oldest
eligible entry off the Sparge list; one that passes the checks starts, or is staged behind the running tile. TILE_COMPLETE of
a tile without an uncorrectable word writes its result to memory, a COPY its source bytes; with one it writes nothing and logs
the address. TILE_DEADLINE leaves no entry whose deadline has passed, and takes no other tile. A performed TUN_CK_RESCLR makes
the resident region invalid at once where no tile of the cluster runs, otherwise at the next tile boundary. -/
def Obligations.TilesComplete : Prop :=
  (∀ (s : State) (e : Fin 32) (x : SpEntry), s.pageRuns 0x080 = true → s.clusterGated (e.val / 4) = false →
    s.drains (e.val / 4) = false → (∀ y ∈ s.tun.staged, y.1 ≠ e.val) →
    (∀ y ∈ s.tun.sparge, deadlinePassed s.stamp.cyc (spDlc y.word.toNat) = false) →
    (∀ y ∈ s.tun.staged, deadlinePassed s.stamp.cyc (spDlc y.2.word.toNat) = false) →
    (∀ y ∈ s.tun.sparge, spOp y.word.toNat = 3 → ∀ k : Nat, k < 8 → s.eligible k y = false) →
    (s.tun.sparge.find? fun y => spOp y.word.toNat != 3 && s.eligible (e.val / 4) y) = some x →
    s.entryStop (e.val / 4) x.word.toNat (runsAlt4 x.word.toNat s.level) = none →
    Answers (.entryPull e) s fun t =>
      t.tun.sparge = s.tun.sparge.erase x ∧
      ((∀ y ∈ s.tun.run, y.1 ≠ e.val) →
        (e.val, ⟨x, s.level, decide (1 < s.rd TUN_THDIV)⟩) ∈ t.tun.run ∧ t.tun.staged = s.tun.staged) ∧
      ((∃ y ∈ s.tun.run, y.1 = e.val) → (e.val, x) ∈ t.tun.staged ∧ t.tun.run = s.tun.run)) ∧
  (∀ (s : State) (e : Fin 32) (ticks : BitVec 32) (n k : Nat) (x : RunTile),
    s.tun.run.find? (·.1 == e.val) = some (k, x) → s.clusterGated (e.val / 4) = false →
    Answers (.tileComplete e ticks n none) s fun t =>
      t.mem = (s.runEntry (e.val / 4) x.entry.word.toNat (runsAlt4 x.entry.word.toNat x.level)).1.mem ∧
      (spOp x.entry.word.toNat = 2 →
        t.mem = memStore s.mem (resolve (e.val / 4) (spC x.entry.word.toNat))
          (s.bytes (resolve (e.val / 4) (spA x.entry.word.toNat)) (64 * spClen x.entry.word.toNat))) ∧
      t.rd (TUN_CK_TILEN (e.val / 4)) = satNat (TUN_CK_TILEN (e.val / 4)).width
        (s.rd (TUN_CK_TILEN (e.val / 4)) + 1) ∧
      ((∀ y ∈ s.tun.staged, y.1 ≠ e.val) → ∀ y ∈ t.tun.run, y.1 ≠ e.val)) ∧
  (∀ (s : State) (e : Fin 32) (ticks : BitVec 32) (n k : Nat) (a : BitVec 40) (x : RunTile),
    s.tun.run.find? (·.1 == e.val) = some (k, x) → s.clusterGated (e.val / 4) = false →
    Answers (.tileComplete e ticks n (some a)) s fun t =>
      t.mem = s.mem ∧
      (⟨0x7001, spTc x.entry.word.toNat, leBytes 8 (e.val / 4 + a.toNat * 2 ^ 8)⟩ : LogEvent) ∈ t.events) ∧
  (∀ s : State, Answers .tileDeadline s fun t =>
    (∀ y ∈ t.tun.sparge, deadlinePassed s.stamp.cyc (spDlc y.word.toNat) = false) ∧
    (∀ y ∈ t.tun.staged, deadlinePassed s.stamp.cyc (spDlc y.2.word.toNat) = false) ∧
    (∀ y ∈ s.tun.sparge, deadlinePassed s.stamp.cyc (spDlc y.word.toNat) = false → spOp y.word.toNat ≠ 3 →
      y ∈ t.tun.sparge) ∧ t.tun.run = s.tun.run ∧ t.mem = s.mem) ∧
  (∀ (s : State) (k : Fin 8) (w : RegWrite),
    s.admitsWrite (0x081 + k.val) 0x05C w (setBit w.data.toNat 0) = true →
    Answers (.tunCkResclr k w) s fun t =>
      t.resp.code = .ok ∧ bit (t.rd TUN_RESV) k.val = (s.clusterBusy k.val && bit (s.rd TUN_RESV) k.val) ∧
      (s.clusterBusy k.val = true → k.val ∈ t.tun.resClr))

/-- A performed TUN_BST_ARM while none is armed, within TC00's quota and early enough, takes its cost and leaves the burst armed as
configured; one too late ends with TIMEOUT, and while one is armed the answer is REFUSED_PRIORITY. BURST_DRAIN
begins the drain. BURST_REP_START sends the rising edge at the stamp of the repetition; with a named cluster still busy it ends
the burst with TIMEOUT, in a quiet slot with PART. BURST_REP_END sends the falling edge; after the last repetition the burst completes
with OK, or HOLDOVER where the stamps were estimates. -/
def Obligations.BurstsComplete : Prop :=
  (∀ (s : State) (w : RegWrite), s.admitsWrite 0x080 0x074 w (setBit w.data.toNat 0) = true →
    (s.on TUN_BST_BUSY = true →
      Answers (.tunBstArm w) s fun t => t.resp.code = .refusedPriority ∧ t.tun = s.tun) ∧
    (s.on TUN_BST_BUSY = false →
      4 * (bitsSet (s.rd TUN_BST_CLM) 8).length * ceilDiv (s.rd TUN_BST_REP * s.rd TUN_BST_LEN) 1024 ≤
        s.quotaLeft 1 0 →
      stampNat s.stamp + s.rd TUN_BST_LEAD + 64 ≤ s.rd64 TUN_BST_AT_LO TUN_BST_AT_HI →
      Answers (.tunBstArm w) s fun t =>
        t.resp.code = .ok ∧ t.on TUN_BST_BUSY = true ∧
        t.quotaLeft 1 0 = s.quotaLeft 1 0 - 4 * (bitsSet (s.rd TUN_BST_CLM) 8).length *
          ceilDiv (s.rd TUN_BST_REP * s.rd TUN_BST_LEN) 1024 ∧
        ∃ b, t.tun.burst = some b ∧ b.clm = s.rd TUN_BST_CLM ∧ b.rep = s.rd TUN_BST_REP ∧
          b.len = s.rd TUN_BST_LEN ∧ b.gap = s.rd TUN_BST_GAP ∧
          b.start = s.rd64 TUN_BST_AT_LO TUN_BST_AT_HI ∧ b.phase = 0 ∧ b.done = 0) ∧
    (s.on TUN_BST_BUSY = false →
      4 * (bitsSet (s.rd TUN_BST_CLM) 8).length * ceilDiv (s.rd TUN_BST_REP * s.rd TUN_BST_LEN) 1024 ≤
        s.quotaLeft 1 0 →
      s.rd64 TUN_BST_AT_LO TUN_BST_AT_HI < stampNat s.stamp + s.rd TUN_BST_LEAD + 64 →
      Answers (.tunBstArm w) s fun t =>
        t.rd TUN_BST_CODE = codeOf .timeout ∧ t.on TUN_BST_BUSY = false ∧ t.tun.burst = none)) ∧
  (∀ (s : State) (b : Burst), s.tun.burst = some b → b.phase = 0 →
    Answers .burstDrain s fun t => t.tun.burst = some { b with phase := 1 } ∧ SameBut [.tun] s t) ∧
  (∀ (s : State) (b : Burst), s.tun.burst = some b → b.phase = 1 →
    ((b.done ≠ 0 ∨ ∀ k : Nat, k < 8 → bit b.clm k = false ∨ s.clusterBusy k = false) → s.quietGate = false →
      Answers .burstRepStart s fun t =>
        t.tun.edges = s.tun.edges ++ [(true, b.start + b.done * (b.len + b.gap))] ∧
        ∃ c, t.tun.burst = some c ∧ c.phase = 2 ∧ c.done = b.done + 1) ∧
    ((b.done ≠ 0 ∨ ∀ k : Nat, k < 8 → bit b.clm k = false ∨ s.clusterBusy k = false) → s.quietGate = true →
      Answers .burstRepStart s fun t =>
        t.tun.burst = none ∧ t.on TUN_BST_BUSY = false ∧ t.rd TUN_BST_CODE = codeOf .part) ∧
    (b.done = 0 → (∃ k : Nat, k < 8 ∧ bit b.clm k = true ∧ s.clusterBusy k = true) →
      Answers .burstRepStart s fun t =>
        t.tun.burst = none ∧ t.on TUN_BST_BUSY = false ∧ t.rd TUN_BST_CODE = codeOf .timeout)) ∧
  (∀ (s : State) (b : Burst), s.tun.burst = some b → b.phase = 2 →
    (b.rep ≤ b.done →
      Answers .burstRepEnd s fun t =>
        t.tun.burst = none ∧ t.on TUN_BST_BUSY = false ∧
        t.rd TUN_BST_CODE = codeOf (if b.held then .holdover else .ok) ∧
        t.tun.edges = s.tun.edges ++ [(false, b.rise b.done + b.len)]) ∧
    (b.done < b.rep →
      Answers .burstRepEnd s fun t =>
        (∃ c, t.tun.burst = some c ∧ c.phase = 1 ∧ c.ran = b.ran + b.len) ∧
        t.tun.edges = s.tun.edges ++ [(false, b.rise b.done + b.len)]))

/-- With no operation late, the router takes the oldest eligible operation where it is of the kind commanded; one that
passes the checks and whose counter is not poisoned leaves the queue and writes its summary: a ROUTE the counts of the Grist sort over the gated
tokens, with OK, or SKIPPED where a choice was skipped for capacity (HOLDOVER while stamps are estimates), and its
time in LTR_GNS; a COMBINE its code, mode, stamp and saturated elements. ROUTER_DEADLINE removes exactly the operations that are
late. A performed LTR_WCOMMIT of a table within its bounds makes the shadow bank active and flips LTR_WBANK; another is CFG_INVALID. -/
def Obligations.RouterComplete : Prop :=
  (∀ (s : State) (op : RouterOp) (ns : BitVec 32) (d : Nat) (g : Grist),
    (∀ o ∈ s.ltr.ops, deadlinePassed s.stamp.cyc o.dlc = false) →
    (s.ltr.ops.find? fun o => s.waitMet o.wcnt o.wval) = some op → op.combine = false →
    s.on LTR_EN = true → s.pageRuns 0x090 = true → d = s.memNat op.desc 64 →
    s.routerStop op d (s.experts d) false = none → s.waitPoisoned op.wcnt = false →
    g = grist (rdK d) (rdT d) ((s.experts d).map edCap) ((List.range (rdT d)).map fun t =>
      gateToken (rdK d) (rdDshift d) s.weight (s.intRowAt (rdLog d + t * rdLstr d) (rdNe d))) →
    Answers (.routeOp ns false none) s fun t =>
      t.ltr.ops = s.ltr.ops.erase op ∧ t.rd LTR_GNS = min ns.toNat 12000 ∧
      t.bytes (rdDtab d + 64 * 64) 64 = leBytes 64 (routeSummary d g
        (if g.skipped = 0 then s.okOr else firstOf .skipped s.okOr) (stampNat s.stamp) (min ns.toNat 12000))) ∧
  (∀ (s : State) (op : RouterOp) (d : Nat),
    (∀ o ∈ s.ltr.ops, deadlinePassed s.stamp.cyc o.dlc = false) →
    (s.ltr.ops.find? fun o => s.waitMet o.wcnt o.wval) = some op → op.combine = true →
    s.on LTR_EN = true → s.pageRuns 0x090 = true → d = s.memNat op.desc 64 →
    s.routerStop op d (s.experts d) false = none → s.waitPoisoned op.wcnt = false →
    Answers (.combineOp false none) s fun t =>
      t.ltr.ops = s.ltr.ops.erase op ∧
      t.bytes (rdDtab d + 64 * 65) 64 = leBytes 64 (withCrc64 (codeOf s.okOr * 2 ^ 96 + rdMode d * 2 ^ 104 +
        stampNat s.stamp * 2 ^ 128 + satNat 32 (((List.range (rdT d)).map fun t =>
          (t, s.combineRow d (s.experts d) t)).foldl (fun a r => a + r.2.2) 0) * 2 ^ 192))) ∧
  (∀ s : State, Answers .routerDeadline s fun t =>
    t.ltr.ops = s.ltr.ops.filter (fun o => !deadlinePassed s.stamp.cyc o.dlc) ∧ t.mem = s.mem) ∧
  (∀ (s : State) (w : RegWrite), s.admitsWrite 0x090 0x058 w (setBit w.data.toNat 0) = true →
    ((∀ i : Fin 256, 0x4000 ≤ s.rd (if i.val % 2 = 0 then LTR_W_EVEN (i.val / 2) else LTR_W_ODD (i.val / 2)) ∧
        s.rd (if i.val % 2 = 0 then LTR_W_EVEN (i.val / 2) else LTR_W_ODD (i.val / 2)) ≤ 0x8000) →
      (∀ i : Fin 255, s.rd (if i.val % 2 = 0 then LTR_W_EVEN (i.val / 2) else LTR_W_ODD (i.val / 2)) ≤
        s.rd (if i.val % 2 = 0 then LTR_W_ODD (i.val / 2) else LTR_W_EVEN (i.val / 2 + 1))) →
      Answers (.ltrWcommit w) s fun t =>
        t.resp.code = .ok ∧ t.rd LTR_WBANK = 1 - s.rd LTR_WBANK ∧ t.rd LTR_CCODE = codeOf .ok ∧
        ∀ i : Fin 256, t.weight i.val =
          s.rd (if i.val % 2 = 0 then LTR_W_EVEN (i.val / 2) else LTR_W_ODD (i.val / 2))) ∧
    ((∃ i : Fin 256, s.rd (if i.val % 2 = 0 then LTR_W_EVEN (i.val / 2) else LTR_W_ODD (i.val / 2)) < 0x4000) →
      Answers (.ltrWcommit w) s fun t =>
        t.resp.code = .cfgInvalid ∧ t.ltr = s.ltr ∧ t.rd LTR_WBANK = s.rd LTR_WBANK))

/-- WINDOW_BOUNDARY, where a window is due, opens the window that holds the present cycle with the configured length and its
quota period; where none is due it changes nothing. BARM_RING_POLL of an enabled ring outside its tenant's windows, or with more
new slots than it has, faults once with its log entry; of a ring with one new slot it reads that slot, and a list that passes the checks and
whose window has not begun waits in the pool. BARM_KICK is the poll of the tenant's ring. LIST_COMPLETE of the finished list writes
its record where the ring has room, counts it and drops it. BARM_RECORD_RELEASE writes held records until none is left or the
ring is full. -/
def Obligations.ListsComplete : Prop :=
  (∀ s : State, s.pageRuns 0x098 = true → s.windowDue = true → s.stamp.cyc < 2 ^ 48 →
    Answers .windowBoundary s fun t =>
      t.barm.opened = true ∧ t.barm.wlen = max 1 (s.rd BARM_WLEN) ∧ t.barm.wofs = s.rd BARM_WOFS ∧
      t.windowCyc = t.windowFirst ∧ t.windowDue = false ∧ t.periodOf 1 = t.windowCyc + 1) ∧
  (∀ s : State, s.windowDue = false → Answers .windowBoundary s fun t => t = s) ∧
  (∀ (s : State) (k : Fin 64), s.on BARM_EN = true → s.on (BARM_REN k.val) = true → s.pageRuns 0x098 = true →
    ((s.tenantMay k.val false (s.ringOf k.val).base (s.ringOf k.val).len = false ∨
        s.tenantMay k.val true (s.ringOf k.val).base (s.ringOf k.val).len = false ∨
        2 ^ (s.ringOf k.val).sl < (s.ringIdx (s.ringOf k.val).base + 65536 -
          s.ringIdx ((s.ringOf k.val).base + 0x04)) % 65536) → s.on (BARM_RFAULT k.val) = false →
      Answers (.barmRingPoll k) s fun t =>
        t.on (BARM_RFAULT k.val) = true ∧ Logged s t 0x5007 k.val 0 ∧ t.barm = s.barm ∧ t.mem = s.mem) ∧
    (s.tenantMay k.val false (s.ringOf k.val).base (s.ringOf k.val).len = true →
      s.tenantMay k.val true (s.ringOf k.val).base (s.ringOf k.val).len = true →
      (s.ringIdx ((s.ringOf k.val).base + 0x04) + 1) % 65536 = s.ringIdx (s.ringOf k.val).base →
      (s.barm.lists.filter (·.phase != 2)).length < 256 →
      Answers (.barmRingPoll k) s fun t =>
        t.ringIdx ((s.ringOf k.val).base + 0x04) = s.ringIdx (s.ringOf k.val).base ∧
        t.on (BARM_RFAULT k.val) = false ∧
        ∀ h es, s.checkList k.val (s.memNat ((s.ringOf k.val).base + 0x40 +
            8 * (s.ringIdx ((s.ringOf k.val).base + 0x04) % 2 ^ (s.ringOf k.val).sl)) 8) = .ok (h, es) →
          s.windowNext ≤ lhFence h →
          ∃ l ∈ t.barm.lists, l.id = s.barm.nextId ∧ l.tc = k.val ∧ l.cost = lhCost h ∧ l.fence = lhFence h ∧
            l.entries = es.map (BitVec.ofNat 512))) ∧
  (∀ (s : State) (k : Fin 64) (w : RegWrite), w.data = 0 →
    s.admitsWrite 0x098 (if k.val < 32 then 0x04C else 0x050) w (2 ^ (k.val % 32)) = true →
    Answers (.barmKick k w) s fun t =>
      t.resp.code = .ok ∧ ∃ u, exec (.barmRingPoll k) s = .next u ∧ SameBut [.resp] u t) ∧
  (∀ (s : State) (l : BarmList), s.finished = some l → (∀ h ∈ s.barm.held, h.tc ≠ l.tc) →
    s.ringRoom l.ring = true →
    Answers .listComplete s fun t =>
      (∀ x ∈ t.barm.lists, x.id ≠ l.id) ∧
      t.rd BARM_LISTN = satNat (BARM_LISTN).width (s.rd BARM_LISTN + 1) ∧
      t.ringIdx (l.ring.base + 0x08) = (s.ringIdx (l.ring.base + 0x08) + 1) % 65536 ∧
      t.bytes (l.ring.compBase + 64 * (s.ringIdx (l.ring.base + 0x08) % 2 ^ l.ring.cl)) 64 =
        leBytes 64 (s.completion l.status l.item l.entries.length l.firstBad.1 l.firstBad.2 l.ticks
          (quantaOf l.ticks) l.tiles l.sat l.skc l.started)) ∧
  (∀ (s : State) (k : Fin 64), (∃ h ∈ s.barm.held, h.tc = k.val) →
    Answers (.barmRecordRelease k) s fun t =>
      ((∀ h ∈ t.barm.held, h.tc ≠ k.val) ∧ t.on (BARM_RHOLD k.val) = false) ∨
      ∃ h, t.barm.held.find? (·.tc == k.val) = some h ∧ t.ringRoom h.ring = false)

/-- While the engine runs, with no generated tiles waiting, BARM_APPEND takes the next entry of the first started list in time: a tile
entry joins the Sparge list with its physical counters, an entry for the router its queue, an entry of the engine itself waits. EXPERT_EXPAND
of the first ready EXPERT entry that passes the checks issues its generated tiles. INSIGHT_DELIVER of
the first INSIGHT entry whose wait is met writes its record with the first bytes and the CRC of its region into the
completion ring, where it has room. -/
def Obligations.EntriesComplete : Prop :=
  (∀ (s : State) (l : BarmList), s.pageRuns 0x098 = true → s.barm.backlog = [] → s.appending = some l →
    s.listLate l = false →
    ((spOp (l.entry l.next) = 1 ∨ spOp (l.entry l.next) = 2) → s.tun.sparge.length < 1024 →
      Answers .barmAppend s fun t =>
        (⟨BitVec.ofNat 512 (l.image l.next), some (l.id, l.next)⟩ : SpEntry) ∈ t.tun.sparge) ∧
    ((spOp (l.entry l.next) = 4 ∨ spOp (l.entry l.next) = 5) →
      Answers .barmAppend s fun t =>
        t.ltr.ops = s.ltr.ops ++ [l.routerOp l.next] ∧ (t.listOf l.id).map (·.next) = some (l.next + 1) ∧
        SameBut [.barm, .ltr] s t) ∧
    (5 < spOp (l.entry l.next) →
      Answers .barmAppend s fun t =>
        (t.listOf l.id).map (fun x => (x.next, x.waits)) = some (l.next + 1, l.waits ++ [l.next]) ∧
        SameBut [.barm] s t)) ∧
  (∀ (s : State) (l : BarmList) (i d sum g : Nat) (gs dts sts : List Nat), s.pageRuns 0x098 = true →
    (∀ x ∈ s.waiting 6, s.listLate x.1 = false) →
    ((s.waiting 6).find? fun x => s.expertReady x.1 x.2) = some (l, i) →
    d = s.memNat (enAddr (l.entry (enRidx (l.entry i)))) 64 → sum = s.memNat (rdDtab d + 64 * 64) 64 →
    dts = (List.range (rdNe d)).map (fun e => s.memNat (rdDtab d + 64 * e) 64) →
    sts = (List.range (rdNe d)).map (fun e => s.memNat (enAddr (l.entry i) + 64 * e) 64) →
    spNb (l.entry i) ≠ 0 → spK (l.entry i) ≠ 0 → enNcol (l.entry i) ≠ 0 →
    l.routes.contains (enRidx (l.entry i)) = true → s.waitPoisoned (l.phys (spWcnt (l.entry i))) = false →
    crcOk64 d = true → crcOk64 sum = true → (∀ x ∈ dts, crcOk64 x = true) → (∀ x ∈ sts, crcOk64 x = true) →
    s.freeCounters true = g :: gs → (expertTiles l i g (bits sum 104 1) dts sts).length ≤ 8192 →
    Answers .expertExpand s fun t =>
      ∀ x ∈ expertTiles l i g (bits sum 104 1) dts sts, x ∈ t.tun.sparge ∨ x ∈ t.barm.backlog) ∧
  (∀ (s : State) (l : BarmList) (i : Nat), s.pageRuns 0x098 = true →
    (∀ x ∈ s.waiting 7, s.listLate x.1 = false) →
    ((s.waiting 7).find? fun x =>
      s.waitMet (x.1.phys (spWcnt (x.1.entry x.2))) (spWval (x.1.entry x.2))) = some (l, i) →
    enLen (l.entry i) ≠ 0 → s.tenantMay l.tc false (enAddr (l.entry i)) (enLen (l.entry i)) = true →
    s.waitPoisoned (l.phys (spWcnt (l.entry i))) = false → (∀ h ∈ s.barm.held, h.tc ≠ l.tc) →
    s.ringRoom l.ring = true →
    Answers .insightDeliver s fun t =>
      t.ringIdx (l.ring.base + 0x08) = (s.ringIdx (l.ring.base + 0x08) + 1) % 65536 ∧
      t.bytes (l.ring.compBase + 64 * (s.ringIdx (l.ring.base + 0x08) % 2 ^ l.ring.cl)) 64 =
        leBytes 64 (s.insightRecord l i
          (if s.estimated then .holdover else if l.deg then .degraded else .ok)
          (s.bytes (enAddr (l.entry i)) (enLen (l.entry i)))))

/-! ## The control complex (chapter 12) -/

/-- For a hart that runs: CCX_TCTX takes any tenant but TC01, which is refused with CFG_INVALID, counted and logged; the compare of
CCX_STAMP sets its interrupt exactly from the value written on. A machine-mode load and store of shared inference SRAM below the export
region reach the bytes; a supervisor access outside the windows of its tenant faults, is counted and logged and changes no memory. A store to
the register space that the map sends there is the register write of the tenant carried. A claim of the
interrupt controller answers the best pending source and serves it. CCX_KICK restarts the watchdog of its hart, HART_WATCHDOG resets its
hart and flags it, CCX_HRST resets its hart. The answer of a claim rests on log entry 33. -/
def Obligations.HartsComplete : Prop :=
  (∀ (s : State) (h : Fin 4) (tc : Fin 64) (v : Bool), bit (s.rd CCX_HUP) h.val = true →
    (tc.val ≠ 1 →
      Answers (.ccxTctx h tc v) s fun t =>
        t.rd (CCX_C_TC h.val) = tc.val ∧ t.on (CCX_C_TCV h.val) = v ∧ (t.hart h.val).tsts = codeOf .ok) ∧
    (tc.val = 1 →
      Answers (.ccxTctx h tc v) s fun t =>
        t.rd (CCX_C_TC h.val) = s.rd (CCX_C_TC h.val) ∧ t.on (CCX_C_TCV h.val) = s.on (CCX_C_TCV h.val) ∧
        (t.hart h.val).tsts = codeOf .cfgInvalid ∧ t.rd CCX_TCREFN = satNat 16 (s.rd CCX_TCREFN + 1) ∧
        Logged s t 0x5008 deviceTc h.val)) ∧
  (∀ (s : State) (h : Fin 4) (v : Option (BitVec 64)), bit (s.rd CCX_HUP) h.val = true →
    Answers (.stampCompare h v) s fun t =>
      (t.hart h.val).irq16 = decide ((v.getD (s.hart h.val).stcmp).toNat ≤ stampNat s.stamp) ∧
      (t.hart h.val).stcmp = v.getD (s.hart h.val).stcmp ∧ SameBut [.ccx] s t) ∧
  (∀ (s : State) (a : HartAccess), a.core.val < 4 → bit (s.rd CCX_HUP) a.core.val = true → a.pmp = true →
    a.machine = true → a.replay = false → s.level < 3 → 0 < a.size → a.addr.toNat + a.size ≤ 0x1000000 →
    (a.kind = .load →
      Answers (.hartMemoryAccess a) s fun t =>
        t.resp.code = .ok ∧ t.resp.data = byteNats (s.bytes a.addr.toNat a.size) ∧
        (t.hart a.core.val).fault = none ∧ SameBut [.ccx, .resp] s t) ∧
    (a.kind = .store → a.addr.toNat + a.size ≤ 0xFF0000 → a.data.length = a.size →
      Answers (.hartMemoryAccess a) s fun t =>
        t.resp.code = .ok ∧ t.mem = memStore s.mem a.addr.toNat a.data ∧
        (t.hart a.core.val).fault = none ∧ SameBut [.ccx, .resp, .mem] s t)) ∧
  (∀ (s : State) (a : HartAccess), a.core.val < 4 → bit (s.rd CCX_HUP) a.core.val = true → a.pmp = true →
    a.machine = false → a.replay = false → s.level < 3 → 0 < a.size → a.addr.toNat + a.size ≤ 0x1000000 →
    a.kind = .load ∨ a.kind = .store → s.windowPasses a (a.addr.toNat, a.size) = false →
    Answers (.hartMemoryAccess a) s fun t =>
      (t.hart a.core.val).fault = some (faultKind a.kind) ∧ t.mem = s.mem ∧
      t.rd CCX_MEMFLTN = satNat 16 (s.rd CCX_MEMFLTN + 1) ∧
      Logged s t 0x5006 (s.rd (CCX_C_TC a.core.val))
        (a.core.val + a.addr.toNat * 2 ^ 8 + b2n (a.kind == .store) * 2 ^ 48)) ∧
  (∀ (s : State) (a : HartAccess) (tc : Fin 64), a.core.val < 4 → bit (s.rd CCX_HUP) a.core.val = true →
    a.pmp = true → a.replay = false → a.flip = 0 → a.kind = .store → a.size = 4 → a.data.length = 4 →
    0x40000000 ≤ a.addr.toNat → a.addr.toNat + 4 ≤ 0x80000000 → s.coreTenant a = some tc →
    Answers (.hartMemoryAccess a) s fun t =>
      ∃ u, exec (.configWrite ⟨.hart a.core.val, tc, BitVec.ofNat 32 a.addr.toNat, 4, false, BitVec.ofNat 32 (leNat a.data),
          carryCode true tc.val (addressA a.addr.toNat false) (BitVec.ofNat 32 (leNat a.data))⟩) s = .next u ∧
        t.resp.code = u.resp.code ∧ SameBut [.ccx, .resp] u t) ∧
  (∀ (s : State) (c : Fin 8), Answers (.plicClaim c) s fun t =>
    t.resp.code = .ok ∧ t.resp.data = [s.plicBest c.val] ∧
    (s.plicBest c.val ≠ 0 → s.plicBest c.val ∈ t.ccx.served) ∧
    (s.plicBest c.val = 81 → t.on MGC_DB_TOCCX = false)) ∧
  (∀ (s : State) (h : Fin 4) (w : RegWrite), s.admitsWrite 0x0A0 0x04C w (setBit w.data.toNat h.val) = true →
    Answers (.ccxKick h w) s fun t =>
      t.resp.code = .ok ∧ (t.hart h.val).kicked = s.clk ∧ SameBut [.ccx, .resp] s t) ∧
  (∀ (s : State) (h : Fin 4), s.on CCX_WDT_EN = true → bit (s.rd CCX_HUP) h.val = true → s.rd CTF_PERIOD ≠ 0 →
    Answers (.hartWatchdog h) s fun t =>
      t.hart h.val = { kicked := t.clk } ∧ bit (t.rd CCX_HWDT) h.val = true ∧
      t.rd (CCX_C_TC h.val) = 0 ∧ t.on (CCX_C_TCV h.val) = false ∧
      (s.hart h.val).kicked + msTicks (s.rd CCX_WDT_MS) ≤ t.clk) ∧
  (∀ (s : State) (h : Fin 4) (w : RegWrite),
    s.admitsWrite 0x0A0 0x040 w (setBit w.data.toNat (8 + h.val)) = true →
    Answers (.ccxHrst h w) s fun t =>
      t.resp.code = .ok ∧ t.rd (CCX_C_TC h.val) = 0 ∧ t.on (CCX_C_TCV h.val) = false ∧
      (t.hart h.val = {} ∨ t.hart h.val = { kicked := s.clk }))

/-- A performed CCX_DDR_INIT begins training, DDR_INIT_DONE makes the LPDDR4X ready at seven eighths of its density,
DDR_TRAIN_TIMEOUT leaves it unready with TIMEOUT. CCX_QSP_GO sends the command that the registers describe, or leaves the
code that turns it away and sends nothing; QSPI_COMPLETE ends it with OK. MGC_WKICK restarts the management watchdog, and its expiry
is a system reset with cause 1, after which an image is to be selected. MGC_CCXRELOAD starts a reload of the running image; RELOAD_COMPLETE
stores a section whose digest is right and completes with OK. The doorbells set their bits. -/
def Obligations.ControllersComplete : Prop :=
  (∀ (s : State) (w : RegWrite), s.admitsWrite 0x0A2 0x044 w (setBit w.data.toNat 0) = true →
    Answers (.ccxDdrInit w) s fun t =>
      t.resp.code = .ok ∧ t.ccx.training = true ∧ t.on CCX_DDR_INIT = true) ∧
  (∀ s : State, s.ccx.training = true → s.rd CCX_DDR_DENS ≤ 3 →
    Answers .ddrInitDone s fun t =>
      t.ccx.training = false ∧ t.on CCX_DDR_READY = true ∧ t.rd CCX_DDR_CODE = codeOf .ok ∧
      t.on CCX_DDR_INIT = false ∧ t.rd CCX_DDR_MIB = 448 * 2 ^ s.rd CCX_DDR_DENS ∧
      bit (t.rd (IRQ_RAW 0x0A2)) 0 = true) ∧
  (∀ s : State, s.ccx.training = true →
    Answers .ddrTrainTimeout s fun t =>
      t.ccx.training = false ∧ t.on CCX_DDR_READY = false ∧ t.rd CCX_DDR_CODE = codeOf .timeout ∧
      bit (t.rd (IRQ_RAW 0x0A2)) 0 = true) ∧
  (∀ (s : State) (w : RegWrite), s.admitsWrite 0x0A3 0x050 w (setBit w.data.toNat 0) = true →
    s.ccx.qspi = none →
    (s.qspiStop s.qspiCmd = none →
      Answers (.ccxQspGo w) s fun t =>
        t.resp.code = .ok ∧ t.ccx.qspi = some s.qspiCmd ∧ t.on CCX_QSP_GO = true ∧
        ∃ o, t.out = s.out ++ [o] ∧ o.chan = .qspi) ∧
    (∀ c, s.qspiStop s.qspiCmd = some c →
      Answers (.ccxQspGo w) s fun t =>
        t.rd CCX_QSP_CODE = codeOf c ∧ t.ccx.qspi = none ∧ t.out = s.out)) ∧
  (∀ (s : State) (data : List Byte) (c : QspiCmd), s.ccx.qspi = some c →
    Answers (.qspiComplete data) s fun t =>
      t.ccx.qspi = none ∧ t.on CCX_QSP_GO = false ∧ t.rd CCX_QSP_CODE = codeOf .ok ∧
      SameBut [.regs, .ccx] s t) ∧
  (∀ (s : State) (w : RegWrite), s.admitsWrite 0x0A8 0x058 w (setBit w.data.toNat 0) = true →
    Answers (.mgcWkick w) s fun t =>
      t.resp.code = .ok ∧ t.ccx.wkick = s.clk ∧ SameBut [.ccx, .resp] s t) ∧
  (∀ s : State, s.on MGC_WDT_EN = true → s.ccx.image ≠ none → s.rd CTF_PERIOD ≠ 0 →
    Answers .mgcWatchdog s fun t =>
      t.ccx.bootDue = true ∧ t.ccx.image = none ∧ t.barm.lists = [] ∧ t.tun.sparge = [] ∧
      bits (t.rd (MGC_MB_OUT 0)) 8 4 = 1 ∧ t.start.count = satNat 32 (s.start.count + 1)) ∧
  (∀ (s : State) (w : RegWrite), s.admitsWrite 0x0A8 0x04C w (setBit w.data.toNat 2) = true →
    bits w.data.toNat 0 2 = 0 → s.ccx.image ≠ none →
    Answers (.mgcCcxreload w) s fun t => t.resp.code = .ok ∧ t.ccx.reload = true) ∧
  (∀ (s : State) (app : List Byte) (x : BootImage), s.ccx.image = some x → s.ccx.reload = true →
    sha256 (padTo x.alen app) = x.dig →
    Answers (.reloadComplete app) s fun t =>
      t.ccx.reload = false ∧ t.ccx.sram = memStore s.ccx.sram x.load (padTo x.alen app) ∧
      t.rd MGC_BCODE = codeOf .ok ∧ bit (t.rd (IRQ_RAW 0x0A8)) 2 = true) ∧
  (∀ (s : State) (w : RegWrite), s.admitsWrite 0x0A8 0x0C0 w (setBit w.data.toNat 0) = true →
    Answers (.mgcDbToccx w) s fun t => t.resp.code = .ok ∧ t.on MGC_DB_TOCCX = true) ∧
  (∀ (s : State) (w : RegWrite), s.admitsWrite 0x0A8 0x0C0 w (setBit w.data.toNat 1) = true →
    Answers (.mgcDbTomgc w) s fun t =>
      t.resp.code = .ok ∧ t.on MGC_DB_TOMGC = true ∧ bit (t.rd (IRQ_RAW 0x0A8)) 0 = true)

/-- With a clean boot record that holds no trial, BOOT_SELECT and RECOVERY_RETRY start the preferred slot where it verifies, protect
its flash slot and leave recovery; where neither slot verifies the device is in recovery, logged once. While the supply is good,
MGC_TRIAL of the slot that does not run writes the record with three tries, and MGC_BOOTOK the running slot as preferred and
good, each with its log entry and OK. RESTORE_PAGE of a sealed page, RESTORE_ACC before any close or restoration, and SAVE_ACC, with no
command outstanding, start the sequencer; an unsealed page is PROTECTED. RESTORE_SEQ_DONE ends the command with its code. -/
def Obligations.BootComplete : Prop :=
  (∀ (s : State) (a b : SlotImage) (d : Nat), celJudge bootGroup (s.celRaw bootGroup) = .clean d →
    brTrial d = false →
    (s.slotCheck (slotOf a b (brPref d)) = 0 →
      (s.ccx.bootDue = true → Answers (.bootSelect a b none) s fun t =>
        t.rd MGC_B_SLOT = brPref d ∧ t.rd MGC_B_REASON = 0 ∧ t.ccx.recovery = false ∧ t.ccx.bootDue = false ∧
        t.ccx.image ≠ none ∧ t.rd MGC_BVER = imageField (slotOf a b (brPref d)) 8 4 ∧
        t.on (if brPref d = 0 then CCX_QSP_WPA else CCX_QSP_WPB) = true) ∧
      (s.ccx.recovery = true → Answers (.recoveryRetry a b none) s fun t =>
        t.rd MGC_B_SLOT = brPref d ∧ t.ccx.recovery = false ∧ t.ccx.image ≠ none)) ∧
    (s.slotCheck a ≠ 0 → s.slotCheck b ≠ 0 →
      (s.ccx.bootDue = true → Answers (.bootSelect a b none) s fun t =>
        t.ccx.recovery = true ∧ t.ccx.image = none ∧
        (s.ccx.recovery = false → ∃ e ∈ t.events, e.code = 0x500A)) ∧
      (s.ccx.recovery = true → Answers (.recoveryRetry a b none) s fun t =>
        t.ccx.recovery = true ∧ t.events = s.events))) ∧
  (∀ (s : State) (w : RegWrite) (d : Nat), s.admitsWrite 0x0A8 0x04C w (setBit w.data.toNat 1) = true →
    bit w.data.toNat 0 = false → bit w.data.toNat 2 = false → bits w.data.toNat 8 1 ≠ s.rd MGC_B_SLOT →
    celJudge bootGroup (s.celRaw bootGroup) = .clean d → s.celBlocked = false →
    Answers (.mgcTrial w false) s fun t =>
      t.resp.code = .ok ∧ t.rd MGC_BCODE = codeOf .ok ∧
      t.celRaw bootGroup = celWord bootGroup (brWith d (bits w.data.toNat 8 1) true 3 (brGood d)) ∧
      (⟨0x4031, deviceTc, leBytes 8 (bits w.data.toNat 8 1)⟩ : LogEvent) ∈ t.events) ∧
  (∀ (s : State) (w : RegWrite) (d : Nat), s.admitsWrite 0x0A8 0x04C w (setBit w.data.toNat 0) = true →
    bits w.data.toNat 1 2 = 0 → celJudge bootGroup (s.celRaw bootGroup) = .clean d → s.celBlocked = false →
    Answers (.mgcBootok w false) s fun t =>
      t.resp.code = .ok ∧ t.rd MGC_BCODE = codeOf .ok ∧ t.ccx.bootOk = true ∧
      t.celRaw bootGroup = celWord bootGroup
        (putBits (brWith d (s.rd MGC_B_SLOT) false 0 (s.rd MGC_B_SLOT)) 32 32 (s.rd MGC_BVER)) ∧
      (⟨0x4033, deviceTc, leBytes 8 (s.rd MGC_B_SLOT + s.rd MGC_BVER * 2 ^ 32)⟩ : LogEvent) ∈ t.events) ∧
  (∀ (s : State) (w : RegWrite), s.on MGC_R_BUSY = false → s.ccx.seq = none →
    (s.admitsWrite 0x0A8 0x05C w (putBits w.data.toNat 0 4 1) = true →
      s.on (STS_SEALED (bits w.data.toNat 16 10)) = true →
      Answers (.restorePage w) s fun t =>
        t.resp.code = .ok ∧ t.on MGC_R_BUSY = true ∧ t.ccx.seq = some (1, bits w.data.toNat 16 10)) ∧
    (s.admitsWrite 0x0A8 0x05C w (putBits w.data.toNat 0 4 1) = true →
      s.on (STS_SEALED (bits w.data.toNat 16 10)) = false →
      Answers (.restorePage w) s fun t =>
        t.resp.code = .prot ∧ t.rd MGC_R_CODE = codeOf .prot ∧ t.ccx.seq = none) ∧
    (s.admitsWrite 0x0A8 0x05C w (putBits w.data.toNat 0 4 2) = true →
      s.acc.restored = false → s.acc.closed = false →
      Answers (.restoreAcc w) s fun t =>
        t.resp.code = .ok ∧ t.on MGC_R_BUSY = true ∧ t.ccx.seq = some (2, bits w.data.toNat 16 10)) ∧
    (s.admitsWrite 0x0A8 0x05C w (putBits w.data.toNat 0 4 3) = true →
      Answers (.saveAcc w) s fun t =>
        t.resp.code = .ok ∧ t.on MGC_R_BUSY = true ∧ t.ccx.seq = some (3, bits w.data.toNat 16 10))) ∧
  (∀ (s : State) (p : Nat), s.on MGC_R_BUSY = true →
    (s.ccx.seq = some (1, p) →
      Answers (.restoreSeqDone none) s fun t =>
        t.ccx.seq = none ∧ t.on MGC_R_BUSY = false ∧ t.rd MGC_R_CODE = codeOf (s.rewritePage p).1) ∧
    (s.ccx.seq = some (2, p) →
      Answers (.restoreSeqDone none) s fun t =>
        t.ccx.seq = none ∧ t.on MGC_R_BUSY = false ∧ t.rd MGC_R_CODE = codeOf s.restoreBilling.1) ∧
    (s.ccx.seq = some (3, p) → s.celBlocked = false →
      Answers (.restoreSeqDone none) s fun t =>
        t.ccx.seq = none ∧ t.on MGC_R_BUSY = false ∧ t.rd MGC_R_CODE = codeOf .ok))

/-! ## The powerline physical layer (chapter 13) -/

/-- TONE_TRANSMIT of a frame that the MAC offers, while the channel is on and idle and its driver good, asserts PLT_TXEN and sends the
frame with the plan for its next hop; TONE_TX_COMPLETE ends it, counts it, and leaves an attempt that asked for
an acknowledgement waiting. TONE_RECEIVE counts a frame whose FCH check fails or is reserved, and delivers the others: the acknowledgement awaited ends
its attempt. DRIVER_FAULT stops the transmitter and is logged once. A TMREQ or a refresh that is due issues the set made from the
averages; a TMRSP of the own plan installs its set and corrects the offset; TMAP_EXPIRE makes invalid the received sets that are not renewed. -/
def Obligations.TonesComplete : Prop :=
  (∀ (s : State) (a : Attempt) (p : TxPlan), s.plm.attempt = some a → s.plt.tx = none → a.taken = false → a.bytes ≠ [] →
    s.toneOff = false → s.plt.dflt = false → p = s.txPlan (if a.nxt = 0xFF then none else s.nbIndex a.nxt) →
    Answers .toneTransmit s fun t =>
      t.plt.txen = true ∧ (∃ x, t.plt.tx = some x ∧ x.clk = s.clk ∧ x.tick = s.ticks) ∧
      (∃ b, t.plm.attempt = some b ∧ b.taken = true ∧ b.frame = a.frame) ∧
      ∃ h : Fch, t.out = s.out ++ [⟨.tone, s.toneOutput p h a.bytes⟩] ∧ h.mode = p.mode ∧ h.gen = p.gen ∧
        h.src = s.saddr ∧ h.tsc = s.symbolTicks ∧ h.nsym = s.planSymbols p h.ph0 a.bytes.length) ∧
  (∀ (s : State) (a : Attempt) (x : PltTx), s.plt.tx = some x → s.plm.attempt = some a → a.ackReq = true →
    Answers .toneTxComplete s fun t =>
      t.plt.tx = none ∧ t.plt.txen = false ∧ t.plm.attempt = some { a with waits := true } ∧
      t.plm.lastEnd = some (x.clk + x.len * 65536) ∧ t.rd PLT_TXN = satNat 16 (s.rd PLT_TXN + 1)) ∧
  (∀ (s : State) (a : Attempt) (x : PltTx), s.plt.tx = some x → s.plm.attempt = some a → a.ackReq = false →
    Answers .toneTxComplete s fun t => t.plt.tx = none ∧ t.plt.txen = false ∧ t.plm.attempt = none) ∧
  (∀ (s : State) (f : ToneIn), s.toneOff = false → s.plt.tx = none →
    (fchGood f.fch = false →
      Answers (.toneReceive f) s fun t =>
        t.rd PLT_HCSN = satNat 16 (s.rd PLT_HCSN + 1) ∧ SameBut [.regs] s t) ∧
    (fchGood f.fch = true → (fchOf f.fch).reserved = true →
      Answers (.toneReceive f) s fun t =>
        t.rd PLT_RSVN = satNat 16 (s.rd PLT_RSVN + 1) ∧ SameBut [.regs] s t) ∧
    (∀ a : Attempt, fchGood f.fch = true → (fchOf f.fch).reserved = false → (fchOf f.fch).mode = 0 →
      s.on PLM_EN = true → s.plm.attempt = some a → a.waits = true →
      f.payload = ackBytes s.saddr a.nxt a.seq → a.nxt < 256 → a.seq < 256 →
      Answers (.toneReceive f) s fun t => t.plm.attempt = none)) ∧
  (∀ (s : State) (n : BitVec 10),
    (s.plt.dflt = false →
      Answers (.driverFault true n) s fun t =>
        t.plt.dflt = true ∧ t.plt.tx = none ∧ Logged s t 0x6001 deviceTc 0 ∧
        (s.plt.tx ≠ none → t.resp.code = .part ∧ t.resp.done = n.toNat)) ∧
    Answers (.driverFault false n) s fun t => t.plt.dflt = false ∧ SameBut [.regs, .plt] s t) ∧
  (∀ (s u : State) (m : MgmtIn) (i : Nat), s.takeMgmt 0x01 = some (m, u) → u.nbIndex m.orig = some i →
    (u.mapsAdapt = true → u.issueFree i = true →
      Answers .tmreq s fun t =>
        (t.link i).issued = some (u.makeSet i) ∧ (t.link i).lastIssue = some s.stamp.cyc ∧
        (t.link i).prev = (s.link i).issued.map fun p => { p with at' := s.stamp.cyc }) ∧
    (∀ x, u.mapsAdapt = false → (u.link i).issued = some x →
      Answers .tmreq s fun t => t = u.sendSet i x)) ∧
  (∀ (s u : State) (m : MgmtIn) (i : Nat) (x : MapSet), s.takeMgmt 0x02 = some (m, u) →
    u.nbIndex m.orig = some i → u.tmrspSet m.data = some x →
    Answers .tmrsp s fun t =>
      (t.link i).received = some x ∧ (t.link i).delta = ((s.link i).delta + x.dcorr) % 65536) ∧
  (∀ (s : State) (i : Fin 64) (c : Nat), (s.nb i.val).isSome = true → s.issueFree i.val = true →
    s.mapsAdapt = true → s.toneOff = false → (s.link i.val).lastIssue = some c →
    c + s.rd PLT_TMREF ≤ s.stamp.cyc → s.rd PLT_TMMINF ≤ (s.link i.val).frames →
    Answers (.tmapRefresh i) s fun t =>
      (t.link i.val).issued = some (s.makeSet i.val) ∧ (t.link i.val).frames = 0) ∧
  (∀ s : State, Answers .tmapExpire s fun t => SameBut [.plt] s t ∧
    ∀ i ∈ s.plt.links.map (·.1), (t.link i).issued = (s.link i).issued ∧
      (t.link i).received = (s.link i).received.map fun m =>
        { m with valid := m.valid && decide (s.stamp.cyc < m.at' + 4 * s.rd PLT_TMREF) })

/-- PULSE_SLOT_DECIDE of a usable slot in which nothing is sent shows the largest correlation, its position and the
decision, and the eighth dibit of the sync opens a frame; in the slot of a downlink it sends the next dibit's pulse. DOWNLINK_REQUEST
hands the oldest downlink of a stream to the pulse channel, or to the repeater of its node; in D3 the downlink ends.
DOWNLINK_TIMEOUT ends one for which no ack window has begun in time. -/
def Obligations.PulseSlotsComplete : Prop :=
  (∀ (s : State) (n : Fin 256) (c0 c1 c2 c3 : BitVec 16) (e : Nat) (v : Nat × Nat × Nat),
    e = s.activeEntry n.val → v = s.decideSymbol ([c0, c1, c2, c3].map (·.toNat)) → s.on PLP_EN = true →
    s.slotsDecided = true → entEn e = true → entCons e = 2 → entSig e = 0 → usableWindow e = true →
    ((∀ k ∈ s.slotStreams n.val, s.downSlot k = none) →
      Answers (.pulseSlotDecide n c0 c1 c2 c3) s fun t =>
        t.rd PLP_LASTC = v.2.2 ∧ t.rd PLP_LASTP = v.2.1 ∧ t.rd PLP_LASTK = v.1 ∧
        ∀ k, s.slotStreams n.val = [k] → (s.plpStream k).frame = none → v.1 = 0 →
          ((s.plpStream k).recent.drop ((s.plpStream k).recent.length - 7)).map (·.1) ++ [v.2.1] = syncDibits →
          (t.plpStream k).frame.isSome = true) ∧
    (∀ (k d x : Nat) (l : List Nat), s.slotStreams n.val = [k] → s.downSlot k = some (d :: l, x) →
      Answers (.pulseSlotDecide n c0 c1 c2 c3) s fun t =>
        t.out = s.out ++ [⟨.pulse, [(s.anchorChannel (entAnch e) - 1) / 3 + 1,
          (s.anchorChannel (entAnch e) - 1) % 3 + 1, d]⟩] ∧
        (l ≠ [] → (t.plpStream k).send = some (l, x + 1)) ∧
        (l = [] → (s.plpStream k).queued ≠ none → (t.plpStream k).send = none))) ∧
  (∀ (s : State) (k : Fin 64) (d : NodeDown),
    (s.plm.downs.find? fun d => d.stream == k.val && !d.given) = some d →
    (s.level < 3 → s.on PLP_DLEN = true →
      (s.downRepeater k.val = none → (s.plpStream k.val).queued = none →
        Answers (.downlinkRequest k) s fun t =>
          (t.plpStream k.val).queued = some ⟨d.data, s.stamp.cyc, d.ref⟩ ∧ SameBut [.plm, .plp] s t) ∧
      (∀ (peer : Nat) (n : NodeEntry), s.downRepeater k.val = some (peer, n) →
        Answers (.downlinkRequest k) s fun t =>
          SameBut [.plm] s t ∧ ∃ f : TxFrame, t.plm.queue = s.plm.queue ++ [f] ∧ f.fdst = peer ∧ f.type = 4 ∧
            f.down = some d.ref ∧ f.data = leBytes 8 n.eui ++ d.data)) ∧
    (3 ≤ s.level → Answers (.downlinkRequest k) s fun t => ∀ x ∈ t.plm.downs, x.ref ≠ d.ref)) ∧
  (∀ (s : State) (k : Fin 64) (d : Downlink), (s.plpStream k.val).queued = some d →
    (s.plpStream k.val).send = none → d.cyc + s.rd PLP_DLWAIT ≤ s.stamp.cyc →
    Answers (.downlinkTimeout k) s fun t =>
      (t.plpStream k.val).queued = none ∧ ∀ x ∈ t.plm.downs, x.ref ≠ d.ref)

/-! ## The powerline MAC (chapter 14) -/

/-- PLM_RING_POLL of an enabled endpoint takes its one new descriptor; where the area lies outside the windows of its tenant or
more descriptors are new than it has slots, it faults once, with a log entry, and takes none. ACCESS_SLOT within a window starts an attempt
of the frame offered; a tenant frame whose latest time has passed leaves the queue. ACK_TIMEOUT of a waiting attempt makes a retry,
or ends the frame when they are exhausted. REASSEMBLY_TIMEOUT drops and counts exactly the frames older than 64 cycles. PLM_LEAVE
queues a BYE. PLM_EP_KCOMMIT and PLM_SITEKEY_COMMIT take the key from its four words. PLM_JOIN opens a join window of the
length written; JOIN_WINDOW_CLOSE ends it and asks for the removal of its entries. -/
def Obligations.MacComplete : Prop :=
  (∀ (s : State) (e : Fin 128), s.on PLM_EN = true → s.epOn e.val = true → s.level < 3 →
    s.plm.stopped.contains e.val = false →
    (s.epUsable e.val = true → (∀ h ∈ s.plm.held, h.key ≠ e.val) → s.epOwner e.val < 64 →
      (s.ringIdx ((s.epRing e.val).base + 0x04) + 1) % 65536 = s.ringIdx (s.epRing e.val).base →
      Answers (.plmRingPoll e) s fun t =>
        t.ringIdx ((s.epRing e.val).base + 0x04) = s.ringIdx (s.epRing e.val).base ∧
        t.on (PLM_EP_RFAULT (e.val / 64) (e.val % 64)) = false) ∧
    ((s.epUsable e.val = false ∨ 2 ^ (s.epRing e.val).tl < (s.ringIdx (s.epRing e.val).base + 65536 -
        s.ringIdx ((s.epRing e.val).base + 0x04)) % 65536) →
      s.on (PLM_EP_RFAULT (e.val / 64) (e.val % 64)) = false →
      Answers (.plmRingPoll e) s fun t =>
        t.on (PLM_EP_RFAULT (e.val / 64) (e.val % 64)) = true ∧
        Logged s t 0x5007 (s.epOwner e.val) (1 + e.val * 2 ^ 8) ∧ SameBut [.regs, .events] s t)) ∧
  (∀ (s : State) (p : Fin 4) (k : Fin 16) (f : TxFrame), k.val < windowSlots p.val → s.on PLM_EN = true →
    s.saddr ≠ 0 → s.plm.attempt = none → s.plt.tx = none → s.nextFrame p.val = some f → s.on PLT_BANDC_EN = false →
    (∀ (hop : Option (Nat × Nat × Nat × Nat)) (nxt : Nat) (b : List Byte × Nat), f.kind ≠ 2 → s.toneOff = false →
      s.hopFor f.fdst = some hop → nxt = ((hop.map (·.2.2.2)).getD 0xFF) → (s.buildSegment f nxt).1 = some b →
      Answers (.accessSlot p k) s fun t =>
        t.plm.attempt = some {
          frame := f.id, bytes := b.1, nxt := nxt, seq := b.2, ackReq := f.ackReq && nxt != 0xFF }) ∧
    (f.kind = 2 → f.first = none → f.latest ≤ stampNat s.stamp →
      Answers (.accessSlot p k) s fun t => t.plm.attempt = none ∧ ∀ x ∈ t.plm.queue, x.id ≠ f.id)) ∧
  (∀ (s : State) (a : Attempt) (f : TxFrame), s.plm.attempt = some a → a.waits = true →
    s.plm.queue.find? (·.id == a.frame) = some f →
    (f.tries < s.rd PLM_RETRY →
      Answers .ackTimeout s fun t => t.plm.attempt = none ∧
        ∃ g, t.plm.queue.find? (·.id == a.frame) = some g ∧ g.tries = f.tries + 1 ∧ g.cur = f.cur) ∧
    (s.rd PLM_RETRY ≤ f.tries →
      Answers .ackTimeout s fun t => t.plm.attempt = none ∧ ∀ x ∈ t.plm.queue, x.id ≠ a.frame)) ∧
  (∀ s : State, Answers .reassemblyTimeout s fun t =>
    t.plm.reasm = s.plm.reasm.filter (fun r => s.stamp.cyc < r.cyc + 64) ∧
    t.rd PLM_REASMN = satNat 16 (s.rd PLM_REASMN +
      (s.plm.reasm.filter fun r => r.cyc + 64 ≤ s.stamp.cyc).length) ∧ SameBut [.regs, .plm] s t) ∧
  (∀ (s : State) (w : RegWrite), s.admitsWrite 0x0B8 0x040 w (setBit w.data.toNat 16) = true →
    bits w.data.toNat 8 8 ≠ 0xFF →
    Answers (.plmLeave w) s fun t =>
      t.resp.code = .ok ∧ t.rd PLM_SADDR = bits w.data.toNat 8 8 ∧ t.on PLM_CONFLICT = false ∧
      ∃ f : TxFrame, t.plm.queue = s.plm.queue ++ [f] ∧ f.fdst = 0xFF ∧ f.prio = 1 ∧ f.type = 3 ∧
        f.data = [0x11, BitVec.ofNat 8 (bits w.data.toNat 8 8), 0]) ∧
  (∀ (s : State) (e : Fin 128) (w : RegWrite),
    s.admitsWrite (0x0BA + e.val / 64) (0x124 + 48 * (e.val % 64)) w (setBit w.data.toNat 0) = true →
    Answers (.plmEpKcommit e w) s fun t =>
      t.resp.code = .ok ∧
      t.rd (PLM_EP_KGEN (e.val / 64) (e.val % 64)) = (s.rd (PLM_EP_KGEN (e.val / 64) (e.val % 64)) + 1) % 256 ∧
      t.epKey e.val = some (keyBytes (BitVec.ofNat 128
        ((List.range 4).foldl (fun a i => a + s.rd (PLM_EP_KEY (e.val / 64) (e.val % 64) i) * 2 ^ (32 * i)) 0)))) ∧
  (∀ (s : State) (w : RegWrite), s.admitsWrite 0x0B8 0x06C w w.data.toNat = true →
    Answers (.plmSitekeyCommit w) s fun t =>
      t.resp.code = .ok ∧ t.plm.siteKey = BitVec.ofNat 128 (s.rd (PLM_SITEKEY 0) + s.rd (PLM_SITEKEY 1) * 2 ^ 32 +
        s.rd (PLM_SITEKEY 2) * 2 ^ 64 + w.data.toNat * 2 ^ 96)) ∧
  (∀ (s : State) (w : RegWrite), s.admitsWrite 0x0B8 0x04C w w.data.toNat = true → bits w.data.toNat 0 16 ≠ 0 →
    Answers (.plmJoin w) s fun t =>
      t.resp.code = .ok ∧ t.plm.joinEnd = some (s.stamp.cyc + bits w.data.toNat 0 16)) ∧
  (∀ (s : State) (c : Nat), s.plm.joinEnd = some c → c ≤ s.stamp.cyc →
    Answers .joinWindowClose s fun t =>
      t.plm.joins = [] ∧ t.plm.joinEnd = none ∧
      ∀ j ∈ s.plm.joins, ∃ r ∈ t.plm.due, r.idx = j.entry ∧ r.remove = true)

/-- HELLO_SEND and RADV_SEND queue the device's HELLO and RADV as broadcasts at P1. A HELLO of a device not in the table takes the place
free for it, or is counted where there is none; one of a known device renews its entry; one with this device's own short address is
logged, and sets PLM_CONFLICT where its EUI is the smaller. BYE and NEIGHBOUR_AGE remove the neighbour: its entry is gone and an
RADV is due. RADV replaces what its sender advertises, and ROUTE_AGE drops exactly the advertisements not renewed. -/
def Obligations.NeighboursComplete : Prop :=
  (∀ s : State, s.on PLM_EN = true → s.saddr ≠ 0 → s.level ≤ 2 →
    Answers .helloSend s (fun t => SameBut [.plm] s t ∧
      ∃ f : TxFrame, t.plm.queue = s.plm.queue ++ [f] ∧ f.fdst = 0xFF ∧ f.prio = 1 ∧ f.type = 3 ∧
        f.data = s.helloBytes) ∧
    Answers .radvSend s (fun t => SameBut [.plm] s t ∧ t.plm.radvSoon = false ∧
      ∃ f : TxFrame, t.plm.queue = s.plm.queue ++ [f] ∧ f.fdst = 0xFF ∧ f.prio = 1 ∧ f.type = 3 ∧
        f.data = s.radvBytes)) ∧
  (∀ (s u : State) (m : MgmtIn), s.takeMgmt 0x10 = some (m, u) →
    (leAt m.data 9 1 = s.saddr → leAt m.data 1 8 ≠ s.eui →
      Answers .hello s fun t =>
        Logged s t 0x6003 deviceTc s.saddr ∧ t.plm.nbs = s.plm.nbs ∧
        (leAt m.data 1 8 < s.eui → t.on PLM_CONFLICT = true)) ∧
    (leAt m.data 9 1 ≠ s.saddr → (∀ x ∈ s.plm.nbs, x.2.eui ≠ leAt m.data 1 8) →
      (∀ i, s.nbPlace = some i →
        Answers .hello s fun t => ∃ n, t.nb i = some n ∧ n.eui = leAt m.data 1 8 ∧ n.saddr = leAt m.data 9 1 ∧
          n.hello = leAt m.data 11 2 ∧ n.heard = s.stamp.cyc ∧ n.ratio = 256 ∧ t.link i = {} ∧
          n.bidir = ((m.data.drop 14).take (leAt m.data 13 1)).contains (BitVec.ofNat 8 s.saddr)) ∧
      (s.nbPlace = none →
        Answers .hello s fun t =>
          t.rd PLM_NBFULLN = satNat 16 (s.rd PLM_NBFULLN + 1) ∧ t.plm.nbs = s.plm.nbs)) ∧
    (∀ x, leAt m.data 9 1 ≠ s.saddr → s.plm.nbs.find? (fun x => x.2.eui == leAt m.data 1 8) = some x →
      Answers .hello s fun t => ∃ n, t.nb x.1 = some n ∧ n.saddr = leAt m.data 9 1 ∧
        n.heard = s.stamp.cyc ∧ SameBut [.plm] s t)) ∧
  (∀ (s u : State) (m : MgmtIn) (i : Nat) (n : Neighbour), s.takeMgmt 0x11 = some (m, u) →
    s.nbIndex (leAt m.data 1 1) = some i → s.nb i = some n →
    Answers .bye s fun t =>
      t.nb i = none ∧ t.link i = {} ∧ t.plm.radvSoon = true ∧
      Logged s t 0x6002 deviceTc (n.saddr + 2 ^ 8)) ∧
  (∀ s : State, s.level < 3 →
    Answers .neighbourAge s fun t => ∀ x ∈ s.plm.nbs,
      x.2.heard + s.rd PLM_AGE * x.2.hello ≤ s.stamp.cyc → t.nb x.1 = none ∧ t.plm.radvSoon = true) ∧
  (∀ (s u : State) (m : MgmtIn) (i : Nat) (n : Neighbour), s.takeMgmt 0x12 = some (m, u) →
    s.nbIndex m.orig = some i → s.nb i = some n →
    Answers .radv s fun t => ∃ n', t.nb i = some n' ∧
      (∀ k, k < min 48 (leAt m.data 1 1) → (⟨leAt m.data (2 + 5 * k) 1, leAt m.data (3 + 5 * k) 1,
        leAt m.data (4 + 5 * k) 1, leAt m.data (5 + 5 * k) 2, s.stamp.cyc⟩ : Advert) ∈ n'.adv) ∧
      ∀ a ∈ n'.adv, a ∈ n.adv ∨ ∃ k, k < min 48 (leAt m.data 1 1) ∧ a.dest = leAt m.data (2 + 5 * k) 1) ∧
  (∀ s : State, s.level < 3 →
    Answers .routeAge s fun t => SameBut [.plm] s t ∧ t.plm.nbs = s.plm.nbs.map fun x =>
      (x.1, { x.2 with
        adv := x.2.adv.filter fun a => decide (s.stamp.cyc < a.cyc + s.rd PLM_AGE * s.rd PLM_RADV) }))

/-- A JOIN that passes the key check of an admitting endpoint, from a node not in the table, enters the node in the slot found with the
period of R376 and asks for its entry; one of the wrong length is counted. A good uplink makes its counter the last accepted
and ends SILENT; in D3 it is stored. LEAVE and NODE_DEPARTED remove the node and ask for the removal of its entry; NODE_SILENT makes it
SILENT, logged. NRELAY of a good frame of a foreign node enters its counter in the cache, and of a downlink queues it on
the stream of the grant. Stored uplinks are delivered once D3 is left. Schedule requests not active in time are counted. -/
def Obligations.NodesComplete : Prop :=
  (∀ (s u : State) (f : PulseIn) (j : JoinSlot) (e : Nat) (key : List Byte),
    s.takeNode (fun f => s.plm.joins.any (·.stream == f.stream) && f.type == 1) = some (f, u) →
    s.plm.joins.find? (·.stream == f.stream) = some j →
    (f.data.length ≠ 18 → Answers .join s fun t =>
      t.rd PLM_JOINBADN = satNat 16 (s.rd PLM_JOINBADN + 1) ∧ SameBut [.regs, .plm] s t) ∧
    (∀ st en a o c : Nat, f.data.length = 18 → s.epOfNid (leAt f.data 9 2) = some e → s.epKey e = some key →
      s.on (PLM_EP_ADMIT (e / 64) (e % 64)) = true →
      (ccmOpen key (nodeNonce (leAt f.data 1 8) (ctrAbove (s.nodeLast (leAt f.data 1 8) (leAt f.data 9 2))
        (leAt f.data 11 2)) false 1) (f.data.take 14) (f.data.drop 14) 4).isSome = true →
      leAt f.data 13 1 % 16 ≤ 7 → (∀ n ∈ s.plm.nodes, ¬(n.eui = leAt f.data 1 8 ∧ n.nid = leAt f.data 9 2)) →
      s.freeStream = some st → s.freeEntry = some en →
      s.findSlot st j.anchor (max (2 ^ (leAt f.data 13 1 % 16)) (s.rd PLM_PMIN)) (s.stamp.cyc + 92)
        (s.rd PLM_ADMLEAD) = some (a, o, c) →
      Answers .join s fun t =>
        (∃ n ∈ t.plm.nodes, n.eui = leAt f.data 1 8 ∧ n.nid = leAt f.data 9 2 ∧ n.ep = e ∧ n.stream = st ∧
          n.entry = en ∧ n.period = max (2 ^ (leAt f.data 13 1 % 16)) (s.rd PLM_PMIN) ∧ n.anchor = a ∧ n.cofs = c) ∧
        ∃ r ∈ t.plm.due, r.idx = en ∧ r.stream = st ∧ r.remove = false ∧ r.cyc = s.stamp.cyc + 92 + o)) ∧
  (∀ (s u : State) (f : PulseIn) (n : NodeEntry) (key d : List Byte) (c : Nat),
    s.takeNode (fun f => (f.type == 2 || f.type == 4) &&
      (s.plm.nodes.any (·.stream == f.stream) || s.plm.grants.any (·.stream == f.stream))) = some (f, u) →
    s.nodeOn f.stream = some n → s.epKey n.ep = some key →
    (checkUplink key n.eui (some n.up) f.data = .good c d →
      Answers .nodeUplink s fun t =>
        (∃ m, t.nodeOn f.stream = some m ∧ m.up = c ∧ m.silent = none ∧ m.heard = s.stamp.cyc) ∧
        (3 ≤ s.level → s.plm.stored.length < 64 →
          t.plm.stored = s.plm.stored ++ [⟨n.stream, n.eui, n.ep, c, d, f.stamp, f.held⟩])) ∧
    (checkUplink key n.eui (some n.up) f.data = .replay →
      Answers .nodeUplink s fun t =>
        t.rd PLM_REPLAYN = satNat 16 (s.rd PLM_REPLAYN + 1) ∧ SameBut [.regs, .plm] s t)) ∧
  (∀ (s u : State) (f : PulseIn) (n : NodeEntry) (key d : List Byte) (c : Nat),
    s.takeNode (fun f => f.type == 3 && s.plm.nodes.any (·.stream == f.stream)) = some (f, u) →
    s.nodeOn f.stream = some n → s.epKey n.ep = some key → checkUplink key n.eui (some n.up) f.data = .good c d →
    Answers .nodeLeave s fun t =>
      t.nodeOn f.stream = none ∧ (∃ r ∈ t.plm.due, r.idx = n.entry ∧ r.remove = true) ∧
      ∃ e ∈ t.events, e.code = 0x6013) ∧
  (∀ (s : State) (k : Fin 64) (n : NodeEntry), s.nodeOn k.val = some n →
    (n.silent = none → n.heard + 4 * n.interval ≤ s.stamp.cyc →
      Answers (.nodeSilent k) s fun t =>
        (∃ m, t.nodeOn k.val = some m ∧ m.silent = some s.stamp.cyc) ∧
        Logged s t 0x6012 (s.epOwner n.ep) n.eui) ∧
    (∀ c, n.silent = some c → c + s.rd PLM_NHOLD ≤ s.stamp.cyc →
      Answers (.nodeDeparted k) s fun t =>
        t.nodeOn k.val = none ∧ ∃ r ∈ t.plm.due, r.idx = n.entry ∧ r.remove = true)) ∧
  (∀ (s : State) (r : RelayIn) (l : List RelayIn), s.plm.relays = r :: l →
    (∀ (e c : Nat) (key d : List Byte), leAt r.data 0 1 % 16 < 8 → leAt r.data 0 1 % 16 ≠ 3 →
      s.epOfNid r.nid = some e → s.epKey e = some key →
      checkUplink key r.eui (s.nodeLast r.eui r.nid) r.data = .good c d →
      (∀ n ∈ s.plm.nodes, ¬(n.eui = r.eui ∧ n.nid = r.nid)) →
      (∀ x ∈ s.plm.cache, ¬(x.1 = 256 + r.eui ∧ x.2.1 = r.nid)) →
      Answers .nrelay s fun t =>
        t.plm.relays = l ∧ t.plm.cache.head? = some (256 + r.eui, r.nid, c)) ∧
    (∀ g : RepGrant, 8 ≤ leAt r.data 0 1 % 16 →
      s.plm.grants.find? (fun g => g.eui == r.eui && g.nid == r.nid) = some g →
      Answers .nrelay s fun t =>
        t.plm.relays = l ∧ SameBut [.plm] s t ∧
        ∃ d : NodeDown, t.plm.downs = s.plm.downs ++ [d] ∧ d.stream = g.stream ∧ d.data = r.data)) ∧
  (∀ s : State, s.level < 3 →
    Answers .storedUplinkDeliver s fun t => t.plm = { s.plm with stored := [] }) ∧
  (∀ s : State, Answers .schedRequestLate s fun t =>
    t.plm.due = s.plm.due.filter (fun r => s.stamp.cyc < r.cyc) ∧ SameBut [.regs, .plm] s t ∧
    t.rd PLM_SRQLATEN = satNat 16 (s.rd PLM_SRQLATEN + ((s.plm.due.filter fun r => r.cyc ≤ s.stamp.cyc).filter
      fun r => if r.remove then entEn (s.activeEntry r.idx) else s.activeEntry r.idx != r.word).length))

/-- RGREQ with a crossing within 256 ct, a free stream, entry and slot enters a probe and asks for its entry; with no such
crossing it answers CFG_INVALID. PROBE_TIMEOUT of a probe that heard nothing drops it and answers TIMEOUT. RGRSP of the only peer asked, OK
with a sufficient C_p*, grants the node to it. RGRANT makes a grant of its probe, or renews a grant; RGREV, GRANT_EXPIRE and TAKEOVER_LIMIT
drop the grant and ask for the removal of its entry. GRANT_RENEW sends the grant again. STANDBY_TAKEOVER of a STANDBY grant whose home
is silent takes over, logged. -/
def Obligations.RepeatersComplete : Prop :=
  (∀ (s u : State) (m : MgmtIn), s.takeMgmt 0x20 = some (m, u) →
    (∀ x ∈ s.plm.probes, ¬(x.home = m.orig ∧ x.eui = leAt m.data 4 8)) →
    ((∀ a ∈ [1, 2, 3, 4, 5, 6, 9, 10, 11, 12, 13, 14], ∀ x, s.anchorPhase a = some x →
        256 < (phaseDiff x (leAt m.data 18 2)).natAbs) →
      Answers .rgreq s fun t => t.plm.probes = s.plm.probes ∧ ∃ f : TxFrame, t.plm.queue = s.plm.queue ++ [f] ∧
        f.fdst = m.orig ∧ f.data = rgrspBytes (leAt m.data 1 2) .cfgInvalid 0 0) ∧
    (∀ a x st en : Nat, a ∈ [1, 2, 3, 4, 5, 6, 9, 10, 11, 12, 13, 14] → s.anchorPhase a = some x →
      (phaseDiff x (leAt m.data 18 2)).natAbs ≤ 256 → leAt m.data 14 1 ≠ 0 →
      s.freeStream = some st → s.freeEntry = some en →
      (∀ b c, s.slotFree 64 b (leAt m.data 14 1) c = true) →
      Answers .rgreq s fun t =>
        (∃ p ∈ t.plm.probes, p.id = leAt m.data 1 2 ∧ p.home = m.orig ∧ p.eui = leAt m.data 4 8 ∧
          p.period = leAt m.data 14 1 ∧ p.stream = st ∧ p.entry = en ∧ p.frames = 0) ∧
        ∃ r ∈ t.plm.due, r.idx = en ∧ r.stream = st ∧ r.remove = false)) ∧
  (∀ (s : State) (k : Fin 64) (x : Probe), s.plm.probes.find? (·.stream == k.val) = some x → x.frames = 0 →
    x.since + 4 * x.period * s.rd PLM_RG_PROBE ≤ s.stamp.cyc →
    Answers (.probeTimeout k) s fun t =>
      (∀ y ∈ t.plm.probes, y.id ≠ x.id) ∧ ∃ f : TxFrame, t.plm.queue = s.plm.queue ++ [f] ∧ f.fdst = x.home ∧
        f.data = rgrspBytes x.id .timeout 0 0) ∧
  (∀ (s u : State) (m : MgmtIn) (a : Asked) (n : NodeEntry), s.takeMgmt 0x21 = some (m, u) → s.plm.asked = [a] →
    a.id = leAt m.data 1 2 → s.nodeOn a.stream = some n → leAt m.data 3 1 = codeOf .ok →
    s.grantLevel ≤ leAt m.data 5 2 →
    Answers .rgrsp s fun t =>
      t.plm.asked = [] ∧ (t.nodeOn a.stream).map (·.grant) = some (some (a.peer, a.role, a.id)) ∧
      (∃ f : TxFrame, t.plm.queue = s.plm.queue ++ [f] ∧ f.fdst = a.peer ∧
        f.data = s.rgrantBytes a.id a.role n.ep) ∧
      Logged s t 0x6021 (s.epOwner n.ep) (a.stream + a.role * 2 ^ 8 + a.peer * 2 ^ 16)) ∧
  (∀ (s u : State) (m : MgmtIn), s.takeMgmt 0x22 = some (m, u) →
    (∀ x : Probe, (∀ g ∈ s.plm.grants, ¬(g.id = leAt m.data 1 2 ∧ g.home = m.orig)) →
      s.plm.probes.find? (fun x => x.id == leAt m.data 1 2 && x.home == m.orig) = some x →
      Answers .rgrant s fun t =>
        (∀ y ∈ t.plm.probes, y.id ≠ x.id) ∧ ∃ g : RepGrant, t.plm.grants = s.plm.grants ++ [g] ∧
          g.id = leAt m.data 1 2 ∧ g.home = m.orig ∧ g.role = leAt m.data 3 1 ∧ g.lease = leAt m.data 4 2 ∧
          g.sinks = leAt m.data 6 4 ∧ g.stream = x.stream ∧ g.entry = x.entry ∧ g.eui = x.eui) ∧
    (∀ g : RepGrant, g ∈ s.plm.grants → g.id = leAt m.data 1 2 → g.home = m.orig →
      Answers .rgrant s fun t => SameBut [.plm] s t ∧
        ({ g with
            role := leAt m.data 3 1, lease := leAt m.data 4 2, sinks := leAt m.data 6 4,
            heard := s.stamp.cyc } : RepGrant) ∈ t.plm.grants)) ∧
  (∀ (s u : State) (m : MgmtIn) (g : RepGrant), s.takeMgmt 0x23 = some (m, u) →
    s.plm.grants.find? (fun g => g.id == leAt m.data 1 2 && g.home == m.orig) = some g →
    Answers .rgrev s fun t =>
      t.grantOn g.stream = none ∧ (∃ r ∈ t.plm.due, r.idx = g.entry ∧ r.remove = true) ∧
      Logged s t 0x6021 (s.grantTc g.nid) (g.stream + s.saddr * 2 ^ 16)) ∧
  (∀ (s : State) (k : Fin 64) (n : NodeEntry) (peer role id : Nat), s.nodeOn k.val = some n →
    n.grant = some (peer, role, id) →
    Answers (.grantRenew k) s fun t => SameBut [.plm] s t ∧
      ∃ f : TxFrame, t.plm.queue = s.plm.queue ++ [f] ∧ f.fdst = peer ∧ f.data = s.rgrantBytes id role n.ep) ∧
  (∀ (s : State) (k : Fin 64) (g : RepGrant), s.grantOn k.val = some g →
    (g.lease ≤ min (s.stamp.cyc - g.heard) (s.rd PLM_RG_DEAD) →
      Answers (.grantExpire k) s fun t =>
        t.grantOn k.val = none ∧ ∃ r ∈ t.plm.due, r.idx = g.entry ∧ r.remove = true) ∧
    (g.taken.isSome = true → g.heard + s.rd PLM_RG_MAXACT ≤ s.stamp.cyc →
      Answers (.takeoverLimit k) s fun t =>
        t.grantOn k.val = none ∧ ∃ r ∈ t.plm.due, r.idx = g.entry ∧ r.remove = true) ∧
    (g.role = 1 → g.taken = none → g.heard + s.rd PLM_RG_DEAD ≤ s.stamp.cyc →
      Answers (.standbyTakeover k) s fun t =>
        (t.grantOn k.val).map (·.taken) = some (some s.stamp.cyc) ∧
        Logged s t 0x6021 (s.grantTc g.nid) (g.stream + 2 * 2 ^ 8 + s.saddr * 2 ^ 16)))

/-! ## The sweep chain (chapter 15) -/

/-- While the chain runs: LINK_UP and LINK_DOWN set the link's bit, count the bad code groups, and a device that is not the head reports a
change of its downstream link and gives up its position when its upstream link falls. ENUM gives it the position, answered by
ANNOUNCE and passed on, or, at 32, none. At the head, LINK and SWC_ENUM start an enumeration while no sweep is outstanding, SWC_ENUM defers it
otherwise, ANNOUNCE enters the device or, from the last one, completes it, as ENUM_TIMEOUT does. ALIGN_EXCHANGE asks upstream, ALIGNREQ is
answered with its instants and offset, ALIGNRSP computes θ, d and O_k as R393 says, and ALIGN_TIMEOUT leaves SWC_ALIGNED as R394 has it. -/
def Obligations.ChainLinksComplete : Prop :=
  (∀ (s : State) (up : Bool) (bad : BitVec 16), s.swcRuns = true → s.swcHead = false →
    Answers (.linkUp up bad) s (fun t =>
      t.on (if up then SWC_UPLNK else SWC_DNLNK) = true ∧
      t.rd SWC_CGERRN = satNat 16 (s.rd SWC_CGERRN + bad.toNat) ∧
      (up = false → s.on SWC_DNLNK = false → s.on SWC_UPLNK = true →
        t.out = s.out ++ [⟨.chainUp, byteNats (s.chainBytes 0x09 (leBytes 1 (s.rd SWC_POS) ++ [1]))⟩])) ∧
    Answers (.linkDown up bad) s (fun t =>
      t.on (if up then SWC_UPLNK else SWC_DNLNK) = false ∧
      t.rd SWC_CGERRN = satNat 16 (s.rd SWC_CGERRN + bad.toNat) ∧
      (up = true → s.on SWC_UPLNK = true → t.rd SWC_POS = 0x3F ∧
        t.rd SWC_LINKDNN = satNat 16 (s.rd SWC_LINKDNN + 1)) ∧
      (up = false → s.on SWC_DNLNK = true → s.on SWC_UPLNK = true →
        t.out = s.out ++ [⟨.chainUp, byteNats (s.chainBytes 0x09 (leBytes 1 (s.rd SWC_POS) ++ [0]))⟩]))) ∧
  (∀ (s u : State) (f : ChainFrame) (b : List Byte), s.chainTake 0x01 3 f = (some b, u) → s.swcHead = false →
    (leAt b 0 1 ≤ 31 → s.on SWC_UPLNK = true → s.on SWC_DNLNK = true →
      Answers (.enum f) s fun t =>
        t.rd SWC_POS = leAt b 0 1 ∧ t.on SWC_OVER = false ∧ t.rd SWC_ENUMNO = leAt b 1 2 ∧
        ∃ x y, t.out = s.out ++ [⟨.chainUp, x⟩, ⟨.chainDown, y⟩]) ∧
    (leAt b 0 1 = 32 →
      Answers (.enum f) s fun t =>
        t.rd SWC_POS = 0x3F ∧ t.on SWC_OVER = true ∧ t.out = s.out ∧ Logged s t 0x8002 deviceTc (leAt b 1 2))) ∧
  (∀ (s u : State) (f : ChainFrame) (b : List Byte), s.chainTake 0x02 13 f = (some b, u) →
    (s.swcHead = true → s.swc.enum ≠ none → leAt b 11 2 = s.rd SWC_ENUMNO → 1 ≤ leAt b 0 1 → leAt b 0 1 ≤ 31 →
      (bit (leAt b 10 1) 0 = true →
        Answers (.announce f) s fun t =>
          t.swc.found = cellInsert (leAt b 0 1) (leAt b 1 8) s.swc.found ∧ t.swc.enum = s.swc.enum) ∧
      (bit (leAt b 10 1) 0 = false → s.swc.found = [] →
        Answers (.announce f) s fun t =>
          t.swc.enum = none ∧ t.rd SWC_NDEV = leAt b 0 1 + 1 ∧ bit (t.rd (IRQ_RAW 0x0C0)) 1 = true ∧
          ∃ e, t.events = s.events ++ [e] ∧ e.code = 0x8101 + leAt b 0 1)) ∧
    (s.swcHead = false → s.on SWC_UPLNK = true → s.on SWC_OVER = false →
      Answers (.announce f) s fun t => t.out = s.out ++ [⟨.chainUp, byteNats f.bytes⟩])) ∧
  (∀ s : State, s.swcHead = true → s.on SWC_EN = true → s.swcRuns = true →
    (s.outstanding = 0 → ∀ (u : State) (f : ChainFrame) (b : List Byte), s.chainTake 0x09 2 f = (some b, u) →
      Answers (.link f) s fun t =>
        t.swc.enum = some s.clk ∧ t.rd SWC_ENUMNO = (s.rd SWC_ENUMNO + 1) % 65536 ∧ t.rd SWC_POS = 0 ∧
        t.on SWC_ENUM_BUSY = true) ∧
    (∀ w : RegWrite, s.admitsWrite 0x0C0 0x070 w (setBit w.data.toNat 0) = true →
      (s.outstanding = 0 → Answers (.swcEnum w) s fun t =>
        t.resp.code = .ok ∧ t.swc.enum = some s.clk ∧ t.rd SWC_ENUMNO = (s.rd SWC_ENUMNO + 1) % 65536) ∧
      (s.outstanding ≠ 0 → Answers (.swcEnum w) s fun t =>
        t.resp.code = .ok ∧ t.swc.wanted = true ∧ t.on SWC_ENUM_BUSY = true ∧
        t.rd SWC_ENUMNO = s.rd SWC_ENUMNO))) ∧
  (∀ (s : State) (c : Nat), s.swc.enum = some c → s.rd CTF_PERIOD ≠ 0 →
    Answers .enumTimeout s fun t =>
      t.swc.enum = none ∧ bit (t.rd (IRQ_RAW 0x0C0)) 1 = true ∧ c + msTicks 1 ≤ t.clk) ∧
  (∀ (s : State) (t1 : BitVec 8), s.swcRuns = true → s.on SWC_UPLNK = true → s.swcHead = false →
    (∀ c, s.swc.last = some c → c + s.rd SWC_APER ≤ s.ctf.cyc) →
    Answers (.alignExchange t1) s fun t =>
      t.swc.req = some ⟨s.swc.seq, s.chainTime t1⟩ ∧ t.swc.last = some s.ctf.cyc ∧
      t.out = s.out ++ [⟨.chainUp, byteNats (s.chainBytes 0x03 (leBytes 2 s.swc.seq))⟩]) ∧
  (∀ (s u : State) (f : ChainFrame) (b : List Byte) (t2 : BitVec 8) (turn : BitVec 32),
    s.chainTake 0x03 2 f = (some b, u) → s.on SWC_DNLNK = true →
    Answers (.alignreq f t2 turn) s fun t =>
      t.out = s.out ++ [⟨.chainDown, byteNats (s.chainBytes 0x04 (b ++ leBytes 9 (s.chainTime t2) ++
        leBytes 9 (s.chainTime t2 + turn.toNat) ++ leBytes 9 (unsigned 72 s.chainOffset) ++
        leBytes 1 (s.rd SWC_ALIGNED)))⟩]) ∧
  (∀ (s u : State) (f : ChainFrame) (b : List Byte) (t4 : BitVec 8) (r : AlignReq) (th d : Int),
    s.chainTake 0x04 30 f = (some b, u) → s.swc.req = some r → s.swcHead = false → r.seq = leAt b 0 2 →
    th = divRound (((leAt b 2 9 : Int) - r.t1) - ((s.chainTime t4 : Int) - (leAt b 11 9 : Int))) 2 →
    d = divRound (((s.chainTime t4 : Int) - r.t1) - ((leAt b 11 9 : Int) - (leAt b 2 9 : Int))) 2 →
    Answers (.alignrsp f t4) s fun t =>
      t.swc.theta = some th ∧ t.swc.before = s.swc.theta ∧ t.swc.offset = signed 72 (leAt b 20 9) + th ∧
      t.rd SWC_DELAY = unsigned 24 d ∧ t.swc.req = none ∧ t.swc.upOk = bit (leAt b 29 1) 0) ∧
  (∀ s : State, Answers .alignTimeout s fun t => t.on SWC_ALIGNED = s.alignedNow ∧
    (s.on SWC_ALIGNED = true → s.alignedNow = false →
      t.rd SWC_ALGLOSTN = satNat 16 (s.rd SWC_ALGLOSTN + 1) ∧ bit (t.rd (IRQ_RAW 0x0C0)) 3 = true))

/-- SWC_SW_GO at the head, of a kind of Table 15-2 and four cycles to 65,535 cycles ahead, submits the sweep under the next identifier,
held and logged; nearer than four cycles it is TIMEOUT. SWEEP is held by a device with a position and a free place. CMDACK makes a position
REACHED, RESULT EXECUTED, and ends the fetch it answers; elsewhere both go on upstream. SWEEP_EXECUTE runs the first pending sweep
that is due into the local store. REPORT_FINAL makes the report final and logs it. SWC_F_GO asks for a position's result, FETCH answers
from the local store, with SKIPPED where it holds none, and FETCH_TIMEOUT ends with TIMEOUT. The reads of SWC_OFS_LO and
SWC_RHDR latch their companions. -/
def Obligations.SweepsComplete : Prop :=
  (∀ (s : State) (w : RegWrite) (h : Nat), s.admitsWrite 0x0C0 0x068 w (setBit w.data.toNat 8) = true →
    s.swcHead = true → h = s.rd64 SWC_AT_LO SWC_AT_HI →
    bits w.data.toNat 0 4 = 1 ∨ bits w.data.toNat 0 4 = 2 → h ≤ stampNat s.stamp + 65535 * 65536 →
    (stampNat s.stamp + 262144 ≤ h → s.outstanding < 8 → s.swc.enum = none →
      Answers (.swcSwGo w) s fun t =>
        t.resp.code = .ok ∧ t.rd SWC_SW_ID = (s.rd SWC_SW_ID + 1) % 65536 ∧ t.rd SWC_SW_CODE = codeOf .ok ∧
        t.swc.pending = s.swc.pending ++ [⟨(s.rd SWC_SW_ID + 1) % 65536, bits w.data.toNat 0 4, h⟩] ∧
        Logged s t 0x8010 deviceTc ((s.rd SWC_SW_ID + 1) % 65536 + bits w.data.toNat 0 4 * 2 ^ 16 +
          h / 65536 % 2 ^ 32 * 2 ^ 32)) ∧
    (h < stampNat s.stamp + 262144 →
      Answers (.swcSwGo w) s fun t =>
        t.resp.code = .timeout ∧ t.rd SWC_SW_CODE = codeOf .timeout ∧ t.swc = s.swc)) ∧
  (∀ (s u : State) (f : ChainFrame) (b : List Byte), s.chainTake 0x05 12 f = (some b, u) → s.swcHead = false →
    s.rd SWC_POS ≠ 0x3F → leAt b 2 1 = 1 ∨ leAt b 2 1 = 2 → s.swc.pending.length < 8 →
    ((stampNat s.stamp : Int) ≤ s.localOf (leAt b 3 8) → s.on SWC_EN = true →
      Answers (.sweep f) s fun t =>
        t.swc.pending = s.swc.pending ++ [⟨leAt b 0 2, leAt b 2 1, leAt b 3 8⟩] ∧
        (s.on SWC_UPLNK = true → s.on SWC_DNLNK = false →
          t.out = s.out ++ [⟨.chainUp, byteNats (s.chainBytes 0x06 (leBytes 2 (leAt b 0 2) ++
            leBytes 1 (s.rd SWC_POS) ++ leBytes 1 (codeOf .ok)))⟩])) ∧
    (s.localOf (leAt b 3 8) < (stampNat s.stamp : Int) →
      Answers (.sweep f) s fun t => t.swc = s.swc ∧ (s.on SWC_UPLNK = true → s.on SWC_DNLNK = false →
          t.out = s.out ++ [⟨.chainUp, byteNats (s.chainBytes 0x06 (leBytes 2 (leAt b 0 2) ++
            leBytes 1 (s.rd SWC_POS) ++ leBytes 1 (codeOf .timeout)))⟩]))) ∧
  (∀ (s u : State) (f : ChainFrame) (b : List Byte), s.chainTake 0x06 4 f = (some b, u) →
    (s.swcHead = true → Answers (.cmdack f) s fun t =>
      t.swc.reports = s.swc.reports.map fun r =>
        if r.id = leAt b 0 2 then
          { r with entries := r.entries.modify (leAt b 2 1) fun e => if e.st = 0 then { e with st := 1 } else e }
        else r) ∧
    (s.swcHead = false → s.on SWC_UPLNK = true → s.on SWC_OVER = false →
      Answers (.cmdack f) s fun t => t.out = s.out ++ [⟨.chainUp, byteNats f.bytes⟩])) ∧
  (∀ (s : State) (x : Sweep), s.firstSweep = some x → s.swcRuns = true → s.swc.next < 16 →
    s.localOf x.head < ((s.ctf.cyc : Int) + 1) * 65536 →
    Answers .sweepExecute s fun t =>
      t.swc.pending = s.swc.pending.erase x ∧ t.swc.next = (s.swc.next + 1) % 16 ∧
      t.rd (SWC_LR_ID s.swc.next) = x.id % 65536 ∧ t.on (SWC_LR_VALID s.swc.next) = true) ∧
  (∀ (s u : State) (f : ChainFrame) (b : List Byte), s.chainTake 0x07 29 f = (some b, u) →
    (s.swcHead = true →
      (∀ (r : SweepReport) (k : Nat), s.report? (leAt b 0 2) = some r → r.entries.findIdx? (·.eui == leAt b 4 8) = some k →
        Answers (.result f) s fun t => ∃ r', t.report? (leAt b 0 2) = some r' ∧ r'.final = r.final ∧
          r'.entries = r.entries.set k
            ⟨leAt b 4 8, 2, leAt b 3 1, bit (leAt b 28 1) 0, leAt b 12 8, leAt b 20 8⟩) ∧
      (∀ x : FetchRun, s.swc.fetch = some x → x.id = leAt b 0 2 → x.eui = leAt b 4 8 → bit (leAt b 28 1) 0 = true →
        Answers (.result f) s fun t => t.swc.fetch = none ∧ t.rd SWC_F_CODE = codeOf .ok)) ∧
    (s.swcHead = false → s.on SWC_UPLNK = true → s.on SWC_OVER = false →
      Answers (.result f) s fun t => t.out = s.out ++ [⟨.chainUp, byteNats f.bytes⟩])) ∧
  (∀ (s : State) (r : SweepReport),
    (s.swc.reports.find? fun r => !r.final && decide (r.head + s.rd SWC_RWAIT * 65536 ≤ stampNat s.stamp)) = some r →
    Answers .reportFinal s fun t =>
      (∀ x ∈ t.swc.reports, x.id = r.id → x.final = true) ∧ bit (t.rd (IRQ_RAW 0x0C0)) 2 = true ∧
      ∃ l, t.events = s.events ++
        ⟨0x8013, deviceTc, leBytes 8 (r.id + codeOf r.code * 2 ^ 16 + 2 ^ 24)⟩ :: l) ∧
  (∀ (s : State) (w : RegWrite) (r : SweepReport) (e : ReportEntry),
    s.admitsWrite 0x0C0 0x07C w (setBit w.data.toNat 24) = true → s.swcHead = true →
    s.report? (bits w.data.toNat 0 16) = some r → r.entries[bits w.data.toNat 16 6]? = some e →
    Answers (.swcFGo w) s fun t => t.resp.code = .ok ∧ t.swc.fetch = some ⟨r.id, e.eui, s.clk⟩) ∧
  (∀ (s u : State) (f : ChainFrame) (b : List Byte), s.chainTake 0x08 10 f = (some b, u) → s.swcHead = false →
    leAt b 2 8 = s.eui → s.on SWC_UPLNK = true →
    ((∀ k < 16, ¬(s.on (SWC_LR_VALID k) = true ∧ s.rd (SWC_LR_ID k) = leAt b 0 2)) →
      Answers (.fetch f) s fun t => t.out = s.out ++ [⟨.chainUp, byteNats (s.chainBytes 0x07
        (s.resultPayload (leAt b 0 2) (codeOf .skipped) 0 0 true))⟩]) ∧
    (∀ k < 16, s.on (SWC_LR_VALID k) = true → s.rd (SWC_LR_ID k) = leAt b 0 2 →
      (∀ j < 16, s.on (SWC_LR_VALID j) = true → s.rd (SWC_LR_ID j) = leAt b 0 2 → j = k) →
      Answers (.fetch f) s fun t => t.out = s.out ++ [⟨.chainUp, byteNats (s.chainBytes 0x07
        (s.resultPayload (leAt b 0 2) (s.rd (SWC_LR_STS k)) (s.rd (SWC_LR_STAMP k)) (s.rd (SWC_LR_DATUM k))
          true))⟩])) ∧
  (∀ (s : State) (f : FetchRun), s.swc.fetch = some f → s.rd CTF_PERIOD ≠ 0 →
    Answers .fetchTimeout s fun t =>
      t.swc.fetch = none ∧ t.rd SWC_F_CODE = codeOf .timeout ∧ f.clk + msTicks 1 ≤ t.clk) ∧
  (∀ (s : State) (r : RegRead), s.admitsRead 0x0C0 0x04C r = true →
    Answers (.swcOfsRead r) s fun t =>
      t.resp.code = .ok ∧ t.resp.data = [s.rd SWC_OFS_LO] ∧
      cellAt 0#32 (regKey 0x0C0 0x050) t.latch = BitVec.ofNat 32 (s.reg 0x0C0 0x050) ∧
      cellAt 0#32 (regKey 0x0C0 0x054) t.latch = BitVec.ofNat 32 (s.reg 0x0C0 0x054)) ∧
  (∀ (s : State) (r : RegRead), s.admitsRead 0x0C0 0x084 r = true →
    Answers (.swcRhdrRead r) s fun t =>
      t.resp.code = .ok ∧ t.resp.data = [shownWord (RegMap.fieldsAt 0x0C0 0x084) (t.reg 0x0C0 0x084)] ∧
      t.rd SWC_R_CODE = codeOf (((s.report? (s.rd SWC_R_ID)).map (·.code)).getD .cfgInvalid) ∧
      t.on SWC_R_FINAL = ((s.report? (s.rd SWC_R_ID)).map (·.final)).getD false)

/-! ## Tamper monitors and the Cask log (chapter 16) -/

/-- MAG_ON of a source that is wired, not on and, for a Hall site, at its threshold turns its condition on, counts and logs it; MAG_OFF
releases it with its duration; ENC_OPEN and ENC_CLOSE do the same for an enclosure input. The first glitch of a detector opens a run with a
START entry, a later one counts in the run, and GLITCH_RUN_END ends it with the count in the END entry. TEMP_OUT turns the temperature
condition on for a reading outside the range, or for none valid; TEMP_BACK inside it by the hysteresis releases it. -/
def Obligations.TamperComplete : Prop :=
  (∀ (s : State) (k : Fin 10) (b peak : BitVec 16), s.tmp.mags.any (·.1 == k.val) = false → s.magWired k.val = true →
    (k.val < 2 → s.cfg TMP_HTH ≤ b.toNat) →
    Answers (.magOn k b peak) s fun t =>
      t.tmp.mags.any (·.1 == k.val) = true ∧ t.rd TMP_MAGN = satNat 16 (s.rd TMP_MAGN + 1) ∧
      bit (t.rd (IRQ_RAW 0x0C8)) 0 = true ∧
      Logged s t 0x1001 deviceTc (k.val + (if k.val < 2 then peak.toNat else 0) * 2 ^ 16)) ∧
  (∀ (s : State) (k : Fin 10) (b : BitVec 16) (c : Nat × TmpCond), s.tmp.mags.find? (·.1 == k.val) = some c →
    (k.val < 2 → b.toNat < s.cfg TMP_HTH - s.cfg TMP_HHYS) →
    Answers (.magOff k b) s fun t =>
      t.tmp.mags.any (·.1 == k.val) = false ∧ bit (t.rd (IRQ_RAW 0x0C8)) 0 = true ∧
      Logged s t 0x1002 deviceTc (k.val + satNat 32 (s.msSince c.2.since) * 2 ^ 32)) ∧
  (∀ (s : State) (k : Fin 4), s.tmp.encs.any (·.1 == k.val) = false → bit (s.cfg TMP_EEN) k.val = true →
    Answers (.encOpen k) s fun t =>
      t.tmp.encs.any (·.1 == k.val) = true ∧ t.rd TMP_ENCN = satNat 16 (s.rd TMP_ENCN + 1) ∧
      bit (t.rd (IRQ_RAW 0x0C8)) 1 = true ∧ Logged s t 0x1011 deviceTc k.val) ∧
  (∀ (s : State) (k : Fin 4) (c : Nat × TmpCond), s.tmp.encs.find? (·.1 == k.val) = some c →
    Answers (.encClose k) s fun t =>
      t.tmp.encs.any (·.1 == k.val) = false ∧
      Logged s t 0x1012 deviceTc (k.val + satNat 32 (s.msSince c.2.since) * 2 ^ 32)) ∧
  (∀ (s : State) (k : Fin 6) (high : Bool),
    Answers (.supplyGlitch k high) s fun t =>
      t.rd TMP_SGLN = satNat 16 (s.rd TMP_SGLN + 1) ∧
      (s.tmp.runs.find? (·.1 == k.val) = none → t.tmp.runs.find? (·.1 == k.val) = some (k.val, ⟨0, s.clk⟩) ∧
        Logged s t 0x1021 deviceTc (k.val + (1 + b2n high) * 2 ^ 8)) ∧
      (∀ r, s.tmp.runs.find? (·.1 == k.val) = some r →
        t.tmp.runs.find? (·.1 == k.val) = some (k.val, ⟨r.2.count + 1, s.clk⟩) ∧ t.events = s.events)) ∧
  (∀ s : State, Answers (.clockGlitch false) s fun t =>
    t.rd TMP_CGLN = satNat 16 (s.rd TMP_CGLN + 1) ∧
    (s.tmp.runs.find? (·.1 == 6) = none → Logged s t 0x1031 deviceTc 0) ∧
    (s.ctf.xt32 = true → s.tmp.runs.find? (·.1 == 7) = none →
      Answers (.clockGlitch true) s fun u =>
        u.ctf.xt32 = false ∧ u.on CTF_UTC_EST = true ∧ Logged s u 0x1031 deviceTc 1)) ∧
  (∀ (s : State) (k : Fin 8) (r : Nat × GlitchRun), k.val < 7 → s.tmp.runs.find? (·.1 == k.val) = some r →
    Answers (.glitchRunEnd k) s fun t =>
      t.tmp.runs.any (·.1 == k.val) = false ∧
      Logged s t (if k.val < 6 then 0x1022 else 0x1032) deviceTc
        ((if k.val < 6 then k.val else k.val - 6) + satNat 32 r.2.count * 2 ^ 32)) ∧
  (∀ (s : State) (x : BitVec 16), s.tmp.temp = none →
    Answers (.tempOut false x) s (fun t => t.tmp.temp = some ⟨s.clk, 2⟩ ∧ Logged s t 0x1041 deviceTc 2) ∧
    (x.toInt < s.tempLow → Answers (.tempOut true x) s fun t =>
      t.tmp.temp = some ⟨s.clk, 0⟩ ∧ t.on TMP_TLOW = true ∧
      Logged s t 0x1041 deviceTc (unsigned 8 (divRound x.toInt 10) * 2 ^ 8)) ∧
    (s.tempLow ≤ x.toInt → s.tempHigh < x.toInt → Answers (.tempOut true x) s fun t =>
      t.tmp.temp = some ⟨s.clk, 1⟩ ∧ t.on TMP_THIGH = true ∧
      Logged s t 0x1041 deviceTc (1 + unsigned 8 (divRound x.toInt 10) * 2 ^ 8))) ∧
  (∀ (s : State) (x : BitVec 16) (c : TmpCond), s.tmp.temp = some c →
    s.tempLow + 10 * s.cfg TMP_THYS ≤ x.toInt → x.toInt ≤ s.tempHigh - 10 * s.cfg TMP_THYS →
    Answers (.tempBack x) s fun t =>
      t.tmp.temp = none ∧ t.on TMP_TLOW = false ∧ t.on TMP_THIGH = false ∧
      Logged s t 0x1042 deviceTc (c.kind + satNat 32 (s.msSince c.since) * 2 ^ 32))

/-- LOG_EVENT takes the oldest event: before the seed it is held; in the normal mode, within a block, its entry stands in the slot at the head, its
hash chained to the newest one. SEAL_WRITE signs the oldest closed block, or without the identity key seals it with zeros. CLG_SEALNOW pads and
closes the block at the head. CLG_RELEASE of sealed blocks moves the tail and is logged; below the tail it is ZERO_LEN. The read
of CLG_RDW0 answers the slot selected, or CFG_INVALID. CLG_EXP_GO of retained blocks into the windows starts an export, and
EXPORT_COMPLETE writes it. CLG_FW_CODE logs the codes of firmware and refuses others. FULLCNT_SAVE saves the control record. That released blocks
stay readable is the model's choice of log entry 27, and the record's layout of log entry 26. -/
def Obligations.CaskLogComplete : Prop :=
  (∀ (s : State) (e : LogEvent) (l : List LogEvent), s.events = e :: l → s.celBlocked = false →
    (s.ctf.seeded = false → s.clg.early.length < 128 →
      Answers .logEvent s fun t => t.events = l ∧ t.clg.early = s.clg.early ++ [e]) ∧
    (∀ h : List Byte, s.ctf.seeded = true → s.rd CLG_MODE = 0 → s.clg.table = [] → s.logPos ≠ 0 → s.logPos < 253 →
      s.rd CLG_RESV + 33 < s.logFree → h = s.entryHead e.code e.tc (leNat e.data) false →
      Answers .logEvent s fun t =>
        t.events = l ∧ t.logPos = s.logPos + 1 ∧ t.logHead = s.logHead ∧
        t.slotRaw s.logHead s.logPos = h ++ leBytes 8 (trunc8 (leBytes 8 s.lastHash ++ h)) ∧
        t.lastHash = trunc8 (leBytes 8 s.lastHash ++ h))) ∧
  (∀ (s : State) (b : Nat) (l : List Nat), s.clg.signing = b :: l → s.celBlocked = false →
    (s.on SEC_IDOK = true → s.on SEC_RBGERR = false →
      Answers .sealWrite s fun t =>
        t.clg.signing = l ∧ bit (t.rd (IRQ_RAW 0x0CC)) 0 = true ∧ t.clg.ctl = s.clg.ctl + 1) ∧
    (s.on SEC_IDOK = false → Answers .sealWrite s fun t => bit (t.rd (IRQ_RAW 0x0CC)) 2 = true)) ∧
  (∀ (s : State) (w : RegWrite), s.admitsWrite 0x0CC 0x05C w (setBit w.data.toNat 0) = true → s.logFull = false →
    s.ctf.seeded = true → s.celBlocked = false → s.clg.table = [] → s.logPos ≤ 254 → s.logHead + 1 < 2 ^ 32 →
    Answers (.clgSealnow w) s fun t =>
      t.resp.code = .ok ∧ t.clg.sealNow = some s.logHead ∧ s.logHead ∈ t.clg.signing ∧
      t.logHead = s.logHead + 1 ∧ t.logPos = 0) ∧
  (∀ (s : State) (w : RegWrite), s.admitsWrite 0x0CC 0x058 w w.data.toNat = true → s.clg.known = true →
    (s.logTail < w.data.toNat → w.data.toNat ≤ s.logHead → (∀ b ∈ s.clg.signing, w.data.toNat ≤ b) →
      s.logFull = false →
      Answers (.clgRelease w) s fun t =>
        t.resp.code = .ok ∧ t.logTail = w.data.toNat ∧ t.rd CLG_CCODE = codeOf .ok ∧
        Logged s t 0x4042 deviceTc w.data.toNat) ∧
    (w.data.toNat ≤ s.logTail → w.data.toNat ≤ s.logHead →
      Answers (.clgRelease w) s fun t =>
        t.resp.code = .zeroLen ∧ t.logTail = s.logTail ∧ t.rd CLG_CCODE = codeOf .zeroLen ∧ t.events = s.events)) ∧
  (∀ (s : State) (r : RegRead), r.tc.val = 0 → s.admitsRead 0x0CC 0x080 r = true →
    (∀ e, s.blockHeld (s.rd CLG_RD_BLK) = true → s.rd CLG_RD_POS < s.slotsIn (s.rd CLG_RD_BLK) →
      (s.slotBytes (s.rd CLG_RD_BLK) (s.rd CLG_RD_POS)).1 = some e →
      Answers (.clgRdw0Read r) s fun t =>
        t.resp.code = .ok ∧ t.resp.data = [leAt e 0 4] ∧ t.rd CLG_RD_CODE = codeOf .ok ∧
        ∀ k < 8, t.rd (CLG_RDW k) = leAt e (4 * k) 4) ∧
    (s.blockHeld (s.rd CLG_RD_BLK) = false →
      Answers (.clgRdw0Read r) s fun t =>
        t.resp.data = [0] ∧ t.rd CLG_RD_CODE = codeOf .cfgInvalid)) ∧
  (∀ (s : State) (w : RegWrite) (d : Nat), w.tc.val = 0 →
    s.admitsWrite 0x0CC 0x0B0 w (setBit w.data.toNat 0) = true → s.on CLG_EXP_BUSY = false →
    d = s.rd CLG_ED_LO * 64 + s.rd CLG_ED_HI * 2 ^ 32 →
    (∀ k < s.rd CLG_EXP_CNT, s.blockHeld (s.rd CLG_EXP_BLK + k) = true) →
    (s.rd CLG_EXP_CNT ≠ 0 → s.tenantMay 0 true d (128 + 8192 * s.rd CLG_EXP_CNT) = true →
      Answers (.clgExpGo w) s fun t =>
        t.resp.code = .ok ∧ t.on CLG_EXP_BUSY = true ∧
        t.clg.exports = s.clg.exports ++ [⟨0x0CC, s.rd CLG_EXP_BLK, s.rd CLG_EXP_CNT, d, 0, none⟩]) ∧
    (s.rd CLG_EXP_CNT = 0 →
      Answers (.clgExpGo w) s fun t =>
        t.rd CLG_EXP_CODE = codeOf .zeroLen ∧ t.clg.exports = s.clg.exports)) ∧
  (∀ (s : State) (x : ExportRun) (l : List ExportRun), s.clg.exports = x :: l →
    Answers .exportComplete s fun t =>
      t.clg.exports = l ∧ t.rd (inSet x.set CLG_EXP_CODE) = codeOf .ok ∧ t.on (inSet x.set CLG_EXP_BUSY) = false ∧
      t.mem = memStore s.mem x.dst (s.exportHeader x ++ (List.range x.count).flatMap fun k =>
        s.exportBlock x.view (x.first + k))) ∧
  (∀ (s : State) (w : RegWrite), s.admitsWrite 0x0CC 0x0C8 w w.data.toNat = true →
    (firmwareTc (bits w.data.toNat 0 16) = some (bits w.data.toNat 16 8) →
      Answers (.clgFwCode w) s fun t =>
        t.resp.code = .ok ∧ t.rd CLG_FW_CCODE = codeOf .ok ∧
        Logged s t (bits w.data.toNat 0 16) (bits w.data.toNat 16 8) (s.rd CLG_FD_LO + 2 ^ 32 * s.rd CLG_FD_HI)) ∧
    (firmwareTc (bits w.data.toNat 0 16) = none →
      Answers (.clgFwCode w) s fun t =>
        t.resp.code = .cfgInvalid ∧ t.rd CLG_FW_CCODE = codeOf .cfgInvalid ∧ t.events = s.events)) ∧
  (∀ s : State, s.logFull = true → s.clg.known = true → s.celBlocked = false →
    Answers .fullcntSave s fun t =>
      t.clg.ctl = s.clg.ctl + 1 ∧
      ((List.range 16).flatMap fun k => leBytes 8 ((t.celRaw (celGroup
        (if (s.clg.ctl + 1) % 2 = 1 then 0x80100 else 0x80180) + k)).toNat % 2 ^ 64)) = s.logRecord)

/-! ## The security engine (chapter 17) -/

namespace Sys2Proof.Machine

/-- A completion record of the security engine (Table 17-6). -/
def secRecordOf (s : State) (w : Nat) (c : Status) (res : Bool) (gen olen : Nat) : Nat :=
  withCrc32 (sdItem w + codeOf c * 2 ^ 16 + b2n res * 2 ^ 24 + sdSlot w * 2 ^ 32 + gen * 2 ^ 40 + olen * 2 ^ 48 +
    stampNat s.stamp * 2 ^ 72)

/-- The item `x` has left the queue and runs on unit `u`, with what it latched of its slot and what it will give. -/
def SecRuns (s t : State) (op u : Nat) (x : RingItem) (out : List Byte) (res : Bool) (put : Option KeyPut) : Prop :=
  t.sec.items = s.sec.items.erase x ∧
  t.sec.ops = s.sec.ops ++ [⟨x, op, u, sdSlot x.word.toNat, s.slotGen (sdSlot x.word.toNat),
    secNames op && op != 0x10 && op != 0x11 && op != 0x12, out, sdOut x.word.toNat, res,
    firstOf (if s.itemLate x then .delayed else .ok) s.okOr, put⟩] ∧
  t.sec.mats = s.sec.mats ∧ t.mem = s.mem

/-- The next item of an opcode and the unit free for it, which passes the checks made at its start. -/
def SecReady (s : State) (op u : Nat) (x : RingItem) : Prop := s.secNext op = some (u, x) ∧ s.secStartCheck x = none

/-- A write of SEC_OCMD that gives exactly the command of bit `b`. -/
def SecOcmd (s : State) (w : RegWrite) (b : Nat) : Prop :=
  s.admitsWrite 0x0D0 0x04C w (setBit w.data.toNat b) = true ∧ setBit w.data.toNat b % 32 = 2 ^ b

/-- An OTP command has completed with a code. -/
def OtpDone (t : State) (c : Status) : Prop :=
  t.resp.code = .ok ∧ t.rd SEC_O_CODE = codeOf c ∧ bit (t.rd (IRQ_RAW 0x0D0)) 2 = true

end Sys2Proof.Machine

/-- SEC_RING_POLL of an enabled ring of TCt in D0 to D2: outside the windows, or with more new descriptors than slots, it faults once with
its entry; with one new descriptor and no record held it takes it, and the item is admitted, or its record with the failed check's code is written.
Each operation starts for the next item of its opcode whose unit is free and which passes the checks of its start: the item leaves the queue, its slot's
generation is latched, and the output is that of the algorithm on the bytes of the input and the material: SHA-256, HMAC, CCM both
ways (zeros and result 0 where the tag fails), an ECDSA signature, its verification, HKDF of the ECDH secret for the destination slot,
random bytes, the material of a LOAD or GENERATE for its slot, and the public key. The random bits are free values (log entry 7). -/
def Obligations.SecurityStartsComplete : Prop :=
  (∀ (s : State) (k : Fin 64) (r : CmdRing), s.on SEC_EN = true → s.on (SEC_REN k.val) = true → s.level < 3 →
    s.sec.stopped.contains k.val = false → r = s.secRing k.val →
    (s.cmdRingMay k.val r = false ∨ 2 ^ r.sl < s.cmdNew r → s.on (SEC_RFAULT k.val) = false →
      Answers (.secRingPoll k) s fun t =>
        t.on (SEC_RFAULT k.val) = true ∧ bit (t.rd (IRQ_RAW 0x0D0)) 3 = true ∧ Logged s t 0x5007 k.val 0 ∧
        SameBut [.regs, .events] s t) ∧
    (s.cmdRingMay k.val r = true → s.cmdNew r = 1 → (∀ h ∈ s.sec.held, h.key ≠ k.val) →
      Answers (.secRingPoll k) s fun t =>
        t.ringIdx (r.base + 0x04) = s.ringIdx r.base ∧ t.on (SEC_RFAULT k.val) = false ∧
        (s.secCheck k.val (s.cmdNext r) = none →
          (s.takeQuota 3 k.val (max 1 (ceilDiv (sdIlen (s.cmdNext r)) 8192))).isSome = true →
          t.sec.items = s.sec.items ++ [⟨k.val, s.rd (TNC_CLASS k.val), BitVec.ofNat 512 (s.cmdNext r),
            max 1 (ceilDiv (sdIlen (s.cmdNext r)) 8192), s.periodOf 3, stampNat s.stamp⟩]) ∧
        (∀ c, s.secCheck k.val (s.cmdNext r) = some c → s.cmdRoom r = true →
          t.sec = s.sec ∧ t.ringIdx (r.base + 0x08) = (s.ringIdx (r.base + 0x08) + 1) % 65536 ∧
          t.bytes (r.rec' (s.ringIdx (r.base + 0x08))) 32 =
            leBytes 32 (secRecordOf s (s.cmdNext r) c false (s.slotGen (sdSlot (s.cmdNext r))) 0)))) ∧
  (∀ (s : State) (u : Nat) (x : RingItem) (w : Nat) (key : List Byte), w = x.word.toNat → key = s.slotMat (sdSlot w) →
    (SecReady s 0x01 u x →
      Answers .sha256 s fun t => SecRuns s t 0x01 u x (sha256 (s.secInput w)) true none) ∧
    (SecReady s 0x02 u x →
      Answers .hmac s fun t => SecRuns s t 0x02 u x (hmac key (s.secInput w)) true none) ∧
    (SecReady s 0x03 u x →
      Answers .ccmEnc s fun t => SecRuns s t 0x03 u x
        (ccmSeal key (s.secNonce w) (s.secAad w) (s.secInput w) (2 * sdP1 w)) true none) ∧
    (SecReady s 0x04 u x →
      Answers .ccmDec s fun t =>
        (∀ m, ccmOpen key (s.secNonce w) (s.secAad w) (s.secInput w) (2 * sdP1 w) = some m →
          SecRuns s t 0x04 u x m true none) ∧
        (ccmOpen key (s.secNonce w) (s.secAad w) (s.secInput w) (2 * sdP1 w) = none →
          SecRuns s t 0x04 u x (List.replicate (sdIlen w - 2 * sdP1 w) 0) false none)) ∧
    (SecReady s 0x05 u x →
      Answers .sign s fun t => SecRuns s t 0x05 u x (s.signWith (beNat key) (s.secInput w) 8).1 true none) ∧
    (SecReady s 0x06 u x → sdAlen w = 64 →
      Answers .verify s fun t => SecRuns s t 0x06 u x [] (ecdsaVerify
        (if key.length = 32 then ecPublic (beNat key) else (beNat (key.take 32), beNat (key.drop 32)))
        (s.secInput w) (beNat (s.bytes (sdAux w) 32)) (beNat (s.bytes (sdAux w + 32) 32))) none) ∧
    (SecReady s 0x07 u x →
      Answers .ecdh s fun t => SecRuns s t 0x07 u x [] true (some ⟨sdDst w, sdP0 w, sdUse w, sdPers w,
        s.slotOwn (sdDst w), hkdf ((s.bytes (sdAux w) (sdAlen w)).take 32)
          (beBytes 32 ((ecMul 256 (beNat key) (some (beNat ((s.secInput w).take 32),
            beNat ((s.secInput w).drop 32)))).getD (0, 0)).1)
          ((s.bytes (sdAux w) (sdAlen w)).drop 32) (typeLen (sdP0 w))⟩)) ∧
    (SecReady s 0x08 u x →
      Answers .random s fun t =>
        SecRuns s t 0x08 u x (s.randomBytes (sdIlen w)).1 true none ∧ t.free = s.free + sdIlen w) ∧
    (SecReady s 0x10 u x →
      Answers .load s fun t => SecRuns s t 0x10 u x [] true
        (some ⟨sdSlot w, sdP0 w, sdUse w, sdPers w, s.slotOwn (sdSlot w), s.secInput w⟩)) ∧
    (SecReady s 0x11 u x →
      Answers .generate s fun t => ∃ m, (sdP0 w = 4 → 1 ≤ beNat m ∧ beNat m < ecN) ∧
        m.length = (if sdP0 w = 4 then 32 else typeLen (sdP0 w)) ∧
        SecRuns s t 0x11 u x [] true (some ⟨sdSlot w, sdP0 w, sdUse w, sdPers w, s.slotOwn (sdSlot w), m⟩)) ∧
    (SecReady s 0x13 u x →
      Answers .pubkey s fun t => SecRuns s t 0x13 u x (pointBytes (ecPublic (beNat key))) true none))

/-- SEC_OP_COMPLETE of a unit's operation stores its output and its record, and a rewrite puts type, usage, owner, the next
generation and the material into the slot and logs KEY_LOAD. ERASE empties the slot at the next generation; with no contents held it completes
at once with KEY_ERASE, else it waits. ERASE_DEADLINE, 2 ms after, aborts the operations that hold the contents and
counts them in KEY_ERASE. RBG_FAIL sets SEC_RBGERR and counts; RBG_RECOVER clears it no sooner than 1,024 samples later.
SEC_RBADV sets the counter to MGC_B_SVN; SEC_REVK0 and 1 revoke a root key that is not the running one; SEC_IDARM arms, and an armed
SEC_IDRETIRE erases slot 0 and sets the retired bit; each refusal has its code. -/
def Obligations.SecurityEndsComplete : Prop :=
  (∀ (s : State) (u : Fin 6) (o : SecOp) (w : Nat), s.sec.ops.find? (·.unit == u.val) = some o → w = o.item.word.toNat →
    o.code = .ok ∨ o.code = .holdover → s.sec.erases = [] →
    (o.put = none → s.sec.stopped.contains o.item.tc = false → (∀ h ∈ s.sec.held, h.key ≠ o.item.tc) →
      (s.store o.addr o.out).cmdRoom (s.secRing o.item.tc) = true →
      Answers (.secOpComplete u) s fun t =>
        t.sec = { s.sec with ops := s.sec.ops.filter (· != o) } ∧ t.rd SEC_OPN = satNat 16 (s.rd SEC_OPN + 1) ∧
        t.events = s.events ∧
        t.mem = ((s.store o.addr o.out).cmdPut (s.secRing o.item.tc)
          (secRecordOf s w o.code o.res o.gen o.out.length)).mem) ∧
    (∀ p, o.put = some p → p.slot < 32 → p.pers = false →
      Answers (.secOpComplete u) s fun t =>
        t.slotType p.slot = p.type % 8 ∧ t.rd (SEC_S_USE p.slot) = p.use % 64 ∧ t.slotOwn p.slot = p.owner % 64 ∧
        t.slotGen p.slot = (s.slotGen p.slot + 1) % 256 ∧ t.on (SEC_S_PERSIST p.slot) = false ∧
        t.slotMat p.slot = p.mat ∧ t.sec.ops = s.sec.ops.filter (· != o) ∧
        Logged s t 0x5011 p.owner (p.slot + (s.slotGen p.slot + 1) % 256 * 2 ^ 8 + p.type * 2 ^ 16))) ∧
  (∀ (s : State) (u : Nat) (x : RingItem) (k : Nat), SecReady s 0x12 u x → k = sdSlot x.word.toNat →
    s.on (SEC_S_PERSIST k) = false → s.sec.erases = [] → s.itemLate x = false →
    ((∀ o ∈ s.sec.ops, ¬(o.holds = true ∧ o.slot = k)) →
      Answers .erase s fun t =>
        t.slotType k = 0 ∧ t.slotGen k = (s.slotGen k + 1) % 256 ∧ t.slotMat k = [] ∧
        t.sec.items = s.sec.items.erase x ∧ t.sec.erases = [] ∧ bit (t.rd (IRQ_RAW 0x0D0)) 1 = true ∧
        t.rd SEC_OPN = satNat 16 (s.rd SEC_OPN + 1) ∧
        Logged s t 0x5012 x.tc (k + (s.slotGen k + 1) % 256 * 2 ^ 8)) ∧
    ((∃ o ∈ s.sec.ops, o.holds = true ∧ o.slot = k) →
      Answers .erase s fun t =>
        t.slotType k = 0 ∧ t.slotGen k = (s.slotGen k + 1) % 256 ∧ t.slotMat k = [] ∧
        t.sec.ops = s.sec.ops ∧ t.rd (SEC_S_STATE k) = 2 ∧ t.events = s.events ∧
        t.sec.erases = [⟨k, s.clk, 0, some x, false, x.tc,
          (s.sec.ops.filter fun o => o.holds && o.slot == k).map (·.gen)⟩])) ∧
  (∀ (s : State) (k : Fin 32) (e : SecErase), s.sec.erases = [e] → e.slot = k.val → s.rd CTF_PERIOD ≠ 0 →
    Answers (.eraseDeadline k) s fun t =>
      e.clk + msTicks 2 ≤ t.clk ∧ t.sec.ops = s.sec.ops.filter (fun o => !e.heldBy o) ∧
      (s.sec.ops.any e.heldBy = true → t.sec.erases = [] ∧
        (e.item = none → e.command = false →
          t.rd SEC_ABORTN = satNat 16 (s.rd SEC_ABORTN + (s.sec.ops.filter e.heldBy).length) ∧
          Logged s t 0x5012 e.owner (e.slot + s.slotGen e.slot * 2 ^ 8 +
            (e.aborted + (s.sec.ops.filter e.heldBy).length) * 2 ^ 16)))) ∧
  (∀ s : State, Answers .rbgFail s fun t =>
    t.on SEC_RBGERR = true ∧ t.rd SEC_RBGFAILN = satNat 16 (s.rd SEC_RBGFAILN + 1) ∧ t.sec.failed = some s.clk ∧
    (s.on SEC_RBGERR = false → bit (t.rd (IRQ_RAW 0x0D0)) 0 = true)) ∧
  (∀ (s : State) (c : Nat), s.on SEC_RBGERR = true → s.sec.failed = some c → s.rd CTF_PERIOD ≠ 0 →
    Answers .rbgRecover s fun t =>
      t.on SEC_RBGERR = false ∧ c + 48 * 1024 * 65536 ≤ t.clk ∧ bit (t.rd (IRQ_RAW 0x0D0)) 0 = true) ∧
  (∀ (s : State) (w : RegWrite), SecOcmd s w 0 →
    (s.ccx.bootOk = false → Answers (.secRbadv w) s fun t => OtpDone t .prot ∧ t.sec = s.sec) ∧
    (s.ccx.bootOk = true → s.celBlocked = true → Answers (.secRbadv w) s fun t => OtpDone t .powerLost ∧ t.sec = s.sec) ∧
    (s.ccx.bootOk = true → s.celBlocked = false → s.level < 3 →
      (s.rd MGC_B_SVN ≤ s.rollback → Answers (.secRbadv w) s fun t => OtpDone t .skipped ∧ t.sec = s.sec) ∧
      (s.rollback < s.rd MGC_B_SVN →
        Answers (.secRbadv w) s fun t =>
          OtpDone t .ok ∧ t.rollback = s.rd MGC_B_SVN ∧ t.rd SEC_RBC = s.rd MGC_B_SVN))) ∧
  (∀ (s : State) (w : RegWrite), s.celBlocked = false → s.level < 3 →
    (SecOcmd s w 1 →
      (s.ccx.kidx ≠ 0 → Answers (.secRevk0 w) s fun t => OtpDone t .ok ∧ t.otpField 63 = true ∧ bit (t.rd SEC_REVK) 0 = true) ∧
      (s.ccx.kidx = 0 → Answers (.secRevk0 w) s fun t => OtpDone t .prot ∧ t.sec = s.sec)) ∧
    (SecOcmd s w 2 →
      (s.ccx.kidx ≠ 1 → Answers (.secRevk1 w) s fun t => OtpDone t .ok ∧ t.otpField 64 = true ∧ bit (t.rd SEC_REVK) 1 = true) ∧
      (s.ccx.kidx = 1 → Answers (.secRevk1 w) s fun t => OtpDone t .prot ∧ t.sec = s.sec)) ∧
    (SecOcmd s w 3 →
      Answers (.secIdarm w) s fun t =>
        t.resp.code = .ok ∧ t.sec = { s.sec with armed := some s.ticks }) ∧
    (SecOcmd s w 4 →
      (∀ a, s.sec.armed = some a → s.ticks ≤ a + 65536 → s.sec.erases = [] →
        Answers (.secIdretire w) s fun t =>
          OtpDone t .ok ∧ t.otpField 65 = true ∧ t.on SEC_IDRET = true ∧ t.on SEC_IDOK = false ∧ t.slotType 0 = 0) ∧
      (s.sec.armed = none ∨ (∃ a, s.sec.armed = some a ∧ a + 65536 < s.ticks) →
        Answers (.secIdretire w) s fun t => OtpDone t .timeout ∧ t.sec.otp = s.sec.otp ∧ t.sec.mats = s.sec.mats)))

/-! ## The Cellar (chapter 18) -/

namespace Sys2Proof.Machine

/-- A completion record of the Cellar (Table 18-4) after `n` groups. -/
def celRecordOf (s : State) (w : Nat) (c : Status) (n corr : Nat) : Nat :=
  withCrc32 (cdItem w + codeOf c * 2 ^ 16 + (n + 65535) % 65536 * 2 ^ 32 + corr * 2 ^ 48 + stampNat s.stamp * 2 ^ 64)

/-- The groups from `g` on hold the data of `l` with their check bits, and every other group is as before. -/
def Written (s t : State) (g : Nat) (l : List Nat) : Prop :=
  (∀ i d, l[i]? = some d → t.celRaw (g + i) = celWord (g + i) d) ∧
  ∀ j, j < g ∨ g + l.length ≤ j → t.celRaw j = s.celRaw j

/-- The next command by the order of service, of opcode `op`, which passes the checks made at its start. -/
def CelReady (s : State) (op : Nat) (x : RingItem) : Prop :=
  s.celBlocked = false ∧ s.cel.run = none ∧ s.nextItem 4 s.cel.items (fun _ => true) = some x ∧
  cdOp x.word.toNat = op ∧ s.celStartCheck x = none

/-- A command has left the queue and runs with its data; nothing is stored yet. -/
def CelRuns (s t : State) (x : RingItem) (l : List Nat) : Prop :=
  t.cel.items = s.cel.items.erase x ∧ t.cel.run = some ⟨x, l.map (BitVec.ofNat 64), s.itemLate x⟩ ∧
  t.on CEL_BUSY = true ∧ t.cel.groups = s.cel.groups ∧ t.mem = s.mem

/-- The ring of a tenant takes a record now. -/
def CelRoom (s : State) (k : Nat) : Prop :=
  s.cel.stopped.contains k = false ∧ (∀ h ∈ s.cel.held, h.key ≠ k) ∧ s.cmdRoom (s.celRing k) = true

end Sys2Proof.Machine

/-- CEL_RING_POLL of an enabled ring faults once outside the windows or with too many descriptors; of a ring with one new descriptor it
takes it: admitted, or its record with the failed check's code. CEL_READ, CEL_WRITE and CEL_ZERO start the next command of their kind. CEL_COMMAND_COMPLETE
stores exactly the groups of a WRITE or ZERO with their check bits, or the bytes read, and its record; a group
that fails its verify ends it with INTEG_FAIL there. SCRUB reads the next group: clean, corrected and restored, or found bad, recorded and
logged. CEL_UNRESV of a reserved unit starts its wipe; CEL_BPARM arms and CEL_BP_WRITE raises protection, or lowers it when armed. CEL_M_GO writes or
reads the groups of the port, with its code. UNIT_WIPE_DONE writes the unit to zero and gives it its next state. That TC00 holds a
tenant unit at home is the reading of log entry 35. -/
def Obligations.CellarComplete : Prop :=
  (∀ (s : State) (k : Fin 64) (r : CmdRing), s.on CEL_EN = true → s.on (CEL_REN k.val) = true → s.level < 3 →
    s.cel.stopped.contains k.val = false → s.celBlocked = false → r = s.celRing k.val →
    (s.cmdRingMay k.val r = false ∨ 2 ^ r.sl < s.cmdNew r → s.on (CEL_RFAULT k.val) = false →
      Answers (.celRingPoll k) s fun t =>
        t.on (CEL_RFAULT k.val) = true ∧ bit (t.rd (IRQ_RAW 0x0D8)) 4 = true ∧ Logged s t 0x5007 k.val 0 ∧
        SameBut [.regs, .events] s t) ∧
    (s.cmdRingMay k.val r = true → s.cmdNew r = 1 → (∀ h ∈ s.cel.held, h.key ≠ k.val) →
      Answers (.celRingPoll k) s fun t =>
        t.ringIdx (r.base + 0x04) = s.ringIdx r.base ∧ t.on (CEL_RFAULT k.val) = false ∧
        (∀ n, s.celCheck k.val (s.cmdNext r) = none →
          n = (if cdOp (s.cmdNext r) = 1 then 0 else cdNgrp (s.cmdNext r)) → (s.takeQuota 4 k.val n).isSome = true →
          t.cel.items = s.cel.items ++ [⟨k.val, s.rd (TNC_CLASS k.val), BitVec.ofNat 512 (s.cmdNext r), n,
            s.periodOf 4, stampNat s.stamp⟩]) ∧
        (∀ c, s.celCheck k.val (s.cmdNext r) = some c → s.cmdRoom r = true →
          t.cel = s.cel ∧ t.ringIdx (r.base + 0x08) = (s.ringIdx (r.base + 0x08) + 1) % 65536 ∧
          t.bytes (r.rec' (s.ringIdx (r.base + 0x08))) 32 = leBytes 32 (celRecordOf s (s.cmdNext r) c 0 0)))) ∧
  (∀ (s : State) (x : RingItem),
    (CelReady s 1 x → Answers .celRead s fun t => CelRuns s t x []) ∧
    (CelReady s 2 x → Answers .celWrite s fun t =>
      CelRuns s t x (groupsOf (cdNgrp x.word.toNat) (s.bytes (cdMem x.word.toNat) (8 * cdNgrp x.word.toNat)))) ∧
    (CelReady s 3 x → Answers .celZero s fun t => CelRuns s t x (List.replicate (cdNgrp x.word.toNat) 0))) ∧
  (∀ (s : State) (r : CelRun) (w : Nat) (l : List Nat), s.cel.run = some r → r.late = false → w = r.item.word.toNat →
    l = (r.data.map (·.toNat)).take 1024 →
    (cdOp w ≠ 1 → Answers (.celCommandComplete none) s fun t =>
      t.cel.run = none ∧ t.on CEL_BUSY = false ∧ Written s t (cdGroup w) l ∧
      (CelRoom s r.item.tc → t.mem = (s.cmdPut (s.celRing r.item.tc) (celRecordOf s w s.okOr l.length 0)).mem)) ∧
    (∀ k : Fin 1024, cdOp w ≠ 1 → k.val < l.length → s.cel.bad.length < 16 →
      Answers (.celCommandComplete (some k)) s fun t =>
        t.cel.run = none ∧ t.rd CEL_WFAILN = satNat 16 (s.rd CEL_WFAILN + 1) ∧ cdGroup w + k.val ∈ t.cel.bad ∧
        (∀ i d, i < k.val → l[i]? = some d → t.celRaw (cdGroup w + i) = celWord (cdGroup w + i) d) ∧
        Logged s t 0x5005 (s.rd (OWN_TC 0x0D8)) 0x00D8 ∧
        (CelRoom s r.item.tc →
          t.mem = (s.cmdPut (s.celRing r.item.tc) (celRecordOf s w .integFail k.val 0)).mem)) ∧
    (∀ d : List Nat, cdOp w = 1 → d.length = min 1024 (cdNgrp w) →
      (∀ i x, d[i]? = some x → celJudge (cdGroup w + i) (s.celRaw (cdGroup w + i)) = .clean x) →
      Answers (.celCommandComplete none) s fun t =>
        t.cel.run = none ∧ t.cel.groups = s.cel.groups ∧
        (s.cel.stopped.contains r.item.tc = true → t.mem = (s.store (cdMem w) (groupBytes d)).mem) ∧
        (CelRoom (s.store (cdMem w) (groupBytes d)) r.item.tc →
          t.mem = ((s.store (cdMem w) (groupBytes d)).cmdPut (s.celRing r.item.tc)
            (celRecordOf s w s.okOr d.length 0)).mem))) ∧
  (∀ (s u : State) (l : List (Fin 131072 × BitVec 72)) (g : Nat), u = s.celUpset l → s.celBlocked = false →
    g = s.rd CEL_SCPOS → s.cel.bad.contains g = false →
    Answers (.scrub l) s fun t =>
      t.rd CEL_SCPOS = (if g = 131071 then 0 else g + 1) ∧
      (g = 131071 → t.rd CEL_SCPASS = (s.rd CEL_SCPASS + 1) % 2 ^ 32 ∧ bit (t.rd (IRQ_RAW 0x0D8)) 2 = true) ∧
      (∀ d, celJudge g (u.celRaw g) = .clean d → t.cel = u.cel ∧ t.events = s.events) ∧
      (∀ d, celJudge g (u.celRaw g) = .corrected d →
        Written u t g [d] ∧ t.rd CEL_CORRN = satNat 16 (s.rd CEL_CORRN + 1) ∧ t.events = s.events) ∧
      (celJudge g (u.celRaw g) = .bad →
        t.cel.groups = u.cel.groups ∧ t.rd CEL_UEADR = g ∧ t.rd CEL_UNCN = satNat 16 (s.rd CEL_UNCN + 1) ∧
        bit (t.rd (IRQ_RAW 0x0D8)) 0 = true ∧ Logged s t 0x5005 (s.rd (OWN_TC 0x0D8)) 0x00D8 ∧
        (s.cel.bad.length < 16 → g ∈ t.cel.bad))) ∧
  (∀ (s : State) (w : RegWrite) (u : Nat), s.admitsWrite 0x0D8 0x064 w (setBit w.data.toNat 1) = true →
    u = bits w.data.toNat 8 6 →
    (s.unitState u = unitReserved → s.unitCovered u = false →
      Answers (.celUnresv w) s fun t =>
        t.resp.code = .ok ∧ t.rd CEL_CCODE = codeOf .ok ∧ t.unitState u = unitPending ∧
        t.cel.wipes = s.cel.wipes ++ [⟨u, unitHome, 0, false, some (s.unitHolder u)⟩]) ∧
    (s.unitState u ≠ unitReserved →
      Answers (.celUnresv w) s fun t =>
        t.resp.code = .cfgInvalid ∧ t.rd CEL_CCODE = codeOf .cfgInvalid ∧ t.cel.wipes = s.cel.wipes ∧
        t.unitState u = s.unitState u)) ∧
  (∀ (s : State) (w : RegWrite), s.admitsWrite 0x0D8 0x064 w (setBit w.data.toNat 0) = true →
    bit w.data.toNat 1 = false →
    Answers (.celBparm w) s fun t => t.resp.code = .ok ∧ t.cel = { s.cel with armed := some s.ticks }) ∧
  (∀ (s : State) (w : RegWrite), s.admitsWrite 0x0D8 0x044 w w.data.toNat = true →
    (s.rd CEL_BP ≤ bits w.data.toNat 0 2 ∨ (∃ a, s.cel.armed = some a ∧ s.ticks ≤ a + 65536) →
      Answers (.celBpWrite w) s fun t =>
        t.resp.code = .ok ∧ t.rd CEL_BP = bits w.data.toNat 0 2 ∧ t.cel.armed = none ∧
        ∀ u < 64, t.on (CEL_U_BP u) = bpCovers (bits w.data.toNat 0 2) u) ∧
    (bits w.data.toNat 0 2 < s.rd CEL_BP → s.cel.armed = none ∨ (∃ a, s.cel.armed = some a ∧ a + 65536 < s.ticks) →
      Answers (.celBpWrite w) s fun t =>
        t.resp.code = .timeout ∧ t.rd CEL_BP = s.rd CEL_BP ∧ t.rd CEL_CCODE = codeOf .timeout)) ∧
  (∀ (s : State) (w : RegWrite) (g n : Nat), s.admitsWrite 0x0D8 0x084 w (setBit w.data.toNat 8) = true →
    w.port = .mgmt → s.on CEL_M_BUSY = false → g = s.rd CEL_M_GRP → n = bits w.data.toNat 0 4 →
    (n = 0 → Answers (.celMGo none w) s fun t => t.resp.code = .zeroLen ∧ t.cel = s.cel) ∧
    (n ≠ 0 → 8 < n ∨ (∃ i < n, portGroup (g + i) = false) →
      Answers (.celMGo none w) s fun t => t.resp.code = .cfgInvalid ∧ t.cel = s.cel) ∧
    (n ≠ 0 → n ≤ 8 → (∀ i < n, portGroup (g + i) = true) →
      (s.celBlocked = true → Answers (.celMGo none w) s fun t =>
        t.resp.code = .powerLost ∧ t.rd CEL_M_LAST = 0xFF ∧ t.cel.groups = s.cel.groups) ∧
      (s.celBlocked = false → bit w.data.toNat 4 = true →
        Answers (.celMGo none w) s fun t =>
          t.resp.code = .ok ∧ t.rd CEL_M_CODE = codeOf .ok ∧ t.rd CEL_M_LAST = n - 1 ∧
          Written s t g ((List.range n).map s.portData) ∧ bit (t.rd (IRQ_RAW 0x0D8)) 3 = true) ∧
      (∀ d : List Nat, s.celBlocked = false → bit w.data.toNat 4 = false → d.length = n →
        (∀ i x, d[i]? = some x → celJudge (g + i) (s.celRaw (g + i)) = .clean x) →
        Answers (.celMGo none w) s fun t =>
          t.resp.code = .ok ∧ t.rd CEL_M_LAST = n - 1 ∧ t.cel.groups = s.cel.groups ∧
          ∀ i x, d[i]? = some x → t.portData i = x))) ∧
  (∀ (s : State) (x : UnitWipe) (l : List UnitWipe), s.cel.wipes = x :: l → s.celBlocked = false → s.cel.run = none →
    16 ≤ x.unit → x.unit < 64 →
    Answers .unitWipeDone s fun t =>
      t.cel.wipes = l ∧ t.unitState x.unit = x.state % 4 ∧ t.unitHolder x.unit = x.holder % 64 ∧
      (∀ i < 1024, t.celRaw (unitGroup x.unit + i) = celWord (unitGroup x.unit + i) 0) ∧
      (∀ r, x.release = some r → x.command = false →
        Logged s t 0x4012 r (x.unit + r * 2 ^ 10 + 3 * 2 ^ 16)) ∧
      (x.command = true → s.tnc.grantCmd.isSome = true → t.on TNC_G_BUSY = false ∧ t.rd TNC_G_CODE = codeOf .ok))

/-! ## The backup gauge (chapter 19) -/

namespace Sys2Proof.Machine

/-- Q after the charge of a second of RUN, before an end point or a correction (R480). -/
def gaugeCount (s : State) (m : GaugeSecond) : Nat :=
  (max 0 (min ((s.rd BGA_Q : Int) + divRound (m.current * 1525880 * (if 0 < m.current then s.rd BGA_CEFF else 10000))
    (1000 * 3600 * 10000 * s.rd BGA_RSH)) (s.rd BGA_QMAX : Int))).toNat

/-- A write of BGA_CMD that gives exactly the command of bit `b`. -/
def BgaCmd (s : State) (w : RegWrite) (b : Nat) : Prop :=
  s.admitsWrite 0x0E0 0x06C w (setBit w.data.toNat b) = true ∧ setBit w.data.toNat b % 64 = 2 ^ b

end Sys2Proof.Machine

/-- A step in RUN counts the charge into Q, holds R by the monotonic clamp, jumps it at the full and the empty point, learns D and completes the
capacity at the empty point; an idle second runs the rest timer and, at a multiple of BGA_TREST, corrects Q from the table or counts the
skip for slope. BURST_EDGE takes an acceptable step into Z and counts another as rejected. OPEN_WIRE_TEST takes the next line and finds it open or
not. OWNOW queues every line; MNT_GO starts waiting or is refused; MNT_ABORT and MNT_END end it. RESTORE loads a good record in WAIT, with
its codes else; COLD starts from the design capacity; TCOMMIT takes a table that rises; a read of BGA_REC0 takes the snapshot. -/
def Obligations.GaugeComplete : Prop :=
  (∀ (s : State) (m : GaugeSecond), s.rd BGA_ST = 0 →
    Answers (.estimationStep m) s fun t => t.bga = s.bga ∧ t.rd PMU_VIN_MV = m.vin.toNat ∧ t.rd PMU_VBAT_MV = m.vbat.toNat) ∧
  (∀ (s : State) (m : GaugeSecond), s.rd BGA_ST = 2 → s.bga.cold = false →
    Answers (.estimationStep m) s fun t =>
      t.rd BGA_IMEAN = unsigned 16 (satSigned 16 (divRound (m.current * 1525880) (1000 * (1000 * s.rd BGA_RSH)))) ∧
      t.rd BGA_VPACK = satNat 16 (divRoundNat m.pack 2500) ∧ t.rd BGA_TTE = t.timeToEmpty m ∧
      (t.rd BGA_Q ≤ t.rd BGA_QMAX → t.rd BGA_QMAX ≠ 0 →
        t.rd BGA_SOCS = divRoundNat (10000 * t.rd BGA_Q) (t.rd BGA_QMAX) ∧
        t.rd BGA_SOCR = (if t.bga.full = 60 then 10000 else if t.bga.empty = 10 then 0
          else if s.charging m = true then
            min (t.rd BGA_SOCS) (s.rd BGA_SOCR + (t.rd BGA_SOCS - s.rd BGA_SOCS) + s.rd BGA_CATCH)
          else min (s.rd BGA_SOCR) (t.rd BGA_SOCS))) ∧
      (t.bga.full = 60 → t.bga.empty ≠ 10 → t.rd BGA_Q = t.rd BGA_QMAX ∧ t.on BGA_ESTF = false ∧
        (t.rd BGA_SV = 0 → t.on BGA_LRNACT = true ∧ t.bga.dsum = 0)) ∧
      (t.bga.empty = 10 → t.bga.full ≠ 60 → t.rd BGA_Q = 0 ∧ t.on BGA_ESTF = false) ∧
      (t.bga.full ≠ 60 → t.bga.empty ≠ 10 → s.charging m = true ∨ s.discharging m = true →
        t.rd BGA_Q = gaugeCount s m ∧ t.rd BGA_QMAX = s.rd BGA_QMAX ∧ t.bga.restClk = 0 ∧ t.bga.restCyc = 0) ∧
      (s.charging m = true → t.bga.full ≠ 60 → t.on BGA_LRNACT = false) ∧
      (s.on BGA_LRNACT = true → t.rd BGA_SV = 0 → m.current < 0 → t.bga.full ≠ 60 →
        (t.bga.empty ≠ 10 → t.on BGA_LRNACT = true ∧ t.bga.dsum = s.bga.dsum + (-m.current).toNat) ∧
        (∀ num unit, t.bga.empty = 10 → num = (s.bga.dsum + (-m.current).toNat) * 1525880 →
          unit = 36000 * s.rd BGA_RSH * (s.rd BGA_DESCAP * 1000) → s.rd BGA_RSH ≠ 0 →
          t.on BGA_LRNACT = false ∧
          (unit * 50 ≤ num ∧ num ≤ unit * 120 → t.rd BGA_QMAX = divRoundNat num (3600000 * s.rd BGA_RSH) ∧
            t.on BGA_LEARNED = true ∧ t.rd BGA_LRN_CODE = codeOf .ok) ∧
          (num < unit * 50 ∨ unit * 120 < num →
            t.rd BGA_QMAX = s.rd BGA_QMAX ∧ t.rd BGA_LRN_CODE = codeOf .cfgInvalid)))) ∧
  (∀ (s : State) (m : GaugeSecond) (k : Nat) (r : Nat × Nat) (p : Nat → Nat × Nat), s.rd BGA_ST = 2 → s.bga.cold = false →
    s.charging m = false → s.discharging m = false → s.on BGA_RESTPIN = false → s.refLocked = false →
    s.bga.cycles = false → s.bga.restCyc = 0 → s.rd BGA_TREST ≠ 0 →
    k = (s.bga.restClk + 48000000) / 48000000 / s.rd BGA_TREST → r = ocvAt s.bga.table (meanV m (s.rd BGA_NCELL)) →
    (∀ j, p j = s.bga.table.getD j (0, 0)) →
    Answers (.estimationStep m) s fun t =>
      t.bga.restClk = s.bga.restClk + 48000000 ∧
      t.rd BGA_RESTT = satNat 32 ((s.bga.restClk + 48000000) / 48000000) ∧
      (k ≤ s.bga.rests → t.rd BGA_Q = gaugeCount s m) ∧
      (s.bga.rests < k → t.bga.rests = k ∧
        (((p (r.1 + 1)).1 - (p r.1).1) * 1000 < s.rd BGA_MINSLOPE * ((p (r.1 + 1)).2 - (p r.1).2) →
          t.rd BGA_Q = gaugeCount s m ∧ t.rd BGA_OCVSKN = satNat 16 (s.rd BGA_OCVSKN + 1)) ∧
        (s.rd BGA_MINSLOPE * ((p (r.1 + 1)).2 - (p r.1).2) ≤ ((p (r.1 + 1)).1 - (p r.1).1) * 1000 →
          t.rd BGA_Q = divRoundNat (r.2 * s.rd BGA_QMAX) 10000 % 2 ^ 32 ∧ t.on BGA_ESTF = false ∧
          t.rd BGA_OCVN = satNat 16 (s.rd BGA_OCVN + 1) ∧ bit (t.rd (IRQ_RAW 0x0E0)) 4 = true))) ∧
  (∀ (s : State) (pre post : GaugeSample) (alone : Bool) (di dv z : Int), s.rd BGA_ST ≠ 0 →
    di = signed 16 post.current.toNat - signed 16 pre.current.toNat → dv = (post.pack.toNat : Int) - pre.pack.toNat →
    z = divRound (dv * di.sign * (400 * s.rd BGA_RSH * 10000)) (di.natAbs * 1525880) →
    (s.on BGA_ONPACK = true → alone = true → s.rd BGA_ZMIN * 1000 * s.rd BGA_RSH ≤ di.natAbs * 1525880 → 5 ≤ z →
      z ≤ 20000 →
      Answers (.burstEdge pre post alone) s fun t =>
        (s.rd BGA_ZN = 0 → (t.rd BGA_Z : Int) = z) ∧
        (s.rd BGA_ZN ≠ 0 → t.rd BGA_Z = ((s.rd BGA_Z : Int) + divRound (z - s.rd BGA_Z) 8).toNat) ∧
        t.rd BGA_ZN = satNat 16 (s.rd BGA_ZN + 1) ∧ t.rd BGA_ZACCN = satNat 16 (s.rd BGA_ZACCN + 1)) ∧
    (s.on BGA_ONPACK = false ∨ alone = false ∨ di.natAbs * 1525880 < s.rd BGA_ZMIN * 1000 * s.rd BGA_RSH ∨ z < 5 ∨
        20000 < z →
      Answers (.burstEdge pre post alone) s fun t =>
        t.rd BGA_ZREJN = satNat 16 (s.rd BGA_ZREJN + 1) ∧ t.rd BGA_Z = s.rd BGA_Z ∧ t.rd BGA_ZN = s.rd BGA_ZN)) ∧
  (∀ (s : State) (before after : BitVec 16) (k : Nat) (l : List Nat), s.rd BGA_ST ≠ 0 → s.bga.lines = k :: l →
    (before.toNat ≤ after.toNat + 100 * s.rd BGA_OWTH →
      Answers (.openWireTest before after) s fun t => t.bga.lines = l ∧ t.bga.opens = s.bga.opens.erase k) ∧
    (after.toNat + 100 * s.rd BGA_OWTH < before.toNat →
      Answers (.openWireTest before after) s fun t =>
        t.bga.lines = l ∧ k ∈ t.bga.opens ∧ t.on BGA_LRNACT = false ∧
        t.rd BGA_SV = (if s.bga.measBad = true then 3 else 1))) ∧
  (∀ (s : State) (w : RegWrite), BgaCmd s w 4 → s.rd BGA_ST ≠ 0 →
    Answers (.bgaOwnow w) s fun t =>
      t.resp.code = .ok ∧ t.bga.lines = s.bga.lines ++ List.range (s.rd BGA_NCELL + 1)) ∧
  (∀ (s : State) (w : RegWrite), BgaCmd s w 2 →
    (s.rd BGA_ST = 2 → s.on PMU_VINOK = true → s.rd BGA_SV = 0 → s.rd CTF_UTC + 3600 ≤ s.rd BGA_MNT_END →
      s.rd BGA_MNT_END ≤ s.rd CTF_UTC + 604800 → s.rd BGA_MNT_ST = 0 →
      Answers (.bgaMntGo w) s fun t => t.resp.code = .ok ∧ t.rd BGA_MNT_ST = 1 ∧ t.rd BGA_CCODE = codeOf .ok) ∧
    (s.rd BGA_ST ≠ 2 ∨ s.on PMU_VINOK = false ∨ s.rd BGA_SV ≠ 0 ∨ s.rd BGA_MNT_END < s.rd CTF_UTC + 3600 ∨
        s.rd CTF_UTC + 604800 < s.rd BGA_MNT_END ∨ s.rd BGA_MNT_ST ≠ 0 →
      Answers (.bgaMntGo w) s fun t =>
        t.resp.code = .cfgInvalid ∧ t.rd BGA_MNT_ST = s.rd BGA_MNT_ST ∧ t.rd BGA_CCODE = codeOf .cfgInvalid)) ∧
  (∀ (s : State) (w : RegWrite), BgaCmd s w 3 → s.rd BGA_MNT_ST ≠ 0 →
    Answers (.bgaMntAbort w) s fun t =>
      t.resp.code = .ok ∧ t.rd BGA_MNT_ST = 0 ∧ t.rd BGA_MNT_CODE = codeOf .skipped ∧ bit (t.rd (IRQ_RAW 0x0E0)) 3 = true) ∧
  (∀ s : State, s.rd BGA_MNT_ST ≠ 0 → s.rd BGA_MNT_END ≤ s.rd CTF_UTC →
    Answers .mntEnd s fun t =>
      t.rd BGA_MNT_ST = 0 ∧ t.rd BGA_MNT_CODE = codeOf .timeout ∧ bit (t.rd (IRQ_RAW 0x0E0)) 3 = true ∧
      (s.pst = pstOnPack → s.on PMU_VINOK = true → t.pst = pstOnVin)) ∧
  (∀ (s : State) (w : RegWrite) (b : List Byte), BgaCmd s w 0 → b = s.rinBytes →
    (s.rd BGA_ST = 1 → s.restoreCheck b = .ok →
      Answers (.bgaRestore w) s fun t =>
        t.resp.code = .ok ∧ t.rd BGA_ST = 2 ∧ t.rd BGA_RST_CODE = codeOf .ok ∧ t.rd BGA_QMAX = leAt b 8 4 ∧
        t.rd BGA_Q = leAt b 12 4 ∧ t.rd BGA_SOCS = leAt b 16 2 ∧ t.rd BGA_SOCR = leAt b 18 2 ∧ t.rd BGA_Z = leAt b 20 2 ∧
        t.rd BGA_LEARNED = leAt b 26 1 % 2 ∧ t.on BGA_LRNACT = false ∧ t.bga.seq = leAt b 4 4) ∧
    (s.rd BGA_ST = 1 → leAt b 60 4 ≠ crc32 (b.take 60 ++ s.uidBytes) →
      Answers (.bgaRestore w) s fun t =>
        t.rd BGA_RST_CODE = codeOf .integFail ∧ t.rd BGA_ST = 1 ∧ t.bga = s.bga) ∧
    (s.rd BGA_ST = 1 → leAt b 60 4 = crc32 (b.take 60 ++ s.uidBytes) →
      leAt b 0 2 ≠ 1 ∨ leAt b 2 1 ≠ s.rd BGA_CHEM ∨ leAt b 3 1 ≠ s.rd BGA_NCELL ∨ leAt b 8 4 < leAt b 12 4 ∨
        10000 < leAt b 18 2 →
      Answers (.bgaRestore w) s fun t =>
        t.rd BGA_RST_CODE = codeOf .cfgInvalid ∧ t.rd BGA_ST = 1 ∧ t.bga = s.bga) ∧
    (s.rd BGA_ST = 2 → Answers (.bgaRestore w) s fun t =>
      t.rd BGA_RST_CODE = codeOf .skipped ∧ t.bga = s.bga ∧ t.rd BGA_Q = s.rd BGA_Q) ∧
    (s.rd BGA_ST = 0 → Answers (.bgaRestore w) s fun t =>
      t.rd BGA_RST_CODE = codeOf .cfgInvalid ∧ t.bga = s.bga ∧ t.rd BGA_ST = 0)) ∧
  (∀ (s : State) (w : RegWrite), BgaCmd s w 1 →
    (s.rd BGA_ST = 1 →
      Answers (.bgaCold w) s fun t =>
        t.resp.code = .ok ∧ t.rd BGA_RST_CODE = codeOf .ok ∧ t.rd BGA_ST = 2 ∧
        t.rd BGA_QMAX = s.rd BGA_DESCAP * 1000 ∧ t.rd BGA_Z = s.rd BGA_ZDEF ∧ t.on BGA_ESTF = true ∧
        ∀ m, ocvAt t.bga.table (meanV m (t.rd BGA_NCELL)) = ocvAt s.bga.table (meanV m (s.rd BGA_NCELL)) ∧
          Answers (.estimationStep m) t fun u =>
            u.rd BGA_SOCS = (ocvAt s.bga.table (meanV m (s.rd BGA_NCELL))).2 % 2 ^ 14 ∧
            u.rd BGA_SOCR = u.rd BGA_SOCS) ∧
    (s.rd BGA_ST = 2 → Answers (.bgaCold w) s fun t =>
      t.rd BGA_RST_CODE = codeOf .skipped ∧ t.bga = s.bga ∧ t.rd BGA_QMAX = s.rd BGA_QMAX)) ∧
  (∀ (s : State) (w : RegWrite), BgaCmd s w 5 →
    ((∀ j < 31, s.rd (BGA_OCV_V j) < s.rd (BGA_OCV_V (j + 1)) ∧ s.rd (BGA_OCV_SOC j) ≤ s.rd (BGA_OCV_SOC (j + 1))) →
      s.rd (BGA_OCV_SOC 0) = 0 → s.rd (BGA_OCV_SOC 31) = 10000 →
      Answers (.bgaTcommit w) s fun t =>
        t.resp.code = .ok ∧ t.bga.table = (List.range 32).map fun j => (s.rd (BGA_OCV_V j), s.rd (BGA_OCV_SOC j))) ∧
    ((∃ j < 31, s.rd (BGA_OCV_V (j + 1)) ≤ s.rd (BGA_OCV_V j) ∨ s.rd (BGA_OCV_SOC (j + 1)) < s.rd (BGA_OCV_SOC j)) ∨
        s.rd (BGA_OCV_SOC 0) ≠ 0 ∨ s.rd (BGA_OCV_SOC 31) ≠ 10000 →
      Answers (.bgaTcommit w) s fun t => t.resp.code = .cfgInvalid ∧ t.bga.table = s.bga.table)) ∧
  (∀ (s : State) (r : RegRead), s.admitsRead 0x0E0 0x0C0 r = true →
    (s.rd BGA_ST = 2 →
      Answers (.snapshot r) s fun t =>
        t.resp.code = .ok ∧ t.bga.seq = (s.bga.seq + 1) % 2 ^ 32 ∧
        (∀ k < 16, t.rd (BGA_REC k) = leAt (s.gaugeRecord ((s.bga.seq + 1) % 2 ^ 32)) (4 * k) 4) ∧
        t.resp.data = [t.rd (BGA_REC 0)]) ∧
    (s.rd BGA_ST ≠ 2 →
      Answers (.snapshot r) s fun t => t.resp.data = [0] ∧ (∀ k < 16, t.rd (BGA_REC k) = 0) ∧ t.bga = s.bga))

/-! ## Supplies, regulators, AUXOUT and Kiln mode (chapter 20) -/

namespace Sys2Proof.Machine

/-- The entry of a code is the first of the events that a command adds. -/
def LoggedFirst (s t : State) (code tc data : Nat) : Prop :=
  ∃ l, t.events = s.events ++ ⟨code, tc, leBytes 8 data⟩ :: l

/-- Every rail but VAO is off, the write block stands and the memory has lost its contents. -/
def Dark (t : State) : Prop :=
  t.pmu.railsUp = false ∧ t.on PMU_WBLK = true ∧ t.on CEL_WBLK = true ∧ t.mem = [] ∧ t.events = []

/-- A write of PMU_CMD that gives exactly the command of bit `b`. -/
def PmuCmd (s : State) (w : RegWrite) (b : Nat) : Prop :=
  s.admitsWrite 0x0E8 0x064 w (setBit w.data.toNat b) = true ∧ setBit w.data.toNat b % 16 = 2 ^ b

/-- The output of AUXOUT at or above 70 % of the set voltage (chapter 20, AUXOUT). -/
def AuxHolds (s : State) (mv : BitVec 16) : Prop :=
  (if s.on PMU_AUX_V = true then 8400 else 3500) ≤ mv.toNat

end Sys2Proof.Machine

/-- VIN_LOST of a VIN outside its range counts, logs VBAT and, in ON_VIN, leads to ON_PACK with the pack present, or
without it starts the save and stops billing. VIN_PRESENT of a VIN inside its range logs and leads from KILN and CUT_OFF to START with the cause, from
ON_PACK and CUT_PENDING to ON_VIN. PACK_PRESENCE_CHANGE shows the pack. POWER_UP raises the rails, samples the straps for AUXOUT and leads to ON_VIN;
without VAO held the clock is estimated. RAIL_FAULT powers down, for a restart after 1 s or, at the third in 10 minutes, none. VSYS_POWER_DOWN
powers down. WRITE_BLOCK_ASSERT ends what runs after the groups given, with its interruption record; WRITE_BLOCK_RELEASE writes what waited. -/
def Obligations.SupplyPathComplete : Prop :=
  (∀ (s : State) (vin vbat : BitVec 16), s.on PMU_VINOK = true → vin.toNat < 8500 ∨ 17500 < vin.toNat →
    s.pmu.railsUp = true →
    (s.pst = pstOnVin → s.on PMU_PACK_EN = true → s.rd BGA_NCELL * s.rd PMU_CUT_VCELL ≤ vbat.toNat →
      Answers (.vinLost vin vbat) s fun t =>
        t.pst = pstOnPack ∧ t.on PMU_VINOK = false ∧ t.rd PMU_VINLOSTN = satNat 16 (s.rd PMU_VINLOSTN + 1) ∧
        bit (t.rd (IRQ_RAW 0x0E8)) 0 = true ∧ (17500 < vin.toNat → t.on PMU_VINOV = true) ∧ t.on BGA_ONPACK = true ∧
        Logged s t 0x2031 deviceTc vbat.toNat) ∧
    (s.pst = pstOnVin → vbat.toNat < s.rd BGA_NCELL * s.rd PMU_CUT_VCELL →
      Answers (.vinLost vin vbat) s fun t =>
        t.pst = pstOnVin ∧ t.on PMU_VINOK = false ∧ t.on PMU_PACKOK = false ∧ t.acc.frozen = true ∧
        ∃ n, t.ccx.seq = some (3, n)) ∧
    (s.pst = pstOnPack → s.rd BGA_MNT_ST ≠ 0 →
      Answers (.vinLost vin vbat) s fun t =>
        t.pst = pstOnPack ∧ t.on PMU_VINOK = false ∧ t.rd BGA_MNT_ST = 0 ∧ t.rd BGA_MNT_CODE = codeOf .skipped)) ∧
  (∀ (s : State) (vin vbat : BitVec 16), s.on PMU_VINOK = false → 8800 ≤ vin.toNat → vin.toNat ≤ 16500 →
    (s.pst ≠ pstKiln →
      Answers (.vinPresent vin vbat) s fun t =>
        t.on PMU_VINOK = true ∧ t.on PMU_VINOV = false ∧ bit (t.rd (IRQ_RAW 0x0E8)) 0 = true ∧
        (⟨0x2032, deviceTc, leBytes 8 vbat.toNat⟩ : LogEvent) ∈ t.events ∧
        (s.pst = pstOnPack ∨ s.pst = pstCutPending → t.pst = pstOnVin) ∧
        (s.pst = pstCutPending → t.pmu.cut = none ∧ t.pmu.cutDue = false) ∧
        (s.pst = pstCutOff → t.pst = pstStart ∧ t.rd PMU_WAKE_SRC = 3)) ∧
    (s.pst = pstKiln → s.pmu.gone = true →
      Answers (.vinPresent vin vbat) s fun t =>
        t.pst = pstStart ∧ t.rd PMU_WAKE_SRC = 1 ∧ (⟨0x2036, deviceTc, leBytes 8 0⟩ : LogEvent) ∈ t.events) ∧
    (s.pst = pstKiln → s.pmu.gone = false → Answers (.vinPresent vin vbat) s fun t => t = s)) ∧
  (∀ (s : State) (vbat : BitVec 16), s.pmu.railsUp = true → s.wokenOnPack = false →
    Answers (.packPresenceChange vbat) s fun t =>
      t.rd PMU_VBAT_MV = vbat.toNat ∧
      (t.on PMU_PACKOK = true ↔ s.on PMU_PACK_EN = true ∧ s.rd BGA_NCELL * s.rd PMU_CUT_VCELL ≤ vbat.toNat) ∧
      (s.pst ≠ pstStart → t.pst = s.pst) ∧
      (t.on PMU_PACKOK = false → s.rd PMU_CHG_ST ≠ chgFault → t.rd PMU_CHG_ST = chgOff)) ∧
  (∀ (s : State) (strap : Fin 4) (vin vbat : BitVec 16), s.pmu.railsUp = false → 8800 ≤ vin.toNat →
    vin.toNat ≤ 16500 →
    Answers (.powerUp strap false vin vbat) s (fun t =>
      t.pmu.railsUp = true ∧ t.pst = pstOnVin ∧ t.on PMU_VINOK = true ∧ t.rd PMU_VC_SET = 60 ∧ t.rd PMU_VT_SET = 0 ∧
      t.rd PMU_WAKE_SRC = 0 ∧ t.on CTF_UTC_EST = true ∧ t.rd CTF_UTC = 0 ∧ t.on PMU_WBLK = true ∧ t.mem = [] ∧
      t.cel.groups = s.cel.groups ∧ t.sec.otp = s.sec.otp ∧
      (t.on PMU_AUX_EN = true ↔ strap.val = 1 ∨ strap.val = 2) ∧ (t.on PMU_AUX_V = true ↔ strap.val = 2) ∧
      (strap.val = 1 ∨ strap.val = 2 → t.rd PMU_AUX_ST = auxRamp)) ∧
    (s.pst = pstStart → s.pmu.restart = none → s.on PMU_RFAULT = false → s.start.noPack = false →
      Answers (.powerUp strap true vin vbat) s fun t =>
        t.pmu.railsUp = true ∧ t.pst = pstOnVin ∧ t.on PMU_VINOK = true ∧ t.rd PMU_VC_SET = 60 ∧
        t.rd PMU_WAKE_SRC = s.rd PMU_WAKE_SRC ∧ t.rd CTF_UTC = s.rd CTF_UTC ∧ t.start.since = s.clk)) ∧
  (∀ (s : State) (rail : Fin 7), s.pmu.railsUp = true → bit (s.rd PMU_PG) rail.val = true →
    Answers (.railFault rail) s fun t =>
      Dark t ∧ t.pst = pstStart ∧ t.rd PMU_RFLT = 2 ^ rail.val ∧ bit (t.rd (IRQ_RAW 0x0E8)) 5 = true ∧
      ((s.pmu.faults.filter fun c => s.clk - c < msTicks 600000).length < 2 →
        t.pmu.restart = some s.clk ∧ t.on PMU_RFAULT = s.on PMU_RFAULT) ∧
      (2 ≤ (s.pmu.faults.filter fun c => s.clk - c < msTicks 600000).length →
        t.pmu.restart = none ∧ t.on PMU_RFAULT = true)) ∧
  (∀ (s : State) (c : Nat), s.pmu.restart = some c → s.rd CTF_PERIOD ≠ 0 →
    Answers .railRestart s fun t =>
      c + msTicks 1000 ≤ t.clk ∧ t.pmu.restart = none ∧ t.pst = pstStart ∧ t.rd PMU_WAKE_SRC = 4) ∧
  (∀ s : State, s.pmu.railsUp = true →
    Answers .vsysPowerDown s fun t =>
      Dark t ∧ t.pst = pstStart ∧ (s.on PMU_VINOK = false → t.start.noPack = true) ∧ t.pending = s.pending) ∧
  (∀ (s : State) (cut : BitVec 12), s.celBlocked = false →
    Answers (.writeBlockAssert cut) s fun t =>
      t.on PMU_WBLK = true ∧ t.on CEL_WBLK = true ∧ t.rd PMU_WBLKN = satNat 16 (s.rd PMU_WBLKN + 1) ∧
      bit (t.rd (IRQ_RAW 0x0E8)) 6 = true ∧ t.cel.run = none ∧ t.events = [] ∧
      ∀ (r : CelRun) (w n : Nat), s.cel.run = some r → w = r.item.word.toNat → cdOp w ≠ 1 → s.ccx.seq = none →
        s.tnc.sealing = none → n = min cut.toNat r.data.length →
        Written s t (cdGroup w) ((r.data.map (·.toNat)).take cut.toNat) ∧
        t.cel.ir = some ⟨r.item.tc, (n + 65535) % 65536, cdItem w, cdUnit w⟩) ∧
  (∀ s : State, s.celBlocked = true → s.pmu.railsUp = true →
    Answers .writeBlockRelease s fun t =>
      t.on PMU_WBLK = false ∧ t.on CEL_WBLK = false ∧ bit (t.rd (IRQ_RAW 0x0E8)) 6 = true ∧
      (s.start.begun = true → t.cel.queued = []) ∧ (s.start.begun = false → t.cel = s.cel))

/-- AUX_ATTEMPT starts the next attempt no sooner than 250 ms after the switch-off; AUX_ATTEMPT_CHECK, 5 ms after the start, finds AUXOUT good at
70 % of its voltage, or counts and logs the failed attempt and waits, or after the fourth latches it off; AUX_DROP of a running AUXOUT fails in the same way;
AUX_GOOD_HOLD after 10 s clears the count. PMU_AUX_RETRY clears the count and starts attempt 1; PMU_AUX_EN starts it with the
voltage of the write, or switches it off; a change of the voltage while it is enabled is CFG_INVALID. CHARGE_DONE, CHARGE_RESTART, CHARGE_TEMP and
CHARGE_TIMEOUT take the charger through its states. That a retry leaves a good AUXOUT as it is, is the reading of log entry 36. -/
def Obligations.AuxoutChargerComplete : Prop :=
  (∀ s : State, s.rd PMU_AUX_ST = auxWait → s.rd CTF_PERIOD ≠ 0 →
    Answers .auxAttempt s fun t =>
      t.rd PMU_AUX_ST = auxRamp ∧ s.pmu.aux + msTicks 250 ≤ t.clk ∧ t.pmu.aux = t.clk ∧
      t.rd PMU_AUX_ATT = s.rd PMU_AUX_ATT) ∧
  (∀ (s : State) (mv : BitVec 16), s.rd PMU_AUX_ST = auxRamp → s.rd CTF_PERIOD ≠ 0 → s.pmu.railsUp = true →
    (AuxHolds s mv →
      Answers (.auxAttemptCheck mv) s fun t =>
        t.rd PMU_AUX_ST = auxGood ∧ s.pmu.aux + msTicks 5 ≤ t.clk ∧ t.on PLT_AUXDN = false ∧
        bit (t.rd PMU_PG) 7 = true ∧ bit (t.rd (IRQ_RAW 0x0E8)) 3 = true ∧ t.rd PMU_AUX_MV = mv.toNat) ∧
    (∀ n, ¬AuxHolds s mv → n = min 4 (s.rd PMU_AUX_ATT + 1) →
      Answers (.auxAttemptCheck mv) s fun t =>
        t.rd PMU_AUX_ST = (if n = 4 then auxLatched else auxWait) ∧ t.rd PMU_AUX_ATT = n ∧
        t.rd PMU_AUXFLTN = satNat 16 (s.rd PMU_AUXFLTN + 1) ∧ t.on PLT_AUXDN = true ∧
        LoggedFirst s t 0x2034 deviceTc (n + (if n = 4 then 256 else 0)))) ∧
  (∀ (s : State) (mv : BitVec 16) (n : Nat), s.rd PMU_AUX_ST = auxGood → ¬AuxHolds s mv →
    n = min 4 (s.rd PMU_AUX_ATT + 1) →
    Answers (.auxDrop mv) s fun t =>
      t.rd PMU_AUX_ST = (if n = 4 then auxLatched else auxWait) ∧ t.rd PMU_AUX_ATT = n ∧ t.on PLT_AUXDN = true ∧
      bit (t.rd (IRQ_RAW 0x0E8)) 3 = true ∧ LoggedFirst s t 0x2034 deviceTc (n + (if n = 4 then 256 else 0))) ∧
  (∀ s : State, s.rd PMU_AUX_ST = auxGood → s.rd CTF_PERIOD ≠ 0 →
    Answers .auxGoodHold s fun t =>
      t.rd PMU_AUX_ATT = 0 ∧ s.pmu.aux + msTicks 10000 ≤ t.clk ∧ t.rd PMU_AUX_ST = auxGood) ∧
  (∀ (s : State) (w : RegWrite), s.admitsWrite 0x0E9 0x050 w (setBit w.data.toNat 3) = true →
    s.on PMU_AUX_EN = true → bit w.data.toNat 0 = true →
    (bit w.data.toNat 1 = s.on PMU_AUX_V → s.pmu.railsUp = true → s.level ≤ 2 → s.rd PMU_AUX_ST ≠ auxGood →
      Answers (.pmuAuxRetry w) s fun t =>
        t.resp.code = .ok ∧ t.rd PMU_AUX_ST = auxRamp ∧ t.rd PMU_AUX_ATT = 0 ∧ t.pmu.aux = s.clk) ∧
    (bit w.data.toNat 1 ≠ s.on PMU_AUX_V →
      Answers (.pmuAuxRetry w) s fun t =>
        t.resp.code = .cfgInvalid ∧ t.rd PMU_AUX_ST = s.rd PMU_AUX_ST ∧ t.on PMU_AUX_V = s.on PMU_AUX_V)) ∧
  (∀ (s : State) (w : RegWrite), s.admitsWrite 0x0E9 0x050 w (setBit w.data.toNat 0) = true →
    s.on PMU_AUX_EN = false → bit w.data.toNat 3 = false → s.pmu.railsUp = true → s.level ≤ 2 →
    Answers (.pmuAuxEn true w) s fun t =>
      t.resp.code = .ok ∧ t.on PMU_AUX_EN = true ∧ t.on PMU_AUX_V = bit w.data.toNat 1 ∧
      t.rd PMU_AUX_ST = auxRamp ∧ t.rd PMU_AUX_ATT = 0) ∧
  (∀ (s : State) (w : RegWrite), s.admitsWrite 0x0E9 0x050 w (clearBit w.data.toNat 0) = true →
    s.on PMU_AUX_EN = true → bit w.data.toNat 1 = s.on PMU_AUX_V → bit w.data.toNat 3 = false →
    Answers (.pmuAuxEn false w) s fun t =>
      t.resp.code = .ok ∧ t.on PMU_AUX_EN = false ∧ t.rd PMU_AUX_ST = auxOff ∧ t.rd PMU_AUX_ATT = 0 ∧
      t.on PLT_AUXDN = true) ∧
  (∀ s : State, s.rd PMU_CHG_ST = chgVoltage →
    Answers .chargeDone s fun t =>
      t.rd PMU_CHG_ST = chgDone ∧ t.pmu.charge = none ∧ bit (t.rd (IRQ_RAW 0x0E8)) 4 = true) ∧
  (∀ (s : State) (vbat : BitVec 16), s.rd PMU_CHG_ST = chgDone →
    vbat.toNat ≤ s.rd BGA_NCELL * (s.rd PMU_CHG_VCELL - s.rd PMU_CHG_RECH) →
    Answers (.chargeRestart vbat) s fun t =>
      t.rd PMU_CHG_ST = (if s.pmu.ntcOut = true then chgTemp else chgCurrent) ∧ t.pmu.charge = some s.clk ∧
      bit (t.rd (IRQ_RAW 0x0E8)) 4 = true) ∧
  (∀ (s : State) (ratio : Byte),
    (ratio.toNat < s.rd PMU_NTC_HOT ∨ s.rd PMU_NTC_COLD < ratio.toNat ∨ 250 < ratio.toNat →
      s.rd PMU_CHG_ST = chgCurrent ∨ s.rd PMU_CHG_ST = chgVoltage →
      Answers (.chargeTemp ratio) s fun t => t.rd PMU_CHG_ST = chgTemp ∧ bit (t.rd (IRQ_RAW 0x0E8)) 4 = true) ∧
    (s.rd PMU_NTC_HOT ≤ ratio.toNat → ratio.toNat ≤ s.rd PMU_NTC_COLD → ratio.toNat ≤ 250 →
      s.rd PMU_CHG_ST = chgTemp →
      Answers (.chargeTemp ratio) s fun t => t.rd PMU_CHG_ST = chgCurrent)) ∧
  (∀ (s : State) (c : Nat), s.pmu.charge = some c → s.rd CTF_PERIOD ≠ 0 →
    Answers .chargeTimeout s fun t =>
      t.rd PMU_CHG_ST = chgFault ∧ t.pmu.charge = none ∧ c + msTicks (3600000 * s.rd PMU_CHG_TMAX) ≤ t.clk)

/-- CUTOFF_WARNING with VIN absent leads to CUT_PENDING, gives the gauge its empty point and raises the interrupt; with VIN present it is the empty point
alone. PMU_CUTACK, CUT_GRACE after PMU_CUTGRACE milliseconds and HARD_CUTOFF make the sequence due; CUTOFF_SEQUENCE powers down into CUT_OFF. PMU_KILN_ARM
arms; PMU_KILN_GO within 65,536 ct enters, and else completes with CFG_INVALID, REFUSED_PRIORITY or TIMEOUT, in the order of R11;
PMU_KILN_CONFIRM powers down into KILN; KILN_TIMEOUT ends the entry with TIMEOUT. KILN_EXIT by KWAKE, or by VIN after an absence, leads to START with
its cause and KILN_OUT. -/
def Obligations.CutoffKilnComplete : Prop :=
  (∀ (s : State) (vbat : BitVec 16), s.pst = pstOnPack → vbat.toNat ≤ s.rd BGA_NCELL * s.rd PMU_CUTW_VCELL →
    (s.on PMU_VINOK = false →
      Answers (.cutoffWarning vbat) s fun t =>
        t.pst = pstCutPending ∧ t.pmu.cut = some s.clk ∧ t.acc.frozen = true ∧ bit (t.rd (IRQ_RAW 0x0E8)) 1 = true ∧
        (s.rd BGA_ST = 2 → t.rd BGA_Q = 0 ∧ t.rd BGA_SOCR = 0 ∧ t.on BGA_LRNACT = false)) ∧
    (s.on PMU_VINOK = true →
      Answers (.cutoffWarning vbat) s fun t =>
        t.pst ≠ pstCutPending ∧ (s.rd BGA_ST = 2 → t.rd BGA_Q = 0 ∧ t.rd BGA_SOCR = 0))) ∧
  (∀ (s : State) (w : RegWrite), PmuCmd s w 3 → s.pst = pstCutPending →
    Answers (.pmuCutack w) s fun t => t.resp.code = .ok ∧ t.pmu = { s.pmu with cutDue := true }) ∧
  (∀ (s : State) (c : Nat), s.pst = pstCutPending → s.pmu.cut = some c → s.pmu.cutDue = false →
    s.rd CTF_PERIOD ≠ 0 →
    Answers .cutGrace s fun t => t.pmu.cutDue = true ∧ c + msTicks (s.rd PMU_CUTGRACE) ≤ t.clk) ∧
  (∀ (s : State) (vbat : BitVec 16), s.pst = pstOnPack ∨ s.pst = pstCutPending → s.on PMU_VINOK = false →
    vbat.toNat ≤ s.rd BGA_NCELL * s.rd PMU_CUT_VCELL →
    Answers (.hardCutoff vbat) s fun t =>
      t.pst = pstCutPending ∧ t.pmu.cutDue = true ∧ t.rd PMU_VBAT_MV = vbat.toNat ∧
      (s.pst = pstOnPack → s.rd BGA_ST = 2 → t.rd BGA_Q = 0 ∧ bit (t.rd (IRQ_RAW 0x0E8)) 1 = true)) ∧
  (∀ s : State, s.pst = pstCutPending → s.pmu.cutDue = true →
    Answers .cutoffSequence s fun t => Dark t ∧ t.pst = pstCutOff ∧ t.pending = s.pending) ∧
  (∀ (s : State) (w : RegWrite), PmuCmd s w 0 →
    Answers (.pmuKilnArm w) s fun t => t.resp.code = .ok ∧ t.pmu = { s.pmu with armed := some s.ticks }) ∧
  (∀ (s : State) (w : RegWrite), PmuCmd s w 1 → s.pmu.kiln = none →
    (s.pst = pstStart ∨ s.pst = pstCutPending ∨ s.pst = pstCutOff →
      Answers (.pmuKilnGo w) s fun t =>
        t.resp.code = .cfgInvalid ∧ t.rd PMU_KILN_CODE = codeOf .cfgInvalid ∧ t.pmu.kiln = none) ∧
    (s.pst = pstOnVin ∨ s.pst = pstOnPack →
      (s.on TNC_S_BUSY = true →
        Answers (.pmuKilnGo w) s fun t =>
          t.resp.code = .refusedPriority ∧ t.rd PMU_KILN_CODE = codeOf .refusedPriority ∧ t.pmu.kiln = none) ∧
      (∀ a, s.on TNC_S_BUSY = false → s.pmu.armed = some a → s.ticks ≤ a + 65536 →
        Answers (.pmuKilnGo w) s fun t =>
          t.resp.code = .ok ∧ t.rd PMU_KILN_CODE = codeOf .ok ∧ t.pmu.kiln = some s.clk ∧ t.acc.frozen = true ∧
          bit (t.rd (IRQ_RAW 0x0E8)) 2 = true) ∧
      (s.on TNC_S_BUSY = false → s.pmu.armed = none ∨ (∃ a, s.pmu.armed = some a ∧ a + 65536 < s.ticks) →
        Answers (.pmuKilnGo w) s fun t =>
          t.resp.code = .timeout ∧ t.rd PMU_KILN_CODE = codeOf .timeout ∧ t.pmu.kiln = none))) ∧
  (∀ (s : State) (w : RegWrite), PmuCmd s w 2 → s.pmu.kiln.isSome = true →
    Answers (.pmuKilnConfirm w) s fun t =>
      t.resp.code = .ok ∧ Dark t ∧ t.pst = pstKiln ∧ (t.pmu.gone = true ↔ s.on PMU_VINOK = false)) ∧
  (∀ (s : State) (c : Nat), s.pmu.kiln = some c → s.rd CTF_PERIOD ≠ 0 →
    Answers .kilnTimeout s fun t =>
      t.pmu.kiln = none ∧ t.rd PMU_KILN_CODE = codeOf .timeout ∧ c + msTicks (s.rd PMU_KILN_TMO) ≤ t.clk ∧
      t.pst = s.pst) ∧
  (∀ (s : State) (kwake : Bool) (vin vbat : BitVec 16), s.pst = pstKiln →
    kwake = true ∨ (s.pmu.gone = true ∧ 8800 ≤ vin.toNat ∧ vin.toNat ≤ 16500) →
    Answers (.kilnExit kwake vin vbat) s fun t =>
      t.pst = pstStart ∧ t.rd PMU_WAKE_SRC = (if kwake = true then 2 else 1) ∧ t.start.kind = 1 ∧
      Logged s t 0x2036 deviceTc 0)

/-! ## Monitors, loops and the degrade ladder (chapter 21) -/

namespace Sys2Proof.Machine

/-- A condition of the supply loop for a rail in one pass (R526): a margin below MON_MARG_MIN, or a voltage site below
92 % of the code in force in every reading. -/
def ShortRail (s : State) (rail : Nat) (margins : List (BitVec 16)) (volts : List (List (BitVec 16))) : Prop :=
  (∃ m ∈ (margins.drop (6 * rail)).take 6, signed 16 m.toNat < (s.rd MON_MARG_MIN : Int)) ∨
  ∃ l ∈ (volts.drop (8 * rail)).take 8, l ≠ [] ∧ ∀ v ∈ l, 1000 * v.toNat < 92 * (6500 + 25 * s.rd (railCode rail))

/-- A code moved by one step of regulation and kept in an envelope (R525). -/
def avsMoved (s : State) (rail lo hi c : Nat) : Nat :=
  max lo (min hi (if (s.rd MON_AVS_TGT + s.rd MON_AVS_HYS : Int) < s.leastMargin rail then c - 1
    else if s.leastMargin rail < (s.rd MON_AVS_TGT : Int) then c + 1 else c))

/-- The level has become `new` through `cause`, with its evidence (R533). -/
def LevelNow (s t : State) (new cause : Nat) : Prop :=
  t.rd MON_LVL = new ∧ t.rd MON_CAUSE = cause ∧ t.rd MON_DEGN = satNat 16 (s.rd MON_DEGN + 1) ∧
  bit (t.rd (IRQ_RAW 0x0F0)) 0 = true ∧
  (⟨0x2021, deviceTc, leBytes 8 (s.rd MON_LVL + new * 2 ^ 8 + cause * 2 ^ 16)⟩ : LogEvent) ∈ t.events

end Sys2Proof.Machine

/-- AVS_STEP moves an unpinned rail by at most one code inside its envelope, and holds a pinned one. SUPPLY_LOOP raises a short rail by four codes, at
most to 80, with an override counted and logged once; at code 80 it reports VCORE; after 100 clear passes it hands the rail back. THERMAL_LOOP shows the
readings, doubles or halves its divisor, masks or unmasks a cluster, and counts the runs of the ladder. DEGRADE_DESCENT goes to D3 through VIN loss, to the
level that heat requires, or at a window boundary to MON_CAP; DEGRADE_ASCENT goes up one step under its conditions; each with its evidence. MON_CAP and
MON_ASCEND are taken or refused with their codes; INSPECT_EXPIRE goes to D3 after MON_INSPECT seconds. Passes stand for their times (log entry 1). -/
def Obligations.LadderComplete : Prop :=
  (∀ s : State, s.pmu.railsUp = true → 0 ∉ s.mon.overs → 1 ∉ s.mon.overs →
    Answers .avsStep s fun t =>
      (s.level < 3 → s.on PMU_VC_PIN = false →
        t.rd PMU_VC_SET = avsMoved s 0 (s.rd PMU_VC_MIN) (s.rd PMU_VC_MAX) (s.rd PMU_VC_SET)) ∧
      (s.level < 3 → s.on PMU_VC_PIN = true → t.rd PMU_VC_SET = s.rd PMU_VC_PINV) ∧
      (3 ≤ s.level → t.rd PMU_VC_SET = s.rd PMU_VC_D3) ∧
      (s.level < 2 → s.on PMU_VT_PIN = false →
        t.rd PMU_VT_SET = avsMoved s 1 (s.rd PMU_VT_MIN) (s.rd PMU_VT_MAX) (s.rd PMU_VT_SET)) ∧
      (s.level < 2 → s.on PMU_VT_PIN = true → t.rd PMU_VT_SET = s.rd PMU_VT_PINV) ∧
      (2 ≤ s.level → t.rd PMU_VT_SET = s.rd PMU_VT_SET)) ∧
  (∀ (s : State) (margins : List (BitVec 16)) (volts : List (List (BitVec 16))), s.pmu.railsUp = true → 2 ≤ s.level →
    margins.length = 12 →
    (ShortRail s 0 margins volts →
      Answers (.supplyLoop margins volts) s fun t =>
        (s.rd PMU_VC_SET < 80 → t.rd PMU_VC_SET = min 80 (s.rd PMU_VC_SET + 4) ∧ 0 ∈ t.mon.overs ∧
          (0 ∉ s.mon.overs → t.rd (MON_OVR 0) = satNat 32 (s.rd (MON_OVR 0) + 1) ∧
            Logged s t 0x2022 deviceTc (satNat 32 (s.rd (MON_OVR 0) + 1) * 2 ^ 32)) ∧
          (0 ∈ s.mon.overs → t.events = s.events)) ∧
        (80 ≤ s.rd PMU_VC_SET → t.rd PMU_VC_SET = s.rd PMU_VC_SET ∧ t.on MON_VCFAIL = true ∧
          (s.on MON_VCFAIL = false → bit (t.rd (IRQ_RAW 0x0F0)) 3 = true))) ∧
    (¬ShortRail s 0 margins volts →
      Answers (.supplyLoop margins volts) s fun t =>
        (cellAt 0 0 s.mon.clear + 1 < 100 → t.rd PMU_VC_SET = s.rd PMU_VC_SET ∧
          cellAt 0 0 t.mon.clear = cellAt 0 0 s.mon.clear + 1) ∧
        (100 ≤ cellAt 0 0 s.mon.clear + 1 → 0 ∈ s.mon.overs →
          0 ∉ t.mon.overs ∧ t.rd PMU_VC_SET = s.vcoreCode (s.rd PMU_VC_SET) ∧ t.on MON_VCFAIL = false))) ∧
  (∀ (s : State) (margins : List (BitVec 16)) (volts : List (List (BitVec 16))), s.pmu.railsUp = true → s.level < 2 →
    margins.length = 12 → ¬ShortRail s 0 margins volts → cellAt 0 0 s.mon.clear + 1 < 100 →
    ShortRail s 1 margins volts → s.rd PMU_VT_SET < 80 →
    Answers (.supplyLoop margins volts) s fun t =>
      t.rd PMU_VT_SET = min 80 (s.rd PMU_VT_SET + 4) ∧ 1 ∈ t.mon.overs ∧ t.rd PMU_VC_SET = s.rd PMU_VC_SET) ∧
  (∀ (s : State) (temps : List (BitVec 16)) (T : Int), s.mon.bad = [] → temps.length = 16 →
    (∀ x ∈ temps, -550 ≤ signed 16 x.toNat ∧ signed 16 x.toNat ≤ T) → (∃ x ∈ temps, signed 16 x.toNat = T) →
    T ≤ 1500 → s.mon.supDiv ≤ 8 → s.mon.thDiv ≤ 8 →
    Answers (.thermalLoop temps) s fun t =>
      t.rd MON_THOT = unsigned 16 T ∧ t.rd MON_TSBADN = 0 ∧ t.mon.dwell = s.mon.dwell + 1 ∧
      (∀ k x, temps[k]? = some x → t.rd (MON_TS k) = x.toNat) ∧
      t.mon.hot1 = (if 10 * (s.rd MON_TD1 : Int) ≤ T then s.mon.hot1 + 1 else 0) ∧
      t.mon.hot2 = (if 10 * (s.rd MON_TD2 : Int) ≤ T then s.mon.hot2 + 1 else 0) ∧
      (10 * (s.rd MON_TTHR : Int) ≤ T → 9 ≤ s.mon.divHot → 99 ≤ s.mon.divAge → s.mon.thDiv < 8 →
        t.mon.thDiv = 2 * s.mon.thDiv ∧ t.mon.divAge = 0 ∧
        (s.mon.thDiv ≤ 4 → t.rd MON_TDIV = max (2 * s.mon.thDiv) s.mon.supDiv)) ∧
      (T < 10 * (s.rd MON_TTHR : Int) - 10 * (s.rd MON_THYS : Int) → 999 ≤ s.mon.divCool → 999 ≤ s.mon.divAge →
        1 < s.mon.thDiv → t.mon.thDiv = s.mon.thDiv / 2 ∧ t.rd MON_TDIV = max (s.mon.thDiv / 2) s.mon.supDiv) ∧
      (∀ (k : Nat) (x : BitVec 16), k < 8 → temps[k]? = some x →
        (10 * (s.rd MON_TCLU : Int) ≤ signed 16 x.toNat → 9 ≤ cellAt 0 k s.mon.cluHot →
          bit (t.rd MON_TMASK) k = true) ∧
        (signed 16 x.toNat < 10 * (s.rd MON_TCLU : Int) - 10 * (s.rd MON_THYS : Int) →
          999 ≤ cellAt 0 k s.mon.cluCool → bit (t.rd MON_TMASK) k = false))) ∧
  (∀ s : State,
    (s.mon.lost = true → s.rd MON_LVL < 3 →
      Answers .degradeDescent s fun t => LevelNow s t 3 3 ∧ t.on MON_ASCOK = false ∧ t.mon.dwell = 0) ∧
    (s.mon.lost = false → s.rd MON_LVL < s.heatLevel → s.rd MON_CAP ≤ s.heatLevel →
      Answers .degradeDescent s fun t => LevelNow s t s.heatLevel 1 ∧ t.mon.dwell = 0) ∧
    (s.mon.lost = false → s.heatLevel ≤ s.rd MON_LVL → s.rd MON_LVL < s.rd MON_CAP → s.atWindow = true →
      Answers .degradeDescent s fun t => LevelNow s t (s.rd MON_CAP) 0 ∧ t.mon.dwell = 0) ∧
    (s.mon.lost = false → s.heatLevel ≤ s.rd MON_LVL → s.rd MON_CAP ≤ s.rd MON_LVL ∨ s.atWindow = false →
      Answers .degradeDescent s fun t => t = s)) ∧
  (∀ s : State,
    (s.rd MON_LVL = 3 → s.pst = pstOnVin → Answers .degradeAscent s fun t => LevelNow s t 2 4) ∧
    (s.rd MON_LVL = 3 → s.pst ≠ pstOnVin → Answers .degradeAscent s fun t => t = s) ∧
    (s.rd MON_LVL = 2 ∨ s.rd MON_LVL = 1 → s.on MON_ASCOK = true → s.rd MON_CAP < s.rd MON_LVL →
      s.heatLevel < s.rd MON_LVL → s.mon.lost = false →
      s.rd MON_UPDWELL * 1000 ≤ (if s.rd MON_LVL = 2 then s.mon.cool2 else s.mon.cool1) →
      s.rd MON_UPDWELL * 1000 ≤ s.mon.dwell → s.rd PMU_WAKE_SRC ≠ 2 ∨ s.pst ≠ pstOnPack →
      (s.atWindow = true → Answers .degradeAscent s fun t => LevelNow s t (s.rd MON_LVL - 1) 7) ∧
      (s.atWindow = false → Answers .degradeAscent s fun t => t = s)) ∧
    (s.rd MON_LVL = 2 → s.on MON_ASCOK = false → Answers .degradeAscent s fun t => t = s)) ∧
  (∀ (s : State) (cap : Fin 4) (w : RegWrite), s.admitsWrite 0x0F0 0x040 w (putBits w.data.toNat 0 2 cap.val) = true →
    (cap.val ≤ 2 → bit w.data.toNat 8 = false →
      Answers (.monCap cap w) s fun t =>
        t.resp.code = .ok ∧ t.rd MON_CAP = cap.val ∧ t.rd MON_LVL = s.rd MON_LVL ∧ t.rd MON_CCODE = codeOf .ok) ∧
    (cap.val = 3 →
      Answers (.monCap cap w) s fun t =>
        t.resp.code = .cfgInvalid ∧ t.rd MON_CAP = s.rd MON_CAP ∧ t.rd MON_CCODE = codeOf .cfgInvalid)) ∧
  (∀ (s : State) (w : RegWrite), s.admitsWrite 0x0F0 0x040 w (setBit w.data.toNat 8) = true →
    bits w.data.toNat 0 2 ≠ 3 →
    (s.level < 3 → s.on MON_ASCOK = false →
      Answers (.monAscend w) s fun t => t.resp.code = .ok ∧ t.on MON_ASCOK = true ∧ t.rd MON_CCODE = codeOf .ok) ∧
    (s.level < 3 → s.on MON_ASCOK = true →
      Answers (.monAscend w) s fun t => t.resp.code = .skipped ∧ t.on MON_ASCOK = true) ∧
    (3 ≤ s.level → Answers (.monAscend w) s fun t => t.resp.code = .prot ∧ t.on MON_ASCOK = s.on MON_ASCOK)) ∧
  (∀ s : State, s.rd PMU_WAKE_SRC = 2 → s.pst = pstOnPack → s.on PMU_VINOK = false → s.rd MON_LVL = 2 →
    s.rd CTF_PERIOD ≠ 0 →
    Answers .inspectExpire s fun t =>
      LevelNow s t 3 6 ∧ s.start.since + msTicks (1000 * s.rd MON_INSPECT) ≤ t.clk)

/-! ## Starts and resets (chapter 22) -/

/-- COLD_START with the rails up and not yet run makes the image selection due; on a blank Cellar it gives D2 with cause 5 and its DEGRADE entry,
the reset record, the OTP values, the identity where the OTP words pass and hold a good scalar, every unit home, the write block released and no seal;
a second one changes nothing. SYSTEM_RESET by SYS_RSTN, or by the debug port in OPEN, restarts the control complex: the pages of the control complex, the
inference path and the interfaces are at their reset values, the rings stop, the level is D2 with cause 5, or stays D3, the record is written; the stamp, the
metrology, the accumulators' registers and the Cellar are as before. -/
def Obligations.StartsComplete : Prop :=
  (∀ (s : State) (ok : Bool), s.pmu.railsUp = true → s.start.begun = false →
    Answers (.coldStart ok) s fun t =>
      t.start.begun = true ∧ t.ccx.bootDue = true ∧ t.pending = s.pending ∧
      (s.cel.groups = [] →
        t.rd MON_LVL = 2 ∧ t.rd MON_CAUSE = 5 ∧ t.on PMU_WBLK = false ∧ t.on TNC_SEALED = s.on TNC_SEALED ∧
        (⟨0x2021, deviceTc, leBytes 8 (s.start.prev + 2 * 2 ^ 8 + 5 * 2 ^ 16)⟩ : LogEvent) ∈ t.events ∧
        t.rd (MGC_MB_OUT 0) = (s.start.kind + s.rd PMU_WAKE_SRC * 2 ^ 4 + s.start.prev * 2 ^ 12) % 2 ^ 32 ∧
        t.rd (MGC_MB_OUT 1) = (if s.start.kind = 0 then 0 else satNat 32 (s.start.count + 1)) ∧
        (∀ k < 4, t.rd (SYS_UID k) = s.otpWords 0 2 / 2 ^ (32 * k) % 2 ^ 32) ∧
        (∀ u < 64, t.unitState u = unitHome) ∧
        (∀ d, d = s.otpWords 2 4 → s.otpField 65 = false → ok = true → 1 ≤ d → d < ecN →
          t.on SEC_IDOK = true ∧ t.slotMat 0 = beBytes 32 d ∧ t.slotGen 0 = 1 ∧ t.slotType 0 = 4 ∧
          ∀ k < 16, t.rd (SEC_IDPUB k) = leAt (pointBytes (ecPublic d)) (4 * k) 4) ∧
        (ok = false ∨ s.otpField 65 = true → t.on SEC_IDOK = false))) ∧
  (∀ (s : State) (ok : Bool), s.pmu.railsUp = false ∨ s.start.begun = true →
    Answers (.coldStart ok) s fun t => t = s) ∧
  (∀ (s : State) (debug : Bool), s.pmu.railsUp = true → s.start.begun = true → s.mon.lost = false →
    debug = true → s.rd DBG_MODE ≠ 2 → Answers (.systemReset debug) s fun t => t = s) ∧
  (∀ (s : State) (debug : Bool), s.pmu.railsUp = true → s.start.begun = true → s.mon.lost = false →
    debug = false ∨ s.rd DBG_MODE = 2 →
    Answers (.systemReset debug) s fun t =>
      t.ccx.bootDue = true ∧ t.ccx.image = none ∧ t.cel.groups = s.cel.groups ∧ t.ctf = s.ctf ∧ t.mte = s.mte ∧
      t.sec.mats = s.sec.mats ∧ (∀ k < 64, k ∈ t.sec.stopped ∧ k ∈ t.cel.stopped) ∧ t.pending = s.pending ∧
      (∀ p off : Nat, 0x020 ≤ p → p < 0x044 → off < 4096 → (p, off) ≠ (0x029, 0x090) → t.reg p off = s.reg p off) ∧
      (∀ p off : Nat, 0x104 ≤ p → p < 0x140 → off < 4096 → t.reg p off = (RegMap.resetWord p off).toNat) ∧
      t.rd (MGC_MB_OUT 0) = 3 + s.rd PMU_WAKE_SRC * 2 ^ 4 + (if debug = true then 4 else 3) * 2 ^ 8 +
        s.rd MON_LVL * 2 ^ 12 ∧
      t.rd (MGC_MB_OUT 1) = satNat 32 (s.start.count + 1) ∧
      (s.rd MON_LVL < 3 → t.rd MON_LVL = 2 ∧ t.rd MON_CAUSE = 5 ∧
        (⟨0x2021, deviceTc, leBytes 8 (s.rd MON_LVL + 2 * 2 ^ 8 + 5 * 2 ^ 16)⟩ : LogEvent) ∈ t.events) ∧
      (s.rd MON_LVL = 3 → t.rd MON_LVL = 3 ∧
        (⟨0x2021, deviceTc, leBytes 8 (3 + 3 * 2 ^ 8 + 5 * 2 ^ 16)⟩ : LogEvent) ∈ t.events))
/-! ## Host and field interfaces (chapter 23) -/

namespace Sys2Proof.Machine

/-- The bytes of a request of Table 23-2: header, header CRC, payload. -/
def frameOf (op ses a cnt : Nat) (payload : List Byte) : List Byte :=
  let h := [op, ses, a % 256, a / 256 % 256, a / 65536 % 256, cnt].map (BitVec.ofNat 8)
  h ++ beBytes 2 (crc16 h) ++ payload

/-- A request on HSP. -/
def hspReq (op ses a cnt : Nat) (payload : List Byte) : HostReq := { iface := 0, bytes := frameOf op ses a cnt payload }

/-- What HSP sends for a response of Table 23-2: 0xA5, then the response (R565). -/
def hspAnswer (op ses : Nat) (c : Status) (done : Nat) (payload : List Byte) : Output :=
  ⟨.host 1, 0xA5 :: byteNats (respHead (op + 128) ses (codeOf c) done ++ payload)⟩

/-- A request on HSP is answered with a code and nothing else happens. -/
def HspRefused (s t : State) (op ses : Nat) (c : Status) : Prop :=
  t.out = s.out ++ [hspAnswer op ses c 0 []] ∧ t.resp.code = c ∧ t.resp.done = 0 ∧ SameBut [.resp, .out] s t

/-- An open session of HSP that was proved and whose slot keeps its generation. -/
def State.hspOpen (s : State) (n : Nat) (x : Session) : Prop :=
  s.pageRuns 0x104 = true ∧ n < 8 ∧ s.session? 1 n = some x ∧ x.isOpen = true ∧ x.bare = false ∧ s.slotGen x.slot = x.gen

/-- The word of a request after the first: its bytes lowest first, then its carry code. -/
def wordBytes (w : Word) (cc : Byte) : List Byte := leBytes 4 w.toNat ++ [cc]

end Sys2Proof.Machine

/-- On an open session of HSP: READ and WRITE of one word, and of two words up to a first that stops the frame, are the accesses of its tenant
in order, answered with HF_STS, HF_DONE and the words that were read; LOCKPAIR reads LOCK and writes the response to its challenge; CLOSE closes the
session. A failing header CRC is answered INTEG_FAIL and counted, a closed session NOT_OWNER, a number beyond the count CFG_INVALID, a retired key
KEY_RETIRED and the session closes, a form that R558 excludes CFG_INVALID, a count of zero ZERO_LEN. HSP_CS_CUT counts in HSP_CUTN. -/
def Obligations.HostFramesComplete : Prop :=
  (∀ (s u : State) (x : Session) (n A : Nat), s.hspOpen n x → A < 2 ^ 24 →
    u = s.read anyRead (sessionAccess x A 0 0) →
    Answers (.hostRead (hspReq opRead n A 1 [])) s fun t =>
      SameBut [.resp, .out] u t ∧ t.resp.code = u.resp.code ∧
      (goesOn u.resp.code = true → t.resp.done = 1 ∧ t.resp.data = [u.resp.data.headD 0] ∧
        t.resp.cc = [u.resp.cc.headD 0] ∧
        t.out = u.out ++ [hspAnswer opRead n u.resp.code 1
          (wordBytes (BitVec.ofNat 32 (u.resp.data.headD 0)) (BitVec.ofNat 8 (u.resp.cc.headD 0)))]) ∧
      (goesOn u.resp.code = false → t.resp.done = 0 ∧ t.out = u.out ++ [hspAnswer opRead n u.resp.code 0 []])) ∧
  (∀ (s u : State) (x : Session) (n A : Nat) (w : Word) (cc : Byte), s.hspOpen n x → A < 2 ^ 24 →
    u = s.write anyWrite (sessionAccess x A w cc) →
    Answers (.hostWrite (hspReq opWrite n A 1 (wordBytes w cc))) s fun t =>
      SameBut [.resp, .out] u t ∧ t.resp.code = u.resp.code ∧ t.resp.done = b2n (goesOn u.resp.code) ∧
      t.out = u.out ++ [hspAnswer opWrite n u.resp.code (b2n (goesOn u.resp.code)) []]) ∧
  (∀ (s u v : State) (x : Session) (n A : Nat) (w w2 : Word) (cc cc2 : Byte), s.hspOpen n x → A < 2 ^ 24 →
    A % 1024 ≤ 1022 → bit A 22 = false → u = s.write anyWrite (sessionAccess x A w cc) →
    v = u.write anyWrite (sessionAccess x (A + 1) w2 cc2) →
    Answers (.hostWrite (hspReq opWrite n A 2 (wordBytes w cc ++ wordBytes w2 cc2))) s fun t =>
      (goesOn u.resp.code = false → SameBut [.resp, .out] u t ∧ t.resp.code = u.resp.code ∧ t.resp.done = 0) ∧
      (goesOn u.resp.code = true → SameBut [.resp, .out] v t ∧ t.resp.done = 1 + b2n (goesOn v.resp.code) ∧
        (goesOn v.resp.code = false → t.resp.code = v.resp.code) ∧
        (goesOn v.resp.code = true → t.resp.code = firstOf u.resp.code v.resp.code))) ∧
  (∀ (s u v : State) (x : Session) (n A : Nat) (take : Bool) (w : Word), s.hspOpen n x → A < 2 ^ 24 →
    A % 1024 = 8 → u = s.read anyRead (sessionAccess x A 0 0) →
    w = BitVec.ofNat 32 (((u.resp.data.headD 0 % 65536) ^^^ s.pageOf x A) + b2n take * 2 ^ 30 + 2 ^ 31) →
    v = u.write anyWrite (sessionAccess x A w (carryCode true x.tc (addressA (BitVec.ofNat 32 (byteAddr x.tc A)).toNat
      (bit A 22)) w)) →
    Answers (.lockpair (hspReq opLock n A (b2n take) [])) s fun t =>
      (bit A 22 = false ∨ take = true → SameBut [.resp, .out] v t ∧ t.resp.code = v.resp.code ∧
        t.resp.done = b2n (v.resp.code == .ok)) ∧
      (bit A 22 = true → take = false → HspRefused s t opLock n .cfgInvalid)) ∧
  (∀ (s : State) (x : Session) (n : Nat), s.hspOpen n x →
    Answers (.closeSession (hspReq opClose n 0 0 [])) s fun t =>
      t.session? 1 n = none ∧ bit (t.rd HSP_OPEN) n = false ∧ bit (t.rd (IRQ_RAW 0x104)) 0 = true ∧ t.resp.code = .ok ∧
      t.out = s.out ++ [hspAnswer opClose n .ok 0 []] ∧ SameBut [.regs, .resp, .out, .hif] s t) ∧
  (∀ (s : State) (b : List Byte) (r : HostReq) (op : Nat) (c : Instr), r = { iface := 0, bytes := b } → s.pageRuns 0x104 = true →
    8 ≤ b.length → b.length = Request.need ⟨1, b, 0⟩ → Request.op ⟨1, b, 0⟩ = op →
    (c, op) ∈ [(.hostRead r, opRead), (.hostWrite r, opWrite), (.lockpair r, opLock), (.openSession r, opOpen),
      (.prove r, opProve), (.closeSession r, opClose), (.discover r, opDiscover)] →
    beNat ((b.drop 6).take 2) ≠ crc16 (b.take 6) →
    Answers c s fun t =>
      t.rd HSP_HCRCN = satNat 16 (s.rd HSP_HCRCN + 1) ∧ t.resp.code = .integFail ∧ SameBut [.regs, .resp, .out] s t) ∧
  (∀ (s : State) (n A : Nat), s.pageRuns 0x104 = true → A < 2 ^ 24 → n < 256 →
    (n < 8 → s.session? 1 n = none ∨ (∃ x, s.session? 1 n = some x ∧ x.isOpen = false) →
      Answers (.hostRead (hspReq opRead n A 1 [])) s fun t => HspRefused s t opRead n .notOwner) ∧
    (8 ≤ n → Answers (.hostRead (hspReq opRead n A 1 [])) s fun t => HspRefused s t opRead n .cfgInvalid)) ∧
  (∀ (s : State) (x : Session) (n A : Nat), s.pageRuns 0x104 = true → A < 2 ^ 24 → n < 8 → s.session? 1 n = some x →
    x.isOpen = true → x.bare = false → s.slotGen x.slot ≠ x.gen →
    Answers (.hostRead (hspReq opRead n A 1 [])) s fun t =>
      t.resp.code = .keyRetired ∧ t.session? 1 n = none ∧ SameBut [.regs, .resp, .out, .hif] s t) ∧
  (∀ (s : State) (x : Session) (n A cnt : Nat), s.hspOpen n x → A < 2 ^ 24 → cnt < 256 →
    (16 < cnt ∨ 1024 < A % 1024 + cnt ∨ (bit A 22 = true ∧ cnt ≠ 1) →
      Answers (.hostRead (hspReq opRead n A cnt [])) s fun t => HspRefused s t opRead n .cfgInvalid) ∧
    (cnt = 0 → bit A 22 = false →
      Answers (.hostRead (hspReq opRead n A cnt [])) s fun t => HspRefused s t opRead n .zeroLen)) ∧
  (∀ s : State, s.pageRuns 0x104 = true →
    Answers .hspCsCut s fun t => t.rd HSP_CUTN = satNat 16 (s.rd HSP_CUTN + 1) ∧ SameBut [.regs] s t)

/-- OPEN for an ACTIVE tenant with a MAC slot that it holds sets up the session with the slot's generation and a nonce that it returns; it is NOT_OWNER for a tenant
that is not ACTIVE, a slot held by another or an interface in lockout, CFG_INVALID for another slot; in recovery it opens for TC00 with no proof. PROVE with the right tag within 1 s opens
the session; with another it is NOT_OWNER, logged and counted, and the third within 1 s locks the interface for 10 s; late or without OPEN it is TIMEOUT. LOCKOUT_END
ends the lockout. DISCOVER changes nothing. A datagram with a wrong tag is dropped and counted, a repeated one gets the stored response, a lower HE_SEQ is dropped and counted. NOTE goes to the peer at a rise of the summary line. -/
def Obligations.SessionsComplete : Prop :=
  (∀ (s : State) (n k tc : Nat), s.pageRuns 0x104 = true → n < 8 → k < 256 → tc < 256 → (s.ccx.recovery = false ∨ tc ≠ 0) →
    (tc < 64 → k < 32 → s.tenant tc = tenActive → s.slotOwn k = tc → s.lockedOut 1 = false → s.macSlot k = true →
      s.on SEC_RBGERR = false →
      Answers (.openSession (hspReq opOpen n (tc + 256 * k) 0 [])) s fun t =>
        ∃ x, t.session? 1 n = some x ∧ x.isOpen = false ∧ x.tc = tc ∧ x.slot = k ∧ x.gen = s.slotGen k ∧
          x.nonce = (s.randomBytes 16).1 ∧ x.nonce.length = 16 ∧ x.clk = s.clk ∧
          t.out = s.out ++ [hspAnswer opOpen n .ok 0 x.nonce]) ∧
    (64 ≤ tc ∨ 32 ≤ k ∨ s.tenant tc ≠ tenActive ∨ s.slotOwn k ≠ tc ∨ s.lockedOut 1 = true →
      Answers (.openSession (hspReq opOpen n (tc + 256 * k) 0 [])) s fun t => HspRefused s t opOpen n .notOwner) ∧
    (tc < 64 → k < 32 → s.tenant tc = tenActive → s.slotOwn k = tc → s.lockedOut 1 = false → s.macSlot k = false →
      Answers (.openSession (hspReq opOpen n (tc + 256 * k) 0 [])) s fun t => HspRefused s t opOpen n .cfgInvalid)) ∧
  (∀ (s : State) (n k : Nat), s.pageRuns 0x104 = true → n < 8 → k < 256 → s.ccx.recovery = true →
    Answers (.openSession (hspReq opOpen n (256 * k) 0 [])) s fun t =>
      (∃ x, t.session? 1 n = some x ∧ x.isOpen = true ∧ x.bare = true ∧ x.tc = 0) ∧
      bit (t.rd HSP_OPEN) n = true ∧ t.resp.code = .ok) ∧
  (∀ (s : State) (x : Session) (n : Nat) (tag : List Byte), s.pageRuns 0x104 = true → n < 8 → s.session? 1 n = some x →
    x.isOpen = false → x.peer = 0 → x.slot < 32 → x.tc < 64 → tag.length = 16 →
    (s.clk ≤ x.clk + 48000 * 1000 * 65536 → s.slotGen x.slot = x.gen →
      (tag = (hmac (s.slotMat x.slot) (s.proofMessage x)).take 16 →
        Answers (.prove (hspReq opProve n 0 0 tag)) s fun t =>
          (∃ y, t.session? 1 n = some y ∧ y.isOpen = true ∧ y.tc = x.tc ∧ y.slot = x.slot ∧ y.bare = x.bare) ∧
          bit (t.rd HSP_OPEN) n = true ∧ t.rd (HSP_S_TC n) = x.tc ∧ t.rd (HSP_S_SLOT n) = x.slot ∧
          bit (t.rd (IRQ_RAW 0x104)) 0 = true ∧ t.resp.code = .ok) ∧
      (tag ≠ (hmac (s.slotMat x.slot) (s.proofMessage x)).take 16 →
        Answers (.prove (hspReq opProve n 0 0 tag)) s fun t =>
          t.session? 1 n = none ∧ t.resp.code = .notOwner ∧ Logged s t 0x5001 x.tc 0x104 ∧
          t.rd HSP_PROVEN = satNat 16 (s.rd HSP_PROVEN + 1) ∧
          ((s.hif.fails.filter fun e => e.1 == 1 && decide (s.clk < e.2 + 48000 * 1000 * 65536)).length = 2 →
            (1, s.clk + 48000 * 10000 * 65536) ∈ t.hif.locks ∧ t.lockedOut 1 = true))) ∧
    (x.clk + 48000 * 1000 * 65536 < s.clk →
      Answers (.prove (hspReq opProve n 0 0 tag)) s fun t => t.resp.code = .timeout ∧ t.session? 1 n = none)) ∧
  (∀ (s : State) (n : Nat) (tag : List Byte), s.pageRuns 0x104 = true → n < 8 → s.session? 1 n = none → tag.length = 16 →
    Answers (.prove (hspReq opProve n 0 0 tag)) s fun t => HspRefused s t opProve n .timeout) ∧
  (∀ (s : State) (i : Fin 3) (e : Nat), s.rd CTF_PERIOD ≠ 0 → s.hif.locks.find? (·.1 == i.val + 1) = some (i.val + 1, e) →
    Answers (.lockoutEnd i) s fun t => t.lockedOut (i.val + 1) = false ∧ e ≤ t.clk ∧ SameBut [.regs, .ticks, .clk, .ctf, .hif] s t) ∧
  (∀ (s : State) (n : Nat), s.pageRuns 0x104 = true → n < 256 →
    Answers (.discover (hspReq opDiscover n 0 0 [])) s fun t =>
      t.out = s.out ++ [hspAnswer opDiscover n .ok 0 s.discoverBytes] ∧ s.discoverBytes.length = 28 ∧
      SameBut [.resp, .out] s t) ∧
  (∀ (s : State) (x : Session) (n A seq : Nat) (r : HostReq) (body tag : List Byte), s.ifaceRuns 2 = true → n < 16 → A < 2 ^ 24 →
    seq < 2 ^ 32 → s.session? 2 n = some x → x.isOpen = true →
    body = leBytes 4 seq ++ frameOf opRead n A 1 [] → tag.length = 8 → r = { iface := 1, bytes := body ++ tag, src := BitVec.ofNat 48 x.peer } →
    x.peer < 2 ^ 48 →
    (tag ≠ (hmac x.key body).take 8 →
      Answers (.hostRead r) s fun t => t.rd ETH_TAGN = satNat 16 (s.rd ETH_TAGN + 1) ∧ SameBut [.regs] s t) ∧
    (tag = (hmac x.key body).take 8 →
      (x.seq = some seq → Answers (.hostRead r) s fun t =>
        t.out = s.out ++ [⟨.host 2, x.peer :: byteNats x.resp⟩] ∧ SameBut [.out] s t) ∧
      (∀ last, x.seq = some last → seq < last →
        Answers (.hostRead r) s fun t => t.rd ETH_SEQN = satNat 16 (s.rd ETH_SEQN + 1) ∧ SameBut [.regs] s t))) ∧
  (∀ (s : State) (x : Session) (n : Fin 16), s.session? 2 n.val = some x → x.isOpen = true → s.ifaceRuns 2 = true →
    s.summary x.tc = true → x.high = false →
    Answers (.note n) s fun t =>
      t.out = s.out ++ [⟨.host 2, x.peer :: byteNats (tagged x.key (2 ^ 31 + x.notes % 2 ^ 31) (respHead 0xA0 n.val 0 0))⟩] ∧
      t.session? 2 n.val = some { x with notes := x.notes + 1, high := true, noted := s.clk } ∧ SameBut [.out, .hif] s t)

/-- The next transmit descriptor that the MAC owns is sent, or ZERO_LEN; a received frame fills its descriptor, is PARTIAL where it is too long, or is dropped and counted. ETH_MD_GO performs
one operation; PHY_POLL copies the link. UART_TXDATA queues a byte, or counts one lost; a received character is stored with its error bit, while DE is asserted it is compared with the byte sent, a mismatch
stopping the transmission; a read of UART_RXDATA returns and removes the oldest byte; UART_EOF and UART_TX_END raise their events. GPIO_EDGE sets the event of a selected edge. TIN_CHANGE changes
the level and counts an activation. DBG_ARM arms, and DBG_REQ within 65,536 ct changes the mode and logs it, is TIMEOUT later, CFG_INVALID for mode 3. -/
def Obligations.FieldInterfacesComplete : Prop :=
  (∀ (s : State) (a : Nat) (d : List Byte), s.pageRuns 0x100 = true → s.on ETH_EN = true → s.rd ETH_TXL ≤ 10 →
    a = s.txBase + 16 * s.rd ETH_TXHEAD → d = s.sysBytes a 16 → bit (leAt d 9 1) 0 = true →
    Answers .ethTxDesc s fun t =>
      t.rd ETH_TXHEAD = (s.rd ETH_TXHEAD + 1) % 2 ^ s.rd ETH_TXL ∧ bit (t.rd (IRQ_RAW 0x100)) 0 = true ∧
      SameBut [.regs, .ccx, .mem, .out] s t ∧
      (leAt d 6 2 = 0 → t.out = s.out) ∧
      (leAt d 6 2 ≠ 0 → t.out = s.out ++ [⟨.ethernet, byteNats (s.sysBytes (leAt d 0 5) (leAt d 6 2))⟩]) ∧
      (0x8000000 ≤ a → a + 16 ≤ 0x8400000 →
        t.sysBytes (a + 8) 2 = [BitVec.ofNat 8 (if leAt d 6 2 = 0 then codeOf .zeroLen else codeOf .ok), 0])) ∧
  (∀ (s : State) (frame : List Byte) (a : Nat) (d : List Byte), s.pageRuns 0x100 = true → s.on ETH_EN = true →
    s.rd ETH_RXL ≤ 10 → a = s.rxBase + 16 * s.rd ETH_RXHEAD → d = s.sysBytes a 16 →
    (bit (leAt d 9 1) 0 = false →
      Answers (.ethRxFrame frame) s fun t =>
        t.rd ETH_RXDROPN = satNat 16 (s.rd ETH_RXDROPN + 1) ∧ SameBut [.regs] s t) ∧
    (bit (leAt d 9 1) 0 = true → 0x8000000 ≤ a → a + 16 ≤ 0x8400000 →
      Answers (.ethRxFrame frame) s fun t =>
        t.rd ETH_RXHEAD = (s.rd ETH_RXHEAD + 1) % 2 ^ s.rd ETH_RXL ∧ bit (t.rd (IRQ_RAW 0x100)) 0 = true ∧
        (s.rd ETH_RXBUF < frame.length → t.sysBytes (a + 8) 2 = [BitVec.ofNat 8 (codeOf .part), 0]) ∧
        (frame.length ≤ s.rd ETH_RXBUF → t.sysBytes (a + 6) 4 = leBytes 2 frame.length ++ [0, 0] ∧
          ∀ b, b = leAt d 0 5 → 0x8000000 ≤ b → b + frame.length ≤ a → t.sysBytes b frame.length = frame))) ∧
  (∀ (s : State) (answer : BitVec 16) (w : RegWrite), s.admitsWrite 0x100 0x06C w (setBit w.data.toNat 31) = true →
    bits w.data.toNat 24 2 ≠ 3 →
    Answers (.ethMdGo answer w) s fun t =>
      t.resp.code = .ok ∧ (s.rd ETH_MD_GO = 0 → t.rd ETH_MD_GO = 0) ∧ t.rd ETH_MD_OP = bits w.data.toNat 24 2 ∧
      t.out = s.out ++ [⟨.mdio, [bits w.data.toNat 26 1, bits w.data.toNat 24 2, s.rd ETH_PHYAD, bits w.data.toNat 16 5,
        bits w.data.toNat 0 16]⟩] ∧
      t.rd ETH_MD_DATA = (if bits w.data.toNat 24 2 = 2 then answer.toNat else bits w.data.toNat 0 16)) ∧
  (∀ (s : State) (link : Bool), s.pageRuns 0x100 = true → s.on ETH_APOLL = true →
    Answers (.phyPoll link) s fun t => t.on ETH_LINK = link ∧ SameBut [.regs, .out] s t) ∧
  (∀ (s : State) (n : Fin 2) (w : RegWrite), s.admitsWrite (0x10C + n.val) 0x048 w w.data.toNat = true →
    Answers (.uartTxdata n w) s fun t => t.resp.code = .ok ∧
      ((s.uart n.val).tx.length < 64 →
        (t.uart n.val).tx = (s.uart n.val).tx ++ [BitVec.ofNat 8 w.data.toNat] ∧ (t.uart n.val).rx = (s.uart n.val).rx ∧
        t.rd (UART_TXN n.val) = (s.uart n.val).tx.length + 1) ∧
      (64 ≤ (s.uart n.val).tx.length →
        t.uart n.val = s.uart n.val ∧ t.rd (UART_TXOVN n.val) = satNat 16 (s.rd (UART_TXOVN n.val) + 1))) ∧
  (∀ (s : State) (n : Fin 2) (char : Byte) (err : Bool), s.uartRuns n.val = true →
    ((s.uart n.val).de = false → (s.uart n.val).rx.length < 64 →
      Answers (.uartRxChar n char err) s fun t =>
        t.uart n.val = { s.uart n.val with rx := (s.uart n.val).rx ++ [(char, err)] } ∧ t.out = s.out ∧
        t.rd (UART_RXN n.val) = (s.uart n.val).rx.length + 1) ∧
    ((s.uart n.val).de = false → 64 ≤ (s.uart n.val).rx.length →
      Answers (.uartRxChar n char err) s fun t =>
        t.rd (UART_TXOVN n.val) = satNat 16 (s.rd (UART_TXOVN n.val) + 1) ∧ SameBut [.regs] s t) ∧
    (∀ b l, (s.uart n.val).de = true → (s.uart n.val).tx = b :: l →
      Answers (.uartRxChar n char err) s fun t =>
        t.out = s.out ++ [⟨.uart n.val, [b.toNat]⟩] ∧ (t.uart n.val).rx = (s.uart n.val).rx ∧
        (char = b → err = false → (t.uart n.val).tx = l ∧ (t.uart n.val).de = true) ∧
        (char ≠ b → (t.uart n.val).tx = [] ∧ (t.uart n.val).de = false ∧
          t.rd (UART_COLLN n.val) = satNat 16 (s.rd (UART_COLLN n.val) + 1) ∧
          bit (t.rd (IRQ_RAW (0x10C + n.val))) 1 = true))) ∧
  (∀ (s : State) (n : Fin 2) (r : RegRead), s.admitsRead (0x10C + n.val) 0x04C r = true →
    s.owns ⟨r.port, r.tc.val, 0x10C + n.val, 0x04C, none⟩ = true →
    Answers (.uartRxdataRead n r) s fun t =>
      t.resp.code = .ok ∧ (t.uart n.val).rx = (s.uart n.val).rx.drop 1 ∧ (t.uart n.val).tx = (s.uart n.val).tx ∧
      t.rd (UART_RXN n.val) = ((s.uart n.val).rx.length - 1) % 128 ∧
      t.resp.data = [s.rd (UART_RXD n.val) + s.rd (UART_RXERR n.val) * 2 ^ 8 + s.rd (UART_RXVALID n.val) * 2 ^ 9]) ∧
  (∀ (s : State) (n : Fin 2) (idle : Bool), s.uartRuns n.val = true →
    Answers (.uartEof n idle) s fun t =>
      bit (t.rd (IRQ_RAW (0x10C + n.val))) 0 = true ∧ t.on (UART_BIAS n.val) = (idle && !(s.uart n.val).de) ∧
      SameBut [.regs] s t) ∧
  (∀ (s : State) (n : Fin 2), s.uartRuns n.val = true → (s.uart n.val).de = true →
    Answers (.uartTxEnd n) s fun t =>
      t.uart n.val = { s.uart n.val with tx := [], de := false } ∧
      t.out = s.out ++ (s.uart n.val).tx.map (fun b => ⟨.uart n.val, [b.toNat]⟩) ∧
      bit (t.rd (IRQ_RAW (0x10C + n.val))) 2 = true ∧ t.rd (UART_TXN n.val) = 0) ∧
  (∀ (s : State) (pin : Fin 48) (level : Bool), s.on (GPIO_DIR pin.val) = false → s.on (GPIO_IN pin.val) ≠ level →
    Answers (.gpioEdge pin level) s fun t =>
      t.on (GPIO_IN pin.val) = level ∧ SameBut [.regs] s t ∧
      (bit (s.rd (GPIO_EDGE pin.val)) (if level then 0 else 1) = true →
        t.on (GPIO_EVT pin.val) = true ∧ bit (t.rd (IRQ_RAW 0x110)) 0 = true) ∧
      (bit (s.rd (GPIO_EDGE pin.val)) (if level then 0 else 1) = false →
        t.rd (GPIO_EVT pin.val) = s.rd (GPIO_EVT pin.val) ∧ t.rd (IRQ_RAW 0x110) = s.rd (IRQ_RAW 0x110))) ∧
  (∀ (s : State) (k : Fin 8) (level now : Bool), now = (level == bit (s.rd TIN_POL) k.val) →
    bit (s.rd TIN_LVL) k.val ≠ now →
    Answers (.tinChange k level) s fun t =>
      bit (t.rd TIN_LVL) k.val = now ∧ bit (t.rd (IRQ_RAW 0x114)) 0 = true ∧ SameBut [.regs] s t ∧
      (∀ j < 8, j ≠ k.val → bit (t.rd TIN_LVL) j = bit (s.rd TIN_LVL) j) ∧
      t.rd (TIN_CNT k.val) = (if now then satNat 16 (s.rd (TIN_CNT k.val) + 1) else s.rd (TIN_CNT k.val))) ∧
  (∀ (s : State) (w : RegWrite), s.admitsWrite 0x118 0x044 w (setBit w.data.toNat 0) = true →
    Answers (.dbgArm w) s fun t => t.resp.code = .ok ∧ t.hif.armed = some s.ticks ∧ t.rd DBG_MODE = s.rd DBG_MODE) ∧
  (∀ (s : State) (w : RegWrite), s.admitsWrite 0x118 0x044 w (clearBit w.data.toNat 0) = true →
    Answers (.dbgReq w) s fun t => t.hif.armed = none ∧ t.rd DBG_CCODE = codeOf t.resp.code ∧
      (bits w.data.toNat 8 2 = 3 → t.resp.code = .cfgInvalid ∧ t.rd DBG_MODE = s.rd DBG_MODE) ∧
      (bits w.data.toNat 8 2 ≠ 3 →
        (∀ a, s.hif.armed = some a → s.ticks ≤ a + 65536 →
          t.resp.code = .ok ∧ t.rd DBG_MODE = bits w.data.toNat 8 2 ∧
          (s.rd DBG_MODE ≠ bits w.data.toNat 8 2 → bit (t.rd (IRQ_RAW 0x118)) 0 = true ∧
            Logged s t 0x4004 (s.rd (OWN_TC 0x118)) (0x0118 + b2n (bits w.data.toNat 8 2 != 0) * 2 ^ 16)) ∧
          (s.rd DBG_MODE = bits w.data.toNat 8 2 → t.events = s.events)) ∧
        (s.hif.armed = none ∨ (∃ a, s.hif.armed = some a ∧ a + 65536 < s.ticks) →
          t.resp.code = .timeout ∧ t.rd DBG_MODE = s.rd DBG_MODE ∧ t.events = s.events)))

/-! ## What each command leaves (all chapters) -/

namespace Sys2Proof.Machine

/-- The parts of the state that a command of the metering and register space may change; none for the other commands. -/
def touchesMetering : Instr → Option (List Part)
  | .metrologyClose .. =>
    some [.regs, .events, .mte, .acc, .mem]
  | .accCycRead .. | .mteRdCycRead .. | .pqeHcycRead .. =>
    some [.regs, .latch, .latched, .pages, .events, .resp]
  | .accVclr .. =>
    some [.regs, .hold, .pages, .events, .resp, .acc]
  | .spillIncrement .. | .pinReadback .. =>
    some [.regs, .events, .acc]
  | .pulseStart .. | .pulseEnd .. =>
    some [.regs, .acc]
  | .loss .. =>
    some [.regs, .pages, .events, .ctf, .acc]
  | .hartMemoryAccess .. | .configWrite .. | .ctrlPrst .. | .lockWrite .. | .irqClr .. | .seed .. | .ctfReacq .. =>
    some [.regs, .inForce, .latch, .hold, .latched, .pages, .events, .resp, .out, .free, .ctf, .tnc, .acs, .mte,
    .acc, .pqe, .tun, .ltr, .barm, .ccx, .cel, .plt, .plp, .plm, .tmp, .clg, .sec, .swc, .bga, .pmu, .mon, .start,
    .hif, .mem]
  | .restoreSeqDone .. =>
    some [.regs, .pages, .events, .acc, .ccx, .cel]
  | .contTestStart .. | .calFullDone .. | .calTimeout .. =>
    some [.regs, .acs]
  | .acsCalZero .. | .acsCalFull .. | .acsCalAbort .. =>
    some [.regs, .hold, .pages, .events, .resp, .acs]
  | .calZeroDone .. =>
    some [.regs, .free, .acs]
  | .cycleBoundary .. | .sampleWord .. =>
    some [.regs, .inForce, .pages, .ticks, .clk, .events, .ctf, .tnc, .acs, .mte, .acc, .pqe, .tun, .barm, .tmp,
    .mon]
  | .schedActivate .. =>
    some [.regs, .ctf, .tun]
  | .schedSignal .. =>
    some [.regs, .ticks, .clk, .ctf, .tun]
  | .acquireRestart .. =>
    some [.regs, .ctf]
  | .revert .. | .utcLoad .. =>
    some [.regs, .events, .ctf]
  | .ctfForceNext .. | .utcSet .. | .ctfCommit .. =>
    some [.regs, .hold, .pages, .events, .resp, .ctf]
  | .stampRead .. | .pairFreeze .. | .pairRelease .. =>
    some [.regs, .latch, .pages, .events, .resp, .ctf]
  | .ref48Retry .. =>
    some [.events, .ctf]
  | .readClear .. | .replayRead .. | .lockRead .. =>
    some [.regs, .latch, .latched, .pages, .events, .resp, .free, .ctf, .cel, .bga, .hif]
  | .integScrub .. =>
    some [.regs, .pages, .events]
  | .sealedPageRewrite .. =>
    some [.regs, .pages, .events, .cel]
  | .pqeWindow .. =>
    some [.regs, .ticks, .clk, .events, .ctf, .pqe]
  | .vsenseClassify .. =>
    some [.regs, .events, .pqe]
  | .pqeBlockEnd .. =>
    some [.regs, .events, .free, .pqe]
  | .contTestResult .. =>
    some [.regs, .events, .free, .acs, .pqe]
  | .channelLost .. =>
    some [.regs, .pages, .events, .ctf, .acc, .pqe]
  | .sealComplete .. =>
    some [.regs, .events, .tnc, .cel]
  | .tenantResetDone .. =>
    some [.regs, .inForce, .hold, .pages, .events, .tnc, .acc, .cel, .plp, .plm, .sec, .mem]
  | .activate .. | .suspend .. | .resume .. | .softReset .. | .fullReset .. | .tncCxSoftrst .. | .grant ..
  | .revoke .. | .aliasMap .. | .tncSealReq .. | .tncUnsealArm .. | .tncUnsealReq .. =>
    some [.regs, .inForce, .hold, .pages, .events, .resp, .tnc, .barm, .cel, .plp, .plm, .sec, .mem]
  | .armWindowExpiry .. =>
    some [.tnc, .cel, .sec, .pmu, .hif]
  | .refillPeriod .. =>
    some [.regs, .tnc]
  | .itemLatestTime .. =>
    some [.regs, .tnc, .barm, .cel, .plm, .sec, .mem]
  | _ => none

/-- The parts of the state that a command of the inference path and control complex may change; none for the other commands. -/
def touchesInference : Instr → Option (List Part)
  | .barmAppend .. | .routerDeadline .. =>
    some [.regs, .events, .tun, .ltr, .barm]
  | .expertExpand .. | .entryPull .. | .tileDeadline .. =>
    some [.regs, .events, .tun, .barm]
  | .insightDeliver .. | .tileComplete .. =>
    some [.regs, .events, .tun, .barm, .mem]
  | .listComplete .. | .barmRecordRelease .. =>
    some [.regs, .tnc, .barm, .mem]
  | .windowBoundary .. | .barmRingPoll .. =>
    some [.regs, .events, .tnc, .barm, .mem]
  | .barmKick .. =>
    some [.regs, .hold, .pages, .events, .resp, .tnc, .barm, .mem]
  | .bootSelect .. | .recoveryRetry .. =>
    some [.regs, .events, .free, .ccx, .cel]
  | .reloadComplete .. =>
    some [.regs, .inForce, .latch, .hold, .pages, .events, .out, .tnc, .acc, .pqe, .tun, .ltr, .barm, .ccx, .cel,
    .plt, .plp, .plm, .sec, .swc, .pmu, .mon, .start, .hif, .mem]
  | .mgcWatchdog .. =>
    some [.regs, .inForce, .latch, .hold, .pages, .ticks, .clk, .events, .out, .ctf, .tnc, .acc, .pqe, .tun, .ltr,
    .barm, .ccx, .cel, .plt, .plp, .plm, .sec, .swc, .pmu, .mon, .start, .hif, .mem]
  | .mgcTrial .. | .mgcBootok .. | .mgcCcxreload .. | .mgcWkick .. | .restorePage .. | .restoreAcc .. | .saveAcc ..
  | .mgcDbToccx .. | .mgcDbTomgc .. =>
    some [.regs, .hold, .pages, .events, .resp, .free, .acc, .ccx, .cel]
  | .ccxTctx .. =>
    some [.regs, .events, .ccx]
  | .stampCompare .. =>
    some [.ccx]
  | .plicClaim .. =>
    some [.regs, .resp, .ccx]
  | .hartWatchdog .. =>
    some [.regs, .ticks, .clk, .ctf, .ccx]
  | .ddrInitDone .. | .ddrTrainTimeout .. | .qspiComplete .. =>
    some [.regs, .ccx]
  | .ccxDdrInit .. | .ccxQspGo .. | .ccxKick .. | .ccxHrst .. =>
    some [.regs, .hold, .pages, .events, .resp, .out, .ccx]
  | .routeOp .. | .combineOp .. =>
    some [.regs, .events, .tnc, .tun, .ltr, .barm, .mem]
  | .ltrWcommit .. =>
    some [.regs, .hold, .pages, .events, .resp, .ltr]
  | .tunCkResclr .. | .tunBstArm .. =>
    some [.regs, .hold, .pages, .events, .resp, .tnc, .tun]
  | .burstDrain .. =>
    some [.tun]
  | .burstRepStart .. | .burstRepEnd .. =>
    some [.regs, .tun]
  | _ => none

/-- The parts of the state that a command of the powerline and sweep chain may change; none for the other commands. -/
def touchesNetworks : Instr → Option (List Part)
  | .accessSlot .. =>
    some [.regs, .ticks, .clk, .ctf, .tnc, .cel, .plm, .mem]
  | .ackTimeout .. =>
    some [.regs, .ticks, .clk, .ctf, .tnc, .plm, .mem]
  | .toneTransmit .. | .toneReceive .. =>
    some [.regs, .out, .tnc, .plt, .plm, .mem]
  | .toneTxComplete .. =>
    some [.regs, .ticks, .clk, .ctf, .tnc, .plt, .plm, .mem]
  | .driverFault .. =>
    some [.regs, .events, .resp, .tnc, .plt, .plm, .mem]
  | .reassemblyTimeout .. | .radv .. | .schedRequestLate .. =>
    some [.regs, .plm]
  | .tmreq .. | .tmrsp .. | .tmapRefresh .. =>
    some [.regs, .plt, .plm]
  | .helloSend .. | .radvSend .. | .routeAge .. | .grantRenew .. =>
    some [.plm]
  | .hello .. | .bye .. | .neighbourAge .. =>
    some [.regs, .events, .plt, .plm]
  | .plmRingPoll .. =>
    some [.regs, .events, .tnc, .plm, .mem]
  | .join .. | .nodeSilent .. | .rgrsp .. | .rgrant .. | .standbyTakeover .. =>
    some [.regs, .events, .plm]
  | .joinWindowClose .. | .rgreq .. | .probeTimeout .. =>
    some [.regs, .plp, .plm]
  | .nodeUplink .. =>
    some [.regs, .events, .plm, .mem]
  | .nodeLeave .. | .nodeDeparted .. | .nrelay .. =>
    some [.regs, .events, .tnc, .plp, .plm, .mem]
  | .storedUplinkDeliver .. =>
    some [.regs, .plm, .mem]
  | .rgrev .. | .grantExpire .. | .takeoverLimit .. =>
    some [.regs, .events, .plp, .plm]
  | .pulseSlotDecide .. =>
    some [.regs, .out, .tnc, .plp, .plm, .mem]
  | .downlinkRequest .. | .downlinkTimeout .. =>
    some [.regs, .tnc, .plp, .plm, .mem]
  | .plmLeave .. | .plmJoin .. | .plmSitekeyCommit .. | .plmEpKcommit .. =>
    some [.regs, .hold, .pages, .events, .resp, .plm]
  | .tmapExpire .. =>
    some [.plt]
  | .enum .. =>
    some [.regs, .events, .out]
  | .announce .. | .reportFinal .. | .result .. =>
    some [.regs, .events, .out, .swc]
  | .link .. | .linkUp .. | .linkDown .. | .sweep .. | .cmdack .. =>
    some [.regs, .out, .swc]
  | .enumTimeout .. =>
    some [.regs, .ticks, .clk, .events, .ctf, .swc]
  | .alignExchange .. =>
    some [.out, .swc]
  | .alignreq .. | .fetch .. =>
    some [.regs, .out]
  | .alignrsp .. =>
    some [.regs, .swc]
  | .alignTimeout .. =>
    some [.regs]
  | .sweepExecute .. =>
    some [.regs, .ticks, .clk, .events, .out, .ctf, .cel, .clg, .swc]
  | .fetchTimeout .. =>
    some [.regs, .ticks, .clk, .ctf, .swc]
  | .swcEnum .. | .swcSwGo .. | .swcFGo .. =>
    some [.regs, .hold, .pages, .events, .resp, .out, .swc]
  | .swcOfsRead .. | .swcRhdrRead .. =>
    some [.regs, .latch, .pages, .events, .resp]
  | _ => none

/-- The parts of the state that a command of the security, storage, supply and interfaces may change; none for the other commands. -/
def touchesSupport : Instr → Option (List Part)
  | .openWireTest .. | .burstEdge .. =>
    some [.regs, .bga]
  | .estimationStep .. =>
    some [.regs, .bga, .pmu]
  | .mntEnd .. | .packPresenceChange .. | .chargeDone .. | .chargeRestart .. | .chargeTemp .. =>
    some [.regs, .pmu]
  | .bgaOwnow .. | .bgaMntGo .. | .bgaMntAbort .. | .bgaRestore .. | .bgaCold .. | .bgaTcommit .. =>
    some [.regs, .hold, .pages, .events, .resp, .bga, .pmu]
  | .snapshot .. =>
    some [.regs, .latch, .pages, .events, .resp, .bga]
  | .unitWipeDone .. =>
    some [.regs, .events, .tnc, .cel]
  | .celRingPoll .. =>
    some [.regs, .events, .tnc, .cel, .mem]
  | .celRead .. | .celWrite .. | .celZero .. =>
    some [.regs, .tnc, .cel, .mem]
  | .celCommandComplete .. =>
    some [.regs, .events, .free, .tnc, .cel, .mem]
  | .scrub .. =>
    some [.regs, .events, .cel]
  | .celUnresv .. | .celBparm .. | .celBpWrite .. | .celMGo .. =>
    some [.regs, .hold, .pages, .events, .resp, .free, .cel]
  | .logEvent .. | .writeBlockRelease .. =>
    some [.regs, .events, .cel, .clg]
  | .sealWrite .. =>
    some [.regs, .free, .cel, .clg]
  | .exportComplete .. =>
    some [.regs, .clg, .mem]
  | .clgSealnow .. | .clgRelease .. | .clgFwCode .. | .clgExpGo .. =>
    some [.regs, .hold, .pages, .events, .resp, .cel, .clg]
  | .clgRdw0Read .. =>
    some [.regs, .latch, .pages, .events, .resp, .cel]
  | .fullcntSave .. =>
    some [.regs, .cel, .clg]
  | .lockoutEnd .. =>
    some [.regs, .ticks, .clk, .ctf, .hif]
  | .hspCsCut .. | .uartEof .. | .gpioEdge .. | .tinChange .. | .avsStep .. =>
    some [.regs]
  | .note .. =>
    some [.regs, .ticks, .clk, .out, .ctf, .hif]
  | .ethTxDesc .. =>
    some [.regs, .out, .ccx, .mem]
  | .ethRxFrame .. =>
    some [.regs, .ccx, .mem]
  | .phyPoll .. =>
    some [.regs, .out]
  | .uartRxChar .. | .uartTxEnd .. =>
    some [.regs, .out, .hif]
  | .uartTxdata .. | .dbgArm .. | .dbgReq .. =>
    some [.regs, .hold, .pages, .events, .resp, .hif]
  | .uartRxdataRead .. =>
    some [.regs, .latch, .pages, .events, .resp, .hif]
  | .ethMdGo .. =>
    some [.regs, .hold, .pages, .events, .resp, .out]
  | .hostRead .. | .hostWrite .. | .lockpair .. | .openSession .. | .prove .. | .closeSession .. | .discover .. =>
    some [.regs, .inForce, .latch, .hold, .latched, .pages, .events, .resp, .out, .free, .ctf, .tnc, .acs, .mte,
    .acc, .pqe, .tun, .ltr, .barm, .ccx, .cel, .plt, .plp, .plm, .tmp, .clg, .sec, .swc, .bga, .pmu, .mon, .start,
    .hif, .mem]
  | .auxAttempt .. | .auxAttemptCheck .. =>
    some [.regs, .ticks, .clk, .events, .ctf, .tnc, .plt, .plm, .pmu, .mem]
  | .auxDrop .. =>
    some [.regs, .events, .tnc, .plt, .plm, .pmu, .mem]
  | .auxGoodHold .. | .rbgRecover .. =>
    some [.regs, .ticks, .clk, .ctf]
  | .supplyLoop .. =>
    some [.regs, .events, .tun, .mon]
  | .thermalLoop .. =>
    some [.regs, .events, .tnc, .tun, .barm, .mon]
  | .degradeDescent .. | .degradeAscent .. =>
    some [.regs, .pages, .events, .out, .tnc, .acc, .pqe, .tun, .ltr, .barm, .ccx, .cel, .plt, .plp, .plm, .sec,
    .swc, .pmu, .mon, .hif, .mem]
  | .inspectExpire .. =>
    some [.regs, .pages, .ticks, .clk, .events, .out, .ctf, .tnc, .acc, .pqe, .tun, .ltr, .barm, .ccx, .cel, .plt,
    .plp, .plm, .sec, .swc, .pmu, .mon, .hif, .mem]
  | .monCap .. | .monAscend .. =>
    some [.regs, .hold, .pages, .events, .resp]
  | .vinLost .. =>
    some [.regs, .pages, .events, .acc, .ccx, .cel, .pmu, .mon]
  | .vinPresent .. =>
    some [.regs, .pages, .events, .out, .tnc, .acc, .pqe, .tun, .ltr, .barm, .ccx, .cel, .plt, .plp, .plm, .sec,
    .swc, .pmu, .mon, .start, .hif, .mem]
  | .writeBlockAssert .. =>
    some [.regs, .pages, .events, .free, .tnc, .acc, .ccx, .cel, .clg, .mem]
  | .powerUp .. =>
    some [.regs, .inForce, .latch, .hold, .latched, .pages, .events, .ctf, .tnc, .acs, .mte, .acc, .pqe, .tun, .ltr,
    .barm, .ccx, .cel, .plt, .plp, .plm, .tmp, .clg, .sec, .swc, .bga, .pmu, .mon, .start, .hif, .mem]
  | .railFault .. | .vsysPowerDown .. | .cutoffSequence .. =>
    some [.regs, .inForce, .latch, .hold, .latched, .pages, .events, .free, .ctf, .tnc, .acs, .mte, .acc, .pqe, .tun,
    .ltr, .barm, .ccx, .cel, .plt, .plp, .plm, .tmp, .clg, .sec, .swc, .bga, .pmu, .mon, .start, .hif, .mem]
  | .railRestart .. =>
    some [.regs, .ticks, .clk, .ctf, .pmu, .start]
  | .cutoffWarning .. | .hardCutoff .. =>
    some [.regs, .pages, .events, .out, .tnc, .acc, .pqe, .tun, .ltr, .barm, .ccx, .cel, .plt, .plp, .plm, .sec,
    .swc, .bga, .pmu, .mon, .hif, .mem]
  | .cutGrace .. | .chargeTimeout .. =>
    some [.regs, .ticks, .clk, .ctf, .pmu]
  | .kilnTimeout .. =>
    some [.regs, .ticks, .clk, .ctf, .acc, .pmu]
  | .kilnExit .. =>
    some [.regs, .events, .pmu, .start]
  | .pmuAuxRetry .. | .pmuAuxEn .. | .pmuCutack .. | .pmuKilnArm .. | .pmuKilnGo .. | .pmuKilnConfirm .. =>
    some [.regs, .inForce, .latch, .hold, .latched, .pages, .events, .resp, .free, .ctf, .tnc, .acs, .mte, .acc,
    .pqe, .tun, .ltr, .barm, .ccx, .cel, .plt, .plp, .plm, .tmp, .clg, .sec, .swc, .bga, .pmu, .mon, .start, .hif,
    .mem]
  | .secRingPoll .. =>
    some [.regs, .events, .tnc, .sec, .mem]
  | .sha256 .. | .hmac .. | .ccmEnc .. | .ccmDec .. | .verify .. | .ecdh .. | .load .. | .pubkey .. =>
    some [.regs, .tnc, .sec, .mem]
  | .sign .. | .random .. | .generate .. =>
    some [.regs, .free, .tnc, .sec, .mem]
  | .erase .. | .secOpComplete .. =>
    some [.regs, .events, .tnc, .cel, .sec, .mem]
  | .eraseDeadline .. =>
    some [.regs, .ticks, .clk, .events, .ctf, .tnc, .cel, .sec, .mem]
  | .rbgFail .. =>
    some [.regs, .sec]
  | .secRbadv .. | .secRevk0 .. | .secRevk1 .. | .secIdarm .. | .secIdretire .. =>
    some [.regs, .hold, .pages, .events, .resp, .tnc, .cel, .sec, .mem]
  | .coldStart .. =>
    some [.regs, .pages, .events, .free, .tnc, .ccx, .cel, .plt, .plm, .clg, .sec, .pmu, .mon, .start, .mem]
  | .systemReset .. =>
    some [.regs, .inForce, .latch, .hold, .pages, .events, .out, .tnc, .acc, .pqe, .tun, .ltr, .barm, .ccx, .cel,
    .plt, .plp, .plm, .sec, .swc, .pmu, .mon, .start, .hif, .mem]
  | .magOn .. | .magOff .. | .encOpen .. | .encClose .. | .supplyGlitch .. | .tempOut .. | .tempBack .. =>
    some [.regs, .events, .tmp]
  | .clockGlitch .. | .xt32Stop .. | .xt32Restart .. =>
    some [.regs, .events, .ctf, .tmp]
  | .glitchRunEnd .. =>
    some [.regs, .ticks, .clk, .events, .ctf, .tmp]
  | _ => none

/-- The register pages in which an event of these may change a word; none for the other commands. -/
def registerPages : Instr → Option (List Nat)
  | .alignExchange .. | .armWindowExpiry .. | .burstDrain .. | .grantRenew .. | .helloSend .. | .radvSend ..
  | .ref48Retry .. | .routeAge .. | .stampCompare .. | .tmapExpire .. => some []
  | .acquireRestart .. | .utcLoad .. | .revert .. | .cutGrace .. | .glitchRunEnd .. | .lockoutEnd .. | .note .. => some [0x010]
  | .fetchTimeout .. => some [0x010, 0x0C0]
  | .xt32Restart .. | .clockGlitch .. | .xt32Stop .. => some [0x010, 0x0C8]
  | .rbgRecover .. => some [0x010, 0x0D0]
  | .kilnTimeout .. | .chargeTimeout .. => some [0x010, 0x0E8]
  | .auxGoodHold .. => some [0x010, 0x0E9]
  | .calTimeout .. => some [0x029]
  | .burstRepStart .. | .burstRepEnd .. => some [0x080]
  | .ccxTctx .. => some [0x0A0]
  | .ddrInitDone .. | .ddrTrainTimeout .. => some [0x0A2]
  | .plicClaim .. => some [0x0A8]
  | .tmapRefresh .. => some [0x0B0]
  | .tmrsp .. | .tmreq .. => some [0x0B0, 0x0B8]
  | .reassemblyTimeout .. | .schedRequestLate .. | .radv .. => some [0x0B8]
  | .alignTimeout .. | .alignreq .. | .cmdack .. | .enum .. | .fetch .. | .sweep .. | .result .. | .alignrsp ..
  | .link .. | .reportFinal .. => some [0x0C0]
  | .encOpen .. | .supplyGlitch .. | .tempBack .. | .tempOut .. | .encClose .. | .magOn .. | .magOff .. => some [0x0C8]
  | .rbgFail .. => some [0x0D0]
  | .burstEdge .. | .openWireTest .. => some [0x0E0]
  | .chargeDone .. | .chargeTemp .. | .chargeRestart .. => some [0x0E8]
  | .avsStep .. => some [0x0E9]
  | .phyPoll .. | .ethRxFrame .. | .ethTxDesc .. => some [0x100]
  | .hspCsCut .. => some [0x104]
  | .gpioEdge .. => some [0x110]
  | .tinChange .. => some [0x114]
  | _ => none

end Sys2Proof.Machine

/-- When a command of metering, of the cycle time, of the tenants and of the register space answers a next state, every part of the state but those that touchesMetering lists for it is as before: registers, configuration in force, latches, events, output, time, each unit's own state, memory and the queue. -/
def Obligations.MeteringFrame : Prop :=
  ∀ (c : Instr) (s t : State) (l : List Part), touchesMetering c = some l → exec c s = .next t → SameBut l s t

/-- When a command of the inference path and of the control complex answers a next state, every part of the state but those that touchesInference lists for it is as before: registers, configuration in force, latches, events, output, time, each unit's own state, memory and the queue. -/
def Obligations.InferenceFrame : Prop :=
  ∀ (c : Instr) (s t : State) (l : List Part), touchesInference c = some l → exec c s = .next t → SameBut l s t

/-- When a command of the powerline and of the sweep chain answers a next state, every part of the state but those that touchesNetworks lists for it is as before: registers, configuration in force, latches, events, output, time, each unit's own state, memory and the queue. -/
def Obligations.NetworksFrame : Prop :=
  ∀ (c : Instr) (s t : State) (l : List Part), touchesNetworks c = some l → exec c s = .next t → SameBut l s t

/-- When a command of tamper, the keys, the Cellar, the gauge, the supply, the monitors, the starts and the interfaces answers a next state, every part of the state but those that touchesSupport lists for it is as before: registers, configuration in force, latches, events, output, time, each unit's own state, memory and the queue. -/
def Obligations.SupportFrame : Prop :=
  ∀ (c : Instr) (s t : State) (l : List Part), touchesSupport c = some l → exec c s = .next t → SameBut l s t

/-- When one of the events that registerPages names answers a next state, every word of the register space outside the pages listed for it is as before; an event with no page listed changes no register. -/
def Obligations.EventPagesFrame : Prop :=
  ∀ (c : Instr) (s t : State) (l : List Nat), registerPages c = some l → exec c s = .next t → RegsBut l.contains s t
end

