-- ==== Sys2Proof/Laws/Bits.lean ====
section
/-! SUPPORT. Bit fields: what a field reads as after it, or another field, has been put. -/

namespace Sys2Proof.Machine

theorem bits_eq (n lo w : Nat) : bits n lo w = n / 2 ^ lo % 2 ^ w := rfl

theorem bits_lt (n lo w : Nat) : bits n lo w < 2 ^ w := Nat.mod_lt _ (by positivity)

theorem testBit_bits (n lo w i : Nat) :
    (bits n lo w).testBit i = (decide (i < w) && n.testBit (lo + i)) := by
  rw [bits_eq, Nat.testBit_mod_two_pow, Nat.testBit_div_two_pow, Nat.add_comm lo i]

/-- A number by its part above a field, the field and the part below. -/
theorem field_split (n lo w : Nat) :
    n = n / 2 ^ (lo + w) * 2 ^ (lo + w) + bits n lo w * 2 ^ lo + n % 2 ^ lo := by
  have h1 := Nat.div_add_mod n (2 ^ lo)
  have h2 := Nat.div_add_mod (n / 2 ^ lo) (2 ^ w)
  rw [Nat.div_div_eq_div_mul, ← pow_add] at h2
  rw [bits_eq]
  calc n = 2 ^ lo * (n / 2 ^ lo) + n % 2 ^ lo := h1.symm
    _ = 2 ^ lo * (2 ^ w * (n / 2 ^ (lo + w)) + n / 2 ^ lo % 2 ^ w) + n % 2 ^ lo := by rw [h2]
    _ = _ := by rw [pow_add]; ring

theorem putBits_split (n lo w v : Nat) :
    putBits n lo w v = n / 2 ^ (lo + w) * 2 ^ (lo + w) + v % 2 ^ w * 2 ^ lo + n % 2 ^ lo := by
  have h := field_split n lo w
  unfold putBits
  omega

theorem testBit_putBits (n lo w v i : Nat) :
    (putBits n lo w v).testBit i =
      if lo ≤ i ∧ i < lo + w then v.testBit (i - lo) else n.testBit i := by
  have hl : n % 2 ^ lo < 2 ^ lo := Nat.mod_lt _ (by positivity)
  have hv : v % 2 ^ w < 2 ^ w := Nat.mod_lt _ (by positivity)
  have e : putBits n lo w v
      = 2 ^ lo * (2 ^ w * (n / 2 ^ (lo + w)) + v % 2 ^ w) + n % 2 ^ lo := by
    rw [putBits_split, pow_add]; ring
  rw [e, Nat.testBit_two_pow_mul_add _ hl]
  by_cases h1 : i < lo
  · have : ¬ (lo ≤ i ∧ i < lo + w) := by omega
    rw [if_pos h1, if_neg this, Nat.testBit_mod_two_pow]; simp [h1]
  · rw [if_neg h1, Nat.testBit_two_pow_mul_add _ hv]
    by_cases h2 : i - lo < w
    · rw [if_pos h2, if_pos (by omega), Nat.testBit_mod_two_pow]; simp [h2]
    · rw [if_neg h2, if_neg (by omega), Nat.testBit_div_two_pow]
      congr 1; omega

/-- A field just put. -/
theorem bits_putBits_same (n lo w v : Nat) : bits (putBits n lo w v) lo w = v % 2 ^ w := by
  apply Nat.eq_of_testBit_eq
  intro i
  rw [testBit_bits, testBit_putBits, Nat.testBit_mod_two_pow]
  by_cases h : i < w
  · simp [h]
  · simp [h]

/-- A field that does not meet the one put. -/
theorem bits_putBits_other (n lo w v lo' w' : Nat) (h : lo' + w' ≤ lo ∨ lo + w ≤ lo') :
    bits (putBits n lo w v) lo' w' = bits n lo' w' := by
  apply Nat.eq_of_testBit_eq
  intro i
  rw [testBit_bits, testBit_bits, testBit_putBits]
  by_cases hi : i < w'
  · rw [if_neg (by omega)]
  · simp [hi]

/-- A field within a word survives the cut to 32 bits. -/
theorem bits_mod_word (n lo w : Nat) (h : lo + w ≤ 32) : bits (n % 2 ^ 32) lo w = bits n lo w := by
  apply Nat.eq_of_testBit_eq
  intro i
  rw [testBit_bits, testBit_bits, Nat.testBit_mod_two_pow]
  by_cases hi : i < w
  · have : lo + i < 32 := by omega
    simp [hi, this]
  · simp [hi]

theorem testBit_setBit (n k i : Nat) : (setBit n k).testBit i = (n.testBit i || decide (i = k)) := by
  have e : setBit n k = putBits n k 1 1 := by
    have h := field_split n k 1
    have hb : bits n k 1 < 2 := bits_lt n k 1
    rw [putBits_split]
    unfold setBit bit
    rw [bits_eq] at h hb
    split <;> rename_i hc <;> simp only [beq_iff_eq] at hc
    · simp only [pow_one] at h hb ⊢; rw [hc] at h; simpa using h
    · have h0 : n / 2 ^ k % 2 = 0 := by omega
      simp only [pow_one] at h hb ⊢; rw [h0] at h; omega
  rw [e, testBit_putBits]
  by_cases h : i = k
  · subst h; simp
  · rw [if_neg (by omega)]; simp [h]

/-- A bit just set. -/
@[simp] theorem bit_setBit_same (n k : Nat) : bit (setBit n k) k = true := by
  have := testBit_setBit n k k
  simp only [decide_true, Bool.or_true] at this
  rw [Nat.testBit_eq_decide_div_mod_eq] at this
  simpa [bit] using this

end Sys2Proof.Machine
end

