-- ==== Sys2Proof/Laws/Cells.lean ====
section
/-! SUPPORT. Sparse maps: what a read finds after a write, an erasure or a filter, and that every
operation keeps the canonical form. -/

namespace Sys2Proof.Machine

variable {α : Type}

@[simp] theorem cellAt_nil (d : α) (k : Nat) : cellAt d k [] = d := rfl

@[simp] theorem cellAt_insert_same (d : α) (k : Nat) (v : α) (l : List (Nat × α)) :
    cellAt d k (cellInsert k v l) = v := by
  induction l with
  | nil => simp [cellInsert, cellAt]
  | cons e r ih =>
    obtain ⟨j, u⟩ := e
    unfold cellInsert
    split
    · simp [cellAt]
    · split
      · simp [cellAt]
      · rename_i h
        simp [cellAt, h, ih]

theorem cellAt_insert_other (d : α) {k k' : Nat} (h : k' ≠ k) (v : α) (l : List (Nat × α)) :
    cellAt d k' (cellInsert k v l) = cellAt d k' l := by
  induction l with
  | nil => simp [cellInsert, cellAt, h]
  | cons e r ih =>
    obtain ⟨j, u⟩ := e
    unfold cellInsert
    split
    · simp [cellAt, h]
    · split
      · rename_i e; subst e; simp [cellAt, h]
      · simp [cellAt, ih]

@[simp] theorem cellAt_erase_same (d : α) (k : Nat) (l : List (Nat × α)) :
    cellAt d k (cellErase k l) = d := by
  induction l with
  | nil => rfl
  | cons e r ih =>
    obtain ⟨j, u⟩ := e
    unfold cellErase
    split
    · exact ih
    · rename_i h; simp [cellAt, h, ih]

theorem cellAt_erase_other (d : α) {k k' : Nat} (h : k' ≠ k) (l : List (Nat × α)) :
    cellAt d k' (cellErase k l) = cellAt d k' l := by
  induction l with
  | nil => rfl
  | cons e r ih =>
    obtain ⟨j, u⟩ := e
    unfold cellErase
    split
    · rename_i e; subst e; simp [cellAt, h, ih]
    · simp [cellAt, ih]

/-- A read of the key just written. -/
@[simp] theorem cellAt_put_same [DecidableEq α] (d : α) (k : Nat) (v : α) (l : List (Nat × α)) :
    cellAt d k (cellPut d k v l) = v := by
  unfold cellPut
  split
  · rename_i h; simp [h]
  · simp

/-- A read of another key. -/
theorem cellAt_put_other [DecidableEq α] (d d' : α) {k k' : Nat} (h : k' ≠ k) (v : α)
    (l : List (Nat × α)) : cellAt d k' (cellPut d' k v l) = cellAt d k' l := by
  unfold cellPut
  split
  · exact cellAt_erase_other d h l
  · exact cellAt_insert_other d h v l

/-- A read of a key that a filter keeps. -/
theorem cellAt_filter_keep (d : α) {k : Nat} (p : Nat × α → Bool) (h : ∀ v, p (k, v) = true)
    (l : List (Nat × α)) : cellAt d k (l.filter p) = cellAt d k l := by
  induction l with
  | nil => rfl
  | cons e r ih =>
    obtain ⟨j, u⟩ := e
    by_cases hj : k = j
    · subst hj; simp [h, cellAt]
    · rw [List.filter_cons]
      split
      · simp [cellAt, hj, ih]
      · simp [cellAt, hj, ih]

/-- A read of a key that a filter removes. -/
theorem cellAt_filter_drop (d : α) {k : Nat} (p : Nat × α → Bool) (h : ∀ v, p (k, v) = false)
    (l : List (Nat × α)) : cellAt d k (l.filter p) = d := by
  induction l with
  | nil => rfl
  | cons e r ih =>
    obtain ⟨j, u⟩ := e
    by_cases hj : k = j
    · subst hj; simp [h, ih]
    · rw [List.filter_cons]
      split
      · simp [cellAt, hj, ih]
      · exact ih

/-! ## The canonical form -/

theorem cellsRise_weaken {b : Option Nat} {l : List (Nat × α)} (h : cellsRise b l = true) :
    cellsRise none l = true := by
  cases l with
  | nil => rfl
  | cons e r =>
    obtain ⟨j, u⟩ := e
    cases b with
    | none => exact h
    | some c => simp only [cellsRise, Bool.and_eq_true] at h ⊢; exact h.2

theorem cellsRise_lower {b c : Nat} (hc : c ≤ b) {l : List (Nat × α)}
    (h : cellsRise (some b) l = true) : cellsRise (some c) l = true := by
  cases l with
  | nil => rfl
  | cons e r =>
    obtain ⟨j, u⟩ := e
    simp only [cellsRise, Bool.and_eq_true, decide_eq_true_eq] at h ⊢
    exact ⟨by omega, h.2⟩

theorem cellsRise_insert {b : Option Nat} {k : Nat} (hb : ∀ c, b = some c → c < k) (v : α)
    {l : List (Nat × α)} (h : cellsRise b l = true) : cellsRise b (cellInsert k v l) = true := by
  induction l generalizing b with
  | nil => cases b with
    | none => rfl
    | some c => simpa [cellInsert, cellsRise] using hb c rfl
  | cons e r ih =>
    obtain ⟨j, u⟩ := e
    have hr : cellsRise (some j) r = true := by
      cases b with
      | none => exact h
      | some c => simp only [cellsRise, Bool.and_eq_true] at h; exact h.2
    unfold cellInsert
    split
    · rename_i hk
      have : cellsRise (some k) ((j, u) :: r) = true := by simp [cellsRise, hk, hr]
      cases b with
      | none => exact this
      | some c => simp only [cellsRise, Bool.and_eq_true, decide_eq_true_eq] at this ⊢; exact ⟨hb c rfl, this⟩
    · split
      · rename_i _ e; subst e
        cases b with
        | none => exact hr
        | some c => simp only [cellsRise, Bool.and_eq_true, decide_eq_true_eq]; exact ⟨hb c rfl, hr⟩
      · have hi := ih (b := some j) (by intro c e; cases e; omega) hr
        cases b with
        | none => exact hi
        | some c => simp only [cellsRise, Bool.and_eq_true] at h ⊢; exact ⟨h.1, hi⟩

theorem cellsRise_filter {b : Option Nat} (p : Nat × α → Bool) {l : List (Nat × α)}
    (h : cellsRise b l = true) : cellsRise b (l.filter p) = true := by
  induction l generalizing b with
  | nil => exact h
  | cons e r ih =>
    obtain ⟨j, u⟩ := e
    have hr : cellsRise (some j) r = true := by
      cases b with
      | none => exact h
      | some c => simp only [cellsRise, Bool.and_eq_true] at h; exact h.2
    rw [List.filter_cons]
    split
    · cases b with
      | none => exact ih hr
      | some c => simp only [cellsRise, Bool.and_eq_true] at h ⊢; exact ⟨h.1, ih hr⟩
    · cases b with
      | none => exact cellsRise_weaken (ih hr)
      | some c =>
        simp only [cellsRise, Bool.and_eq_true, decide_eq_true_eq] at h
        exact cellsRise_lower (by omega) (ih hr)

theorem cellErase_eq_filter (k : Nat) (l : List (Nat × α)) :
    cellErase k l = l.filter fun e => k != e.1 := by
  induction l with
  | nil => rfl
  | cons e r ih =>
    obtain ⟨j, u⟩ := e
    unfold cellErase
    split
    · rename_i h; subst h; simp [ih]
    · rename_i h; simp [h, ih]

theorem cellInsert_mem {k : Nat} {v : α} {l : List (Nat × α)} {e : Nat × α}
    (h : e ∈ cellInsert k v l) : e = (k, v) ∨ e ∈ l := by
  induction l with
  | nil => simpa [cellInsert] using h
  | cons x r ih =>
    obtain ⟨j, u⟩ := x
    unfold cellInsert at h
    split at h
    · simpa using h
    · split at h
      · simp only [List.mem_cons] at h ⊢; tauto
      · simp only [List.mem_cons] at h ⊢
        rcases h with h | h
        · tauto
        · rcases ih h with h | h <;> tauto

/-- A write keeps the canonical form. -/
theorem cellPut_wf [DecidableEq α] (d : Nat → α) (k : Nat) (v : α) {l : List (Nat × α)}
    (h : cellsWf d l = true) : cellsWf d (cellPut (d k) k v l) = true := by
  simp only [cellsWf, Bool.and_eq_true, List.all_eq_true, decide_eq_true_eq] at h ⊢
  unfold cellPut
  split
  · rw [cellErase_eq_filter]
    exact ⟨cellsRise_filter _ h.1, fun e he => h.2 e (List.mem_filter.1 he).1⟩
  · rename_i hv
    refine ⟨cellsRise_insert (by simp) v h.1, fun e he => ?_⟩
    rcases cellInsert_mem he with he | he
    · subst he; exact hv
    · exact h.2 e he

/-- A filter keeps the canonical form. -/
theorem cells_filter_wf [DecidableEq α] (d : Nat → α) (p : Nat × α → Bool) {l : List (Nat × α)}
    (h : cellsWf d l = true) : cellsWf d (l.filter p) = true := by
  simp only [cellsWf, Bool.and_eq_true, List.all_eq_true, decide_eq_true_eq] at h ⊢
  exact ⟨cellsRise_filter _ h.1, fun e he => h.2 e (List.mem_filter.1 he).1⟩

end Sys2Proof.Machine
end

