-- ==== Sys2Proof/Laws/Regs.lean ====
section
/-! SUPPORT. The register space: what a field reads as after a field has been written. -/

namespace Sys2Proof.Machine

/-- The key of the first word of a field. -/
def Fld.key (f : Fld) : Nat := regKey f.page f.off

/-- The number of words that a field takes. -/
def Fld.words (f : Fld) : Nat := if f.width ≤ 32 then 1 else (f.width + 31) / 32

/-- A field lies in one word. -/
def Fld.narrow (f : Fld) : Bool := decide (f.width ≤ 32) && decide (f.lo + f.width ≤ 32)

/-- Two fields share no bit: they lie in different words, or in different bits of one word. -/
def Fld.apart (f g : Fld) : Bool :=
  decide (f.key + 4 * f.words ≤ g.key) || decide (g.key + 4 * g.words ≤ f.key)
    || (decide (f.width ≤ 32) && decide (g.width ≤ 32)
        && (decide (f.lo + f.width ≤ g.lo) || decide (g.lo + g.width ≤ f.lo)) && f.key == g.key
        && f.page == g.page && f.off == g.off)

theorem regKey_add (p o n : Nat) : regKey p (o + n) = regKey p o + n := by unfold regKey; omega

/-! ## Words -/

theorem reg_setReg_same (s : State) (p o v : Nat) : (s.setReg p o v).reg p o = v % 2 ^ 32 := by
  simp [State.reg, State.setReg]

theorem reg_setReg_other (s : State) {p o p' o' : Nat} (h : regKey p' o' ≠ regKey p o) (v : Nat) :
    (s.setReg p o v).reg p' o' = s.reg p' o' := by
  simp only [State.reg, State.setReg]
  rw [cellAt_put_other _ _ h]

theorem reg_setWide_other (s : State) {p o p' o' : Nat} (n v : Nat)
    (h : regKey p' o' < regKey p o ∨ regKey p o + 4 * n ≤ regKey p' o') :
    (s.setWide p o n v).reg p' o' = s.reg p' o' := by
  induction n generalizing s o v with
  | zero => rfl
  | succ n ih =>
    unfold State.setWide
    rw [ih, reg_setReg_other _ (by omega)]
    rw [regKey_add]; omega

theorem regWide_setReg_other (s : State) {p o p' o' : Nat} (n v : Nat)
    (h : regKey p o < regKey p' o' ∨ regKey p' o' + 4 * n ≤ regKey p o) :
    (s.setReg p o v).regWide p' o' n = s.regWide p' o' n := by
  induction n generalizing o' with
  | zero => rfl
  | succ n ih =>
    unfold State.regWide
    rw [ih (by rw [regKey_add]; omega), reg_setReg_other _ (by omega)]

theorem regWide_setWide_other (s : State) {p o p' o' : Nat} (n m v : Nat)
    (h : regKey p o + 4 * n ≤ regKey p' o' ∨ regKey p' o' + 4 * m ≤ regKey p o) :
    (s.setWide p o n v).regWide p' o' m = s.regWide p' o' m := by
  induction n generalizing s o v with
  | zero => rfl
  | succ n ih =>
    unfold State.setWide
    rw [ih _ _ (by rw [regKey_add]; omega)]
    by_cases hm : m = 0
    · subst hm; rfl
    · exact regWide_setReg_other s m _ (by omega)

theorem regWide_setWide_same (s : State) (p o n v : Nat) :
    (s.setWide p o n v).regWide p o n = v % 2 ^ (32 * n) := by
  induction n generalizing s o v with
  | zero => simp [State.regWide, Nat.mod_one]
  | succ n ih =>
    unfold State.setWide State.regWide
    rw [reg_setWide_other _ _ _ (by rw [regKey_add]; omega), reg_setReg_same, ih,
      show 32 * (n + 1) = 32 + 32 * n by ring, pow_add, Nat.mod_mul]
    simp

/-! ## Fields -/

/-- A field just written. -/
theorem rd_wr_same (s : State) (f : Fld) (v : Nat) (h : f.narrow = true) :
    (s.wr f v).rd f = v % 2 ^ f.width := by
  simp only [Fld.narrow, Bool.and_eq_true, decide_eq_true_eq] at h
  simp only [State.rd, State.wr, if_pos h.1, reg_setReg_same]
  rw [bits_mod_word _ _ _ h.2, bits_putBits_same]

/-- A field of several words just written. -/
theorem rd_wr_wide (s : State) (f : Fld) (v : Nat) (h : 32 < f.width) :
    (s.wr f v).rd f = v % 2 ^ (32 * ((f.width + 31) / 32)) := by
  have h' : ¬ f.width ≤ 32 := by omega
  simp only [State.rd, State.wr, if_neg h', regWide_setWide_same]

/-- A word under a write of a field elsewhere. -/
theorem reg_wr_other (s : State) (f : Fld) (v p o : Nat)
    (h : regKey p o < f.key ∨ f.key + 4 * f.words ≤ regKey p o) :
    (s.wr f v).reg p o = s.reg p o := by
  unfold Fld.key Fld.words at h
  unfold State.wr
  split
  · rename_i hw; rw [if_pos hw] at h; exact reg_setReg_other s (by omega) _
  · rename_i hw; rw [if_neg hw] at h; exact reg_setWide_other s _ _ h

/-- A field that shares no bit with the one written. -/
theorem rd_wr_apart (s : State) (f g : Fld) (v : Nat) (h : f.apart g = true)
    (hg : g.width ≤ 32 → g.lo + g.width ≤ 32) : (s.wr f v).rd g = s.rd g := by
  simp only [Fld.apart, Bool.or_eq_true, Bool.and_eq_true, decide_eq_true_eq, beq_iff_eq] at h
  rcases h with h | h
  · have hh : f.key + 4 * f.words ≤ g.key ∨ g.key + 4 * g.words ≤ f.key := h
    unfold Fld.key Fld.words at hh
    unfold State.rd
    split
    · rename_i hw
      rw [if_pos hw] at hh
      rw [reg_wr_other]
      unfold Fld.key Fld.words
      split at hh <;> rename_i hf <;> simp only [hf, if_true, if_false] <;> omega
    · rename_i hw
      rw [if_neg hw] at hh
      unfold State.wr
      split
      · rename_i hf; rw [if_pos hf] at hh; exact regWide_setReg_other s _ _ (by omega)
      · rename_i hf; rw [if_neg hf] at hh; exact regWide_setWide_other s _ _ _ hh
  · obtain ⟨⟨⟨⟨⟨hf, hgw⟩, hb⟩, _⟩, hp⟩, ho⟩ := h
    simp only [State.rd, State.wr, if_pos hf, if_pos hgw, hp, ho, reg_setReg_same]
    rw [bits_mod_word _ _ _ (hg hgw), bits_putBits_other _ _ _ _ _ _ hb.symm]

/-- A bit field just written. -/
theorem on_wr_same (s : State) (f : Fld) (v : Nat) (h : f.narrow = true) :
    (s.wr f v).on f = (v % 2 ^ f.width == 1) := by
  rw [State.on, rd_wr_same s f v h]

theorem on_wr_apart (s : State) (f g : Fld) (v : Nat) (h : f.apart g = true)
    (hg : g.width ≤ 32 → g.lo + g.width ≤ 32) : (s.wr f v).on g = s.on g := by
  rw [State.on, rd_wr_apart s f g v h hg, State.on]

/-- The words of a page that a clear keeps. -/
theorem reg_clearRegs_keep (s : State) {page p o : Nat} (q : Nat → Bool)
    (h : regKey p o / 4096 ≠ page ∨ q (regKey p o % 4096) = false) :
    (s.clearRegs page q).reg p o = s.reg p o := by
  simp only [State.reg, State.clearRegs]
  rw [cellAt_filter_keep]
  intro v
  rcases h with h | h
  · simp [h]
  · simp [h]

/-- The words of a page that a clear returns to reset. -/
theorem reg_clearRegs_drop (s : State) {page o : Nat} (q : Nat → Bool) (ho : o < 4096)
    (h : q o = true) : (s.clearRegs page q).reg page o = (RegMap.resetWord page o).toNat := by
  simp only [State.reg, State.clearRegs]
  rw [cellAt_filter_drop]
  intro v
  have h1 : regKey page o / 4096 = page := by unfold regKey; omega
  have h2 : regKey page o % 4096 = o := by unfold regKey; omega
  simp [h1, h2, h]

/-- A counter of a field just counted. -/
theorem rd_count_same (s : State) (f : Fld) (n : Nat) (h : f.narrow = true) :
    (s.count f n).rd f = satNat f.width (s.rd f + n) := by
  rw [State.count, rd_wr_same s f _ h, Nat.mod_eq_of_lt]
  have : 0 < 2 ^ f.width := by positivity
  unfold satNat; omega

theorem rd_count_apart (s : State) (f g : Fld) (n : Nat) (h : f.apart g = true)
    (hg : g.width ≤ 32 → g.lo + g.width ≤ 32) : (s.count f n).rd g = s.rd g :=
  rd_wr_apart s f g _ h hg

theorem rd_raise_apart (s : State) (p b : Nat) (g : Fld) (h : (Reg.IRQ_RAW p).apart g = true)
    (hg : g.width ≤ 32 → g.lo + g.width ≤ 32) : (s.raise p b).rd g = s.rd g :=
  rd_wr_apart s _ g _ h hg

/-! ## Memory -/

theorem memByte_put_same (m : List Host.Cell) (a : Nat) (b : Byte) : memByte (memPut m a b) a = b := by
  simp [memByte, memPut]

theorem memByte_put_other (m : List Host.Cell) {a a' : Nat} (h : a' ≠ a) (b : Byte) :
    memByte (memPut m a b) a' = memByte m a' := cellAt_put_other _ _ h b m

theorem memByte_store_other (m : List Host.Cell) (a a' : Nat) (bs : List Byte)
    (h : a' < a ∨ a + bs.length ≤ a') : memByte (memStore m a bs) a' = memByte m a' := by
  induction bs generalizing m a with
  | nil => rfl
  | cons b bs ih =>
    simp only [List.length_cons] at h
    rw [memStore, ih _ _ (by omega), memByte_put_other _ (by omega)]

theorem memBytes_store_same (m : List Host.Cell) (a : Nat) (bs : List Byte) :
    memBytes (memStore m a bs) a bs.length = bs := by
  induction bs generalizing m a with
  | nil => rfl
  | cons b bs ih =>
    rw [memStore, List.length_cons, memBytes, ih, memByte_store_other _ _ _ _ (by omega),
      memByte_put_same]

theorem memPut_wf (m : List Host.Cell) (a : Nat) (b : Byte) (h : memWf m = true) :
    memWf (memPut m a b) = true := cellPut_wf (fun _ => blankByte) a b h

/-- Storing bytes keeps the canonical form of the memory. -/
theorem memStore_wf (m : List Host.Cell) (a : Nat) (bs : List Byte) (h : memWf m = true) :
    memWf (memStore m a bs) = true := by
  induction bs generalizing m a with
  | nil => exact h
  | cons b bs ih => exact ih _ _ (memPut_wf m a b h)

/-- Forgetting cells keeps the canonical form of the memory. -/
theorem memFilter_wf (m : List Host.Cell) (p : Host.Cell → Bool) (h : memWf m = true) :
    memWf (m.filter p) = true := cells_filter_wf (fun _ => blankByte) p h

end Sys2Proof.Machine
end

