-- ==== Sys2Proof/Laws/State.lean ====
section
/-! SUPPORT. What each named operation leaves of the state: one theorem per operation, a clause per field,
and what a register reads as after an operation that stores in no register. -/

namespace Sys2Proof.Machine

/-- Registers read alike in states with equal register words. -/
theorem reg_of_regs {s t : State} (h : s.regs = t.regs) (p o : Nat) : s.reg p o = t.reg p o := by
  unfold State.reg; rw [h]

theorem regWide_of_regs {s t : State} (h : s.regs = t.regs) (p o n : Nat) :
    s.regWide p o n = t.regWide p o n := by
  induction n generalizing o with
  | zero => rfl
  | succ n ih => unfold State.regWide; rw [ih, reg_of_regs h]

theorem rd_of_regs {s t : State} (h : s.regs = t.regs) (f : Fld) : s.rd f = t.rd f := by
  unfold State.rd; rw [reg_of_regs h, regWide_of_regs h]

theorem on_of_regs {s t : State} (h : s.regs = t.regs) (f : Fld) : s.on f = t.on f := by
  unfold State.on; rw [rd_of_regs h]

/-! ## Registers -/

@[simp] theorem setReg_frame (s : State) (page off v : Nat) :
    (s.setReg page off v).inForce = s.inForce ∧ (s.setReg page off v).latch = s.latch ∧
    (s.setReg page off v).hold = s.hold ∧ (s.setReg page off v).latched = s.latched ∧
    (s.setReg page off v).pages = s.pages ∧ (s.setReg page off v).ticks = s.ticks ∧
    (s.setReg page off v).clk = s.clk ∧ (s.setReg page off v).events = s.events ∧
    (s.setReg page off v).resp = s.resp ∧ (s.setReg page off v).out = s.out ∧
    (s.setReg page off v).free = s.free ∧ (s.setReg page off v).ctf = s.ctf ∧
    (s.setReg page off v).tnc = s.tnc ∧ (s.setReg page off v).acs = s.acs ∧
    (s.setReg page off v).mte = s.mte ∧ (s.setReg page off v).acc = s.acc ∧
    (s.setReg page off v).pqe = s.pqe ∧ (s.setReg page off v).tun = s.tun ∧
    (s.setReg page off v).ltr = s.ltr ∧ (s.setReg page off v).barm = s.barm ∧
    (s.setReg page off v).ccx = s.ccx ∧ (s.setReg page off v).cel = s.cel ∧
    (s.setReg page off v).plt = s.plt ∧ (s.setReg page off v).plp = s.plp ∧
    (s.setReg page off v).plm = s.plm ∧ (s.setReg page off v).tmp = s.tmp ∧
    (s.setReg page off v).clg = s.clg ∧ (s.setReg page off v).sec = s.sec ∧
    (s.setReg page off v).swc = s.swc ∧ (s.setReg page off v).bga = s.bga ∧
    (s.setReg page off v).pmu = s.pmu ∧ (s.setReg page off v).mon = s.mon ∧
    (s.setReg page off v).start = s.start ∧ (s.setReg page off v).hif = s.hif ∧
    (s.setReg page off v).mem = s.mem ∧ (s.setReg page off v).pending = s.pending := by
  repeat' constructor
@[simp] theorem setWide_frame (s : State) (page off n v : Nat) :
    (s.setWide page off n v).inForce = s.inForce ∧ (s.setWide page off n v).latch = s.latch ∧
    (s.setWide page off n v).hold = s.hold ∧ (s.setWide page off n v).latched = s.latched ∧
    (s.setWide page off n v).pages = s.pages ∧ (s.setWide page off n v).ticks = s.ticks ∧
    (s.setWide page off n v).clk = s.clk ∧ (s.setWide page off n v).events = s.events ∧
    (s.setWide page off n v).resp = s.resp ∧ (s.setWide page off n v).out = s.out ∧
    (s.setWide page off n v).free = s.free ∧ (s.setWide page off n v).ctf = s.ctf ∧
    (s.setWide page off n v).tnc = s.tnc ∧ (s.setWide page off n v).acs = s.acs ∧
    (s.setWide page off n v).mte = s.mte ∧ (s.setWide page off n v).acc = s.acc ∧
    (s.setWide page off n v).pqe = s.pqe ∧ (s.setWide page off n v).tun = s.tun ∧
    (s.setWide page off n v).ltr = s.ltr ∧ (s.setWide page off n v).barm = s.barm ∧
    (s.setWide page off n v).ccx = s.ccx ∧ (s.setWide page off n v).cel = s.cel ∧
    (s.setWide page off n v).plt = s.plt ∧ (s.setWide page off n v).plp = s.plp ∧
    (s.setWide page off n v).plm = s.plm ∧ (s.setWide page off n v).tmp = s.tmp ∧
    (s.setWide page off n v).clg = s.clg ∧ (s.setWide page off n v).sec = s.sec ∧
    (s.setWide page off n v).swc = s.swc ∧ (s.setWide page off n v).bga = s.bga ∧
    (s.setWide page off n v).pmu = s.pmu ∧ (s.setWide page off n v).mon = s.mon ∧
    (s.setWide page off n v).start = s.start ∧ (s.setWide page off n v).hif = s.hif ∧
    (s.setWide page off n v).mem = s.mem ∧ (s.setWide page off n v).pending = s.pending := by
  induction n generalizing s off v with
  | zero => repeat' constructor
  | succ n ih =>
    have h := ih (s.setReg page off (v % 2 ^ 32)) (off + 4) (v / 2 ^ 32)
    simpa only [State.setWide, setReg_frame] using h
@[simp] theorem wr_frame (s : State) (f : Fld) (v : Nat) :
    (s.wr f v).inForce = s.inForce ∧ (s.wr f v).latch = s.latch ∧ (s.wr f v).hold = s.hold ∧
    (s.wr f v).latched = s.latched ∧ (s.wr f v).pages = s.pages ∧ (s.wr f v).ticks = s.ticks ∧
    (s.wr f v).clk = s.clk ∧ (s.wr f v).events = s.events ∧ (s.wr f v).resp = s.resp ∧
    (s.wr f v).out = s.out ∧ (s.wr f v).free = s.free ∧ (s.wr f v).ctf = s.ctf ∧ (s.wr f v).tnc = s.tnc ∧
    (s.wr f v).acs = s.acs ∧ (s.wr f v).mte = s.mte ∧ (s.wr f v).acc = s.acc ∧ (s.wr f v).pqe = s.pqe ∧
    (s.wr f v).tun = s.tun ∧ (s.wr f v).ltr = s.ltr ∧ (s.wr f v).barm = s.barm ∧ (s.wr f v).ccx = s.ccx ∧
    (s.wr f v).cel = s.cel ∧ (s.wr f v).plt = s.plt ∧ (s.wr f v).plp = s.plp ∧ (s.wr f v).plm = s.plm ∧
    (s.wr f v).tmp = s.tmp ∧ (s.wr f v).clg = s.clg ∧ (s.wr f v).sec = s.sec ∧ (s.wr f v).swc = s.swc ∧
    (s.wr f v).bga = s.bga ∧ (s.wr f v).pmu = s.pmu ∧ (s.wr f v).mon = s.mon ∧ (s.wr f v).start = s.start ∧
    (s.wr f v).hif = s.hif ∧ (s.wr f v).mem = s.mem ∧ (s.wr f v).pending = s.pending := by
  unfold State.wr
  split
  · exact setReg_frame ..
  · exact setWide_frame ..
@[simp] theorem wr64_frame (s : State) (lo hi : Fld) (v : Nat) :
    (s.wr64 lo hi v).inForce = s.inForce ∧ (s.wr64 lo hi v).latch = s.latch ∧
    (s.wr64 lo hi v).hold = s.hold ∧ (s.wr64 lo hi v).latched = s.latched ∧
    (s.wr64 lo hi v).pages = s.pages ∧ (s.wr64 lo hi v).ticks = s.ticks ∧ (s.wr64 lo hi v).clk = s.clk ∧
    (s.wr64 lo hi v).events = s.events ∧ (s.wr64 lo hi v).resp = s.resp ∧ (s.wr64 lo hi v).out = s.out ∧
    (s.wr64 lo hi v).free = s.free ∧ (s.wr64 lo hi v).ctf = s.ctf ∧ (s.wr64 lo hi v).tnc = s.tnc ∧
    (s.wr64 lo hi v).acs = s.acs ∧ (s.wr64 lo hi v).mte = s.mte ∧ (s.wr64 lo hi v).acc = s.acc ∧
    (s.wr64 lo hi v).pqe = s.pqe ∧ (s.wr64 lo hi v).tun = s.tun ∧ (s.wr64 lo hi v).ltr = s.ltr ∧
    (s.wr64 lo hi v).barm = s.barm ∧ (s.wr64 lo hi v).ccx = s.ccx ∧ (s.wr64 lo hi v).cel = s.cel ∧
    (s.wr64 lo hi v).plt = s.plt ∧ (s.wr64 lo hi v).plp = s.plp ∧ (s.wr64 lo hi v).plm = s.plm ∧
    (s.wr64 lo hi v).tmp = s.tmp ∧ (s.wr64 lo hi v).clg = s.clg ∧ (s.wr64 lo hi v).sec = s.sec ∧
    (s.wr64 lo hi v).swc = s.swc ∧ (s.wr64 lo hi v).bga = s.bga ∧ (s.wr64 lo hi v).pmu = s.pmu ∧
    (s.wr64 lo hi v).mon = s.mon ∧ (s.wr64 lo hi v).start = s.start ∧ (s.wr64 lo hi v).hif = s.hif ∧
    (s.wr64 lo hi v).mem = s.mem ∧ (s.wr64 lo hi v).pending = s.pending := by
  simp only [State.wr64, wr_frame, and_self]
@[simp] theorem count_frame (s : State) (f : Fld) (n : Nat) :
    (s.count f n).inForce = s.inForce ∧ (s.count f n).latch = s.latch ∧ (s.count f n).hold = s.hold ∧
    (s.count f n).latched = s.latched ∧ (s.count f n).pages = s.pages ∧ (s.count f n).ticks = s.ticks ∧
    (s.count f n).clk = s.clk ∧ (s.count f n).events = s.events ∧ (s.count f n).resp = s.resp ∧
    (s.count f n).out = s.out ∧ (s.count f n).free = s.free ∧ (s.count f n).ctf = s.ctf ∧
    (s.count f n).tnc = s.tnc ∧ (s.count f n).acs = s.acs ∧ (s.count f n).mte = s.mte ∧
    (s.count f n).acc = s.acc ∧ (s.count f n).pqe = s.pqe ∧ (s.count f n).tun = s.tun ∧
    (s.count f n).ltr = s.ltr ∧ (s.count f n).barm = s.barm ∧ (s.count f n).ccx = s.ccx ∧
    (s.count f n).cel = s.cel ∧ (s.count f n).plt = s.plt ∧ (s.count f n).plp = s.plp ∧
    (s.count f n).plm = s.plm ∧ (s.count f n).tmp = s.tmp ∧ (s.count f n).clg = s.clg ∧
    (s.count f n).sec = s.sec ∧ (s.count f n).swc = s.swc ∧ (s.count f n).bga = s.bga ∧
    (s.count f n).pmu = s.pmu ∧ (s.count f n).mon = s.mon ∧ (s.count f n).start = s.start ∧
    (s.count f n).hif = s.hif ∧ (s.count f n).mem = s.mem ∧ (s.count f n).pending = s.pending := wr_frame ..
@[simp] theorem raise_frame (s : State) (page b : Nat) :
    (s.raise page b).inForce = s.inForce ∧ (s.raise page b).latch = s.latch ∧
    (s.raise page b).hold = s.hold ∧ (s.raise page b).latched = s.latched ∧
    (s.raise page b).pages = s.pages ∧ (s.raise page b).ticks = s.ticks ∧ (s.raise page b).clk = s.clk ∧
    (s.raise page b).events = s.events ∧ (s.raise page b).resp = s.resp ∧ (s.raise page b).out = s.out ∧
    (s.raise page b).free = s.free ∧ (s.raise page b).ctf = s.ctf ∧ (s.raise page b).tnc = s.tnc ∧
    (s.raise page b).acs = s.acs ∧ (s.raise page b).mte = s.mte ∧ (s.raise page b).acc = s.acc ∧
    (s.raise page b).pqe = s.pqe ∧ (s.raise page b).tun = s.tun ∧ (s.raise page b).ltr = s.ltr ∧
    (s.raise page b).barm = s.barm ∧ (s.raise page b).ccx = s.ccx ∧ (s.raise page b).cel = s.cel ∧
    (s.raise page b).plt = s.plt ∧ (s.raise page b).plp = s.plp ∧ (s.raise page b).plm = s.plm ∧
    (s.raise page b).tmp = s.tmp ∧ (s.raise page b).clg = s.clg ∧ (s.raise page b).sec = s.sec ∧
    (s.raise page b).swc = s.swc ∧ (s.raise page b).bga = s.bga ∧ (s.raise page b).pmu = s.pmu ∧
    (s.raise page b).mon = s.mon ∧ (s.raise page b).start = s.start ∧ (s.raise page b).hif = s.hif ∧
    (s.raise page b).mem = s.mem ∧ (s.raise page b).pending = s.pending := wr_frame ..
@[simp] theorem clearRegs_frame (s : State) (page : Nat) (p : Nat → Bool) :
    (s.clearRegs page p).inForce = s.inForce ∧ (s.clearRegs page p).latch = s.latch ∧
    (s.clearRegs page p).hold = s.hold ∧ (s.clearRegs page p).latched = s.latched ∧
    (s.clearRegs page p).pages = s.pages ∧ (s.clearRegs page p).ticks = s.ticks ∧
    (s.clearRegs page p).clk = s.clk ∧ (s.clearRegs page p).events = s.events ∧
    (s.clearRegs page p).resp = s.resp ∧ (s.clearRegs page p).out = s.out ∧
    (s.clearRegs page p).free = s.free ∧ (s.clearRegs page p).ctf = s.ctf ∧
    (s.clearRegs page p).tnc = s.tnc ∧ (s.clearRegs page p).acs = s.acs ∧ (s.clearRegs page p).mte = s.mte ∧
    (s.clearRegs page p).acc = s.acc ∧ (s.clearRegs page p).pqe = s.pqe ∧ (s.clearRegs page p).tun = s.tun ∧
    (s.clearRegs page p).ltr = s.ltr ∧ (s.clearRegs page p).barm = s.barm ∧
    (s.clearRegs page p).ccx = s.ccx ∧ (s.clearRegs page p).cel = s.cel ∧ (s.clearRegs page p).plt = s.plt ∧
    (s.clearRegs page p).plp = s.plp ∧ (s.clearRegs page p).plm = s.plm ∧ (s.clearRegs page p).tmp = s.tmp ∧
    (s.clearRegs page p).clg = s.clg ∧ (s.clearRegs page p).sec = s.sec ∧ (s.clearRegs page p).swc = s.swc ∧
    (s.clearRegs page p).bga = s.bga ∧ (s.clearRegs page p).pmu = s.pmu ∧ (s.clearRegs page p).mon = s.mon ∧
    (s.clearRegs page p).start = s.start ∧ (s.clearRegs page p).hif = s.hif ∧
    (s.clearRegs page p).mem = s.mem ∧ (s.clearRegs page p).pending = s.pending := by
  repeat' constructor
@[simp] theorem setTenant_frame (s : State) (t v : Nat) :
    (s.setTenant t v).inForce = s.inForce ∧ (s.setTenant t v).latch = s.latch ∧
    (s.setTenant t v).hold = s.hold ∧ (s.setTenant t v).latched = s.latched ∧
    (s.setTenant t v).pages = s.pages ∧ (s.setTenant t v).ticks = s.ticks ∧ (s.setTenant t v).clk = s.clk ∧
    (s.setTenant t v).events = s.events ∧ (s.setTenant t v).resp = s.resp ∧ (s.setTenant t v).out = s.out ∧
    (s.setTenant t v).free = s.free ∧ (s.setTenant t v).ctf = s.ctf ∧ (s.setTenant t v).tnc = s.tnc ∧
    (s.setTenant t v).acs = s.acs ∧ (s.setTenant t v).mte = s.mte ∧ (s.setTenant t v).acc = s.acc ∧
    (s.setTenant t v).pqe = s.pqe ∧ (s.setTenant t v).tun = s.tun ∧ (s.setTenant t v).ltr = s.ltr ∧
    (s.setTenant t v).barm = s.barm ∧ (s.setTenant t v).ccx = s.ccx ∧ (s.setTenant t v).cel = s.cel ∧
    (s.setTenant t v).plt = s.plt ∧ (s.setTenant t v).plp = s.plp ∧ (s.setTenant t v).plm = s.plm ∧
    (s.setTenant t v).tmp = s.tmp ∧ (s.setTenant t v).clg = s.clg ∧ (s.setTenant t v).sec = s.sec ∧
    (s.setTenant t v).swc = s.swc ∧ (s.setTenant t v).bga = s.bga ∧ (s.setTenant t v).pmu = s.pmu ∧
    (s.setTenant t v).mon = s.mon ∧ (s.setTenant t v).start = s.start ∧ (s.setTenant t v).hif = s.hif ∧
    (s.setTenant t v).mem = s.mem ∧ (s.setTenant t v).pending = s.pending := by
  simp only [State.setTenant, wr_frame, and_self]
@[simp] theorem capture_frame (s : State) (page off tc : Nat) (write : Bool) (c : Status) :
    (s.capture page off tc write c).inForce = s.inForce ∧ (s.capture page off tc write c).latch = s.latch ∧
    (s.capture page off tc write c).hold = s.hold ∧ (s.capture page off tc write c).latched = s.latched ∧
    (s.capture page off tc write c).pages = s.pages ∧ (s.capture page off tc write c).ticks = s.ticks ∧
    (s.capture page off tc write c).clk = s.clk ∧ (s.capture page off tc write c).events = s.events ∧
    (s.capture page off tc write c).resp = s.resp ∧ (s.capture page off tc write c).out = s.out ∧
    (s.capture page off tc write c).free = s.free ∧ (s.capture page off tc write c).ctf = s.ctf ∧
    (s.capture page off tc write c).tnc = s.tnc ∧ (s.capture page off tc write c).acs = s.acs ∧
    (s.capture page off tc write c).mte = s.mte ∧ (s.capture page off tc write c).acc = s.acc ∧
    (s.capture page off tc write c).pqe = s.pqe ∧ (s.capture page off tc write c).tun = s.tun ∧
    (s.capture page off tc write c).ltr = s.ltr ∧ (s.capture page off tc write c).barm = s.barm ∧
    (s.capture page off tc write c).ccx = s.ccx ∧ (s.capture page off tc write c).cel = s.cel ∧
    (s.capture page off tc write c).plt = s.plt ∧ (s.capture page off tc write c).plp = s.plp ∧
    (s.capture page off tc write c).plm = s.plm ∧ (s.capture page off tc write c).tmp = s.tmp ∧
    (s.capture page off tc write c).clg = s.clg ∧ (s.capture page off tc write c).sec = s.sec ∧
    (s.capture page off tc write c).swc = s.swc ∧ (s.capture page off tc write c).bga = s.bga ∧
    (s.capture page off tc write c).pmu = s.pmu ∧ (s.capture page off tc write c).mon = s.mon ∧
    (s.capture page off tc write c).start = s.start ∧ (s.capture page off tc write c).hif = s.hif ∧
    (s.capture page off tc write c).mem = s.mem ∧ (s.capture page off tc write c).pending = s.pending := by
  unfold State.capture
  split
  · repeat' constructor
  · split
    · exact count_frame ..
    · simp only [raise_frame, setReg_frame, and_self]

/-! ## Operations that store in no register -/

@[simp] theorem setPg_frame (s : State) (page : Nat) (f : PageState → PageState) :
    (s.setPg page f).regs = s.regs ∧ (s.setPg page f).inForce = s.inForce ∧
    (s.setPg page f).latch = s.latch ∧ (s.setPg page f).hold = s.hold ∧
    (s.setPg page f).latched = s.latched ∧ (s.setPg page f).ticks = s.ticks ∧ (s.setPg page f).clk = s.clk ∧
    (s.setPg page f).events = s.events ∧ (s.setPg page f).resp = s.resp ∧ (s.setPg page f).out = s.out ∧
    (s.setPg page f).free = s.free ∧ (s.setPg page f).ctf = s.ctf ∧ (s.setPg page f).tnc = s.tnc ∧
    (s.setPg page f).acs = s.acs ∧ (s.setPg page f).mte = s.mte ∧ (s.setPg page f).acc = s.acc ∧
    (s.setPg page f).pqe = s.pqe ∧ (s.setPg page f).tun = s.tun ∧ (s.setPg page f).ltr = s.ltr ∧
    (s.setPg page f).barm = s.barm ∧ (s.setPg page f).ccx = s.ccx ∧ (s.setPg page f).cel = s.cel ∧
    (s.setPg page f).plt = s.plt ∧ (s.setPg page f).plp = s.plp ∧ (s.setPg page f).plm = s.plm ∧
    (s.setPg page f).tmp = s.tmp ∧ (s.setPg page f).clg = s.clg ∧ (s.setPg page f).sec = s.sec ∧
    (s.setPg page f).swc = s.swc ∧ (s.setPg page f).bga = s.bga ∧ (s.setPg page f).pmu = s.pmu ∧
    (s.setPg page f).mon = s.mon ∧ (s.setPg page f).start = s.start ∧ (s.setPg page f).hif = s.hif ∧
    (s.setPg page f).mem = s.mem ∧ (s.setPg page f).pending = s.pending := by
  repeat' constructor
@[simp] theorem rd_setPg (s : State) (page : Nat) (f : PageState → PageState) (g : Fld) : (s.setPg page f).rd g = s.rd g :=
  rd_of_regs (s := s.setPg page f) (t := s) rfl g
@[simp] theorem on_setPg (s : State) (page : Nat) (f : PageState → PageState) (g : Fld) : (s.setPg page f).on g = s.on g :=
  on_of_regs (s := s.setPg page f) (t := s) rfl g
@[simp] theorem reg_setPg (s : State) (page : Nat) (f : PageState → PageState) (p o : Nat) : (s.setPg page f).reg p o = s.reg p o := rfl
@[simp] theorem store_frame (s : State) (a : Nat) (bs : List Byte) :
    (s.store a bs).regs = s.regs ∧ (s.store a bs).inForce = s.inForce ∧ (s.store a bs).latch = s.latch ∧
    (s.store a bs).hold = s.hold ∧ (s.store a bs).latched = s.latched ∧ (s.store a bs).pages = s.pages ∧
    (s.store a bs).ticks = s.ticks ∧ (s.store a bs).clk = s.clk ∧ (s.store a bs).events = s.events ∧
    (s.store a bs).resp = s.resp ∧ (s.store a bs).out = s.out ∧ (s.store a bs).free = s.free ∧
    (s.store a bs).ctf = s.ctf ∧ (s.store a bs).tnc = s.tnc ∧ (s.store a bs).acs = s.acs ∧
    (s.store a bs).mte = s.mte ∧ (s.store a bs).acc = s.acc ∧ (s.store a bs).pqe = s.pqe ∧
    (s.store a bs).tun = s.tun ∧ (s.store a bs).ltr = s.ltr ∧ (s.store a bs).barm = s.barm ∧
    (s.store a bs).ccx = s.ccx ∧ (s.store a bs).cel = s.cel ∧ (s.store a bs).plt = s.plt ∧
    (s.store a bs).plp = s.plp ∧ (s.store a bs).plm = s.plm ∧ (s.store a bs).tmp = s.tmp ∧
    (s.store a bs).clg = s.clg ∧ (s.store a bs).sec = s.sec ∧ (s.store a bs).swc = s.swc ∧
    (s.store a bs).bga = s.bga ∧ (s.store a bs).pmu = s.pmu ∧ (s.store a bs).mon = s.mon ∧
    (s.store a bs).start = s.start ∧ (s.store a bs).hif = s.hif ∧ (s.store a bs).pending = s.pending := by
  repeat' constructor
@[simp] theorem rd_store (s : State) (a : Nat) (bs : List Byte) (g : Fld) : (s.store a bs).rd g = s.rd g :=
  rd_of_regs (s := s.store a bs) (t := s) rfl g
@[simp] theorem on_store (s : State) (a : Nat) (bs : List Byte) (g : Fld) : (s.store a bs).on g = s.on g :=
  on_of_regs (s := s.store a bs) (t := s) rfl g
@[simp] theorem reg_store (s : State) (a : Nat) (bs : List Byte) (p o : Nat) : (s.store a bs).reg p o = s.reg p o := rfl
@[simp] theorem log_frame (s : State) (code tc data : Nat) :
    (s.log code tc data).regs = s.regs ∧ (s.log code tc data).inForce = s.inForce ∧
    (s.log code tc data).latch = s.latch ∧ (s.log code tc data).hold = s.hold ∧
    (s.log code tc data).latched = s.latched ∧ (s.log code tc data).pages = s.pages ∧
    (s.log code tc data).ticks = s.ticks ∧ (s.log code tc data).clk = s.clk ∧
    (s.log code tc data).resp = s.resp ∧ (s.log code tc data).out = s.out ∧
    (s.log code tc data).free = s.free ∧ (s.log code tc data).ctf = s.ctf ∧
    (s.log code tc data).tnc = s.tnc ∧ (s.log code tc data).acs = s.acs ∧ (s.log code tc data).mte = s.mte ∧
    (s.log code tc data).acc = s.acc ∧ (s.log code tc data).pqe = s.pqe ∧ (s.log code tc data).tun = s.tun ∧
    (s.log code tc data).ltr = s.ltr ∧ (s.log code tc data).barm = s.barm ∧
    (s.log code tc data).ccx = s.ccx ∧ (s.log code tc data).cel = s.cel ∧ (s.log code tc data).plt = s.plt ∧
    (s.log code tc data).plp = s.plp ∧ (s.log code tc data).plm = s.plm ∧ (s.log code tc data).tmp = s.tmp ∧
    (s.log code tc data).clg = s.clg ∧ (s.log code tc data).sec = s.sec ∧ (s.log code tc data).swc = s.swc ∧
    (s.log code tc data).bga = s.bga ∧ (s.log code tc data).pmu = s.pmu ∧ (s.log code tc data).mon = s.mon ∧
    (s.log code tc data).start = s.start ∧ (s.log code tc data).hif = s.hif ∧
    (s.log code tc data).mem = s.mem ∧ (s.log code tc data).pending = s.pending := by
  repeat' constructor
@[simp] theorem rd_log (s : State) (code tc data : Nat) (g : Fld) : (s.log code tc data).rd g = s.rd g :=
  rd_of_regs (s := s.log code tc data) (t := s) rfl g
@[simp] theorem on_log (s : State) (code tc data : Nat) (g : Fld) : (s.log code tc data).on g = s.on g :=
  on_of_regs (s := s.log code tc data) (t := s) rfl g
@[simp] theorem reg_log (s : State) (code tc data : Nat) (p o : Nat) : (s.log code tc data).reg p o = s.reg p o := rfl
@[simp] theorem send_frame (s : State) (c : Channel) (data : List Nat) :
    (s.send c data).regs = s.regs ∧ (s.send c data).inForce = s.inForce ∧ (s.send c data).latch = s.latch ∧
    (s.send c data).hold = s.hold ∧ (s.send c data).latched = s.latched ∧ (s.send c data).pages = s.pages ∧
    (s.send c data).ticks = s.ticks ∧ (s.send c data).clk = s.clk ∧ (s.send c data).events = s.events ∧
    (s.send c data).resp = s.resp ∧ (s.send c data).free = s.free ∧ (s.send c data).ctf = s.ctf ∧
    (s.send c data).tnc = s.tnc ∧ (s.send c data).acs = s.acs ∧ (s.send c data).mte = s.mte ∧
    (s.send c data).acc = s.acc ∧ (s.send c data).pqe = s.pqe ∧ (s.send c data).tun = s.tun ∧
    (s.send c data).ltr = s.ltr ∧ (s.send c data).barm = s.barm ∧ (s.send c data).ccx = s.ccx ∧
    (s.send c data).cel = s.cel ∧ (s.send c data).plt = s.plt ∧ (s.send c data).plp = s.plp ∧
    (s.send c data).plm = s.plm ∧ (s.send c data).tmp = s.tmp ∧ (s.send c data).clg = s.clg ∧
    (s.send c data).sec = s.sec ∧ (s.send c data).swc = s.swc ∧ (s.send c data).bga = s.bga ∧
    (s.send c data).pmu = s.pmu ∧ (s.send c data).mon = s.mon ∧ (s.send c data).start = s.start ∧
    (s.send c data).hif = s.hif ∧ (s.send c data).mem = s.mem ∧ (s.send c data).pending = s.pending := by
  repeat' constructor
@[simp] theorem rd_send (s : State) (c : Channel) (data : List Nat) (g : Fld) : (s.send c data).rd g = s.rd g :=
  rd_of_regs (s := s.send c data) (t := s) rfl g
@[simp] theorem on_send (s : State) (c : Channel) (data : List Nat) (g : Fld) : (s.send c data).on g = s.on g :=
  on_of_regs (s := s.send c data) (t := s) rfl g
@[simp] theorem reg_send (s : State) (c : Channel) (data : List Nat) (p o : Nat) : (s.send c data).reg p o = s.reg p o := rfl
@[simp] theorem draw_frame (s : State) (w : Nat) :
    ((s.draw w).2).regs = s.regs ∧ ((s.draw w).2).inForce = s.inForce ∧ ((s.draw w).2).latch = s.latch ∧
    ((s.draw w).2).hold = s.hold ∧ ((s.draw w).2).latched = s.latched ∧ ((s.draw w).2).pages = s.pages ∧
    ((s.draw w).2).ticks = s.ticks ∧ ((s.draw w).2).clk = s.clk ∧ ((s.draw w).2).events = s.events ∧
    ((s.draw w).2).resp = s.resp ∧ ((s.draw w).2).out = s.out ∧ ((s.draw w).2).ctf = s.ctf ∧
    ((s.draw w).2).tnc = s.tnc ∧ ((s.draw w).2).acs = s.acs ∧ ((s.draw w).2).mte = s.mte ∧
    ((s.draw w).2).acc = s.acc ∧ ((s.draw w).2).pqe = s.pqe ∧ ((s.draw w).2).tun = s.tun ∧
    ((s.draw w).2).ltr = s.ltr ∧ ((s.draw w).2).barm = s.barm ∧ ((s.draw w).2).ccx = s.ccx ∧
    ((s.draw w).2).cel = s.cel ∧ ((s.draw w).2).plt = s.plt ∧ ((s.draw w).2).plp = s.plp ∧
    ((s.draw w).2).plm = s.plm ∧ ((s.draw w).2).tmp = s.tmp ∧ ((s.draw w).2).clg = s.clg ∧
    ((s.draw w).2).sec = s.sec ∧ ((s.draw w).2).swc = s.swc ∧ ((s.draw w).2).bga = s.bga ∧
    ((s.draw w).2).pmu = s.pmu ∧ ((s.draw w).2).mon = s.mon ∧ ((s.draw w).2).start = s.start ∧
    ((s.draw w).2).hif = s.hif ∧ ((s.draw w).2).mem = s.mem ∧ ((s.draw w).2).pending = s.pending := by
  repeat' constructor
@[simp] theorem rd_draw (s : State) (w : Nat) (g : Fld) : ((s.draw w).2).rd g = s.rd g :=
  rd_of_regs (s := (s.draw w).2) (t := s) rfl g
@[simp] theorem on_draw (s : State) (w : Nat) (g : Fld) : ((s.draw w).2).on g = s.on g :=
  on_of_regs (s := (s.draw w).2) (t := s) rfl g
@[simp] theorem reg_draw (s : State) (w : Nat) (p o : Nat) : ((s.draw w).2).reg p o = s.reg p o := rfl
@[simp] theorem answer_frame (s : State) (c : Status) :
    (s.answer c).regs = s.regs ∧ (s.answer c).inForce = s.inForce ∧ (s.answer c).latch = s.latch ∧
    (s.answer c).hold = s.hold ∧ (s.answer c).latched = s.latched ∧ (s.answer c).pages = s.pages ∧
    (s.answer c).ticks = s.ticks ∧ (s.answer c).clk = s.clk ∧ (s.answer c).events = s.events ∧
    (s.answer c).out = s.out ∧ (s.answer c).free = s.free ∧ (s.answer c).ctf = s.ctf ∧
    (s.answer c).tnc = s.tnc ∧ (s.answer c).acs = s.acs ∧ (s.answer c).mte = s.mte ∧
    (s.answer c).acc = s.acc ∧ (s.answer c).pqe = s.pqe ∧ (s.answer c).tun = s.tun ∧
    (s.answer c).ltr = s.ltr ∧ (s.answer c).barm = s.barm ∧ (s.answer c).ccx = s.ccx ∧
    (s.answer c).cel = s.cel ∧ (s.answer c).plt = s.plt ∧ (s.answer c).plp = s.plp ∧
    (s.answer c).plm = s.plm ∧ (s.answer c).tmp = s.tmp ∧ (s.answer c).clg = s.clg ∧
    (s.answer c).sec = s.sec ∧ (s.answer c).swc = s.swc ∧ (s.answer c).bga = s.bga ∧
    (s.answer c).pmu = s.pmu ∧ (s.answer c).mon = s.mon ∧ (s.answer c).start = s.start ∧
    (s.answer c).hif = s.hif ∧ (s.answer c).mem = s.mem ∧ (s.answer c).pending = s.pending := by
  repeat' constructor
@[simp] theorem rd_answer (s : State) (c : Status) (g : Fld) : (s.answer c).rd g = s.rd g :=
  rd_of_regs (s := s.answer c) (t := s) rfl g
@[simp] theorem on_answer (s : State) (c : Status) (g : Fld) : (s.answer c).on g = s.on g :=
  on_of_regs (s := s.answer c) (t := s) rfl g
@[simp] theorem reg_answer (s : State) (c : Status) (p o : Nat) : (s.answer c).reg p o = s.reg p o := rfl
@[simp] theorem answerRead_frame (s : State) (tc a : Nat) (c : Status) (v : Nat) :
    (s.answerRead tc a c v).regs = s.regs ∧ (s.answerRead tc a c v).inForce = s.inForce ∧
    (s.answerRead tc a c v).latch = s.latch ∧ (s.answerRead tc a c v).hold = s.hold ∧
    (s.answerRead tc a c v).latched = s.latched ∧ (s.answerRead tc a c v).pages = s.pages ∧
    (s.answerRead tc a c v).ticks = s.ticks ∧ (s.answerRead tc a c v).clk = s.clk ∧
    (s.answerRead tc a c v).events = s.events ∧ (s.answerRead tc a c v).out = s.out ∧
    (s.answerRead tc a c v).free = s.free ∧ (s.answerRead tc a c v).ctf = s.ctf ∧
    (s.answerRead tc a c v).tnc = s.tnc ∧ (s.answerRead tc a c v).acs = s.acs ∧
    (s.answerRead tc a c v).mte = s.mte ∧ (s.answerRead tc a c v).acc = s.acc ∧
    (s.answerRead tc a c v).pqe = s.pqe ∧ (s.answerRead tc a c v).tun = s.tun ∧
    (s.answerRead tc a c v).ltr = s.ltr ∧ (s.answerRead tc a c v).barm = s.barm ∧
    (s.answerRead tc a c v).ccx = s.ccx ∧ (s.answerRead tc a c v).cel = s.cel ∧
    (s.answerRead tc a c v).plt = s.plt ∧ (s.answerRead tc a c v).plp = s.plp ∧
    (s.answerRead tc a c v).plm = s.plm ∧ (s.answerRead tc a c v).tmp = s.tmp ∧
    (s.answerRead tc a c v).clg = s.clg ∧ (s.answerRead tc a c v).sec = s.sec ∧
    (s.answerRead tc a c v).swc = s.swc ∧ (s.answerRead tc a c v).bga = s.bga ∧
    (s.answerRead tc a c v).pmu = s.pmu ∧ (s.answerRead tc a c v).mon = s.mon ∧
    (s.answerRead tc a c v).start = s.start ∧ (s.answerRead tc a c v).hif = s.hif ∧
    (s.answerRead tc a c v).mem = s.mem ∧ (s.answerRead tc a c v).pending = s.pending := by
  repeat' constructor
@[simp] theorem rd_answerRead (s : State) (tc a : Nat) (c : Status) (v : Nat) (g : Fld) : (s.answerRead tc a c v).rd g = s.rd g :=
  rd_of_regs (s := s.answerRead tc a c v) (t := s) rfl g
@[simp] theorem on_answerRead (s : State) (tc a : Nat) (c : Status) (v : Nat) (g : Fld) : (s.answerRead tc a c v).on g = s.on g :=
  on_of_regs (s := s.answerRead tc a c v) (t := s) rfl g
@[simp] theorem reg_answerRead (s : State) (tc a : Nat) (c : Status) (v : Nat) (p o : Nat) : (s.answerRead tc a c v).reg p o = s.reg p o := rfl

/-! ## The parts of the blocks -/

@[simp] theorem setBga_frame (s : State) (f : BgaState → BgaState) :
    (s.setBga f).regs = s.regs ∧ (s.setBga f).inForce = s.inForce ∧ (s.setBga f).latch = s.latch ∧
    (s.setBga f).hold = s.hold ∧ (s.setBga f).latched = s.latched ∧ (s.setBga f).pages = s.pages ∧
    (s.setBga f).ticks = s.ticks ∧ (s.setBga f).clk = s.clk ∧ (s.setBga f).events = s.events ∧
    (s.setBga f).resp = s.resp ∧ (s.setBga f).out = s.out ∧ (s.setBga f).free = s.free ∧
    (s.setBga f).ctf = s.ctf ∧ (s.setBga f).tnc = s.tnc ∧ (s.setBga f).acs = s.acs ∧
    (s.setBga f).mte = s.mte ∧ (s.setBga f).acc = s.acc ∧ (s.setBga f).pqe = s.pqe ∧
    (s.setBga f).tun = s.tun ∧ (s.setBga f).ltr = s.ltr ∧ (s.setBga f).barm = s.barm ∧
    (s.setBga f).ccx = s.ccx ∧ (s.setBga f).cel = s.cel ∧ (s.setBga f).plt = s.plt ∧
    (s.setBga f).plp = s.plp ∧ (s.setBga f).plm = s.plm ∧ (s.setBga f).tmp = s.tmp ∧
    (s.setBga f).clg = s.clg ∧ (s.setBga f).sec = s.sec ∧ (s.setBga f).swc = s.swc ∧
    (s.setBga f).pmu = s.pmu ∧ (s.setBga f).mon = s.mon ∧ (s.setBga f).start = s.start ∧
    (s.setBga f).hif = s.hif ∧ (s.setBga f).mem = s.mem ∧ (s.setBga f).pending = s.pending := by
  repeat' constructor
@[simp] theorem rd_setBga (s : State) (f : BgaState → BgaState) (g : Fld) : (s.setBga f).rd g = s.rd g :=
  rd_of_regs (s := s.setBga f) (t := s) rfl g
@[simp] theorem on_setBga (s : State) (f : BgaState → BgaState) (g : Fld) : (s.setBga f).on g = s.on g :=
  on_of_regs (s := s.setBga f) (t := s) rfl g
@[simp] theorem reg_setBga (s : State) (f : BgaState → BgaState) (p o : Nat) : (s.setBga f).reg p o = s.reg p o := rfl
@[simp] theorem setBga_at (s : State) (f : BgaState → BgaState) : (s.setBga f).bga = f s.bga := rfl
@[simp] theorem setPmu_frame (s : State) (f : PmuState → PmuState) :
    (s.setPmu f).regs = s.regs ∧ (s.setPmu f).inForce = s.inForce ∧ (s.setPmu f).latch = s.latch ∧
    (s.setPmu f).hold = s.hold ∧ (s.setPmu f).latched = s.latched ∧ (s.setPmu f).pages = s.pages ∧
    (s.setPmu f).ticks = s.ticks ∧ (s.setPmu f).clk = s.clk ∧ (s.setPmu f).events = s.events ∧
    (s.setPmu f).resp = s.resp ∧ (s.setPmu f).out = s.out ∧ (s.setPmu f).free = s.free ∧
    (s.setPmu f).ctf = s.ctf ∧ (s.setPmu f).tnc = s.tnc ∧ (s.setPmu f).acs = s.acs ∧
    (s.setPmu f).mte = s.mte ∧ (s.setPmu f).acc = s.acc ∧ (s.setPmu f).pqe = s.pqe ∧
    (s.setPmu f).tun = s.tun ∧ (s.setPmu f).ltr = s.ltr ∧ (s.setPmu f).barm = s.barm ∧
    (s.setPmu f).ccx = s.ccx ∧ (s.setPmu f).cel = s.cel ∧ (s.setPmu f).plt = s.plt ∧
    (s.setPmu f).plp = s.plp ∧ (s.setPmu f).plm = s.plm ∧ (s.setPmu f).tmp = s.tmp ∧
    (s.setPmu f).clg = s.clg ∧ (s.setPmu f).sec = s.sec ∧ (s.setPmu f).swc = s.swc ∧
    (s.setPmu f).bga = s.bga ∧ (s.setPmu f).mon = s.mon ∧ (s.setPmu f).start = s.start ∧
    (s.setPmu f).hif = s.hif ∧ (s.setPmu f).mem = s.mem ∧ (s.setPmu f).pending = s.pending := by
  repeat' constructor
@[simp] theorem rd_setPmu (s : State) (f : PmuState → PmuState) (g : Fld) : (s.setPmu f).rd g = s.rd g :=
  rd_of_regs (s := s.setPmu f) (t := s) rfl g
@[simp] theorem on_setPmu (s : State) (f : PmuState → PmuState) (g : Fld) : (s.setPmu f).on g = s.on g :=
  on_of_regs (s := s.setPmu f) (t := s) rfl g
@[simp] theorem reg_setPmu (s : State) (f : PmuState → PmuState) (p o : Nat) : (s.setPmu f).reg p o = s.reg p o := rfl
@[simp] theorem setPmu_at (s : State) (f : PmuState → PmuState) : (s.setPmu f).pmu = f s.pmu := rfl
@[simp] theorem setCcx_frame (s : State) (f : CcxState → CcxState) :
    (s.setCcx f).regs = s.regs ∧ (s.setCcx f).inForce = s.inForce ∧ (s.setCcx f).latch = s.latch ∧
    (s.setCcx f).hold = s.hold ∧ (s.setCcx f).latched = s.latched ∧ (s.setCcx f).pages = s.pages ∧
    (s.setCcx f).ticks = s.ticks ∧ (s.setCcx f).clk = s.clk ∧ (s.setCcx f).events = s.events ∧
    (s.setCcx f).resp = s.resp ∧ (s.setCcx f).out = s.out ∧ (s.setCcx f).free = s.free ∧
    (s.setCcx f).ctf = s.ctf ∧ (s.setCcx f).tnc = s.tnc ∧ (s.setCcx f).acs = s.acs ∧
    (s.setCcx f).mte = s.mte ∧ (s.setCcx f).acc = s.acc ∧ (s.setCcx f).pqe = s.pqe ∧
    (s.setCcx f).tun = s.tun ∧ (s.setCcx f).ltr = s.ltr ∧ (s.setCcx f).barm = s.barm ∧
    (s.setCcx f).cel = s.cel ∧ (s.setCcx f).plt = s.plt ∧ (s.setCcx f).plp = s.plp ∧
    (s.setCcx f).plm = s.plm ∧ (s.setCcx f).tmp = s.tmp ∧ (s.setCcx f).clg = s.clg ∧
    (s.setCcx f).sec = s.sec ∧ (s.setCcx f).swc = s.swc ∧ (s.setCcx f).bga = s.bga ∧
    (s.setCcx f).pmu = s.pmu ∧ (s.setCcx f).mon = s.mon ∧ (s.setCcx f).start = s.start ∧
    (s.setCcx f).hif = s.hif ∧ (s.setCcx f).mem = s.mem ∧ (s.setCcx f).pending = s.pending := by
  repeat' constructor
@[simp] theorem rd_setCcx (s : State) (f : CcxState → CcxState) (g : Fld) : (s.setCcx f).rd g = s.rd g :=
  rd_of_regs (s := s.setCcx f) (t := s) rfl g
@[simp] theorem on_setCcx (s : State) (f : CcxState → CcxState) (g : Fld) : (s.setCcx f).on g = s.on g :=
  on_of_regs (s := s.setCcx f) (t := s) rfl g
@[simp] theorem reg_setCcx (s : State) (f : CcxState → CcxState) (p o : Nat) : (s.setCcx f).reg p o = s.reg p o := rfl
@[simp] theorem setCcx_at (s : State) (f : CcxState → CcxState) : (s.setCcx f).ccx = f s.ccx := rfl
@[simp] theorem setClg_frame (s : State) (f : ClgState → ClgState) :
    (s.setClg f).regs = s.regs ∧ (s.setClg f).inForce = s.inForce ∧ (s.setClg f).latch = s.latch ∧
    (s.setClg f).hold = s.hold ∧ (s.setClg f).latched = s.latched ∧ (s.setClg f).pages = s.pages ∧
    (s.setClg f).ticks = s.ticks ∧ (s.setClg f).clk = s.clk ∧ (s.setClg f).events = s.events ∧
    (s.setClg f).resp = s.resp ∧ (s.setClg f).out = s.out ∧ (s.setClg f).free = s.free ∧
    (s.setClg f).ctf = s.ctf ∧ (s.setClg f).tnc = s.tnc ∧ (s.setClg f).acs = s.acs ∧
    (s.setClg f).mte = s.mte ∧ (s.setClg f).acc = s.acc ∧ (s.setClg f).pqe = s.pqe ∧
    (s.setClg f).tun = s.tun ∧ (s.setClg f).ltr = s.ltr ∧ (s.setClg f).barm = s.barm ∧
    (s.setClg f).ccx = s.ccx ∧ (s.setClg f).cel = s.cel ∧ (s.setClg f).plt = s.plt ∧
    (s.setClg f).plp = s.plp ∧ (s.setClg f).plm = s.plm ∧ (s.setClg f).tmp = s.tmp ∧
    (s.setClg f).sec = s.sec ∧ (s.setClg f).swc = s.swc ∧ (s.setClg f).bga = s.bga ∧
    (s.setClg f).pmu = s.pmu ∧ (s.setClg f).mon = s.mon ∧ (s.setClg f).start = s.start ∧
    (s.setClg f).hif = s.hif ∧ (s.setClg f).mem = s.mem ∧ (s.setClg f).pending = s.pending := by
  repeat' constructor
@[simp] theorem rd_setClg (s : State) (f : ClgState → ClgState) (g : Fld) : (s.setClg f).rd g = s.rd g :=
  rd_of_regs (s := s.setClg f) (t := s) rfl g
@[simp] theorem on_setClg (s : State) (f : ClgState → ClgState) (g : Fld) : (s.setClg f).on g = s.on g :=
  on_of_regs (s := s.setClg f) (t := s) rfl g
@[simp] theorem reg_setClg (s : State) (f : ClgState → ClgState) (p o : Nat) : (s.setClg f).reg p o = s.reg p o := rfl
@[simp] theorem setClg_at (s : State) (f : ClgState → ClgState) : (s.setClg f).clg = f s.clg := rfl
@[simp] theorem setHif_frame (s : State) (f : HifState → HifState) :
    (s.setHif f).regs = s.regs ∧ (s.setHif f).inForce = s.inForce ∧ (s.setHif f).latch = s.latch ∧
    (s.setHif f).hold = s.hold ∧ (s.setHif f).latched = s.latched ∧ (s.setHif f).pages = s.pages ∧
    (s.setHif f).ticks = s.ticks ∧ (s.setHif f).clk = s.clk ∧ (s.setHif f).events = s.events ∧
    (s.setHif f).resp = s.resp ∧ (s.setHif f).out = s.out ∧ (s.setHif f).free = s.free ∧
    (s.setHif f).ctf = s.ctf ∧ (s.setHif f).tnc = s.tnc ∧ (s.setHif f).acs = s.acs ∧
    (s.setHif f).mte = s.mte ∧ (s.setHif f).acc = s.acc ∧ (s.setHif f).pqe = s.pqe ∧
    (s.setHif f).tun = s.tun ∧ (s.setHif f).ltr = s.ltr ∧ (s.setHif f).barm = s.barm ∧
    (s.setHif f).ccx = s.ccx ∧ (s.setHif f).cel = s.cel ∧ (s.setHif f).plt = s.plt ∧
    (s.setHif f).plp = s.plp ∧ (s.setHif f).plm = s.plm ∧ (s.setHif f).tmp = s.tmp ∧
    (s.setHif f).clg = s.clg ∧ (s.setHif f).sec = s.sec ∧ (s.setHif f).swc = s.swc ∧
    (s.setHif f).bga = s.bga ∧ (s.setHif f).pmu = s.pmu ∧ (s.setHif f).mon = s.mon ∧
    (s.setHif f).start = s.start ∧ (s.setHif f).mem = s.mem ∧ (s.setHif f).pending = s.pending := by
  repeat' constructor
@[simp] theorem rd_setHif (s : State) (f : HifState → HifState) (g : Fld) : (s.setHif f).rd g = s.rd g :=
  rd_of_regs (s := s.setHif f) (t := s) rfl g
@[simp] theorem on_setHif (s : State) (f : HifState → HifState) (g : Fld) : (s.setHif f).on g = s.on g :=
  on_of_regs (s := s.setHif f) (t := s) rfl g
@[simp] theorem reg_setHif (s : State) (f : HifState → HifState) (p o : Nat) : (s.setHif f).reg p o = s.reg p o := rfl
@[simp] theorem setHif_at (s : State) (f : HifState → HifState) : (s.setHif f).hif = f s.hif := rfl
@[simp] theorem setMon_frame (s : State) (f : MonState → MonState) :
    (s.setMon f).regs = s.regs ∧ (s.setMon f).inForce = s.inForce ∧ (s.setMon f).latch = s.latch ∧
    (s.setMon f).hold = s.hold ∧ (s.setMon f).latched = s.latched ∧ (s.setMon f).pages = s.pages ∧
    (s.setMon f).ticks = s.ticks ∧ (s.setMon f).clk = s.clk ∧ (s.setMon f).events = s.events ∧
    (s.setMon f).resp = s.resp ∧ (s.setMon f).out = s.out ∧ (s.setMon f).free = s.free ∧
    (s.setMon f).ctf = s.ctf ∧ (s.setMon f).tnc = s.tnc ∧ (s.setMon f).acs = s.acs ∧
    (s.setMon f).mte = s.mte ∧ (s.setMon f).acc = s.acc ∧ (s.setMon f).pqe = s.pqe ∧
    (s.setMon f).tun = s.tun ∧ (s.setMon f).ltr = s.ltr ∧ (s.setMon f).barm = s.barm ∧
    (s.setMon f).ccx = s.ccx ∧ (s.setMon f).cel = s.cel ∧ (s.setMon f).plt = s.plt ∧
    (s.setMon f).plp = s.plp ∧ (s.setMon f).plm = s.plm ∧ (s.setMon f).tmp = s.tmp ∧
    (s.setMon f).clg = s.clg ∧ (s.setMon f).sec = s.sec ∧ (s.setMon f).swc = s.swc ∧
    (s.setMon f).bga = s.bga ∧ (s.setMon f).pmu = s.pmu ∧ (s.setMon f).start = s.start ∧
    (s.setMon f).hif = s.hif ∧ (s.setMon f).mem = s.mem ∧ (s.setMon f).pending = s.pending := by
  repeat' constructor
@[simp] theorem rd_setMon (s : State) (f : MonState → MonState) (g : Fld) : (s.setMon f).rd g = s.rd g :=
  rd_of_regs (s := s.setMon f) (t := s) rfl g
@[simp] theorem on_setMon (s : State) (f : MonState → MonState) (g : Fld) : (s.setMon f).on g = s.on g :=
  on_of_regs (s := s.setMon f) (t := s) rfl g
@[simp] theorem reg_setMon (s : State) (f : MonState → MonState) (p o : Nat) : (s.setMon f).reg p o = s.reg p o := rfl
@[simp] theorem setMon_at (s : State) (f : MonState → MonState) : (s.setMon f).mon = f s.mon := rfl
@[simp] theorem setLtr_frame (s : State) (f : LtrState → LtrState) :
    (s.setLtr f).regs = s.regs ∧ (s.setLtr f).inForce = s.inForce ∧ (s.setLtr f).latch = s.latch ∧
    (s.setLtr f).hold = s.hold ∧ (s.setLtr f).latched = s.latched ∧ (s.setLtr f).pages = s.pages ∧
    (s.setLtr f).ticks = s.ticks ∧ (s.setLtr f).clk = s.clk ∧ (s.setLtr f).events = s.events ∧
    (s.setLtr f).resp = s.resp ∧ (s.setLtr f).out = s.out ∧ (s.setLtr f).free = s.free ∧
    (s.setLtr f).ctf = s.ctf ∧ (s.setLtr f).tnc = s.tnc ∧ (s.setLtr f).acs = s.acs ∧
    (s.setLtr f).mte = s.mte ∧ (s.setLtr f).acc = s.acc ∧ (s.setLtr f).pqe = s.pqe ∧
    (s.setLtr f).tun = s.tun ∧ (s.setLtr f).barm = s.barm ∧ (s.setLtr f).ccx = s.ccx ∧
    (s.setLtr f).cel = s.cel ∧ (s.setLtr f).plt = s.plt ∧ (s.setLtr f).plp = s.plp ∧
    (s.setLtr f).plm = s.plm ∧ (s.setLtr f).tmp = s.tmp ∧ (s.setLtr f).clg = s.clg ∧
    (s.setLtr f).sec = s.sec ∧ (s.setLtr f).swc = s.swc ∧ (s.setLtr f).bga = s.bga ∧
    (s.setLtr f).pmu = s.pmu ∧ (s.setLtr f).mon = s.mon ∧ (s.setLtr f).start = s.start ∧
    (s.setLtr f).hif = s.hif ∧ (s.setLtr f).mem = s.mem ∧ (s.setLtr f).pending = s.pending := by
  repeat' constructor
@[simp] theorem rd_setLtr (s : State) (f : LtrState → LtrState) (g : Fld) : (s.setLtr f).rd g = s.rd g :=
  rd_of_regs (s := s.setLtr f) (t := s) rfl g
@[simp] theorem on_setLtr (s : State) (f : LtrState → LtrState) (g : Fld) : (s.setLtr f).on g = s.on g :=
  on_of_regs (s := s.setLtr f) (t := s) rfl g
@[simp] theorem reg_setLtr (s : State) (f : LtrState → LtrState) (p o : Nat) : (s.setLtr f).reg p o = s.reg p o := rfl
@[simp] theorem setLtr_at (s : State) (f : LtrState → LtrState) : (s.setLtr f).ltr = f s.ltr := rfl
@[simp] theorem setPlm_frame (s : State) (f : PlmState → PlmState) :
    (s.setPlm f).regs = s.regs ∧ (s.setPlm f).inForce = s.inForce ∧ (s.setPlm f).latch = s.latch ∧
    (s.setPlm f).hold = s.hold ∧ (s.setPlm f).latched = s.latched ∧ (s.setPlm f).pages = s.pages ∧
    (s.setPlm f).ticks = s.ticks ∧ (s.setPlm f).clk = s.clk ∧ (s.setPlm f).events = s.events ∧
    (s.setPlm f).resp = s.resp ∧ (s.setPlm f).out = s.out ∧ (s.setPlm f).free = s.free ∧
    (s.setPlm f).ctf = s.ctf ∧ (s.setPlm f).tnc = s.tnc ∧ (s.setPlm f).acs = s.acs ∧
    (s.setPlm f).mte = s.mte ∧ (s.setPlm f).acc = s.acc ∧ (s.setPlm f).pqe = s.pqe ∧
    (s.setPlm f).tun = s.tun ∧ (s.setPlm f).ltr = s.ltr ∧ (s.setPlm f).barm = s.barm ∧
    (s.setPlm f).ccx = s.ccx ∧ (s.setPlm f).cel = s.cel ∧ (s.setPlm f).plt = s.plt ∧
    (s.setPlm f).plp = s.plp ∧ (s.setPlm f).tmp = s.tmp ∧ (s.setPlm f).clg = s.clg ∧
    (s.setPlm f).sec = s.sec ∧ (s.setPlm f).swc = s.swc ∧ (s.setPlm f).bga = s.bga ∧
    (s.setPlm f).pmu = s.pmu ∧ (s.setPlm f).mon = s.mon ∧ (s.setPlm f).start = s.start ∧
    (s.setPlm f).hif = s.hif ∧ (s.setPlm f).mem = s.mem ∧ (s.setPlm f).pending = s.pending := by
  repeat' constructor
@[simp] theorem rd_setPlm (s : State) (f : PlmState → PlmState) (g : Fld) : (s.setPlm f).rd g = s.rd g :=
  rd_of_regs (s := s.setPlm f) (t := s) rfl g
@[simp] theorem on_setPlm (s : State) (f : PlmState → PlmState) (g : Fld) : (s.setPlm f).on g = s.on g :=
  on_of_regs (s := s.setPlm f) (t := s) rfl g
@[simp] theorem reg_setPlm (s : State) (f : PlmState → PlmState) (p o : Nat) : (s.setPlm f).reg p o = s.reg p o := rfl
@[simp] theorem setPlm_at (s : State) (f : PlmState → PlmState) : (s.setPlm f).plm = f s.plm := rfl
@[simp] theorem setPlp_frame (s : State) (f : PlpState → PlpState) :
    (s.setPlp f).regs = s.regs ∧ (s.setPlp f).inForce = s.inForce ∧ (s.setPlp f).latch = s.latch ∧
    (s.setPlp f).hold = s.hold ∧ (s.setPlp f).latched = s.latched ∧ (s.setPlp f).pages = s.pages ∧
    (s.setPlp f).ticks = s.ticks ∧ (s.setPlp f).clk = s.clk ∧ (s.setPlp f).events = s.events ∧
    (s.setPlp f).resp = s.resp ∧ (s.setPlp f).out = s.out ∧ (s.setPlp f).free = s.free ∧
    (s.setPlp f).ctf = s.ctf ∧ (s.setPlp f).tnc = s.tnc ∧ (s.setPlp f).acs = s.acs ∧
    (s.setPlp f).mte = s.mte ∧ (s.setPlp f).acc = s.acc ∧ (s.setPlp f).pqe = s.pqe ∧
    (s.setPlp f).tun = s.tun ∧ (s.setPlp f).ltr = s.ltr ∧ (s.setPlp f).barm = s.barm ∧
    (s.setPlp f).ccx = s.ccx ∧ (s.setPlp f).cel = s.cel ∧ (s.setPlp f).plt = s.plt ∧
    (s.setPlp f).plm = s.plm ∧ (s.setPlp f).tmp = s.tmp ∧ (s.setPlp f).clg = s.clg ∧
    (s.setPlp f).sec = s.sec ∧ (s.setPlp f).swc = s.swc ∧ (s.setPlp f).bga = s.bga ∧
    (s.setPlp f).pmu = s.pmu ∧ (s.setPlp f).mon = s.mon ∧ (s.setPlp f).start = s.start ∧
    (s.setPlp f).hif = s.hif ∧ (s.setPlp f).mem = s.mem ∧ (s.setPlp f).pending = s.pending := by
  repeat' constructor
@[simp] theorem rd_setPlp (s : State) (f : PlpState → PlpState) (g : Fld) : (s.setPlp f).rd g = s.rd g :=
  rd_of_regs (s := s.setPlp f) (t := s) rfl g
@[simp] theorem on_setPlp (s : State) (f : PlpState → PlpState) (g : Fld) : (s.setPlp f).on g = s.on g :=
  on_of_regs (s := s.setPlp f) (t := s) rfl g
@[simp] theorem reg_setPlp (s : State) (f : PlpState → PlpState) (p o : Nat) : (s.setPlp f).reg p o = s.reg p o := rfl
@[simp] theorem setPlp_at (s : State) (f : PlpState → PlpState) : (s.setPlp f).plp = f s.plp := rfl
@[simp] theorem setPlt_frame (s : State) (f : PltState → PltState) :
    (s.setPlt f).regs = s.regs ∧ (s.setPlt f).inForce = s.inForce ∧ (s.setPlt f).latch = s.latch ∧
    (s.setPlt f).hold = s.hold ∧ (s.setPlt f).latched = s.latched ∧ (s.setPlt f).pages = s.pages ∧
    (s.setPlt f).ticks = s.ticks ∧ (s.setPlt f).clk = s.clk ∧ (s.setPlt f).events = s.events ∧
    (s.setPlt f).resp = s.resp ∧ (s.setPlt f).out = s.out ∧ (s.setPlt f).free = s.free ∧
    (s.setPlt f).ctf = s.ctf ∧ (s.setPlt f).tnc = s.tnc ∧ (s.setPlt f).acs = s.acs ∧
    (s.setPlt f).mte = s.mte ∧ (s.setPlt f).acc = s.acc ∧ (s.setPlt f).pqe = s.pqe ∧
    (s.setPlt f).tun = s.tun ∧ (s.setPlt f).ltr = s.ltr ∧ (s.setPlt f).barm = s.barm ∧
    (s.setPlt f).ccx = s.ccx ∧ (s.setPlt f).cel = s.cel ∧ (s.setPlt f).plp = s.plp ∧
    (s.setPlt f).plm = s.plm ∧ (s.setPlt f).tmp = s.tmp ∧ (s.setPlt f).clg = s.clg ∧
    (s.setPlt f).sec = s.sec ∧ (s.setPlt f).swc = s.swc ∧ (s.setPlt f).bga = s.bga ∧
    (s.setPlt f).pmu = s.pmu ∧ (s.setPlt f).mon = s.mon ∧ (s.setPlt f).start = s.start ∧
    (s.setPlt f).hif = s.hif ∧ (s.setPlt f).mem = s.mem ∧ (s.setPlt f).pending = s.pending := by
  repeat' constructor
@[simp] theorem rd_setPlt (s : State) (f : PltState → PltState) (g : Fld) : (s.setPlt f).rd g = s.rd g :=
  rd_of_regs (s := s.setPlt f) (t := s) rfl g
@[simp] theorem on_setPlt (s : State) (f : PltState → PltState) (g : Fld) : (s.setPlt f).on g = s.on g :=
  on_of_regs (s := s.setPlt f) (t := s) rfl g
@[simp] theorem reg_setPlt (s : State) (f : PltState → PltState) (p o : Nat) : (s.setPlt f).reg p o = s.reg p o := rfl
@[simp] theorem setPlt_at (s : State) (f : PltState → PltState) : (s.setPlt f).plt = f s.plt := rfl
@[simp] theorem setPqe_frame (s : State) (f : PqeState → PqeState) :
    (s.setPqe f).regs = s.regs ∧ (s.setPqe f).inForce = s.inForce ∧ (s.setPqe f).latch = s.latch ∧
    (s.setPqe f).hold = s.hold ∧ (s.setPqe f).latched = s.latched ∧ (s.setPqe f).pages = s.pages ∧
    (s.setPqe f).ticks = s.ticks ∧ (s.setPqe f).clk = s.clk ∧ (s.setPqe f).events = s.events ∧
    (s.setPqe f).resp = s.resp ∧ (s.setPqe f).out = s.out ∧ (s.setPqe f).free = s.free ∧
    (s.setPqe f).ctf = s.ctf ∧ (s.setPqe f).tnc = s.tnc ∧ (s.setPqe f).acs = s.acs ∧
    (s.setPqe f).mte = s.mte ∧ (s.setPqe f).acc = s.acc ∧ (s.setPqe f).tun = s.tun ∧
    (s.setPqe f).ltr = s.ltr ∧ (s.setPqe f).barm = s.barm ∧ (s.setPqe f).ccx = s.ccx ∧
    (s.setPqe f).cel = s.cel ∧ (s.setPqe f).plt = s.plt ∧ (s.setPqe f).plp = s.plp ∧
    (s.setPqe f).plm = s.plm ∧ (s.setPqe f).tmp = s.tmp ∧ (s.setPqe f).clg = s.clg ∧
    (s.setPqe f).sec = s.sec ∧ (s.setPqe f).swc = s.swc ∧ (s.setPqe f).bga = s.bga ∧
    (s.setPqe f).pmu = s.pmu ∧ (s.setPqe f).mon = s.mon ∧ (s.setPqe f).start = s.start ∧
    (s.setPqe f).hif = s.hif ∧ (s.setPqe f).mem = s.mem ∧ (s.setPqe f).pending = s.pending := by
  repeat' constructor
@[simp] theorem rd_setPqe (s : State) (f : PqeState → PqeState) (g : Fld) : (s.setPqe f).rd g = s.rd g :=
  rd_of_regs (s := s.setPqe f) (t := s) rfl g
@[simp] theorem on_setPqe (s : State) (f : PqeState → PqeState) (g : Fld) : (s.setPqe f).on g = s.on g :=
  on_of_regs (s := s.setPqe f) (t := s) rfl g
@[simp] theorem reg_setPqe (s : State) (f : PqeState → PqeState) (p o : Nat) : (s.setPqe f).reg p o = s.reg p o := rfl
@[simp] theorem setPqe_at (s : State) (f : PqeState → PqeState) : (s.setPqe f).pqe = f s.pqe := rfl
@[simp] theorem setTnc_frame (s : State) (f : TncState → TncState) :
    (s.setTnc f).regs = s.regs ∧ (s.setTnc f).inForce = s.inForce ∧ (s.setTnc f).latch = s.latch ∧
    (s.setTnc f).hold = s.hold ∧ (s.setTnc f).latched = s.latched ∧ (s.setTnc f).pages = s.pages ∧
    (s.setTnc f).ticks = s.ticks ∧ (s.setTnc f).clk = s.clk ∧ (s.setTnc f).events = s.events ∧
    (s.setTnc f).resp = s.resp ∧ (s.setTnc f).out = s.out ∧ (s.setTnc f).free = s.free ∧
    (s.setTnc f).ctf = s.ctf ∧ (s.setTnc f).acs = s.acs ∧ (s.setTnc f).mte = s.mte ∧
    (s.setTnc f).acc = s.acc ∧ (s.setTnc f).pqe = s.pqe ∧ (s.setTnc f).tun = s.tun ∧
    (s.setTnc f).ltr = s.ltr ∧ (s.setTnc f).barm = s.barm ∧ (s.setTnc f).ccx = s.ccx ∧
    (s.setTnc f).cel = s.cel ∧ (s.setTnc f).plt = s.plt ∧ (s.setTnc f).plp = s.plp ∧
    (s.setTnc f).plm = s.plm ∧ (s.setTnc f).tmp = s.tmp ∧ (s.setTnc f).clg = s.clg ∧
    (s.setTnc f).sec = s.sec ∧ (s.setTnc f).swc = s.swc ∧ (s.setTnc f).bga = s.bga ∧
    (s.setTnc f).pmu = s.pmu ∧ (s.setTnc f).mon = s.mon ∧ (s.setTnc f).start = s.start ∧
    (s.setTnc f).hif = s.hif ∧ (s.setTnc f).mem = s.mem ∧ (s.setTnc f).pending = s.pending := by
  repeat' constructor
@[simp] theorem rd_setTnc (s : State) (f : TncState → TncState) (g : Fld) : (s.setTnc f).rd g = s.rd g :=
  rd_of_regs (s := s.setTnc f) (t := s) rfl g
@[simp] theorem on_setTnc (s : State) (f : TncState → TncState) (g : Fld) : (s.setTnc f).on g = s.on g :=
  on_of_regs (s := s.setTnc f) (t := s) rfl g
@[simp] theorem reg_setTnc (s : State) (f : TncState → TncState) (p o : Nat) : (s.setTnc f).reg p o = s.reg p o := rfl
@[simp] theorem setTnc_at (s : State) (f : TncState → TncState) : (s.setTnc f).tnc = f s.tnc := rfl
@[simp] theorem setSec_frame (s : State) (f : SecState → SecState) :
    (s.setSec f).regs = s.regs ∧ (s.setSec f).inForce = s.inForce ∧ (s.setSec f).latch = s.latch ∧
    (s.setSec f).hold = s.hold ∧ (s.setSec f).latched = s.latched ∧ (s.setSec f).pages = s.pages ∧
    (s.setSec f).ticks = s.ticks ∧ (s.setSec f).clk = s.clk ∧ (s.setSec f).events = s.events ∧
    (s.setSec f).resp = s.resp ∧ (s.setSec f).out = s.out ∧ (s.setSec f).free = s.free ∧
    (s.setSec f).ctf = s.ctf ∧ (s.setSec f).tnc = s.tnc ∧ (s.setSec f).acs = s.acs ∧
    (s.setSec f).mte = s.mte ∧ (s.setSec f).acc = s.acc ∧ (s.setSec f).pqe = s.pqe ∧
    (s.setSec f).tun = s.tun ∧ (s.setSec f).ltr = s.ltr ∧ (s.setSec f).barm = s.barm ∧
    (s.setSec f).ccx = s.ccx ∧ (s.setSec f).cel = s.cel ∧ (s.setSec f).plt = s.plt ∧
    (s.setSec f).plp = s.plp ∧ (s.setSec f).plm = s.plm ∧ (s.setSec f).tmp = s.tmp ∧
    (s.setSec f).clg = s.clg ∧ (s.setSec f).swc = s.swc ∧ (s.setSec f).bga = s.bga ∧
    (s.setSec f).pmu = s.pmu ∧ (s.setSec f).mon = s.mon ∧ (s.setSec f).start = s.start ∧
    (s.setSec f).hif = s.hif ∧ (s.setSec f).mem = s.mem ∧ (s.setSec f).pending = s.pending := by
  repeat' constructor
@[simp] theorem rd_setSec (s : State) (f : SecState → SecState) (g : Fld) : (s.setSec f).rd g = s.rd g :=
  rd_of_regs (s := s.setSec f) (t := s) rfl g
@[simp] theorem on_setSec (s : State) (f : SecState → SecState) (g : Fld) : (s.setSec f).on g = s.on g :=
  on_of_regs (s := s.setSec f) (t := s) rfl g
@[simp] theorem reg_setSec (s : State) (f : SecState → SecState) (p o : Nat) : (s.setSec f).reg p o = s.reg p o := rfl
@[simp] theorem setSec_at (s : State) (f : SecState → SecState) : (s.setSec f).sec = f s.sec := rfl
@[simp] theorem setCel_frame (s : State) (f : CelState → CelState) :
    (s.setCel f).regs = s.regs ∧ (s.setCel f).inForce = s.inForce ∧ (s.setCel f).latch = s.latch ∧
    (s.setCel f).hold = s.hold ∧ (s.setCel f).latched = s.latched ∧ (s.setCel f).pages = s.pages ∧
    (s.setCel f).ticks = s.ticks ∧ (s.setCel f).clk = s.clk ∧ (s.setCel f).events = s.events ∧
    (s.setCel f).resp = s.resp ∧ (s.setCel f).out = s.out ∧ (s.setCel f).free = s.free ∧
    (s.setCel f).ctf = s.ctf ∧ (s.setCel f).tnc = s.tnc ∧ (s.setCel f).acs = s.acs ∧
    (s.setCel f).mte = s.mte ∧ (s.setCel f).acc = s.acc ∧ (s.setCel f).pqe = s.pqe ∧
    (s.setCel f).tun = s.tun ∧ (s.setCel f).ltr = s.ltr ∧ (s.setCel f).barm = s.barm ∧
    (s.setCel f).ccx = s.ccx ∧ (s.setCel f).plt = s.plt ∧ (s.setCel f).plp = s.plp ∧
    (s.setCel f).plm = s.plm ∧ (s.setCel f).tmp = s.tmp ∧ (s.setCel f).clg = s.clg ∧
    (s.setCel f).sec = s.sec ∧ (s.setCel f).swc = s.swc ∧ (s.setCel f).bga = s.bga ∧
    (s.setCel f).pmu = s.pmu ∧ (s.setCel f).mon = s.mon ∧ (s.setCel f).start = s.start ∧
    (s.setCel f).hif = s.hif ∧ (s.setCel f).mem = s.mem ∧ (s.setCel f).pending = s.pending := by
  repeat' constructor
@[simp] theorem rd_setCel (s : State) (f : CelState → CelState) (g : Fld) : (s.setCel f).rd g = s.rd g :=
  rd_of_regs (s := s.setCel f) (t := s) rfl g
@[simp] theorem on_setCel (s : State) (f : CelState → CelState) (g : Fld) : (s.setCel f).on g = s.on g :=
  on_of_regs (s := s.setCel f) (t := s) rfl g
@[simp] theorem reg_setCel (s : State) (f : CelState → CelState) (p o : Nat) : (s.setCel f).reg p o = s.reg p o := rfl
@[simp] theorem setCel_at (s : State) (f : CelState → CelState) : (s.setCel f).cel = f s.cel := rfl
@[simp] theorem setSwc_frame (s : State) (f : SwcState → SwcState) :
    (s.setSwc f).regs = s.regs ∧ (s.setSwc f).inForce = s.inForce ∧ (s.setSwc f).latch = s.latch ∧
    (s.setSwc f).hold = s.hold ∧ (s.setSwc f).latched = s.latched ∧ (s.setSwc f).pages = s.pages ∧
    (s.setSwc f).ticks = s.ticks ∧ (s.setSwc f).clk = s.clk ∧ (s.setSwc f).events = s.events ∧
    (s.setSwc f).resp = s.resp ∧ (s.setSwc f).out = s.out ∧ (s.setSwc f).free = s.free ∧
    (s.setSwc f).ctf = s.ctf ∧ (s.setSwc f).tnc = s.tnc ∧ (s.setSwc f).acs = s.acs ∧
    (s.setSwc f).mte = s.mte ∧ (s.setSwc f).acc = s.acc ∧ (s.setSwc f).pqe = s.pqe ∧
    (s.setSwc f).tun = s.tun ∧ (s.setSwc f).ltr = s.ltr ∧ (s.setSwc f).barm = s.barm ∧
    (s.setSwc f).ccx = s.ccx ∧ (s.setSwc f).cel = s.cel ∧ (s.setSwc f).plt = s.plt ∧
    (s.setSwc f).plp = s.plp ∧ (s.setSwc f).plm = s.plm ∧ (s.setSwc f).tmp = s.tmp ∧
    (s.setSwc f).clg = s.clg ∧ (s.setSwc f).sec = s.sec ∧ (s.setSwc f).bga = s.bga ∧
    (s.setSwc f).pmu = s.pmu ∧ (s.setSwc f).mon = s.mon ∧ (s.setSwc f).start = s.start ∧
    (s.setSwc f).hif = s.hif ∧ (s.setSwc f).mem = s.mem ∧ (s.setSwc f).pending = s.pending := by
  repeat' constructor
@[simp] theorem rd_setSwc (s : State) (f : SwcState → SwcState) (g : Fld) : (s.setSwc f).rd g = s.rd g :=
  rd_of_regs (s := s.setSwc f) (t := s) rfl g
@[simp] theorem on_setSwc (s : State) (f : SwcState → SwcState) (g : Fld) : (s.setSwc f).on g = s.on g :=
  on_of_regs (s := s.setSwc f) (t := s) rfl g
@[simp] theorem reg_setSwc (s : State) (f : SwcState → SwcState) (p o : Nat) : (s.setSwc f).reg p o = s.reg p o := rfl
@[simp] theorem setSwc_at (s : State) (f : SwcState → SwcState) : (s.setSwc f).swc = f s.swc := rfl
@[simp] theorem setTmp_frame (s : State) (f : TmpState → TmpState) :
    (s.setTmp f).regs = s.regs ∧ (s.setTmp f).inForce = s.inForce ∧ (s.setTmp f).latch = s.latch ∧
    (s.setTmp f).hold = s.hold ∧ (s.setTmp f).latched = s.latched ∧ (s.setTmp f).pages = s.pages ∧
    (s.setTmp f).ticks = s.ticks ∧ (s.setTmp f).clk = s.clk ∧ (s.setTmp f).events = s.events ∧
    (s.setTmp f).resp = s.resp ∧ (s.setTmp f).out = s.out ∧ (s.setTmp f).free = s.free ∧
    (s.setTmp f).ctf = s.ctf ∧ (s.setTmp f).tnc = s.tnc ∧ (s.setTmp f).acs = s.acs ∧
    (s.setTmp f).mte = s.mte ∧ (s.setTmp f).acc = s.acc ∧ (s.setTmp f).pqe = s.pqe ∧
    (s.setTmp f).tun = s.tun ∧ (s.setTmp f).ltr = s.ltr ∧ (s.setTmp f).barm = s.barm ∧
    (s.setTmp f).ccx = s.ccx ∧ (s.setTmp f).cel = s.cel ∧ (s.setTmp f).plt = s.plt ∧
    (s.setTmp f).plp = s.plp ∧ (s.setTmp f).plm = s.plm ∧ (s.setTmp f).clg = s.clg ∧
    (s.setTmp f).sec = s.sec ∧ (s.setTmp f).swc = s.swc ∧ (s.setTmp f).bga = s.bga ∧
    (s.setTmp f).pmu = s.pmu ∧ (s.setTmp f).mon = s.mon ∧ (s.setTmp f).start = s.start ∧
    (s.setTmp f).hif = s.hif ∧ (s.setTmp f).mem = s.mem ∧ (s.setTmp f).pending = s.pending := by
  repeat' constructor
@[simp] theorem rd_setTmp (s : State) (f : TmpState → TmpState) (g : Fld) : (s.setTmp f).rd g = s.rd g :=
  rd_of_regs (s := s.setTmp f) (t := s) rfl g
@[simp] theorem on_setTmp (s : State) (f : TmpState → TmpState) (g : Fld) : (s.setTmp f).on g = s.on g :=
  on_of_regs (s := s.setTmp f) (t := s) rfl g
@[simp] theorem reg_setTmp (s : State) (f : TmpState → TmpState) (p o : Nat) : (s.setTmp f).reg p o = s.reg p o := rfl
@[simp] theorem setTmp_at (s : State) (f : TmpState → TmpState) : (s.setTmp f).tmp = f s.tmp := rfl
@[simp] theorem setTun_frame (s : State) (f : TunState → TunState) :
    (s.setTun f).regs = s.regs ∧ (s.setTun f).inForce = s.inForce ∧ (s.setTun f).latch = s.latch ∧
    (s.setTun f).hold = s.hold ∧ (s.setTun f).latched = s.latched ∧ (s.setTun f).pages = s.pages ∧
    (s.setTun f).ticks = s.ticks ∧ (s.setTun f).clk = s.clk ∧ (s.setTun f).events = s.events ∧
    (s.setTun f).resp = s.resp ∧ (s.setTun f).out = s.out ∧ (s.setTun f).free = s.free ∧
    (s.setTun f).ctf = s.ctf ∧ (s.setTun f).tnc = s.tnc ∧ (s.setTun f).acs = s.acs ∧
    (s.setTun f).mte = s.mte ∧ (s.setTun f).acc = s.acc ∧ (s.setTun f).pqe = s.pqe ∧
    (s.setTun f).ltr = s.ltr ∧ (s.setTun f).barm = s.barm ∧ (s.setTun f).ccx = s.ccx ∧
    (s.setTun f).cel = s.cel ∧ (s.setTun f).plt = s.plt ∧ (s.setTun f).plp = s.plp ∧
    (s.setTun f).plm = s.plm ∧ (s.setTun f).tmp = s.tmp ∧ (s.setTun f).clg = s.clg ∧
    (s.setTun f).sec = s.sec ∧ (s.setTun f).swc = s.swc ∧ (s.setTun f).bga = s.bga ∧
    (s.setTun f).pmu = s.pmu ∧ (s.setTun f).mon = s.mon ∧ (s.setTun f).start = s.start ∧
    (s.setTun f).hif = s.hif ∧ (s.setTun f).mem = s.mem ∧ (s.setTun f).pending = s.pending := by
  repeat' constructor
@[simp] theorem rd_setTun (s : State) (f : TunState → TunState) (g : Fld) : (s.setTun f).rd g = s.rd g :=
  rd_of_regs (s := s.setTun f) (t := s) rfl g
@[simp] theorem on_setTun (s : State) (f : TunState → TunState) (g : Fld) : (s.setTun f).on g = s.on g :=
  on_of_regs (s := s.setTun f) (t := s) rfl g
@[simp] theorem reg_setTun (s : State) (f : TunState → TunState) (p o : Nat) : (s.setTun f).reg p o = s.reg p o := rfl
@[simp] theorem setTun_at (s : State) (f : TunState → TunState) : (s.setTun f).tun = f s.tun := rfl
@[simp] theorem setBarm_frame (s : State) (f : BarmState → BarmState) :
    (s.setBarm f).regs = s.regs ∧ (s.setBarm f).inForce = s.inForce ∧ (s.setBarm f).latch = s.latch ∧
    (s.setBarm f).hold = s.hold ∧ (s.setBarm f).latched = s.latched ∧ (s.setBarm f).pages = s.pages ∧
    (s.setBarm f).ticks = s.ticks ∧ (s.setBarm f).clk = s.clk ∧ (s.setBarm f).events = s.events ∧
    (s.setBarm f).resp = s.resp ∧ (s.setBarm f).out = s.out ∧ (s.setBarm f).free = s.free ∧
    (s.setBarm f).ctf = s.ctf ∧ (s.setBarm f).tnc = s.tnc ∧ (s.setBarm f).acs = s.acs ∧
    (s.setBarm f).mte = s.mte ∧ (s.setBarm f).acc = s.acc ∧ (s.setBarm f).pqe = s.pqe ∧
    (s.setBarm f).tun = s.tun ∧ (s.setBarm f).ltr = s.ltr ∧ (s.setBarm f).ccx = s.ccx ∧
    (s.setBarm f).cel = s.cel ∧ (s.setBarm f).plt = s.plt ∧ (s.setBarm f).plp = s.plp ∧
    (s.setBarm f).plm = s.plm ∧ (s.setBarm f).tmp = s.tmp ∧ (s.setBarm f).clg = s.clg ∧
    (s.setBarm f).sec = s.sec ∧ (s.setBarm f).swc = s.swc ∧ (s.setBarm f).bga = s.bga ∧
    (s.setBarm f).pmu = s.pmu ∧ (s.setBarm f).mon = s.mon ∧ (s.setBarm f).start = s.start ∧
    (s.setBarm f).hif = s.hif ∧ (s.setBarm f).mem = s.mem ∧ (s.setBarm f).pending = s.pending := by
  repeat' constructor
@[simp] theorem rd_setBarm (s : State) (f : BarmState → BarmState) (g : Fld) : (s.setBarm f).rd g = s.rd g :=
  rd_of_regs (s := s.setBarm f) (t := s) rfl g
@[simp] theorem on_setBarm (s : State) (f : BarmState → BarmState) (g : Fld) : (s.setBarm f).on g = s.on g :=
  on_of_regs (s := s.setBarm f) (t := s) rfl g
@[simp] theorem reg_setBarm (s : State) (f : BarmState → BarmState) (p o : Nat) : (s.setBarm f).reg p o = s.reg p o := rfl
@[simp] theorem setBarm_at (s : State) (f : BarmState → BarmState) : (s.setBarm f).barm = f s.barm := rfl

/-! ## What the operations write -/

@[simp] theorem log_events (s : State) (code tc data : Nat) :
    (s.log code tc data).events = s.events ++ [⟨code, tc, leBytes 8 data⟩] := rfl
@[simp] theorem send_out (s : State) (c : Channel) (data : List Nat) :
    (s.send c data).out = s.out ++ [⟨c, data⟩] := rfl
@[simp] theorem store_mem (s : State) (a : Nat) (bs : List Byte) :
    (s.store a bs).mem = memStore s.mem a bs := rfl
@[simp] theorem answer_code (s : State) (c : Status) : (s.answer c).resp.code = c := rfl
@[simp] theorem answerRead_code (s : State) (tc a : Nat) (c : Status) (v : Nat) :
    (s.answerRead tc a c v).resp.code = c := rfl
@[simp] theorem draw_free (s : State) (w : Nat) : (s.draw w).2.free = s.free + 1 := rfl

/-- The page state of a page just changed. -/
@[simp] theorem pg_setPg_same (s : State) (page : Nat) (f : PageState → PageState) :
    (s.setPg page f).pg page = f (s.pg page) := by simp [State.pg, State.setPg]

/-- The page state of another page. -/
theorem pg_setPg_other (s : State) {page p : Nat} (h : p ≠ page) (f : PageState → PageState) :
    (s.setPg page f).pg p = s.pg p := by
  simp only [State.pg, State.setPg]; rw [cellAt_put_other _ _ h]

/-- A capture that the code does not ask for. -/
@[simp] theorem capture_ok (s : State) (page off tc : Nat) (write : Bool) :
    s.capture page off tc write .ok = s := by simp [State.capture]

end Sys2Proof.Machine
end

