-- ==== Sys2Proof/Laws/Access.lean ====
section
/-! SUPPORT. Register accesses: what an access that reaches its page leaves, said once for every command
that is a write or a read of one register. -/

namespace Sys2Proof.Machine

theorem directAddr_toNat {page off : Nat} (hp : page < 1024) (ho : off < 4096) :
    (directAddr page off).toNat = 0x40000000 + page * 4096 + off := by
  unfold directAddr
  rw [BitVec.toNat_ofNat, Nat.mod_eq_of_lt (by omega)]

theorem targetOf_direct {page off : Nat} (hp : page < 1024) (ho : off < 4096)
    (ha : RegMap.assigned page = true) :
    targetOf (0x40000000 + page * 4096 + off) = .page page off := by
  have h1 : (0x40000000 + page * 4096 + off - 0x40000000) / 4096 = page := by omega
  have h2 : (0x40000000 + page * 4096 + off) % 4096 = off := by omega
  unfold targetOf
  rw [if_pos (by omega)]
  simp only [h1, h2, ha, if_true]

theorem route_direct (s : State) {page off : Nat} (hp : page < 1024) (ho : off < 4096)
    (ha : RegMap.assigned page = true) :
    s.route (directAddr page off).toNat = some ⟨some page, off, none, none⟩ := by
  unfold State.route
  rw [directAddr_toNat hp ho, targetOf_direct hp ho ha]

theorem scrubFirst_fresh {s : State} {page : Nat} (h : (s.pg page).stale = false) :
    s.scrubFirst page = s := by
  unfold State.scrubFirst; simp [h]

/-- A write that reaches its page ends as the family's writer says, with its capture and its answer. -/
theorem writeReg_admitted {s : State} {h : Writer} {page off : Nat} {w : RegWrite} {f : Nat → Nat}
    (hp : page < 1024) (ho : off < 4096) (h4 : off % 4 = 0) (ha : RegMap.assigned page = true)
    (hh : isHeldWord page off = false)
    (hw : s.admitsWrite page off w (f w.data.toNat) = true) :
    s.writeReg h page off w f =
      ((h s ⟨w.port, w.tc.val, page, off, none⟩ (BitVec.ofNat 32 (f w.data.toNat)).toNat).2.capture
        page off w.tc.val true
        (h s ⟨w.port, w.tc.val, page, off, none⟩ (BitVec.ofNat 32 (f w.data.toNat)).toNat).1).answer
        (h s ⟨w.port, w.tc.val, page, off, none⟩ (BitVec.ofNat 32 (f w.data.toNat)).toNat).1 := by
  simp only [State.admitsWrite, Bool.and_eq_true, beq_iff_eq, Bool.not_eq_true', Bool.or_eq_true,
    decide_eq_true_eq, Bool.and_eq_false_iff] at hw
  obtain ⟨⟨⟨⟨⟨⟨hc, hf⟩, ht⟩, hown⟩, hr⟩, hl⟩, hst⟩ := hw
  have h4' : (directAddr page off).toNat % 4 = 0 := by rw [directAddr_toNat hp ho]; omega
  have ho4 : off / 4 * 4 = off := by omega
  have hstop : s.stopOf true
      { port := w.port, tc := w.tc, addr := directAddr page off
        data := BitVec.ofNat 32 (f w.data.toNat), cc := w.cc }
      ⟨some page, off, none, none⟩ = none := by
    unfold State.stopOf
    simp only [ho4, hc, hf, ht, hown, h4', ne_eq, not_true_eq_false, and_false, if_false,
      Bool.not_true, Bool.and_false, Option.isSome_none, Bool.false_and, beq_self_eq_true,
      Bool.and_self, Bool.or_false]
    simp only [Bool.false_eq_true, if_false]
    rcases hr with hr | hr
    · have : ¬ 0x40 ≤ off := by omega
      simp [this]
    · simp [hr]
  unfold State.writeReg State.write
  simp only [route_direct s hp ho ha, scrubFirst_fresh hst, hstop, Option.getD_some]
  have hperf : s.perform h ⟨w.port, w.tc.val, page, off, none⟩
        (BitVec.ofNat 32 (f w.data.toNat)).toNat
      = h s ⟨w.port, w.tc.val, page, off, none⟩ (BitVec.ofNat 32 (f w.data.toNat)).toNat := by
    unfold State.perform
    have : (s.held page && lockProtected page off) = false := by
      rcases hl with hl | hl <;> simp [hl]
    simp only [this, hh, Bool.false_eq_true, if_false]
  rw [hperf]

/-- A read that reaches its page ends as the family's reader says, with its capture and its answer. -/
theorem readReg_admitted {s : State} {h : Reader} {page off : Nat} {r : RegRead}
    (hp : page < 1024) (ho : off < 4096) (h4 : off % 4 = 0) (ha : RegMap.assigned page = true)
    (hr : s.admitsRead page off r = true) :
    s.readReg h page off r =
      ((h s ⟨r.port, r.tc.val, page, off, none⟩).2.2.capture page off r.tc.val false
        (h s ⟨r.port, r.tc.val, page, off, none⟩).1).answerRead r.tc.val
        (addressA (directAddr page off).toNat false) (h s ⟨r.port, r.tc.val, page, off, none⟩).1
        (h s ⟨r.port, r.tc.val, page, off, none⟩).2.1 := by
  simp only [State.admitsRead, Bool.and_eq_true, Bool.not_eq_true', Bool.or_eq_true,
    decide_eq_true_eq] at hr
  obtain ⟨⟨⟨ht, hm⟩, hrun⟩, hst⟩ := hr
  have h4' : (directAddr page off).toNat % 4 = 0 := by rw [directAddr_toNat hp ho]; omega
  have ho4 : off / 4 * 4 = off := by omega
  have hstop : s.stopOf false { port := r.port, tc := r.tc, addr := directAddr page off }
      ⟨some page, off, none, none⟩ = none := by
    unfold State.stopOf
    simp only [ho4, ht, hm, h4', Bool.not_true, Bool.and_false, Option.isSome_none,
      Bool.false_and, beq_self_eq_true, Bool.and_self, Bool.or_false, Bool.false_eq_true,
      false_and, if_false, Bool.not_false]
    rcases hrun with hr | hr
    · have : ¬ 0x40 ≤ off := by omega
      simp [this]
    · simp [hr]
  unfold State.readReg State.read
  simp only [route_direct s hp ho ha, scrubFirst_fresh hst, hstop, Option.getD_some,
    Bool.false_eq_true, if_false]

/-- A step with a command at the front of the queue. -/
theorem step_front {s : State} {c : Instr} {rest : List Instr} (h : s.pending = c :: rest) :
    step s = exec c { s with pending := rest } := by
  unfold step; rw [h]

end Sys2Proof.Machine
end

