-- ==== Sys2Proof/Laws/Frame.lean ====
section
/-! SUPPORT. The frame of a function: the state with some parts blanked. A function that changes only the parts
in a mask leaves the state with those parts blanked as it was; `SameBut` follows. Part n of `Part` has bit n. -/

namespace Sys2Proof.Machine

/-- The number of a part. -/
def Part.num : Part → Nat
  | .regs => 0
  | .inForce => 1
  | .latch => 2
  | .hold => 3
  | .latched => 4
  | .pages => 5
  | .ticks => 6
  | .clk => 7
  | .events => 8
  | .resp => 9
  | .out => 10
  | .free => 11
  | .ctf => 12
  | .tnc => 13
  | .acs => 14
  | .mte => 15
  | .acc => 16
  | .pqe => 17
  | .tun => 18
  | .ltr => 19
  | .barm => 20
  | .ccx => 21
  | .cel => 22
  | .plt => 23
  | .plp => 24
  | .plm => 25
  | .tmp => 26
  | .clg => 27
  | .sec => 28
  | .swc => 29
  | .bga => 30
  | .pmu => 31
  | .mon => 32
  | .start => 33
  | .hif => 34
  | .mem => 35
  | .pending => 36

/-- The mask of a list of parts. -/
def partMask (l : List Part) : Nat := l.foldr (fun p m => m ||| 2 ^ p.num) 0

/-- A part that the mask names is blank. -/
def blankIf {α : Type} (m k : Nat) (d a : α) : α := if m.testBit k then d else a

/-- The state with the parts of a mask blanked. -/
def State.except (m : Nat) (s : State) : State :=
  { regs := blankIf m 0 [] s.regs,
    inForce := blankIf m 1 [] s.inForce,
    latch := blankIf m 2 [] s.latch,
    hold := blankIf m 3 [] s.hold,
    latched := blankIf m 4 [] s.latched,
    pages := blankIf m 5 [] s.pages,
    ticks := blankIf m 6 0 s.ticks,
    clk := blankIf m 7 0 s.clk,
    events := blankIf m 8 [] s.events,
    resp := blankIf m 9 {} s.resp,
    out := blankIf m 10 [] s.out,
    free := blankIf m 11 0 s.free,
    ctf := blankIf m 12 {} s.ctf,
    tnc := blankIf m 13 {} s.tnc,
    acs := blankIf m 14 {} s.acs,
    mte := blankIf m 15 {} s.mte,
    acc := blankIf m 16 {} s.acc,
    pqe := blankIf m 17 {} s.pqe,
    tun := blankIf m 18 {} s.tun,
    ltr := blankIf m 19 {} s.ltr,
    barm := blankIf m 20 {} s.barm,
    ccx := blankIf m 21 {} s.ccx,
    cel := blankIf m 22 {} s.cel,
    plt := blankIf m 23 {} s.plt,
    plp := blankIf m 24 {} s.plp,
    plm := blankIf m 25 {} s.plm,
    tmp := blankIf m 26 {} s.tmp,
    clg := blankIf m 27 {} s.clg,
    sec := blankIf m 28 {} s.sec,
    swc := blankIf m 29 {} s.swc,
    bga := blankIf m 30 {} s.bga,
    pmu := blankIf m 31 {} s.pmu,
    mon := blankIf m 32 {} s.mon,
    start := blankIf m 33 {} s.start,
    hif := blankIf m 34 {} s.hif,
    mem := blankIf m 35 [] s.mem,
    pending := blankIf m 36 [] s.pending }

theorem blankIf_blankIf {α : Type} {q m : Nat} (h : q &&& m = q) (k : Nat) (d a : α) :
    blankIf m k d (blankIf q k d a) = blankIf m k d a := by
  unfold blankIf
  by_cases hm : m.testBit k
  · simp [hm]
  · have : q.testBit k = false := by
      have := congrArg (Nat.testBit · k) h
      simp only [Nat.testBit_and] at this
      cases hq : q.testBit k
      · rfl
      · simp only [hq, Bool.true_and] at this; exact absurd this hm
    simp [this]

theorem blankIf_on {α : Type} {m k : Nat} (h : 2 ^ k &&& m = 2 ^ k) (d a b : α) :
    blankIf m k d a = blankIf m k d b := by
  have : m.testBit k = true := by
    have := congrArg (Nat.testBit · k) h
    simpa [Nat.testBit_and] using this
  simp [blankIf, this]

theorem blankIf_off {α : Type} {m k : Nat} (h : m.testBit k = false) (d a b : α)
    (e : blankIf m k d a = blankIf m k d b) : a = b := by
  simpa [blankIf, h] using e

theorem except_except {q m : Nat} (h : q &&& m = q) (s : State) :
    (s.except q).except m = s.except m := by
  simp only [State.except, blankIf_blankIf h]

/-- A frame holds for every larger mask. -/
theorem except_mono {q m : Nat} (h : q &&& m = q) {s t : State} (e : t.except q = s.except q) :
    t.except m = s.except m := by
  rw [← except_except h t, e, except_except h s]

/-- The parts outside the mask are the same. -/
theorem sameBut_of_except {l : List Part} {s t : State} (e : t.except (partMask l) = s.except (partMask l)) :
    SameBut l s t := by
  intro p hp
  have hb : (partMask l).testBit p.num = false := by
    clear e
    induction l with
    | nil => simp [partMask]
    | cons q l ih =>
      simp only [List.mem_cons, not_or] at hp
      have ih := ih hp.2
      have hq : p.num ≠ q.num := by
        intro h; apply hp.1; revert h; cases p <;> cases q <;> simp [Part.num]
      simp only [partMask, List.foldr_cons, Nat.testBit_or, Nat.testBit_two_pow] at ih ⊢
      simp [ih, Ne.symm hq]
  cases p <;> simp only [Part.same, Part.num] at hb ⊢
  · exact blankIf_off hb _ _ _ (congrArg State.regs e)
  · exact blankIf_off hb _ _ _ (congrArg State.inForce e)
  · exact blankIf_off hb _ _ _ (congrArg State.latch e)
  · exact blankIf_off hb _ _ _ (congrArg State.hold e)
  · exact blankIf_off hb _ _ _ (congrArg State.latched e)
  · exact blankIf_off hb _ _ _ (congrArg State.pages e)
  · exact blankIf_off hb _ _ _ (congrArg State.ticks e)
  · exact blankIf_off hb _ _ _ (congrArg State.clk e)
  · exact blankIf_off hb _ _ _ (congrArg State.events e)
  · exact blankIf_off hb _ _ _ (congrArg State.resp e)
  · exact blankIf_off hb _ _ _ (congrArg State.out e)
  · exact blankIf_off hb _ _ _ (congrArg State.free e)
  · exact blankIf_off hb _ _ _ (congrArg State.ctf e)
  · exact blankIf_off hb _ _ _ (congrArg State.tnc e)
  · exact blankIf_off hb _ _ _ (congrArg State.acs e)
  · exact blankIf_off hb _ _ _ (congrArg State.mte e)
  · exact blankIf_off hb _ _ _ (congrArg State.acc e)
  · exact blankIf_off hb _ _ _ (congrArg State.pqe e)
  · exact blankIf_off hb _ _ _ (congrArg State.tun e)
  · exact blankIf_off hb _ _ _ (congrArg State.ltr e)
  · exact blankIf_off hb _ _ _ (congrArg State.barm e)
  · exact blankIf_off hb _ _ _ (congrArg State.ccx e)
  · exact blankIf_off hb _ _ _ (congrArg State.cel e)
  · exact blankIf_off hb _ _ _ (congrArg State.plt e)
  · exact blankIf_off hb _ _ _ (congrArg State.plp e)
  · exact blankIf_off hb _ _ _ (congrArg State.plm e)
  · exact blankIf_off hb _ _ _ (congrArg State.tmp e)
  · exact blankIf_off hb _ _ _ (congrArg State.clg e)
  · exact blankIf_off hb _ _ _ (congrArg State.sec e)
  · exact blankIf_off hb _ _ _ (congrArg State.swc e)
  · exact blankIf_off hb _ _ _ (congrArg State.bga e)
  · exact blankIf_off hb _ _ _ (congrArg State.pmu e)
  · exact blankIf_off hb _ _ _ (congrArg State.mon e)
  · exact blankIf_off hb _ _ _ (congrArg State.start e)
  · exact blankIf_off hb _ _ _ (congrArg State.hif e)
  · exact blankIf_off hb _ _ _ (congrArg State.mem e)
  · exact blankIf_off hb _ _ _ (congrArg State.pending e)

/-! ## Single parts -/

theorem except_upd_regs (m : Nat) (h : 1 &&& m = 1) (s : State) {x0} :
    State.except m { s with regs := x0 } = s.except m :=
  except_mono h rfl

theorem except_upd_inForce (m : Nat) (h : 2 &&& m = 2) (s : State) {x0} :
    State.except m { s with inForce := x0 } = s.except m :=
  except_mono h rfl

theorem except_upd_latch (m : Nat) (h : 4 &&& m = 4) (s : State) {x0} :
    State.except m { s with latch := x0 } = s.except m :=
  except_mono h rfl

theorem except_upd_hold (m : Nat) (h : 8 &&& m = 8) (s : State) {x0} :
    State.except m { s with hold := x0 } = s.except m :=
  except_mono h rfl

theorem except_upd_latched (m : Nat) (h : 16 &&& m = 16) (s : State) {x0} :
    State.except m { s with latched := x0 } = s.except m :=
  except_mono h rfl

theorem except_upd_pages (m : Nat) (h : 32 &&& m = 32) (s : State) {x0} :
    State.except m { s with pages := x0 } = s.except m :=
  except_mono h rfl

theorem except_upd_ticks (m : Nat) (h : 64 &&& m = 64) (s : State) {x0} :
    State.except m { s with ticks := x0 } = s.except m :=
  except_mono h rfl

theorem except_upd_clk (m : Nat) (h : 128 &&& m = 128) (s : State) {x0} :
    State.except m { s with clk := x0 } = s.except m :=
  except_mono h rfl

theorem except_upd_events (m : Nat) (h : 256 &&& m = 256) (s : State) {x0} :
    State.except m { s with events := x0 } = s.except m :=
  except_mono h rfl

theorem except_upd_resp (m : Nat) (h : 512 &&& m = 512) (s : State) {x0} :
    State.except m { s with resp := x0 } = s.except m :=
  except_mono h rfl

theorem except_upd_out (m : Nat) (h : 1024 &&& m = 1024) (s : State) {x0} :
    State.except m { s with out := x0 } = s.except m :=
  except_mono h rfl

theorem except_upd_free (m : Nat) (h : 2048 &&& m = 2048) (s : State) {x0} :
    State.except m { s with free := x0 } = s.except m :=
  except_mono h rfl

theorem except_upd_ctf (m : Nat) (h : 4096 &&& m = 4096) (s : State) {x0} :
    State.except m { s with ctf := x0 } = s.except m :=
  except_mono h rfl

theorem except_upd_tnc (m : Nat) (h : 8192 &&& m = 8192) (s : State) {x0} :
    State.except m { s with tnc := x0 } = s.except m :=
  except_mono h rfl

theorem except_upd_acs (m : Nat) (h : 16384 &&& m = 16384) (s : State) {x0} :
    State.except m { s with acs := x0 } = s.except m :=
  except_mono h rfl

theorem except_upd_mte (m : Nat) (h : 32768 &&& m = 32768) (s : State) {x0} :
    State.except m { s with mte := x0 } = s.except m :=
  except_mono h rfl

theorem except_upd_acc (m : Nat) (h : 65536 &&& m = 65536) (s : State) {x0} :
    State.except m { s with acc := x0 } = s.except m :=
  except_mono h rfl

theorem except_upd_pqe (m : Nat) (h : 131072 &&& m = 131072) (s : State) {x0} :
    State.except m { s with pqe := x0 } = s.except m :=
  except_mono h rfl

theorem except_upd_tun (m : Nat) (h : 262144 &&& m = 262144) (s : State) {x0} :
    State.except m { s with tun := x0 } = s.except m :=
  except_mono h rfl

theorem except_upd_ltr (m : Nat) (h : 524288 &&& m = 524288) (s : State) {x0} :
    State.except m { s with ltr := x0 } = s.except m :=
  except_mono h rfl

theorem except_upd_barm (m : Nat) (h : 1048576 &&& m = 1048576) (s : State) {x0} :
    State.except m { s with barm := x0 } = s.except m :=
  except_mono h rfl

theorem except_upd_ccx (m : Nat) (h : 2097152 &&& m = 2097152) (s : State) {x0} :
    State.except m { s with ccx := x0 } = s.except m :=
  except_mono h rfl

theorem except_upd_cel (m : Nat) (h : 4194304 &&& m = 4194304) (s : State) {x0} :
    State.except m { s with cel := x0 } = s.except m :=
  except_mono h rfl

theorem except_upd_plt (m : Nat) (h : 8388608 &&& m = 8388608) (s : State) {x0} :
    State.except m { s with plt := x0 } = s.except m :=
  except_mono h rfl

theorem except_upd_plp (m : Nat) (h : 16777216 &&& m = 16777216) (s : State) {x0} :
    State.except m { s with plp := x0 } = s.except m :=
  except_mono h rfl

theorem except_upd_plm (m : Nat) (h : 33554432 &&& m = 33554432) (s : State) {x0} :
    State.except m { s with plm := x0 } = s.except m :=
  except_mono h rfl

theorem except_upd_tmp (m : Nat) (h : 67108864 &&& m = 67108864) (s : State) {x0} :
    State.except m { s with tmp := x0 } = s.except m :=
  except_mono h rfl

theorem except_upd_clg (m : Nat) (h : 134217728 &&& m = 134217728) (s : State) {x0} :
    State.except m { s with clg := x0 } = s.except m :=
  except_mono h rfl

theorem except_upd_sec (m : Nat) (h : 268435456 &&& m = 268435456) (s : State) {x0} :
    State.except m { s with sec := x0 } = s.except m :=
  except_mono h rfl

theorem except_upd_swc (m : Nat) (h : 536870912 &&& m = 536870912) (s : State) {x0} :
    State.except m { s with swc := x0 } = s.except m :=
  except_mono h rfl

theorem except_upd_bga (m : Nat) (h : 1073741824 &&& m = 1073741824) (s : State) {x0} :
    State.except m { s with bga := x0 } = s.except m :=
  except_mono h rfl

theorem except_upd_pmu (m : Nat) (h : 2147483648 &&& m = 2147483648) (s : State) {x0} :
    State.except m { s with pmu := x0 } = s.except m :=
  except_mono h rfl

theorem except_upd_mon (m : Nat) (h : 4294967296 &&& m = 4294967296) (s : State) {x0} :
    State.except m { s with mon := x0 } = s.except m :=
  except_mono h rfl

theorem except_upd_start (m : Nat) (h : 8589934592 &&& m = 8589934592) (s : State) {x0} :
    State.except m { s with start := x0 } = s.except m :=
  except_mono h rfl

theorem except_upd_hif (m : Nat) (h : 17179869184 &&& m = 17179869184) (s : State) {x0} :
    State.except m { s with hif := x0 } = s.except m :=
  except_mono h rfl

theorem except_upd_mem (m : Nat) (h : 34359738368 &&& m = 34359738368) (s : State) {x0} :
    State.except m { s with mem := x0 } = s.except m :=
  except_mono h rfl

theorem except_upd_pending (m : Nat) (h : 68719476736 &&& m = 68719476736) (s : State) {x0} :
    State.except m { s with pending := x0 } = s.except m :=
  except_mono h rfl

theorem except_upd_ticks_clk_ctf (m : Nat) (h : 4288 &&& m = 4288) (s : State) {x0 x1 x2} :
    State.except m { s with ticks := x0, clk := x1, ctf := x2 } = s.except m :=
  except_mono h rfl

theorem except_upd_ticks_ctf (m : Nat) (h : 4160 &&& m = 4160) (s : State) {x0 x1} :
    State.except m { s with ticks := x0, ctf := x1 } = s.except m :=
  except_mono h rfl

theorem except_upd_inForce_ctf (m : Nat) (h : 4098 &&& m = 4098) (s : State) {x0 x1} :
    State.except m { s with inForce := x0, ctf := x1 } = s.except m :=
  except_mono h rfl

theorem except_upd_ccx_mem (m : Nat) (h : 34361835520 &&& m = 34361835520) (s : State) {x0 x1} :
    State.except m { s with ccx := x0, mem := x1 } = s.except m :=
  except_mono h rfl

theorem except_upd_pmu_start (m : Nat) (h : 10737418240 &&& m = 10737418240) (s : State) {x0 x1} :
    State.except m { s with pmu := x0, start := x1 } = s.except m :=
  except_mono h rfl

end Sys2Proof.Machine
end

