-- ==== Sys2Proof/Laws/FrameOps.lean ====
section
/-! SUPPORT. What each operation may change: outside the parts of the state in its mask, the state after it is as
before (part 1 of 4; an operation stands after those it calls). Cite these in place of unfolding the operation. -/

namespace Sys2Proof.Machine

set_option linter.all false

theorem sub_mask {a b m : Nat} (h : b &&& m = b) (k : a &&& b = a) : a &&& m = a := by
  rw [← k, Nat.and_assoc, h]

theorem foldl_same {α : Type} (m : Nat) (g : State → α → State)
    (h : ∀ t x, (g t x).except m = t.except m) (l : List α) (s : State) :
    (l.foldl g s).except m = s.except m := by
  induction l generalizing s with
  | nil => rfl
  | cons x r ih => rw [List.foldl_cons, ih, h]

theorem foldl_same2 {α β : Type} (m : Nat) (g : β × State → α → β × State)
    (h : ∀ t x, (g t x).2.except m = t.2.except m) (l : List α) (s : β × State) :
    (l.foldl g s).2.except m = s.2.except m := by
  induction l generalizing s with
  | nil => rfl
  | cons x r ih => rw [List.foldl_cons, ih, h]

theorem foldl_same1 {α β : Type} (m : Nat) (g : State × β → α → State × β)
    (h : ∀ t x, (g t x).1.except m = t.1.except m) (l : List α) (s : State × β) :
    (l.foldl g s).1.except m = s.1.except m := by
  induction l generalizing s with
  | nil => rfl
  | cons x r ih => rw [List.foldl_cons, ih, h]

theorem State.setReg_same (m : Nat) (h : 1 &&& m = 1) (a0 : State) (a1 : ℕ) (a2 : ℕ) (a3 : ℕ) :
    State.except m (State.setReg a0 a1 a2 a3) = State.except m a0 := by
  refine except_mono h ?_
  simp only [State.except, setReg_frame]
  rfl

theorem State.setWide_same (m : Nat) (h : 1 &&& m = 1) (a0 : State) (a1 : ℕ) (a2 : ℕ) (a3 : ℕ) (a4 : ℕ) :
    State.except m (State.setWide a0 a1 a2 a3 a4) = State.except m a0 := by
  refine except_mono h ?_
  simp only [State.except, setWide_frame]
  rfl

theorem State.wr_same (m : Nat) (h : 1 &&& m = 1) (a0 : State) (a1 : Fld) (a2 : ℕ) :
    State.except m (State.wr a0 a1 a2) = State.except m a0 := by
  refine except_mono h ?_
  simp only [State.except, wr_frame]
  rfl

theorem State.wr64_same (m : Nat) (h : 1 &&& m = 1) (a0 : State) (a1 : Fld) (a2 : Fld) (a3 : ℕ) :
    State.except m (State.wr64 a0 a1 a2 a3) = State.except m a0 := by
  refine except_mono h ?_
  simp only [State.except, wr64_frame]
  rfl

theorem State.setAccWord_same (m : Nat) (h : 1 &&& m = 1) (a0 : State) (a1 : Bool) (a2 : ℕ) (a3 : ℕ) (a4 : ℕ) :
    State.except m (State.setAccWord a0 a1 a2 a3 a4) = State.except m a0 := by
  refine except_mono h ?_
  unfold State.setAccWord
  simp only [State.wr64_same, apply_ite (State.except 1), apply_ite Prod.snd, apply_ite Prod.fst, ite_self,
      Nat.reduceAnd, foldl_same, foldl_same2, foldl_same1]

theorem State.accGain_same (m : Nat) (h : 1 &&& m = 1) (a0 : State) (a1 : Bool) (a2 : ℕ) (a3 : ℕ) (a4 : ℕ) :
    State.except m (State.accGain a0 a1 a2 a3 a4) = State.except m a0 := by
  refine except_mono h ?_
  unfold State.accGain
  simp only [State.setAccWord_same, apply_ite (State.except 1), apply_ite Prod.snd, apply_ite Prod.fst, ite_self,
      Nat.reduceAnd, foldl_same, foldl_same2, foldl_same1]

theorem State.accAdd_same (m : Nat) (h : 65537 &&& m = 65537) (a0 : State) (a1 : ℕ) (a2 : ℕ) (a3 : ℕ) :
    State.except m (State.accAdd a0 a1 a2 a3) = State.except m a0 := by
  refine except_mono h ?_
  unfold State.accAdd
  simp only [State.accGain_same, State.wr_same, except_upd_acc, apply_ite (State.except 65537), apply_ite Prod.snd,
      apply_ite Prod.fst, ite_self, Nat.reduceAnd, foldl_same, foldl_same2, foldl_same1]

theorem State.raise_same (m : Nat) (h : 1 &&& m = 1) (a0 : State) (a1 : ℕ) (a2 : ℕ) :
    State.except m (State.raise a0 a1 a2) = State.except m a0 := by
  refine except_mono h ?_
  simp only [State.except, raise_frame]
  rfl

theorem State.count_same (m : Nat) (h : 1 &&& m = 1) (a0 : State) (a1 : Fld) (a2 : optParam ℕ 1) :
    State.except m (State.count a0 a1 a2) = State.except m a0 := by
  refine except_mono h ?_
  simp only [State.except, count_frame]
  rfl

theorem State.accumulate_same (m : Nat) (h : 65537 &&& m = 65537) (a0 : State) (a1 : CycleEnd) (a2 : ℕ) (a3 : ChanRec)
    :
    State.except m (State.accumulate a0 a1 a2 a3) = State.except m a0 := by
  refine except_mono h ?_
  unfold State.accumulate
  (try simp only [State.accAdd_same, State.wr64_same, State.raise_same, State.wr_same, State.count_same, apply_ite
      (State.except 65537), apply_ite Prod.snd, apply_ite Prod.fst, ite_self, Nat.reduceAnd, foldl_same, foldl_same2,
      foldl_same1])
  repeat' split
  all_goals (try simp [State.accAdd_same, State.wr64_same, State.raise_same, State.wr_same, State.count_same,
      apply_ite (State.except 65537), apply_ite Prod.snd, apply_ite Prod.fst, ite_self, Nat.reduceAnd, foldl_same,
      foldl_same2, foldl_same1])

theorem State.vmAdd_same (m : Nat) (h : 65537 &&& m = 65537) (a0 : State) (a1 : ℕ) (a2 : ℕ) (a3 : ℕ) (a4 : ℕ) :
    State.except m (State.vmAdd a0 a1 a2 a3 a4).2 = State.except m a0 := by
  refine except_mono h ?_
  unfold State.vmAdd
  simp only [State.accGain_same, except_upd_acc, apply_ite (State.except 65537), apply_ite Prod.snd, apply_ite
      Prod.fst, ite_self, Nat.reduceAnd, foldl_same, foldl_same2, foldl_same1]

theorem State.meterClose_same (m : Nat) (h : 65537 &&& m = 65537) (a0 : State) (a1 : CycleEnd) (a2 : List (ℕ ×
    ChanRec)) (a3 : ℕ) (a4 : List ℕ) :
    State.except m (State.meterClose a0 a1 a2 a3 a4) = State.except m a0 := by
  refine except_mono h ?_
  unfold State.meterClose
  simp only [State.wr_same, State.vmAdd_same, State.accGain_same, apply_ite (State.except 65537), apply_ite Prod.snd,
      apply_ite Prod.fst, ite_self, Nat.reduceAnd, foldl_same, foldl_same2, foldl_same1]

theorem State.log_same (m : Nat) (h : 256 &&& m = 256) (a0 : State) (a1 : ℕ) (a2 : ℕ) (a3 : ℕ) :
    State.except m (State.log a0 a1 a2 a3) = State.except m a0 := by
  refine except_mono h ?_
  simp only [State.except, log_frame]
  rfl

theorem State.markBad_same (m : Nat) (h : 257 &&& m = 257) (a0 : State) (a1 : Bool) (a2 : ℕ) :
    State.except m (State.markBad a0 a1 a2) = State.except m a0 := by
  refine except_mono h ?_
  unfold State.markBad
  simp only [State.log_same, State.wr_same, State.raise_same, apply_ite (State.except 257), apply_ite Prod.snd,
      apply_ite Prod.fst, ite_self, Nat.reduceAnd, foldl_same, foldl_same2, foldl_same1]

theorem State.rebuilt_same (m : Nat) (h : 257 &&& m = 257) (a0 : State) (a1 : Bool) (a2 : ℕ) (a3 : ℕ) :
    State.except m (State.rebuilt a0 a1 a2 a3) = State.except m a0 := by
  refine except_mono h ?_
  unfold State.rebuilt
  simp only [State.count_same, State.log_same, State.raise_same, apply_ite (State.except 257), apply_ite Prod.snd,
      apply_ite Prod.fst, ite_self, Nat.reduceAnd, foldl_same, foldl_same2, foldl_same1]

theorem State.corrected_same (m : Nat) (h : 1 &&& m = 1) (a0 : State) (a1 : Bool) (a2 : ℕ) :
    State.except m (State.corrected a0 a1 a2) = State.except m a0 := by
  refine except_mono h ?_
  unfold State.corrected
  simp only [State.raise_same, State.count_same, apply_ite (State.except 1), apply_ite Prod.snd, apply_ite Prod.fst,
      ite_self, Nat.reduceAnd, foldl_same, foldl_same2, foldl_same1]

theorem State.residueUpset_same (m : Nat) (h : 65537 &&& m = 65537) (a0 : State) (a1 : Bool) (a2 : ℕ) (a3 : ℕ) (a4 :
    ℕ) :
    State.except m (State.residueUpset a0 a1 a2 a3 a4) = State.except m a0 := by
  refine except_mono h ?_
  unfold State.residueUpset
  simp only [State.corrected_same, State.wr_same, except_upd_acc, apply_ite (State.except 65537), apply_ite Prod.snd,
      apply_ite Prod.fst, ite_self, Nat.reduceAnd, foldl_same, foldl_same2, foldl_same1]

theorem State.readBack_same (m : Nat) (h : 65793 &&& m = 65793) (a0 : State) (a1 : Bool) (a2 : ℕ) (a3 : List (ℕ × ℕ))
    :
    State.except m (State.readBack a0 a1 a2 a3) = State.except m a0 := by
  refine except_mono h ?_
  unfold State.readBack
  (try simp only [State.residueUpset_same, State.corrected_same, State.setAccWord_same, State.wr_same,
      State.rebuilt_same, State.markBad_same, apply_ite (State.except 65793), apply_ite Prod.snd, apply_ite Prod.fst,
      ite_self, Nat.reduceAnd, foldl_same, foldl_same2, foldl_same1])
  repeat' split
  all_goals (try simp [State.residueUpset_same, State.corrected_same, State.setAccWord_same, State.wr_same,
      State.rebuilt_same, State.markBad_same, apply_ite (State.except 65793), apply_ite Prod.snd, apply_ite Prod.fst,
      ite_self, Nat.reduceAnd, foldl_same, foldl_same2, foldl_same1])

theorem State.closeStatus_same (m : Nat) (h : 1 &&& m = 1) (a0 : State) (a1 : ℕ) (a2 : ℕ) (a3 : Status) :
    State.except m (State.closeStatus a0 a1 a2 a3) = State.except m a0 := by
  refine except_mono h ?_
  unfold State.closeStatus
  simp only [State.wr_same, apply_ite (State.except 1), apply_ite Prod.snd, apply_ite Prod.fst, ite_self,
      Nat.reduceAnd, foldl_same, foldl_same2, foldl_same1]

theorem State.addCycle_same (m : Nat) (h : 98561 &&& m = 98561) (a0 : State) (a1 : CycleEnd) (a2 : List (ℕ × ChanRec))
    (a3 : List AccUpset) :
    State.except m (State.addCycle a0 a1 a2 a3) = State.except m a0 := by
  refine except_mono h ?_
  unfold State.addCycle
  (try simp only [State.closeStatus_same, State.count_same, State.raise_same, State.log_same, State.readBack_same,
      State.accumulate_same, State.meterClose_same, State.wr_same, except_upd_acc, except_upd_mte, apply_ite
      (State.except 98561), apply_ite Prod.snd, apply_ite Prod.fst, ite_self, Nat.reduceAnd, foldl_same, foldl_same2,
      foldl_same1])
  repeat' split
  all_goals (try simp [State.closeStatus_same, State.count_same, State.raise_same, State.log_same,
      State.readBack_same, State.accumulate_same, State.meterClose_same, State.wr_same, except_upd_acc,
      except_upd_mte, apply_ite (State.except 98561), apply_ite Prod.snd, apply_ite Prod.fst, ite_self, Nat.reduceAnd,
      foldl_same, foldl_same2, foldl_same1])

theorem State.endSubst_same (m : Nat) (h : 33024 &&& m = 33024) (a0 : State) (a1 : ℕ) :
    State.except m (State.endSubst a0 a1) = State.except m a0 := by
  refine except_mono h ?_
  unfold State.endSubst
  simp only [State.log_same, except_upd_mte, apply_ite (State.except 33024), apply_ite Prod.snd, apply_ite Prod.fst,
      ite_self, Nat.reduceAnd, foldl_same, foldl_same2, foldl_same1]

theorem State.substitute_same (m : Nat) (h : 33025 &&& m = 33025) (a0 : State) (a1 : CycleEnd) (a2 : ℕ) (a3 : ℕ) (a4 :
    ℕ) :
    State.except m (State.substitute a0 a1 a2 a3 a4).2 = State.except m a0 := by
  refine except_mono h ?_
  unfold State.substitute
  simp only [State.raise_same, State.log_same, State.count_same, except_upd_mte, apply_ite (State.except 33025),
      apply_ite Prod.snd, apply_ite Prod.fst, ite_self, Nat.reduceAnd, foldl_same, foldl_same2, foldl_same1]

theorem State.channelClose_same (m : Nat) (h : 33025 &&& m = 33025) (a0 : State) (a1 : CycleEnd) (a2 : ℕ) :
    State.except m (State.channelClose a0 a1 a2).2 = State.except m a0 := by
  refine except_mono h ?_
  unfold State.channelClose
  simp only [State.endSubst_same, State.substitute_same, State.count_same, State.raise_same, except_upd_mte, apply_ite
      (State.except 33025), apply_ite Prod.snd, apply_ite Prod.fst, ite_self, Nat.reduceAnd, foldl_same, foldl_same2,
      foldl_same1]

theorem State.endUnmeas_same (m : Nat) (h : 33024 &&& m = 33024) (a0 : State) :
    State.except m (State.endUnmeas a0) = State.except m a0 := by
  refine except_mono h ?_
  unfold State.endUnmeas
  simp only [State.log_same, except_upd_mte, apply_ite (State.except 33024), apply_ite Prod.snd, apply_ite Prod.fst,
      ite_self, Nat.reduceAnd, foldl_same, foldl_same2, foldl_same1]

theorem State.voltageClose_same (m : Nat) (h : 1 &&& m = 1) (a0 : State) (a1 : CycleEnd) (a2 : ℕ) :
    State.except m (State.voltageClose a0 a1 a2).2 = State.except m a0 := by
  refine except_mono h ?_
  unfold State.voltageClose
  simp only [State.count_same, apply_ite (State.except 1), apply_ite Prod.snd, apply_ite Prod.fst, ite_self,
      Nat.reduceAnd, foldl_same, foldl_same2, foldl_same1]

theorem State.readback_same (m : Nat) (h : 1 &&& m = 1) (a0 : State) (a1 : ℕ) (a2 : ℕ) (a3 : ChanRec) :
    State.except m (State.readback a0 a1 a2 a3) = State.except m a0 := by
  refine except_mono h ?_
  unfold State.readback
  simp only [State.wr_same, apply_ite (State.except 1), apply_ite Prod.snd, apply_ite Prod.fst, ite_self,
      Nat.reduceAnd, foldl_same, foldl_same2, foldl_same1]

theorem State.store_same (m : Nat) (h : 34359738368 &&& m = 34359738368) (a0 : State) (a1 : ℕ) (a2 : List Byte) :
    State.except m (State.store a0 a1 a2) = State.except m a0 := by
  refine except_mono h ?_
  simp only [State.except, store_frame]
  rfl

theorem State.exportClose_same (m : Nat) (h : 34359738369 &&& m = 34359738369) (a0 : State) (a1 : ℕ) (a2 : List (ℕ ×
    ChanRec)) :
    State.except m (State.exportClose a0 a1 a2) = State.except m a0 := by
  refine except_mono h ?_
  unfold State.exportClose
  (try simp only [State.count_same, State.store_same, apply_ite (State.except 34359738369), apply_ite Prod.snd,
      apply_ite Prod.fst, ite_self, Nat.reduceAnd, foldl_same, foldl_same2, foldl_same1])
  repeat' split
  all_goals (try simp [State.count_same, State.store_same, apply_ite (State.except 34359738369), apply_ite Prod.snd,
      apply_ite Prod.fst, ite_self, Nat.reduceAnd, foldl_same, foldl_same2, foldl_same1])

theorem State.mteClose_same (m : Nat) (h : 34359771393 &&& m = 34359771393) (a0 : State) (a1 : CycleEnd) :
    State.except m (State.mteClose a0 a1).2 = State.except m a0 := by
  refine except_mono h ?_
  unfold State.mteClose
  (try simp only [State.channelClose_same, State.endUnmeas_same, State.voltageClose_same, State.readback_same,
      State.wr_same, State.raise_same, State.exportClose_same, apply_ite (State.except 34359771393), apply_ite
      Prod.snd, apply_ite Prod.fst, ite_self, Nat.reduceAnd, foldl_same, foldl_same2, foldl_same1])
  repeat' split
  all_goals (try simp [State.channelClose_same, State.endUnmeas_same, State.voltageClose_same, State.readback_same,
      State.wr_same, State.raise_same, State.exportClose_same, apply_ite (State.except 34359771393), apply_ite
      Prod.snd, apply_ite Prod.fst, ite_self, Nat.reduceAnd, foldl_same, foldl_same2, foldl_same1])

theorem State.unmeasured_same (m : Nat) (h : 33025 &&& m = 33025) (a0 : State) (a1 : CycleEnd) :
    State.except m (State.unmeasured a0 a1) = State.except m a0 := by
  refine except_mono h ?_
  unfold State.unmeasured
  simp only [State.count_same, State.raise_same, State.log_same, State.endUnmeas_same, except_upd_mte, apply_ite
      (State.except 33025), apply_ite Prod.snd, apply_ite Prod.fst, ite_self, Nat.reduceAnd, foldl_same, foldl_same2,
      foldl_same1]

theorem State.logFinals_same (m : Nat) (h : 256 &&& m = 256) (a0 : State) (a1 : ℕ) :
    State.except m (State.logFinals a0 a1) = State.except m a0 := by
  refine except_mono h ?_
  unfold State.logFinals
  (try simp only [State.log_same, apply_ite (State.except 256), apply_ite Prod.snd, apply_ite Prod.fst, ite_self,
      Nat.reduceAnd, foldl_same, foldl_same2, foldl_same1])
  repeat' split
  all_goals (try simp [State.log_same, apply_ite (State.except 256), apply_ite Prod.snd, apply_ite Prod.fst, ite_self,
      Nat.reduceAnd, foldl_same, foldl_same2, foldl_same1])

theorem State.clearMeter_same (m : Nat) (h : 65793 &&& m = 65793) (a0 : State) (a1 : ℕ) :
    State.except m (State.clearMeter a0 a1) = State.except m a0 := by
  refine except_mono h ?_
  unfold State.clearMeter
  (try simp only [State.logFinals_same, State.setAccWord_same, State.raise_same, State.wr_same, except_upd_acc,
      apply_ite (State.except 65793), apply_ite Prod.snd, apply_ite Prod.fst, ite_self, Nat.reduceAnd, foldl_same,
      foldl_same2, foldl_same1])
  repeat' split
  all_goals (try simp [State.logFinals_same, State.setAccWord_same, State.raise_same, State.wr_same, except_upd_acc,
      apply_ite (State.except 65793), apply_ite Prod.snd, apply_ite Prod.fst, ite_self, Nat.reduceAnd, foldl_same,
      foldl_same2, foldl_same1])

theorem State.showView_same (m : Nat) (h : 1 &&& m = 1) (a0 : State) (a1 : ℕ) :
    State.except m (State.showView a0 a1) = State.except m a0 := by
  refine except_mono h ?_
  unfold State.showView
  simp only [State.wr_same, apply_ite (State.except 1), apply_ite Prod.snd, apply_ite Prod.fst, ite_self,
      Nat.reduceAnd, foldl_same, foldl_same2, foldl_same1]

theorem State.checkViews_same (m : Nat) (h : 65537 &&& m = 65537) (a0 : State) :
    State.except m (State.checkViews a0) = State.except m a0 := by
  refine except_mono h ?_
  unfold State.checkViews
  (try simp only [State.raise_same, State.showView_same, except_upd_acc, apply_ite (State.except 65537), apply_ite
      Prod.snd, apply_ite Prod.fst, ite_self, Nat.reduceAnd, foldl_same, foldl_same2, foldl_same1])
  repeat' split
  all_goals (try simp [State.raise_same, State.showView_same, except_upd_acc, apply_ite (State.except 65537),
      apply_ite Prod.snd, apply_ite Prod.fst, ite_self, Nat.reduceAnd, foldl_same, foldl_same2, foldl_same1])

theorem State.setSpill_same (m : Nat) (h : 1 &&& m = 1) (a0 : State) (a1 : ℕ) (a2 : ℕ) :
    State.except m (State.setSpill a0 a1 a2) = State.except m a0 := by
  refine except_mono h ?_
  unfold State.setSpill
  simp only [State.wr64_same, State.wr_same, apply_ite (State.except 1), apply_ite Prod.snd, apply_ite Prod.fst,
      ite_self, Nat.reduceAnd, foldl_same, foldl_same2, foldl_same1]

theorem State.plsBoundary_same (m : Nat) (h : 257 &&& m = 257) (a0 : State) (a1 : List (ℕ × Word)) (a2 : ℕ) :
    State.except m (State.plsBoundary a0 a1 a2) = State.except m a0 := by
  refine except_mono h ?_
  unfold State.plsBoundary
  simp only [State.setSpill_same, State.log_same, apply_ite (State.except 257), apply_ite Prod.snd, apply_ite
      Prod.fst, ite_self, Nat.reduceAnd, foldl_same, foldl_same2, foldl_same1]

theorem State.accBoundary_same (m : Nat) (h : 65793 &&& m = 65793) (a0 : State) (a1 : List (ℕ × Word)) :
    State.except m (State.accBoundary a0 a1) = State.except m a0 := by
  refine except_mono h ?_
  unfold State.accBoundary
  (try simp only [State.clearMeter_same, State.plsBoundary_same, State.checkViews_same, apply_ite (State.except
      65793), apply_ite Prod.snd, apply_ite Prod.fst, ite_self, Nat.reduceAnd, foldl_same, foldl_same2, foldl_same1])
  repeat' split
  all_goals (try simp [State.clearMeter_same, State.plsBoundary_same, State.checkViews_same, apply_ite (State.except
      65793), apply_ite Prod.snd, apply_ite Prod.fst, ite_self, Nat.reduceAnd, foldl_same, foldl_same2, foldl_same1])

theorem State.setOverrun_same (m : Nat) (h : 1 &&& m = 1) (a0 : State) (a1 : ℕ) (a2 : Bool) :
    State.except m (State.setOverrun a0 a1 a2) = State.except m a0 := by
  refine except_mono h ?_
  unfold State.setOverrun
  simp only [State.wr_same, apply_ite (State.except 1), apply_ite Prod.snd, apply_ite Prod.fst, ite_self,
      Nat.reduceAnd, foldl_same, foldl_same2, foldl_same1]

theorem State.overrun_same (m : Nat) (h : 65793 &&& m = 65793) (a0 : State) (a1 : ℕ) (a2 : Bool) :
    State.except m (State.overrun a0 a1 a2) = State.except m a0 := by
  refine except_mono h ?_
  unfold State.overrun
  simp only [State.log_same, State.raise_same, State.setOverrun_same, State.count_same, except_upd_acc, apply_ite
      (State.except 65793), apply_ite Prod.snd, apply_ite Prod.fst, ite_self, Nat.reduceAnd, foldl_same, foldl_same2,
      foldl_same1]

theorem State.spillClose_same (m : Nat) (h : 65793 &&& m = 65793) (a0 : State) (a1 : ℕ) (a2 : ℕ) :
    State.except m (State.spillClose a0 a1 a2) = State.except m a0 := by
  refine except_mono h ?_
  unfold State.spillClose
  simp only [State.setSpill_same, State.overrun_same, State.wr_same, apply_ite (State.except 65793), apply_ite
      Prod.snd, apply_ite Prod.fst, ite_self, Nat.reduceAnd, foldl_same, foldl_same2, foldl_same1]

theorem State.pulseOff_same (m : Nat) (h : 65537 &&& m = 65537) (a0 : State) (a1 : ℕ) :
    State.except m (State.pulseOff a0 a1) = State.except m a0 := by
  refine except_mono h ?_
  unfold State.pulseOff
  simp only [State.wr_same, except_upd_acc, apply_ite (State.except 65537), apply_ite Prod.snd, apply_ite Prod.fst,
      ite_self, Nat.reduceAnd, foldl_same, foldl_same2, foldl_same1]

theorem State.cutPulses_same (m : Nat) (h : 65537 &&& m = 65537) (a0 : State) :
    State.except m (State.cutPulses a0) = State.except m a0 := by
  refine except_mono h ?_
  unfold State.cutPulses
  split
  · rfl
  · refine foldl_same _ _ (fun t x => ?_) _ _
    (repeat' split) <;> simp only [State.count_same, State.wr_same, except_upd_acc, apply_ite (State.except 65537),
        apply_ite Prod.snd, apply_ite Prod.fst, ite_self, Nat.reduceAnd, foldl_same, foldl_same2, foldl_same1]

theorem State.setPg_same (m : Nat) (h : 32 &&& m = 32) (a0 : State) (a1 : ℕ) (a2 : PageState → PageState) :
    State.except m (State.setPg a0 a1 a2) = State.except m a0 := by
  refine except_mono h ?_
  simp only [State.except, setPg_frame]
  rfl

theorem State.gateFrom_same (m : Nat) (h : 65569 &&& m = 65569) (a0 : State) (a1 : State) :
    State.except m (State.gateFrom a0 a1) = State.except m a0 := by
  refine except_mono h ?_
  unfold State.gateFrom
  (try simp only [State.cutPulses_same, State.setPg_same, apply_ite (State.except 65569), apply_ite Prod.snd,
      apply_ite Prod.fst, ite_self, Nat.reduceAnd, foldl_same, foldl_same2, foldl_same1])
  repeat' split
  all_goals (try simp [State.cutPulses_same, State.setPg_same, apply_ite (State.except 65569), apply_ite Prod.snd,
      apply_ite Prod.fst, ite_self, Nat.reduceAnd, foldl_same, foldl_same2, foldl_same1])

theorem State.plsPageReset_same (m : Nat) (h : 3 &&& m = 3) (a0 : State) (a1 : ℕ) :
    State.except m (State.plsPageReset a0 a1) = State.except m a0 := by
  refine except_mono h ?_
  unfold State.plsPageReset
  simp only [State.setOverrun_same, State.wr_same, State.setSpill_same, except_upd_inForce, apply_ite (State.except
      3), apply_ite Prod.snd, apply_ite Prod.fst, ite_self, Nat.reduceAnd, foldl_same, foldl_same2, foldl_same1]

theorem State.mendUpsets_same (m : Nat) (h : 32 &&& m = 32) (a0 : State) (a1 : ℕ) (a2 : ℕ) :
    State.except m (State.mendUpsets a0 a1 a2) = State.except m a0 := by
  refine except_mono h ?_
  unfold State.mendUpsets
  simp only [State.setPg_same, apply_ite (State.except 32), apply_ite Prod.snd, apply_ite Prod.fst, ite_self,
      Nat.reduceAnd, foldl_same, foldl_same2, foldl_same1]

theorem State.storeOne_same (m : Nat) (h : 33 &&& m = 33) (a0 : State) (a1 : ℕ) (a2 : ℕ) (a3 : ℕ) :
    State.except m (State.storeOne a0 a1 a2 a3) = State.except m a0 := by
  refine except_mono h ?_
  unfold State.storeOne
  simp only [State.mendUpsets_same, State.setReg_same, apply_ite (State.except 33), apply_ite Prod.snd, apply_ite
      Prod.fst, ite_self, Nat.reduceAnd, foldl_same, foldl_same2, foldl_same1]

theorem State.commitHeld_same (m : Nat) (h : 41 &&& m = 41) (a0 : State) (a1 : ℕ) (a2 : ℕ) (a3 : ℕ) :
    State.except m (State.commitHeld a0 a1 a2 a3) = State.except m a0 := by
  refine except_mono h ?_
  induction a3 generalizing a0 a2 with
  | zero => rfl
  | succ n ih =>
    unfold State.commitHeld
    (repeat' split) <;> simp only [ih, State.storeOne_same, except_upd_hold, apply_ite (State.except 41), apply_ite
        Prod.snd, apply_ite Prod.fst, ite_self, Nat.reduceAnd, foldl_same, foldl_same2, foldl_same1]

theorem State.storeWord_same (m : Nat) (h : 41 &&& m = 41) (a0 : State) (a1 : ℕ) (a2 : ℕ) (a3 : ℕ) :
    State.except m (State.storeWord a0 a1 a2 a3) = State.except m a0 := by
  refine except_mono h ?_
  unfold State.storeWord
  (try simp only [State.storeOne_same, State.commitHeld_same, apply_ite (State.except 41), apply_ite Prod.snd,
      apply_ite Prod.fst, ite_self, Nat.reduceAnd, foldl_same, foldl_same2, foldl_same1])
  repeat' split
  all_goals (try simp only [State.storeOne_same, State.commitHeld_same, apply_ite (State.except 41), apply_ite
      Prod.snd, apply_ite Prod.fst, ite_self, Nat.reduceAnd, foldl_same, foldl_same2, foldl_same1])

theorem State.termWrite_same (m : Nat) (h : 65833 &&& m = 65833) (a0 : State) (a1 : Req) (a2 : ℕ) (a3 : ℕ) (a4 : ℕ) :
    State.except m (State.termWrite a0 a1 a2 a3 a4).2 = State.except m a0 := by
  refine except_mono h ?_
  unfold State.termWrite
  simp only [State.storeWord_same, State.showView_same, State.log_same, except_upd_acc, apply_ite (State.except
      65833), apply_ite Prod.snd, apply_ite Prod.fst, ite_self, Nat.reduceAnd, foldl_same, foldl_same2, foldl_same1]

theorem plainWrite_same (m : Nat) (h : 41 &&& m = 41)  :
    ∀ (s : State) (q : Req) (d : Nat), State.except m (plainWrite s q d).2 = State.except m s := by
  intro s q d
  refine except_mono h ?_
  unfold plainWrite
  simp only [State.storeWord_same, apply_ite (State.except 41), apply_ite Prod.snd, apply_ite Prod.fst, ite_self,
      Nat.reduceAnd, foldl_same, foldl_same2, foldl_same1]

theorem accWrite_same (m : Nat) (h : 65833 &&& m = 65833)  :
    ∀ (s : State) (q : Req) (d : Nat), State.except m (accWrite s q d).2 = State.except m s := by
  intro s q d
  refine except_mono h ?_
  unfold accWrite
  simp only [plainWrite_same, State.termWrite_same, State.storeWord_same, State.wr_same, apply_ite (State.except
      65833), apply_ite Prod.snd, apply_ite Prod.fst, ite_self, Nat.reduceAnd, foldl_same, foldl_same2, foldl_same1]

theorem State.latchWords_same (m : Nat) (h : 4 &&& m = 4) (a0 : State) (a1 : ℕ) (a2 : ℕ) (a3 : ℕ) :
    State.except m (State.latchWords a0 a1 a2 a3) = State.except m a0 := by
  refine except_mono h ?_
  induction a3 generalizing a0 a2 with
  | zero => rfl
  | succ n ih =>
    unfold State.latchWords
    (repeat' split) <;> simp only [ih, except_upd_latch, apply_ite (State.except 4), apply_ite Prod.snd, apply_ite
        Prod.fst, ite_self, Nat.reduceAnd, foldl_same, foldl_same2, foldl_same1]

theorem State.clearOnRead_same (m : Nat) (h : 33 &&& m = 33) (a0 : State) (a1 : Req) (a2 : ℕ) :
    State.except m (State.clearOnRead a0 a1 a2) = State.except m a0 := by
  refine except_mono h ?_
  unfold State.clearOnRead
  simp only [State.setPg_same, State.setReg_same, apply_ite (State.except 33), apply_ite Prod.snd, apply_ite Prod.fst,
      ite_self, Nat.reduceAnd, foldl_same, foldl_same2, foldl_same1]

theorem plainRead_same (m : Nat) (h : 37 &&& m = 37)  :
    ∀ (s : State) (q : Req), State.except m (plainRead s q).2.2 = State.except m s := by
  intro s q
  refine except_mono h ?_
  unfold plainRead
  (try simp only [State.latchWords_same, State.clearOnRead_same, apply_ite (State.except 37), apply_ite Prod.snd,
      apply_ite Prod.fst, ite_self, Nat.reduceAnd, foldl_same, foldl_same2, foldl_same1])
  repeat' split
  all_goals (try simp only [State.latchWords_same, State.clearOnRead_same, apply_ite (State.except 37), apply_ite
      Prod.snd, apply_ite Prod.fst, ite_self, Nat.reduceAnd, foldl_same, foldl_same2, foldl_same1])

theorem State.latchBlock_same (m : Nat) (h : 20 &&& m = 20) (a0 : State) (a1 : ℕ) (a2 : ℕ) (a3 : ℕ) :
    State.except m (State.latchBlock a0 a1 a2 a3) = State.except m a0 := by
  refine except_mono h ?_
  unfold State.latchBlock
  simp only [State.latchWords_same, except_upd_latched, apply_ite (State.except 20), apply_ite Prod.snd, apply_ite
      Prod.fst, ite_self, Nat.reduceAnd, foldl_same, foldl_same2, foldl_same1]

theorem readBlock_same (m : Nat) (h : 53 &&& m = 53) (a0 : ℕ) (a1 : ℕ) (a2 : ℕ) :
    ∀ (s : State) (q : Req), State.except m (readBlock a0 a1 a2 s q).2.2 = State.except m s := by
  intro s q
  refine except_mono h ?_
  unfold readBlock
  simp only [State.latchBlock_same, plainRead_same, apply_ite (State.except 53), apply_ite Prod.snd, apply_ite
      Prod.fst, ite_self, Nat.reduceAnd, foldl_same, foldl_same2, foldl_same1]

theorem accRead_same (m : Nat) (h : 53 &&& m = 53)  :
    ∀ (s : State) (q : Req), State.except m (accRead s q).2.2 = State.except m s := by
  intro s q
  refine except_mono h ?_
  unfold accRead
  simp only [plainRead_same, readBlock_same, apply_ite (State.except 53), apply_ite Prod.snd, apply_ite Prod.fst,
      ite_self, Nat.reduceAnd, foldl_same, foldl_same2, foldl_same1]

theorem plsWrite_same (m : Nat) (h : 41 &&& m = 41)  :
    ∀ (s : State) (q : Req) (d : Nat), State.except m (plsWrite s q d).2 = State.except m s := by
  intro s q d
  refine except_mono h ?_
  unfold plsWrite
  (try simp only [State.wr_same, State.storeWord_same, plainWrite_same, apply_ite (State.except 41), apply_ite
      Prod.snd, apply_ite Prod.fst, ite_self, Nat.reduceAnd, foldl_same, foldl_same2, foldl_same1])
  repeat' split
  all_goals (try simp only [State.wr_same, State.storeWord_same, plainWrite_same, apply_ite (State.except 41),
      apply_ite Prod.snd, apply_ite Prod.fst, ite_self, Nat.reduceAnd, foldl_same, foldl_same2, foldl_same1])

theorem State.answerRead_same (m : Nat) (h : 512 &&& m = 512) (a0 : State) (a1 : ℕ) (a2 : ℕ) (a3 : Status) (a4 : ℕ) :
    State.except m (State.answerRead a0 a1 a2 a3 a4) = State.except m a0 := by
  refine except_mono h ?_
  simp only [State.except, answerRead_frame]
  rfl

theorem State.scrubPage_same (m : Nat) (h : 289 &&& m = 289) (a0 : State) (a1 : ℕ) :
    State.except m (State.scrubPage a0 a1) = State.except m a0 := by
  refine except_mono h ?_
  unfold State.scrubPage
  simp only [State.setPg_same, State.log_same, State.raise_same, State.wr_same, apply_ite (State.except 289),
      apply_ite Prod.snd, apply_ite Prod.fst, ite_self, Nat.reduceAnd, foldl_same, foldl_same2, foldl_same1]

theorem State.scrubFirst_same (m : Nat) (h : 289 &&& m = 289) (a0 : State) (a1 : ℕ) :
    State.except m (State.scrubFirst a0 a1) = State.except m a0 := by
  refine except_mono h ?_
  unfold State.scrubFirst
  simp only [State.scrubPage_same, apply_ite (State.except 289), apply_ite Prod.snd, apply_ite Prod.fst, ite_self,
      Nat.reduceAnd, foldl_same, foldl_same2, foldl_same1]

theorem State.lockFailed_same (m : Nat) (h : 288 &&& m = 288) (a0 : State) (a1 : ℕ) :
    State.except m (State.lockFailed a0 a1) = State.except m a0 := by
  refine except_mono h ?_
  unfold State.lockFailed
  simp only [State.setPg_same, State.log_same, apply_ite (State.except 288), apply_ite Prod.snd, apply_ite Prod.fst,
      ite_self, Nat.reduceAnd, foldl_same, foldl_same2, foldl_same1]

theorem State.capture_same (m : Nat) (h : 1 &&& m = 1) (a0 : State) (a1 : ℕ) (a2 : ℕ) (a3 : ℕ) (a4 : Bool) (a5 :
    Status) :
    State.except m (State.capture a0 a1 a2 a3 a4 a5) = State.except m a0 := by
  refine except_mono h ?_
  simp only [State.except, capture_frame]
  rfl

theorem State.stopped_same (m : Nat) (h : 289 &&& m = 289) (a0 : State) (a1 : Bool) (a2 : Access) (a3 : Route) (a4 :
    Status × ℕ) :
    State.except m (State.stopped a0 a1 a2 a3 a4) = State.except m a0 := by
  refine except_mono h ?_
  unfold State.stopped
  (try simp only [State.count_same, State.log_same, State.lockFailed_same, State.capture_same, apply_ite (State.except
      289), apply_ite Prod.snd, apply_ite Prod.fst, ite_self, Nat.reduceAnd, foldl_same, foldl_same2, foldl_same1])
  repeat' split
  all_goals (try simp only [State.count_same, State.log_same, State.lockFailed_same, State.capture_same, apply_ite
      (State.except 289), apply_ite Prod.snd, apply_ite Prod.fst, ite_self, Nat.reduceAnd, foldl_same, foldl_same2,
      foldl_same1])

theorem State.replay_same (m : Nat) (h : 0 &&& m = 0) (a0 : State) (a1 : Req) :
    State.except m (State.replay a0 a1).2.2 = State.except m a0 := by
  refine except_mono h ?_
  unfold State.replay
  (try simp only [apply_ite (State.except 0), apply_ite Prod.snd, apply_ite Prod.fst, ite_self, Nat.reduceAnd,
      foldl_same, foldl_same2, foldl_same1])
  repeat' split
  all_goals (try simp only [apply_ite (State.except 0), apply_ite Prod.snd, apply_ite Prod.fst, ite_self,
      Nat.reduceAnd, foldl_same, foldl_same2, foldl_same1])

theorem State.read_same (m : Nat) (h : 801 &&& m = 801) (a0 : State) (a1 : Reader) (a2 : Access) (hh : ∀ s q, (a1 s
    q).2.2.except m = s.except m) :
    State.except m (State.read a0 a1 a2) = State.except m a0 := by
  have k0 : 0 &&& m = 0 := sub_mask h rfl
  have k1 : 1 &&& m = 1 := sub_mask h rfl
  have k2 : 289 &&& m = 289 := sub_mask h rfl
  have k3 : 512 &&& m = 512 := sub_mask h rfl
  unfold State.read
  (try simp only [State.answerRead_same, State.scrubFirst_same, State.stopped_same, State.replay_same,
      State.capture_same, apply_ite (State.except m), apply_ite Prod.snd, apply_ite Prod.fst, ite_self, Nat.reduceAnd,
      foldl_same, foldl_same2, foldl_same1, k0, k1, k2, k3, hh])
  repeat' split
  all_goals (try simp only [State.answerRead_same, State.scrubFirst_same, State.stopped_same, State.replay_same,
      State.capture_same, apply_ite (State.except m), apply_ite Prod.snd, apply_ite Prod.fst, ite_self, Nat.reduceAnd,
      foldl_same, foldl_same2, foldl_same1, k0, k1, k2, k3, hh])

theorem State.readReg_same (m : Nat) (h : 801 &&& m = 801) (a0 : State) (a1 : Reader) (a2 : ℕ) (a3 : ℕ) (a4 : RegRead)
    (hh : ∀ s q, (a1 s q).2.2.except m = s.except m) :
    State.except m (State.readReg a0 a1 a2 a3 a4) = State.except m a0 := by
  have k0 : 801 &&& m = 801 := sub_mask h rfl
  unfold State.readReg
  (try simp only [State.read_same, apply_ite (State.except m), apply_ite Prod.snd, apply_ite Prod.fst, ite_self,
      Nat.reduceAnd, foldl_same, foldl_same2, foldl_same1, k0, hh])
  repeat' split
  all_goals (try simp [State.read_same, apply_ite (State.except m), apply_ite Prod.snd, apply_ite Prod.fst, ite_self,
      Nat.reduceAnd, foldl_same, foldl_same2, foldl_same1, k0, hh])

theorem State.answer_same (m : Nat) (h : 512 &&& m = 512) (a0 : State) (a1 : Status) :
    State.except m (State.answer a0 a1) = State.except m a0 := by
  refine except_mono h ?_
  simp only [State.except, answer_frame]
  rfl

theorem State.perform_same (m : Nat) (h : 8 &&& m = 8) (a0 : State) (a1 : Writer) (a2 : Req) (a3 : ℕ) (hh : ∀ s q d,
    (a1 s q d).2.except m = s.except m) :
    State.except m (State.perform a0 a1 a2 a3).2 = State.except m a0 := by
  have k0 : 8 &&& m = 8 := sub_mask h rfl
  unfold State.perform
  simp only [except_upd_hold, apply_ite (State.except m), apply_ite Prod.snd, apply_ite Prod.fst, ite_self,
      Nat.reduceAnd, foldl_same, foldl_same2, foldl_same1, k0, hh]

theorem State.write_same (m : Nat) (h : 809 &&& m = 809) (a0 : State) (a1 : Writer) (a2 : Access) (hh : ∀ s q d, (a1 s
    q d).2.except m = s.except m) :
    State.except m (State.write a0 a1 a2) = State.except m a0 := by
  have k0 : 1 &&& m = 1 := sub_mask h rfl
  have k1 : 8 &&& m = 8 := sub_mask h rfl
  have k2 : 289 &&& m = 289 := sub_mask h rfl
  have k3 : 512 &&& m = 512 := sub_mask h rfl
  unfold State.write
  (try simp only [State.answer_same, State.scrubFirst_same, State.stopped_same, State.perform_same,
      State.capture_same, apply_ite (State.except m), apply_ite Prod.snd, apply_ite Prod.fst, ite_self, Nat.reduceAnd,
      foldl_same, foldl_same2, foldl_same1, k0, k1, k2, k3, hh])
  repeat' split
  all_goals (try simp [State.answer_same, State.scrubFirst_same, State.stopped_same, State.perform_same,
      State.capture_same, apply_ite (State.except m), apply_ite Prod.snd, apply_ite Prod.fst, ite_self, Nat.reduceAnd,
      foldl_same, foldl_same2, foldl_same1, k0, k1, k2, k3, hh])

theorem State.writeReg_same (m : Nat) (h : 809 &&& m = 809) (a0 : State) (a1 : Writer) (a2 : ℕ) (a3 : ℕ) (a4 :
    RegWrite) (a5 : ℕ → ℕ) (hh : ∀ s q d, (a1 s q d).2.except m = s.except m) :
    State.except m (State.writeReg a0 a1 a2 a3 a4 a5) = State.except m a0 := by
  have k0 : 809 &&& m = 809 := sub_mask h rfl
  unfold State.writeReg
  (try simp only [State.write_same, apply_ite (State.except m), apply_ite Prod.snd, apply_ite Prod.fst, ite_self,
      Nat.reduceAnd, foldl_same, foldl_same2, foldl_same1, k0, hh])
  repeat' split
  all_goals (try simp [State.write_same, apply_ite (State.except m), apply_ite Prod.snd, apply_ite Prod.fst, ite_self,
      Nat.reduceAnd, foldl_same, foldl_same2, foldl_same1, k0, hh])

theorem State.leaveLocked_same (m : Nat) (h : 4097 &&& m = 4097) (a0 : State) (a1 : ℕ) :
    State.except m (State.leaveLocked a0 a1) = State.except m a0 := by
  refine except_mono h ?_
  unfold State.leaveLocked
  simp only [State.wr_same, except_upd_ctf, apply_ite (State.except 4097), apply_ite Prod.snd, apply_ite Prod.fst,
      ite_self, Nat.reduceAnd, foldl_same, foldl_same2, foldl_same1]

theorem State.freeze_same (m : Nat) (h : 1 &&& m = 1) (a0 : State) :
    State.except m (State.freeze a0) = State.except m a0 := by
  refine except_mono h ?_
  unfold State.freeze
  (try simp only [State.wr_same, apply_ite (State.except 1), apply_ite Prod.snd, apply_ite Prod.fst, ite_self,
      Nat.reduceAnd, foldl_same, foldl_same2, foldl_same1])
  repeat' split
  all_goals (try simp only [State.wr_same, apply_ite (State.except 1), apply_ite Prod.snd, apply_ite Prod.fst,
      ite_self, Nat.reduceAnd, foldl_same, foldl_same2, foldl_same1])

theorem State.enterLocked_same (m : Nat) (h : 4097 &&& m = 4097) (a0 : State) :
    State.except m (State.enterLocked a0) = State.except m a0 := by
  refine except_mono h ?_
  unfold State.enterLocked
  simp only [State.wr_same, except_upd_ctf, apply_ite (State.except 4097), apply_ite Prod.snd, apply_ite Prod.fst,
      ite_self, Nat.reduceAnd, foldl_same, foldl_same2, foldl_same1]

theorem State.switchTo_same (m : Nat) (h : 4353 &&& m = 4353) (a0 : State) (a1 : ℕ) (a2 : ℕ) :
    State.except m (State.switchTo a0 a1 a2) = State.except m a0 := by
  refine except_mono h ?_
  unfold State.switchTo
  simp only [State.log_same, State.raise_same, State.count_same, State.wr_same, except_upd_ctf, apply_ite
      (State.except 4353), apply_ite Prod.snd, apply_ite Prod.fst, ite_self, Nat.reduceAnd, foldl_same, foldl_same2,
      foldl_same1]

theorem State.enterHoldover_same (m : Nat) (h : 4353 &&& m = 4353) (a0 : State) :
    State.except m (State.enterHoldover a0) = State.except m a0 := by
  refine except_mono h ?_
  unfold State.enterHoldover
  simp only [State.freeze_same, State.wr_same, State.log_same, State.raise_same, State.count_same, except_upd_ctf,
      apply_ite (State.except 4353), apply_ite Prod.snd, apply_ite Prod.fst, ite_self, Nat.reduceAnd, foldl_same,
      foldl_same2, foldl_same1]

theorem State.flywheelLost_same (m : Nat) (h : 4353 &&& m = 4353) (a0 : State) :
    State.except m (State.flywheelLost a0) = State.except m a0 := by
  refine except_mono h ?_
  unfold State.flywheelLost
  (try simp only [State.enterLocked_same, State.switchTo_same, State.enterHoldover_same, apply_ite (State.except
      4353), apply_ite Prod.snd, apply_ite Prod.fst, ite_self, Nat.reduceAnd, foldl_same, foldl_same2, foldl_same1])
  repeat' split
  all_goals (try simp only [State.enterLocked_same, State.switchTo_same, State.enterHoldover_same, apply_ite
      (State.except 4353), apply_ite Prod.snd, apply_ite Prod.fst, ite_self, Nat.reduceAnd, foldl_same, foldl_same2,
      foldl_same1])

theorem State.enterFlywheel_same (m : Nat) (h : 4353 &&& m = 4353) (a0 : State) :
    State.except m (State.enterFlywheel a0) = State.except m a0 := by
  refine except_mono h ?_
  unfold State.enterFlywheel
  simp only [State.raise_same, State.leaveLocked_same, State.freeze_same, State.flywheelLost_same, apply_ite
      (State.except 4353), apply_ite Prod.snd, apply_ite Prod.fst, ite_self, Nat.reduceAnd, foldl_same, foldl_same2,
      foldl_same1]

theorem State.setCcx_same (m : Nat) (h : 2097152 &&& m = 2097152) (a0 : State) (a1 : CcxState → CcxState) :
    State.except m (State.setCcx a0 a1) = State.except m a0 := by
  refine except_mono h ?_
  simp only [State.except, setCcx_frame]
  rfl

theorem State.setHart_same (m : Nat) (h : 2097152 &&& m = 2097152) (a0 : State) (a1 : ℕ) (a2 : Hart → Hart) :
    State.except m (State.setHart a0 a1 a2) = State.except m a0 := by
  refine except_mono h ?_
  unfold State.setHart
  simp only [State.setCcx_same, apply_ite (State.except 2097152), apply_ite Prod.snd, apply_ite Prod.fst, ite_self,
      Nat.reduceAnd, foldl_same, foldl_same2, foldl_same1]

theorem State.coreFault_same (m : Nat) (h : 2097664 &&& m = 2097664) (a0 : State) (a1 : HartAccess) :
    State.except m (State.coreFault a0 a1) = State.except m a0 := by
  refine except_mono h ?_
  unfold State.coreFault
  simp only [State.setHart_same, except_upd_resp, apply_ite (State.except 2097664), apply_ite Prod.snd, apply_ite
      Prod.fst, ite_self, Nat.reduceAnd, foldl_same, foldl_same2, foldl_same1]

theorem State.coreDone_same (m : Nat) (h : 2097664 &&& m = 2097664) (a0 : State) (a1 : HartAccess) (a2 : Status) (a3 :
    List Byte) :
    State.except m (State.coreDone a0 a1 a2 a3) = State.except m a0 := by
  refine except_mono h ?_
  unfold State.coreDone
  simp only [State.setHart_same, except_upd_resp, apply_ite (State.except 2097664), apply_ite Prod.snd, apply_ite
      Prod.fst, ite_self, Nat.reduceAnd, foldl_same, foldl_same2, foldl_same1]

theorem State.eccNote_same (m : Nat) (h : 257 &&& m = 257) (a0 : State) (a1 : ℕ) (a2 : ℕ) (a3 : Bool) :
    State.except m (State.eccNote a0 a1 a2 a3) = State.except m a0 := by
  refine except_mono h ?_
  unfold State.eccNote
  simp only [State.count_same, State.raise_same, State.wr_same, State.log_same, apply_ite (State.except 257),
      apply_ite Prod.snd, apply_ite Prod.fst, ite_self, Nat.reduceAnd, foldl_same, foldl_same2, foldl_same1]

theorem State.eccCheck_same (m : Nat) (h : 257 &&& m = 257) (a0 : State) (a1 : HartAccess) (a2 : ℕ) (a3 : ℕ) :
    State.except m (State.eccCheck a0 a1 a2 a3).2 = State.except m a0 := by
  refine except_mono h ?_
  unfold State.eccCheck
  (try simp only [State.eccNote_same, apply_ite (State.except 257), apply_ite Prod.snd, apply_ite Prod.fst, ite_self,
      Nat.reduceAnd, foldl_same, foldl_same2, foldl_same1])
  repeat' split
  all_goals (try simp only [State.eccNote_same, apply_ite (State.except 257), apply_ite Prod.snd, apply_ite Prod.fst,
      ite_self, Nat.reduceAnd, foldl_same, foldl_same2, foldl_same1])

theorem State.hartDenied_same (m : Nat) (h : 2097921 &&& m = 2097921) (a0 : State) (a1 : HartAccess) (a2 : ℕ × ℕ) :
    State.except m (State.hartDenied a0 a1 a2) = State.except m a0 := by
  refine except_mono h ?_
  unfold State.hartDenied
  simp only [State.raise_same, State.wr_same, State.count_same, State.coreFault_same, State.log_same, apply_ite
      (State.except 2097921), apply_ite Prod.snd, apply_ite Prod.fst, ite_self, Nat.reduceAnd, foldl_same,
      foldl_same2, foldl_same1]

theorem State.fillBlock_same (m : Nat) (h : 2097152 &&& m = 2097152) (a0 : State) (a1 : ℕ) :
    State.except m (State.fillBlock a0 a1) = State.except m a0 := by
  refine except_mono h ?_
  unfold State.fillBlock
  (try simp only [State.setCcx_same, apply_ite (State.except 2097152), apply_ite Prod.snd, apply_ite Prod.fst,
      ite_self, Nat.reduceAnd, foldl_same, foldl_same2, foldl_same1])
  repeat' split
  all_goals (try simp only [State.setCcx_same, apply_ite (State.except 2097152), apply_ite Prod.snd, apply_ite
      Prod.fst, ite_self, Nat.reduceAnd, foldl_same, foldl_same2, foldl_same1])

theorem State.storeCached_same (m : Nat) (h : 2097152 &&& m = 2097152) (a0 : State) (a1 : ℕ) (a2 : List Byte) :
    State.except m (State.storeCached a0 a1 a2) = State.except m a0 := by
  refine except_mono h ?_
  induction a2 generalizing a0 a1 with
  | nil => rfl
  | cons v l ih =>
    unfold State.storeCached
    (repeat' split) <;> simp only [ih, State.setCcx_same, apply_ite (State.except 2097152), apply_ite Prod.snd,
        apply_ite Prod.fst, ite_self, Nat.reduceAnd, foldl_same, foldl_same2, foldl_same1]

theorem State.cleanBlock_same (m : Nat) (h : 34361835520 &&& m = 34361835520) (a0 : State) (a1 : ℕ) :
    State.except m (State.cleanBlock a0 a1) = State.except m a0 := by
  refine except_mono h ?_
  unfold State.cleanBlock
  (try simp only [State.setCcx_same, State.store_same, apply_ite (State.except 34361835520), apply_ite Prod.snd,
      apply_ite Prod.fst, ite_self, Nat.reduceAnd, foldl_same, foldl_same2, foldl_same1])
  repeat' split
  all_goals (try simp only [State.setCcx_same, State.store_same, apply_ite (State.except 34361835520), apply_ite
      Prod.snd, apply_ite Prod.fst, ite_self, Nat.reduceAnd, foldl_same, foldl_same2, foldl_same1])

theorem State.dropBlock_same (m : Nat) (h : 2097152 &&& m = 2097152) (a0 : State) (a1 : ℕ) :
    State.except m (State.dropBlock a0 a1) = State.except m a0 := by
  refine except_mono h ?_
  unfold State.dropBlock
  simp only [State.setCcx_same, apply_ite (State.except 2097152), apply_ite Prod.snd, apply_ite Prod.fst, ite_self,
      Nat.reduceAnd, foldl_same, foldl_same2, foldl_same1]

theorem State.ddrAccess_same (m : Nat) (h : 34361836032 &&& m = 34361836032) (a0 : State) (a1 : HartAccess) (a2 : ℕ ×
    ℕ) :
    State.except m (State.ddrAccess a0 a1 a2) = State.except m a0 := by
  refine except_mono h ?_
  unfold State.ddrAccess
  (try simp only [State.coreDone_same, State.storeCached_same, State.fillBlock_same, State.cleanBlock_same,
      State.dropBlock_same, apply_ite (State.except 34361836032), apply_ite Prod.snd, apply_ite Prod.fst, ite_self,
      Nat.reduceAnd, foldl_same, foldl_same2, foldl_same1])
  repeat' split
  all_goals (try simp [State.coreDone_same, State.storeCached_same, State.fillBlock_same, State.cleanBlock_same,
      State.dropBlock_same, apply_ite (State.except 34361836032), apply_ite Prod.snd, apply_ite Prod.fst, ite_self,
      Nat.reduceAnd, foldl_same, foldl_same2, foldl_same1])

theorem State.timerPut_same (m : Nat) (h : 2097152 &&& m = 2097152) (a0 : State) (a1 : ℕ) (a2 : ℕ) :
    State.except m (State.timerPut a0 a1 a2) = State.except m a0 := by
  refine except_mono h ?_
  unfold State.timerPut
  simp only [State.setCcx_same, apply_ite (State.except 2097152), apply_ite Prod.snd, apply_ite Prod.fst, ite_self,
      Nat.reduceAnd, foldl_same, foldl_same2, foldl_same1]

theorem State.plicClaim_same (m : Nat) (h : 2097153 &&& m = 2097153) (a0 : State) (a1 : ℕ) :
    State.except m (State.plicClaim a0 a1).2 = State.except m a0 := by
  refine except_mono h ?_
  unfold State.plicClaim
  simp only [State.setCcx_same, State.wr_same, apply_ite (State.except 2097153), apply_ite Prod.snd, apply_ite
      Prod.fst, ite_self, Nat.reduceAnd, foldl_same, foldl_same2, foldl_same1]

theorem State.plicRead_same (m : Nat) (h : 2097153 &&& m = 2097153) (a0 : State) (a1 : ℕ) :
    State.except m (State.plicRead a0 a1).2 = State.except m a0 := by
  refine except_mono h ?_
  unfold State.plicRead
  simp only [State.plicClaim_same, apply_ite (State.except 2097153), apply_ite Prod.snd, apply_ite Prod.fst, ite_self,
      Nat.reduceAnd, foldl_same, foldl_same2, foldl_same1]

theorem State.plicWrite_same (m : Nat) (h : 2097152 &&& m = 2097152) (a0 : State) (a1 : ℕ) (a2 : ℕ) :
    State.except m (State.plicWrite a0 a1 a2) = State.except m a0 := by
  refine except_mono h ?_
  unfold State.plicWrite
  simp only [State.setCcx_same, apply_ite (State.except 2097152), apply_ite Prod.snd, apply_ite Prod.fst, ite_self,
      Nat.reduceAnd, foldl_same, foldl_same2, foldl_same1]

theorem State.deviceAccess_same (m : Nat) (h : 2097665 &&& m = 2097665) (a0 : State) (a1 : HartAccess) (a2 : ℕ × ℕ)
    (a3 : Bool) :
    State.except m (State.deviceAccess a0 a1 a2 a3) = State.except m a0 := by
  refine except_mono h ?_
  unfold State.deviceAccess
  (try simp only [State.coreFault_same, State.coreDone_same, State.plicRead_same, State.timerPut_same,
      State.plicWrite_same, apply_ite (State.except 2097665), apply_ite Prod.snd, apply_ite Prod.fst, ite_self,
      Nat.reduceAnd, foldl_same, foldl_same2, foldl_same1])
  repeat' split
  all_goals (try simp only [State.coreFault_same, State.coreDone_same, State.plicRead_same, State.timerPut_same,
      State.plicWrite_same, apply_ite (State.except 2097665), apply_ite Prod.snd, apply_ite Prod.fst, ite_self,
      Nat.reduceAnd, foldl_same, foldl_same2, foldl_same1])

theorem State.setRstat_same (m : Nat) (h : 2097152 &&& m = 2097152) (a0 : State) (a1 : ℕ) (a2 : Status) (a3 : ℕ) :
    State.except m (State.setRstat a0 a1 a2 a3) = State.except m a0 := by
  refine except_mono h ?_
  unfold State.setRstat
  simp only [State.setHart_same, apply_ite (State.except 2097152), apply_ite Prod.snd, apply_ite Prod.fst, ite_self,
      Nat.reduceAnd, foldl_same, foldl_same2, foldl_same1]

theorem State.draw_same (m : Nat) (h : 2048 &&& m = 2048) (a0 : State) (a1 : ℕ) :
    State.except m (State.draw a0 a1).2 = State.except m a0 := by
  refine except_mono h ?_
  simp only [State.except, draw_frame]
  rfl

theorem State.lockRead_same (m : Nat) (h : 2080 &&& m = 2080) (a0 : State) (a1 : Req) :
    State.except m (State.lockRead a0 a1).2.2 = State.except m a0 := by
  refine except_mono h ?_
  unfold State.lockRead
  simp only [State.draw_same, State.setPg_same, apply_ite (State.except 2080), apply_ite Prod.snd, apply_ite Prod.fst,
      ite_self, Nat.reduceAnd, foldl_same, foldl_same2, foldl_same1]

theorem headRead_same (m : Nat) (h : 2085 &&& m = 2085)  :
    ∀ (s : State) (q : Req), State.except m (headRead s q).2.2 = State.except m s := by
  intro s q
  refine except_mono h ?_
  unfold headRead
  (try simp only [State.lockRead_same, plainRead_same, apply_ite (State.except 2085), apply_ite Prod.snd, apply_ite
      Prod.fst, ite_self, Nat.reduceAnd, foldl_same, foldl_same2, foldl_same1])
  repeat' split
  all_goals (try simp only [State.lockRead_same, plainRead_same, apply_ite (State.except 2085), apply_ite Prod.snd,
      apply_ite Prod.fst, ite_self, Nat.reduceAnd, foldl_same, foldl_same2, foldl_same1])

theorem sysRead_same (m : Nat) (h : 37 &&& m = 37)  :
    ∀ (s : State) (q : Req), State.except m (sysRead s q).2.2 = State.except m s := by
  intro s q
  refine except_mono h ?_
  unfold sysRead
  simp only [plainRead_same, apply_ite (State.except 37), apply_ite Prod.snd, apply_ite Prod.fst, ite_self,
      Nat.reduceAnd, foldl_same, foldl_same2, foldl_same1]

theorem iagRead_same (m : Nat) (h : 37 &&& m = 37)  :
    ∀ (s : State) (q : Req), State.except m (iagRead s q).2.2 = State.except m s := by
  intro s q
  refine except_mono h ?_
  unfold iagRead
  simp only [plainRead_same, except_upd_latch, apply_ite (State.except 37), apply_ite Prod.snd, apply_ite Prod.fst,
      ite_self, Nat.reduceAnd, foldl_same, foldl_same2, foldl_same1]

theorem tncRead_same (m : Nat) (h : 37 &&& m = 37)  :
    ∀ (s : State) (q : Req), State.except m (tncRead s q).2.2 = State.except m s := by
  intro s q
  refine except_mono h ?_
  unfold tncRead
  simp only [plainRead_same, apply_ite (State.except 37), apply_ite Prod.snd, apply_ite Prod.fst, ite_self,
      Nat.reduceAnd, foldl_same, foldl_same2, foldl_same1]

theorem ctfRead_same (m : Nat) (h : 4133 &&& m = 4133)  :
    ∀ (s : State) (q : Req), State.except m (ctfRead s q).2.2 = State.except m s := by
  intro s q
  refine except_mono h ?_
  unfold ctfRead
  (try simp only [plainRead_same, except_upd_ctf, except_upd_latch, apply_ite (State.except 4133), apply_ite Prod.snd,
      apply_ite Prod.fst, ite_self, Nat.reduceAnd, foldl_same, foldl_same2, foldl_same1])
  repeat' split
  all_goals (try simp only [plainRead_same, except_upd_ctf, except_upd_latch, apply_ite (State.except 4133), apply_ite
      Prod.snd, apply_ite Prod.fst, ite_self, Nat.reduceAnd, foldl_same, foldl_same2, foldl_same1])

theorem mteRead_same (m : Nat) (h : 53 &&& m = 53)  :
    ∀ (s : State) (q : Req), State.except m (mteRead s q).2.2 = State.except m s := by
  intro s q
  refine except_mono h ?_
  unfold mteRead
  simp only [plainRead_same, readBlock_same, apply_ite (State.except 53), apply_ite Prod.snd, apply_ite Prod.fst,
      ite_self, Nat.reduceAnd, foldl_same, foldl_same2, foldl_same1]

theorem pqeRead_same (m : Nat) (h : 53 &&& m = 53)  :
    ∀ (s : State) (q : Req), State.except m (pqeRead s q).2.2 = State.except m s := by
  intro s q
  refine except_mono h ?_
  unfold pqeRead
  (try simp only [State.setReg_same, plainRead_same, except_upd_latched, apply_ite (State.except 53), apply_ite
      Prod.snd, apply_ite Prod.fst, ite_self, Nat.reduceAnd, foldl_same, foldl_same2, foldl_same1])
  repeat' split
  all_goals (try simp [State.setReg_same, plainRead_same, except_upd_latched, apply_ite (State.except 53), apply_ite
      Prod.snd, apply_ite Prod.fst, ite_self, Nat.reduceAnd, foldl_same, foldl_same2, foldl_same1])

theorem tunRead_same (m : Nat) (h : 37 &&& m = 37)  :
    ∀ (s : State) (q : Req), State.except m (tunRead s q).2.2 = State.except m s := by
  intro s q
  refine except_mono h ?_
  unfold tunRead
  (try simp only [plainRead_same, apply_ite (State.except 37), apply_ite Prod.snd, apply_ite Prod.fst, ite_self,
      Nat.reduceAnd, foldl_same, foldl_same2, foldl_same1])
  repeat' split
  all_goals (try simp only [plainRead_same, apply_ite (State.except 37), apply_ite Prod.snd, apply_ite Prod.fst,
      ite_self, Nat.reduceAnd, foldl_same, foldl_same2, foldl_same1])

theorem ltrRead_same (m : Nat) (h : 37 &&& m = 37)  :
    ∀ (s : State) (q : Req), State.except m (ltrRead s q).2.2 = State.except m s := by
  intro s q
  refine except_mono h ?_
  unfold ltrRead
  simp only [plainRead_same, apply_ite (State.except 37), apply_ite Prod.snd, apply_ite Prod.fst, ite_self,
      Nat.reduceAnd, foldl_same, foldl_same2, foldl_same1]

theorem barmRead_same (m : Nat) (h : 37 &&& m = 37)  :
    ∀ (s : State) (q : Req), State.except m (barmRead s q).2.2 = State.except m s := by
  intro s q
  refine except_mono h ?_
  unfold barmRead
  simp only [plainRead_same, apply_ite (State.except 37), apply_ite Prod.snd, apply_ite Prod.fst, ite_self,
      Nat.reduceAnd, foldl_same, foldl_same2, foldl_same1]

theorem State.latchMap_same (m : Nat) (h : 1 &&& m = 1) (a0 : State) :
    State.except m (State.latchMap a0) = State.except m a0 := by
  refine except_mono h ?_
  unfold State.latchMap
  (try simp only [State.wr_same, State.setReg_same, apply_ite (State.except 1), apply_ite Prod.snd, apply_ite
      Prod.fst, ite_self, Nat.reduceAnd, foldl_same, foldl_same2, foldl_same1])
  repeat' split
  all_goals (try simp [State.wr_same, State.setReg_same, apply_ite (State.except 1), apply_ite Prod.snd, apply_ite
      Prod.fst, ite_self, Nat.reduceAnd, foldl_same, foldl_same2, foldl_same1])

theorem State.pltShow_same (m : Nat) (h : 1 &&& m = 1) (a0 : State) :
    State.except m (State.pltShow a0) = State.except m a0 := by
  refine except_mono h ?_
  unfold State.pltShow
  simp only [State.wr_same, apply_ite (State.except 1), apply_ite Prod.snd, apply_ite Prod.fst, ite_self,
      Nat.reduceAnd, foldl_same, foldl_same2, foldl_same1]

theorem pltRead_same (m : Nat) (h : 37 &&& m = 37)  :
    ∀ (s : State) (q : Req), State.except m (pltRead s q).2.2 = State.except m s := by
  intro s q
  refine except_mono h ?_
  unfold pltRead
  simp only [plainRead_same, State.latchMap_same, State.pltShow_same, apply_ite (State.except 37), apply_ite Prod.snd,
      apply_ite Prod.fst, ite_self, Nat.reduceAnd, foldl_same, foldl_same2, foldl_same1]

theorem plmRead_same (m : Nat) (h : 37 &&& m = 37)  :
    ∀ (s : State) (q : Req), State.except m (plmRead s q).2.2 = State.except m s := by
  intro s q
  refine except_mono h ?_
  unfold plmRead
  simp only [State.wr_same, plainRead_same, apply_ite (State.except 37), apply_ite Prod.snd, apply_ite Prod.fst,
      ite_self, Nat.reduceAnd, foldl_same, foldl_same2, foldl_same1]

theorem State.latchReport_same (m : Nat) (h : 1 &&& m = 1) (a0 : State) :
    State.except m (State.latchReport a0) = State.except m a0 := by
  refine except_mono h ?_
  unfold State.latchReport
  (try simp only [State.wr_same, apply_ite (State.except 1), apply_ite Prod.snd, apply_ite Prod.fst, ite_self,
      Nat.reduceAnd, foldl_same, foldl_same2, foldl_same1])
  repeat' split
  all_goals (try simp [State.wr_same, apply_ite (State.except 1), apply_ite Prod.snd, apply_ite Prod.fst, ite_self,
      Nat.reduceAnd, foldl_same, foldl_same2, foldl_same1])

theorem swcRead_same (m : Nat) (h : 37 &&& m = 37)  :
    ∀ (s : State) (q : Req), State.except m (swcRead s q).2.2 = State.except m s := by
  intro s q
  refine except_mono h ?_
  unfold swcRead
  (try simp only [plainRead_same, State.latchWords_same, State.latchReport_same, apply_ite (State.except 37),
      apply_ite Prod.snd, apply_ite Prod.fst, ite_self, Nat.reduceAnd, foldl_same, foldl_same2, foldl_same1])
  repeat' split
  all_goals (try simp only [plainRead_same, State.latchWords_same, State.latchReport_same, apply_ite (State.except
      37), apply_ite Prod.snd, apply_ite Prod.fst, ite_self, Nat.reduceAnd, foldl_same, foldl_same2, foldl_same1])

theorem State.setCel_same (m : Nat) (h : 4194304 &&& m = 4194304) (a0 : State) (a1 : CelState → CelState) :
    State.except m (State.setCel a0 a1) = State.except m a0 := by
  refine except_mono h ?_
  simp only [State.except, setCel_frame]
  rfl

theorem State.celPutRaw_same (m : Nat) (h : 4194304 &&& m = 4194304) (a0 : State) (a1 : ℕ) (a2 : BitVec 72) :
    State.except m (State.celPutRaw a0 a1 a2) = State.except m a0 := by
  refine except_mono h ?_
  unfold State.celPutRaw
  simp only [State.setCel_same, apply_ite (State.except 4194304), apply_ite Prod.snd, apply_ite Prod.fst, ite_self,
      Nat.reduceAnd, foldl_same, foldl_same2, foldl_same1]

theorem State.celBad_same (m : Nat) (h : 4194305 &&& m = 4194305) (a0 : State) (a1 : List ℕ) :
    State.except m (State.celBad a0 a1) = State.except m a0 := by
  refine except_mono h ?_
  unfold State.celBad
  simp only [State.wr_same, State.setCel_same, apply_ite (State.except 4194305), apply_ite Prod.snd, apply_ite
      Prod.fst, ite_self, Nat.reduceAnd, foldl_same, foldl_same2, foldl_same1]

theorem State.celFound_same (m : Nat) (h : 4194561 &&& m = 4194561) (a0 : State) (a1 : ℕ) :
    State.except m (State.celFound a0 a1) = State.except m a0 := by
  refine except_mono h ?_
  unfold State.celFound
  simp only [State.log_same, State.raise_same, State.count_same, State.wr_same, State.celBad_same, apply_ite
      (State.except 4194561), apply_ite Prod.snd, apply_ite Prod.fst, ite_self, Nat.reduceAnd, foldl_same,
      foldl_same2, foldl_same1]

theorem State.celRead_same (m : Nat) (h : 4194561 &&& m = 4194561) (a0 : State) (a1 : ℕ) :
    State.except m (State.celRead a0 a1).2.2 = State.except m a0 := by
  refine except_mono h ?_
  unfold State.celRead
  (try simp only [State.count_same, State.celPutRaw_same, State.celFound_same, apply_ite (State.except 4194561),
      apply_ite Prod.snd, apply_ite Prod.fst, ite_self, Nat.reduceAnd, foldl_same, foldl_same2, foldl_same1])
  repeat' split
  all_goals (try simp only [State.count_same, State.celPutRaw_same, State.celFound_same, apply_ite (State.except
      4194561), apply_ite Prod.snd, apply_ite Prod.fst, ite_self, Nat.reduceAnd, foldl_same, foldl_same2,
      foldl_same1])

theorem State.celReadRun_same (m : Nat) (h : 4194561 &&& m = 4194561) (a0 : State) (a1 : ℕ) (a2 : ℕ) :
    State.except m (State.celReadRun a0 a1 a2).2.2 = State.except m a0 := by
  refine except_mono h ?_
  induction a2 generalizing a0 a1 with
  | zero => rfl
  | succ n ih =>
    have k := State.celRead_same 4194561 rfl a0 a1
    unfold State.celReadRun
    split <;> rename_i e <;> rw [e] at k
    · exact k
    · exact (ih _ _).trans k

theorem State.slotBytes_same (m : Nat) (h : 4194561 &&& m = 4194561) (a0 : State) (a1 : ℕ) (a2 : ℕ) :
    State.except m (State.slotBytes a0 a1 a2).2 = State.except m a0 := by
  refine except_mono h ?_
  unfold State.slotBytes
  simp only [State.celReadRun_same, apply_ite (State.except 4194561), apply_ite Prod.snd, apply_ite Prod.fst,
      ite_self, Nat.reduceAnd, foldl_same, foldl_same2, foldl_same1]

theorem State.readSelected_same (m : Nat) (h : 4194561 &&& m = 4194561) (a0 : State) (a1 : ℕ) (a2 : Option ℕ) :
    State.except m (State.readSelected a0 a1 a2).2.2 = State.except m a0 := by
  refine except_mono h ?_
  unfold State.readSelected
  (try simp only [State.slotBytes_same, apply_ite (State.except 4194561), apply_ite Prod.snd, apply_ite Prod.fst,
      ite_self, Nat.reduceAnd, foldl_same, foldl_same2, foldl_same1])
  repeat' split
  all_goals (try simp only [State.slotBytes_same, apply_ite (State.except 4194561), apply_ite Prod.snd, apply_ite
      Prod.fst, ite_self, Nat.reduceAnd, foldl_same, foldl_same2, foldl_same1])

theorem clgRead_same (m : Nat) (h : 4194597 &&& m = 4194597)  :
    ∀ (s : State) (q : Req), State.except m (clgRead s q).2.2 = State.except m s := by
  intro s q
  refine except_mono h ?_
  unfold clgRead
  (try simp only [State.readSelected_same, State.wr_same, plainRead_same, apply_ite (State.except 4194597), apply_ite
      Prod.snd, apply_ite Prod.fst, ite_self, Nat.reduceAnd, foldl_same, foldl_same2, foldl_same1])
  repeat' split
  all_goals (try simp [State.readSelected_same, State.wr_same, plainRead_same, apply_ite (State.except 4194597),
      apply_ite Prod.snd, apply_ite Prod.fst, ite_self, Nat.reduceAnd, foldl_same, foldl_same2, foldl_same1])

theorem State.setBga_same (m : Nat) (h : 1073741824 &&& m = 1073741824) (a0 : State) (a1 : BgaState → BgaState) :
    State.except m (State.setBga a0 a1) = State.except m a0 := by
  refine except_mono h ?_
  simp only [State.except, setBga_frame]
  rfl

theorem State.takeSnapshot_same (m : Nat) (h : 1073741825 &&& m = 1073741825) (a0 : State) :
    State.except m (State.takeSnapshot a0) = State.except m a0 := by
  refine except_mono h ?_
  unfold State.takeSnapshot
  (try simp only [State.setBga_same, State.wr_same, apply_ite (State.except 1073741825), apply_ite Prod.snd, apply_ite
      Prod.fst, ite_self, Nat.reduceAnd, foldl_same, foldl_same2, foldl_same1])
  repeat' split
  all_goals (try simp [State.setBga_same, State.wr_same, apply_ite (State.except 1073741825), apply_ite Prod.snd,
      apply_ite Prod.fst, ite_self, Nat.reduceAnd, foldl_same, foldl_same2, foldl_same1])

theorem bgaRead_same (m : Nat) (h : 1073741861 &&& m = 1073741861)  :
    ∀ (s : State) (q : Req), State.except m (bgaRead s q).2.2 = State.except m s := by
  intro s q
  refine except_mono h ?_
  unfold bgaRead
  simp only [plainRead_same, State.takeSnapshot_same, apply_ite (State.except 1073741861), apply_ite Prod.snd,
      apply_ite Prod.fst, ite_self, Nat.reduceAnd, foldl_same, foldl_same2, foldl_same1]

theorem State.uartShow_same (m : Nat) (h : 1 &&& m = 1) (a0 : State) (a1 : ℕ) :
    State.except m (State.uartShow a0 a1) = State.except m a0 := by
  refine except_mono h ?_
  unfold State.uartShow
  simp only [State.wr_same, apply_ite (State.except 1), apply_ite Prod.snd, apply_ite Prod.fst, ite_self,
      Nat.reduceAnd, foldl_same, foldl_same2, foldl_same1]

theorem State.setHif_same (m : Nat) (h : 17179869184 &&& m = 17179869184) (a0 : State) (a1 : HifState → HifState) :
    State.except m (State.setHif a0 a1) = State.except m a0 := by
  refine except_mono h ?_
  simp only [State.except, setHif_frame]
  rfl

theorem State.setUart_same (m : Nat) (h : 17179869185 &&& m = 17179869185) (a0 : State) (a1 : ℕ) (a2 : Uart → Uart) :
    State.except m (State.setUart a0 a1 a2) = State.except m a0 := by
  refine except_mono h ?_
  unfold State.setUart
  simp only [State.uartShow_same, State.setHif_same, apply_ite (State.except 17179869185), apply_ite Prod.snd,
      apply_ite Prod.fst, ite_self, Nat.reduceAnd, foldl_same, foldl_same2, foldl_same1]

theorem uartRead_same (m : Nat) (h : 17179869221 &&& m = 17179869221)  :
    ∀ (s : State) (q : Req), State.except m (uartRead s q).2.2 = State.except m s := by
  intro s q
  refine except_mono h ?_
  unfold uartRead
  simp only [plainRead_same, State.setUart_same, apply_ite (State.except 17179869221), apply_ite Prod.snd, apply_ite
      Prod.fst, ite_self, Nat.reduceAnd, foldl_same, foldl_same2, foldl_same1]

theorem bodyRead_same (m : Nat) (h : 18257809717 &&& m = 18257809717)  :
    ∀ (s : State) (q : Req), State.except m (bodyRead s q).2.2 = State.except m s := by
  intro s q
  refine except_mono h ?_
  unfold bodyRead
  simp only [sysRead_same, iagRead_same, tncRead_same, ctfRead_same, plainRead_same, mteRead_same, accRead_same,
      pqeRead_same, tunRead_same, ltrRead_same, barmRead_same, pltRead_same, plmRead_same, swcRead_same, clgRead_same,
      bgaRead_same, uartRead_same, apply_ite (State.except 18257809717), apply_ite Prod.snd, apply_ite Prod.fst,
      ite_self, Nat.reduceAnd, foldl_same, foldl_same2, foldl_same1]

theorem anyRead_same (m : Nat) (h : 18257811765 &&& m = 18257811765)  :
    ∀ (s : State) (q : Req), State.except m (anyRead s q).2.2 = State.except m s := by
  intro s q
  refine except_mono h ?_
  unfold anyRead
  simp only [headRead_same, bodyRead_same, apply_ite (State.except 18257811765), apply_ite Prod.snd, apply_ite
      Prod.fst, ite_self, Nat.reduceAnd, foldl_same, foldl_same2, foldl_same1]

theorem State.viewRemoved_same (m : Nat) (h : 256 &&& m = 256) (a0 : State) (a1 : ℕ) (a2 : ℕ) (a3 : ℕ) :
    State.except m (State.viewRemoved a0 a1 a2 a3) = State.except m a0 := by
  refine except_mono h ?_
  unfold State.viewRemoved
  (try simp only [State.log_same, apply_ite (State.except 256), apply_ite Prod.snd, apply_ite Prod.fst, ite_self,
      Nat.reduceAnd, foldl_same, foldl_same2, foldl_same1])
  repeat' split
  all_goals (try simp [State.log_same, apply_ite (State.except 256), apply_ite Prod.snd, apply_ite Prod.fst, ite_self,
      Nat.reduceAnd, foldl_same, foldl_same2, foldl_same1])

theorem State.viewsReset_same (m : Nat) (h : 256 &&& m = 256) (a0 : State) (a1 : State) :
    State.except m (State.viewsReset a0 a1) = State.except m a0 := by
  refine except_mono h ?_
  unfold State.viewsReset
  (try simp only [State.viewRemoved_same, apply_ite (State.except 256), apply_ite Prod.snd, apply_ite Prod.fst,
      ite_self, Nat.reduceAnd, foldl_same, foldl_same2, foldl_same1])
  repeat' split
  all_goals (try simp [State.viewRemoved_same, apply_ite (State.except 256), apply_ite Prod.snd, apply_ite Prod.fst,
      ite_self, Nat.reduceAnd, foldl_same, foldl_same2, foldl_same1])

theorem State.setTnc_same (m : Nat) (h : 8192 &&& m = 8192) (a0 : State) (a1 : TncState → TncState) :
    State.except m (State.setTnc a0 a1) = State.except m a0 := by
  refine except_mono h ?_
  simp only [State.except, setTnc_frame]
  rfl

theorem State.calDisturb_same (m : Nat) (h : 16384 &&& m = 16384) (a0 : State) (a1 : ℕ) :
    State.except m (State.calDisturb a0 a1) = State.except m a0 := by
  refine except_mono h ?_
  unfold State.calDisturb
  (try simp only [except_upd_acs, apply_ite (State.except 16384), apply_ite Prod.snd, apply_ite Prod.fst, ite_self,
      Nat.reduceAnd, foldl_same, foldl_same2, foldl_same1])
  repeat' split
  all_goals (try simp only [except_upd_acs, apply_ite (State.except 16384), apply_ite Prod.snd, apply_ite Prod.fst,
      ite_self, Nat.reduceAnd, foldl_same, foldl_same2, foldl_same1])

theorem State.setConv_same (m : Nat) (h : 16384 &&& m = 16384) (a0 : State) (a1 : ℕ) (a2 : ConvState → ConvState) :
    State.except m (State.setConv a0 a1 a2) = State.except m a0 := by
  refine except_mono h ?_
  unfold State.setConv
  simp only [except_upd_acs, apply_ite (State.except 16384), apply_ite Prod.snd, apply_ite Prod.fst, ite_self,
      Nat.reduceAnd, foldl_same, foldl_same2, foldl_same1]

theorem State.acsReset_same (m : Nat) (h : 16384 &&& m = 16384) (a0 : State) (a1 : State) (a2 : ℕ) :
    State.except m (State.acsReset a0 a1 a2) = State.except m a0 := by
  refine except_mono h ?_
  unfold State.acsReset
  (try simp only [State.calDisturb_same, State.setConv_same, apply_ite (State.except 16384), apply_ite Prod.snd,
      apply_ite Prod.fst, ite_self, Nat.reduceAnd, foldl_same, foldl_same2, foldl_same1])
  repeat' split
  all_goals (try simp [State.calDisturb_same, State.setConv_same, apply_ite (State.except 16384), apply_ite Prod.snd,
      apply_ite Prod.fst, ite_self, Nat.reduceAnd, foldl_same, foldl_same2, foldl_same1])

theorem State.pqePageReset_same (m : Nat) (h : 1 &&& m = 1) (a0 : State) :
    State.except m (State.pqePageReset a0) = State.except m a0 := by
  refine except_mono h ?_
  unfold State.pqePageReset
  simp only [State.wr_same, apply_ite (State.except 1), apply_ite Prod.snd, apply_ite Prod.fst, ite_self,
      Nat.reduceAnd, foldl_same, foldl_same2, foldl_same1]

theorem State.resetHart_same (m : Nat) (h : 2097153 &&& m = 2097153) (a0 : State) (a1 : ℕ) :
    State.except m (State.resetHart a0 a1) = State.except m a0 := by
  refine except_mono h ?_
  unfold State.resetHart
  simp only [State.wr_same, State.setHart_same, apply_ite (State.except 2097153), apply_ite Prod.snd, apply_ite
      Prod.fst, ite_self, Nat.reduceAnd, foldl_same, foldl_same2, foldl_same1]

theorem State.runHarts_same (m : Nat) (h : 2097153 &&& m = 2097153) (a0 : State) :
    State.except m (State.runHarts a0) = State.except m a0 := by
  refine except_mono h ?_
  unfold State.runHarts
  (try simp only [State.setHart_same, State.resetHart_same, State.wr_same, apply_ite (State.except 2097153), apply_ite
      Prod.snd, apply_ite Prod.fst, ite_self, Nat.reduceAnd, foldl_same, foldl_same2, foldl_same1])
  repeat' split
  all_goals (try simp [State.setHart_same, State.resetHart_same, State.wr_same, apply_ite (State.except 2097153),
      apply_ite Prod.snd, apply_ite Prod.fst, ite_self, Nat.reduceAnd, foldl_same, foldl_same2, foldl_same1])

theorem State.alignShow_same (m : Nat) (h : 1 &&& m = 1) (a0 : State) :
    State.except m (State.alignShow a0) = State.except m a0 := by
  refine except_mono h ?_
  unfold State.alignShow
  simp only [State.raise_same, State.wr_same, State.count_same, apply_ite (State.except 1), apply_ite Prod.snd,
      apply_ite Prod.fst, ite_self, Nat.reduceAnd, foldl_same, foldl_same2, foldl_same1]

theorem State.offsetShow_same (m : Nat) (h : 1 &&& m = 1) (a0 : State) :
    State.except m (State.offsetShow a0) = State.except m a0 := by
  refine except_mono h ?_
  unfold State.offsetShow
  simp only [State.wr_same, apply_ite (State.except 1), apply_ite Prod.snd, apply_ite Prod.fst, ite_self,
      Nat.reduceAnd, foldl_same, foldl_same2, foldl_same1]

theorem State.swcReset_same (m : Nat) (h : 1 &&& m = 1) (a0 : State) (a1 : State) :
    State.except m (State.swcReset a0 a1) = State.except m a0 := by
  refine except_mono h ?_
  unfold State.swcReset
  simp only [State.wr_same, State.alignShow_same, State.offsetShow_same, apply_ite (State.except 1), apply_ite
      Prod.snd, apply_ite Prod.fst, ite_self, Nat.reduceAnd, foldl_same, foldl_same2, foldl_same1]

theorem State.bpShow_same (m : Nat) (h : 1 &&& m = 1) (a0 : State) :
    State.except m (State.bpShow a0) = State.except m a0 := by
  refine except_mono h ?_
  unfold State.bpShow
  (try simp only [State.wr_same, apply_ite (State.except 1), apply_ite Prod.snd, apply_ite Prod.fst, ite_self,
      Nat.reduceAnd, foldl_same, foldl_same2, foldl_same1])
  repeat' split
  all_goals (try simp [State.wr_same, apply_ite (State.except 1), apply_ite Prod.snd, apply_ite Prod.fst, ite_self,
      Nat.reduceAnd, foldl_same, foldl_same2, foldl_same1])

theorem State.setChg_same (m : Nat) (h : 1 &&& m = 1) (a0 : State) (a1 : ℕ) :
    State.except m (State.setChg a0 a1) = State.except m a0 := by
  refine except_mono h ?_
  unfold State.setChg
  simp only [State.raise_same, State.wr_same, apply_ite (State.except 1), apply_ite Prod.snd, apply_ite Prod.fst,
      ite_self, Nat.reduceAnd, foldl_same, foldl_same2, foldl_same1]

theorem State.setPmu_same (m : Nat) (h : 2147483648 &&& m = 2147483648) (a0 : State) (a1 : PmuState → PmuState) :
    State.except m (State.setPmu a0 a1) = State.except m a0 := by
  refine except_mono h ?_
  simp only [State.except, setPmu_frame]
  rfl

theorem State.chgBegin_same (m : Nat) (h : 2147483649 &&& m = 2147483649) (a0 : State) :
    State.except m (State.chgBegin a0) = State.except m a0 := by
  refine except_mono h ?_
  unfold State.chgBegin
  simp only [State.setChg_same, State.setPmu_same, apply_ite (State.except 2147483649), apply_ite Prod.snd, apply_ite
      Prod.fst, ite_self, Nat.reduceAnd, foldl_same, foldl_same2, foldl_same1]

theorem State.chgFollow_same (m : Nat) (h : 2147483649 &&& m = 2147483649) (a0 : State) :
    State.except m (State.chgFollow a0) = State.except m a0 := by
  refine except_mono h ?_
  unfold State.chgFollow
  simp only [State.setChg_same, State.setPmu_same, State.chgBegin_same, apply_ite (State.except 2147483649), apply_ite
      Prod.snd, apply_ite Prod.fst, ite_self, Nat.reduceAnd, foldl_same, foldl_same2, foldl_same1]

theorem State.onpackFollow_same (m : Nat) (h : 1 &&& m = 1) (a0 : State) :
    State.except m (State.onpackFollow a0) = State.except m a0 := by
  refine except_mono h ?_
  unfold State.onpackFollow
  simp only [State.wr_same, State.raise_same, apply_ite (State.except 1), apply_ite Prod.snd, apply_ite Prod.fst,
      ite_self, Nat.reduceAnd, foldl_same, foldl_same2, foldl_same1]

theorem State.setPst_same (m : Nat) (h : 2147483649 &&& m = 2147483649) (a0 : State) (a1 : ℕ) :
    State.except m (State.setPst a0 a1) = State.except m a0 := by
  refine except_mono h ?_
  unfold State.setPst
  simp only [State.chgFollow_same, State.onpackFollow_same, State.wr_same, apply_ite (State.except 2147483649),
      apply_ite Prod.snd, apply_ite Prod.fst, ite_self, Nat.reduceAnd, foldl_same, foldl_same2, foldl_same1]

theorem State.mntDone_same (m : Nat) (h : 2147483649 &&& m = 2147483649) (a0 : State) (a1 : Status) :
    State.except m (State.mntDone a0 a1) = State.except m a0 := by
  refine except_mono h ?_
  unfold State.mntDone
  simp only [State.raise_same, State.wr_same, State.setPst_same, State.chgFollow_same, apply_ite (State.except
      2147483649), apply_ite Prod.snd, apply_ite Prod.fst, ite_self, Nat.reduceAnd, foldl_same, foldl_same2,
      foldl_same1]

theorem State.mntAbort_same (m : Nat) (h : 2147483649 &&& m = 2147483649) (a0 : State) :
    State.except m (State.mntAbort a0) = State.except m a0 := by
  refine except_mono h ?_
  unfold State.mntAbort
  simp only [State.mntDone_same, apply_ite (State.except 2147483649), apply_ite Prod.snd, apply_ite Prod.fst,
      ite_self, Nat.reduceAnd, foldl_same, foldl_same2, foldl_same1]

theorem State.learnEnd_same (m : Nat) (h : 1073741825 &&& m = 1073741825) (a0 : State) (a1 : Status) :
    State.except m (State.learnEnd a0 a1) = State.except m a0 := by
  refine except_mono h ?_
  unfold State.learnEnd
  simp only [State.setBga_same, State.raise_same, State.wr_same, apply_ite (State.except 1073741825), apply_ite
      Prod.snd, apply_ite Prod.fst, ite_self, Nat.reduceAnd, foldl_same, foldl_same2, foldl_same1]

theorem State.bgaReset_same (m : Nat) (h : 3221225473 &&& m = 3221225473) (a0 : State) :
    State.except m (State.bgaReset a0) = State.except m a0 := by
  refine except_mono h ?_
  unfold State.bgaReset
  simp only [State.wr_same, State.mntAbort_same, State.learnEnd_same, apply_ite (State.except 3221225473), apply_ite
      Prod.snd, apply_ite Prod.fst, ite_self, Nat.reduceAnd, foldl_same, foldl_same2, foldl_same1]

theorem State.packShow_same (m : Nat) (h : 2147483649 &&& m = 2147483649) (a0 : State) :
    State.except m (State.packShow a0) = State.except m a0 := by
  refine except_mono h ?_
  unfold State.packShow
  simp only [State.chgFollow_same, State.wr_same, apply_ite (State.except 2147483649), apply_ite Prod.snd, apply_ite
      Prod.fst, ite_self, Nat.reduceAnd, foldl_same, foldl_same2, foldl_same1]

theorem State.railsFollow_same (m : Nat) (h : 1 &&& m = 1) (a0 : State) :
    State.except m (State.railsFollow a0) = State.except m a0 := by
  refine except_mono h ?_
  unfold State.railsFollow
  simp only [State.wr_same, apply_ite (State.except 1), apply_ite Prod.snd, apply_ite Prod.fst, ite_self,
      Nat.reduceAnd, foldl_same, foldl_same2, foldl_same1]

theorem State.setPlt_same (m : Nat) (h : 8388608 &&& m = 8388608) (a0 : State) (a1 : PltState → PltState) :
    State.except m (State.setPlt a0 a1) = State.except m a0 := by
  refine except_mono h ?_
  simp only [State.except, setPlt_frame]
  rfl

theorem State.setPlm_same (m : Nat) (h : 33554432 &&& m = 33554432) (a0 : State) (a1 : PlmState → PlmState) :
    State.except m (State.setPlm a0 a1) = State.except m a0 := by
  refine except_mono h ?_
  simp only [State.except, setPlm_frame]
  rfl

theorem State.setFrame_same (m : Nat) (h : 33554432 &&& m = 33554432) (a0 : State) (a1 : ℕ) (a2 : TxFrame → TxFrame) :
    State.except m (State.setFrame a0 a1 a2) = State.except m a0 := by
  refine except_mono h ?_
  unfold State.setFrame
  simp only [State.setPlm_same, apply_ite (State.except 33554432), apply_ite Prod.snd, apply_ite Prod.fst, ite_self,
      Nat.reduceAnd, foldl_same, foldl_same2, foldl_same1]

theorem State.epPut_same (m : Nat) (h : 34359738368 &&& m = 34359738368) (a0 : State) (a1 : ℕ) (a2 : ℕ) :
    State.except m (State.epPut a0 a1 a2) = State.except m a0 := by
  refine except_mono h ?_
  unfold State.epPut
  simp only [State.store_same, apply_ite (State.except 34359738368), apply_ite Prod.snd, apply_ite Prod.fst, ite_self,
      Nat.reduceAnd, foldl_same, foldl_same2, foldl_same1]

theorem State.epRecord_same (m : Nat) (h : 34393292800 &&& m = 34393292800) (a0 : State) (a1 : ℕ) (a2 : ℕ) :
    State.except m (State.epRecord a0 a1 a2) = State.except m a0 := by
  refine except_mono h ?_
  unfold State.epRecord
  simp only [State.setPlm_same, State.epPut_same, apply_ite (State.except 34393292800), apply_ite Prod.snd, apply_ite
      Prod.fst, ite_self, Nat.reduceAnd, foldl_same, foldl_same2, foldl_same1]

theorem State.ringRecord_same (m : Nat) (h : 8193 &&& m = 8193) (a0 : State) (a1 : ℕ) (a2 : ℕ) (a3 : ℕ) (a4 : ℕ) (a5 :
    ℕ) :
    State.except m (State.ringRecord a0 a1 a2 a3 a4 a5) = State.except m a0 := by
  refine except_mono h ?_
  unfold State.ringRecord
  simp only [State.count_same, State.wr_same, except_upd_tnc, apply_ite (State.except 8193), apply_ite Prod.snd,
      apply_ite Prod.fst, ite_self, Nat.reduceAnd, foldl_same, foldl_same2, foldl_same1]

theorem State.outcome_same (m : Nat) (h : 8193 &&& m = 8193) (a0 : State) (a1 : ℕ) (a2 : ℕ) (a3 : Status) (a4 : ℕ) :
    State.except m (State.outcome a0 a1 a2 a3 a4) = State.except m a0 := by
  refine except_mono h ?_
  unfold State.outcome
  (try simp only [State.count_same, State.ringRecord_same, except_upd_tnc, apply_ite (State.except 8193), apply_ite
      Prod.snd, apply_ite Prod.fst, ite_self, Nat.reduceAnd, foldl_same, foldl_same2, foldl_same1])
  repeat' split
  all_goals (try simp only [State.count_same, State.ringRecord_same, except_upd_tnc, apply_ite (State.except 8193),
      apply_ite Prod.snd, apply_ite Prod.fst, ite_self, Nat.reduceAnd, foldl_same, foldl_same2, foldl_same1])

theorem State.endNodeDown_same (m : Nat) (h : 34393300993 &&& m = 34393300993) (a0 : State) (a1 : ℕ) (a2 : Status) (a3
    : ℕ) :
    State.except m (State.endNodeDown a0 a1 a2 a3) = State.except m a0 := by
  refine except_mono h ?_
  unfold State.endNodeDown
  (try simp only [State.setPlm_same, State.epRecord_same, State.outcome_same, apply_ite (State.except 34393300993),
      apply_ite Prod.snd, apply_ite Prod.fst, ite_self, Nat.reduceAnd, foldl_same, foldl_same2, foldl_same1])
  repeat' split
  all_goals (try simp only [State.setPlm_same, State.epRecord_same, State.outcome_same, apply_ite (State.except
      34393300993), apply_ite Prod.snd, apply_ite Prod.fst, ite_self, Nat.reduceAnd, foldl_same, foldl_same2,
      foldl_same1])

theorem State.quotaShow_same (m : Nat) (h : 1 &&& m = 1) (a0 : State) (a1 : ℕ) (a2 : ℕ) :
    State.except m (State.quotaShow a0 a1 a2) = State.except m a0 := by
  refine except_mono h ?_
  unfold State.quotaShow
  (try simp only [State.wr_same, apply_ite (State.except 1), apply_ite Prod.snd, apply_ite Prod.fst, ite_self,
      Nat.reduceAnd, foldl_same, foldl_same2, foldl_same1])
  repeat' split
  all_goals (try simp only [State.wr_same, apply_ite (State.except 1), apply_ite Prod.snd, apply_ite Prod.fst,
      ite_self, Nat.reduceAnd, foldl_same, foldl_same2, foldl_same1])

theorem State.quotaPut_same (m : Nat) (h : 8193 &&& m = 8193) (a0 : State) (a1 : ℕ) (a2 : ℕ) (a3 : ℕ) :
    State.except m (State.quotaPut a0 a1 a2 a3) = State.except m a0 := by
  refine except_mono h ?_
  unfold State.quotaPut
  simp only [State.quotaShow_same, State.setTnc_same, apply_ite (State.except 8193), apply_ite Prod.snd, apply_ite
      Prod.fst, ite_self, Nat.reduceAnd, foldl_same, foldl_same2, foldl_same1]

theorem State.giveBack_same (m : Nat) (h : 8193 &&& m = 8193) (a0 : State) (a1 : ℕ) (a2 : ℕ) (a3 : ℕ) (a4 : ℕ) :
    State.except m (State.giveBack a0 a1 a2 a3 a4) = State.except m a0 := by
  refine except_mono h ?_
  unfold State.giveBack
  simp only [State.quotaPut_same, apply_ite (State.except 8193), apply_ite Prod.snd, apply_ite Prod.fst, ite_self,
      Nat.reduceAnd, foldl_same, foldl_same2, foldl_same1]

theorem State.settleAir_same (m : Nat) (h : 8193 &&& m = 8193) (a0 : State) (a1 : TxFrame) (a2 : ℕ) :
    State.except m (State.settleAir a0 a1 a2) = State.except m a0 := by
  refine except_mono h ?_
  unfold State.settleAir
  simp only [State.giveBack_same, State.setTnc_same, apply_ite (State.except 8193), apply_ite Prod.snd, apply_ite
      Prod.fst, ite_self, Nat.reduceAnd, foldl_same, foldl_same2, foldl_same1]

theorem State.endFrame_same (m : Nat) (h : 34393300993 &&& m = 34393300993) (a0 : State) (a1 : TxFrame) (a2 : Status)
    :
    State.except m (State.endFrame a0 a1 a2) = State.except m a0 := by
  refine except_mono h ?_
  unfold State.endFrame
  (try simp only [State.setPlm_same, State.endNodeDown_same, State.epRecord_same, State.outcome_same,
      State.settleAir_same, apply_ite (State.except 34393300993), apply_ite Prod.snd, apply_ite Prod.fst, ite_self,
      Nat.reduceAnd, foldl_same, foldl_same2, foldl_same1])
  repeat' split
  all_goals (try simp only [State.setPlm_same, State.endNodeDown_same, State.epRecord_same, State.outcome_same,
      State.settleAir_same, apply_ite (State.except 34393300993), apply_ite Prod.snd, apply_ite Prod.fst, ite_self,
      Nat.reduceAnd, foldl_same, foldl_same2, foldl_same1])

theorem State.requestCut_same (m : Nat) (h : 34393300993 &&& m = 34393300993) (a0 : State) (a1 : Attempt) (a2 :
    Status) :
    State.except m (State.requestCut a0 a1 a2) = State.except m a0 := by
  refine except_mono h ?_
  unfold State.requestCut
  (try simp only [State.setFrame_same, State.setPlm_same, State.endFrame_same, apply_ite (State.except 34393300993),
      apply_ite Prod.snd, apply_ite Prod.fst, ite_self, Nat.reduceAnd, foldl_same, foldl_same2, foldl_same1])
  repeat' split
  all_goals (try simp only [State.setFrame_same, State.setPlm_same, State.endFrame_same, apply_ite (State.except
      34393300993), apply_ite Prod.snd, apply_ite Prod.fst, ite_self, Nat.reduceAnd, foldl_same, foldl_same2,
      foldl_same1])

theorem State.cutTone_same (m : Nat) (h : 34401689601 &&& m = 34401689601) (a0 : State) :
    State.except m (State.cutTone a0) = State.except m a0 := by
  refine except_mono h ?_
  unfold State.cutTone
  (try simp only [State.setPlt_same, State.pltShow_same, State.raise_same, State.count_same, State.setPlm_same,
      State.requestCut_same, apply_ite (State.except 34401689601), apply_ite Prod.snd, apply_ite Prod.fst, ite_self,
      Nat.reduceAnd, foldl_same, foldl_same2, foldl_same1])
  repeat' split
  all_goals (try simp only [State.setPlt_same, State.pltShow_same, State.raise_same, State.count_same,
      State.setPlm_same, State.requestCut_same, apply_ite (State.except 34401689601), apply_ite Prod.snd, apply_ite
      Prod.fst, ite_self, Nat.reduceAnd, foldl_same, foldl_same2, foldl_same1])

theorem State.pltAuxDown_same (m : Nat) (h : 34401689857 &&& m = 34401689857) (a0 : State) :
    State.except m (State.pltAuxDown a0) = State.except m a0 := by
  refine except_mono h ?_
  unfold State.pltAuxDown
  simp only [State.log_same, State.raise_same, State.cutTone_same, State.wr_same, apply_ite (State.except
      34401689857), apply_ite Prod.snd, apply_ite Prod.fst, ite_self, Nat.reduceAnd, foldl_same, foldl_same2,
      foldl_same1]

theorem State.pltAuxUp_same (m : Nat) (h : 1 &&& m = 1) (a0 : State) :
    State.except m (State.pltAuxUp a0) = State.except m a0 := by
  refine except_mono h ?_
  unfold State.pltAuxUp
  simp only [State.wr_same, apply_ite (State.except 1), apply_ite Prod.snd, apply_ite Prod.fst, ite_self,
      Nat.reduceAnd, foldl_same, foldl_same2, foldl_same1]

theorem State.setAux_same (m : Nat) (h : 36549173505 &&& m = 36549173505) (a0 : State) (a1 : ℕ) :
    State.except m (State.setAux a0 a1) = State.except m a0 := by
  refine except_mono h ?_
  unfold State.setAux
  simp only [State.wr_same, State.setPmu_same, State.raise_same, State.pltAuxUp_same, State.pltAuxDown_same, apply_ite
      (State.except 36549173505), apply_ite Prod.snd, apply_ite Prod.fst, ite_self, Nat.reduceAnd, foldl_same,
      foldl_same2, foldl_same1]

theorem State.auxStop_same (m : Nat) (h : 36549173505 &&& m = 36549173505) (a0 : State) :
    State.except m (State.auxStop a0) = State.except m a0 := by
  refine except_mono h ?_
  unfold State.auxStop
  simp only [State.setAux_same, State.wr_same, apply_ite (State.except 36549173505), apply_ite Prod.snd, apply_ite
      Prod.fst, ite_self, Nat.reduceAnd, foldl_same, foldl_same2, foldl_same1]

theorem State.auxStart_same (m : Nat) (h : 36549173505 &&& m = 36549173505) (a0 : State) :
    State.except m (State.auxStart a0) = State.except m a0 := by
  refine except_mono h ?_
  unfold State.auxStart
  simp only [State.setAux_same, State.wr_same, apply_ite (State.except 36549173505), apply_ite Prod.snd, apply_ite
      Prod.fst, ite_self, Nat.reduceAnd, foldl_same, foldl_same2, foldl_same1]

theorem State.auxFollow_same (m : Nat) (h : 36549173505 &&& m = 36549173505) (a0 : State) :
    State.except m (State.auxFollow a0) = State.except m a0 := by
  refine except_mono h ?_
  unfold State.auxFollow
  simp only [State.pltAuxDown_same, State.auxStop_same, State.auxStart_same, apply_ite (State.except 36549173505),
      apply_ite Prod.snd, apply_ite Prod.fst, ite_self, Nat.reduceAnd, foldl_same, foldl_same2, foldl_same1]

theorem State.railReset_same (m : Nat) (h : 36549173505 &&& m = 36549173505) (a0 : State) :
    State.except m (State.railReset a0) = State.except m a0 := by
  refine except_mono h ?_
  unfold State.railReset
  simp only [State.wr_same, State.railsFollow_same, State.auxFollow_same, apply_ite (State.except 36549173505),
      apply_ite Prod.snd, apply_ite Prod.fst, ite_self, Nat.reduceAnd, foldl_same, foldl_same2, foldl_same1]

theorem State.gpioShow_same (m : Nat) (h : 1 &&& m = 1) (a0 : State) :
    State.except m (State.gpioShow a0) = State.except m a0 := by
  refine except_mono h ?_
  unfold State.gpioShow
  (try simp only [State.wr_same, apply_ite (State.except 1), apply_ite Prod.snd, apply_ite Prod.fst, ite_self,
      Nat.reduceAnd, foldl_same, foldl_same2, foldl_same1])
  repeat' split
  all_goals (try simp [State.wr_same, apply_ite (State.except 1), apply_ite Prod.snd, apply_ite Prod.fst, ite_self,
      Nat.reduceAnd, foldl_same, foldl_same2, foldl_same1])

theorem State.resetFollow_same (m : Nat) (h : 37625094403 &&& m = 37625094403) (a0 : State) (a1 : State) (a2 : ℕ) :
    State.except m (State.resetFollow a0 a1 a2) = State.except m a0 := by
  refine except_mono h ?_
  unfold State.resetFollow
  simp only [State.viewsReset_same, State.setTnc_same, State.acsReset_same, State.plsPageReset_same,
      State.pqePageReset_same, State.runHarts_same, State.pltShow_same, State.swcReset_same, State.bpShow_same,
      State.bgaReset_same, State.packShow_same, State.railReset_same, State.wr_same, State.gpioShow_same,
      except_upd_acc, apply_ite (State.except 37625094403), apply_ite Prod.snd, apply_ite Prod.fst, ite_self,
      Nat.reduceAnd, foldl_same, foldl_same2, foldl_same1]

theorem State.resetRw_same (m : Nat) (h : 41 &&& m = 41) (a0 : State) (a1 : ℕ) :
    State.except m (State.resetRw a0 a1) = State.except m a0 := by
  refine except_mono h ?_
  unfold State.resetRw
  (try simp only [State.setReg_same, State.setPg_same, except_upd_hold, apply_ite (State.except 41), apply_ite
      Prod.snd, apply_ite Prod.fst, ite_self, Nat.reduceAnd, foldl_same, foldl_same2, foldl_same1])
  repeat' split
  all_goals (try simp [State.setReg_same, State.setPg_same, except_upd_hold, apply_ite (State.except 41), apply_ite
      Prod.snd, apply_ite Prod.fst, ite_self, Nat.reduceAnd, foldl_same, foldl_same2, foldl_same1])

theorem State.pageReset_same (m : Nat) (h : 37625094443 &&& m = 37625094443) (a0 : State) (a1 : ℕ) :
    State.except m (State.pageReset a0 a1) = State.except m a0 := by
  refine except_mono h ?_
  unfold State.pageReset
  simp only [State.log_same, State.resetFollow_same, State.resetRw_same, apply_ite (State.except 37625094443),
      apply_ite Prod.snd, apply_ite Prod.fst, ite_self, Nat.reduceAnd, foldl_same, foldl_same2, foldl_same1]

theorem State.rawClear_same (m : Nat) (h : 1 &&& m = 1) (a0 : State) (a1 : ℕ) (a2 : ℕ) :
    State.except m (State.rawClear a0 a1 a2) = State.except m a0 := by
  refine except_mono h ?_
  unfold State.rawClear
  simp only [State.wr_same, apply_ite (State.except 1), apply_ite Prod.snd, apply_ite Prod.fst, ite_self,
      Nat.reduceAnd, foldl_same, foldl_same2, foldl_same1]

theorem State.setHeld_same (m : Nat) (h : 257 &&& m = 257) (a0 : State) (a1 : ℕ) (a2 : Bool) :
    State.except m (State.setHeld a0 a1 a2) = State.except m a0 := by
  refine except_mono h ?_
  unfold State.setHeld
  simp only [State.log_same, State.wr_same, apply_ite (State.except 257), apply_ite Prod.snd, apply_ite Prod.fst,
      ite_self, Nat.reduceAnd, foldl_same, foldl_same2, foldl_same1]

theorem State.lockWrite_same (m : Nat) (h : 289 &&& m = 289) (a0 : State) (a1 : Req) (a2 : ℕ) :
    State.except m (State.lockWrite a0 a1 a2).2 = State.except m a0 := by
  refine except_mono h ?_
  unfold State.lockWrite
  simp only [State.setHeld_same, State.setPg_same, State.lockFailed_same, apply_ite (State.except 289), apply_ite
      Prod.snd, apply_ite Prod.fst, ite_self, Nat.reduceAnd, foldl_same, foldl_same2, foldl_same1]

theorem headWrite_same (m : Nat) (h : 37625094443 &&& m = 37625094443)  :
    ∀ (s : State) (q : Req) (d : Nat), State.except m (headWrite s q d).2 = State.except m s := by
  intro s q d
  refine except_mono h ?_
  unfold headWrite
  (try simp only [State.pageReset_same, State.rawClear_same, State.lockWrite_same, State.wr_same, plainWrite_same,
      apply_ite (State.except 37625094443), apply_ite Prod.snd, apply_ite Prod.fst, ite_self, Nat.reduceAnd,
      foldl_same, foldl_same2, foldl_same1])
  repeat' split
  all_goals (try simp only [State.pageReset_same, State.rawClear_same, State.lockWrite_same, State.wr_same,
      plainWrite_same, apply_ite (State.except 37625094443), apply_ite Prod.snd, apply_ite Prod.fst, ite_self,
      Nat.reduceAnd, foldl_same, foldl_same2, foldl_same1])

theorem State.clearRegs_same (m : Nat) (h : 1 &&& m = 1) (a0 : State) (a1 : ℕ) (a2 : ℕ → Bool) :
    State.except m (State.clearRegs a0 a1 a2) = State.except m a0 := by
  refine except_mono h ?_
  simp only [State.except, clearRegs_frame]
  rfl

theorem State.clearContext_same (m : Nat) (h : 1 &&& m = 1) (a0 : State) (a1 : ℕ) :
    State.except m (State.clearContext a0 a1) = State.except m a0 := by
  refine except_mono h ?_
  unfold State.clearContext
  simp only [State.clearRegs_same, State.wr_same, apply_ite (State.except 1), apply_ite Prod.snd, apply_ite Prod.fst,
      ite_self, Nat.reduceAnd, foldl_same, foldl_same2, foldl_same1]

theorem State.setBarm_same (m : Nat) (h : 1048576 &&& m = 1048576) (a0 : State) (a1 : BarmState → BarmState) :
    State.except m (State.setBarm a0 a1) = State.except m a0 := by
  refine except_mono h ?_
  simp only [State.except, setBarm_frame]
  rfl

theorem State.dropList_same (m : Nat) (h : 1048576 &&& m = 1048576) (a0 : State) (a1 : ℕ) :
    State.except m (State.dropList a0 a1) = State.except m a0 := by
  refine except_mono h ?_
  unfold State.dropList
  simp only [State.setBarm_same, apply_ite (State.except 1048576), apply_ite Prod.snd, apply_ite Prod.fst, ite_self,
      Nat.reduceAnd, foldl_same, foldl_same2, foldl_same1]

theorem State.putRecord_same (m : Nat) (h : 34359738368 &&& m = 34359738368) (a0 : State) (a1 : RingCfg) (a2 : ℕ) :
    State.except m (State.putRecord a0 a1 a2) = State.except m a0 := by
  refine except_mono h ?_
  unfold State.putRecord
  simp only [State.store_same, apply_ite (State.except 34359738368), apply_ite Prod.snd, apply_ite Prod.fst, ite_self,
      Nat.reduceAnd, foldl_same, foldl_same2, foldl_same1]

theorem State.sendRecord_same (m : Nat) (h : 34360786945 &&& m = 34360786945) (a0 : State) (a1 : ℕ) (a2 : RingCfg) (a3
    : ℕ) :
    State.except m (State.sendRecord a0 a1 a2 a3) = State.except m a0 := by
  refine except_mono h ?_
  unfold State.sendRecord
  simp only [State.wr_same, State.setBarm_same, State.putRecord_same, apply_ite (State.except 34360786945), apply_ite
      Prod.snd, apply_ite Prod.fst, ite_self, Nat.reduceAnd, foldl_same, foldl_same2, foldl_same1]

theorem State.refusalRecord_same (m : Nat) (h : 34360786945 &&& m = 34360786945) (a0 : State) (a1 : ℕ) (a2 : RingCfg)
    (a3 : Status) (a4 : ℕ) :
    State.except m (State.refusalRecord a0 a1 a2 a3 a4) = State.except m a0 := by
  refine except_mono h ?_
  unfold State.refusalRecord
  simp only [State.sendRecord_same, apply_ite (State.except 34360786945), apply_ite Prod.snd, apply_ite Prod.fst,
      ite_self, Nat.reduceAnd, foldl_same, foldl_same2, foldl_same1]

theorem State.endUnstarted_same (m : Nat) (h : 34360795137 &&& m = 34360795137) (a0 : State) (a1 : BarmList) (a2 :
    Status) :
    State.except m (State.endUnstarted a0 a1 a2) = State.except m a0 := by
  refine except_mono h ?_
  unfold State.endUnstarted
  simp only [State.dropList_same, State.giveBack_same, State.outcome_same, State.count_same, State.refusalRecord_same,
      State.raise_same, apply_ite (State.except 34360795137), apply_ite Prod.snd, apply_ite Prod.fst, ite_self,
      Nat.reduceAnd, foldl_same, foldl_same2, foldl_same1]

theorem State.barmSkip_same (m : Nat) (h : 34360795137 &&& m = 34360795137) (a0 : State) (a1 : Option ℕ) :
    State.except m (State.barmSkip a0 a1) = State.except m a0 := by
  refine except_mono h ?_
  unfold State.barmSkip
  (try simp only [State.endUnstarted_same, apply_ite (State.except 34360795137), apply_ite Prod.snd, apply_ite
      Prod.fst, ite_self, Nat.reduceAnd, foldl_same, foldl_same2, foldl_same1])
  repeat' split
  all_goals (try simp [State.endUnstarted_same, apply_ite (State.except 34360795137), apply_ite Prod.snd, apply_ite
      Prod.fst, ite_self, Nat.reduceAnd, foldl_same, foldl_same2, foldl_same1])

theorem State.setSec_same (m : Nat) (h : 268435456 &&& m = 268435456) (a0 : State) (a1 : SecState → SecState) :
    State.except m (State.setSec a0 a1) = State.except m a0 := by
  refine except_mono h ?_
  simp only [State.except, setSec_frame]
  rfl

theorem State.cmdPut_same (m : Nat) (h : 34359738368 &&& m = 34359738368) (a0 : State) (a1 : CmdRing) (a2 : ℕ) :
    State.except m (State.cmdPut a0 a1 a2) = State.except m a0 := by
  refine except_mono h ?_
  unfold State.cmdPut
  simp only [State.store_same, apply_ite (State.except 34359738368), apply_ite Prod.snd, apply_ite Prod.fst, ite_self,
      Nat.reduceAnd, foldl_same, foldl_same2, foldl_same1]

theorem State.secRecord_same (m : Nat) (h : 34628182017 &&& m = 34628182017) (a0 : State) (a1 : ℕ) (a2 : ℕ) (a3 :
    Status) (a4 : Bool) (a5 : ℕ) (a6 : ℕ) :
    State.except m (State.secRecord a0 a1 a2 a3 a4 a5 a6) = State.except m a0 := by
  refine except_mono h ?_
  unfold State.secRecord
  simp only [State.outcome_same, State.setSec_same, State.cmdPut_same, apply_ite (State.except 34628182017), apply_ite
      Prod.snd, apply_ite Prod.fst, ite_self, Nat.reduceAnd, foldl_same, foldl_same2, foldl_same1]

theorem State.secRefuse_same (m : Nat) (h : 34628182017 &&& m = 34628182017) (a0 : State) (a1 : RingItem) (a2 :
    Status) :
    State.except m (State.secRefuse a0 a1 a2) = State.except m a0 := by
  refine except_mono h ?_
  unfold State.secRefuse
  simp only [State.secRecord_same, apply_ite (State.except 34628182017), apply_ite Prod.snd, apply_ite Prod.fst,
      ite_self, Nat.reduceAnd, foldl_same, foldl_same2, foldl_same1]

theorem State.celRecord_same (m : Nat) (h : 34363940865 &&& m = 34363940865) (a0 : State) (a1 : ℕ) (a2 : ℕ) (a3 :
    Status) (a4 : ℕ) (a5 : ℕ) :
    State.except m (State.celRecord a0 a1 a2 a3 a4 a5) = State.except m a0 := by
  refine except_mono h ?_
  unfold State.celRecord
  simp only [State.outcome_same, State.setCel_same, State.cmdPut_same, apply_ite (State.except 34363940865), apply_ite
      Prod.snd, apply_ite Prod.fst, ite_self, Nat.reduceAnd, foldl_same, foldl_same2, foldl_same1]

theorem State.celRefuse_same (m : Nat) (h : 34363940865 &&& m = 34363940865) (a0 : State) (a1 : RingItem) (a2 :
    Status) :
    State.except m (State.celRefuse a0 a1 a2) = State.except m a0 := by
  refine except_mono h ?_
  unfold State.celRefuse
  simp only [State.celRecord_same, apply_ite (State.except 34363940865), apply_ite Prod.snd, apply_ite Prod.fst,
      ite_self, Nat.reduceAnd, foldl_same, foldl_same2, foldl_same1]

theorem State.skipQueued_same (m : Nat) (h : 34666979329 &&& m = 34666979329) (a0 : State) (a1 : ℕ) :
    State.except m (State.skipQueued a0 a1) = State.except m a0 := by
  refine except_mono h ?_
  unfold State.skipQueued
  (try simp only [State.barmSkip_same, State.endFrame_same, State.endNodeDown_same, State.secRefuse_same,
      State.setSec_same, State.celRefuse_same, State.setCel_same, apply_ite (State.except 34666979329), apply_ite
      Prod.snd, apply_ite Prod.fst, ite_self, Nat.reduceAnd, foldl_same, foldl_same2, foldl_same1])
  repeat' split
  all_goals (try simp [State.barmSkip_same, State.endFrame_same, State.endNodeDown_same, State.secRefuse_same,
      State.setSec_same, State.celRefuse_same, State.setCel_same, apply_ite (State.except 34666979329), apply_ite
      Prod.snd, apply_ite Prod.fst, ite_self, Nat.reduceAnd, foldl_same, foldl_same2, foldl_same1])

theorem State.setTenant_same (m : Nat) (h : 1 &&& m = 1) (a0 : State) (a1 : ℕ) (a2 : ℕ) :
    State.except m (State.setTenant a0 a1 a2) = State.except m a0 := by
  refine except_mono h ?_
  simp only [State.except, setTenant_frame]
  rfl

theorem State.moveTenant_same (m : Nat) (h : 8449 &&& m = 8449) (a0 : State) (a1 : ℕ) (a2 : ℕ) (a3 : ℕ) :
    State.except m (State.moveTenant a0 a1 a2 a3) = State.except m a0 := by
  refine except_mono h ?_
  unfold State.moveTenant
  simp only [State.ringRecord_same, State.log_same, State.setTenant_same, apply_ite (State.except 8449), apply_ite
      Prod.snd, apply_ite Prod.fst, ite_self, Nat.reduceAnd, foldl_same, foldl_same2, foldl_same1]

theorem State.resetTenant_same (m : Nat) (h : 34666979585 &&& m = 34666979585) (a0 : State) (a1 : ℕ) (a2 : Bool) (a3 :
    Bool) :
    State.except m (State.resetTenant a0 a1 a2 a3) = State.except m a0 := by
  refine except_mono h ?_
  unfold State.resetTenant
  simp only [State.clearContext_same, State.skipQueued_same, State.setTnc_same, State.moveTenant_same, State.wr_same,
      apply_ite (State.except 34666979585), apply_ite Prod.snd, apply_ite Prod.fst, ite_self, Nat.reduceAnd,
      foldl_same, foldl_same2, foldl_same1]

theorem State.tenantCommand_same (m : Nat) (h : 34666979585 &&& m = 34666979585) (a0 : State) (a1 : ℕ) :
    State.except m (State.tenantCommand a0 a1).2 = State.except m a0 := by
  refine except_mono h ?_
  unfold State.tenantCommand
  simp only [State.wr_same, State.resetTenant_same, State.moveTenant_same, apply_ite (State.except 34666979585),
      apply_ite Prod.snd, apply_ite Prod.fst, ite_self, Nat.reduceAnd, foldl_same, foldl_same2, foldl_same1]

theorem State.grantEnd_same (m : Nat) (h : 8449 &&& m = 8449) (a0 : State) (a1 : ℕ) :
    State.except m (State.grantEnd a0 a1) = State.except m a0 := by
  refine except_mono h ?_
  unfold State.grantEnd
  (try simp only [State.setTnc_same, State.wr_same, State.log_same, State.ringRecord_same, apply_ite (State.except
      8449), apply_ite Prod.snd, apply_ite Prod.fst, ite_self, Nat.reduceAnd, foldl_same, foldl_same2, foldl_same1])
  repeat' split
  all_goals (try simp only [State.setTnc_same, State.wr_same, State.log_same, State.ringRecord_same, apply_ite
      (State.except 8449), apply_ite Prod.snd, apply_ite Prod.fst, ite_self, Nat.reduceAnd, foldl_same, foldl_same2,
      foldl_same1])

theorem State.grantReset_same (m : Nat) (h : 299 &&& m = 299) (a0 : State) (a1 : ℕ) :
    State.except m (State.grantReset a0 a1) = State.except m a0 := by
  refine except_mono h ?_
  unfold State.grantReset
  simp only [State.resetRw_same, State.plsPageReset_same, State.pqePageReset_same, State.gpioShow_same,
      State.log_same, apply_ite (State.except 299), apply_ite Prod.snd, apply_ite Prod.fst, ite_self, Nat.reduceAnd,
      foldl_same, foldl_same2, foldl_same1]

theorem State.movePage_same (m : Nat) (h : 299 &&& m = 299) (a0 : State) (a1 : ℕ) (a2 : ℕ) :
    State.except m (State.movePage a0 a1 a2) = State.except m a0 := by
  refine except_mono h ?_
  unfold State.movePage
  simp only [State.wr_same, State.setHeld_same, State.grantReset_same, apply_ite (State.except 299), apply_ite
      Prod.snd, apply_ite Prod.fst, ite_self, Nat.reduceAnd, foldl_same, foldl_same2, foldl_same1]

end Sys2Proof.Machine
end

