-- ==== Sys2Proof/Laws/FrameUnits.lean ====
section
/-! SUPPORT. What each operation may change: outside the parts of the state in its mask, the state after it is as
before (part 2 of 4; an operation stands after those it calls). Cite these in place of unfolding the operation. -/

namespace Sys2Proof.Machine

set_option linter.all false

theorem State.celWrite_same (m : Nat) (h : 4194305 &&& m = 4194305) (a0 : State) (a1 : ℕ) (a2 : ℕ) :
    State.except m (State.celWrite a0 a1 a2) = State.except m a0 := by
  refine except_mono h ?_
  unfold State.celWrite
  simp only [State.celPutRaw_same, State.celBad_same, apply_ite (State.except 4194305), apply_ite Prod.snd, apply_ite
      Prod.fst, ite_self, Nat.reduceAnd, foldl_same, foldl_same2, foldl_same1]

theorem State.celWriteRun_same (m : Nat) (h : 4194305 &&& m = 4194305) (a0 : State) (a1 : ℕ) (a2 : List ℕ) :
    State.except m (State.celWriteRun a0 a1 a2) = State.except m a0 := by
  refine except_mono h ?_
  induction a2 generalizing a0 a1 with
  | nil => rfl
  | cons v l ih =>
    unfold State.celWriteRun
    (repeat' split) <;> simp only [ih, State.celWrite_same, apply_ite (State.except 4194305), apply_ite Prod.snd,
        apply_ite Prod.fst, ite_self, Nat.reduceAnd, foldl_same, foldl_same2, foldl_same1]

theorem State.devWrite_same (m : Nat) (h : 4194305 &&& m = 4194305) (a0 : State) (a1 : ℕ) (a2 : ℕ) (a3 : ℕ) (a4 : List
    ℕ) :
    State.except m (State.devWrite a0 a1 a2 a3 a4) = State.except m a0 := by
  refine except_mono h ?_
  unfold State.devWrite
  simp only [State.setCel_same, State.celWriteRun_same, apply_ite (State.except 4194305), apply_ite Prod.snd,
      apply_ite Prod.fst, ite_self, Nat.reduceAnd, foldl_same, foldl_same2, foldl_same1]

theorem State.unitPut_same (m : Nat) (h : 4194305 &&& m = 4194305) (a0 : State) (a1 : ℕ) (a2 : ℕ) (a3 : ℕ) :
    State.except m (State.unitPut a0 a1 a2 a3) = State.except m a0 := by
  refine except_mono h ?_
  unfold State.unitPut
  simp only [State.wr_same, State.devWrite_same, apply_ite (State.except 4194305), apply_ite Prod.snd, apply_ite
      Prod.fst, ite_self, Nat.reduceAnd, foldl_same, foldl_same2, foldl_same1]

theorem State.startWipe_same (m : Nat) (h : 4194305 &&& m = 4194305) (a0 : State) (a1 : UnitWipe) :
    State.except m (State.startWipe a0 a1) = State.except m a0 := by
  refine except_mono h ?_
  unfold State.startWipe
  simp only [State.setCel_same, State.unitPut_same, apply_ite (State.except 4194305), apply_ite Prod.snd, apply_ite
      Prod.fst, ite_self, Nat.reduceAnd, foldl_same, foldl_same2, foldl_same1]

theorem State.unitGrant_same (m : Nat) (h : 4202753 &&& m = 4202753) (a0 : State) (a1 : ℕ) (a2 : ℕ) :
    State.except m (State.unitGrant a0 a1 a2) = State.except m a0 := by
  refine except_mono h ?_
  unfold State.unitGrant
  simp only [State.startWipe_same, State.grantEnd_same, State.unitPut_same, apply_ite (State.except 4202753),
      apply_ite Prod.snd, apply_ite Prod.fst, ite_self, Nat.reduceAnd, foldl_same, foldl_same2, foldl_same1]

theorem State.grantTo_same (m : Nat) (h : 37757227 &&& m = 37757227) (a0 : State) (a1 : ℕ) (a2 : ℕ) (a3 : ℕ) :
    State.except m (State.grantTo a0 a1 a2 a3) = State.except m a0 := by
  refine except_mono h ?_
  unfold State.grantTo
  (try simp only [State.grantEnd_same, State.movePage_same, State.wr_same, State.unitGrant_same, State.setPlm_same,
      apply_ite (State.except 37757227), apply_ite Prod.snd, apply_ite Prod.fst, ite_self, Nat.reduceAnd, foldl_same,
      foldl_same2, foldl_same1])
  repeat' split
  all_goals (try simp only [State.grantEnd_same, State.movePage_same, State.wr_same, State.unitGrant_same,
      State.setPlm_same, apply_ite (State.except 37757227), apply_ite Prod.snd, apply_ite Prod.fst, ite_self,
      Nat.reduceAnd, foldl_same, foldl_same2, foldl_same1])

theorem State.revokeTold_same (m : Nat) (h : 8449 &&& m = 8449) (a0 : State) (a1 : ℕ) (a2 : ℕ) (a3 : ℕ) (a4 : ℕ) :
    State.except m (State.revokeTold a0 a1 a2 a3 a4) = State.except m a0 := by
  refine except_mono h ?_
  unfold State.revokeTold
  simp only [State.log_same, State.ringRecord_same, apply_ite (State.except 8449), apply_ite Prod.snd, apply_ite
      Prod.fst, ite_self, Nat.reduceAnd, foldl_same, foldl_same2, foldl_same1]

theorem State.readKeyRecord_same (m : Nat) (h : 4194561 &&& m = 4194561) (a0 : State) (a1 : ℕ) (a2 : ℕ) :
    State.except m (State.readKeyRecord a0 a1 a2).2 = State.except m a0 := by
  refine except_mono h ?_
  unfold State.readKeyRecord
  (try simp only [State.celReadRun_same, apply_ite (State.except 4194561), apply_ite Prod.snd, apply_ite Prod.fst,
      ite_self, Nat.reduceAnd, foldl_same, foldl_same2, foldl_same1])
  repeat' split
  all_goals (try simp only [State.celReadRun_same, apply_ite (State.except 4194561), apply_ite Prod.snd, apply_ite
      Prod.fst, ite_self, Nat.reduceAnd, foldl_same, foldl_same2, foldl_same1])

theorem State.persist_same (m : Nat) (h : 4194561 &&& m = 4194561) (a0 : State) (a1 : ℕ) :
    State.except m (State.persist a0 a1) = State.except m a0 := by
  refine except_mono h ?_
  unfold State.persist
  simp only [State.readKeyRecord_same, State.devWrite_same, apply_ite (State.except 4194561), apply_ite Prod.snd,
      apply_ite Prod.fst, ite_self, Nat.reduceAnd, foldl_same, foldl_same2, foldl_same1]

theorem State.slotShow_same (m : Nat) (h : 1 &&& m = 1) (a0 : State) (a1 : ℕ) :
    State.except m (State.slotShow a0 a1) = State.except m a0 := by
  refine except_mono h ?_
  unfold State.slotShow
  simp only [State.wr_same, apply_ite (State.except 1), apply_ite Prod.snd, apply_ite Prod.fst, ite_self,
      Nat.reduceAnd, foldl_same, foldl_same2, foldl_same1]

theorem State.settleErases_same (m : Nat) (h : 34628182273 &&& m = 34628182273) (a0 : State) :
    State.except m (State.settleErases a0) = State.except m a0 := by
  refine except_mono h ?_
  unfold State.settleErases
  dsimp only
  try simp only [Nat.reduceAnd]
  refine (foldl_same _ _ (fun t x => ?_) _ _)
  · (repeat' split) <;> simp only [State.setSec_same, State.raise_same, State.slotShow_same, State.log_same,
      State.secRecord_same, State.count_same, State.grantEnd_same, apply_ite (State.except 34628182273), apply_ite
      Prod.snd, apply_ite Prod.fst, ite_self, Nat.reduceAnd, foldl_same, foldl_same2, foldl_same1]

theorem State.eraseSlot_same (m : Nat) (h : 34632376577 &&& m = 34632376577) (a0 : State) (a1 : ℕ) (a2 : Option
    RingItem) (a3 : Bool) (a4 : ℕ) :
    State.except m (State.eraseSlot a0 a1 a2 a3 a4) = State.except m a0 := by
  refine except_mono h ?_
  unfold State.eraseSlot
  simp only [State.wr_same, State.setSec_same, State.persist_same, State.settleErases_same, State.slotShow_same,
      apply_ite (State.except 34632376577), apply_ite Prod.snd, apply_ite Prod.fst, ite_self, Nat.reduceAnd,
      foldl_same, foldl_same2, foldl_same1]

theorem State.unitRevoke_same (m : Nat) (h : 4194305 &&& m = 4194305) (a0 : State) (a1 : ℕ) (a2 : Bool) :
    State.except m (State.unitRevoke a0 a1 a2) = State.except m a0 := by
  refine except_mono h ?_
  unfold State.unitRevoke
  simp only [State.startWipe_same, apply_ite (State.except 4194305), apply_ite Prod.snd, apply_ite Prod.fst, ite_self,
      Nat.reduceAnd, foldl_same, foldl_same2, foldl_same1]

theorem State.setNode_same (m : Nat) (h : 33554432 &&& m = 33554432) (a0 : State) (a1 : ℕ) (a2 : NodeEntry →
    NodeEntry) :
    State.except m (State.setNode a0 a1 a2) = State.except m a0 := by
  refine except_mono h ?_
  unfold State.setNode
  simp only [State.setPlm_same, apply_ite (State.except 33554432), apply_ite Prod.snd, apply_ite Prod.fst, ite_self,
      Nat.reduceAnd, foldl_same, foldl_same2, foldl_same1]

theorem State.partner_same (m : Nat) (h : 33554433 &&& m = 33554433) (a0 : State) (a1 : ℕ) (a2 : ℕ) :
    State.except m (State.partner a0 a1 a2) = State.except m a0 := by
  refine except_mono h ?_
  unfold State.partner
  simp only [State.wr_same, State.setPlm_same, apply_ite (State.except 33554433), apply_ite Prod.snd, apply_ite
      Prod.fst, ite_self, Nat.reduceAnd, foldl_same, foldl_same2, foldl_same1]

theorem State.tellGrant_same (m : Nat) (h : 33554689 &&& m = 33554689) (a0 : State) (a1 : ℕ) (a2 : ℕ) (a3 : ℕ) (a4 :
    ℕ) :
    State.except m (State.tellGrant a0 a1 a2 a3 a4) = State.except m a0 := by
  refine except_mono h ?_
  unfold State.tellGrant
  simp only [State.log_same, State.partner_same, apply_ite (State.except 33554689), apply_ite Prod.snd, apply_ite
      Prod.fst, ite_self, Nat.reduceAnd, foldl_same, foldl_same2, foldl_same1]

theorem State.enqueue_same (m : Nat) (h : 33554432 &&& m = 33554432) (a0 : State) (a1 : TxFrame) :
    State.except m (State.enqueue a0 a1) = State.except m a0 := by
  refine except_mono h ?_
  unfold State.enqueue
  simp only [State.setPlm_same, apply_ite (State.except 33554432), apply_ite Prod.snd, apply_ite Prod.fst, ite_self,
      Nat.reduceAnd, foldl_same, foldl_same2, foldl_same1]

theorem State.sendMgmt_same (m : Nat) (h : 33554432 &&& m = 33554432) (a0 : State) (a1 : ℕ) (a2 : List Byte) :
    State.except m (State.sendMgmt a0 a1 a2) = State.except m a0 := by
  refine except_mono h ?_
  unfold State.sendMgmt
  simp only [State.enqueue_same, apply_ite (State.except 33554432), apply_ite Prod.snd, apply_ite Prod.fst, ite_self,
      Nat.reduceAnd, foldl_same, foldl_same2, foldl_same1]

theorem State.revokeGrant_same (m : Nat) (h : 33554689 &&& m = 33554689) (a0 : State) (a1 : ℕ) :
    State.except m (State.revokeGrant a0 a1) = State.except m a0 := by
  refine except_mono h ?_
  unfold State.revokeGrant
  (try simp only [State.setNode_same, State.tellGrant_same, State.sendMgmt_same, apply_ite (State.except 33554689),
      apply_ite Prod.snd, apply_ite Prod.fst, ite_self, Nat.reduceAnd, foldl_same, foldl_same2, foldl_same1])
  repeat' split
  all_goals (try simp only [State.setNode_same, State.tellGrant_same, State.sendMgmt_same, apply_ite (State.except
      33554689), apply_ite Prod.snd, apply_ite Prod.fst, ite_self, Nat.reduceAnd, foldl_same, foldl_same2,
      foldl_same1])

theorem State.srqFlush_same (m : Nat) (h : 33554433 &&& m = 33554433) (a0 : ℕ) (a1 : State) :
    State.except m (State.srqFlush a0 a1) = State.except m a1 := by
  refine except_mono h ?_
  induction a0 generalizing a1 with
  | zero => rfl
  | succ n ih =>
    unfold State.srqFlush
    (repeat' split) <;> simp only [ih, State.wr_same, State.setPlm_same, apply_ite (State.except 33554433), apply_ite
        Prod.snd, apply_ite Prod.fst, ite_self, Nat.reduceAnd, foldl_same, foldl_same2, foldl_same1]

theorem State.postSched_same (m : Nat) (h : 33554433 &&& m = 33554433) (a0 : State) (a1 : SchedReq) :
    State.except m (State.postSched a0 a1) = State.except m a0 := by
  refine except_mono h ?_
  unfold State.postSched
  simp only [State.srqFlush_same, State.setPlm_same, apply_ite (State.except 33554433), apply_ite Prod.snd, apply_ite
      Prod.fst, ite_self, Nat.reduceAnd, foldl_same, foldl_same2, foldl_same1]

theorem State.setPlp_same (m : Nat) (h : 16777216 &&& m = 16777216) (a0 : State) (a1 : PlpState → PlpState) :
    State.except m (State.setPlp a0 a1) = State.except m a0 := by
  refine except_mono h ?_
  simp only [State.except, setPlp_frame]
  rfl

theorem State.setStream_same (m : Nat) (h : 16777216 &&& m = 16777216) (a0 : State) (a1 : ℕ) (a2 : PlpStream →
    PlpStream) :
    State.except m (State.setStream a0 a1 a2) = State.except m a0 := by
  refine except_mono h ?_
  unfold State.setStream
  simp only [State.setPlp_same, apply_ite (State.except 16777216), apply_ite Prod.snd, apply_ite Prod.fst, ite_self,
      Nat.reduceAnd, foldl_same, foldl_same2, foldl_same1]

theorem State.dropEntry_same (m : Nat) (h : 50331649 &&& m = 50331649) (a0 : State) (a1 : ℕ) (a2 : ℕ) :
    State.except m (State.dropEntry a0 a1 a2) = State.except m a0 := by
  refine except_mono h ?_
  unfold State.dropEntry
  simp only [State.setPlm_same, State.postSched_same, State.setStream_same, apply_ite (State.except 50331649),
      apply_ite Prod.snd, apply_ite Prod.fst, ite_self, Nat.reduceAnd, foldl_same, foldl_same2, foldl_same1]

theorem State.departNode_same (m : Nat) (h : 34410078465 &&& m = 34410078465) (a0 : State) (a1 : NodeEntry) :
    State.except m (State.departNode a0 a1) = State.except m a0 := by
  refine except_mono h ?_
  unfold State.departNode
  (try simp only [State.revokeGrant_same, State.endNodeDown_same, State.setPlm_same, State.log_same,
      State.partner_same, State.dropEntry_same, apply_ite (State.except 34410078465), apply_ite Prod.snd, apply_ite
      Prod.fst, ite_self, Nat.reduceAnd, foldl_same, foldl_same2, foldl_same1])
  repeat' split
  all_goals (try simp [State.revokeGrant_same, State.endNodeDown_same, State.setPlm_same, State.log_same,
      State.partner_same, State.dropEntry_same, apply_ite (State.except 34410078465), apply_ite Prod.snd, apply_ite
      Prod.fst, ite_self, Nat.reduceAnd, foldl_same, foldl_same2, foldl_same1])

theorem State.plmUnbind_same (m : Nat) (h : 34410078465 &&& m = 34410078465) (a0 : State) (a1 : ℕ) :
    State.except m (State.plmUnbind a0 a1) = State.except m a0 := by
  refine except_mono h ?_
  unfold State.plmUnbind
  (try simp only [State.departNode_same, apply_ite (State.except 34410078465), apply_ite Prod.snd, apply_ite Prod.fst,
      ite_self, Nat.reduceAnd, foldl_same, foldl_same2, foldl_same1])
  repeat' split
  all_goals (try simp [State.departNode_same, apply_ite (State.except 34410078465), apply_ite Prod.snd, apply_ite
      Prod.fst, ite_self, Nat.reduceAnd, foldl_same, foldl_same2, foldl_same1])

theorem State.plmErase_same (m : Nat) (h : 34393300993 &&& m = 34393300993) (a0 : State) (a1 : ℕ) :
    State.except m (State.plmErase a0 a1) = State.except m a0 := by
  refine except_mono h ?_
  unfold State.plmErase
  (try simp only [State.setPlm_same, State.wr_same, State.endFrame_same, apply_ite (State.except 34393300993),
      apply_ite Prod.snd, apply_ite Prod.fst, ite_self, Nat.reduceAnd, foldl_same, foldl_same2, foldl_same1])
  repeat' split
  all_goals (try simp [State.setPlm_same, State.wr_same, State.endFrame_same, apply_ite (State.except 34393300993),
      apply_ite Prod.snd, apply_ite Prod.fst, ite_self, Nat.reduceAnd, foldl_same, foldl_same2, foldl_same1])

theorem State.dropEndpoint_same (m : Nat) (h : 34410078465 &&& m = 34410078465) (a0 : State) (a1 : ℕ) :
    State.except m (State.dropEndpoint a0 a1) = State.except m a0 := by
  refine except_mono h ?_
  unfold State.dropEndpoint
  (try simp only [State.endFrame_same, State.setPlm_same, State.plmUnbind_same, State.plmErase_same, apply_ite
      (State.except 34410078465), apply_ite Prod.snd, apply_ite Prod.fst, ite_self, Nat.reduceAnd, foldl_same,
      foldl_same2, foldl_same1])
  repeat' split
  all_goals (try simp [State.endFrame_same, State.setPlm_same, State.plmUnbind_same, State.plmErase_same, apply_ite
      (State.except 34410078465), apply_ite Prod.snd, apply_ite Prod.fst, ite_self, Nat.reduceAnd, foldl_same,
      foldl_same2, foldl_same1])

theorem State.revoke_same (m : Nat) (h : 34682708267 &&& m = 34682708267) (a0 : State) (a1 : Bool) (a2 : ℕ) (a3 : ℕ)
    (a4 : ℕ) :
    State.except m (State.revoke a0 a1 a2 a3 a4) = State.except m a0 := by
  refine except_mono h ?_
  unfold State.revoke
  (try simp only [State.grantEnd_same, State.revokeTold_same, State.movePage_same, State.eraseSlot_same,
      State.wr_same, State.unitRevoke_same, State.dropEndpoint_same, apply_ite (State.except 34682708267), apply_ite
      Prod.snd, apply_ite Prod.fst, ite_self, Nat.reduceAnd, foldl_same, foldl_same2, foldl_same1])
  repeat' split
  all_goals (try simp only [State.grantEnd_same, State.revokeTold_same, State.movePage_same, State.eraseSlot_same,
      State.wr_same, State.unitRevoke_same, State.dropEndpoint_same, apply_ite (State.except 34682708267), apply_ite
      Prod.snd, apply_ite Prod.fst, ite_self, Nat.reduceAnd, foldl_same, foldl_same2, foldl_same1])

theorem State.grantCommand_same (m : Nat) (h : 34682708267 &&& m = 34682708267) (a0 : State) (a1 : ℕ) :
    State.except m (State.grantCommand a0 a1).2 = State.except m a0 := by
  refine except_mono h ?_
  unfold State.grantCommand
  simp only [State.wr_same, State.setTnc_same, State.grantTo_same, State.revoke_same, apply_ite (State.except
      34682708267), apply_ite Prod.snd, apply_ite Prod.fst, ite_self, Nat.reduceAnd, foldl_same, foldl_same2,
      foldl_same1]

theorem State.sealFailed_same (m : Nat) (h : 8193 &&& m = 8193) (a0 : State) (a1 : Status) :
    State.except m (State.sealFailed a0 a1) = State.except m a0 := by
  refine except_mono h ?_
  unfold State.sealFailed
  simp only [State.setTnc_same, State.wr_same, apply_ite (State.except 8193), apply_ite Prod.snd, apply_ite Prod.fst,
      ite_self, Nat.reduceAnd, foldl_same, foldl_same2, foldl_same1]

theorem State.celLost_same (m : Nat) (h : 4194305 &&& m = 4194305) (a0 : State) (a1 : ℕ) (a2 : ℕ) (a3 : ℕ) (a4 : ℕ) :
    State.except m (State.celLost a0 a1 a2 a3 a4) = State.except m a0 := by
  refine except_mono h ?_
  unfold State.celLost
  simp only [State.raise_same, State.setCel_same, apply_ite (State.except 4194305), apply_ite Prod.snd, apply_ite
      Prod.fst, ite_self, Nat.reduceAnd, foldl_same, foldl_same2, foldl_same1]

theorem State.devWriteCut_same (m : Nat) (h : 4194305 &&& m = 4194305) (a0 : State) (a1 : ℕ) (a2 : ℕ) (a3 : ℕ) (a4 :
    ℕ) (a5 : List ℕ) :
    State.except m (State.devWriteCut a0 a1 a2 a3 a4 a5) = State.except m a0 := by
  refine except_mono h ?_
  unfold State.devWriteCut
  simp only [State.celLost_same, State.celWriteRun_same, apply_ite (State.except 4194305), apply_ite Prod.snd,
      apply_ite Prod.fst, ite_self, Nat.reduceAnd, foldl_same, foldl_same2, foldl_same1]

theorem State.setSealed_same (m : Nat) (h : 1 &&& m = 1) (a0 : State) (a1 : ℕ) (a2 : Bool) :
    State.except m (State.setSealed a0 a1 a2) = State.except m a0 := by
  refine except_mono h ?_
  unfold State.setSealed
  simp only [State.wr_same, apply_ite (State.except 1), apply_ite Prod.snd, apply_ite Prod.fst, ite_self,
      Nat.reduceAnd, foldl_same, foldl_same2, foldl_same1]

theorem State.sealPages_same (m : Nat) (h : 257 &&& m = 257) (a0 : State) :
    State.except m (State.sealPages a0) = State.except m a0 := by
  refine except_mono h ?_
  unfold State.sealPages
  (try simp only [State.setSealed_same, State.setHeld_same, apply_ite (State.except 257), apply_ite Prod.snd,
      apply_ite Prod.fst, ite_self, Nat.reduceAnd, foldl_same, foldl_same2, foldl_same1])
  repeat' split
  all_goals (try simp [State.setSealed_same, State.setHeld_same, apply_ite (State.except 257), apply_ite Prod.snd,
      apply_ite Prod.fst, ite_self, Nat.reduceAnd, foldl_same, foldl_same2, foldl_same1])

theorem State.sealRequest_same (m : Nat) (h : 4202753 &&& m = 4202753) (a0 : State) (a1 : Option ℕ) :
    State.except m (State.sealRequest a0 a1).2 = State.except m a0 := by
  refine except_mono h ?_
  unfold State.sealRequest
  (try simp only [State.sealFailed_same, State.devWriteCut_same, State.sealPages_same, State.celWriteRun_same,
      State.setTnc_same, State.wr_same, apply_ite (State.except 4202753), apply_ite Prod.snd, apply_ite Prod.fst,
      ite_self, Nat.reduceAnd, foldl_same, foldl_same2, foldl_same1])
  repeat' split
  all_goals (try simp only [State.sealFailed_same, State.devWriteCut_same, State.sealPages_same,
      State.celWriteRun_same, State.setTnc_same, State.wr_same, apply_ite (State.except 4202753), apply_ite Prod.snd,
      apply_ite Prod.fst, ite_self, Nat.reduceAnd, foldl_same, foldl_same2, foldl_same1])

theorem State.showSealed_same (m : Nat) (h : 1 &&& m = 1) (a0 : State) (a1 : Bool) :
    State.except m (State.showSealed a0 a1) = State.except m a0 := by
  refine except_mono h ?_
  unfold State.showSealed
  repeat' (first | rfl | simp only [State.wr_same, apply_ite (State.except 1), apply_ite Prod.snd, apply_ite Prod.fst,
      ite_self, Nat.reduceAnd, foldl_same, foldl_same2, foldl_same1] | split)

theorem State.unsealPages_same (m : Nat) (h : 1 &&& m = 1) (a0 : State) :
    State.except m (State.unsealPages a0) = State.except m a0 := by
  refine except_mono h ?_
  unfold State.unsealPages
  (try simp only [State.setSealed_same, apply_ite (State.except 1), apply_ite Prod.snd, apply_ite Prod.fst, ite_self,
      Nat.reduceAnd, foldl_same, foldl_same2, foldl_same1])
  repeat' split
  all_goals (try simp [State.setSealed_same, apply_ite (State.except 1), apply_ite Prod.snd, apply_ite Prod.fst,
      ite_self, Nat.reduceAnd, foldl_same, foldl_same2, foldl_same1])

theorem State.ringAll_same (m : Nat) (h : 8193 &&& m = 8193) (a0 : State) (a1 : ℕ) (a2 : ℕ) (a3 : ℕ) (a4 : ℕ) :
    State.except m (State.ringAll a0 a1 a2 a3 a4) = State.except m a0 := by
  refine except_mono h ?_
  unfold State.ringAll
  (try simp only [State.ringRecord_same, apply_ite (State.except 8193), apply_ite Prod.snd, apply_ite Prod.fst,
      ite_self, Nat.reduceAnd, foldl_same, foldl_same2, foldl_same1])
  repeat' split
  all_goals (try simp [State.ringRecord_same, apply_ite (State.except 8193), apply_ite Prod.snd, apply_ite Prod.fst,
      ite_self, Nat.reduceAnd, foldl_same, foldl_same2, foldl_same1])

theorem State.unsealRequest_same (m : Nat) (h : 4202753 &&& m = 4202753) (a0 : State) :
    State.except m (State.unsealRequest a0).2 = State.except m a0 := by
  refine except_mono h ?_
  unfold State.unsealRequest
  simp only [State.setTnc_same, State.wr_same, State.devWrite_same, State.showSealed_same, State.unsealPages_same,
      State.log_same, State.ringAll_same, apply_ite (State.except 4202753), apply_ite Prod.snd, apply_ite Prod.fst,
      ite_self, Nat.reduceAnd, foldl_same, foldl_same2, foldl_same1]

theorem State.sealBits_same (m : Nat) (h : 4202753 &&& m = 4202753) (a0 : State) (a1 : ℕ) (a2 : Option ℕ) :
    State.except m (State.sealBits a0 a1 a2).2 = State.except m a0 := by
  refine except_mono h ?_
  unfold State.sealBits
  simp only [State.sealRequest_same, State.setTnc_same, State.unsealRequest_same, apply_ite (State.except 4202753),
      apply_ite Prod.snd, apply_ite Prod.fst, ite_self, Nat.reduceAnd, foldl_same, foldl_same2, foldl_same1]

theorem quotaWrite_same (m : Nat) (h : 297 &&& m = 297)  :
    ∀ (s : State) (q : Req) (d : Nat), State.except m (quotaWrite s q d).2 = State.except m s := by
  intro s q d
  refine except_mono h ?_
  unfold quotaWrite
  simp only [plainWrite_same, State.storeWord_same, State.viewRemoved_same, apply_ite (State.except 297), apply_ite
      Prod.snd, apply_ite Prod.fst, ite_self, Nat.reduceAnd, foldl_same, foldl_same2, foldl_same1]

theorem State.aliasWrite_same (m : Nat) (h : 8193 &&& m = 8193) (a0 : State) (a1 : ℕ) :
    State.except m (State.aliasWrite a0 a1).2 = State.except m a0 := by
  refine except_mono h ?_
  unfold State.aliasWrite
  simp only [State.wr_same, State.setTnc_same, apply_ite (State.except 8193), apply_ite Prod.snd, apply_ite Prod.fst,
      ite_self, Nat.reduceAnd, foldl_same, foldl_same2, foldl_same1]

theorem State.softReset_same (m : Nat) (h : 34666979585 &&& m = 34666979585) (a0 : State) (a1 : ℕ) :
    State.except m (State.softReset a0 a1).2 = State.except m a0 := by
  refine except_mono h ?_
  unfold State.softReset
  simp only [State.resetTenant_same, apply_ite (State.except 34666979585), apply_ite Prod.snd, apply_ite Prod.fst,
      ite_self, Nat.reduceAnd, foldl_same, foldl_same2, foldl_same1]

theorem tncWriter_same (m : Nat) (h : 34683756843 &&& m = 34683756843) (a0 : Option ℕ) :
    ∀ (s : State) (q : Req) (d : Nat), State.except m (tncWriter a0 s q d).2 = State.except m s := by
  intro s q d
  refine except_mono h ?_
  unfold tncWriter
  (try simp only [State.tenantCommand_same, State.grantCommand_same, State.sealBits_same, plainWrite_same,
      quotaWrite_same, State.aliasWrite_same, State.softReset_same, apply_ite (State.except 34683756843), apply_ite
      Prod.snd, apply_ite Prod.fst, ite_self, Nat.reduceAnd, foldl_same, foldl_same2, foldl_same1])
  repeat' split
  all_goals (try simp only [State.tenantCommand_same, State.grantCommand_same, State.sealBits_same, plainWrite_same,
      quotaWrite_same, State.aliasWrite_same, State.softReset_same, apply_ite (State.except 34683756843), apply_ite
      Prod.snd, apply_ite Prod.fst, ite_self, Nat.reduceAnd, foldl_same, foldl_same2, foldl_same1])

theorem State.ctfCode_same (m : Nat) (h : 1 &&& m = 1) (a0 : Status × State) :
    State.except m (State.ctfCode a0).2 = State.except m a0.2 := by
  refine except_mono h ?_
  unfold State.ctfCode
  simp only [State.wr_same, apply_ite (State.except 1), apply_ite Prod.snd, apply_ite Prod.fst, ite_self,
      Nat.reduceAnd, foldl_same, foldl_same2, foldl_same1]

theorem State.showQual_same (m : Nat) (h : 1 &&& m = 1) (a0 : State) :
    State.except m (State.showQual a0) = State.except m a0 := by
  refine except_mono h ?_
  unfold State.showQual
  simp only [State.wr_same, apply_ite (State.except 1), apply_ite Prod.snd, apply_ite Prod.fst, ite_self,
      Nat.reduceAnd, foldl_same, foldl_same2, foldl_same1]

theorem State.acquireOn_same (m : Nat) (h : 4097 &&& m = 4097) (a0 : State) (a1 : ℕ) :
    State.except m (State.acquireOn a0 a1) = State.except m a0 := by
  refine except_mono h ?_
  unfold State.acquireOn
  simp only [State.wr_same, State.showQual_same, except_upd_ctf, apply_ite (State.except 4097), apply_ite Prod.snd,
      apply_ite Prod.fst, ite_self, Nat.reduceAnd, foldl_same, foldl_same2, foldl_same1]

theorem State.seek_same (m : Nat) (h : 4097 &&& m = 4097) (a0 : State) :
    State.except m (State.seek a0) = State.except m a0 := by
  refine except_mono h ?_
  unfold State.seek
  (try simp only [State.acquireOn_same, apply_ite (State.except 4097), apply_ite Prod.snd, apply_ite Prod.fst,
      ite_self, Nat.reduceAnd, foldl_same, foldl_same2, foldl_same1])
  repeat' split
  all_goals (try simp only [State.acquireOn_same, apply_ite (State.except 4097), apply_ite Prod.snd, apply_ite
      Prod.fst, ite_self, Nat.reduceAnd, foldl_same, foldl_same2, foldl_same1])

theorem State.commitCode_same (m : Nat) (h : 1 &&& m = 1) (a0 : State) (a1 : Status) :
    State.except m (State.commitCode a0 a1) = State.except m a0 := by
  refine except_mono h ?_
  unfold State.commitCode
  simp only [State.raise_same, State.wr_same, apply_ite (State.except 1), apply_ite Prod.snd, apply_ite Prod.fst,
      ite_self, Nat.reduceAnd, foldl_same, foldl_same2, foldl_same1]

theorem State.schedCommit_same (m : Nat) (h : 4097 &&& m = 4097) (a0 : State) :
    State.except m (State.schedCommit a0) = State.except m a0 := by
  refine except_mono h ?_
  unfold State.schedCommit
  (try simp only [State.commitCode_same, State.wr_same, except_upd_ctf, apply_ite (State.except 4097), apply_ite
      Prod.snd, apply_ite Prod.fst, ite_self, Nat.reduceAnd, foldl_same, foldl_same2, foldl_same1])
  repeat' split
  all_goals (try simp only [State.commitCode_same, State.wr_same, except_upd_ctf, apply_ite (State.except 4097),
      apply_ite Prod.snd, apply_ite Prod.fst, ite_self, Nat.reduceAnd, foldl_same, foldl_same2, foldl_same1])

theorem ctfWrite_same (m : Nat) (h : 4137 &&& m = 4137)  :
    ∀ (s : State) (q : Req) (d : Nat), State.except m (ctfWrite s q d).2 = State.except m s := by
  intro s q d
  refine except_mono h ?_
  unfold ctfWrite
  repeat' (first | rfl | simp only [State.ctfCode_same, plainWrite_same, State.seek_same, State.leaveLocked_same,
      State.wr_same, State.schedCommit_same, except_upd_ctf, except_upd_hold, apply_ite (State.except 4137), apply_ite
      Prod.snd, apply_ite Prod.fst, ite_self, Nat.reduceAnd, foldl_same, foldl_same2, foldl_same1] | split)

theorem storeIf_same (m : Nat) (h : 41 &&& m = 41) (a0 : Bool) :
    ∀ (s : State) (q : Req) (d : Nat), State.except m (storeIf a0 s q d).2 = State.except m s := by
  intro s q d
  refine except_mono h ?_
  unfold storeIf
  simp only [plainWrite_same, apply_ite (State.except 41), apply_ite Prod.snd, apply_ite Prod.fst, ite_self,
      Nat.reduceAnd, foldl_same, foldl_same2, foldl_same1]

theorem State.calStart_same (m : Nat) (h : 16385 &&& m = 16385) (a0 : State) (a1 : Bool) :
    State.except m (State.calStart a0 a1).2 = State.except m a0 := by
  refine except_mono h ?_
  unfold State.calStart
  simp only [State.wr_same, except_upd_acs, apply_ite (State.except 16385), apply_ite Prod.snd, apply_ite Prod.fst,
      ite_self, Nat.reduceAnd, foldl_same, foldl_same2, foldl_same1]

theorem acsWrite_same (m : Nat) (h : 16425 &&& m = 16425)  :
    ∀ (s : State) (q : Req) (d : Nat), State.except m (acsWrite s q d).2 = State.except m s := by
  intro s q d
  refine except_mono h ?_
  unfold acsWrite
  (try simp only [storeIf_same, State.calStart_same, plainWrite_same, State.storeWord_same, State.calDisturb_same,
      State.setConv_same, except_upd_acs, apply_ite (State.except 16425), apply_ite Prod.snd, apply_ite Prod.fst,
      ite_self, Nat.reduceAnd, foldl_same, foldl_same2, foldl_same1])
  repeat' split
  all_goals (try simp [storeIf_same, State.calStart_same, plainWrite_same, State.storeWord_same,
      State.calDisturb_same, State.setConv_same, except_upd_acs, apply_ite (State.except 16425), apply_ite Prod.snd,
      apply_ite Prod.fst, ite_self, Nat.reduceAnd, foldl_same, foldl_same2, foldl_same1])

theorem mteWrite_same (m : Nat) (h : 41 &&& m = 41)  :
    ∀ (s : State) (q : Req) (d : Nat), State.except m (mteWrite s q d).2 = State.except m s := by
  intro s q d
  refine except_mono h ?_
  unfold mteWrite
  simp only [plainWrite_same, storeIf_same, State.wr_same, apply_ite (State.except 41), apply_ite Prod.snd, apply_ite
      Prod.fst, ite_self, Nat.reduceAnd, foldl_same, foldl_same2, foldl_same1]

theorem pqeWrite_same (m : Nat) (h : 41 &&& m = 41)  :
    ∀ (s : State) (q : Req) (d : Nat), State.except m (pqeWrite s q d).2 = State.except m s := by
  intro s q d
  refine except_mono h ?_
  unfold pqeWrite
  (try simp only [plainWrite_same, storeIf_same, State.wr_same, apply_ite (State.except 41), apply_ite Prod.snd,
      apply_ite Prod.fst, ite_self, Nat.reduceAnd, foldl_same, foldl_same2, foldl_same1])
  repeat' split
  all_goals (try simp only [plainWrite_same, storeIf_same, State.wr_same, apply_ite (State.except 41), apply_ite
      Prod.snd, apply_ite Prod.fst, ite_self, Nat.reduceAnd, foldl_same, foldl_same2, foldl_same1])

theorem lowWrite_same (m : Nat) (h : 34683842859 &&& m = 34683842859)  :
    ∀ (s : State) (q : Req) (d : Nat), State.except m (lowWrite s q d).2 = State.except m s := by
  intro s q d
  refine except_mono h ?_
  unfold lowWrite
  simp only [plainWrite_same, tncWriter_same, ctfWrite_same, acsWrite_same, mteWrite_same, accWrite_same,
      plsWrite_same, pqeWrite_same, apply_ite (State.except 34683842859), apply_ite Prod.snd, apply_ite Prod.fst,
      ite_self, Nat.reduceAnd, foldl_same, foldl_same2, foldl_same1]

theorem State.setTun_same (m : Nat) (h : 262144 &&& m = 262144) (a0 : State) (a1 : TunState → TunState) :
    State.except m (State.setTun a0 a1) = State.except m a0 := by
  refine except_mono h ?_
  simp only [State.except, setTun_frame]
  rfl

theorem State.invalidate_same (m : Nat) (h : 262145 &&& m = 262145) (a0 : State) (a1 : ℕ) :
    State.except m (State.invalidate a0 a1) = State.except m a0 := by
  refine except_mono h ?_
  unfold State.invalidate
  simp only [State.raise_same, State.wr_same, State.setTun_same, apply_ite (State.except 262145), apply_ite Prod.snd,
      apply_ite Prod.fst, ite_self, Nat.reduceAnd, foldl_same, foldl_same2, foldl_same1]

theorem State.resClear_same (m : Nat) (h : 262145 &&& m = 262145) (a0 : State) (a1 : ℕ) :
    State.except m (State.resClear a0 a1) = State.except m a0 := by
  refine except_mono h ?_
  unfold State.resClear
  simp only [State.setTun_same, State.invalidate_same, apply_ite (State.except 262145), apply_ite Prod.snd, apply_ite
      Prod.fst, ite_self, Nat.reduceAnd, foldl_same, foldl_same2, foldl_same1]

theorem State.burstEnd_same (m : Nat) (h : 262145 &&& m = 262145) (a0 : State) (a1 : Burst) (a2 : Status) :
    State.except m (State.burstEnd a0 a1 a2) = State.except m a0 := by
  refine except_mono h ?_
  unfold State.burstEnd
  simp only [State.wr_same, State.raise_same, State.setTun_same, apply_ite (State.except 262145), apply_ite Prod.snd,
      apply_ite Prod.fst, ite_self, Nat.reduceAnd, foldl_same, foldl_same2, foldl_same1]

theorem State.admit_same (m : Nat) (h : 8193 &&& m = 8193) (a0 : State) (a1 : ℕ) (a2 : ℕ) (a3 : ℕ) :
    ∀ o, State.takeQuota a0 a1 a2 a3 = some o → State.except m o = State.except m a0 := by
  intro o h'
  refine except_mono h ?_
  unfold State.takeQuota at h'
  split at h'
  · cases h'
  · cases h'; simp only [State.quotaPut_same, Nat.reduceAnd]

theorem State.burstArm_same (m : Nat) (h : 270337 &&& m = 270337) (a0 : State) :
    State.except m (State.burstArm a0).2 = State.except m a0 := by
  refine except_mono h ?_
  unfold State.burstArm
  try dsimp only
  repeat' split
  all_goals first
    | (simp only [State.burstEnd_same, State.admit_same, State.outcome_same, State.setTun_same, State.wr_same,
        apply_ite (State.except 270337), apply_ite Prod.snd, apply_ite Prod.fst, ite_self, Nat.reduceAnd, foldl_same,
        foldl_same2, foldl_same1]; done)
    | (try simp only [State.burstEnd_same, State.admit_same, State.outcome_same, State.setTun_same, State.wr_same,
        apply_ite (State.except 270337), apply_ite Prod.snd, apply_ite Prod.fst, ite_self, Nat.reduceAnd, foldl_same,
        foldl_same2, foldl_same1]
       exact State.admit_same 270337 rfl _ _ _ _ _ (by assumption))

theorem tunWrite_same (m : Nat) (h : 270377 &&& m = 270377)  :
    ∀ (s : State) (q : Req) (d : Nat), State.except m (tunWrite s q d).2 = State.except m s := by
  intro s q d
  refine except_mono h ?_
  unfold tunWrite
  (try simp only [State.wr_same, State.resClear_same, plainWrite_same, storeIf_same, State.burstArm_same, apply_ite
      (State.except 270377), apply_ite Prod.snd, apply_ite Prod.fst, ite_self, Nat.reduceAnd, foldl_same, foldl_same2,
      foldl_same1])
  repeat' split
  all_goals (try simp only [State.wr_same, State.resClear_same, plainWrite_same, storeIf_same, State.burstArm_same,
      apply_ite (State.except 270377), apply_ite Prod.snd, apply_ite Prod.fst, ite_self, Nat.reduceAnd, foldl_same,
      foldl_same2, foldl_same1])

theorem State.setLtr_same (m : Nat) (h : 524288 &&& m = 524288) (a0 : State) (a1 : LtrState → LtrState) :
    State.except m (State.setLtr a0 a1) = State.except m a0 := by
  refine except_mono h ?_
  simp only [State.except, setLtr_frame]
  rfl

theorem State.weightCommit_same (m : Nat) (h : 524289 &&& m = 524289) (a0 : State) :
    State.except m (State.weightCommit a0).2 = State.except m a0 := by
  refine except_mono h ?_
  unfold State.weightCommit
  (try simp only [State.raise_same, State.setReg_same, State.wr_same, State.setLtr_same, apply_ite (State.except
      524289), apply_ite Prod.snd, apply_ite Prod.fst, ite_self, Nat.reduceAnd, foldl_same, foldl_same2, foldl_same1])
  repeat' split
  all_goals (try simp [State.raise_same, State.setReg_same, State.wr_same, State.setLtr_same, apply_ite (State.except
      524289), apply_ite Prod.snd, apply_ite Prod.fst, ite_self, Nat.reduceAnd, foldl_same, foldl_same2, foldl_same1])

theorem ltrWrite_same (m : Nat) (h : 524329 &&& m = 524329)  :
    ∀ (s : State) (q : Req) (d : Nat), State.except m (ltrWrite s q d).2 = State.except m s := by
  intro s q d
  refine except_mono h ?_
  unfold ltrWrite
  simp only [State.storeWord_same, State.weightCommit_same, plainWrite_same, State.wr_same, apply_ite (State.except
      524329), apply_ite Prod.snd, apply_ite Prod.fst, ite_self, Nat.reduceAnd, foldl_same, foldl_same2, foldl_same1]

theorem State.setList_same (m : Nat) (h : 1048576 &&& m = 1048576) (a0 : State) (a1 : ℕ) (a2 : BarmList → BarmList) :
    State.except m (State.setList a0 a1 a2) = State.except m a0 := by
  refine except_mono h ?_
  unfold State.setList
  simp only [State.setBarm_same, apply_ite (State.except 1048576), apply_ite Prod.snd, apply_ite Prod.fst, ite_self,
      Nat.reduceAnd, foldl_same, foldl_same2, foldl_same1]

theorem State.zeroCounter_same (m : Nat) (h : 1 &&& m = 1) (a0 : State) (a1 : ℕ) :
    State.except m (State.zeroCounter a0 a1) = State.except m a0 := by
  refine except_mono h ?_
  unfold State.zeroCounter
  simp only [State.wr_same, apply_ite (State.except 1), apply_ite Prod.snd, apply_ite Prod.fst, ite_self,
      Nat.reduceAnd, foldl_same, foldl_same2, foldl_same1]

theorem State.serveTurn_same (m : Nat) (h : 8193 &&& m = 8193) (a0 : State) (a1 : ℕ) (a2 : ℕ) (a3 : ℕ) :
    State.except m (State.serveTurn a0 a1 a2 a3) = State.except m a0 := by
  refine except_mono h ?_
  unfold State.serveTurn
  simp only [State.wr_same, State.setTnc_same, apply_ite (State.except 8193), apply_ite Prod.snd, apply_ite Prod.fst,
      ite_self, Nat.reduceAnd, foldl_same, foldl_same2, foldl_same1]

theorem State.startList_same (m : Nat) (h : 1056769 &&& m = 1056769) (a0 : State) (a1 : BarmList) :
    State.except m (State.startList a0 a1) = State.except m a0 := by
  refine except_mono h ?_
  unfold State.startList
  (try simp only [State.serveTurn_same, State.wr_same, State.zeroCounter_same, State.setList_same, State.setBarm_same,
      apply_ite (State.except 1056769), apply_ite Prod.snd, apply_ite Prod.fst, ite_self, Nat.reduceAnd, foldl_same,
      foldl_same2, foldl_same1])
  repeat' split
  all_goals (try simp [State.serveTurn_same, State.wr_same, State.zeroCounter_same, State.setList_same,
      State.setBarm_same, apply_ite (State.except 1056769), apply_ite Prod.snd, apply_ite Prod.fst, ite_self,
      Nat.reduceAnd, foldl_same, foldl_same2, foldl_same1])

theorem State.startLists_same (m : Nat) (h : 1056769 &&& m = 1056769) (a0 : ℕ) (a1 : State) :
    State.except m (State.startLists a0 a1) = State.except m a1 := by
  refine except_mono h ?_
  induction a0 generalizing a1 with
  | zero => rfl
  | succ n ih =>
    unfold State.startLists
    (repeat' split) <;> simp only [ih, State.startList_same, State.setBarm_same, apply_ite (State.except 1056769),
        apply_ite Prod.snd, apply_ite Prod.fst, ite_self, Nat.reduceAnd, foldl_same, foldl_same2, foldl_same1]

theorem State.startAll_same (m : Nat) (h : 1056769 &&& m = 1056769) (a0 : State) :
    State.except m (State.startAll a0) = State.except m a0 := by
  refine except_mono h ?_
  unfold State.startAll
  simp only [State.startLists_same, apply_ite (State.except 1056769), apply_ite Prod.snd, apply_ite Prod.fst,
      ite_self, Nat.reduceAnd, foldl_same, foldl_same2, foldl_same1]

theorem State.windowFault_same (m : Nat) (h : 256 &&& m = 256) (a0 : State) (a1 : ℕ) (a2 : ℕ) (a3 : Span) :
    State.except m (State.windowFault a0 a1 a2 a3) = State.except m a0 := by
  refine except_mono h ?_
  unfold State.windowFault
  simp only [State.log_same, apply_ite (State.except 256), apply_ite Prod.snd, apply_ite Prod.fst, ite_self,
      Nat.reduceAnd, foldl_same, foldl_same2, foldl_same1]

theorem State.failList_same (m : Nat) (h : 34360795393 &&& m = 34360795393) (a0 : State) (a1 : ℕ) (a2 : RingCfg) (a3 :
    Status) (a4 : ℕ) (a5 : Option Span) :
    State.except m (State.failList a0 a1 a2 a3 a4 a5) = State.except m a0 := by
  refine except_mono h ?_
  unfold State.failList
  (try simp only [State.raise_same, State.count_same, State.outcome_same, State.log_same, State.windowFault_same,
      State.refusalRecord_same, apply_ite (State.except 34360795393), apply_ite Prod.snd, apply_ite Prod.fst,
      ite_self, Nat.reduceAnd, foldl_same, foldl_same2, foldl_same1])
  repeat' split
  all_goals (try simp only [State.raise_same, State.count_same, State.outcome_same, State.log_same,
      State.windowFault_same, State.refusalRecord_same, apply_ite (State.except 34360795393), apply_ite Prod.snd,
      apply_ite Prod.fst, ite_self, Nat.reduceAnd, foldl_same, foldl_same2, foldl_same1])

theorem State.admitList_same (m : Nat) (h : 34360795393 &&& m = 34360795393) (a0 : State) (a1 : BarmList) :
    State.except m (State.admitList a0 a1) = State.except m a0 := by
  refine except_mono h ?_
  unfold State.admitList
  try dsimp only
  repeat' split
  all_goals first
    | (simp only [State.admit_same, State.count_same, State.setList_same, State.failList_same, State.dropList_same,
        apply_ite (State.except 34360795393), apply_ite Prod.snd, apply_ite Prod.fst, ite_self, Nat.reduceAnd,
        foldl_same, foldl_same2, foldl_same1]; done)
    | (try simp only [State.admit_same, State.count_same, State.setList_same, State.failList_same,
        State.dropList_same, apply_ite (State.except 34360795393), apply_ite Prod.snd, apply_ite Prod.fst, ite_self,
        Nat.reduceAnd, foldl_same, foldl_same2, foldl_same1]
       exact State.admit_same 34360795393 rfl _ _ _ _ _ (by assumption))

theorem State.readSlot_same (m : Nat) (h : 34360795393 &&& m = 34360795393) (a0 : State) (a1 : ℕ) (a2 : RingCfg) :
    State.except m (State.readSlot a0 a1 a2) = State.except m a0 := by
  refine except_mono h ?_
  unfold State.readSlot
  (try simp only [State.failList_same, State.setBarm_same, State.admitList_same, State.store_same, apply_ite
      (State.except 34360795393), apply_ite Prod.snd, apply_ite Prod.fst, ite_self, Nat.reduceAnd, foldl_same,
      foldl_same2, foldl_same1])
  repeat' split
  all_goals (try simp only [State.failList_same, State.setBarm_same, State.admitList_same, State.store_same, apply_ite
      (State.except 34360795393), apply_ite Prod.snd, apply_ite Prod.fst, ite_self, Nat.reduceAnd, foldl_same,
      foldl_same2, foldl_same1])

theorem State.readSlots_same (m : Nat) (h : 34360795393 &&& m = 34360795393) (a0 : ℕ) (a1 : RingCfg) (a2 : ℕ) (a3 :
    State) :
    State.except m (State.readSlots a0 a1 a2 a3) = State.except m a3 := by
  refine except_mono h ?_
  induction a2 generalizing a3 with
  | zero => rfl
  | succ n ih =>
    unfold State.readSlots
    (repeat' split) <;> simp only [ih, State.readSlot_same, apply_ite (State.except 34360795393), apply_ite Prod.snd,
        apply_ite Prod.fst, ite_self, Nat.reduceAnd, foldl_same, foldl_same2, foldl_same1]

theorem State.pollRing_same (m : Nat) (h : 34360795393 &&& m = 34360795393) (a0 : State) (a1 : ℕ) :
    State.except m (State.pollRing a0 a1) = State.except m a0 := by
  refine except_mono h ?_
  unfold State.pollRing
  simp only [State.log_same, State.raise_same, State.wr_same, State.startAll_same, State.readSlots_same, apply_ite
      (State.except 34360795393), apply_ite Prod.snd, apply_ite Prod.fst, ite_self, Nat.reduceAnd, foldl_same,
      foldl_same2, foldl_same1]

theorem State.ringWrite_same (m : Nat) (h : 41 &&& m = 41) (a0 : State) (a1 : Req) (a2 : ℕ) (a3 : ℕ) :
    State.except m (State.ringWrite a0 a1 a2 a3).2 = State.except m a0 := by
  refine except_mono h ?_
  unfold State.ringWrite
  (try simp only [plainWrite_same, apply_ite (State.except 41), apply_ite Prod.snd, apply_ite Prod.fst, ite_self,
      Nat.reduceAnd, foldl_same, foldl_same2, foldl_same1])
  repeat' split
  all_goals (try simp only [plainWrite_same, apply_ite (State.except 41), apply_ite Prod.snd, apply_ite Prod.fst,
      ite_self, Nat.reduceAnd, foldl_same, foldl_same2, foldl_same1])

theorem barmWrite_same (m : Nat) (h : 34360795433 &&& m = 34360795433)  :
    ∀ (s : State) (q : Req) (d : Nat), State.except m (barmWrite s q d).2 = State.except m s := by
  intro s q d
  refine except_mono h ?_
  unfold barmWrite
  (try simp only [State.wr_same, State.pollRing_same, State.ringWrite_same, plainWrite_same, storeIf_same, apply_ite
      (State.except 34360795433), apply_ite Prod.snd, apply_ite Prod.fst, ite_self, Nat.reduceAnd, foldl_same,
      foldl_same2, foldl_same1])
  repeat' split
  all_goals (try simp [State.wr_same, State.pollRing_same, State.ringWrite_same, plainWrite_same, storeIf_same,
      apply_ite (State.except 34360795433), apply_ite Prod.snd, apply_ite Prod.fst, ite_self, Nat.reduceAnd,
      foldl_same, foldl_same2, foldl_same1])

theorem State.send_same (m : Nat) (h : 1024 &&& m = 1024) (a0 : State) (a1 : Channel) (a2 : List ℕ) :
    State.except m (State.send a0 a1 a2) = State.except m a0 := by
  refine except_mono h ?_
  simp only [State.except, send_frame]
  rfl

theorem State.qspiGo_same (m : Nat) (h : 2098177 &&& m = 2098177) (a0 : State) :
    State.except m (State.qspiGo a0) = State.except m a0 := by
  refine except_mono h ?_
  unfold State.qspiGo
  (try simp only [State.wr_same, State.setCcx_same, State.send_same, apply_ite (State.except 2098177), apply_ite
      Prod.snd, apply_ite Prod.fst, ite_self, Nat.reduceAnd, foldl_same, foldl_same2, foldl_same1])
  repeat' split
  all_goals (try simp only [State.wr_same, State.setCcx_same, State.send_same, apply_ite (State.except 2098177),
      apply_ite Prod.snd, apply_ite Prod.fst, ite_self, Nat.reduceAnd, foldl_same, foldl_same2, foldl_same1])

theorem ccxWrite_same (m : Nat) (h : 2098217 &&& m = 2098217)  :
    ∀ (s : State) (q : Req) (d : Nat), State.except m (ccxWrite s q d).2 = State.except m s := by
  intro s q d
  refine except_mono h ?_
  unfold ccxWrite
  (try simp only [State.storeWord_same, State.resetHart_same, State.runHarts_same, storeIf_same, State.setHart_same,
      plainWrite_same, State.wr_same, State.setCcx_same, State.qspiGo_same, apply_ite (State.except 2098217),
      apply_ite Prod.snd, apply_ite Prod.fst, ite_self, Nat.reduceAnd, foldl_same, foldl_same2, foldl_same1])
  repeat' split
  all_goals (try simp [State.storeWord_same, State.resetHart_same, State.runHarts_same, storeIf_same,
      State.setHart_same, plainWrite_same, State.wr_same, State.setCcx_same, State.qspiGo_same, apply_ite
      (State.except 2098217), apply_ite Prod.snd, apply_ite Prod.fst, ite_self, Nat.reduceAnd, foldl_same,
      foldl_same2, foldl_same1])

theorem State.readBoot_same (m : Nat) (h : 4196609 &&& m = 4196609) (a0 : State) :
    State.except m (State.readBoot a0).2 = State.except m a0 := by
  refine except_mono h ?_
  unfold State.readBoot
  (try simp only [State.celReadRun_same, State.draw_same, apply_ite (State.except 4196609), apply_ite Prod.snd,
      apply_ite Prod.fst, ite_self, Nat.reduceAnd, foldl_same, foldl_same2, foldl_same1])
  repeat' split
  all_goals (try simp only [State.celReadRun_same, State.draw_same, apply_ite (State.except 4196609), apply_ite
      Prod.snd, apply_ite Prod.fst, ite_self, Nat.reduceAnd, foldl_same, foldl_same2, foldl_same1])

theorem State.writeBoot_same (m : Nat) (h : 4196353 &&& m = 4196353) (a0 : State) (a1 : ℕ) (a2 : Bool) :
    State.except m (State.writeBoot a0 a1 a2).2 = State.except m a0 := by
  refine except_mono h ?_
  unfold State.writeBoot
  simp only [State.draw_same, State.celLost_same, State.celWrite_same, State.wr_same, apply_ite (State.except
      4196353), apply_ite Prod.snd, apply_ite Prod.fst, ite_self, Nat.reduceAnd, foldl_same, foldl_same2, foldl_same1]

theorem State.bootDone_same (m : Nat) (h : 1 &&& m = 1) (a0 : State) (a1 : Status) :
    State.except m (State.bootDone a0 a1).2 = State.except m a0 := by
  refine except_mono h ?_
  unfold State.bootDone
  simp only [State.raise_same, State.wr_same, apply_ite (State.except 1), apply_ite Prod.snd, apply_ite Prod.fst,
      ite_self, Nat.reduceAnd, foldl_same, foldl_same2, foldl_same1]

theorem State.bootConfirm_same (m : Nat) (h : 6293761 &&& m = 6293761) (a0 : State) (a1 : Bool) :
    State.except m (State.bootConfirm a0 a1).2 = State.except m a0 := by
  refine except_mono h ?_
  unfold State.bootConfirm
  simp only [State.readBoot_same, State.writeBoot_same, State.log_same, State.bootDone_same, State.setCcx_same,
      apply_ite (State.except 6293761), apply_ite Prod.snd, apply_ite Prod.fst, ite_self, Nat.reduceAnd, foldl_same,
      foldl_same2, foldl_same1]

theorem State.bootTrial_same (m : Nat) (h : 4196609 &&& m = 4196609) (a0 : State) (a1 : Bool) :
    State.except m (State.bootTrial a0 a1).2 = State.except m a0 := by
  refine except_mono h ?_
  unfold State.bootTrial
  simp only [State.bootDone_same, State.readBoot_same, State.writeBoot_same, State.log_same, apply_ite (State.except
      4196609), apply_ite Prod.snd, apply_ite Prod.fst, ite_self, Nat.reduceAnd, foldl_same, foldl_same2, foldl_same1]

theorem State.bootCommand_same (m : Nat) (h : 6293801 &&& m = 6293801) (a0 : State) (a1 : Req) (a2 : ℕ) (a3 : Bool) :
    State.except m (State.bootCommand a0 a1 a2 a3).2 = State.except m a0 := by
  refine except_mono h ?_
  unfold State.bootCommand
  simp only [State.storeWord_same, State.bootConfirm_same, State.bootTrial_same, State.setCcx_same, apply_ite
      (State.except 6293801), apply_ite Prod.snd, apply_ite Prod.fst, ite_self, Nat.reduceAnd, foldl_same,
      foldl_same2, foldl_same1]

theorem State.seqEnd_same (m : Nat) (h : 2097153 &&& m = 2097153) (a0 : State) (a1 : Status) (a2 : ℕ) :
    State.except m (State.seqEnd a0 a1 a2) = State.except m a0 := by
  refine except_mono h ?_
  unfold State.seqEnd
  simp only [State.setCcx_same, State.raise_same, State.wr_same, apply_ite (State.except 2097153), apply_ite Prod.snd,
      apply_ite Prod.fst, ite_self, Nat.reduceAnd, foldl_same, foldl_same2, foldl_same1]

theorem State.seqSubmit_same (m : Nat) (h : 2162689 &&& m = 2162689) (a0 : State) (a1 : ℕ) (a2 : ℕ) :
    State.except m (State.seqSubmit a0 a1 a2).2 = State.except m a0 := by
  refine except_mono h ?_
  unfold State.seqSubmit
  simp only [State.seqEnd_same, State.wr_same, State.setCcx_same, except_upd_acc, apply_ite (State.except 2162689),
      apply_ite Prod.snd, apply_ite Prod.fst, ite_self, Nat.reduceAnd, foldl_same, foldl_same2, foldl_same1]

theorem mgcWriter_same (m : Nat) (h : 6359337 &&& m = 6359337) (a0 : Bool) :
    ∀ (s : State) (q : Req) (d : Nat), State.except m (mgcWriter a0 s q d).2 = State.except m s := by
  intro s q d
  refine except_mono h ?_
  unfold mgcWriter
  simp only [State.bootCommand_same, storeIf_same, State.setCcx_same, State.seqSubmit_same, State.wr_same,
      State.raise_same, plainWrite_same, apply_ite (State.except 6359337), apply_ite Prod.snd, apply_ite Prod.fst,
      ite_self, Nat.reduceAnd, foldl_same, foldl_same2, foldl_same1]

theorem pltWrite_same (m : Nat) (h : 41 &&& m = 41)  :
    ∀ (s : State) (q : Req) (d : Nat), State.except m (pltWrite s q d).2 = State.except m s := by
  intro s q d
  refine except_mono h ?_
  unfold pltWrite
  simp only [State.storeWord_same, State.pltShow_same, State.wr_same, apply_ite (State.except 41), apply_ite Prod.snd,
      apply_ite Prod.fst, ite_self, Nat.reduceAnd, foldl_same, foldl_same2, foldl_same1]

theorem midWrite_same (m : Nat) (h : 34367941929 &&& m = 34367941929)  :
    ∀ (s : State) (q : Req) (d : Nat), State.except m (midWrite s q d).2 = State.except m s := by
  intro s q d
  refine except_mono h ?_
  unfold midWrite
  simp only [tunWrite_same, ltrWrite_same, barmWrite_same, ccxWrite_same, mgcWriter_same, pltWrite_same, apply_ite
      (State.except 34367941929), apply_ite Prod.snd, apply_ite Prod.fst, ite_self, Nat.reduceAnd, foldl_same,
      foldl_same2, foldl_same1]

theorem plpWrite_same (m : Nat) (h : 41 &&& m = 41)  :
    ∀ (s : State) (q : Req) (d : Nat), State.except m (plpWrite s q d).2 = State.except m s := by
  intro s q d
  refine except_mono h ?_
  unfold plpWrite
  simp only [State.storeWord_same, State.wr_same, apply_ite (State.except 41), apply_ite Prod.snd, apply_ite Prod.fst,
      ite_self, Nat.reduceAnd, foldl_same, foldl_same2, foldl_same1]

theorem State.sendBye_same (m : Nat) (h : 33554432 &&& m = 33554432) (a0 : State) (a1 : ℕ) :
    State.except m (State.sendBye a0 a1) = State.except m a0 := by
  refine except_mono h ?_
  unfold State.sendBye
  simp only [State.sendMgmt_same, apply_ite (State.except 33554432), apply_ite Prod.snd, apply_ite Prod.fst, ite_self,
      Nat.reduceAnd, foldl_same, foldl_same2, foldl_same1]

theorem State.askEntry_same (m : Nat) (h : 33554433 &&& m = 33554433) (a0 : State) (a1 : ℕ) (a2 : ℕ) (a3 : ℕ) (a4 : ℕ)
    :
    State.except m (State.askEntry a0 a1 a2 a3 a4) = State.except m a0 := by
  refine except_mono h ?_
  unfold State.askEntry
  simp only [State.postSched_same, State.setPlm_same, apply_ite (State.except 33554433), apply_ite Prod.snd, apply_ite
      Prod.fst, ite_self, Nat.reduceAnd, foldl_same, foldl_same2, foldl_same1]

theorem State.openJoin_same (m : Nat) (h : 33554433 &&& m = 33554433) (a0 : State) (a1 : ℕ) :
    State.except m (State.openJoin a0 a1) = State.except m a0 := by
  refine except_mono h ?_
  unfold State.openJoin
  dsimp only
  try simp only [Nat.reduceAnd]
  refine (foldl_same _ _ (fun t x => ?_) _ _).trans ?_
  · (repeat' split) <;> simp only [State.setPlm_same, State.askEntry_same, apply_ite (State.except 33554433),
      apply_ite Prod.snd, apply_ite Prod.fst, ite_self, Nat.reduceAnd, foldl_same, foldl_same2, foldl_same1]
  · simp only [State.setPlm_same, State.askEntry_same, apply_ite (State.except 33554433), apply_ite Prod.snd,
      apply_ite Prod.fst, ite_self, Nat.reduceAnd, foldl_same, foldl_same2, foldl_same1]

theorem State.plmWritten_same (m : Nat) (h : 33554433 &&& m = 33554433) (a0 : State) (a1 : ℕ) (a2 : ℕ) :
    State.except m (State.plmWritten a0 a1 a2) = State.except m a0 := by
  refine except_mono h ?_
  unfold State.plmWritten
  (try simp only [State.wr_same, State.sendBye_same, State.openJoin_same, State.setPlm_same, State.srqFlush_same,
      apply_ite (State.except 33554433), apply_ite Prod.snd, apply_ite Prod.fst, ite_self, Nat.reduceAnd, foldl_same,
      foldl_same2, foldl_same1])
  repeat' split
  all_goals (try simp only [State.wr_same, State.sendBye_same, State.openJoin_same, State.setPlm_same,
      State.srqFlush_same, apply_ite (State.except 33554433), apply_ite Prod.snd, apply_ite Prod.fst, ite_self,
      Nat.reduceAnd, foldl_same, foldl_same2, foldl_same1])

theorem State.storePlm_same (m : Nat) (h : 41 &&& m = 41) (a0 : State) (a1 : Bool) (a2 : Req) (a3 : ℕ) :
    State.except m (State.storePlm a0 a1 a2 a3) = State.except m a0 := by
  refine except_mono h ?_
  unfold State.storePlm
  simp only [State.setReg_same, State.storeWord_same, apply_ite (State.except 41), apply_ite Prod.snd, apply_ite
      Prod.fst, ite_self, Nat.reduceAnd, foldl_same, foldl_same2, foldl_same1]

theorem State.commitKey_same (m : Nat) (h : 33554433 &&& m = 33554433) (a0 : State) (a1 : ℕ) :
    State.except m (State.commitKey a0 a1) = State.except m a0 := by
  refine except_mono h ?_
  unfold State.commitKey
  simp only [State.wr_same, State.setPlm_same, apply_ite (State.except 33554433), apply_ite Prod.snd, apply_ite
      Prod.fst, ite_self, Nat.reduceAnd, foldl_same, foldl_same2, foldl_same1]

theorem plmWrite_same (m : Nat) (h : 33554473 &&& m = 33554473)  :
    ∀ (s : State) (q : Req) (d : Nat), State.except m (plmWrite s q d).2 = State.except m s := by
  intro s q d
  refine except_mono h ?_
  unfold plmWrite
  simp only [State.plmWritten_same, State.storePlm_same, State.storeWord_same, State.commitKey_same,
      State.setPlm_same, State.wr_same, apply_ite (State.except 33554473), apply_ite Prod.snd, apply_ite Prod.fst,
      ite_self, Nat.reduceAnd, foldl_same, foldl_same2, foldl_same1]

theorem State.swcShow_same (m : Nat) (h : 1 &&& m = 1) (a0 : State) :
    State.except m (State.swcShow a0) = State.except m a0 := by
  refine except_mono h ?_
  unfold State.swcShow
  simp only [State.wr_same, apply_ite (State.except 1), apply_ite Prod.snd, apply_ite Prod.fst, ite_self,
      Nat.reduceAnd, foldl_same, foldl_same2, foldl_same1]

theorem State.setSwc_same (m : Nat) (h : 536870912 &&& m = 536870912) (a0 : State) (a1 : SwcState → SwcState) :
    State.except m (State.setSwc a0 a1) = State.except m a0 := by
  refine except_mono h ?_
  simp only [State.except, setSwc_frame]
  rfl

theorem State.sendDown_same (m : Nat) (h : 1024 &&& m = 1024) (a0 : State) (a1 : ℕ) (a2 : List Byte) :
    State.except m (State.sendDown a0 a1 a2) = State.except m a0 := by
  refine except_mono h ?_
  unfold State.sendDown
  simp only [State.send_same, apply_ite (State.except 1024), apply_ite Prod.snd, apply_ite Prod.fst, ite_self,
      Nat.reduceAnd, foldl_same, foldl_same2, foldl_same1]

theorem State.enumerate_same (m : Nat) (h : 536871937 &&& m = 536871937) (a0 : State) :
    State.except m (State.enumerate a0) = State.except m a0 := by
  refine except_mono h ?_
  unfold State.enumerate
  simp only [State.swcShow_same, State.setSwc_same, State.wr_same, State.sendDown_same, apply_ite (State.except
      536871937), apply_ite Prod.snd, apply_ite Prod.fst, ite_self, Nat.reduceAnd, foldl_same, foldl_same2,
      foldl_same1]

theorem State.submitSweep_same (m : Nat) (h : 536872193 &&& m = 536872193) (a0 : State) :
    State.except m (State.submitSweep a0).2 = State.except m a0 := by
  refine except_mono h ?_
  unfold State.submitSweep
  simp only [State.wr_same, State.setSwc_same, State.sendDown_same, State.swcShow_same, State.log_same, apply_ite
      (State.except 536872193), apply_ite Prod.snd, apply_ite Prod.fst, ite_self, Nat.reduceAnd, foldl_same,
      foldl_same2, foldl_same1]

theorem State.startFetch_same (m : Nat) (h : 536871937 &&& m = 536871937) (a0 : State) :
    State.except m (State.startFetch a0).2 = State.except m a0 := by
  refine except_mono h ?_
  unfold State.startFetch
  (try simp only [State.wr_same, State.setSwc_same, State.sendDown_same, apply_ite (State.except 536871937), apply_ite
      Prod.snd, apply_ite Prod.fst, ite_self, Nat.reduceAnd, foldl_same, foldl_same2, foldl_same1])
  repeat' split
  all_goals (try simp only [State.wr_same, State.setSwc_same, State.sendDown_same, apply_ite (State.except 536871937),
      apply_ite Prod.snd, apply_ite Prod.fst, ite_self, Nat.reduceAnd, foldl_same, foldl_same2, foldl_same1])

theorem swcWrite_same (m : Nat) (h : 536872233 &&& m = 536872233)  :
    ∀ (s : State) (q : Req) (d : Nat), State.except m (swcWrite s q d).2 = State.except m s := by
  intro s q d
  refine except_mono h ?_
  unfold swcWrite
  (try simp only [State.storeWord_same, State.wr_same, State.alignShow_same, State.offsetShow_same,
      State.enumerate_same, State.submitSweep_same, State.startFetch_same, plainWrite_same, apply_ite (State.except
      536872233), apply_ite Prod.snd, apply_ite Prod.fst, ite_self, Nat.reduceAnd, foldl_same, foldl_same2,
      foldl_same1])
  repeat' split
  all_goals (try simp only [State.storeWord_same, State.wr_same, State.alignShow_same, State.offsetShow_same,
      State.enumerate_same, State.submitSweep_same, State.startFetch_same, plainWrite_same, apply_ite (State.except
      536872233), apply_ite Prod.snd, apply_ite Prod.fst, ite_self, Nat.reduceAnd, foldl_same, foldl_same2,
      foldl_same1])

theorem tmpWrite_same (m : Nat) (h : 297 &&& m = 297)  :
    ∀ (s : State) (q : Req) (d : Nat), State.except m (tmpWrite s q d).2 = State.except m s := by
  intro s q d
  refine except_mono h ?_
  unfold tmpWrite
  simp only [State.storeWord_same, State.log_same, State.wr_same, apply_ite (State.except 297), apply_ite Prod.snd,
      apply_ite Prod.fst, ite_self, Nat.reduceAnd, foldl_same, foldl_same2, foldl_same1]

theorem State.setClg_same (m : Nat) (h : 134217728 &&& m = 134217728) (a0 : State) (a1 : ClgState → ClgState) :
    State.except m (State.setClg a0 a1) = State.except m a0 := by
  refine except_mono h ?_
  simp only [State.except, setClg_frame]
  rfl

theorem State.startExport_same (m : Nat) (h : 134217729 &&& m = 134217729) (a0 : State) (a1 : ℕ) (a2 : ℕ) (a3 : Option
    ℕ) :
    State.except m (State.startExport a0 a1 a2 a3) = State.except m a0 := by
  refine except_mono h ?_
  unfold State.startExport
  simp only [State.setClg_same, State.wr_same, State.raise_same, apply_ite (State.except 134217729), apply_ite
      Prod.snd, apply_ite Prod.fst, ite_self, Nat.reduceAnd, foldl_same, foldl_same2, foldl_same1]

theorem State.clgTenantWrite_same (m : Nat) (h : 134217737 &&& m = 134217737) (a0 : State) (a1 : Req) (a2 : ℕ) :
    State.except m (State.clgTenantWrite a0 a1 a2).2 = State.except m a0 := by
  refine except_mono h ?_
  unfold State.clgTenantWrite
  (try simp only [State.wr_same, State.setReg_same, State.startExport_same, except_upd_hold, apply_ite (State.except
      134217737), apply_ite Prod.snd, apply_ite Prod.fst, ite_self, Nat.reduceAnd, foldl_same, foldl_same2,
      foldl_same1])
  repeat' split
  all_goals (try simp only [State.wr_same, State.setReg_same, State.startExport_same, except_upd_hold, apply_ite
      (State.except 134217737), apply_ite Prod.snd, apply_ite Prod.fst, ite_self, Nat.reduceAnd, foldl_same,
      foldl_same2, foldl_same1])

theorem State.clgShow_same (m : Nat) (h : 1 &&& m = 1) (a0 : State) :
    State.except m (State.clgShow a0) = State.except m a0 := by
  refine except_mono h ?_
  unfold State.clgShow
  simp only [State.wr_same, apply_ite (State.except 1), apply_ite Prod.snd, apply_ite Prod.fst, ite_self,
      Nat.reduceAnd, foldl_same, foldl_same2, foldl_same1]

theorem State.saveLogRecord_same (m : Nat) (h : 138412033 &&& m = 138412033) (a0 : State) :
    State.except m (State.saveLogRecord a0) = State.except m a0 := by
  refine except_mono h ?_
  unfold State.saveLogRecord
  simp only [State.devWrite_same, State.setClg_same, apply_ite (State.except 138412033), apply_ite Prod.snd, apply_ite
      Prod.fst, ite_self, Nat.reduceAnd, foldl_same, foldl_same2, foldl_same1]

theorem State.putEntry_same (m : Nat) (h : 138412033 &&& m = 138412033) (a0 : State) (a1 : ℕ) (a2 : ℕ) (a3 : ℕ) (a4 :
    Bool) :
    State.except m (State.putEntry a0 a1 a2 a3 a4) = State.except m a0 := by
  refine except_mono h ?_
  unfold State.putEntry
  simp only [State.saveLogRecord_same, State.devWrite_same, State.wr_same, State.setClg_same, State.clgShow_same,
      apply_ite (State.except 138412033), apply_ite Prod.snd, apply_ite Prod.fst, ite_self, Nat.reduceAnd, foldl_same,
      foldl_same2, foldl_same1]

theorem State.putCoalesce_same (m : Nat) (h : 138412033 &&& m = 138412033) (a0 : State) (a1 : ℕ × ℕ) :
    State.except m (State.putCoalesce a0 a1) = State.except m a0 := by
  refine except_mono h ?_
  unfold State.putCoalesce
  simp only [State.putEntry_same, apply_ite (State.except 138412033), apply_ite Prod.snd, apply_ite Prod.fst,
      ite_self, Nat.reduceAnd, foldl_same, foldl_same2, foldl_same1]

theorem State.flushTable_same (m : Nat) (h : 138412033 &&& m = 138412033) (a0 : State) :
    State.except m (State.flushTable a0) = State.except m a0 := by
  refine except_mono h ?_
  unfold State.flushTable
  (try simp only [State.putCoalesce_same, State.setClg_same, apply_ite (State.except 138412033), apply_ite Prod.snd,
      apply_ite Prod.fst, ite_self, Nat.reduceAnd, foldl_same, foldl_same2, foldl_same1])
  repeat' split
  all_goals (try simp [State.putCoalesce_same, State.setClg_same, apply_ite (State.except 138412033), apply_ite
      Prod.snd, apply_ite Prod.fst, ite_self, Nat.reduceAnd, foldl_same, foldl_same2, foldl_same1])

theorem State.closeBlock_same (m : Nat) (h : 134217729 &&& m = 134217729) (a0 : State) :
    State.except m (State.closeBlock a0) = State.except m a0 := by
  refine except_mono h ?_
  unfold State.closeBlock
  simp only [State.setClg_same, State.clgShow_same, State.wr_same, apply_ite (State.except 134217729), apply_ite
      Prod.snd, apply_ite Prod.fst, ite_self, Nat.reduceAnd, foldl_same, foldl_same2, foldl_same1]

theorem State.putPads_same (m : Nat) (h : 138412033 &&& m = 138412033) (a0 : State) (a1 : ℕ) :
    State.except m (State.putPads a0 a1) = State.except m a0 := by
  refine except_mono h ?_
  induction a1 generalizing a0 with
  | zero => rfl
  | succ n ih =>
    unfold State.putPads
    (repeat' split) <;> simp only [ih, State.putEntry_same, apply_ite (State.except 138412033), apply_ite Prod.snd,
        apply_ite Prod.fst, ite_self, Nat.reduceAnd, foldl_same, foldl_same2, foldl_same1]

theorem State.padAndClose_same (m : Nat) (h : 138412033 &&& m = 138412033) (a0 : State) :
    State.except m (State.padAndClose a0) = State.except m a0 := by
  refine except_mono h ?_
  unfold State.padAndClose
  simp only [State.flushTable_same, State.closeBlock_same, State.putPads_same, apply_ite (State.except 138412033),
      apply_ite Prod.snd, apply_ite Prod.fst, ite_self, Nat.reduceAnd, foldl_same, foldl_same2, foldl_same1]

theorem State.setLogMode_same (m : Nat) (h : 1 &&& m = 1) (a0 : State) (a1 : ℕ) :
    State.except m (State.setLogMode a0 a1) = State.except m a0 := by
  refine except_mono h ?_
  unfold State.setLogMode
  simp only [State.raise_same, State.wr_same, apply_ite (State.except 1), apply_ite Prod.snd, apply_ite Prod.fst,
      ite_self, Nat.reduceAnd, foldl_same, foldl_same2, foldl_same1]

theorem State.logSettle_same (m : Nat) (h : 138412033 &&& m = 138412033) (a0 : State) :
    State.except m (State.logSettle a0) = State.except m a0 := by
  refine except_mono h ?_
  unfold State.logSettle
  simp only [State.flushTable_same, State.closeBlock_same, State.padAndClose_same, State.clgShow_same,
      State.setLogMode_same, apply_ite (State.except 138412033), apply_ite Prod.snd, apply_ite Prod.fst, ite_self,
      Nat.reduceAnd, foldl_same, foldl_same2, foldl_same1]

theorem State.putSummaries_same (m : Nat) (h : 138412033 &&& m = 138412033) (a0 : State) :
    State.except m (State.putSummaries a0) = State.except m a0 := by
  refine except_mono h ?_
  unfold State.putSummaries
  (try simp only [State.logSettle_same, State.wr_same, State.putEntry_same, State.setClg_same, apply_ite (State.except
      138412033), apply_ite Prod.snd, apply_ite Prod.fst, ite_self, Nat.reduceAnd, foldl_same, foldl_same2,
      foldl_same1])
  repeat' split
  all_goals (try simp [State.logSettle_same, State.wr_same, State.putEntry_same, State.setClg_same, apply_ite
      (State.except 138412033), apply_ite Prod.snd, apply_ite Prod.fst, ite_self, Nat.reduceAnd, foldl_same,
      foldl_same2, foldl_same1])

theorem State.releaseLog_same (m : Nat) (h : 138412289 &&& m = 138412289) (a0 : State) (a1 : ℕ) :
    State.except m (State.releaseLog a0 a1).2 = State.except m a0 := by
  refine except_mono h ?_
  unfold State.releaseLog
  simp only [State.clgShow_same, State.wr_same, State.putSummaries_same, State.setLogMode_same, State.log_same,
      State.saveLogRecord_same, State.logSettle_same, apply_ite (State.except 138412289), apply_ite Prod.snd,
      apply_ite Prod.fst, ite_self, Nat.reduceAnd, foldl_same, foldl_same2, foldl_same1]

theorem State.sealNow_same (m : Nat) (h : 138412033 &&& m = 138412033) (a0 : State) :
    State.except m (State.sealNow a0) = State.except m a0 := by
  refine except_mono h ?_
  unfold State.sealNow
  simp only [State.wr_same, State.logSettle_same, State.padAndClose_same, State.setClg_same, apply_ite (State.except
      138412033), apply_ite Prod.snd, apply_ite Prod.fst, ite_self, Nat.reduceAnd, foldl_same, foldl_same2,
      foldl_same1]

theorem clgWrite_same (m : Nat) (h : 138412329 &&& m = 138412329)  :
    ∀ (s : State) (q : Req) (d : Nat), State.except m (clgWrite s q d).2 = State.except m s := by
  intro s q d
  refine except_mono h ?_
  unfold clgWrite
  (try simp only [State.wr_same, State.clgTenantWrite_same, State.storeWord_same, State.releaseLog_same,
      State.sealNow_same, State.log_same, plainWrite_same, apply_ite (State.except 138412329), apply_ite Prod.snd,
      apply_ite Prod.fst, ite_self, Nat.reduceAnd, foldl_same, foldl_same2, foldl_same1])
  repeat' split
  all_goals (try simp only [State.wr_same, State.clgTenantWrite_same, State.storeWord_same, State.releaseLog_same,
      State.sealNow_same, State.log_same, plainWrite_same, apply_ite (State.except 138412329), apply_ite Prod.snd,
      apply_ite Prod.fst, ite_self, Nat.reduceAnd, foldl_same, foldl_same2, foldl_same1])

theorem State.otpShow_same (m : Nat) (h : 1 &&& m = 1) (a0 : State) :
    State.except m (State.otpShow a0) = State.except m a0 := by
  refine except_mono h ?_
  unfold State.otpShow
  simp only [State.wr_same, apply_ite (State.except 1), apply_ite Prod.snd, apply_ite Prod.fst, ite_self,
      Nat.reduceAnd, foldl_same, foldl_same2, foldl_same1]

theorem State.otpDone_same (m : Nat) (h : 1 &&& m = 1) (a0 : State) (a1 : Status) :
    State.except m (State.otpDone a0 a1) = State.except m a0 := by
  refine except_mono h ?_
  unfold State.otpDone
  simp only [State.raise_same, State.wr_same, State.otpShow_same, apply_ite (State.except 1), apply_ite Prod.snd,
      apply_ite Prod.fst, ite_self, Nat.reduceAnd, foldl_same, foldl_same2, foldl_same1]

theorem State.otpCommand_same (m : Nat) (h : 1 &&& m = 1) (a0 : State) (a1 : Status) (a2 : State → State) (hh : ∀ s,
    (a2 s).except m = s.except m) :
    State.except m (State.otpCommand a0 a1 a2) = State.except m a0 := by
  have k0 : 1 &&& m = 1 := sub_mask h rfl
  unfold State.otpCommand
  simp only [State.otpDone_same, apply_ite (State.except m), apply_ite Prod.snd, apply_ite Prod.fst, ite_self,
      Nat.reduceAnd, foldl_same, foldl_same2, foldl_same1, k0, hh]

theorem State.otpBurn_same (m : Nat) (h : 268435456 &&& m = 268435456) (a0 : State) (a1 : ℕ) :
    State.except m (State.otpBurn a0 a1) = State.except m a0 := by
  refine except_mono h ?_
  unfold State.otpBurn
  simp only [State.setSec_same, apply_ite (State.except 268435456), apply_ite Prod.snd, apply_ite Prod.fst, ite_self,
      Nat.reduceAnd, foldl_same, foldl_same2, foldl_same1]

theorem State.otpSet_same (m : Nat) (h : 268435456 &&& m = 268435456) (a0 : State) (a1 : ℕ) :
    State.except m (State.otpSet a0 a1) = State.except m a0 := by
  refine except_mono h ?_
  unfold State.otpSet
  simp only [State.otpBurn_same, apply_ite (State.except 268435456), apply_ite Prod.snd, apply_ite Prod.fst, ite_self,
      Nat.reduceAnd, foldl_same, foldl_same2, foldl_same1]

theorem State.rollbackAdvance_same (m : Nat) (h : 268435457 &&& m = 268435457) (a0 : State) :
    State.except m (State.rollbackAdvance a0) = State.except m a0 := by
  refine except_mono h ?_
  unfold State.rollbackAdvance
  refine State.otpCommand_same 268435457 rfl _ _ _ fun t => ?_
  refine foldl_same _ _ (fun t x => ?_) _ _
  split <;> simp only [State.otpSet_same, Nat.reduceAnd]

theorem State.retireIdentity_same (m : Nat) (h : 34632376577 &&& m = 34632376577) (a0 : State) :
    State.except m (State.retireIdentity a0) = State.except m a0 := by
  refine except_mono h ?_
  unfold State.retireIdentity
  (try simp only [State.setSec_same, State.otpCommand_same, State.otpSet_same, State.eraseSlot_same, apply_ite
      (State.except 34632376577), apply_ite Prod.snd, apply_ite Prod.fst, ite_self, Nat.reduceAnd, foldl_same,
      foldl_same2, foldl_same1])
  repeat' split
  all_goals (try simp [State.setSec_same, State.otpCommand_same, State.otpSet_same, State.eraseSlot_same, apply_ite
      (State.except 34632376577), apply_ite Prod.snd, apply_ite Prod.fst, ite_self, Nat.reduceAnd, foldl_same,
      foldl_same2, foldl_same1])

theorem State.otpWrite_same (m : Nat) (h : 34632376577 &&& m = 34632376577) (a0 : State) (a1 : ℕ) :
    State.except m (State.otpWrite a0 a1) = State.except m a0 := by
  refine except_mono h ?_
  unfold State.otpWrite
  (try simp only [State.rollbackAdvance_same, State.otpCommand_same, State.otpSet_same, State.retireIdentity_same,
      State.setSec_same, apply_ite (State.except 34632376577), apply_ite Prod.snd, apply_ite Prod.fst, ite_self,
      Nat.reduceAnd, foldl_same, foldl_same2, foldl_same1])
  repeat' split
  all_goals (try simp [State.rollbackAdvance_same, State.otpCommand_same, State.otpSet_same,
      State.retireIdentity_same, State.setSec_same, apply_ite (State.except 34632376577), apply_ite Prod.snd,
      apply_ite Prod.fst, ite_self, Nat.reduceAnd, foldl_same, foldl_same2, foldl_same1])

theorem secWrite_same (m : Nat) (h : 34632376617 &&& m = 34632376617)  :
    ∀ (s : State) (q : Req) (d : Nat), State.except m (secWrite s q d).2 = State.except m s := by
  intro s q d
  refine except_mono h ?_
  unfold secWrite
  simp only [State.otpWrite_same, State.storeWord_same, State.setSec_same, plainWrite_same, apply_ite (State.except
      34632376617), apply_ite Prod.snd, apply_ite Prod.fst, ite_self, Nat.reduceAnd, foldl_same, foldl_same2,
      foldl_same1]

theorem State.bpWrite_same (m : Nat) (h : 4194345 &&& m = 4194345) (a0 : State) (a1 : Req) (a2 : ℕ) :
    State.except m (State.bpWrite a0 a1 a2).2 = State.except m a0 := by
  refine except_mono h ?_
  unfold State.bpWrite
  simp only [State.setCel_same, State.bpShow_same, State.storeWord_same, apply_ite (State.except 4194345), apply_ite
      Prod.snd, apply_ite Prod.fst, ite_self, Nat.reduceAnd, foldl_same, foldl_same2, foldl_same1]

theorem State.unitRelease_same (m : Nat) (h : 4194305 &&& m = 4194305) (a0 : State) :
    State.except m (State.unitRelease a0).2 = State.except m a0 := by
  refine except_mono h ?_
  unfold State.unitRelease
  simp only [State.wr_same, State.startWipe_same, apply_ite (State.except 4194305), apply_ite Prod.snd, apply_ite
      Prod.fst, ite_self, Nat.reduceAnd, foldl_same, foldl_same2, foldl_same1]

theorem State.portEnd_same (m : Nat) (h : 1 &&& m = 1) (a0 : State) (a1 : Status) (a2 : ℕ) :
    State.except m (State.portEnd a0 a1 a2).2 = State.except m a0 := by
  refine except_mono h ?_
  unfold State.portEnd
  simp only [State.raise_same, State.wr_same, apply_ite (State.except 1), apply_ite Prod.snd, apply_ite Prod.fst,
      ite_self, Nat.reduceAnd, foldl_same, foldl_same2, foldl_same1]

theorem State.celVerifyFailed_same (m : Nat) (h : 4194561 &&& m = 4194561) (a0 : State) (a1 : ℕ) :
    State.except m (State.celVerifyFailed a0 a1) = State.except m a0 := by
  refine except_mono h ?_
  unfold State.celVerifyFailed
  simp only [State.log_same, State.raise_same, State.count_same, State.celBad_same, apply_ite (State.except 4194561),
      apply_ite Prod.snd, apply_ite Prod.fst, ite_self, Nat.reduceAnd, foldl_same, foldl_same2, foldl_same1]

theorem State.portGo_same (m : Nat) (h : 4196609 &&& m = 4196609) (a0 : State) (a1 : Option ℕ) :
    State.except m (State.portGo a0 a1).2 = State.except m a0 := by
  refine except_mono h ?_
  unfold State.portGo
  (try simp only [State.portEnd_same, State.celLost_same, State.celWriteRun_same, State.draw_same,
      State.celVerifyFailed_same, State.celPutRaw_same, State.celReadRun_same, State.wr_same, apply_ite (State.except
      4196609), apply_ite Prod.snd, apply_ite Prod.fst, ite_self, Nat.reduceAnd, foldl_same, foldl_same2,
      foldl_same1])
  repeat' split
  all_goals (try simp [State.portEnd_same, State.celLost_same, State.celWriteRun_same, State.draw_same,
      State.celVerifyFailed_same, State.celPutRaw_same, State.celReadRun_same, State.wr_same, apply_ite (State.except
      4196609), apply_ite Prod.snd, apply_ite Prod.fst, ite_self, Nat.reduceAnd, foldl_same, foldl_same2,
      foldl_same1])

theorem State.celRingWrite_same (m : Nat) (h : 4194345 &&& m = 4194345) (a0 : State) (a1 : Req) (a2 : ℕ) :
    State.except m (State.celRingWrite a0 a1 a2).2 = State.except m a0 := by
  refine except_mono h ?_
  unfold State.celRingWrite
  simp only [State.storeWord_same, State.setCel_same, apply_ite (State.except 4194345), apply_ite Prod.snd, apply_ite
      Prod.fst, ite_self, Nat.reduceAnd, foldl_same, foldl_same2, foldl_same1]

theorem celWriter_same (m : Nat) (h : 4196649 &&& m = 4196649) (a0 : Option ℕ) :
    ∀ (s : State) (q : Req) (d : Nat), State.except m (celWriter a0 s q d).2 = State.except m s := by
  intro s q d
  refine except_mono h ?_
  unfold celWriter
  simp only [State.wr_same, State.bpWrite_same, plainWrite_same, State.storeWord_same, State.setCel_same,
      State.unitRelease_same, State.portGo_same, State.celRingWrite_same, apply_ite (State.except 4196649), apply_ite
      Prod.snd, apply_ite Prod.fst, ite_self, Nat.reduceAnd, foldl_same, foldl_same2, foldl_same1]

theorem State.restClear_same (m : Nat) (h : 1073741824 &&& m = 1073741824) (a0 : State) :
    State.except m (State.restClear a0) = State.except m a0 := by
  refine except_mono h ?_
  unfold State.restClear
  simp only [State.setBga_same, apply_ite (State.except 1073741824), apply_ite Prod.snd, apply_ite Prod.fst, ite_self,
      Nat.reduceAnd, foldl_same, foldl_same2, foldl_same1]

theorem State.bgaEnter_same (m : Nat) (h : 1073741825 &&& m = 1073741825) (a0 : State) :
    State.except m (State.bgaEnter a0) = State.except m a0 := by
  refine except_mono h ?_
  unfold State.bgaEnter
  simp only [State.setBga_same, State.learnEnd_same, State.wr_same, State.restClear_same, apply_ite (State.except
      1073741825), apply_ite Prod.snd, apply_ite Prod.fst, ite_self, Nat.reduceAnd, foldl_same, foldl_same2,
      foldl_same1]

theorem State.restShow_same (m : Nat) (h : 1 &&& m = 1) (a0 : State) :
    State.except m (State.restShow a0) = State.except m a0 := by
  refine except_mono h ?_
  unfold State.restShow
  simp only [State.wr_same, apply_ite (State.except 1), apply_ite Prod.snd, apply_ite Prod.fst, ite_self,
      Nat.reduceAnd, foldl_same, foldl_same2, foldl_same1]

theorem State.bgaRestore_same (m : Nat) (h : 1073741825 &&& m = 1073741825) (a0 : State) :
    State.except m (State.bgaRestore a0) = State.except m a0 := by
  refine except_mono h ?_
  unfold State.bgaRestore
  simp only [State.wr_same, State.bgaEnter_same, State.setBga_same, State.restShow_same, apply_ite (State.except
      1073741825), apply_ite Prod.snd, apply_ite Prod.fst, ite_self, Nat.reduceAnd, foldl_same, foldl_same2,
      foldl_same1]

theorem State.bgaCold_same (m : Nat) (h : 1073741825 &&& m = 1073741825) (a0 : State) :
    State.except m (State.bgaCold a0) = State.except m a0 := by
  refine except_mono h ?_
  unfold State.bgaCold
  simp only [State.wr_same, State.bgaEnter_same, State.setBga_same, apply_ite (State.except 1073741825), apply_ite
      Prod.snd, apply_ite Prod.fst, ite_self, Nat.reduceAnd, foldl_same, foldl_same2, foldl_same1]

theorem State.mntStart_same (m : Nat) (h : 2147483649 &&& m = 2147483649) (a0 : State) :
    State.except m (State.mntStart a0).2 = State.except m a0 := by
  refine except_mono h ?_
  unfold State.mntStart
  simp only [State.chgFollow_same, State.wr_same, apply_ite (State.except 2147483649), apply_ite Prod.snd, apply_ite
      Prod.fst, ite_self, Nat.reduceAnd, foldl_same, foldl_same2, foldl_same1]

theorem State.bgaCommit_same (m : Nat) (h : 1073741824 &&& m = 1073741824) (a0 : State) :
    State.except m (State.bgaCommit a0).2 = State.except m a0 := by
  refine except_mono h ?_
  unfold State.bgaCommit
  simp only [State.setBga_same, apply_ite (State.except 1073741824), apply_ite Prod.snd, apply_ite Prod.fst, ite_self,
      Nat.reduceAnd, foldl_same, foldl_same2, foldl_same1]

theorem State.bgaCommand_same (m : Nat) (h : 3221225473 &&& m = 3221225473) (a0 : State) (a1 : ℕ) :
    State.except m (State.bgaCommand a0 a1).2 = State.except m a0 := by
  refine except_mono h ?_
  unfold State.bgaCommand
  simp only [State.bgaRestore_same, State.bgaCold_same, State.mntStart_same, State.mntAbort_same, State.setBga_same,
      State.bgaCommit_same, apply_ite (State.except 3221225473), apply_ite Prod.snd, apply_ite Prod.fst, ite_self,
      Nat.reduceAnd, foldl_same, foldl_same2, foldl_same1]

theorem bgaWrite_same (m : Nat) (h : 3221225513 &&& m = 3221225513)  :
    ∀ (s : State) (q : Req) (d : Nat), State.except m (bgaWrite s q d).2 = State.except m s := by
  intro s q d
  refine except_mono h ?_
  unfold bgaWrite
  simp only [State.bgaCommand_same, State.storeWord_same, State.wr_same, State.mntAbort_same, State.learnEnd_same,
      State.restShow_same, State.restClear_same, plainWrite_same, apply_ite (State.except 3221225513), apply_ite
      Prod.snd, apply_ite Prod.fst, ite_self, Nat.reduceAnd, foldl_same, foldl_same2, foldl_same1]

theorem State.kilnGo_same (m : Nat) (h : 2181103617 &&& m = 2181103617) (a0 : State) :
    State.except m (State.kilnGo a0).2 = State.except m a0 := by
  refine except_mono h ?_
  unfold State.kilnGo
  simp only [State.setPmu_same, State.wr_same, State.raise_same, State.sendBye_same, except_upd_acc, apply_ite
      (State.except 2181103617), apply_ite Prod.snd, apply_ite Prod.fst, ite_self, Nat.reduceAnd, foldl_same,
      foldl_same2, foldl_same1]

theorem State.randomScalar_same (m : Nat) (h : 2048 &&& m = 2048) (a0 : State) :
    State.except m (State.randomScalar a0).2 = State.except m a0 := by
  refine except_mono h ?_
  unfold State.randomScalar
  simp only [State.draw_same, apply_ite (State.except 2048), apply_ite Prod.snd, apply_ite Prod.fst, ite_self,
      Nat.reduceAnd, foldl_same, foldl_same2, foldl_same1]

theorem State.signWith_same (m : Nat) (h : 2048 &&& m = 2048) (a0 : State) (a1 : ℕ) (a2 : List Byte) (a3 : ℕ) :
    State.except m (State.signWith a0 a1 a2 a3).2 = State.except m a0 := by
  refine except_mono h ?_
  induction a3 generalizing a0 with
  | zero => rfl
  | succ n ih =>
    unfold State.signWith
    dsimp only
    cases ecdsaSign a1 a0.randomScalar.1 a2
    · exact (ih _).trans (State.randomScalar_same 2048 rfl _)
    · exact State.randomScalar_same 2048 rfl _

theorem State.signBlock_same (m : Nat) (h : 4196353 &&& m = 4196353) (a0 : State) (a1 : ℕ) :
    State.except m (State.signBlock a0 a1) = State.except m a0 := by
  refine except_mono h ?_
  unfold State.signBlock
  simp only [State.signWith_same, State.devWrite_same, apply_ite (State.except 4196353), apply_ite Prod.snd, apply_ite
      Prod.fst, ite_self, Nat.reduceAnd, foldl_same, foldl_same2, foldl_same1]

theorem State.countFull_same (m : Nat) (h : 134217729 &&& m = 134217729) (a0 : State) (a1 : ℕ) :
    State.except m (State.countFull a0 a1) = State.except m a0 := by
  refine except_mono h ?_
  unfold State.countFull
  simp only [State.count_same, State.setClg_same, apply_ite (State.except 134217729), apply_ite Prod.snd, apply_ite
      Prod.fst, ite_self, Nat.reduceAnd, foldl_same, foldl_same2, foldl_same1]

theorem State.acceptEvent_same (m : Nat) (h : 138412033 &&& m = 138412033) (a0 : State) (a1 : ℕ) (a2 : ℕ) (a3 : ℕ) (a4
    : Bool) :
    State.except m (State.acceptEvent a0 a1 a2 a3 a4) = State.except m a0 := by
  refine except_mono h ?_
  unfold State.acceptEvent
  simp only [State.countFull_same, State.setClg_same, State.count_same, State.logSettle_same, State.putEntry_same,
      apply_ite (State.except 138412033), apply_ite Prod.snd, apply_ite Prod.fst, ite_self, Nat.reduceAnd, foldl_same,
      foldl_same2, foldl_same1]

theorem State.zeroSeal_same (m : Nat) (h : 4194305 &&& m = 4194305) (a0 : State) (a1 : ℕ) :
    State.except m (State.zeroSeal a0 a1) = State.except m a0 := by
  refine except_mono h ?_
  unfold State.zeroSeal
  simp only [State.devWrite_same, apply_ite (State.except 4194305), apply_ite Prod.snd, apply_ite Prod.fst, ite_self,
      Nat.reduceAnd, foldl_same, foldl_same2, foldl_same1]

theorem State.sealDone_same (m : Nat) (h : 138412033 &&& m = 138412033) (a0 : State) (a1 : ℕ) :
    State.except m (State.sealDone a0 a1) = State.except m a0 := by
  refine except_mono h ?_
  unfold State.sealDone
  simp only [State.setClg_same, State.wr_same, State.clgShow_same, State.saveLogRecord_same, apply_ite (State.except
      138412033), apply_ite Prod.snd, apply_ite Prod.fst, ite_self, Nat.reduceAnd, foldl_same, foldl_same2,
      foldl_same1]

theorem State.sealStep_same (m : Nat) (h : 138414081 &&& m = 138414081) (a0 : State) :
    State.except m (State.sealStep a0) = State.except m a0 := by
  refine except_mono h ?_
  unfold State.sealStep
  (try simp only [State.sealDone_same, State.raise_same, State.signBlock_same, State.zeroSeal_same,
      State.acceptEvent_same, apply_ite (State.except 138414081), apply_ite Prod.snd, apply_ite Prod.fst, ite_self,
      Nat.reduceAnd, foldl_same, foldl_same2, foldl_same1])
  repeat' split
  all_goals (try simp only [State.sealDone_same, State.raise_same, State.signBlock_same, State.zeroSeal_same,
      State.acceptEvent_same, apply_ite (State.except 138414081), apply_ite Prod.snd, apply_ite Prod.fst, ite_self,
      Nat.reduceAnd, foldl_same, foldl_same2, foldl_same1])

theorem State.finishSeals_same (m : Nat) (h : 138414081 &&& m = 138414081) (a0 : ℕ) (a1 : State) :
    State.except m (State.finishSeals a0 a1) = State.except m a1 := by
  refine except_mono h ?_
  induction a0 generalizing a1 with
  | zero => rfl
  | succ n ih =>
    unfold State.finishSeals
    (repeat' split) <;> simp only [ih, State.sealStep_same, apply_ite (State.except 138414081), apply_ite Prod.snd,
        apply_ite Prod.fst, ite_self, Nat.reduceAnd, foldl_same, foldl_same2, foldl_same1]

theorem State.takeEvent_same (m : Nat) (h : 138412289 &&& m = 138412289) (a0 : State) :
    State.except m (State.takeEvent a0) = State.except m a0 := by
  refine except_mono h ?_
  unfold State.takeEvent
  (try simp only [State.setClg_same, State.acceptEvent_same, State.countFull_same, except_upd_events, apply_ite
      (State.except 138412289), apply_ite Prod.snd, apply_ite Prod.fst, ite_self, Nat.reduceAnd, foldl_same,
      foldl_same2, foldl_same1])
  repeat' split
  all_goals (try simp only [State.setClg_same, State.acceptEvent_same, State.countFull_same, except_upd_events,
      apply_ite (State.except 138412289), apply_ite Prod.snd, apply_ite Prod.fst, ite_self, Nat.reduceAnd, foldl_same,
      foldl_same2, foldl_same1])

theorem State.drainEvents_same (m : Nat) (h : 138412289 &&& m = 138412289) (a0 : ℕ) (a1 : State) :
    State.except m (State.drainEvents a0 a1) = State.except m a1 := by
  refine except_mono h ?_
  induction a0 generalizing a1 with
  | zero => rfl
  | succ n ih =>
    unfold State.drainEvents
    (repeat' split) <;> simp only [ih, State.takeEvent_same, apply_ite (State.except 138412289), apply_ite Prod.snd,
        apply_ite Prod.fst, ite_self, Nat.reduceAnd, foldl_same, foldl_same2, foldl_same1]

theorem State.coldKept_same (m : Nat) (h : 68719472959 &&& m = 68719472959) (a0 : State) :
    State.except m (State.coldKept a0) = State.except m a0 := by
  refine except_mono h ?_
  rfl

theorem State.dark_same (m : Nat) (h : 68719472959 &&& m = 68719472959) (a0 : State) :
    State.except m (State.dark a0) = State.except m a0 := by
  refine except_mono h ?_
  unfold State.dark
  (try simp only [State.wr_same, State.coldKept_same, apply_ite (State.except 68719472959), apply_ite Prod.snd,
      apply_ite Prod.fst, ite_self, Nat.reduceAnd, foldl_same, foldl_same2, foldl_same1])
  repeat' split
  all_goals (try simp [State.wr_same, State.coldKept_same, apply_ite (State.except 68719472959), apply_ite Prod.snd,
      apply_ite Prod.fst, ite_self, Nat.reduceAnd, foldl_same, foldl_same2, foldl_same1])

theorem State.sealCut_same (m : Nat) (h : 4202497 &&& m = 4202497) (a0 : State) :
    State.except m (State.sealCut a0) = State.except m a0 := by
  refine except_mono h ?_
  unfold State.sealCut
  (try simp only [State.celLost_same, State.sealFailed_same, State.unsealPages_same, apply_ite (State.except 4202497),
      apply_ite Prod.snd, apply_ite Prod.fst, ite_self, Nat.reduceAnd, foldl_same, foldl_same2, foldl_same1])
  repeat' split
  all_goals (try simp only [State.celLost_same, State.sealFailed_same, State.unsealPages_same, apply_ite (State.except
      4202497), apply_ite Prod.snd, apply_ite Prod.fst, ite_self, Nat.reduceAnd, foldl_same, foldl_same2,
      foldl_same1])

theorem State.readSealed_same (m : Nat) (h : 4194561 &&& m = 4194561) (a0 : State) :
    State.except m (State.readSealed a0).2 = State.except m a0 := by
  refine except_mono h ?_
  unfold State.readSealed
  simp only [State.celReadRun_same, apply_ite (State.except 4194561), apply_ite Prod.snd, apply_ite Prod.fst,
      ite_self, Nat.reduceAnd, foldl_same, foldl_same2, foldl_same1]

theorem State.checkedCopy_same (m : Nat) (h : 4194561 &&& m = 4194561) (a0 : State) :
    State.except m (State.checkedCopy a0).2 = State.except m a0 := by
  refine except_mono h ?_
  have k := State.celRead_same 4194561 rfl a0 sealMarker
  unfold State.checkedCopy
  split <;> rename_i e <;> rw [e] at k
  · dsimp only
    split <;> exact (State.readSealed_same 4194561 rfl _).trans k
  · exact k

theorem State.putConfig_same (m : Nat) (h : 33 &&& m = 33) (a0 : State) (a1 : ℕ) (a2 : List ℕ) :
    State.except m (State.putConfig a0 a1 a2) = State.except m a0 := by
  refine except_mono h ?_
  unfold State.putConfig
  (try simp only [State.mendUpsets_same, State.setReg_same, apply_ite (State.except 33), apply_ite Prod.snd, apply_ite
      Prod.fst, ite_self, Nat.reduceAnd, foldl_same, foldl_same2, foldl_same1])
  repeat' split
  all_goals (try simp [State.mendUpsets_same, State.setReg_same, apply_ite (State.except 33), apply_ite Prod.snd,
      apply_ite Prod.fst, ite_self, Nat.reduceAnd, foldl_same, foldl_same2, foldl_same1])

theorem State.rewritePage_same (m : Nat) (h : 4194593 &&& m = 4194593) (a0 : State) (a1 : ℕ) :
    State.except m (State.rewritePage a0 a1).2 = State.except m a0 := by
  refine except_mono h ?_
  unfold State.rewritePage
  simp only [State.checkedCopy_same, State.putConfig_same, State.log_same, apply_ite (State.except 4194593), apply_ite
      Prod.snd, apply_ite Prod.fst, ite_self, Nat.reduceAnd, foldl_same, foldl_same2, foldl_same1]

theorem State.seqFinish_same (m : Nat) (h : 2097153 &&& m = 2097153) (a0 : State) (a1 : Status) (a2 : ℕ) :
    State.except m (State.seqFinish a0 a1 a2) = State.except m a0 := by
  refine except_mono h ?_
  unfold State.seqFinish
  simp only [State.seqEnd_same, State.setCcx_same, apply_ite (State.except 2097153), apply_ite Prod.snd, apply_ite
      Prod.fst, ite_self, Nat.reduceAnd, foldl_same, foldl_same2, foldl_same1]

theorem State.readCopy_same (m : Nat) (h : 4194561 &&& m = 4194561) (a0 : State) (a1 : Bool) :
    State.except m (State.readCopy a0 a1).2.2 = State.except m a0 := by
  refine except_mono h ?_
  unfold State.readCopy
  simp only [State.celReadRun_same, apply_ite (State.except 4194561), apply_ite Prod.snd, apply_ite Prod.fst,
      ite_self, Nat.reduceAnd, foldl_same, foldl_same2, foldl_same1]

theorem State.newerCopy_same (m : Nat) (h : 4194561 &&& m = 4194561) (a0 : State) :
    State.except m (State.newerCopy a0).2.2 = State.except m a0 := by
  refine except_mono h ?_
  unfold State.newerCopy
  simp only [State.readCopy_same, apply_ite (State.except 4194561), apply_ite Prod.snd, apply_ite Prod.fst, ite_self,
      Nat.reduceAnd, foldl_same, foldl_same2, foldl_same1]

theorem State.putChannel_same (m : Nat) (h : 1 &&& m = 1) (a0 : State) (a1 : List Byte) (a2 : ℕ) (a3 : ℕ) :
    State.except m (State.putChannel a0 a1 a2 a3) = State.except m a0 := by
  refine except_mono h ?_
  unfold State.putChannel
  (try simp only [State.setAccWord_same, State.wr_same, apply_ite (State.except 1), apply_ite Prod.snd, apply_ite
      Prod.fst, ite_self, Nat.reduceAnd, foldl_same, foldl_same2, foldl_same1])
  repeat' split
  all_goals (try simp [State.setAccWord_same, State.wr_same, apply_ite (State.except 1), apply_ite Prod.snd, apply_ite
      Prod.fst, ite_self, Nat.reduceAnd, foldl_same, foldl_same2, foldl_same1])

theorem State.putMeter_same (m : Nat) (h : 65537 &&& m = 65537) (a0 : State) (a1 : List Byte) (a2 : ℕ) (a3 : ℕ) :
    State.except m (State.putMeter a0 a1 a2 a3) = State.except m a0 := by
  refine except_mono h ?_
  unfold State.putMeter
  (try simp only [State.wr_same, State.setAccWord_same, except_upd_acc, apply_ite (State.except 65537), apply_ite
      Prod.snd, apply_ite Prod.fst, ite_self, Nat.reduceAnd, foldl_same, foldl_same2, foldl_same1])
  repeat' split
  all_goals (try simp [State.wr_same, State.setAccWord_same, except_upd_acc, apply_ite (State.except 65537), apply_ite
      Prod.snd, apply_ite Prod.fst, ite_self, Nat.reduceAnd, foldl_same, foldl_same2, foldl_same1])

theorem State.putOutput_same (m : Nat) (h : 257 &&& m = 257) (a0 : State) (a1 : List Byte) (a2 : ℕ) :
    State.except m (State.putOutput a0 a1 a2) = State.except m a0 := by
  refine except_mono h ?_
  unfold State.putOutput
  simp only [State.wr_same, State.setSpill_same, State.log_same, apply_ite (State.except 257), apply_ite Prod.snd,
      apply_ite Prod.fst, ite_self, Nat.reduceAnd, foldl_same, foldl_same2, foldl_same1]

theorem State.restoreFrom_same (m : Nat) (h : 65793 &&& m = 65793) (a0 : State) (a1 : List Byte) :
    State.except m (State.restoreFrom a0 a1) = State.except m a0 := by
  refine except_mono h ?_
  unfold State.restoreFrom
  (try simp only [State.wr_same, State.putChannel_same, State.putMeter_same, State.putOutput_same, apply_ite
      (State.except 65793), apply_ite Prod.snd, apply_ite Prod.fst, ite_self, Nat.reduceAnd, foldl_same, foldl_same2,
      foldl_same1])
  repeat' split
  all_goals (try simp [State.wr_same, State.putChannel_same, State.putMeter_same, State.putOutput_same, apply_ite
      (State.except 65793), apply_ite Prod.snd, apply_ite Prod.fst, ite_self, Nat.reduceAnd, foldl_same, foldl_same2,
      foldl_same1])

theorem State.allBad_same (m : Nat) (h : 257 &&& m = 257) (a0 : State) :
    State.except m (State.allBad a0) = State.except m a0 := by
  refine except_mono h ?_
  unfold State.allBad
  (try simp only [State.wr_same, State.log_same, apply_ite (State.except 257), apply_ite Prod.snd, apply_ite Prod.fst,
      ite_self, Nat.reduceAnd, foldl_same, foldl_same2, foldl_same1])
  repeat' split
  all_goals (try simp [State.wr_same, State.log_same, apply_ite (State.except 257), apply_ite Prod.snd, apply_ite
      Prod.fst, ite_self, Nat.reduceAnd, foldl_same, foldl_same2, foldl_same1])

theorem State.restoreBilling_same (m : Nat) (h : 4260097 &&& m = 4260097) (a0 : State) :
    State.except m (State.restoreBilling a0).2 = State.except m a0 := by
  refine except_mono h ?_
  unfold State.restoreBilling
  (try simp only [State.newerCopy_same, State.restoreFrom_same, State.allBad_same, apply_ite (State.except 4260097),
      apply_ite Prod.snd, apply_ite Prod.fst, ite_self, Nat.reduceAnd, foldl_same, foldl_same2, foldl_same1])
  repeat' split
  all_goals (try simp only [State.newerCopy_same, State.restoreFrom_same, State.allBad_same, apply_ite (State.except
      4260097), apply_ite Prod.snd, apply_ite Prod.fst, ite_self, Nat.reduceAnd, foldl_same, foldl_same2,
      foldl_same1])

theorem State.saveBilling_same (m : Nat) (h : 4194561 &&& m = 4194561) (a0 : State) (a1 : Option ℕ) :
    State.except m (State.saveBilling a0 a1) = State.except m a0 := by
  refine except_mono h ?_
  unfold State.saveBilling
  (try simp only [State.newerCopy_same, State.celWriteRun_same, State.devWriteCut_same, apply_ite (State.except
      4194561), apply_ite Prod.snd, apply_ite Prod.fst, ite_self, Nat.reduceAnd, foldl_same, foldl_same2,
      foldl_same1])
  repeat' split
  all_goals (try simp only [State.newerCopy_same, State.celWriteRun_same, State.devWriteCut_same, apply_ite
      (State.except 4194561), apply_ite Prod.snd, apply_ite Prod.fst, ite_self, Nat.reduceAnd, foldl_same,
      foldl_same2, foldl_same1])

theorem State.seqDone_same (m : Nat) (h : 6357281 &&& m = 6357281) (a0 : State) (a1 : Option ℕ) :
    State.except m (State.seqDone a0 a1) = State.except m a0 := by
  refine except_mono h ?_
  unfold State.seqDone
  (try simp only [State.rewritePage_same, State.seqFinish_same, State.restoreBilling_same, State.saveBilling_same,
      apply_ite (State.except 6357281), apply_ite Prod.snd, apply_ite Prod.fst, ite_self, Nat.reduceAnd, foldl_same,
      foldl_same2, foldl_same1])
  repeat' split
  all_goals (try simp only [State.rewritePage_same, State.seqFinish_same, State.restoreBilling_same,
      State.saveBilling_same, apply_ite (State.except 6357281), apply_ite Prod.snd, apply_ite Prod.fst, ite_self,
      Nat.reduceAnd, foldl_same, foldl_same2, foldl_same1])

theorem State.seqCut_same (m : Nat) (h : 6357281 &&& m = 6357281) (a0 : State) (a1 : ℕ) :
    State.except m (State.seqCut a0 a1) = State.except m a0 := by
  refine except_mono h ?_
  unfold State.seqCut
  (try simp only [State.seqDone_same, apply_ite (State.except 6357281), apply_ite Prod.snd, apply_ite Prod.fst,
      ite_self, Nat.reduceAnd, foldl_same, foldl_same2, foldl_same1])
  repeat' split
  all_goals (try simp only [State.seqDone_same, apply_ite (State.except 6357281), apply_ite Prod.snd, apply_ite
      Prod.fst, ite_self, Nat.reduceAnd, foldl_same, foldl_same2, foldl_same1])

theorem State.celEffect_same (m : Nat) (h : 34363934977 &&& m = 34363934977) (a0 : State) (a1 : CelRun) (a2 : ℕ) (a3 :
    Option ℕ) :
    State.except m (State.celEffect a0 a1 a2 a3).2.2.2 = State.except m a0 := by
  refine except_mono h ?_
  unfold State.celEffect
  (try simp only [State.celReadRun_same, State.store_same, State.celWriteRun_same, State.draw_same,
      State.celVerifyFailed_same, State.celPutRaw_same, apply_ite (State.except 34363934977), apply_ite Prod.snd,
      apply_ite Prod.fst, ite_self, Nat.reduceAnd, foldl_same, foldl_same2, foldl_same1])
  repeat' split
  all_goals (try simp only [State.celReadRun_same, State.store_same, State.celWriteRun_same, State.draw_same,
      State.celVerifyFailed_same, State.celPutRaw_same, apply_ite (State.except 34363934977), apply_ite Prod.snd,
      apply_ite Prod.fst, ite_self, Nat.reduceAnd, foldl_same, foldl_same2, foldl_same1])

theorem State.celCut_same (m : Nat) (h : 34363943169 &&& m = 34363943169) (a0 : State) (a1 : ℕ) :
    State.except m (State.celCut a0 a1) = State.except m a0 := by
  refine except_mono h ?_
  unfold State.celCut
  (try simp only [State.celEffect_same, State.wr_same, State.setCel_same, State.giveBack_same, State.celRecord_same,
      State.celLost_same, State.celWriteRun_same, apply_ite (State.except 34363943169), apply_ite Prod.snd, apply_ite
      Prod.fst, ite_self, Nat.reduceAnd, foldl_same, foldl_same2, foldl_same1])
  repeat' split
  all_goals (try simp only [State.celEffect_same, State.wr_same, State.setCel_same, State.giveBack_same,
      State.celRecord_same, State.celLost_same, State.celWriteRun_same, apply_ite (State.except 34363943169),
      apply_ite Prod.snd, apply_ite Prod.fst, ite_self, Nat.reduceAnd, foldl_same, foldl_same2, foldl_same1])

theorem State.clgBlocked_same (m : Nat) (h : 134217984 &&& m = 134217984) (a0 : State) :
    State.except m (State.clgBlocked a0) = State.except m a0 := by
  refine except_mono h ?_
  unfold State.clgBlocked
  simp only [State.setClg_same, except_upd_events, apply_ite (State.except 134217984), apply_ite Prod.snd, apply_ite
      Prod.fst, ite_self, Nat.reduceAnd, foldl_same, foldl_same2, foldl_same1]

theorem State.blockAssert_same (m : Nat) (h : 34500323617 &&& m = 34500323617) (a0 : State) (a1 : ℕ) :
    State.except m (State.blockAssert a0 a1) = State.except m a0 := by
  refine except_mono h ?_
  unfold State.blockAssert
  simp only [State.sealCut_same, State.seqCut_same, State.celCut_same, State.raise_same, State.count_same,
      State.wr_same, State.clgBlocked_same, apply_ite (State.except 34500323617), apply_ite Prod.snd, apply_ite
      Prod.fst, ite_self, Nat.reduceAnd, foldl_same, foldl_same2, foldl_same1]

theorem State.powerDown_same (m : Nat) (h : 68719475007 &&& m = 68719475007) (a0 : State) :
    State.except m (State.powerDown a0) = State.except m a0 := by
  refine except_mono h ?_
  unfold State.powerDown
  simp only [State.draw_same, State.dark_same, State.blockAssert_same, apply_ite (State.except 68719475007), apply_ite
      Prod.snd, apply_ite Prod.fst, ite_self, Nat.reduceAnd, foldl_same, foldl_same2, foldl_same1]

theorem State.kilnConfirm_same (m : Nat) (h : 68719475007 &&& m = 68719475007) (a0 : State) :
    State.except m (State.kilnConfirm a0) = State.except m a0 := by
  refine except_mono h ?_
  unfold State.kilnConfirm
  simp only [State.log_same, State.finishSeals_same, State.sealNow_same, State.drainEvents_same, State.setPst_same,
      State.powerDown_same, State.setPmu_same, except_upd_start, apply_ite (State.except 68719475007), apply_ite
      Prod.snd, apply_ite Prod.fst, ite_self, Nat.reduceAnd, foldl_same, foldl_same2, foldl_same1]

theorem State.pmuCommand_same (m : Nat) (h : 68719475007 &&& m = 68719475007) (a0 : State) (a1 : ℕ) :
    State.except m (State.pmuCommand a0 a1).2 = State.except m a0 := by
  refine except_mono h ?_
  unfold State.pmuCommand
  simp only [State.setPmu_same, State.kilnGo_same, State.kilnConfirm_same, apply_ite (State.except 68719475007),
      apply_ite Prod.snd, apply_ite Prod.fst, ite_self, Nat.reduceAnd, foldl_same, foldl_same2, foldl_same1]

theorem State.pmuConfig_same (m : Nat) (h : 2147483689 &&& m = 2147483689) (a0 : State) (a1 : Req) (a2 : ℕ) :
    State.except m (State.pmuConfig a0 a1 a2).2 = State.except m a0 := by
  refine except_mono h ?_
  unfold State.pmuConfig
  simp only [State.storeWord_same, State.setChg_same, State.packShow_same, apply_ite (State.except 2147483689),
      apply_ite Prod.snd, apply_ite Prod.fst, ite_self, Nat.reduceAnd, foldl_same, foldl_same2, foldl_same1]

end Sys2Proof.Machine
end

