-- ==== Sys2Proof/Laws/FrameNetworks.lean ====
section
/-! SUPPORT. What each operation may change: outside the parts of the state in its mask, the state after it is as
before (part 3 of 4; an operation stands after those it calls). Cite these in place of unfolding the operation. -/

namespace Sys2Proof.Machine

set_option linter.all false

theorem State.auxWrite_same (m : Nat) (h : 36549173545 &&& m = 36549173545) (a0 : State) (a1 : Req) (a2 : ℕ) :
    State.except m (State.auxWrite a0 a1 a2).2 = State.except m a0 := by
  refine except_mono h ?_
  unfold State.auxWrite
  simp only [State.storeWord_same, State.auxStop_same, State.auxStart_same, State.auxFollow_same, State.wr_same,
      apply_ite (State.except 36549173545), apply_ite Prod.snd, apply_ite Prod.fst, ite_self, Nat.reduceAnd,
      foldl_same, foldl_same2, foldl_same1]

theorem State.railConfig_same (m : Nat) (h : 36549173545 &&& m = 36549173545) (a0 : State) (a1 : Req) (a2 : ℕ) :
    State.except m (State.railConfig a0 a1 a2).2 = State.except m a0 := by
  refine except_mono h ?_
  unfold State.railConfig
  simp only [State.auxWrite_same, State.railsFollow_same, State.storeWord_same, apply_ite (State.except 36549173545),
      apply_ite Prod.snd, apply_ite Prod.fst, ite_self, Nat.reduceAnd, foldl_same, foldl_same2, foldl_same1]

theorem pmuWrite_same (m : Nat) (h : 68719475007 &&& m = 68719475007)  :
    ∀ (s : State) (q : Req) (d : Nat), State.except m (pmuWrite s q d).2 = State.except m s := by
  intro s q d
  refine except_mono h ?_
  unfold pmuWrite
  simp only [State.pmuCommand_same, State.pmuConfig_same, State.railConfig_same, State.wr_same, apply_ite
      (State.except 68719475007), apply_ite Prod.snd, apply_ite Prod.fst, ite_self, Nat.reduceAnd, foldl_same,
      foldl_same2, foldl_same1]

theorem State.ascend_same (m : Nat) (h : 1 &&& m = 1) (a0 : State) :
    State.except m (State.ascend a0).2 = State.except m a0 := by
  refine except_mono h ?_
  unfold State.ascend
  simp only [State.wr_same, apply_ite (State.except 1), apply_ite Prod.snd, apply_ite Prod.fst, ite_self,
      Nat.reduceAnd, foldl_same, foldl_same2, foldl_same1]

theorem monWrite_same (m : Nat) (h : 41 &&& m = 41)  :
    ∀ (s : State) (q : Req) (d : Nat), State.except m (monWrite s q d).2 = State.except m s := by
  intro s q d
  refine except_mono h ?_
  unfold monWrite
  simp only [State.storeWord_same, State.ascend_same, State.wr_same, apply_ite (State.except 41), apply_ite Prod.snd,
      apply_ite Prod.fst, ite_self, Nat.reduceAnd, foldl_same, foldl_same2, foldl_same1]

theorem highWrite_same (m : Nat) (h : 68719476031 &&& m = 68719476031)  :
    ∀ (s : State) (q : Req) (d : Nat), State.except m (highWrite s q d).2 = State.except m s := by
  intro s q d
  refine except_mono h ?_
  unfold highWrite
  simp only [plpWrite_same, plmWrite_same, swcWrite_same, tmpWrite_same, clgWrite_same, secWrite_same, celWriter_same,
      bgaWrite_same, pmuWrite_same, monWrite_same, apply_ite (State.except 68719476031), apply_ite Prod.snd, apply_ite
      Prod.fst, ite_self, Nat.reduceAnd, foldl_same, foldl_same2, foldl_same1]

theorem State.mdioRun_same (m : Nat) (h : 1025 &&& m = 1025) (a0 : State) (a1 : ℕ) :
    State.except m (State.mdioRun a0 a1) = State.except m a0 := by
  refine except_mono h ?_
  unfold State.mdioRun
  simp only [State.send_same, State.wr_same, apply_ite (State.except 1025), apply_ite Prod.snd, apply_ite Prod.fst,
      ite_self, Nat.reduceAnd, foldl_same, foldl_same2, foldl_same1]

theorem ethWriter_same (m : Nat) (h : 1065 &&& m = 1065) (a0 : ℕ) :
    ∀ (s : State) (q : Req) (d : Nat), State.except m (ethWriter a0 s q d).2 = State.except m s := by
  intro s q d
  refine except_mono h ?_
  unfold ethWriter
  (try simp only [storeIf_same, State.storeWord_same, State.mdioRun_same, plainWrite_same, apply_ite (State.except
      1065), apply_ite Prod.snd, apply_ite Prod.fst, ite_self, Nat.reduceAnd, foldl_same, foldl_same2, foldl_same1])
  repeat' split
  all_goals (try simp only [storeIf_same, State.storeWord_same, State.mdioRun_same, plainWrite_same, apply_ite
      (State.except 1065), apply_ite Prod.snd, apply_ite Prod.fst, ite_self, Nat.reduceAnd, foldl_same, foldl_same2,
      foldl_same1])

theorem ethWrite_same (m : Nat) (h : 3113 &&& m = 3113)  :
    ∀ (s : State) (q : Req) (d : Nat), State.except m (ethWrite s q d).2 = State.except m s := by
  intro s q d
  refine except_mono h ?_
  unfold ethWrite
  simp only [State.draw_same, ethWriter_same, apply_ite (State.except 3113), apply_ite Prod.snd, apply_ite Prod.fst,
      ite_self, Nat.reduceAnd, foldl_same, foldl_same2, foldl_same1]

theorem i2tWrite_same (m : Nat) (h : 41 &&& m = 41)  :
    ∀ (s : State) (q : Req) (d : Nat), State.except m (i2tWrite s q d).2 = State.except m s := by
  intro s q d
  refine except_mono h ?_
  unfold i2tWrite
  simp only [storeIf_same, plainWrite_same, apply_ite (State.except 41), apply_ite Prod.snd, apply_ite Prod.fst,
      ite_self, Nat.reduceAnd, foldl_same, foldl_same2, foldl_same1]

theorem State.uartQueue_same (m : Nat) (h : 17179869185 &&& m = 17179869185) (a0 : State) (a1 : ℕ) (a2 : Byte) :
    State.except m (State.uartQueue a0 a1 a2) = State.except m a0 := by
  refine except_mono h ?_
  unfold State.uartQueue
  simp only [State.count_same, State.setUart_same, State.wr_same, apply_ite (State.except 17179869185), apply_ite
      Prod.snd, apply_ite Prod.fst, ite_self, Nat.reduceAnd, foldl_same, foldl_same2, foldl_same1]

theorem uartWrite_same (m : Nat) (h : 17179869225 &&& m = 17179869225)  :
    ∀ (s : State) (q : Req) (d : Nat), State.except m (uartWrite s q d).2 = State.except m s := by
  intro s q d
  refine except_mono h ?_
  unfold uartWrite
  (try simp only [storeIf_same, State.uartQueue_same, plainWrite_same, apply_ite (State.except 17179869225), apply_ite
      Prod.snd, apply_ite Prod.fst, ite_self, Nat.reduceAnd, foldl_same, foldl_same2, foldl_same1])
  repeat' split
  all_goals (try simp only [storeIf_same, State.uartQueue_same, plainWrite_same, apply_ite (State.except 17179869225),
      apply_ite Prod.snd, apply_ite Prod.fst, ite_self, Nat.reduceAnd, foldl_same, foldl_same2, foldl_same1])

theorem gpioWrite_same (m : Nat) (h : 41 &&& m = 41)  :
    ∀ (s : State) (q : Req) (d : Nat), State.except m (gpioWrite s q d).2 = State.except m s := by
  intro s q d
  refine except_mono h ?_
  unfold gpioWrite
  simp only [plainWrite_same, State.gpioShow_same, apply_ite (State.except 41), apply_ite Prod.snd, apply_ite
      Prod.fst, ite_self, Nat.reduceAnd, foldl_same, foldl_same2, foldl_same1]

theorem tinWrite_same (m : Nat) (h : 41 &&& m = 41)  :
    ∀ (s : State) (q : Req) (d : Nat), State.except m (tinWrite s q d).2 = State.except m s := by
  intro s q d
  refine except_mono h ?_
  unfold tinWrite
  simp only [storeIf_same, plainWrite_same, apply_ite (State.except 41), apply_ite Prod.snd, apply_ite Prod.fst,
      ite_self, Nat.reduceAnd, foldl_same, foldl_same2, foldl_same1]

theorem State.dbgRequest_same (m : Nat) (h : 17179869441 &&& m = 17179869441) (a0 : State) (a1 : ℕ) :
    State.except m (State.dbgRequest a0 a1).2 = State.except m a0 := by
  refine except_mono h ?_
  unfold State.dbgRequest
  simp only [State.setHif_same, State.wr_same, State.log_same, State.raise_same, apply_ite (State.except 17179869441),
      apply_ite Prod.snd, apply_ite Prod.fst, ite_self, Nat.reduceAnd, foldl_same, foldl_same2, foldl_same1]

theorem dbgWrite_same (m : Nat) (h : 17179869481 &&& m = 17179869481)  :
    ∀ (s : State) (q : Req) (d : Nat), State.except m (dbgWrite s q d).2 = State.except m s := by
  intro s q d
  refine except_mono h ?_
  unfold dbgWrite
  simp only [State.setHif_same, State.dbgRequest_same, plainWrite_same, apply_ite (State.except 17179869481),
      apply_ite Prod.snd, apply_ite Prod.fst, ite_self, Nat.reduceAnd, foldl_same, foldl_same2, foldl_same1]

theorem topWrite_same (m : Nat) (h : 51863694635 &&& m = 51863694635)  :
    ∀ (s : State) (q : Req) (d : Nat), State.except m (topWrite s q d).2 = State.except m s := by
  intro s q d
  refine except_mono h ?_
  unfold topWrite
  simp only [ethWrite_same, plainWrite_same, i2tWrite_same, uartWrite_same, gpioWrite_same, tinWrite_same,
      dbgWrite_same, accWrite_same, tncWriter_same, apply_ite (State.except 51863694635), apply_ite Prod.snd,
      apply_ite Prod.fst, ite_self, Nat.reduceAnd, foldl_same, foldl_same2, foldl_same1]

theorem State.sealSeeded_same (m : Nat) (h : 1 &&& m = 1) (a0 : State) :
    State.except m (State.sealSeeded a0) = State.except m a0 := by
  refine except_mono h ?_
  unfold State.sealSeeded
  simp only [State.wr64_same, apply_ite (State.except 1), apply_ite Prod.snd, apply_ite Prod.fst, ite_self,
      Nat.reduceAnd, foldl_same, foldl_same2, foldl_same1]

theorem State.resignBlocks_same (m : Nat) (h : 138414081 &&& m = 138414081) (a0 : State) :
    State.except m (State.resignBlocks a0) = State.except m a0 := by
  refine except_mono h ?_
  unfold State.resignBlocks
  (try simp only [State.setClg_same, State.signBlock_same, apply_ite (State.except 138414081), apply_ite Prod.snd,
      apply_ite Prod.fst, ite_self, Nat.reduceAnd, foldl_same, foldl_same2, foldl_same1])
  repeat' split
  all_goals (try simp [State.setClg_same, State.signBlock_same, apply_ite (State.except 138414081), apply_ite
      Prod.snd, apply_ite Prod.fst, ite_self, Nat.reduceAnd, foldl_same, foldl_same2, foldl_same1])

theorem State.clgSeeded_same (m : Nat) (h : 138414081 &&& m = 138414081) (a0 : State) :
    State.except m (State.clgSeeded a0) = State.except m a0 := by
  refine except_mono h ?_
  unfold State.clgSeeded
  (try simp only [State.resignBlocks_same, State.setClg_same, State.acceptEvent_same, State.putSummaries_same,
      apply_ite (State.except 138414081), apply_ite Prod.snd, apply_ite Prod.fst, ite_self, Nat.reduceAnd, foldl_same,
      foldl_same2, foldl_same1])
  repeat' split
  all_goals (try simp [State.resignBlocks_same, State.setClg_same, State.acceptEvent_same, State.putSummaries_same,
      apply_ite (State.except 138414081), apply_ite Prod.snd, apply_ite Prod.fst, ite_self, Nat.reduceAnd, foldl_same,
      foldl_same2, foldl_same1])

theorem State.seedFollow_same (m : Nat) (h : 138414081 &&& m = 138414081) (a0 : State) (a1 : State) :
    State.except m (State.seedFollow a0 a1) = State.except m a0 := by
  refine except_mono h ?_
  unfold State.seedFollow
  simp only [State.sealSeeded_same, State.clgSeeded_same, apply_ite (State.except 138414081), apply_ite Prod.snd,
      apply_ite Prod.fst, ite_self, Nat.reduceAnd, foldl_same, foldl_same2, foldl_same1]

theorem State.writeFollow_same (m : Nat) (h : 138479649 &&& m = 138479649) (a0 : State) (a1 : State) (a2 : ℕ) :
    State.except m (State.writeFollow a0 a1 a2) = State.except m a0 := by
  refine except_mono h ?_
  unfold State.writeFollow
  simp only [State.gateFrom_same, State.seedFollow_same, apply_ite (State.except 138479649), apply_ite Prod.snd,
      apply_ite Prod.fst, ite_self, Nat.reduceAnd, foldl_same, foldl_same2, foldl_same1]

theorem bodyWrite_same (m : Nat) (h : 68719476031 &&& m = 68719476031)  :
    ∀ (s : State) (q : Req) (d : Nat), State.except m (bodyWrite s q d).2 = State.except m s := by
  intro s q d
  refine except_mono h ?_
  unfold bodyWrite
  simp only [lowWrite_same, midWrite_same, highWrite_same, topWrite_same, State.writeFollow_same, apply_ite
      (State.except 68719476031), apply_ite Prod.snd, apply_ite Prod.fst, ite_self, Nat.reduceAnd, foldl_same,
      foldl_same2, foldl_same1]

theorem anyWrite_same (m : Nat) (h : 68719476031 &&& m = 68719476031)  :
    ∀ (s : State) (q : Req) (d : Nat), State.except m (anyWrite s q d).2 = State.except m s := by
  intro s q d
  refine except_mono h ?_
  unfold anyWrite
  simp only [headWrite_same, bodyWrite_same, apply_ite (State.except 68719476031), apply_ite Prod.snd, apply_ite
      Prod.fst, ite_self, Nat.reduceAnd, foldl_same, foldl_same2, foldl_same1]

theorem State.regAccess_same (m : Nat) (h : 68719476543 &&& m = 68719476543) (a0 : State) (a1 : HartAccess) (a2 : ℕ)
    (a3 : Fin 64) :
    State.except m (State.regAccess a0 a1 a2 a3) = State.except m a0 := by
  refine except_mono h ?_
  unfold State.regAccess
  (try simp only [State.read_same, anyRead_same, State.setHart_same, State.coreDone_same, State.setRstat_same,
      State.coreFault_same, State.write_same, anyWrite_same, apply_ite (State.except 68719476543), apply_ite Prod.snd,
      apply_ite Prod.fst, ite_self, Nat.reduceAnd, foldl_same, foldl_same2, foldl_same1])
  repeat' split
  all_goals (try simp [State.read_same, anyRead_same, State.setHart_same, State.coreDone_same, State.setRstat_same,
      State.coreFault_same, State.write_same, anyWrite_same, apply_ite (State.except 68719476543), apply_ite Prod.snd,
      apply_ite Prod.fst, ite_self, Nat.reduceAnd, foldl_same, foldl_same2, foldl_same1])

theorem State.sramAccess_same (m : Nat) (h : 2097921 &&& m = 2097921) (a0 : State) (a1 : HartAccess) (a2 : ℕ × ℕ) (a3
    : Bool) :
    State.except m (State.sramAccess a0 a1 a2 a3) = State.except m a0 := by
  refine except_mono h ?_
  unfold State.sramAccess
  (try simp only [State.eccCheck_same, State.coreFault_same, State.coreDone_same, State.setCcx_same, apply_ite
      (State.except 2097921), apply_ite Prod.snd, apply_ite Prod.fst, ite_self, Nat.reduceAnd, foldl_same,
      foldl_same2, foldl_same1])
  repeat' split
  all_goals (try simp only [State.eccCheck_same, State.coreFault_same, State.coreDone_same, State.setCcx_same,
      apply_ite (State.except 2097921), apply_ite Prod.snd, apply_ite Prod.fst, ite_self, Nat.reduceAnd, foldl_same,
      foldl_same2, foldl_same1])

theorem State.sharedAccess_same (m : Nat) (h : 34361836032 &&& m = 34361836032) (a0 : State) (a1 : HartAccess) (a2 : ℕ
    × ℕ) :
    State.except m (State.sharedAccess a0 a1 a2) = State.except m a0 := by
  refine except_mono h ?_
  unfold State.sharedAccess
  (try simp only [State.coreDone_same, State.store_same, apply_ite (State.except 34361836032), apply_ite Prod.snd,
      apply_ite Prod.fst, ite_self, Nat.reduceAnd, foldl_same, foldl_same2, foldl_same1])
  repeat' split
  all_goals (try simp only [State.coreDone_same, State.store_same, apply_ite (State.except 34361836032), apply_ite
      Prod.snd, apply_ite Prod.fst, ite_self, Nat.reduceAnd, foldl_same, foldl_same2, foldl_same1])

theorem State.dramAccess_same (m : Nat) (h : 34361836289 &&& m = 34361836289) (a0 : State) (a1 : HartAccess) (a2 : ℕ ×
    ℕ) :
    State.except m (State.dramAccess a0 a1 a2) = State.except m a0 := by
  refine except_mono h ?_
  unfold State.dramAccess
  simp only [State.eccCheck_same, State.coreFault_same, State.ddrAccess_same, State.coreDone_same, State.store_same,
      apply_ite (State.except 34361836289), apply_ite Prod.snd, apply_ite Prod.fst, ite_self, Nat.reduceAnd,
      foldl_same, foldl_same2, foldl_same1]

theorem State.romAccess_same (m : Nat) (h : 2097664 &&& m = 2097664) (a0 : State) (a1 : HartAccess) (a2 : List Byte) :
    State.except m (State.romAccess a0 a1 a2) = State.except m a0 := by
  refine except_mono h ?_
  unfold State.romAccess
  simp only [State.coreDone_same, State.coreFault_same, apply_ite (State.except 2097664), apply_ite Prod.snd,
      apply_ite Prod.fst, ite_self, Nat.reduceAnd, foldl_same, foldl_same2, foldl_same1]

theorem State.appAccess_same (m : Nat) (h : 68719476543 &&& m = 68719476543) (a0 : State) (a1 : HartAccess) (a2 : ℕ) :
    State.except m (State.appAccess a0 a1 a2) = State.except m a0 := by
  refine except_mono h ?_
  unfold State.appAccess
  (try simp only [State.coreFault_same, State.sharedAccess_same, State.hartDenied_same, State.dramAccess_same,
      State.sramAccess_same, State.romAccess_same, State.deviceAccess_same, State.regAccess_same, apply_ite
      (State.except 68719476543), apply_ite Prod.snd, apply_ite Prod.fst, ite_self, Nat.reduceAnd, foldl_same,
      foldl_same2, foldl_same1])
  repeat' split
  all_goals (try simp only [State.coreFault_same, State.sharedAccess_same, State.hartDenied_same,
      State.dramAccess_same, State.sramAccess_same, State.romAccess_same, State.deviceAccess_same,
      State.regAccess_same, apply_ite (State.except 68719476543), apply_ite Prod.snd, apply_ite Prod.fst, ite_self,
      Nat.reduceAnd, foldl_same, foldl_same2, foldl_same1])

theorem State.mgmtAccess_same (m : Nat) (h : 68719476543 &&& m = 68719476543) (a0 : State) (a1 : HartAccess) (a2 : ℕ)
    :
    State.except m (State.mgmtAccess a0 a1 a2) = State.except m a0 := by
  refine except_mono h ?_
  unfold State.mgmtAccess
  simp only [State.coreFault_same, State.romAccess_same, State.sramAccess_same, State.regAccess_same,
      State.appAccess_same, apply_ite (State.except 68719476543), apply_ite Prod.snd, apply_ite Prod.fst, ite_self,
      Nat.reduceAnd, foldl_same, foldl_same2, foldl_same1]

theorem State.autoSave_same (m : Nat) (h : 6357281 &&& m = 6357281) (a0 : State) :
    State.except m (State.autoSave a0) = State.except m a0 := by
  refine except_mono h ?_
  unfold State.autoSave
  (try simp only [State.wr_same, State.setCcx_same, State.seqDone_same, except_upd_acc, apply_ite (State.except
      6357281), apply_ite Prod.snd, apply_ite Prod.fst, ite_self, Nat.reduceAnd, foldl_same, foldl_same2,
      foldl_same1])
  repeat' split
  all_goals (try simp only [State.wr_same, State.setCcx_same, State.seqDone_same, except_upd_acc, apply_ite
      (State.except 6357281), apply_ite Prod.snd, apply_ite Prod.fst, ite_self, Nat.reduceAnd, foldl_same,
      foldl_same2, foldl_same1])

theorem State.rtcAdvance_same (m : Nat) (h : 4097 &&& m = 4097) (a0 : State) (a1 : ℕ) :
    State.except m (State.rtcAdvance a0 a1) = State.except m a0 := by
  refine except_mono h ?_
  unfold State.rtcAdvance
  simp only [State.wr_same, except_upd_ctf, apply_ite (State.except 4097), apply_ite Prod.snd, apply_ite Prod.fst,
      ite_self, Nat.reduceAnd, foldl_same, foldl_same2, foldl_same1]

theorem State.advance_same (m : Nat) (h : 4289 &&& m = 4289) (a0 : State) (a1 : ℕ) :
    State.except m (State.advance a0 a1) = State.except m a0 := by
  refine except_mono h ?_
  unfold State.advance
  simp only [State.rtcAdvance_same, except_upd_ticks_clk_ctf, apply_ite (State.except 4289), apply_ite Prod.snd,
      apply_ite Prod.fst, ite_self, Nat.reduceAnd, foldl_same, foldl_same2, foldl_same1]

theorem State.advanceTo_same (m : Nat) (h : 4289 &&& m = 4289) (a0 : State) (a1 : ℕ) :
    State.except m (State.advanceTo a0 a1) = State.except m a0 := by
  refine except_mono h ?_
  unfold State.advanceTo
  simp only [State.advance_same, apply_ite (State.except 4289), apply_ite Prod.snd, apply_ite Prod.fst, ite_self,
      Nat.reduceAnd, foldl_same, foldl_same2, foldl_same1]

theorem State.convert_same (m : Nat) (h : 20673 &&& m = 20673) (a0 : State) (a1 : SampleIn) :
    State.except m (State.convert a0 a1).1 = State.except m a0 := by
  refine except_mono h ?_
  unfold State.convert
  simp only [State.advanceTo_same, State.raise_same, State.count_same, State.setConv_same, apply_ite (State.except
      20673), apply_ite Prod.snd, apply_ite Prod.fst, ite_self, Nat.reduceAnd, foldl_same, foldl_same2, foldl_same1]

theorem State.calEnd_same (m : Nat) (h : 16385 &&& m = 16385) (a0 : State) (a1 : Status) :
    State.except m (State.calEnd a0 a1) = State.except m a0 := by
  refine except_mono h ?_
  unfold State.calEnd
  simp only [State.wr_same, State.raise_same, except_upd_acs, apply_ite (State.except 16385), apply_ite Prod.snd,
      apply_ite Prod.fst, ite_self, Nat.reduceAnd, foldl_same, foldl_same2, foldl_same1]

theorem State.meanOf_same (m : Nat) (h : 2048 &&& m = 2048) (a0 : State) (a1 : CycleSums) :
    State.except m (State.meanOf a0 a1).2 = State.except m a0 := by
  refine except_mono h ?_
  unfold State.meanOf
  simp only [State.draw_same, apply_ite (State.except 2048), apply_ite Prod.snd, apply_ite Prod.fst, ite_self,
      Nat.reduceAnd, foldl_same, foldl_same2, foldl_same1]

theorem State.zeroEnd_same (m : Nat) (h : 18433 &&& m = 18433) (a0 : State) (a1 : CalStep) :
    State.except m (State.zeroEnd a0 a1) = State.except m a0 := by
  refine except_mono h ?_
  unfold State.zeroEnd
  (try simp only [State.meanOf_same, State.wr_same, State.calEnd_same, State.setConv_same, apply_ite (State.except
      18433), apply_ite Prod.snd, apply_ite Prod.fst, ite_self, Nat.reduceAnd, foldl_same, foldl_same2, foldl_same1])
  repeat' split
  all_goals (try simp only [State.meanOf_same, State.wr_same, State.calEnd_same, State.setConv_same, apply_ite
      (State.except 18433), apply_ite Prod.snd, apply_ite Prod.fst, ite_self, Nat.reduceAnd, foldl_same, foldl_same2,
      foldl_same1])

theorem State.fullEnd_same (m : Nat) (h : 16385 &&& m = 16385) (a0 : State) (a1 : CalStep) :
    State.except m (State.fullEnd a0 a1) = State.except m a0 := by
  refine except_mono h ?_
  unfold State.fullEnd
  (try simp only [State.calEnd_same, State.wr_same, apply_ite (State.except 16385), apply_ite Prod.snd, apply_ite
      Prod.fst, ite_self, Nat.reduceAnd, foldl_same, foldl_same2, foldl_same1])
  repeat' split
  all_goals (try simp only [State.calEnd_same, State.wr_same, apply_ite (State.except 16385), apply_ite Prod.snd,
      apply_ite Prod.fst, ite_self, Nat.reduceAnd, foldl_same, foldl_same2, foldl_same1])

theorem State.calBoundary_same (m : Nat) (h : 16385 &&& m = 16385) (a0 : State) (a1 : Bool) :
    State.except m (State.calBoundary a0 a1) = State.except m a0 := by
  refine except_mono h ?_
  unfold State.calBoundary
  (try simp only [State.calEnd_same, except_upd_acs, apply_ite (State.except 16385), apply_ite Prod.snd, apply_ite
      Prod.fst, ite_self, Nat.reduceAnd, foldl_same, foldl_same2, foldl_same1])
  repeat' split
  all_goals (try simp only [State.calEnd_same, except_upd_acs, apply_ite (State.except 16385), apply_ite Prod.snd,
      apply_ite Prod.fst, ite_self, Nat.reduceAnd, foldl_same, foldl_same2, foldl_same1])

theorem State.dxReading_same (m : Nat) (h : 1 &&& m = 1) (a0 : State) (a1 : ℕ) (a2 : List ℕ) :
    State.except m (State.dxReading a0 a1 a2) = State.except m a0 := by
  refine except_mono h ?_
  unfold State.dxReading
  simp only [State.raise_same, State.wr_same, apply_ite (State.except 1), apply_ite Prod.snd, apply_ite Prod.fst,
      ite_self, Nat.reduceAnd, foldl_same, foldl_same2, foldl_same1]

theorem State.rollConv_same (m : Nat) (h : 16385 &&& m = 16385) (a0 : State) (a1 : ℕ) :
    State.except m (State.rollConv a0 a1) = State.except m a0 := by
  refine except_mono h ?_
  unfold State.rollConv
  simp only [State.setConv_same, State.wr_same, apply_ite (State.except 16385), apply_ite Prod.snd, apply_ite
      Prod.fst, ite_self, Nat.reduceAnd, foldl_same, foldl_same2, foldl_same1]

theorem State.pairChange_same (m : Nat) (h : 16385 &&& m = 16385) (a0 : State) (a1 : ℕ) :
    State.except m (State.pairChange a0 a1) = State.except m a0 := by
  refine except_mono h ?_
  unfold State.pairChange
  simp only [State.setConv_same, State.wr_same, apply_ite (State.except 16385), apply_ite Prod.snd, apply_ite
      Prod.fst, ite_self, Nat.reduceAnd, foldl_same, foldl_same2, foldl_same1]

theorem State.showPair_same (m : Nat) (h : 1 &&& m = 1) (a0 : State) (a1 : ℕ) :
    State.except m (State.showPair a0 a1) = State.except m a0 := by
  refine except_mono h ?_
  unfold State.showPair
  simp only [State.wr_same, apply_ite (State.except 1), apply_ite Prod.snd, apply_ite Prod.fst, ite_self,
      Nat.reduceAnd, foldl_same, foldl_same2, foldl_same1]

theorem State.acsBoundary_same (m : Nat) (h : 16387 &&& m = 16387) (a0 : State) (a1 : Bool) (a2 : List (ℕ × Word)) :
    State.except m (State.acsBoundary a0 a1 a2) = State.except m a0 := by
  refine except_mono h ?_
  unfold State.acsBoundary
  (try simp only [State.dxReading_same, State.calBoundary_same, State.rollConv_same, State.pairChange_same,
      State.showPair_same, except_upd_acs, except_upd_inForce, apply_ite (State.except 16387), apply_ite Prod.snd,
      apply_ite Prod.fst, ite_self, Nat.reduceAnd, foldl_same, foldl_same2, foldl_same1])
  repeat' split
  all_goals (try simp [State.dxReading_same, State.calBoundary_same, State.rollConv_same, State.pairChange_same,
      State.showPair_same, except_upd_acs, except_upd_inForce, apply_ite (State.except 16387), apply_ite Prod.snd,
      apply_ite Prod.fst, ite_self, Nat.reduceAnd, foldl_same, foldl_same2, foldl_same1])

theorem State.contRound_same (m : Nat) (h : 16385 &&& m = 16385) (a0 : State) (a1 : List ℕ) :
    State.except m (State.contRound a0 a1) = State.except m a0 := by
  refine except_mono h ?_
  induction a1 generalizing a0 with
  | nil => rfl
  | cons v l ih =>
    unfold State.contRound
    (repeat' split) <;> simp only [ih, State.wr_same, except_upd_acs, apply_ite (State.except 16385), apply_ite
        Prod.snd, apply_ite Prod.fst, ite_self, Nat.reduceAnd, foldl_same, foldl_same2, foldl_same1]

theorem State.contResult_same (m : Nat) (h : 18433 &&& m = 18433) (a0 : State) (a1 : ℕ) :
    State.except m (State.contResult a0 a1) = State.except m a0 := by
  refine except_mono h ?_
  unfold State.contResult
  simp only [State.draw_same, State.wr_same, State.raise_same, except_upd_acs, apply_ite (State.except 18433),
      apply_ite Prod.snd, apply_ite Prod.fst, ite_self, Nat.reduceAnd, foldl_same, foldl_same2, foldl_same1]

theorem State.computeCapacity_same (m : Nat) (h : 1 &&& m = 1) (a0 : State) :
    State.except m (State.computeCapacity a0) = State.except m a0 := by
  refine except_mono h ?_
  unfold State.computeCapacity
  simp only [State.wr_same, apply_ite (State.except 1), apply_ite Prod.snd, apply_ite Prod.fst, ite_self,
      Nat.reduceAnd, foldl_same, foldl_same2, foldl_same1]

theorem State.releaseRecords_same (m : Nat) (h : 34360786945 &&& m = 34360786945) (a0 : ℕ) (a1 : ℕ) (a2 : State) :
    State.except m (State.releaseRecords a0 a1 a2) = State.except m a2 := by
  refine except_mono h ?_
  induction a1 generalizing a2 with
  | zero => rfl
  | succ n ih =>
    unfold State.releaseRecords
    (repeat' split) <;> simp only [ih, State.wr_same, State.putRecord_same, State.setBarm_same, apply_ite
        (State.except 34360786945), apply_ite Prod.snd, apply_ite Prod.fst, ite_self, Nat.reduceAnd, foldl_same,
        foldl_same2, foldl_same1]

theorem State.admitPooled_same (m : Nat) (h : 34360795393 &&& m = 34360795393) (a0 : State) :
    State.except m (State.admitPooled a0) = State.except m a0 := by
  refine except_mono h ?_
  unfold State.admitPooled
  (try simp only [State.admitList_same, apply_ite (State.except 34360795393), apply_ite Prod.snd, apply_ite Prod.fst,
      ite_self, Nat.reduceAnd, foldl_same, foldl_same2, foldl_same1])
  repeat' split
  all_goals (try simp [State.admitList_same, apply_ite (State.except 34360795393), apply_ite Prod.snd, apply_ite
      Prod.fst, ite_self, Nat.reduceAnd, foldl_same, foldl_same2, foldl_same1])

theorem State.advanceList_same (m : Nat) (h : 1048576 &&& m = 1048576) (a0 : State) (a1 : ℕ) :
    State.except m (State.advanceList a0 a1) = State.except m a0 := by
  refine except_mono h ?_
  unfold State.advanceList
  simp only [State.setList_same, apply_ite (State.except 1048576), apply_ite Prod.snd, apply_ite Prod.fst, ite_self,
      Nat.reduceAnd, foldl_same, foldl_same2, foldl_same1]

theorem State.entryDone_same (m : Nat) (h : 1048576 &&& m = 1048576) (a0 : State) (a1 : ℕ) (a2 : ℕ) (a3 : Status) :
    State.except m (State.entryDone a0 a1 a2 a3) = State.except m a0 := by
  refine except_mono h ?_
  unfold State.entryDone
  simp only [State.setList_same, apply_ite (State.except 1048576), apply_ite Prod.snd, apply_ite Prod.fst, ite_self,
      Nat.reduceAnd, foldl_same, foldl_same2, foldl_same1]

theorem State.signal_same (m : Nat) (h : 1 &&& m = 1) (a0 : State) (a1 : ℕ) (a2 : Status) :
    State.except m (State.signal a0 a1 a2) = State.except m a0 := by
  refine except_mono h ?_
  unfold State.signal
  simp only [State.count_same, State.wr_same, apply_ite (State.except 1), apply_ite Prod.snd, apply_ite Prod.fst,
      ite_self, Nat.reduceAnd, foldl_same, foldl_same2, foldl_same1]

theorem State.endIssued_same (m : Nat) (h : 1048577 &&& m = 1048577) (a0 : State) (a1 : BarmList) (a2 : ℕ) (a3 :
    Status) :
    State.except m (State.endIssued a0 a1 a2 a3) = State.except m a0 := by
  refine except_mono h ?_
  unfold State.endIssued
  simp only [State.entryDone_same, State.signal_same, apply_ite (State.except 1048577), apply_ite Prod.snd, apply_ite
      Prod.fst, ite_self, Nat.reduceAnd, foldl_same, foldl_same2, foldl_same1]

theorem State.endStall_same (m : Nat) (h : 1048577 &&& m = 1048577) (a0 : State) :
    State.except m (State.endStall a0) = State.except m a0 := by
  refine except_mono h ?_
  unfold State.endStall
  (try simp only [State.setBarm_same, State.count_same, apply_ite (State.except 1048577), apply_ite Prod.snd,
      apply_ite Prod.fst, ite_self, Nat.reduceAnd, foldl_same, foldl_same2, foldl_same1])
  repeat' split
  all_goals (try simp only [State.setBarm_same, State.count_same, apply_ite (State.except 1048577), apply_ite
      Prod.snd, apply_ite Prod.fst, ite_self, Nat.reduceAnd, foldl_same, foldl_same2, foldl_same1])

theorem State.beginStall_same (m : Nat) (h : 1048577 &&& m = 1048577) (a0 : State) :
    State.except m (State.beginStall a0) = State.except m a0 := by
  refine except_mono h ?_
  unfold State.beginStall
  (try simp only [State.raise_same, State.setBarm_same, apply_ite (State.except 1048577), apply_ite Prod.snd,
      apply_ite Prod.fst, ite_self, Nat.reduceAnd, foldl_same, foldl_same2, foldl_same1])
  repeat' split
  all_goals (try simp only [State.raise_same, State.setBarm_same, apply_ite (State.except 1048577), apply_ite
      Prod.snd, apply_ite Prod.fst, ite_self, Nat.reduceAnd, foldl_same, foldl_same2, foldl_same1])

theorem State.setSparge_same (m : Nat) (h : 262145 &&& m = 262145) (a0 : State) (a1 : List SpEntry) :
    State.except m (State.setSparge a0 a1) = State.except m a0 := by
  refine except_mono h ?_
  unfold State.setSparge
  simp only [State.setTun_same, State.raise_same, apply_ite (State.except 262145), apply_ite Prod.snd, apply_ite
      Prod.fst, ite_self, Nat.reduceAnd, foldl_same, foldl_same2, foldl_same1]

theorem State.appendEntry_same (m : Nat) (h : 1310721 &&& m = 1310721) (a0 : State) (a1 : SpEntry) :
    State.except m (State.appendEntry a0 a1) = State.except m a0 := by
  refine except_mono h ?_
  unfold State.appendEntry
  simp only [State.setSparge_same, State.endStall_same, apply_ite (State.except 1310721), apply_ite Prod.snd,
      apply_ite Prod.fst, ite_self, Nat.reduceAnd, foldl_same, foldl_same2, foldl_same1]

theorem State.drainBacklog_same (m : Nat) (h : 1310721 &&& m = 1310721) (a0 : ℕ) (a1 : State) :
    State.except m (State.drainBacklog a0 a1) = State.except m a1 := by
  refine except_mono h ?_
  induction a0 generalizing a1 with
  | zero => rfl
  | succ n ih =>
    unfold State.drainBacklog
    (repeat' split) <;> simp only [ih, State.beginStall_same, State.appendEntry_same, State.setBarm_same, apply_ite
        (State.except 1310721), apply_ite Prod.snd, apply_ite Prod.fst, ite_self, Nat.reduceAnd, foldl_same,
        foldl_same2, foldl_same1]

theorem State.expertDone_same (m : Nat) (h : 1048577 &&& m = 1048577) (a0 : State) (a1 : BarmList) (a2 : ℕ) (a3 :
    Status) (a4 : Bool) :
    State.except m (State.expertDone a0 a1 a2 a3 a4) = State.except m a0 := by
  refine except_mono h ?_
  unfold State.expertDone
  simp only [State.signal_same, State.setBarm_same, State.setList_same, State.entryDone_same, apply_ite (State.except
      1048577), apply_ite Prod.snd, apply_ite Prod.fst, ite_self, Nat.reduceAnd, foldl_same, foldl_same2, foldl_same1]

theorem State.report_same (m : Nat) (h : 1048577 &&& m = 1048577) (a0 : State) (a1 : Option (ℕ × ℕ)) (a2 : Status) (a3
    : Bool) (a4 : Bool) (a5 : ℕ) :
    State.except m (State.report a0 a1 a2 a3 a4 a5) = State.except m a0 := by
  refine except_mono h ?_
  unfold State.report
  (try simp only [State.setList_same, State.entryDone_same, State.expertDone_same, apply_ite (State.except 1048577),
      apply_ite Prod.snd, apply_ite Prod.fst, ite_self, Nat.reduceAnd, foldl_same, foldl_same2, foldl_same1])
  repeat' split
  all_goals (try simp only [State.setList_same, State.entryDone_same, State.expertDone_same, apply_ite (State.except
      1048577), apply_ite Prod.snd, apply_ite Prod.fst, ite_self, Nat.reduceAnd, foldl_same, foldl_same2,
      foldl_same1])

theorem State.countTile_same (m : Nat) (h : 1 &&& m = 1) (a0 : State) (a1 : Status) :
    State.except m (State.countTile a0 a1) = State.except m a0 := by
  refine except_mono h ?_
  unfold State.countTile
  simp only [State.count_same, State.raise_same, apply_ite (State.except 1), apply_ite Prod.snd, apply_ite Prod.fst,
      ite_self, Nat.reduceAnd, foldl_same, foldl_same2, foldl_same1]

theorem State.endEntry_same (m : Nat) (h : 1048577 &&& m = 1048577) (a0 : State) (a1 : SpEntry) (a2 : Status) :
    State.except m (State.endEntry a0 a1 a2) = State.except m a0 := by
  refine except_mono h ?_
  unfold State.endEntry
  simp only [State.report_same, State.signal_same, State.countTile_same, apply_ite (State.except 1048577), apply_ite
      Prod.snd, apply_ite Prod.fst, ite_self, Nat.reduceAnd, foldl_same, foldl_same2, foldl_same1]

theorem State.logStop_same (m : Nat) (h : 256 &&& m = 256) (a0 : State) (a1 : ℕ) (a2 : ℕ) (a3 : Bool) (a4 : Status) :
    State.except m (State.logStop a0 a1 a2 a3 a4) = State.except m a0 := by
  refine except_mono h ?_
  unfold State.logStop
  (try simp only [State.log_same, State.windowFault_same, apply_ite (State.except 256), apply_ite Prod.snd, apply_ite
      Prod.fst, ite_self, Nat.reduceAnd, foldl_same, foldl_same2, foldl_same1])
  repeat' split
  all_goals (try simp only [State.log_same, State.windowFault_same, apply_ite (State.except 256), apply_ite Prod.snd,
      apply_ite Prod.fst, ite_self, Nat.reduceAnd, foldl_same, foldl_same2, foldl_same1])

theorem State.settleSignals_same (m : Nat) (h : 1310977 &&& m = 1310977) (a0 : ℕ) (a1 : State) :
    State.except m (State.settleSignals a0 a1) = State.except m a1 := by
  refine except_mono h ?_
  induction a0 generalizing a1 with
  | zero => rfl
  | succ n ih =>
    unfold State.settleSignals
    split
    · rfl
    · rename_i e _
      dsimp only
      cases (a1.setSparge (a1.tun.sparge.erase e)).entryStop 0 e.word.toNat false <;> simp only [ih,
          State.setSparge_same, State.endEntry_same, State.logStop_same, apply_ite (State.except 1310977), apply_ite
          Prod.snd, apply_ite Prod.fst, ite_self, Nat.reduceAnd, foldl_same, foldl_same2, foldl_same1]

theorem State.expand_same (m : Nat) (h : 1310977 &&& m = 1310977) (a0 : State) (a1 : BarmList) (a2 : ℕ) :
    State.except m (State.expand a0 a1 a2) = State.except m a0 := by
  refine except_mono h ?_
  unfold State.expand
  (try simp only [State.entryDone_same, State.endIssued_same, State.log_same, State.setBarm_same,
      State.zeroCounter_same, State.drainBacklog_same, State.setList_same, apply_ite (State.except 1310977), apply_ite
      Prod.snd, apply_ite Prod.fst, ite_self, Nat.reduceAnd, foldl_same, foldl_same2, foldl_same1])
  repeat' split
  all_goals (try simp only [State.entryDone_same, State.endIssued_same, State.log_same, State.setBarm_same,
      State.zeroCounter_same, State.drainBacklog_same, State.setList_same, apply_ite (State.except 1310977), apply_ite
      Prod.snd, apply_ite Prod.fst, ite_self, Nat.reduceAnd, foldl_same, foldl_same2, foldl_same1])

theorem State.expireWaits_same (m : Nat) (h : 1048577 &&& m = 1048577) (a0 : State) (a1 : ℕ) :
    State.except m (State.expireWaits a0 a1) = State.except m a0 := by
  refine except_mono h ?_
  unfold State.expireWaits
  (try simp only [State.endIssued_same, apply_ite (State.except 1048577), apply_ite Prod.snd, apply_ite Prod.fst,
      ite_self, Nat.reduceAnd, foldl_same, foldl_same2, foldl_same1])
  repeat' split
  all_goals (try simp [State.endIssued_same, apply_ite (State.except 1048577), apply_ite Prod.snd, apply_ite Prod.fst,
      ite_self, Nat.reduceAnd, foldl_same, foldl_same2, foldl_same1])

theorem State.deliver_same (m : Nat) (h : 34360787201 &&& m = 34360787201) (a0 : State) (a1 : BarmList) (a2 : ℕ) :
    State.except m (State.deliver a0 a1 a2) = State.except m a0 := by
  refine except_mono h ?_
  unfold State.deliver
  simp only [State.entryDone_same, State.endIssued_same, State.windowFault_same, State.sendRecord_same, apply_ite
      (State.except 34360787201), apply_ite Prod.snd, apply_ite Prod.fst, ite_self, Nat.reduceAnd, foldl_same,
      foldl_same2, foldl_same1]

theorem State.chargeList_same (m : Nat) (h : 8193 &&& m = 8193) (a0 : State) (a1 : BarmList) :
    State.except m (State.chargeList a0 a1) = State.except m a0 := by
  refine except_mono h ?_
  unfold State.chargeList
  simp only [State.giveBack_same, State.setTnc_same, apply_ite (State.except 8193), apply_ite Prod.snd, apply_ite
      Prod.fst, ite_self, Nat.reduceAnd, foldl_same, foldl_same2, foldl_same1]

theorem State.completeList_same (m : Nat) (h : 34360795137 &&& m = 34360795137) (a0 : State) (a1 : BarmList) :
    State.except m (State.completeList a0 a1) = State.except m a0 := by
  refine except_mono h ?_
  unfold State.completeList
  simp only [State.dropList_same, State.chargeList_same, State.setBarm_same, State.outcome_same, State.count_same,
      State.sendRecord_same, State.raise_same, apply_ite (State.except 34360795137), apply_ite Prod.snd, apply_ite
      Prod.fst, ite_self, Nat.reduceAnd, foldl_same, foldl_same2, foldl_same1]

theorem State.refill_same (m : Nat) (h : 8193 &&& m = 8193) (a0 : State) (a1 : ℕ) (a2 : ℕ) :
    State.except m (State.refill a0 a1 a2) = State.except m a0 := by
  refine except_mono h ?_
  unfold State.refill
  (try simp only [State.setTnc_same, State.quotaPut_same, apply_ite (State.except 8193), apply_ite Prod.snd, apply_ite
      Prod.fst, ite_self, Nat.reduceAnd, foldl_same, foldl_same2, foldl_same1])
  repeat' split
  all_goals (try simp [State.setTnc_same, State.quotaPut_same, apply_ite (State.except 8193), apply_ite Prod.snd,
      apply_ite Prod.fst, ite_self, Nat.reduceAnd, foldl_same, foldl_same2, foldl_same1])

theorem State.barmLatest_same (m : Nat) (h : 34360795137 &&& m = 34360795137) (a0 : State) :
    State.except m (State.barmLatest a0) = State.except m a0 := by
  refine except_mono h ?_
  unfold State.barmLatest
  (try simp only [State.endUnstarted_same, apply_ite (State.except 34360795137), apply_ite Prod.snd, apply_ite
      Prod.fst, ite_self, Nat.reduceAnd, foldl_same, foldl_same2, foldl_same1])
  repeat' split
  all_goals (try simp [State.endUnstarted_same, apply_ite (State.except 34360795137), apply_ite Prod.snd, apply_ite
      Prod.fst, ite_self, Nat.reduceAnd, foldl_same, foldl_same2, foldl_same1])

theorem State.barmEnterD2_same (m : Nat) (h : 34360795137 &&& m = 34360795137) (a0 : State) :
    State.except m (State.barmEnterD2 a0) = State.except m a0 := by
  refine except_mono h ?_
  unfold State.barmEnterD2
  (try simp only [State.barmSkip_same, State.setBarm_same, State.endEntry_same, State.endIssued_same,
      State.advanceList_same, apply_ite (State.except 34360795137), apply_ite Prod.snd, apply_ite Prod.fst, ite_self,
      Nat.reduceAnd, foldl_same, foldl_same2, foldl_same1])
  repeat' split
  all_goals (try simp [State.barmSkip_same, State.setBarm_same, State.endEntry_same, State.endIssued_same,
      State.advanceList_same, apply_ite (State.except 34360795137), apply_ite Prod.snd, apply_ite Prod.fst, ite_self,
      Nat.reduceAnd, foldl_same, foldl_same2, foldl_same1])

theorem State.barmReturn_same (m : Nat) (h : 1048576 &&& m = 1048576) (a0 : State) :
    State.except m (State.barmReturn a0) = State.except m a0 := by
  refine except_mono h ?_
  unfold State.barmReturn
  simp only [State.setBarm_same, apply_ite (State.except 1048576), apply_ite Prod.snd, apply_ite Prod.fst, ite_self,
      Nat.reduceAnd, foldl_same, foldl_same2, foldl_same1]

theorem State.takeMeans_same (m : Nat) (h : 1073741825 &&& m = 1073741825) (a0 : State) (a1 : GaugeSecond) :
    State.except m (State.takeMeans a0 a1) = State.except m a0 := by
  refine except_mono h ?_
  unfold State.takeMeans
  (try simp only [State.setBga_same, State.wr_same, apply_ite (State.except 1073741825), apply_ite Prod.snd, apply_ite
      Prod.fst, ite_self, Nat.reduceAnd, foldl_same, foldl_same2, foldl_same1])
  repeat' split
  all_goals (try simp [State.setBga_same, State.wr_same, apply_ite (State.except 1073741825), apply_ite Prod.snd,
      apply_ite Prod.fst, ite_self, Nat.reduceAnd, foldl_same, foldl_same2, foldl_same1])

theorem State.senseShow_same (m : Nat) (h : 1073741825 &&& m = 1073741825) (a0 : State) :
    State.except m (State.senseShow a0) = State.except m a0 := by
  refine except_mono h ?_
  unfold State.senseShow
  simp only [State.wr_same, State.raise_same, State.learnEnd_same, apply_ite (State.except 1073741825), apply_ite
      Prod.snd, apply_ite Prod.fst, ite_self, Nat.reduceAnd, foldl_same, foldl_same2, foldl_same1]

theorem State.probeSettle_same (m : Nat) (h : 1073741825 &&& m = 1073741825) (a0 : State) :
    State.except m (State.probeSettle a0) = State.except m a0 := by
  refine except_mono h ?_
  unfold State.probeSettle
  simp only [State.setBga_same, State.senseShow_same, apply_ite (State.except 1073741825), apply_ite Prod.snd,
      apply_ite Prod.fst, ite_self, Nat.reduceAnd, foldl_same, foldl_same2, foldl_same1]

theorem State.senseStep_same (m : Nat) (h : 1073741825 &&& m = 1073741825) (a0 : State) (a1 : GaugeSecond) :
    State.except m (State.senseStep a0 a1) = State.except m a0 := by
  refine except_mono h ?_
  unfold State.senseStep
  simp only [State.setBga_same, State.probeSettle_same, apply_ite (State.except 1073741825), apply_ite Prod.snd,
      apply_ite Prod.fst, ite_self, Nat.reduceAnd, foldl_same, foldl_same2, foldl_same1]

theorem State.restUpdate_same (m : Nat) (h : 1073741825 &&& m = 1073741825) (a0 : State) (a1 : GaugeSecond) :
    State.except m (State.restUpdate a0 a1) = State.except m a0 := by
  refine except_mono h ?_
  unfold State.restUpdate
  simp only [State.setBga_same, State.restClear_same, State.restShow_same, apply_ite (State.except 1073741825),
      apply_ite Prod.snd, apply_ite Prod.fst, ite_self, Nat.reduceAnd, foldl_same, foldl_same2, foldl_same1]

theorem State.ocvCorrect_same (m : Nat) (h : 1 &&& m = 1) (a0 : State) (a1 : GaugeSecond) :
    State.except m (State.ocvCorrect a0 a1) = State.except m a0 := by
  refine except_mono h ?_
  unfold State.ocvCorrect
  simp only [State.count_same, State.wr_same, State.raise_same, apply_ite (State.except 1), apply_ite Prod.snd,
      apply_ite Prod.fst, ite_self, Nat.reduceAnd, foldl_same, foldl_same2, foldl_same1]

theorem State.ocvDue_same (m : Nat) (h : 1073741825 &&& m = 1073741825) (a0 : State) (a1 : GaugeSecond) :
    State.except m (State.ocvDue a0 a1) = State.except m a0 := by
  refine except_mono h ?_
  unfold State.ocvDue
  simp only [State.ocvCorrect_same, State.setBga_same, apply_ite (State.except 1073741825), apply_ite Prod.snd,
      apply_ite Prod.fst, ite_self, Nat.reduceAnd, foldl_same, foldl_same2, foldl_same1]

theorem State.fullPoint_same (m : Nat) (h : 3221225473 &&& m = 3221225473) (a0 : State) :
    State.except m (State.fullPoint a0) = State.except m a0 := by
  refine except_mono h ?_
  unfold State.fullPoint
  simp only [State.raise_same, State.wr_same, State.setBga_same, State.setPst_same, apply_ite (State.except
      3221225473), apply_ite Prod.snd, apply_ite Prod.fst, ite_self, Nat.reduceAnd, foldl_same, foldl_same2,
      foldl_same1]

theorem State.emptyPoint_same (m : Nat) (h : 3221225473 &&& m = 3221225473) (a0 : State) :
    State.except m (State.emptyPoint a0) = State.except m a0 := by
  refine except_mono h ?_
  unfold State.emptyPoint
  simp only [State.raise_same, State.wr_same, State.setBga_same, State.learnEnd_same, State.mntDone_same, apply_ite
      (State.except 3221225473), apply_ite Prod.snd, apply_ite Prod.fst, ite_self, Nat.reduceAnd, foldl_same,
      foldl_same2, foldl_same1]

theorem State.cutNotice_same (m : Nat) (h : 3221225473 &&& m = 3221225473) (a0 : State) :
    State.except m (State.cutNotice a0) = State.except m a0 := by
  refine except_mono h ?_
  unfold State.cutNotice
  simp only [State.emptyPoint_same, State.wr_same, apply_ite (State.except 3221225473), apply_ite Prod.snd, apply_ite
      Prod.fst, ite_self, Nat.reduceAnd, foldl_same, foldl_same2, foldl_same1]

theorem State.countCharge_same (m : Nat) (h : 1073741825 &&& m = 1073741825) (a0 : State) (a1 : GaugeSecond) :
    State.except m (State.countCharge a0 a1) = State.except m a0 := by
  refine except_mono h ?_
  unfold State.countCharge
  simp only [State.wr_same, State.setBga_same, State.learnEnd_same, apply_ite (State.except 1073741825), apply_ite
      Prod.snd, apply_ite Prod.fst, ite_self, Nat.reduceAnd, foldl_same, foldl_same2, foldl_same1]

theorem State.endRuns_same (m : Nat) (h : 1073741824 &&& m = 1073741824) (a0 : State) (a1 : GaugeSecond) :
    State.except m (State.endRuns a0 a1) = State.except m a0 := by
  refine except_mono h ?_
  unfold State.endRuns
  simp only [State.setBga_same, apply_ite (State.except 1073741824), apply_ite Prod.snd, apply_ite Prod.fst, ite_self,
      Nat.reduceAnd, foldl_same, foldl_same2, foldl_same1]

theorem State.socShow_same (m : Nat) (h : 1 &&& m = 1) (a0 : State) (a1 : GaugeSecond) (a2 : Bool) (a3 : Bool) :
    State.except m (State.socShow a0 a1 a2 a3) = State.except m a0 := by
  refine except_mono h ?_
  unfold State.socShow
  simp only [State.wr_same, State.raise_same, apply_ite (State.except 1), apply_ite Prod.snd, apply_ite Prod.fst,
      ite_self, Nat.reduceAnd, foldl_same, foldl_same2, foldl_same1]

theorem State.zWant_same (m : Nat) (h : 1 &&& m = 1) (a0 : State) :
    State.except m (State.zWant a0) = State.except m a0 := by
  refine except_mono h ?_
  unfold State.zWant
  simp only [State.raise_same, State.wr_same, apply_ite (State.except 1), apply_ite Prod.snd, apply_ite Prod.fst,
      ite_self, Nat.reduceAnd, foldl_same, foldl_same2, foldl_same1]

theorem State.coldStep_same (m : Nat) (h : 1073741825 &&& m = 1073741825) (a0 : State) (a1 : GaugeSecond) :
    State.except m (State.coldStep a0 a1) = State.except m a0 := by
  refine except_mono h ?_
  unfold State.coldStep
  simp only [State.wr_same, State.setBga_same, apply_ite (State.except 1073741825), apply_ite Prod.snd, apply_ite
      Prod.fst, ite_self, Nat.reduceAnd, foldl_same, foldl_same2, foldl_same1]

theorem State.runStep_same (m : Nat) (h : 3221225473 &&& m = 3221225473) (a0 : State) (a1 : GaugeSecond) :
    State.except m (State.runStep a0 a1) = State.except m a0 := by
  refine except_mono h ?_
  unfold State.runStep
  simp only [State.restUpdate_same, State.countCharge_same, State.endRuns_same, State.fullPoint_same,
      State.emptyPoint_same, State.ocvDue_same, State.wr_same, State.socShow_same, apply_ite (State.except
      3221225473), apply_ite Prod.snd, apply_ite Prod.fst, ite_self, Nat.reduceAnd, foldl_same, foldl_same2,
      foldl_same1]

theorem State.chgStep_same (m : Nat) (h : 1 &&& m = 1) (a0 : State) :
    State.except m (State.chgStep a0) = State.except m a0 := by
  refine except_mono h ?_
  unfold State.chgStep
  simp only [State.setChg_same, apply_ite (State.except 1), apply_ite Prod.snd, apply_ite Prod.fst, ite_self,
      Nat.reduceAnd, foldl_same, foldl_same2, foldl_same1]

theorem State.verifyLoad_same (m : Nat) (h : 2097153 &&& m = 2097153) (a0 : State) (a1 : ℕ) (a2 : SlotImage) :
    State.except m (State.verifyLoad a0 a1 a2).2 = State.except m a0 := by
  refine except_mono h ?_
  unfold State.verifyLoad
  simp only [State.wr_same, State.setCcx_same, apply_ite (State.except 2097153), apply_ite Prod.snd, apply_ite
      Prod.fst, ite_self, Nat.reduceAnd, foldl_same, foldl_same2, foldl_same1]

theorem State.startImage_same (m : Nat) (h : 2097153 &&& m = 2097153) (a0 : State) (a1 : ℕ) (a2 : ℕ) (a3 : SlotImage)
    :
    State.except m (State.startImage a0 a1 a2 a3) = State.except m a0 := by
  refine except_mono h ?_
  unfold State.startImage
  simp only [State.wr_same, State.runHarts_same, State.setCcx_same, apply_ite (State.except 2097153), apply_ite
      Prod.snd, apply_ite Prod.fst, ite_self, Nat.reduceAnd, foldl_same, foldl_same2, foldl_same1]

theorem State.enterRecovery_same (m : Nat) (h : 2097409 &&& m = 2097409) (a0 : State) :
    State.except m (State.enterRecovery a0) = State.except m a0 := by
  refine except_mono h ?_
  unfold State.enterRecovery
  simp only [State.log_same, State.wr_same, State.runHarts_same, State.setCcx_same, apply_ite (State.except 2097409),
      apply_ite Prod.snd, apply_ite Prod.fst, ite_self, Nat.reduceAnd, foldl_same, foldl_same2, foldl_same1]

theorem State.bootStops_same (m : Nat) (h : 2097152 &&& m = 2097152) (a0 : State) :
    State.except m (State.bootStops a0) = State.except m a0 := by
  refine except_mono h ?_
  unfold State.bootStops
  simp only [State.setCcx_same, apply_ite (State.except 2097152), apply_ite Prod.snd, apply_ite Prod.fst, ite_self,
      Nat.reduceAnd, foldl_same, foldl_same2, foldl_same1]

theorem State.selectOther_same (m : Nat) (h : 6293761 &&& m = 6293761) (a0 : State) (a1 : ℕ) (a2 : ℕ) (a3 : ℕ) (a4 :
    ℕ) (a5 : ℕ → SlotImage) (a6 : Option ℕ) :
    State.except m (State.selectOther a0 a1 a2 a3 a4 a5 a6) = State.except m a0 := by
  refine except_mono h ?_
  unfold State.selectOther
  simp only [State.writeBoot_same, State.log_same, State.bootStops_same, State.verifyLoad_same, State.startImage_same,
      State.enterRecovery_same, apply_ite (State.except 6293761), apply_ite Prod.snd, apply_ite Prod.fst, ite_self,
      Nat.reduceAnd, foldl_same, foldl_same2, foldl_same1]

theorem State.selectImage_same (m : Nat) (h : 6293761 &&& m = 6293761) (a0 : State) (a1 : ℕ → SlotImage) (a2 : Option
    ℕ) :
    State.except m (State.selectImage a0 a1 a2) = State.except m a0 := by
  refine except_mono h ?_
  unfold State.selectImage
  simp only [State.readBoot_same, State.wr_same, State.writeBoot_same, State.bootStops_same, State.log_same,
      State.verifyLoad_same, State.startImage_same, State.selectOther_same, apply_ite (State.except 6293761),
      apply_ite Prod.snd, apply_ite Prod.fst, ite_self, Nat.reduceAnd, foldl_same, foldl_same2, foldl_same1]

theorem State.hifShow_same (m : Nat) (h : 1 &&& m = 1) (a0 : State) :
    State.except m (State.hifShow a0) = State.except m a0 := by
  refine except_mono h ?_
  unfold State.hifShow
  repeat' (first | rfl | simp only [State.wr_same, apply_ite (State.except 1), apply_ite Prod.snd, apply_ite Prod.fst,
      ite_self, Nat.reduceAnd, foldl_same, foldl_same2, foldl_same1] | split)

theorem State.sessionEvent_same (m : Nat) (h : 1 &&& m = 1) (a0 : State) (a1 : ℕ) :
    State.except m (State.sessionEvent a0 a1) = State.except m a0 := by
  refine except_mono h ?_
  unfold State.sessionEvent
  simp only [State.raise_same, apply_ite (State.except 1), apply_ite Prod.snd, apply_ite Prod.fst, ite_self,
      Nat.reduceAnd, foldl_same, foldl_same2, foldl_same1]

theorem State.endSession_same (m : Nat) (h : 17179869185 &&& m = 17179869185) (a0 : State) (a1 : ℕ) (a2 : ℕ) :
    State.except m (State.endSession a0 a1 a2) = State.except m a0 := by
  refine except_mono h ?_
  unfold State.endSession
  (try simp only [State.setHif_same, State.hifShow_same, State.sessionEvent_same, apply_ite (State.except
      17179869185), apply_ite Prod.snd, apply_ite Prod.fst, ite_self, Nat.reduceAnd, foldl_same, foldl_same2,
      foldl_same1])
  repeat' split
  all_goals (try simp only [State.setHif_same, State.hifShow_same, State.sessionEvent_same, apply_ite (State.except
      17179869185), apply_ite Prod.snd, apply_ite Prod.fst, ite_self, Nat.reduceAnd, foldl_same, foldl_same2,
      foldl_same1])

theorem State.endSessions_same (m : Nat) (h : 17179869185 &&& m = 17179869185) (a0 : State) :
    State.except m (State.endSessions a0) = State.except m a0 := by
  refine except_mono h ?_
  unfold State.endSessions
  (try simp only [State.endSession_same, apply_ite (State.except 17179869185), apply_ite Prod.snd, apply_ite Prod.fst,
      ite_self, Nat.reduceAnd, foldl_same, foldl_same2, foldl_same1])
  repeat' split
  all_goals (try simp [State.endSession_same, apply_ite (State.except 17179869185), apply_ite Prod.snd, apply_ite
      Prod.fst, ite_self, Nat.reduceAnd, foldl_same, foldl_same2, foldl_same1])

theorem State.degradeRunning_same (m : Nat) (h : 262144 &&& m = 262144) (a0 : State) :
    State.except m (State.degradeRunning a0) = State.except m a0 := by
  refine except_mono h ?_
  unfold State.degradeRunning
  simp only [State.setTun_same, apply_ite (State.except 262144), apply_ite Prod.snd, apply_ite Prod.fst, ite_self,
      Nat.reduceAnd, foldl_same, foldl_same2, foldl_same1]

theorem State.routerDone_same (m : Nat) (h : 1048577 &&& m = 1048577) (a0 : State) (a1 : RouterOp) (a2 : Status) (a3 :
    ℕ) :
    State.except m (State.routerDone a0 a1 a2 a3) = State.except m a0 := by
  refine except_mono h ?_
  unfold State.routerDone
  simp only [State.signal_same, State.raise_same, State.count_same, State.setList_same, State.entryDone_same,
      apply_ite (State.except 1048577), apply_ite Prod.snd, apply_ite Prod.fst, ite_self, Nat.reduceAnd, foldl_same,
      foldl_same2, foldl_same1]

theorem State.ltrEnterD2_same (m : Nat) (h : 1572865 &&& m = 1572865) (a0 : State) :
    State.except m (State.ltrEnterD2 a0) = State.except m a0 := by
  refine except_mono h ?_
  unfold State.ltrEnterD2
  (try simp only [State.routerDone_same, State.setLtr_same, apply_ite (State.except 1572865), apply_ite Prod.snd,
      apply_ite Prod.fst, ite_self, Nat.reduceAnd, foldl_same, foldl_same2, foldl_same1])
  repeat' split
  all_goals (try simp [State.routerDone_same, State.setLtr_same, apply_ite (State.except 1572865), apply_ite Prod.snd,
      apply_ite Prod.fst, ite_self, Nat.reduceAnd, foldl_same, foldl_same2, foldl_same1])

theorem State.burstFall_same (m : Nat) (h : 262145 &&& m = 262145) (a0 : State) (a1 : ℕ) :
    State.except m (State.burstFall a0 a1) = State.except m a0 := by
  refine except_mono h ?_
  unfold State.burstFall
  simp only [State.wr64_same, State.setTun_same, apply_ite (State.except 262145), apply_ite Prod.snd, apply_ite
      Prod.fst, ite_self, Nat.reduceAnd, foldl_same, foldl_same2, foldl_same1]

theorem State.burstCut_same (m : Nat) (h : 262145 &&& m = 262145) (a0 : State) (a1 : Status) :
    State.except m (State.burstCut a0 a1) = State.except m a0 := by
  refine except_mono h ?_
  unfold State.burstCut
  (try simp only [State.burstEnd_same, State.burstFall_same, apply_ite (State.except 262145), apply_ite Prod.snd,
      apply_ite Prod.fst, ite_self, Nat.reduceAnd, foldl_same, foldl_same2, foldl_same1])
  repeat' split
  all_goals (try simp only [State.burstEnd_same, State.burstFall_same, apply_ite (State.except 262145), apply_ite
      Prod.snd, apply_ite Prod.fst, ite_self, Nat.reduceAnd, foldl_same, foldl_same2, foldl_same1])

theorem State.tunEnterD2_same (m : Nat) (h : 34361049089 &&& m = 34361049089) (a0 : State) :
    State.except m (State.tunEnterD2 a0) = State.except m a0 := by
  refine except_mono h ?_
  unfold State.tunEnterD2
  (try simp only [State.burstCut_same, State.setTun_same, State.setSparge_same, State.endEntry_same,
      State.invalidate_same, except_upd_mem, apply_ite (State.except 34361049089), apply_ite Prod.snd, apply_ite
      Prod.fst, ite_self, Nat.reduceAnd, foldl_same, foldl_same2, foldl_same1])
  repeat' split
  all_goals (try simp [State.burstCut_same, State.setTun_same, State.setSparge_same, State.endEntry_same,
      State.invalidate_same, except_upd_mem, apply_ite (State.except 34361049089), apply_ite Prod.snd, apply_ite
      Prod.fst, ite_self, Nat.reduceAnd, foldl_same, foldl_same2, foldl_same1])

theorem State.enterD2_same (m : Nat) (h : 34361581569 &&& m = 34361581569) (a0 : State) :
    State.except m (State.enterD2 a0) = State.except m a0 := by
  refine except_mono h ?_
  unfold State.enterD2
  simp only [State.barmEnterD2_same, State.ltrEnterD2_same, State.tunEnterD2_same, apply_ite (State.except
      34361581569), apply_ite Prod.snd, apply_ite Prod.fst, ite_self, Nat.reduceAnd, foldl_same, foldl_same2,
      foldl_same1]

theorem State.endDownlink_same (m : Nat) (h : 16777217 &&& m = 16777217) (a0 : State) (a1 : ℕ) (a2 : Status) :
    State.except m (State.endDownlink a0 a1 a2).2 = State.except m a0 := by
  refine except_mono h ?_
  unfold State.endDownlink
  (try simp only [State.raise_same, State.setStream_same, State.count_same, apply_ite (State.except 16777217),
      apply_ite Prod.snd, apply_ite Prod.fst, ite_self, Nat.reduceAnd, foldl_same, foldl_same2, foldl_same1])
  repeat' split
  all_goals (try simp only [State.raise_same, State.setStream_same, State.count_same, apply_ite (State.except
      16777217), apply_ite Prod.snd, apply_ite Prod.fst, ite_self, Nat.reduceAnd, foldl_same, foldl_same2,
      foldl_same1])

theorem State.plpEnterD3_same (m : Nat) (h : 16777217 &&& m = 16777217) (a0 : State) :
    State.except m (State.plpEnterD3 a0).2 = State.except m a0 := by
  refine except_mono h ?_
  unfold State.plpEnterD3
  (try simp only [State.endDownlink_same, apply_ite (State.except 16777217), apply_ite Prod.snd, apply_ite Prod.fst,
      ite_self, Nat.reduceAnd, foldl_same, foldl_same2, foldl_same1])
  repeat' split
  all_goals (try simp [State.endDownlink_same, apply_ite (State.except 16777217), apply_ite Prod.snd, apply_ite
      Prod.fst, ite_self, Nat.reduceAnd, foldl_same, foldl_same2, foldl_same1])

theorem State.downsDone_same (m : Nat) (h : 34393300993 &&& m = 34393300993) (a0 : State) (a1 : List DownDone) :
    State.except m (State.downsDone a0 a1) = State.except m a0 := by
  refine except_mono h ?_
  unfold State.downsDone
  (try simp only [State.endNodeDown_same, apply_ite (State.except 34393300993), apply_ite Prod.snd, apply_ite
      Prod.fst, ite_self, Nat.reduceAnd, foldl_same, foldl_same2, foldl_same1])
  repeat' split
  all_goals (try simp [State.endNodeDown_same, apply_ite (State.except 34393300993), apply_ite Prod.snd, apply_ite
      Prod.fst, ite_self, Nat.reduceAnd, foldl_same, foldl_same2, foldl_same1])

theorem State.plmEnterD3_same (m : Nat) (h : 34418466817 &&& m = 34418466817) (a0 : State) :
    State.except m (State.plmEnterD3 a0) = State.except m a0 := by
  refine except_mono h ?_
  unfold State.plmEnterD3
  (try simp only [State.cutTone_same, State.endFrame_same, State.plpEnterD3_same, State.downsDone_same, apply_ite
      (State.except 34418466817), apply_ite Prod.snd, apply_ite Prod.fst, ite_self, Nat.reduceAnd, foldl_same,
      foldl_same2, foldl_same1])
  repeat' split
  all_goals (try simp [State.cutTone_same, State.endFrame_same, State.plpEnterD3_same, State.downsDone_same, apply_ite
      (State.except 34418466817), apply_ite Prod.snd, apply_ite Prod.fst, ite_self, Nat.reduceAnd, foldl_same,
      foldl_same2, foldl_same1])

theorem State.ccxEnterD3_same (m : Nat) (h : 34361835521 &&& m = 34361835521) (a0 : State) :
    State.except m (State.ccxEnterD3 a0) = State.except m a0 := by
  refine except_mono h ?_
  unfold State.ccxEnterD3
  repeat' (first | rfl | simp only [State.wr_same, State.resetHart_same, except_upd_ccx_mem, apply_ite (State.except
      34361835521), apply_ite Prod.snd, apply_ite Prod.fst, ite_self, Nat.reduceAnd, foldl_same, foldl_same2,
      foldl_same1] | split)

theorem State.pqeLog_same (m : Nat) (h : 256 &&& m = 256) (a0 : State) (a1 : ℕ) (a2 : Bool) (a3 : ℕ) (a4 : ℕ) (a5 : ℕ)
    :
    State.except m (State.pqeLog a0 a1 a2 a3 a4 a5) = State.except m a0 := by
  refine except_mono h ?_
  unfold State.pqeLog
  simp only [State.log_same, apply_ite (State.except 256), apply_ite Prod.snd, apply_ite Prod.fst, ite_self,
      Nat.reduceAnd, foldl_same, foldl_same2, foldl_same1]

theorem State.setPqe_same (m : Nat) (h : 131072 &&& m = 131072) (a0 : State) (a1 : PqeState → PqeState) :
    State.except m (State.setPqe a0 a1) = State.except m a0 := by
  refine except_mono h ?_
  simp only [State.except, setPqe_frame]
  rfl

theorem State.pqeRecord_same (m : Nat) (h : 131073 &&& m = 131073) (a0 : State) (a1 : ℕ) (a2 : Bool) (a3 : Status) (a4
    : ℕ) (a5 : ℕ) (a6 : ℕ) (a7 : ℕ) (a8 : ℕ) :
    State.except m (State.pqeRecord a0 a1 a2 a3 a4 a5 a6 a7 a8) = State.except m a0 := by
  refine except_mono h ?_
  unfold State.pqeRecord
  simp only [State.raise_same, State.count_same, State.wr_same, State.setPqe_same, apply_ite (State.except 131073),
      apply_ite Prod.snd, apply_ite Prod.fst, ite_self, Nat.reduceAnd, foldl_same, foldl_same2, foldl_same1]

theorem State.closeAs_same (m : Nat) (h : 131329 &&& m = 131329) (a0 : State) (a1 : PqEvent) (a2 : Status) :
    State.except m (State.closeAs a0 a1 a2) = State.except m a0 := by
  refine except_mono h ?_
  unfold State.closeAs
  simp only [State.pqeLog_same, State.pqeRecord_same, State.setPqe_same, apply_ite (State.except 131329), apply_ite
      Prod.snd, apply_ite Prod.fst, ite_self, Nat.reduceAnd, foldl_same, foldl_same2, foldl_same1]

theorem State.pqeEnterD3_same (m : Nat) (h : 131329 &&& m = 131329) (a0 : State) :
    State.except m (State.pqeEnterD3 a0) = State.except m a0 := by
  refine except_mono h ?_
  unfold State.pqeEnterD3
  (try simp only [State.closeAs_same, State.setPqe_same, State.wr_same, apply_ite (State.except 131329), apply_ite
      Prod.snd, apply_ite Prod.fst, ite_self, Nat.reduceAnd, foldl_same, foldl_same2, foldl_same1])
  repeat' split
  all_goals (try simp [State.closeAs_same, State.setPqe_same, State.wr_same, apply_ite (State.except 131329),
      apply_ite Prod.snd, apply_ite Prod.fst, ite_self, Nat.reduceAnd, foldl_same, foldl_same2, foldl_same1])

theorem State.storeResult_same (m : Nat) (h : 536870913 &&& m = 536870913) (a0 : State) (a1 : Sweep) (a2 : ℕ) (a3 : ℕ)
    (a4 : ℕ) :
    State.except m (State.storeResult a0 a1 a2 a3 a4) = State.except m a0 := by
  refine except_mono h ?_
  unfold State.storeResult
  simp only [State.setSwc_same, State.wr_same, apply_ite (State.except 536870913), apply_ite Prod.snd, apply_ite
      Prod.fst, ite_self, Nat.reduceAnd, foldl_same, foldl_same2, foldl_same1]

theorem State.logReport_same (m : Nat) (h : 256 &&& m = 256) (a0 : State) (a1 : SweepReport) (a2 : ℕ) :
    State.except m (State.logReport a0 a1 a2) = State.except m a0 := by
  refine except_mono h ?_
  unfold State.logReport
  simp only [State.log_same, apply_ite (State.except 256), apply_ite Prod.snd, apply_ite Prod.fst, ite_self,
      Nat.reduceAnd, foldl_same, foldl_same2, foldl_same1]

theorem State.setReport_same (m : Nat) (h : 536870912 &&& m = 536870912) (a0 : State) (a1 : ℕ) (a2 : SweepReport →
    SweepReport) :
    State.except m (State.setReport a0 a1 a2) = State.except m a0 := by
  refine except_mono h ?_
  unfold State.setReport
  simp only [State.setSwc_same, apply_ite (State.except 536870912), apply_ite Prod.snd, apply_ite Prod.fst, ite_self,
      Nat.reduceAnd, foldl_same, foldl_same2, foldl_same1]

theorem State.finalise_same (m : Nat) (h : 536871169 &&& m = 536871169) (a0 : State) (a1 : SweepReport) :
    State.except m (State.finalise a0 a1) = State.except m a0 := by
  refine except_mono h ?_
  unfold State.finalise
  dsimp only
  try simp only [State.logReport_same, State.setReport_same, State.log_same, State.swcShow_same, State.raise_same,
      Nat.reduceAnd]
  refine (foldl_same _ _ (fun t x => ?_) _ _).trans ?_
  · (repeat' split) <;> simp only [State.logReport_same, State.setReport_same, State.log_same, State.swcShow_same,
      State.raise_same, apply_ite (State.except 536871169), apply_ite Prod.snd, apply_ite Prod.fst, ite_self,
      Nat.reduceAnd, foldl_same, foldl_same2, foldl_same1]
  · simp only [State.logReport_same, State.setReport_same, State.log_same, State.swcShow_same, State.raise_same,
      apply_ite (State.except 536871169), apply_ite Prod.snd, apply_ite Prod.fst, ite_self, Nat.reduceAnd, foldl_same,
      foldl_same2, foldl_same1]

theorem State.swcEnterD3_same (m : Nat) (h : 536871169 &&& m = 536871169) (a0 : State) :
    State.except m (State.swcEnterD3 a0) = State.except m a0 := by
  refine except_mono h ?_
  unfold State.swcEnterD3
  (try simp only [State.log_same, State.storeResult_same, State.setSwc_same, State.finalise_same, State.raise_same,
      State.swcShow_same, State.wr_same, apply_ite (State.except 536871169), apply_ite Prod.snd, apply_ite Prod.fst,
      ite_self, Nat.reduceAnd, foldl_same, foldl_same2, foldl_same1])
  repeat' split
  all_goals (try simp [State.log_same, State.storeResult_same, State.setSwc_same, State.finalise_same,
      State.raise_same, State.swcShow_same, State.wr_same, apply_ite (State.except 536871169), apply_ite Prod.snd,
      apply_ite Prod.fst, ite_self, Nat.reduceAnd, foldl_same, foldl_same2, foldl_same1])

theorem State.celEnterD3_same (m : Nat) (h : 34363940865 &&& m = 34363940865) (a0 : State) :
    State.except m (State.celEnterD3 a0) = State.except m a0 := by
  refine except_mono h ?_
  unfold State.celEnterD3
  (try simp only [State.celRefuse_same, State.setCel_same, apply_ite (State.except 34363940865), apply_ite Prod.snd,
      apply_ite Prod.fst, ite_self, Nat.reduceAnd, foldl_same, foldl_same2, foldl_same1])
  repeat' split
  all_goals (try simp [State.celRefuse_same, State.setCel_same, apply_ite (State.except 34363940865), apply_ite
      Prod.snd, apply_ite Prod.fst, ite_self, Nat.reduceAnd, foldl_same, foldl_same2, foldl_same1])

theorem State.secEnterD3_same (m : Nat) (h : 34628182017 &&& m = 34628182017) (a0 : State) :
    State.except m (State.secEnterD3 a0) = State.except m a0 := by
  refine except_mono h ?_
  unfold State.secEnterD3
  (try simp only [State.secRefuse_same, State.setSec_same, apply_ite (State.except 34628182017), apply_ite Prod.snd,
      apply_ite Prod.fst, ite_self, Nat.reduceAnd, foldl_same, foldl_same2, foldl_same1])
  repeat' split
  all_goals (try simp [State.secRefuse_same, State.setSec_same, apply_ite (State.except 34628182017), apply_ite
      Prod.snd, apply_ite Prod.fst, ite_self, Nat.reduceAnd, foldl_same, foldl_same2, foldl_same1])

theorem State.enterD3_same (m : Nat) (h : 52410065153 &&& m = 52410065153) (a0 : State) :
    State.except m (State.enterD3 a0) = State.except m a0 := by
  refine except_mono h ?_
  unfold State.enterD3
  simp only [State.plmEnterD3_same, State.ccxEnterD3_same, State.pqeEnterD3_same, State.wr_same,
      State.endSessions_same, State.swcEnterD3_same, State.celEnterD3_same, State.secEnterD3_same, apply_ite
      (State.except 52410065153), apply_ite Prod.snd, apply_ite Prod.fst, ite_self, Nat.reduceAnd, foldl_same,
      foldl_same2, foldl_same1]

theorem State.tellLevel_same (m : Nat) (h : 8449 &&& m = 8449) (a0 : State) (a1 : ℕ) (a2 : ℕ) (a3 : ℕ) :
    State.except m (State.tellLevel a0 a1 a2 a3) = State.except m a0 := by
  refine except_mono h ?_
  unfold State.tellLevel
  simp only [State.log_same, State.raise_same, State.count_same, State.ringAll_same, apply_ite (State.except 8449),
      apply_ite Prod.snd, apply_ite Prod.fst, ite_self, Nat.reduceAnd, foldl_same, foldl_same2, foldl_same1]

theorem State.setMon_same (m : Nat) (h : 4294967296 &&& m = 4294967296) (a0 : State) (a1 : MonState → MonState) :
    State.except m (State.setMon a0 a1) = State.except m a0 := by
  refine except_mono h ?_
  simp only [State.except, setMon_frame]
  rfl

theorem State.agesRestart_same (m : Nat) (h : 33554432 &&& m = 33554432) (a0 : State) :
    State.except m (State.agesRestart a0) = State.except m a0 := by
  refine except_mono h ?_
  unfold State.agesRestart
  simp only [State.setPlm_same, apply_ite (State.except 33554432), apply_ite Prod.snd, apply_ite Prod.fst, ite_self,
      Nat.reduceAnd, foldl_same, foldl_same2, foldl_same1]

theorem State.swcReturn_same (m : Nat) (h : 536871937 &&& m = 536871937) (a0 : State) :
    State.except m (State.swcReturn a0) = State.except m a0 := by
  refine except_mono h ?_
  unfold State.swcReturn
  simp only [State.enumerate_same, apply_ite (State.except 536871937), apply_ite Prod.snd, apply_ite Prod.fst,
      ite_self, Nat.reduceAnd, foldl_same, foldl_same2, foldl_same1]

theorem State.tunReturn_same (m : Nat) (h : 1 &&& m = 1) (a0 : State) :
    State.except m (State.tunReturn a0) = State.except m a0 := by
  refine except_mono h ?_
  unfold State.tunReturn
  simp only [State.clearRegs_same, apply_ite (State.except 1), apply_ite Prod.snd, apply_ite Prod.fst, ite_self,
      Nat.reduceAnd, foldl_same, foldl_same2, foldl_same1]

theorem State.leaveLevel_same (m : Nat) (h : 571474945 &&& m = 571474945) (a0 : State) (a1 : ℕ) (a2 : ℕ) :
    State.except m (State.leaveLevel a0 a1 a2) = State.except m a0 := by
  refine except_mono h ?_
  unfold State.leaveLevel
  simp only [State.agesRestart_same, State.swcReturn_same, State.barmReturn_same, State.tunReturn_same, apply_ite
      (State.except 571474945), apply_ite Prod.snd, apply_ite Prod.fst, ite_self, Nat.reduceAnd, foldl_same,
      foldl_same2, foldl_same1]

theorem State.transition_same (m : Nat) (h : 58854417697 &&& m = 58854417697) (a0 : State) (a1 : ℕ) (a2 : ℕ) :
    State.except m (State.transition a0 a1 a2) = State.except m a0 := by
  refine except_mono h ?_
  unfold State.transition
  simp only [State.degradeRunning_same, State.enterD2_same, State.enterD3_same, State.wr_same, State.tellLevel_same,
      State.setMon_same, State.leaveLevel_same, State.gateFrom_same, State.chgFollow_same, State.auxFollow_same,
      State.railsFollow_same, apply_ite (State.except 58854417697), apply_ite Prod.snd, apply_ite Prod.fst, ite_self,
      Nat.reduceAnd, foldl_same, foldl_same2, foldl_same1]

theorem State.settleLoss_same (m : Nat) (h : 58854417697 &&& m = 58854417697) (a0 : State) :
    State.except m (State.settleLoss a0) = State.except m a0 := by
  refine except_mono h ?_
  unfold State.settleLoss
  simp only [State.transition_same, apply_ite (State.except 58854417697), apply_ite Prod.snd, apply_ite Prod.fst,
      ite_self, Nat.reduceAnd, foldl_same, foldl_same2, foldl_same1]

theorem State.loadOtp_same (m : Nat) (h : 1 &&& m = 1) (a0 : State) :
    State.except m (State.loadOtp a0) = State.except m a0 := by
  refine except_mono h ?_
  unfold State.loadOtp
  repeat' (first | rfl | simp only [State.wr_same, State.otpShow_same, apply_ite (State.except 1), apply_ite Prod.snd,
      apply_ite Prod.fst, ite_self, Nat.reduceAnd, foldl_same, foldl_same2, foldl_same1] | split)

theorem State.plmStopRings_same (m : Nat) (h : 33554432 &&& m = 33554432) (a0 : State) :
    State.except m (State.plmStopRings a0) = State.except m a0 := by
  refine except_mono h ?_
  unfold State.plmStopRings
  simp only [State.setPlm_same, apply_ite (State.except 33554432), apply_ite Prod.snd, apply_ite Prod.fst, ite_self,
      Nat.reduceAnd, foldl_same, foldl_same2, foldl_same1]

theorem State.stopRings_same (m : Nat) (h : 306184192 &&& m = 306184192) (a0 : State) :
    State.except m (State.stopRings a0) = State.except m a0 := by
  refine except_mono h ?_
  unfold State.stopRings
  simp only [State.setCel_same, State.setSec_same, State.plmStopRings_same, apply_ite (State.except 306184192),
      apply_ite Prod.snd, apply_ite Prod.fst, ite_self, Nat.reduceAnd, foldl_same, foldl_same2, foldl_same1]

theorem State.warmBlocks_same (m : Nat) (h : 51543539759 &&& m = 51543539759) (a0 : State) :
    State.except m (State.warmBlocks a0) = State.except m a0 := by
  refine except_mono h ?_
  unfold State.warmBlocks
  repeat' (first | rfl | simp only [apply_ite (State.except 51543539759), apply_ite Prod.snd, apply_ite Prod.fst,
      ite_self, Nat.reduceAnd, foldl_same, foldl_same2, foldl_same1] | split)

theorem State.resetRecord_same (m : Nat) (h : 1 &&& m = 1) (a0 : State) (a1 : ℕ) (a2 : ℕ) (a3 : ℕ) :
    State.except m (State.resetRecord a0 a1 a2 a3) = State.except m a0 := by
  refine except_mono h ?_
  unfold State.resetRecord
  simp only [State.wr_same, apply_ite (State.except 1), apply_ite Prod.snd, apply_ite Prod.fst, ite_self,
      Nat.reduceAnd, foldl_same, foldl_same2, foldl_same1]

theorem State.countStart_same (m : Nat) (h : 8589934592 &&& m = 8589934592) (a0 : State) (a1 : ℕ) :
    State.except m (State.countStart a0 a1) = State.except m a0 := by
  refine except_mono h ?_
  unfold State.countStart
  simp only [except_upd_start, apply_ite (State.except 8589934592), apply_ite Prod.snd, apply_ite Prod.fst, ite_self,
      Nat.reduceAnd, foldl_same, foldl_same2, foldl_same1]

theorem State.systemReset_same (m : Nat) (h : 67444352303 &&& m = 67444352303) (a0 : State) (a1 : ℕ) :
    State.except m (State.systemReset a0 a1) = State.except m a0 := by
  refine except_mono h ?_
  unfold State.systemReset
  simp only [State.endSessions_same, State.settleLoss_same, State.wr_same, State.loadOtp_same, State.stopRings_same,
      State.warmBlocks_same, State.resetRecord_same, State.countStart_same, State.log_same, State.transition_same,
      State.setCcx_same, apply_ite (State.except 67444352303), apply_ite Prod.snd, apply_ite Prod.fst, ite_self,
      Nat.reduceAnd, foldl_same, foldl_same2, foldl_same1]

theorem State.waitUntil_same (m : Nat) (h : 4289 &&& m = 4289) (a0 : State) (a1 : ℕ) :
    State.except m (State.waitUntil a0 a1) = State.except m a0 := by
  refine except_mono h ?_
  unfold State.waitUntil
  simp only [State.advance_same, apply_ite (State.except 4289), apply_ite Prod.snd, apply_ite Prod.fst, ite_self,
      Nat.reduceAnd, foldl_same, foldl_same2, foldl_same1]

theorem State.ctfFollow_same (m : Nat) (h : 65569 &&& m = 65569) (a0 : State) (a1 : State) :
    State.except m (State.ctfFollow a0 a1) = State.except m a0 := by
  refine except_mono h ?_
  unfold State.ctfFollow
  simp only [State.gateFrom_same, apply_ite (State.except 65569), apply_ite Prod.snd, apply_ite Prod.fst, ite_self,
      Nat.reduceAnd, foldl_same, foldl_same2, foldl_same1]

theorem State.countGated_same (m : Nat) (h : 262145 &&& m = 262145) (a0 : State) :
    State.except m (State.countGated a0) = State.except m a0 := by
  refine except_mono h ?_
  unfold State.countGated
  repeat' (first | rfl | simp only [State.setTun_same, State.count_same, apply_ite (State.except 262145), apply_ite
      Prod.snd, apply_ite Prod.fst, ite_self, Nat.reduceAnd, foldl_same, foldl_same2, foldl_same1] | split)

theorem State.tunGate_same (m : Nat) (h : 262145 &&& m = 262145) (a0 : State) (a1 : State) :
    State.except m (State.tunGate a0 a1) = State.except m a0 := by
  refine except_mono h ?_
  unfold State.tunGate
  (try simp only [State.setTun_same, State.burstCut_same, State.countGated_same, apply_ite (State.except 262145),
      apply_ite Prod.snd, apply_ite Prod.fst, ite_self, Nat.reduceAnd, foldl_same, foldl_same2, foldl_same1])
  repeat' split
  all_goals (try simp only [State.setTun_same, State.burstCut_same, State.countGated_same, apply_ite (State.except
      262145), apply_ite Prod.snd, apply_ite Prod.fst, ite_self, Nat.reduceAnd, foldl_same, foldl_same2, foldl_same1])

theorem State.signalFollow_same (m : Nat) (h : 262145 &&& m = 262145) (a0 : State) (a1 : State) :
    State.except m (State.signalFollow a0 a1) = State.except m a0 := by
  refine except_mono h ?_
  unfold State.signalFollow
  simp only [State.gpioShow_same, State.tunGate_same, apply_ite (State.except 262145), apply_ite Prod.snd, apply_ite
      Prod.fst, ite_self, Nat.reduceAnd, foldl_same, foldl_same2, foldl_same1]

theorem State.refCompare_same (m : Nat) (h : 4294967297 &&& m = 4294967297) (a0 : State) (a1 : ℕ) :
    State.except m (State.refCompare a0 a1) = State.except m a0 := by
  refine except_mono h ?_
  unfold State.refCompare
  simp only [State.raise_same, State.count_same, State.wr_same, State.setMon_same, apply_ite (State.except
      4294967297), apply_ite Prod.snd, apply_ite Prod.fst, ite_self, Nat.reduceAnd, foldl_same, foldl_same2,
      foldl_same1]

theorem State.refBoundary_same (m : Nat) (h : 4294967299 &&& m = 4294967299) (a0 : State) (a1 : List (ℕ × Word)) :
    State.except m (State.refBoundary a0 a1) = State.except m a0 := by
  refine except_mono h ?_
  unfold State.refBoundary
  simp only [State.refCompare_same, except_upd_inForce, apply_ite (State.except 4294967299), apply_ite Prod.snd,
      apply_ite Prod.fst, ite_self, Nat.reduceAnd, foldl_same, foldl_same2, foldl_same1]

theorem State.latchPair_same (m : Nat) (h : 1 &&& m = 1) (a0 : State) :
    State.except m (State.latchPair a0) = State.except m a0 := by
  refine except_mono h ?_
  unfold State.latchPair
  simp only [State.wr_same, State.wr64_same, apply_ite (State.except 1), apply_ite Prod.snd, apply_ite Prod.fst,
      ite_self, Nat.reduceAnd, foldl_same, foldl_same2, foldl_same1]

theorem State.referenceLost_same (m : Nat) (h : 4353 &&& m = 4353) (a0 : State) :
    State.except m (State.referenceLost a0) = State.except m a0 := by
  refine except_mono h ?_
  unfold State.referenceLost
  (try simp only [State.flywheelLost_same, State.acquireOn_same, State.enterHoldover_same, apply_ite (State.except
      4353), apply_ite Prod.snd, apply_ite Prod.fst, ite_self, Nat.reduceAnd, foldl_same, foldl_same2, foldl_same1])
  repeat' split
  all_goals (try simp only [State.flywheelLost_same, State.acquireOn_same, State.enterHoldover_same, apply_ite
      (State.except 4353), apply_ite Prod.snd, apply_ite Prod.fst, ite_self, Nat.reduceAnd, foldl_same, foldl_same2,
      foldl_same1])

theorem State.forcedLoss_same (m : Nat) (h : 4353 &&& m = 4353) (a0 : State) :
    State.except m (State.forcedLoss a0) = State.except m a0 := by
  refine except_mono h ?_
  unfold State.forcedLoss
  simp only [State.flywheelLost_same, State.raise_same, State.leaveLocked_same, State.freeze_same,
      State.referenceLost_same, apply_ite (State.except 4353), apply_ite Prod.snd, apply_ite Prod.fst, ite_self,
      Nat.reduceAnd, foldl_same, foldl_same2, foldl_same1]

theorem State.countNoAnchor_same (m : Nat) (h : 1 &&& m = 1) (a0 : State) :
    State.except m (State.countNoAnchor a0) = State.except m a0 := by
  refine except_mono h ?_
  unfold State.countNoAnchor
  simp only [State.wr_same, apply_ite (State.except 1), apply_ite Prod.snd, apply_ite Prod.fst, ite_self,
      Nat.reduceAnd, foldl_same, foldl_same2, foldl_same1]

theorem State.qualCycle_same (m : Nat) (h : 4097 &&& m = 4097) (a0 : State) :
    State.except m (State.qualCycle a0) = State.except m a0 := by
  refine except_mono h ?_
  unfold State.qualCycle
  simp only [State.showQual_same, except_upd_ctf, apply_ite (State.except 4097), apply_ite Prod.snd, apply_ite
      Prod.fst, ite_self, Nat.reduceAnd, foldl_same, foldl_same2, foldl_same1]

theorem State.ctfBoundary_same (m : Nat) (h : 4353 &&& m = 4353) (a0 : State) (a1 : Bool) :
    State.except m (State.ctfBoundary a0 a1) = State.except m a0 := by
  refine except_mono h ?_
  unfold State.ctfBoundary
  simp only [State.latchPair_same, State.log_same, State.raise_same, State.forcedLoss_same, State.countNoAnchor_same,
      State.seek_same, State.qualCycle_same, except_upd_ctf, apply_ite (State.except 4353), apply_ite Prod.snd,
      apply_ite Prod.fst, ite_self, Nat.reduceAnd, foldl_same, foldl_same2, foldl_same1]

theorem State.setTmp_same (m : Nat) (h : 67108864 &&& m = 67108864) (a0 : State) (a1 : TmpState → TmpState) :
    State.except m (State.setTmp a0 a1) = State.except m a0 := by
  refine except_mono h ?_
  simp only [State.except, setTmp_frame]
  rfl

theorem State.tmpShow_same (m : Nat) (h : 1 &&& m = 1) (a0 : State) :
    State.except m (State.tmpShow a0) = State.except m a0 := by
  refine except_mono h ?_
  unfold State.tmpShow
  simp only [State.wr_same, apply_ite (State.except 1), apply_ite Prod.snd, apply_ite Prod.fst, ite_self,
      Nat.reduceAnd, foldl_same, foldl_same2, foldl_same1]

theorem State.magRelease_same (m : Nat) (h : 67109121 &&& m = 67109121) (a0 : State) (a1 : ℕ) :
    State.except m (State.magRelease a0 a1) = State.except m a0 := by
  refine except_mono h ?_
  unfold State.magRelease
  (try simp only [State.setTmp_same, State.log_same, State.raise_same, State.tmpShow_same, apply_ite (State.except
      67109121), apply_ite Prod.snd, apply_ite Prod.fst, ite_self, Nat.reduceAnd, foldl_same, foldl_same2,
      foldl_same1])
  repeat' split
  all_goals (try simp only [State.setTmp_same, State.log_same, State.raise_same, State.tmpShow_same, apply_ite
      (State.except 67109121), apply_ite Prod.snd, apply_ite Prod.fst, ite_self, Nat.reduceAnd, foldl_same,
      foldl_same2, foldl_same1])

theorem State.encRelease_same (m : Nat) (h : 67109121 &&& m = 67109121) (a0 : State) (a1 : ℕ) :
    State.except m (State.encRelease a0 a1) = State.except m a0 := by
  refine except_mono h ?_
  unfold State.encRelease
  (try simp only [State.setTmp_same, State.log_same, State.raise_same, State.tmpShow_same, apply_ite (State.except
      67109121), apply_ite Prod.snd, apply_ite Prod.fst, ite_self, Nat.reduceAnd, foldl_same, foldl_same2,
      foldl_same1])
  repeat' split
  all_goals (try simp only [State.setTmp_same, State.log_same, State.raise_same, State.tmpShow_same, apply_ite
      (State.except 67109121), apply_ite Prod.snd, apply_ite Prod.fst, ite_self, Nat.reduceAnd, foldl_same,
      foldl_same2, foldl_same1])

theorem State.tmpBoundary_same (m : Nat) (h : 67109121 &&& m = 67109121) (a0 : State) :
    State.except m (State.tmpBoundary a0) = State.except m a0 := by
  refine except_mono h ?_
  unfold State.tmpBoundary
  (try simp only [State.magRelease_same, State.encRelease_same, apply_ite (State.except 67109121), apply_ite Prod.snd,
      apply_ite Prod.fst, ite_self, Nat.reduceAnd, foldl_same, foldl_same2, foldl_same1])
  repeat' split
  all_goals (try simp [State.magRelease_same, State.encRelease_same, apply_ite (State.except 67109121), apply_ite
      Prod.snd, apply_ite Prod.fst, ite_self, Nat.reduceAnd, foldl_same, foldl_same2, foldl_same1])

theorem State.openCycle_same (m : Nat) (h : 4099 &&& m = 4099) (a0 : State) :
    State.except m (State.openCycle a0) = State.except m a0 := by
  refine except_mono h ?_
  unfold State.openCycle
  simp only [State.count_same, except_upd_inForce_ctf, apply_ite (State.except 4099), apply_ite Prod.snd, apply_ite
      Prod.fst, ite_self, Nat.reduceAnd, foldl_same, foldl_same2, foldl_same1]

theorem State.mteBoundary_same (m : Nat) (h : 32768 &&& m = 32768) (a0 : State) (a1 : List ℕ) (a2 : CycleEnd) (a3 :
    CycleOpen) :
    State.except m (State.mteBoundary a0 a1 a2 a3) = State.except m a0 := by
  refine except_mono h ?_
  unfold State.mteBoundary
  simp only [except_upd_mte, apply_ite (State.except 32768), apply_ite Prod.snd, apply_ite Prod.fst, ite_self,
      Nat.reduceAnd, foldl_same, foldl_same2, foldl_same1]

theorem State.hold16_same (m : Nat) (h : 131072 &&& m = 131072) (a0 : State) (a1 : ℕ) (a2 : ℤ) :
    State.except m (State.hold16 a0 a1 a2) = State.except m a0 := by
  refine except_mono h ?_
  unfold State.hold16
  simp only [State.setPqe_same, apply_ite (State.except 131072), apply_ite Prod.snd, apply_ite Prod.fst, ite_self,
      Nat.reduceAnd, foldl_same, foldl_same2, foldl_same1]

theorem State.holdAngles_same (m : Nat) (h : 131072 &&& m = 131072) (a0 : State) (a1 : List (ℕ × Word)) (a2 : ℕ) :
    State.except m (State.holdAngles a0 a1 a2) = State.except m a0 := by
  refine except_mono h ?_
  unfold State.holdAngles
  (try simp only [State.hold16_same, apply_ite (State.except 131072), apply_ite Prod.snd, apply_ite Prod.fst,
      ite_self, Nat.reduceAnd, foldl_same, foldl_same2, foldl_same1])
  repeat' split
  all_goals (try simp [State.hold16_same, apply_ite (State.except 131072), apply_ite Prod.snd, apply_ite Prod.fst,
      ite_self, Nat.reduceAnd, foldl_same, foldl_same2, foldl_same1])

theorem State.tally_same (m : Nat) (h : 131072 &&& m = 131072) (a0 : State) (a1 : ℕ) (a2 : Bool) :
    State.except m (State.tally a0 a1 a2) = State.except m a0 := by
  refine except_mono h ?_
  unfold State.tally
  simp only [State.setPqe_same, apply_ite (State.except 131072), apply_ite Prod.snd, apply_ite Prod.fst, ite_self,
      Nat.reduceAnd, foldl_same, foldl_same2, foldl_same1]

theorem State.openEvent_same (m : Nat) (h : 131329 &&& m = 131329) (a0 : State) (a1 : ℕ) (a2 : ℕ) (a3 : ℕ) (a4 : ℕ) :
    State.except m (State.openEvent a0 a1 a2 a3 a4) = State.except m a0 := by
  refine except_mono h ?_
  unfold State.openEvent
  simp only [State.pqeLog_same, State.pqeRecord_same, State.setPqe_same, apply_ite (State.except 131329), apply_ite
      Prod.snd, apply_ite Prod.fst, ite_self, Nat.reduceAnd, foldl_same, foldl_same2, foldl_same1]

theorem State.closeEvent_same (m : Nat) (h : 131329 &&& m = 131329) (a0 : State) (a1 : ℕ) (a2 : ℕ) :
    State.except m (State.closeEvent a0 a1 a2) = State.except m a0 := by
  refine except_mono h ?_
  unfold State.closeEvent
  (try simp only [State.closeAs_same, apply_ite (State.except 131329), apply_ite Prod.snd, apply_ite Prod.fst,
      ite_self, Nat.reduceAnd, foldl_same, foldl_same2, foldl_same1])
  repeat' split
  all_goals (try simp only [State.closeAs_same, apply_ite (State.except 131329), apply_ite Prod.snd, apply_ite
      Prod.fst, ite_self, Nat.reduceAnd, foldl_same, foldl_same2, foldl_same1])

theorem State.seqCycle_same (m : Nat) (h : 131329 &&& m = 131329) (a0 : State) (a1 : List (ℕ × Word)) (a2 : ℕ) (a3 :
    ℕ) :
    State.except m (State.seqCycle a0 a1 a2 a3) = State.except m a0 := by
  refine except_mono h ?_
  unfold State.seqCycle
  (try simp only [State.tally_same, State.wr_same, State.setPqe_same, State.openEvent_same, State.closeEvent_same,
      apply_ite (State.except 131329), apply_ite Prod.snd, apply_ite Prod.fst, ite_self, Nat.reduceAnd, foldl_same,
      foldl_same2, foldl_same1])
  repeat' split
  all_goals (try simp only [State.tally_same, State.wr_same, State.setPqe_same, State.openEvent_same,
      State.closeEvent_same, apply_ite (State.except 131329), apply_ite Prod.snd, apply_ite Prod.fst, ite_self,
      Nat.reduceAnd, foldl_same, foldl_same2, foldl_same1])

theorem State.blockCycle_same (m : Nat) (h : 131072 &&& m = 131072) (a0 : State) (a1 : List (ℕ × Word)) (a2 : ℕ) :
    State.except m (State.blockCycle a0 a1 a2) = State.except m a0 := by
  refine except_mono h ?_
  unfold State.blockCycle
  simp only [State.setPqe_same, apply_ite (State.except 131072), apply_ite Prod.snd, apply_ite Prod.fst, ite_self,
      Nat.reduceAnd, foldl_same, foldl_same2, foldl_same1]

theorem State.pqeBoundary_same (m : Nat) (h : 131329 &&& m = 131329) (a0 : State) (a1 : List (ℕ × Word)) (a2 : List ℕ)
    (a3 : ℕ) (a4 : ℕ) :
    State.except m (State.pqeBoundary a0 a1 a2 a3 a4) = State.except m a0 := by
  refine except_mono h ?_
  unfold State.pqeBoundary
  (try simp only [State.setPqe_same, State.holdAngles_same, State.seqCycle_same, State.blockCycle_same, apply_ite
      (State.except 131329), apply_ite Prod.snd, apply_ite Prod.fst, ite_self, Nat.reduceAnd, foldl_same, foldl_same2,
      foldl_same1])
  repeat' split
  all_goals (try simp [State.setPqe_same, State.holdAngles_same, State.seqCycle_same, State.blockCycle_same, apply_ite
      (State.except 131329), apply_ite Prod.snd, apply_ite Prod.fst, ite_self, Nat.reduceAnd, foldl_same, foldl_same2,
      foldl_same1])

theorem State.carryCycle_same (m : Nat) (h : 67109120 &&& m = 67109120) (a0 : State) :
    State.except m (State.carryCycle a0) = State.except m a0 := by
  refine except_mono h ?_
  unfold State.carryCycle
  (try simp only [State.log_same, State.setTmp_same, apply_ite (State.except 67109120), apply_ite Prod.snd, apply_ite
      Prod.fst, ite_self, Nat.reduceAnd, foldl_same, foldl_same2, foldl_same1])
  repeat' split
  all_goals (try simp [State.log_same, State.setTmp_same, apply_ite (State.except 67109120), apply_ite Prod.snd,
      apply_ite Prod.fst, ite_self, Nat.reduceAnd, foldl_same, foldl_same2, foldl_same1])

theorem State.tunBoundary_same (m : Nat) (h : 262145 &&& m = 262145) (a0 : State) :
    State.except m (State.tunBoundary a0) = State.except m a0 := by
  refine except_mono h ?_
  unfold State.tunBoundary
  simp only [State.countGated_same, State.setTun_same, State.wr_same, apply_ite (State.except 262145), apply_ite
      Prod.snd, apply_ite Prod.fst, ite_self, Nat.reduceAnd, foldl_same, foldl_same2, foldl_same1]

theorem State.boundary_same (m : Nat) (h : 4363645219 &&& m = 4363645219) (a0 : State) (a1 : Bool) :
    State.except m (State.boundary a0 a1) = State.except m a0 := by
  refine except_mono h ?_
  unfold State.boundary
  simp only [State.ctfBoundary_same, State.tmpBoundary_same, State.openCycle_same, State.refBoundary_same,
      State.acsBoundary_same, State.accBoundary_same, State.mteBoundary_same, State.pqeBoundary_same,
      State.carryCycle_same, State.startAll_same, State.tunBoundary_same, State.ctfFollow_same,
      State.signalFollow_same, apply_ite (State.except 4363645219), apply_ite Prod.snd, apply_ite Prod.fst, ite_self,
      Nat.reduceAnd, foldl_same, foldl_same2, foldl_same1]

theorem State.closePeriod_same (m : Nat) (h : 4289 &&& m = 4289) (a0 : State) (a1 : ℕ) :
    State.except m (State.closePeriod a0 a1) = State.except m a0 := by
  refine except_mono h ?_
  unfold State.closePeriod
  simp only [State.advance_same, State.wr_same, except_upd_ctf, apply_ite (State.except 4289), apply_ite Prod.snd,
      apply_ite Prod.fst, ite_self, Nat.reduceAnd, foldl_same, foldl_same2, foldl_same1]

theorem State.setChan_same (m : Nat) (h : 4096 &&& m = 4096) (a0 : State) (a1 : ℕ) (a2 : ChanState → ChanState) :
    State.except m (State.setChan a0 a1 a2) = State.except m a0 := by
  refine except_mono h ?_
  unfold State.setChan
  simp only [except_upd_ctf, apply_ite (State.except 4096), apply_ite Prod.snd, apply_ite Prod.fst, ite_self,
      Nat.reduceAnd, foldl_same, foldl_same2, foldl_same1]

theorem State.judgeChan_same (m : Nat) (h : 4097 &&& m = 4097) (a0 : State) (a1 : ℕ) :
    State.except m (State.judgeChan a0 a1) = State.except m a0 := by
  refine except_mono h ?_
  unfold State.judgeChan
  simp only [State.showQual_same, State.setChan_same, apply_ite (State.except 4097), apply_ite Prod.snd, apply_ite
      Prod.fst, ite_self, Nat.reduceAnd, foldl_same, foldl_same2, foldl_same1]

theorem State.learn_same (m : Nat) (h : 4097 &&& m = 4097) (a0 : State) (a1 : ℕ) (a2 : Bool) (a3 : ℕ) :
    State.except m (State.learn a0 a1 a2 a3) = State.except m a0 := by
  refine except_mono h ?_
  unfold State.learn
  simp only [State.setChan_same, State.wr_same, State.judgeChan_same, apply_ite (State.except 4097), apply_ite
      Prod.snd, apply_ite Prod.fst, ite_self, Nat.reduceAnd, foldl_same, foldl_same2, foldl_same1]

theorem State.referenceCrossing_same (m : Nat) (h : 4097 &&& m = 4097) (a0 : State) (a1 : ℕ) :
    State.except m (State.referenceCrossing a0 a1) = State.except m a0 := by
  refine except_mono h ?_
  unfold State.referenceCrossing
  simp only [State.wr_same, State.raise_same, State.enterLocked_same, State.leaveLocked_same, except_upd_ctf,
      apply_ite (State.except 4097), apply_ite Prod.snd, apply_ite Prod.fst, ite_self, Nat.reduceAnd, foldl_same,
      foldl_same2, foldl_same1]

theorem State.acceptPositive_same (m : Nat) (h : 4097 &&& m = 4097) (a0 : State) (a1 : ℕ) (a2 : ℕ) :
    State.except m (State.acceptPositive a0 a1 a2) = State.except m a0 := by
  refine except_mono h ?_
  unfold State.acceptPositive
  simp only [State.setChan_same, State.learn_same, State.showQual_same, State.referenceCrossing_same, State.seek_same,
      apply_ite (State.except 4097), apply_ite Prod.snd, apply_ite Prod.fst, ite_self, Nat.reduceAnd, foldl_same,
      foldl_same2, foldl_same1]

theorem State.ctfSample_same (m : Nat) (h : 4097 &&& m = 4097) (a0 : State) (a1 : ℕ) (a2 : Option ℤ) :
    State.except m (State.ctfSample a0 a1 a2).1 = State.except m a0 := by
  refine except_mono h ?_
  unfold State.ctfSample
  (try simp only [State.setChan_same, State.count_same, State.learn_same, State.acceptPositive_same, apply_ite
      (State.except 4097), apply_ite Prod.snd, apply_ite Prod.fst, ite_self, Nat.reduceAnd, foldl_same, foldl_same2,
      foldl_same1])
  repeat' split
  all_goals (try simp only [State.setChan_same, State.count_same, State.learn_same, State.acceptPositive_same,
      apply_ite (State.except 4097), apply_ite Prod.snd, apply_ite Prod.fst, ite_self, Nat.reduceAnd, foldl_same,
      foldl_same2, foldl_same1])

theorem State.setEvent_same (m : Nat) (h : 131072 &&& m = 131072) (a0 : State) (a1 : ℕ) (a2 : ℕ) (a3 : PqEvent →
    PqEvent) :
    State.except m (State.setEvent a0 a1 a2 a3) = State.except m a0 := by
  refine except_mono h ?_
  unfold State.setEvent
  simp only [State.setPqe_same, apply_ite (State.except 131072), apply_ite Prod.snd, apply_ite Prod.fst, ite_self,
      Nat.reduceAnd, foldl_same, foldl_same2, foldl_same1]

theorem State.setVerdict_same (m : Nat) (h : 131073 &&& m = 131073) (a0 : State) (a1 : ℕ) (a2 : ℕ) :
    State.except m (State.setVerdict a0 a1 a2) = State.except m a0 := by
  refine except_mono h ?_
  unfold State.setVerdict
  simp only [State.raise_same, State.wr_same, State.setEvent_same, apply_ite (State.except 131073), apply_ite
      Prod.snd, apply_ite Prod.fst, ite_self, Nat.reduceAnd, foldl_same, foldl_same2, foldl_same1]

theorem State.closeSense_same (m : Nat) (h : 131329 &&& m = 131329) (a0 : State) (a1 : ℕ) :
    State.except m (State.closeSense a0 a1) = State.except m a0 := by
  refine except_mono h ?_
  unfold State.closeSense
  simp only [State.setVerdict_same, State.closeEvent_same, State.setPqe_same, apply_ite (State.except 131329),
      apply_ite Prod.snd, apply_ite Prod.fst, ite_self, Nat.reduceAnd, foldl_same, foldl_same2, foldl_same1]

theorem State.freqEvent_same (m : Nat) (h : 131329 &&& m = 131329) (a0 : State) (a1 : ℕ) (a2 : ℕ) (a3 : ℕ) (a4 : Bool)
    (a5 : Bool) :
    State.except m (State.freqEvent a0 a1 a2 a3 a4 a5) = State.except m a0 := by
  refine except_mono h ?_
  unfold State.freqEvent
  (try simp only [State.tally_same, State.openEvent_same, State.setEvent_same, State.closeEvent_same, apply_ite
      (State.except 131329), apply_ite Prod.snd, apply_ite Prod.fst, ite_self, Nat.reduceAnd, foldl_same, foldl_same2,
      foldl_same1])
  repeat' split
  all_goals (try simp only [State.tally_same, State.openEvent_same, State.setEvent_same, State.closeEvent_same,
      apply_ite (State.except 131329), apply_ite Prod.snd, apply_ite Prod.fst, ite_self, Nat.reduceAnd, foldl_same,
      foldl_same2, foldl_same1])

theorem State.frequency_same (m : Nat) (h : 131329 &&& m = 131329) (a0 : State) (a1 : ℕ) (a2 : ℕ) :
    State.except m (State.frequency a0 a1 a2) = State.except m a0 := by
  refine except_mono h ?_
  unfold State.frequency
  simp only [State.wr_same, State.freqEvent_same, apply_ite (State.except 131329), apply_ite Prod.snd, apply_ite
      Prod.fst, ite_self, Nat.reduceAnd, foldl_same, foldl_same2, foldl_same1]

theorem State.pqeCrossing_same (m : Nat) (h : 131329 &&& m = 131329) (a0 : State) (a1 : State) (a2 : ℕ) :
    State.except m (State.pqeCrossing a0 a1 a2) = State.except m a0 := by
  refine except_mono h ?_
  unfold State.pqeCrossing
  (try simp only [State.closeSense_same, State.frequency_same, apply_ite (State.except 131329), apply_ite Prod.snd,
      apply_ite Prod.fst, ite_self, Nat.reduceAnd, foldl_same, foldl_same2, foldl_same1])
  repeat' split
  all_goals (try simp only [State.closeSense_same, State.frequency_same, apply_ite (State.except 131329), apply_ite
      Prod.snd, apply_ite Prod.fst, ite_self, Nat.reduceAnd, foldl_same, foldl_same2, foldl_same1])

theorem State.sampleCtf_same (m : Nat) (h : 4363645219 &&& m = 4363645219) (a0 : State) (a1 : Delivery) (a2 : Bool)
    (a3 : BitVec 40) :
    State.except m (State.sampleCtf a0 a1 a2 a3) = State.except m a0 := by
  refine except_mono h ?_
  unfold State.sampleCtf
  simp only [State.ctfSample_same, State.ctfFollow_same, State.pqeCrossing_same, State.boundary_same, apply_ite
      (State.except 4363645219), apply_ite Prod.snd, apply_ite Prod.fst, ite_self, Nat.reduceAnd, foldl_same,
      foldl_same2, foldl_same1]

theorem State.pqeSample_same (m : Nat) (h : 131072 &&& m = 131072) (a0 : State) (a1 : Delivery) (a2 : Bool) (a3 :
    BitVec 40) :
    State.except m (State.pqeSample a0 a1 a2 a3) = State.except m a0 := by
  refine except_mono h ?_
  unfold State.pqeSample
  simp only [State.setPqe_same, apply_ite (State.except 131072), apply_ite Prod.snd, apply_ite Prod.fst, ite_self,
      Nat.reduceAnd, foldl_same, foldl_same2, foldl_same1]

theorem State.mteSample_same (m : Nat) (h : 32768 &&& m = 32768) (a0 : State) (a1 : Delivery) (a2 : Bool) (a3 : BitVec
    40) :
    State.except m (State.mteSample a0 a1 a2 a3) = State.except m a0 := by
  refine except_mono h ?_
  unfold State.mteSample
  simp only [except_upd_mte, apply_ite (State.except 32768), apply_ite Prod.snd, apply_ite Prod.fst, ite_self,
      Nat.reduceAnd, foldl_same, foldl_same2, foldl_same1]

theorem State.carryFail_same (m : Nat) (h : 67109120 &&& m = 67109120) (a0 : State) (a1 : ℕ) (a2 : ℕ) :
    State.except m (State.carryFail a0 a1 a2) = State.except m a0 := by
  refine except_mono h ?_
  unfold State.carryFail
  simp only [State.setTmp_same, State.log_same, apply_ite (State.except 67109120), apply_ite Prod.snd, apply_ite
      Prod.fst, ite_self, Nat.reduceAnd, foldl_same, foldl_same2, foldl_same1]

theorem State.deliverSample_same (m : Nat) (h : 4363645219 &&& m = 4363645219) (a0 : State) (a1 : SampleIn) (a2 :
    Delivery) :
    State.except m (State.deliverSample a0 a1 a2) = State.except m a0 := by
  refine except_mono h ?_
  unfold State.deliverSample
  simp only [State.pqeSample_same, State.mteSample_same, State.sampleCtf_same, State.carryFail_same, apply_ite
      (State.except 4363645219), apply_ite Prod.snd, apply_ite Prod.fst, ite_self, Nat.reduceAnd, foldl_same,
      foldl_same2, foldl_same1]

theorem State.swapBanks_same (m : Nat) (h : 4097 &&& m = 4097) (a0 : State) :
    State.except m (State.swapBanks a0) = State.except m a0 := by
  refine except_mono h ?_
  unfold State.swapBanks
  (try simp only [State.wr64_same, State.countNoAnchor_same, State.commitCode_same, State.wr_same, except_upd_ctf,
      apply_ite (State.except 4097), apply_ite Prod.snd, apply_ite Prod.fst, ite_self, Nat.reduceAnd, foldl_same,
      foldl_same2, foldl_same1])
  repeat' split
  all_goals (try simp [State.wr64_same, State.countNoAnchor_same, State.commitCode_same, State.wr_same,
      except_upd_ctf, apply_ite (State.except 4097), apply_ite Prod.snd, apply_ite Prod.fst, ite_self, Nat.reduceAnd,
      foldl_same, foldl_same2, foldl_same1])

theorem State.plpWindow_same (m : Nat) (h : 1 &&& m = 1) (a0 : State) (a1 : ℕ) :
    State.except m (State.plpWindow a0 a1) = State.except m a0 := by
  refine except_mono h ?_
  unfold State.plpWindow
  simp only [State.raise_same, State.count_same, apply_ite (State.except 1), apply_ite Prod.snd, apply_ite Prod.fst,
      ite_self, Nat.reduceAnd, foldl_same, foldl_same2, foldl_same1]

theorem State.compareStamp_same (m : Nat) (h : 2097152 &&& m = 2097152) (a0 : State) (a1 : ℕ) :
    State.except m (State.compareStamp a0 a1) = State.except m a0 := by
  refine except_mono h ?_
  unfold State.compareStamp
  simp only [State.setHart_same, apply_ite (State.except 2097152), apply_ite Prod.snd, apply_ite Prod.fst, ite_self,
      Nat.reduceAnd, foldl_same, foldl_same2, foldl_same1]

theorem State.qspiFill_same (m : Nat) (h : 1 &&& m = 1) (a0 : State) (a1 : List Byte) :
    State.except m (State.qspiFill a0 a1) = State.except m a0 := by
  refine except_mono h ?_
  unfold State.qspiFill
  (try simp only [State.wr_same, apply_ite (State.except 1), apply_ite Prod.snd, apply_ite Prod.fst, ite_self,
      Nat.reduceAnd, foldl_same, foldl_same2, foldl_same1])
  repeat' split
  all_goals (try simp [State.wr_same, apply_ite (State.except 1), apply_ite Prod.snd, apply_ite Prod.fst, ite_self,
      Nat.reduceAnd, foldl_same, foldl_same2, foldl_same1])

theorem State.zeroUnit_same (m : Nat) (h : 4194305 &&& m = 4194305) (a0 : State) (a1 : ℕ) :
    State.except m (State.zeroUnit a0 a1) = State.except m a0 := by
  refine except_mono h ?_
  unfold State.zeroUnit
  simp only [State.celWriteRun_same, apply_ite (State.except 4194305), apply_ite Prod.snd, apply_ite Prod.fst,
      ite_self, Nat.reduceAnd, foldl_same, foldl_same2, foldl_same1]

theorem State.readUnits_same (m : Nat) (h : 4194561 &&& m = 4194561) (a0 : State) (a1 : ℕ) :
    State.except m (State.readUnits a0 a1) = State.except m a0 := by
  refine except_mono h ?_
  have k := State.celRead_same 4194561 rfl a0 (unitTable + a1)
  unfold State.readUnits
  split <;> rename_i e <;> rw [e] at k
  · exact (foldl_same _ _ (fun t x => by simp only [State.wr_same, Nat.reduceAnd]) _ _).trans k
  · refine (State.celWrite_same 4194561 rfl _ _ _).trans ?_
    exact (foldl_same _ _ (fun t x => by simp only [State.wr_same, Nat.reduceAnd]) _ _).trans k

end Sys2Proof.Machine
end

