-- ==== Sys2Proof/Laws/FrameSupport.lean ====
section
/-! SUPPORT. What each operation may change: outside the parts of the state in its mask, the state after it is as
before (part 4 of 4; an operation stands after those it calls). Cite these in place of unfolding the operation. -/

namespace Sys2Proof.Machine

set_option linter.all false

theorem State.celStart_same (m : Nat) (h : 4194561 &&& m = 4194561) (a0 : State) :
    State.except m (State.celStart a0) = State.except m a0 := by
  refine except_mono h ?_
  unfold State.celStart
  (try simp only [State.wr_same, State.readUnits_same, State.unitPut_same, State.zeroUnit_same, State.bpShow_same,
      apply_ite (State.except 4194561), apply_ite Prod.snd, apply_ite Prod.fst, ite_self, Nat.reduceAnd, foldl_same,
      foldl_same2, foldl_same1])
  repeat' split
  all_goals (try simp [State.wr_same, State.readUnits_same, State.unitPut_same, State.zeroUnit_same,
      State.bpShow_same, apply_ite (State.except 4194561), apply_ite Prod.snd, apply_ite Prod.fst, ite_self,
      Nat.reduceAnd, foldl_same, foldl_same2, foldl_same1])

theorem State.celRelease_same (m : Nat) (h : 34363932672 &&& m = 34363932672) (a0 : ℕ) (a1 : ℕ) (a2 : State) :
    State.except m (State.celRelease a0 a1 a2) = State.except m a2 := by
  refine except_mono h ?_
  induction a1 generalizing a2 with
  | zero => rfl
  | succ n ih =>
    unfold State.celRelease
    (repeat' split) <;> simp only [ih, State.cmdPut_same, State.setCel_same, apply_ite (State.except 34363932672),
        apply_ite Prod.snd, apply_ite Prod.fst, ite_self, Nat.reduceAnd, foldl_same, foldl_same2, foldl_same1]

theorem State.cmdTaken_same (m : Nat) (h : 34359738368 &&& m = 34359738368) (a0 : State) (a1 : CmdRing) :
    State.except m (State.cmdTaken a0 a1) = State.except m a0 := by
  refine except_mono h ?_
  unfold State.cmdTaken
  simp only [State.store_same, apply_ite (State.except 34359738368), apply_ite Prod.snd, apply_ite Prod.fst, ite_self,
      Nat.reduceAnd, foldl_same, foldl_same2, foldl_same1]

theorem State.celTake_same (m : Nat) (h : 34363940865 &&& m = 34363940865) (a0 : State) (a1 : ℕ) :
    State.except m (State.celTake a0 a1) = State.except m a0 := by
  refine except_mono h ?_
  unfold State.celTake
  try dsimp only
  repeat' split
  all_goals first
    | (simp only [State.celRefuse_same, State.admit_same, State.setCel_same, State.cmdTaken_same, apply_ite
        (State.except 34363940865), apply_ite Prod.snd, apply_ite Prod.fst, ite_self, Nat.reduceAnd, foldl_same,
        foldl_same2, foldl_same1]; done)
    | (try simp only [State.celRefuse_same, State.admit_same, State.setCel_same, State.cmdTaken_same, apply_ite
        (State.except 34363940865), apply_ite Prod.snd, apply_ite Prod.fst, ite_self, Nat.reduceAnd, foldl_same,
        foldl_same2, foldl_same1]
       exact State.admit_same 34363940865 rfl _ _ _ _ _ (by assumption))

theorem State.celTakes_same (m : Nat) (h : 34363940865 &&& m = 34363940865) (a0 : ℕ) (a1 : ℕ) (a2 : State) :
    State.except m (State.celTakes a0 a1 a2) = State.except m a2 := by
  refine except_mono h ?_
  induction a1 generalizing a2 with
  | zero => rfl
  | succ n ih =>
    unfold State.celTakes
    (repeat' split) <;> simp only [ih, State.celTake_same, apply_ite (State.except 34363940865), apply_ite Prod.snd,
        apply_ite Prod.fst, ite_self, Nat.reduceAnd, foldl_same, foldl_same2, foldl_same1]

theorem State.celStartOp_same (m : Nat) (h : 34363940865 &&& m = 34363940865) (a0 : State) (a1 : ℕ) :
    State.except m (State.celStartOp a0 a1) = State.except m a0 := by
  refine except_mono h ?_
  unfold State.celStartOp
  (try simp only [State.serveTurn_same, State.setCel_same, State.giveBack_same, State.celRefuse_same, State.wr_same,
      apply_ite (State.except 34363940865), apply_ite Prod.snd, apply_ite Prod.fst, ite_self, Nat.reduceAnd,
      foldl_same, foldl_same2, foldl_same1])
  repeat' split
  all_goals (try simp only [State.serveTurn_same, State.setCel_same, State.giveBack_same, State.celRefuse_same,
      State.wr_same, apply_ite (State.except 34363940865), apply_ite Prod.snd, apply_ite Prod.fst, ite_self,
      Nat.reduceAnd, foldl_same, foldl_same2, foldl_same1])

theorem State.scrubNext_same (m : Nat) (h : 1 &&& m = 1) (a0 : State) :
    State.except m (State.scrubNext a0) = State.except m a0 := by
  refine except_mono h ?_
  unfold State.scrubNext
  simp only [State.raise_same, State.wr_same, apply_ite (State.except 1), apply_ite Prod.snd, apply_ite Prod.fst,
      ite_self, Nat.reduceAnd, foldl_same, foldl_same2, foldl_same1]

theorem State.scrubSkip_same (m : Nat) (h : 1 &&& m = 1) (a0 : ℕ) (a1 : State) :
    State.except m (State.scrubSkip a0 a1) = State.except m a1 := by
  refine except_mono h ?_
  induction a0 generalizing a1 with
  | zero => rfl
  | succ n ih =>
    unfold State.scrubSkip
    (repeat' split) <;> simp only [ih, State.scrubNext_same, apply_ite (State.except 1), apply_ite Prod.snd, apply_ite
        Prod.fst, ite_self, Nat.reduceAnd, foldl_same, foldl_same2, foldl_same1]

theorem State.celUpset_same (m : Nat) (h : 4194304 &&& m = 4194304) (a0 : State) (a1 : List (Fin 131072 × BitVec 72))
    :
    State.except m (State.celUpset a0 a1) = State.except m a0 := by
  refine except_mono h ?_
  unfold State.celUpset
  (try simp only [State.celPutRaw_same, apply_ite (State.except 4194304), apply_ite Prod.snd, apply_ite Prod.fst,
      ite_self, Nat.reduceAnd, foldl_same, foldl_same2, foldl_same1])
  repeat' split
  all_goals (try simp [State.celPutRaw_same, apply_ite (State.except 4194304), apply_ite Prod.snd, apply_ite Prod.fst,
      ite_self, Nat.reduceAnd, foldl_same, foldl_same2, foldl_same1])

theorem State.readLogRecord_same (m : Nat) (h : 4194561 &&& m = 4194561) (a0 : State) (a1 : ℕ) :
    State.except m (State.readLogRecord a0 a1).2 = State.except m a0 := by
  refine except_mono h ?_
  unfold State.readLogRecord
  simp only [State.celReadRun_same, apply_ite (State.except 4194561), apply_ite Prod.snd, apply_ite Prod.fst,
      ite_self, Nat.reduceAnd, foldl_same, foldl_same2, foldl_same1]

theorem State.tornHead_same (m : Nat) (h : 257 &&& m = 257) (a0 : State) (a1 : ℕ) :
    State.except m (State.tornHead a0 a1) = State.except m a0 := by
  refine except_mono h ?_
  unfold State.tornHead
  simp only [State.log_same, State.count_same, apply_ite (State.except 257), apply_ite Prod.snd, apply_ite Prod.fst,
      ite_self, Nat.reduceAnd, foldl_same, foldl_same2, foldl_same1]

theorem State.findHead_same (m : Nat) (h : 138412289 &&& m = 138412289) (a0 : State) :
    State.except m (State.findHead a0) = State.except m a0 := by
  refine except_mono h ?_
  unfold State.findHead
  (try simp only [State.readLogRecord_same, State.setLogMode_same, State.setClg_same, State.wr_same,
      State.tornHead_same, State.closeBlock_same, State.clgShow_same, apply_ite (State.except 138412289), apply_ite
      Prod.snd, apply_ite Prod.fst, ite_self, Nat.reduceAnd, foldl_same, foldl_same2, foldl_same1])
  repeat' split
  all_goals (try simp [State.readLogRecord_same, State.setLogMode_same, State.setClg_same, State.wr_same,
      State.tornHead_same, State.closeBlock_same, State.clgShow_same, apply_ite (State.except 138412289), apply_ite
      Prod.snd, apply_ite Prod.fst, ite_self, Nat.reduceAnd, foldl_same, foldl_same2, foldl_same1])

theorem State.logLost_same (m : Nat) (h : 134217984 &&& m = 134217984) (a0 : State) (a1 : Bool) :
    State.except m (State.logLost a0 a1) = State.except m a0 := by
  refine except_mono h ?_
  unfold State.logLost
  (try simp only [State.setClg_same, State.log_same, apply_ite (State.except 134217984), apply_ite Prod.snd, apply_ite
      Prod.fst, ite_self, Nat.reduceAnd, foldl_same, foldl_same2, foldl_same1])
  repeat' split
  all_goals (try simp only [State.setClg_same, State.log_same, apply_ite (State.except 134217984), apply_ite Prod.snd,
      apply_ite Prod.fst, ite_self, Nat.reduceAnd, foldl_same, foldl_same2, foldl_same1])

theorem State.clgLifted_same (m : Nat) (h : 134217985 &&& m = 134217985) (a0 : State) :
    State.except m (State.clgLifted a0) = State.except m a0 := by
  refine except_mono h ?_
  unfold State.clgLifted
  simp only [State.logLost_same, State.tornHead_same, apply_ite (State.except 134217985), apply_ite Prod.snd,
      apply_ite Prod.fst, ite_self, Nat.reduceAnd, foldl_same, foldl_same2, foldl_same1]

theorem State.setSession_same (m : Nat) (h : 17179869184 &&& m = 17179869184) (a0 : State) (a1 : ℕ) (a2 : ℕ) (a3 :
    Session → Session) :
    State.except m (State.setSession a0 a1 a2 a3) = State.except m a0 := by
  refine except_mono h ?_
  unfold State.setSession
  simp only [State.setHif_same, apply_ite (State.except 17179869184), apply_ite Prod.snd, apply_ite Prod.fst,
      ite_self, Nat.reduceAnd, foldl_same, foldl_same2, foldl_same1]

theorem State.sendNote_same (m : Nat) (h : 17179870208 &&& m = 17179870208) (a0 : State) (a1 : Session) :
    State.except m (State.sendNote a0 a1) = State.except m a0 := by
  refine except_mono h ?_
  unfold State.sendNote
  simp only [State.setSession_same, State.send_same, apply_ite (State.except 17179870208), apply_ite Prod.snd,
      apply_ite Prod.fst, ite_self, Nat.reduceAnd, foldl_same, foldl_same2, foldl_same1]

theorem State.sysStore_same (m : Nat) (h : 34361835520 &&& m = 34361835520) (a0 : State) (a1 : ℕ) (a2 : List Byte) :
    State.except m (State.sysStore a0 a1 a2) = State.except m a0 := by
  refine except_mono h ?_
  unfold State.sysStore
  simp only [State.setCcx_same, State.store_same, apply_ite (State.except 34361835520), apply_ite Prod.snd, apply_ite
      Prod.fst, ite_self, Nat.reduceAnd, foldl_same, foldl_same2, foldl_same1]

theorem State.descDone_same (m : Nat) (h : 34361835521 &&& m = 34361835521) (a0 : State) (a1 : ℕ) (a2 : Status) :
    State.except m (State.descDone a0 a1 a2) = State.except m a0 := by
  refine except_mono h ?_
  unfold State.descDone
  simp only [State.raise_same, State.sysStore_same, apply_ite (State.except 34361835521), apply_ite Prod.snd,
      apply_ite Prod.fst, ite_self, Nat.reduceAnd, foldl_same, foldl_same2, foldl_same1]

theorem State.readWords_same (m : Nat) (h : 18257812277 &&& m = 18257812277) (a0 : State) (a1 : Session) (a2 : Reply)
    (a3 : ℕ) (a4 : ℕ) :
    State.except m (State.readWords a0 a1 a2 a3 a4).2 = State.except m a0 := by
  refine except_mono h ?_
  induction a3 generalizing a0 a2 a4 with
  | zero => rfl
  | succ n ih =>
    have k1 : State.except 18257812277 (a0.answerRead a1.tc a4 .notOwner 0) = State.except 18257812277 a0 := by
      simp only [State.answerRead_same, Nat.reduceAnd]
    have k2 : State.except 18257812277 (a0.read anyRead (sessionAccess a1 a4 0 0)) = State.except 18257812277 a0 :=
      State.read_same _ rfl _ _ _ (anyRead_same _ rfl)
    unfold State.readWords
    by_cases hb : a0.bareBars a1 a4 = true
    · simp only [hb, if_true]
      split
      · exact (ih _ _ _).trans k1
      · exact k1
    · simp only [if_neg hb]
      split
      · exact (ih _ _ _).trans k2
      · exact k2

theorem State.writeWords_same (m : Nat) (h : 68719476543 &&& m = 68719476543) (a0 : State) (a1 : Session) (a2 : Reply)
    (a3 : ℕ) (a4 : ℕ) (a5 : List Byte) :
    State.except m (State.writeWords a0 a1 a2 a3 a4 a5).2 = State.except m a0 := by
  refine except_mono h ?_
  induction a3 generalizing a0 a2 a4 a5 with
  | zero => rfl
  | succ n ih =>
    have k1 : State.except 68719476543 (a0.answer .notOwner) = State.except 68719476543 a0 := by
      simp only [State.answer_same, Nat.reduceAnd]
    have k2 : State.except 68719476543 (a0.write anyWrite (sessionAccess a1 a4 (BitVec.ofNat 32 (leNat (a5.take 4)))
        (a5.getD 4 0))) = State.except 68719476543 a0 :=
      State.write_same _ rfl _ _ _ (anyWrite_same _ rfl)
    unfold State.writeWords
    by_cases hb : a0.bareBars a1 a4 = true
    · simp only [hb, if_true]
      split
      · exact (ih _ _ _ _).trans k1
      · exact k1
    · simp only [if_neg hb]
      split
      · exact (ih _ _ _ _).trans k2
      · exact k2

theorem State.lockPair_same (m : Nat) (h : 68719476543 &&& m = 68719476543) (a0 : State) (a1 : Session) (a2 : ℕ) (a3 :
    Bool) :
    State.except m (State.lockPair a0 a1 a2 a3).2 = State.except m a0 := by
  refine except_mono h ?_
  unfold State.lockPair
  (try simp only [State.read_same, anyRead_same, State.write_same, anyWrite_same, apply_ite (State.except
      68719476543), apply_ite Prod.snd, apply_ite Prod.fst, ite_self, Nat.reduceAnd, foldl_same, foldl_same2,
      foldl_same1])
  repeat' split
  all_goals (try simp [State.read_same, anyRead_same, State.write_same, anyWrite_same, apply_ite (State.except
      68719476543), apply_ite Prod.snd, apply_ite Prod.fst, ite_self, Nat.reduceAnd, foldl_same, foldl_same2,
      foldl_same1])

theorem State.putSession_same (m : Nat) (h : 17179869185 &&& m = 17179869185) (a0 : State) (a1 : Session) :
    State.except m (State.putSession a0 a1) = State.except m a0 := by
  refine except_mono h ?_
  unfold State.putSession
  simp only [State.endSession_same, State.hifShow_same, State.setHif_same, State.sessionEvent_same, apply_ite
      (State.except 17179869185), apply_ite Prod.snd, apply_ite Prod.fst, ite_self, Nat.reduceAnd, foldl_same,
      foldl_same2, foldl_same1]

theorem State.randomBytes_same (m : Nat) (h : 2048 &&& m = 2048) (a0 : State) (a1 : ℕ) :
    State.except m (State.randomBytes a0 a1).2 = State.except m a0 := by
  refine except_mono h ?_
  induction a1 generalizing a0 with
  | zero => rfl
  | succ n ih =>
    unfold State.randomBytes
    (repeat' split) <;> simp only [ih, State.draw_same, apply_ite (State.except 2048), apply_ite Prod.snd, apply_ite
        Prod.fst, ite_self, Nat.reduceAnd, foldl_same, foldl_same2, foldl_same1]

theorem State.openFrame_same (m : Nat) (h : 17179871233 &&& m = 17179871233) (a0 : State) (a1 : Request) :
    State.except m (State.openFrame a0 a1).2 = State.except m a0 := by
  refine except_mono h ?_
  unfold State.openFrame
  simp only [State.putSession_same, State.randomBytes_same, apply_ite (State.except 17179871233), apply_ite Prod.snd,
      apply_ite Prod.fst, ite_self, Nat.reduceAnd, foldl_same, foldl_same2, foldl_same1]

theorem State.countProof_same (m : Nat) (h : 1 &&& m = 1) (a0 : State) (a1 : ℕ) :
    State.except m (State.countProof a0 a1) = State.except m a0 := by
  refine except_mono h ?_
  unfold State.countProof
  simp only [State.count_same, apply_ite (State.except 1), apply_ite Prod.snd, apply_ite Prod.fst, ite_self,
      Nat.reduceAnd, foldl_same, foldl_same2, foldl_same1]

theorem State.proofFails_same (m : Nat) (h : 17179869441 &&& m = 17179869441) (a0 : State) (a1 : Session) :
    State.except m (State.proofFails a0 a1) = State.except m a0 := by
  refine except_mono h ?_
  unfold State.proofFails
  simp only [State.countProof_same, State.log_same, State.setHif_same, apply_ite (State.except 17179869441), apply_ite
      Prod.snd, apply_ite Prod.fst, ite_self, Nat.reduceAnd, foldl_same, foldl_same2, foldl_same1]

theorem State.proveFrame_same (m : Nat) (h : 17179869441 &&& m = 17179869441) (a0 : State) (a1 : Request) (a2 : ℕ) :
    State.except m (State.proveFrame a0 a1 a2).2 = State.except m a0 := by
  refine except_mono h ?_
  unfold State.proveFrame
  (try simp only [State.endSession_same, State.putSession_same, State.proofFails_same, apply_ite (State.except
      17179869441), apply_ite Prod.snd, apply_ite Prod.fst, ite_self, Nat.reduceAnd, foldl_same, foldl_same2,
      foldl_same1])
  repeat' split
  all_goals (try simp only [State.endSession_same, State.putSession_same, State.proofFails_same, apply_ite
      (State.except 17179869441), apply_ite Prod.snd, apply_ite Prod.fst, ite_self, Nat.reduceAnd, foldl_same,
      foldl_same2, foldl_same1])

theorem State.performFrame_same (m : Nat) (h : 68719476543 &&& m = 68719476543) (a0 : State) (a1 : Request) (a2 : ℕ) :
    State.except m (State.performFrame a0 a1 a2).2 = State.except m a0 := by
  refine except_mono h ?_
  unfold State.performFrame
  (try simp only [State.openFrame_same, State.proveFrame_same, State.readWords_same, State.writeWords_same,
      State.lockPair_same, State.endSession_same, apply_ite (State.except 68719476543), apply_ite Prod.snd, apply_ite
      Prod.fst, ite_self, Nat.reduceAnd, foldl_same, foldl_same2, foldl_same1])
  repeat' split
  all_goals (try simp only [State.openFrame_same, State.proveFrame_same, State.readWords_same, State.writeWords_same,
      State.lockPair_same, State.endSession_same, apply_ite (State.except 68719476543), apply_ite Prod.snd, apply_ite
      Prod.fst, ite_self, Nat.reduceAnd, foldl_same, foldl_same2, foldl_same1])

theorem State.request_same (m : Nat) (h : 68719476543 &&& m = 68719476543) (a0 : State) (a1 : Request) (a2 : ℕ) :
    State.except m (State.request a0 a1 a2).2 = State.except m a0 := by
  refine except_mono h ?_
  unfold State.request
  simp only [State.count_same, State.endSession_same, State.performFrame_same, apply_ite (State.except 68719476543),
      apply_ite Prod.snd, apply_ite Prod.fst, ite_self, Nat.reduceAnd, foldl_same, foldl_same2, foldl_same1]

theorem State.noteReply_same (m : Nat) (h : 512 &&& m = 512) (a0 : State) (a1 : Reply) :
    State.except m (State.noteReply a0 a1) = State.except m a0 := by
  refine except_mono h ?_
  unfold State.noteReply
  simp only [except_upd_resp, apply_ite (State.except 512), apply_ite Prod.snd, apply_ite Prod.fst, ite_self,
      Nat.reduceAnd, foldl_same, foldl_same2, foldl_same1]

theorem State.serialFrame_same (m : Nat) (h : 68719476543 &&& m = 68719476543) (a0 : State) (a1 : Request) :
    State.except m (State.serialFrame a0 a1) = State.except m a0 := by
  refine except_mono h ?_
  unfold State.serialFrame
  simp only [State.count_same, State.request_same, State.send_same, State.noteReply_same, apply_ite (State.except
      68719476543), apply_ite Prod.snd, apply_ite Prod.fst, ite_self, Nat.reduceAnd, foldl_same, foldl_same2,
      foldl_same1]

theorem State.sendReply_same (m : Nat) (h : 17179870720 &&& m = 17179870720) (a0 : State) (a1 : Request) (a2 : ℕ) (a3
    : Option (List Byte)) (a4 : Reply) :
    State.except m (State.sendReply a0 a1 a2 a3 a4) = State.except m a0 := by
  refine except_mono h ?_
  unfold State.sendReply
  simp only [State.setSession_same, State.send_same, State.noteReply_same, apply_ite (State.except 17179870720),
      apply_ite Prod.snd, apply_ite Prod.fst, ite_self, Nat.reduceAnd, foldl_same, foldl_same2, foldl_same1]

theorem State.datagramIn_same (m : Nat) (h : 68719476543 &&& m = 68719476543) (a0 : State) (a1 : List Byte) (a2 : ℕ) :
    State.except m (State.datagramIn a0 a1 a2) = State.except m a0 := by
  refine except_mono h ?_
  unfold State.datagramIn
  (try simp only [State.count_same, State.send_same, State.request_same, State.sendReply_same, apply_ite (State.except
      68719476543), apply_ite Prod.snd, apply_ite Prod.fst, ite_self, Nat.reduceAnd, foldl_same, foldl_same2,
      foldl_same1])
  repeat' split
  all_goals (try simp only [State.count_same, State.send_same, State.request_same, State.sendReply_same, apply_ite
      (State.except 68719476543), apply_ite Prod.snd, apply_ite Prod.fst, ite_self, Nat.reduceAnd, foldl_same,
      foldl_same2, foldl_same1])

theorem State.hostFrame_same (m : Nat) (h : 68719476543 &&& m = 68719476543) (a0 : State) (a1 : ℕ) (a2 : HostReq) :
    State.except m (State.hostFrame a0 a1 a2) = State.except m a0 := by
  refine except_mono h ?_
  unfold State.hostFrame
  simp only [State.datagramIn_same, State.serialFrame_same, apply_ite (State.except 68719476543), apply_ite Prod.snd,
      apply_ite Prod.fst, ite_self, Nat.reduceAnd, foldl_same, foldl_same2, foldl_same1]

theorem State.auxFail_same (m : Nat) (h : 36549173505 &&& m = 36549173505) (a0 : State) :
    State.except m (State.auxFail a0) = State.except m a0 := by
  refine except_mono h ?_
  unfold State.auxFail
  simp only [State.count_same, State.wr_same, State.log_same, State.setAux_same, apply_ite (State.except 36549173505),
      apply_ite Prod.snd, apply_ite Prod.fst, ite_self, Nat.reduceAnd, foldl_same, foldl_same2, foldl_same1]

theorem State.routerLog_same (m : Nat) (h : 256 &&& m = 256) (a0 : State) (a1 : RouterOp) (a2 : ℕ) (a3 : List ℕ) (a4 :
    Status) :
    State.except m (State.routerLog a0 a1 a2 a3 a4) = State.except m a0 := by
  refine except_mono h ?_
  unfold State.routerLog
  (try simp only [State.log_same, State.windowFault_same, apply_ite (State.except 256), apply_ite Prod.snd, apply_ite
      Prod.fst, ite_self, Nat.reduceAnd, foldl_same, foldl_same2, foldl_same1])
  repeat' split
  all_goals (try simp only [State.log_same, State.windowFault_same, apply_ite (State.except 256), apply_ite Prod.snd,
      apply_ite Prod.fst, ite_self, Nat.reduceAnd, foldl_same, foldl_same2, foldl_same1])

theorem State.applyWrites_same (m : Nat) (h : 34359738368 &&& m = 34359738368) (a0 : State) (a1 : List (ℕ × List
    Byte)) (a2 : Option ℕ) :
    State.except m (State.applyWrites a0 a1 a2) = State.except m a0 := by
  refine except_mono h ?_
  unfold State.applyWrites
  (try simp only [State.store_same, apply_ite (State.except 34359738368), apply_ite Prod.snd, apply_ite Prod.fst,
      ite_self, Nat.reduceAnd, foldl_same, foldl_same2, foldl_same1])
  repeat' split
  all_goals (try simp [State.store_same, apply_ite (State.except 34359738368), apply_ite Prod.snd, apply_ite Prod.fst,
      ite_self, Nat.reduceAnd, foldl_same, foldl_same2, foldl_same1])

theorem State.routerUnc_same (m : Nat) (h : 256 &&& m = 256) (a0 : State) (a1 : RouterOp) (a2 : ℕ) :
    State.except m (State.routerUnc a0 a1 a2) = State.except m a0 := by
  refine except_mono h ?_
  unfold State.routerUnc
  simp only [State.log_same, apply_ite (State.except 256), apply_ite Prod.snd, apply_ite Prod.fst, ite_self,
      Nat.reduceAnd, foldl_same, foldl_same2, foldl_same1]

theorem State.countSkips_same (m : Nat) (h : 8193 &&& m = 8193) (a0 : State) (a1 : RouterOp) (a2 : Grist) :
    State.except m (State.countSkips a0 a1 a2) = State.except m a0 := by
  refine except_mono h ?_
  unfold State.countSkips
  (try simp only [State.outcome_same, State.count_same, State.raise_same, apply_ite (State.except 8193), apply_ite
      Prod.snd, apply_ite Prod.fst, ite_self, Nat.reduceAnd, foldl_same, foldl_same2, foldl_same1])
  repeat' split
  all_goals (try simp [State.outcome_same, State.count_same, State.raise_same, apply_ite (State.except 8193),
      apply_ite Prod.snd, apply_ite Prod.fst, ite_self, Nat.reduceAnd, foldl_same, foldl_same2, foldl_same1])

theorem State.runRoute_same (m : Nat) (h : 34360795393 &&& m = 34360795393) (a0 : State) (a1 : RouterOp) (a2 : ℕ) (a3
    : List ℕ) (a4 : ℕ) (a5 : Option (ℕ × BitVec 40)) :
    State.except m (State.runRoute a0 a1 a2 a3 a4 a5) = State.except m a0 := by
  refine except_mono h ?_
  unfold State.runRoute
  (try simp only [State.applyWrites_same, State.store_same, State.routerDone_same, State.routerUnc_same,
      State.wr_same, State.countSkips_same, apply_ite (State.except 34360795393), apply_ite Prod.snd, apply_ite
      Prod.fst, ite_self, Nat.reduceAnd, foldl_same, foldl_same2, foldl_same1])
  repeat' split
  all_goals (try simp only [State.applyWrites_same, State.store_same, State.routerDone_same, State.routerUnc_same,
      State.wr_same, State.countSkips_same, apply_ite (State.except 34360795393), apply_ite Prod.snd, apply_ite
      Prod.fst, ite_self, Nat.reduceAnd, foldl_same, foldl_same2, foldl_same1])

theorem State.runCombine_same (m : Nat) (h : 34360787201 &&& m = 34360787201) (a0 : State) (a1 : RouterOp) (a2 : ℕ)
    (a3 : List ℕ) (a4 : Option (ℕ × BitVec 40)) :
    State.except m (State.runCombine a0 a1 a2 a3 a4) = State.except m a0 := by
  refine except_mono h ?_
  unfold State.runCombine
  (try simp only [State.applyWrites_same, State.store_same, State.routerDone_same, State.routerUnc_same, apply_ite
      (State.except 34360787201), apply_ite Prod.snd, apply_ite Prod.fst, ite_self, Nat.reduceAnd, foldl_same,
      foldl_same2, foldl_same1])
  repeat' split
  all_goals (try simp only [State.applyWrites_same, State.store_same, State.routerDone_same, State.routerUnc_same,
      apply_ite (State.except 34360787201), apply_ite Prod.snd, apply_ite Prod.fst, ite_self, Nat.reduceAnd,
      foldl_same, foldl_same2, foldl_same1])

theorem State.expireOps_same (m : Nat) (h : 1572865 &&& m = 1572865) (a0 : State) :
    State.except m (State.expireOps a0) = State.except m a0 := by
  refine except_mono h ?_
  unfold State.expireOps
  (try simp only [State.routerDone_same, State.setLtr_same, apply_ite (State.except 1572865), apply_ite Prod.snd,
      apply_ite Prod.fst, ite_self, Nat.reduceAnd, foldl_same, foldl_same2, foldl_same1])
  repeat' split
  all_goals (try simp [State.routerDone_same, State.setLtr_same, apply_ite (State.except 1572865), apply_ite Prod.snd,
      apply_ite Prod.fst, ite_self, Nat.reduceAnd, foldl_same, foldl_same2, foldl_same1])

theorem State.takeOp_same (m : Nat) (h : 34361319681 &&& m = 34361319681) (a0 : State) (a1 : Bool) (a2 : ℕ) (a3 :
    Bool) (a4 : Option (ℕ × BitVec 40)) :
    State.except m (State.takeOp a0 a1 a2 a3 a4) = State.except m a0 := by
  refine except_mono h ?_
  unfold State.takeOp
  (try simp only [State.expireOps_same, State.setLtr_same, State.routerDone_same, State.routerLog_same,
      State.runCombine_same, State.runRoute_same, apply_ite (State.except 34361319681), apply_ite Prod.snd, apply_ite
      Prod.fst, ite_self, Nat.reduceAnd, foldl_same, foldl_same2, foldl_same1])
  repeat' split
  all_goals (try simp only [State.expireOps_same, State.setLtr_same, State.routerDone_same, State.routerLog_same,
      State.runCombine_same, State.runRoute_same, apply_ite (State.except 34361319681), apply_ite Prod.snd, apply_ite
      Prod.fst, ite_self, Nat.reduceAnd, foldl_same, foldl_same2, foldl_same1])

theorem State.override_same (m : Nat) (h : 4294967553 &&& m = 4294967553) (a0 : State) (a1 : ℕ) :
    State.except m (State.override a0 a1) = State.except m a0 := by
  refine except_mono h ?_
  unfold State.override
  simp only [State.count_same, State.raise_same, State.log_same, State.setMon_same, apply_ite (State.except
      4294967553), apply_ite Prod.snd, apply_ite Prod.fst, ite_self, Nat.reduceAnd, foldl_same, foldl_same2,
      foldl_same1]

theorem State.handBack_same (m : Nat) (h : 4294967296 &&& m = 4294967296) (a0 : State) (a1 : ℕ) :
    State.except m (State.handBack a0 a1) = State.except m a0 := by
  refine except_mono h ?_
  unfold State.handBack
  simp only [State.setMon_same, apply_ite (State.except 4294967296), apply_ite Prod.snd, apply_ite Prod.fst, ite_self,
      Nat.reduceAnd, foldl_same, foldl_same2, foldl_same1]

theorem State.throttle_same (m : Nat) (h : 4295229697 &&& m = 4295229697) (a0 : State) :
    State.except m (State.throttle a0) = State.except m a0 := by
  refine except_mono h ?_
  unfold State.throttle
  simp only [State.raise_same, State.wr_same, State.handBack_same, State.degradeRunning_same, State.override_same,
      apply_ite (State.except 4295229697), apply_ite Prod.snd, apply_ite Prod.fst, ite_self, Nat.reduceAnd,
      foldl_same, foldl_same2, foldl_same1]

theorem State.railTop_same (m : Nat) (h : 4295229697 &&& m = 4295229697) (a0 : State) (a1 : ℕ) :
    State.except m (State.railTop a0 a1) = State.except m a0 := by
  refine except_mono h ?_
  unfold State.railTop
  simp only [State.raise_same, State.wr_same, State.setMon_same, State.throttle_same, apply_ite (State.except
      4295229697), apply_ite Prod.snd, apply_ite Prod.fst, ite_self, Nat.reduceAnd, foldl_same, foldl_same2,
      foldl_same1]

theorem State.supplyRail_same (m : Nat) (h : 4295229697 &&& m = 4295229697) (a0 : State) (a1 : ℕ) (a2 : List (List
    (BitVec 16))) :
    State.except m (State.supplyRail a0 a1 a2) = State.except m a0 := by
  refine except_mono h ?_
  unfold State.supplyRail
  simp only [State.setMon_same, State.railTop_same, State.wr_same, State.override_same, State.railsFollow_same,
      State.handBack_same, State.throttle_same, apply_ite (State.except 4295229697), apply_ite Prod.snd, apply_ite
      Prod.fst, ite_self, Nat.reduceAnd, foldl_same, foldl_same2, foldl_same1]

theorem State.tempSite_same (m : Nat) (h : 4294967297 &&& m = 4294967297) (a0 : State) (a1 : ℕ) (a2 : ℤ) :
    State.except m (State.tempSite a0 a1 a2) = State.except m a0 := by
  refine except_mono h ?_
  unfold State.tempSite
  (try simp only [State.wr_same, State.raise_same, State.setMon_same, apply_ite (State.except 4294967297), apply_ite
      Prod.snd, apply_ite Prod.fst, ite_self, Nat.reduceAnd, foldl_same, foldl_same2, foldl_same1])
  repeat' split
  all_goals (try simp only [State.wr_same, State.raise_same, State.setMon_same, apply_ite (State.except 4294967297),
      apply_ite Prod.snd, apply_ite Prod.fst, ite_self, Nat.reduceAnd, foldl_same, foldl_same2, foldl_same1])

theorem State.tempShow_same (m : Nat) (h : 1 &&& m = 1) (a0 : State) :
    State.except m (State.tempShow a0) = State.except m a0 := by
  refine except_mono h ?_
  unfold State.tempShow
  (try simp only [State.wr_same, apply_ite (State.except 1), apply_ite Prod.snd, apply_ite Prod.fst, ite_self,
      Nat.reduceAnd, foldl_same, foldl_same2, foldl_same1])
  repeat' split
  all_goals (try simp only [State.wr_same, apply_ite (State.except 1), apply_ite Prod.snd, apply_ite Prod.fst,
      ite_self, Nat.reduceAnd, foldl_same, foldl_same2, foldl_same1])

theorem State.divisorStep_same (m : Nat) (h : 4295229697 &&& m = 4295229697) (a0 : State) (a1 : ℤ) :
    State.except m (State.divisorStep a0 a1) = State.except m a0 := by
  refine except_mono h ?_
  unfold State.divisorStep
  simp only [State.setMon_same, State.throttle_same, apply_ite (State.except 4295229697), apply_ite Prod.snd,
      apply_ite Prod.fst, ite_self, Nat.reduceAnd, foldl_same, foldl_same2, foldl_same1]

theorem State.maskStep_same (m : Nat) (h : 4294967553 &&& m = 4294967553) (a0 : State) (a1 : ℕ) :
    State.except m (State.maskStep a0 a1) = State.except m a0 := by
  refine except_mono h ?_
  unfold State.maskStep
  simp only [State.setMon_same, State.override_same, State.wr_same, apply_ite (State.except 4294967553), apply_ite
      Prod.snd, apply_ite Prod.fst, ite_self, Nat.reduceAnd, foldl_same, foldl_same2, foldl_same1]

theorem State.maskTell_same (m : Nat) (h : 4296024065 &&& m = 4296024065) (a0 : State) (a1 : ℕ) :
    State.except m (State.maskTell a0 a1) = State.except m a0 := by
  refine except_mono h ?_
  unfold State.maskTell
  simp only [State.raise_same, State.handBack_same, State.startAll_same, State.computeCapacity_same, apply_ite
      (State.except 4296024065), apply_ite Prod.snd, apply_ite Prod.fst, ite_self, Nat.reduceAnd, foldl_same,
      foldl_same2, foldl_same1]

theorem State.ladderStep_same (m : Nat) (h : 4294967296 &&& m = 4294967296) (a0 : State) (a1 : ℤ) :
    State.except m (State.ladderStep a0 a1) = State.except m a0 := by
  refine except_mono h ?_
  unfold State.ladderStep
  simp only [State.setMon_same, apply_ite (State.except 4294967296), apply_ite Prod.snd, apply_ite Prod.fst, ite_self,
      Nat.reduceAnd, foldl_same, foldl_same2, foldl_same1]

theorem refuse_same (m : Nat) (h : 0 &&& m = 0) (a0 : Status) (a1 : State) :
    State.except m (refuse a0 a1).2 = State.except m a1 := by
  refine except_mono h ?_
  unfold refuse
  simp only [apply_ite (State.except 0), apply_ite Prod.snd, apply_ite Prod.fst, ite_self, Nat.reduceAnd, foldl_same,
      foldl_same2, foldl_same1]

theorem State.upset_same (m : Nat) (h : 33 &&& m = 33) (a0 : State) (a1 : ℕ) (a2 : ℕ × ℕ) :
    State.except m (State.upset a0 a1 a2) = State.except m a0 := by
  refine except_mono h ?_
  unfold State.upset
  simp only [State.setPg_same, State.setReg_same, apply_ite (State.except 33), apply_ite Prod.snd, apply_ite Prod.fst,
      ite_self, Nat.reduceAnd, foldl_same, foldl_same2, foldl_same1]

theorem State.setNb_same (m : Nat) (h : 33554432 &&& m = 33554432) (a0 : State) (a1 : ℕ) (a2 : Neighbour → Neighbour)
    :
    State.except m (State.setNb a0 a1 a2) = State.except m a0 := by
  refine except_mono h ?_
  unfold State.setNb
  simp only [State.setPlm_same, apply_ite (State.except 33554432), apply_ite Prod.snd, apply_ite Prod.fst, ite_self,
      Nat.reduceAnd, foldl_same, foldl_same2, foldl_same1]

theorem State.noteRoutes_same (m : Nat) (h : 33554432 &&& m = 33554432) (a0 : State) :
    State.except m (State.noteRoutes a0) = State.except m a0 := by
  refine except_mono h ?_
  unfold State.noteRoutes
  simp only [State.setPlm_same, apply_ite (State.except 33554432), apply_ite Prod.snd, apply_ite Prod.fst, ite_self,
      Nat.reduceAnd, foldl_same, foldl_same2, foldl_same1]

theorem State.epRelease_same (m : Nat) (h : 34393292800 &&& m = 34393292800) (a0 : ℕ) (a1 : ℕ) (a2 : State) :
    State.except m (State.epRelease a0 a1 a2) = State.except m a2 := by
  refine except_mono h ?_
  induction a1 generalizing a2 with
  | zero => rfl
  | succ n ih =>
    unfold State.epRelease
    (repeat' split) <;> simp only [ih, State.epPut_same, State.setPlm_same, apply_ite (State.except 34393292800),
        apply_ite Prod.snd, apply_ite Prod.fst, ite_self, Nat.reduceAnd, foldl_same, foldl_same2, foldl_same1]

theorem State.epReceive_same (m : Nat) (h : 34359738368 &&& m = 34359738368) (a0 : State) (a1 : ℕ) (a2 : ℕ) (a3 :
    Status) (a4 : ℕ) (a5 : ℕ) (a6 : ℕ) (a7 : ℕ) (a8 : ℕ) (a9 : ℕ) (a10 : List Byte) :
    ∀ o, State.epReceive a0 a1 a2 a3 a4 a5 a6 a7 a8 a9 a10 = some o → State.except m o = State.except m a0 := by
  intro o h'
  refine except_mono h ?_
  unfold State.epReceive at h'
  dsimp only at h'
  split at h'
  · cases h'; simp only [State.store_same, Nat.reduceAnd]
  · cases h'

theorem State.ctrStore_same (m : Nat) (h : 4194305 &&& m = 4194305) (a0 : State) (a1 : ℕ) (a2 : ℕ) :
    State.except m (State.ctrStore a0 a1 a2) = State.except m a0 := by
  refine except_mono h ?_
  unfold State.ctrStore
  simp only [State.devWrite_same, apply_ite (State.except 4194305), apply_ite Prod.snd, apply_ite Prod.fst, ite_self,
      Nat.reduceAnd, foldl_same, foldl_same2, foldl_same1]

theorem State.ctrNow_same (m : Nat) (h : 4194305 &&& m = 4194305) (a0 : State) (a1 : ℕ) :
    State.except m (State.ctrNow a0 a1).2 = State.except m a0 := by
  refine except_mono h ?_
  unfold State.ctrNow
  (try simp only [State.ctrStore_same, apply_ite (State.except 4194305), apply_ite Prod.snd, apply_ite Prod.fst,
      ite_self, Nat.reduceAnd, foldl_same, foldl_same2, foldl_same1])
  repeat' split
  all_goals (try simp only [State.ctrStore_same, apply_ite (State.except 4194305), apply_ite Prod.snd, apply_ite
      Prod.fst, ite_self, Nat.reduceAnd, foldl_same, foldl_same2, foldl_same1])

theorem State.ctrNext_same (m : Nat) (h : 37748737 &&& m = 37748737) (a0 : State) (a1 : ℕ) :
    State.except m (State.ctrNext a0 a1).2 = State.except m a0 := by
  refine except_mono h ?_
  unfold State.ctrNext
  simp only [State.ctrNow_same, State.setPlm_same, State.ctrStore_same, apply_ite (State.except 37748737), apply_ite
      Prod.snd, apply_ite Prod.fst, ite_self, Nat.reduceAnd, foldl_same, foldl_same2, foldl_same1]

theorem State.ctrAccept_same (m : Nat) (h : 33554432 &&& m = 33554432) (a0 : State) (a1 : ℕ) (a2 : ℕ) (a3 : ℕ) :
    ∀ o, State.ctrAccept a0 a1 a2 a3 = some o → State.except m o = State.except m a0 := by
  intro o h'
  refine except_mono h ?_
  unfold State.ctrAccept at h'
  dsimp only at h'
  repeat' split at h'
  all_goals cases h'
  all_goals simp only [State.setPlm_same, Nat.reduceAnd]

theorem State.linkSeq_same (m : Nat) (h : 33554432 &&& m = 33554432) (a0 : State) (a1 : ℕ) :
    State.except m (State.linkSeq a0 a1).2 = State.except m a0 := by
  refine except_mono h ?_
  unfold State.linkSeq
  simp only [State.setPlm_same, apply_ite (State.except 33554432), apply_ite Prod.snd, apply_ite Prod.fst, ite_self,
      Nat.reduceAnd, foldl_same, foldl_same2, foldl_same1]

theorem State.buildSegment_same (m : Nat) (h : 37748737 &&& m = 37748737) (a0 : State) (a1 : TxFrame) (a2 : ℕ) :
    State.except m (State.buildSegment a0 a1 a2).2 = State.except m a0 := by
  refine except_mono h ?_
  unfold State.buildSegment
  (try simp only [State.linkSeq_same, State.ctrNext_same, State.setFrame_same, apply_ite (State.except 37748737),
      apply_ite Prod.snd, apply_ite Prod.fst, ite_self, Nat.reduceAnd, foldl_same, foldl_same2, foldl_same1])
  repeat' split
  all_goals (try simp only [State.linkSeq_same, State.ctrNext_same, State.setFrame_same, apply_ite (State.except
      37748737), apply_ite Prod.snd, apply_ite Prod.fst, ite_self, Nat.reduceAnd, foldl_same, foldl_same2,
      foldl_same1])

theorem State.closeAttempt_same (m : Nat) (h : 33554432 &&& m = 33554432) (a0 : State) (a1 : Attempt) (a2 : Bool) :
    State.except m (State.closeAttempt a0 a1 a2) = State.except m a0 := by
  refine except_mono h ?_
  unfold State.closeAttempt
  (try simp only [State.setFrame_same, State.setPlm_same, State.noteRoutes_same, State.setNb_same, apply_ite
      (State.except 33554432), apply_ite Prod.snd, apply_ite Prod.fst, ite_self, Nat.reduceAnd, foldl_same,
      foldl_same2, foldl_same1])
  repeat' split
  all_goals (try simp only [State.setFrame_same, State.setPlm_same, State.noteRoutes_same, State.setNb_same, apply_ite
      (State.except 33554432), apply_ite Prod.snd, apply_ite Prod.fst, ite_self, Nat.reduceAnd, foldl_same,
      foldl_same2, foldl_same1])

theorem State.segmentDone_same (m : Nat) (h : 34393300993 &&& m = 34393300993) (a0 : State) (a1 : Attempt) (a2 : Bool)
    :
    State.except m (State.segmentDone a0 a1 a2) = State.except m a0 := by
  refine except_mono h ?_
  unfold State.segmentDone
  (try simp only [State.closeAttempt_same, State.setFrame_same, State.endFrame_same, apply_ite (State.except
      34393300993), apply_ite Prod.snd, apply_ite Prod.fst, ite_self, Nat.reduceAnd, foldl_same, foldl_same2,
      foldl_same1])
  repeat' split
  all_goals (try simp only [State.closeAttempt_same, State.setFrame_same, State.endFrame_same, apply_ite (State.except
      34393300993), apply_ite Prod.snd, apply_ite Prod.fst, ite_self, Nat.reduceAnd, foldl_same, foldl_same2,
      foldl_same1])

theorem State.segmentFailed_same (m : Nat) (h : 34393300993 &&& m = 34393300993) (a0 : State) (a1 : Attempt) :
    State.except m (State.segmentFailed a0 a1) = State.except m a0 := by
  refine except_mono h ?_
  unfold State.segmentFailed
  (try simp only [State.closeAttempt_same, State.setFrame_same, State.endFrame_same, apply_ite (State.except
      34393300993), apply_ite Prod.snd, apply_ite Prod.fst, ite_self, Nat.reduceAnd, foldl_same, foldl_same2,
      foldl_same1])
  repeat' split
  all_goals (try simp only [State.closeAttempt_same, State.setFrame_same, State.endFrame_same, apply_ite (State.except
      34393300993), apply_ite Prod.snd, apply_ite Prod.fst, ite_self, Nat.reduceAnd, foldl_same, foldl_same2,
      foldl_same1])

theorem State.sendAck_same (m : Nat) (h : 1024 &&& m = 1024) (a0 : State) (a1 : Segment) :
    State.except m (State.sendAck a0 a1) = State.except m a0 := by
  refine except_mono h ?_
  unfold State.sendAck
  simp only [State.send_same, apply_ite (State.except 1024), apply_ite Prod.snd, apply_ite Prod.fst, ite_self,
      Nat.reduceAnd, foldl_same, foldl_same2, foldl_same1]

theorem State.placeFrame_same (m : Nat) (h : 34393292800 &&& m = 34393292800) (a0 : State) (a1 : Segment) (a2 : ℕ) (a3
    : List Byte) (a4 : ℕ) :
    ∀ o, State.placeFrame a0 a1 a2 a3 a4 = some o → State.except m o = State.except m a0 := by
  intro o h'
  refine except_mono h ?_
  unfold State.placeFrame at h'
  repeat' split at h'
  · cases h'; rfl
  · exact State.epReceive_same 34393292800 rfl _ _ _ _ _ _ _ _ _ _ _ _ h'
  · cases h'; simp only [State.setPlm_same, Nat.reduceAnd]
  · cases h'; simp only [State.setPlm_same, Nat.reduceAnd]

theorem State.reassemble_same (m : Nat) (h : 34393292801 &&& m = 34393292801) (a0 : State) (a1 : Segment) (a2 : ℕ) (a3
    : List Byte) :
    ∀ o, State.reassemble a0 a1 a2 a3 = some o → State.except m o = State.except m a0 := by
  intro o h'
  refine except_mono h ?_
  unfold State.reassemble at h'
  dsimp only at h'
  repeat' split at h'
  · exact State.placeFrame_same 34393292801 rfl _ _ _ _ _ _ h'
  · cases h'; simp only [State.count_same, Nat.reduceAnd]
  · cases h'; simp only [State.setPlm_same, Nat.reduceAnd]
  · cases h'; simp only [State.count_same, State.setPlm_same, Nat.reduceAnd]
  · exact (State.placeFrame_same 34393292801 rfl _ _ _ _ _ _ h').trans (State.setPlm_same 34393292801 rfl _ _)
  · cases h'; simp only [State.setPlm_same, Nat.reduceAnd]

theorem State.forward_same (m : Nat) (h : 33555457 &&& m = 33555457) (a0 : State) (a1 : Segment) :
    State.except m (State.forward a0 a1) = State.except m a0 := by
  refine except_mono h ?_
  unfold State.forward
  simp only [State.count_same, State.sendAck_same, State.enqueue_same, apply_ite (State.except 33555457), apply_ite
      Prod.snd, apply_ite Prod.fst, ite_self, Nat.reduceAnd, foldl_same, foldl_same2, foldl_same1]

theorem State.acceptSegment_same (m : Nat) (h : 34393293825 &&& m = 34393293825) (a0 : State) (a1 : Segment) (a2 : ℕ)
    :
    State.except m (State.acceptSegment a0 a1 a2) = State.except m a0 := by
  refine except_mono h ?_
  unfold State.acceptSegment
  split
  · simp only [State.count_same, Nat.reduceAnd]
  · split
    · rfl
    · simp only [State.count_same, Nat.reduceAnd]
    · split
      · simp only [State.count_same, Nat.reduceAnd]
      · rename_i e
        have k : State.except 34393293825 ‹State› = State.except 34393293825 a0 := by
          split at e
          · cases e; rfl
          · exact State.ctrAccept_same 34393293825 rfl _ _ _ _ _ e
        split
        · rename_i e'
          simp only [State.sendAck_same, Nat.reduceAnd]
          exact (State.reassemble_same 34393293825 rfl _ _ _ _ _ e').trans k
        · simp only [State.count_same, Nat.reduceAnd]

theorem State.heardFrom_same (m : Nat) (h : 33554432 &&& m = 33554432) (a0 : State) (a1 : ℕ) :
    State.except m (State.heardFrom a0 a1) = State.except m a0 := by
  refine except_mono h ?_
  unfold State.heardFrom
  (try simp only [State.setNb_same, State.setPlm_same, apply_ite (State.except 33554432), apply_ite Prod.snd,
      apply_ite Prod.fst, ite_self, Nat.reduceAnd, foldl_same, foldl_same2, foldl_same1])
  repeat' split
  all_goals (try simp only [State.setNb_same, State.setPlm_same, apply_ite (State.except 33554432), apply_ite
      Prod.snd, apply_ite Prod.fst, ite_self, Nat.reduceAnd, foldl_same, foldl_same2, foldl_same1])

theorem State.macReceive_same (m : Nat) (h : 34393302017 &&& m = 34393302017) (a0 : State) (a1 : List Byte) (a2 : ℕ)
    (a3 : ℕ) (a4 : ℕ) :
    State.except m (State.macReceive a0 a1 a2 a3 a4) = State.except m a0 := by
  refine except_mono h ?_
  unfold State.macReceive
  (try simp only [State.heardFrom_same, State.count_same, State.segmentDone_same, State.forward_same,
      State.acceptSegment_same, apply_ite (State.except 34393302017), apply_ite Prod.snd, apply_ite Prod.fst,
      ite_self, Nat.reduceAnd, foldl_same, foldl_same2, foldl_same1])
  repeat' split
  all_goals (try simp only [State.heardFrom_same, State.count_same, State.segmentDone_same, State.forward_same,
      State.acceptSegment_same, apply_ite (State.except 34393302017), apply_ite Prod.snd, apply_ite Prod.fst,
      ite_self, Nat.reduceAnd, foldl_same, foldl_same2, foldl_same1])

theorem State.setLink_same (m : Nat) (h : 8388608 &&& m = 8388608) (a0 : State) (a1 : ℕ) (a2 : PltLink → PltLink) :
    State.except m (State.setLink a0 a1 a2) = State.except m a0 := by
  refine except_mono h ?_
  unfold State.setLink
  simp only [State.setPlt_same, apply_ite (State.except 8388608), apply_ite Prod.snd, apply_ite Prod.fst, ite_self,
      Nat.reduceAnd, foldl_same, foldl_same2, foldl_same1]

theorem State.pltAccept_same (m : Nat) (h : 8388609 &&& m = 8388609) (a0 : State) (a1 : ToneIn) (a2 : Option ℕ) :
    State.except m (State.pltAccept a0 a1 a2).2 = State.except m a0 := by
  refine except_mono h ?_
  unfold State.pltAccept
  (try simp only [State.count_same, State.setLink_same, apply_ite (State.except 8388609), apply_ite Prod.snd,
      apply_ite Prod.fst, ite_self, Nat.reduceAnd, foldl_same, foldl_same2, foldl_same1])
  repeat' split
  all_goals (try simp only [State.count_same, State.setLink_same, apply_ite (State.except 8388609), apply_ite
      Prod.snd, apply_ite Prod.fst, ite_self, Nat.reduceAnd, foldl_same, foldl_same2, foldl_same1])

theorem State.takeMgmt_same (m : Nat) (h : 33554432 &&& m = 33554432) (a0 : State) (a1 : ℕ) :
    ∀ o, State.takeMgmt a0 a1 = some o → State.except m o.2 = State.except m a0 := by
  intro o h'
  refine except_mono h ?_
  unfold State.takeMgmt at h'
  split at h'
  · cases h'
  · cases h'; simp only [State.setPlm_same, Nat.reduceAnd]

theorem State.dropUnknown_same (m : Nat) (h : 33554433 &&& m = 33554433) (a0 : State) :
    State.except m (State.dropUnknown a0) = State.except m a0 := by
  refine except_mono h ?_
  unfold State.dropUnknown
  simp only [State.count_same, State.setPlm_same, apply_ite (State.except 33554433), apply_ite Prod.snd, apply_ite
      Prod.fst, ite_self, Nat.reduceAnd, foldl_same, foldl_same2, foldl_same1]

theorem State.sendSet_same (m : Nat) (h : 33554432 &&& m = 33554432) (a0 : State) (a1 : ℕ) (a2 : MapSet) :
    State.except m (State.sendSet a0 a1 a2) = State.except m a0 := by
  refine except_mono h ?_
  unfold State.sendSet
  (try simp only [State.sendMgmt_same, apply_ite (State.except 33554432), apply_ite Prod.snd, apply_ite Prod.fst,
      ite_self, Nat.reduceAnd, foldl_same, foldl_same2, foldl_same1])
  repeat' split
  all_goals (try simp only [State.sendMgmt_same, apply_ite (State.except 33554432), apply_ite Prod.snd, apply_ite
      Prod.fst, ite_self, Nat.reduceAnd, foldl_same, foldl_same2, foldl_same1])

theorem State.recordIssue_same (m : Nat) (h : 8388609 &&& m = 8388609) (a0 : State) (a1 : ℕ) (a2 : MapSet) :
    State.except m (State.recordIssue a0 a1 a2) = State.except m a0 := by
  refine except_mono h ?_
  unfold State.recordIssue
  simp only [State.raise_same, State.setLink_same, apply_ite (State.except 8388609), apply_ite Prod.snd, apply_ite
      Prod.fst, ite_self, Nat.reduceAnd, foldl_same, foldl_same2, foldl_same1]

theorem State.issueSet_same (m : Nat) (h : 41943041 &&& m = 41943041) (a0 : State) (a1 : ℕ) :
    State.except m (State.issueSet a0 a1) = State.except m a0 := by
  refine except_mono h ?_
  unfold State.issueSet
  simp only [State.sendSet_same, State.recordIssue_same, Nat.reduceAnd]

theorem State.dropNb_same (m : Nat) (h : 41943297 &&& m = 41943297) (a0 : State) (a1 : ℕ) (a2 : ℕ) :
    State.except m (State.dropNb a0 a1 a2) = State.except m a0 := by
  refine except_mono h ?_
  unfold State.dropNb
  (try simp only [State.setPlm_same, State.setPlt_same, State.log_same, State.partner_same, apply_ite (State.except
      41943297), apply_ite Prod.snd, apply_ite Prod.fst, ite_self, Nat.reduceAnd, foldl_same, foldl_same2,
      foldl_same1])
  repeat' split
  all_goals (try simp only [State.setPlm_same, State.setPlt_same, State.log_same, State.partner_same, apply_ite
      (State.except 41943297), apply_ite Prod.snd, apply_ite Prod.fst, ite_self, Nat.reduceAnd, foldl_same,
      foldl_same2, foldl_same1])

theorem State.refuseTd_same (m : Nat) (h : 34393300993 &&& m = 34393300993) (a0 : State) (a1 : ℕ) (a2 : ℕ) (a3 :
    Status) :
    State.except m (State.refuseTd a0 a1 a2 a3) = State.except m a0 := by
  refine except_mono h ?_
  unfold State.refuseTd
  simp only [State.epRecord_same, State.outcome_same, apply_ite (State.except 34393300993), apply_ite Prod.snd,
      apply_ite Prod.fst, ite_self, Nat.reduceAnd, foldl_same, foldl_same2, foldl_same1]

theorem State.addDown_same (m : Nat) (h : 33554432 &&& m = 33554432) (a0 : State) (a1 : ℕ) (a2 : List Byte) (a3 :
    Bool) (a4 : Option (ℕ × ℕ × ℕ)) :
    State.except m (State.addDown a0 a1 a2 a3 a4) = State.except m a0 := by
  refine except_mono h ?_
  unfold State.addDown
  simp only [State.setPlm_same, apply_ite (State.except 33554432), apply_ite Prod.snd, apply_ite Prod.fst, ite_self,
      Nat.reduceAnd, foldl_same, foldl_same2, foldl_same1]

theorem State.sendRelay_same (m : Nat) (h : 33554432 &&& m = 33554432) (a0 : State) (a1 : ℕ) (a2 : ℕ) (a3 : ℕ) (a4 :
    ℕ) (a5 : List Byte) (a6 : Option ℕ) :
    State.except m (State.sendRelay a0 a1 a2 a3 a4 a5 a6) = State.except m a0 := by
  refine except_mono h ?_
  unfold State.sendRelay
  simp only [State.enqueue_same, apply_ite (State.except 33554432), apply_ite Prod.snd, apply_ite Prod.fst, ite_self,
      Nat.reduceAnd, foldl_same, foldl_same2, foldl_same1]

theorem State.nodeDownlink_same (m : Nat) (h : 33554432 &&& m = 33554432) (a0 : State) (a1 : NodeEntry) (a2 : ℕ) (a3 :
    ℕ) (a4 : List Byte) (a5 : Option (ℕ × ℕ × ℕ)) :
    State.except m (State.nodeDownlink a0 a1 a2 a3 a4 a5) = State.except m a0 := by
  refine except_mono h ?_
  unfold State.nodeDownlink
  (try simp only [State.addDown_same, State.setNode_same, apply_ite (State.except 33554432), apply_ite Prod.snd,
      apply_ite Prod.fst, ite_self, Nat.reduceAnd, foldl_same, foldl_same2, foldl_same1])
  repeat' split
  all_goals (try simp only [State.addDown_same, State.setNode_same, apply_ite (State.except 33554432), apply_ite
      Prod.snd, apply_ite Prod.fst, ite_self, Nat.reduceAnd, foldl_same, foldl_same2, foldl_same1])

theorem State.nodeTd_same (m : Nat) (h : 34393300993 &&& m = 34393300993) (a0 : State) (a1 : ℕ) (a2 : ℕ) :
    State.except m (State.nodeTd a0 a1 a2) = State.except m a0 := by
  refine except_mono h ?_
  unfold State.nodeTd
  (try simp only [State.refuseTd_same, State.nodeDownlink_same, apply_ite (State.except 34393300993), apply_ite
      Prod.snd, apply_ite Prod.fst, ite_self, Nat.reduceAnd, foldl_same, foldl_same2, foldl_same1])
  repeat' split
  all_goals (try simp only [State.refuseTd_same, State.nodeDownlink_same, apply_ite (State.except 34393300993),
      apply_ite Prod.snd, apply_ite Prod.fst, ite_self, Nat.reduceAnd, foldl_same, foldl_same2, foldl_same1])

theorem State.toneTd_same (m : Nat) (h : 34393300993 &&& m = 34393300993) (a0 : State) (a1 : ℕ) (a2 : ℕ) :
    State.except m (State.toneTd a0 a1 a2) = State.except m a0 := by
  refine except_mono h ?_
  unfold State.toneTd
  try dsimp only
  repeat' split
  all_goals first
    | (simp only [State.refuseTd_same, State.admit_same, State.enqueue_same, apply_ite (State.except 34393300993),
        apply_ite Prod.snd, apply_ite Prod.fst, ite_self, Nat.reduceAnd, foldl_same, foldl_same2, foldl_same1]; done)
    | (try simp only [State.refuseTd_same, State.admit_same, State.enqueue_same, apply_ite (State.except 34393300993),
        apply_ite Prod.snd, apply_ite Prod.fst, ite_self, Nat.reduceAnd, foldl_same, foldl_same2, foldl_same1]
       exact State.admit_same 34393300993 rfl _ _ _ _ _ (by assumption))

theorem State.takeTd_same (m : Nat) (h : 34393300993 &&& m = 34393300993) (a0 : State) (a1 : ℕ) :
    State.except m (State.takeTd a0 a1) = State.except m a0 := by
  refine except_mono h ?_
  unfold State.takeTd
  (try simp only [State.refuseTd_same, State.nodeTd_same, State.toneTd_same, State.store_same, apply_ite (State.except
      34393300993), apply_ite Prod.snd, apply_ite Prod.fst, ite_self, Nat.reduceAnd, foldl_same, foldl_same2,
      foldl_same1])
  repeat' split
  all_goals (try simp only [State.refuseTd_same, State.nodeTd_same, State.toneTd_same, State.store_same, apply_ite
      (State.except 34393300993), apply_ite Prod.snd, apply_ite Prod.fst, ite_self, Nat.reduceAnd, foldl_same,
      foldl_same2, foldl_same1])

theorem State.takeTds_same (m : Nat) (h : 34393300993 &&& m = 34393300993) (a0 : ℕ) (a1 : ℕ) (a2 : State) :
    State.except m (State.takeTds a0 a1 a2) = State.except m a2 := by
  refine except_mono h ?_
  induction a1 generalizing a2 with
  | zero => rfl
  | succ n ih =>
    unfold State.takeTds
    (repeat' split) <;> simp only [ih, State.takeTd_same, apply_ite (State.except 34393300993), apply_ite Prod.snd,
        apply_ite Prod.fst, ite_self, Nat.reduceAnd, foldl_same, foldl_same2, foldl_same1]

theorem State.deliverUplink_same (m : Nat) (h : 34359738369 &&& m = 34359738369) (a0 : State) (a1 : ℕ) (a2 : Bool) (a3
    : ℕ) (a4 : ℕ) (a5 : ℕ) (a6 : ℕ) (a7 : ℕ) (a8 : ℕ) (a9 : List Byte) :
    State.except m (State.deliverUplink a0 a1 a2 a3 a4 a5 a6 a7 a8 a9) = State.except m a0 := by
  refine except_mono h ?_
  unfold State.deliverUplink
  split
  · exact State.epReceive_same 34359738369 rfl _ _ _ _ _ _ _ _ _ _ _ _ ‹_›
  · simp only [State.count_same, Nat.reduceAnd]

theorem State.logAlarm_same (m : Nat) (h : 256 &&& m = 256) (a0 : State) (a1 : ℕ) (a2 : ℕ) (a3 : ℕ) (a4 : List Byte) :
    State.except m (State.logAlarm a0 a1 a2 a3 a4) = State.except m a0 := by
  refine except_mono h ?_
  unfold State.logAlarm
  (try simp only [State.log_same, apply_ite (State.except 256), apply_ite Prod.snd, apply_ite Prod.fst, ite_self,
      Nat.reduceAnd, foldl_same, foldl_same2, foldl_same1])
  repeat' split
  all_goals (try simp [State.log_same, apply_ite (State.except 256), apply_ite Prod.snd, apply_ite Prod.fst, ite_self,
      Nat.reduceAnd, foldl_same, foldl_same2, foldl_same1])

theorem State.takeNode_same (m : Nat) (h : 33554432 &&& m = 33554432) (a0 : State) (a1 : PulseIn → Bool) :
    ∀ o, State.takeNode a0 a1 = some o → State.except m o.2 = State.except m a0 := by
  intro o h'
  refine except_mono h ?_
  unfold State.takeNode at h'
  split at h'
  · cases h'
  · cases h'; simp only [State.setPlm_same, Nat.reduceAnd]

theorem State.noteUplink_same (m : Nat) (h : 33554432 &&& m = 33554432) (a0 : State) (a1 : NodeEntry) (a2 : ℕ) (a3 :
    Option ℕ) :
    State.except m (State.noteUplink a0 a1 a2 a3) = State.except m a0 := by
  refine except_mono h ?_
  unfold State.noteUplink
  simp only [State.setNode_same, apply_ite (State.except 33554432), apply_ite Prod.snd, apply_ite Prod.fst, ite_self,
      Nat.reduceAnd, foldl_same, foldl_same2, foldl_same1]

theorem State.seekGrant_same (m : Nat) (h : 33554432 &&& m = 33554432) (a0 : State) (a1 : ℕ) :
    State.except m (State.seekGrant a0 a1) = State.except m a0 := by
  refine except_mono h ?_
  unfold State.seekGrant
  (try simp only [State.setPlm_same, State.sendMgmt_same, apply_ite (State.except 33554432), apply_ite Prod.snd,
      apply_ite Prod.fst, ite_self, Nat.reduceAnd, foldl_same, foldl_same2, foldl_same1])
  repeat' split
  all_goals (try simp [State.setPlm_same, State.sendMgmt_same, apply_ite (State.except 33554432), apply_ite Prod.snd,
      apply_ite Prod.fst, ite_self, Nat.reduceAnd, foldl_same, foldl_same2, foldl_same1])

theorem State.admitNode_same (m : Nat) (h : 33554689 &&& m = 33554689) (a0 : State) (a1 : JoinSlot) (a2 : ℕ) (a3 : ℕ)
    (a4 : List Byte) (a5 : Option NodeEntry) :
    State.except m (State.admitNode a0 a1 a2 a3 a4 a5) = State.except m a0 := by
  refine except_mono h ?_
  unfold State.admitNode
  (try simp only [State.count_same, State.setPlm_same, State.askEntry_same, State.nodeDownlink_same,
      State.seekGrant_same, State.log_same, State.partner_same, apply_ite (State.except 33554689), apply_ite Prod.snd,
      apply_ite Prod.fst, ite_self, Nat.reduceAnd, foldl_same, foldl_same2, foldl_same1])
  repeat' split
  all_goals (try simp only [State.count_same, State.setPlm_same, State.askEntry_same, State.nodeDownlink_same,
      State.seekGrant_same, State.log_same, State.partner_same, apply_ite (State.except 33554689), apply_ite Prod.snd,
      apply_ite Prod.fst, ite_self, Nat.reduceAnd, foldl_same, foldl_same2, foldl_same1])

theorem State.ackNode_same (m : Nat) (h : 33554432 &&& m = 33554432) (a0 : State) (a1 : NodeEntry) (a2 : ℕ) :
    State.except m (State.ackNode a0 a1 a2) = State.except m a0 := by
  refine except_mono h ?_
  unfold State.ackNode
  simp only [State.nodeDownlink_same, apply_ite (State.except 33554432), apply_ite Prod.snd, apply_ite Prod.fst,
      ite_self, Nat.reduceAnd, foldl_same, foldl_same2, foldl_same1]

theorem State.homeUplink_same (m : Nat) (h : 34393293057 &&& m = 34393293057) (a0 : State) (a1 : NodeEntry) (a2 :
    PulseIn) (a3 : ℕ) (a4 : List Byte) :
    State.except m (State.homeUplink a0 a1 a2 a3 a4) = State.except m a0 := by
  refine except_mono h ?_
  unfold State.homeUplink
  (try simp only [State.noteUplink_same, State.logAlarm_same, State.count_same, State.setPlm_same,
      State.deliverUplink_same, State.sendRelay_same, State.ackNode_same, State.seekGrant_same, apply_ite
      (State.except 34393293057), apply_ite Prod.snd, apply_ite Prod.fst, ite_self, Nat.reduceAnd, foldl_same,
      foldl_same2, foldl_same1])
  repeat' split
  all_goals (try simp [State.noteUplink_same, State.logAlarm_same, State.count_same, State.setPlm_same,
      State.deliverUplink_same, State.sendRelay_same, State.ackNode_same, State.seekGrant_same, apply_ite
      (State.except 34393293057), apply_ite Prod.snd, apply_ite Prod.fst, ite_self, Nat.reduceAnd, foldl_same,
      foldl_same2, foldl_same1])

theorem State.repeatUplink_same (m : Nat) (h : 33554432 &&& m = 33554432) (a0 : State) (a1 : RepGrant) (a2 : PulseIn)
    :
    State.except m (State.repeatUplink a0 a1 a2) = State.except m a0 := by
  refine except_mono h ?_
  unfold State.repeatUplink
  (try simp only [State.sendRelay_same, State.setPlm_same, apply_ite (State.except 33554432), apply_ite Prod.snd,
      apply_ite Prod.fst, ite_self, Nat.reduceAnd, foldl_same, foldl_same2, foldl_same1])
  repeat' split
  all_goals (try simp [State.sendRelay_same, State.setPlm_same, apply_ite (State.except 33554432), apply_ite Prod.snd,
      apply_ite Prod.fst, ite_self, Nat.reduceAnd, foldl_same, foldl_same2, foldl_same1])

theorem State.relayDown_same (m : Nat) (h : 33554432 &&& m = 33554432) (a0 : State) (a1 : RelayIn) :
    State.except m (State.relayDown a0 a1) = State.except m a0 := by
  refine except_mono h ?_
  unfold State.relayDown
  (try simp only [State.addDown_same, apply_ite (State.except 33554432), apply_ite Prod.snd, apply_ite Prod.fst,
      ite_self, Nat.reduceAnd, foldl_same, foldl_same2, foldl_same1])
  repeat' split
  all_goals (try simp only [State.addDown_same, apply_ite (State.except 33554432), apply_ite Prod.snd, apply_ite
      Prod.fst, ite_self, Nat.reduceAnd, foldl_same, foldl_same2, foldl_same1])

theorem State.dropProbe_same (m : Nat) (h : 50331649 &&& m = 50331649) (a0 : State) (a1 : Probe) :
    State.except m (State.dropProbe a0 a1) = State.except m a0 := by
  refine except_mono h ?_
  unfold State.dropProbe
  simp only [State.dropEntry_same, State.setPlm_same, apply_ite (State.except 50331649), apply_ite Prod.snd, apply_ite
      Prod.fst, ite_self, Nat.reduceAnd, foldl_same, foldl_same2, foldl_same1]

theorem State.probeFrame_same (m : Nat) (h : 33554432 &&& m = 33554432) (a0 : State) (a1 : PulseIn) :
    State.except m (State.probeFrame a0 a1) = State.except m a0 := by
  refine except_mono h ?_
  unfold State.probeFrame
  (try simp only [State.setPlm_same, State.sendMgmt_same, apply_ite (State.except 33554432), apply_ite Prod.snd,
      apply_ite Prod.fst, ite_self, Nat.reduceAnd, foldl_same, foldl_same2, foldl_same1])
  repeat' split
  all_goals (try simp only [State.setPlm_same, State.sendMgmt_same, apply_ite (State.except 33554432), apply_ite
      Prod.snd, apply_ite Prod.fst, ite_self, Nat.reduceAnd, foldl_same, foldl_same2, foldl_same1])

theorem State.dropGrant_same (m : Nat) (h : 50331905 &&& m = 50331905) (a0 : State) (a1 : RepGrant) :
    State.except m (State.dropGrant a0 a1) = State.except m a0 := by
  refine except_mono h ?_
  unfold State.dropGrant
  simp only [State.tellGrant_same, State.dropEntry_same, State.setPlm_same, apply_ite (State.except 50331905),
      apply_ite Prod.snd, apply_ite Prod.fst, ite_self, Nat.reduceAnd, foldl_same, foldl_same2, foldl_same1]

theorem State.nodeFrame_same (m : Nat) (h : 33554432 &&& m = 33554432) (a0 : State) (a1 : PulseIn) :
    State.except m (State.nodeFrame a0 a1) = State.except m a0 := by
  refine except_mono h ?_
  unfold State.nodeFrame
  simp only [State.probeFrame_same, State.setPlm_same, apply_ite (State.except 33554432), apply_ite Prod.snd,
      apply_ite Prod.fst, ite_self, Nat.reduceAnd, foldl_same, foldl_same2, foldl_same1]

theorem State.noteLost_same (m : Nat) (h : 33554432 &&& m = 33554432) (a0 : State) (a1 : List ℕ) :
    State.except m (State.noteLost a0 a1) = State.except m a0 := by
  refine except_mono h ?_
  unfold State.noteLost
  (try simp only [State.seekGrant_same, State.setNode_same, apply_ite (State.except 33554432), apply_ite Prod.snd,
      apply_ite Prod.fst, ite_self, Nat.reduceAnd, foldl_same, foldl_same2, foldl_same1])
  repeat' split
  all_goals (try simp [State.seekGrant_same, State.setNode_same, apply_ite (State.except 33554432), apply_ite
      Prod.snd, apply_ite Prod.fst, ite_self, Nat.reduceAnd, foldl_same, foldl_same2, foldl_same1])

theorem State.missSlot_same (m : Nat) (h : 16777217 &&& m = 16777217) (a0 : State) (a1 : ℕ) :
    State.except m (State.missSlot a0 a1).2 = State.except m a0 := by
  refine except_mono h ?_
  unfold State.missSlot
  simp only [State.raise_same, State.count_same, State.setStream_same, State.endDownlink_same, apply_ite (State.except
      16777217), apply_ite Prod.snd, apply_ite Prod.fst, ite_self, Nat.reduceAnd, foldl_same, foldl_same2,
      foldl_same1]

theorem State.pulse_same (m : Nat) (h : 16778240 &&& m = 16778240) (a0 : State) (a1 : ℕ) (a2 : ℕ) :
    State.except m (State.pulse a0 a1 a2) = State.except m a0 := by
  refine except_mono h ?_
  unfold State.pulse
  simp only [State.send_same, State.setPlp_same, apply_ite (State.except 16778240), apply_ite Prod.snd, apply_ite
      Prod.fst, ite_self, Nat.reduceAnd, foldl_same, foldl_same2, foldl_same1]

theorem State.sendSlot_same (m : Nat) (h : 16778241 &&& m = 16778241) (a0 : State) (a1 : ℕ) (a2 : ℕ) (a3 : List ℕ × ℕ)
    :
    State.except m (State.sendSlot a0 a1 a2 a3).2 = State.except m a0 := by
  refine except_mono h ?_
  unfold State.sendSlot
  (try simp only [State.pulse_same, State.raise_same, State.count_same, State.setStream_same, State.endDownlink_same,
      apply_ite (State.except 16778241), apply_ite Prod.snd, apply_ite Prod.fst, ite_self, Nat.reduceAnd, foldl_same,
      foldl_same2, foldl_same1])
  repeat' split
  all_goals (try simp only [State.pulse_same, State.raise_same, State.count_same, State.setStream_same,
      State.endDownlink_same, apply_ite (State.except 16778241), apply_ite Prod.snd, apply_ite Prod.fst, ite_self,
      Nat.reduceAnd, foldl_same, foldl_same2, foldl_same1])

theorem State.takeSlot_same (m : Nat) (h : 16777217 &&& m = 16777217) (a0 : State) (a1 : ℕ) (a2 : ℕ) (a3 : ℕ) (a4 : ℕ)
    :
    State.except m (State.takeSlot a0 a1 a2 a3 a4).2 = State.except m a0 := by
  refine except_mono h ?_
  unfold State.takeSlot
  (try simp only [State.setStream_same, State.count_same, State.raise_same, apply_ite (State.except 16777217),
      apply_ite Prod.snd, apply_ite Prod.fst, ite_self, Nat.reduceAnd, foldl_same, foldl_same2, foldl_same1])
  repeat' split
  all_goals (try simp only [State.setStream_same, State.count_same, State.raise_same, apply_ite (State.except
      16777217), apply_ite Prod.snd, apply_ite Prod.fst, ite_self, Nat.reduceAnd, foldl_same, foldl_same2,
      foldl_same1])

theorem State.decideSlot_same (m : Nat) (h : 16778241 &&& m = 16778241) (a0 : State) (a1 : ℕ) (a2 : List ℕ) :
    State.except m (State.decideSlot a0 a1 a2).2.2 = State.except m a0 := by
  refine except_mono h ?_
  have fold : ∀ (g : List PulseIn × List DownDone × State → Nat → List PulseIn × List DownDone × State)
      (hg : ∀ x k, (g x k).2.2.except 16778241 = x.2.2.except 16778241) (l : List Nat) (x : List PulseIn × List
          DownDone × State),
      (l.foldl g x).2.2.except 16778241 = x.2.2.except 16778241 := by
    intro g hg l
    induction l with
    | nil => intro x; rfl
    | cons a l ih => intro x; rw [List.foldl_cons, ih, hg]
  unfold State.decideSlot
  dsimp only
  repeat' split
  · rfl
  · exact fold _ (fun x k => by simp only [State.missSlot_same, State.sendSlot_same, State.wr_same,
      State.takeSlot_same, apply_ite (State.except 16778241), apply_ite Prod.snd, apply_ite Prod.fst, ite_self,
      Nat.reduceAnd, foldl_same, foldl_same2, foldl_same1]) _ _
  · refine fold _ (fun x k => ?_) _ _
    dsimp only
    split <;> simp only [State.missSlot_same, State.sendSlot_same, State.wr_same, State.takeSlot_same, apply_ite
        (State.except 16778241), apply_ite Prod.snd, apply_ite Prod.fst, ite_self, Nat.reduceAnd, foldl_same,
        foldl_same2, foldl_same1]
  · refine (fold _ (fun x k => ?_) _ _).trans ?_
    · simp only [State.missSlot_same, State.sendSlot_same, State.wr_same, State.takeSlot_same, apply_ite (State.except
        16778241), apply_ite Prod.snd, apply_ite Prod.fst, ite_self, Nat.reduceAnd, foldl_same, foldl_same2,
        foldl_same1]
    · simp only [State.missSlot_same, State.sendSlot_same, State.wr_same, State.takeSlot_same, apply_ite (State.except
        16778241), apply_ite Prod.snd, apply_ite Prod.fst, ite_self, Nat.reduceAnd, foldl_same, foldl_same2,
        foldl_same1]
  · refine (fold _ (fun x k => ?_) _ _).trans ?_
    · simp only [State.missSlot_same, State.sendSlot_same, State.wr_same, State.takeSlot_same, apply_ite (State.except
        16778241), apply_ite Prod.snd, apply_ite Prod.fst, ite_self, Nat.reduceAnd, foldl_same, foldl_same2,
        foldl_same1]
    · simp only [State.missSlot_same, State.sendSlot_same, State.wr_same, State.takeSlot_same, apply_ite (State.except
        16778241), apply_ite Prod.snd, apply_ite Prod.fst, ite_self, Nat.reduceAnd, foldl_same, foldl_same2,
        foldl_same1]


theorem State.pmuMeasure_same (m : Nat) (h : 1 &&& m = 1) (a0 : State) (a1 : ℕ) (a2 : ℕ) :
    State.except m (State.pmuMeasure a0 a1 a2) = State.except m a0 := by
  refine except_mono h ?_
  unfold State.pmuMeasure
  simp only [State.wr_same, apply_ite (State.except 1), apply_ite Prod.snd, apply_ite Prod.fst, ite_self,
      Nat.reduceAnd, foldl_same, foldl_same2, foldl_same1]

theorem State.thaw_same (m : Nat) (h : 65536 &&& m = 65536) (a0 : State) :
    State.except m (State.thaw a0) = State.except m a0 := by
  refine except_mono h ?_
  unfold State.thaw
  simp only [except_upd_acc, apply_ite (State.except 65536), apply_ite Prod.snd, apply_ite Prod.fst, ite_self,
      Nat.reduceAnd, foldl_same, foldl_same2, foldl_same1]

theorem State.startDue_same (m : Nat) (h : 10737418241 &&& m = 10737418241) (a0 : State) (a1 : ℕ) (a2 : ℕ) :
    State.except m (State.startDue a0 a1 a2) = State.except m a0 := by
  refine except_mono h ?_
  unfold State.startDue
  simp only [State.setPst_same, State.wr_same, except_upd_start, apply_ite (State.except 10737418241), apply_ite
      Prod.snd, apply_ite Prod.fst, ite_self, Nat.reduceAnd, foldl_same, foldl_same2, foldl_same1]

theorem State.leaveKiln_same (m : Nat) (h : 10737418497 &&& m = 10737418497) (a0 : State) (a1 : ℕ) :
    State.except m (State.leaveKiln a0 a1) = State.except m a0 := by
  refine except_mono h ?_
  unfold State.leaveKiln
  simp only [State.log_same, State.startDue_same, apply_ite (State.except 10737418497), apply_ite Prod.snd, apply_ite
      Prod.fst, ite_self, Nat.reduceAnd, foldl_same, foldl_same2, foldl_same1]

theorem State.vinBack_same (m : Nat) (h : 10737484033 &&& m = 10737484033) (a0 : State) :
    State.except m (State.vinBack a0) = State.except m a0 := by
  refine except_mono h ?_
  unfold State.vinBack
  simp only [State.leaveKiln_same, State.startDue_same, State.setPst_same, State.wr_same, State.thaw_same,
      State.setPmu_same, State.chgFollow_same, apply_ite (State.except 10737484033), apply_ite Prod.snd, apply_ite
      Prod.fst, ite_self, Nat.reduceAnd, foldl_same, foldl_same2, foldl_same1]

theorem State.devFlush_same (m : Nat) (h : 4194305 &&& m = 4194305) (a0 : State) :
    State.except m (State.devFlush a0) = State.except m a0 := by
  refine except_mono h ?_
  unfold State.devFlush
  (try simp only [State.celWriteRun_same, State.setCel_same, apply_ite (State.except 4194305), apply_ite Prod.snd,
      apply_ite Prod.fst, ite_self, Nat.reduceAnd, foldl_same, foldl_same2, foldl_same1])
  repeat' split
  all_goals (try simp [State.celWriteRun_same, State.setCel_same, apply_ite (State.except 4194305), apply_ite
      Prod.snd, apply_ite Prod.fst, ite_self, Nat.reduceAnd, foldl_same, foldl_same2, foldl_same1])

theorem State.blockRelease_same (m : Nat) (h : 138412289 &&& m = 138412289) (a0 : State) :
    State.except m (State.blockRelease a0) = State.except m a0 := by
  refine except_mono h ?_
  unfold State.blockRelease
  simp only [State.raise_same, State.wr_same, State.clgLifted_same, State.devFlush_same, apply_ite (State.except
      138412289), apply_ite Prod.snd, apply_ite Prod.fst, ite_self, Nat.reduceAnd, foldl_same, foldl_same2,
      foldl_same1]

theorem State.powerOn_same (m : Nat) (h : 68719472959 &&& m = 68719472959) (a0 : State) :
    State.except m (State.powerOn a0) = State.except m a0 := by
  refine except_mono h ?_
  have u : ∀ (t : State) {a b c d e}, State.except 68719472959 { t with ctf := a, clg := b, pmu := c, start := d, cel
      := e }
      = State.except 68719472959 t := fun t _ _ _ _ _ => except_mono (q := 10875834368) rfl rfl
  unfold State.powerOn
  refine (State.wr_same 68719472959 rfl _ _ _).trans ((u _).trans ?_)
  refine (State.clearRegs_same 68719472959 rfl _ _ _).trans ((State.clearRegs_same 68719472959 rfl _ _ _).trans ?_)
  exact (foldl_same _ _ (fun t f => State.wr_same _ rfl _ _ _) _ _).trans (State.dark_same 68719472959 rfl a0)

theorem State.railsRise_same (m : Nat) (h : 45139108097 &&& m = 45139108097) (a0 : State) (a1 : ℕ) (a2 : ℕ) :
    State.except m (State.railsRise a0 a1 a2) = State.except m a0 := by
  refine except_mono h ?_
  unfold State.railsRise
  repeat' (first | rfl | simp only [State.clearRegs_same, State.wr_same, State.pmuMeasure_same, State.auxFollow_same,
      State.packShow_same, State.setPst_same, except_upd_pmu_start, apply_ite (State.except 45139108097), apply_ite
      Prod.snd, apply_ite Prod.fst, ite_self, Nat.reduceAnd, foldl_same, foldl_same2, foldl_same1] | split)

theorem State.cutWarn_same (m : Nat) (h : 59928159521 &&& m = 59928159521) (a0 : State) :
    State.except m (State.cutWarn a0) = State.except m a0 := by
  refine except_mono h ?_
  unfold State.cutWarn
  simp only [State.raise_same, State.cutNotice_same, State.setPst_same, State.settleLoss_same, State.setPmu_same,
      except_upd_acc, apply_ite (State.except 59928159521), apply_ite Prod.snd, apply_ite Prod.fst, ite_self,
      Nat.reduceAnd, foldl_same, foldl_same2, foldl_same1]

theorem State.busEvent_same (m : Nat) (h : 131329 &&& m = 131329) (a0 : State) (a1 : ℕ) (a2 : ℕ) (a3 : ℕ × ℕ) (a4 :
    Bool) (a5 : Bool) :
    State.except m (State.busEvent a0 a1 a2 a3 a4 a5) = State.except m a0 := by
  refine except_mono h ?_
  unfold State.busEvent
  (try simp only [State.openEvent_same, State.setEvent_same, State.closeEvent_same, apply_ite (State.except 131329),
      apply_ite Prod.snd, apply_ite Prod.fst, ite_self, Nat.reduceAnd, foldl_same, foldl_same2, foldl_same1])
  repeat' split
  all_goals (try simp only [State.openEvent_same, State.setEvent_same, State.closeEvent_same, apply_ite (State.except
      131329), apply_ite Prod.snd, apply_ite Prod.fst, ite_self, Nat.reduceAnd, foldl_same, foldl_same2, foldl_same1])

theorem State.busEvents_same (m : Nat) (h : 131329 &&& m = 131329) (a0 : State) (a1 : ℕ) :
    State.except m (State.busEvents a0 a1) = State.except m a0 := by
  refine except_mono h ?_
  unfold State.busEvents
  (try simp only [State.busEvent_same, apply_ite (State.except 131329), apply_ite Prod.snd, apply_ite Prod.fst,
      ite_self, Nat.reduceAnd, foldl_same, foldl_same2, foldl_same1])
  repeat' split
  all_goals (try simp only [State.busEvent_same, apply_ite (State.except 131329), apply_ite Prod.snd, apply_ite
      Prod.fst, ite_self, Nat.reduceAnd, foldl_same, foldl_same2, foldl_same1])

theorem State.openSense_same (m : Nat) (h : 131329 &&& m = 131329) (a0 : State) (a1 : ℕ) :
    State.except m (State.openSense a0 a1) = State.except m a0 := by
  refine except_mono h ?_
  unfold State.openSense
  simp only [State.openEvent_same, State.setPqe_same, State.setVerdict_same, apply_ite (State.except 131329),
      apply_ite Prod.snd, apply_ite Prod.fst, ite_self, Nat.reduceAnd, foldl_same, foldl_same2, foldl_same1]

theorem State.senseWindow_same (m : Nat) (h : 131329 &&& m = 131329) (a0 : State) (a1 : Bool) (a2 : ℕ) :
    State.except m (State.senseWindow a0 a1 a2) = State.except m a0 := by
  refine except_mono h ?_
  unfold State.senseWindow
  (try simp only [State.openSense_same, State.setEvent_same, State.setPqe_same, State.closeSense_same, apply_ite
      (State.except 131329), apply_ite Prod.snd, apply_ite Prod.fst, ite_self, Nat.reduceAnd, foldl_same, foldl_same2,
      foldl_same1])
  repeat' split
  all_goals (try simp only [State.openSense_same, State.setEvent_same, State.setPqe_same, State.closeSense_same,
      apply_ite (State.except 131329), apply_ite Prod.snd, apply_ite Prod.fst, ite_self, Nat.reduceAnd, foldl_same,
      foldl_same2, foldl_same1])

theorem State.atPhase_same (m : Nat) (h : 4160 &&& m = 4160) (a0 : State) (a1 : ℕ) (a2 : State → State) (hh : ∀ s, (a2
    s).except m = s.except m) :
    State.except m (State.atPhase a0 a1 a2) = State.except m a0 := by
  have k0 : 4096 &&& m = 4096 := sub_mask h rfl
  have k1 : 4160 &&& m = 4160 := sub_mask h rfl
  unfold State.atPhase
  simp only [except_upd_ctf, except_upd_ticks_ctf, apply_ite (State.except m), apply_ite Prod.snd, apply_ite Prod.fst,
      ite_self, Nat.reduceAnd, foldl_same, foldl_same2, foldl_same1, k0, k1, hh]

theorem State.classifyDue_same (m : Nat) (h : 131329 &&& m = 131329) (a0 : State) (a1 : ℕ) :
    State.except m (State.classifyDue a0 a1) = State.except m a0 := by
  refine except_mono h ?_
  unfold State.classifyDue
  (try simp only [State.setPqe_same, State.setVerdict_same, State.busEvents_same, apply_ite (State.except 131329),
      apply_ite Prod.snd, apply_ite Prod.fst, ite_self, Nat.reduceAnd, foldl_same, foldl_same2, foldl_same1])
  repeat' split
  all_goals (try simp only [State.setPqe_same, State.setVerdict_same, State.busEvents_same, apply_ite (State.except
      131329), apply_ite Prod.snd, apply_ite Prod.fst, ite_self, Nat.reduceAnd, foldl_same, foldl_same2, foldl_same1])

theorem State.ratioOf_same (m : Nat) (h : 2048 &&& m = 2048) (a0 : State) (a1 : ℕ) (a2 : ℕ) (a3 : ℕ) (a4 : ℕ) :
    State.except m (State.ratioOf a0 a1 a2 a3 a4).2 = State.except m a0 := by
  refine except_mono h ?_
  unfold State.ratioOf
  simp only [State.draw_same, apply_ite (State.except 2048), apply_ite Prod.snd, apply_ite Prod.fst, ite_self,
      Nat.reduceAnd, foldl_same, foldl_same2, foldl_same1]

theorem State.blockResult_same (m : Nat) (h : 2048 &&& m = 2048) (a0 : State) (a1 : PqeBlock) (a2 : ℕ) :
    State.except m (State.blockResult a0 a1 a2).2 = State.except m a0 := by
  refine except_mono h ?_
  unfold State.blockResult
  (try simp only [State.ratioOf_same, apply_ite (State.except 2048), apply_ite Prod.snd, apply_ite Prod.fst, ite_self,
      Nat.reduceAnd, foldl_same, foldl_same2, foldl_same1])
  repeat' split
  all_goals (try simp [State.ratioOf_same, apply_ite (State.except 2048), apply_ite Prod.snd, apply_ite Prod.fst,
      ite_self, Nat.reduceAnd, foldl_same, foldl_same2, foldl_same1])

theorem State.unbalance_same (m : Nat) (h : 133377 &&& m = 133377) (a0 : State) (a1 : PqeBlock) (a2 : ℕ) :
    State.except m (State.unbalance a0 a1 a2) = State.except m a0 := by
  refine except_mono h ?_
  unfold State.unbalance
  (try simp only [State.draw_same, State.wr_same, State.openEvent_same, State.closeEvent_same, State.setEvent_same,
      apply_ite (State.except 133377), apply_ite Prod.snd, apply_ite Prod.fst, ite_self, Nat.reduceAnd, foldl_same,
      foldl_same2, foldl_same1])
  repeat' split
  all_goals (try simp only [State.draw_same, State.wr_same, State.openEvent_same, State.closeEvent_same,
      State.setEvent_same, apply_ite (State.except 133377), apply_ite Prod.snd, apply_ite Prod.fst, ite_self,
      Nat.reduceAnd, foldl_same, foldl_same2, foldl_same1])

theorem State.pqeLost_same (m : Nat) (h : 131329 &&& m = 131329) (a0 : State) (a1 : ℕ) :
    State.except m (State.pqeLost a0 a1) = State.except m a0 := by
  refine except_mono h ?_
  unfold State.pqeLost
  simp only [State.setVerdict_same, State.openEvent_same, apply_ite (State.except 131329), apply_ite Prod.snd,
      apply_ite Prod.fst, ite_self, Nat.reduceAnd, foldl_same, foldl_same2, foldl_same1]

theorem State.setCtVerdict_same (m : Nat) (h : 131329 &&& m = 131329) (a0 : State) (a1 : ℕ) (a2 : ℕ) (a3 : ℕ) :
    State.except m (State.setCtVerdict a0 a1 a2 a3) = State.except m a0 := by
  refine except_mono h ?_
  unfold State.setCtVerdict
  (try simp only [State.raise_same, State.wr_same, State.openEvent_same, State.setEvent_same, State.closeEvent_same,
      apply_ite (State.except 131329), apply_ite Prod.snd, apply_ite Prod.fst, ite_self, Nat.reduceAnd, foldl_same,
      foldl_same2, foldl_same1])
  repeat' split
  all_goals (try simp only [State.raise_same, State.wr_same, State.openEvent_same, State.setEvent_same,
      State.closeEvent_same, apply_ite (State.except 131329), apply_ite Prod.snd, apply_ite Prod.fst, ite_self,
      Nat.reduceAnd, foldl_same, foldl_same2, foldl_same1])

theorem State.ctResult_same (m : Nat) (h : 131329 &&& m = 131329) (a0 : State) (a1 : ℕ) :
    State.except m (State.ctResult a0 a1) = State.except m a0 := by
  refine except_mono h ?_
  unfold State.ctResult
  simp only [State.setPqe_same, State.setCtVerdict_same, apply_ite (State.except 131329), apply_ite Prod.snd,
      apply_ite Prod.fst, ite_self, Nat.reduceAnd, foldl_same, foldl_same2, foldl_same1]

theorem State.clearBad_same (m : Nat) (h : 1 &&& m = 1) (a0 : State) :
    State.except m (State.clearBad a0) = State.except m a0 := by
  refine except_mono h ?_
  unfold State.clearBad
  repeat' (first | rfl | simp only [State.setWide_same, State.wr_same, apply_ite (State.except 1), apply_ite Prod.snd,
      apply_ite Prod.fst, ite_self, Nat.reduceAnd, foldl_same, foldl_same2, foldl_same1] | split)

theorem State.sealRestore_same (m : Nat) (h : 4202785 &&& m = 4202785) (a0 : State) :
    State.except m (State.sealRestore a0) = State.except m a0 := by
  refine except_mono h ?_
  unfold State.sealRestore
  (try simp only [State.checkedCopy_same, State.putConfig_same, State.showSealed_same, State.setSealed_same,
      State.setHeld_same, State.setTnc_same, State.log_same, State.wr_same, apply_ite (State.except 4202785),
      apply_ite Prod.snd, apply_ite Prod.fst, ite_self, Nat.reduceAnd, foldl_same, foldl_same2, foldl_same1])
  repeat' split
  all_goals (try simp [State.checkedCopy_same, State.putConfig_same, State.showSealed_same, State.setSealed_same,
      State.setHeld_same, State.setTnc_same, State.log_same, State.wr_same, apply_ite (State.except 4202785),
      apply_ite Prod.snd, apply_ite Prod.fst, ite_self, Nat.reduceAnd, foldl_same, foldl_same2, foldl_same1])

theorem State.commitPut_same (m : Nat) (h : 272630017 &&& m = 272630017) (a0 : State) (a1 : KeyPut) :
    State.except m (State.commitPut a0 a1) = State.except m a0 := by
  refine except_mono h ?_
  unfold State.commitPut
  simp only [State.wr_same, State.setSec_same, State.log_same, State.slotShow_same, State.persist_same, apply_ite
      (State.except 272630017), apply_ite Prod.snd, apply_ite Prod.fst, ite_self, Nat.reduceAnd, foldl_same,
      foldl_same2, foldl_same1]

theorem State.secRelease_same (m : Nat) (h : 34628173824 &&& m = 34628173824) (a0 : ℕ) (a1 : ℕ) (a2 : State) :
    State.except m (State.secRelease a0 a1 a2) = State.except m a2 := by
  refine except_mono h ?_
  induction a1 generalizing a2 with
  | zero => rfl
  | succ n ih =>
    unfold State.secRelease
    (repeat' split) <;> simp only [ih, State.cmdPut_same, State.setSec_same, apply_ite (State.except 34628173824),
        apply_ite Prod.snd, apply_ite Prod.fst, ite_self, Nat.reduceAnd, foldl_same, foldl_same2, foldl_same1]

theorem State.unitShow_same (m : Nat) (h : 1 &&& m = 1) (a0 : State) :
    State.except m (State.unitShow a0) = State.except m a0 := by
  refine except_mono h ?_
  unfold State.unitShow
  simp only [State.wr_same, apply_ite (State.except 1), apply_ite Prod.snd, apply_ite Prod.fst, ite_self,
      Nat.reduceAnd, foldl_same, foldl_same2, foldl_same1]

theorem State.secTake_same (m : Nat) (h : 34628182017 &&& m = 34628182017) (a0 : State) (a1 : ℕ) :
    State.except m (State.secTake a0 a1) = State.except m a0 := by
  refine except_mono h ?_
  unfold State.secTake
  try dsimp only
  repeat' split
  all_goals first
    | (simp only [State.secRefuse_same, State.admit_same, State.setSec_same, State.cmdTaken_same, apply_ite
        (State.except 34628182017), apply_ite Prod.snd, apply_ite Prod.fst, ite_self, Nat.reduceAnd, foldl_same,
        foldl_same2, foldl_same1]; done)
    | (try simp only [State.secRefuse_same, State.admit_same, State.setSec_same, State.cmdTaken_same, apply_ite
        (State.except 34628182017), apply_ite Prod.snd, apply_ite Prod.fst, ite_self, Nat.reduceAnd, foldl_same,
        foldl_same2, foldl_same1]
       exact State.admit_same 34628182017 rfl _ _ _ _ _ (by assumption))

theorem State.secTakes_same (m : Nat) (h : 34628182017 &&& m = 34628182017) (a0 : ℕ) (a1 : ℕ) (a2 : State) :
    State.except m (State.secTakes a0 a1 a2) = State.except m a2 := by
  refine except_mono h ?_
  induction a1 generalizing a2 with
  | zero => rfl
  | succ n ih =>
    unfold State.secTakes
    (repeat' split) <;> simp only [ih, State.secTake_same, Nat.reduceAnd]

theorem State.secDrop_same (m : Nat) (h : 268435456 &&& m = 268435456) (a0 : State) (a1 : RingItem) :
    State.except m (State.secDrop a0 a1) = State.except m a0 := by
  refine except_mono h ?_
  unfold State.secDrop
  simp only [State.setSec_same, apply_ite (State.except 268435456), apply_ite Prod.snd, apply_ite Prod.fst, ite_self,
      Nat.reduceAnd, foldl_same, foldl_same2, foldl_same1]

theorem State.secStart_same (m : Nat) (h : 34628182017 &&& m = 34628182017) (a0 : State) (a1 : ℕ) (a2 : State → ℕ →
    List Byte → List Byte × Bool × Option KeyPut × State) (hh : ∀ s i l, (a2 s i l).2.2.2.except m = s.except m) :
    State.except m (State.secStart a0 a1 a2) = State.except m a0 := by
  have k0 : 1 &&& m = 1 := sub_mask h rfl
  have k1 : 8193 &&& m = 8193 := sub_mask h rfl
  have k2 : 268435456 &&& m = 268435456 := sub_mask h rfl
  have k3 : 34628182017 &&& m = 34628182017 := sub_mask h rfl
  unfold State.secStart
  (try simp only [State.serveTurn_same, State.secDrop_same, State.secRefuse_same, State.unitShow_same,
      State.setSec_same, State.slotShow_same, apply_ite (State.except m), apply_ite Prod.snd, apply_ite Prod.fst,
      ite_self, Nat.reduceAnd, foldl_same, foldl_same2, foldl_same1, k0, k1, k2, k3, hh])
  repeat' split
  all_goals (try simp only [State.serveTurn_same, State.secDrop_same, State.secRefuse_same, State.unitShow_same,
      State.setSec_same, State.slotShow_same, apply_ite (State.except m), apply_ite Prod.snd, apply_ite Prod.fst,
      ite_self, Nat.reduceAnd, foldl_same, foldl_same2, foldl_same1, k0, k1, k2, k3, hh])

theorem State.secFinish_same (m : Nat) (h : 34632376577 &&& m = 34632376577) (a0 : State) (a1 : SecOp) (a2 : Status) :
    State.except m (State.secFinish a0 a1 a2) = State.except m a0 := by
  refine except_mono h ?_
  unfold State.secFinish
  (try simp only [State.unitShow_same, State.setSec_same, State.count_same, State.store_same, State.slotShow_same,
      State.commitPut_same, State.settleErases_same, State.secRecord_same, apply_ite (State.except 34632376577),
      apply_ite Prod.snd, apply_ite Prod.fst, ite_self, Nat.reduceAnd, foldl_same, foldl_same2, foldl_same1])
  repeat' split
  all_goals (try simp only [State.unitShow_same, State.setSec_same, State.count_same, State.store_same,
      State.slotShow_same, State.commitPut_same, State.settleErases_same, State.secRecord_same, apply_ite
      (State.except 34632376577), apply_ite Prod.snd, apply_ite Prod.fst, ite_self, Nat.reduceAnd, foldl_same,
      foldl_same2, foldl_same1])

theorem State.loadIdentity_same (m : Nat) (h : 268435713 &&& m = 268435713) (a0 : State) (a1 : Bool) :
    State.except m (State.loadIdentity a0 a1) = State.except m a0 := by
  refine except_mono h ?_
  unfold State.loadIdentity
  (try simp only [State.log_same, State.wr_same, State.setSec_same, State.slotShow_same, apply_ite (State.except
      268435713), apply_ite Prod.snd, apply_ite Prod.fst, ite_self, Nat.reduceAnd, foldl_same, foldl_same2,
      foldl_same1])
  repeat' split
  all_goals (try simp [State.log_same, State.wr_same, State.setSec_same, State.slotShow_same, apply_ite (State.except
      268435713), apply_ite Prod.snd, apply_ite Prod.fst, ite_self, Nat.reduceAnd, foldl_same, foldl_same2,
      foldl_same1])

theorem State.restoreSlot_same (m : Nat) (h : 268435713 &&& m = 268435713) (a0 : State) (a1 : ℕ) (a2 : Option (ℕ × ℕ ×
    List Byte)) (a3 : Bool) :
    State.except m (State.restoreSlot a0 a1 a2 a3) = State.except m a0 := by
  refine except_mono h ?_
  unfold State.restoreSlot
  (try simp only [State.slotShow_same, State.setSec_same, State.setReg_same, State.log_same, apply_ite (State.except
      268435713), apply_ite Prod.snd, apply_ite Prod.fst, ite_self, Nat.reduceAnd, foldl_same, foldl_same2,
      foldl_same1])
  repeat' split
  all_goals (try simp only [State.slotShow_same, State.setSec_same, State.setReg_same, State.log_same, apply_ite
      (State.except 268435713), apply_ite Prod.snd, apply_ite Prod.fst, ite_self, Nat.reduceAnd, foldl_same,
      foldl_same2, foldl_same1])

theorem State.restoreSlots_same (m : Nat) (h : 272630017 &&& m = 272630017) (a0 : State) :
    State.except m (State.restoreSlots a0) = State.except m a0 := by
  refine except_mono h ?_
  unfold State.restoreSlots
  (try simp only [State.readKeyRecord_same, State.restoreSlot_same, apply_ite (State.except 272630017), apply_ite
      Prod.snd, apply_ite Prod.fst, ite_self, Nat.reduceAnd, foldl_same, foldl_same2, foldl_same1])
  repeat' split
  all_goals (try simp [State.readKeyRecord_same, State.restoreSlot_same, apply_ite (State.except 272630017), apply_ite
      Prod.snd, apply_ite Prod.fst, ite_self, Nat.reduceAnd, foldl_same, foldl_same2, foldl_same1])

theorem State.startLevel_same (m : Nat) (h : 4294975745 &&& m = 4294975745) (a0 : State) (a1 : ℕ) :
    State.except m (State.startLevel a0 a1) = State.except m a0 := by
  refine except_mono h ?_
  unfold State.startLevel
  simp only [State.setMon_same, State.tellLevel_same, State.wr_same, apply_ite (State.except 4294975745), apply_ite
      Prod.snd, apply_ite Prod.fst, ite_self, Nat.reduceAnd, foldl_same, foldl_same2, foldl_same1]

theorem State.startStores_same (m : Nat) (h : 138422561 &&& m = 138422561) (a0 : State) :
    State.except m (State.startStores a0) = State.except m a0 := by
  refine except_mono h ?_
  unfold State.startStores
  simp only [State.findHead_same, State.celStart_same, State.logLost_same, State.sealRestore_same,
      State.resignBlocks_same, apply_ite (State.except 138422561), apply_ite Prod.snd, apply_ite Prod.fst, ite_self,
      Nat.reduceAnd, foldl_same, foldl_same2, foldl_same1]

theorem State.sendUp_same (m : Nat) (h : 1024 &&& m = 1024) (a0 : State) (a1 : ℕ) (a2 : List Byte) :
    State.except m (State.sendUp a0 a1 a2) = State.except m a0 := by
  refine except_mono h ?_
  unfold State.sendUp
  simp only [State.send_same, apply_ite (State.except 1024), apply_ite Prod.snd, apply_ite Prod.fst, ite_self,
      Nat.reduceAnd, foldl_same, foldl_same2, foldl_same1]

theorem State.chainTake_same (m : Nat) (h : 1 &&& m = 1) (a0 : State) (a1 : ℕ) (a2 : ℕ) (a3 : ChainFrame) :
    State.except m (State.chainTake a0 a1 a2 a3).2 = State.except m a0 := by
  refine except_mono h ?_
  unfold State.chainTake
  simp only [State.count_same, apply_ite (State.except 1), apply_ite Prod.snd, apply_ite Prod.fst, ite_self,
      Nat.reduceAnd, foldl_same, foldl_same2, foldl_same1]

theorem State.relayUp_same (m : Nat) (h : 1024 &&& m = 1024) (a0 : State) (a1 : ChainFrame) :
    State.except m (State.relayUp a0 a1) = State.except m a0 := by
  refine except_mono h ?_
  unfold State.relayUp
  simp only [State.send_same, apply_ite (State.except 1024), apply_ite Prod.snd, apply_ite Prod.fst, ite_self,
      Nat.reduceAnd, foldl_same, foldl_same2, foldl_same1]

theorem State.chainDown_same (m : Nat) (h : 1024 &&& m = 1024) (a0 : State) (a1 : ChainFrame) :
    State.except m (State.chainDown a0 a1) = State.except m a0 := by
  refine except_mono h ?_
  unfold State.chainDown
  simp only [State.send_same, apply_ite (State.except 1024), apply_ite Prod.snd, apply_ite Prod.fst, ite_self,
      Nat.reduceAnd, foldl_same, foldl_same2, foldl_same1]

theorem State.enumDone_same (m : Nat) (h : 536871169 &&& m = 536871169) (a0 : State) :
    State.except m (State.enumDone a0) = State.except m a0 := by
  refine except_mono h ?_
  unfold State.enumDone
  (try simp only [State.wr_same, State.setSwc_same, State.swcShow_same, State.log_same, State.raise_same, apply_ite
      (State.except 536871169), apply_ite Prod.snd, apply_ite Prod.fst, ite_self, Nat.reduceAnd, foldl_same,
      foldl_same2, foldl_same1])
  repeat' split
  all_goals (try simp [State.wr_same, State.setSwc_same, State.swcShow_same, State.log_same, State.raise_same,
      apply_ite (State.except 536871169), apply_ite Prod.snd, apply_ite Prod.fst, ite_self, Nat.reduceAnd, foldl_same,
      foldl_same2, foldl_same1])

theorem State.linkSet_same (m : Nat) (h : 536871937 &&& m = 536871937) (a0 : State) (a1 : Bool) (a2 : Bool) :
    State.except m (State.linkSet a0 a1 a2) = State.except m a0 := by
  refine except_mono h ?_
  unfold State.linkSet
  simp only [State.raise_same, State.wr_same, State.count_same, State.enumerate_same, State.sendUp_same, apply_ite
      (State.except 536871937), apply_ite Prod.snd, apply_ite Prod.fst, ite_self, Nat.reduceAnd, foldl_same,
      foldl_same2, foldl_same1]

theorem State.recordResult_same (m : Nat) (h : 536871169 &&& m = 536871169) (a0 : State) (a1 : ℕ) (a2 : ℕ) (a3 : ℕ)
    (a4 : ℕ) (a5 : ℕ) (a6 : Bool) :
    State.except m (State.recordResult a0 a1 a2 a3 a4 a5 a6) = State.except m a0 := by
  refine except_mono h ?_
  unfold State.recordResult
  (try simp only [State.setReport_same, State.raise_same, State.log_same, State.logReport_same, apply_ite
      (State.except 536871169), apply_ite Prod.snd, apply_ite Prod.fst, ite_self, Nat.reduceAnd, foldl_same,
      foldl_same2, foldl_same1])
  repeat' split
  all_goals (try simp only [State.setReport_same, State.raise_same, State.log_same, State.logReport_same, apply_ite
      (State.except 536871169), apply_ite Prod.snd, apply_ite Prod.fst, ite_self, Nat.reduceAnd, foldl_same,
      foldl_same2, foldl_same1])

theorem State.runSweep_same (m : Nat) (h : 675284225 &&& m = 675284225) (a0 : State) (a1 : Sweep) :
    State.except m (State.runSweep a0 a1) = State.except m a0 := by
  refine except_mono h ?_
  unfold State.runSweep
  simp only [State.drainEvents_same, State.takeEvent_same, State.log_same, State.raise_same, State.storeResult_same,
      State.recordResult_same, State.sendUp_same, apply_ite (State.except 675284225), apply_ite Prod.snd, apply_ite
      Prod.fst, ite_self, Nat.reduceAnd, foldl_same, foldl_same2, foldl_same1]

theorem State.hallShow_same (m : Nat) (h : 1 &&& m = 1) (a0 : State) (a1 : ℕ) (a2 : ℕ) :
    State.except m (State.hallShow a0 a1 a2) = State.except m a0 := by
  refine except_mono h ?_
  unfold State.hallShow
  simp only [State.wr_same, apply_ite (State.except 1), apply_ite Prod.snd, apply_ite Prod.fst, ite_self,
      Nat.reduceAnd, foldl_same, foldl_same2, foldl_same1]

theorem State.glitch_same (m : Nat) (h : 67109121 &&& m = 67109121) (a0 : State) (a1 : ℕ) (a2 : ℕ) (a3 : ℕ) :
    State.except m (State.glitch a0 a1 a2 a3) = State.except m a0 := by
  refine except_mono h ?_
  unfold State.glitch
  (try simp only [State.setTmp_same, State.log_same, State.raise_same, apply_ite (State.except 67109121), apply_ite
      Prod.snd, apply_ite Prod.fst, ite_self, Nat.reduceAnd, foldl_same, foldl_same2, foldl_same1])
  repeat' split
  all_goals (try simp only [State.setTmp_same, State.log_same, State.raise_same, apply_ite (State.except 67109121),
      apply_ite Prod.snd, apply_ite Prod.fst, ite_self, Nat.reduceAnd, foldl_same, foldl_same2, foldl_same1])

theorem State.glitchEnd_same (m : Nat) (h : 67109120 &&& m = 67109120) (a0 : State) (a1 : ℕ) :
    State.except m (State.glitchEnd a0 a1) = State.except m a0 := by
  refine except_mono h ?_
  unfold State.glitchEnd
  (try simp only [State.setTmp_same, State.log_same, apply_ite (State.except 67109120), apply_ite Prod.snd, apply_ite
      Prod.fst, ite_self, Nat.reduceAnd, foldl_same, foldl_same2, foldl_same1])
  repeat' split
  all_goals (try simp only [State.setTmp_same, State.log_same, apply_ite (State.except 67109120), apply_ite Prod.snd,
      apply_ite Prod.fst, ite_self, Nat.reduceAnd, foldl_same, foldl_same2, foldl_same1])

theorem State.xt32Stops_same (m : Nat) (h : 67113217 &&& m = 67113217) (a0 : State) :
    State.except m (State.xt32Stops a0) = State.except m a0 := by
  refine except_mono h ?_
  unfold State.xt32Stops
  simp only [State.tmpShow_same, State.glitch_same, State.count_same, State.raise_same, State.wr_same, except_upd_ctf,
      apply_ite (State.except 67113217), apply_ite Prod.snd, apply_ite Prod.fst, ite_self, Nat.reduceAnd, foldl_same,
      foldl_same2, foldl_same1]

theorem State.revokeAll_same (m : Nat) (h : 34682708267 &&& m = 34682708267) (a0 : State) (a1 : ℕ) :
    State.except m (State.revokeAll a0 a1).2 = State.except m a0 := by
  refine except_mono h ?_
  unfold State.revokeAll
  (try simp only [State.revoke_same, apply_ite (State.except 34682708267), apply_ite Prod.snd, apply_ite Prod.fst,
      ite_self, Nat.reduceAnd, foldl_same, foldl_same2, foldl_same1])
  repeat' split
  all_goals (try simp [State.revoke_same, apply_ite (State.except 34682708267), apply_ite Prod.snd, apply_ite
      Prod.fst, ite_self, Nat.reduceAnd, foldl_same, foldl_same2, foldl_same1])

theorem State.clearMeters_same (m : Nat) (h : 65537 &&& m = 65537) (a0 : State) (a1 : ℕ) :
    State.except m (State.clearMeters a0 a1) = State.except m a0 := by
  refine except_mono h ?_
  unfold State.clearMeters
  refine (except_upd_acc 65537 rfl _).trans ?_
  refine foldl_same _ _ (fun t x => ?_) _ _
  refine (State.wr_same _ rfl _ _ _).trans ((State.wr_same _ rfl _ _ _).trans (foldl_same _ _ (fun t x => ?_) _ _))
  exact State.wr_same _ rfl _ _ _

theorem State.fullPart_same (m : Nat) (h : 34682773803 &&& m = 34682773803) (a0 : State) (a1 : ℕ) :
    State.except m (State.fullPart a0 a1).2 = State.except m a0 := by
  refine except_mono h ?_
  unfold State.fullPart
  simp only [State.revokeAll_same, State.clearMeters_same, State.clearRegs_same, State.setTnc_same, apply_ite
      (State.except 34682773803), apply_ite Prod.snd, apply_ite Prod.fst, ite_self, Nat.reduceAnd, foldl_same,
      foldl_same2, foldl_same1]

theorem State.resetEnds_same (m : Nat) (h : 8449 &&& m = 8449) (a0 : State) (a1 : TenantReset) (a2 : Status) :
    State.except m (State.resetEnds a0 a1 a2) = State.except m a0 := by
  refine except_mono h ?_
  unfold State.resetEnds
  simp only [State.setTnc_same, State.wr_same, State.moveTenant_same, apply_ite (State.except 8449), apply_ite
      Prod.snd, apply_ite Prod.fst, ite_self, Nat.reduceAnd, foldl_same, foldl_same2, foldl_same1]

theorem State.expireItems_same (m : Nat) (h : 34666979329 &&& m = 34666979329) (a0 : State) (a1 : ℕ) :
    State.except m (State.expireItems a0 a1) = State.except m a0 := by
  refine except_mono h ?_
  unfold State.expireItems
  (try simp only [State.barmLatest_same, State.endFrame_same, State.giveBack_same, State.secRefuse_same,
      State.setSec_same, State.celRefuse_same, State.setCel_same, apply_ite (State.except 34666979329), apply_ite
      Prod.snd, apply_ite Prod.fst, ite_self, Nat.reduceAnd, foldl_same, foldl_same2, foldl_same1])
  repeat' split
  all_goals (try simp [State.barmLatest_same, State.endFrame_same, State.giveBack_same, State.secRefuse_same,
      State.setSec_same, State.celRefuse_same, State.setCel_same, apply_ite (State.except 34666979329), apply_ite
      Prod.snd, apply_ite Prod.fst, ite_self, Nat.reduceAnd, foldl_same, foldl_same2, foldl_same1])

theorem State.expireEntries_same (m : Nat) (h : 1310721 &&& m = 1310721) (a0 : State) :
    State.except m (State.expireEntries a0) = State.except m a0 := by
  refine except_mono h ?_
  unfold State.expireEntries
  (try simp only [State.setSparge_same, State.setTun_same, State.endEntry_same, apply_ite (State.except 1310721),
      apply_ite Prod.snd, apply_ite Prod.fst, ite_self, Nat.reduceAnd, foldl_same, foldl_same2, foldl_same1])
  repeat' split
  all_goals (try simp [State.setSparge_same, State.setTun_same, State.endEntry_same, apply_ite (State.except 1310721),
      apply_ite Prod.snd, apply_ite Prod.fst, ite_self, Nat.reduceAnd, foldl_same, foldl_same2, foldl_same1])

theorem State.startTile_same (m : Nat) (h : 262144 &&& m = 262144) (a0 : State) (a1 : ℕ) (a2 : SpEntry) :
    State.except m (State.startTile a0 a1 a2) = State.except m a0 := by
  refine except_mono h ?_
  unfold State.startTile
  simp only [State.setTun_same, apply_ite (State.except 262144), apply_ite Prod.snd, apply_ite Prod.fst, ite_self,
      Nat.reduceAnd, foldl_same, foldl_same2, foldl_same1]

theorem State.takeEntry_same (m : Nat) (h : 1310977 &&& m = 1310977) (a0 : State) (a1 : ℕ) (a2 : SpEntry) :
    State.except m (State.takeEntry a0 a1 a2) = State.except m a0 := by
  refine except_mono h ?_
  unfold State.takeEntry
  (try simp only [State.setSparge_same, State.settleSignals_same, State.endEntry_same, State.logStop_same,
      State.setTun_same, State.startTile_same, apply_ite (State.except 1310977), apply_ite Prod.snd, apply_ite
      Prod.fst, ite_self, Nat.reduceAnd, foldl_same, foldl_same2, foldl_same1])
  repeat' split
  all_goals (try simp only [State.setSparge_same, State.settleSignals_same, State.endEntry_same, State.logStop_same,
      State.setTun_same, State.startTile_same, apply_ite (State.except 1310977), apply_ite Prod.snd, apply_ite
      Prod.fst, ite_self, Nat.reduceAnd, foldl_same, foldl_same2, foldl_same1])

theorem State.runEntry_same (m : Nat) (h : 34359738369 &&& m = 34359738369) (a0 : State) (a1 : ℕ) (a2 : ℕ) (a3 : Bool)
    :
    State.except m (State.runEntry a0 a1 a2 a3).1 = State.except m a0 := by
  refine except_mono h ?_
  unfold State.runEntry
  (try simp only [State.store_same, State.wr_same, apply_ite (State.except 34359738369), apply_ite Prod.snd, apply_ite
      Prod.fst, ite_self, Nat.reduceAnd, foldl_same, foldl_same2, foldl_same1])
  repeat' split
  all_goals (try simp [State.store_same, State.wr_same, apply_ite (State.except 34359738369), apply_ite Prod.snd,
      apply_ite Prod.fst, ite_self, Nat.reduceAnd, foldl_same, foldl_same2, foldl_same1])

theorem State.startStaged_same (m : Nat) (h : 1310977 &&& m = 1310977) (a0 : State) (a1 : ℕ) :
    State.except m (State.startStaged a0 a1) = State.except m a0 := by
  refine except_mono h ?_
  unfold State.startStaged
  (try simp only [State.setTun_same, State.settleSignals_same, State.endEntry_same, State.logStop_same,
      State.startTile_same, apply_ite (State.except 1310977), apply_ite Prod.snd, apply_ite Prod.fst, ite_self,
      Nat.reduceAnd, foldl_same, foldl_same2, foldl_same1])
  repeat' split
  all_goals (try simp only [State.setTun_same, State.settleSignals_same, State.endEntry_same, State.logStop_same,
      State.startTile_same, apply_ite (State.except 1310977), apply_ite Prod.snd, apply_ite Prod.fst, ite_self,
      Nat.reduceAnd, foldl_same, foldl_same2, foldl_same1])

theorem State.tileUnc_same (m : Nat) (h : 257 &&& m = 257) (a0 : State) (a1 : ℕ) (a2 : ℕ) (a3 : ℕ) :
    State.except m (State.tileUnc a0 a1 a2 a3) = State.except m a0 := by
  refine except_mono h ?_
  unfold State.tileUnc
  simp only [State.raise_same, State.count_same, State.log_same, State.wr64_same, apply_ite (State.except 257),
      apply_ite Prod.snd, apply_ite Prod.fst, ite_self, Nat.reduceAnd, foldl_same, foldl_same2, foldl_same1]

/-- Installing a received map set touches the neighbour's link and the interrupt flag. -/
theorem State.installSet_same (m : Nat) (h : 8388609 &&& m = 8388609) (s : State) (i : Nat) (x : MapSet) :
    State.except m (s.installSet i x) = s.except m := by
  refine except_mono h ?_
  unfold State.installSet
  simp only [State.raise_same, State.setLink_same, Nat.reduceAnd]

end Sys2Proof.Machine
end

