-- ==== Sys2Proof/Tests/Slice0.lean ====
section
/-! SUPPORT. Tests: for every statement with hypotheses a state and operands that meet them together; ill-formed
commands that the check refuses; check values and worked examples. -/

set_option linter.all false
namespace Sys2Proof.Machine.Test

set_option Elab.async false

open Reg

/-- A state with fields written. -/
def put (s : State) (l : List (Fld × Nat)) : State := l.foldl (fun s x => s.wr x.1 x.2) s

/-- The state after reset with fields written. -/
def st (l : List (Fld × Nat)) : State := put State.reset l

/-- The state with its configuration in force. -/
def force (s : State) : State := { s with inForce := s.regs }

/-- The state in a cycle of a time scale that has been seeded. -/
def atCyc (n : Nat) (s : State) : State := { s with ctf := { s.ctf with cyc := n, seeded := true } }

/-- A write of a word of a page with its carry code, by firmware as tenant `tc`. -/
def wq (tc : Fin 64) (page off d : Nat) : RegWrite :=
  ⟨.mgmt, tc, BitVec.ofNat 32 d,
    carryCode true tc.val (addressA (directAddr page off).toNat false) (BitVec.ofNat 32 d)⟩

/-- The same from HSP. -/
def wh (tc : Fin 64) (page off d : Nat) : RegWrite := { wq tc page off d with port := .hsp 0 }

/-- A read by firmware as tenant `tc`. -/
def rq (tc : Fin 64) : RegRead := ⟨.mgmt, tc⟩

/-- The next state of an answer. -/
def getT (r : Result) : State :=
  match r with
  | .next t => t
  | _ => State.reset

/-- A record of 64 bytes from its fields, with its CRC. -/
def rec64 (l : List (Nat × Nat)) : Nat := withCrc64 (l.foldl (fun a x => a + x.2 * 2 ^ x.1) 0)

/-- The same of 32 bytes. -/
def rec32 (l : List (Nat × Nat)) : Nat := withCrc32 (l.foldl (fun a x => a + x.2 * 2 ^ x.1) 0)

/-- Window 0 of tenant 5: 1 MiB from address 0 on, to read and write. -/
def win5 : List (Fld × Nat) :=
  [(TUN_WIN_EN 5 0, 1), (TUN_WIN_R 5 0, 1), (TUN_WIN_W 5 0, 1), (TUN_WIN_SIZE 5 0, 256), (TUN_CLEN, 0xFF), (MON_LVL, 0)]

/-- A COPY of 64 bytes from 0 to 0x100 on any cluster, without counters, deadline in cycle 10. -/
def copyW (tc : Nat) : Nat :=
  rec64 [(0, 2), (16, 0xFF), (24, tc), (96, 0xFF), (104, 0xFF), (128, 10), (160, 0), (240, 0x100), (432, 1)]

/-- That entry in the Sparge list. -/
def copyE : SpEntry := ⟨BitVec.ofNat 512 (copyW 5), none⟩

/-- Tenant 5 with memory to copy and what the Tun array holds. -/
def tunS (f : TunState → TunState) (l : List (Fld × Nat)) : State :=
  { (st (win5 ++ l)).store 3 [7, 9] with tun := f {} }

/-- A channel that is qualified, with a valid offset. -/
def chOk : ChanState := { good := 3, pos := { ok := true, lastOk := some 0 }, lost := false, revertCyc := 0xFFFF }

/-- LOCKED on channel 2, both channels 1 and 2 good. -/
def ctfS (f : CtfState → CtfState) (l : List (Fld × Nat)) : State :=
  put { State.reset with ctf := f { chans := [chOk, chOk, {}, {}, {}, {}] } } l

/-- An entry of the table with a start, a length and a consumer, enabled in every cycle. -/
def entW (start len cons : Nat) : BitVec 64 :=
  BitVec.ofNat 64 (start + len * 2 ^ 16 + cons * 2 ^ 32 + 2 ^ 40 + 2 ^ 61)

/-- The access of a write of a word of a page. -/
def wa (tc : Fin 64) (page off d : Nat) : Access := wordAccess page off (wq tc page off d)

/-- A challenge of page 0x060 read by TC01 at clock 0. -/
def lockS (clk : Nat) : State :=
  { State.reset.setPg 0x060 fun g => { g with chal := some ⟨0x1234, 1, 0⟩ } with clk := clk * 65536 }

/-- The word that answers it. -/
def lockW (set : Bool) : Nat := (0x1234 ^^^ 0x060) + b2n set * 2 ^ 30 + 2 ^ 31

/-- TC05 ACTIVE, TC06 SUSPENDED, TC07 in RESETTING. -/
def tenS (l : List (Fld × Nat)) : State :=
  put (((State.reset.setTenant 5 1).setTenant 6 2).setTenant 7 3) l

/-- A reset of TC07 outstanding. -/
def resetS (r : TenantReset) : State :=
  { tenS [(TNC_T_BUSY, 1)] with tnc := { State.reset.tnc with resets := [r], aliases := [(7 * 256 + 9, 0x060)] } }

/-- What stands beside the registers of tenancy changed. -/
def tncS (f : TncState → TncState) (l : List (Fld × Nat)) : State :=
  { put State.reset l with tnc := f {} }

/-- A calibration step on converter 71 that has gathered four cycles. -/
def calK (full : Bool) (sum : Int) (sq : Nat) : CalStep :=
  { full := full, conv := 71, ncyc := 4, got := 4, a := ⟨4096, sum, sq⟩ }

/-- What the ACS holds beside its registers. -/
def acsS (f : AcsState → AcsState) (l : List (Fld × Nat)) : State := { st l with acs := f {} }

/-- A cycle that waits for its close. -/
def cycEnd (sealed : Bool) : CycleEnd :=
  { opening := { st := 2, sealed := sealed }, cyc := 2 ^ 32 + 9, closeSt := 2, rephase := false, len := 960000,
    cont := none, ref := 1 }

/-- That state of metrology. -/
def mteS (sealed ever : Bool) : State :=
  { State.reset with mte := { due := some (cycEnd sealed) }, tnc := { everSealed := ever } }

/-- Output 15 with its constant, its spill and what stands beside its registers. -/
def plsS (spill : Nat) (f : AccState → AccState) (l : List (Fld × Nat)) : State :=
  { force (st ([(PLS_CONST 15, 1000), (PLS_SPILL_LO 15, spill)] ++ l)) with acc := f {} }

/-- The PQE enabled, with what stands beside its registers. -/
def pqeS (f : PqeState → PqeState) (l : List (Fld × Nat)) : State :=
  { force (st ((PQE_EN, 1) :: l)) with pqe := f {} }

/-- A burst of two repetitions on cluster 0. -/
def burstB (phase done : Nat) : Burst :=
  { clm := 1, rep := 2, len := 1000, gap := 500, start := 70000, lead := 0, cost := 8, phase := phase, done := done }

/-- The Tun array with that burst. -/
def bstS (phase done : Nat) (f : TunState → TunState) : State :=
  tunS (fun x => f { x with burst := some (burstB phase done) }) [(TUN_BST_BUSY, 1)]

/-- A burst configured to start at a stamp, with TC00's quota. -/
def bstC (at_ : Nat) : State :=
  { st [(MON_LVL, 0), (TUN_BST_CLM, 3), (TUN_BST_REP, 2), (TUN_BST_LEN, 1000), (TUN_BST_GAP, 500), (TUN_BST_AT_LO, at_)] with
    tnc := { left := [(64, 16)] } }

/-- A route descriptor of three tokens, two experts and two choices, in memory from 0x1000 on. -/
def routeW : Nat :=
  rec64 [(0, 3), (16, 16), (32, 2), (40, 2), (45, 1), (64, 0x1100), (104, 0x1200), (144, 0x1300), (184, 0x2000),
    (224, 0x3100), (264, 0), (304, 0x1080), (344, 16), (360, 16), (376, 64), (392, 64)]

/-- An expert descriptor with room for two tokens. -/
def expertW (e : Nat) : Nat :=
  rec32 [(0, 2), (16, e), (32, 0x4000 + 0x1000 * e), (72, 0x8000 + 0x1000 * e), (112, 16), (128, 64)]

/-- A router operation of tenant 5 on them. -/
def routerO (combine : Bool) : RouterOp :=
  { combine := combine, desc := 0x1000, wcnt := 0xFF, wval := 0, scnt := 0xFF, tc := 5, item := 4, dlc := 10, src := (0, 0) }

/-- Those operations with what they read. -/
def ltrS (combine : Bool) : State :=
  { ((((st (win5 ++ [(LTR_EN, 1)])).store 0x1000 (leBytes 64 routeW)).store 0x1080
      (leBytes 32 (expertW 0) ++ leBytes 32 (expertW 1))).store 0x1100 [9, 0, 0, 0, 5]).store 0x1200 [1, 2, 3] with
    ltr := { ops := [routerO combine] } }

/-- The shadow weight bank with one value in every place. -/
def wtab (n : Nat) : State :=
  put (st [(MON_LVL, 0)]) ((List.range 128).flatMap fun i => [(LTR_W_EVEN i, n), (LTR_W_ODD i, n)])

/-- The ring of tenant 5 at 0x10000: one submission slot of four new, that names a list at 0x20000. -/
def ringR : RingCfg := ⟨0x10000, 2, 2⟩

/-- A list of one COPY: header and entry. -/
def listH : Nat :=
  rec64 [(0, 1), (16, 1), (32, 1), (48, 9), (64, 8), (112, 20), (160, crc32 (leBytes 4 (bits (copyW 0) 480 32)))]

/-- The engine with that ring and list. -/
def barmS (f : BarmState → BarmState) (l : List (Fld × Nat)) : State :=
  { (((st (win5 ++ [(BARM_EN, 1), (BARM_REN 5, 1), (BARM_RB_LO 5, 0x400), (BARM_RSL 5, 2), (BARM_RCL 5, 2), (TNC_TST 5, 1)] ++ l)).store
      0x10000 [1]).store 0x10040 (leBytes 8 0x20000)).store 0x20000 (leBytes 64 listH ++ leBytes 64 (copyW 0)) with
    barm := f { opened := true } }

/-- A started list of tenant 5 with entries. -/
def listL (es : List Nat) : BarmList :=
  { id := 3, tc := 5, cls := 2, ring := ringR, ncnt := 1, cost := 1, item := 9, fence := 0, dead := 20,
    entries := es.map (BitVec.ofNat 512), phase := 2, ctrs := [4] }

/-- The engine with that list. -/
def listS (l : BarmList) : State := barmS (fun b => { b with lists := [l], order := [3] }) []

/-- An entry that completes with counter 0 and waits on it. -/
def entryW (l : List (Nat × Nat)) : Nat := rec64 ([(96, 0xFF), (104, 0xFF)] ++ l)

/-- A ROUTE and the EXPERT entry that expands it, in memory with its tables. -/
def expertL : BarmList :=
  { listL [entryW [(0, 4), (160, 0x1000)], entryW [(0, 6), (36, 1), (40, 16), (51, 1), (160, 0x9000)]] with
    next := 2, waits := [1], codes := [(0, .ok)], routes := [0] }

/-- The dispatch table of that ROUTE: expert 0 has sixteen rows. -/
def dispW (e : Nat) : Nat := rec64 [(320, if e = 0 then 16 else 0)]

/-- The engine about to expand that entry. -/
def expertS : State :=
  ((((listS expertL).store 0x1000 (leBytes 64 routeW)).store 0x2000 (leBytes 64 (dispW 0) ++ leBytes 64 (dispW 1))).store
    0x3000 (leBytes 64 (rec64 [(0, 3)]))).store 0x9000 (leBytes 64 (rec64 [(64, 0x100)]) ++ leBytes 64 (rec64 []))

/-- An INSIGHT entry that delivers twelve bytes. -/
def insightL : BarmList :=
  { listL [entryW [(0, 7), (128, 0x1234), (160, 0x20000), (200, 12)]] with next := 1, waits := [0] }

/-- A boot image: header with its signature under a key that the test made, one byte of each section. -/
def bootImage : SlotImage :=
  ⟨true, leBytes 256 0xa7a9682bc3a8baa3fb2c635def59ef6a50d42de4a3304d12820805bb244bbaa64ad858332cfb4cebdb00dee5cff432d0d9cbfa67fff9f55a4c37251d9968775de6d07258747040bf316f4b74055205e75ad24d70670c150d33bbc79cde8b239012d8daf9e921f9f9c99c645b9433f7b222913a8be18791664ae3e90ebdceef260730c6a157db8bf41479b1fc008e346e16807d252e1b1ea7332f03e7dd1f338a0aa84e1db5a8dcc4a87b18eaf4a7cc21db93c3986cce5b6e5332cbf007a1644a0000000000000000000000000800000000000000080000000000000000000001000002001000000000000001000001000000000000000007000000014c464f47
    ++ [0x11#8] ++ List.replicate 255 0#8 ++ [0x22#8]⟩

/-- A slot that does not answer. -/
def noImage : SlotImage := ⟨false, []⟩

/-- The OTP words with the digest of that key, the boot record clean, and what the complex holds. -/
def bootS (w : Nat) (f : CcxState → CcxState) (l : List (Fld × Nat)) : State :=
  { (st ((PMU_WBLK, 0) :: l)).celPutRaw bootGroup (celWord bootGroup w) with
    ccx := f {},
    sec := { otp := (List.range 4).map fun i => (10 + i, BitVec.ofNat 64 (0x31801acfde846d0985aed2b3c39217f8b0cbc4905819aca7e35fdcf336cfc1cb >>> (64 * i))) } }

/-- The complex about to select an image, and in recovery. -/
def bootedS : State := bootS 0 (fun c => { c with bootDue := true, recovery := true }) []

/-- An application section and its digest. -/
def appImage : BootImage := ⟨0x200, 1, 0x08000000, sha256 [0x22#8]⟩

/-- What the complex holds beside its registers. -/
def ccxS (f : CcxState → CcxState) (l : List (Fld × Nat)) : State := { st l with ccx := f {} }

/-- Hart `h` runs, with the window of tenant 5. -/
def hartF : List (Fld × Nat) :=
  [(CCX_HUP, 15), (MON_LVL, 0), (CCX_C_TC 3, 5), (CCX_C_TCV 3, 1), (TUN_WIN_EN 5 0, 1), (TUN_WIN_R 5 0, 1), (TUN_WIN_SIZE 5 0, 16)]

/-- An access of hart 3. -/
def hartA (machine : Bool) (kind : AccessKind) (addr : BitVec 40) (data : List Byte) : HartAccess :=
  { core := 3, machine := machine, kind := kind, addr := addr, size := 4, data := data }

/-- The controller with source 81 pending and enabled in context 5. -/
def plicS : State :=
  { st [(MGC_DB_TOCCX, 1)] with ccx := { plic := [(81 * 4, 3), (0x2000 + 0x80 * 5 + 8, 0x20000)] } }

/-- The powerline on: the tone channel on band 1 with AUXOUT good, both its layers enabled. -/
def plcF : List (Fld × Nat) :=
  [(PLT_EN, 1), (PLT_BAND, 1), (PMU_PG, 0x80), (PLM_EN, 1), (PLM_SADDR, 9), (MON_LVL, 0), (PLP_EN, 1), (PLP_DLEN, 1)]

/-- The powerline with what stands beside its registers. -/
def plcS (f : PlmState → PlmState) (g : PltState → PltState) (l : List (Fld × Nat)) : State :=
  { st (plcF ++ l) with plm := f {}, plt := g {} }

/-- A frame being sent to neighbour 33. -/
def attE (ack waits : Bool) : Attempt :=
  { frame := 4, bytes := [1, 2, 3], nxt := 33, seq := 5, ackReq := ack, waits := waits }

/-- That attempt on the channel. -/
def txE : PltTx := ⟨.ok, 3, 4, 5, 1000⟩

/-- A map set. -/
def setE : MapSet := { gen := 4, rate := 1, span := 4, maps := List.replicate 9 (List.replicate 12 1), dcorr := 7, at' := 3 }

/-- A neighbour in place 2. -/
def nbE : Nat × Neighbour := (2, { eui := 0x77, saddr := 33, bidir := true, hello := 0, heard := 0 })

/-- A message of that neighbour. -/
def msgE (l : List Byte) : MgmtIn := ⟨33, 0x77, l, 0⟩

/-- The powerline with that neighbour, a message and what is kept of the link. -/
def linkS (m : List Byte) (k : PltLink) (l : List (Fld × Nat)) : State :=
  atCyc 5000 (plcS (fun p => { p with nbs := [nbE], mgmt := [msgE m] }) (fun p => { p with links := [(2, k)] }) l)

/-- The state after the first message of a name is taken. -/
def taken (s : State) (name : Nat) : State := ((s.takeMgmt name).map (·.2)).getD s

/-- An FCH of mode 0 from neighbour 33. -/
def fchE (mode nsym : Nat) : Fch := ⟨mode, 0, nsym, 0, 4, false, 33, 0, 100⟩

/-- A scheduling entry of the pulse channel with a usable window. -/
def slotE : BitVec 64 := BitVec.ofNat 64 (60416 + 10240 * 2 ^ 16 + 2 * 2 ^ 32 + 2 ^ 40 + 2 ^ 56 + 2 ^ 61)

/-- Its stream. -/
def slotS (x : PlpStream) : State :=
  { st (plcF ++ [(PLP_EMAP_VAL 5, 1), (PLP_EMAP_STR 5, 7), (PLP_THR, 100), (PLP_MARG, 8), (CTF_ST, 2)]) with
    ctf := { active := [(5, slotE)] }, plp := { streams := [(7, x)] } }

/-- A node of stream 7 with its repeater. -/
def nodeE (grant : Option (Nat × Nat × Nat)) : NodeEntry :=
  { eui := 0x55, nid := 3, ep := 0, stream := 7, entry := 5, anchor := 1, period := 4, cofs := 0, keep := 0, up := 10, heard := 0, grant := grant }

/-- A downlink for it. -/
def downE : NodeDown := { ref := 11, stream := 7, data := [1, 2], isData := false }

/-- Endpoint 0 of tenant 5 on network 3, with its ring of one slot each way at 0x10000 and its key. -/
def epS (f : PlmState → PlmState) (l : List (Fld × Nat)) : State :=
  { st (plcF ++ [(PLM_EP_EN 0 0, 1), (PLM_EP_NID 0 0, 3), (PLM_EP_RBL 0 0, 0x400), (TUN_WIN_EN 5 0, 1), (TUN_WIN_R 5 0, 1),
      (TUN_WIN_W 5 0, 1), (TUN_WIN_SIZE 5 0, 256), (PLM_EP_ADMIT 0 0, 1)] ++ l) with
    plm := f { owner := [(0, 5)], keys := [(0, 77)] },
    ctf := { cyc := 50000, seeded := true, chans := [{ pos := { lastOk := some 100 }, neg := { lastOk := some 32868 } }, {}, {}, {}, {}, {}] } }

/-- A frame of this device to neighbour 33. -/
def frameE : TxFrame :=
  { id := 4, kind := 1, type := 4, prio := 2, ackReq := true, nid := 3, orig := 9, fdst := 33, data := [1, 2] }

/-- A HELLO of the device 0x77. -/
def helloE (eui saddr : Nat) : List Byte := 0x10 :: leBytes 8 eui ++ [BitVec.ofNat 8 saddr, 0] ++ leBytes 2 60 ++ [1, 9]

/-- An RADV of one route. -/
def radvE : List Byte := [0x12, 1, 40, 33, 2, 7, 0]

/-- An uplink of node 0x55 under the key of endpoint 0. -/
def upE (type ctr : Nat) : List Byte :=
  let head := BitVec.ofNat 8 type :: leBytes 2 ctr
  head ++ ccmSeal (keyBytes 77) (nodeNonce 0x55 ctr false type) head [8, 9] 4

/-- A JOIN of that node with period code 2. -/
def joinE : List Byte :=
  let head := 1 :: leBytes 8 0x55 ++ leBytes 2 3 ++ leBytes 2 11 ++ [2]
  head ++ ccmSeal (keyBytes 77) (nodeNonce 0x55 11 false 1) head [] 4

/-- A pulse frame of stream 7. -/
def pulseE (l : List Byte) : PulseIn := ⟨7, l, false, 0, 200, false⟩

/-- The endpoint with node 0x55 and such a frame. -/
def nodeS (l : List Byte) (m : NodeEntry) (r : List (Fld × Nat)) : State :=
  epS (fun p => { p with nodes := [m], nodeIn := [pulseE l] }) r

/-- The state after that frame is taken. -/
def takenN (s : State) : State := { s with plm := { s.plm with nodeIn := [] } }

/-- A grant held for home 33. -/
def grantE (role : Nat) (t : Option Nat) : RepGrant :=
  { id := 6, home := 33, role := role, eui := 0x55, nid := 3, stream := 7, entry := 5, lease := 300, sinks := 0, heard := 0, taken := t }

/-- A probe for it. -/
def probeE : Probe := { id := 6, home := 33, eui := 0x55, nid := 3, period := 4, stream := 7, entry := 5, since := 0 }

/-- An RGREQ for node 0x55 with period 4 and slot phase `ph`. -/
def rgreqE (ph : Nat) : List Byte := rgreqBytes 6 { nodeE none with period := 4 } |>.take 18 |>.append (leBytes 2 ph)

/-- The endpoint with a message of neighbour 33. -/
def askS (m : List Byte) (f : PlmState → PlmState) : State := epS (fun p => f { p with nbs := [nbE], mgmt := [msgE m] }) []

/-- The chain enabled with both links up, and what stands beside its registers. -/
def swcS (f : SwcState → SwcState) (l : List (Fld × Nat)) : State :=
  atCyc 1000 { st ([(SWC_EN, 1), (SWC_UPLNK, 1), (SWC_DNLNK, 1), (MON_LVL, 0), (SYS_UID 0, 0x42)] ++ l) with swc := f {} }

/-- A frame of the chain. -/
def frameC (type : Nat) (payload : List Byte) : ChainFrame :=
  let h := leBytes 1 type ++ [5, 0] ++ leBytes 1 payload.length ++ payload
  { bytes := h ++ leBytes 4 (crc32 h) }

/-- The state after a frame is taken. -/
def takenC (s : State) (type len : Nat) (f : ChainFrame) : State := (s.chainTake type len f).2

/-- An ANNOUNCE of position `p`. -/
def announceC (p : Nat) (more : Nat) : List Byte := leBytes 1 p ++ leBytes 8 0x77 ++ [1] ++ leBytes 1 more ++ leBytes 2 3

/-- A RESULT of sweep 6 from the device 0x77. -/
def resultC : List Byte := leBytes 2 6 ++ [4, 0] ++ leBytes 8 0x77 ++ leBytes 8 900 ++ leBytes 8 5 ++ [1]

/-- A report of sweep 6 of two positions. -/
def reportC : SweepReport := { id := 6, head := 65536, entries := [{ eui := 0x42 }, { eui := 0x77 }] }

/-- The tamper monitors with what they hold. -/
def tmpS (f : TmpState → TmpState) (l : List (Fld × Nat)) : State := { force (st l) with tmp := f {} }

/-- The log seeded, with block 70 at position 5 and blocks 68 on retained. -/
def clgS (f : ClgState → ClgState) (l : List (Fld × Nat)) : State :=
  atCyc 1000 { st ([(PMU_WBLK, 0), (CLG_HEADBLK, 70), (CLG_HEADPOS, 5), (CLG_TAIL, 68), (TUN_WIN_EN 0 0, 1), (TUN_WIN_W 0 0, 1),
      (TUN_WIN_SIZE 0 0, 256)] ++ l) with clg := f { ctl := 3 } }

/-- An event. -/
def eventE : LogEvent := ⟨0x1011, 255, [3, 0, 0, 0, 0, 0, 0, 0]⟩

/-- That log with events raised. -/
def withEvents (s : State) (l : List LogEvent) : State := { s with events := l }

/-- The security engine with slot 3 of tenant 5 of a type, its ring at 0x10000, and what it holds. -/
def secS (type : Nat) (m : List Byte) (f : SecState → SecState) (l : List (Fld × Nat)) : State :=
  { ((st (win5 ++ [(SEC_EN, 1), (SEC_REN 5, 1), (SEC_RB_LO 5, 0x400), (SEC_RSL 5, 1), (SEC_RCL 5, 1), (SEC_S_OWN 3, 5), (SEC_S_OWN 4, 5),
      (SEC_S_TYPE 3, type), (SEC_S_USE 3, 0x3F), (TNC_TST 5, 1), (TNC_CLASS 5, 2), (PMU_WBLK, 0)] ++ l)).store 0x8000
      (List.replicate 64 7)).store 0x9000 (pointBytes ecG) with
    sec := f { mats := [(3, m)] }, tnc := { left := [(64 * 3 + 5, 9)] } }

/-- A descriptor on slot 3: input at 0x9000, output at 0xA000, auxiliary bytes at 0x8000. -/
def secW (op ilen alen p0 p1 : Nat) : Nat :=
  rec64 [(0, op), (8, 3), (16, 4), (32, 9), (64, 0x9000), (104, ilen), (128, 0xA000), (192, 0x8000), (232, alen), (248, p0), (252, p1)]

/-- Its item. -/
def secX (w : Nat) : RingItem := ⟨5, 2, BitVec.ofNat 512 w, 1, 0, 0⟩

/-- The engine with that item admitted. -/
def secI (type : Nat) (m : List Byte) (w : Nat) : State := secS type m (fun s => { s with items := [secX w] }) []

/-- An operation that runs on slot 3 of unit `u`. -/
def secO (w u : Nat) (put : Option KeyPut) : SecOp :=
  { item := secX w, op := sdOp w, unit := u, slot := 3, gen := 0, holds := put.isNone, out := [1, 2], addr := 0xA000, put := put }

/-- That operation in the engine. -/
def secR (o : SecOp) : State := secS 1 (List.replicate 16 9) (fun s => { s with ops := [o] }) []

/-- A rewrite of slot 4. -/
def putE : KeyPut := ⟨4, 1, 3, false, 5, List.replicate 16 8⟩

/-- The engine as TC00's OTP commands find it. -/
def otpS (f : CcxState → CcxState) (g : SecState → SecState) (l : List (Fld × Nat)) : State :=
  { st ((PMU_WBLK, 0) :: l) with ccx := f {}, sec := g {} }

/-- The Cellar with unit 20 granted to tenant 5, its ring at 0x10000, and what it holds. -/
def celS (f : CelState → CelState) (l : List (Fld × Nat)) : State :=
  { (st (win5 ++ [(CEL_EN, 1), (CEL_REN 5, 1), (CEL_RB_LO 5, 0x400), (CEL_RSL 5, 1), (CEL_RCL 5, 1), (CEL_U_STATE 20, 1),
      (CEL_U_HOLD 20, 5), (TNC_TST 5, 1), (TNC_CLASS 5, 2), (PMU_WBLK, 0)] ++ l)).store 0x8000 (List.replicate 32 7) with
    cel := f {}, tnc := { left := [(64 * 4 + 5, 2000)] } }

/-- A command on three groups of unit 20 from 9 on, memory at 0x8000. -/
def celW (op : Nat) : Nat := rec64 [(0, op), (16, 20), (32, 9), (48, 3), (64, 77), (96, 0x8000)]

/-- Its item. -/
def celX (op : Nat) : RingItem := ⟨5, 2, BitVec.ofNat 512 (celW op), if op = 1 then 0 else 3, 0, 0⟩

/-- The Cellar with that command admitted. -/
def celI (op : Nat) : State := celS (fun c => { c with items := [celX op] }) []

/-- That command, running. -/
def celRun (op : Nat) (l : List (BitVec 64)) : CelRun := ⟨celX op, l, false⟩

/-- The Cellar while it runs. -/
def celR (op : Nat) (l : List (BitVec 64)) : State := celS (fun c => { c with run := some (celRun op l) }) []

/-- The gauge of a pack of 4 cells in RUN, with a table of 32 points, and what it holds. -/
def bgaS (f : BgaState → BgaState) (l : List (Fld × Nat)) : State :=
  { st ([(BGA_EN, 1), (BGA_ST, 2), (BGA_NCELL, 4), (BGA_RSH, 5000), (BGA_QMAX, 8000000), (BGA_Q, 4000000), (BGA_SOCS, 5000),
      (BGA_SOCR, 5000), (PMU_PST, 2), (PMU_VINOK, 1), (MON_LVL, 0)] ++ l) with
    bga := f { table := (List.range 32).map fun j => (30000 + 400 * j, if j = 31 then 10000 else 322 * j) } }

/-- A second of `n` codes of current at `v` in 0.1 mV per cell. -/
def secOf (n : Int) (v : Nat) : GaugeSecond := ⟨1000 * n, 1000 * v, List.replicate 4 (v, 1), 12000, 14800⟩

/-- A record in BGA_RIN. -/
def rin (b : List Byte) (s : State) : State := (List.range 16).foldl (fun s k => s.wr (BGA_RIN k) (leAt b (4 * k) 4)) s

/-- A record of that pack with a Q_max, with its check. -/
def recB (qmax : Nat) : List Byte :=
  let b := leBytes 2 1 ++ [0, 4] ++ leBytes 4 7 ++ leBytes 4 qmax ++ leBytes 4 5000000 ++ leBytes 2 6250 ++ leBytes 2 6200
    ++ leBytes 2 50 ++ leBytes 2 9 ++ leBytes 2 3 ++ [1, 0] ++ leBytes 8 0 ++ leBytes 4 0 ++ leBytes 8 0 ++ leBytes 2 10000
    ++ leBytes 2 0 ++ leBytes 8 0
  b ++ leBytes 4 (crc32 (b ++ State.reset.uidBytes))

/-- The table to be committed, with its last point. -/
def ocvT (last : Nat) : List (Fld × Nat) :=
  (List.range 32).flatMap fun j => [(BGA_OCV_V j, 30000 + 400 * j), (BGA_OCV_SOC j, if j = 31 then last else 322 * j)]

/-- The PMU in ON_VIN with the rails up, and what it holds. -/
def pmuS (f : PmuState → PmuState) (l : List (Fld × Nat)) : State :=
  { st ([(PMU_VINOK, 1), (PMU_PST, 2), (PMU_PACK_EN, 1), (CTF_PERIOD, 800000), (MON_LVL, 0)] ++ l) with
    pmu := f { railsUp := true } }

/-- The PMU in ON_PACK, with more. -/
def packS (l : List (Fld × Nat)) : State := pmuS id ([(PMU_VINOK, 0), (PMU_PST, 3)] ++ l)

/-- The charger in a state. -/
def chgS (c : Nat) : State := pmuS (fun p => { p with charge := some 0 }) [(PMU_CHG_EN, 1), (PMU_PACKOK, 1), (PMU_CHG_ST, c)]

/-- The device with the rails up at a level, and what the monitors hold. -/
def monS (f : MonState → MonState) (l : List (Fld × Nat)) : State :=
  { st ([(PMU_VINOK, 1), (PMU_PST, 2), (CTF_PERIOD, 800000), (PMU_VC_MIN, 50), (PMU_VC_MAX, 70), (PMU_VT_SET, 60),
      (PMU_VT_MIN, 50), (PMU_VT_MAX, 70), (MON_LVL, 0)] ++ l) with pmu := { railsUp := true }, mon := f {} }

/-- The same away from a window boundary. -/
def offWin (s : State) : State := { s with ctf := { s.ctf with ph := 7, seeded := true } }

/-- A margin of `a` millivolts in ten at every site of the rail, and `b` at the sites of the other. -/
def margs (a b : Nat) : List (BitVec 16) :=
  List.replicate 6 (BitVec.ofNat 16 a) ++ List.replicate 6 (BitVec.ofNat 16 b)

/-- All sites at 40.0 °C but the hottest. -/
def temps (n : Nat) : List (BitVec 16) := BitVec.ofNat 16 n :: List.replicate 15 400

/-- Rails up, a start not begun. -/
def preS (l : List (Fld × Nat)) : State := { st ((CTF_PERIOD, 800000) :: l) with pmu := { railsUp := true } }

/-- A running device. -/
def runS (l : List (Fld × Nat)) : State := { preS ([(PMU_WBLK, 0)] ++ l) with start := { begun := true } }

/-- The device running in D0, with tenant 5 and its slot 4, and what the interfaces hold. -/
def hifS (f : HifState → HifState) (l : List (Fld × Nat)) : State :=
  { st ([(MON_LVL, 0), (CTF_PERIOD, 800000), (TNC_TST 5, 1), (SEC_S_OWN 4, 5), (SEC_S_TYPE 4, 3), (SEC_S_USE 4, 0x3F), (ETH_EN, 1),
      (ETH_IP, 9), (UART_EN 0, 1)] ++ l) with
    hif := f {}, sec := { mats := [(4, List.replicate 32 9)] } }

/-- An open session of tenant `tc` on HSP. -/
def sesX (tc : Nat) : Session :=
  { iface := 1, num := 2, tc := tc, slot := 4, gen := 0, nonce := List.replicate 16 3, clk := 0, isOpen := true }

/-- The same, waiting for its proof. -/
def sesW : Session := { sesX 5 with isOpen := false }

/-- An open session on Ethernet. -/
def sesE (seq : Nat) : Session :=
  { sesX 5 with iface := 2, key := List.replicate 16 1, peer := 77, seq := some seq, resp := [1, 2] }

/-- With that session. -/
def hifX (x : Session) (l : List (Fld × Nat)) : State := hifS (fun h => { h with sessions := [x] }) l

/-- A frame of OPEN with a wrong header CRC. -/
def badB : List Byte := [1, 2, 3, 4, 5, 1, 0, 0]

/-- A datagram of a READ with HE_SEQ 7. -/
def ethBody : List Byte := leBytes 4 7 ++ frameOf opRead 2 16 1 []

/-- A UART's state. -/
def uartS (u : Uart) : State := hifS (fun h => { h with uarts := [(0, u)] }) []

/-- Ethernet rings in control SRAM, with a descriptor at the head of both. -/
def ethS (len own : Nat) : State :=
  { hifS id [(ETH_RB 0, 0x8000100), (ETH_RB 2, 0x8000100), (ETH_TXL, 2), (ETH_RXL, 2), (ETH_TXHEAD, 3), (ETH_RXHEAD, 3),
      (ETH_RXBUF, 64), (ETH_APOLL, 1)] with
    ccx := { sram := memStore [] 0x8000130 (leBytes 5 0x8000000 ++ [0] ++ leBytes 2 len ++ [0, BitVec.ofNat 8 own]) } }

theorem witness_CtfTransitionsComplete :
    (∃ (s : State), s.ctfSt = ctfLocked ∧ (s.chan (s.rd CTF_REF)).lost = false) ∧
    (∃ (s : State) (c : Fin 8), 1 ≤ c.val ∧ c.val ≤ 6 ∧ s.ctf.chans.length = 6 ∧ s.rd CTF_REF ≠ c.val) ∧
    (∃ (s : State) (c : Fin 8), 1 ≤ c.val ∧ c.val ≤ 6 ∧ s.rd CTF_REF = c.val ∧ s.ctfSt = ctfFlywheel ∧ ((∀ k ∈
      s.priorities, k = c.val ∨ (s.chan k).qualified = false ∨ (s.chan k).offsetOk = false))) ∧
    (∃ (s : State) (c : Fin 8) (d : Nat), 1 ≤ c.val ∧ c.val ≤ 6 ∧ s.rd CTF_REF = c.val ∧ s.ctfSt = ctfFlywheel ∧
      s.switchTarget = some d ∧ 1 ≤ d ∧ d ≤ 6) ∧
    (∃ (s : State), s.ctfSt = ctfAcquire ∧ 16 ≤ s.ctf.acqCyc) ∧
    (∃ (s : State) (c : Nat), s.ctfSt = ctfLocked ∧ s.on CTF_REVERT_EN = true ∧ s.revertTarget = some c ∧ c ≤ 6) ∧
    (∃ (s : State) (w : RegWrite), s.admitsWrite 0x010 0x0CC w (setBit w.data.toNat 0) = true ∧ s.ctfSt ≠ ctfFree) ∧
    (∃ (s : State) (w : RegWrite), s.admitsWrite 0x010 0x0CC w (setBit w.data.toNat 1) = true) :=
  ⟨⟨ctfS id [(CTF_ST, 2), (CTF_REF, 2)], by decide +kernel⟩,
    ⟨ctfS id [(CTF_ST, 2), (CTF_REF, 2)], 1, by decide +kernel⟩,
    ⟨put State.reset [(CTF_ST, 3), (CTF_REF, 1)], 1, by decide +kernel⟩,
    ⟨ctfS id [(CTF_ST, 3), (CTF_REF, 1)], 1, 2, by decide +kernel⟩,
    ⟨ctfS (fun c => { c with acqCyc := 16 }) [(CTF_ST, 1)], by decide +kernel⟩,
    ⟨ctfS id [(CTF_ST, 2), (CTF_REF, 2), (CTF_REVERT_EN, 1), (CTF_REVERT_CYC, 3)], 1, by decide +kernel⟩,
    ⟨st [(CTF_ST, 2)], wq 0 0x010 0x0CC 1, by decide +kernel⟩,
    ⟨State.reset, wq 0 0x010 0x0CC 2, by decide +kernel⟩⟩

theorem witness_CtfTimekeepingComplete :
    (∃ (s : State) (w : RegWrite), s.admitsWrite 0x010 0x0A4 w w.data.toNat = true ∧ s.ctf.seeded = false ∧
      s.ctf.everLocked = false) ∧
    (∃ (s : State) (w : RegWrite), s.admitsWrite 0x010 0x0A4 w w.data.toNat = true ∧ (s.ctf.seeded = true ∨
      s.ctf.everLocked = true)) ∧
    (∃ (s : State) (r : RegRead), s.admitsRead 0x010 0x040 r = true) ∧
    (∃ (s : State) (r : RegRead), s.admitsRead 0x010 0x0B8 r = true) ∧
    (∃ (s : State) (r : RegRead), s.admitsRead 0x010 0x0C4 r = true) ∧
    (∃ (s : State) (w : RegWrite), s.admitsWrite 0x010 0x0B0 w w.data.toNat = true) ∧
    (∃ (s : State) (v : Nat), s.ctf.utcSet = some v ∧ v < 2 ^ 32) ∧
    (∃ (s : State), s.ctf.xt32 = true) ∧
    (∃ (s : State), s.ctf.xt32 = false) ∧
    (∃ (s : State) (n : Nat), s.ctf.refWait = some n) :=
  ⟨⟨State.reset, wq 0 0x010 0x0A4 7, by decide +kernel⟩,
    ⟨ctfS (fun c => { c with seeded := true }) [], wq 0 0x010 0x0A4 7, by decide +kernel⟩,
    ⟨State.reset, rq 0, by decide +kernel⟩,
    ⟨State.reset, rq 0, by decide +kernel⟩,
    ⟨State.reset, rq 0, by decide +kernel⟩,
    ⟨State.reset, wq 0 0x010 0x0B0 0xFFFFFFFF, by decide +kernel⟩,
    ⟨ctfS (fun c => { c with utcSet := some 0xFFFFFFFF }) [], 0xFFFFFFFF, by decide +kernel⟩,
    ⟨ctfS (fun c => { c with xt32 := true }) [], by decide +kernel⟩,
    ⟨ctfS (fun c => { c with xt32 := false }) [], by decide +kernel⟩,
    ⟨ctfS (fun c => { c with refWait := some 3 }) [], 3, by decide +kernel⟩⟩

theorem witness_SchedulingTableComplete :
    (∃ (s : State) (w : RegWrite), s.admitsWrite 0x011 0x040 w (setBit w.data.toNat 0) = true ∧ s.firstBadEntry = none ∧
      stampNat s.stamp + 1024 ≤ (s.rd CTF_AT_LO + 2 ^ 32 * s.rd CTF_AT_HI) * 65536) ∧
    (∃ (s : State) (w : RegWrite), s.admitsWrite 0x011 0x040 w (setBit w.data.toNat 0) = true ∧ s.firstBadEntry = none ∧
      (s.rd CTF_AT_LO + 2 ^ 32 * s.rd CTF_AT_HI) * 65536 < stampNat s.stamp + 1024) ∧
    (∃ (s : State) (w : RegWrite) (n : _), s.admitsWrite 0x011 0x040 w (setBit w.data.toNat 0) = true ∧ s.firstBadEntry =
      some n) ∧
    (∃ (s : State) (n : Nat), s.ctf.commitAt = some n ∧ s.ctf.seeded = true ∧ n ≤ s.ctf.cyc) ∧
    (∃ (s : State) (n : Fin 256), s.entryActs (s.activeEntry n.val) = true ∧ s.edgePhase (s.activeEntry n.val)
      .assertSignal ≤ s.ctf.ph) ∧
    (∃ (s : State) (n : Fin 256), n.val ∈ s.ctf.asserted ∧ s.edgePhase (s.activeEntry n.val) .releaseSignal ≤ s.ctf.ph) ∧
    (∃ (s : State) (n : Fin 256), s.entryActs (s.activeEntry n.val) = true ∧ entCons (s.activeEntry n.val) = 2 ∧ s.on
      CTF_QAUTO = true ∧ s.edgePhase (s.activeEntry n.val) .openQuiet ≤ s.ctf.ph) ∧
    (∃ (s : State) (n : Fin 256), n.val ∈ s.ctf.quiet ∧ s.edgePhase (s.activeEntry n.val) .closeQuiet ≤ s.ctf.ph) :=
  ⟨⟨st [(CTF_AT_LO, 1)], wq 0 0x011 0x040 1, by decide +kernel⟩,
    ⟨State.reset, wq 0 0x011 0x040 1, by decide +kernel⟩,
    ⟨st [(CTF_SLOT_HI 9, 2 ^ 29)], wq 0 0x011 0x040 1, 9, by decide +kernel⟩,
    ⟨ctfS (fun c => { c with commitAt := some 5, seeded := true, cyc := 5 }) [], 5, by decide +kernel⟩,
    ⟨ctfS (fun c => { c with active := [(255, entW 10 20 1)], seeded := true, ph := 10 }) [(CTF_ST, 2)], 255,
      by decide +kernel⟩,
    ⟨ctfS (fun c => { c with active := [(0, entW 10 20 1)], asserted := [3, 0], ph := 30 }) [], 0, by decide +kernel⟩,
    ⟨ctfS (fun c => { c with active := [(7, entW 10 20 2)], seeded := true, ph := 65535 }) [(CTF_ST, 2), (CTF_QAUTO, 1)],
      7, by decide +kernel⟩,
    ⟨ctfS (fun c => { c with active := [(7, entW 10 20 2)], quiet := [7], ph := 65535 }) [], 7, by decide +kernel⟩⟩

theorem witness_StepRunsFrontCommand :
    (∃ (s : State), s.pending = []) :=
  ⟨State.reset, by decide +kernel⟩

theorem witness_StepKeepsQueueOrder :
    (∃ (s : State) (t : State), step s = .next t) :=
  ⟨{ State.reset with pending := [.loss, .revert] }, { State.reset with pending := [.revert] }, rfl⟩

theorem witness_StepKeepsMemoryForm :
    (∃ (s : State) (t : State), memWf s.mem = true ∧ step s = .next t) :=
  ⟨{ State.reset with mem := [(3, 1)], pending := [.loss] }, { State.reset with mem := [(3, 1)] }, by decide +kernel,
      rfl⟩

theorem witness_ResetLeaves :
    (∃ (page : Fin 1024), RegMap.assigned page.val = true) ∧
    (∃ (page : Fin 1024), RegMap.assigned page.val = true) :=
  ⟨⟨0x100, by decide +kernel⟩,
    ⟨0x140, by decide +kernel⟩⟩


theorem witness_FailingCarryCodeIsNotPerformed :
    (∃ (s : State) (a : Access) (r : Route) (p : Nat), s.route a.addr.toNat = some r ∧ r.page = some p ∧ p < 1024 ∧ (s.pg
      p).stale = false ∧ a.cc ≠ carryCode true a.tc.val (addressA a.addr.toNat a.replay) a.data) :=
  ⟨State.reset, { wa 0 0x060 0x40 5 with cc := 0 }, ⟨some 0x060, 0x40, none, none⟩, 0x060, by decide +kernel⟩

theorem witness_NonOwnerWriteChangesNothing :
    (∃ (s : State) (t : State) (a : Access) (r : Route) (p : Nat) (o : Nat), s.route a.addr.toNat = some r ∧ r.page = some
      p ∧ p ≠ 0x000 ∧ p < 1024 ∧ s.owns ⟨a.port, a.tc.val, p, r.off / 4 * 4, r.slot⟩ = false ∧ exec (.configWrite a) s
      = .next t ∧ 0x40 ≤ o ∧ o < 4096) :=
  ⟨State.reset, State.reset.write anyWrite (wa 5 0x060 0x40 5), wa 5 0x060 0x40 5, ⟨some 0x060, 0x40, none, none⟩,
      0x060, 0x40, by decide +kernel, rfl, by decide, by decide, by decide +kernel,
      (by simp only [exec, execConfigWrite]), by decide, by decide⟩

theorem witness_ReservedRangesAnswer :
    (∃ (p : Nat) (off : Nat), p < 1024 ∧ off < 4096) ∧
    (∃ (t : Nat) (k : Nat) (off : Nat), t < 64 ∧ k < 256 ∧ off < 4096) ∧
    (∃ (a : Nat), ((0x40400000 ≤ a ∧ a < 0x60000000) ∨ 0x64000000 ≤ a)) ∧
    (∃ (s : State) (a : Access), targetOf a.addr.toNat = .nowhere) ∧
    (∃ (s : State) (a : Access), targetOf a.addr.toNat = .nowhere) :=
  ⟨⟨1023, 4095, by decide +kernel⟩,
    ⟨63, 255, 4095, by decide +kernel⟩,
    ⟨0x40400000, by decide +kernel⟩,
    ⟨State.reset, { port := .mgmt, tc := 63, addr := 0xFFFFFFFF }, by decide +kernel⟩,
    ⟨State.reset, { port := .mgmt, tc := 63, addr := 0x64000000 }, by decide +kernel⟩⟩

theorem witness_HeaderCommandsComplete :
    (∃ (s : State) (page : Fin 1024) (w : RegWrite), RegMap.assigned page.val = true ∧ s.admitsWrite page.val 0x14 w
      w.data.toNat = true) ∧
    (∃ (s : State) (page : Fin 1024) (w : RegWrite), RegMap.assigned page.val = true ∧ s.admitsWrite page.val 0x1C w
      w.data.toNat = true) ∧
    (∃ (s : State) (page : Fin 1024) (w : RegWrite), RegMap.assigned page.val = true ∧ s.admitsWrite page.val 0x08 w
      (setBit w.data.toNat 31) = true) ∧
    (∃ (s : State) (page : Fin 1024) (w : RegWrite), page.val ∈ [0x029, 0x030, 0x090, 0x098, 0x0C8, 0x0CC, 0x114] ∧
      s.admitsWrite page.val 0x08 w (setBit w.data.toNat 31) = true) ∧
    (∃ (s : State) (page : Fin 1024), RegMap.assigned page.val = true ∧ s.pageRuns page.val = true ∧ s.integNow page.val ≠
      s.integRef page.val ∧ s.on (STS_INTEGERR page.val) = false) ∧
    (∃ (s : State) (page : Fin 1024), RegMap.assigned page.val = true ∧ s.pageRuns page.val = true ∧ s.integNow page.val =
      s.integRef page.val) ∧
    (∃ (s : State) (page : Fin 1024), s.on (STS_SEALED page.val) = true ∧ s.on (STS_INTEGERR page.val) = true ∧ (s.pg
      page.val).mended = false) :=
  ⟨⟨State.reset, 0x060, wh 1 0x060 0x14 0xFFFFFFFF, by decide +kernel⟩,
    ⟨st [(IRQ_RAW 0x060, 7)], 0x060, wh 1 0x060 0x1C 5, by decide +kernel⟩,
    ⟨State.reset, 0x060, wh 1 0x060 0x08 0x80000000, by decide +kernel⟩,
    ⟨st [(TIN_POL, 0), (BARM_EN, 0), (IRQ_EN 0x090, 5), (TMP_THI, 1)], 0x090, wq 0 0x090 0x08 0x80000000,
      by decide +kernel⟩,
    ⟨State.reset.setPg 0x114 (fun g => { g with upsets := [(0x40, 1)] }), 0x114, by decide +kernel⟩,
    ⟨State.reset, 0x114, by decide +kernel⟩,
    ⟨st [(STS_SEALED 0x060, 1), (STS_INTEGERR 0x060, 1)], 0x060, by decide +kernel⟩⟩

theorem witness_LockChallengeProtocol :
    (∃ (s : State) (page : Fin 1024) (r : RegRead), RegMap.assigned page.val = true ∧ s.admitsRead page.val 0x20 r = true
      ∧ s.rd (OWN_TC page.val) = r.tc.val ∧ s.on SEC_RBGERR = false) ∧
    (∃ (s : State) (page : Fin 1024) (w : RegWrite) (c : Challenge), RegMap.assigned page.val = true ∧ s.admitsWrite
      page.val 0x20 w w.data.toNat = true ∧ (s.pg page.val).chal = some c ∧ (c.tc = w.tc.val ∧ s.now ≤ c.clk + 480 ∧
      bit w.data.toNat 31 = true ∧ bits w.data.toNat 0 16 = c.value ^^^ page.val ∧ (s.on (LOCK_SEAL page.val) = false
      ∨ bit w.data.toNat 30 = true))) ∧
    (∃ (s : State) (page : Fin 1024) (w : RegWrite) (c : Challenge), RegMap.assigned page.val = true ∧ s.admitsWrite
      page.val 0x20 w w.data.toNat = true ∧ (s.pg page.val).chal = some c ∧ (c.tc = w.tc.val ∧ c.clk + 480 < s.now ∧
      bit w.data.toNat 31 = true ∧ bits w.data.toNat 0 16 = c.value ^^^ page.val ∧ s.on (LOCK_SEAL page.val) = false)) ∧
    (∃ (s : State) (page : Fin 1024) (w : RegWrite) (c : Challenge), RegMap.assigned page.val = true ∧ s.admitsWrite
      page.val 0x20 w w.data.toNat = true ∧ (s.pg page.val).chal = some c ∧ (bit w.data.toNat 31 = false ∨ bits
      w.data.toNat 0 16 ≠ c.value ^^^ page.val) ∧ s.on (LOCK_SEAL page.val) = false) ∧
    (∃ (s : State) (page : Fin 1024) (w : RegWrite), RegMap.assigned page.val = true ∧ s.admitsWrite page.val 0x20 w
      w.data.toNat = true ∧ (s.pg page.val).chal = none) :=
  ⟨⟨State.reset, 0x060, rq 1, by decide +kernel⟩,
    ⟨lockS 480, 0x060, wh 1 0x060 0x20 (lockW true), ⟨0x1234, 1, 0⟩, by decide +kernel⟩,
    ⟨lockS 481, 0x060, wh 1 0x060 0x20 (lockW true), ⟨0x1234, 1, 0⟩, by decide +kernel⟩,
    ⟨lockS 5, 0x060, wh 1 0x060 0x20 (lockW true + 1), ⟨0x1234, 1, 0⟩, by decide +kernel⟩,
    ⟨State.reset, 0x060, wh 1 0x060 0x20 (lockW true), by decide +kernel⟩⟩

theorem witness_ReadClearThenReplay :
    (∃ (s : State) (k : Fin 8) (r : RegRead), s.admitsRead 0x114 (0x50 + 4 * k.val) r = true ∧ s.rd (OWN_TC 0x114) =
      r.tc.val) :=
  ⟨st [(TIN_CNT 7, 0xFFFF), (TIN_CNT 1, 3)], 7, rq 0, by decide +kernel⟩

theorem witness_TenantStatesComplete :
    (∃ (s : State) (w : RegWrite), s.admitsWrite 0x002 0x050 w (putBits w.data.toNat 8 3 1) = true ∧ s.on TNC_T_BUSY =
      false ∧ 2 ≤ bits w.data.toNat 0 6 ∧ s.tenant (bits w.data.toNat 0 6) = tenOff) ∧
    (∃ (s : State) (w : RegWrite), s.admitsWrite 0x002 0x050 w (putBits w.data.toNat 8 3 2) = true ∧ s.on TNC_T_BUSY =
      false ∧ 2 ≤ bits w.data.toNat 0 6 ∧ s.tenant (bits w.data.toNat 0 6) = tenActive) ∧
    (∃ (s : State) (w : RegWrite), s.admitsWrite 0x002 0x050 w (putBits w.data.toNat 8 3 3) = true ∧ s.on TNC_T_BUSY =
      false ∧ 2 ≤ bits w.data.toNat 0 6 ∧ s.tenant (bits w.data.toNat 0 6) = tenSuspended) ∧
    (∃ (s : State) (w : RegWrite), s.admitsWrite 0x002 0x050 w (putBits w.data.toNat 8 3 4) = true ∧ s.on TNC_T_BUSY =
      false ∧ 2 ≤ bits w.data.toNat 0 6 ∧ (s.tenant (bits w.data.toNat 0 6) = tenActive ∨ s.tenant (bits w.data.toNat
      0 6) = tenSuspended)) ∧
    (∃ (s : State) (w : RegWrite), s.admitsWrite 0x002 0x050 w (putBits w.data.toNat 8 3 5) = true ∧ s.on TNC_T_BUSY =
      false ∧ 2 ≤ bits w.data.toNat 0 6 ∧ (s.tenant (bits w.data.toNat 0 6) = tenActive ∨ s.tenant (bits w.data.toNat
      0 6) = tenSuspended)) ∧
    (∃ (s : State) (tenant : Fin 64) (w : RegWrite), s.admitsWrite (0x300 + tenant.val) 0x044 w (setBit w.data.toNat 0) =
      true ∧ 2 ≤ tenant.val ∧ s.tenant tenant.val ≠ tenResetting) ∧
    (∃ (s : State) (tenant : Fin 64) (w : RegWrite), s.admitsWrite (0x300 + tenant.val) 0x044 w (setBit w.data.toNat 0) =
      true ∧ 2 ≤ tenant.val ∧ s.tenant tenant.val = tenResetting) ∧
    (∃ (s : State) (tenant : Fin 64) (w : RegWrite), s.admitsWrite (0x300 + tenant.val) 0x044 w (setBit w.data.toNat 0) =
      true ∧ tenant.val < 2) ∧
    (∃ (s : State) (tenant : Fin 64) (r : TenantReset), s.tnc.resets.find? (·.tc == tenant.val) = some r ∧ s.itemRuns
      tenant.val = false ∧ r.full = false ∧ r.back < 4) ∧
    (∃ (s : State) (tenant : Fin 64) (r : TenantReset) (c : _), s.tnc.resets.find? (·.tc == tenant.val) = some r ∧
      s.itemRuns tenant.val = false ∧ r.full = true ∧ r.code = some c ∧ s.revokeRuns tenant.val = false) ∧
    (∃ (s : State) (tenant : Fin 64) (r : TenantReset), s.tnc.resets.find? (·.tc == tenant.val) = some r ∧ s.itemRuns
      tenant.val = false ∧ r.full = true ∧ r.code = none) :=
  ⟨⟨tenS [], wq 0 0x002 0x050 319, by decide +kernel⟩,
    ⟨tenS [], wq 0 0x002 0x050 517, by decide +kernel⟩,
    ⟨tenS [], wq 0 0x002 0x050 774, by decide +kernel⟩,
    ⟨tenS [], wq 0 0x002 0x050 1029, by decide +kernel⟩,
    ⟨tenS [], wq 0 0x002 0x050 1286, by decide +kernel⟩,
    ⟨tenS [], 5, wq 5 0x305 0x044 1, by decide +kernel⟩,
    ⟨tenS [], 7, wq 7 0x307 0x044 1, by decide +kernel⟩,
    ⟨tenS [], 0, wq 0 0x300 0x044 1, by decide +kernel⟩,
    ⟨resetS ⟨7, false, 2, true, none⟩, 7, ⟨7, false, 2, true, none⟩, by decide +kernel⟩,
    ⟨resetS ⟨7, true, 1, false, some .ok⟩, 7, ⟨7, true, 1, false, some .ok⟩, Status.ok, by decide +kernel⟩,
    ⟨resetS ⟨7, true, 1, false, none⟩, 7, ⟨7, true, 1, false, none⟩, by decide +kernel⟩⟩

theorem witness_GrantsComplete :
    (∃ (s : State) (w : RegWrite), s.admitsWrite 0x002 0x05C w (setBit w.data.toNat 12) = true ∧ s.on TNC_G_BUSY = false ∧
      bits w.data.toNat 8 4 = 1 ∧ 2 ≤ bits w.data.toNat 0 6 ∧ s.tenant (bits w.data.toNat 0 6) = tenActive ∧
      RegMap.grantable (s.rd TNC_G_IDX) = true ∧ s.on (STS_SEALED (s.rd TNC_G_IDX)) = false ∧ s.rd (OWN_TC (s.rd
      TNC_G_IDX)) = RegMap.homeOwner (s.rd TNC_G_IDX)) ∧
    (∃ (s : State) (w : RegWrite), s.admitsWrite 0x002 0x05C w (setBit w.data.toNat 12) = true ∧ s.on TNC_G_BUSY = false ∧
      bits w.data.toNat 8 4 = 2 ∧ 1 ≤ bits w.data.toNat 0 6 ∧ s.tenant (bits w.data.toNat 0 6) = tenActive ∧ 1 ≤ s.rd
      TNC_G_IDX ∧ s.rd TNC_G_IDX < 32 ∧ s.slotOwn (s.rd TNC_G_IDX) = 0 ∧ s.slotType (s.rd TNC_G_IDX) = 0) ∧
    (∃ (s : State) (w : RegWrite), s.admitsWrite 0x002 0x05C w (setBit w.data.toNat 12) = true ∧ s.on TNC_G_BUSY = false ∧
      bits w.data.toNat 8 4 = 3 ∧ 1 ≤ bits w.data.toNat 0 6 ∧ s.tenant (bits w.data.toNat 0 6) = tenActive ∧ 16 ≤ s.rd
      TNC_G_IDX ∧ s.rd TNC_G_IDX < 64 ∧ s.unitState (s.rd TNC_G_IDX) = unitHome) ∧
    (∃ (s : State) (w : RegWrite), s.admitsWrite 0x002 0x05C w (setBit w.data.toNat 12) = true ∧ s.on TNC_G_BUSY = false ∧
      bits w.data.toNat 8 4 = 4 ∧ 2 ≤ bits w.data.toNat 0 6 ∧ s.tenant (bits w.data.toNat 0 6) = tenActive ∧ s.rd
      TNC_G_IDX < 128 ∧ s.epOwner (s.rd TNC_G_IDX) = 0) ∧
    (∃ (s : State) (w : RegWrite), s.admitsWrite 0x002 0x05C w (setBit w.data.toNat 12) = true ∧ s.on TNC_G_BUSY = false ∧
      s.moveCheck true (bits w.data.toNat 8 4) (s.rd TNC_G_IDX) (bits w.data.toNat 0 6) ≠ .ok) ∧
    (∃ (s : State) (w : RegWrite), s.admitsWrite 0x002 0x05C w (clearBit w.data.toNat 12) = true ∧ s.on TNC_G_BUSY = false
      ∧ 2 ≤ bits w.data.toNat 0 6 ∧ s.tenant (bits w.data.toNat 0 6) = tenActive ∧ bits w.data.toNat 8 4 = 1 ∧
      RegMap.grantable (s.rd TNC_G_IDX) = true ∧ s.rd (OWN_TC (s.rd TNC_G_IDX)) = bits w.data.toNat 0 6) ∧
    (∃ (s : State) (w : RegWrite), s.admitsWrite 0x002 0x05C w (clearBit w.data.toNat 12) = true ∧ s.on TNC_G_BUSY = false
      ∧ 2 ≤ bits w.data.toNat 0 6 ∧ s.tenant (bits w.data.toNat 0 6) = tenActive ∧ bits w.data.toNat 8 4 = 2 ∧ 1 ≤
      s.rd TNC_G_IDX ∧ s.rd TNC_G_IDX < 32 ∧ s.slotOwn (s.rd TNC_G_IDX) = bits w.data.toNat 0 6) ∧
    (∃ (s : State) (w : RegWrite), s.admitsWrite 0x002 0x05C w (clearBit w.data.toNat 12) = true ∧ s.on TNC_G_BUSY = false
      ∧ 2 ≤ bits w.data.toNat 0 6 ∧ s.tenant (bits w.data.toNat 0 6) = tenActive ∧ bits w.data.toNat 8 4 = 4 ∧ s.rd
      TNC_G_IDX < 128 ∧ s.epOwner (s.rd TNC_G_IDX) = bits w.data.toNat 0 6) ∧
    (∃ (s : State) (w : RegWrite), s.admitsWrite 0x004 0x044 w w.data.toNat = true ∧ 6 ≤ s.rd TNC_AM_SLOT ∧
      RegMap.assigned (bits w.data.toNat 0 10) = true) :=
  ⟨⟨tenS [(TNC_G_IDX, 0x060), (LOCK_HELD 0x060, 1), (OWN_GEN 0x060, 255)], wq 0 0x002 0x05C 4357, by decide +kernel⟩,
    ⟨tenS [(TNC_G_IDX, 31)], wq 0 0x002 0x05C 4609, by decide +kernel⟩,
    ⟨tenS [(TNC_G_IDX, 16)], wq 0 0x002 0x05C 4865, by decide +kernel⟩,
    ⟨tenS [(TNC_G_IDX, 127)], wq 0 0x002 0x05C 5125, by decide +kernel⟩,
    ⟨tenS [(TNC_G_IDX, 0x060)], wq 0 0x002 0x05C 4358, by decide +kernel⟩,
    ⟨tenS [(TNC_G_IDX, 0x060), (OWN_TC 0x060, 5)], wq 0 0x002 0x05C 261, by decide +kernel⟩,
    ⟨tenS [(TNC_G_IDX, 1), (SEC_S_OWN 1, 5)], wq 0 0x002 0x05C 517, by decide +kernel⟩,
    ⟨(tenS [(TNC_G_IDX, 127)]).setPlm (fun p => { p with owner := [(127, 5)] }), wq 0 0x002 0x05C 1029, by decide +kernel⟩,
    ⟨st [(TNC_AM_SLOT, 6), (TNC_AM_TC, 63)], wq 0 0x004 0x044 (2 ^ 31 + 0x060), by decide +kernel⟩⟩

theorem witness_SealComplete :
    (∃ (s : State) (w : RegWrite), s.admitsWrite 0x002 0x070 w (setBit w.data.toNat 0) = true ∧ bits w.data.toNat 1 2 = 0
      ∧ s.on TNC_SEALED = false ∧ s.on TNC_S_BUSY = false ∧ ((∀ p ∈ s.tc01Pages, s.on (STS_INTEGERR p) = false)) ∧
      s.celBlocked = false) ∧
    (∃ (s : State) (w : RegWrite), s.admitsWrite 0x002 0x070 w (setBit w.data.toNat 0) = true ∧ bits w.data.toNat 1 2 = 0
      ∧ s.on TNC_SEALED = true) ∧
    (∃ (s : State) (d : Nat), s.tnc.sealing = some d ∧ s.celBlocked = false) ∧
    (∃ (s : State) (w : RegWrite), s.admitsWrite 0x002 0x070 w (setBit w.data.toNat 1) = true ∧ bit w.data.toNat 0 = false
      ∧ bit w.data.toNat 2 = false) ∧
    (∃ (s : State) (w : RegWrite) (a : Nat), s.admitsWrite 0x002 0x070 w (setBit w.data.toNat 2) = true ∧ bits
      w.data.toNat 0 2 = 0 ∧ s.tnc.armed = some a ∧ s.ticks ≤ a + 65536 ∧ s.on TNC_SEALED = true) ∧
    (∃ (s : State) (w : RegWrite) (a : Nat), s.admitsWrite 0x002 0x070 w (setBit w.data.toNat 2) = true ∧ bits
      w.data.toNat 0 2 = 0 ∧ s.tnc.armed = some a ∧ a + 65536 < s.ticks) ∧
    (∃ (s : State) (a : Nat), s.tnc.armed = some a) :=
  ⟨⟨st [(PMU_WBLK, 0)], wq 0 0x002 0x070 1, by decide +kernel⟩,
    ⟨st [(TNC_SEALED, 1)], wq 0 0x002 0x070 1, by decide +kernel⟩,
    ⟨tncS (fun x => { x with sealing := some 77 }) [(TNC_S_BUSY, 1), (PMU_WBLK, 0)], 77, by decide +kernel⟩,
    ⟨State.reset, wq 0 0x002 0x070 2, by decide +kernel⟩,
    ⟨{ tncS (fun x => { x with armed := some 0 }) [(TNC_SEALED, 1)] with ticks := 65536 }, wq 0 0x002 0x070 4, 0,
      by decide +kernel⟩,
    ⟨{ tncS (fun x => { x with armed := some 0 }) [(TNC_SEALED, 1)] with ticks := 65537 }, wq 0 0x002 0x070 4, 0,
      by decide +kernel⟩,
    ⟨{ tncS (fun x => { x with armed := some 0 }) [] with ticks := 65536 }, 0, by decide +kernel⟩⟩

theorem witness_QuotaPeriodsComplete :
    (∃ (s : State) (r : Fin 4), r.val ≠ 0 ∧ s.periodOf (r.val + 1) ≠ s.stamp.cyc - s.stamp.cyc % 64 + 1) ∧
    (∃ (s : State), s.periodOf 1 ≠ s.windowFirst + 1) ∧
    (∃ (s : State) (r : Fin 4), r.val ≠ 0 ∧ s.periodOf (r.val + 1) = s.stamp.cyc - s.stamp.cyc % 64 + 1) :=
  ⟨⟨State.reset, 3, by decide +kernel⟩,
    ⟨State.reset, by decide +kernel⟩,
    ⟨tncS (fun x => { x with period := [(2, 1)] }) [], 1, by decide +kernel⟩⟩

theorem witness_AcsCalibrationComplete :
    (∃ (s : State) (w : RegWrite), s.admitsWrite 0x029 0x048 w (setBit w.data.toNat 0) = true ∧ bits w.data.toNat 1 2 = 0
      ∧ s.acs.cal = none ∧ s.rd ACS_CAL_NCYC ≠ 0) ∧
    (∃ (s : State) (w : RegWrite), s.admitsWrite 0x029 0x048 w (setBit w.data.toNat 0) = true ∧ bits w.data.toNat 1 2 = 0
      ∧ s.acs.cal = none ∧ s.rd ACS_CAL_NCYC = 0) ∧
    (∃ (s : State) (w : RegWrite) (k : _), s.admitsWrite 0x029 0x048 w (setBit w.data.toNat 0) = true ∧ bits w.data.toNat
      1 2 = 0 ∧ s.acs.cal = some k) ∧
    (∃ (s : State) (w : RegWrite), s.admitsWrite 0x029 0x048 w (setBit w.data.toNat 1) = true ∧ bit w.data.toNat 0 = false
      ∧ bit w.data.toNat 2 = false ∧ s.acs.cal = none ∧ s.rd ACS_CAL_NCYC ≠ 0) ∧
    (∃ (s : State) (w : RegWrite) (k : _), s.admitsWrite 0x029 0x048 w (setBit w.data.toNat 1) = true ∧ bit w.data.toNat 0
      = false ∧ bit w.data.toNat 2 = false ∧ s.acs.cal = some k) ∧
    (∃ (s : State) (w : RegWrite) (k : CalStep), s.admitsWrite 0x029 0x048 w (setBit w.data.toNat 2) = true ∧ bits
      w.data.toNat 0 2 = 0 ∧ s.acs.cal = some k) ∧
    (∃ (s : State) (k : CalStep), s.acs.cal = some k ∧ k.full = false ∧ k.ncyc ≤ k.got ∧ k.abort = false ∧ k.conv < 72 ∧
      pairedBy s.pairing k.conv = none ∧ k.a.n ≠ 0 ∧ (divRound k.a.sum k.a.n).natAbs ≤ 524288) ∧
    (∃ (s : State) (k : CalStep), s.acs.cal = some k ∧ k.full = false ∧ k.ncyc ≤ k.got ∧ k.abort = false ∧ k.conv < 72 ∧
      pairedBy s.pairing k.conv = none ∧ k.a.n ≠ 0 ∧ 524288 < (divRound k.a.sum k.a.n).natAbs) ∧
    (∃ (s : State) (k : CalStep) (g : Nat), g = calGain k.a (s.rd ACS_CAL_TGT) (invH (s.on (ACS_INT_EN (bankOf k.conv)
      (posOf k.conv))) 1024 (10 + s.rd (ACS_ILEAK (bankOf k.conv) (posOf k.conv))) (s.rd CTF_PERIOD)) ∧ s.acs.cal =
      some k ∧ k.full = true ∧ k.ncyc ≤ k.got ∧ k.abort = false ∧ k.conv < 72 ∧ pairedBy s.pairing k.conv = none ∧
      k.clip = false ∧ s.rd ACS_CAL_TGT ≤ 7340032 ∧ k.a.sq ≠ 0 ∧ gainOk g = true) ∧
    (∃ (s : State) (k : CalStep), s.acs.cal = some k ∧ k.full = true ∧ k.got < k.ncyc ∧ k.ncyc + 64 ≤ k.elapsed) :=
  ⟨⟨st [(ACS_CAL_NCYC, 4)], wh 1 0x029 0x048 1, by decide +kernel⟩,
    ⟨st [(ACS_CAL_NCYC, 0)], wh 1 0x029 0x048 1, by decide +kernel⟩,
    ⟨acsS (fun a => { a with cal := some (calK false 0 0) }) [], wh 1 0x029 0x048 1, calK false 0 0, by decide +kernel⟩,
    ⟨st [(ACS_CAL_NCYC, 4)], wh 1 0x029 0x048 2, by decide +kernel⟩,
    ⟨acsS (fun a => { a with cal := some (calK false 0 0) }) [], wh 1 0x029 0x048 2, calK false 0 0, by decide +kernel⟩,
    ⟨acsS (fun a => { a with cal := some (calK true 0 0) }) [], wh 1 0x029 0x048 4, calK true 0 0, by decide +kernel⟩,
    ⟨acsS (fun a => { a with cal := some (calK false (4096 * 524288) 0) }) [], calK false (4096 * 524288) 0,
      by decide +kernel⟩,
    ⟨acsS (fun a => { a with cal := some (calK false (4096 * 524289) 0) }) [], calK false (4096 * 524289) 0,
      by decide +kernel⟩,
    ⟨acsS (fun a => { a with cal := some (calK true 0 (4096 * 1000000 ^ 2)) }) [(ACS_CAL_TGT, 1000000)], calK true 0 (4096
      * 1000000 ^ 2), 4194304, (by first | with_reducible rfl | decide +kernel), by decide +kernel⟩,
    ⟨acsS (fun a => { a with cal := some ({ calK true 0 0 with got := 3, elapsed := 68 }) }) [],
      { calK true 0 0 with got := 3, elapsed := 68 }, by decide +kernel⟩⟩

theorem witness_SamplesComplete :
    (∃ (s : State) (w : SampleIn), s.pageRuns (0x020 + bankOf w.conv.val) = false) ∧
    (∃ (s : State) (w : SampleIn), w.conv.val < 64 ∧ s.pageRuns (0x020 + bankOf w.conv.val) = true ∧ s.on (ACS_EN (bankOf
      w.conv.val) (posOf w.conv.val)) = true ∧ partnerOf s.pairing w.conv.val = none ∧ ((∀ l, (s.conv w.conv.val).last
      = some l → l + 62 ≤ s.ticks)) ∧ s.on (ACS_INT_EN (bankOf w.conv.val) (posOf w.conv.val)) = false ∧ w.errCtf = 0
      ∧ w.errMte = 0 ∧ w.errPqe = 0) ∧
    (∃ (s : State) (ch : Nat), s.on ACS_CONT_EN = true ∧ s.rd ACS_CONT_PER ≤ s.acs.contCyc ∧ s.acs.testing = none ∧
      s.pageRuns 0x020 = true ∧ ((((List.range 64).map fun k => (s.acs.contNext + 1 + k) % 64).filter
      s.contMasked).find? s.contTestable) = some ch) ∧
    (∃ (s : State) (ch : Nat), ch < 64 ∧ s.acs.testing = some ch ∧ s.acs.testDone = true ∧ (s.conv ch).cal1.n ≠ 0 ∧
      (s.conv ch).cal2.n ≠ 0) :=
  ⟨⟨st [(MON_LVL, 3)], { conv := 63, pos := 0, raw := 5, clip := false }, by decide +kernel⟩,
    ⟨{ st [(ACS_EN 7 7, 1), (ACS_OFS 7 7, 3), (ACS_GAIN 7 7, 0x400000)] with ticks := 62, acs := { convs := [(63, { last := some 0 })] } },
      { conv := 63, pos := 1023, raw := 0x800000, clip := true }, by decide +kernel⟩,
    ⟨acsS (fun a => { a with contCyc := 100 }) [(ACS_CONT_EN, 1), (ACS_CONT_PER, 100), (ACS_CONT_MLO, 0x20)], 5,
      by decide +kernel⟩,
    ⟨acsS
      (fun a => { a with testing := some 63, testDone := true, convs := [(63, { cal1 := ⟨512, 51200, 0⟩, cal2 := ⟨512, 512, 0⟩ })] })
      [], 63, by decide +kernel⟩⟩

theorem witness_MetrologyCloseComplete :
    (∃ (s : State), s.mte.due = none) ∧
    (∃ (s : State) (e : CycleEnd) (ups : List AccUpset), s.mte.due = some e) ∧
    (∃ (s : State) (e : CycleEnd) (ups : List AccUpset), s.mte.due = some e ∧ e.opening.sealed = false) ∧
    (∃ (s : State) (e : CycleEnd), s.mte.due = some e ∧ e.opening.sealed = true ∧ e.measured = true ∧ s.acc.frozen =
      false) :=
  ⟨⟨State.reset, by decide +kernel⟩,
    ⟨mteS true true, cycEnd true, [⟨false, 3, 2, 1⟩], by decide +kernel⟩,
    ⟨mteS false true, cycEnd false, [], by decide +kernel⟩,
    ⟨mteS true true, cycEnd true, by decide +kernel⟩⟩

theorem witness_AccumulatorConservesEnergy :
    (∃ (s : State) (ch : Nat) (q : Nat) (e : Nat), ch < 64 ∧ q < 8) ∧
    (∃ (s : State) (ch : Nat) (q : Nat) (e : Nat) (r : Nat), ch < 64 ∧ q < 8 ∧ r < 8 ∧ r ≠ q) ∧
    (∃ (s : State) (ch : Nat) (q : Nat) (e : Nat) (r : Nat), ch < 64 ∧ q < 8 ∧ r < 8 ∧ r ≠ q) ∧
    (∃ (s : State) (ch : Nat) (q : Nat) (e : Nat), ch < 64 ∧ q < 8 ∧ s.blockSum false ch = s.accWord false ch 8) :=
  ⟨⟨State.reset, 63, 7, 2 ^ 81 - 1, by decide +kernel⟩,
    ⟨State.reset, 63, 7, 65537, 0, by decide +kernel⟩,
    ⟨State.reset, 63, 0, 65537, 7, by decide +kernel⟩,
    ⟨State.reset, 63, 7, 65537 * 65536, by decide +kernel⟩⟩

theorem witness_BlockReadsComplete :
    (∃ (s : State) (ch : Fin 72) (r : RegRead), ch.val < 64 ∧ s.admitsRead (0x031 + ch.val / 8) (0x140 + ch.val % 8 * 128)
      r = true) ∧
    (∃ (s : State) (ch : Fin 72) (r : RegRead), 64 ≤ ch.val ∧ s.admitsRead 0x039 (0x120 + (ch.val - 64) * 64) r = true) ∧
    (∃ (s : State) (i : Fin 256) (r : RegRead), i.val < 64 ∧ s.admitsRead (0x040 + i.val / 8) (0x148 + i.val % 8 * 128) r
      = true) ∧
    (∃ (s : State) (i : Fin 256) (r : RegRead), s.admitsRead (0x140 + i.val / 4) (0x190 + i.val % 4 * 256) r = true) :=
  ⟨⟨State.reset, 63, rq 1, by decide +kernel⟩,
    ⟨State.reset, 71, rq 1, by decide +kernel⟩,
    ⟨State.reset, 63, rq 1, by decide +kernel⟩,
    ⟨st [(TNC_TST 63, 1)], 255, rq 63, by decide +kernel⟩⟩

theorem witness_PulsesComplete :
    (∃ (s : State) (m : Fin 256) (w : RegWrite), s.admitsWrite (0x140 + m.val / 4) (0x198 + m.val % 4 * 256) w (setBit
      w.data.toNat 8) = true ∧ bits w.data.toNat 0 3 ≤ 4) ∧
    (∃ (s : State) (len : Nat), s.acc.spillDue = some len) ∧
    (∃ (s : State) (k : Fin 16), s.plsConst k.val ≠ 0 ∧ s.plsPending k.val ≠ 0 ∧ s.on (PLS_ACT k.val) = false ∧ s.pageRuns
      (0x060 + k.val) = true) ∧
    (∃ (s : State) (k : Fin 16), s.on (PLS_ACT k.val) = true) ∧
    (∃ (s : State) (k : Fin 16) (level : Bool), level = (s.on (PLS_ACT k.val) != s.on (PLS_POL k.val)) ∧ k.val ∈
      s.acc.edges ∧ cellAt 0 k.val s.acc.rbRun = 0) ∧
    (∃ (s : State) (k : Fin 16) (level : Bool), k.val ∈ s.acc.edges ∧ level ≠ (s.on (PLS_ACT k.val) != s.on (PLS_POL
      k.val))) ∧
    (∃ (s : State) (k : Fin 16) (level : Bool), level = (s.on (PLS_ACT k.val) != s.on (PLS_POL k.val)) ∧ k.val ∈
      s.acc.edges ∧ cellAt 0 k.val s.acc.rbRun ≠ 0) :=
  ⟨⟨st [], 7, wh 1 0x141 (0x198 + 768) (256 + 4), by decide +kernel⟩,
    ⟨{ State.reset with acc := { spillDue := some 960000, incCh := [(0, 5)] } }, 960000, by decide +kernel⟩,
    ⟨plsS 1000 id [], 15, by decide +kernel⟩,
    ⟨plsS 5 id [(PLS_ACT 15, 1)], 15, by decide +kernel⟩,
    ⟨plsS 5 (fun a => { a with edges := [15, 3] }) [], 15, false, (by first | with_reducible rfl | decide +kernel),
      by decide +kernel⟩,
    ⟨plsS 5 (fun a => { a with edges := [15, 3] }) [], 15, true, by decide +kernel⟩,
    ⟨plsS 5 (fun a => { a with edges := [15], rbRun := [(15, 8)] }) [], 15, false,
      (by first | with_reducible rfl | decide +kernel), by decide +kernel⟩⟩

theorem witness_PowerQualityComplete :
    (∃ (s : State), s.pqe.due = 1 ∧ s.pqeRuns = true) ∧
    (∃ (s : State), s.pqe.due = 2 ∧ s.pqeRuns = true) ∧
    (∃ (s : State) (c : Nat) (v : VSense), s.pqeRuns = true ∧ 1 ≤ c ∧ c ≤ 6 ∧ s.pqe.vs = [(c, v)] ∧ s.verdict c = vsLow ∧
      2 * s.cfg PQE_CLS_CYC ≤ v.half ∧ v.seen = false) ∧
    (∃ (s : State) (b : PqeBlock), s.pqe.ended = some b ∧ s.pqeRuns = true) ∧
    (∃ (s : State) (r : RegRead), s.admitsRead 0x070 0x06C r = true) :=
  ⟨⟨pqeS (fun p => { p with due := 1 }) [(MTE_BUS1_MODE, 1)], by decide +kernel⟩,
    ⟨pqeS (fun p => { p with due := 2 }) [], by decide +kernel⟩,
    ⟨pqeS (fun p => { p with vs := [(6, { half := 20 })] }) [(PQE_VSV, 1 * 2 ^ 20), (PQE_CLS_CYC, 10)], 6, { half := 20 },
      by decide +kernel⟩,
    ⟨pqeS (fun p => { p with ended := some { cyc := 50 } }) [], { cyc := 50 }, by decide +kernel⟩,
    ⟨State.reset, rq 0, by decide +kernel⟩⟩

theorem witness_TilesComplete :
    (∃ (s : State) (e : Fin 32) (x : SpEntry), s.pageRuns 0x080 = true ∧ s.clusterGated (e.val / 4) = false ∧ s.drains
      (e.val / 4) = false ∧ ((∀ y ∈ s.tun.staged, y.1 ≠ e.val)) ∧ ((∀ y ∈ s.tun.sparge, deadlinePassed s.stamp.cyc
      (spDlc y.word.toNat) = false)) ∧ ((∀ y ∈ s.tun.staged, deadlinePassed s.stamp.cyc (spDlc y.2.word.toNat) =
      false)) ∧ ((∀ y ∈ s.tun.sparge, spOp y.word.toNat = 3 → ∀ k : Nat, k < 8 → s.eligible k y = false)) ∧
      (s.tun.sparge.find? fun y => spOp y.word.toNat != 3 && s.eligible (e.val / 4) y) = some x ∧ s.entryStop (e.val /
      4) x.word.toNat (runsAlt4 x.word.toNat s.level) = none) ∧
    (∃ (s : State) (e : Fin 32) (ticks : BitVec 32) (n : Nat) (k : Nat) (x : RunTile), s.tun.run.find? (·.1 == e.val) =
      some (k, x) ∧ s.clusterGated (e.val / 4) = false) ∧
    (∃ (s : State) (e : Fin 32) (ticks : BitVec 32) (n : Nat) (k : Nat) (a : BitVec 40) (x : RunTile), s.tun.run.find?
      (·.1 == e.val) = some (k, x) ∧ s.clusterGated (e.val / 4) = false) ∧
    (∃ (s : State) (k : Fin 8) (w : RegWrite), s.admitsWrite (0x081 + k.val) 0x05C w (setBit w.data.toNat 0) = true) :=
  ⟨⟨tunS (fun x => { x with sparge := [copyE] }) [], 31, copyE, by decide +kernel⟩,
    ⟨tunS (fun x => { x with run := [(31, ⟨copyE, 0, false⟩)] }) [], 31, 100, 0, 31, ⟨copyE, 0, false⟩, by decide +kernel⟩,
    ⟨tunS (fun x => { x with run := [(31, ⟨copyE, 0, false⟩)] }) [], 31, 100, 0, 31, 0xFFFFFFFFFF, ⟨copyE, 0, false⟩,
      by decide +kernel⟩,
    ⟨st [(MON_LVL, 0), (TUN_RESV, 0x80)], 7, wq 0 0x088 0x05C 1, by decide +kernel⟩⟩

theorem witness_BurstsComplete :
    (∃ (s : State) (w : RegWrite), s.admitsWrite 0x080 0x074 w (setBit w.data.toNat 0) = true ∧ s.on TUN_BST_BUSY = true) ∧
    (∃ (s : State) (w : RegWrite), s.admitsWrite 0x080 0x074 w (setBit w.data.toNat 0) = true ∧ s.on TUN_BST_BUSY = false
      ∧ 4 * (bitsSet (s.rd TUN_BST_CLM) 8).length * ceilDiv (s.rd TUN_BST_REP * s.rd TUN_BST_LEN) 1024 ≤ s.quotaLeft 1
      0 ∧ stampNat s.stamp + s.rd TUN_BST_LEAD + 64 ≤ s.rd64 TUN_BST_AT_LO TUN_BST_AT_HI) ∧
    (∃ (s : State) (w : RegWrite), s.admitsWrite 0x080 0x074 w (setBit w.data.toNat 0) = true ∧ s.on TUN_BST_BUSY = false
      ∧ 4 * (bitsSet (s.rd TUN_BST_CLM) 8).length * ceilDiv (s.rd TUN_BST_REP * s.rd TUN_BST_LEN) 1024 ≤ s.quotaLeft 1
      0 ∧ s.rd64 TUN_BST_AT_LO TUN_BST_AT_HI < stampNat s.stamp + s.rd TUN_BST_LEAD + 64) ∧
    (∃ (s : State) (b : Burst), s.tun.burst = some b ∧ b.phase = 0) ∧
    (∃ (s : State) (b : Burst), s.tun.burst = some b ∧ b.phase = 1 ∧ ((b.done ≠ 0 ∨ ∀ k : Nat, k < 8 → bit b.clm k = false
      ∨ s.clusterBusy k = false)) ∧ s.quietGate = false) ∧
    (∃ (s : State) (b : Burst), s.tun.burst = some b ∧ b.phase = 1 ∧ ((b.done ≠ 0 ∨ ∀ k : Nat, k < 8 → bit b.clm k = false
      ∨ s.clusterBusy k = false)) ∧ s.quietGate = true) ∧
    (∃ (s : State) (b : Burst), s.tun.burst = some b ∧ b.phase = 1 ∧ b.done = 0 ∧ ((∃ k : Nat, k < 8 ∧ bit b.clm k = true
      ∧ s.clusterBusy k = true))) ∧
    (∃ (s : State) (b : Burst), s.tun.burst = some b ∧ b.phase = 2 ∧ b.rep ≤ b.done) ∧
    (∃ (s : State) (b : Burst), s.tun.burst = some b ∧ b.phase = 2 ∧ b.done < b.rep) :=
  ⟨⟨bstS 0 0 id, wq 0 0x080 0x074 1, by decide +kernel⟩,
    ⟨bstC 70000, wq 0 0x080 0x074 1, by decide +kernel⟩,
    ⟨bstC 63, wq 0 0x080 0x074 1, by decide +kernel⟩,
    ⟨bstS 0 0 id, burstB 0 0, by decide +kernel⟩,
    ⟨bstS 1 1 id, burstB 1 1, by decide +kernel⟩,
    ⟨{ bstS 1 1 id with ctf := { quiet := [3] } }, burstB 1 1, by decide +kernel⟩,
    ⟨bstS 1 0 (fun x => { x with run := [(0, ⟨copyE, 0, false⟩)] }), burstB 1 0, by decide +kernel⟩,
    ⟨bstS 2 2 id, burstB 2 2, by decide +kernel⟩,
    ⟨bstS 2 1 id, burstB 2 1, by decide +kernel⟩⟩

theorem witness_RouterComplete :
    (∃ (s : State) (op : RouterOp) (ns : BitVec 32) (d : Nat) (g : Grist), d = s.memNat op.desc 64 ∧ g = grist (rdK d)
      (rdT d) ((s.experts d).map edCap) ((List.range (rdT d)).map fun t => gateToken (rdK d) (rdDshift d) s.weight
      (s.intRowAt (rdLog d + t * rdLstr d) (rdNe d))) ∧ ((∀ o ∈ s.ltr.ops, deadlinePassed s.stamp.cyc o.dlc = false))
      ∧ (s.ltr.ops.find? fun o => s.waitMet o.wcnt o.wval) = some op ∧ op.combine = false ∧ s.on LTR_EN = true ∧
      s.pageRuns 0x090 = true ∧ s.routerStop op d (s.experts d) false = none ∧ s.waitPoisoned op.wcnt = false) ∧
    (∃ (s : State) (op : RouterOp) (d : Nat), d = s.memNat op.desc 64 ∧ ((∀ o ∈ s.ltr.ops, deadlinePassed s.stamp.cyc
      o.dlc = false)) ∧ (s.ltr.ops.find? fun o => s.waitMet o.wcnt o.wval) = some op ∧ op.combine = true ∧ s.on LTR_EN
      = true ∧ s.pageRuns 0x090 = true ∧ s.routerStop op d (s.experts d) false = none ∧ s.waitPoisoned op.wcnt =
      false) ∧
    (∃ (s : State) (w : RegWrite), s.admitsWrite 0x090 0x058 w (setBit w.data.toNat 0) = true ∧ ((∀ i : Fin 256, 0x4000 ≤
      s.rd (if i.val % 2 = 0 then LTR_W_EVEN (i.val / 2) else LTR_W_ODD (i.val / 2)) ∧ s.rd (if i.val % 2 = 0 then
      LTR_W_EVEN (i.val / 2) else LTR_W_ODD (i.val / 2)) ≤ 0x8000)) ∧ ((∀ i : Fin 255, s.rd (if i.val % 2 = 0 then
      LTR_W_EVEN (i.val / 2) else LTR_W_ODD (i.val / 2)) ≤ s.rd (if i.val % 2 = 0 then LTR_W_ODD (i.val / 2) else
      LTR_W_EVEN (i.val / 2 + 1))))) ∧
    (∃ (s : State) (w : RegWrite), s.admitsWrite 0x090 0x058 w (setBit w.data.toNat 0) = true ∧ ((∃ i : Fin 256, s.rd (if
      i.val % 2 = 0 then LTR_W_EVEN (i.val / 2) else LTR_W_ODD (i.val / 2)) < 0x4000))) :=
  ⟨⟨ltrS false, routerO false, 13000, routeW, grist 2 3 ((ltrS false).experts routeW |>.map edCap) ((List.range 3).map
      fun t => gateToken 2 0 (ltrS false).weight ((ltrS false).intRowAt (0x1100 + t * 16) 2)),
      (by first | with_reducible rfl | decide +kernel), (by first | with_reducible rfl | decide +kernel),
      by decide +kernel⟩,
    ⟨ltrS true, routerO true, routeW, (by first | with_reducible rfl | decide +kernel), by decide +kernel⟩,
    ⟨wtab 0x8000, wq 0 0x090 0x058 1, by decide +kernel⟩,
    ⟨wtab 0x3FFF, wq 0 0x090 0x058 1, by decide +kernel⟩⟩

theorem witness_ListsComplete :
    (∃ (s : State), s.pageRuns 0x098 = true ∧ s.windowDue = true ∧ s.stamp.cyc < 2 ^ 48) ∧
    (∃ (s : State), s.windowDue = false) ∧
    (∃ (s : State) (k : Fin 64), s.on BARM_EN = true ∧ s.on (BARM_REN k.val) = true ∧ s.pageRuns 0x098 = true ∧
      ((s.tenantMay k.val false (s.ringOf k.val).base (s.ringOf k.val).len = false ∨ s.tenantMay k.val true (s.ringOf
      k.val).base (s.ringOf k.val).len = false ∨ 2 ^ (s.ringOf k.val).sl < (s.ringIdx (s.ringOf k.val).base + 65536 -
      s.ringIdx ((s.ringOf k.val).base + 0x04)) % 65536)) ∧ s.on (BARM_RFAULT k.val) = false) ∧
    (∃ (s : State) (k : Fin 64), s.on BARM_EN = true ∧ s.on (BARM_REN k.val) = true ∧ s.pageRuns 0x098 = true ∧
      s.tenantMay k.val false (s.ringOf k.val).base (s.ringOf k.val).len = true ∧ s.tenantMay k.val true (s.ringOf
      k.val).base (s.ringOf k.val).len = true ∧ (s.ringIdx ((s.ringOf k.val).base + 0x04) + 1) % 65536 = s.ringIdx
      (s.ringOf k.val).base ∧ (s.barm.lists.filter (·.phase != 2)).length < 256) ∧
    (∃ (s : State) (k : Fin 64) (w : RegWrite), w.data = 0 ∧ s.admitsWrite 0x098 (if k.val < 32 then 0x04C else 0x050) w
      (2 ^ (k.val % 32)) = true) ∧
    (∃ (s : State) (l : BarmList), s.finished = some l ∧ ((∀ h ∈ s.barm.held, h.tc ≠ l.tc)) ∧ s.ringRoom l.ring = true) ∧
    (∃ (s : State) (k : Fin 64), ((∃ h ∈ s.barm.held, h.tc = k.val))) :=
  ⟨⟨atCyc 21 (st [(MON_LVL, 0), (BARM_WLEN, 8), (BARM_WOFS, 3)]), by decide +kernel⟩,
    ⟨{ State.reset with barm := { opened := true } }, by decide +kernel⟩,
    ⟨barmS id [(TUN_WIN_SIZE 5 0, 16)], 5, by decide +kernel⟩,
    ⟨barmS id [], 5, by decide +kernel⟩,
    ⟨barmS id [], 5, { wq 0 0x098 0x04C 0x20 with data := 0 }, by decide +kernel⟩,
    ⟨listS { listL [copyW 0] with next := 1, codes := [(0, .ok)], ticks := 1025, started := 3 },
      { listL [copyW 0] with next := 1, codes := [(0, .ok)], ticks := 1025, started := 3 }, by decide +kernel⟩,
    ⟨barmS (fun b => { b with held := [⟨5, ringR, 77⟩, ⟨5, ringR, 78⟩] }) [(BARM_RHOLD 5, 1)], 5, by decide +kernel⟩⟩

theorem witness_EntriesComplete :
    (∃ (s : State) (l : BarmList), s.pageRuns 0x098 = true ∧ s.barm.backlog = [] ∧ s.appending = some l ∧ s.listLate l =
      false ∧ ((spOp (l.entry l.next) = 1 ∨ spOp (l.entry l.next) = 2)) ∧ s.tun.sparge.length < 1024) ∧
    (∃ (s : State) (l : BarmList), s.pageRuns 0x098 = true ∧ s.barm.backlog = [] ∧ s.appending = some l ∧ s.listLate l =
      false ∧ ((spOp (l.entry l.next) = 4 ∨ spOp (l.entry l.next) = 5))) ∧
    (∃ (s : State) (l : BarmList), s.pageRuns 0x098 = true ∧ s.barm.backlog = [] ∧ s.appending = some l ∧ s.listLate l =
      false ∧ 5 < spOp (l.entry l.next)) ∧
    (∃ (s : State) (l : BarmList) (i : Nat) (d : Nat) (sum : Nat) (g : Nat) (gs : List Nat) (dts : List Nat) (sts : List
      Nat), d = s.memNat (enAddr (l.entry (enRidx (l.entry i)))) 64 ∧ sum = s.memNat (rdDtab d + 64 * 64) 64 ∧ dts =
      (List.range (rdNe d)).map (fun e => s.memNat (rdDtab d + 64 * e) 64) ∧ sts = (List.range (rdNe d)).map
      (fun e => s.memNat (enAddr (l.entry i) + 64 * e) 64) ∧ s.pageRuns 0x098 = true ∧ ((∀ x ∈ s.waiting 6, s.listLate
      x.1 = false)) ∧ ((s.waiting 6).find? fun x => s.expertReady x.1 x.2) = some (l, i) ∧ spNb (l.entry i) ≠ 0 ∧ spK
      (l.entry i) ≠ 0 ∧ enNcol (l.entry i) ≠ 0 ∧ l.routes.contains (enRidx (l.entry i)) = true ∧ s.waitPoisoned
      (l.phys (spWcnt (l.entry i))) = false ∧ crcOk64 d = true ∧ crcOk64 sum = true ∧ ((∀ x ∈ dts, crcOk64 x = true))
      ∧ ((∀ x ∈ sts, crcOk64 x = true)) ∧ s.freeCounters true = g :: gs ∧ (expertTiles l i g (bits sum 104 1) dts
      sts).length ≤ 8192) ∧
    (∃ (s : State) (l : BarmList) (i : Nat), s.pageRuns 0x098 = true ∧ ((∀ x ∈ s.waiting 7, s.listLate x.1 = false)) ∧
      ((s.waiting 7).find? fun x => s.waitMet (x.1.phys (spWcnt (x.1.entry x.2))) (spWval (x.1.entry x.2))) = some (l,
      i) ∧ enLen (l.entry i) ≠ 0 ∧ s.tenantMay l.tc false (enAddr (l.entry i)) (enLen (l.entry i)) = true ∧
      s.waitPoisoned (l.phys (spWcnt (l.entry i))) = false ∧ ((∀ h ∈ s.barm.held, h.tc ≠ l.tc)) ∧ s.ringRoom l.ring =
      true) :=
  ⟨⟨listS (listL [copyW 0]), listL [copyW 0], by decide +kernel⟩,
    ⟨listS (listL [entryW [(0, 4), (160, 0x1000)]]), (listL [entryW [(0, 4), (160, 0x1000)]]), by decide +kernel⟩,
    ⟨listS (listL [entryW [(0, 6), (160, 0x1000)]]), (listL [entryW [(0, 6), (160, 0x1000)]]), by decide +kernel⟩,
    ⟨expertS, expertL, 1, routeW, rec64 [(0, 3)], 112, (List.range 15).map (· + 113), [dispW 0, dispW 1], [rec64 [(64,
      0x100)], rec64 []], (by first | with_reducible rfl | decide +kernel),
      (by first | with_reducible rfl | decide +kernel), (by first | with_reducible rfl | decide +kernel),
      (by first | with_reducible rfl | decide +kernel), by decide +kernel⟩,
    ⟨listS insightL, insightL, 0, by decide +kernel⟩⟩

theorem witness_HartsComplete :
    (∃ (s : State) (h : Fin 4) (tc : Fin 64) (v : Bool), bit (s.rd CCX_HUP) h.val = true ∧ tc.val ≠ 1) ∧
    (∃ (s : State) (h : Fin 4) (tc : Fin 64) (v : Bool), bit (s.rd CCX_HUP) h.val = true ∧ tc.val = 1) ∧
    (∃ (s : State) (h : Fin 4) (v : Option (BitVec 64)), bit (s.rd CCX_HUP) h.val = true) ∧
    (∃ (s : State) (a : HartAccess), a.core.val < 4 ∧ bit (s.rd CCX_HUP) a.core.val = true ∧ a.pmp = true ∧ a.machine =
      true ∧ a.replay = false ∧ s.level < 3 ∧ 0 < a.size ∧ a.addr.toNat + a.size ≤ 0x1000000 ∧ a.kind = .load) ∧
    (∃ (s : State) (a : HartAccess), a.core.val < 4 ∧ bit (s.rd CCX_HUP) a.core.val = true ∧ a.pmp = true ∧ a.machine =
      true ∧ a.replay = false ∧ s.level < 3 ∧ 0 < a.size ∧ a.addr.toNat + a.size ≤ 0x1000000 ∧ a.kind = .store ∧
      a.addr.toNat + a.size ≤ 0xFF0000 ∧ a.data.length = a.size) ∧
    (∃ (s : State) (a : HartAccess), a.core.val < 4 ∧ bit (s.rd CCX_HUP) a.core.val = true ∧ a.pmp = true ∧ a.machine =
      false ∧ a.replay = false ∧ s.level < 3 ∧ 0 < a.size ∧ a.addr.toNat + a.size ≤ 0x1000000 ∧ (a.kind = .load ∨
      a.kind = .store) ∧ s.windowPasses a (a.addr.toNat, a.size) = false) ∧
    (∃ (s : State) (a : HartAccess) (tc : Fin 64), a.core.val < 4 ∧ bit (s.rd CCX_HUP) a.core.val = true ∧ a.pmp = true ∧
      a.replay = false ∧ a.flip = 0 ∧ a.kind = .store ∧ a.size = 4 ∧ a.data.length = 4 ∧ 0x40000000 ≤ a.addr.toNat ∧
      a.addr.toNat + 4 ≤ 0x80000000 ∧ s.coreTenant a = some tc) ∧
    (∃ (s : State) (h : Fin 4) (w : RegWrite), s.admitsWrite 0x0A0 0x04C w (setBit w.data.toNat h.val) = true) ∧
    (∃ (s : State) (h : Fin 4), s.on CCX_WDT_EN = true ∧ bit (s.rd CCX_HUP) h.val = true ∧ s.rd CTF_PERIOD ≠ 0) ∧
    (∃ (s : State) (h : Fin 4) (w : RegWrite), s.admitsWrite 0x0A0 0x040 w (setBit w.data.toNat (8 + h.val)) = true) :=
  ⟨⟨st hartF, 3, 63, true, by decide +kernel⟩,
    ⟨st hartF, 3, 1, true, by decide +kernel⟩,
    ⟨st hartF, 3, none, by decide +kernel⟩,
    ⟨(st hartF).store 0xFFFFFD [7, 8], hartA true .load 0xFFFFFC [], by decide +kernel⟩,
    ⟨st hartF, hartA true .store 0xFEFFFC [1, 2, 3, 4], by decide +kernel⟩,
    ⟨st hartF, hartA false .load 0xFFFE [], by decide +kernel⟩,
    ⟨st hartF, hartA true .store 0x40000000 [1, 2, 3, 4], 0, by decide +kernel⟩,
    ⟨st hartF, 3, wq 0 0x0A0 0x04C 8, by decide +kernel⟩,
    ⟨st (hartF ++ [(CCX_WDT_EN, 1), (CCX_WDT_MS, 50)]), 3, by decide +kernel⟩,
    ⟨st hartF, 3, wq 0 0x0A0 0x040 0x800, by decide +kernel⟩⟩

theorem witness_ControllersComplete :
    (∃ (s : State) (w : RegWrite), s.admitsWrite 0x0A2 0x044 w (setBit w.data.toNat 0) = true) ∧
    (∃ (s : State), s.ccx.training = true ∧ s.rd CCX_DDR_DENS ≤ 3) ∧
    (∃ (s : State), s.ccx.training = true) ∧
    (∃ (s : State) (w : RegWrite), s.admitsWrite 0x0A3 0x050 w (setBit w.data.toNat 0) = true ∧ s.ccx.qspi = none ∧
      s.qspiStop s.qspiCmd = none) ∧
    (∃ (s : State) (w : RegWrite) (c : _), s.admitsWrite 0x0A3 0x050 w (setBit w.data.toNat 0) = true ∧ s.ccx.qspi = none
      ∧ s.qspiStop s.qspiCmd = some c) ∧
    (∃ (s : State) (data : List Byte) (c : QspiCmd), s.ccx.qspi = some c) ∧
    (∃ (s : State) (w : RegWrite), s.admitsWrite 0x0A8 0x058 w (setBit w.data.toNat 0) = true) ∧
    (∃ (s : State), s.on MGC_WDT_EN = true ∧ s.ccx.image ≠ none ∧ s.rd CTF_PERIOD ≠ 0) ∧
    (∃ (s : State) (w : RegWrite), s.admitsWrite 0x0A8 0x04C w (setBit w.data.toNat 2) = true ∧ bits w.data.toNat 0 2 = 0
      ∧ s.ccx.image ≠ none) ∧
    (∃ (s : State) (app : List Byte) (x : BootImage), s.ccx.image = some x ∧ s.ccx.reload = true ∧ sha256 (padTo x.alen
      app) = x.dig) ∧
    (∃ (s : State) (w : RegWrite), s.admitsWrite 0x0A8 0x0C0 w (setBit w.data.toNat 0) = true) ∧
    (∃ (s : State) (w : RegWrite), s.admitsWrite 0x0A8 0x0C0 w (setBit w.data.toNat 1) = true) :=
  ⟨⟨st [(MON_LVL, 0)], wq 0 0x0A2 0x044 1, by decide +kernel⟩,
    ⟨ccxS (fun c => { c with training := true }) [(CCX_DDR_DENS, 3)], by decide +kernel⟩,
    ⟨ccxS (fun c => { c with training := true }) [], by decide +kernel⟩,
    ⟨st [(MON_LVL, 0), (CCX_QSP_OPC, 0x9F), (CCX_QSP_DIR, 1), (CCX_QSP_LEN, 3)], wq 0 0x0A3 0x050 1, by decide +kernel⟩,
    ⟨st [(MON_LVL, 0), (CCX_QSP_OPC, 0xC7)], wq 0 0x0A3 0x050 1, Status.prot, by decide +kernel⟩,
    ⟨ccxS (fun c => { c with qspi := some ⟨0x9F, 1, 0, 3⟩ }) [(CCX_QSP_DIR, 1)], [1, 2, 3], ⟨0x9F, 1, 0, 3⟩,
      by decide +kernel⟩,
    ⟨st [], wq 0 0x0A8 0x058 1, by decide +kernel⟩,
    ⟨ccxS (fun c => { c with image := some appImage }) [(MGC_WDT_EN, 1)], by decide +kernel⟩,
    ⟨ccxS (fun c => { c with image := some appImage }) [], wq 0 0x0A8 0x04C 4, by decide +kernel⟩,
    ⟨ccxS (fun c => { c with image := some appImage, reload := true }) [], [0x22#8], appImage, by decide +kernel⟩,
    ⟨st [], wq 0 0x0A8 0x0C0 1, by decide +kernel⟩,
    ⟨st [], wq 0 0x0A8 0x0C0 2, by decide +kernel⟩⟩

theorem boot_verified : celJudge bootGroup (bootedS.celRaw bootGroup) = .clean 0 ∧ brTrial 0 = false ∧
    bootedS.slotCheck (slotOf bootImage noImage (brPref 0)) = 0 ∧ bootedS.ccx.bootDue = true ∧
    bootedS.ccx.recovery = true := by
  decide +kernel

theorem witness_BootComplete :
    (∃ (s : State) (a : SlotImage) (b : SlotImage) (d : Nat), celJudge bootGroup (s.celRaw bootGroup) = .clean d ∧ brTrial
      d = false ∧ s.slotCheck (slotOf a b (brPref d)) = 0 ∧ s.ccx.bootDue = true) ∧
    (∃ (s : State) (a : SlotImage) (b : SlotImage) (d : Nat), celJudge bootGroup (s.celRaw bootGroup) = .clean d ∧ brTrial
      d = false ∧ s.slotCheck (slotOf a b (brPref d)) = 0 ∧ s.ccx.recovery = true) ∧
    (∃ (s : State) (a : SlotImage) (b : SlotImage) (d : Nat), celJudge bootGroup (s.celRaw bootGroup) = .clean d ∧ brTrial
      d = false ∧ s.slotCheck a ≠ 0 ∧ s.slotCheck b ≠ 0 ∧ s.ccx.bootDue = true) ∧
    (∃ (s : State) (a : SlotImage) (b : SlotImage) (d : Nat), celJudge bootGroup (s.celRaw bootGroup) = .clean d ∧ brTrial
      d = false ∧ s.slotCheck a ≠ 0 ∧ s.slotCheck b ≠ 0 ∧ s.ccx.recovery = true) ∧
    (∃ (s : State) (w : RegWrite) (d : Nat), s.admitsWrite 0x0A8 0x04C w (setBit w.data.toNat 1) = true ∧ bit w.data.toNat
      0 = false ∧ bit w.data.toNat 2 = false ∧ bits w.data.toNat 8 1 ≠ s.rd MGC_B_SLOT ∧ celJudge bootGroup (s.celRaw
      bootGroup) = .clean d ∧ s.celBlocked = false) ∧
    (∃ (s : State) (w : RegWrite) (d : Nat), s.admitsWrite 0x0A8 0x04C w (setBit w.data.toNat 0) = true ∧ bits
      w.data.toNat 1 2 = 0 ∧ celJudge bootGroup (s.celRaw bootGroup) = .clean d ∧ s.celBlocked = false) ∧
    (∃ (s : State) (w : RegWrite), s.on MGC_R_BUSY = false ∧ s.ccx.seq = none ∧ s.admitsWrite 0x0A8 0x05C w (putBits
      w.data.toNat 0 4 1) = true ∧ s.on (STS_SEALED (bits w.data.toNat 16 10)) = true) ∧
    (∃ (s : State) (w : RegWrite), s.on MGC_R_BUSY = false ∧ s.ccx.seq = none ∧ s.admitsWrite 0x0A8 0x05C w (putBits
      w.data.toNat 0 4 1) = true ∧ s.on (STS_SEALED (bits w.data.toNat 16 10)) = false) ∧
    (∃ (s : State) (w : RegWrite), s.on MGC_R_BUSY = false ∧ s.ccx.seq = none ∧ s.admitsWrite 0x0A8 0x05C w (putBits
      w.data.toNat 0 4 2) = true ∧ s.acc.restored = false ∧ s.acc.closed = false) ∧
    (∃ (s : State) (w : RegWrite), s.on MGC_R_BUSY = false ∧ s.ccx.seq = none ∧ s.admitsWrite 0x0A8 0x05C w (putBits
      w.data.toNat 0 4 3) = true) ∧
    (∃ (s : State) (p : Nat), s.on MGC_R_BUSY = true ∧ s.ccx.seq = some (1, p)) ∧
    (∃ (s : State) (p : Nat), s.on MGC_R_BUSY = true ∧ s.ccx.seq = some (2, p)) ∧
    (∃ (s : State) (p : Nat), s.on MGC_R_BUSY = true ∧ s.ccx.seq = some (3, p) ∧ s.celBlocked = false) :=
  ⟨⟨bootedS, bootImage, noImage, 0, boot_verified.1, boot_verified.2.1, boot_verified.2.2.1, boot_verified.2.2.2.1⟩,
    ⟨bootedS, bootImage, noImage, 0, boot_verified.1, boot_verified.2.1, boot_verified.2.2.1, boot_verified.2.2.2.2⟩,
    ⟨bootS 0 (fun c => { c with bootDue := true }) [], noImage, noImage, 0, by decide +kernel⟩,
    ⟨bootS 0 (fun c => { c with recovery := true }) [], noImage, noImage, 0, by decide +kernel⟩,
    ⟨bootS 0 id [], wq 0 0x0A8 0x04C 0x102, 0, by decide +kernel⟩,
    ⟨bootS 0xFF02 id [(MGC_BVER, 7), (MGC_B_SLOT, 1)], wq 0 0x0A8 0x04C 1, 0xFF02, by decide +kernel⟩,
    ⟨st [(STS_SEALED 0x028, 1)], wq 0 0x0A8 0x05C 0x280001, by decide +kernel⟩,
    ⟨st [], wq 0 0x0A8 0x05C 0x280001, by decide +kernel⟩,
    ⟨st [], wq 0 0x0A8 0x05C 2, by decide +kernel⟩,
    ⟨st [], wq 0 0x0A8 0x05C 3, by decide +kernel⟩,
    ⟨ccxS (fun c => { c with seq := some (1, 40) }) [(MGC_R_BUSY, 1)], 40, by decide +kernel⟩,
    ⟨ccxS (fun c => { c with seq := some (2, 0) }) [(MGC_R_BUSY, 1)], 0, by decide +kernel⟩,
    ⟨ccxS (fun c => { c with seq := some (3, 0) }) [(MGC_R_BUSY, 1), (PMU_WBLK, 0)], 0, by decide +kernel⟩⟩

theorem witness_TonesComplete :
    (∃ (s : State) (a : Attempt) (p : TxPlan), p = s.txPlan (if a.nxt = 0xFF then none else s.nbIndex a.nxt) ∧
      s.plm.attempt = some a ∧ s.plt.tx = none ∧ a.taken = false ∧ a.bytes ≠ [] ∧ s.toneOff = false ∧ s.plt.dflt =
      false) ∧
    (∃ (s : State) (a : Attempt) (x : PltTx), s.plt.tx = some x ∧ s.plm.attempt = some a ∧ a.ackReq = true) ∧
    (∃ (s : State) (a : Attempt) (x : PltTx), s.plt.tx = some x ∧ s.plm.attempt = some a ∧ a.ackReq = false) ∧
    (∃ (s : State) (f : ToneIn), s.toneOff = false ∧ s.plt.tx = none ∧ fchGood f.fch = false) ∧
    (∃ (s : State) (f : ToneIn), s.toneOff = false ∧ s.plt.tx = none ∧ fchGood f.fch = true ∧ (fchOf f.fch).reserved =
      true) ∧
    (∃ (s : State) (f : ToneIn) (a : Attempt), s.toneOff = false ∧ s.plt.tx = none ∧ fchGood f.fch = true ∧ (fchOf
      f.fch).reserved = false ∧ (fchOf f.fch).mode = 0 ∧ s.on PLM_EN = true ∧ s.plm.attempt = some a ∧ a.waits = true
      ∧ f.payload = ackBytes s.saddr a.nxt a.seq ∧ a.nxt < 256 ∧ a.seq < 256) ∧
    (∃ (s : State) (n : BitVec 10), s.plt.dflt = false) ∧
    (∃ (s : State) (u : State) (m : MgmtIn) (i : Nat), s.takeMgmt 0x01 = some (m, u) ∧ u.nbIndex m.orig = some i ∧
      u.mapsAdapt = true ∧ u.issueFree i = true) ∧
    (∃ (s : State) (u : State) (m : MgmtIn) (i : Nat) (x : _), s.takeMgmt 0x01 = some (m, u) ∧ u.nbIndex m.orig = some i ∧
      u.mapsAdapt = false ∧ (u.link i).issued = some x) ∧
    (∃ (s : State) (u : State) (m : MgmtIn) (i : Nat) (x : MapSet), s.takeMgmt 0x02 = some (m, u) ∧ u.nbIndex m.orig =
      some i ∧ u.tmrspSet m.data = some x) ∧
    (∃ (s : State) (i : Fin 64) (c : Nat), (s.nb i.val).isSome = true ∧ s.issueFree i.val = true ∧ s.mapsAdapt = true ∧
      s.toneOff = false ∧ (s.link i.val).lastIssue = some c ∧ c + s.rd PLT_TMREF ≤ s.stamp.cyc ∧ s.rd PLT_TMMINF ≤
      (s.link i.val).frames) :=
  ⟨⟨plcS (fun p => { p with attempt := some (attE true false) }) (id) [], attE true false, (plcS
      (fun p => { p with attempt := some (attE true false) }) (id) []).txPlan none,
      (by first | with_reducible rfl | decide +kernel), by decide +kernel⟩,
    ⟨plcS (fun p => { p with attempt := some (attE true false) }) (fun p => { p with tx := some txE, txen := true }) [],
      attE true false, txE, by decide +kernel⟩,
    ⟨plcS (fun p => { p with attempt := some (attE false false) }) (fun p => { p with tx := some txE, txen := true }) [],
      attE false false, txE, by decide +kernel⟩,
    ⟨plcS id id [], ⟨[1, 2], [], 0, 0, []⟩, by decide +kernel⟩,
    ⟨plcS id id [], ⟨(fchE 3 10).bytes, [], 0, 0, []⟩, by decide +kernel⟩,
    ⟨plcS (fun p => { p with attempt := some (attE true true) }) (id) [], ⟨(fchE 0 10).bytes, ackBytes 9 33 5, 0, 0, []⟩,
      attE true true, by decide +kernel⟩,
    ⟨plcS id (fun p => { p with tx := some txE }) [], 100, by decide +kernel⟩,
    ⟨(linkS [1] { issued := some setE } []), taken (linkS [1] { issued := some setE } []) 1, msgE [1], 2,
      by decide +kernel⟩,
    ⟨(linkS [1] { issued := some setE } [(PLT_TMPIN, 1)]), taken (linkS [1] { issued := some setE } [(PLT_TMPIN, 1)]) 1,
      msgE [1], 2, setE, by decide +kernel⟩,
    ⟨(linkS (tmrspBytes 1 12 setE) {} []), taken (linkS (tmrspBytes 1 12 setE) {} []) 2, msgE (tmrspBytes 1 12 setE), 2,
      { setE with at' := 5000 }, by decide +kernel⟩,
    ⟨linkS [] { issued := some setE, lastIssue := some 3, frames := 200 } [], 2, 3, by decide +kernel⟩⟩

theorem witness_PulseSlotsComplete :
    (∃ (s : State) (n : Fin 256) (c0 : BitVec 16) (c1 : BitVec 16) (c2 : BitVec 16) (c3 : BitVec 16) (e : Nat) (v : Nat ×
      Nat × Nat), e = s.activeEntry n.val ∧ v = s.decideSymbol ([c0, c1, c2, c3].map (·.toNat)) ∧ s.on PLP_EN = true ∧
      s.slotsDecided = true ∧ entEn e = true ∧ entCons e = 2 ∧ entSig e = 0 ∧ usableWindow e = true ∧ ((∀ k ∈
      s.slotStreams n.val, s.downSlot k = none))) ∧
    (∃ (s : State) (n : Fin 256) (c0 : BitVec 16) (c1 : BitVec 16) (c2 : BitVec 16) (c3 : BitVec 16) (e : Nat) (v : Nat ×
      Nat × Nat) (k : Nat) (d : Nat) (x : Nat) (l : List Nat), e = s.activeEntry n.val ∧ v = s.decideSymbol ([c0, c1,
      c2, c3].map (·.toNat)) ∧ s.on PLP_EN = true ∧ s.slotsDecided = true ∧ entEn e = true ∧ entCons e = 2 ∧ entSig e
      = 0 ∧ usableWindow e = true ∧ s.slotStreams n.val = [k] ∧ s.downSlot k = some (d :: l, x)) ∧
    (∃ (s : State) (k : Fin 64) (d : NodeDown), (s.plm.downs.find? fun d => d.stream == k.val && !d.given) = some d ∧
      s.level < 3 ∧ s.on PLP_DLEN = true ∧ s.downRepeater k.val = none ∧ (s.plpStream k.val).queued = none) ∧
    (∃ (s : State) (k : Fin 64) (d : NodeDown) (peer : Nat) (n : NodeEntry), (s.plm.downs.find? fun d => d.stream == k.val
      && !d.given) = some d ∧ s.level < 3 ∧ s.on PLP_DLEN = true ∧ s.downRepeater k.val = some (peer, n)) ∧
    (∃ (s : State) (k : Fin 64) (d : NodeDown), (s.plm.downs.find? fun d => d.stream == k.val && !d.given) = some d ∧ 3 ≤
      s.level) ∧
    (∃ (s : State) (k : Fin 64) (d : Downlink), (s.plpStream k.val).queued = some d ∧ (s.plpStream k.val).send = none ∧
      d.cyc + s.rd PLP_DLWAIT ≤ s.stamp.cyc) :=
  ⟨⟨slotS { recent := (syncDibits.take 7).map fun d => (d, 200, 0, false) }, 5, 10, 20, 200, 0, slotE.toNat, (0, 2, 200),
      (by first | with_reducible rfl | decide +kernel), (by first | with_reducible rfl | decide +kernel),
      by decide +kernel⟩,
    ⟨slotS { send := some ([3], 4), queued := some ⟨[1, 2], 5, 11⟩ }, 5, 0, 0, 0, 0, slotE.toNat, (1, 0, 0), 7, 3, 4, [],
      (by first | with_reducible rfl | decide +kernel), (by first | with_reducible rfl | decide +kernel),
      by decide +kernel⟩,
    ⟨plcS (fun p => { p with downs := [downE] }) id [], 7, downE, by decide +kernel⟩,
    ⟨plcS (fun p => { p with downs := [downE], nodes := [nodeE (some (33, 2, 6))] }) id [], 7, downE, 33, nodeE (some (33,
      2, 6)), by decide +kernel⟩,
    ⟨plcS (fun p => { p with downs := [downE] }) id [(MON_LVL, 3)], 7, downE, by decide +kernel⟩,
    ⟨{ plcS (fun p => { p with downs := [downE] }) id [] with plp := { streams := [(7, { queued := some ⟨[1, 2], 5, 11⟩ })] }, ctf := { cyc := 5000, seeded := true } },
      7, ⟨[1, 2], 5, 11⟩, by decide +kernel⟩⟩

theorem witness_MacComplete :
    (∃ (s : State) (e : Fin 128), s.on PLM_EN = true ∧ s.epOn e.val = true ∧ s.level < 3 ∧ s.plm.stopped.contains e.val =
      false ∧ s.epUsable e.val = true ∧ ((∀ h ∈ s.plm.held, h.key ≠ e.val)) ∧ s.epOwner e.val < 64 ∧ (s.ringIdx
      ((s.epRing e.val).base + 0x04) + 1) % 65536 = s.ringIdx (s.epRing e.val).base) ∧
    (∃ (s : State) (e : Fin 128), s.on PLM_EN = true ∧ s.epOn e.val = true ∧ s.level < 3 ∧ s.plm.stopped.contains e.val =
      false ∧ ((s.epUsable e.val = false ∨ 2 ^ (s.epRing e.val).tl < (s.ringIdx (s.epRing e.val).base + 65536 -
      s.ringIdx ((s.epRing e.val).base + 0x04)) % 65536)) ∧ s.on (PLM_EP_RFAULT (e.val / 64) (e.val % 64)) = false) ∧
    (∃ (s : State) (p : Fin 4) (k : Fin 16) (f : TxFrame) (hop : Option (Nat × Nat × Nat × Nat)) (nxt : Nat) (b : List
      Byte × Nat), nxt = ((hop.map (·.2.2.2)).getD 0xFF) ∧ k.val < windowSlots p.val ∧ s.on PLM_EN = true ∧ s.saddr ≠
      0 ∧ s.plm.attempt = none ∧ s.plt.tx = none ∧ s.nextFrame p.val = some f ∧ s.on PLT_BANDC_EN = false ∧ f.kind ≠ 2
      ∧ s.toneOff = false ∧ s.hopFor f.fdst = some hop ∧ (s.buildSegment f nxt).1 = some b) ∧
    (∃ (s : State) (p : Fin 4) (k : Fin 16) (f : TxFrame), k.val < windowSlots p.val ∧ s.on PLM_EN = true ∧ s.saddr ≠ 0 ∧
      s.plm.attempt = none ∧ s.plt.tx = none ∧ s.nextFrame p.val = some f ∧ s.on PLT_BANDC_EN = false ∧ f.kind = 2 ∧
      f.first = none ∧ f.latest ≤ stampNat s.stamp) ∧
    (∃ (s : State) (a : Attempt) (f : TxFrame), s.plm.attempt = some a ∧ a.waits = true ∧ s.plm.queue.find? (·.id ==
      a.frame) = some f ∧ f.tries < s.rd PLM_RETRY) ∧
    (∃ (s : State) (a : Attempt) (f : TxFrame), s.plm.attempt = some a ∧ a.waits = true ∧ s.plm.queue.find? (·.id ==
      a.frame) = some f ∧ s.rd PLM_RETRY ≤ f.tries) ∧
    (∃ (s : State) (w : RegWrite), s.admitsWrite 0x0B8 0x040 w (setBit w.data.toNat 16) = true ∧ bits w.data.toNat 8 8 ≠
      0xFF) ∧
    (∃ (s : State) (e : Fin 128) (w : RegWrite), s.admitsWrite (0x0BA + e.val / 64) (0x124 + 48 * (e.val % 64)) w (setBit
      w.data.toNat 0) = true) ∧
    (∃ (s : State) (w : RegWrite), s.admitsWrite 0x0B8 0x06C w w.data.toNat = true) ∧
    (∃ (s : State) (w : RegWrite), s.admitsWrite 0x0B8 0x04C w w.data.toNat = true ∧ bits w.data.toNat 0 16 ≠ 0) ∧
    (∃ (s : State) (c : Nat), s.plm.joinEnd = some c ∧ c ≤ s.stamp.cyc) :=
  ⟨⟨(epS id []).store 0x10000 [1], 0, by decide +kernel⟩,
    ⟨epS id [(TUN_WIN_SIZE 5 0, 16)], 0, by decide +kernel⟩,
    ⟨epS (fun p => { p with queue := [frameE], nbs := [nbE] }) [], 2, 3, frameE, some (2, 1, 0, 33), 33, (((epS
      (fun p => { p with queue := [frameE], nbs := [nbE] }) []).buildSegment frameE 33).1).getD ([], 0),
      (by first | with_reducible rfl | decide +kernel), by decide +kernel⟩,
    ⟨epS (fun p => { p with queue := [{ frameE with kind := 2, cls := 2, tc := 5, latest := 0 }], nbs := [nbE] })
      [(TNC_TST 5, 1), (TNC_CLASS 5, 2)], 2, 3, { frameE with kind := 2, cls := 2, tc := 5, latest := 0 },
      by decide +kernel⟩,
    ⟨epS (fun p => { p with queue := [frameE], attempt := some (attE true true) }) [(PLM_RETRY, 3)], attE true true,
      frameE, by decide +kernel⟩,
    ⟨epS (fun p => { p with queue := [frameE], attempt := some (attE true true) }) [(PLM_RETRY, 0)], attE true true,
      frameE, by decide +kernel⟩,
    ⟨plcS id id [], wq 0 0x0B8 0x040 0x12201, by decide +kernel⟩,
    ⟨plcS id id [(PLM_EP_KEY 1 63 3, 7)], 127, wq 0 0x0BB (0x124 + 48 * 63) 1, by decide +kernel⟩,
    ⟨plcS id id [(PLM_SITEKEY 0, 4)], wq 0 0x0B8 0x06C 0x99, by decide +kernel⟩,
    ⟨plcS id id [], wq 0 0x0B8 0x04C 100, by decide +kernel⟩,
    ⟨epS (fun p => { p with joins := [⟨5, 7, 1⟩], joinEnd := some 50000 }) [], 50000, by decide +kernel⟩⟩

theorem witness_NeighboursComplete :
    (∃ (s : State), s.on PLM_EN = true ∧ s.saddr ≠ 0 ∧ s.level ≤ 2) ∧
    (∃ (s : State), s.on PLM_EN = true ∧ s.saddr ≠ 0 ∧ s.level ≤ 2) ∧
    (∃ (s : State) (u : State) (m : MgmtIn), s.takeMgmt 0x10 = some (m, u) ∧ leAt m.data 9 1 = s.saddr ∧ leAt m.data 1 8 ≠
      s.eui) ∧
    (∃ (s : State) (u : State) (m : MgmtIn) (i : _), s.takeMgmt 0x10 = some (m, u) ∧ leAt m.data 9 1 ≠ s.saddr ∧ ((∀ x ∈
      s.plm.nbs, x.2.eui ≠ leAt m.data 1 8)) ∧ s.nbPlace = some i) ∧
    (∃ (s : State) (u : State) (m : MgmtIn), s.takeMgmt 0x10 = some (m, u) ∧ leAt m.data 9 1 ≠ s.saddr ∧ ((∀ x ∈
      s.plm.nbs, x.2.eui ≠ leAt m.data 1 8)) ∧ s.nbPlace = none) ∧
    (∃ (s : State) (u : State) (m : MgmtIn) (x : _), s.takeMgmt 0x10 = some (m, u) ∧ leAt m.data 9 1 ≠ s.saddr ∧
      s.plm.nbs.find? (fun x => x.2.eui == leAt m.data 1 8) = some x) ∧
    (∃ (s : State) (u : State) (m : MgmtIn) (i : Nat) (n : Neighbour), s.takeMgmt 0x11 = some (m, u) ∧ s.nbIndex (leAt
      m.data 1 1) = some i ∧ s.nb i = some n) ∧
    (∃ (s : State), s.level < 3) ∧
    (∃ (s : State) (u : State) (m : MgmtIn) (i : Nat) (n : Neighbour), s.takeMgmt 0x12 = some (m, u) ∧ s.nbIndex m.orig =
      some i ∧ s.nb i = some n) ∧
    (∃ (s : State), s.level < 3) :=
  ⟨⟨plcS id id [], by decide +kernel⟩,
    ⟨plcS id id [], by decide +kernel⟩,
    ⟨askS (helloE 0x99 9) id, taken (askS (helloE 0x99 9) id) 0x10, msgE (helloE 0x99 9), by decide +kernel⟩,
    ⟨askS (helloE 0x99 41) id, taken (askS (helloE 0x99 41) id) 0x10, msgE (helloE 0x99 41), 0, by decide +kernel⟩,
    ⟨epS
      (fun p => { p with nbs := (List.range 64).map fun i => (i, { eui := i, saddr := i + 40, bidir := true, hello := 0, heard := 0 }), mgmt := [msgE (helloE 0x99 41)] })
      [], taken (epS
      (fun p => { p with nbs := (List.range 64).map fun i => (i, { eui := i, saddr := i + 40, bidir := true, hello := 0, heard := 0 }), mgmt := [msgE (helloE 0x99 41)] })
      []) 0x10, msgE (helloE 0x99 41), by decide +kernel⟩,
    ⟨askS (helloE 0x77 41) id, taken (askS (helloE 0x77 41) id) 0x10, msgE (helloE 0x77 41), nbE, by decide +kernel⟩,
    ⟨askS ([0x11, 33, 0]) id, taken (askS ([0x11, 33, 0]) id) 0x11, msgE ([0x11, 33, 0]), 2, nbE.2, by decide +kernel⟩,
    ⟨askS [] id, by decide +kernel⟩,
    ⟨askS (radvE) id, taken (askS (radvE) id) 0x12, msgE (radvE), 2, nbE.2, by decide +kernel⟩,
    ⟨epS (fun p => { p with nbs := [(2, { nbE.2 with adv := [⟨40, 33, 2, 7, 100⟩, ⟨41, 33, 2, 7, 49999⟩] })] }) [],
      by decide +kernel⟩⟩

theorem witness_NodesComplete :
    (∃ (s : State) (u : State) (f : PulseIn) (j : JoinSlot) (e : Nat) (key : List Byte), s.takeNode
      (fun f => s.plm.joins.any (·.stream == f.stream) && f.type == 1) = some (f, u) ∧ s.plm.joins.find? (·.stream ==
      f.stream) = some j ∧ f.data.length ≠ 18) ∧
    (∃ (s : State) (u : State) (f : PulseIn) (j : JoinSlot) (e : Nat) (key : List Byte) (st : Nat) (en : Nat) (a : Nat) (o
      : Nat) (c : Nat), s.takeNode (fun f => s.plm.joins.any (·.stream == f.stream) && f.type == 1) = some (f, u) ∧
      s.plm.joins.find? (·.stream == f.stream) = some j ∧ f.data.length = 18 ∧ s.epOfNid (leAt f.data 9 2) = some e ∧
      s.epKey e = some key ∧ s.on (PLM_EP_ADMIT (e / 64) (e % 64)) = true ∧ (ccmOpen key (nodeNonce (leAt f.data 1 8)
      (ctrAbove (s.nodeLast (leAt f.data 1 8) (leAt f.data 9 2)) (leAt f.data 11 2)) false 1) (f.data.take 14)
      (f.data.drop 14) 4).isSome = true ∧ leAt f.data 13 1 % 16 ≤ 7 ∧ ((∀ n ∈ s.plm.nodes, ¬(n.eui = leAt f.data 1 8 ∧
      n.nid = leAt f.data 9 2))) ∧ s.freeStream = some st ∧ s.freeEntry = some en ∧ s.findSlot st j.anchor (max (2 ^
      (leAt f.data 13 1 % 16)) (s.rd PLM_PMIN)) (s.stamp.cyc + 92) (s.rd PLM_ADMLEAD) = some (a, o, c)) ∧
    (∃ (s : State) (u : State) (f : PulseIn) (n : NodeEntry) (key : List Byte) (d : List Byte) (c : Nat), s.takeNode
      (fun f => (f.type == 2 || f.type == 4) && (s.plm.nodes.any (·.stream == f.stream) || s.plm.grants.any (·.stream
      == f.stream))) = some (f, u) ∧ s.nodeOn f.stream = some n ∧ s.epKey n.ep = some key ∧ checkUplink key n.eui
      (some n.up) f.data = .good c d) ∧
    (∃ (s : State) (u : State) (f : PulseIn) (n : NodeEntry) (key : List Byte) (d : List Byte) (c : Nat), s.takeNode
      (fun f => (f.type == 2 || f.type == 4) && (s.plm.nodes.any (·.stream == f.stream) || s.plm.grants.any (·.stream
      == f.stream))) = some (f, u) ∧ s.nodeOn f.stream = some n ∧ s.epKey n.ep = some key ∧ checkUplink key n.eui
      (some n.up) f.data = .replay) ∧
    (∃ (s : State) (u : State) (f : PulseIn) (n : NodeEntry) (key : List Byte) (d : List Byte) (c : Nat), s.takeNode
      (fun f => f.type == 3 && s.plm.nodes.any (·.stream == f.stream)) = some (f, u) ∧ s.nodeOn f.stream = some n ∧
      s.epKey n.ep = some key ∧ checkUplink key n.eui (some n.up) f.data = .good c d) ∧
    (∃ (s : State) (k : Fin 64) (n : NodeEntry), s.nodeOn k.val = some n ∧ n.silent = none ∧ n.heard + 4 * n.interval ≤
      s.stamp.cyc) ∧
    (∃ (s : State) (k : Fin 64) (n : NodeEntry) (c : _), s.nodeOn k.val = some n ∧ n.silent = some c ∧ c + s.rd PLM_NHOLD
      ≤ s.stamp.cyc) ∧
    (∃ (s : State) (r : RelayIn) (l : List RelayIn) (e : Nat) (c : Nat) (key : List Byte) (d : List Byte), s.plm.relays =
      r :: l ∧ leAt r.data 0 1 % 16 < 8 ∧ leAt r.data 0 1 % 16 ≠ 3 ∧ s.epOfNid r.nid = some e ∧ s.epKey e = some key ∧
      checkUplink key r.eui (s.nodeLast r.eui r.nid) r.data = .good c d ∧ ((∀ n ∈ s.plm.nodes, ¬(n.eui = r.eui ∧ n.nid
      = r.nid))) ∧ ((∀ x ∈ s.plm.cache, ¬(x.1 = 256 + r.eui ∧ x.2.1 = r.nid)))) ∧
    (∃ (s : State) (r : RelayIn) (l : List RelayIn) (g : RepGrant), s.plm.relays = r :: l ∧ 8 ≤ leAt r.data 0 1 % 16 ∧
      s.plm.grants.find? (fun g => g.eui == r.eui && g.nid == r.nid) = some g) ∧
    (∃ (s : State), s.level < 3) :=
  ⟨⟨epS (fun p => { p with joins := [⟨5, 7, 1⟩], nodeIn := [pulseE ([1])] }) [(PLM_SBASE, 100)], takenN (epS
      (fun p => { p with joins := [⟨5, 7, 1⟩], nodeIn := [pulseE ([1])] }) [(PLM_SBASE, 100)]), pulseE [1], ⟨5, 7, 1⟩,
      0, [], by decide +kernel⟩,
    ⟨epS (fun p => { p with joins := [⟨5, 7, 1⟩], nodeIn := [pulseE (joinE)] }) [(PLM_SBASE, 100)], takenN (epS
      (fun p => { p with joins := [⟨5, 7, 1⟩], nodeIn := [pulseE (joinE)] }) [(PLM_SBASE, 100)]), pulseE joinE, ⟨5, 7,
      1⟩, 0, keyBytes 77, 0, 100, 9, 2, (50000 + 92 + 2) % 16, by decide +kernel⟩,
    ⟨nodeS (upE 2 12) (nodeE none) [], takenN (nodeS (upE 2 12) (nodeE none) []), pulseE (upE 2 12), nodeE none, keyBytes
      77, [8, 9], 12, by decide +kernel⟩,
    ⟨nodeS (upE 2 10) (nodeE none) [], takenN (nodeS (upE 2 10) (nodeE none) []), pulseE (upE 2 10), nodeE none, keyBytes
      77, [], 0, by decide +kernel⟩,
    ⟨nodeS (upE 3 11) (nodeE none) [], takenN (nodeS (upE 3 11) (nodeE none) []), pulseE (upE 3 11), nodeE none, keyBytes
      77, [8, 9], 11, by decide +kernel⟩,
    ⟨nodeS [] (nodeE none) [], 7, nodeE none, by decide +kernel⟩,
    ⟨nodeS [] { nodeE none with silent := some 0 } [], 7, { nodeE none with silent := some 0 }, 0, by decide +kernel⟩,
    ⟨epS (fun p => { p with relays := [⟨33, 3, 0x55, upE 2 12, 4⟩] }) [], ⟨33, 3, 0x55, upE 2 12, 4⟩, [], 0, 12, keyBytes
      77, [8, 9], by decide +kernel⟩,
    ⟨epS (fun p => { p with relays := [⟨33, 3, 0x55, [9, 1], 4⟩], grants := [grantE 2 none] }) [], ⟨33, 3, 0x55, [9, 1],
      4⟩, [], grantE 2 none, by decide +kernel⟩,
    ⟨epS (fun p => { p with stored := [⟨7, 0x55, 0, 12, [8, 9], 0, false⟩] }) [], by decide +kernel⟩⟩

theorem witness_RepeatersComplete :
    (∃ (s : State) (u : State) (m : MgmtIn), s.takeMgmt 0x20 = some (m, u) ∧ ((∀ x ∈ s.plm.probes, ¬(x.home = m.orig ∧
      x.eui = leAt m.data 4 8))) ∧ ((∀ a ∈ [1, 2, 3, 4, 5, 6, 9, 10, 11, 12, 13, 14], ∀ x, s.anchorPhase a = some x →
      256 < (phaseDiff x (leAt m.data 18 2)).natAbs))) ∧
    (∃ (s : State) (u : State) (m : MgmtIn) (a : Nat) (x : Nat) (st : Nat) (en : Nat), s.takeMgmt 0x20 = some (m, u) ∧ ((∀
      x ∈ s.plm.probes, ¬(x.home = m.orig ∧ x.eui = leAt m.data 4 8))) ∧ a ∈ [1, 2, 3, 4, 5, 6, 9, 10, 11, 12, 13, 14]
      ∧ s.anchorPhase a = some x ∧ (phaseDiff x (leAt m.data 18 2)).natAbs ≤ 256 ∧ leAt m.data 14 1 ≠ 0 ∧ s.freeStream
      = some st ∧ s.freeEntry = some en ∧ ((∀ b c, s.slotFree 64 b (leAt m.data 14 1) c = true))) ∧
    (∃ (s : State) (k : Fin 64) (x : Probe), s.plm.probes.find? (·.stream == k.val) = some x ∧ x.frames = 0 ∧ x.since + 4
      * x.period * s.rd PLM_RG_PROBE ≤ s.stamp.cyc) ∧
    (∃ (s : State) (u : State) (m : MgmtIn) (a : Asked) (n : NodeEntry), s.takeMgmt 0x21 = some (m, u) ∧ s.plm.asked = [a]
      ∧ a.id = leAt m.data 1 2 ∧ s.nodeOn a.stream = some n ∧ leAt m.data 3 1 = codeOf .ok ∧ s.grantLevel ≤ leAt
      m.data 5 2) ∧
    (∃ (s : State) (u : State) (m : MgmtIn) (x : Probe), s.takeMgmt 0x22 = some (m, u) ∧ ((∀ g ∈ s.plm.grants, ¬(g.id =
      leAt m.data 1 2 ∧ g.home = m.orig))) ∧ s.plm.probes.find? (fun x => x.id == leAt m.data 1 2 && x.home == m.orig)
      = some x) ∧
    (∃ (s : State) (u : State) (m : MgmtIn) (g : RepGrant), s.takeMgmt 0x22 = some (m, u) ∧ g ∈ s.plm.grants ∧ g.id = leAt
      m.data 1 2 ∧ g.home = m.orig) ∧
    (∃ (s : State) (u : State) (m : MgmtIn) (g : RepGrant), s.takeMgmt 0x23 = some (m, u) ∧ s.plm.grants.find?
      (fun g => g.id == leAt m.data 1 2 && g.home == m.orig) = some g) ∧
    (∃ (s : State) (k : Fin 64) (n : NodeEntry) (peer : Nat) (role : Nat) (id : Nat), s.nodeOn k.val = some n ∧ n.grant =
      some (peer, role, id)) ∧
    (∃ (s : State) (k : Fin 64) (g : RepGrant), s.grantOn k.val = some g ∧ g.lease ≤ min (s.stamp.cyc - g.heard) (s.rd
      PLM_RG_DEAD)) ∧
    (∃ (s : State) (k : Fin 64) (g : RepGrant), s.grantOn k.val = some g ∧ g.taken.isSome = true ∧ g.heard + s.rd
      PLM_RG_MAXACT ≤ s.stamp.cyc) ∧
    (∃ (s : State) (k : Fin 64) (g : RepGrant), s.grantOn k.val = some g ∧ g.role = 1 ∧ g.taken = none ∧ g.heard + s.rd
      PLM_RG_DEAD ≤ s.stamp.cyc) :=
  ⟨⟨askS (rgreqE 357) (fun p => { p with probes := [] }), taken (askS (rgreqE 357) (fun p => { p with probes := [] }))
      0x20, msgE (rgreqE 357), by decide +kernel⟩,
    ⟨askS (rgreqE 356) (fun p => { p with probes := [] }), taken (askS (rgreqE 356) (fun p => { p with probes := [] }))
      0x20, msgE (rgreqE 356), 1, 100, 0, 192, by decide +kernel, by decide +kernel, by decide +kernel,
      by decide +kernel, by decide +kernel, by decide +kernel, by decide +kernel, by decide +kernel, fun _
      _ => by rfl⟩,
    ⟨epS (fun p => { p with probes := [probeE] }) [], 7, probeE, by decide +kernel⟩,
    ⟨askS (rgrspBytes 6 .ok 4 3000) (fun p => { p with asked := [⟨6, 33, 7, 2, 0, none⟩], nodes := [nodeE none] }), taken
      (askS (rgrspBytes 6 .ok 4 3000) (fun p => { p with asked := [⟨6, 33, 7, 2, 0, none⟩], nodes := [nodeE none] }))
      0x21, msgE (rgrspBytes 6 .ok 4 3000), ⟨6, 33, 7, 2, 0, none⟩, nodeE none, by decide +kernel⟩,
    ⟨askS ([0x22, 6, 0, 2, 44, 1, 0, 0, 0, 0]) (fun p => { p with probes := [probeE] }), taken (askS ([0x22, 6, 0, 2, 44,
      1, 0, 0, 0, 0]) (fun p => { p with probes := [probeE] })) 0x22, msgE ([0x22, 6, 0, 2, 44, 1, 0, 0, 0, 0]),
      probeE, by decide +kernel⟩,
    ⟨askS ([0x22, 6, 0, 2, 44, 1, 0, 0, 0, 0]) (fun p => { p with grants := [grantE 1 none] }), taken (askS ([0x22, 6, 0,
      2, 44, 1, 0, 0, 0, 0]) (fun p => { p with grants := [grantE 1 none] })) 0x22, msgE ([0x22, 6, 0, 2, 44, 1, 0, 0,
      0, 0]), grantE 1 none, by decide +kernel⟩,
    ⟨askS ([0x23, 6, 0]) (fun p => { p with grants := [grantE 1 none] }), taken (askS ([0x23, 6, 0])
      (fun p => { p with grants := [grantE 1 none] })) 0x23, msgE ([0x23, 6, 0]), grantE 1 none, by decide +kernel⟩,
    ⟨epS (fun p => { p with nodes := [nodeE (some (33, 2, 6))] }) [], 7, nodeE (some (33, 2, 6)), 33, 2, 6,
      by decide +kernel⟩,
    ⟨epS (fun p => { p with grants := [{ grantE 2 none with heard := 0, lease := 150 }] }) [], 7,
      { grantE 2 none with heard := 0, lease := 150 }, by decide +kernel⟩,
    ⟨epS (fun p => { p with grants := [grantE 2 (some 3)] }) [(PLM_RG_MAXACT, 50000)], 7, grantE 2 (some 3),
      by decide +kernel⟩,
    ⟨epS (fun p => { p with grants := [grantE 1 none] }) [], 7, grantE 1 none, by decide +kernel⟩⟩

theorem witness_ChainLinksComplete :
    (∃ (s : State) (up : Bool) (bad : BitVec 16), s.swcRuns = true ∧ s.swcHead = false) ∧
    (∃ (s : State) (up : Bool) (bad : BitVec 16), s.swcRuns = true ∧ s.swcHead = false) ∧
    (∃ (s : State) (u : State) (f : ChainFrame) (b : List Byte), s.chainTake 0x01 3 f = (some b, u) ∧ s.swcHead = false ∧
      leAt b 0 1 ≤ 31 ∧ s.on SWC_UPLNK = true ∧ s.on SWC_DNLNK = true) ∧
    (∃ (s : State) (u : State) (f : ChainFrame) (b : List Byte), s.chainTake 0x01 3 f = (some b, u) ∧ s.swcHead = false ∧
      leAt b 0 1 = 32) ∧
    (∃ (s : State) (u : State) (f : ChainFrame) (b : List Byte), s.chainTake 0x02 13 f = (some b, u) ∧ s.swcHead = true ∧
      s.swc.enum ≠ none ∧ leAt b 11 2 = s.rd SWC_ENUMNO ∧ 1 ≤ leAt b 0 1 ∧ leAt b 0 1 ≤ 31 ∧ bit (leAt b 10 1) 0 =
      true) ∧
    (∃ (s : State) (u : State) (f : ChainFrame) (b : List Byte), s.chainTake 0x02 13 f = (some b, u) ∧ s.swcHead = true ∧
      s.swc.enum ≠ none ∧ leAt b 11 2 = s.rd SWC_ENUMNO ∧ 1 ≤ leAt b 0 1 ∧ leAt b 0 1 ≤ 31 ∧ bit (leAt b 10 1) 0 =
      false ∧ s.swc.found = []) ∧
    (∃ (s : State) (u : State) (f : ChainFrame) (b : List Byte), s.chainTake 0x02 13 f = (some b, u) ∧ s.swcHead = false ∧
      s.on SWC_UPLNK = true ∧ s.on SWC_OVER = false) ∧
    (∃ (s : State) (u : State) (f : ChainFrame) (b : List Byte), s.swcHead = true ∧ s.on SWC_EN = true ∧ s.swcRuns = true
      ∧ s.outstanding = 0 ∧ s.chainTake 0x09 2 f = (some b, u)) ∧
    (∃ (s : State) (w : RegWrite), s.swcHead = true ∧ s.on SWC_EN = true ∧ s.swcRuns = true ∧ s.admitsWrite 0x0C0 0x070 w
      (setBit w.data.toNat 0) = true ∧ s.outstanding = 0) ∧
    (∃ (s : State) (w : RegWrite), s.swcHead = true ∧ s.on SWC_EN = true ∧ s.swcRuns = true ∧ s.admitsWrite 0x0C0 0x070 w
      (setBit w.data.toNat 0) = true ∧ s.outstanding ≠ 0) ∧
    (∃ (s : State) (c : Nat), s.swc.enum = some c ∧ s.rd CTF_PERIOD ≠ 0) ∧
    (∃ (s : State) (t1 : BitVec 8), s.swcRuns = true ∧ s.on SWC_UPLNK = true ∧ s.swcHead = false ∧ ((∀ c, s.swc.last =
      some c → c + s.rd SWC_APER ≤ s.ctf.cyc))) ∧
    (∃ (s : State) (u : State) (f : ChainFrame) (b : List Byte) (t2 : BitVec 8) (turn : BitVec 32), s.chainTake 0x03 2 f =
      (some b, u) ∧ s.on SWC_DNLNK = true) ∧
    (∃ (s : State) (u : State) (f : ChainFrame) (b : List Byte) (t4 : BitVec 8) (r : AlignReq) (th : Int) (d : Int), th =
      divRound (((leAt b 2 9 : Int) - r.t1) - ((s.chainTime t4 : Int) - (leAt b 11 9 : Int))) 2 ∧ d = divRound
      (((s.chainTime t4 : Int) - r.t1) - ((leAt b 11 9 : Int) - (leAt b 2 9 : Int))) 2 ∧ s.chainTake 0x04 30 f = (some
      b, u) ∧ s.swc.req = some r ∧ s.swcHead = false ∧ r.seq = leAt b 0 2) :=
  ⟨⟨swcS id [(SWC_DNLNK, 0)], false, 3, by decide +kernel⟩,
    ⟨swcS id [], false, 3, by decide +kernel⟩,
    ⟨swcS id [], takenC (swcS id []) 1 3 (frameC 1 ([31, 3, 0])), frameC 1 ([31, 3, 0]), [31, 3, 0], by decide +kernel⟩,
    ⟨swcS id [], takenC (swcS id []) 1 3 (frameC 1 ([32, 3, 0])), frameC 1 ([32, 3, 0]), [32, 3, 0], by decide +kernel⟩,
    ⟨swcS (fun c => { c with enum := some 0 }) [(SWC_HEAD, 1), (SWC_ENUMNO, 3)], takenC (swcS
      (fun c => { c with enum := some 0 }) [(SWC_HEAD, 1), (SWC_ENUMNO, 3)]) 2 13 (frameC 2 (announceC 31 1)), frameC
      2 (announceC 31 1), announceC 31 1, by decide +kernel⟩,
    ⟨swcS (fun c => { c with enum := some 0 }) [(SWC_HEAD, 1), (SWC_ENUMNO, 3)], takenC (swcS
      (fun c => { c with enum := some 0 }) [(SWC_HEAD, 1), (SWC_ENUMNO, 3)]) 2 13 (frameC 2 (announceC 1 0)), frameC 2
      (announceC 1 0), announceC 1 0, by decide +kernel⟩,
    ⟨swcS id [], takenC (swcS id []) 2 13 (frameC 2 (announceC 1 0)), frameC 2 (announceC 1 0), announceC 1 0,
      by decide +kernel⟩,
    ⟨swcS id [(SWC_HEAD, 1)], takenC (swcS id [(SWC_HEAD, 1)]) 9 2 (frameC 9 ([5, 1])), frameC 9 ([5, 1]), [5, 1],
      by decide +kernel⟩,
    ⟨swcS id [(SWC_HEAD, 1)], wq 0 0x0C0 0x070 1, by decide +kernel⟩,
    ⟨swcS (fun c => { c with reports := [reportC] }) [(SWC_HEAD, 1)], wq 0 0x0C0 0x070 1, by decide +kernel⟩,
    ⟨swcS (fun c => { c with enum := some 0 }) [(SWC_HEAD, 1), (SWC_ENUMNO, 3)], 0, by decide +kernel⟩,
    ⟨swcS id [], 255, by decide +kernel⟩,
    ⟨swcS id [], takenC (swcS id []) 3 2 (frameC 3 ([9, 0])), frameC 3 ([9, 0]), [9, 0], 7, 33, by decide +kernel⟩,
    ⟨swcS (fun c => { c with req := some ⟨9, 70000⟩, theta := some 4 }) [], takenC (swcS
      (fun c => { c with req := some ⟨9, 70000⟩, theta := some 4 }) []) 4 30 (frameC 4 (leBytes 2 9 ++ leBytes 9 80000
      ++ leBytes 9 80010 ++ leBytes 9 (2 ^ 72 - 5) ++ [1])), frameC 4 (leBytes 2 9 ++ leBytes 9 80000 ++ leBytes 9
      80010 ++ leBytes 9 (2 ^ 72 - 5) ++ [1]), leBytes 2 9 ++ leBytes 9 80000 ++ leBytes 9 80010 ++ leBytes 9 (2 ^ 72
      - 5) ++ [1], 0, ⟨9, 70000⟩, divRound ((80000 - 70000) - ((((swcS
      (fun c => { c with req := some ⟨9, 70000⟩, theta := some 4 }) []).chainTime 0 : Nat) : Int) - 80010)) 2,
      divRound ((((swcS (fun c => { c with req := some ⟨9, 70000⟩, theta := some 4 }) []).chainTime 0 : Nat) : Int) -
      70000 - (80010 - 80000)) 2, (by first | with_reducible rfl | decide +kernel),
      (by first | with_reducible rfl | decide +kernel), by decide +kernel⟩⟩

theorem witness_SweepsComplete :
    (∃ (s : State) (w : RegWrite) (h : Nat), h = s.rd64 SWC_AT_LO SWC_AT_HI ∧ s.admitsWrite 0x0C0 0x068 w (setBit
      w.data.toNat 8) = true ∧ s.swcHead = true ∧ (bits w.data.toNat 0 4 = 1 ∨ bits w.data.toNat 0 4 = 2) ∧ h ≤
      stampNat s.stamp + 65535 * 65536 ∧ stampNat s.stamp + 262144 ≤ h ∧ s.outstanding < 8 ∧ s.swc.enum = none) ∧
    (∃ (s : State) (w : RegWrite) (h : Nat), h = s.rd64 SWC_AT_LO SWC_AT_HI ∧ s.admitsWrite 0x0C0 0x068 w (setBit
      w.data.toNat 8) = true ∧ s.swcHead = true ∧ (bits w.data.toNat 0 4 = 1 ∨ bits w.data.toNat 0 4 = 2) ∧ h ≤
      stampNat s.stamp + 65535 * 65536 ∧ h < stampNat s.stamp + 262144) ∧
    (∃ (s : State) (u : State) (f : ChainFrame) (b : List Byte), s.chainTake 0x05 12 f = (some b, u) ∧ s.swcHead = false ∧
      s.rd SWC_POS ≠ 0x3F ∧ (leAt b 2 1 = 1 ∨ leAt b 2 1 = 2) ∧ s.swc.pending.length < 8 ∧ (stampNat s.stamp : Int) ≤
      s.localOf (leAt b 3 8) ∧ s.on SWC_EN = true) ∧
    (∃ (s : State) (u : State) (f : ChainFrame) (b : List Byte), s.chainTake 0x05 12 f = (some b, u) ∧ s.swcHead = false ∧
      s.rd SWC_POS ≠ 0x3F ∧ (leAt b 2 1 = 1 ∨ leAt b 2 1 = 2) ∧ s.swc.pending.length < 8 ∧ s.localOf (leAt b 3 8) <
      (stampNat s.stamp : Int)) ∧
    (∃ (s : State) (u : State) (f : ChainFrame) (b : List Byte), s.chainTake 0x06 4 f = (some b, u) ∧ s.swcHead = true) ∧
    (∃ (s : State) (u : State) (f : ChainFrame) (b : List Byte), s.chainTake 0x06 4 f = (some b, u) ∧ s.swcHead = false ∧
      s.on SWC_UPLNK = true ∧ s.on SWC_OVER = false) ∧
    (∃ (s : State) (x : Sweep), s.firstSweep = some x ∧ s.swcRuns = true ∧ s.swc.next < 16 ∧ s.localOf x.head <
      ((s.ctf.cyc : Int) + 1) * 65536) ∧
    (∃ (s : State) (u : State) (f : ChainFrame) (b : List Byte) (r : SweepReport) (k : Nat), s.chainTake 0x07 29 f = (some
      b, u) ∧ s.swcHead = true ∧ s.report? (leAt b 0 2) = some r ∧ r.entries.findIdx? (·.eui == leAt b 4 8) = some k) ∧
    (∃ (s : State) (u : State) (f : ChainFrame) (b : List Byte) (x : FetchRun), s.chainTake 0x07 29 f = (some b, u) ∧
      s.swcHead = true ∧ s.swc.fetch = some x ∧ x.id = leAt b 0 2 ∧ x.eui = leAt b 4 8 ∧ bit (leAt b 28 1) 0 = true) ∧
    (∃ (s : State) (u : State) (f : ChainFrame) (b : List Byte), s.chainTake 0x07 29 f = (some b, u) ∧ s.swcHead = false ∧
      s.on SWC_UPLNK = true ∧ s.on SWC_OVER = false) ∧
    (∃ (s : State) (r : SweepReport), (s.swc.reports.find? fun r => !r.final && decide (r.head + s.rd SWC_RWAIT * 65536 ≤
      stampNat s.stamp)) = some r) ∧
    (∃ (s : State) (w : RegWrite) (r : SweepReport) (e : ReportEntry), s.admitsWrite 0x0C0 0x07C w (setBit w.data.toNat
      24) = true ∧ s.swcHead = true ∧ s.report? (bits w.data.toNat 0 16) = some r ∧ r.entries[bits w.data.toNat 16 6]?
      = some e) ∧
    (∃ (s : State) (u : State) (f : ChainFrame) (b : List Byte), s.chainTake 0x08 10 f = (some b, u) ∧ s.swcHead = false ∧
      leAt b 2 8 = s.eui ∧ s.on SWC_UPLNK = true ∧ ((∀ k < 16, ¬(s.on (SWC_LR_VALID k) = true ∧ s.rd (SWC_LR_ID k) =
      leAt b 0 2)))) ∧
    (∃ (s : State) (u : State) (f : ChainFrame) (b : List Byte) (k : _), s.chainTake 0x08 10 f = (some b, u) ∧ s.swcHead =
      false ∧ leAt b 2 8 = s.eui ∧ s.on SWC_UPLNK = true ∧ k < 16 ∧ s.on (SWC_LR_VALID k) = true ∧ s.rd (SWC_LR_ID k)
      = leAt b 0 2 ∧ ((∀ j < 16, s.on (SWC_LR_VALID j) = true → s.rd (SWC_LR_ID j) = leAt b 0 2 → j = k))) ∧
    (∃ (s : State) (f : FetchRun), s.swc.fetch = some f ∧ s.rd CTF_PERIOD ≠ 0) ∧
    (∃ (s : State) (r : RegRead), s.admitsRead 0x0C0 0x04C r = true) ∧
    (∃ (s : State) (r : RegRead), s.admitsRead 0x0C0 0x084 r = true) :=
  ⟨⟨swcS id [(SWC_HEAD, 1), (SWC_AT_LO, 1004 * 65536)], wq 0 0x0C0 0x068 0x101, 1004 * 65536,
      (by first | with_reducible rfl | decide +kernel), by decide +kernel⟩,
    ⟨swcS id [(SWC_HEAD, 1), (SWC_AT_LO, 1004 * 65536 - 1)], wq 0 0x0C0 0x068 0x102, 1004 * 65536 - 1,
      (by first | with_reducible rfl | decide +kernel), by decide +kernel⟩,
    ⟨swcS id [(SWC_POS, 5), (SWC_DNLNK, 0)], takenC (swcS id [(SWC_POS, 5), (SWC_DNLNK, 0)]) 5 12 (frameC 5 (leBytes 2 6
      ++ [1] ++ leBytes 8 65536000 ++ [0])), frameC 5 (leBytes 2 6 ++ [1] ++ leBytes 8 65536000 ++ [0]), leBytes 2 6
      ++ [1] ++ leBytes 8 65536000 ++ [0], by decide +kernel⟩,
    ⟨swcS id [(SWC_POS, 5), (SWC_DNLNK, 0)], takenC (swcS id [(SWC_POS, 5), (SWC_DNLNK, 0)]) 5 12 (frameC 5 (leBytes 2 6
      ++ [1] ++ leBytes 8 65535999 ++ [0])), frameC 5 (leBytes 2 6 ++ [1] ++ leBytes 8 65535999 ++ [0]), leBytes 2 6
      ++ [1] ++ leBytes 8 65535999 ++ [0], by decide +kernel⟩,
    ⟨swcS (fun c => { c with reports := [reportC], fetch := some ⟨6, 0x77, 0⟩ }) [(SWC_HEAD, 1)], takenC (swcS
      (fun c => { c with reports := [reportC], fetch := some ⟨6, 0x77, 0⟩ }) [(SWC_HEAD, 1)]) 6 4 (frameC 6 ([6, 0, 1,
      0])), frameC 6 ([6, 0, 1, 0]), [6, 0, 1, 0], by decide +kernel⟩,
    ⟨swcS id [], takenC (swcS id []) 6 4 (frameC 6 ([6, 0, 1, 0])), frameC 6 ([6, 0, 1, 0]), [6, 0, 1, 0],
      by decide +kernel⟩,
    ⟨swcS (fun c => { c with pending := [⟨6, 1, 65601535⟩], next := 15 }) [], ⟨6, 1, 65601535⟩, by decide +kernel⟩,
    ⟨swcS (fun c => { c with reports := [reportC], fetch := some ⟨6, 0x77, 0⟩ }) [(SWC_HEAD, 1)], takenC (swcS
      (fun c => { c with reports := [reportC], fetch := some ⟨6, 0x77, 0⟩ }) [(SWC_HEAD, 1)]) 7 29 (frameC 7
      (resultC)), frameC 7 (resultC), resultC, reportC, 1, by decide +kernel⟩,
    ⟨swcS (fun c => { c with reports := [reportC], fetch := some ⟨6, 0x77, 0⟩ }) [(SWC_HEAD, 1)], takenC (swcS
      (fun c => { c with reports := [reportC], fetch := some ⟨6, 0x77, 0⟩ }) [(SWC_HEAD, 1)]) 7 29 (frameC 7
      (resultC)), frameC 7 (resultC), resultC, ⟨6, 0x77, 0⟩, by decide +kernel⟩,
    ⟨swcS id [], takenC (swcS id []) 7 29 (frameC 7 (resultC)), frameC 7 (resultC), resultC, by decide +kernel⟩,
    ⟨swcS (fun c => { c with reports := [reportC], fetch := some ⟨6, 0x77, 0⟩ }) [(SWC_HEAD, 1)], reportC,
      by decide +kernel⟩,
    ⟨swcS (fun c => { c with reports := [reportC], fetch := some ⟨6, 0x77, 0⟩ }) [(SWC_HEAD, 1)], wq 0 0x0C0 0x07C
      0x01010006, reportC, { eui := 0x77 }, by decide +kernel⟩,
    ⟨swcS id [], takenC (swcS id []) 8 10 (frameC 8 (leBytes 2 6 ++ leBytes 8 0x42)), frameC 8 (leBytes 2 6 ++ leBytes 8
      0x42), leBytes 2 6 ++ leBytes 8 0x42, by decide +kernel⟩,
    ⟨swcS id [(SWC_LR_VALID 15, 1), (SWC_LR_ID 15, 6), (SWC_LR_STS 15, 4)], takenC (swcS id [(SWC_LR_VALID 15, 1),
      (SWC_LR_ID 15, 6), (SWC_LR_STS 15, 4)]) 8 10 (frameC 8 (leBytes 2 6 ++ leBytes 8 0x42)), frameC 8 (leBytes 2 6
      ++ leBytes 8 0x42), leBytes 2 6 ++ leBytes 8 0x42, 15, by decide +kernel⟩,
    ⟨swcS (fun c => { c with reports := [reportC], fetch := some ⟨6, 0x77, 0⟩ }) [(SWC_HEAD, 1)], ⟨6, 0x77, 0⟩,
      by decide +kernel⟩,
    ⟨swcS (fun c => { c with offset := -3 }) [], rq 0, by decide +kernel⟩,
    ⟨swcS (fun c => { c with reports := [reportC] }) [(SWC_HEAD, 1), (SWC_R_ID, 6)], rq 0, by decide +kernel⟩⟩

theorem witness_TamperComplete :
    (∃ (s : State) (k : Fin 10) (b : BitVec 16) (peak : BitVec 16), s.tmp.mags.any (·.1 == k.val) = false ∧ s.magWired
      k.val = true ∧ ((k.val < 2 → s.cfg TMP_HTH ≤ b.toNat))) ∧
    (∃ (s : State) (k : Fin 10) (b : BitVec 16) (c : Nat × TmpCond), s.tmp.mags.find? (·.1 == k.val) = some c ∧ ((k.val <
      2 → b.toNat < s.cfg TMP_HTH - s.cfg TMP_HHYS))) ∧
    (∃ (s : State) (k : Fin 4), s.tmp.encs.any (·.1 == k.val) = false ∧ bit (s.cfg TMP_EEN) k.val = true) ∧
    (∃ (s : State) (k : Fin 4) (c : Nat × TmpCond), s.tmp.encs.find? (·.1 == k.val) = some c) ∧
    (∃ (s : State) (k : Fin 8) (r : Nat × GlitchRun), k.val < 7 ∧ s.tmp.runs.find? (·.1 == k.val) = some r) ∧
    (∃ (s : State) (x : BitVec 16), s.tmp.temp = none) ∧
    (∃ (s : State) (x : BitVec 16), s.tmp.temp = none ∧ x.toInt < s.tempLow) ∧
    (∃ (s : State) (x : BitVec 16), s.tmp.temp = none ∧ s.tempLow ≤ x.toInt ∧ s.tempHigh < x.toInt) ∧
    (∃ (s : State) (x : BitVec 16) (c : TmpCond), s.tmp.temp = some c ∧ s.tempLow + 10 * s.cfg TMP_THYS ≤ x.toInt ∧
      x.toInt ≤ s.tempHigh - 10 * s.cfg TMP_THYS) :=
  ⟨⟨tmpS id [(TMP_HTH, 50), (TMP_MEN, 0xFF)], 1, 50, 77, by decide +kernel⟩,
    ⟨tmpS (fun t => { t with mags := [(1, ⟨0, 0⟩)] }) [(TMP_HTH, 50), (TMP_HHYS, 8)], 1, 41, (1, ⟨0, 0⟩),
      by decide +kernel⟩,
    ⟨tmpS id [(TMP_EEN, 8)], 3, by decide +kernel⟩,
    ⟨tmpS (fun t => { t with encs := [(3, ⟨0, 0⟩)] }) [], 3, (3, ⟨0, 0⟩), by decide +kernel⟩,
    ⟨tmpS (fun t => { t with runs := [(6, ⟨2, 0⟩)] }) [], 6, (6, ⟨2, 0⟩), by decide +kernel⟩,
    ⟨tmpS id [], 5, by decide +kernel⟩,
    ⟨tmpS id [(TMP_TLO, 0xD8)], 0xFE6F, by decide +kernel⟩,
    ⟨tmpS id [(TMP_TLO, 0xD8), (TMP_THI, 85)], 851, by decide +kernel⟩,
    ⟨tmpS (fun t => { t with temp := some ⟨0, 1⟩ }) [(TMP_TLO, 0xD8), (TMP_THI, 85), (TMP_THYS, 2)], 830, ⟨0, 1⟩,
      by decide +kernel⟩⟩

theorem witness_CaskLogComplete :
    (∃ (s : State) (e : LogEvent) (l : List LogEvent), s.events = e :: l ∧ s.celBlocked = false ∧ s.ctf.seeded = false ∧
      s.clg.early.length < 128) ∧
    (∃ (s : State) (e : LogEvent) (l : List LogEvent) (h : List Byte), h = s.entryHead e.code e.tc (leNat e.data) false ∧
      s.events = e :: l ∧ s.celBlocked = false ∧ s.ctf.seeded = true ∧ s.rd CLG_MODE = 0 ∧ s.clg.table = [] ∧ s.logPos
      ≠ 0 ∧ s.logPos < 253 ∧ s.rd CLG_RESV + 33 < s.logFree) ∧
    (∃ (s : State) (b : Nat) (l : List Nat), s.clg.signing = b :: l ∧ s.celBlocked = false ∧ s.on SEC_IDOK = true ∧ s.on
      SEC_RBGERR = false) ∧
    (∃ (s : State) (b : Nat) (l : List Nat), s.clg.signing = b :: l ∧ s.celBlocked = false ∧ s.on SEC_IDOK = false) ∧
    (∃ (s : State) (w : RegWrite), s.admitsWrite 0x0CC 0x05C w (setBit w.data.toNat 0) = true ∧ s.logFull = false ∧
      s.ctf.seeded = true ∧ s.celBlocked = false ∧ s.clg.table = [] ∧ s.logPos ≤ 254 ∧ s.logHead + 1 < 2 ^ 32) ∧
    (∃ (s : State) (w : RegWrite), s.admitsWrite 0x0CC 0x058 w w.data.toNat = true ∧ s.clg.known = true ∧ s.logTail <
      w.data.toNat ∧ w.data.toNat ≤ s.logHead ∧ ((∀ b ∈ s.clg.signing, w.data.toNat ≤ b)) ∧ s.logFull = false) ∧
    (∃ (s : State) (w : RegWrite), s.admitsWrite 0x0CC 0x058 w w.data.toNat = true ∧ s.clg.known = true ∧ w.data.toNat ≤
      s.logTail ∧ w.data.toNat ≤ s.logHead) ∧
    (∃ (s : State) (r : RegRead) (e : _), r.tc.val = 0 ∧ s.admitsRead 0x0CC 0x080 r = true ∧ s.blockHeld (s.rd CLG_RD_BLK)
      = true ∧ s.rd CLG_RD_POS < s.slotsIn (s.rd CLG_RD_BLK) ∧ (s.slotBytes (s.rd CLG_RD_BLK) (s.rd CLG_RD_POS)).1 =
      some e) ∧
    (∃ (s : State) (r : RegRead), r.tc.val = 0 ∧ s.admitsRead 0x0CC 0x080 r = true ∧ s.blockHeld (s.rd CLG_RD_BLK) =
      false) ∧
    (∃ (s : State) (w : RegWrite) (d : Nat), d = s.rd CLG_ED_LO * 64 + s.rd CLG_ED_HI * 2 ^ 32 ∧ w.tc.val = 0 ∧
      s.admitsWrite 0x0CC 0x0B0 w (setBit w.data.toNat 0) = true ∧ s.on CLG_EXP_BUSY = false ∧ ((∀ k < s.rd
      CLG_EXP_CNT, s.blockHeld (s.rd CLG_EXP_BLK + k) = true)) ∧ s.rd CLG_EXP_CNT ≠ 0 ∧ s.tenantMay 0 true d (128 +
      8192 * s.rd CLG_EXP_CNT) = true) ∧
    (∃ (s : State) (w : RegWrite) (d : Nat), d = s.rd CLG_ED_LO * 64 + s.rd CLG_ED_HI * 2 ^ 32 ∧ w.tc.val = 0 ∧
      s.admitsWrite 0x0CC 0x0B0 w (setBit w.data.toNat 0) = true ∧ s.on CLG_EXP_BUSY = false ∧ ((∀ k < s.rd
      CLG_EXP_CNT, s.blockHeld (s.rd CLG_EXP_BLK + k) = true)) ∧ s.rd CLG_EXP_CNT = 0) ∧
    (∃ (s : State) (x : ExportRun) (l : List ExportRun), s.clg.exports = x :: l) ∧
    (∃ (s : State) (w : RegWrite), s.admitsWrite 0x0CC 0x0C8 w w.data.toNat = true ∧ firmwareTc (bits w.data.toNat 0 16) =
      some (bits w.data.toNat 16 8)) ∧
    (∃ (s : State) (w : RegWrite), s.admitsWrite 0x0CC 0x0C8 w w.data.toNat = true ∧ firmwareTc (bits w.data.toNat 0 16) =
      none) ∧
    (∃ (s : State), s.logFull = true ∧ s.clg.known = true ∧ s.celBlocked = false) :=
  ⟨⟨{ withEvents (clgS id []) [eventE] with ctf := {} }, eventE, [], by decide +kernel⟩,
    ⟨withEvents (clgS id []) [eventE], eventE, [], (withEvents (clgS id []) [eventE]).entryHead 0x1011 255 3 false,
      (by first | with_reducible rfl | decide +kernel), by decide +kernel⟩,
    ⟨clgS (fun c => { c with signing := [69] }) [(SEC_IDOK, 1)], 69, [], by decide +kernel⟩,
    ⟨clgS (fun c => { c with signing := [69] }) [(SEC_IDOK, 0)], 69, [], by decide +kernel⟩,
    ⟨clgS id [], wq 0 0x0CC 0x05C 1, by decide +kernel⟩,
    ⟨clgS id [], wq 0 0x0CC 0x058 70, by decide +kernel⟩,
    ⟨clgS id [], wq 0 0x0CC 0x058 68, by decide +kernel⟩,
    ⟨(clgS id [(CLG_RD_BLK, 70), (CLG_RD_POS, 4)]).celPutRaw (slotGroup 70 4) (celWord (slotGroup 70 4)
      0x1122334455667788), rq 0, leBytes 32 0x1122334455667788, by decide +kernel⟩,
    ⟨clgS id [(CLG_RD_BLK, 6)], rq 0, by decide +kernel⟩,
    ⟨clgS id [(CLG_EXP_CNT, 2), (CLG_EXP_BLK, 69)], wq 0 0x0CC 0x0B0 1, 0,
      (by first | with_reducible rfl | decide +kernel), by decide +kernel⟩,
    ⟨clgS id [(CLG_EXP_BLK, 69)], wq 0 0x0CC 0x0B0 1, 0, (by first | with_reducible rfl | decide +kernel),
      by decide +kernel⟩,
    ⟨clgS (fun c => { c with exports := [⟨0x0CC, 69, 2, 0, 0, none⟩] }) [], ⟨0x0CC, 69, 2, 0, 0, none⟩, [],
      by decide +kernel⟩,
    ⟨clgS id [(CLG_FD_LO, 3)], wq 0 0x0CC 0x0C8 0x14023, by decide +kernel⟩,
    ⟨clgS id [], wq 0 0x0CC 0x0C8 0x14022, by decide +kernel⟩,
    ⟨clgS id [(CLG_MODE, 2)], by decide +kernel⟩⟩

theorem witness_SecurityStartsComplete :
    (∃ (s : State) (k : Fin 64) (r : CmdRing), r = s.secRing k.val ∧ s.on SEC_EN = true ∧ s.on (SEC_REN k.val) = true ∧
      s.level < 3 ∧ s.sec.stopped.contains k.val = false ∧ (s.cmdRingMay k.val r = false ∨ 2 ^ r.sl < s.cmdNew r) ∧
      s.on (SEC_RFAULT k.val) = false) ∧
    (∃ (s : State) (k : Fin 64) (r : CmdRing), r = s.secRing k.val ∧ s.on SEC_EN = true ∧ s.on (SEC_REN k.val) = true ∧
      s.level < 3 ∧ s.sec.stopped.contains k.val = false ∧ s.cmdRingMay k.val r = true ∧ s.cmdNew r = 1 ∧ ((∀ h ∈
      s.sec.held, h.key ≠ k.val))) ∧
    (∃ (s : State) (u : Nat) (x : RingItem) (w : Nat) (key : List Byte), w = x.word.toNat ∧ key = s.slotMat (sdSlot w) ∧
      SecReady s 0x01 u x) ∧
    (∃ (s : State) (u : Nat) (x : RingItem) (w : Nat) (key : List Byte), w = x.word.toNat ∧ key = s.slotMat (sdSlot w) ∧
      SecReady s 0x02 u x) ∧
    (∃ (s : State) (u : Nat) (x : RingItem) (w : Nat) (key : List Byte), w = x.word.toNat ∧ key = s.slotMat (sdSlot w) ∧
      SecReady s 0x03 u x) ∧
    (∃ (s : State) (u : Nat) (x : RingItem) (w : Nat) (key : List Byte), w = x.word.toNat ∧ key = s.slotMat (sdSlot w) ∧
      SecReady s 0x04 u x) ∧
    (∃ (s : State) (u : Nat) (x : RingItem) (w : Nat) (key : List Byte), w = x.word.toNat ∧ key = s.slotMat (sdSlot w) ∧
      SecReady s 0x05 u x) ∧
    (∃ (s : State) (u : Nat) (x : RingItem) (w : Nat) (key : List Byte), w = x.word.toNat ∧ key = s.slotMat (sdSlot w) ∧
      SecReady s 0x06 u x ∧ sdAlen w = 64) ∧
    (∃ (s : State) (u : Nat) (x : RingItem) (w : Nat) (key : List Byte), w = x.word.toNat ∧ key = s.slotMat (sdSlot w) ∧
      SecReady s 0x07 u x) ∧
    (∃ (s : State) (u : Nat) (x : RingItem) (w : Nat) (key : List Byte), w = x.word.toNat ∧ key = s.slotMat (sdSlot w) ∧
      SecReady s 0x08 u x) ∧
    (∃ (s : State) (u : Nat) (x : RingItem) (w : Nat) (key : List Byte), w = x.word.toNat ∧ key = s.slotMat (sdSlot w) ∧
      SecReady s 0x10 u x) ∧
    (∃ (s : State) (u : Nat) (x : RingItem) (w : Nat) (key : List Byte), w = x.word.toNat ∧ key = s.slotMat (sdSlot w) ∧
      SecReady s 0x11 u x) ∧
    (∃ (s : State) (u : Nat) (x : RingItem) (w : Nat) (key : List Byte), w = x.word.toNat ∧ key = s.slotMat (sdSlot w) ∧
      SecReady s 0x13 u x) :=
  ⟨⟨secS 1 (List.replicate 16 9) id [(TUN_WIN_SIZE 5 0, 16)], 5, ⟨0x10000, 1, 1⟩,
      (by first | with_reducible rfl | decide +kernel), by decide +kernel⟩,
    ⟨(secS 1 (List.replicate 16 9) id []).store 0x10000 ([1] ++ List.replicate 63 0 ++ leBytes 64 (secW 1 32 0 0 0)), 5,
      ⟨0x10000, 1, 1⟩, (by first | with_reducible rfl | decide +kernel), by decide +kernel⟩,
    ⟨secI 0 [] (secW 1 32 0 0 0), 1, secX (secW 1 32 0 0 0), secW 1 32 0 0 0, [],
      (by first | with_reducible rfl | decide +kernel), (by first | with_reducible rfl | decide +kernel),
      (by unfold SecReady; decide +kernel)⟩,
    ⟨secI 3 (List.replicate 32 9) (secW 2 32 0 0 0), 1, secX (secW 2 32 0 0 0), secW 2 32 0 0 0, (List.replicate 32 9),
      (by first | with_reducible rfl | decide +kernel), (by first | with_reducible rfl | decide +kernel),
      (by unfold SecReady; decide +kernel)⟩,
    ⟨secI 1 (List.replicate 16 9) (secW 3 20 16 13 4), 2, secX (secW 3 20 16 13 4), secW 3 20 16 13 4, (List.replicate 16
      9), (by first | with_reducible rfl | decide +kernel), (by first | with_reducible rfl | decide +kernel),
      (by unfold SecReady; decide +kernel)⟩,
    ⟨secI 1 (List.replicate 16 9) (secW 4 20 16 13 4), 2, secX (secW 4 20 16 13 4), secW 4 20 16 13 4, (List.replicate 16
      9), (by first | with_reducible rfl | decide +kernel), (by first | with_reducible rfl | decide +kernel),
      (by unfold SecReady; decide +kernel)⟩,
    ⟨secI 4 (List.replicate 32 9) (secW 5 32 0 0 0), 0, secX (secW 5 32 0 0 0), secW 5 32 0 0 0, (List.replicate 32 9),
      (by first | with_reducible rfl | decide +kernel), (by first | with_reducible rfl | decide +kernel),
      (by unfold SecReady; decide +kernel)⟩,
    ⟨secI 4 (List.replicate 32 9) (secW 6 32 64 0 0), 0, secX (secW 6 32 64 0 0), secW 6 32 64 0 0, (List.replicate 32 9),
      (by first | with_reducible rfl | decide +kernel), (by first | with_reducible rfl | decide +kernel),
      (by unfold SecReady; decide +kernel)⟩,
    ⟨secI 4 (List.replicate 32 9) (secW 7 64 40 1 0), 0, secX (secW 7 64 40 1 0), secW 7 64 40 1 0, (List.replicate 32 9),
      (by first | with_reducible rfl | decide +kernel), (by first | with_reducible rfl | decide +kernel),
      (by unfold SecReady; decide +kernel)⟩,
    ⟨secI 0 [] (secW 8 20 0 0 0), 4, secX (secW 8 20 0 0 0), secW 8 20 0 0 0, [],
      (by first | with_reducible rfl | decide +kernel), (by first | with_reducible rfl | decide +kernel),
      (by unfold SecReady; decide +kernel)⟩,
    ⟨secI 0 [] (secW 16 16 0 1 0), 5, secX (secW 16 16 0 1 0), secW 16 16 0 1 0, [],
      (by first | with_reducible rfl | decide +kernel), (by first | with_reducible rfl | decide +kernel),
      (by unfold SecReady; decide +kernel)⟩,
    ⟨secI 0 [] (secW 17 0 0 4 0), 5, secX (secW 17 0 0 4 0), secW 17 0 0 4 0, [],
      (by first | with_reducible rfl | decide +kernel), (by first | with_reducible rfl | decide +kernel),
      (by unfold SecReady; decide +kernel)⟩,
    ⟨secI 4 (List.replicate 32 9) (secW 19 0 0 0 0), 5, secX (secW 19 0 0 0 0), secW 19 0 0 0 0, (List.replicate 32 9),
      (by first | with_reducible rfl | decide +kernel), (by first | with_reducible rfl | decide +kernel),
      (by unfold SecReady; decide +kernel)⟩⟩

theorem witness_SecurityEndsComplete :
    (∃ (s : State) (u : Fin 6) (o : SecOp) (w : Nat), w = o.item.word.toNat ∧ s.sec.ops.find? (·.unit == u.val) = some o ∧
      (o.code = .ok ∨ o.code = .holdover) ∧ s.sec.erases = [] ∧ o.put = none ∧ s.sec.stopped.contains o.item.tc =
      false ∧ ((∀ h ∈ s.sec.held, h.key ≠ o.item.tc)) ∧ (s.store o.addr o.out).cmdRoom (s.secRing o.item.tc) = true) ∧
    (∃ (s : State) (u : Fin 6) (o : SecOp) (w : Nat) (p : _), w = o.item.word.toNat ∧ s.sec.ops.find? (·.unit == u.val) =
      some o ∧ (o.code = .ok ∨ o.code = .holdover) ∧ s.sec.erases = [] ∧ o.put = some p ∧ p.slot < 32 ∧ p.pers =
      false) ∧
    (∃ (s : State) (u : Nat) (x : RingItem) (k : Nat), k = sdSlot x.word.toNat ∧ SecReady s 0x12 u x ∧ s.on (SEC_S_PERSIST
      k) = false ∧ s.sec.erases = [] ∧ s.itemLate x = false ∧ ((∀ o ∈ s.sec.ops, ¬(o.holds = true ∧ o.slot = k)))) ∧
    (∃ (s : State) (u : Nat) (x : RingItem) (k : Nat), k = sdSlot x.word.toNat ∧ SecReady s 0x12 u x ∧ s.on (SEC_S_PERSIST
      k) = false ∧ s.sec.erases = [] ∧ s.itemLate x = false ∧ ((∃ o ∈ s.sec.ops, o.holds = true ∧ o.slot = k))) ∧
    (∃ (s : State) (k : Fin 32) (e : SecErase), s.sec.erases = [e] ∧ e.slot = k.val ∧ s.rd CTF_PERIOD ≠ 0) ∧
    (∃ (s : State) (c : Nat), s.on SEC_RBGERR = true ∧ s.sec.failed = some c ∧ s.rd CTF_PERIOD ≠ 0) ∧
    (∃ (s : State) (w : RegWrite), SecOcmd s w 0 ∧ s.ccx.bootOk = false) ∧
    (∃ (s : State) (w : RegWrite), SecOcmd s w 0 ∧ s.ccx.bootOk = true ∧ s.celBlocked = true) ∧
    (∃ (s : State) (w : RegWrite), SecOcmd s w 0 ∧ s.ccx.bootOk = true ∧ s.celBlocked = false ∧ s.level < 3 ∧ s.rd
      MGC_B_SVN ≤ s.rollback) ∧
    (∃ (s : State) (w : RegWrite), SecOcmd s w 0 ∧ s.ccx.bootOk = true ∧ s.celBlocked = false ∧ s.level < 3 ∧ s.rollback <
      s.rd MGC_B_SVN) ∧
    (∃ (s : State) (w : RegWrite), s.celBlocked = false ∧ s.level < 3 ∧ SecOcmd s w 1 ∧ s.ccx.kidx ≠ 0) ∧
    (∃ (s : State) (w : RegWrite), s.celBlocked = false ∧ s.level < 3 ∧ SecOcmd s w 1 ∧ s.ccx.kidx = 0) ∧
    (∃ (s : State) (w : RegWrite), s.celBlocked = false ∧ s.level < 3 ∧ SecOcmd s w 2 ∧ s.ccx.kidx ≠ 1) ∧
    (∃ (s : State) (w : RegWrite), s.celBlocked = false ∧ s.level < 3 ∧ SecOcmd s w 2 ∧ s.ccx.kidx = 1) ∧
    (∃ (s : State) (w : RegWrite), s.celBlocked = false ∧ s.level < 3 ∧ SecOcmd s w 3) ∧
    (∃ (s : State) (w : RegWrite) (a : _), s.celBlocked = false ∧ s.level < 3 ∧ SecOcmd s w 4 ∧ s.sec.armed = some a ∧
      s.ticks ≤ a + 65536 ∧ s.sec.erases = []) ∧
    (∃ (s : State) (w : RegWrite), s.celBlocked = false ∧ s.level < 3 ∧ SecOcmd s w 4 ∧ (s.sec.armed = none ∨ (∃ a,
      s.sec.armed = some a ∧ a + 65536 < s.ticks))) :=
  ⟨⟨secR (secO (secW 3 20 16 13 4) 2 none), 2, secO (secW 3 20 16 13 4) 2 none, secW 3 20 16 13 4,
      (by first | with_reducible rfl | decide +kernel), by decide +kernel⟩,
    ⟨secR (secO (secW 16 16 0 1 0) 5 (some putE)), 5, secO (secW 16 16 0 1 0) 5 (some putE), secW 16 16 0 1 0, putE,
      (by first | with_reducible rfl | decide +kernel), by decide +kernel⟩,
    ⟨secS 1 (List.replicate 16 9) (fun s => { s with items := [secX (secW 0x12 0 0 0 0)], ops := [] }) [], 5, secX (secW
      0x12 0 0 0 0), 3, (by first | with_reducible rfl | decide +kernel), (by unfold SecReady; decide +kernel)⟩,
    ⟨secS 1 (List.replicate 16 9)
      (fun s => { s with items := [secX (secW 0x12 0 0 0 0)], ops := [secO (secW 3 20 16 13 4) 2 none] }) [], 5, secX
      (secW 0x12 0 0 0 0), 3, (by first | with_reducible rfl | decide +kernel), (by unfold SecReady; decide +kernel)⟩,
    ⟨secS 1 [] (fun s => { s with ops := [secO (secW 3 20 16 13 4) 2 none], erases := [⟨3, 0, 1, none, false, 5, [0]⟩] })
      [], 3, ⟨3, 0, 1, none, false, 5, [0]⟩, by decide +kernel⟩,
    ⟨otpS id (fun s => { s with failed := some 0 }) [(SEC_RBGERR, 1)], 0, by decide +kernel⟩,
    ⟨otpS id id [], wq 0 0x0D0 0x04C 1, (by unfold SecOcmd; decide +kernel)⟩,
    ⟨otpS (fun c => { c with bootOk := true }) id [(PMU_WBLK, 1)], wq 0 0x0D0 0x04C 1,
      (by unfold SecOcmd; decide +kernel)⟩,
    ⟨otpS (fun c => { c with bootOk := true }) id [], wq 0 0x0D0 0x04C 1, (by unfold SecOcmd; decide +kernel)⟩,
    ⟨otpS (fun c => { c with bootOk := true }) id [(MGC_B_SVN, 5)], wq 0 0x0D0 0x04C 1,
      (by unfold SecOcmd; decide +kernel)⟩,
    ⟨otpS (fun c => { c with kidx := 1 }) id [], wq 0 0x0D0 0x04C 2, (by unfold SecOcmd; decide +kernel)⟩,
    ⟨otpS id id [], wq 0 0x0D0 0x04C 2, (by unfold SecOcmd; decide +kernel)⟩,
    ⟨otpS id id [], wq 0 0x0D0 0x04C 4, (by unfold SecOcmd; decide +kernel)⟩,
    ⟨otpS (fun c => { c with kidx := 1 }) id [], wq 0 0x0D0 0x04C 4, (by unfold SecOcmd; decide +kernel)⟩,
    ⟨otpS id id [], wq 0 0x0D0 0x04C 8, (by unfold SecOcmd; decide +kernel)⟩,
    ⟨otpS id (fun s => { s with armed := some 0 }) [], wq 0 0x0D0 0x04C 16, 0, (by unfold SecOcmd; decide +kernel)⟩,
    ⟨otpS id id [], wq 0 0x0D0 0x04C 16, (by unfold SecOcmd; decide +kernel)⟩⟩

theorem witness_CellarComplete :
    (∃ (s : State) (k : Fin 64) (r : CmdRing), r = s.celRing k.val ∧ s.on CEL_EN = true ∧ s.on (CEL_REN k.val) = true ∧
      s.level < 3 ∧ s.cel.stopped.contains k.val = false ∧ s.celBlocked = false ∧ (s.cmdRingMay k.val r = false ∨ 2 ^
      r.sl < s.cmdNew r) ∧ s.on (CEL_RFAULT k.val) = false) ∧
    (∃ (s : State) (k : Fin 64) (r : CmdRing), r = s.celRing k.val ∧ s.on CEL_EN = true ∧ s.on (CEL_REN k.val) = true ∧
      s.level < 3 ∧ s.cel.stopped.contains k.val = false ∧ s.celBlocked = false ∧ s.cmdRingMay k.val r = true ∧
      s.cmdNew r = 1 ∧ ((∀ h ∈ s.cel.held, h.key ≠ k.val))) ∧
    (∃ (s : State) (x : RingItem), CelReady s 1 x) ∧
    (∃ (s : State) (x : RingItem), CelReady s 2 x) ∧
    (∃ (s : State) (x : RingItem), CelReady s 3 x) ∧
    (∃ (s : State) (r : CelRun) (w : Nat) (l : List Nat), w = r.item.word.toNat ∧ l = (r.data.map (·.toNat)).take 1024 ∧
      s.cel.run = some r ∧ r.late = false ∧ cdOp w ≠ 1) ∧
    (∃ (s : State) (r : CelRun) (w : Nat) (l : List Nat) (k : Fin 1024), w = r.item.word.toNat ∧ l = (r.data.map
      (·.toNat)).take 1024 ∧ s.cel.run = some r ∧ r.late = false ∧ cdOp w ≠ 1 ∧ k.val < l.length ∧ s.cel.bad.length <
      16) ∧
    (∃ (s : State) (r : CelRun) (w : Nat) (l : List Nat) (d : List Nat), s.cel.run = some r ∧ r.late = false ∧ w =
      r.item.word.toNat ∧ l = (r.data.map (·.toNat)).take 1024 ∧ cdOp w = 1 ∧ d.length = min 1024 (cdNgrp w) ∧ ((∀ i
      x, d[i]? = some x → celJudge (cdGroup w + i) (s.celRaw (cdGroup w + i)) = .clean x))) ∧
    (∃ (s : State) (u : State) (l : List (Fin 131072 × BitVec 72)) (g : Nat), u = s.celUpset l ∧ g = s.rd CEL_SCPOS ∧
      s.celBlocked = false ∧ s.cel.bad.contains g = false) ∧
    (∃ (s : State) (w : RegWrite) (u : Nat), u = bits w.data.toNat 8 6 ∧ s.admitsWrite 0x0D8 0x064 w (setBit w.data.toNat
      1) = true ∧ s.unitState u = unitReserved ∧ s.unitCovered u = false) ∧
    (∃ (s : State) (w : RegWrite) (u : Nat), u = bits w.data.toNat 8 6 ∧ s.admitsWrite 0x0D8 0x064 w (setBit w.data.toNat
      1) = true ∧ s.unitState u ≠ unitReserved) ∧
    (∃ (s : State) (w : RegWrite), s.admitsWrite 0x0D8 0x064 w (setBit w.data.toNat 0) = true ∧ bit w.data.toNat 1 =
      false) ∧
    (∃ (s : State) (w : RegWrite), s.admitsWrite 0x0D8 0x044 w w.data.toNat = true ∧ (s.rd CEL_BP ≤ bits w.data.toNat 0 2
      ∨ (∃ a, s.cel.armed = some a ∧ s.ticks ≤ a + 65536))) ∧
    (∃ (s : State) (w : RegWrite), s.admitsWrite 0x0D8 0x044 w w.data.toNat = true ∧ bits w.data.toNat 0 2 < s.rd CEL_BP ∧
      (s.cel.armed = none ∨ (∃ a, s.cel.armed = some a ∧ a + 65536 < s.ticks))) ∧
    (∃ (s : State) (w : RegWrite) (g : Nat) (n : Nat), g = s.rd CEL_M_GRP ∧ n = bits w.data.toNat 0 4 ∧ n = 0 ∧
      s.admitsWrite 0x0D8 0x084 w (setBit w.data.toNat 8) = true ∧ w.port = .mgmt ∧ s.on CEL_M_BUSY = false) ∧
    (∃ (s : State) (w : RegWrite) (g : Nat) (n : Nat), g = s.rd CEL_M_GRP ∧ n = bits w.data.toNat 0 4 ∧ s.admitsWrite
      0x0D8 0x084 w (setBit w.data.toNat 8) = true ∧ w.port = .mgmt ∧ s.on CEL_M_BUSY = false ∧ n ≠ 0 ∧ (8 < n ∨ (∃ i
      < n, portGroup (g + i) = false))) ∧
    (∃ (s : State) (w : RegWrite) (g : Nat) (n : Nat), g = s.rd CEL_M_GRP ∧ n = bits w.data.toNat 0 4 ∧ s.admitsWrite
      0x0D8 0x084 w (setBit w.data.toNat 8) = true ∧ w.port = .mgmt ∧ s.on CEL_M_BUSY = false ∧ n ≠ 0 ∧ n ≤ 8 ∧ ((∀ i
      < n, portGroup (g + i) = true)) ∧ s.celBlocked = true) ∧
    (∃ (s : State) (w : RegWrite) (g : Nat) (n : Nat), g = s.rd CEL_M_GRP ∧ n = bits w.data.toNat 0 4 ∧ s.admitsWrite
      0x0D8 0x084 w (setBit w.data.toNat 8) = true ∧ w.port = .mgmt ∧ s.on CEL_M_BUSY = false ∧ n ≠ 0 ∧ n ≤ 8 ∧ ((∀ i
      < n, portGroup (g + i) = true)) ∧ s.celBlocked = false ∧ bit w.data.toNat 4 = true) ∧
    (∃ (s : State) (w : RegWrite) (g : Nat) (n : Nat) (d : List Nat), s.admitsWrite 0x0D8 0x084 w (setBit w.data.toNat 8)
      = true ∧ w.port = .mgmt ∧ s.on CEL_M_BUSY = false ∧ g = s.rd CEL_M_GRP ∧ n = bits w.data.toNat 0 4 ∧ n ≠ 0 ∧ n ≤
      8 ∧ ((∀ i < n, portGroup (g + i) = true)) ∧ s.celBlocked = false ∧ bit w.data.toNat 4 = false ∧ d.length = n ∧
      ((∀ i x, d[i]? = some x → celJudge (g + i) (s.celRaw (g + i)) = .clean x))) ∧
    (∃ (s : State) (x : UnitWipe) (l : List UnitWipe), s.cel.wipes = x :: l ∧ s.celBlocked = false ∧ s.cel.run = none ∧ 16
      ≤ x.unit ∧ x.unit < 64) :=
  ⟨⟨celS id [(TUN_WIN_SIZE 5 0, 16)], 5, ⟨0x10000, 1, 1⟩, (by first | with_reducible rfl | decide +kernel),
      by decide +kernel⟩,
    ⟨(celS id []).store 0x10000 ([1] ++ List.replicate 63 0 ++ leBytes 64 (celW 1)), 5, ⟨0x10000, 1, 1⟩,
      (by first | with_reducible rfl | decide +kernel), by decide +kernel⟩,
    ⟨celI 1, celX 1, (by unfold CelReady; decide +kernel)⟩,
    ⟨celI 2, celX 2, (by unfold CelReady; decide +kernel)⟩,
    ⟨celI 3, celX 3, (by unfold CelReady; decide +kernel)⟩,
    ⟨celR 2 [1#64, 2#64, 3#64], celRun 2 [1#64, 2#64, 3#64], celW 2, [1, 2, 3],
      (by first | with_reducible rfl | decide +kernel), (by first | with_reducible rfl | decide +kernel),
      by decide +kernel⟩,
    ⟨celR 2 [1#64, 2#64, 3#64], celRun 2 [1#64, 2#64, 3#64], celW 2, [1, 2, 3], 0,
      (by first | with_reducible rfl | decide +kernel), (by first | with_reducible rfl | decide +kernel),
      by decide +kernel⟩,
    ⟨celR 1 [], celRun 1 [], celW 1, [], [0, 0, 0], (by decide +kernel), (by decide +kernel), (by decide +kernel),
      (by decide +kernel), (by decide +kernel), (by decide +kernel),
      (by rintro (_ | _ | _ | i) x h <;> cases h <;> decide +kernel)⟩,
    ⟨celS id [(CEL_SCPOS, 7)], (celS id [(CEL_SCPOS, 7)]).celUpset [], [], 7,
      (by first | with_reducible rfl | decide +kernel), (by first | with_reducible rfl | decide +kernel),
      by decide +kernel⟩,
    ⟨celS id [(CEL_U_STATE 22, 2), (CEL_U_HOLD 22, 9)], wq 0 0x0D8 0x064 (22 * 256 + 2), 22,
      (by first | with_reducible rfl | decide +kernel), by decide +kernel⟩,
    ⟨celS id [], wq 0 0x0D8 0x064 (22 * 256 + 2), 22, (by first | with_reducible rfl | decide +kernel), by decide +kernel⟩,
    ⟨celS id [], wq 0 0x0D8 0x064 1, by decide +kernel⟩,
    ⟨celS (fun c => { c with armed := some 0 }) [(CEL_BP, 3)], wq 0 0x0D8 0x044 1, by decide +kernel⟩,
    ⟨celS (id) [(CEL_BP, 3)], wq 0 0x0D8 0x044 1, by decide +kernel⟩,
    ⟨celS id [(CEL_M_GRP, 0x10000)], wq 0 0x0D8 0x084 0x100, 0x10000, 0, (by first | with_reducible rfl | decide +kernel),
      (by first | with_reducible rfl | decide +kernel), (by first | with_reducible rfl | decide +kernel),
      by decide +kernel⟩,
    ⟨celS id [(CEL_M_GRP, 0x10000)], wq 0 0x0D8 0x084 0x102, 0x10000, 2, (by first | with_reducible rfl | decide +kernel),
      (by first | with_reducible rfl | decide +kernel), by decide +kernel⟩,
    ⟨celS id [(CEL_M_GRP, 0x10010), (PMU_WBLK, 1)], wq 0 0x0D8 0x084 0x112, 0x10010, 2,
      (by first | with_reducible rfl | decide +kernel), (by first | with_reducible rfl | decide +kernel),
      by decide +kernel⟩,
    ⟨celS id [(CEL_M_GRP, 0x10010), (CEL_MBUF 0, 5), (CEL_MBUF 3, 6)], wq 0 0x0D8 0x084 0x112, 0x10010, 2,
      (by first | with_reducible rfl | decide +kernel), (by first | with_reducible rfl | decide +kernel),
      by decide +kernel⟩,
    ⟨celS id [(CEL_M_GRP, 0x10010), (CEL_MBUF 0, 5)], wq 0 0x0D8 0x084 0x102, 0x10010, 2, [0, 0], (by decide +kernel),
      (by decide +kernel), (by decide +kernel), (by decide +kernel), (by decide +kernel), (by decide +kernel),
      (by decide +kernel), (by decide +kernel), (by decide +kernel), by decide, (by decide +kernel),
      (by rintro (_ | _ | i) x h <;> cases h <;> decide +kernel)⟩,
    ⟨celS (fun c => { c with wipes := [⟨22, 0, 0, false, some 9⟩] }) [], ⟨22, 0, 0, false, some 9⟩, [], by decide +kernel⟩⟩

theorem witness_GaugeComplete :
    (∃ (s : State) (m : GaugeSecond), s.rd BGA_ST = 0) ∧
    (∃ (s : State) (m : GaugeSecond), s.rd BGA_ST = 2 ∧ s.bga.cold = false) ∧
    (∃ (s : State) (m : GaugeSecond) (k : Nat) (r : Nat × Nat) (p : Nat → Nat × Nat), s.rd BGA_ST = 2 ∧ s.bga.cold = false
      ∧ s.charging m = false ∧ s.discharging m = false ∧ s.on BGA_RESTPIN = false ∧ s.refLocked = false ∧ s.bga.cycles
      = false ∧ s.bga.restCyc = 0 ∧ s.rd BGA_TREST ≠ 0 ∧ k = (s.bga.restClk + 48000000) / 48000000 / s.rd BGA_TREST ∧
      r = ocvAt s.bga.table (meanV m (s.rd BGA_NCELL)) ∧ ((∀ j, p j = s.bga.table.getD j (0, 0)))) ∧
    (∃ (s : State) (pre : GaugeSample) (post : GaugeSample) (alone : Bool) (di : Int) (dv : Int) (z : Int), di = signed 16
      post.current.toNat - signed 16 pre.current.toNat ∧ dv = (post.pack.toNat : Int) - pre.pack.toNat ∧ z = divRound
      (dv * di.sign * (400 * s.rd BGA_RSH * 10000)) (di.natAbs * 1525880) ∧ alone = true ∧ s.rd BGA_ST ≠ 0 ∧ s.on
      BGA_ONPACK = true ∧ s.rd BGA_ZMIN * 1000 * s.rd BGA_RSH ≤ di.natAbs * 1525880 ∧ 5 ≤ z ∧ z ≤ 20000) ∧
    (∃ (s : State) (pre : GaugeSample) (post : GaugeSample) (alone : Bool) (di : Int) (dv : Int) (z : Int), di = signed 16
      post.current.toNat - signed 16 pre.current.toNat ∧ dv = (post.pack.toNat : Int) - pre.pack.toNat ∧ z = divRound
      (dv * di.sign * (400 * s.rd BGA_RSH * 10000)) (di.natAbs * 1525880) ∧ s.rd BGA_ST ≠ 0 ∧ (s.on BGA_ONPACK = false
      ∨ alone = false ∨ di.natAbs * 1525880 < s.rd BGA_ZMIN * 1000 * s.rd BGA_RSH ∨ z < 5 ∨ 20000 < z)) ∧
    (∃ (s : State) (before : BitVec 16) (after : BitVec 16) (k : Nat) (l : List Nat), s.rd BGA_ST ≠ 0 ∧ s.bga.lines = k ::
      l ∧ before.toNat ≤ after.toNat + 100 * s.rd BGA_OWTH) ∧
    (∃ (s : State) (before : BitVec 16) (after : BitVec 16) (k : Nat) (l : List Nat), s.rd BGA_ST ≠ 0 ∧ s.bga.lines = k ::
      l ∧ after.toNat + 100 * s.rd BGA_OWTH < before.toNat) ∧
    (∃ (s : State) (w : RegWrite), BgaCmd s w 4 ∧ s.rd BGA_ST ≠ 0) ∧
    (∃ (s : State) (w : RegWrite), BgaCmd s w 2 ∧ s.rd BGA_ST = 2 ∧ s.on PMU_VINOK = true ∧ s.rd BGA_SV = 0 ∧ s.rd CTF_UTC
      + 3600 ≤ s.rd BGA_MNT_END ∧ s.rd BGA_MNT_END ≤ s.rd CTF_UTC + 604800 ∧ s.rd BGA_MNT_ST = 0) ∧
    (∃ (s : State) (w : RegWrite), BgaCmd s w 2 ∧ (s.rd BGA_ST ≠ 2 ∨ s.on PMU_VINOK = false ∨ s.rd BGA_SV ≠ 0 ∨ s.rd
      BGA_MNT_END < s.rd CTF_UTC + 3600 ∨ s.rd CTF_UTC + 604800 < s.rd BGA_MNT_END ∨ s.rd BGA_MNT_ST ≠ 0)) ∧
    (∃ (s : State) (w : RegWrite), BgaCmd s w 3 ∧ s.rd BGA_MNT_ST ≠ 0) ∧
    (∃ (s : State), s.rd BGA_MNT_ST ≠ 0 ∧ s.rd BGA_MNT_END ≤ s.rd CTF_UTC) ∧
    (∃ (s : State) (w : RegWrite) (b : List Byte), b = s.rinBytes ∧ BgaCmd s w 0 ∧ s.rd BGA_ST = 1 ∧ s.restoreCheck b =
      .ok) ∧
    (∃ (s : State) (w : RegWrite) (b : List Byte), b = s.rinBytes ∧ BgaCmd s w 0 ∧ s.rd BGA_ST = 1 ∧ leAt b 60 4 ≠ crc32
      (b.take 60 ++ s.uidBytes)) ∧
    (∃ (s : State) (w : RegWrite) (b : List Byte), b = s.rinBytes ∧ BgaCmd s w 0 ∧ s.rd BGA_ST = 1 ∧ leAt b 60 4 = crc32
      (b.take 60 ++ s.uidBytes) ∧ (leAt b 0 2 ≠ 1 ∨ leAt b 2 1 ≠ s.rd BGA_CHEM ∨ leAt b 3 1 ≠ s.rd BGA_NCELL ∨ leAt b
      8 4 < leAt b 12 4 ∨ 10000 < leAt b 18 2)) ∧
    (∃ (s : State) (w : RegWrite) (b : List Byte), b = s.rinBytes ∧ BgaCmd s w 0 ∧ s.rd BGA_ST = 2) ∧
    (∃ (s : State) (w : RegWrite) (b : List Byte), b = s.rinBytes ∧ BgaCmd s w 0 ∧ s.rd BGA_ST = 0) ∧
    (∃ (s : State) (w : RegWrite), BgaCmd s w 1 ∧ s.rd BGA_ST = 1) ∧
    (∃ (s : State) (w : RegWrite), BgaCmd s w 1 ∧ s.rd BGA_ST = 2) ∧
    (∃ (s : State) (w : RegWrite), BgaCmd s w 5 ∧ ((∀ j < 31, s.rd (BGA_OCV_V j) < s.rd (BGA_OCV_V (j + 1)) ∧ s.rd
      (BGA_OCV_SOC j) ≤ s.rd (BGA_OCV_SOC (j + 1)))) ∧ s.rd (BGA_OCV_SOC 0) = 0 ∧ s.rd (BGA_OCV_SOC 31) = 10000) ∧
    (∃ (s : State) (w : RegWrite), BgaCmd s w 5 ∧ ((∃ j < 31, s.rd (BGA_OCV_V (j + 1)) ≤ s.rd (BGA_OCV_V j) ∨ s.rd
      (BGA_OCV_SOC (j + 1)) < s.rd (BGA_OCV_SOC j)) ∨ s.rd (BGA_OCV_SOC 0) ≠ 0 ∨ s.rd (BGA_OCV_SOC 31) ≠ 10000)) ∧
    (∃ (s : State) (r : RegRead), s.admitsRead 0x0E0 0x0C0 r = true ∧ s.rd BGA_ST = 2) ∧
    (∃ (s : State) (r : RegRead), s.admitsRead 0x0E0 0x0C0 r = true ∧ s.rd BGA_ST ≠ 2) :=
  ⟨⟨bgaS (id) [(BGA_ST, 0)], secOf 0 37000, by decide +kernel⟩,
    ⟨bgaS (id) [], secOf (-3277) 37000, by decide +kernel⟩,
    ⟨bgaS (id) [], secOf 0 37000, ((bgaS (id) []).bga.restClk + 48000000) / 48000000 / (bgaS (id) []).rd BGA_TREST, ocvAt
      (bgaS (id) []).bga.table (meanV (secOf 0 37000) ((bgaS (id) []).rd BGA_NCELL)), fun j => (bgaS (id)
      []).bga.table.getD j (0, 0), (by decide +kernel), (by decide +kernel), (by decide +kernel), (by decide +kernel),
      (by decide +kernel), (by decide +kernel), (by decide +kernel), (by decide +kernel), (by decide +kernel), rfl,
      rfl, fun _ => rfl⟩,
    ⟨bgaS id [(BGA_ONPACK, 1)], ⟨((0, 37000) : BitVec 16 × BitVec 16).1, ((0, 37000) : BitVec 16 × BitVec 16).2⟩,
      ⟨((60000, 36800) : BitVec 16 × BitVec 16).1, ((60000, 36800) : BitVec 16 × BitVec 16).2⟩, true, (signed 16
      (((60000, 36800) : BitVec 16 × BitVec 16)).1.toNat - signed 16 (((0, 37000) : BitVec 16 × BitVec 16)).1.toNat),
      (((((60000, 36800) : BitVec 16 × BitVec 16)).2.toNat : Int) - (((0, 37000) : BitVec 16 × BitVec 16)).2.toNat),
      divRound ((((((60000, 36800) : BitVec 16 × BitVec 16)).2.toNat : Int) - (((0, 37000) : BitVec 16 × BitVec
      16)).2.toNat) * ((signed 16 (((60000, 36800) : BitVec 16 × BitVec 16)).1.toNat - signed 16 (((0, 37000) : BitVec
      16 × BitVec 16)).1.toNat)).sign * (400 * (bgaS id [(BGA_ONPACK, 1)]).rd BGA_RSH * 10000)) (((signed 16 (((60000,
      36800) : BitVec 16 × BitVec 16)).1.toNat - signed 16 (((0, 37000) : BitVec 16 × BitVec 16)).1.toNat)).natAbs *
      1525880), (by first | with_reducible rfl | decide +kernel), (by first | with_reducible rfl | decide +kernel),
      (by first | with_reducible rfl | decide +kernel), (by first | with_reducible rfl | decide +kernel),
      by decide +kernel⟩,
    ⟨bgaS id [], ⟨((0, 37000) : BitVec 16 × BitVec 16).1, ((0, 37000) : BitVec 16 × BitVec 16).2⟩, ⟨((60000, 36800) :
      BitVec 16 × BitVec 16).1, ((60000, 36800) : BitVec 16 × BitVec 16).2⟩, true, (signed 16 (((60000, 36800) :
      BitVec 16 × BitVec 16)).1.toNat - signed 16 (((0, 37000) : BitVec 16 × BitVec 16)).1.toNat), (((((60000, 36800)
      : BitVec 16 × BitVec 16)).2.toNat : Int) - (((0, 37000) : BitVec 16 × BitVec 16)).2.toNat), divRound
      ((((((60000, 36800) : BitVec 16 × BitVec 16)).2.toNat : Int) - (((0, 37000) : BitVec 16 × BitVec 16)).2.toNat) *
      ((signed 16 (((60000, 36800) : BitVec 16 × BitVec 16)).1.toNat - signed 16 (((0, 37000) : BitVec 16 × BitVec
      16)).1.toNat)).sign * (400 * (bgaS id []).rd BGA_RSH * 10000)) (((signed 16 (((60000, 36800) : BitVec 16 ×
      BitVec 16)).1.toNat - signed 16 (((0, 37000) : BitVec 16 × BitVec 16)).1.toNat)).natAbs * 1525880),
      (by first | with_reducible rfl | decide +kernel), (by first | with_reducible rfl | decide +kernel),
      (by first | with_reducible rfl | decide +kernel), by decide +kernel⟩,
    ⟨bgaS (fun b => { b with lines := [2, 3], opens := [2] }) [], 1000, 900, 2, [3], by decide +kernel⟩,
    ⟨bgaS (fun b => { b with lines := [2, 3] }) [(BGA_LRNACT, 1)], 9000, 900, 2, [3], by decide +kernel⟩,
    ⟨bgaS id [], wq 0 0x0E0 0x06C 16, (by unfold BgaCmd; decide +kernel)⟩,
    ⟨bgaS id [(CTF_UTC, 1000), (BGA_MNT_END, 4600)], wq 0 0x0E0 0x06C 4, (by unfold BgaCmd; decide +kernel)⟩,
    ⟨bgaS id [], wq 0 0x0E0 0x06C 4, (by unfold BgaCmd; decide +kernel)⟩,
    ⟨bgaS id [(BGA_MNT_ST, 1)], wq 0 0x0E0 0x06C 8, (by unfold BgaCmd; decide +kernel)⟩,
    ⟨bgaS id [(BGA_MNT_ST, 1)], by decide +kernel⟩,
    ⟨rin (recB 8000000) (bgaS id [(BGA_ST, 1), (BGA_DESCAP, 10000)]), wq 0 0x0E0 0x06C 1, recB 8000000,
      (by first | with_reducible rfl | decide +kernel), (by unfold BgaCmd; decide +kernel)⟩,
    ⟨rin (((recB 8000000).set 5 77)) (bgaS id [(BGA_ST, 1), (BGA_DESCAP, 10000)]), wq 0 0x0E0 0x06C 1, ((recB 8000000).set
      5 77), (by first | with_reducible rfl | decide +kernel), (by unfold BgaCmd; decide +kernel)⟩,
    ⟨rin ((let b := ((recB 8000000).take 60).set 3 2; b ++ leBytes 4 (crc32 (b ++ State.reset.uidBytes)))) (bgaS id
      [(BGA_ST, 1), (BGA_DESCAP, 10000)]), wq 0 0x0E0 0x06C 1, (let b := ((recB 8000000).take 60).set 3 2; b ++
      leBytes 4 (crc32 (b ++ State.reset.uidBytes))), (by first | with_reducible rfl | decide +kernel),
      (by unfold BgaCmd; decide +kernel)⟩,
    ⟨rin (recB 8000000) (bgaS id []), wq 0 0x0E0 0x06C 1, recB 8000000, (by first | with_reducible rfl | decide +kernel),
      (by unfold BgaCmd; decide +kernel)⟩,
    ⟨rin (recB 8000000) (bgaS id [(BGA_ST, 0)]), wq 0 0x0E0 0x06C 1, recB 8000000,
      (by first | with_reducible rfl | decide +kernel), (by unfold BgaCmd; decide +kernel)⟩,
    ⟨bgaS id [(BGA_ST, 1)], wq 0 0x0E0 0x06C 2, (by unfold BgaCmd; decide +kernel)⟩,
    ⟨bgaS id [], wq 0 0x0E0 0x06C 2, (by unfold BgaCmd; decide +kernel)⟩,
    ⟨bgaS id (ocvT 10000), wq 0 0x0E0 0x06C 32, (by unfold BgaCmd; decide +kernel)⟩,
    ⟨bgaS id (ocvT 9999), wq 0 0x0E0 0x06C 32, (by unfold BgaCmd; decide +kernel)⟩,
    ⟨bgaS (fun b => { b with seq := 4294967295 }) [], rq 0, by decide +kernel⟩,
    ⟨bgaS id [(BGA_ST, 1)], rq 0, by decide +kernel⟩⟩

theorem witness_SupplyPathComplete :
    (∃ (s : State) (vin : BitVec 16) (vbat : BitVec 16), s.on PMU_VINOK = true ∧ (vin.toNat < 8500 ∨ 17500 < vin.toNat) ∧
      s.pmu.railsUp = true ∧ s.pst = pstOnVin ∧ s.on PMU_PACK_EN = true ∧ s.rd BGA_NCELL * s.rd PMU_CUT_VCELL ≤
      vbat.toNat) ∧
    (∃ (s : State) (vin : BitVec 16) (vbat : BitVec 16), s.on PMU_VINOK = true ∧ (vin.toNat < 8500 ∨ 17500 < vin.toNat) ∧
      s.pmu.railsUp = true ∧ s.pst = pstOnVin ∧ vbat.toNat < s.rd BGA_NCELL * s.rd PMU_CUT_VCELL) ∧
    (∃ (s : State) (vin : BitVec 16) (vbat : BitVec 16), s.on PMU_VINOK = true ∧ (vin.toNat < 8500 ∨ 17500 < vin.toNat) ∧
      s.pmu.railsUp = true ∧ s.pst = pstOnPack ∧ s.rd BGA_MNT_ST ≠ 0) ∧
    (∃ (s : State) (vin : BitVec 16) (vbat : BitVec 16), s.on PMU_VINOK = false ∧ 8800 ≤ vin.toNat ∧ vin.toNat ≤ 16500 ∧
      s.pst ≠ pstKiln) ∧
    (∃ (s : State) (vin : BitVec 16) (vbat : BitVec 16), s.on PMU_VINOK = false ∧ 8800 ≤ vin.toNat ∧ vin.toNat ≤ 16500 ∧
      s.pst = pstKiln ∧ s.pmu.gone = true) ∧
    (∃ (s : State) (vin : BitVec 16) (vbat : BitVec 16), s.on PMU_VINOK = false ∧ 8800 ≤ vin.toNat ∧ vin.toNat ≤ 16500 ∧
      s.pst = pstKiln ∧ s.pmu.gone = false) ∧
    (∃ (s : State) (vbat : BitVec 16), s.pmu.railsUp = true ∧ s.wokenOnPack = false) ∧
    (∃ (s : State) (strap : Fin 4) (vin : BitVec 16) (vbat : BitVec 16), s.pmu.railsUp = false ∧ 8800 ≤ vin.toNat ∧
      vin.toNat ≤ 16500) ∧
    (∃ (s : State) (strap : Fin 4) (vin : BitVec 16) (vbat : BitVec 16), s.pmu.railsUp = false ∧ 8800 ≤ vin.toNat ∧
      vin.toNat ≤ 16500 ∧ s.pst = pstStart ∧ s.pmu.restart = none ∧ s.on PMU_RFAULT = false ∧ s.start.noPack = false) ∧
    (∃ (s : State) (rail : Fin 7), s.pmu.railsUp = true ∧ bit (s.rd PMU_PG) rail.val = true) ∧
    (∃ (s : State) (c : Nat), s.pmu.restart = some c ∧ s.rd CTF_PERIOD ≠ 0) ∧
    (∃ (s : State), s.pmu.railsUp = true) ∧
    (∃ (s : State) (cut : BitVec 12), s.celBlocked = false) ∧
    (∃ (s : State), s.celBlocked = true ∧ s.pmu.railsUp = true) :=
  ⟨⟨pmuS id [], 8000, 11000, by decide +kernel⟩,
    ⟨pmuS id [], 8000, 10799, by decide +kernel⟩,
    ⟨packS [(PMU_VINOK, 1), (BGA_MNT_ST, 2)], 8000, 11000, by decide +kernel⟩,
    ⟨packS [], 8800, 11000, by decide +kernel⟩,
    ⟨pmuS (fun p => { p with railsUp := false, gone := true }) [(PMU_VINOK, 0), (PMU_PST, 0)], 16500, 11000,
      by decide +kernel⟩,
    ⟨pmuS (fun p => { p with railsUp := false }) [(PMU_VINOK, 0), (PMU_PST, 0)], 16500, 11000, by decide +kernel⟩,
    ⟨pmuS id [], 10800, by decide +kernel⟩,
    ⟨pmuS (fun p => { p with railsUp := false }) [], 1, 8800, 11000, by decide +kernel⟩,
    ⟨pmuS (fun p => { p with railsUp := false }) [(PMU_PST, 1)], 1, 8800, 11000, by decide +kernel⟩,
    ⟨pmuS id [(PMU_PG, 127)], 0, by decide +kernel⟩,
    ⟨pmuS (fun p => { p with restart := some 7, railsUp := false }) [(PMU_PST, 1)], 7, by decide +kernel⟩,
    ⟨pmuS id [], by decide +kernel⟩,
    ⟨{ pmuS id [(PMU_WBLK, 0)] with cel := { run := some (celRun 2 [1#64, 2#64, 3#64]) } }, 2, by decide +kernel⟩,
    ⟨pmuS id [], by decide +kernel⟩⟩

theorem witness_AuxoutChargerComplete :
    (∃ (s : State), s.rd PMU_AUX_ST = auxWait ∧ s.rd CTF_PERIOD ≠ 0) ∧
    (∃ (s : State) (mv : BitVec 16), s.rd PMU_AUX_ST = auxRamp ∧ s.rd CTF_PERIOD ≠ 0 ∧ s.pmu.railsUp = true ∧ AuxHolds s
      mv) ∧
    (∃ (s : State) (mv : BitVec 16) (n : _), n = min 4 (s.rd PMU_AUX_ATT + 1) ∧ s.rd PMU_AUX_ST = auxRamp ∧ s.rd
      CTF_PERIOD ≠ 0 ∧ s.pmu.railsUp = true ∧ ¬AuxHolds s mv) ∧
    (∃ (s : State) (mv : BitVec 16) (n : Nat), n = min 4 (s.rd PMU_AUX_ATT + 1) ∧ s.rd PMU_AUX_ST = auxGood ∧ ¬AuxHolds s
      mv) ∧
    (∃ (s : State), s.rd PMU_AUX_ST = auxGood ∧ s.rd CTF_PERIOD ≠ 0) ∧
    (∃ (s : State) (w : RegWrite), s.admitsWrite 0x0E9 0x050 w (setBit w.data.toNat 3) = true ∧ s.on PMU_AUX_EN = true ∧
      bit w.data.toNat 0 = true ∧ bit w.data.toNat 1 = s.on PMU_AUX_V ∧ s.pmu.railsUp = true ∧ s.level ≤ 2 ∧ s.rd
      PMU_AUX_ST ≠ auxGood) ∧
    (∃ (s : State) (w : RegWrite), s.admitsWrite 0x0E9 0x050 w (setBit w.data.toNat 3) = true ∧ s.on PMU_AUX_EN = true ∧
      bit w.data.toNat 0 = true ∧ bit w.data.toNat 1 ≠ s.on PMU_AUX_V) ∧
    (∃ (s : State) (w : RegWrite), s.admitsWrite 0x0E9 0x050 w (setBit w.data.toNat 0) = true ∧ s.on PMU_AUX_EN = false ∧
      bit w.data.toNat 3 = false ∧ s.pmu.railsUp = true ∧ s.level ≤ 2) ∧
    (∃ (s : State) (w : RegWrite), s.admitsWrite 0x0E9 0x050 w (clearBit w.data.toNat 0) = true ∧ s.on PMU_AUX_EN = true ∧
      bit w.data.toNat 1 = s.on PMU_AUX_V ∧ bit w.data.toNat 3 = false) ∧
    (∃ (s : State), s.rd PMU_CHG_ST = chgVoltage) ∧
    (∃ (s : State) (vbat : BitVec 16), s.rd PMU_CHG_ST = chgDone ∧ vbat.toNat ≤ s.rd BGA_NCELL * (s.rd PMU_CHG_VCELL -
      s.rd PMU_CHG_RECH)) ∧
    (∃ (s : State) (ratio : Byte), (ratio.toNat < s.rd PMU_NTC_HOT ∨ s.rd PMU_NTC_COLD < ratio.toNat ∨ 250 < ratio.toNat)
      ∧ (s.rd PMU_CHG_ST = chgCurrent ∨ s.rd PMU_CHG_ST = chgVoltage)) ∧
    (∃ (s : State) (ratio : Byte), s.rd PMU_NTC_HOT ≤ ratio.toNat ∧ ratio.toNat ≤ s.rd PMU_NTC_COLD ∧ ratio.toNat ≤ 250 ∧
      s.rd PMU_CHG_ST = chgTemp) ∧
    (∃ (s : State) (c : Nat), s.pmu.charge = some c ∧ s.rd CTF_PERIOD ≠ 0) :=
  ⟨⟨pmuS (fun p => { p with aux := 9 }) [(PMU_AUX_ST, auxWait), (PMU_AUX_ATT, 2)], by decide +kernel⟩,
    ⟨pmuS (fun p => { p with aux := 9 }) [(PMU_AUX_EN, 1), (PMU_AUX_ST, auxRamp)], 3500,
      (by unfold AuxHolds; decide +kernel)⟩,
    ⟨pmuS id [(PMU_AUX_EN, 1), (PMU_AUX_ST, auxRamp), (PMU_AUX_ATT, 0)], 3499, 1,
      (by first | with_reducible rfl | decide +kernel), (by unfold AuxHolds; decide +kernel)⟩,
    ⟨pmuS id [(PMU_AUX_EN, 1), (PMU_AUX_V, 1), (PMU_AUX_ST, auxGood), (PMU_AUX_ATT, 0)], 8399, 1,
      (by first | with_reducible rfl | decide +kernel), (by unfold AuxHolds; decide +kernel)⟩,
    ⟨pmuS (fun p => { p with aux := 9 }) [(PMU_AUX_ST, auxGood), (PMU_AUX_ATT, 2)], by decide +kernel⟩,
    ⟨pmuS id [(PMU_AUX_EN, 1), (PMU_AUX_ST, auxLatched), (PMU_AUX_ATT, 2)], wq 0 0x0E9 0x050 9, by decide +kernel⟩,
    ⟨pmuS id [(PMU_AUX_EN, 1), (PMU_AUX_ST, 2)], wq 0 0x0E9 0x050 11, by decide +kernel⟩,
    ⟨pmuS id [], wq 0 0x0E9 0x050 1, by decide +kernel⟩,
    ⟨pmuS id [(PMU_AUX_EN, 1), (PMU_AUX_ST, 2), (PMU_AUX_ATT, 2)], wq 0 0x0E9 0x050 0, by decide +kernel⟩,
    ⟨chgS chgVoltage, by decide +kernel⟩,
    ⟨chgS chgDone, 14000, by decide +kernel⟩,
    ⟨chgS chgCurrent, 83, by decide +kernel⟩,
    ⟨chgS chgTemp, 84, by decide +kernel⟩,
    ⟨chgS chgCurrent, 0, by decide +kernel⟩⟩

theorem witness_CutoffKilnComplete :
    (∃ (s : State) (vbat : BitVec 16), s.pst = pstOnPack ∧ vbat.toNat ≤ s.rd BGA_NCELL * s.rd PMU_CUTW_VCELL ∧ s.on
      PMU_VINOK = false) ∧
    (∃ (s : State) (vbat : BitVec 16), s.pst = pstOnPack ∧ vbat.toNat ≤ s.rd BGA_NCELL * s.rd PMU_CUTW_VCELL ∧ s.on
      PMU_VINOK = true) ∧
    (∃ (s : State) (w : RegWrite), PmuCmd s w 3 ∧ s.pst = pstCutPending) ∧
    (∃ (s : State) (c : Nat), s.pst = pstCutPending ∧ s.pmu.cut = some c ∧ s.pmu.cutDue = false ∧ s.rd CTF_PERIOD ≠ 0) ∧
    (∃ (s : State) (vbat : BitVec 16), (s.pst = pstOnPack ∨ s.pst = pstCutPending) ∧ s.on PMU_VINOK = false ∧ vbat.toNat ≤
      s.rd BGA_NCELL * s.rd PMU_CUT_VCELL) ∧
    (∃ (s : State), s.pst = pstCutPending ∧ s.pmu.cutDue = true) ∧
    (∃ (s : State) (w : RegWrite), PmuCmd s w 0) ∧
    (∃ (s : State) (w : RegWrite), PmuCmd s w 1 ∧ s.pmu.kiln = none ∧ (s.pst = pstStart ∨ s.pst = pstCutPending ∨ s.pst =
      pstCutOff)) ∧
    (∃ (s : State) (w : RegWrite), PmuCmd s w 1 ∧ s.pmu.kiln = none ∧ (s.pst = pstOnVin ∨ s.pst = pstOnPack) ∧ s.on
      TNC_S_BUSY = true) ∧
    (∃ (s : State) (w : RegWrite) (a : _), PmuCmd s w 1 ∧ s.pmu.kiln = none ∧ (s.pst = pstOnVin ∨ s.pst = pstOnPack) ∧
      s.on TNC_S_BUSY = false ∧ s.pmu.armed = some a ∧ s.ticks ≤ a + 65536) ∧
    (∃ (s : State) (w : RegWrite), PmuCmd s w 1 ∧ s.pmu.kiln = none ∧ (s.pst = pstOnVin ∨ s.pst = pstOnPack) ∧ s.on
      TNC_S_BUSY = false ∧ (s.pmu.armed = none ∨ (∃ a, s.pmu.armed = some a ∧ a + 65536 < s.ticks))) ∧
    (∃ (s : State) (w : RegWrite), PmuCmd s w 2 ∧ s.pmu.kiln.isSome = true) ∧
    (∃ (s : State) (c : Nat), s.pmu.kiln = some c ∧ s.rd CTF_PERIOD ≠ 0) ∧
    (∃ (s : State) (kwake : Bool) (vin : BitVec 16) (vbat : BitVec 16), (kwake = true ∨ (s.pmu.gone = true ∧ 8800 ≤
      vin.toNat ∧ vin.toNat ≤ 16500)) ∧ s.pst = pstKiln) :=
  ⟨⟨packS [], 11200, by decide +kernel⟩,
    ⟨packS [(PMU_VINOK, 1), (BGA_ST, 2), (BGA_Q, 5), (BGA_SOCR, 4)], 11200, by decide +kernel⟩,
    ⟨packS [(PMU_PST, 4)], wq 0 0x0E8 0x064 8, (by unfold PmuCmd; decide +kernel)⟩,
    ⟨(packS [(PMU_PST, 4)]).setPmu (fun p => { p with cut := some 7 }), 7, by decide +kernel⟩,
    ⟨packS [(BGA_ST, 2), (BGA_Q, 5)], 10800, by decide +kernel⟩,
    ⟨(packS [(PMU_PST, 4)]).setPmu (fun p => { p with cutDue := true }), by decide +kernel⟩,
    ⟨pmuS id [], wq 0 0x0E8 0x064 1, (by unfold PmuCmd; decide +kernel)⟩,
    ⟨pmuS id [(PMU_PST, 1)], wq 0 0x0E8 0x064 2, (by unfold PmuCmd; decide +kernel)⟩,
    ⟨packS [(TNC_S_BUSY, 1)], wq 0 0x0E8 0x064 2, (by unfold PmuCmd; decide +kernel)⟩,
    ⟨{ packS [] with pmu := { railsUp := true, armed := some 5 }, ticks := 65541 }, wq 0 0x0E8 0x064 2, 5,
      (by unfold PmuCmd; decide +kernel)⟩,
    ⟨packS [], wq 0 0x0E8 0x064 2, (by unfold PmuCmd; decide +kernel)⟩,
    ⟨pmuS (fun p => { p with kiln := some 3 }) [], wq 0 0x0E8 0x064 4, (by unfold PmuCmd; decide +kernel)⟩,
    ⟨pmuS (fun p => { p with kiln := some 3 }) [], 3, by decide +kernel⟩,
    ⟨pmuS (fun p => { p with railsUp := false }) [(PMU_PST, 0)], true, 0, 11000,
      (by first | with_reducible rfl | decide +kernel), by decide +kernel⟩⟩

theorem all_of {α : Type} {p : α → Prop} [DecidablePred p] {l : List α} (h : (l.all fun x => decide (p x)) = true) :
    ∀ x ∈ l, p x := by
  simpa using h

theorem short_iff {s : State} {r : Nat} {m : List (BitVec 16)} {v : List (List (BitVec 16))} : ShortRail s r m v ↔
    (((m.drop (6 * r)).take 6).any (fun x => decide (signed 16 x.toNat < (s.rd MON_MARG_MIN : Int))) ||
      ((v.drop (8 * r)).take 8).any fun l =>
        decide (l ≠ []) && l.all fun x => decide (1000 * x.toNat < 92 * (6500 + 25 * s.rd (railCode r)))) = true := by
  simp [ShortRail]

theorem witness_LadderComplete :
    (∃ (s : State), s.pmu.railsUp = true ∧ 0 ∉ s.mon.overs ∧ 1 ∉ s.mon.overs) ∧
    (∃ (s : State) (margins : List (BitVec 16)) (volts : List (List (BitVec 16))), s.pmu.railsUp = true ∧ 2 ≤ s.level ∧
      margins.length = 12 ∧ ShortRail s 0 margins volts) ∧
    (∃ (s : State) (margins : List (BitVec 16)) (volts : List (List (BitVec 16))), s.pmu.railsUp = true ∧ 2 ≤ s.level ∧
      margins.length = 12 ∧ ¬ShortRail s 0 margins volts) ∧
    (∃ (s : State) (margins : List (BitVec 16)) (volts : List (List (BitVec 16))), s.pmu.railsUp = true ∧ s.level < 2 ∧
      margins.length = 12 ∧ ¬ShortRail s 0 margins volts ∧ cellAt 0 0 s.mon.clear + 1 < 100 ∧ ShortRail s 1 margins
      volts ∧ s.rd PMU_VT_SET < 80) ∧
    (∃ (s : State) (temps : List (BitVec 16)) (T : Int), s.mon.bad = [] ∧ temps.length = 16 ∧ ((∀ x ∈ temps, -550 ≤ signed
      16 x.toNat ∧ signed 16 x.toNat ≤ T)) ∧ ((∃ x ∈ temps, signed 16 x.toNat = T)) ∧ T ≤ 1500 ∧ s.mon.supDiv ≤ 8 ∧
      s.mon.thDiv ≤ 8) ∧
    (∃ (s : State), s.mon.lost = true ∧ s.rd MON_LVL < 3) ∧
    (∃ (s : State), s.mon.lost = false ∧ s.rd MON_LVL < s.heatLevel ∧ s.rd MON_CAP ≤ s.heatLevel) ∧
    (∃ (s : State), s.mon.lost = false ∧ s.heatLevel ≤ s.rd MON_LVL ∧ s.rd MON_LVL < s.rd MON_CAP ∧ s.atWindow = true) ∧
    (∃ (s : State), s.mon.lost = false ∧ s.heatLevel ≤ s.rd MON_LVL ∧ (s.rd MON_CAP ≤ s.rd MON_LVL ∨ s.atWindow = false)) ∧
    (∃ (s : State), s.rd MON_LVL = 3 ∧ s.pst = pstOnVin) ∧
    (∃ (s : State), s.rd MON_LVL = 3 ∧ s.pst ≠ pstOnVin) ∧
    (∃ (s : State), (s.rd MON_LVL = 2 ∨ s.rd MON_LVL = 1) ∧ s.on MON_ASCOK = true ∧ s.rd MON_CAP < s.rd MON_LVL ∧
      s.heatLevel < s.rd MON_LVL ∧ s.mon.lost = false ∧ s.rd MON_UPDWELL * 1000 ≤ (if s.rd MON_LVL = 2 then
      s.mon.cool2 else s.mon.cool1) ∧ s.rd MON_UPDWELL * 1000 ≤ s.mon.dwell ∧ (s.rd PMU_WAKE_SRC ≠ 2 ∨ s.pst ≠
      pstOnPack) ∧ s.atWindow = true) ∧
    (∃ (s : State), (s.rd MON_LVL = 2 ∨ s.rd MON_LVL = 1) ∧ s.on MON_ASCOK = true ∧ s.rd MON_CAP < s.rd MON_LVL ∧
      s.heatLevel < s.rd MON_LVL ∧ s.mon.lost = false ∧ s.rd MON_UPDWELL * 1000 ≤ (if s.rd MON_LVL = 2 then
      s.mon.cool2 else s.mon.cool1) ∧ s.rd MON_UPDWELL * 1000 ≤ s.mon.dwell ∧ (s.rd PMU_WAKE_SRC ≠ 2 ∨ s.pst ≠
      pstOnPack) ∧ s.atWindow = false) ∧
    (∃ (s : State), s.rd MON_LVL = 2 ∧ s.on MON_ASCOK = false) ∧
    (∃ (s : State) (cap : Fin 4) (w : RegWrite), s.admitsWrite 0x0F0 0x040 w (putBits w.data.toNat 0 2 cap.val) = true ∧
      cap.val ≤ 2 ∧ bit w.data.toNat 8 = false) ∧
    (∃ (s : State) (cap : Fin 4) (w : RegWrite), s.admitsWrite 0x0F0 0x040 w (putBits w.data.toNat 0 2 cap.val) = true ∧
      cap.val = 3) ∧
    (∃ (s : State) (w : RegWrite), s.admitsWrite 0x0F0 0x040 w (setBit w.data.toNat 8) = true ∧ bits w.data.toNat 0 2 ≠ 3
      ∧ s.level < 3 ∧ s.on MON_ASCOK = false) ∧
    (∃ (s : State) (w : RegWrite), s.admitsWrite 0x0F0 0x040 w (setBit w.data.toNat 8) = true ∧ bits w.data.toNat 0 2 ≠ 3
      ∧ s.level < 3 ∧ s.on MON_ASCOK = true) ∧
    (∃ (s : State) (w : RegWrite), s.admitsWrite 0x0F0 0x040 w (setBit w.data.toNat 8) = true ∧ bits w.data.toNat 0 2 ≠ 3
      ∧ 3 ≤ s.level) ∧
    (∃ (s : State), s.rd PMU_WAKE_SRC = 2 ∧ s.pst = pstOnPack ∧ s.on PMU_VINOK = false ∧ s.rd MON_LVL = 2 ∧ s.rd
      CTF_PERIOD ≠ 0) :=
  ⟨⟨monS (id) ((List.range 12).map fun k => (MON_PM k, 100)), by decide +kernel⟩,
    ⟨monS (id) [(MON_LVL, 2)], margs 10 50, [], rfl, by decide +kernel, by decide, (short_iff.2 (by decide +kernel))⟩,
    ⟨monS (id) [(MON_LVL, 2)], margs 50 50, [], rfl, by decide +kernel, by decide, (fun h => absurd (short_iff.1 h)
      (by decide +kernel))⟩,
    ⟨monS (id) [], margs 50 10, [], rfl, by decide +kernel, by decide, (fun h => absurd (short_iff.1 h)
      (by decide +kernel)), by decide +kernel, (short_iff.2 (by decide +kernel)), by decide +kernel⟩,
    ⟨monS (id) [], temps 400, 400, rfl, rfl, all_of (by decide +kernel), ⟨400, by decide +kernel, by decide +kernel⟩,
      by decide +kernel⟩,
    ⟨monS (fun m => { m with lost := true }) [], by decide +kernel⟩,
    ⟨monS (fun m => { m with hot1 := 10 }) [], by decide +kernel⟩,
    ⟨monS (id) [(MON_CAP, 2)], by decide +kernel⟩,
    ⟨monS (id) [], by decide +kernel⟩,
    ⟨monS (id) [(MON_LVL, 3)], by decide +kernel⟩,
    ⟨monS (id) [(MON_LVL, 3), (PMU_PST, 3)], by decide +kernel⟩,
    ⟨monS (fun m => { m with cool2 := 10000, cool1 := 10000, dwell := 10000 }) [(MON_LVL, 2), (MON_ASCOK, 1)],
      by decide +kernel⟩,
    ⟨offWin (monS (fun m => { m with cool2 := 10000, cool1 := 10000, dwell := 10000 }) [(MON_LVL, 2), (MON_ASCOK, 1)]),
      by decide +kernel⟩,
    ⟨monS (id) [(MON_LVL, 2)], by decide +kernel⟩,
    ⟨monS (id) [], 2, wq 0 0x0F0 0x040 2, by decide +kernel⟩,
    ⟨monS (id) [], 3, wq 0 0x0F0 0x040 3, by decide +kernel⟩,
    ⟨monS (id) [(MON_LVL, 2)], wq 0 0x0F0 0x040 256, by decide +kernel⟩,
    ⟨monS (id) [(MON_LVL, 2), (MON_ASCOK, 1)], wq 0 0x0F0 0x040 256, by decide +kernel⟩,
    ⟨monS (id) [(MON_LVL, 3)], wq 0 0x0F0 0x040 256, by decide +kernel⟩,
    ⟨monS (id) [(PMU_WAKE_SRC, 2), (PMU_PST, 3), (PMU_VINOK, 0), (MON_LVL, 2)], by decide +kernel⟩⟩

theorem witness_HostFramesComplete :
    (∃ (s : State) (u : State) (x : Session) (n : Nat) (A : Nat), u = s.read anyRead (sessionAccess x A 0 0) ∧ s.hspOpen n
      x ∧ A < 2 ^ 24) ∧
    (∃ (s : State) (u : State) (x : Session) (n : Nat) (A : Nat) (w : Word) (cc : Byte), u = s.write anyWrite
      (sessionAccess x A w cc) ∧ s.hspOpen n x ∧ A < 2 ^ 24) ∧
    (∃ (s : State) (u : State) (v : State) (x : Session) (n : Nat) (A : Nat) (w : Word) (w2 : Word) (cc : Byte) (cc2 :
      Byte), u = s.write anyWrite (sessionAccess x A w cc) ∧ v = u.write anyWrite (sessionAccess x (A + 1) w2 cc2) ∧
      s.hspOpen n x ∧ A < 2 ^ 24 ∧ A % 1024 ≤ 1022 ∧ bit A 22 = false) ∧
    (∃ (s : State) (u : State) (v : State) (x : Session) (n : Nat) (A : Nat) (take : Bool) (w : Word), u = s.read anyRead
      (sessionAccess x A 0 0) ∧ w = BitVec.ofNat 32 (((u.resp.data.headD 0 % 65536) ^^^ s.pageOf x A) + b2n take * 2 ^
      30 + 2 ^ 31) ∧ v = u.write anyWrite (sessionAccess x A w (carryCode true x.tc (addressA (BitVec.ofNat 32
      (byteAddr x.tc A)).toNat (bit A 22)) w)) ∧ s.hspOpen n x ∧ A < 2 ^ 24 ∧ A % 1024 = 8) ∧
    (∃ (s : State) (x : Session) (n : Nat), s.hspOpen n x) ∧
    (∃ (s : State) (b : List Byte) (r : HostReq) (op : Nat) (c : Instr), r = { iface := 0, bytes := b } ∧ s.pageRuns 0x104
      = true ∧ 8 ≤ b.length ∧ b.length = Request.need ⟨1, b, 0⟩ ∧ Request.op ⟨1, b, 0⟩ = op ∧ (c, op) ∈ [(.hostRead r,
      opRead), (.hostWrite r, opWrite), (.lockpair r, opLock), (.openSession r, opOpen), (.prove r, opProve),
      (.closeSession r, opClose), (.discover r, opDiscover)] ∧ beNat ((b.drop 6).take 2) ≠ crc16 (b.take 6)) ∧
    (∃ (s : State) (n : Nat) (A : Nat), s.pageRuns 0x104 = true ∧ A < 2 ^ 24 ∧ n < 256 ∧ n < 8 ∧ (s.session? 1 n = none ∨
      (∃ x, s.session? 1 n = some x ∧ x.isOpen = false))) ∧
    (∃ (s : State) (n : Nat) (A : Nat), s.pageRuns 0x104 = true ∧ A < 2 ^ 24 ∧ n < 256 ∧ 8 ≤ n) ∧
    (∃ (s : State) (x : Session) (n : Nat) (A : Nat), s.pageRuns 0x104 = true ∧ A < 2 ^ 24 ∧ n < 8 ∧ s.session? 1 n = some
      x ∧ x.isOpen = true ∧ x.bare = false ∧ s.slotGen x.slot ≠ x.gen) ∧
    (∃ (s : State) (x : Session) (n : Nat) (A : Nat) (cnt : Nat), s.hspOpen n x ∧ A < 2 ^ 24 ∧ cnt < 256 ∧ (16 < cnt ∨
      1024 < A % 1024 + cnt ∨ (bit A 22 = true ∧ cnt ≠ 1))) ∧
    (∃ (s : State) (x : Session) (n : Nat) (A : Nat) (cnt : Nat), cnt = 0 ∧ s.hspOpen n x ∧ A < 2 ^ 24 ∧ cnt < 256 ∧ bit A
      22 = false) ∧
    (∃ (s : State), s.pageRuns 0x104 = true) :=
  ⟨⟨hifX (sesX 5) [], (hifX (sesX 5) []).read anyRead (sessionAccess (sesX 5) 0x10 0 0), sesX 5, 2, 0x10,
      (by first | with_reducible rfl | decide +kernel), (by unfold State.hspOpen; decide +kernel)⟩,
    ⟨hifX (sesX 0) [], (hifX (sesX 0) []).write anyWrite (sessionAccess (sesX 0) 0x44010 0x5 (carryCode true (sesX 0).tc
      (addressA (byteAddr (sesX 0).tc 0x44010) (bit 0x44010 22)) 0x5)), sesX 0, 2, 0x44010, 0x5, (carryCode true (sesX
      0).tc (addressA (byteAddr (sesX 0).tc 0x44010) (bit 0x44010 22)) 0x5),
      (by first | with_reducible rfl | decide +kernel), (by unfold State.hspOpen; decide +kernel)⟩,
    ⟨hifX (sesX 0) [], ((hifX (sesX 0) []).write anyWrite (sessionAccess (sesX 0) 0x44010 0x5 (carryCode true (sesX 0).tc
      (addressA (byteAddr (sesX 0).tc 0x44010) (bit 0x44010 22)) 0x5))), ((hifX (sesX 0) []).write anyWrite
      (sessionAccess (sesX 0) 0x44010 0x5 (carryCode true (sesX 0).tc (addressA (byteAddr (sesX 0).tc 0x44010) (bit
      0x44010 22)) 0x5))).write anyWrite (sessionAccess (sesX 0) (0x44010 + 1) 0x6 (carryCode true (sesX 0).tc
      (addressA (byteAddr (sesX 0).tc 0x44011) (bit 0x44011 22)) 0x6)), sesX 0, 2, 0x44010, 0x5, 0x6, (carryCode true
      (sesX 0).tc (addressA (byteAddr (sesX 0).tc 0x44010) (bit 0x44010 22)) 0x5), (carryCode true (sesX 0).tc
      (addressA (byteAddr (sesX 0).tc 0x44011) (bit 0x44011 22)) 0x6),
      (by first | with_reducible rfl | decide +kernel), (by first | with_reducible rfl | decide +kernel),
      (by unfold State.hspOpen; decide +kernel)⟩,
    ⟨hifX (sesX 0) [], ((hifX (sesX 0) []).read anyRead (sessionAccess (sesX 0) 0x44008 0 0)), ((hifX (sesX 0) []).read
      anyRead (sessionAccess (sesX 0) 0x44008 0 0)).write anyWrite (sessionAccess (sesX 0) 0x44008 (BitVec.ofNat 32
      (((((hifX (sesX 0) []).read anyRead (sessionAccess (sesX 0) 0x44008 0 0)).resp.data.headD 0 % 65536) ^^^ (hifX
      (sesX 0) []).pageOf (sesX 0) 0x44008) + b2n true * 2 ^ 30 + 2 ^ 31)) (carryCode true (sesX 0).tc (addressA
      (BitVec.ofNat 32 (byteAddr (sesX 0).tc 0x44008)).toNat (bit 0x44008 22)) (BitVec.ofNat 32 (((((hifX (sesX 0)
      []).read anyRead (sessionAccess (sesX 0) 0x44008 0 0)).resp.data.headD 0 % 65536) ^^^ (hifX (sesX 0) []).pageOf
      (sesX 0) 0x44008) + b2n true * 2 ^ 30 + 2 ^ 31)))), sesX 0, 2, 0x44008, true, (BitVec.ofNat 32 (((((hifX (sesX
      0) []).read anyRead (sessionAccess (sesX 0) 0x44008 0 0)).resp.data.headD 0 % 65536) ^^^ (hifX (sesX 0)
      []).pageOf (sesX 0) 0x44008) + b2n true * 2 ^ 30 + 2 ^ 31)), (by first | with_reducible rfl | decide +kernel),
      (by first | with_reducible rfl | decide +kernel), (by first | with_reducible rfl | decide +kernel),
      (by unfold State.hspOpen; decide +kernel)⟩,
    ⟨hifX (sesX 5) [], sesX 5, 2, (by unfold State.hspOpen; decide +kernel)⟩,
    ⟨hifS id [], [1] ++ [2, 3, 4, 5, 1, 0, 0] ++ [], { iface := 0, bytes := [1] ++ [2, 3, 4, 5, 1, 0, 0] ++ [] }, 1,
      .hostRead { iface := 0, bytes := [1] ++ [2, 3, 4, 5, 1, 0, 0] ++ [] },
      (by first | with_reducible rfl | decide +kernel), by decide +kernel⟩,
    ⟨hifS id [], 2, 16, by decide +kernel⟩,
    ⟨hifS id [], 8, 16, by decide +kernel⟩,
    ⟨hifX { sesX 5 with gen := 3 } [], { sesX 5 with gen := 3 }, 2, 16, by decide +kernel⟩,
    ⟨hifX (sesX 5) [], sesX 5, 2, 16, 17, (by unfold State.hspOpen; decide +kernel)⟩,
    ⟨hifX (sesX 5) [], sesX 5, 2, 16, 0, (by first | with_reducible rfl | decide +kernel),
      (by unfold State.hspOpen; decide +kernel)⟩,
    ⟨hifS id [], by decide +kernel⟩⟩

theorem witness_SessionsComplete :
    (∃ (s : State) (n : Nat) (k : Nat) (tc : Nat), s.pageRuns 0x104 = true ∧ n < 8 ∧ k < 256 ∧ tc < 256 ∧ ((s.ccx.recovery
      = false ∨ tc ≠ 0)) ∧ tc < 64 ∧ k < 32 ∧ s.tenant tc = tenActive ∧ s.slotOwn k = tc ∧ s.lockedOut 1 = false ∧
      s.macSlot k = true ∧ s.on SEC_RBGERR = false) ∧
    (∃ (s : State) (n : Nat) (k : Nat) (tc : Nat), s.pageRuns 0x104 = true ∧ n < 8 ∧ k < 256 ∧ tc < 256 ∧ ((s.ccx.recovery
      = false ∨ tc ≠ 0)) ∧ (64 ≤ tc ∨ 32 ≤ k ∨ s.tenant tc ≠ tenActive ∨ s.slotOwn k ≠ tc ∨ s.lockedOut 1 = true)) ∧
    (∃ (s : State) (n : Nat) (k : Nat) (tc : Nat), s.pageRuns 0x104 = true ∧ n < 8 ∧ k < 256 ∧ tc < 256 ∧ ((s.ccx.recovery
      = false ∨ tc ≠ 0)) ∧ tc < 64 ∧ k < 32 ∧ s.tenant tc = tenActive ∧ s.slotOwn k = tc ∧ s.lockedOut 1 = false ∧
      s.macSlot k = false) ∧
    (∃ (s : State) (n : Nat) (k : Nat), s.pageRuns 0x104 = true ∧ n < 8 ∧ k < 256 ∧ s.ccx.recovery = true) ∧
    (∃ (s : State) (x : Session) (n : Nat) (tag : List Byte), tag = (hmac (s.slotMat x.slot) (s.proofMessage x)).take 16 ∧
      s.pageRuns 0x104 = true ∧ n < 8 ∧ s.session? 1 n = some x ∧ x.isOpen = false ∧ x.peer = 0 ∧ x.slot < 32 ∧ x.tc <
      64 ∧ tag.length = 16 ∧ s.clk ≤ x.clk + 48000 * 1000 * 65536 ∧ s.slotGen x.slot = x.gen) ∧
    (∃ (s : State) (x : Session) (n : Nat) (tag : List Byte), s.pageRuns 0x104 = true ∧ n < 8 ∧ s.session? 1 n = some x ∧
      x.isOpen = false ∧ x.peer = 0 ∧ x.slot < 32 ∧ x.tc < 64 ∧ tag.length = 16 ∧ s.clk ≤ x.clk + 48000 * 1000 * 65536
      ∧ s.slotGen x.slot = x.gen ∧ tag ≠ (hmac (s.slotMat x.slot) (s.proofMessage x)).take 16) ∧
    (∃ (s : State) (x : Session) (n : Nat) (tag : List Byte), s.pageRuns 0x104 = true ∧ n < 8 ∧ s.session? 1 n = some x ∧
      x.isOpen = false ∧ x.peer = 0 ∧ x.slot < 32 ∧ x.tc < 64 ∧ tag.length = 16 ∧ x.clk + 48000 * 1000 * 65536 <
      s.clk) ∧
    (∃ (s : State) (n : Nat) (tag : List Byte), s.pageRuns 0x104 = true ∧ n < 8 ∧ s.session? 1 n = none ∧ tag.length = 16) ∧
    (∃ (s : State) (i : Fin 3) (e : Nat), s.rd CTF_PERIOD ≠ 0 ∧ s.hif.locks.find? (·.1 == i.val + 1) = some (i.val + 1,
      e)) ∧
    (∃ (s : State) (n : Nat), s.pageRuns 0x104 = true ∧ n < 256) ∧
    (∃ (s : State) (x : Session) (n : Nat) (A : Nat) (seq : Nat) (r : HostReq) (body : List Byte) (tag : List Byte), body
      = leBytes 4 seq ++ frameOf opRead n A 1 [] ∧ r =
      { iface := 1, bytes := body ++ tag, src := BitVec.ofNat 48 x.peer } ∧ s.ifaceRuns 2 = true ∧ n < 16 ∧ A < 2 ^ 24
      ∧ seq < 2 ^ 32 ∧ s.session? 2 n = some x ∧ x.isOpen = true ∧ tag.length = 8 ∧ x.peer < 2 ^ 48 ∧ tag ≠ (hmac
      x.key body).take 8) ∧
    (∃ (s : State) (x : Session) (n : Nat) (A : Nat) (seq : Nat) (r : HostReq) (body : List Byte) (tag : List Byte), body
      = leBytes 4 seq ++ frameOf opRead n A 1 [] ∧ r =
      { iface := 1, bytes := body ++ tag, src := BitVec.ofNat 48 x.peer } ∧ tag = (hmac x.key body).take 8 ∧
      s.ifaceRuns 2 = true ∧ n < 16 ∧ A < 2 ^ 24 ∧ seq < 2 ^ 32 ∧ s.session? 2 n = some x ∧ x.isOpen = true ∧
      tag.length = 8 ∧ x.peer < 2 ^ 48 ∧ x.seq = some seq) ∧
    (∃ (s : State) (x : Session) (n : Nat) (A : Nat) (seq : Nat) (r : HostReq) (body : List Byte) (tag : List Byte) (last
      : _), body = leBytes 4 seq ++ frameOf opRead n A 1 [] ∧ r =
      { iface := 1, bytes := body ++ tag, src := BitVec.ofNat 48 x.peer } ∧ tag = (hmac x.key body).take 8 ∧
      s.ifaceRuns 2 = true ∧ n < 16 ∧ A < 2 ^ 24 ∧ seq < 2 ^ 32 ∧ s.session? 2 n = some x ∧ x.isOpen = true ∧
      tag.length = 8 ∧ x.peer < 2 ^ 48 ∧ x.seq = some last ∧ seq < last) ∧
    (∃ (s : State) (x : Session) (n : Fin 16), s.session? 2 n.val = some x ∧ x.isOpen = true ∧ s.ifaceRuns 2 = true ∧
      s.summary x.tc = true ∧ x.high = false) :=
  ⟨⟨hifS id [], 2, 4, 5, by decide +kernel⟩,
    ⟨hifS id [], 2, 4, 6, by decide +kernel⟩,
    ⟨hifS id [(SEC_S_TYPE 4, 1)], 2, 4, 5, by decide +kernel⟩,
    ⟨{ hifS id [] with ccx := { recovery := true } }, 2, 4, by decide +kernel⟩,
    ⟨hifX sesW [], sesW, 2, (hmac ((hifX sesW []).slotMat 4) ((hifX sesW []).proofMessage sesW)).take 16,
      (by first | with_reducible rfl | decide +kernel), by decide +kernel⟩,
    ⟨hifX sesW [], sesW, 2, List.replicate 16 0, by decide +kernel⟩,
    ⟨{ hifX sesW [] with clk := 48000 * 1000 * 65536 + 1 }, sesW, 2, List.replicate 16 0, by decide +kernel⟩,
    ⟨hifS id [], 2, List.replicate 16 0, by decide +kernel⟩,
    ⟨hifS (fun h => { h with locks := [(1, 5)] }) [], 0, 5, by decide +kernel⟩,
    ⟨hifS id [], 9, by decide +kernel⟩,
    ⟨hifX (sesE 5) [], sesE 5, 2, 16, 7, { iface := 1, bytes := ethBody ++ (List.replicate 8 0), src := 77 }, ethBody,
      (List.replicate 8 0), (by first | with_reducible rfl | decide +kernel),
      (by first | with_reducible rfl | decide +kernel), by decide +kernel⟩,
    ⟨hifX (sesE 7) [], sesE 7, 2, 16, 7,
      { iface := 1, bytes := ethBody ++ ((hmac (List.replicate 16 1) ethBody).take 8), src := 77 }, ethBody, ((hmac
      (List.replicate 16 1) ethBody).take 8), (by first | with_reducible rfl | decide +kernel),
      (by first | with_reducible rfl | decide +kernel), (by first | with_reducible rfl | decide +kernel),
      by decide +kernel⟩,
    ⟨hifX (sesE 9) [], sesE 9, 2, 16, 7,
      { iface := 1, bytes := ethBody ++ ((hmac (List.replicate 16 1) ethBody).take 8), src := 77 }, ethBody, ((hmac
      (List.replicate 16 1) ethBody).take 8), 9, (by first | with_reducible rfl | decide +kernel),
      (by first | with_reducible rfl | decide +kernel), (by first | with_reducible rfl | decide +kernel),
      by decide +kernel⟩,
    ⟨(hifX (sesE 5) [(OWN_TC 0x110, 5), (IRQ_EN 0x110, 1)]).raise 0x110 0, sesE 5, 2, by decide +kernel⟩⟩

theorem witness_FieldInterfacesComplete :
    (∃ (s : State) (a : Nat) (d : List Byte), a = s.txBase + 16 * s.rd ETH_TXHEAD ∧ d = s.sysBytes a 16 ∧ s.pageRuns 0x100
      = true ∧ s.on ETH_EN = true ∧ s.rd ETH_TXL ≤ 10 ∧ bit (leAt d 9 1) 0 = true) ∧
    (∃ (s : State) (frame : List Byte) (a : Nat) (d : List Byte), a = s.rxBase + 16 * s.rd ETH_RXHEAD ∧ d = s.sysBytes a
      16 ∧ s.pageRuns 0x100 = true ∧ s.on ETH_EN = true ∧ s.rd ETH_RXL ≤ 10 ∧ bit (leAt d 9 1) 0 = false) ∧
    (∃ (s : State) (frame : List Byte) (a : Nat) (d : List Byte), a = s.rxBase + 16 * s.rd ETH_RXHEAD ∧ d = s.sysBytes a
      16 ∧ s.pageRuns 0x100 = true ∧ s.on ETH_EN = true ∧ s.rd ETH_RXL ≤ 10 ∧ bit (leAt d 9 1) 0 = true ∧ 0x8000000 ≤
      a ∧ a + 16 ≤ 0x8400000) ∧
    (∃ (s : State) (answer : BitVec 16) (w : RegWrite), s.admitsWrite 0x100 0x06C w (setBit w.data.toNat 31) = true ∧ bits
      w.data.toNat 24 2 ≠ 3) ∧
    (∃ (s : State) (link : Bool), s.pageRuns 0x100 = true ∧ s.on ETH_APOLL = true) ∧
    (∃ (s : State) (n : Fin 2) (w : RegWrite), s.admitsWrite (0x10C + n.val) 0x048 w w.data.toNat = true) ∧
    (∃ (s : State) (n : Fin 2) (char : Byte) (err : Bool), s.uartRuns n.val = true ∧ (s.uart n.val).de = false ∧ (s.uart
      n.val).rx.length < 64) ∧
    (∃ (s : State) (n : Fin 2) (char : Byte) (err : Bool), s.uartRuns n.val = true ∧ (s.uart n.val).de = false ∧ 64 ≤
      (s.uart n.val).rx.length) ∧
    (∃ (s : State) (n : Fin 2) (char : Byte) (err : Bool) (b : _) (l : _), s.uartRuns n.val = true ∧ (s.uart n.val).de =
      true ∧ (s.uart n.val).tx = b :: l) ∧
    (∃ (s : State) (n : Fin 2) (r : RegRead), s.admitsRead (0x10C + n.val) 0x04C r = true ∧ s.owns ⟨r.port, r.tc.val,
      0x10C + n.val, 0x04C, none⟩ = true) ∧
    (∃ (s : State) (n : Fin 2) (idle : Bool), s.uartRuns n.val = true) ∧
    (∃ (s : State) (n : Fin 2), s.uartRuns n.val = true ∧ (s.uart n.val).de = true) ∧
    (∃ (s : State) (pin : Fin 48) (level : Bool), s.on (GPIO_DIR pin.val) = false ∧ s.on (GPIO_IN pin.val) ≠ level) ∧
    (∃ (s : State) (k : Fin 8) (level : Bool) (now : Bool), now = (level == bit (s.rd TIN_POL) k.val) ∧ bit (s.rd TIN_LVL)
      k.val ≠ now) ∧
    (∃ (s : State) (w : RegWrite), s.admitsWrite 0x118 0x044 w (setBit w.data.toNat 0) = true) ∧
    (∃ (s : State) (w : RegWrite), s.admitsWrite 0x118 0x044 w (clearBit w.data.toNat 0) = true) :=
  ⟨⟨ethS 20 1, 0x8000130, (ethS 20 1).sysBytes 0x8000130 16, (by first | with_reducible rfl | decide +kernel),
      (by first | with_reducible rfl | decide +kernel), by decide +kernel⟩,
    ⟨ethS 20 0, [1, 2], 0x8000130, (ethS 20 0).sysBytes 0x8000130 16, (by first | with_reducible rfl | decide +kernel),
      (by first | with_reducible rfl | decide +kernel), by decide +kernel⟩,
    ⟨ethS 20 1, [1, 2], 0x8000130, (ethS 20 1).sysBytes 0x8000130 16, (by first | with_reducible rfl | decide +kernel),
      (by first | with_reducible rfl | decide +kernel), by decide +kernel⟩,
    ⟨hifS id [], 0x1234, wq 0 0x100 0x06C 0x82030007, by decide +kernel⟩,
    ⟨ethS 0 0, true, by decide +kernel⟩,
    ⟨uartS { tx := [1] }, 0, wq 0 0x10C 0x048 0x41, by decide +kernel⟩,
    ⟨uartS { rx := [(1, false)] }, 0, 65, true, by decide +kernel⟩,
    ⟨uartS { rx := List.replicate 64 (1, false) }, 0, 65, true, by decide +kernel⟩,
    ⟨uartS { tx := [65, 66], de := true }, 0, 65, false, (65 : Byte), [66], by decide +kernel⟩,
    ⟨(uartS { rx := [(65, true), (66, false)] }).uartShow 0, 0, rq 0, by decide +kernel⟩,
    ⟨uartS {}, 0, true, by decide +kernel⟩,
    ⟨uartS { tx := [65, 66], de := true }, 0, by decide +kernel⟩,
    ⟨hifS id [(GPIO_EDGE 3, 1)], 3, true, by decide +kernel⟩,
    ⟨hifS id [(TIN_POL, 0xFF)], 3, true, true, (by first | with_reducible rfl | decide +kernel), by decide +kernel⟩,
    ⟨hifS id [], wq 0 0x118 0x044 1, by decide +kernel⟩,
    ⟨hifS (fun h => { h with armed := some 0 }) [], wq 0 0x118 0x044 0x200, by decide +kernel⟩⟩

theorem witness_MeteringFrame :
    (∃ (c : Instr) (s : State) (t : State) (l : List Part), touchesMetering c = some l ∧ exec c s = .next t) :=
  ⟨.acquireRestart, State.reset, getT (exec .acquireRestart State.reset), [.regs, .ctf], rfl, rfl⟩

theorem witness_InferenceFrame :
    (∃ (c : Instr) (s : State) (t : State) (l : List Part), touchesInference c = some l ∧ exec c s = .next t) :=
  ⟨.burstDrain, State.reset, getT (exec .burstDrain State.reset), [.tun], rfl, rfl⟩

theorem witness_NetworksFrame :
    (∃ (c : Instr) (s : State) (t : State) (l : List Part), touchesNetworks c = some l ∧ exec c s = .next t) :=
  ⟨.routeAge, State.reset, getT (exec .routeAge State.reset), [.plm], rfl, rfl⟩

theorem witness_SupportFrame :
    (∃ (c : Instr) (s : State) (t : State) (l : List Part), touchesSupport c = some l ∧ exec c s = .next t) :=
  ⟨.hspCsCut, State.reset, getT (exec .hspCsCut State.reset), [.regs], rfl, rfl⟩

theorem witness_EventPagesFrame :
    (∃ (c : Instr) (s : State) (t : State) (l : List Nat), registerPages c = some l ∧ exec c s = .next t) :=
  ⟨.acquireRestart, State.reset, getT (exec .acquireRestart State.reset), [0x010], rfl, rfl⟩

/-! ## Ill-formed commands are refused -/

/-- A write by nobody in particular. -/
def anyW (p : Port) : RegWrite := ⟨p, 0, 0, 0⟩

theorem wf_refuses_hsp_session_8 : (Instr.ctfReacq (anyW (.hsp 8))).wf = false := by decide

theorem wf_refuses_hart_4 : (Instr.stampRead ⟨.hart 4, 0⟩).wf = false := by decide

theorem wf_refuses_access_of_3_bytes : (Instr.configWrite { port := .mgmt, tc := 0, addr := 0, size := 3 }).wf = false := by
  decide

theorem wf_refuses_unassigned_page : (Instr.ctrlPrst 0x3FF (anyW .mgmt)).wf = false := by decide +kernel

theorem wf_refuses_upset_off_a_word : (Instr.integScrub 0x010 (some (2, 1))).wf = false := by decide +kernel

theorem wf_refuses_block_operation_of_management_core :
    (Instr.hartMemoryAccess { core := 4, machine := true, kind := .clean, addr := 0, size := 64 }).wf = false := by decide

theorem wf_refuses_store_without_its_bytes :
    (Instr.hartMemoryAccess { core := 0, machine := true, kind := .store, addr := 0, size := 4, data := [1] }).wf = false := by
  decide

theorem wf_refuses_slot_above_8_MiB : (SlotImage.mk true (List.replicate (2 ^ 23 + 1) 0)).wf = false := by
  have h : (List.replicate (2 ^ 23 + 1) (0 : Byte)).length = 2 ^ 23 + 1 := List.length_replicate
  unfold SlotImage.wf
  rw [h]
  decide

theorem wf_refuses_short_fch :
    (Instr.toneReceive { fch := [1], payload := [], eui := 0, phase0 := 0, snr := [] }).wf = false := by decide

theorem wf_refuses_chain_frame_without_crc : (Instr.enum { bytes := [1, 2, 3, 4] }).wf = false := by decide

theorem wf_refuses_five_cells : (Instr.estimationStep ⟨0, 0, List.replicate 5 (0, 0), 0, 0⟩).wf = false := by decide

theorem wf_refuses_empty_request : (Instr.hostRead ⟨0, [], 0⟩).wf = false := by decide

theorem wf_refuses_channel_block_64 : (Instr.metrologyClose [⟨false, 64, 0, 0⟩]).wf = false := by decide

theorem wf_refuses_qspi_data_above_256 : (Instr.qspiComplete (List.replicate 257 0)).wf = false := by decide +kernel

theorem wf_refuses_eleven_margins :
    (Instr.supplyLoop (List.replicate 11 0) (List.replicate 24 [])).wf = false := by decide

theorem wf_refuses_fifteen_sites : (Instr.thermalLoop (List.replicate 15 0)).wf = false := by decide

theorem wf_refuses_short_ethernet_frame : (Instr.ethRxFrame [1, 2]).wf = false := by decide

/-! ## Check codes and algorithms -/

/-- The worked example of chapter 3: the write of the default value of CTF_LOOP by TC00 (R79). -/
theorem test_carry_code : carryCode true 0 0x004015 0x0000320A = 0xCF := by decide +kernel

/-- The check value of CRC-32 of IEEE 802.3 over the digits 1 to 9. -/
theorem test_crc32 : crc32 [0x31, 0x32, 0x33, 0x34, 0x35, 0x36, 0x37, 0x38, 0x39] = 0xCBF43926 := by decide +kernel

/-- The check value of this CRC-16 over the digits 1 to 9. -/
theorem test_crc16 : crc16 [0x31, 0x32, 0x33, 0x34, 0x35, 0x36, 0x37, 0x38, 0x39] = 0x29B1 := by decide +kernel

/-- The response header of the worked example of chapter 23 and its CRC-16. -/
theorem test_crc16_of_response : crc16 [0x82, 0x00, 0x00, 0x01] = 0xA4B1 := by decide +kernel

/-- FIPS 180-4: the digest of "abc". -/
theorem test_sha256 : beNat (sha256 [0x61, 0x62, 0x63])
    = 0xba7816bf8f01cfea414140de5dae2223b00361a396177a9cb410ff61f20015ad := by decide +kernel

/-- FIPS 197, appendix C.1. -/
theorem test_aes : beNat (aes (aesKeys (beBytes 16 0x000102030405060708090a0b0c0d0e0f))
    (beBytes 16 0x00112233445566778899aabbccddeeff)) = 0x69c4e0d86a7b0430d8cdb78070b4c55a := by decide +kernel

/-- The generator of P-256 (FIPS 186-4, D.1.2.3) is the public point of the scalar 1. -/
theorem test_ec_generator : ecPublic 1 = (0x6b17d1f2e12c4247f8bce6e563a440f277037d812deb33a0f4a13945d898c296,
    0x4fe342e2fe1a7f9b8ee7eb4a7c0f9e162bce33576b315ececbb6406837bf51f5) := by decide +kernel

/-! ## Worked examples of the spec, one step each -/

/-- Chapter 3: the write of CTF_LOOP with its carry code, as the front command after reset. -/
theorem test_ctf_loop_write : (getT (step { State.reset with pending :=
    [.configWrite { port := .mgmt, tc := 0, addr := directAddr 0x010 0x054, data := 0x0000320A, cc := 0xCF }] })).resp.code
    = .ok := by decide +kernel

/-- The same with one bit of the carry code flipped (R81). -/
theorem test_ctf_loop_write_upset : (getT (step { State.reset with pending :=
    [.configWrite { port := .mgmt, tc := 0, addr := directAddr 0x010 0x054, data := 0x0000320A, cc := 0xCE }] })).resp.code
    = .integFail := by decide +kernel

/-- Chapter 2: the fields of the entry word of the pulse window on VB1. -/
theorem test_entry_word : (entStart 0x220001022800EC00, entLen 0x220001022800EC00, entCons 0x220001022800EC00,
    entPer 0x220001022800EC00, entAnch 0x220001022800EC00, entEn 0x220001022800EC00) = (0xEC00, 10240, 2, 1, 2, true) := by
  decide

/-- Chapter 23: one HSP write; the host receives A5 82 00 00 01 A4 B1. The header CRC of the request is that of R325
(log entry 37). -/
theorem test_hsp_write : (getT (execHostWrite ⟨0, [0x02, 0x00, 0x15, 0x40, 0x00, 0x01, 0x2F, 0x3E, 0x0A, 0x32, 0x00, 0x00, 0xCF], 0⟩
    (hifX { sesX 0 with num := 0 } []))).out.map (·.data) = [[0xA5, 0x82, 0x00, 0x00, 0x01, 0xA4, 0xB1]] := by decide +kernel

/-- Chapter 19: one rising step takes Z from 384 to 387 and BGA_ZN from 6 to 7. -/
theorem test_impedance_step :
    let t := getT (execBurstEdge ⟨BitVec.ofInt 16 (-1802), 32750⟩ ⟨BitVec.ofInt 16 (-2762), 32720⟩ true
      (bgaS id [(BGA_ONPACK, 1), (BGA_Z, 384), (BGA_ZN, 6), (BGA_ZMIN, 200), (BGA_ZWANT, 1)]))
    (t.rd BGA_Z, t.rd BGA_ZN, t.rd BGA_ZWANT) = (387, 7, 1) := by decide +kernel

/-! ## The queue -/

/-- With nothing waiting the block idles: one ct passes (log entry 1). -/
theorem test_idle_step : (getT (step State.reset)).ticks = 1 := by decide +kernel

/-- The first command in is the first out. -/
theorem test_first_in_first_out :
    (getT (step { State.reset with pending := [.routeAge, .helloSend] })).pending = [.helloSend] := by decide +kernel

/-- No row of the table has bits, so no word spells a command. -/
theorem test_no_word_is_a_command : decodeTableWord 32 0 = none := rfl


end Sys2Proof.Machine.Test
end

/-! ## Register pages (chapter 3): reserved ranges and failing carry codes -/

namespace Sys2Proof.Machine

/-! ### Where an address leads (Table 3-1) -/

/-- The direct window, unassigned pages included. -/
theorem targetOf_directWindow {p off : Nat} (hp : p < 1024) (ho : off < 4096) :
    targetOf (0x40000000 + p * 0x1000 + off) =
      if RegMap.assigned p then .page p off else .nowhere := by
  have hpage : (0x40000000 + p * 0x1000 + off - 0x40000000) / 4096 = p := by omega
  have hoff : (0x40000000 + p * 0x1000 + off) % 4096 = off := by omega
  unfold targetOf
  rw [if_pos (by omega)]
  simp only [hpage, hoff]

theorem targetOf_aliasWindow {t k off : Nat} (ht : t < 64) (hk : k < 256) (ho : off < 4096) :
    targetOf (0x60000000 + t * 0x100000 + k * 0x1000 + off) = .slot t k off := by
  unfold targetOf
  rw [if_neg (by omega), if_pos (by omega)]
  have htenant : (0x60000000 + t * 0x100000 + k * 0x1000 + off - 0x60000000) / 1048576 = t := by omega
  have hslot : (0x60000000 + t * 0x100000 + k * 0x1000 + off - 0x60000000) / 4096 % 256 = k := by omega
  have hoff : (0x60000000 + t * 0x100000 + k * 0x1000 + off) % 4096 = off := by omega
  simp only [htenant, hslot, hoff]

theorem targetOf_reserved {a : Nat} (h : (0x40400000 ≤ a ∧ a < 0x60000000) ∨ 0x64000000 ≤ a) :
    targetOf a = .nowhere := by
  unfold targetOf
  rw [if_neg (by omega), if_neg (by omega)]

theorem targetOf_page_off_lt {a p off : Nat} (h : targetOf a = .page p off) : off < 4096 := by
  unfold targetOf at h
  split at h
  · dsimp only at h
    split at h <;> cases h
    exact Nat.mod_lt _ (by decide)
  · split at h <;> cases h

theorem targetOf_slot_off_lt {a t k off : Nat} (h : targetOf a = .slot t k off) : off < 4096 := by
  unfold targetOf at h
  split at h
  · dsimp only at h
    split at h <;> cases h
  · split at h <;> cases h
    exact Nat.mod_lt _ (by decide)

/-- The offset of a route lies in its 4 KiB page. -/
theorem route_off_lt {s : State} {a : Nat} {r : Route} (h : s.route a = some r) : r.off < 4096 := by
  unfold State.route at h
  split at h
  case h_1 _ _ htgt =>
    cases h
    exact targetOf_page_off_lt htgt
  case h_2 _ _ _ htgt =>
    split at h <;> cases h <;> exact targetOf_slot_off_lt htgt
  case h_3 => cases h

theorem route_nowhere {s : State} {a : Nat} (h : targetOf a = .nowhere) : s.route a = none := by
  unfold State.route; rw [h]

/-! ### Accesses that no page receives (R61) -/

theorem write_nowhere {s : State} {a : Access} (h : Writer) (hn : targetOf a.addr.toNat = .nowhere) :
    s.write h a = s.answer .cfgInvalid := by
  unfold State.write; rw [route_nowhere hn]

theorem read_nowhere {s : State} {a : Access} (h : Reader) (hn : targetOf a.addr.toNat = .nowhere) :
    s.read h a = s.answerRead a.tc.val (addressA a.addr.toNat a.replay) .ok 0 := by
  unfold State.read; rw [route_nowhere hn]

theorem sameBut_answer (s : State) (c : Status) : SameBut [.resp] s (s.answer c) :=
  sameBut_of_except (State.answer_same _ (by decide) s c)

theorem sameBut_answerRead (s : State) (tc a : Nat) (c : Status) (v : Nat) :
    SameBut [.resp] s (s.answerRead tc a c v) :=
  sameBut_of_except (State.answerRead_same _ (by decide) s tc a c v)

/-- Settles O11: the three ranges of Table 3-1, and the answers that the interconnect gives itself. -/
theorem reservedRangesAnswer : Obligations.ReservedRangesAnswer := by
  unfold Obligations.ReservedRangesAnswer
  refine ⟨fun p off => targetOf_directWindow, fun t k off => targetOf_aliasWindow,
    fun a => targetOf_reserved, ?_, ?_⟩
  · intro s a hn
    refine ⟨s.write anyWrite a, rfl, ?_⟩
    rw [write_nowhere anyWrite hn]
    exact ⟨answer_code s .cfgInvalid, sameBut_answer s .cfgInvalid⟩
  · intro s a hn
    refine ⟨s.read anyRead { a with replay := false }, rfl, ?_⟩
    rw [read_nowhere anyRead (a := { a with replay := false }) hn]
    exact ⟨answerRead_code .., rfl, rfl, sameBut_answerRead _ _ _ _ _⟩

/-! ### What a capture writes (R66) -/

/-- A write of a field of one word changes no other key, aligned or not. -/
theorem reg_wr_otherKey (s : State) {f : Fld} {p o : Nat} (v : Nat) (hw : f.width ≤ 32) (h : regKey p o ≠ f.key) :
    (s.wr f v).reg p o = s.reg p o := by
  rw [State.wr, if_pos hw, reg_setReg_other s h]

/-- A capture touches ERRCAP and IRQ_RAW of its page alone. -/
theorem reg_capture_other (s : State) {page p o : Nat} (off tc : Nat) (write : Bool) (c : Status)
    (herr : regKey p o ≠ regKey page 0x28) (hirq : regKey p o ≠ regKey page 0x10) :
    (s.capture page off tc write c).reg p o = s.reg p o := by
  unfold State.capture
  split
  · rfl
  · split
    · exact reg_wr_otherKey (f := Reg.ERR_CNT page) _ _ (by show 4 ≤ 32; decide) herr
    · exact (reg_wr_otherKey (f := Reg.IRQ_RAW page) _ _ (Nat.le_refl 32) hirq).trans (reg_setReg_other _ herr _)

theorem rd_capture_other (s : State) {page : Nat} {f : Fld} (off tc : Nat) (write : Bool) (c : Status)
    (hw : f.width ≤ 32) (herr : f.key ≠ regKey page 0x28) (hirq : f.key ≠ regKey page 0x10) :
    (s.capture page off tc write c).rd f = s.rd f := by
  simp only [State.rd, if_pos hw, reg_capture_other s off tc write c herr hirq]

/-- The code, the word, the tenant and the direction of an access that fails on a page without a capture. -/
theorem reg_errcap_capture {s : State} {page : Nat} (off tc : Nat) (write : Bool) {c : Status}
    (hv : s.on (Reg.ERR_VALID page) = false) (hc : ¬(c = .ok ∨ c = .holdover ∨ c = .degraded ∨ c = .delayed)) :
    (s.capture page off tc write c).reg page 0x28 =
      (codeOf c + off / 4 * 2 ^ 8 + tc * 2 ^ 18 + b2n write * 2 ^ 24 + 2 ^ 31) % 2 ^ 32 := by
  unfold State.capture
  rw [if_neg hc, hv, if_neg (by decide)]
  refine (reg_wr_otherKey (f := Reg.IRQ_RAW page) _ _ (Nat.le_refl 32) ?_).trans (reg_setReg_same ..)
  simp only [regKey, Fld.key, Reg.IRQ_RAW]; omega

/-! ### A write whose carry code fails (R81) -/

/-- The state that a write with a failing carry code leaves, but for its answer: the count, the log entry, the capture. -/
def State.carryFailed (s : State) (a : Access) (p off : Nat) : State :=
  ((s.count Reg.SYS_HPERR).log 0x5003 deviceTc
    (addressA a.addr.toNat a.replay + portCode a.port * 2 ^ 24)).capture p off a.tc.val true .integFail

theorem stopOf_carryFails {s : State} {a : Access} (r : Route)
    (hcc : a.cc ≠ carryCode true a.tc.val (addressA a.addr.toNat a.replay) a.data) :
    s.stopOf true a r = some (.integFail, 0x5003) := by
  unfold State.stopOf
  exact if_pos ⟨rfl, hcc⟩

theorem stopped_carryFails (s : State) (a : Access) {r : Route} {p : Nat} (hp : r.page = some p) :
    s.stopped true a r (.integFail, 0x5003) = s.carryFailed a p (r.off / 4 * 4) := by
  simp [State.stopped, State.carryFailed, hp]

theorem write_carryFails {s : State} {a : Access} {r : Route} {p : Nat} (h : Writer)
    (hr : s.route a.addr.toNat = some r) (hp : r.page = some p) (hst : (s.pg p).stale = false)
    (hcc : a.cc ≠ carryCode true a.tc.val (addressA a.addr.toNat a.replay) a.data) :
    s.write h a = (s.carryFailed a p (r.off / 4 * 4)).answer .integFail := by
  simp only [State.write, hr, hp, scrubFirst_fresh hst, stopOf_carryFails r hcc, stopped_carryFails s a hp]

theorem sameBut_carryFailed_answer (s : State) (a : Access) (p off : Nat) (c : Status) :
    SameBut [.regs, .events, .resp] s ((s.carryFailed a p off).answer c) := by
  refine sameBut_of_except ?_
  rw [State.answer_same _ (by decide), State.carryFailed, State.capture_same _ (by decide),
    State.log_same _ (by decide), State.count_same _ (by decide)]

theorem rd_hperr_carryFailed (s : State) (a : Access) (p off : Nat) :
    (s.carryFailed a p off).rd Reg.SYS_HPERR = satNat 16 (s.rd Reg.SYS_HPERR + 1) := by
  have hkey : Reg.SYS_HPERR.key = 0x5C := rfl
  rw [State.carryFailed, rd_capture_other _ _ _ _ _ (by decide)
    (by rw [hkey, regKey]; omega) (by rw [hkey, regKey]; omega), rd_log]
  exact rd_count_same s Reg.SYS_HPERR 1 (by decide)

theorem events_carryFailed (s : State) (a : Access) (p off : Nat) :
    (s.carryFailed a p off).events =
      s.events ++ [⟨0x5003, deviceTc, leBytes 8 (addressA a.addr.toNat a.replay + portCode a.port * 2 ^ 24)⟩] := by
  simp [State.carryFailed]

theorem sysHperr_apart_errValid (p : Nat) : Reg.SYS_HPERR.apart (Reg.ERR_VALID p) = true := by
  simp [Fld.apart, Fld.key, Fld.words, Reg.SYS_HPERR, Reg.ERR_VALID, regKey]; omega

/-- ERRCAP holds the whole capture: its fields fit their widths. -/
theorem reg_errcap_carryFailed {s : State} (a : Access) {p off : Nat} (ho : off < 4096)
    (hv : s.on (Reg.ERR_VALID p) = false) :
    (s.carryFailed a p off).reg p 0x28 =
      codeOf .integFail + off / 4 * 2 ^ 8 + a.tc.val * 2 ^ 18 + 2 ^ 24 + 2 ^ 31 := by
  have hv' : (s.count Reg.SYS_HPERR).on (Reg.ERR_VALID p) = false := by
    rw [State.count, on_wr_apart s _ _ _ (sysHperr_apart_errValid p) fun _ => Nat.le_refl 32, hv]
  have htc := a.tc.isLt
  rw [State.carryFailed, reg_errcap_capture _ _ _ (by rwa [on_log]) (by decide)]
  simp only [codeOf, b2n, if_true]
  omega

theorem reg_carryFailed_other (s : State) (a : Access) {p q o : Nat} (off : Nat) (ho : o < 4096)
    (hsys : ¬(q = 0x000 ∧ o = 0x5C)) (hpage : ¬(q = p ∧ (o = 0x28 ∨ o = 0x10))) :
    (s.carryFailed a p off).reg q o = s.reg q o := by
  rw [State.carryFailed, reg_capture_other _ _ _ _ _ (by unfold regKey; omega) (by unfold regKey; omega), reg_log]
  refine reg_wr_otherKey s _ (by decide) ?_
  simp only [regKey, Fld.key, Reg.SYS_HPERR]; omega

/-- Settles O9: a write whose carry code fails ends as `carryFailed` says, whatever page it leads to. -/
theorem failingCarryCodeIsNotPerformed : Obligations.FailingCarryCodeIsNotPerformed := by
  unfold Obligations.FailingCarryCodeIsNotPerformed
  intro s a r p hr hp _ hst hcc
  have hword : r.off / 4 * 4 / 4 = r.off / 4 := by omega
  have hoff : r.off / 4 * 4 < 4096 := by have := route_off_lt hr; omega
  refine ⟨s.write anyWrite a, rfl, ?_⟩
  rw [write_carryFails anyWrite hr hp hst hcc]
  refine ⟨answer_code .., ?_, ?_, ?_, ?_, sameBut_carryFailed_answer _ _ _ _ _⟩
  · rw [rd_answer, rd_hperr_carryFailed]
  · exact events_carryFailed ..
  · intro hv
    rw [reg_answer, reg_errcap_carryFailed a hoff hv, hword]
  · intro q o _ ho hsys hpage
    rw [reg_answer, reg_carryFailed_other s a _ ho hsys hpage]

end Sys2Proof.Machine

/-! ## The frame of every command -/

namespace Sys2Proof.Machine

open Reg

/-- A command that answers a state which agrees with `s` outside a mask leaves the parts outside the mask. -/
theorem sameBut_next {l : List Part} {s u t : State} (m : Nat) (hm : partMask l = m)
    (h : (.next u : Result) = .next t) (e : u.except m = s.except m) : SameBut l s t := by
  subst hm
  exact Host.Outcome.next.inj h ▸ sameBut_of_except e

/-- Taking in a chain frame counts it and leaves the rest, whether the frame is good or not. -/
theorem chainTake_left {m : Nat} (hm : 1 &&& m = 1) {s u : State} {k n : Nat} {f : ChainFrame} {o : Option (List Byte)}
    (h : s.chainTake k n f = (o, u)) : u.except m = s.except m := by
  rw [← State.chainTake_same m hm s k n f, h]

theorem ctrAccept_getD_left {m : Nat} (hm : 33554432 &&& m = 33554432) (s : State) (k n c : Nat) :
    ((s.ctrAccept k n c).getD s).except m = s.except m := by
  cases h : s.ctrAccept k n c with
  | none => rfl
  | some u => exact State.ctrAccept_same m hm s k n c u h

/-! ### Metering, cycle time, tenants and register space -/

theorem execConfigWrite_frame {s t : State} {a : Access} (h : execConfigWrite a s = .next t) :
    SameBut [.regs, .inForce, .latch, .hold, .latched, .pages, .events, .resp, .out, .free, .ctf, .tnc, .acs, .mte,
      .acc, .pqe, .tun, .ltr, .barm, .ccx, .cel, .plt, .plp, .plm, .tmp, .clg, .sec, .swc, .bga, .pmu, .mon, .start,
      .hif, .mem] s t :=
  sameBut_next 68719476543 rfl h (State.write_same _ rfl _ _ _ (anyWrite_same _ rfl))

theorem execReadClear_frame {s t : State} {a : Access} (h : execReadClear a s = .next t) :
    SameBut [.regs, .latch, .latched, .pages, .events, .resp, .free, .ctf, .cel, .bga, .hif] s t :=
  sameBut_next 18257812277 rfl h (State.read_same _ rfl _ _ _ (anyRead_same _ rfl))

theorem execReplayRead_frame {s t : State} {a : Access} (h : execReplayRead a s = .next t) :
    SameBut [.regs, .latch, .latched, .pages, .events, .resp, .free, .ctf, .cel, .bga, .hif] s t :=
  sameBut_next 18257812277 rfl h (State.read_same _ rfl _ _ _ (anyRead_same _ rfl))

theorem execCtrlPrst_frame {s t : State} {page : Fin 1024} {w : RegWrite} (h : execCtrlPrst page w s = .next t) :
    SameBut [.regs, .inForce, .latch, .hold, .latched, .pages, .events, .resp, .out, .free, .ctf, .tnc, .acs, .mte,
      .acc, .pqe, .tun, .ltr, .barm, .ccx, .cel, .plt, .plp, .plm, .tmp, .clg, .sec, .swc, .bga, .pmu, .mon, .start,
      .hif, .mem] s t :=
  sameBut_next 68719476543 rfl h (State.writeReg_same _ rfl _ _ _ _ _ _ (anyWrite_same _ rfl))

theorem execLockRead_frame {s t : State} {page : Fin 1024} {r : RegRead} (h : execLockRead page r s = .next t) :
    SameBut [.regs, .latch, .latched, .pages, .events, .resp, .free, .ctf, .cel, .bga, .hif] s t :=
  sameBut_next 18257812277 rfl h (State.readReg_same _ rfl _ _ _ _ _ (anyRead_same _ rfl))

theorem execLockWrite_frame {s t : State} {page : Fin 1024} {w : RegWrite} (h : execLockWrite page w s = .next t) :
    SameBut [.regs, .inForce, .latch, .hold, .latched, .pages, .events, .resp, .out, .free, .ctf, .tnc, .acs, .mte,
      .acc, .pqe, .tun, .ltr, .barm, .ccx, .cel, .plt, .plp, .plm, .tmp, .clg, .sec, .swc, .bga, .pmu, .mon, .start,
      .hif, .mem] s t :=
  sameBut_next 68719476543 rfl h (State.writeReg_same _ rfl _ _ _ _ _ _ (anyWrite_same _ rfl))

theorem execIrqClr_frame {s t : State} {page : Fin 1024} {w : RegWrite} (h : execIrqClr page w s = .next t) :
    SameBut [.regs, .inForce, .latch, .hold, .latched, .pages, .events, .resp, .out, .free, .ctf, .tnc, .acs, .mte,
      .acc, .pqe, .tun, .ltr, .barm, .ccx, .cel, .plt, .plp, .plm, .tmp, .clg, .sec, .swc, .bga, .pmu, .mon, .start,
      .hif, .mem] s t :=
  sameBut_next 68719476543 rfl h (State.writeReg_same _ rfl _ _ _ _ _ _ (anyWrite_same _ rfl))

theorem execIntegScrub_frame {s t : State} {page : Fin 1024} {upset : Option (Nat × Nat)}
    (h : execIntegScrub page upset s = .next t) :
    SameBut [.regs, .pages, .events] s t :=
  sameBut_next 289 rfl h (by
    simp only [State.scrubPage_same, apply_ite (State.except 289), ite_self, Nat.reduceAnd]
    repeat' split
    all_goals
      simp only [State.upset_same, Nat.reduceAnd])

theorem execSealedPageRewrite_frame {s t : State} {page : Fin 1024} (h : execSealedPageRewrite page s = .next t) :
    SameBut [.regs, .pages, .events, .cel] s t :=
  sameBut_next 4194593 rfl h (by
    simp only [State.rewritePage_same, State.setPg_same, apply_ite (State.except 4194593), ite_self, Nat.reduceAnd])

theorem execCycleBoundary_frame {s t : State} {period : BitVec 24} (h : execCycleBoundary period s = .next t) :
    SameBut [.regs, .inForce, .pages, .ticks, .clk, .events, .ctf, .tnc, .acs, .mte, .acc, .pqe, .tun, .barm, .tmp,
      .mon] s t :=
  sameBut_next 4363645411 rfl h (by
    simp only [State.closePeriod_same, State.boundary_same, Nat.reduceAnd])

theorem execSampleWord_frame {s t : State} {w : SampleIn} (h : execSampleWord w s = .next t) :
    SameBut [.regs, .inForce, .pages, .ticks, .clk, .events, .ctf, .tnc, .acs, .mte, .acc, .pqe, .tun, .barm, .tmp,
      .mon] s t :=
  sameBut_next 4363645411 rfl h (by
    simp only [State.convert_same, State.deliverSample_same, apply_ite (State.except 4363645411), ite_self,
      Nat.reduceAnd])

theorem execChannelLost_frame {s t : State} {code : Fin 8} (h : execChannelLost code s = .next t) :
    SameBut [.regs, .pages, .events, .ctf, .acc, .pqe] s t :=
  sameBut_next 200993 rfl h (by
    simp only [State.setChan_same, State.showQual_same, State.referenceLost_same, State.gateFrom_same,
      State.pqeLost_same, apply_ite (State.except 200993), ite_self, Nat.reduceAnd])

theorem execLoss_frame {s t : State} (h : execLoss s = .next t) :
    SameBut [.regs, .pages, .events, .ctf, .acc] s t :=
  sameBut_next 69921 rfl h (by
    simp only [State.enterFlywheel_same, State.gateFrom_same, apply_ite (State.except 69921), ite_self,
      Nat.reduceAnd])

theorem execAcquireRestart_frame {s t : State} (h : execAcquireRestart s = .next t) :
    SameBut [.regs, .ctf] s t :=
  sameBut_next 4097 rfl h (by
    simp only [State.count_same, except_upd_ctf, apply_ite (State.except 4097), ite_self, Nat.reduceAnd])

theorem execRevert_frame {s t : State} (h : execRevert s = .next t) :
    SameBut [.regs, .events, .ctf] s t :=
  sameBut_next 4353 rfl h (by
    repeat' split
    all_goals
      simp only [State.switchTo_same, Nat.reduceAnd])

theorem execCtfReacq_frame {s t : State} {w : RegWrite} (h : execCtfReacq w s = .next t) :
    SameBut [.regs, .inForce, .latch, .hold, .latched, .pages, .events, .resp, .out, .free, .ctf, .tnc, .acs, .mte,
      .acc, .pqe, .tun, .ltr, .barm, .ccx, .cel, .plt, .plp, .plm, .tmp, .clg, .sec, .swc, .bga, .pmu, .mon, .start,
      .hif, .mem] s t :=
  sameBut_next 68719476543 rfl h (State.writeReg_same _ rfl _ _ _ _ _ _ (anyWrite_same _ rfl))

theorem execCtfForceNext_frame {s t : State} {w : RegWrite} (h : execCtfForceNext w s = .next t) :
    SameBut [.regs, .hold, .pages, .events, .resp, .ctf] s t :=
  sameBut_next 4905 rfl h (State.writeReg_same _ rfl _ _ _ _ _ _ (ctfWrite_same _ rfl))

theorem execSeed_frame {s t : State} {w : RegWrite} (h : execSeed w s = .next t) :
    SameBut [.regs, .inForce, .latch, .hold, .latched, .pages, .events, .resp, .out, .free, .ctf, .tnc, .acs, .mte,
      .acc, .pqe, .tun, .ltr, .barm, .ccx, .cel, .plt, .plp, .plm, .tmp, .clg, .sec, .swc, .bga, .pmu, .mon, .start,
      .hif, .mem] s t :=
  sameBut_next 68719476543 rfl h (State.writeReg_same _ rfl _ _ _ _ _ _ (anyWrite_same _ rfl))

theorem execStampRead_frame {s t : State} {r : RegRead} (h : execStampRead r s = .next t) :
    SameBut [.regs, .latch, .pages, .events, .resp, .ctf] s t :=
  sameBut_next 4901 rfl h (State.readReg_same _ rfl _ _ _ _ _ (ctfRead_same _ rfl))

theorem execPairFreeze_frame {s t : State} {r : RegRead} (h : execPairFreeze r s = .next t) :
    SameBut [.regs, .latch, .pages, .events, .resp, .ctf] s t :=
  sameBut_next 4901 rfl h (State.readReg_same _ rfl _ _ _ _ _ (ctfRead_same _ rfl))

theorem execPairRelease_frame {s t : State} {r : RegRead} (h : execPairRelease r s = .next t) :
    SameBut [.regs, .latch, .pages, .events, .resp, .ctf] s t :=
  sameBut_next 4901 rfl h (State.readReg_same _ rfl _ _ _ _ _ (ctfRead_same _ rfl))

theorem execUtcSet_frame {s t : State} {w : RegWrite} (h : execUtcSet w s = .next t) :
    SameBut [.regs, .hold, .pages, .events, .resp, .ctf] s t :=
  sameBut_next 4905 rfl h (State.writeReg_same _ rfl _ _ _ _ _ _ (ctfWrite_same _ rfl))

theorem execUtcLoad_frame {s t : State} (h : execUtcLoad s = .next t) :
    SameBut [.regs, .events, .ctf] s t :=
  sameBut_next 4353 rfl h (by
    split
    all_goals
      simp only [State.wr_same, State.raise_same, State.log_same, except_upd_ctf, Nat.reduceAnd])

theorem execCtfCommit_frame {s t : State} {w : RegWrite} (h : execCtfCommit w s = .next t) :
    SameBut [.regs, .hold, .pages, .events, .resp, .ctf] s t :=
  sameBut_next 4905 rfl h (State.writeReg_same _ rfl _ _ _ _ _ _ (ctfWrite_same _ rfl))

theorem execSchedActivate_frame {s t : State} (h : execSchedActivate s = .next t) :
    SameBut [.regs, .ctf, .tun] s t :=
  sameBut_next 266241 rfl h (by
    repeat' split
    all_goals
      simp only [State.swapBanks_same, State.signalFollow_same, Nat.reduceAnd])

theorem execSchedSignal_frame {s t : State} {entry : Fin 256} {edge : SchedEdge}
    (h : execSchedSignal entry edge s = .next t) :
    SameBut [.regs, .ticks, .clk, .ctf, .tun] s t :=
  sameBut_next 266433 rfl h (by
    dsimp only
    repeat' split
    all_goals
      simp only [State.advanceTo_same, State.signalFollow_same, State.plpWindow_same, except_upd_ctf, Nat.reduceAnd])

theorem execRef48Retry_frame {s t : State} {valid : Bool} (h : execRef48Retry valid s = .next t) :
    SameBut [.events, .ctf] s t :=
  sameBut_next 4352 rfl h (by
    split
    all_goals
      simp only [State.log_same, except_upd_ctf, Nat.reduceAnd])

theorem execActivate_frame {s t : State} {w : RegWrite} (h : execActivate w s = .next t) :
    SameBut [.regs, .inForce, .hold, .pages, .events, .resp, .tnc, .barm, .cel, .plp, .plm, .sec, .mem] s t :=
  sameBut_next 34683757355 rfl h (State.writeReg_same _ rfl _ _ _ _ _ _ (tncWriter_same _ rfl _))

theorem execSuspend_frame {s t : State} {w : RegWrite} (h : execSuspend w s = .next t) :
    SameBut [.regs, .inForce, .hold, .pages, .events, .resp, .tnc, .barm, .cel, .plp, .plm, .sec, .mem] s t :=
  sameBut_next 34683757355 rfl h (State.writeReg_same _ rfl _ _ _ _ _ _ (tncWriter_same _ rfl _))

theorem execResume_frame {s t : State} {w : RegWrite} (h : execResume w s = .next t) :
    SameBut [.regs, .inForce, .hold, .pages, .events, .resp, .tnc, .barm, .cel, .plp, .plm, .sec, .mem] s t :=
  sameBut_next 34683757355 rfl h (State.writeReg_same _ rfl _ _ _ _ _ _ (tncWriter_same _ rfl _))

theorem execSoftReset_frame {s t : State} {w : RegWrite} (h : execSoftReset w s = .next t) :
    SameBut [.regs, .inForce, .hold, .pages, .events, .resp, .tnc, .barm, .cel, .plp, .plm, .sec, .mem] s t :=
  sameBut_next 34683757355 rfl h (State.writeReg_same _ rfl _ _ _ _ _ _ (tncWriter_same _ rfl _))

theorem execFullReset_frame {s t : State} {w : RegWrite} (h : execFullReset w s = .next t) :
    SameBut [.regs, .inForce, .hold, .pages, .events, .resp, .tnc, .barm, .cel, .plp, .plm, .sec, .mem] s t :=
  sameBut_next 34683757355 rfl h (State.writeReg_same _ rfl _ _ _ _ _ _ (tncWriter_same _ rfl _))

theorem execTenantResetDone_frame {s t : State} {tenant : Fin 64} (h : execTenantResetDone tenant s = .next t) :
    SameBut [.regs, .inForce, .hold, .pages, .events, .tnc, .acc, .cel, .plp, .plm, .sec, .mem] s t :=
  sameBut_next 34682773803 rfl h (by
    dsimp only
    repeat' split
    all_goals
      simp only [State.resetEnds_same, State.fullPart_same, State.setTnc_same, Nat.reduceAnd])

theorem execTncCxSoftrst_frame {s t : State} {tenant : Fin 64} {w : RegWrite}
    (h : execTncCxSoftrst tenant w s = .next t) :
    SameBut [.regs, .inForce, .hold, .pages, .events, .resp, .tnc, .barm, .cel, .plp, .plm, .sec, .mem] s t :=
  sameBut_next 34683757355 rfl h (State.writeReg_same _ rfl _ _ _ _ _ _ (tncWriter_same _ rfl _))

theorem execGrant_frame {s t : State} {w : RegWrite} (h : execGrant w s = .next t) :
    SameBut [.regs, .inForce, .hold, .pages, .events, .resp, .tnc, .barm, .cel, .plp, .plm, .sec, .mem] s t :=
  sameBut_next 34683757355 rfl h (State.writeReg_same _ rfl _ _ _ _ _ _ (tncWriter_same _ rfl _))

theorem execRevoke_frame {s t : State} {w : RegWrite} (h : execRevoke w s = .next t) :
    SameBut [.regs, .inForce, .hold, .pages, .events, .resp, .tnc, .barm, .cel, .plp, .plm, .sec, .mem] s t :=
  sameBut_next 34683757355 rfl h (State.writeReg_same _ rfl _ _ _ _ _ _ (tncWriter_same _ rfl _))

theorem execAliasMap_frame {s t : State} {w : RegWrite} (h : execAliasMap w s = .next t) :
    SameBut [.regs, .inForce, .hold, .pages, .events, .resp, .tnc, .barm, .cel, .plp, .plm, .sec, .mem] s t :=
  sameBut_next 34683757355 rfl h (State.writeReg_same _ rfl _ _ _ _ _ _ (tncWriter_same _ rfl _))

theorem execTncSealReq_frame {s t : State} {lost : Option (Fin 2048)} {w : RegWrite}
    (h : execTncSealReq lost w s = .next t) :
    SameBut [.regs, .inForce, .hold, .pages, .events, .resp, .tnc, .barm, .cel, .plp, .plm, .sec, .mem] s t :=
  sameBut_next 34683757355 rfl h (State.writeReg_same _ rfl _ _ _ _ _ _ (tncWriter_same _ rfl _))

theorem execSealComplete_frame {s t : State} (h : execSealComplete s = .next t) :
    SameBut [.regs, .events, .tnc, .cel] s t :=
  sameBut_next 4202753 rfl h (by
    repeat' split
    all_goals
      simp only [State.sealCut_same, State.celWrite_same, State.log_same, State.showSealed_same, State.wr64_same,
        State.clearBad_same, State.ringAll_same, State.wr_same, State.setTnc_same, Nat.reduceAnd])

theorem execTncUnsealArm_frame {s t : State} {w : RegWrite} (h : execTncUnsealArm w s = .next t) :
    SameBut [.regs, .inForce, .hold, .pages, .events, .resp, .tnc, .barm, .cel, .plp, .plm, .sec, .mem] s t :=
  sameBut_next 34683757355 rfl h (State.writeReg_same _ rfl _ _ _ _ _ _ (tncWriter_same _ rfl _))

theorem execTncUnsealReq_frame {s t : State} {w : RegWrite} (h : execTncUnsealReq w s = .next t) :
    SameBut [.regs, .inForce, .hold, .pages, .events, .resp, .tnc, .barm, .cel, .plp, .plm, .sec, .mem] s t :=
  sameBut_next 34683757355 rfl h (State.writeReg_same _ rfl _ _ _ _ _ _ (tncWriter_same _ rfl _))

theorem execArmWindowExpiry_frame {s t : State} (h : execArmWindowExpiry s = .next t) :
    SameBut [.tnc, .cel, .sec, .pmu, .hif] s t :=
  sameBut_next 19599990784 rfl h (by
    simp only [State.setTnc_same, State.setCel_same, State.setSec_same, State.setPmu_same, State.setHif_same,
      Nat.reduceAnd])

theorem execRefillPeriod_frame {s t : State} {resource : Fin 4} (h : execRefillPeriod resource s = .next t) :
    SameBut [.regs, .tnc] s t :=
  sameBut_next 8193 rfl h (by
    simp only [State.refill_same, apply_ite (State.except 8193), ite_self, Nat.reduceAnd])

theorem execItemLatestTime_frame {s t : State} {resource : Fin 4} {rank : Option Bool}
    (h : execItemLatestTime resource rank s = .next t) :
    SameBut [.regs, .tnc, .barm, .cel, .plm, .sec, .mem] s t :=
  sameBut_next 34666979329 rfl h (by
    repeat' split
    all_goals
      simp only [State.expireItems_same, State.count_same, Nat.reduceAnd])

theorem execContTestStart_frame {s t : State} (h : execContTestStart s = .next t) :
    SameBut [.regs, .acs] s t :=
  sameBut_next 16385 rfl h (by
    simp only [State.contRound_same, except_upd_acs, apply_ite (State.except 16385), ite_self, Nat.reduceAnd])

theorem execContTestResult_frame {s t : State} (h : execContTestResult s = .next t) :
    SameBut [.regs, .events, .free, .acs, .pqe] s t :=
  sameBut_next 149761 rfl h (by
    repeat' split
    all_goals
      simp only [State.contResult_same, State.ctResult_same, Nat.reduceAnd])

theorem execAcsCalZero_frame {s t : State} {w : RegWrite} (h : execAcsCalZero w s = .next t) :
    SameBut [.regs, .hold, .pages, .events, .resp, .acs] s t :=
  sameBut_next 17193 rfl h (State.writeReg_same _ rfl _ _ _ _ _ _ (acsWrite_same _ rfl))

theorem execAcsCalFull_frame {s t : State} {w : RegWrite} (h : execAcsCalFull w s = .next t) :
    SameBut [.regs, .hold, .pages, .events, .resp, .acs] s t :=
  sameBut_next 17193 rfl h (State.writeReg_same _ rfl _ _ _ _ _ _ (acsWrite_same _ rfl))

theorem execAcsCalAbort_frame {s t : State} {w : RegWrite} (h : execAcsCalAbort w s = .next t) :
    SameBut [.regs, .hold, .pages, .events, .resp, .acs] s t :=
  sameBut_next 17193 rfl h (State.writeReg_same _ rfl _ _ _ _ _ _ (acsWrite_same _ rfl))

theorem execCalZeroDone_frame {s t : State} (h : execCalZeroDone s = .next t) :
    SameBut [.regs, .free, .acs] s t :=
  sameBut_next 18433 rfl h (by
    repeat' split
    all_goals
      simp only [State.zeroEnd_same, Nat.reduceAnd])

theorem execCalFullDone_frame {s t : State} (h : execCalFullDone s = .next t) :
    SameBut [.regs, .acs] s t :=
  sameBut_next 16385 rfl h (by
    repeat' split
    all_goals
      simp only [State.fullEnd_same, Nat.reduceAnd])

theorem execCalTimeout_frame {s t : State} (h : execCalTimeout s = .next t) :
    SameBut [.regs, .acs] s t :=
  sameBut_next 16385 rfl h (by
    repeat' split
    all_goals
      simp only [State.calEnd_same, Nat.reduceAnd])

theorem execMetrologyClose_frame {s t : State} {upsets : List AccUpset} (h : execMetrologyClose upsets s = .next t) :
    SameBut [.regs, .events, .mte, .acc, .mem] s t :=
  sameBut_next 34359836929 rfl h (by
    dsimp only
    repeat' split
    all_goals
      simp only [State.mteClose_same, State.addCycle_same, State.unmeasured_same, State.count_same, except_upd_acc,
        except_upd_mte, Nat.reduceAnd])

theorem execAccCycRead_frame {s t : State} {vm : Bool} {idx : Fin 256} {r : RegRead}
    (h : execAccCycRead vm idx r s = .next t) :
    SameBut [.regs, .latch, .latched, .pages, .events, .resp] s t :=
  sameBut_next 821 rfl h (by split <;> exact State.readReg_same _ rfl _ _ _ _ _ (accRead_same _ rfl))

theorem execMteRdCycRead_frame {s t : State} {ch : Fin 72} {r : RegRead} (h : execMteRdCycRead ch r s = .next t) :
    SameBut [.regs, .latch, .latched, .pages, .events, .resp] s t :=
  sameBut_next 821 rfl h (by split <;> exact State.readReg_same _ rfl _ _ _ _ _ (mteRead_same _ rfl))

theorem execAccVclr_frame {s t : State} {meter : Fin 256} {w : RegWrite} (h : execAccVclr meter w s = .next t) :
    SameBut [.regs, .hold, .pages, .events, .resp, .acc] s t :=
  sameBut_next 66345 rfl h (State.writeReg_same _ rfl _ _ _ _ _ _ (accWrite_same _ rfl))

theorem execSpillIncrement_frame {s t : State} (h : execSpillIncrement s = .next t) :
    SameBut [.regs, .events, .acc] s t :=
  sameBut_next 65793 rfl h (by
    split
    · rfl
    · refine (State.cutPulses_same _ rfl _).trans ((foldl_same _ _ (fun u k => ?_) _ _).trans (except_upd_acc _ rfl _))
      exact State.spillClose_same _ rfl u _ k)

theorem execPulseStart_frame {s t : State} {k : Fin 16} (h : execPulseStart k s = .next t) :
    SameBut [.regs, .acc] s t :=
  sameBut_next 65537 rfl h (by
    simp only [State.setSpill_same, State.wr_same, State.raise_same, except_upd_acc, apply_ite (State.except 65537),
      ite_self, Nat.reduceAnd])

theorem execPulseEnd_frame {s t : State} {k : Fin 16} (h : execPulseEnd k s = .next t) :
    SameBut [.regs, .acc] s t :=
  sameBut_next 65537 rfl h (by
    simp only [State.pulseOff_same, apply_ite (State.except 65537), ite_self, Nat.reduceAnd])

theorem execPinReadback_frame {s t : State} {k : Fin 16} {level : Bool} (h : execPinReadback k level s = .next t) :
    SameBut [.regs, .events, .acc] s t :=
  sameBut_next 65793 rfl h (by
    simp only [State.count_same, State.raise_same, State.log_same, except_upd_acc, apply_ite (State.except 65793),
      ite_self, Nat.reduceAnd])

theorem execPqeWindow_frame {s t : State} (h : execPqeWindow s = .next t) :
    SameBut [.regs, .ticks, .clk, .events, .ctf, .pqe] s t :=
  sameBut_next 135617 rfl h (by
    have window : ∀ (mid : Bool) (cs : List Nat) (u : State),
        (((cs.foldl (fun s c => s.senseWindow mid c) u).busEvents 1).busEvents 2).except 135617 = u.except 135617 := by
      intro mid cs u
      rw [State.busEvents_same _ rfl, State.busEvents_same _ rfl]
      exact foldl_same _ _ (fun v c => State.senseWindow_same _ rfl v mid c) cs u
    split
    · rfl
    · refine (State.atPhase_same _ rfl _ _ _ fun u => window _ _ u).trans ((State.setPqe_same _ rfl _ _).trans ?_)
      split
      · exact State.advanceTo_same _ rfl _ _
      · rfl)

theorem execPqeBlockEnd_frame {s t : State} (h : execPqeBlockEnd s = .next t) :
    SameBut [.regs, .events, .free, .pqe] s t :=
  sameBut_next 133377 rfl h (by
    split
    · rfl
    · next b _ =>
      split
      · simp only [State.raise_same, State.unbalance_same, State.setPqe_same, Nat.reduceAnd]
        exact foldl_same2 133377 _ (fun x ch => by exact State.blockResult_same _ rfl x.2 b ch) _ ([], s)
      · rfl)

theorem execVsenseClassify_frame {s t : State} (h : execVsenseClassify s = .next t) :
    SameBut [.regs, .events, .pqe] s t :=
  sameBut_next 131329 rfl h (by
    split
    · exact foldl_same _ _ (fun u k => State.classifyDue_same _ rfl u _) _ _
    · rfl)

theorem execPqeHcycRead_frame {s t : State} {r : RegRead} (h : execPqeHcycRead r s = .next t) :
    SameBut [.regs, .latch, .latched, .pages, .events, .resp] s t :=
  sameBut_next 821 rfl h (State.readReg_same _ rfl _ _ _ _ _ (pqeRead_same _ rfl))

theorem execHartMemoryAccess_frame {s t : State} {a : HartAccess} (h : execHartMemoryAccess a s = .next t) :
    SameBut [.regs, .inForce, .latch, .hold, .latched, .pages, .events, .resp, .out, .free, .ctf, .tnc, .acs, .mte,
      .acc, .pqe, .tun, .ltr, .barm, .ccx, .cel, .plt, .plp, .plm, .tmp, .clg, .sec, .swc, .bga, .pmu, .mon, .start,
      .hif, .mem] s t :=
  sameBut_next 68719476543 rfl h (by
    simp only [State.setHart_same, State.coreFault_same, State.mgmtAccess_same, State.appAccess_same,
      apply_ite (State.except 68719476543), ite_self, Nat.reduceAnd])

theorem execRestoreSeqDone_frame {s t : State} {lost : Option (BitVec 12)} (h : execRestoreSeqDone lost s = .next t) :
    SameBut [.regs, .pages, .events, .acc, .ccx, .cel] s t :=
  sameBut_next 6357281 rfl h (by
    simp only [State.seqDone_same, Nat.reduceAnd])

/-! ### The inference path and the control complex -/

theorem execEntryPull_frame {s t : State} {engine : Fin 32} (h : execEntryPull engine s = .next t) :
    SameBut [.regs, .events, .tun, .barm] s t :=
  sameBut_next 1310977 rfl h (by
    simp only [apply_ite (State.except 1310977)]
    repeat' split
    all_goals
      simp only [State.expireEntries_same, State.settleSignals_same, State.takeEntry_same, Nat.reduceAnd])

theorem execTileComplete_frame {s t : State} {engine : Fin 32} {ticks : BitVec 32} {corrected : Nat}
    {unc : Option (BitVec 40)} (h : execTileComplete engine ticks corrected unc s = .next t) :
    SameBut [.regs, .events, .tun, .barm, .mem] s t :=
  sameBut_next 34361049345 rfl h (by
    dsimp only
    repeat' split
    all_goals
      simp only [State.setTun_same, State.count_same, State.tileUnc_same, State.runEntry_same, State.countTile_same,
        State.signal_same, State.report_same, State.invalidate_same, State.startStaged_same,
        State.settleSignals_same, Nat.reduceAnd])

theorem execTileDeadline_frame {s t : State} (h : execTileDeadline s = .next t) :
    SameBut [.regs, .events, .tun, .barm] s t :=
  sameBut_next 1310977 rfl h (by
    simp only [State.expireEntries_same, State.settleSignals_same, Nat.reduceAnd])

theorem execTunCkResclr_frame {s t : State} {cluster : Fin 8} {w : RegWrite}
    (h : execTunCkResclr cluster w s = .next t) :
    SameBut [.regs, .hold, .pages, .events, .resp, .tnc, .tun] s t :=
  sameBut_next 271145 rfl h (State.writeReg_same _ rfl _ _ _ _ _ _ (tunWrite_same _ rfl))

theorem execTunBstArm_frame {s t : State} {w : RegWrite} (h : execTunBstArm w s = .next t) :
    SameBut [.regs, .hold, .pages, .events, .resp, .tnc, .tun] s t :=
  sameBut_next 271145 rfl h (State.writeReg_same _ rfl _ _ _ _ _ _ (tunWrite_same _ rfl))

theorem execBurstDrain_frame {s t : State} (h : execBurstDrain s = .next t) :
    SameBut [.tun] s t :=
  sameBut_next 262144 rfl h (by
    repeat' split
    all_goals
      simp only [State.setTun_same, Nat.reduceAnd])

theorem execBurstRepStart_frame {s t : State} (h : execBurstRepStart s = .next t) :
    SameBut [.regs, .tun] s t :=
  sameBut_next 262145 rfl h (by
    dsimp only
    repeat' split
    all_goals
      simp only [State.burstEnd_same, State.wr64_same, State.setTun_same, Nat.reduceAnd])

theorem execBurstRepEnd_frame {s t : State} (h : execBurstRepEnd s = .next t) :
    SameBut [.regs, .tun] s t :=
  sameBut_next 262145 rfl h (by
    dsimp only
    repeat' split
    all_goals
      simp only [State.burstFall_same, State.burstEnd_same, State.setTun_same, Nat.reduceAnd])

theorem execRouteOp_frame {s t : State} {ns : BitVec 32} {checkUnc : Bool} {unc : Option (Nat × BitVec 40)}
    (h : execRouteOp ns checkUnc unc s = .next t) :
    SameBut [.regs, .events, .tnc, .tun, .ltr, .barm, .mem] s t :=
  sameBut_next 34361581825 rfl h (by
    simp only [State.takeOp_same, State.settleSignals_same, Nat.reduceAnd])

theorem execCombineOp_frame {s t : State} {checkUnc : Bool} {unc : Option (Nat × BitVec 40)}
    (h : execCombineOp checkUnc unc s = .next t) :
    SameBut [.regs, .events, .tnc, .tun, .ltr, .barm, .mem] s t :=
  sameBut_next 34361581825 rfl h (by
    simp only [State.takeOp_same, State.settleSignals_same, Nat.reduceAnd])

theorem execRouterDeadline_frame {s t : State} (h : execRouterDeadline s = .next t) :
    SameBut [.regs, .events, .tun, .ltr, .barm] s t :=
  sameBut_next 1835265 rfl h (by
    simp only [State.expireOps_same, State.settleSignals_same, Nat.reduceAnd])

theorem execLtrWcommit_frame {s t : State} {w : RegWrite} (h : execLtrWcommit w s = .next t) :
    SameBut [.regs, .hold, .pages, .events, .resp, .ltr] s t :=
  sameBut_next 525097 rfl h (State.writeReg_same _ rfl _ _ _ _ _ _ (ltrWrite_same _ rfl))

theorem execBarmRingPoll_frame {s t : State} {tenant : Fin 64} (h : execBarmRingPoll tenant s = .next t) :
    SameBut [.regs, .events, .tnc, .barm, .mem] s t :=
  sameBut_next 34360795393 rfl h (by
    simp only [State.pollRing_same, Nat.reduceAnd])

theorem execBarmKick_frame {s t : State} {tenant : Fin 64} {w : RegWrite} (h : execBarmKick tenant w s = .next t) :
    SameBut [.regs, .hold, .pages, .events, .resp, .tnc, .barm, .mem] s t :=
  sameBut_next 34360795945 rfl h (State.writeReg_same _ rfl _ _ _ _ _ _ (barmWrite_same _ rfl))

theorem execWindowBoundary_frame {s t : State} (h : execWindowBoundary s = .next t) :
    SameBut [.regs, .events, .tnc, .barm, .mem] s t :=
  sameBut_next 34360795393 rfl h (by
    simp only [State.setBarm_same, State.wr_same, State.refill_same, State.computeCapacity_same,
      State.admitPooled_same, State.startAll_same, apply_ite (State.except 34360795393), ite_self, Nat.reduceAnd])

theorem execBarmAppend_frame {s t : State} (h : execBarmAppend s = .next t) :
    SameBut [.regs, .events, .tun, .ltr, .barm] s t :=
  sameBut_next 1835265 rfl h (by
    simp only [State.drainBacklog_same, State.settleSignals_same, apply_ite (State.except 1835265), Nat.reduceAnd]
    repeat' split
    all_goals
      simp only [State.settleSignals_same, State.advanceList_same, State.endIssued_same, State.beginStall_same,
        State.appendEntry_same, State.setLtr_same, State.setList_same, Nat.reduceAnd])

theorem execExpertExpand_frame {s t : State} (h : execExpertExpand s = .next t) :
    SameBut [.regs, .events, .tun, .barm] s t :=
  sameBut_next 1310977 rfl h (by
    simp only [State.settleSignals_same, apply_ite (State.except 1310977), Nat.reduceAnd]
    repeat' split
    all_goals
      simp only [State.expireWaits_same, State.expand_same, Nat.reduceAnd])

theorem execInsightDeliver_frame {s t : State} (h : execInsightDeliver s = .next t) :
    SameBut [.regs, .events, .tun, .barm, .mem] s t :=
  sameBut_next 34361049345 rfl h (by
    simp only [State.settleSignals_same, apply_ite (State.except 34361049345), Nat.reduceAnd]
    repeat' split
    all_goals
      simp only [State.expireWaits_same, State.deliver_same, Nat.reduceAnd])

theorem execListComplete_frame {s t : State} (h : execListComplete s = .next t) :
    SameBut [.regs, .tnc, .barm, .mem] s t :=
  sameBut_next 34360795137 rfl h (by
    dsimp only
    repeat' split
    all_goals
      simp only [State.completeList_same, State.startAll_same, Nat.reduceAnd])

theorem execBarmRecordRelease_frame {s t : State} {tenant : Fin 64} (h : execBarmRecordRelease tenant s = .next t) :
    SameBut [.regs, .tnc, .barm, .mem] s t :=
  sameBut_next 34360795137 rfl h (by
    simp only [State.releaseRecords_same, State.startAll_same, apply_ite (State.except 34360795137), ite_self,
      Nat.reduceAnd])

theorem execCcxTctx_frame {s t : State} {hart : Fin 4} {tc : Fin 64} {valid : Bool}
    (h : execCcxTctx hart tc valid s = .next t) :
    SameBut [.regs, .events, .ccx] s t :=
  sameBut_next 2097409 rfl h (by
    simp only [State.setHart_same, State.count_same, State.log_same, State.wr_same, apply_ite (State.except 2097409),
      ite_self, Nat.reduceAnd])

theorem execStampCompare_frame {s t : State} {hart : Fin 4} {write : Option (BitVec 64)}
    (h : execStampCompare hart write s = .next t) :
    SameBut [.ccx] s t :=
  sameBut_next 2097152 rfl h (by
    repeat' split
    all_goals
      simp only [State.setHart_same, State.compareStamp_same, Nat.reduceAnd])

theorem execCcxDdrInit_frame {s t : State} {w : RegWrite} (h : execCcxDdrInit w s = .next t) :
    SameBut [.regs, .hold, .pages, .events, .resp, .out, .ccx] s t :=
  sameBut_next 2098985 rfl h (State.writeReg_same _ rfl _ _ _ _ _ _ (ccxWrite_same _ rfl))

theorem execDdrInitDone_frame {s t : State} (h : execDdrInitDone s = .next t) :
    SameBut [.regs, .ccx] s t :=
  sameBut_next 2097153 rfl h (by
    simp only [State.setCcx_same, State.wr_same, State.raise_same, apply_ite (State.except 2097153), ite_self,
      Nat.reduceAnd])

theorem execDdrTrainTimeout_frame {s t : State} (h : execDdrTrainTimeout s = .next t) :
    SameBut [.regs, .ccx] s t :=
  sameBut_next 2097153 rfl h (by
    simp only [State.setCcx_same, State.wr_same, State.raise_same, apply_ite (State.except 2097153), ite_self,
      Nat.reduceAnd])

theorem execCcxQspGo_frame {s t : State} {w : RegWrite} (h : execCcxQspGo w s = .next t) :
    SameBut [.regs, .hold, .pages, .events, .resp, .out, .ccx] s t :=
  sameBut_next 2098985 rfl h (State.writeReg_same _ rfl _ _ _ _ _ _ (ccxWrite_same _ rfl))

theorem execQspiComplete_frame {s t : State} {data : List Byte} (h : execQspiComplete data s = .next t) :
    SameBut [.regs, .ccx] s t :=
  sameBut_next 2097153 rfl h (by
    repeat' split
    all_goals
      simp only [State.setCcx_same, State.qspiFill_same, State.wr_same, Nat.reduceAnd])

theorem execBootSelect_frame {s t : State} {slotA slotB : SlotImage} {lost : Option (Fin 4)}
    (h : execBootSelect slotA slotB lost s = .next t) :
    SameBut [.regs, .events, .free, .ccx, .cel] s t :=
  sameBut_next 6293761 rfl h (by
    simp only [State.selectImage_same, apply_ite (State.except 6293761), ite_self, Nat.reduceAnd])

theorem execMgcTrial_frame {s t : State} {w : RegWrite} {lost : Bool} (h : execMgcTrial w lost s = .next t) :
    SameBut [.regs, .hold, .pages, .events, .resp, .free, .acc, .ccx, .cel] s t :=
  sameBut_next 6359849 rfl h (State.writeReg_same _ rfl _ _ _ _ _ _ (mgcWriter_same _ rfl _))

theorem execMgcBootok_frame {s t : State} {w : RegWrite} {lost : Bool} (h : execMgcBootok w lost s = .next t) :
    SameBut [.regs, .hold, .pages, .events, .resp, .free, .acc, .ccx, .cel] s t :=
  sameBut_next 6359849 rfl h (State.writeReg_same _ rfl _ _ _ _ _ _ (mgcWriter_same _ rfl _))

theorem execRecoveryRetry_frame {s t : State} {slotA slotB : SlotImage} {lost : Option (Fin 4)}
    (h : execRecoveryRetry slotA slotB lost s = .next t) :
    SameBut [.regs, .events, .free, .ccx, .cel] s t :=
  sameBut_next 6293761 rfl h (by
    simp only [State.selectImage_same, apply_ite (State.except 6293761), ite_self, Nat.reduceAnd])

theorem execMgcWkick_frame {s t : State} {w : RegWrite} (h : execMgcWkick w s = .next t) :
    SameBut [.regs, .hold, .pages, .events, .resp, .free, .acc, .ccx, .cel] s t :=
  sameBut_next 6359849 rfl h (State.writeReg_same _ rfl _ _ _ _ _ _ (mgcWriter_same _ rfl _))

theorem execMgcWatchdog_frame {s t : State} (h : execMgcWatchdog s = .next t) :
    SameBut [.regs, .inForce, .latch, .hold, .pages, .ticks, .clk, .events, .out, .ctf, .tnc, .acc, .pqe, .tun, .ltr,
      .barm, .ccx, .cel, .plt, .plp, .plm, .sec, .swc, .pmu, .mon, .start, .hif, .mem] s t :=
  sameBut_next 67444356591 rfl h (by
    simp only [State.waitUntil_same, State.systemReset_same, apply_ite (State.except 67444356591), ite_self,
      Nat.reduceAnd])

theorem execCcxKick_frame {s t : State} {hart : Fin 4} {w : RegWrite} (h : execCcxKick hart w s = .next t) :
    SameBut [.regs, .hold, .pages, .events, .resp, .out, .ccx] s t :=
  sameBut_next 2098985 rfl h (State.writeReg_same _ rfl _ _ _ _ _ _ (ccxWrite_same _ rfl))

theorem execHartWatchdog_frame {s t : State} {hart : Fin 4} (h : execHartWatchdog hart s = .next t) :
    SameBut [.regs, .ticks, .clk, .ctf, .ccx] s t :=
  sameBut_next 2101441 rfl h (by
    simp only [State.waitUntil_same, State.resetHart_same, State.setHart_same, State.wr_same, State.raise_same,
      apply_ite (State.except 2101441), ite_self, Nat.reduceAnd])

theorem execCcxHrst_frame {s t : State} {hart : Fin 4} {w : RegWrite} (h : execCcxHrst hart w s = .next t) :
    SameBut [.regs, .hold, .pages, .events, .resp, .out, .ccx] s t :=
  sameBut_next 2098985 rfl h (State.writeReg_same _ rfl _ _ _ _ _ _ (ccxWrite_same _ rfl))

theorem execMgcCcxreload_frame {s t : State} {w : RegWrite} (h : execMgcCcxreload w s = .next t) :
    SameBut [.regs, .hold, .pages, .events, .resp, .free, .acc, .ccx, .cel] s t :=
  sameBut_next 6359849 rfl h (State.writeReg_same _ rfl _ _ _ _ _ _ (mgcWriter_same _ rfl _))

theorem execReloadComplete_frame {s t : State} {app : List Byte} (h : execReloadComplete app s = .next t) :
    SameBut [.regs, .inForce, .latch, .hold, .pages, .events, .out, .tnc, .acc, .pqe, .tun, .ltr, .barm, .ccx, .cel,
      .plt, .plp, .plm, .sec, .swc, .pmu, .mon, .start, .hif, .mem] s t :=
  sameBut_next 67444352303 rfl h (by
    dsimp only
    repeat' split
    all_goals
      simp only [State.setCcx_same, State.bootDone_same, State.log_same, State.systemReset_same, Nat.reduceAnd])

theorem execRestorePage_frame {s t : State} {w : RegWrite} (h : execRestorePage w s = .next t) :
    SameBut [.regs, .hold, .pages, .events, .resp, .free, .acc, .ccx, .cel] s t :=
  sameBut_next 6359849 rfl h (State.writeReg_same _ rfl _ _ _ _ _ _ (mgcWriter_same _ rfl _))

theorem execRestoreAcc_frame {s t : State} {w : RegWrite} (h : execRestoreAcc w s = .next t) :
    SameBut [.regs, .hold, .pages, .events, .resp, .free, .acc, .ccx, .cel] s t :=
  sameBut_next 6359849 rfl h (State.writeReg_same _ rfl _ _ _ _ _ _ (mgcWriter_same _ rfl _))

theorem execSaveAcc_frame {s t : State} {w : RegWrite} (h : execSaveAcc w s = .next t) :
    SameBut [.regs, .hold, .pages, .events, .resp, .free, .acc, .ccx, .cel] s t :=
  sameBut_next 6359849 rfl h (State.writeReg_same _ rfl _ _ _ _ _ _ (mgcWriter_same _ rfl _))

theorem execMgcDbToccx_frame {s t : State} {w : RegWrite} (h : execMgcDbToccx w s = .next t) :
    SameBut [.regs, .hold, .pages, .events, .resp, .free, .acc, .ccx, .cel] s t :=
  sameBut_next 6359849 rfl h (State.writeReg_same _ rfl _ _ _ _ _ _ (mgcWriter_same _ rfl _))

theorem execMgcDbTomgc_frame {s t : State} {w : RegWrite} (h : execMgcDbTomgc w s = .next t) :
    SameBut [.regs, .hold, .pages, .events, .resp, .free, .acc, .ccx, .cel] s t :=
  sameBut_next 6359849 rfl h (State.writeReg_same _ rfl _ _ _ _ _ _ (mgcWriter_same _ rfl _))

theorem execPlicClaim_frame {s t : State} {context : Fin 8} (h : execPlicClaim context s = .next t) :
    SameBut [.regs, .resp, .ccx] s t :=
  sameBut_next 2097665 rfl h (by
    simp only [State.plicClaim_same, except_upd_resp, Nat.reduceAnd])

/-! ### The powerline and the sweep chain -/

theorem execToneTransmit_frame {s t : State} (h : execToneTransmit s = .next t) :
    SameBut [.regs, .out, .tnc, .plt, .plm, .mem] s t :=
  sameBut_next 34401690625 rfl h (by
    repeat' split
    all_goals
      simp only [State.requestCut_same, State.raise_same, State.wr_same, State.send_same, State.setPlt_same,
        State.setFrame_same, State.setPlm_same, State.pltShow_same, Nat.reduceAnd])

theorem execToneTxComplete_frame {s t : State} (h : execToneTxComplete s = .next t) :
    SameBut [.regs, .ticks, .clk, .ctf, .tnc, .plt, .plm, .mem] s t :=
  sameBut_next 34401693889 rfl h (by
    dsimp only
    repeat' split
    all_goals
      simp only [State.waitUntil_same, State.setPlm_same, State.segmentDone_same, State.setPlt_same,
        State.count_same, State.raise_same, State.pltShow_same, Nat.reduceAnd])

theorem execToneReceive_frame {s t : State} {f : ToneIn} (h : execToneReceive f s = .next t) :
    SameBut [.regs, .out, .tnc, .plt, .plm, .mem] s t :=
  sameBut_next 34401690625 rfl h (by
    simp only [State.pltAccept_same, State.macReceive_same, apply_ite (State.except 34401690625), ite_self,
      Nat.reduceAnd])

theorem execDriverFault_frame {s t : State} {low : Bool} {symbols : BitVec 10}
    (h : execDriverFault low symbols s = .next t) :
    SameBut [.regs, .events, .resp, .tnc, .plt, .plm, .mem] s t :=
  sameBut_next 34401690369 rfl h (by
    simp only [State.setPlt_same, State.log_same, State.cutTone_same, State.pltShow_same, except_upd_resp,
      apply_ite (State.except 34401690369), ite_self, Nat.reduceAnd])

theorem execTmreq_frame {s t : State} (h : execTmreq s = .next t) :
    SameBut [.regs, .plt, .plm] s t :=
  sameBut_next 41943041 rfl h (by
    split
    · rfl
    · next _ u hu =>
      refine Eq.trans ?_ (State.takeMgmt_same _ rfl _ _ _ hu)
      repeat' split
      all_goals
        simp only [State.issueSet_same, State.sendSet_same, Nat.reduceAnd])

theorem execTmrsp_frame {s t : State} (h : execTmrsp s = .next t) :
    SameBut [.regs, .plt, .plm] s t :=
  sameBut_next 41943041 rfl h (by
    split
    · rfl
    · next _ u hu =>
      refine Eq.trans ?_ (State.takeMgmt_same _ rfl _ _ _ hu)
      repeat' split
      all_goals
        simp only [State.count_same, State.installSet_same, State.noteRoutes_same, Nat.reduceAnd])

theorem execTmapRefresh_frame {s t : State} {neighbour : Fin 64} (h : execTmapRefresh neighbour s = .next t) :
    SameBut [.regs, .plt, .plm] s t :=
  sameBut_next 41943041 rfl h (by
    simp only [State.issueSet_same, apply_ite (State.except 41943041), ite_self, Nat.reduceAnd])

theorem execTmapExpire_frame {s t : State} (h : execTmapExpire s = .next t) :
    SameBut [.plt] s t :=
  sameBut_next 8388608 rfl h
    (foldl_same _ _ (fun u i => State.setLink_same _ rfl u i _) _ _)

theorem execPulseSlotDecide_frame {s t : State} {entry : Fin 256} {c0 c1 c2 c3 : BitVec 16}
    (h : execPulseSlotDecide entry c0 c1 c2 c3 s = .next t) :
    SameBut [.regs, .out, .tnc, .plp, .plm, .mem] s t :=
  sameBut_next 34410079233 rfl h (by
    simp only [State.decideSlot_same, State.downsDone_same, State.noteLost_same, Nat.reduceAnd,
      foldl_same _ _ fun u f => State.nodeFrame_same 34410079233 rfl u f])

theorem execDownlinkRequest_frame {s t : State} {stream : Fin 64} (h : execDownlinkRequest stream s = .next t) :
    SameBut [.regs, .tnc, .plp, .plm, .mem] s t :=
  sameBut_next 34410078209 rfl h (by
    dsimp only
    repeat' split
    all_goals
      simp only [State.setPlm_same, State.raise_same, State.endNodeDown_same, State.sendRelay_same,
        State.setStream_same, Nat.reduceAnd])

theorem execDownlinkTimeout_frame {s t : State} {stream : Fin 64} (h : execDownlinkTimeout stream s = .next t) :
    SameBut [.regs, .tnc, .plp, .plm, .mem] s t :=
  sameBut_next 34410078209 rfl h (by
    dsimp only
    repeat' split
    all_goals
      simp only [State.endDownlink_same, State.downsDone_same, Nat.reduceAnd])

theorem execPlmRingPoll_frame {s t : State} {endpoint : Fin 128} (h : execPlmRingPoll endpoint s = .next t) :
    SameBut [.regs, .events, .tnc, .plm, .mem] s t :=
  sameBut_next 34393301249 rfl h (by
    simp only [State.wr_same, State.log_same, State.takeTds_same, State.epRelease_same,
      apply_ite (State.except 34393301249), ite_self, Nat.reduceAnd])

theorem execAccessSlot_frame {s t : State} {window : Fin 4} {slot : Fin 16}
    (h : execAccessSlot window slot s = .next t) :
    SameBut [.regs, .ticks, .clk, .ctf, .tnc, .cel, .plm, .mem] s t :=
  sameBut_next 34397499585 rfl h (by
    simp only [apply_ite (State.except 34397499585)]
    repeat' split
    all_goals
      simp only [State.waitUntil_same, State.serveTurn_same, State.endFrame_same, State.buildSegment_same,
        State.setFrame_same, State.setPlm_same, Nat.reduceAnd])

theorem execAckTimeout_frame {s t : State} (h : execAckTimeout s = .next t) :
    SameBut [.regs, .ticks, .clk, .ctf, .tnc, .plm, .mem] s t :=
  sameBut_next 34393305281 rfl h (by
    repeat' split
    all_goals
      simp only [State.waitUntil_same, State.segmentFailed_same, Nat.reduceAnd])

theorem execReassemblyTimeout_frame {s t : State} (h : execReassemblyTimeout s = .next t) :
    SameBut [.regs, .plm] s t :=
  sameBut_next 33554433 rfl h (by
    simp only [State.setPlm_same, State.count_same, Nat.reduceAnd])

theorem execHelloSend_frame {s t : State} (h : execHelloSend s = .next t) :
    SameBut [.plm] s t :=
  sameBut_next 33554432 rfl h (by
    simp only [State.sendMgmt_same, apply_ite (State.except 33554432), ite_self, Nat.reduceAnd])

theorem execHello_frame {s t : State} (h : execHello s = .next t) :
    SameBut [.regs, .events, .plt, .plm] s t :=
  sameBut_next 41943297 rfl h (by
    split
    · rfl
    · next _ u hu =>
      refine Eq.trans ?_ (State.takeMgmt_same _ rfl _ _ _ hu)
      dsimp only
      repeat' split
      all_goals
        simp only [State.log_same, State.wr_same, State.setNb_same, State.count_same, State.setPlm_same,
          State.setPlt_same, State.partner_same, Nat.reduceAnd])

theorem execBye_frame {s t : State} (h : execBye s = .next t) :
    SameBut [.regs, .events, .plt, .plm] s t :=
  sameBut_next 41943297 rfl h (by
    split
    · rfl
    · next _ u hu =>
      refine Eq.trans ?_ (State.takeMgmt_same _ rfl _ _ _ hu)
      repeat' split
      all_goals
        simp only [State.dropNb_same, Nat.reduceAnd])

theorem execPlmLeave_frame {s t : State} {w : RegWrite} (h : execPlmLeave w s = .next t) :
    SameBut [.regs, .hold, .pages, .events, .resp, .plm] s t :=
  sameBut_next 33555241 rfl h (State.writeReg_same _ rfl _ _ _ _ _ _ (plmWrite_same _ rfl))

theorem execNeighbourAge_frame {s t : State} (h : execNeighbourAge s = .next t) :
    SameBut [.regs, .events, .plt, .plm] s t :=
  sameBut_next 41943297 rfl h (by
    split
    · rfl
    · exact foldl_same _ _ (fun u x => State.dropNb_same _ rfl u _ _) _ _)

theorem execRadvSend_frame {s t : State} (h : execRadvSend s = .next t) :
    SameBut [.plm] s t :=
  sameBut_next 33554432 rfl h (by
    simp only [State.sendMgmt_same, State.setPlm_same, apply_ite (State.except 33554432), ite_self, Nat.reduceAnd])

theorem execRadv_frame {s t : State} (h : execRadv s = .next t) :
    SameBut [.regs, .plm] s t :=
  sameBut_next 33554433 rfl h (by
    split
    · rfl
    · next _ u hu =>
      refine Eq.trans ?_ (State.takeMgmt_same _ rfl _ _ _ hu)
      repeat' split
      all_goals
        simp only [State.setNb_same, State.noteRoutes_same, Nat.reduceAnd])

theorem execRouteAge_frame {s t : State} (h : execRouteAge s = .next t) :
    SameBut [.plm] s t :=
  sameBut_next 33554432 rfl h (by
    simp only [State.setPlm_same, State.noteRoutes_same, apply_ite (State.except 33554432), ite_self, Nat.reduceAnd])

theorem execPlmEpKcommit_frame {s t : State} {endpoint : Fin 128} {w : RegWrite}
    (h : execPlmEpKcommit endpoint w s = .next t) :
    SameBut [.regs, .hold, .pages, .events, .resp, .plm] s t :=
  sameBut_next 33555241 rfl h (State.writeReg_same _ rfl _ _ _ _ _ _ (plmWrite_same _ rfl))

theorem execPlmSitekeyCommit_frame {s t : State} {w : RegWrite} (h : execPlmSitekeyCommit w s = .next t) :
    SameBut [.regs, .hold, .pages, .events, .resp, .plm] s t :=
  sameBut_next 33555241 rfl h (State.writeReg_same _ rfl _ _ _ _ _ _ (plmWrite_same _ rfl))

theorem execPlmJoin_frame {s t : State} {w : RegWrite} (h : execPlmJoin w s = .next t) :
    SameBut [.regs, .hold, .pages, .events, .resp, .plm] s t :=
  sameBut_next 33555241 rfl h (State.writeReg_same _ rfl _ _ _ _ _ _ (plmWrite_same _ rfl))

theorem execJoinWindowClose_frame {s t : State} (h : execJoinWindowClose s = .next t) :
    SameBut [.regs, .plp, .plm] s t :=
  sameBut_next 50331649 rfl h (by
    split
    · rfl
    · split
      · rfl
      · exact (foldl_same _ _ (fun u j => State.dropEntry_same _ rfl u _ _) _ _).trans (State.setPlm_same _ rfl _ _))

theorem execJoin_frame {s t : State} (h : execJoin s = .next t) :
    SameBut [.regs, .events, .plm] s t :=
  sameBut_next 33554689 rfl h (by
    split
    · rfl
    · next _ u hu =>
      refine Eq.trans ?_ (State.takeNode_same _ rfl _ _ _ hu)
      dsimp only
      repeat' split
      all_goals
        simp only [State.count_same, State.admitNode_same, Nat.reduceAnd])

theorem execNodeUplink_frame {s t : State} (h : execNodeUplink s = .next t) :
    SameBut [.regs, .events, .plm, .mem] s t :=
  sameBut_next 34393293057 rfl h (by
    split
    · rfl
    · next _ u hu =>
      refine Eq.trans ?_ (State.takeNode_same _ rfl _ _ _ hu)
      repeat' split
      all_goals
        simp only [State.homeUplink_same, State.count_same, State.repeatUplink_same, Nat.reduceAnd])

theorem execNodeLeave_frame {s t : State} (h : execNodeLeave s = .next t) :
    SameBut [.regs, .events, .tnc, .plp, .plm, .mem] s t :=
  sameBut_next 34410078465 rfl h (by
    split
    · rfl
    · next _ u hu =>
      refine Eq.trans ?_ (State.takeNode_same _ rfl _ _ _ hu)
      repeat' split
      all_goals
        simp only [State.departNode_same, State.count_same, Nat.reduceAnd])

theorem execNodeSilent_frame {s t : State} {stream : Fin 64} (h : execNodeSilent stream s = .next t) :
    SameBut [.regs, .events, .plm] s t :=
  sameBut_next 33554689 rfl h (by
    repeat' split
    all_goals
      simp only [State.setNode_same, State.partner_same, State.log_same, Nat.reduceAnd])

theorem execNodeDeparted_frame {s t : State} {stream : Fin 64} (h : execNodeDeparted stream s = .next t) :
    SameBut [.regs, .events, .tnc, .plp, .plm, .mem] s t :=
  sameBut_next 34410078465 rfl h (by
    repeat' split
    all_goals
      simp only [State.departNode_same, Nat.reduceAnd])

theorem execNrelay_frame {s t : State} (h : execNrelay s = .next t) :
    SameBut [.regs, .events, .tnc, .plp, .plm, .mem] s t :=
  sameBut_next 34410078465 rfl h (by
    split
    · rfl
    · next r l _ =>
      refine Eq.trans ?_ (State.setPlm_same _ rfl s fun p => { p with relays := l })
      generalize s.setPlm (fun p => { p with relays := l }) = u
      dsimp only
      repeat' split
      all_goals
        simp only [State.relayDown_same, State.count_same, State.departNode_same, State.deliverUplink_same,
          State.ackNode_same, State.noteUplink_same, ctrAccept_getD_left, Nat.reduceAnd])

theorem execStoredUplinkDeliver_frame {s t : State} (h : execStoredUplinkDeliver s = .next t) :
    SameBut [.regs, .plm, .mem] s t :=
  sameBut_next 34393292801 rfl h (by
    split
    · rfl
    · refine (foldl_same _ _ (fun u x => ?_) _ _).trans (State.setPlm_same _ rfl _ _)
      exact State.deliverUplink_same _ rfl u _ _ _ _ _ _ _ _ _)

theorem execSchedRequestLate_frame {s t : State} (h : execSchedRequestLate s = .next t) :
    SameBut [.regs, .plm] s t :=
  sameBut_next 33554433 rfl h (by
    simp only [State.setPlm_same, State.count_same, Nat.reduceAnd])

theorem execRgreq_frame {s t : State} (h : execRgreq s = .next t) :
    SameBut [.regs, .plp, .plm] s t :=
  sameBut_next 50331649 rfl h (by
    split
    · rfl
    · next _ u hu =>
      refine Eq.trans ?_ (State.takeMgmt_same _ rfl _ _ _ hu)
      dsimp only
      repeat' split
      all_goals
        simp only [State.dropProbe_same, State.sendMgmt_same, State.setPlm_same, State.askEntry_same, Nat.reduceAnd])

theorem execRgrsp_frame {s t : State} (h : execRgrsp s = .next t) :
    SameBut [.regs, .events, .plm] s t :=
  sameBut_next 33554689 rfl h (by
    split
    · exact State.dropUnknown_same _ rfl _
    · next m u hu =>
      refine Eq.trans ?_ (State.takeMgmt_same _ rfl _ _ _ hu)
      dsimp only
      repeat' split
      all_goals
        simp only [State.setPlm_same, State.setNode_same, State.sendMgmt_same, State.tellGrant_same, Nat.reduceAnd,
          foldl_same _ _ fun u (x : Asked) => State.sendMgmt_same 33554689 rfl u x.peer _])

theorem execRgrant_frame {s t : State} (h : execRgrant s = .next t) :
    SameBut [.regs, .events, .plm] s t :=
  sameBut_next 33554689 rfl h (by
    split
    · rfl
    · next _ u hu =>
      refine Eq.trans ?_ (State.takeMgmt_same _ rfl _ _ _ hu)
      dsimp only
      repeat' split
      all_goals
        simp only [State.setPlm_same, State.tellGrant_same, Nat.reduceAnd])

theorem execRgrev_frame {s t : State} (h : execRgrev s = .next t) :
    SameBut [.regs, .events, .plp, .plm] s t :=
  sameBut_next 50331905 rfl h (by
    split
    · rfl
    · next _ u hu =>
      refine Eq.trans ?_ (State.takeMgmt_same _ rfl _ _ _ hu)
      dsimp only
      repeat' split
      all_goals
        simp only [State.dropGrant_same, State.dropProbe_same, Nat.reduceAnd])

theorem execGrantRenew_frame {s t : State} {stream : Fin 64} (h : execGrantRenew stream s = .next t) :
    SameBut [.plm] s t :=
  sameBut_next 33554432 rfl h (by
    repeat' split
    all_goals
      simp only [State.sendMgmt_same, Nat.reduceAnd])

theorem execGrantExpire_frame {s t : State} {stream : Fin 64} (h : execGrantExpire stream s = .next t) :
    SameBut [.regs, .events, .plp, .plm] s t :=
  sameBut_next 50331905 rfl h (by
    repeat' split
    all_goals
      simp only [State.dropGrant_same, Nat.reduceAnd])

theorem execStandbyTakeover_frame {s t : State} {stream : Fin 64} (h : execStandbyTakeover stream s = .next t) :
    SameBut [.regs, .events, .plm] s t :=
  sameBut_next 33554689 rfl h (by
    repeat' split
    all_goals
      simp only [State.setPlm_same, State.tellGrant_same, Nat.reduceAnd])

theorem execTakeoverLimit_frame {s t : State} {stream : Fin 64} (h : execTakeoverLimit stream s = .next t) :
    SameBut [.regs, .events, .plp, .plm] s t :=
  sameBut_next 50331905 rfl h (by
    repeat' split
    all_goals
      simp only [State.dropGrant_same, Nat.reduceAnd])

theorem execLinkUp_frame {s t : State} {upstream : Bool} {bad : BitVec 16} (h : execLinkUp upstream bad s = .next t) :
    SameBut [.regs, .out, .swc] s t :=
  sameBut_next 536871937 rfl h (by
    simp only [State.count_same, State.linkSet_same, apply_ite (State.except 536871937), ite_self, Nat.reduceAnd])

theorem execLinkDown_frame {s t : State} {upstream : Bool} {bad : BitVec 16}
    (h : execLinkDown upstream bad s = .next t) :
    SameBut [.regs, .out, .swc] s t :=
  sameBut_next 536871937 rfl h (by
    simp only [State.count_same, State.linkSet_same, apply_ite (State.except 536871937), ite_self, Nat.reduceAnd])

theorem execEnum_frame {s t : State} {frame : ChainFrame} (h : execEnum frame s = .next t) :
    SameBut [.regs, .events, .out] s t :=
  sameBut_next 1281 rfl h (by
    split
    · next u hu => exact chainTake_left rfl hu
    · next b u hu =>
      refine Eq.trans ?_ (chainTake_left rfl hu)
      dsimp only
      repeat' split
      all_goals
        simp only [State.wr_same, State.sendUp_same, State.sendDown_same, State.log_same, Nat.reduceAnd])

theorem execAnnounce_frame {s t : State} {frame : ChainFrame} (h : execAnnounce frame s = .next t) :
    SameBut [.regs, .events, .out, .swc] s t :=
  sameBut_next 536872193 rfl h (by
    split
    · next u hu => exact chainTake_left rfl hu
    · next b u hu =>
      refine Eq.trans ?_ (chainTake_left rfl hu)
      dsimp only
      repeat' split
      all_goals
        simp only [State.relayUp_same, State.setSwc_same, State.enumDone_same, Nat.reduceAnd])

theorem execLink_frame {s t : State} {frame : ChainFrame} (h : execLink frame s = .next t) :
    SameBut [.regs, .out, .swc] s t :=
  sameBut_next 536871937 rfl h (by
    split
    all_goals
      next _ u hu =>
      refine Eq.trans ?_ (chainTake_left rfl hu)
      repeat' split
      all_goals
        simp only [State.enumerate_same, State.relayUp_same, Nat.reduceAnd])

theorem execSwcEnum_frame {s t : State} {w : RegWrite} (h : execSwcEnum w s = .next t) :
    SameBut [.regs, .hold, .pages, .events, .resp, .out, .swc] s t :=
  sameBut_next 536872745 rfl h (State.writeReg_same _ rfl _ _ _ _ _ _ (swcWrite_same _ rfl))

theorem execEnumTimeout_frame {s t : State} (h : execEnumTimeout s = .next t) :
    SameBut [.regs, .ticks, .clk, .events, .ctf, .swc] s t :=
  sameBut_next 536875457 rfl h (by
    split
    all_goals
      simp only [State.waitUntil_same, State.enumDone_same, Nat.reduceAnd])

theorem execAlignExchange_frame {s t : State} {t1 : BitVec 8} (h : execAlignExchange t1 s = .next t) :
    SameBut [.out, .swc] s t :=
  sameBut_next 536871936 rfl h (by
    simp only [State.setSwc_same, State.sendUp_same, apply_ite (State.except 536871936), ite_self, Nat.reduceAnd])

theorem execAlignreq_frame {s t : State} {frame : ChainFrame} {t2 : BitVec 8} {turn : BitVec 32}
    (h : execAlignreq frame t2 turn s = .next t) :
    SameBut [.regs, .out] s t :=
  sameBut_next 1025 rfl h (by
    split
    all_goals
      next _ u hu =>
      refine Eq.trans ?_ (chainTake_left rfl hu)
      simp only [State.sendDown_same, Nat.reduceAnd])

theorem execAlignrsp_frame {s t : State} {frame : ChainFrame} {t4 : BitVec 8} (h : execAlignrsp frame t4 s = .next t) :
    SameBut [.regs, .swc] s t :=
  sameBut_next 536870913 rfl h (by
    split
    all_goals
      next _ u hu =>
      refine Eq.trans ?_ (chainTake_left rfl hu)
      repeat' split
      all_goals
        simp only [State.setSwc_same, State.wr_same, State.offsetShow_same, State.alignShow_same, Nat.reduceAnd])

theorem execAlignTimeout_frame {s t : State} (h : execAlignTimeout s = .next t) :
    SameBut [.regs] s t :=
  sameBut_next 1 rfl h (by
    simp only [State.alignShow_same, Nat.reduceAnd])

theorem execSwcSwGo_frame {s t : State} {w : RegWrite} (h : execSwcSwGo w s = .next t) :
    SameBut [.regs, .hold, .pages, .events, .resp, .out, .swc] s t :=
  sameBut_next 536872745 rfl h (State.writeReg_same _ rfl _ _ _ _ _ _ (swcWrite_same _ rfl))

theorem execSweep_frame {s t : State} {frame : ChainFrame} (h : execSweep frame s = .next t) :
    SameBut [.regs, .out, .swc] s t :=
  sameBut_next 536871937 rfl h (by
    split
    · next u hu => exact chainTake_left rfl hu
    · next b u hu =>
      refine Eq.trans ?_ (chainTake_left rfl hu)
      dsimp only
      repeat' split
      all_goals
        simp only [State.chainDown_same, State.setSwc_same, State.sendUp_same, Nat.reduceAnd])

theorem execCmdack_frame {s t : State} {frame : ChainFrame} (h : execCmdack frame s = .next t) :
    SameBut [.regs, .out, .swc] s t :=
  sameBut_next 536871937 rfl h (by
    split
    all_goals
      next _ u hu =>
      refine Eq.trans ?_ (chainTake_left rfl hu)
      repeat' split
      all_goals
        simp only [State.relayUp_same, State.setReport_same, Nat.reduceAnd])

theorem execSweepExecute_frame {s t : State} (h : execSweepExecute s = .next t) :
    SameBut [.regs, .ticks, .clk, .events, .out, .ctf, .cel, .clg, .swc] s t :=
  sameBut_next 675288513 rfl h (by
    dsimp only
    repeat' split
    all_goals
      simp only [State.advanceTo_same, State.setSwc_same, State.runSweep_same, Nat.reduceAnd])

theorem execResult_frame {s t : State} {frame : ChainFrame} (h : execResult frame s = .next t) :
    SameBut [.regs, .events, .out, .swc] s t :=
  sameBut_next 536872193 rfl h (by
    split
    · next u hu => exact chainTake_left rfl hu
    · next b u hu =>
      refine Eq.trans ?_ (chainTake_left rfl hu)
      dsimp only
      repeat' split
      all_goals
        simp only [State.relayUp_same, State.recordResult_same, State.setSwc_same, State.wr_same, Nat.reduceAnd])

theorem execReportFinal_frame {s t : State} (h : execReportFinal s = .next t) :
    SameBut [.regs, .events, .out, .swc] s t :=
  sameBut_next 536872193 rfl h (by
    dsimp only
    repeat' split
    all_goals
      simp only [State.finalise_same, State.enumerate_same, Nat.reduceAnd])

theorem execSwcFGo_frame {s t : State} {w : RegWrite} (h : execSwcFGo w s = .next t) :
    SameBut [.regs, .hold, .pages, .events, .resp, .out, .swc] s t :=
  sameBut_next 536872745 rfl h (State.writeReg_same _ rfl _ _ _ _ _ _ (swcWrite_same _ rfl))

theorem execFetch_frame {s t : State} {frame : ChainFrame} (h : execFetch frame s = .next t) :
    SameBut [.regs, .out] s t :=
  sameBut_next 1025 rfl h (by
    split
    · next u hu => exact chainTake_left rfl hu
    · next b u hu =>
      refine Eq.trans ?_ (chainTake_left rfl hu)
      dsimp only
      repeat' split
      all_goals
        simp only [State.chainDown_same, State.sendUp_same, Nat.reduceAnd])

theorem execFetchTimeout_frame {s t : State} (h : execFetchTimeout s = .next t) :
    SameBut [.regs, .ticks, .clk, .ctf, .swc] s t :=
  sameBut_next 536875201 rfl h (by
    split
    all_goals
      simp only [State.waitUntil_same, State.setSwc_same, State.wr_same, Nat.reduceAnd])

theorem execSwcOfsRead_frame {s t : State} {r : RegRead} (h : execSwcOfsRead r s = .next t) :
    SameBut [.regs, .latch, .pages, .events, .resp] s t :=
  sameBut_next 805 rfl h (State.readReg_same _ rfl _ _ _ _ _ (swcRead_same _ rfl))

theorem execSwcRhdrRead_frame {s t : State} {r : RegRead} (h : execSwcRhdrRead r s = .next t) :
    SameBut [.regs, .latch, .pages, .events, .resp] s t :=
  sameBut_next 805 rfl h (State.readReg_same _ rfl _ _ _ _ _ (swcRead_same _ rfl))

theorem execProbeTimeout_frame {s t : State} {stream : Fin 64} (h : execProbeTimeout stream s = .next t) :
    SameBut [.regs, .plp, .plm] s t :=
  sameBut_next 50331649 rfl h (by
    repeat' split
    all_goals
      simp only [State.dropProbe_same, State.sendMgmt_same, Nat.reduceAnd])

/-! ### Security, storage, supply and interfaces -/

theorem execXt32Stop_frame {s t : State} (h : execXt32Stop s = .next t) :
    SameBut [.regs, .events, .ctf, .tmp] s t :=
  sameBut_next 67113217 rfl h (by
    simp only [State.xt32Stops_same, Nat.reduceAnd])

theorem execMagOn_frame {s t : State} {source : Fin 10} {b peak : BitVec 16} (h : execMagOn source b peak s = .next t) :
    SameBut [.regs, .events, .tmp] s t :=
  sameBut_next 67109121 rfl h (by
    simp only [State.hallShow_same, State.setTmp_same, State.tmpShow_same, State.count_same, State.raise_same,
      State.log_same, apply_ite (State.except 67109121), ite_self, Nat.reduceAnd])

theorem execMagOff_frame {s t : State} {source : Fin 10} {b : BitVec 16} (h : execMagOff source b s = .next t) :
    SameBut [.regs, .events, .tmp] s t :=
  sameBut_next 67109121 rfl h (by
    simp only [State.hallShow_same, State.magRelease_same, apply_ite (State.except 67109121), ite_self,
      Nat.reduceAnd])

theorem execEncOpen_frame {s t : State} {input : Fin 4} (h : execEncOpen input s = .next t) :
    SameBut [.regs, .events, .tmp] s t :=
  sameBut_next 67109121 rfl h (by
    simp only [State.setTmp_same, State.tmpShow_same, State.count_same, State.raise_same, State.log_same,
      apply_ite (State.except 67109121), ite_self, Nat.reduceAnd])

theorem execEncClose_frame {s t : State} {input : Fin 4} (h : execEncClose input s = .next t) :
    SameBut [.regs, .events, .tmp] s t :=
  sameBut_next 67109121 rfl h (by
    simp only [State.encRelease_same, Nat.reduceAnd])

theorem execSupplyGlitch_frame {s t : State} {supply : Fin 6} {high : Bool}
    (h : execSupplyGlitch supply high s = .next t) :
    SameBut [.regs, .events, .tmp] s t :=
  sameBut_next 67109121 rfl h (by
    simp only [State.count_same, State.glitch_same, Nat.reduceAnd])

theorem execClockGlitch_frame {s t : State} {xt32 : Bool} (h : execClockGlitch xt32 s = .next t) :
    SameBut [.regs, .events, .ctf, .tmp] s t :=
  sameBut_next 67113217 rfl h (by
    simp only [State.xt32Stops_same, State.count_same, State.glitch_same, apply_ite (State.except 67113217),
      ite_self, Nat.reduceAnd])

theorem execGlitchRunEnd_frame {s t : State} {detector : Fin 8} (h : execGlitchRunEnd detector s = .next t) :
    SameBut [.regs, .ticks, .clk, .events, .ctf, .tmp] s t :=
  sameBut_next 67113409 rfl h (by
    dsimp only
    repeat' split
    all_goals
      simp only [State.waitUntil_same, State.glitchEnd_same, Nat.reduceAnd])

theorem execTempOut_frame {s t : State} {valid : Bool} {temp : BitVec 16} (h : execTempOut valid temp s = .next t) :
    SameBut [.regs, .events, .tmp] s t :=
  sameBut_next 67109121 rfl h (by
    simp only [State.setTmp_same, State.tmpShow_same, State.raise_same, State.log_same,
      apply_ite (State.except 67109121), ite_self, Nat.reduceAnd])

theorem execTempBack_frame {s t : State} {temp : BitVec 16} (h : execTempBack temp s = .next t) :
    SameBut [.regs, .events, .tmp] s t :=
  sameBut_next 67109121 rfl h (by
    dsimp only
    repeat' split
    all_goals
      simp only [State.setTmp_same, State.tmpShow_same, State.raise_same, State.log_same, Nat.reduceAnd])

theorem execLogEvent_frame {s t : State} (h : execLogEvent s = .next t) :
    SameBut [.regs, .events, .cel, .clg] s t :=
  sameBut_next 138412289 rfl h (by
    simp only [State.takeEvent_same, Nat.reduceAnd])

theorem execSealWrite_frame {s t : State} (h : execSealWrite s = .next t) :
    SameBut [.regs, .free, .cel, .clg] s t :=
  sameBut_next 138414081 rfl h (by
    simp only [State.sealStep_same, Nat.reduceAnd])

theorem execClgSealnow_frame {s t : State} {w : RegWrite} (h : execClgSealnow w s = .next t) :
    SameBut [.regs, .hold, .pages, .events, .resp, .cel, .clg] s t :=
  sameBut_next 138412841 rfl h (State.writeReg_same _ rfl _ _ _ _ _ _ (clgWrite_same _ rfl))

theorem execClgRelease_frame {s t : State} {w : RegWrite} (h : execClgRelease w s = .next t) :
    SameBut [.regs, .hold, .pages, .events, .resp, .cel, .clg] s t :=
  sameBut_next 138412841 rfl h (State.writeReg_same _ rfl _ _ _ _ _ _ (clgWrite_same _ rfl))

theorem execClgRdw0Read_frame {s t : State} {r : RegRead} (h : execClgRdw0Read r s = .next t) :
    SameBut [.regs, .latch, .pages, .events, .resp, .cel] s t :=
  sameBut_next 4195109 rfl h (State.read_same _ rfl _ _ _ (clgRead_same _ rfl))

theorem execClgExpGo_frame {s t : State} {w : RegWrite} (h : execClgExpGo w s = .next t) :
    SameBut [.regs, .hold, .pages, .events, .resp, .cel, .clg] s t :=
  sameBut_next 138412841 rfl h (State.write_same _ rfl _ _ _ (clgWrite_same _ rfl))

theorem execExportComplete_frame {s t : State} (h : execExportComplete s = .next t) :
    SameBut [.regs, .clg, .mem] s t :=
  sameBut_next 34493956097 rfl h (by
    split
    all_goals
      simp only [State.setClg_same, State.store_same, State.wr_same, State.raise_same, Nat.reduceAnd])

theorem execClgFwCode_frame {s t : State} {w : RegWrite} (h : execClgFwCode w s = .next t) :
    SameBut [.regs, .hold, .pages, .events, .resp, .cel, .clg] s t :=
  sameBut_next 138412841 rfl h (State.writeReg_same _ rfl _ _ _ _ _ _ (clgWrite_same _ rfl))

theorem execFullcntSave_frame {s t : State} (h : execFullcntSave s = .next t) :
    SameBut [.regs, .cel, .clg] s t :=
  sameBut_next 138412033 rfl h (by
    simp only [State.saveLogRecord_same, apply_ite (State.except 138412033), ite_self, Nat.reduceAnd])

theorem execSecRingPoll_frame {s t : State} {tenant : Fin 64} (h : execSecRingPoll tenant s = .next t) :
    SameBut [.regs, .events, .tnc, .sec, .mem] s t :=
  sameBut_next 34628182273 rfl h (by
    simp only [State.wr_same, State.raise_same, State.log_same, State.secTakes_same, State.secRelease_same,
      apply_ite (State.except 34628182273), ite_self, Nat.reduceAnd])

theorem execSha256_frame {s t : State} (h : execSha256 s = .next t) :
    SameBut [.regs, .tnc, .sec, .mem] s t :=
  sameBut_next 34628182017 rfl h (State.secStart_same _ rfl _ _ _ fun _ _ _ => rfl)

theorem execHmac_frame {s t : State} (h : execHmac s = .next t) :
    SameBut [.regs, .tnc, .sec, .mem] s t :=
  sameBut_next 34628182017 rfl h (State.secStart_same _ rfl _ _ _ fun _ _ _ => rfl)

theorem execCcmEnc_frame {s t : State} (h : execCcmEnc s = .next t) :
    SameBut [.regs, .tnc, .sec, .mem] s t :=
  sameBut_next 34628182017 rfl h (State.secStart_same _ rfl _ _ _ fun _ _ _ => rfl)

theorem execCcmDec_frame {s t : State} (h : execCcmDec s = .next t) :
    SameBut [.regs, .tnc, .sec, .mem] s t :=
  sameBut_next 34628182017 rfl h (State.secStart_same _ rfl _ _ _ fun u w key => by
    split <;> rfl)

theorem execSign_frame {s t : State} (h : execSign s = .next t) :
    SameBut [.regs, .free, .tnc, .sec, .mem] s t :=
  sameBut_next 34628184065 rfl h
    (State.secStart_same _ rfl _ _ _ fun u _ _ => State.signWith_same _ rfl u _ _ _)

theorem execVerify_frame {s t : State} (h : execVerify s = .next t) :
    SameBut [.regs, .tnc, .sec, .mem] s t :=
  sameBut_next 34628182017 rfl h (State.secStart_same _ rfl _ _ _ fun _ _ _ => rfl)

theorem execEcdh_frame {s t : State} (h : execEcdh s = .next t) :
    SameBut [.regs, .tnc, .sec, .mem] s t :=
  sameBut_next 34628182017 rfl h (State.secStart_same _ rfl _ _ _ fun _ _ _ => rfl)

theorem execRandom_frame {s t : State} (h : execRandom s = .next t) :
    SameBut [.regs, .free, .tnc, .sec, .mem] s t :=
  sameBut_next 34628184065 rfl h
    (State.secStart_same _ rfl _ _ _ fun u _ _ => State.randomBytes_same _ rfl u _)

theorem execLoad_frame {s t : State} (h : execLoad s = .next t) :
    SameBut [.regs, .tnc, .sec, .mem] s t :=
  sameBut_next 34628182017 rfl h (State.secStart_same _ rfl _ _ _ fun _ _ _ => rfl)

theorem execGenerate_frame {s t : State} (h : execGenerate s = .next t) :
    SameBut [.regs, .free, .tnc, .sec, .mem] s t :=
  sameBut_next 34628184065 rfl h (State.secStart_same _ rfl _ _ _ fun u w key => by
    dsimp only
    split
    · exact State.randomScalar_same _ rfl _
    · exact State.randomBytes_same _ rfl _ _)

theorem execErase_frame {s t : State} (h : execErase s = .next t) :
    SameBut [.regs, .events, .tnc, .cel, .sec, .mem] s t :=
  sameBut_next 34632376577 rfl h (by
    dsimp only
    repeat' split
    all_goals
      simp only [State.secDrop_same, State.serveTurn_same, State.secRefuse_same, State.eraseSlot_same, Nat.reduceAnd])

theorem execPubkey_frame {s t : State} (h : execPubkey s = .next t) :
    SameBut [.regs, .tnc, .sec, .mem] s t :=
  sameBut_next 34628182017 rfl h (State.secStart_same _ rfl _ _ _ fun _ _ _ => rfl)

theorem execSecOpComplete_frame {s t : State} {unit : Fin 6} (h : execSecOpComplete unit s = .next t) :
    SameBut [.regs, .events, .tnc, .cel, .sec, .mem] s t :=
  sameBut_next 34632376577 rfl h (by
    split
    all_goals
      simp only [State.secFinish_same, Nat.reduceAnd])

theorem execEraseDeadline_frame {s t : State} {slot : Fin 32} (h : execEraseDeadline slot s = .next t) :
    SameBut [.regs, .ticks, .clk, .events, .ctf, .tnc, .cel, .sec, .mem] s t :=
  sameBut_next 34632380865 rfl h (by
    dsimp only
    split
    · rfl
    · refine (foldl_same _ _ (fun u o => State.secFinish_same _ rfl u o _) _ _).trans ?_
      simp only [State.setSec_same, State.waitUntil_same, Nat.reduceAnd])

theorem execRbgFail_frame {s t : State} (h : execRbgFail s = .next t) :
    SameBut [.regs, .sec] s t :=
  sameBut_next 268435457 rfl h (by
    simp only [State.wr_same, State.count_same, State.setSec_same, State.raise_same,
      apply_ite (State.except 268435457), ite_self, Nat.reduceAnd])

theorem execRbgRecover_frame {s t : State} (h : execRbgRecover s = .next t) :
    SameBut [.regs, .ticks, .clk, .ctf] s t :=
  sameBut_next 4289 rfl h (by
    simp only [State.waitUntil_same, State.wr_same, State.raise_same, apply_ite (State.except 4289), ite_self,
      Nat.reduceAnd])

theorem execSecRbadv_frame {s t : State} {w : RegWrite} (h : execSecRbadv w s = .next t) :
    SameBut [.regs, .hold, .pages, .events, .resp, .tnc, .cel, .sec, .mem] s t :=
  sameBut_next 34632377129 rfl h (State.writeReg_same _ rfl _ _ _ _ _ _ (secWrite_same _ rfl))

theorem execSecRevk0_frame {s t : State} {w : RegWrite} (h : execSecRevk0 w s = .next t) :
    SameBut [.regs, .hold, .pages, .events, .resp, .tnc, .cel, .sec, .mem] s t :=
  sameBut_next 34632377129 rfl h (State.writeReg_same _ rfl _ _ _ _ _ _ (secWrite_same _ rfl))

theorem execSecRevk1_frame {s t : State} {w : RegWrite} (h : execSecRevk1 w s = .next t) :
    SameBut [.regs, .hold, .pages, .events, .resp, .tnc, .cel, .sec, .mem] s t :=
  sameBut_next 34632377129 rfl h (State.writeReg_same _ rfl _ _ _ _ _ _ (secWrite_same _ rfl))

theorem execSecIdarm_frame {s t : State} {w : RegWrite} (h : execSecIdarm w s = .next t) :
    SameBut [.regs, .hold, .pages, .events, .resp, .tnc, .cel, .sec, .mem] s t :=
  sameBut_next 34632377129 rfl h (State.writeReg_same _ rfl _ _ _ _ _ _ (secWrite_same _ rfl))

theorem execSecIdretire_frame {s t : State} {w : RegWrite} (h : execSecIdretire w s = .next t) :
    SameBut [.regs, .hold, .pages, .events, .resp, .tnc, .cel, .sec, .mem] s t :=
  sameBut_next 34632377129 rfl h (State.writeReg_same _ rfl _ _ _ _ _ _ (secWrite_same _ rfl))

theorem execCelRingPoll_frame {s t : State} {tenant : Fin 64} (h : execCelRingPoll tenant s = .next t) :
    SameBut [.regs, .events, .tnc, .cel, .mem] s t :=
  sameBut_next 34363941121 rfl h (by
    simp only [State.wr_same, State.raise_same, State.log_same, State.celTakes_same, State.celRelease_same,
      apply_ite (State.except 34363941121), ite_self, Nat.reduceAnd])

theorem execCelRead_frame {s t : State} (h : execCelRead s = .next t) :
    SameBut [.regs, .tnc, .cel, .mem] s t :=
  sameBut_next 34363940865 rfl h (by
    simp only [State.celStartOp_same, Nat.reduceAnd])

theorem execCelWrite_frame {s t : State} (h : execCelWrite s = .next t) :
    SameBut [.regs, .tnc, .cel, .mem] s t :=
  sameBut_next 34363940865 rfl h (by
    simp only [State.celStartOp_same, Nat.reduceAnd])

theorem execCelZero_frame {s t : State} (h : execCelZero s = .next t) :
    SameBut [.regs, .tnc, .cel, .mem] s t :=
  sameBut_next 34363940865 rfl h (by
    simp only [State.celStartOp_same, Nat.reduceAnd])

theorem execCelCommandComplete_frame {s t : State} {fail : Option (Fin 1024)}
    (h : execCelCommandComplete fail s = .next t) :
    SameBut [.regs, .events, .free, .tnc, .cel, .mem] s t :=
  sameBut_next 34363943169 rfl h (by
    split
    all_goals
      simp only [State.celEffect_same, State.setCel_same, State.wr_same, State.celRecord_same, Nat.reduceAnd])

theorem execScrub_frame {s t : State} {upsets : List (Fin 131072 × BitVec 72)} (h : execScrub upsets s = .next t) :
    SameBut [.regs, .events, .cel] s t :=
  sameBut_next 4194561 rfl h (by
    simp only [State.celUpset_same, State.scrubSkip_same, State.celRead_same, State.scrubNext_same,
      apply_ite (State.except 4194561), ite_self, Nat.reduceAnd])

theorem execCelUnresv_frame {s t : State} {w : RegWrite} (h : execCelUnresv w s = .next t) :
    SameBut [.regs, .hold, .pages, .events, .resp, .free, .cel] s t :=
  sameBut_next 4197161 rfl h (State.writeReg_same _ rfl _ _ _ _ _ _ (celWriter_same _ rfl _))

theorem execCelBparm_frame {s t : State} {w : RegWrite} (h : execCelBparm w s = .next t) :
    SameBut [.regs, .hold, .pages, .events, .resp, .free, .cel] s t :=
  sameBut_next 4197161 rfl h (State.writeReg_same _ rfl _ _ _ _ _ _ (celWriter_same _ rfl _))

theorem execCelBpWrite_frame {s t : State} {w : RegWrite} (h : execCelBpWrite w s = .next t) :
    SameBut [.regs, .hold, .pages, .events, .resp, .free, .cel] s t :=
  sameBut_next 4197161 rfl h (State.writeReg_same _ rfl _ _ _ _ _ _ (celWriter_same _ rfl _))

theorem execCelMGo_frame {s t : State} {fail : Option (Fin 8)} {w : RegWrite} (h : execCelMGo fail w s = .next t) :
    SameBut [.regs, .hold, .pages, .events, .resp, .free, .cel] s t :=
  sameBut_next 4197161 rfl h (State.writeReg_same _ rfl _ _ _ _ _ _ (celWriter_same _ rfl _))

theorem execUnitWipeDone_frame {s t : State} (h : execUnitWipeDone s = .next t) :
    SameBut [.regs, .events, .tnc, .cel] s t :=
  sameBut_next 4202753 rfl h (by
    repeat' split
    all_goals
      simp only [State.zeroUnit_same, State.setCel_same, State.unitPut_same, State.log_same, State.grantEnd_same,
        Nat.reduceAnd])

theorem execEstimationStep_frame {s t : State} {m : GaugeSecond} (h : execEstimationStep m s = .next t) :
    SameBut [.regs, .bga, .pmu] s t :=
  sameBut_next 3221225473 rfl h (by
    simp only [State.wr_same, State.chgStep_same, State.setBga_same, State.takeMeans_same, State.senseStep_same,
      State.zWant_same, State.coldStep_same, State.runStep_same, apply_ite (State.except 3221225473), ite_self,
      Nat.reduceAnd])

theorem execBurstEdge_frame {s t : State} {pre post : GaugeSample} {alone : Bool}
    (h : execBurstEdge pre post alone s = .next t) :
    SameBut [.regs, .bga] s t :=
  sameBut_next 1073741825 rfl h (by
    simp only [State.count_same, State.wr_same, State.setBga_same, State.raise_same,
      apply_ite (State.except 1073741825), ite_self, Nat.reduceAnd])

theorem execOpenWireTest_frame {s t : State} {before after : BitVec 16}
    (h : execOpenWireTest before after s = .next t) :
    SameBut [.regs, .bga] s t :=
  sameBut_next 1073741825 rfl h (by
    repeat' split
    all_goals
      simp only [State.setBga_same, State.probeSettle_same, Nat.reduceAnd])

theorem execBgaOwnow_frame {s t : State} {w : RegWrite} (h : execBgaOwnow w s = .next t) :
    SameBut [.regs, .hold, .pages, .events, .resp, .bga, .pmu] s t :=
  sameBut_next 3221226281 rfl h (State.writeReg_same _ rfl _ _ _ _ _ _ (bgaWrite_same _ rfl))

theorem execBgaMntGo_frame {s t : State} {w : RegWrite} (h : execBgaMntGo w s = .next t) :
    SameBut [.regs, .hold, .pages, .events, .resp, .bga, .pmu] s t :=
  sameBut_next 3221226281 rfl h (State.writeReg_same _ rfl _ _ _ _ _ _ (bgaWrite_same _ rfl))

theorem execBgaMntAbort_frame {s t : State} {w : RegWrite} (h : execBgaMntAbort w s = .next t) :
    SameBut [.regs, .hold, .pages, .events, .resp, .bga, .pmu] s t :=
  sameBut_next 3221226281 rfl h (State.writeReg_same _ rfl _ _ _ _ _ _ (bgaWrite_same _ rfl))

theorem execMntEnd_frame {s t : State} (h : execMntEnd s = .next t) :
    SameBut [.regs, .pmu] s t :=
  sameBut_next 2147483649 rfl h (by
    simp only [State.mntDone_same, apply_ite (State.except 2147483649), ite_self, Nat.reduceAnd])

theorem execBgaRestore_frame {s t : State} {w : RegWrite} (h : execBgaRestore w s = .next t) :
    SameBut [.regs, .hold, .pages, .events, .resp, .bga, .pmu] s t :=
  sameBut_next 3221226281 rfl h (State.writeReg_same _ rfl _ _ _ _ _ _ (bgaWrite_same _ rfl))

theorem execBgaCold_frame {s t : State} {w : RegWrite} (h : execBgaCold w s = .next t) :
    SameBut [.regs, .hold, .pages, .events, .resp, .bga, .pmu] s t :=
  sameBut_next 3221226281 rfl h (State.writeReg_same _ rfl _ _ _ _ _ _ (bgaWrite_same _ rfl))

theorem execBgaTcommit_frame {s t : State} {w : RegWrite} (h : execBgaTcommit w s = .next t) :
    SameBut [.regs, .hold, .pages, .events, .resp, .bga, .pmu] s t :=
  sameBut_next 3221226281 rfl h (State.writeReg_same _ rfl _ _ _ _ _ _ (bgaWrite_same _ rfl))

theorem execSnapshot_frame {s t : State} {r : RegRead} (h : execSnapshot r s = .next t) :
    SameBut [.regs, .latch, .pages, .events, .resp, .bga] s t :=
  sameBut_next 1073742629 rfl h (State.readReg_same _ rfl _ _ _ _ _ (bgaRead_same _ rfl))

theorem execVinLost_frame {s t : State} {vin vbat : BitVec 16} (h : execVinLost vin vbat s = .next t) :
    SameBut [.regs, .pages, .events, .acc, .ccx, .cel, .pmu, .mon] s t :=
  sameBut_next 6448808225 rfl h (by
    simp only [State.wr_same, State.setPmu_same, State.pmuMeasure_same, State.count_same, State.raise_same,
      State.log_same, State.packShow_same, State.mntAbort_same, State.setMon_same, State.setPst_same,
      State.autoSave_same, apply_ite (State.except 6448808225), ite_self, Nat.reduceAnd])

theorem execVinPresent_frame {s t : State} {vin vbat : BitVec 16} (h : execVinPresent vin vbat s = .next t) :
    SameBut [.regs, .pages, .events, .out, .tnc, .acc, .pqe, .tun, .ltr, .barm, .ccx, .cel, .plt, .plp, .plm, .sec,
      .swc, .pmu, .mon, .start, .hif, .mem] s t :=
  sameBut_next 67444352289 rfl h (by
    simp only [State.settleLoss_same, State.pmuMeasure_same, State.wr_same, State.raise_same, State.log_same,
      State.setChg_same, State.vinBack_same, State.setPmu_same, apply_ite (State.except 67444352289), ite_self,
      Nat.reduceAnd])

theorem execPowerUp_frame {s t : State} {strap : Fin 4} {held : Bool} {vin vbat : BitVec 16}
    (h : execPowerUp strap held vin vbat s = .next t) :
    SameBut [.regs, .inForce, .latch, .hold, .latched, .pages, .events, .ctf, .tnc, .acs, .mte, .acc, .pqe, .tun,
      .ltr, .barm, .ccx, .cel, .plt, .plp, .plm, .tmp, .clg, .sec, .swc, .bga, .pmu, .mon, .start, .hif, .mem] s t :=
  sameBut_next 68719472959 rfl h (by
    simp only [State.powerOn_same, State.setPmu_same, State.railsRise_same, State.startDue_same,
      apply_ite (State.except 68719472959), ite_self, Nat.reduceAnd])

theorem execRailFault_frame {s t : State} {rail : Fin 7} (h : execRailFault rail s = .next t) :
    SameBut [.regs, .inForce, .latch, .hold, .latched, .pages, .events, .free, .ctf, .tnc, .acs, .mte, .acc, .pqe,
      .tun, .ltr, .barm, .ccx, .cel, .plt, .plp, .plm, .tmp, .clg, .sec, .swc, .bga, .pmu, .mon, .start, .hif,
      .mem] s t :=
  sameBut_next 68719475007 rfl h (by
    simp only [State.wr_same, State.raise_same, State.powerDown_same, State.setPst_same, State.setPmu_same,
      apply_ite (State.except 68719475007), ite_self, Nat.reduceAnd])

theorem execRailRestart_frame {s t : State} (h : execRailRestart s = .next t) :
    SameBut [.regs, .ticks, .clk, .ctf, .pmu, .start] s t :=
  sameBut_next 10737422529 rfl h (by
    split
    all_goals
      simp only [State.waitUntil_same, State.setPmu_same, State.startDue_same, Nat.reduceAnd])

theorem execAuxAttempt_frame {s t : State} (h : execAuxAttempt s = .next t) :
    SameBut [.regs, .ticks, .clk, .events, .ctf, .tnc, .plt, .plm, .pmu, .mem] s t :=
  sameBut_next 36549177793 rfl h (by
    simp only [State.waitUntil_same, State.setAux_same, apply_ite (State.except 36549177793), ite_self,
      Nat.reduceAnd])

theorem execAuxAttemptCheck_frame {s t : State} {mv : BitVec 16} (h : execAuxAttemptCheck mv s = .next t) :
    SameBut [.regs, .ticks, .clk, .events, .ctf, .tnc, .plt, .plm, .pmu, .mem] s t :=
  sameBut_next 36549177793 rfl h (by
    simp only [State.waitUntil_same, State.wr_same, State.setAux_same, State.auxFail_same,
      apply_ite (State.except 36549177793), ite_self, Nat.reduceAnd])

theorem execAuxDrop_frame {s t : State} {mv : BitVec 16} (h : execAuxDrop mv s = .next t) :
    SameBut [.regs, .events, .tnc, .plt, .plm, .pmu, .mem] s t :=
  sameBut_next 36549173505 rfl h (by
    simp only [State.wr_same, State.auxFail_same, apply_ite (State.except 36549173505), ite_self, Nat.reduceAnd])

theorem execAuxGoodHold_frame {s t : State} (h : execAuxGoodHold s = .next t) :
    SameBut [.regs, .ticks, .clk, .ctf] s t :=
  sameBut_next 4289 rfl h (by
    simp only [State.waitUntil_same, State.wr_same, apply_ite (State.except 4289), ite_self, Nat.reduceAnd])

theorem execPmuAuxRetry_frame {s t : State} {w : RegWrite} (h : execPmuAuxRetry w s = .next t) :
    SameBut [.regs, .inForce, .latch, .hold, .latched, .pages, .events, .resp, .free, .ctf, .tnc, .acs, .mte, .acc,
      .pqe, .tun, .ltr, .barm, .ccx, .cel, .plt, .plp, .plm, .tmp, .clg, .sec, .swc, .bga, .pmu, .mon, .start, .hif,
      .mem] s t :=
  sameBut_next 68719475519 rfl h (State.writeReg_same _ rfl _ _ _ _ _ _ (pmuWrite_same _ rfl))

theorem execPmuAuxEn_frame {s t : State} {on : Bool} {w : RegWrite} (h : execPmuAuxEn on w s = .next t) :
    SameBut [.regs, .inForce, .latch, .hold, .latched, .pages, .events, .resp, .free, .ctf, .tnc, .acs, .mte, .acc,
      .pqe, .tun, .ltr, .barm, .ccx, .cel, .plt, .plp, .plm, .tmp, .clg, .sec, .swc, .bga, .pmu, .mon, .start, .hif,
      .mem] s t :=
  sameBut_next 68719475519 rfl h (State.writeReg_same _ rfl _ _ _ _ _ _ (pmuWrite_same _ rfl))

theorem execWriteBlockAssert_frame {s t : State} {cut : BitVec 12} (h : execWriteBlockAssert cut s = .next t) :
    SameBut [.regs, .pages, .events, .free, .tnc, .acc, .ccx, .cel, .clg, .mem] s t :=
  sameBut_next 34500323617 rfl h (by
    simp only [State.blockAssert_same, Nat.reduceAnd])

theorem execWriteBlockRelease_frame {s t : State} (h : execWriteBlockRelease s = .next t) :
    SameBut [.regs, .events, .cel, .clg] s t :=
  sameBut_next 138412289 rfl h (by
    simp only [State.blockRelease_same, Nat.reduceAnd])

theorem execCutoffWarning_frame {s t : State} {vbat : BitVec 16} (h : execCutoffWarning vbat s = .next t) :
    SameBut [.regs, .pages, .events, .out, .tnc, .acc, .pqe, .tun, .ltr, .barm, .ccx, .cel, .plt, .plp, .plm, .sec,
      .swc, .bga, .pmu, .mon, .hif, .mem] s t :=
  sameBut_next 59928159521 rfl h (by
    simp only [State.wr_same, State.cutNotice_same, State.cutWarn_same, apply_ite (State.except 59928159521),
      ite_self, Nat.reduceAnd])

theorem execPmuCutack_frame {s t : State} {w : RegWrite} (h : execPmuCutack w s = .next t) :
    SameBut [.regs, .inForce, .latch, .hold, .latched, .pages, .events, .resp, .free, .ctf, .tnc, .acs, .mte, .acc,
      .pqe, .tun, .ltr, .barm, .ccx, .cel, .plt, .plp, .plm, .tmp, .clg, .sec, .swc, .bga, .pmu, .mon, .start, .hif,
      .mem] s t :=
  sameBut_next 68719475519 rfl h (State.writeReg_same _ rfl _ _ _ _ _ _ (pmuWrite_same _ rfl))

theorem execCutGrace_frame {s t : State} (h : execCutGrace s = .next t) :
    SameBut [.regs, .ticks, .clk, .ctf, .pmu] s t :=
  sameBut_next 2147487937 rfl h (by
    repeat' split
    all_goals
      simp only [State.waitUntil_same, State.setPmu_same, Nat.reduceAnd])

theorem execHardCutoff_frame {s t : State} {vbat : BitVec 16} (h : execHardCutoff vbat s = .next t) :
    SameBut [.regs, .pages, .events, .out, .tnc, .acc, .pqe, .tun, .ltr, .barm, .ccx, .cel, .plt, .plp, .plm, .sec,
      .swc, .bga, .pmu, .mon, .hif, .mem] s t :=
  sameBut_next 59928159521 rfl h (by
    simp only [State.wr_same, State.cutWarn_same, State.setPmu_same, apply_ite (State.except 59928159521), ite_self,
      Nat.reduceAnd])

theorem execCutoffSequence_frame {s t : State} (h : execCutoffSequence s = .next t) :
    SameBut [.regs, .inForce, .latch, .hold, .latched, .pages, .events, .free, .ctf, .tnc, .acs, .mte, .acc, .pqe,
      .tun, .ltr, .barm, .ccx, .cel, .plt, .plp, .plm, .tmp, .clg, .sec, .swc, .bga, .pmu, .mon, .start, .hif,
      .mem] s t :=
  sameBut_next 68719475007 rfl h (by
    simp only [State.log_same, State.drainEvents_same, State.powerDown_same, State.setPst_same, except_upd_start,
      apply_ite (State.except 68719475007), ite_self, Nat.reduceAnd])

theorem execChargeDone_frame {s t : State} (h : execChargeDone s = .next t) :
    SameBut [.regs, .pmu] s t :=
  sameBut_next 2147483649 rfl h (by
    simp only [State.setPmu_same, State.setChg_same, apply_ite (State.except 2147483649), ite_self, Nat.reduceAnd])

theorem execChargeRestart_frame {s t : State} {vbat : BitVec 16} (h : execChargeRestart vbat s = .next t) :
    SameBut [.regs, .pmu] s t :=
  sameBut_next 2147483649 rfl h (by
    simp only [State.wr_same, State.chgBegin_same, apply_ite (State.except 2147483649), ite_self, Nat.reduceAnd])

theorem execChargeTemp_frame {s t : State} {ratio : Byte} (h : execChargeTemp ratio s = .next t) :
    SameBut [.regs, .pmu] s t :=
  sameBut_next 2147483649 rfl h (by
    simp only [State.setPmu_same, State.setChg_same, apply_ite (State.except 2147483649), ite_self, Nat.reduceAnd])

theorem execChargeTimeout_frame {s t : State} (h : execChargeTimeout s = .next t) :
    SameBut [.regs, .ticks, .clk, .ctf, .pmu] s t :=
  sameBut_next 2147487937 rfl h (by
    split
    all_goals
      simp only [State.waitUntil_same, State.setPmu_same, State.setChg_same, Nat.reduceAnd])

theorem execPmuKilnArm_frame {s t : State} {w : RegWrite} (h : execPmuKilnArm w s = .next t) :
    SameBut [.regs, .inForce, .latch, .hold, .latched, .pages, .events, .resp, .free, .ctf, .tnc, .acs, .mte, .acc,
      .pqe, .tun, .ltr, .barm, .ccx, .cel, .plt, .plp, .plm, .tmp, .clg, .sec, .swc, .bga, .pmu, .mon, .start, .hif,
      .mem] s t :=
  sameBut_next 68719475519 rfl h (State.writeReg_same _ rfl _ _ _ _ _ _ (pmuWrite_same _ rfl))

theorem execPmuKilnGo_frame {s t : State} {w : RegWrite} (h : execPmuKilnGo w s = .next t) :
    SameBut [.regs, .inForce, .latch, .hold, .latched, .pages, .events, .resp, .free, .ctf, .tnc, .acs, .mte, .acc,
      .pqe, .tun, .ltr, .barm, .ccx, .cel, .plt, .plp, .plm, .tmp, .clg, .sec, .swc, .bga, .pmu, .mon, .start, .hif,
      .mem] s t :=
  sameBut_next 68719475519 rfl h (State.writeReg_same _ rfl _ _ _ _ _ _ (pmuWrite_same _ rfl))

theorem execPmuKilnConfirm_frame {s t : State} {w : RegWrite} (h : execPmuKilnConfirm w s = .next t) :
    SameBut [.regs, .inForce, .latch, .hold, .latched, .pages, .events, .resp, .free, .ctf, .tnc, .acs, .mte, .acc,
      .pqe, .tun, .ltr, .barm, .ccx, .cel, .plt, .plp, .plm, .tmp, .clg, .sec, .swc, .bga, .pmu, .mon, .start, .hif,
      .mem] s t :=
  sameBut_next 68719475519 rfl h (State.writeReg_same _ rfl _ _ _ _ _ _ (pmuWrite_same _ rfl))

theorem execKilnTimeout_frame {s t : State} (h : execKilnTimeout s = .next t) :
    SameBut [.regs, .ticks, .clk, .ctf, .acc, .pmu] s t :=
  sameBut_next 2147553473 rfl h (by
    split
    all_goals
      simp only [State.waitUntil_same, State.wr_same, State.setPmu_same, except_upd_acc, Nat.reduceAnd])

theorem execKilnExit_frame {s t : State} {kwake : Bool} {vin vbat : BitVec 16}
    (h : execKilnExit kwake vin vbat s = .next t) :
    SameBut [.regs, .events, .pmu, .start] s t :=
  sameBut_next 10737418497 rfl h (by
    simp only [State.pmuMeasure_same, State.leaveKiln_same, State.wr_same, apply_ite (State.except 10737418497),
      ite_self, Nat.reduceAnd])

theorem execAvsStep_frame {s t : State} (h : execAvsStep s = .next t) :
    SameBut [.regs] s t :=
  sameBut_next 1 rfl h (by
    simp only [State.wr_same, apply_ite (State.except 1), ite_self, Nat.reduceAnd])

theorem execSupplyLoop_frame {s t : State} {margins : List (BitVec 16)} {volts : List (List (BitVec 16))}
    (h : execSupplyLoop margins volts s = .next t) :
    SameBut [.regs, .events, .tun, .mon] s t :=
  sameBut_next 4295229697 rfl h (by
    have volt : ∀ (u : State) (x : List (BitVec 16) × Nat),
        State.except 4295229697 (match x.1.getLast? with
          | some v => u.wr (MON_VS x.2) v.toNat
          | none => u) = u.except 4295229697 := by
      intro u x
      split
      · exact State.wr_same _ rfl _ _ _
      · rfl
    simp only [State.supplyRail_same, apply_ite (State.except 4295229697), ite_self, Nat.reduceAnd]
    exact (foldl_same _ _ volt _ _).trans (foldl_same _ _ (fun u x => State.wr_same _ rfl _ _ _) _ _))

theorem execThermalLoop_frame {s t : State} {temps : List (BitVec 16)} (h : execThermalLoop temps s = .next t) :
    SameBut [.regs, .events, .tnc, .tun, .barm, .mon] s t :=
  sameBut_next 4296286465 rfl h (by
    simp only [State.tempShow_same, State.divisorStep_same, State.maskTell_same, State.ladderStep_same, Nat.reduceAnd,
      foldl_same _ _ fun u x => State.tempSite_same 4296286465 rfl u _ _,
      foldl_same _ _ fun u k => State.maskStep_same 4296286465 rfl u k])

theorem execDegradeDescent_frame {s t : State} (h : execDegradeDescent s = .next t) :
    SameBut [.regs, .pages, .events, .out, .tnc, .acc, .pqe, .tun, .ltr, .barm, .ccx, .cel, .plt, .plp, .plm, .sec,
      .swc, .pmu, .mon, .hif, .mem] s t :=
  sameBut_next 58854417697 rfl h (by
    simp only [State.transition_same, apply_ite (State.except 58854417697), ite_self, Nat.reduceAnd])

theorem execDegradeAscent_frame {s t : State} (h : execDegradeAscent s = .next t) :
    SameBut [.regs, .pages, .events, .out, .tnc, .acc, .pqe, .tun, .ltr, .barm, .ccx, .cel, .plt, .plp, .plm, .sec,
      .swc, .pmu, .mon, .hif, .mem] s t :=
  sameBut_next 58854417697 rfl h (by
    simp only [State.transition_same, apply_ite (State.except 58854417697), ite_self, Nat.reduceAnd])

theorem execMonCap_frame {s t : State} {cap : Fin 4} {w : RegWrite} (h : execMonCap cap w s = .next t) :
    SameBut [.regs, .hold, .pages, .events, .resp] s t :=
  sameBut_next 809 rfl h (State.writeReg_same _ rfl _ _ _ _ _ _ (monWrite_same _ rfl))

theorem execMonAscend_frame {s t : State} {w : RegWrite} (h : execMonAscend w s = .next t) :
    SameBut [.regs, .hold, .pages, .events, .resp] s t :=
  sameBut_next 809 rfl h (State.writeReg_same _ rfl _ _ _ _ _ _ (monWrite_same _ rfl))

theorem execInspectExpire_frame {s t : State} (h : execInspectExpire s = .next t) :
    SameBut [.regs, .pages, .ticks, .clk, .events, .out, .ctf, .tnc, .acc, .pqe, .tun, .ltr, .barm, .ccx, .cel, .plt,
      .plp, .plm, .sec, .swc, .pmu, .mon, .hif, .mem] s t :=
  sameBut_next 58854421985 rfl h (by
    simp only [State.waitUntil_same, State.transition_same, apply_ite (State.except 58854421985), ite_self,
      Nat.reduceAnd])

theorem execColdStart_frame {s t : State} {otpOk : Bool} (h : execColdStart otpOk s = .next t) :
    SameBut [.regs, .pages, .events, .free, .tnc, .ccx, .cel, .plt, .plm, .clg, .sec, .pmu, .mon, .start, .mem] s t :=
  sameBut_next 49843022113 rfl h (by
    simp only [State.countStart_same, State.resetRecord_same, State.startLevel_same, State.railsFollow_same,
      State.auxFollow_same, State.loadOtp_same, State.loadIdentity_same, State.restoreSlots_same,
      State.blockRelease_same, State.startStores_same, State.setCcx_same, except_upd_start,
      apply_ite (State.except 49843022113), ite_self, Nat.reduceAnd])

theorem execSystemReset_frame {s t : State} {debug : Bool} (h : execSystemReset debug s = .next t) :
    SameBut [.regs, .inForce, .latch, .hold, .pages, .events, .out, .tnc, .acc, .pqe, .tun, .ltr, .barm, .ccx, .cel,
      .plt, .plp, .plm, .sec, .swc, .pmu, .mon, .start, .hif, .mem] s t :=
  sameBut_next 67444352303 rfl h (by
    simp only [State.systemReset_same, apply_ite (State.except 67444352303), ite_self, Nat.reduceAnd])

theorem execHostRead_frame {s t : State} {r : HostReq} (h : execHostRead r s = .next t) :
    SameBut [.regs, .inForce, .latch, .hold, .latched, .pages, .events, .resp, .out, .free, .ctf, .tnc, .acs, .mte,
      .acc, .pqe, .tun, .ltr, .barm, .ccx, .cel, .plt, .plp, .plm, .tmp, .clg, .sec, .swc, .bga, .pmu, .mon, .start,
      .hif, .mem] s t :=
  sameBut_next 68719476543 rfl h (by
    simp only [State.hostFrame_same, Nat.reduceAnd])

theorem execHostWrite_frame {s t : State} {r : HostReq} (h : execHostWrite r s = .next t) :
    SameBut [.regs, .inForce, .latch, .hold, .latched, .pages, .events, .resp, .out, .free, .ctf, .tnc, .acs, .mte,
      .acc, .pqe, .tun, .ltr, .barm, .ccx, .cel, .plt, .plp, .plm, .tmp, .clg, .sec, .swc, .bga, .pmu, .mon, .start,
      .hif, .mem] s t :=
  sameBut_next 68719476543 rfl h (by
    simp only [State.hostFrame_same, Nat.reduceAnd])

theorem execLockpair_frame {s t : State} {r : HostReq} (h : execLockpair r s = .next t) :
    SameBut [.regs, .inForce, .latch, .hold, .latched, .pages, .events, .resp, .out, .free, .ctf, .tnc, .acs, .mte,
      .acc, .pqe, .tun, .ltr, .barm, .ccx, .cel, .plt, .plp, .plm, .tmp, .clg, .sec, .swc, .bga, .pmu, .mon, .start,
      .hif, .mem] s t :=
  sameBut_next 68719476543 rfl h (by
    simp only [State.hostFrame_same, Nat.reduceAnd])

theorem execOpenSession_frame {s t : State} {r : HostReq} (h : execOpenSession r s = .next t) :
    SameBut [.regs, .inForce, .latch, .hold, .latched, .pages, .events, .resp, .out, .free, .ctf, .tnc, .acs, .mte,
      .acc, .pqe, .tun, .ltr, .barm, .ccx, .cel, .plt, .plp, .plm, .tmp, .clg, .sec, .swc, .bga, .pmu, .mon, .start,
      .hif, .mem] s t :=
  sameBut_next 68719476543 rfl h (by
    simp only [State.hostFrame_same, Nat.reduceAnd])

theorem execProve_frame {s t : State} {r : HostReq} (h : execProve r s = .next t) :
    SameBut [.regs, .inForce, .latch, .hold, .latched, .pages, .events, .resp, .out, .free, .ctf, .tnc, .acs, .mte,
      .acc, .pqe, .tun, .ltr, .barm, .ccx, .cel, .plt, .plp, .plm, .tmp, .clg, .sec, .swc, .bga, .pmu, .mon, .start,
      .hif, .mem] s t :=
  sameBut_next 68719476543 rfl h (by
    simp only [State.hostFrame_same, Nat.reduceAnd])

theorem execCloseSession_frame {s t : State} {r : HostReq} (h : execCloseSession r s = .next t) :
    SameBut [.regs, .inForce, .latch, .hold, .latched, .pages, .events, .resp, .out, .free, .ctf, .tnc, .acs, .mte,
      .acc, .pqe, .tun, .ltr, .barm, .ccx, .cel, .plt, .plp, .plm, .tmp, .clg, .sec, .swc, .bga, .pmu, .mon, .start,
      .hif, .mem] s t :=
  sameBut_next 68719476543 rfl h (by
    simp only [State.hostFrame_same, Nat.reduceAnd])

theorem execDiscover_frame {s t : State} {r : HostReq} (h : execDiscover r s = .next t) :
    SameBut [.regs, .inForce, .latch, .hold, .latched, .pages, .events, .resp, .out, .free, .ctf, .tnc, .acs, .mte,
      .acc, .pqe, .tun, .ltr, .barm, .ccx, .cel, .plt, .plp, .plm, .tmp, .clg, .sec, .swc, .bga, .pmu, .mon, .start,
      .hif, .mem] s t :=
  sameBut_next 68719476543 rfl h (by
    simp only [State.hostFrame_same, Nat.reduceAnd])

theorem execLockoutEnd_frame {s t : State} {iface : Fin 3} (h : execLockoutEnd iface s = .next t) :
    SameBut [.regs, .ticks, .clk, .ctf, .hif] s t :=
  sameBut_next 17179873473 rfl h (by
    dsimp only
    repeat' split
    all_goals
      simp only [State.waitUntil_same, State.setHif_same, Nat.reduceAnd])

theorem execHspCsCut_frame {s t : State} (h : execHspCsCut s = .next t) :
    SameBut [.regs] s t :=
  sameBut_next 1 rfl h (by
    simp only [State.count_same, apply_ite (State.except 1), ite_self, Nat.reduceAnd])

theorem execNote_frame {s t : State} {session : Fin 16} (h : execNote session s = .next t) :
    SameBut [.regs, .ticks, .clk, .out, .ctf, .hif] s t :=
  sameBut_next 17179874497 rfl h (by
    repeat' split
    all_goals
      simp only [State.setSession_same, State.waitUntil_same, State.sendNote_same, Nat.reduceAnd])

theorem execEthTxDesc_frame {s t : State} (h : execEthTxDesc s = .next t) :
    SameBut [.regs, .out, .ccx, .mem] s t :=
  sameBut_next 34361836545 rfl h (by
    simp only [State.wr_same, State.descDone_same, State.send_same, apply_ite (State.except 34361836545), ite_self,
      Nat.reduceAnd])

theorem execEthRxFrame_frame {s t : State} {frame : List Byte} (h : execEthRxFrame frame s = .next t) :
    SameBut [.regs, .ccx, .mem] s t :=
  sameBut_next 34361835521 rfl h (by
    simp only [State.count_same, State.wr_same, State.descDone_same, State.sysStore_same,
      apply_ite (State.except 34361835521), ite_self, Nat.reduceAnd])

theorem execEthMdGo_frame {s t : State} {answer : BitVec 16} {w : RegWrite} (h : execEthMdGo answer w s = .next t) :
    SameBut [.regs, .hold, .pages, .events, .resp, .out] s t :=
  sameBut_next 1833 rfl h (State.writeReg_same _ rfl _ _ _ _ _ _ (ethWriter_same _ rfl _))

theorem execPhyPoll_frame {s t : State} {link : Bool} (h : execPhyPoll link s = .next t) :
    SameBut [.regs, .out] s t :=
  sameBut_next 1025 rfl h (by
    simp only [State.send_same, State.wr_same, apply_ite (State.except 1025), ite_self, Nat.reduceAnd])

theorem execUartTxdata_frame {s t : State} {uart : Fin 2} {w : RegWrite} (h : execUartTxdata uart w s = .next t) :
    SameBut [.regs, .hold, .pages, .events, .resp, .hif] s t :=
  sameBut_next 17179869993 rfl h (State.writeReg_same _ rfl _ _ _ _ _ _ (uartWrite_same _ rfl))

theorem execUartRxChar_frame {s t : State} {uart : Fin 2} {char : Byte} {err : Bool}
    (h : execUartRxChar uart char err s = .next t) :
    SameBut [.regs, .out, .hif] s t :=
  sameBut_next 17179870209 rfl h (by
    simp only [apply_ite (State.except 17179870209)]
    repeat' split
    all_goals
      simp only [State.wr_same, State.send_same, State.setUart_same, State.count_same, State.raise_same,
        Nat.reduceAnd])

theorem execUartRxdataRead_frame {s t : State} {uart : Fin 2} {r : RegRead}
    (h : execUartRxdataRead uart r s = .next t) :
    SameBut [.regs, .latch, .pages, .events, .resp, .hif] s t :=
  sameBut_next 17179869989 rfl h (State.readReg_same _ rfl _ _ _ _ _ (uartRead_same _ rfl))

theorem execUartEof_frame {s t : State} {uart : Fin 2} {idle : Bool} (h : execUartEof uart idle s = .next t) :
    SameBut [.regs] s t :=
  sameBut_next 1 rfl h (by
    simp only [State.raise_same, State.wr_same, apply_ite (State.except 1), ite_self, Nat.reduceAnd])

theorem execGpioEdge_frame {s t : State} {pin : Fin 48} {level : Bool} (h : execGpioEdge pin level s = .next t) :
    SameBut [.regs] s t :=
  sameBut_next 1 rfl h (by
    simp only [State.wr_same, State.raise_same, apply_ite (State.except 1), ite_self, Nat.reduceAnd])

theorem execTinChange_frame {s t : State} {input : Fin 8} {level : Bool} (h : execTinChange input level s = .next t) :
    SameBut [.regs] s t :=
  sameBut_next 1 rfl h (by
    simp only [State.wr_same, State.raise_same, State.count_same, apply_ite (State.except 1), ite_self,
      Nat.reduceAnd])

theorem execDbgArm_frame {s t : State} {w : RegWrite} (h : execDbgArm w s = .next t) :
    SameBut [.regs, .hold, .pages, .events, .resp, .hif] s t :=
  sameBut_next 17179869993 rfl h (State.writeReg_same _ rfl _ _ _ _ _ _ (dbgWrite_same _ rfl))

theorem execDbgReq_frame {s t : State} {w : RegWrite} (h : execDbgReq w s = .next t) :
    SameBut [.regs, .hold, .pages, .events, .resp, .hif] s t :=
  sameBut_next 17179869993 rfl h (State.writeReg_same _ rfl _ _ _ _ _ _ (dbgWrite_same _ rfl))

theorem execXt32Restart_frame {s t : State} (h : execXt32Restart s = .next t) :
    SameBut [.regs, .events, .ctf, .tmp] s t :=
  sameBut_next 67113217 rfl h (by
    simp only [State.wr_same, State.glitchEnd_same, State.tmpShow_same, except_upd_ctf,
      apply_ite (State.except 67113217), ite_self, Nat.reduceAnd])

theorem execPackPresenceChange_frame {s t : State} {vbat : BitVec 16} (h : execPackPresenceChange vbat s = .next t) :
    SameBut [.regs, .pmu] s t :=
  sameBut_next 2147483649 rfl h (by
    simp only [State.wr_same, State.packShow_same, State.setPst_same, apply_ite (State.except 2147483649), ite_self,
      Nat.reduceAnd])

theorem execVsysPowerDown_frame {s t : State} (h : execVsysPowerDown s = .next t) :
    SameBut [.regs, .inForce, .latch, .hold, .latched, .pages, .events, .free, .ctf, .tnc, .acs, .mte, .acc, .pqe,
      .tun, .ltr, .barm, .ccx, .cel, .plt, .plp, .plm, .tmp, .clg, .sec, .swc, .bga, .pmu, .mon, .start, .hif,
      .mem] s t :=
  sameBut_next 68719475007 rfl h (by
    simp only [State.powerDown_same, State.setPst_same, except_upd_start, apply_ite (State.except 68719475007),
      ite_self, Nat.reduceAnd])

theorem execUartTxEnd_frame {s t : State} {uart : Fin 2} (h : execUartTxEnd uart s = .next t) :
    SameBut [.regs, .out, .hif] s t :=
  sameBut_next 17179870209 rfl h (by
    dsimp only
    split
    · rfl
    · rw [State.raise_same _ rfl, State.setUart_same _ rfl]
      exact foldl_same _ _ (fun u b => State.send_same _ rfl u _ _) _ _)

/-! ### The four families -/

/-- Settles O56: the frames of its commands one by one; the list of any other command is none. -/
theorem meteringFrame : Obligations.MeteringFrame := by
  intro c s t l hl he
  cases c
  case configWrite => cases hl; exact execConfigWrite_frame he
  case readClear => cases hl; exact execReadClear_frame he
  case replayRead => cases hl; exact execReplayRead_frame he
  case ctrlPrst => cases hl; exact execCtrlPrst_frame he
  case lockRead => cases hl; exact execLockRead_frame he
  case lockWrite => cases hl; exact execLockWrite_frame he
  case irqClr => cases hl; exact execIrqClr_frame he
  case integScrub => cases hl; exact execIntegScrub_frame he
  case sealedPageRewrite => cases hl; exact execSealedPageRewrite_frame he
  case cycleBoundary => cases hl; exact execCycleBoundary_frame he
  case sampleWord => cases hl; exact execSampleWord_frame he
  case channelLost => cases hl; exact execChannelLost_frame he
  case loss => cases hl; exact execLoss_frame he
  case acquireRestart => cases hl; exact execAcquireRestart_frame he
  case revert => cases hl; exact execRevert_frame he
  case ctfReacq => cases hl; exact execCtfReacq_frame he
  case ctfForceNext => cases hl; exact execCtfForceNext_frame he
  case seed => cases hl; exact execSeed_frame he
  case stampRead => cases hl; exact execStampRead_frame he
  case pairFreeze => cases hl; exact execPairFreeze_frame he
  case pairRelease => cases hl; exact execPairRelease_frame he
  case utcSet => cases hl; exact execUtcSet_frame he
  case utcLoad => cases hl; exact execUtcLoad_frame he
  case ctfCommit => cases hl; exact execCtfCommit_frame he
  case schedActivate => cases hl; exact execSchedActivate_frame he
  case schedSignal => cases hl; exact execSchedSignal_frame he
  case ref48Retry => cases hl; exact execRef48Retry_frame he
  case activate => cases hl; exact execActivate_frame he
  case suspend => cases hl; exact execSuspend_frame he
  case resume => cases hl; exact execResume_frame he
  case softReset => cases hl; exact execSoftReset_frame he
  case fullReset => cases hl; exact execFullReset_frame he
  case tenantResetDone => cases hl; exact execTenantResetDone_frame he
  case tncCxSoftrst => cases hl; exact execTncCxSoftrst_frame he
  case grant => cases hl; exact execGrant_frame he
  case revoke => cases hl; exact execRevoke_frame he
  case aliasMap => cases hl; exact execAliasMap_frame he
  case tncSealReq => cases hl; exact execTncSealReq_frame he
  case sealComplete => cases hl; exact execSealComplete_frame he
  case tncUnsealArm => cases hl; exact execTncUnsealArm_frame he
  case tncUnsealReq => cases hl; exact execTncUnsealReq_frame he
  case armWindowExpiry => cases hl; exact execArmWindowExpiry_frame he
  case refillPeriod => cases hl; exact execRefillPeriod_frame he
  case itemLatestTime => cases hl; exact execItemLatestTime_frame he
  case contTestStart => cases hl; exact execContTestStart_frame he
  case contTestResult => cases hl; exact execContTestResult_frame he
  case acsCalZero => cases hl; exact execAcsCalZero_frame he
  case acsCalFull => cases hl; exact execAcsCalFull_frame he
  case acsCalAbort => cases hl; exact execAcsCalAbort_frame he
  case calZeroDone => cases hl; exact execCalZeroDone_frame he
  case calFullDone => cases hl; exact execCalFullDone_frame he
  case calTimeout => cases hl; exact execCalTimeout_frame he
  case metrologyClose => cases hl; exact execMetrologyClose_frame he
  case accCycRead => cases hl; exact execAccCycRead_frame he
  case mteRdCycRead => cases hl; exact execMteRdCycRead_frame he
  case accVclr => cases hl; exact execAccVclr_frame he
  case spillIncrement => cases hl; exact execSpillIncrement_frame he
  case pulseStart => cases hl; exact execPulseStart_frame he
  case pulseEnd => cases hl; exact execPulseEnd_frame he
  case pinReadback => cases hl; exact execPinReadback_frame he
  case pqeWindow => cases hl; exact execPqeWindow_frame he
  case pqeBlockEnd => cases hl; exact execPqeBlockEnd_frame he
  case vsenseClassify => cases hl; exact execVsenseClassify_frame he
  case pqeHcycRead => cases hl; exact execPqeHcycRead_frame he
  case hartMemoryAccess => cases hl; exact execHartMemoryAccess_frame he
  case restoreSeqDone => cases hl; exact execRestoreSeqDone_frame he
  all_goals cases hl

/-- Settles O57: the frames of its commands one by one; the list of any other command is none. -/
theorem inferenceFrame : Obligations.InferenceFrame := by
  intro c s t l hl he
  cases c
  case entryPull => cases hl; exact execEntryPull_frame he
  case tileComplete => cases hl; exact execTileComplete_frame he
  case tileDeadline => cases hl; exact execTileDeadline_frame he
  case tunCkResclr => cases hl; exact execTunCkResclr_frame he
  case tunBstArm => cases hl; exact execTunBstArm_frame he
  case burstDrain => cases hl; exact execBurstDrain_frame he
  case burstRepStart => cases hl; exact execBurstRepStart_frame he
  case burstRepEnd => cases hl; exact execBurstRepEnd_frame he
  case routeOp => cases hl; exact execRouteOp_frame he
  case combineOp => cases hl; exact execCombineOp_frame he
  case routerDeadline => cases hl; exact execRouterDeadline_frame he
  case ltrWcommit => cases hl; exact execLtrWcommit_frame he
  case barmRingPoll => cases hl; exact execBarmRingPoll_frame he
  case barmKick => cases hl; exact execBarmKick_frame he
  case windowBoundary => cases hl; exact execWindowBoundary_frame he
  case barmAppend => cases hl; exact execBarmAppend_frame he
  case expertExpand => cases hl; exact execExpertExpand_frame he
  case insightDeliver => cases hl; exact execInsightDeliver_frame he
  case listComplete => cases hl; exact execListComplete_frame he
  case barmRecordRelease => cases hl; exact execBarmRecordRelease_frame he
  case ccxTctx => cases hl; exact execCcxTctx_frame he
  case stampCompare => cases hl; exact execStampCompare_frame he
  case ccxDdrInit => cases hl; exact execCcxDdrInit_frame he
  case ddrInitDone => cases hl; exact execDdrInitDone_frame he
  case ddrTrainTimeout => cases hl; exact execDdrTrainTimeout_frame he
  case ccxQspGo => cases hl; exact execCcxQspGo_frame he
  case qspiComplete => cases hl; exact execQspiComplete_frame he
  case bootSelect => cases hl; exact execBootSelect_frame he
  case mgcTrial => cases hl; exact execMgcTrial_frame he
  case mgcBootok => cases hl; exact execMgcBootok_frame he
  case recoveryRetry => cases hl; exact execRecoveryRetry_frame he
  case mgcWkick => cases hl; exact execMgcWkick_frame he
  case mgcWatchdog => cases hl; exact execMgcWatchdog_frame he
  case ccxKick => cases hl; exact execCcxKick_frame he
  case hartWatchdog => cases hl; exact execHartWatchdog_frame he
  case ccxHrst => cases hl; exact execCcxHrst_frame he
  case mgcCcxreload => cases hl; exact execMgcCcxreload_frame he
  case reloadComplete => cases hl; exact execReloadComplete_frame he
  case restorePage => cases hl; exact execRestorePage_frame he
  case restoreAcc => cases hl; exact execRestoreAcc_frame he
  case saveAcc => cases hl; exact execSaveAcc_frame he
  case mgcDbToccx => cases hl; exact execMgcDbToccx_frame he
  case mgcDbTomgc => cases hl; exact execMgcDbTomgc_frame he
  case plicClaim => cases hl; exact execPlicClaim_frame he
  all_goals cases hl

/-- Settles O58: the frames of its commands one by one; the list of any other command is none. -/
theorem networksFrame : Obligations.NetworksFrame := by
  intro c s t l hl he
  cases c
  case toneTransmit => cases hl; exact execToneTransmit_frame he
  case toneTxComplete => cases hl; exact execToneTxComplete_frame he
  case toneReceive => cases hl; exact execToneReceive_frame he
  case driverFault => cases hl; exact execDriverFault_frame he
  case tmreq => cases hl; exact execTmreq_frame he
  case tmrsp => cases hl; exact execTmrsp_frame he
  case tmapRefresh => cases hl; exact execTmapRefresh_frame he
  case tmapExpire => cases hl; exact execTmapExpire_frame he
  case pulseSlotDecide => cases hl; exact execPulseSlotDecide_frame he
  case downlinkRequest => cases hl; exact execDownlinkRequest_frame he
  case downlinkTimeout => cases hl; exact execDownlinkTimeout_frame he
  case plmRingPoll => cases hl; exact execPlmRingPoll_frame he
  case accessSlot => cases hl; exact execAccessSlot_frame he
  case ackTimeout => cases hl; exact execAckTimeout_frame he
  case reassemblyTimeout => cases hl; exact execReassemblyTimeout_frame he
  case helloSend => cases hl; exact execHelloSend_frame he
  case hello => cases hl; exact execHello_frame he
  case bye => cases hl; exact execBye_frame he
  case plmLeave => cases hl; exact execPlmLeave_frame he
  case neighbourAge => cases hl; exact execNeighbourAge_frame he
  case radvSend => cases hl; exact execRadvSend_frame he
  case radv => cases hl; exact execRadv_frame he
  case routeAge => cases hl; exact execRouteAge_frame he
  case plmEpKcommit => cases hl; exact execPlmEpKcommit_frame he
  case plmSitekeyCommit => cases hl; exact execPlmSitekeyCommit_frame he
  case plmJoin => cases hl; exact execPlmJoin_frame he
  case joinWindowClose => cases hl; exact execJoinWindowClose_frame he
  case join => cases hl; exact execJoin_frame he
  case nodeUplink => cases hl; exact execNodeUplink_frame he
  case nodeLeave => cases hl; exact execNodeLeave_frame he
  case nodeSilent => cases hl; exact execNodeSilent_frame he
  case nodeDeparted => cases hl; exact execNodeDeparted_frame he
  case nrelay => cases hl; exact execNrelay_frame he
  case storedUplinkDeliver => cases hl; exact execStoredUplinkDeliver_frame he
  case schedRequestLate => cases hl; exact execSchedRequestLate_frame he
  case rgreq => cases hl; exact execRgreq_frame he
  case rgrsp => cases hl; exact execRgrsp_frame he
  case rgrant => cases hl; exact execRgrant_frame he
  case rgrev => cases hl; exact execRgrev_frame he
  case grantRenew => cases hl; exact execGrantRenew_frame he
  case grantExpire => cases hl; exact execGrantExpire_frame he
  case standbyTakeover => cases hl; exact execStandbyTakeover_frame he
  case takeoverLimit => cases hl; exact execTakeoverLimit_frame he
  case linkUp => cases hl; exact execLinkUp_frame he
  case linkDown => cases hl; exact execLinkDown_frame he
  case enum => cases hl; exact execEnum_frame he
  case announce => cases hl; exact execAnnounce_frame he
  case link => cases hl; exact execLink_frame he
  case swcEnum => cases hl; exact execSwcEnum_frame he
  case enumTimeout => cases hl; exact execEnumTimeout_frame he
  case alignExchange => cases hl; exact execAlignExchange_frame he
  case alignreq => cases hl; exact execAlignreq_frame he
  case alignrsp => cases hl; exact execAlignrsp_frame he
  case alignTimeout => cases hl; exact execAlignTimeout_frame he
  case swcSwGo => cases hl; exact execSwcSwGo_frame he
  case sweep => cases hl; exact execSweep_frame he
  case cmdack => cases hl; exact execCmdack_frame he
  case sweepExecute => cases hl; exact execSweepExecute_frame he
  case result => cases hl; exact execResult_frame he
  case reportFinal => cases hl; exact execReportFinal_frame he
  case swcFGo => cases hl; exact execSwcFGo_frame he
  case fetch => cases hl; exact execFetch_frame he
  case fetchTimeout => cases hl; exact execFetchTimeout_frame he
  case swcOfsRead => cases hl; exact execSwcOfsRead_frame he
  case swcRhdrRead => cases hl; exact execSwcRhdrRead_frame he
  case probeTimeout => cases hl; exact execProbeTimeout_frame he
  all_goals cases hl

/-- Settles O59: the frames of its commands one by one; the list of any other command is none. -/
theorem supportFrame : Obligations.SupportFrame := by
  intro c s t l hl he
  cases c
  case xt32Stop => cases hl; exact execXt32Stop_frame he
  case magOn => cases hl; exact execMagOn_frame he
  case magOff => cases hl; exact execMagOff_frame he
  case encOpen => cases hl; exact execEncOpen_frame he
  case encClose => cases hl; exact execEncClose_frame he
  case supplyGlitch => cases hl; exact execSupplyGlitch_frame he
  case clockGlitch => cases hl; exact execClockGlitch_frame he
  case glitchRunEnd => cases hl; exact execGlitchRunEnd_frame he
  case tempOut => cases hl; exact execTempOut_frame he
  case tempBack => cases hl; exact execTempBack_frame he
  case logEvent => cases hl; exact execLogEvent_frame he
  case sealWrite => cases hl; exact execSealWrite_frame he
  case clgSealnow => cases hl; exact execClgSealnow_frame he
  case clgRelease => cases hl; exact execClgRelease_frame he
  case clgRdw0Read => cases hl; exact execClgRdw0Read_frame he
  case clgExpGo => cases hl; exact execClgExpGo_frame he
  case exportComplete => cases hl; exact execExportComplete_frame he
  case clgFwCode => cases hl; exact execClgFwCode_frame he
  case fullcntSave => cases hl; exact execFullcntSave_frame he
  case secRingPoll => cases hl; exact execSecRingPoll_frame he
  case sha256 => cases hl; exact execSha256_frame he
  case hmac => cases hl; exact execHmac_frame he
  case ccmEnc => cases hl; exact execCcmEnc_frame he
  case ccmDec => cases hl; exact execCcmDec_frame he
  case sign => cases hl; exact execSign_frame he
  case verify => cases hl; exact execVerify_frame he
  case ecdh => cases hl; exact execEcdh_frame he
  case random => cases hl; exact execRandom_frame he
  case load => cases hl; exact execLoad_frame he
  case generate => cases hl; exact execGenerate_frame he
  case erase => cases hl; exact execErase_frame he
  case pubkey => cases hl; exact execPubkey_frame he
  case secOpComplete => cases hl; exact execSecOpComplete_frame he
  case eraseDeadline => cases hl; exact execEraseDeadline_frame he
  case rbgFail => cases hl; exact execRbgFail_frame he
  case rbgRecover => cases hl; exact execRbgRecover_frame he
  case secRbadv => cases hl; exact execSecRbadv_frame he
  case secRevk0 => cases hl; exact execSecRevk0_frame he
  case secRevk1 => cases hl; exact execSecRevk1_frame he
  case secIdarm => cases hl; exact execSecIdarm_frame he
  case secIdretire => cases hl; exact execSecIdretire_frame he
  case celRingPoll => cases hl; exact execCelRingPoll_frame he
  case celRead => cases hl; exact execCelRead_frame he
  case celWrite => cases hl; exact execCelWrite_frame he
  case celZero => cases hl; exact execCelZero_frame he
  case celCommandComplete => cases hl; exact execCelCommandComplete_frame he
  case scrub => cases hl; exact execScrub_frame he
  case celUnresv => cases hl; exact execCelUnresv_frame he
  case celBparm => cases hl; exact execCelBparm_frame he
  case celBpWrite => cases hl; exact execCelBpWrite_frame he
  case celMGo => cases hl; exact execCelMGo_frame he
  case unitWipeDone => cases hl; exact execUnitWipeDone_frame he
  case estimationStep => cases hl; exact execEstimationStep_frame he
  case burstEdge => cases hl; exact execBurstEdge_frame he
  case openWireTest => cases hl; exact execOpenWireTest_frame he
  case bgaOwnow => cases hl; exact execBgaOwnow_frame he
  case bgaMntGo => cases hl; exact execBgaMntGo_frame he
  case bgaMntAbort => cases hl; exact execBgaMntAbort_frame he
  case mntEnd => cases hl; exact execMntEnd_frame he
  case bgaRestore => cases hl; exact execBgaRestore_frame he
  case bgaCold => cases hl; exact execBgaCold_frame he
  case bgaTcommit => cases hl; exact execBgaTcommit_frame he
  case snapshot => cases hl; exact execSnapshot_frame he
  case vinLost => cases hl; exact execVinLost_frame he
  case vinPresent => cases hl; exact execVinPresent_frame he
  case powerUp => cases hl; exact execPowerUp_frame he
  case railFault => cases hl; exact execRailFault_frame he
  case railRestart => cases hl; exact execRailRestart_frame he
  case auxAttempt => cases hl; exact execAuxAttempt_frame he
  case auxAttemptCheck => cases hl; exact execAuxAttemptCheck_frame he
  case auxDrop => cases hl; exact execAuxDrop_frame he
  case auxGoodHold => cases hl; exact execAuxGoodHold_frame he
  case pmuAuxRetry => cases hl; exact execPmuAuxRetry_frame he
  case pmuAuxEn => cases hl; exact execPmuAuxEn_frame he
  case writeBlockAssert => cases hl; exact execWriteBlockAssert_frame he
  case writeBlockRelease => cases hl; exact execWriteBlockRelease_frame he
  case cutoffWarning => cases hl; exact execCutoffWarning_frame he
  case pmuCutack => cases hl; exact execPmuCutack_frame he
  case cutGrace => cases hl; exact execCutGrace_frame he
  case hardCutoff => cases hl; exact execHardCutoff_frame he
  case cutoffSequence => cases hl; exact execCutoffSequence_frame he
  case chargeDone => cases hl; exact execChargeDone_frame he
  case chargeRestart => cases hl; exact execChargeRestart_frame he
  case chargeTemp => cases hl; exact execChargeTemp_frame he
  case chargeTimeout => cases hl; exact execChargeTimeout_frame he
  case pmuKilnArm => cases hl; exact execPmuKilnArm_frame he
  case pmuKilnGo => cases hl; exact execPmuKilnGo_frame he
  case pmuKilnConfirm => cases hl; exact execPmuKilnConfirm_frame he
  case kilnTimeout => cases hl; exact execKilnTimeout_frame he
  case kilnExit => cases hl; exact execKilnExit_frame he
  case avsStep => cases hl; exact execAvsStep_frame he
  case supplyLoop => cases hl; exact execSupplyLoop_frame he
  case thermalLoop => cases hl; exact execThermalLoop_frame he
  case degradeDescent => cases hl; exact execDegradeDescent_frame he
  case degradeAscent => cases hl; exact execDegradeAscent_frame he
  case monCap => cases hl; exact execMonCap_frame he
  case monAscend => cases hl; exact execMonAscend_frame he
  case inspectExpire => cases hl; exact execInspectExpire_frame he
  case coldStart => cases hl; exact execColdStart_frame he
  case systemReset => cases hl; exact execSystemReset_frame he
  case hostRead => cases hl; exact execHostRead_frame he
  case hostWrite => cases hl; exact execHostWrite_frame he
  case lockpair => cases hl; exact execLockpair_frame he
  case openSession => cases hl; exact execOpenSession_frame he
  case prove => cases hl; exact execProve_frame he
  case closeSession => cases hl; exact execCloseSession_frame he
  case discover => cases hl; exact execDiscover_frame he
  case lockoutEnd => cases hl; exact execLockoutEnd_frame he
  case hspCsCut => cases hl; exact execHspCsCut_frame he
  case note => cases hl; exact execNote_frame he
  case ethTxDesc => cases hl; exact execEthTxDesc_frame he
  case ethRxFrame => cases hl; exact execEthRxFrame_frame he
  case ethMdGo => cases hl; exact execEthMdGo_frame he
  case phyPoll => cases hl; exact execPhyPoll_frame he
  case uartTxdata => cases hl; exact execUartTxdata_frame he
  case uartRxChar => cases hl; exact execUartRxChar_frame he
  case uartRxdataRead => cases hl; exact execUartRxdataRead_frame he
  case uartEof => cases hl; exact execUartEof_frame he
  case gpioEdge => cases hl; exact execGpioEdge_frame he
  case tinChange => cases hl; exact execTinChange_frame he
  case dbgArm => cases hl; exact execDbgArm_frame he
  case dbgReq => cases hl; exact execDbgReq_frame he
  case xt32Restart => cases hl; exact execXt32Restart_frame he
  case packPresenceChange => cases hl; exact execPackPresenceChange_frame he
  case vsysPowerDown => cases hl; exact execVsysPowerDown_frame he
  case uartTxEnd => cases hl; exact execUartTxEnd_frame he
  all_goals cases hl

/-! ### The queue -/

/-- Settles O4: `step` by its two equations. -/
theorem stepRunsFrontCommand : Obligations.StepRunsFrontCommand := by
  refine ⟨fun s c rest => step_front rfl, fun s h => ?_⟩
  unfold step
  rw [h]

/-- Every command stands in one of the four families, and no family lists the queue. -/
theorem frame_without_queue (c : Instr) : ∃ l : List Part,
    (touchesMetering c).or ((touchesInference c).or ((touchesNetworks c).or (touchesSupport c))) = some l ∧
      .pending ∉ l := by
  cases c <;> exact ⟨_, rfl, by decide⟩

/-- No command changes the queue of the commands that wait. -/
theorem exec_pending {c : Instr} {s t : State} (h : exec c s = .next t) : t.pending = s.pending := by
  obtain ⟨l, hf, hl⟩ := frame_without_queue c
  simp only [Option.or_eq_some_iff] at hf
  obtain hf | ⟨-, hf | ⟨-, hf | ⟨-, hf⟩⟩⟩ := hf
  · exact meteringFrame c s t l hf h .pending hl
  · exact inferenceFrame c s t l hf h .pending hl
  · exact networksFrame c s t l hf h .pending hl
  · exact supportFrame c s t l hf h .pending hl

/-- One tick of CD05 changes the time alone. -/
theorem advance_frame (s : State) (n : Nat) : SameBut [.regs, .ticks, .clk, .ctf] s (s.advance n) :=
  sameBut_of_except (State.advance_same _ (by decide) s n)

/-- Settles O5: `exec` leaves the queue, and `step` hands it the queue without its front command. -/
theorem stepKeepsQueueOrder : Obligations.StepKeepsQueueOrder := by
  intro s t h
  cases hq : s.pending with
  | nil =>
    rw [stepRunsFrontCommand.2 s hq] at h
    cases h
    rw [advance_frame s 1 .pending (by decide), hq, List.tail_nil]
  | cons c rest =>
    rw [step_front hq] at h
    exact exec_pending h

end Sys2Proof.Machine

/-! ## The canonical form of the memory -/

namespace Sys2Proof.Machine

open Reg

/-- The inference memory is in canonical form, said of the state with its other parts blanked, so that the frames of
operations which leave the memory apply. -/
abbrev MemForm (s : State) : Prop := memWf (State.except 103079215103 s).mem = true

theorem memForm_iff (s : State) : MemForm s ↔ memWf s.mem = true := Iff.rfl

theorem memForm_of_except {s t : State} (h : t.except 103079215103 = s.except 103079215103) (hs : MemForm s) :
    MemForm t := by
  unfold MemForm
  rw [h]
  exact hs

theorem foldl_memForm {α : Type} {g : State → α → State} (h : ∀ u x, MemForm u → MemForm (g u x)) (l : List α)
    {s : State} (hs : MemForm s) : MemForm (l.foldl g s) := by
  induction l generalizing s with
  | nil => exact hs
  | cons x r ih => exact ih (h s x hs)

theorem takeQuota_memForm {s t : State} (hs : MemForm s) {r tc cost : Nat} (ht : s.takeQuota r tc cost = some t) :
    MemForm t :=
  memForm_of_except (State.admit_same _ rfl s r tc cost t ht) hs

theorem read_memForm {s : State} (hs : MemForm s) (a : Access) : MemForm (s.read anyRead a) :=
  memForm_of_except (State.read_same _ rfl s anyRead a (anyRead_same _ rfl)) hs

theorem memForm_of_mem {s t : State} (hs : MemForm s) (h : t.mem = s.mem) : MemForm t := by
  rw [memForm_iff] at hs ⊢
  rw [h]
  exact hs

/-- A command that answers a state whose memory is in canonical form. -/
theorem memForm_next {s t : State} (h : (.next s : Result) = .next t) (hs : MemForm s) : MemForm t :=
  Host.Outcome.next.inj h ▸ hs

/-! ### The operations that write the memory -/

theorem State.store_memForm {s : State} (hs : MemForm s) (a : Nat) (bs : List Byte) :
    MemForm (State.store s a bs) := by
  exact memStore_wf s.mem a bs hs

theorem State.exportClose_memForm {s : State} (hs : MemForm s) (cyc : Nat) (l : List (Nat × ChanRec)) :
    MemForm (State.exportClose s cyc l) := by
  unfold State.exportClose
  split
  · exact hs
  · split
    · simp only [MemForm, State.count_same, hs, Nat.reduceAnd]
    · exact foldl_memForm (fun u x hu => State.store_memForm hu _ _) l hs

theorem State.mteClose_memForm {s : State} (hs : MemForm s) (e : CycleEnd) :
    MemForm (State.mteClose s e).2 := by
  unfold State.mteClose
  simp only [MemForm, State.raise_same, Nat.reduceAnd]
  refine State.exportClose_memForm ?_ _ _
  simp only [MemForm, State.wr_same, Nat.reduceAnd]
  refine foldl_memForm (fun u x hu => by simp only [MemForm, State.readback_same, hu, Nat.reduceAnd]) _ ?_
  rw [MemForm, foldl_same2 103079215103 _ fun a c => by exact State.voltageClose_same _ rfl a.2 e _,
    foldl_same2 103079215103 _ fun a c => by exact State.channelClose_same _ rfl a.2 e c]
  simp only [State.endUnmeas_same, hs, Nat.reduceAnd]

theorem State.perform_memForm {s : State} (hs : MemForm s) (h : Writer) (q : Req) (d : Nat)
    (hw : ∀ u q d, MemForm u → MemForm (h u q d).2) :
    MemForm (State.perform s h q d).2 := by
  have done (x : Nat) : MemForm (h s q x).2 := hw s q x hs
  unfold State.perform
  dsimp only
  repeat' split
  all_goals simp only [MemForm, except_upd_hold, done, hs, Nat.reduceAnd]

theorem State.write_memForm {s : State} (hs : MemForm s) (h : Writer) (a : Access)
    (hw : ∀ u q d, MemForm u → MemForm (h u q d).2) :
    MemForm (State.write s h a) := by
  unfold State.write
  split
  · simp only [MemForm, State.answer_same, hs, Nat.reduceAnd]
  · next r _ =>
    have scrubbed : MemForm (match r.page with | some p => s.scrubFirst p | none => s) := by
      split
      · simp only [MemForm, State.scrubFirst_same, hs, Nat.reduceAnd]
      · exact hs
    dsimp only
    split
    · simp only [MemForm, State.answer_same, State.stopped_same, Nat.reduceAnd]
      exact scrubbed
    · simp only [MemForm, State.answer_same, State.capture_same, Nat.reduceAnd]
      exact State.perform_memForm scrubbed h _ _ hw

theorem State.writeReg_memForm {s : State} (hs : MemForm s) (h : Writer) (page : Nat) (off : Nat) (w : RegWrite)
    (f : Nat → Nat) (hw : ∀ u q d, MemForm u → MemForm (h u q d).2) :
    MemForm (State.writeReg s h page off w f) := by
  exact State.write_memForm hs h _ hw

theorem State.cleanBlock_memForm {s : State} (hs : MemForm s) (b : Nat) :
    MemForm (State.cleanBlock s b) := by
  unfold State.cleanBlock
  split
  all_goals
    simp only [MemForm, State.setCcx_same, State.store_memForm, hs, Nat.reduceAnd]

theorem State.ddrAccess_memForm {s : State} (hs : MemForm s) (a : HartAccess) (r : Nat × Nat) :
    MemForm (State.ddrAccess s a r) := by
  have filled (l : List Nat) : MemForm (l.foldl State.fillBlock s) :=
    foldl_memForm (fun u b hu => by simp only [MemForm, State.fillBlock_same, hu, Nat.reduceAnd]) l hs
  unfold State.ddrAccess
  dsimp only
  split
  · simp only [MemForm, State.coreDone_same, State.storeCached_same, Nat.reduceAnd]
    exact filled _
  · simp only [MemForm, State.coreDone_same, State.cleanBlock_memForm, hs, Nat.reduceAnd]
  · simp only [MemForm, State.coreDone_same, State.dropBlock_same, State.cleanBlock_memForm, hs, Nat.reduceAnd]
  · simp only [MemForm, State.coreDone_same, State.dropBlock_same, hs, Nat.reduceAnd]
  · simp only [MemForm, State.coreDone_same, Nat.reduceAnd]
    exact filled _

theorem State.epPut_memForm {s : State} (hs : MemForm s) (e : Nat) (w : Nat) :
    MemForm (State.epPut s e w) := by
  unfold State.epPut
  simp only [MemForm, State.store_memForm, hs]

theorem State.epRecord_memForm {s : State} (hs : MemForm s) (e : Nat) (w : Nat) :
    MemForm (State.epRecord s e w) := by
  unfold State.epRecord
  simp only [MemForm, State.setPlm_same, State.epPut_memForm, hs, Nat.reduceAnd,
    apply_ite (State.except 103079215103), apply_ite State.mem, apply_ite memWf, ite_self]

theorem State.endNodeDown_memForm {s : State} (hs : MemForm s) (ref : Nat) (c : Status) (hops : Nat) :
    MemForm (State.endNodeDown s ref c hops) := by
  unfold State.endNodeDown
  repeat' split
  all_goals
    simp only [MemForm, State.setPlm_same, State.outcome_same, State.epRecord_memForm, hs, Nat.reduceAnd]

theorem State.endFrame_memForm {s : State} (hs : MemForm s) (f : TxFrame) (c : Status) :
    MemForm (State.endFrame s f c) := by
  unfold State.endFrame
  dsimp only
  have ended (p : PlmState → PlmState) : MemForm (match f.down with
      | some r => (s.setPlm p).endNodeDown r c 0
      | none => s.setPlm p) := by
    split
    all_goals simp only [MemForm, State.endNodeDown_memForm, State.setPlm_same, hs, Nat.reduceAnd]
  split
  · refine State.epRecord_memForm ?_ _ _
    simp only [MemForm, State.outcome_same, State.settleAir_same, Nat.reduceAnd]
    exact ended _
  · exact ended _

theorem State.requestCut_memForm {s : State} (hs : MemForm s) (a : Attempt) (c : Status) :
    MemForm (State.requestCut s a c) := by
  unfold State.requestCut
  dsimp only
  repeat' split
  all_goals
    simp only [MemForm, State.setFrame_same, State.setPlm_same, State.endFrame_memForm, hs, Nat.reduceAnd]

theorem State.cutTone_memForm {s : State} (hs : MemForm s) :
    MemForm (State.cutTone s) := by
  unfold State.cutTone
  dsimp only
  repeat' split
  all_goals
    simp only [MemForm, State.setPlt_same, State.count_same, State.raise_same, State.pltShow_same, State.setPlm_same,
      State.requestCut_memForm, hs, Nat.reduceAnd]

theorem State.pltAuxDown_memForm {s : State} (hs : MemForm s) :
    MemForm (State.pltAuxDown s) := by
  unfold State.pltAuxDown
  simp only [MemForm, State.log_same, State.wr_same, State.raise_same, State.cutTone_memForm, hs, Nat.reduceAnd,
    apply_ite (State.except 103079215103), apply_ite State.mem, apply_ite memWf, ite_self]

theorem State.setAux_memForm {s : State} (hs : MemForm s) (st : Nat) :
    MemForm (State.setAux s st) := by
  unfold State.setAux
  simp only [MemForm, State.setPmu_same, State.wr_same, State.raise_same, State.pltAuxUp_same,
    State.pltAuxDown_memForm, hs, Nat.reduceAnd, apply_ite (State.except 103079215103), apply_ite State.mem,
    apply_ite memWf, ite_self]

theorem State.auxStop_memForm {s : State} (hs : MemForm s) :
    MemForm (State.auxStop s) := by
  unfold State.auxStop
  simp only [MemForm, State.wr_same, State.setAux_memForm, hs, Nat.reduceAnd]

theorem State.auxStart_memForm {s : State} (hs : MemForm s) :
    MemForm (State.auxStart s) := by
  unfold State.auxStart
  simp only [MemForm, State.wr_same, State.setAux_memForm, hs, Nat.reduceAnd]

theorem State.auxFollow_memForm {s : State} (hs : MemForm s) :
    MemForm (State.auxFollow s) := by
  unfold State.auxFollow
  simp only [MemForm, State.pltAuxDown_memForm, State.auxStop_memForm, State.auxStart_memForm, hs,
    apply_ite (State.except 103079215103), apply_ite State.mem, apply_ite memWf, ite_self]

theorem State.railReset_memForm {s : State} (hs : MemForm s) :
    MemForm (State.railReset s) := by
  unfold State.railReset
  simp only [MemForm, State.wr_same, State.railsFollow_same, State.auxFollow_memForm, hs, Nat.reduceAnd]

theorem State.resetFollow_memForm {s : State} (hs : MemForm s) (old : State) (p : Nat) :
    MemForm (State.resetFollow s old p) := by
  unfold State.resetFollow
  simp only [MemForm, State.viewsReset_same, State.setTnc_same, State.acsReset_same, State.plsPageReset_same,
    State.pqePageReset_same, State.runHarts_same, State.pltShow_same, State.swcReset_same, State.bpShow_same,
    State.bgaReset_same, State.packShow_same, State.wr_same, State.gpioShow_same, except_upd_acc,
    State.railReset_memForm, hs, Nat.reduceAnd, apply_ite (State.except 103079215103), apply_ite State.mem,
    apply_ite memWf, ite_self]

theorem State.pageReset_memForm {s : State} (hs : MemForm s) (p : Nat) :
    MemForm (State.pageReset s p) := by
  unfold State.pageReset
  simp only [MemForm, State.resetRw_same, State.log_same, State.resetFollow_memForm, hs, Nat.reduceAnd]

theorem headWrite_memForm {s : State} (hs : MemForm s) (q : Req) (d : Nat) : MemForm (headWrite s q d).2 := by
  unfold headWrite
  repeat' split
  all_goals
    simp only [MemForm, State.rawClear_same, State.lockWrite_same, State.wr_same, plainWrite_same,
      State.pageReset_memForm, hs, Nat.reduceAnd]

theorem State.putRecord_memForm {s : State} (hs : MemForm s) (r : RingCfg) (w : Nat) :
    MemForm (State.putRecord s r w) := by
  unfold State.putRecord
  simp only [MemForm, State.store_memForm, hs]

theorem State.sendRecord_memForm {s : State} (hs : MemForm s) (t : Nat) (r : RingCfg) (w : Nat) :
    MemForm (State.sendRecord s t r w) := by
  unfold State.sendRecord
  simp only [MemForm, State.setBarm_same, State.wr_same, State.putRecord_memForm, hs, Nat.reduceAnd,
    apply_ite (State.except 103079215103), apply_ite State.mem, apply_ite memWf, ite_self]

theorem State.refusalRecord_memForm {s : State} (hs : MemForm s) (t : Nat) (r : RingCfg) (c : Status) (item : Nat) :
    MemForm (State.refusalRecord s t r c item) := by
  unfold State.refusalRecord
  simp only [MemForm, State.sendRecord_memForm, hs]

theorem State.endUnstarted_memForm {s : State} (hs : MemForm s) (l : BarmList) (c : Status) :
    MemForm (State.endUnstarted s l c) := by
  unfold State.endUnstarted
  simp only [MemForm, State.dropList_same, State.giveBack_same, State.outcome_same, State.count_same,
    State.raise_same, State.refusalRecord_memForm, hs, Nat.reduceAnd, apply_ite (State.except 103079215103),
    ite_self]

theorem State.barmSkip_memForm {s : State} (hs : MemForm s) (t : Option Nat) :
    MemForm (State.barmSkip s t) := by
  exact foldl_memForm (fun u l hu => State.endUnstarted_memForm hu l _) _ hs

theorem State.cmdPut_memForm {s : State} (hs : MemForm s) (r : CmdRing) (w : Nat) :
    MemForm (State.cmdPut s r w) := by
  unfold State.cmdPut
  simp only [MemForm, State.store_memForm, hs]

theorem State.secRecord_memForm {s : State} (hs : MemForm s) (t : Nat) (w : Nat) (c : Status) (res : Bool)
    (gen : Nat) (olen : Nat) :
    MemForm (State.secRecord s t w c res gen olen) := by
  unfold State.secRecord
  simp only [MemForm, State.outcome_same, State.setSec_same, State.cmdPut_memForm, hs, Nat.reduceAnd,
    apply_ite (State.except 103079215103), apply_ite State.mem, apply_ite memWf, ite_self]

theorem State.secRefuse_memForm {s : State} (hs : MemForm s) (x : RingItem) (c : Status) :
    MemForm (State.secRefuse s x c) := by
  unfold State.secRefuse
  simp only [MemForm, State.secRecord_memForm, hs]

theorem State.celRecord_memForm {s : State} (hs : MemForm s) (t : Nat) (w : Nat) (c : Status) (groups : Nat)
    (corr : Nat) :
    MemForm (State.celRecord s t w c groups corr) := by
  unfold State.celRecord
  simp only [MemForm, State.outcome_same, State.setCel_same, State.cmdPut_memForm, hs, Nat.reduceAnd,
    apply_ite (State.except 103079215103), apply_ite State.mem, apply_ite memWf, ite_self]

theorem State.celRefuse_memForm {s : State} (hs : MemForm s) (x : RingItem) (c : Status) :
    MemForm (State.celRefuse s x c) := by
  unfold State.celRefuse
  simp only [MemForm, State.celRecord_memForm, hs]

theorem State.skipQueued_memForm {s : State} (hs : MemForm s) (t : Nat) :
    MemForm (State.skipQueued s t) := by
  unfold State.skipQueued
  refine foldl_memForm (fun u x hu => State.celRefuse_memForm hu x _) _ ?_
  simp only [MemForm, State.setCel_same, Nat.reduceAnd]
  refine foldl_memForm (fun u x hu => State.secRefuse_memForm hu x _) _ ?_
  simp only [MemForm, State.setSec_same, Nat.reduceAnd]
  refine foldl_memForm (fun u d hu => State.endNodeDown_memForm hu _ _ _) _ ?_
  exact foldl_memForm (fun u f hu => State.endFrame_memForm hu f _) _ (State.barmSkip_memForm hs _)

theorem State.resetTenant_memForm {s : State} (hs : MemForm s) (t : Nat) (full : Bool) (own : Bool) :
    MemForm (State.resetTenant s t full own) := by
  unfold State.resetTenant
  simp only [MemForm, State.clearContext_same, State.setTnc_same, State.wr_same, State.moveTenant_same,
    State.skipQueued_memForm, hs, Nat.reduceAnd]

theorem State.tenantCommand_memForm {s : State} (hs : MemForm s) (d : Nat) :
    MemForm (State.tenantCommand s d).2 := by
  unfold State.tenantCommand
  dsimp only
  repeat' split
  all_goals
    simp only [MemForm, State.wr_same, State.moveTenant_same, State.resetTenant_memForm, hs, Nat.reduceAnd]

theorem State.settleErases_memForm {s : State} (hs : MemForm s) :
    MemForm (State.settleErases s) := by
  refine foldl_memForm (fun u e hu => ?_) _ hs
  dsimp only
  repeat' split
  all_goals
    simp only [MemForm, State.grantEnd_same, State.secRecord_memForm, State.count_same, State.log_same,
      State.raise_same, State.slotShow_same, State.setSec_same, hu, Nat.reduceAnd]

theorem State.eraseSlot_memForm {s : State} (hs : MemForm s) (k : Nat) (item : Option RingItem) (command : Bool)
    (owner : Nat) :
    MemForm (State.eraseSlot s k item command owner) := by
  unfold State.eraseSlot
  simp only [MemForm, State.wr_same, State.setSec_same, State.persist_same, State.slotShow_same,
    State.settleErases_memForm, hs, Nat.reduceAnd, apply_ite (State.except 103079215103), ite_self]

theorem State.departNode_memForm {s : State} (hs : MemForm s) (n : NodeEntry) :
    MemForm (State.departNode s n) := by
  unfold State.departNode
  simp only [MemForm, State.log_same, State.partner_same, State.dropEntry_same, State.setPlm_same, Nat.reduceAnd]
  refine foldl_memForm (fun u d hu => State.endNodeDown_memForm hu _ _ _) _ ?_
  simp only [MemForm, State.revokeGrant_same, hs, Nat.reduceAnd]

theorem State.plmUnbind_memForm {s : State} (hs : MemForm s) (e : Nat) :
    MemForm (State.plmUnbind s e) := by
  exact foldl_memForm (fun u n hu => State.departNode_memForm hu n) _ hs

theorem State.plmErase_memForm {s : State} (hs : MemForm s) (e : Nat) :
    MemForm (State.plmErase s e) := by
  unfold State.plmErase
  refine foldl_memForm (fun u f hu => ?_) _ (foldl_memForm (fun u k hu => ?_) _ ?_)
  · split
    · exact hu
    · exact State.endFrame_memForm hu f _
  · simp only [MemForm, State.wr_same, hu, Nat.reduceAnd]
  · simp only [MemForm, State.setPlm_same, hs, Nat.reduceAnd]

theorem State.dropEndpoint_memForm {s : State} (hs : MemForm s) (e : Nat) :
    MemForm (State.dropEndpoint s e) := by
  unfold State.dropEndpoint
  simp only [MemForm, State.setPlm_same, Nat.reduceAnd]
  refine State.plmUnbind_memForm (State.plmErase_memForm ?_ e) e
  exact foldl_memForm (fun u f hu => State.endFrame_memForm hu f _) _ hs

theorem State.revoke_memForm {s : State} (hs : MemForm s) (command : Bool) (cls : Nat) (i : Nat) (t : Nat) :
    MemForm (State.revoke s command cls i t) := by
  unfold State.revoke
  repeat' split
  all_goals
    simp only [MemForm, State.grantEnd_same, State.revokeTold_same, State.movePage_same, State.wr_same,
      State.unitRevoke_same, State.eraseSlot_memForm, State.dropEndpoint_memForm, hs, Nat.reduceAnd]

theorem State.grantCommand_memForm {s : State} (hs : MemForm s) (d : Nat) :
    MemForm (State.grantCommand s d).2 := by
  unfold State.grantCommand
  dsimp only
  repeat' split
  all_goals
    simp only [MemForm, State.wr_same, State.setTnc_same, State.grantTo_same, State.revoke_memForm, hs,
      Nat.reduceAnd]

theorem State.softReset_memForm {s : State} (hs : MemForm s) (t : Nat) :
    MemForm (State.softReset s t).2 := by
  unfold State.softReset
  repeat' split
  all_goals
    simp only [MemForm, State.resetTenant_memForm, hs]

theorem tncWriter_memForm {s : State} (hs : MemForm s) (k : Option Nat) (q : Req) (d : Nat) : MemForm
    (tncWriter k s q d).2 := by
  unfold tncWriter
  repeat' split
  all_goals
    simp only [MemForm, State.sealBits_same, plainWrite_same, quotaWrite_same, State.aliasWrite_same,
      State.tenantCommand_memForm, State.grantCommand_memForm, State.softReset_memForm, hs, Nat.reduceAnd]

theorem lowWrite_memForm {s : State} (hs : MemForm s) (q : Req) (d : Nat) : MemForm (lowWrite s q d).2 := by
  unfold lowWrite
  repeat' split
  all_goals
    simp only [MemForm, plainWrite_same, ctfWrite_same, acsWrite_same, mteWrite_same, accWrite_same, plsWrite_same,
      pqeWrite_same, tncWriter_memForm, hs, Nat.reduceAnd]

theorem State.failList_memForm {s : State} (hs : MemForm s) (t : Nat) (r : RingCfg) (c : Status) (item : Nat)
    (x : Option Span) :
    MemForm (State.failList s t r c item x) := by
  unfold State.failList
  repeat' split
  all_goals
    simp only [MemForm, State.count_same, State.raise_same, State.outcome_same, State.log_same,
      State.windowFault_same, State.refusalRecord_memForm, hs, Nat.reduceAnd]

theorem State.admitList_memForm {s : State} (hs : MemForm s) (l : BarmList) :
    MemForm (State.admitList s l) := by
  unfold State.admitList
  split
  · next t ht =>
    simp only [MemForm, State.count_same, State.setList_same, takeQuota_memForm hs ht, Nat.reduceAnd]
  · simp only [MemForm, State.failList_memForm, State.dropList_same, hs, Nat.reduceAnd]

theorem State.readSlot_memForm {s : State} (hs : MemForm s) (t : Nat) (r : RingCfg) :
    MemForm (State.readSlot s t r) := by
  unfold State.readSlot
  dsimp only
  refine State.store_memForm ?_ _ _
  split
  · exact State.failList_memForm hs _ _ _ _ _
  · split
    all_goals simp only [MemForm, State.admitList_memForm, State.setBarm_same, hs, Nat.reduceAnd]

theorem State.readSlots_memForm {s : State} (hs : MemForm s) (n : Nat) (r : RingCfg) (k : Nat) :
    MemForm (State.readSlots n r k s) := by
  induction k generalizing s with
  | zero => exact hs
  | succ k ih =>
    unfold State.readSlots
    split
    · exact hs
    · exact ih (State.readSlot_memForm hs _ _)

theorem State.pollRing_memForm {s : State} (hs : MemForm s) (t : Nat) :
    MemForm (State.pollRing s t) := by
  unfold State.pollRing
  simp only [MemForm, State.wr_same, State.raise_same, State.log_same, State.startAll_same, State.readSlots_memForm,
    hs, Nat.reduceAnd, apply_ite (State.except 103079215103), apply_ite State.mem, apply_ite memWf, ite_self]

theorem barmWrite_memForm {s : State} (hs : MemForm s) (q : Req) (d : Nat) : MemForm (barmWrite s q d).2 := by
  have polled (l : List Nat) (first : Nat) : MemForm (l.foldl (fun u b => u.pollRing (first + b)) s) :=
    foldl_memForm (fun u b hu => State.pollRing_memForm hu _) l hs
  unfold barmWrite
  dsimp only
  repeat' split
  all_goals
    simp only [MemForm, State.wr_same, State.ringWrite_same, plainWrite_same, storeIf_same, polled, hs,
      Nat.reduceAnd]

theorem midWrite_memForm {s : State} (hs : MemForm s) (q : Req) (d : Nat) : MemForm (midWrite s q d).2 := by
  unfold midWrite
  repeat' split
  all_goals
    simp only [MemForm, tunWrite_same, ltrWrite_same, ccxWrite_same, mgcWriter_same, pltWrite_same,
      barmWrite_memForm, hs, Nat.reduceAnd]

theorem State.otpCommand_memForm {s : State} (hs : MemForm s) (c : Status) (f : State → State)
    (hf : ∀ u, MemForm u → MemForm (f u)) :
    MemForm (State.otpCommand s c f) := by
  unfold State.otpCommand
  dsimp only
  repeat' split
  all_goals simp only [MemForm, State.otpDone_same, hf, hs, Nat.reduceAnd]

theorem State.retireIdentity_memForm {s : State} (hs : MemForm s) :
    MemForm (State.retireIdentity s) := by
  unfold State.retireIdentity
  refine State.otpCommand_memForm ?_ _ _ fun u hu => ?_
  · simp only [MemForm, State.setSec_same, hs, Nat.reduceAnd]
  · simp only [MemForm, State.otpSet_same, State.eraseSlot_memForm, hu, Nat.reduceAnd]

theorem State.otpWrite_memForm {s : State} (hs : MemForm s) (d : Nat) :
    MemForm (State.otpWrite s d) := by
  have revoke {u : State} (hu : MemForm u) (c : Status) (k : Nat) : MemForm (u.otpCommand c fun v => v.otpSet k) :=
    State.otpCommand_memForm hu c _ fun v hv => by simp only [MemForm, State.otpSet_same, hv, Nat.reduceAnd]
  unfold State.otpWrite
  extract_lets s0 rev s1 s2 s3
  have h0 : MemForm s0 := by
    simp only [s0, MemForm, apply_ite (State.except 103079215103), State.rollbackAdvance_same, ite_self, hs,
      Nat.reduceAnd]
  have h1 : MemForm s1 := by
    unfold s1
    split
    · exact revoke h0 _ _
    · exact h0
  have h2 : MemForm s2 := by
    unfold s2
    split
    · exact revoke h1 _ _
    · exact h1
  have h3 : MemForm s3 := by
    unfold s3
    split
    · exact State.retireIdentity_memForm h2
    · exact h2
  split
  · simp only [MemForm, State.setSec_same, h3, Nat.reduceAnd]
  · exact h3

theorem secWrite_memForm {s : State} (hs : MemForm s) (q : Req) (d : Nat) : MemForm (secWrite s q d).2 := by
  unfold secWrite
  dsimp only
  repeat' split
  all_goals
    simp only [MemForm, State.storeWord_same, State.setSec_same, plainWrite_same, State.otpWrite_memForm, hs,
      Nat.reduceAnd]

theorem State.coldKept_memForm {s : State} (hs : MemForm s) :
    MemForm (State.coldKept s) := by
  rfl

theorem State.dark_memForm {s : State} (hs : MemForm s) :
    MemForm (State.dark s) := by
  unfold State.dark
  simp only [MemForm, State.wr_same, Nat.reduceAnd]
  exact foldl_memForm (fun u f hu => by simp only [MemForm, State.wr_same, hu, Nat.reduceAnd]) _
    (State.coldKept_memForm hs)

theorem State.celEffect_memForm {s : State} (hs : MemForm s) (r : CelRun) (cap : Nat) (fail : Option Nat) :
    MemForm (State.celEffect s r cap fail).2.2.2 := by
  unfold State.celEffect
  dsimp only
  repeat' split
  all_goals
    simp only [MemForm, State.celReadRun_same, State.celWriteRun_same, State.draw_same, State.celPutRaw_same,
      State.celVerifyFailed_same, State.store_memForm, hs, Nat.reduceAnd]

theorem State.celCut_memForm {s : State} (hs : MemForm s) (n : Nat) :
    MemForm (State.celCut s n) := by
  unfold State.celCut
  repeat' split
  all_goals
    simp only [MemForm, State.setCel_same, State.wr_same, State.giveBack_same, State.celLost_same,
      State.celWriteRun_same, State.celEffect_memForm, State.celRecord_memForm, hs, Nat.reduceAnd]

theorem State.blockAssert_memForm {s : State} (hs : MemForm s) (cut : Nat) :
    MemForm (State.blockAssert s cut) := by
  unfold State.blockAssert
  simp only [MemForm, State.seqCut_same, State.sealCut_same, State.wr_same, State.count_same, State.raise_same,
    State.clgBlocked_same, State.celCut_memForm, hs, Nat.reduceAnd, apply_ite (State.except 103079215103),
    apply_ite State.mem, apply_ite memWf, ite_self]

theorem State.powerDown_memForm {s : State} (hs : MemForm s) :
    MemForm (State.powerDown s) := by
  refine State.dark_memForm (State.blockAssert_memForm ?_ _)
  exact hs

theorem State.kilnConfirm_memForm {s : State} (hs : MemForm s) :
    MemForm (State.kilnConfirm s) := by
  unfold State.kilnConfirm
  simp only [MemForm, State.log_same, State.drainEvents_same, State.sealNow_same, State.finishSeals_same,
    State.setPst_same, State.setPmu_same, except_upd_start, State.powerDown_memForm, hs, Nat.reduceAnd,
    apply_ite (State.except 103079215103), apply_ite State.mem, apply_ite memWf, ite_self]

theorem State.pmuCommand_memForm {s : State} (hs : MemForm s) (d : Nat) :
    MemForm (State.pmuCommand s d).2 := by
  unfold State.pmuCommand
  dsimp only
  repeat' split
  all_goals
    simp only [MemForm, State.setPmu_same, State.kilnGo_same, State.kilnConfirm_memForm, hs, Nat.reduceAnd]

theorem State.auxWrite_memForm {s : State} (hs : MemForm s) (q : Req) (d : Nat) :
    MemForm (State.auxWrite s q d).2 := by
  unfold State.auxWrite
  simp only [MemForm, State.storeWord_same, State.wr_same, State.auxStop_memForm, State.auxStart_memForm,
    State.auxFollow_memForm, hs, Nat.reduceAnd, apply_ite (State.except 103079215103), apply_ite State.mem,
    apply_ite memWf, apply_ite Prod.snd, ite_self]

theorem State.railConfig_memForm {s : State} (hs : MemForm s) (q : Req) (d : Nat) :
    MemForm (State.railConfig s q d).2 := by
  unfold State.railConfig
  dsimp only
  repeat' split
  all_goals
    simp only [MemForm, State.storeWord_same, State.railsFollow_same, State.auxWrite_memForm, hs, Nat.reduceAnd]

theorem pmuWrite_memForm {s : State} (hs : MemForm s) (q : Req) (d : Nat) : MemForm (pmuWrite s q d).2 := by
  unfold pmuWrite
  repeat' split
  all_goals
    simp only [MemForm, State.pmuConfig_same, State.wr_same, State.pmuCommand_memForm, State.railConfig_memForm, hs,
      Nat.reduceAnd]

theorem highWrite_memForm {s : State} (hs : MemForm s) (q : Req) (d : Nat) : MemForm (highWrite s q d).2 := by
  unfold highWrite
  repeat' split
  all_goals
    simp only [MemForm, plpWrite_same, plmWrite_same, swcWrite_same, tmpWrite_same, clgWrite_same, celWriter_same,
      bgaWrite_same, monWrite_same, secWrite_memForm, pmuWrite_memForm, hs, Nat.reduceAnd]

theorem topWrite_memForm {s : State} (hs : MemForm s) (q : Req) (d : Nat) : MemForm (topWrite s q d).2 := by
  unfold topWrite
  repeat' split
  all_goals
    simp only [MemForm, ethWrite_same, plainWrite_same, i2tWrite_same, uartWrite_same, gpioWrite_same, tinWrite_same,
      dbgWrite_same, accWrite_same, tncWriter_memForm, hs, Nat.reduceAnd]

theorem bodyWrite_memForm {s : State} (hs : MemForm s) (q : Req) (d : Nat) : MemForm (bodyWrite s q d).2 := by
  unfold bodyWrite
  repeat' split
  all_goals
    simp only [MemForm, State.writeFollow_same, lowWrite_memForm, midWrite_memForm, highWrite_memForm,
      topWrite_memForm, hs, Nat.reduceAnd]

theorem anyWrite_memForm {s : State} (hs : MemForm s) (q : Req) (d : Nat) : MemForm (anyWrite s q d).2 := by
  unfold anyWrite
  split
  all_goals
    simp only [MemForm, headWrite_memForm, bodyWrite_memForm, hs]

theorem State.regAccess_memForm {s : State} (hs : MemForm s) (a : HartAccess) (addr : Nat) (tc : Fin 64) :
    MemForm (State.regAccess s a addr tc) := by
  unfold State.regAccess
  dsimp only
  split
  · repeat' split
    all_goals
      simp only [MemForm, State.coreDone_same, State.coreFault_same, State.setRstat_same, State.setHart_same,
        read_memForm, hs, Nat.reduceAnd]
  · simp only [MemForm, State.coreDone_same, State.setRstat_same, Nat.reduceAnd]
    exact State.write_memForm hs _ _ fun u q d hu => anyWrite_memForm hu q d
  · simp only [MemForm, State.coreFault_same, hs, Nat.reduceAnd]

theorem State.sharedAccess_memForm {s : State} (hs : MemForm s) (a : HartAccess) (r : Nat × Nat) :
    MemForm (State.sharedAccess s a r) := by
  unfold State.sharedAccess
  repeat' split
  all_goals
    simp only [MemForm, State.coreDone_same, State.store_memForm, hs, Nat.reduceAnd]

theorem State.dramAccess_memForm {s : State} (hs : MemForm s) (a : HartAccess) (r : Nat × Nat) :
    MemForm (State.dramAccess s a r) := by
  unfold State.dramAccess
  simp only [MemForm, State.eccCheck_same, State.coreFault_same, State.coreDone_same, State.ddrAccess_memForm,
    State.store_memForm, hs, Nat.reduceAnd, apply_ite (State.except 103079215103), apply_ite State.mem,
    apply_ite memWf, ite_self]

theorem State.appAccess_memForm {s : State} (hs : MemForm s) (a : HartAccess) (addr : Nat) :
    MemForm (State.appAccess s a addr) := by
  unfold State.appAccess
  dsimp only
  repeat' split
  all_goals
    simp only [MemForm, State.coreFault_same, State.hartDenied_same, State.sramAccess_same, State.romAccess_same,
      State.deviceAccess_same, State.sharedAccess_memForm, State.dramAccess_memForm, State.regAccess_memForm, hs,
      Nat.reduceAnd]

theorem State.mgmtAccess_memForm {s : State} (hs : MemForm s) (a : HartAccess) (addr : Nat) :
    MemForm (State.mgmtAccess s a addr) := by
  unfold State.mgmtAccess
  simp only [MemForm, State.coreFault_same, State.romAccess_same, State.sramAccess_same, State.regAccess_memForm,
    State.appAccess_memForm, hs, Nat.reduceAnd, apply_ite (State.except 103079215103), apply_ite State.mem,
    apply_ite memWf, ite_self]

theorem State.releaseRecords_memForm {s : State} (hs : MemForm s) (n : Nat) (k : Nat) :
    MemForm (State.releaseRecords n k s) := by
  induction k generalizing s with
  | zero => exact hs
  | succ k ih =>
    unfold State.releaseRecords
    split
    · simp only [MemForm, State.wr_same, hs, Nat.reduceAnd]
    · split
      · exact ih (by simp only [MemForm, State.putRecord_memForm, State.setBarm_same, hs, Nat.reduceAnd])
      · exact hs

theorem State.admitPooled_memForm {s : State} (hs : MemForm s) :
    MemForm (State.admitPooled s) := by
  exact foldl_memForm (fun u l hu => State.admitList_memForm hu l) _ hs

theorem State.deliver_memForm {s : State} (hs : MemForm s) (l : BarmList) (i : Nat) :
    MemForm (State.deliver s l i) := by
  unfold State.deliver
  simp only [MemForm, State.entryDone_same, State.windowFault_same, State.endIssued_same, State.sendRecord_memForm,
    hs, Nat.reduceAnd, apply_ite (State.except 103079215103), apply_ite State.mem, apply_ite memWf, ite_self]

theorem State.completeList_memForm {s : State} (hs : MemForm s) (l : BarmList) :
    MemForm (State.completeList s l) := by
  unfold State.completeList
  simp only [MemForm, State.chargeList_same, State.dropList_same, State.setBarm_same, State.outcome_same,
    State.count_same, State.raise_same, State.sendRecord_memForm, hs, Nat.reduceAnd,
    apply_ite (State.except 103079215103), ite_self]

theorem State.barmLatest_memForm {s : State} (hs : MemForm s) :
    MemForm (State.barmLatest s) := by
  exact foldl_memForm (fun u l hu => State.endUnstarted_memForm hu l _) _ hs

theorem State.barmEnterD2_memForm {s : State} (hs : MemForm s) :
    MemForm (State.barmEnterD2 s) := by
  unfold State.barmEnterD2
  refine foldl_memForm
    (fun u x hu => by simp only [MemForm, State.endIssued_same, State.advanceList_same, hu, Nat.reduceAnd]) _ ?_
  refine foldl_memForm (fun u x hu => by simp only [MemForm, State.endIssued_same, hu, Nat.reduceAnd]) _ ?_
  refine foldl_memForm (fun u x hu => by simp only [MemForm, State.endEntry_same, hu, Nat.reduceAnd]) _ ?_
  simp only [MemForm, State.setBarm_same, State.barmSkip_memForm, hs, Nat.reduceAnd]

theorem State.tunEnterD2_memForm {s : State} (hs : MemForm s) :
    MemForm (State.tunEnterD2 s) := by
  unfold State.tunEnterD2
  refine memFilter_wf _ _ ((memForm_iff _).1 ?_)
  refine foldl_memForm (fun u k hu => by simp only [MemForm, State.invalidate_same, hu, Nat.reduceAnd]) _ ?_
  refine foldl_memForm (fun u x hu => by simp only [MemForm, State.endEntry_same, hu, Nat.reduceAnd]) _ ?_
  simp only [MemForm, State.setTun_same, State.setSparge_same, State.burstCut_same, hs, Nat.reduceAnd]

theorem State.enterD2_memForm {s : State} (hs : MemForm s) :
    MemForm (State.enterD2 s) := by
  unfold State.enterD2
  simp only [MemForm, State.ltrEnterD2_same, State.tunEnterD2_memForm, State.barmEnterD2_memForm, hs, Nat.reduceAnd]

theorem State.downsDone_memForm {s : State} (hs : MemForm s) (l : List DownDone) :
    MemForm (State.downsDone s l) := by
  exact foldl_memForm (fun u d hu => State.endNodeDown_memForm hu _ _ _) l hs

theorem State.plmEnterD3_memForm {s : State} (hs : MemForm s) :
    MemForm (State.plmEnterD3 s) := by
  unfold State.plmEnterD3
  refine State.downsDone_memForm ?_ _
  simp only [MemForm, State.plpEnterD3_same, Nat.reduceAnd]
  exact foldl_memForm (fun u f hu => State.endFrame_memForm hu f _) _ (State.cutTone_memForm hs)

theorem State.ccxEnterD3_memForm {s : State} (hs : MemForm s) :
    MemForm (State.ccxEnterD3 s) := by
  unfold State.ccxEnterD3
  refine memFilter_wf _ _ ((memForm_iff _).1 ?_)
  simp only [MemForm, State.wr_same, Nat.reduceAnd]
  exact foldl_memForm (fun u h hu => by simp only [MemForm, State.resetHart_same, hu, Nat.reduceAnd]) _ hs

theorem State.celEnterD3_memForm {s : State} (hs : MemForm s) :
    MemForm (State.celEnterD3 s) := by
  refine foldl_memForm (fun u x hu => State.celRefuse_memForm hu x _) _ ?_
  simp only [MemForm, State.setCel_same, hs, Nat.reduceAnd]

theorem State.secEnterD3_memForm {s : State} (hs : MemForm s) :
    MemForm (State.secEnterD3 s) := by
  refine foldl_memForm (fun u x hu => State.secRefuse_memForm hu x _) _ ?_
  simp only [MemForm, State.setSec_same, hs, Nat.reduceAnd]

theorem State.enterD3_memForm {s : State} (hs : MemForm s) :
    MemForm (State.enterD3 s) := by
  unfold State.enterD3
  simp only [MemForm, State.wr_same, State.endSessions_same, State.swcEnterD3_same, Nat.reduceAnd]
  refine State.celEnterD3_memForm (State.secEnterD3_memForm (State.plmEnterD3_memForm (State.ccxEnterD3_memForm ?_)))
  simp only [MemForm, State.pqeEnterD3_same, hs, Nat.reduceAnd]

theorem State.transition_memForm {s : State} (hs : MemForm s) (new : Nat) (cause : Nat) :
    MemForm (State.transition s new cause) := by
  unfold State.transition
  extract_lets old t0 t1 t2 t3 t4 t5 t6
  have h0 : MemForm t0 := by
    simp only [t0, MemForm, apply_ite (State.except 103079215103), State.degradeRunning_same, ite_self, hs,
      Nat.reduceAnd]
  have h1 : MemForm t1 := by
    unfold t1
    split
    · exact State.enterD2_memForm h0
    · exact h0
  have h2 : MemForm t2 := by
    unfold t2
    split
    · exact State.enterD3_memForm h1
    · exact h1
  have h6 : MemForm t6 := by
    simp only [t6, t5, t4, t3, MemForm, apply_ite (State.except 103079215103), State.leaveLevel_same,
      State.setMon_same, State.tellLevel_same, State.wr_same, ite_self, h2, Nat.reduceAnd]
  simp only [MemForm, State.gateFrom_same, State.chgFollow_same, Nat.reduceAnd]
  refine State.auxFollow_memForm ?_
  simp only [MemForm, State.railsFollow_same, h6, Nat.reduceAnd]

theorem State.settleLoss_memForm {s : State} (hs : MemForm s) :
    MemForm (State.settleLoss s) := by
  unfold State.settleLoss
  simp only [MemForm, State.transition_memForm, hs, apply_ite (State.except 103079215103), apply_ite State.mem,
    apply_ite memWf, ite_self]

theorem State.warmBlocks_memForm {s : State} (hs : MemForm s) :
    MemForm (State.warmBlocks s) := by
  exact memFilter_wf _ _ hs

theorem State.systemReset_memForm {s : State} (hs : MemForm s) (cause : Nat) :
    MemForm (State.systemReset s cause) := by
  unfold State.systemReset
  simp only [MemForm, State.endSessions_same, State.stopRings_same, State.loadOtp_same, State.wr_same,
    State.countStart_same, State.resetRecord_same, State.log_same, State.setCcx_same, State.settleLoss_memForm,
    State.warmBlocks_memForm, State.transition_memForm, hs, Nat.reduceAnd, apply_ite (State.except 103079215103),
    apply_ite State.mem, apply_ite memWf, ite_self]

theorem State.celRelease_memForm {s : State} (hs : MemForm s) (n : Nat) (k : Nat) :
    MemForm (State.celRelease n k s) := by
  induction k generalizing s with
  | zero => exact hs
  | succ k ih =>
    unfold State.celRelease
    split
    · exact hs
    · split
      · exact ih (by simp only [MemForm, State.cmdPut_memForm, State.setCel_same, hs, Nat.reduceAnd])
      · exact hs

theorem State.cmdTaken_memForm {s : State} (hs : MemForm s) (r : CmdRing) :
    MemForm (State.cmdTaken s r) := by
  unfold State.cmdTaken
  simp only [MemForm, State.store_memForm, hs]

theorem State.celTake_memForm {s : State} (hs : MemForm s) (t : Nat) :
    MemForm (State.celTake s t) := by
  unfold State.celTake
  dsimp only
  refine State.cmdTaken_memForm ?_ _
  split
  · exact State.celRefuse_memForm hs _ _
  · split
    · next t ht =>
      simp only [MemForm, State.setCel_same, takeQuota_memForm hs ht, Nat.reduceAnd]
    · exact State.celRefuse_memForm hs _ _

theorem State.celTakes_memForm {s : State} (hs : MemForm s) (n : Nat) (k : Nat) :
    MemForm (State.celTakes n k s) := by
  induction k generalizing s with
  | zero => exact hs
  | succ k ih =>
    unfold State.celTakes
    split
    · exact hs
    · exact ih (State.celTake_memForm hs _)

theorem State.celStartOp_memForm {s : State} (hs : MemForm s) (op : Nat) :
    MemForm (State.celStartOp s op) := by
  unfold State.celStartOp
  dsimp only
  repeat' split
  all_goals
    simp only [MemForm, State.setCel_same, State.serveTurn_same, State.giveBack_same, State.wr_same,
      State.celRefuse_memForm, hs, Nat.reduceAnd]

theorem State.sysStore_memForm {s : State} (hs : MemForm s) (a : Nat) (l : List Byte) :
    MemForm (State.sysStore s a l) := by
  unfold State.sysStore
  simp only [MemForm, State.setCcx_same, State.store_memForm, hs, Nat.reduceAnd,
    apply_ite (State.except 103079215103), apply_ite State.mem, apply_ite memWf, ite_self]

theorem State.descDone_memForm {s : State} (hs : MemForm s) (a : Nat) (c : Status) :
    MemForm (State.descDone s a c) := by
  unfold State.descDone
  simp only [MemForm, State.raise_same, State.sysStore_memForm, hs, Nat.reduceAnd]

theorem State.writeWords_memForm {s : State} (hs : MemForm s) (x : Session) (r : Reply) (n : Nat) (A : Nat)
    (l : List Byte) :
    MemForm (State.writeWords s x r n A l).2 := by
  induction n generalizing s r A l with
  | zero => exact hs
  | succ n ih =>
    unfold State.writeWords
    extract_lets w cc t
    have written : MemForm t := by
      unfold t
      split
      · simp only [MemForm, State.answer_same, hs, Nat.reduceAnd]
      · exact State.write_memForm hs _ _ fun u q d hu => anyWrite_memForm hu q d
    split
    · exact ih written _ _ _
    · exact written

theorem State.lockPair_memForm {s : State} (hs : MemForm s) (x : Session) (A : Nat) (set : Bool) :
    MemForm (State.lockPair s x A set).2 := by
  unfold State.lockPair
  split
  · exact hs
  · refine State.write_memForm ?_ _ _ fun u q d hu => anyWrite_memForm hu q d
    exact read_memForm hs _

theorem State.performFrame_memForm {s : State} (hs : MemForm s) (q : Request) (seq : Nat) :
    MemForm (State.performFrame s q seq).2 := by
  unfold State.performFrame
  repeat' split
  all_goals
    simp only [MemForm, State.openFrame_same, State.proveFrame_same, State.readWords_same, State.endSession_same,
      State.writeWords_memForm, State.lockPair_memForm, hs, Nat.reduceAnd]

theorem State.request_memForm {s : State} (hs : MemForm s) (q : Request) (seq : Nat) :
    MemForm (State.request s q seq).2 := by
  unfold State.request
  dsimp only
  repeat' split
  all_goals
    simp only [MemForm, State.count_same, State.endSession_same, State.performFrame_memForm, hs, Nat.reduceAnd]

theorem State.serialFrame_memForm {s : State} (hs : MemForm s) (q : Request) :
    MemForm (State.serialFrame s q) := by
  unfold State.serialFrame
  simp only [MemForm, State.count_same, State.noteReply_same, State.send_same, State.request_memForm, hs,
    Nat.reduceAnd, apply_ite (State.except 103079215103), apply_ite State.mem, apply_ite memWf, ite_self]

theorem State.datagramIn_memForm {s : State} (hs : MemForm s) (l : List Byte) (src : Nat) :
    MemForm (State.datagramIn s l src) := by
  unfold State.datagramIn
  dsimp only
  repeat' split
  all_goals
    simp only [MemForm, State.count_same, State.send_same, State.sendReply_same, State.request_memForm, hs,
      Nat.reduceAnd]

theorem State.hostFrame_memForm {s : State} (hs : MemForm s) (op : Nat) (r : HostReq) :
    MemForm (State.hostFrame s op r) := by
  unfold State.hostFrame
  simp only [MemForm, State.datagramIn_memForm, State.serialFrame_memForm, hs, apply_ite (State.except 103079215103),
    apply_ite State.mem, apply_ite memWf, ite_self]

theorem State.auxFail_memForm {s : State} (hs : MemForm s) :
    MemForm (State.auxFail s) := by
  unfold State.auxFail
  simp only [MemForm, State.wr_same, State.count_same, State.log_same, State.setAux_memForm, hs, Nat.reduceAnd]

theorem State.applyWrites_memForm {s : State} (hs : MemForm s) (l : List (Nat × List Byte)) (n : Option Nat) :
    MemForm (State.applyWrites s l n) := by
  exact foldl_memForm (fun u x hu => State.store_memForm hu _ _) _ hs

theorem State.runRoute_memForm {s : State} (hs : MemForm s) (op : RouterOp) (d : Nat) (eds : List Nat) (ns : Nat)
    (unc : Option (Nat × BitVec 40)) :
    MemForm (State.runRoute s op d eds ns unc) := by
  unfold State.runRoute
  split
  all_goals
    simp only [MemForm, State.routerUnc_same, State.routerDone_same, State.wr_same, State.countSkips_same,
      State.applyWrites_memForm, State.store_memForm, hs, Nat.reduceAnd]

theorem State.runCombine_memForm {s : State} (hs : MemForm s) (op : RouterOp) (d : Nat) (eds : List Nat)
    (unc : Option (Nat × BitVec 40)) :
    MemForm (State.runCombine s op d eds unc) := by
  unfold State.runCombine
  repeat' split
  all_goals
    simp only [MemForm, State.routerUnc_same, State.routerDone_same, State.applyWrites_memForm, State.store_memForm,
      hs, Nat.reduceAnd]

theorem State.takeOp_memForm {s : State} (hs : MemForm s) (combine : Bool) (ns : Nat) (checkUnc : Bool)
    (unc : Option (Nat × BitVec 40)) :
    MemForm (State.takeOp s combine ns checkUnc unc) := by
  unfold State.takeOp
  dsimp only
  repeat' split
  all_goals
    simp only [MemForm, State.expireOps_same, State.setLtr_same, State.routerDone_same, State.routerLog_same,
      State.runCombine_memForm, State.runRoute_memForm, hs, Nat.reduceAnd]

theorem State.epRelease_memForm {s : State} (hs : MemForm s) (n : Nat) (k : Nat) :
    MemForm (State.epRelease n k s) := by
  induction k generalizing s with
  | zero => exact hs
  | succ k ih =>
    unfold State.epRelease
    split
    · exact hs
    · split
      · exact ih (by simp only [MemForm, State.epPut_memForm, State.setPlm_same, hs, Nat.reduceAnd])
      · exact hs

theorem State.epReceive_memForm {s : State} (hs : MemForm s) (e : Nat) (kind : Nat) (c : Status) (orig : Nat)
    (hops : Nat) (stamp : Nat) (eui : Nat) (ctr : Nat) (str : Nat) (data : List Byte) :
    ∀ o, State.epReceive s e kind c orig hops stamp eui ctr str data = some o → MemForm o := by
  intro o ho
  unfold State.epReceive at ho
  dsimp only at ho
  split at ho
  · cases ho
    exact State.store_memForm (State.store_memForm hs _ _) _ _
  · cases ho

theorem State.segmentDone_memForm {s : State} (hs : MemForm s) (a : Attempt) (acked : Bool) :
    MemForm (State.segmentDone s a acked) := by
  unfold State.segmentDone
  dsimp only
  repeat' split
  all_goals
    simp only [MemForm, State.closeAttempt_same, State.setFrame_same, State.endFrame_memForm, hs, Nat.reduceAnd]

theorem State.segmentFailed_memForm {s : State} (hs : MemForm s) (a : Attempt) :
    MemForm (State.segmentFailed s a) := by
  unfold State.segmentFailed
  dsimp only
  repeat' split
  all_goals
    simp only [MemForm, State.closeAttempt_same, State.setFrame_same, State.endFrame_memForm, hs, Nat.reduceAnd]

theorem State.placeFrame_memForm {s : State} (hs : MemForm s) (g : Segment) (eui : Nat) (data : List Byte)
    (ctr : Nat) :
    ∀ o, State.placeFrame s g eui data ctr = some o → MemForm o := by
  intro o ho
  unfold State.placeFrame at ho
  repeat' split at ho
  · cases ho
    exact hs
  · exact State.epReceive_memForm hs _ _ _ _ _ _ _ _ _ _ o ho
  · cases ho
    simp only [MemForm, State.setPlm_same, hs, Nat.reduceAnd]
  · cases ho
    simp only [MemForm, State.setPlm_same, hs, Nat.reduceAnd]

theorem State.reassemble_memForm {s : State} (hs : MemForm s) (g : Segment) (eui : Nat) (data : List Byte) :
    ∀ o, State.reassemble s g eui data = some o → MemForm o := by
  intro o ho
  unfold State.reassemble at ho
  dsimp only at ho
  repeat' split at ho
  case isTrue => exact State.placeFrame_memForm hs _ _ _ _ o ho
  case h_2.isTrue =>
    refine State.placeFrame_memForm ?_ _ _ _ _ o ho
    simp only [MemForm, State.setPlm_same, hs, Nat.reduceAnd]
  all_goals
    cases ho
    simp only [MemForm, State.count_same, State.setPlm_same, hs, Nat.reduceAnd]

theorem State.acceptSegment_memForm {s : State} (hs : MemForm s) (g : Segment) (eui : Nat) :
    MemForm (State.acceptSegment s g eui) := by
  have counted (u : State) (f : Fld) (hu : MemForm u) : MemForm (u.count f) := by
    simp only [MemForm, State.count_same, hu, Nat.reduceAnd]
  unfold State.acceptSegment
  split
  · exact counted _ _ hs
  · split
    · exact hs
    · exact counted _ _ hs
    · next data _ =>
      split
      · exact counted _ _ hs
      · next t ht =>
        have taken : MemForm t := by
          split at ht
          · cases ht
            exact hs
          · exact memForm_of_except (State.ctrAccept_same _ rfl _ _ _ _ _ ht) hs
        split
        · next u hu =>
          simp only [MemForm, State.sendAck_same, State.reassemble_memForm taken _ _ _ _ hu, Nat.reduceAnd]
        · exact counted _ _ hs

theorem State.macReceive_memForm {s : State} (hs : MemForm s) (l : List Byte) (src : Nat) (eui : Nat) (first : Nat) :
    MemForm (State.macReceive s l src eui first) := by
  unfold State.macReceive
  dsimp only
  repeat' split
  all_goals
    simp only [MemForm, State.heardFrom_same, State.count_same, State.forward_same, State.segmentDone_memForm,
      State.acceptSegment_memForm, hs, Nat.reduceAnd]

theorem State.refuseTd_memForm {s : State} (hs : MemForm s) (e : Nat) (w : Nat) (c : Status) :
    MemForm (State.refuseTd s e w c) := by
  unfold State.refuseTd
  simp only [MemForm, State.outcome_same, State.epRecord_memForm, hs, Nat.reduceAnd]

theorem State.nodeTd_memForm {s : State} (hs : MemForm s) (e : Nat) (w : Nat) :
    MemForm (State.nodeTd s e w) := by
  unfold State.nodeTd
  repeat' split
  all_goals
    simp only [MemForm, State.nodeDownlink_same, State.refuseTd_memForm, hs, Nat.reduceAnd]

theorem State.toneTd_memForm {s : State} (hs : MemForm s) (e : Nat) (w : Nat) :
    MemForm (State.toneTd s e w) := by
  unfold State.toneTd
  extract_lets t fdst hop p ack
  split
  · exact State.refuseTd_memForm hs _ _ _
  · extract_lets lens cost
    split
    · exact State.refuseTd_memForm hs _ _ _
    · split
      · exact State.refuseTd_memForm hs _ _ _
      · next u hu => simp only [MemForm, State.enqueue_same, takeQuota_memForm hs hu, Nat.reduceAnd]

theorem State.takeTd_memForm {s : State} (hs : MemForm s) (e : Nat) :
    MemForm (State.takeTd s e) := by
  unfold State.takeTd
  dsimp only
  repeat' split
  all_goals
    simp only [MemForm, State.refuseTd_memForm, State.nodeTd_memForm, State.toneTd_memForm, State.store_memForm, hs]

theorem State.takeTds_memForm {s : State} (hs : MemForm s) (n : Nat) (k : Nat) :
    MemForm (State.takeTds n k s) := by
  induction k generalizing s with
  | zero => exact hs
  | succ k ih =>
    unfold State.takeTds
    dsimp only
    split
    · exact hs
    · exact ih (State.takeTd_memForm hs _)

theorem State.deliverUplink_memForm {s : State} (hs : MemForm s) (e : Nat) (held : Bool) (orig : Nat) (hops : Nat)
    (stamp : Nat) (eui : Nat) (ctr : Nat) (stream : Nat) (data : List Byte) :
    MemForm (State.deliverUplink s e held orig hops stamp eui ctr stream data) := by
  unfold State.deliverUplink
  split
  · next t ht => exact State.epReceive_memForm hs _ _ _ _ _ _ _ _ _ _ t ht
  · simp only [MemForm, State.count_same, hs, Nat.reduceAnd]

theorem State.homeUplink_memForm {s : State} (hs : MemForm s) (n : NodeEntry) (f : PulseIn) (ctr : Nat)
    (data : List Byte) :
    MemForm (State.homeUplink s n f ctr data) := by
  unfold State.homeUplink
  extract_lets s0 tc alarm s1 u s2 s3
  have h0 : MemForm s0 := by simp only [s0, MemForm, State.noteUplink_same, hs, Nat.reduceAnd]
  have h1 : MemForm s1 := by
    unfold s1
    split
    · simp only [MemForm, State.logAlarm_same, h0, Nat.reduceAnd]
    · exact h0
  have h2 : MemForm s2 := by
    unfold s2
    split
    · split
      · simp only [MemForm, State.count_same, h1, Nat.reduceAnd]
      · simp only [MemForm, State.setPlm_same, h1, Nat.reduceAnd]
    · refine foldl_memForm (fun v d hv => ?_) _ (State.deliverUplink_memForm h0 _ _ _ _ _ _ _ _ _)
      simp only [MemForm, State.sendRelay_same, hv, Nat.reduceAnd]
  simp only [s3, MemForm, State.seekGrant_same, apply_ite (State.except 103079215103), State.ackNode_same, ite_self,
    h2, Nat.reduceAnd]

theorem State.powerOn_memForm {s : State} (hs : MemForm s) :
    MemForm (State.powerOn s) := by
  unfold State.powerOn
  extract_lets t0 t1
  have h1 : MemForm t1 := by
    simp only [t1, MemForm, State.clearRegs_same, Nat.reduceAnd]
    exact foldl_memForm (fun u f hu => by simp only [MemForm, State.wr_same, hu, Nat.reduceAnd]) _
      (State.dark_memForm hs)
  clear_value t1
  simp only [MemForm, State.wr_same, Nat.reduceAnd]
  exact memForm_of_mem h1 rfl

theorem State.railsRise_memForm {s : State} (hs : MemForm s) (vin : Nat) (vbat : Nat) :
    MemForm (State.railsRise s vin vbat) := by
  unfold State.railsRise
  extract_lets keep t0 t1 t2 t3 t4 p st t5 t6
  have h1 : MemForm t1 := by
    refine foldl_memForm (fun u f hu => by simp only [MemForm, State.wr_same, hu, Nat.reduceAnd]) _ ?_
    simp only [t0, MemForm, State.clearRegs_same, hs, Nat.reduceAnd]
  have h4 : MemForm t4 := by
    simp only [t4, t3, t2, MemForm, State.wr_same, State.pmuMeasure_same, h1, Nat.reduceAnd]
  clear_value t4
  have h6 : MemForm t6 := by
    refine State.auxFollow_memForm ?_
    simp only [MemForm, State.packShow_same, State.wr_same, Nat.reduceAnd]
    exact memForm_of_mem h4 rfl
  repeat' split
  all_goals simp only [MemForm, State.setPst_same, h6, Nat.reduceAnd]

theorem State.cutWarn_memForm {s : State} (hs : MemForm s) :
    MemForm (State.cutWarn s) := by
  unfold State.cutWarn
  simp only [MemForm, State.setPst_same, State.cutNotice_same, State.raise_same, State.setPmu_same, except_upd_acc,
    State.settleLoss_memForm, hs, Nat.reduceAnd]

theorem State.secRelease_memForm {s : State} (hs : MemForm s) (n : Nat) (k : Nat) :
    MemForm (State.secRelease n k s) := by
  induction k generalizing s with
  | zero => exact hs
  | succ k ih =>
    unfold State.secRelease
    split
    · exact hs
    · split
      · exact ih (by simp only [MemForm, State.cmdPut_memForm, State.setSec_same, hs, Nat.reduceAnd])
      · exact hs

theorem State.secTake_memForm {s : State} (hs : MemForm s) (t : Nat) :
    MemForm (State.secTake s t) := by
  unfold State.secTake
  dsimp only
  refine State.cmdTaken_memForm ?_ _
  split
  · exact State.secRefuse_memForm hs _ _
  · split
    · next t ht =>
      simp only [MemForm, State.setSec_same, takeQuota_memForm hs ht, Nat.reduceAnd]
    · exact State.secRefuse_memForm hs _ _

theorem State.secTakes_memForm {s : State} (hs : MemForm s) (n : Nat) (k : Nat) :
    MemForm (State.secTakes n k s) := by
  induction k generalizing s with
  | zero => exact hs
  | succ k ih =>
    unfold State.secTakes
    split
    · exact hs
    · exact ih (State.secTake_memForm hs _)

theorem State.secStart_memForm {s : State} (hs : MemForm s) (op : Nat)
    (f : State → Nat → List Byte → List Byte × Bool × Option KeyPut × State) (hf : ∀ u w l, MemForm u → MemForm
    (f u w l).2.2.2) :
    MemForm (State.secStart s op f) := by
  unfold State.secStart
  split
  · exact hs
  · next u x _ =>
    have dropped : MemForm ((s.secDrop x).serveTurn 3 x.cls x.tc) := by
      simp only [MemForm, State.serveTurn_same, State.secDrop_same, hs, Nat.reduceAnd]
    have run := hf _ x.word.toNat (((s.secDrop x).serveTurn 3 x.cls x.tc).slotMat (sdSlot x.word.toNat)) dropped
    dsimp only
    split
    · exact State.secRefuse_memForm dropped _ _
    · split
      all_goals
        simp only [MemForm, State.slotShow_same, State.unitShow_same, State.setSec_same, Nat.reduceAnd]
        exact run

theorem State.secFinish_memForm {s : State} (hs : MemForm s) (o : SecOp) (c : Status) :
    MemForm (State.secFinish s o c) := by
  unfold State.secFinish
  dsimp only
  refine State.settleErases_memForm (State.secRecord_memForm ?_ _ _ _ _ _ _)
  repeat' split
  all_goals
    simp only [MemForm, State.slotShow_same, State.commitPut_same, State.count_same, State.store_memForm,
      State.unitShow_same, State.setSec_same, hs, Nat.reduceAnd]

theorem State.revokeAll_memForm {s : State} (hs : MemForm s) (t : Nat) :
    MemForm (State.revokeAll s t).2 := by
  unfold State.revokeAll
  refine foldl_memForm (fun u k hu => State.revoke_memForm hu _ _ _ _) _ ?_
  refine foldl_memForm (fun u k hu => State.revoke_memForm hu _ _ _ _) _ ?_
  refine foldl_memForm (fun u k hu => State.revoke_memForm hu _ _ _ _) _ ?_
  exact foldl_memForm (fun u k hu => State.revoke_memForm hu _ _ _ _) _ hs

theorem State.fullPart_memForm {s : State} (hs : MemForm s) (t : Nat) :
    MemForm (State.fullPart s t).2 := by
  unfold State.fullPart
  simp only [MemForm, State.clearMeters_same, State.clearRegs_same, State.setTnc_same, State.revokeAll_memForm, hs,
    Nat.reduceAnd]

theorem State.expireItems_memForm {s : State} (hs : MemForm s) (r : Nat) :
    MemForm (State.expireItems s r) := by
  unfold State.expireItems
  split
  · exact State.barmLatest_memForm hs
  · exact foldl_memForm (fun u f hu => State.endFrame_memForm hu f _) _ hs
  · refine foldl_memForm (fun u x hu => ?_) _ ?_
    · simp only [MemForm, State.giveBack_same, State.secRefuse_memForm, hu, Nat.reduceAnd]
    · simp only [MemForm, State.setSec_same, hs, Nat.reduceAnd]
  · refine foldl_memForm (fun u x hu => ?_) _ ?_
    · simp only [MemForm, State.giveBack_same, State.celRefuse_memForm, hu, Nat.reduceAnd]
    · simp only [MemForm, State.setCel_same, hs, Nat.reduceAnd]

theorem State.runEntry_memForm {s : State} (hs : MemForm s) (k : Nat) (w : Nat) (alt : Bool) :
    MemForm (State.runEntry s k w alt).1 := by
  unfold State.runEntry
  dsimp only
  split
  · split
    all_goals simp only [MemForm, State.wr_same, State.store_memForm, hs, Nat.reduceAnd]
  · exact foldl_memForm (fun u x hu => State.store_memForm hu _ _) _ hs

/-! ### The commands that list the memory -/

theorem execConfigWrite_memForm {s t : State} (hs : MemForm s) {a : Access} (h : execConfigWrite a s = .next t) :
    MemForm t :=
  memForm_next h (State.write_memForm hs _ _ fun _ q d hu => anyWrite_memForm hu q d)

theorem execCtrlPrst_memForm {s t : State} (hs : MemForm s) {page : Fin 1024} {w : RegWrite}
    (h : execCtrlPrst page w s = .next t) :
    MemForm t :=
  memForm_next h (State.writeReg_memForm hs _ _ _ _ _ fun _ q d hu => anyWrite_memForm hu q d)

theorem execLockWrite_memForm {s t : State} (hs : MemForm s) {page : Fin 1024} {w : RegWrite}
    (h : execLockWrite page w s = .next t) :
    MemForm t :=
  memForm_next h (State.writeReg_memForm hs _ _ _ _ _ fun _ q d hu => anyWrite_memForm hu q d)

theorem execIrqClr_memForm {s t : State} (hs : MemForm s) {page : Fin 1024} {w : RegWrite}
    (h : execIrqClr page w s = .next t) :
    MemForm t :=
  memForm_next h (State.writeReg_memForm hs _ _ _ _ _ fun _ q d hu => anyWrite_memForm hu q d)

theorem execCtfReacq_memForm {s t : State} (hs : MemForm s) {w : RegWrite} (h : execCtfReacq w s = .next t) :
    MemForm t :=
  memForm_next h (State.writeReg_memForm hs _ _ _ _ _ fun _ q d hu => anyWrite_memForm hu q d)

theorem execSeed_memForm {s t : State} (hs : MemForm s) {w : RegWrite} (h : execSeed w s = .next t) :
    MemForm t :=
  memForm_next h (State.writeReg_memForm hs _ _ _ _ _ fun _ q d hu => anyWrite_memForm hu q d)

theorem execActivate_memForm {s t : State} (hs : MemForm s) {w : RegWrite} (h : execActivate w s = .next t) :
    MemForm t :=
  memForm_next h (State.writeReg_memForm hs _ _ _ _ _ fun _ q d hu => tncWriter_memForm hu _ q d)

theorem execSuspend_memForm {s t : State} (hs : MemForm s) {w : RegWrite} (h : execSuspend w s = .next t) :
    MemForm t :=
  memForm_next h (State.writeReg_memForm hs _ _ _ _ _ fun _ q d hu => tncWriter_memForm hu _ q d)

theorem execResume_memForm {s t : State} (hs : MemForm s) {w : RegWrite} (h : execResume w s = .next t) :
    MemForm t :=
  memForm_next h (State.writeReg_memForm hs _ _ _ _ _ fun _ q d hu => tncWriter_memForm hu _ q d)

theorem execSoftReset_memForm {s t : State} (hs : MemForm s) {w : RegWrite} (h : execSoftReset w s = .next t) :
    MemForm t :=
  memForm_next h (State.writeReg_memForm hs _ _ _ _ _ fun _ q d hu => tncWriter_memForm hu _ q d)

theorem execFullReset_memForm {s t : State} (hs : MemForm s) {w : RegWrite} (h : execFullReset w s = .next t) :
    MemForm t :=
  memForm_next h (State.writeReg_memForm hs _ _ _ _ _ fun _ q d hu => tncWriter_memForm hu _ q d)

theorem execTenantResetDone_memForm {s t : State} (hs : MemForm s) {tenant : Fin 64}
    (h : execTenantResetDone tenant s = .next t) :
    MemForm t := by
  refine memForm_next h ?_
  dsimp only
  repeat' split
  all_goals
    simp only [MemForm, State.resetEnds_same, State.setTnc_same, State.fullPart_memForm, hs, Nat.reduceAnd]

theorem execTncCxSoftrst_memForm {s t : State} (hs : MemForm s) {tenant : Fin 64} {w : RegWrite}
    (h : execTncCxSoftrst tenant w s = .next t) :
    MemForm t :=
  memForm_next h (State.writeReg_memForm hs _ _ _ _ _ fun _ q d hu => tncWriter_memForm hu _ q d)

theorem execGrant_memForm {s t : State} (hs : MemForm s) {w : RegWrite} (h : execGrant w s = .next t) :
    MemForm t :=
  memForm_next h (State.writeReg_memForm hs _ _ _ _ _ fun _ q d hu => tncWriter_memForm hu _ q d)

theorem execRevoke_memForm {s t : State} (hs : MemForm s) {w : RegWrite} (h : execRevoke w s = .next t) :
    MemForm t :=
  memForm_next h (State.writeReg_memForm hs _ _ _ _ _ fun _ q d hu => tncWriter_memForm hu _ q d)

theorem execAliasMap_memForm {s t : State} (hs : MemForm s) {w : RegWrite} (h : execAliasMap w s = .next t) :
    MemForm t :=
  memForm_next h (State.writeReg_memForm hs _ _ _ _ _ fun _ q d hu => tncWriter_memForm hu _ q d)

theorem execTncSealReq_memForm {s t : State} (hs : MemForm s) {lost : Option (Fin 2048)} {w : RegWrite}
    (h : execTncSealReq lost w s = .next t) :
    MemForm t :=
  memForm_next h (State.writeReg_memForm hs _ _ _ _ _ fun _ q d hu => tncWriter_memForm hu _ q d)

theorem execTncUnsealArm_memForm {s t : State} (hs : MemForm s) {w : RegWrite} (h : execTncUnsealArm w s = .next t) :
    MemForm t :=
  memForm_next h (State.writeReg_memForm hs _ _ _ _ _ fun _ q d hu => tncWriter_memForm hu _ q d)

theorem execTncUnsealReq_memForm {s t : State} (hs : MemForm s) {w : RegWrite} (h : execTncUnsealReq w s = .next t) :
    MemForm t :=
  memForm_next h (State.writeReg_memForm hs _ _ _ _ _ fun _ q d hu => tncWriter_memForm hu _ q d)

theorem execItemLatestTime_memForm {s t : State} (hs : MemForm s) {resource : Fin 4} {rank : Option Bool}
    (h : execItemLatestTime resource rank s = .next t) :
    MemForm t := by
  refine memForm_next h ?_
  repeat' split
  all_goals
    simp only [MemForm, State.count_same, State.expireItems_memForm, hs, Nat.reduceAnd]

theorem execMetrologyClose_memForm {s t : State} (hs : MemForm s) {upsets : List AccUpset}
    (h : execMetrologyClose upsets s = .next t) :
    MemForm t := by
  refine memForm_next h ?_
  dsimp only
  repeat' split
  all_goals
    simp only [MemForm, State.addCycle_same, State.unmeasured_same, State.count_same, except_upd_acc, except_upd_mte,
      State.mteClose_memForm, hs, Nat.reduceAnd]

theorem execTileComplete_memForm {s t : State}
    (hs : MemForm s) {engine : Fin 32} {ticks : BitVec 32} {corrected : Nat} {unc : Option (BitVec 40)}
    (h : execTileComplete engine ticks corrected unc s = .next t) :
    MemForm t := by
  refine memForm_next h ?_
  dsimp only
  repeat' split
  all_goals
    simp only [MemForm, State.setTun_same, State.count_same, State.tileUnc_same, State.countTile_same,
      State.signal_same, State.report_same, State.invalidate_same, State.startStaged_same, State.settleSignals_same,
      State.runEntry_memForm, hs, Nat.reduceAnd]

theorem execRouteOp_memForm {s t : State} (hs : MemForm s) {ns : BitVec 32} {checkUnc : Bool} {unc : Option
    (Nat × BitVec 40)} (h : execRouteOp ns checkUnc unc s = .next t) :
    MemForm t := by
  refine memForm_next h ?_
  simp only [MemForm, State.settleSignals_same, State.takeOp_memForm, hs, Nat.reduceAnd]

theorem execCombineOp_memForm {s t : State} (hs : MemForm s) {checkUnc : Bool} {unc : Option (Nat × BitVec 40)}
    (h : execCombineOp checkUnc unc s = .next t) :
    MemForm t := by
  refine memForm_next h ?_
  simp only [MemForm, State.settleSignals_same, State.takeOp_memForm, hs, Nat.reduceAnd]

theorem execBarmRingPoll_memForm {s t : State} (hs : MemForm s) {tenant : Fin 64}
    (h : execBarmRingPoll tenant s = .next t) :
    MemForm t := by
  refine memForm_next h ?_
  simp only [MemForm, State.pollRing_memForm, hs]

theorem execBarmKick_memForm {s t : State} (hs : MemForm s) {tenant : Fin 64} {w : RegWrite}
    (h : execBarmKick tenant w s = .next t) :
    MemForm t :=
  memForm_next h (State.writeReg_memForm hs _ _ _ _ _ fun _ q d hu => barmWrite_memForm hu q d)

theorem execWindowBoundary_memForm {s t : State} (hs : MemForm s) (h : execWindowBoundary s = .next t) :
    MemForm t := by
  refine memForm_next h ?_
  simp only [MemForm, State.setBarm_same, State.wr_same, State.refill_same, State.computeCapacity_same,
    State.startAll_same, State.admitPooled_memForm, hs, Nat.reduceAnd, apply_ite (State.except 103079215103),
    apply_ite State.mem, apply_ite memWf, ite_self]

theorem execInsightDeliver_memForm {s t : State} (hs : MemForm s) (h : execInsightDeliver s = .next t) :
    MemForm t := by
  refine memForm_next h ?_
  dsimp only
  repeat' split
  all_goals
    simp only [MemForm, State.expireWaits_same, State.settleSignals_same, State.deliver_memForm, hs, Nat.reduceAnd]

theorem execListComplete_memForm {s t : State} (hs : MemForm s) (h : execListComplete s = .next t) :
    MemForm t := by
  refine memForm_next h ?_
  dsimp only
  repeat' split
  all_goals
    simp only [MemForm, State.startAll_same, State.completeList_memForm, hs, Nat.reduceAnd]

theorem execBarmRecordRelease_memForm {s t : State} (hs : MemForm s) {tenant : Fin 64}
    (h : execBarmRecordRelease tenant s = .next t) :
    MemForm t := by
  refine memForm_next h ?_
  simp only [MemForm, State.startAll_same, State.releaseRecords_memForm, hs, Nat.reduceAnd,
    apply_ite (State.except 103079215103), apply_ite State.mem, apply_ite memWf, ite_self]

theorem execHartMemoryAccess_memForm {s t : State} (hs : MemForm s) {a : HartAccess}
    (h : execHartMemoryAccess a s = .next t) :
    MemForm t := by
  refine memForm_next h ?_
  simp only [MemForm, State.setHart_same, State.coreFault_same, State.mgmtAccess_memForm, State.appAccess_memForm,
    hs, Nat.reduceAnd, apply_ite (State.except 103079215103), apply_ite State.mem, apply_ite memWf, ite_self]

theorem execMgcWatchdog_memForm {s t : State} (hs : MemForm s) (h : execMgcWatchdog s = .next t) :
    MemForm t := by
  refine memForm_next h ?_
  simp only [MemForm, State.waitUntil_same, State.systemReset_memForm, hs, Nat.reduceAnd,
    apply_ite (State.except 103079215103), apply_ite State.mem, apply_ite memWf, ite_self]

theorem execReloadComplete_memForm {s t : State} (hs : MemForm s) {app : List Byte}
    (h : execReloadComplete app s = .next t) :
    MemForm t := by
  refine memForm_next h ?_
  dsimp only
  repeat' split
  all_goals
    simp only [MemForm, State.setCcx_same, State.bootDone_same, State.log_same, State.systemReset_memForm, hs,
      Nat.reduceAnd]

theorem execToneTransmit_memForm {s t : State} (hs : MemForm s) (h : execToneTransmit s = .next t) :
    MemForm t := by
  refine memForm_next h ?_
  repeat' split
  all_goals
    simp only [MemForm, State.raise_same, State.wr_same, State.send_same, State.setPlt_same, State.setFrame_same,
      State.setPlm_same, State.pltShow_same, State.requestCut_memForm, hs, Nat.reduceAnd]

theorem execToneTxComplete_memForm {s t : State} (hs : MemForm s) (h : execToneTxComplete s = .next t) :
    MemForm t := by
  refine memForm_next h ?_
  dsimp only
  repeat' split
  all_goals
    simp only [MemForm, State.waitUntil_same, State.setPlm_same, State.setPlt_same, State.count_same,
      State.raise_same, State.pltShow_same, State.segmentDone_memForm, hs, Nat.reduceAnd]

theorem execToneReceive_memForm {s t : State} (hs : MemForm s) {f : ToneIn} (h : execToneReceive f s = .next t) :
    MemForm t := by
  refine memForm_next h ?_
  simp only [MemForm, State.pltAccept_same, State.macReceive_memForm, hs, Nat.reduceAnd,
    apply_ite (State.except 103079215103), apply_ite State.mem, apply_ite memWf, ite_self]

theorem execDriverFault_memForm {s t : State} (hs : MemForm s) {low : Bool} {symbols : BitVec 10}
    (h : execDriverFault low symbols s = .next t) :
    MemForm t := by
  refine memForm_next h ?_
  simp only [MemForm, State.setPlt_same, State.log_same, State.pltShow_same, except_upd_resp, State.cutTone_memForm,
    hs, Nat.reduceAnd, apply_ite (State.except 103079215103), apply_ite State.mem, apply_ite memWf, ite_self]

theorem execPulseSlotDecide_memForm {s t : State} (hs : MemForm s) {entry : Fin 256} {c0 c1 c2 c3 : BitVec 16}
    (h : execPulseSlotDecide entry c0 c1 c2 c3 s = .next t) :
    MemForm t := by
  refine memForm_next h ?_
  dsimp only
  simp only [MemForm, State.noteLost_same, Nat.reduceAnd]
  refine foldl_memForm (fun u f hu => ?_) _ (State.downsDone_memForm (memForm_of_except ?_ hs) _)
  · simp only [MemForm, State.nodeFrame_same, hu, Nat.reduceAnd]
  · exact State.decideSlot_same _ rfl s _ _

theorem execDownlinkRequest_memForm {s t : State} (hs : MemForm s) {stream : Fin 64}
    (h : execDownlinkRequest stream s = .next t) :
    MemForm t := by
  refine memForm_next h ?_
  dsimp only
  repeat' split
  all_goals
    simp only [MemForm, State.setPlm_same, State.raise_same, State.sendRelay_same, State.setStream_same,
      State.endNodeDown_memForm, hs, Nat.reduceAnd]

theorem execDownlinkTimeout_memForm {s t : State} (hs : MemForm s) {stream : Fin 64}
    (h : execDownlinkTimeout stream s = .next t) :
    MemForm t := by
  refine memForm_next h ?_
  dsimp only
  repeat' split
  all_goals
    simp only [MemForm, State.endDownlink_same, State.downsDone_memForm, hs, Nat.reduceAnd]

theorem execPlmRingPoll_memForm {s t : State} (hs : MemForm s) {endpoint : Fin 128}
    (h : execPlmRingPoll endpoint s = .next t) :
    MemForm t := by
  refine memForm_next h ?_
  dsimp only
  repeat' split
  case isFalse.isFalse =>
    refine State.takeTds_memForm (State.epRelease_memForm ?_ _ _) _ _
    simp only [MemForm, State.wr_same, hs, Nat.reduceAnd]
  all_goals simp only [MemForm, State.log_same, State.wr_same, hs, Nat.reduceAnd]

theorem execAccessSlot_memForm {s t : State} (hs : MemForm s) {window : Fin 4} {slot : Fin 16}
    (h : execAccessSlot window slot s = .next t) :
    MemForm t := by
  refine memForm_next h ?_
  dsimp only
  repeat' split
  all_goals
    simp only [MemForm, State.waitUntil_same, State.serveTurn_same, State.buildSegment_same, State.setFrame_same,
      State.setPlm_same, State.endFrame_memForm, hs, Nat.reduceAnd]

theorem execAckTimeout_memForm {s t : State} (hs : MemForm s) (h : execAckTimeout s = .next t) :
    MemForm t := by
  refine memForm_next h ?_
  repeat' split
  all_goals
    simp only [MemForm, State.waitUntil_same, State.segmentFailed_memForm, hs, Nat.reduceAnd]

theorem execNodeUplink_memForm {s t : State} (hs : MemForm s) (h : execNodeUplink s = .next t) :
    MemForm t := by
  refine memForm_next h ?_
  split
  · exact hs
  · next _ u hu =>
    have taken : MemForm u := memForm_of_except (State.takeNode_same _ rfl _ _ _ hu) hs
    repeat' split
    all_goals
      simp only [MemForm, State.homeUplink_memForm, State.count_same, State.repeatUplink_same, taken, Nat.reduceAnd]

theorem execNodeLeave_memForm {s t : State} (hs : MemForm s) (h : execNodeLeave s = .next t) :
    MemForm t := by
  refine memForm_next h ?_
  split
  · exact hs
  · next _ u hu =>
    have taken : MemForm u := memForm_of_except (State.takeNode_same _ rfl _ _ _ hu) hs
    repeat' split
    all_goals simp only [MemForm, State.departNode_memForm, State.count_same, taken, Nat.reduceAnd]

theorem execNodeDeparted_memForm {s t : State} (hs : MemForm s) {stream : Fin 64}
    (h : execNodeDeparted stream s = .next t) :
    MemForm t := by
  refine memForm_next h ?_
  repeat' split
  all_goals
    simp only [MemForm, State.departNode_memForm, hs]

theorem execNrelay_memForm {s t : State} (hs : MemForm s) (h : execNrelay s = .next t) :
    MemForm t := by
  refine memForm_next h ?_
  split
  · exact hs
  · next r l _ =>
    extract_lets u type
    have taken : MemForm u := memForm_of_except (State.setPlm_same _ rfl s _) hs
    split
    · simp only [MemForm, State.relayDown_same, taken, Nat.reduceAnd]
    split
    · exact taken
    split
    · exact taken
    split
    · simp only [MemForm, State.count_same, taken, Nat.reduceAnd]
    · simp only [MemForm, State.count_same, taken, Nat.reduceAnd]
    · extract_lets v
      have heard : MemForm v := by
        unfold v
        split
        · split
          · exact State.departNode_memForm taken _
          · simp only [MemForm, apply_ite (State.except 103079215103), State.ackNode_same, State.noteUplink_same,
            ite_self, taken, Nat.reduceAnd]
        · exact memForm_of_except (ctrAccept_getD_left rfl u _ _ _) taken
      split
      · exact heard
      · exact State.deliverUplink_memForm heard _ _ _ _ _ _ _ _ _

theorem execStoredUplinkDeliver_memForm {s t : State} (hs : MemForm s) (h : execStoredUplinkDeliver s = .next t) :
    MemForm t := by
  refine memForm_next h ?_
  split
  · exact hs
  · exact foldl_memForm (fun u x hu => State.deliverUplink_memForm hu _ _ _ _ _ _ _ _ _) _
      (memForm_of_except (State.setPlm_same _ rfl s _) hs)

theorem execExportComplete_memForm {s t : State} (hs : MemForm s) (h : execExportComplete s = .next t) :
    MemForm t := by
  refine memForm_next h ?_
  split
  all_goals
    simp only [MemForm, State.setClg_same, State.wr_same, State.raise_same, State.store_memForm, hs, Nat.reduceAnd]

theorem execSecRingPoll_memForm {s t : State} (hs : MemForm s) {tenant : Fin 64}
    (h : execSecRingPoll tenant s = .next t) :
    MemForm t := by
  refine memForm_next h ?_
  dsimp only
  repeat' split
  case isFalse.isFalse =>
    refine State.secTakes_memForm (State.secRelease_memForm ?_ _ _) _ _
    simp only [MemForm, State.wr_same, hs, Nat.reduceAnd]
  all_goals simp only [MemForm, State.log_same, State.raise_same, State.wr_same, hs, Nat.reduceAnd]

theorem execSha256_memForm {s t : State} (hs : MemForm s) (h : execSha256 s = .next t) :
    MemForm t :=
  memForm_next h (State.secStart_memForm hs _ _ fun _ _ _ hu => hu)

theorem execHmac_memForm {s t : State} (hs : MemForm s) (h : execHmac s = .next t) :
    MemForm t :=
  memForm_next h (State.secStart_memForm hs _ _ fun _ _ _ hu => hu)

theorem execCcmEnc_memForm {s t : State} (hs : MemForm s) (h : execCcmEnc s = .next t) :
    MemForm t :=
  memForm_next h (State.secStart_memForm hs _ _ fun _ _ _ hu => hu)

theorem execCcmDec_memForm {s t : State} (hs : MemForm s) (h : execCcmDec s = .next t) :
    MemForm t := by
  refine memForm_next h ?_
  refine State.secStart_memForm hs _ _ fun u w key hu => ?_
  split <;> exact hu

theorem execSign_memForm {s t : State} (hs : MemForm s) (h : execSign s = .next t) :
    MemForm t :=
  memForm_next h (State.secStart_memForm hs _ _ fun u _ _ hu => memForm_of_except
    (State.signWith_same _ rfl u _ _ _) hu)

theorem execVerify_memForm {s t : State} (hs : MemForm s) (h : execVerify s = .next t) :
    MemForm t :=
  memForm_next h (State.secStart_memForm hs _ _ fun _ _ _ hu => hu)

theorem execEcdh_memForm {s t : State} (hs : MemForm s) (h : execEcdh s = .next t) :
    MemForm t :=
  memForm_next h (State.secStart_memForm hs _ _ fun _ _ _ hu => hu)

theorem execRandom_memForm {s t : State} (hs : MemForm s) (h : execRandom s = .next t) :
    MemForm t :=
  memForm_next h (State.secStart_memForm hs _ _ fun u _ _ hu => memForm_of_except
    (State.randomBytes_same _ rfl u _) hu)

theorem execLoad_memForm {s t : State} (hs : MemForm s) (h : execLoad s = .next t) :
    MemForm t :=
  memForm_next h (State.secStart_memForm hs _ _ fun _ _ _ hu => hu)

theorem execGenerate_memForm {s t : State} (hs : MemForm s) (h : execGenerate s = .next t) :
    MemForm t := by
  refine memForm_next h ?_
  refine State.secStart_memForm hs _ _ fun u w _ hu => ?_
  dsimp only
  split
  · exact memForm_of_except (State.randomScalar_same _ rfl u) hu
  · exact memForm_of_except (State.randomBytes_same _ rfl u _) hu

theorem execErase_memForm {s t : State} (hs : MemForm s) (h : execErase s = .next t) :
    MemForm t := by
  refine memForm_next h ?_
  dsimp only
  repeat' split
  all_goals
    simp only [MemForm, State.secDrop_same, State.serveTurn_same, State.secRefuse_memForm, State.eraseSlot_memForm,
      hs, Nat.reduceAnd]

theorem execPubkey_memForm {s t : State} (hs : MemForm s) (h : execPubkey s = .next t) :
    MemForm t :=
  memForm_next h (State.secStart_memForm hs _ _ fun _ _ _ hu => hu)

theorem execSecOpComplete_memForm {s t : State} (hs : MemForm s) {unit : Fin 6}
    (h : execSecOpComplete unit s = .next t) :
    MemForm t := by
  refine memForm_next h ?_
  split
  all_goals
    simp only [MemForm, State.secFinish_memForm, hs]

theorem execEraseDeadline_memForm {s t : State} (hs : MemForm s) {slot : Fin 32}
    (h : execEraseDeadline slot s = .next t) :
    MemForm t := by
  refine memForm_next h ?_
  dsimp only
  split
  · exact hs
  · refine foldl_memForm (fun u o hu => State.secFinish_memForm hu _ _) _ ?_
    simp only [MemForm, State.setSec_same, State.waitUntil_same, hs, Nat.reduceAnd]

theorem execSecRbadv_memForm {s t : State} (hs : MemForm s) {w : RegWrite} (h : execSecRbadv w s = .next t) :
    MemForm t :=
  memForm_next h (State.writeReg_memForm hs _ _ _ _ _ fun _ q d hu => secWrite_memForm hu q d)

theorem execSecRevk0_memForm {s t : State} (hs : MemForm s) {w : RegWrite} (h : execSecRevk0 w s = .next t) :
    MemForm t :=
  memForm_next h (State.writeReg_memForm hs _ _ _ _ _ fun _ q d hu => secWrite_memForm hu q d)

theorem execSecRevk1_memForm {s t : State} (hs : MemForm s) {w : RegWrite} (h : execSecRevk1 w s = .next t) :
    MemForm t :=
  memForm_next h (State.writeReg_memForm hs _ _ _ _ _ fun _ q d hu => secWrite_memForm hu q d)

theorem execSecIdarm_memForm {s t : State} (hs : MemForm s) {w : RegWrite} (h : execSecIdarm w s = .next t) :
    MemForm t :=
  memForm_next h (State.writeReg_memForm hs _ _ _ _ _ fun _ q d hu => secWrite_memForm hu q d)

theorem execSecIdretire_memForm {s t : State} (hs : MemForm s) {w : RegWrite} (h : execSecIdretire w s = .next t) :
    MemForm t :=
  memForm_next h (State.writeReg_memForm hs _ _ _ _ _ fun _ q d hu => secWrite_memForm hu q d)

theorem execCelRingPoll_memForm {s t : State} (hs : MemForm s) {tenant : Fin 64}
    (h : execCelRingPoll tenant s = .next t) :
    MemForm t := by
  refine memForm_next h ?_
  dsimp only
  repeat' split
  case isFalse.isFalse =>
    refine State.celTakes_memForm (State.celRelease_memForm ?_ _ _) _ _
    simp only [MemForm, State.wr_same, hs, Nat.reduceAnd]
  all_goals simp only [MemForm, State.log_same, State.raise_same, State.wr_same, hs, Nat.reduceAnd]

theorem execCelRead_memForm {s t : State} (hs : MemForm s) (h : execCelRead s = .next t) :
    MemForm t := by
  refine memForm_next h ?_
  simp only [MemForm, State.celStartOp_memForm, hs]

theorem execCelWrite_memForm {s t : State} (hs : MemForm s) (h : execCelWrite s = .next t) :
    MemForm t := by
  refine memForm_next h ?_
  simp only [MemForm, State.celStartOp_memForm, hs]

theorem execCelZero_memForm {s t : State} (hs : MemForm s) (h : execCelZero s = .next t) :
    MemForm t := by
  refine memForm_next h ?_
  simp only [MemForm, State.celStartOp_memForm, hs]

theorem execCelCommandComplete_memForm {s t : State} (hs : MemForm s) {fail : Option (Fin 1024)}
    (h : execCelCommandComplete fail s = .next t) :
    MemForm t := by
  refine memForm_next h ?_
  split
  all_goals
    simp only [MemForm, State.setCel_same, State.wr_same, State.celEffect_memForm, State.celRecord_memForm, hs,
      Nat.reduceAnd]

theorem execVinPresent_memForm {s t : State} (hs : MemForm s) {vin vbat : BitVec 16}
    (h : execVinPresent vin vbat s = .next t) :
    MemForm t := by
  refine memForm_next h ?_
  simp only [MemForm, State.pmuMeasure_same, State.wr_same, State.raise_same, State.log_same, State.setChg_same,
    State.vinBack_same, State.setPmu_same, State.settleLoss_memForm, hs, Nat.reduceAnd,
    apply_ite (State.except 103079215103), apply_ite State.mem, apply_ite memWf, ite_self]

theorem execPowerUp_memForm {s t : State} (hs : MemForm s) {strap : Fin 4} {held : Bool} {vin vbat : BitVec 16}
    (h : execPowerUp strap held vin vbat s = .next t) :
    MemForm t := by
  refine memForm_next h ?_
  simp only [MemForm, State.setPmu_same, State.startDue_same, State.powerOn_memForm, State.railsRise_memForm, hs,
    Nat.reduceAnd, apply_ite (State.except 103079215103), apply_ite State.mem, apply_ite memWf, ite_self]

theorem execRailFault_memForm {s t : State} (hs : MemForm s) {rail : Fin 7} (h : execRailFault rail s = .next t) :
    MemForm t := by
  refine memForm_next h ?_
  simp only [MemForm, State.wr_same, State.raise_same, State.setPst_same, State.setPmu_same, State.powerDown_memForm,
    hs, Nat.reduceAnd, apply_ite (State.except 103079215103), apply_ite State.mem, apply_ite memWf, ite_self]

theorem execAuxAttempt_memForm {s t : State} (hs : MemForm s) (h : execAuxAttempt s = .next t) :
    MemForm t := by
  refine memForm_next h ?_
  simp only [MemForm, State.waitUntil_same, State.setAux_memForm, hs, Nat.reduceAnd,
    apply_ite (State.except 103079215103), apply_ite State.mem, apply_ite memWf, ite_self]

theorem execAuxAttemptCheck_memForm {s t : State} (hs : MemForm s) {mv : BitVec 16}
    (h : execAuxAttemptCheck mv s = .next t) :
    MemForm t := by
  refine memForm_next h ?_
  simp only [MemForm, State.waitUntil_same, State.wr_same, State.setAux_memForm, State.auxFail_memForm, hs,
    Nat.reduceAnd, apply_ite (State.except 103079215103), apply_ite State.mem, apply_ite memWf, ite_self]

theorem execAuxDrop_memForm {s t : State} (hs : MemForm s) {mv : BitVec 16} (h : execAuxDrop mv s = .next t) :
    MemForm t := by
  refine memForm_next h ?_
  simp only [MemForm, State.wr_same, State.auxFail_memForm, hs, Nat.reduceAnd, apply_ite (State.except 103079215103),
    apply_ite State.mem, apply_ite memWf, ite_self]

theorem execPmuAuxRetry_memForm {s t : State} (hs : MemForm s) {w : RegWrite} (h : execPmuAuxRetry w s = .next t) :
    MemForm t :=
  memForm_next h (State.writeReg_memForm hs _ _ _ _ _ fun _ q d hu => pmuWrite_memForm hu q d)

theorem execPmuAuxEn_memForm {s t : State} (hs : MemForm s) {on : Bool} {w : RegWrite}
    (h : execPmuAuxEn on w s = .next t) :
    MemForm t :=
  memForm_next h (State.writeReg_memForm hs _ _ _ _ _ fun _ q d hu => pmuWrite_memForm hu q d)

theorem execWriteBlockAssert_memForm {s t : State} (hs : MemForm s) {cut : BitVec 12}
    (h : execWriteBlockAssert cut s = .next t) :
    MemForm t := by
  refine memForm_next h ?_
  simp only [MemForm, State.blockAssert_memForm, hs]

theorem execCutoffWarning_memForm {s t : State} (hs : MemForm s) {vbat : BitVec 16}
    (h : execCutoffWarning vbat s = .next t) :
    MemForm t := by
  refine memForm_next h ?_
  simp only [MemForm, State.wr_same, State.cutNotice_same, State.cutWarn_memForm, hs, Nat.reduceAnd,
    apply_ite (State.except 103079215103), apply_ite State.mem, apply_ite memWf, ite_self]

theorem execPmuCutack_memForm {s t : State} (hs : MemForm s) {w : RegWrite} (h : execPmuCutack w s = .next t) :
    MemForm t :=
  memForm_next h (State.writeReg_memForm hs _ _ _ _ _ fun _ q d hu => pmuWrite_memForm hu q d)

theorem execHardCutoff_memForm {s t : State} (hs : MemForm s) {vbat : BitVec 16}
    (h : execHardCutoff vbat s = .next t) :
    MemForm t := by
  refine memForm_next h ?_
  simp only [MemForm, State.wr_same, State.setPmu_same, State.cutWarn_memForm, hs, Nat.reduceAnd,
    apply_ite (State.except 103079215103), apply_ite State.mem, apply_ite memWf, ite_self]

theorem execCutoffSequence_memForm {s t : State} (hs : MemForm s) (h : execCutoffSequence s = .next t) :
    MemForm t := by
  refine memForm_next h ?_
  simp only [MemForm, State.log_same, State.drainEvents_same, State.setPst_same, except_upd_start,
    State.powerDown_memForm, hs, Nat.reduceAnd, apply_ite (State.except 103079215103), apply_ite State.mem,
    apply_ite memWf, ite_self]

theorem execPmuKilnArm_memForm {s t : State} (hs : MemForm s) {w : RegWrite} (h : execPmuKilnArm w s = .next t) :
    MemForm t :=
  memForm_next h (State.writeReg_memForm hs _ _ _ _ _ fun _ q d hu => pmuWrite_memForm hu q d)

theorem execPmuKilnGo_memForm {s t : State} (hs : MemForm s) {w : RegWrite} (h : execPmuKilnGo w s = .next t) :
    MemForm t :=
  memForm_next h (State.writeReg_memForm hs _ _ _ _ _ fun _ q d hu => pmuWrite_memForm hu q d)

theorem execPmuKilnConfirm_memForm {s t : State} (hs : MemForm s) {w : RegWrite}
    (h : execPmuKilnConfirm w s = .next t) :
    MemForm t :=
  memForm_next h (State.writeReg_memForm hs _ _ _ _ _ fun _ q d hu => pmuWrite_memForm hu q d)

theorem execDegradeDescent_memForm {s t : State} (hs : MemForm s) (h : execDegradeDescent s = .next t) :
    MemForm t := by
  refine memForm_next h ?_
  simp only [MemForm, State.transition_memForm, hs, apply_ite (State.except 103079215103), apply_ite State.mem,
    apply_ite memWf, ite_self]

theorem execDegradeAscent_memForm {s t : State} (hs : MemForm s) (h : execDegradeAscent s = .next t) :
    MemForm t := by
  refine memForm_next h ?_
  simp only [MemForm, State.transition_memForm, hs, apply_ite (State.except 103079215103), apply_ite State.mem,
    apply_ite memWf, ite_self]

theorem execInspectExpire_memForm {s t : State} (hs : MemForm s) (h : execInspectExpire s = .next t) :
    MemForm t := by
  refine memForm_next h ?_
  simp only [MemForm, State.waitUntil_same, State.transition_memForm, hs, Nat.reduceAnd,
    apply_ite (State.except 103079215103), apply_ite State.mem, apply_ite memWf, ite_self]

theorem execColdStart_memForm {s t : State} (hs : MemForm s) {otpOk : Bool} (h : execColdStart otpOk s = .next t) :
    MemForm t := by
  refine memForm_next h ?_
  simp only [MemForm, State.countStart_same, State.resetRecord_same, State.startLevel_same, State.railsFollow_same,
    State.loadOtp_same, State.loadIdentity_same, State.restoreSlots_same, State.blockRelease_same,
    State.startStores_same, State.setCcx_same, except_upd_start, State.auxFollow_memForm, hs, Nat.reduceAnd,
    apply_ite (State.except 103079215103), apply_ite State.mem, apply_ite memWf, ite_self]

theorem execSystemReset_memForm {s t : State} (hs : MemForm s) {debug : Bool}
    (h : execSystemReset debug s = .next t) :
    MemForm t := by
  refine memForm_next h ?_
  simp only [MemForm, State.systemReset_memForm, hs, apply_ite (State.except 103079215103), apply_ite State.mem,
    apply_ite memWf, ite_self]

theorem execHostRead_memForm {s t : State} (hs : MemForm s) {r : HostReq} (h : execHostRead r s = .next t) :
    MemForm t := by
  refine memForm_next h ?_
  simp only [MemForm, State.hostFrame_memForm, hs]

theorem execHostWrite_memForm {s t : State} (hs : MemForm s) {r : HostReq} (h : execHostWrite r s = .next t) :
    MemForm t := by
  refine memForm_next h ?_
  simp only [MemForm, State.hostFrame_memForm, hs]

theorem execLockpair_memForm {s t : State} (hs : MemForm s) {r : HostReq} (h : execLockpair r s = .next t) :
    MemForm t := by
  refine memForm_next h ?_
  simp only [MemForm, State.hostFrame_memForm, hs]

theorem execOpenSession_memForm {s t : State} (hs : MemForm s) {r : HostReq} (h : execOpenSession r s = .next t) :
    MemForm t := by
  refine memForm_next h ?_
  simp only [MemForm, State.hostFrame_memForm, hs]

theorem execProve_memForm {s t : State} (hs : MemForm s) {r : HostReq} (h : execProve r s = .next t) :
    MemForm t := by
  refine memForm_next h ?_
  simp only [MemForm, State.hostFrame_memForm, hs]

theorem execCloseSession_memForm {s t : State} (hs : MemForm s) {r : HostReq} (h : execCloseSession r s = .next t) :
    MemForm t := by
  refine memForm_next h ?_
  simp only [MemForm, State.hostFrame_memForm, hs]

theorem execDiscover_memForm {s t : State} (hs : MemForm s) {r : HostReq} (h : execDiscover r s = .next t) :
    MemForm t := by
  refine memForm_next h ?_
  simp only [MemForm, State.hostFrame_memForm, hs]

theorem execEthTxDesc_memForm {s t : State} (hs : MemForm s) (h : execEthTxDesc s = .next t) :
    MemForm t := by
  refine memForm_next h ?_
  simp only [MemForm, State.wr_same, State.send_same, State.descDone_memForm, hs, Nat.reduceAnd,
    apply_ite (State.except 103079215103), apply_ite State.mem, apply_ite memWf, ite_self]

theorem execEthRxFrame_memForm {s t : State} (hs : MemForm s) {frame : List Byte}
    (h : execEthRxFrame frame s = .next t) :
    MemForm t := by
  refine memForm_next h ?_
  dsimp only
  repeat' split
  case isFalse.isFalse.isFalse =>
    refine State.descDone_memForm (State.sysStore_memForm (State.sysStore_memForm ?_ _ _) _ _) _ _
    simp only [MemForm, State.wr_same, hs, Nat.reduceAnd]
  all_goals simp only [MemForm, State.descDone_memForm, State.count_same, State.wr_same, hs, Nat.reduceAnd]

theorem execVsysPowerDown_memForm {s t : State} (hs : MemForm s) (h : execVsysPowerDown s = .next t) :
    MemForm t := by
  refine memForm_next h ?_
  simp only [MemForm, State.setPst_same, except_upd_start, State.powerDown_memForm, hs, Nat.reduceAnd,
    apply_ite (State.except 103079215103), apply_ite State.mem, apply_ite memWf, ite_self]

theorem metering_memForm {c : Instr} {l : List Part} (hl : touchesMetering c = some l) {s t : State} (hs : MemForm s)
    (he : exec c s = .next t) : MemForm t := by
  by_cases hm : .mem ∈ l
  · cases c
    case configWrite => exact execConfigWrite_memForm hs he
    case ctrlPrst => exact execCtrlPrst_memForm hs he
    case lockWrite => exact execLockWrite_memForm hs he
    case irqClr => exact execIrqClr_memForm hs he
    case ctfReacq => exact execCtfReacq_memForm hs he
    case seed => exact execSeed_memForm hs he
    case activate => exact execActivate_memForm hs he
    case suspend => exact execSuspend_memForm hs he
    case resume => exact execResume_memForm hs he
    case softReset => exact execSoftReset_memForm hs he
    case fullReset => exact execFullReset_memForm hs he
    case tenantResetDone => exact execTenantResetDone_memForm hs he
    case tncCxSoftrst => exact execTncCxSoftrst_memForm hs he
    case grant => exact execGrant_memForm hs he
    case revoke => exact execRevoke_memForm hs he
    case aliasMap => exact execAliasMap_memForm hs he
    case tncSealReq => exact execTncSealReq_memForm hs he
    case tncUnsealArm => exact execTncUnsealArm_memForm hs he
    case tncUnsealReq => exact execTncUnsealReq_memForm hs he
    case itemLatestTime => exact execItemLatestTime_memForm hs he
    case metrologyClose => exact execMetrologyClose_memForm hs he
    case hartMemoryAccess => exact execHartMemoryAccess_memForm hs he
    all_goals cases hl
    all_goals exact absurd hm (by decide)
  · exact memForm_of_mem hs (meteringFrame c s t l hl he .mem hm)

theorem inference_memForm {c : Instr} {l : List Part} (hl : touchesInference c = some l) {s t : State} (hs : MemForm s)
    (he : exec c s = .next t) : MemForm t := by
  by_cases hm : .mem ∈ l
  · cases c
    case tileComplete => exact execTileComplete_memForm hs he
    case routeOp => exact execRouteOp_memForm hs he
    case combineOp => exact execCombineOp_memForm hs he
    case barmRingPoll => exact execBarmRingPoll_memForm hs he
    case barmKick => exact execBarmKick_memForm hs he
    case windowBoundary => exact execWindowBoundary_memForm hs he
    case insightDeliver => exact execInsightDeliver_memForm hs he
    case listComplete => exact execListComplete_memForm hs he
    case barmRecordRelease => exact execBarmRecordRelease_memForm hs he
    case mgcWatchdog => exact execMgcWatchdog_memForm hs he
    case reloadComplete => exact execReloadComplete_memForm hs he
    all_goals cases hl
    all_goals exact absurd hm (by decide)
  · exact memForm_of_mem hs (inferenceFrame c s t l hl he .mem hm)

theorem networks_memForm {c : Instr} {l : List Part} (hl : touchesNetworks c = some l) {s t : State} (hs : MemForm s)
    (he : exec c s = .next t) : MemForm t := by
  by_cases hm : .mem ∈ l
  · cases c
    case toneTransmit => exact execToneTransmit_memForm hs he
    case toneTxComplete => exact execToneTxComplete_memForm hs he
    case toneReceive => exact execToneReceive_memForm hs he
    case driverFault => exact execDriverFault_memForm hs he
    case pulseSlotDecide => exact execPulseSlotDecide_memForm hs he
    case downlinkRequest => exact execDownlinkRequest_memForm hs he
    case downlinkTimeout => exact execDownlinkTimeout_memForm hs he
    case plmRingPoll => exact execPlmRingPoll_memForm hs he
    case accessSlot => exact execAccessSlot_memForm hs he
    case ackTimeout => exact execAckTimeout_memForm hs he
    case nodeUplink => exact execNodeUplink_memForm hs he
    case nodeLeave => exact execNodeLeave_memForm hs he
    case nodeDeparted => exact execNodeDeparted_memForm hs he
    case nrelay => exact execNrelay_memForm hs he
    case storedUplinkDeliver => exact execStoredUplinkDeliver_memForm hs he
    all_goals cases hl
    all_goals exact absurd hm (by decide)
  · exact memForm_of_mem hs (networksFrame c s t l hl he .mem hm)

theorem support_memForm {c : Instr} {l : List Part} (hl : touchesSupport c = some l) {s t : State} (hs : MemForm s)
    (he : exec c s = .next t) : MemForm t := by
  by_cases hm : .mem ∈ l
  · cases c
    case exportComplete => exact execExportComplete_memForm hs he
    case secRingPoll => exact execSecRingPoll_memForm hs he
    case sha256 => exact execSha256_memForm hs he
    case hmac => exact execHmac_memForm hs he
    case ccmEnc => exact execCcmEnc_memForm hs he
    case ccmDec => exact execCcmDec_memForm hs he
    case sign => exact execSign_memForm hs he
    case verify => exact execVerify_memForm hs he
    case ecdh => exact execEcdh_memForm hs he
    case random => exact execRandom_memForm hs he
    case load => exact execLoad_memForm hs he
    case generate => exact execGenerate_memForm hs he
    case erase => exact execErase_memForm hs he
    case pubkey => exact execPubkey_memForm hs he
    case secOpComplete => exact execSecOpComplete_memForm hs he
    case eraseDeadline => exact execEraseDeadline_memForm hs he
    case secRbadv => exact execSecRbadv_memForm hs he
    case secRevk0 => exact execSecRevk0_memForm hs he
    case secRevk1 => exact execSecRevk1_memForm hs he
    case secIdarm => exact execSecIdarm_memForm hs he
    case secIdretire => exact execSecIdretire_memForm hs he
    case celRingPoll => exact execCelRingPoll_memForm hs he
    case celRead => exact execCelRead_memForm hs he
    case celWrite => exact execCelWrite_memForm hs he
    case celZero => exact execCelZero_memForm hs he
    case celCommandComplete => exact execCelCommandComplete_memForm hs he
    case vinPresent => exact execVinPresent_memForm hs he
    case powerUp => exact execPowerUp_memForm hs he
    case railFault => exact execRailFault_memForm hs he
    case auxAttempt => exact execAuxAttempt_memForm hs he
    case auxAttemptCheck => exact execAuxAttemptCheck_memForm hs he
    case auxDrop => exact execAuxDrop_memForm hs he
    case pmuAuxRetry => exact execPmuAuxRetry_memForm hs he
    case pmuAuxEn => exact execPmuAuxEn_memForm hs he
    case writeBlockAssert => exact execWriteBlockAssert_memForm hs he
    case cutoffWarning => exact execCutoffWarning_memForm hs he
    case pmuCutack => exact execPmuCutack_memForm hs he
    case hardCutoff => exact execHardCutoff_memForm hs he
    case cutoffSequence => exact execCutoffSequence_memForm hs he
    case pmuKilnArm => exact execPmuKilnArm_memForm hs he
    case pmuKilnGo => exact execPmuKilnGo_memForm hs he
    case pmuKilnConfirm => exact execPmuKilnConfirm_memForm hs he
    case degradeDescent => exact execDegradeDescent_memForm hs he
    case degradeAscent => exact execDegradeAscent_memForm hs he
    case inspectExpire => exact execInspectExpire_memForm hs he
    case coldStart => exact execColdStart_memForm hs he
    case systemReset => exact execSystemReset_memForm hs he
    case hostRead => exact execHostRead_memForm hs he
    case hostWrite => exact execHostWrite_memForm hs he
    case lockpair => exact execLockpair_memForm hs he
    case openSession => exact execOpenSession_memForm hs he
    case prove => exact execProve_memForm hs he
    case closeSession => exact execCloseSession_memForm hs he
    case discover => exact execDiscover_memForm hs he
    case ethTxDesc => exact execEthTxDesc_memForm hs he
    case ethRxFrame => exact execEthRxFrame_memForm hs he
    case vsysPowerDown => exact execVsysPowerDown_memForm hs he
    all_goals cases hl
    all_goals exact absurd hm (by decide)
  · exact memForm_of_mem hs (supportFrame c s t l hl he .mem hm)

/-- No command takes the memory out of canonical form. -/
theorem exec_memForm {c : Instr} {s t : State} (hs : MemForm s) (h : exec c s = .next t) : MemForm t := by
  obtain ⟨l, hf, -⟩ := frame_without_queue c
  simp only [Option.or_eq_some_iff] at hf
  obtain hf | ⟨-, hf | ⟨-, hf | ⟨-, hf⟩⟩⟩ := hf
  · exact metering_memForm hf hs h
  · exact inference_memForm hf hs h
  · exact networks_memForm hf hs h
  · exact support_memForm hf hs h

/-- Settles O6: a command that lists the memory writes it through operations that keep its form, any other leaves it. -/
theorem stepKeepsMemoryForm : Obligations.StepKeepsMemoryForm := by
  intro s t hs h
  rw [← memForm_iff] at hs ⊢
  cases hq : s.pending with
  | nil =>
    rw [stepRunsFrontCommand.2 s hq] at h
    cases h
    exact memForm_of_mem hs (advance_frame s 1 .mem (by decide))
  | cons c rest =>
    rw [step_front hq] at h
    exact exec_memForm (s := { s with pending := rest }) hs h

end Sys2Proof.Machine

/-! ## The register pages that events write -/

namespace Sys2Proof.Machine

open Reg

/-- The words of the register space outside the pages of `P`. -/
def regsPast (P : List Nat) (s : State) (page off : Nat) : Option Nat :=
  if page < 1024 ∧ off < 4096 ∧ P.contains page = false then some (s.reg page off) else none

/-- The words outside the pages of `P`, said of the state with every part but the registers blanked, so that the frames
of operations which leave the registers apply. -/
abbrev Past (P : List Nat) (s : State) : Nat → Nat → Option Nat := regsPast P (State.except 137438953470 s)

theorem past_iff {P : List Nat} {s t : State} : Past P t = Past P s ↔ RegsBut P.contains s t := by
  constructor
  · intro h page off hp ho hP
    have word := congrFun (congrFun h page) off
    simp only [Past, regsPast, if_pos (And.intro hp (And.intro ho hP)), Option.some.injEq] at word
    exact word
  · intro h
    funext page off
    unfold Past regsPast
    split
    · next hc =>
      obtain ⟨hp, ho, hP⟩ := hc
      exact congrArg some (h page off hp ho hP)
    · rfl

theorem past_of_except {P : List Nat} {s t : State} (h : t.except 137438953470 = s.except 137438953470) :
    Past P t = Past P s := by unfold Past; rw [h]

/-- A field of one word in the page `p`. -/
def Fld.lies (f : Fld) (p : Nat) : Bool := f.page == p && decide (f.width ≤ 32) && decide (f.off < 4096)

theorem Fld.lies_iff {f : Fld} {p : Nat} : f.lies p = true ↔ f.page = p ∧ f.width ≤ 32 ∧ f.off < 4096 := by
  simp only [Fld.lies, Bool.and_eq_true, beq_iff_eq, decide_eq_true_eq, and_assoc]

section
variable {P : List Nat} {p : Nat} (hp : P.contains p = true)
include hp

theorem State.wr_past {f : Fld} (hf : f.lies p = true) (s : State) (v : Nat) : Past P (s.wr f v) = Past P s := by
  obtain ⟨hpage, hw, ho⟩ := Fld.lies_iff.mp hf
  refine past_iff.mpr fun page off _ hoff hP => ?_
  have apart : page ≠ p := fun e => by rw [e, hp] at hP; exact Bool.noConfusion hP
  rw [State.wr, if_pos hw, reg_setReg_other]
  unfold regKey
  omega

theorem State.count_past {f : Fld} (hf : f.lies p = true) (s : State) (n : Nat) : Past P (s.count f n) = Past P s :=
  s.wr_past hp hf _

theorem State.raise_past (s : State) (b : Nat) : Past P (s.raise p b) = Past P s :=
  s.wr_past hp (Fld.lies_iff.mpr ⟨rfl, Nat.le_refl _, (by decide : 0x10 < 4096)⟩) _

theorem State.wr64_past {lo hi : Fld} (hl : lo.lies p = true) (hh : hi.lies p = true) (s : State) (v : Nat) :
    Past P (s.wr64 lo hi v) = Past P s :=
  (State.wr_past hp hh _ _).trans (State.wr_past hp hl _ _)

end

theorem foldl_past {P : List Nat} {α : Type} {g : State → α → State} (h : ∀ u x, Past P (g u x) = Past P u)
    (l : List α)
    (s : State) : Past P (l.foldl g s) = Past P s := by
  induction l generalizing s with
  | nil => rfl
  | cons x r ih => exact (ih (g s x)).trans (h s x)

/-! ### The operations that write registers -/

theorem State.switchTo_past {P : List Nat} (hP : P.contains 0x010 = true) (s : State) (c : Nat) (kind : Nat) :
    Past P (State.switchTo s c kind) = Past P s := by
  unfold State.switchTo
  simp +decide only [Past, State.wr_past hP, State.count_past hP, State.raise_past hP, State.log_same,
    except_upd_ctf, Nat.reduceAnd]

theorem State.plicClaim_past {P : List Nat} (hP : P.contains 0x0A8 = true) (s : State) (ctx : Nat) :
    Past P (State.plicClaim s ctx).2 = Past P s := by
  unfold State.plicClaim
  dsimp only
  repeat' split
  all_goals
    simp +decide only [Past, State.setCcx_same, State.wr_past hP, Nat.reduceAnd]

theorem State.alignShow_past {P : List Nat} (hP : P.contains 0x0C0 = true) (s : State) :
    Past P (State.alignShow s) = Past P s := by
  unfold State.alignShow
  simp +decide only [Past, State.wr_past hP, State.raise_past hP, State.count_past hP,
    apply_ite (State.except 137438953470), apply_ite (regsPast _), ite_self]

theorem State.offsetShow_past {P : List Nat} (hP : P.contains 0x0C0 = true) (s : State) :
    Past P (State.offsetShow s) = Past P s := by
  unfold State.offsetShow
  simp +decide only [Past, State.wr_past hP]

theorem State.setChg_past {P : List Nat} (hP : P.contains 0x0E8 = true) (s : State) (c : Nat) :
    Past P (State.setChg s c) = Past P s := by
  unfold State.setChg
  simp +decide only [Past, State.wr_past hP, State.raise_past hP, apply_ite (State.except 137438953470),
    apply_ite (regsPast _), ite_self]

theorem State.chgBegin_past {P : List Nat} (hP : P.contains 0x0E8 = true) (s : State) :
    Past P (State.chgBegin s) = Past P s := by
  unfold State.chgBegin
  simp only [Past, State.setPmu_same, State.setChg_past hP, Nat.reduceAnd]

theorem State.learnEnd_past {P : List Nat} (hP : P.contains 0x0E0 = true) (s : State) (c : Status) :
    Past P (State.learnEnd s c) = Past P s := by
  unfold State.learnEnd
  simp +decide only [Past, State.wr_past hP, State.raise_past hP, State.setBga_same, Nat.reduceAnd,
    apply_ite (State.except 137438953470), apply_ite (regsPast _), ite_self]

theorem State.burstEnd_past {P : List Nat} (hP : P.contains 0x080 = true) (s : State) (b : Burst) (c : Status) :
    Past P (State.burstEnd s b c) = Past P s := by
  unfold State.burstEnd
  simp +decide only [Past, State.wr_past hP, State.setTun_same, State.raise_past hP, Nat.reduceAnd]

theorem State.swcShow_past {P : List Nat} (hP : P.contains 0x0C0 = true) (s : State) :
    Past P (State.swcShow s) = Past P s := by
  unfold State.swcShow
  simp +decide only [Past, State.wr_past hP]

theorem State.enumerate_past {P : List Nat} (hP : P.contains 0x0C0 = true) (s : State) :
    Past P (State.enumerate s) = Past P s := by
  unfold State.enumerate
  simp +decide only [Past, State.setSwc_same, State.swcShow_past hP, State.wr_past hP, State.sendDown_same,
    Nat.reduceAnd, apply_ite (State.except 137438953470), apply_ite (regsPast _), ite_self]

theorem State.rtcAdvance_past {P : List Nat} (hP : P.contains 0x010 = true) (s : State) (n : Nat) :
    Past P (State.rtcAdvance s n) = Past P s := by
  unfold State.rtcAdvance
  simp +decide only [Past, State.wr_past hP, except_upd_ctf, Nat.reduceAnd]

theorem State.advance_past {P : List Nat} (hP : P.contains 0x010 = true) (s : State) (n : Nat) :
    Past P (State.advance s n) = Past P s := by
  unfold State.advance
  simp only [Past, State.rtcAdvance_past hP, except_upd_ticks_clk_ctf, Nat.reduceAnd]

theorem State.calEnd_past {P : List Nat} (hP : P.contains 0x029 = true) (s : State) (c : Status) :
    Past P (State.calEnd s c) = Past P s := by
  unfold State.calEnd
  simp +decide only [Past, State.wr_past hP, State.raise_past hP, except_upd_acs, Nat.reduceAnd]

theorem State.senseShow_past {P : List Nat} (hP : P.contains 0x0E0 = true) (s : State) :
    Past P (State.senseShow s) = Past P s := by
  unfold State.senseShow
  simp +decide only [Past, State.wr_past hP, State.raise_past hP, State.learnEnd_past hP,
    apply_ite (State.except 137438953470), apply_ite (regsPast _), ite_self]

theorem State.probeSettle_past {P : List Nat} (hP : P.contains 0x0E0 = true) (s : State) :
    Past P (State.probeSettle s) = Past P s := by
  unfold State.probeSettle
  simp only [Past, State.setBga_same, State.senseShow_past hP, Nat.reduceAnd]

theorem State.burstFall_past {P : List Nat} (hP : P.contains 0x080 = true) (s : State) (at' : Nat) :
    Past P (State.burstFall s at') = Past P s := by
  unfold State.burstFall
  simp +decide only [Past, State.wr64_past hP, State.setTun_same, Nat.reduceAnd]

theorem State.finalise_past {P : List Nat} (hP : P.contains 0x0C0 = true) (s : State) (r : SweepReport) :
    Past P (State.finalise s r) = Past P s := by
  unfold State.finalise
  simp only [Past, State.swcShow_past hP, State.raise_past hP]
  refine (foldl_past (fun u k => ?_) _ _).trans ?_
  · split
    · simp only [Past, apply_ite (State.except 137438953470), State.log_same, ite_self, Nat.reduceAnd]
    · rfl
  · simp only [Past, State.logReport_same, State.setReport_same, Nat.reduceAnd]

theorem State.waitUntil_past {P : List Nat} (hP : P.contains 0x010 = true) (s : State) (t : Nat) :
    Past P (State.waitUntil s t) = Past P s := by
  unfold State.waitUntil
  simp only [Past, State.advance_past hP, apply_ite (State.except 137438953470), apply_ite (regsPast _),
    ite_self]

theorem State.tmpShow_past {P : List Nat} (hP : P.contains 0x0C8 = true) (s : State) :
    Past P (State.tmpShow s) = Past P s := by
  unfold State.tmpShow
  simp +decide only [Past, State.wr_past hP]

theorem State.magRelease_past {P : List Nat} (hP : P.contains 0x0C8 = true) (s : State) (k : Nat) :
    Past P (State.magRelease s k) = Past P s := by
  unfold State.magRelease
  repeat' split
  all_goals
    simp only [Past, State.setTmp_same, State.tmpShow_past hP, State.raise_past hP, State.log_same,
      Nat.reduceAnd]

theorem State.encRelease_past {P : List Nat} (hP : P.contains 0x0C8 = true) (s : State) (k : Nat) :
    Past P (State.encRelease s k) = Past P s := by
  unfold State.encRelease
  repeat' split
  all_goals
    simp only [Past, State.setTmp_same, State.tmpShow_past hP, State.raise_past hP, State.log_same,
      Nat.reduceAnd]

theorem State.descDone_past {P : List Nat} (hP : P.contains 0x100 = true) (s : State) (a : Nat) (c : Status) :
    Past P (State.descDone s a c) = Past P s := by
  unfold State.descDone
  simp only [Past, State.sysStore_same, State.raise_past hP, Nat.reduceAnd]

theorem State.dropUnknown_past {P : List Nat} (hP : P.contains 0x0B8 = true) (s : State) :
    Past P (State.dropUnknown s) = Past P s := by
  unfold State.dropUnknown
  simp +decide only [Past, State.setPlm_same, State.count_past hP, Nat.reduceAnd]

theorem State.recordIssue_past {P : List Nat} (hP : P.contains 0x0B0 = true) (s : State) (i : Nat) (m : MapSet) :
    Past P (State.recordIssue s i m) = Past P s := by
  unfold State.recordIssue
  simp only [Past, State.setLink_same, State.raise_past hP, Nat.reduceAnd]

theorem State.issueSet_past {P : List Nat} (hP : P.contains 0x0B0 = true) (s : State) (i : Nat) :
    Past P (State.issueSet s i) = Past P s := by
  unfold State.issueSet
  simp only [Past, State.sendSet_same, State.recordIssue_past hP, Nat.reduceAnd]

theorem State.chainTake_past {P : List Nat} (hP : P.contains 0x0C0 = true) (s : State) (type : Nat) (len : Nat)
    (f : ChainFrame) :
    Past P (State.chainTake s type len f).2 = Past P s := by
  unfold State.chainTake
  repeat' split
  all_goals
    simp +decide only [Past, State.count_past hP]

theorem State.recordResult_past {P : List Nat} (hP : P.contains 0x0C0 = true) (s : State) (id : Nat) (eui : Nat)
    (code : Nat) (stamp : Nat) (datum : Nat) (fetched : Bool) :
    Past P (State.recordResult s id eui code stamp datum fetched) = Past P s := by
  unfold State.recordResult
  dsimp only
  repeat' split
  all_goals
    simp only [Past, State.setReport_same, State.logReport_same, State.log_same, State.raise_past hP,
      Nat.reduceAnd]

theorem State.hallShow_past {P : List Nat} (hP : P.contains 0x0C8 = true) (s : State) (k : Nat) (b : Nat) :
    Past P (State.hallShow s k b) = Past P s := by
  unfold State.hallShow
  simp +decide only [Past, State.wr_past hP, apply_ite (State.except 137438953470), apply_ite (regsPast _), ite_self]

theorem State.glitch_past {P : List Nat} (hP : P.contains 0x0C8 = true) (s : State) (k : Nat) (code : Nat)
    (data : Nat) :
    Past P (State.glitch s k code data) = Past P s := by
  unfold State.glitch
  repeat' split
  all_goals
    simp only [Past, State.setTmp_same, State.raise_past hP, State.log_same, Nat.reduceAnd]

theorem State.xt32Stops_past {P : List Nat} (hP0 : P.contains 0x010 = true) (hP1 : P.contains 0x0C8 = true)
    (s : State) :
    Past P (State.xt32Stops s) = Past P s := by
  unfold State.xt32Stops
  simp +decide only [Past, State.wr_past hP0, State.raise_past hP0, State.count_past hP1, State.glitch_past hP1,
    State.tmpShow_past hP1, except_upd_ctf, Nat.reduceAnd, apply_ite (State.except 137438953470),
    apply_ite (regsPast _), ite_self]

theorem State.installSet_past {P : List Nat} (hP : P.contains 0x0B0 = true) (s : State) (i : Nat) (m : MapSet) :
    Past P (State.installSet s i m) = Past P s := by
  unfold State.installSet
  simp only [Past, State.setLink_same, State.raise_past hP, Nat.reduceAnd]

/-! ### The events -/

theorem past_next {P : List Nat} {s t u : State} (h : (.next u : Result) = .next t) (e : Past P u = Past P s) :
    Past P t = Past P s := Host.Outcome.next.inj h ▸ e

/-- Taking in a chain frame leaves the words outside the page of the chain, whether the frame is good or not. -/
theorem chainTake_past_left {P : List Nat} (hP : P.contains 0x0C0 = true) {s u : State} {k n : Nat} {f : ChainFrame}
    {o : Option (List Byte)} (h : s.chainTake k n f = (o, u)) : Past P u = Past P s := by
  rw [← State.chainTake_past hP s k n f, h]

theorem ccxTc_lies : ∀ k : Fin 4, (CCX_C_TC k.val).lies 0x0A0 = true := by decide

theorem ccxTcv_lies : ∀ k : Fin 4, (CCX_C_TCV k.val).lies 0x0A0 = true := by decide

theorem gpioIn_lies : ∀ k : Fin 48, (GPIO_IN k.val).lies 0x110 = true := by decide

theorem gpioEvt_lies : ∀ k : Fin 48, (GPIO_EVT k.val).lies 0x110 = true := by decide

theorem tinCnt_lies : ∀ k : Fin 8, (TIN_CNT k.val).lies 0x114 = true := by decide

theorem execAlignExchange_past {P : List Nat} {s t : State} {t1 : BitVec 8} (h : execAlignExchange t1 s = .next t) :
    Past P t = Past P s := by
  refine past_next h ?_
  simp only [Past, State.setSwc_same, State.sendUp_same, Nat.reduceAnd,
    apply_ite (State.except 137438953470), ite_self]

theorem execArmWindowExpiry_past {P : List Nat} {s t : State} (h : execArmWindowExpiry s = .next t) :
    Past P t = Past P s := by
  refine past_next h ?_
  simp only [Past, State.setTnc_same, State.setCel_same, State.setSec_same, State.setPmu_same,
    State.setHif_same, Nat.reduceAnd]

theorem execBurstDrain_past {P : List Nat} {s t : State} (h : execBurstDrain s = .next t) :
    Past P t = Past P s := by
  refine past_next h ?_
  repeat' split
  all_goals
    simp only [Past, State.setTun_same, Nat.reduceAnd]

theorem execGrantRenew_past {P : List Nat} {s t : State} {stream : Fin 64} (h : execGrantRenew stream s = .next t) :
    Past P t = Past P s := by
  refine past_next h ?_
  repeat' split
  all_goals
    simp only [Past, State.sendMgmt_same, Nat.reduceAnd]

theorem execHelloSend_past {P : List Nat} {s t : State} (h : execHelloSend s = .next t) :
    Past P t = Past P s := by
  refine past_next h ?_
  simp only [Past, State.sendMgmt_same, Nat.reduceAnd, apply_ite (State.except 137438953470), ite_self]

theorem execRadvSend_past {P : List Nat} {s t : State} (h : execRadvSend s = .next t) :
    Past P t = Past P s := by
  refine past_next h ?_
  simp only [Past, State.sendMgmt_same, State.setPlm_same, Nat.reduceAnd,
    apply_ite (State.except 137438953470), ite_self]

theorem execRef48Retry_past {P : List Nat} {s t : State} {valid : Bool} (h : execRef48Retry valid s = .next t) :
    Past P t = Past P s := by
  refine past_next h ?_
  repeat' split
  all_goals
    simp only [Past, State.log_same, except_upd_ctf, Nat.reduceAnd]

theorem execRouteAge_past {P : List Nat} {s t : State} (h : execRouteAge s = .next t) :
    Past P t = Past P s := by
  refine past_next h ?_
  simp only [Past, State.setPlm_same, State.noteRoutes_same, Nat.reduceAnd,
    apply_ite (State.except 137438953470), ite_self]

theorem execStampCompare_past {P : List Nat} {s t : State} {hart : Fin 4} {write : Option (BitVec 64)}
    (h : execStampCompare hart write s = .next t) :
    Past P t = Past P s := by
  refine past_next h ?_
  repeat' split
  all_goals
    simp only [Past, State.setHart_same, State.compareStamp_same, Nat.reduceAnd]

theorem execTmapExpire_past {P : List Nat} {s t : State} (h : execTmapExpire s = .next t) :
    Past P t = Past P s := by
  refine past_next h ?_
  simp only [Past, State.setLink_same, Nat.reduceAnd, foldl_past, implies_true]

theorem execAcquireRestart_past {P : List Nat} (hP : P.contains 0x010 = true) {s t : State}
    (h : execAcquireRestart s = .next t) :
    Past P t = Past P s := by
  refine past_next h ?_
  simp +decide only [Past, State.count_past hP, except_upd_ctf, Nat.reduceAnd, apply_ite (State.except 137438953470),
    apply_ite (regsPast _), ite_self]

theorem execUtcLoad_past {P : List Nat} (hP : P.contains 0x010 = true) {s t : State} (h : execUtcLoad s = .next t) :
    Past P t = Past P s := by
  refine past_next h ?_
  repeat' split
  all_goals
    simp +decide only [Past, State.wr_past hP, State.raise_past hP, State.log_same, except_upd_ctf, Nat.reduceAnd]

theorem execRevert_past {P : List Nat} (hP : P.contains 0x010 = true) {s t : State} (h : execRevert s = .next t) :
    Past P t = Past P s := by
  refine past_next h ?_
  repeat' split
  all_goals
    simp only [Past, State.switchTo_past hP]

theorem execCutGrace_past {P : List Nat} (hP : P.contains 0x010 = true) {s t : State} (h : execCutGrace s = .next t) :
    Past P t = Past P s := by
  refine past_next h ?_
  repeat' split
  all_goals
    simp only [Past, State.waitUntil_past hP, State.setPmu_same, Nat.reduceAnd]

theorem execGlitchRunEnd_past {P : List Nat} (hP : P.contains 0x010 = true) {s t : State} {detector : Fin 8}
    (h : execGlitchRunEnd detector s = .next t) :
    Past P t = Past P s := by
  refine past_next h ?_
  dsimp only
  repeat' split
  all_goals
    simp only [Past, State.waitUntil_past hP, State.glitchEnd_same, Nat.reduceAnd]

theorem execLockoutEnd_past {P : List Nat} (hP : P.contains 0x010 = true) {s t : State} {iface : Fin 3}
    (h : execLockoutEnd iface s = .next t) :
    Past P t = Past P s := by
  refine past_next h ?_
  dsimp only
  repeat' split
  all_goals
    simp only [Past, State.waitUntil_past hP, State.setHif_same, Nat.reduceAnd]

theorem execNote_past {P : List Nat} (hP : P.contains 0x010 = true) {s t : State} {session : Fin 16}
    (h : execNote session s = .next t) :
    Past P t = Past P s := by
  refine past_next h ?_
  repeat' split
  all_goals
    simp only [Past, State.setSession_same, State.waitUntil_past hP, State.sendNote_same, Nat.reduceAnd]

theorem execFetchTimeout_past {P : List Nat} (hP0 : P.contains 0x010 = true)
    (hP1 : P.contains 0x0C0 = true) {s t : State} (h : execFetchTimeout s = .next t) :
    Past P t = Past P s := by
  refine past_next h ?_
  repeat' split
  all_goals
    simp +decide only [Past, State.waitUntil_past hP0, State.setSwc_same, State.wr_past hP1, Nat.reduceAnd]

theorem execXt32Restart_past {P : List Nat} (hP0 : P.contains 0x010 = true)
    (hP1 : P.contains 0x0C8 = true) {s t : State} (h : execXt32Restart s = .next t) :
    Past P t = Past P s := by
  refine past_next h ?_
  simp +decide only [Past, State.wr_past hP0, State.glitchEnd_same, State.tmpShow_past hP1, except_upd_ctf,
    Nat.reduceAnd, apply_ite (State.except 137438953470), apply_ite (regsPast _), ite_self]

theorem execClockGlitch_past {P : List Nat} (hP0 : P.contains 0x010 = true)
    (hP1 : P.contains 0x0C8 = true) {s t : State} {xt32 : Bool} (h : execClockGlitch xt32 s = .next t) :
    Past P t = Past P s := by
  refine past_next h ?_
  simp +decide only [Past, State.xt32Stops_past hP0 hP1, State.count_past hP1, State.glitch_past hP1,
    apply_ite (State.except 137438953470), apply_ite (regsPast _), ite_self]

theorem execXt32Stop_past {P : List Nat} (hP0 : P.contains 0x010 = true)
    (hP1 : P.contains 0x0C8 = true) {s t : State} (h : execXt32Stop s = .next t) :
    Past P t = Past P s := by
  refine past_next h ?_
  simp only [Past, State.xt32Stops_past hP0 hP1]

theorem execRbgRecover_past {P : List Nat} (hP0 : P.contains 0x010 = true)
    (hP1 : P.contains 0x0D0 = true) {s t : State} (h : execRbgRecover s = .next t) :
    Past P t = Past P s := by
  refine past_next h ?_
  simp +decide only [Past, State.waitUntil_past hP0, State.wr_past hP1, State.raise_past hP1,
    apply_ite (State.except 137438953470), apply_ite (regsPast _), ite_self]

theorem execKilnTimeout_past {P : List Nat} (hP0 : P.contains 0x010 = true)
    (hP1 : P.contains 0x0E8 = true) {s t : State} (h : execKilnTimeout s = .next t) :
    Past P t = Past P s := by
  refine past_next h ?_
  repeat' split
  all_goals
    simp +decide only [Past, State.waitUntil_past hP0, State.wr_past hP1, State.setPmu_same, except_upd_acc,
      Nat.reduceAnd]

theorem execChargeTimeout_past {P : List Nat} (hP0 : P.contains 0x010 = true)
    (hP1 : P.contains 0x0E8 = true) {s t : State} (h : execChargeTimeout s = .next t) :
    Past P t = Past P s := by
  refine past_next h ?_
  repeat' split
  all_goals
    simp only [Past, State.waitUntil_past hP0, State.setPmu_same, State.setChg_past hP1, Nat.reduceAnd]

theorem execAuxGoodHold_past {P : List Nat} (hP0 : P.contains 0x010 = true)
    (hP1 : P.contains 0x0E9 = true) {s t : State} (h : execAuxGoodHold s = .next t) :
    Past P t = Past P s := by
  refine past_next h ?_
  simp +decide only [Past, State.waitUntil_past hP0, State.wr_past hP1, apply_ite (State.except 137438953470),
    apply_ite (regsPast _), ite_self]

theorem execCalTimeout_past {P : List Nat} (hP : P.contains 0x029 = true) {s t : State}
    (h : execCalTimeout s = .next t) :
    Past P t = Past P s := by
  refine past_next h ?_
  repeat' split
  all_goals
    simp only [Past, State.calEnd_past hP]

theorem execBurstRepStart_past {P : List Nat} (hP : P.contains 0x080 = true) {s t : State}
    (h : execBurstRepStart s = .next t) :
    Past P t = Past P s := by
  refine past_next h ?_
  dsimp only
  repeat' split
  all_goals
    simp +decide only [Past, State.burstEnd_past hP, State.wr64_past hP, State.setTun_same, Nat.reduceAnd]

theorem execBurstRepEnd_past {P : List Nat} (hP : P.contains 0x080 = true) {s t : State}
    (h : execBurstRepEnd s = .next t) :
    Past P t = Past P s := by
  refine past_next h ?_
  dsimp only
  repeat' split
  all_goals
    simp only [Past, State.burstFall_past hP, State.burstEnd_past hP, State.setTun_same, Nat.reduceAnd]

theorem execCcxTctx_past {P : List Nat}
    (hP : P.contains 0x0A0 = true) {s t : State} {hart : Fin 4} {tc : Fin 64} {valid : Bool}
    (h : execCcxTctx hart tc valid s = .next t) :
    Past P t = Past P s := by
  refine past_next h ?_
  dsimp only
  repeat' split
  all_goals
    simp +decide only [Past, State.wr_past hP (ccxTc_lies _), State.wr_past hP (ccxTcv_lies _), State.count_past hP,
      State.log_same, State.setHart_same, Nat.reduceAnd]

theorem execDdrInitDone_past {P : List Nat} (hP : P.contains 0x0A2 = true) {s t : State}
    (h : execDdrInitDone s = .next t) :
    Past P t = Past P s := by
  refine past_next h ?_
  simp +decide only [Past, State.setCcx_same, State.wr_past hP, State.raise_past hP, Nat.reduceAnd,
    apply_ite (State.except 137438953470), apply_ite (regsPast _), ite_self]

theorem execDdrTrainTimeout_past {P : List Nat} (hP : P.contains 0x0A2 = true) {s t : State}
    (h : execDdrTrainTimeout s = .next t) :
    Past P t = Past P s := by
  refine past_next h ?_
  simp +decide only [Past, State.setCcx_same, State.wr_past hP, State.raise_past hP, Nat.reduceAnd,
    apply_ite (State.except 137438953470), apply_ite (regsPast _), ite_self]

theorem execPlicClaim_past {P : List Nat} (hP : P.contains 0x0A8 = true) {s t : State} {context : Fin 8}
    (h : execPlicClaim context s = .next t) :
    Past P t = Past P s := by
  refine past_next h ?_
  simp only [Past, State.plicClaim_past hP, except_upd_resp, Nat.reduceAnd]

theorem execTmapRefresh_past {P : List Nat} (hP : P.contains 0x0B0 = true) {s t : State} {neighbour : Fin 64}
    (h : execTmapRefresh neighbour s = .next t) :
    Past P t = Past P s := by
  refine past_next h ?_
  simp only [Past, State.issueSet_past hP, apply_ite (State.except 137438953470), apply_ite (regsPast _),
    ite_self]

theorem execTmrsp_past {P : List Nat} (hP0 : P.contains 0x0B0 = true) (hP1 : P.contains 0x0B8 = true) {s t : State}
    (h : execTmrsp s = .next t) :
    Past P t = Past P s := by
  refine past_next h ?_
  split
  · exact State.dropUnknown_past hP1 s
  · next _ u hu =>
    refine Eq.trans ?_ (past_of_except (State.takeMgmt_same _ rfl _ _ _ hu))
    repeat' split
    all_goals
      simp +decide only [Past, State.count_past hP0, State.installSet_past hP0, State.noteRoutes_same, Nat.reduceAnd]

theorem execTmreq_past {P : List Nat} (hP0 : P.contains 0x0B0 = true) (hP1 : P.contains 0x0B8 = true) {s t : State}
    (h : execTmreq s = .next t) :
    Past P t = Past P s := by
  refine past_next h ?_
  split
  · exact State.dropUnknown_past hP1 s
  · next _ u hu =>
    refine Eq.trans ?_ (past_of_except (State.takeMgmt_same _ rfl _ _ _ hu))
    repeat' split
    all_goals
      simp only [Past, State.issueSet_past hP0, State.sendSet_same, Nat.reduceAnd]

theorem execReassemblyTimeout_past {P : List Nat} (hP : P.contains 0x0B8 = true) {s t : State}
    (h : execReassemblyTimeout s = .next t) :
    Past P t = Past P s := by
  refine past_next h ?_
  simp +decide only [Past, State.setPlm_same, State.count_past hP, Nat.reduceAnd]

theorem execSchedRequestLate_past {P : List Nat} (hP : P.contains 0x0B8 = true) {s t : State}
    (h : execSchedRequestLate s = .next t) :
    Past P t = Past P s := by
  refine past_next h ?_
  simp +decide only [Past, State.setPlm_same, State.count_past hP, Nat.reduceAnd]

theorem execRadv_past {P : List Nat} (hP : P.contains 0x0B8 = true) {s t : State} (h : execRadv s = .next t) :
    Past P t = Past P s := by
  refine past_next h ?_
  split
  · exact State.dropUnknown_past hP s
  · next _ u hu =>
    refine Eq.trans ?_ (past_of_except (State.takeMgmt_same _ rfl _ _ _ hu))
    repeat' split
    all_goals
      simp only [Past, State.setNb_same, State.noteRoutes_same, Nat.reduceAnd]

theorem execAlignTimeout_past {P : List Nat} (hP : P.contains 0x0C0 = true) {s t : State}
    (h : execAlignTimeout s = .next t) :
    Past P t = Past P s := by
  refine past_next h ?_
  simp only [Past, State.alignShow_past hP]

theorem execAlignreq_past {P : List Nat}
    (hP : P.contains 0x0C0 = true) {s t : State} {frame : ChainFrame} {t2 : BitVec 8} {turn : BitVec 32}
    (h : execAlignreq frame t2 turn s = .next t) :
    Past P t = Past P s := by
  refine past_next h ?_
  split
  · next u hu => exact chainTake_past_left hP hu
  · next b u hu =>
    refine Eq.trans ?_ (chainTake_past_left hP hu)
    dsimp only
    repeat' split
    all_goals
      simp only [Past, State.sendDown_same, Nat.reduceAnd]

theorem execCmdack_past {P : List Nat} (hP : P.contains 0x0C0 = true) {s t : State} {frame : ChainFrame}
    (h : execCmdack frame s = .next t) :
    Past P t = Past P s := by
  refine past_next h ?_
  split
  · next u hu => exact chainTake_past_left hP hu
  · next b u hu =>
    refine Eq.trans ?_ (chainTake_past_left hP hu)
    dsimp only
    repeat' split
    all_goals
      simp only [Past, State.relayUp_same, State.setReport_same, Nat.reduceAnd]

theorem execEnum_past {P : List Nat} (hP : P.contains 0x0C0 = true) {s t : State} {frame : ChainFrame}
    (h : execEnum frame s = .next t) :
    Past P t = Past P s := by
  refine past_next h ?_
  split
  · next u hu => exact chainTake_past_left hP hu
  · next b u hu =>
    refine Eq.trans ?_ (chainTake_past_left hP hu)
    dsimp only
    repeat' split
    all_goals
      simp +decide only [Past, State.wr_past hP, State.sendUp_same, State.sendDown_same, State.log_same,
        Nat.reduceAnd]

theorem execFetch_past {P : List Nat} (hP : P.contains 0x0C0 = true) {s t : State} {frame : ChainFrame}
    (h : execFetch frame s = .next t) :
    Past P t = Past P s := by
  refine past_next h ?_
  split
  · next u hu => exact chainTake_past_left hP hu
  · next b u hu =>
    refine Eq.trans ?_ (chainTake_past_left hP hu)
    dsimp only
    repeat' split
    all_goals
      simp only [Past, State.chainDown_same, State.sendUp_same, Nat.reduceAnd]

theorem execSweep_past {P : List Nat} (hP : P.contains 0x0C0 = true) {s t : State} {frame : ChainFrame}
    (h : execSweep frame s = .next t) :
    Past P t = Past P s := by
  refine past_next h ?_
  split
  · next u hu => exact chainTake_past_left hP hu
  · next b u hu =>
    refine Eq.trans ?_ (chainTake_past_left hP hu)
    dsimp only
    repeat' split
    all_goals
      simp only [Past, State.chainDown_same, State.setSwc_same, State.sendUp_same, Nat.reduceAnd]

theorem execResult_past {P : List Nat} (hP : P.contains 0x0C0 = true) {s t : State} {frame : ChainFrame}
    (h : execResult frame s = .next t) :
    Past P t = Past P s := by
  refine past_next h ?_
  split
  · next u hu => exact chainTake_past_left hP hu
  · next b u hu =>
    refine Eq.trans ?_ (chainTake_past_left hP hu)
    dsimp only
    repeat' split
    all_goals
      simp +decide only [Past, State.relayUp_same, State.recordResult_past hP, State.setSwc_same, State.wr_past hP,
        Nat.reduceAnd]

theorem execAlignrsp_past {P : List Nat}
    (hP : P.contains 0x0C0 = true) {s t : State} {frame : ChainFrame} {t4 : BitVec 8}
    (h : execAlignrsp frame t4 s = .next t) :
    Past P t = Past P s := by
  refine past_next h ?_
  split
  · next u hu => exact chainTake_past_left hP hu
  · next b u hu =>
    refine Eq.trans ?_ (chainTake_past_left hP hu)
    dsimp only
    repeat' split
    all_goals
      simp +decide only [Past, State.setSwc_same, State.wr_past hP, State.offsetShow_past hP,
        State.alignShow_past hP, Nat.reduceAnd]

theorem execLink_past {P : List Nat} (hP : P.contains 0x0C0 = true) {s t : State} {frame : ChainFrame}
    (h : execLink frame s = .next t) :
    Past P t = Past P s := by
  refine past_next h ?_
  split
  · next u hu => exact chainTake_past_left hP hu
  · next b u hu =>
    refine Eq.trans ?_ (chainTake_past_left hP hu)
    repeat' split
    all_goals
      simp only [Past, State.enumerate_past hP, State.relayUp_same, Nat.reduceAnd]

theorem execReportFinal_past {P : List Nat} (hP : P.contains 0x0C0 = true) {s t : State}
    (h : execReportFinal s = .next t) :
    Past P t = Past P s := by
  refine past_next h ?_
  dsimp only
  repeat' split
  all_goals
    simp only [Past, State.finalise_past hP, State.enumerate_past hP]

theorem execEncOpen_past {P : List Nat} (hP : P.contains 0x0C8 = true) {s t : State} {input : Fin 4}
    (h : execEncOpen input s = .next t) :
    Past P t = Past P s := by
  refine past_next h ?_
  simp +decide only [Past, State.setTmp_same, State.tmpShow_past hP, State.count_past hP, State.raise_past hP,
    State.log_same, Nat.reduceAnd, apply_ite (State.except 137438953470), apply_ite (regsPast _), ite_self]

theorem execSupplyGlitch_past {P : List Nat}
    (hP : P.contains 0x0C8 = true) {s t : State} {supply : Fin 6} {high : Bool}
    (h : execSupplyGlitch supply high s = .next t) :
    Past P t = Past P s := by
  refine past_next h ?_
  simp +decide only [Past, State.count_past hP, State.glitch_past hP]

theorem execTempBack_past {P : List Nat} (hP : P.contains 0x0C8 = true) {s t : State} {temp : BitVec 16}
    (h : execTempBack temp s = .next t) :
    Past P t = Past P s := by
  refine past_next h ?_
  dsimp only
  repeat' split
  all_goals
    simp only [Past, State.setTmp_same, State.tmpShow_past hP, State.raise_past hP, State.log_same,
      Nat.reduceAnd]

theorem execTempOut_past {P : List Nat}
    (hP : P.contains 0x0C8 = true) {s t : State} {valid : Bool} {temp : BitVec 16}
    (h : execTempOut valid temp s = .next t) :
    Past P t = Past P s := by
  refine past_next h ?_
  simp only [Past, State.setTmp_same, State.tmpShow_past hP, State.raise_past hP, State.log_same,
    Nat.reduceAnd, apply_ite (State.except 137438953470), apply_ite (regsPast _), ite_self]

theorem execEncClose_past {P : List Nat} (hP : P.contains 0x0C8 = true) {s t : State} {input : Fin 4}
    (h : execEncClose input s = .next t) :
    Past P t = Past P s := by
  refine past_next h ?_
  simp only [Past, State.encRelease_past hP]

theorem execMagOn_past {P : List Nat}
    (hP : P.contains 0x0C8 = true) {s t : State} {source : Fin 10} {b peak : BitVec 16}
    (h : execMagOn source b peak s = .next t) :
    Past P t = Past P s := by
  refine past_next h ?_
  simp +decide only [Past, State.hallShow_past hP, State.setTmp_same, State.tmpShow_past hP, State.count_past hP,
    State.raise_past hP, State.log_same, Nat.reduceAnd, apply_ite (State.except 137438953470),
    apply_ite (regsPast _), ite_self]

theorem execMagOff_past {P : List Nat}
    (hP : P.contains 0x0C8 = true) {s t : State} {source : Fin 10} {b : BitVec 16}
    (h : execMagOff source b s = .next t) :
    Past P t = Past P s := by
  refine past_next h ?_
  simp only [Past, State.hallShow_past hP, State.magRelease_past hP, apply_ite (State.except 137438953470),
    apply_ite (regsPast _), ite_self]

theorem execRbgFail_past {P : List Nat} (hP : P.contains 0x0D0 = true) {s t : State} (h : execRbgFail s = .next t) :
    Past P t = Past P s := by
  refine past_next h ?_
  simp +decide only [Past, State.wr_past hP, State.count_past hP, State.setSec_same, State.raise_past hP,
    Nat.reduceAnd, apply_ite (State.except 137438953470), apply_ite (regsPast _), ite_self]

theorem execBurstEdge_past {P : List Nat}
    (hP : P.contains 0x0E0 = true) {s t : State} {pre post : GaugeSample} {alone : Bool}
    (h : execBurstEdge pre post alone s = .next t) :
    Past P t = Past P s := by
  refine past_next h ?_
  simp +decide only [Past, State.count_past hP, State.wr_past hP, State.setBga_same, State.raise_past hP,
    Nat.reduceAnd, apply_ite (State.except 137438953470), apply_ite (regsPast _), ite_self]

theorem execOpenWireTest_past {P : List Nat} (hP : P.contains 0x0E0 = true) {s t : State} {before after : BitVec 16}
    (h : execOpenWireTest before after s = .next t) :
    Past P t = Past P s := by
  refine past_next h ?_
  repeat' split
  all_goals
    simp only [Past, State.setBga_same, State.probeSettle_past hP, Nat.reduceAnd]

theorem execChargeDone_past {P : List Nat} (hP : P.contains 0x0E8 = true) {s t : State}
    (h : execChargeDone s = .next t) :
    Past P t = Past P s := by
  refine past_next h ?_
  simp only [Past, State.setPmu_same, State.setChg_past hP, Nat.reduceAnd,
    apply_ite (State.except 137438953470), apply_ite (regsPast _), ite_self]

theorem execChargeTemp_past {P : List Nat} (hP : P.contains 0x0E8 = true) {s t : State} {ratio : Byte}
    (h : execChargeTemp ratio s = .next t) :
    Past P t = Past P s := by
  refine past_next h ?_
  simp only [Past, State.setPmu_same, State.setChg_past hP, Nat.reduceAnd,
    apply_ite (State.except 137438953470), apply_ite (regsPast _), ite_self]

theorem execChargeRestart_past {P : List Nat} (hP : P.contains 0x0E8 = true) {s t : State} {vbat : BitVec 16}
    (h : execChargeRestart vbat s = .next t) :
    Past P t = Past P s := by
  refine past_next h ?_
  simp +decide only [Past, State.wr_past hP, State.chgBegin_past hP, apply_ite (State.except 137438953470),
    apply_ite (regsPast _), ite_self]

theorem execAvsStep_past {P : List Nat} (hP : P.contains 0x0E9 = true) {s t : State} (h : execAvsStep s = .next t) :
    Past P t = Past P s := by
  refine past_next h ?_
  simp +decide only [Past, State.wr_past hP, apply_ite (State.except 137438953470), apply_ite (regsPast _), ite_self]

theorem execPhyPoll_past {P : List Nat} (hP : P.contains 0x100 = true) {s t : State} {link : Bool}
    (h : execPhyPoll link s = .next t) :
    Past P t = Past P s := by
  refine past_next h ?_
  simp +decide only [Past, State.send_same, State.wr_past hP, Nat.reduceAnd, apply_ite (State.except 137438953470),
    apply_ite (regsPast _), ite_self]

theorem execEthRxFrame_past {P : List Nat} (hP : P.contains 0x100 = true) {s t : State} {frame : List Byte}
    (h : execEthRxFrame frame s = .next t) :
    Past P t = Past P s := by
  refine past_next h ?_
  simp +decide only [Past, State.count_past hP, State.wr_past hP, State.descDone_past hP, State.sysStore_same,
    Nat.reduceAnd, apply_ite (State.except 137438953470), apply_ite (regsPast _), ite_self]

theorem execEthTxDesc_past {P : List Nat} (hP : P.contains 0x100 = true) {s t : State}
    (h : execEthTxDesc s = .next t) :
    Past P t = Past P s := by
  refine past_next h ?_
  simp +decide only [Past, State.wr_past hP, State.descDone_past hP, State.send_same, Nat.reduceAnd,
    apply_ite (State.except 137438953470), apply_ite (regsPast _), ite_self]

theorem execHspCsCut_past {P : List Nat} (hP : P.contains 0x104 = true) {s t : State} (h : execHspCsCut s = .next t) :
    Past P t = Past P s := by
  refine past_next h ?_
  simp +decide only [Past, State.count_past hP, apply_ite (State.except 137438953470), apply_ite (regsPast _),
    ite_self]

theorem execGpioEdge_past {P : List Nat} (hP : P.contains 0x110 = true) {s t : State} {pin : Fin 48} {level : Bool}
    (h : execGpioEdge pin level s = .next t) :
    Past P t = Past P s := by
  refine past_next h ?_
  dsimp only
  repeat' split
  all_goals
    simp only [Past, State.wr_past hP (gpioIn_lies _), State.wr_past hP (gpioEvt_lies _), State.raise_past hP]

theorem execTinChange_past {P : List Nat}
    (hP : P.contains 0x114 = true) {s t : State} {input : Fin 8} {level : Bool}
    (h : execTinChange input level s = .next t) :
    Past P t = Past P s := by
  refine past_next h ?_
  dsimp only
  repeat' split
  all_goals simp +decide only [Past, State.wr_past hP, State.count_past hP (tinCnt_lies _), State.raise_past hP]

/-- Settles O60: each event writes its registers through operations of its pages. -/
theorem eventPagesFrame : Obligations.EventPagesFrame := by
  intro c s t l hl he
  cases c
  case alignExchange => cases hl; exact past_iff.mp (execAlignExchange_past he)
  case armWindowExpiry => cases hl; exact past_iff.mp (execArmWindowExpiry_past he)
  case burstDrain => cases hl; exact past_iff.mp (execBurstDrain_past he)
  case grantRenew => cases hl; exact past_iff.mp (execGrantRenew_past he)
  case helloSend => cases hl; exact past_iff.mp (execHelloSend_past he)
  case radvSend => cases hl; exact past_iff.mp (execRadvSend_past he)
  case ref48Retry => cases hl; exact past_iff.mp (execRef48Retry_past he)
  case routeAge => cases hl; exact past_iff.mp (execRouteAge_past he)
  case stampCompare => cases hl; exact past_iff.mp (execStampCompare_past he)
  case tmapExpire => cases hl; exact past_iff.mp (execTmapExpire_past he)
  case acquireRestart => cases hl; exact past_iff.mp (execAcquireRestart_past rfl he)
  case utcLoad => cases hl; exact past_iff.mp (execUtcLoad_past rfl he)
  case revert => cases hl; exact past_iff.mp (execRevert_past rfl he)
  case cutGrace => cases hl; exact past_iff.mp (execCutGrace_past rfl he)
  case glitchRunEnd => cases hl; exact past_iff.mp (execGlitchRunEnd_past rfl he)
  case lockoutEnd => cases hl; exact past_iff.mp (execLockoutEnd_past rfl he)
  case note => cases hl; exact past_iff.mp (execNote_past rfl he)
  case fetchTimeout => cases hl; exact past_iff.mp (execFetchTimeout_past rfl rfl he)
  case xt32Restart => cases hl; exact past_iff.mp (execXt32Restart_past rfl rfl he)
  case clockGlitch => cases hl; exact past_iff.mp (execClockGlitch_past rfl rfl he)
  case xt32Stop => cases hl; exact past_iff.mp (execXt32Stop_past rfl rfl he)
  case rbgRecover => cases hl; exact past_iff.mp (execRbgRecover_past rfl rfl he)
  case kilnTimeout => cases hl; exact past_iff.mp (execKilnTimeout_past rfl rfl he)
  case chargeTimeout => cases hl; exact past_iff.mp (execChargeTimeout_past rfl rfl he)
  case auxGoodHold => cases hl; exact past_iff.mp (execAuxGoodHold_past rfl rfl he)
  case calTimeout => cases hl; exact past_iff.mp (execCalTimeout_past rfl he)
  case burstRepStart => cases hl; exact past_iff.mp (execBurstRepStart_past rfl he)
  case burstRepEnd => cases hl; exact past_iff.mp (execBurstRepEnd_past rfl he)
  case ccxTctx => cases hl; exact past_iff.mp (execCcxTctx_past rfl he)
  case ddrInitDone => cases hl; exact past_iff.mp (execDdrInitDone_past rfl he)
  case ddrTrainTimeout => cases hl; exact past_iff.mp (execDdrTrainTimeout_past rfl he)
  case plicClaim => cases hl; exact past_iff.mp (execPlicClaim_past rfl he)
  case tmapRefresh => cases hl; exact past_iff.mp (execTmapRefresh_past rfl he)
  case tmrsp => cases hl; exact past_iff.mp (execTmrsp_past rfl rfl he)
  case tmreq => cases hl; exact past_iff.mp (execTmreq_past rfl rfl he)
  case reassemblyTimeout => cases hl; exact past_iff.mp (execReassemblyTimeout_past rfl he)
  case schedRequestLate => cases hl; exact past_iff.mp (execSchedRequestLate_past rfl he)
  case radv => cases hl; exact past_iff.mp (execRadv_past rfl he)
  case alignTimeout => cases hl; exact past_iff.mp (execAlignTimeout_past rfl he)
  case alignreq => cases hl; exact past_iff.mp (execAlignreq_past rfl he)
  case cmdack => cases hl; exact past_iff.mp (execCmdack_past rfl he)
  case enum => cases hl; exact past_iff.mp (execEnum_past rfl he)
  case fetch => cases hl; exact past_iff.mp (execFetch_past rfl he)
  case sweep => cases hl; exact past_iff.mp (execSweep_past rfl he)
  case result => cases hl; exact past_iff.mp (execResult_past rfl he)
  case alignrsp => cases hl; exact past_iff.mp (execAlignrsp_past rfl he)
  case link => cases hl; exact past_iff.mp (execLink_past rfl he)
  case reportFinal => cases hl; exact past_iff.mp (execReportFinal_past rfl he)
  case encOpen => cases hl; exact past_iff.mp (execEncOpen_past rfl he)
  case supplyGlitch => cases hl; exact past_iff.mp (execSupplyGlitch_past rfl he)
  case tempBack => cases hl; exact past_iff.mp (execTempBack_past rfl he)
  case tempOut => cases hl; exact past_iff.mp (execTempOut_past rfl he)
  case encClose => cases hl; exact past_iff.mp (execEncClose_past rfl he)
  case magOn => cases hl; exact past_iff.mp (execMagOn_past rfl he)
  case magOff => cases hl; exact past_iff.mp (execMagOff_past rfl he)
  case rbgFail => cases hl; exact past_iff.mp (execRbgFail_past rfl he)
  case burstEdge => cases hl; exact past_iff.mp (execBurstEdge_past rfl he)
  case openWireTest => cases hl; exact past_iff.mp (execOpenWireTest_past rfl he)
  case chargeDone => cases hl; exact past_iff.mp (execChargeDone_past rfl he)
  case chargeTemp => cases hl; exact past_iff.mp (execChargeTemp_past rfl he)
  case chargeRestart => cases hl; exact past_iff.mp (execChargeRestart_past rfl he)
  case avsStep => cases hl; exact past_iff.mp (execAvsStep_past rfl he)
  case phyPoll => cases hl; exact past_iff.mp (execPhyPoll_past rfl he)
  case ethRxFrame => cases hl; exact past_iff.mp (execEthRxFrame_past rfl he)
  case ethTxDesc => cases hl; exact past_iff.mp (execEthTxDesc_past rfl he)
  case hspCsCut => cases hl; exact past_iff.mp (execHspCsCut_past rfl he)
  case gpioEdge => cases hl; exact past_iff.mp (execGpioEdge_past rfl he)
  case tinChange => cases hl; exact past_iff.mp (execTinChange_past rfl he)
  all_goals cases hl

end Sys2Proof.Machine

/-! ## Reading a state after an operation -/

namespace Sys2Proof.Machine

open Reg

/-- The field `g` lies in its words and shares no bit with `f`. -/
def Fld.free (f g : Fld) : Bool := f.apart g && (decide (32 < g.width) || decide (g.lo + g.width ≤ 32))

theorem Fld.free_iff {f g : Fld} : f.free g = true ↔ f.apart g = true ∧ (g.width ≤ 32 → g.lo + g.width ≤ 32) := by
  simp only [Fld.free, Bool.and_eq_true, Bool.or_eq_true, decide_eq_true_eq]
  exact and_congr_right fun _ => by omega

theorem rd_wr_free {f g : Fld} (h : f.free g = true) (s : State) (v : Nat) : (s.wr f v).rd g = s.rd g :=
  rd_wr_apart s f g v (Fld.free_iff.mp h).1 (Fld.free_iff.mp h).2

theorem on_wr_free {f g : Fld} (h : f.free g = true) (s : State) (v : Nat) : (s.wr f v).on g = s.on g := by
  rw [State.on, rd_wr_free h, State.on]

theorem rd_count_free {f g : Fld} (h : f.free g = true) (s : State) (n : Nat) : (s.count f n).rd g = s.rd g :=
  rd_wr_free h s _

theorem on_count_free {f g : Fld} (h : f.free g = true) (s : State) (n : Nat) : (s.count f n).on g = s.on g :=
  on_wr_free h s _

theorem rd_raise_free {p : Nat} {g : Fld} (h : (IRQ_RAW p).free g = true) (s : State) (b : Nat) :
    (s.raise p b).rd g = s.rd g :=
  rd_wr_free h s _

theorem on_raise_free {p : Nat} {g : Fld} (h : (IRQ_RAW p).free g = true) (s : State) (b : Nat) :
    (s.raise p b).on g = s.on g :=
  on_wr_free h s _

theorem rd_wr64_free {lo hi g : Fld} (hl : lo.free g = true) (hh : hi.free g = true) (s : State) (v : Nat) :
    (s.wr64 lo hi v).rd g = s.rd g := by
  rw [State.wr64, rd_wr_free hh, rd_wr_free hl]

/-- A field just written with a value that fits it. -/
theorem rd_wr_lt {f : Fld} (h : f.narrow = true) {v : Nat} (hv : v < 2 ^ f.width) (s : State) : (s.wr f v).rd f = v := by
  rw [rd_wr_same s f v h, Nat.mod_eq_of_lt hv]

theorem on_wr_b2n {f : Fld} (h : f.narrow = true) (hw : 0 < f.width) (s : State) (b : Bool) :
    (s.wr f (b2n b)).on f = b := by
  have two : 2 ≤ 2 ^ f.width := Nat.le_self_pow (by omega) 2
  have fits : b2n b < 2 ^ f.width := by cases b <;> [exact Nat.lt_of_lt_of_le Nat.two_pos two; exact two]
  rw [State.on, rd_wr_lt h fits]
  cases b <;> rfl

theorem rd_lt (s : State) {f : Fld} (h : f.narrow = true) : s.rd f < 2 ^ f.width := by
  simp only [Fld.narrow, Bool.and_eq_true, decide_eq_true_eq] at h
  rw [State.rd, if_pos h.1]
  exact bits_lt _ _ _

/-! ### Bits of words -/

theorem bit_eq_testBit (n k : Nat) : bit n k = n.testBit k := by
  rw [bit, Nat.testBit_eq_decide_div_mod_eq]
  rfl

theorem bit_mod {n w k : Nat} (h : k < w) : bit (n % 2 ^ w) k = bit n k := by
  rw [bit_eq_testBit, bit_eq_testBit, Nat.testBit_mod_two_pow, decide_eq_true h, Bool.true_and]

theorem bit_ofNat {n k : Nat} (h : k < 32) : bit (BitVec.ofNat 32 n).toNat k = bit n k := by
  rw [BitVec.toNat_ofNat, bit_mod h]

/-- An interrupt just raised. -/
theorem bit_raise_same (s : State) (p : Nat) {b : Nat} (h : b < 32) : bit ((s.raise p b).rd (IRQ_RAW p)) b = true := by
  rw [State.raise, rd_wr_same _ _ _ rfl]
  exact (bit_mod h).trans (bit_setBit_same _ _)

/-- An interrupt stays raised when another is raised. -/
theorem bit_raise_of_bit (s : State) (p k : Nat) {b : Nat} (hb : b < 32) (h : bit (s.rd (IRQ_RAW p)) b = true) :
    bit ((s.raise p k).rd (IRQ_RAW p)) b = true := by
  rw [State.raise, rd_wr_same _ _ _ rfl]
  refine (bit_mod hb).trans ?_
  rw [bit_eq_testBit, testBit_setBit, ← bit_eq_testBit, h, Bool.true_or]

/-! ### States written out -/

section
variable (s : State) {inForce latch hold : List (Nat × Word)} {latched : List Nat} {pages : List (Nat × PageState)}
  {ticks clk : Nat} {events : List LogEvent} {resp : Response} {out : List Output} {free : Nat} {ctf : CtfState}
  {tnc : TncState} {acs : AcsState} {mte : MteState} {acc : AccState} {pqe : PqeState} {tun : TunState} {ltr : LtrState}
  {barm : BarmState} {ccx : CcxState} {cel : CelState} {plt : PltState} {plp : PlpState} {plm : PlmState}
  {tmp : TmpState} {clg : ClgState} {sec : SecState} {swc : SwcState} {bga : BgaState} {pmu : PmuState} {mon : MonState}
  {start : StartState} {hif : HifState} {mem : List Host.Cell} {pending : List Instr}

/-- A state written out reads the registers it was given. -/
@[simp] theorem rd_mk (f : Fld) :
    State.rd ⟨s.regs, inForce, latch, hold, latched, pages, ticks, clk, events, resp, out, free, ctf, tnc, acs, mte, acc,
      pqe, tun, ltr, barm, ccx, cel, plt, plp, plm, tmp, clg, sec, swc, bga, pmu, mon, start, hif, mem, pending⟩ f =
    s.rd f := by
  refine rd_of_regs ?_ f
  rfl

@[simp] theorem on_mk (f : Fld) :
    State.on ⟨s.regs, inForce, latch, hold, latched, pages, ticks, clk, events, resp, out, free, ctf, tnc, acs, mte, acc,
      pqe, tun, ltr, barm, ccx, cel, plt, plp, plm, tmp, clg, sec, swc, bga, pmu, mon, start, hif, mem, pending⟩ f =
    s.on f := by
  refine on_of_regs ?_ f
  rfl

@[simp] theorem reg_mk (p o : Nat) :
    State.reg ⟨s.regs, inForce, latch, hold, latched, pages, ticks, clk, events, resp, out, free, ctf, tnc, acs, mte, acc,
      pqe, tun, ltr, barm, ccx, cel, plt, plp, plm, tmp, clg, sec, swc, bga, pmu, mon, start, hif, mem, pending⟩ p o =
    s.reg p o := reg_of_regs (t := s) rfl p o

end

/-! ### What a frame tells of the registers -/

theorem regs_of_except {m : Nat} {s t : State} (h : t.except m = s.except m) (hm : m.testBit 0 = false) :
    t.regs = s.regs := by
  have regs := congrArg State.regs h
  simp only [State.except, blankIf, hm, Bool.false_eq_true, if_false] at regs
  exact regs

/-- A part of the state outside the mask of a frame. -/
theorem part_of_except {m : Nat} {s t : State} (h : t.except m = s.except m) (p : Part) (hp : m.testBit p.num = false) :
    p.same s t := by
  cases p
  case regs => exact regs_of_except h hp
  all_goals
    simp only [Part.num] at hp
    simp only [State.except, State.mk.injEq, blankIf, hp, Bool.false_eq_true, if_false] at h
    simp only [Part.same, h]

theorem rd_of_except {m : Nat} {s t : State} (h : t.except m = s.except m) (hm : m.testBit 0 = false) (f : Fld) :
    t.rd f = s.rd f :=
  rd_of_regs (regs_of_except h hm) f

/-- A field of one word outside the pages of `P`. -/
def Fld.outside (f : Fld) (P : List Nat) : Bool :=
  !P.contains f.page && decide (f.page < 1024) && decide (f.off < 4096) && decide (f.width ≤ 32)

theorem rd_of_past {P : List Nat} {s t : State} (h : Past P t = Past P s) {f : Fld} (hf : f.outside P = true) :
    t.rd f = s.rd f := by
  simp only [Fld.outside, Bool.and_eq_true, Bool.not_eq_true', decide_eq_true_eq] at hf
  obtain ⟨⟨⟨hP, hp⟩, ho⟩, hw⟩ := hf
  rw [State.rd, State.rd, if_pos hw, if_pos hw, past_iff.mp h f.page f.off hp ho hP]

theorem on_of_past {P : List Nat} {s t : State} (h : Past P t = Past P s) {f : Fld} (hf : f.outside P = true) :
    t.on f = s.on f := by
  rw [State.on, rd_of_past h hf, State.on]

/-- A field whose words all lie in the page `p`. -/
def Fld.spans (f : Fld) (p : Nat) : Bool := f.page == p && decide (f.off + 4 * f.words ≤ 4096)

/-- A write changes no word outside the page of its field. -/
theorem wr_past_spans {P : List Nat} {p : Nat} (hp : P.contains p = true) {f : Fld} (hf : f.spans p = true) (s : State)
    (v : Nat) : Past P (s.wr f v) = Past P s := by
  simp only [Fld.spans, Bool.and_eq_true, beq_iff_eq, decide_eq_true_eq] at hf
  obtain ⟨hpage, ho⟩ := hf
  refine past_iff.mpr fun page off _ hoff hP => ?_
  have apart : page ≠ p := fun e => by rw [e, hp] at hP; exact Bool.noConfusion hP
  refine reg_wr_other s f v page off ?_
  unfold Fld.key regKey
  omega

theorem foldl_mem_past {P : List Nat} {α : Type} {g : State → α → State} {l : List α}
    (h : ∀ u, ∀ x ∈ l, Past P (g u x) = Past P u) (s : State) : Past P (l.foldl g s) = Past P s := by
  induction l generalizing s with
  | nil => rfl
  | cons x r ih => exact (ih (fun u y hy => h u y (List.mem_cons_of_mem _ hy)) _).trans (h s x List.mem_cons_self)

/-! ### Commands that are an access -/

/-- A word of an assigned page that is written at once, not held. -/
def plainWord (page off : Nat) : Bool :=
  decide (page < 1024) && decide (off < 4096) && decide (off % 4 = 0) && RegMap.assigned page && !isHeldWord page off

theorem plainWord_iff {page off : Nat} : plainWord page off = true ↔
    page < 1024 ∧ off < 4096 ∧ off % 4 = 0 ∧ RegMap.assigned page = true ∧ isHeldWord page off = false := by
  simp only [plainWord, Bool.and_eq_true, decide_eq_true_eq, Bool.not_eq_true', and_assoc]

/-- An admitted write that its page performs. -/
theorem writeReg_ok {s u : State} {h : Writer} {page off : Nat} {w : RegWrite} {f : Nat → Nat}
    (hr : plainWord page off = true) (hw : s.admitsWrite page off w (f w.data.toNat) = true)
    (e : h s ⟨w.port, w.tc.val, page, off, none⟩ (BitVec.ofNat 32 (f w.data.toNat)).toNat = (.ok, u)) :
    s.writeReg h page off w f = u.answer .ok := by
  obtain ⟨hp, ho, h4, ha, hh⟩ := plainWord_iff.mp hr
  rw [writeReg_admitted hp ho h4 ha hh hw, e, capture_ok]

/-- An admitted write that its page answers with another code. -/
theorem writeReg_coded {s u : State} {h : Writer} {page off : Nat} {w : RegWrite} {f : Nat → Nat} {c : Status}
    (hr : plainWord page off = true) (hw : s.admitsWrite page off w (f w.data.toNat) = true)
    (e : h s ⟨w.port, w.tc.val, page, off, none⟩ (BitVec.ofNat 32 (f w.data.toNat)).toNat = (c, u)) :
    s.writeReg h page off w f = (u.capture page off w.tc.val true c).answer c := by
  obtain ⟨hp, ho, h4, ha, hh⟩ := plainWord_iff.mp hr
  rw [writeReg_admitted hp ho h4 ha hh hw, e]

/-- A command that is an admitted write which its page performs. -/
theorem answers_write {c : Instr} {s u : State} {P : State → Prop} {h : Writer} {page off : Nat} {w : RegWrite}
    {f : Nat → Nat} (hc : exec c s = .next (s.writeReg h page off w f)) (hr : plainWord page off = true)
    (hw : s.admitsWrite page off w (f w.data.toNat) = true)
    (e : h s ⟨w.port, w.tc.val, page, off, none⟩ (BitVec.ofNat 32 (f w.data.toNat)).toNat = (.ok, u))
    (hu : P (u.answer .ok)) : Answers c s P :=
  ⟨_, hc.trans (congrArg _ (writeReg_ok hr hw e)), hu⟩

/-- A command that is an admitted write which its page answers with another code. -/
theorem answers_write_coded {c : Instr} {s u : State} {P : State → Prop} {h : Writer} {page off : Nat} {w : RegWrite}
    {f : Nat → Nat} {code : Status} (hc : exec c s = .next (s.writeReg h page off w f))
    (hr : plainWord page off = true) (hw : s.admitsWrite page off w (f w.data.toNat) = true)
    (e : h s ⟨w.port, w.tc.val, page, off, none⟩ (BitVec.ofNat 32 (f w.data.toNat)).toNat = (code, u))
    (hu : P ((u.capture page off w.tc.val true code).answer code)) : Answers c s P :=
  ⟨_, hc.trans (congrArg _ (writeReg_coded hr hw e)), hu⟩

/-- A command that is an admitted read. -/
theorem answers_read {c : Instr} {s u : State} {P : State → Prop} {h : Reader} {page off : Nat} {r : RegRead}
    {code : Status} {v : Nat} (hc : exec c s = .next (s.readReg h page off r)) (hr : plainWord page off = true)
    (hw : s.admitsRead page off r = true) (e : h s ⟨r.port, r.tc.val, page, off, none⟩ = (code, v, u))
    (hu : P ((u.capture page off r.tc.val false code).answerRead r.tc.val (addressA (directAddr page off).toNat false)
      code v)) : Answers c s P := by
  obtain ⟨hp, ho, h4, ha, -⟩ := plainWord_iff.mp hr
  have read := readReg_admitted (h := h) hp ho h4 ha hw
  rw [e] at read
  exact ⟨_, hc.trans (congrArg _ read), hu⟩

/-- The code of a value that rests on the stamp asks for no capture. -/
theorem capture_okOr (s u : State) (page off tc : Nat) (write : Bool) : u.capture page off tc write s.okOr = u := by
  unfold State.okOr
  split <;> simp [State.capture]

theorem answerRead_okOr (s u : State) (tc a v : Nat) : (u.answerRead tc a s.okOr v).resp.data = [v] := by
  unfold State.okOr
  split <;> rfl

end Sys2Proof.Machine

/-! ## The cycle-time fabric -/

namespace Sys2Proof.Machine

open Reg

/-! ### The clock of the cycle-time fabric -/

/-- The place in the cycle and the number of the cycle. -/
def clockOf (s : State) : Nat × Nat := (s.ctf.ph, s.ctf.cyc)

/-- The clock, said of the state with every part but the cycle time blanked. -/
abbrev Clock (s : State) : Nat × Nat := clockOf (State.except 137438949375 s)

theorem clock_eq (s : State) : Clock s = (s.ctf.ph, s.ctf.cyc) := rfl

theorem upd_clock {s : State} {c : CtfState} (hp : c.ph = s.ctf.ph) (hc : c.cyc = s.ctf.cyc) :
    Clock { s with ctf := c } = Clock s := by
  rw [clock_eq, clock_eq, hp, hc]

theorem State.leaveLocked_clock (s : State) (st : Nat) :
    Clock (State.leaveLocked s st) = Clock s := by
  unfold State.leaveLocked
  exact (upd_clock (s := s.wr CTF_ST st) rfl rfl).trans (congrArg clockOf (State.wr_same _ rfl s CTF_ST st))

theorem State.enterLocked_clock (s : State) :
    Clock (State.enterLocked s) = Clock s := by
  unfold State.enterLocked
  simp (disch := with_unfolding_all rfl) only [Clock, State.wr_same, upd_clock]

theorem State.switchTo_clock (s : State) (c : Nat) (kind : Nat) :
    Clock (State.switchTo s c kind) = Clock s := by
  unfold State.switchTo
  simp (disch := with_unfolding_all rfl) only [Clock, State.wr_same, State.count_same, State.raise_same,
    State.log_same, upd_clock]

theorem State.enterHoldover_clock (s : State) :
    Clock (State.enterHoldover s) = Clock s := by
  unfold State.enterHoldover
  simp (disch := with_unfolding_all rfl) only [Clock, State.freeze_same, State.wr_same, State.count_same,
    State.raise_same, State.log_same, upd_clock, apply_ite (State.except 137438949375),
    ite_self]

theorem State.flywheelLost_clock (s : State) :
    Clock (State.flywheelLost s) = Clock s := by
  unfold State.flywheelLost
  repeat' split
  all_goals
    simp (disch := with_unfolding_all rfl) only [Clock, State.switchTo_clock, State.enterLocked_clock,
      State.enterHoldover_clock]

theorem State.acquireOn_clock (s : State) (c : Nat) :
    Clock (State.acquireOn s c) = Clock s := by
  unfold State.acquireOn
  simp (disch := with_unfolding_all rfl) only [Clock, State.wr_same, State.showQual_same, upd_clock]

theorem State.seek_clock (s : State) :
    Clock (State.seek s) = Clock s := by
  unfold State.seek
  dsimp only
  repeat' split
  all_goals
    simp (disch := with_unfolding_all rfl) only [Clock, State.acquireOn_clock]

theorem State.referenceLost_clock (s : State) :
    Clock (State.referenceLost s) = Clock s := by
  unfold State.referenceLost
  dsimp only
  repeat' split
  all_goals
    simp (disch := with_unfolding_all rfl) only [Clock, State.flywheelLost_clock, State.acquireOn_clock,
      State.enterHoldover_clock]

theorem State.forcedLoss_clock (s : State) :
    Clock (State.forcedLoss s) = Clock s := by
  unfold State.forcedLoss
  simp (disch := with_unfolding_all rfl) only [Clock, State.freeze_same, State.leaveLocked_clock, State.raise_same,
    State.flywheelLost_clock, State.referenceLost_clock, 
    apply_ite (State.except 137438949375), apply_ite clockOf, ite_self]

theorem State.qualCycle_clock (s : State) :
    Clock (State.qualCycle s) = Clock s := by
  unfold State.qualCycle
  simp (disch := with_unfolding_all rfl) only [Clock, State.showQual_same, upd_clock]

theorem State.ctfBoundary_clock (s : State) (rephase : Bool) :
    Clock (State.ctfBoundary s rephase) = Clock s := by
  unfold State.ctfBoundary
  dsimp only
  repeat' split
  all_goals
    simp (disch := with_unfolding_all rfl) only [Clock, State.latchPair_same, State.raise_same, State.log_same,
      State.forcedLoss_clock, State.qualCycle_clock, State.seek_clock, State.countNoAnchor_same, 
      upd_clock]
/-! ### Pages that the end of a lock writes -/

theorem plsAct_lies (k : Nat) : (PLS_ACT k).lies (0x060 + k) = true :=
  Fld.lies_iff.mpr ⟨rfl, (by decide : 1 ≤ 32), (by decide : 0x4C < 4096)⟩

theorem plsCutn_lies (k : Nat) : (PLS_CUTN k).lies (0x060 + k) = true :=
  Fld.lies_iff.mpr ⟨rfl, (by decide : 16 ≤ 32), (by decide : 0x64 < 4096)⟩

theorem pqeRing_spans {k : Nat} (h : k < 64) : (PQE_RING k).spans 0x070 = true :=
  decide_eq_true (by simp +decide only [Fld.words, PQE_RING, if_false]; omega)

theorem State.cutPulses_past {P : List Nat} (hPLS : ∀ k < 16, P.contains (0x060 + k) = true) (s : State) :
    Past P (State.cutPulses s) = Past P s := by
  unfold State.cutPulses
  split
  · rfl
  · refine foldl_mem_past (fun u k hk => ?_) s
    have page : P.contains (0x060 + k) = true := hPLS k (List.mem_range.mp hk)
    dsimp only
    split
    · exact (past_of_except (except_upd_acc _ rfl _)).trans
        ((State.count_past page (plsCutn_lies k) _ _).trans (State.wr_past page (plsAct_lies k) _ _))
    · rfl

theorem State.gateFrom_past {P : List Nat} (hPLS : ∀ k < 16, P.contains (0x060 + k) = true) (s : State) (old : State) :
    Past P (State.gateFrom s old) = Past P s := by
  unfold State.gateFrom
  simp +decide only [Past, State.setPg_same, State.cutPulses_past hPLS, Nat.reduceAnd, foldl_past, implies_true]

theorem State.pqeRecord_past {P : List Nat} (hP : P.contains 0x070 = true) (s : State) (kind : Nat) (close : Bool)
    (c : Status) (dur : Nat) (ch : Nat) (val1 : Nat) (val2 : Nat) (by' : Nat) :
    Past P (State.pqeRecord s kind close c dur ch val1 val2 by') = Past P s := by
  unfold State.pqeRecord
  dsimp only
  split
  · simp +decide only [Past, State.raise_past hP, State.count_past hP]
  · simp +decide only [Past, State.raise_past hP, State.setPqe_same, State.wr_past hP,
    wr_past_spans hP (pqeRing_spans (rd_lt s (f := PQE_RING_WR) rfl)), Nat.reduceAnd]

theorem State.openEvent_past {P : List Nat} (hP : P.contains 0x070 = true) (s : State) (kind : Nat) (ch : Nat)
    (ext : Nat) (val2 : Nat) :
    Past P (State.openEvent s kind ch ext val2) = Past P s := by
  unfold State.openEvent
  simp +decide only [Past, State.pqeRecord_past hP, State.pqeLog_same, State.setPqe_same, Nat.reduceAnd]

theorem State.setVerdict_past {P : List Nat} (hP : P.contains 0x070 = true) (s : State) (c : Nat) (v : Nat) :
    Past P (State.setVerdict s c v) = Past P s := by
  unfold State.setVerdict
  simp +decide only [Past, State.wr_past hP, State.raise_past hP, State.setEvent_same, Nat.reduceAnd,
    apply_ite (State.except 137438953470), apply_ite (regsPast _), ite_self]

theorem State.pqeLost_past {P : List Nat} (hP : P.contains 0x070 = true) (s : State) (c : Nat) :
    Past P (State.pqeLost s c) = Past P s := by
  unfold State.pqeLost
  simp +decide only [Past, State.openEvent_past hP, State.setVerdict_past hP, apply_ite (State.except 137438953470),
    apply_ite (regsPast _), ite_self]

/-! ### Losing the reference -/

theorem rd_gateFrom (s old : State) {f : Fld} (h : f.outside ((List.range 16).map (0x060 + ·)) = true) :
    (s.gateFrom old).rd f = s.rd f :=
  rd_of_past (State.gateFrom_past (by decide) s old) h

theorem gateFrom_ctf (s old : State) : (s.gateFrom old).ctf = s.ctf :=
  part_of_except (State.gateFrom_same 65569 rfl s old) .ctf rfl

theorem gateFrom_events (s old : State) : (s.gateFrom old).events = s.events :=
  part_of_except (State.gateFrom_same 65569 rfl s old) .events rfl

theorem rd_pqeLost (s : State) (c : Nat) {f : Fld} (h : f.outside [0x070] = true) : (s.pqeLost c).rd f = s.rd f :=
  rd_of_past (State.pqeLost_past rfl s c) h

theorem pqeLost_ctf (s : State) (c : Nat) : (s.pqeLost c).ctf = s.ctf :=
  part_of_except (State.pqeLost_same 131329 rfl s c) .ctf rfl

/-- Queueing an event leaves the events that wait. -/
theorem mem_pqeLog {s : State} {e : LogEvent} (h : e ∈ s.events) (kind ch v1 v2 : Nat) (close : Bool) :
    e ∈ (s.pqeLog kind close ch v1 v2).events := by
  unfold State.pqeLog
  dsimp only
  repeat' split
  all_goals simp only [log_events, List.mem_append, h, true_or]

theorem mem_pqeLost {s : State} {e : LogEvent} (h : e ∈ s.events) (c : Nat) : e ∈ (s.pqeLost c).events := by
  have opened (k ch x v : Nat) : e ∈ (s.openEvent k ch x v).events := by
    refine mem_pqeLog (s := s.pqeRecord _ _ _ _ _ _ _ _) ?_ k _ _ _ _
    rw [part_of_except (State.pqeRecord_same 131073 rfl s _ _ _ _ _ _ _ _) .events rfl]
    exact h
  unfold State.pqeLost
  dsimp only
  split
  · rw [part_of_except (State.setVerdict_same 131073 rfl _ _ _) .events rfl]
    exact opened _ _ _ _
  · exact h

theorem rd_freeze (s : State) {f : Fld} (h : CTF_PERIOD.free f = true) : s.freeze.rd f = s.rd f := by
  unfold State.freeze
  split
  · rfl
  · exact rd_wr_free h _ _

theorem freeze_ctf (s : State) : s.freeze.ctf = s.ctf :=
  part_of_except (State.freeze_same 1 rfl s) .ctf rfl

theorem ctfSt_leaveLocked (s : State) {st : Nat} (h : st < 8) : (s.leaveLocked st).ctfSt = st := by
  simp only [State.ctfSt, State.leaveLocked, rd_mk]
  exact rd_wr_lt rfl h _

theorem enterFlywheel_clear {s : State} (hl : (s.chan (s.rd CTF_REF)).lost = false) :
    s.enterFlywheel = (s.freeze.leaveLocked ctfFlywheel).raise 0x010 1 := by
  unfold State.enterFlywheel
  refine if_neg ?_
  simp +decide [State.chan, State.leaveLocked, rd_raise_free, rd_mk, rd_wr_free, rd_freeze, freeze_ctf]
  exact Bool.not_eq_true _ ▸ hl

theorem loss_locked {s : State} (h : s.ctfSt = ctfLocked) (hl : (s.chan (s.rd CTF_REF)).lost = false) :
    Answers .loss s fun t => t.ctfSt = ctfFlywheel ∧ bit (t.rd (IRQ_RAW 0x010)) 1 = true := by
  refine ⟨_, rfl, ?_⟩
  rw [if_pos h, enterFlywheel_clear hl]
  constructor
  · simp +decide only [State.ctfSt, rd_gateFrom, rd_raise_free]
    exact ctfSt_leaveLocked _ (by decide)
  · simp +decide only [rd_gateFrom]
    exact bit_raise_same _ _ (by decide)

/-- The state after the marking of a lost channel. -/
def State.markLost (s : State) (c : Nat) : State := (s.setChan c fun h => { h.unqualify with lost := true }).showQual

theorem rd_markLost (s : State) (c : Nat) (f : Fld) (hq : CTF_QOK.free f = true) (ho : CTF_OFSOK.free f = true) :
    (s.markLost c).rd f = s.rd f := by
  simp only [State.markLost, State.showQual, rd_wr_free ho, rd_wr_free hq, State.setChan, rd_mk]

theorem markLost_chan_same {s : State} {c : Nat} (hc : 1 ≤ c) (hl : c ≤ s.ctf.chans.length) :
    (s.markLost c).chan c = { (s.chan c).unqualify with lost := true } := by
  have hx : (s.markLost c).ctf = (s.setChan c fun h => { h.unqualify with lost := true }).ctf :=
    part_of_except (State.showQual_same 1 rfl _) .ctf rfl
  rw [State.chan, hx]
  simp [State.setChan, List.getD, List.getElem?_set_self (show c - 1 < s.ctf.chans.length by omega)]

theorem markLost_chan_other {s : State} {c k : Nat} (hc : c - 1 ≠ k - 1) : (s.markLost c).chan k = s.chan k := by
  have hx : (s.markLost c).ctf = (s.setChan c fun h => { h.unqualify with lost := true }).ctf :=
    part_of_except (State.showQual_same 1 rfl _) .ctf rfl
  rw [State.chan, hx]
  simp only [State.setChan, List.getD, List.getElem?_set_ne hc, State.chan]

theorem execChannelLost_eq (s : State) {c : Fin 8} (h1 : 1 ≤ c.val) (h6 : c.val ≤ 6) :
    exec (.channelLost c) s = .next (((if (s.markLost c.val).rd CTF_REF = c.val then (s.markLost c.val).referenceLost
      else s.markLost c.val).gateFrom s).pqeLost c.val) := by
  change execChannelLost c s = _
  unfold execChannelLost
  dsimp only
  rw [if_neg (by omega)]
  rfl

theorem channelLost_other {s : State} {c : Fin 8} (h1 : 1 ≤ c.val) (h6 : c.val ≤ 6) (hl : s.ctf.chans.length = 6)
    (hr : s.rd CTF_REF ≠ c.val) :
    Answers (.channelLost c) s fun t =>
      (t.chan c.val).lost = true ∧ (t.chan c.val).qualified = false ∧ t.ctfSt = s.ctfSt := by
  refine ⟨_, execChannelLost_eq s h1 h6, ?_⟩
  have hm : (s.markLost c.val).rd CTF_REF ≠ c.val := by rwa [rd_markLost s _ CTF_REF (by decide) (by decide)]
  have chan : ((((s.markLost c.val).gateFrom s).pqeLost c.val).chan c.val) = (s.markLost c.val).chan c.val := by
    simp only [State.chan, pqeLost_ctf, gateFrom_ctf]
  rw [if_neg hm]
  dsimp only
  rw [chan, markLost_chan_same h1 (by omega)]
  refine ⟨rfl, rfl, ?_⟩
  simp +decide only [State.ctfSt, rd_pqeLost, rd_gateFrom, rd_markLost]

theorem priorities_congr {s t : State} (h : t.inForce = s.inForce) : t.priorities = s.priorities := by
  simp only [State.priorities, State.cfg, State.regIn, h]

theorem markLost_inForce (s : State) (c : Nat) : (s.markLost c).inForce = s.inForce :=
  part_of_except (State.showQual_same 1 rfl _) .inForce rfl

theorem priorities_pos {s : State} {k : Nat} (h : k ∈ s.priorities) : 1 ≤ k := by
  have := List.mem_takeWhile_imp h
  simp only [bne_iff_ne, ne_eq] at this
  omega

/-- A channel marked lost that is the reference is no switch target, and the others are as before. -/
theorem switchTarget_markLost {s : State} {c : Nat} (hc : 1 ≤ c) (hr : s.rd CTF_REF = c) :
    (s.markLost c).switchTarget = s.switchTarget := by
  unfold State.switchTarget
  dsimp only
  rw [priorities_congr (markLost_inForce s c), rd_markLost s c CTF_REF (by decide) (by decide), hr]
  refine List.find?_congr fun k hk => ?_
  by_cases hkc : k = c
  · rw [hkc, bne_self_eq_false, Bool.false_and, Bool.false_and, Bool.false_and, Bool.false_and]
  · have := priorities_pos hk
    rw [markLost_chan_other (by omega)]

theorem execChannelLost_ref {s : State} {c : Fin 8} (h1 : 1 ≤ c.val) (h6 : c.val ≤ 6) (hr : s.rd CTF_REF = c.val)
    (hf : s.ctfSt = ctfFlywheel) :
    exec (.channelLost c) s = .next ((((s.markLost c.val).flywheelLost).gateFrom s).pqeLost c.val) := by
  have hm : (s.markLost c.val).ctfSt = ctfFlywheel :=
    (rd_markLost s _ CTF_ST (by decide) (by decide)).trans hf
  rw [execChannelLost_eq s h1 h6, rd_markLost s _ CTF_REF (by decide) (by decide), if_pos hr, State.referenceLost,
    if_pos hm]

theorem channelLost_holdover {s : State} {c : Fin 8} (h1 : 1 ≤ c.val) (h6 : c.val ≤ 6) (hr : s.rd CTF_REF = c.val)
    (hf : s.ctfSt = ctfFlywheel)
    (hk : ∀ k ∈ s.priorities, k = c.val ∨ (s.chan k).qualified = false ∨ (s.chan k).offsetOk = false) :
    Answers (.channelLost c) s fun t =>
      t.ctfSt = ctfHoldover ∧ t.rd CTF_REF = 0 ∧ t.rd CTF_HOLDN = satNat 8 (s.rd CTF_HOLDN + 1) ∧
      (⟨0x2002, deviceTc, leBytes 8 c.val⟩ : LogEvent) ∈ t.events := by
  have none : (s.markLost c.val).switchTarget = none := by
    rw [switchTarget_markLost h1 hr, State.switchTarget, List.find?_eq_none]
    intro k hp
    obtain h | h | h := hk k hp
    · simp only [h, hr, bne_self_eq_false, Bool.false_and, Bool.false_eq_true, not_false_eq_true]
    · simp only [h, Bool.and_false, Bool.false_and, Bool.false_eq_true, not_false_eq_true]
    · simp only [h, Bool.and_false, Bool.false_eq_true, not_false_eq_true]
  have hm : (s.markLost c.val).ctfSt = ctfFlywheel :=
    (rd_markLost s _ CTF_ST (by decide) (by decide)).trans hf
  refine ⟨_, execChannelLost_ref h1 h6 hr hf, ?_⟩
  rw [State.flywheelLost, none]
  refine ⟨?_, ?_, ?_, ?_⟩
  · simp +decide only [State.ctfSt, rd_pqeLost, rd_gateFrom, State.enterHoldover, rd_log, rd_raise_free,
    rd_count_free, rd_wr_free]
    exact rd_wr_lt rfl (by decide) _
  · simp +decide only [rd_pqeLost, rd_gateFrom, State.enterHoldover, rd_log, rd_raise_free, rd_count_free]
    exact rd_wr_lt rfl (by decide) _
  · simp +decide only [rd_pqeLost, rd_gateFrom, State.enterHoldover, rd_log, rd_raise_free, rd_count_same,
    rd_wr_free, rd_mk, hm, if_true, apply_ite (State.rd · CTF_HOLDN), ite_self, rd_markLost]
    rfl
  · refine mem_pqeLost ?_ _
    rw [gateFrom_events, State.enterHoldover, log_events, rd_markLost s _ CTF_REF (by decide) (by decide), hr]
    exact List.mem_append_right _ List.mem_cons_self

theorem rd_switchTo {s : State} {c k : Nat} {f : Fld} (hr : CTF_REF.free f = true) (hs : CTF_SWITCH.free f = true)
    (hq : (IRQ_RAW 0x010).free f = true) : (s.switchTo c k).rd f = s.rd f := by
  simp only [State.switchTo, rd_log, rd_raise_free hq, rd_count_free hs, rd_wr_free hr, rd_mk]

theorem ref_switchTo (s : State) {c : Nat} (hc : c ≤ 6) (k : Nat) : (s.switchTo c k).rd CTF_REF = c := by
  simp +decide only [State.switchTo, rd_log, rd_raise_free, rd_count_free]
  exact rd_wr_lt rfl (show c < 8 by omega) _

theorem switches_switchTo (s : State) (c k : Nat) : (s.switchTo c k).rd CTF_SWITCH = satNat 8
    (s.rd CTF_SWITCH + 1) := by
  simp +decide only [State.switchTo, rd_log, rd_raise_free, rd_count_same, rd_wr_free, rd_mk]
  rfl

theorem channelLost_switch {s : State} {c : Fin 8} {d : Nat} (h1 : 1 ≤ c.val) (h6 : c.val ≤ 6)
    (hr : s.rd CTF_REF = c.val) (hf : s.ctfSt = ctfFlywheel) (hd : s.switchTarget = some d) (hd6 : d ≤ 6) :
    Answers (.channelLost c) s fun t =>
      t.ctfSt = ctfLocked ∧ t.rd CTF_REF = d ∧ t.rd CTF_SWITCH = satNat 8 (s.rd CTF_SWITCH + 1) := by
  refine ⟨_, execChannelLost_ref h1 h6 hr hf, ?_⟩
  rw [State.flywheelLost, switchTarget_markLost h1 hr, hd]
  refine ⟨?_, ?_, ?_⟩
  · simp +decide only [State.ctfSt, rd_pqeLost, rd_gateFrom, State.enterLocked, rd_mk]
    exact rd_wr_lt rfl (by decide) _
  · simp +decide only [rd_pqeLost, rd_gateFrom, State.enterLocked, rd_mk, rd_wr_free]
    exact ref_switchTo _ hd6 _
  · simp +decide only [rd_pqeLost, rd_gateFrom, State.enterLocked, rd_mk, rd_wr_free, switches_switchTo, rd_markLost]

theorem acquireRestart_late {s : State} (h : s.ctfSt = ctfAcquire) (hc : 16 ≤ s.ctf.acqCyc) :
    Answers .acquireRestart s fun t =>
      t.ctfSt = ctfAcquire ∧ t.rd CTF_ACQFAIL = satNat 8 (s.rd CTF_ACQFAIL + 1) ∧ t.ctf.acqCyc = 0 ∧
      SameBut [.regs, .ctf] s t := by
  have e : exec .acquireRestart s =
      .next (State.count { s with ctf := { s.ctf with acqCyc := 0, lockCnt := 0 } } CTF_ACQFAIL) := by
    change execAcquireRestart s = _
    rw [execAcquireRestart, if_pos ⟨h, hc⟩]
  refine ⟨_, e, ?_, ?_, ?_, execAcquireRestart_frame e⟩
  · simp +decide only [State.ctfSt, rd_count_free, rd_mk]
    exact h
  · simp +decide only [rd_count_same, rd_mk]
    rfl
  · simp only [count_frame]

theorem revert_back {s : State} {c : Nat} (h : s.ctfSt = ctfLocked) (he : s.on CTF_REVERT_EN = true)
    (hc : s.revertTarget = some c) (hc6 : c ≤ 6) :
    Answers .revert s fun t =>
      t.rd CTF_REF = c ∧ t.rd CTF_SWITCH = satNat 8 (s.rd CTF_SWITCH + 1) ∧
      Logged s t 0x2001 deviceTc (s.rd CTF_REF + c * 2 ^ 8 + 2 ^ 16) ∧ t.ctfSt = ctfLocked := by
  refine ⟨s.switchTo c 1, ?_, ref_switchTo _ hc6 _, switches_switchTo _ _ _, ?_, ?_⟩
  · change execRevert s = _
    rw [execRevert, if_pos ⟨h, he⟩, hc]
  · simp only [Logged, State.switchTo, log_events, raise_frame, count_frame, wr_frame, Nat.one_mul]
  · exact (rd_switchTo (by decide) (by decide) (by decide)).trans h

/-! ### Acquiring anew and the end of the cycle -/

theorem rd_showQual (s : State) {f : Fld} (hq : CTF_QOK.free f = true) (ho : CTF_OFSOK.free f = true) :
    s.showQual.rd f = s.rd f := by
  simp only [State.showQual, rd_wr_free ho, rd_wr_free hq]

theorem ctfSt_acquireOn (s : State) (c : Nat) : (s.acquireOn c).ctfSt = ctfAcquire := by
  simp +decide only [State.ctfSt, State.acquireOn, rd_showQual, rd_mk, rd_wr_free]
  exact rd_wr_lt rfl (by decide) _

theorem ctfSt_seek {s : State} (h : s.ctfSt = ctfAcquire) : s.seek.ctfSt = ctfAcquire := by
  unfold State.seek
  dsimp only
  split
  · split
    · exact ctfSt_acquireOn s _
    · exact h
  · exact h

theorem seek_seeded (s : State) : s.seek.ctf.seeded = s.ctf.seeded := by
  unfold State.seek
  dsimp only
  split
  · split
    · simp only [State.acquireOn, State.showQual, wr_frame]
    · rfl
  · rfl

/-- A write of the cycle-time page that leaves the seed has the gating alone to follow. -/
theorem writeFollow_ctf {s old : State} (h : s.ctf.seeded = old.ctf.seeded) :
    s.writeFollow old 0x010 = s.gateFrom old := by
  rw [State.writeFollow, if_pos rfl, State.seedFollow, if_neg]
  rintro ⟨hs, ho⟩
  rw [h, ho] at hs
  exact Bool.noConfusion hs

/-- What CTF_REACQ and CTF_FORCE_NEXT make of the state. -/
theorem ctfWrite_cmd (s : State) (port : Port) (tc d : Nat) :
    ctfWrite s ⟨port, tc, 0x010, 0x0CC, none⟩ d =
      (.ok, (fun u : State => if bit d 1 then { u with ctf := { u.ctf with forceNext := true } } else u)
        (if bit d 0 ∧ s.ctfSt ≠ ctfFree then (s.leaveLocked ctfAcquire).seek else s)) := by
  simp only [ctfWrite, if_true]

theorem anyWrite_ctf (s : State) (port : Port) (tc off d : Nat) (h : 0x40 ≤ off) :
    anyWrite s ⟨port, tc, 0x010, off, none⟩ d =
      ((ctfWrite s ⟨port, tc, 0x010, off, none⟩ d).1,
        (ctfWrite s ⟨port, tc, 0x010, off, none⟩ d).2.writeFollow s 0x010) := by
  simp +decide only [anyWrite, bodyWrite, lowWrite, if_neg (Nat.not_lt.mpr h), if_true, if_false]

theorem ctfReacq_acquires {s : State} {w : RegWrite}
    (hw : s.admitsWrite 0x010 0x0CC w (setBit w.data.toNat 0) = true) (hs : s.ctfSt ≠ ctfFree) :
    Answers (.ctfReacq w) s fun t => t.resp.code = .ok ∧ t.ctfSt = ctfAcquire := by
  have hb : bit (BitVec.ofNat 32 (setBit w.data.toNat 0)).toNat 0 = true := by
    rw [bit_ofNat (by decide), bit_setBit_same]
  refine answers_write rfl (by decide) hw (by rw [anyWrite_ctf _ _ _ _ _ (by decide), ctfWrite_cmd]) ⟨rfl, ?_⟩
  rw [if_pos ⟨hb, hs⟩, writeFollow_ctf]
  · simp +decide only [State.ctfSt, rd_answer, rd_gateFrom, apply_ite (State.rd · CTF_ST), rd_mk, ite_self]
    exact ctfSt_seek (ctfSt_leaveLocked _ (by decide))
  · simp only [apply_ite State.ctf, apply_ite CtfState.seeded, ite_self, seek_seeded]
    simp only [State.leaveLocked]

theorem ctfForceNext_waits {s : State} {w : RegWrite}
    (hw : s.admitsWrite 0x010 0x0CC w (setBit w.data.toNat 1) = true) :
    Answers (.ctfForceNext w) s fun t => t.resp.code = .ok ∧ t.ctf.forceNext = true := by
  have hb : bit (BitVec.ofNat 32 (setBit w.data.toNat 1)).toNat 1 = true := by
    rw [bit_ofNat (by decide), bit_setBit_same]
  refine answers_write rfl (by decide) hw (ctfWrite_cmd _ _ _ _) ⟨rfl, ?_⟩
  simp only [hb, if_true, answer_frame]

theorem openCycle_clock (s : State) :
    Clock s.openCycle = (0, if s.ctf.seeded then (s.ctf.cyc + 1) % 2 ^ 48 else s.ctf.cyc) := by
  simp only [clock_eq, State.openCycle, apply_ite State.ctf, count_frame, ite_self]

/-- A boundary opens the next cycle at phase 0. -/
theorem boundary_clock (s : State) (r : Bool) :
    Clock (s.boundary r) = (0, if s.ctf.seeded then (s.ctf.cyc + 1) % 2 ^ 48 else s.ctf.cyc) := by
  simp only [Clock, State.boundary, State.ctfFollow_same, State.signalFollow_same, State.carryCycle_same,
    State.startAll_same, State.tunBoundary_same, State.pqeBoundary_same, State.accBoundary_same,
    State.mteBoundary_same, State.refBoundary_same, State.acsBoundary_same, State.ctfBoundary_clock,
    State.tmpBoundary_same, Nat.reduceAnd]
  exact openCycle_clock s

theorem closePeriod_cycle (s : State) (p : Nat) :
    (s.closePeriod p).ctf.cyc = s.ctf.cyc ∧ (s.closePeriod p).ctf.seeded = s.ctf.seeded := by
  have adv (n : Nat) : (s.advance n).ctf.cyc = s.ctf.cyc ∧ (s.advance n).ctf.seeded = s.ctf.seeded := by
    simp only [State.advance, State.rtcAdvance, wr_frame, and_self]
  unfold State.closePeriod
  dsimp only
  repeat' split
  all_goals simp only [wr_frame, adv, and_self]

theorem cycleBoundary_opens (s : State) (p : BitVec 24) :
    Answers (.cycleBoundary p) s fun t =>
      t.ctf.ph = 0 ∧ t.ctf.cyc = if s.ctf.seeded then (s.ctf.cyc + 1) % 2 ^ 48 else s.ctf.cyc := by
  have clock := boundary_clock (s.closePeriod p.toNat) false
  obtain ⟨hc, hs⟩ := closePeriod_cycle s p.toNat
  rw [clock_eq, hc, hs, Prod.mk.injEq] at clock
  exact ⟨_, rfl, clock⟩

/-- Settles O1: a lemma for each transition. -/
theorem ctfTransitionsComplete : Obligations.CtfTransitionsComplete :=
  ⟨fun _ h hl => loss_locked h hl, fun _ _ h1 h6 hl hr => channelLost_other h1 h6 hl hr,
    fun _ _ h1 h6 hr hf hk => channelLost_holdover h1 h6 hr hf hk,
    fun _ _ _ h1 h6 hr hf hd _ hd6 => channelLost_switch h1 h6 hr hf hd hd6,
    fun _ h hc => acquireRestart_late h hc, fun _ _ h he hc hc6 => revert_back h he hc hc6,
    fun _ _ hw hs => ctfReacq_acquires hw hs, fun _ _ hw => ctfForceNext_waits hw, cycleBoundary_opens⟩

/-! ### The stamp and the pair -/

/-- What a performed SEED makes of the state. -/
def State.seedWith (s : State) (d : Nat) : State :=
  State.seek { s with
    hold := cellErase (regKey 0x010 0x0A0) s.hold
    ctf := { s.ctf with
      seeded := true, cyc := ((stampOf (s.heldWord 0x010 0x0A0 + 2 ^ 32 * d)).cyc + 1) % 2 ^ 48, ph := 0
      cycTick := s.ticks } }

theorem ctfWrite_seed {s : State} (h : s.ctf.seeded = false) (hl : s.ctf.everLocked = false) (port : Port)
    (tc d : Nat) :
    ctfWrite s ⟨port, tc, 0x010, 0x0A4, none⟩ d = (.ok, s.seedWith d) := by
  simp only [ctfWrite, if_true, h, hl, Bool.false_eq_true, or_self, if_false, State.seedWith]

theorem ctfWrite_seed_again {s : State} (h : s.ctf.seeded = true ∨ s.ctf.everLocked = true) (port : Port) (tc d : Nat) :
    ctfWrite s ⟨port, tc, 0x010, 0x0A4, none⟩ d = (.prot, s) := by
  simp only [ctfWrite, if_true, if_pos h]

theorem stamp_of_ctf {s t : State} (h : t.ctf = s.ctf) : t.stamp = s.stamp := by rw [State.stamp, State.stamp, h]

theorem stamp_seedWith (s : State) (d : Nat) :
    (s.seedWith d).stamp = ⟨((stampOf (s.heldWord 0x010 0x0A0 + 2 ^ 32 * d)).cyc + 1) % 2 ^ 48, 0⟩ := by
  have clock := State.seek_clock { s with
    hold := cellErase (regKey 0x010 0x0A0) s.hold
    ctf := { s.ctf with
      seeded := true, cyc := ((stampOf (s.heldWord 0x010 0x0A0 + 2 ^ 32 * d)).cyc + 1) % 2 ^ 48, ph := 0
      cycTick := s.ticks } }
  rw [clock_eq, clock_eq, Prod.mk.injEq] at clock
  obtain ⟨hp, hc⟩ := clock
  have seeded : (s.seedWith d).ctf.seeded = true := seek_seeded _
  rw [State.stamp, if_pos seeded]
  exact congrArg₂ Stamp.mk hc hp

theorem writeFollow_ctfState (s old : State) (page : Nat) : (s.writeFollow old page).ctf = s.ctf :=
  part_of_except (State.writeFollow_same 138479649 rfl s old page) .ctf rfl

theorem seed_first {s : State} {w : RegWrite} (hw : s.admitsWrite 0x010 0x0A4 w w.data.toNat = true)
    (hs : s.ctf.seeded = false) (hl : s.ctf.everLocked = false) :
    Answers (.seed w) s fun t => t.resp.code = .ok ∧ t.ctf.seeded = true ∧
      t.stamp = ⟨((stampOf (s.heldWord 0x010 0x0A0 + 2 ^ 32 * w.data.toNat)).cyc + 1) % 2 ^ 48, 0⟩ := by
  refine answers_write rfl (by decide) hw (by rw [anyWrite_ctf _ _ _ _ _ (by decide), ctfWrite_seed hs hl]) ⟨rfl, ?_⟩
  have ctf (d : Nat) : (((s.seedWith d).writeFollow s 0x010).answer .ok).ctf = (s.seedWith d).ctf := by
    simp only [answer_frame, writeFollow_ctfState]
  have data : (BitVec.ofNat 32 (id w.data.toNat)).toNat = w.data.toNat := by simp
  rw [ctf, stamp_of_ctf (ctf _), stamp_seedWith, data]
  exact ⟨seek_seeded _, rfl⟩

theorem seed_again {s : State} {w : RegWrite} (hw : s.admitsWrite 0x010 0x0A4 w w.data.toNat = true)
    (hs : s.ctf.seeded = true ∨ s.ctf.everLocked = true) :
    Answers (.seed w) s fun t => t.resp.code = .prot ∧ t.stamp = s.stamp := by
  refine answers_write_coded rfl (by decide) hw
    (by rw [anyWrite_ctf _ _ _ _ _ (by decide), ctfWrite_seed_again hs]) ⟨rfl, stamp_of_ctf ?_⟩
  have captured (u : State) : (u.capture 0x010 0x0A4 w.tc.val true .prot).ctf = u.ctf :=
    part_of_except (State.capture_same 1 rfl _ _ _ _ _ _) .ctf rfl
  simp only [answer_frame, captured, writeFollow_ctfState]

theorem stampRead_latches {s : State} {r : RegRead} (hr : s.admitsRead 0x010 0x040 r = true) :
    Answers (.stampRead r) s fun t =>
      t.resp.code = s.okOr ∧ t.resp.data = [stampNat s.stamp % 2 ^ 32] ∧
      cellAt 0#32 (regKey 0x010 0x044) t.latch = BitVec.ofNat 32 (stampNat s.stamp / 2 ^ 32) ∧
      SameBut [.latch, .resp] s t := by
  refine answers_read rfl (by decide) hr rfl ⟨rfl, ?_, ?_, ?_⟩
  · rw [capture_okOr, answerRead_okOr]
  · rw [capture_okOr]
    exact cellAt_insert_same _ _ _ _
  · rw [capture_okOr]
    exact sameBut_of_except ((State.answerRead_same _ (by decide) _ _ _ _ _).trans (except_upd_latch _ (by decide) _))

theorem okOr_cases (s : State) : s.okOr = .ok ∨ s.okOr = .holdover := by
  unfold State.okOr
  split <;> simp

/-- Reading a word of the pair changes the hold of the pair alone. -/
theorem pair_read {c : Instr} {s : State} {off v : Nat} {r : RegRead} {code : Status} {b : Bool}
    (hc : exec c s = .next (s.readReg ctfRead 0x010 off r)) (hw : plainWord 0x010 off = true)
    (hr : s.admitsRead 0x010 off r = true) (hcode : code = .ok ∨ code = .holdover)
    (e : ∀ q : Req, q.page = 0x010 → q.off = off →
      ctfRead s q = (code, v, { s with ctf := { s.ctf with pairHeld := b } })) :
    Answers c s fun t => t.resp.data = [v] ∧ t.ctf.pairHeld = b ∧ SameBut [.ctf, .resp] s t := by
  refine answers_read hc hw hr (e _ rfl rfl) ?_
  have kept (u : State) : u.capture 0x010 off r.tc.val false code = u := by
    obtain rfl | rfl := hcode <;> simp [State.capture]
  rw [kept]
  refine ⟨?_, rfl, sameBut_of_except ((State.answerRead_same _ (by decide) _ _ _ _ _).trans
    (except_upd_ctf _ (by decide) _))⟩
  obtain rfl | rfl := hcode <;> rfl

theorem pairFreeze_holds {s : State} {r : RegRead} (hr : s.admitsRead 0x010 0x0B8 r = true) :
    Answers (.pairFreeze r) s fun t =>
      t.resp.data = [s.rd CTF_PSL] ∧ t.ctf.pairHeld = true ∧ SameBut [.ctf, .resp] s t :=
  pair_read rfl (by decide) hr (okOr_cases s) fun q hp ho => by simp only [ctfRead, hp, ho, if_true]

theorem pairRelease_releases {s : State} {r : RegRead} (hr : s.admitsRead 0x010 0x0C4 r = true) :
    Answers (.pairRelease r) s fun t =>
      t.resp.data = [s.rd CTF_PFRAC] ∧ t.ctf.pairHeld = false ∧ SameBut [.ctf, .resp] s t :=
  pair_read rfl (by decide) hr (.inl rfl) fun q hp ho => by simp only [ctfRead, hp, ho, if_true]

/-! ### UTC and the clocks -/

theorem utcSet_holds {s : State} {w : RegWrite} (hw : s.admitsWrite 0x010 0x0B0 w w.data.toNat = true) :
    Answers (.utcSet w) s fun t =>
      t.resp.code = .ok ∧ t.ctf.utcSet = some w.data.toNat ∧ SameBut [.ctf, .resp] s t := by
  refine answers_write rfl (by decide) hw rfl ⟨rfl, ?_, ?_⟩
  · simp
  · exact sameBut_of_except ((State.answer_same _ (by decide) _ _).trans (except_upd_ctf _ (by decide) _))

theorem utcLoad_loads {s : State} {v : Nat} (h : s.ctf.utcSet = some v) (hv : v < 2 ^ 32) :
    Answers .utcLoad s fun t =>
      t.rd CTF_UTC = v ∧ t.rd CTF_UTC_FRAC = 0 ∧ t.ctf.utcSet = none ∧
      Logged s t 0x4001 deviceTc (s.rd CTF_UTC + v * 2 ^ 32) ∧ t.stamp = s.stamp := by
  refine ⟨_, rfl, ?_⟩
  rw [h]
  refine ⟨?_, ?_, ?_, ?_, ?_⟩
  · simp +decide only [rd_log, rd_raise_free, rd_wr_free]
    exact rd_wr_lt rfl hv _
  · simp +decide only [rd_log, rd_raise_free, rd_wr_free]
    exact rd_wr_lt rfl (by decide) _
  · simp only [log_frame, raise_frame, wr_frame]
  · simp only [Logged, log_events, raise_frame, wr_frame, Nat.mod_eq_of_lt hv]
  · simp only [State.stamp, log_frame, raise_frame, wr_frame]

theorem xt32Stop_estimates {s : State} (h : s.ctf.xt32 = true) :
    Answers .xt32Stop s fun t => t.ctf.xt32 = false ∧ t.on CTF_UTC_EST = true := by
  refine ⟨_, rfl, ?_⟩
  rw [State.xt32Stops, if_pos h]
  constructor
  · rw [part_of_except (State.tmpShow_same 1 rfl _) .ctf rfl,
      part_of_except (State.glitch_same 67109121 rfl _ _ _ _) .ctf rfl]
    simp only [count_frame, raise_frame, wr_frame]
  · rw [on_of_past ((State.tmpShow_past (P := [0x0C8]) rfl _).trans (State.glitch_past rfl _ _ _ _)) rfl]
    simp +decide only [on_count_free, on_raise_free]
    exact on_wr_b2n rfl (by decide) _ true

theorem xt32Restart_ends {s : State} (h : s.ctf.xt32 = false) :
    Answers .xt32Restart s fun t => t.ctf.xt32 = true ∧ t.on CTF_UTC_EST = s.ctf.utcLost := by
  refine ⟨_, rfl, ?_⟩
  rw [if_neg (by rw [h]; exact Bool.false_ne_true)]
  constructor
  · rw [part_of_except (State.tmpShow_same 1 rfl _) .ctf rfl,
      part_of_except (State.glitchEnd_same 67109120 rfl _ _) .ctf rfl]
    simp only [wr_frame]
  · rw [on_of_past (State.tmpShow_past (P := [0x0C8]) rfl _) rfl, State.on,
      rd_of_except (State.glitchEnd_same 67109120 rfl _ _) rfl, ← State.on]
    exact on_wr_b2n rfl (by decide) _ _

theorem ref48Retry_counts (s : State) : Answers (.ref48Retry false) s fun t =>
    t.ctf.refWait = some (s.ctf.refWait.getD 0 + 1) ∧ SameBut [.ctf] s t :=
  ⟨_, rfl, rfl, sameBut_of_except (except_upd_ctf _ (by decide) _)⟩

theorem ref48Retry_logs {s : State} {n : Nat} (h : s.ctf.refWait = some n) :
    Answers (.ref48Retry true) s fun t =>
      t.ctf.refWait = none ∧ Logged s t 0x2004 deviceTc (n * 2 ^ 32) ∧ SameBut [.ctf, .events] s t := by
  refine ⟨_, rfl, ?_⟩
  rw [h]
  exact ⟨rfl, rfl, sameBut_of_except ((State.log_same _ (by decide) _ _ _ _).trans (except_upd_ctf _ (by decide) _))⟩

/-- Settles O2: a lemma for each command. -/
theorem ctfTimekeepingComplete : Obligations.CtfTimekeepingComplete :=
  ⟨fun _ _ hw => ⟨seed_first hw, seed_again hw⟩, fun _ _ hr => stampRead_latches hr,
    fun _ _ hr => pairFreeze_holds hr, fun _ _ hr => pairRelease_releases hr, fun _ _ hw => utcSet_holds hw,
    fun _ _ h hv => utcLoad_loads h hv, fun _ h => xt32Stop_estimates h, fun _ h => xt32Restart_ends h,
    ref48Retry_counts, fun _ _ h => ref48Retry_logs h⟩

/-! ### Pages that the signals write -/

theorem tunGatect_lies (k : Nat) : (TUN_CK_GATECT k).lies (0x081 + k) = true :=
  Fld.lies_iff.mpr ⟨rfl, (by decide : 32 ≤ 32), (by decide : 0x4C < 4096)⟩

theorem gpioIn_lies_lt {k : Nat} (h : k < 48) : (GPIO_IN k).lies 0x110 = true := gpioIn_lies ⟨k, h⟩

theorem State.gpioShow_past {P : List Nat} (hP : P.contains 0x110 = true) (s : State) :
    Past P (State.gpioShow s) = Past P s := by
  refine foldl_mem_past (fun u k hk => ?_) s
  split
  · exact State.wr_past hP (gpioIn_lies_lt (List.mem_range.mp hk)) u _
  · rfl

theorem State.burstCut_past {P : List Nat} (hP : P.contains 0x080 = true) (s : State) (c : Status) :
    Past P (State.burstCut s c) = Past P s := by
  unfold State.burstCut
  repeat' split
  all_goals
    simp +decide only [Past, State.burstFall_past hP, State.burstEnd_past hP]

theorem State.countGated_past {P : List Nat} (hTUN : ∀ k < 8, P.contains (0x081 + k) = true) (s : State) :
    Past P (State.countGated s) = Past P s := by
  unfold State.countGated
  dsimp only
  refine (foldl_mem_past (fun u k hk => ?_) _).trans (past_of_except (State.setTun_same _ rfl s _))
  exact State.count_past (hTUN k (List.mem_range.mp hk)) (tunGatect_lies k) u _

theorem State.tunGate_past {P : List Nat} (h080 : P.contains 0x080 = true) (hTUN : ∀ k < 8, P.contains
    (0x081 + k) = true) (s : State) (old : State) :
    Past P (State.tunGate s old) = Past P s := by
  unfold State.tunGate
  dsimp only
  repeat' split
  all_goals
    simp +decide only [Past, State.setTun_same, State.burstCut_past h080, State.countGated_past hTUN, Nat.reduceAnd]

theorem State.signalFollow_past {P : List Nat} (h080 : P.contains 0x080 = true) (h110 : P.contains 0x110 = true)
    (hTUN : ∀ k < 8, P.contains (0x081 + k) = true) (s : State) (old : State) :
    Past P (State.signalFollow s old) = Past P s := by
  unfold State.signalFollow
  simp +decide only [Past, State.tunGate_past h080 hTUN, State.gpioShow_past h110,
    apply_ite (State.except 137438953470), apply_ite (regsPast _), ite_self]

/-! ### Committing the table -/

theorem slotLo_free {f : Fld} (h : f.key + 4 * f.words ≤ regKey 0x011 0x100) (n : Nat) :
    f.free (CTF_SLOT_LO n) = true := by
  refine Fld.free_iff.mpr ⟨?_, fun _ => Nat.le_refl 32⟩
  simp only [Fld.apart, Bool.or_eq_true, decide_eq_true_eq]
  exact .inl (.inl (le_trans h (by simp only [Fld.key, regKey, CTF_SLOT_LO]; omega)))

theorem slotHi_free {f : Fld} (h : f.key + 4 * f.words ≤ regKey 0x011 0x100) (n : Nat) :
    f.free (CTF_SLOT_HI n) = true := by
  refine Fld.free_iff.mpr ⟨?_, fun _ => Nat.le_refl 32⟩
  simp only [Fld.apart, Bool.or_eq_true, decide_eq_true_eq]
  exact .inl (.inl (le_trans h (by simp only [Fld.key, regKey, CTF_SLOT_HI]; omega)))

theorem shadowEntry_view (s : State) (v n : Nat) : (s.wr CTF_VIEW v).shadowEntry n = s.shadowEntry n := by
  simp only [State.shadowEntry, State.rd64, rd_wr_free (slotLo_free (f := CTF_VIEW) (by decide) n),
    rd_wr_free (slotHi_free (f := CTF_VIEW) (by decide) n)]

theorem firstBadEntry_view (s : State) (v : Nat) : (s.wr CTF_VIEW v).firstBadEntry = s.firstBadEntry := by
  simp only [State.firstBadEntry, shadowEntry_view]

/-- What a performed CTF_COMMIT makes of the state. -/
theorem ctfWrite_commit {s : State} {d : Nat} (hb : bit d 0 = true) (port : Port) (tc : Nat) :
    ctfWrite s ⟨port, tc, 0x011, 0x040, none⟩ d = (.ok, (s.wr CTF_VIEW (bits d 1 1)).schedCommit) := by
  simp +decide only [ctfWrite, if_false, hb, if_true]

/-- A performed CTF_COMMIT answers OK; its outcome is that of the check of the bank it found. -/
theorem ctfCommit_answers {s : State} {w : RegWrite} {P : State → Prop}
    (hw : s.admitsWrite 0x011 0x040 w (setBit w.data.toNat 0) = true)
    (hP : ∀ v, P (((s.wr CTF_VIEW v).schedCommit).answer .ok)) : Answers (.ctfCommit w) s P := by
  refine answers_write rfl (by decide) hw (ctfWrite_commit ?_ _ _) (hP _)
  rw [bit_ofNat (by decide), bit_setBit_same]

/-- The cycle at which the bank is to take effect. -/
abbrev State.commitCycle (s : State) : Nat := s.rd CTF_AT_LO + 2 ^ 32 * s.rd CTF_AT_HI

theorem commitCycle_view (s : State) (v : Nat) : (s.wr CTF_VIEW v).commitCycle = s.commitCycle := by
  simp +decide only [State.commitCycle, rd_wr_free]

theorem stamp_wr (s : State) (f : Fld) (v : Nat) : (s.wr f v).stamp = s.stamp :=
  stamp_of_ctf (by simp only [wr_frame])

theorem ctfCommit_waits {s : State} {w : RegWrite} (hw : s.admitsWrite 0x011 0x040 w (setBit w.data.toNat 0) = true)
    (hb : s.firstBadEntry = none) (ht : stampNat s.stamp + 1024 ≤ s.commitCycle * 65536) :
    Answers (.ctfCommit w) s fun t => t.resp.code = .ok ∧ t.ctf.commitAt = some s.commitCycle := by
  refine ctfCommit_answers hw fun v => ⟨rfl, ?_⟩
  have late : ¬ (s.wr CTF_VIEW v).commitCycle * 65536 < stampNat (s.wr CTF_VIEW v).stamp + 1024 := by
    rw [commitCycle_view, stamp_wr]
    omega
  simp only [State.schedCommit, firstBadEntry_view, hb]
  rw [if_neg late]
  exact congrArg some (commitCycle_view s v)

theorem scode_commitCode (s : State) (c : Status) (h : codeOf c < 256) : (s.commitCode c).rd CTF_SCODE = codeOf c := by
  simp +decide only [State.commitCode, rd_raise_free]
  exact rd_wr_lt rfl h _

theorem commitCode_ctf (s : State) (c : Status) : (s.commitCode c).ctf = s.ctf := by
  simp only [State.commitCode, raise_frame, wr_frame]

theorem ctfCommit_late {s : State} {w : RegWrite} (hw : s.admitsWrite 0x011 0x040 w (setBit w.data.toNat 0) = true)
    (hb : s.firstBadEntry = none) (ht : s.commitCycle * 65536 < stampNat s.stamp + 1024) :
    Answers (.ctfCommit w) s fun t =>
      t.rd CTF_SCODE = codeOf .timeout ∧ t.ctf.commitAt = s.ctf.commitAt ∧ t.ctf.active = s.ctf.active := by
  refine ctfCommit_answers hw fun v => ?_
  have late : (s.wr CTF_VIEW v).commitCycle * 65536 < stampNat (s.wr CTF_VIEW v).stamp + 1024 := by
    rwa [commitCycle_view, stamp_wr]
  simp only [State.schedCommit, firstBadEntry_view, hb]
  rw [if_pos late]
  refine ⟨(rd_answer _ _ _).trans (scode_commitCode _ _ (by decide)), ?_⟩
  simp only [answer_frame, commitCode_ctf, wr_frame, and_self]

theorem ctfCommit_bad {s : State} {w : RegWrite} (hw : s.admitsWrite 0x011 0x040 w (setBit w.data.toNat 0) = true)
    {n : Nat} (hb : s.firstBadEntry = some n) :
    Answers (.ctfCommit w) s fun t =>
      t.rd CTF_SCODE = codeOf .cfgInvalid ∧ t.rd CTF_FIRST = n ∧ t.ctf.commitAt = s.ctf.commitAt ∧
      t.ctf.active = s.ctf.active := by
  have hn : n < 256 := List.mem_range.mp (List.mem_of_find?_eq_some hb)
  refine ctfCommit_answers hw fun v => ?_
  simp only [State.schedCommit, firstBadEntry_view, hb]
  refine ⟨(rd_answer _ _ _).trans (scode_commitCode _ _ (by decide)), ?_, ?_⟩
  · simp +decide only [rd_answer, State.commitCode, rd_raise_free, rd_wr_free]
    exact rd_wr_lt rfl hn _
  · simp only [answer_frame, commitCode_ctf, wr_frame, and_self]

/-! ### The active table -/

/-- A cell of a table built of the entries that a predicate keeps. -/
theorem cellAt_filter_range {α : Type} (d : α) (p : Nat → Bool) (f : Nat → α) {n k : Nat} (hk : k < n) :
    cellAt d k (((List.range n).filter p).map fun i => (i, f i)) = if p k then f k else d := by
  have cell (l : List Nat) : cellAt d k ((l.filter p).map fun i => (i, f i)) =
      if k ∈ l ∧ p k then f k else d := by
    induction l with
    | nil => simp []
    | cons i l ih =>
      by_cases hp : p i <;> by_cases hi : k = i
      · subst hi; simp [cellAt, hp]
      · simp [hp, cellAt, hi, ih]
      · subst hi; simp [hp, ih]
      · simp [hp, hi, ih]
  rw [cell]
  simp only [List.mem_range, hk, true_and]

theorem shadowEntry_lt (s : State) (n : Nat) : s.shadowEntry n < 2 ^ 64 := by
  have lo := rd_lt s (f := CTF_SLOT_LO n) rfl
  have hi := rd_lt s (f := CTF_SLOT_HI n) rfl
  simp only [State.shadowEntry, State.rd64, CTF_SLOT_LO, CTF_SLOT_HI] at lo hi ⊢
  omega

/-- The table that the shadow bank of `s` makes. -/
def State.shadowTable (s : State) : List (Nat × BitVec 64) :=
  ((List.range 256).filter fun n => s.shadowEntry n != 0).map fun n => (n, BitVec.ofNat 64 (s.shadowEntry n))

theorem cellAt_shadowTable (s : State) (k : Fin 256) :
    (cellAt 0#64 k.val s.shadowTable).toNat = s.shadowEntry k.val := by
  rw [State.shadowTable, cellAt_filter_range _ _ _ k.isLt]
  split
  · rw [BitVec.toNat_ofNat, Nat.mod_eq_of_lt (shadowEntry_lt s _)]
  · next h =>
    simp only [bne_iff_ne, ne_eq, Decidable.not_not] at h
    rw [h]
    rfl

/-- What `swapBanks` keeps of the cycle time: everything but the table and its signals. -/
theorem swapBanks_ctf (s : State) : s.swapBanks.ctf =
    { s.ctf with active := s.shadowTable, asserted := [], quiet := [], commitAt := none } := by
  have old : ((List.range 256).foldl (fun s' n => s'.wr64 (CTF_SLOT_LO n) (CTF_SLOT_HI n)
      (cellAt 0#64 n s.ctf.active).toNat) s).ctf = s.ctf :=
    part_of_except (foldl_same 1 _ (fun u n => State.wr64_same 1 rfl u _ _ _) _ s) .ctf rfl
  simp only [State.swapBanks, State.countNoAnchor, commitCode_ctf, wr_frame, old]
  rfl

theorem scode_swapBanks (s : State) : s.swapBanks.rd CTF_SCODE = codeOf .ok := by
  simp +decide only [State.swapBanks, State.countNoAnchor, rd_wr_free]
  exact scode_commitCode _ _ (by decide)

/-- The pages that a change of the signals writes. -/
def signalPages : List Nat := [0x080, 0x110] ++ (List.range 8).map (0x081 + ·)

theorem rd_signalFollow (s old : State) {f : Fld} (h : f.outside signalPages = true) :
    (s.signalFollow old).rd f = s.rd f :=
  rd_of_past (State.signalFollow_past (by decide) (by decide) (by decide) s old) h

theorem signalFollow_ctf (s old : State) : (s.signalFollow old).ctf = s.ctf :=
  part_of_except (State.signalFollow_same 262145 rfl s old) .ctf rfl

theorem activeEntry_of_ctf {s t : State} (h : t.ctf = s.ctf) (n : Nat) : t.activeEntry n = s.activeEntry n := by
  rw [State.activeEntry, State.activeEntry, h]

theorem schedActivate_swaps {s : State} {n : Nat} (h : s.ctf.commitAt = some n) (hs : s.ctf.seeded = true)
    (hn : n ≤ s.ctf.cyc) :
    Answers .schedActivate s fun t =>
      t.ctf.commitAt = none ∧ t.rd CTF_SCODE = codeOf .ok ∧
      ∀ k : Fin 256, t.activeEntry k.val = s.shadowEntry k.val := by
  refine ⟨_, rfl, ?_⟩
  rw [h]
  simp only [if_pos (And.intro hs hn)]
  refine ⟨?_, ?_, fun k => ?_⟩
  · rw [signalFollow_ctf, swapBanks_ctf]
  · simp +decide only [rd_signalFollow, scode_swapBanks]
  · rw [activeEntry_of_ctf (signalFollow_ctf _ _), State.activeEntry, swapBanks_ctf]
    exact cellAt_shadowTable s k

/-! ### The signals of the table -/

theorem plpWindow_ctf (s : State) (n : Nat) : (s.plpWindow n).ctf = s.ctf :=
  part_of_except (State.plpWindow_same 1 rfl s n) .ctf rfl

/-- An edge of the table that is due changes the cycle time as `signalEdge` says, and nothing after it does. -/
theorem schedSignal_edge {s : State} {n : Fin 256} {edge : SchedEdge} {c : CtfState}
    (hc : s.signalEdge n.val edge = some c) (hp : s.edgePhase (s.activeEntry n.val) edge ≤ s.ctf.ph) :
    Answers (.schedSignal n edge) s fun t => t.ctf = c := by
  have now : s.advanceTo (s.edgePhase (s.activeEntry n.val) edge) = s := by
    rw [State.advanceTo, if_neg (Nat.not_lt.mpr hp)]
  refine ⟨_, rfl, ?_⟩
  dsimp only
  rw [hc]
  dsimp only
  rw [now, hc]
  split
  · rw [plpWindow_ctf, signalFollow_ctf]
  · rw [signalFollow_ctf]

theorem Answers.imp {c : Instr} {s : State} {P Q : State → Prop} (h : Answers c s P) (hPQ : ∀ t, P t → Q t) :
    Answers c s Q := by
  obtain ⟨t, ht, hp⟩ := h
  exact ⟨t, ht, hPQ t hp⟩

theorem schedSignal_asserts {s : State} {n : Fin 256} (ha : s.entryActs (s.activeEntry n.val) = true)
    (hp : s.edgePhase (s.activeEntry n.val) .assertSignal ≤ s.ctf.ph) :
    Answers (.schedSignal n .assertSignal) s fun t => n.val ∈ t.ctf.asserted := by
  refine (schedSignal_edge (by simp only [State.signalEdge, ha, if_true]; rfl) hp).imp fun t ht => ?_
  rw [ht]
  exact List.mem_cons_self

theorem schedSignal_releases {s : State} {n : Fin 256} (ha : n.val ∈ s.ctf.asserted)
    (hp : s.edgePhase (s.activeEntry n.val) .releaseSignal ≤ s.ctf.ph) :
    Answers (.schedSignal n .releaseSignal) s fun t => t.ctf.asserted = s.ctf.asserted.erase n.val := by
  refine (schedSignal_edge (by simp only [State.signalEdge, ha, if_true]; rfl) hp).imp fun t ht => ?_
  rw [ht]

theorem schedSignal_opens {s : State} {n : Fin 256} (ha : s.entryActs (s.activeEntry n.val) = true)
    (hc : entCons (s.activeEntry n.val) = 2) (hq : s.on CTF_QAUTO = true)
    (hp : s.edgePhase (s.activeEntry n.val) .openQuiet ≤ s.ctf.ph) :
    Answers (.schedSignal n .openQuiet) s fun t => n.val ∈ t.ctf.quiet ∧ t.quietGate = true := by
  refine (schedSignal_edge (by simp only [State.signalEdge, ha, hc, hq, and_self, if_true]; rfl) hp).imp fun t ht => ?_
  rw [State.quietGate, ht]
  exact ⟨List.mem_cons_self, by simp⟩

theorem schedSignal_closes {s : State} {n : Fin 256} (ha : n.val ∈ s.ctf.quiet)
    (hp : s.edgePhase (s.activeEntry n.val) .closeQuiet ≤ s.ctf.ph) :
    Answers (.schedSignal n .closeQuiet) s fun t => t.ctf.quiet = s.ctf.quiet.erase n.val := by
  refine (schedSignal_edge (by simp only [State.signalEdge, ha, if_true]; rfl) hp).imp fun t ht => ?_
  rw [ht]

/-- Settles O3: the outcomes of CTF_COMMIT, the swap of the banks, and each edge of the table. -/
theorem schedulingTableComplete : Obligations.SchedulingTableComplete :=
  ⟨fun _ _ hw => ⟨ctfCommit_waits hw, ctfCommit_late hw, fun _ => ctfCommit_bad hw⟩,
    fun _ _ h hs hn => schedActivate_swaps h hs hn, fun _ _ ha hp => schedSignal_asserts ha hp,
    fun _ _ ha hp => schedSignal_releases ha hp, fun _ _ ha hc hq hp => schedSignal_opens ha hc hq hp,
    fun _ _ ha hp => schedSignal_closes ha hp⟩

end Sys2Proof.Machine

/-! ## Register pages -/

namespace Sys2Proof.Machine

open Reg

/-! ### The CRC-8 is linear -/

theorem crc8Step_xor (a b : BitVec 8) : crc8Step (a ^^^ b) = crc8Step a ^^^ crc8Step b := by
  unfold crc8Step
  rw [BitVec.msb_xor, BitVec.shiftLeft_xor_distrib]
  cases a.msb <;> cases b.msb
  · rfl
  · exact BitVec.xor_assoc _ _ _
  · exact (BitVec.xor_assoc _ _ _).trans ((congrArg _ (BitVec.xor_comm _ _)).trans (BitVec.xor_assoc _ _ _).symm)
  · simp only [Bool.true_bne, Bool.not_true, Bool.false_eq_true, if_false, if_true]
    rw [BitVec.xor_assoc, BitVec.xor_comm 0x2F#8, BitVec.xor_assoc, BitVec.xor_self, BitVec.xor_zero]

theorem crc8Byte_xor (a b x y : BitVec 8) : crc8Byte (a ^^^ b) (x ^^^ y) = crc8Byte a x ^^^ crc8Byte b y := by
  have swap : a ^^^ b ^^^ (x ^^^ y) = (a ^^^ x) ^^^ (b ^^^ y) := by
    rw [BitVec.xor_assoc, BitVec.xor_assoc, ← BitVec.xor_assoc b, BitVec.xor_comm b x, BitVec.xor_assoc x]
  simp only [crc8Byte, swap, crc8Step_xor]

theorem leBytes_xor (k m n : Nat) :
    leBytes k (m ^^^ n) = List.zipWith (· ^^^ ·) (leBytes k m) (leBytes k n) := by
  induction k generalizing m n with
  | zero => rfl
  | succ k ih =>
    have high : (m ^^^ n) / 256 = m / 256 ^^^ n / 256 := Nat.xor_div_two_pow (n := 8)
    rw [leBytes, leBytes, leBytes, List.zipWith_cons_cons, high, ih, BitVec.ofNat_xor]

theorem leBytes_length (k n : Nat) : (leBytes k n).length = k := by
  induction k generalizing n with
  | zero => rfl
  | succ k ih => rw [leBytes, List.length_cons, ih]

theorem crc8_fold_xor (l m : List Byte) (h : l.length = m.length) (a b : BitVec 8) :
    (List.zipWith (· ^^^ ·) l m).foldl crc8Byte (a ^^^ b) = l.foldl crc8Byte a ^^^ m.foldl crc8Byte b := by
  induction l generalizing m a b with
  | nil =>
    cases m with
    | nil => rfl
    | cons y m => exact absurd h (by simp)
  | cons x l ih =>
    cases m with
    | nil => exact absurd h (by simp)
    | cons y m =>
      simp only [List.zipWith_cons_cons, List.foldl_cons, ← ih m (by simpa using h), crc8Byte_xor]

/-- The CRC-8 register after the eight bytes of a word, from 0. -/
def crcLinear (n : Nat) : BitVec 8 := (beBytes 8 n).foldl crc8Byte 0#8

theorem crc8_xor (m n : Nat) : crc8 (beBytes 8 (m ^^^ n)) = crc8 (beBytes 8 m) ^^^ crcLinear n := by
  have fold := crc8_fold_xor (beBytes 8 m) (beBytes 8 n) (by simp [beBytes, leBytes_length]) 0xFF#8 0#8
  rw [BitVec.xor_zero] at fold
  rw [crc8, crc8, crcLinear, beBytes, leBytes_xor, List.reverse_zipWith (by simp [leBytes_length]), ← beBytes, ← beBytes,
    fold, BitVec.xor_assoc, BitVec.xor_assoc, BitVec.xor_comm (List.foldl _ 0#8 _)]

/-! ### What the carry code covers -/

/-- The word that the carry code covers: the direction, the tenant, the address and the data. -/
def carryWord (dir : Bool) (tc : BitVec 6) (a : BitVec 24) (d : Word) : BitVec 63 :=
  BitVec.ofBool dir ++ tc ++ a ++ d

theorem carryWord_toNat (dir : Bool) (tc : BitVec 6) (a : BitVec 24) (d : Word) :
    (carryWord dir tc a d).toNat =
      b2n dir * 2 ^ 62 + tc.toNat % 64 * 2 ^ 56 + a.toNat % 2 ^ 24 * 2 ^ 32 + d.toNat := by
  have htc := tc.isLt
  have ha := a.isLt
  have hd := d.isLt
  unfold carryWord
  rw [BitVec.toNat_append, BitVec.toNat_append, BitVec.toNat_append, ← Nat.shiftLeft_add_eq_or_of_lt hd,
    ← Nat.shiftLeft_add_eq_or_of_lt ha, ← Nat.shiftLeft_add_eq_or_of_lt htc]
  simp only [Nat.shiftLeft_eq]
  cases dir <;>
    simp only [b2n, BitVec.toNat_ofBool, Bool.toNat_false, Bool.toNat_true, if_true, Bool.false_eq_true, if_false] <;>
    omega

theorem carryCode_eq (dir : Bool) (tc : BitVec 6) (a : BitVec 24) (d : Word) :
    carryCode dir tc.toNat a.toNat d = crc8 (beBytes 8 (carryWord dir tc a d).toNat) := by
  rw [carryCode, carryWord_toNat]

theorem carryWord_xor (dir dir' : Bool) (tc tc' : BitVec 6) (a a' : BitVec 24) (d d' : Word) :
    carryWord (dir ^^ dir') (tc ^^^ tc') (a ^^^ a') (d ^^^ d') = carryWord dir tc a d ^^^ carryWord dir' tc' a' d' := by
  have parts := BitVec.xor_append (x₁ := BitVec.ofBool dir ++ tc ++ a) (x₂ := BitVec.ofBool dir' ++ tc' ++ a') (y₁ := d)
    (y₂ := d')
  refine Eq.trans ?_ parts.symm
  rw [BitVec.xor_append, BitVec.xor_append, BitVec.ofBool_xor_ofBool]
  rfl

/-- A difference whose register is not zero changes the carry code. -/
theorem carryCode_ne {dir' : Bool} {tc' : BitVec 6} {a' : BitVec 24} {d' : Word}
    (h : crcLinear (carryWord dir' tc' a' d').toNat ≠ 0#8) (dir : Bool) (tc : BitVec 6) (a : BitVec 24) (d : Word) :
    carryCode (dir ^^ dir') (tc ^^^ tc').toNat (a ^^^ a').toNat (d ^^^ d') ≠ carryCode dir tc.toNat a.toNat d := by
  rw [carryCode_eq, carryCode_eq, carryWord_xor, BitVec.toNat_xor, crc8_xor]
  intro e
  refine h ?_
  calc crcLinear _ = crc8 (beBytes 8 (carryWord dir tc a d).toNat) ^^^
          (crc8 (beBytes 8 (carryWord dir tc a d).toNat) ^^^ crcLinear (carryWord dir' tc' a' d').toNat) := by
        rw [← BitVec.xor_assoc, BitVec.xor_self, BitVec.zero_xor]
    _ = 0#8 := by rw [e, BitVec.xor_self]

/-- Settles O8: the code is linear, and no single bit lies in the kernel of its linear part. -/
theorem carryCodeSeesOneBit : Obligations.CarryCodeSeesOneBit := by
  intro dir tc a d
  have data : ∀ k : Fin 32, crcLinear (carryWord false 0#6 0#24 (1#32 <<< k.val)).toNat ≠ 0#8 := by decide +kernel
  have address : ∀ k : Fin 24, crcLinear (carryWord false 0#6 (1#24 <<< k.val) 0#32).toNat ≠ 0#8 := by decide +kernel
  have tenant : ∀ k : Fin 6, crcLinear (carryWord false (1#6 <<< k.val) 0#24 0#32).toNat ≠ 0#8 := by decide +kernel
  have direction : crcLinear (carryWord true 0#6 0#24 0#32).toNat ≠ 0#8 := by decide +kernel
  refine ⟨fun k => ?_, fun k => ?_, fun k => ?_, ?_⟩
  · simpa only [Bool.xor_false, BitVec.xor_zero] using carryCode_ne (data k) dir tc a d
  · simpa only [Bool.xor_false, BitVec.xor_zero] using carryCode_ne (address k) dir tc a d
  · simpa only [Bool.xor_false, BitVec.xor_zero] using carryCode_ne (tenant k) dir tc a d
  · simpa only [Bool.xor_true, BitVec.xor_zero] using carryCode_ne direction dir tc a d

/-! ### A tenant that does not own the page -/

/-- A scrub changes STS and IRQ_RAW of its page alone. -/
theorem reg_scrubPage_other (s : State) {page p o : Nat} (hsts : regKey p o ≠ regKey page 0x0C)
    (hirq : regKey p o ≠ regKey page 0x10) : (s.scrubPage page).reg p o = s.reg p o := by
  have sts (u : State) (v : Nat) : (u.wr (STS_INTEGERR page) v).reg p o = u.reg p o :=
    reg_wr_otherKey u (f := STS_INTEGERR page) v (by show 1 ≤ 32; decide) hsts
  have raised (u : State) (b : Nat) : (u.raise page b).reg p o = u.reg p o :=
    reg_wr_otherKey u (f := IRQ_RAW page) _ (Nat.le_refl 32) hirq
  unfold State.scrubPage
  dsimp only
  split
  · split
    · rw [reg_setPg]
    · rw [reg_log, raised, sts, reg_setPg, reg_setPg]
  · rw [sts, reg_setPg]

theorem reg_scrubFirst_other (s : State) {page p o : Nat} (hsts : regKey p o ≠ regKey page 0x0C)
    (hirq : regKey p o ≠ regKey page 0x10) : (s.scrubFirst page).reg p o = s.reg p o := by
  unfold State.scrubFirst
  split
  · exact reg_scrubPage_other s hsts hirq
  · rfl

theorem rd_scrubFirst_owner (s : State) (p : Nat) : (s.scrubFirst p).rd (OWN_TC p) = s.rd (OWN_TC p) := by
  have word : (s.scrubFirst p).reg p 0x24 = s.reg p 0x24 :=
    reg_scrubFirst_other s (by unfold regKey; omega) (by unfold regKey; omega)
  exact congrArg (bits · 0 6) word

theorem owns_scrubFirst (s : State) (q : Req) : (s.scrubFirst q.page).owns q = s.owns q := by
  rw [State.owns, State.owns, rd_scrubFirst_owner]

/-- A write to a page that the tenant does not own is stopped. -/
theorem stopOf_notOwned {s : State} {a : Access} {r : Route} {p : Nat} (hp : r.page = some p)
    (ho : s.owns ⟨a.port, a.tc.val, p, r.off / 4 * 4, r.slot⟩ = false) : ∃ c, s.stopOf true a r = some c := by
  unfold State.stopOf
  dsimp only
  rw [hp]
  simp only [ho, Bool.not_false, Bool.true_and, if_true]
  repeat' split
  all_goals exact ⟨_, rfl⟩

/-- A stopped access changes the counters of page 0x000 and the capture of its page alone. -/
theorem reg_stopped_other (s : State) (write : Bool) (a : Access) {r : Route} {page p o : Nat} (c : Status × Nat)
    (hr : r.page = some page) (hsys : regKey p o ≠ regKey 0 0x5C) (herr : regKey p o ≠ regKey page 0x28)
    (hirq : regKey p o ≠ regKey page 0x10) : (s.stopped write a r c).reg p o = s.reg p o := by
  have counted (u : State) (n : Nat) : (u.count SYS_HPERR n).reg p o = u.reg p o :=
    reg_wr_otherKey u (f := SYS_HPERR) _ (by decide) hsys
  have slot (u : State) (n : Nat) : (u.count SYS_NOSLOT n).reg p o = u.reg p o :=
    reg_wr_otherKey u (f := SYS_NOSLOT) _ (by decide) hsys
  have failed (u : State) (q : Nat) : (u.lockFailed q).reg p o = u.reg p o := by
    unfold State.lockFailed
    dsimp only
    split <;> rfl
  unfold State.stopped
  simp only [hr, reg_capture_other _ _ _ _ _ herr hirq, apply_ite (State.reg · p o), failed, counted, slot, reg_log,
    ite_self]

/-- Settles O10: such a write is stopped, and neither a scrub that was due nor the capture lies among the block
registers. -/
theorem nonOwnerWriteChangesNothing : Obligations.NonOwnerWriteChangesNothing := by
  intro s t a r p hroute hpage h0 hp hown he o hlo hhi
  have owner : (s.scrubFirst p).owns ⟨a.port, a.tc.val, p, r.off / 4 * 4, r.slot⟩ = false :=
    (owns_scrubFirst s _).trans hown
  obtain ⟨c, hc⟩ := stopOf_notOwned hpage owner
  have result : t = ((s.scrubFirst p).stopped true a r c).answer c.1 := by
    refine (Host.Outcome.next.inj he).symm.trans ?_
    simp only [State.write, hroute, hpage, hc]
  rw [result, reg_answer, reg_stopped_other _ _ _ c hpage, reg_scrubFirst_other]
  all_goals
    unfold regKey
    omega

/-! ### The state after power-on -/

theorem reg_reset (page off : Nat) : State.reset.reg page off = (RegMap.resetWord page off).toNat := rfl

theorem rd_reset {f : Fld} (h : f.width ≤ 32) :
    State.reset.rd f = bits (RegMap.resetWord f.page f.off).toNat f.lo f.width := by
  rw [State.rd, if_pos h, reg_reset]

theorem resetWord_header : ∀ page : Fin 1024, RegMap.assigned page.val = true →
    (RegMap.resetWord page.val 0x04).toNat = 0x00B10100 ∧
    bits (RegMap.resetWord page.val 0x24).toNat 0 6 = RegMap.homeOwner page.val := by decide +kernel

theorem resetWord_tenants : ∀ t : Fin 64,
    bits (RegMap.resetWord (TNC_TST t.val).page (TNC_TST t.val).off).toNat (TNC_TST t.val).lo (TNC_TST t.val).width =
      if t.val ≤ 1 then tenActive else tenOff := by decide

/-- Settles O7: no word is stored after power-on, and the reset words of the two tables are checked word by word. -/
theorem resetLeaves : Obligations.ResetLeaves := by
  refine ⟨rfl, rfl, rfl, reg_reset, by decide, fun page ha => ?_, fun t => ?_⟩
  · obtain ⟨hv, ho⟩ := resetWord_header page ha
    rw [reg_reset, rd_reset (f := OWN_TC page.val) (by show 6 ≤ 32; decide)]
    exact ⟨hv, ho⟩
  · rw [State.tenant, rd_reset (f := TNC_TST t.val) (by show 2 ≤ 32; decide)]
    exact resetWord_tenants t

/-! ### The words of the common header -/

/-- Two fields of different words of one page. -/
theorem free_of_off {f g : Fld} (hp : f.page = g.page) (hf : f.width ≤ 32) (hg : g.lo + g.width ≤ 32)
    (ho : f.off + 4 ≤ g.off ∨ g.off + 4 ≤ f.off) : f.free g = true := by
  refine Fld.free_iff.mpr ⟨?_, fun _ => hg⟩
  have hgw : g.width ≤ 32 := by omega
  simp only [Fld.apart, Fld.words, Fld.key, regKey, if_pos hf, if_pos hgw, Bool.or_eq_true, decide_eq_true_eq, hp]
  omega

theorem wideRows_header : ∀ r ∈ wideRows, ∀ o ∈ [0x08, 0x14, 0x1C], r.base o = none := by decide

/-- No wide value lies over the words of the header. -/
theorem wideOf_header (page : Nat) {off : Nat} (h : off ∈ [0x08, 0x14, 0x1C]) : wideOf page off = none := by
  unfold wideOf
  refine List.findSome?_eq_none_iff.mpr fun r hr => ?_
  rw [wideRows_header r (List.mem_of_mem_filter hr) off h]
  rfl

theorem plainWord_header {page off : Nat} (hp : page < 1024) (ha : RegMap.assigned page = true)
    (h : off ∈ [0x08, 0x14, 0x1C]) : plainWord page off = true := by
  have hh : isHeldWord page off = false := by rw [isHeldWord, wideOf_header page h]
  simp only [List.mem_cons, List.not_mem_nil, or_false] at h
  exact plainWord_iff.mpr ⟨hp, by omega, by omega, ha, hh⟩

theorem reg_mendUpsets (s : State) (page off p o : Nat) : (s.mendUpsets page off).reg p o = s.reg p o := by
  unfold State.mendUpsets
  split <;> rfl

theorem reg_storeOne_other (s : State) {page off p o : Nat} (d : Nat) (h : regKey p o ≠ regKey page off) :
    (s.storeOne page off d).reg p o = s.reg p o := by
  rw [State.storeOne, reg_mendUpsets, reg_setReg_other s h]

theorem reg_storeOne_same (s : State) (page off d : Nat) :
    (s.storeOne page off d).reg page off = storedWord (RegMap.fieldsAt page off) (s.reg page off) d % 2 ^ 32 := by
  rw [State.storeOne, reg_mendUpsets, reg_setReg_same]

/-- A word whose every bit is RW takes the word written. -/
theorem storedWord_whole (page old d : Nat) (hd : d < 2 ^ 32) :
    storedWord (RegMap.fieldsAt page 0x14) old d % 2 ^ 32 = d := by
  have mask : RegMap.maskOf .rw (RegMap.fieldsAt page 0x14) = 0xFFFFFFFF ∧
      RegMap.maskOf .w1c (RegMap.fieldsAt page 0x14) = 0 := ⟨rfl, rfl⟩
  have whole (n : Nat) : n &&& 0xFFFFFFFF = n % 2 ^ 32 := Nat.and_two_pow_sub_one_eq_mod n 32
  simp only [storedWord, mask.1, mask.2, Nat.xor_self, Nat.and_zero, Nat.zero_or, Nat.zero_and, Nat.xor_zero, whole,
    Nat.mod_eq_of_lt hd]

/-- Keys of words of the register space tell their page and offset. -/
theorem regKey_ne {p o page off : Nat} (ho : o < 4096) (hoff : off < 4096) (h : ¬(p = page ∧ o = off)) :
    regKey p o ≠ regKey page off := by
  unfold regKey
  omega

theorem configWrite_eq (s : State) (page off : Nat) (w : RegWrite) :
    exec (.configWrite (wordAccess page off w)) s = .next (s.writeReg anyWrite page off w id) := by
  change Host.Outcome.next (s.write anyWrite (wordAccess page off w)) = _
  rw [State.writeReg, id_eq, BitVec.ofNat_toNat, BitVec.setWidth_eq]
  rfl

theorem irqEn_stored {s : State} {page : Fin 1024} {w : RegWrite} (ha : RegMap.assigned page.val = true)
    (hw : s.admitsWrite page.val 0x14 w w.data.toNat = true) :
    Answers (.configWrite (wordAccess page.val 0x14 w)) s fun t =>
      t.resp.code = .ok ∧ t.rd (IRQ_EN page.val) = w.data.toNat ∧
      (∀ p o : Nat, p < 1024 → o < 4096 → ¬(p = page.val ∧ o = 0x14) → t.reg p o = s.reg p o) := by
  have data : (BitVec.ofNat 32 (id w.data.toNat)).toNat = w.data.toNat := by
    rw [id_eq, BitVec.ofNat_toNat, BitVec.setWidth_eq]
  have writer : anyWrite s ⟨w.port, w.tc.val, page.val, 0x14, none⟩ (BitVec.ofNat 32 (id w.data.toNat)).toNat =
      (.ok, s.storeOne page.val 0x14 w.data.toNat) := by
    rw [data]
    simp +decide only [anyWrite, headWrite, plainWrite, State.storeWord,
      wideOf_header page.val (off := 0x14) (by decide), if_true]
  refine answers_write (configWrite_eq s _ _ w) (plainWord_header page.isLt ha (by decide)) hw writer ⟨rfl, ?_, ?_⟩
  · have word := reg_storeOne_same s page.val 0x14 w.data.toNat
    rw [storedWord_whole _ _ _ w.data.isLt] at word
    rw [rd_answer, State.rd, if_pos (by show 32 ≤ 32; decide)]
    change bits ((s.storeOne page.val 0x14 w.data.toNat).reg page.val 0x14) 0 32 = _
    rw [word, bits_eq, Nat.pow_zero, Nat.div_one, Nat.mod_eq_of_lt w.data.isLt]
  · intro p o _ ho hne
    rw [reg_answer, reg_storeOne_other s _ (regKey_ne ho (by decide) hne)]

theorem bit_and (m n k : Nat) : bit (m &&& n) k = (bit m k && bit n k) := by
  simp only [bit_eq_testBit, Nat.testBit_and]

theorem bit_flip (d : Nat) {k : Nat} (hk : k < 32) : bit (0xFFFFFFFF ^^^ d) k = !bit d k := by
  have ones : (0xFFFFFFFF : Nat).testBit k = true := by
    rw [show (0xFFFFFFFF : Nat) = 2 ^ 32 - 1 from rfl, Nat.testBit_two_pow_sub_one, decide_eq_true hk]
  simp only [bit_eq_testBit, Nat.testBit_xor, ones, Bool.true_xor]

/-- A write of IRQ_RAW that clears the bits of `d`. -/
theorem bit_rawClear (s : State) (page d : Nat) {k : Nat} (hk : k < 32) :
    bit ((s.rawClear page d).rd (IRQ_RAW page)) k = (bit (s.rd (IRQ_RAW page)) k && !bit d k) := by
  have cleared : bit ((s.wr (IRQ_RAW page) (s.rd (IRQ_RAW page) &&& (0xFFFFFFFF ^^^ d))).rd (IRQ_RAW page)) k =
      (bit (s.rd (IRQ_RAW page)) k && !bit d k) := by
    rw [rd_wr_same _ _ _ rfl]
    refine (bit_mod hk).trans ?_
    rw [bit_and, bit_flip d hk]
  unfold State.rawClear
  dsimp only
  split
  · next h =>
    obtain ⟨rfl, -⟩ := h
    rwa [rd_wr_free (by decide)]
  · exact cleared

theorem reg_rawClear_other (s : State) {page p o : Nat} (d : Nat) (ho : o < 4096) (h : ¬(p = page ∧ o = 0x10))
    (hb : ¬(p = 0x0A8 ∧ o = 0x0C0)) : (s.rawClear page d).reg p o = s.reg p o := by
  have cleared (v : Nat) : (s.wr (IRQ_RAW page) v).reg p o = s.reg p o :=
    reg_wr_otherKey s (f := IRQ_RAW page) v (Nat.le_refl 32) (regKey_ne ho (by show 0x10 < 4096; decide) h)
  unfold State.rawClear
  dsimp only
  split
  · exact (reg_wr_otherKey _ (f := MGC_DB_TOMGC) 0 (by decide) (regKey_ne ho (by decide) hb)).trans (cleared _)
  · exact cleared _

theorem irqClr_clears {s : State} {page : Fin 1024} {w : RegWrite} (ha : RegMap.assigned page.val = true)
    (hw : s.admitsWrite page.val 0x1C w w.data.toNat = true) :
    Answers (.irqClr page w) s fun t =>
      t.resp.code = .ok ∧
      (∀ b : Fin 32, bit (t.rd (IRQ_RAW page.val)) b.val =
        (bit (s.rd (IRQ_RAW page.val)) b.val && !bit w.data.toNat b.val)) ∧
      (∀ p o : Nat, p < 1024 → o < 4096 → ¬(p = page.val ∧ o = 0x10) → ¬(p = 0x0A8 ∧ o = 0x0C0) →
        t.reg p o = s.reg p o) := by
  have data : (BitVec.ofNat 32 (id w.data.toNat)).toNat = w.data.toNat := by
    rw [id_eq, BitVec.ofNat_toNat, BitVec.setWidth_eq]
  have writer (d : Nat) : anyWrite s ⟨w.port, w.tc.val, page.val, 0x1C, none⟩ d = (.ok, s.rawClear page.val d) := by
    simp +decide only [anyWrite, headWrite, if_true]
  refine answers_write rfl (plainWord_header page.isLt ha (by decide)) hw (writer _) ⟨rfl, fun b => ?_, ?_⟩
  · rw [rd_answer, data]
    exact bit_rawClear s _ _ b.isLt
  · intro p o _ ho hne hdb
    rw [reg_answer, reg_rawClear_other s _ ho hne hdb]

/-! ### The owner words -/

/-- The OWNER words of the pages. -/
def ownersOf (s : State) (page : Nat) : Nat := s.reg page 0x24

/-- The OWNER words, said of the state with every part but the registers blanked. -/
abbrev Owners (s : State) : Nat → Nat := ownersOf (State.except 137438953470 s)

/-- A field of one word that is no OWNER word of a page. -/
def Fld.block (f : Fld) : Bool := decide (f.width ≤ 32) && decide (f.off < 4096) && decide (f.off ≠ 0x24)

theorem Fld.block_iff {f : Fld} : f.block = true ↔ f.width ≤ 32 ∧ f.off < 4096 ∧ f.off ≠ 0x24 := by
  simp only [Fld.block, Bool.and_eq_true, decide_eq_true_eq, and_assoc]

theorem State.wr_owners {f : Fld} (h : f.block = true) (s : State) (v : Nat) : Owners (s.wr f v) = Owners s := by
  obtain ⟨hw, ho, hne⟩ := Fld.block_iff.mp h
  funext page
  exact reg_wr_otherKey s v hw (by unfold Fld.key; exact regKey_ne (by decide) ho fun e => hne e.2.symm)

theorem State.count_owners {f : Fld} (h : f.block = true) (s : State) (n : Nat) : Owners (s.count f n) = Owners s :=
  s.wr_owners h _

theorem State.raise_owners (s : State) (page b : Nat) : Owners (s.raise page b) = Owners s :=
  s.wr_owners (Fld.block_iff.mpr ⟨Nat.le_refl 32, (by decide : 0x10 < 4096), (by decide : 0x10 ≠ 0x24)⟩) _

theorem State.wr64_owners {lo hi : Fld} (hl : lo.block = true) (hh : hi.block = true) (s : State) (v : Nat) :
    Owners (s.wr64 lo hi v) = Owners s :=
  (State.wr_owners hh _ _).trans (State.wr_owners hl _ _)

theorem foldl_mem_owners {α : Type} {g : State → α → State} {l : List α} (h : ∀ u, ∀ x ∈ l, Owners (g u x) = Owners u)
    (s : State) : Owners (l.foldl g s) = Owners s := by
  induction l generalizing s with
  | nil => rfl
  | cons x r ih => exact (ih (fun u y hy => h u y (List.mem_cons_of_mem _ hy)) _).trans (h s x List.mem_cons_self)

theorem owners_of_except {s t : State} (h : t.except 137438953470 = s.except 137438953470) : Owners t = Owners s := by
  unfold Owners; rw [h]

theorem owner_of_owners {s t : State} (h : Owners t = Owners s) (p : Nat) : t.rd (OWN_TC p) = s.rd (OWN_TC p) := by
  have word : t.reg p 0x24 = s.reg p 0x24 := congrFun h p
  exact congrArg (bits · 0 6) word

theorem ccxTc_block {k : Nat} (h : k < 4) : (CCX_C_TC k).block = true :=
  Fld.block_iff.mpr ⟨by show 6 ≤ 32; decide, by show 0x50 + 4 * k < 4096; omega, by show 0x50 + 4 * k ≠ 0x24; omega⟩

theorem ccxTcv_block {k : Nat} (h : k < 4) : (CCX_C_TCV k).block = true :=
  Fld.block_iff.mpr ⟨by show 1 ≤ 32; decide, by show 0x50 + 4 * k < 4096; omega, by show 0x50 + 4 * k ≠ 0x24; omega⟩

theorem celBp_block {k : Nat} (h : k < 64) : (CEL_U_BP k).block = true :=
  Fld.block_iff.mpr ⟨by show 1 ≤ 32; decide, by show 0x100 + 4 * k < 4096; omega, by show 0x100 + 4 * k ≠ 0x24; omega⟩

theorem gpioIn_block {k : Nat} (h : k < 48) : (GPIO_IN k).block = true :=
  Fld.block_iff.mpr ⟨by show 1 ≤ 32; decide, by show 0x50 + 4 * (k / 32) < 4096; omega,
    by show 0x50 + 4 * (k / 32) ≠ 0x24; omega⟩

/-- A record of the ring of a context page lies in its ring area. -/
theorem wr_ring_owners (s : State) (t : Nat) {w : Nat} (h : w < 32) (v : Nat) :
    Owners (s.wr (TNC_RING t w) v) = Owners s := by
  funext page
  refine reg_wr_other s (TNC_RING t w) v page 0x24 ?_
  have words : (TNC_RING t w).words = 4 := by simp +decide only [Fld.words, TNC_RING, if_false]
  have key : (TNC_RING t w).key = (0x300 + t) * 4096 + (0x200 + 16 * w) := rfl
  rw [words, key]
  unfold regKey
  omega

theorem State.setSpill_owners (s : State) (k : Nat) (v : Nat) :
    Owners (State.setSpill s k v) = Owners s := by
  simp only [State.setSpill, Owners, State.wr_owners (f := PLS_PEND k) rfl,
    State.wr64_owners (lo := PLS_SPILL_LO k) (hi := PLS_SPILL_HI k) rfl rfl]

theorem State.setOverrun_owners (s : State) (k : Nat) (b : Bool) :
    Owners (State.setOverrun s k b) = Owners s := by
  simp only [State.setOverrun, Owners, State.wr_owners (f := ACC_PLSOVR) rfl, State.wr_owners (f := PLS_OVR k) rfl]

theorem State.plsPageReset_owners (s : State) (k : Nat) :
    Owners (State.plsPageReset s k) = Owners s := by
  simp only [State.plsPageReset, Owners, State.setOverrun_owners, State.wr_owners (f := PLS_PCOUNT k) rfl,
    State.setSpill_owners, except_upd_inForce, Nat.reduceAnd]

theorem State.pltShow_owners (s : State) :
    Owners (State.pltShow s) = Owners s := by
  unfold State.pltShow
  simp +decide only [Owners, State.wr_owners]

theorem State.pqePageReset_owners (s : State) :
    Owners (State.pqePageReset s) = Owners s := by
  unfold State.pqePageReset
  simp +decide only [Owners, State.wr_owners]

theorem State.resetHart_owners (s : State) {h : Nat} (hh : h < 4) :
    Owners (State.resetHart s h) = Owners s := by
  simp only [State.resetHart, Owners, State.wr_owners (ccxTcv_block hh), State.wr_owners (ccxTc_block hh),
    State.setHart_same, Nat.reduceAnd]

theorem State.runHarts_owners (s : State) :
    Owners (State.runHarts s) = Owners s := by
  unfold State.runHarts
  extract_lets run t
  refine (State.wr_owners (f := CCX_HUP) rfl t run).trans ?_
  clear_value run
  refine foldl_mem_owners (fun u h hh => ?_) s
  split
  · simp only [Owners, State.setHart_same, Nat.reduceAnd]
  · split
    · exact State.resetHart_owners u (List.mem_range.mp hh)
    · rfl

theorem State.alignShow_owners (s : State) :
    Owners (State.alignShow s) = Owners s := by
  unfold State.alignShow
  simp +decide only [Owners, State.wr_owners, State.raise_owners, State.count_owners,
    apply_ite (State.except 137438953470), apply_ite ownersOf, ite_self]

theorem State.offsetShow_owners (s : State) :
    Owners (State.offsetShow s) = Owners s := by
  unfold State.offsetShow
  simp +decide only [Owners, State.wr_owners]

theorem State.swcReset_owners (s : State) (old : State) :
    Owners (State.swcReset s old) = Owners s := by
  unfold State.swcReset
  simp +decide only [Owners, State.wr_owners, State.offsetShow_owners, State.alignShow_owners,
    apply_ite (State.except 137438953470), apply_ite ownersOf, ite_self]

theorem State.bpShow_owners (s : State) :
    Owners (State.bpShow s) = Owners s := by
  exact foldl_mem_owners (fun u k hk => State.wr_owners (celBp_block (List.mem_range.mp hk)) u _) s

theorem State.setChg_owners (s : State) (c : Nat) :
    Owners (State.setChg s c) = Owners s := by
  unfold State.setChg
  simp +decide only [Owners, State.wr_owners, State.raise_owners, apply_ite (State.except 137438953470),
    apply_ite ownersOf, ite_self]

theorem State.chgBegin_owners (s : State) :
    Owners (State.chgBegin s) = Owners s := by
  unfold State.chgBegin
  simp +decide only [Owners, State.setPmu_same, State.setChg_owners, Nat.reduceAnd]

theorem State.chgFollow_owners (s : State) :
    Owners (State.chgFollow s) = Owners s := by
  unfold State.chgFollow
  simp +decide only [Owners, State.setPmu_same, State.setChg_owners, State.chgBegin_owners, Nat.reduceAnd,
    apply_ite (State.except 137438953470), apply_ite ownersOf, ite_self]

theorem State.onpackFollow_owners (s : State) :
    Owners (State.onpackFollow s) = Owners s := by
  unfold State.onpackFollow
  simp +decide only [Owners, State.wr_owners, State.raise_owners, apply_ite (State.except 137438953470),
    apply_ite ownersOf, ite_self]

theorem State.setPst_owners (s : State) (p : Nat) :
    Owners (State.setPst s p) = Owners s := by
  unfold State.setPst
  simp +decide only [Owners, State.wr_owners, State.onpackFollow_owners, State.chgFollow_owners]

theorem State.mntDone_owners (s : State) (c : Status) :
    Owners (State.mntDone s c) = Owners s := by
  unfold State.mntDone
  simp +decide only [Owners, State.wr_owners, State.raise_owners, State.setPst_owners, State.chgFollow_owners,
    apply_ite (State.except 137438953470), apply_ite ownersOf, ite_self]

theorem State.mntAbort_owners (s : State) :
    Owners (State.mntAbort s) = Owners s := by
  unfold State.mntAbort
  simp +decide only [Owners, State.mntDone_owners, apply_ite (State.except 137438953470), apply_ite ownersOf,
    ite_self]

theorem State.learnEnd_owners (s : State) (c : Status) :
    Owners (State.learnEnd s c) = Owners s := by
  unfold State.learnEnd
  simp +decide only [Owners, State.wr_owners, State.raise_owners, State.setBga_same, Nat.reduceAnd,
    apply_ite (State.except 137438953470), apply_ite ownersOf, ite_self]

theorem State.bgaReset_owners (s : State) :
    Owners (State.bgaReset s) = Owners s := by
  unfold State.bgaReset
  simp +decide only [Owners, State.learnEnd_owners, State.mntAbort_owners, State.wr_owners]

theorem State.packShow_owners (s : State) :
    Owners (State.packShow s) = Owners s := by
  unfold State.packShow
  simp +decide only [Owners, State.wr_owners, State.chgFollow_owners]

theorem State.railsFollow_owners (s : State) :
    Owners (State.railsFollow s) = Owners s := by
  unfold State.railsFollow
  simp +decide only [Owners, State.wr_owners, apply_ite (State.except 137438953470), apply_ite ownersOf, ite_self]

theorem State.ringRecord_owners (s : State) (t : Nat) (kind : Nat) (code : Nat) (res : Nat) (detail : Nat) :
    Owners (State.ringRecord s t kind code res detail) = Owners s := by
  unfold State.ringRecord
  dsimp only
  split
  · exact State.count_owners (f := TNC_RING_OVF t) rfl s _
  · have room : s.rd (TNC_RING_WR t) < 32 := rd_lt s (f := TNC_RING_WR t) rfl
    exact (owners_of_except (except_upd_tnc _ rfl _)).trans
      ((State.wr_owners (f := TNC_RING_WR t) rfl _ _).trans (wr_ring_owners s t room _))

theorem State.outcome_owners (s : State) (t : Nat) {r : Nat} (hr : r ≤ 4) (c : Status) (item : Nat) :
    Owners (State.outcome s t r c item) = Owners s := by
  unfold State.outcome
  dsimp only
  split
  · rfl
  · next f hf =>
    have counted : Owners (s.count f) = Owners s := by
      refine State.count_owners ?_ s _
      split at hf
      all_goals cases hf
      all_goals exact Fld.block_iff.mpr ⟨by show 16 ≤ 32; decide, by show _ + 8 * (r - 1) < 4096; omega,
        by show _ + 8 * (r - 1) ≠ 0x24; omega⟩
    split
    · exact counted
    · exact (State.ringRecord_owners _ _ _ _ _ _).trans counted

theorem State.endNodeDown_owners (s : State) (ref : Nat) (c : Status) (hops : Nat) :
    Owners (State.endNodeDown s ref c hops) = Owners s := by
  unfold State.endNodeDown
  repeat' split
  all_goals
    simp +decide only [Owners, State.setPlm_same, State.outcome_owners, State.epRecord_same, Nat.reduceAnd]

theorem State.quotaShow_owners (s : State) (r : Nat) (t : Nat) :
    Owners (State.quotaShow s r t) = Owners s := by
  unfold State.quotaShow
  dsimp only
  split
  · exact (State.wr_owners (f := TNC_CX_UINF t) rfl _ _).trans (State.wr_owners (f := TNC_CX_QINF t) rfl _ _)
  · exact State.wr_owners (f := TNC_CX_RAIR t) rfl _ _
  · exact State.wr_owners (f := TNC_CX_RSEC t) rfl _ _
  · exact State.wr_owners (f := TNC_CX_RCEL t) rfl _ _

theorem State.quotaPut_owners (s : State) (r : Nat) (t : Nat) (n : Nat) :
    Owners (State.quotaPut s r t n) = Owners s := by
  unfold State.quotaPut
  simp +decide only [Owners, State.setTnc_same, State.quotaShow_owners, Nat.reduceAnd]

theorem State.giveBack_owners (s : State) (r : Nat) (t : Nat) (n : Nat) (period : Nat) :
    Owners (State.giveBack s r t n period) = Owners s := by
  unfold State.giveBack
  simp +decide only [Owners, State.quotaPut_owners, apply_ite (State.except 137438953470), apply_ite ownersOf,
    ite_self]

theorem State.settleAir_owners (s : State) (f : TxFrame) (occ : Nat) :
    Owners (State.settleAir s f occ) = Owners s := by
  unfold State.settleAir
  simp +decide only [Owners, State.giveBack_owners, State.setTnc_same, Nat.reduceAnd,
    apply_ite (State.except 137438953470), apply_ite ownersOf, ite_self]

theorem State.endFrame_owners (s : State) (f : TxFrame) (c : Status) :
    Owners (State.endFrame s f c) = Owners s := by
  unfold State.endFrame
  repeat' split
  all_goals
    simp +decide only [Owners, State.setPlm_same, State.endNodeDown_owners, State.settleAir_owners,
      State.outcome_owners, State.epRecord_same, Nat.reduceAnd]

theorem State.requestCut_owners (s : State) (a : Attempt) (c : Status) :
    Owners (State.requestCut s a c) = Owners s := by
  unfold State.requestCut
  dsimp only
  repeat' split
  all_goals
    simp +decide only [Owners, State.setFrame_same, State.setPlm_same, State.endFrame_owners, Nat.reduceAnd]

theorem State.cutTone_owners (s : State) :
    Owners (State.cutTone s) = Owners s := by
  unfold State.cutTone
  dsimp only
  repeat' split
  all_goals
    simp +decide only [Owners, State.setPlt_same, State.count_owners, State.raise_owners, State.pltShow_owners,
      State.setPlm_same, State.requestCut_owners, Nat.reduceAnd]

theorem State.pltAuxDown_owners (s : State) :
    Owners (State.pltAuxDown s) = Owners s := by
  unfold State.pltAuxDown
  simp +decide only [Owners, State.log_same, State.wr_owners, State.cutTone_owners, State.raise_owners,
    Nat.reduceAnd, apply_ite (State.except 137438953470), apply_ite ownersOf, ite_self]

theorem State.pltAuxUp_owners (s : State) :
    Owners (State.pltAuxUp s) = Owners s := by
  unfold State.pltAuxUp
  simp +decide only [Owners, State.wr_owners]

theorem State.setAux_owners (s : State) (st : Nat) :
    Owners (State.setAux s st) = Owners s := by
  unfold State.setAux
  simp +decide only [Owners, State.setPmu_same, State.wr_owners, State.raise_owners, State.pltAuxUp_owners,
    State.pltAuxDown_owners, Nat.reduceAnd, apply_ite (State.except 137438953470), apply_ite ownersOf, ite_self]

theorem State.auxStop_owners (s : State) :
    Owners (State.auxStop s) = Owners s := by
  unfold State.auxStop
  simp +decide only [Owners, State.wr_owners, State.setAux_owners]

theorem State.auxStart_owners (s : State) :
    Owners (State.auxStart s) = Owners s := by
  unfold State.auxStart
  simp +decide only [Owners, State.wr_owners, State.setAux_owners]

theorem State.auxFollow_owners (s : State) :
    Owners (State.auxFollow s) = Owners s := by
  unfold State.auxFollow
  simp +decide only [Owners, State.pltAuxDown_owners, State.auxStop_owners, State.auxStart_owners,
    apply_ite (State.except 137438953470), apply_ite ownersOf, ite_self]

theorem State.railReset_owners (s : State) :
    Owners (State.railReset s) = Owners s := by
  unfold State.railReset
  simp +decide only [Owners, State.wr_owners, State.auxFollow_owners, State.railsFollow_owners]

theorem State.gpioShow_owners (s : State) :
    Owners (State.gpioShow s) = Owners s := by
  refine foldl_mem_owners (fun u k hk => ?_) s
  split
  · exact State.wr_owners (gpioIn_block (List.mem_range.mp hk)) u _
  · rfl

theorem State.resetFollow_owners (s : State) (old : State) (p : Nat) :
    Owners (State.resetFollow s old p) = Owners s := by
  unfold State.resetFollow
  simp +decide only [Owners, State.viewsReset_same, State.setTnc_same, State.acsReset_same,
    State.plsPageReset_owners, State.pqePageReset_owners, State.runHarts_owners, State.pltShow_owners,
    State.swcReset_owners, State.bpShow_owners, State.bgaReset_owners, State.packShow_owners, State.railReset_owners,
    State.wr_owners, State.gpioShow_owners, except_upd_acc, Nat.reduceAnd, apply_ite (State.except 137438953470),
    apply_ite ownersOf, ite_self]
/-! ### The reset of a page -/

theorem reg_setReg_masked (s : State) (page off v m : Nat) (hv : v < 2 ^ 32) :
    (s.setReg page off ((s.reg page off &&& (0xFFFFFFFF ^^^ m)) ||| (v &&& m))).reg page off &&& m = v &&& m := by
  rw [reg_setReg_same]
  refine Nat.eq_of_testBit_eq fun i => ?_
  simp only [Nat.testBit_and, Nat.testBit_mod_two_pow, Nat.testBit_or]
  by_cases hi : i < 32
  · have flip := bit_flip m hi
    simp only [bit_eq_testBit] at flip
    rw [flip]
    cases m.testBit i <;> simp [hi]
  · rw [Nat.testBit_lt_two_pow (lt_of_lt_of_le hv (Nat.pow_le_pow_right (by decide) (Nat.not_lt.mp hi)))]
    simp [hi]

/-- One step of the reset of the configuration words of a page. -/
def State.resetWordStep (page : Nat) (t : State) (o : Nat) : State :=
  t.setReg page o ((t.reg page o &&& (0xFFFFFFFF ^^^ rwMask page o)) |||
    ((RegMap.resetWord page o).toNat &&& rwMask page o))

/-- The bits of a configuration word are at their reset value. -/
def State.wordAtReset (t : State) (page o : Nat) : Prop :=
  t.reg page o &&& rwMask page o = (RegMap.resetWord page o).toNat &&& rwMask page o

theorem resetWordStep_same (t : State) (page o : Nat) : (t.resetWordStep page o).wordAtReset page o :=
  reg_setReg_masked t page o _ _ (RegMap.resetWord page o).isLt

theorem resetWordStep_keeps {t : State} {page o : Nat} (k : Nat) (h : t.wordAtReset page o) :
    (t.resetWordStep page k).wordAtReset page o := by
  by_cases hk : o = k
  · exact hk ▸ resetWordStep_same t page o
  · unfold State.wordAtReset State.resetWordStep at *
    rwa [reg_setReg_other _ (by unfold regKey; omega)]

theorem resetWordSteps_reset (page : Nat) (l : List Nat) (s : State) {o : Nat}
    (h : o ∈ l ∨ s.wordAtReset page o) : (l.foldl (State.resetWordStep page) s).wordAtReset page o := by
  induction l generalizing s with
  | nil => exact h.resolve_left (List.not_mem_nil)
  | cons k l ih =>
    refine ih (s.resetWordStep page k) ?_
    obtain h | h := h
    · obtain rfl | h := List.mem_cons.mp h
      · exact .inr (resetWordStep_same s page o)
      · exact .inl h
    · exact .inr (resetWordStep_keeps k h)

/-- The words of a page reset: those of the fold over its configuration words. -/
theorem reg_resetRw (s : State) (page p o : Nat) :
    (s.resetRw page).reg p o = ((configOffs page).foldl (State.resetWordStep page) s).reg p o := by
  simp only [State.resetRw, reg_mk, reg_setPg]
  rfl

theorem resetRw_reset (s : State) {page o : Nat} (h : o ∈ configOffs page) : (s.resetRw page).wordAtReset page o := by
  unfold State.wordAtReset
  rw [reg_resetRw]
  exact resetWordSteps_reset page _ s (.inl h)

theorem configOffs_ne_owner {page o : Nat} (h : o ∈ configOffs page) : o ≠ 0x24 := by
  simp only [configOffs, List.mem_append, List.mem_cons, List.not_mem_nil, or_false, List.mem_filter, List.mem_map,
    List.mem_range] at h
  obtain h | ⟨⟨k, -, rfl⟩, -⟩ := h <;> omega

theorem owner_resetRw (s : State) (page : Nat) : (s.resetRw page).rd (OWN_TC page) = s.rd (OWN_TC page) := by
  have kept : ∀ l : List Nat, (∀ o ∈ l, o ≠ 0x24) → ∀ t : State,
      (l.foldl (State.resetWordStep page) t).reg page 0x24 = t.reg page 0x24 := by
    intro l
    induction l with
    | nil => exact fun _ _ => rfl
    | cons k l ih =>
      intro h t
      rw [List.foldl_cons, ih fun o ho => h o (List.mem_cons_of_mem _ ho)]
      have hk := h k List.mem_cons_self
      exact reg_setReg_other t (by unfold regKey; omega) _
  have word : (s.resetRw page).reg page 0x24 = s.reg page 0x24 :=
    (reg_resetRw s page page 0x24).trans (kept _ (fun _ => configOffs_ne_owner) s)
  exact congrArg (bits · 0 6) word

theorem owner_pageReset (s : State) (page : Nat) : (s.pageReset page).rd (OWN_TC page) = s.rd (OWN_TC page) := by
  rw [State.pageReset, rd_log]
  exact (owner_of_owners (State.resetFollow_owners _ s page) page).trans (owner_resetRw s page)

theorem headWrite_prst (s : State) (port : Port) (tc page d : Nat) (hd : bit d 31 = true) :
    anyWrite s ⟨port, tc, page, 0x08, none⟩ d = (.ok, s.pageReset page) := by
  simp +decide only [anyWrite, headWrite, if_true, hd]

theorem ctrlPrst_answers {s : State} {page : Fin 1024} {w : RegWrite} {P : State → Prop}
    (ha : RegMap.assigned page.val = true) (hw : s.admitsWrite page.val 0x08 w (setBit w.data.toNat 31) = true)
    (hP : P ((s.pageReset page.val).answer .ok)) : Answers (.ctrlPrst page w) s P := by
  refine answers_write rfl (plainWord_header page.isLt ha (by decide)) hw (headWrite_prst _ _ _ _ _ ?_) hP
  rw [bit_ofNat (by decide), bit_setBit_same]

theorem ctrlPrst_logs {s : State} {page : Fin 1024} {w : RegWrite} (ha : RegMap.assigned page.val = true)
    (hw : s.admitsWrite page.val 0x08 w (setBit w.data.toNat 31) = true) :
    Answers (.ctrlPrst page w) s fun t =>
      t.resp.code = .ok ∧ t.events.getLast? = some ⟨0x4003, t.rd (OWN_TC page.val), leBytes 8 page.val⟩ := by
  refine ctrlPrst_answers ha hw ⟨rfl, ?_⟩
  rw [rd_answer, owner_pageReset]
  simp only [answer_frame, State.pageReset, log_events, List.getLast?_concat]

/-- The pages of the statement: their reset has no follow-up in another register. -/
theorem resetFollow_none (s old : State) {page : Nat} (h : page ∈ [0x029, 0x030, 0x090, 0x098, 0x0C8, 0x0CC, 0x114]) :
    s.resetFollow old page = s := by
  simp only [List.mem_cons, List.not_mem_nil, or_false] at h
  obtain rfl | rfl | rfl | rfl | rfl | rfl | rfl := h <;> simp +decide only [State.resetFollow, if_false]

theorem assigned_reset {page : Nat} (h : page ∈ [0x029, 0x030, 0x090, 0x098, 0x0C8, 0x0CC, 0x114]) :
    RegMap.assigned page = true := by
  have all : ∀ p ∈ [0x029, 0x030, 0x090, 0x098, 0x0C8, 0x0CC, 0x114], RegMap.assigned p = true := by decide
  exact all page h

theorem ctrlPrst_resets {s : State} {page : Fin 1024} {w : RegWrite}
    (hp : page.val ∈ [0x029, 0x030, 0x090, 0x098, 0x0C8, 0x0CC, 0x114])
    (hw : s.admitsWrite page.val 0x08 w (setBit w.data.toNat 31) = true) :
    Answers (.ctrlPrst page w) s fun t =>
      ∀ o ∈ configOffs page.val, t.reg page.val o &&& rwMask page.val o =
        (RegMap.resetWord page.val o).toNat &&& rwMask page.val o := by
  refine ctrlPrst_answers (assigned_reset hp) hw fun o ho => ?_
  rw [reg_answer, State.pageReset, resetFollow_none _ _ hp, reg_log]
  exact resetRw_reset s ho

/-! ### The check of the configuration -/

theorem integScrub_runs {s : State} {page : Fin 1024} (ha : RegMap.assigned page.val = true)
    (hr : s.pageRuns page.val = true) : exec (.integScrub page none) s = .next (s.scrubPage page.val) := by
  change execIntegScrub page none s = _
  simp only [execIntegScrub, ha, hr, Bool.true_eq_false, if_false, if_true]

theorem on_raise_integErr (s : State) (page b : Nat) : (s.raise page b).on (STS_INTEGERR page) = s.on
    (STS_INTEGERR page) :=
  on_raise_free (free_of_off (f := IRQ_RAW page) (g := STS_INTEGERR page) rfl (Nat.le_refl 32) (Nat.le_refl 32)
    (.inr (Nat.le_refl 0x10))) s b

theorem scrub_opens {s : State} {page : Fin 1024} (ha : RegMap.assigned page.val = true)
    (hr : s.pageRuns page.val = true)
    (hb : s.integNow page.val ≠ s.integRef page.val) (hs : s.on (STS_INTEGERR page.val) = false) :
    Answers (.integScrub page none) s fun t =>
      t.on (STS_INTEGERR page.val) = true ∧ Logged s t 0x5005 (s.rd (OWN_TC page.val)) page.val := by
  refine ⟨_, integScrub_runs ha hr, ?_⟩
  have bad : (s.integNow page.val != s.integRef page.val) = true := bne_iff_ne.mpr hb
  unfold State.scrubPage
  simp only [bad, if_true, on_setPg, hs, Bool.false_eq_true, if_false]
  refine ⟨?_, ?_⟩
  · rw [on_log, on_raise_integErr]
    exact on_wr_b2n rfl (by show 0 < 1; decide) _ true
  · simp only [Logged, log_events, raise_frame, wr_frame, setPg_frame, rd_setPg]

theorem scrub_closes {s : State} {page : Fin 1024} (ha : RegMap.assigned page.val = true)
    (hr : s.pageRuns page.val = true)
    (hb : s.integNow page.val = s.integRef page.val) :
    Answers (.integScrub page none) s fun t => t.on (STS_INTEGERR page.val) = false ∧ t.events = s.events := by
  refine ⟨_, integScrub_runs ha hr, ?_⟩
  have good : (s.integNow page.val != s.integRef page.val) = false := bne_eq_false_iff_eq.mpr hb
  unfold State.scrubPage
  simp only [good, Bool.false_eq_true, if_false]
  refine ⟨on_wr_b2n rfl (by show 0 < 1; decide) _ false, ?_⟩
  simp only [wr_frame, setPg_frame]

theorem rewritePage_logs (s : State) (page : Nat) :
    ∃ e, (s.rewritePage page).2.events.getLast? = some e ∧ e.code = 0x4005 := by
  simp only [State.rewritePage, log_events, List.getLast?_concat]
  exact ⟨_, rfl, rfl⟩

theorem rewrite_once {s : State} {page : Fin 1024} (hs : s.on (STS_SEALED page.val) = true)
    (he : s.on (STS_INTEGERR page.val) = true) (hm : (s.pg page.val).mended = false) :
    Answers (.sealedPageRewrite page) s fun t =>
      (t.pg page.val).mended = true ∧ (∃ e, t.events.getLast? = some e ∧ e.code = 0x4005) ∧
      exec (.sealedPageRewrite page) t = .next t := by
  have once (t : State) (h : (t.pg page.val).mended = true) : exec (.sealedPageRewrite page) t = .next t := by
    change execSealedPageRewrite page t = _
    rw [execSealedPageRewrite, if_neg]
    rintro ⟨-, -, hn⟩
    rw [h] at hn
    exact Bool.noConfusion hn
  have mended : (((s.rewritePage page.val).2.setPg page.val fun g => { g with mended := true }).pg page.val).mended =
      true := by rw [pg_setPg_same]
  refine ⟨_, ?_, mended, rewritePage_logs s page.val, once _ mended⟩
  change execSealedPageRewrite page s = _
  rw [execSealedPageRewrite, if_pos ⟨hs, he, hm⟩]

/-- Settles O12: a lemma for each command of the header. -/
theorem headerCommandsComplete : Obligations.HeaderCommandsComplete :=
  ⟨fun _ _ _ ha hw => irqEn_stored ha hw, fun _ _ _ ha hw => irqClr_clears ha hw,
    fun _ _ _ ha hw => ctrlPrst_logs ha hw, fun _ _ _ hp hw => ctrlPrst_resets hp hw,
    fun _ _ ha hr hb hs => scrub_opens ha hr hb hs, fun _ _ ha hr hb => scrub_closes ha hr hb,
    fun _ _ hs he hm => rewrite_once hs he hm⟩

end Sys2Proof.Machine

/-! ## Replays and the states of a tenant -/

namespace Sys2Proof.Machine

open Reg

/-! ### Reading a read-clear register and reading it again -/

/-- An admitted read is stopped neither when it is made nor when it is replayed. -/
theorem stopOf_admitsRead {s : State} {page off : Nat} {r : RegRead} (hp : page < 1024) (ho : off < 4096)
    (h4 : off % 4 = 0) (hr : s.admitsRead page off r = true) (replay : Bool) :
    s.stopOf false { readAccess page off r with replay := replay } ⟨some page, off, none, none⟩ = none := by
  simp only [State.admitsRead, Bool.and_eq_true, Bool.not_eq_true', Bool.or_eq_true, decide_eq_true_eq] at hr
  obtain ⟨⟨⟨ht, hm⟩, hrun⟩, -⟩ := hr
  have ha : (directAddr page off).toNat % 4 = 0 := by rw [directAddr_toNat hp ho]; omega
  have off4 : off / 4 * 4 = off := by omega
  have runs : (decide (0x40 ≤ off) && !s.pageRuns page) = false := by
    obtain h | h := hrun
    · rw [decide_eq_false (by omega), Bool.false_and]
    · rw [h, Bool.not_true, Bool.and_false]
  unfold State.stopOf readAccess
  simp [off4, ht, hm, ha, runs]

/-- A replay of an admitted read answers what the replay record of the page holds. -/
theorem replayRead_admitted {s : State} {page off : Nat} {r : RegRead} (hp : page < 1024) (ho : off < 4096)
    (h4 : off % 4 = 0) (ha : RegMap.assigned page = true) (hr : s.admitsRead page off r = true) :
    exec (.replayRead (readAccess page off r)) s =
      .next (((s.replay ⟨r.port, r.tc.val, page, off, none⟩).2.2.capture page off r.tc.val false
        (s.replay ⟨r.port, r.tc.val, page, off, none⟩).1).answerRead r.tc.val
        (addressA (directAddr page off).toNat true) (s.replay ⟨r.port, r.tc.val, page, off, none⟩).1
        (s.replay ⟨r.port, r.tc.val, page, off, none⟩).2.1) := by
  have stale : (s.pg page).stale = false := by
    simp only [State.admitsRead, Bool.and_eq_true, Bool.not_eq_true'] at hr
    exact hr.2
  have stop := stopOf_admitsRead hp ho h4 hr true
  have route : s.route (readAccess page off r).addr.toNat = some ⟨some page, off, none, none⟩ :=
    route_direct s hp ho ha
  change Host.Outcome.next (s.read anyRead { readAccess page off r with replay := true }) = _
  simp only [State.read, route, scrubFirst_fresh stale, stop]
  rfl

theorem pageRuns_tin (s : State) : s.pageRuns 0x114 = true := by
  unfold State.pageRuns
  dsimp only
  split
  · rfl
  · split <;> rfl

/-- A tenant that may read a word of its page TIN may read every activation counter. -/
theorem admitsRead_tin {s : State} {off : Nat} {r : RegRead} (hr : s.admitsRead 0x114 off r = true)
    (ho : s.rd (OWN_TC 0x114) = r.tc.val) (j : Fin 8) : s.admitsRead 0x114 (0x50 + 4 * j.val) r = true := by
  simp only [State.admitsRead, Bool.and_eq_true] at hr
  obtain ⟨⟨⟨ht, -⟩, -⟩, hst⟩ := hr
  have passes : s.tenantPasses false r.tc.val 0x114 (0x50 + 4 * j.val) = true := ht
  have reads : s.mayRead ⟨r.port, r.tc.val, 0x114, 0x50 + 4 * j.val, none⟩ = true := by
    simp only [State.mayRead, State.owns, ho, beq_self_eq_true, Bool.true_or]
    rw [if_neg (by omega)]
  simp only [State.admitsRead, passes, reads, pageRuns_tin, hst, Bool.or_true, Bool.and_self]

theorem tinCount_fields : ∀ k : Fin 8,
    RegMap.fieldsAt 0x114 (0x50 + 4 * k.val) = [⟨15, 0, .rc, 0, false, false⟩] ∧ wideOf 0x114
    (0x50 + 4 * k.val) = none ∧
      plainWord 0x114 (0x50 + 4 * k.val) = true := by decide

/-- The state that the owner's read of an activation counter leaves, but for its answer. -/
def State.tinCleared (s : State) (k tc : Nat) : State :=
  (s.setReg 0x114 (0x50 + 4 * k) (s.reg 0x114 (0x50 + 4 * k) &&& (0xFFFFFFFF ^^^ 0xFFFF))).setPg 0x114 fun g =>
    { g with replay := some ⟨(0x50 + 4 * k) / 4, tc, BitVec.ofNat 32 (s.rd (TIN_CNT k))⟩ }

theorem rd_tinCnt (s : State) (k : Nat) : s.rd (TIN_CNT k) = s.reg 0x114 (0x50 + 4 * k) % 2 ^ 16 := by
  rw [State.rd, if_pos (by show 16 ≤ 32; decide)]
  change s.reg 0x114 (0x50 + 4 * k) / 2 ^ 0 % 2 ^ 16 = _
  rw [Nat.pow_zero, Nat.div_one]

/-- The owner's read of an activation counter. -/
theorem anyRead_tin {s : State} (k : Fin 8) {port : Port} {tc : Nat} (ho : s.rd (OWN_TC 0x114) = tc) :
    anyRead s ⟨port, tc, 0x114, 0x50 + 4 * k.val, none⟩ = (.ok, s.rd (TIN_CNT k.val), s.tinCleared k.val tc) := by
  obtain ⟨fields, wide, -⟩ := tinCount_fields k
  have body : anyRead s ⟨port, tc, 0x114, 0x50 + 4 * k.val, none⟩ =
      plainRead s ⟨port, tc, 0x114, 0x50 + 4 * k.val, none⟩ := by
    simp +decide only [anyRead, bodyRead, if_neg (show ¬ 0x50 + 4 * k.val < 0x40 by omega), if_false]
  have masks : RegMap.maskOf .rc [⟨15, 0, .rc, 0, false, false⟩] = 0xFFFF := by decide
  have value : shownWord (RegMap.fieldsAt 0x114 (0x50 + 4 * k.val)) (s.reg 0x114 (0x50 + 4 * k.val)) =
      s.rd (TIN_CNT k.val) := by
    rw [fields, rd_tinCnt]
    exact Nat.and_two_pow_sub_one_eq_mod _ 16
  have owns : s.owns ⟨port, tc, 0x114, 0x50 + 4 * k.val, none⟩ = true := by
    simp only [State.owns, ho, beq_self_eq_true, Bool.true_or]
  rw [fields] at value
  rw [body]
  simp +decide only [plainRead, State.readWord, wide, value, State.clearOnRead, fields, masks, owns, false_or,
    if_false]
  rfl

theorem rd_tinCleared (s : State) (k tc : Nat) : (s.tinCleared k tc).rd (TIN_CNT k) = 0 := by
  have low (n : Nat) : (n &&& (0xFFFFFFFF ^^^ 0xFFFF)) % 2 ^ 32 % 2 ^ 16 = 0 := by
    rw [Nat.mod_mod_of_dvd _ (by decide), ← Nat.and_two_pow_sub_one_eq_mod, Nat.and_assoc]
    exact Nat.and_zero n
  rw [rd_tinCnt, State.tinCleared, reg_setPg, reg_setReg_same, low]

theorem reg_tinCleared (s : State) (k tc : Nat) {p o : Nat} (h : regKey p o ≠ regKey 0x114 (0x50 + 4 * k)) :
    (s.tinCleared k tc).reg p o = s.reg p o := by
  rw [State.tinCleared, reg_setPg, reg_setReg_other _ h]

theorem rd_tinCleared_other (s : State) (k tc : Nat) {f : Fld} (hw : f.width ≤ 32)
    (h : f.key ≠ regKey 0x114 (0x50 + 4 * k)) : (s.tinCleared k tc).rd f = s.rd f := by
  rw [State.rd, State.rd, if_pos hw, if_pos hw, reg_tinCleared s k tc h]

/-- The same tenant may still read any counter. -/
theorem admitsRead_tinCleared {s : State} {k : Fin 8} {r : RegRead}
    (hr : s.admitsRead 0x114 (0x50 + 4 * k.val) r = true) (ho : s.rd (OWN_TC 0x114) = r.tc.val) :
    (s.tinCleared k.val r.tc.val).admitsRead 0x114 (0x50 + 4 * k.val) r = true := by
  have owner : (s.tinCleared k.val r.tc.val).rd (OWN_TC 0x114) = s.rd (OWN_TC 0x114) :=
    rd_tinCleared_other s _ _ (by decide) (by simp only [Fld.key, regKey, OWN_TC]; omega)
  have tenant : (s.tinCleared k.val r.tc.val).tenant r.tc.val = s.tenant r.tc.val :=
    rd_tinCleared_other s _ _ (by show 2 ≤ 32; decide) (by simp only [Fld.key, regKey, TNC_TST]; omega)
  have stale : ((s.tinCleared k.val r.tc.val).pg 0x114).stale = (s.pg 0x114).stale := by
    rw [State.tinCleared, pg_setPg_same]
    rfl
  simpa only [State.admitsRead, State.tenantPasses, State.mayRead, State.owns, pageRuns_tin, owner, tenant, stale]
    using hr

theorem admitsRead_answerRead (s : State) (tc a : Nat) (c : Status) (v : Nat) (page off : Nat) (r : RegRead) :
    (s.answerRead tc a c v).admitsRead page off r = s.admitsRead page off r := by
  simp only [State.admitsRead, State.tenantPasses, State.mayRead, State.owns, State.tenant, State.pageRuns,
    State.level, State.refLocked, State.ctfSt, rd_answerRead]
  rfl

theorem readClear_eq (s : State) (page off : Nat) (r : RegRead) :
    exec (.readClear (readAccess page off r)) s = .next (s.readReg anyRead page off r) := rfl

/-- The replay of a counter, by a tenant that read counter `k` last. -/
theorem replay_tin {t : State} {k tc v : Nat} (hv : v < 2 ^ 16)
    (h : (t.pg 0x114).replay = some ⟨(0x50 + 4 * k) / 4, tc, BitVec.ofNat 32 v⟩) (port : Port) (j : Nat) :
    t.replay ⟨port, tc, 0x114, 0x50 + 4 * j, none⟩ = if j = k then (.ok, v, t) else (.skipped, 0, t) := by
  rw [State.replay, h]
  by_cases hj : j = k
  · simp only [hj, and_self, if_true, BitVec.toNat_ofNat, Nat.mod_eq_of_lt (show v < 2 ^ 32 by omega)]
  · dsimp only
    rw [if_neg (by omega), if_neg hj]

theorem replay_tinCleared (s : State) (k tc : Nat) : ((s.tinCleared k tc).pg 0x114).replay =
    some ⟨(0x50 + 4 * k) / 4, tc, BitVec.ofNat 32 (s.rd (TIN_CNT k))⟩ := by
  rw [State.tinCleared, pg_setPg_same]

/-- The state that the owner's read of an activation counter leaves. -/
def State.tinAnswered (s : State) (k tc : Nat) : State :=
  (s.tinCleared k tc).answerRead tc (addressA (directAddr 0x114 (0x50 + 4 * k)).toNat false) .ok (s.rd (TIN_CNT k))

/-- A replay of an activation counter after a read of counter `k`. -/
theorem replayRead_tinAnswered {s : State} {k : Fin 8} {r : RegRead}
    (hr : s.admitsRead 0x114 (0x50 + 4 * k.val) r = true) (ho : s.rd (OWN_TC 0x114) = r.tc.val) (j : Fin 8) :
    ∃ a, exec (.replayRead (readAccess 0x114 (0x50 + 4 * j.val) r)) (s.tinAnswered k.val r.tc.val) =
      .next (if j.val = k.val then (s.tinAnswered k.val r.tc.val).answerRead r.tc.val a .ok (s.rd (TIN_CNT k.val))
        else ((s.tinAnswered k.val r.tc.val).capture 0x114 (0x50 + 4 * j.val) r.tc.val false .skipped).answerRead
          r.tc.val a .skipped 0) := by
  have admitted : (s.tinAnswered k.val r.tc.val).admitsRead 0x114 (0x50 + 4 * j.val) r = true := by
    rw [State.tinAnswered, admitsRead_answerRead]
    refine admitsRead_tin (admitsRead_tinCleared hr ho) ?_ j
    rwa [rd_tinCleared_other s _ _ (by decide) (by simp only [Fld.key, regKey, OWN_TC]; omega)]
  have replayed := replay_tin (t := s.tinAnswered k.val r.tc.val) (rd_lt s (f := TIN_CNT k.val) rfl)
    (replay_tinCleared s k.val r.tc.val) r.port j.val
  refine ⟨addressA (directAddr 0x114 (0x50 + 4 * j.val)).toNat true, ?_⟩
  rw [replayRead_admitted (by decide) (by omega) (by omega) (by decide) admitted, replayed]
  by_cases h : j.val = k.val
  · simp only [if_pos h, capture_ok]
  · simp only [if_neg h]

/-- Settles O14: the read leaves the record, and the replay answers from the record alone. -/
theorem readClearThenReplay : Obligations.ReadClearThenReplay := by
  intro s k r hr ho
  obtain ⟨-, -, plain⟩ := tinCount_fields k
  refine answers_read (readClear_eq s _ _ r) plain hr (anyRead_tin k ho) ?_
  rw [capture_ok, ← State.tinAnswered]
  refine ⟨rfl, rfl, (rd_answerRead _ _ _ _ _ _).trans (rd_tinCleared s _ _), ?_, ?_, ?_⟩
  · intro p o _ hoff hne
    rw [State.tinAnswered, reg_answerRead]
    exact reg_tinCleared s _ _ (regKey_ne hoff (by omega) hne)
  · obtain ⟨a, he⟩ := replayRead_tinAnswered hr ho k
    rw [if_pos rfl] at he
    exact ⟨_, he, rfl, rfl, rfl⟩
  · intro j hj
    obtain ⟨a, he⟩ := replayRead_tinAnswered hr ho j
    rw [if_neg (fun e => hj (Fin.ext e))] at he
    refine ⟨_, he, rfl, rfl, ?_⟩
    rw [rd_answerRead]
    exact rd_capture_other _ _ _ _ _ (by show 16 ≤ 32; decide) (by simp only [Fld.key, regKey, TIN_CNT]; omega)
      (by simp only [Fld.key, regKey, TIN_CNT]; omega)

/-- The resets of tenants that are outstanding. -/
def resetsOf (s : State) : List TenantReset := s.tnc.resets

/-- The resets that are outstanding, said of the state with every part but the tenancy blanked. -/
abbrev Resets (s : State) : List TenantReset := resetsOf (State.except 137438945279 s)

theorem upd_resets {s : State} {c : TncState} (h : c.resets = s.tnc.resets) : Resets { s with tnc := c } = Resets s := h

theorem State.setTnc_resets {s : State} {f : TncState → TncState} (h : (f s.tnc).resets = s.tnc.resets) :
    Resets (s.setTnc f) = Resets s := h

theorem foldl_resets {α : Type} {g : State → α → State} (h : ∀ u x, Resets (g u x) = Resets u) (l : List α)
    (s : State) :
    Resets (l.foldl g s) = Resets s := by
  induction l generalizing s with
  | nil => rfl
  | cons x r ih => exact (ih (g s x)).trans (h s x)

theorem State.ringRecord_resets (s : State) (t : Nat) (kind : Nat) (code : Nat) (res : Nat) (detail : Nat) :
    Resets (State.ringRecord s t kind code res detail) = Resets s := by
  unfold State.ringRecord
  dsimp only
  split
  · exact congrArg resetsOf (State.count_same _ rfl s _ _)
  · refine (upd_resets ?_).trans (congrArg resetsOf ((State.wr_same _ rfl _ _ _).trans (State.wr_same _ rfl s _ _)))
    simp only [wr_frame]

theorem State.outcome_resets (s : State) (t : Nat) (r : Nat) (c : Status) (item : Nat) :
    Resets (State.outcome s t r c item) = Resets s := by
  unfold State.outcome
  dsimp only
  repeat' split
  all_goals
    simp (disch := with_unfolding_all rfl) only [Resets, State.count_same, State.ringRecord_resets, 
      upd_resets]

theorem State.endNodeDown_resets (s : State) (ref : Nat) (c : Status) (hops : Nat) :
    Resets (State.endNodeDown s ref c hops) = Resets s := by
  unfold State.endNodeDown
  repeat' split
  all_goals
    simp (disch := with_unfolding_all rfl) only [Resets, State.setPlm_same, State.outcome_resets, State.epRecord_same]

theorem State.quotaPut_resets (s : State) (r : Nat) (t : Nat) (n : Nat) :
    Resets (State.quotaPut s r t n) = Resets s := by
  unfold State.quotaPut
  simp (disch := with_unfolding_all rfl) only [Resets, State.setTnc_resets, State.quotaShow_same]

theorem State.giveBack_resets (s : State) (r : Nat) (t : Nat) (n : Nat) (period : Nat) :
    Resets (State.giveBack s r t n period) = Resets s := by
  unfold State.giveBack
  simp (disch := with_unfolding_all rfl) only [Resets, State.quotaPut_resets, 
    apply_ite (State.except 137438945279), apply_ite resetsOf, ite_self]

theorem State.settleAir_resets (s : State) (f : TxFrame) (occ : Nat) :
    Resets (State.settleAir s f occ) = Resets s := by
  unfold State.settleAir
  simp (disch := with_unfolding_all rfl) only [Resets, State.giveBack_resets, State.setTnc_resets, 
    apply_ite (State.except 137438945279), apply_ite resetsOf, ite_self]

theorem State.endFrame_resets (s : State) (f : TxFrame) (c : Status) :
    Resets (State.endFrame s f c) = Resets s := by
  unfold State.endFrame
  repeat' split
  all_goals
    simp (disch := with_unfolding_all rfl) only [Resets, State.setPlm_same, State.endNodeDown_resets,
      State.settleAir_resets, State.outcome_resets, State.epRecord_same]

theorem State.secRecord_resets (s : State) (t : Nat) (w : Nat) (c : Status) (res : Bool) (gen : Nat) (olen : Nat) :
    Resets (State.secRecord s t w c res gen olen) = Resets s := by
  unfold State.secRecord
  simp (disch := with_unfolding_all rfl) only [Resets, State.outcome_resets, State.setSec_same,
    State.cmdPut_same, apply_ite (State.except 137438945279), ite_self]

theorem State.moveTenant_resets (s : State) (t : Nat) (st : Nat) (op : Nat) :
    Resets (State.moveTenant s t st op) = Resets s := by
  unfold State.moveTenant
  simp (disch := with_unfolding_all rfl) only [Resets, State.setTenant_same, State.log_same, State.ringRecord_resets]

theorem State.grantEnd_resets (s : State) (detail : Nat) :
    Resets (State.grantEnd s detail) = Resets s := by
  unfold State.grantEnd
  repeat' split
  all_goals
    simp (disch := with_unfolding_all rfl) only [Resets, State.setTnc_resets, State.wr_same, State.log_same,
      State.ringRecord_resets]

theorem State.revokeTold_resets (s : State) (t : Nat) (cls : Nat) (i : Nat) (detail : Nat) :
    Resets (State.revokeTold s t cls i detail) = Resets s := by
  unfold State.revokeTold
  simp (disch := with_unfolding_all rfl) only [Resets, State.log_same, State.ringRecord_resets]

theorem State.settleErases_resets (s : State) :
    Resets (State.settleErases s) = Resets s := by
  refine foldl_resets (fun u e => ?_) _ s
  dsimp only
  repeat' split
  all_goals
    simp only [Resets, State.grantEnd_resets, State.secRecord_resets, State.count_same, State.log_same,
      State.raise_same, State.slotShow_same, State.setSec_same, Nat.reduceAnd]

theorem State.eraseSlot_resets (s : State) (k : Nat) (item : Option RingItem) (command : Bool) (owner : Nat) :
    Resets (State.eraseSlot s k item command owner) = Resets s := by
  unfold State.eraseSlot
  simp (disch := with_unfolding_all rfl) only [Resets, State.wr_same, State.setSec_same, State.persist_same,
    State.slotShow_same, State.settleErases_resets, apply_ite (State.except 137438945279),
    ite_self]

theorem State.departNode_resets (s : State) (n : NodeEntry) :
    Resets (State.departNode s n) = Resets s := by
  unfold State.departNode
  simp only [Resets, State.log_same, State.partner_same, State.dropEntry_same, State.setPlm_same, Nat.reduceAnd]
  refine (foldl_resets (fun u d => State.endNodeDown_resets u _ _ _) _ _).trans ?_
  simp only [Resets, State.revokeGrant_same, Nat.reduceAnd]

theorem State.plmUnbind_resets (s : State) (e : Nat) :
    Resets (State.plmUnbind s e) = Resets s := by
  exact foldl_resets (fun u n => State.departNode_resets u n) _ s

theorem State.plmErase_resets (s : State) (e : Nat) :
    Resets (State.plmErase s e) = Resets s := by
  unfold State.plmErase
  refine (foldl_resets (fun u f => ?_) _ _).trans ((foldl_resets (fun u k => ?_) _ _).trans ?_)
  · split
    · rfl
    · exact State.endFrame_resets u f _
  · simp only [Resets, State.wr_same, Nat.reduceAnd]
  · simp only [Resets, State.setPlm_same, Nat.reduceAnd]

theorem State.dropEndpoint_resets (s : State) (e : Nat) :
    Resets (State.dropEndpoint s e) = Resets s := by
  unfold State.dropEndpoint
  simp only [Resets, State.setPlm_same, Nat.reduceAnd]
  refine (State.plmUnbind_resets _ e).trans ((State.plmErase_resets _ e).trans ?_)
  exact foldl_resets (fun u f => State.endFrame_resets u f _) _ s

theorem State.revoke_resets (s : State) (command : Bool) (cls : Nat) (i : Nat) (t : Nat) :
    Resets (State.revoke s command cls i t) = Resets s := by
  unfold State.revoke
  repeat' split
  all_goals
    simp (disch := with_unfolding_all rfl) only [Resets, State.grantEnd_resets, State.revokeTold_resets,
      State.movePage_same, State.wr_same, State.eraseSlot_resets, State.unitRevoke_same, State.dropEndpoint_resets]

theorem State.revokeAll_resets (s : State) (t : Nat) :
    Resets (State.revokeAll s t).2 = Resets s := by
  have revoked (c : Nat) (l : List Nat) (u : State) :
      Resets (l.foldl (fun u p => u.revoke false c p t) u) = Resets u :=
    foldl_resets (fun u p => State.revoke_resets u false c p t) l u
  unfold State.revokeAll
  dsimp only
  rw [revoked, revoked, revoked, revoked]

theorem State.fullPart_resets (s : State) (t : Nat) :
    Resets (State.fullPart s t).2 = Resets s := by
  unfold State.fullPart
  refine (State.setTnc_resets rfl).trans ?_
  simp only [Resets, State.clearRegs_same, State.clearMeters_same, State.revokeAll_resets, Nat.reduceAnd]

/-! ### Moving a tenant -/

/-- A record in the ring of a tenant changes words of its context page above 0x0C0 alone. -/
theorem reg_ringRecord_other (s : State) (t kind code res detail : Nat) {p o : Nat} (ho : o < 4096)
    (h : p = 0x300 + t → o < 0xC0) : (s.ringRecord t kind code res detail).reg p o = s.reg p o := by
  have word {f : Fld} (u : State) (v : Nat) (hw : f.width ≤ 32) (hp : f.page = 0x300 + t) (hl : 0xC0 ≤ f.off)
      (hf : f.off < 4096) : (u.wr f v).reg p o = u.reg p o := by
    refine reg_wr_otherKey u v hw ?_
    unfold Fld.key regKey
    omega
  unfold State.ringRecord
  dsimp only
  split
  · exact word s _ (by show 16 ≤ 32; decide) rfl (by show 0xC0 ≤ 0xC8; decide) (by show 0xC8 < 4096; decide)
  · have room : s.rd (TNC_RING_WR t) < 32 := rd_lt s (f := TNC_RING_WR t) rfl
    have words : (TNC_RING t (s.rd (TNC_RING_WR t))).words = 4 := by simp +decide only [Fld.words, TNC_RING, if_false]
    rw [reg_mk, word _ _ (by show 5 ≤ 32; decide) rfl (by show 0xC0 ≤ 0xC0; decide) (by show 0xC0 < 4096; decide)]
    refine reg_wr_other s _ _ p o ?_
    rw [words]
    simp only [Fld.key, regKey, TNC_RING]
    omega

theorem rd_ringRecord_other (s : State) (t kind code res detail : Nat) {f : Fld} (hw : f.width ≤ 32) (ho : f.off < 4096)
    (h : f.page = 0x300 + t → f.off < 0xC0) : (s.ringRecord t kind code res detail).rd f = s.rd f := by
  rw [State.rd, State.rd, if_pos hw, if_pos hw, reg_ringRecord_other s t kind code res detail ho h]

/-- A field of page 0x002 beside the states of the tenants. -/
theorem rd_moveTenant_other (s : State) {t : Nat} (ht : t < 64) (st op : Nat) {f : Fld} (hp : f.page = 0x002)
    (ho : 0x50 ≤ f.off) (hf : f.off < 4096) (hw : f.lo + f.width ≤ 32) : (s.moveTenant t st op).rd f = s.rd f := by
  rw [State.moveTenant, rd_ringRecord_other _ _ _ _ _ _ (by omega) hf (by omega), rd_log, State.setTenant,
    rd_wr_free, rd_wr_free]
  · exact free_of_off hp.symm (by show 2 ≤ 32; decide) hw (.inl (by simp only [TNC_TST]; omega))
  · refine Fld.free_iff.mpr ⟨?_, fun _ => hw⟩
    have width : f.width ≤ 32 := by omega
    simp only [Fld.apart, Fld.words, Fld.key, regKey, TNC_CX_ST, hp, width, if_true, Bool.or_eq_true,
      decide_eq_true_eq]
    omega

theorem tstCxst_free {t : Nat} (ht : t < 64) : (TNC_CX_ST t).free (TNC_TST t) = true := by
  refine Fld.free_iff.mpr ⟨?_, fun _ => by simp only [TNC_TST]; omega⟩
  simp only [Fld.apart, Fld.words, Fld.key, regKey, TNC_CX_ST, TNC_TST, Nat.reduceLeDiff, if_true, Bool.or_eq_true,
    decide_eq_true_eq]
  omega

theorem TNC_TST_narrow (t : Nat) : (TNC_TST t).narrow = true := by
  have : t % 16 < 16 := Nat.mod_lt _ (by decide)
  generalize hk : t % 16 = k at this
  unfold Fld.narrow TNC_TST
  rw [hk]
  simp +decide only [Bool.and_eq_true, decide_eq_true_eq, true_and]
  omega

theorem tenant_moveTenant (s : State) {t st : Nat} (ht : t < 64) (hst : st < 4) (op : Nat) :
    (s.moveTenant t st op).tenant t = st := by
  rw [State.moveTenant, State.tenant, rd_ringRecord_other _ _ _ _ _ _ (by show 2 ≤ 32; decide)
    (by simp only [TNC_TST]; omega) (by simp only [TNC_TST]; omega), rd_log, State.setTenant,
    rd_wr_free (tstCxst_free ht)]
  exact rd_wr_lt (TNC_TST_narrow t) hst s

theorem context_moveTenant (s : State) {t st : Nat} (hst : st < 4) (op : Nat) :
    (s.moveTenant t st op).rd (TNC_CX_ST t) = st := by
  rw [State.moveTenant, rd_ringRecord_other _ _ _ _ _ _ (by show 2 ≤ 32; decide) (by show 0x40 < 4096; decide)
    (fun _ => by show 0x40 < 0xC0; decide), rd_log, State.setTenant]
  exact rd_wr_lt rfl hst _

theorem moveTenant_resets (s : State) (t st op : Nat) : (s.moveTenant t st op).tnc.resets = s.tnc.resets :=
  State.moveTenant_resets s t st op

theorem moveTenant_aliases (s : State) (t st op : Nat) : (s.moveTenant t st op).tnc.aliases = s.tnc.aliases := by
  unfold State.moveTenant State.ringRecord
  dsimp only
  split <;> simp only [count_frame, wr_frame, log_frame, State.setTenant]

theorem moveTenant_logs (s : State) (t st op : Nat) :
    (⟨0x4013, t, leBytes 8 (st + op * 2 ^ 8)⟩ : LogEvent) ∈ (s.moveTenant t st op).events := by
  rw [State.moveTenant, part_of_except (State.ringRecord_same 8193 rfl _ _ _ _ _ _) .events rfl, log_events]
  exact List.mem_append_right _ List.mem_cons_self

/-! ### The commands of TC00 -/

theorem tncWriter_tcmd (s : State) (lost : Option Nat) (port : Port) (tc d : Nat) :
    tncWriter lost s ⟨port, tc, 0x002, 0x050, none⟩ d = s.tenantCommand d := by
  simp only [tncWriter, if_true]

theorem bits_lt64 (d : Nat) : bits d 0 6 < 64 := bits_lt d 0 6

/-- The operation that a command of the register writes into its word. -/
theorem tcmd_word (d : Word) {op : Nat} (h : op < 8) :
    bits (BitVec.ofNat 32 (putBits d.toNat 8 3 op)).toNat 0 6 = bits d.toNat 0 6 ∧
    bits (BitVec.ofNat 32 (putBits d.toNat 8 3 op)).toNat 8 3 = op := by
  rw [BitVec.toNat_ofNat, bits_mod_word _ _ _ (by decide), bits_mod_word _ _ _ (by decide), bits_putBits_same,
    bits_putBits_other _ _ _ _ _ _ (by decide)]
  exact ⟨rfl, Nat.mod_eq_of_lt h⟩

/-- A command that fits the state of a tenant above TC01. -/
theorem tenantCommand_moves {s : State} {d op st : Nat} (hb : s.on TNC_T_BUSY = false) (ht : 2 ≤ bits d 0 6)
    (hop : bits d 8 3 = op) (hst : s.tenant (bits d 0 6) = st)
    (hfit : (op = 1 ∧ st = tenOff) ∨ (op = 2 ∧ st = tenActive) ∨ (op = 3 ∧ st = tenSuspended)) :
    s.tenantCommand d = (.ok, (s.moveTenant (bits d 0 6) (if op = 2 then tenSuspended else tenActive) op).wr TNC_T_CODE
      (codeOf .ok)) := by
  have low : ¬ bits d 0 6 < 2 := by omega
  have one : bits d 0 6 ≠ 1 := by omega
  unfold State.tenantCommand
  obtain ⟨rfl, rfl⟩ | ⟨rfl, rfl⟩ | ⟨rfl, rfl⟩ := hfit <;>
    simp +decide [hb, hop, hst, low, one]

theorem tenantCommand_resets {s : State} {d op : Nat} (hb : s.on TNC_T_BUSY = false) (ht : 2 ≤ bits d 0 6)
    (hop : bits d 8 3 = op) (hfit : op = 4 ∨ op = 5)
    (hst : s.tenant (bits d 0 6) = tenActive ∨ s.tenant (bits d 0 6) = tenSuspended) :
    s.tenantCommand d = (.ok, s.resetTenant (bits d 0 6) (op == 5) false) := by
  have low : ¬ bits d 0 6 < 2 := by omega
  have one : bits d 0 6 ≠ 1 := by omega
  unfold State.tenantCommand
  obtain hst | hst := hst <;> obtain rfl | rfl := hfit <;> simp +decide [hb, hop, hst, low, one]

/-- What the obligation asks of a tenant moved by a command. -/
theorem moved_tenant {s : State} {t st : Nat} (ht : t < 64) (hst : st < 4) (op : Nat) :
    let u := ((s.moveTenant t st op).wr TNC_T_CODE (codeOf .ok)).answer .ok
    u.resp.code = .ok ∧ u.tenant t = st ∧ u.rd (TNC_CX_ST t) = st ∧
      (⟨0x4013, t, leBytes 8 (st + op * 2 ^ 8)⟩ : LogEvent) ∈ u.events := by
  have code_tst : TNC_T_CODE.free (TNC_TST t) = true :=
    free_of_off rfl (by decide) (by simp only [TNC_TST]; omega) (.inr (by simp only [TNC_TST, TNC_T_CODE]; omega))
  have code_cx : TNC_T_CODE.free (TNC_CX_ST t) = true := by
    refine Fld.free_iff.mpr ⟨?_, fun _ => by show 0 + 2 ≤ 32; decide⟩
    simp only [Fld.apart, Fld.words, Fld.key, regKey, TNC_CX_ST, TNC_T_CODE, Nat.reduceLeDiff, if_true,
      Bool.or_eq_true, decide_eq_true_eq]
    omega
  refine ⟨rfl, ?_, ?_, ?_⟩
  · rw [State.tenant, rd_answer, rd_wr_free code_tst]
    exact tenant_moveTenant s ht hst op
  · rw [rd_answer, rd_wr_free code_cx]
    exact context_moveTenant s hst op
  · simp only [answer_frame, wr_frame]
    exact moveTenant_logs s t st op

theorem tcmd_moves {c : Instr} {s : State} {w : RegWrite} {op st : Nat} (hop : op < 8)
    (hc : exec c s = .next (s.writeReg (tncWriter none) 0x002 0x050 w fun d => putBits d 8 3 op))
    (hw : s.admitsWrite 0x002 0x050 w (putBits w.data.toNat 8 3 op) = true) (hb : s.on TNC_T_BUSY = false)
    (ht : 2 ≤ bits w.data.toNat 0 6) (hst : s.tenant (bits w.data.toNat 0 6) = st)
    (hfit : (op = 1 ∧ st = tenOff) ∨ (op = 2 ∧ st = tenActive) ∨ (op = 3 ∧ st = tenSuspended)) :
    Answers c s fun t => t.resp.code = .ok ∧
      t.tenant (bits w.data.toNat 0 6) = (if op = 2 then tenSuspended else tenActive) ∧
      t.rd (TNC_CX_ST (bits w.data.toNat 0 6)) = (if op = 2 then tenSuspended else tenActive) ∧
      (⟨0x4013, bits w.data.toNat 0 6, leBytes 8 ((if op = 2 then tenSuspended else tenActive) + op * 2 ^ 8)⟩ :
        LogEvent) ∈ t.events := by
  obtain ⟨htc, hopd⟩ := tcmd_word w.data hop
  refine answers_write hc (by decide) hw ((tncWriter_tcmd _ _ _ _ _).trans
    (tenantCommand_moves hb (by rwa [htc]) hopd (by rwa [htc]) hfit)) ?_
  rw [htc]
  exact moved_tenant (bits_lt64 _) (by split <;> decide) op

/-- What the obligation asks of a tenant whose reset has begun. -/
theorem reset_tenant (s : State) {t : Nat} (ht : t < 64) (full own : Bool) :
    let u := (s.resetTenant t full own).answer .ok
    u.resp.code = .ok ∧ u.tenant t = tenResetting ∧ u.on TNC_T_BUSY = true ∧
      (⟨t, full, s.tenant t, own, none⟩ : TenantReset) ∈ u.tnc.resets := by
  unfold State.resetTenant
  refine ⟨rfl, ?_, ?_, ?_⟩
  · rw [State.tenant, rd_answer]
    exact tenant_moveTenant _ ht (by decide) _
  · rw [on_answer, State.on, rd_moveTenant_other _ ht _ _ rfl (by decide) (by decide) (by decide)]
    exact on_wr_b2n (f := TNC_T_BUSY) (by decide) (by decide) _ true
  · simp only [answer_frame, moveTenant_resets, wr_frame]
    exact List.mem_append_right _ List.mem_cons_self

theorem tcmd_resets {c : Instr} {s : State} {w : RegWrite} {op : Nat} (hop : op < 8) (hfit : op = 4 ∨ op = 5)
    (hc : exec c s = .next (s.writeReg (tncWriter none) 0x002 0x050 w fun d => putBits d 8 3 op))
    (hw : s.admitsWrite 0x002 0x050 w (putBits w.data.toNat 8 3 op) = true) (hb : s.on TNC_T_BUSY = false)
    (ht : 2 ≤ bits w.data.toNat 0 6)
    (hst : s.tenant (bits w.data.toNat 0 6) = tenActive ∨ s.tenant (bits w.data.toNat 0 6) = tenSuspended) :
    Answers c s fun t => t.resp.code = .ok ∧ t.tenant (bits w.data.toNat 0 6) = tenResetting ∧
      t.on TNC_T_BUSY = true ∧
      (⟨bits w.data.toNat 0 6, op == 5, s.tenant (bits w.data.toNat 0 6), false, none⟩ : TenantReset) ∈
        t.tnc.resets := by
  obtain ⟨htc, hopd⟩ := tcmd_word w.data hop
  refine answers_write hc (by decide) hw ((tncWriter_tcmd _ _ _ _ _).trans
    (tenantCommand_resets hb (by rwa [htc]) hopd hfit (by rwa [htc]))) ?_
  rw [htc]
  exact reset_tenant s (bits_lt64 _) _ _

/-! ### The context page -/

theorem plainWord_softrst (t : Fin 64) : plainWord (0x300 + t.val) 0x044 = true := by
  revert t
  decide

theorem tncWriter_softrst (s : State) (lost : Option Nat) (port : Port) (tc : Nat) (t : Fin 64) (d : Word) :
    tncWriter lost s ⟨port, tc, 0x300 + t.val, 0x044, none⟩ (BitVec.ofNat 32 (setBit d.toNat 0)).toNat =
      s.softReset t.val := by
  have requested : bit (BitVec.ofNat 32 (setBit d.toNat 0)).toNat 0 = true := by
    rw [bit_ofNat (by decide), bit_setBit_same]
  unfold tncWriter
  dsimp only
  rw [if_neg (by omega), if_neg (by omega), if_neg (by omega), if_pos ⟨by omega, rfl⟩, if_pos requested,
    Nat.add_sub_cancel_left]

/-- The code and the tenant's state of a reset that does not start stay what they are. -/
theorem softReset_coded {s : State} {t : Fin 64} {w : RegWrite} {c : Status}
    (hw : s.admitsWrite (0x300 + t.val) 0x044 w (setBit w.data.toNat 0) = true) (h : s.softReset t.val = (c, s)) :
    Answers (.tncCxSoftrst t w) s fun u => u.resp.code = c ∧ u.tenant t.val = s.tenant t.val ∧ u.tnc = s.tnc := by
  refine answers_write_coded rfl (plainWord_softrst t) hw ((tncWriter_softrst _ _ _ _ _ _).trans h) ⟨rfl, ?_, ?_⟩
  · rw [State.tenant, rd_answer, rd_capture_other _ _ _ _ _ (by show 2 ≤ 32; decide)]
    · rfl
    · simp only [Fld.key, regKey, TNC_TST]; omega
    · simp only [Fld.key, regKey, TNC_TST]; omega
  · simp only [answer_frame, capture_frame]

/-! ### The end of a reset -/

theorem codeOf_lt (c : Status) : codeOf c < 256 := by
  cases c <;> decide

theorem find_tenant {s : State} {n : Nat} {r : TenantReset} (h : s.tnc.resets.find? (·.tc == n) = some r) :
    r.tc = n ∧ r ∈ s.tnc.resets :=
  ⟨beq_iff_eq.mp (List.find?_some (p := fun x : TenantReset => x.tc == n) h), List.mem_of_find?_eq_some h⟩

theorem busy_softrst (t : Nat) : (TNC_CX_SOFTRST t).free TNC_T_BUSY = true := by
  refine Fld.free_iff.mpr ⟨?_, fun _ => by decide⟩
  simp only [Fld.apart, Fld.words, Fld.key, regKey, TNC_CX_SOFTRST, TNC_T_BUSY, Nat.reduceLeDiff, if_true,
    Bool.or_eq_true, decide_eq_true_eq]
  omega

/-- The state before the tenant moves at the end of its reset. -/
def State.unlisted (s : State) (r : TenantReset) (c : Status) : State :=
  let s := s.setTnc fun x => { x with resets := x.resets.filter (·.tc != r.tc) }
  let s := s.wr TNC_T_BUSY (b2n (s.tnc.resets != []))
  if r.own then s.wr (TNC_CX_SOFTRST r.tc) 0 else s.wr TNC_T_CODE (codeOf c)

theorem resetEnds_eq (s : State) (r : TenantReset) (c : Status) : s.resetEnds r c =
    (s.unlisted r c).moveTenant r.tc (if r.full then tenOff else r.back) (if r.full then 5 else 4) := rfl

theorem unlisted_tnc (s : State) (r : TenantReset) (c : Status) :
    (s.unlisted r c).tnc = { s.tnc with resets := s.tnc.resets.filter (·.tc != r.tc) } := by
  unfold State.unlisted
  dsimp only
  split <;> simp only [wr_frame] <;> rfl

theorem resetEnds_resets (s : State) (r : TenantReset) (c : Status) :
    (s.resetEnds r c).tnc.resets = s.tnc.resets.filter (·.tc != r.tc) := by
  rw [resetEnds_eq, moveTenant_resets, unlisted_tnc]

theorem resetEnds_aliases (s : State) (r : TenantReset) (c : Status) :
    (s.resetEnds r c).tnc.aliases = s.tnc.aliases := by
  rw [resetEnds_eq, moveTenant_aliases, unlisted_tnc]

theorem resetEnds_unlists (s : State) (r : TenantReset) (c : Status) : ∀ x ∈
    (s.resetEnds r c).tnc.resets, x.tc ≠ r.tc := by
  intro x hx
  rw [resetEnds_resets] at hx
  exact bne_iff_ne.mp (List.mem_filter.mp hx).2

theorem tenant_resetEnds (s : State) {r : TenantReset} (ht : r.tc < 64) (c : Status)
    (hst : (if r.full then tenOff else r.back) < 4) :
    (s.resetEnds r c).tenant r.tc = if r.full then tenOff else r.back :=
  tenant_moveTenant _ ht hst _

theorem busy_resetEnds (s : State) {r : TenantReset} (ht : r.tc < 64) (c : Status) :
    (s.resetEnds r c).on TNC_T_BUSY = ((s.resetEnds r c).tnc.resets != []) := by
  rw [resetEnds_resets, resetEnds_eq, State.on, rd_moveTenant_other _ ht _ _ rfl (by decide) (by decide) (by decide),
    ← State.on, State.unlisted]
  split
  · rw [on_wr_free (busy_softrst r.tc)]
    exact on_wr_b2n (f := TNC_T_BUSY) (by decide) (by decide) _ _
  · rw [on_wr_free (f := TNC_T_CODE) (by decide)]
    exact on_wr_b2n (f := TNC_T_BUSY) (by decide) (by decide) _ _

theorem code_resetEnds (s : State) {r : TenantReset} (ht : r.tc < 64) (c : Status) (own : r.own = false) :
    (s.resetEnds r c).rd TNC_T_CODE = codeOf c := by
  rw [resetEnds_eq, rd_moveTenant_other _ ht _ _ rfl (by decide) (by decide) (by decide), State.unlisted]
  rw [own, if_neg Bool.false_ne_true]
  exact rd_wr_lt (by decide) (codeOf_lt c) _

theorem fullPart_aliases (s : State) (t : Nat) : ∀ e ∈ (s.fullPart t).2.tnc.aliases, e.1 / 256 ≠ t := by
  intro e he
  exact bne_iff_ne.mp (List.mem_filter.mp he).2

/-- A full reset whose own part comes now leaves no page window of the tenant, and either ends or stands with its code. -/
theorem fullReset_first {s : State} {r : TenantReset} {n : Fin 64} (hf : s.tnc.resets.find? (·.tc == n.val) = some r)
    (hr : s.itemRuns n.val = false) (full : r.full = true) (hc : r.code = none) :
    Answers (.tenantResetDone n) s fun t => (∀ e ∈ t.tnc.aliases, e.1 / 256 ≠ n.val) ∧
      (t.tenant n.val = tenOff ∨ ∃ x ∈ t.tnc.resets, x.tc = n.val ∧ x.code ≠ none) := by
  obtain ⟨htc, hmem⟩ := find_tenant hf
  refine ⟨_, rfl, ?_⟩
  simp only [hf, htc, hr, full, hc, Bool.not_true, Bool.false_eq_true, if_false]
  split
  · refine ⟨fullPart_aliases s n.val, .inr ⟨{ r with code := some (s.fullPart n.val).1 }, ?_, htc, by simp⟩⟩
    refine List.mem_map.mpr ⟨r, ?_, if_pos rfl⟩
    have kept : (s.fullPart n.val).2.tnc.resets = s.tnc.resets := State.fullPart_resets s n.val
    exact kept ▸ hmem
  · refine ⟨?_, .inl ?_⟩
    · rw [resetEnds_aliases]
      exact fullPart_aliases s n.val
    · have := tenant_resetEnds ((s.fullPart n.val).2.setTnc fun x => { x with
        resets := x.resets.map fun z => if z = r then { z with code := some (s.fullPart n.val).1 } else z })
        (r := r) (by omega) (s.fullPart n.val).1 (by rw [full, if_pos rfl]; decide)
      rw [full, if_pos rfl, htc] at this
      exact this

/-- Settles O15. -/
theorem tenantStatesComplete : Obligations.TenantStatesComplete := by
  unfold Obligations.TenantStatesComplete
  refine ⟨?_, ?_, ?_, ?_, ?_, ?_, ?_⟩
  · exact fun s w hw hb ht hst => tcmd_moves (by decide) rfl hw hb ht hst (.inl ⟨rfl, rfl⟩)
  · exact fun s w hw hb ht hst => tcmd_moves (by decide) rfl hw hb ht hst (.inr (.inl ⟨rfl, rfl⟩))
  · exact fun s w hw hb ht hst => tcmd_moves (by decide) rfl hw hb ht hst (.inr (.inr ⟨rfl, rfl⟩))
  · exact fun s w hw hb ht hst => tcmd_resets (by decide) (.inl rfl) rfl hw hb ht hst
  · exact fun s w hw hb ht hst => tcmd_resets (by decide) (.inr rfl) rfl hw hb ht hst
  · refine fun s tenant w hw => ⟨fun ht hst => ?_, fun ht hst => ?_, fun ht => ?_⟩
    · refine answers_write rfl (plainWord_softrst tenant) hw ((tncWriter_softrst _ _ _ _ _ _).trans ?_)
        (reset_tenant s tenant.isLt false true)
      rw [State.softReset, if_neg (by omega), if_neg (by omega), if_neg hst]
    · have skips : s.softReset tenant.val = (.skipped, s) := by
        rw [State.softReset, if_neg (by omega), if_neg (by omega), if_pos hst]
      refine (softReset_coded hw skips).imp fun u ⟨hc, htn, hu⟩ => ⟨hc, htn.trans hst, hu⟩
    · have refused : s.softReset tenant.val =
          (if tenant.val = 1 ∧ s.on TNC_SEALED = true then .prot else .cfgInvalid, s) := by
        unfold State.softReset
        obtain h | h : tenant.val = 0 ∨ tenant.val = 1 := by omega
        · simp [h]
        · simp [h]
      exact (softReset_coded hw refused).imp fun u ⟨hc, _, hu⟩ => ⟨hc, hu⟩
  · refine fun s tenant r hf hr => ⟨fun full hb => ?_, fun c full hc hrv => ?_, fullReset_first hf hr⟩
    · obtain ⟨htc, -⟩ := find_tenant hf
      refine ⟨_, rfl, ?_⟩
      simp only [hf, htc, hr, full, Bool.not_false, Bool.false_eq_true, if_false, if_true]
      have back := tenant_resetEnds s (r := r) (by omega) .ok (by rw [full]; exact hb)
      rw [full, if_neg Bool.false_ne_true] at back
      rw [← htc]
      exact ⟨back, resetEnds_unlists s r .ok, busy_resetEnds s (by omega) .ok⟩
    · obtain ⟨htc, -⟩ := find_tenant hf
      refine ⟨_, rfl, ?_⟩
      simp only [hf, htc, hr, full, hc, hrv, Bool.not_true, Bool.false_eq_true, if_false]
      have off := tenant_resetEnds s (r := r) (by omega) c (by rw [full, if_pos rfl]; decide)
      rw [full, if_pos rfl] at off
      rw [← htc]
      exact ⟨off, resetEnds_unlists s r c, code_resetEnds s (by omega) c⟩

end Sys2Proof.Machine

/-! ## Accumulators, the close of a cycle and pulse outputs -/

namespace Sys2Proof.Machine

open Reg

/-! ### The 64-bit words of a block -/

/-- A whole word of a page, as a field. -/
def wordFld (page off : Nat) : Fld := ⟨page, off, 0, 32⟩

theorem wordFld_narrow (page off : Nat) : (wordFld page off).narrow = true := rfl

theorem wordFld_free {page o : Nat} {g : Fld} (hp : g.page = page) (hg : g.lo + g.width ≤ 32)
    (h : o + 4 ≤ g.off ∨ g.off + 4 ≤ o) : (wordFld page o).free g = true :=
  free_of_off hp.symm (by show 32 ≤ 32; decide) hg h

/-- The page of the block of a channel or of a meter. -/
def blockPage (vm : Bool) (i : Nat) : Nat := if vm then 0x140 + i / 4 else 0x040 + i / 8

/-- The address of the 64-bit word `w` of the block of a channel or of a meter. -/
def blockOff (vm : Bool) (i w : Nat) : Nat := if vm then 0x140 + 256 * (i % 4) + 8 * w else 0x100 + 128 * (i % 8) + 8 *
    w

theorem accFlds_eq {vm : Bool} {i w : Nat} (h : w ≤ sumWords vm) :
    accFlds vm i w = (wordFld (blockPage vm i) (blockOff vm i w), wordFld (blockPage vm i) (blockOff vm i w + 4)) := by
  cases vm
  · simp only [sumWords, Bool.false_eq_true, if_false] at h
    simp only [accFlds, blockPage, blockOff, Bool.false_eq_true, if_false]
    split
    · simp only [ACC_Q_LO, ACC_Q_HI, wordFld, Prod.mk.injEq, Fld.mk.injEq, and_true, true_and]
      omega
    · obtain rfl : w = 8 := by omega
      simp only [ACC_SUM_LO, ACC_SUM_HI, wordFld, Prod.mk.injEq, Fld.mk.injEq, and_true, true_and, if_true]
      omega
  · simp only [sumWords, if_true] at h
    simp only [accFlds, blockPage, blockOff, if_true]
    split
    · simp only [ACC_VQ_LO, ACC_VQ_HI, wordFld, Prod.mk.injEq, Fld.mk.injEq, and_true, true_and]
      omega
    · split
      · simp only [ACC_VTRF_LO, ACC_VTRF_HI, wordFld, Prod.mk.injEq, Fld.mk.injEq, and_true, true_and]
        omega
      · obtain rfl : w = 9 := by omega
        simp only [ACC_VSUM_LO, ACC_VSUM_HI, wordFld, Prod.mk.injEq, Fld.mk.injEq, and_true, true_and]
        omega

theorem accWord_eq (s : State) {vm : Bool} {i w : Nat} (h : w ≤ sumWords vm) : s.accWord vm i w =
    s.rd (wordFld (blockPage vm i) (blockOff vm i w)) + 2 ^ 32 * s.rd (wordFld (blockPage vm i)
    (blockOff vm i w + 4)) := by
  rw [State.accWord, accFlds_eq h, State.rd64]

/-- A field of the page that lies outside a 64-bit word. -/
theorem rd_setAccWord (s : State) {vm : Bool} {i w : Nat} (v : Nat) {g : Fld} (h : w ≤ sumWords vm)
    (hp : g.page = blockPage vm i) (hg : g.lo + g.width ≤ 32)
    (ho : blockOff vm i w + 8 ≤ g.off ∨ g.off + 4 ≤ blockOff vm i w) : (s.setAccWord vm i w v).rd g = s.rd g := by
  rw [State.setAccWord, accFlds_eq h]
  exact rd_wr64_free (wordFld_free hp hg (by omega)) (wordFld_free hp hg (by omega)) s _

theorem accWord_setAccWord_same (s : State) {vm : Bool} {i w : Nat} (v : Nat) (h : w ≤ sumWords vm) :
    (s.setAccWord vm i w v).accWord vm i w = v % 2 ^ 64 := by
  rw [accWord_eq _ h, State.setAccWord, accFlds_eq h, State.wr64, rd_wr_free, rd_wr_same _ _ _ (wordFld_narrow _ _),
    rd_wr_same _ _ _ (wordFld_narrow _ _)]
  · simp only [wordFld]
    omega
  · exact wordFld_free rfl (by show 32 ≤ 32; decide) (.inr (Nat.le_refl _))

theorem accWord_setAccWord_other (s : State) {vm : Bool} {i w r : Nat} (v : Nat) (h : w ≤ sumWords vm)
    (hr : r ≤ sumWords vm) (hne : r ≠ w) : (s.setAccWord vm i w v).accWord vm i r = s.accWord vm i r := by
  have apart (d : Nat) (hd : d ≤ 4) : blockOff vm i w + 8 ≤ blockOff vm i r + d ∨
      blockOff vm i r + d + 4 ≤ blockOff vm i w := by
    unfold blockOff
    split <;> omega
  rw [accWord_eq _ hr, accWord_eq _ hr, rd_setAccWord s v h rfl (by show 32 ≤ 32; decide) (apart 0 (by decide)),
    rd_setAccWord s v h rfl (by show 32 ≤ 32; decide) (apart 4 (by decide))]

/-! ### An increment -/

theorem accWord_accGain_same (s : State) {vm : Bool} {i w : Nat} (n : Nat) (h : w < sumWords vm) :
    (s.accGain vm i w n).accWord vm i w = (s.accWord vm i w + n) % 2 ^ 64 := by
  rw [State.accGain, accWord_setAccWord_other _ _ (Nat.le_refl _) h.le h.ne, accWord_setAccWord_same _ _ h.le]

theorem accWord_accGain_sum (s : State) {vm : Bool} {i w : Nat} (n : Nat) :
    (s.accGain vm i w n).accWord vm i (sumWords vm) = (s.accWord vm i (sumWords vm) + n) % 2 ^ 64 := by
  rw [State.accGain, accWord_setAccWord_same _ _ (Nat.le_refl _)]

theorem accWord_accGain_other (s : State) {vm : Bool} {i w r : Nat} (n : Nat) (h : w < sumWords vm)
    (hr : r < sumWords vm) (hne : r ≠ w) : (s.accGain vm i w n).accWord vm i r = s.accWord vm i r := by
  rw [State.accGain, accWord_setAccWord_other _ _ (Nat.le_refl _) hr.le hr.ne,
    accWord_setAccWord_other _ _ h.le hr.le hne]

theorem foldl_add_range (f : Nat → Nat) (n : Nat) :
    (List.range n).foldl (fun a w => a + f w) 0 = ∑ w ∈ Finset.range n, f w := by
  induction n with
  | zero => rfl
  | succ n ih => rw [List.range_succ, List.foldl_concat, ih, Finset.sum_range_succ]

theorem blockSum_eq (s : State) (vm : Bool) (i : Nat) :
    s.blockSum vm i = (∑ w ∈ Finset.range (sumWords vm), s.accWord vm i w) % 2 ^ 64 := by
  rw [State.blockSum, foldl_add_range]

theorem accWord_of_regs {s t : State} (h : t.regs = s.regs) (vm : Bool) (i w : Nat) :
    t.accWord vm i w = s.accWord vm i w := by
  rw [State.accWord, State.accWord, State.rd64, State.rd64, rd_of_regs h, rd_of_regs h]

theorem blockSum_of_regs {s t : State} (h : t.regs = s.regs) (vm : Bool)
    (i : Nat) : t.blockSum vm i = s.blockSum vm i := by
  simp only [blockSum_eq, accWord_of_regs h]

/-- The words of a block and its sum check gain the same. -/
theorem blockSum_accGain (s : State) {vm : Bool} {i w : Nat} (n : Nat) (h : w < sumWords vm) :
    (s.accGain vm i w n).blockSum vm i = (s.blockSum vm i + n) % 2 ^ 64 := by
  have inside : w ∈ Finset.range (sumWords vm) := Finset.mem_range.mpr h
  have others : ∑ r ∈ (Finset.range (sumWords vm)).erase w, (s.accGain vm i w n).accWord vm i r =
      ∑ r ∈ (Finset.range (sumWords vm)).erase w, s.accWord vm i r := by
    refine Finset.sum_congr rfl fun r hr => accWord_accGain_other s n h ?_ (Finset.ne_of_mem_erase hr)
    exact Finset.mem_range.mp (Finset.mem_of_mem_erase hr)
  rw [blockSum_eq, blockSum_eq, ← Finset.add_sum_erase _ _ inside, ← Finset.add_sum_erase _ _ inside, others,
    accWord_accGain_same s n h]
  omega

/-! ### An increment of a channel -/

/-- The half word that holds a residue. -/
theorem resFld_eq (ch q : Nat) :
    resFld ch q = ⟨blockPage false ch, 0x160 + 128 * (ch % 8) + 4 * (q / 2), 16 * (q % 2), 16⟩ := by
  unfold resFld
  split <;> simp only [ACC_RES_A, ACC_RES_B, blockPage, Fld.mk.injEq, Bool.false_eq_true, if_false, and_true, true_and]
    <;>
    omega

theorem resFld_narrow (ch q : Nat) : (resFld ch q).narrow = true := by
  rw [resFld_eq, Fld.narrow, Bool.and_eq_true, decide_eq_true_eq, decide_eq_true_eq]
  exact ⟨by show 16 ≤ 32; decide, by dsimp only; omega⟩

theorem resFld_free {ch q r : Nat} (hne : r ≠ q) : (resFld ch q).free (resFld ch r) = true := by
  rw [resFld_eq, resFld_eq]
  refine Fld.free_iff.mpr ⟨?_, fun _ => by dsimp only; omega⟩
  simp only [Fld.apart, Fld.words, Fld.key, regKey, Nat.reduceLeDiff, if_true, Bool.or_eq_true, Bool.and_eq_true,
    decide_eq_true_eq, beq_iff_eq, decide_true, true_and, and_true]
  by_cases same : q / 2 = r / 2
  · rw [same]
    omega
  · omega

theorem rd_accGain (s : State) {vm : Bool} {i w : Nat} (n : Nat) {g : Fld} (h : w < sumWords vm)
    (hp : g.page = blockPage vm i) (hg : g.lo + g.width ≤ 32)
    (ho : blockOff vm i (sumWords vm) + 8 ≤ g.off) : (s.accGain vm i w n).rd g = s.rd g := by
  have below : blockOff vm i w ≤ blockOff vm i (sumWords vm) := by
    unfold blockOff
    split <;> omega
  rw [State.accGain, rd_setAccWord _ _ (Nat.le_refl _) hp hg (.inl ho), rd_setAccWord _ _ h.le hp hg (.inl (by omega))]

theorem res_accGain (s : State) {ch w : Nat} (n r : Nat) (h : w < 8) (hr : r < 8) :
    (s.accGain false ch w n).rd (resFld ch r) = s.rd (resFld ch r) := by
  rw [resFld_eq]
  refine rd_accGain s n (vm := false) h rfl (by dsimp only; omega) ?_
  simp only [blockOff, sumWords, Bool.false_eq_true, if_false]
  omega

theorem accWord_wrRes (s : State) (ch q v w : Nat) (h : w ≤ 8) :
    (s.wr (resFld ch q) v).accWord false ch w = s.accWord false ch w := by
  have free (d : Nat) (hd : d ≤ 4) :
      (resFld ch q).free (wordFld (blockPage false ch) (blockOff false ch w + d)) = true := by
    rw [resFld_eq]
    refine free_of_off rfl (by show 16 ≤ 32; decide) (by show 32 ≤ 32; decide) (.inr ?_)
    simp only [blockOff, wordFld, Bool.false_eq_true, if_false]
    omega
  have low := free 0 (by decide)
  rw [Nat.add_zero] at low
  rw [accWord_eq _ (vm := false) h, accWord_eq _ (vm := false) h, rd_wr_free low, rd_wr_free (free 4 (by decide))]

theorem blockSum_wrRes (s : State) (ch q v : Nat) : (s.wr (resFld ch q) v).blockSum false ch = s.blockSum false ch := by
  rw [blockSum_eq, blockSum_eq]
  congr 1
  exact Finset.sum_congr rfl fun w hw => accWord_wrRes s ch q v w (Nat.le_of_lt (Finset.mem_range.mp hw))

/-- The registers after an increment: the increment kept for the pulse outputs is none of them. -/
theorem accAdd_regs (s : State) (ch q e : Nat) :
    (s.accAdd ch q e).regs = ((s.wr (resFld ch q) ((s.rd (resFld ch q) + e) % 65536)).accGain false ch q
      ((s.rd (resFld ch q) + e) / 65536)).regs := rfl

/-- Settles O22. -/
theorem accumulatorConservesEnergy : Obligations.AccumulatorConservesEnergy := by
  intro s ch q e _ hq
  have regs := accAdd_regs s ch q e
  refine ⟨?_, fun r hr hne => ⟨?_, ?_⟩, fun agreed => ?_⟩
  · have residue : (s.rd (resFld ch q) + e) % 65536 < 2 ^ (resFld ch q).width := by
      rw [resFld_eq]
      exact Nat.mod_lt _ (by decide)
    rw [accWord_of_regs regs, rd_of_regs regs, accWord_accGain_same _ _ hq, accWord_wrRes _ _ _ _ _ hq.le,
      res_accGain _ _ _ hq hq, rd_wr_lt (resFld_narrow ch q) residue]
    omega
  · rw [accWord_of_regs regs, accWord_accGain_other _ _ hq hr hne, accWord_wrRes _ _ _ _ _ hr.le]
  · rw [rd_of_regs regs, res_accGain _ _ _ hq hr, rd_wr_free (resFld_free hne)]
  · rw [blockSum_of_regs regs, accWord_of_regs regs, blockSum_accGain _ _ hq, blockSum_wrRes, agreed]
    have kept (v : Nat) : (s.wr (resFld ch q) v).accWord false ch (sumWords false) = s.accWord false ch 8 :=
      accWord_wrRes s ch q v 8 (Nat.le_refl 8)
    exact ((accWord_accGain_sum _ _).trans (by rw [kept])).symm

/-! ### The latch of a block -/

/-- A word below those that are latched keeps its place in the latch. -/
theorem latch_latchWords_below (s : State) {page off k : Nat} (n : Nat) (h : k < regKey page off) :
    cellAt 0#32 k (s.latchWords page off n).latch = cellAt 0#32 k s.latch := by
  induction n generalizing s off with
  | zero => rfl
  | succ n ih =>
    rw [State.latchWords, ih _ (by unfold regKey at *; omega)]
    exact cellAt_insert_other _ h.ne _ _

/-- Every latched word stands in the latch. -/
theorem latch_latchWords (s : State) (page : Nat) {off n i : Nat} (h : i < n) :
    cellAt 0#32 (regKey page (off + 4 * i)) (s.latchWords page off n).latch =
      BitVec.ofNat 32 (s.reg page (off + 4 * i)) := by
  induction n generalizing s off i with
  | zero => omega
  | succ n ih =>
    rw [State.latchWords]
    cases i with
    | zero =>
      rw [latch_latchWords_below _ _ (by unfold regKey; omega)]
      exact cellAt_insert_same _ _ _ _
    | succ i =>
      have next : off + 4 * (i + 1) = off + 4 + 4 * i := by omega
      rw [next, ih _ (Nat.lt_of_succ_lt_succ h)]
      rfl

theorem latch_latchBlock (s : State) (page : Nat) {base n i : Nat} (h : i < n) :
    cellAt 0#32 (regKey page (base + 4 * i)) (s.latchBlock page base n).latch =
      BitVec.ofNat 32 (s.reg page (base + 4 * i)) :=
  latch_latchWords s page h

/-- A performed read that latches a block. -/
theorem answers_block {c : Instr} {s : State} {h : Reader} {page off base n : Nat} {r : RegRead}
    (hc : exec c s = .next (s.readReg h page off r)) (hr : plainWord page off = true)
    (hw : s.admitsRead page off r = true)
    (e : h s ⟨r.port, r.tc.val, page, off, none⟩ = (.ok, s.reg page off, s.latchBlock page base n)) :
    Answers c s fun t => t.resp.code = .ok ∧ t.resp.data = [s.reg page off] ∧
      (∀ i : Fin n, cellAt 0#32 (regKey page (base + 4 * i.val)) t.latch =
        BitVec.ofNat 32 (s.reg page (base + 4 * i.val))) ∧ SameBut [.latch, .latched, .resp] s t := by
  refine answers_read hc hr hw e ⟨rfl, rfl, fun i => ?_, ?_⟩
  · exact latch_latchBlock s page i.isLt
  · refine sameBut_of_except ?_
    rw [State.answerRead_same _ rfl, State.capture, if_pos (.inl rfl), State.latchBlock_same _ rfl]

theorem mteRead_channel (s : State) (port : Port) (tc p c : Nat) (hc : c < 8) (hp : p < 8) :
    mteRead s ⟨port, tc, 0x031 + p, 0x140 + c * 128, none⟩ =
      (.ok, s.reg (0x031 + p) (0x140 + c * 128), s.latchBlock (0x031 + p) (0x140 + c * 128) 7) := by
  have base : 0x100 + (0x140 + c * 128 - 0x100) / 128 * 128 = 0x100 + c * 128 := by omega
  have start : 0x100 + c * 128 + 0x40 = 0x140 + c * 128 := by omega
  unfold mteRead
  dsimp only
  rw [if_neg (by omega), if_neg (by omega), base, if_pos (by omega), start]
  exact if_pos rfl

theorem mteRead_voltage (s : State) (port : Port) (tc c : Nat) (hc : c < 8) :
    mteRead s ⟨port, tc, 0x039, 0x120 + c * 64, none⟩ =
      (.ok, s.reg 0x039 (0x120 + c * 64), s.latchBlock 0x039 (0x120 + c * 64) 4) := by
  have base : 0x100 + (0x120 + c * 64 - 0x100) / 64 * 64 = 0x100 + c * 64 := by omega
  have start : 0x100 + c * 64 + 0x20 = 0x120 + c * 64 := by omega
  unfold mteRead
  dsimp only
  rw [if_neg (by omega), if_pos rfl, base, if_pos (by omega), start]
  exact if_pos rfl

theorem accRead_channel (s : State) (port : Port) (tc p c : Nat) (hp : p < 8) :
    accRead s ⟨port, tc, 0x040 + p, 0x148 + c * 128, none⟩ =
      (.ok, s.reg (0x040 + p) (0x148 + c * 128), s.latchBlock (0x040 + p) (0x100 + c * 128) 32) := by
  have base : 0x100 + (0x148 + c * 128 - 0x100) / 128 * 128 = 0x100 + c * 128 := by omega
  unfold accRead
  dsimp only
  rw [if_neg (by omega), if_pos (by omega), base]
  exact if_pos (by dsimp only; omega)

theorem accRead_meter (s : State) (port : Port) (tc p c : Nat) :
    accRead s ⟨port, tc, 0x140 + p, 0x190 + c * 256, none⟩ =
      (.ok, s.reg (0x140 + p) (0x190 + c * 256), s.latchBlock (0x140 + p) (0x140 + c * 256) 22) := by
  have base : 0x100 + (0x190 + c * 256 - 0x100) / 256 * 256 = 0x100 + c * 256 := by omega
  have start : 0x100 + c * 256 + 0x40 = 0x140 + c * 256 := by omega
  unfold accRead
  dsimp only
  rw [if_neg (by omega), if_neg (by omega), base, if_neg (by omega), start]
  exact if_pos (by dsimp only; omega)

/-! ### The cycle registers are plain words of their pages -/

theorem plainWord_mteCycle : ∀ i : Fin 64, plainWord (0x031 + i.val / 8) (0x140 + i.val % 8 * 128) = true := by
  decide

theorem plainWord_voltageCycle : ∀ i : Fin 8, plainWord 0x039 (0x120 + i.val * 64) = true := by decide

theorem plainWord_accCycle : ∀ i : Fin 64, plainWord (0x040 + i.val / 8) (0x148 + i.val % 8 * 128) = true := by
  decide

theorem plainWord_meterPages : ∀ p : Fin 64, ∀ c : Fin 4, plainWord (0x140 + p.val) (0x190 + c.val * 256) = true ∧
    plainWord (0x140 + p.val) (0x198 + c.val * 256) = true := by
  decide

theorem plainWord_meterCycle (i : Fin 256) : plainWord (0x140 + i.val / 4) (0x190 + i.val % 4 * 256) = true :=
  (plainWord_meterPages ⟨i.val / 4, by omega⟩ ⟨i.val % 4, by omega⟩).1

/-- Settles O23. -/
theorem blockReadsComplete : Obligations.BlockReadsComplete := by
  unfold Obligations.BlockReadsComplete
  refine ⟨fun s ch r hch hw => ?_, fun s ch r hch hw => ?_, fun s i r hi hw => ?_, fun s i r hw => ?_⟩
  · exact answers_block (congrArg _ (if_pos hch)) (plainWord_mteCycle ⟨ch.val, hch⟩) hw
      (mteRead_channel s _ _ _ _ (by omega) (by omega))
  · exact answers_block (congrArg _ (if_neg (by omega))) (plainWord_voltageCycle ⟨ch.val - 64, by omega⟩) hw
      (mteRead_voltage s _ _ _ (by omega))
  · have command : exec (.accCycRead false i r) s =
        .next (s.readReg accRead (0x040 + i.val / 8) (0x148 + i.val % 8 * 128) r) := by
      change execAccCycRead false i r s = _
      simp only [execAccCycRead, Nat.mod_eq_of_lt hi, Bool.false_eq_true, if_false]
    exact answers_block command (plainWord_accCycle ⟨i.val, hi⟩) hw (accRead_channel s _ _ _ _ (by omega))
  · exact answers_block rfl (plainWord_meterCycle i) hw (accRead_meter s _ _ _ _)

/-! ### The registers of metrology -/

/-- The pages of metrology. -/
def mtePages : List Nat := [0x030, 0x031, 0x032, 0x033, 0x034, 0x035, 0x036, 0x037, 0x038, 0x039]

theorem mtePages_channel {ch : Nat} (h : ch < 64) : mtePages.contains (0x31 + ch / 8) = true := by
  have page : ch / 8 < 8 := by omega
  revert page
  generalize ch / 8 = k
  exact fun page => (by decide : ∀ k < 8, mtePages.contains (0x31 + k) = true) k page

theorem past_mte (P : List Nat) (s : State) (m : MteState) : Past P { s with mte := m } = Past P s := rfl

theorem endSubst_past (P : List Nat) (s : State) (ch : Nat) : Past P (s.endSubst ch) = Past P s :=
  past_of_except (State.endSubst_same _ rfl s ch)

/-- A field of the page of a channel. -/
theorem channelField_lies {f : Fld} {ch : Nat} (hp : f.page = 0x31 + ch / 8) (hw : f.width ≤ 32) (ho : f.off < 4096) :
    f.lies (0x31 + ch / 8) = true := Fld.lies_iff.mpr ⟨hp, hw, ho⟩

theorem substitute_past (s : State) (e : CycleEnd) {ch : Nat} (hch : ch < 64) (flags worst : Nat) :
    Past mtePages (s.substitute e ch flags worst).2 = Past mtePages s := by
  have counted (u : State) : Past mtePages (u.count (MTE_SUBN (icPage ch) (ch % 8))) = Past mtePages u :=
    State.count_past (mtePages_channel hch) (channelField_lies rfl (by show 16 ≤ 32; decide)
      (by simp only [MTE_SUBN]; omega)) u 1
  have told (u : State) : Past mtePages ((u.log 0x3005 1 ch).raise 0x030 1) = Past mtePages u :=
    (State.raise_past (by decide) _ _).trans (past_of_except (State.log_same _ rfl u _ _ _))
  unfold State.substitute
  refine (past_of_except rfl).trans ((counted _).trans ?_)
  split
  · exact told s
  · rfl

theorem channelClose_past (s : State) (e : CycleEnd) {ch : Nat} (hch : ch < 64) :
    Past mtePages (s.channelClose e ch).2 = Past mtePages s := by
  have counted (u : State) (n : Nat) {f : Fld} (hf : f.lies (0x31 + ch / 8) = true) :
      Past mtePages (u.count f n) = Past mtePages u := State.count_past (mtePages_channel hch) hf u n
  have reps (u : State) (n : Nat) : Past mtePages (u.count (MTE_REPN (icPage ch) (ch % 8)) n) = Past mtePages u :=
    counted u n (channelField_lies rfl (by show 16 ≤ 32; decide) (by simp only [MTE_REPN]; omega))
  have nlp (u : State) : Past mtePages (u.count (MTE_NLPN (icPage ch) (ch % 8))) = Past mtePages u :=
    counted u 1 (channelField_lies rfl (by show 16 ≤ 32; decide) (by simp only [MTE_NLPN]; omega))
  have nlq (u : State) : Past mtePages (u.count (MTE_NLQN (icPage ch) (ch % 8))) = Past mtePages u :=
    counted u 1 (channelField_lies rfl (by show 16 ≤ 32; decide) (by simp only [MTE_NLQN]; omega))
  have raised (u : State) : Past mtePages (u.raise 0x030 3) = Past mtePages u := State.raise_past (by decide) u 3
  unfold State.channelClose
  simp only [apply_ite Prod.snd, apply_ite (Past mtePages), endSubst_past, substitute_past s e hch, past_mte, reps,
    nlp, nlq, raised, ite_self]

theorem voltageClose_past (s : State) (e : CycleEnd) {c : Nat} (hc : c < 8) :
    Past mtePages (s.voltageClose e (64 + c)).2 = Past mtePages s := by
  have counted (u : State) (n : Nat) : Past mtePages (u.count (MTE_VREPN c) n) = Past mtePages u :=
    State.count_past (p := 0x039) (by decide) (Fld.lies_iff.mpr ⟨rfl, by show 16 ≤ 32; decide,
      by simp only [MTE_VREPN]; omega⟩) u n
  unfold State.voltageClose
  simp only [apply_ite Prod.snd, apply_ite (Past mtePages), Nat.add_sub_cancel_left, counted, ite_self]

theorem readback_past (s : State) (cyc : Nat) {ch : Nat} (hch : ch < 72) (r : ChanRec) :
    Past mtePages (s.readback cyc ch r) = Past mtePages s := by
  unfold State.readback
  split
  case isTrue h =>
    have word (u : State) (v : Nat) {f : Fld} (hf : f.page = 0x31 + ch / 8) (hw : f.width ≤ 32) (ho : f.off < 4096) :
        Past mtePages (u.wr f v) = Past mtePages u :=
      State.wr_past (mtePages_channel h) (channelField_lies hf hw ho) u v
    iterate 10 rw [word]
    all_goals simp only [MTE_RD_CYC, MTE_RD_RMS, MTE_RD_P, MTE_RD_Q, MTE_RD_S, MTE_RD_ANGLE, MTE_RD_QUAD,
      MTE_RD_FLAGS, MTE_RD_REP, MTE_RD_STS, icPage, Nat.reduceLeDiff]
    all_goals omega
  case isFalse h =>
    have word (u : State) (v : Nat) {f : Fld} (hf : f.page = 0x39) (hw : f.width ≤ 32) (ho : f.off < 4096) :
        Past mtePages (u.wr f v) = Past mtePages u :=
      State.wr_past (by decide) (Fld.lies_iff.mpr ⟨hf, hw, ho⟩) u v
    iterate 6 rw [word]
    all_goals simp only [MTE_RD_VCYC, MTE_RD_V, MTE_RD_VANGLE, MTE_RD_VFLAGS, MTE_RD_VREP, MTE_RD_VSTS,
      Nat.reduceLeDiff]
    all_goals omega

theorem exportClose_past (s : State) (cyc : Nat) (l : List (Nat × ChanRec)) :
    Past mtePages (s.exportClose cyc l) = Past mtePages s := by
  have stored (u : State) (x : Nat × ChanRec) :
      Past mtePages (u.store (0xFF0000 + 4096 * (cyc % 16) + 32 * x.1) (exportRecord cyc x.1 x.2)) = Past mtePages u :=
    past_of_except (State.store_same _ rfl u _ _)
  unfold State.exportClose
  split
  · rfl
  split
  · exact State.count_past (p := 0x030) (by decide) (by decide) s 1
  · exact foldl_past stored l s

theorem endUnmeas_past (P : List Nat) (s : State) : Past P s.endUnmeas = Past P s :=
  past_of_except (State.endUnmeas_same _ rfl s)

theorem unmeasured_past (s : State) (e : CycleEnd) : Past mtePages (s.unmeasured e) = Past mtePages s := by
  have counted (u : State) : Past mtePages (u.count MTE_UNMEAS) = Past mtePages u :=
    State.count_past (p := 0x030) (by decide) (by decide) u 1
  have opened (u : State) : Past mtePages ((u.log 0x3003 1 0).raise 0x030 2) = Past mtePages u :=
    (State.raise_past (by decide) _ _).trans (past_of_except (State.log_same _ rfl u _ _ _))
  unfold State.unmeasured
  simp only [apply_ite (Past mtePages), past_mte, opened, counted, endUnmeas_past, ite_self]

/-! ### The results of a cycle -/

/-- The results that a list of channels gives, each channel closed on the state that the one before leaves. -/
def closeAll (f : State → Nat → ChanRec × State) (id : Nat → Nat) (l : List Nat) (x : List (Nat × ChanRec) × State) :
    List (Nat × ChanRec) × State :=
  l.foldl (fun a c => (a.1 ++ [(id c, (f a.2 c).1)], (f a.2 c).2)) x

theorem closeAll_channels (f : State → Nat → ChanRec × State) (id : Nat → Nat) (l : List Nat)
    (x : List (Nat × ChanRec) × State) : (closeAll f id l x).1.map (·.1) = x.1.map (·.1) ++ l.map id := by
  induction l generalizing x with
  | nil => simp [closeAll]
  | cons c l ih =>
    refine (ih (x.1 ++ [(id c, (f x.2 c).1)], (f x.2 c).2)).trans ?_
    rw [List.map_append, List.append_assoc]
    rfl

theorem closeAll_keeps {α : Type} {g : State → α} {f : State → Nat → ChanRec × State} {id : Nat → Nat} {l : List Nat}
    (h : ∀ u, ∀ c ∈ l, g (f u c).2 = g u) (x : List (Nat × ChanRec) × State) : g (closeAll f id l x).2 = g x.2 := by
  induction l generalizing x with
  | nil => rfl
  | cons c l ih => exact (ih (fun u d hd => h u d (List.mem_cons_of_mem _ hd)) _).trans (h x.2 c List.mem_cons_self)

/-- The results of the channels, the voltages after the currents. -/
def State.results (s : State) (e : CycleEnd) : List (Nat × ChanRec) × State :=
  closeAll (fun u c => u.voltageClose e (64 + c)) (64 + ·) (List.range 8)
    (closeAll (fun u ch => u.channelClose e ch) id (List.range 64) ([], s.endUnmeas))

theorem mteClose_eq (s : State) (e : CycleEnd) : s.mteClose e = ((s.results e).1,
    ((((((s.results e).1.foldl (fun u r => u.readback e.cyc r.1 r.2) (s.results e).2).wr MTE_LAST_LO
      (e.cyc % 2 ^ 32)).wr MTE_LAST_HI (e.cyc / 2 ^ 32 % 65536)).exportClose e.cyc (s.results e).1).raise 0x030 0)) :=
        rfl

theorem results_channels (s : State) (e : CycleEnd) : (s.results e).1.map (·.1) = List.range 72 := by
  rw [State.results, closeAll_channels, closeAll_channels]
  rfl

theorem results_lt {s : State} {e : CycleEnd} {r : Nat × ChanRec} (h : r ∈ (s.results e).1) : r.1 < 72 := by
  have listed : r.1 ∈ (s.results e).1.map (·.1) := List.mem_map_of_mem h
  rwa [results_channels, List.mem_range] at listed

/-- The close of a cycle leaves what no channel's close, readback or output to the ports changes. -/
theorem mteClose_keeps {α : Type} {g : State → α} {e : CycleEnd} (s : State) (unmeas : ∀ u : State, g u.endUnmeas = g u)
    (chan : ∀ (u : State), ∀ ch < 64, g (u.channelClose e ch).2 = g u)
    (volt : ∀ (u : State), ∀ c < 8, g (u.voltageClose e (64 + c)).2 = g u)
    (shown : ∀ (u : State), ∀ ch < 72, ∀ r, g (u.readback e.cyc ch r) = g u)
    (last : ∀ (u : State), ∀ f ∈ [MTE_LAST_LO, MTE_LAST_HI], ∀ v, g (u.wr f v) = g u)
    (sent : ∀ (u : State) l, g (u.exportClose e.cyc l) = g u) (done : ∀ u : State, g (u.raise 0x030 0) = g u) :
    g (s.mteClose e).2 = g s := by
  have folded (l : List (Nat × ChanRec)) (hl : ∀ r ∈ l, r.1 < 72) (u : State) :
      g (l.foldl (fun u r => u.readback e.cyc r.1 r.2) u) = g u := by
    induction l generalizing u with
    | nil => rfl
    | cons r l ih =>
      exact (ih (fun x hx => hl x (List.mem_cons_of_mem _ hx)) _).trans (shown u r.1 (hl r List.mem_cons_self) r.2)
  rw [mteClose_eq]
  dsimp only
  rw [done, sent, last _ _ (by decide), last _ _ (by decide), folded _ (fun r hr => results_lt hr), State.results,
    closeAll_keeps fun u c hc => volt u c (List.mem_range.mp hc),
    closeAll_keeps fun u c hc => chan u c (List.mem_range.mp hc), unmeas]

theorem mteClose_past (s : State) (e : CycleEnd) : Past mtePages (s.mteClose e).2 = Past mtePages s :=
  mteClose_keeps s (endUnmeas_past _) (fun u _ h => channelClose_past u e h) (fun u _ h => voltageClose_past u e h)
    (fun u _ h r => readback_past u e.cyc h r) (fun u f hf v => State.wr_past (p := 0x030) (by decide) (by
      revert f
      decide) u v) (fun u l => exportClose_past u e.cyc l) (fun u => State.raise_past (by decide) u 0)

theorem endUnmeas_due (s : State) : s.endUnmeas.mte.due = s.mte.due := by
  unfold State.endUnmeas
  split <;> simp only [log_frame]

theorem endSubst_due (s : State) (ch : Nat) : (s.endSubst ch).mte.due = s.mte.due := by
  unfold State.endSubst
  dsimp only
  split <;> simp only [log_frame]

theorem channelClose_due (s : State) (e : CycleEnd) (ch : Nat) : (s.channelClose e ch).2.mte.due = s.mte.due := by
  unfold State.channelClose State.substitute
  simp only [apply_ite Prod.snd, apply_ite State.mte, apply_ite MteState.due, count_frame, raise_frame, log_frame,
    endSubst_due, ite_self]

theorem mteClose_due (s : State) (e : CycleEnd) : (s.mteClose e).2.mte.due = s.mte.due :=
  mteClose_keeps (g := fun u => u.mte.due) s endUnmeas_due (fun u _ _ => channelClose_due u e _)
    (fun u _ _ => congrArg MteState.due (part_of_except (State.voltageClose_same 1 rfl u e _) .mte rfl))
    (fun u _ _ r => congrArg MteState.due (part_of_except (State.readback_same 1 rfl u _ _ r) .mte rfl))
    (fun u f _ v => by simp only [wr_frame])
    (fun u l => congrArg MteState.due (part_of_except (State.exportClose_same 34359738369 rfl u _ l) .mte rfl))
    (fun u => by simp only [raise_frame])

theorem unmeasured_due (s : State) (e : CycleEnd) : (s.unmeasured e).mte.due = s.mte.due := by
  unfold State.unmeasured
  simp only [apply_ite State.mte, apply_ite MteState.due, count_frame, raise_frame, log_frame, endUnmeas_due,
    ite_self]

theorem foldl_keeps {α β : Type} {g : State → α} {f : State → β → State} (h : ∀ u x, g (f u x) = g u) (l : List β)
    (s : State) : g (l.foldl f s) = g s := by
  induction l generalizing s with
  | nil => rfl
  | cons x l ih => exact (ih (f s x)).trans (h s x)

theorem accumulate_mte (s : State) (e : CycleEnd) (ch : Nat) (r : ChanRec) : (s.accumulate e ch r).mte = s.mte :=
  part_of_except (State.accumulate_same 65793 rfl s e ch r) .mte rfl

theorem readBack_mte (s : State) (vm : Bool) (i : Nat) (ups : List (Nat × Nat)) : (s.readBack vm i ups).mte = s.mte :=
  part_of_except (State.readBack_same 65793 rfl s vm i ups) .mte rfl

theorem closeStatus_mte (s : State) (cyc ch : Nat) (c : Status) : (s.closeStatus cyc ch c).mte = s.mte :=
  part_of_except (State.closeStatus_same 1 rfl s cyc ch c) .mte rfl

theorem meterClose_mte (s : State) (e : CycleEnd) (recs : List (Nat × ChanRec)) (m : Nat) (terms : List Nat) :
    (s.meterClose e recs m terms).mte = s.mte :=
  part_of_except (State.meterClose_same 65793 rfl s e recs m terms) .mte rfl

theorem addCycle_due (s : State) (e : CycleEnd) (recs : List (Nat × ChanRec)) (ups : List AccUpset) :
    (s.addCycle e recs ups).mte.due = s.mte.due := by
  have skipped (l : List (Nat × ChanRec)) (u : State) :
      (l.foldl (fun u r => u.closeStatus e.cyc r.1 .skipped) u).mte = u.mte :=
    foldl_keeps (g := State.mte) (fun u r => closeStatus_mte u _ _ _) l u
  unfold State.addCycle
  dsimp only
  split
  · rw [skipped]
  split
  · simp only [apply_ite State.mte, raise_frame, log_frame, count_frame, skipped, ite_self]
  · simp only [wr_frame]
    rw [foldl_keeps (g := State.mte), foldl_keeps (g := State.mte)]
    · intro u r
      rw [closeStatus_mte, readBack_mte, accumulate_mte]
    · intro u m
      split
      · rfl
      · rw [readBack_mte, meterClose_mte]

/-! ### The close of a cycle -/

/-- The state after a cycle is taken up, before the meters' clears are forgotten. -/
def State.closed (s : State) (e : CycleEnd) (ups : List AccUpset) : State :=
  let s := { s with mte := { s.mte with due := none } }
  let s := if e.measured then (s.mteClose e).2.addCycle e (s.mteClose e).1 ups else s.unmeasured e
  if s.tnc.everSealed && !e.opening.sealed then s.count TNC_UNBILLED else s

theorem answers_close {s : State} {e : CycleEnd} {ups : List AccUpset} {P : State → Prop} (he : s.mte.due = some e)
    (h : ∀ acc, acc.closed = true → acc.cleared = [] → P { s.closed e ups with acc := acc }) :
    Answers (.metrologyClose ups) s P := by
  refine ⟨_, rfl, ?_⟩
  simp only [he]
  exact h _ rfl rfl

theorem closed_due (s : State) (e : CycleEnd) (ups : List AccUpset) : (s.closed e ups).mte.due = none := by
  unfold State.closed
  simp only [apply_ite State.mte, apply_ite MteState.due, count_frame, addCycle_due, mteClose_due, unmeasured_due,
    ite_self]

theorem closed_tnc (s : State) (e : CycleEnd) (ups : List AccUpset) : (s.closed e ups).tnc = s.tnc := by
  have adds (u : State) : ((u.mteClose e).2.addCycle e (u.mteClose e).1 ups).tnc = u.tnc :=
    (part_of_except (State.addCycle_same 98561 rfl _ e _ ups) .tnc rfl).trans
      (part_of_except (State.mteClose_same 34359771393 rfl u e) .tnc rfl)
  have misses (u : State) : (u.unmeasured e).tnc = u.tnc :=
    part_of_except (State.unmeasured_same 33025 rfl u e) .tnc rfl
  unfold State.closed
  simp only [apply_ite State.tnc, count_frame, adds, misses, ite_self]

/-! ### A cycle that is not billed -/

theorem free_of_key {f g : Fld} (hf : f.width ≤ 32) (hg : g.lo + g.width ≤ 32)
    (h : f.key + 4 ≤ g.key ∨ g.key + 4 ≤ f.key) : f.free g = true := by
  have hgw : g.width ≤ 32 := by omega
  refine Fld.free_iff.mpr ⟨?_, fun _ => hg⟩
  simp only [Fld.apart, Fld.words, if_pos hf, if_pos hgw, Bool.or_eq_true, decide_eq_true_eq]
  omega

/-- A whole word of the accumulator pages beside the status words of the channels. -/
def Fld.besideStatus (f : Fld) : Prop := f.lo = 0 ∧ f.width = 32 ∧ f.off < 4096 ∧ f.off % 4 = 0 ∧
  (0x40 ≤ f.page ∧ f.page < 0x48 ∧ (f.off % 128 < 0x48 ∨ 0x50 ≤ f.off % 128) ∨ 0x140 ≤ f.page ∧ f.page < 0x180)

theorem accFlds_beside {vm : Bool} {i w : Nat} (hi : i < 64 ∨ vm = true ∧ i < 256) (hw : w < 10) :
    (accFlds vm i w).1.besideStatus ∧ (accFlds vm i w).2.besideStatus := by
  cases vm
  · have channel : i < 64 := hi.resolve_right fun h => Bool.false_ne_true h.1
    simp only [accFlds, Bool.false_eq_true, if_false]
    split
    · simp only [true_and, Fld.besideStatus, ACC_Q_LO, ACC_Q_HI]
      omega
    split
    · simp only [true_and, Fld.besideStatus, ACC_SUM_LO, ACC_SUM_HI]
      omega
    · simp only [true_and, Fld.besideStatus, ACC_UFA_LO, ACC_UFA_HI]
      omega
  · have meter : i < 256 := by omega
    simp only [accFlds, if_true]
    split
    · simp only [true_and, Fld.besideStatus, ACC_VQ_LO, ACC_VQ_HI]
      omega
    split
    · simp only [true_and, Fld.besideStatus, ACC_VTRF_LO, ACC_VTRF_HI]
      omega
    · simp only [true_and, Fld.besideStatus, ACC_VSUM_LO, ACC_VSUM_HI]
      omega

/-- A field that the status of a close does not touch. -/
def Fld.unclosed (g : Fld) : Prop := ∀ ch < 64, (ACC_CYC (ch / 8) (ch % 8)).free g = true ∧
  (ACC_CCODE (ch / 8) (ch % 8)).free g = true

theorem rd_closeStatus {g : Fld} (hg : g.unclosed) (s : State) (cyc : Nat) {ch : Nat} (h : ch < 64) (c : Status) :
    (s.closeStatus cyc ch c).rd g = s.rd g := by
  obtain ⟨cyc_free, code_free⟩ := hg ch h
  unfold State.closeStatus
  rw [rd_wr_free code_free, rd_wr_free cyc_free]

theorem unclosed_word {f : Fld} (hf : f.besideStatus) : f.unclosed := by
  obtain ⟨lo, width, off, aligned, place⟩ := hf
  intro ch hch
  constructor
  · refine free_of_key (by show 32 ≤ 32; decide) (by omega) ?_
    simp only [Fld.key, regKey, ACC_CYC]
    omega
  · refine free_of_key (by show 8 ≤ 32; decide) (by omega) ?_
    simp only [Fld.key, regKey, ACC_CCODE]
    omega

theorem unclosed_unbilled : TNC_UNBILLED.unclosed := by
  intro ch hch
  constructor
  · refine free_of_key (by show 32 ≤ 32; decide) (by decide) ?_
    simp only [Fld.key, regKey, ACC_CYC, TNC_UNBILLED]
    omega
  · refine free_of_key (by show 8 ≤ 32; decide) (by decide) ?_
    simp only [Fld.key, regKey, ACC_CCODE, TNC_UNBILLED]
    omega

theorem outside_word {f : Fld} (hf : f.besideStatus) : f.outside mtePages = true := by
  obtain ⟨lo, width, off, aligned, place⟩ := hf
  have below : ∀ p ∈ mtePages, p < 0x40 := by decide
  have other : mtePages.contains f.page = false := by
    rw [List.contains_eq_mem, decide_eq_false_iff_not]
    exact fun listed => absurd (below _ listed) (by omega)
  simp only [Fld.outside, other, Bool.not_false, Bool.and_eq_true, decide_eq_true_eq, true_and]
  omega

theorem unbilled_word {f : Fld} (hf : f.besideStatus) : TNC_UNBILLED.free f = true := by
  obtain ⟨lo, width, off, aligned, place⟩ := hf
  refine free_of_key (by decide) (by omega) ?_
  simp only [Fld.key, regKey, TNC_UNBILLED]
  omega

/-- A cycle that is not billed is taken up without a change of what the status of a close does not touch. -/
theorem rd_addCycle_unsealed {g : Fld} (hg : g.unclosed) (s : State) {e : CycleEnd} (h : e.opening.sealed = false)
    (recs : List (Nat × ChanRec)) (ups : List AccUpset) : (s.addCycle e recs ups).rd g = s.rd g := by
  have folded (l : List (Nat × ChanRec)) (hl : ∀ r ∈ l, r.1 < 64) (u : State) :
      (l.foldl (fun u r => u.closeStatus e.cyc r.1 .skipped) u).rd g = u.rd g := by
    induction l generalizing u with
    | nil => rfl
    | cons r l ih =>
      exact (ih (fun x hx => hl x (List.mem_cons_of_mem _ hx)) _).trans
        (rd_closeStatus hg u e.cyc (hl r List.mem_cons_self) .skipped)
  unfold State.addCycle
  dsimp only
  rw [if_pos h, folded _ fun r hr => of_decide_eq_true (List.mem_filter.mp hr).2]
  exact rd_mk _ g

/-- The same of the whole close, for fields outside the pages of metrology. -/
theorem rd_closed_unsealed {g : Fld} (hg : g.unclosed) (hp : g.outside mtePages = true) (s : State) {e : CycleEnd}
    (h : e.opening.sealed = false) (ups : List AccUpset) (hu : TNC_UNBILLED.free g = true) :
    (s.closed e ups).rd g = s.rd g := by
  have due : State.rd { s with mte := { s.mte with due := none } } g = s.rd g := rd_mk _ g
  unfold State.closed
  simp only [apply_ite (State.rd · g), rd_count_free hu, rd_addCycle_unsealed hg _ h,
    rd_of_past (mteClose_past _ e) hp, rd_of_past (unmeasured_past _ e) hp, due, ite_self]

theorem unbilled_closed (s : State) {e : CycleEnd} (h : e.opening.sealed = false) (ups : List AccUpset) :
    (s.closed e ups).rd TNC_UNBILLED =
      if s.tnc.everSealed then satNat (TNC_UNBILLED).width (s.rd TNC_UNBILLED + 1) else s.rd TNC_UNBILLED := by
  let v : State := { s with mte := { s.mte with due := none } }
  let u : State := if e.measured then (v.mteClose e).2.addCycle e (v.mteClose e).1 ups else v.unmeasured e
  have out : TNC_UNBILLED.outside mtePages = true := by decide
  have kept : u.rd TNC_UNBILLED = s.rd TNC_UNBILLED := by
    simp only [u, apply_ite (State.rd · TNC_UNBILLED), rd_addCycle_unsealed unclosed_unbilled _ h,
      rd_of_past (mteClose_past _ e) out, rd_of_past (unmeasured_past _ e) out, ite_self]
    exact rd_mk _ TNC_UNBILLED
  have sealed : u.tnc = s.tnc := by
    have whole : State.tnc (if u.tnc.everSealed && !e.opening.sealed then u.count TNC_UNBILLED else u) = s.tnc :=
      closed_tnc s e ups
    rwa [apply_ite State.tnc, part_of_except (State.count_same 1 rfl u TNC_UNBILLED 1) .tnc rfl, ite_self] at whole
  change State.rd (if u.tnc.everSealed && !e.opening.sealed then u.count TNC_UNBILLED else u) TNC_UNBILLED = _
  rw [h, sealed, Bool.not_false, Bool.and_true, apply_ite (State.rd · TNC_UNBILLED), rd_count_same _ _ _ (by decide),
    kept]

/-! ### A cycle that is billed -/

/-- A field of the accumulator pages beside the cycle numbers of the channels. -/
def Fld.besideCycle (f : Fld) : Prop := f.width ≤ 32 ∧ f.off < 4096 ∧ f.off % 4 = 0 ∧
    (f.page < 0x48 → f.off % 128 ≠ 0x48)

theorem free_cycle {f : Fld} (hf : f.besideCycle) {ch : Nat} (hch : ch < 64) :
    f.free (ACC_CYC (ch / 8) (ch % 8)) = true := by
  obtain ⟨width, off, aligned, place⟩ := hf
  refine free_of_key width (by show 32 ≤ 32; decide) ?_
  simp only [Fld.key, regKey, ACC_CYC]
  omega

theorem tariffOf_lt (o : CycleOpen) (m : Nat) : tariffOf o m < 4 := by
  unfold tariffOf
  dsimp only
  split <;> exact bits_lt _ _ 2

section
variable {ch : Nat} (hch : ch < 64)
include hch

theorem cycle_wr (s : State) {f : Fld} (hf : f.besideCycle) (v : Nat) :
    (s.wr f v).rd (ACC_CYC (ch / 8) (ch % 8)) = s.rd (ACC_CYC (ch / 8) (ch % 8)) := rd_wr_free (free_cycle hf hch) s v

theorem cycle_raise (s : State) {p : Nat} (hp : 0x48 ≤ p) (b : Nat) :
    (s.raise p b).rd (ACC_CYC (ch / 8) (ch % 8)) = s.rd (ACC_CYC (ch / 8) (ch % 8)) :=
  cycle_wr hch s ⟨by show 32 ≤ 32; decide, by show 0x10 < 4096; decide, by show 0x10 % 4 = 0; decide,
    fun h => absurd h (Nat.not_lt.mpr hp)⟩ _

theorem cycle_setAccWord (s : State) {vm : Bool} {i w : Nat} (hi : i < 64 ∨ vm = true ∧ i < 256) (hw : w < 10)
    (v : Nat) :
    (s.setAccWord vm i w v).rd (ACC_CYC (ch / 8) (ch % 8)) = s.rd (ACC_CYC (ch / 8) (ch % 8)) := by
  have beside {f : Fld} (hf : f.besideStatus) : f.besideCycle := by
    obtain ⟨lo, width, off, aligned, place⟩ := hf
    exact ⟨by omega, off, aligned, by omega⟩
  obtain ⟨low, high⟩ := accFlds_beside hi hw
  rw [State.setAccWord, State.wr64, cycle_wr hch _ (beside high), cycle_wr hch _ (beside low)]

theorem cycle_accGain (s : State) {vm : Bool} {i w : Nat} (hi : i < 64 ∨ vm = true ∧ i < 256) (hw : w < 10) (n : Nat) :
    (s.accGain vm i w n).rd (ACC_CYC (ch / 8) (ch % 8)) = s.rd (ACC_CYC (ch / 8) (ch % 8)) := by
  have sum : sumWords vm < 10 := by cases vm <;> decide
  rw [State.accGain, cycle_setAccWord hch _ hi sum, cycle_setAccWord hch _ hi hw]

theorem cycle_accAdd (s : State) {i q : Nat} (hi : i < 64) (hq : q < 8) (n : Nat) :
    (s.accAdd i q n).rd (ACC_CYC (ch / 8) (ch % 8)) = s.rd (ACC_CYC (ch / 8) (ch % 8)) := by
  rw [rd_of_regs (accAdd_regs s i q n), cycle_accGain hch _ (.inl hi) (by omega), cycle_wr hch]
  rw [resFld_eq]
  simp only [Fld.besideCycle, blockPage]
  omega

theorem cycle_accumulate (s : State) (e : CycleEnd) {i : Nat} (hi : i < 64) (r : ChanRec) :
    (s.accumulate e i r).rd (ACC_CYC (ch / 8) (ch % 8)) = s.rd (ACC_CYC (ch / 8) (ch % 8)) := by
  have feeds : ∀ x ∈ quadrantFeeds r, x.1 < 8 := by
    unfold quadrantFeeds
    split <;> simp
  have added (l : List (Nat × Nat)) (hl : ∀ x ∈ l, x.1 < 8) (u : State) :
      (l.foldl (fun u x => u.accAdd i x.1 x.2) u).rd (ACC_CYC (ch / 8) (ch % 8)) = u.rd
        (ACC_CYC (ch / 8) (ch % 8)) := by
    induction l generalizing u with
    | nil => rfl
    | cons x l ih =>
      exact (ih (fun y hy => hl y (List.mem_cons_of_mem _ hy)) _).trans
        (cycle_accAdd hch u hi (hl x List.mem_cons_self) x.2)
  have flag : (ACC_F_UF (i / 8) (i % 8)).besideCycle := by
    simp only [Fld.besideCycle, ACC_F_UF]
    omega
  have low : (ACC_UFA_LO (i / 8) (i % 8)).besideCycle := by
    simp only [Fld.besideCycle, ACC_UFA_LO]
    omega
  have high : (ACC_UFA_HI (i / 8) (i % 8)).besideCycle := by
    simp only [Fld.besideCycle, ACC_UFA_HI]
    omega
  have count : (ACC_UFC (i / 8) (i % 8)).besideCycle := by
    simp only [Fld.besideCycle, ACC_UFC]
    omega
  have known (u : State) : State.rd (if u.on (ACC_F_UF (i / 8) (i % 8)) then u else u.raise 0x048 3)
      (ACC_CYC (ch / 8) (ch % 8)) = u.rd (ACC_CYC (ch / 8) (ch % 8)) := by
    split
    · rfl
    · exact cycle_raise hch u (Nat.le_refl 0x48) 3
  unfold State.accumulate
  dsimp only
  split
  · rw [cycle_wr hch _ flag, State.count, cycle_wr hch _ count, known, State.wr64, cycle_wr hch _ high,
      cycle_wr hch _ low, added _ feeds]
  · rw [cycle_wr hch _ flag, added _ feeds]

/-- The read-back of a block without flipped bits. -/
theorem cycle_readBack (s : State) {vm : Bool} {i : Nat} (hi : i < 64 ∨ vm = true ∧ i < 256) :
    (s.readBack vm i []).rd (ACC_CYC (ch / 8) (ch % 8)) = s.rd (ACC_CYC (ch / 8) (ch % 8)) := by
  have sum : sumWords vm < 10 := by cases vm <;> decide
  have count (u : State) : (u.count (ACC_REBN (i / 8) (i % 8))).rd (ACC_CYC (ch / 8) (ch % 8)) =
      u.rd (ACC_CYC (ch / 8) (ch % 8)) := by
    refine cycle_wr hch u ?_ _
    simp only [Fld.besideCycle, ACC_REBN]
    omega
  unfold State.readBack State.rebuilt
  simp only [List.filter_nil, List.foldl_nil, ite_self, apply_ite (State.rd · (ACC_CYC (ch / 8) (ch % 8))), rd_log,
    cycle_raise hch _ (Nat.le_refl 0x48), count, cycle_setAccWord hch _ hi sum]

theorem cycle_vmAdd (s : State) {m w : Nat} (hm : m < 256) (hw : w < 10) (k e : Nat) :
    (s.vmAdd m w k e).2.rd (ACC_CYC (ch / 8) (ch % 8)) = s.rd (ACC_CYC (ch / 8) (ch % 8)) := by
  have regs : (s.vmAdd m w k e).2.regs =
      (s.accGain true m w ((cellAt 0 (4 * m + k) s.acc.vres + e) / 65536)).regs := rfl
  rw [rd_of_regs regs, cycle_accGain hch s (.inr ⟨rfl, hm⟩) hw]

theorem cycle_meterClose (s : State) (e : CycleEnd) (recs : List (Nat × ChanRec)) {m : Nat} (hm : m < 256)
    (terms : List Nat) :
    (s.meterClose e recs m terms).rd (ACC_CYC (ch / 8) (ch % 8)) = s.rd (ACC_CYC (ch / 8) (ch % 8)) := by
  have meter {f : Fld} (u : State) (v : Nat) (hp : f.page = 0x140 + m / 4) (hw : f.width ≤ 32) (ho : f.off < 4096)
      (h4 : f.off % 4 = 0) : (u.wr f v).rd (ACC_CYC (ch / 8) (ch % 8)) = u.rd (ACC_CYC (ch / 8) (ch % 8)) :=
    cycle_wr hch u ⟨hw, ho, h4, by omega⟩ v
  have cyc (u : State) (v : Nat) := meter (f := ACC_VCYC (m / 4) (m % 4)) u v rfl (by show 32 ≤ 32; decide)
    (by simp only [ACC_VCYC]; omega) (by simp only [ACC_VCYC]; omega)
  have cur (u : State) (v : Nat) := meter (f := ACC_VTRF_CUR (m / 4) (m % 4)) u v rfl (by show 2 ≤ 32; decide)
    (by simp only [ACC_VTRF_CUR]; omega) (by simp only [ACC_VTRF_CUR]; omega)
  have code (u : State) (v : Nat) := meter (f := ACC_VCODE (m / 4) (m % 4)) u v rfl (by show 8 ≤ 32; decide)
    (by simp only [ACC_VCODE]; omega) (by simp only [ACC_VCODE]; omega)
  have sign (c : Prop) [Decidable c] (a b : Nat) (ha : a < 10) (hb : b < 10) : (if c then a else b) < 10 := by
    split <;> assumption
  have tariff : 5 + tariffOf e.opening m < 10 := by
    have := tariffOf_lt e.opening m
    omega
  unfold State.meterClose
  dsimp only
  split
  · rw [code, cur, cyc]
  · rw [code, cycle_vmAdd hch _ hm (by decide), cycle_vmAdd hch _ hm (sign _ 2 3 (by decide) (by decide)),
      apply_ite (State.rd · (ACC_CYC (ch / 8) (ch % 8))), cycle_accGain hch _ (.inr ⟨rfl, hm⟩) tariff, ite_self,
      cycle_vmAdd hch _ hm (sign _ 0 1 (by decide) (by decide)), cur, cyc]

theorem cycle_closeStatus_other (s : State) (cyc : Nat) {i : Nat} (hi : i < 64) (hne : i ≠ ch) (c : Status) :
    (s.closeStatus cyc i c).rd (ACC_CYC (ch / 8) (ch % 8)) = s.rd (ACC_CYC (ch / 8) (ch % 8)) := by
  unfold State.closeStatus
  dsimp only
  rw [rd_wr_free (free_of_key (by show 8 ≤ 32; decide) (by show 32 ≤ 32; decide) ?_),
    rd_wr_free (free_of_key (by show 32 ≤ 32; decide) (by show 32 ≤ 32; decide) ?_)]
  · simp only [Fld.key, regKey, ACC_CYC]
    omega
  · simp only [Fld.key, regKey, ACC_CYC, ACC_CCODE]
    omega

end

theorem cycle_closeStatus_same (s : State) (cyc ch : Nat) (c : Status) :
    (s.closeStatus cyc ch c).rd (ACC_CYC (ch / 8) (ch % 8)) = cyc % 2 ^ 32 := by
  have apart : (ACC_CCODE (ch / 8) (ch % 8)).free (ACC_CYC (ch / 8) (ch % 8)) = true :=
    free_of_off rfl (by show 8 ≤ 32; decide) (by show 32 ≤ 32; decide) (.inr (by simp only [ACC_CYC, ACC_CCODE]; omega))
  unfold State.closeStatus
  dsimp only
  rw [rd_wr_free apart]
  exact rd_wr_lt rfl (Nat.mod_lt _ (by show 0 < 2 ^ 32; decide)) _

/-- The close of one channel in a cycle that is billed. -/
def State.billChannel (s : State) (e : CycleEnd) (r : Nat × ChanRec) : State :=
  ((s.accumulate e r.1 r.2).readBack false r.1 (upsetsOf [] false r.1)).closeStatus e.cyc r.1 r.2.code

/-- The close of one meter in a cycle that is billed. -/
def State.billMeter (s : State) (e : CycleEnd) (recs : List (Nat × ChanRec)) (m : Nat) : State :=
  if m ∈ s.acc.cleared then s
  else (s.meterClose e recs m (((termsIn e.opening.force).filter fun t => t.1 == m).map fun t => t.2.2)).readBack true m
    (upsetsOf [] true m)

theorem cycle_billChannel (s : State) (e : CycleEnd) {r : Nat × ChanRec} (hr : r.1 < 64) {ch : Nat} (hch : ch < 64)
    (h : r.1 = ch ∨ s.rd (ACC_CYC (ch / 8) (ch % 8)) = e.cyc % 2 ^ 32) :
    (s.billChannel e r).rd (ACC_CYC (ch / 8) (ch % 8)) = e.cyc % 2 ^ 32 := by
  unfold State.billChannel
  by_cases same : r.1 = ch
  · rw [same]
    exact cycle_closeStatus_same _ _ _ _
  · rw [cycle_closeStatus_other hch _ _ hr same]
    exact (cycle_readBack hch _ (.inl hr)).trans ((cycle_accumulate hch s e hr r.2).trans (h.resolve_left same))

theorem cycle_billChannels (e : CycleEnd) {ch : Nat} (hch : ch < 64) (l : List (Nat × ChanRec))
    (hl : ∀ r ∈ l, r.1 < 64) (s : State)
    (h : ch ∈ l.map (·.1) ∨ s.rd (ACC_CYC (ch / 8) (ch % 8)) = e.cyc % 2 ^ 32) :
    (l.foldl (fun s r => s.billChannel e r) s).rd (ACC_CYC (ch / 8) (ch % 8)) = e.cyc % 2 ^ 32 := by
  induction l generalizing s with
  | nil => exact h.resolve_left (by simp)
  | cons r l ih =>
    refine ih (fun x hx => hl x (List.mem_cons_of_mem _ hx)) _ ?_
    have head : r.1 < 64 := hl r List.mem_cons_self
    rw [List.map_cons, List.mem_cons] at h
    obtain (rfl | listed) | done := h
    · exact .inr (cycle_billChannel s e head hch (.inl rfl))
    · exact .inl listed
    · exact .inr (cycle_billChannel s e head hch (.inr done))

theorem cycle_billMeters (e : CycleEnd) (recs : List (Nat × ChanRec)) {ch : Nat} (hch : ch < 64) (s : State) :
    ((List.range 256).foldl (fun s m => s.billMeter e recs m) s).rd (ACC_CYC (ch / 8) (ch % 8)) =
      s.rd (ACC_CYC (ch / 8) (ch % 8)) := by
  have meters : ∀ m ∈ List.range 256, m < 256 := fun m hm => List.mem_range.mp hm
  revert meters
  generalize List.range 256 = l
  intro meters
  induction l generalizing s with
  | nil => rfl
  | cons m l ih =>
    refine (ih _ fun x hx => meters x (List.mem_cons_of_mem _ hx)).trans ?_
    have hm : m < 256 := meters m List.mem_cons_self
    dsimp only
    unfold State.billMeter
    split
    · rfl
    · exact (cycle_readBack hch _ (.inr ⟨rfl, hm⟩)).trans (cycle_meterClose hch s e recs hm _)

/-- A billed cycle: every channel, every meter, and the number of the cycle. -/
theorem addCycle_billed (s : State) {e : CycleEnd} (recs : List (Nat × ChanRec)) (h : e.opening.sealed = true)
    (hf : s.acc.frozen = false) : ∃ u : State, s.addCycle e recs [] = ((List.range 256).foldl
      (fun s m => s.billMeter e recs m) ((recs.filter fun r => r.1 < 64).foldl (fun s r => s.billChannel e r) u)).wr
        ACC_LAST (e.cyc % 2 ^ 32) := by
  unfold State.addCycle
  dsimp only
  rw [h, hf, if_neg Bool.false_ne_true.symm, if_neg Bool.false_ne_true]
  exact ⟨_, rfl⟩

theorem closed_billed (s : State) {e : CycleEnd} (h : e.opening.sealed = true) (hm : e.measured = true)
    (hf : s.acc.frozen = false) : (s.closed e []).rd ACC_LAST = e.cyc % 2 ^ 32 ∧
      ∀ ch < 64, (s.closed e []).rd (ACC_CYC (ch / 8) (ch % 8)) = e.cyc % 2 ^ 32 := by
  let v : State := { s with mte := { s.mte with due := none } }
  have frozen : (v.mteClose e).2.acc.frozen = false :=
    (congrArg AccState.frozen (part_of_except (State.mteClose_same 34359771393 rfl v e) .acc rfl)).trans hf
  obtain ⟨u, added⟩ := addCycle_billed _ (v.mteClose e).1 h frozen
  have whole : s.closed e [] = (v.mteClose e).2.addCycle e (v.mteClose e).1 [] := by
    unfold State.closed
    simp only [hm, if_true, h, Bool.not_true, Bool.and_false, Bool.false_eq_true, if_false]
    rfl
  rw [whole, added]
  refine ⟨rd_wr_lt (f := ACC_LAST) (by decide) (Nat.mod_lt _ (by decide)) _, fun ch hch => ?_⟩
  have last : ACC_LAST.besideCycle := ⟨by decide, by decide, by decide, by decide⟩
  rw [cycle_wr hch _ last, cycle_billMeters e _ hch]
  refine cycle_billChannels e hch _ (fun r hr => of_decide_eq_true (List.mem_filter.mp hr).2) u (.inl ?_)
  have listed : ch ∈ (v.mteClose e).1.map (·.1) := by
    rw [mteClose_eq, results_channels]
    exact List.mem_range.mpr (by omega)
  obtain ⟨r, hr, rfl⟩ := List.mem_map.mp listed
  exact List.mem_map_of_mem (List.mem_filter.mpr ⟨hr, decide_eq_true hch⟩)

/-- Settles O21. -/
theorem metrologyCloseComplete : Obligations.MetrologyCloseComplete := by
  unfold Obligations.MetrologyCloseComplete
  refine ⟨fun s h => ?_, fun s e ups he => ?_, fun s e ups he hs => ?_, fun s e he hs hm hf => ?_⟩
  · refine ⟨_, rfl, ?_⟩
    simp only [h]
  · exact answers_close he fun acc hc hl => ⟨closed_due s e ups, hc, hl⟩
  · refine answers_close he fun acc _ _ => ?_
    have kept {vm : Bool} {i w : Nat} (hi : i < 64 ∨ vm = true ∧ i < 256) (hw : w < 10) :
        (s.closed e ups).accWord vm i w = s.accWord vm i w := by
      obtain ⟨low, high⟩ := accFlds_beside hi hw
      have word {f : Fld} (hf : f.besideStatus) : (s.closed e ups).rd f = s.rd f := by
        exact rd_closed_unsealed (unclosed_word hf) (outside_word hf) s hs ups (unbilled_word hf)
      rw [State.accWord, State.accWord, State.rd64, State.rd64, word low, word high]
    have regs : State.regs { s.closed e ups with acc := acc } = (s.closed e ups).regs := rfl
    refine ⟨fun i w hi hw => ?_, fun i w hi hw => ?_, ?_⟩
    · exact (accWord_of_regs regs _ _ _).trans (kept (.inl hi) hw)
    · exact (accWord_of_regs regs _ _ _).trans (kept (.inr ⟨rfl, hi⟩) hw)
    · exact (rd_mk _ _).trans (unbilled_closed s hs ups)
  · refine answers_close he fun acc _ _ => ?_
    obtain ⟨last, cycles⟩ := closed_billed s hs hm hf
    exact ⟨last, fun ch => cycles ch.val ch.isLt⟩

/-! ### The registers of a pulse output -/

/-- A field that shares no bit with the spill register of any output. -/
def Fld.besideSpill (f : Fld) : Bool := (List.range 16).all fun k =>
  f.free (PLS_SPILL_LO k) && f.free (PLS_SPILL_HI k)

theorem besideSpill_output : ∀ k : Fin 16, ∀ f ∈ [PLS_PEND k.val, PLS_WEFF k.val, PLS_OVR k.val, PLS_OVRN k.val,
    PLS_ACT k.val, PLS_CUTN k.val, PLS_PCOUNT k.val, IRQ_RAW (0x060 + k.val), ACC_PLSOVR], f.besideSpill = true := by
  decide

theorem spill_wr {f : Fld} (hf : f.besideSpill = true) {k : Nat} (hk : k < 16) (s : State) (v : Nat) :
    (s.wr f v).spill k = s.spill k := by
  have free := List.all_eq_true.mp hf k (List.mem_range.mpr hk)
  rw [Bool.and_eq_true] at free
  rw [State.spill, State.rd64, rd_wr_free free.1, rd_wr_free free.2, State.spill, State.rd64]

theorem spill_lt (s : State) (k : Nat) : s.spill k < 2 ^ 64 := by
  have low := rd_lt s (f := PLS_SPILL_LO k) rfl
  have high := rd_lt s (f := PLS_SPILL_HI k) rfl
  rw [State.spill, State.rd64]
  simp only [PLS_SPILL_LO, PLS_SPILL_HI] at *
  omega

theorem spill_of_regs {s t : State} (h : t.regs = s.regs) (k : Nat) : t.spill k = s.spill k := by
  rw [State.spill, State.spill, State.rd64, State.rd64, rd_of_regs h, rd_of_regs h]

theorem spillWords_free : ∀ j k : Fin 16, (PLS_SPILL_LO j.val).free (PLS_SPILL_HI k.val) = true ∧
    (PLS_SPILL_HI j.val).free (PLS_SPILL_LO k.val) = true ∧ (j ≠ k →
      (PLS_SPILL_LO j.val).free (PLS_SPILL_LO k.val) = true ∧ (PLS_SPILL_HI j.val).free (PLS_SPILL_HI k.val) =
        true) := by
  decide

theorem spill_setSpill_same (s : State) (k : Fin 16) (v : Nat) : (s.setSpill k.val v).spill k.val = v % 2 ^ 64 := by
  obtain ⟨-, high, -⟩ := spillWords_free k k
  obtain ⟨low, -, -⟩ := spillWords_free k k
  unfold State.setSpill
  dsimp only
  rw [spill_wr (besideSpill_output k _ (by simp)) k.isLt, State.spill, State.rd64, State.wr64, rd_wr_free high,
    rd_wr_same _ _ _ rfl, rd_wr_same _ _ _ rfl]
  simp only [PLS_SPILL_LO, PLS_SPILL_HI]
  omega

theorem spill_setSpill_other (s : State) {j k : Fin 16} (h : j ≠ k) (v : Nat) :
    (s.setSpill j.val v).spill k.val = s.spill k.val := by
  obtain ⟨lh, hl, others⟩ := spillWords_free j k
  obtain ⟨ll, hh⟩ := others h
  unfold State.setSpill
  dsimp only
  rw [spill_wr (besideSpill_output j _ (by simp)) k.isLt, State.spill, State.rd64, rd_wr64_free ll hl, rd_wr64_free lh
    hh,
    State.spill, State.rd64]

theorem setSpill_frame (s : State) (k v : Nat) : State.except 1 (s.setSpill k v) = State.except 1 s :=
  State.setSpill_same 1 rfl s k v

/-! ### The increment of the last close -/

theorem spill_overrun (s : State) (j k : Fin 16) (short : Bool) :
    (s.overrun j.val short).spill k.val = s.spill k.val := by
  have beside {f : Fld} (hf : f ∈ [PLS_PEND j.val, PLS_WEFF j.val, PLS_OVR j.val, PLS_OVRN j.val, PLS_ACT j.val,
      PLS_CUTN j.val, PLS_PCOUNT j.val, IRQ_RAW (0x060 + j.val), ACC_PLSOVR]) (u : State) (v : Nat) :
      (u.wr f v).spill k.val = u.spill k.val := spill_wr (besideSpill_output j f hf) k.isLt u v
  have shown (u : State) (b : Bool) : (u.setOverrun j.val b).spill k.val = u.spill k.val := by
    unfold State.setOverrun
    dsimp only
    rw [beside (by simp), beside (by simp)]
  have logged (u : State) (c t d : Nat) : (u.log c t d).spill k.val = u.spill k.val := spill_of_regs rfl _
  have counted (u : State) : (u.count (PLS_OVRN j.val)).spill k.val = u.spill k.val := beside (by simp) u _
  have raised (u : State) : (u.raise (0x060 + j.val) 1).spill k.val = u.spill k.val := beside (by simp) u _
  have upd (u : State) (a : AccState) : State.spill { u with acc := a } k.val = u.spill k.val := spill_of_regs rfl _
  unfold State.overrun
  simp only [apply_ite (State.spill · k.val), upd, counted, logged, raised, shown, ite_self]

theorem spill_spillClose (s : State) (len : Nat) (j k : Fin 16) : (s.spillClose len j.val).spill k.val =
    if j = k then (s.spill k.val + s.spillGain k.val) % 2 ^ 64 else s.spill k.val := by
  unfold State.spillClose
  dsimp only
  rw [spill_overrun, spill_wr (besideSpill_output j _ (by simp)) k.isLt]
  split
  case isTrue h =>
    rw [h]
    exact spill_setSpill_same _ k _
  case isFalse h => exact spill_setSpill_other _ h _

/-- What the outputs take from the last close. -/
def State.gainSource (s : State) : Option Nat × List Nat × List (Nat × Nat) × List (Nat × Nat) :=
  (s.acc.spillDue, s.acc.srcOpen, s.acc.incCh, s.acc.incVm)

theorem gainSource_of_acc {s t : State} (h : t.acc = s.acc) : t.gainSource = s.gainSource := by
  rw [State.gainSource, State.gainSource, h]

theorem gainSource_spillClose (s : State) (len k : Nat) : (s.spillClose len k).gainSource = s.gainSource := by
  have shown (u : State) (b : Bool) : (u.setOverrun k b).gainSource = u.gainSource :=
    gainSource_of_acc (part_of_except (State.setOverrun_same 1 rfl u k b) .acc rfl)
  have written (u : State) (f : Fld) (v : Nat) : (u.wr f v).gainSource = u.gainSource :=
    gainSource_of_acc (part_of_except (State.wr_same 1 rfl u f v) .acc rfl)
  have logged (u : State) (c t d : Nat) : (u.log c t d).gainSource = u.gainSource := rfl
  have runs (u v : State) (l : List (Nat × Nat)) :
      State.gainSource { u with acc := { v.acc with ovrRun := l } } = v.gainSource := rfl
  have spilled (u : State) (v : Nat) : (u.setSpill k v).gainSource = u.gainSource :=
    gainSource_of_acc (part_of_except (setSpill_frame u k v) .acc rfl)
  have overrun (u : State) (b : Bool) : (u.overrun k b).gainSource = u.gainSource := by
    unfold State.overrun
    dsimp only
    split
    · refine (runs _ _ _).trans ?_
      split
      · rfl
      · exact (logged _ _ _ _).trans ((written _ _ _).trans (shown u true))
    split
    · rfl
    split
    · exact (logged _ _ _ _).trans ((shown _ false).trans (runs u u _))
    · exact runs _ u _
  unfold State.spillClose
  rw [overrun, written, spilled]

/-- The gain of an output follows from the configuration in force and the last close, which no output changes. -/
theorem spillGain_spillClose (s : State) (len j k : Nat) : (s.spillClose len j).spillGain k = s.spillGain k := by
  have cfg (f : Fld) : (s.spillClose len j).cfg f = s.cfg f := by
    have force : (s.spillClose len j).inForce = s.inForce :=
      part_of_except (State.spillClose_same 65793 rfl s len j) .inForce rfl
    rw [State.cfg, State.cfg, State.regIn, State.regIn, force]
  have last := gainSource_spillClose s len j
  simp only [State.gainSource, Prod.mk.injEq] at last
  obtain ⟨-, opened, channels, meters⟩ := last
  simp only [State.spillGain, State.plsConst, cfg, opened, channels, meters]
  rfl

theorem spill_closes (s : State) (len : Nat) (k : Fin 16) (l : List Nat) (hl : ∀ j ∈ l, j < 16) (hn : l.Nodup) :
    (l.foldl (fun s j => s.spillClose len j) s).spill k.val =
      if k.val ∈ l then (s.spill k.val + s.spillGain k.val) % 2 ^ 64 else s.spill k.val := by
  induction l generalizing s with
  | nil => rfl
  | cons j l ih =>
    have hj : j < 16 := hl j List.mem_cons_self
    obtain ⟨fresh, hn⟩ := List.nodup_cons.mp hn
    rw [List.foldl_cons, ih _ (fun x hx => hl x (List.mem_cons_of_mem _ hx)) hn, spillGain_spillClose,
      spill_spillClose s len ⟨j, hj⟩ k]
    by_cases same : j = k.val
    · have found : (⟨j, hj⟩ : Fin 16) = k := Fin.ext same
      subst same
      rw [if_pos found, if_neg fresh, if_pos List.mem_cons_self]
    · have other : (⟨j, hj⟩ : Fin 16) ≠ k := fun h => same (congrArg Fin.val h)
      rw [if_neg other]
      simp only [List.mem_cons, Ne.symm same, false_or]

/-- The pulse of an output is cut. -/
def State.cutPulse (s : State) (j : Nat) : State :=
  let s := (s.wr (PLS_ACT j) 0).count (PLS_CUTN j)
  { s with acc := { s.acc with edges := s.acc.edges.erase j } }

theorem cutPulse_regs (s : State) (j : Nat) : (s.cutPulse j).regs = ((s.wr (PLS_ACT j) 0).count
    (PLS_CUTN j)).regs := rfl

theorem spill_cutPulse (s : State) {j : Nat} (hj : j < 16) (k : Fin 16) :
    (s.cutPulse j).spill k.val = s.spill k.val := by
  rw [spill_of_regs (cutPulse_regs s j), State.count,
    spill_wr (f := PLS_CUTN j) (besideSpill_output ⟨j, hj⟩ _ (by simp)) k.isLt,
    spill_wr (f := PLS_ACT j) (besideSpill_output ⟨j, hj⟩ _ (by simp)) k.isLt]

theorem spill_cutPulses (s : State) (k : Fin 16) : s.cutPulses.spill k.val = s.spill k.val := by
  have step (u : State) (j : Nat) (hj : j < 16) :
      State.spill (if u.on (PLS_ACT j) then u.cutPulse j else u) k.val = u.spill k.val := by
    split
    · exact spill_cutPulse u hj k
    · rfl
  have outputs : ∀ j ∈ List.range 16, j < 16 := fun j hj => List.mem_range.mp hj
  unfold State.cutPulses
  split
  case isTrue => rfl
  case' isFalse h => clear h
  revert outputs
  generalize List.range 16 = l
  intro outputs
  induction l generalizing s with
  | nil => rfl
  | cons j l ih =>
    exact (ih _ (fun x hx => outputs x (List.mem_cons_of_mem _ hx))).trans (step s j (outputs j List.mem_cons_self))

theorem due_cutPulses (s : State) : s.cutPulses.acc.spillDue = s.acc.spillDue := by
  unfold State.cutPulses
  split
  · rfl
  · refine foldl_keeps (g := fun u => u.acc.spillDue) (fun u j => ?_) _ s
    split
    · simp only [count_frame, wr_frame]
    · rfl

theorem spillIncrement_adds {s : State} {len : Nat} (h : s.acc.spillDue = some len) :
    Answers .spillIncrement s fun t => t.acc.spillDue = none ∧
      ∀ k : Fin 16, t.spill k.val = (s.spill k.val + s.spillGain k.val) % 2 ^ 64 := by
  refine ⟨_, rfl, ?_⟩
  simp only [h]
  refine ⟨?_, fun k => ?_⟩
  · have kept (l : List Nat) (u : State) : (l.foldl (fun s k => s.spillClose len k) u).gainSource = u.gainSource :=
      foldl_keeps (fun u k => gainSource_spillClose u len k) l u
    rw [due_cutPulses]
    exact congrArg Prod.fst (kept _ _)
  · rw [spill_cutPulses, spill_closes _ _ k _ (fun j hj => List.mem_range.mp hj) List.nodup_range,
      if_pos (List.mem_range.mpr k.isLt)]
    rfl

/-! ### Pulses -/

theorem bits_setBit {n k lo w : Nat} (h : k < lo ∨ lo + w ≤ k) : bits (setBit n k) lo w = bits n lo w := by
  refine Nat.eq_of_testBit_eq fun i => ?_
  rw [testBit_bits, testBit_bits, testBit_setBit]
  by_cases hi : i < w
  · have other : lo + i ≠ k := by omega
    simp only [other, decide_false, Bool.or_false]
  · simp only [hi, decide_false, Bool.false_and]

theorem plainWord_meterClear (m : Fin 256) : plainWord (0x140 + m.val / 4) (0x198 + m.val % 4 * 256) = true :=
  (plainWord_meterPages ⟨m.val / 4, by omega⟩ ⟨m.val % 4, by omega⟩).2

/-- A clear of a meter with a legal source of its tariff. -/
theorem accWrite_clear (s : State) (port : Port) (tc : Nat) (m : Fin 256) (d : Nat) (hb : bit d 8 = true)
    (hs : bits d 0 3 ≤ 4) : accWrite s ⟨port, tc, 0x140 + m.val / 4, 0x198 + m.val % 4 * 256, none⟩ d =
      (.ok, ((s.storeWord (0x140 + m.val / 4) (0x198 + m.val % 4 * 256) d).wr (ACC_VCLR (m.val / 4) (m.val % 4)) 1).wr
        (ACC_V_CCODE (m.val / 4)) (codeOf .ok)) := by
  have meter : 4 * (0x140 + m.val / 4 - 0x140) + (0x198 + m.val % 4 * 256 - 0x100) / 256 = m.val := by omega
  have word : (0x198 + m.val % 4 * 256) % 256 = 0x98 := by omega
  unfold accWrite
  dsimp only
  rw [if_neg (by omega), meter, word, if_pos (by decide), if_neg (by decide), if_pos rfl, if_neg (by omega), if_pos hb]

theorem clear_pending {s : State} {m : Fin 256} {w : RegWrite}
    (hw : s.admitsWrite (0x140 + m.val / 4) (0x198 + m.val % 4 * 256) w (setBit w.data.toNat 8) = true)
    (hs : bits w.data.toNat 0 3 ≤ 4) : Answers (.accVclr m w) s fun t =>
      t.resp.code = .ok ∧ t.on (ACC_VCLR (m.val / 4) (m.val % 4)) = true ∧
      t.rd (ACC_V_CCODE (m.val / 4)) = codeOf .ok ∧ t.events = s.events := by
  have data := BitVec.toNat_ofNat (setBit w.data.toNat 8) 32
  have source : bits (BitVec.ofNat 32 (setBit w.data.toNat 8)).toNat 0 3 ≤ 4 := by
    rw [data, bits_mod_word _ _ _ (by decide), bits_setBit (.inr (by decide))]
    exact hs
  have cleared : bit (BitVec.ofNat 32 (setBit w.data.toNat 8)).toNat 8 = true := by
    rw [bit_ofNat (by decide), bit_setBit_same]
  refine answers_write rfl (plainWord_meterClear m) hw (accWrite_clear _ _ _ m _ cleared source) ⟨rfl, ?_, ?_, ?_⟩
  · rw [on_answer, on_wr_free]
    · exact on_wr_b2n (f := ACC_VCLR (m.val / 4) (m.val % 4)) rfl (by show 0 < 1; decide) _ true
    · exact free_of_off rfl (by show 8 ≤ 32; decide) (by show 8 + 1 ≤ 32; decide)
        (.inl (by simp only [ACC_V_CCODE, ACC_VCLR]; omega))
  · rw [rd_answer]
    exact rd_wr_lt (f := ACC_V_CCODE (m.val / 4)) rfl (codeOf_lt .ok) _
  · simp only [answer_frame, wr_frame]
    exact part_of_except (State.storeWord_same 41 rfl s _ _ _) .events rfl

theorem act_free : ∀ k : Fin 16, ∀ f ∈ [PLS_PCOUNT k.val, PLS_PEND k.val, IRQ_RAW (0x060 + k.val), PLS_SPILL_LO k.val,
    PLS_SPILL_HI k.val], f.free (PLS_ACT k.val) = true := by
  decide

theorem count_free : ∀ k : Fin 16, ∀ f ∈ [PLS_ACT k.val, PLS_PEND k.val, IRQ_RAW (0x060 + k.val), PLS_SPILL_LO k.val,
    PLS_SPILL_HI k.val], f.free (PLS_PCOUNT k.val) = true := by
  decide

theorem setSpill_free {g : Fld} {k : Nat} (hl : (PLS_SPILL_LO k).free g = true) (hh : (PLS_SPILL_HI k).free g = true)
    (hp : (PLS_PEND k).free g = true) (s : State) (v : Nat) : (s.setSpill k v).rd g = s.rd g := by
  unfold State.setSpill
  dsimp only
  rw [rd_wr_free hp, rd_wr64_free hl hh]

/-- The start of a pulse. -/
def State.pulseOn (s : State) (k : Nat) : State :=
  let s := (s.setSpill k (s.spill k - s.plsConst k)).wr (PLS_ACT k) 1
  let s := (s.wr (PLS_PCOUNT k) ((s.rd (PLS_PCOUNT k) + 1) % 2 ^ 32)).raise (0x060 + k) 0
  { s with acc := { s.acc with edges := k :: s.acc.edges.erase k } }

theorem pulseOn_regs (s : State) (k : Nat) : (s.pulseOn k).regs =
    ((((s.setSpill k (s.spill k - s.plsConst k)).wr (PLS_ACT k) 1).wr (PLS_PCOUNT k)
      ((((s.setSpill k (s.spill k - s.plsConst k)).wr (PLS_ACT k) 1).rd (PLS_PCOUNT k) + 1) % 2 ^ 32)).raise (0x060 + k)
        0).regs := rfl

theorem pulse_starts {s : State} {k : Fin 16} (hc : s.plsConst k.val ≠ 0) (hp : s.plsPending k.val ≠ 0)
    (ha : s.on (PLS_ACT k.val) = false) (hr : s.pageRuns (0x060 + k.val) = true) :
    Answers (.pulseStart k) s fun t =>
      t.on (PLS_ACT k.val) = true ∧ t.spill k.val + s.plsConst k.val = s.spill k.val ∧
      t.rd (PLS_PCOUNT k.val) = (s.rd (PLS_PCOUNT k.val) + 1) % 2 ^ 32 ∧ k.val ∈ t.acc.edges ∧
      bit (t.rd (IRQ_RAW (0x060 + k.val))) 0 = true ∧ SameBut [.regs, .acc] s t := by
  have command : exec (.pulseStart k) s = .next (s.pulseOn k.val) := by
    change execPulseStart k s = _
    unfold execPulseStart
    dsimp only
    rw [if_neg (by simp [hc, hp, ha, hr])]
    rfl
  have regs := pulseOn_regs s k.val
  have wrap (u : State) (n : Nat) : (u.wr (PLS_PCOUNT k.val) (n % 2 ^ 32)).rd (PLS_PCOUNT k.val) = n % 2 ^ 32 :=
    rd_wr_lt rfl (Nat.mod_lt _ (by show 0 < 2 ^ 32; decide)) u
  have act := act_free k
  have count := count_free k
  have fits : s.plsConst k.val ≤ s.spill k.val := by
    rw [State.plsPending, if_neg hc] at hp
    exact Nat.le_of_not_lt fun h => hp (Nat.div_eq_of_lt h)
  refine ⟨_, command, ?_, ?_, ?_, List.mem_cons_self, ?_, ?_⟩
  · rw [State.on, rd_of_regs regs, ← State.on, State.raise, on_wr_free (act _ (by simp)), on_wr_free (act _ (by simp))]
    exact on_wr_b2n (f := PLS_ACT k.val) rfl (by show 0 < 1; decide) _ true
  · have below := spill_lt s k.val
    rw [spill_of_regs regs, State.raise, spill_wr (besideSpill_output k _ (by simp)) k.isLt,
      spill_wr (besideSpill_output k _ (by simp)) k.isLt, spill_wr (besideSpill_output k _ (by simp)) k.isLt,
      spill_setSpill_same]
    omega
  · rw [rd_of_regs regs, State.raise, rd_wr_free (count _ (by simp)),
      wrap, rd_wr_free (count _ (by simp)),
      setSpill_free (count _ (by simp)) (count _ (by simp)) (count _ (by simp))]
  · rw [rd_of_regs regs]
    exact bit_raise_same _ _ (by decide)
  · refine sameBut_of_except ((except_upd_acc _ rfl _).trans ?_)
    rw [State.raise_same _ rfl, State.wr_same _ rfl, State.wr_same _ rfl, State.setSpill_same _ rfl]

theorem pulseOff_regs (s : State) (k : Nat) : (s.pulseOff k).regs = (s.wr (PLS_ACT k) 0).regs := by
  unfold State.pulseOff
  dsimp only

theorem pulse_ends {s : State} {k : Fin 16} (ha : s.on (PLS_ACT k.val) = true) :
    Answers (.pulseEnd k) s fun t =>
      t.on (PLS_ACT k.val) = false ∧ t.spill k.val = s.spill k.val ∧ k.val ∈ t.acc.edges ∧ SameBut [.regs, .acc] s
        t := by
  have command : exec (.pulseEnd k) s = .next (s.pulseOff k.val) := congrArg Host.Outcome.next (if_pos ha)
  have regs := pulseOff_regs s k.val
  refine ⟨_, command, ?_, ?_, List.mem_cons_self, ?_⟩
  · rw [State.on, rd_of_regs regs]
    exact on_wr_b2n (f := PLS_ACT k.val) rfl (by show 0 < 1; decide) s false
  · rw [spill_of_regs regs, spill_wr (f := PLS_ACT k.val) (besideSpill_output k _ (by simp)) k.isLt]
  · exact sameBut_of_except ((except_upd_acc _ rfl _).trans (State.wr_same _ rfl s _ _))

/-! ### Read-back of a pin -/

/-- The state once the edge is taken up. -/
def State.edgeChecked (s : State) (k : Nat) : State := { s with acc := { s.acc with edges := s.acc.edges.erase k } }

theorem edgeChecked_frame (s : State) (k : Nat) : (s.edgeChecked k).regs = s.regs ∧
    (s.edgeChecked k).acc.rbRun = s.acc.rbRun ∧ (s.edgeChecked k).events = s.events := ⟨rfl, rfl, rfl⟩

theorem on_edgeChecked (s : State) (k : Nat) (f : Fld) : (s.edgeChecked k).on f = s.on f := by
  rw [State.on, State.on, rd_of_regs (edgeChecked_frame s k).1]

/-- A level that differs from the one driven. -/
def State.pinFails (s : State) (k : Nat) : State :=
  let u := (s.count (PLS_RBERRN k)).raise (0x060 + k) 2
  let u := if cellAt 0 k s.acc.rbRun = 0 then u.log 0x3023 1 k else u
  { u with acc := { u.acc with rbRun := cellPut 0 k (cellAt 0 k s.acc.rbRun + 1) u.acc.rbRun } }

/-- A run of wrong levels ends. -/
def State.pinRecovers (s : State) (k : Nat) : State :=
  { s with acc := { s.acc with rbRun := cellErase k s.acc.rbRun } }.log 0x3024 1 (k + cellAt 0 k s.acc.rbRun * 2 ^ 32)

theorem pinReadback_eq {s : State} {k : Fin 16} (level : Bool) (hk : k.val ∈ s.acc.edges) :
    exec (.pinReadback k level) s = .next (
      let u := s.edgeChecked k.val
      if level != (u.on (PLS_ACT k.val) != u.on (PLS_POL k.val)) then u.pinFails k.val
      else if cellAt 0 k.val u.acc.rbRun = 0 then u else u.pinRecovers k.val) :=
  congrArg Host.Outcome.next (if_neg (not_not.mpr hk))

theorem readback_agrees {s : State} {k : Fin 16} {level : Bool} (hk : k.val ∈ s.acc.edges)
    (hl : level = (s.on (PLS_ACT k.val) != s.on (PLS_POL k.val))) :
    exec (.pinReadback k level) s = .next (if cellAt 0 k.val s.acc.rbRun = 0 then s.edgeChecked k.val
      else (s.edgeChecked k.val).pinRecovers k.val) := by
  rw [pinReadback_eq level hk]
  simp only [on_edgeChecked, hl, bne_self_eq_false, Bool.false_eq_true, if_false]
  rfl

theorem readback_differs {s : State} {k : Fin 16} {level : Bool} (hk : k.val ∈ s.acc.edges)
    (hl : level ≠ (s.on (PLS_ACT k.val) != s.on (PLS_POL k.val))) :
    exec (.pinReadback k level) s = .next ((s.edgeChecked k.val).pinFails k.val) := by
  rw [pinReadback_eq level hk]
  exact congrArg Host.Outcome.next (if_pos (bne_iff_ne.mpr hl))

theorem raise_readbacks : ∀ k : Fin 16, (IRQ_RAW (0x060 + k.val)).free (PLS_RBERRN k.val) = true := by decide

theorem pinFails_regs (s : State) (k : Nat) :
    (s.pinFails k).regs = ((s.count (PLS_RBERRN k)).raise (0x060 + k) 2).regs := by
  unfold State.pinFails
  dsimp only
  split <;> rfl

theorem pinFails_run (s : State) (k : Nat) : cellAt 0 k (s.pinFails k).acc.rbRun = cellAt 0 k s.acc.rbRun + 1 := by
  unfold State.pinFails
  dsimp only
  exact cellAt_put_same (α := Nat) 0 k _ _

theorem pinFails_opens {s : State} {k : Nat} (h : cellAt 0 k s.acc.rbRun = 0) : Logged s (s.pinFails k) 0x3023 1 k := by
  unfold Logged State.pinFails
  dsimp only
  rw [if_pos h, log_events]
  simp only [raise_frame, count_frame]

/-- Settles O24. -/
theorem pulsesComplete : Obligations.PulsesComplete := by
  unfold Obligations.PulsesComplete
  refine ⟨fun s m w hw hs => clear_pending hw hs, fun s len h => spillIncrement_adds h,
    fun s k hc hp ha hr => pulse_starts hc hp ha hr, fun s k ha => pulse_ends ha,
    fun s k level hk => ⟨fun hl h0 => ?_, fun hl => ?_, fun hl h0 => ?_⟩⟩
  · refine ⟨_, readback_agrees hk hl, ?_⟩
    rw [if_pos h0]
    exact ⟨rfl, sameBut_of_except (except_upd_acc _ rfl _)⟩
  · refine ⟨_, readback_differs hk hl, ?_, ?_, pinFails_run _ _, fun h0 => pinFails_opens (s := s.edgeChecked k.val) h0⟩
    · rw [rd_of_regs (pinFails_regs _ _), State.raise, rd_wr_free (raise_readbacks k), rd_count_same _ _ _ rfl]
      rfl
    · rw [rd_of_regs (pinFails_regs _ _)]
      exact bit_raise_same _ _ (by decide)
  · refine ⟨_, readback_agrees hk hl, ?_⟩
    rw [if_neg h0]
    exact ⟨cellAt_erase_same _ _ _, rfl⟩

end Sys2Proof.Machine

/-! ## Calibration, samples and power quality -/

namespace Sys2Proof.Machine

open Reg

/-! ### The end of a calibration step -/

theorem unsigned_lt (w : Nat) (i : Int) : unsigned w i < 2 ^ w := by
  have pos : (0 : Int) < (2 ^ w : Nat) := by positivity
  have low := Int.emod_nonneg i pos.ne'
  have high := Int.emod_lt_of_pos i pos
  unfold unsigned
  omega

/-- A field that the end of a step leaves. -/
def Fld.besideCalEnd (f : Fld) : Bool := ACS_CAL_BUSY.free f && ACS_CAL_ZERO.free f && ACS_CAL_FULL.free f &&
  ACS_CAL_CODE.free f && (IRQ_RAW 0x029).free f

theorem rd_calEnd {f : Fld} (hf : f.besideCalEnd = true) (s : State) (c : Status) : (s.calEnd c).rd f = s.rd f := by
  simp only [Fld.besideCalEnd, Bool.and_eq_true] at hf
  obtain ⟨⟨⟨⟨busy, zero⟩, full⟩, code⟩, raw⟩ := hf
  unfold State.calEnd
  dsimp only
  rw [rd_raise_free raw, rd_wr_free code, rd_wr_free full, rd_wr_free zero, rd_wr_free busy]
  exact rd_mk _ f

theorem calEnd_done (s : State) (c : Status) : (s.calEnd c).acs.cal = none ∧ (s.calEnd c).on ACS_CAL_BUSY = false ∧
    (s.calEnd c).rd ACS_CAL_CODE = codeOf c := by
  unfold State.calEnd
  refine ⟨?_, ?_, ?_⟩
  · simp only [raise_frame, wr_frame]
  · rw [on_raise_free (by decide), on_wr_free (by decide), on_wr_free (by decide), on_wr_free (by decide)]
    exact on_wr_b2n (f := ACS_CAL_BUSY) (by decide) (by decide) _ false
  · rw [rd_raise_free (by decide)]
    exact rd_wr_lt (f := ACS_CAL_CODE) (by decide) (codeOf_lt c) _

/-! ### Starting a step -/

theorem acsWrite_command (s : State) (port : Port) (tc d : Nat) : acsWrite s ⟨port, tc, 0x029, 0x048, none⟩ d =
    (let z := if bit d 0 then s.calStart false else (.ok, s)
     let f := if bit d 1 then z.2.calStart true else (.ok, z.2)
     let u := match bit d 2, f.2.acs.cal with
       | true, some k => { f.2 with acs := { f.2.acs with cal := some { k with abort := true } } }
       | _, _ => f.2
     (firstOf z.1 f.1, u)) := rfl

theorem bit_of_bits {n lo w i : Nat} (h : bits n lo w = 0) (hi : i < w) : bit n (lo + i) = false := by
  have field := testBit_bits n lo w i
  rw [h, Nat.zero_testBit, decide_eq_true hi, Bool.true_and] at field
  rw [bit_eq_testBit, ← field]

theorem bit_setBit_other {n k i : Nat} (h : i ≠ k) : bit (setBit n k) i = bit n i := by
  rw [bit_eq_testBit, bit_eq_testBit, testBit_setBit, decide_eq_false h, Bool.or_false]

/-- A command word as the page receives it: the bit of the command set, the others as they were. -/
theorem bit_command {d : Word} {k i : Nat} (hi : i < 32) :
    bit (BitVec.ofNat 32 (setBit d.toNat k)).toNat i = if i = k then true else bit d.toNat i := by
  rw [bit_ofNat hi]
  split
  case isTrue h => rw [h, bit_setBit_same]
  case isFalse h => exact bit_setBit_other h

/-- The step that a start leaves. -/
theorem calStart_starts {s : State} (full : Bool) (hc : s.acs.cal = none) (hn : s.rd ACS_CAL_NCYC ≠ 0) :
    s.calStart full = (.ok, { s.wr ACS_CAL_BUSY 1 with acs := { s.acs with
      cal := some { full := full, conv := s.rd ACS_CAL_CONV, ncyc := s.rd ACS_CAL_NCYC } } }) := by
  rw [State.calStart, hc, Option.isSome_none, if_neg Bool.false_ne_true, if_neg hn]

theorem calStart_empty {s : State} (full : Bool) (hc : s.acs.cal = none) (hn : s.rd ACS_CAL_NCYC = 0) :
    s.calStart full = (.ok, s.wr ACS_CAL_CODE (codeOf .zeroLen)) := by
  rw [State.calStart, hc, Option.isSome_none, if_neg Bool.false_ne_true, if_pos hn]

theorem calStart_busy {s : State} (full : Bool) {k : CalStep} (hc : s.acs.cal = some k) :
    s.calStart full = (.refusedPriority, s) := by
  rw [State.calStart, hc, Option.isSome_some, if_pos rfl]

theorem on_started (s : State) (a : AcsState) : State.on { s.wr ACS_CAL_BUSY 1 with acs := a } ACS_CAL_BUSY = true := by
  rw [on_mk]
  exact on_wr_b2n (f := ACS_CAL_BUSY) (by decide) (by decide) s true

section
variable {s : State} {w : RegWrite}

/-- A command that starts a step alone. -/
theorem acsWrite_zero (port : Port) (tc : Nat) (h : bits w.data.toNat 1 2 = 0) {c : Status} {u : State}
    (hs : s.calStart false = (c, u)) (hc : firstOf c .ok = c) :
    acsWrite s ⟨port, tc, 0x029, 0x048, none⟩ (BitVec.ofNat 32 (setBit w.data.toNat 0)).toNat = (c, u) := by
  have full := bit_of_bits h (i := 0) (by decide)
  have abort := bit_of_bits h (i := 1) (by decide)
  rw [acsWrite_command, bit_command (by decide), bit_command (by decide), bit_command (by decide), hs]
  simp [full, abort, hc]

theorem acsWrite_full (port : Port) (tc : Nat) (hz : bit w.data.toNat 0 = false) (ha : bit w.data.toNat 2 = false)
    {c : Status} {u : State} (hs : s.calStart true = (c, u)) (hc : firstOf .ok c = c) :
    acsWrite s ⟨port, tc, 0x029, 0x048, none⟩ (BitVec.ofNat 32 (setBit w.data.toNat 1)).toNat = (c, u) := by
  rw [acsWrite_command, bit_command (by decide), bit_command (by decide), bit_command (by decide)]
  simp [hz, ha, hs, hc]

theorem acsWrite_abort (port : Port) (tc : Nat) (h : bits w.data.toNat 0 2 = 0) {k : CalStep}
    (hk : s.acs.cal = some k) :
    acsWrite s ⟨port, tc, 0x029, 0x048, none⟩ (BitVec.ofNat 32 (setBit w.data.toNat 2)).toNat =
      (.ok, { s with acs := { s.acs with cal := some { k with abort := true } } }) := by
  have zero := bit_of_bits h (i := 0) (by decide)
  have full := bit_of_bits h (i := 1) (by decide)
  rw [acsWrite_command, bit_command (by decide), bit_command (by decide), bit_command (by decide)]
  simp [zero, full, hk]
  rfl

end

/-! ### The coefficients -/

/-- The coefficients of the converters, and their words among each other. -/
theorem coefficients_free : ∀ c : Fin 72, (ACS_OFS (bankOf c.val) (posOf c.val)).besideCalEnd = true ∧
    (ACS_GAIN (bankOf c.val) (posOf c.val)).besideCalEnd = true ∧
    (ACS_CALOK (bankOf c.val) (posOf c.val)).besideCalEnd = true ∧
    (ACS_OFS (bankOf c.val) (posOf c.val)).free ACS_CAL_MEAN = true ∧
    (ACS_CALOK (bankOf c.val) (posOf c.val)).free (ACS_GAIN (bankOf c.val) (posOf c.val)) = true ∧
    (ACS_CALGAIN (bankOf c.val) (posOf c.val)).free (ACS_GAIN (bankOf c.val) (posOf c.val)) = true ∧
    (ACS_CALGAIN (bankOf c.val) (posOf c.val)).free (ACS_CALOK (bankOf c.val) (posOf c.val)) = true := by
  decide

theorem coefficient_besideCalEnd : ∀ b : Fin 9, ∀ p : Fin 10, (ACS_OFS b.val p.val).besideCalEnd = true ∧
    (ACS_GAIN b.val p.val).besideCalEnd = true ∧ ACS_CAL_MEAN.free (ACS_OFS b.val p.val) = true ∧
    ACS_CAL_MEAN2.free (ACS_OFS b.val p.val) = true := by
  decide

/-! ### A zero step -/

theorem meanOf_some (s : State) {x : CycleSums} (h : x.n ≠ 0) : s.meanOf x = (divRound x.sum x.n, s) := if_neg h

theorem setConv_regs (s : State) (c : Nat) (f : ConvState → ConvState) : (s.setConv c f).regs = s.regs := rfl

/-- The end of a zero step of an unpaired channel. -/
theorem zeroEnd_eq {s : State} {k : CalStep} (hp : pairedBy s.pairing k.conv = none) (hn : k.a.n ≠ 0) :
    s.zeroEnd k =
      let m := divRound k.a.sum k.a.n
      let u := (s.wr ACS_CAL_MEAN (unsigned 24 m)).wr ACS_CAL_MEAN2 (unsigned 24 0)
      if 524288 < m.natAbs then u.calEnd .cfgInvalid
      else ((u.wr (ACS_OFS (bankOf k.conv) (posOf k.conv)) (unsigned 24 (-m))).setConv k.conv fun v =>
        { v with zeroOk := true }).calEnd .ok := by
  unfold State.zeroEnd State.calConvs
  simp only [hp, meanOf_some s hn, Int.natAbs_zero, Nat.not_lt_zero, or_false]

theorem zeroDone_runs {s : State} {k : CalStep} (hk : s.acs.cal = some k) (hf : k.full = false) (hg : k.ncyc ≤ k.got)
    (ha : k.abort = false) : exec .calZeroDone s = .next (s.zeroEnd k) := by
  change execCalZeroDone s = _
  unfold execCalZeroDone
  rw [hk]
  exact congrArg Host.Outcome.next (if_pos ⟨hf, hg, ha⟩)

theorem zero_writes {s : State} {k : CalStep} (hk : s.acs.cal = some k) (hf : k.full = false) (hg : k.ncyc ≤ k.got)
    (ha : k.abort = false) (hc : k.conv < 72) (hp : pairedBy s.pairing k.conv = none) (hn : k.a.n ≠ 0)
    (hm : (divRound k.a.sum k.a.n).natAbs ≤ 524288) :
    Answers .calZeroDone s fun t =>
      t.acs.cal = none ∧ t.on ACS_CAL_BUSY = false ∧ t.rd ACS_CAL_CODE = codeOf .ok ∧
      t.rd (ACS_OFS (bankOf k.conv) (posOf k.conv)) = unsigned 24 (-(divRound k.a.sum k.a.n)) ∧
      t.rd ACS_CAL_MEAN = unsigned 24 (divRound k.a.sum k.a.n) := by
  obtain ⟨ofs, -, -, mean, -⟩ := coefficients_free ⟨k.conv, hc⟩
  refine ⟨_, zeroDone_runs hk hf hg ha, ?_⟩
  rw [zeroEnd_eq hp hn]
  simp only [Nat.not_lt.mpr hm, if_false]
  obtain ⟨done, busy, code⟩ := calEnd_done (((((s.wr ACS_CAL_MEAN (unsigned 24 (divRound k.a.sum k.a.n))).wr
    ACS_CAL_MEAN2 (unsigned 24 0)).wr (ACS_OFS (bankOf k.conv) (posOf k.conv))
      (unsigned 24 (-(divRound k.a.sum k.a.n)))).setConv k.conv fun v =>
        { v with zeroOk := true })) .ok
  refine ⟨done, busy, code, ?_, ?_⟩
  · rw [rd_calEnd ofs, rd_of_regs (setConv_regs _ _ _)]
    exact rd_wr_lt rfl (unsigned_lt 24 _) _
  · rw [rd_calEnd (by decide), rd_of_regs (setConv_regs _ _ _), rd_wr_free mean, rd_wr_free (by decide)]
    exact rd_wr_lt (f := ACS_CAL_MEAN) (by decide) (unsigned_lt 24 _) _

theorem zero_refuses {s : State} {k : CalStep} (hk : s.acs.cal = some k) (hf : k.full = false) (hg : k.ncyc ≤ k.got)
    (ha : k.abort = false) (hp : pairedBy s.pairing k.conv = none) (hn : k.a.n ≠ 0)
    (hm : 524288 < (divRound k.a.sum k.a.n).natAbs) :
    Answers .calZeroDone s fun t =>
      t.acs.cal = none ∧ t.on ACS_CAL_BUSY = false ∧ t.rd ACS_CAL_CODE = codeOf .cfgInvalid ∧
      ∀ b p : Nat, b < 9 → p < 10 → t.rd (ACS_OFS b p) = s.rd (ACS_OFS b p) := by
  refine ⟨_, zeroDone_runs hk hf hg ha, ?_⟩
  rw [zeroEnd_eq hp hn]
  simp only [hm, if_true]
  obtain ⟨done, busy, code⟩ := calEnd_done ((s.wr ACS_CAL_MEAN (unsigned 24 (divRound k.a.sum k.a.n))).wr
    ACS_CAL_MEAN2 (unsigned 24 0)) .cfgInvalid
  refine ⟨done, busy, code, fun b p hb hp => ?_⟩
  obtain ⟨ofs, -, mean, second⟩ := coefficient_besideCalEnd ⟨b, hb⟩ ⟨p, hp⟩
  rw [rd_calEnd ofs, rd_wr_free second, rd_wr_free mean]

/-! ### A full-scale step -/

/-- The gain that a full-scale step of an unpaired channel computes. -/
def State.stepGain (s : State) (k : CalStep) : Nat :=
  calGain k.a (s.rd ACS_CAL_TGT) (invH (s.on (ACS_INT_EN (bankOf k.conv) (posOf k.conv))) 1024
    (10 + s.rd (ACS_ILEAK (bankOf k.conv) (posOf k.conv))) (s.rd CTF_PERIOD))

theorem fullEnd_eq {s : State} {k : CalStep} (hp : pairedBy s.pairing k.conv = none) (hc : k.clip = false)
    (ht : s.rd ACS_CAL_TGT ≤ 7340032) (hq : k.a.sq ≠ 0) (hg : gainOk (s.stepGain k) = true) :
    s.fullEnd k =
      let u := ((s.wr ACS_CAL_RMS (rmsOf k.a)).wr ACS_CAL_RMS2 0).wr (ACS_GAIN (bankOf k.conv) (posOf k.conv))
        (s.stepGain k)
      State.calEnd (if (s.conv k.conv).zeroOk then (u.wr (ACS_CALOK (bankOf k.conv) (posOf k.conv)) 1).wr
        (ACS_CALGAIN (bankOf k.conv) (posOf k.conv)) (u.rd (ACS_PGA (bankOf k.conv) (posOf k.conv))) else u) .ok := by
  have conv (u : State) (f : Fld) (v c : Nat) : (u.wr f v).conv c = u.conv c := by
    simp only [State.conv, wr_frame]
  unfold State.stepGain at hg
  unfold State.fullEnd State.calConvs State.stepGain
  simp only [hp, Option.isSome_none, Bool.false_eq_true, if_false, false_and, or_false, hq, hg, hc,
    Bool.true_eq_false, Nat.not_lt.mpr ht, Option.toList_none, List.all_cons, List.all_nil, Bool.and_true, conv]

theorem full_writes {s : State} {k : CalStep} {g : Nat} (hk : s.acs.cal = some k) (hf : k.full = true)
    (hgot : k.ncyc ≤ k.got) (ha : k.abort = false) (h72 : k.conv < 72) (hp : pairedBy s.pairing k.conv = none)
    (hc : k.clip = false) (ht : s.rd ACS_CAL_TGT ≤ 7340032) (hq : k.a.sq ≠ 0) (hs : g = s.stepGain k)
    (hg : gainOk g = true) :
    Answers .calFullDone s fun t =>
      t.acs.cal = none ∧ t.rd ACS_CAL_CODE = codeOf .ok ∧
      t.rd (ACS_GAIN (bankOf k.conv) (posOf k.conv)) = g ∧
      ((s.conv k.conv).zeroOk = true → t.on (ACS_CALOK (bankOf k.conv) (posOf k.conv)) = true) := by
  have command : exec .calFullDone s = .next (s.fullEnd k) := by
    change execCalFullDone s = _
    unfold execCalFullDone
    rw [hk]
    exact congrArg Host.Outcome.next (if_pos ⟨hf, hgot, ha⟩)
  obtain ⟨-, gain, ok, -, ok_gain, pga_gain, pga_ok⟩ := coefficients_free ⟨k.conv, h72⟩
  have fits : g < 2 ^ 24 := by
    simp only [gainOk, Bool.and_eq_true, decide_eq_true_eq] at hg
    omega
  refine ⟨_, command, ?_⟩
  rw [fullEnd_eq hp hc ht hq (hs ▸ hg), ← hs]
  obtain ⟨done, -, code⟩ := calEnd_done (if (s.conv k.conv).zeroOk then _ else _) .ok
  refine ⟨done, code, ?_, fun zero => ?_⟩
  · rw [rd_calEnd gain, apply_ite (State.rd · _), rd_wr_free pga_gain, rd_wr_free ok_gain, ite_self]
    exact rd_wr_lt rfl fits _
  · rw [State.on, rd_calEnd ok, ← State.on, if_pos zero, on_wr_free pga_ok]
    exact on_wr_b2n (f := ACS_CALOK _ _) rfl (by show 0 < 1; decide) _ true

/-- Settles O19. -/
theorem acsCalibrationComplete : Obligations.AcsCalibrationComplete := by
  unfold Obligations.AcsCalibrationComplete
  refine ⟨fun s w hw h => ⟨fun hc hn => ?_, fun hc hn => ?_, fun k hc => ?_⟩,
    fun s w hw hz ha => ⟨fun hc hn => ?_, fun k hc => ?_⟩, fun s w k hw h hk => ?_,
    fun s k hk hf hg ha h72 hp hn => ⟨fun hm => ?_, fun hm => ?_⟩,
    fun s k g hk hf hgot ha h72 hp hc ht hq hg hok => ?_, fun s k hk hf hg he => ?_⟩
  · exact answers_write rfl (by decide) hw (acsWrite_zero _ _ h (calStart_starts false hc hn) rfl)
      ⟨rfl, (on_answer _ _ _).trans (on_started s _), rfl⟩
  · refine answers_write rfl (by decide) hw (acsWrite_zero _ _ h (calStart_empty false hc hn) rfl) ⟨rfl, ?_, ?_⟩
    · rw [rd_answer]
      exact rd_wr_lt (f := ACS_CAL_CODE) (by decide) (codeOf_lt _) _
    · simp only [answer_frame, wr_frame]
  · refine answers_write_coded rfl (by decide) hw (acsWrite_zero _ _ h (calStart_busy false hc) rfl) ⟨rfl, ?_⟩
    simp only [answer_frame, capture_frame]
  · exact answers_write rfl (by decide) hw (acsWrite_full _ _ hz ha (calStart_starts true hc hn) rfl)
      ⟨rfl, (on_answer _ _ _).trans (on_started s _), rfl⟩
  · refine answers_write_coded rfl (by decide) hw (acsWrite_full _ _ hz ha (calStart_busy true hc) rfl) ⟨rfl, ?_⟩
    simp only [answer_frame, capture_frame]
  · refine answers_write rfl (by decide) hw (acsWrite_abort _ _ h hk) ⟨rfl, rfl, sameBut_of_except ?_⟩
    exact (State.answer_same _ rfl _ _).trans (except_upd_acs _ rfl _)
  · exact zero_writes hk hf hg ha h72 hp hn hm
  · exact zero_refuses hk hf hg ha hp hn hm
  · exact full_writes hk hf hgot ha h72 hp hc ht hq hg hok
  · have command : exec .calTimeout s = .next (s.calEnd .timeout) := by
      change execCalTimeout s = _
      unfold execCalTimeout
      rw [hk]
      exact congrArg Host.Outcome.next (if_pos ⟨hf, hg, he⟩)
    obtain ⟨done, busy, code⟩ := calEnd_done s .timeout
    refine ⟨_, command, done, busy, code, fun b p hb hp => ?_⟩
    obtain ⟨ofs, gain, -⟩ := coefficient_besideCalEnd ⟨b, hb⟩ ⟨p, hp⟩
    exact ⟨rd_calEnd ofs s _, rd_calEnd gain s _⟩

/-! ### The verdict of a continuity test -/

theorem State.closeAs_past {P : List Nat} (hP : P.contains 0x070 = true) (s : State) (e : PqEvent) (c : Status) :
    Past P (State.closeAs s e c) = Past P s := by
  unfold State.closeAs
  simp +decide only [Past, State.pqeRecord_past hP, State.pqeLog_same, State.setPqe_same, Nat.reduceAnd]

theorem State.closeEvent_past {P : List Nat} (hP : P.contains 0x070 = true) (s : State) (kind : Nat) (ch : Nat) :
    Past P (State.closeEvent s kind ch) = Past P s := by
  unfold State.closeEvent
  split
  · exact State.closeAs_past hP s _ _
  · rfl

theorem State.setEvent_past (P : List Nat) (s : State) (kind ch : Nat) (f : PqEvent → PqEvent) :
    Past P (s.setEvent kind ch f) = Past P s := past_of_except (State.setEvent_same _ rfl s kind ch f)

theorem State.setCtVerdict_past {P : List Nat} (hP : P.contains 0x070 = true) (s : State) {ch : Nat} (hch : ch < 64)
    (v r : Nat) : Past P (s.setCtVerdict ch v r) = Past P s := by
  have verdict : (PQE_CTV (ch / 16)).lies 0x070 = true :=
    Fld.lies_iff.mpr ⟨rfl, by show 32 ≤ 32; decide, by simp only [PQE_CTV]; omega⟩
  unfold State.setCtVerdict
  dsimp only
  split
  case isTrue => rfl
  case isFalse =>
    generalize hu : ((s.wr (PQE_CTV (ch / 16)) (putBits (s.rd (PQE_CTV (ch / 16))) (2 * (ch % 16)) 2 v)).raise 0x070 2)
      = u
    have shown : Past P u = Past P s := by
      rw [← hu, State.raise_past hP, State.wr_past hP verdict]
    refine Eq.trans ?_ shown
    split
    · split
      · exact State.openEvent_past hP u _ _ _ _
      · rfl
    · split
      · exact State.setEvent_past P u _ _ _
      · exact (State.closeEvent_past hP _ _ _).trans (State.setEvent_past P u _ _ _)

theorem State.ctResult_past {P : List Nat} (hP : P.contains 0x070 = true) (s : State) {ch : Nat} (hch : ch < 64) :
    Past P (s.ctResult ch) = Past P s := by
  have noted (u : State) (f : PqeState → PqeState) : Past P (u.setPqe f) = Past P u :=
    past_of_except (State.setPqe_same _ rfl u f)
  unfold State.ctResult
  simp only [apply_ite (Past P), State.setCtVerdict_past hP _ hch, noted, ite_self]

/-! ### The continuity test -/

theorem contFields_free : ∀ c : Fin 64, (ACS_CONT_CODE (bankOf c.val) (posOf c.val)).free
      (ACS_CONT_R (bankOf c.val) (posOf c.val)) = true ∧
    (IRQ_RAW (0x020 + bankOf c.val)).free (ACS_CONT_R (bankOf c.val) (posOf c.val)) = true ∧
    (IRQ_RAW (0x020 + bankOf c.val)).free (ACS_CONT_CODE (bankOf c.val) (posOf c.val)) = true ∧
    (ACS_CONT_R (bankOf c.val) (posOf c.val)).outside [0x070] = true ∧
    (ACS_CONT_CODE (bankOf c.val) (posOf c.val)).outside [0x070] = true ∧
    (ACS_CONT_CODE (bankOf c.val) (posOf c.val)).free ACS_CONT_IMAX = true := by
  decide

/-- A channel that becomes SKIPPED leaves which channels can be tested. -/
theorem contTestable_skipped (s : State) {c : Nat} (hc : c < 64) (v : Nat) {d : Nat} (hd : d < 64) :
    (s.wr (ACS_CONT_CODE (bankOf c) (posOf c)) v).contTestable d = s.contTestable d := by
  have imax : (ACS_CONT_CODE (bankOf c) (posOf c)).free ACS_CONT_IMAX = true :=
    (contFields_free ⟨c, hc⟩).2.2.2.2.2
  have integ : (ACS_CONT_CODE (bankOf c) (posOf c)).free (ACS_INT_EN (bankOf d) (posOf d)) = true := by
    refine free_of_key (by show 8 ≤ 32; decide) (by show 8 + 1 ≤ 32; decide) ?_
    simp only [Fld.key, regKey, ACS_CONT_CODE, ACS_INT_EN, bankOf, posOf]
    omega
  unfold State.contTestable State.outOfService State.pairing State.regIn State.conv
  rw [rd_wr_free imax, on_wr_free integ]
  simp only [wr_frame]

/-- The round stops at the first channel that can be tested. -/
theorem contRound_tests {l : List Nat} (hl : ∀ c ∈ l, c < 64) (s : State) {ch : Nat}
    (h : l.find? s.contTestable = some ch) :
    (s.contRound l).acs = { s.acs with contNext := ch, testing := some ch, testDone := false } := by
  induction l generalizing s with
  | nil => exact absurd h (by simp)
  | cons c l ih =>
    have rest : ∀ d ∈ l, d < 64 := fun d hd => hl d (List.mem_cons_of_mem _ hd)
    rw [State.contRound]
    by_cases can : s.contTestable c = true
    · rw [List.find?_cons_of_pos can] at h
      rw [if_pos can, Option.some.inj h]
    · rw [List.find?_cons_of_neg can] at h
      rw [if_neg can, ih rest]
      · simp only [wr_frame]
      · rw [← h]
        refine List.find?_congr fun d hd => ?_
        exact contTestable_skipped s (hl c List.mem_cons_self) _ (rest d hd)

theorem contTest_starts {s : State} {ch : Nat} (he : s.on ACS_CONT_EN = true) (hp : s.rd ACS_CONT_PER ≤ s.acs.contCyc)
    (ht : s.acs.testing = none) (hr : s.pageRuns 0x020 = true)
    (hf : ((((List.range 64).map fun k => (s.acs.contNext + 1 + k) % 64).filter s.contMasked).find?
      s.contTestable) = some ch) :
    Answers .contTestStart s fun t =>
      t.acs.testing = some ch ∧ t.acs.contNext = ch ∧ t.acs.contCyc = 0 ∧ SameBut [.regs, .acs] s t := by
  let u : State := { s with acs := { s.acs with contCyc := 0 } }
  let order := ((List.range 64).map fun k => (s.acs.contNext + 1 + k) % 64).filter s.contMasked
  have command : exec .contTestStart s = .next (u.contRound order) := by
    change execContTestStart s = _
    unfold execContTestStart
    rw [if_pos ⟨he, hp, ht, hr⟩]
  have listed : ∀ c ∈ order, c < 64 := by
    intro c hc
    obtain ⟨k, -, rfl⟩ := List.mem_map.mp (List.mem_filter.mp hc).1
    exact Nat.mod_lt _ (by decide)
  have same : u.contTestable = s.contTestable := by
    funext c
    simp only [u, State.contTestable, State.outOfService, State.pairing, State.regIn, State.conv, rd_mk, on_mk]
    rfl
  have acs := contRound_tests listed u (ch := ch) (same ▸ hf)
  refine ⟨_, command, ?_, ?_, ?_, sameBut_of_except ?_⟩
  · rw [acs]
  · rw [acs]
  · rw [acs]
  · exact (State.contRound_same _ rfl u order).trans (except_upd_acs _ rfl _)

/-- The resistance that a test measures, before it is limited. -/
def State.contOhms (s : State) (ch : Nat) : Nat :=
  (divRound (((s.conv ch).cal1.sum * (s.conv ch).cal2.n - (s.conv ch).cal2.sum * (s.conv ch).cal1.n) * 96334)
    ((s.conv ch).cal1.n * (s.conv ch).cal2.n * 1000000 * s.pgaGain ch)).toNat

theorem contResult_eq {s : State} {ch : Nat} (h1 : (s.conv ch).cal1.n ≠ 0) (h2 : (s.conv ch).cal2.n ≠ 0) :
    ∃ a : AcsState, a.testing = none ∧ s.contResult ch =
      { ((s.wr (ACS_CONT_R (bankOf ch) (posOf ch)) (satNat 16 (s.contOhms ch))).wr
        (ACS_CONT_CODE (bankOf ch) (posOf ch))
        0).raise (0x020 + bankOf ch) 2 with acs := a } := by
  have gain : s.pgaGain ch ≠ 0 := by
    unfold State.pgaGain
    positivity
  have den : (s.conv ch).cal1.n * (s.conv ch).cal2.n * 1000000 * s.pgaGain ch ≠ 0 := by positivity
  unfold State.contResult State.contOhms
  dsimp only
  rw [if_neg den]
  exact ⟨_, rfl, rfl⟩

theorem contTest_result {s : State} {ch : Nat} (hch : ch < 64) (ht : s.acs.testing = some ch)
    (hd : s.acs.testDone = true) (h1 : (s.conv ch).cal1.n ≠ 0) (h2 : (s.conv ch).cal2.n ≠ 0) :
    Answers .contTestResult s fun t =>
      t.acs.testing = none ∧ t.rd (ACS_CONT_CODE (bankOf ch) (posOf ch)) = codeOf .ok ∧
      t.rd (ACS_CONT_R (bankOf ch) (posOf ch)) = satNat 16 (s.contOhms ch) := by
  obtain ⟨code_r, raw_r, raw_code, r_out, code_out, -⟩ := contFields_free ⟨ch, hch⟩
  have command : exec .contTestResult s = .next ((s.contResult ch).ctResult ch) := by
    change execContTestResult s = _
    unfold execContTestResult
    rw [ht]
    exact congrArg Host.Outcome.next (if_pos hd)
  have past := State.ctResult_past (P := [0x070]) (by decide) (s.contResult ch) hch
  have acs : ((s.contResult ch).ctResult ch).acs = (s.contResult ch).acs :=
    part_of_except (State.ctResult_same 131329 rfl (s.contResult ch) ch) .acs rfl
  obtain ⟨a, testing, result⟩ := contResult_eq h1 h2
  have fits : satNat 16 (s.contOhms ch) < 2 ^ 16 := by
    unfold satNat
    omega
  refine ⟨_, command, ?_, ?_, ?_⟩
  · rw [acs, result]
    exact testing
  · rw [rd_of_past past code_out, result, rd_mk, rd_raise_free raw_code]
    exact rd_wr_lt rfl (by show 0 < 2 ^ 8; decide) _
  · rw [rd_of_past past r_out, result, rd_mk, rd_raise_free raw_r, rd_wr_free code_r]
    exact rd_wr_lt rfl fits _

/-! ### A conversion -/

theorem toNat_sampleWord (cyc conv phase low : Nat) : (sampleWord cyc conv phase low).toNat =
    (sampleCode cyc conv phase low).toNat * 2 ^ 32 + low % 2 ^ 32 := by
  have code := (sampleCode cyc conv phase low).isLt
  rw [sampleWord, BitVec.toNat_ofNat]
  omega

/-- Every consumer finds a word as the bank made it good. -/
theorem sampleOk_sampleWord (cyc conv phase low : Nat) :
    sampleOk cyc conv phase (sampleWord cyc conv phase low) = true := by
  have rest : (sampleWord cyc conv phase low).toNat % 2 ^ 32 = low % 2 ^ 32 := by
    rw [toNat_sampleWord]
    omega
  rw [sampleOk, beq_iff_eq]
  conv_rhs => rw [sampleWord, sampleCode, rest]
  rw [sampleWord, sampleCode]

/-- A number that fits 24 bits is what its 24 bits say. -/
theorem signed_unsigned {z : Int} (hl : -8388608 ≤ z) (hu : z < 8388608) : signed 24 (unsigned 24 z) = z := by
  unfold signed unsigned
  dsimp only
  split <;> omega

theorem sat24_range (y : Int) : -8388607 ≤ sat24 y ∧ sat24 y ≤ 8388607 := by
  unfold sat24
  omega

theorem mem_putSamp (x : Samp) (l : List Samp) : x ∈ putSamp x l := by
  induction l with
  | nil => exact List.mem_singleton_self x
  | cons y l ih =>
    unfold putSamp
    split
    · exact List.mem_cons_self
    split
    · exact List.mem_cons_self
    · exact List.mem_cons_of_mem _ ih

theorem b2n_le (b : Bool) : b2n b ≤ 1 := by cases b <;> decide

theorem decide_b2n (b : Bool) : decide (b2n b = 1) = b := by cases b <;> rfl

/-- The bits of a sample word that carry the value and the clip. -/
theorem sampleWord_bits (cyc conv phase : Nat) {z : Int} (hl : -8388608 ≤ z) (hu : z < 8388608) (clip test : Bool)
    {n : Nat} (hn : n = (sampleWord cyc conv phase (unsigned 24 z + b2n clip * 2 ^ 25 + b2n test * 2 ^ 26)).toNat) :
    signed 24 n = z ∧ bit n 24 = false ∧ bit n 25 = clip := by
  have small := unsigned_lt 24 z
  have c1 := b2n_le clip
  have t1 := b2n_le test
  have whole := hn.trans (toNat_sampleWord _ _ _ _)
  rw [Nat.mod_eq_of_lt (a := unsigned 24 z + b2n clip * 2 ^ 25 + b2n test * 2 ^ 26) (by omega)] at whole
  have value : n % 2 ^ 24 = unsigned 24 z := by omega
  refine ⟨?_, ?_, ?_⟩
  · have same : signed 24 n = signed 24 (n % 2 ^ 24) := by
      unfold signed
      rw [Nat.mod_mod]
    rw [same, value, signed_unsigned hl hu]
  · rw [bit_eq_testBit, Nat.testBit_eq_decide_div_mod_eq, decide_eq_false_iff_not]
    omega
  · have flag : n / 2 ^ 25 % 2 = b2n clip := by omega
    rw [bit_eq_testBit, Nat.testBit_eq_decide_div_mod_eq, flag, decide_b2n]

/-! ### Time up to the sample -/

theorem advance_parts (s : State) (n : Nat) : (s.advance n).acs = s.acs ∧ (s.advance n).events = s.events ∧
    (s.advance n).mte = s.mte ∧ (s.advance n).inForce = s.inForce ∧ (s.advance n).ctf.ph = min 65535 (s.ctf.ph + n) ∧
    (s.advance n).ticks = s.ticks + n := by
  unfold State.advance State.rtcAdvance
  simp only [wr_frame, and_self]

theorem rd_advance {f : Fld} (hu : CTF_UTC_FRAC.free f = true) (hf : CTF_UTC.free f = true) (s : State) (n : Nat) :
    (s.advance n).rd f = s.rd f := by
  unfold State.advance State.rtcAdvance
  dsimp only
  rw [rd_wr_free hf, rd_wr_free hu, rd_mk, rd_mk]

theorem rd_advanceTo {f : Fld} (hu : CTF_UTC_FRAC.free f = true) (hf : CTF_UTC.free f = true) (s : State) (p : Nat) :
    (s.advanceTo p).rd f = s.rd f := by
  unfold State.advanceTo
  split
  · exact rd_advance hu hf s _
  · rfl

theorem advanceTo_frame (s : State) {p : Nat} (hp : p ≤ 65535) : (s.advanceTo p).acs = s.acs ∧
    (s.advanceTo p).events = s.events ∧ (s.advanceTo p).mte = s.mte ∧ (s.advanceTo p).inForce = s.inForce ∧
    (s.advanceTo p).ctf.ph = max s.ctf.ph p ∧ s.ticks ≤ (s.advanceTo p).ticks := by
  unfold State.advanceTo
  split
  · obtain ⟨acs, events, mte, force, ph, ticks⟩ := advance_parts s (p - s.ctf.ph)
    refine ⟨acs, events, mte, force, ?_, by omega⟩
    rw [ph]
    omega
  · exact ⟨rfl, rfl, rfl, rfl, by omega, Nat.le_refl _⟩

theorem convFields_free : ∀ c : Fin 64, ∀ f ∈ [ACS_EN (bankOf c.val) (posOf c.val), ACS_INT_EN (bankOf c.val)
    (posOf c.val),
    ACS_OFS (bankOf c.val) (posOf c.val), ACS_GAIN (bankOf c.val) (posOf c.val)],
    CTF_UTC_FRAC.free f = true ∧ CTF_UTC.free f = true := by
  decide

/-- The converter gathers a sample: its offset joins the squares. -/
def State.takeSample (s : State) (c : Nat) (clip : Bool) (x o : Int) : State :=
  s.setConv c fun v => { v with last := some s.ticks, clip := v.clip || clip, raw := v.raw.add x (x + o) }

theorem takeSample_raw (s : State) (c : Nat) (clip : Bool) (x o : Int) :
    ((s.takeSample c clip x o).conv c).raw = (s.conv c).raw.add x (x + o) := by
  unfold State.takeSample State.setConv State.conv
  simp only [cellAt_put_same]

theorem rd_setConv (s : State) (c : Nat) (f : ConvState → ConvState) (g : Fld) : (s.setConv c f).rd g = s.rd g :=
  rd_of_regs (setConv_regs s c f) g

theorem on_setConv (s : State) (c : Nat) (f : ConvState → ConvState) (g : Fld) : (s.setConv c f).on g = s.on g := by
  rw [State.on, rd_setConv, State.on]

/-- The state after a conversion that is neither integrated nor skipped. -/
def State.sampled (s : State) (w : SampleIn) (x o z : Int) : State :=
  let c := w.conv.val
  let s := (s.takeSample c w.clip x o).setConv c fun v => { v with integ := v.integ, cal := v.cal.add z z }
  if w.clip then (s.count (ACS_OVRN (bankOf c) (posOf c))).raise (0x020 + bankOf c) 0 else s

theorem sampled_raw (s : State) (w : SampleIn) (x o z : Int) :
    ((s.sampled w x o z).conv w.conv.val).raw = (s.conv w.conv.val).raw.add x (x + o) := by
  have flagged (u : State) : State.conv (if w.clip then (u.count (ACS_OVRN (bankOf w.conv.val)
    (posOf w.conv.val))).raise
      (0x020 + bankOf w.conv.val) 0 else u) = u.conv := by
    funext c
    simp only [State.conv, apply_ite State.acs, raise_frame, count_frame, ite_self]
  unfold State.sampled
  dsimp only
  rw [flagged, ← takeSample_raw s w.conv.val w.clip x o]
  simp only [State.conv, State.setConv, cellAt_put_same]

theorem sampled_frame (s : State) (w : SampleIn) (x o z : Int) : (s.sampled w x o z).events = s.events ∧
    (s.sampled w x o z).ctf = s.ctf ∧ (s.sampled w x o z).mte = s.mte := by
  unfold State.sampled
  dsimp only
  split
  · simp only [raise_frame, count_frame]
    exact ⟨rfl, rfl, rfl⟩
  · exact ⟨rfl, rfl, rfl⟩

/-- The bit of a word that marks a sample under test. -/
def State.testBit (s : State) (c : Nat) : Bool :=
  (s.rd (ACS_MUX (bankOf c) (posOf c)) == 1 || s.rd (ACS_MUX (bankOf c) (posOf c)) == 2) || s.underTest c

/-- The conversion once time has passed to its phase. -/
theorem convert_sampled {s t : State} {w : SampleIn} (ht : s.advanceTo (64 * w.pos.val) = t)
    (hp : partnerOf s.pairing w.conv.val = none) (hen : t.on (ACS_EN (bankOf w.conv.val) (posOf w.conv.val)) = true)
    (hi : t.on (ACS_INT_EN (bankOf w.conv.val) (posOf w.conv.val)) = false)
    (hl : ∀ l, (t.conv w.conv.val).last = some l → l + 62 ≤ t.ticks) {o : Int} {g : Nat}
    (ho : o = signed 24 (t.rd (ACS_OFS (bankOf w.conv.val) (posOf w.conv.val))))
    (hg : g = t.rd (ACS_GAIN (bankOf w.conv.val) (posOf w.conv.val))) :
    s.convert w = (t.sampled w w.raw.toInt o (sat24 (correct w.raw.toInt o g)),
      ⟨w.conv.val, 64 * w.pos.val, false, sampleWord t.stamp.cyc w.conv.val (64 * w.pos.val)
        (unsigned 24 (sat24 (correct w.raw.toInt o g)) + b2n w.clip * 2 ^ 25 +
          b2n ((t.sampled w w.raw.toInt o (sat24 (correct w.raw.toInt o g))).testBit w.conv.val) * 2 ^ 26)⟩) := by
  have soon (l : Nat) (hlast : (t.conv w.conv.val).last = some l) : decide (t.ticks < l + 62) = false :=
    decide_eq_false (Nat.not_lt.mpr (hl l hlast))
  subst ho hg
  have whole (n : Nat) : n + b2n false * 2 ^ 27 = n := by rw [b2n, if_neg Bool.false_ne_true, Nat.zero_mul,
    Nat.add_zero]
  unfold State.convert State.sampled State.testBit State.takeSample
  cases hlast : (t.conv w.conv.val).last with
  | none =>
    simp only [hp, Option.getD_none, Option.isSome_none, Bool.false_eq_true, if_false, Nat.add_zero, ht, hen,
      Bool.not_true, hlast, on_setConv, hi, Bool.and_false, Bool.not_false, Bool.true_and, whole]
  | some l =>
    simp only [hp, Option.getD_none, Option.isSome_none, Bool.false_eq_true, if_false, Nat.add_zero, ht, hen,
      Bool.not_true, hlast, soon l hlast, on_setConv, hi, Bool.and_false, Bool.not_false, Bool.true_and, whole]

/-- A conversion of an enabled converter without a partner and without an integrator, no sooner than 62 ct after the
last. -/
theorem convert_plain {s : State} {w : SampleIn} (hc : w.conv.val < 64)
    (hen : s.on (ACS_EN (bankOf w.conv.val) (posOf w.conv.val)) = true) (hp : partnerOf s.pairing w.conv.val = none)
    (hl : ∀ l, (s.conv w.conv.val).last = some l → l + 62 ≤ s.ticks)
    (hi : s.on (ACS_INT_EN (bankOf w.conv.val) (posOf w.conv.val)) = false) {o : Int} {g : Nat}
    (ho : o = signed 24 (s.rd (ACS_OFS (bankOf w.conv.val) (posOf w.conv.val))))
    (hg : g = s.rd (ACS_GAIN (bankOf w.conv.val) (posOf w.conv.val))) :
    ∃ (u : State) (test : Bool), s.convert w = (u, ⟨w.conv.val, 64 * w.pos.val, false,
        sampleWord u.stamp.cyc w.conv.val (64 * w.pos.val)
          (unsigned 24 (sat24 (correct w.raw.toInt o g)) + b2n w.clip * 2 ^ 25 + b2n test * 2 ^ 26)⟩) ∧
      (u.conv w.conv.val).raw = (s.conv w.conv.val).raw.add w.raw.toInt (w.raw.toInt + o) ∧
      u.events = s.events ∧ u.ctf.ph = max s.ctf.ph (64 * w.pos.val) ∧ u.mte = s.mte := by
  obtain ⟨acs, events, mte, force, ph, ticks⟩ := advanceTo_frame s (p := 64 * w.pos.val) (by omega)
  have kept {f : Fld} (hf : f ∈ [ACS_EN (bankOf w.conv.val) (posOf w.conv.val),
      ACS_INT_EN (bankOf w.conv.val) (posOf w.conv.val), ACS_OFS (bankOf w.conv.val) (posOf w.conv.val),
      ACS_GAIN (bankOf w.conv.val) (posOf w.conv.val)]) : (s.advanceTo (64 * w.pos.val)).rd f = s.rd f := by
    obtain ⟨hu, hf⟩ := convFields_free ⟨w.conv.val, hc⟩ f hf
    exact rd_advanceTo hu hf s _
  generalize ht : s.advanceTo (64 * w.pos.val) = t at acs events mte force ph ticks kept
  have enabled : t.on (ACS_EN (bankOf w.conv.val) (posOf w.conv.val)) = true := by
    rw [State.on, kept (by simp)]
    exact hen
  have plain : t.on (ACS_INT_EN (bankOf w.conv.val) (posOf w.conv.val)) = false := by
    rw [State.on, kept (by simp)]
    exact hi
  have conv : t.conv w.conv.val = s.conv w.conv.val := by rw [State.conv, State.conv, acs]
  have rested (l : Nat) (hlast : (t.conv w.conv.val).last = some l) : l + 62 ≤ t.ticks := by
    have := hl l (conv ▸ hlast)
    omega
  have result := convert_sampled ht hp enabled plain rested (o := o) (g := g) (by rw [ho, kept (by simp)])
    (by rw [hg, kept (by simp)])
  obtain ⟨events', ctf, mte'⟩ := sampled_frame t w w.raw.toInt o (sat24 (correct w.raw.toInt o g))
  have stamp : (t.sampled w w.raw.toInt o (sat24 (correct w.raw.toInt o g))).stamp = t.stamp := by
    rw [State.stamp, State.stamp, ctf]
  refine ⟨_, _, stamp ▸ result, ?_, events'.trans events, ?_, mte'.trans mte⟩
  · rw [sampled_raw, conv]
  · rw [ctf, ph]

theorem ctfCodeOf_current : ∀ c : Fin 64, ctfCodeOf c.val = 0 := by decide

/-- A good word of a current channel reaches metrology and power quality alone. -/
theorem deliver_good (u : State) {w : SampleIn} (hc : w.conv.val < 64) (he : w.errCtf = 0 ∧ w.errMte = 0 ∧ w.errPqe = 0)
    {phase low : Nat} :
    let d : Delivery := ⟨w.conv.val, phase, false, sampleWord u.stamp.cyc w.conv.val phase low⟩
    u.deliverSample w d = (u.mteSample d true d.word).pqeSample d true d.word := by
  obtain ⟨ctf, mte, pqe⟩ := he
  have code := ctfCodeOf_current ⟨w.conv.val, hc⟩
  have same (v : BitVec 40) : v ^^^ 0 = v := BitVec.xor_zero
  intro d
  have good : sampleOk u.stamp.cyc w.conv.val d.phase d.word = true := sampleOk_sampleWord _ _ _ _
  have none : badConsumers d (true, true, true) = 0 := rfl
  unfold State.deliverSample
  simp only [ctf, mte, pqe, same, good, none, if_true]
  unfold State.sampleCtf
  exact if_pos code

/-- What metrology keeps of a word. -/
def sampOf (d : Delivery) (good : Bool) (w : BitVec 40) : Samp :=
  ⟨d.phase / 32, signed 24 w.toNat, good && !bit w.toNat 24, good && bit w.toNat 25, good && bit w.toNat 26⟩

theorem sampOf_good (d : Delivery) {w : BitVec 40} {z : Int} {clip : Bool} (hz : signed 24 w.toNat = z)
    (hf : bit w.toNat 24 = false) (hc : bit w.toNat 25 = clip) :
    (sampOf d true w).ok = true ∧ (sampOf d true w).ovr = clip ∧ (sampOf d true w).val = z := by
  simp only [sampOf, hz, hf, hc, Bool.not_false, Bool.and_true, Bool.true_and, and_self]

theorem sampOf_mem (s : State) (d : Delivery) (good : Bool) (w : BitVec 40) :
    sampOf d good w ∈ cellAt [] d.chan (s.mteSample d good w).mte.cur := by
  unfold State.mteSample
  dsimp only
  rw [cellAt_put_same]
  exact mem_putSamp _ _

/-- A conversion reaches the sums of its converter and metrology. -/
theorem sample_delivered {s : State} {w : SampleIn} (hc : w.conv.val < 64)
    (hr : s.pageRuns (0x020 + bankOf w.conv.val) = true)
    (hen : s.on (ACS_EN (bankOf w.conv.val) (posOf w.conv.val)) = true) (hp : partnerOf s.pairing w.conv.val = none)
    (hl : ∀ l, (s.conv w.conv.val).last = some l → l + 62 ≤ s.ticks)
    (hi : s.on (ACS_INT_EN (bankOf w.conv.val) (posOf w.conv.val)) = false)
    (he : w.errCtf = 0 ∧ w.errMte = 0 ∧ w.errPqe = 0) :
    Answers (.sampleWord w) s fun t =>
      (t.conv w.conv.val).raw = (s.conv w.conv.val).raw.add w.raw.toInt
        (w.raw.toInt + signed 24 (s.rd (ACS_OFS (bankOf w.conv.val) (posOf w.conv.val)))) ∧
      (∃ x ∈ cellAt [] w.conv.val t.mte.cur, x.idx = 2 * w.pos.val ∧ x.ok = true ∧ x.ovr = w.clip ∧
        x.val = sat24 (correct w.raw.toInt (signed 24 (s.rd (ACS_OFS (bankOf w.conv.val) (posOf w.conv.val))))
          (s.rd (ACS_GAIN (bankOf w.conv.val) (posOf w.conv.val))))) ∧
      t.ctf.ph = max s.ctf.ph (64 * w.pos.val) ∧ t.events = s.events := by
  obtain ⟨u, test, result, raw, events, ph, -⟩ := convert_plain hc hen hp hl hi rfl rfl
  have command : exec (.sampleWord w) s = .next ((s.convert w).1.deliverSample w (s.convert w).2) := by
    change execSampleWord w s = _
    unfold execSampleWord
    rw [if_neg (by rw [hr]; decide), result]
    exact congrArg Host.Outcome.next (if_neg (by dsimp only; omega))
  rw [result, deliver_good u hc he] at command
  generalize hz : sat24 (correct w.raw.toInt (signed 24 (s.rd (ACS_OFS (bankOf w.conv.val) (posOf w.conv.val))))
    (s.rd (ACS_GAIN (bankOf w.conv.val) (posOf w.conv.val)))) = z at command
  generalize hlow : unsigned 24 z + b2n w.clip * 2 ^ 25 + b2n test * 2 ^ 26 = low at command
  have range : -8388607 ≤ z ∧ z ≤ 8388607 := hz ▸ sat24_range _
  obtain ⟨value, fresh, clip⟩ := sampleWord_bits u.stamp.cyc w.conv.val (64 * w.pos.val) (z := z) (by omega) (by omega)
    w.clip test (by rw [hlow])
  obtain ⟨ok, ovr, val⟩ := sampOf_good ⟨w.conv.val, 64 * w.pos.val, false, _⟩ value fresh clip
  refine ⟨_, command, raw, ⟨_, sampOf_mem u ⟨w.conv.val, 64 * w.pos.val, false, _⟩ true _, ?_, ok, ovr, val⟩, ph,
    events⟩
  show 64 * w.pos.val / 32 = 2 * w.pos.val
  omega

/-- Settles O20. -/
theorem samplesComplete : Obligations.SamplesComplete := by
  unfold Obligations.SamplesComplete
  refine ⟨fun s w hr => ?_, fun s w hc hr hen hp hl hi h1 h2 h3 => sample_delivered hc hr hen hp hl hi ⟨h1, h2, h3⟩,
    fun s ch he hp ht hr hf => contTest_starts he hp ht hr hf, fun s ch hch ht hd h1 h2 => contTest_result hch ht hd h1
      h2⟩
  exact ⟨s, congrArg Host.Outcome.next (if_pos hr), rfl⟩

/-! ### What the events of power quality leave -/

/-- The PQE without its open events and its record number, the verdicts, the configuration in force. -/
def State.pqeKept (s : State) : PqeState × Nat × List (Nat × Word) :=
  ({ s.pqe with opens := [], seq := 0 }, s.rd PQE_VSV, s.inForce)

theorem pqeKept_of {s t : State} (hp : t.pqe = s.pqe) (hr : t.rd PQE_VSV = s.rd PQE_VSV) (hf : t.inForce = s.inForce) :
    t.pqeKept = s.pqeKept := by
  rw [State.pqeKept, State.pqeKept, hp, hr, hf]

theorem pqeKept_wr {f : Fld} (hf : f.free PQE_VSV = true) (s : State) (v : Nat) : (s.wr f v).pqeKept = s.pqeKept :=
  pqeKept_of (by simp only [wr_frame]) (rd_wr_free hf s v) (by simp only [wr_frame])

theorem pqeRing_free {w : Nat} (h : w < 64) : (PQE_RING w).free PQE_VSV = true := by
  revert h
  revert w
  decide

theorem pqeKept_pqeRecord (s : State) (kind : Nat) (close : Bool) (c : Status) (dur ch val1 val2 by' : Nat) :
    (s.pqeRecord kind close c dur ch val1 val2 by').pqeKept = s.pqeKept := by
  have room : s.rd PQE_RING_WR < 64 := rd_lt s (f := PQE_RING_WR) rfl
  have raised (u : State) (b : Nat) : (u.raise 0x070 b).pqeKept = u.pqeKept := pqeKept_wr (by decide) u _
  have numbered (u : State) : (u.setPqe fun p => { p with seq := (p.seq + 1) % 256 }).pqeKept = u.pqeKept := rfl
  unfold State.pqeRecord
  dsimp only
  split
  · rw [raised]
    exact pqeKept_wr (by decide) s _
  · rw [raised, numbered, pqeKept_wr (by decide), pqeKept_wr (pqeRing_free room)]

theorem pqeKept_pqeLog (s : State) (kind : Nat) (close : Bool) (ch val1 val2 : Nat) :
    (s.pqeLog kind close ch val1 val2).pqeKept = s.pqeKept := by
  have logged (u : State) (c t d : Nat) : (u.log c t d).pqeKept = u.pqeKept := rfl
  unfold State.pqeLog
  simp only [apply_ite State.pqeKept, logged, ite_self]

theorem pqeKept_openEvent (s : State) (kind ch ext val2 : Nat) : (s.openEvent kind ch ext val2).pqeKept = s.pqeKept :=
  (pqeKept_pqeLog _ _ _ _ _ _).trans (pqeKept_pqeRecord s _ _ _ _ _ _ _ _)

theorem pqeKept_setEvent (s : State) (kind ch : Nat) (f : PqEvent → PqEvent) :
    (s.setEvent kind ch f).pqeKept = s.pqeKept := rfl

theorem pqeKept_closeEvent (s : State) (kind ch : Nat) : (s.closeEvent kind ch).pqeKept = s.pqeKept := by
  unfold State.closeEvent
  split
  · exact (pqeKept_pqeLog _ _ _ _ _ _).trans (pqeKept_pqeRecord s _ _ _ _ _ _ _ _)
  · rfl

theorem pqeKept_busEvent (s : State) (kind bus : Nat) (x : Nat × Nat) (opens closes : Bool) :
    (s.busEvent kind bus x opens closes).pqeKept = s.pqeKept := by
  unfold State.busEvent
  dsimp only
  split
  · simp only [apply_ite State.pqeKept, pqeKept_openEvent, ite_self]
  · simp only [apply_ite State.pqeKept, pqeKept_closeEvent, pqeKept_setEvent, ite_self]

theorem pqeKept_busEvents (s : State) (bus : Nat) : (s.busEvents bus).pqeKept = s.pqeKept := by
  unfold State.busEvents
  split
  · rfl
  · dsimp only
    rw [pqeKept_busEvent, pqeKept_busEvent, pqeKept_busEvent]

theorem bits_mod {n w lo k : Nat} (h : lo + k ≤ w) : bits (n % 2 ^ w) lo k = bits n lo k := by
  refine Nat.eq_of_testBit_eq fun i => ?_
  rw [testBit_bits, testBit_bits, Nat.testBit_mod_two_pow]
  by_cases hi : i < k
  · have inside : lo + i < w := by omega
    simp only [hi, inside, decide_true, Bool.true_and]
  · simp only [hi, decide_false, Bool.false_and]

/-! ### Verdicts -/

theorem verdict_of_kept {s t : State} (h : t.pqeKept = s.pqeKept) (c : Nat) : t.verdict c = s.verdict c := by
  have word : t.rd PQE_VSV = s.rd PQE_VSV := congrArg (·.2.1) h
  rw [State.verdict, State.verdict, word]

theorem vs_of_kept {s t : State} (h : t.pqeKept = s.pqeKept) : t.pqe.vs = s.pqe.vs := congrArg (·.1.vs) h

/-- A change of a verdict. -/
def State.giveVerdict (s : State) (c v : Nat) : State :=
  (s.wr PQE_VSV (putBits (s.rd PQE_VSV) (4 * (c - 1)) 4 v)).raise 0x070 2

theorem word_giveVerdict (s : State) {c v : Nat} (hc : c ≤ 6) : (s.giveVerdict c v).rd PQE_VSV =
    putBits (s.rd PQE_VSV) (4 * (c - 1)) 4 v % 2 ^ PQE_VSV.width := by
  rw [State.giveVerdict, rd_raise_free (by decide), rd_wr_same _ _ _ (by decide)]

theorem verdict_setVerdict_same (s : State) {c v : Nat} (hc : c ≤ 6) (hv : v < 16) :
    (s.setVerdict c v).verdict c = v := by
  have given : (s.giveVerdict c v).verdict c = v := by
    rw [State.verdict, word_giveVerdict s hc]
    show bits (putBits _ (4 * (c - 1)) 4 v % 2 ^ 24) (4 * (c - 1)) 4 = v
    rw [bits_mod (by omega), bits_putBits_same, Nat.mod_eq_of_lt (by exact hv)]
  unfold State.setVerdict
  split
  case isTrue h => exact h
  case isFalse =>
    split
    · exact given
    · exact (verdict_of_kept (pqeKept_setEvent (s.giveVerdict c v) _ _ _) c).trans given

theorem verdict_setVerdict_other (s : State) {c d : Nat} (v : Nat) (hc : c ≤ 6) (hd : d ≤ 6) (hc1 : 1 ≤ c) (hd1 : 1 ≤ d)
    (h : d ≠ c) : (s.setVerdict c v).verdict d = s.verdict d := by
  have given : (s.giveVerdict c v).verdict d = s.verdict d := by
    rw [State.verdict, word_giveVerdict s hc]
    show bits (putBits _ (4 * (c - 1)) 4 v % 2 ^ 24) (4 * (d - 1)) 4 = _
    rw [bits_mod (by omega), bits_putBits_other _ _ _ _ _ _ (by omega)]
    rfl
  unfold State.setVerdict
  split
  case isTrue h => rfl
  case isFalse =>
    split
    · exact given
    · exact (verdict_of_kept (pqeKept_setEvent (s.giveVerdict c v) _ _ _) d).trans given

/-- What the windows of the phases rest on. -/
def State.windowKept (s : State) : Nat × List (Nat × (Nat × Nat)) × List (Nat × Word) :=
    (s.pqe.due, s.pqe.win, s.inForce)

theorem windowKept_of_kept {s t : State} (h : t.pqeKept = s.pqeKept) : t.windowKept = s.windowKept :=
  congrArg (fun x => (x.1.due, x.1.win, x.2.2)) h

theorem windowKept_setVerdict (s : State) (c v : Nat) : (s.setVerdict c v).windowKept = s.windowKept := by
  have given : (s.giveVerdict c v).windowKept = s.windowKept := by
    simp only [State.windowKept, State.giveVerdict, raise_frame, wr_frame]
  unfold State.setVerdict
  split
  · rfl
  · split <;> exact given

theorem windowKept_openSense (s : State) (c : Nat) : (s.openSense c).windowKept = s.windowKept := by
  unfold State.openSense
  refine Eq.trans (b := State.windowKept (State.setVerdict _ c vsLow)) rfl ?_
  rw [windowKept_setVerdict, apply_ite State.windowKept, windowKept_of_kept (pqeKept_openEvent _ _ _ _ _), ite_self]

theorem windowKept_closeSense (s : State) (c : Nat) : (s.closeSense c).windowKept = s.windowKept := by
  unfold State.closeSense
  refine Eq.trans (b := State.windowKept (State.setVerdict _ c vsNormal)) rfl ?_
  rw [windowKept_setVerdict, windowKept_of_kept (pqeKept_closeEvent _ _ _)]

theorem windowKept_senseWindow (s : State) (mid : Bool) (c : Nat) :
    (s.senseWindow mid c).windowKept = s.windowKept := by
  unfold State.senseWindow
  dsimp only
  split
  · rfl
  split
  · simp only [apply_ite State.windowKept, windowKept_openSense, ite_self]
  split
  · split <;> rfl
  · exact windowKept_closeSense s c

/-- A window of another phase leaves the verdict. -/
theorem verdict_senseWindow_other (s : State) (mid : Bool) {c d : Nat} (hc : c ≤ 6) (hd : d ≤ 6) (hc1 : 1 ≤ c)
    (hd1 : 1 ≤ d) (h : d ≠ c) : (s.senseWindow mid c).verdict d = s.verdict d := by
  have opened : (s.openSense c).verdict d = s.verdict d := by
    unfold State.openSense
    refine Eq.trans (b := State.verdict (State.setVerdict _ c vsLow) d) rfl ?_
    rw [verdict_setVerdict_other _ _ hc hd hc1 hd1 h, apply_ite (State.verdict · d),
      verdict_of_kept (pqeKept_openEvent _ _ _ _ _), ite_self]
  have closed : (s.closeSense c).verdict d = s.verdict d := by
    unfold State.closeSense
    refine Eq.trans (b := State.verdict (State.setVerdict _ c vsNormal) d) rfl ?_
    rw [verdict_setVerdict_other _ _ hc hd hc1 hd1 h, verdict_of_kept (pqeKept_closeEvent _ _ _)]
  unfold State.senseWindow
  dsimp only
  split
  · rfl
  split
  · simp only [apply_ite (State.verdict · d), opened, ite_self]
  split
  · split <;> rfl
  · exact closed

/-- A normal phase whose window lies below the loss threshold becomes LOW. -/
theorem verdict_senseWindow_low {s : State} (mid : Bool) {c : Nat} (hc : c ≤ 6) (hx : cellAt (0, 0) c s.pqe.win ≠
    (0, 0))
    (hv : s.verdict c = vsNormal)
    (hb : rmsBelow (cellAt (0, 0) c s.pqe.win) (s.cfg PQE_LOSS_TH) (s.udin (busOf c)) = true) :
    (s.senseWindow mid c).verdict c = vsLow := by
  unfold State.senseWindow
  dsimp only
  rw [if_neg hx, if_pos (.inl hv), if_pos hb]
  unfold State.openSense
  refine Eq.trans (b := State.verdict (State.setVerdict _ c vsLow) c) rfl ?_
  exact verdict_setVerdict_same _ hc (by decide)

/-! ### The windows -/

theorem modePhases_codes (m : Nat) : (modePhases m).Nodup ∧ ∀ v ∈ modePhases m, 1 ≤ v ∧ v ≤ 3 := by
  unfold modePhases
  split <;> decide

/-- The phases of the two buses are different codes from 1 to 6. -/
theorem phases_codes (force : List (Nat × Word)) : (busPhases force 1 ++ busPhases force 2).Nodup ∧
    ∀ c ∈ busPhases force 1 ++ busPhases force 2, 1 ≤ c ∧ c ≤ 6 := by
  obtain ⟨nodup1, codes1⟩ := modePhases_codes (busMode force 1)
  obtain ⟨nodup2, codes2⟩ := modePhases_codes (busMode force 2)
  have shift (k : Nat) : Function.Injective fun v : Nat => v + 3 * k := fun a b h => Nat.add_right_cancel h
  have of1 : ∀ c ∈ busPhases force 1, 1 ≤ c ∧ c ≤ 3 := by
    intro c hc
    obtain ⟨v, hv, rfl⟩ := List.mem_map.mp hc
    exact codes1 v hv
  have of2 : ∀ c ∈ busPhases force 2, 4 ≤ c ∧ c ≤ 6 := by
    intro c hc
    obtain ⟨v, hv, rfl⟩ := List.mem_map.mp hc
    have := codes2 v hv
    omega
  refine ⟨List.Nodup.append (nodup1.map (shift 0)) (nodup2.map (shift 1)) fun c h1 h2 => ?_, fun c hc => ?_⟩
  · have := of1 c h1
    have := of2 c h2
    omega
  · obtain h | h := List.mem_append.mp hc
    · have := of1 c h
      omega
    · have := of2 c h
      omega

theorem windowKept_senses (mid : Bool) (l : List Nat) (s : State) :
    (l.foldl (fun s c => s.senseWindow mid c) s).windowKept = s.windowKept :=
  foldl_keeps (fun u c => windowKept_senseWindow u mid c) l s

theorem udin_of_kept {s t : State} (h : t.windowKept = s.windowKept) (f : Fld) (bus : Nat) :
    t.cfg f = s.cfg f ∧ t.udin bus = s.udin bus ∧ t.pqe.win = s.pqe.win := by
  simp only [State.windowKept, Prod.mk.injEq] at h
  obtain ⟨-, win, force⟩ := h
  simp only [State.udin, State.cfg, State.regIn, force, win, and_self]

/-- The phases other than `c` leave its verdict. -/
theorem verdict_senses_other (mid : Bool) {c : Nat} (hc : 1 ≤ c ∧ c ≤ 6) (l : List Nat)
    (hl : ∀ d ∈ l, 1 ≤ d ∧ d ≤ 6) (hn : c ∉ l) (s : State) :
    (l.foldl (fun s d => s.senseWindow mid d) s).verdict c = s.verdict c := by
  induction l generalizing s with
  | nil => rfl
  | cons d l ih =>
    have hd := hl d List.mem_cons_self
    refine (ih (fun x hx => hl x (List.mem_cons_of_mem _ hx)) (fun h => hn (List.mem_cons_of_mem _ h)) _).trans ?_
    exact verdict_senseWindow_other s mid hd.2 hc.2 hd.1 hc.1 fun h => hn (h ▸ List.mem_cons_self)

theorem verdict_senses_low (mid : Bool) {c : Nat} (l : List Nat) (hl : ∀ d ∈ l, 1 ≤ d ∧ d ≤ 6) (hn : l.Nodup)
    (hc : c ∈ l) (s : State) (hx : cellAt (0, 0) c s.pqe.win ≠ (0, 0)) (hv : s.verdict c = vsNormal)
    (hb : rmsBelow (cellAt (0, 0) c s.pqe.win) (s.cfg PQE_LOSS_TH) (s.udin (busOf c)) = true) :
    (l.foldl (fun s d => s.senseWindow mid d) s).verdict c = vsLow := by
  induction l generalizing s with
  | nil => exact absurd hc List.not_mem_nil
  | cons d l ih =>
    have hd := hl d List.mem_cons_self
    have rest : ∀ x ∈ l, 1 ≤ x ∧ x ≤ 6 := fun x hx => hl x (List.mem_cons_of_mem _ hx)
    obtain ⟨fresh, hn⟩ := List.nodup_cons.mp hn
    rw [List.foldl_cons]
    by_cases same : d = c
    · subst same
      rw [verdict_senses_other mid hd l rest fresh]
      exact verdict_senseWindow_low mid hd.2 hx hv hb
    · have hc' : c ∈ l := (List.mem_cons.mp hc).resolve_left (Ne.symm same)
      obtain ⟨cfg, udin, win⟩ := udin_of_kept (windowKept_senseWindow s mid d) PQE_LOSS_TH (busOf c)
      refine ih rest hn hc' _ (win ▸ hx) ?_ (by rw [win, cfg, udin]; exact hb)
      rw [verdict_senseWindow_other s mid hd.2 (rest c hc').2 hd.1 (rest c hc').1 (Ne.symm same), hv]

/-- The windows that PQE_WINDOW keeps. -/
def State.takeWindows (s : State) (mid : Bool) (cs : List Nat) : List (Nat × (Nat × Nat)) :=
  cs.foldl (fun l c => match usableValues (s.windowOf mid (chanOfCode c)) with
    | some v => cellPut (0, 0) c (squares v) l
    | none => cellErase c l) []

theorem takeWindows_at (s : State) (mid : Bool) {c : Nat} {v : List Int} (cs : List Nat) (hc : c ∈ cs)
    (hv : usableValues (s.windowOf mid (chanOfCode c)) = some v) :
    cellAt (0, 0) c (s.takeWindows mid cs) = squares v := by
  have step (l : List (Nat × (Nat × Nat))) (cs : List Nat) (h : c ∈ cs ∨ cellAt (0, 0) c l = squares v) :
      cellAt (0, 0) c (cs.foldl (fun l c => match usableValues (s.windowOf mid (chanOfCode c)) with
        | some v => cellPut (0, 0) c (squares v) l
        | none => cellErase c l) l) = squares v := by
    induction cs generalizing l with
    | nil => exact h.resolve_left List.not_mem_nil
    | cons d cs ih =>
      refine ih _ ?_
      by_cases same : c = d
      · subst same
        refine .inr ?_
        dsimp only
        rw [hv]
        exact cellAt_put_same _ _ _ _
      · obtain h | h := h
        · exact .inl ((List.mem_cons.mp h).resolve_left same)
        · refine .inr ?_
          dsimp only
          split
          · rw [cellAt_put_other _ _ same, h]
          · rw [cellAt_erase_other _ same, h]
  exact step [] cs (.inl hc)

/-- What PQE_WINDOW does at the phase of the window. -/
def State.feedEvents (s : State) (mid : Bool) (cs : List Nat) : State :=
  ((cs.foldl (fun s c => s.senseWindow mid c) s).busEvents 1).busEvents 2

theorem pqeWindow_eq {s : State} (hd : s.pqe.due ≠ 0) (hr : s.pqeRuns = true) :
    exec .pqeWindow s = .next (
      let mid := s.pqe.due == 2
      let u := if mid then s.advanceTo 32768 else s
      let cs := busPhases u.inForce 1 ++ busPhases u.inForce 2
      (u.setPqe fun p => { p with due := if mid then 0 else 2, win := u.takeWindows mid cs }).atPhase
        (if mid then 32768 else 0) fun s => s.feedEvents mid cs) := by
  change execPqeWindow s = _
  unfold execPqeWindow
  rw [if_neg (by simp [hd, hr])]
  rfl

theorem atPhase_frame (s : State) (p : Nat) (f : State → State) : (s.atPhase p f).ctf.ph = s.ctf.ph ∧
    (s.atPhase p f).pqe = (f { s with ticks := s.ctf.cycTick + p, ctf := { s.ctf with ph := p } }).pqe ∧
    (s.atPhase p f).regs = (f { s with ticks := s.ctf.cycTick + p, ctf := { s.ctf with ph := p } }).regs :=
      ⟨rfl, rfl, rfl⟩

theorem windowKept_feedEvents (s : State) (mid : Bool) (cs : List Nat) :
    (s.feedEvents mid cs).windowKept = s.windowKept := by
  unfold State.feedEvents
  rw [windowKept_of_kept (pqeKept_busEvents _ 2), windowKept_of_kept (pqeKept_busEvents _ 1), windowKept_senses]

theorem window_low {s : State} (hd : s.pqe.due = 1) (hr : s.pqeRuns = true) :
    Answers .pqeWindow s fun t => t.pqe.due = 2 ∧
      ∀ (c : Nat) (v : List Int), c ∈ busPhases s.inForce 1 ++ busPhases s.inForce 2 →
        usableValues (s.windowOf false (chanOfCode c)) = some v → squares v ≠ (0, 0) →
        s.verdict c = vsNormal → rmsBelow (squares v) (s.cfg PQE_LOSS_TH) (s.udin (busOf c)) = true →
        t.verdict c = vsLow := by
  have command := pqeWindow_eq (by rw [hd]; decide) hr
  have early : (s.pqe.due == 2) = false := by rw [hd]; rfl
  simp only [early, Bool.false_eq_true, if_false] at command
  refine ⟨_, command, ?_, fun c v hc hv hx hn hb => ?_⟩
  · rw [(atPhase_frame _ _ _).2.1]
    exact congrArg (·.1) (windowKept_feedEvents _ _ _)
  · obtain ⟨nodup, codes⟩ := phases_codes s.inForce
    have word {t u : State} (h : t.regs = u.regs) : t.verdict c = u.verdict c := by
      rw [State.verdict, State.verdict, rd_of_regs h]
    rw [word (atPhase_frame _ _ _).2.2, State.feedEvents, verdict_of_kept (pqeKept_busEvents _ 2),
      verdict_of_kept (pqeKept_busEvents _ 1)]
    have taken := takeWindows_at s false _ hc hv
    refine verdict_senses_low false _ codes nodup hc _ ?_ ?_ ?_
    · exact taken ▸ hx
    · exact (word (u := s) rfl).trans hn
    · exact taken ▸ hb

theorem window_half {s : State} (hd : s.pqe.due = 2) (hr : s.pqeRuns = true) :
    Answers .pqeWindow s fun t => t.pqe.due = 0 ∧ 32768 ≤ t.ctf.ph := by
  have command := pqeWindow_eq (by rw [hd]; decide) hr
  have late : (s.pqe.due == 2) = true := by rw [hd]; rfl
  simp only [late, if_true] at command
  refine ⟨_, command, ?_, ?_⟩
  · rw [(atPhase_frame _ _ _).2.1]
    exact congrArg (·.1) (windowKept_feedEvents _ _ _)
  · obtain ⟨-, -, -, -, ph, -⟩ := advanceTo_frame s (p := 32768) (by decide)
    rw [(atPhase_frame _ _ _).1]
    exact ph ▸ Nat.le_max_right _ _

/-! ### The classification of a phase -/

theorem classifyDue_other {s : State} {c d : Nat} {v : VSense} (hvs : s.pqe.vs = [(c, v)]) (h : d ≠ c) :
    s.classifyDue d = s := by
  have none : (s.pqe.vs.find? fun e => e.1 == d) = none := by
    rw [hvs, List.find?_singleton, if_neg (by simpa using Ne.symm h)]
  unfold State.classifyDue
  rw [none]

theorem classifyDue_same {s : State} {c : Nat} {v : VSense} (hvs : s.pqe.vs = [(c, v)]) (hc : c ≤ 6)
    (hl : s.verdict c = vsLow) (hh : 2 * s.cfg PQE_CLS_CYC ≤ v.half) (hs : v.seen = false) :
    (s.classifyDue c).verdict c = s.classify c v ∧ ∃ w, (s.classifyDue c).pqe.vs = [(c, w)] := by
  have found : (s.pqe.vs.find? fun e => e.1 == c) = some (c, v) := by
    rw [hvs, List.find?_singleton, if_pos (by simp)]
  have small : s.classify c v < 16 := by
    unfold State.classify
    dsimp only
    repeat' split
    all_goals decide
  have inserted : cellInsert c { v with seen := true, again := false } s.pqe.vs =
      [(c, { v with seen := true, again := false })] := by
    rw [hvs]
    simp [cellInsert]
  have setVs (u : State) (r : Nat) : (u.setVerdict c r).pqe.vs = u.pqe.vs := by
    unfold State.setVerdict
    split
    · rfl
    · split <;> simp only [State.setEvent, State.setPqe, raise_frame, wr_frame]
  unfold State.classifyDue
  rw [found]
  dsimp only
  rw [if_pos ⟨hl, hh, .inl hs⟩]
  split
  · have opened (u : State) (o : PqeState → List PqEvent) :
        (u.setPqe fun p => { p with opens := o p }).pqeKept = u.pqeKept := rfl
    rw [verdict_of_kept (pqeKept_busEvents _ _), vs_of_kept (pqeKept_busEvents _ _), verdict_of_kept (opened _ _),
      vs_of_kept (opened _ _)]
    exact ⟨verdict_setVerdict_same _ hc small, _, (setVs _ _).trans inserted⟩
  · exact ⟨verdict_setVerdict_same _ hc small, _, (setVs _ _).trans inserted⟩

theorem classify_phase {s : State} {c : Nat} {v : VSense} (hr : s.pqeRuns = true) (h1 : 1 ≤ c) (h6 : c ≤ 6)
    (hvs : s.pqe.vs = [(c, v)]) (hl : s.verdict c = vsLow) (hh : 2 * s.cfg PQE_CLS_CYC ≤ v.half) (hs : v.seen = false) :
    Answers .vsenseClassify s fun t => t.verdict c = s.classify c v := by
  have others (l : List Nat) (hn : c - 1 ∉ l) (u : State) (w : VSense) (hw : u.pqe.vs = [(c, w)]) :
      l.foldl (fun s k => s.classifyDue (k + 1)) u = u := by
    induction l generalizing u with
    | nil => rfl
    | cons k l ih =>
      have other : k + 1 ≠ c := fun h => hn (by rw [← h]; exact List.mem_cons_self)
      rw [List.foldl_cons, classifyDue_other hw other]
      exact ih (fun h => hn (List.mem_cons_of_mem _ h)) u hw
  have command : exec .vsenseClassify s = .next ((List.range 6).foldl (fun s k => s.classifyDue (k + 1)) s) :=
    congrArg Host.Outcome.next (if_pos hr)
  refine ⟨_, command, ?_⟩
  obtain ⟨before, after, parted⟩ := List.append_of_mem (List.mem_range.mpr (by omega : c - 1 < 6))
  have nodup : (before ++ (c - 1) :: after).Nodup := parted ▸ List.nodup_range
  have fresh := (List.nodup_cons.mp (List.nodup_middle.mp nodup)).1
  rw [List.mem_append, not_or] at fresh
  obtain ⟨first, last⟩ := fresh
  obtain ⟨given, w, kept⟩ := classifyDue_same hvs h6 hl hh hs
  rw [parted, List.foldl_append, others before first s v hvs, List.foldl_cons, Nat.sub_add_cancel h1,
    others after last _ w kept, given]

/-! ### The end of a block -/

theorem cellAt_of_mem {α : Type} (d : α) {k : Nat} {l : List (Nat × α)} (h : k ∈ l.map (·.1)) :
    (k, cellAt d k l) ∈ l := by
  induction l with
  | nil => exact absurd h List.not_mem_nil
  | cons x l ih =>
    obtain ⟨j, v⟩ := x
    rw [cellAt]
    split
    case isTrue same =>
      rw [same]
      exact List.mem_cons_self
    case isFalse other =>
      exact List.mem_cons_of_mem _ (ih ((List.mem_cons.mp h).resolve_left other))

theorem blockResult_says (s : State) (b : PqeBlock) (ch : Nat) : (s.blockResult b ch).1.cyc = b.cyc ∧
    ((cellAt {} ch b.chans).used = 0 → (s.blockResult b ch).1.sts = codeOf .skipped) := by
  unfold State.blockResult
  dsimp only
  split
  · exact ⟨rfl, fun _ => rfl⟩
  · next h => exact ⟨rfl, fun unused => absurd (.inl unused) h⟩

/-- The results of an ended block, the state threaded through the channels. -/
def State.blockResults (s : State) (b : PqeBlock) : List (Nat × HarmRes) × State :=
  (List.range 72).foldl (fun (x : List (Nat × HarmRes) × State) ch =>
    (x.1 ++ [(ch, (x.2.blockResult b ch).1)], (x.2.blockResult b ch).2)) ([], s)

theorem blockResults_says (s : State) (b : PqeBlock) :
    (s.blockResults b).1.map (·.1) = List.range 72 ∧ ∀ x ∈ (s.blockResults b).1, x.2.cyc = b.cyc ∧
      ((cellAt {} x.1 b.chans).used = 0 → x.2.sts = codeOf .skipped) := by
  have step (l : List Nat) (x : List (Nat × HarmRes) × State)
      (hx : ∀ y ∈ x.1, y.2.cyc = b.cyc ∧ ((cellAt {} y.1 b.chans).used = 0 → y.2.sts = codeOf .skipped)) :
      let z := l.foldl (fun (x : List (Nat × HarmRes) × State) ch =>
        (x.1 ++ [(ch, (x.2.blockResult b ch).1)], (x.2.blockResult b ch).2)) x
      z.1.map (·.1) = x.1.map (·.1) ++ l ∧
        ∀ y ∈ z.1, y.2.cyc = b.cyc ∧ ((cellAt {} y.1 b.chans).used = 0 → y.2.sts = codeOf .skipped) := by
    induction l generalizing x with
    | nil => exact ⟨(List.append_nil _).symm, hx⟩
    | cons ch l ih =>
      obtain ⟨named, said⟩ := ih (x.1 ++ [(ch, (x.2.blockResult b ch).1)], (x.2.blockResult b ch).2) (by
        intro y hy
        obtain hy | hy := List.mem_append.mp hy
        · exact hx y hy
        · rw [List.mem_singleton.mp hy]
          exact blockResult_says x.2 b ch)
      refine ⟨named.trans ?_, said⟩
      rw [List.map_append, List.append_assoc]
      rfl
  exact step (List.range 72) ([], s) (by simp)

theorem pqeKept_unbalance (s : State) (b : PqeBlock) (bus : Nat) : (s.unbalance b bus).pqeKept = s.pqeKept := by
  have written (u : State) (v : Nat) : (u.wr (if bus = 1 then PQE_U2_1 else PQE_U2_2) v).pqeKept = u.pqeKept := by
    refine pqeKept_wr ?_ u v
    split <;> decide
  have drawn (v : Nat) : State.pqeKept (if v < 65536 then (v, s) else s.draw 16).2 = s.pqeKept := by
    split <;> rfl
  unfold State.unbalance
  dsimp only
  split
  · rfl
  · split
    · simp only [apply_ite State.pqeKept, pqeKept_openEvent, written, drawn, ite_self]
    · simp only [apply_ite State.pqeKept, pqeKept_closeEvent, pqeKept_setEvent, written, drawn, ite_self]

theorem block_latched {s : State} {b : PqeBlock} (hb : s.pqe.ended = some b) (hr : s.pqeRuns = true) :
    Answers .pqeBlockEnd s fun t => t.pqe.ended = none ∧ bit (t.rd (IRQ_RAW 0x070)) 0 = true ∧
      ∀ ch : Fin 72, (cellAt {} ch.val t.pqe.res).cyc = b.cyc ∧
        ((cellAt {} ch.val b.chans).used = 0 → (cellAt {} ch.val t.pqe.res).sts = codeOf .skipped) := by
  let u := (s.blockResults b).2.setPqe fun p => { p with
    ended := none, res := (s.blockResults b).1, vs := p.vs.map fun e => (e.1, { e.2 with again := e.2.seen }) }
  have command : exec .pqeBlockEnd s = .next (((u.unbalance b 1).unbalance b 2).raise 0x070 0) := by
    change execPqeBlockEnd s = _
    unfold execPqeBlockEnd
    rw [hb]
    exact congrArg Host.Outcome.next (if_pos hr)
  have kept := (pqeKept_unbalance (u.unbalance b 1) b 2).trans (pqeKept_unbalance u b 1)
  have res : ((u.unbalance b 1).unbalance b 2).pqe.res = (s.blockResults b).1 := congrArg (·.1.res) kept
  have ended : ((u.unbalance b 1).unbalance b 2).pqe.ended = none := congrArg (·.1.ended) kept
  obtain ⟨named, said⟩ := blockResults_says s b
  refine ⟨_, command, ?_, bit_raise_same _ _ (by decide), fun ch => ?_⟩
  · simp only [raise_frame, ended]
  · simp only [raise_frame, res]
    have listed := cellAt_of_mem ({} : HarmRes) (k := ch.val) (l := (s.blockResults b).1)
      (by rw [named]; exact List.mem_range.mpr ch.isLt)
    exact said (ch.val, cellAt {} ch.val (s.blockResults b).1) listed

/-! ### The harmonic window -/

theorem reg_harmWindow (s : State) (page : Nat) (w : Nat → Nat) (l : List Nat) (o : Nat)
    (h : o ∈ l ∨ s.reg page o = w o % 2 ^ 32)
    : (l.foldl (fun t o => t.setReg page o (w o)) s).reg page o = w o % 2 ^ 32 := by
  induction l generalizing s with
  | nil => exact h.resolve_left List.not_mem_nil
  | cons p l ih =>
    refine ih _ ?_
    by_cases same : o = p
    · exact .inr (same ▸ reg_setReg_same s page o (w o))
    · obtain h | h := h
      · exact .inl ((List.mem_cons.mp h).resolve_left same)
      · refine .inr ?_
        rw [reg_setReg_other _ (by unfold regKey; omega), h]

/-- A read of the cycle marks the window as latched. -/
def State.latchCycle (s : State) : State :=
  { s with latched := regKey 0x070 0x06C :: s.latched.erase (regKey 0x070 0x06C) }

theorem latchCycle_regs (s : State) : s.latchCycle.regs = s.regs := rfl

theorem pqeRead_cycle (s : State) (port : Port) (tc : Nat) : pqeRead s ⟨port, tc, 0x070, 0x06C, none⟩ =
    (.ok, s.harmWord 0x06C, (harmOffs.foldl (fun t o => t.setReg 0x070 o (s.harmWord o)) s).latchCycle) := if_pos rfl

theorem window_read {s : State} {r : RegRead} (hw : s.admitsRead 0x070 0x06C r = true) :
    Answers (.pqeHcycRead r) s fun t => t.resp.code = .ok ∧ t.resp.data = [s.harmWord 0x06C] ∧
      (∀ o ∈ harmOffs, t.reg 0x070 o = s.harmWord o % 2 ^ 32) ∧ SameBut [.regs, .latched, .resp] s t := by
  have kept (l : List Nat) : State.except 1 (l.foldl (fun t o => t.setReg 0x070 o (s.harmWord o)) s) = State.except 1
    s :=
    foldl_keeps (fun t o => State.setReg_same 1 rfl t _ _ _) l s
  have shown (l : List Nat) (o : Nat) (ho : o ∈ l) :
      (l.foldl (fun t o => t.setReg 0x070 o (s.harmWord o)) s).reg 0x070 o = s.harmWord o % 2 ^ 32 :=
    reg_harmWindow s 0x070 s.harmWord l o (.inl ho)
  have kept := kept harmOffs
  have shown := shown harmOffs
  have read := pqeRead_cycle s r.port r.tc.val
  generalize harmOffs.foldl (fun t o => t.setReg 0x070 o (s.harmWord o)) s = v at kept shown read
  refine answers_read (h := pqeRead) rfl (by decide) hw read ⟨rfl, rfl, fun o ho => ?_, ?_⟩
  · rw [reg_answerRead, State.capture, if_pos (.inl rfl), ← shown o ho]
    exact reg_of_regs (latchCycle_regs v) _ _
  · refine sameBut_of_except ?_
    rw [State.answerRead_same _ rfl, State.capture, if_pos (.inl rfl)]
    exact (except_upd_latched _ rfl _).trans (except_mono rfl kept)

/-- Settles O25. -/
theorem powerQualityComplete : Obligations.PowerQualityComplete := by
  unfold Obligations.PowerQualityComplete
  exact ⟨fun s hd hr => window_low hd hr, fun s hd hr => window_half hd hr,
    fun s c v hr h1 h6 hvs hl hh hs => classify_phase hr h1 h6 hvs hl hh hs, fun s b hb hr => block_latched hb hr,
    fun s r hw => window_read hw⟩

end Sys2Proof.Machine

/-! ## The Tun array: entries, tiles and load-step bursts (O26, O27) -/

namespace Sys2Proof.Machine

open Reg

/-! ### Cells of the engines -/

theorem cellInsert_has {α : Type} (k : Nat) (v : α) (l : List (Nat × α)) : (k, v) ∈ cellInsert k v l := by
  induction l with
  | nil => simp [cellInsert]
  | cons x r ih =>
    obtain ⟨j, u⟩ := x
    unfold cellInsert
    split
    · exact List.mem_cons_self
    · split
      · exact List.mem_cons_self
      · exact List.mem_cons_of_mem _ ih

theorem cellErase_lacks {α : Type} (k : Nat) (l : List (Nat × α)) : ∀ y ∈ cellErase k l, y.1 ≠ k := by
  intro y hy
  rw [cellErase_eq_filter, List.mem_filter] at hy
  exact fun same => absurd hy.2 (by rw [same]; simp)

/-! ### Entries that nothing moves -/

/-- Windows, memory map, counters and resident regions, all that the checks of an entry read. -/
theorem entryStop_of_rd {s t : State} (h : ∀ f : Fld, (IRQ_RAW 0x080).free f = true → t.rd f = s.rd f) (k w : Nat)
    (alt : Bool) : t.entryStop k w alt = s.entryStop k w alt := by
  have ons (f : Fld) (hf : (IRQ_RAW 0x080).free f = true) : t.on f = s.on f := by
    rw [State.on, State.on, h f hf]
  have size : t.rd CCX_DDR_MIB = s.rd CCX_DDR_MIB := h _ (by decide)
  have ready : t.on CCX_DDR_READY = s.on CCX_DDR_READY := ons _ (by decide)
  have resident : t.rd TUN_RESV = s.rd TUN_RESV := h _ (by decide)
  have map : t.mapEnd = s.mapEnd := by
    funext a
    unfold State.mapEnd
    rw [size, ready]
  have window : t.windowEnd = s.windowEnd := by
    funext k tc wr a
    have en (i : Nat) : t.on (TUN_WIN_EN tc i) = s.on (TUN_WIN_EN tc i) :=
      ons _ (free_of_off rfl (by decide) (Nat.le_of_ble_eq_true rfl) (by simp only [IRQ_RAW, TUN_WIN_EN]; omega))
    have may (i : Nat) : t.on (if wr then TUN_WIN_W tc i else TUN_WIN_R tc i) =
        s.on (if wr then TUN_WIN_W tc i else TUN_WIN_R tc i) := by
      cases wr
      · exact ons (TUN_WIN_R tc i)
          (free_of_off rfl (by decide) (Nat.le_of_ble_eq_true rfl) (by simp only [IRQ_RAW, TUN_WIN_R]; omega))
      · exact ons (TUN_WIN_W tc i)
          (free_of_off rfl (by decide) (Nat.le_of_ble_eq_true rfl) (by simp only [IRQ_RAW, TUN_WIN_W]; omega))
    have base (i : Nat) : t.rd (TUN_WIN_BASE tc i) = s.rd (TUN_WIN_BASE tc i) :=
      h _ (free_of_off rfl (by decide) (Nat.le_of_ble_eq_true rfl) (by simp only [IRQ_RAW, TUN_WIN_BASE]; omega))
    have long (i : Nat) : t.rd (TUN_WIN_SIZE tc i) = s.rd (TUN_WIN_SIZE tc i) :=
      h _ (free_of_off rfl (by decide) (Nat.le_of_ble_eq_true rfl) (by simp only [IRQ_RAW, TUN_WIN_SIZE]; omega))
    simp only [State.windowEnd, en, may, base, long]
  have poison : t.waitPoisoned = s.waitPoisoned := by
    funext c
    rw [State.waitPoisoned, State.waitPoisoned, ons (TUN_SYNC_POIS (c % 128))
      (free_of_off rfl (by decide) (Nat.le_of_ble_eq_true rfl) (by simp only [IRQ_RAW, TUN_SYNC_POIS]; omega))]
  have spans : t.mapped = s.mapped := by
    funext a n
    rw [State.mapped, State.mapped, map]
  have grants : t.granted = s.granted := by
    funext k tc wr a n
    rw [State.granted, State.granted, window]
  have denied : t.firstDenied = s.firstDenied := by
    funext k tc l
    rw [State.firstDenied, State.firstDenied, spans, grants]
  have bad : t.entryBad = s.entryBad := by
    funext k w alt
    unfold State.entryBad
    rw [spans]
  have invalid : t.readsInvalid = s.readsInvalid := by
    funext k w alt
    unfold State.readsInvalid
    rw [resident]
  rw [State.entryStop, State.entryStop, denied, bad, poison, invalid]

theorem setSparge_tun (s : State) (l : List SpEntry) : (s.setSparge l).tun = { s.tun with sparge := l } := by
  unfold State.setSparge
  dsimp only
  split
  · rw [(show ∀ u : State, (u.raise 0x080 2).tun = u.tun from fun u => part_of_except (State.raise_same 1 rfl u _ _)
      .tun rfl)]
    rfl
  · rfl

theorem rd_setSparge {f : Fld} (h : (IRQ_RAW 0x080).free f = true) (s : State) (l : List SpEntry) :
    (s.setSparge l).rd f = s.rd f := by
  unfold State.setSparge
  dsimp only
  split
  · rw [rd_raise_free h]; exact rd_of_except (State.setTun_same 262144 rfl s _) rfl f
  · exact rd_of_except (State.setTun_same 262144 rfl s _) rfl f

theorem setSparge_self (s : State) : s.setSparge s.tun.sparge = s :=
  if_neg fun h => h.2 h.1

theorem filter_not_late {α : Type} {l : List α} {late : α → Bool} (h : ∀ y ∈ l, late y = false) :
    l.filter (fun y => !late y) = l ∧ l.filter late = [] := by
  refine ⟨List.filter_eq_self.mpr fun y hy => by rw [h y hy]; rfl, List.filter_eq_nil_iff.mpr fun y hy => ?_⟩
  rw [h y hy]
  decide

theorem expireEntries_self {s : State} (hl : ∀ y ∈ s.tun.sparge, deadlinePassed s.stamp.cyc
    (spDlc y.word.toNat) = false)
    (hs : ∀ y ∈ s.tun.staged, deadlinePassed s.stamp.cyc (spDlc y.2.word.toNat) = false) : s.expireEntries = s := by
  have list := filter_not_late hl
  have waiting := (filter_not_late (l := s.tun.staged) (late := fun y => deadlinePassed s.stamp.cyc
    (spDlc y.2.word.toNat)) hs).1
  have none : (s.tun.staged.map (·.2)).filter (fun e => deadlinePassed s.stamp.cyc (spDlc e.word.toNat)) = [] := by
    refine List.filter_eq_nil_iff.mpr fun e he => ?_
    obtain ⟨y, hy, rfl⟩ := List.mem_map.mp he
    rw [hs y hy]
    decide
  unfold State.expireEntries
  dsimp only
  rw [list.1, list.2, none, setSparge_self]
  simp only [State.setTun, waiting, List.append_nil, List.foldl_nil]

theorem settleSignals_self {s : State}
    (h : ∀ y ∈ s.tun.sparge, spOp y.word.toNat = 3 → ∀ k : Nat, k < 8 → s.eligible k y = false)
    (n : Nat) : s.settleSignals n = s := by
  cases n with
  | zero => rfl
  | succ n =>
    have none : (s.tun.sparge.find? fun e => spOp e.word.toNat == 3 && (List.range 8).any fun k => s.eligible k e) =
      none := by
      refine List.find?_eq_none.mpr fun y hy => ?_
      intro hit
      obtain ⟨hop, hany⟩ := Bool.and_eq_true_iff.mp hit
      obtain ⟨k, hk, hel⟩ := List.any_eq_true.mp hany
      rw [h y hy (by simpa using hop) k (List.mem_range.mp hk)] at hel
      cases hel
    simp only [State.settleSignals, none]

/-! ### What the bookkeeping of an entry leaves -/

theorem endEntry_tun (s : State) (e : SpEntry) (c : Status) : (s.endEntry e c).tun = s.tun :=
  part_of_except (State.endEntry_same 1048577 rfl s e c) .tun rfl

theorem endEntry_events (s : State) (e : SpEntry) (c : Status) : (s.endEntry e c).events = s.events :=
  part_of_except (State.endEntry_same 1048577 rfl s e c) .events rfl

theorem logStop_tun (s : State) (k w : Nat) (alt : Bool) (c : Status) : (s.logStop k w alt c).tun = s.tun :=
  part_of_except (State.logStop_same 256 rfl s k w alt c) .tun rfl

theorem logStop_events (s : State) (k w : Nat) (alt : Bool) (c : Status) : s.events <+:
    (s.logStop k w alt c).events := by
  unfold State.logStop
  split
  · exact List.prefix_append _ _
  · split
    · split
      · exact List.prefix_append _ _
      · exact List.prefix_rfl
    · exact List.prefix_rfl

/-- Signals that complete leave the Sparge list; the engines, staged entries and memory stand. -/
theorem settleSignals_keeps (n : Nat) (s : State) :
    (s.settleSignals n).tun.run = s.tun.run ∧ (s.settleSignals n).tun.staged = s.tun.staged ∧
    (∀ y ∈ (s.settleSignals n).tun.sparge, y ∈ s.tun.sparge) ∧
    (∀ y ∈ s.tun.sparge, spOp y.word.toNat ≠ 3 → y ∈ (s.settleSignals n).tun.sparge) ∧
    s.events <+: (s.settleSignals n).events := by
  induction n generalizing s with
  | zero => exact ⟨rfl, rfl, fun _ h => h, fun _ h _ => h, List.prefix_rfl⟩
  | succ n ih =>
    unfold State.settleSignals
    split
    · exact ⟨rfl, rfl, fun _ h => h, fun _ h _ => h, List.prefix_rfl⟩
    · next e found =>
      have signal : spOp e.word.toNat = 3 := by
        have hit := List.find?_some found
        exact beq_iff_eq.mp (Bool.and_eq_true_iff.mp hit).1
      have step (u : State) (hu : u.tun = { s.tun with sparge := s.tun.sparge.erase e }) (hv : s.events <+: u.events) :
          (u.settleSignals n).tun.run = s.tun.run ∧ (u.settleSignals n).tun.staged = s.tun.staged ∧
          (∀ y ∈ (u.settleSignals n).tun.sparge, y ∈ s.tun.sparge) ∧
          (∀ y ∈ s.tun.sparge, spOp y.word.toNat ≠ 3 → y ∈ (u.settleSignals n).tun.sparge) ∧
          s.events <+: (u.settleSignals n).events := by
        obtain ⟨run, staged, sub, rest, log⟩ := ih u
        rw [hu] at run staged sub rest
        refine ⟨run, staged, fun y hy => List.mem_of_mem_erase (sub y hy), fun y hy op => rest y ?_ op, hv.trans log⟩
        exact (List.mem_erase_of_ne fun same => op (by rw [same]; exact signal)).mpr hy
      have events : (s.setSparge (s.tun.sparge.erase e)).events = s.events :=
        part_of_except (State.setSparge_same 262145 rfl s _) .events rfl
      dsimp only
      split
      · next c _ =>
        refine step _ (by rw [endEntry_tun, logStop_tun, setSparge_tun]) ?_
        rw [endEntry_events, ← events]
        exact logStop_events _ _ _ _ _
      · exact step _ (by rw [endEntry_tun, setSparge_tun]) (by rw [endEntry_events, events])

theorem startStaged_events (s : State) (e : Nat) : s.events <+: (s.startStaged e).events := by
  unfold State.startStaged
  split
  · exact List.prefix_rfl
  · dsimp only
    split
    · refine List.IsPrefix.trans ?_ (settleSignals_keeps _ _).2.2.2.2
      rw [endEntry_events]
      exact logStop_events (s.setTun _) _ _ _ _
    · split
      · rw [endEntry_events]; exact List.prefix_rfl
      · exact List.prefix_rfl

theorem tunSync_lies (c : Nat) : (TUN_SYNC_VAL (c % 128)).lies 0x080 = true :=
  Fld.lies_iff.mpr ⟨rfl, Nat.le_of_ble_eq_true rfl, (by simp only [TUN_SYNC_VAL]; omega)⟩

theorem tunPoison_lies (c : Nat) : (TUN_SYNC_POIS (c % 128)).lies 0x080 = true :=
  Fld.lies_iff.mpr ⟨rfl, Nat.le_of_ble_eq_true rfl, (by simp only [TUN_SYNC_POIS]; omega)⟩

theorem State.signal_past {P : List Nat} (hP : P.contains 0x080 = true) (s : State) (c : Nat) (code : Status) :
    Past P (State.signal s c code) = Past P s := by
  unfold State.signal
  split
  · rfl
  · dsimp only
    split
    · exact State.count_past hP (tunSync_lies c) s _
    · exact (State.wr_past hP (tunPoison_lies c) _ _).trans (State.count_past hP (tunSync_lies c) s _)

theorem State.setSparge_past {P : List Nat} (hP : P.contains 0x080 = true) (s : State) (l : List SpEntry) :
    Past P (State.setSparge s l) = Past P s := by
  unfold State.setSparge
  simp +decide only [Past, State.setTun_same, State.raise_past hP, Nat.reduceAnd,
    apply_ite (State.except 137438953470), apply_ite (regsPast _), ite_self]

theorem State.expertDone_past {P : List Nat} (hP : P.contains 0x080 = true) (s : State) (l : BarmList) (i : Nat)
    (c : Status) (poison : Bool) :
    Past P (State.expertDone s l i c poison) = Past P s := by
  unfold State.expertDone
  simp +decide only [Past, State.signal_past hP, State.setBarm_same, State.entryDone_same, State.setList_same,
    Nat.reduceAnd]

theorem State.report_past {P : List Nat} (hP : P.contains 0x080 = true) (s : State) (src : Option (Nat × Nat))
    (c : Status) (sat : Bool) (ran : Bool) (ticks : Nat) :
    Past P (State.report s src c sat ran ticks) = Past P s := by
  unfold State.report
  dsimp only
  repeat' split
  all_goals
    simp +decide only [Past, State.setList_same, State.entryDone_same, State.expertDone_past hP, Nat.reduceAnd]

theorem State.countTile_past {P : List Nat} (hP : P.contains 0x080 = true) (s : State) (c : Status) :
    Past P (State.countTile s c) = Past P s := by
  unfold State.countTile
  simp +decide only [Past, State.count_past hP, State.raise_past hP, apply_ite (State.except 137438953470),
    apply_ite (regsPast _), ite_self]

theorem State.endEntry_past {P : List Nat} (hP : P.contains 0x080 = true) (s : State) (e : SpEntry) (c : Status) :
    Past P (State.endEntry s e c) = Past P s := by
  unfold State.endEntry
  simp +decide only [Past, State.countTile_past hP, State.signal_past hP, State.report_past hP]

theorem State.logStop_past {P : List Nat} (s : State) (k : Nat) (w : Nat) (alt : Bool) (c : Status) :
    Past P (State.logStop s k w alt c) = Past P s := by
  unfold State.logStop
  repeat' split
  all_goals
    simp +decide only [Past, State.log_same, State.windowFault_same, Nat.reduceAnd]

theorem State.settleSignals_past {P : List Nat} (hP : P.contains 0x080 = true) (n : Nat) (s : State) :
    Past P (s.settleSignals n) = Past P s := by
  induction n generalizing s with
  | zero => rfl
  | succ n ih =>
    unfold State.settleSignals
    split
    · rfl
    · dsimp only
      split
      · exact (ih _).trans ((State.endEntry_past hP _ _ _).trans
          ((State.logStop_past _ _ _ _ _).trans (State.setSparge_past hP _ _)))
      · exact (ih _).trans ((State.endEntry_past hP _ _ _).trans (State.setSparge_past hP _ _))

theorem State.startStaged_past {P : List Nat} (hP : P.contains 0x080 = true) (s : State) (e : Nat) :
    Past P (s.startStaged e) = Past P s := by
  unfold State.startStaged
  split
  · rfl
  · dsimp only
    repeat' split
    · exact (State.settleSignals_past hP _ _).trans ((State.endEntry_past hP _ _ _).trans
        ((State.logStop_past _ _ _ _ _).trans (past_of_except (State.setTun_same _ rfl s _))))
    · exact (State.endEntry_past hP _ _ _).trans (past_of_except (State.setTun_same _ rfl s _))
    · exact (past_of_except (State.setTun_same _ rfl _ _)).trans (past_of_except (State.setTun_same _ rfl s _))

theorem State.runEntry_past {P : List Nat} (hP : P.contains 0x080 = true) (s : State) (k w : Nat) (alt : Bool) :
    Past P (s.runEntry k w alt).1 = Past P s := by
  unfold State.runEntry
  split
  · dsimp only
    split
    · exact (State.wr_past hP rfl _ _).trans (past_of_except (State.store_same _ rfl s _ _))
    · exact past_of_except (State.store_same _ rfl s _ _)
  · exact foldl_past (fun u x => past_of_except (State.store_same _ rfl u _ _)) _ _

/-! ### ENTRY_PULL -/

theorem level_setSparge (s : State) (l : List SpEntry) : (s.setSparge l).level = s.level :=
  rd_setSparge (by decide) s l

theorem takeEntry_checked {s : State} {e : Nat} {x : SpEntry}
    (h : s.entryStop (e / 4) x.word.toNat (runsAlt4 x.word.toNat s.level) = none) :
    (s.takeEntry e x).tun = if s.tun.run.any (·.1 == e) then
        { s.tun with sparge := s.tun.sparge.erase x, staged := cellInsert e x s.tun.staged }
      else { s.tun with
        sparge := s.tun.sparge.erase x, run := cellInsert e ⟨x, s.level, decide (1 < s.rd TUN_THDIV)⟩ s.tun.run } := by
  have stop := entryStop_of_rd (fun f hf => rd_setSparge hf s (s.tun.sparge.erase x)) (e / 4) x.word.toNat
    (runsAlt4 x.word.toNat s.level)
  unfold State.takeEntry
  dsimp only
  rw [stop, h]
  dsimp only
  rw [setSparge_tun]
  split
  · simp only [State.setTun, setSparge_tun]
  · have pace : (s.setSparge (s.tun.sparge.erase x)).rd TUN_THDIV = s.rd TUN_THDIV := rd_setSparge (by decide) s _
    simp only [State.startTile, State.setTun, setSparge_tun, level_setSparge, pace]

theorem entryPull_takes {s : State} {e : Fin 32} {x : SpEntry} (hr : s.pageRuns 0x080 = true)
    (hg : s.clusterGated (e.val / 4) = false) (hd : s.drains (e.val / 4) = false) (hs : ∀ y ∈ s.tun.staged, y.1 ≠ e.val)
    (hl : ∀ y ∈ s.tun.sparge, deadlinePassed s.stamp.cyc (spDlc y.word.toNat) = false)
    (hw : ∀ y ∈ s.tun.staged, deadlinePassed s.stamp.cyc (spDlc y.2.word.toNat) = false)
    (hn : ∀ y ∈ s.tun.sparge, spOp y.word.toNat = 3 → ∀ k : Nat, k < 8 → s.eligible k y = false)
    (hx : (s.tun.sparge.find? fun y => spOp y.word.toNat != 3 && s.eligible (e.val / 4) y) = some x) :
    exec (.entryPull e) s = .next (s.takeEntry e.val x) := by
  have free : s.tun.staged.any (·.1 == e.val) = false := by
    refine List.any_eq_false.mpr fun y hy => ?_
    simpa using hs y hy
  have ready : ¬(s.pageRuns 0x080 = false ∨ s.clusterGated (e.val / 4) = true ∨ s.drains (e.val / 4) = true ∨
      s.tun.staged.any (·.1 == e.val) = true) := by
    rw [hr, hg, hd, free]
    decide
  change execEntryPull e s = _
  unfold execEntryPull
  dsimp only
  rw [if_neg ready, expireEntries_self hl hw, settleSignals_self hn, hx]

theorem entryPull_answers {s : State} {e : Fin 32} {x : SpEntry} (hr : s.pageRuns 0x080 = true)
    (hg : s.clusterGated (e.val / 4) = false) (hd : s.drains (e.val / 4) = false) (hs : ∀ y ∈ s.tun.staged, y.1 ≠ e.val)
    (hl : ∀ y ∈ s.tun.sparge, deadlinePassed s.stamp.cyc (spDlc y.word.toNat) = false)
    (hw : ∀ y ∈ s.tun.staged, deadlinePassed s.stamp.cyc (spDlc y.2.word.toNat) = false)
    (hn : ∀ y ∈ s.tun.sparge, spOp y.word.toNat = 3 → ∀ k : Nat, k < 8 → s.eligible k y = false)
    (hx : (s.tun.sparge.find? fun y => spOp y.word.toNat != 3 && s.eligible (e.val / 4) y) = some x)
    (hc : s.entryStop (e.val / 4) x.word.toNat (runsAlt4 x.word.toNat s.level) = none) :
    Answers (.entryPull e) s fun t =>
      t.tun.sparge = s.tun.sparge.erase x ∧
      ((∀ y ∈ s.tun.run, y.1 ≠ e.val) →
        (e.val, ⟨x, s.level, decide (1 < s.rd TUN_THDIV)⟩) ∈ t.tun.run ∧ t.tun.staged = s.tun.staged) ∧
      ((∃ y ∈ s.tun.run, y.1 = e.val) → (e.val, x) ∈ t.tun.staged ∧ t.tun.run = s.tun.run) := by
  refine ⟨_, entryPull_takes hr hg hd hs hl hw hn hx, ?_⟩
  dsimp only
  rw [takeEntry_checked hc]
  refine ⟨by split <;> rfl, fun idle => ?_, fun ⟨y, hy, he⟩ => ?_⟩
  · have off : s.tun.run.any (·.1 == e.val) = false :=
      List.any_eq_false.mpr fun y hy => by simpa using idle y hy
    rw [off]
    exact ⟨cellInsert_has _ _ _, rfl⟩
  · have runs : s.tun.run.any (·.1 == e.val) = true := List.any_eq_true.mpr
      ⟨y, hy, by rw [he]; exact beq_self_eq_true _⟩
    rw [runs]
    exact ⟨cellInsert_has _ _ _, rfl⟩

/-! ### TILE_COMPLETE -/

theorem foldl_store_mem {α : Type} {a : α → Nat} {b : α → List Byte} (l : List α) {s t : State} (h : t.mem = s.mem) :
    (l.foldl (fun u x => u.store (a x) (b x)) t).mem = (l.foldl (fun u x => u.store (a x) (b x)) s).mem := by
  induction l generalizing s t with
  | nil => exact h
  | cons x r ih => exact ih (congrArg (memStore · _ _) h)

/-- What a tile leaves in memory comes of the memory alone. -/
theorem runEntry_mem_of_mem {s t : State} (h : t.mem = s.mem) (k w : Nat) (alt : Bool) :
    (t.runEntry k w alt).1.mem = (s.runEntry k w alt).1.mem := by
  have bytes : t.bytes = s.bytes := by
    funext a n
    rw [State.bytes, State.bytes, h]
  have wide (u : State) (v : Nat) : (u.wr TUN_RESV v).mem = u.mem :=
    part_of_except (State.wr_same 1 rfl u _ _) .mem rfl
  unfold State.runEntry
  split
  · dsimp only
    split
    · rw [wide, wide, bytes]
      exact congrArg (memStore · _ _) h
    · rw [bytes]
      exact congrArg (memStore · _ _) h
  · have rows : t.tileIn k w alt = s.tileIn k w alt := by
      unfold State.tileIn
      rw [bytes]
    dsimp only
    rw [rows]
    exact foldl_store_mem _ h

/-- A COPY stores its source bytes. -/
theorem runEntry_copy (s : State) {k w : Nat} (alt : Bool) (h : spOp w = 2) :
    (s.runEntry k w alt).1.mem = memStore s.mem (resolve k (spC w)) (s.bytes (resolve k (spA w)) (64 * spClen w)) := by
  unfold State.runEntry
  rw [if_pos h]
  dsimp only
  split
  · exact part_of_except (State.wr_same 1 rfl _ _ _) .mem rfl
  · rfl

/-- The bookkeeping of a tile that ended with a code: counters, the report of its entry, and what starts next. -/
def State.tileBooked (s : State) (e : Nat) (x : RunTile) (c : Status) (sat : Bool) (ticks : Nat) : State :=
  let k := e / 4
  let s := (s.count (TUN_CK_TILEN k)).count (TUN_CK_BUSYCT k) ticks
  let s := (s.countTile c).signal (spScnt x.entry.word.toNat) c
  let s := s.report x.entry.src c sat true ticks
  let s := if s.tun.resClr.contains k then s.invalidate k else s
  (if s.level ≤ 1 then s.startStaged e else s).settleSignals 1024

/-- The code of a tile without an uncorrectable word. -/
def State.tileCode (s : State) (x : RunTile) : Status :=
  if x.deg || x.level != 0 || s.level != 0 then firstOf .degraded s.okOr else s.okOr

/-- The state once the tile on an engine has left it. -/
def State.tileLeft (s : State) (e n : Nat) : State :=
  (s.setTun fun t => { t with run := cellErase e t.run }).count (TUN_CK_CORRN (e / 4)) n

section
variable {s : State} {e : Fin 32} {k : Nat} {x : RunTile} (hx : s.tun.run.find? (·.1 == e.val) = some (k, x))
  (hg : s.clusterGated (e.val / 4) = false) (ticks : BitVec 32) (n : Nat)
include hx hg

theorem tileComplete_good :
    exec (.tileComplete e ticks n none) s = .next (
      let r := (s.tileLeft e.val n).runEntry (e.val / 4) x.entry.word.toNat (runsAlt4 x.entry.word.toNat x.level)
      r.1.tileBooked e.val x (r.1.tileCode x) r.2 ticks.toNat) := by
  change execTileComplete e ticks n none s = _
  unfold execTileComplete
  dsimp only
  rw [hx]
  dsimp only
  rw [hg, if_neg Bool.false_ne_true]
  rfl

theorem tileComplete_bad (a : BitVec 40) :
    exec (.tileComplete e ticks n (some a)) s = .next (
      ((s.tileLeft e.val n).tileUnc (e.val / 4) x.entry.word.toNat a.toNat).tileBooked e.val x .integFail false
        ticks.toNat) := by
  change execTileComplete e ticks n (some a) s = _
  unfold execTileComplete
  dsimp only
  rw [hx]
  dsimp only
  rw [hg, if_neg Bool.false_ne_true]
  rfl
end

theorem tileLeft_same (s : State) (e n : Nat) : (s.tileLeft e n).except 262145 = s.except 262145 :=
  (State.count_same 262145 rfl _ _ _).trans (State.setTun_same 262145 rfl s _)

theorem tileBooked_same (s : State) (e : Nat) (x : RunTile) (c : Status) (sat : Bool) (ticks : Nat) :
    (s.tileBooked e x c sat ticks).except 1310977 = s.except 1310977 := by
  unfold State.tileBooked
  dsimp only
  rw [State.settleSignals_same 1310977 rfl, apply_ite (State.except 1310977), State.startStaged_same 1310977 rfl,
    ite_self,
    apply_ite (State.except 1310977), State.invalidate_same 1310977 rfl, ite_self, State.report_same 1310977 rfl,
    State.signal_same 1310977 rfl, State.countTile_same 1310977 rfl]
  exact (State.count_same 1310977 rfl _ _ _).trans (State.count_same 1310977 rfl s _ _)

theorem invalidate_engines (s : State) (k : Nat) :
    (s.invalidate k).tun.run = s.tun.run ∧ (s.invalidate k).tun.staged = s.tun.staged := by
  have regs (u : State) (v : Nat) (p b : Nat) : ((u.wr TUN_RESV v).raise p b).tun = u.tun :=
    part_of_except ((State.raise_same 1 rfl _ _ _).trans (State.wr_same 1 rfl u _ _)) .tun rfl
  unfold State.invalidate
  dsimp only
  split
  · simp only [State.setTun, regs, and_self]
  · exact ⟨rfl, rfl⟩

/-- The bookkeeping before the next tile starts. -/
theorem tileBooked_parts (s : State) (e : Nat) (x : RunTile) (c : Status) (sat : Bool) (ticks : Nat) :
    s.events <+: (s.tileBooked e x c sat ticks).events ∧
    ((∀ y ∈ s.tun.staged, y.1 ≠ e) → (s.tileBooked e x c sat ticks).tun.run = s.tun.run) := by
  unfold State.tileBooked
  dsimp only
  generalize hu : State.report _ x.entry.src c sat true ticks = u
  have except : u.except 1048577 = s.except 1048577 := by
    rw [← hu, State.report_same 1048577 rfl, State.signal_same 1048577 rfl, State.countTile_same 1048577 rfl]
    exact (State.count_same 1048577 rfl _ _ _).trans (State.count_same 1048577 rfl s _ _)
  have tun : u.tun = s.tun := part_of_except except .tun rfl
  have events : u.events = s.events := part_of_except except .events rfl
  generalize hv : (if u.tun.resClr.contains (e / 4) = true then u.invalidate (e / 4) else u) = v
  have engines : v.tun.run = s.tun.run ∧ v.tun.staged = s.tun.staged ∧ v.events = s.events := by
    rw [← hv, ← tun, ← events]
    split
    · exact ⟨(invalidate_engines _ _).1, (invalidate_engines _ _).2,
        part_of_except (State.invalidate_same 262145 rfl _ _) .events rfl⟩
    · exact ⟨rfl, rfl, rfl⟩
  obtain ⟨run, staged, log⟩ := engines
  have settled := settleSignals_keeps 1024 (if v.level ≤ 1 then v.startStaged e else v)
  refine ⟨?_, fun idle => settled.1.trans ?_⟩
  · refine List.IsPrefix.trans ?_ settled.2.2.2.2
    rw [← log]
    split
    · exact startStaged_events v e
    · exact List.prefix_rfl
  · have none : v.tun.staged.find? (·.1 == e) = none := by
      rw [staged]
      exact List.find?_eq_none.mpr fun y hy => by simpa using idle y hy
    rw [← run]
    split
    · unfold State.startStaged
      rw [none]
    · rfl

theorem Fld.outside_iff {f : Fld} {P : List Nat} :
    f.outside P = true ↔ f.page ∉ P ∧ f.page < 1024 ∧ f.off < 4096 ∧ f.width ≤ 32 := by
  simp only [Fld.outside, Bool.and_eq_true, Bool.not_eq_true', List.contains_eq_mem, decide_eq_true_eq,
    decide_eq_false_iff_not, and_assoc]

/-- Everything else that a tile moves lies on page 0x080 or beside the counter of tiles. -/
theorem rd_tilen_tileBooked (s : State) {e : Nat} (he : e < 32) (x : RunTile) (c : Status) (sat : Bool) (ticks : Nat) :
    (s.tileBooked e x c sat ticks).rd (TUN_CK_TILEN (e / 4)) =
      satNat (TUN_CK_TILEN (e / 4)).width (s.rd (TUN_CK_TILEN (e / 4)) + 1) := by
  have out : (TUN_CK_TILEN (e / 4)).outside [0x080] = true := by
    refine Fld.outside_iff.mpr ⟨?_, ?_, Nat.le_of_ble_eq_true rfl, Nat.le_of_ble_eq_true rfl⟩
    all_goals
      simp only [TUN_CK_TILEN, List.mem_singleton]
      omega
  have ticksFree : (TUN_CK_BUSYCT (e / 4)).free (TUN_CK_TILEN (e / 4)) = true :=
    free_of_off rfl (Nat.le_of_ble_eq_true rfl) (Nat.le_of_ble_eq_true rfl) (.inr (Nat.le_of_ble_eq_true rfl))
  have raiseFree : (IRQ_RAW (0x081 + e / 4)).free (TUN_CK_TILEN (e / 4)) = true :=
    free_of_off rfl (Nat.le_of_ble_eq_true rfl) (Nat.le_of_ble_eq_true rfl) (.inl (Nat.le_of_ble_eq_true rfl))
  have cleared (u : State) : (u.invalidate (e / 4)).rd (TUN_CK_TILEN (e / 4)) = u.rd (TUN_CK_TILEN (e / 4)) := by
    unfold State.invalidate
    dsimp only
    refine (rd_of_except (State.setTun_same 262144 rfl _ _) rfl _).trans ?_
    split
    · exact (rd_raise_free raiseFree _ _).trans (rd_of_past (State.wr_past (p := 0x080) (P := [0x080]) rfl rfl _ _) out)
    · rfl
  unfold State.tileBooked
  dsimp only
  rw [rd_of_past (State.settleSignals_past (P := [0x080]) rfl _ _) out, apply_ite (State.rd · (TUN_CK_TILEN (e / 4))),
    rd_of_past (State.startStaged_past (P := [0x080]) rfl _ _) out, ite_self, apply_ite
      (State.rd · (TUN_CK_TILEN (e / 4))),
    cleared, ite_self, rd_of_past (State.report_past (P := [0x080]) rfl _ _ _ _ _ _) out,
    rd_of_past (State.signal_past (P := [0x080]) rfl _ _ _) out,
    rd_of_past (State.countTile_past (P := [0x080]) rfl _ _) out, rd_count_free ticksFree]
  exact rd_count_same s _ 1 rfl

theorem tileComplete_answers {s : State} {e : Fin 32} {k : Nat} {x : RunTile} (hx : s.tun.run.find?
    (·.1 == e.val) = some (k, x))
    (hg : s.clusterGated (e.val / 4) = false) (ticks : BitVec 32) (n : Nat) :
    Answers (.tileComplete e ticks n none) s fun t =>
      t.mem = (s.runEntry (e.val / 4) x.entry.word.toNat (runsAlt4 x.entry.word.toNat x.level)).1.mem ∧
      (spOp x.entry.word.toNat = 2 →
        t.mem = memStore s.mem (resolve (e.val / 4) (spC x.entry.word.toNat))
          (s.bytes (resolve (e.val / 4) (spA x.entry.word.toNat)) (64 * spClen x.entry.word.toNat))) ∧
      t.rd (TUN_CK_TILEN (e.val / 4)) = satNat (TUN_CK_TILEN (e.val / 4)).width (s.rd (TUN_CK_TILEN (e.val / 4)) + 1) ∧
      ((∀ y ∈ s.tun.staged, y.1 ≠ e.val) → ∀ y ∈ t.tun.run, y.1 ≠ e.val) := by
  refine ⟨_, tileComplete_good hx hg ticks n, ?_⟩
  dsimp only
  generalize hr : (s.tileLeft e.val n).runEntry (e.val / 4) x.entry.word.toNat (runsAlt4 x.entry.word.toNat x.level) = r
  have left : (s.tileLeft e.val n).mem = s.mem := part_of_except (tileLeft_same s e.val n) .mem rfl
  have result : r.1.mem = (s.runEntry (e.val / 4) x.entry.word.toNat (runsAlt4 x.entry.word.toNat x.level)).1.mem := by
    rw [← hr]
    exact runEntry_mem_of_mem left _ _ _
  have stored : (r.1.tileBooked e.val x (r.1.tileCode x) r.2 ticks.toNat).mem = r.1.mem :=
    part_of_except (tileBooked_same _ _ _ _ _ _) .mem rfl
  have tun : r.1.tun = { s.tun with run := cellErase e.val s.tun.run } := by
    rw [← hr, (show ∀ u : State, (u.runEntry (e.val / 4) x.entry.word.toNat
      (runsAlt4 x.entry.word.toNat x.level)).1.tun =
      u.tun from fun u => part_of_except (State.runEntry_same 34359738369 rfl u _ _ _) .tun rfl)]
    exact part_of_except (State.count_same 1 rfl _ _ _) .tun rfl
  have out : (TUN_CK_TILEN (e.val / 4)).outside [0x080] = true := by
    refine Fld.outside_iff.mpr ⟨?_, ?_, Nat.le_of_ble_eq_true rfl, Nat.le_of_ble_eq_true rfl⟩
    all_goals
      simp only [TUN_CK_TILEN, List.mem_singleton]
      omega
  have errors : (TUN_CK_CORRN (e.val / 4)).free (TUN_CK_TILEN (e.val / 4)) = true :=
    free_of_off rfl (Nat.le_of_ble_eq_true rfl) (Nat.le_of_ble_eq_true rfl) (.inr (Nat.le_of_ble_eq_true rfl))
  have tiles : r.1.rd (TUN_CK_TILEN (e.val / 4)) = s.rd (TUN_CK_TILEN (e.val / 4)) := by
    rw [← hr, rd_of_past (State.runEntry_past (P := [0x080]) rfl _ _ _ _) out]
    exact (rd_count_free errors _ _).trans (rd_of_except (State.setTun_same 262144 rfl s _) rfl _)
  refine ⟨stored.trans result, fun copy => stored.trans (result.trans (runEntry_copy s _ copy)), ?_, fun idle => ?_⟩
  · rw [rd_tilen_tileBooked r.1 e.isLt, tiles]
  · rw [(tileBooked_parts r.1 e.val x _ _ _).2 (by rw [tun]; exact idle), tun]
    exact cellErase_lacks _ _

theorem tileComplete_answers_bad {s : State} {e : Fin 32} {k : Nat} {x : RunTile}
    (hx : s.tun.run.find? (·.1 == e.val) = some (k, x)) (hg : s.clusterGated (e.val / 4) = false)
    (ticks : BitVec 32) (n : Nat)
    (a : BitVec 40) :
    Answers (.tileComplete e ticks n (some a)) s fun t =>
      t.mem = s.mem ∧
      (⟨0x7001, spTc x.entry.word.toNat, leBytes 8 (e.val / 4 + a.toNat * 2 ^ 8)⟩ : LogEvent) ∈ t.events := by
  refine ⟨_, tileComplete_bad hx hg ticks n a, ?_, ?_⟩
  · refine (part_of_except (tileBooked_same _ _ _ _ _ _) .mem rfl).trans ?_
    exact (part_of_except (State.tileUnc_same 257 rfl _ _ _ _) .mem rfl).trans
      (part_of_except (tileLeft_same s _ _) .mem rfl)
  · refine (tileBooked_parts _ _ _ _ _ _).1.subset ?_
    unfold State.tileUnc
    dsimp only [State.log]
    rw [Nat.mod_eq_of_lt a.isLt]
    exact List.mem_append_right _ List.mem_cons_self

/-- Ending entries moves neither the Sparge list nor an engine. -/
theorem foldl_endEntry (l : List SpEntry) (s : State) (c : Status) :
    (l.foldl (fun s e => s.endEntry e c) s).except 1048577 = s.except 1048577 := by
  induction l generalizing s with
  | nil => rfl
  | cons e r ih => exact (ih _).trans (State.endEntry_same 1048577 rfl s e c)

theorem expireEntries_tun (s : State) : s.expireEntries.tun = { s.tun with
    sparge := s.tun.sparge.filter fun e => !deadlinePassed s.stamp.cyc (spDlc e.word.toNat),
    staged := s.tun.staged.filter fun e => !deadlinePassed s.stamp.cyc (spDlc e.2.word.toNat) } := by
  unfold State.expireEntries
  dsimp only
  refine (part_of_except (foldl_endEntry _ _ .timeout) .tun rfl).trans ?_
  simp only [State.setTun, setSparge_tun]

theorem tileDeadline_answers (s : State) : Answers .tileDeadline s fun t =>
    (∀ y ∈ t.tun.sparge, deadlinePassed s.stamp.cyc (spDlc y.word.toNat) = false) ∧
    (∀ y ∈ t.tun.staged, deadlinePassed s.stamp.cyc (spDlc y.2.word.toNat) = false) ∧
    (∀ y ∈ s.tun.sparge, deadlinePassed s.stamp.cyc (spDlc y.word.toNat) = false → spOp y.word.toNat ≠ 3 →
      y ∈ t.tun.sparge) ∧ t.tun.run = s.tun.run ∧ t.mem = s.mem := by
  obtain ⟨run, staged, sub, rest, -⟩ := settleSignals_keeps 1024 s.expireEntries
  rw [expireEntries_tun] at run staged sub rest
  refine ⟨_, rfl, fun y hy => ?_, fun y hy => ?_, fun y hy early op => ?_, run, ?_⟩
  · simpa using (List.mem_filter.mp (sub y hy)).2
  · rw [staged] at hy
    simpa using (List.mem_filter.mp hy).2
  · exact rest y (List.mem_filter.mpr ⟨hy, by rw [early]; rfl⟩) op
  · exact (part_of_except (State.settleSignals_same 1310977 rfl _ _) .mem rfl).trans
      (part_of_except (State.expireEntries_same 1310721 rfl s) .mem rfl)

theorem bit_clearBit_same (n k : Nat) : bit (clearBit n k) k = false := by
  unfold clearBit
  split
  · next h =>
    simp only [bit, beq_iff_eq] at h
    have pos : 0 < 2 ^ k := Nat.two_pow_pos k
    have low : 2 ^ k * 1 ≤ n := by
      rw [Nat.mul_one]
      refine Nat.le_of_not_lt fun small => ?_
      rw [Nat.div_eq_of_lt small] at h
      cases h
    have less := Nat.sub_mul_div_of_le n (2 ^ k) 1 low
    rw [Nat.mul_one] at less
    simp only [bit, less, beq_eq_false_iff_ne]
    omega
  · next h => simpa using h

/-- A cleared region is not valid, whether it was before or not. -/
theorem resv_invalidate (s : State) {k : Nat} (h : k < 8) : bit ((s.invalidate k).rd TUN_RESV) k = false := by
  have raised : (IRQ_RAW (0x081 + k)).free TUN_RESV = true :=
    free_of_key (Nat.le_of_ble_eq_true rfl) (by decide) (by simp only [Fld.key, regKey, IRQ_RAW, TUN_RESV]; omega)
  unfold State.invalidate
  dsimp only
  rw [rd_of_except (State.setTun_same 262144 rfl _ _) rfl]
  split
  · rw [rd_raise_free raised, rd_wr_same _ _ _ rfl, bit_mod (show k < TUN_RESV.width from h), bit_clearBit_same]
  · next off => simpa using off

theorem tunWord_plain : ∀ k : Fin 8, plainWord (0x081 + k.val) 0x05C = true := by decide

theorem tunCkResclr_answers {s : State} {k : Fin 8} {w : RegWrite}
    (hw : s.admitsWrite (0x081 + k.val) 0x05C w (setBit w.data.toNat 0) = true) :
    Answers (.tunCkResclr k w) s fun t =>
      t.resp.code = .ok ∧ bit (t.rd TUN_RESV) k.val = (s.clusterBusy k.val && bit (s.rd TUN_RESV) k.val) ∧
      (s.clusterBusy k.val = true → k.val ∈ t.tun.resClr) := by
  have done : tunWrite s ⟨w.port, w.tc.val, 0x081 + k.val, 0x05C, none⟩ (BitVec.ofNat 32 (setBit w.data.toNat 0)).toNat
    =
      (.ok, s.resClear k.val) := by
    have away : 0x081 + k.val ≠ 0x080 := by omega
    unfold tunWrite
    dsimp only
    rw [if_pos away, if_pos rfl, if_pos ((bit_command (d := w.data) (k := 0) (by decide)).trans (if_pos rfl)),
      Nat.add_sub_cancel_left]
  refine answers_write (h := tunWrite) (f := (setBit · 0)) rfl (tunWord_plain k) hw done ⟨rfl, ?_, fun busy => ?_⟩
  · rw [(show ∀ u : State, (u.answer .ok).rd TUN_RESV = u.rd TUN_RESV from fun u => rd_of_regs rfl _)]
    unfold State.resClear
    split
    · next busy => rw [busy, Bool.true_and, rd_of_except (State.setTun_same 262144 rfl s _) rfl]
    · next idle =>
      rw [Bool.not_eq_true] at idle
      rw [idle, Bool.false_and, resv_invalidate s k.isLt]
  · change k.val ∈ (s.resClear k.val).tun.resClr
    unfold State.resClear
    rw [if_pos busy]
    exact List.mem_cons_self

/-- Settles O26. -/
theorem tilesComplete : Obligations.TilesComplete := by
  unfold Obligations.TilesComplete
  refine ⟨fun s e x hr hg hd hs hl hw hn hx hc => entryPull_answers hr hg hd hs hl hw hn hx hc,
    fun s e ticks n k x hx hg => tileComplete_answers hx hg ticks n,
    fun s e ticks n k a x hx hg => tileComplete_answers_bad hx hg ticks n a, tileDeadline_answers,
    fun s k w hw => tunCkResclr_answers hw⟩

theorem tun_answer (s : State) (c : Status) : (s.answer c).tun = s.tun :=
  part_of_except (State.answer_same 512 rfl s c) .tun rfl

/-! ### The end of a burst -/

theorem burstEnd_parts (s : State) (b : Burst) (c : Status) :
    (s.burstEnd b c).tun = { s.tun with burst := none } ∧ (s.burstEnd b c).rd TUN_BST_CODE = codeOf c ∧
    (s.burstEnd b c).on TUN_BST_BUSY = false := by
  have tun : (((s.wr TUN_BST_CODE (codeOf c)).wr TUN_BST_BUSY 0).wr TUN_BST_RUN b.ran).tun = s.tun :=
    part_of_except ((State.wr_same 1 rfl _ _ _).trans ((State.wr_same 1 rfl _ _ _).trans (State.wr_same 1 rfl s _ _)))
      .tun rfl
  unfold State.burstEnd
  refine ⟨?_, ?_, ?_⟩
  · refine (part_of_except (State.raise_same 1 rfl _ _ _) .tun rfl).trans ?_
    simp only [State.setTun, tun]
  · rw [rd_raise_free (by decide), rd_of_except (State.setTun_same 262144 rfl _ _) rfl, rd_wr_free (by decide),
      rd_wr_free (by decide), rd_wr_lt rfl (codeOf_lt c)]
  · rw [State.on, rd_raise_free (by decide), rd_of_except (State.setTun_same 262144 rfl _ _) rfl, rd_wr_free
      (by decide),
      rd_wr_lt rfl (by decide)]
    rfl

/-! ### TUN_BST_ARM -/

theorem level_of_pageRuns_tun {s : State} (h : s.pageRuns 0x080 = true) : ¬ 2 ≤ s.level := by
  intro deep
  unfold State.pageRuns at h
  dsimp only at h
  rw [if_neg (by omega)] at h
  split at h
  · cases h
  · split at h
    · next out => exact absurd out (by decide)
    · cases h

theorem runs_of_admitsWrite {s : State} {page off d : Nat} {w : RegWrite} (hw : s.admitsWrite page off w d = true)
    (ho : 0x40 ≤ off) : s.pageRuns page = true := by
  simp only [State.admitsWrite, Bool.and_eq_true, Bool.or_eq_true, decide_eq_true_eq] at hw
  obtain ⟨⟨⟨-, runs⟩, -⟩, -⟩ := hw
  exact runs.resolve_left (by omega)

theorem tunArm_asks (s : State) (w : RegWrite) : tunWrite s ⟨w.port, w.tc.val, 0x080, 0x074, none⟩
    (BitVec.ofNat 32 (setBit w.data.toNat 0)).toNat = s.burstArm := by
  unfold tunWrite
  dsimp only
  rw [if_neg (by decide)]
  exact if_pos ((bit_command (d := w.data) (k := 0) (by decide)).trans (if_pos rfl))

/-- The burst that the registers describe. -/
def State.burstAsked (s : State) : Burst where
  clm := s.rd TUN_BST_CLM
  rep := s.rd TUN_BST_REP
  len := s.rd TUN_BST_LEN
  gap := s.rd TUN_BST_GAP
  start := s.rd64 TUN_BST_AT_LO TUN_BST_AT_HI
  lead := s.rd TUN_BST_LEAD
  cost := 4 * (bitsSet (s.rd TUN_BST_CLM) 8).length * ceilDiv (s.rd TUN_BST_REP * s.rd TUN_BST_LEN) 1024

/-- The burst of a state that has paid. -/
def State.burstTaken (s : State) (b : Burst) : State :=
  (s.wr TUN_BST_BUSY 1).setTun fun x => { x with burst := some b }

theorem burstTaken_parts (s : State) (b : Burst) :
    (s.burstTaken b).on TUN_BST_BUSY = true ∧ (s.burstTaken b).tnc = s.tnc ∧ (s.burstTaken b).tun.burst = some b := by
  refine ⟨?_, ?_, rfl⟩
  · rw [State.on, State.burstTaken, rd_of_except (State.setTun_same 262144 rfl _ _) rfl, rd_wr_lt rfl (by decide)]
    rfl
  · exact part_of_except ((State.setTun_same 262145 rfl _ _).trans (State.wr_same 262145 rfl s _ _)) .tnc rfl

section
variable {s : State} (idle : s.on TUN_BST_BUSY = false) (shallow : ¬ 2 ≤ s.level)
  (quota : s.burstAsked.cost ≤ s.quotaLeft 1 0)
include idle shallow quota

theorem burstArm_early (h : stampNat s.stamp + s.rd TUN_BST_LEAD + 64 ≤ s.rd64 TUN_BST_AT_LO TUN_BST_AT_HI) :
    s.burstArm = (.ok, (s.quotaPut 1 0 (s.quotaLeft 1 0 - s.burstAsked.cost)).burstTaken s.burstAsked) := by
  have granted : s.takeQuota 1 0 (4 * (bitsSet (s.rd TUN_BST_CLM) 8).length *
      ceilDiv (s.rd TUN_BST_REP * s.rd TUN_BST_LEN) 1024) =
      some (s.quotaPut 1 0 (s.quotaLeft 1 0 - s.burstAsked.cost)) := if_neg (Nat.not_lt.mpr quota)
  unfold State.burstArm
  dsimp only
  rw [idle, if_neg Bool.false_ne_true, if_neg shallow, granted]
  exact if_neg (Nat.not_lt.mpr h)

theorem burstArm_late (h : s.rd64 TUN_BST_AT_LO TUN_BST_AT_HI < stampNat s.stamp + s.rd TUN_BST_LEAD + 64) :
    s.burstArm = (.ok, s.burstEnd s.burstAsked .timeout) := by
  have granted : s.takeQuota 1 0 (4 * (bitsSet (s.rd TUN_BST_CLM) 8).length *
      ceilDiv (s.rd TUN_BST_REP * s.rd TUN_BST_LEN) 1024) =
      some (s.quotaPut 1 0 (s.quotaLeft 1 0 - s.burstAsked.cost)) := if_neg (Nat.not_lt.mpr quota)
  unfold State.burstArm
  dsimp only
  rw [idle, if_neg Bool.false_ne_true, if_neg shallow, granted]
  exact if_pos h
end

theorem quotaLeft_quotaPut (s : State) (r t n : Nat) : (s.quotaPut r t n).quotaLeft r t = n := by
  have shown (u : State) : (u.quotaShow r t).tnc = u.tnc := part_of_except (State.quotaShow_same 1 rfl u _ _) .tnc rfl
  rw [State.quotaLeft, State.quotaPut, shown]
  exact cellAt_put_same _ _ _ _

theorem burstArm_busy {s : State} {w : RegWrite} (hw : s.admitsWrite 0x080 0x074 w (setBit w.data.toNat 0) = true)
    (h : s.on TUN_BST_BUSY = true) :
    Answers (.tunBstArm w) s fun t => t.resp.code = .refusedPriority ∧ t.tun = s.tun := by
  have refused : s.burstArm = (.refusedPriority, s) := if_pos h
  exact answers_write_coded (h := tunWrite) (f := (setBit · 0)) rfl (by decide) hw ((tunArm_asks s w).trans refused)
    ⟨rfl,
    part_of_except ((State.answer_same 513 rfl _ _).trans (State.capture_same 513 rfl s _ _ _ _ _)) .tun rfl⟩

theorem burstArm_answers {s : State} {w : RegWrite} (hw : s.admitsWrite 0x080 0x074 w (setBit w.data.toNat 0) = true)
    (idle : s.on TUN_BST_BUSY = false) (quota : s.burstAsked.cost ≤ s.quotaLeft 1 0)
    (h : stampNat s.stamp + s.rd TUN_BST_LEAD + 64 ≤ s.rd64 TUN_BST_AT_LO TUN_BST_AT_HI) :
    Answers (.tunBstArm w) s fun t =>
      t.resp.code = .ok ∧ t.on TUN_BST_BUSY = true ∧ t.quotaLeft 1 0 = s.quotaLeft 1 0 - s.burstAsked.cost ∧
      t.tun.burst = some s.burstAsked := by
  have shallow := level_of_pageRuns_tun (runs_of_admitsWrite hw (by decide))
  obtain ⟨busy, left, burst⟩ := burstTaken_parts (s.quotaPut 1 0 (s.quotaLeft 1 0 - s.burstAsked.cost)) s.burstAsked
  refine answers_write (h := tunWrite) (f := (setBit · 0)) rfl (by decide) hw
    ((tunArm_asks s w).trans (burstArm_early idle shallow quota h)) ⟨rfl, (on_answer _ _ _).trans busy, ?_, ?_⟩
  · rw [State.quotaLeft, part_of_except (State.answer_same 512 rfl _ _) .tnc rfl, left]
    exact quotaLeft_quotaPut s 1 0 _
  · rw [tun_answer, burst]

theorem burstArm_answers_late {s : State} {w : RegWrite} (hw : s.admitsWrite 0x080 0x074 w
    (setBit w.data.toNat 0) = true)
    (idle : s.on TUN_BST_BUSY = false) (quota : s.burstAsked.cost ≤ s.quotaLeft 1 0)
    (h : s.rd64 TUN_BST_AT_LO TUN_BST_AT_HI < stampNat s.stamp + s.rd TUN_BST_LEAD + 64) :
    Answers (.tunBstArm w) s fun t =>
      t.rd TUN_BST_CODE = codeOf .timeout ∧ t.on TUN_BST_BUSY = false ∧ t.tun.burst = none := by
  have shallow := level_of_pageRuns_tun (runs_of_admitsWrite hw (by decide))
  obtain ⟨tun, code, busy⟩ := burstEnd_parts s s.burstAsked .timeout
  exact answers_write (h := tunWrite) (f := (setBit · 0)) rfl (by decide) hw
    ((tunArm_asks s w).trans (burstArm_late idle shallow quota h))
    ⟨(rd_answer _ _ _).trans code, (on_answer _ _ _).trans busy, congrArg TunState.burst ((tun_answer _ _).trans tun)⟩

/-! ### The repetitions -/

theorem engines_free {s : State} {b : Burst}
    (hi : b.done ≠ 0 ∨ ∀ k : Nat, k < 8 → bit b.clm k = false ∨ s.clusterBusy k = false) :
    ¬(b.done = 0 ∧ (List.range 8).any (fun k => bit b.clm k && s.clusterBusy k) = true) := by
  rintro ⟨first, busy⟩
  obtain ⟨k, hk, both⟩ := List.any_eq_true.mp busy
  obtain ⟨named, runs⟩ := Bool.and_eq_true_iff.mp both
  rcases hi.resolve_left (fun h => h first) k (List.mem_range.mp hk) with off | off
  · rw [off] at named; cases named
  · rw [off] at runs; cases runs

theorem burstRepStart_sends {s : State} {b : Burst} (hb : s.tun.burst = some b) (hp : b.phase = 1)
    (hi : b.done ≠ 0 ∨ ∀ k : Nat, k < 8 → bit b.clm k = false ∨ s.clusterBusy k = false) (hq : s.quietGate = false) :
    Answers .burstRepStart s fun t =>
      t.tun.edges = s.tun.edges ++ [(true, b.start + b.done * (b.len + b.gap))] ∧
      ∃ c, t.tun.burst = some c ∧ c.phase = 2 ∧ c.done = b.done + 1 := by
  have noted (u : State) : (if b.done + 1 = 1 then u.wr64 TUN_BF_LO TUN_BF_HI (b.rise (b.done + 1)) else u).tun =
    u.tun := by
    split
    · exact part_of_except (State.wr64_same 1 rfl u _ _ _) .tun rfl
    · rfl
  refine ⟨_, rfl, ?_⟩
  rw [hb]
  dsimp only
  rw [if_neg (not_not.mpr hp), if_neg (engines_free hi), hq, if_neg Bool.false_ne_true]
  simp only [State.setTun, noted]
  exact ⟨rfl, _, rfl, rfl, rfl⟩

theorem burstRepStart_quiet {s : State} {b : Burst} (hb : s.tun.burst = some b) (hp : b.phase = 1)
    (hi : b.done ≠ 0 ∨ ∀ k : Nat, k < 8 → bit b.clm k = false ∨ s.clusterBusy k = false) (hq : s.quietGate = true) :
    Answers .burstRepStart s fun t =>
      t.tun.burst = none ∧ t.on TUN_BST_BUSY = false ∧ t.rd TUN_BST_CODE = codeOf .part := by
  obtain ⟨tun, code, ended⟩ := burstEnd_parts s b .part
  refine ⟨s.burstEnd b .part, ?_, congrArg TunState.burst tun, ended, code⟩
  change execBurstRepStart s = _
  unfold execBurstRepStart
  rw [hb]
  dsimp only
  rw [if_neg (not_not.mpr hp), if_neg (engines_free hi), hq, if_pos rfl]

theorem burstRepStart_engaged {s : State} {b : Burst} (hb : s.tun.burst = some b) (hp : b.phase = 1) (hd : b.done = 0)
    (hk : ∃ k : Nat, k < 8 ∧ bit b.clm k = true ∧ s.clusterBusy k = true) :
    Answers .burstRepStart s fun t =>
      t.tun.burst = none ∧ t.on TUN_BST_BUSY = false ∧ t.rd TUN_BST_CODE = codeOf .timeout := by
  obtain ⟨k, hk, named, busy⟩ := hk
  have engaged : (List.range 8).any (fun k => bit b.clm k && s.clusterBusy k) = true :=
    List.any_eq_true.mpr ⟨k, List.mem_range.mpr hk, by rw [named, busy]; rfl⟩
  obtain ⟨tun, code, ended⟩ := burstEnd_parts s b .timeout
  refine ⟨s.burstEnd b .timeout, ?_, congrArg TunState.burst tun, ended, code⟩
  change execBurstRepStart s = _
  unfold execBurstRepStart
  rw [hb]
  dsimp only
  rw [if_neg (not_not.mpr hp), if_pos ⟨hd, engaged⟩]

theorem burstFall_parts (s : State) (n : Nat) :
    (s.burstFall n).tun = { s.tun with edges := s.tun.edges ++ [(false, n)] } := by
  have tun : (s.wr64 TUN_BL_LO TUN_BL_HI n).tun = s.tun := part_of_except (State.wr64_same 1 rfl s _ _ _) .tun rfl
  simp only [State.burstFall, State.setTun, tun]

theorem burstRepEnd_last {s : State} {b : Burst} (hb : s.tun.burst = some b) (hp : b.phase = 2) (hl : b.rep ≤ b.done) :
    Answers .burstRepEnd s fun t =>
      t.tun.burst = none ∧ t.on TUN_BST_BUSY = false ∧ t.rd TUN_BST_CODE = codeOf (if b.held then .holdover else .ok) ∧
      t.tun.edges = s.tun.edges ++ [(false, b.rise b.done + b.len)] := by
  obtain ⟨tun, code, ended⟩ := burstEnd_parts (s.burstFall (b.rise b.done + b.len))
    { b with ran := b.ran + b.len, phase := 1 } (if b.held then .holdover else .ok)
  refine ⟨_, ?_, congrArg TunState.burst tun, ended, code, ?_⟩
  · change execBurstRepEnd s = _
    unfold execBurstRepEnd
    rw [hb]
    dsimp only
    rw [if_neg (not_not.mpr hp), if_pos hl]
  · rw [tun, burstFall_parts]

theorem burstRepEnd_more {s : State} {b : Burst} (hb : s.tun.burst = some b) (hp : b.phase = 2) (hl : b.done < b.rep) :
    Answers .burstRepEnd s fun t =>
      (∃ c, t.tun.burst = some c ∧ c.phase = 1 ∧ c.ran = b.ran + b.len) ∧
      t.tun.edges = s.tun.edges ++ [(false, b.rise b.done + b.len)] := by
  refine ⟨(s.burstFall (b.rise b.done + b.len)).setTun fun x =>
    { x with burst := some { b with ran := b.ran + b.len, phase := 1 } }, ?_, ⟨_, rfl, rfl, rfl⟩, ?_⟩
  · change execBurstRepEnd s = _
    unfold execBurstRepEnd
    rw [hb]
    dsimp only
    rw [if_neg (not_not.mpr hp), if_neg (Nat.not_le.mpr hl)]
  · simp only [State.setTun, burstFall_parts]

theorem burstDrain_drains {s : State} {b : Burst} (hb : s.tun.burst = some b) (hp : b.phase = 0) :
    Answers .burstDrain s fun t => t.tun.burst = some { b with phase := 1 } ∧ SameBut [.tun] s t := by
  refine ⟨s.setTun fun x => { x with burst := some { b with phase := 1 } }, ?_, rfl,
    sameBut_of_except (State.setTun_same 262144 rfl s _)⟩
  change execBurstDrain s = _
  unfold execBurstDrain
  rw [hb]
  exact congrArg Host.Outcome.next (if_pos hp)

/-- Settles O27. -/
theorem burstsComplete : Obligations.BurstsComplete := by
  unfold Obligations.BurstsComplete
  refine ⟨fun s w hw => ⟨burstArm_busy hw, fun idle quota early => ?_, burstArm_answers_late hw⟩,
    fun s b hb hp => burstDrain_drains hb hp,
    fun s b hb hp => ⟨burstRepStart_sends hb hp, burstRepStart_quiet hb hp, burstRepStart_engaged hb hp⟩,
    fun s b hb hp => ⟨burstRepEnd_last hb hp, burstRepEnd_more hb hp⟩⟩
  refine (burstArm_answers hw idle quota early).imp fun t ⟨code, busy, left, burst⟩ => ?_
  exact ⟨code, busy, left, _, burst, rfl, rfl, rfl, rfl, rfl, rfl, rfl⟩

end Sys2Proof.Machine

/-! ## The router (O28) -/

namespace Sys2Proof.Machine

open Reg

/-! ### The words of the tenants lie above every block -/

/-- The context pages of the tenants begin at this word. -/
theorem rd_outcome_low {g : Fld} (hk : g.key + 4 ≤ 0x300000) (hg : g.lo + g.width ≤ 32) (s : State) (t r : Nat)
    (c : Status)
    (item : Nat) : (s.outcome t r c item).rd g = s.rd g := by
  have above {f : Fld} (hf : 0x300000 ≤ f.key) : f.free g = true := by
    have narrow : g.width ≤ 32 := by omega
    refine Fld.free_iff.mpr ⟨?_, fun _ => hg⟩
    simp only [Fld.apart, Fld.words, if_pos narrow, Bool.or_eq_true, decide_eq_true_eq]
    omega
  have ring (u : State) (k : Nat) : (u.ringRecord t 1 k r (item % 65536)).rd g = u.rd g := by
    unfold State.ringRecord
    dsimp only
    split
    · exact rd_count_free (above (by simp only [Fld.key, regKey, TNC_RING_OVF]; omega)) u _
    · rw [rd_mk, rd_wr_free (above (by simp only [Fld.key, regKey, TNC_RING_WR]; omega)),
        rd_wr_free (above (by simp only [Fld.key, regKey, TNC_RING]; omega))]
  have told (u : State) (f : Fld) (hf : 0x300000 ≤ f.key) (k key : Nat) :
      State.rd (if key ∈ (u.count f).tnc.told then u.count f
        else let s := (u.count f).ringRecord t 1 k r (item % 65536)
          { s with tnc := { s.tnc with told := key :: s.tnc.told } }) g = u.rd g := by
    split
    · exact rd_count_free (above hf) u _
    · dsimp only
      rw [rd_mk, ring, rd_count_free (above hf)]
  unfold State.outcome
  cases c
  case delayed => exact told s _ (by simp only [Fld.key, regKey, TNC_DLY]; omega) _ _
  case refusedQuota => exact told s _ (by simp only [Fld.key, regKey, TNC_RFQ]; omega) _ _
  case refusedPriority => exact told s _ (by simp only [Fld.key, regKey, TNC_RFP]; omega) _ _
  case skipped => exact told s _ (by simp only [Fld.key, regKey, TNC_SKP]; omega) _ _
  all_goals rfl

theorem bytes_store (s : State) (a : Nat) (b : List Byte) : (s.store a b).bytes a b.length = b :=
  memBytes_store_same s.mem a b

/-! ### Taking an operation -/

theorem expireOps_self {s : State}
    (h : ∀ o ∈ s.ltr.ops, deadlinePassed s.stamp.cyc o.dlc = false) : s.expireOps = s := by
  obtain ⟨rest, none⟩ := filter_not_late h
  unfold State.expireOps
  dsimp only
  rw [none, List.foldl_nil, State.setLtr, rest]

/-! ### The checks read registers alone -/

theorem mapped_of_regs {s t : State} (h : t.regs = s.regs) : t.mapped = s.mapped := by
  have map : t.mapEnd = s.mapEnd := by
    funext a
    unfold State.mapEnd
    rw [rd_of_regs h, on_of_regs h]
  funext a n
  rw [State.mapped, State.mapped, map]

theorem firstDenied_of_regs {s t : State} (h : t.regs = s.regs) : t.firstDenied = s.firstDenied := by
  have window : t.windowEnd = s.windowEnd := by
    funext k tc wr a
    simp only [State.windowEnd, rd_of_regs h, on_of_regs h]
  have grants : t.granted = s.granted := by
    funext k tc wr a n
    rw [State.granted, State.granted, window]
  funext k tc l
  rw [State.firstDenied, State.firstDenied, mapped_of_regs h, grants]

theorem routerStop_of_regs {s t : State} (h : t.regs = s.regs) : t.routerStop = s.routerStop := by
  have reach : t.routerMapped = s.routerMapped := by
    funext x
    rw [State.routerMapped, State.routerMapped, mapped_of_regs h]
  have bad : t.routerBad = s.routerBad := by
    funext c d l
    rw [State.routerBad, State.routerBad, reach]
  funext op d l u
  rw [State.routerStop, State.routerStop, mapped_of_regs h, firstDenied_of_regs h, bad]

/-- The state with an operation taken off the queue. -/
def State.opTaken (s : State) (op : RouterOp) : State := s.setLtr fun x => { x with ops := x.ops.erase op }

section
variable {s : State} {op : RouterOp} (hl : ∀ o ∈ s.ltr.ops, deadlinePassed s.stamp.cyc o.dlc = false)
  (hf : (s.ltr.ops.find? fun o => s.waitMet o.wcnt o.wval) = some op) (he : s.on LTR_EN = true)
  (hr : s.pageRuns 0x090 = true)
  (hs : s.routerStop op (s.memNat op.desc 64) (s.experts (s.memNat op.desc 64)) false = none)
  (hp : s.waitPoisoned op.wcnt = false)
include hl hf he hr hs hp

theorem takeOp_runs (combine : Bool) (hc : op.combine = combine) (ns : Nat) :
    s.takeOp combine ns false none =
      if combine then (s.opTaken op).runCombine op (s.memNat op.desc 64) (s.experts (s.memNat op.desc 64)) none
      else (s.opTaken op).runRoute op (s.memNat op.desc 64) (s.experts (s.memNat op.desc 64)) ns none := by
  have ready : ¬((s.opTaken op).on LTR_EN = false ∨ (s.opTaken op).pageRuns 0x090 = false) := by
    rw [(show (s.opTaken op).pageRuns 0x090 = s.pageRuns 0x090 from rfl), hr, State.opTaken, on_setLtr, he]
    decide
  have stop : (s.opTaken op).routerStop op (s.memNat op.desc 64) (s.experts (s.memNat op.desc 64)) false = none := by
    rw [routerStop_of_regs (t := s.opTaken op) (s := s) rfl]
    exact hs
  have clean : (s.opTaken op).waitPoisoned op.wcnt = false := hp
  unfold State.takeOp
  dsimp only
  rw [expireOps_self hl, hf]
  dsimp only
  rw [if_neg (not_not.mpr hc)]
  change (if (s.opTaken op).on LTR_EN = false ∨ (s.opTaken op).pageRuns 0x090 = false then (s.opTaken op).routerDone op
    .skipped 0
    else match (s.opTaken op).routerStop op (s.memNat op.desc 64) (s.experts (s.memNat op.desc 64)) false with
      | some c => _
      | none => _) = _
  rw [if_neg ready, stop]
  dsimp only
  exact (if_neg fun h => Bool.false_ne_true (clean.symm.trans h)).trans rfl
end

/-! ### What a completed operation leaves -/

theorem routerDone_keeps (s : State) (op : RouterOp) (c : Status) (k : Nat) :
    (s.routerDone op c k).mem = s.mem ∧ (s.routerDone op c k).ltr = s.ltr :=
  ⟨part_of_except (State.routerDone_same 1048577 rfl s op c k) .mem rfl,
    part_of_except (State.routerDone_same 1048577 rfl s op c k) .ltr rfl⟩

theorem settleSignals_router (n : Nat) (s : State) :
    (s.settleSignals n).mem = s.mem ∧ (s.settleSignals n).ltr = s.ltr :=
  ⟨part_of_except (State.settleSignals_same 1310977 rfl n s) .mem rfl,
    part_of_except (State.settleSignals_same 1310977 rfl n s) .ltr rfl⟩

theorem rd_gns_routerDone (s : State) (op : RouterOp) (c : Status) (k : Nat) :
    (s.routerDone op c k).rd LTR_GNS = s.rd LTR_GNS := by
  have signalled : (s.signal op.scnt c).rd LTR_GNS = s.rd LTR_GNS :=
    rd_of_past (State.signal_past (P := [0x080]) rfl s _ _) (by decide)
  unfold State.routerDone
  dsimp only
  rw [rd_of_except (State.setList_same 1048576 rfl _ _ _) rfl, rd_of_except (State.entryDone_same 1048576 rfl _ _ _ _)
    rfl,
    ← signalled]
  generalize s.signal op.scnt c = u
  have counted : ((u.count LTR_OPN).raise 0x090 (if op.combine then 1 else 0)).rd LTR_GNS = u.rd LTR_GNS := by
    rw [rd_raise_free (by decide), rd_count_free (by decide)]
  split
  · rfl
  · rw [← counted]
    generalize (u.count LTR_OPN).raise 0x090 (if op.combine then 1 else 0) = v
    split
    · rw [rd_raise_free (by decide), rd_count_free (by decide)]
    · split
      · exact rd_count_free (by decide) v _
      · rfl

theorem rd_gns_countSkips (s : State) (op : RouterOp) (g : Grist) : (s.countSkips op g).rd LTR_GNS = s.rd LTR_GNS := by
  unfold State.countSkips
  dsimp only
  split
  · rfl
  · have skip : (LTR_TSKIP op.tc).free LTR_GNS = true :=
      free_of_key (Nat.le_of_ble_eq_true rfl) (by decide) (by simp only [Fld.key, regKey, LTR_TSKIP, LTR_GNS]; omega)
    rw [rd_raise_free (by decide), rd_count_free skip]
    refine foldl_keeps (g := fun u : State => u.rd LTR_GNS) (fun u c => ?_) _ s
    have beyond : (LTR_OVF c.2.2.1).free LTR_GNS = true :=
      free_of_key (Nat.le_of_ble_eq_true rfl) (by decide) (by simp only [Fld.key, regKey, LTR_OVF, LTR_GNS]; omega)
    rw [rd_outcome_low (by decide) (by decide), rd_count_free beyond]

/-! ### ROUTE and COMBINE -/

/-- The sort of a route over its gated tokens. -/
def State.sorted (s : State) (d : Nat) (eds : List Nat) : Grist :=
  grist (rdK d) (rdT d) (eds.map edCap) ((List.range (rdT d)).map fun t =>
    gateToken (rdK d) (rdDshift d) s.weight (s.intRowAt (rdLog d + t * rdLstr d) (rdNe d)))

/-- The code of a route. -/
def State.routeCode (s : State) (g : Grist) : Status := if g.skipped = 0 then s.okOr else firstOf .skipped s.okOr

theorem runRoute_parts (s : State) (op : RouterOp) (d : Nat) (eds : List Nat) (ns : Nat) :
    (s.runRoute op d eds ns none).ltr = s.ltr ∧
    (ns < 2 ^ 32 → (s.runRoute op d eds ns none).rd LTR_GNS = min ns 12000) ∧
    (s.runRoute op d eds ns none).bytes (rdDtab d + 64 * 64) 64 = leBytes 64 (routeSummary d (s.sorted d eds)
      (s.routeCode (s.sorted d eds)) (stampNat s.stamp) (min ns 12000)) := by
  unfold State.runRoute
  dsimp only
  have stored (v : State) (b : List Byte) (hb : b.length = 64) :
      (v.store (rdDtab d + 64 * 64) b).bytes (rdDtab d + 64 * 64) 64 = b := by
    rw [← hb]
    exact bytes_store v _ b
  generalize hu : State.store _ (rdDtab d + 64 * 64) _ = u
  have summary : u.bytes (rdDtab d + 64 * 64) 64 = leBytes 64 (routeSummary d (s.sorted d eds)
      (s.routeCode (s.sorted d eds)) (stampNat s.stamp) (min ns 12000)) := by
    rw [← hu]
    exact stored _ _ (leBytes_length _ _)
  have queue : u.ltr = s.ltr := by
    rw [← hu]
    exact part_of_except ((State.store_same 34359738368 rfl _ _ _).trans
      (State.applyWrites_same 34359738368 rfl s _ _)) .ltr rfl
  clear hu
  have left (v : State) (f g : Fld) (m n : Nat) : ((v.wr f m).wr g n).ltr = v.ltr ∧ ((v.wr f m).wr g n).mem = v.mem :=
    ⟨part_of_except ((State.wr_same 1 rfl _ _ _).trans (State.wr_same 1 rfl v _ _)) .ltr rfl,
      part_of_except ((State.wr_same 1 rfl _ _ _).trans (State.wr_same 1 rfl v _ _)) .mem rfl⟩
  have skips (v : State) (g : Grist) : (v.countSkips op g).ltr = v.ltr ∧ (v.countSkips op g).mem = v.mem :=
    ⟨part_of_except (State.countSkips_same 8193 rfl v op g) .ltr rfl,
      part_of_except (State.countSkips_same 8193 rfl v op g) .mem rfl⟩
  refine ⟨?_, fun small => ?_, ?_⟩
  · rw [(routerDone_keeps _ _ _ _).2, (skips _ _).1, (left _ _ _ _ _).1, queue]
  · rw [rd_gns_routerDone, rd_gns_countSkips, rd_wr_free (by decide)]
    exact rd_wr_lt rfl (Nat.lt_of_le_of_lt (Nat.min_le_left _ _) small) u
  · rw [State.bytes, (routerDone_keeps _ _ _ _).1, (skips _ _).2, (left _ _ _ _ _).2]
    exact summary

/-- The summary of a combine. -/
def State.combineSummary (s : State) (d : Nat) (eds : List Nat) : Nat :=
  withCrc64 (codeOf s.okOr * 2 ^ 96 + rdMode d * 2 ^ 104 + stampNat s.stamp * 2 ^ 128 +
    satNat 32 (((List.range (rdT d)).map fun t => (t, s.combineRow d eds t)).foldl (fun a r => a + r.2.2) 0) * 2 ^ 192)

theorem runCombine_parts (s : State) (op : RouterOp) (d : Nat) (eds : List Nat) :
    (s.runCombine op d eds none).ltr = s.ltr ∧
    (s.runCombine op d eds none).bytes (rdDtab d + 64 * 65) 64 = leBytes 64 (s.combineSummary d eds) := by
  have stored (v : State) (b : List Byte) (hb : b.length = 64) :
      (v.store (rdDtab d + 64 * 65) b).bytes (rdDtab d + 64 * 65) 64 = b := by
    rw [← hb]
    exact bytes_store v _ b
  unfold State.runCombine
  dsimp only
  refine ⟨(routerDone_keeps _ _ _ _).2.trans ?_, ?_⟩
  · exact part_of_except ((State.store_same 34359738368 rfl _ _ _).trans
      (State.applyWrites_same 34359738368 rfl s _ _)) .ltr rfl
  · rw [State.bytes, (routerDone_keeps _ _ _ _).1]
    exact stored _ _ (leBytes_length _ _)

section
variable {s : State} {op : RouterOp} {d : Nat} (hl : ∀ o ∈ s.ltr.ops, deadlinePassed s.stamp.cyc o.dlc = false)
  (hf : (s.ltr.ops.find? fun o => s.waitMet o.wcnt o.wval) = some op) (he : s.on LTR_EN = true)
  (hr : s.pageRuns 0x090 = true) (hd : d = s.memNat op.desc 64) (hs : s.routerStop op d (s.experts d) false = none)
  (hp : s.waitPoisoned op.wcnt = false)
include hl hf he hr hd hs hp

theorem routeOp_answers (hc : op.combine = false) (ns : BitVec 32) :
    Answers (.routeOp ns false none) s fun t =>
      t.ltr.ops = s.ltr.ops.erase op ∧ t.rd LTR_GNS = min ns.toNat 12000 ∧
      t.bytes (rdDtab d + 64 * 64) 64 = leBytes 64 (routeSummary d (s.sorted d (s.experts d))
        (s.routeCode (s.sorted d (s.experts d))) (stampNat s.stamp) (min ns.toNat 12000)) := by
  have runs := takeOp_runs hl hf he hr (by rw [← hd]; exact hs) hp false hc ns.toNat
  rw [if_neg Bool.false_ne_true, ← hd] at runs
  obtain ⟨queue, time, summary⟩ := runRoute_parts (s.opTaken op) op d (s.experts d) ns.toNat
  have command : exec (.routeOp ns false none) s = .next ((s.takeOp false ns.toNat false none).settleSignals 1024) :=
    rfl
  refine ⟨_, command, ?_, ?_, ?_⟩
  · rw [(settleSignals_router _ _).2, runs, queue]
    rfl
  · rw [rd_of_past (State.settleSignals_past (P := [0x080]) rfl _ _) (by decide), runs, time ns.isLt]
  · rw [State.bytes, (settleSignals_router _ _).1, runs]
    exact summary

theorem combineOp_answers (hc : op.combine = true) :
    Answers (.combineOp false none) s fun t =>
      t.ltr.ops = s.ltr.ops.erase op ∧
      t.bytes (rdDtab d + 64 * 65) 64 = leBytes 64 (s.combineSummary d (s.experts d)) := by
  have runs := takeOp_runs hl hf he hr (by rw [← hd]; exact hs) hp true hc 0
  rw [if_pos rfl, ← hd] at runs
  obtain ⟨queue, summary⟩ := runCombine_parts (s.opTaken op) op d (s.experts d)
  have command : exec (.combineOp false none) s = .next ((s.takeOp true 0 false none).settleSignals 1024) := rfl
  refine ⟨_, command, ?_, ?_⟩
  · rw [(settleSignals_router _ _).2, runs, queue]
    rfl
  · rw [State.bytes, (settleSignals_router _ _).1, runs]
    exact summary
end

theorem foldl_routerDone_keeps (l : List RouterOp) (s : State) (c : Status) (k : Nat) :
    (l.foldl (fun s o => s.routerDone o c k) s).except 1048577 = s.except 1048577 := by
  induction l generalizing s with
  | nil => rfl
  | cons o r ih => exact (ih _).trans (State.routerDone_same 1048577 rfl s o c k)

theorem routerDeadline_answers (s : State) : Answers .routerDeadline s fun t =>
    t.ltr.ops = s.ltr.ops.filter (fun o => !deadlinePassed s.stamp.cyc o.dlc) ∧ t.mem = s.mem := by
  refine ⟨_, rfl, ?_, ?_⟩
  · rw [(settleSignals_router _ _).2]
    exact congrArg LtrState.ops (part_of_except (foldl_routerDone_keeps _ _ _ _) .ltr rfl)
  · rw [(settleSignals_router _ _).1]
    exact part_of_except (foldl_routerDone_keeps _ _ _ _) .mem rfl

/-! ### A word stored by the access codes of its fields -/

theorem testBit_storedWord (fs : List FieldRow) (old d i : Nat) (hi : i < 32) :
    (storedWord fs old d).testBit i =
      ((if (RegMap.maskOf .rw fs).testBit i then d.testBit i else old.testBit i) &&
        !((RegMap.maskOf .w1c fs).testBit i && d.testBit i)) := by
  have ones : Nat.testBit 0xFFFFFFFF i = true := by
    rw [show (0xFFFFFFFF : Nat) = 2 ^ 32 - 1 from rfl, Nat.testBit_two_pow_sub_one]
    exact decide_eq_true hi
  unfold storedWord
  dsimp only
  simp only [Nat.testBit_and, Nat.testBit_or, Nat.testBit_xor, ones]
  cases (RegMap.maskOf .rw fs).testBit i <;> simp

/-- A field that the access codes keep. -/
theorem bits_storedWord_kept {fs : List FieldRow} {lo w : Nat} (hw : lo + w ≤ 32)
    (h : bits (RegMap.maskOf .rw fs ||| RegMap.maskOf .w1c fs) lo w = 0) (old d : Nat) :
    bits (storedWord fs old d) lo w = bits old lo w := by
  refine Nat.eq_of_testBit_eq fun i => ?_
  rw [testBit_bits, testBit_bits]
  by_cases hi : i < w
  · have off := congrArg (Nat.testBit · i) h
    simp only [testBit_bits, hi, decide_true, Bool.true_and, Nat.testBit_or, Nat.zero_testBit,
      Bool.or_eq_false_iff] at off
    rw [testBit_storedWord fs old d _ (by omega), off.1, off.2]
    simp
  · rw [decide_eq_false hi, Bool.false_and, Bool.false_and]

/-- A field that takes what is written. -/
theorem bits_storedWord_set {fs : List FieldRow} {lo w : Nat} (hw : lo + w ≤ 32)
    (h : bits (RegMap.maskOf .rw fs) lo w = 2 ^ w - 1) (hc : bits (RegMap.maskOf .w1c fs) lo w = 0) (old d : Nat) :
    bits (storedWord fs old d) lo w = bits d lo w := by
  refine Nat.eq_of_testBit_eq fun i => ?_
  rw [testBit_bits, testBit_bits]
  by_cases hi : i < w
  · have on := congrArg (Nat.testBit · i) h
    have off := congrArg (Nat.testBit · i) hc
    simp only [testBit_bits, hi, decide_true, Bool.true_and, Nat.testBit_two_pow_sub_one, Nat.zero_testBit] at on off
    rw [testBit_storedWord fs old d _ (by omega), on, off]
    simp
  · rw [decide_eq_false hi, Bool.false_and, Bool.false_and]

section
variable {page off : Nat} (hn : wideOf page off = none)
include hn

theorem storeWord_one (s : State) (d : Nat) : s.storeWord page off d = s.storeOne page off d := by
  unfold State.storeWord
  rw [hn]

theorem rd_storeWord_kept {lo w : Nat} (hw : lo + w ≤ 32)
    (h : bits (RegMap.maskOf .rw (RegMap.fieldsAt page off) ||| RegMap.maskOf .w1c (RegMap.fieldsAt page off)) lo w = 0)
    (s : State) (d : Nat) : (s.storeWord page off d).rd ⟨page, off, lo, w⟩ = s.rd ⟨page, off, lo, w⟩ := by
  have narrow : w ≤ 32 := by omega
  rw [storeWord_one hn, State.storeOne, State.rd, State.rd, if_pos narrow, if_pos narrow, reg_mendUpsets,
    reg_setReg_same, bits_mod_word _ _ _ hw, bits_storedWord_kept hw h]

theorem rd_storeWord_set {lo w : Nat} (hw : lo + w ≤ 32) (h : bits (RegMap.maskOf .rw
    (RegMap.fieldsAt page off)) lo w = 2 ^ w - 1)
    (hc : bits (RegMap.maskOf .w1c (RegMap.fieldsAt page off)) lo w = 0) (s : State) (d : Nat) :
    (s.storeWord page off d).rd ⟨page, off, lo, w⟩ = bits d lo w := by
  have narrow : w ≤ 32 := by omega
  rw [storeWord_one hn, State.storeOne, State.rd, if_pos narrow, reg_mendUpsets, reg_setReg_same, bits_mod_word _ _ _
    hw,
    bits_storedWord_set hw h hc]

theorem reg_storeWord_other {p o : Nat} (h : regKey p o ≠ regKey page off) (s : State) (d : Nat) :
    (s.storeWord page off d).reg p o = s.reg p o := by
  rw [storeWord_one hn, State.storeOne, reg_mendUpsets, reg_setReg_other _ h]

theorem rd_storeWord_other {f : Fld} (hf : f.width ≤ 32) (h : f.key ≠ regKey page off) (s : State) (d : Nat) :
    (s.storeWord page off d).rd f = s.rd f := by
  rw [State.rd, State.rd, if_pos hf, if_pos hf, reg_storeWord_other hn h]
end

/-! ### LTR_WCOMMIT -/

/-- A value of the shadow weight table. -/
def State.shadowWeight (s : State) (i : Nat) : Nat := s.rd (if i % 2 = 0 then LTR_W_EVEN (i / 2) else LTR_W_ODD (i / 2))

/-- The bounds and the order of the table. -/
def State.tableGood (s : State) : Bool :=
  (List.range 256).all fun i => decide (0x4000 ≤ s.shadowWeight i) && decide (s.shadowWeight i ≤ 0x8000) &&
    (i == 0 || decide (s.shadowWeight (i - 1) ≤ s.shadowWeight i))

/-- The bank that a commit makes active. -/
def State.newBank (s : State) : List (Nat × Word) :=
  ((List.range 128).map fun i => (0x400 + 4 * i, s.reg 0x090 (0x400 + 4 * i))).foldl (fun l x =>
    cellPut (RegMap.resetWord 0x090 x.1) x.1 (BitVec.ofNat 32 x.2) l) []

/-- The old active bank in the registers of the shadow. -/
def State.bankShown (s : State) : State :=
  ((List.range 128).map fun i => (0x400 + 4 * i, s.reg 0x090 (0x400 + 4 * i))).foldl (fun u x =>
    u.setReg 0x090 x.1 (cellAt (RegMap.resetWord 0x090 x.1) x.1 s.ltr.active).toNat) s

theorem weightCommit_good {s : State} (h : s.tableGood = true) :
    s.weightCommit = (.ok, ((s.raise 0x090 4).bankShown.setLtr fun x => { x with active :=
    (s.raise 0x090 4).newBank }).wr
      LTR_WBANK (1 - (s.raise 0x090 4).bankShown.rd LTR_WBANK)) := by
  unfold State.weightCommit
  exact if_pos h

theorem weightCommit_bad {s : State} (h : s.tableGood = false) : s.weightCommit = (.cfgInvalid, s.raise 0x090 4) := by
  unfold State.weightCommit
  exact if_neg (by rw [← Bool.not_eq_true] at h; exact h)

theorem cellAt_newBank (s : State) {i : Nat} (h : i < 128) :
    (cellAt (RegMap.resetWord 0x090 (0x400 + 4 * i)) (0x400 + 4 * i) s.newBank).toNat = s.reg 0x090
    (0x400 + 4 * i) := by
  have fold (n : Nat) (hn : i < n) :
      cellAt (RegMap.resetWord 0x090 (0x400 + 4 * i)) (0x400 + 4 * i)
        (((List.range n).map fun i => (0x400 + 4 * i, s.reg 0x090 (0x400 + 4 * i))).foldl (fun l x =>
          cellPut (RegMap.resetWord 0x090 x.1) x.1 (BitVec.ofNat 32 x.2) l) []) =
        BitVec.ofNat 32 (s.reg 0x090 (0x400 + 4 * i)) := by
    induction n with
    | zero => omega
    | succ n ih =>
      rw [List.range_succ, List.map_append, List.foldl_append]
      by_cases last : i = n
      · subst last
        exact cellAt_put_same _ _ _ _
      · have apart : 0x400 + 4 * i ≠ 0x400 + 4 * n := by omega
        exact (cellAt_put_other _ _ apart _ _).trans (ih (by omega))
  rw [State.newBank, fold 128 h, State.reg]
  simp

/-- The shadow of the other bank stands in the words of the table alone. -/
theorem rd_bankShown {f : Fld} (hf : f.width ≤ 32) (h : f.key < 0x90400) (s : State) : s.bankShown.rd f = s.rd f := by
  have reg : s.bankShown.reg f.page f.off = s.reg f.page f.off := by
    unfold State.bankShown
    generalize s.ltr.active = old
    rw [List.foldl_map]
    refine foldl_keeps (g := fun u : State => u.reg f.page f.off) (fun u i => reg_setReg_other u ?_ _) _ s
    simp only [Fld.key] at h
    simp only [regKey] at h ⊢
    omega
  rw [State.rd, State.rd, if_pos hf, if_pos hf, reg]

theorem shadowWeight_of_reg {s t : State} (h : ∀ o, 0x400 ≤ o → t.reg 0x090 o = s.reg 0x090 o) (i : Nat) :
    t.shadowWeight i = s.shadowWeight i := by
  unfold State.shadowWeight
  split
  · exact congrArg (bits · 0 16) (h _ (by simp only [LTR_W_EVEN]; omega))
  · exact congrArg (bits · 16 16) (h _ (by simp only [LTR_W_ODD]; omega))

/-- Each word of the bank holds two values. -/
theorem weight_of_newBank {s t : State} (h : t.ltr.active = s.newBank) {i : Nat} (hi : i < 256) :
    t.weight i = s.shadowWeight i := by
  have word := cellAt_newBank s (i := i / 2) (by omega)
  have small : s.reg 0x090 (0x400 + 4 * (i / 2)) < 2 ^ 32 := BitVec.isLt _
  unfold State.weight
  dsimp only
  rw [h, word]
  unfold State.shadowWeight
  split
  · change _ = bits (s.reg 0x090 (0x400 + 4 * (i / 2))) 0 16
    rw [bits_eq, Nat.pow_zero, Nat.div_one]
    norm_num
  · change _ = bits (s.reg 0x090 (0x400 + 4 * (i / 2))) 16 16
    rw [bits_eq]
    omega

theorem tableGood_iff
    (s : State) : s.tableGood = true ↔ ∀ i < 256, 0x4000 ≤ s.shadowWeight i ∧ s.shadowWeight i ≤ 0x8000 ∧
    (i = 0 ∨ s.shadowWeight (i - 1) ≤ s.shadowWeight i) := by
  simp only [State.tableGood, List.all_eq_true, List.mem_range, Bool.and_eq_true, Bool.or_eq_true, decide_eq_true_eq,
    beq_iff_eq, and_assoc]

/-- The state in which LTR_WCOMMIT finds the table. -/
theorem storeWord_wcommit (s : State) (d : Nat) :
    (∀ o, o ≠ 0x058 → (s.storeWord 0x090 0x058 d).reg 0x090 o = s.reg 0x090 o) ∧
    (s.storeWord 0x090 0x058 d).rd LTR_WBANK = s.rd LTR_WBANK ∧ (s.storeWord 0x090 0x058 d).ltr = s.ltr :=
  ⟨fun o ho => reg_storeWord_other rfl (by simp only [regKey]; omega) s d,
    rd_storeWord_kept (by decide) (by decide) (by decide) s d,
    part_of_except (State.storeWord_same 41 rfl s _ _ _) .ltr rfl⟩

/-- The word that a command of bit 0 writes. -/
def commanded (w : RegWrite) : Nat := (BitVec.ofNat 32 (setBit w.data.toNat 0)).toNat

theorem ltrWrite_commits (s : State) (w : RegWrite) :
    ltrWrite s ⟨w.port, w.tc.val, 0x090, 0x058, none⟩ (BitVec.ofNat 32 (setBit w.data.toNat 0)).toNat =
      let r := (s.storeWord 0x090 0x058 (commanded w)).weightCommit
      (r.1, r.2.wr LTR_CCODE (codeOf r.1)) := by
  unfold ltrWrite commanded
  dsimp only
  rw [if_pos rfl, if_pos ((bit_command (d := w.data) (k := 0) (by decide)).trans (if_pos rfl))]

theorem ltrWcommit_good {s : State} {w : RegWrite} (hw : s.admitsWrite 0x090 0x058 w (setBit w.data.toNat 0) = true)
    (hg : s.tableGood = true) :
    Answers (.ltrWcommit w) s fun t =>
      t.resp.code = .ok ∧ t.rd LTR_WBANK = 1 - s.rd LTR_WBANK ∧ t.rd LTR_CCODE = codeOf .ok ∧
      ∀ i < 256, t.weight i = s.shadowWeight i := by
  obtain ⟨words, bank, -⟩ := storeWord_wcommit s (commanded w)
  have values := shadowWeight_of_reg (t := s.storeWord 0x090 0x058 (commanded w)) (s := s) fun o ho => words o
    (by omega)
  have raised : ∀ o, 0x400 ≤ o → ((s.storeWord 0x090 0x058 (commanded w)).raise 0x090 4).reg 0x090 o = s.reg 0x090 o :=
    fun o ho =>
    (reg_setReg_other _ (by simp only [regKey, IRQ_RAW]; omega) _).trans (words o (by omega))
  have good : (s.storeWord 0x090 0x058 (commanded w)).tableGood = true := by
    rw [tableGood_iff] at hg ⊢
    simpa only [values] using hg
  have done := ltrWrite_commits s w
  rw [weightCommit_good good] at done
  have active (u v : State) (n : Nat) : ((((u.setLtr fun x => { x with active := v.newBank }).wr LTR_WBANK n).wr
    LTR_CCODE
      (codeOf .ok)).answer .ok).ltr.active = v.newBank :=
    congrArg LtrState.active (part_of_except ((State.answer_same 513 rfl _ _).trans ((State.wr_same 513 rfl _ _ _).trans
      (State.wr_same 513 rfl _ _ _))) .ltr rfl)
  refine answers_write (h := ltrWrite) (f := (setBit · 0)) rfl (by decide) hw done ⟨rfl, ?_, ?_, fun i hi => ?_⟩
  · rw [rd_answer, rd_wr_free (by decide), rd_wr_same _ _ _ rfl, rd_bankShown (by decide) (by decide),
      rd_raise_free (by decide), bank]
    exact Nat.mod_eq_of_lt (by simp only [LTR_WBANK]; omega)
  · rw [rd_answer, rd_wr_lt rfl (codeOf_lt .ok)]
  · rw [weight_of_newBank (s := (s.storeWord 0x090 0x058 (commanded w)).raise 0x090 4) (active _ _ _) hi,
      shadowWeight_of_reg raised]

theorem ltrWcommit_bad {s : State} {w : RegWrite} (hw : s.admitsWrite 0x090 0x058 w (setBit w.data.toNat 0) = true)
    (hb : s.tableGood = false) :
    Answers (.ltrWcommit w) s fun t =>
      t.resp.code = .cfgInvalid ∧ t.ltr = s.ltr ∧ t.rd LTR_WBANK = s.rd LTR_WBANK := by
  obtain ⟨words, bank, queue⟩ := storeWord_wcommit s (commanded w)
  have values := shadowWeight_of_reg (t := s.storeWord 0x090 0x058 (commanded w)) (s := s) fun o ho => words o
    (by omega)
  have bad : (s.storeWord 0x090 0x058 (commanded w)).tableGood = false := by
    simpa only [State.tableGood, values] using hb
  have done := ltrWrite_commits s w
  rw [weightCommit_bad bad] at done
  refine answers_write_coded (h := ltrWrite) (f := (setBit · 0)) rfl (by decide) hw done ⟨rfl, ?_, ?_⟩
  · refine Eq.trans ?_ queue
    exact part_of_except ((State.answer_same 513 rfl _ _).trans ((State.capture_same 513 rfl _ _ _ _ _ _).trans
      ((State.wr_same 513 rfl _ _ _).trans (State.raise_same 513 rfl (s.storeWord 0x090 0x058 (commanded w)) _ _))))
        .ltr rfl
  · rw [rd_answer, rd_capture_other _ _ _ _ _ (by decide) (by decide) (by decide), rd_wr_free (by decide),
      rd_raise_free (by decide), bank]

/-- Settles O28. -/
theorem routerComplete : Obligations.RouterComplete := by
  unfold Obligations.RouterComplete
  refine ⟨fun s op ns d g hl hf hc he hr hd hs hp hg => ?_, fun s op d hl hf hc he hr hd hs hp =>
    combineOp_answers hl hf he hr hd hs hp hc, routerDeadline_answers, fun s w hw =>
      ⟨fun bounds order => ?_, fun low => ?_⟩⟩
  · subst hg
    exact routeOp_answers hl hf he hr hd hs hp hc ns
  · refine (ltrWcommit_good hw ?_).imp fun t ⟨code, bank, sts, values⟩ =>
      ⟨code, bank, sts, fun i => values i.val i.isLt⟩
    refine (tableGood_iff s).mpr fun i hi => ⟨(bounds ⟨i, hi⟩).1, (bounds ⟨i, hi⟩).2, ?_⟩
    rcases i with _ | i
    · exact .inl rfl
    · refine .inr ?_
      have rises := order ⟨i, by omega⟩
      unfold State.shadowWeight
      rcases Nat.mod_two_eq_zero_or_one i with even | odd
      · have next : (i + 1) % 2 ≠ 0 := by omega
        have half : (i + 1) / 2 = i / 2 := by omega
        simpa only [Nat.add_sub_cancel, if_pos even, if_neg next, half] using rises
      · have next : (i + 1) % 2 = 0 := by omega
        have half : (i + 1) / 2 = i / 2 + 1 := by omega
        have this : i % 2 ≠ 0 := by omega
        simpa only [Nat.add_sub_cancel, if_neg this, if_pos next, half] using rises
  · refine ltrWcommit_bad hw ?_
    obtain ⟨i, small⟩ := low
    rw [← Bool.not_eq_true, tableGood_iff]
    intro good
    exact absurd (good i.val i.isLt).1 (Nat.not_le.mpr small)

end Sys2Proof.Machine

/-! ## Windows, rings, lists and their entries (O29, O30) -/

namespace Sys2Proof.Machine

open Reg

/-! ### Registers that the quotas and records of tenants leave -/

theorem free_of_high {f g : Fld} (hf : 0x300000 ≤ f.key) (hk : g.key + 4 ≤ 0x300000) (hg : g.lo + g.width ≤ 32) :
    f.free g = true := by
  have narrow : g.width ≤ 32 := by omega
  refine Fld.free_iff.mpr ⟨?_, fun _ => hg⟩
  simp only [Fld.apart, Fld.words, if_pos narrow, Bool.or_eq_true, decide_eq_true_eq]
  omega

section
variable {g : Fld} (hk : g.key + 4 ≤ 0x300000) (hg : g.lo + g.width ≤ 32)
include hk hg

theorem rd_quotaPut_low (s : State) (r t n : Nat) : (s.quotaPut r t n).rd g = s.rd g := by
  have high {o lo w : Nat} : (⟨0x300 + t, o, lo, w⟩ : Fld).free g = true :=
    free_of_high (by simp only [Fld.key, regKey]; omega) hk hg
  have inf : (TNC_CX_QINF t).free g = true := high
  have used : (TNC_CX_UINF t).free g = true := high
  have air : (TNC_CX_RAIR t).free g = true := high
  have sec : (TNC_CX_RSEC t).free g = true := high
  have cel : (TNC_CX_RCEL t).free g = true := high
  unfold State.quotaPut State.quotaShow
  dsimp only
  split
  · rw [rd_wr_free used, rd_wr_free inf, rd_setTnc]
  · rw [rd_wr_free air, rd_setTnc]
  · rw [rd_wr_free sec, rd_setTnc]
  · rw [rd_wr_free cel, rd_setTnc]
end

/-! ### What starting lists leaves -/

/-- What a list keeps while it waits, starts and runs. -/
def BarmList.terms (l : BarmList) : Nat × Nat × Nat × Nat × List (BitVec 512) :=
    (l.id, l.tc, l.cost, l.fence, l.entries)

/-- What starting lists leaves of the engine. -/
def State.barmKept (s : State) :
    List HeldRecord × (Bool × Nat × Nat) × List (Nat × Nat × Nat × Nat × List (BitVec 512)) × List (Nat × Nat) :=
  (s.barm.held, (s.barm.opened, s.barm.wlen, s.barm.wofs), s.barm.lists.map BarmList.terms, s.tnc.period)

theorem barmKept_of_parts {s t : State} (hb : t.barm = s.barm) (ht : t.tnc.period = s.tnc.period) :
    t.barmKept = s.barmKept := by
  simp only [State.barmKept, hb, ht]

theorem map_terms_of_terms {f : BarmList → BarmList} (h : ∀ l, (f l).terms = l.terms) (l : List BarmList) :
    (l.map f).map BarmList.terms = l.map BarmList.terms := by
  simp only [List.map_map, Function.comp_def, h]

theorem barmKept_setList (s : State) (id : Nat) {f : BarmList → BarmList} (h : ∀ l, (f l).terms = l.terms) :
    (s.setList id f).barmKept = s.barmKept := by
  have lists : (s.barm.lists.map fun l => if l.id = id then f l else l).map BarmList.terms = s.barm.lists.map
    BarmList.terms :=
    map_terms_of_terms (fun l => by split; exact h l; rfl) _
  simp only [State.barmKept, State.setList, State.setBarm, lists]

theorem barmKept_startList (s : State) (l : BarmList) : (s.startList l).barmKept = s.barmKept := by
  have zeroed (cs : List Nat) (u : State) : (cs.foldl State.zeroCounter u).barmKept = u.barmKept :=
    foldl_keeps (g := State.barmKept) (fun u c => barmKept_of_parts
      (part_of_except (State.zeroCounter_same 1 rfl u c) .barm rfl)
      (congrArg TncState.period (part_of_except (State.zeroCounter_same 1 rfl u c) .tnc rfl))) cs u
  have served (u : State) (f : Fld) (v r c t : Nat) : ((u.wr f v).serveTurn r c t).barmKept = u.barmKept := by
    refine barmKept_of_parts (part_of_except ((State.serveTurn_same 8193 rfl _ _ _ _).trans
      (State.wr_same 8193 rfl u f v))
      .barm rfl) ?_
    have left (v : State) (f : Fld) (n : Nat) : (v.wr f n).tnc = v.tnc := part_of_except (State.wr_same 1 rfl v f n)
      .tnc rfl
    unfold State.serveTurn
    dsimp only [State.setTnc]
    split
    · rw [left, left]
    · rw [left]
  unfold State.startList
  dsimp only
  have booked (u : State) (cs ids : List Nat) :
      (u.setBarm fun b => { b with used := cs ++ b.used, order := b.order ++ ids }).barmKept = u.barmKept := rfl
  rw [booked, barmKept_setList, zeroed, served]
  exact fun l => rfl

theorem barmKept_startLists (n : Nat) (s : State) : (s.startLists n).barmKept = s.barmKept := by
  induction n generalizing s with
  | zero => rfl
  | succ n ih =>
    unfold State.startLists
    split
    · split
      · exact (ih _).trans (barmKept_startList s _)
      · split
        · rfl
        · have lists : (s.barm.lists.map fun l => if l.phase = 1 ∧ l.fence ≤ s.stamp.cyc ∧ s.rd BARM_WFREE < l.cost then
              { l with safe := true } else l).map BarmList.terms = s.barm.lists.map BarmList.terms :=
            map_terms_of_terms (fun l => by split <;> rfl) _
          simp only [State.barmKept, State.setBarm, lists]
    · rfl

theorem barmKept_startAll (s : State) : s.startAll.barmKept = s.barmKept := barmKept_startLists 256 s

theorem startAll_mem (s : State) : s.startAll.mem = s.mem := part_of_except (State.startAll_same 1056769 rfl s) .mem rfl

theorem rd_startList {g : Fld} (hp : 0x98060 ≤ g.key) (hq : g.key + 4 ≤ 0x300000) (hg : g.lo + g.width ≤ 32) (s : State)
    (l : BarmList) : (s.startList l).rd g = s.rd g := by
  have below {f : Fld} (hw : f.width ≤ 32) (hf : f.key + 4 ≤ 0x98060) : f.free g = true := free_of_key hw hg
    (.inl (by omega))
  have free : BARM_WFREE.free g = true := below (by decide) (by decide)
  have turn (i c : Nat) (hi : i < 0x1000) : (TNC_RR i c).free g = true :=
    below (Nat.le_of_ble_eq_true rfl) (by simp only [Fld.key, regKey, TNC_RR]; omega)
  have counters (u : State) (cs : List Nat) (hc : ∀ c ∈ cs, c < 112) : (cs.foldl State.zeroCounter u).rd g = u.rd
    g := by
    induction cs generalizing u with
    | nil => rfl
    | cons c r ih =>
      have small := hc c List.mem_cons_self
      have value : (TUN_SYNC_VAL c).free g = true :=
        below (Nat.le_of_ble_eq_true rfl) (by simp only [Fld.key, regKey, TUN_SYNC_VAL]; omega)
      have poison : (TUN_SYNC_POIS c).free g = true :=
        below (Nat.le_of_ble_eq_true rfl) (by simp only [Fld.key, regKey, TUN_SYNC_POIS]; omega)
      rw [List.foldl_cons, ih _ fun d hd => hc d (List.mem_cons_of_mem _ hd), State.zeroCounter, rd_wr_free poison,
        rd_wr_free value]
  have served (u : State) (c t : Nat) : (u.serveTurn 1 c t).rd g = u.rd g := by
    unfold State.serveTurn
    dsimp only
    rw [rd_setTnc]
    split
    · exact rd_wr_free (turn 0 c (by decide)) u t
    · rfl
  have listed (u : State) (f : BarmList → BarmList) : (u.setList l.id f).rd g = u.rd g :=
    rd_of_except (State.setList_same 1048576 rfl u _ _) rfl g
  unfold State.startList
  dsimp only
  rw [rd_setBarm, listed, counters _ _ ?_, served, rd_wr_free free]
  intro c hc
  have mem := List.mem_of_mem_take hc
  simp only [State.freeCounters, Bool.false_eq_true, if_false] at mem
  exact List.mem_range.mp (List.mem_of_mem_filter mem)

theorem rd_startAll {g : Fld} (hp : 0x98060 ≤ g.key) (hq : g.key + 4 ≤ 0x300000) (hg : g.lo + g.width ≤ 32)
    (s : State) :
    s.startAll.rd g = s.rd g := by
  have starts (n : Nat) (u : State) : (u.startLists n).rd g = u.rd g := by
    induction n generalizing u with
    | zero => rfl
    | succ n ih =>
      unfold State.startLists
      split
      · split
        · exact (ih _).trans (rd_startList hp hq hg u _)
        · split
          · rfl
          · exact rd_setBarm u _ g
      · rfl
  exact starts 256 s

/-! ### WINDOW_BOUNDARY -/

/-- The window in force, as the registers and the engine hold it. -/
def State.windowSet (s : State) : (Bool × Nat × Nat) × List (Nat × Nat) × Nat × Nat :=
  ((s.barm.opened, s.barm.wlen, s.barm.wofs), s.tnc.period, s.rd BARM_WC_LO, s.rd BARM_WC_HI)

theorem windowSet_of_parts {s t : State} (hb : t.barm = s.barm) (hp : t.tnc.period = s.tnc.period)
    (hr : ∀ g : Fld, 0x98060 ≤ g.key → g.key ≤ 0x98064 → g.lo + g.width ≤ 32 → t.rd g = s.rd g) :
    t.windowSet = s.windowSet := by
  simp only [State.windowSet, hb, hp, hr BARM_WC_LO (by decide) (by decide) (by decide),
    hr BARM_WC_HI (by decide) (by decide) (by decide)]

theorem windowSet_wr (s : State) {f : Fld} (hw : f.width ≤ 32) (hf : f.key + 4 ≤ 0x98060 ∨ 0x98068 ≤ f.key) (v : Nat) :
    (s.wr f v).windowSet = s.windowSet :=
  windowSet_of_parts (part_of_except (State.wr_same 1 rfl s f v) .barm rfl)
    (congrArg TncState.period (part_of_except (State.wr_same 1 rfl s f v) .tnc rfl))
    fun g hp hq hg => rd_wr_free (free_of_key hw hg (by omega)) s v

theorem windowSet_count (s : State) {f : Fld} (hw : f.width ≤ 32) (hf : f.key + 4 ≤ 0x98060 ∨ 0x98068 ≤ f.key)
    (n : Nat) :
    (s.count f n).windowSet = s.windowSet := windowSet_wr s hw hf _

theorem windowSet_raise (s : State) (b : Nat) : (s.raise 0x098 b).windowSet = s.windowSet :=
  windowSet_wr s (by decide) (.inl (by decide)) _

theorem windowSet_of_except {m : Nat} {s t : State} (h : t.except m = s.except m) (hr : m.testBit 0 = false)
    (hb : m.testBit Part.barm.num = false) (ht : m.testBit Part.tnc.num = false) : t.windowSet = s.windowSet :=
  windowSet_of_parts (part_of_except h .barm hb) (congrArg TncState.period (part_of_except h .tnc ht))
    fun g _ _ _ => rd_of_except h hr g

theorem outcome_period (s : State) (t r : Nat) (c : Status) (item : Nat) :
    (s.outcome t r c item).tnc.period = s.tnc.period := by
  have wrote (u : State) (f : Fld) (v : Nat) : (u.wr f v).tnc = u.tnc := part_of_except (State.wr_same 1 rfl u f v)
    .tnc rfl
  have counted (u : State) (f : Fld) : (u.count f).tnc = u.tnc := wrote u f _
  have ring (u : State) (k d : Nat) : (u.ringRecord t 1 k r d).tnc.period = u.tnc.period := by
    unfold State.ringRecord
    dsimp only
    split
    · rw [counted]
    · dsimp only
      rw [wrote, wrote]
  unfold State.outcome
  dsimp only
  split
  · rfl
  · split
    · rw [counted]
    · dsimp only
      rw [ring, counted]

theorem windowSet_outcome (s : State) (t r : Nat) (c : Status) (item : Nat) :
    (s.outcome t r c item).windowSet = s.windowSet :=
  windowSet_of_parts (part_of_except (State.outcome_same 8193 rfl s t r c item) .barm rfl) (outcome_period s t r c item)
    fun g _ hq hg => rd_outcome_low (by omega) hg s t r c item

theorem windowSet_sendRecord (s : State) (t : Nat) (r : RingCfg) (w : Nat) :
    (s.sendRecord t r w).windowSet = s.windowSet := by
  unfold State.sendRecord
  split
  · rw [windowSet_wr _ (Nat.le_of_ble_eq_true rfl) (.inr (by simp only [Fld.key, regKey, BARM_RHOLD]; omega))]
    rfl
  · exact windowSet_of_except (State.putRecord_same 34359738368 rfl s r w) rfl rfl rfl

theorem windowSet_failList (s : State) (t : Nat) (r : RingCfg) (c : Status) (item : Nat) (x : Option Span) :
    (s.failList t r c item x).windowSet = s.windowSet := by
  have counted (u : State) : (((u.count (BARM_RREF t)).raise 0x098 1)).windowSet = u.windowSet := by
    rw [windowSet_raise, windowSet_count _ (Nat.le_of_ble_eq_true rfl) (.inr
      (by simp only [Fld.key, regKey, BARM_RREF]; omega))]
  have bad (u : State) : (u.count BARM_BADN).windowSet = u.windowSet := windowSet_count u (by decide)
    (.inr (by decide)) _
  have logged (u : State) (k d : Nat) : (u.log k t d).windowSet = u.windowSet :=
    windowSet_of_except (State.log_same 256 rfl u k t d) rfl rfl rfl
  have denied (u : State) (x : Span) : (u.windowFault t 6 x).windowSet = u.windowSet :=
    windowSet_of_except (State.windowFault_same 256 rfl u t 6 x) rfl rfl rfl
  unfold State.failList State.refusalRecord
  dsimp only
  rw [windowSet_sendRecord]
  split
  all_goals
    simp only [apply_ite State.windowSet, denied, logged, windowSet_outcome, bad, counted, ite_self]

theorem windowSet_setBarm (s : State) {f : BarmState → BarmState}
    (h : ((f s.barm).opened, (f s.barm).wlen, (f s.barm).wofs) = (s.barm.opened, s.barm.wlen, s.barm.wofs)) :
    (s.setBarm f).windowSet = s.windowSet := by
  simp only [State.windowSet, rd_setBarm]
  rw [← h]
  rfl

theorem windowSet_setList (s : State) (id : Nat) (f : BarmList → BarmList) : (s.setList id f).windowSet = s.windowSet :=
  windowSet_setBarm s rfl

theorem windowSet_dropList (s : State) (id : Nat) : (s.dropList id).windowSet = s.windowSet :=
  windowSet_setBarm s rfl

theorem quotaPut_period (s : State) (r t n : Nat) : (s.quotaPut r t n).tnc.period = s.tnc.period := by
  have shown (u : State) : (u.quotaShow r t).tnc = u.tnc := part_of_except (State.quotaShow_same 1 rfl u r t) .tnc rfl
  rw [State.quotaPut, shown]
  rfl

theorem windowSet_quotaPut (s : State) (r t n : Nat) : (s.quotaPut r t n).windowSet = s.windowSet :=
  windowSet_of_parts (part_of_except (State.quotaPut_same 8193 rfl s r t n) .barm rfl) (quotaPut_period s r t n)
    fun g _ hq hg => rd_quotaPut_low (by omega) hg s r t n

theorem windowSet_admitList (s : State) (l : BarmList) : (s.admitList l).windowSet = s.windowSet := by
  have admitted : (BARM_RADM l.tc).width ≤ 32 ∧ 0x98068 ≤ (BARM_RADM l.tc).key :=
    ⟨Nat.le_of_ble_eq_true rfl, by simp only [Fld.key, regKey, BARM_RADM]; omega⟩
  unfold State.admitList State.takeQuota
  split
  · next t taken =>
    split at taken
    · cases taken
    · cases taken
      rw [windowSet_count _ admitted.1 (.inr admitted.2), windowSet_setList, windowSet_quotaPut]
  · rw [windowSet_failList, windowSet_dropList]

theorem windowSet_startAll (s : State) : s.startAll.windowSet = s.windowSet := by
  have kept := barmKept_startAll s
  simp only [State.barmKept, Prod.mk.injEq] at kept
  obtain ⟨-, set, -, period⟩ := kept
  simp only [State.windowSet, set, period, rd_startAll (g := BARM_WC_LO) (by decide) (by decide) (by decide),
    rd_startAll (g := BARM_WC_HI) (by decide) (by decide) (by decide)]

theorem windowSet_computeCapacity (s : State) : s.computeCapacity.windowSet = s.windowSet := by
  unfold State.computeCapacity
  dsimp only
  rw [windowSet_wr _ (by decide) (.inl (by decide)), windowSet_wr _ (by decide) (.inl (by decide))]

theorem windowSet_admitPooled (s : State) : s.admitPooled.windowSet = s.windowSet :=
  foldl_keeps (g := State.windowSet) windowSet_admitList _ s

theorem refill_windowSet (s : State) (first : Nat) :
    (s.refill 1 first).windowSet = ((s.barm.opened, s.barm.wlen, s.barm.wofs), cellPut 0 1 (first + 1) s.tnc.period,
      s.rd BARM_WC_LO, s.rd BARM_WC_HI) := by
  unfold State.refill
  refine (foldl_keeps (g := State.windowSet) (fun u t => ?_) _ _).trans rfl
  exact windowSet_quotaPut (u.setTnc _) 1 t _

/-- The window that a boundary opens. -/
def State.windowOpened (s : State) : State :=
  let s := s.setBarm fun b => { b with wlen := max 1 (s.rd BARM_WLEN), wofs := s.rd BARM_WOFS, opened := true }
  (s.wr BARM_WC_LO (s.windowFirst % 2 ^ 32)).wr BARM_WC_HI (s.windowFirst / 2 ^ 32)

/-- The first cycle of the window that the configured length and offset put the present cycle in. -/
def State.windowStart (s : State) : Nat :=
  (s.setBarm fun b => { b with wlen := max 1 (s.rd BARM_WLEN), wofs := s.rd BARM_WOFS, opened := true }).windowFirst

theorem windowBoundary_opens {s : State} (hr : s.pageRuns 0x098 = true) (hd : s.windowDue = true) :
    exec .windowBoundary s = .next
      (if s.windowOpened.periodOf 1 = s.windowStart + 1 then s.windowOpened
        else s.windowOpened.refill 1 s.windowStart).computeCapacity.admitPooled.startAll := by
  change execWindowBoundary s = _
  unfold execWindowBoundary
  rw [hr, hd]
  rfl

theorem windowOpened_stamp (s : State) : s.windowOpened.stamp = s.stamp := by
  have ctf : s.windowOpened.ctf = s.ctf := part_of_except ((State.wr_same 1048577 rfl _ _ _).trans
    ((State.wr_same 1048577 rfl _ _ _).trans (State.setBarm_same 1048577 rfl s _))) .ctf rfl
  rw [State.stamp, State.stamp, ctf]

/-- The offset of a window's first cycle within it is zero, and its length lies ahead of the present cycle. -/
theorem windowFirst_starts (s : State) (h : 0 < s.barm.wlen) :
    s.windowFirst ≤ s.stamp.cyc ∧ s.stamp.cyc < s.windowFirst + (s.barm.wlen - s.inWindow s.windowFirst) := by
  have pos : max 1 s.barm.wlen = s.barm.wlen := Nat.max_eq_right h
  simp only [State.windowFirst, State.inWindow, pos]
  generalize s.stamp.cyc = n
  generalize hl : s.barm.wlen = l at h
  have small : s.barm.wofs % l < l := Nat.mod_lt _ h
  generalize s.barm.wofs % l = w at small
  refine ⟨Nat.sub_le _ _, ?_⟩
  by_cases early : n < w
  · have offset : (n + l - w) % l = n + l - w := Nat.mod_eq_of_lt (by omega)
    have first : n - (n + l - w) = 0 := by omega
    have origin : (0 + l - w) % l = l - w := (Nat.mod_eq_of_lt (by omega)).trans (by omega)
    rw [offset, first, origin]
    omega
  · have offset : (n + l - w) % l = (n - w) % l := by
      rw [show n + l - w = n - w + l by omega, Nat.add_mod_right]
    have less : (n - w) % l < l := Nat.mod_lt _ h
    have whole := Nat.div_add_mod (n - w) l
    have start : (n - (n - w) % l + l - w) % l = 0 := by
      rw [show n - (n - w) % l + l - w = l * ((n - w) / l) + l by omega, Nat.add_mod_right, Nat.mul_mod_right]
    rw [offset, start]
    omega

theorem windowOpened_first {s : State} (hs : s.stamp.cyc < 2 ^ 48) : s.windowOpened.windowSet =
    ((true, max 1 (s.rd BARM_WLEN), s.rd BARM_WOFS), s.tnc.period, s.windowStart % 2 ^ 32, s.windowStart / 2 ^ 32) := by
  have tnc : s.windowOpened.tnc = s.tnc := part_of_except ((State.wr_same 1048577 rfl _ _ _).trans
    ((State.wr_same 1048577 rfl _ _ _).trans (State.setBarm_same 1048577 rfl s _))) .tnc rfl
  have barm : s.windowOpened.barm = { s.barm with wlen := max 1 (s.rd BARM_WLEN), wofs := s.rd BARM_WOFS, opened :=
    true } :=
    part_of_except ((State.wr_same 1 rfl _ _ _).trans (State.wr_same 1 rfl _ _ _)) .barm rfl
  have low : s.windowOpened.rd BARM_WC_LO = s.windowStart % 2 ^ 32 := by
    rw [State.windowOpened]
    rw [rd_wr_free (by decide), rd_wr_same _ _ _ rfl, BARM_WC_LO, Nat.mod_mod]
    rfl
  have small : s.windowStart < 2 ^ 48 := Nat.lt_of_le_of_lt (Nat.sub_le _ _) hs
  have high : s.windowOpened.rd BARM_WC_HI = s.windowStart / 2 ^ 32 := by
    rw [State.windowOpened]
    have fits : s.windowStart / 2 ^ 32 < 2 ^ 16 := by omega
    exact rd_wr_lt rfl fits _
  simp only [State.windowSet, tnc, barm, low, high]

theorem windowBoundary_answers {s : State} (hr : s.pageRuns 0x098 = true) (hd : s.windowDue = true)
    (hs : s.stamp.cyc < 2 ^ 48) :
    Answers .windowBoundary s fun t =>
      t.barm.opened = true ∧ t.barm.wlen = max 1 (s.rd BARM_WLEN) ∧ t.barm.wofs = s.rd BARM_WOFS ∧
      t.windowCyc = t.windowFirst ∧ t.windowDue = false ∧ t.periodOf 1 = t.windowCyc + 1 := by
  refine ⟨_, windowBoundary_opens hr hd, ?_⟩
  generalize hu : (if s.windowOpened.periodOf 1 = s.windowStart + 1 then s.windowOpened
    else s.windowOpened.refill 1 s.windowStart) = u
  have opened := windowOpened_first hs
  simp only [State.windowSet, Prod.mk.injEq] at opened
  obtain ⟨⟨op, len, ofs⟩, -, low, high⟩ := opened
  have set : u.windowSet = ((true, max 1 (s.rd BARM_WLEN), s.rd BARM_WOFS), u.tnc.period, s.windowStart % 2 ^ 32,
      s.windowStart / 2 ^ 32) ∧ u.periodOf 1 = s.windowStart + 1 ∧ u.stamp = s.stamp := by
    rw [← hu]
    split
    · next same => exact ⟨by simp only [State.windowSet, op, len, ofs, low, high], same, windowOpened_stamp s⟩
    · have set := refill_windowSet s.windowOpened s.windowStart
      have period : (s.windowOpened.refill 1 s.windowStart).tnc.period =
          cellPut 0 1 (s.windowStart + 1) s.windowOpened.tnc.period := congrArg (fun x => x.2.1) set
      refine ⟨?_, ?_, ?_⟩
      · rw [set, op, len, ofs, low, high, period]
      · rw [State.periodOf, period]
        exact cellAt_put_same _ _ _ _
      · rw [← windowOpened_stamp s, State.stamp, State.stamp,
          part_of_except (State.refill_same 8193 rfl s.windowOpened 1 s.windowStart) .ctf rfl]
  clear hu
  obtain ⟨set, period, stamp⟩ := set
  generalize ht : u.computeCapacity.admitPooled.startAll = t
  have kept : t.windowSet = u.windowSet := by
    rw [← ht, windowSet_startAll, windowSet_admitPooled, windowSet_computeCapacity]
  have now : t.stamp = s.stamp := by
    rw [← stamp, ← ht, State.stamp, State.stamp, part_of_except ((State.startAll_same 34360795393 rfl _).trans
      ((State.admitPooled_same 34360795393 rfl _).trans (State.computeCapacity_same 34360795393 rfl u))) .ctf rfl]
  have time : t.periodOf 1 = s.windowStart + 1 := by
    rw [← period, State.periodOf, State.periodOf, (show t.tnc.period = u.tnc.period from congrArg (fun x => x.2.1)
      kept)]
  clear ht
  rw [set] at kept
  simp only [State.windowSet, Prod.mk.injEq] at kept
  obtain ⟨⟨op, len, ofs⟩, -, low, high⟩ := kept
  have cycle : t.windowCyc = s.windowStart := by
    rw [State.windowCyc, low, high]
    exact Nat.mod_add_div _ _
  have first : t.windowFirst = s.windowStart := by
    simp only [State.windowStart, State.windowFirst, State.inWindow, len, ofs, now]
    rfl
  have starts := windowFirst_starts t (by rw [len]; omega)
  refine ⟨op, len, ofs, cycle.trans first.symm, ?_, by rw [time, cycle]⟩
  rw [State.windowDue, State.windowNext, cycle, op, ← first, Nat.max_eq_right (by rw [len]; omega)]
  simpa using starts.2

/-! ### Memory read back -/

theorem memBytes_congr {m m' : List Host.Cell} {a n : Nat} (h : ∀ i, a ≤ i → i < a + n → memByte m i = memByte m' i) :
    memBytes m a n = memBytes m' a n := by
  induction n generalizing a with
  | zero => rfl
  | succ n ih =>
    rw [memBytes, memBytes, h a (Nat.le_refl a) (by omega), ih fun i lo hi => h i (by omega) (by omega)]

theorem bytes_store_other (s : State) {a b n : Nat} {bs : List Byte} (h : a + n ≤ b ∨ b + bs.length ≤ a) :
    (s.store b bs).bytes a n = s.bytes a n :=
  memBytes_congr fun i lo hi => memByte_store_other s.mem b i bs (by omega)

theorem leNat_leBytes (k n : Nat) : leNat (leBytes k n) = n % 256 ^ k := by
  induction k generalizing n with
  | zero => rw [Nat.pow_zero, Nat.mod_one]; rfl
  | succ k ih =>
    have split : n % 256 ^ (k + 1) = n % 256 + 256 * (n / 256 % 256 ^ k) := by
      rw [Nat.pow_succ, Nat.mul_comm, Nat.mod_mul]
    rw [leBytes, leNat, ih, split, BitVec.toNat_ofNat]

theorem leNat_lt (l : List Byte) : leNat l < 256 ^ l.length := by
  induction l with
  | nil => exact Nat.one_pos
  | cons b r ih =>
    have byte := b.isLt
    rw [leNat, List.length_cons, Nat.pow_succ]
    omega

theorem memBytes_length (m : List Host.Cell) (a n : Nat) : (memBytes m a n).length = n := by
  induction n generalizing a with
  | zero => rfl
  | succ n ih => rw [memBytes, List.length_cons, ih]

theorem memNat_store_same (s : State) (a k n : Nat) : (s.store a (leBytes k n)).memNat a k = n % 256 ^ k := by
  have stored := bytes_store s a (leBytes k n)
  rw [leBytes_length] at stored
  rw [State.memNat, stored, leNat_leBytes]

theorem memNat_store_other (s : State) {a b n : Nat} {bs : List Byte} (h : a + n ≤ b ∨ b + bs.length ≤ a) :
    (s.store b bs).memNat a n = s.memNat a n := congrArg leNat (bytes_store_other s h)

theorem memNat_of_mem {s t : State} (h : t.mem = s.mem) (a n : Nat) : t.memNat a n = s.memNat a n := by
  rw [State.memNat, State.memNat, State.bytes, State.bytes, h]

theorem ringIdx_lt (s : State) (a : Nat) : s.ringIdx a < 65536 := by
  have small := leNat_lt (s.bytes a 2)
  rw [State.bytes, memBytes_length] at small
  exact small

/-! ### Windows and map under writes elsewhere -/

theorem findSome?_congr_mem {α β : Type} {f g : α → Option β} {l : List α} (h : ∀ x ∈ l, f x = g x) :
    l.findSome? f = l.findSome? g := by
  induction l with
  | nil => rfl
  | cons x r ih =>
    rw [List.findSome?_cons, List.findSome?_cons, h x List.mem_cons_self, ih fun y hy => h y
      (List.mem_cons_of_mem _ hy)]

section
variable {s t : State}
  (h : ∀ f : Fld, f.lo + f.width ≤ 32 → f.key < 0x81000 ∨ 0xA2000 ≤ f.key ∧ f.key < 0xA3000 → t.rd f = s.rd f)
include h

theorem mapped_of_rd (a n : Nat) : t.mapped a n = s.mapped a n := by
  have size : t.rd CCX_DDR_MIB = s.rd CCX_DDR_MIB := h _ (by decide) (by decide)
  have ready : t.on CCX_DDR_READY = s.on CCX_DDR_READY := by rw [State.on, State.on, h _ (by decide) (by decide)]
  have map : t.mapEnd = s.mapEnd := by
    funext a
    unfold State.mapEnd
    rw [size, ready]
  rw [State.mapped, State.mapped, map]

theorem granted_of_rd {tc : Nat} (ht : tc < 64) (k : Option Nat) (write : Bool) (a n : Nat) :
    t.granted k tc write a n = s.granted k tc write a n := by
  have window : t.windowEnd k tc write = s.windowEnd k tc write := by
    funext a
    unfold State.windowEnd
    refine findSome?_congr_mem fun j hj => ?_
    have small := List.mem_range.mp hj
    have en : t.on (TUN_WIN_EN tc j) = s.on (TUN_WIN_EN tc j) := by
      rw [State.on, State.on, h (TUN_WIN_EN tc j) (Nat.le_of_ble_eq_true rfl)
        (.inl (by simp only [Fld.key, regKey, TUN_WIN_EN]; omega))]
    have reads : t.on (TUN_WIN_R tc j) = s.on (TUN_WIN_R tc j) := by
      rw [State.on, State.on, h (TUN_WIN_R tc j) (Nat.le_of_ble_eq_true rfl)
        (.inl (by simp only [Fld.key, regKey, TUN_WIN_R]; omega))]
    have writes : t.on (TUN_WIN_W tc j) = s.on (TUN_WIN_W tc j) := by
      rw [State.on, State.on, h (TUN_WIN_W tc j) (Nat.le_of_ble_eq_true rfl)
        (.inl (by simp only [Fld.key, regKey, TUN_WIN_W]; omega))]
    have base : t.rd (TUN_WIN_BASE tc j) = s.rd (TUN_WIN_BASE tc j) :=
      h _ (Nat.le_of_ble_eq_true rfl) (.inl (by simp only [Fld.key, regKey, TUN_WIN_BASE]; omega))
    have size : t.rd (TUN_WIN_SIZE tc j) = s.rd (TUN_WIN_SIZE tc j) :=
      h _ (Nat.le_of_ble_eq_true rfl) (.inl (by simp only [Fld.key, regKey, TUN_WIN_SIZE]; omega))
    have may : t.on (if write then TUN_WIN_W tc j else TUN_WIN_R tc j) =
        s.on (if write then TUN_WIN_W tc j else TUN_WIN_R tc j) := by
      cases write
      · exact reads
      · exact writes
    simp only [en, may, base, size]
  rw [State.granted, State.granted, window]

theorem tenantMay_of_rd {tc : Nat} (ht : tc < 64) (write : Bool) (a n : Nat) :
    t.tenantMay tc write a n = s.tenantMay tc write a n := by
  rw [State.tenantMay, State.tenantMay, mapped_of_rd h, granted_of_rd h ht]
end

/-! ### The poll of a ring -/

theorem windowBoundary_waits {s : State} (h : s.windowDue = false) : Answers .windowBoundary s fun t => t = s := by
  refine ⟨s, ?_, rfl⟩
  change execWindowBoundary s = _
  exact congrArg Host.Outcome.next (if_pos (.inr h))

section
variable {s : State} {k : Nat} (he : s.on BARM_EN = true) (hn : s.on (BARM_REN k) = true) (hr : s.pageRuns 0x098 = true)
include he hn hr

theorem pollRing_faults (hb : s.tenantMay k false (s.ringOf k).base (s.ringOf k).len = false ∨
      s.tenantMay k true (s.ringOf k).base (s.ringOf k).len = false ∨
      2 ^ (s.ringOf k).sl < (s.ringIdx (s.ringOf k).base + 65536 - s.ringIdx ((s.ringOf k).base + 0x04)) % 65536)
    (hf : s.on (BARM_RFAULT k) = false) :
    s.pollRing k = ((s.wr (BARM_RFAULT k) 1).raise 0x098 2).log 0x5007 k 0 := by
  have runs : ¬(s.on BARM_EN = false ∨ s.on (BARM_REN k) = false ∨ s.pageRuns 0x098 = false) := by
    rw [he, hn, hr]
    decide
  have bad : (!(s.tenantMay k false (s.ringOf k).base (s.ringOf k).len && s.tenantMay k true (s.ringOf k).base
    (s.ringOf k).len) ||
      decide (2 ^ (s.ringOf k).sl <
        (s.ringIdx (s.ringOf k).base + 65536 - s.ringIdx ((s.ringOf k).base + 0x04)) % 65536)) = true := by
    rcases hb with off | off | off
    · rw [off]; rfl
    · rw [off, Bool.and_false]; rfl
    · rw [decide_eq_true off, Bool.or_true]
  unfold State.pollRing
  rw [if_neg runs]
  dsimp only
  rw [if_pos bad, hf]
  rfl

theorem pollRing_reads (hm : s.tenantMay k false (s.ringOf k).base (s.ringOf k).len = true)
    (hw : s.tenantMay k true (s.ringOf k).base (s.ringOf k).len = true)
    (hi : (s.ringIdx ((s.ringOf k).base + 0x04) + 1) % 65536 = s.ringIdx (s.ringOf k).base) :
    s.pollRing k = (State.readSlots k (s.ringOf k) 256 (s.wr (BARM_RFAULT k) 0)).startAll := by
  have runs : ¬(s.on BARM_EN = false ∨ s.on (BARM_REN k) = false ∨ s.pageRuns 0x098 = false) := by
    rw [he, hn, hr]
    decide
  have one : (s.ringIdx (s.ringOf k).base + 65536 - s.ringIdx ((s.ringOf k).base + 0x04)) % 65536 = 1 := by
    have small := ringIdx_lt s ((s.ringOf k).base + 0x04)
    omega
  have good : ¬((!(s.tenantMay k false (s.ringOf k).base (s.ringOf k).len && s.tenantMay k true (s.ringOf k).base
    (s.ringOf k).len) ||
      decide (2 ^ (s.ringOf k).sl <
        (s.ringIdx (s.ringOf k).base + 65536 - s.ringIdx ((s.ringOf k).base + 0x04)) % 65536)) = true) := by
    rw [hm, hw, one, decide_eq_false (Nat.not_lt.mpr Nat.one_le_two_pow)]
    decide
  unfold State.pollRing
  rw [if_neg runs]
  dsimp only
  rw [if_neg good]
end

theorem ringPoll_faults {s : State} {k : Fin 64} (he : s.on BARM_EN = true) (hn : s.on (BARM_REN k.val) = true)
    (hr : s.pageRuns 0x098 = true) (hb : s.tenantMay k.val false (s.ringOf k.val).base (s.ringOf k.val).len = false ∨
      s.tenantMay k.val true (s.ringOf k.val).base (s.ringOf k.val).len = false ∨
      2 ^ (s.ringOf k.val).sl < (s.ringIdx (s.ringOf k.val).base + 65536 - s.ringIdx ((s.ringOf k.val).base + 0x04)) %
        65536)
    (hf : s.on (BARM_RFAULT k.val) = false) :
    Answers (.barmRingPoll k) s fun t =>
      t.on (BARM_RFAULT k.val) = true ∧ Logged s t 0x5007 k.val 0 ∧ t.barm = s.barm ∧ t.mem = s.mem := by
  have command : exec (.barmRingPoll k) s = .next (((s.wr (BARM_RFAULT k.val) 1).raise 0x098 2).log 0x5007 k.val 0) :=
    congrArg Host.Outcome.next (pollRing_faults he hn hr hb hf)
  have free : (IRQ_RAW 0x098).free (BARM_RFAULT k.val) = true :=
    free_of_key (by decide) (Nat.le_of_ble_eq_true rfl) (by simp only [Fld.key, regKey, IRQ_RAW, BARM_RFAULT]; omega)
  have same : (((s.wr (BARM_RFAULT k.val) 1).raise 0x098 2).log 0x5007 k.val 0).except 257 = s.except 257 :=
    (State.log_same 257 rfl _ _ _ _).trans ((State.raise_same 257 rfl _ _ _).trans (State.wr_same 257 rfl s _ _))
  refine ⟨_, command, ?_, ?_, part_of_except same .barm rfl, part_of_except same .mem rfl⟩
  · rw [on_log, on_raise_free free]
    exact on_wr_b2n rfl (Nat.le_of_ble_eq_true rfl) s true
  · exact congrArg (· ++ _) (part_of_except ((State.raise_same 1 rfl _ _ _).trans (State.wr_same 1 rfl s _ _)) .events
      rfl)

/-! ### One new slot -/

/-- A failed list leaves the memory below the completion index of its ring. -/
theorem memByte_failList {a : Nat} {r : RingCfg} (ha : a < r.base + 0x08) (s : State) (t : Nat) (c : Status)
    (item : Nat)
    (x : Option Span) : memByte (s.failList t r c item x).mem a = memByte s.mem a := by
  have put (u : State) (w : Nat) : memByte (u.putRecord r w).mem a = memByte u.mem a := by
    unfold State.putRecord
    dsimp only [State.store]
    rw [memByte_store_other _ _ _ _ (.inl ha), memByte_store_other _ _ _ _
      (.inl (by simp only [RingCfg.compBase]; omega))]
  have sent (u : State) (w : Nat) : memByte (u.sendRecord t r w).mem a = memByte u.mem a := by
    unfold State.sendRecord
    split
    · rw [part_of_except ((State.wr_same 1048577 rfl _ _ _).trans (State.setBarm_same 1048577 rfl u _)) .mem rfl]
    · exact put u w
  unfold State.failList State.refusalRecord
  dsimp only
  rw [sent]
  refine congrArg (memByte · a) ?_
  have counted (u : State) (f : Fld) : (u.count f).mem = u.mem := part_of_except (State.count_same 1 rfl u f _) .mem rfl
  have raised (u : State) (b : Nat) : (u.raise 0x098 b).mem = u.mem := part_of_except (State.raise_same 1 rfl u _ b)
    .mem rfl
  have told (u : State) : (u.outcome t resInf c item).mem = u.mem :=
    part_of_except (State.outcome_same 8193 rfl u t resInf c item) .mem rfl
  have logged (u : State) (k d : Nat) : (u.log k t d).mem = u.mem := part_of_except (State.log_same 256 rfl u k t d)
    .mem rfl
  have denied (u : State) (x : Span) : (u.windowFault t 6 x).mem = u.mem :=
    part_of_except (State.windowFault_same 256 rfl u t 6 x) .mem rfl
  split
  all_goals simp only [apply_ite State.mem, denied, logged, told, counted, raised, ite_self]

theorem memByte_admitList {a : Nat} {l : BarmList} (ha : a < l.ring.base + 0x08) (s : State) :
    memByte (s.admitList l).mem a = memByte s.mem a := by
  unfold State.admitList State.takeQuota
  split
  · next t taken =>
    split at taken
    · cases taken
    · cases taken
      rw [part_of_except ((State.count_same 1056769 rfl _ _ _).trans ((State.setList_same 1056769 rfl _ _ _).trans
        (State.quotaPut_same 1056769 rfl s 1 l.tc (s.quotaLeft 1 l.tc - l.cost)))) .mem rfl]
  · rw [memByte_failList ha, part_of_except (State.dropList_same 1048576 rfl s l.id) .mem rfl]

/-- The state with a submission slot read, before the index moves on. -/
def State.slotRead (s : State) (t : Nat) (r : RingCfg) : State :=
  match s.checkList t (s.memNat (r.base + 0x40 + 8 * (s.ringIdx (r.base + 0x04) % 2 ^ r.sl)) 8) with
  | .error (c, item, x) => s.failList t r c item x
  | .ok (h, es) =>
    let l : BarmList := {
      id := s.barm.nextId, tc := t, cls := s.rd (TNC_CLASS t), ring := r, ncnt := lhNcnt h, cost := lhCost h,
      item := lhItem h, fence := lhFence h, dead := lhDead h, entries := es.map (BitVec.ofNat 512) }
    let s := s.setBarm fun b => { b with lists := b.lists ++ [l], nextId := b.nextId + 1 }
    if l.fence < s.windowNext then s.admitList l else s

theorem readSlot_eq (s : State) (t : Nat) (r : RingCfg) : s.readSlot t r =
    (s.slotRead t r).store (r.base + 0x04) (leBytes 2 ((s.ringIdx (r.base + 0x04) + 1) % 65536)) := rfl

theorem memByte_slotRead {a : Nat} {r : RingCfg} (ha : a < r.base + 0x08) (s : State) (t : Nat) :
    memByte (s.slotRead t r).mem a = memByte s.mem a := by
  unfold State.slotRead
  split
  · exact memByte_failList ha s t _ _ _
  · dsimp only
    split
    · exact memByte_admitList (l := { ring := r, .. }) ha (s.setBarm _)
    · rfl

theorem ringIdx_readSlot (s : State) (t : Nat) (r : RingCfg) :
    (s.readSlot t r).ringIdx (r.base + 0x04) = (s.ringIdx (r.base + 0x04) + 1) % 65536 ∧
    (s.readSlot t r).ringIdx r.base = s.ringIdx r.base := by
  rw [readSlot_eq]
  constructor
  · rw [State.ringIdx, memNat_store_same]
    exact Nat.mod_mod _ _
  · rw [State.ringIdx, memNat_store_other _ (.inl (by omega))]
    exact congrArg leNat (memBytes_congr fun i lo hi => memByte_slotRead (by omega) s t)

/-- With one new slot a pass over the ring reads it and stops. -/
theorem readSlots_one {s : State} {t : Nat} {r : RingCfg} (hi : (s.ringIdx
    (r.base + 0x04) + 1) % 65536 = s.ringIdx r.base)
    (hl : (s.barm.lists.filter (·.phase != 2)).length < 256) : State.readSlots t r 256 s = s.readSlot t r := by
  obtain ⟨done, posted⟩ := ringIdx_readSlot s t r
  have small := ringIdx_lt s (r.base + 0x04)
  unfold State.readSlots
  rw [if_neg (by omega)]
  unfold State.readSlots
  exact if_pos (.inl (by rw [done, posted, hi]))

theorem windowNext_of_parts {s t : State} (hb : t.barm = s.barm) (hl : t.rd BARM_WC_LO = s.rd BARM_WC_LO)
    (hh : t.rd BARM_WC_HI = s.rd BARM_WC_HI) : t.windowNext = s.windowNext := by
  simp only [State.windowNext, State.windowCyc, State.inWindow, hb, hl, hh]

theorem rfault_free {k : Nat} {g : Fld} (hg : g.lo + g.width ≤ 32) (h : g.key < 0x98100 ∨ 0x99000 ≤ g.key)
    (hk : k < 64) :
    (BARM_RFAULT k).free g = true :=
  free_of_key (Nat.le_of_ble_eq_true rfl) hg (by simp only [Fld.key, regKey, BARM_RFAULT] at h ⊢; omega)

theorem checkList_rfault (s : State) {k : Nat} (hk : k < 64) (v slot : Nat) :
    (s.wr (BARM_RFAULT k) v).checkList k slot = s.checkList k slot := by
  have rest {g : Fld} (hg : g.lo + g.width ≤ 32) (h : g.key < 0x98100 ∨ 0x99000 ≤ g.key) :
      (s.wr (BARM_RFAULT k) v).rd g = s.rd g := rd_wr_free (rfault_free hg h hk) s v
  have may (a n : Nat) : (s.wr (BARM_RFAULT k) v).tenantMay k false a n = s.tenantMay k false a n :=
    tenantMay_of_rd (fun f hf h => rest hf (by omega)) hk false a n
  have tenant : (s.wr (BARM_RFAULT k) v).tenant k = s.tenant k := by
    refine rest ?_ ?_
    · simp only [TNC_TST]
      omega
    · simp only [Fld.key, regKey, TNC_TST]
      omega
  have same : (s.wr (BARM_RFAULT k) v).except 1 = s.except 1 := State.wr_same 1 rfl s _ v
  have barm : (s.wr (BARM_RFAULT k) v).barm = s.barm := part_of_except same .barm rfl
  have next : (s.wr (BARM_RFAULT k) v).windowNext = s.windowNext :=
    windowNext_of_parts barm (rest (by decide) (by decide)) (rest (by decide) (by decide))
  have reserved : (s.wr (BARM_RFAULT k) v).listReserved = s.listReserved := by
    funext h es
    rw [State.listReserved, State.listReserved, next, barm]
  have ended : (s.wr (BARM_RFAULT k) v).endedBelow = s.endedBelow := by
    funext n
    unfold State.endedBelow State.inWindow
    rw [barm]
  have now : (s.wr (BARM_RFAULT k) v).stamp = s.stamp := by
    rw [State.stamp, State.stamp, part_of_except same .ctf rfl]
  have memory : (s.wr (BARM_RFAULT k) v).memNat = s.memNat := by
    funext a n
    exact memNat_of_mem (part_of_except same .mem rfl) a n
  simp only [State.checkList, tenant, may, reserved, ended, now, memory]

/-- A list that passes its checks before its window has begun waits in the pool. -/
theorem slotRead_pools {s : State} {t : Nat} {r : RingCfg} {h : Nat} {es : List Nat}
    (hc : s.checkList t (s.memNat (r.base + 0x40 + 8 * (s.ringIdx (r.base + 0x04) % 2 ^ r.sl)) 8) = .ok (h, es))
    (hw : s.windowNext ≤ lhFence h) : (s.barm.nextId, t, lhCost h, lhFence h, es.map (BitVec.ofNat 512)) ∈
      (s.slotRead t r).barm.lists.map BarmList.terms := by
  unfold State.slotRead
  rw [hc]
  dsimp only
  split
  · next early => exact absurd hw (Nat.not_le.mpr early)
  · exact List.mem_map.mpr ⟨_, List.mem_append_right _ List.mem_cons_self, rfl⟩

theorem rhold_free_rfault (t k : Nat) : (BARM_RHOLD t).free (BARM_RFAULT k) = true := by
  refine Fld.free_iff.mpr ⟨?_, fun _ => Nat.le_of_ble_eq_true rfl⟩
  simp only [Fld.apart, Fld.words, Fld.key, regKey, BARM_RHOLD, BARM_RFAULT, Bool.or_eq_true, Bool.and_eq_true,
    decide_eq_true_eq, beq_iff_eq, Nat.reduceLeDiff, if_true, true_and, and_true, or_true]
  omega

theorem rd_rfault_sendRecord (s : State) (t : Nat) (r : RingCfg) (w k : Nat) :
    (s.sendRecord t r w).rd (BARM_RFAULT k) = s.rd (BARM_RFAULT k) := by
  unfold State.sendRecord
  split
  · rw [rd_wr_free (rhold_free_rfault t k), rd_setBarm]
  · exact rd_of_except (State.putRecord_same 34359738368 rfl s r w) rfl _

theorem rd_rfault_failList (s : State) {t : Nat} (ht : t < 64) (r : RingCfg) (c : Status) (item : Nat)
    (x : Option Span) {k : Nat}
    (hk : k < 64) : (s.failList t r c item x).rd (BARM_RFAULT k) = s.rd (BARM_RFAULT k) := by
  have word : (BARM_RFAULT k).lo + (BARM_RFAULT k).width ≤ 32 := Nat.le_of_ble_eq_true rfl
  have key : (BARM_RFAULT k).key = 0x9810C + 32 * k := by simp only [Fld.key, regKey, BARM_RFAULT]; omega
  have refused : (BARM_RREF t).free (BARM_RFAULT k) = true :=
    free_of_key (Nat.le_of_ble_eq_true rfl) word (by rw [key]; simp only [Fld.key, regKey, BARM_RREF]; omega)
  have below {f : Fld} (hw : f.width ≤ 32) (hf : f.key + 4 ≤ 0x9810C) : f.free (BARM_RFAULT k) = true :=
    free_of_key hw word (.inl (by rw [key]; omega))
  have counted (u : State) : ((u.count (BARM_RREF t)).raise 0x098 1).rd (BARM_RFAULT k) = u.rd (BARM_RFAULT k) := by
    rw [rd_raise_free (below (by decide) (by decide)), rd_count_free refused]
  have bad (u : State) : (u.count BARM_BADN).rd (BARM_RFAULT k) = u.rd (BARM_RFAULT k) :=
    rd_count_free (below (by decide) (by decide)) u _
  have told (u : State) : (u.outcome t resInf c item).rd (BARM_RFAULT k) = u.rd (BARM_RFAULT k) :=
    rd_outcome_low (by rw [key]; omega) word u t resInf c item
  have denied (u : State) (x : Span) : (u.windowFault t 6 x).rd (BARM_RFAULT k) = u.rd (BARM_RFAULT k) :=
    rd_of_except (State.windowFault_same 256 rfl u t 6 x) rfl _
  unfold State.failList State.refusalRecord
  dsimp only
  rw [rd_rfault_sendRecord]
  split
  all_goals
    simp only [apply_ite (State.rd · (BARM_RFAULT k)), denied, rd_log, told, bad, counted, ite_self]

theorem rd_rfault_slotRead (s : State) {t : Nat} (ht : t < 64) (r : RingCfg) {k : Nat} (hk : k < 64) :
    (s.slotRead t r).rd (BARM_RFAULT k) = s.rd (BARM_RFAULT k) := by
  have word : (BARM_RFAULT k).lo + (BARM_RFAULT k).width ≤ 32 := Nat.le_of_ble_eq_true rfl
  have key : (BARM_RFAULT k).key = 0x9810C + 32 * k := by simp only [Fld.key, regKey, BARM_RFAULT]; omega
  have admitted : (BARM_RADM t).free (BARM_RFAULT k) = true :=
    free_of_key (Nat.le_of_ble_eq_true rfl) word (by rw [key]; simp only [Fld.key, regKey, BARM_RADM]; omega)
  have entered (u : State) (l : BarmList) (hl : l.tc = t) : (u.admitList l).rd (BARM_RFAULT k) = u.rd
    (BARM_RFAULT k) := by
    unfold State.admitList State.takeQuota
    rw [hl]
    split
    · next v taken =>
      split at taken
      · cases taken
      · cases taken
        rw [rd_count_free admitted, rd_of_except (State.setList_same 1048576 rfl _ _ _) rfl,
          rd_quotaPut_low (by rw [key]; omega) word]
    · rw [rd_rfault_failList _ ht _ _ _ _ hk, rd_of_except (State.dropList_same 1048576 rfl u l.id) rfl]
  unfold State.slotRead
  split
  · exact rd_rfault_failList s ht r _ _ _ hk
  · dsimp only
    split
    · exact (entered _ _ rfl).trans (rd_setBarm s _ _)
    · exact rd_setBarm s _ _

theorem ringPoll_reads {s : State} {k : Fin 64} (he : s.on BARM_EN = true) (hn : s.on (BARM_REN k.val) = true)
    (hr : s.pageRuns 0x098 = true) (hm : s.tenantMay k.val false (s.ringOf k.val).base (s.ringOf k.val).len = true)
    (hw : s.tenantMay k.val true (s.ringOf k.val).base (s.ringOf k.val).len = true)
    (hi : (s.ringIdx ((s.ringOf k.val).base + 0x04) + 1) % 65536 = s.ringIdx (s.ringOf k.val).base)
    (hl : (s.barm.lists.filter (·.phase != 2)).length < 256) :
    Answers (.barmRingPoll k) s fun t =>
      t.ringIdx ((s.ringOf k.val).base + 0x04) = s.ringIdx (s.ringOf k.val).base ∧
      t.on (BARM_RFAULT k.val) = false ∧
      ∀ h es, s.checkList k.val (s.memNat ((s.ringOf k.val).base + 0x40 +
          8 * (s.ringIdx ((s.ringOf k.val).base + 0x04) % 2 ^ (s.ringOf k.val).sl)) 8) = .ok (h, es) →
        s.windowNext ≤ lhFence h →
        ∃ l ∈ t.barm.lists, l.id = s.barm.nextId ∧ l.tc = k.val ∧ l.cost = lhCost h ∧ l.fence = lhFence h ∧
          l.entries = es.map (BitVec.ofNat 512) := by
  generalize hr' : s.ringOf k.val = r at hm hw hi ⊢
  have reads := pollRing_reads he hn hr (k := k.val) (by rw [hr']; exact hm) (by rw [hr']; exact hw)
    (by rw [hr']; exact hi)
  rw [hr'] at reads
  generalize hu : s.wr (BARM_RFAULT k.val) 0 = u at reads
  have same : u.except 1 = s.except 1 := by rw [← hu]; exact State.wr_same 1 rfl s _ 0
  have memory (a n : Nat) : u.memNat a n = s.memNat a n := memNat_of_mem (part_of_except same .mem rfl) a n
  have barm : u.barm = s.barm := part_of_except same .barm rfl
  have index (a : Nat) : u.ringIdx a = s.ringIdx a := memory a 2
  rw [readSlots_one (by rw [index, index]; exact hi) (by rw [barm]; exact hl)] at reads
  have command : exec (.barmRingPoll k) s = .next (u.readSlot k.val r).startAll := congrArg Host.Outcome.next reads
  obtain ⟨done, -⟩ := ringIdx_readSlot u k.val r
  have kept := congrArg (fun x => x.2.2.1) (barmKept_startAll (u.readSlot k.val r))
  refine ⟨_, command, ?_, ?_, fun h es hc hf => ?_⟩
  · rw [State.ringIdx, memNat_of_mem (startAll_mem _)]
    exact done.trans (by rw [index]; exact hi)
  · rw [State.on, rd_startAll (by simp only [Fld.key, regKey, BARM_RFAULT]; omega)
      (by simp only [Fld.key, regKey, BARM_RFAULT]; omega) (Nat.le_of_ble_eq_true rfl), readSlot_eq, rd_store,
      rd_rfault_slotRead u k.isLt r k.isLt, ← hu]
    exact on_wr_b2n rfl (Nat.le_of_ble_eq_true rfl) s false
  · have free (g : Fld) (hg : g.lo + g.width ≤ 32) (h : g.key < 0x98100) : u.rd g = s.rd g := by
      rw [← hu]
      exact rd_wr_free (rfault_free hg (.inl h) k.isLt) s 0
    have next : u.windowNext = s.windowNext :=
      windowNext_of_parts barm (free _ (by decide) (by decide)) (free _ (by decide) (by decide))
    have checked : u.checkList k.val = s.checkList k.val := by
      funext slot
      rw [← hu]
      exact checkList_rfault s k.isLt 0 slot
    have pooled := slotRead_pools (s := u) (t := k.val) (r := r) (h := h) (es := es)
      (by rw [memory, index, checked]; exact hc) (by rw [next]; exact hf)
    rw [barm] at pooled
    have still : (s.barm.nextId, k.val, lhCost h, lhFence h, es.map (BitVec.ofNat 512)) ∈
        (u.readSlot k.val r).startAll.barm.lists.map BarmList.terms := by
      rw [show (u.readSlot k.val r).startAll.barm.lists.map BarmList.terms =
        (u.readSlot k.val r).barm.lists.map BarmList.terms from kept]
      exact pooled
    obtain ⟨l, mem, terms⟩ := List.mem_map.mp still
    simp only [BarmList.terms, Prod.mk.injEq] at terms
    obtain ⟨id, tc, cost, fence, entries⟩ := terms
    exact ⟨l, mem, id, tc, cost, fence, entries⟩

/-! ### BARM_KICK -/

theorem bitsSet_one : ∀ j : Fin 32, bitsSet (BitVec.ofNat 32
    (setBit 0 j.val)).toNat 32 = [j.val] ∧ setBit 0 j.val = 2 ^ j.val := by
  decide

theorem barmWrite_kicks (s : State) (k : Fin 64) (w : RegWrite) :
    barmWrite s ⟨w.port, w.tc.val, 0x098, if k.val < 32 then 0x04C else 0x050, none⟩
      (BitVec.ofNat 32 (setBit 0 (k.val % 32))).toNat = (.ok, s.pollRing k.val) := by
  have bits := (bitsSet_one ⟨k.val % 32, Nat.mod_lt _ (by decide)⟩).1
  dsimp only at bits
  unfold barmWrite
  by_cases low : k.val < 32
  · simp only [if_pos low]
    rw [bits, if_neg (by decide)]
    have own : 0 + k.val % 32 = k.val := by omega
    simp only [List.foldl_cons, List.foldl_nil, own]
  · simp only [if_neg low]
    rw [bits, if_neg (by decide)]
    have own : 32 + k.val % 32 = k.val := by omega
    simp only [List.foldl_cons, List.foldl_nil, own]

theorem kickWord_plain : ∀ k : Fin 64, plainWord 0x098 (if k.val < 32 then 0x04C else 0x050) = true := by decide

theorem barmKick_polls {s : State} {k : Fin 64} {w : RegWrite} (hd : w.data = 0)
    (hw : s.admitsWrite 0x098 (if k.val < 32 then 0x04C else 0x050) w (2 ^ (k.val % 32)) = true) :
    Answers (.barmKick k w) s fun t => t.resp.code = .ok ∧ ∃ u, exec (.barmRingPoll k) s = .next u ∧ SameBut [.resp] u
      t := by
  have zero : w.data.toNat = 0 := congrArg BitVec.toNat hd
  have word : setBit w.data.toNat (k.val % 32) = 2 ^ (k.val % 32) := by
    rw [zero]
    exact (bitsSet_one ⟨k.val % 32, Nat.mod_lt _ (by decide)⟩).2
  have done := barmWrite_kicks s k w
  rw [← zero] at done
  exact answers_write (h := barmWrite) (f := (setBit · (k.val % 32))) rfl (kickWord_plain k)
    (by rw [word]; exact hw) done ⟨rfl, _, rfl, sameBut_of_except (State.answer_same 512 rfl _ _)⟩

/-! ### Completion and held records -/

/-- A record sent to a ring with room. -/
theorem sendRecord_room {s : State} {t : Nat} {r : RingCfg} (hh : ∀ h ∈ s.barm.held, h.tc ≠ t)
    (hr : s.ringRoom r = true) (w : Nat) :
    s.sendRecord t r w = s.putRecord r w := by
  have none : s.barm.held.any (·.tc == t) = false := List.any_eq_false.mpr fun h hm => by simpa using hh h hm
  unfold State.sendRecord
  rw [none, hr]
  rfl

theorem putRecord_writes (s : State) (r : RingCfg) (w : Nat) :
    (s.putRecord r w).ringIdx (r.base + 0x08) = (s.ringIdx (r.base + 0x08) + 1) % 65536 ∧
    (s.putRecord r w).bytes (r.compBase + 64 * (s.ringIdx (r.base + 0x08) % 2 ^ r.cl)) 64 = leBytes 64 w := by
  unfold State.putRecord
  dsimp only
  constructor
  · rw [State.ringIdx, memNat_store_same]
    exact Nat.mod_mod _ _
  · rw [bytes_store_other _ (.inr (by rw [leBytes_length]; simp only [RingCfg.compBase]; omega))]
    have stored := bytes_store s (r.compBase + 64 * (s.ringIdx (r.base + 0x08) % 2 ^ r.cl)) (leBytes 64 w)
    rw [leBytes_length] at stored
    exact stored

theorem ringRoom_of_mem {s t : State} (h : t.mem = s.mem) (r : RingCfg) : t.ringRoom r = s.ringRoom r := by
  rw [State.ringRoom, State.ringRoom, State.ringIdx, State.ringIdx, State.ringIdx, State.ringIdx, memNat_of_mem h,
    memNat_of_mem h]

/-- A completed list charged and gone, its record still to be written. -/
def State.listCharged (s : State) (l : BarmList) : State :=
  let s := ((s.chargeList l).dropList l.id).setBarm fun b => { b with used := b.used.filter fun k => !l.ctrs.contains k
    }
  let s := s.outcome l.tc resInf l.status l.item
  if l.safe ∧ l.status = .delayed then s.count TNC_PRE_SAFE else s

/-- The record of a completed list. -/
def State.listRecord (s : State) (l : BarmList) : Nat :=
  s.completion l.status l.item l.entries.length l.firstBad.1 l.firstBad.2 l.ticks (quantaOf l.ticks) l.tiles l.sat l.skc
    l.started

theorem completeList_eq (s : State) (l : BarmList) : s.completeList l =
    (((s.listCharged l).sendRecord l.tc l.ring ((s.listCharged l).listRecord l)).count BARM_LISTN).raise 0x098 0 := rfl

theorem listRecord_of_stamp {s t : State} (h : t.stamp = s.stamp) (l : BarmList) : t.listRecord l = s.listRecord l := by
  simp only [State.listRecord, State.completion, h]

theorem rd_chargeList_low {g : Fld} (hk : g.key + 4 ≤ 0x300000) (hg : g.lo + g.width ≤ 32) (s : State) (l : BarmList) :
    (s.chargeList l).rd g = s.rd g := by
  unfold State.chargeList State.giveBack
  dsimp only
  split
  · split
    · exact rd_quotaPut_low hk hg s _ _ _
    · rfl
  · exact rd_setTnc s _ g

theorem listCharged_parts (s : State) (l : BarmList) :
    (s.listCharged l).barm.held = s.barm.held ∧ (∀ x ∈ (s.listCharged l).barm.lists, x.id ≠ l.id) ∧
    (s.listCharged l).mem = s.mem ∧ (s.listCharged l).stamp = s.stamp ∧
    (s.listCharged l).rd BARM_LISTN = s.rd BARM_LISTN := by
  have charged (u : State) (hu : u.except 8193 = s.except 8193) : u.barm = s.barm ∧ u.mem = s.mem ∧ u.ctf = s.ctf :=
    ⟨part_of_except hu .barm rfl, part_of_except hu .mem rfl, part_of_except hu .ctf rfl⟩
  have first := charged _ (State.chargeList_same 8193 rfl s l)
  generalize hu : s.chargeList l = u at first
  obtain ⟨barm, mem, ctf⟩ := first
  have rest : ∀ f : BarmState → BarmState, ∀ v : State, v = (u.dropList l.id).setBarm f →
      (if l.safe ∧ l.status = .delayed then (v.outcome l.tc resInf l.status l.item).count TNC_PRE_SAFE
        else v.outcome l.tc resInf l.status l.item).except 8193 = v.except 8193 := by
    intro f v _
    split
    · exact (State.count_same 8193 rfl _ _ _).trans (State.outcome_same 8193 rfl v _ _ _ _)
    · exact State.outcome_same 8193 rfl v _ _ _ _
  have tail := rest (fun b => { b with used := b.used.filter fun k => !l.ctrs.contains k }) _ rfl
  unfold State.listCharged
  dsimp only
  rw [hu]
  generalize hv : (u.dropList l.id).setBarm (fun b => { b with used := b.used.filter fun k => !l.ctrs.contains k }) =
    v at tail
  have state : v.barm = { s.barm with
      lists := s.barm.lists.filter (·.id != l.id), order := s.barm.order.erase l.id,
      used := s.barm.used.filter fun k => !l.ctrs.contains k } ∧ v.mem = s.mem ∧ v.ctf = s.ctf := by
    rw [← hv, ← barm, ← mem, ← ctf]
    exact ⟨rfl, rfl, rfl⟩
  obtain ⟨barm', mem', ctf'⟩ := state
  refine ⟨?_, fun x hx => ?_, ?_, ?_, ?_⟩
  · rw [part_of_except tail .barm rfl, barm']
  · rw [part_of_except tail .barm rfl, barm'] at hx
    simpa using (List.mem_filter.mp hx).2
  · rw [part_of_except tail .mem rfl, mem']
  · rw [State.stamp, State.stamp, part_of_except tail .ctf rfl, ctf']
  · have base : v.rd BARM_LISTN = s.rd BARM_LISTN := by
      rw [← hv, rd_setBarm, rd_of_except (State.dropList_same 1048576 rfl u l.id) rfl, ← hu]
      exact rd_chargeList_low (by decide) (by decide) s l
    rw [← base]
    split
    · rw [rd_count_free (by decide), rd_outcome_low (by decide) (by decide)]
    · exact rd_outcome_low (by decide) (by decide) v _ _ _ _

theorem listComplete_runs {s : State} {l : BarmList} (hf : s.finished = some l) :
    exec .listComplete s = .next (if (s.completeList l).pageRuns 0x098 then (s.completeList l).startAll
      else s.completeList l) := by
  change execListComplete s = _
  unfold execListComplete
  rw [hf]

/-- What a completed list leaves where its ring has room. -/
theorem completeList_room {s : State} {l : BarmList} (hh : ∀ h ∈ s.barm.held, h.tc ≠ l.tc)
    (hr : s.ringRoom l.ring = true) :
    (∀ x ∈ (s.completeList l).barm.lists, x.id ≠ l.id) ∧
    (s.completeList l).rd BARM_LISTN = satNat (BARM_LISTN).width (s.rd BARM_LISTN + 1) ∧
    (s.completeList l).ringIdx (l.ring.base + 0x08) = (s.ringIdx (l.ring.base + 0x08) + 1) % 65536 ∧
    (s.completeList l).bytes (l.ring.compBase + 64 * (s.ringIdx (l.ring.base + 0x08) % 2 ^ l.ring.cl)) 64 =
      leBytes 64 (s.listRecord l) := by
  obtain ⟨held, lists, mem, stamp, number⟩ := listCharged_parts s l
  have index : (s.listCharged l).ringIdx (l.ring.base + 0x08) = s.ringIdx (l.ring.base + 0x08) := memNat_of_mem mem _ _
  rw [completeList_eq, sendRecord_room (by rw [held]; exact hh) (by rw [ringRoom_of_mem mem]; exact hr),
    listRecord_of_stamp stamp]
  generalize s.listRecord l = w
  obtain ⟨next, bytes⟩ := putRecord_writes (s.listCharged l) l.ring w
  rw [index] at next bytes
  have put : ((s.listCharged l).putRecord l.ring w).except 34359738368 = (s.listCharged l).except 34359738368 :=
    State.putRecord_same 34359738368 rfl _ _ _
  have counted (u : State) : ((u.count BARM_LISTN).raise 0x098 0).except 1 = u.except 1 :=
    (State.raise_same 1 rfl _ _ _).trans (State.count_same 1 rfl u _ _)
  have memory := part_of_except (counted ((s.listCharged l).putRecord l.ring w)) .mem rfl
  refine ⟨fun x hx => lists x ?_, ?_, ?_, ?_⟩
  · rw [part_of_except (counted _) .barm rfl, part_of_except put .barm rfl] at hx
    exact hx
  · rw [rd_raise_free (by decide), rd_count_same _ _ _ rfl, rd_of_except put rfl, number]
  · rw [State.ringIdx, memNat_of_mem memory]
    exact next
  · rw [State.bytes, memory]
    exact bytes

theorem startAll_ids (s : State) {n : Nat}
    (h : ∀ x ∈ s.barm.lists, x.id ≠ n) : ∀ x ∈ s.startAll.barm.lists, x.id ≠ n := by
  have kept : s.startAll.barm.lists.map BarmList.terms = s.barm.lists.map BarmList.terms :=
    congrArg (fun x => x.2.2.1) (barmKept_startAll s)
  intro x hx
  have mem : x.terms ∈ s.barm.lists.map BarmList.terms := by
    rw [← kept]
    exact List.mem_map_of_mem hx
  obtain ⟨y, hy, same⟩ := List.mem_map.mp mem
  rw [← (show y.id = x.id from congrArg (·.1) same)]
  exact h y hy

theorem listComplete_answers {s : State} {l : BarmList} (hf : s.finished = some l) (hh : ∀ h ∈ s.barm.held, h.tc ≠ l.tc)
    (hr : s.ringRoom l.ring = true) :
    Answers .listComplete s fun t =>
      (∀ x ∈ t.barm.lists, x.id ≠ l.id) ∧
      t.rd BARM_LISTN = satNat (BARM_LISTN).width (s.rd BARM_LISTN + 1) ∧
      t.ringIdx (l.ring.base + 0x08) = (s.ringIdx (l.ring.base + 0x08) + 1) % 65536 ∧
      t.bytes (l.ring.compBase + 64 * (s.ringIdx (l.ring.base + 0x08) % 2 ^ l.ring.cl)) 64 = leBytes 64
        (s.listRecord l) := by
  obtain ⟨gone, counts, next, bytes⟩ := completeList_room hh hr
  refine ⟨_, listComplete_runs hf, ?_⟩
  split
  · refine ⟨startAll_ids _ gone, ?_, ?_, ?_⟩
    · rw [rd_startAll (by decide) (by decide) (by decide)]
      exact counts
    · rw [State.ringIdx, memNat_of_mem (startAll_mem _)]
      exact next
    · rw [State.bytes, startAll_mem]
      exact bytes
  · exact ⟨gone, counts, next, bytes⟩

theorem releaseRecords_ends {k : Nat} (fuel : Nat) (s : State) (hl : s.barm.held.length < fuel) :
    ((∀ h ∈ (State.releaseRecords k fuel s).barm.held, h.tc ≠ k) ∧ (State.releaseRecords k fuel s).rd
    (BARM_RHOLD k) = 0) ∨
    ∃ h, (State.releaseRecords k fuel s).barm.held.find? (·.tc == k) = some h ∧
      (State.releaseRecords k fuel s).ringRoom h.ring = false := by
  induction fuel generalizing s with
  | zero => omega
  | succ n ih =>
    unfold State.releaseRecords
    split
    · next none =>
      refine .inl ⟨fun h hh => ?_, ?_⟩
      · rw [part_of_except (State.wr_same 1 rfl s _ _) .barm rfl] at hh
        simpa using List.find?_eq_none.mp none h hh
      · exact rd_wr_lt rfl (by decide : 0 < 2 ^ 1) s
    · next h found =>
      split
      · have mem := List.mem_of_find?_eq_some found
        have pos := List.length_pos_of_mem mem
        have shorter := List.length_erase_of_mem mem
        refine ih _ ?_
        rw [part_of_except (State.putRecord_same 34359738368 rfl _ _ _) .barm rfl]
        change (s.barm.held.erase h).length < n
        omega
      · next full => exact .inr ⟨h, found, by simpa using full⟩

theorem recordRelease_answers {s : State} {k : Fin 64} (h : ∃ h ∈ s.barm.held, h.tc = k.val) :
    Answers (.barmRecordRelease k) s fun t =>
      ((∀ h ∈ t.barm.held, h.tc ≠ k.val) ∧ t.on (BARM_RHOLD k.val) = false) ∨
      ∃ h, t.barm.held.find? (·.tc == k.val) = some h ∧ t.ringRoom h.ring = false := by
  obtain ⟨x, hx, tc⟩ := h
  have some : s.barm.held.any (·.tc == k.val) = true := List.any_eq_true.mpr
    ⟨x, hx, by rw [tc]; exact beq_self_eq_true _⟩
  have command : exec (.barmRecordRelease k) s = .next
      (if (State.releaseRecords k.val (s.barm.held.length + 1) s).pageRuns 0x098 then
        (State.releaseRecords k.val (s.barm.held.length + 1) s).startAll
      else State.releaseRecords k.val (s.barm.held.length + 1) s) := by
    change execBarmRecordRelease k s = _
    exact congrArg Host.Outcome.next (if_pos some)
  have ends := releaseRecords_ends (k := k.val) (s.barm.held.length + 1) s (Nat.lt_succ_self _)
  refine ⟨_, command, ?_⟩
  generalize State.releaseRecords k.val (s.barm.held.length + 1) s = u at ends
  have after (t : State) (held : t.barm.held = u.barm.held) (mem : t.mem = u.mem)
      (flag : t.rd (BARM_RHOLD k.val) = u.rd (BARM_RHOLD k.val)) :
      ((∀ h ∈ t.barm.held, h.tc ≠ k.val) ∧ t.on (BARM_RHOLD k.val) = false) ∨
      ∃ h, t.barm.held.find? (·.tc == k.val) = .some h ∧ t.ringRoom h.ring = false := by
    rw [State.on, held, flag]
    refine ends.imp (fun ⟨gone, off⟩ => ⟨gone, by rw [off]; rfl⟩) fun ⟨h, found, full⟩ => ⟨h, found, ?_⟩
    rw [ringRoom_of_mem mem]
    exact full
  split
  · refine after _ (congrArg (fun x => x.1) (barmKept_startAll u)) (startAll_mem u) (rd_startAll ?_ ?_ ?_ u)
    · simp only [Fld.key, regKey, BARM_RHOLD]
      omega
    · simp only [Fld.key, regKey, BARM_RHOLD]
      omega
    · exact Nat.le_of_ble_eq_true rfl
  · exact after u rfl rfl rfl

/-- Settles O29. -/
theorem listsComplete : Obligations.ListsComplete := by
  unfold Obligations.ListsComplete
  refine ⟨fun s hr hd hs => windowBoundary_answers hr hd hs, fun s hd => windowBoundary_waits hd,
    fun s k he hn hr => ⟨fun hb hf => ringPoll_faults he hn hr hb hf, fun hm hw hi hl => ringPoll_reads he hn hr hm hw
      hi hl⟩,
    fun s k w hd hw => barmKick_polls hd hw, fun s l hf hh hr => ?_, fun s k h => recordRelease_answers h⟩
  exact listComplete_answers hf hh hr

/-! ### Entries appended -/

/-- A list that the engine finds is the one with its identifier. -/
theorem listOf_of_appending {s : State} {l : BarmList} (h : s.appending = some l) : s.listOf l.id = some l := by
  have mem := List.mem_of_find?_eq_some h
  obtain ⟨id, -, found⟩ := List.mem_filterMap.mp mem
  have same : l.id = id := by
    have hit := List.find?_some found
    exact beq_iff_eq.mp hit
  rw [same]
  exact found

theorem listOf_setList {s : State} {id : Nat} {l : BarmList} (h : s.listOf id = some l) {f : BarmList → BarmList}
    (hf : ∀ x, (f x).id = x.id) : (s.setList id f).listOf id = some (f l) := by
  have own : l.id = id := by
    have hit := List.find?_some h
    exact beq_iff_eq.mp hit
  unfold State.listOf at h ⊢
  change (s.barm.lists.map fun l => if l.id = id then f l else l).find? (·.id == id) = _
  rw [List.find?_map]
  have keys : ((fun x : BarmList => x.id == id) ∘ fun l => if l.id = id then f l else l) = fun x => x.id == id := by
    funext x
    simp only [Function.comp_apply]
    split
    · rw [hf]
    · rfl
  rw [keys, h]
  exact congrArg some (if_pos own)

/-- The engine takes the next entry of a list in time. -/
theorem barmAppend_takes {s : State} {l : BarmList} (hr : s.pageRuns 0x098 = true) (hb : s.barm.backlog = [])
    (ha : s.appending = some l) (hl : s.listLate l = false) :
    exec .barmAppend s = .next (if spOp (l.entry l.next) ≤ 3 then
        if s.spargeFull then s.beginStall
        else ((s.advanceList l.id).appendEntry
          ⟨BitVec.ofNat 512 (l.image l.next), some (l.id, l.next)⟩).settleSignals 1024
      else if spOp (l.entry l.next) ≤ 5 then
        (s.advanceList l.id).setLtr fun x => { x with ops := x.ops ++ [l.routerOp l.next] }
      else (s.advanceList l.id).setList l.id fun x => { x with waits := x.waits ++ [l.next] }) := by
  change execBarmAppend s = _
  unfold execBarmAppend
  rw [if_neg (by rw [hr]; decide), if_neg (not_not.mpr hb), ha]
  dsimp only
  rw [hl, if_neg Bool.false_ne_true]

/-- A check code put in above bit `a` leaves the low bits of a record. -/
theorem low_bits_of_sealed (w c : Nat) {a b k : Nat} (ha : k ≤ a) (hb : k ≤ b) :
    bits ((w % 2 ^ a + c * 2 ^ a) % 2 ^ b) 0 k = bits w 0 k := by
  have dvdA : 2 ^ k ∣ 2 ^ a := Nat.pow_dvd_pow 2 ha
  have dvdB : 2 ^ k ∣ 2 ^ b := Nat.pow_dvd_pow 2 hb
  rw [bits_eq, bits_eq, Nat.pow_zero, Nat.div_one, Nat.div_one, Nat.mod_mod_of_dvd _ dvdB,
    Nat.add_mod, Nat.mod_mod_of_dvd _ dvdA, Nat.mod_eq_zero_of_dvd (dvdA.mul_left c), Nat.add_zero, Nat.mod_mod]

theorem spOp_withCrc64 (w : Nat) : spOp (BitVec.ofNat 512 (withCrc64 w)).toNat = spOp w := by
  rw [BitVec.toNat_ofNat]
  exact low_bits_of_sealed w (crcOf64 w) (by decide) (by decide)

theorem spOp_image (l : BarmList) (i : Nat) : spOp (BitVec.ofNat 512 (l.image i)).toNat = spOp (l.entry i) := by
  unfold BarmList.image
  dsimp only
  rw [spOp_withCrc64]
  have keep (n lo w v : Nat) (h : 4 ≤ lo) : bits (putBits n lo w v) 0 4 = bits n 0 4 :=
    bits_putBits_other _ _ _ _ _ _ (.inl h)
  unfold spOp
  simp (disch := decide) only [keep]

/-- Every generated tile is a matrix tile. -/
theorem spOp_runTiles (l : BarmList)
    (i ctr st cl r0 rows : Nat) : ∀ x ∈ runTiles l i ctr st cl r0 rows, spOp x.word.toNat = 1 := by
  intro x hx
  unfold runTiles at hx
  dsimp only at hx
  obtain ⟨ri, -, hx⟩ := List.mem_flatMap.mp hx
  obtain ⟨ci, -, rfl⟩ := List.mem_map.mp hx
  dsimp only
  rw [spOp_withCrc64, spOp, bits_eq, Nat.pow_zero, Nat.div_one]
  omega

theorem spOp_expertTiles (l : BarmList) (i ctr mode : Nat) (dts sts : List Nat) :
    ∀ x ∈ expertTiles l i ctr mode dts sts, spOp x.word.toNat = 1 := by
  intro x hx
  unfold expertTiles at hx
  obtain ⟨y, -, hx⟩ := List.mem_flatMap.mp hx
  dsimp only at hx
  split at hx
  · cases hx
  · split at hx
    · exact spOp_runTiles _ _ _ _ _ _ _ x hx
    · obtain ⟨sh, -, hx⟩ := List.mem_flatMap.mp hx
      split at hx
      · cases hx
      · exact spOp_runTiles _ _ _ _ _ _ _ x hx

theorem appendEntry_tun (s : State) (x : SpEntry) :
    (s.appendEntry x).tun = { s.tun with sparge := s.tun.sparge ++ [x] } := by
  rw [State.appendEntry, setSparge_tun, part_of_except (State.endStall_same 1048577 rfl s) .tun rfl]

theorem barmAppend_tile {s : State} {l : BarmList} (hr : s.pageRuns 0x098 = true) (hb : s.barm.backlog = [])
    (ha : s.appending = some l) (hl : s.listLate l = false) (ht : spOp (l.entry l.next) = 1 ∨ spOp (l.entry l.next) = 2)
    (hf : s.tun.sparge.length < 1024) :
    Answers .barmAppend s fun t => (⟨BitVec.ofNat 512 (l.image l.next), some (l.id, l.next)⟩ : SpEntry) ∈
      t.tun.sparge := by
  have room : s.spargeFull = false := decide_eq_false (by omega)
  have takes := barmAppend_takes hr hb ha hl
  rw [if_pos (by omega), room, if_neg Bool.false_ne_true] at takes
  refine ⟨_, takes, (settleSignals_keeps 1024 _).2.2.2.1 _ ?_ ?_⟩
  · rw [appendEntry_tun]
    exact List.mem_append_right _ List.mem_cons_self
  · rw [spOp_image]
    omega

theorem barmAppend_router {s : State} {l : BarmList} (hr : s.pageRuns 0x098 = true) (hb : s.barm.backlog = [])
    (ha : s.appending = some l) (hl : s.listLate l = false) (ht : spOp (l.entry l.next) = 4 ∨ spOp
    (l.entry l.next) = 5) :
    Answers .barmAppend s fun t =>
      t.ltr.ops = s.ltr.ops ++ [l.routerOp l.next] ∧ (t.listOf l.id).map (·.next) = some (l.next + 1) ∧
      SameBut [.barm, .ltr] s t := by
  have takes := barmAppend_takes hr hb ha hl
  rw [if_neg (by omega), if_pos (by omega)] at takes
  have listed := listOf_setList (f := fun x => { x with next := x.next + 1 }) (listOf_of_appending ha) fun x => rfl
  refine ⟨_, takes, rfl, ?_, sameBut_of_except ?_⟩
  · exact congrArg (Option.map (·.next)) listed
  · exact (State.setLtr_same 1572864 rfl _ _).trans (State.advanceList_same 1572864 rfl s _)

theorem barmAppend_waits {s : State} {l : BarmList} (hr : s.pageRuns 0x098 = true) (hb : s.barm.backlog = [])
    (ha : s.appending = some l) (hl : s.listLate l = false) (ht : 5 < spOp (l.entry l.next)) :
    Answers .barmAppend s fun t =>
      (t.listOf l.id).map (fun x => (x.next, x.waits)) = some (l.next + 1, l.waits ++ [l.next]) ∧ SameBut [.barm] s
        t := by
  have takes := barmAppend_takes hr hb ha hl
  rw [if_neg (by omega), if_neg (by omega)] at takes
  have moved := listOf_setList (f := fun x => { x with next := x.next + 1 }) (listOf_of_appending ha) fun x => rfl
  have listed := listOf_setList (f := fun x => { x with waits := x.waits ++ [l.next] }) moved fun x => rfl
  refine ⟨_, takes, congrArg (Option.map fun x : BarmList => (x.next, x.waits)) listed, sameBut_of_except ?_⟩
  exact (State.setList_same 1048576 rfl _ _ _).trans (State.advanceList_same 1048576 rfl s _)

/-! ### Entries of the engine -/

theorem expireWaits_self {s : State} {ty : Nat}
    (h : ∀ x ∈ s.waiting ty, s.listLate x.1 = false) : s.expireWaits ty = s := by
  unfold State.expireWaits
  rw [List.filter_eq_nil_iff.mpr fun x hx => by rw [h x hx]; decide]
  rfl

/-- Generated tiles move to the Sparge list; none is lost. -/
theorem drainBacklog_keeps (fuel : Nat) (s : State) {x : SpEntry} (h : x ∈ s.tun.sparge ∨ x ∈ s.barm.backlog) :
    x ∈ (State.drainBacklog fuel s).tun.sparge ∨ x ∈ (State.drainBacklog fuel s).barm.backlog := by
  induction fuel generalizing s with
  | zero => exact h
  | succ n ih =>
    unfold State.drainBacklog
    split
    · exact h
    · next y l waits =>
      split
      · have stalled : s.beginStall.barm.backlog = s.barm.backlog := by
          unfold State.beginStall
          split
          · rfl
          · rw [part_of_except (State.raise_same 1 rfl _ _ _) .barm rfl]
            rfl
        rw [stalled, part_of_except (State.beginStall_same 1048577 rfl s) .tun rfl]
        exact h
      · refine ih _ ?_
        have ended (u : State) : (u.appendEntry y).barm.backlog = u.barm.backlog := by
          rw [State.appendEntry, part_of_except (State.setSparge_same 262145 rfl _ _) .barm rfl]
          unfold State.endStall
          split
          · have counted (n : Nat) : (u.count BARM_SPSTALL n).barm = u.barm :=
              part_of_except (State.count_same 1 rfl u _ n) .barm rfl
            simp only [State.setBarm, counted]
          · rfl
        rw [appendEntry_tun, ended]
        rw [waits, List.mem_cons] at h
        rcases h with old | first | rest
        · exact .inl (List.mem_append_left _ old)
        · exact .inl (List.mem_append_right _ (by rw [first]; exact List.mem_cons_self))
        · exact .inr rest

theorem expand_tiles {s : State} {l : BarmList} {i d sum g : Nat} {gs dts sts : List Nat}
    (hd : d = s.memNat (enAddr (l.entry (enRidx (l.entry i)))) 64) (hs : sum = s.memNat (rdDtab d + 64 * 64) 64)
    (hdt : dts = (List.range (rdNe d)).map (fun e => s.memNat (rdDtab d + 64 * e) 64))
    (hst : sts = (List.range (rdNe d)).map (fun e => s.memNat (enAddr (l.entry i) + 64 * e) 64))
    (hnb : spNb (l.entry i) ≠ 0) (hk : spK (l.entry i) ≠ 0) (hnc : enNcol (l.entry i) ≠ 0)
    (hro : l.routes.contains (enRidx (l.entry i)) = true) (hp : s.waitPoisoned (l.phys (spWcnt (l.entry i))) = false)
    (hcd : crcOk64 d = true) (hcs : crcOk64 sum = true) (hct : ∀ x ∈ dts, crcOk64 x = true)
      (hcst : ∀ x ∈ sts, crcOk64 x = true)
    (hg : s.freeCounters true = g :: gs) (hn : (expertTiles l i g (bits sum 104 1) dts sts).length ≤ 8192) :
    ∀ x ∈ expertTiles l i g (bits sum 104 1) dts sts, x ∈ (s.expand l i).tun.sparge ∨ x ∈
      (s.expand l i).barm.backlog := by
  intro x hx
  have tables : dts.any (fun x => !crcOk64 x) = false := List.any_eq_false.mpr fun y hy => by rw [hct y hy]; decide
  have stages : (dts.zip sts).any (fun x => bits x.1 320 16 != 0 && !crcOk64 x.2) = false :=
    List.any_eq_false.mpr fun y hy => by rw [hcst y.2 (List.of_mem_zip hy).2, Bool.not_true, Bool.and_false]; decide
  unfold State.expand
  dsimp only
  rw [← hd, ← hs, ← hdt, ← hst, if_neg (by rintro (h | h | h); exacts [hnb h, hk h, hnc h]), hro, hp, hcd, hcs, tables,
    stages,
    if_neg (by decide), if_neg (by decide), hg]
  dsimp only
  rw [if_neg (Nat.not_lt.mpr hn), if_neg (List.ne_nil_of_mem hx)]
  exact drainBacklog_keeps 1024 _ (.inr (List.mem_append_right _ hx))

theorem backlog_expertDone (s : State) (l : BarmList) (i : Nat) (c : Status) (p : Bool) :
    (s.expertDone l i c p).barm.backlog = s.barm.backlog := by
  have freed (u : State) : (u.setBarm fun b => match l.groups.find? (·.idx == i) with
      | some g => { b with used := b.used.erase g.ctr }
      | none => b).barm.backlog = u.barm.backlog := by
    simp only [State.setBarm]
    split <;> rfl
  unfold State.expertDone
  dsimp only
  refine (freed _).trans (congrArg BarmState.backlog (part_of_except (State.signal_same 1 rfl s _ _) .barm rfl))

theorem backlog_report (s : State) (src : Option (Nat × Nat)) (c : Status) (sat ran : Bool) (n : Nat) :
    (s.report src c sat ran n).barm.backlog = s.barm.backlog := by
  unfold State.report
  split
  · rfl
  · dsimp only
    split
    · rfl
    · split
      · rfl
      · split
        · exact (backlog_expertDone _ _ _ _ _).trans rfl
        · rfl

theorem backlog_endEntry (s : State) (e : SpEntry) (c : Status) : (s.endEntry e c).barm.backlog = s.barm.backlog :=
  (backlog_report _ _ _ _ _ _).trans (congrArg BarmState.backlog
    (part_of_except ((State.signal_same 1 rfl _ _ _).trans (State.countTile_same 1 rfl s c)) .barm rfl))

theorem backlog_settleSignals (n : Nat) (s : State) : (s.settleSignals n).barm.backlog = s.barm.backlog := by
  have taken (u : State) (l : List SpEntry) : (u.setSparge l).barm.backlog = u.barm.backlog :=
    congrArg BarmState.backlog (part_of_except (State.setSparge_same 262145 rfl u l) .barm rfl)
  induction n generalizing s with
  | zero => rfl
  | succ n ih =>
    unfold State.settleSignals
    split
    · rfl
    · dsimp only
      split
      · rw [ih, backlog_endEntry, part_of_except (State.logStop_same 256 rfl _ _ _ _ _) .barm rfl, taken]
      · rw [ih, backlog_endEntry, taken]

theorem expertExpand_issues {s : State} {l : BarmList} {i sum g : Nat} {dts sts : List Nat}
    (hr : s.pageRuns 0x098 = true)
    (hl : ∀ x ∈ s.waiting 6, s.listLate x.1 = false)
    (hf : ((s.waiting 6).find? fun x => s.expertReady x.1 x.2) = some (l, i))
    (he : ∀ x ∈ expertTiles l i g (bits sum 104 1) dts sts, x ∈ (s.expand l i).tun.sparge ∨ x ∈
      (s.expand l i).barm.backlog) :
    Answers .expertExpand s fun t =>
      ∀ x ∈ expertTiles l i g (bits sum 104 1) dts sts, x ∈ t.tun.sparge ∨ x ∈ t.barm.backlog := by
  have command : exec .expertExpand s = .next ((s.expand l i).settleSignals 1024) := by
    change execExpertExpand s = _
    unfold execExpertExpand
    rw [if_neg (by rw [hr]; decide)]
    dsimp only
    rw [expireWaits_self hl, hf]
  refine ⟨_, command, fun x hx => (he x hx).imp (fun waits => ?_) fun waits => ?_⟩
  · refine (settleSignals_keeps 1024 _).2.2.2.1 x waits ?_
    rw [spOp_expertTiles l i g _ dts sts x hx]
    decide
  · rw [backlog_settleSignals]
    exact waits

theorem insightDeliver_answers {s : State} {l : BarmList} {i : Nat} (hr : s.pageRuns 0x098 = true)
    (hw : ∀ x ∈ s.waiting 7, s.listLate x.1 = false)
    (hf : ((s.waiting 7).find? fun x =>
      s.waitMet (x.1.phys (spWcnt (x.1.entry x.2))) (spWval (x.1.entry x.2))) = some (l, i))
    (hn : enLen (l.entry i) ≠ 0) (hm : s.tenantMay l.tc false (enAddr (l.entry i)) (enLen (l.entry i)) = true)
    (hp : s.waitPoisoned (l.phys (spWcnt (l.entry i))) = false) (hh : ∀ h ∈ s.barm.held, h.tc ≠ l.tc)
    (hroom : s.ringRoom l.ring = true) :
    Answers .insightDeliver s fun t =>
      t.ringIdx (l.ring.base + 0x08) = (s.ringIdx (l.ring.base + 0x08) + 1) % 65536 ∧
      t.bytes (l.ring.compBase + 64 * (s.ringIdx (l.ring.base + 0x08) % 2 ^ l.ring.cl)) 64 =
        leBytes 64 (s.insightRecord l i (if s.estimated then .holdover else if l.deg then .degraded else .ok)
          (s.bytes (enAddr (l.entry i)) (enLen (l.entry i)))) := by
  generalize hc : (if s.estimated then Status.holdover else if l.deg then .degraded else .ok) = c
  have delivered : s.deliver l i = (s.putRecord l.ring (s.insightRecord l i c
      (s.bytes (enAddr (l.entry i)) (enLen (l.entry i))))).endIssued l i c := by
    unfold State.deliver
    dsimp only
    rw [if_neg hn, hm, hp, hc, sendRecord_room hh hroom, if_neg (by decide), if_neg (by decide)]
  have command : exec .insightDeliver s = .next ((s.deliver l i).settleSignals 1024) := by
    change execInsightDeliver s = _
    unfold execInsightDeliver
    rw [if_neg (by rw [hr]; decide)]
    dsimp only
    rw [expireWaits_self hw, hf]
  generalize s.insightRecord l i c (s.bytes (enAddr (l.entry i)) (enLen (l.entry i))) = w at delivered ⊢
  obtain ⟨next, bytes⟩ := putRecord_writes s l.ring w
  have memory : ((s.deliver l i).settleSignals 1024).mem = (s.putRecord l.ring w).mem := by
    rw [part_of_except (State.settleSignals_same 1310977 rfl _ _) .mem rfl, delivered,
      part_of_except (State.endIssued_same 1048577 rfl _ _ _ _) .mem rfl]
  refine ⟨_, command, ?_, ?_⟩
  · rw [State.ringIdx, memNat_of_mem memory]
    exact next
  · rw [State.bytes, memory]
    exact bytes

/-- Settles O30. -/
theorem entriesComplete : Obligations.EntriesComplete := by
  unfold Obligations.EntriesComplete
  refine ⟨fun s l hr hb ha hl => ⟨barmAppend_tile hr hb ha hl, barmAppend_router hr hb ha hl, barmAppend_waits hr hb ha
    hl⟩, ?_,
    fun s l i hr hw hf hn hm hp hh hroom => insightDeliver_answers hr hw hf hn hm hp hh hroom⟩
  intro s l i d sum g gs dts sts hr hl hf hd hs hdt hst hnb hk hnc hro hp hcd hcs hct hcst hg hn
  exact expertExpand_issues hr hl hf (expand_tiles hd hs hdt hst hnb hk hnc hro hp hcd hcs hct hcst hg hn)

end Sys2Proof.Machine

/-! ## The harts of the control complex (O31) -/

namespace Sys2Proof.Machine

open Reg

/-! ### Harts -/

theorem hart_setHart_same (s : State) (h : Nat) (f : Hart → Hart) : (s.setHart h f).hart h = f (s.hart h) :=
  cellAt_put_same _ _ _ _

theorem hart_setHart_other (s : State) {h k : Nat} (hk : k ≠ h) (f : Hart → Hart) : (s.setHart h f).hart k = s.hart k :=
  cellAt_put_other _ _ hk _ _

theorem hart_of_ccx {s t : State} (h : t.ccx = s.ccx) (k : Nat) : t.hart k = s.hart k := by
  rw [State.hart, State.hart, h]

theorem hart_wr (s : State) (f : Fld) (v k : Nat) : (s.wr f v).hart k = s.hart k :=
  hart_of_ccx (part_of_except (State.wr_same 1 rfl s f v) .ccx rfl) k

theorem rd_setHart (s : State) (h : Nat) (f : Hart → Hart) (g : Fld) : (s.setHart h f).rd g = s.rd g := rd_setCcx s _ g

theorem on_setHart (s : State) (h : Nat) (f : Hart → Hart) (g : Fld) : (s.setHart h f).on g = s.on g := on_setCcx s _ g

theorem cTcv_narrow (h : Fin 4) : (CCX_C_TCV h.val).narrow = true := rfl

theorem cTcv_free : ∀ h : Fin 4, (CCX_C_TCV h.val).free (CCX_C_TC h.val) = true := by decide

theorem tcrefn_free : ∀ h : Fin 4, CCX_TCREFN.free (CCX_C_TC h.val) = true ∧ CCX_TCREFN.free
    (CCX_C_TCV h.val) = true := by
  decide

theorem ccxTctx_takes {s : State} {h : Fin 4} {tc : Fin 64} {v : Bool} (hu : bit (s.rd CCX_HUP) h.val = true)
    (ht : tc.val ≠ 1) :
    Answers (.ccxTctx h tc v) s fun t =>
      t.rd (CCX_C_TC h.val) = tc.val ∧ t.on (CCX_C_TCV h.val) = v ∧ (t.hart h.val).tsts = codeOf .ok := by
  have command : exec (.ccxTctx h tc v) s = .next (((s.setHart h.val fun x => { x with tsts := codeOf .ok }).wr
      (CCX_C_TC h.val) tc.val).wr (CCX_C_TCV h.val) (b2n v)) := by
    change execCcxTctx h tc v s = _
    unfold execCcxTctx
    dsimp only
    rw [hu, if_neg (by decide), if_neg ht]
  refine ⟨_, command, ?_, ?_, ?_⟩
  · rw [rd_wr_free (cTcv_free h)]
    exact rd_wr_lt rfl (show tc.val < 2 ^ 6 from tc.isLt) _
  · exact on_wr_b2n (cTcv_narrow h) (Nat.le_of_ble_eq_true rfl) _ v
  · rw [hart_wr, hart_wr, hart_setHart_same]

theorem ccxTctx_refuses {s : State} {h : Fin 4} {tc : Fin 64} {v : Bool} (hu : bit (s.rd CCX_HUP) h.val = true)
    (ht : tc.val = 1) :
    Answers (.ccxTctx h tc v) s fun t =>
      t.rd (CCX_C_TC h.val) = s.rd (CCX_C_TC h.val) ∧ t.on (CCX_C_TCV h.val) = s.on (CCX_C_TCV h.val) ∧
      (t.hart h.val).tsts = codeOf .cfgInvalid ∧ t.rd CCX_TCREFN = satNat 16 (s.rd CCX_TCREFN + 1) ∧
      Logged s t 0x5008 deviceTc h.val := by
  have command : exec (.ccxTctx h tc v) s = .next (((s.setHart h.val fun x =>
    { x with tsts := codeOf .cfgInvalid }).count
      CCX_TCREFN).log 0x5008 deviceTc h.val) := by
    change execCcxTctx h tc v s = _
    unfold execCcxTctx
    dsimp only
    rw [hu, if_neg (by decide), if_pos ht]
  refine ⟨_, command, ?_, ?_, ?_, ?_, ?_⟩
  · rw [rd_log, rd_count_free (tcrefn_free h).1, rd_setHart]
  · rw [on_log, on_count_free (tcrefn_free h).2, on_setHart]
  · rw [hart_of_ccx (part_of_except (State.log_same 256 rfl _ _ _ _) .ccx rfl), State.count, hart_wr, hart_setHart_same]
  · rw [rd_log, rd_count_same _ _ _ rfl, rd_setHart]
    rfl
  · exact congrArg (· ++ _) (part_of_except ((State.count_same 2097153 rfl _ _ _).trans
      (State.setHart_same 2097153 rfl s _ _)) .events rfl)

theorem stampCompare_compares {s : State} {h : Fin 4} {v : Option (BitVec 64)} (hu : bit (s.rd CCX_HUP) h.val = true) :
    Answers (.stampCompare h v) s fun t =>
      (t.hart h.val).irq16 = decide ((v.getD (s.hart h.val).stcmp).toNat ≤ stampNat s.stamp) ∧
      (t.hart h.val).stcmp = v.getD (s.hart h.val).stcmp ∧ SameBut [.ccx] s t := by
  cases v with
  | none =>
    have command : exec (.stampCompare h none) s = .next (s.compareStamp h.val) := by
      change execStampCompare h none s = _
      unfold execStampCompare
      dsimp only
      rw [hu, if_neg (by decide)]
    refine ⟨_, command, ?_, ?_, sameBut_of_except (State.setHart_same 2097152 rfl s _ _)⟩
    · rw [State.compareStamp, hart_setHart_same]
      rfl
    · rw [State.compareStamp, hart_setHart_same]
      rfl
  | some v =>
    have command : exec (.stampCompare h (some v)) s = .next ((s.setHart h.val fun x =>
      { x with stcmp := v }).compareStamp
        h.val) := by
      change execStampCompare h (some v) s = _
      unfold execStampCompare
      dsimp only
      rw [hu, if_neg (by decide)]
    refine ⟨_, command, ?_, ?_, sameBut_of_except ((State.setHart_same 2097152 rfl _ _ _).trans
      (State.setHart_same 2097152 rfl s _ _))⟩
    · rw [State.compareStamp, hart_setHart_same, hart_setHart_same]
      rfl
    · rw [State.compareStamp, hart_setHart_same, hart_setHart_same]
      rfl

/-! ### Accesses -/

/-- An access of a running hart in its map. -/
theorem hartAccess_runs {s : State} {a : HartAccess} (hc : a.core.val < 4) (hu : bit (s.rd CCX_HUP) a.core.val = true)
    (hp : a.pmp = true) (hr : a.replay = false) :
    exec (.hartMemoryAccess a) s = .next (s.appAccess a a.addr.toNat) := by
  change execHartMemoryAccess a s = _
  unfold execHartMemoryAccess
  dsimp only
  have app : a.core.val ≠ 4 := by omega
  simp only [hu, hp, hr, app, and_false, false_and, if_false, Bool.false_eq_true, Bool.true_eq_false]

theorem accessSpan_plain {a : HartAccess} (h : cacheOp a.kind = false) (addr : Nat) : accessSpan a addr =
    (addr, a.size) := by
  unfold accessSpan
  rw [h]
  rfl

theorem appAccess_shared {s : State} {a : HartAccess} {addr : Nat} (hk : cacheOp a.kind = false) (hl : s.level < 3)
    (ha : addr + a.size ≤ 0x1000000) :
    s.appAccess a addr = if s.windowPasses a (addr, a.size) then s.sharedAccess a (addr, a.size)
      else s.hartDenied a (addr, a.size) := by
  have inside : within (addr, a.size) 0 0x1000000 = true := by
    simp only [within, Nat.zero_add, Nat.zero_le, decide_true, Bool.true_and, decide_eq_true_eq]
    exact ha
  unfold State.appAccess
  rw [accessSpan_plain hk]
  dsimp only
  rw [if_pos inside, if_neg (by omega)]

theorem padTo_length {n : Nat} {l : List Byte} (h : l.length = n) : padTo n l = l := by
  rw [padTo, ← h, List.take_left]

theorem coreDone_parts (s : State) (a : HartAccess) (c : Status) (l : List Byte) :
    (s.coreDone a c l).resp.code = c ∧ (s.coreDone a c l).resp.data = byteNats l ∧
    ((s.coreDone a c l).hart a.core.val).fault = none ∧ (s.coreDone a c l).mem = s.mem :=
  ⟨rfl, rfl, congrArg Hart.fault (hart_setHart_same s a.core.val fun h => { h with fault := none }), rfl⟩

section
variable {s : State} {a : HartAccess} (hc : a.core.val < 4) (hu : bit (s.rd CCX_HUP) a.core.val = true)
  (hp : a.pmp = true)
  (hr : a.replay = false) (hl : s.level < 3)
include hc hu hp hr hl

theorem machineLoad_answers (hm : a.machine = true) (ha : a.addr.toNat + a.size ≤ 0x1000000) (hk : a.kind = .load) :
    Answers (.hartMemoryAccess a) s fun t =>
      t.resp.code = .ok ∧ t.resp.data = byteNats (s.bytes a.addr.toNat a.size) ∧
      (t.hart a.core.val).fault = none ∧ SameBut [.ccx, .resp] s t := by
  have passes : s.windowPasses a (a.addr.toNat, a.size) = true := by
    unfold State.windowPasses
    rw [hm]
    rfl
  have runs := hartAccess_runs hc hu hp hr
  rw [appAccess_shared (by rw [hk]; rfl) hl ha, passes, if_pos rfl] at runs
  unfold State.sharedAccess at runs
  rw [hk] at runs
  obtain ⟨code, data, fault, -⟩ := coreDone_parts s a .ok (s.bytes a.addr.toNat a.size)
  exact ⟨_, runs, code, data, fault, sameBut_of_except (State.coreDone_same 2097664 rfl s _ _ _)⟩

theorem machineStore_answers (hm : a.machine = true) (hk : a.kind = .store)
    (hx : a.addr.toNat + a.size ≤ 0xFF0000) (hd : a.data.length = a.size) :
    Answers (.hartMemoryAccess a) s fun t =>
      t.resp.code = .ok ∧ t.mem = memStore s.mem a.addr.toNat a.data ∧
      (t.hart a.core.val).fault = none ∧ SameBut [.ccx, .resp, .mem] s t := by
  have passes : s.windowPasses a (a.addr.toNat, a.size) = true := by
    unfold State.windowPasses
    rw [hm]
    rfl
  have runs := hartAccess_runs hc hu hp hr
  rw [appAccess_shared (by rw [hk]; rfl) hl (by omega), passes, if_pos rfl] at runs
  unfold State.sharedAccess at runs
  rw [hk] at runs
  dsimp only at runs
  rw [if_neg (by omega), padTo_length hd] at runs
  obtain ⟨code, -, fault, mem⟩ := coreDone_parts (s.store a.addr.toNat a.data) a .ok []
  exact ⟨_, runs, code, mem, fault, sameBut_of_except ((State.coreDone_same 34361836032 rfl _ _ _ _).trans
    (State.store_same 34361836032 rfl s _ _))⟩

theorem windowFault_answers (ha : a.addr.toNat + a.size ≤ 0x1000000) (hk : a.kind = .load ∨ a.kind = .store)
    (hw : s.windowPasses a (a.addr.toNat, a.size) = false) :
    Answers (.hartMemoryAccess a) s fun t =>
      (t.hart a.core.val).fault = some (faultKind a.kind) ∧ t.mem = s.mem ∧
      t.rd CCX_MEMFLTN = satNat 16 (s.rd CCX_MEMFLTN + 1) ∧
      Logged s t 0x5006 (s.rd (CCX_C_TC a.core.val))
        (a.core.val + a.addr.toNat * 2 ^ 8 + b2n (a.kind == .store) * 2 ^ 48) := by
  have runs := hartAccess_runs hc hu hp hr
  have plain : cacheOp a.kind = false := by
    rcases hk with h | h
    · rw [h]; rfl
    · rw [h]; rfl
  rw [appAccess_shared plain hl ha, hw, if_neg (by decide)] at runs
  unfold State.hartDenied at runs
  dsimp only at runs
  generalize hu : (((s.count CCX_MEMFLTN).wr CCX_FLT_LO (a.addr.toNat % 2 ^ 32)).wr CCX_FLT_HI
    (a.addr.toNat / 2 ^ 32 % 256)).raise 0x0A0 1 = u at runs
  have same : u.except 1 = s.except 1 := by
    rw [← hu]
    exact (State.raise_same 1 rfl _ _ _).trans ((State.wr_same 1 rfl _ _ _).trans ((State.wr_same 1 rfl _ _ _).trans
      (State.count_same 1 rfl s _ _)))
  have counts : u.rd CCX_MEMFLTN = satNat 16 (s.rd CCX_MEMFLTN + 1) := by
    rw [← hu, rd_raise_free (by decide), rd_wr_free (by decide), rd_wr_free (by decide)]
    exact rd_count_same s _ 1 rfl
  have tenant : u.rd (CCX_C_TC a.core.val) = s.rd (CCX_C_TC a.core.val) := by
    have frees : ∀ h : Fin 4, (IRQ_RAW 0x0A0).free (CCX_C_TC h.val) = true ∧ CCX_FLT_HI.free (CCX_C_TC h.val) = true ∧
        CCX_FLT_LO.free (CCX_C_TC h.val) = true ∧ CCX_MEMFLTN.free (CCX_C_TC h.val) = true := by decide
    obtain ⟨irq, hi, lo, num⟩ := frees ⟨a.core.val, hc⟩
    rw [← hu, rd_raise_free irq, rd_wr_free hi, rd_wr_free lo, rd_count_free num]
  rw [tenant] at runs
  refine ⟨_, runs, ?_, part_of_except same .mem rfl, counts, ?_⟩
  · exact congrArg Hart.fault (hart_setHart_same (u.log _ _ _) a.core.val fun h =>
      { h with fault := some (faultKind a.kind) })
  · exact congrArg (· ++ _) (part_of_except same .events rfl)
end

theorem registerStore_answers {s : State} {a : HartAccess} {tc : Fin 64} (hc : a.core.val < 4)
    (hu : bit (s.rd CCX_HUP) a.core.val = true) (hp : a.pmp = true) (hr : a.replay = false) (hf : a.flip = 0)
    (hk : a.kind = .store) (hs : a.size = 4) (hd : a.data.length = 4) (hlo : 0x40000000 ≤ a.addr.toNat)
    (hhi : a.addr.toNat + 4 ≤ 0x80000000) (ht : s.coreTenant a = some tc) :
    Answers (.hartMemoryAccess a) s fun t =>
      ∃ u, exec (.configWrite ⟨.hart a.core.val, tc, BitVec.ofNat 32 a.addr.toNat, 4, false, BitVec.ofNat 32
        (leNat a.data),
          carryCode true tc.val (addressA a.addr.toNat false) (BitVec.ofNat 32 (leNat a.data))⟩) s = .next u ∧
        t.resp.code = u.resp.code ∧ SameBut [.ccx, .resp] u t := by
  have plain : cacheOp a.kind = false := by rw [hk]; rfl
  have out (base len : Nat) (h : base + len < a.addr.toNat + 4 ∨ a.addr.toNat < base) : within (a.addr.toNat, 4) base
    len = false := by
    simp only [within, Bool.and_eq_false_iff, decide_eq_false_iff_not]
    omega
  have inside : within (a.addr.toNat, 4) 0x40000000 0x40000000 = true := by
    simp only [within, Bool.and_eq_true, decide_eq_true_eq]
    omega
  have runs := hartAccess_runs hc hu hp hr
  have reached : s.appAccess a a.addr.toNat = s.regAccess a a.addr.toNat tc := by
    unfold State.appAccess
    rw [accessSpan_plain plain, hs]
    dsimp only
    rw [out 0 _ (by omega), out ddrBase _ (by simp only [ddrBase]; omega), Bool.false_and, out sramBase sramLen
      (by simp only [sramBase, sramLen]; omega), out 0x20000000 _ (by omega), out 0x2000000 _ (by omega),
      out 0xC000000 _ (by omega), inside, ht]
    rfl
  rw [reached] at runs
  unfold State.regAccess at runs
  rw [hk] at runs
  have word : padTo 4 (a.data.take 4) = a.data := by
    rw [List.take_of_length_le (by omega), padTo_length hd]
  have port : corePort a.core = .hart a.core.val := if_neg (by omega)
  dsimp only at runs
  have data : a.flip.setWidth 32 = (0#32) := by rw [hf]; rfl
  have code : (a.flip >>> 32).setWidth 8 = (0#8) := by rw [hf]; rfl
  rw [word, port, hs, data, code, BitVec.xor_zero, BitVec.xor_zero] at runs
  refine ⟨_, runs, _, rfl, rfl, sameBut_of_except ?_⟩
  exact (State.coreDone_same 2097664 rfl _ _ _ _).trans (State.setRstat_same 2097664 rfl _ _ _ _)

/-! ### Interrupts, kicks and resets -/

theorem plicClaim_answers (s : State) (c : Fin 8) : Answers (.plicClaim c) s fun t =>
    t.resp.code = .ok ∧ t.resp.data = [s.plicBest c.val] ∧
    (s.plicBest c.val ≠ 0 → s.plicBest c.val ∈ t.ccx.served) ∧
    (s.plicBest c.val = 81 → t.on MGC_DB_TOCCX = false) := by
  have claimed (n : Nat) (h : s.plicBest c.val = n) : s.plicClaim c.val = if n = 0 then (0, s) else
      (n, if n = 81 then (s.setCcx fun c => { c with served := n :: c.served }).wr MGC_DB_TOCCX 0
        else s.setCcx fun c => { c with served := n :: c.served }) := by
    unfold State.plicClaim
    rw [h]
  refine ⟨_, rfl, rfl, ?_, fun some => ?_, fun bell => ?_⟩
  · rw [claimed _ rfl]
    split
    · next none => rw [none]
    · rfl
  · rw [claimed _ rfl, if_neg some]
    dsimp only
    split
    · rw [part_of_except (State.wr_same 1 rfl _ _ _) .ccx rfl]
      exact List.mem_cons_self
    · exact List.mem_cons_self
  · rw [claimed 81 bell]
    exact (on_of_regs (s := State.wr _ MGC_DB_TOCCX 0) rfl _).trans (on_wr_b2n (f := MGC_DB_TOCCX) rfl (by decide) _
      false)

theorem mem_bitsSet {d n k : Nat} : k ∈ bitsSet d n ↔ k < n ∧ bit d k = true := by
  simp only [bitsSet, List.mem_filter, List.mem_range]

theorem bit_bits {d lo n k : Nat} (hk : k < n) : bit (bits d lo n) k = bit d (lo + k) := by
  rw [bit_eq_testBit, bit_eq_testBit, testBit_bits, decide_eq_true hk, Bool.true_and]

/-- The harts whose bits are written have their watchdogs count from now. -/
theorem foldl_kick (l : List Nat) (s : State) (k : Nat) :
    ((l.foldl (fun s h => s.setHart h fun x => { x with kicked := s.clk }) s).hart k).kicked =
      if k ∈ l then s.clk else (s.hart k).kicked := by
  induction l generalizing s with
  | nil => rfl
  | cons h r ih =>
    rw [List.foldl_cons, ih]
    by_cases own : k = h
    · subst own
      rw [hart_setHart_same, if_pos List.mem_cons_self]
      split <;> rfl
    · rw [hart_setHart_other _ own]
      simp only [List.mem_cons, own, false_or]
      rfl

theorem foldl_kick_same (l : List Nat) (s : State) :
    (l.foldl (fun s h => s.setHart h fun x => { x with kicked := s.clk }) s).except 2097152 = s.except 2097152 := by
  induction l generalizing s with
  | nil => rfl
  | cons h r ih => exact (ih _).trans (State.setHart_same 2097152 rfl s h _)

theorem ccxKick_answers {s : State} {h : Fin 4} {w : RegWrite}
    (hw : s.admitsWrite 0x0A0 0x04C w (setBit w.data.toNat h.val) = true) :
    Answers (.ccxKick h w) s fun t =>
      t.resp.code = .ok ∧ (t.hart h.val).kicked = s.clk ∧ SameBut [.ccx, .resp] s t := by
  have done : ccxWrite s ⟨w.port, w.tc.val, 0x0A0, 0x04C, none⟩ (BitVec.ofNat 32 (setBit w.data.toNat h.val)).toNat =
      (.ok, (bitsSet (bits (BitVec.ofNat 32 (setBit w.data.toNat h.val)).toNat 0 4) 4).foldl
        (fun s h => s.setHart h fun x => { x with kicked := s.clk }) s) := rfl
  have named : h.val ∈ bitsSet (bits (BitVec.ofNat 32 (setBit w.data.toNat h.val)).toNat 0 4) 4 := by
    refine mem_bitsSet.mpr ⟨h.isLt, ?_⟩
    rw [bit_bits h.isLt, Nat.zero_add, bit_command (by omega), if_pos rfl]
  refine answers_write (h := ccxWrite) (f := (setBit · h.val)) rfl (by decide) hw done ⟨rfl, ?_, sameBut_of_except ?_⟩
  · rw [hart_of_ccx (part_of_except (State.answer_same 512 rfl _ _) .ccx rfl), foldl_kick, if_pos named]
  · refine (State.answer_same 2097664 rfl _ _).trans ?_
    exact except_mono (q := 2097152) rfl (foldl_kick_same _ s)

theorem hart_resetHart (s : State) (h : Nat) : (s.resetHart h).hart h = {} := by
  rw [State.resetHart, hart_wr, hart_wr, hart_setHart_same]

theorem hart_resetHart_other (s : State) {h k : Nat} (hk : k ≠ h) : (s.resetHart h).hart k = s.hart k := by
  rw [State.resetHart, hart_wr, hart_wr, hart_setHart_other _ hk]

theorem context_resetHart (s : State) (h : Fin 4) :
    (s.resetHart h.val).rd (CCX_C_TC h.val) = 0 ∧ (s.resetHart h.val).on (CCX_C_TCV h.val) = false := by
  rw [State.resetHart]
  refine ⟨?_, on_wr_b2n (cTcv_narrow h) (Nat.le_of_ble_eq_true rfl) _ false⟩
  rw [rd_wr_free (cTcv_free h)]
  exact rd_wr_lt rfl (show 0 < 2 ^ 6 by decide) _

/-! ### Time that a command implies -/

theorem advance_clk (s : State) (n : Nat) : (s.advance n).clk = s.clk + n * s.rd CTF_PERIOD :=
  part_of_except (State.rtcAdvance_same 4097 rfl _ _) .clk rfl

theorem le_ceilDiv_mul {a b : Nat} (hb : 0 < b) : a ≤ ceilDiv a b * b := by
  have whole := Nat.div_add_mod (a + b - 1) b
  have rest := Nat.mod_lt (a + b - 1) hb
  rw [ceilDiv, if_neg (Nat.ne_of_gt hb), Nat.mul_comm]
  omega

theorem waitUntil_clk {s : State} (hp : s.rd CTF_PERIOD ≠ 0) (n : Nat) : n ≤ (s.waitUntil n).clk := by
  unfold State.waitUntil
  split
  · next early =>
    have one : max 1 (s.rd CTF_PERIOD) = s.rd CTF_PERIOD := Nat.max_eq_right (Nat.one_le_iff_ne_zero.mpr hp)
    have reached := le_ceilDiv_mul (a := n - s.clk) (Nat.pos_of_ne_zero hp)
    rw [one, advance_clk]
    omega
  · next late => exact Nat.le_of_not_lt late

/-- A reset hart has its watchdog count from the reset. -/
theorem resetHart_kicked (u : State) (h : Fin 4) :
    ∀ t, t = ((u.resetHart h.val).setHart h.val fun x => { x with kicked := (u.resetHart h.val).clk }) →
      t.hart h.val = { kicked := u.clk } ∧ t.clk = u.clk ∧ t.rd (CCX_C_TC h.val) = 0 ∧ t.on (CCX_C_TCV h.val) =
        false := by
  rintro t rfl
  have clk : (u.resetHart h.val).clk = u.clk := part_of_except (State.resetHart_same 2097153 rfl u h.val) .clk rfl
  refine ⟨?_, clk, ?_, ?_⟩
  · rw [hart_setHart_same, hart_resetHart, clk]
  · rw [rd_setHart]
    exact (context_resetHart u h).1
  · rw [on_setHart]
    exact (context_resetHart u h).2

theorem hartWatchdog_answers {s : State} {h : Fin 4} (he : s.on CCX_WDT_EN = true) (hu : bit
    (s.rd CCX_HUP) h.val = true)
    (hp : s.rd CTF_PERIOD ≠ 0) :
    Answers (.hartWatchdog h) s fun t =>
      t.hart h.val = { kicked := t.clk } ∧ bit (t.rd CCX_HWDT) h.val = true ∧
      t.rd (CCX_C_TC h.val) = 0 ∧ t.on (CCX_C_TCV h.val) = false ∧
      (s.hart h.val).kicked + msTicks (s.rd CCX_WDT_MS) ≤ t.clk := by
  have late := waitUntil_clk hp ((s.hart h.val).kicked + msTicks (s.rd CCX_WDT_MS))
  generalize hu' : s.waitUntil ((s.hart h.val).kicked + msTicks (s.rd CCX_WDT_MS)) = u at late
  generalize hv : ((u.resetHart h.val).setHart h.val fun x => { x with kicked := (u.resetHart h.val).clk }) = v
  have command : exec (.hartWatchdog h) s = .next ((v.wr CCX_HWDT (setBit (v.rd CCX_HWDT) h.val)).raise 0x0A0 0) := by
    change execHartWatchdog h s = _
    unfold execHartWatchdog
    dsimp only
    rw [he, hu, if_neg (by decide), hu', hv]
  obtain ⟨hart, clk, tc, tcv⟩ := resetHart_kicked u h v hv.symm
  have same : ((v.wr CCX_HWDT (setBit (v.rd CCX_HWDT) h.val)).raise 0x0A0 0).except 1 = v.except 1 :=
    (State.raise_same 1 rfl _ _ _).trans (State.wr_same 1 rfl v _ _)
  have frees : ∀ h : Fin 4, (IRQ_RAW 0x0A0).free (CCX_C_TC h.val) = true ∧ CCX_HWDT.free (CCX_C_TC h.val) = true ∧
      (IRQ_RAW 0x0A0).free (CCX_C_TCV h.val) = true ∧ CCX_HWDT.free (CCX_C_TCV h.val) = true := by decide
  obtain ⟨irqTc, wdtTc, irqTcv, wdtTcv⟩ := frees h
  refine ⟨_, command, ?_, ?_, ?_, ?_, ?_⟩
  · rw [hart_of_ccx (part_of_except same .ccx rfl), part_of_except same .clk rfl, hart, clk]
  · rw [rd_raise_free (by decide), rd_wr_same _ _ _ rfl, bit_mod (show h.val < CCX_HWDT.width from h.isLt)]
    exact bit_setBit_same _ _
  · rw [rd_raise_free irqTc, rd_wr_free wdtTc, tc]
  · rw [on_raise_free irqTcv, on_wr_free wdtTcv, tcv]
  · rw [part_of_except same .clk rfl, clk]
    exact late

/-- Hart `h` is as its reset leaves it, but for the time from which its watchdog counts. -/
def HartFresh (s : State) (h c : Nat) : Prop :=
  s.clk = c ∧ (s.hart h = {} ∨ s.hart h = { kicked := c }) ∧ s.rd (CCX_C_TC h) = 0 ∧ s.on (CCX_C_TCV h) = false

theorem context_free : ∀ k h : Fin 4, k ≠ h → (CCX_C_TC k.val).free (CCX_C_TC h.val) = true ∧
    (CCX_C_TCV k.val).free (CCX_C_TC h.val) = true ∧ (CCX_C_TC k.val).free (CCX_C_TCV h.val) = true ∧
    (CCX_C_TCV k.val).free (CCX_C_TCV h.val) = true := by decide

theorem hup_free : ∀ h : Fin 4, CCX_HUP.free (CCX_C_TC h.val) = true ∧ CCX_HUP.free
    (CCX_C_TCV h.val) = true := by decide

theorem clk_resetHart (s : State) (k : Nat) : (s.resetHart k).clk = s.clk :=
  part_of_except (State.resetHart_same 2097153 rfl s k) .clk rfl

theorem fresh_of_reset (s : State) (h : Fin 4) : HartFresh (s.resetHart h.val) h.val s.clk :=
  ⟨clk_resetHart s _, .inl (hart_resetHart s _), context_resetHart s h⟩

theorem fresh_resetHart {s : State} {h : Fin 4} {c : Nat} (hs : HartFresh s h.val c) {k : Nat} (hk : k < 4) :
    HartFresh (s.resetHart k) h.val c := by
  obtain ⟨clk, hart, tc, tcv⟩ := hs
  by_cases own : k = h.val
  · rw [own, ← clk]
    exact fresh_of_reset s h
  · obtain ⟨tcTc, tcvTc, tcTcv, tcvTcv⟩ := context_free ⟨k, hk⟩ h (fun same => own (congrArg Fin.val same))
    refine ⟨(clk_resetHart s k).trans clk, ?_, ?_, ?_⟩
    · rw [hart_resetHart_other s (Ne.symm own)]
      exact hart
    · rw [State.resetHart, rd_wr_free tcvTc, rd_wr_free tcTc, rd_setHart, tc]
    · rw [State.resetHart, on_wr_free tcvTcv, on_wr_free tcTcv, on_setHart, tcv]

theorem fresh_kick {s : State} {h : Fin 4} {c : Nat} (hs : HartFresh s h.val c) (k : Nat) :
    HartFresh (s.setHart k fun x => { x with kicked := s.clk }) h.val c := by
  obtain ⟨clk, hart, tc, tcv⟩ := hs
  refine ⟨clk, ?_, by rw [rd_setHart, tc], by rw [on_setHart, tcv]⟩
  by_cases own : h.val = k
  · subst own
    rw [hart_setHart_same, clk]
    rcases hart with fresh | fresh
    · rw [fresh]
      exact .inr rfl
    · rw [fresh]
      exact .inr rfl
  · rw [hart_setHart_other _ own]
    exact hart

theorem fresh_foldl_reset {h : Fin 4} (l : List Nat) (hl : ∀ k ∈ l, k < 4) (s : State)
    (hs : h.val ∈ l ∨ HartFresh s h.val s.clk) : HartFresh (l.foldl (fun s h => s.resetHart h) s) h.val s.clk := by
  induction l generalizing s with
  | nil => exact hs.resolve_left List.not_mem_nil
  | cons k r ih =>
    have low := hl k List.mem_cons_self
    have rest := ih (fun j hj => hl j (List.mem_cons_of_mem _ hj)) (s.resetHart k)
    rw [clk_resetHart] at rest
    rw [List.foldl_cons]
    refine rest ?_
    rcases hs with named | fresh
    · rcases List.mem_cons.mp named with own | later
      · rw [← own]
        exact .inr (fresh_of_reset s h)
      · exact .inl later
    · exact .inr (fresh_resetHart fresh low)

theorem fresh_runHarts {s : State} {h : Fin 4} {c : Nat} (hs : HartFresh s h.val c) : HartFresh s.runHarts h.val c := by
  unfold State.runHarts
  dsimp only
  generalize (if s.ccx.recovery = true ∨ 3 ≤ s.level then 0 else s.rd CCX_RUN) = run
  have fold (l : List Nat) (hl : ∀ k ∈ l, k < 4) (u : State) (hu : HartFresh u h.val c) :
      HartFresh (l.foldl (fun s h =>
        if bit run h && !bit (s.rd CCX_HUP) h then s.setHart h fun x => { x with kicked := s.clk }
        else if !bit run h && bit (s.rd CCX_HUP) h then s.resetHart h
        else s) u) h.val c := by
    induction l generalizing u with
    | nil => exact hu
    | cons k r ih =>
      refine ih (fun j hj => hl j (List.mem_cons_of_mem _ hj)) _ ?_
      dsimp only
      split
      · exact fresh_kick hu k
      · split
        · exact fresh_resetHart hu (hl k List.mem_cons_self)
        · exact hu
  obtain ⟨clk, hart, tc, tcv⟩ := fold (List.range 4) (fun k hk => List.mem_range.mp hk) s hs
  refine ⟨?_, ?_, ?_, ?_⟩
  · rw [part_of_except (State.wr_same 1 rfl _ _ _) .clk rfl]
    exact clk
  · rw [hart_wr]
    exact hart
  · rw [rd_wr_free (hup_free h).1]
    exact tc
  · rw [on_wr_free (hup_free h).2]
    exact tcv

theorem ccxHrst_answers {s : State} {h : Fin 4} {w : RegWrite}
    (hw : s.admitsWrite 0x0A0 0x040 w (setBit w.data.toNat (8 + h.val)) = true) :
    Answers (.ccxHrst h w) s fun t =>
      t.resp.code = .ok ∧ t.rd (CCX_C_TC h.val) = 0 ∧ t.on (CCX_C_TCV h.val) = false ∧
      (t.hart h.val = {} ∨ t.hart h.val = { kicked := s.clk }) := by
  have done : ccxWrite s ⟨w.port, w.tc.val, 0x0A0, 0x040, none⟩ (BitVec.ofNat 32
    (setBit w.data.toNat (8 + h.val))).toNat =
      (.ok, ((bitsSet (bits (BitVec.ofNat 32 (setBit w.data.toNat (8 + h.val))).toNat 8 4) 4).foldl
        (fun s h => s.resetHart h)
        (s.storeWord 0x0A0 0x040 (BitVec.ofNat 32 (setBit w.data.toNat (8 + h.val))).toNat)).runHarts) := rfl
  have named : h.val ∈ bitsSet (bits (BitVec.ofNat 32 (setBit w.data.toNat (8 + h.val))).toNat 8 4) 4 := by
    refine mem_bitsSet.mpr ⟨h.isLt, ?_⟩
    rw [bit_bits h.isLt, bit_command (by omega), if_pos rfl]
  have stored : (s.storeWord 0x0A0 0x040 (BitVec.ofNat 32 (setBit w.data.toNat (8 + h.val))).toNat).clk = s.clk :=
    part_of_except (State.storeWord_same 41 rfl s _ _ _) .clk rfl
  have fresh := fresh_runHarts (fresh_foldl_reset _ (fun k hk => (mem_bitsSet.mp hk).1)
    (s.storeWord 0x0A0 0x040 (BitVec.ofNat 32 (setBit w.data.toNat (8 + h.val))).toNat) (.inl named))
  rw [stored] at fresh
  obtain ⟨-, hart, tc, tcv⟩ := fresh
  refine answers_write (h := ccxWrite) (f := (setBit · (8 + h.val))) rfl (by decide) hw done ⟨rfl, ?_, ?_, ?_⟩
  · rw [rd_answer, tc]
  · rw [on_answer, tcv]
  · rw [hart_of_ccx (part_of_except (State.answer_same 512 rfl _ _) .ccx rfl)]
    exact hart

/-- Settles O31. -/
theorem hartsComplete : Obligations.HartsComplete := by
  unfold Obligations.HartsComplete
  refine ⟨fun s h tc v hu => ⟨ccxTctx_takes hu, ccxTctx_refuses hu⟩, fun s h v hu => stampCompare_compares hu,
    fun s a hc hu hp hm hr hl _ ha => ⟨machineLoad_answers hc hu hp hr hl hm ha, machineStore_answers hc hu hp hr hl
      hm⟩,
    fun s a hc hu hp _ hr hl _ ha hk hw => windowFault_answers hc hu hp hr hl ha hk hw,
    fun s a tc hc hu hp hr hf hk hs hd hlo hhi ht => registerStore_answers hc hu hp hr hf hk hs hd hlo hhi ht,
    plicClaim_answers, fun s h w hw => ccxKick_answers hw, fun s h he hu hp => hartWatchdog_answers he hu hp,
    fun s h w hw => ccxHrst_answers hw⟩

end Sys2Proof.Machine

/-! ## Controllers, watchdog, boot images and the restore sequencer (O32, O33) -/

namespace Sys2Proof.Machine

open Reg

set_option autoImplicit false

/-! ### The tenants' context pages, outside the words that a page list keeps -/

/-- A page list that holds every context page. -/
def CoversTenants (P : List Nat) : Prop := ∀ p, 0x300 ≤ p → p < 1024 → P.contains p = true

/-- The context pages. -/
def tenantPages : List Nat := List.range' 0x300 0x100

theorem coversTenants_append (A : List Nat) : CoversTenants (A ++ tenantPages) := by
  intro p lo hi
  have listed : p ∈ tenantPages := List.mem_range'_1.mpr ⟨lo, by omega⟩
  exact List.contains_iff_mem.mpr (List.mem_append_right A listed)

section
variable {P : List Nat} (hTEN : CoversTenants P)
include hTEN

/-- A field from the context pages upwards, whatever its word. -/
theorem wr_past_high {f : Fld} (hk : 0x300000 ≤ f.key) (s : State) (v : Nat) : Past P (s.wr f v) = Past P s := by
  refine past_iff.mpr fun page off hp hoff hP => reg_wr_other s f v page off (.inl ?_)
  have below : page < 0x300 := Nat.lt_of_not_le fun h => by rw [hTEN page h hp] at hP; exact Bool.noConfusion hP
  unfold regKey
  omega

theorem State.ringRecord_past (s : State) (t kind code res detail : Nat) :
    Past P (s.ringRecord t kind code res detail) = Past P s := by
  have high (o lo w : Nat) (u : State) (v : Nat) : Past P (u.wr ⟨0x300 + t, o, lo, w⟩ v) = Past P u :=
    wr_past_high hTEN (by simp only [Fld.key, regKey]; omega) u v
  unfold State.ringRecord
  dsimp only
  split
  · exact high _ _ _ _ _
  · exact (past_of_except (except_upd_tnc _ rfl _)).trans ((high _ _ _ _ _).trans (high _ _ _ _ _))

theorem State.ringAll_past (s : State) (kind code res detail : Nat) :
    Past P (s.ringAll kind code res detail) = Past P s :=
  foldl_past (fun u t => State.ringRecord_past hTEN u t _ _ _ _) _ s

theorem State.outcome_past (s : State) (t r : Nat) (c : Status) (item : Nat) :
    Past P (s.outcome t r c item) = Past P s := by
  have high (o lo w : Nat) (u : State) : Past P (u.count ⟨0x300 + t, o, lo, w⟩ 1) = Past P u :=
    wr_past_high hTEN (by simp only [Fld.key, regKey]; omega) u _
  unfold State.outcome
  dsimp only
  split
  · rfl
  · next f named =>
    have counted : Past P (s.count f) = Past P s := by
      split at named <;> cases named <;> exact high _ _ _ _
    split
    · exact counted
    · exact (past_of_except (except_upd_tnc _ rfl _)).trans ((State.ringRecord_past hTEN _ _ _ _ _ _).trans counted)

theorem State.quotaShow_past (s : State) (r t : Nat) : Past P (s.quotaShow r t) = Past P s := by
  have high (o lo w : Nat) (u : State) (v : Nat) : Past P (u.wr ⟨0x300 + t, o, lo, w⟩ v) = Past P u :=
    wr_past_high hTEN (by simp only [Fld.key, regKey]; omega) u v
  unfold State.quotaShow
  dsimp only
  split
  · exact (high _ _ _ _ _).trans (high _ _ _ _ _)
  · exact high _ _ _ _ _
  · exact high _ _ _ _ _
  · exact high _ _ _ _ _

end

/-! ### What the level's followers and the evidence write -/

theorem State.pltShow_past {P : List Nat} (hP : P.contains 0x0B0 = true) (s : State) :
    Past P (State.pltShow s) = Past P s := by
  unfold State.pltShow
  simp +decide only [Past, State.wr_past hP]

theorem State.chgFollow_past {P : List Nat} (hP : P.contains 0x0E8 = true) (s : State) :
    Past P (State.chgFollow s) = Past P s := by
  unfold State.chgFollow
  simp +decide only [Past, State.setPmu_same, State.setChg_past hP, State.chgBegin_past hP, Nat.reduceAnd,
    apply_ite (State.except 137438953470), apply_ite (regsPast _), ite_self]

theorem State.railsFollow_past {P : List Nat} (hP : P.contains 0x0E9 = true) (s : State) :
    Past P (State.railsFollow s) = Past P s := by
  unfold State.railsFollow
  simp +decide only [Past, State.wr_past hP, apply_ite (State.except 137438953470), apply_ite (regsPast _), ite_self]

theorem State.endNodeDown_past {P : List Nat} (hTEN : CoversTenants P) (s : State) (ref : Nat) (c : Status)
    (hops : Nat) :
    Past P (State.endNodeDown s ref c hops) = Past P s := by
  unfold State.endNodeDown
  repeat' split
  all_goals
    simp +decide only [Past, State.setPlm_same, State.outcome_past hTEN, State.epRecord_same, Nat.reduceAnd]

theorem State.quotaPut_past {P : List Nat} (hTEN : CoversTenants P) (s : State) (r : Nat) (t : Nat) (n : Nat) :
    Past P (State.quotaPut s r t n) = Past P s := by
  unfold State.quotaPut
  simp +decide only [Past, State.setTnc_same, State.quotaShow_past hTEN, Nat.reduceAnd]

theorem State.giveBack_past {P : List Nat} (hTEN : CoversTenants P) (s : State) (r : Nat) (t : Nat) (n : Nat)
    (period : Nat) :
    Past P (State.giveBack s r t n period) = Past P s := by
  unfold State.giveBack
  simp +decide only [Past, State.quotaPut_past hTEN, apply_ite (State.except 137438953470), apply_ite (regsPast _),
    ite_self]

theorem State.settleAir_past {P : List Nat} (hTEN : CoversTenants P) (s : State) (f : TxFrame) (occ : Nat) :
    Past P (State.settleAir s f occ) = Past P s := by
  unfold State.settleAir
  simp +decide only [Past, State.giveBack_past hTEN, State.setTnc_same, Nat.reduceAnd,
    apply_ite (State.except 137438953470), apply_ite (regsPast _), ite_self]

theorem State.endFrame_past {P : List Nat} (hTEN : CoversTenants P) (s : State) (f : TxFrame) (c : Status) :
    Past P (State.endFrame s f c) = Past P s := by
  unfold State.endFrame
  repeat' split
  all_goals
    simp +decide only [Past, State.setPlm_same, State.endNodeDown_past hTEN, State.settleAir_past hTEN,
      State.outcome_past hTEN, State.epRecord_same, Nat.reduceAnd]

theorem State.requestCut_past {P : List Nat} (hTEN : CoversTenants P) (s : State) (a : Attempt) (c : Status) :
    Past P (State.requestCut s a c) = Past P s := by
  unfold State.requestCut
  dsimp only
  repeat' split
  all_goals
    simp +decide only [Past, State.setFrame_same, State.setPlm_same, State.endFrame_past hTEN, Nat.reduceAnd]

theorem State.cutTone_past {P : List Nat} (h0B0 : P.contains 0x0B0 = true) (hTEN : CoversTenants P) (s : State) :
    Past P (State.cutTone s) = Past P s := by
  unfold State.cutTone
  dsimp only
  repeat' split
  all_goals
    simp +decide only [Past, State.setPlt_same, State.count_past h0B0, State.raise_past h0B0,
      State.pltShow_past h0B0, State.setPlm_same, State.requestCut_past hTEN, Nat.reduceAnd]

theorem State.pltAuxDown_past {P : List Nat} (h0B0 : P.contains 0x0B0 = true) (hTEN : CoversTenants P) (s : State) :
    Past P (State.pltAuxDown s) = Past P s := by
  unfold State.pltAuxDown
  simp +decide only [Past, State.log_same, State.wr_past h0B0, State.cutTone_past h0B0 hTEN, State.raise_past h0B0,
    Nat.reduceAnd, apply_ite (State.except 137438953470), apply_ite (regsPast _), ite_self]

theorem State.pltAuxUp_past {P : List Nat} (hP : P.contains 0x0B0 = true) (s : State) :
    Past P (State.pltAuxUp s) = Past P s := by
  unfold State.pltAuxUp
  simp +decide only [Past, State.wr_past hP]

theorem State.setAux_past {P : List Nat} (h0B0 : P.contains 0x0B0 = true) (h0E8 : P.contains 0x0E8 = true)
    (h0E9 : P.contains 0x0E9 = true) (hTEN : CoversTenants P) (s : State) (st : Nat) :
    Past P (State.setAux s st) = Past P s := by
  unfold State.setAux
  simp +decide only [Past, State.setPmu_same, State.wr_past h0E9, State.raise_past h0E8, State.pltAuxUp_past h0B0,
    State.pltAuxDown_past h0B0 hTEN, Nat.reduceAnd, apply_ite (State.except 137438953470), apply_ite (regsPast _),
    ite_self]

theorem State.auxStop_past {P : List Nat} (h0B0 : P.contains 0x0B0 = true) (h0E8 : P.contains 0x0E8 = true)
    (h0E9 : P.contains 0x0E9 = true) (hTEN : CoversTenants P) (s : State) :
    Past P (State.auxStop s) = Past P s := by
  unfold State.auxStop
  simp +decide only [Past, State.wr_past h0E9, State.setAux_past h0B0 h0E8 h0E9 hTEN]

theorem State.auxStart_past {P : List Nat} (h0B0 : P.contains 0x0B0 = true) (h0E8 : P.contains 0x0E8 = true)
    (h0E9 : P.contains 0x0E9 = true) (hTEN : CoversTenants P) (s : State) :
    Past P (State.auxStart s) = Past P s := by
  unfold State.auxStart
  simp +decide only [Past, State.wr_past h0E9, State.setAux_past h0B0 h0E8 h0E9 hTEN]

theorem State.auxFollow_past {P : List Nat} (h0B0 : P.contains 0x0B0 = true) (h0E8 : P.contains 0x0E8 = true)
    (h0E9 : P.contains 0x0E9 = true) (hTEN : CoversTenants P) (s : State) :
    Past P (State.auxFollow s) = Past P s := by
  unfold State.auxFollow
  simp +decide only [Past, State.pltAuxDown_past h0B0 hTEN, State.auxStop_past h0B0 h0E8 h0E9 hTEN,
    State.auxStart_past h0B0 h0E8 h0E9 hTEN, apply_ite (State.except 137438953470), apply_ite (regsPast _), ite_self]

theorem State.tellLevel_past {P : List Nat} (h0F0 : P.contains 0x0F0 = true) (hTEN : CoversTenants P) (s : State)
    (old : Nat) (new : Nat) (cause : Nat) :
    Past P (State.tellLevel s old new cause) = Past P s := by
  unfold State.tellLevel
  simp +decide only [Past, State.log_same, State.ringAll_past hTEN, State.count_past h0F0, State.raise_past h0F0,
    Nat.reduceAnd]

theorem State.swcReturn_past {P : List Nat} (hP : P.contains 0x0C0 = true) (s : State) :
    Past P (State.swcReturn s) = Past P s := by
  unfold State.swcReturn
  simp +decide only [Past, State.enumerate_past hP]

set_option autoImplicit false

/-! ### Training of the LPDDR4X (R304) -/

theorem ccxDdrInit_answers {s : State} {w : RegWrite}
    (hw : s.admitsWrite 0x0A2 0x044 w (setBit w.data.toNat 0) = true) :
    Answers (.ccxDdrInit w) s fun t => t.resp.code = .ok ∧ t.ccx.training = true ∧ t.on CCX_DDR_INIT = true := by
  have begun : ccxWrite s ⟨w.port, w.tc.val, 0x0A2, 0x044, none⟩ (commanded w) =
      (.ok, (s.setCcx fun c => { c with training := true }).wr CCX_DDR_INIT 1) := by
    unfold ccxWrite commanded
    dsimp only
    rw [if_neg (by decide), if_pos rfl, if_neg (by decide), if_pos rfl,
      if_pos ((bit_command (d := w.data) (k := 0) (by decide)).trans (if_pos rfl))]
  exact answers_write (f := (setBit · 0)) rfl (by decide) hw begun
    ⟨rfl, rfl, (on_answer ..).trans (on_wr_b2n rfl (by decide) _ true)⟩

/-- Seven eighths of the density of the LPDDR4X, in MiB. -/
theorem ddrMib_eq (d : Nat) : ddrMib d = 448 * 2 ^ d := by
  rw [ddrMib]
  omega

theorem ddrMib_lt {d : Nat} (h : d ≤ 3) : ddrMib d < 2 ^ 16 := by
  have bound : (2 : Nat) ^ d ≤ 2 ^ 3 := Nat.pow_le_pow_right (by decide) h
  rw [ddrMib_eq]
  omega

theorem ddrInitDone_answers {s : State} (ht : s.ccx.training = true) (hd : s.rd CCX_DDR_DENS ≤ 3) :
    Answers .ddrInitDone s fun t =>
      t.ccx.training = false ∧ t.on CCX_DDR_READY = true ∧ t.rd CCX_DDR_CODE = codeOf .ok ∧
      t.on CCX_DDR_INIT = false ∧ t.rd CCX_DDR_MIB = 448 * 2 ^ s.rd CCX_DDR_DENS ∧
      bit (t.rd (IRQ_RAW 0x0A2)) 0 = true := by
  have command : exec .ddrInitDone s = .next ((((((s.setCcx fun c => { c with training := false }).wr CCX_DDR_INIT 0).wr
      CCX_DDR_CODE (codeOf .ok)).wr CCX_DDR_READY 1).wr CCX_DDR_MIB (ddrMib (s.rd CCX_DDR_DENS))).raise 0x0A2 0) := by
    change execDdrInitDone s = _
    unfold execDdrInitDone
    dsimp only
    rw [if_neg (by rw [ht]; decide), rd_setCcx]
  refine ⟨_, command, rfl, ?_, ?_, ?_, ?_, bit_raise_same _ _ (by decide)⟩
  · rw [on_raise_free (by decide), on_wr_free (by decide)]
    exact on_wr_b2n rfl (by decide) _ true
  · rw [rd_raise_free (by decide), rd_wr_free (by decide), rd_wr_free (by decide), rd_wr_lt rfl (by decide)]
  · rw [on_raise_free (by decide), on_wr_free (by decide), on_wr_free (by decide), on_wr_free (by decide)]
    exact on_wr_b2n rfl (by decide) _ false
  · rw [rd_raise_free (by decide), rd_wr_lt rfl (ddrMib_lt hd), ddrMib_eq]

theorem ddrTrainTimeout_answers {s : State} (ht : s.ccx.training = true) :
    Answers .ddrTrainTimeout s fun t =>
      t.ccx.training = false ∧ t.on CCX_DDR_READY = false ∧ t.rd CCX_DDR_CODE = codeOf .timeout ∧
      bit (t.rd (IRQ_RAW 0x0A2)) 0 = true := by
  have command : exec .ddrTrainTimeout s = .next (((((s.setCcx fun c => { c with training := false }).wr CCX_DDR_INIT
    0).wr
      CCX_DDR_CODE (codeOf .timeout)).wr CCX_DDR_READY 0).raise 0x0A2 0) := by
    change execDdrTrainTimeout s = _
    unfold execDdrTrainTimeout
    rw [if_neg (by rw [ht]; decide)]
  refine ⟨_, command, rfl, ?_, ?_, bit_raise_same _ _ (by decide)⟩
  · rw [on_raise_free (by decide)]
    exact on_wr_b2n rfl (by decide) _ false
  · rw [rd_raise_free (by decide), rd_wr_free (by decide), rd_wr_lt rfl (by decide)]

/-! ### The commands of the flash controller (R305, R306) -/

theorem ccxWrite_qspGo (s : State) (w : RegWrite) :
    ccxWrite s ⟨w.port, w.tc.val, 0x0A3, 0x050, none⟩ (commanded w) = (.ok, s.qspiGo) := by
  unfold ccxWrite commanded
  dsimp only
  rw [if_neg (by decide), if_neg (by decide), if_pos rfl, if_neg (by decide), if_neg (by decide), if_neg (by decide),
    if_pos rfl, if_pos ((bit_command (d := w.data) (k := 0) (by decide)).trans (if_pos rfl))]

/-- The controller with a command taken. -/
def State.qspiTaken (s : State) : State := (s.setCcx fun x => { x with qspi := some s.qspiCmd }).wr CCX_QSP_GO 1

theorem qspiGo_sends {s : State} (hf : s.ccx.qspi = none) (hs : s.qspiStop s.qspiCmd = none) :
    ∃ l, s.qspiGo = s.qspiTaken.send .qspi l := by
  unfold State.qspiGo
  dsimp only
  rw [if_neg (by rw [hf]; decide), hs]
  exact ⟨_, rfl⟩

theorem qspiGo_refuses {s : State} {c : Status} (hf : s.ccx.qspi = none) (hs : s.qspiStop s.qspiCmd = some c) :
    s.qspiGo = s.wr CCX_QSP_CODE (codeOf c) := by
  unfold State.qspiGo
  dsimp only
  rw [if_neg (by rw [hf]; decide), hs]

theorem ccxQspGo_answers {s : State} {w : RegWrite}
    (hw : s.admitsWrite 0x0A3 0x050 w (setBit w.data.toNat 0) = true) (hf : s.ccx.qspi = none) :
    (s.qspiStop s.qspiCmd = none →
      Answers (.ccxQspGo w) s fun t =>
        t.resp.code = .ok ∧ t.ccx.qspi = some s.qspiCmd ∧ t.on CCX_QSP_GO = true ∧
        ∃ o, t.out = s.out ++ [o] ∧ o.chan = .qspi) ∧
    (∀ c, s.qspiStop s.qspiCmd = some c →
      Answers (.ccxQspGo w) s fun t =>
        t.rd CCX_QSP_CODE = codeOf c ∧ t.ccx.qspi = none ∧ t.out = s.out) := by
  refine ⟨fun hs => ?_, fun c hs => ?_⟩
  · obtain ⟨l, sent⟩ := qspiGo_sends hf hs
    refine answers_write (f := (setBit · 0)) rfl (by decide) hw ((ccxWrite_qspGo s w).trans (by rw [sent]))
      ⟨rfl, rfl, ?_, _, rfl, rfl⟩
    rw [on_answer, on_send]
    exact on_wr_b2n rfl (by decide) _ true
  · exact answers_write (f := (setBit · 0)) rfl (by decide) hw ((ccxWrite_qspGo s w).trans
      (congrArg _ (qspiGo_refuses hf hs))) ⟨by rw [rd_answer, rd_wr_lt rfl (codeOf_lt c)], hf, rfl⟩

theorem qspiComplete_answers {s : State} {data : List Byte} {c : QspiCmd} (hc : s.ccx.qspi = some c) :
    Answers (.qspiComplete data) s fun t =>
      t.ccx.qspi = none ∧ t.on CCX_QSP_GO = false ∧ t.rd CCX_QSP_CODE = codeOf .ok ∧ SameBut [.regs, .ccx] s t := by
  let freed := s.setCcx fun x => { x with qspi := none }
  let filled := if c.dir = 1 then freed.qspiFill (padTo c.len data) else freed
  have command : exec (.qspiComplete data) s = .next ((filled.wr CCX_QSP_GO 0).wr CCX_QSP_CODE (codeOf .ok)) := by
    change execQspiComplete data s = _
    unfold execQspiComplete
    rw [hc]
  have kept : filled.ccx = freed.ccx := by
    dsimp only [filled]
    split
    case isTrue => exact part_of_except (State.qspiFill_same 1 rfl _ _) .ccx rfl
    case isFalse => rfl
  refine ⟨_, command, ?_, ?_, rd_wr_lt rfl (by decide) _, sameBut_of_except ?_⟩
  · exact (congrArg CcxState.qspi kept).trans rfl
  · rw [on_wr_free (by decide)]
    exact on_wr_b2n rfl (by decide) _ false
  · dsimp only [filled]
    split
    case isTrue => exact except_mono (q := 2097153) rfl ((State.qspiFill_same 2097153 rfl freed _).trans rfl)
    case isFalse => rfl

/-! ### Page 0x0A8: the watchdog's kick, the reload, the doorbells -/

theorem mgcWkick_answers {s : State} {w : RegWrite}
    (hw : s.admitsWrite 0x0A8 0x058 w (setBit w.data.toNat 0) = true) :
    Answers (.mgcWkick w) s fun t => t.resp.code = .ok ∧ t.ccx.wkick = s.clk ∧ SameBut [.ccx, .resp] s t := by
  have kicked : mgcWriter false s ⟨w.port, w.tc.val, 0x0A8, 0x058, none⟩ (commanded w) =
      (.ok, s.setCcx fun c => { c with wkick := s.clk }) := by
    unfold mgcWriter commanded
    dsimp only
    rw [if_neg (by decide), if_neg (by decide), if_pos rfl,
      if_pos ((bit_command (d := w.data) (k := 0) (by decide)).trans (if_pos rfl))]
  exact answers_write (f := (setBit · 0)) rfl (by decide) hw kicked ⟨rfl, rfl, sameBut_of_except rfl⟩

theorem mgcWriter_doorbells (s : State) (w : RegWrite) (k : Nat) :
    mgcWriter false s ⟨w.port, w.tc.val, 0x0A8, 0x0C0, none⟩ (BitVec.ofNat 32 (setBit w.data.toNat k)).toNat =
      (.ok, let s := if bit (BitVec.ofNat 32 (setBit w.data.toNat k)).toNat 0 then s.wr MGC_DB_TOCCX 1 else s
        if bit (BitVec.ofNat 32 (setBit w.data.toNat k)).toNat 1 then (s.wr MGC_DB_TOMGC 1).raise 0x0A8 0 else s) := rfl

theorem mgcDbToccx_answers {s : State} {w : RegWrite}
    (hw : s.admitsWrite 0x0A8 0x0C0 w (setBit w.data.toNat 0) = true) :
    Answers (.mgcDbToccx w) s fun t => t.resp.code = .ok ∧ t.on MGC_DB_TOCCX = true := by
  refine answers_write (f := (setBit · 0)) rfl (by decide) hw (mgcWriter_doorbells s w 0) ⟨rfl, ?_⟩
  rw [on_answer, if_pos ((bit_command (d := w.data) (k := 0) (by decide)).trans (if_pos rfl))]
  have rung : (s.wr MGC_DB_TOCCX 1).on MGC_DB_TOCCX = true := on_wr_b2n rfl (by decide) _ true
  split
  case isTrue => rw [on_raise_free (by decide), on_wr_free (by decide), rung]
  case isFalse => exact rung

theorem mgcDbTomgc_answers {s : State} {w : RegWrite}
    (hw : s.admitsWrite 0x0A8 0x0C0 w (setBit w.data.toNat 1) = true) :
    Answers (.mgcDbTomgc w) s fun t =>
      t.resp.code = .ok ∧ t.on MGC_DB_TOMGC = true ∧ bit (t.rd (IRQ_RAW 0x0A8)) 0 = true := by
  refine answers_write (f := (setBit · 1)) rfl (by decide) hw (mgcWriter_doorbells s w 1) ⟨rfl, ?_, ?_⟩
  · rw [on_answer, if_pos ((bit_command (d := w.data) (k := 1) (by decide)).trans (if_pos rfl)), on_raise_free
      (by decide)]
    exact on_wr_b2n rfl (by decide) _ true
  · rw [rd_answer, if_pos ((bit_command (d := w.data) (k := 1) (by decide)).trans (if_pos rfl))]
    exact bit_raise_same _ _ (by decide)

/-- The two commands of the boot record stand in the low bits of MGC_BCMD; without them a reload is all there is. -/
theorem bootCommand_reloads {s : State} {q : Req} {d : Nat} {lost : Bool} (h0 : bit d 0 = false) (h1 : bit d 1 = false)
    (h2 : bit d 2 = true) (hi : (s.storeWord q.page q.off d).ccx.image.isSome = true) :
    s.bootCommand q d lost =
      (.ok, (s.storeWord q.page q.off d).setCcx fun c => { c with reload := true }) := by
  unfold State.bootCommand
  simp only [h0, h1, Bool.false_eq_true, if_false, h2, hi, true_and, if_true, firstOf, ite_self]

theorem mgcCcxreload_answers {s : State} {w : RegWrite}
    (hw : s.admitsWrite 0x0A8 0x04C w (setBit w.data.toNat 2) = true) (hb : bits w.data.toNat 0 2 = 0)
    (hi : s.ccx.image ≠ none) :
    Answers (.mgcCcxreload w) s fun t => t.resp.code = .ok ∧ t.ccx.reload = true := by
  have clear : ∀ i < 2, bit (BitVec.ofNat 32 (setBit w.data.toNat 2)).toNat i = false := by
    intro i hi
    rw [bit_command (by omega), if_neg (by omega)]
    have low := bit_bits (d := w.data.toNat) (lo := 0) hi
    rw [hb, Nat.zero_add] at low
    exact low.symm.trans (by rw [bit_eq_testBit, Nat.zero_testBit])
  have kept : (s.storeWord 0x0A8 0x04C (BitVec.ofNat 32 (setBit w.data.toNat 2)).toNat).ccx = s.ccx :=
    part_of_except (State.storeWord_same 41 rfl s _ _ _) .ccx rfl
  refine answers_write (f := (setBit · 2)) (h := mgcWriter false) rfl (by decide) hw
    (bootCommand_reloads (clear 0 (by decide)) (clear 1 (by decide))
      ((bit_command (d := w.data) (k := 2) (by decide)).trans (if_pos rfl)) ?_) ⟨rfl, rfl⟩
  rw [kept]
  exact Option.isSome_iff_ne_none.mpr hi

theorem reloadComplete_answers {s : State} {app : List Byte} {x : BootImage} (hi : s.ccx.image = some x)
    (hr : s.ccx.reload = true) (hd : sha256 (padTo x.alen app) = x.dig) :
    Answers (.reloadComplete app) s fun t =>
      t.ccx.reload = false ∧ t.ccx.sram = memStore s.ccx.sram x.load (padTo x.alen app) ∧
      t.rd MGC_BCODE = codeOf .ok ∧ bit (t.rd (IRQ_RAW 0x0A8)) 2 = true := by
  have command : exec (.reloadComplete app) s = .next ((((s.setCcx fun c => { c with reload := false }).setCcx fun c =>
      { c with sram := memStore c.sram x.load (padTo x.alen app) }).bootDone .ok).2) := by
    change execReloadComplete app s = _
    unfold execReloadComplete
    rw [hi]
    dsimp only
    rw [if_neg (by rw [hr]; decide), if_pos hd]
  refine ⟨_, command, rfl, rfl, ?_, bit_raise_same _ _ (by decide)⟩
  rw [State.bootDone, rd_raise_free (by decide), rd_wr_lt rfl (by decide)]

set_option autoImplicit false

/-! ### The expiry of the management watchdog: a system reset (R314, R539) -/

/-- What a system reset leaves of the lists, of the Sparge list, of the image and of the count of starts, and the first
word of the reset record. -/
def State.restartView (s : State) : List BarmList × List SpEntry × Option BootImage × StartState × Nat :=
  (s.barm.lists, s.tun.sparge, s.ccx.image, s.start, s.rd (MGC_MB_OUT 0))

/-- The pages that a change of the level writes. -/
def levelPages : List Nat :=
  [0x060, 0x061, 0x062, 0x063, 0x064, 0x065, 0x066, 0x067, 0x068, 0x069, 0x06A, 0x06B, 0x06C, 0x06D, 0x06E, 0x06F,
    0x0B0, 0x0C0, 0x0E8, 0x0E9, 0x0F0] ++ tenantPages

theorem levelPages_tenants : CoversTenants levelPages := coversTenants_append _

theorem levelPages_pulses : ∀ k < 16, levelPages.contains (0x060 + k) = true := by decide

theorem restartView_eq {s t : State} (h : t.except 128845611007 = s.except 128845611007)
    (hr : t.rd (MGC_MB_OUT 0) = s.rd (MGC_MB_OUT 0)) : t.restartView = s.restartView := by
  unfold State.restartView
  rw [congrArg BarmState.lists (part_of_except h .barm rfl), congrArg TunState.sparge (part_of_except h .tun rfl),
    congrArg CcxState.image (part_of_except h .ccx rfl), part_of_except h .start rfl, hr]

theorem restartView_of_past {s t : State} (h : t.except 128845611007 = s.except 128845611007)
    (hp : Past levelPages t = Past levelPages s) : t.restartView = s.restartView :=
  restartView_eq h (rd_of_past hp (by decide))

theorem restartView_wr {f : Fld} (hf : f.free (MGC_MB_OUT 0) = true) (s : State) (v : Nat) :
    (s.wr f v).restartView = s.restartView :=
  restartView_eq (State.wr_same _ rfl s f v) (rd_wr_free hf s v)

/-- A tile array, a router and a list engine that hold nothing. -/
def Restarted (s : State) : Prop := s.tun = {} ∧ s.ltr = {} ∧ s.barm = {}

theorem Restarted.keeps_running {s : State} (h : Restarted s) : s.degradeRunning = s := by
  obtain ⟨tun, -, -⟩ := h
  unfold State.degradeRunning State.setTun
  rw [tun]
  exact congrArg (fun t => { s with tun := t }) tun.symm

theorem restartView_invalidate (s : State) (k : Nat) (hk : k < 8) : (s.invalidate k).restartView = s.restartView := by
  have raised : ∀ k < 8, (IRQ_RAW (0x081 + k)).free (MGC_MB_OUT 0) = true := by decide
  have cleared (u : State) : (u.setTun fun x => { x with resClr := x.resClr.erase k }).restartView = u.restartView :=
    rfl
  unfold State.invalidate
  dsimp only
  rw [cleared]
  split
  · exact (restartView_wr (raised k hk) _ _).trans (restartView_wr (by decide) _ _)
  · rfl

theorem restartView_invalidateAll (l : List Nat) (hl : ∀ k ∈ l, k < 8) (s : State) :
    (l.foldl State.invalidate s).restartView = s.restartView := by
  induction l generalizing s with
  | nil => rfl
  | cons k r ih =>
    exact (ih (fun j hj => hl j (List.mem_cons_of_mem _ hj)) _).trans (restartView_invalidate s k
      (hl k List.mem_cons_self))

theorem Restarted.tunEnterD2 {s : State} (h : Restarted s) :
    s.tunEnterD2.restartView = s.restartView ∧ s.tunEnterD2.ltr = {} ∧ s.tunEnterD2.barm = {} := by
  obtain ⟨tun, ltr, barm⟩ := h
  have uncut : s.burstCut .skipped = s := by rw [State.burstCut, tun]
  have cleared : (s.setSparge []).setTun (fun x => { x with staged := [] }) = s := by
    rw [State.setSparge, tun, if_neg (by simp)]
    unfold State.setTun
    rw [tun]
    exact congrArg (fun t => { s with tun := t }) tun.symm
  have idle : s.tunEnterD2 = { (List.range 8).foldl State.invalidate s with
      mem := ((List.range 8).foldl State.invalidate s).mem.filter fun c => (residentOf c.1).isNone } := by
    unfold State.tunEnterD2
    dsimp only
    rw [uncut, cleared, tun]
    rfl
  refine ⟨?_, (part_of_except (State.tunEnterD2_same 34361049089 rfl s) .ltr rfl).trans ltr,
    ?_⟩
  · rw [idle]
    exact restartView_invalidateAll _ (fun k hk => List.mem_range.mp hk) s
  · rw [idle]
    refine Eq.trans ?_ barm
    exact foldl_keeps (g := State.barm) (fun u k => part_of_except (State.invalidate_same 262145 rfl u k) .barm rfl) _ s

theorem Restarted.enterD2 {s : State} (h : Restarted s) : s.enterD2.restartView = s.restartView := by
  obtain ⟨view, ltr, barm⟩ := h.tunEnterD2
  unfold State.enterD2
  generalize s.tunEnterD2 = u at *
  have router : u.ltrEnterD2 = u.setLtr fun x => { x with ops := [] } := by rw [State.ltrEnterD2, ltr]; rfl
  rw [router, ← view]
  generalize hv : u.setLtr (fun x => { x with ops := [] }) = v
  have empty : v.barm = {} := by rw [← hv]; exact barm
  have same : v.restartView = u.restartView := by
    rw [← hv]
    exact restartView_eq (State.setLtr_same _ rfl u _) (rd_setLtr ..)
  have engine : v.barmEnterD2 = v.setBarm fun b => { b with backlog := [], below := some (v.stamp.cyc, none) } := by
    have skipped : v.barmSkip none = v := by rw [State.barmSkip, empty]; rfl
    unfold State.barmEnterD2
    dsimp only
    rw [skipped, empty]
    unfold State.waiting State.setBarm
    rw [empty]
    rfl
  rw [engine, ← same]
  refine congrArg (fun r => (v.barm.lists, v.tun.sparge, v.ccx.image, v.start, r)) (rd_setBarm ..)

theorem restartView_leaveLevel (s : State) (old : Nat) : (s.leaveLevel old 2).restartView = s.restartView := by
  unfold State.leaveLevel
  dsimp only
  rw [if_neg (show ¬ (2 ≤ old ∧ 2 ≤ 1) by omega)]
  split
  · refine (restartView_eq (except_mono (q := 33554432) rfl (State.agesRestart_same _ rfl _)) ?_).trans
      (restartView_of_past (except_mono (q := 536871937) rfl (State.swcReturn_same _ rfl s))
        (State.swcReturn_past (by decide) s))
    exact rd_setPlm ..
  · rfl

/-- The rails, AUXOUT, the charger and the gates follow a level. -/
theorem restartView_follow (s old : State) :
    ((s.railsFollow.auxFollow.chgFollow).gateFrom old).restartView = s.restartView := by
  have aux (u : State) : u.auxFollow.restartView = u.restartView :=
    restartView_of_past (except_mono (q := 36549173505) rfl (State.auxFollow_same _ rfl u))
      (State.auxFollow_past (by decide) (by decide) (by decide) levelPages_tenants u)
  have charger (u : State) : u.chgFollow.restartView = u.restartView :=
    restartView_of_past (except_mono (q := 2147483649) rfl (State.chgFollow_same _ rfl u))
      (State.chgFollow_past (by decide) u)
  have gates (u : State) : (u.gateFrom old).restartView = u.restartView :=
    restartView_of_past (except_mono (q := 65569) rfl (State.gateFrom_same _ rfl u old))
      (State.gateFrom_past levelPages_pulses u old)
  rw [gates, charger, aux]
  exact restartView_of_past (except_mono (q := 1) rfl (State.railsFollow_same _ rfl s))
    (State.railsFollow_past (by decide) s)

theorem Restarted.transition {s : State} (h : Restarted s) (cause : Nat) :
    (s.transition 2 cause).restartView = s.restartView := by
  have entered : (if s.level ≤ 1 ∧ 2 ≤ 2 then s.enterD2 else s).restartView = s.restartView := by
    split
    · exact h.enterD2
    · rfl
  have told (u : State) (old : Nat) : (((u.wr MON_LVL 2).wr MON_CAUSE cause).tellLevel old 2 cause).restartView =
      u.restartView :=
    (restartView_of_past (except_mono (q := 8449) rfl (State.tellLevel_same _ rfl _ _ _ _))
      (State.tellLevel_past (by decide) levelPages_tenants _ _ _ _)).trans
      ((restartView_wr (by decide) _ _).trans (restartView_wr (by decide) _ _))
  have dwelt (u : State) (f : MonState → MonState) : (u.setMon f).restartView = u.restartView :=
    restartView_eq (State.setMon_same _ rfl u f) (rd_setMon ..)
  unfold State.transition
  dsimp only
  rw [h.keeps_running, ite_self, if_neg (show ¬ (s.level ≤ 2 ∧ 3 ≤ 2) by omega), restartView_follow]
  split
  · rw [restartView_leaveLevel, dwelt, told, entered]
  · rw [dwelt, told, entered]

theorem bits_resetRecord {kind wake sys prev : Nat} (hk : kind < 16) (hw : wake < 16) (hs : sys < 16) :
    bits ((kind + wake * 2 ^ 4 + sys * 2 ^ 8 + prev * 2 ^ 12) % 2 ^ 32) 8 4 = sys := by
  simp only [bits]
  omega

theorem systemReset_restarts (s : State) {cause : Nat} (hc : cause < 16) :
    (s.systemReset cause).barm.lists = [] ∧ (s.systemReset cause).tun.sparge = [] ∧
    (s.systemReset cause).ccx.image = none ∧ (s.systemReset cause).ccx.bootDue = true ∧
    (s.systemReset cause).start.count = satNat 32 (s.start.count + 1) ∧
    bits ((s.systemReset cause).rd (MGC_MB_OUT 0)) 8 4 = cause := by
  have ended : s.settleLoss.endSessions.start = s.start :=
    (part_of_except (State.endSessions_same 17179869185 rfl _) .start rfl).trans
      (part_of_except (State.settleLoss_same 58854417697 rfl s) .start rfl)
  have due (u : State) : (u.setCcx fun c => { c with bootDue := true }).restartView = u.restartView :=
    congrArg (fun r => (u.barm.lists, u.tun.sparge, u.ccx.image, u.start, r)) (rd_setCcx ..)
  unfold State.systemReset
  dsimp only
  generalize s.settleLoss.endSessions = e at *
  generalize hr : ((((e.warmBlocks.stopRings.loadOtp).wr TUN_THDIV (e.rd TUN_THDIV)).countStart 3).resetRecord 3 cause
    e.level) = r
  have kept : r.except 8896118785 = e.warmBlocks.except 8896118785 := by
    rw [← hr]
    exact (except_mono (q := 1) rfl (State.resetRecord_same _ rfl _ _ _ _)).trans
      ((except_mono (q := 8589934592) rfl (State.countStart_same _ rfl _ _)).trans
        ((except_mono (q := 1) rfl ((State.wr_same _ rfl _ _ _).trans (State.loadOtp_same 1 rfl _))).trans
          (except_mono (q := 306184192) rfl (State.stopRings_same _ rfl _))))
  have idle : Restarted r :=
    ⟨part_of_except kept .tun rfl, part_of_except kept .ltr rfl, part_of_except kept .barm rfl⟩
  have image : r.ccx.image = none := congrArg CcxState.image (part_of_except kept .ccx rfl)
  have counted : r.start.count = satNat 32 (s.start.count + 1) := by
    have before : ((e.warmBlocks.stopRings.loadOtp).wr TUN_THDIV (e.rd TUN_THDIV)).start = s.start :=
      (part_of_except ((State.wr_same 1 rfl _ _ _).trans (State.loadOtp_same 1 rfl _)) .start rfl).trans
        ((part_of_except (State.stopRings_same 306184192 rfl _) .start rfl).trans ended)
    rw [← hr, part_of_except (State.resetRecord_same 1 rfl _ _ _ _) .start rfl, ← before]
    rfl
  have recorded : bits (r.rd (MGC_MB_OUT 0)) 8 4 = cause := by
    rw [← hr, State.resetRecord, rd_wr_free (by decide), rd_wr_same _ _ _ rfl]
    exact bits_resetRecord (by decide) ((rd_lt _ (f := PMU_WAKE_SRC) rfl).trans (by decide)) hc
  have view : (if 3 ≤ e.level then r.log 0x2021 deviceTc (e.level + e.level * 2 ^ 8 + 5 * 2 ^ 16)
      else r.transition 2 5).restartView = r.restartView := by
    split
    · exact restartView_eq (State.log_same _ rfl r _ _ _) (rd_log ..)
    · exact idle.transition 5
  generalize (if 3 ≤ e.level then r.log 0x2021 deviceTc (e.level + e.level * 2 ^ 8 + 5 * 2 ^ 16) else r.transition 2 5)
    = t at *
  simp only [State.restartView, Prod.mk.injEq] at view
  obtain ⟨lists, sparge, img, start, word⟩ := view
  refine ⟨lists.trans (congrArg BarmState.lists idle.2.2), sparge.trans (congrArg TunState.sparge idle.1), img.trans
    image, rfl,
    (congrArg StartState.count start).trans counted, ?_⟩
  rw [rd_setCcx, word, recorded]

theorem mgcWatchdog_answers {s : State} (he : s.on MGC_WDT_EN = true) (hi : s.ccx.image ≠ none) :
    Answers .mgcWatchdog s fun t =>
      t.ccx.bootDue = true ∧ t.ccx.image = none ∧ t.barm.lists = [] ∧ t.tun.sparge = [] ∧
      bits (t.rd (MGC_MB_OUT 0)) 8 4 = 1 ∧ t.start.count = satNat 32 (s.start.count + 1) := by
  have command : exec .mgcWatchdog s =
      .next ((s.waitUntil (s.ccx.wkick + msTicks (s.rd MGC_WDT_MS))).systemReset 1) := by
    change execMgcWatchdog s = _
    unfold execMgcWatchdog
    rw [if_neg (by simp [he, hi])]
  have waited : (s.waitUntil (s.ccx.wkick + msTicks (s.rd MGC_WDT_MS))).start = s.start :=
    part_of_except (State.waitUntil_same 4289 rfl s _) .start rfl
  obtain ⟨lists, sparge, image, due, count, record⟩ :=
    systemReset_restarts (s.waitUntil (s.ccx.wkick + msTicks (s.rd MGC_WDT_MS))) (cause := 1) (by decide)
  exact ⟨_, command, due, image, lists, sparge, record, count.trans (by rw [waited])⟩

/-- Settles O32, command by command; the watchdog by what a system reset leaves of the stopped blocks. -/
theorem controllersComplete : Obligations.ControllersComplete := by
  unfold Obligations.ControllersComplete
  exact ⟨fun s w hw => ccxDdrInit_answers hw, fun s ht hd => ddrInitDone_answers ht hd, fun s ht =>
    ddrTrainTimeout_answers ht,
    fun s w hw hf => ccxQspGo_answers hw hf, fun s data c hc => qspiComplete_answers hc, fun s w hw => mgcWkick_answers
      hw,
    fun s he hi _ => mgcWatchdog_answers he hi, fun s w hw hb hi => mgcCcxreload_answers hw hb hi,
    fun s app x hi hr hd => reloadComplete_answers hi hr hd, fun s w hw => mgcDbToccx_answers hw,
    fun s w hw => mgcDbTomgc_answers hw⟩

set_option autoImplicit false

/-! ### The status word of the restore sequencer, which the copies do not touch -/

/-- The word of the sequencer's status. -/
theorem busy_of_word {s t : State} (h : t.reg 0x0A8 0x60 = s.reg 0x0A8 0x60) : t.on MGC_R_BUSY = s.on MGC_R_BUSY := by
  rw [State.on, State.on, State.rd, State.rd]
  exact congrArg (fun w => (if MGC_R_BUSY.width ≤ 32 then bits w 8 1 else _) == 1) h

/-- A word of the support pages, outside the Cellar's, that is no configuration. -/
structure QuietWord (page off : Nat) : Prop where
  support : 0x0A8 ≤ page ∧ page < 0x140 ∧ page ≠ 0x0D8
  short : off < 4096
  config : off ≠ 0x08 ∧ off ≠ 0x14 ∧ rwMask page off = 0

section
variable {page off : Nat}

theorem word_wr {f : Fld} (hw : f.width ≤ 32) (hk : f.key ≠ regKey page off) (s : State) (v : Nat) :
    (s.wr f v).reg page off = s.reg page off :=
  reg_wr_otherKey s v hw (fun h => hk h.symm)

theorem word_wr64 {lo hi : Fld} (hl : lo.width ≤ 32) (kl : lo.key ≠ regKey page off) (hh : hi.width ≤ 32)
    (kh : hi.key ≠ regKey page off)
    (s : State) (v : Nat) : (s.wr64 lo hi v).reg page off = s.reg page off :=
  (word_wr hh kh _ _).trans (word_wr hl kl _ _)

theorem word_foldl {α : Type} {g : State → α → State} {l : List α} (h : ∀ u, ∀ x ∈ l, (g u x).reg page off = u.reg
    page off)
    (s : State) : (l.foldl g s).reg page off = s.reg page off := by
  induction l generalizing s with
  | nil => rfl
  | cons x r ih =>
    exact (ih (fun u y hy => h u y (List.mem_cons_of_mem _ hy)) _).trans (h s x List.mem_cons_self)

theorem besideStatus_plain {f : Fld} (quiet : QuietWord page off) (h : f.besideStatus) : f.width ≤ 32 ∧ f.key ≠ regKey
    page off := by
  obtain ⟨-, width, hoff, -, place⟩ := h
  obtain ⟨⟨low, high, -⟩, short, -⟩ := quiet
  exact ⟨by omega, by unfold Fld.key regKey; omega⟩

theorem word_setAccWord (quiet : QuietWord page off) {vm : Bool} {i w : Nat} (hi : i < 64 ∨ vm = true ∧ i < 256)
    (hw : w < 10) (s : State)
    (v : Nat) :
    (s.setAccWord vm i w v).reg page off = s.reg page off := by
  obtain ⟨low, high⟩ := accFlds_beside hi hw
  exact word_wr64 (besideStatus_plain quiet low).1 (besideStatus_plain quiet low).2 (besideStatus_plain quiet high).1
    (besideStatus_plain quiet high).2 s _

/-- A narrow field of the accumulator, meter, pulse or tenant pages. -/
def Fld.ofCopies (f : Fld) : Prop :=
  f.width ≤ 32 ∧ f.off < 4096 ∧ (f.page < 0x0A8 ∨ 0x140 ≤ f.page ∧ f.page < 0x180)

theorem word_copies (quiet : QuietWord page off) {f : Fld} (h : f.ofCopies) (s : State) (v : Nat) : (s.wr f v).reg
    page off = s.reg page off := by
  obtain ⟨width, hoff, place⟩ := h
  obtain ⟨⟨low, high, -⟩, short, -⟩ := quiet
  exact word_wr width (by unfold Fld.key regKey; omega) s v

theorem resFld_copies {c q : Nat} (hc : c < 64) (hq : q < 8) : (resFld c q).ofCopies := by
  unfold resFld
  split <;> simp only [Fld.ofCopies, ACC_RES_A, ACC_RES_B] <;> omega

theorem badFld_copies {vm : Bool} {i : Nat} (hi : i < 64 ∨ vm = true ∧ i < 256) : (badFld vm i).ofCopies := by
  cases vm
  · have channel : i < 64 := hi.resolve_right fun h => Bool.false_ne_true h.1
    simp only [badFld, Bool.false_eq_true, if_false, Fld.ofCopies, ACC_F_BAD]
    omega
  · have meter : i < 256 := by omega
    simp only [badFld, if_true, Fld.ofCopies, ACC_VF_BAD]
    omega

/-! ### Op 0x2 -/

theorem word_putChannel (quiet : QuietWord page off) (l : List Byte) (last : Nat) (s : State) {c : Nat} (hc : c < 64) :
    (s.putChannel l last c).reg page off = s.reg page off := by
  have cyc : (ACC_CYC (c / 8) (c % 8)).ofCopies := by simp only [Fld.ofCopies, ACC_CYC]; omega
  have ufc : (ACC_UFC (c / 8) (c % 8)).ofCopies := by simp only [Fld.ofCopies, ACC_UFC]; omega
  have summary : (if c < 32 then ACC_BAD_LO else ACC_BAD_HI).ofCopies := by
    split <;> simp only [Fld.ofCopies, ACC_BAD_LO, ACC_BAD_HI] <;> omega
  have words (n : Nat) (hn : n ≤ 10) (g : Nat → Nat) (u : State) :
      ((List.range n).foldl (fun s w => s.setAccWord false c w (g w)) u).reg page off = u.reg page off :=
    word_foldl (fun v w hw => word_setAccWord quiet (.inl hc) (by have := List.mem_range.mp hw; omega) v _) u
  have residues (g : Nat → Nat) (u : State) :
      ((List.range 8).foldl (fun s q => s.wr (resFld c q) (g q)) u).reg page off = u.reg page off :=
    word_foldl (fun v q hq => word_copies quiet (resFld_copies hc (List.mem_range.mp hq)) v _) u
  unfold State.putChannel
  dsimp only
  rw [word_copies quiet cyc, word_setAccWord quiet (.inl hc) (by decide), word_copies quiet summary, word_copies quiet
    (badFld_copies (.inl hc)),
    residues, word_copies quiet ufc, word_setAccWord quiet (.inl hc) (by decide), words 8 (by decide)]

theorem word_putMeter (quiet : QuietWord page off) (l : List Byte) (last : Nat) (s : State) {m : Nat} (hm : m < 256) :
    (s.putMeter l last m).reg page off = s.reg page off := by
  have meter : m < 64 ∨ true = true ∧ m < 256 := .inr ⟨rfl, hm⟩
  have field {o lo w : Nat} (ho : o < 4096) (hw : w ≤ 32) (u : State) (v : Nat) :
      (u.wr ⟨0x140 + m / 4, o, lo, w⟩ v).reg page off = u.reg page off :=
    word_copies quiet ⟨hw, ho, .inr ⟨by show 0x140 ≤ 0x140 + m / 4; omega, by show 0x140 + m / 4 < 0x180; omega⟩⟩ u v
  have terms (g : Nat → Nat) (u : State) : ((List.range 16).foldl (fun s i =>
      ((s.wr (ACC_VT_CH (m / 4) (m % 4) i) (bits (g i) 0 6)).wr (ACC_VT_NEG (m / 4) (m % 4) i) (bits (g i) 6 1)).wr
        (ACC_VT_EN (m / 4) (m % 4) i) (bits (g i) 7 1)) u).reg page off = u.reg page off :=
    word_foldl (fun v i hi => by
      have bound := List.mem_range.mp hi
      rw [ACC_VT_CH, ACC_VT_NEG, ACC_VT_EN, field (by omega) (by decide), field (by omega) (by decide),
        field (by omega) (by decide)]) u
  have words (g : Nat → Nat) (u : State) :
      ((List.range 9).foldl (fun s w => s.setAccWord true m w (g w)) u).reg page off = u.reg page off :=
    word_foldl (fun v w hw => word_setAccWord quiet meter (by have := List.mem_range.mp hw; omega) v _) u
  have residues (g : Nat → Nat) (u : State) : ((List.range 3).foldl (fun s k =>
      { s with acc := { s.acc with vres := cellPut 0 (4 * m + k) (g k) s.acc.vres } }) u).reg page off = u.reg
        page off :=
    by
      refine word_foldl (fun v k _ => ?_) u
      rfl
  unfold State.putMeter
  dsimp only
  rw [ACC_VCYC, field (by omega) (by decide), word_setAccWord quiet meter (by decide), ACC_VF_VIEW, field (by omega)
    (by decide),
    ACC_VF_BAD, field (by omega) (by decide), ACC_VTRF_REG, field (by omega) (by decide), ACC_VTRF_SRC,
    field (by omega) (by decide), residues, words, terms]

theorem word_putOutput (quiet : QuietWord page off) (l : List Byte) (s : State) {k : Nat} (hk : k < 16) :
    (s.putOutput l k).reg page off = s.reg page off := by
  have field {o lo w : Nat} (ho : o < 4096) (hw : w ≤ 32) (u : State) (v : Nat) :
      (u.wr ⟨0x60 + k, o, lo, w⟩ v).reg page off = u.reg page off :=
    word_copies quiet ⟨hw, ho, .inl (by show 0x60 + k < 0x0A8; omega)⟩ u v
  unfold State.putOutput
  dsimp only
  split
  · rw [PLS_PCOUNT, field (by decide) (by decide), State.setSpill, PLS_PEND, field (by decide) (by decide), State.wr64,
      PLS_SPILL_HI,
      field (by decide) (by decide), PLS_SPILL_LO, field (by decide) (by decide)]
  · rfl

theorem word_restoreFrom (quiet : QuietWord page off) (s : State) (l : List Byte) : (s.restoreFrom l).reg page off =
    s.reg page off := by
  have view (u : State) : ((List.range 64).foldl (fun s t => if t = 1 then s
      else (s.wr (TNC_CHV_LO t) (leAt l (0x7940 + 8 * t) 4)).wr (TNC_CHV_HI t) (leAt l (0x7944 + 8 * t) 4)) u).reg
        page off =
      u.reg page off := by
    refine word_foldl (fun v t ht => ?_) u
    have bound := List.mem_range.mp ht
    split
    · rfl
    · rw [word_copies quiet (by simp only [Fld.ofCopies, TNC_CHV_HI]; omega),
        word_copies quiet (by simp only [Fld.ofCopies, TNC_CHV_LO]; omega)]
  unfold State.restoreFrom
  dsimp only
  rw [word_copies quiet (by simp only [Fld.ofCopies, ACC_LAST]; omega),
    word_foldl fun v k hk => word_putOutput quiet l v (List.mem_range.mp hk),
    word_foldl fun v m hm => word_putMeter quiet l _ v (List.mem_range.mp hm),
    word_foldl fun v c hc => word_putChannel quiet l _ v (List.mem_range.mp hc), view]

theorem word_allBad (quiet : QuietWord page off) (s : State) : s.allBad.reg page off = s.reg page off := by
  have logged (u : State) (a b c : Nat) : (u.log a b c).reg page off = u.reg page off := rfl
  unfold State.allBad
  dsimp only
  rw [logged, word_copies quiet (by simp only [Fld.ofCopies, ACC_BAD_HI]; omega),
    word_copies quiet (by simp only [Fld.ofCopies, ACC_BAD_LO]; omega),
    word_foldl fun v m hm => word_copies quiet (badFld_copies (.inr ⟨rfl, List.mem_range.mp hm⟩)) v _,
    word_foldl fun v c hc => word_copies quiet (badFld_copies (.inl (List.mem_range.mp hc))) v _]

end

set_option autoImplicit false

/-! ### Groups of the Cellar -/

theorem State.celBad_past {P : List Nat} (hP : P.contains 0x0D8 = true) (s : State) (l : List Nat) :
    Past P (State.celBad s l) = Past P s := by
  unfold State.celBad
  simp +decide only [Past, State.setCel_same, State.wr_past hP, Nat.reduceAnd]

theorem State.celRead_past {P : List Nat} (hP : P.contains 0x0D8 = true) (s : State) (g : Nat) :
    Past P (s.celRead g).2.2 = Past P s := by
  unfold State.celRead
  split
  · rfl
  · exact (State.count_past hP rfl _ _).trans (past_of_except (State.setCel_same _ rfl s _))
  · unfold State.celFound
    dsimp only
    split
    · rfl
    · have found (b : Nat) : Past P ((((s.wr CEL_UEADR g).count CEL_UNCN).raise 0x0D8 0).log 0x5005 b 0x00D8) = Past P
        s :=
        (past_of_except (State.log_same _ rfl _ _ _ _)).trans ((State.raise_past hP _ _).trans
          ((State.count_past hP rfl _ _).trans (State.wr_past hP rfl _ _)))
      split
      · exact (State.celBad_past hP _ _).trans (found _)
      · exact found _

theorem State.celReadRun_past {P : List Nat} (hP : P.contains 0x0D8 = true) (s : State) (g n : Nat) :
    Past P (s.celReadRun g n).2.2 = Past P s := by
  induction n generalizing s g with
  | zero => rfl
  | succ n ih =>
    have one := State.celRead_past hP s g
    unfold State.celReadRun
    split
    · next read => rw [read] at one; exact one
    · next read => rw [read] at one; exact (ih _ _).trans one

theorem State.celWrite_past {P : List Nat} (hP : P.contains 0x0D8 = true) (s : State) (g d : Nat) :
    Past P (s.celWrite g d) = Past P s := by
  have put : Past P (s.celPutRaw g (celWord g d)) = Past P s := past_of_except (State.setCel_same _ rfl s _)
  unfold State.celWrite
  dsimp only
  split
  · exact (State.celBad_past hP _ _).trans put
  · exact put

theorem State.celWriteRun_past {P : List Nat} (hP : P.contains 0x0D8 = true) (s : State) (g : Nat) (l : List Nat) :
    Past P (s.celWriteRun g l) = Past P s := by
  induction l generalizing s g with
  | nil => rfl
  | cons d r ih => exact (ih _ _).trans (State.celWrite_past hP s g d)

theorem celRead_clean {s : State} {g d : Nat} (h : celJudge g (s.celRaw g) = .clean d) :
    s.celRead g = (some d, false, s) := by
  unfold State.celRead
  rw [h]

theorem celRaw_celWrite_same (s : State) (g d : Nat) : (s.celWrite g d).celRaw g = celWord g d := by
  have put : (s.celPutRaw g (celWord g d)).celRaw g = celWord g d := cellAt_put_same _ _ _ _
  unfold State.celWrite
  dsimp only
  split <;> exact put

theorem celRaw_of_cel {s t : State} (h : t.cel = s.cel) (g : Nat) : t.celRaw g = s.celRaw g := by
  unfold State.celRaw
  rw [h]

/-! ### The harts follow the run word -/

theorem State.runHarts_past {P : List Nat} (hP : P.contains 0x0A0 = true)
    (s : State) : Past P s.runHarts = Past P s := by
  have lies : ∀ h < 4, (CCX_C_TC h).lies 0x0A0 = true ∧ (CCX_C_TCV h).lies 0x0A0 = true := by decide
  unfold State.runHarts
  dsimp only
  generalize (if s.ccx.recovery = true ∨ 3 ≤ s.level then 0 else s.rd CCX_RUN) = run
  refine (State.wr_past hP rfl _ _).trans (foldl_mem_past (fun u h hh => ?_) s)
  obtain ⟨tc, tcv⟩ := lies h (List.mem_range.mp hh)
  have set (f : Hart → Hart) : Past P (u.setHart h f) = Past P u := past_of_except (State.setHart_same _ rfl u h f)
  split
  · exact set _
  · split
    · exact (State.wr_past hP tcv _ _).trans ((State.wr_past hP tc _ _).trans (set _))
    · rfl

/-- What of the control complex is not a hart's. -/
theorem ccx_runHarts {α : Type} {g : CcxState → α} (hg : ∀ (c : CcxState) (l : List
    (Nat × Hart)), g { c with harts := l } = g c)
    (s : State) : g s.runHarts.ccx = g s.ccx := by
  unfold State.runHarts
  dsimp only
  generalize (if s.ccx.recovery = true ∨ 3 ≤ s.level then 0 else s.rd CCX_RUN) = run
  refine (congrArg g (part_of_except (State.wr_same 1 rfl _ _ _) .ccx rfl)).trans
    (foldl_keeps (g := fun u => g u.ccx) (fun u h => ?_) _ s)
  split
  · exact hg _ _
  · split
    · exact (congrArg g (part_of_except ((State.wr_same 1 rfl _ _ _).trans (State.wr_same 1 rfl _ _ _)) .ccx
        rfl)).trans (hg _ _)
    · rfl

/-! ### The selection of an image (R310) -/

theorem slotCheck_of_sec {s t : State} (h : t.sec = s.sec) (x : SlotImage) : t.slotCheck x = s.slotCheck x := by
  have words (w n : Nat) : t.otpWords w n = s.otpWords w n := by
    induction n generalizing w with
    | zero => rfl
    | succ n ih => rw [State.otpWords, State.otpWords, ih, State.otpWord, State.otpWord, h]
  have field (j : Nat) : t.otpField j = s.otpField j := by
    have phys (i : Nat) : t.otpPhys i = s.otpPhys i := by
      simp only [State.otpPhys, State.otpWord, h]
    simp only [State.otpField, phys]
  have key : t.keyGood x = s.keyGood x := by simp only [State.keyGood, State.rootDigest, words, field]
  have back : t.rollback = s.rollback := by simp only [State.rollback, show t.otpField = s.otpField from funext field]
  simp only [State.slotCheck, key, back]

theorem verifyLoad_fst (s : State) (slot : Nat) (x : SlotImage) : (s.verifyLoad slot x).1 = (s.slotCheck x == 0) := rfl

theorem verifyLoad_same (s : State) (slot : Nat) (x : SlotImage) :
    (s.verifyLoad slot x).2.except 2097153 = s.except 2097153 := State.verifyLoad_same 2097153 rfl s slot x

theorem verifyLoad_recovery (s : State) (slot : Nat) (x : SlotImage) :
    (s.verifyLoad slot x).2.ccx.recovery = s.ccx.recovery := by
  have noted (f : Fld) (v : Nat) : (s.wr f v).ccx.recovery = s.ccx.recovery :=
    congrArg CcxState.recovery (part_of_except (State.wr_same 1 rfl s f v) .ccx rfl)
  unfold State.verifyLoad
  dsimp only
  split
  · split <;> exact noted _ _
  · split <;> exact noted _ _

theorem imageAt_length (x : SlotImage) (o n : Nat) : (imageAt x o n).length = n := by
  simp only [imageAt, padTo, List.length_take, List.length_append, List.length_replicate]
  omega

theorem imageField_lt (x : SlotImage) (o n : Nat) : imageField x o n < 256 ^ n := by
  have bound := leNat_lt (imageAt x o n)
  rwa [imageAt_length] at bound

theorem startImage_starts (s : State) {slot : Nat} (hs : slot < 2) (x : SlotImage) :
    let t := s.startImage slot 0 x
    t.rd MGC_B_SLOT = slot ∧ t.rd MGC_B_REASON = 0 ∧ t.ccx.recovery = false ∧ t.ccx.bootDue = false ∧
    t.ccx.image ≠ none ∧ t.rd MGC_BVER = imageField x 8 4 ∧
    t.on (if slot = 0 then CCX_QSP_WPA else CCX_QSP_WPB) = true := by
  have apart {f : Fld} (hf : f.outside [0x0A0] = true) (u : State) : u.runHarts.rd f = u.rd f :=
    rd_of_past (State.runHarts_past rfl u) hf
  have apartOn {f : Fld} (hf : f.outside [0x0A0] = true) (u : State) : u.runHarts.on f = u.on f :=
    on_of_past (State.runHarts_past rfl u) hf
  unfold State.startImage
  dsimp only
  refine ⟨?_, ?_, ?_, ?_, ?_, ?_, ?_⟩
  · rw [apart (by decide), rd_setCcx, rd_wr_free (by decide), rd_wr_free (by decide), rd_wr_free (by decide),
      rd_wr_free (by decide), rd_wr_free (by decide), rd_wr_lt rfl hs]
  · rw [apart (by decide), rd_setCcx, rd_wr_free (by decide), rd_wr_free (by decide), rd_wr_free (by decide),
      rd_wr_free (by decide), rd_wr_lt rfl (by decide)]
  · exact ccx_runHarts (g := CcxState.recovery) (fun _ _ => rfl) _
  · exact ccx_runHarts (g := CcxState.bootDue) (fun _ _ => rfl) _
  · rw [ccx_runHarts (g := CcxState.image) (fun _ _ => rfl) _]
    exact Option.some_ne_none _
  · rw [apart (by decide), rd_setCcx, rd_wr_free (by decide), rd_wr_free (by decide), rd_wr_lt rfl
      (imageField_lt x 8 4)]
  · match slot, hs with
    | 0, _ =>
      rw [if_pos rfl, apartOn (by decide), on_setCcx, on_wr_free (by decide)]
      exact on_wr_b2n rfl (by decide) _ true
    | 1, _ =>
      rw [if_neg (by decide), apartOn (by decide), on_setCcx]
      exact on_wr_b2n rfl (by decide) _ true

theorem enterRecovery_recovering (s : State) : s.enterRecovery.ccx.recovery = true ∧ s.enterRecovery.ccx.image = none :=
  ⟨ccx_runHarts (g := CcxState.recovery) (fun _ _ => rfl) _, ccx_runHarts (g := CcxState.image) (fun _ _ => rfl) _⟩

theorem enterRecovery_events (s : State) : s.enterRecovery.events = s.events ++ if s.ccx.recovery then [] else
    [⟨0x500A, deviceTc, leBytes 8 (s.rd MGC_B_FAILA + s.rd MGC_B_FAILB * 2 ^ 8)⟩] := by
  have told (u : State) : ((((u.wr CCX_QSP_WPA 0).wr CCX_QSP_WPB 0).wr (OWN_TC 0x0A3) 0).setCcx fun c =>
      { c with recovery := true, bootDue := false, image := none }).runHarts.events = u.events :=
    part_of_except (((State.runHarts_same 2097153 rfl _).trans (State.setCcx_same _ rfl _ _)).trans
      ((State.wr_same _ rfl _ _ _).trans ((State.wr_same _ rfl _ _ _).trans (State.wr_same _ rfl _ _ _)))) .events rfl
  unfold State.enterRecovery
  dsimp only
  rw [told]
  split
  · exact (List.append_nil _).symm
  · rfl

/-- A clean boot record that holds no trial: the preferred slot is tried first, then the other. -/
theorem selectImage_plain {s : State} {d : Nat} (hc : celJudge bootGroup (s.celRaw bootGroup) = .clean d)
    (ht : brTrial d = false) (img : Nat → SlotImage) :
    s.selectImage img none =
      let u := ((s.wr MGC_BREC (d % 256)).wr MGC_B_FAILA 0).wr MGC_B_FAILB 0
      let v := u.verifyLoad (brPref d) (img (brPref d))
      if v.1 then v.2.startImage (brPref d) 0 (img (brPref d))
      else
        let v' := v.2.verifyLoad (1 - brPref d) (img (1 - brPref d))
        if v'.1 then v'.2.startImage (1 - brPref d) 1 (img (1 - brPref d)) else v'.2.enterRecovery := by
  have read : s.readBoot = (d, s) := by
    unfold State.readBoot State.celReadRun
    rw [celRead_clean hc]
    rfl
  unfold State.selectImage
  dsimp only
  rw [read]
  simp only [ht, Bool.false_and, Bool.false_eq_true, if_false, Bool.not_true]
  unfold State.selectOther
  simp only [ht, Bool.false_eq_true, if_false, Bool.not_true, if_true]

set_option autoImplicit false

theorem brPref_lt (d : Nat) : brPref d < 2 := Nat.mod_lt _ (by decide)

/-- A clean boot record that holds no trial, and a preferred slot that verifies. -/
theorem selectImage_starts {s : State} {d : Nat} (hc : celJudge bootGroup (s.celRaw bootGroup) = .clean d)
    (ht : brTrial d = false) {img : Nat → SlotImage} (hv : s.slotCheck (img (brPref d)) = 0) :
    ∃ v, s.selectImage img none = State.startImage v (brPref d) 0 (img (brPref d)) := by
  have sec : (((s.wr MGC_BREC (d % 256)).wr MGC_B_FAILA 0).wr MGC_B_FAILB 0).sec = s.sec :=
    part_of_except ((State.wr_same 1 rfl _ _ _).trans ((State.wr_same 1 rfl _ _ _).trans (State.wr_same 1 rfl _ _ _)))
      .sec rfl
  rw [selectImage_plain hc ht]
  dsimp only
  rw [if_pos (by rw [verifyLoad_fst, slotCheck_of_sec sec, hv]; rfl)]
  exact ⟨_, rfl⟩

/-- A clean boot record that holds no trial, and no slot that verifies. -/
theorem selectImage_recovers {s : State} {d : Nat} (hc : celJudge bootGroup (s.celRaw bootGroup) = .clean d)
    (ht : brTrial d = false) {img : Nat → SlotImage} (h0 : s.slotCheck (img 0) ≠ 0) (h1 : s.slotCheck (img 1) ≠ 0) :
    ∃ v : State, s.selectImage img none = v.enterRecovery ∧ v.ccx.recovery = s.ccx.recovery ∧ v.events = s.events := by
  have fails : ∀ k < 2, s.slotCheck (img k) ≠ 0 := fun k hk => by
    match k, hk with
    | 0, _ => exact h0
    | 1, _ => exact h1
  rw [selectImage_plain hc ht]
  dsimp only
  generalize hu : ((s.wr MGC_BREC (d % 256)).wr MGC_B_FAILA 0).wr MGC_B_FAILB 0 = u
  have plain : u.except 1 = s.except 1 := by
    rw [← hu]
    exact (State.wr_same 1 rfl _ _ _).trans ((State.wr_same 1 rfl _ _ _).trans (State.wr_same 1 rfl _ _ _))
  have first := verifyLoad_same u (brPref d) (img (brPref d))
  have second := verifyLoad_same (u.verifyLoad (brPref d) (img (brPref d))).2 (1 - brPref d) (img (1 - brPref d))
  have sec := part_of_except plain .sec rfl
  have one : ¬ (u.verifyLoad (brPref d) (img (brPref d))).1 = true := by
    rw [verifyLoad_fst, slotCheck_of_sec sec]
    simpa using fails _ (brPref_lt d)
  have other : ¬ ((u.verifyLoad (brPref d) (img (brPref d))).2.verifyLoad (1 - brPref d) (img (1 - brPref d))).1 =
    true := by
    rw [verifyLoad_fst, slotCheck_of_sec ((part_of_except first .sec rfl).trans sec)]
    simpa using fails _ (by omega)
  rw [if_neg one, if_neg other]
  refine ⟨_, rfl, ?_, ?_⟩
  · rw [verifyLoad_recovery, verifyLoad_recovery, part_of_except plain .ccx rfl]
  · exact (part_of_except second .events rfl).trans ((part_of_except first .events rfl).trans
      (part_of_except plain .events rfl))

theorem bootSelect_eq {s : State} (h : s.ccx.bootDue = true) (a b : SlotImage) :
    exec (.bootSelect a b none) s = .next (s.selectImage (slotOf a b) none) := by
  change execBootSelect a b none s = _
  unfold execBootSelect
  rw [if_pos h]
  rfl

theorem recoveryRetry_eq {s : State} (h : s.ccx.recovery = true) (a b : SlotImage) :
    exec (.recoveryRetry a b none) s = .next (s.selectImage (slotOf a b) none) := by
  change execRecoveryRetry a b none s = _
  unfold execRecoveryRetry
  rw [if_pos h]
  rfl

theorem bootSelect_answers {s : State} {a b : SlotImage} {d : Nat}
    (hc : celJudge bootGroup (s.celRaw bootGroup) = .clean d) (ht : brTrial d = false) :
    (s.slotCheck (slotOf a b (brPref d)) = 0 →
      (s.ccx.bootDue = true → Answers (.bootSelect a b none) s fun t =>
        t.rd MGC_B_SLOT = brPref d ∧ t.rd MGC_B_REASON = 0 ∧ t.ccx.recovery = false ∧ t.ccx.bootDue = false ∧
        t.ccx.image ≠ none ∧ t.rd MGC_BVER = imageField (slotOf a b (brPref d)) 8 4 ∧
        t.on (if brPref d = 0 then CCX_QSP_WPA else CCX_QSP_WPB) = true) ∧
      (s.ccx.recovery = true → Answers (.recoveryRetry a b none) s fun t =>
        t.rd MGC_B_SLOT = brPref d ∧ t.ccx.recovery = false ∧ t.ccx.image ≠ none)) ∧
    (s.slotCheck a ≠ 0 → s.slotCheck b ≠ 0 →
      (s.ccx.bootDue = true → Answers (.bootSelect a b none) s fun t =>
        t.ccx.recovery = true ∧ t.ccx.image = none ∧
        (s.ccx.recovery = false → ∃ e ∈ t.events, e.code = 0x500A)) ∧
      (s.ccx.recovery = true → Answers (.recoveryRetry a b none) s fun t =>
        t.ccx.recovery = true ∧ t.events = s.events)) := by
  refine ⟨fun hv => ?_, fun ha hb => ?_⟩
  · obtain ⟨v, started⟩ := selectImage_starts hc ht hv
    obtain ⟨slot, reason, recovery, due, image, version, protect⟩ :=
      startImage_starts v (brPref_lt d) (slotOf a b (brPref d))
    rw [← started] at slot reason recovery due image version protect
    exact ⟨fun h => ⟨_, bootSelect_eq h a b, slot, reason, recovery, due, image, version, protect⟩,
      fun h => ⟨_, recoveryRetry_eq h a b, slot, recovery, image⟩⟩
  · obtain ⟨v, entered, same, told⟩ := selectImage_recovers (img := slotOf a b) hc ht ha hb
    obtain ⟨recovery, image⟩ := enterRecovery_recovering v
    have events := enterRecovery_events v
    rw [← entered] at recovery image events
    rw [same, told] at events
    refine ⟨fun h => ⟨_, bootSelect_eq h a b, recovery, image, fun hr => ?_⟩,
      fun h => ⟨_, recoveryRetry_eq h a b, recovery, ?_⟩⟩
    · rw [events, if_neg (by rw [hr]; decide)]
      exact ⟨_, List.mem_append_right _ List.mem_cons_self, rfl⟩
    · rw [events, if_pos h, List.append_nil]

/-! ### The boot commands (R311) -/

/-- The record is written: nothing else of the state but its sequence changes. -/
theorem writeBoot_writes {s : State} (h : s.celBlocked = false) (w : Nat) :
    s.writeBoot w false = (true, (s.celWrite bootGroup w).wr MGC_BREC (w % 256)) := by
  unfold State.writeBoot
  rw [if_neg (by rw [h]; decide), if_neg (by decide)]

theorem readBoot_clean {s : State} {d : Nat} (h : celJudge bootGroup (s.celRaw bootGroup) = .clean d) :
    s.readBoot = (d, s) := by
  unfold State.readBoot State.celReadRun
  rw [celRead_clean h]
  rfl

/-- The state in which a boot command has ended with its record written and its entry logged. -/
def State.bootLogged (s : State) (w code data : Nat) : State :=
  (((s.celWrite bootGroup w).wr MGC_BREC (w % 256)).log code deviceTc data)

theorem bootDone_logged (s : State) (w code data : Nat) (f : CcxState → CcxState) :
    let t := ((((s.bootLogged w code data).setCcx f).bootDone .ok).2)
    t.rd MGC_BCODE = codeOf .ok ∧ t.celRaw bootGroup = celWord bootGroup w ∧ t.ccx = f s.ccx ∧
    (⟨code, deviceTc, leBytes 8 data⟩ : LogEvent) ∈ t.events := by
  have kept (u : State) : ((u.wr MGC_BCODE (codeOf .ok)).raise 0x0A8 2).except 1 = u.except 1 :=
    (State.raise_same 1 rfl _ _ _).trans (State.wr_same 1 rfl _ _ _)
  have cel : (s.bootLogged w code data).cel = (s.celWrite bootGroup w).cel :=
    part_of_except ((State.log_same 257 rfl _ _ _ _).trans (State.wr_same 257 rfl _ _ _)) .cel rfl
  have ccx : (s.bootLogged w code data).ccx = s.ccx :=
    part_of_except ((State.log_same 4194561 rfl _ _ _ _).trans ((State.wr_same 4194561 rfl _ _ _).trans
      (State.celWrite_same 4194561 rfl s _ _))) .ccx rfl
  refine ⟨?_, ?_, ?_, ?_⟩
  · exact (rd_raise_free (by decide) _ _).trans (rd_wr_lt rfl (by decide) _)
  · refine (celRaw_of_cel (part_of_except (kept _) .cel rfl) _).trans ?_
    rw [celRaw_of_cel (s := s.celWrite bootGroup w) (t := (s.bootLogged w code data).setCcx f) cel,
      celRaw_celWrite_same]
  · exact (part_of_except (kept _) .ccx rfl).trans (congrArg f ccx)
  · rw [show (((s.bootLogged w code data).setCcx f).bootDone .ok).2.events = _ from part_of_except (kept _) .events rfl]
    exact List.mem_append_right _ List.mem_cons_self

set_option autoImplicit false

/-- The word of the boot commands, as stored. -/
def State.bootStored (s : State) (d : Nat) : State := s.storeWord 0x0A8 0x04C d

theorem bootStored_keeps (s : State) (d : Nat) :
    (∀ g, (s.bootStored d).celRaw g = s.celRaw g) ∧ (s.bootStored d).celBlocked = s.celBlocked ∧
    (s.bootStored d).rd MGC_B_SLOT = s.rd MGC_B_SLOT ∧ (s.bootStored d).rd MGC_BVER = s.rd MGC_BVER ∧
    (s.bootStored d).rd MGC_TSLOT = bits d 8 1 := by
  have plain : wideOf 0x0A8 0x04C = none := rfl
  have apart {f : Fld} (hf : f.width ≤ 32) (hk : f.key ≠ regKey 0x0A8 0x04C) : (s.bootStored d).rd f = s.rd f :=
    rd_storeWord_other plain hf hk s d
  refine ⟨fun g => celRaw_of_cel (part_of_except (State.storeWord_same 41 rfl s _ _ _) .cel rfl) g, ?_, ?_, ?_, ?_⟩
  · rw [State.celBlocked, State.celBlocked, State.on, State.on, apart (by decide) (by decide)]
  · exact apart (by decide) (by decide)
  · exact apart (by decide) (by decide)
  · exact rd_storeWord_set plain (by decide) (by decide) (by decide) s d

theorem bootDone_pair (s : State) (c : Status) : s.bootDone c = (c, (s.bootDone c).2) := rfl

theorem events_answer (s : State) (c : Status) : (s.answer c).events = s.events := rfl

theorem ccx_answer (s : State) (c : Status) : (s.answer c).ccx = s.ccx := rfl

theorem celRaw_answer (s : State) (c : Status) (g : Nat) : (s.answer c).celRaw g = s.celRaw g := rfl

/-- A write of the boot commands that ends with the state `u`. -/
theorem answers_bootCommand {c : Instr} {s u : State} {w : RegWrite} {k : Nat} {P : State → Prop}
    (hc : exec c s = .next (s.writeReg (mgcWriter false) 0x0A8 0x04C w (setBit · k)))
    (hw : s.admitsWrite 0x0A8 0x04C w (setBit w.data.toNat k) = true)
    (hu : s.bootCommand ⟨w.port, w.tc.val, 0x0A8, 0x04C, none⟩ (BitVec.ofNat 32 (setBit w.data.toNat k)).toNat false =
      (.ok, u))
    (hp : P (u.answer .ok)) : Answers c s P :=
  answers_write (h := mgcWriter false) hc (by decide) hw hu hp

theorem setCcx_self (s : State) : (s.setCcx fun c => c) = s := rfl

theorem bootTrial_writes {s : State} {d : Nat} (hs : s.rd MGC_TSLOT ≠ s.rd MGC_B_SLOT)
    (hc : celJudge bootGroup (s.celRaw bootGroup) = .clean d) (hb : s.celBlocked = false) :
    s.bootTrial false = (((s.bootLogged (brWith d (s.rd MGC_TSLOT) true 3 (brGood d)) 0x4031 (s.rd MGC_TSLOT)).setCcx
      fun c => c).bootDone .ok) := by
  unfold State.bootTrial
  dsimp only
  rw [if_neg hs, readBoot_clean hc, writeBoot_writes hb]
  generalize brWith d (s.rd MGC_TSLOT) true 3 (brGood d) = w
  rw [if_pos rfl, setCcx_self]
  generalize s.rd MGC_TSLOT = slot
  rfl

theorem bootConfirm_writes {s : State} {d : Nat} (hc : celJudge bootGroup (s.celRaw bootGroup) = .clean d)
    (hb : s.celBlocked = false) :
    s.bootConfirm false = (((s.bootLogged (putBits (brWith d (s.rd MGC_B_SLOT) false 0 (s.rd MGC_B_SLOT)) 32 32
      (s.rd MGC_BVER)) 0x4033 (s.rd MGC_B_SLOT + s.rd MGC_BVER * 2 ^ 32)).setCcx fun c =>
        { c with bootOk := true }).bootDone
        .ok) := by
  unfold State.bootConfirm
  dsimp only
  rw [readBoot_clean hc, writeBoot_writes hb]
  generalize putBits _ 32 32 _ = w
  rw [if_pos rfl]
  generalize s.rd MGC_B_SLOT + s.rd MGC_BVER * 2 ^ 32 = data
  rfl

theorem bootCommand_trial {s : State} {q : Req} {d : Nat} (h0 : bit d 0 = false) (h1 : bit d 1 = true)
    (h2 : bit d 2 = false)
    (u : State) (hu : (s.storeWord q.page q.off d).bootTrial false = (.ok, u)) : s.bootCommand q d false =
      (.ok, u) := by
  unfold State.bootCommand
  simp only [h0, h1, h2, Bool.false_eq_true, if_false, if_true, hu, firstOf, ite_self, false_and]

theorem bootCommand_confirm {s : State} {q : Req} {d : Nat} (h0 : bit d 0 = true) (h1 : bit d 1 = false)
    (h2 : bit d 2 = false)
    (u : State) (hu : (s.storeWord q.page q.off d).bootConfirm false = (.ok, u)) : s.bootCommand q d false =
      (.ok, u) := by
  unfold State.bootCommand
  simp only [h0, h1, h2, Bool.false_eq_true, if_false, if_true, hu, firstOf, ite_self, false_and]

theorem bits_command {d : Word} {k lo w : Nat} (h : k < lo ∨ lo + w ≤ k) (hw : lo + w ≤ 32) :
    bits (BitVec.ofNat 32 (setBit d.toNat k)).toNat lo w = bits d.toNat lo w := by
  rw [BitVec.toNat_ofNat, bits_mod_word _ _ _ hw, bits_setBit h]

theorem mgcTrial_answers {s : State} {w : RegWrite} {d : Nat} (hw : s.admitsWrite 0x0A8 0x04C w
    (setBit w.data.toNat 1) = true)
    (h0 : bit w.data.toNat 0 = false) (h2 : bit w.data.toNat 2 = false)
    (hs : bits w.data.toNat 8 1 ≠ s.rd MGC_B_SLOT) (hc : celJudge bootGroup (s.celRaw bootGroup) = .clean d)
    (hb : s.celBlocked = false) :
    Answers (.mgcTrial w false) s fun t =>
      t.resp.code = .ok ∧ t.rd MGC_BCODE = codeOf .ok ∧
      t.celRaw bootGroup = celWord bootGroup (brWith d (bits w.data.toNat 8 1) true 3 (brGood d)) ∧
      (⟨0x4031, deviceTc, leBytes 8 (bits w.data.toNat 8 1)⟩ : LogEvent) ∈ t.events := by
  generalize hv : (BitVec.ofNat 32 (setBit w.data.toNat 1)).toNat = v
  have bit0 : bit v 0 = false := by rw [← hv, bit_command (by decide), if_neg (by decide), h0]
  have bit1 : bit v 1 = true := by rw [← hv, bit_command (by decide), if_pos rfl]
  have bit2 : bit v 2 = false := by rw [← hv, bit_command (by decide), if_neg (by decide), h2]
  have slot : bits v 8 1 = bits w.data.toNat 8 1 := by rw [← hv, bits_command (.inl (by decide)) (by decide)]
  obtain ⟨raw, blocked, running, -, trial⟩ := bootStored_keeps s v
  rw [slot] at trial
  have written := bootTrial_writes (s := s.bootStored v) (d := d) (by rw [trial, running]; exact hs) (by rw [raw, hc])
    (by rw [blocked, hb])
  rw [trial] at written
  obtain ⟨code, record, -, event⟩ := bootDone_logged (s.bootStored v) (brWith d (bits w.data.toNat 8 1) true 3
    (brGood d)) 0x4031
    (bits w.data.toNat 8 1) fun c => c
  rw [bootDone_pair] at written
  generalize (State.bootDone _ .ok).2 = u at written code record event
  refine answers_bootCommand rfl hw (by rw [hv]; exact bootCommand_trial bit0 bit1 bit2 u written) ⟨rfl, ?_, ?_, ?_⟩
  · rw [rd_answer, code]
  · rw [celRaw_answer, record]
  · rw [events_answer]
    exact event

theorem mgcBootok_answers {s : State} {w : RegWrite} {d : Nat}
    (hw : s.admitsWrite 0x0A8 0x04C w (setBit w.data.toNat 0) = true) (hn : bits w.data.toNat 1 2 = 0)
    (hc : celJudge bootGroup (s.celRaw bootGroup) = .clean d) (hb : s.celBlocked = false) :
    Answers (.mgcBootok w false) s fun t =>
      t.resp.code = .ok ∧ t.rd MGC_BCODE = codeOf .ok ∧ t.ccx.bootOk = true ∧
      t.celRaw bootGroup = celWord bootGroup
        (putBits (brWith d (s.rd MGC_B_SLOT) false 0 (s.rd MGC_B_SLOT)) 32 32 (s.rd MGC_BVER)) ∧
      (⟨0x4033, deviceTc, leBytes 8 (s.rd MGC_B_SLOT + s.rd MGC_BVER * 2 ^ 32)⟩ : LogEvent) ∈ t.events := by
  generalize hv : (BitVec.ofNat 32 (setBit w.data.toNat 0)).toNat = v
  have clear : ∀ i < 2, bit w.data.toNat (1 + i) = false := fun i hi => by
    rw [← bit_bits (d := w.data.toNat) (lo := 1) hi, hn, bit_eq_testBit, Nat.zero_testBit]
  have bit0 : bit v 0 = true := by rw [← hv, bit_command (by decide), if_pos rfl]
  have bit1 : bit v 1 = false := by rw [← hv, bit_command (by decide), if_neg (by decide), clear 0 (by decide)]
  have bit2 : bit v 2 = false := by rw [← hv, bit_command (by decide), if_neg (by decide), clear 1 (by decide)]
  obtain ⟨raw, blocked, running, version, -⟩ := bootStored_keeps s v
  have written := bootConfirm_writes (s := s.bootStored v) (d := d) (by rw [raw, hc]) (by rw [blocked, hb])
  rw [running, version] at written
  obtain ⟨code, record, ccx, event⟩ := bootDone_logged (s.bootStored v) (putBits (brWith d (s.rd MGC_B_SLOT) false 0
    (s.rd MGC_B_SLOT)) 32 32 (s.rd MGC_BVER)) 0x4033 (s.rd MGC_B_SLOT + s.rd MGC_BVER * 2 ^ 32) fun c =>
      { c with bootOk := true }
  rw [bootDone_pair] at written
  generalize (State.bootDone _ .ok).2 = u at written code record ccx event
  refine answers_bootCommand rfl hw (by rw [hv]; exact bootCommand_confirm bit0 bit1 bit2 u written)
    ⟨rfl, ?_, ?_, ?_, ?_⟩
  · rw [rd_answer, code]
  · rw [ccx_answer, ccx]
  · rw [celRaw_answer, record]
  · rw [events_answer]
    exact event

/-! ### The restore sequencer (R317, R547) -/

theorem mgcWriter_seqSubmit (s : State) (w : RegWrite) (op : Nat) (ho : op < 16) :
    mgcWriter false s ⟨w.port, w.tc.val, 0x0A8, 0x05C, none⟩ (BitVec.ofNat 32 (putBits w.data.toNat 0 4 op)).toNat =
      s.seqSubmit op (bits w.data.toNat 16 10) := by
  have code : bits (BitVec.ofNat 32 (putBits w.data.toNat 0 4 op)).toNat 0 4 = op := by
    rw [BitVec.toNat_ofNat, bits_mod_word _ _ _ (by decide), bits_putBits_same, Nat.mod_eq_of_lt
      (show op < 2 ^ 4 from ho)]
  have page : bits (BitVec.ofNat 32 (putBits w.data.toNat 0 4 op)).toNat 16 10 = bits w.data.toNat 16 10 := by
    rw [BitVec.toNat_ofNat, bits_mod_word _ _ _ (by decide), bits_putBits_other _ _ _ _ _ _ (.inr (by decide))]
  unfold mgcWriter
  dsimp only
  rw [if_neg (by decide), if_neg (by decide), if_neg (by decide), if_pos rfl, code, page]

set_option autoImplicit false

/-- The sequencer takes a command. -/
theorem seqSubmit_starts {s : State} (hb : s.on MGC_R_BUSY = false) (hs : s.ccx.seq = none) {op page : Nat}
    (ho : 1 ≤ op ∧ op ≤ 3) (h1 : op = 1 → s.on (STS_SEALED page) = true)
    (h2 : op = 2 → s.acc.restored = false ∧ s.acc.closed = false) :
    ∃ u : State, s.seqSubmit op page = (.ok, (u.setCcx fun x => { x with seq := some (op, page) }).wr MGC_R_BUSY
      1) := by
  have inRange : ¬ (op = 0 ∨ 3 < op) := by omega
  have closed : ¬ (op = 1 ∧ s.on (STS_SEALED page) = false) := fun h => by simp [h1 h.1] at h
  have fresh : ¬ (op = 2 ∧ (s.acc.restored || s.acc.closed) = true) := fun h => by simp [h2 h.1] at h
  unfold State.seqSubmit
  simp only [hb, hs, Option.isSome_none, Bool.or_false, Bool.false_eq_true, if_false, if_neg inRange, if_neg closed,
    if_neg fresh, ne_eq, not_true_eq_false]
  exact ⟨_, rfl⟩

theorem seqSubmit_unsealed {s : State} (hb : s.on MGC_R_BUSY = false) (hs : s.ccx.seq = none) {page : Nat}
    (h : s.on (STS_SEALED page) = false) : s.seqSubmit 1 page = (.prot, s.seqEnd .prot 0) := by
  unfold State.seqSubmit
  simp only [hb, hs, h, Option.isSome_none, Bool.or_false, Bool.false_eq_true, if_false, and_self, if_true]
  rfl

theorem seqEnd_ends (s : State) (c : Status) (last : Nat) :
    (s.seqEnd c last).ccx.seq = none ∧ (s.seqEnd c last).on MGC_R_BUSY = false ∧
    (s.seqEnd c last).rd MGC_R_CODE = codeOf c := by
  unfold State.seqEnd
  refine ⟨rfl, ?_, ?_⟩
  · rw [on_raise_free (by decide), on_wr_free (by decide)]
    exact on_wr_b2n rfl (by decide) _ false
  · rw [rd_raise_free (by decide), rd_wr_free (by decide), rd_wr_free (by decide), rd_wr_lt rfl (codeOf_lt c)]

theorem seqFinish_ends {s : State} (hb : s.on MGC_R_BUSY = true) (c : Status) (last : Nat) :
    (s.seqFinish c last).ccx.seq = none ∧ (s.seqFinish c last).on MGC_R_BUSY = false ∧
    (s.seqFinish c last).rd MGC_R_CODE = codeOf c := by
  rw [State.seqFinish, if_pos hb]
  exact seqEnd_ends s c last

/-- What a command of the sequencer that starts leaves. -/
theorem seqStarted_answers {c : Instr} {s : State} {w : RegWrite} {op : Nat} (ho : 1 ≤ op ∧ op ≤ 3)
    (hc : exec c s = .next (s.writeReg (mgcWriter false) 0x0A8 0x05C w fun d => putBits d 0 4 op))
    (hb : s.on MGC_R_BUSY = false) (hs : s.ccx.seq = none) (hw : s.admitsWrite 0x0A8 0x05C w
      (putBits w.data.toNat 0 4 op) = true)
    (h1 : op = 1 → s.on (STS_SEALED (bits w.data.toNat 16 10)) = true)
    (h2 : op = 2 → s.acc.restored = false ∧ s.acc.closed = false) :
    Answers c s fun t => t.resp.code = .ok ∧ t.on MGC_R_BUSY = true ∧ t.ccx.seq = some
      (op, bits w.data.toNat 16 10) := by
  obtain ⟨u, started⟩ := seqSubmit_starts (page := bits w.data.toNat 16 10) hb hs ho h1 h2
  refine answers_write (f := fun d => putBits d 0 4 op) hc (by decide) hw
    ((mgcWriter_seqSubmit s w op (by omega)).trans started)
    ⟨rfl, ?_, rfl⟩
  rw [on_answer]
  exact on_wr_b2n rfl (by decide) _ true

theorem sequencer_answers {s : State} {w : RegWrite} (hb : s.on MGC_R_BUSY = false) (hs : s.ccx.seq = none) :
    (s.admitsWrite 0x0A8 0x05C w (putBits w.data.toNat 0 4 1) = true →
      s.on (STS_SEALED (bits w.data.toNat 16 10)) = true →
      Answers (.restorePage w) s fun t =>
        t.resp.code = .ok ∧ t.on MGC_R_BUSY = true ∧ t.ccx.seq = some (1, bits w.data.toNat 16 10)) ∧
    (s.admitsWrite 0x0A8 0x05C w (putBits w.data.toNat 0 4 1) = true →
      s.on (STS_SEALED (bits w.data.toNat 16 10)) = false →
      Answers (.restorePage w) s fun t =>
        t.resp.code = .prot ∧ t.rd MGC_R_CODE = codeOf .prot ∧ t.ccx.seq = none) ∧
    (s.admitsWrite 0x0A8 0x05C w (putBits w.data.toNat 0 4 2) = true →
      s.acc.restored = false → s.acc.closed = false →
      Answers (.restoreAcc w) s fun t =>
        t.resp.code = .ok ∧ t.on MGC_R_BUSY = true ∧ t.ccx.seq = some (2, bits w.data.toNat 16 10)) ∧
    (s.admitsWrite 0x0A8 0x05C w (putBits w.data.toNat 0 4 3) = true →
      Answers (.saveAcc w) s fun t =>
        t.resp.code = .ok ∧ t.on MGC_R_BUSY = true ∧ t.ccx.seq = some (3, bits w.data.toNat 16 10)) := by
  refine ⟨fun hw hp => seqStarted_answers (by decide) rfl hb hs hw (fun _ => hp) (fun h => absurd h (by decide)), fun
    hw hp => ?_,
    fun hw hr hc => seqStarted_answers (by decide) rfl hb hs hw (fun h => absurd h (by decide)) fun _ => ⟨hr, hc⟩,
    fun hw => seqStarted_answers (by decide) rfl hb hs hw (fun h => absurd h (by decide))
      (fun h => absurd h (by decide))⟩
  obtain ⟨idle, -, code⟩ := seqEnd_ends s .prot 0
  refine answers_write_coded (f := fun d => putBits d 0 4 1) rfl (by decide) hw
    ((mgcWriter_seqSubmit s w 1 (by decide)).trans (seqSubmit_unsealed hb hs hp)) ⟨rfl, ?_, ?_⟩
  · rw [rd_answer, rd_capture_other _ _ _ _ _ (by decide) (by decide) (by decide)]
    exact code
  · refine Eq.trans (congrArg CcxState.seq ?_) idle
    exact part_of_except ((State.answer_same 513 rfl _ _).trans (State.capture_same 513 rfl _ _ _ _ _ _)) .ccx rfl

/-! ### The commands of the sequencer end (R317) -/

theorem QuietWord.past_cellar {page off : Nat} (quiet : QuietWord page off) : List.contains [0x0D8] page = false := by
  obtain ⟨⟨-, -, other⟩, -, -⟩ := quiet
  simp [other]

section
variable {page off : Nat}

theorem word_celRead (quiet : QuietWord page off) (s : State) (g : Nat) : (s.celRead g).2.2.reg page off = s.reg
    page off :=
  past_iff.mp (State.celRead_past (P := [0x0D8]) rfl s g) page off (by have := quiet.support; omega) quiet.short
    quiet.past_cellar

theorem word_celReadRun (quiet : QuietWord page off) (s : State) (g n : Nat) : (s.celReadRun g n).2.2.reg page off =
    s.reg page off :=
  past_iff.mp (State.celReadRun_past (P := [0x0D8]) rfl s g n) page off (by have := quiet.support; omega) quiet.short
    quiet.past_cellar

theorem word_celWriteRun (quiet : QuietWord page off) (s : State) (g : Nat) (l : List Nat) : (s.celWriteRun g l).reg
    page off = s.reg page off :=
  past_iff.mp (State.celWriteRun_past (P := [0x0D8]) rfl s g l) page off (by have := quiet.support; omega) quiet.short
    quiet.past_cellar

theorem word_putConfig (quiet : QuietWord page off) (s : State) (p : Nat) (l : List Nat) :
    (s.putConfig p l).reg page off = s.reg page off := by
  obtain ⟨-, short, config⟩ := quiet
  have listed : ∀ o ∈ configOffs p, o < 4096 ∧ (p = page → o ≠ off) := fun o ho => by
    simp only [configOffs, List.mem_append, List.mem_cons, List.not_mem_nil, or_false, List.mem_filter, List.mem_map,
      List.mem_range, bne_iff_ne] at ho
    obtain ⟨check, lock, plain⟩ := config
    rcases ho with (rfl | rfl) | ⟨⟨k, hk, rfl⟩, mask⟩
    · exact ⟨by decide, fun _ => check.symm⟩
    · exact ⟨by decide, fun _ => lock.symm⟩
    · exact ⟨by omega, fun h e => mask (by rw [h, e, plain])⟩
  refine word_foldl (fun u x hx => ?_) s
  obtain ⟨bound, other⟩ := listed x.1 (List.of_mem_zip hx).1
  refine (reg_mendUpsets _ _ _ _ _).trans (reg_setReg_other u ?_ _)
  unfold regKey
  omega

theorem word_rewritePage (quiet : QuietWord page off) (s : State) (p : Nat) : (s.rewritePage p).2.reg page off = s.reg
    page off := by
  have copy : s.checkedCopy.2.reg page off = s.reg page off := by
    have marker := word_celRead quiet s sealMarker
    unfold State.checkedCopy
    split
    · next read =>
      rw [read] at marker
      dsimp only
      split
      · exact (word_celReadRun quiet _ _ _).trans marker
      · exact (word_celReadRun quiet _ _ _).trans marker
    · next read => rw [read] at marker; exact marker
  have logged (u : State) (a b c : Nat) : (u.log a b c).reg page off = u.reg page off := rfl
  unfold State.rewritePage
  dsimp only
  rw [logged, apply_ite (State.reg · page off), word_putConfig quiet, ite_self, copy]

theorem word_newerCopy (quiet : QuietWord page off) (s : State) : s.newerCopy.2.2.reg page off = s.reg page off :=
  (word_celReadRun quiet _ _ _).trans (word_celReadRun quiet s _ _)

theorem word_restoreBilling (quiet : QuietWord page off) (s : State) : s.restoreBilling.2.reg page off = s.reg
    page off := by
  unfold State.restoreBilling
  dsimp only
  split
  · exact (word_restoreFrom quiet _ _).trans (word_newerCopy quiet s)
  · split
    · exact word_newerCopy quiet s
    · exact (word_allBad quiet _).trans (word_newerCopy quiet s)

theorem word_saveBilling (quiet : QuietWord page off) (s : State) : (s.saveBilling none).reg page off = s.reg
    page off :=
  (word_celWriteRun quiet _ _ _).trans (word_newerCopy quiet s)

end

theorem statusQuiet : QuietWord 0x0A8 0x60 := ⟨by decide, by decide, by decide⟩

theorem restoreSeqDone_answers {s : State} {p : Nat} (hb : s.on MGC_R_BUSY = true) :
    (s.ccx.seq = some (1, p) →
      Answers (.restoreSeqDone none) s fun t =>
        t.ccx.seq = none ∧ t.on MGC_R_BUSY = false ∧ t.rd MGC_R_CODE = codeOf (s.rewritePage p).1) ∧
    (s.ccx.seq = some (2, p) →
      Answers (.restoreSeqDone none) s fun t =>
        t.ccx.seq = none ∧ t.on MGC_R_BUSY = false ∧ t.rd MGC_R_CODE = codeOf s.restoreBilling.1) ∧
    (s.ccx.seq = some (3, p) → s.celBlocked = false →
      Answers (.restoreSeqDone none) s fun t =>
        t.ccx.seq = none ∧ t.on MGC_R_BUSY = false ∧ t.rd MGC_R_CODE = codeOf .ok) := by
  have ended {u : State} (h : u.reg 0x0A8 0x60 = s.reg 0x0A8 0x60) (c : Status) :=
    seqFinish_ends ((busy_of_word h).trans hb) c 0
  refine ⟨fun h => ⟨_, ?_, ended (word_rewritePage statusQuiet s p) _⟩, fun h =>
    ⟨_, ?_, ended (word_restoreBilling statusQuiet s) _⟩,
    fun h hw => ⟨_, ?_, ended (word_saveBilling statusQuiet s) .ok⟩⟩
  · change Host.Outcome.next (s.seqDone none) = _
    rw [State.seqDone, h]
    rfl
  · change Host.Outcome.next (s.seqDone none) = _
    rw [State.seqDone, h]
    rfl
  · change Host.Outcome.next (s.seqDone none) = _
    rw [State.seqDone, h]
    exact congrArg _ (if_neg (by rw [hw]; decide))

/-- Settles O33: the selection and the boot commands by the clean boot record, the sequencer by its status word, which
no
restoration and no save touches. -/
theorem bootComplete : Obligations.BootComplete := by
  unfold Obligations.BootComplete
  exact ⟨fun s a b d hc ht => bootSelect_answers hc ht, fun s w d hw h0 h2 hs hc hb => mgcTrial_answers hw h0 h2 hs hc
    hb,
    fun s w d hw hn hc hb => mgcBootok_answers hw hn hc hb, fun s w hb hs => sequencer_answers hb hs,
    fun s p hb => restoreSeqDone_answers hb⟩

end Sys2Proof.Machine

/-! ## The powerline physical layer (O34, O35) -/

namespace Sys2Proof.Machine

open Reg

set_option autoImplicit false

/-! ### Links of the tone channel -/

theorem link_setLink_same (s : State) (i : Nat) (f : PltLink → PltLink) : (s.setLink i f).link i = f (s.link i) :=
  cellAt_put_same _ _ _ _

theorem link_setLink_other (s : State) {i j : Nat} (h : j ≠ i) (f : PltLink → PltLink) :
    (s.setLink i f).link j = s.link j := cellAt_put_other _ _ h _ _

theorem link_of_plt {s t : State} (h : t.plt = s.plt) (i : Nat) : t.link i = s.link i := by
  rw [State.link, State.link, h]

theorem link_raise (s : State) (p b i : Nat) : (s.raise p b).link i = s.link i :=
  link_of_plt (part_of_except (State.raise_same 1 rfl s p b) .plt rfl) i

theorem sendSet_keeps (s : State) (i : Nat) (m : MapSet) : (s.sendSet i m).except 33554432 = s.except 33554432 :=
  State.sendSet_same _ rfl s i m

theorem takeMgmt_keeps {s u : State} {n : Nat} {m : MgmtIn} (h : s.takeMgmt n = some (m, u)) :
    u.except 33554432 = s.except 33554432 := State.takeMgmt_same _ rfl _ _ _ h

/-- A set issued is the link's; the one before it is kept. -/
theorem issueSet_issues (s : State) (i : Nat) :
    ((s.issueSet i).link i).issued = some (s.makeSet i) ∧ ((s.issueSet i).link i).lastIssue = some s.stamp.cyc ∧
    ((s.issueSet i).link i).prev = (s.link i).issued.map (fun p => { p with at' := s.stamp.cyc }) ∧
    ((s.issueSet i).link i).frames = 0 := by
  have sent := sendSet_keeps s i (s.makeSet i)
  have cyc : (s.sendSet i (s.makeSet i)).stamp = s.stamp := by
    unfold State.stamp
    rw [part_of_except sent .ctf rfl]
  have before := link_of_plt (part_of_except sent .plt rfl) i
  have now : (s.issueSet i).link i = { (s.link i) with
      prev := (s.link i).issued.map fun p => { p with at' := s.stamp.cyc }, issued := some (s.makeSet i),
      lastIssue := some s.stamp.cyc, eSum := 0, eNum := 0, frames := 0, want := false } := by
    unfold State.issueSet State.recordIssue
    dsimp only
    rw [link_raise, link_setLink_same, before, cyc]
  rw [now]
  exact ⟨rfl, rfl, rfl, rfl⟩

theorem tmreq_answers {s u : State} {m : MgmtIn} {i : Nat} (hm : s.takeMgmt 0x01 = some (m, u))
    (hi : u.nbIndex m.orig = some i) :
    (u.mapsAdapt = true → u.issueFree i = true →
      Answers .tmreq s fun t =>
        (t.link i).issued = some (u.makeSet i) ∧ (t.link i).lastIssue = some s.stamp.cyc ∧
        (t.link i).prev = (s.link i).issued.map fun p => { p with at' := s.stamp.cyc }) ∧
    (∀ x, u.mapsAdapt = false → (u.link i).issued = some x →
      Answers .tmreq s fun t => t = u.sendSet i x) := by
  have taken := takeMgmt_keeps hm
  have cyc : u.stamp = s.stamp := by unfold State.stamp; rw [part_of_except taken .ctf rfl]
  have link := link_of_plt (part_of_except taken .plt rfl) i
  obtain ⟨issued, last, prev, -⟩ := issueSet_issues u i
  rw [cyc, link] at prev
  rw [cyc] at last
  refine ⟨fun ha hf => ⟨u.issueSet i, ?_, issued, last, prev⟩, fun x ha hx => ⟨_, ?_, rfl⟩⟩
  · change execTmreq s = _
    unfold execTmreq
    rw [hm]
    dsimp only
    rw [hi]
    exact congrArg _ ((if_pos ha).trans (if_pos hf))
  · change execTmreq s = _
    unfold execTmreq
    rw [hm]
    dsimp only
    rw [hi]
    dsimp only
    rw [if_neg (by rw [ha]; decide), hx]

theorem tmrsp_answers {s u : State} {m : MgmtIn} {i : Nat} {x : MapSet} (hm : s.takeMgmt 0x02 = some (m, u))
    (hi : u.nbIndex m.orig = some i) (hx : u.tmrspSet m.data = some x) :
    Answers .tmrsp s fun t =>
      (t.link i).received = some x ∧ (t.link i).delta = ((s.link i).delta + x.dcorr) % 65536 := by
  have command : exec .tmrsp s = .next (u.installSet i x).noteRoutes := by
    change execTmrsp s = _
    unfold execTmrsp
    rw [hm]
    dsimp only
    rw [hi]
    dsimp only
    rw [hx]
  have installed : (u.installSet i x).noteRoutes.link i =
      { (s.link i) with received := some x, delta := ((s.link i).delta + x.dcorr) % 65536 } := by
    rw [link_of_plt (part_of_except (State.noteRoutes_same 33554432 rfl _) .plt rfl), State.installSet, link_raise,
      link_setLink_same, link_of_plt (part_of_except (takeMgmt_keeps hm) .plt rfl)]
  exact ⟨_, command, by rw [installed], by rw [installed]⟩

theorem tmapRefresh_answers {s : State} {i : Fin 64} {c : Nat} (hn : (s.nb i.val).isSome = true)
    (hf : s.issueFree i.val = true) (ha : s.mapsAdapt = true) (ho : s.toneOff = false)
    (hl : (s.link i.val).lastIssue = some c) (hr : c + s.rd PLT_TMREF ≤ s.stamp.cyc)
    (hm : s.rd PLT_TMMINF ≤ (s.link i.val).frames) :
    Answers (.tmapRefresh i) s fun t => (t.link i.val).issued = some (s.makeSet i.val) ∧ (t.link i.val).frames = 0 := by
  have command : exec (.tmapRefresh i) s = .next (s.issueSet i.val) := by
    change execTmapRefresh i s = _
    unfold execTmapRefresh
    dsimp only
    rw [hl]
    exact congrArg _ (if_pos (by simp [hn, hf, ha, ho, hr, hm]))
  obtain ⟨issued, -, -, frames⟩ := issueSet_issues s i.val
  exact ⟨_, command, issued, frames⟩

/-! ### TMAP_EXPIRE (R336) -/

/-- A link whose received set stays valid only until the limit, and whose previous set ages out. -/
def PltLink.expired (cyc limit : Nat) (l : PltLink) : PltLink :=
  { l with
    received := l.received.map fun m => { m with valid := m.valid && decide (cyc < m.at' + limit) }
    prev := match l.prev with
      | some p => if cyc < p.at' + 64 then some p else none
      | none => none }

theorem foldl_expired (cyc limit : Nat) (l : List Nat) (s : State) (j : Nat) :
    let t := l.foldl (fun s i => s.setLink i (PltLink.expired cyc limit)) s
    (t.link j).issued = (s.link j).issued ∧ (t.link j).received = if j ∈ l then
      (s.link j).received.map fun m => { m with valid := m.valid && decide (cyc < m.at' + limit) } else
        (s.link j).received := by
  induction l generalizing s with
  | nil => exact ⟨rfl, rfl⟩
  | cons i r ih =>
    obtain ⟨issued, received⟩ := ih (s.setLink i (PltLink.expired cyc limit))
    simp only [List.foldl_cons]
    by_cases own : j = i
    · subst own
      rw [link_setLink_same] at issued received
      refine ⟨issued, received.trans ?_⟩
      rw [if_pos List.mem_cons_self]
      simp only [PltLink.expired, Option.map_map]
      split
      · refine congrArg (fun f => Option.map f _) (funext fun m => ?_)
        simp only [Function.comp_apply, Bool.and_assoc, Bool.and_self]
      · rfl
    · rw [link_setLink_other _ own] at issued received
      refine ⟨issued, received.trans ?_⟩
      simp only [List.mem_cons, own, false_or]

theorem tmapExpire_answers (s : State) : Answers .tmapExpire s fun t => SameBut [.plt] s t ∧
    ∀ i ∈ s.plt.links.map (·.1), (t.link i).issued = (s.link i).issued ∧
      (t.link i).received = (s.link i).received.map fun m =>
        { m with valid := m.valid && decide (s.stamp.cyc < m.at' + 4 * s.rd PLT_TMREF) } := by
  refine ⟨(s.plt.links.map (·.1)).foldl (fun u i => u.setLink i (PltLink.expired s.stamp.cyc (4 * s.rd PLT_TMREF))) s,
    rfl,
    sameBut_of_except (foldl_keeps (g := State.except _) (fun u i => State.setLink_same 8388608 rfl u i _) _ s),
    fun i hi => ?_⟩
  obtain ⟨issued, received⟩ := foldl_expired s.stamp.cyc (4 * s.rd PLT_TMREF) (s.plt.links.map (·.1)) s i
  rw [if_pos hi] at received
  exact ⟨issued, received⟩

/-! ### The end of an attempt (R359, R366) -/

/-- A part of what the MAC holds that neither the held records nor the downlinks of nodes are in. -/
def SteadyPart {α : Type} (g : PlmState → α) : Prop :=
  (∀ p l, g { p with held := l } = g p) ∧ ∀ p l, g { p with downs := l } = g p

theorem steady_queue : SteadyPart PlmState.queue := ⟨fun _ _ => rfl, fun _ _ => rfl⟩

theorem steady_attempt : SteadyPart PlmState.attempt := ⟨fun _ _ => rfl, fun _ _ => rfl⟩

/-- The queue and the attempt without a frame that has ended. -/
def PlmState.without (p : PlmState) (f : TxFrame) : PlmState :=
  { p with
    queue := p.queue.filter (·.id != f.id)
    attempt := match p.attempt with
      | some a => if a.frame = f.id then none else some a
      | none => none }

section
variable {α : Type} {g : PlmState → α} (hg : SteadyPart g)
include hg

theorem SteadyPart.epRecord (s : State) (e w : Nat) : g (s.epRecord e w).plm = g s.plm := by
  unfold State.epRecord
  split
  · rfl
  split
  · exact hg.1 _ _
  · rw [part_of_except (State.epPut_same 34359738368 rfl s e w) .plm rfl]

theorem SteadyPart.endNodeDown (s : State) (ref : Nat) (c : Status) (hops : Nat) :
    g (s.endNodeDown ref c hops).plm = g s.plm := by
  unfold State.endNodeDown
  split
  · rfl
  dsimp only
  split
  · exact hg.2 _ _
  · rw [hg.epRecord, part_of_except (State.outcome_same 8193 rfl _ _ _ _ _) .plm rfl]
    exact hg.2 _ _

theorem SteadyPart.endFrame (s : State) (f : TxFrame) (c : Status) : g (s.endFrame f c).plm = g (s.plm.without f) := by
  have settled (u : State) : ((u.settleAir f f.occ).outcome f.tc resAir c f.item).plm = u.plm :=
    part_of_except ((State.outcome_same 8193 rfl _ _ _ _ _).trans (State.settleAir_same 8193 rfl u f f.occ)) .plm rfl
  have downs (u : State) : g (match f.down with
      | some r => u.endNodeDown r c 0
      | none => u).plm = g u.plm := by
    split
    · exact hg.endNodeDown _ _ _ _
    · rfl
  unfold State.endFrame
  dsimp only
  split
  · rw [hg.epRecord, settled]
    exact downs _
  · exact downs _

end

set_option autoImplicit false

theorem attempt_without_none {p : PlmState} (h : p.attempt = none) (f : TxFrame) : (p.without f).attempt = none := by
  unfold PlmState.without
  rw [h]

theorem closeAttempt_plm (s : State) (a : Attempt) (acked : Bool) :
    (s.closeAttempt a acked).plm.attempt = none ∧ (s.closeAttempt a acked).plm.queue = s.plm.queue.map fun f =>
      if f.id = a.frame then { f with occ := f.occ + (s.ticks - a.tick) } else f := by
  have noted (u : State) : u.noteRoutes.plm.attempt = u.plm.attempt ∧ u.noteRoutes.plm.queue = u.plm.queue := by
    unfold State.noteRoutes
    dsimp only
    split <;> exact ⟨rfl, rfl⟩
  unfold State.closeAttempt
  dsimp only
  split
  · split
    · exact ⟨(noted _).1, (noted _).2⟩
    · exact ⟨rfl, rfl⟩
  · exact ⟨rfl, rfl⟩

/-- An attempt that ends with its segment leaves none. -/
theorem attempt_segmentDone (s : State) (a : Attempt) (acked : Bool) : (s.segmentDone a acked).plm.attempt = none := by
  have closed := (closeAttempt_plm s a acked).1
  unfold State.segmentDone
  dsimp only
  split
  · exact closed
  · split
    · exact closed
    · rw [steady_attempt.endFrame]
      exact attempt_without_none closed _

/-! ### TONE_TX_COMPLETE (R341) -/

/-- The clock at which the transmitter's last sample has been sent. -/
def PltTx.last (x : PltTx) : Nat := x.clk + x.len * 65536

/-- The MAC after a frame of the transmitter has been sent, before the transmitter is released. -/
def State.txEnded (s : State) (x : PltTx) : State :=
  let s := (s.waitUntil x.last).setPlm fun p => { p with lastEnd := some x.last }
  match s.plm.attempt with
  | none => s
  | some a =>
    if a.ackReq then s.setPlm fun p => { p with attempt := some { a with waits := true } } else s.segmentDone a false

/-- The transmitter is released. -/
def State.toneReleased (s : State) : State :=
  (((s.setPlt fun y => { y with tx := none, txen := false }).count PLT_TXN).raise 0x0B0 0).pltShow

/-- The transmitter is released 20 us after the last sample. -/
def State.txReleased (s : State) (x : PltTx) : State := (s.waitUntil (x.last + 48 * 20 * 65536)).toneReleased

theorem toneTxComplete_eq {s : State} {x : PltTx} (h : s.plt.tx = some x) :
    exec .toneTxComplete s = .next ((s.txEnded x).txReleased x) := by
  change execToneTxComplete s = _
  unfold execToneTxComplete
  rw [h]
  rfl

theorem toneReleased_parts (s : State) :
    s.toneReleased.plm = s.plm ∧ s.toneReleased.plt.tx = none ∧ s.toneReleased.plt.txen = false := by
  have shown (u : State) : ((u.count PLT_TXN).raise 0x0B0 0).pltShow.except 1 = u.except 1 :=
    (State.pltShow_same 1 rfl _).trans ((State.raise_same 1 rfl _ _ _).trans (State.count_same 1 rfl _ _ _))
  have plt := part_of_except (shown (s.setPlt fun y => { y with tx := none, txen := false })) .plt rfl
  exact ⟨part_of_except (shown _) .plm rfl, congrArg PltState.tx plt, congrArg PltState.txen plt⟩

theorem rd_toneReleased (s : State) : s.toneReleased.rd PLT_TXN = satNat 16 (s.rd PLT_TXN + 1) := by
  have shown (u : State) : u.pltShow.rd PLT_TXN = u.rd PLT_TXN := by
    unfold State.pltShow
    dsimp only
    rw [rd_wr_free (by decide), rd_wr_free (by decide), rd_wr_free (by decide), rd_wr_free (by decide), rd_wr_free
      (by decide)]
  rw [State.toneReleased, shown, rd_raise_free (by decide), rd_count_same _ _ _ rfl, rd_setPlt]
  rfl

theorem txReleased_parts (s : State) (x : PltTx) :
    (s.txReleased x).plm = s.plm ∧ (s.txReleased x).plt.tx = none ∧ (s.txReleased x).plt.txen = false ∧
    (s.txReleased x).rd PLT_TXN = satNat 16 (s.rd PLT_TXN + 1) := by
  have keeps (t : Nat) : (s.waitUntil t).plm = s.plm := part_of_except (State.waitUntil_same 4289 rfl s t) .plm rfl
  have waits (t : Nat) : (s.waitUntil t).rd PLT_TXN = s.rd PLT_TXN :=
    rd_of_past (State.waitUntil_past (P := [0x010]) rfl s t) (by decide)
  obtain ⟨plm, tx, txen⟩ := toneReleased_parts (s.waitUntil (x.last + 48 * 20 * 65536))
  rw [keeps] at plm
  refine ⟨plm, tx, txen, ?_⟩
  rw [State.txReleased, rd_toneReleased, waits]

theorem toneTxComplete_answers {s : State} {a : Attempt} {x : PltTx} (hx : s.plt.tx = some x)
    (ha : s.plm.attempt = some a) :
    (a.ackReq = true → Answers .toneTxComplete s fun t =>
      t.plt.tx = none ∧ t.plt.txen = false ∧ t.plm.attempt = some { a with waits := true } ∧
      t.plm.lastEnd = some (x.clk + x.len * 65536) ∧ t.rd PLT_TXN = satNat 16 (s.rd PLT_TXN + 1)) ∧
    (a.ackReq = false →
      Answers .toneTxComplete s fun t => t.plt.tx = none ∧ t.plt.txen = false ∧ t.plm.attempt = none) := by
  obtain ⟨plm, tx, txen, count⟩ := txReleased_parts (s.txEnded x) x
  have held : ((s.waitUntil x.last).setPlm fun p => { p with lastEnd := some x.last }).plm.attempt = some a :=
    (congrArg PlmState.attempt (part_of_except (State.waitUntil_same 4289 rfl s x.last) .plm rfl)).trans ha
  refine ⟨fun hr => ⟨_, toneTxComplete_eq hx, tx, txen, ?_, ?_, ?_⟩, fun hr => ⟨_, toneTxComplete_eq hx, tx, txen, ?_⟩⟩
  · rw [plm, State.txEnded, held]
    exact congrArg (fun u => (State.plm u).attempt) (if_pos hr)
  · rw [plm, State.txEnded, held]
    exact congrArg (fun u => (State.plm u).lastEnd) (if_pos hr)
  · have waited : (s.txEnded x).rd PLT_TXN = s.rd PLT_TXN := by
      rw [State.txEnded, held]
      dsimp only
      rw [if_pos hr, rd_setPlm, rd_setPlm]
      exact rd_of_past (State.waitUntil_past (P := [0x010]) rfl s _) (by decide)
    rw [count, waited]
  · rw [plm, State.txEnded, held]
    dsimp only
    rw [if_neg (by rw [hr]; decide)]
    exact attempt_segmentDone _ a false

/-! ### TONE_TRANSMIT (R331) -/

/-- The header of the frame that carries an attempt (R331). -/
def State.frameHead (s : State) (a : Attempt) (p : TxPlan) : Fch :=
  let delta := match (if a.nxt = 0xFF then none else s.nbIndex a.nxt) with
    | some i => (s.link i).delta
    | none => 0
  let ph0 := (s.stamp.ph + s.clocksToTicks (headClocks s.nTones p.ce) + delta) % 65536
  ⟨p.mode, p.gen, s.planSymbols p ph0 a.bytes.length, if p.mode = 0 then 0 else p.rate, p.span, p.ce, s.saddr, ph0,
    s.symbolTicks⟩

/-- The transmitter and the attempt once a frame is being sent. -/
def State.toneStarted (s : State) (a : Attempt) (p : TxPlan) (code : Status) : State :=
  let s' := s.send .tone (s.toneOutput p (s.frameHead a p) a.bytes)
  let s' := s'.setPlt fun x => { x with
    txen := true
    tx := some ⟨code, s.ticks, stampNat s.stamp, s.clk, frameClocks s.nTones p.ce (s.frameHead a p).nsym⟩ }
  let s' := s'.setFrame a.frame fun f => { f with
    atts := f.atts + 1, first := some (f.first.getD (stampNat s.stamp)),
    late := f.late || (f.first.isNone && f.kind == 2 && decide (f.asked < stampNat s.stamp)) }
  (s'.setPlm fun x => { x with attempt := some { a with taken := true, tick := s.ticks, code := code } }).pltShow

theorem toneTransmit_eq {s : State} {a : Attempt} (ha : s.plm.attempt = some a) (hx : s.plt.tx = none)
    (ht : a.taken = false) (hb : a.bytes ≠ []) (ho : s.toneOff = false) (hd : s.plt.dflt = false) :
    ∃ code, exec .toneTransmit s =
      .next (s.toneStarted a (s.txPlan (if a.nxt = 0xFF then none else s.nbIndex a.nxt)) code) := by
  refine ⟨firstOf (if decide (s.level = 2) && s.modeAt (s.transmitMap (if a.nxt = 0xFF then none else s.nbIndex a.nxt))
    0 != 0
    then .degraded else .ok) s.okOr, ?_⟩
  change execToneTransmit s = _
  unfold execToneTransmit
  rw [ha, hx]
  dsimp only
  rw [if_neg (by rw [ht]; decide), if_neg hb, if_neg (by rw [ho]; decide), if_neg (by rw [hd]; decide)]
  rfl

theorem toneTransmit_answers {s : State} {a : Attempt} {p : TxPlan} (ha : s.plm.attempt = some a) (hx : s.plt.tx = none)
    (ht : a.taken = false) (hb : a.bytes ≠ []) (ho : s.toneOff = false) (hd : s.plt.dflt = false)
    (hp : p = s.txPlan (if a.nxt = 0xFF then none else s.nbIndex a.nxt)) :
    Answers .toneTransmit s fun t =>
      t.plt.txen = true ∧ (∃ x, t.plt.tx = some x ∧ x.clk = s.clk ∧ x.tick = s.ticks) ∧
      (∃ b, t.plm.attempt = some b ∧ b.taken = true ∧ b.frame = a.frame) ∧
      ∃ h : Fch, t.out = s.out ++ [⟨.tone, s.toneOutput p h a.bytes⟩] ∧ h.mode = p.mode ∧ h.gen = p.gen ∧
        h.src = s.saddr ∧ h.tsc = s.symbolTicks ∧ h.nsym = s.planSymbols p h.ph0 a.bytes.length := by
  have shown (u : State) : u.pltShow.except 1 = u.except 1 := State.pltShow_same 1 rfl u
  obtain ⟨code, command⟩ := toneTransmit_eq ha hx ht hb ho hd
  rw [← hp] at command
  refine ⟨_, command, congrArg PltState.txen (part_of_except (shown _) .plt rfl),
    ⟨_, congrArg PltState.tx (part_of_except (shown _) .plt rfl), rfl, rfl⟩,
    ⟨_, congrArg PlmState.attempt (part_of_except (shown _) .plm rfl), rfl, rfl⟩,
    ⟨s.frameHead a p, part_of_except (shown _) .out rfl, rfl, rfl, rfl, rfl, rfl⟩⟩

set_option autoImplicit false

/-! ### The check of a frame -/

theorem crc32Bits_lt (n c : Nat) (h : c < 2 ^ 32) : crc32Bits n c < 2 ^ 32 := by
  induction n generalizing c with
  | zero => exact h
  | succ n ih =>
    unfold crc32Bits
    split
    · exact ih _ (Nat.xor_lt_two_pow (by omega) (by decide))
    · exact ih _ (by omega)

theorem crc32_lt (l : List Byte) : crc32 l < 2 ^ 32 := by
  have register (c : Nat) (h : c < 2 ^ 32) : crc32Over c l < 2 ^ 32 := by
    induction l generalizing c with
    | nil => exact h
    | cons b r ih =>
      have byte : b.toNat < 2 ^ 32 := Nat.lt_trans b.isLt (by decide)
      exact ih _ (crc32Bits_lt 8 _ (Nat.xor_lt_two_pow h byte))
  exact Nat.xor_lt_two_pow (register _ (by decide)) (by decide)

theorem withFcs_length (l : List Byte) : (withFcs l).length = l.length + 4 := by
  rw [withFcs, List.length_append, leBytes_length]

/-- A frame that carries its own check is good. -/
theorem withFcs_good (l : List Byte) :
    (decide (4 ≤ (withFcs l).length) && crc32 ((withFcs l).take ((withFcs l).length - 4)) ==
      leNat ((withFcs l).drop ((withFcs l).length - 4))) = true := by
  have long : 4 ≤ (withFcs l).length := by rw [withFcs_length]; omega
  have cut : (withFcs l).length - 4 = l.length := by rw [withFcs_length]; omega
  rw [cut, withFcs, List.take_left, List.drop_left, leNat_leBytes, Nat.mod_eq_of_lt
    (show crc32 l < 256 ^ 4 from crc32_lt l)]
  have whole : 4 ≤ (l ++ leBytes 4 (crc32 l)).length := long
  simp only [whole, decide_true, beq_self_eq_true, Bool.and_self]

theorem leAt_ack (dst me seq : Nat) (hd : dst < 256) (hm : me < 256) (hs : seq < 256) :
    leAt (ackBytes dst me seq) 1 1 = dst ∧ leAt (ackBytes dst me seq) 2 1 = me ∧ leAt
    (ackBytes dst me seq) 3 1 = seq := by
  have one {n : Nat} (h : n < 256) : leNat [BitVec.ofNat 8 n] = n := by
    have byte : (BitVec.ofNat 8 n).toNat = n := by rw [BitVec.toNat_ofNat, Nat.mod_eq_of_lt h]
    simp only [leNat, byte]
    omega
  exact ⟨one hd, one hm, one hs⟩

/-! ### TONE_RECEIVE (R332) -/

theorem attempt_heardFrom (s : State) (a : Nat) : (s.heardFrom a).plm.attempt = s.plm.attempt := by
  unfold State.heardFrom
  dsimp only
  split <;> rfl

theorem heardFrom_except (s : State) (a : Nat) : (s.heardFrom a).except 33554432 = s.except 33554432 :=
  State.heardFrom_same _ rfl s a

/-- The acknowledgement awaited ends its attempt. -/
theorem macReceive_acknowledged {s : State} {a : Attempt} {l : List Byte} (he : s.on PLM_EN = true)
    (ha : s.plm.attempt = some a) (hw : a.waits = true) (hl : l = ackBytes s.saddr a.nxt a.seq) (hn : a.nxt < 256)
    (hs : a.seq < 256) (src eui first : Nat) : (s.macReceive l src eui first).plm.attempt = none := by
  have own : s.saddr < 256 := rd_lt s (f := PLM_SADDR) rfl
  obtain ⟨dst, me, seq⟩ := leAt_ack s.saddr a.nxt a.seq own hn hs
  have heard : (s.heardFrom src).saddr = s.saddr := rd_of_except (heardFrom_except s src) rfl PLM_SADDR
  subst hl
  have good : (decide (4 ≤ (ackBytes s.saddr a.nxt a.seq).length) && crc32 ((ackBytes s.saddr a.nxt a.seq).take
      ((ackBytes s.saddr a.nxt a.seq).length - 4)) == leNat ((ackBytes s.saddr a.nxt a.seq).drop
        ((ackBytes s.saddr a.nxt a.seq).length - 4))) = true := withFcs_good _
  unfold State.macReceive
  rw [if_neg (by rw [he]; decide)]
  dsimp only
  rw [good, if_neg (by decide), if_pos ⟨withFcs_length _, rfl⟩, attempt_heardFrom, ha]
  dsimp only
  rw [if_pos ⟨hw, dst.trans heard.symm, me, seq⟩]
  exact attempt_segmentDone _ a true

theorem toneReceive_answers {s : State} {f : ToneIn} (ho : s.toneOff = false) (hx : s.plt.tx = none) :
    (fchGood f.fch = false →
      Answers (.toneReceive f) s fun t =>
        t.rd PLT_HCSN = satNat 16 (s.rd PLT_HCSN + 1) ∧ SameBut [.regs] s t) ∧
    (fchGood f.fch = true → (fchOf f.fch).reserved = true →
      Answers (.toneReceive f) s fun t =>
        t.rd PLT_RSVN = satNat 16 (s.rd PLT_RSVN + 1) ∧ SameBut [.regs] s t) ∧
    (∀ a : Attempt, fchGood f.fch = true → (fchOf f.fch).reserved = false → (fchOf f.fch).mode = 0 →
      s.on PLM_EN = true → s.plm.attempt = some a → a.waits = true →
      f.payload = ackBytes s.saddr a.nxt a.seq → a.nxt < 256 → a.seq < 256 →
      Answers (.toneReceive f) s fun t => t.plm.attempt = none) := by
  have command : exec (.toneReceive f) s =
      .next (let r := s.pltAccept f (s.nbIndex (fchOf f.fch).src)
        if r.1 then r.2.macReceive f.payload (fchOf f.fch).src f.eui.toNat (s.firstSymbol f) else r.2) := by
    change execToneReceive f s = _
    unfold execToneReceive
    rw [if_neg (by simp [ho, hx])]
  refine ⟨fun hg => ?_, fun hg hr => ?_, fun a hg hr hm he ha hw hp hn hs => ⟨_, command, ?_⟩⟩
  · have bad : s.pltAccept f (s.nbIndex (fchOf f.fch).src) = (false, s.count PLT_HCSN) := by
      unfold State.pltAccept
      rw [hg]
      rfl
    rw [bad] at command
    exact ⟨s.count PLT_HCSN, command, rd_count_same _ _ _ rfl, sameBut_of_except
      (except_mono (q := 1) rfl (State.count_same _ rfl _ _ _))⟩
  · have bad : s.pltAccept f (s.nbIndex (fchOf f.fch).src) = (false, s.count PLT_RSVN) := by
      unfold State.pltAccept
      rw [hg]
      exact if_pos hr
    rw [bad] at command
    exact ⟨s.count PLT_RSVN, command, rd_count_same _ _ _ rfl, sameBut_of_except
      (except_mono (q := 1) rfl (State.count_same _ rfl _ _ _))⟩
  · have accepted : (s.pltAccept f (s.nbIndex (fchOf f.fch).src)).1 = true ∧
        (s.pltAccept f (s.nbIndex (fchOf f.fch).src)).2.plm = s.plm ∧
        (∀ g : Fld, PLT_RXOKN.free g = true → (s.pltAccept f (s.nbIndex (fchOf f.fch).src)).2.rd g = s.rd g) := by
      unfold State.pltAccept
      simp only [hg, hr, hm, Bool.not_true, Bool.false_eq_true, if_false, ne_eq, not_true_eq_false, false_and]
      have plm := part_of_except (State.count_same 1 rfl s PLT_RXOKN 1) .plm rfl
      have linked (u : State) (i : Nat) (x : PltLink → PltLink) (g : Fld) : (u.setLink i x).rd g = u.rd g :=
        rd_of_except (State.setLink_same 8388608 rfl u i x) rfl g
      split
      · exact ⟨trivial, plm, fun g hf => (linked _ _ _ g).trans (rd_count_free hf s 1)⟩
      · exact ⟨trivial, plm, fun g hf => rd_count_free hf s 1⟩
    generalize s.pltAccept f (s.nbIndex (fchOf f.fch).src) = r at accepted ⊢
    obtain ⟨delivered, plm, words⟩ := accepted
    have own : r.2.saddr = s.saddr := words PLM_SADDR (by decide)
    have enabled : r.2.on PLM_EN = true := by rw [State.on, words PLM_EN (by decide), ← State.on, he]
    dsimp only
    rw [if_pos delivered]
    exact macReceive_acknowledged enabled (by rw [plm, ha]) hw (by rw [own, hp]) hn hs _ _ _

/-! ### DRIVER_FAULT (R341) -/

theorem cutTone_parts (s : State) :
    s.cutTone.plt.tx = none ∧ s.cutTone.plt.dflt = s.plt.dflt ∧ s.cutTone.events = s.events := by
  have cut (u : State) : ((((u.count PLT_TXABN).raise 0x0B0 0).raise 0x0B0 1).pltShow).plt = u.plt :=
    part_of_except ((State.pltShow_same 1 rfl _).trans ((State.raise_same 1 rfl _ _ _).trans
      ((State.raise_same 1 rfl _ _ _).trans (State.count_same 1 rfl _ _ _)))) .plt rfl
  have asked (u : State) (a : Attempt) : (u.requestCut a .part).plt = u.plt :=
    part_of_except (State.requestCut_same 34393300993 rfl u a _) .plt rfl
  have noted (u : State) (f : PlmState → PlmState) : (u.setPlm f).plt = u.plt := rfl
  have freed : s.plt.tx = none ∨ s.cutTone.plt = { s.plt with tx := none, txen := false } := by
    unfold State.cutTone
    split
    · next idle => exact .inl idle
    · right
      dsimp only
      split
      · rw [noted, cut]
        rfl
      · rw [asked, noted, cut]
        rfl
  refine ⟨?_, ?_, part_of_except (State.cutTone_same 34401689601 rfl s) .events rfl⟩
  · rcases freed with idle | freed
    · rw [State.cutTone, idle]
      exact idle
    · rw [freed]
  · rcases freed with idle | freed
    · rw [State.cutTone, idle]
    · rw [freed]

theorem driverFault_answers (s : State) (n : BitVec 10) :
    (s.plt.dflt = false →
      Answers (.driverFault true n) s fun t =>
        t.plt.dflt = true ∧ t.plt.tx = none ∧ Logged s t 0x6001 deviceTc 0 ∧
        (s.plt.tx ≠ none → t.resp.code = .part ∧ t.resp.done = n.toNat)) ∧
    Answers (.driverFault false n) s fun t => t.plt.dflt = false ∧ SameBut [.regs, .plt] s t := by
  have shown (u : State) : u.pltShow.except 1 = u.except 1 := State.pltShow_same 1 rfl u
  refine ⟨fun hd => ?_, ?_⟩
  · generalize hu : (s.setPlt fun p => { p with dflt := true }).log 0x6001 deviceTc 0 = u
    obtain ⟨idle, faulty, told⟩ := cutTone_parts u
    have plt := part_of_except (shown u.cutTone) .plt rfl
    have events := (part_of_except (shown u.cutTone) .events rfl).trans told
    have command : exec (.driverFault true n) s = .next (if s.plt.tx.isSome then
        { u.cutTone.pltShow with resp := { code := .part, done := n.toNat } } else u.cutTone.pltShow) := by
      change execDriverFault true n s = _
      unfold execDriverFault
      rw [if_pos (by rw [hd]; decide)]
      dsimp only
      rw [hu]
    have logged : u.events = s.events ++ [⟨0x6001, deviceTc, leBytes 8 0⟩] := by rw [← hu]; rfl
    have fault : u.plt.dflt = true := by rw [← hu]; rfl
    refine ⟨_, command, ?_, ?_, ?_, fun hx => ?_⟩
    · split <;> exact (congrArg PltState.dflt plt).trans (faulty.trans fault)
    · split <;> exact (congrArg PltState.tx plt).trans idle
    · split <;> exact events.trans logged
    · rw [if_pos (Option.isSome_iff_ne_none.mpr hx)]
      exact ⟨rfl, rfl⟩
  · refine ⟨_, rfl, ?_, ?_⟩
    · exact congrArg PltState.dflt (part_of_except (shown _) .plt rfl)
    · exact sameBut_of_except (except_mono (q := 8388609) rfl ((State.pltShow_same _ rfl _).trans
        (State.setPlt_same _ rfl s _)))

/-- Settles O34, clause by clause; an attempt ends because no step after its close starts another. -/
theorem tonesComplete : Obligations.TonesComplete := by
  unfold Obligations.TonesComplete
  exact ⟨fun s a p ha hx ht hb ho hd hp => toneTransmit_answers ha hx ht hb ho hd hp,
    fun s a x hx ha hr => (toneTxComplete_answers hx ha).1 hr, fun s a x hx ha hr => (toneTxComplete_answers hx ha).2
      hr,
    fun s f ho hx => toneReceive_answers ho hx, driverFault_answers, fun s u m i hm hi => tmreq_answers hm hi,
    fun s u m i x hm hi hx => tmrsp_answers hm hi hx,
    fun s i c hn hf ha ho hl hr hm => tmapRefresh_answers hn hf ha ho hl hr hm, tmapExpire_answers⟩

set_option autoImplicit false

/-! ### Streams of the pulse channel -/

theorem plpStream_setStream_same (s : State) (k : Nat) (f : PlpStream → PlpStream) :
    (s.setStream k f).plpStream k = f (s.plpStream k) := cellAt_put_same _ _ _ _

theorem plpStream_of_plp {s t : State} (h : t.plp = s.plp) (k : Nat) : t.plpStream k = s.plpStream k := by
  rw [State.plpStream, State.plpStream, h]

theorem plpStream_except {m : Nat} {s t : State} (h : t.except m = s.except m) (hm : m.testBit 24 = false) (k : Nat) :
    t.plpStream k = s.plpStream k := plpStream_of_plp (part_of_except h .plp hm) k

/-- What follows a decision: the downlinks that ended, the frames delivered, the frames lost. -/
def State.slotSettled (s : State) (done : List DownDone) (frames : List PulseIn) (lost : List Nat) : State :=
  (frames.foldl State.nodeFrame (s.downsDone done)).noteLost lost

theorem pulseSlotDecide_eq (s : State) (n : Fin 256) (c0 c1 c2 c3 : BitVec 16) :
    let r := s.decideSlot n.val ([c0, c1, c2, c3].map (·.toNat))
    ∃ lost, exec (.pulseSlotDecide n c0 c1 c2 c3) s = .next (r.2.2.slotSettled r.2.1 r.1 lost) := ⟨_, rfl⟩

theorem slotSettled_delivers (s : State) (frames : List PulseIn) (lost : List Nat) :
    (s.slotSettled [] frames lost).except 33554432 = s.except 33554432 :=
  (State.noteLost_same _ rfl _ lost).trans
    (foldl_keeps (g := State.except 33554432) (fun u f => State.nodeFrame_same _ rfl u f) frames s)

theorem slotSettled_keeps (s : State) (done : List DownDone) (frames : List PulseIn) (lost : List Nat) :
    (s.slotSettled done frames lost).except 34393300993 = s.except 34393300993 :=
  (State.noteLost_same _ rfl _ lost).trans
    ((foldl_keeps (g := State.except 34393300993) (fun u f => State.nodeFrame_same _ rfl u f) frames _).trans
      (State.downsDone_same _ rfl s done))

/-! ### The decision on a slot in which nothing is sent (R345, R347) -/

theorem bestTwo_lt {c : List Nat} (h : ∀ x ∈ c, x < 65536) : (bestTwo c).1 < 4 ∧ (bestTwo c).2.1 < 65536 := by
  have largest : ∀ (l : List Nat) (m : Nat), m < 65536 → (∀ x ∈ l, x < 65536) → l.foldl max m < 65536 := by
    intro l
    induction l with
    | nil => exact fun m hm _ => hm
    | cons x r ih =>
      exact fun m hm hl => ih _ (Nat.max_lt.mpr ⟨hm, hl x List.mem_cons_self⟩) fun y hy => hl y
        (List.mem_cons_of_mem _ hy)
  refine ⟨?_, largest c 0 (by decide) h⟩
  unfold bestTwo
  dsimp only
  generalize found : ((List.range 4).find? fun i => c.getD i 0 == c.foldl max 0) = p
  cases p with
  | none => decide
  | some i => exact List.mem_range.mp (List.mem_of_find?_eq_some found)

theorem decideSymbol_lt (s : State) {c : List Nat} (h : ∀ x ∈ c, x < 65536) :
    (s.decideSymbol c).1 < 4 ∧ (s.decideSymbol c).2.1 < 4 ∧ (s.decideSymbol c).2.2 < 65536 := by
  obtain ⟨place, most⟩ := bestTwo_lt h
  refine ⟨?_, place, most⟩
  unfold State.decideSymbol
  dsimp only
  split
  · decide
  · split <;> decide

theorem rd_takeSlot {g : Fld} (hg : g ∈ [PLP_LASTC, PLP_LASTP, PLP_LASTK]) (s : State) (k d c stamp : Nat) :
    (s.takeSlot k d c stamp).2.rd g = s.rd g := by
  have free : ∀ g ∈ [PLP_LASTC, PLP_LASTP, PLP_LASTK], PLP_ERSN.free g = true ∧ PLP_CRCN.free g = true ∧ PLP_FRMN.free
    g = true ∧
      (IRQ_RAW 0x0B4).free g = true := by decide
  obtain ⟨erased, bad, good, raised⟩ := free g hg
  have taken (f : PlpStream → PlpStream) : (s.setStream k f).rd g = s.rd g :=
    rd_of_except (State.setStream_same 16777216 rfl s k f) rfl g
  have counted (b : Bool) (f : PlpStream → PlpStream) :
      (if b then (s.setStream k f).count PLP_ERSN else s.setStream k f).rd g = s.rd g := by
    split
    · rw [rd_count_free erased, taken]
    · exact taken f
  unfold State.takeSlot
  dsimp only
  split
  · rw [rd_raise_free raised, rd_count_free bad, counted]
  · rw [rd_raise_free raised, rd_count_free good, counted]
  · exact counted _ _

/-- The eighth dibit of the sync opens a frame. -/
theorem take_opens {x : PlpStream} (hf : x.frame = none) {d : Nat}
    (hs : (x.recent.drop (x.recent.length - 7)).map (·.1) ++ [d] = syncDibits) (n c stamp : Nat) (held : Bool) :
    (x.take n d c stamp held).1.frame.isSome = true := by
  have last : ((x.recent ++ [(d, c, stamp, held)]).drop ((x.recent ++ [(d, c, stamp, held)]).length - 8)).map (·.1) =
    syncDibits := by
    have short : (x.recent ++ [(d, c, stamp, held)]).length - 8 = x.recent.length - 7 := by
      rw [List.length_append, List.length_singleton]
      omega
    rw [short, List.drop_append_of_le_length (by omega), List.map_append, ← hs]
    rfl
  unfold PlpStream.take
  rw [hf]
  dsimp only
  rw [if_pos last]
  rfl

theorem frame_takeSlot (s : State) (k d c stamp : Nat) :
    ((s.takeSlot k d c stamp).2.plpStream k).frame =
      ((s.plpStream k).take k d c stamp (s.ctfSt == ctfFlywheel)).1.frame := by
  have registers (u : State) (f : Fld) (p b : Nat) : ((u.count f).raise p b).plpStream k = u.plpStream k :=
    plpStream_except ((State.raise_same 1 rfl _ _ _).trans (State.count_same 1 rfl _ _ _)) rfl k
  have counted (b : Bool) (u : State) : (if b then u.count PLP_ERSN else u).plpStream k = u.plpStream k := by
    split
    · exact plpStream_except (State.count_same 1 rfl _ _ _) rfl k
    · rfl
  unfold State.takeSlot
  dsimp only
  split
  all_goals
    simp only [registers, counted, plpStream_setStream_same]
    split <;> rfl

section
variable {s : State} {n : Fin 256} {e : Nat} (he : e = s.activeEntry n.val) (hp : s.on PLP_EN = true)
  (hd : s.slotsDecided = true) (hn : entEn e = true) (hc : entCons e = 2) (hs : entSig e = 0)
    (hu : usableWindow e = true)
include he hp hd hn hc hs hu

/-- A usable slot in which nothing is sent is decided. -/
theorem decideSlot_decides (c : List Nat) (hq : ∀ k ∈ s.slotStreams n.val, s.downSlot k = none) :
    ∃ stamp, s.decideSlot n.val c =
      (s.slotStreams n.val).foldl (fun x k =>
        let r := x.2.2.takeSlot k (if (s.decideSymbol c).1 = 0 then (s.decideSymbol c).2.1 else 4)
          (s.decideSymbol c).2.2 stamp
        (x.1 ++ r.1, x.2.1, r.2)) ([], [], ((((s.wr PLP_LASTC ((s.decideSymbol c).2.2 % 65536)).wr PLP_LASTP
          (s.decideSymbol c).2.1).wr PLP_LASTK (s.decideSymbol c).1).wr PLP_LASTS
            ((s.slotStreams n.val).headD 0))) := by
  subst he
  have quiet : ¬ ((s.slotStreams n.val).any fun k => (s.downSlot k).isSome) = true := by
    simp only [List.any_eq_true, not_exists, not_and]
    intro k hk
    rw [hq k hk]
    decide
  unfold State.decideSlot
  dsimp only
  rw [if_neg (by rw [hp]; decide), if_neg (by simp [hd, hn, hc, hs, hu]), if_neg quiet]
  exact ⟨_, rfl⟩

theorem decideSlot_sends (c : List Nat) {k : Nat} (hk : s.slotStreams n.val = [k]) {y : List Nat × Nat}
    (hy : s.downSlot k = some y) :
    s.decideSlot n.val c = ([], (s.sendSlot k (s.anchorChannel (entAnch e)) y).1.toList,
      (s.sendSlot k (s.anchorChannel (entAnch e)) y).2) := by
  subst he
  unfold State.decideSlot
  dsimp only
  rw [if_neg (by rw [hp]; decide), if_neg (by simp [hd, hn, hc, hs, hu]), hk, if_pos (by simp [hy])]
  simp only [List.foldl_cons, List.foldl_nil, hy, List.nil_append]

end

set_option autoImplicit false

/-- The slots of the streams taken in turn: the last decision stands, nothing is completed. -/
theorem foldl_takeSlot (d c stamp : Nat) (l : List Nat) (x : List PulseIn × List DownDone × State) :
    let t := l.foldl (fun x k =>
      let r := x.2.2.takeSlot k d c stamp
      (x.1 ++ r.1, x.2.1, r.2)) x
    t.2.1 = x.2.1 ∧ ∀ g ∈ [PLP_LASTC, PLP_LASTP, PLP_LASTK], t.2.2.rd g = x.2.2.rd g := by
  induction l generalizing x with
  | nil => exact ⟨rfl, fun _ _ => rfl⟩
  | cons k r ih =>
    obtain ⟨done, words⟩ := ih (x.1 ++ (x.2.2.takeSlot k d c stamp).1, x.2.1, (x.2.2.takeSlot k d c stamp).2)
    exact ⟨done, fun g hg => (words g hg).trans (rd_takeSlot hg _ _ _ _ _)⟩

theorem slotDecided_answers {s : State} {n : Fin 256} {c0 c1 c2 c3 : BitVec 16} {e : Nat} {v : Nat × Nat × Nat}
    (he : e = s.activeEntry n.val) (hv : v = s.decideSymbol ([c0, c1, c2, c3].map (·.toNat))) (hp : s.on PLP_EN = true)
    (hd : s.slotsDecided = true) (hn : entEn e = true) (hc : entCons e = 2) (hs : entSig e = 0)
      (hu : usableWindow e = true)
    (hq : ∀ k ∈ s.slotStreams n.val, s.downSlot k = none) :
    Answers (.pulseSlotDecide n c0 c1 c2 c3) s fun t =>
      t.rd PLP_LASTC = v.2.2 ∧ t.rd PLP_LASTP = v.2.1 ∧ t.rd PLP_LASTK = v.1 ∧
      ∀ k, s.slotStreams n.val = [k] → (s.plpStream k).frame = none → v.1 = 0 →
        ((s.plpStream k).recent.drop ((s.plpStream k).recent.length - 7)).map (·.1) ++ [v.2.1] = syncDibits →
        (t.plpStream k).frame.isSome = true := by
  obtain ⟨stamp, decided⟩ := decideSlot_decides he hp hd hn hc hs hu ([c0, c1, c2, c3].map (·.toNat)) hq
  obtain ⟨lost, command⟩ := pulseSlotDecide_eq s n c0 c1 c2 c3
  have words : ∀ x ∈ [c0, c1, c2, c3].map (·.toNat), x < 65536 := by
    intro x hx
    obtain ⟨b, -, rfl⟩ := List.mem_map.mp hx
    exact b.isLt
  obtain ⟨kind, place, most⟩ := decideSymbol_lt s words
  rw [← hv] at decided kind place most
  rw [Nat.mod_eq_of_lt most] at decided
  generalize hw : (((s.wr PLP_LASTC v.2.2).wr PLP_LASTP v.2.1).wr PLP_LASTK v.1).wr PLP_LASTS
    ((s.slotStreams n.val).headD 0) = u
    at decided
  obtain ⟨done, last⟩ := foldl_takeSlot (if v.1 = 0 then v.2.1 else 4) v.2.2 stamp (s.slotStreams n.val) ([], [], u)
  rw [← decided] at done last
  dsimp only at done
  rw [done] at command
  have shown {g : Fld} (hg : g ∈ [PLP_LASTC, PLP_LASTP, PLP_LASTK]) :
      ((s.decideSlot n.val ([c0, c1, c2, c3].map (·.toNat))).2.2.slotSettled []
        (s.decideSlot n.val ([c0, c1, c2, c3].map (·.toNat))).1 lost).rd g = u.rd g :=
    (rd_of_except (slotSettled_delivers _ _ _) rfl g).trans (last g hg)
  refine ⟨_, command, ?_, ?_, ?_, fun k hk hf h0 hsync => ?_⟩
  · rw [shown (by simp), ← hw, rd_wr_free (by decide), rd_wr_free (by decide), rd_wr_free (by decide), rd_wr_lt rfl
      most]
  · rw [shown (by simp), ← hw, rd_wr_free (by decide), rd_wr_free (by decide), rd_wr_lt rfl place]
  · rw [shown (by simp), ← hw, rd_wr_free (by decide), rd_wr_lt rfl kind]
  · have stream : u.plpStream k = s.plpStream k := by
      rw [← hw]
      exact plpStream_except ((State.wr_same 1 rfl _ _ _).trans ((State.wr_same 1 rfl _ _ _).trans
        ((State.wr_same 1 rfl _ _ _).trans (State.wr_same 1 rfl _ _ _)))) rfl k
    rw [plpStream_except (slotSettled_delivers _ _ _) rfl, decided, hk]
    simp only [List.foldl_cons, List.foldl_nil, h0, if_true]
    rw [frame_takeSlot, stream]
    exact take_opens hf hsync _ _ _ _

/-! ### The slot of a downlink (R347, R348) -/

theorem sendSlot_sends (s : State) (k chan d x : Nat) (l : List Nat) :
    (s.sendSlot k chan (d :: l, x)).2.out = s.out ++ [⟨.pulse, [(chan - 1) / 3 + 1, (chan - 1) % 3 + 1, d]⟩] ∧
    (l ≠ [] → ((s.sendSlot k chan (d :: l, x)).2.plpStream k).send = some (l, x + 1)) ∧
    (l = [] → (s.plpStream k).queued ≠ none → ((s.sendSlot k chan (d :: l, x)).2.plpStream k).send = none) := by
  let p := s.pulse chan d
  let b := if (p.plpStream k).frame.isSome then (p.count PLP_BRKN).raise 0x0B4 2 else p
  let u := b.setStream k fun x' => { x'.ackPass with frame := none, recent := [], send := some (l, x + 1) }
  have sent : s.sendSlot k chan (d :: l, x) = if l = [] then u.endDownlink k .ok else (none, u) := rfl
  have broken : b.except 1 = p.except 1 := by
    dsimp only [b]
    split
    · exact (State.raise_same 1 rfl _ _ _).trans (State.count_same 1 rfl _ _ _)
    · rfl
  have out : u.out = s.out ++ [⟨.pulse, [(chan - 1) / 3 + 1, (chan - 1) % 3 + 1, d]⟩] :=
    (part_of_except (State.setStream_same 16777216 rfl _ _ _) .out rfl).trans (part_of_except broken .out rfl)
  have stream : (u.plpStream k).send = some (l, x + 1) ∧ (u.plpStream k).queued = (s.plpStream k).queued := by
    have before : b.plpStream k = s.plpStream k := plpStream_except broken rfl k
    dsimp only [u]
    rw [plpStream_setStream_same, before]
    exact ⟨rfl, rfl⟩
  rw [sent]
  refine ⟨?_, fun hl => ?_, fun hl hq => ?_⟩
  · split
    · exact (part_of_except (State.endDownlink_same 16777217 rfl _ _ _) .out rfl).trans out
    · exact out
  · rw [if_neg hl]
    exact stream.1
  · rw [if_pos hl]
    unfold State.endDownlink
    dsimp only
    rw [stream.2]
    split
    · next none => exact absurd none hq
    · dsimp only
      have ended (v : State) : ((v.setStream k fun x => { x with queued := none, send := none }).plpStream k).send =
        none := by
        rw [plpStream_setStream_same]
      rw [if_pos rfl, plpStream_except ((State.count_same 1 rfl _ _ _).trans (State.raise_same 1 rfl _ _ _)) rfl]
      exact ended u

theorem slotSent_answers {s : State} {n : Fin 256} {c0 c1 c2 c3 : BitVec 16} {e k d x : Nat} {l : List Nat}
    (he : e = s.activeEntry n.val) (hp : s.on PLP_EN = true) (hd : s.slotsDecided = true) (hn : entEn e = true)
    (hc : entCons e = 2) (hs : entSig e = 0) (hu : usableWindow e = true) (hk : s.slotStreams n.val = [k])
    (hy : s.downSlot k = some (d :: l, x)) :
    Answers (.pulseSlotDecide n c0 c1 c2 c3) s fun t =>
      t.out = s.out ++ [⟨.pulse, [(s.anchorChannel (entAnch e) - 1) / 3 + 1, (s.anchorChannel (entAnch e) - 1) % 3 + 1,
        d]⟩] ∧
      (l ≠ [] → (t.plpStream k).send = some (l, x + 1)) ∧
      (l = [] → (s.plpStream k).queued ≠ none → (t.plpStream k).send = none) := by
  obtain ⟨lost, command⟩ := pulseSlotDecide_eq s n c0 c1 c2 c3
  rw [decideSlot_sends he hp hd hn hc hs hu _ hk hy] at command
  obtain ⟨out, going, ended⟩ := sendSlot_sends s k (s.anchorChannel (entAnch e)) d x l
  have kept := slotSettled_keeps (s.sendSlot k (s.anchorChannel (entAnch e)) (d :: l, x)).2
    (s.sendSlot k (s.anchorChannel (entAnch e)) (d :: l, x)).1.toList [] lost
  refine ⟨_, command, (part_of_except kept .out rfl).trans out, fun hl => ?_, fun hl hq => ?_⟩
  · rw [plpStream_except kept rfl]
    exact going hl
  · rw [plpStream_except kept rfl]
    exact ended hl hq

/-! ### Downlinks (R348, R366, R383) -/

theorem endNodeDown_ends (s : State) (ref : Nat) (c : Status) (hops : Nat) :
    ∀ x ∈ (s.endNodeDown ref c hops).plm.downs, x.ref ≠ ref := by
  have recorded (u : State) (e w : Nat) : (u.epRecord e w).plm.downs = u.plm.downs := by
    unfold State.epRecord
    split
    · rfl
    split
    · rfl
    · rw [part_of_except (State.epPut_same 34359738368 rfl u e w) .plm rfl]
  have filtered (l : List NodeDown) : ∀ x ∈ l.filter (·.ref != ref), x.ref ≠ ref := fun x hx =>
    bne_iff_ne.mp (List.mem_filter.mp hx).2
  unfold State.endNodeDown
  split
  · next missing =>
    intro x hx e
    have lacks := List.find?_eq_none.mp missing x hx
    rw [e] at lacks
    exact lacks (beq_self_eq_true _)
  · dsimp only
    split
    · exact filtered _
    · rw [recorded, part_of_except (State.outcome_same 8193 rfl _ _ _ _ _) .plm rfl]
      exact filtered _

theorem downlinkRequest_answers {s : State} {k : Fin 64} {d : NodeDown}
    (hf : (s.plm.downs.find? fun d => d.stream == k.val && !d.given) = some d) :
    (s.level < 3 → s.on PLP_DLEN = true →
      (s.downRepeater k.val = none → (s.plpStream k.val).queued = none →
        Answers (.downlinkRequest k) s fun t =>
          (t.plpStream k.val).queued = some ⟨d.data, s.stamp.cyc, d.ref⟩ ∧ SameBut [.plm, .plp] s t) ∧
      (∀ (peer : Nat) (n : NodeEntry), s.downRepeater k.val = some (peer, n) →
        Answers (.downlinkRequest k) s fun t =>
          SameBut [.plm] s t ∧ ∃ f : TxFrame, t.plm.queue = s.plm.queue ++ [f] ∧ f.fdst = peer ∧ f.type = 4 ∧
            f.down = some d.ref ∧ f.data = leBytes 8 n.eui ++ d.data)) ∧
    (3 ≤ s.level → Answers (.downlinkRequest k) s fun t => ∀ x ∈ t.plm.downs, x.ref ≠ d.ref) := by
  refine ⟨fun hl he => ⟨fun hr hq => ?_, fun peer n hr => ?_⟩, fun hl => ?_⟩
  · refine ⟨((s.setPlm fun p => { p with downs := p.downs.map fun x => if x.ref = d.ref then
      { x with given := true } else x
      }).setStream k.val fun x => { x with queued := some ⟨d.data, s.stamp.cyc, d.ref⟩ }), ?_, ?_, sameBut_of_except ?_⟩
    · change execDownlinkRequest k s = _
      unfold execDownlinkRequest
      dsimp only
      rw [hf]
      dsimp only
      rw [if_neg (by simp only [he, Bool.true_eq_false, or_false]; omega), hr]
      dsimp only
      rw [if_neg (by rw [hq]; decide)]
    · rw [plpStream_setStream_same]
    · exact (State.setStream_same _ rfl _ _ _).trans (State.setPlm_same _ rfl s _)
  · refine ⟨((s.setPlm fun p => { p with downs := p.downs.map fun x => if x.ref = d.ref then
      { x with given := true } else x
      }).sendRelay peer n.nid 2 n.eui d.data (some d.ref)), ?_, sameBut_of_except ?_, ⟨_, rfl, rfl, rfl, rfl, rfl⟩⟩
    · change execDownlinkRequest k s = _
      unfold execDownlinkRequest
      dsimp only
      rw [hf]
      dsimp only
      rw [if_neg (by simp only [he, Bool.true_eq_false, or_false]; omega), hr]
    · exact (State.sendRelay_same _ rfl _ _ _ _ _ _ _).trans (State.setPlm_same _ rfl s _)
  · refine ⟨(s.raise 0x0B4 1).endNodeDown d.ref .skipped 0, ?_, endNodeDown_ends _ _ _ _⟩
    change execDownlinkRequest k s = _
    unfold execDownlinkRequest
    dsimp only
    rw [hf]
    dsimp only
    rw [if_pos (.inl hl)]

theorem downlinkTimeout_answers {s : State} {k : Fin 64} {d : Downlink} (hq : (s.plpStream k.val).queued = some d)
    (hs : (s.plpStream k.val).send = none) (hc : d.cyc + s.rd PLP_DLWAIT ≤ s.stamp.cyc) :
    Answers (.downlinkTimeout k) s fun t => (t.plpStream k.val).queued = none ∧ ∀ x ∈ t.plm.downs, x.ref ≠ d.ref := by
  let u := (s.setStream k.val fun x => { x with queued := none, send := none }).raise 0x0B4 1
  have ended : s.endDownlink k.val .timeout = (some ⟨d.ref, .timeout, 0⟩, u) := by
    unfold State.endDownlink
    dsimp only
    rw [hq]
    dsimp only
    rw [hs]
    rfl
  have command : exec (.downlinkTimeout k) s = .next (u.endNodeDown d.ref .timeout 0) := by
    change execDownlinkTimeout k s = _
    unfold execDownlinkTimeout
    dsimp only
    rw [hq]
    dsimp only
    rw [if_neg (by rw [hs]; simp; omega), ended]
    rfl
  refine ⟨_, command, ?_, endNodeDown_ends _ _ _ _⟩
  rw [plpStream_except (State.endNodeDown_same 34393300993 rfl u _ _ _) rfl,
    plpStream_except (State.raise_same 1 rfl _ _ _) rfl, plpStream_setStream_same]

/-- Settles O35: the decision of a slot, its pulse, and the downlinks; that a downlink of a node with a repeater goes to
the repeater, under the node's EUI, is the model's choice (log entries 24 and 114). -/
theorem pulseSlotsComplete : Obligations.PulseSlotsComplete := by
  unfold Obligations.PulseSlotsComplete
  exact ⟨fun s n c0 c1 c2 c3 e v he hv hp hd hn hc hs hu =>
      ⟨fun hq => slotDecided_answers he hv hp hd hn hc hs hu hq,
        fun k d x l hk hy => slotSent_answers he hp hd hn hc hs hu hk hy⟩,
    fun s k d hf => downlinkRequest_answers hf, fun s k d hq hs hc => downlinkTimeout_answers hq hs hc⟩

end Sys2Proof.Machine

/-! ## The powerline MAC (O36) -/

namespace Sys2Proof.Machine

open Reg

set_option autoImplicit false

/-! ### The ring of an endpoint while a descriptor is taken -/

/-- A tone frame is refused, or queued with its cost taken from the quota. -/
theorem toneTd_cases (s : State) (e w : Nat) :
    (∃ c, s.toneTd e w = s.refuseTd e w c) ∨ ∃ r t n f, s.toneTd e w = (s.quotaPut r t n).enqueue f := by
  unfold State.toneTd
  extract_lets t fdst hop p ack
  split
  · exact Or.inl ⟨_, rfl⟩
  · extract_lets lens cost
    split
    · exact Or.inl ⟨_, rfl⟩
    · split
      · exact Or.inl ⟨_, rfl⟩
      next taken =>
        unfold State.takeQuota at taken
        split at taken
        · exact absurd taken (by simp)
        · obtain rfl := Option.some.inj taken
          exact Or.inr ⟨_, _, _, _, rfl⟩

section
variable {g : Fld} (hk : g.key + 4 ≤ 0x300000) (hg : g.lo + g.width ≤ 32)
include hk hg

theorem rd_refuseTd (s : State) (e w : Nat) (c : Status) : (s.refuseTd e w c).rd g = s.rd g := by
  rw [State.refuseTd, rd_of_except (State.epRecord_same 34393292800 rfl _ _ _) rfl, rd_outcome_low hk hg]

theorem rd_nodeTd (s : State) (e w : Nat) : (s.nodeTd e w).rd g = s.rd g := by
  unfold State.nodeTd
  split
  · exact rd_refuseTd hk hg s e w _
  · split
    · exact rd_refuseTd hk hg s e w _
    · exact rd_of_except (State.nodeDownlink_same 33554432 rfl _ _ _ _ _ _) rfl g

theorem rd_toneTd (s : State) (e w : Nat) : (s.toneTd e w).rd g = s.rd g := by
  obtain ⟨c, refused⟩ | ⟨r, t, n, f, queued⟩ := toneTd_cases s e w
  · rw [refused, rd_refuseTd hk hg]
  · rw [queued, rd_of_except (State.enqueue_same 33554432 rfl _ _) rfl, rd_quotaPut_low hk hg]

theorem rd_takeTd (s : State) (e : Nat) : (s.takeTd e).rd g = s.rd g := by
  unfold State.takeTd
  dsimp only
  rw [rd_of_except (State.store_same 34359738368 rfl _ _ _) rfl]
  split
  · exact rd_refuseTd hk hg s e _ _
  · split
    · exact rd_nodeTd hk hg s e _
    · exact rd_toneTd hk hg s e _

end

/-- The registers of an endpoint lie below the context pages. -/
theorem endpoint_low (e : Fin 128) (o lo w : Nat) (ho : o < 0x130) :
    (⟨0x0BA + e.val / 64, o + 48 * (e.val % 64), lo, w⟩ : Fld).key + 4 ≤ 0x300000 := by
  simp only [Fld.key, regKey]
  omega

theorem epRing_of_rd {s t : State} (e : Fin 128)
    (h : ∀ g : Fld, g.key + 4 ≤ 0x300000 → g.lo + g.width ≤ 32 → t.rd g = s.rd g) :
    t.epRing e.val = s.epRing e.val := by
  have field (o lo w : Nat) (ho : o < 0x130) (hw : lo + w ≤ 32) :
      t.rd ⟨0x0BA + e.val / 64, o + 48 * (e.val % 64), lo, w⟩ =
      s.rd ⟨0x0BA + e.val / 64, o + 48 * (e.val % 64), lo, w⟩ := h _ (endpoint_low e o lo w ho) hw
  unfold State.epRing PLM_EP_RBL PLM_EP_RBH PLM_EP_TL PLM_EP_CL PLM_EP_RL
  simp only [field 0x100 6 26 (by decide) (by decide), field 0x104 0 8 (by decide) (by decide),
    field 0x108 0 4 (by decide) (by decide), field 0x108 4 4 (by decide) (by decide),
    field 0x108 8 4 (by decide) (by decide)]

/-! ### The indices of the ring -/

theorem ringIdx_epPut (s : State) (e w : Nat) {a : Nat} (h : a + 2 ≤ (s.epRing e).base + 0x08) :
    (s.epPut e w).ringIdx a = s.ringIdx a := by
  unfold State.epPut
  dsimp only
  rw [State.ringIdx, memNat_store_other _ (by omega), memNat_store_other _ (by rw [EpRing.comp]; omega), State.ringIdx]

theorem ringIdx_epRecord (s : State) (e w : Nat) {a : Nat} (h : a + 2 ≤ (s.epRing e).base + 0x08) :
    (s.epRecord e w).ringIdx a = s.ringIdx a := by
  unfold State.epRecord
  split
  · rfl
  · split
    · rfl
    · exact ringIdx_epPut s e w h

theorem ringIdx_refuseTd (s : State) (e : Fin 128) (w : Nat) (c : Status) {a : Nat}
    (h : a + 2 ≤ (s.epRing e.val).base + 0x08) : (s.refuseTd e.val w c).ringIdx a = s.ringIdx a := by
  have ring : (s.outcome (s.epOwner e.val) resAir c (tdItem w)).epRing e.val = s.epRing e.val :=
    epRing_of_rd e fun g hk hg => rd_outcome_low hk hg s _ _ _ _
  rw [State.refuseTd, ringIdx_epRecord _ _ _ (by rw [ring]; exact h), State.ringIdx,
    memNat_of_mem (part_of_except (State.outcome_same 8193 rfl _ _ _ _ _) .mem rfl), State.ringIdx]

theorem ringIdx_nodeTd (s : State) (e : Fin 128) (w : Nat) {a : Nat}
    (h : a + 2 ≤ (s.epRing e.val).base + 0x08) : (s.nodeTd e.val w).ringIdx a = s.ringIdx a := by
  unfold State.nodeTd
  split
  · exact ringIdx_refuseTd s e w _ h
  · split
    · exact ringIdx_refuseTd s e w _ h
    · exact memNat_of_mem (part_of_except (State.nodeDownlink_same 33554432 rfl _ _ _ _ _ _) .mem rfl) a 2

theorem ringIdx_toneTd (s : State) (e : Fin 128) (w : Nat) {a : Nat}
    (h : a + 2 ≤ (s.epRing e.val).base + 0x08) : (s.toneTd e.val w).ringIdx a = s.ringIdx a := by
  obtain ⟨c, refused⟩ | ⟨r, t, n, f, queued⟩ := toneTd_cases s e.val w
  · rw [refused, ringIdx_refuseTd s e w c h]
  · rw [queued]
    exact memNat_of_mem ((part_of_except (State.enqueue_same 33554432 rfl _ _) .mem rfl).trans
      (part_of_except (State.quotaPut_same 8193 rfl _ _ _ _) .mem rfl)) a 2

/-- Taking a descriptor moves the tail index by one and leaves the head. -/
theorem takeTd_indices (s : State) (e : Fin 128) :
    (s.takeTd e.val).ringIdx ((s.epRing e.val).base + 0x04) =
      (s.ringIdx ((s.epRing e.val).base + 0x04) + 1) % 65536 ∧
    (s.takeTd e.val).ringIdx (s.epRing e.val).base = s.ringIdx (s.epRing e.val).base := by
  unfold State.takeTd
  dsimp only
  refine ⟨?_, ?_⟩
  · rw [State.ringIdx, memNat_store_same]
    omega
  · rw [State.ringIdx, memNat_store_other _ (by omega)]
    split
    · exact ringIdx_refuseTd s e _ _ (by omega)
    · split
      · exact ringIdx_nodeTd s e _ (by omega)
      · exact ringIdx_toneTd s e _ (by omega)

/-- One new descriptor is the only one taken. -/
theorem takeTds_one {s : State} {e : Fin 128} (hh : ∀ h ∈ s.plm.held, h.key ≠ e.val)
    (h1 : (s.ringIdx ((s.epRing e.val).base + 0x04) + 1) % 65536 = s.ringIdx (s.epRing e.val).base) :
    State.takeTds e.val 256 s = s.takeTd e.val := by
  obtain ⟨tail, head⟩ := takeTd_indices s e
  have ring : (s.takeTd e.val).epRing e.val = s.epRing e.val := epRing_of_rd e fun g hk hg => rd_takeTd hk hg s _
  have small := ringIdx_lt s ((s.epRing e.val).base + 0x04)
  have free : ¬s.plm.held.any (·.key == e.val) = true := by
    simpa using hh
  rw [State.takeTds, if_neg (by rintro (same | held); · omega
                                · exact free held), State.takeTds, if_pos (Or.inl (by rw [ring, tail, head, h1]))]

theorem epRelease_none {s : State} {e : Nat} (hh : ∀ h ∈ s.plm.held, h.key ≠ e) (n : Nat) :
    State.epRelease e (n + 1) s = s := by
  rw [State.epRelease, List.find?_eq_none.mpr (by simpa using hh)]

/-- The fault bit of an endpoint stands apart from its ring registers. -/
theorem epRing_wr_rfault (s : State) (e : Fin 128) (v : Nat) :
    (s.wr (PLM_EP_RFAULT (e.val / 64) (e.val % 64)) v).epRing e.val = s.epRing e.val := by
  have field (o lo w : Nat) (ho : o + 4 ≤ 0x128) (hw : lo + w ≤ 32) :
      (s.wr (PLM_EP_RFAULT (e.val / 64) (e.val % 64)) v).rd ⟨0x0BA + e.val / 64, o + 48 * (e.val % 64), lo, w⟩ =
      s.rd ⟨0x0BA + e.val / 64, o + 48 * (e.val % 64), lo, w⟩ := by
    have apart : (PLM_EP_RFAULT (e.val / 64) (e.val % 64)).free ⟨0x0BA + e.val / 64, o + 48 * (e.val % 64), lo, w⟩ =
        true := free_of_off rfl (show 1 ≤ 32 by decide) hw (Or.inr (by simp only [PLM_EP_RFAULT]; omega))
    exact rd_wr_free apart s v
  unfold State.epRing PLM_EP_RBL PLM_EP_RBH PLM_EP_TL PLM_EP_CL PLM_EP_RL
  simp only [field 0x100 6 26 (by decide) (by decide), field 0x104 0 8 (by decide) (by decide),
    field 0x108 0 4 (by decide) (by decide), field 0x108 4 4 (by decide) (by decide),
    field 0x108 8 4 (by decide) (by decide)]

/-- A poll of a ring with one new descriptor takes it. -/
theorem plmRingPoll_takes {s : State} {e : Fin 128} (hp : s.on PLM_EN = true) (he : s.epOn e.val = true)
    (hl : s.level < 3)
    (hs : s.plm.stopped.contains e.val = false) (hu : s.epUsable e.val = true)
    (hh : ∀ h ∈ s.plm.held, h.key ≠ e.val)
    (h1 : (s.ringIdx ((s.epRing e.val).base + 0x04) + 1) % 65536 = s.ringIdx (s.epRing e.val).base) :
    Answers (.plmRingPoll e) s fun t =>
      t.ringIdx ((s.epRing e.val).base + 0x04) = s.ringIdx (s.epRing e.val).base ∧
      t.on (PLM_EP_RFAULT (e.val / 64) (e.val % 64)) = false := by
  have small := ringIdx_lt s ((s.epRing e.val).base + 0x04)
  have one : (s.ringIdx (s.epRing e.val).base + 65536 - s.ringIdx ((s.epRing e.val).base + 0x04)) % 65536 = 1 := by
    omega
  have command : exec (.plmRingPoll e) s =
      .next ((s.wr (PLM_EP_RFAULT (e.val / 64) (e.val % 64)) 0).takeTd e.val) := by
    have ring := epRing_wr_rfault s e 0
    change execPlmRingPoll e s = _
    unfold execPlmRingPoll
    dsimp only
    rw [if_neg (by rw [hp, he, hs, decide_eq_false (by omega)]; decide), one, hu,
      if_neg (by simp), epRelease_none (s := s.wr (PLM_EP_RFAULT (e.val / 64) (e.val % 64))
        0) hh 255,
      takeTds_one (s := s.wr (PLM_EP_RFAULT (e.val / 64) (e.val % 64)) 0) hh (by rw [ring]; exact h1)]
  obtain ⟨tail, -⟩ := takeTd_indices (s.wr (PLM_EP_RFAULT (e.val / 64) (e.val % 64)) 0) e
  refine ⟨_, command, ?_, ?_⟩
  · rw [epRing_wr_rfault] at tail
    exact tail.trans h1
  · rw [State.on, rd_takeTd (g := PLM_EP_RFAULT (e.val / 64) (e.val % 64)) (endpoint_low e 0x128 0 1 (by decide))
      (show 0 + 1 ≤ 32 by decide), rd_wr_lt rfl (show 0 < 2 ^ 1 by decide)]
    rfl

/-- A ring outside the windows, or with too many new descriptors, faults once. -/
theorem plmRingPoll_faults {s : State} {e : Fin 128} (hp : s.on PLM_EN = true) (he : s.epOn e.val = true)
    (hl : s.level < 3)
    (hs : s.plm.stopped.contains e.val = false)
    (hbad : s.epUsable e.val = false ∨ 2 ^ (s.epRing e.val).tl < (s.ringIdx (s.epRing e.val).base + 65536 -
        s.ringIdx ((s.epRing e.val).base + 0x04)) % 65536)
    (hf : s.on (PLM_EP_RFAULT (e.val / 64) (e.val % 64)) = false) :
    Answers (.plmRingPoll e) s fun t =>
      t.on (PLM_EP_RFAULT (e.val / 64) (e.val % 64)) = true ∧
      Logged s t 0x5007 (s.epOwner e.val) (1 + e.val * 2 ^ 8) ∧ SameBut [.regs, .events] s t := by
  have command : exec (.plmRingPoll e) s = .next ((s.wr (PLM_EP_RFAULT (e.val / 64) (e.val % 64)) 1).log 0x5007
      (s.epOwner e.val) (1 + e.val * 2 ^ 8)) := by
    change execPlmRingPoll e s = _
    unfold execPlmRingPoll
    dsimp only
    rw [if_neg (by rw [hp, he, hs, decide_eq_false (by omega)]; decide), if_pos (by simpa using hbad),
      if_neg (by rw [hf]; decide)]
  exact ⟨_, command, by rw [on_log]; exact on_wr_b2n rfl (show 0 < 1 by decide) _ true, rfl,
    sameBut_of_except ((State.log_same 257 rfl _ _ _ _).trans (State.wr_same 257 rfl _ _ _))⟩

set_option autoImplicit false

/-! ### ACCESS_SLOT (R357 to R361) -/

section
variable {s : State} {p : Fin 4} {k : Fin 16} {f : TxFrame} (hk : k.val < windowSlots p.val) (he : s.on PLM_EN = true)
  (ha : s.saddr ≠ 0) (hn : s.plm.attempt = none) (hx : s.plt.tx = none) (hf : s.nextFrame p.val = some f)
  (hb : s.on PLT_BANDC_EN = false)
include hk he ha hn hx hf hb

/-- A slot with a frame to send sends no frame whose latest time has passed. -/
theorem accessSlot_late (h2 : f.kind = 2) (hi : f.first = none) (hl : f.latest ≤ stampNat s.stamp) :
    Answers (.accessSlot p k) s fun t => t.plm.attempt = none ∧ ∀ x ∈ t.plm.queue, x.id ≠ f.id := by
  have turned : (s.serveTurn 2 f.cls f.tc).except 8193 = s.except 8193 := State.serveTurn_same 8193 rfl _ _ _ _
  have plm : (s.serveTurn 2 f.cls f.tc).plm = s.plm := part_of_except turned .plm rfl
  have command : exec (.accessSlot p k) s = .next ((s.serveTurn 2 f.cls f.tc).endFrame f .refusedPriority) := by
    change execAccessSlot p k s = _
    unfold execAccessSlot
    rw [if_neg (by simp [he, ha, hn, hx, hk]), hf]
    dsimp only
    rw [hb, if_neg Bool.false_ne_true, if_pos h2,
      if_pos ⟨h2, hi, by rw [State.stamp, part_of_except turned .ctf rfl]; exact hl⟩]
  refine ⟨_, command, ?_, fun x member => ?_⟩
  · rw [steady_attempt.endFrame, plm]
    exact attempt_without_none hn f
  · rw [steady_queue.endFrame, plm] at member
    simpa using (List.mem_filter.mp member).2

/-- A slot starts an attempt of a frame that can be sent now. -/
theorem accessSlot_starts (h2 : f.kind ≠ 2) (ho : s.toneOff = false) {hop : Option (Nat × Nat × Nat × Nat)} {nxt : Nat}
    {b : List Byte × Nat} (hh : s.hopFor f.fdst = some hop) (hN : nxt = (hop.map (·.2.2.2)).getD 0xFF)
    (hB : (s.buildSegment f nxt).1 = some b) :
    Answers (.accessSlot p k) s fun t => t.plm.attempt = some {
      frame := f.id, bytes := b.1, nxt := nxt, seq := b.2, ackReq := f.ackReq && nxt != 0xFF } := by
  have command : exec (.accessSlot p k) s =
      .next (((s.buildSegment f nxt).2.setFrame f.id fun g => { g with nxt := nxt }).setPlm fun x =>
        { x with attempt := some {
          frame := f.id, bytes := b.1, nxt := nxt, seq := b.2, ackReq := f.ackReq && nxt != 0xFF } }) := by
    change execAccessSlot p k s = _
    unfold execAccessSlot
    rw [if_neg (by simp [he, ha, hn, hx, hk]), hf]
    dsimp only
    rw [hb, if_neg Bool.false_ne_true, if_neg h2, if_neg (fun late => h2 late.1), ho, if_neg Bool.false_ne_true, hh]
    cases hop with
    | none =>
      obtain rfl : nxt = 0xFF := hN
      dsimp only
      rw [hB]
    | some r =>
      obtain rfl : nxt = r.2.2.2 := hN
      dsimp only
      rw [hB]
  exact ⟨_, command, rfl⟩

end

/-! ### ACK_TIMEOUT (R365, R366) -/

section
variable {s : State} {a : Attempt} {f : TxFrame} (ha : s.plm.attempt = some a) (hw : a.waits = true)
  (hf : s.plm.queue.find? (·.id == a.frame) = some f)
include ha hw

theorem ackTimeout_eq : exec .ackTimeout s = .next ((s.waitUntil (match s.plm.lastEnd with
    | some t => t + s.ackClocks * 65536
    | none => s.clk)).segmentFailed a) := by
  change execAckTimeout s = _
  unfold execAckTimeout
  rw [ha]
  dsimp only
  rw [if_pos hw] <;> rfl

omit ha hw in
/-- The segment's frame after the attempt has ended. -/
theorem find_closeAttempt (h : s.plm.queue.find? (·.id == a.frame) = some f) (u : State) (hu : u.plm = s.plm) :
    (u.closeAttempt a false).plm.queue.find? (·.id == a.frame) =
      some { f with occ := f.occ + (u.ticks - a.tick) } := by
  have id : f.id = a.frame := by simpa using List.find?_some h
  have kept : (fun g : TxFrame => g.id == a.frame) ∘ (fun g : TxFrame =>
      if g.id = a.frame then { g with occ := g.occ + (u.ticks - a.tick) } else g) = fun g => g.id == a.frame := by
    funext g
    dsimp only [Function.comp]
    split <;> rfl
  rw [(closeAttempt_plm u a false).2, List.find?_map, kept, hu, h, Option.map_some, if_pos id]

include hf

/-- An attempt that no acknowledgement ends is made again while tries are left. -/
theorem ackTimeout_retries (ht : f.tries < s.rd PLM_RETRY) :
    Answers .ackTimeout s fun t => t.plm.attempt = none ∧
      ∃ g, t.plm.queue.find? (·.id == a.frame) = some g ∧ g.tries = f.tries + 1 ∧ g.cur = f.cur := by
  have command := ackTimeout_eq ha hw
  generalize (match s.plm.lastEnd with
    | some t => t + s.ackClocks * 65536
    | none => s.clk) = e at command
  have plm : (s.waitUntil e).plm = s.plm := part_of_except (State.waitUntil_same 4289 rfl _ _) .plm rfl
  have found := find_closeAttempt hf (s.waitUntil e) plm
  have retry : ((s.waitUntil e).closeAttempt a false).rd PLM_RETRY = s.rd PLM_RETRY :=
    (rd_of_except (State.closeAttempt_same 33554432 rfl _ _ _) rfl _).trans
      (rd_of_past (State.waitUntil_past (P := [0x010]) rfl s e) (by decide))
  have id : f.id = a.frame := by simpa using List.find?_some hf
  have failed : (s.waitUntil e).segmentFailed a =
      ((s.waitUntil e).closeAttempt a false).setFrame f.id fun g => { g with tries := g.tries + 1 } := by
    unfold State.segmentFailed
    dsimp only
    rw [found]
    dsimp only
    rw [if_pos (by rw [retry]; exact ht)]
  have kept : (fun g : TxFrame => g.id == a.frame) ∘ (fun g : TxFrame =>
      if g.id = f.id then { g with tries := g.tries + 1 } else g) = fun g => g.id == a.frame := by
    funext g
    dsimp only [Function.comp]
    split <;> rfl
  rw [failed] at command
  refine ⟨_, command, (closeAttempt_plm (s.waitUntil e) a false).1,
    { f with occ := f.occ + ((s.waitUntil e).ticks - a.tick), tries := f.tries + 1 }, ?_, rfl, rfl⟩
  change (((s.waitUntil e).closeAttempt a false).plm.queue.map fun g =>
    if g.id = f.id then { g with tries := g.tries + 1 } else g).find? _ = _
  rw [List.find?_map, kept, found]
  simp

/-- The frame ends when its tries are used up. -/
theorem ackTimeout_ends (ht : s.rd PLM_RETRY ≤ f.tries) :
    Answers .ackTimeout s fun t => t.plm.attempt = none ∧ ∀ x ∈ t.plm.queue, x.id ≠ a.frame := by
  have command := ackTimeout_eq ha hw
  generalize (match s.plm.lastEnd with
    | some t => t + s.ackClocks * 65536
    | none => s.clk) = e at command
  have plm : (s.waitUntil e).plm = s.plm := part_of_except (State.waitUntil_same 4289 rfl _ _) .plm rfl
  have found := find_closeAttempt hf (s.waitUntil e) plm
  have retry : ((s.waitUntil e).closeAttempt a false).rd PLM_RETRY = s.rd PLM_RETRY :=
    (rd_of_except (State.closeAttempt_same 33554432 rfl _ _ _) rfl _).trans
      (rd_of_past (State.waitUntil_past (P := [0x010]) rfl s e) (by decide))
  have id : f.id = a.frame := by simpa using List.find?_some hf
  have failed : (s.waitUntil e).segmentFailed a = ((s.waitUntil e).closeAttempt a false).endFrame
      { f with occ := f.occ + ((s.waitUntil e).ticks - a.tick) } .timeout := by
    unfold State.segmentFailed
    dsimp only
    rw [found]
    dsimp only
    rw [if_neg (by rw [retry]; omega)]
  rw [failed] at command
  refine ⟨_, command, ?_, fun x member => ?_⟩
  · rw [steady_attempt.endFrame]
    exact attempt_without_none (closeAttempt_plm (s.waitUntil e) a false).1 _
  · rw [steady_queue.endFrame] at member
    have other : x.id ≠ f.id := by simpa using (List.mem_filter.mp member).2
    rwa [id] at other

end

/-! ### REASSEMBLY_TIMEOUT and JOIN_WINDOW_CLOSE (R364, R386) -/

theorem reassembly_counted (u : State) (n : Nat) :
    (u.count PLM_REASMN n).plm = u.plm ∧ (u.count PLM_REASMN n).rd PLM_REASMN = satNat 16 (u.rd PLM_REASMN + n) ∧
    (u.count PLM_REASMN n).except 33554433 = u.except 33554433 :=
  ⟨part_of_except (State.count_same 1 rfl _ _ _) .plm rfl, rd_count_same _ _ _ rfl, State.count_same 33554433 rfl _ _ _⟩

theorem reassemblyTimeout_answers (s : State) : Answers .reassemblyTimeout s fun t =>
    t.plm.reasm = s.plm.reasm.filter (fun r => s.stamp.cyc < r.cyc + 64) ∧
    t.rd PLM_REASMN = satNat 16 (s.rd PLM_REASMN +
      (s.plm.reasm.filter fun r => r.cyc + 64 ≤ s.stamp.cyc).length) ∧ SameBut [.regs, .plm] s t := by
  have command : exec .reassemblyTimeout s = .next ((s.setPlm fun p =>
      { p with reasm := p.reasm.filter fun r => s.stamp.cyc < r.cyc + 64 }).count PLM_REASMN
      (s.plm.reasm.filter fun r => r.cyc + 64 ≤ s.stamp.cyc).length) := rfl
  refine ⟨_, command, ?_, ?_, ?_⟩
  · rw [(reassembly_counted _ _).1]
    rfl
  · rw [(reassembly_counted _ _).2.1, rd_setPlm]
  · exact sameBut_of_except ((reassembly_counted _ _).2.2.trans (State.setPlm_same 33554433 rfl _ _))

/-- Flushing the schedule requests changes of the MAC's state their queue alone. -/
theorem plm_srqFlush (n : Nat) (s : State) : ∃ l, (State.srqFlush n s).plm = { s.plm with srq := l } := by
  induction n generalizing s with
  | zero => exact ⟨_, rfl⟩
  | succ n ih =>
    rw [State.srqFlush]
    split
    · exact ⟨_, rfl⟩
    · dsimp only
      split
      · exact ⟨_, rfl⟩
      next r l _ _ =>
        obtain ⟨m, hm⟩ := ih ((((s.wr (PLM_SRQ (s.rd PLM_SRQ_WR)) (r.word + (r.idx + r.stream * 2 ^ 8 +
          b2n r.remove * 2 ^ 16) * 2 ^ 64 + r.cyc % 2 ^ 32 * 2 ^ 96)).wr PLM_SRQ_WR
            ((s.rd PLM_SRQ_WR + 1) % 16)).setPlm fun p => { p with srq := l }))
        have kept : ((s.wr (PLM_SRQ (s.rd PLM_SRQ_WR)) (r.word + (r.idx + r.stream * 2 ^ 8 +
          b2n r.remove * 2 ^ 16) * 2 ^ 64 + r.cyc % 2 ^ 32 * 2 ^ 96)).wr PLM_SRQ_WR
            ((s.rd PLM_SRQ_WR + 1) % 16)).plm = s.plm :=
          part_of_except ((State.wr_same 1 rfl _ _ _).trans (State.wr_same 1 rfl _ _ _)) .plm rfl
        have noted (u : State) (f : PlmState → PlmState) : (u.setPlm f).plm = f u.plm := rfl
        exact ⟨m, by rw [hm, noted, kept]⟩

/-- A request that is posted is due. -/
theorem postSched_parts (s : State) (r : SchedReq) :
    (s.postSched r).plm.due = s.plm.due ++ [r] ∧ (s.postSched r).plm.joins = s.plm.joins ∧
    (s.postSched r).plm.joinEnd = s.plm.joinEnd := by
  obtain ⟨l, hl⟩ := plm_srqFlush 16 (s.setPlm fun p => { p with srq := p.srq ++ [r], due := p.due ++ [r] })
  rw [State.postSched, hl]
  exact ⟨rfl, rfl, rfl⟩

/-- An entry that is dropped is asked to be removed. -/
theorem dropEntry_parts (s : State) (entry stream : Nat) :
    (∃ r, r.idx = entry ∧ r.remove = true ∧ (s.dropEntry entry stream).plm.due = s.plm.due ++ [r]) ∧
    (s.dropEntry entry stream).plm.joins = s.plm.joins ∧ (s.dropEntry entry stream).plm.joinEnd = s.plm.joinEnd := by
  rw [State.dropEntry]
  obtain ⟨due, joins, ends⟩ := postSched_parts ((s.setPlm fun p =>
    { p with srqWords := p.srqWords.filter (·.1 != entry) }).setStream stream fun _ => {})
    ⟨entry, 0, stream, true, s.stamp.cyc + s.rd PLM_ADMLEAD⟩
  exact ⟨⟨_, rfl, rfl, due⟩, joins, ends⟩

/-- The requests of all the entries that are dropped. -/
theorem foldl_dropEntry_due (l : List JoinSlot) (s : State) :
    (∀ r ∈ s.plm.due, r ∈ (l.foldl (fun u j => u.dropEntry j.entry j.stream) s).plm.due) ∧
    ∀ j ∈ l, ∃ r ∈ (l.foldl (fun u j => u.dropEntry j.entry j.stream) s).plm.due, r.idx = j.entry ∧ r.remove =
      true := by
  induction l generalizing s with
  | nil => exact ⟨fun _ h => h, by simp⟩
  | cons x l ih =>
    obtain ⟨⟨r, hi, hr, due⟩, -, -⟩ := dropEntry_parts s x.entry x.stream
    obtain ⟨kept, asked⟩ := ih (s.dropEntry x.entry x.stream)
    rw [due] at kept
    refine ⟨fun q member => kept q (by simp [member]), fun j member => ?_⟩
    obtain rfl | later := List.mem_cons.mp member
    · exact ⟨r, kept r (by simp), hi, hr⟩
    · exact asked j later

theorem joinWindowClose_answers {s : State} {c : Nat} (hj : s.plm.joinEnd = some c) (hc : c ≤ s.stamp.cyc) :
    Answers .joinWindowClose s fun t =>
      t.plm.joins = [] ∧ t.plm.joinEnd = none ∧
      ∀ j ∈ s.plm.joins, ∃ r ∈ t.plm.due, r.idx = j.entry ∧ r.remove = true := by
  have command : exec .joinWindowClose s = .next (s.plm.joins.foldl (fun u j => u.dropEntry j.entry j.stream)
      (s.setPlm fun p => { p with joins := [], joinEnd := none })) := by
    change execJoinWindowClose s = _
    unfold execJoinWindowClose
    rw [hj]
    dsimp only
    rw [if_neg (by omega)]
  refine ⟨_, command, ?_, ?_, (foldl_dropEntry_due _ _).2⟩
  · exact foldl_keeps (g := fun u => u.plm.joins) (fun u (j : JoinSlot) =>
      (dropEntry_parts u j.entry j.stream).2.1) _ _
  · exact foldl_keeps (g := fun u => u.plm.joinEnd) (fun u (j : JoinSlot) =>
      (dropEntry_parts u j.entry j.stream).2.2) _ _

set_option autoImplicit false

/-! ### PLM_LEAVE (R371) -/

theorem sendBye_queue (s : State) (reason : Nat) : ∃ f : TxFrame, (s.sendBye reason).plm.queue = s.plm.queue ++ [f] ∧
    f.fdst = 0xFF ∧ f.prio = 1 ∧ f.type = 3 ∧ f.data = [0x11, BitVec.ofNat 8 s.saddr, BitVec.ofNat 8 reason] :=
  ⟨_, rfl, rfl, rfl, rfl, rfl⟩

theorem plmLeave_answers {s : State} {w : RegWrite}
    (hw : s.admitsWrite 0x0B8 0x040 w (setBit w.data.toNat 16) = true) (ha : bits w.data.toNat 8 8 ≠ 0xFF) :
    Answers (.plmLeave w) s fun t =>
      t.resp.code = .ok ∧ t.rd PLM_SADDR = bits w.data.toNat 8 8 ∧ t.on PLM_CONFLICT = false ∧
      ∃ f : TxFrame, t.plm.queue = s.plm.queue ++ [f] ∧ f.fdst = 0xFF ∧ f.prio = 1 ∧ f.type = 3 ∧
        f.data = [0x11, BitVec.ofNat 8 (bits w.data.toNat 8 8), 0] := by
  let d := (BitVec.ofNat 32 (setBit w.data.toNat 16)).toNat
  have addr : bits d 8 8 = bits w.data.toNat 8 8 := bits_command (Or.inr (by decide)) (by decide)
  have leave : bit d 16 = true := by
    rw [bit_command (by decide), if_pos rfl]
  let u := (s.storeWord 0x0B8 0x040 d).wr PLM_CONFLICT 0
  have done : plmWrite s ⟨w.port, w.tc.val, 0x0B8, 0x040, none⟩ d = (.ok, u.sendBye 0) := by
    have good : plmCheck 0x040 d = .ok := if_neg (by rw [addr]; exact ha)
    have written (v : State) : v.plmWritten 0x040 d = (v.wr PLM_CONFLICT 0).sendBye 0 := if_pos leave
    unfold plmWrite
    dsimp only
    rw [if_pos rfl, good, if_pos rfl, written]
    rfl
  have own : u.saddr = bits w.data.toNat 8 8 := by
    rw [State.saddr, rd_wr_free (by decide), PLM_SADDR, rd_storeWord_set (by decide) (by decide) (by decide)
      (by decide),
      addr]
  have kept : u.plm = s.plm :=
    (part_of_except (State.wr_same 1 rfl _ _ _) .plm rfl).trans
      (part_of_except (State.storeWord_same 41 rfl _ _ _ _) .plm rfl)
  obtain ⟨f, queue, dst, prio, type, data⟩ := sendBye_queue u 0
  rw [own] at data
  rw [kept] at queue
  refine answers_write (f := fun d => setBit d 16) (h := plmWrite) rfl (by decide) hw done ⟨rfl, ?_, ?_, f, ?_, dst,
    prio, type, data⟩
  · rw [rd_answer, rd_of_except (State.sendBye_same 33554432 rfl _ _) rfl]
    exact own
  · rw [on_answer, State.on, rd_of_except (State.sendBye_same 33554432 rfl _ _) rfl]
    exact on_wr_b2n rfl (by decide) _ false
  · rw [← queue]
    rfl

/-! ### PLM_SITEKEY_COMMIT (R374) -/

/-- The number whose digits of 32 bits are four words. -/
def fourWords (f : Nat → Nat) : Nat := (List.range 4).foldl (fun a i => a + f i * 2 ^ (32 * i)) 0

theorem fourWords_congr {f g : Nat → Nat} (h : ∀ i, i < 4 → f i = g i) : fourWords f = fourWords g :=
  List.foldl_ext _ _ _ fun a i member => by rw [h i (List.mem_range.mp member)]

theorem fourWords_eq (f : Nat → Nat) : fourWords f = f 0 + f 1 * 2 ^ 32 + f 2 * 2 ^ 64 + f 3 * 2 ^ 96 := by
  have sum (g : Nat → Nat) : (List.range 4).foldl (fun a i => a + f i * g i) 0 =
      0 + f 0 * g 0 + f 1 * g 1 + f 2 * g 2 + f 3 * g 3 := rfl
  rw [fourWords, sum, Nat.zero_add, Nat.mul_zero, Nat.pow_zero, Nat.mul_one, Nat.mul_one,
    show 32 * 2 = 64 from rfl, show 32 * 3 = 96 from rfl]

theorem plmSitekeyCommit_answers {s : State} {w : RegWrite} (hw : s.admitsWrite 0x0B8 0x06C w w.data.toNat = true) :
    Answers (.plmSitekeyCommit w) s fun t =>
      t.resp.code = .ok ∧ t.plm.siteKey = BitVec.ofNat 128 (s.rd (PLM_SITEKEY 0) + s.rd (PLM_SITEKEY 1) * 2 ^ 32 +
        s.rd (PLM_SITEKEY 2) * 2 ^ 64 + w.data.toNat * 2 ^ 96) := by
  let u := s.setReg 0x0B8 0x06C w.data.toNat
  have done : plmWrite s ⟨w.port, w.tc.val, 0x0B8, 0x06C, none⟩ (BitVec.ofNat 32 (id w.data.toNat)).toNat =
      (.ok, u.setPlm fun p => { p with siteKey := BitVec.ofNat 128 (fourWords fun k => u.rd (PLM_SITEKEY k)) }) := by
    rw [id, BitVec.ofNat_toNat, BitVec.setWidth_eq]
    rfl
  have low (k : Nat) (hk : k < 3) : u.rd (PLM_SITEKEY k) = s.rd (PLM_SITEKEY k) := by
    have narrow : (PLM_SITEKEY k).width ≤ 32 := show 32 ≤ 32 from Nat.le_refl 32
    rw [State.rd, State.rd, if_pos narrow, if_pos narrow,
      reg_setReg_other _ (by simp only [PLM_SITEKEY, regKey]; omega)]
  have top : u.rd (PLM_SITEKEY 3) = w.data.toNat := by
    unfold State.rd PLM_SITEKEY
    rw [if_pos (by decide), reg_setReg_same, Nat.mod_eq_of_lt w.data.isLt]
    unfold bits
    simp [Nat.mod_eq_of_lt w.data.isLt]
  have key := fourWords_eq fun k => u.rd (PLM_SITEKEY k)
  rw [top, low 0 (by decide), low 1 (by decide), low 2 (by decide)] at key
  have taken (v : State) (x : BitVec 128) : ((v.setPlm fun p => { p with siteKey := x }).answer .ok).plm.siteKey = x :=
    rfl
  refine answers_write (f := id) (h := plmWrite) rfl (by decide) hw done ⟨rfl, ?_⟩
  rw [taken, key]

/-! ### PLM_JOIN (R386) -/

theorem joinEnd_askEntry (s : State) (entry stream word cyc : Nat) :
    (s.askEntry entry stream word cyc).plm.joinEnd = s.plm.joinEnd := (postSched_parts _ _).2.2

theorem joinEnd_openJoin (s : State) (len : Nat) : (s.openJoin len).plm.joinEnd = some (s.stamp.cyc + len) := by
  unfold State.openJoin
  dsimp only
  refine (foldl_keeps (g := fun u : State => u.plm.joinEnd) (fun u c => ?_) _ _).trans rfl
  split
  · rfl
  · split
    · exact joinEnd_askEntry _ _ _ _ _
    · rfl

theorem plmJoin_answers {s : State} {w : RegWrite} (hw : s.admitsWrite 0x0B8 0x04C w w.data.toNat = true)
    (hl : bits w.data.toNat 0 16 ≠ 0) :
    Answers (.plmJoin w) s fun t =>
      t.resp.code = .ok ∧ t.plm.joinEnd = some (s.stamp.cyc + bits w.data.toNat 0 16) := by
  let u := s.storeWord 0x0B8 0x04C w.data.toNat
  have done : plmWrite s ⟨w.port, w.tc.val, 0x0B8, 0x04C, none⟩ (BitVec.ofNat 32 (id w.data.toNat)).toNat =
      (.ok, u.openJoin (bits w.data.toNat 0 16)) := by
    have good : plmCheck 0x04C w.data.toNat = .ok := if_neg hl
    rw [id, BitVec.ofNat_toNat, BitVec.setWidth_eq]
    unfold plmWrite
    dsimp only
    rw [if_pos rfl, good, if_pos rfl]
    rfl
  have stamp : u.stamp = s.stamp := by
    rw [State.stamp, State.stamp, part_of_except (State.storeWord_same 41 rfl _ _ _ _) .ctf rfl]
  refine answers_write (f := id) (h := plmWrite) rfl (by decide) hw done ⟨rfl, ?_⟩
  rw [← stamp]
  exact joinEnd_openJoin u _

/-! ### PLM_EP_KCOMMIT (R370) -/

theorem find_cellInsert {α : Type} (k : Nat) (v : α) (l : List (Nat × α)) :
    (cellInsert k v l).find? (·.1 == k) = some (k, v) := by
  induction l with
  | nil => simp [cellInsert]
  | cons x l ih =>
    obtain ⟨j, u⟩ := x
    rw [cellInsert]
    split
    · simp
    · split
      · simp
      next other =>
        rw [List.find?_cons_of_neg (by simpa using Ne.symm other), ih]

/-- The commit words of the endpoints hold the command bit and the read-only key generation. -/
theorem commitWords : ∀ p : Fin 2, ∀ c : Fin 64, plainWord (0x0BA + p.val) (0x124 + 48 * c.val) = true ∧
    wideOf (0x0BA + p.val) (0x124 + 48 * c.val) = none ∧
    bits (RegMap.maskOf .rw (RegMap.fieldsAt (0x0BA + p.val) (0x124 + 48 * c.val)) |||
      RegMap.maskOf .w1c (RegMap.fieldsAt (0x0BA + p.val) (0x124 + 48 * c.val))) 8 8 = 0 := by decide

/-- The key that the four words of an endpoint hold. -/
def State.heldKey (s : State) (e : Nat) : BitVec 128 :=
  BitVec.ofNat 128 (fourWords fun i => s.rd (PLM_EP_KEY (e / 64) (e % 64) i))

/-- A commit of the key of an endpoint on a state that already holds the word. -/
theorem commitKey_commits (s : State) (e : Nat) (v : Nat) :
    (((s.commitKey e).wr (PLM_EP_CCODE (e / 64) (e % 64)) v).rd (PLM_EP_KGEN (e / 64) (e % 64)) =
      (s.rd (PLM_EP_KGEN (e / 64) (e % 64)) + 1) % 256) ∧
    ((s.commitKey e).wr (PLM_EP_CCODE (e / 64) (e % 64)) v).epKey e = some (keyBytes (s.heldKey e)) := by
  have apart : (PLM_EP_CCODE (e / 64) (e % 64)).free (PLM_EP_KGEN (e / 64) (e % 64)) = true :=
    free_of_off rfl (show 8 ≤ 32 by decide) (show 8 + 8 ≤ 32 by decide)
      (Or.inr (by simp only [PLM_EP_CCODE, PLM_EP_KGEN]; omega))
  refine ⟨?_, ?_⟩
  · rw [rd_wr_free apart]
    exact rd_wr_lt (f := PLM_EP_KGEN (e / 64) (e % 64)) rfl (show _ < 2 ^ 8 from Nat.mod_lt _ (by decide)) _
  · rw [State.epKey, part_of_except (State.wr_same 1 rfl _ _ _) .plm rfl, State.commitKey]
    rw [part_of_except (State.wr_same 1 rfl _ _ _) .plm rfl]
    have noted (u : State) (f : PlmState → PlmState) : (u.setPlm f).plm = f u.plm := rfl
    rw [noted, find_cellInsert]
    rfl

theorem plmEpKcommit_answers {s : State} {e : Fin 128} {w : RegWrite}
    (hw : s.admitsWrite (0x0BA + e.val / 64) (0x124 + 48 * (e.val % 64)) w (setBit w.data.toNat 0) = true) :
    Answers (.plmEpKcommit e w) s fun t =>
      t.resp.code = .ok ∧
      t.rd (PLM_EP_KGEN (e.val / 64) (e.val % 64)) = (s.rd (PLM_EP_KGEN (e.val / 64) (e.val % 64)) + 1) % 256 ∧
      t.epKey e.val = some (keyBytes (s.heldKey e.val)) := by
  obtain ⟨plain, narrow, mask⟩ := commitWords ⟨e.val / 64, by omega⟩ ⟨e.val % 64, Nat.mod_lt _ (by decide)⟩
  let d := (BitVec.ofNat 32 (setBit w.data.toNat 0)).toNat
  let u := s.storeWord (0x0BA + e.val / 64) (0x124 + 48 * (e.val % 64)) d
  have done : plmWrite s ⟨w.port, w.tc.val, 0x0BA + e.val / 64, 0x124 + 48 * (e.val % 64), none⟩ d =
      (.ok, (u.commitKey e.val).wr (PLM_EP_CCODE (e.val / 64) (e.val % 64)) (codeOf .ok)) := by
    have given : bit d 0 = true := by
      rw [bit_command (by decide), if_pos rfl]
    have place : (0x124 + 48 * (e.val % 64) - 0x100) / 48 = e.val % 64 := by omega
    have offset : (0x124 + 48 * (e.val % 64) - 0x100) % 48 = 0x24 := by omega
    have half : 0x0BA + e.val / 64 - 0x0BA = e.val / 64 := by omega
    have number : 64 * (e.val / 64) + e.val % 64 = e.val := by omega
    unfold plmWrite
    dsimp only
    rw [if_neg (by omega), if_neg (by omega), place, offset, half, number, if_neg (by omega)]
    have good : s.epCheck e.val 0x24 d = .ok := rfl
    rw [good, if_pos rfl, if_pos ⟨rfl, given⟩]
    rfl
  obtain ⟨gen, key⟩ := commitKey_commits u e.val (codeOf .ok)
  have word : u.rd (PLM_EP_KGEN (e.val / 64) (e.val % 64)) = s.rd (PLM_EP_KGEN (e.val / 64) (e.val % 64)) :=
    rd_storeWord_kept narrow (by decide) mask s d
  have digit (i : Nat) (hi : i < 4) : u.rd (PLM_EP_KEY (e.val / 64) (e.val % 64) i) =
      s.rd (PLM_EP_KEY (e.val / 64) (e.val % 64) i) := by
    refine rd_storeWord_other narrow (show 32 ≤ 32 from Nat.le_refl 32) ?_ s d
    simp only [PLM_EP_KEY, Fld.key, regKey]
    omega
  have held : u.heldKey e.val = s.heldKey e.val := by
    rw [State.heldKey, fourWords_congr digit, State.heldKey]
  rw [word] at gen
  rw [held] at key
  refine answers_write (f := fun d => setBit d 0) (h := plmWrite) rfl plain hw done ⟨rfl, ?_, ?_⟩
  · rw [rd_answer]
    exact gen
  · rw [State.epKey, part_of_except (State.answer_same 512 rfl _ _) .plm rfl]
    exact key

/-- Settles O36. -/
theorem macComplete : Obligations.MacComplete := by
  unfold Obligations.MacComplete
  refine ⟨fun s e hp he hl hs => ⟨fun hu hh _ h1 => plmRingPoll_takes hp he hl hs hu hh h1,
      fun hbad hf => plmRingPoll_faults hp he hl hs hbad hf⟩,
    fun s p k f hk he ha hn hx hf hb =>
      ⟨fun hop nxt b h2 ho hh hN hB => accessSlot_starts hk he ha hn hx hf hb h2 ho hh hN hB,
        fun h2 hi hl => accessSlot_late hk he ha hn hx hf hb h2 hi hl⟩,
    fun s a f ha hw hf => ⟨fun ht => ackTimeout_retries ha hw hf ht, fun ht => ackTimeout_ends ha hw hf ht⟩,
    reassemblyTimeout_answers, fun s w hw ha => plmLeave_answers hw ha, fun s e w hw => plmEpKcommit_answers hw,
    fun s w hw => plmSitekeyCommit_answers hw, fun s w hw hl => plmJoin_answers hw hl,
    fun s c hj hc => joinWindowClose_answers hj hc⟩

end Sys2Proof.Machine

/-! ## Peers, nodes and repeaters of the powerline network (O37 to O39) -/

namespace Sys2Proof.Machine

open Reg

set_option autoImplicit false

/-! ### The neighbour table -/

theorem nb_of_nbs {s t : State} (h : t.plm.nbs = s.plm.nbs) (i : Nat) : t.nb i = s.nb i := by
  rw [State.nb, State.nb, h]

theorem nb_setNb_same {s : State} {i : Nat} {n : Neighbour} (h : s.nb i = some n) (f : Neighbour → Neighbour) :
    (s.setNb i f).nb i = some (f n) := by
  have index : (fun x : Nat × Neighbour => x.1 == i) ∘ (fun x : Nat × Neighbour => if x.1 = i then (i, f x.2) else x) =
      fun x => x.1 == i := by
    funext x
    dsimp only [Function.comp]
    split
    next same => rw [same]
    · rfl
  obtain ⟨x, found, rfl⟩ := Option.map_eq_some_iff.mp h
  have own : x.1 = i := by simpa using List.find?_some found
  change ((s.plm.nbs.map fun x => if x.1 = i then (i, f x.2) else x).find? (·.1 == i)).map (·.2) = _
  rw [List.find?_map, index, found]
  simp [own]

theorem noteRoutes_parts (s : State) : s.noteRoutes.plm.nbs = s.plm.nbs ∧
    s.noteRoutes.except 33554432 = s.except 33554432 := by
  refine ⟨?_, State.noteRoutes_same 33554432 rfl s⟩
  unfold State.noteRoutes
  dsimp only
  split <;> rfl

/-- A partner event changes of the MAC's state its number alone. -/
theorem plm_partner (s : State) (kind who : Nat) : ∃ q, (s.partner kind who).plm = { s.plm with evSeq := q } := by
  have noted (u : State) (f : PlmState → PlmState) : (u.setPlm f).plm = f u.plm := rfl
  unfold State.partner
  dsimp only
  split
  · exact ⟨_, rfl⟩
  · refine ⟨(s.plm.evSeq + 1) % 2 ^ 32, ?_⟩
    rw [noted, part_of_except (State.wr_same 1 rfl _ _ _) .plm rfl, part_of_except (State.wr_same 1 rfl _ _ _) .plm rfl]

/-- Removing a neighbour removes its entry and its link. -/
theorem dropNb_drops {s : State} {i : Nat} {n : Neighbour} (h : s.nb i = some n) (why : Nat) :
    (s.dropNb i why).plm.nbs = s.plm.nbs.filter (·.1 != i) ∧ (s.dropNb i why).plm.radvSoon = true ∧
    (s.dropNb i why).link i = {} ∧ Logged s (s.dropNb i why) 0x6002 deviceTc (n.saddr + why * 2 ^ 8) := by
  let u := (s.setPlm fun p => { p with nbs := p.nbs.filter (·.1 != i), radvSoon := true }).setPlt fun p =>
    { p with links := p.links.filter (·.1 != i) }
  have dropped : s.dropNb i why = (u.partner 2 n.saddr).log 0x6002 deviceTc (n.saddr + why * 2 ^ 8) := by
    unfold State.dropNb
    rw [h]
  obtain ⟨q, plm⟩ := plm_partner u 2 n.saddr
  have told : (u.partner 2 n.saddr).except 33554433 = u.except 33554433 := State.partner_same 33554433 rfl _ _ _
  have noted (v : State) (c t d : Nat) : (v.log c t d).plm = v.plm ∧ (v.log c t d).plt = v.plt ∧
      Logged v (v.log c t d) c t d := ⟨rfl, rfl, rfl⟩
  obtain ⟨samePlm, samePlt, logged⟩ := noted (u.partner 2 n.saddr) 0x6002 deviceTc (n.saddr + why * 2 ^ 8)
  rw [dropped]
  refine ⟨?_, ?_, ?_, ?_⟩
  · rw [samePlm, plm]
    rfl
  · rw [samePlm, plm]
    rfl
  · rw [link_of_plt (samePlt.trans (part_of_except told .plt rfl))]
    exact cellAt_filter_drop _ _ (by simp) _
  · rw [Logged, part_of_except told .events rfl] at logged
    exact logged

theorem nb_filter_same (s : State) (i : Nat) : ((s.plm.nbs.filter (·.1 != i)).find? (·.1 == i)) = none := by
  rw [List.find?_eq_none]
  intro x member
  simpa using (List.mem_filter.mp member).2

theorem nb_filter_other (s : State) {i j : Nat} (h : j ≠ i) :
    ((s.plm.nbs.filter (·.1 != i)).find? (·.1 == j)) = s.plm.nbs.find? (·.1 == j) := by
  rw [List.find?_filter]
  congr 1
  funext x
  by_cases own : x.1 = j
  · simp [own, h]
  · simp [own]

/-- What removing a neighbour leaves of the table. -/
theorem nb_dropNb (s : State) (i why j : Nat) : (s.dropNb i why).nb j = if j = i then none else s.nb j := by
  cases h : s.nb i with
  | none =>
    have same : s.dropNb i why = s := by
      unfold State.dropNb
      rw [h]
    rw [same]
    split
    next own => rw [own, h]
    · rfl
  | some n =>
    rw [State.nb, (dropNb_drops h why).1]
    split
    next own => rw [own, nb_filter_same]; rfl
    next other => rw [nb_filter_other s other]; rfl

theorem radvSoon_dropNb {s : State} (i why : Nat) (h : s.plm.radvSoon = true ∨ (s.nb i).isSome = true) :
    (s.dropNb i why).plm.radvSoon = true := by
  cases found : s.nb i with
  | none =>
    have same : s.dropNb i why = s := by
      unfold State.dropNb
      rw [found]
    rw [same]
    rw [found] at h
    simpa using h
  | some n => exact (dropNb_drops found why).2.1

/-! ### HELLO and RADV are sent (R368) -/

theorem sendMgmt_queue (s : State) (data : List Byte) : SameBut [.plm] s (s.sendMgmt 0xFF data) ∧
    ∃ f : TxFrame, (s.sendMgmt 0xFF data).plm.queue = s.plm.queue ++ [f] ∧ f.fdst = 0xFF ∧ f.prio = 1 ∧ f.type = 3 ∧
      f.data = data :=
  ⟨sameBut_of_except (State.sendMgmt_same 33554432 rfl _ _ _), _, rfl, rfl, rfl, rfl, rfl⟩

theorem helloSend_answers {s : State} (he : s.on PLM_EN = true) (ha : s.saddr ≠ 0) (hl : s.level ≤ 2) :
    Answers .helloSend s fun t => SameBut [.plm] s t ∧
      ∃ f : TxFrame, t.plm.queue = s.plm.queue ++ [f] ∧ f.fdst = 0xFF ∧ f.prio = 1 ∧ f.type = 3 ∧
        f.data = s.helloBytes := by
  have command : exec .helloSend s = .next (s.sendMgmt 0xFF s.helloBytes) := by
    change execHelloSend s = _
    unfold execHelloSend
    rw [if_pos ⟨he, ha, hl⟩]
  exact ⟨_, command, sendMgmt_queue s s.helloBytes⟩

theorem radvSend_answers {s : State} (he : s.on PLM_EN = true) (ha : s.saddr ≠ 0) (hl : s.level ≤ 2) :
    Answers .radvSend s fun t => SameBut [.plm] s t ∧ t.plm.radvSoon = false ∧
      ∃ f : TxFrame, t.plm.queue = s.plm.queue ++ [f] ∧ f.fdst = 0xFF ∧ f.prio = 1 ∧ f.type = 3 ∧
        f.data = s.radvBytes := by
  have command : exec .radvSend s = .next ((s.sendMgmt 0xFF s.radvBytes).setPlm fun p => { p with
      radvSoon := false
      told := s.destinations.filterMap fun d => (s.routeTo d).map fun r => (d, r.2.2.1) }) := by
    change execRadvSend s = _
    unfold execRadvSend
    rw [if_pos ⟨he, ha, hl⟩]
  refine ⟨_, command, sameBut_of_except ((State.setPlm_same 33554432 rfl _ _).trans
    (State.sendMgmt_same 33554432 rfl _ _ _)), rfl, (sendMgmt_queue s s.radvBytes).2⟩

/-! ### HELLO (R369 to R371) -/

/-- Taking a management frame leaves the table. -/
theorem takeMgmt_nbs {s u : State} {k : Nat} {m : MgmtIn} (hm : s.takeMgmt k = some
    (m, u)) : u.plm.nbs = s.plm.nbs := by
  unfold State.takeMgmt at hm
  split at hm
  · exact absurd hm (by simp)
  · obtain ⟨-, rfl⟩ := Prod.mk.inj (Option.some.inj hm)
    rfl

section
variable {s u : State} {m : MgmtIn} (hm : s.takeMgmt 0x10 = some (m, u))
include hm

/-- A HELLO with this device's own short address is a conflict. -/
theorem hello_conflicts (ha : leAt m.data 9 1 = s.saddr) (he : leAt m.data 1 8 ≠ s.eui) :
    Answers .hello s fun t => Logged s t 0x6003 deviceTc s.saddr ∧ t.plm.nbs = s.plm.nbs ∧
      (leAt m.data 1 8 < s.eui → t.on PLM_CONFLICT = true) := by
  have kept := takeMgmt_keeps hm
  have own : u.saddr = s.saddr := rd_of_except kept rfl _
  have eui : u.eui = s.eui := by
    rw [State.eui, State.eui, rd_of_except kept rfl, rd_of_except kept rfl]
  have logged : Logged s (u.log 0x6003 deviceTc (leAt m.data 9 1)) 0x6003 deviceTc s.saddr := by
    rw [Logged, ← ha, ← part_of_except kept .events rfl]
    rfl
  have command : exec .hello s = .next (if leAt m.data 1 8 < s.eui then
      (u.log 0x6003 deviceTc (leAt m.data 9 1)).wr PLM_CONFLICT 1 else u.log 0x6003 deviceTc (leAt m.data 9 1)) := by
    change execHello s = _
    unfold execHello
    rw [hm]
    dsimp only
    rw [own, eui, if_pos ⟨ha, he⟩]
    rw [show (u.log 0x6003 deviceTc (leAt m.data 9 1)).eui = s.eui from eui]
  have nbs : (u.log 0x6003 deviceTc (leAt m.data 9 1)).plm.nbs = s.plm.nbs := (takeMgmt_nbs hm :)
  generalize u.log 0x6003 deviceTc (leAt m.data 9 1) = v at logged command nbs
  by_cases less : leAt m.data 1 8 < s.eui
  · rw [if_pos less] at command
    have same : (v.wr PLM_CONFLICT 1).except 1 = v.except 1 := State.wr_same 1 rfl _ _ _
    refine ⟨_, command, ?_, ?_, fun _ => on_wr_b2n rfl (by decide) _ true⟩
    · rw [Logged, part_of_except same .events rfl]
      exact logged
    · rw [part_of_except same .plm rfl]
      exact nbs
  · rw [if_neg less] at command
    exact ⟨_, command, logged, nbs, fun h => absurd h less⟩

/-- The entry of a neighbour after its HELLO. -/
def MgmtIn.heard (m : MgmtIn) (u : State) (n : Neighbour) : Neighbour := { n with
  saddr := leAt m.data 9 1, hello := leAt m.data 11 2, heard := u.stamp.cyc,
  bidir := n.bidir || ((m.data.drop 14).take (leAt m.data 13 1)).contains (BitVec.ofNat 8 u.saddr),
  level := bits (leAt m.data 10 1) 0 2 }

/-- A known device's entry is renewed. -/
theorem hello_renews {x : Nat × Neighbour} (ha : leAt m.data 9 1 ≠ s.saddr)
    (hx : s.plm.nbs.find? (fun x => x.2.eui == leAt m.data 1 8) = some x) :
    Answers .hello s fun t => ∃ n, t.nb x.1 = some n ∧ n.saddr = leAt m.data 9 1 ∧
      n.heard = s.stamp.cyc ∧ SameBut [.plm] s t := by
  have kept := takeMgmt_keeps hm
  have own : u.saddr = s.saddr := rd_of_except kept rfl _
  have nbs := takeMgmt_nbs hm
  have command : exec .hello s = .next (u.setNb x.1 (m.heard u)) := by
    change execHello s = _
    unfold execHello
    rw [hm]
    dsimp only
    rw [if_neg (by rw [own]; exact fun h => ha h.1), nbs, hx]
    rfl
  obtain ⟨n, entry⟩ : ∃ n, u.nb x.1 = some n := by
    have member := List.mem_of_find?_eq_some hx
    have found : (s.plm.nbs.find? fun y => y.1 == x.1).isSome = true :=
      List.find?_isSome.mpr ⟨x, member, by simp⟩
    obtain ⟨y, hy⟩ := Option.isSome_iff_exists.mp found
    exact ⟨y.2, by rw [nb_of_nbs nbs, State.nb, hy]; rfl⟩
  refine ⟨_, command, _, nb_setNb_same entry _, rfl, ?_,
    sameBut_of_except ((State.setNb_same 33554432 rfl _ _ _).trans kept)⟩
  change u.stamp.cyc = _
  rw [State.stamp, part_of_except kept .ctf rfl]
  rfl

section
variable (ha : leAt m.data 9 1 ≠ s.saddr) (hx : ∀ x ∈ s.plm.nbs, x.2.eui ≠ leAt m.data 1 8)
include ha hx

/-- A device not in the table is counted where the table has no place. -/
theorem hello_full (hp : s.nbPlace = none) :
    Answers .hello s fun t => t.rd PLM_NBFULLN = satNat 16 (s.rd PLM_NBFULLN + 1) ∧ t.plm.nbs = s.plm.nbs := by
  have kept := takeMgmt_keeps hm
  have own : u.saddr = s.saddr := rd_of_except kept rfl _
  have nbs := takeMgmt_nbs hm
  have place : u.nbPlace = none := by
    rw [State.nbPlace, ← hp, State.nbPlace, nbs]
    simp only [nb_of_nbs nbs]
  have command : exec .hello s = .next (u.count PLM_NBFULLN) := by
    change execHello s = _
    unfold execHello
    rw [hm]
    dsimp only
    rw [if_neg (by rw [own]; exact fun h => ha h.1), nbs, List.find?_eq_none.mpr (by simpa using hx), place]
  refine ⟨_, command, ?_, ?_⟩
  · rw [rd_count_same _ _ _ rfl, rd_of_except kept rfl]
    rfl
  · rw [part_of_except (State.count_same 1 rfl _ _ _) .plm rfl]
    exact nbs

/-- A device not in the table takes the place free for it. -/
theorem hello_enters {i : Nat} (hp : s.nbPlace = some i) :
    Answers .hello s fun t => ∃ n, t.nb i = some n ∧ n.eui = leAt m.data 1 8 ∧ n.saddr = leAt m.data 9 1 ∧
      n.hello = leAt m.data 11 2 ∧ n.heard = s.stamp.cyc ∧ n.ratio = 256 ∧ t.link i = {} ∧
      n.bidir = ((m.data.drop 14).take (leAt m.data 13 1)).contains (BitVec.ofNat 8 s.saddr) := by
  have kept := takeMgmt_keeps hm
  have own : u.saddr = s.saddr := rd_of_except kept rfl _
  have stamp : u.stamp = s.stamp := by
    rw [State.stamp, State.stamp, part_of_except kept .ctf rfl]
  have nbs := takeMgmt_nbs hm
  have place : u.nbPlace = some i := by
    rw [State.nbPlace, ← hp, State.nbPlace, nbs]
    simp only [nb_of_nbs nbs]
  let n := m.heard u { eui := leAt m.data 1 8, saddr := leAt m.data 9 1, bidir := false, hello := 0, heard := 0 }
  let v := (u.setPlm fun p => { p with nbs := cellInsert i n (p.nbs.filter (·.1 != i)) }).setPlt fun p =>
    { p with links := p.links.filter (·.1 != i) }
  have command : exec .hello s = .next (v.partner 1 (leAt m.data 9 1)) := by
    change execHello s = _
    unfold execHello
    rw [hm]
    dsimp only
    rw [if_neg (by rw [own]; exact fun h => ha h.1), nbs, List.find?_eq_none.mpr (by simpa using hx), place]
    rfl
  obtain ⟨q, plm⟩ := plm_partner v 1 (leAt m.data 9 1)
  have link : (v.partner 1 (leAt m.data 9 1)).link i = {} := by
    rw [link_of_plt (part_of_except (State.partner_same 33554433 rfl _ _ _) .plt rfl)]
    exact cellAt_filter_drop _ _ (by simp) _
  have entry : (v.partner 1 (leAt m.data 9 1)).nb i = some n := by
    rw [State.nb, plm]
    change ((cellInsert i n (u.plm.nbs.filter (·.1 != i))).find? (·.1 == i)).map (·.2) = _
    rw [find_cellInsert]
    rfl
  refine ⟨_, command, n, entry, rfl, rfl, rfl, congrArg Stamp.cyc stamp, rfl, link, ?_⟩
  rw [← own]
  exact Bool.false_or _

end
end

/-! ### BYE, aging and RADV (R371 to R373) -/

theorem bye_answers {s u : State} {m : MgmtIn} {i : Nat} {n : Neighbour} (hm : s.takeMgmt 0x11 = some (m, u))
    (hi : s.nbIndex (leAt m.data 1 1) = some i) (hn : s.nb i = some n) :
    Answers .bye s fun t => t.nb i = none ∧ t.link i = {} ∧ t.plm.radvSoon = true ∧
      Logged s t 0x6002 deviceTc (n.saddr + 2 ^ 8) := by
  have nbs := takeMgmt_nbs hm
  have index : u.nbIndex (leAt m.data 1 1) = some i := by
    rw [State.nbIndex, nbs]
    exact hi
  have command : exec .bye s = .next (u.dropNb i 1) := by
    change execBye s = _
    unfold execBye
    rw [hm]
    dsimp only
    rw [index]
  obtain ⟨-, radv, link, logged⟩ := dropNb_drops ((nb_of_nbs nbs i).trans hn) 1
  refine ⟨_, command, ?_, link, radv, ?_⟩
  · rw [nb_dropNb, if_pos rfl]
  · rw [Logged, ← part_of_except (takeMgmt_keeps hm) .events rfl]
    exact logged

/-- Every neighbour dropped is out of the table, and an RADV is due where one was in it. -/
theorem foldl_dropNb (why : Nat) (l : List (Nat × Neighbour)) (s : State) :
    (∀ i, s.nb i = none → (l.foldl (fun u x => u.dropNb x.1 why) s).nb i = none) ∧
    (s.plm.radvSoon = true → (l.foldl (fun u x => u.dropNb x.1 why) s).plm.radvSoon = true) ∧
    ∀ x ∈ l, (l.foldl (fun u x => u.dropNb x.1 why) s).nb x.1 = none ∧
      ((s.nb x.1).isSome = true → (l.foldl (fun u x => u.dropNb x.1 why) s).plm.radvSoon = true) := by
  induction l generalizing s with
  | nil => exact ⟨fun _ h => h, fun h => h, by simp⟩
  | cons y l ih =>
    obtain ⟨gone, soon, dropped⟩ := ih (s.dropNb y.1 why)
    have out : (s.dropNb y.1 why).nb y.1 = none := by rw [nb_dropNb, if_pos rfl]
    refine ⟨fun i h => gone i (by rw [nb_dropNb, h, ite_self]), fun h => soon (radvSoon_dropNb _ _ (Or.inl h)),
      fun x member => ?_⟩
    by_cases same : x.1 = y.1
    · rw [same]
      exact ⟨gone _ out, fun h => soon (radvSoon_dropNb _ _ (Or.inr h))⟩
    · have later : x ∈ l := (List.mem_cons.mp member).resolve_left fun h => same (by rw [h])
      obtain ⟨none', radv⟩ := dropped x later
      exact ⟨none', fun h => radv (by rw [nb_dropNb, if_neg same]; exact h)⟩

theorem neighbourAge_answers {s : State} (hl : s.level < 3) : Answers .neighbourAge s fun t => ∀ x ∈ s.plm.nbs,
    x.2.heard + s.rd PLM_AGE * x.2.hello ≤ s.stamp.cyc → t.nb x.1 = none ∧ t.plm.radvSoon = true := by
  have command : exec .neighbourAge s = .next ((s.plm.nbs.filter fun x =>
      x.2.heard + s.rd PLM_AGE * x.2.hello ≤ s.stamp.cyc).foldl (fun u x => u.dropNb x.1 0) s) := by
    change execNeighbourAge s = _
    unfold execNeighbourAge
    rw [if_neg (by omega)]
  refine ⟨_, command, fun x member old => ?_⟩
  obtain ⟨none', radv⟩ := (foldl_dropNb 0 (s.plm.nbs.filter fun x =>
      x.2.heard + s.rd PLM_AGE * x.2.hello ≤ s.stamp.cyc) s).2.2 x (List.mem_filter.mpr ⟨member, decide_eq_true old⟩)
  refine ⟨none', radv ?_⟩
  rw [State.nb, Option.isSome_map]
  exact List.find?_isSome.mpr ⟨x, member, by simp⟩

/-- The advertisements that an RADV carries. -/
def MgmtIn.adverts (m : MgmtIn) (cyc : Nat) : List Advert :=
  (List.range (min 48 (leAt m.data 1 1))).map fun k =>
    ⟨leAt m.data (2 + 5 * k) 1, leAt m.data (3 + 5 * k) 1, leAt m.data (4 + 5 * k) 1, leAt m.data (5 + 5 * k) 2, cyc⟩

theorem radv_answers {s u : State} {m : MgmtIn} {i : Nat} {n : Neighbour} (hm : s.takeMgmt 0x12 = some (m, u))
    (hi : s.nbIndex m.orig = some i) (hn : s.nb i = some n) :
    Answers .radv s fun t => ∃ n', t.nb i = some n' ∧
      (∀ k, k < min 48 (leAt m.data 1 1) → (⟨leAt m.data (2 + 5 * k) 1, leAt m.data (3 + 5 * k) 1,
        leAt m.data (4 + 5 * k) 1, leAt m.data (5 + 5 * k) 2, s.stamp.cyc⟩ : Advert) ∈ n'.adv) ∧
      ∀ a ∈ n'.adv, a ∈ n.adv ∨ ∃ k, k < min 48 (leAt m.data 1 1) ∧ a.dest = leAt m.data (2 + 5 * k) 1 := by
  have nbs := takeMgmt_nbs hm
  have stamp : u.stamp = s.stamp := by
    rw [State.stamp, State.stamp, part_of_except (takeMgmt_keeps hm) .ctf rfl]
  let l := m.adverts s.stamp.cyc
  let set (n : Neighbour) : Neighbour := { n with adv := (n.adv.filter fun a => !l.any (·.dest == a.dest)) ++ l }
  have command : exec .radv s = .next ((u.setNb i set).noteRoutes) := by
    have index : u.nbIndex m.orig = some i := by
      rw [State.nbIndex, nbs]
      exact hi
    change execRadv s = _
    unfold execRadv
    rw [hm]
    dsimp only
    rw [index, stamp]
    rfl
  refine ⟨_, command, set n, ?_, fun k hk => ?_, fun a member => ?_⟩
  · rw [nb_of_nbs (noteRoutes_parts _).1]
    exact nb_setNb_same ((nb_of_nbs nbs i).trans hn) set
  · exact List.mem_append_right _ (List.mem_map.mpr ⟨k, List.mem_range.mpr hk, rfl⟩)
  · obtain old | new := List.mem_append.mp member
    · exact Or.inl (List.mem_filter.mp old).1
    · obtain ⟨k, hk, rfl⟩ := List.mem_map.mp new
      exact Or.inr ⟨k, List.mem_range.mp hk, rfl⟩

theorem routeAge_answers {s : State} (hl : s.level < 3) :
    Answers .routeAge s fun t => SameBut [.plm] s t ∧ t.plm.nbs = s.plm.nbs.map fun x =>
      (x.1, { x.2 with
        adv := x.2.adv.filter fun a => decide (s.stamp.cyc < a.cyc + s.rd PLM_AGE * s.rd PLM_RADV) }) := by
  have command : exec .routeAge s = .next ((s.setPlm fun p => { p with nbs := p.nbs.map fun x =>
      (x.1, { x.2 with
        adv := x.2.adv.filter fun a => decide (s.stamp.cyc < a.cyc + s.rd PLM_AGE * s.rd PLM_RADV) })
          }).noteRoutes) := by
    change execRouteAge s = _
    unfold execRouteAge
    rw [if_neg (by omega)]
  refine ⟨_, command, ?_, ?_⟩
  · exact sameBut_of_except ((State.noteRoutes_same 33554432 rfl _).trans (State.setPlm_same 33554432 rfl _ _))
  · rw [(noteRoutes_parts _).1]
    rfl

/-- Settles O37. -/
theorem neighboursComplete : Obligations.NeighboursComplete := by
  unfold Obligations.NeighboursComplete
  exact ⟨fun s he ha hl => ⟨helloSend_answers he ha hl, radvSend_answers he ha hl⟩,
    fun s u m hm => ⟨fun ha he => hello_conflicts hm ha he,
      fun ha hx => ⟨fun i hp => hello_enters hm ha hx hp, fun hp => hello_full hm ha hx hp⟩,
      fun x ha hx => hello_renews hm ha hx⟩,
    fun s u m i n hm hi hn => bye_answers hm hi hn, fun s hl => neighbourAge_answers hl,
    fun s u m i n hm hi hn => radv_answers hm hi hn, fun s hl => routeAge_answers hl⟩

set_option autoImplicit false

/-! ### The node table -/

theorem nodeOn_of_nodes {s t : State} (h : t.plm.nodes = s.plm.nodes) (k : Nat) : t.nodeOn k = s.nodeOn k := by
  rw [State.nodeOn, State.nodeOn, h]

theorem nodeOn_setNode (s : State) (k j : Nat) {f : NodeEntry → NodeEntry} (hf : ∀ m, (f m).stream = m.stream) :
    (s.setNode k f).nodeOn j = (s.nodeOn j).map fun m => if m.stream = k then f m else m := by
  have stream : (fun m : NodeEntry => m.stream == j) ∘ (fun m : NodeEntry => if m.stream = k then f m else m) =
      fun m => m.stream == j := by
    funext m
    dsimp only [Function.comp]
    split
    · rw [hf]
    · rfl
  change (s.plm.nodes.map fun m => if m.stream = k then f m else m).find? (·.stream == j) = _
  rw [List.find?_map, stream]
  rfl

theorem stream_of_nodeOn {s : State} {k : Nat} {n : NodeEntry} (h : s.nodeOn k = some n) : n.stream = k := by
  simpa using List.find?_some h

/-- The tables that the frames, records and events of the MAC leave. -/
def PlmState.tables (p : PlmState) : List NodeEntry × List SchedReq × List StoredUp × List RepGrant × List Probe :=
  (p.nodes, p.due, p.stored, p.grants, p.probes)

theorem tables_iff {p q : PlmState} : p.tables = q.tables ↔
    p.nodes = q.nodes ∧ p.due = q.due ∧ p.stored = q.stored ∧ p.grants = q.grants ∧ p.probes = q.probes := by
  simp [PlmState.tables]

theorem tables_partner (s : State) (kind who : Nat) : (s.partner kind who).plm.tables = s.plm.tables := by
  obtain ⟨q, plm⟩ := plm_partner s kind who
  rw [plm]
  rfl

theorem tables_tellGrant (s : State) (tc stream role peer : Nat) :
    (s.tellGrant tc stream role peer).plm.tables = s.plm.tables := tables_partner s 6 stream

theorem tables_seekGrant (s : State) (stream : Nat) : (s.seekGrant stream).plm.tables = s.plm.tables := by
  unfold State.seekGrant
  split
  · rfl
  · dsimp only
    split
    · rfl
    · refine foldl_keeps (g := fun u : State => u.plm.tables) (fun _ _ => ?_) _ s
      rfl

theorem tables_deliverUplink (s : State) (e : Nat) (held : Bool) (orig hops stamp eui ctr stream : Nat)
    (data : List Byte) :
    (s.deliverUplink e held orig hops stamp eui ctr stream data).plm = s.plm :=
  part_of_except (State.deliverUplink_same 34359738369 rfl _ _ _ _ _ _ _ _ _ _) .plm rfl

/-- A schedule request changes of the MAC's state what waits and what is due. -/
theorem plm_postSched (s : State) (r : SchedReq) :
    ∃ l, (s.postSched r).plm = { s.plm with srq := l, due := s.plm.due ++ [r] } := by
  obtain ⟨l, hl⟩ := plm_srqFlush 16 (s.setPlm fun p => { p with srq := p.srq ++ [r], due := p.due ++ [r] })
  exact ⟨l, hl⟩

theorem plm_askEntry (s : State) (entry stream word cyc : Nat) : ∃ l, (s.askEntry entry stream word cyc).plm =
    { s.plm with
      srqWords := cellInsert entry word s.plm.srqWords
      srq := l
      due := s.plm.due ++ [⟨entry, word, stream, false, cyc⟩] } := by
  obtain ⟨l, hl⟩ := plm_postSched (s.setPlm fun p => { p with srqWords := cellInsert entry word p.srqWords })
    ⟨entry, word, stream, false, cyc⟩
  exact ⟨l, hl⟩

theorem plm_dropEntry (s : State) (entry stream : Nat) : ∃ l c, (s.dropEntry entry stream).plm =
    { s.plm with
      srqWords := s.plm.srqWords.filter (·.1 != entry)
      srq := l
      due := s.plm.due ++ [⟨entry, 0, stream, true, c⟩] } := by
  obtain ⟨l, hl⟩ := plm_postSched ((s.setPlm fun p => { p with srqWords := p.srqWords.filter (·.1 != entry) }).setStream
    stream fun _ => {}) ⟨entry, 0, stream, true, s.stamp.cyc + s.rd PLM_ADMLEAD⟩
  exact ⟨l, _, hl⟩

/-- A downlink of a node counts in its entry alone. -/
theorem nodeDownlink_parts (s : State) (n : NodeEntry) (stream type : Nat) (msg : List Byte)
    (src : Option (Nat × Nat × Nat)) :
    (s.nodeDownlink n stream type msg src).plm.due = s.plm.due ∧
    (s.nodeDownlink n stream type msg src).plm.stored = s.plm.stored ∧
    (∀ m ∈ s.plm.nodes, ∃ d, { m with down := d } ∈ (s.nodeDownlink n stream type msg src).plm.nodes) ∧
    ∀ k m, s.nodeOn k = some m → ∃ d, (s.nodeDownlink n stream type msg src).nodeOn k = some { m with down := d } := by
  unfold State.nodeDownlink
  split
  · exact ⟨rfl, rfl, fun m hm => ⟨m.down, hm⟩, fun k m hm => ⟨m.down, hm⟩⟩
  next key _ =>
    let u := s.addDown stream (nodeDownFrame key n type msg) (type == 9) src
    refine ⟨rfl, rfl, fun m hm => ?_, fun k m hm => ?_⟩
    · by_cases own : m.stream = n.stream
      · exact ⟨m.down + 1, List.mem_map.mpr ⟨m, hm, if_pos own⟩⟩
      · exact ⟨m.down, List.mem_map.mpr ⟨m, hm, if_neg own⟩⟩
    · have counted := nodeOn_setNode u n.stream k (f := fun m => { m with down := m.down + 1 }) fun _ => rfl
      rw [show u.nodeOn k = some m from hm, Option.map_some] at counted
      by_cases own : m.stream = n.stream
      · rw [if_pos own] at counted
        exact ⟨m.down + 1, counted⟩
      · rw [if_neg own] at counted
        exact ⟨m.down, counted⟩

/-- The node frame that a command takes, and what is left of it. -/
theorem takeNode_eq {s u : State} {p : PulseIn → Bool} {f : PulseIn} (h : s.takeNode p = some (f, u)) :
    u = s.setPlm fun x => { x with nodeIn := x.nodeIn.erase f } := by
  unfold State.takeNode at h
  split at h
  · exact absurd h (by simp)
  · obtain ⟨rfl, rfl⟩ := Prod.mk.inj (Option.some.inj h)
    rfl

/-! ### JOIN (R375, R376) -/

section
variable {s u : State} {f : PulseIn} {j : JoinSlot}
  (ht : s.takeNode (fun f => s.plm.joins.any (·.stream == f.stream) && f.type == 1) = some (f, u))
  (hj : s.plm.joins.find? (·.stream == f.stream) = some j)
include ht hj

/-- A JOIN of the wrong length is counted. -/
theorem join_counts (hl : f.data.length ≠ 18) : Answers .join s fun t =>
    t.rd PLM_JOINBADN = satNat 16 (s.rd PLM_JOINBADN + 1) ∧ SameBut [.regs, .plm] s t := by
  have kept : u.except 33554433 = s.except 33554433 := by
    rw [takeNode_eq ht]
    exact State.setPlm_same 33554433 rfl _ _
  have counts : u.rd PLM_JOINBADN = s.rd PLM_JOINBADN := by
    rw [takeNode_eq ht, rd_setPlm]
  have command : exec .join s = .next (u.count PLM_JOINBADN) := by
    have joins : u.plm.joins = s.plm.joins := by
      rw [takeNode_eq ht]
      rfl
    change execJoin s = _
    unfold execJoin
    rw [ht]
    dsimp only
    rw [joins, hj]
    dsimp only
    rw [if_pos (by simp [hl])]
  refine ⟨_, command, ?_, sameBut_of_except ((State.count_same 33554433 rfl _ _ _).trans kept)⟩
  rw [rd_count_same _ _ _ rfl, counts]
  rfl

/-- The entry of a node that joins. -/
def joinEntry (l : List Byte) (e st en p a c ctr cyc : Nat) : NodeEntry := {
  eui := leAt l 1 8, nid := leAt l 9 2, ep := e, stream := st, entry := en, anchor := a, period := p, cofs := c,
  keep := leAt l 13 1 / 16, up := ctr, heard := cyc }

omit ht hj in
/-- A node with a place found is in the table, and its entry is asked for. -/
theorem admitNode_enters {j : JoinSlot} {e ctr st en a o c : Nat} {l : List Byte} (hs : u.freeStream = some st)
    (he : u.freeEntry = some en) (hf : u.findSlot st j.anchor (max (2 ^ (leAt l 13 1 % 16)) (u.rd PLM_PMIN))
      (u.stamp.cyc + 92) (u.rd PLM_ADMLEAD) = some (a, o, c)) :
    (∃ n ∈ (u.admitNode j e ctr l none).plm.nodes, n.eui = leAt l 1 8 ∧ n.nid = leAt l 9 2 ∧ n.ep = e ∧ n.stream = st ∧
      n.entry = en ∧ n.period = max (2 ^ (leAt l 13 1 % 16)) (u.rd PLM_PMIN) ∧ n.anchor = a ∧ n.cofs = c) ∧
    ∃ r ∈ (u.admitNode j e ctr l none).plm.due, r.idx = en ∧ r.stream = st ∧ r.remove = false ∧
      r.cyc = u.stamp.cyc + 92 + o := by
  let p := max (2 ^ (leAt l 13 1 % 16)) (u.rd PLM_PMIN)
  let n := joinEntry l e st en p a c ctr u.stamp.cyc
  let v := u.setPlm fun x => { x with nodes := (x.nodes.filter (·.stream != st)) ++ [n] }
  let w := v.askEntry en st (pulseEntry p c a) (u.stamp.cyc + 92 + o)
  let msg := leBytes 8 (leAt l 1 8) ++ [BitVec.ofNat 8 p, BitVec.ofNat 8 o,
    BitVec.ofNat 8 (b2n (decide (8 < a)) + n.keep * 16)]
  have admitted : u.admitNode j e ctr l none =
      (((w.nodeDownlink n j.stream 8 msg none).partner 3 st).log 0x6011
        ((w.nodeDownlink n j.stream 8 msg none).epOwner e) (leAt l 1 8)).seekGrant st := by
    unfold State.admitNode
    dsimp only
    rw [hs, he]
    dsimp only
    rw [hf]
    rfl
  obtain ⟨q, asked⟩ := plm_askEntry v en st (pulseEntry p c a) (u.stamp.cyc + 92 + o)
  obtain ⟨due, -, nodes, -⟩ := nodeDownlink_parts w n j.stream 8 msg none
  have noted (x : State) (k t d : Nat) : (x.log k t d).plm = x.plm := rfl
  have tables : (u.admitNode j e ctr l none).plm.tables = (w.nodeDownlink n j.stream 8 msg none).plm.tables := by
    rw [admitted, tables_seekGrant, noted, tables_partner]
  obtain ⟨sameNodes, sameDue, -⟩ := tables_iff.mp tables
  have member : n ∈ w.plm.nodes := by
    rw [asked]
    exact List.mem_append_right _ (List.mem_singleton.mpr rfl)
  have posted : (⟨en, pulseEntry p c a, st, false, u.stamp.cyc + 92 + o⟩ : SchedReq) ∈ w.plm.due := by
    rw [asked]
    exact List.mem_append_right _ (List.mem_singleton.mpr rfl)
  obtain ⟨d, entered⟩ := nodes n member
  refine ⟨⟨_, by rw [sameNodes]; exact entered, rfl, rfl, rfl, rfl, rfl, rfl, rfl, rfl⟩,
    _, by rw [sameDue, due]; exact posted, rfl, rfl, rfl, rfl⟩

/-- A JOIN that passes the key check of an admitting endpoint enters the node. -/
theorem join_enters {e : Nat} {key : List Byte} {st en a o c : Nat} (hl : f.data.length = 18)
    (hn : s.epOfNid (leAt f.data 9 2) = some e) (hk : s.epKey e = some key)
    (ha : s.on (PLM_EP_ADMIT (e / 64) (e % 64)) = true)
    (hc : (ccmOpen key (nodeNonce (leAt f.data 1 8) (ctrAbove (s.nodeLast (leAt f.data 1 8) (leAt f.data 9 2))
      (leAt f.data 11 2)) false 1) (f.data.take 14) (f.data.drop 14) 4).isSome = true)
    (hp : leAt f.data 13 1 % 16 ≤ 7)
    (hnew : ∀ n ∈ s.plm.nodes, ¬(n.eui = leAt f.data 1 8 ∧ n.nid = leAt f.data 9 2))
    (hs : s.freeStream = some st) (he : s.freeEntry = some en)
    (hf : s.findSlot st j.anchor (max (2 ^ (leAt f.data 13 1 % 16)) (s.rd PLM_PMIN)) (s.stamp.cyc + 92)
      (s.rd PLM_ADMLEAD) = some (a, o, c)) :
    Answers .join s fun t =>
      (∃ n ∈ t.plm.nodes, n.eui = leAt f.data 1 8 ∧ n.nid = leAt f.data 9 2 ∧ n.ep = e ∧ n.stream = st ∧
        n.entry = en ∧ n.period = max (2 ^ (leAt f.data 13 1 % 16)) (s.rd PLM_PMIN) ∧ n.anchor = a ∧ n.cofs = c) ∧
      ∃ r ∈ t.plm.due, r.idx = en ∧ r.stream = st ∧ r.remove = false ∧ r.cyc = s.stamp.cyc + 92 + o := by
  obtain rfl := takeNode_eq ht
  have small : e < 128 := by
    unfold State.epOfNid at hn
    split at hn
    · exact absurd hn (by simp)
    · exact List.mem_range.mp (List.mem_of_find?_eq_some hn)
  let v := s.setPlm fun x => { x with nodeIn := x.nodeIn.erase f }
  have command : exec .join s = .next (v.admitNode j e (ctrAbove (s.nodeLast (leAt f.data 1 8) (leAt f.data 9 2))
      (leAt f.data 11 2)) f.data none) := by
    have fresh : (s.plm.nodes.find? fun n => n.eui == leAt f.data 1 8 && n.nid == leAt f.data 9 2) = none := by
      rw [List.find?_eq_none]
      intro n member
      simpa using hnew n member
    change execJoin s = _
    unfold execJoin
    rw [ht]
    dsimp only
    rw [show v.plm.joins = s.plm.joins from rfl, hj]
    dsimp only
    rw [show v.epOfNid (leAt f.data 9 2) = some e from hn, Option.getD_some, show v.epKey e = some key from hk,
      show v.nodeLast (leAt f.data 1 8) (leAt f.data 9 2) = s.nodeLast (leAt f.data 1 8) (leAt f.data 9 2) from rfl,
      show v.on (PLM_EP_ADMIT (e / 64) (e % 64)) = true from ha, show v.plm.nodes = s.plm.nodes from rfl, fresh]
    dsimp only
    rw [if_neg (by simp [hl, small, hc]), if_neg (by omega)]
  exact ⟨_, command, admitNode_enters (u := v) hs he hf⟩

end

set_option autoImplicit false

/-! ### NODE_UPLINK (R377 to R379) -/

/-- A good uplink of a node is delivered and relayed, or in D3 logged and stored. -/
def State.uplinkKept (s : State) (n : NodeEntry) (f : PulseIn) (ctr : Nat) (data : List Byte) : State :=
  if 3 ≤ s.level then
    let s := if f.type == 4 then s.logAlarm (s.epOwner n.ep) n.eui ctr ((f.data.drop 3).take data.length) else s
    if 64 ≤ s.plm.stored.length then s.count PLM_D3DROPN
    else s.setPlm fun p => { p with
      stored := p.stored ++ [⟨n.stream, n.eui, n.ep, ctr, data, f.stamp, f.held⟩] }
  else
    let s := s.deliverUplink n.ep f.held s.saddr 0 f.stamp n.eui ctr n.stream data
    (s.sinksOf (s.rd (PLM_EP_SINK (n.ep / 64) (n.ep % 64))) 0).foldl
      (fun s d => s.sendRelay d n.nid (if f.type == 4 then 3 else 2) n.eui f.data none) s

/-- A good uplink that asks for it is acknowledged. -/
def State.uplinkAcked (s : State) (n : NodeEntry) (f : PulseIn) (ctr : Nat) : State :=
  if bit (leAt f.data 0 1) 7 then s.ackNode { n with up := ctr } ctr else s

theorem homeUplink_eq (s : State) (n : NodeEntry) (f : PulseIn) (ctr : Nat) (data : List Byte) :
    s.homeUplink n f ctr data =
      (((s.noteUplink n ctr (some f.least)).uplinkKept n f ctr data).uplinkAcked n f ctr).seekGrant n.stream := rfl

theorem logAlarm_plm (s : State) (b : Bool) (tc eui ctr : Nat) (data : List Byte) :
    (if b then s.logAlarm tc eui ctr data else s).plm = s.plm := by
  split
  · exact part_of_except (State.logAlarm_same 256 rfl _ _ _ _ _) .plm rfl
  · rfl

theorem uplinkKept_stores {s : State} (hl : 3 ≤ s.level) (hs : s.plm.stored.length < 64) (n : NodeEntry) (f : PulseIn)
    (ctr : Nat) (data : List Byte) : (s.uplinkKept n f ctr data).plm.stored =
      s.plm.stored ++ [⟨n.stream, n.eui, n.ep, ctr, data, f.stamp, f.held⟩] := by
  have alarm := logAlarm_plm s (f.type == 4) (s.epOwner n.ep) n.eui ctr ((f.data.drop 3).take data.length)
  unfold State.uplinkKept
  dsimp only
  rw [if_pos hl]
  generalize (if (f.type == 4) = true then _ else s) = v at alarm ⊢
  rw [if_neg (by rw [alarm]; omega), ← alarm]
  rfl

theorem nodes_uplinkKept (s : State) (n : NodeEntry) (f : PulseIn) (ctr : Nat) (data : List Byte) :
    (s.uplinkKept n f ctr data).plm.nodes = s.plm.nodes := by
  have alarm := logAlarm_plm s (f.type == 4) (s.epOwner n.ep) n.eui ctr ((f.data.drop 3).take data.length)
  unfold State.uplinkKept
  dsimp only
  split
  · generalize (if (f.type == 4) = true then _ else s) = v at alarm ⊢
    split
    · rw [part_of_except (State.count_same 1 rfl _ _ _) .plm rfl, alarm]
    · rw [← alarm]
      rfl
  · refine (foldl_keeps (g := fun u : State => u.plm.nodes) (fun _ _ => ?_) _ _).trans ?_
    · rfl
    · rw [tables_deliverUplink]

theorem uplinkAcked_parts (s : State) (n : NodeEntry) (f : PulseIn) (ctr : Nat) :
    (s.uplinkAcked n f ctr).plm.stored = s.plm.stored ∧
    ∀ k m, s.nodeOn k = some m → ∃ d, (s.uplinkAcked n f ctr).nodeOn k = some { m with down := d } := by
  unfold State.uplinkAcked
  split
  · unfold State.ackNode
    split
    · exact ⟨rfl, fun k m hm => ⟨m.down, hm⟩⟩
    · obtain ⟨-, stored, -, nodes⟩ := nodeDownlink_parts s { n with up := ctr } n.stream 10 (leBytes 2 (ctr % 65536))
        none
      exact ⟨stored, nodes⟩
  · exact ⟨rfl, fun k m hm => ⟨m.down, hm⟩⟩

/-- The entry of a node whose uplink has been taken. -/
theorem homeUplink_nodeOn {s : State} {n : NodeEntry} {k : Nat} (h : s.nodeOn k = some n) (f : PulseIn) (ctr : Nat)
    (data : List Byte) : ∃ m, (s.homeUplink n f ctr data).nodeOn k = some m ∧ m.up = ctr ∧ m.silent = none ∧
      m.heard = s.stamp.cyc := by
  have stream := stream_of_nodeOn h
  obtain ⟨r, noted⟩ : ∃ r, (s.noteUplink n ctr (some f.least)).nodeOn k =
      some { n with up := ctr, heard := s.stamp.cyc, silent := none, recent := r } := by
    have set := nodeOn_setNode s n.stream k (f := fun m => { m with
      up := ctr, heard := s.stamp.cyc, silent := none,
      recent := (m.recent ++ [some f.least]).drop ((m.recent.length + 1) - 8) }) fun _ => rfl
    rw [h, Option.map_some, if_pos rfl] at set
    exact ⟨_, set⟩
  have kept := noted
  rw [← nodeOn_of_nodes (nodes_uplinkKept (s.noteUplink n ctr (some f.least)) n f ctr data)] at kept
  obtain ⟨d, acked⟩ := (uplinkAcked_parts ((s.noteUplink n ctr (some f.least)).uplinkKept n f ctr data) n f ctr).2 k _
    kept
  rw [homeUplink_eq]
  refine ⟨_, (nodeOn_of_nodes (tables_iff.mp (tables_seekGrant _ _)).1 k).trans acked, rfl, rfl, rfl⟩

theorem homeUplink_stored {s : State} (hl : 3 ≤ s.level) (hs : s.plm.stored.length < 64) (n : NodeEntry) (f : PulseIn)
    (ctr : Nat) (data : List Byte) : (s.homeUplink n f ctr data).plm.stored =
      s.plm.stored ++ [⟨n.stream, n.eui, n.ep, ctr, data, f.stamp, f.held⟩] := by
  obtain ⟨-, -, stored, -⟩ := tables_iff.mp (tables_seekGrant
    (((s.noteUplink n ctr (some f.least)).uplinkKept n f ctr data).uplinkAcked n f ctr) n.stream)
  have noted : (s.noteUplink n ctr (some f.least)).plm.stored = s.plm.stored := rfl
  rw [homeUplink_eq, stored, (uplinkAcked_parts _ _ _ _).1,
    uplinkKept_stores (s := s.noteUplink n ctr (some f.least)) hl hs, noted]

section
variable {s u : State} {f : PulseIn} {n : NodeEntry} {key d : List Byte} {c : Nat}
  (ht : s.takeNode (fun f => (f.type == 2 || f.type == 4) &&
    (s.plm.nodes.any (·.stream == f.stream) || s.plm.grants.any (·.stream == f.stream))) = some (f, u))
  (hn : s.nodeOn f.stream = some n) (hk : s.epKey n.ep = some key)
include ht hn hk

theorem nodeUplink_answers (hc : checkUplink key n.eui (some n.up) f.data = .good c d) :
    Answers .nodeUplink s fun t =>
      (∃ m, t.nodeOn f.stream = some m ∧ m.up = c ∧ m.silent = none ∧ m.heard = s.stamp.cyc) ∧
      (3 ≤ s.level → s.plm.stored.length < 64 →
        t.plm.stored = s.plm.stored ++ [⟨n.stream, n.eui, n.ep, c, d, f.stamp, f.held⟩]) := by
  obtain rfl := takeNode_eq ht
  let v := s.setPlm fun x => { x with nodeIn := x.nodeIn.erase f }
  have command : exec .nodeUplink s = .next (v.homeUplink n f c d) := by
    change execNodeUplink s = _
    unfold execNodeUplink
    rw [ht]
    dsimp only
    rw [show v.nodeOn f.stream = some n from hn]
    dsimp only
    rw [show v.epKey n.ep = some key from hk]
    dsimp only
    rw [hc]
  exact ⟨_, command, homeUplink_nodeOn (s := v) hn f c d, fun hl hs => homeUplink_stored (s := v) hl hs n f c d⟩

theorem nodeUplink_replayed (hc : checkUplink key n.eui (some n.up) f.data = .replay) :
    Answers .nodeUplink s fun t =>
      t.rd PLM_REPLAYN = satNat 16 (s.rd PLM_REPLAYN + 1) ∧ SameBut [.regs, .plm] s t := by
  obtain rfl := takeNode_eq ht
  let v := s.setPlm fun x => { x with nodeIn := x.nodeIn.erase f }
  have command : exec .nodeUplink s = .next (v.count PLM_REPLAYN) := by
    change execNodeUplink s = _
    unfold execNodeUplink
    rw [ht]
    dsimp only
    rw [show v.nodeOn f.stream = some n from hn]
    dsimp only
    rw [show v.epKey n.ep = some key from hk]
    dsimp only
    rw [hc]
  refine ⟨_, command, ?_, sameBut_of_except ((State.count_same 33554433 rfl v _ _).trans
    (State.setPlm_same 33554433 rfl _ _))⟩
  rw [rd_count_same _ _ _ rfl, rd_setPlm]
  rfl

end

/-! ### The departure of a node (R380, R381) -/

/-- A node that departs leaves the table; the removal of its entry is asked for and its departure logged. -/
theorem departNode_parts (s : State) (n : NodeEntry) :
    (s.departNode n).nodeOn n.stream = none ∧
    (∃ r ∈ (s.departNode n).plm.due, r.idx = n.entry ∧ r.remove = true) ∧
    ∃ e ∈ (s.departNode n).events, e.code = 0x6013 := by
  let v := ((s.revokeGrant n.stream).plm.downs.filter (·.stream == n.stream)).foldl
    (fun s d => s.endNodeDown d.ref .skipped 0) (s.revokeGrant n.stream)
  let w := v.setPlm fun p => { p with
    nodes := p.nodes.filter (·.stream != n.stream), asked := p.asked.filter (·.stream != n.stream) }
  have departed : s.departNode n = ((w.dropEntry n.entry n.stream).partner 5 n.stream).log 0x6013 (w.epOwner n.ep)
      n.eui := rfl
  obtain ⟨l, c, dropped⟩ := plm_dropEntry w n.entry n.stream
  have noted (x : State) (k t d : Nat) : (x.log k t d).plm = x.plm := rfl
  have tables : (s.departNode n).plm.tables = (w.dropEntry n.entry n.stream).plm.tables := by
    rw [departed, noted, tables_partner]
  obtain ⟨nodes, due, -⟩ := tables_iff.mp tables
  refine ⟨?_, ⟨⟨n.entry, 0, n.stream, true, c⟩, ?_, rfl, rfl⟩, ?_⟩
  · rw [nodeOn_of_nodes nodes, State.nodeOn, dropped, List.find?_eq_none]
    intro m member
    simpa using (List.mem_filter.mp member).2
  · rw [due, dropped]
    exact List.mem_append_right _ (List.mem_singleton.mpr rfl)
  · rw [departed]
    exact ⟨_, List.mem_append_right _ (List.mem_singleton.mpr rfl), rfl⟩

theorem nodeLeave_answers {s u : State} {f : PulseIn} {n : NodeEntry} {key d : List Byte} {c : Nat}
    (ht : s.takeNode (fun f => f.type == 3 && s.plm.nodes.any (·.stream == f.stream)) = some (f, u))
    (hn : s.nodeOn f.stream = some n) (hk : s.epKey n.ep = some key)
    (hc : checkUplink key n.eui (some n.up) f.data = .good c d) :
    Answers .nodeLeave s fun t =>
      t.nodeOn f.stream = none ∧ (∃ r ∈ t.plm.due, r.idx = n.entry ∧ r.remove = true) ∧
      ∃ e ∈ t.events, e.code = 0x6013 := by
  obtain rfl := takeNode_eq ht
  let v := s.setPlm fun x => { x with nodeIn := x.nodeIn.erase f }
  have command : exec .nodeLeave s = .next (v.departNode n) := by
    change execNodeLeave s = _
    unfold execNodeLeave
    rw [ht]
    dsimp only
    rw [show v.nodeOn f.stream = some n from hn]
    dsimp only
    rw [show v.epKey n.ep = some key from hk]
    dsimp only
    rw [hc]
  have parts := departNode_parts v n
  rw [stream_of_nodeOn hn] at parts
  exact ⟨_, command, parts⟩

theorem nodeDeparted_answers {s : State} {k : Fin 64} {n : NodeEntry} {c : Nat} (hn : s.nodeOn k.val = some n)
    (hs : n.silent = some c) (hc : c + s.rd PLM_NHOLD ≤ s.stamp.cyc) :
    Answers (.nodeDeparted k) s fun t =>
      t.nodeOn k.val = none ∧ ∃ r ∈ t.plm.due, r.idx = n.entry ∧ r.remove = true := by
  have command : exec (.nodeDeparted k) s = .next (s.departNode n) := by
    change execNodeDeparted k s = _
    unfold execNodeDeparted
    rw [hn]
    dsimp only
    rw [hs]
    dsimp only
    rw [if_neg (by omega)]
  obtain ⟨gone, due, -⟩ := departNode_parts s n
  rw [stream_of_nodeOn hn] at gone
  exact ⟨_, command, gone, due⟩

theorem nodeSilent_answers {s : State} {k : Fin 64} {n : NodeEntry} (hn : s.nodeOn k.val = some n)
    (hs : n.silent = none) (hc : n.heard + 4 * n.interval ≤ s.stamp.cyc) :
    Answers (.nodeSilent k) s fun t =>
      (∃ m, t.nodeOn k.val = some m ∧ m.silent = some s.stamp.cyc) ∧
      Logged s t 0x6012 (s.epOwner n.ep) n.eui := by
  let v := s.setNode n.stream fun m => { m with silent := some s.stamp.cyc }
  have command : exec (.nodeSilent k) s = .next ((v.partner 4 n.stream).log 0x6012 (s.epOwner n.ep) n.eui) := by
    change execNodeSilent k s = _
    unfold execNodeSilent
    rw [hn]
    dsimp only
    rw [if_neg (by rw [hs]; simp; omega)]
  have silent := nodeOn_setNode s n.stream k.val (f := fun m => { m with silent := some s.stamp.cyc }) fun _ => rfl
  rw [hn, Option.map_some, if_pos rfl] at silent
  refine ⟨_, command, ⟨_, (nodeOn_of_nodes (tables_iff.mp (tables_partner v 4 n.stream)).1 _).trans silent, rfl⟩, ?_⟩
  have events : (v.partner 4 n.stream).events = s.events :=
    part_of_except (State.partner_same 33554433 rfl _ _ _) .events rfl
  rw [Logged, ← events]
  rfl

/-! ### Relayed frames, stored uplinks and late requests (R363, R379, R383) -/

section
variable {s : State} {r : RelayIn} {l : List RelayIn} (hr : s.plm.relays = r :: l)
include hr

theorem nrelay_caches {e c : Nat} {key d : List Byte} (h8 : leAt r.data 0 1 % 16 < 8) (h3 : leAt r.data 0 1 % 16 ≠ 3)
    (he : s.epOfNid r.nid = some e) (hk : s.epKey e = some key)
    (hc : checkUplink key r.eui (s.nodeLast r.eui r.nid) r.data = .good c d)
    (hn : ∀ n ∈ s.plm.nodes, ¬(n.eui = r.eui ∧ n.nid = r.nid))
    (hx : ∀ x ∈ s.plm.cache, ¬(x.1 = 256 + r.eui ∧ x.2.1 = r.nid)) :
    Answers .nrelay s fun t => t.plm.relays = l ∧ t.plm.cache.head? = some (256 + r.eui, r.nid, c) := by
  let v := s.setPlm fun p => { p with relays := l }
  let w := v.setPlm fun p => { p with cache := (256 + r.eui, r.nid, c) ::
    (v.plm.cache.filter fun x => !(x.1 == 256 + r.eui && x.2.1 == r.nid)).take 511 }
  have command : exec .nrelay s = .next (w.deliverUplink e w.estimated r.orig (9 - r.hops) (stampNat w.stamp) r.eui c
      0xFF d) := by
    have foreign : (v.plm.nodes.find? fun n => n.eui == r.eui && n.nid == r.nid) = none := by
      rw [List.find?_eq_none]
      intro n member
      simpa using hn n member
    have accepted : v.ctrAccept (256 + r.eui) r.nid c = some w := by
      have fresh : (v.plm.cache.find? fun x => x.1 == 256 + r.eui && x.2.1 == r.nid) = none := by
        rw [List.find?_eq_none]
        intro x member
        simpa using hx x member
      unfold State.ctrAccept
      rw [fresh]
    change execNrelay s = _
    unfold execNrelay
    rw [hr]
    dsimp only
    rw [if_neg (by omega), show v.epOfNid r.nid = some e from he]
    dsimp only
    rw [show v.epKey e = some key from hk]
    dsimp only
    rw [show v.nodeLast r.eui r.nid = s.nodeLast r.eui r.nid from rfl, hc]
    dsimp only
    rw [foreign]
    dsimp only
    rw [if_neg h3, accepted]
    rfl
  refine ⟨_, command, ?_, ?_⟩
  · rw [tables_deliverUplink]
    rfl
  · rw [tables_deliverUplink]
    rfl

theorem nrelay_queues {g : RepGrant} (h8 : 8 ≤ leAt r.data 0 1 % 16)
    (hg : s.plm.grants.find? (fun g => g.eui == r.eui && g.nid == r.nid) = some g) :
    Answers .nrelay s fun t => t.plm.relays = l ∧ SameBut [.plm] s t ∧
      ∃ d : NodeDown, t.plm.downs = s.plm.downs ++ [d] ∧ d.stream = g.stream ∧ d.data = r.data := by
  let v := s.setPlm fun p => { p with relays := l }
  have command : exec .nrelay s = .next (v.addDown g.stream r.data (r.data.head? == some 9#8) none) := by
    change execNrelay s = _
    unfold execNrelay
    rw [hr]
    dsimp only
    rw [if_pos h8]
    unfold State.relayDown
    rw [show v.plm.grants = s.plm.grants from rfl, hg]
  exact ⟨_, command, rfl, sameBut_of_except ((State.setPlm_same 33554432 rfl v _).trans
    (State.setPlm_same 33554432 rfl _ _)),
    _, rfl, rfl, rfl⟩

end

theorem storedUplinkDeliver_answers {s : State} (hl : s.level < 3) :
    Answers .storedUplinkDeliver s fun t => t.plm = { s.plm with stored := [] } := by
  have command : exec .storedUplinkDeliver s = .next (s.plm.stored.foldl (fun s u =>
      s.deliverUplink u.ep u.held s.saddr 0 u.stamp u.eui u.ctr u.stream u.data)
      (s.setPlm fun p => { p with stored := [] })) := by
    change execStoredUplinkDeliver s = _
    unfold execStoredUplinkDeliver
    rw [if_neg (by omega)]
  exact ⟨_, command, foldl_keeps (g := State.plm) (fun _ _ => tables_deliverUplink _ _ _ _ _ _ _ _ _ _) _ _⟩

theorem schedLate_counted (u : State) (n : Nat) :
    (u.count PLM_SRQLATEN n).plm = u.plm ∧ (u.count PLM_SRQLATEN n).rd PLM_SRQLATEN = satNat 16
    (u.rd PLM_SRQLATEN + n) ∧
    (u.count PLM_SRQLATEN n).except 33554433 = u.except 33554433 :=
  ⟨part_of_except (State.count_same 1 rfl _ _ _) .plm rfl, rd_count_same _ _ _ rfl, State.count_same 33554433 rfl _ _ _⟩

theorem schedRequestLate_answers (s : State) : Answers .schedRequestLate s fun t =>
    t.plm.due = s.plm.due.filter (fun r => s.stamp.cyc < r.cyc) ∧ SameBut [.regs, .plm] s t ∧
    t.rd PLM_SRQLATEN = satNat 16 (s.rd PLM_SRQLATEN + ((s.plm.due.filter fun r => r.cyc ≤ s.stamp.cyc).filter
      fun r => if r.remove then entEn (s.activeEntry r.idx) else s.activeEntry r.idx != r.word).length) := by
  have command : exec .schedRequestLate s = .next ((s.setPlm fun p =>
      { p with due := p.due.filter fun r => s.stamp.cyc < r.cyc }).count PLM_SRQLATEN
      ((s.plm.due.filter fun r => r.cyc ≤ s.stamp.cyc).filter fun r =>
        if r.remove then entEn (s.activeEntry r.idx) else s.activeEntry r.idx != r.word).length) := rfl
  refine ⟨_, command, ?_, ?_, ?_⟩
  · rw [(schedLate_counted _ _).1]
    rfl
  · exact sameBut_of_except ((schedLate_counted _ _).2.2.trans (State.setPlm_same 33554433 rfl _ _))
  · rw [(schedLate_counted _ _).2.1, rd_setPlm]

/-- Settles O38. -/
theorem nodesComplete : Obligations.NodesComplete := by
  unfold Obligations.NodesComplete
  exact ⟨fun s u f j e key ht hj => ⟨fun hl => join_counts ht hj hl,
      fun st en a o c hl hn hk ha hc hp hnew hs he hf => join_enters ht hj hl hn hk ha hc hp hnew hs he hf⟩,
    fun s u f n key d c ht hn hk => ⟨fun hc => nodeUplink_answers ht hn hk hc, fun hc => nodeUplink_replayed ht hn hk
      hc⟩,
    fun s u f n key d c ht hn hk hc => nodeLeave_answers ht hn hk hc,
    fun s k n hn => ⟨fun hs hc => nodeSilent_answers hn hs hc, fun c hs hc => nodeDeparted_answers hn hs hc⟩,
    fun s r l hr => ⟨fun e c key d h8 h3 he hk hc hn hx => nrelay_caches hr h8 h3 he hk hc hn hx,
      fun g h8 hg => nrelay_queues hr h8 hg⟩,
    fun s hl => storedUplinkDeliver_answers hl, schedRequestLate_answers⟩

set_option autoImplicit false

/-! ### Messages about repeaters -/

theorem takeMgmt_eq {s u : State} {k : Nat} {m : MgmtIn} (h : s.takeMgmt k = some (m, u)) :
    u = s.setPlm fun p => { p with mgmt := p.mgmt.erase m } := by
  unfold State.takeMgmt at h
  split at h
  · exact absurd h (by simp)
  · obtain ⟨rfl, rfl⟩ := Prod.mk.inj (Option.some.inj h)
    rfl

theorem sendMgmt_sent (s : State) (peer : Nat) (data : List Byte) :
    ∃ f : TxFrame, (s.sendMgmt peer data).plm.queue = s.plm.queue ++ [f] ∧ f.fdst = peer ∧ f.data = data :=
  ⟨_, rfl, rfl, rfl⟩

/-! ### RGREQ and PROBE_TIMEOUT (R395, R396) -/

section
variable {s u : State} {m : MgmtIn} (hm : s.takeMgmt 0x20 = some (m, u))
  (hp : ∀ x ∈ s.plm.probes, ¬(x.home = m.orig ∧ x.eui = leAt m.data 4 8))
include hm hp

omit hm in
/-- No probe of the node is dropped. -/
theorem rgreq_fresh : (s.plm.probes.find? fun x => x.home == m.orig && x.eui == leAt m.data 4 8) = none := by
  rw [List.find?_eq_none]
  intro x member
  simpa using hp x member

theorem rgreq_refuses (ha : ∀ a ∈ [1, 2, 3, 4, 5, 6, 9, 10, 11, 12, 13, 14], ∀ x, s.anchorPhase a = some x →
      256 < (phaseDiff x (leAt m.data 18 2)).natAbs) :
    Answers .rgreq s fun t => t.plm.probes = s.plm.probes ∧ ∃ f : TxFrame, t.plm.queue = s.plm.queue ++ [f] ∧
      f.fdst = m.orig ∧ f.data = rgrspBytes (leAt m.data 1 2) .cfgInvalid 0 0 := by
  obtain rfl := takeMgmt_eq hm
  let v := s.setPlm fun p => { p with mgmt := p.mgmt.erase m }
  have command : exec .rgreq s = .next (v.sendMgmt m.orig (rgrspBytes (leAt m.data 1 2) .cfgInvalid 0 0)) := by
    change execRgreq s = _
    unfold execRgreq
    rw [hm]
    dsimp only
    rw [show v.plm.probes = s.plm.probes from rfl, rgreq_fresh hp]
    dsimp only
    rw [List.find?_eq_none.mpr]
    intro a member
    rw [show v.anchorPhase a = s.anchorPhase a from rfl]
    cases found : s.anchorPhase a with
    | none => simp
    | some x =>
      have far := ha a member x found
      simp only [decide_eq_true_eq]
      omega
  exact ⟨_, command, rfl, sendMgmt_sent v _ _⟩

theorem rgreq_probes {a x st en : Nat} (hl : a ∈ [1, 2, 3, 4, 5, 6, 9, 10, 11, 12, 13, 14])
    (ha : s.anchorPhase a = some x)
    (hx : (phaseDiff x (leAt m.data 18 2)).natAbs ≤ 256) (h0 : leAt m.data 14 1 ≠ 0) (hs : s.freeStream = some st)
    (he : s.freeEntry = some en) (hf : ∀ b c, s.slotFree 64 b (leAt m.data 14 1) c = true) :
    Answers .rgreq s fun t =>
      (∃ p ∈ t.plm.probes, p.id = leAt m.data 1 2 ∧ p.home = m.orig ∧ p.eui = leAt m.data 4 8 ∧
        p.period = leAt m.data 14 1 ∧ p.stream = st ∧ p.entry = en ∧ p.frames = 0) ∧
      ∃ r ∈ t.plm.due, r.idx = en ∧ r.stream = st ∧ r.remove = false := by
  obtain rfl := takeMgmt_eq hm
  let v := s.setPlm fun p => { p with mgmt := p.mgmt.erase m }
  let cofs := (((m.stamp / 65536 : Nat) : Int) + signed 16 (leAt m.data 16 2)).toNat % max 1 (leAt m.data 14 1)
  let x : Probe := {
    id := leAt m.data 1 2, home := m.orig, eui := leAt m.data 4 8, nid := leAt m.data 12 2,
    period := leAt m.data 14 1, stream := st, entry := en, since := v.stamp.cyc }
  let w := v.setPlm fun y => { y with probes := y.probes ++ [x] }
  have command : ∃ b, exec .rgreq s = .next (w.askEntry en st (pulseEntry (leAt m.data 14 1) cofs b)
      (v.stamp.cyc + v.rd PLM_ADMLEAD)) := by
    change ∃ b, execRgreq s = _
    unfold execRgreq
    rw [hm]
    dsimp only
    rw [show v.plm.probes = s.plm.probes from rfl, rgreq_fresh hp]
    dsimp only
    split
    next missed =>
      have far := List.find?_eq_none.mp missed a hl
      rw [show v.anchorPhase a = some _ from ha] at far
      exact absurd (decide_eq_true hx) far
    next b _ =>
      rw [show v.freeStream = some st from hs, show v.freeEntry = some en from he]
      dsimp only
      rw [show v.slotFree 64 b (leAt m.data 14 1) cofs = true from hf b cofs, if_neg (by simp [h0])]
      exact ⟨b, rfl⟩
  obtain ⟨b, command⟩ := command
  obtain ⟨l, asked⟩ := plm_askEntry w en st (pulseEntry (leAt m.data 14 1) cofs b) (v.stamp.cyc + v.rd PLM_ADMLEAD)
  refine ⟨_, command, ⟨x, ?_, rfl, rfl, rfl, rfl, rfl, rfl, rfl⟩,
    ⟨⟨en, pulseEntry (leAt m.data 14 1) cofs b, st, false, v.stamp.cyc + v.rd PLM_ADMLEAD⟩, ?_, rfl, rfl, rfl⟩⟩
  · rw [asked]
    exact List.mem_append_right _ (List.mem_singleton.mpr rfl)
  · rw [asked]
    exact List.mem_append_right _ (List.mem_singleton.mpr rfl)

end

/-- A probe that is dropped is out of the list, and no frame is sent. -/
theorem plm_dropProbe (s : State) (x : Probe) :
    (s.dropProbe x).plm.probes = s.plm.probes.filter (·.id != x.id) ∧ (s.dropProbe x).plm.queue = s.plm.queue := by
  obtain ⟨l, c, dropped⟩ := plm_dropEntry (s.setPlm fun p => { p with probes := p.probes.filter (·.id != x.id) })
    x.entry x.stream
  rw [State.dropProbe, dropped]
  exact ⟨rfl, rfl⟩

theorem probeTimeout_answers {s : State} {k : Fin 64} {x : Probe}
    (hx : s.plm.probes.find? (·.stream == k.val) = some x) (h0 : x.frames = 0)
    (hc : x.since + 4 * x.period * s.rd PLM_RG_PROBE ≤ s.stamp.cyc) :
    Answers (.probeTimeout k) s fun t =>
      (∀ y ∈ t.plm.probes, y.id ≠ x.id) ∧ ∃ f : TxFrame, t.plm.queue = s.plm.queue ++ [f] ∧ f.fdst = x.home ∧
        f.data = rgrspBytes x.id .timeout 0 0 := by
  have command : exec (.probeTimeout k) s =
      .next ((s.dropProbe x).sendMgmt x.home (rgrspBytes x.id .timeout 0 0)) := by
    change execProbeTimeout k s = _
    unfold execProbeTimeout
    rw [hx]
    dsimp only
    rw [if_neg (by omega)]
  obtain ⟨probes, queue⟩ := plm_dropProbe s x
  obtain ⟨f, sent, addressed, data⟩ := sendMgmt_sent (s.dropProbe x) x.home (rgrspBytes x.id .timeout 0 0)
  rw [queue] at sent
  refine ⟨_, command, fun y member => ?_, f, sent, addressed, data⟩
  have member : y ∈ (s.dropProbe x).plm.probes := member
  rw [probes] at member
  simpa using (List.mem_filter.mp member).2

/-! ### RGRSP (R397) -/

/-- The best answer is that of the only peer asked. -/
theorem bestAsked_only {s : State} {a : Asked} {c : Nat} (ha : s.plm.asked = [a]) (hc : a.answer = some (.ok, c))
    (hl : s.grantLevel ≤ c) : s.bestAsked a.stream = some a := by
  unfold State.bestAsked
  dsimp only
  rw [ha]
  simp [hc, hl]

theorem rgrsp_answers {s u : State} {m : MgmtIn} {a : Asked} {n : NodeEntry} (hm : s.takeMgmt 0x21 = some (m, u))
    (ha : s.plm.asked = [a]) (hi : a.id = leAt m.data 1 2) (hn : s.nodeOn a.stream = some n)
    (hc : leAt m.data 3 1 = codeOf .ok) (hl : s.grantLevel ≤ leAt m.data 5 2) :
    Answers .rgrsp s fun t =>
      t.plm.asked = [] ∧ (t.nodeOn a.stream).map (·.grant) = some (some (a.peer, a.role, a.id)) ∧
      (∃ f : TxFrame, t.plm.queue = s.plm.queue ++ [f] ∧ f.fdst = a.peer ∧ f.data = s.rgrantBytes a.id a.role n.ep) ∧
      Logged s t 0x6021 (s.epOwner n.ep) (a.stream + a.role * 2 ^ 8 + a.peer * 2 ^ 16) := by
  obtain rfl := takeMgmt_eq hm
  let b : Asked := { a with answer := some (.ok, leAt m.data 5 2) }
  let v := s.setPlm fun p => { p with mgmt := p.mgmt.erase m }
  let w := v.setPlm fun p => { p with
    asked := p.asked.map fun x =>
      if x.id = leAt m.data 1 2 then { x with answer := some (.ok, leAt m.data 5 2) } else x }
  let x := (w.setPlm fun p => { p with asked := p.asked.filter (·.stream != a.stream) }).setNode a.stream fun y =>
    { y with grant := some (a.peer, a.role, a.id) }
  have asked : w.plm.asked = [b] := by
    change (s.plm.asked.map fun x =>
      if x.id = leAt m.data 1 2 then { x with answer := some (.ok, leAt m.data 5 2) } else x) = _
    rw [ha, List.map_singleton, if_pos hi]
  have best : w.bestAsked a.stream = some b := bestAsked_only (a := b) asked rfl hl
  have stream := stream_of_nodeOn hn
  have kept : x.except 33554432 = s.except 33554432 :=
    (State.setNode_same 33554432 rfl _ _ _).trans ((State.setPlm_same 33554432 rfl _ _).trans
      ((State.setPlm_same 33554432 rfl _ _).trans (State.setPlm_same 33554432 rfl _ _)))
  have command : exec .rgrsp s = .next ((x.sendMgmt a.peer (s.rgrantBytes a.id a.role n.ep)).tellGrant (s.epOwner n.ep)
      a.stream a.role a.peer) := by
    have code : statusOf (leAt m.data 3 1) = .ok := by
      rw [hc]
      rfl
    have own : (w.plm.asked.filter (·.stream == a.stream)) = [b] := by
      rw [asked]
      simp [b]
    change execRgrsp s = _
    unfold execRgrsp
    rw [hm]
    dsimp only
    rw [show v.plm.asked = [a] from ha, List.find?_cons_of_pos (by simp [hi])]
    dsimp only
    rw [code, show w.nodeOn a.stream = some n from hn]
    dsimp only
    rw [own, best, if_neg (by simp [b])]
    have others : ([b].filter fun y => (some b).all (·.id != y.id) && y.answer.any (·.1 == .ok)) = [] := by
      simp [b]
    rw [others]
    have bytes : x.rgrantBytes a.id a.role n.ep = s.rgrantBytes a.id a.role n.ep := by
      rw [State.rgrantBytes, State.rgrantBytes, rd_of_except kept rfl, rd_of_except kept rfl]
    have owners : x.plm.owner = s.plm.owner := rfl
    have owner : x.epOwner n.ep = s.epOwner n.ep := by
      rw [State.epOwner, State.epOwner, owners]
    rw [List.foldl_nil, stream, ← bytes, ← owner]
  have noted : (x.sendMgmt a.peer (s.rgrantBytes a.id a.role n.ep)).except 33554432 = s.except 33554432 :=
    (State.sendMgmt_same 33554432 rfl _ _ _).trans kept
  obtain ⟨f, sent, addressed, data⟩ := sendMgmt_sent x a.peer (s.rgrantBytes a.id a.role n.ep)
  have granted := nodeOn_setNode (w.setPlm fun p => { p with asked := p.asked.filter (·.stream != a.stream) }) a.stream
    a.stream (f := fun y => { y with grant := some (a.peer, a.role, a.id) }) fun _ => rfl
  rw [show (w.setPlm fun p => { p with asked := p.asked.filter (·.stream != a.stream) }).nodeOn a.stream = some n from
    hn,
    Option.map_some, if_pos stream] at granted
  have empty : (x.sendMgmt a.peer (s.rgrantBytes a.id a.role n.ep)).plm.asked = [] := by
    change w.plm.asked.filter (·.stream != a.stream) = []
    rw [asked]
    simp [b]
  have entry : (x.sendMgmt a.peer (s.rgrantBytes a.id a.role n.ep)).nodeOn a.stream =
      some { n with grant := some (a.peer, a.role, a.id) } := granted
  have queue : (x.sendMgmt a.peer (s.rgrantBytes a.id a.role n.ep)).plm.queue = s.plm.queue ++ [f] := sent
  generalize x.sendMgmt a.peer (s.rgrantBytes a.id a.role n.ep) = y at command noted empty entry queue
  obtain ⟨q, plm⟩ := plm_partner y 6 a.stream
  have told (z : State) (k t d : Nat) : (z.log k t d).plm = z.plm ∧ (z.log k t d).events =
      z.events ++ [⟨k, t, leBytes 8 d⟩] := ⟨rfl, rfl⟩
  refine ⟨_, command, ?_, ?_, ⟨f, ?_, addressed, data⟩, ?_⟩
  · rw [State.tellGrant, (told _ _ _ _).1, plm]
    exact empty
  · rw [nodeOn_of_nodes (tables_iff.mp (tables_tellGrant _ _ _ _ _)).1, entry]
    rfl
  · rw [State.tellGrant, (told _ _ _ _).1, plm]
    exact queue
  · rw [Logged, State.tellGrant, (told _ _ _ _).2, part_of_except (State.partner_same 33554433 rfl _ _ _) .events rfl,
      part_of_except noted .events rfl]

/-! ### RGRANT (R398) -/

section
variable {s u : State} {m : MgmtIn} (hm : s.takeMgmt 0x22 = some (m, u))
include hm

theorem rgrant_grants {x : Probe} (hg : ∀ g ∈ s.plm.grants, ¬(g.id = leAt m.data 1 2 ∧ g.home = m.orig))
    (hx : s.plm.probes.find? (fun x => x.id == leAt m.data 1 2 && x.home == m.orig) = some x) :
    Answers .rgrant s fun t =>
      (∀ y ∈ t.plm.probes, y.id ≠ x.id) ∧ ∃ g : RepGrant, t.plm.grants = s.plm.grants ++ [g] ∧
        g.id = leAt m.data 1 2 ∧ g.home = m.orig ∧ g.role = leAt m.data 3 1 ∧ g.lease = leAt m.data 4 2 ∧
        g.sinks = leAt m.data 6 4 ∧ g.stream = x.stream ∧ g.entry = x.entry ∧ g.eui = x.eui := by
  obtain rfl := takeMgmt_eq hm
  let v := s.setPlm fun p => { p with mgmt := p.mgmt.erase m }
  let g : RepGrant := {
    id := leAt m.data 1 2, home := m.orig, role := leAt m.data 3 1, eui := x.eui, nid := x.nid, stream := x.stream,
    entry := x.entry, lease := leAt m.data 4 2, sinks := leAt m.data 6 4, heard := v.stamp.cyc }
  let w := v.setPlm fun p => { p with probes := p.probes.filter (·.id != x.id), grants := p.grants ++ [g] }
  have command : exec .rgrant s = .next (w.tellGrant (v.grantTc x.nid) x.stream (leAt m.data 3 1) v.saddr) := by
    have fresh : (s.plm.grants.find? fun g => g.id == leAt m.data 1 2 && g.home == m.orig) = none := by
      rw [List.find?_eq_none]
      intro g member
      simpa using hg g member
    change execRgrant s = _
    unfold execRgrant
    rw [hm]
    dsimp only
    rw [show v.plm.grants = s.plm.grants from rfl, fresh]
    dsimp only
    rw [show v.plm.probes = s.plm.probes from rfl, hx]
  obtain ⟨-, -, -, grants, probes⟩ := tables_iff.mp (tables_tellGrant w (v.grantTc x.nid) x.stream (leAt m.data 3 1)
    v.saddr)
  refine ⟨_, command, fun y member => ?_, g, grants, rfl, rfl, rfl, rfl, rfl, rfl, rfl, rfl⟩
  rw [probes] at member
  simpa using (List.mem_filter.mp member).2

theorem rgrant_renews {g : RepGrant} (hg : g ∈ s.plm.grants) (hi : g.id = leAt m.data 1 2) (ho : g.home = m.orig) :
    Answers .rgrant s fun t => SameBut [.plm] s t ∧
      ({ g with
          role := leAt m.data 3 1, lease := leAt m.data 4 2, sinks := leAt m.data 6 4,
          heard := s.stamp.cyc } : RepGrant) ∈ t.plm.grants := by
  obtain rfl := takeMgmt_eq hm
  let v := s.setPlm fun p => { p with mgmt := p.mgmt.erase m }
  have command : exec .rgrant s = .next (v.setPlm fun p => { p with
      grants := p.grants.map fun g =>
        if g.id = leAt m.data 1 2 ∧ g.home = m.orig then
          { g with role := leAt m.data 3 1, lease := leAt m.data 4 2, sinks := leAt m.data 6 4, heard := v.stamp.cyc }
        else g }) := by
    obtain ⟨y, found⟩ : ∃ y, (s.plm.grants.find? fun g => g.id == leAt m.data 1 2 && g.home == m.orig) = some y :=
      Option.isSome_iff_exists.mp (List.find?_isSome.mpr ⟨g, hg, by simp [hi, ho]⟩)
    change execRgrant s = _
    unfold execRgrant
    rw [hm]
    dsimp only
    rw [show v.plm.grants = s.plm.grants from rfl, found]
  exact ⟨_, command, sameBut_of_except ((State.setPlm_same 33554432 rfl v _).trans
    (State.setPlm_same 33554432 rfl _ _)),
    List.mem_map.mpr ⟨g, hg, if_pos ⟨hi, ho⟩⟩⟩

end

/-! ### The end of a grant (R398 to R401) -/

/-- A grant that is dropped is out of the list; the removal of its entry is asked for and its end logged. -/
theorem dropGrant_parts (s : State) (g : RepGrant) :
    (s.dropGrant g).grantOn g.stream = none ∧ (∃ r ∈ (s.dropGrant g).plm.due, r.idx = g.entry ∧ r.remove = true) ∧
    Logged s (s.dropGrant g) 0x6021 (s.grantTc g.nid) (g.stream + s.saddr * 2 ^ 16) := by
  let v := s.setPlm fun p => { p with grants := p.grants.filter (·.stream != g.stream) }
  obtain ⟨l, c, dropped⟩ := plm_dropEntry v g.entry g.stream
  obtain ⟨-, due, -, grants, -⟩ := tables_iff.mp
    (tables_tellGrant (v.dropEntry g.entry g.stream) (s.grantTc g.nid) g.stream 0 s.saddr)
  have told (z : State) (k t d : Nat) : (z.log k t d).events = z.events ++ [⟨k, t, leBytes 8 d⟩] := rfl
  have shape : s.dropGrant g = (v.dropEntry g.entry g.stream).tellGrant (s.grantTc g.nid) g.stream 0 s.saddr := rfl
  have events : (v.dropEntry g.entry g.stream).events = s.events :=
    part_of_except (State.dropEntry_same 50331649 rfl v _ _) .events rfl
  rw [shape]
  refine ⟨?_, ⟨⟨g.entry, 0, g.stream, true, c⟩, ?_, rfl, rfl⟩, ?_⟩
  · rw [State.grantOn, grants, dropped, List.find?_eq_none]
    intro x member
    simpa using (List.mem_filter.mp member).2
  · rw [due, dropped]
    exact List.mem_append_right _ (List.mem_singleton.mpr rfl)
  · rw [Logged, State.tellGrant, told, part_of_except (State.partner_same 33554433 rfl _ _ _) .events rfl, events,
      Nat.zero_mul, Nat.add_zero]

theorem stream_of_grantOn {s : State} {k : Nat} {g : RepGrant} (h : s.grantOn k = some g) : g.stream = k := by
  simpa using List.find?_some h

theorem rgrev_answers {s u : State} {m : MgmtIn} {g : RepGrant} (hm : s.takeMgmt 0x23 = some (m, u))
    (hg : s.plm.grants.find? (fun g => g.id == leAt m.data 1 2 && g.home == m.orig) = some g) :
    Answers .rgrev s fun t =>
      t.grantOn g.stream = none ∧ (∃ r ∈ t.plm.due, r.idx = g.entry ∧ r.remove = true) ∧
      Logged s t 0x6021 (s.grantTc g.nid) (g.stream + s.saddr * 2 ^ 16) := by
  obtain rfl := takeMgmt_eq hm
  let v := s.setPlm fun p => { p with mgmt := p.mgmt.erase m }
  have command : exec .rgrev s = .next (v.dropGrant g) := by
    change execRgrev s = _
    unfold execRgrev
    rw [hm]
    dsimp only
    rw [show v.plm.grants = s.plm.grants from rfl, hg]
  exact ⟨_, command, dropGrant_parts v g⟩

theorem grantRenew_answers {s : State} {k : Fin 64} {n : NodeEntry} {peer role id : Nat} (hn : s.nodeOn k.val = some n)
    (hg : n.grant = some (peer, role, id)) :
    Answers (.grantRenew k) s fun t => SameBut [.plm] s t ∧
      ∃ f : TxFrame, t.plm.queue = s.plm.queue ++ [f] ∧ f.fdst = peer ∧ f.data = s.rgrantBytes id role n.ep := by
  have command : exec (.grantRenew k) s = .next (s.sendMgmt peer (s.rgrantBytes id role n.ep)) := by
    change execGrantRenew k s = _
    unfold execGrantRenew
    rw [hn]
    dsimp only
    rw [hg]
  exact ⟨_, command, sameBut_of_except (State.sendMgmt_same 33554432 rfl _ _ _), sendMgmt_sent s _ _⟩

section
variable {s : State} {k : Fin 64} {g : RepGrant} (hg : s.grantOn k.val = some g)
include hg

theorem dropped_grant : (s.dropGrant g).grantOn k.val = none ∧
    ∃ r ∈ (s.dropGrant g).plm.due, r.idx = g.entry ∧ r.remove = true := by
  obtain ⟨gone, due, -⟩ := dropGrant_parts s g
  rw [stream_of_grantOn hg] at gone
  exact ⟨gone, due⟩

theorem grantExpire_answers (hl : g.lease ≤ min (s.stamp.cyc - g.heard) (s.rd PLM_RG_DEAD)) :
    Answers (.grantExpire k) s fun t =>
      t.grantOn k.val = none ∧ ∃ r ∈ t.plm.due, r.idx = g.entry ∧ r.remove = true := by
  have command : exec (.grantExpire k) s = .next (s.dropGrant g) := by
    change execGrantExpire k s = _
    unfold execGrantExpire
    rw [hg]
    dsimp only
    rw [if_pos hl]
  exact ⟨_, command, dropped_grant hg⟩

theorem takeoverLimit_answers (ht : g.taken.isSome = true) (hc : g.heard + s.rd PLM_RG_MAXACT ≤ s.stamp.cyc) :
    Answers (.takeoverLimit k) s fun t =>
      t.grantOn k.val = none ∧ ∃ r ∈ t.plm.due, r.idx = g.entry ∧ r.remove = true := by
  have command : exec (.takeoverLimit k) s = .next (s.dropGrant g) := by
    change execTakeoverLimit k s = _
    unfold execTakeoverLimit
    rw [hg]
    dsimp only
    rw [if_pos ⟨ht, hc⟩]
  exact ⟨_, command, dropped_grant hg⟩

theorem standbyTakeover_answers (h1 : g.role = 1) (ht : g.taken = none)
    (hc : g.heard + s.rd PLM_RG_DEAD ≤ s.stamp.cyc) :
    Answers (.standbyTakeover k) s fun t =>
      (t.grantOn k.val).map (·.taken) = some (some s.stamp.cyc) ∧
      Logged s t 0x6021 (s.grantTc g.nid) (g.stream + 2 * 2 ^ 8 + s.saddr * 2 ^ 16) := by
  let v := s.setPlm fun p => { p with
    grants := p.grants.map fun x => if x.stream = g.stream then { x with taken := some s.stamp.cyc } else x }
  have command : exec (.standbyTakeover k) s = .next (v.tellGrant (s.grantTc g.nid) g.stream 2 s.saddr) := by
    change execStandbyTakeover k s = _
    unfold execStandbyTakeover
    rw [hg]
    dsimp only
    rw [if_neg (by rw [ht]; simp [h1]; omega)]
  have stream : (fun x : RepGrant => x.stream == k.val) ∘ (fun x : RepGrant =>
      if x.stream = g.stream then { x with taken := some s.stamp.cyc } else x) = fun x => x.stream == k.val := by
    funext x
    dsimp only [Function.comp]
    split <;> rfl
  obtain ⟨-, -, -, grants, -⟩ := tables_iff.mp (tables_tellGrant v (s.grantTc g.nid) g.stream 2 s.saddr)
  have found : s.plm.grants.find? (·.stream == k.val) = some g := hg
  have told (z : State) (c t d : Nat) : (z.log c t d).events = z.events ++ [⟨c, t, leBytes 8 d⟩] := rfl
  refine ⟨_, command, ?_, ?_⟩
  · rw [State.grantOn, grants]
    change ((s.plm.grants.map fun x => if x.stream = g.stream then { x with taken := some s.stamp.cyc } else x).find?
      (·.stream == k.val)).map (·.taken) = _
    rw [List.find?_map, stream, found, Option.map_some, if_pos rfl]
    rfl
  · rw [Logged, State.tellGrant, told, part_of_except (State.partner_same 33554433 rfl _ _ _) .events rfl]
    rfl

end

/-- Settles O39. -/
theorem repeatersComplete : Obligations.RepeatersComplete := by
  unfold Obligations.RepeatersComplete
  exact ⟨fun s u m hm hp => ⟨fun ha => rgreq_refuses hm hp ha,
      fun a x st en hl ha hx h0 hs he hf => rgreq_probes hm hp hl ha hx h0 hs he hf⟩,
    fun s k x hx h0 hc => probeTimeout_answers hx h0 hc, fun s u m a n hm ha hi hn hc hl => rgrsp_answers hm ha hi hn
      hc hl,
    fun s u m hm => ⟨fun x hg hx => rgrant_grants hm hg hx, fun g hg hi ho => rgrant_renews hm hg hi ho⟩,
    fun s u m g hm hg => rgrev_answers hm hg, fun s k n peer role id hn hg => grantRenew_answers hn hg,
    fun s k g hg => ⟨fun hl => grantExpire_answers hg hl, fun ht hc => takeoverLimit_answers hg ht hc,
      fun h1 ht hc => standbyTakeover_answers hg h1 ht hc⟩⟩

end Sys2Proof.Machine

/-! ## The sweep chain (O40, O41) -/

namespace Sys2Proof.Machine

open Reg

set_option autoImplicit false

/-! ### Frames of the chain (R388) -/

theorem chainTake_some {s u : State} {type len : Nat} {f : ChainFrame} {b : List Byte}
    (h : s.chainTake type len f = (some b, u)) : s.swcRuns = true ∧ u = s.count SWC_CGERRN f.bad.toNat := by
  unfold State.chainTake at h
  split at h
  · exact absurd (Prod.mk.inj h).1 (by simp)
  next runs =>
    dsimp only at h
    split at h
    · exact ⟨by simpa using runs, (Prod.mk.inj h).2.symm⟩
    · exact absurd (Prod.mk.inj h).1 (by simp)

/-- A device that takes a frame stays what it is. -/
theorem head_count (s : State) (n : Nat) : (s.count SWC_CGERRN n).swcHead = s.swcHead := on_count_free (by decide) s n

theorem chainBytes_of_pos {s t : State} (h : t.rd SWC_POS = s.rd SWC_POS) (type : Nat) (p : List Byte) :
    t.chainBytes type p = s.chainBytes type p := by
  rw [State.chainBytes, State.chainBytes, h]

theorem sendUp_sends {s : State} (hu : s.on SWC_UPLNK = true) (hh : s.swcHead = false) (type : Nat) (p : List Byte) :
    s.sendUp type p = s.send .chainUp (byteNats (s.chainBytes type p)) := if_pos ⟨hu, hh⟩

theorem sendDown_sends {s : State} (hd : s.on SWC_DNLNK = true) (type : Nat) (p : List Byte) :
    s.sendDown type p = s.send .chainDown (byteNats (s.chainBytes type p)) := if_pos hd

@[simp] theorem rd_sendUp (s : State) (type : Nat) (p : List Byte) (f : Fld) : (s.sendUp type p).rd f = s.rd f :=
  rd_of_except (State.sendUp_same 1024 rfl _ _ _) rfl f

@[simp] theorem rd_sendDown (s : State) (type : Nat) (p : List Byte) (f : Fld) : (s.sendDown type p).rd f = s.rd f :=
  rd_of_except (State.sendDown_same 1024 rfl _ _ _) rfl f

@[simp] theorem on_sendUp (s : State) (type : Nat) (p : List Byte) (f : Fld) : (s.sendUp type p).on f = s.on f := by
  rw [State.on, rd_sendUp, State.on]

@[simp] theorem on_sendDown (s : State) (type : Nat) (p : List Byte) (f : Fld) : (s.sendDown type p).on f = s.on f := by
  rw [State.on, rd_sendDown, State.on]

theorem out_send (s : State) (c : Channel) (l : List Nat) : (s.send c l).out = s.out ++ [⟨c, l⟩] := rfl

/-! ### Links (R386, R391) -/

/-- The bit of a link. -/
def linkField (upstream : Bool) : Fld := if upstream then SWC_UPLNK else SWC_DNLNK

/-- The state once a link's bit has changed. -/
def State.linkChanged (s : State) (upstream up : Bool) : State :=
  let v := (s.wr (linkField upstream) (b2n up)).raise 0x0C0 0
  if up then v else v.count SWC_LINKDNN

theorem linkSet_changes {s : State} {upstream up : Bool} (h : s.on (linkField upstream) ≠ up) (hh : s.swcHead = false) :
    s.linkSet upstream up =
      if upstream then if up then s.linkChanged upstream up else (s.linkChanged upstream up).wr SWC_POS 0x3F
      else (s.linkChanged upstream up).sendUp 0x09 (leBytes 1 ((s.linkChanged upstream up).rd SWC_POS) ++
        leBytes 1 (b2n up)) := by
  have head : (s.linkChanged upstream up).swcHead = false := by
    rw [← hh]
    unfold State.swcHead State.linkChanged linkField
    cases upstream <;> cases up <;> simp (disch := decide) [on_count_free, on_raise_free, on_wr_free]
  have shape : s.linkSet upstream up =
      if upstream then
        if up || (s.linkChanged upstream up).swcHead then s.linkChanged upstream up
        else (s.linkChanged upstream up).wr SWC_POS 0x3F
      else if (s.linkChanged upstream up).swcHead then (s.linkChanged upstream up).enumerate
      else (s.linkChanged upstream up).sendUp 0x09 (leBytes 1 ((s.linkChanged upstream up).rd SWC_POS) ++
        leBytes 1 (b2n up)) := if_neg h
  rw [shape, head, Bool.or_false, if_neg Bool.false_ne_true]

theorem rd_linkChanged (s : State) (upstream up : Bool) {g : Fld} (hl : SWC_UPLNK.free g = true)
    (hd : SWC_DNLNK.free g = true) (hr : (IRQ_RAW 0x0C0).free g = true) (hc : up = true ∨ SWC_LINKDNN.free g = true) :
    (s.linkChanged upstream up).rd g = s.rd g := by
  have link : (linkField upstream).free g = true := by
    cases upstream
    · exact hd
    · exact hl
  unfold State.linkChanged
  dsimp only
  split
  · rw [rd_raise_free hr, rd_wr_free link]
  next down => rw [rd_count_free (hc.resolve_left down), rd_raise_free hr, rd_wr_free link]

theorem on_linkChanged_same (s : State) (upstream up : Bool) :
    (s.linkChanged upstream up).on (linkField upstream) = up := by
  have link (v : State) (h : SWC_LINKDNN.free (linkField upstream) = true)
      (hr : (IRQ_RAW 0x0C0).free (linkField upstream) = true) (hn : (linkField upstream).narrow = true)
      (hw : 0 < (linkField upstream).width) : (v.linkChanged upstream up).on (linkField upstream) = up := by
    unfold State.linkChanged
    dsimp only
    split
    · rw [on_raise_free hr, on_wr_b2n hn hw]
    · rw [on_count_free h, on_raise_free hr, on_wr_b2n hn hw]
  cases upstream
  · exact link s (by decide) (by decide) rfl (by decide)
  · exact link s (by decide) (by decide) rfl (by decide)

theorem out_linkChanged (s : State) (upstream up : Bool) : (s.linkChanged upstream up).out = s.out := by
  refine part_of_except (m := 1) ?_ .out rfl
  unfold State.linkChanged
  dsimp only
  split
  · exact (State.raise_same 1 rfl _ _ _).trans (State.wr_same 1 rfl _ _ _)
  · exact (State.count_same 1 rfl _ _ _).trans ((State.raise_same 1 rfl _ _ _).trans (State.wr_same 1 rfl _ _ _))

/-- A link's bit follows, and the count of bad code groups stands. -/
theorem linkSet_link (s : State) (upstream up : Bool) (hh : s.swcHead = false) :
    (s.linkSet upstream up).on (linkField upstream) = up ∧ (s.linkSet upstream up).rd SWC_CGERRN = s.rd SWC_CGERRN := by
  by_cases same : s.on (linkField upstream) = up
  · have kept : s.linkSet upstream up = s := if_pos same
    rw [kept]
    exact ⟨same, rfl⟩
  · have own := on_linkChanged_same s upstream up
    have counts := rd_linkChanged s upstream up (g := SWC_CGERRN) (by decide) (by decide) (by decide)
      (Or.inr (by decide))
    have position (v : State) : (v.wr SWC_POS 0x3F).on SWC_UPLNK = v.on SWC_UPLNK := on_wr_free (by decide) _ _
    rw [linkSet_changes same hh]
    cases upstream
    · rw [if_neg Bool.false_ne_true, on_sendUp, rd_sendUp]
      exact ⟨own, counts⟩
    · rw [if_pos rfl]
      cases up
      · rw [if_neg Bool.false_ne_true, rd_wr_free (by decide)]
        exact ⟨(position _).trans own, counts⟩
      · rw [if_pos rfl]
        exact ⟨own, counts⟩

section
variable {s : State} (hr : s.swcRuns = true) (hh : s.swcHead = false) (bad : BitVec 16)
include hr hh

omit hh in
theorem linkUp_eq (up : Bool) :
    exec (.linkUp up bad) s = .next ((s.count SWC_CGERRN bad.toNat).linkSet up true) := by
  change execLinkUp up bad s = _
  unfold execLinkUp
  rw [hr, if_pos rfl]

omit hh in
theorem linkDown_eq (up : Bool) :
    exec (.linkDown up bad) s = .next ((s.count SWC_CGERRN bad.toNat).linkSet up false) := by
  change execLinkDown up bad s = _
  unfold execLinkDown
  rw [hr, if_pos rfl]

omit hr in
/-- What a device that is not the head tells of its downstream link. -/
theorem linkSet_tells {up : Bool} (hd : s.on SWC_DNLNK ≠ up) (hu : s.on SWC_UPLNK = true) :
    (s.linkSet false up).out =
      s.out ++ [⟨.chainUp, byteNats (s.chainBytes 0x09 (leBytes 1 (s.rd SWC_POS) ++ leBytes 1 (b2n up)))⟩] := by
  have pos : (s.linkChanged false up).rd SWC_POS = s.rd SWC_POS :=
    rd_linkChanged s false up (by decide) (by decide) (by decide) (Or.inr (by decide))
  have upstream : (s.linkChanged false up).on SWC_UPLNK = true := by
    rw [← hu]
    unfold State.linkChanged
    cases up <;> simp (disch := decide) [on_count_free, on_raise_free, on_wr_free, linkField]
  have head : (s.linkChanged false up).swcHead = false :=
    (congrArg (· == 1) (rd_linkChanged s false up (g := SWC_HEAD) (by decide) (by decide) (by decide)
      (Or.inr (by decide)))).trans hh
  rw [linkSet_changes hd hh, if_neg Bool.false_ne_true, sendUp_sends upstream head, out_send, out_linkChanged,
    chainBytes_of_pos pos, pos]

theorem linkUp_answers (up : Bool) : Answers (.linkUp up bad) s fun t =>
    t.on (if up then SWC_UPLNK else SWC_DNLNK) = true ∧
    t.rd SWC_CGERRN = satNat 16 (s.rd SWC_CGERRN + bad.toNat) ∧
    (up = false → s.on SWC_DNLNK = false → s.on SWC_UPLNK = true →
      t.out = s.out ++ [⟨.chainUp, byteNats (s.chainBytes 0x09 (leBytes 1 (s.rd SWC_POS) ++ [1]))⟩]) := by
  have head : (s.count SWC_CGERRN bad.toNat).swcHead = false := (head_count s _).trans hh
  obtain ⟨link, count⟩ := linkSet_link (s.count SWC_CGERRN bad.toNat) up true head
  refine ⟨_, linkUp_eq hr bad up, link, count.trans (rd_count_same _ _ _ rfl), fun down off hu => ?_⟩
  have told := linkSet_tells (s := s.count SWC_CGERRN bad.toNat) head (up := true)
    (by rw [on_count_free (by decide), off]; decide) (by rw [on_count_free (by decide), hu])
  rw [rd_count_free (by decide), chainBytes_of_pos (rd_count_free (by decide) _ _),
    part_of_except (State.count_same 1 rfl s _ _) .out rfl] at told
  rw [down]
  exact told

theorem linkDown_answers (up : Bool) : Answers (.linkDown up bad) s fun t =>
    t.on (if up then SWC_UPLNK else SWC_DNLNK) = false ∧
    t.rd SWC_CGERRN = satNat 16 (s.rd SWC_CGERRN + bad.toNat) ∧
    (up = true → s.on SWC_UPLNK = true → t.rd SWC_POS = 0x3F ∧
      t.rd SWC_LINKDNN = satNat 16 (s.rd SWC_LINKDNN + 1)) ∧
    (up = false → s.on SWC_DNLNK = true → s.on SWC_UPLNK = true →
      t.out = s.out ++ [⟨.chainUp, byteNats (s.chainBytes 0x09 (leBytes 1 (s.rd SWC_POS) ++ [0]))⟩]) := by
  have head : (s.count SWC_CGERRN bad.toNat).swcHead = false := (head_count s _).trans hh
  obtain ⟨link, count⟩ := linkSet_link (s.count SWC_CGERRN bad.toNat) up false head
  refine ⟨_, linkDown_eq hr bad up, link, count.trans (rd_count_same _ _ _ rfl), fun upstream hu => ?_,
    fun down hd hu => ?_⟩
  · have was : (s.count SWC_CGERRN bad.toNat).on (linkField true) ≠ false := by
      rw [linkField, if_pos rfl, on_count_free (by decide), hu]
      decide
    rw [upstream, linkSet_changes was head, if_pos rfl, if_neg Bool.false_ne_true]
    refine ⟨rd_wr_lt rfl (by decide) _, ?_⟩
    rw [rd_wr_free (by decide), State.linkChanged, if_neg Bool.false_ne_true, rd_count_same _ _ _ rfl]
    simp (disch := decide) only [rd_raise_free, rd_wr_free, rd_count_free, linkField, if_true]
    rfl
  · have told := linkSet_tells (s := s.count SWC_CGERRN bad.toNat) head (up := false)
      (by rw [on_count_free (by decide), hd]; decide) (by rw [on_count_free (by decide), hu])
    rw [rd_count_free (by decide), chainBytes_of_pos (rd_count_free (by decide) _ _),
      part_of_except (State.count_same 1 rfl s _ _) .out rfl] at told
    rw [down]
    exact told

end

set_option autoImplicit false

/-! ### ENUM (R390) -/

theorem leAt_lt (l : List Byte) (o k : Nat) : leAt l o k < 256 ^ k := by
  have short : ((l.drop o).take k).length ≤ k := by
    rw [List.length_take]
    omega
  exact Nat.lt_of_lt_of_le (leNat_lt _) (Nat.pow_le_pow_right (by decide) short)

section
variable {s u : State} {f : ChainFrame} {b : List Byte} (ht : s.chainTake 0x01 3 f = (some b, u))
  (hh : s.swcHead = false)
include ht hh

theorem enum_places (hp : leAt b 0 1 ≤ 31) (hu : s.on SWC_UPLNK = true) (hd : s.on SWC_DNLNK = true) :
    Answers (.enum f) s fun t =>
      t.rd SWC_POS = leAt b 0 1 ∧ t.on SWC_OVER = false ∧ t.rd SWC_ENUMNO = leAt b 1 2 ∧
      ∃ x y, t.out = s.out ++ [⟨.chainUp, x⟩, ⟨.chainDown, y⟩] := by
  obtain ⟨-, rfl⟩ := chainTake_some ht
  let v := s.count SWC_CGERRN f.bad.toNat
  let w := ((v.wr SWC_POS (leAt b 0 1)).wr SWC_OVER 0).wr SWC_ENUMNO (leAt b 1 2)
  let p := leBytes 1 (leAt b 0 1) ++ leBytes 8 w.eui ++ leBytes 1 (w.rd SYS_SIREV) ++ leBytes 1 (w.rd SWC_DNLNK) ++
    leBytes 2 (leAt b 1 2)
  let q := leBytes 1 (leAt b 0 1 + 1) ++ leBytes 2 (leAt b 1 2)
  have command : exec (.enum f) s = .next ((w.sendUp 0x02 p).sendDown 0x01 q) := by
    change execEnum f s = _
    unfold execEnum
    rw [ht]
    dsimp only
    rw [head_count, hh, if_neg Bool.false_ne_true, if_pos hp]
  have up : w.on SWC_UPLNK = true := by
    simp (disch := decide) only [w, v, on_wr_free, on_count_free, hu]
  have down : (w.sendUp 0x02 p).on SWC_DNLNK = true := by
    simp (disch := decide) only [w, v, on_sendUp, on_wr_free, on_count_free, hd]
  have head : w.swcHead = false := by
    rw [← hh]
    unfold State.swcHead
    simp (disch := decide) only [w, v, on_wr_free, on_count_free]
  have out : w.out = s.out := part_of_except ((State.wr_same 1 rfl _ _ _).trans ((State.wr_same 1 rfl _ _ _).trans
    ((State.wr_same 1 rfl _ _ _).trans (State.count_same 1 rfl _ _ _)))) .out rfl
  have number : leAt b 1 2 < 2 ^ 16 := leAt_lt b 1 2
  refine ⟨_, command, ?_, ?_, ?_, ?_⟩
  · rw [rd_sendDown, rd_sendUp]
    simp (disch := decide) only [w, rd_wr_free]
    exact rd_wr_lt rfl (show _ < 2 ^ 6 by omega) _
  · rw [on_sendDown, on_sendUp]
    simp (disch := decide) only [w, on_wr_free]
    exact on_wr_b2n rfl (by decide) _ false
  · rw [rd_sendDown, rd_sendUp]
    exact rd_wr_lt rfl number _
  · rw [sendDown_sends down, out_send, sendUp_sends up head, out_send, out, List.append_assoc]
    exact ⟨_, _, rfl⟩

theorem enum_over (hp : leAt b 0 1 = 32) : Answers (.enum f) s fun t =>
    t.rd SWC_POS = 0x3F ∧ t.on SWC_OVER = true ∧ t.out = s.out ∧ Logged s t 0x8002 deviceTc (leAt b 1 2) := by
  obtain ⟨-, rfl⟩ := chainTake_some ht
  let v := s.count SWC_CGERRN f.bad.toNat
  let w := (v.wr SWC_POS 0x3F).wr SWC_OVER 1
  have command : exec (.enum f) s = .next (w.log 0x8002 deviceTc (leAt b 1 2)) := by
    change execEnum f s = _
    unfold execEnum
    rw [ht]
    dsimp only
    rw [head_count, hh, if_neg Bool.false_ne_true, if_neg (by omega), if_pos hp]
  have kept : w.except 1 = s.except 1 := (State.wr_same 1 rfl _ _ _).trans ((State.wr_same 1 rfl _ _ _).trans
    (State.count_same 1 rfl _ _ _))
  have told (x : State) (c t d : Nat) : (x.log c t d).out = x.out ∧ (x.log c t d).events =
      x.events ++ [⟨c, t, leBytes 8 d⟩] := ⟨rfl, rfl⟩
  refine ⟨_, command, ?_, ?_, ?_, ?_⟩
  · rw [rd_log]
    exact (rd_wr_free (by decide) _ _).trans (rd_wr_lt rfl (by decide) _)
  · rw [on_log]
    exact on_wr_b2n rfl (by decide) _ true
  · rw [(told _ _ _ _).1, part_of_except kept .out rfl]
  · rw [Logged, (told _ _ _ _).2, part_of_except kept .events rfl]

end

/-! ### The head's enumeration (R390) -/

theorem rd_swcShow {g : Fld} (hb : SWC_ENUM_BUSY.free g = true) (hn : SWC_NOUT.free g = true) (s : State) :
    s.swcShow.rd g = s.rd g := by
  rw [State.swcShow, rd_wr_free hn, rd_wr_free hb]

theorem swcShow_busy (s : State) : s.swcShow.on SWC_ENUM_BUSY = (s.swc.enum.isSome || s.swc.wanted) := by
  rw [State.swcShow, on_wr_free (by decide)]
  exact on_wr_b2n rfl (by decide) _ _

theorem swcShow_keeps (s : State) : s.swcShow.except 1 = s.except 1 := State.swcShow_same 1 rfl s

section
variable {s : State} (hh : s.swcHead = true) (he : s.on SWC_EN = true) (hr : s.swcRuns = true)
include hh he hr

/-- With no sweep outstanding the head begins an enumeration. -/
theorem enumerate_begins (ho : s.outstanding = 0) :
    s.enumerate.swc.enum = some s.clk ∧ s.enumerate.rd SWC_ENUMNO = (s.rd SWC_ENUMNO + 1) % 65536 ∧
    s.enumerate.rd SWC_POS = 0 ∧ s.enumerate.on SWC_ENUM_BUSY = true := by
  let v := (s.wr SWC_ENUMNO ((s.rd SWC_ENUMNO + 1) % 65536)).wr SWC_POS 0
  let w := v.setSwc fun c => { c with enum := some v.clk, wanted := false, found := [] }
  have shape : s.enumerate = (w.sendDown 0x01 (leBytes 1 1 ++ leBytes 2 ((s.rd SWC_ENUMNO + 1) % 65536))).swcShow := by
    unfold State.enumerate
    rw [hh, he, hr, if_neg (by decide), if_neg (by omega)]
  have sent : (w.sendDown 0x01 (leBytes 1 1 ++ leBytes 2 ((s.rd SWC_ENUMNO + 1) % 65536))).swc = w.swc :=
    part_of_except (State.sendDown_same 1024 rfl _ _ _) .swc rfl
  have clk : v.clk = s.clk := part_of_except ((State.wr_same 1 rfl _ _ _).trans (State.wr_same 1 rfl _ _ _)) .clk rfl
  rw [shape]
  refine ⟨?_, ?_, ?_, ?_⟩
  · rw [part_of_except (swcShow_keeps _) .swc rfl, sent]
    exact congrArg some clk
  · rw [rd_swcShow (by decide) (by decide), rd_sendDown]
    exact (rd_wr_free (by decide) _ _).trans (rd_wr_lt rfl (Nat.mod_lt _ (by decide)) _)
  · rw [rd_swcShow (by decide) (by decide), rd_sendDown]
    exact rd_wr_lt rfl (by decide) _
  · rw [swcShow_busy, sent]
    rfl

/-- While a sweep is outstanding the enumeration is deferred. -/
theorem enumerate_defers (ho : s.outstanding ≠ 0) :
    s.enumerate.swc.wanted = true ∧ s.enumerate.on SWC_ENUM_BUSY = true ∧
    s.enumerate.rd SWC_ENUMNO = s.rd SWC_ENUMNO := by
  let w := s.setSwc fun c => { c with wanted := true }
  have shape : s.enumerate = w.swcShow := by
    unfold State.enumerate
    rw [hh, he, hr, if_neg (by decide), if_pos ho]
  rw [shape]
  refine ⟨?_, ?_, ?_⟩
  · rw [part_of_except (swcShow_keeps _) .swc rfl]
    rfl
  · rw [swcShow_busy]
    exact Bool.or_true _
  · rw [rd_swcShow (by decide) (by decide)]
    rfl

theorem link_answers {u : State} {f : ChainFrame} {b : List Byte} (ho : s.outstanding = 0)
    (ht : s.chainTake 0x09 2 f = (some b, u)) :
    Answers (.link f) s fun t =>
      t.swc.enum = some s.clk ∧ t.rd SWC_ENUMNO = (s.rd SWC_ENUMNO + 1) % 65536 ∧ t.rd SWC_POS = 0 ∧
      t.on SWC_ENUM_BUSY = true := by
  obtain ⟨-, rfl⟩ := chainTake_some ht
  let v := s.count SWC_CGERRN f.bad.toNat
  have kept : v.except 1 = s.except 1 := State.count_same 1 rfl _ _ _
  have command : exec (.link f) s = .next v.enumerate := by
    change execLink f s = _
    unfold execLink
    rw [ht]
    dsimp only
    rw [head_count, hh, if_pos rfl]
  have runs : v.swcRuns = true := by
    rw [← hr, State.swcRuns, State.swcRuns, State.level, State.level, rd_count_free (by decide)]
  have none' : v.outstanding = 0 := by
    rw [State.outstanding, part_of_except kept .swc rfl]
    exact ho
  obtain ⟨enum, number, pos, busy⟩ := enumerate_begins ((head_count s _).trans hh)
    ((on_count_free (by decide) _ _).trans he) runs none'
  rw [rd_count_free (by decide)] at number
  rw [part_of_except kept .clk rfl] at enum
  exact ⟨_, command, enum, number, pos, busy⟩

theorem swcEnum_done {w : RegWrite} :
    swcWrite s ⟨w.port, w.tc.val, 0x0C0, 0x070, none⟩ (BitVec.ofNat 32 (setBit w.data.toNat 0)).toNat =
      (.ok, s.enumerate) := by
  have given : bit (BitVec.ofNat 32 (setBit w.data.toNat 0)).toNat 0 = true := by
    rw [bit_command (by decide), if_pos rfl]
  exact congrArg (Prod.mk Status.ok) (if_pos given)

theorem swcEnum_begins {w : RegWrite} (hw : s.admitsWrite 0x0C0 0x070 w (setBit w.data.toNat 0) = true)
    (ho : s.outstanding = 0) : Answers (.swcEnum w) s fun t =>
      t.resp.code = .ok ∧ t.swc.enum = some s.clk ∧ t.rd SWC_ENUMNO = (s.rd SWC_ENUMNO + 1) % 65536 := by
  obtain ⟨enum, number, -, -⟩ := enumerate_begins hh he hr ho
  refine answers_write (f := fun d => setBit d 0) (h := swcWrite) rfl (by decide) hw (swcEnum_done hh he hr)
    ⟨rfl, ?_, ?_⟩
  · rw [part_of_except (State.answer_same 512 rfl _ _) .swc rfl]
    exact enum
  · rw [rd_answer]
    exact number

theorem swcEnum_defers {w : RegWrite} (hw : s.admitsWrite 0x0C0 0x070 w (setBit w.data.toNat 0) = true)
    (ho : s.outstanding ≠ 0) : Answers (.swcEnum w) s fun t =>
      t.resp.code = .ok ∧ t.swc.wanted = true ∧ t.on SWC_ENUM_BUSY = true ∧ t.rd SWC_ENUMNO = s.rd SWC_ENUMNO := by
  obtain ⟨wanted, busy, number⟩ := enumerate_defers hh he hr ho
  refine answers_write (f := fun d => setBit d 0) (h := swcWrite) rfl (by decide) hw (swcEnum_done hh he hr)
    ⟨rfl, ?_, ?_, ?_⟩
  · rw [part_of_except (State.answer_same 512 rfl _ _) .swc rfl]
    exact wanted
  · rw [on_answer]
    exact busy
  · rw [rd_answer]
    exact number

end

/-! ### The end of an enumeration (R390) -/

/-- The highest position found. -/
def SwcState.highest (c : SwcState) : Nat := c.found.foldl (fun m x => max m x.1) 0

theorem enumDone_done (s : State) :
    s.enumDone.swc.enum = none ∧ s.enumDone.clk = s.clk ∧ bit (s.enumDone.rd (IRQ_RAW 0x0C0)) 1 = true ∧
    s.enumDone.rd SWC_NDEV = (s.swc.highest + 1) % 64 ∧
    ∃ e, s.enumDone.events = s.events ++ [e] ∧ e.code = 0x8101 + s.swc.highest := by
  let n := s.swc.highest
  let l := (List.range (n + 1)).map fun k => if k = 0 then s.eui else cellAt 0 k s.swc.found
  let v := (List.range 32).foldl (fun s k => s.wr (SWC_DEV_EUI k) (l.getD k 0)) s
  let w := ((v.wr SWC_NDEV (n + 1)).setSwc fun c => { c with enum := none, found := [] }).raise 0x0C0 1
  have shape : s.enumDone = (w.log (0x8101 + n) deviceTc (trunc8 (l.flatMap (leBytes 8)))).swcShow := rfl
  have listed : v.except 1 = s.except 1 :=
    foldl_keeps (g := State.except 1) (fun u k => State.wr_same 1 rfl u _ _) _ _
  have shown : w.except 536870913 = s.except 536870913 :=
    (State.raise_same 536870913 rfl _ _ _).trans ((State.setSwc_same 536870913 rfl _ _).trans
      ((State.wr_same 536870913 rfl _ _ _).trans
        (foldl_keeps (g := State.except 536870913) (fun u k => State.wr_same 536870913 rfl u _ _) _ _)))
  have told (x : State) (c t d : Nat) : (x.log c t d).swc = x.swc ∧ (x.log c t d).clk = x.clk ∧
      (x.log c t d).events = x.events ++ [⟨c, t, leBytes 8 d⟩] := ⟨rfl, rfl, rfl⟩
  rw [shape]
  refine ⟨?_, ?_, ?_, ?_, ?_⟩
  · rw [part_of_except (swcShow_keeps _) .swc rfl, (told _ _ _ _).1,
      part_of_except (State.raise_same 1 rfl _ _ _) .swc rfl]
    rfl
  · rw [part_of_except (swcShow_keeps _) .clk rfl, (told _ _ _ _).2.1, part_of_except shown .clk rfl]
  · rw [rd_swcShow (by decide) (by decide), rd_log]
    exact bit_raise_same _ _ (by decide)
  · rw [rd_swcShow (by decide) (by decide), rd_log]
    exact (rd_raise_free (by decide) _ _).trans (rd_wr_same _ _ _ rfl)
  · rw [part_of_except (swcShow_keeps _) .events rfl, (told _ _ _ _).2.2, part_of_except shown .events rfl]
    exact ⟨_, rfl, rfl⟩

theorem enumTimeout_answers {s : State} {c : Nat} (hc : s.swc.enum = some c) (hp : s.rd CTF_PERIOD ≠ 0) :
    Answers .enumTimeout s fun t =>
      t.swc.enum = none ∧ bit (t.rd (IRQ_RAW 0x0C0)) 1 = true ∧ c + msTicks 1 ≤ t.clk := by
  have command : exec .enumTimeout s = .next (s.waitUntil (c + msTicks 1)).enumDone := by
    change execEnumTimeout s = _
    unfold execEnumTimeout
    rw [hc]
  obtain ⟨enum, clk, raised, -⟩ := enumDone_done (s.waitUntil (c + msTicks 1))
  refine ⟨_, command, enum, raised, ?_⟩
  rw [clk]
  exact waitUntil_clk hp _

/-! ### ANNOUNCE (R389, R390) -/

section
variable {s u : State} {f : ChainFrame} {b : List Byte} (ht : s.chainTake 0x02 13 f = (some b, u))
include ht

theorem announce_passes (hh : s.swcHead = false) (hu : s.on SWC_UPLNK = true) (ho : s.on SWC_OVER = false) :
    Answers (.announce f) s fun t => t.out = s.out ++ [⟨.chainUp, byteNats f.bytes⟩] := by
  obtain ⟨-, rfl⟩ := chainTake_some ht
  let v := s.count SWC_CGERRN f.bad.toNat
  have command : exec (.announce f) s = .next (v.send .chainUp (byteNats f.bytes)) := by
    change execAnnounce f s = _
    unfold execAnnounce
    rw [ht]
    dsimp only
    rw [head_count, hh, Bool.not_false, if_pos rfl]
    unfold State.relayUp
    rw [if_pos ⟨(on_count_free (by decide) _ _).trans hu, (on_count_free (by decide) _ _).trans ho⟩]
  refine ⟨_, command, ?_⟩
  dsimp only
  rw [out_send, part_of_except (State.count_same 1 rfl _ _ _) .out rfl]

section
variable (hh : s.swcHead = true) (he : s.swc.enum ≠ none) (hn : leAt b 11 2 = s.rd SWC_ENUMNO) (h1 : 1 ≤ leAt b 0 1)
  (h31 : leAt b 0 1 ≤ 31)
include hh he hn h1 h31

/-- The head enters the device; the last one ends the enumeration. -/
theorem announce_eq : exec (.announce f) s = .next (
    if bit (leAt b 10 1) 0 then
      u.setSwc fun c => { c with found := cellInsert (leAt b 0 1) (leAt b 1 8) c.found }
    else (u.setSwc fun c => { c with found := cellInsert (leAt b 0 1) (leAt b 1 8) c.found }).enumDone) := by
  obtain ⟨-, rfl⟩ := chainTake_some ht
  have swc : (s.count SWC_CGERRN f.bad.toNat).swc = s.swc := part_of_except (State.count_same 1 rfl _ _ _) .swc rfl
  change execAnnounce f s = _
  unfold execAnnounce
  rw [ht]
  dsimp only
  rw [head_count, hh, Bool.not_true, if_neg Bool.false_ne_true, if_pos]
  refine ⟨?_, ?_, h1, h31⟩
  · rw [swc]
    exact Option.isSome_iff_ne_none.mpr he
  · rw [rd_count_free (by decide)]
    exact hn

theorem announce_enters (hb : bit (leAt b 10 1) 0 = true) : Answers (.announce f) s fun t =>
    t.swc.found = cellInsert (leAt b 0 1) (leAt b 1 8) s.swc.found ∧ t.swc.enum = s.swc.enum := by
  have command := announce_eq ht hh he hn h1 h31
  rw [if_pos hb] at command
  obtain ⟨-, rfl⟩ := chainTake_some ht
  have swc : (s.count SWC_CGERRN f.bad.toNat).swc = s.swc := part_of_except (State.count_same 1 rfl _ _ _) .swc rfl
  refine ⟨_, command, ?_, ?_⟩
  · rw [← swc]
    rfl
  · rw [← swc]
    rfl

theorem announce_ends (hb : bit (leAt b 10 1) 0 = false) (hf : s.swc.found = []) : Answers (.announce f) s fun t =>
    t.swc.enum = none ∧ t.rd SWC_NDEV = leAt b 0 1 + 1 ∧ bit (t.rd (IRQ_RAW 0x0C0)) 1 = true ∧
    ∃ e, t.events = s.events ++ [e] ∧ e.code = 0x8101 + leAt b 0 1 := by
  have command := announce_eq ht hh he hn h1 h31
  rw [hb, if_neg Bool.false_ne_true] at command
  obtain ⟨-, rfl⟩ := chainTake_some ht
  have kept : (s.count SWC_CGERRN f.bad.toNat).except 1 = s.except 1 := State.count_same 1 rfl _ _ _
  let v := (s.count SWC_CGERRN f.bad.toNat).setSwc fun c =>
    { c with found := cellInsert (leAt b 0 1) (leAt b 1 8) c.found }
  have highest : v.swc.highest = leAt b 0 1 := by
    change ((cellInsert (leAt b 0 1) (leAt b 1 8) (s.count SWC_CGERRN f.bad.toNat).swc.found).foldl
      (fun m x => max m x.1) 0) = _
    rw [part_of_except kept .swc rfl, hf]
    exact Nat.zero_max _
  obtain ⟨enum, -, raised, devices, e, events, code⟩ := enumDone_done v
  rw [highest] at devices code
  refine ⟨_, command, enum, ?_, raised, e, ?_, code⟩
  · rw [devices]
    omega
  · rw [events, ← part_of_except kept .events rfl]
    rfl

end
end

/-! ### Stamp alignment (R393, R394) -/

theorem alignExchange_answers {s : State} (t1 : BitVec 8) (hr : s.swcRuns = true) (hu : s.on SWC_UPLNK = true)
    (hh : s.swcHead = false) (hd : ∀ c, s.swc.last = some c → c + s.rd SWC_APER ≤ s.ctf.cyc) :
    Answers (.alignExchange t1) s fun t =>
      t.swc.req = some ⟨s.swc.seq, s.chainTime t1⟩ ∧ t.swc.last = some s.ctf.cyc ∧
      t.out = s.out ++ [⟨.chainUp, byteNats (s.chainBytes 0x03 (leBytes 2 s.swc.seq))⟩] := by
  let v := s.setSwc fun c => { c with
    seq := (s.swc.seq + 1) % 65536, req := some ⟨s.swc.seq, s.chainTime t1⟩, last := some s.ctf.cyc }
  have command : exec (.alignExchange t1) s = .next (v.send .chainUp (byteNats
    (v.chainBytes 0x03 (leBytes 2 s.swc.seq)))) := by
    rw [← sendUp_sends (s := v) hu hh]
    change execAlignExchange t1 s = _
    unfold execAlignExchange
    cases last : s.swc.last with
    | none =>
      dsimp only
      rw [hr, hu, hh, if_neg (by decide)]
    | some c =>
      dsimp only
      rw [hr, hu, hh, decide_eq_true (hd c last), if_neg (by decide)]
  refine ⟨_, command, rfl, rfl, ?_⟩
  rw [out_send, chainBytes_of_pos (s := s) (t := v) rfl]
  rfl

theorem alignreq_answers {s u : State} {f : ChainFrame} {b : List Byte} (t2 : BitVec 8) (turn : BitVec 32)
    (ht : s.chainTake 0x03 2 f = (some b, u)) (hd : s.on SWC_DNLNK = true) :
    Answers (.alignreq f t2 turn) s fun t =>
      t.out = s.out ++ [⟨.chainDown, byteNats (s.chainBytes 0x04 (b ++ leBytes 9 (s.chainTime t2) ++
        leBytes 9 (s.chainTime t2 + turn.toNat) ++ leBytes 9 (unsigned 72 s.chainOffset) ++
        leBytes 1 (s.rd SWC_ALIGNED)))⟩] := by
  obtain ⟨-, rfl⟩ := chainTake_some ht
  let v := s.count SWC_CGERRN f.bad.toNat
  have kept : v.except 1 = s.except 1 := State.count_same 1 rfl _ _ _
  have time : v.chainTime t2 = s.chainTime t2 := by
    rw [State.chainTime, State.chainTime, State.stamp, State.stamp, part_of_except kept .ctf rfl]
  have offset : v.chainOffset = s.chainOffset := by
    rw [State.chainOffset, State.chainOffset, head_count, part_of_except kept .swc rfl]
  have aligned : v.rd SWC_ALIGNED = s.rd SWC_ALIGNED := rd_count_free (by decide) _ _
  have command : exec (.alignreq f t2 turn) s = .next (v.sendDown 0x04 (b ++ leBytes 9 (s.chainTime t2) ++
      leBytes 9 (s.chainTime t2 + turn.toNat) ++ leBytes 9 (unsigned 72 s.chainOffset) ++
      leBytes 1 (s.rd SWC_ALIGNED))) := by
    rw [← time, ← offset, ← aligned]
    change execAlignreq f t2 turn s = _
    unfold execAlignreq
    rw [ht]
  refine ⟨_, command, ?_⟩
  dsimp only
  rw [sendDown_sends ((on_count_free (by decide) _ _).trans hd), out_send, part_of_except kept .out rfl,
    chainBytes_of_pos (rd_count_free (by decide) _ _)]

theorem rd_offsetShow {g : Fld} (hf : SWC_OFS_FR.free g = true) (hl : SWC_OFS_LO.free g = true)
    (hh : SWC_OFS_HI.free g = true) (s : State) : s.offsetShow.rd g = s.rd g := by
  unfold State.offsetShow
  dsimp only
  rw [rd_wr_free hh, rd_wr_free hl, rd_wr_free hf]

theorem alignShow_same {s : State} (h : s.on SWC_ALIGNED = s.alignedNow) : s.alignShow = s := by
  unfold State.alignShow
  exact if_pos h

theorem alignShow_changes {s : State} (h : s.on SWC_ALIGNED ≠ s.alignedNow) : s.alignShow =
    if s.alignedNow then (s.wr SWC_ALIGNED (b2n s.alignedNow)).raise 0x0C0 3
    else ((s.wr SWC_ALIGNED (b2n s.alignedNow)).raise 0x0C0 3).count SWC_ALGLOSTN := by
  unfold State.alignShow
  exact if_neg h

theorem rd_alignShow {g : Fld} (ha : SWC_ALIGNED.free g = true) (hr : (IRQ_RAW 0x0C0).free g = true)
    (hl : SWC_ALGLOSTN.free g = true) (s : State) : s.alignShow.rd g = s.rd g := by
  by_cases same : s.on SWC_ALIGNED = s.alignedNow
  · rw [alignShow_same same]
  · rw [alignShow_changes same]
    split
    · rw [rd_raise_free hr, rd_wr_free ha]
    · rw [rd_count_free hl, rd_raise_free hr, rd_wr_free ha]

theorem alignrsp_answers {s u : State} {f : ChainFrame} {b : List Byte} (t4 : BitVec 8) {r : AlignReq} {th d : Int}
    (ht : s.chainTake 0x04 30 f = (some b, u)) (hq : s.swc.req = some r) (hh : s.swcHead = false)
    (hs : r.seq = leAt b 0 2)
    (hth : th = divRound (((leAt b 2 9 : Int) - r.t1) - ((s.chainTime t4 : Int) - (leAt b 11 9 : Int))) 2)
    (hd : d = divRound (((s.chainTime t4 : Int) - r.t1) - ((leAt b 11 9 : Int) - (leAt b 2 9 : Int))) 2) :
    Answers (.alignrsp f t4) s fun t =>
      t.swc.theta = some th ∧ t.swc.before = s.swc.theta ∧ t.swc.offset = signed 72 (leAt b 20 9) + th ∧
      t.rd SWC_DELAY = unsigned 24 d ∧ t.swc.req = none ∧ t.swc.upOk = bit (leAt b 29 1) 0 := by
  obtain ⟨-, rfl⟩ := chainTake_some ht
  let v := s.count SWC_CGERRN f.bad.toNat
  let w := v.setSwc fun c => { c with
    req := none, rsp := some (stampNat v.stamp), upOk := bit (leAt b 29 1) 0,
    before := c.theta, theta := some th, offset := signed 72 (leAt b 20 9) + th }
  have kept : v.except 1 = s.except 1 := State.count_same 1 rfl _ _ _
  have time : v.chainTime t4 = s.chainTime t4 := by
    rw [State.chainTime, State.chainTime, State.stamp, State.stamp, part_of_except kept .ctf rfl]
  have swc : v.swc = s.swc := part_of_except kept .swc rfl
  have command : exec (.alignrsp f t4) s = .next ((w.wr SWC_DELAY (unsigned 24 d)).offsetShow).alignShow := by
    rw [← time] at hth hd
    subst hth hd
    change execAlignrsp f t4 s = _
    unfold execAlignrsp
    rw [ht]
    dsimp only
    rw [swc, hq]
    dsimp only
    rw [head_count, hh, if_neg (by simp [hs])]
  have shown : ((w.wr SWC_DELAY (unsigned 24 d)).offsetShow).alignShow.swc = w.swc :=
    part_of_except ((State.alignShow_same 1 rfl _).trans ((State.offsetShow_same 1 rfl _).trans
      (State.wr_same 1 rfl _ _ _))) .swc rfl
  refine ⟨_, command, ?_, ?_, ?_, ?_, ?_, ?_⟩
  · rw [shown]
    rfl
  · rw [shown, ← swc]
    rfl
  · rw [shown]
    rfl
  · rw [rd_alignShow (by decide) (by decide) (by decide), rd_offsetShow (by decide) (by decide) (by decide)]
    refine rd_wr_lt rfl ?_ _
    unfold unsigned
    change _ < 2 ^ 24
    omega
  · rw [shown]
    rfl
  · rw [shown]
    rfl

theorem alignTimeout_answers (s : State) : Answers .alignTimeout s fun t => t.on SWC_ALIGNED = s.alignedNow ∧
    (s.on SWC_ALIGNED = true → s.alignedNow = false →
      t.rd SWC_ALGLOSTN = satNat 16 (s.rd SWC_ALGLOSTN + 1) ∧ bit (t.rd (IRQ_RAW 0x0C0)) 3 = true) := by
  refine ⟨s.alignShow, rfl, ?_, fun was now => ?_⟩
  · by_cases same : s.on SWC_ALIGNED = s.alignedNow
    · rw [alignShow_same same]
      exact same
    · have set : ((s.wr SWC_ALIGNED (b2n s.alignedNow)).raise 0x0C0 3).on SWC_ALIGNED = s.alignedNow := by
        rw [on_raise_free (by decide)]
        exact on_wr_b2n rfl (by decide) _ _
      rw [alignShow_changes same]
      split
      · exact set
      · rw [on_count_free (by decide)]
        exact set
  · rw [alignShow_changes (by rw [was, now]; decide), now, if_neg Bool.false_ne_true]
    refine ⟨?_, ?_⟩
    · rw [rd_count_same _ _ _ rfl, rd_raise_free (by decide), rd_wr_free (by decide)]
      rfl
    · rw [rd_count_free (by decide)]
      exact bit_raise_same _ _ (by decide)

/-- Settles O40. -/
theorem chainLinksComplete : Obligations.ChainLinksComplete := by
  unfold Obligations.ChainLinksComplete
  exact ⟨fun s up bad hr hh => ⟨linkUp_answers hr hh bad up, linkDown_answers hr hh bad up⟩,
    fun s u f b ht hh => ⟨fun hp hu hd => enum_places ht hh hp hu hd, fun hp => enum_over ht hh hp⟩,
    fun s u f b ht => ⟨fun hh he hn h1 h31 => ⟨fun hb => announce_enters ht hh he hn h1 h31 hb,
      fun hb hf => announce_ends ht hh he hn h1 h31 hb hf⟩, fun hh hu ho => announce_passes ht hh hu ho⟩,
    fun s hh he hr => ⟨fun ho u f b ht => link_answers hh he hr ho ht,
      fun w hw => ⟨fun ho => swcEnum_begins hh he hr hw ho, fun ho => swcEnum_defers hh he hr hw ho⟩⟩,
    fun s c hc hp => enumTimeout_answers hc hp, fun s t1 hr hu hh hd => alignExchange_answers t1 hr hu hh hd,
    fun s u f b t2 turn ht hd => alignreq_answers t2 turn ht hd,
    fun s u f b t4 r th d ht hq hh hs hth hd => alignrsp_answers t4 ht hq hh hs hth hd, alignTimeout_answers⟩

set_option autoImplicit false

/-! ### SWC_SW_GO (R397) -/

/-- The state of a submission that passes the checks of R397. -/
def State.sweepSubmitted (s : State) (h : Nat) : State :=
  let id := (s.rd SWC_SW_ID + 1) % 65536
  let kind := s.rd SWC_SW_KIND
  let l := (List.range (max 1 (s.rd SWC_NDEV))).map fun k =>
    ({ eui := if k = 0 then s.eui else s.rd (SWC_DEV_EUI k) } : ReportEntry)
  let v := s.setSwc fun x => { x with
    pending := x.pending ++ [⟨id, kind, h⟩]
    reports := (x.reports ++ [({ id := id, head := h, entries := l } : SweepReport)]).drop (x.reports.length - 7) }
  (((v.wr SWC_SW_ID id).sendDown 0x05 (leBytes 2 id ++ leBytes 1 kind ++ leBytes 8 h ++ [0])).log 0x8010 deviceTc
    (id + kind * 2 ^ 16 + h / 65536 % 2 ^ 32 * 2 ^ 32)).swcShow

/-- The code of a submission (R397). -/
def State.sweepCheck (s : State) (h : Nat) : Status :=
  if !s.swcHead || !(s.rd SWC_SW_KIND == 1 || s.rd SWC_SW_KIND == 2) || decide
    (stampNat s.stamp + 65535 * 65536 < h) then
    .cfgInvalid
  else if h < stampNat s.stamp + 262144 then .timeout
  else if 8 ≤ s.outstanding ∨ s.swc.enum.isSome then .refusedPriority
  else .ok

theorem submitSweep_eq {s : State} {h : Nat} (ha : s.rd64 SWC_AT_LO SWC_AT_HI = h) : s.submitSweep =
    (if s.sweepCheck h ≠ .ok then (s.sweepCheck h, s.wr SWC_SW_CODE (codeOf (s.sweepCheck h)))
    else (.ok, (s.wr SWC_SW_CODE (codeOf (s.sweepCheck h))).sweepSubmitted h)) := by
  have kept (v : Nat) : (s.wr SWC_SW_CODE v).rd SWC_SW_KIND = s.rd SWC_SW_KIND := rd_wr_free (by decide) _ _
  unfold State.sweepSubmitted
  dsimp only
  rw [kept, ← ha]
  rfl

section
variable {s : State} {h : Nat} (hh : s.swcHead = true) (hk : s.rd SWC_SW_KIND = 1 ∨ s.rd SWC_SW_KIND = 2)
  (ha : s.rd64 SWC_AT_LO SWC_AT_HI = h) (hl : h ≤ stampNat s.stamp + 65535 * 65536)
include hh hk ha hl

theorem submitSweep_takes (he : stampNat s.stamp + 262144 ≤ h) (ho : s.outstanding < 8) (hn : s.swc.enum = none) :
    s.submitSweep = (.ok, (s.wr SWC_SW_CODE (codeOf .ok)).sweepSubmitted h) := by
  have kind : (s.rd SWC_SW_KIND == 1 || s.rd SWC_SW_KIND == 2) = true := by simpa using hk
  have code : s.sweepCheck h = .ok := by
    rw [State.sweepCheck, hh, kind, hn, decide_eq_false (by omega), if_neg (c := (!true || !true || false) = true)
      (by decide), if_neg (by omega),
      if_neg (by simp; omega)]
  rw [submitSweep_eq ha, code, if_neg (by decide)]

theorem submitSweep_late (he : h < stampNat s.stamp + 262144) :
    s.submitSweep = (.timeout, s.wr SWC_SW_CODE (codeOf .timeout)) := by
  have kind : (s.rd SWC_SW_KIND == 1 || s.rd SWC_SW_KIND == 2) = true := by simpa using hk
  have code : s.sweepCheck h = .timeout := by
    rw [State.sweepCheck, hh, kind, decide_eq_false (by omega),
      if_neg (c := (!true || !true || false) = true) (by decide), if_pos he]
  rw [submitSweep_eq ha, code, if_pos (by decide)]

end

theorem sweepSubmitted_parts (s : State) (h : Nat) :
    (s.sweepSubmitted h).rd SWC_SW_ID = (s.rd SWC_SW_ID + 1) % 65536 ∧
    (s.sweepSubmitted h).rd SWC_SW_CODE = s.rd SWC_SW_CODE ∧
    (s.sweepSubmitted h).swc.pending = s.swc.pending ++ [⟨(s.rd SWC_SW_ID + 1) % 65536, s.rd SWC_SW_KIND, h⟩] ∧
    Logged s (s.sweepSubmitted h) 0x8010 deviceTc ((s.rd SWC_SW_ID + 1) % 65536 + s.rd SWC_SW_KIND * 2 ^ 16 +
      h / 65536 % 2 ^ 32 * 2 ^ 32) := by
  unfold State.sweepSubmitted
  extract_lets id kind l v
  have sent (p : List Byte) : ((v.wr SWC_SW_ID id).sendDown 0x05 p).except 1025 = v.except 1025 :=
    (State.sendDown_same 1025 rfl _ _ _).trans (State.wr_same 1025 rfl _ _ _)
  have told (x : State) (c t d : Nat) : (x.log c t d).swc = x.swc ∧ (x.log c t d).events =
      x.events ++ [⟨c, t, leBytes 8 d⟩] := ⟨rfl, rfl⟩
  refine ⟨?_, ?_, ?_, ?_⟩
  · rw [rd_swcShow (by decide) (by decide), rd_log, rd_sendDown]
    exact rd_wr_lt rfl (Nat.mod_lt _ (by decide)) _
  · rw [rd_swcShow (by decide) (by decide), rd_log, rd_sendDown, rd_wr_free (by decide)]
    rfl
  · rw [part_of_except (swcShow_keeps _) .swc rfl, (told _ _ _ _).1, part_of_except (sent _) .swc rfl]
    rfl
  · rw [Logged, part_of_except (swcShow_keeps _) .events rfl, (told _ _ _ _).2, part_of_except (sent _) .events rfl]
    rfl

section
variable {s : State} {w : RegWrite} {h : Nat} (hw : s.admitsWrite 0x0C0 0x068 w (setBit w.data.toNat 8) = true)
  (hh : s.swcHead = true) (ha : h = s.rd64 SWC_AT_LO SWC_AT_HI)
  (hk : bits w.data.toNat 0 4 = 1 ∨ bits w.data.toNat 0 4 = 2) (hl : h ≤ stampNat s.stamp + 65535 * 65536)

/-- The state once the word of SWC_SW_GO is stored. -/
def State.sweepWord (s : State) (w : RegWrite) : State :=
  s.storeWord 0x0C0 0x068 (BitVec.ofNat 32 (setBit w.data.toNat 8)).toNat

theorem swcSwGo_write (s : State) (w : RegWrite) :
    swcWrite s ⟨w.port, w.tc.val, 0x0C0, 0x068, none⟩ (BitVec.ofNat 32 (setBit w.data.toNat 8)).toNat =
      (s.sweepWord w).submitSweep := by
  have given : bit (BitVec.ofNat 32 (setBit w.data.toNat 8)).toNat 8 = true := by
    rw [bit_command (by decide), if_pos rfl]
  exact if_pos given

theorem sweepWord_parts (s : State) (w : RegWrite) :
    (s.sweepWord w).rd SWC_SW_KIND = bits w.data.toNat 0 4 ∧
    (∀ f : Fld, f.width ≤ 32 → f.key ≠ regKey 0x0C0 0x068 → (s.sweepWord w).rd f = s.rd f) ∧
    (s.sweepWord w).except 41 = s.except 41 := by
  refine ⟨?_, fun f hf hk => rd_storeWord_other (by decide) hf hk s _, State.storeWord_same 41 rfl _ _ _ _⟩
  rw [State.sweepWord, SWC_SW_KIND, rd_storeWord_set (by decide) (by decide) (by decide) (by decide)]
  exact bits_command (Or.inr (by decide)) (by decide)

include hh ha hk hl in
/-- The checks of a submission read what they read before the word was stored. -/
theorem sweepWord_ready : (s.sweepWord w).swcHead = true ∧
    ((s.sweepWord w).rd SWC_SW_KIND = 1 ∨ (s.sweepWord w).rd SWC_SW_KIND = 2) ∧
    (s.sweepWord w).rd64 SWC_AT_LO SWC_AT_HI = h ∧ h ≤ stampNat (s.sweepWord w).stamp + 65535 * 65536 ∧
    (s.sweepWord w).stamp = s.stamp := by
  obtain ⟨kind, other, kept⟩ := sweepWord_parts s w
  have stamp : (s.sweepWord w).stamp = s.stamp := by
    rw [State.stamp, State.stamp, part_of_except kept .ctf rfl]
  refine ⟨(congrArg (· == 1) (other SWC_HEAD (by decide) (by decide))).trans hh, by rw [kind]; exact hk, ?_,
    by rw [stamp]; exact hl, stamp⟩
  rw [State.rd64, other _ (by decide) (by decide), other _ (by decide) (by decide), ha, State.rd64]

include hw hh ha hk hl

theorem swcSwGo_submits (he : stampNat s.stamp + 262144 ≤ h) (ho : s.outstanding < 8) (hn : s.swc.enum = none) :
    Answers (.swcSwGo w) s fun t =>
      t.resp.code = .ok ∧ t.rd SWC_SW_ID = (s.rd SWC_SW_ID + 1) % 65536 ∧ t.rd SWC_SW_CODE = codeOf .ok ∧
      t.swc.pending = s.swc.pending ++ [⟨(s.rd SWC_SW_ID + 1) % 65536, bits w.data.toNat 0 4, h⟩] ∧
      Logged s t 0x8010 deviceTc ((s.rd SWC_SW_ID + 1) % 65536 + bits w.data.toNat 0 4 * 2 ^ 16 +
        h / 65536 % 2 ^ 32 * 2 ^ 32) := by
  obtain ⟨kind, other, kept⟩ := sweepWord_parts s w
  obtain ⟨head, kinds, instant, limit, stamp⟩ := sweepWord_ready (w := w) hh ha hk hl
  have swc := part_of_except kept .swc rfl
  let v := (s.sweepWord w).wr SWC_SW_CODE (codeOf .ok)
  have done := (swcSwGo_write s w).trans (submitSweep_takes head kinds instant limit (by rw [stamp]; exact he)
    (by rw [State.outstanding, swc]; exact ho) (by rw [swc]; exact hn))
  obtain ⟨id, code, pending, logged⟩ := sweepSubmitted_parts v h
  have noted : v.except 41 = s.except 41 := (State.wr_same 41 rfl _ _ _).trans kept
  have number : v.rd SWC_SW_ID = s.rd SWC_SW_ID :=
    (rd_wr_free (by decide) _ _).trans (other _ (by decide) (by decide))
  have sort : v.rd SWC_SW_KIND = bits w.data.toNat 0 4 := (rd_wr_free (by decide) _ _).trans kind
  rw [number] at id
  rw [number, sort, part_of_except noted .swc rfl] at pending
  rw [Logged, number, sort, part_of_except noted .events rfl] at logged
  refine answers_write (f := fun d => setBit d 8) (h := swcWrite) rfl (by decide) hw done ⟨rfl, ?_, ?_, ?_, ?_⟩
  · rw [rd_answer]
    exact id
  · rw [rd_answer, code]
    exact rd_wr_lt rfl (by decide) _
  · rw [part_of_except (State.answer_same 512 rfl _ _) .swc rfl]
    exact pending
  · rw [Logged, part_of_except (State.answer_same 512 rfl _ _) .events rfl]
    exact logged

theorem swcSwGo_late (he : h < stampNat s.stamp + 262144) :
    Answers (.swcSwGo w) s fun t =>
      t.resp.code = .timeout ∧ t.rd SWC_SW_CODE = codeOf .timeout ∧ t.swc = s.swc := by
  obtain ⟨-, -, kept⟩ := sweepWord_parts s w
  obtain ⟨head, kinds, instant, limit, stamp⟩ := sweepWord_ready (w := w) hh ha hk hl
  have done := (swcSwGo_write s w).trans (submitSweep_late head kinds instant limit (by rw [stamp]; exact he))
  refine answers_write_coded (f := fun d => setBit d 8) (h := swcWrite) rfl (by decide) hw done ⟨rfl, ?_, ?_⟩
  · rw [rd_answer, rd_capture_other _ _ _ _ _ (by decide) (by decide) (by decide)]
    exact rd_wr_lt rfl (by decide) _
  · rw [part_of_except (State.answer_same 512 rfl _ _) .swc rfl,
      part_of_except (State.capture_same 257 rfl _ _ _ _ _ _) .swc rfl, part_of_except (State.wr_same 1 rfl _ _ _) .swc
        rfl,
      part_of_except kept .swc rfl]

end

set_option autoImplicit false

/-! ### SWEEP (R398) -/

/-- A frame that is received counts its bad code groups and leaves the rest. -/
theorem chainCounted (s : State) (n : Nat) :
    (s.count SWC_CGERRN n).except 1 = s.except 1 := State.count_same 1 rfl _ _ _

theorem localOf_of_parts {s t : State} (hh : t.swcHead = s.swcHead) (hs : t.swc = s.swc) (h : Nat) :
    t.localOf h = s.localOf h := by
  rw [State.localOf, State.localOf, State.chainOffset, State.chainOffset, hh, hs]

section
variable {s u : State} {f : ChainFrame} {b : List Byte} (ht : s.chainTake 0x05 12 f = (some b, u))
  (hh : s.swcHead = false)
  (hp : s.rd SWC_POS ≠ 0x3F) (hk : leAt b 2 1 = 1 ∨ leAt b 2 1 = 2) (hn : s.swc.pending.length < 8)
include ht hh hp hk hn

/-- A device with a position and a free place answers the sweep with the code found, and holds it where that is OK. -/
theorem sweep_eq (c : Status) (hc : (if s.localOf (leAt b 3 8) < (stampNat s.stamp : Int) then Status.timeout
      else if !s.on SWC_EN then .skipped else .ok) = c) :
    exec (.sweep f) s = .next ((if c = .ok then (u.chainDown f).setSwc fun x =>
        { x with pending := x.pending ++ [⟨leAt b 0 2, leAt b 2 1, leAt b 3 8⟩] } else u.chainDown f).sendUp 0x06
      (leBytes 2 (leAt b 0 2) ++ leBytes 1 (s.rd SWC_POS) ++ leBytes 1 (codeOf c))) := by
  obtain ⟨-, rfl⟩ := chainTake_some ht
  let v := (s.count SWC_CGERRN f.bad.toNat).chainDown f
  have kept : v.except 1025 = s.except 1025 :=
    (State.chainDown_same 1025 rfl _ _).trans (State.count_same 1025 rfl _ _ _)
  have regs (g : Fld) (hg : SWC_CGERRN.free g = true) : v.rd g = s.rd g :=
    (rd_of_except (State.chainDown_same 1024 rfl _ _) rfl g).trans (rd_count_free hg _ _)
  have head : v.swcHead = s.swcHead := congrArg (· == 1) (regs SWC_HEAD (by decide))
  have swc : v.swc = s.swc := part_of_except kept .swc rfl
  have stamp : v.stamp = s.stamp := by
    rw [State.stamp, State.stamp, part_of_except kept .ctf rfl]
  have kind : (leAt b 2 1 == 1 || leAt b 2 1 == 2) = true := by simpa using hk
  have enabled : v.on SWC_EN = s.on SWC_EN := congrArg (· == 1) (regs SWC_EN (by decide))
  have pos (x : SwcState → SwcState) :
      (if c = .ok then v.setSwc x else v).rd SWC_POS = s.rd SWC_POS := by
    split
    · rw [rd_setSwc, regs _ (by decide)]
    · exact regs _ (by decide)
  change execSweep f s = _
  unfold execSweep
  rw [ht]
  dsimp only
  rw [head_count, hh, if_neg Bool.false_ne_true]
  rw [if_neg (by rw [regs _ (by decide), kind, swc]; simp [hp]; exact hn), localOf_of_parts head swc, stamp, enabled,
    hc, pos]

/-- The acknowledgement that goes upstream where nothing is passed on. -/
theorem sweep_acks (x : Option (SwcState → SwcState)) (c : Status) (hu : s.on SWC_UPLNK = true)
    (hd : s.on SWC_DNLNK = false) :
    ((match x with
      | some g => (u.chainDown f).setSwc g
      | none => u.chainDown f).sendUp 0x06
      (leBytes 2 (leAt b 0 2) ++ leBytes 1 (s.rd SWC_POS) ++ leBytes 1 (codeOf c))).out =
    s.out ++ [⟨.chainUp, byteNats (s.chainBytes 0x06 (leBytes 2 (leAt b 0 2) ++
      leBytes 1 (s.rd SWC_POS) ++ leBytes 1 (codeOf c)))⟩] := by
  obtain ⟨-, rfl⟩ := chainTake_some ht
  let v := s.count SWC_CGERRN f.bad.toNat
  have silent : v.chainDown f = v :=
    if_neg fun h => by rw [on_count_free (by decide), hd] at h; exact Bool.false_ne_true h.1
  have up : v.on SWC_UPLNK = true := (on_count_free (by decide) _ _).trans hu
  have head : v.swcHead = false := (head_count s _).trans hh
  have out : v.out = s.out := part_of_except (chainCounted s _) .out rfl
  rw [silent]
  cases x with
  | none =>
    dsimp only
    rw [sendUp_sends up head, out_send, out, chainBytes_of_pos (rd_count_free (by decide) _ _)]
  | some g =>
    dsimp only
    rw [sendUp_sends (s := v.setSwc g) up head, out_send,
      chainBytes_of_pos (s := s) ((rd_setSwc _ _ _).trans (rd_count_free (by decide) _ _)), ← out]
    rfl

theorem sweep_holds (hl : (stampNat s.stamp : Int) ≤ s.localOf (leAt b 3 8)) (he : s.on SWC_EN = true) :
    Answers (.sweep f) s fun t =>
      t.swc.pending = s.swc.pending ++ [⟨leAt b 0 2, leAt b 2 1, leAt b 3 8⟩] ∧
      (s.on SWC_UPLNK = true → s.on SWC_DNLNK = false →
        t.out = s.out ++ [⟨.chainUp, byteNats (s.chainBytes 0x06 (leBytes 2 (leAt b 0 2) ++
          leBytes 1 (s.rd SWC_POS) ++ leBytes 1 (codeOf .ok)))⟩]) := by
  have command := sweep_eq ht hh hp hk hn .ok (by rw [if_neg (by omega), he]; rfl)
  have swc : (u.chainDown f).swc = s.swc := by
    obtain ⟨-, rfl⟩ := chainTake_some ht
    exact part_of_except ((State.chainDown_same 1025 rfl _ _).trans (State.count_same 1025 rfl _ _ _)) .swc rfl
  rw [if_pos rfl] at command
  refine ⟨_, command, ?_, fun hu hd => sweep_acks ht hh hp hk hn (some fun x =>
    { x with pending := x.pending ++ [⟨leAt b 0 2, leAt b 2 1, leAt b 3 8⟩] }) .ok hu hd⟩
  rw [part_of_except (State.sendUp_same 1024 rfl _ _ _) .swc rfl, ← swc]
  rfl

theorem sweep_late (hl : s.localOf (leAt b 3 8) < (stampNat s.stamp : Int)) :
    Answers (.sweep f) s fun t => t.swc = s.swc ∧ (s.on SWC_UPLNK = true → s.on SWC_DNLNK = false →
      t.out = s.out ++ [⟨.chainUp, byteNats (s.chainBytes 0x06 (leBytes 2 (leAt b 0 2) ++
        leBytes 1 (s.rd SWC_POS) ++ leBytes 1 (codeOf .timeout)))⟩]) := by
  have command := sweep_eq ht hh hp hk hn .timeout (if_pos hl)
  rw [if_neg (by decide)] at command
  refine ⟨_, command, ?_, fun hu hd => sweep_acks ht hh hp hk hn none .timeout hu hd⟩
  obtain ⟨-, rfl⟩ := chainTake_some ht
  exact part_of_except ((State.sendUp_same 1025 rfl _ _ _).trans ((State.chainDown_same 1025 rfl _ _).trans
    (State.count_same 1025 rfl _ _ _))) .swc rfl

end

/-! ### CMDACK (R401) -/

/-- What a device that is not the head does with a frame from downstream. -/
theorem relayUp_passes {s : State} (f : ChainFrame) (hu : s.on SWC_UPLNK = true) (ho : s.on SWC_OVER = false) :
    ((s.count SWC_CGERRN f.bad.toNat).relayUp f).out = s.out ++ [⟨.chainUp, byteNats f.bytes⟩] := by
  unfold State.relayUp
  rw [if_pos ⟨(on_count_free (by decide) _ _).trans hu, (on_count_free (by decide) _ _).trans ho⟩, out_send,
    part_of_except (chainCounted s _) .out rfl]

section
variable {s u : State} {f : ChainFrame} {b : List Byte} (ht : s.chainTake 0x06 4 f = (some b, u))
include ht

theorem cmdack_reaches (hh : s.swcHead = true) : Answers (.cmdack f) s fun t =>
    t.swc.reports = s.swc.reports.map fun r =>
      if r.id = leAt b 0 2 then
        { r with entries := r.entries.modify (leAt b 2 1) fun e => if e.st = 0 then { e with st := 1 } else e }
      else r := by
  obtain ⟨-, rfl⟩ := chainTake_some ht
  have command : exec (.cmdack f) s = .next ((s.count SWC_CGERRN f.bad.toNat).setReport (leAt b 0 2) fun r => { r with
      entries := r.entries.modify (leAt b 2 1) fun e => if e.st = 0 then { e with st := 1 } else e }) := by
    change execCmdack f s = _
    unfold execCmdack
    rw [ht]
    dsimp only
    rw [head_count, hh, Bool.not_true, if_neg Bool.false_ne_true]
  have swc : (s.count SWC_CGERRN f.bad.toNat).swc = s.swc := part_of_except (chainCounted s _) .swc rfl
  refine ⟨_, command, ?_⟩
  rw [← swc]
  rfl

theorem cmdack_passes (hh : s.swcHead = false) (hu : s.on SWC_UPLNK = true) (ho : s.on SWC_OVER = false) :
    Answers (.cmdack f) s fun t => t.out = s.out ++ [⟨.chainUp, byteNats f.bytes⟩] := by
  obtain ⟨-, rfl⟩ := chainTake_some ht
  have command : exec (.cmdack f) s = .next ((s.count SWC_CGERRN f.bad.toNat).relayUp f) := by
    change execCmdack f s = _
    unfold execCmdack
    rw [ht]
    dsimp only
    rw [head_count, hh, Bool.not_false, if_pos rfl]
  exact ⟨_, command, relayUp_passes f hu ho⟩

end

/-! ### Results and reports (R399, R401, R402) -/

/-- What recording a result leaves. -/
theorem recordResult_keeps (s : State) (id eui code stamp datum : Nat) (fetched : Bool) :
    (s.recordResult id eui code stamp datum fetched).swc.pending = s.swc.pending ∧
    (s.recordResult id eui code stamp datum fetched).swc.next = s.swc.next ∧
    (s.recordResult id eui code stamp datum fetched).swc.fetch = s.swc.fetch := by
  have told (x : State) (r : SweepReport) (c t d : Nat) :
      ((((x.logReport r 2).log c t d).raise 0x0C0 2).swc) = x.swc :=
    part_of_except ((State.raise_same 257 rfl _ _ _).trans ((State.log_same 257 rfl _ _ _ _).trans
      (State.logReport_same 257 rfl _ _ _))) .swc rfl
  unfold State.recordResult
  split
  · exact ⟨rfl, rfl, rfl⟩
  · split
    · exact ⟨rfl, rfl, rfl⟩
    · dsimp only
      split
      · split
        · rw [told]
          exact ⟨rfl, rfl, rfl⟩
        · exact ⟨rfl, rfl, rfl⟩
      · exact ⟨rfl, rfl, rfl⟩

theorem rd_recordResult {g : Fld} (hg : (IRQ_RAW 0x0C0).free g = true) (s : State) (id eui code stamp datum : Nat)
    (fetched : Bool) : (s.recordResult id eui code stamp datum fetched).rd g = s.rd g := by
  have told (x : State) (r : SweepReport) (c t d : Nat) :
      ((((x.logReport r 2).log c t d).raise 0x0C0 2).rd g) = x.rd g := by
    rw [rd_raise_free hg, rd_log]
    exact rd_of_except (State.logReport_same 256 rfl _ _ _) rfl g
  have set (x : State) (h : SweepReport → SweepReport) : (x.setReport id h).rd g = x.rd g :=
    rd_of_except (State.setReport_same 536870912 rfl _ _ _) rfl g
  unfold State.recordResult
  split
  · rfl
  · split
    · rfl
    · dsimp only
      split
      · split
        · rw [told, set]
        · rw [set]
      · rw [set]

theorem report_setReport {s : State} {id : Nat} {r : SweepReport} (h : s.report? id = some r)
    {f : SweepReport → SweepReport} (hf : ∀ x, (f x).id = x.id) : (s.setReport id f).report? id = some (f r) := by
  have own : r.id = id := by simpa using List.find?_some h
  have same : (fun x : SweepReport => x.id == id) ∘ (fun x : SweepReport => if x.id = id then f x else x) =
      fun x => x.id == id := by
    funext x
    dsimp only [Function.comp]
    split
    · rw [hf]
    · rfl
  change (s.swc.reports.map fun x => if x.id = id then f x else x).reverse.find? (·.id == id) = _
  rw [← List.map_reverse, List.find?_map, same]
  change (s.report? id).map _ = _
  rw [h, Option.map_some, if_pos own]

theorem recordResult_records {s : State} {id eui k : Nat} {r : SweepReport} (hr : s.report? id = some r)
    (hk : r.entries.findIdx? (·.eui == eui) = some k) (code stamp datum : Nat) (fetched : Bool) :
    (s.recordResult id eui code stamp datum fetched).report? id =
      some { r with entries := r.entries.set k ⟨eui, 2, code, fetched, stamp, datum⟩ } := by
  let v := s.setReport id fun r => { r with entries := r.entries.set k ⟨eui, 2, code, fetched, stamp, datum⟩ }
  have set : v.report? id = some { r with entries := r.entries.set k ⟨eui, 2, code, fetched, stamp, datum⟩ } :=
    report_setReport hr fun _ => rfl
  have told (x : State) (r : SweepReport) (c t d : Nat) :
      ((((x.logReport r 2).log c t d).raise 0x0C0 2).swc) = x.swc :=
    part_of_except ((State.raise_same 257 rfl _ _ _).trans ((State.log_same 257 rfl _ _ _ _).trans
      (State.logReport_same 257 rfl _ _ _))) .swc rfl
  unfold State.recordResult
  rw [hr]
  dsimp only
  rw [hk]
  dsimp only
  split
  · rw [set]
    dsimp only
    rw [State.report?, told]
    exact set
  · exact set

section
variable {s u : State} {f : ChainFrame} {b : List Byte} (ht : s.chainTake 0x07 29 f = (some b, u))
include ht

/-- The head records the result; that of a fetch ends it. -/
theorem result_eq (hh : s.swcHead = true) :
    exec (.result f) s = .next (
      let v := u.recordResult (leAt b 0 2) (leAt b 4 8) (leAt b 3 1) (leAt b 12 8) (leAt b 20 8) (bit (leAt b 28 1) 0)
      match v.swc.fetch with
      | none => v
      | some x => if bit (leAt b 28 1) 0 ∧ x.id = leAt b 0 2 ∧ x.eui = leAt b 4 8 then
          (v.setSwc fun c => { c with fetch := none }).wr SWC_F_CODE (codeOf .ok) else v) := by
  obtain ⟨-, rfl⟩ := chainTake_some ht
  change execResult f s = _
  unfold execResult
  rw [ht]
  dsimp only
  rw [head_count, hh, Bool.not_true, if_neg Bool.false_ne_true] <;> rfl

theorem result_records (hh : s.swcHead = true) {r : SweepReport} {k : Nat} (hr : s.report? (leAt b 0 2) = some r)
    (hk : r.entries.findIdx? (·.eui == leAt b 4 8) = some k) :
    Answers (.result f) s fun t => ∃ r', t.report? (leAt b 0 2) = some r' ∧ r'.final = r.final ∧
      r'.entries = r.entries.set k ⟨leAt b 4 8, 2, leAt b 3 1, bit (leAt b 28 1) 0, leAt b 12 8, leAt b 20 8⟩ := by
  have command := result_eq ht hh
  obtain ⟨-, rfl⟩ := chainTake_some ht
  have known : (s.count SWC_CGERRN f.bad.toNat).report? (leAt b 0 2) = some r := by
    rw [State.report?, part_of_except (chainCounted s _) .swc rfl]
    exact hr
  have recorded := recordResult_records known hk (leAt b 3 1) (leAt b 12 8) (leAt b 20 8) (bit (leAt b 28 1) 0)
  have ended (x : State) (v : Nat) : ((x.setSwc fun c => { c with fetch := none }).wr SWC_F_CODE v).report?
    (leAt b 0 2) =
      x.report? (leAt b 0 2) := by
    rw [State.report?, part_of_except (State.wr_same 1 rfl _ _ _) .swc rfl]
    rfl
  refine ⟨_, command, { r with entries := r.entries.set k ⟨leAt b 4 8, 2, leAt b 3 1, bit (leAt b 28 1) 0, leAt b 12 8,
    leAt b 20 8⟩ }, ?_, rfl, rfl⟩
  dsimp only
  rw [← recorded]
  split
  · rfl
  · split
    · exact ended _ _
    · rfl

theorem result_ends (hh : s.swcHead = true) {x : FetchRun} (hx : s.swc.fetch = some x) (hi : x.id = leAt b 0 2)
    (he : x.eui = leAt b 4 8) (hf : bit (leAt b 28 1) 0 = true) :
    Answers (.result f) s fun t => t.swc.fetch = none ∧ t.rd SWC_F_CODE = codeOf .ok := by
  have command := result_eq ht hh
  obtain ⟨-, rfl⟩ := chainTake_some ht
  obtain ⟨-, -, fetch⟩ := recordResult_keeps (s.count SWC_CGERRN f.bad.toNat) (leAt b 0 2) (leAt b 4 8) (leAt b 3 1)
    (leAt b 12 8) (leAt b 20 8) (bit (leAt b 28 1) 0)
  dsimp only at command
  rw [fetch, part_of_except (chainCounted s _) .swc rfl, hx] at command
  dsimp only at command
  rw [if_pos ⟨hf, hi, he⟩] at command
  refine ⟨_, command, ?_, rd_wr_lt rfl (by decide) _⟩
  rw [part_of_except (State.wr_same 1 rfl _ _ _) .swc rfl]
  rfl

theorem result_passes (hh : s.swcHead = false) (hu : s.on SWC_UPLNK = true) (ho : s.on SWC_OVER = false) :
    Answers (.result f) s fun t => t.out = s.out ++ [⟨.chainUp, byteNats f.bytes⟩] := by
  obtain ⟨-, rfl⟩ := chainTake_some ht
  have command : exec (.result f) s = .next ((s.count SWC_CGERRN f.bad.toNat).relayUp f) := by
    change execResult f s = _
    unfold execResult
    rw [ht]
    dsimp only
    rw [head_count, hh, Bool.not_false, if_pos rfl]
  exact ⟨_, command, relayUp_passes f hu ho⟩

end

set_option autoImplicit false

/-! ### SWEEP_EXECUTE (R399) -/

/-- The fields of a place of the local store stand apart. -/
theorem localStore_apart : ∀ k : Fin 16,
    (SWC_LR_STS k.val).free (SWC_LR_ID k.val) = true ∧ (SWC_LR_KIND k.val).free (SWC_LR_ID k.val) = true ∧
    (SWC_LR_VALID k.val).free (SWC_LR_ID k.val) = true ∧ (SWC_LR_STAMP k.val).free (SWC_LR_ID k.val) = true ∧
    (SWC_LR_DATUM k.val).free (SWC_LR_ID k.val) = true ∧ (SWC_LR_STAMP k.val).free (SWC_LR_VALID k.val) = true ∧
    (SWC_LR_DATUM k.val).free (SWC_LR_VALID k.val) = true ∧ (IRQ_RAW 0x0C0).free (SWC_LR_ID k.val) = true ∧
    (IRQ_RAW 0x0C0).free (SWC_LR_VALID k.val) = true := by decide

theorem storeResult_swc (s : State) (x : Sweep) (code stamp datum : Nat) :
    (s.storeResult x code stamp datum).swc = { s.swc with next := (s.swc.next + 1) % 16 } := by
  unfold State.storeResult
  dsimp only
  rw [part_of_except ((State.wr_same 1 rfl _ _ _).trans ((State.wr_same 1 rfl _ _ _).trans
    ((State.wr_same 1 rfl _ _ _).trans ((State.wr_same 1 rfl _ _ _).trans ((State.wr_same 1 rfl _ _ _).trans
      (State.wr_same 1 rfl _ _ _)))))) .swc rfl]
  rfl

theorem storeResult_stores {s : State} {k : Fin 16} (hk : s.swc.next = k.val) (x : Sweep) (code stamp datum : Nat) :
    (s.storeResult x code stamp datum).rd (SWC_LR_ID k.val) = x.id % 65536 ∧
    (s.storeResult x code stamp datum).on (SWC_LR_VALID k.val) = true := by
  obtain ⟨sts, kind, valid, stamped, data, stamped', data', -, -⟩ := localStore_apart k
  unfold State.storeResult
  dsimp only
  rw [hk, rd_wr_free data, rd_wr_free stamped, rd_wr_free valid, rd_wr_free kind, rd_wr_free sts, on_wr_free data',
    on_wr_free stamped']
  exact ⟨rd_wr_same _ _ _ rfl, on_wr_b2n rfl (show 0 < 1 by decide) _ true⟩

/-- A sweep that runs leaves its result in the next place of the local store. -/
theorem runSweep_stores {s : State} {k : Fin 16} (hk : s.swc.next = k.val) (x : Sweep) :
    (s.runSweep x).swc.pending = s.swc.pending ∧ (s.runSweep x).swc.next = (s.swc.next + 1) % 16 ∧
    (s.runSweep x).rd (SWC_LR_ID k.val) = x.id % 65536 ∧ (s.runSweep x).on (SWC_LR_VALID k.val) = true := by
  obtain ⟨-, -, -, -, -, -, -, raisedId, raisedValid⟩ := localStore_apart k
  obtain ⟨a, c, at', d, data, same, shape⟩ : ∃ (a : State) (c at' d : Nat) (p : State → List Byte), a.swc = s.swc ∧
      s.runSweep x =
        let z := (a.storeResult x c at' d).raise 0x0C0 4
        if z.swcHead then z.recordResult x.id z.eui c at' d false else z.sendUp 0x07 (p z) := by
    refine ⟨_, _, _, _, fun z => z.resultPayload x.id _ _ _ false, ?_, rfl⟩
    exact part_of_except ((State.takeEvent_same 138412289 rfl _).trans ((State.log_same 138412289 rfl _ _ _ _).trans
      ((State.takeEvent_same 138412289 rfl _).trans ((State.log_same 138412289 rfl _ _ _ _).trans
        (State.drainEvents_same 138412289 rfl _ _))))) .swc rfl
  have stored : a.swc.next = k.val := by rw [same, hk]
  obtain ⟨id, valid⟩ := storeResult_stores stored x c at' d
  have swc : ((a.storeResult x c at' d).raise 0x0C0 4).swc = { s.swc with next := (s.swc.next + 1) % 16 } := by
    rw [part_of_except (State.raise_same 1 rfl _ _ _) .swc rfl, storeResult_swc, same]
  rw [← rd_raise_free raisedId _ 4] at id
  rw [← on_raise_free raisedValid _ 4] at valid
  rw [shape]
  dsimp only
  generalize (a.storeResult x c at' d).raise 0x0C0 4 = z at id valid swc
  split
  · obtain ⟨pending, next, -⟩ := recordResult_keeps z x.id z.eui c at' d false
    rw [pending, next, swc, rd_recordResult raisedId, State.on, rd_recordResult raisedValid]
    exact ⟨rfl, rfl, id, valid⟩
  · rw [part_of_except (State.sendUp_same 1024 rfl _ _ _) .swc rfl, swc, rd_sendUp, on_sendUp]
    exact ⟨rfl, rfl, id, valid⟩

theorem sweepExecute_answers {s : State} {x : Sweep} (hx : s.firstSweep = some x) (hr : s.swcRuns = true)
    (hk : s.swc.next < 16) (ht : s.localOf x.head < ((s.ctf.cyc : Int) + 1) * 65536) :
    Answers .sweepExecute s fun t =>
      t.swc.pending = s.swc.pending.erase x ∧ t.swc.next = (s.swc.next + 1) % 16 ∧
      t.rd (SWC_LR_ID s.swc.next) = x.id % 65536 ∧ t.on (SWC_LR_VALID s.swc.next) = true := by
  let u := if (s.ctf.cyc : Int) * 65536 ≤ s.localOf x.head then s.advanceTo ((s.localOf x.head).toNat % 65536) else s
  let v := u.setSwc fun c => { c with pending := c.pending.erase x }
  have command : exec .sweepExecute s = .next (v.runSweep x) := by
    change execSweepExecute s = _
    unfold execSweepExecute
    rw [hx]
    dsimp only
    rw [if_neg (by rw [hr]; simp; omega)]
  have swc : u.swc = s.swc := by
    unfold u
    split
    · exact part_of_except (State.advanceTo_same 4289 rfl _ _) .swc rfl
    · rfl
  have state : v.swc = { s.swc with pending := s.swc.pending.erase x } := by
    rw [← swc]
    rfl
  obtain ⟨pending, next, id, valid⟩ := runSweep_stores (s := v) (k := ⟨s.swc.next, hk⟩) (by rw [state]) x
  rw [state] at pending next
  exact ⟨_, command, pending, next, id, valid⟩

/-! ### REPORT_FINAL (R401) -/

theorem finalise_parts (s : State) (r : SweepReport) :
    (∀ x ∈ (s.finalise r).swc.reports, x.id = r.id → x.final = true) ∧
    bit ((s.finalise r).rd (IRQ_RAW 0x0C0)) 2 = true ∧
    ∃ l, (s.finalise r).events = s.events ++
      ⟨0x8013, deviceTc, leBytes 8 (r.id + codeOf r.code * 2 ^ 16 + 2 ^ 24)⟩ :: l := by
  let v := (s.setReport r.id fun x => { x with final := true }).logReport r 1
  let logged (u : State) (k : Nat) : State := match r.entries[k]? with
    | some e => if e.st = 2 then u.log (0x8200 + k) deviceTc e.datum else u
    | none => u
  have shape : s.finalise r = (((List.range r.entries.length).foldl logged v).raise 0x0C0 2).swcShow := rfl
  have step (u : State) (k : Nat) : (logged u k).swc = u.swc ∧ ∃ l, (logged u k).events = u.events ++ l := by
    unfold logged
    split
    · split
      · exact ⟨rfl, _, rfl⟩
      · exact ⟨rfl, [], (List.append_nil _).symm⟩
    · exact ⟨rfl, [], (List.append_nil _).symm⟩
  have reports : ((List.range r.entries.length).foldl logged v).swc = v.swc :=
    foldl_keeps (g := State.swc) (fun u k => (step u k).1) _ _
  have events (l : List Nat) (u : State) : ∃ m, (l.foldl logged u).events = u.events ++ m := by
    induction l generalizing u with
    | nil => exact ⟨[], (List.append_nil _).symm⟩
    | cons k l ih =>
      obtain ⟨m, hm⟩ := ih (logged u k)
      obtain ⟨n, hn⟩ := (step u k).2
      exact ⟨n ++ m, by rw [List.foldl_cons, hm, hn, List.append_assoc]⟩
  obtain ⟨m, told⟩ := events (List.range r.entries.length) v
  rw [shape]
  generalize (List.range r.entries.length).foldl logged v = w at reports told
  have shown : ((w.raise 0x0C0 2).swcShow).except 1 = w.except 1 :=
    (State.swcShow_same 1 rfl _).trans (State.raise_same 1 rfl _ _ _)
  refine ⟨fun x member same => ?_, ?_, m, ?_⟩
  · rw [part_of_except shown .swc rfl, reports] at member
    obtain ⟨y, -, rfl⟩ := List.mem_map.mp member
    by_cases own : y.id = r.id
    · rw [if_pos own]
    · rw [if_neg own] at same
      exact absurd same own
  · rw [rd_swcShow (by decide) (by decide)]
    exact bit_raise_same _ _ (by decide)
  · rw [part_of_except shown .events rfl, told]
    exact List.append_assoc _ _ _

/-- An enumeration leaves the reports, the events and the interrupts. -/
theorem enumerate_leaves (s : State) : s.enumerate.swc.reports = s.swc.reports ∧ s.enumerate.events = s.events ∧
    s.enumerate.rd (IRQ_RAW 0x0C0) = s.rd (IRQ_RAW 0x0C0) := by
  refine ⟨?_, part_of_except (State.enumerate_same 536871937 rfl _) .events rfl, ?_⟩
  · unfold State.enumerate
    split
    · rfl
    · split
      · rw [part_of_except (swcShow_keeps _) .swc rfl]
        rfl
      · dsimp only
        rw [part_of_except (swcShow_keeps _) .swc rfl, part_of_except (State.sendDown_same 1024 rfl _ _ _) .swc rfl]
        rw [← part_of_except ((State.wr_same 1 rfl (s.wr SWC_ENUMNO ((s.rd SWC_ENUMNO + 1) % 65536)) SWC_POS 0).trans
          (State.wr_same 1 rfl s SWC_ENUMNO ((s.rd SWC_ENUMNO + 1) % 65536))) .swc rfl]
        rfl
  · unfold State.enumerate
    split
    · rfl
    · split
      · rw [rd_swcShow (by decide) (by decide), rd_setSwc]
      · dsimp only
        rw [rd_swcShow (by decide) (by decide), rd_sendDown, rd_setSwc, rd_wr_free (by decide), rd_wr_free (by decide)]

theorem reportFinal_answers {s : State} {r : SweepReport}
    (hr : (s.swc.reports.find? fun r => !r.final && decide
    (r.head + s.rd SWC_RWAIT * 65536 ≤ stampNat s.stamp)) = some r) :
    Answers .reportFinal s fun t =>
      (∀ x ∈ t.swc.reports, x.id = r.id → x.final = true) ∧ bit (t.rd (IRQ_RAW 0x0C0)) 2 = true ∧
      ∃ l, t.events = s.events ++
        ⟨0x8013, deviceTc, leBytes 8 (r.id + codeOf r.code * 2 ^ 16 + 2 ^ 24)⟩ :: l := by
  have command : exec .reportFinal s = .next (if (s.finalise r).swc.wanted ∧ (s.finalise r).outstanding = 0 then
      (s.finalise r).enumerate else s.finalise r) := by
    change execReportFinal s = _
    unfold execReportFinal
    rw [hr]
  refine ⟨_, command, ?_⟩
  dsimp only
  split
  · obtain ⟨reports, events, raised⟩ := enumerate_leaves (s.finalise r)
    rw [reports, events, raised]
    exact finalise_parts s r
  · exact finalise_parts s r

/-! ### Fetches (R400, R402) -/

theorem swcFGo_answers {s : State} {w : RegWrite} {r : SweepReport} {e : ReportEntry}
    (hw : s.admitsWrite 0x0C0 0x07C w (setBit w.data.toNat 24) = true) (hh : s.swcHead = true)
    (hr : s.report? (bits w.data.toNat 0 16) = some r) (he : r.entries[bits w.data.toNat 16 6]? = some e) :
    Answers (.swcFGo w) s fun t => t.resp.code = .ok ∧ t.swc.fetch = some ⟨r.id, e.eui, s.clk⟩ := by
  let d := (BitVec.ofNat 32 (setBit w.data.toNat 24)).toNat
  let u := s.storeWord 0x0C0 0x07C d
  have kept : u.except 41 = s.except 41 := State.storeWord_same 41 rfl _ _ _ _
  have id : u.rd SWC_F_ID = bits w.data.toNat 0 16 := by
    rw [SWC_F_ID, rd_storeWord_set (by decide) (by decide) (by decide) (by decide)]
    exact bits_command (Or.inr (by decide)) (by decide)
  have pos : u.rd SWC_F_POS = bits w.data.toNat 16 6 := by
    rw [SWC_F_POS, rd_storeWord_set (by decide) (by decide) (by decide) (by decide)]
    exact bits_command (Or.inr (by decide)) (by decide)
  have head : u.swcHead = true :=
    (congrArg (· == 1) (rd_storeWord_other (f := SWC_HEAD) (by decide) (by decide) (by decide) s d)).trans hh
  let v := u.setSwc fun c => { c with fetch := some ⟨r.id, e.eui, u.clk⟩ }
  have done : swcWrite s ⟨w.port, w.tc.val, 0x0C0, 0x07C, none⟩ d =
      (.ok, v.sendDown 0x08 (leBytes 2 r.id ++ leBytes 8 e.eui)) := by
    have given : bit d 24 = true := by
      rw [bit_command (by decide), if_pos rfl]
    have write : swcWrite s ⟨w.port, w.tc.val, 0x0C0, 0x07C, none⟩ d = u.startFetch := if_pos given
    rw [write]
    unfold State.startFetch
    rw [id, State.report?, part_of_except kept .swc rfl, show s.swc.reports.reverse.find? _ = some r from hr]
    dsimp only
    rw [pos, he]
    dsimp only
    rw [head, Bool.not_true, if_neg Bool.false_ne_true]
  refine answers_write (f := fun d => setBit d 24) (h := swcWrite) rfl (by decide) hw done ⟨rfl, ?_⟩
  rw [part_of_except (State.answer_same 512 rfl _ _) .swc rfl, part_of_except (State.sendDown_same 1024 rfl _ _ _) .swc
    rfl,
    ← part_of_except kept .clk rfl]
  rfl

section
variable {s u : State} {f : ChainFrame} {b : List Byte} (ht : s.chainTake 0x08 10 f = (some b, u))
  (hh : s.swcHead = false)
  (he : leAt b 2 8 = s.eui) (hu : s.on SWC_UPLNK = true)
include ht hh he hu

/-- What a device that is asked for a result sends. -/
theorem fetch_sends {p : List Byte} (hp : exec (.fetch f) s = .next (u.sendUp 0x07 p)) :
    Answers (.fetch f) s fun t => t.out = s.out ++ [⟨.chainUp, byteNats (s.chainBytes 0x07 p)⟩] := by
  obtain ⟨-, rfl⟩ := chainTake_some ht
  refine ⟨_, hp, ?_⟩
  rw [sendUp_sends ((on_count_free (by decide) _ _).trans hu) ((head_count s _).trans hh)]
  change (s.count SWC_CGERRN f.bad.toNat).out ++ _ = _
  rw [part_of_except (chainCounted s _) .out rfl, chainBytes_of_pos (rd_count_free (by decide) _ _)]

omit hu in
theorem fetch_eq : exec (.fetch f) s = .next (
    match ((List.range 16).map fun i => (s.swc.next + 15 - i) % 16).find? fun k =>
        u.on (SWC_LR_VALID k) && u.rd (SWC_LR_ID k) == leAt b 0 2 with
    | some k => u.sendUp 0x07 (u.resultPayload (leAt b 0 2) (u.rd (SWC_LR_STS k)) (u.rd (SWC_LR_STAMP k))
        (u.rd (SWC_LR_DATUM k)) true)
    | none => u.sendUp 0x07 (u.resultPayload (leAt b 0 2) (codeOf .skipped) 0 0 true)) := by
  obtain ⟨-, rfl⟩ := chainTake_some ht
  have eui : (s.count SWC_CGERRN f.bad.toNat).eui = s.eui := by
    rw [State.eui, rd_count_free (by decide), rd_count_free (by decide), State.eui]
  change execFetch f s = _
  unfold execFetch
  rw [ht]
  dsimp only
  rw [head_count, hh, if_neg Bool.false_ne_true, if_neg (by rw [eui]; exact not_not_intro he),
    part_of_except (chainCounted s _) .swc rfl] <;> rfl

omit hh he hu in
/-- The local store reads as before. -/
theorem fetch_reads : (∀ k : Fin 16, u.on (SWC_LR_VALID k.val) = s.on (SWC_LR_VALID k.val) ∧
    u.rd (SWC_LR_ID k.val) = s.rd (SWC_LR_ID k.val) ∧ u.rd (SWC_LR_STS k.val) = s.rd (SWC_LR_STS k.val) ∧
    u.rd (SWC_LR_STAMP k.val) = s.rd (SWC_LR_STAMP k.val) ∧ u.rd (SWC_LR_DATUM k.val) = s.rd (SWC_LR_DATUM k.val)) ∧
    ∀ code stamp datum, u.resultPayload (leAt b 0 2) code stamp datum true =
      s.resultPayload (leAt b 0 2) code stamp datum true := by
  have apart : ∀ k : Fin 16, SWC_CGERRN.free (SWC_LR_VALID k.val) = true ∧ SWC_CGERRN.free (SWC_LR_ID k.val) = true ∧
      SWC_CGERRN.free (SWC_LR_STS k.val) = true ∧ SWC_CGERRN.free (SWC_LR_STAMP k.val) = true ∧
      SWC_CGERRN.free (SWC_LR_DATUM k.val) = true := by decide
  obtain ⟨-, rfl⟩ := chainTake_some ht
  refine ⟨fun k => ?_, fun code stamp datum => ?_⟩
  · obtain ⟨valid, id, sts, stamp, datum⟩ := apart k
    exact ⟨on_count_free valid _ _, rd_count_free id _ _, rd_count_free sts _ _, rd_count_free stamp _ _,
      rd_count_free datum _ _⟩
  · rw [State.resultPayload, rd_count_free (by decide), State.eui, rd_count_free (by decide), rd_count_free (by decide),
      State.resultPayload, State.eui]

theorem fetch_skipped (hn : ∀ k < 16, ¬(s.on (SWC_LR_VALID k) = true ∧ s.rd (SWC_LR_ID k) = leAt b 0 2)) :
    Answers (.fetch f) s fun t => t.out = s.out ++ [⟨.chainUp, byteNats (s.chainBytes 0x07
      (s.resultPayload (leAt b 0 2) (codeOf .skipped) 0 0 true))⟩] := by
  obtain ⟨reads, payload⟩ := fetch_reads ht
  have command := fetch_eq ht hh he
  have missed : (((List.range 16).map fun i => (s.swc.next + 15 - i) % 16).find? fun k =>
      u.on (SWC_LR_VALID k) && u.rd (SWC_LR_ID k) == leAt b 0 2) = none := by
    rw [List.find?_eq_none]
    intro k member
    obtain ⟨i, -, rfl⟩ := List.mem_map.mp member
    obtain ⟨valid, id, -⟩ := reads ⟨(s.swc.next + 15 - i) % 16, Nat.mod_lt _ (by decide)⟩
    rw [valid, id]
    simpa using hn ((s.swc.next + 15 - i) % 16) (Nat.mod_lt _ (by decide))
  rw [missed] at command
  dsimp only at command
  rw [payload] at command
  exact fetch_sends ht hh he hu command

theorem fetch_finds {k : Nat} (hk : k < 16) (hv : s.on (SWC_LR_VALID k) = true) (hi : s.rd (SWC_LR_ID k) = leAt b 0 2)
    (hone : ∀ j < 16, s.on (SWC_LR_VALID j) = true → s.rd (SWC_LR_ID j) = leAt b 0 2 → j = k) :
    Answers (.fetch f) s fun t => t.out = s.out ++ [⟨.chainUp, byteNats (s.chainBytes 0x07
      (s.resultPayload (leAt b 0 2) (s.rd (SWC_LR_STS k)) (s.rd (SWC_LR_STAMP k)) (s.rd (SWC_LR_DATUM k)) true))⟩] := by
  obtain ⟨reads, payload⟩ := fetch_reads ht
  have command := fetch_eq ht hh he
  obtain ⟨valid, id, sts, stamp, datum⟩ := reads ⟨k, hk⟩
  have there : (((List.range 16).map fun i => (s.swc.next + 15 - i) % 16).find? fun k =>
      u.on (SWC_LR_VALID k) && u.rd (SWC_LR_ID k) == leAt b 0 2).isSome = true := by
    refine List.find?_isSome.mpr ⟨k, List.mem_map.mpr ⟨(s.swc.next + 15 - k) % 16,
      List.mem_range.mpr (Nat.mod_lt _ (by decide)), by omega⟩, ?_⟩
    rw [valid, id, hv, hi]
    simp
  obtain ⟨j, found⟩ := Option.isSome_iff_exists.mp there
  have own : j = k := by
    obtain ⟨i, -, rfl⟩ := List.mem_map.mp (List.mem_of_find?_eq_some found)
    obtain ⟨valid', id', -⟩ := reads ⟨(s.swc.next + 15 - i) % 16, Nat.mod_lt _ (by decide)⟩
    have good := List.find?_some found
    rw [valid', id'] at good
    obtain ⟨hv', hi'⟩ := Bool.and_eq_true_iff.mp good
    exact hone _ (Nat.mod_lt _ (by decide)) hv' (by simpa using hi')
  rw [found, own] at command
  dsimp only at command
  rw [payload, sts, stamp, datum] at command
  exact fetch_sends ht hh he hu command

end

theorem fetchTimeout_answers {s : State} {f : FetchRun} (hf : s.swc.fetch = some f) (hp : s.rd CTF_PERIOD ≠ 0) :
    Answers .fetchTimeout s fun t =>
      t.swc.fetch = none ∧ t.rd SWC_F_CODE = codeOf .timeout ∧ f.clk + msTicks 1 ≤ t.clk := by
  have command : exec .fetchTimeout s = .next (((s.waitUntil (f.clk + msTicks 1)).setSwc fun c =>
      { c with fetch := none }).wr SWC_F_CODE (codeOf .timeout)) := by
    change execFetchTimeout s = _
    unfold execFetchTimeout
    rw [hf]
  refine ⟨_, command, ?_, rd_wr_lt rfl (by decide) _, ?_⟩
  · rw [part_of_except (State.wr_same 1 rfl _ _ _) .swc rfl]
    rfl
  · have noted (x : State) (g : SwcState → SwcState) : (x.setSwc g).clk = x.clk := rfl
    rw [part_of_except (State.wr_same 1 rfl _ _ _) .clk rfl, noted]
    exact waitUntil_clk hp _

/-! ### The reads that latch (R404) -/

theorem swcOfsRead_answers {s : State} {r : RegRead} (hr : s.admitsRead 0x0C0 0x04C r = true) :
    Answers (.swcOfsRead r) s fun t =>
      t.resp.code = .ok ∧ t.resp.data = [s.rd SWC_OFS_LO] ∧
      cellAt 0#32 (regKey 0x0C0 0x050) t.latch = BitVec.ofNat 32 (s.reg 0x0C0 0x050) ∧
      cellAt 0#32 (regKey 0x0C0 0x054) t.latch = BitVec.ofNat 32 (s.reg 0x0C0 0x054) := by
  let u := s.latchWords 0x0C0 0x054 1
  let v := u.latchWords 0x0C0 0x050 1
  have value : shownWord (RegMap.fieldsAt 0x0C0 0x04C) (s.reg 0x0C0 0x04C) = s.rd SWC_OFS_LO := by
    have mask : RegMap.maskOf .rw (RegMap.fieldsAt 0x0C0 0x04C) ||| RegMap.maskOf .ro (RegMap.fieldsAt 0x0C0 0x04C) |||
        RegMap.maskOf .rc (RegMap.fieldsAt 0x0C0 0x04C) ||| RegMap.maskOf .w1c (RegMap.fieldsAt 0x0C0 0x04C) |||
        RegMap.maskOf .w1s (RegMap.fieldsAt 0x0C0 0x04C) = 2 ^ 32 - 1 := by decide
    rw [shownWord, mask, Nat.and_two_pow_sub_one_eq_mod, State.rd, if_pos (by decide)]
    exact (congrArg (· % 2 ^ 32) (Nat.div_one _)).symm
  have done : swcRead s ⟨r.port, r.tc.val, 0x0C0, 0x04C, none⟩ = (.ok, s.rd SWC_OFS_LO, v) := by
    have body : swcRead s ⟨r.port, r.tc.val, 0x0C0, 0x04C, none⟩ = plainRead u
      ⟨r.port, r.tc.val, 0x0C0, 0x04C, none⟩ := rfl
    have wide : wideOf 0x0C0 0x04C = some (0x04C, 2) := by decide
    have clears : RegMap.maskOf .rc (RegMap.fieldsAt 0x0C0 0x04C) = 0 := by decide
    rw [body]
    unfold plainRead State.readWord State.clearOnRead
    dsimp only
    rw [wide, clears]
    dsimp only
    rw [if_pos rfl, if_pos (Or.inl rfl), ← value]
    rfl
  refine answers_read rfl (by decide) hr done ⟨rfl, rfl, ?_, ?_⟩
  · exact latch_latchWords u 0x0C0 (i := 0) (by decide)
  · refine (cellAt_insert_other _ (by decide) _ _).trans ?_
    exact latch_latchWords s 0x0C0 (i := 0) (by decide)

/-- The selected report in SWC_RHDR. -/
def State.reportHeader (s : State) : State :=
  let r := s.report? (s.rd SWC_R_ID)
  ((s.wr SWC_R_CODE (codeOf ((r.map (·.code)).getD .cfgInvalid))).wr SWC_R_FINAL
    (b2n ((r.map (·.final)).getD false))).wr SWC_R_NDEV ((r.map (·.entries)).getD []).length

/-- One entry of the selected report in SWC_RPTn. -/
def State.reportEntry (s : State) (k : Nat) (e : ReportEntry) : State :=
  (((((s.wr (SWC_RP_STATE k) e.st).wr (SWC_RP_STS k) e.code).wr (SWC_RP_FETCHED k) (b2n e.fetched)).wr
    (SWC_RP_STAMP k) e.stamp).wr (SWC_RP_DATUM k) e.datum).wr (SWC_RP_EUI k) e.eui

theorem rd_reportEntry {g : Fld} (hk : g.key + 4 ≤ 0xC0200) (hg : g.lo + g.width ≤ 32) (s : State) (k : Nat)
    (e : ReportEntry) : (s.reportEntry k e).rd g = s.rd g := by
  have above (f : Fld) (hf : 0xC0200 ≤ f.key) : f.free g = true := by
    have narrow : g.width ≤ 32 := by omega
    refine Fld.free_iff.mpr ⟨?_, fun _ => hg⟩
    simp only [Fld.apart, Fld.words, if_pos narrow, Bool.or_eq_true, decide_eq_true_eq]
    omega
  have state : 0xC0200 ≤ (SWC_RP_STATE k).key := by simp only [Fld.key, regKey, SWC_RP_STATE]; omega
  have sts : 0xC0200 ≤ (SWC_RP_STS k).key := by simp only [Fld.key, regKey, SWC_RP_STS]; omega
  have fetched : 0xC0200 ≤ (SWC_RP_FETCHED k).key := by simp only [Fld.key, regKey, SWC_RP_FETCHED]; omega
  have stamp : 0xC0200 ≤ (SWC_RP_STAMP k).key := by simp only [Fld.key, regKey, SWC_RP_STAMP]; omega
  have datum : 0xC0200 ≤ (SWC_RP_DATUM k).key := by simp only [Fld.key, regKey, SWC_RP_DATUM]; omega
  have eui : 0xC0200 ≤ (SWC_RP_EUI k).key := by simp only [Fld.key, regKey, SWC_RP_EUI]; omega
  rw [State.reportEntry, rd_wr_free (above _ eui), rd_wr_free (above _ datum), rd_wr_free (above _ stamp),
    rd_wr_free (above _ fetched), rd_wr_free (above _ sts), rd_wr_free (above _ state)]

/-- The report read is shown in its header and in its entries. -/
theorem latchReport_eq (s : State) : s.latchReport = (List.range 32).foldl (fun u k => u.reportEntry k
    ((((s.report? (s.rd SWC_R_ID)).map (·.entries)).getD []).getD k { eui := 0 })) s.reportHeader := rfl

theorem rd_latchReport {g : Fld} (hk : g.key + 4 ≤ 0xC0200) (hg : g.lo + g.width ≤ 32) (s : State) :
    s.latchReport.rd g = s.reportHeader.rd g := by
  rw [latchReport_eq]
  exact foldl_keeps (g := fun u : State => u.rd g) (fun u k => rd_reportEntry hk hg u k _) (List.range 32)
    s.reportHeader

theorem swcRhdrRead_answers {s : State} {r : RegRead} (hr : s.admitsRead 0x0C0 0x084 r = true) :
    Answers (.swcRhdrRead r) s fun t =>
      t.resp.code = .ok ∧ t.resp.data = [shownWord (RegMap.fieldsAt 0x0C0 0x084) (t.reg 0x0C0 0x084)] ∧
      t.rd SWC_R_CODE = codeOf (((s.report? (s.rd SWC_R_ID)).map (·.code)).getD .cfgInvalid) ∧
      t.on SWC_R_FINAL = ((s.report? (s.rd SWC_R_ID)).map (·.final)).getD false := by
  have done : swcRead s ⟨r.port, r.tc.val, 0x0C0, 0x084, none⟩ =
      (.ok, shownWord (RegMap.fieldsAt 0x0C0 0x084) (s.latchReport.reg 0x0C0 0x084), s.latchReport) := by
    have body : swcRead s ⟨r.port, r.tc.val, 0x0C0, 0x084, none⟩ =
        plainRead s.latchReport ⟨r.port, r.tc.val, 0x0C0, 0x084, none⟩ := rfl
    have wide : wideOf 0x0C0 0x084 = none := by decide
    have clears : RegMap.maskOf .rc (RegMap.fieldsAt 0x0C0 0x084) = 0 := by decide
    rw [body]
    generalize s.latchReport = v
    unfold plainRead State.readWord State.clearOnRead
    dsimp only
    rw [wide, clears]
    dsimp only
    rw [if_pos (Or.inl rfl)]
  have kept (u : State) (tc a v : Nat) (page off : Nat) (write : Bool) (f : Fld) :
      ((u.capture page off tc write .ok).answerRead tc a .ok v).rd f = u.rd f := by
    rw [rd_of_except (State.answerRead_same 512 rfl _ _ _ _ _) rfl, State.capture, if_pos (Or.inl rfl)]
  have regs (u : State) (tc a v : Nat) (page off p o : Nat) (write : Bool) :
      ((u.capture page off tc write .ok).answerRead tc a .ok v).reg p o = u.reg p o := by
    rw [State.reg, part_of_except (State.answerRead_same 512 rfl _ _ _ _ _) .regs rfl, State.capture, if_pos
      (Or.inl rfl),
      State.reg]
  have answered (u : State) (tc a v : Nat) : (u.answerRead tc a .ok v).resp.data = [v] := rfl
  refine answers_read rfl (by decide) hr done ⟨rfl, ?_, ?_, ?_⟩
  · rw [regs, answered]
  · rw [kept, rd_latchReport (by decide) (by decide), State.reportHeader,
      rd_wr_free (by decide), rd_wr_free (by decide)]
    exact rd_wr_lt (f := SWC_R_CODE) rfl (codeOf_lt _) _
  · rw [State.on, kept, rd_latchReport (by decide) (by decide), State.reportHeader,
      rd_wr_free (by decide)]
    exact on_wr_b2n rfl (by decide) _ _

/-- Settles O41. -/
theorem sweepsComplete : Obligations.SweepsComplete := by
  unfold Obligations.SweepsComplete
  exact ⟨fun s w h hw hh ha hk hl => ⟨fun he ho hn => swcSwGo_submits hw hh ha hk hl he ho hn,
      fun he => swcSwGo_late hw hh ha hk hl he⟩,
    fun s u f b ht hh hp hk hn => ⟨fun hl he => sweep_holds ht hh hp hk hn hl he, fun hl => sweep_late ht hh hp hk hn
      hl⟩,
    fun s u f b ht => ⟨fun hh => cmdack_reaches ht hh, fun hh hu ho => cmdack_passes ht hh hu ho⟩,
    fun s x hx hr hk ht => sweepExecute_answers hx hr hk ht,
    fun s u f b ht => ⟨fun hh => ⟨fun r k hr hk => result_records ht hh hr hk,
      fun x hx hi he hf => result_ends ht hh hx hi he hf⟩, fun hh hu ho => result_passes ht hh hu ho⟩,
    fun s r hr => reportFinal_answers hr, fun s w r e hw hh hr he => swcFGo_answers hw hh hr he,
    fun s u f b ht hh he hu => ⟨fun hn => fetch_skipped ht hh he hu hn,
      fun k hk hv hi hone => fetch_finds ht hh he hu hk hv hi hone⟩,
    fun s f hf hp => fetchTimeout_answers hf hp, fun s r hr => swcOfsRead_answers hr, fun s r hr => swcRhdrRead_answers
      hr⟩

end Sys2Proof.Machine

/-! ## The tamper monitors (O42) -/

namespace Sys2Proof.Machine

open Reg

set_option autoImplicit false

/-! ### Conditions and their lists -/

theorem any_cellInsert {α : Type} (k : Nat) (v : α) (l : List (Nat × α)) : (cellInsert k v l).any (·.1 == k) = true :=
  List.any_eq_true.mpr ⟨_, List.mem_of_find?_eq_some (find_cellInsert k v l), by simp⟩

theorem any_cellErase {α : Type} (k : Nat) (l : List (Nat × α)) : (cellErase k l).any (·.1 == k) = false := by
  induction l with
  | nil => rfl
  | cons x l ih =>
    obtain ⟨j, v⟩ := x
    rw [cellErase]
    split
    · exact ih
    next other =>
      rw [List.any_cons, ih, Bool.or_false]
      simpa using Ne.symm other

theorem cfg_of_inForce {s t : State} (h : t.inForce = s.inForce) (f : Fld) : t.cfg f = s.cfg f := by
  rw [State.cfg, State.cfg, State.regIn, State.regIn, h]

theorem hallShow_keeps (s : State) (k b : Nat) :
    (s.hallShow k b).except 1 = s.except 1 := State.hallShow_same 1 rfl s k b

theorem rd_hallShow {g : Fld} (h0 : TMP_HB0.free g = true) (h1 : TMP_HB1.free g = true) (s : State) (k b : Nat) :
    (s.hallShow k b).rd g = s.rd g := by
  unfold State.hallShow
  split
  · exact rd_wr_free h0 s b
  · split
    · exact rd_wr_free h1 s b
    · rfl

theorem cfg_hallShow (s : State) (k b : Nat) (f : Fld) : (s.hallShow k b).cfg f = s.cfg f :=
  cfg_of_inForce (part_of_except (hallShow_keeps s k b) .inForce rfl) f

/-- The fields that show the monitors. -/
def tmpFields : List Fld := [TMP_HACT, TMP_MACT, TMP_EACT, TMP_TLOW, TMP_THIGH, TMP_XT32]

theorem rd_tmpShow {g : Fld} (h : ∀ f ∈ tmpFields, f.free g = true) (s : State) : s.tmpShow.rd g = s.rd g := by
  simp only [tmpFields, List.forall_mem_cons] at h
  obtain ⟨hact, mact, eact, low, high, xt32, -⟩ := h
  unfold State.tmpShow
  dsimp only
  rw [rd_wr_free xt32, rd_wr_free high, rd_wr_free low, rd_wr_free eact, rd_wr_free mact, rd_wr_free hact]

theorem tmpShow_keeps (s : State) : s.tmpShow.except 1 = s.except 1 := State.tmpShow_same 1 rfl s

/-- The temperature condition as TMP_STS shows it. -/
theorem tmpShow_temp (s : State) :
    s.tmpShow.on TMP_TLOW = (s.tmp.temp.map (·.kind) == some 0) ∧
    s.tmpShow.on TMP_THIGH = (s.tmp.temp.map (·.kind) == some 1) := by
  have kind (n : Nat) (hn : n < 2) : ((match s.tmp.temp with
      | some c => c.kind
      | none => 2) == n) = (s.tmp.temp.map (·.kind) == some n) := by
    cases s.tmp.temp with
    | none =>
      have other : (2 == n) = false := by simp; omega
      exact other
    | some c => rfl
  unfold State.tmpShow
  dsimp only
  rw [on_wr_free (by decide), on_wr_free (by decide), on_wr_b2n rfl (by decide), on_wr_free (by decide),
    on_wr_b2n rfl (by decide)]
  exact ⟨kind 0 (by decide), kind 1 (by decide)⟩

theorem log_parts (s : State) (c t d : Nat) : (s.log c t d).tmp = s.tmp ∧ (s.log c t d).ctf = s.ctf ∧
    Logged s (s.log c t d) c t d := ⟨rfl, rfl, rfl⟩

/-! ### Magnetic conditions and enclosure inputs (R405) -/

theorem magOn_answers {s : State} {k : Fin 10} {b : BitVec 16} (peak : BitVec 16)
    (hn : s.tmp.mags.any (·.1 == k.val) = false) (hw : s.magWired k.val = true)
    (hb : k.val < 2 → s.cfg TMP_HTH ≤ b.toNat) :
    Answers (.magOn k b peak) s fun t =>
      t.tmp.mags.any (·.1 == k.val) = true ∧ t.rd TMP_MAGN = satNat 16 (s.rd TMP_MAGN + 1) ∧
      bit (t.rd (IRQ_RAW 0x0C8)) 0 = true ∧
      Logged s t 0x1001 deviceTc (k.val + (if k.val < 2 then peak.toNat else 0) * 2 ^ 16) := by
  let u := s.hallShow k.val b.toNat
  let v := u.setTmp fun t => { t with mags := cellInsert k.val ⟨u.clk, 0⟩ t.mags }
  let w := ((v.tmpShow).count TMP_MAGN).raise 0x0C8 0
  have kept := hallShow_keeps s k.val b.toNat
  have command : exec (.magOn k b peak) s = .next (w.log 0x1001 deviceTc
      (k.val + (if k.val < 2 then peak.toNat else 0) * 2 ^ 16)) := by
    have wired : u.magWired k.val = true := by
      rw [State.magWired, cfg_hallShow]
      exact hw
    have reached : (decide (k.val < 2) && decide (b.toNat < u.cfg TMP_HTH)) = false := by
      rw [cfg_hallShow]
      simpa using hb
    change execMagOn k b peak s = _
    unfold execMagOn
    dsimp only
    rw [wired, reached, part_of_except kept .tmp rfl, hn, if_neg (by decide)]
  have shown : w.except 1 = v.except 1 := (State.raise_same 1 rfl _ _ _).trans ((State.count_same 1 rfl _ _ _).trans
    (tmpShow_keeps _))
  obtain ⟨tmp, -, logged⟩ := log_parts w 0x1001 deviceTc (k.val + (if k.val < 2 then peak.toNat else 0) * 2 ^ 16)
  refine ⟨_, command, ?_, ?_, ?_, ?_⟩
  · rw [tmp, part_of_except shown .tmp rfl]
    exact any_cellInsert _ _ _
  · rw [rd_log, rd_raise_free (by decide), rd_count_same _ _ _ rfl, rd_tmpShow (by decide)]
    exact congrArg (fun n => satNat 16 (n + 1)) (rd_hallShow (by decide) (by decide) s _ _)
  · rw [rd_log]
    exact bit_raise_same _ _ (by decide)
  · rw [Logged, part_of_except shown .events rfl] at logged
    rw [Logged, ← part_of_except kept .events rfl]
    exact logged

theorem magOff_answers {s : State} {k : Fin 10} {b : BitVec 16} {c : Nat × TmpCond}
    (hc : s.tmp.mags.find? (·.1 == k.val) = some c)
    (hb : k.val < 2 → b.toNat < s.cfg TMP_HTH - s.cfg TMP_HHYS) :
    Answers (.magOff k b) s fun t =>
      t.tmp.mags.any (·.1 == k.val) = false ∧ bit (t.rd (IRQ_RAW 0x0C8)) 0 = true ∧
      Logged s t 0x1002 deviceTc (k.val + satNat 32 (s.msSince c.2.since) * 2 ^ 32) := by
  let u := s.hallShow k.val b.toNat
  let v := u.setTmp fun t => { t with mags := cellErase k.val t.mags }
  let w := v.tmpShow.raise 0x0C8 0
  have kept := hallShow_keeps s k.val b.toNat
  have shown : w.except 1 = v.except 1 := (State.raise_same 1 rfl _ _ _).trans (tmpShow_keeps _)
  have since : v.msSince c.2.since = s.msSince c.2.since := by
    rw [State.msSince, State.msSince, ← part_of_except kept .clk rfl]
    rfl
  have command : exec (.magOff k b) s = .next (w.log 0x1002 deviceTc
      (k.val + satNat 32 (s.msSince c.2.since) * 2 ^ 32)) := by
    change execMagOff k b s = _
    unfold execMagOff
    dsimp only
    rw [cfg_hallShow, cfg_hallShow, if_neg (fun h => absurd (hb h.1) (by omega))]
    unfold State.magRelease
    rw [part_of_except kept .tmp rfl, hc]
    dsimp only
    rw [since]
  obtain ⟨tmp, -, logged⟩ := log_parts w 0x1002 deviceTc (k.val + satNat 32 (s.msSince c.2.since) * 2 ^ 32)
  refine ⟨_, command, ?_, ?_, ?_⟩
  · rw [tmp, part_of_except shown .tmp rfl]
    exact any_cellErase _ _
  · rw [rd_log]
    exact bit_raise_same _ _ (by decide)
  · rw [Logged, part_of_except shown .events rfl] at logged
    rw [Logged, ← part_of_except kept .events rfl]
    exact logged

theorem encOpen_answers {s : State} {k : Fin 4} (hn : s.tmp.encs.any (·.1 == k.val) = false)
    (hw : bit (s.cfg TMP_EEN) k.val = true) :
    Answers (.encOpen k) s fun t =>
      t.tmp.encs.any (·.1 == k.val) = true ∧ t.rd TMP_ENCN = satNat 16 (s.rd TMP_ENCN + 1) ∧
      bit (t.rd (IRQ_RAW 0x0C8)) 1 = true ∧ Logged s t 0x1011 deviceTc k.val := by
  let v := s.setTmp fun t => { t with encs := cellInsert k.val ⟨s.clk, 0⟩ t.encs }
  let w := ((v.tmpShow).count TMP_ENCN).raise 0x0C8 1
  have command : exec (.encOpen k) s = .next (w.log 0x1011 deviceTc k.val) := by
    change execEncOpen k s = _
    unfold execEncOpen
    dsimp only
    rw [hn, hw, if_neg (by decide)]
  have shown : w.except 1 = v.except 1 := (State.raise_same 1 rfl _ _ _).trans ((State.count_same 1 rfl _ _ _).trans
    (tmpShow_keeps _))
  obtain ⟨tmp, -, logged⟩ := log_parts w 0x1011 deviceTc k.val
  refine ⟨_, command, ?_, ?_, ?_, ?_⟩
  · rw [tmp, part_of_except shown .tmp rfl]
    exact any_cellInsert _ _ _
  · rw [rd_log, rd_raise_free (by decide), rd_count_same _ _ _ rfl, rd_tmpShow (by decide)]
    rfl
  · rw [rd_log]
    exact bit_raise_same _ _ (by decide)
  · rw [Logged, part_of_except shown .events rfl] at logged
    exact logged

theorem encClose_answers {s : State} {k : Fin 4} {c : Nat × TmpCond} (hc : s.tmp.encs.find? (·.1 == k.val) = some c) :
    Answers (.encClose k) s fun t =>
      t.tmp.encs.any (·.1 == k.val) = false ∧
      Logged s t 0x1012 deviceTc (k.val + satNat 32 (s.msSince c.2.since) * 2 ^ 32) := by
  let v := s.setTmp fun t => { t with encs := cellErase k.val t.encs }
  let w := v.tmpShow.raise 0x0C8 1
  have shown : w.except 1 = v.except 1 := (State.raise_same 1 rfl _ _ _).trans (tmpShow_keeps _)
  have since : v.msSince c.2.since = s.msSince c.2.since := rfl
  have command : exec (.encClose k) s = .next (w.log 0x1012 deviceTc
      (k.val + satNat 32 (s.msSince c.2.since) * 2 ^ 32)) := by
    change execEncClose k s = _
    unfold execEncClose State.encRelease
    rw [hc]
    dsimp only
    rw [since]
  obtain ⟨tmp, -, logged⟩ := log_parts w 0x1012 deviceTc (k.val + satNat 32 (s.msSince c.2.since) * 2 ^ 32)
  refine ⟨_, command, ?_, ?_⟩
  · rw [tmp, part_of_except shown .tmp rfl]
    exact any_cellErase _ _
  · rw [Logged, part_of_except shown .events rfl] at logged
    exact logged

/-! ### Glitch runs (R406) -/

/-- The first glitch of a detector opens its run. -/
theorem glitch_opens {s : State} {k : Nat} (h : s.tmp.runs.find? (·.1 == k) = none) (code data : Nat) :
    (s.glitch k code data).tmp.runs.find? (·.1 == k) = some (k, ⟨0, s.clk⟩) ∧
    Logged s (s.glitch k code data) code deviceTc data := by
  let v := s.setTmp fun t => { t with runs := cellInsert k ⟨0, s.clk⟩ t.runs }
  have shape : s.glitch k code data = (v.raise 0x0C8 2).log code deviceTc data := by
    unfold State.glitch
    rw [h]
  have kept : (v.raise 0x0C8 2).except 1 = v.except 1 := State.raise_same 1 rfl _ _ _
  obtain ⟨tmp, -, logged⟩ := log_parts (v.raise 0x0C8 2) code deviceTc data
  rw [shape]
  refine ⟨?_, ?_⟩
  · rw [tmp, part_of_except kept .tmp rfl]
    exact find_cellInsert _ _ _
  · rw [Logged, part_of_except kept .events rfl] at logged
    exact logged

/-- A later glitch counts in the run. -/
theorem glitch_counts {s : State} {k : Nat} {r : Nat × GlitchRun} (h : s.tmp.runs.find? (·.1 == k) = some r)
    (code data : Nat) : (s.glitch k code data).tmp.runs.find? (·.1 == k) = some (k, ⟨r.2.count + 1, s.clk⟩) ∧
    (s.glitch k code data).events = s.events := by
  unfold State.glitch
  rw [h]
  exact ⟨find_cellInsert _ _ _, rfl⟩

theorem rd_glitch {g : Fld} (hg : (IRQ_RAW 0x0C8).free g = true) (s : State) (k code data : Nat) :
    (s.glitch k code data).rd g = s.rd g := by
  have set (f : TmpState → TmpState) : (s.setTmp f).rd g = s.rd g := rd_setTmp s f g
  unfold State.glitch
  split
  · exact set _
  · rw [rd_log, rd_raise_free hg]
    exact set _

theorem supplyGlitch_answers (s : State) (k : Fin 6) (high : Bool) : Answers (.supplyGlitch k high) s fun t =>
    t.rd TMP_SGLN = satNat 16 (s.rd TMP_SGLN + 1) ∧
    (s.tmp.runs.find? (·.1 == k.val) = none → t.tmp.runs.find? (·.1 == k.val) = some (k.val, ⟨0, s.clk⟩) ∧
      Logged s t 0x1021 deviceTc (k.val + (1 + b2n high) * 2 ^ 8)) ∧
    (∀ r, s.tmp.runs.find? (·.1 == k.val) = some r →
      t.tmp.runs.find? (·.1 == k.val) = some (k.val, ⟨r.2.count + 1, s.clk⟩) ∧ t.events = s.events) := by
  have kept : (s.count TMP_SGLN).except 1 = s.except 1 := State.count_same 1 rfl _ _ _
  have tmp := part_of_except kept .tmp rfl
  have clk := part_of_except kept .clk rfl
  have events := part_of_except kept .events rfl
  refine ⟨(s.count TMP_SGLN).glitch k.val 0x1021 (k.val + (1 + b2n high) * 2 ^ 8), rfl, ?_, fun hn => ?_, fun r hr =>
    ?_⟩
  · rw [rd_glitch (by decide)]
    exact rd_count_same _ _ _ rfl
  · obtain ⟨run, logged⟩ := glitch_opens (s := s.count TMP_SGLN) (by rw [tmp]; exact hn) 0x1021
      (k.val + (1 + b2n high) * 2 ^ 8)
    rw [clk] at run
    rw [Logged, events] at logged
    exact ⟨run, logged⟩
  · obtain ⟨run, same⟩ := glitch_counts (s := s.count TMP_SGLN) (by rw [tmp]; exact hr) 0x1021
      (k.val + (1 + b2n high) * 2 ^ 8)
    rw [clk] at run
    rw [events] at same
    exact ⟨run, same⟩

/-- A stop of XT32 opens the run of its detector. -/
theorem xt32Stops_parts {s : State} (hx : s.ctf.xt32 = true) (hn : s.tmp.runs.find? (·.1 == 7) = none) :
    s.xt32Stops.ctf.xt32 = false ∧ s.xt32Stops.on CTF_UTC_EST = true ∧ Logged s s.xt32Stops 0x1031 deviceTc 1 := by
  let u : State := { s with ctf := { s.ctf with xt32 := false } }
  let v := ((u.wr CTF_UTC_EST 1).raise 0x010 7).count TMP_CGLN
  have shape : s.xt32Stops = (v.glitch 7 0x1031 1).tmpShow := by
    unfold State.xt32Stops
    rw [hx, if_pos rfl]
  have kept : v.except 1 = u.except 1 := (State.count_same 1 rfl _ _ _).trans ((State.raise_same 1 rfl _ _ _).trans
    (State.wr_same 1 rfl _ _ _))
  have tmp := part_of_except kept .tmp rfl
  obtain ⟨-, logged⟩ := glitch_opens (s := v) (k := 7) (by rw [tmp]; exact hn) 0x1031 1
  have ctf : (v.glitch 7 0x1031 1).ctf = u.ctf := (part_of_except (State.glitch_same 67109121 rfl _ _ _ _) .ctf
    rfl).trans
    (part_of_except kept .ctf rfl)
  rw [shape]
  refine ⟨?_, ?_, ?_⟩
  · rw [part_of_except (tmpShow_keeps _) .ctf rfl, ctf]
  · rw [State.on, rd_tmpShow (by decide), rd_glitch (by decide), rd_count_free (by decide), rd_raise_free (by decide)]
    exact on_wr_b2n rfl (by decide) _ true
  · rw [Logged, part_of_except kept .events rfl] at logged
    rw [Logged, part_of_except (tmpShow_keeps _) .events rfl]
    exact logged

theorem clockGlitch_answers (s : State) : Answers (.clockGlitch false) s fun t =>
    t.rd TMP_CGLN = satNat 16 (s.rd TMP_CGLN + 1) ∧
    (s.tmp.runs.find? (·.1 == 6) = none → Logged s t 0x1031 deviceTc 0) ∧
    (s.ctf.xt32 = true → s.tmp.runs.find? (·.1 == 7) = none →
      Answers (.clockGlitch true) s fun u =>
        u.ctf.xt32 = false ∧ u.on CTF_UTC_EST = true ∧ Logged s u 0x1031 deviceTc 1) := by
  have kept : (s.count TMP_CGLN).except 1 = s.except 1 := State.count_same 1 rfl _ _ _
  refine ⟨(s.count TMP_CGLN).glitch 6 0x1031 0, rfl, ?_, fun hn => ?_, fun hx hn =>
    ⟨s.xt32Stops, rfl, xt32Stops_parts hx hn⟩⟩
  · rw [rd_glitch (by decide)]
    exact rd_count_same _ _ _ rfl
  · obtain ⟨-, logged⟩ := glitch_opens (s := s.count TMP_CGLN) (k := 6)
      (by rw [part_of_except kept .tmp rfl]; exact hn) 0x1031 0
    rw [Logged, part_of_except kept .events rfl] at logged
    exact logged

/-- A run that ends is logged with its count. -/
theorem glitchEnd_ends {s : State} {k : Nat} {r : Nat × GlitchRun} (hr : s.tmp.runs.find? (·.1 == k) = some r) :
    (s.glitchEnd k).tmp.runs.any (·.1 == k) = false ∧
    Logged s (s.glitchEnd k) (if k < 6 then 0x1022 else 0x1032) deviceTc
      ((if k < 6 then k else k - 6) + satNat 32 r.2.count * 2 ^ 32) := by
  have ended : s.glitchEnd k = (s.setTmp fun t => { t with runs := cellErase k t.runs }).log
      (if k < 6 then 0x1022 else 0x1032) deviceTc ((if k < 6 then k else k - 6) + satNat 32 r.2.count * 2 ^ 32) := by
    unfold State.glitchEnd
    rw [hr]
  rw [ended]
  generalize (if k < 6 then 0x1022 else 0x1032) = code
  generalize (if k < 6 then k else k - 6) + satNat 32 r.2.count * 2 ^ 32 = data
  obtain ⟨tmp, -, logged⟩ := log_parts (s.setTmp fun t => { t with runs := cellErase k t.runs }) code deviceTc data
  refine ⟨?_, logged⟩
  rw [tmp]
  exact any_cellErase _ _

theorem glitchRunEnd_answers {s : State} {k : Fin 8} {r : Nat × GlitchRun} (hk : k.val < 7)
    (hr : s.tmp.runs.find? (·.1 == k.val) = some r) :
    Answers (.glitchRunEnd k) s fun t =>
      t.tmp.runs.any (·.1 == k.val) = false ∧
      Logged s t (if k.val < 6 then 0x1022 else 0x1032) deviceTc
        ((if k.val < 6 then k.val else k.val - 6) + satNat 32 r.2.count * 2 ^ 32) := by
  have kept (n : Nat) : (s.waitUntil n).except 4289 = s.except 4289 := State.waitUntil_same 4289 rfl _ _
  have command : exec (.glitchRunEnd k) s = .next ((s.waitUntil (r.2.last + msTicks 1000)).glitchEnd k.val) := by
    change execGlitchRunEnd k s = _
    unfold execGlitchRunEnd
    dsimp only
    rw [hr]
    dsimp only
    rw [if_neg (by omega)]
  generalize r.2.last + msTicks 1000 = n at command
  obtain ⟨gone, logged⟩ := glitchEnd_ends (s := s.waitUntil n) (k := k.val) (r := r)
    (by rw [part_of_except (kept n) .tmp rfl]; exact hr)
  rw [Logged, part_of_except (kept n) .events rfl] at logged
  exact ⟨_, command, gone, logged⟩

/-! ### The temperature condition (R405) -/

section
variable {s : State} {x : BitVec 16} (hn : s.tmp.temp = none)
include hn

/-- A condition that begins is shown and logged. -/
theorem tempOut_begins {valid : Bool} {kind : Nat}
    (hk : (if !valid then 2 else if decide (x.toInt < s.tempLow) then 0 else 1) = kind)
    (hv : valid = false ∨ x.toInt < s.tempLow ∨ s.tempHigh < x.toInt) :
    Answers (.tempOut valid x) s fun t =>
      t.tmp.temp = some ⟨s.clk, kind⟩ ∧ t.on TMP_TLOW = (kind == 0) ∧ t.on TMP_THIGH = (kind == 1) ∧
      Logged s t 0x1041 deviceTc (kind + (if valid then unsigned 8 (divRound x.toInt 10) else 0) * 2 ^ 8) := by
  let v := s.setTmp fun t => { t with temp := some ⟨s.clk, kind⟩ }
  have command : exec (.tempOut valid x) s = .next ((v.tmpShow.raise 0x0C8 3).log 0x1041 deviceTc
      (kind + (if valid then unsigned 8 (divRound x.toInt 10) else 0) * 2 ^ 8)) := by
    change execTempOut valid x s = _
    unfold execTempOut
    dsimp only
    rw [hn, hk, if_neg]
    obtain rfl | low | high := hv
    · simp
    · simp [low]
    · simp [high]
  have kept : (v.tmpShow.raise 0x0C8 3).except 1 = v.except 1 := (State.raise_same 1 rfl _ _ _).trans (tmpShow_keeps _)
  obtain ⟨tmp, -, logged⟩ := log_parts (v.tmpShow.raise 0x0C8 3) 0x1041 deviceTc
    (kind + (if valid then unsigned 8 (divRound x.toInt 10) else 0) * 2 ^ 8)
  obtain ⟨low, high⟩ := tmpShow_temp v
  refine ⟨_, command, ?_, ?_, ?_, ?_⟩
  · rw [tmp, part_of_except kept .tmp rfl]
    rfl
  · rw [on_log, on_raise_free (by decide), low]
    rfl
  · rw [on_log, on_raise_free (by decide), high]
    rfl
  · rw [Logged, part_of_except kept .events rfl] at logged
    exact logged

theorem tempOut_invalid : Answers (.tempOut false x) s fun t =>
    t.tmp.temp = some ⟨s.clk, 2⟩ ∧ Logged s t 0x1041 deviceTc 2 := by
  obtain ⟨t, command, temp, -, -, logged⟩ := tempOut_begins (x := x) hn (valid := false) rfl (Or.inl rfl)
  rw [if_neg Bool.false_ne_true, Nat.zero_mul, Nat.add_zero] at logged
  exact ⟨t, command, temp, logged⟩

theorem tempOut_low (hl : x.toInt < s.tempLow) : Answers (.tempOut true x) s fun t =>
    t.tmp.temp = some ⟨s.clk, 0⟩ ∧ t.on TMP_TLOW = true ∧
    Logged s t 0x1041 deviceTc (unsigned 8 (divRound x.toInt 10) * 2 ^ 8) := by
  obtain ⟨t, command, temp, low, -, logged⟩ := tempOut_begins (x := x) hn (valid := true) (kind := 0)
    (by simp [hl]) (Or.inr (Or.inl hl))
  rw [if_pos rfl, Nat.zero_add] at logged
  exact ⟨t, command, temp, low, logged⟩

theorem tempOut_high (hl : s.tempLow ≤ x.toInt) (hh : s.tempHigh < x.toInt) : Answers (.tempOut true x) s fun t =>
    t.tmp.temp = some ⟨s.clk, 1⟩ ∧ t.on TMP_THIGH = true ∧
    Logged s t 0x1041 deviceTc (1 + unsigned 8 (divRound x.toInt 10) * 2 ^ 8) := by
  obtain ⟨t, command, temp, -, high, logged⟩ := tempOut_begins (x := x) hn (valid := true) (kind := 1)
    (by simp; omega) (Or.inr (Or.inr hh))
  rw [if_pos rfl] at logged
  exact ⟨t, command, temp, high, logged⟩

end

theorem tempBack_answers {s : State} {x : BitVec 16} {c : TmpCond} (hc : s.tmp.temp = some c)
    (hl : s.tempLow + 10 * s.cfg TMP_THYS ≤ x.toInt) (hh : x.toInt ≤ s.tempHigh - 10 * s.cfg TMP_THYS) :
    Answers (.tempBack x) s fun t =>
      t.tmp.temp = none ∧ t.on TMP_TLOW = false ∧ t.on TMP_THIGH = false ∧
      Logged s t 0x1042 deviceTc (c.kind + satNat 32 (s.msSince c.since) * 2 ^ 32) := by
  let v := s.setTmp fun t => { t with temp := none }
  have since : v.msSince c.since = s.msSince c.since := rfl
  have command : exec (.tempBack x) s = .next ((v.tmpShow.raise 0x0C8 3).log 0x1042 deviceTc
      (c.kind + satNat 32 (s.msSince c.since) * 2 ^ 32)) := by
    change execTempBack x s = _
    unfold execTempBack
    dsimp only
    rw [hc]
    dsimp only
    rw [if_neg (by omega), since]
  have kept : (v.tmpShow.raise 0x0C8 3).except 1 = v.except 1 := (State.raise_same 1 rfl _ _ _).trans (tmpShow_keeps _)
  obtain ⟨tmp, -, logged⟩ := log_parts (v.tmpShow.raise 0x0C8 3) 0x1042 deviceTc
    (c.kind + satNat 32 (s.msSince c.since) * 2 ^ 32)
  obtain ⟨low, high⟩ := tmpShow_temp v
  refine ⟨_, command, ?_, ?_, ?_, ?_⟩
  · rw [tmp, part_of_except kept .tmp rfl]
    rfl
  · rw [on_log, on_raise_free (by decide), low]
    rfl
  · rw [on_log, on_raise_free (by decide), high]
    rfl
  · rw [Logged, part_of_except kept .events rfl] at logged
    exact logged

/-- Settles O42. -/
theorem tamperComplete : Obligations.TamperComplete := by
  unfold Obligations.TamperComplete
  exact ⟨fun s k b peak hn hw hb => magOn_answers peak hn hw hb, fun s k b c hc hb => magOff_answers hc hb,
    fun s k hn hw => encOpen_answers hn hw, fun s k c hc => encClose_answers hc, supplyGlitch_answers,
      clockGlitch_answers,
    fun s k r hk hr => glitchRunEnd_answers hk hr,
    fun s x hn => ⟨tempOut_invalid hn, fun hl => tempOut_low hn hl, fun hl hh => tempOut_high hn hl hh⟩,
    fun s x c hc hl hh => tempBack_answers hc hl hh⟩

end Sys2Proof.Machine

/-! ## The rings of the security engine and the start of its operations -/

namespace Sys2Proof.Machine

open Reg

set_option autoImplicit false

/-! ### Command rings: a record put, a descriptor taken -/

theorem ringIdx_of_mem {s t : State} (h : t.mem = s.mem) (a : Nat) : t.ringIdx a = s.ringIdx a := memNat_of_mem h a 2

theorem ringIdx_cmdPut (s : State) (r : CmdRing) (w : Nat) {a : Nat} (h : a + 2 ≤ r.base + 0x08) :
    (s.cmdPut r w).ringIdx a = s.ringIdx a := by
  unfold State.cmdPut
  dsimp only
  rw [State.ringIdx, memNat_store_other _ (by omega), memNat_store_other _ (by rw [CmdRing.rec']; omega), State.ringIdx]

theorem ringIdx_cmdTaken (s : State) (r : CmdRing) :
    (s.cmdTaken r).ringIdx (r.base + 0x04) = (s.ringIdx (r.base + 0x04) + 1) % 65536 := by
  unfold State.cmdTaken
  rw [State.ringIdx, memNat_store_same]
  omega

theorem bytes_cmdTaken (s : State) (r : CmdRing) {a n : Nat} (h : a + n ≤ r.base + 0x04 ∨ r.base + 0x06 ≤ a) :
    (s.cmdTaken r).bytes a n = s.bytes a n := by
  unfold State.cmdTaken
  exact bytes_store_other _ (by rw [leBytes_length]; omega)

theorem ringIdx_cmdTaken_other (s : State) (r : CmdRing) {a : Nat} (h : a + 2 ≤ r.base + 0x04 ∨ r.base + 0x06 ≤ a) :
    (s.cmdTaken r).ringIdx a = s.ringIdx a := congrArg leNat (bytes_cmdTaken s r h)

/-- A record put in a ring stands in its place, and the index of the records has moved by one. -/
theorem cmdPut_writes (s : State) (r : CmdRing) (w : Nat) :
    (s.cmdPut r w).bytes (r.rec' (s.ringIdx (r.base + 0x08))) 32 = leBytes 32 w ∧
    (s.cmdPut r w).ringIdx (r.base + 0x08) = (s.ringIdx (r.base + 0x08) + 1) % 65536 := by
  unfold State.cmdPut
  dsimp only
  refine ⟨?_, ?_⟩
  · rw [bytes_store_other _ (by rw [leBytes_length, CmdRing.rec']; omega)]
    have stored := bytes_store s (r.rec' (s.ringIdx (r.base + 0x08))) (leBytes 32 w)
    rwa [leBytes_length] at stored
  · rw [State.ringIdx, memNat_store_same]
    omega

theorem cmdRoom_of_mem {s t : State} (h : t.mem = s.mem) (r : CmdRing) : t.cmdRoom r = s.cmdRoom r := by
  unfold State.cmdRoom
  rw [ringIdx_of_mem h, ringIdx_of_mem h]

theorem cmdNew_of_mem {s t : State} (h : t.mem = s.mem) (r : CmdRing) : t.cmdNew r = s.cmdNew r := by
  unfold State.cmdNew
  rw [ringIdx_of_mem h, ringIdx_of_mem h]

theorem cmdNext_of_mem {s t : State} (h : t.mem = s.mem) (r : CmdRing) : t.cmdNext r = s.cmdNext r := by
  unfold State.cmdNext
  rw [ringIdx_of_mem h, memNat_of_mem h]

theorem cmdPut_mem {s t : State} (h : t.mem = s.mem) (r : CmdRing) (w : Nat) :
    (t.cmdPut r w).mem = (s.cmdPut r w).mem := by
  unfold State.cmdPut State.store
  dsimp only
  rw [ringIdx_of_mem h, h]

/-- With one new descriptor the tail stands one below the head. -/
theorem cmdNew_one {s : State} {r : CmdRing} (h : s.cmdNew r = 1) :
    (s.ringIdx (r.base + 0x04) + 1) % 65536 = s.ringIdx r.base := by
  have head := ringIdx_lt s r.base
  have tail := ringIdx_lt s (r.base + 0x04)
  unfold State.cmdNew at h
  omega

/-- The registers that a turn does not show. -/
theorem rd_serveTurn {g : Fld} (hg : g.lo + g.width ≤ 32) (h : g.key < 0x5000 ∨ 0x6000 ≤ g.key) (s : State)
    (r c t : Nat) (hr : r ≤ 4) : (s.serveTurn r c t).rd g = s.rd g := by
  have apart : (TNC_RR (r - 1) c).free g = true :=
    free_of_key (show 6 ≤ 32 by decide) hg (by simp only [Fld.key, regKey, TNC_RR] at h ⊢; omega)
  unfold State.serveTurn
  dsimp only
  split
  · rw [rd_setTnc, rd_wr_free apart]
  · rw [rd_setTnc]

/-! ### The ring of the security engine -/

theorem secRing_of_rd {s t : State} {k : Nat}
    (h : ∀ g : Fld, g.page = 0x0D0 → 0x100 ≤ g.off → g.off < 0x10C + 16 * k → g.lo + g.width ≤ 32 → t.rd g = s.rd g) :
    t.secRing k = s.secRing k := by
  unfold State.secRing
  rw [h (SEC_RB_LO k) rfl (by simp only [SEC_RB_LO]; omega) (by simp only [SEC_RB_LO]; omega)
    (by simp only [SEC_RB_LO]; omega),
    h (SEC_RB_HI k) rfl (by simp only [SEC_RB_HI]; omega) (by simp only [SEC_RB_HI]; omega)
      (by simp only [SEC_RB_HI]; omega),
    h (SEC_RSL k) rfl (by simp only [SEC_RSL]; omega) (by simp only [SEC_RSL]; omega) (by simp only [SEC_RSL]; omega),
    h (SEC_RCL k) rfl (by simp only [SEC_RCL]; omega) (by simp only [SEC_RCL]; omega) (by simp only [SEC_RCL]; omega)]

/-- The page of the security engine lies below the context pages. -/
theorem sec_low {g : Fld} {k : Nat} (hk : k < 64) (hp : g.page = 0x0D0) (ho : g.off < 0x10C + 16 * k) :
    g.key + 4 ≤ 0x300000 := by
  simp only [Fld.key, regKey, hp]
  omega

theorem secRing_outcome (s : State) {k : Nat} (hk : k < 64) (t r item : Nat) (c : Status) :
    (s.outcome t r c item).secRing k = s.secRing k :=
  secRing_of_rd fun _ hp _ ho hg => rd_outcome_low (sec_low hk hp ho) hg s t r c item

/-- A record is written at once where the ring is not stopped, holds none back and has room. -/
theorem secRecord_room {s : State} {t w : Nat} {c : Status}
    (ring : (s.outcome t resSec c (sdItem w)).secRing t = s.secRing t) (res : Bool) (gen olen : Nat)
    (hs : s.sec.stopped.contains t = false) (hh : ∀ h ∈ s.sec.held, h.key ≠ t)
    (hr : s.cmdRoom (s.secRing t) = true) :
    s.secRecord t w c res gen olen =
      (s.outcome t resSec c (sdItem w)).cmdPut (s.secRing t) (secRecordOf s w c res gen olen) := by
  have same : (s.outcome t resSec c (sdItem w)).except 8193 = s.except 8193 := State.outcome_same 8193 rfl _ _ _ _ _
  have sec : (s.outcome t resSec c (sdItem w)).sec = s.sec := part_of_except same .sec rfl
  have room : (s.outcome t resSec c (sdItem w)).cmdRoom (s.secRing t) = true :=
    (cmdRoom_of_mem (part_of_except same .mem rfl) _).trans hr
  have now : (s.outcome t resSec c (sdItem w)).stamp = s.stamp := by
    rw [State.stamp, State.stamp, part_of_except same .ctf rfl]
  have free : s.sec.held.any (·.key == t) = false := by
    simpa using hh
  unfold State.secRecord
  dsimp only
  rw [ring, sec, hs, free, room, now]
  rfl

section
variable {g : Fld} (hk : g.key + 4 ≤ 0x300000) (hg : g.lo + g.width ≤ 32)
include hk hg

theorem rd_secRecord (s : State) (t w : Nat) (c : Status) (res : Bool) (gen olen : Nat) :
    (s.secRecord t w c res gen olen).rd g = s.rd g := by
  unfold State.secRecord
  dsimp only
  split
  · exact rd_outcome_low hk hg s _ _ _ _
  · split
    · rw [rd_setSec, rd_outcome_low hk hg]
    · exact (rd_of_except (State.cmdPut_same 34359738368 rfl _ _ _) rfl g).trans (rd_outcome_low hk hg s _ _ _ _)

end

theorem ringIdx_secRecord (s : State) {t : Nat} (ht : t < 64) (w : Nat) (c : Status) (res : Bool) (gen olen : Nat)
    {a : Nat} (h : a + 2 ≤ (s.secRing t).base + 0x08) :
    (s.secRecord t w c res gen olen).ringIdx a = s.ringIdx a := by
  have memory : (s.outcome t resSec c (sdItem w)).mem = s.mem :=
    part_of_except (State.outcome_same 8193 rfl _ _ _ _ _) .mem rfl
  unfold State.secRecord
  dsimp only
  rw [secRing_outcome s ht]
  split
  · exact ringIdx_of_mem memory a
  · split
    · exact ringIdx_of_mem memory a
    · rw [ringIdx_cmdPut _ _ _ h, ringIdx_of_mem memory]

/-- A descriptor taken is refused, or an item of its cost taken from the quota. -/
theorem secTake_cases (s : State) (t : Nat) :
    (∃ w c gen, s.secTake t = (s.secRecord t w c false gen 0).cmdTaken (s.secRing t)) ∨
    ∃ n f, s.secTake t = ((s.quotaPut 3 t n).setSec f).cmdTaken (s.secRing t) := by
  unfold State.secTake
  dsimp only
  split
  · exact .inl ⟨_, _, _, rfl⟩
  · unfold State.takeQuota
    split
    next taken =>
      split at taken
      · exact absurd taken (by simp)
      · obtain rfl := Option.some.inj taken
        exact .inr ⟨_, _, rfl⟩
    · exact .inl ⟨_, _, _, rfl⟩

theorem rd_secTake {g : Fld} (hk : g.key + 4 ≤ 0x300000) (hg : g.lo + g.width ≤ 32) (s : State) (t : Nat) :
    (s.secTake t).rd g = s.rd g := by
  obtain ⟨w, c, gen, refused⟩ | ⟨n, f, queued⟩ := secTake_cases s t
  · rw [refused, rd_of_except (State.cmdTaken_same 34359738368 rfl _ _) rfl, rd_secRecord hk hg]
  · rw [queued, rd_of_except (State.cmdTaken_same 34359738368 rfl _ _) rfl, rd_setSec, rd_quotaPut_low hk hg]

/-- Taking a descriptor moves the tail index by one and leaves the head. -/
theorem secTake_indices (s : State) {t : Nat} (ht : t < 64) :
    (s.secTake t).ringIdx ((s.secRing t).base + 0x04) = (s.ringIdx ((s.secRing t).base + 0x04) + 1) % 65536 ∧
    (s.secTake t).ringIdx (s.secRing t).base = s.ringIdx (s.secRing t).base := by
  obtain ⟨w, c, gen, refused⟩ | ⟨n, f, queued⟩ := secTake_cases s t
  · rw [refused, ringIdx_cmdTaken, ringIdx_cmdTaken_other _ _ (by omega), ringIdx_secRecord s ht _ _ _ _ _ (by omega),
      ringIdx_secRecord s ht _ _ _ _ _ (by omega)]
    exact ⟨rfl, rfl⟩
  · have memory : ((s.quotaPut 3 t n).setSec f).mem = s.mem :=
      part_of_except (State.quotaPut_same 8193 rfl _ _ _ _) .mem rfl
    rw [queued, ringIdx_cmdTaken, ringIdx_cmdTaken_other _ _ (by omega), ringIdx_of_mem memory, ringIdx_of_mem memory]
    exact ⟨rfl, rfl⟩

/-- One new descriptor is the only one taken. -/
theorem secTakes_one {s : State} {t : Nat} (ht : t < 64) (hh : ∀ h ∈ s.sec.held, h.key ≠ t)
    (h1 : s.cmdNew (s.secRing t) = 1) : State.secTakes t 256 s = s.secTake t := by
  obtain ⟨tail, head⟩ := secTake_indices s ht
  have ring : (s.secTake t).secRing t = s.secRing t :=
    secRing_of_rd fun _ hp _ ho hg => rd_secTake (sec_low ht hp ho) hg s t
  have free : ¬s.sec.held.any (·.key == t) = true := by
    simpa using hh
  have none : (s.secTake t).cmdNew (s.secRing t) = 0 := by
    rw [State.cmdNew, tail, head, cmdNew_one h1]
    omega
  rw [State.secTakes, if_neg (by rintro (same | held); · omega
                                 · exact free held), State.secTakes, if_pos (.inl (by rw [ring, none]))]

theorem secRelease_none {s : State} {t : Nat} (hh : ∀ h ∈ s.sec.held, h.key ≠ t) (n : Nat) :
    State.secRelease t (n + 1) s = s := by
  rw [State.secRelease, List.find?_eq_none.mpr (by simpa using hh)]

/-! ### The checks of a descriptor beside the fault bit of its ring -/

theorem secRfault_free {k : Nat} {g : Fld} (hg : g.lo + g.width ≤ 32) (hk : k < 64)
    (h : g.key < 0xD0100 ∨ 0xD0500 ≤ g.key) : (SEC_RFAULT k).free g = true :=
  free_of_key (show 1 ≤ 32 by decide) hg (by simp only [Fld.key, regKey, SEC_RFAULT] at h ⊢; omega)

theorem secRing_rfault (s : State) (k v : Nat) : (s.wr (SEC_RFAULT k) v).secRing k = s.secRing k := by
  have apart {o lo w : Nat} (ho : o + 4 ≤ 0x10C) (hg : lo + w ≤ 32) :
      (s.wr (SEC_RFAULT k) v).rd ⟨0x0D0, o + 16 * k, lo, w⟩ = s.rd ⟨0x0D0, o + 16 * k, lo, w⟩ := by
    have free : (SEC_RFAULT k).free ⟨0x0D0, o + 16 * k, lo, w⟩ = true :=
      free_of_off rfl (show 1 ≤ 32 by decide) hg (Or.inr (by simp only [SEC_RFAULT]; omega))
    exact rd_wr_free free s v
  have lo : (s.wr (SEC_RFAULT k) v).rd (SEC_RB_LO k) = s.rd (SEC_RB_LO k) := apart (by decide) (by decide)
  have hi : (s.wr (SEC_RFAULT k) v).rd (SEC_RB_HI k) = s.rd (SEC_RB_HI k) := apart (by decide) (by decide)
  have sl : (s.wr (SEC_RFAULT k) v).rd (SEC_RSL k) = s.rd (SEC_RSL k) := apart (by decide) (by decide)
  have cl : (s.wr (SEC_RFAULT k) v).rd (SEC_RCL k) = s.rd (SEC_RCL k) := apart (by decide) (by decide)
  unfold State.secRing
  rw [lo, hi, sl, cl]

/-- The checks on a descriptor read the memory, the windows and the slots, not the ring's fault bit. -/
theorem secCheck_rfault (s : State) {k : Nat} (hk : k < 64) (v w : Nat) :
    (s.wr (SEC_RFAULT k) v).secCheck k w = s.secCheck k w := by
  have rest {g : Fld} (hg : g.lo + g.width ≤ 32) (h : g.key < 0xD0100 ∨ 0xD0500 ≤ g.key) :
      (s.wr (SEC_RFAULT k) v).rd g = s.rd g := rd_wr_free (secRfault_free hg hk h) s v
  have may (write : Bool) (a n : Nat) :
      (s.wr (SEC_RFAULT k) v).tenantMay k write a n = s.tenantMay k write a n :=
    tenantMay_of_rd (fun f hf h => rest hf (by omega)) hk write a n
  have tenant : (s.wr (SEC_RFAULT k) v).tenant k = s.tenant k := by
    refine rest ?_ ?_
    · simp only [TNC_TST]
      omega
    · simp only [Fld.key, regKey, TNC_TST]
      omega
  have slot (j lo wd : Nat) (hw : lo + wd ≤ 32) :
      (s.wr (SEC_RFAULT k) v).rd ⟨0x0D0, 0x500 + 4 * j, lo, wd⟩ = s.rd ⟨0x0D0, 0x500 + 4 * j, lo, wd⟩ :=
    rest hw (.inr (by simp only [Fld.key, regKey]; omega))
  have own (j : Nat) : (s.wr (SEC_RFAULT k) v).slotOwn j = s.slotOwn j := slot j 10 6 (by decide)
  have type (j : Nat) : (s.wr (SEC_RFAULT k) v).slotType j = s.slotType j := slot j 0 3 (by decide)
  have gen (j : Nat) : (s.wr (SEC_RFAULT k) v).slotGen j = s.slotGen j := slot j 16 8 (by decide)
  have use (j : Nat) : (s.wr (SEC_RFAULT k) v).rd (SEC_S_USE j) = s.rd (SEC_S_USE j) := slot j 4 6 (by decide)
  have sealed' : (s.wr (SEC_RFAULT k) v).on TNC_SEALED = s.on TNC_SEALED := by
    rw [State.on, State.on, rest (by decide) (by decide)]
  have bytes (a n : Nat) : (s.wr (SEC_RFAULT k) v).bytes a n = s.bytes a n := by
    rw [State.bytes, State.bytes, part_of_except (State.wr_same 1 rfl s _ v) .mem rfl]
  have authority : (s.wr (SEC_RFAULT k) v).authorityLoad k w = s.authorityLoad k w := by
    rw [State.authorityLoad, State.authorityLoad, own, type]
  have reach : (s.wr (SEC_RFAULT k) v).secMay k w = s.secMay k w := by
    simp only [State.secMay, own, authority, may]
  have bad : (s.wr (SEC_RFAULT k) v).secBad w = s.secBad w := by
    simp only [State.secBad, type, use, bytes]
  simp only [State.secCheck, tenant, reach, authority, sealed', bad, gen]

/-! ### The poll -/

/-- A ring outside the windows, or with too many new descriptors, faults once. -/
theorem secRingPoll_faults {s : State} {k : Fin 64} (he : s.on SEC_EN = true) (hr : s.on (SEC_REN k.val) = true)
    (hl : s.level < 3) (hs : s.sec.stopped.contains k.val = false)
    (hbad : s.cmdRingMay k.val (s.secRing k.val) = false ∨ 2 ^ (s.secRing k.val).sl < s.cmdNew (s.secRing k.val))
    (hf : s.on (SEC_RFAULT k.val) = false) :
    Answers (.secRingPoll k) s fun t =>
      t.on (SEC_RFAULT k.val) = true ∧ bit (t.rd (IRQ_RAW 0x0D0)) 3 = true ∧ Logged s t 0x5007 k.val 0 ∧
      SameBut [.regs, .events] s t := by
  have command : exec (.secRingPoll k) s =
      .next (((s.wr (SEC_RFAULT k.val) 1).raise 0x0D0 3).log 0x5007 k.val 0) := by
    change execSecRingPoll k s = _
    unfold execSecRingPoll
    dsimp only
    rw [if_neg (by rw [he, hr, hs, decide_eq_false (by omega)]; decide), if_pos (by simpa using hbad),
      if_neg (by rw [hf]; decide)]
  have apart : (IRQ_RAW 0x0D0).free (SEC_RFAULT k.val) = true :=
    free_of_off rfl (show 32 ≤ 32 by decide) (show 0 + 1 ≤ 32 by decide)
      (.inl (by simp only [IRQ_RAW, SEC_RFAULT]; omega))
  refine ⟨_, command, ?_, ?_, ?_, sameBut_of_except ((State.log_same 257 rfl _ _ _ _).trans
    ((State.raise_same 257 rfl _ _ _).trans (State.wr_same 257 rfl _ _ _)))⟩
  · rw [on_log, State.raise, on_wr_free apart]
    exact on_wr_b2n rfl (show 0 < 1 by decide) _ true
  · rw [rd_log]
    exact bit_raise_same _ _ (by decide)
  · rfl

/-- A poll of a ring with one new descriptor takes it. -/
theorem secRingPoll_command {s : State} {k : Fin 64} (he : s.on SEC_EN = true) (hr : s.on (SEC_REN k.val) = true)
    (hl : s.level < 3) (hs : s.sec.stopped.contains k.val = false)
    (hm : s.cmdRingMay k.val (s.secRing k.val) = true) (h1 : s.cmdNew (s.secRing k.val) = 1)
    (hh : ∀ h ∈ s.sec.held, h.key ≠ k.val) :
    exec (.secRingPoll k) s = .next ((s.wr (SEC_RFAULT k.val) 0).secTake k.val) := by
  have ring := secRing_rfault s k.val 0
  have new : (s.wr (SEC_RFAULT k.val) 0).cmdNew (s.secRing k.val) = 1 :=
    (cmdNew_of_mem (part_of_except (State.wr_same 1 rfl _ _ _) .mem rfl) _).trans h1
  change execSecRingPoll k s = _
  unfold execSecRingPoll
  dsimp only
  rw [if_neg (by rw [he, hr, hs, decide_eq_false (by omega)]; decide), h1, hm,
    if_neg (by simp), secRelease_none (s := s.wr (SEC_RFAULT k.val) 0) hh 255,
    secTakes_one (s := s.wr (SEC_RFAULT k.val) 0) k.isLt hh (by rw [ring]; exact new)]

/-- The descriptor taken is admitted within its quota. -/
theorem secTake_admits {s : State} {t : Nat} (hc : s.secCheck t (s.cmdNext (s.secRing t)) = none)
    (hq : (s.takeQuota 3 t (max 1 (ceilDiv (sdIlen (s.cmdNext (s.secRing t))) 8192))).isSome = true) :
    (s.secTake t).sec.items = s.sec.items ++ [⟨t, s.rd (TNC_CLASS t), BitVec.ofNat 512 (s.cmdNext (s.secRing t)),
      max 1 (ceilDiv (sdIlen (s.cmdNext (s.secRing t))) 8192), s.periodOf 3, stampNat s.stamp⟩] := by
  obtain ⟨u, taken⟩ := Option.isSome_iff_exists.mp hq
  have sec : u.sec = s.sec := by
    unfold State.takeQuota at taken
    split at taken
    · exact absurd taken (by simp)
    · obtain rfl := Option.some.inj taken
      exact part_of_except (State.quotaPut_same 8193 rfl _ _ _ _) .sec rfl
  unfold State.secTake
  dsimp only
  rw [hc]
  dsimp only
  rw [taken]
  change u.sec.items ++ _ = _
  rw [sec]

/-- The descriptor that fails a check leaves its record in the ring. -/
theorem secTake_refuses {s : State} {t : Nat} (ht : t < 64) {c : Status}
    (hc : s.secCheck t (s.cmdNext (s.secRing t)) = some c) (hs : s.sec.stopped.contains t = false)
    (hh : ∀ h ∈ s.sec.held, h.key ≠ t) (hr : s.cmdRoom (s.secRing t) = true) :
    (s.secTake t).sec = s.sec ∧
    (s.secTake t).ringIdx ((s.secRing t).base + 0x08) = (s.ringIdx ((s.secRing t).base + 0x08) + 1) % 65536 ∧
    (s.secTake t).bytes ((s.secRing t).rec' (s.ringIdx ((s.secRing t).base + 0x08))) 32 =
      leBytes 32 (secRecordOf s (s.cmdNext (s.secRing t)) c false
        (s.slotGen (sdSlot (s.cmdNext (s.secRing t)))) 0) := by
  generalize hw : s.cmdNext (s.secRing t) = w at hc ⊢
  have word : (BitVec.ofNat 512 w).toNat = w := by
    have small : w < 256 ^ 64 := by
      have small := leNat_lt (s.bytes ((s.secRing t).desc (s.ringIdx ((s.secRing t).base + 0x04))) 64)
      rw [State.bytes, memBytes_length] at small
      rw [← hw]
      exact small
    rw [BitVec.toNat_ofNat, Nat.mod_eq_of_lt (by omega)]
  have taken : s.secTake t = ((s.outcome t resSec c (sdItem w)).cmdPut (s.secRing t)
      (secRecordOf s w c false (s.slotGen (sdSlot w)) 0)).cmdTaken (s.secRing t) := by
    unfold State.secTake
    dsimp only
    rw [hw, hc]
    dsimp only
    rw [State.secRefuse, word, secRecord_room (secRing_outcome s ht _ _ _ _) false _ 0 hs hh hr]
  have memory : (s.outcome t resSec c (sdItem w)).mem = s.mem :=
    part_of_except (State.outcome_same 8193 rfl _ _ _ _ _) .mem rfl
  have index : (s.outcome t resSec c (sdItem w)).ringIdx ((s.secRing t).base + 0x08) =
      s.ringIdx ((s.secRing t).base + 0x08) := ringIdx_of_mem memory _
  obtain ⟨record, next⟩ := cmdPut_writes (s.outcome t resSec c (sdItem w)) (s.secRing t)
    (secRecordOf s w c false (s.slotGen (sdSlot w)) 0)
  rw [index] at record next
  rw [taken]
  refine ⟨part_of_except ((State.cmdTaken_same 34359746561 rfl _ _).trans
    ((State.cmdPut_same 34359746561 rfl _ _ _).trans
    (State.outcome_same 34359746561 rfl _ _ _ _ _))) .sec rfl, ?_, ?_⟩
  · rw [ringIdx_cmdTaken_other _ _ (.inr (by omega))]
    exact next
  · rw [bytes_cmdTaken _ _ (.inr (by rw [CmdRing.rec']; omega))]
    exact record

set_option autoImplicit false

/-! ### The start of an operation -/

/-- What the start of an operation leaves as it was for the operation's own computation. -/
structure SecKept (s v : State) : Prop where
  mem : v.mem = s.mem
  free : v.free = s.free
  ops : v.sec.ops = s.sec.ops
  mats : v.sec.mats = s.sec.mats
  ctf : v.ctf = s.ctf
  rd : ∀ g : Fld, g.lo + g.width ≤ 32 → g.key < 0x5000 ∨ 0x6000 ≤ g.key → v.rd g = s.rd g

namespace SecKept
variable {s v : State} (h : SecKept s v)
include h

theorem slot (k lo wd : Nat) (hw : lo + wd ≤ 32) :
    v.rd ⟨0x0D0, 0x500 + 4 * k, lo, wd⟩ = s.rd ⟨0x0D0, 0x500 + 4 * k, lo, wd⟩ :=
  h.rd _ hw (.inr (by simp only [Fld.key, regKey]; omega))

theorem slotOwn (k : Nat) : v.slotOwn k = s.slotOwn k := h.slot k 10 6 (by decide)

theorem slotType (k : Nat) : v.slotType k = s.slotType k := h.slot k 0 3 (by decide)

theorem slotGen (k : Nat) : v.slotGen k = s.slotGen k := h.slot k 16 8 (by decide)

theorem slotMat (k : Nat) : v.slotMat k = s.slotMat k := by
  rw [State.slotMat, State.slotMat, h.mats]

theorem bytes (a n : Nat) : v.bytes a n = s.bytes a n := by
  rw [State.bytes, State.bytes, h.mem]

theorem secInput (w : Nat) : v.secInput w = s.secInput w := h.bytes _ _

theorem itemLate (x : RingItem) : v.itemLate x = s.itemLate x := by
  rw [State.itemLate, State.itemLate, State.stamp, State.stamp, h.ctf]

theorem okOr : v.okOr = s.okOr := by
  have state : v.ctfSt = s.ctfSt := h.rd _ (by decide) (by decide)
  rw [State.okOr, State.okOr, State.estimated, State.estimated, state]

theorem secStartCheck (x : RingItem) : v.secStartCheck x = s.secStartCheck x := by
  have use (k : Nat) : v.rd (SEC_S_USE k) = s.rd (SEC_S_USE k) := h.slot k 4 6 (by decide)
  have err : v.on SEC_RBGERR = s.on SEC_RBGERR := by
    rw [State.on, State.on, h.rd SEC_RBGERR (by decide) (by decide)]
  have authority (t w : Nat) : v.authorityLoad t w = s.authorityLoad t w := by
    rw [State.authorityLoad, State.authorityLoad, h.slotOwn, h.slotType]
  unfold State.secStartCheck
  dsimp only
  rw [h.slotOwn, h.slotOwn, h.slotType, h.slotGen, use, err, authority]

end SecKept

/-- The item taken off the queue and its turn shown, nothing else is changed. -/
theorem secKept_drop (s : State) (x : RingItem) :
    SecKept s ((s.secDrop x).serveTurn 3 x.cls x.tc) ∧
    ((s.secDrop x).serveTurn 3 x.cls x.tc).sec.items = s.sec.items.erase x := by
  have same : ((s.secDrop x).serveTurn 3 x.cls x.tc).except 268443649 = s.except 268443649 :=
    (State.serveTurn_same 268443649 rfl _ _ _ _).trans (State.secDrop_same 268443649 rfl _ _)
  have sec : ((s.secDrop x).serveTurn 3 x.cls x.tc).sec = (s.secDrop x).sec :=
    part_of_except (State.serveTurn_same 8193 rfl _ _ _ _) .sec rfl
  refine ⟨⟨part_of_except same .mem rfl, part_of_except same .free rfl, by rw [sec]; rfl, by rw [sec]; rfl,
    part_of_except same .ctf rfl, fun g hg hk => ?_⟩, by rw [sec]; rfl⟩
  rw [rd_serveTurn hg hk _ _ _ _ (by decide)]
  exact rd_setSec _ _ _

/-- What a started operation computes: its output, its result, the rewrite it will make, and the state with the random
bits drawn. -/
abbrev SecRun := State → Nat → List Byte → List Byte × Bool × Option KeyPut × State

/-- A computation changes nothing but the place in the free values. -/
def SecRun.draws (f : SecRun) : Prop := ∀ s w key, (f s w key).2.2.2.except 2048 = s.except 2048

/-- A started operation leaves the queue and runs on its unit with what its computation gave. -/
theorem secStart_runs {s : State} {op u : Nat} {x : RingItem} {f : SecRun} (h : SecReady s op u x) (hf : f.draws) :
    ∃ v, SecKept s v ∧
      SecRuns s (s.secStart op f) op u x (f v x.word.toNat (s.slotMat (sdSlot x.word.toNat))).1
        (f v x.word.toNat (s.slotMat (sdSlot x.word.toNat))).2.1
        (f v x.word.toNat (s.slotMat (sdSlot x.word.toNat))).2.2.1 ∧
      (s.secStart op f).free = (f v x.word.toNat (s.slotMat (sdSlot x.word.toNat))).2.2.2.free := by
  obtain ⟨next, check⟩ := h
  obtain ⟨kept, items⟩ := secKept_drop s x
  refine ⟨_, kept, ?_⟩
  unfold State.secStart
  rw [next]
  dsimp only
  rw [kept.secStartCheck, check]
  dsimp only
  rw [kept.slotMat]
  generalize (s.secDrop x).serveTurn 3 x.cls x.tc = v at kept items ⊢
  have drawn := hf v x.word.toNat (s.slotMat (sdSlot x.word.toNat))
  generalize f v x.word.toNat (s.slotMat (sdSlot x.word.toNat)) = r at drawn ⊢
  have sec : r.2.2.2.sec = v.sec := part_of_except drawn .sec rfl
  have mem : r.2.2.2.mem = v.mem := part_of_except drawn .mem rfl
  generalize hy : (r.2.2.2.setSec fun y => { y with ops := y.ops ++ [(⟨x, op, u, sdSlot x.word.toNat,
    v.slotGen (sdSlot x.word.toNat), secNames op && op != 0x10 && op != 0x11 && op != 0x12, r.1,
    sdOut x.word.toNat, r.2.1, firstOf (if v.itemLate x then .delayed else .ok) v.okOr, r.2.2.1⟩ : SecOp)] }) = y
  have shown : ∀ t : State, t.except 1 = y.except 1 →
      SecRuns s t op u x r.1 r.2.1 r.2.2.1 ∧ t.free = r.2.2.2.free := by
    intro t same
    have tsec : t.sec = y.sec := part_of_except same .sec rfl
    have tmem : t.mem = y.mem := part_of_except same .mem rfl
    refine ⟨⟨?_, ?_, ?_, ?_⟩, (part_of_except same .free rfl).trans (by rw [← hy]; rfl)⟩
    · rw [tsec, ← hy]
      exact (congrArg SecState.items sec).trans items
    · rw [tsec, ← hy]
      change r.2.2.2.sec.ops ++ _ = _
      rw [sec, kept.ops, kept.slotGen, kept.itemLate, kept.okOr]
    · rw [tsec, ← hy]
      exact (congrArg SecState.mats sec).trans kept.mats
    · rw [tmem, ← hy]
      exact mem.trans kept.mem
  split
  · exact shown _ ((State.slotShow_same 1 rfl _ _).trans (State.unitShow_same 1 rfl _))
  · exact shown _ (State.unitShow_same 1 rfl _)

/-- An operation whose computation draws no random bits. -/
theorem secStart_runs_as {s : State} {op u : Nat} {x : RingItem} {f : SecRun} (h : SecReady s op u x) (hf : f.draws)
    {out : List Byte} {res : Bool} {put : Option KeyPut}
    (hr : ∀ v, SecKept s v → (f v x.word.toNat (s.slotMat (sdSlot x.word.toNat))).1 = out ∧
      (f v x.word.toNat (s.slotMat (sdSlot x.word.toNat))).2.1 = res ∧
      (f v x.word.toNat (s.slotMat (sdSlot x.word.toNat))).2.2.1 = put) :
    SecRuns s (s.secStart op f) op u x out res put := by
  obtain ⟨v, kept, runs, -⟩ := secStart_runs h hf
  obtain ⟨rfl, rfl, rfl⟩ := hr v kept
  exact runs

/-! ### The random bits -/

theorem draw_congr {s v : State} (h : v.free = s.free) (n : Nat) : (v.draw n).1 = (s.draw n).1 := by
  rw [State.draw, State.draw, h]

theorem randomBytes_congr {s v : State} (h : v.free = s.free) (n : Nat) :
    (v.randomBytes n).1 = (s.randomBytes n).1 := by
  induction n generalizing s v with
  | zero => rfl
  | succ n ih =>
    have next : (v.draw 8).2.free = (s.draw 8).2.free := by rw [draw_free, draw_free, h]
    change BitVec.ofNat 8 (v.draw 8).1 :: ((v.draw 8).2.randomBytes n).1 =
      BitVec.ofNat 8 (s.draw 8).1 :: ((s.draw 8).2.randomBytes n).1
    rw [draw_congr h, ih next]

theorem randomBytes_free (s : State) (n : Nat) : (s.randomBytes n).2.free = s.free + n := by
  induction n generalizing s with
  | zero => rfl
  | succ n ih =>
    change ((s.draw 8).2.randomBytes n).2.free = _
    rw [ih, draw_free]
    omega

theorem randomBytes_length (s : State) (n : Nat) : (s.randomBytes n).1.length = n := by
  induction n generalizing s with
  | zero => rfl
  | succ n ih => exact congrArg (· + 1) (ih _)

theorem randomScalar_congr {s v : State} (h : v.free = s.free) : v.randomScalar.1 = s.randomScalar.1 := by
  change 1 + (v.draw 256).1 % (ecN - 1) = 1 + (s.draw 256).1 % (ecN - 1)
  rw [draw_congr h]

theorem signWith_congr {s v : State} (h : v.free = s.free) (d : Nat) (digest : List Byte) (n : Nat) :
    (v.signWith d digest n).1 = (s.signWith d digest n).1 := by
  induction n generalizing s v with
  | zero => rfl
  | succ n ih =>
    have next : v.randomScalar.2.free = s.randomScalar.2.free := by
      change v.free + 1 = s.free + 1
      rw [h]
    rw [State.signWith, State.signWith, randomScalar_congr h]
    split
    · rfl
    · exact ih next

set_option autoImplicit false

theorem beBytes_length (k n : Nat) : (beBytes k n).length = k := by
  rw [beBytes, List.length_reverse, leBytes_length]

theorem beNat_beBytes {k n : Nat} (h : n < 256 ^ k) : beNat (beBytes k n) = n := by
  rw [beNat, beBytes, List.reverse_reverse, leNat_leBytes, Nat.mod_eq_of_lt h]

theorem memBytes_add (m : List Host.Cell) (a n k : Nat) :
    memBytes m a (n + k) = memBytes m a n ++ memBytes m (a + n) k := by
  induction n generalizing a with
  | zero => rw [Nat.zero_add]; rfl
  | succ n ih =>
    rw [Nat.succ_add, memBytes, memBytes, ih, List.cons_append, Nat.add_right_comm, Nat.add_assoc a n 1]

/-- A random scalar lies between 1 and n - 1. -/
theorem randomScalar_range (s : State) : 1 ≤ s.randomScalar.1 ∧ s.randomScalar.1 < ecN := by
  change 1 ≤ 1 + (s.draw 256).1 % (ecN - 1) ∧ 1 + (s.draw 256).1 % (ecN - 1) < ecN
  generalize (s.draw 256).1 = d
  have small : d % (ecN - 1) < ecN - 1 := Nat.mod_lt _ (by decide)
  have positive : 0 < ecN := by decide
  omega

section
variable {s : State} {u : Nat} {x : RingItem} {w : Nat} {key : List Byte} (hw : w = x.word.toNat)
  (hkey : key = s.slotMat (sdSlot w))
include hw hkey

theorem sha256_runs (h : SecReady s 0x01 u x) :
    Answers .sha256 s fun t => SecRuns s t 0x01 u x (sha256 (s.secInput w)) true none := by
  subst hw hkey
  exact ⟨_, rfl, secStart_runs_as h (fun _ _ _ => rfl) fun v kept => ⟨by rw [kept.secInput], rfl, rfl⟩⟩

theorem hmac_runs (h : SecReady s 0x02 u x) :
    Answers .hmac s fun t => SecRuns s t 0x02 u x (hmac key (s.secInput w)) true none := by
  subst hw hkey
  exact ⟨_, rfl, secStart_runs_as h (fun _ _ _ => rfl) fun v kept => ⟨by rw [kept.secInput], rfl, rfl⟩⟩

theorem ccmEnc_runs (h : SecReady s 0x03 u x) :
    Answers .ccmEnc s fun t => SecRuns s t 0x03 u x
      (ccmSeal key (s.secNonce w) (s.secAad w) (s.secInput w) (2 * sdP1 w)) true none := by
  subst hw hkey
  refine ⟨_, rfl, secStart_runs_as h (fun _ _ _ => rfl) fun v kept => ⟨?_, rfl, rfl⟩⟩
  simp only [State.secNonce, State.secAad, State.secInput, kept.bytes]

theorem ccmDec_runs (h : SecReady s 0x04 u x) :
    Answers .ccmDec s fun t =>
      (∀ m, ccmOpen key (s.secNonce w) (s.secAad w) (s.secInput w) (2 * sdP1 w) = some m →
        SecRuns s t 0x04 u x m true none) ∧
      (ccmOpen key (s.secNonce w) (s.secAad w) (s.secInput w) (2 * sdP1 w) = none →
        SecRuns s t 0x04 u x (List.replicate (sdIlen w - 2 * sdP1 w) 0) false none) := by
  subst hw hkey
  have drawn : SecRun.draws fun s w key =>
      match ccmOpen key (s.secNonce w) (s.secAad w) (s.secInput w) (2 * sdP1 w) with
      | some m => (m, true, none, s)
      | none => (List.replicate (sdIlen w - 2 * sdP1 w) 0, false, none, s) := by
    intro s w key
    dsimp only
    split <;> rfl
  refine ⟨_, rfl, fun m opened => secStart_runs_as h drawn fun v kept => ?_,
    fun refused => secStart_runs_as h drawn fun v kept => ?_⟩
  · have same : ccmOpen (s.slotMat (sdSlot x.word.toNat)) (v.secNonce x.word.toNat) (v.secAad x.word.toNat)
        (v.secInput x.word.toNat) (2 * sdP1 x.word.toNat) = some m := by
      rw [← opened]
      simp only [State.secNonce, State.secAad, State.secInput, kept.bytes]
    rw [same]
    exact ⟨rfl, rfl, rfl⟩
  · have same : ccmOpen (s.slotMat (sdSlot x.word.toNat)) (v.secNonce x.word.toNat) (v.secAad x.word.toNat)
        (v.secInput x.word.toNat) (2 * sdP1 x.word.toNat) = none := by
      rw [← refused]
      simp only [State.secNonce, State.secAad, State.secInput, kept.bytes]
    rw [same]
    exact ⟨rfl, rfl, rfl⟩

theorem sign_runs (h : SecReady s 0x05 u x) :
    Answers .sign s fun t => SecRuns s t 0x05 u x (s.signWith (beNat key) (s.secInput w) 8).1 true none := by
  subst hw hkey
  refine ⟨_, rfl, secStart_runs_as h (fun v w key => State.signWith_same 2048 rfl _ _ _ _) fun v kept => ⟨?_, rfl, rfl⟩⟩
  rw [kept.secInput, signWith_congr kept.free]

theorem verify_runs (h : SecReady s 0x06 u x) (ha : sdAlen w = 64) :
    Answers .verify s fun t => SecRuns s t 0x06 u x [] (ecdsaVerify
      (if key.length = 32 then ecPublic (beNat key) else (beNat (key.take 32), beNat (key.drop 32)))
      (s.secInput w) (beNat (s.bytes (sdAux w) 32)) (beNat (s.bytes (sdAux w + 32) 32))) none := by
  subst hw hkey
  refine ⟨_, rfl, secStart_runs_as h (fun _ _ _ => rfl) fun v kept => ⟨rfl, ?_, rfl⟩⟩
  have whole : padTo 64 (s.bytes (sdAux x.word.toNat) 64) =
      s.bytes (sdAux x.word.toNat) 32 ++ s.bytes (sdAux x.word.toNat + 32) 32 := by
    have full : (s.bytes (sdAux x.word.toNat) 64).length = 64 := memBytes_length _ _ _
    rw [padTo, List.take_left' full]
    exact memBytes_add s.mem _ 32 32
  have left : (s.bytes (sdAux x.word.toNat) 32).length = 32 := memBytes_length _ _ _
  dsimp only
  rw [kept.secInput, kept.bytes, ha, whole, List.take_left' left, List.drop_left' left]

theorem ecdh_runs (h : SecReady s 0x07 u x) :
    Answers .ecdh s fun t => SecRuns s t 0x07 u x [] true (some ⟨sdDst w, sdP0 w, sdUse w, sdPers w,
      s.slotOwn (sdDst w), hkdf ((s.bytes (sdAux w) (sdAlen w)).take 32)
        (beBytes 32 ((ecMul 256 (beNat key) (some (beNat ((s.secInput w).take 32),
          beNat ((s.secInput w).drop 32)))).getD (0, 0)).1)
        ((s.bytes (sdAux w) (sdAlen w)).drop 32) (typeLen (sdP0 w))⟩) := by
  subst hw hkey
  refine ⟨_, rfl, secStart_runs_as h (fun _ _ _ => rfl) fun v kept => ⟨rfl, rfl, ?_⟩⟩
  dsimp only
  rw [keyPut, kept.secInput, kept.bytes, kept.slotOwn]

theorem random_runs (h : SecReady s 0x08 u x) :
    Answers .random s fun t =>
      SecRuns s t 0x08 u x (s.randomBytes (sdIlen w)).1 true none ∧ t.free = s.free + sdIlen w := by
  subst hw hkey
  obtain ⟨v, kept, runs, free⟩ := secStart_runs (f := fun s w _ =>
    let r := s.randomBytes (sdIlen w)
    (r.1, true, none, r.2)) h fun v w key => State.randomBytes_same 2048 rfl _ _
  dsimp only at runs free
  rw [randomBytes_congr kept.free] at runs
  rw [randomBytes_free, kept.free] at free
  exact ⟨_, rfl, runs, free⟩

theorem load_runs (h : SecReady s 0x10 u x) :
    Answers .load s fun t => SecRuns s t 0x10 u x [] true
      (some ⟨sdSlot w, sdP0 w, sdUse w, sdPers w, s.slotOwn (sdSlot w), s.secInput w⟩) := by
  subst hw hkey
  refine ⟨_, rfl, secStart_runs_as h (fun _ _ _ => rfl) fun v kept => ⟨rfl, rfl, ?_⟩⟩
  rw [keyPut, kept.secInput, kept.slotOwn]

theorem generate_runs (h : SecReady s 0x11 u x) :
    Answers .generate s fun t => ∃ m, (sdP0 w = 4 → 1 ≤ beNat m ∧ beNat m < ecN) ∧
      m.length = (if sdP0 w = 4 then 32 else typeLen (sdP0 w)) ∧
      SecRuns s t 0x11 u x [] true (some ⟨sdSlot w, sdP0 w, sdUse w, sdPers w, s.slotOwn (sdSlot w), m⟩) := by
  subst hw hkey
  have drawn : SecRun.draws fun s w _ =>
      if sdP0 w = 4 then
        ([], true, keyPut w (sdSlot w) (s.slotOwn (sdSlot w)) (beBytes 32 s.randomScalar.1), s.randomScalar.2)
      else
        ([], true, keyPut w (sdSlot w) (s.slotOwn (sdSlot w)) (s.randomBytes (typeLen (sdP0 w))).1,
          (s.randomBytes (typeLen (sdP0 w))).2) := by
    intro v w key
    dsimp only
    split
    · exact State.randomScalar_same 2048 rfl _
    · exact State.randomBytes_same 2048 rfl _ _
  refine ⟨_, rfl, ?_⟩
  by_cases scalar : sdP0 x.word.toNat = 4
  · obtain ⟨low, high⟩ := randomScalar_range s
    have back : beNat (beBytes 32 s.randomScalar.1) = s.randomScalar.1 :=
      beNat_beBytes (Nat.lt_trans high (by decide))
    refine ⟨beBytes 32 s.randomScalar.1, fun _ => by rw [back]; exact ⟨low, high⟩,
      by rw [beBytes_length, if_pos scalar], secStart_runs_as h drawn fun v kept => ?_⟩
    rw [if_pos scalar, keyPut, kept.slotOwn, randomScalar_congr kept.free]
    exact ⟨rfl, rfl, rfl⟩
  · refine ⟨(s.randomBytes (typeLen (sdP0 x.word.toNat))).1, fun h => absurd h scalar,
      by rw [randomBytes_length, if_neg scalar], secStart_runs_as h drawn fun v kept => ?_⟩
    rw [if_neg scalar, keyPut, kept.slotOwn, randomBytes_congr kept.free]
    exact ⟨rfl, rfl, rfl⟩

theorem pubkey_runs (h : SecReady s 0x13 u x) :
    Answers .pubkey s fun t => SecRuns s t 0x13 u x (pointBytes (ecPublic (beNat key))) true none := by
  subst hw hkey
  exact ⟨_, rfl, secStart_runs_as h (fun _ _ _ => rfl) fun v kept => ⟨rfl, rfl, rfl⟩⟩

end

/-- A poll of a ring with one new descriptor admits its item, or answers it with a record. -/
theorem secRingPoll_takes {s : State} {k : Fin 64} (he : s.on SEC_EN = true) (hr : s.on (SEC_REN k.val) = true)
    (hl : s.level < 3) (hs : s.sec.stopped.contains k.val = false)
    (hm : s.cmdRingMay k.val (s.secRing k.val) = true) (h1 : s.cmdNew (s.secRing k.val) = 1)
    (hh : ∀ h ∈ s.sec.held, h.key ≠ k.val) :
    Answers (.secRingPoll k) s fun t =>
      t.ringIdx ((s.secRing k.val).base + 0x04) = s.ringIdx (s.secRing k.val).base ∧
      t.on (SEC_RFAULT k.val) = false ∧
      (s.secCheck k.val (s.cmdNext (s.secRing k.val)) = none →
        (s.takeQuota 3 k.val (max 1 (ceilDiv (sdIlen (s.cmdNext (s.secRing k.val))) 8192))).isSome = true →
        t.sec.items = s.sec.items ++ [⟨k.val, s.rd (TNC_CLASS k.val),
          BitVec.ofNat 512 (s.cmdNext (s.secRing k.val)),
          max 1 (ceilDiv (sdIlen (s.cmdNext (s.secRing k.val))) 8192), s.periodOf 3, stampNat s.stamp⟩]) ∧
      (∀ c, s.secCheck k.val (s.cmdNext (s.secRing k.val)) = some c → s.cmdRoom (s.secRing k.val) = true →
        t.sec = s.sec ∧
        t.ringIdx ((s.secRing k.val).base + 0x08) = (s.ringIdx ((s.secRing k.val).base + 0x08) + 1) % 65536 ∧
        t.bytes ((s.secRing k.val).rec' (s.ringIdx ((s.secRing k.val).base + 0x08))) 32 =
          leBytes 32 (secRecordOf s (s.cmdNext (s.secRing k.val)) c false
            (s.slotGen (sdSlot (s.cmdNext (s.secRing k.val)))) 0)) := by
  have ring := secRing_rfault s k.val 0
  have same : (s.wr (SEC_RFAULT k.val) 0).except 1 = s.except 1 := State.wr_same 1 rfl _ _ _
  have memory : (s.wr (SEC_RFAULT k.val) 0).mem = s.mem := part_of_except same .mem rfl
  have next : (s.wr (SEC_RFAULT k.val) 0).cmdNext (s.secRing k.val) = s.cmdNext (s.secRing k.val) :=
    cmdNext_of_mem memory _
  have low : (SEC_RFAULT k.val).key + 4 ≤ 0x300000 := by
    simp only [Fld.key, regKey, SEC_RFAULT]
    omega
  refine ⟨_, secRingPoll_command he hr hl hs hm h1 hh, ?_, ?_, fun hc hq => ?_, fun c hc hroom => ?_⟩
  · obtain ⟨tail, -⟩ := secTake_indices (s.wr (SEC_RFAULT k.val) 0) k.isLt
    rw [ring, ringIdx_of_mem memory] at tail
    exact tail.trans (cmdNew_one h1)
  · rw [State.on, rd_secTake low (show 0 + 1 ≤ 32 by decide), rd_wr_lt rfl (show 0 < 2 ^ 1 by decide)]
    rfl
  · have admits := secTake_admits (s := s.wr (SEC_RFAULT k.val) 0) (t := k.val)
    have cls : (s.wr (SEC_RFAULT k.val) 0).rd (TNC_CLASS k.val) = s.rd (TNC_CLASS k.val) := by
      refine rd_wr_free (secRfault_free ?_ k.isLt ?_) s 0
      · simp only [TNC_CLASS]
        omega
      · simp only [Fld.key, regKey, TNC_CLASS]
        omega
    have now : (s.wr (SEC_RFAULT k.val) 0).stamp = s.stamp := by
      rw [State.stamp, State.stamp, part_of_except same .ctf rfl]
    have quota (n : Nat) : ((s.wr (SEC_RFAULT k.val) 0).takeQuota 3 k.val n).isSome =
        (s.takeQuota 3 k.val n).isSome := by
      unfold State.takeQuota
      rw [State.quotaLeft, part_of_except same .tnc rfl, ← State.quotaLeft]
      split <;> rfl
    rw [ring, next, secCheck_rfault s k.isLt, cls, now, quota] at admits
    exact admits hc hq
  · have refuses := secTake_refuses (s := s.wr (SEC_RFAULT k.val) 0) (t := k.val) k.isLt (c := c)
    rw [ring, next, secCheck_rfault s k.isLt, ringIdx_of_mem memory, cmdRoom_of_mem memory] at refuses
    obtain ⟨sec, index, record⟩ := refuses hc hs hh hroom
    refine ⟨sec, index, ?_⟩
    have gen (j : Nat) : (s.wr (SEC_RFAULT k.val) 0).slotGen j = s.slotGen j := by
      refine rd_wr_free (secRfault_free (show 16 + 8 ≤ 32 by decide) k.isLt (.inr ?_)) s 0
      simp only [Fld.key, regKey, SEC_S_GEN]
      omega
    have now : (s.wr (SEC_RFAULT k.val) 0).stamp = s.stamp := by
      rw [State.stamp, State.stamp, part_of_except same .ctf rfl]
    rw [record, gen, secRecordOf, now, secRecordOf]

/-- Settles O44: a poll faults, admits or refuses the one new descriptor, and every operation runs with the output of
its algorithm on the bytes of its input. -/
theorem securityStartsComplete : Obligations.SecurityStartsComplete := by
  unfold Obligations.SecurityStartsComplete
  refine ⟨?_, fun s u x w key hw hkey => ⟨sha256_runs hw hkey, hmac_runs hw hkey, ccmEnc_runs hw hkey,
    ccmDec_runs hw hkey, sign_runs hw hkey, verify_runs hw hkey, ecdh_runs hw hkey, random_runs hw hkey,
    load_runs hw hkey, generate_runs hw hkey, pubkey_runs hw hkey⟩⟩
  rintro s k r he hr hl hs rfl
  exact ⟨fun hbad hf => secRingPoll_faults he hr hl hs hbad hf,
    fun hm h1 hh => secRingPoll_takes he hr hl hs hm h1 hh⟩

end Sys2Proof.Machine

/-! ## Completions and erases of the security engine, its random bits and the OTP commands -/

namespace Sys2Proof.Machine

open Reg

set_option autoImplicit false

/-! ### The completion of an operation -/

/-- A code that no counter of the tenant and no notice stands for. -/
def unseen (c : Status) : Bool :=
  match c with
  | .delayed | .refusedQuota | .refusedPriority | .skipped => false
  | _ => true

theorem outcome_unseen {c : Status} (h : unseen c = true) (s : State) (t r item : Nat) : s.outcome t r c item = s := by
  cases c with
  | delayed | refusedQuota | refusedPriority | skipped => exact absurd h (by decide)
  | _ => rfl

theorem setSec_held (s : State) (l : List HeldWord) :
    ∃ l', (s.setSec fun x => { x with held := x.held ++ l }).sec = { s.sec with held := l' } := ⟨_, rfl⟩

/-- A record changes only what is held back of the engine's state. -/
theorem secRecord_sec (s : State) (t w : Nat) (c : Status) (res : Bool) (gen olen : Nat) :
    ∃ l, (s.secRecord t w c res gen olen).sec = { s.sec with held := l } := by
  have sec : (s.outcome t resSec c (sdItem w)).sec = s.sec :=
    part_of_except (State.outcome_same 8193 rfl _ _ _ _ _) .sec rfl
  unfold State.secRecord
  dsimp only
  split
  · exact ⟨s.sec.held, sec⟩
  · split
    · obtain ⟨l, held⟩ := setSec_held (s.outcome t resSec c (sdItem w)) _
      exact ⟨l, held.trans (by rw [sec])⟩
    · exact ⟨s.sec.held, (part_of_except (State.cmdPut_same 34359738368 rfl _ _ _) .sec rfl).trans sec⟩

theorem secRecord_events {c : Status} (h : unseen c = true) (s : State) (t w : Nat) (res : Bool) (gen olen : Nat) :
    (s.secRecord t w c res gen olen).events = s.events := by
  unfold State.secRecord
  dsimp only
  rw [outcome_unseen h]
  split
  · rfl
  · split
    · rfl
    · exact part_of_except (State.cmdPut_same 34359738368 rfl _ _ _) .events rfl

theorem settleErases_none {s : State} (h : s.sec.erases = []) : s.settleErases = s := by
  unfold State.settleErases
  rw [h]
  rfl

theorem settleErases_held {s : State} {e : SecErase} (h : s.sec.erases = [e]) (ho : s.sec.ops.any e.heldBy = true) :
    s.settleErases = s := by
  unfold State.settleErases
  rw [h, List.filter_cons_of_neg (by rw [ho]; decide)]
  rfl

/-- An erase whose contents no operation holds completes. -/
def State.eraseEnd (s : State) (e : SecErase) : State :=
  let g := s.slotGen e.slot
  let s := s.setSec fun x => { x with erases := x.erases.filter (· != e) }
  let s := (s.slotShow e.slot).raise 0x0D0 1
  let s := s.log 0x5012 e.owner (e.slot + g * 2 ^ 8 + e.aborted * 2 ^ 16)
  let s := match e.item with
    | some x => (s.count SEC_OPN).secRecord x.tc x.word.toNat
        (firstOf (if s.itemLate x then .delayed else .ok) s.okOr) true g 0
    | none => s
  if e.command then s.grantEnd 0 else s

theorem settleErases_one {s : State} {e : SecErase} (h : s.sec.erases = [e])
    (ho : s.sec.ops.any e.heldBy = false) : s.settleErases = s.eraseEnd e := by
  unfold State.settleErases
  rw [h, List.filter_cons_of_pos (by rw [ho]; rfl)]
  rfl

/-- The end of an erase touches none of the operations. -/
theorem eraseEnd_sec {s : State} {e : SecErase} (h : s.sec.erases = [e]) :
    (s.eraseEnd e).sec.ops = s.sec.ops ∧ (s.eraseEnd e).sec.erases = [] ∧
    (s.eraseEnd e).sec.mats = s.sec.mats ∧ (s.eraseEnd e).sec.otp = s.sec.otp ∧
    (s.eraseEnd e).sec.items = s.sec.items := by
  generalize hu : (((s.setSec fun x =>
    { x with erases := x.erases.filter (· != e) }).slotShow e.slot).raise 0x0D0 1).log 0x5012 e.owner
      (e.slot + s.slotGen e.slot * 2 ^ 8 + e.aborted * 2 ^ 16) = u
  have usec : u.sec = { s.sec with erases := s.sec.erases.filter (· != e) } := by
    rw [← hu]
    exact part_of_except ((State.log_same 257 rfl _ _ _ _).trans ((State.raise_same 257 rfl _ _ _).trans
      (State.slotShow_same 257 rfl _ _))) .sec rfl
  have gone : u.sec.erases = [] := by
    rw [usec, h]
    simp
  have ended : ∀ v : State, (∃ l, v.sec = { u.sec with held := l }) →
      (if e.command then v.grantEnd 0 else v).sec.ops = s.sec.ops ∧
      (if e.command then v.grantEnd 0 else v).sec.erases = [] ∧
      (if e.command then v.grantEnd 0 else v).sec.mats = s.sec.mats ∧
      (if e.command then v.grantEnd 0 else v).sec.otp = s.sec.otp ∧
      (if e.command then v.grantEnd 0 else v).sec.items = s.sec.items := by
    rintro v ⟨l, vsec⟩
    have same : (if e.command then v.grantEnd 0 else v).sec = v.sec := by
      split
      · exact part_of_except (State.grantEnd_same 8449 rfl _ _) .sec rfl
      · rfl
    rw [same, vsec]
    exact ⟨by rw [usec], gone, by rw [usec], by rw [usec], by rw [usec]⟩
  unfold State.eraseEnd
  dsimp only
  rw [hu]
  cases e.item with
  | none => exact ended u ⟨_, rfl⟩
  | some x =>
    obtain ⟨l, held⟩ := secRecord_sec (u.count SEC_OPN) x.tc x.word.toNat
      (firstOf (if u.itemLate x then .delayed else .ok) u.okOr) true (s.slotGen e.slot) 0
    exact ended _ ⟨l, held⟩

/-- The end of an erase that no item and no command waits for. -/
theorem eraseEnd_quiet {s : State} {e : SecErase} (hi : e.item = none) (hc : e.command = false) :
    s.eraseEnd e = (((s.setSec fun x =>
      { x with erases := x.erases.filter (· != e) }).slotShow e.slot).raise 0x0D0 1).log 0x5012 e.owner
        (e.slot + s.slotGen e.slot * 2 ^ 8 + e.aborted * 2 ^ 16) := by
  unfold State.eraseEnd
  dsimp only
  rw [hi, hc]
  rfl

/-- The operation has left its unit, is counted, and its output stands in memory. -/
def State.opStored (s : State) (o : SecOp) : State :=
  (((s.setSec fun y => { y with ops := y.ops.filter (· != o) }).unitShow).count SEC_OPN).store o.addr o.out

theorem opStored_parts (s : State) (o : SecOp) :
    (s.opStored o).sec = { s.sec with ops := s.sec.ops.filter (· != o) } ∧
    (s.opStored o).mem = (s.store o.addr o.out).mem ∧ (s.opStored o).events = s.events ∧
    (s.opStored o).ctf = s.ctf ∧ (s.opStored o).rd SEC_OPN = satNat 16 (s.rd SEC_OPN + 1) := by
  generalize hu : (s.setSec fun y => { y with ops := y.ops.filter (· != o) }) = u
  have same : (s.opStored o).except 34359738369 = u.except 34359738369 := by
    unfold State.opStored
    rw [hu]
    exact (State.store_same 34359738369 rfl _ _ _).trans ((State.count_same 34359738369 rfl _ _ _).trans
      (State.unitShow_same 34359738369 rfl _))
  refine ⟨?_, ?_, ?_, ?_, ?_⟩
  · rw [part_of_except same .sec rfl, ← hu]
    rfl
  · have regs : ((u.unitShow).count SEC_OPN).mem = s.mem :=
      (part_of_except ((State.count_same 1 rfl _ _ _).trans (State.unitShow_same 1 rfl _)) .mem rfl).trans
        (by rw [← hu]; rfl)
    unfold State.opStored State.store
    rw [hu, regs]
  · rw [part_of_except same .events rfl, ← hu]
    rfl
  · rw [part_of_except same .ctf rfl, ← hu]
    rfl
  · unfold State.opStored
    rw [rd_of_except (State.store_same 34359738368 rfl _ _ _) rfl, rd_count_same _ _ _ rfl, State.unitShow,
      rd_wr_free (by decide), rd_setSec]
    rfl

/-- A slot's word or another register of the page, once an operation is stored. -/
theorem rd_opStored {g : Fld} (hg : g.lo + g.width ≤ 32) (h : g.key < 0xD0040 ∨ 0xD0058 ≤ g.key) (s : State)
    (o : SecOp) :
    (s.opStored o).rd g = s.rd g := by
  have units : SEC_UBUSY.free g = true :=
    free_of_key (by decide) hg (by simp only [Fld.key, regKey, SEC_UBUSY] at h ⊢; omega)
  have count : SEC_OPN.free g = true :=
    free_of_key (by decide) hg (by simp only [Fld.key, regKey, SEC_OPN] at h ⊢; omega)
  unfold State.opStored
  rw [rd_of_except (State.store_same 34359738368 rfl _ _ _) rfl, rd_count_free count, State.unitShow, rd_wr_free units,
    rd_setSec]

theorem secRing_opStored (s : State) (o : SecOp) (t : Nat) : (s.opStored o).secRing t = s.secRing t :=
  secRing_of_rd fun g hp lo _ hg => rd_opStored hg (.inr (by simp only [Fld.key, regKey, hp]; omega)) s o

theorem secFinish_none {s : State} {o : SecOp} {c : Status} (hc : c ≠ .keyRetired) (hp : o.put = none) :
    s.secFinish o c =
    ((s.opStored o).secRecord o.item.tc o.item.word.toNat c o.res o.gen o.out.length).settleErases := by
  unfold State.secFinish
  dsimp only
  rw [if_neg hc, if_neg hc, hp, bne_iff_ne.mpr hc, Bool.and_true]
  rfl

theorem secFinish_put {s : State} {o : SecOp} {c : Status} {p : KeyPut} (hc : c ≠ .keyRetired) (hp : o.put = some p) :
    s.secFinish o c = (((s.opStored o).commitPut p).secRecord o.item.tc o.item.word.toNat c o.res
      (if p.slot = o.slot then ((s.opStored o).commitPut p).slotGen p.slot else o.gen) o.out.length).settleErases := by
  unfold State.secFinish
  dsimp only
  rw [if_neg hc, if_neg hc, hp, bne_iff_ne.mpr hc, Bool.and_true]
  dsimp only
  rw [if_neg hc]
  rfl

theorem secOpComplete_command {s : State} {u : Fin 6} {o : SecOp} (h : s.sec.ops.find? (·.unit == u.val) = some o) :
    exec (.secOpComplete u) s = .next (s.secFinish o o.code) := by
  change execSecOpComplete u s = _
  unfold execSecOpComplete
  rw [h]

theorem unseen_done {c : Status} (h : c = .ok ∨ c = .holdover) : unseen c = true ∧ c ≠ .keyRetired := by
  rcases h with rfl | rfl
  · exact ⟨rfl, by decide⟩
  · exact ⟨rfl, by decide⟩

/-- An operation that rewrites no slot stores its output and its record. -/
theorem secOpComplete_records {s : State} {u : Fin 6} {o : SecOp} (h : s.sec.ops.find? (·.unit == u.val) = some o)
    (hc : o.code = .ok ∨ o.code = .holdover) (he : s.sec.erases = []) (hp : o.put = none)
    (hs : s.sec.stopped.contains o.item.tc = false) (hh : ∀ h ∈ s.sec.held, h.key ≠ o.item.tc)
    (hr : (s.store o.addr o.out).cmdRoom (s.secRing o.item.tc) = true) :
    Answers (.secOpComplete u) s fun t =>
      t.sec = { s.sec with ops := s.sec.ops.filter (· != o) } ∧ t.rd SEC_OPN = satNat 16 (s.rd SEC_OPN + 1) ∧
      t.events = s.events ∧
      t.mem = ((s.store o.addr o.out).cmdPut (s.secRing o.item.tc)
        (secRecordOf s o.item.word.toNat o.code o.res o.gen o.out.length)).mem := by
  obtain ⟨plain, live⟩ := unseen_done hc
  obtain ⟨sec, mem, events, ctf, opn⟩ := opStored_parts s o
  have ring := secRing_opStored s o o.item.tc
  have written : (s.opStored o).secRecord o.item.tc o.item.word.toNat o.code o.res o.gen o.out.length =
      (s.opStored o).cmdPut (s.secRing o.item.tc)
        (secRecordOf s o.item.word.toNat o.code o.res o.gen o.out.length) := by
    have now : (s.opStored o).stamp = s.stamp := by rw [State.stamp, State.stamp, ctf]
    rw [secRecord_room (by rw [outcome_unseen plain]) _ _ _ (by rw [sec]; exact hs) (by rw [sec]; exact hh)
      (by rw [ring, cmdRoom_of_mem mem]; exact hr), outcome_unseen plain, ring, secRecordOf, now, ← secRecordOf]
  have same := State.cmdPut_same 34359738368 rfl (s.opStored o) (s.secRing o.item.tc)
    (secRecordOf s o.item.word.toNat o.code o.res o.gen o.out.length)
  refine ⟨_, secOpComplete_command h, ?_⟩
  rw [secFinish_none live hp, written, settleErases_none (by rw [part_of_except same .sec rfl, sec]; exact he)]
  exact ⟨(part_of_except same .sec rfl).trans sec, (rd_of_except same rfl _).trans opn,
    (part_of_except same .events rfl).trans events, cmdPut_mem mem _ _⟩

set_option autoImplicit false

theorem free_of_bits {f g : Fld} (hp : f.page = g.page) (ho : f.off = g.off) (hf : f.width ≤ 32)
    (hg : g.lo + g.width ≤ 32) (h : f.lo + f.width ≤ g.lo ∨ g.lo + g.width ≤ f.lo) : f.free g = true := by
  have hgw : g.width ≤ 32 := by omega
  refine Fld.free_iff.mpr ⟨?_, fun _ => hg⟩
  simp only [Fld.apart, Fld.key, Bool.or_eq_true, Bool.and_eq_true, decide_eq_true_eq, beq_iff_eq, hp, ho, hf, hgw,
    true_and, and_true]
  exact .inr h

/-- Two fields of the word of one slot. -/
theorem slot_free {k a n b m : Nat} (hn : n ≤ 32) (hm : b + m ≤ 32) (h : a + n ≤ b ∨ b + m ≤ a) :
    (⟨0x0D0, 0x500 + 4 * k, a, n⟩ : Fld).free ⟨0x0D0, 0x500 + 4 * k, b, m⟩ = true :=
  free_of_bits rfl rfl hn hm h

/-- The word of a slot stands apart from the registers below the slots. -/
theorem slot_free_low {f : Fld} {k b m : Nat} (hf : f.width ≤ 32) (hk : f.key + 4 ≤ 0xD0500) (hm : b + m ≤ 32) :
    f.free ⟨0x0D0, 0x500 + 4 * k, b, m⟩ = true :=
  free_of_key hf hm (.inl (by simp only [Fld.key, regKey] at hk ⊢; omega))

/-- The state shown of a slot leaves the other fields of every slot. -/
theorem rd_slotShow (s : State) (k : Nat) {g : Fld} (h : (SEC_S_STATE k).free g = true) :
    (s.slotShow k).rd g = s.rd g := by
  unfold State.slotShow
  exact rd_wr_free h s _

/-- A rewrite that need not last puts type, usage, owner, the next generation and the material into the slot. -/
theorem commitPut_parts {s : State} {p : KeyPut} (hp : p.pers = false) :
    (s.commitPut p).slotType p.slot = p.type % 8 ∧ (s.commitPut p).rd (SEC_S_USE p.slot) = p.use % 64 ∧
    (s.commitPut p).slotOwn p.slot = p.owner % 64 ∧ (s.commitPut p).slotGen p.slot = (s.slotGen p.slot + 1) % 256 ∧
    (s.commitPut p).on (SEC_S_PERSIST p.slot) = false ∧
    (s.commitPut p).sec = { s.sec with mats := cellPut [] p.slot p.mat s.sec.mats } ∧
    Logged s (s.commitPut p) 0x5011 p.owner (p.slot + (s.slotGen p.slot + 1) % 256 * 2 ^ 8 + p.type * 2 ^ 16) := by
  generalize hv : (((((s.wr (SEC_S_TYPE p.slot) p.type).wr (SEC_S_USE p.slot) p.use).wr (SEC_S_GEN p.slot)
    ((s.slotGen p.slot + 1) % 256)).wr (SEC_S_OWN p.slot) p.owner).wr (SEC_S_PERSIST p.slot) (b2n p.pers)) = v
  have same : v.except 1 = s.except 1 := by
    rw [← hv]
    exact (State.wr_same 1 rfl _ _ _).trans ((State.wr_same 1 rfl _ _ _).trans ((State.wr_same 1 rfl _ _ _).trans
      ((State.wr_same 1 rfl _ _ _).trans (State.wr_same 1 rfl _ _ _))))
  have put : s.commitPut p = (((v.setSec fun x => { x with mats := cellPut [] p.slot p.mat x.mats }).slotShow
    p.slot).log
      0x5011 p.owner (p.slot + (s.slotGen p.slot + 1) % 256 * 2 ^ 8 + p.type * 2 ^ 16)) := by
    rw [← hv]
    unfold State.commitPut
    dsimp only
    rw [if_neg (by rw [hp]; decide)]
  have kept {b m : Nat} (hm : b + m ≤ 32) (h : 26 ≤ b ∨ b + m ≤ 24) :
      (s.commitPut p).rd ⟨0x0D0, 0x500 + 4 * p.slot, b, m⟩ = v.rd ⟨0x0D0, 0x500 + 4 * p.slot, b, m⟩ := by
    rw [put, rd_log, rd_slotShow _ _ (slot_free (show 2 ≤ 32 by decide) hm (by omega)), rd_setSec]
  refine ⟨?_, ?_, ?_, ?_, ?_, ?_, ?_⟩
  · refine (kept (b := 0) (m := 3) (by decide) (by decide)).trans ?_
    rw [← hv]
    exact (rd_wr_free (slot_free (by decide) (by decide) (by decide)) _ _).trans
      ((rd_wr_free (slot_free (by decide) (by decide) (by decide)) _ _).trans
        ((rd_wr_free (slot_free (by decide) (by decide) (by decide)) _ _).trans
          ((rd_wr_free (slot_free (by decide) (by decide) (by decide)) _ _).trans
            (rd_wr_same s (SEC_S_TYPE p.slot) p.type rfl))))
  · refine (kept (b := 4) (m := 6) (by decide) (by decide)).trans ?_
    rw [← hv]
    exact (rd_wr_free (slot_free (by decide) (by decide) (by decide)) _ _).trans
      ((rd_wr_free (slot_free (by decide) (by decide) (by decide)) _ _).trans
        ((rd_wr_free (slot_free (by decide) (by decide) (by decide)) _ _).trans
          (rd_wr_same _ (SEC_S_USE p.slot) p.use rfl)))
  · refine (kept (b := 10) (m := 6) (by decide) (by decide)).trans ?_
    rw [← hv]
    exact (rd_wr_free (slot_free (by decide) (by decide) (by decide)) _ _).trans
      (rd_wr_same _ (SEC_S_OWN p.slot) p.owner rfl)
  · refine (kept (b := 16) (m := 8) (by decide) (by decide)).trans ?_
    rw [← hv]
    exact (rd_wr_free (slot_free (by decide) (by decide) (by decide)) _ _).trans
      ((rd_wr_free (slot_free (by decide) (by decide) (by decide)) _ _).trans
        (rd_wr_lt (f := SEC_S_GEN p.slot) rfl (show _ < 2 ^ 8 by omega) _))
  · have word : (s.commitPut p).rd (SEC_S_PERSIST p.slot) = v.rd (SEC_S_PERSIST p.slot) :=
      kept (b := 3) (m := 1) (by decide) (by decide)
    rw [State.on, word, ← hv, hp]
    exact on_wr_b2n (f := SEC_S_PERSIST p.slot) rfl (show 0 < 1 by decide) _ false
  · rw [put]
    refine (part_of_except ((State.log_same 257 rfl _ _ _ _).trans (State.slotShow_same 257 rfl _ _)) .sec rfl).trans ?_
    rw [State.setSec, part_of_except same .sec rfl]
  · rw [put, Logged]
    change ((v.setSec _).slotShow p.slot).events ++ _ = _
    rw [part_of_except (State.slotShow_same 1 rfl _ _) .events rfl]
    change v.events ++ _ = _
    rw [part_of_except same .events rfl]

/-- A rewrite that completes stands in its slot and is logged. -/
theorem secOpComplete_rewrites {s : State} {u : Fin 6} {o : SecOp} {p : KeyPut}
    (h : s.sec.ops.find? (·.unit == u.val) = some o) (hc : o.code = .ok ∨ o.code = .holdover) (he : s.sec.erases = [])
    (hp : o.put = some p) (hk : p.slot < 32) (ht : p.pers = false) :
    Answers (.secOpComplete u) s fun t =>
      t.slotType p.slot = p.type % 8 ∧ t.rd (SEC_S_USE p.slot) = p.use % 64 ∧ t.slotOwn p.slot = p.owner % 64 ∧
      t.slotGen p.slot = (s.slotGen p.slot + 1) % 256 ∧ t.on (SEC_S_PERSIST p.slot) = false ∧
      t.slotMat p.slot = p.mat ∧ t.sec.ops = s.sec.ops.filter (· != o) ∧
      Logged s t 0x5011 p.owner (p.slot + (s.slotGen p.slot + 1) % 256 * 2 ^ 8 + p.type * 2 ^ 16) := by
  obtain ⟨plain, live⟩ := unseen_done hc
  obtain ⟨osec, -, oevents, -, -⟩ := opStored_parts s o
  have ogen : (s.opStored o).slotGen p.slot = s.slotGen p.slot :=
    rd_opStored (g := SEC_S_GEN p.slot) (show 16 + 8 ≤ 32 by decide)
      (.inr (by simp only [Fld.key, regKey, SEC_S_GEN]; omega)) s o
  obtain ⟨type, use, own, gen, pers, sec, logged⟩ := commitPut_parts (s := s.opStored o) ht
  refine ⟨_, secOpComplete_command h, ?_⟩
  rw [secFinish_put live hp]
  generalize (s.opStored o).commitPut p = v at type use own gen pers sec logged ⊢
  generalize (if p.slot = o.slot then v.slotGen p.slot else o.gen) = g
  obtain ⟨l, held⟩ := secRecord_sec v o.item.tc o.item.word.toNat o.code o.res g o.out.length
  have quiet := secRecord_events plain v o.item.tc o.item.word.toNat o.res g o.out.length
  rw [settleErases_none (by rw [held, sec, osec]; exact he)]
  have slot {b m : Nat} (hm : b + m ≤ 32) :
      (v.secRecord o.item.tc o.item.word.toNat o.code o.res g o.out.length).rd ⟨0x0D0, 0x500 + 4 * p.slot, b, m⟩ =
      v.rd ⟨0x0D0, 0x500 + 4 * p.slot, b, m⟩ :=
    rd_secRecord (by simp only [Fld.key, regKey]; omega) hm _ _ _ _ _ _ _
  generalize v.secRecord o.item.tc o.item.word.toNat o.code o.res g o.out.length = t at held quiet slot ⊢
  have onPers : t.rd (SEC_S_PERSIST p.slot) = v.rd (SEC_S_PERSIST p.slot) := slot (by decide)
  refine ⟨(slot (by decide)).trans type, (slot (by decide)).trans use, (slot (by decide)).trans own,
    (slot (by decide)).trans (gen.trans (by rw [ogen])), by rw [State.on, onPers]; exact pers, ?_, ?_, ?_⟩
  · rw [State.slotMat, held, sec]
    exact cellAt_put_same _ _ _ _
  · rw [held, sec, osec]
  · rw [Logged, quiet, logged, oevents, ogen]

set_option autoImplicit false

/-! ### The erase of a slot -/

theorem State.readKeyRecord_past {P : List Nat} (hP : P.contains 0x0D8 = true) (s : State) (slot i : Nat) :
    Past P (s.readKeyRecord slot i).2 = Past P s := by
  have read := State.celReadRun_past hP s (keyGroup slot i) 16
  unfold State.readKeyRecord
  dsimp only
  split
  · exact read
  · split
    · exact read
    · split
      · exact read
      · exact read

theorem State.persist_past {P : List Nat} (hP : P.contains 0x0D8 = true) (s : State) (slot : Nat) :
    Past P (s.persist slot) = Past P s := by
  have both := (State.readKeyRecord_past hP (s.readKeyRecord slot 0).2 slot 1).trans
    (State.readKeyRecord_past hP s slot 0)
  unfold State.persist State.devWrite
  dsimp only
  split
  · exact (past_of_except (State.setCel_same _ rfl _ _)).trans both
  · exact (State.celWriteRun_past hP _ _ _).trans both

/-- The erase that an acceptance of `k` leaves to be completed. -/
def State.eraseOf (s : State) (k : Nat) (item : Option RingItem) (command : Bool) (owner : Nat) : SecErase :=
  ⟨k, s.clk, 0, item, command, owner, (s.sec.ops.filter fun o => o.holds && o.slot == k).map (·.gen)⟩

/-- The slot is emptied at its next generation. -/
def State.slotEmptied (s : State) (k : Nat) : State :=
  ((s.wr (SEC_S_GEN k) ((s.slotGen k + 1) % 256)).wr (SEC_S_TYPE k) 0).wr (SEC_S_USE k) 0

/-- The erase waits, and the records of a persistent slot are written. -/
def State.eraseWaits (s : State) (k : Nat) (e : SecErase) : State :=
  let s := s.setSec fun x => { x with mats := cellErase k x.mats, erases := x.erases ++ [e] }
  if s.on (SEC_S_PERSIST k) then s.persist k else s

/-- The identity key is gone with slot 0. -/
def State.identityGone (s : State) (k : Nat) : State := if k = 0 then (s.wr SEC_IDOK 0).wr CLG_KEYOK 0 else s

/-- An erase accepted, before any completes. -/
def State.eraseBegun (s : State) (k : Nat) (e : SecErase) : State :=
  (((s.slotEmptied k).eraseWaits k e).identityGone k).slotShow k

theorem eraseSlot_eq (s : State) (k : Nat) (item : Option RingItem) (command : Bool) (owner : Nat) :
    s.eraseSlot k item command owner = (s.eraseBegun k (s.eraseOf k item command owner)).settleErases := rfl

theorem slotEmptied_parts (s : State) (k : Nat) :
    (s.slotEmptied k).except 1 = s.except 1 ∧ (s.slotEmptied k).slotType k = 0 ∧
    (s.slotEmptied k).slotGen k = (s.slotGen k + 1) % 256 ∧
    (s.slotEmptied k).on (SEC_S_PERSIST k) = s.on (SEC_S_PERSIST k) := by
  have gen : (s.wr (SEC_S_GEN k) ((s.slotGen k + 1) % 256)).rd (SEC_S_GEN k) = (s.slotGen k + 1) % 256 :=
    rd_wr_lt rfl (show _ < 2 ^ 8 by omega) _
  have useGen : (SEC_S_USE k).free (SEC_S_GEN k) = true := slot_free (by decide) (by decide) (by decide)
  have typeGen : (SEC_S_TYPE k).free (SEC_S_GEN k) = true := slot_free (by decide) (by decide) (by decide)
  have useType : (SEC_S_USE k).free (SEC_S_TYPE k) = true := slot_free (by decide) (by decide) (by decide)
  have usePers : (SEC_S_USE k).free (SEC_S_PERSIST k) = true := slot_free (by decide) (by decide) (by decide)
  have typePers : (SEC_S_TYPE k).free (SEC_S_PERSIST k) = true := slot_free (by decide) (by decide) (by decide)
  have genPers : (SEC_S_GEN k).free (SEC_S_PERSIST k) = true := slot_free (by decide) (by decide) (by decide)
  refine ⟨(State.wr_same 1 rfl _ _ _).trans ((State.wr_same 1 rfl _ _ _).trans (State.wr_same 1 rfl _ _ _)), ?_, ?_, ?_⟩
  · rw [State.slotType, State.slotEmptied, rd_wr_free useType]
    exact rd_wr_lt rfl (show 0 < 2 ^ 3 by decide) _
  · rw [State.slotGen, State.slotEmptied, rd_wr_free useGen, rd_wr_free typeGen, gen]
  · rw [State.slotEmptied, on_wr_free usePers, on_wr_free typePers, on_wr_free genPers]

/-- A waiting erase leaves every register but those of the Cellar. -/
theorem eraseWaits_parts (s : State) (k : Nat) (e : SecErase) :
    (s.eraseWaits k e).sec = { s.sec with mats := cellErase k s.sec.mats, erases := s.sec.erases ++ [e] } ∧
    (∀ g : Fld, g.outside [0x0D8] = true → (s.eraseWaits k e).rd g = s.rd g) ∧
    (s.on (SEC_S_PERSIST k) = false → (s.eraseWaits k e).events = s.events) ∧
    (s.eraseWaits k e).ctf = s.ctf := by
  have kept : (s.setSec fun x => { x with mats := cellErase k x.mats, erases := x.erases ++ [e] }).on (SEC_S_PERSIST k)
    =
      s.on (SEC_S_PERSIST k) := on_setSec _ _ _
  unfold State.eraseWaits
  dsimp only
  rw [kept]
  split
  next persists =>
    have same := State.persist_same 4194561 rfl
      (s.setSec fun x => { x with mats := cellErase k x.mats, erases := x.erases ++ [e] }) k
    refine ⟨(part_of_except same .sec rfl).trans rfl, fun g hg => ?_, fun h => absurd (persists.symm.trans h)
      (by decide),
      part_of_except same .ctf rfl⟩
    rw [rd_of_past (State.persist_past (P := [0x0D8]) rfl _ _) hg, rd_setSec]
  · exact ⟨rfl, fun g _ => rd_setSec _ _ _, fun _ => rfl, rfl⟩

theorem identityGone_parts (s : State) (k : Nat) :
    (s.identityGone k).except 1 = s.except 1 ∧
    (∀ g : Fld, SEC_IDOK.free g = true → CLG_KEYOK.free g = true → (s.identityGone k).rd g = s.rd g) ∧
    (k = 0 → (s.identityGone k).on SEC_IDOK = false) := by
  unfold State.identityGone
  split
  · refine ⟨(State.wr_same 1 rfl _ _ _).trans (State.wr_same 1 rfl _ _ _), fun g hi hc => ?_, fun _ => ?_⟩
    · rw [rd_wr_free hc, rd_wr_free hi]
    · rw [on_wr_free (by decide)]
      exact on_wr_b2n rfl (by decide) s false
  next other => exact ⟨rfl, fun _ _ _ => rfl, fun h => absurd h other⟩

/-- The word of slot `k < 32` lies outside the Cellar's page. -/
theorem slot_outside {k b m : Nat} (hk : k < 32) (hm : b + m ≤ 32) :
    (⟨0x0D0, 0x500 + 4 * k, b, m⟩ : Fld).outside [0x0D8] = true := by
  have place : 0x500 + 4 * k < 4096 := by omega
  have narrow : m ≤ 32 := by omega
  simp [Fld.outside, place, narrow]

/-- What an erase of a slot has done when it is accepted. -/
theorem eraseBegun_parts {s : State} {k : Nat} (hk : k < 32) {e : SecErase} (he : s.sec.erases = []) (hs : e.slot = k) :
    (s.eraseBegun k e).slotType k = 0 ∧ (s.eraseBegun k e).slotGen k = (s.slotGen k + 1) % 256 ∧
    (s.eraseBegun k e).sec = { s.sec with mats := cellErase k s.sec.mats, erases := [e] } ∧
    (s.eraseBegun k e).rd (SEC_S_STATE k) = 2 ∧
    (s.on (SEC_S_PERSIST k) = false → (s.eraseBegun k e).events = s.events) ∧
    (s.eraseBegun k e).rd SEC_OPN = s.rd SEC_OPN ∧ (s.eraseBegun k e).ctf = s.ctf ∧
    (s.eraseBegun k e).ctfSt = s.ctfSt ∧
    (k = 0 → (s.eraseBegun k e).on SEC_IDOK = false) := by
  obtain ⟨esame, etype, egen, epers⟩ := slotEmptied_parts s k
  obtain ⟨wsec, wrd, wevents, wctf⟩ := eraseWaits_parts (s.slotEmptied k) k e
  obtain ⟨isame, ird, iok⟩ := identityGone_parts ((s.slotEmptied k).eraseWaits k e) k
  have ssame : (s.eraseBegun k e).except 1 = (((s.slotEmptied k).eraseWaits k e).identityGone k).except 1 :=
    State.slotShow_same 1 rfl _ _
  have slot {b m : Nat} (hm : b + m ≤ 32) (h : b + m ≤ 24) :
      (s.eraseBegun k e).rd ⟨0x0D0, 0x500 + 4 * k, b, m⟩ = (s.slotEmptied k).rd ⟨0x0D0, 0x500 + 4 * k, b, m⟩ := by
    rw [State.eraseBegun, rd_slotShow _ _ (slot_free (show 2 ≤ 32 by decide) hm (.inr h)),
      ird _ (slot_free_low (by decide) (by decide) hm) (slot_free_low (by decide) (by decide) hm),
      wrd _ (slot_outside hk hm)]
  have low {g : Fld} (hg : g.lo + g.width ≤ 32) (hkey : g.key + 4 ≤ 0xD0500) (ho : g.outside [0x0D8] = true)
      (h1 : SEC_IDOK.free g = true) (h2 : CLG_KEYOK.free g = true) : (s.eraseBegun k e).rd g = s.rd g := by
    have above {a n : Nat} (hn : n ≤ 32) : (⟨0x0D0, 0x500 + 4 * k, a, n⟩ : Fld).free g = true :=
      free_of_key hn hg (.inr (by simp only [Fld.key, regKey] at hkey ⊢; omega))
    have state : (SEC_S_STATE k).free g = true := above (by decide)
    have gen : (SEC_S_GEN k).free g = true := above (by decide)
    have type : (SEC_S_TYPE k).free g = true := above (by decide)
    have use : (SEC_S_USE k).free g = true := above (by decide)
    rw [State.eraseBegun, rd_slotShow _ _ state, ird _ h1 h2, wrd _ ho, State.slotEmptied, rd_wr_free use,
      rd_wr_free type, rd_wr_free gen]
  have sec : (((s.slotEmptied k).eraseWaits k e).identityGone k).sec =
      { s.sec with mats := cellErase k s.sec.mats, erases := [e] } := by
    rw [part_of_except isame .sec rfl, wsec, part_of_except esame .sec rfl, he]
    rfl
  refine ⟨(slot (by decide) (by decide)).trans etype, (slot (by decide) (by decide)).trans egen,
    (part_of_except ssame .sec rfl).trans sec, ?_, fun hp => ?_, low (by decide) (by decide) (by decide) (by decide)
      (by decide),
    ?_, low (by decide) (by decide) (by decide) (by decide) (by decide), fun hk0 => ?_⟩
  · unfold State.eraseBegun State.slotShow
    dsimp only
    rw [sec, if_pos (by simp [hs])]
    exact rd_wr_lt rfl (show 2 < 2 ^ 2 by decide) _
  · rw [part_of_except ssame .events rfl, part_of_except isame .events rfl, wevents (epers.trans hp),
      part_of_except esame .events rfl]
  · rw [part_of_except ssame .ctf rfl, part_of_except isame .ctf rfl, wctf, part_of_except esame .ctf rfl]
  · rw [State.on, State.eraseBegun, rd_slotShow]
    · exact iok hk0
    · rw [hk0]
      decide

set_option autoImplicit false

/-- An item of ERASE that passes its checks begins the erase of its slot. -/
theorem erase_command {s : State} {u : Nat} {x : RingItem} (h : SecReady s 0x12 u x) :
    ∃ v, SecKept s v ∧ v.sec.items = s.sec.items.erase x ∧ v.sec.erases = s.sec.erases ∧ v.clk = s.clk ∧
      v.events = s.events ∧
      exec .erase s = .next (v.eraseSlot (sdSlot x.word.toNat) (some x) false x.tc) := by
  obtain ⟨next, check⟩ := h
  obtain ⟨kept, items⟩ := secKept_drop s x
  have same : ((s.secDrop x).serveTurn 3 x.cls x.tc).except 268443649 = s.except 268443649 :=
    (State.serveTurn_same 268443649 rfl _ _ _ _).trans (State.secDrop_same 268443649 rfl _ _)
  have sec : ((s.secDrop x).serveTurn 3 x.cls x.tc).sec = (s.secDrop x).sec :=
    part_of_except (State.serveTurn_same 8193 rfl _ _ _ _) .sec rfl
  refine ⟨_, kept, items, by rw [sec]; rfl, part_of_except same .clk rfl, part_of_except same .events rfl, ?_⟩
  change execErase s = _
  unfold execErase
  rw [next]
  dsimp only
  rw [kept.secStartCheck, check]

/-- An operation that holds no contents of the slot does not keep the erase waiting. -/
theorem eraseOf_unheld {s : State} {k : Nat} (item : Option RingItem) (command : Bool) (owner : Nat)
    (h : ∀ o ∈ s.sec.ops, ¬(o.holds = true ∧ o.slot = k)) :
    s.sec.ops.any (s.eraseOf k item command owner).heldBy = false := by
  rw [List.any_eq_false]
  intro o mem held
  simp only [SecErase.heldBy, State.eraseOf, Bool.and_eq_true, beq_iff_eq] at held
  exact h o mem held.1

/-- An operation that holds the contents of the slot keeps the erase waiting. -/
theorem eraseOf_held {s : State} {k : Nat} (item : Option RingItem) (command : Bool) (owner : Nat)
    (h : ∃ o ∈ s.sec.ops, o.holds = true ∧ o.slot = k) :
    s.sec.ops.any (s.eraseOf k item command owner).heldBy = true := by
  obtain ⟨o, mem, holds, slot⟩ := h
  rw [List.any_eq_true]
  refine ⟨o, mem, ?_⟩
  have among : o ∈ s.sec.ops.filter fun o => o.holds && o.slot == k := by
    simp [mem, holds, slot]
  simp only [SecErase.heldBy, State.eraseOf, holds, slot, beq_self_eq_true, Bool.true_and, List.contains_iff_mem]
  exact List.mem_map_of_mem among

theorem unseen_firstOf (s : State) : unseen (firstOf .ok s.okOr) = true := by
  unfold State.okOr
  split <;> decide

/-- The end of an erase that an item of a ring waits for. -/
theorem eraseEnd_item {s : State} {e : SecErase} {x : RingItem} (hk : e.slot < 32) (hi : e.item = some x)
    (hc : e.command = false) (hl : s.itemLate x = false) :
    (s.eraseEnd e).slotType e.slot = s.slotType e.slot ∧ (s.eraseEnd e).slotGen e.slot = s.slotGen e.slot ∧
    bit ((s.eraseEnd e).rd (IRQ_RAW 0x0D0)) 1 = true ∧ (s.eraseEnd e).rd SEC_OPN = satNat 16 (s.rd SEC_OPN + 1) ∧
    Logged s (s.eraseEnd e) 0x5012 e.owner (e.slot + s.slotGen e.slot * 2 ^ 8 + e.aborted * 2 ^ 16) := by
  generalize hu : (s.setSec fun x => { x with erases := x.erases.filter (· != e) }) = u
  generalize hv : ((u.slotShow e.slot).raise 0x0D0 1).log 0x5012 e.owner
    (e.slot + s.slotGen e.slot * 2 ^ 8 + e.aborted * 2 ^ 16) = v
  have same : v.except 257 = u.except 257 := by
    rw [← hv]
    exact (State.log_same 257 rfl _ _ _ _).trans ((State.raise_same 257 rfl _ _ _).trans
      (State.slotShow_same 257 rfl _ _))
  have state : v.ctfSt = s.ctfSt := by
    have apart : (SEC_S_STATE e.slot).free CTF_ST = true := by
      refine free_of_key (show 2 ≤ 32 by decide) (by decide) (.inr ?_)
      simp only [Fld.key, regKey, SEC_S_STATE, CTF_ST]
      omega
    rw [State.ctfSt, ← hv, rd_log, rd_raise_free (by decide), rd_slotShow _ _ apart, ← hu, rd_setSec, State.ctfSt]
  have ctf : v.ctf = s.ctf := by
    rw [part_of_except same .ctf rfl, ← hu]
    rfl
  have ended : s.eraseEnd e =
      (v.count SEC_OPN).secRecord x.tc x.word.toNat (firstOf .ok v.okOr) true (s.slotGen e.slot) 0 := by
    have late : v.itemLate x = false := by
      rw [State.itemLate, State.stamp, ctf]
      exact hl
    unfold State.eraseEnd
    dsimp only
    rw [hi, hc, hu, hv]
    dsimp only
    rw [if_neg Bool.false_ne_true, late, if_neg Bool.false_ne_true]
  have quiet := secRecord_events (unseen_firstOf v) (v.count SEC_OPN) x.tc x.word.toNat true (s.slotGen e.slot) 0
  have low {g : Fld} (hk : g.key + 4 ≤ 0x300000) (hg : g.lo + g.width ≤ 32) :
      (s.eraseEnd e).rd g = (v.count SEC_OPN).rd g := by
    rw [ended, rd_secRecord hk hg]
  have slot {b m : Nat} (hm : b + m ≤ 32) (h : b + m ≤ 24) :
      (s.eraseEnd e).rd ⟨0x0D0, 0x500 + 4 * e.slot, b, m⟩ = s.rd ⟨0x0D0, 0x500 + 4 * e.slot, b, m⟩ := by
    rw [low (by simp only [Fld.key, regKey]; omega) hm, rd_count_free (slot_free_low (by decide) (by decide) hm), ← hv,
      rd_log, rd_raise_free (slot_free_low (by decide) (by decide) hm),
      rd_slotShow _ _ (slot_free (show 2 ≤ 32 by decide) hm (.inr h)), ← hu, rd_setSec]
  refine ⟨slot (by decide) (by decide), slot (by decide) (by decide), ?_, ?_, ?_⟩
  · rw [low (by decide) (by decide), rd_count_free (by decide), ← hv, rd_log]
    exact bit_raise_same _ _ (by decide)
  · have apart : (SEC_S_STATE e.slot).free SEC_OPN = true := by
      refine free_of_key (show 2 ≤ 32 by decide) (by decide) (.inr ?_)
      simp only [Fld.key, regKey, SEC_S_STATE, SEC_OPN]
      omega
    rw [low (by decide) (by decide), rd_count_same _ _ _ rfl, ← hv, rd_log, rd_raise_free (by decide),
      rd_slotShow _ _ apart, ← hu, rd_setSec]
    rfl
  · rw [Logged, ended, quiet]
    change v.events = _
    rw [← hv]
    change ((u.slotShow e.slot).raise 0x0D0 1).events ++ _ = _
    rw [part_of_except ((State.raise_same 1 rfl _ _ _).trans (State.slotShow_same 1 rfl _ _)) .events rfl, ← hu]
    rfl

/-- ERASE of a slot whose contents no operation holds completes at once. -/
theorem erase_completes {s : State} {u : Nat} {x : RingItem} {k : Nat} (h : SecReady s 0x12 u x)
    (hk : k = sdSlot x.word.toNat) (hp : s.on (SEC_S_PERSIST k) = false) (he : s.sec.erases = [])
    (hl : s.itemLate x = false) (ho : ∀ o ∈ s.sec.ops, ¬(o.holds = true ∧ o.slot = k)) :
    Answers .erase s fun t =>
      t.slotType k = 0 ∧ t.slotGen k = (s.slotGen k + 1) % 256 ∧ t.slotMat k = [] ∧
      t.sec.items = s.sec.items.erase x ∧ t.sec.erases = [] ∧ bit (t.rd (IRQ_RAW 0x0D0)) 1 = true ∧
      t.rd SEC_OPN = satNat 16 (s.rd SEC_OPN + 1) ∧
      Logged s t 0x5012 x.tc (k + (s.slotGen k + 1) % 256 * 2 ^ 8) := by
  obtain ⟨v, kept, items, verases, clk, vevents, command⟩ := erase_command h
  have small : k < 32 := by
    rw [hk]
    exact Nat.mod_lt _ (by decide)
  have ve : v.sec.erases = [] := verases.trans he
  have vp : v.on (SEC_S_PERSIST k) = false := by
    rw [State.on, show v.rd (SEC_S_PERSIST k) = s.rd (SEC_S_PERSIST k) from kept.slot k 3 1 (by decide)]
    exact hp
  obtain ⟨type, gen, sec, -, events, opn, ctf, -, -⟩ :=
    eraseBegun_parts (e := v.eraseOf k (some x) false x.tc) small ve rfl
  have unheld : (v.eraseBegun k (v.eraseOf k (some x) false x.tc)).sec.ops.any
      (v.eraseOf k (some x) false x.tc).heldBy = false := by
    rw [sec]
    exact eraseOf_unheld _ _ _ (by rw [kept.ops]; exact ho)
  have late : (v.eraseBegun k (v.eraseOf k (some x) false x.tc)).itemLate x = false := by
    rw [State.itemLate, State.stamp, ctf, ← State.stamp, ← State.itemLate, kept.itemLate, hl]
  have gone : (v.eraseBegun k (v.eraseOf k (some x) false x.tc)).sec.erases = [v.eraseOf k (some x) false x.tc] := by
    rw [sec]
  obtain ⟨etype, egen, irq, eopn, logged⟩ :=
    eraseEnd_item (e := v.eraseOf k (some x) false x.tc) small rfl rfl late
  obtain ⟨-, none, mats, -, eitems⟩ := eraseEnd_sec gone
  refine ⟨_, command, ?_⟩
  rw [← hk, eraseSlot_eq, settleErases_one gone unheld]
  refine ⟨etype.trans type, egen.trans (gen.trans (by rw [kept.slotGen])), ?_, eitems.trans (by rw [sec]; exact items),
    none, irq, eopn.trans (by rw [opn, kept.rd SEC_OPN (by decide) (by decide)]), ?_⟩
  · rw [State.slotMat, mats, sec]
    exact cellAt_erase_same _ _ _
  · refine logged.trans ?_
    rw [events vp, vevents]
    change s.events ++ [⟨0x5012, x.tc, leBytes 8 (k +
      (v.eraseBegun k (v.eraseOf k (some x) false x.tc)).slotGen k * 2 ^ 8 + 0 * 2 ^ 16)⟩] = _
    rw [gen, kept.slotGen, Nat.zero_mul, Nat.add_zero]

/-- ERASE of a slot whose contents an operation holds waits. -/
theorem erase_waits {s : State} {u : Nat} {x : RingItem} {k : Nat} (h : SecReady s 0x12 u x)
    (hk : k = sdSlot x.word.toNat) (hp : s.on (SEC_S_PERSIST k) = false) (he : s.sec.erases = [])
    (ho : ∃ o ∈ s.sec.ops, o.holds = true ∧ o.slot = k) :
    Answers .erase s fun t =>
      t.slotType k = 0 ∧ t.slotGen k = (s.slotGen k + 1) % 256 ∧ t.slotMat k = [] ∧
      t.sec.ops = s.sec.ops ∧ t.rd (SEC_S_STATE k) = 2 ∧ t.events = s.events ∧
      t.sec.erases = [⟨k, s.clk, 0, some x, false, x.tc,
        (s.sec.ops.filter fun o => o.holds && o.slot == k).map (·.gen)⟩] := by
  obtain ⟨v, kept, -, verases, clk, vevents, command⟩ := erase_command h
  have small : k < 32 := by
    rw [hk]
    exact Nat.mod_lt _ (by decide)
  have ve : v.sec.erases = [] := verases.trans he
  have vp : v.on (SEC_S_PERSIST k) = false := by
    rw [State.on, show v.rd (SEC_S_PERSIST k) = s.rd (SEC_S_PERSIST k) from kept.slot k 3 1 (by decide)]
    exact hp
  obtain ⟨type, gen, sec, state, events, -⟩ :=
    eraseBegun_parts (e := v.eraseOf k (some x) false x.tc) small ve rfl
  have held : (v.eraseBegun k (v.eraseOf k (some x) false x.tc)).sec.ops.any
      (v.eraseOf k (some x) false x.tc).heldBy = true := by
    rw [sec]
    exact eraseOf_held _ _ _ (by rw [kept.ops]; exact ho)
  have waits : (v.eraseBegun k (v.eraseOf k (some x) false x.tc)).sec.erases = [v.eraseOf k (some x) false x.tc] := by
    rw [sec]
  refine ⟨_, command, ?_⟩
  rw [← hk, eraseSlot_eq, settleErases_held waits held]
  refine ⟨type, gen.trans (by rw [kept.slotGen]), ?_, by rw [sec]; exact kept.ops, state,
    (events vp).trans vevents, ?_⟩
  · rw [State.slotMat, sec]
    exact cellAt_erase_same _ _ _
  · rw [waits, State.eraseOf, clk, kept.ops]

set_option autoImplicit false

/-! ### The deadline of an erase -/

theorem gen_free {f : Fld} {k : Nat} (hf : f.width ≤ 32) (hk : f.key + 4 ≤ 0xD0500) : f.free (SEC_S_GEN k) = true :=
  slot_free_low hf hk (by decide)

/-- The state shown of a slot leaves the generation of every slot. -/
theorem slotGen_slotShow (s : State) (i j : Nat) : (s.slotShow i).slotGen j = s.slotGen j := by
  have apart : (SEC_S_STATE i).free (SEC_S_GEN j) = true := by
    by_cases same : i = j
    · subst same
      exact slot_free (by decide) (by decide) (by decide)
    · refine free_of_key (show 2 ≤ 32 by decide) (show 16 + 8 ≤ 32 by decide) ?_
      simp only [Fld.key, regKey, SEC_S_STATE, SEC_S_GEN]
      omega
  exact rd_slotShow s i apart

/-- An operation aborted, before an erase completes. -/
def State.opAborted (s : State) (o : SecOp) : State :=
  let s := ((s.setSec fun y => { y with ops := y.ops.filter (· != o) }).unitShow).count SEC_ABORTN
  let s := match o.put with
    | some p => s.slotShow p.slot
    | none => s
  let gen := match o.put with
    | some p => if p.slot = o.slot then s.slotGen p.slot else o.gen
    | none => o.gen
  s.secRecord o.item.tc o.item.word.toNat .keyRetired false gen 0

theorem secFinish_aborts (s : State) (o : SecOp) : s.secFinish o .keyRetired = (s.opAborted o).settleErases := by
  unfold State.secFinish State.opAborted
  dsimp only
  rw [if_pos rfl, show (o.res && Status.keyRetired != Status.keyRetired) = false from Bool.and_false _]
  rfl

theorem opAborted_parts (s : State) (o : SecOp) :
    (∃ l, (s.opAborted o).sec = { s.sec with ops := s.sec.ops.filter (· != o), held := l }) ∧
    (s.opAborted o).events = s.events ∧ (s.opAborted o).rd SEC_ABORTN = satNat 16 (s.rd SEC_ABORTN + 1) ∧
    (∀ j < 32, (s.opAborted o).slotGen j = s.slotGen j) ∧ (s.opAborted o).clk = s.clk := by
  generalize hu : ((s.setSec fun y => { y with ops := y.ops.filter (· != o) }).unitShow).count SEC_ABORTN = u
  have same : u.except 1 = (s.setSec fun y => { y with ops := y.ops.filter (· != o) }).except 1 := by
    rw [← hu]
    exact (State.count_same 1 rfl _ _ _).trans (State.unitShow_same 1 rfl _)
  have aborted : u.rd SEC_ABORTN = satNat 16 (s.rd SEC_ABORTN + 1) := by
    rw [← hu, rd_count_same _ _ _ rfl, State.unitShow, rd_wr_free (by decide), rd_setSec]
    rfl
  have gen (j : Nat) : u.slotGen j = s.slotGen j := by
    rw [← hu, State.slotGen, rd_count_free (f := SEC_ABORTN) (gen_free (by decide) (by decide)), State.unitShow,
      rd_wr_free (f := SEC_UBUSY) (gen_free (by decide) (by decide)), rd_setSec, State.slotGen]
  have recorded : ∀ v : State, v.except 1 = u.except 1 → v.rd SEC_ABORTN = u.rd SEC_ABORTN →
      (∀ j, v.slotGen j = u.slotGen j) → ∀ g,
      (∃ l, (v.secRecord o.item.tc o.item.word.toNat .keyRetired false g 0).sec =
        { s.sec with ops := s.sec.ops.filter (· != o), held := l }) ∧
      (v.secRecord o.item.tc o.item.word.toNat .keyRetired false g 0).events = s.events ∧
      (v.secRecord o.item.tc o.item.word.toNat .keyRetired false g 0).rd SEC_ABORTN =
        satNat 16 (s.rd SEC_ABORTN + 1) ∧
      (∀ j < 32, (v.secRecord o.item.tc o.item.word.toNat .keyRetired false g 0).slotGen j = s.slotGen j) ∧
      (v.secRecord o.item.tc o.item.word.toNat .keyRetired false g 0).clk = s.clk := by
    intro v vsame vaborted vgen g
    obtain ⟨l, sec⟩ := secRecord_sec v o.item.tc o.item.word.toNat .keyRetired false g 0
    have whole : v.except 1 = (s.setSec fun y => { y with ops := y.ops.filter (· != o) }).except 1 := vsame.trans same
    refine ⟨⟨l, ?_⟩, ?_, ?_, fun j hj => ?_, ?_⟩
    · rw [sec, part_of_except whole .sec rfl]
      rfl
    · rw [secRecord_events rfl]
      exact part_of_except whole .events rfl
    · rw [rd_secRecord (by decide) (by decide), vaborted, aborted]
    · rw [State.slotGen, rd_secRecord (by simp only [Fld.key, regKey, SEC_S_GEN]; omega) (show 16 + 8 ≤ 32 by decide),
        ← State.slotGen, vgen, gen]
    · exact (part_of_except (State.secRecord_same 34628182017 rfl _ _ _ _ _ _ _) .clk rfl).trans
        (part_of_except whole .clk rfl)
  unfold State.opAborted
  dsimp only
  rw [hu]
  cases o.put with
  | none => exact recorded u rfl rfl (fun _ => rfl) _
  | some p =>
    have apart : (SEC_S_STATE p.slot).free SEC_ABORTN = true := by
      refine free_of_key (show 2 ≤ 32 by decide) (by decide) (.inr ?_)
      simp only [Fld.key, regKey, SEC_S_STATE, SEC_ABORTN]
      omega
    exact recorded (u.slotShow p.slot) (State.slotShow_same 1 rfl _ _) (rd_slotShow _ _ apart)
      (fun j => slotGen_slotShow _ _ _) _

/-- The one erase either has completed or waits for an operation that holds its contents. -/
def EraseWaits (e : SecErase) (s : State) : Prop :=
  s.sec.erases = [] ∨ s.sec.erases = [e] ∧ s.sec.ops.any e.heldBy = true

theorem secFinish_waits {e : SecErase} {s : State} (h : EraseWaits e s) (o : SecOp) :
    (s.secFinish o .keyRetired).sec.ops = s.sec.ops.filter (· != o) ∧ EraseWaits e (s.secFinish o .keyRetired) := by
  obtain ⟨⟨l, sec⟩, -⟩ := opAborted_parts s o
  rw [secFinish_aborts]
  have ops : (s.opAborted o).sec.ops = s.sec.ops.filter (· != o) := by rw [sec]
  have erases : (s.opAborted o).sec.erases = s.sec.erases := by rw [sec]
  rcases h with done | ⟨waits, -⟩
  · have none : (s.opAborted o).sec.erases = [] := erases.trans done
    rw [settleErases_none none]
    exact ⟨ops, .inl none⟩
  · have one : (s.opAborted o).sec.erases = [e] := erases.trans waits
    by_cases held : (s.opAborted o).sec.ops.any e.heldBy = true
    · rw [settleErases_held one held]
      exact ⟨ops, .inr ⟨one, held⟩⟩
    · obtain ⟨eops, enone, -⟩ := eraseEnd_sec one
      rw [settleErases_one one (Bool.eq_false_iff.mpr held)]
      exact ⟨eops.trans ops, .inl enone⟩

/-- Every operation of a list is aborted. -/
def State.abortAll (s : State) (l : List SecOp) : State := l.foldl (fun s o => s.secFinish o .keyRetired) s

theorem abortAll_waits {e : SecErase} {s : State} (h : EraseWaits e s) (l : List SecOp) :
    (s.abortAll l).sec.ops = s.sec.ops.filter (fun o => !l.contains o) ∧ EraseWaits e (s.abortAll l) := by
  induction l generalizing s with
  | nil => exact ⟨(List.filter_eq_self.mpr (by simp)).symm, h⟩
  | cons o r ih =>
    obtain ⟨ops, waits⟩ := secFinish_waits h o
    obtain ⟨rest, last⟩ := ih waits
    refine ⟨rest.trans ?_, last⟩
    rw [ops, List.filter_filter]
    refine List.filter_congr fun x _ => ?_
    rw [List.contains_cons, Bool.not_or, Bool.and_comm, bne]

/-- What is left of a list once the elements that satisfy `p` are taken away. -/
theorem filter_not_contains_filter (l : List SecOp) (p : SecOp → Bool) :
    l.filter (fun o => !(l.filter p).contains o) = l.filter (fun o => !p o) := by
  refine List.filter_congr fun x mem => congrArg _ ?_
  rw [Bool.eq_iff_iff, List.contains_iff_mem, List.mem_filter]
  exact and_iff_right mem

/-! ### What the aborted operations leave where nothing else waits for the erase -/

theorem satNat_satNat (w n : Nat) : satNat w (satNat w n + 1) = satNat w (n + 1) := by
  unfold satNat
  omega

/-- The abortions counted and the end of the erase logged, once it has come. -/
def EraseCounted (s : State) (e : SecErase) (n : Nat) (t : State) : Prop :=
  t.rd SEC_ABORTN = satNat 16 (s.rd SEC_ABORTN + n) ∧ t.slotGen e.slot = s.slotGen e.slot ∧
  (t.sec.erases = [] ∧ Logged s t 0x5012 e.owner (e.slot + s.slotGen e.slot * 2 ^ 8 + e.aborted * 2 ^ 16) ∨
    t.sec.erases = [e] ∧ t.events = s.events)

theorem secFinish_counted {s t : State} {e : SecErase} {n : Nat} (hk : e.slot < 32) (hi : e.item = none)
    (hc : e.command = false) (h : EraseCounted s e n t) (o : SecOp) :
    EraseCounted s e (n + 1) (t.secFinish o .keyRetired) := by
  obtain ⟨counted, gen, waits⟩ := h
  obtain ⟨⟨l, sec⟩, events, aborted, gens, -⟩ := opAborted_parts t o
  have erases : (t.opAborted o).sec.erases = t.sec.erases := by rw [sec]
  have next : (t.opAborted o).rd SEC_ABORTN = satNat 16 (s.rd SEC_ABORTN + (n + 1)) := by
    rw [aborted, counted, satNat_satNat, Nat.add_assoc]
  have kept : (t.opAborted o).slotGen e.slot = s.slotGen e.slot := (gens _ hk).trans gen
  rw [secFinish_aborts]
  rcases waits with ⟨done, logged⟩ | ⟨one, quiet⟩
  · have none : (t.opAborted o).sec.erases = [] := erases.trans done
    rw [settleErases_none none]
    exact ⟨next, kept, .inl ⟨none, by rw [Logged, events]; exact logged⟩⟩
  · have still : (t.opAborted o).sec.erases = [e] := erases.trans one
    by_cases held : (t.opAborted o).sec.ops.any e.heldBy = true
    · rw [settleErases_held still held]
      exact ⟨next, kept, .inr ⟨still, events.trans quiet⟩⟩
    · obtain ⟨-, none, -⟩ := eraseEnd_sec still
      rw [settleErases_one still (Bool.eq_false_iff.mpr held)]
      have apart : (SEC_S_STATE e.slot).free SEC_ABORTN = true := by
        refine free_of_key (show 2 ≤ 32 by decide) (by decide) (.inr ?_)
        simp only [Fld.key, regKey, SEC_S_STATE, SEC_ABORTN]
        omega
      refine ⟨?_, ?_, .inl ⟨none, ?_⟩⟩
      · rw [eraseEnd_quiet hi hc, rd_log, rd_raise_free (by decide), rd_slotShow _ _ apart, rd_setSec, next]
      · rw [eraseEnd_quiet hi hc, State.slotGen, rd_log,
          rd_raise_free (p := 0x0D0) (gen_free (by decide) (by decide)), ← State.slotGen, slotGen_slotShow,
          State.slotGen, rd_setSec, ← State.slotGen, kept]
      · rw [Logged, eraseEnd_quiet hi hc, kept]
        change (((t.opAborted o).setSec _).slotShow e.slot |>.raise 0x0D0 1).events ++ _ = _
        rw [part_of_except ((State.raise_same 1 rfl _ _ _).trans (State.slotShow_same 1 rfl _ _)) .events rfl]
        exact congrArg (· ++ _) (events.trans quiet)

theorem abortAll_counted {s t : State} {e : SecErase} {n : Nat} (hk : e.slot < 32) (hi : e.item = none)
    (hc : e.command = false) (h : EraseCounted s e n t) (l : List SecOp) :
    EraseCounted s e (n + l.length) (t.abortAll l) := by
  induction l generalizing t n with
  | nil => exact h
  | cons o r ih =>
    have last := ih (secFinish_counted hk hi hc h o)
    rw [List.length_cons, Nat.add_comm r.length, ← Nat.add_assoc]
    exact last

set_option autoImplicit false

theorem slotGen_waitUntil (s : State) (n k : Nat) (hk : k < 32) : (s.waitUntil n).slotGen k = s.slotGen k := by
  have outside : (SEC_S_GEN k).outside [0x010] = true := by
    have place : 0x500 + 4 * k < 4096 := by omega
    simp [Fld.outside, SEC_S_GEN, place]
  exact rd_of_past (State.waitUntil_past (P := [0x010]) rfl s n) outside

/-- The operations that an erase will abort are counted with it. -/
def State.eraseMarked (s : State) (e : SecErase) : State :=
  s.setSec fun x => { x with erases := x.erases.map fun y =>
    if y = e then { y with aborted := y.aborted + (s.sec.ops.filter e.heldBy).length } else y }

theorem eraseMarked_sec {s : State} {e : SecErase} (h : s.sec.erases = [e]) :
    (s.eraseMarked e).sec =
      { s.sec with erases := [{ e with aborted := e.aborted + (s.sec.ops.filter e.heldBy).length }] } := by
  rw [State.eraseMarked, State.setSec, h, List.map_singleton, if_pos rfl]

theorem eraseDeadline_command {s : State} {k : Fin 32} {e : SecErase} {n : Nat}
    (h : s.sec.erases.find? (·.slot == k.val) = some e) (hn : e.clk + msTicks 2 = n) :
    exec (.eraseDeadline k) s =
      .next (((s.waitUntil n).eraseMarked e).abortAll ((s.waitUntil n).sec.ops.filter e.heldBy)) := by
  change execEraseDeadline k s = _
  unfold execEraseDeadline
  dsimp only
  rw [h]
  dsimp only
  rw [hn]
  rfl

/-- The deadline of an erase aborts the operations that still hold its contents. -/
theorem eraseDeadline_aborts {s : State} {k : Fin 32} {e : SecErase} (he : s.sec.erases = [e]) (hk : e.slot = k.val)
    (hp : s.rd CTF_PERIOD ≠ 0) :
    Answers (.eraseDeadline k) s fun t =>
      e.clk + msTicks 2 ≤ t.clk ∧ t.sec.ops = s.sec.ops.filter (fun o => !e.heldBy o) ∧
      (s.sec.ops.any e.heldBy = true → t.sec.erases = [] ∧
        (e.item = none → e.command = false →
          t.rd SEC_ABORTN = satNat 16 (s.rd SEC_ABORTN + (s.sec.ops.filter e.heldBy).length) ∧
          Logged s t 0x5012 e.owner (e.slot + s.slotGen e.slot * 2 ^ 8 +
            (e.aborted + (s.sec.ops.filter e.heldBy).length) * 2 ^ 16))) := by
  generalize hn : e.clk + msTicks 2 = n
  generalize hl : s.sec.ops.filter e.heldBy = l
  generalize he' : ({ e with aborted := e.aborted + l.length } : SecErase) = e'
  have holds : e'.heldBy = e.heldBy := by
    rw [← he']
    rfl
  have small : e'.slot < 32 := by
    rw [← he']
    exact hk ▸ k.isLt
  have same : (s.waitUntil n).except 4289 = s.except 4289 := State.waitUntil_same 4289 rfl _ _
  have sec : (s.waitUntil n).sec = s.sec := part_of_except same .sec rfl
  have late := waitUntil_clk hp n
  have aborted : (s.waitUntil n).rd SEC_ABORTN = s.rd SEC_ABORTN :=
    rd_of_past (State.waitUntil_past (P := [0x010]) rfl s _) (by decide)
  have gen := slotGen_waitUntil s n e'.slot small
  have command := eraseDeadline_command (k := k) (n := n)
    (by rw [he]; exact List.find?_cons_of_pos (by rw [hk]; exact beq_self_eq_true _)) hn
  have vsec := eraseMarked_sec (s := s.waitUntil n) (e := e) (by rw [sec]; exact he)
  have vkept : ((s.waitUntil n).eraseMarked e).except 268435456 = (s.waitUntil n).except 268435456 :=
    State.setSec_same 268435456 rfl _ _
  rw [sec, hl] at command vsec
  rw [he'] at vsec
  generalize (s.waitUntil n).eraseMarked e = v at command vsec vkept
  have clk : (v.abortAll l).clk = (s.waitUntil n).clk := by
    refine (foldl_keeps (g := State.clk) (fun u x => ?_) l v).trans (part_of_except vkept .clk rfl)
    exact part_of_except (State.secFinish_same 34632376577 rfl _ _ _) .clk rfl
  refine ⟨_, command, by rw [clk]; exact late, ?_⟩
  by_cases any : s.sec.ops.any e.heldBy = true
  · obtain ⟨ops, waits⟩ := abortAll_waits (e := e') (s := v)
      (.inr ⟨by rw [vsec], by rw [vsec, holds]; exact any⟩) l
    have left : (v.abortAll l).sec.ops = s.sec.ops.filter (fun o => !e.heldBy o) := by
      rw [ops, vsec, ← hl]
      exact filter_not_contains_filter _ _
    have none : (v.abortAll l).sec.erases = [] := by
      rcases waits with done | ⟨-, held⟩
      · exact done
      · rw [left, holds, List.any_filter] at held
        simp at held
    refine ⟨left, fun _ => ⟨none, fun hi hc => ?_⟩⟩
    obtain ⟨counted, -, logged⟩ := abortAll_counted (s := s) (t := v) (e := e') (n := 0) small
      (by rw [← he']; exact hi) (by rw [← he']; exact hc)
      ⟨by rw [rd_of_except vkept rfl, aborted]; exact (Nat.min_eq_left (Nat.le_sub_one_of_lt (rd_lt _ rfl))).symm, by
        rw [State.slotGen, rd_of_except vkept rfl]; exact gen,
        .inr ⟨by rw [vsec], (part_of_except vkept .events rfl).trans (part_of_except same .events rfl)⟩⟩ l
    rw [Nat.zero_add] at counted
    refine ⟨counted, ?_⟩
    rcases logged with ⟨-, logged⟩ | ⟨still, -⟩
    · rw [← he'] at logged
      exact logged
    · exact absurd (none.symm.trans still) (by simp)
  · have empty : l = [] := by
      rw [← hl, List.filter_eq_nil_iff]
      intro o mem held
      exact any (List.any_eq_true.mpr ⟨o, mem, held⟩)
    refine ⟨?_, fun h => absurd h any⟩
    rw [empty]
    change v.sec.ops = _
    rw [vsec]
    refine (List.filter_eq_self.mpr fun o mem => ?_).symm
    rw [Bool.not_eq_true']
    exact Bool.eq_false_iff.mpr fun held => any (List.any_eq_true.mpr ⟨o, mem, held⟩)

/-! ### The random bit generator -/

theorem rbgFail_answers (s : State) :
    Answers .rbgFail s fun t =>
      t.on SEC_RBGERR = true ∧ t.rd SEC_RBGFAILN = satNat 16 (s.rd SEC_RBGFAILN + 1) ∧ t.sec.failed = some s.clk ∧
      (s.on SEC_RBGERR = false → bit (t.rd (IRQ_RAW 0x0D0)) 0 = true) := by
  generalize hu : ((s.wr SEC_RBGERR 1).count SEC_RBGFAILN).setSec (fun x => { x with failed := some s.clk }) = u
  have err : u.on SEC_RBGERR = true := by
    rw [← hu, on_setSec, on_count_free (by decide)]
    exact on_wr_b2n rfl (by decide) s true
  have failn : u.rd SEC_RBGFAILN = satNat 16 (s.rd SEC_RBGFAILN + 1) := by
    rw [← hu, rd_setSec, rd_count_same _ _ _ rfl, rd_wr_free (by decide)]
    rfl
  have command : exec .rbgFail s = .next (if s.on SEC_RBGERR then u else u.raise 0x0D0 0) := by
    rw [← hu]
    rfl
  refine ⟨_, command, ?_⟩
  split
  next old => exact ⟨err, failn, by rw [← hu]; rfl, fun h => absurd (old.symm.trans h) (by decide)⟩
  · refine ⟨by rw [on_raise_free (by decide)]; exact err, by rw [rd_raise_free (by decide)]; exact failn, ?_,
      fun _ => bit_raise_same _ _ (by decide)⟩
    rw [part_of_except (State.raise_same 1 rfl _ _ _) .sec rfl, ← hu]
    rfl

theorem rbgRecover_answers {s : State} {c : Nat} (he : s.on SEC_RBGERR = true) (hf : s.sec.failed = some c)
    (hp : s.rd CTF_PERIOD ≠ 0) :
    Answers .rbgRecover s fun t =>
      t.on SEC_RBGERR = false ∧ c + 48 * 1024 * 65536 ≤ t.clk ∧ bit (t.rd (IRQ_RAW 0x0D0)) 0 = true := by
  generalize hn : c + 48 * 1024 * 65536 = n
  have command : exec .rbgRecover s = .next (((s.waitUntil n).wr SEC_RBGERR 0).raise 0x0D0 0) := by
    change execRbgRecover s = _
    unfold execRbgRecover
    rw [if_pos he, hf]
    dsimp only
    rw [hn]
  refine ⟨_, command, ?_, ?_, bit_raise_same _ _ (by decide)⟩
  · rw [on_raise_free (by decide)]
    exact on_wr_b2n rfl (by decide) _ false
  · rw [part_of_except ((State.raise_same 1 rfl _ _ _).trans (State.wr_same 1 rfl _ _ _)) .clk rfl]
    exact waitUntil_clk hp n

/-! ### The field area of the OTP -/

theorem otpWord_burn (s : State) (i w : Nat) : (s.otpBurn i).otpWord w =
    if w = 120 + i / 64 then setBit (s.otpWord w) (i % 64) % 2 ^ 64 else s.otpWord w := by
  unfold State.otpBurn
  dsimp only
  split
  next same =>
    rw [same, State.otpWord, State.setSec, cellAt_put_same, BitVec.toNat_ofNat]
  next other => exact congrArg BitVec.toNat (cellAt_put_other _ _ other _ _)

/-- A programmed bit stands, and every other is as before. -/
theorem otpPhys_burn (s : State) (i j : Nat) : (s.otpBurn i).otpPhys j = (decide (j = i) || s.otpPhys j) := by
  have place : j % 64 < 64 := Nat.mod_lt _ (by decide)
  rw [State.otpPhys, otpWord_burn, State.otpPhys]
  split
  next same =>
    rw [bit_mod place]
    by_cases hj : j = i
    · rw [hj, bit_setBit_same, decide_eq_true rfl, Bool.true_or]
    · rw [decide_eq_false hj, Bool.false_or, bit_setBit_other (by omega)]
  next other =>
    have hj : j ≠ i := fun h => other (by rw [h])
    rw [decide_eq_false hj, Bool.false_or]

/-- A programmed field bit stands, and every other is as before. -/
theorem otpField_set (s : State) (j k : Nat) : (s.otpSet j).otpField k = (decide (k = j) || s.otpField k) := by
  unfold State.otpField
  by_cases hk : k = j
  · subst hk
    have all : ∀ i ∈ List.range 3, (s.otpSet k).otpPhys (3 * k + i) = true := by
      intro i hi
      have small := List.mem_range.mp hi
      rw [State.otpSet, otpPhys_burn, otpPhys_burn, otpPhys_burn]
      have which : i = 0 ∨ i = 1 ∨ i = 2 := by omega
      rcases which with rfl | rfl | rfl <;> simp
    rw [List.filter_eq_self.mpr all]
    simp
  · have same : ((List.range 3).filter fun i => (s.otpSet j).otpPhys (3 * k + i)) =
        (List.range 3).filter fun i => s.otpPhys (3 * k + i) := by
      refine List.filter_congr fun i hi => ?_
      have small := List.mem_range.mp hi
      rw [State.otpSet, otpPhys_burn, otpPhys_burn, otpPhys_burn, decide_eq_false (by omega), decide_eq_false
        (by omega),
        decide_eq_false (by omega), Bool.false_or, Bool.false_or, Bool.false_or]
    rw [same, decide_eq_false hk, Bool.false_or]

/-- One more field bit raises the rollback counter by at most one. -/
theorem rollback_set_le (s : State) (j : Nat) : (s.otpSet j).rollback ≤ s.rollback + 1 := by
  have count (l : List Nat) (hl : l.Nodup) :
      (l.filter (s.otpSet j).otpField).length ≤ (l.filter s.otpField).length + 1 := by
    have both : l.countP (s.otpSet j).otpField ≤ l.countP s.otpField + l.countP fun k => decide (k = j) := by
      rw [show (s.otpSet j).otpField = fun k => decide (k = j) || s.otpField k from funext fun k => otpField_set s j k]
      clear hl
      induction l with
      | nil => exact Nat.le_refl _
      | cons x r ih =>
        rw [List.countP_cons, List.countP_cons, List.countP_cons]
        by_cases hx : x = j
        · rw [decide_eq_true hx, Bool.true_or, if_pos rfl]
          omega
        · rw [decide_eq_false hx, Bool.false_or, if_neg Bool.false_ne_true]
          omega
    have once : (l.countP fun k => decide (k = j)) ≤ 1 := by
      have := List.nodup_iff_count_le_one.mp hl j
      rwa [List.count, show (fun k => k == j) = fun k => decide (k = j) from rfl] at this
    rw [← List.countP_eq_length_filter, ← List.countP_eq_length_filter]
    omega
  exact count _ List.nodup_range

/-- The field bits programmed one after another up to a count of `n`. -/
def State.rollbackTo (s : State) (n m : Nat) : State :=
  (List.range m).foldl (fun s j => if s.rollback < n then s.otpSet j else s) s

theorem rollbackTo_reaches {s : State} {n : Nat} (h : s.rollback < n) (m : Nat) :
    (s.rollbackTo n m).rollback ≤ n ∧
    ((s.rollbackTo n m).rollback = n ∨ ∀ j < m, (s.rollbackTo n m).otpField j = true) := by
  induction m with
  | zero => exact ⟨Nat.le_of_lt h, .inr fun j hj => absurd hj (Nat.not_lt_zero j)⟩
  | succ m ih =>
    obtain ⟨most, ih⟩ := ih
    have step : s.rollbackTo n (m + 1) =
        if (s.rollbackTo n m).rollback < n then (s.rollbackTo n m).otpSet m else s.rollbackTo n m := by
      rw [State.rollbackTo, List.range_succ, List.foldl_append]
      rfl
    rw [step]
    split
    next less =>
      have next := rollback_set_le (s.rollbackTo n m) m
      refine ⟨by omega, .inr fun j hj => ?_⟩
      rcases ih with reached | all
      · omega
      · rw [otpField_set]
        by_cases last : j = m
        · rw [decide_eq_true last, Bool.true_or]
        · rw [all j (by omega), Bool.or_true]
    next reached => exact ⟨most, .inl (by omega)⟩

theorem rollbackTo_eq {s : State} {n : Nat} (h : s.rollback < n) (hn : n ≤ 63) : (s.rollbackTo n 63).rollback = n := by
  obtain ⟨most, reached | all⟩ := rollbackTo_reaches h 63
  · exact reached
  · have full : (s.rollbackTo n 63).rollback = 63 := by
      rw [State.rollback, List.filter_eq_self.mpr fun j hj => all j (List.mem_range.mp hj), List.length_range]
    omega

set_option autoImplicit false

/-! ### Commands of SEC_OCMD -/

/-- The word that a command of bit `b` writes. -/
abbrev ocmdWord (w : RegWrite) (b : Nat) : Nat := (BitVec.ofNat 32 (setBit w.data.toNat b)).toNat

theorem ocmd_bit {s : State} {w : RegWrite} {b i : Nat} (h : SecOcmd s w b) (hi : i < 5) :
    bit (ocmdWord w b) i = decide (b = i) := by
  obtain ⟨-, word⟩ := h
  have low : bit (setBit w.data.toNat b % 2 ^ 5) i = bit (setBit w.data.toNat b) i := bit_mod hi
  have one : setBit w.data.toNat b % 2 ^ 5 = 2 ^ b := word
  rw [bit_ofNat (by omega), ← low, one, bit_eq_testBit, Nat.testBit_two_pow]

/-- A command of SEC_OCMD is answered, and does what its word asks for. -/
theorem ocmd_answers {c : Instr} {s : State} {w : RegWrite} {b : Nat} {P : State → Prop}
    (hc : exec c s = .next (s.writeReg secWrite 0x0D0 0x04C w fun d => setBit d b)) (h : SecOcmd s w b)
    (hP : P ((s.otpWrite (ocmdWord w b)).answer .ok)) : Answers c s P :=
  answers_write (f := fun d => setBit d b) (h := secWrite) hc (by decide) h.1 (if_pos rfl) hP

theorem otpDone_done (u : State) (c : Status) : OtpDone ((u.otpDone c).answer .ok) c := by
  refine ⟨rfl, ?_, ?_⟩
  · rw [rd_answer, State.otpDone, rd_raise_free (by decide)]
    exact rd_wr_lt rfl (codeOf_lt c) _
  · rw [rd_answer]
    exact bit_raise_same _ _ (by decide)

theorem otpDone_sec (u : State) (c : Status) : ((u.otpDone c).answer .ok).sec = u.sec :=
  part_of_except ((State.answer_same 513 rfl _ _).trans ((State.raise_same 513 rfl _ _ _).trans
    ((State.wr_same 513 rfl _ _ _).trans (State.otpShow_same 513 rfl _)))) .sec rfl

/-- The registers of page 0x0D0 that show the field area, once a command is done. -/
theorem otpDone_shows (u : State) (c : Status) :
    ((u.otpDone c).answer .ok).rd SEC_RBC = u.rollback % 2 ^ 6 ∧
    ((u.otpDone c).answer .ok).rd SEC_REVK = b2n (u.otpField 63) + 2 * b2n (u.otpField 64) ∧
    ((u.otpDone c).answer .ok).on SEC_IDRET = u.otpField 65 := by
  have shown {g : Fld} (h1 : (IRQ_RAW 0x0D0).free g = true) (h2 : SEC_O_CODE.free g = true) :
      ((u.otpDone c).answer .ok).rd g = u.otpShow.rd g := by
    rw [rd_answer, State.otpDone, rd_raise_free h1, rd_wr_free h2]
  refine ⟨?_, ?_, ?_⟩
  · rw [shown (by decide) (by decide), State.otpShow, rd_wr_free (by decide), rd_wr_free (by decide), rd_wr_same _ _ _
      rfl]
    rfl
  · rw [shown (by decide) (by decide), State.otpShow, rd_wr_free (by decide)]
    refine rd_wr_lt rfl ?_ _
    change b2n (u.otpField 63) + 2 * b2n (u.otpField 64) < 2 ^ 2
    cases u.otpField 63 <;> cases u.otpField 64 <;> decide
  · rw [State.on, shown (by decide) (by decide), State.otpShow]
    have fields : ((u.wr SEC_RBC u.rollback).wr SEC_REVK (b2n (u.otpField 63) + 2 * b2n (u.otpField 64))).otpField 65 =
        u.otpField 65 := rfl
    rw [fields]
    exact on_wr_b2n rfl (by decide) _ _

/-- Registers outside those that an OTP command shows. -/
theorem rd_otpDone (u : State) (c : Status) {g : Fld} (h0 : (IRQ_RAW 0x0D0).free g = true)
    (h1 : SEC_O_CODE.free g = true) (h2 : SEC_RBC.free g = true) (h3 : SEC_REVK.free g = true)
    (h4 : SEC_IDRET.free g = true) : ((u.otpDone c).answer .ok).rd g = u.rd g := by
  rw [rd_answer, State.otpDone, rd_raise_free h0, rd_wr_free h1, State.otpShow, rd_wr_free h4, rd_wr_free h3,
    rd_wr_free h2]

/-- Outside the write block and D3 a command keeps its code. -/
theorem unblocked_code {s : State} (hb : s.celBlocked = false) (hl : s.level < 3) (c : Status) :
    (if s.celBlocked = true ∨ 3 ≤ s.level then firstOf .powerLost c else c) = c :=
  if_neg (by rintro (blocked | low); · exact absurd (hb.symm.trans blocked) (by decide)
             · omega)

theorem otpCommand_performs {s : State} (hb : s.celBlocked = false) (hl : s.level < 3) (f : State → State) :
    s.otpCommand .ok f = (f s).otpDone .ok := by
  unfold State.otpCommand
  dsimp only
  rw [unblocked_code hb hl, if_pos rfl]

theorem otpCommand_refuses {s : State} (hb : s.celBlocked = false) (hl : s.level < 3) {c : Status} (hc : c ≠ .ok)
    (f : State → State) : s.otpCommand c f = s.otpDone c := by
  unfold State.otpCommand
  dsimp only
  rw [unblocked_code hb hl, if_neg hc]

theorem otpCommand_blocked {s : State} {c d : Status} (hb : s.celBlocked = true) (hd : firstOf .powerLost c = d)
    (hc : d ≠ .ok) (f : State → State) : s.otpCommand c f = s.otpDone d := by
  unfold State.otpCommand
  dsimp only
  rw [if_pos (c := s.celBlocked = true ∨ 3 ≤ s.level) (.inl hb), hd, if_neg hc]

/-! ### The rollback counter -/

theorem otpWrite_advance {s : State} {d : Nat} (h : ∀ i < 5, bit d i = decide (0 = i)) :
    s.otpWrite d = s.rollbackAdvance := by
  unfold State.otpWrite
  rw [h 0 (by decide), h 1 (by decide), h 2 (by decide), h 3 (by decide), h 4 (by decide)]
  rfl

theorem secRbadv_answers {s : State} {w : RegWrite} {P : State → Prop} (h : SecOcmd s w 0)
    (hP : P (s.rollbackAdvance.answer .ok)) : Answers (.secRbadv w) s P :=
  ocmd_answers rfl h (by rw [otpWrite_advance fun i hi => ocmd_bit h hi]; exact hP)

theorem rollbackAdvance_unbooted {s : State} (h : s.ccx.bootOk = false) : s.rollbackAdvance = s.otpDone .prot := by
  unfold State.rollbackAdvance
  dsimp only
  rw [h, if_pos (c := (!false) = true) rfl]
  cases hb : s.celBlocked with
  | true => exact otpCommand_blocked hb rfl (by decide) _
  | false =>
    unfold State.otpCommand
    dsimp only
    rw [show (if s.celBlocked = true ∨ 3 ≤ s.level then firstOf .powerLost .prot else Status.prot) = .prot from
      ite_self _]
    exact if_neg (by decide)

theorem rollbackAdvance_blocked {s : State} (h : s.ccx.bootOk = true) (hb : s.celBlocked = true) :
    s.rollbackAdvance = s.otpDone .powerLost := by
  unfold State.rollbackAdvance
  dsimp only
  rw [h, if_neg (c := (!true) = true) Bool.false_ne_true]
  split
  · exact otpCommand_blocked hb rfl (by decide) _
  · exact otpCommand_blocked hb rfl (by decide) _

theorem rollbackAdvance_skips {s : State} (h : s.ccx.bootOk = true) (hb : s.celBlocked = false) (hl : s.level < 3)
    (hn : s.rd MGC_B_SVN ≤ s.rollback) : s.rollbackAdvance = s.otpDone .skipped := by
  unfold State.rollbackAdvance
  dsimp only
  rw [h, if_neg (c := (!true) = true) Bool.false_ne_true, if_pos hn]
  exact otpCommand_refuses hb hl (by decide) _

theorem rollbackAdvance_advances {s : State} (h : s.ccx.bootOk = true) (hb : s.celBlocked = false) (hl : s.level < 3)
    (hn : s.rollback < s.rd MGC_B_SVN) : s.rollbackAdvance = (s.rollbackTo (s.rd MGC_B_SVN) 63).otpDone .ok := by
  unfold State.rollbackAdvance
  dsimp only
  rw [h, if_neg (c := (!true) = true) Bool.false_ne_true, if_neg (by omega)]
  exact otpCommand_performs hb hl _

theorem rollback_of_sec {s t : State} (h : t.sec = s.sec) : t.rollback = s.rollback := by
  have fields : t.otpField = s.otpField := by
    funext j
    unfold State.otpField State.otpPhys State.otpWord
    rw [h]
  rw [State.rollback, State.rollback, fields]

theorem otpField_of_sec {s t : State} (h : t.sec = s.sec) (j : Nat) : t.otpField j = s.otpField j := by
  unfold State.otpField State.otpPhys State.otpWord
  rw [h]

theorem secRbadv_advances {s : State} {w : RegWrite} (h : SecOcmd s w 0) (ho : s.ccx.bootOk = true)
    (hb : s.celBlocked = false) (hl : s.level < 3) (hn : s.rollback < s.rd MGC_B_SVN) :
    Answers (.secRbadv w) s fun t =>
      OtpDone t .ok ∧ t.rollback = s.rd MGC_B_SVN ∧ t.rd SEC_RBC = s.rd MGC_B_SVN := by
  have small : s.rd MGC_B_SVN < 64 := rd_lt s rfl
  have reached := rollbackTo_eq hn (by omega)
  refine secRbadv_answers h ?_
  rw [rollbackAdvance_advances ho hb hl hn]
  refine ⟨otpDone_done _ _, (rollback_of_sec (otpDone_sec _ _)).trans reached, ?_⟩
  rw [(otpDone_shows _ _).1, reached]
  exact Nat.mod_eq_of_lt small

/-! ### The root keys -/

/-- The command that revokes root key `k`. -/
def State.revokeKey (s : State) (k : Nat) : State :=
  s.otpCommand (if s.ccx.kidx = k then .prot else .ok) fun s => s.otpSet (63 + k)

theorem otpWrite_revoke0 {s : State} {d : Nat} (h : ∀ i < 5, bit d i = decide (1 = i)) :
    s.otpWrite d = s.revokeKey 0 := by
  unfold State.otpWrite
  rw [h 0 (by decide), h 1 (by decide), h 2 (by decide), h 3 (by decide), h 4 (by decide)]
  rfl

theorem otpWrite_revoke1 {s : State} {d : Nat} (h : ∀ i < 5, bit d i = decide (2 = i)) :
    s.otpWrite d = s.revokeKey 1 := by
  unfold State.otpWrite
  rw [h 0 (by decide), h 1 (by decide), h 2 (by decide), h 3 (by decide), h 4 (by decide)]
  rfl

theorem revokeKey_revokes {s : State} {k : Nat} (hb : s.celBlocked = false) (hl : s.level < 3) (hk : s.ccx.kidx ≠ k) :
    s.revokeKey k = (s.otpSet (63 + k)).otpDone .ok := by
  rw [State.revokeKey, if_neg hk, otpCommand_performs hb hl]

theorem revokeKey_protects {s : State} {k : Nat} (hb : s.celBlocked = false) (hl : s.level < 3) (hk : s.ccx.kidx = k) :
    s.revokeKey k = s.otpDone .prot := by
  rw [State.revokeKey, if_pos hk, otpCommand_refuses hb hl (by decide)]

/-- A root key just revoked is shown. -/
theorem otpSet_shown (s : State) {k : Nat} (hk : k < 2) :
    (((s.otpSet (63 + k)).otpDone .ok).answer .ok).otpField (63 + k) = true ∧
    bit ((((s.otpSet (63 + k)).otpDone .ok).answer .ok).rd SEC_REVK) k = true := by
  have set : (s.otpSet (63 + k)).otpField (63 + k) = true := by
    rw [otpField_set, decide_eq_true rfl, Bool.true_or]
  refine ⟨(otpField_of_sec (otpDone_sec _ _) _).trans set, ?_⟩
  rw [(otpDone_shows _ _).2.1]
  have which : k = 0 ∨ k = 1 := by omega
  rcases which with rfl | rfl
  · rw [show (s.otpSet (63 + 0)).otpField 63 = true from set]
    cases (s.otpSet (63 + 0)).otpField 64 <;> decide
  · rw [show (s.otpSet (63 + 1)).otpField 64 = true from set]
    cases (s.otpSet (63 + 1)).otpField 63 <;> decide

theorem secRevk0_answers {s : State} {w : RegWrite} (hb : s.celBlocked = false) (hl : s.level < 3) (h : SecOcmd s w 1) :
    (s.ccx.kidx ≠ 0 →
      Answers (.secRevk0 w) s fun t => OtpDone t .ok ∧ t.otpField 63 = true ∧ bit (t.rd SEC_REVK) 0 = true) ∧
    (s.ccx.kidx = 0 → Answers (.secRevk0 w) s fun t => OtpDone t .prot ∧ t.sec = s.sec) := by
  have word : s.otpWrite (ocmdWord w 1) = s.revokeKey 0 := otpWrite_revoke0 fun i hi => ocmd_bit h hi
  refine ⟨fun hk => ocmd_answers rfl h ?_, fun hk => ocmd_answers rfl h ?_⟩
  · rw [word, revokeKey_revokes hb hl hk]
    exact ⟨otpDone_done _ _, otpSet_shown s (by decide)⟩
  · rw [word, revokeKey_protects hb hl hk]
    exact ⟨otpDone_done _ _, otpDone_sec _ _⟩

theorem secRevk1_answers {s : State} {w : RegWrite} (hb : s.celBlocked = false) (hl : s.level < 3) (h : SecOcmd s w 2) :
    (s.ccx.kidx ≠ 1 →
      Answers (.secRevk1 w) s fun t => OtpDone t .ok ∧ t.otpField 64 = true ∧ bit (t.rd SEC_REVK) 1 = true) ∧
    (s.ccx.kidx = 1 → Answers (.secRevk1 w) s fun t => OtpDone t .prot ∧ t.sec = s.sec) := by
  have word : s.otpWrite (ocmdWord w 2) = s.revokeKey 1 := otpWrite_revoke1 fun i hi => ocmd_bit h hi
  refine ⟨fun hk => ocmd_answers rfl h ?_, fun hk => ocmd_answers rfl h ?_⟩
  · rw [word, revokeKey_revokes hb hl hk]
    exact ⟨otpDone_done _ _, otpSet_shown s (by decide)⟩
  · rw [word, revokeKey_protects hb hl hk]
    exact ⟨otpDone_done _ _, otpDone_sec _ _⟩

/-! ### The identity key -/

theorem secIdarm_answers {s : State} {w : RegWrite} (h : SecOcmd s w 3) :
    Answers (.secIdarm w) s fun t => t.resp.code = .ok ∧ t.sec = { s.sec with armed := some s.ticks } := by
  have word : s.otpWrite (ocmdWord w 3) = s.setSec fun x => { x with armed := some s.ticks } := by
    unfold State.otpWrite
    rw [ocmd_bit h (i := 0) (by decide), ocmd_bit h (i := 1) (by decide), ocmd_bit h (i := 2) (by decide),
      ocmd_bit h (i := 3) (by decide), ocmd_bit h (i := 4) (by decide)]
    rfl
  refine ocmd_answers rfl h ?_
  rw [word]
  exact ⟨rfl, rfl⟩

theorem otpWrite_retire {s : State} {d : Nat} (h : ∀ i < 5, bit d i = decide (4 = i)) :
    s.otpWrite d = s.retireIdentity := by
  unfold State.otpWrite
  rw [h 0 (by decide), h 1 (by decide), h 2 (by decide), h 3 (by decide), h 4 (by decide)]
  rfl

/-- The erase of slot 0 that nothing waits for takes the identity key away. -/
theorem eraseSlot_identity {s : State} (he : s.sec.erases = []) :
    (s.eraseSlot 0 none false 0).slotType 0 = 0 ∧ (s.eraseSlot 0 none false 0).on SEC_IDOK = false := by
  obtain ⟨type, -, sec, -, -, -, -, -, gone⟩ :=
    eraseBegun_parts (k := 0) (e := s.eraseOf 0 none false 0) (by decide) he rfl
  have waits : (s.eraseBegun 0 (s.eraseOf 0 none false 0)).sec.erases = [s.eraseOf 0 none false 0] := by rw [sec]
  rw [eraseSlot_eq]
  by_cases held : (s.eraseBegun 0 (s.eraseOf 0 none false 0)).sec.ops.any (s.eraseOf 0 none false 0).heldBy = true
  · rw [settleErases_held waits held]
    exact ⟨type, gone rfl⟩
  · rw [settleErases_one waits (Bool.eq_false_iff.mpr held), eraseEnd_quiet rfl rfl]
    have stateType : (SEC_S_STATE (s.eraseOf 0 none false 0).slot).free (SEC_S_TYPE 0) = true :=
      (by decide : (SEC_S_STATE 0).free (SEC_S_TYPE 0) = true)
    have stateOk : (SEC_S_STATE (s.eraseOf 0 none false 0).slot).free SEC_IDOK = true :=
      (by decide : (SEC_S_STATE 0).free SEC_IDOK = true)
    refine ⟨?_, ?_⟩
    · rw [State.slotType, rd_log, rd_raise_free (by decide), rd_slotShow _ _ stateType, rd_setSec]
      exact type
    · rw [on_log, on_raise_free (by decide), State.on, rd_slotShow _ _ stateOk, rd_setSec]
      exact gone rfl

theorem secIdretire_retires {s : State} {w : RegWrite} {a : Nat} (hb : s.celBlocked = false) (hl : s.level < 3)
    (h : SecOcmd s w 4) (ha : s.sec.armed = some a) (ht : s.ticks ≤ a + 65536) (he : s.sec.erases = []) :
    Answers (.secIdretire w) s fun t =>
      OtpDone t .ok ∧ t.otpField 65 = true ∧ t.on SEC_IDRET = true ∧ t.on SEC_IDOK = false ∧ t.slotType 0 = 0 := by
  generalize hu : (s.setSec fun x => { x with armed := none }) = u
  have word : s.otpWrite (ocmdWord w 4) = ((u.eraseSlot 0 none false 0).otpSet 65).otpDone .ok := by
    rw [otpWrite_retire fun i hi => ocmd_bit h hi, ← otpCommand_performs
      (f := fun s => (s.eraseSlot 0 none false 0).otpSet 65)
      (by rw [← hu, State.celBlocked, on_setSec]; exact hb) (by rw [← hu, State.level, rd_setSec]; exact hl)]
    unfold State.retireIdentity
    dsimp only
    rw [ha, hu]
    dsimp only
    rw [if_pos (decide_eq_true ht)]
  obtain ⟨type, gone⟩ := eraseSlot_identity (s := u) (by rw [← hu]; exact he)
  generalize u.eraseSlot 0 none false 0 = v at word type gone
  have set : (v.otpSet 65).otpField 65 = true := by
    rw [otpField_set, decide_eq_true rfl, Bool.true_or]
  have regs : (v.otpSet 65).except 268435456 = v.except 268435456 := State.otpSet_same 268435456 rfl _ _
  refine ocmd_answers rfl h ?_
  rw [word]
  refine ⟨otpDone_done _ _, (otpField_of_sec (otpDone_sec _ _) _).trans set, (otpDone_shows _ _).2.2.trans set, ?_, ?_⟩
  · rw [State.on, rd_otpDone _ _ (by decide) (by decide) (by decide) (by decide) (by decide), rd_of_except regs rfl]
    exact gone
  · rw [State.slotType, rd_otpDone _ _ (by decide) (by decide) (by decide) (by decide) (by decide),
      rd_of_except regs rfl]
    exact type

theorem secIdretire_refuses {s : State} {w : RegWrite} (hb : s.celBlocked = false) (hl : s.level < 3)
    (h : SecOcmd s w 4) (ha : s.sec.armed = none ∨ ∃ a, s.sec.armed = some a ∧ a + 65536 < s.ticks) :
    Answers (.secIdretire w) s fun t => OtpDone t .timeout ∧ t.sec.otp = s.sec.otp ∧ t.sec.mats = s.sec.mats := by
  generalize hu : (s.setSec fun x => { x with armed := none }) = u
  have word : s.otpWrite (ocmdWord w 4) = u.otpDone .timeout := by
    rw [otpWrite_retire fun i hi => ocmd_bit h hi, ← otpCommand_refuses
      (f := fun s => (s.eraseSlot 0 none false 0).otpSet 65)
      (by rw [← hu, State.celBlocked, on_setSec]; exact hb) (by rw [← hu, State.level, rd_setSec]; exact hl)
      (show Status.timeout ≠ .ok by decide)]
    unfold State.retireIdentity
    dsimp only
    rw [hu]
    rcases ha with none | ⟨a, armed, late⟩
    · rw [none]
      rfl
    · rw [armed]
      dsimp only
      rw [if_neg (by rw [decide_eq_false (by omega)]; decide)]
  refine ocmd_answers rfl h ?_
  rw [word]
  refine ⟨otpDone_done _ _, ?_, ?_⟩
  · rw [otpDone_sec, ← hu]
    rfl
  · rw [otpDone_sec, ← hu]
    rfl

/-- Settles O45. -/
theorem securityEndsComplete : Obligations.SecurityEndsComplete := by
  unfold Obligations.SecurityEndsComplete
  refine ⟨?_, ?_, fun s k e he hk hp => eraseDeadline_aborts he hk hp, rbgFail_answers,
    fun s c he hf hp => rbgRecover_answers he hf hp, fun s w h => ⟨fun ho => ?_, fun ho hb => ?_, fun ho hb hl =>
      ⟨fun hn => ?_, fun hn => secRbadv_advances h ho hb hl hn⟩⟩, fun s w hb hl => ⟨fun h => secRevk0_answers hb hl h,
      fun h => secRevk1_answers hb hl h, fun h => secIdarm_answers h, fun h =>
        ⟨fun a ha ht he => secIdretire_retires hb hl h ha ht he, fun ha => secIdretire_refuses hb hl h ha⟩⟩⟩
  · rintro s u o w h rfl hc he
    exact ⟨fun hp hs hh hr => secOpComplete_records h hc he hp hs hh hr,
      fun p hp hk ht => secOpComplete_rewrites h hc he hp hk ht⟩
  · intro s u x k h hk hp he hl
    exact ⟨fun ho => erase_completes h hk hp he hl ho, fun ho => erase_waits h hk hp he ho⟩
  · refine secRbadv_answers h ?_
    rw [rollbackAdvance_unbooted ho]
    exact ⟨otpDone_done _ _, otpDone_sec _ _⟩
  · refine secRbadv_answers h ?_
    rw [rollbackAdvance_blocked ho hb]
    exact ⟨otpDone_done _ _, otpDone_sec _ _⟩
  · refine secRbadv_answers h ?_
    rw [rollbackAdvance_skips ho hb hl hn]
    exact ⟨otpDone_done _ _, otpDone_sec _ _⟩

end Sys2Proof.Machine

/-! ## The rings, commands, scrubber, protection, port and wipes of the Cellar -/

namespace Sys2Proof.Machine

open Reg

set_option autoImplicit false

/-! ### The ring of a tenant of the Cellar -/

theorem celRing_of_rd {s t : State} {k : Nat}
    (h : ∀ g : Fld, g.page = 0x0D8 → 0x200 ≤ g.off → g.off < 0x20C + 16 * k → g.lo + g.width ≤ 32 → t.rd g = s.rd g) :
    t.celRing k = s.celRing k := by
  unfold State.celRing
  rw [h (CEL_RB_LO k) rfl (by simp only [CEL_RB_LO]; omega) (by simp only [CEL_RB_LO]; omega)
      (by simp only [CEL_RB_LO]; omega),
    h (CEL_RB_HI k) rfl (by simp only [CEL_RB_HI]; omega) (by simp only [CEL_RB_HI]; omega)
      (by simp only [CEL_RB_HI]; omega),
    h (CEL_RSL k) rfl (by simp only [CEL_RSL]; omega) (by simp only [CEL_RSL]; omega)
      (by simp only [CEL_RSL]; omega),
    h (CEL_RCL k) rfl (by simp only [CEL_RCL]; omega) (by simp only [CEL_RCL]; omega)
      (by simp only [CEL_RCL]; omega)]

/-- The page of the Cellar lies below the context pages. -/
theorem cel_low {g : Fld} {k : Nat} (hk : k < 64) (hp : g.page = 0x0D8) (ho : g.off < 0x20C + 16 * k) :
    g.key + 4 ≤ 0x300000 := by
  simp only [Fld.key, regKey, hp]
  omega

theorem celRing_outcome (s : State) {k : Nat} (hk : k < 64) (t r item : Nat) (c : Status) :
    (s.outcome t r c item).celRing k = s.celRing k :=
  celRing_of_rd fun _ hp _ ho hg => rd_outcome_low (cel_low hk hp ho) hg s t r c item

/-- A record is written at once where the ring is not stopped, holds none back and has room. -/
theorem celRecord_room {s : State} {t w : Nat} {c : Status}
    (ring : (s.outcome t resCel c (cdItem w)).celRing t = s.celRing t) (n corr : Nat)
    (hs : s.cel.stopped.contains t = false) (hh : ∀ h ∈ s.cel.held, h.key ≠ t)
    (hr : s.cmdRoom (s.celRing t) = true) :
    s.celRecord t w c n corr =
      (s.outcome t resCel c (cdItem w)).cmdPut (s.celRing t) (celRecordOf s w c n corr) := by
  have same : (s.outcome t resCel c (cdItem w)).except 8193 = s.except 8193 := State.outcome_same 8193 rfl _ _ _ _ _
  have cel : (s.outcome t resCel c (cdItem w)).cel = s.cel := part_of_except same .cel rfl
  have room : (s.outcome t resCel c (cdItem w)).cmdRoom (s.celRing t) = true :=
    (cmdRoom_of_mem (part_of_except same .mem rfl) _).trans hr
  have now : (s.outcome t resCel c (cdItem w)).stamp = s.stamp := by
    rw [State.stamp, State.stamp, part_of_except same .ctf rfl]
  have free : s.cel.held.any (·.key == t) = false := by
    simpa using hh
  unfold State.celRecord
  dsimp only
  rw [ring, cel, hs, free, room, now]
  rfl

section
variable {g : Fld} (hk : g.key + 4 ≤ 0x300000) (hg : g.lo + g.width ≤ 32)
include hk hg

theorem rd_celRecord (s : State) (t w : Nat) (c : Status) (n corr : Nat) :
    (s.celRecord t w c n corr).rd g = s.rd g := by
  unfold State.celRecord
  dsimp only
  split
  · exact rd_outcome_low hk hg s _ _ _ _
  · split
    · rw [rd_setCel, rd_outcome_low hk hg]
    · exact (rd_of_except (State.cmdPut_same 34359738368 rfl _ _ _) rfl g).trans (rd_outcome_low hk hg s _ _ _ _)

end

theorem ringIdx_celRecord (s : State) {t : Nat} (ht : t < 64) (w : Nat) (c : Status) (n corr : Nat)
    {a : Nat} (h : a + 2 ≤ (s.celRing t).base + 0x08) :
    (s.celRecord t w c n corr).ringIdx a = s.ringIdx a := by
  have memory : (s.outcome t resCel c (cdItem w)).mem = s.mem :=
    part_of_except (State.outcome_same 8193 rfl _ _ _ _ _) .mem rfl
  unfold State.celRecord
  dsimp only
  rw [celRing_outcome s ht]
  split
  · exact ringIdx_of_mem memory a
  · split
    · exact ringIdx_of_mem memory a
    · rw [ringIdx_cmdPut _ _ _ h, ringIdx_of_mem memory]

/-- A descriptor taken is refused, or an item of its cost taken from the quota. -/
theorem celTake_cases (s : State) (t : Nat) :
    (∃ w c, s.celTake t = (s.celRecord t w c 0 0).cmdTaken (s.celRing t)) ∨
    ∃ n f, s.celTake t = ((s.quotaPut 4 t n).setCel f).cmdTaken (s.celRing t) := by
  unfold State.celTake
  dsimp only
  split
  · exact .inl ⟨_, _, rfl⟩
  · generalize (if cdOp (s.cmdNext (s.celRing t)) = 1 then 0 else cdNgrp (s.cmdNext (s.celRing t))) = cost
    unfold State.takeQuota
    split
    next taken =>
      split at taken
      · exact absurd taken (by simp)
      · obtain rfl := Option.some.inj taken
        exact .inr ⟨_, _, rfl⟩
    · exact .inl ⟨_, _, rfl⟩

theorem rd_celTake {g : Fld} (hk : g.key + 4 ≤ 0x300000) (hg : g.lo + g.width ≤ 32) (s : State) (t : Nat) :
    (s.celTake t).rd g = s.rd g := by
  obtain ⟨w, c, refused⟩ | ⟨n, f, queued⟩ := celTake_cases s t
  · rw [refused, rd_of_except (State.cmdTaken_same 34359738368 rfl _ _) rfl, rd_celRecord hk hg]
  · rw [queued, rd_of_except (State.cmdTaken_same 34359738368 rfl _ _) rfl, rd_setCel, rd_quotaPut_low hk hg]

/-- Taking a descriptor moves the tail index by one and leaves the head. -/
theorem celTake_indices (s : State) {t : Nat} (ht : t < 64) :
    (s.celTake t).ringIdx ((s.celRing t).base + 0x04) = (s.ringIdx ((s.celRing t).base + 0x04) + 1) % 65536 ∧
    (s.celTake t).ringIdx (s.celRing t).base = s.ringIdx (s.celRing t).base := by
  obtain ⟨w, c, refused⟩ | ⟨n, f, queued⟩ := celTake_cases s t
  · rw [refused, ringIdx_cmdTaken, ringIdx_cmdTaken_other _ _ (by omega), ringIdx_celRecord s ht _ _ _ _ (by omega),
      ringIdx_celRecord s ht _ _ _ _ (by omega)]
    exact ⟨rfl, rfl⟩
  · have memory : ((s.quotaPut 4 t n).setCel f).mem = s.mem :=
      part_of_except (State.quotaPut_same 8193 rfl _ _ _ _) .mem rfl
    rw [queued, ringIdx_cmdTaken, ringIdx_cmdTaken_other _ _ (by omega), ringIdx_of_mem memory, ringIdx_of_mem memory]
    exact ⟨rfl, rfl⟩

/-- One new descriptor is the only one taken. -/
theorem celTakes_one {s : State} {t : Nat} (ht : t < 64) (hh : ∀ h ∈ s.cel.held, h.key ≠ t)
    (h1 : s.cmdNew (s.celRing t) = 1) : State.celTakes t 256 s = s.celTake t := by
  obtain ⟨tail, head⟩ := celTake_indices s ht
  have ring : (s.celTake t).celRing t = s.celRing t :=
    celRing_of_rd fun _ hp _ ho hg => rd_celTake (cel_low ht hp ho) hg s t
  have free : ¬s.cel.held.any (·.key == t) = true := by
    simpa using hh
  have none : (s.celTake t).cmdNew (s.celRing t) = 0 := by
    rw [State.cmdNew, tail, head, cmdNew_one h1]
    omega
  rw [State.celTakes, if_neg (by rintro (same | held); · omega
                                 · exact free held), State.celTakes, if_pos (.inl (by rw [ring, none]))]

theorem celRelease_none {s : State} {t : Nat} (hh : ∀ h ∈ s.cel.held, h.key ≠ t) (n : Nat) :
    State.celRelease t (n + 1) s = s := by
  rw [State.celRelease, List.find?_eq_none.mpr (by simpa using hh)]

/-! ### The checks of a descriptor beside the fault bit of its ring -/

theorem celRfault_free {k : Nat} {g : Fld} (hg : g.lo + g.width ≤ 32) (hk : k < 64)
    (h : g.key < 0xD8200 ∨ 0xD8600 ≤ g.key) : (CEL_RFAULT k).free g = true :=
  free_of_key (show 1 ≤ 32 by decide) hg (by simp only [Fld.key, regKey, CEL_RFAULT] at h ⊢; omega)

theorem celRing_rfault (s : State) (k v : Nat) : (s.wr (CEL_RFAULT k) v).celRing k = s.celRing k := by
  have apart {o lo w : Nat} (ho : o + 4 ≤ 0x20C) (hg : lo + w ≤ 32) :
      (s.wr (CEL_RFAULT k) v).rd ⟨0x0D8, o + 16 * k, lo, w⟩ = s.rd ⟨0x0D8, o + 16 * k, lo, w⟩ := by
    have free : (CEL_RFAULT k).free ⟨0x0D8, o + 16 * k, lo, w⟩ = true :=
      free_of_off rfl (show 1 ≤ 32 by decide) hg (Or.inr (by simp only [CEL_RFAULT]; omega))
    exact rd_wr_free free s v
  have lo : (s.wr (CEL_RFAULT k) v).rd (CEL_RB_LO k) = s.rd (CEL_RB_LO k) := apart (by decide) (by decide)
  have hi : (s.wr (CEL_RFAULT k) v).rd (CEL_RB_HI k) = s.rd (CEL_RB_HI k) := apart (by decide) (by decide)
  have sl : (s.wr (CEL_RFAULT k) v).rd (CEL_RSL k) = s.rd (CEL_RSL k) := apart (by decide) (by decide)
  have cl : (s.wr (CEL_RFAULT k) v).rd (CEL_RCL k) = s.rd (CEL_RCL k) := apart (by decide) (by decide)
  unfold State.celRing
  rw [lo, hi, sl, cl]

/-- The checks on a descriptor read the memory, the windows and the slots, not the ring's fault bit. -/
theorem celCheck_rfault (s : State) {k : Nat} (hk : k < 64) (v w : Nat) :
    (s.wr (CEL_RFAULT k) v).celCheck k w = s.celCheck k w := by
  have rest {g : Fld} (hg : g.lo + g.width ≤ 32) (h : g.key < 0xD8200 ∨ 0xD8600 ≤ g.key) :
      (s.wr (CEL_RFAULT k) v).rd g = s.rd g := rd_wr_free (celRfault_free hg hk h) s v
  have may (write : Bool) (a n : Nat) :
      (s.wr (CEL_RFAULT k) v).tenantMay k write a n = s.tenantMay k write a n :=
    tenantMay_of_rd (fun f hf h => rest hf (by omega)) hk write a n
  have tenant : (s.wr (CEL_RFAULT k) v).tenant k = s.tenant k := by
    refine rest ?_ ?_
    · simp only [TNC_TST]
      omega
    · simp only [Fld.key, regKey, TNC_TST]
      omega
  have unit (lo wd : Nat) (hw : lo + wd ≤ 32) :
      (s.wr (CEL_RFAULT k) v).rd ⟨0x0D8, 0x100 + 4 * cdUnit w, lo, wd⟩ =
      s.rd ⟨0x0D8, 0x100 + 4 * cdUnit w, lo, wd⟩ := by
    have small : cdUnit w < 64 := Nat.mod_lt _ (by decide)
    exact rest hw (.inl (by simp only [Fld.key, regKey]; omega))
  have state : (s.wr (CEL_RFAULT k) v).unitState (cdUnit w) = s.unitState (cdUnit w) := unit 8 2 (by decide)
  have holder : (s.wr (CEL_RFAULT k) v).unitHolder (cdUnit w) = s.unitHolder (cdUnit w) := unit 0 6 (by decide)
  have covered : (s.wr (CEL_RFAULT k) v).unitCovered (cdUnit w) = s.unitCovered (cdUnit w) := by
    rw [State.unitCovered, State.unitCovered, rest (by decide) (by decide)]
  have reach : (s.wr (CEL_RFAULT k) v).celMay k w = s.celMay k w := by
    simp only [State.celMay, State.celNames, State.unitHeld, state, holder, may]
  simp only [State.celCheck, tenant, reach, covered]

/-! ### The poll -/

/-- A ring outside the windows, or with too many new descriptors, faults once. -/
theorem celRingPoll_faults {s : State} {k : Fin 64} (he : s.on CEL_EN = true) (hr : s.on (CEL_REN k.val) = true)
    (hl : s.level < 3) (hs : s.cel.stopped.contains k.val = false) (hb : s.celBlocked = false)
    (hbad : s.cmdRingMay k.val (s.celRing k.val) = false ∨ 2 ^ (s.celRing k.val).sl < s.cmdNew (s.celRing k.val))
    (hf : s.on (CEL_RFAULT k.val) = false) :
    Answers (.celRingPoll k) s fun t =>
      t.on (CEL_RFAULT k.val) = true ∧ bit (t.rd (IRQ_RAW 0x0D8)) 4 = true ∧ Logged s t 0x5007 k.val 0 ∧
      SameBut [.regs, .events] s t := by
  have command : exec (.celRingPoll k) s =
      .next (((s.wr (CEL_RFAULT k.val) 1).raise 0x0D8 4).log 0x5007 k.val 0) := by
    change execCelRingPoll k s = _
    unfold execCelRingPoll
    dsimp only
    rw [if_neg (by rw [he, hr, hs, hb, decide_eq_false (by omega)]; decide), if_pos (by simpa using hbad),
      if_neg (by rw [hf]; decide)]
  have apart : (IRQ_RAW 0x0D8).free (CEL_RFAULT k.val) = true :=
    free_of_off rfl (show 32 ≤ 32 by decide) (show 0 + 1 ≤ 32 by decide)
      (.inl (by simp only [IRQ_RAW, CEL_RFAULT]; omega))
  refine ⟨_, command, ?_, ?_, ?_, sameBut_of_except ((State.log_same 257 rfl _ _ _ _).trans
    ((State.raise_same 257 rfl _ _ _).trans (State.wr_same 257 rfl _ _ _)))⟩
  · rw [on_log, State.raise, on_wr_free apart]
    exact on_wr_b2n rfl (show 0 < 1 by decide) _ true
  · rw [rd_log]
    exact bit_raise_same _ _ (by decide)
  · rfl

/-- A poll of a ring with one new descriptor takes it. -/
theorem celRingPoll_command {s : State} {k : Fin 64} (he : s.on CEL_EN = true) (hr : s.on (CEL_REN k.val) = true)
    (hl : s.level < 3) (hs : s.cel.stopped.contains k.val = false) (hb : s.celBlocked = false)
    (hm : s.cmdRingMay k.val (s.celRing k.val) = true) (h1 : s.cmdNew (s.celRing k.val) = 1)
    (hh : ∀ h ∈ s.cel.held, h.key ≠ k.val) :
    exec (.celRingPoll k) s = .next ((s.wr (CEL_RFAULT k.val) 0).celTake k.val) := by
  have ring := celRing_rfault s k.val 0
  have new : (s.wr (CEL_RFAULT k.val) 0).cmdNew (s.celRing k.val) = 1 :=
    (cmdNew_of_mem (part_of_except (State.wr_same 1 rfl _ _ _) .mem rfl) _).trans h1
  change execCelRingPoll k s = _
  unfold execCelRingPoll
  dsimp only
  rw [if_neg (by rw [he, hr, hs, hb, decide_eq_false (by omega)]; decide), h1, hm,
    if_neg (by simp), celRelease_none (s := s.wr (CEL_RFAULT k.val) 0) hh 255,
    celTakes_one (s := s.wr (CEL_RFAULT k.val) 0) k.isLt hh (by rw [ring]; exact new)]

/-- What a command costs its tenant: its groups, where it writes. -/
def celCost (w : Nat) : Nat := if cdOp w = 1 then 0 else cdNgrp w

/-- The descriptor taken is admitted within its quota. -/
theorem celTake_admits {s : State} {t : Nat} (hc : s.celCheck t (s.cmdNext (s.celRing t)) = none)
    (hq : (s.takeQuota 4 t (celCost (s.cmdNext (s.celRing t)))).isSome = true) :
    (s.celTake t).cel.items = s.cel.items ++ [⟨t, s.rd (TNC_CLASS t), BitVec.ofNat 512 (s.cmdNext (s.celRing t)),
      celCost (s.cmdNext (s.celRing t)), s.periodOf 4, stampNat s.stamp⟩] := by
  obtain ⟨u, taken⟩ := Option.isSome_iff_exists.mp hq
  have cel : u.cel = s.cel := by
    unfold State.takeQuota at taken
    split at taken
    · exact absurd taken (by simp)
    · obtain rfl := Option.some.inj taken
      exact part_of_except (State.quotaPut_same 8193 rfl _ _ _ _) .cel rfl
  unfold State.celTake
  dsimp only
  rw [hc]
  dsimp only
  rw [← celCost, taken]
  change u.cel.items ++ _ = _
  rw [cel]

/-- The word of the next descriptor. -/
theorem cmdNext_word (s : State) (r : CmdRing) : (BitVec.ofNat 512 (s.cmdNext r)).toNat = s.cmdNext r := by
  have small := leNat_lt (s.bytes (r.desc (s.ringIdx (r.base + 0x04))) 64)
  rw [State.bytes, memBytes_length] at small
  have bound : s.cmdNext r < 256 ^ 64 := small
  generalize s.cmdNext r = w at bound ⊢
  rw [BitVec.toNat_ofNat, Nat.mod_eq_of_lt (by omega)]

/-- The descriptor that fails a check leaves its record in the ring. -/
theorem celTake_refuses {s : State} {t : Nat} (ht : t < 64) {c : Status}
    (hc : s.celCheck t (s.cmdNext (s.celRing t)) = some c) (hs : s.cel.stopped.contains t = false)
    (hh : ∀ h ∈ s.cel.held, h.key ≠ t) (hr : s.cmdRoom (s.celRing t) = true) :
    (s.celTake t).cel = s.cel ∧
    (s.celTake t).ringIdx ((s.celRing t).base + 0x08) = (s.ringIdx ((s.celRing t).base + 0x08) + 1) % 65536 ∧
    (s.celTake t).bytes ((s.celRing t).rec' (s.ringIdx ((s.celRing t).base + 0x08))) 32 =
      leBytes 32 (celRecordOf s (s.cmdNext (s.celRing t)) c 0 0) := by
  have word := cmdNext_word s (s.celRing t)
  generalize hw : s.cmdNext (s.celRing t) = w at hc word ⊢
  have taken : s.celTake t = ((s.outcome t resCel c (cdItem w)).cmdPut (s.celRing t)
      (celRecordOf s w c 0 0)).cmdTaken (s.celRing t) := by
    unfold State.celTake
    dsimp only
    rw [hw, hc]
    dsimp only
    rw [State.celRefuse, word, celRecord_room (celRing_outcome s ht _ _ _ _) 0 0 hs hh hr]
  have memory : (s.outcome t resCel c (cdItem w)).mem = s.mem :=
    part_of_except (State.outcome_same 8193 rfl _ _ _ _ _) .mem rfl
  have index : (s.outcome t resCel c (cdItem w)).ringIdx ((s.celRing t).base + 0x08) =
      s.ringIdx ((s.celRing t).base + 0x08) := ringIdx_of_mem memory _
  obtain ⟨record, next⟩ := cmdPut_writes (s.outcome t resCel c (cdItem w)) (s.celRing t) (celRecordOf s w c 0 0)
  rw [index] at record next
  rw [taken]
  refine ⟨part_of_except ((State.cmdTaken_same 34359746561 rfl _ _).trans
    ((State.cmdPut_same 34359746561 rfl _ _ _).trans (State.outcome_same 34359746561 rfl _ _ _ _ _))) .cel rfl, ?_, ?_⟩
  · rw [ringIdx_cmdTaken_other _ _ (.inr (by omega))]
    exact next
  · rw [bytes_cmdTaken _ _ (.inr (by rw [CmdRing.rec']; omega))]
    exact record

/-- A poll of a ring with one new descriptor admits its command, or answers it with a record. -/
theorem celRingPoll_takes {s : State} {k : Fin 64} (he : s.on CEL_EN = true) (hr : s.on (CEL_REN k.val) = true)
    (hl : s.level < 3) (hs : s.cel.stopped.contains k.val = false) (hb : s.celBlocked = false)
    (hm : s.cmdRingMay k.val (s.celRing k.val) = true) (h1 : s.cmdNew (s.celRing k.val) = 1)
    (hh : ∀ h ∈ s.cel.held, h.key ≠ k.val) :
    Answers (.celRingPoll k) s fun t =>
      t.ringIdx ((s.celRing k.val).base + 0x04) = s.ringIdx (s.celRing k.val).base ∧
      t.on (CEL_RFAULT k.val) = false ∧
      (∀ n, s.celCheck k.val (s.cmdNext (s.celRing k.val)) = none →
        n = (if cdOp (s.cmdNext (s.celRing k.val)) = 1 then 0 else cdNgrp (s.cmdNext (s.celRing k.val))) →
        (s.takeQuota 4 k.val n).isSome = true →
        t.cel.items = s.cel.items ++ [⟨k.val, s.rd (TNC_CLASS k.val),
          BitVec.ofNat 512 (s.cmdNext (s.celRing k.val)), n, s.periodOf 4, stampNat s.stamp⟩]) ∧
      (∀ c, s.celCheck k.val (s.cmdNext (s.celRing k.val)) = some c → s.cmdRoom (s.celRing k.val) = true →
        t.cel = s.cel ∧
        t.ringIdx ((s.celRing k.val).base + 0x08) = (s.ringIdx ((s.celRing k.val).base + 0x08) + 1) % 65536 ∧
        t.bytes ((s.celRing k.val).rec' (s.ringIdx ((s.celRing k.val).base + 0x08))) 32 =
          leBytes 32 (celRecordOf s (s.cmdNext (s.celRing k.val)) c 0 0)) := by
  have ring := celRing_rfault s k.val 0
  have same : (s.wr (CEL_RFAULT k.val) 0).except 1 = s.except 1 := State.wr_same 1 rfl _ _ _
  have memory : (s.wr (CEL_RFAULT k.val) 0).mem = s.mem := part_of_except same .mem rfl
  have next : (s.wr (CEL_RFAULT k.val) 0).cmdNext (s.celRing k.val) = s.cmdNext (s.celRing k.val) :=
    cmdNext_of_mem memory _
  have now : (s.wr (CEL_RFAULT k.val) 0).stamp = s.stamp := by
    rw [State.stamp, State.stamp, part_of_except same .ctf rfl]
  have low : (CEL_RFAULT k.val).key + 4 ≤ 0x300000 := by
    simp only [Fld.key, regKey, CEL_RFAULT]
    omega
  refine ⟨_, celRingPoll_command he hr hl hs hb hm h1 hh, ?_, ?_, fun n hc hn hq => ?_, fun c hc hroom => ?_⟩
  · obtain ⟨tail, -⟩ := celTake_indices (s.wr (CEL_RFAULT k.val) 0) k.isLt
    rw [ring, ringIdx_of_mem memory] at tail
    exact tail.trans (cmdNew_one h1)
  · rw [State.on, rd_celTake low (show 0 + 1 ≤ 32 by decide), rd_wr_lt rfl (show 0 < 2 ^ 1 by decide)]
    rfl
  · rw [← celCost] at hn
    subst hn
    have admits := celTake_admits (s := s.wr (CEL_RFAULT k.val) 0) (t := k.val)
    have cls : (s.wr (CEL_RFAULT k.val) 0).rd (TNC_CLASS k.val) = s.rd (TNC_CLASS k.val) := by
      refine rd_wr_free (celRfault_free ?_ k.isLt ?_) s 0
      · simp only [TNC_CLASS]
        omega
      · simp only [Fld.key, regKey, TNC_CLASS]
        omega
    have quota (n : Nat) : ((s.wr (CEL_RFAULT k.val) 0).takeQuota 4 k.val n).isSome =
        (s.takeQuota 4 k.val n).isSome := by
      unfold State.takeQuota
      rw [State.quotaLeft, part_of_except same .tnc rfl, ← State.quotaLeft]
      split <;> rfl
    rw [ring, next, celCheck_rfault s k.isLt, cls, now, quota] at admits
    exact admits hc hq
  · have refuses := celTake_refuses (s := s.wr (CEL_RFAULT k.val) 0) (t := k.val) k.isLt (c := c)
    rw [ring, next, celCheck_rfault s k.isLt, ringIdx_of_mem memory, cmdRoom_of_mem memory] at refuses
    obtain ⟨cel, index, record⟩ := refuses hc hs hh hroom
    refine ⟨cel, index, ?_⟩
    rw [record, celRecordOf, now, celRecordOf]

set_option autoImplicit false

/-! ### Groups written -/

theorem celBad_parts (s : State) (l : List Nat) :
    (s.celBad l).cel = { s.cel with bad := l } ∧ ∀ g : Fld, CEL_BADN.free g = true → (s.celBad l).rd g = s.rd g := by
  unfold State.celBad
  refine ⟨part_of_except (State.wr_same 1 rfl _ _ _) .cel rfl, fun g hg => ?_⟩
  rw [rd_wr_free hg]
  exact rd_setCel _ _ _

/-- A group put changes that group and no other part of the Cellar. -/
theorem celPutRaw_other (s : State) {g j : Nat} (w : BitVec 72) (h : j ≠ g) : (s.celPutRaw g w).celRaw j = s.celRaw j :=
  cellAt_put_other _ _ h _ _

theorem celWrite_groups (s : State) (g d : Nat) :
    (s.celWrite g d).cel.groups = (s.celPutRaw g (celWord g d)).cel.groups := by
  unfold State.celWrite
  dsimp only
  split
  · rw [(celBad_parts _ _).1]
  · rfl

theorem celRaw_of_groups {s t : State} (h : t.cel.groups = s.cel.groups) (g : Nat) : t.celRaw g = s.celRaw g := by
  rw [State.celRaw, State.celRaw, h]

theorem celRaw_celWrite_other (s : State) {g j : Nat} (d : Nat) (h : j ≠ g) :
    (s.celWrite g d).celRaw j = s.celRaw j :=
  (celRaw_of_groups (celWrite_groups s g d) j).trans (celPutRaw_other s _ h)

/-- What a write of groups leaves of the Cellar. -/
structure CelKept (s t : State) : Prop where
  items : t.cel.items = s.cel.items
  run : t.cel.run = s.cel.run
  wipes : t.cel.wipes = s.cel.wipes
  held : t.cel.held = s.cel.held
  stopped : t.cel.stopped = s.cel.stopped
  badLength : t.cel.bad.length ≤ s.cel.bad.length
  rd : ∀ g : Fld, CEL_BADN.free g = true → t.rd g = s.rd g

namespace CelKept

theorem refl (s : State) : CelKept s s := ⟨rfl, rfl, rfl, rfl, rfl, Nat.le_refl _, fun _ _ => rfl⟩

theorem trans {s t u : State} (h : CelKept s t) (k : CelKept t u) : CelKept s u :=
  ⟨k.items.trans h.items, k.run.trans h.run, k.wipes.trans h.wipes, k.held.trans h.held, k.stopped.trans h.stopped,
    Nat.le_trans k.badLength h.badLength, fun g hg => (k.rd g hg).trans (h.rd g hg)⟩

end CelKept

theorem celPutRaw_kept (s : State) (g : Nat) (w : BitVec 72) : CelKept s (s.celPutRaw g w) :=
  ⟨rfl, rfl, rfl, rfl, rfl, Nat.le_refl _, fun _ _ => rd_setCel _ _ _⟩

theorem celBad_kept (s : State) (l : List Nat) (h : l.length ≤ s.cel.bad.length) : CelKept s (s.celBad l) := by
  obtain ⟨cel, regs⟩ := celBad_parts s l
  exact ⟨by rw [cel], by rw [cel], by rw [cel], by rw [cel], by rw [cel], by rw [cel]; exact h, regs⟩

theorem celWrite_kept (s : State) (g d : Nat) : CelKept s (s.celWrite g d) := by
  unfold State.celWrite
  generalize celWord g d = w
  dsimp only
  split
  · exact (celPutRaw_kept s g w).trans (celBad_kept _ _ (List.length_erase_le))
  · exact celPutRaw_kept s g w

theorem celWriteRun_kept (s : State) (g : Nat) (l : List Nat) : CelKept s (s.celWriteRun g l) := by
  induction l generalizing s g with
  | nil => exact .refl s
  | cons d r ih => exact (celWrite_kept s g d).trans (ih _ _)

/-- A run of groups written stands with its check bits, and every other group is as before. -/
theorem celWriteRun_written (s : State) (g : Nat) (l : List Nat) : Written s (s.celWriteRun g l) g l := by
  induction l generalizing s g with
  | nil => exact ⟨fun i d h => by simp at h, fun _ _ => rfl⟩
  | cons d r ih =>
    obtain ⟨rest, other⟩ := ih (s.celWrite g d) (g + 1)
    refine ⟨fun i x hx => ?_, fun j hj => ?_⟩
    · change ((s.celWrite g d).celWriteRun (g + 1) r).celRaw (g + i) = _
      cases i with
      | zero =>
        obtain rfl := Option.some.inj hx
        exact (other g (.inl (Nat.lt_succ_self g))).trans (celRaw_celWrite_same s g _)
      | succ i =>
        have next := rest i x hx
        rwa [Nat.add_assoc, Nat.add_comm 1 i] at next
    · rw [List.length_cons] at hj
      exact (other j (by omega)).trans (celRaw_celWrite_other s d (by omega))

theorem written_of_groups {s t u : State} {g : Nat} {l : List Nat} (h : Written s t g l)
    (k : u.cel.groups = t.cel.groups) : Written s u g l :=
  ⟨fun i d hd => (celRaw_of_groups k _).trans (h.1 i d hd), fun j hj => (celRaw_of_groups k j).trans (h.2 j hj)⟩

/-- Groups all read clean are read without a change. -/
theorem celReadRun_clean {s : State} {g : Nat} {d : List Nat}
    (h : ∀ i x, d[i]? = some x → celJudge (g + i) (s.celRaw (g + i)) = .clean x) :
    s.celReadRun g d.length = (d, 0, s) := by
  induction d generalizing g with
  | nil => rfl
  | cons x r ih =>
    have rest := ih (g := g + 1) fun i y hy => by
      have next := h (i + 1) y hy
      rwa [Nat.add_comm i 1, ← Nat.add_assoc] at next
    have first : s.celRead g = (some x, false, s) := celRead_clean (h 0 x rfl)
    rw [List.length_cons, State.celReadRun, first]
    dsimp only
    rw [rest]
    rfl

/-! ### The records of commands -/

/-- The records of a command whose code nobody else is told of. -/
theorem celRecord_unseen {c : Status} (hc : unseen c = true) (s : State) (t w n corr : Nat) :
    (s.celRecord t w c n corr).except 34363932672 = s.except 34363932672 ∧
    (s.celRecord t w c n corr).cel.groups = s.cel.groups ∧ (s.celRecord t w c n corr).cel.run = s.cel.run ∧
    (s.celRecord t w c n corr).cel.bad = s.cel.bad := by
  unfold State.celRecord
  dsimp only
  rw [outcome_unseen hc]
  split
  · exact ⟨rfl, rfl, rfl, rfl⟩
  · split
    · exact ⟨State.setCel_same 34363932672 rfl _ _, rfl, rfl, rfl⟩
    · have cel := part_of_except (State.cmdPut_same 34359738368 rfl s (s.celRing t) (withCrc32 (cdItem w +
        codeOf c * 2 ^ 16 + (n + 65535) % 65536 * 2 ^ 32 + corr * 2 ^ 48 + stampNat s.stamp * 2 ^ 64))) .cel rfl
      exact ⟨State.cmdPut_same 34363932672 rfl _ _ _, congrArg CelState.groups cel, congrArg CelState.run cel,
        congrArg CelState.bad cel⟩

theorem celRecord_stopped {c : Status} (hc : unseen c = true) {s : State} {t : Nat}
    (hs : s.cel.stopped.contains t = true)
    (w n corr : Nat) : s.celRecord t w c n corr = s := by
  unfold State.celRecord
  dsimp only
  rw [outcome_unseen hc, if_pos hs]

theorem celRecord_put {c : Status} (hc : unseen c = true) {s : State} {t : Nat} (h : CelRoom s t) (w n corr : Nat) :
    s.celRecord t w c n corr = s.cmdPut (s.celRing t) (celRecordOf s w c n corr) := by
  obtain ⟨stopped, held, room⟩ := h
  rw [celRecord_room (by rw [outcome_unseen hc]) n corr stopped held room, outcome_unseen hc]

/-- The registers of the Cellar beside the ring of a tenant do not tell where the ring lies. -/
theorem celRing_of_free {s t : State} (h : ∀ g : Fld, CEL_BADN.free g = true → CEL_BUSY.free g = true → t.rd g = s.rd g)
    (k : Nat) : t.celRing k = s.celRing k :=
  celRing_of_rd fun g hp lo _ hg => h g
    (free_of_key (by decide) hg (.inl (by simp only [Fld.key, regKey, CEL_BADN, hp]; omega)))
    (free_of_key (by decide) hg (.inl (by simp only [Fld.key, regKey, CEL_BUSY, hp]; omega)))

set_option autoImplicit false

/-! ### The start of a command -/

/-- The data that a command takes with it at its start. -/
def celData (s : State) (op w : Nat) : List Nat :=
  match op with
  | 2 => groupsOf (cdNgrp w) (s.bytes (cdMem w) (8 * cdNgrp w))
  | 3 => List.replicate (cdNgrp w) 0
  | _ => []

theorem celData_of_mem {s t : State} (h : t.mem = s.mem) (op w : Nat) : celData t op w = celData s op w := by
  unfold celData
  rw [State.bytes, h, ← State.bytes]

theorem celStartCheck_congr {s v : State} (h : ∀ g : Fld, g.lo + g.width ≤ 32 → 0x6000 ≤ g.key → v.rd g = s.rd g)
    (x : RingItem) : v.celStartCheck x = s.celStartCheck x := by
  have unit (u lo wd : Nat) (hw : lo + wd ≤ 32) :
      v.rd ⟨0x0D8, 0x100 + 4 * u, lo, wd⟩ = s.rd ⟨0x0D8, 0x100 + 4 * u, lo, wd⟩ :=
    h _ hw (by simp only [Fld.key, regKey]; omega)
  have state (u : Nat) : v.unitState u = s.unitState u := unit u 8 2 (by decide)
  have holder (u : Nat) : v.unitHolder u = s.unitHolder u := unit u 0 6 (by decide)
  have names (t w : Nat) : v.celNames t w = s.celNames t w := by
    simp only [State.celNames, State.unitHeld, state, holder]
  have covered (u : Nat) : v.unitCovered u = s.unitCovered u := by
    rw [State.unitCovered, State.unitCovered, h CEL_BP (by decide) (by decide)]
  unfold State.celStartCheck
  dsimp only
  rw [names, covered]

/-- The next command, of the opcode asked for, starts with its data. -/
theorem celStartOp_runs {s : State} {op : Nat} {x : RingItem} (h : CelReady s op x) :
    CelRuns s (s.celStartOp op) x (celData s op x.word.toNat) := by
  obtain ⟨blocked, idle, next, hop, check⟩ := h
  generalize hv : (s.setCel fun y => { y with items := y.items.erase x }).serveTurn 4 x.cls x.tc = v
  have same : v.except 8193 = (s.setCel fun y => { y with items := y.items.erase x }).except 8193 := by
    rw [← hv]
    exact State.serveTurn_same 8193 rfl _ _ _ _
  have cel : v.cel = { s.cel with items := s.cel.items.erase x } := part_of_except same .cel rfl
  have mem : v.mem = s.mem := part_of_except same .mem rfl
  have checked : v.celStartCheck x = none := by
    refine (celStartCheck_congr (fun g hg hk => ?_) x).trans check
    rw [← hv, rd_serveTurn hg (.inr hk) _ _ _ _ (by decide), rd_setCel]
  have late : v.itemLate x = s.itemLate x := by
    rw [State.itemLate, State.itemLate, State.stamp, State.stamp, part_of_except same .ctf rfl]
    rfl
  have started : s.celStartOp op =
      (v.setCel fun y =>
        { y with run := some ⟨x, (celData s op x.word.toNat).map (BitVec.ofNat 64), s.itemLate x⟩ }).wr CEL_BUSY 1 := by
    unfold State.celStartOp
    rw [if_neg (by rw [blocked, idle]; decide), next]
    dsimp only
    rw [if_neg (by rw [hop]; exact fun differ => differ rfl), hv, checked]
    dsimp only
    rw [late]
    exact congrArg (fun l : List Nat =>
      (v.setCel fun y => { y with run := some ⟨x, l.map (BitVec.ofNat 64), s.itemLate x⟩ }).wr CEL_BUSY 1)
      (celData_of_mem mem op x.word.toNat)
  rw [started]
  have kept := State.wr_same 1 rfl
    (v.setCel fun y => { y with run := some ⟨x, (celData s op x.word.toNat).map (BitVec.ofNat 64), s.itemLate x⟩ })
    CEL_BUSY 1
  have wcel := part_of_except kept .cel rfl
  refine ⟨?_, ?_, on_wr_b2n rfl (by decide) _ true, ?_, ?_⟩
  · rw [wcel]
    change v.cel.items = _
    rw [cel]
  · rw [wcel]
    rfl
  · rw [wcel]
    change v.cel.groups = _
    rw [cel]
  · exact (part_of_except kept .mem rfl).trans mem

/-! ### The end of a command -/

/-- A command that has ended, before its record. -/
def State.celEnded (s : State) : State := (s.setCel fun y => { y with run := none }).wr CEL_BUSY 0

theorem celEnded_parts (s : State) :
    s.celEnded.cel = { s.cel with run := none } ∧ s.celEnded.on CEL_BUSY = false ∧ s.celEnded.mem = s.mem ∧
    s.celEnded.ctf = s.ctf ∧ s.celEnded.events = s.events ∧
    ∀ g : Fld, CEL_BUSY.free g = true → s.celEnded.rd g = s.rd g := by
  have kept := State.wr_same 1 rfl (s.setCel fun y => { y with run := none }) CEL_BUSY 0
  exact ⟨part_of_except kept .cel rfl, on_wr_b2n rfl (by decide) _ false, part_of_except kept .mem rfl,
    part_of_except kept .ctf rfl, part_of_except kept .events rfl, fun g hg => (rd_wr_free hg _ _).trans
      (rd_setCel _ _ _)⟩

/-- The code of a command that ended well in time. -/
theorem okOr_unseen (s : State) : firstOf .ok s.okOr = s.okOr ∧ unseen s.okOr = true := by
  unfold State.okOr
  split
  · exact ⟨rfl, rfl⟩
  · exact ⟨rfl, rfl⟩

/-- What ends a command: its groups, the state they leave, and whether one failed. -/
theorem celCommandComplete_command {s v : State} {r : CelRun} {fail : Option (Fin 1024)} {n corr : Nat} {bad : Bool}
    (hr : s.cel.run = some r) (hl : r.late = false) (he : s.celEffect r 1024 (fail.map (·.val)) = (n, corr, bad, v)) :
    exec (.celCommandComplete fail) s = .next (v.celEnded.celRecord r.item.tc r.item.word.toNat
      (if bad then .integFail else firstOf .ok v.celEnded.okOr) n corr) := by
  change execCelCommandComplete fail s = _
  unfold execCelCommandComplete
  rw [hr]
  dsimp only
  rw [he, hl, if_neg Bool.false_ne_true]
  rfl

theorem okOr_congr {s v : State} (h : v.ctfSt = s.ctfSt) : v.okOr = s.okOr := by
  rw [State.okOr, State.okOr, State.estimated, State.estimated, h]

/-- What a record of the Cellar reads. -/
structure RingKept (s v : State) : Prop where
  held : v.cel.held = s.cel.held
  stopped : v.cel.stopped = s.cel.stopped
  ring : ∀ k, v.celRing k = s.celRing k
  mem : v.mem = s.mem
  ctf : v.ctf = s.ctf

theorem RingKept.trans {s t u : State} (h : RingKept s t) (k : RingKept t u) : RingKept s u :=
  ⟨k.held.trans h.held, k.stopped.trans h.stopped, fun j => (k.ring j).trans (h.ring j), k.mem.trans h.mem,
    k.ctf.trans h.ctf⟩

theorem CelKept.ringKept {s v : State} (h : CelKept s v) (hm : v.mem = s.mem) (hf : v.ctf = s.ctf) : RingKept s v :=
  ⟨h.held, h.stopped, celRing_of_free fun g hb _ => h.rd g hb, hm, hf⟩

theorem celEnded_ringKept (v : State) : RingKept v v.celEnded := by
  obtain ⟨cel, -, mem, ctf, -, rd⟩ := celEnded_parts v
  exact ⟨by rw [cel], by rw [cel], celRing_of_free fun g _ hu => rd g hu, mem, ctf⟩

theorem RingKept.room {s v : State} (h : RingKept s v) {tc : Nat} (hr : CelRoom s tc) : CelRoom v tc := by
  obtain ⟨stopped, held, room⟩ := hr
  exact ⟨by rw [h.stopped]; exact stopped, by rw [h.held]; exact held, by rw [h.ring, cmdRoom_of_mem h.mem]; exact room⟩

theorem celRecordOf_congr {s v : State} (h : v.ctf = s.ctf) (w : Nat) (c : Status) (n corr : Nat) :
    celRecordOf v w c n corr = celRecordOf s w c n corr := by
  rw [celRecordOf, celRecordOf, State.stamp, State.stamp, h]

/-- The memory once the record of an ended command stands in its ring. -/
theorem celRecord_mem {s v : State} {tc w n corr : Nat} {c : Status} (hc : unseen c = true) (h : RingKept s v)
    (hr : CelRoom s tc) :
    (v.celEnded.celRecord tc w c n corr).mem = (s.cmdPut (s.celRing tc) (celRecordOf s w c n corr)).mem := by
  have whole := h.trans (celEnded_ringKept v)
  rw [celRecord_put hc (whole.room hr), whole.ring, celRecordOf_congr whole.ctf]
  exact cmdPut_mem whole.mem _ _

/-- A command that writes stores its groups with their check bits, and its record. -/
theorem celCommandComplete_writes {s : State} {r : CelRun} {w : Nat} {l : List Nat} (hr : s.cel.run = some r)
    (hl : r.late = false) (hw : w = r.item.word.toNat) (hd : l = (r.data.map (·.toNat)).take 1024) (ho : cdOp w ≠ 1) :
    Answers (.celCommandComplete none) s fun t =>
      t.cel.run = none ∧ t.on CEL_BUSY = false ∧ Written s t (cdGroup w) l ∧
      (CelRoom s r.item.tc → t.mem = (s.cmdPut (s.celRing r.item.tc) (celRecordOf s w s.okOr l.length 0)).mem) := by
  subst hw
  have effect : s.celEffect r 1024 ((none : Option (Fin 1024)).map (·.val)) =
      (l.length, 0, false, s.celWriteRun (cdGroup r.item.word.toNat) l) := by
    unfold State.celEffect
    dsimp only [Option.map_none]
    rw [if_neg ho, ← hd]
  have command := celCommandComplete_command hr hl effect
  have kept := celWriteRun_kept s (cdGroup r.item.word.toNat) l
  have same := State.celWriteRun_same 4194305 rfl s (cdGroup r.item.word.toNat) l
  have written := celWriteRun_written s (cdGroup r.item.word.toNat) l
  generalize s.celWriteRun (cdGroup r.item.word.toNat) l = v at command kept same written
  obtain ⟨cel, busy, -, -, -, rd⟩ := celEnded_parts v
  have code : firstOf .ok v.celEnded.okOr = s.okOr := by
    have state : v.celEnded.ctfSt = s.ctfSt := (rd CTF_ST (by decide)).trans (kept.rd _ (by decide))
    rw [okOr_congr state]
    exact (okOr_unseen s).1
  rw [if_neg Bool.false_ne_true, code] at command
  obtain ⟨regs, groups, run, -⟩ := celRecord_unseen (okOr_unseen s).2 v.celEnded r.item.tc r.item.word.toNat l.length 0
  refine ⟨_, command, ?_, ?_, ?_, fun hroom => ?_⟩
  · rw [run, cel]
  · rw [State.on, rd_of_except regs rfl]
    exact busy
  · refine written_of_groups written (groups.trans ?_)
    rw [cel]
  · exact celRecord_mem (okOr_unseen s).2
      (kept.ringKept (part_of_except same .mem rfl) (part_of_except same .ctf rfl)) hroom

/-- A command that reads clean groups brings their bytes to memory, and its record. -/
theorem celCommandComplete_reads {s : State} {r : CelRun} {w : Nat} {d : List Nat} (hr : s.cel.run = some r)
    (hl : r.late = false) (hw : w = r.item.word.toNat) (ho : cdOp w = 1) (hn : d.length = min 1024 (cdNgrp w))
    (hd : ∀ i x, d[i]? = some x → celJudge (cdGroup w + i) (s.celRaw (cdGroup w + i)) = .clean x) :
    Answers (.celCommandComplete none) s fun t =>
      t.cel.run = none ∧ t.cel.groups = s.cel.groups ∧
      (s.cel.stopped.contains r.item.tc = true → t.mem = (s.store (cdMem w) (groupBytes d)).mem) ∧
      (CelRoom (s.store (cdMem w) (groupBytes d)) r.item.tc →
        t.mem = ((s.store (cdMem w) (groupBytes d)).cmdPut (s.celRing r.item.tc)
          (celRecordOf s w s.okOr d.length 0)).mem) := by
  subst hw
  have effect : s.celEffect r 1024 ((none : Option (Fin 1024)).map (·.val)) =
      (d.length, 0, false, s.store (cdMem r.item.word.toNat) (groupBytes d)) := by
    unfold State.celEffect
    dsimp only
    rw [if_pos ho, ← hn, celReadRun_clean hd]
    dsimp only
    rw [decide_eq_false (Nat.lt_irrefl _)]
  have command := celCommandComplete_command hr hl effect
  have same := State.store_same 34359738368 rfl s (cdMem r.item.word.toNat) (groupBytes d)
  generalize s.store (cdMem r.item.word.toNat) (groupBytes d) = v at command same ⊢
  have vcel : v.cel = s.cel := part_of_except same .cel rfl
  obtain ⟨cel, -, mem, -, -, rd⟩ := celEnded_parts v
  have code : firstOf .ok v.celEnded.okOr = s.okOr := by
    have state : v.celEnded.ctfSt = s.ctfSt := (rd CTF_ST (by decide)).trans (rd_of_except same rfl _)
    rw [okOr_congr state]
    exact (okOr_unseen s).1
  rw [if_neg Bool.false_ne_true, code] at command
  obtain ⟨-, groups, run, -⟩ := celRecord_unseen (okOr_unseen s).2 v.celEnded r.item.tc r.item.word.toNat d.length 0
  refine ⟨_, command, ?_, ?_, fun hs => ?_, fun hroom => ?_⟩
  · rw [run, cel]
  · rw [groups, cel]
    change v.cel.groups = _
    rw [vcel]
  · have stopped : v.celEnded.cel.stopped.contains r.item.tc = true := by
      rw [cel]
      change v.cel.stopped.contains r.item.tc = true
      rw [vcel]
      exact hs
    rw [celRecord_stopped (okOr_unseen s).2 stopped]
    exact mem
  · rw [celRecord_mem (okOr_unseen s).2 ((CelKept.refl v).ringKept rfl rfl) hroom,
      celRecordOf_congr (part_of_except same .ctf rfl),
      celRing_of_free (fun g _ _ => rd_of_except same rfl g)]

/-! ### A group that fails its verify -/

theorem celVerifyFailed_parts (s : State) (g : Nat) :
    (s.celVerifyFailed g).rd CEL_WFAILN = satNat 16 (s.rd CEL_WFAILN + 1) ∧
    (s.celVerifyFailed g).cel.groups = s.cel.groups ∧ (s.cel.bad.length < 16 → g ∈ (s.celVerifyFailed g).cel.bad) ∧
    Logged s (s.celVerifyFailed g) 0x5005 (s.rd (OWN_TC 0x0D8)) 0x00D8 ∧ RingKept s (s.celVerifyFailed g) := by
  generalize hv : ((s.count CEL_WFAILN).raise 0x0D8 1).log 0x5005 (s.rd (OWN_TC 0x0D8)) 0x00D8 = v
  have same : ((s.count CEL_WFAILN).raise 0x0D8 1).except 1 = s.except 1 :=
    (State.raise_same 1 rfl _ _ _).trans (State.count_same 1 rfl _ _ _)
  have cel : v.cel = s.cel := by
    rw [← hv]
    exact part_of_except same .cel rfl
  have counted : v.rd CEL_WFAILN = satNat 16 (s.rd CEL_WFAILN + 1) := by
    rw [← hv, rd_log, rd_raise_free (by decide), rd_count_same _ _ _ rfl]
    rfl
  have logged : Logged s v 0x5005 (s.rd (OWN_TC 0x0D8)) 0x00D8 := by
    rw [← hv, Logged]
    change ((s.count CEL_WFAILN).raise 0x0D8 1).events ++ _ = _
    rw [part_of_except same .events rfl]
  have ring : RingKept s v := by
    refine ⟨by rw [cel], by rw [cel], fun k => celRing_of_rd fun g hp lo _ hg => ?_, ?_, ?_⟩
    · have irq : (IRQ_RAW 0x0D8).free g = true :=
        free_of_key (by decide) hg (.inl (by simp only [Fld.key, regKey, IRQ_RAW, hp]; omega))
      have failn : CEL_WFAILN.free g = true :=
        free_of_key (by decide) hg (.inl (by simp only [Fld.key, regKey, CEL_WFAILN, hp]; omega))
      rw [← hv, rd_log, rd_raise_free irq, rd_count_free failn]
    · rw [← hv]
      exact part_of_except same .mem rfl
    · rw [← hv]
      exact part_of_except same .ctf rfl
  have failed : s.celVerifyFailed g =
      if v.cel.bad.contains g ∨ 16 ≤ v.cel.bad.length then v else v.celBad (v.cel.bad ++ [g]) := by
    rw [← hv]
    rfl
  rw [failed]
  split
  next known =>
    rw [cel] at known
    refine ⟨counted, congrArg CelState.groups cel, fun room => ?_, logged, ring⟩
    rcases known with listed | full
    · rw [cel]
      exact List.contains_iff_mem.mp listed
    · omega
  · obtain ⟨bcel, regs⟩ := celBad_parts v (v.cel.bad ++ [g])
    refine ⟨(regs _ (by decide)).trans counted, ?_, fun _ => ?_, ?_, ring.trans ?_⟩
    · rw [bcel]
      change v.cel.groups = _
      rw [cel]
    · rw [bcel]
      simp
    · rw [Logged, part_of_except (State.celBad_same 4194305 rfl _ _) .events rfl]
      exact logged
    · exact ⟨by rw [bcel], by rw [bcel], celRing_of_free fun g hb _ => regs g hb,
        part_of_except (State.celBad_same 4194305 rfl _ _) .mem rfl,
        part_of_except (State.celBad_same 4194305 rfl _ _) .ctf rfl⟩

/-- A command that writes ends at the group that fails its verify. -/
theorem celCommandComplete_fails {s : State} {r : CelRun} {w : Nat} {l : List Nat} (hr : s.cel.run = some r)
    (hl : r.late = false) (hw : w = r.item.word.toNat) (hd : l = (r.data.map (·.toNat)).take 1024) (k : Fin 1024)
    (ho : cdOp w ≠ 1) (hk : k.val < l.length) (hb : s.cel.bad.length < 16) :
    Answers (.celCommandComplete (some k)) s fun t =>
      t.cel.run = none ∧ t.rd CEL_WFAILN = satNat 16 (s.rd CEL_WFAILN + 1) ∧ cdGroup w + k.val ∈ t.cel.bad ∧
      (∀ i d, i < k.val → l[i]? = some d → t.celRaw (cdGroup w + i) = celWord (cdGroup w + i) d) ∧
      Logged s t 0x5005 (s.rd (OWN_TC 0x0D8)) 0x00D8 ∧
      (CelRoom s r.item.tc →
        t.mem = (s.cmdPut (s.celRing r.item.tc) (celRecordOf s w .integFail k.val 0)).mem) := by
  subst hw
  have kept := celWriteRun_kept s (cdGroup r.item.word.toNat) (l.take k.val)
  have same := State.celWriteRun_same 4194305 rfl s (cdGroup r.item.word.toNat) (l.take k.val)
  obtain ⟨written, -⟩ := celWriteRun_written s (cdGroup r.item.word.toNat) (l.take k.val)
  generalize hu : s.celWriteRun (cdGroup r.item.word.toNat) (l.take k.val) = u at kept same written
  have effect : s.celEffect r 1024 ((some k).map (·.val)) = (k.val, 0, true,
      ((u.draw 72).2.celPutRaw (cdGroup r.item.word.toNat + k.val) (BitVec.ofNat 72 (u.draw 72).1)).celVerifyFailed
        (cdGroup r.item.word.toNat + k.val)) := by
    unfold State.celEffect
    dsimp only [Option.map_some]
    rw [if_neg ho, ← hd, if_pos hk, hu]
  have command := celCommandComplete_command hr hl effect
  generalize cdGroup r.item.word.toNat = g at written command ⊢
  generalize BitVec.ofNat 72 (u.draw 72).1 = open' at command
  have drawn : ((u.draw 72).2.celPutRaw (g + k.val) open').except 4196352 = u.except 4196352 :=
    (State.setCel_same 4196352 rfl _ _).trans (State.draw_same 4196352 rfl _ _)
  have put : CelKept u ((u.draw 72).2.celPutRaw (g + k.val) open') :=
    (show CelKept u (u.draw 72).2 from ⟨rfl, rfl, rfl, rfl, rfl, Nat.le_refl _,
      fun _ _ => rd_of_except (State.draw_same 2048 rfl _ _) rfl _⟩).trans
      (celPutRaw_kept _ _ _)
  have raw {i : Nat} (hi : i < k.val) : ((u.draw 72).2.celPutRaw (g + k.val) open').celRaw (g + i) = u.celRaw (g + i) :=
    celPutRaw_other (u.draw 72).2 open' (by omega)
  generalize (u.draw 72).2.celPutRaw (g + k.val) open' = p at command drawn put raw
  have whole := kept.trans put
  obtain ⟨failn, groups, listed, logged, ring⟩ := celVerifyFailed_parts p (g + k.val)
  have fsame := State.celVerifyFailed_same 4194561 rfl p (g + k.val)
  generalize p.celVerifyFailed (g + k.val) = f at command failn groups listed logged ring fsame
  rw [if_pos rfl] at command
  obtain ⟨ecel, -, -, -, eevents, erd⟩ := celEnded_parts f
  obtain ⟨regs, rgroups, rrun, rbad⟩ := celRecord_unseen (c := .integFail) rfl f.celEnded r.item.tc r.item.word.toNat
    k.val 0
  refine ⟨_, command, ?_, ?_, ?_, fun i d hi hx => ?_, ?_, fun hroom => ?_⟩
  · rw [rrun, ecel]
  · rw [rd_of_except regs rfl, erd _ (by decide), failn, whole.rd _ (by decide)]
  · rw [rbad, ecel]
    exact listed (Nat.lt_of_le_of_lt whole.badLength hb)
  · have same' := celRaw_of_groups (s := p) (rgroups.trans ((by rw [ecel] : f.celEnded.cel.groups = f.cel.groups).trans
      groups)) (g + i)
    rw [same', raw hi]
    exact written i d (by rw [List.getElem?_take_of_lt hi]; exact hx)
  · rw [Logged, part_of_except regs .events rfl, eevents, logged, whole.rd _ (by decide),
      part_of_except drawn .events rfl, part_of_except same .events rfl]
  · refine celRecord_mem rfl ((whole.ringKept ?_ ?_).trans ring) hroom
    · exact (part_of_except drawn .mem rfl).trans (part_of_except same .mem rfl)
    · exact (part_of_except drawn .ctf rfl).trans (part_of_except same .ctf rfl)

set_option autoImplicit false

/-! ### The scrubber -/

theorem celRaw_celPutRaw_same (s : State) (g : Nat) (w : BitVec 72) : (s.celPutRaw g w).celRaw g = w :=
  cellAt_put_same _ _ _ _

theorem rd_celPutRaw (s : State) (g : Nat) (w : BitVec 72) (f : Fld) : (s.celPutRaw g w).rd f = s.rd f :=
  rd_setCel _ _ _

theorem celPutRaw_bad (s : State) (g : Nat) (w : BitVec 72) : (s.celPutRaw g w).cel.bad = s.cel.bad := rfl

theorem celUpset_bad (s : State) (l : List (Fin 131072 × BitVec 72)) : (s.celUpset l).cel.bad = s.cel.bad := by
  unfold State.celUpset
  induction l generalizing s with
  | nil => rfl
  | cons x r ih => exact (ih _).trans (celPutRaw_bad s _ _)

theorem celUpset_kept (s : State) (l : List (Fin 131072 × BitVec 72)) :
    (s.celUpset l).except 4194304 = s.except 4194304 := State.celUpset_same 4194304 rfl s l

/-- The scrubber stands at the next group, and a completed pass is counted. -/
theorem scrubNext_parts (s : State) :
    s.scrubNext.rd CEL_SCPOS = (if s.rd CEL_SCPOS = 131071 then 0 else s.rd CEL_SCPOS + 1) ∧
    (s.rd CEL_SCPOS = 131071 → s.scrubNext.rd CEL_SCPASS = (s.rd CEL_SCPASS + 1) % 2 ^ 32 ∧
      bit (s.scrubNext.rd (IRQ_RAW 0x0D8)) 2 = true) ∧
    (∀ g : Fld, CEL_SCPOS.free g = true → CEL_SCPASS.free g = true → (IRQ_RAW 0x0D8).free g = true →
      s.scrubNext.rd g = s.rd g) ∧
    (∀ b < 32, bit (s.rd (IRQ_RAW 0x0D8)) b = true → bit (s.scrubNext.rd (IRQ_RAW 0x0D8)) b = true) := by
  have small : s.rd CEL_SCPOS < 2 ^ 17 := rd_lt s rfl
  unfold State.scrubNext
  dsimp only
  split
  next last =>
    refine ⟨?_, fun _ => ⟨?_, bit_raise_same _ _ (by decide)⟩, fun g h1 h2 h3 => ?_, fun b hw hb => ?_⟩
    · rw [rd_raise_free (by decide), rd_wr_free (by decide)]
      exact rd_wr_lt rfl (by decide) s
    · rw [rd_raise_free (by decide), rd_wr_same _ _ _ rfl]
      exact Nat.mod_mod _ _
    · rw [rd_raise_free h3, rd_wr_free h2, rd_wr_free h1]
    · refine bit_raise_of_bit _ _ _ hw ?_
      rw [rd_wr_free (by decide), rd_wr_free (by decide)]
      exact hb
  next other =>
    refine ⟨rd_wr_lt rfl (show _ < 2 ^ 17 by omega) s, fun h => absurd h other, fun g h1 _ _ => rd_wr_free h1 s _,
      fun b _ hb => ?_⟩
    rw [rd_wr_free (by decide)]
    exact hb

theorem scrub_command {s : State} {l : List (Fin 131072 × BitVec 72)} (hb : s.celBlocked = false)
    (hg : s.cel.bad.contains (s.rd CEL_SCPOS) = false) :
    exec (.scrub l) s = .next ((s.celUpset l).celRead (s.rd CEL_SCPOS)).2.2.scrubNext := by
  have pos : (s.celUpset l).rd CEL_SCPOS = s.rd CEL_SCPOS := rd_of_except (celUpset_kept s l) rfl _
  have open' : (s.celUpset l).celBlocked = false := by
    rw [State.celBlocked, State.on, rd_of_except (celUpset_kept s l) rfl]
    exact hb
  have here : State.scrubSkip 17 (s.celUpset l) = s.celUpset l := by
    rw [State.scrubSkip, if_neg (by rw [pos, celUpset_bad, hg]; decide)]
  change execScrub l s = _
  unfold execScrub
  dsimp only
  rw [if_neg (by rw [open']; decide), here, pos]

theorem celRead_corrected {s : State} {g d : Nat} (h : celJudge g (s.celRaw g) = .corrected d) :
    s.celRead g = (some d, true, (s.celPutRaw g (celWord g d)).count CEL_CORRN) := by
  unfold State.celRead
  rw [h]

theorem celRead_bad {s : State} {g : Nat} (h : celJudge g (s.celRaw g) = .bad) :
    s.celRead g = (none, false, s.celFound g) := by
  unfold State.celRead
  rw [h]

/-- A group found bad is recorded and logged. -/
theorem celFound_parts {s : State} {g : Nat} (hg : g < 2 ^ 17) (hn : s.cel.bad.contains g = false) :
    (s.celFound g).cel.groups = s.cel.groups ∧ (s.celFound g).rd CEL_UEADR = g ∧
    (s.celFound g).rd CEL_UNCN = satNat 16 (s.rd CEL_UNCN + 1) ∧ bit ((s.celFound g).rd (IRQ_RAW 0x0D8)) 0 = true ∧
    Logged s (s.celFound g) 0x5005 (s.rd (OWN_TC 0x0D8)) 0x00D8 ∧
    (s.cel.bad.length < 16 → g ∈ (s.celFound g).cel.bad) ∧
    ∀ f : Fld, CEL_UEADR.free f = true → CEL_UNCN.free f = true → (IRQ_RAW 0x0D8).free f = true →
      CEL_BADN.free f = true → (s.celFound g).rd f = s.rd f := by
  generalize hv : (((s.wr CEL_UEADR g).count CEL_UNCN).raise 0x0D8 0).log 0x5005 (s.rd (OWN_TC 0x0D8)) 0x00D8 = v
  have same : (((s.wr CEL_UEADR g).count CEL_UNCN).raise 0x0D8 0).except 1 = s.except 1 :=
    (State.raise_same 1 rfl _ _ _).trans ((State.count_same 1 rfl _ _ _).trans (State.wr_same 1 rfl _ _ _))
  have cel : v.cel = s.cel := by
    rw [← hv]
    exact part_of_except same .cel rfl
  have place : v.rd CEL_UEADR = g := by
    rw [← hv, rd_log, rd_raise_free (by decide), rd_count_free (by decide)]
    exact rd_wr_lt rfl hg s
  have count : v.rd CEL_UNCN = satNat 16 (s.rd CEL_UNCN + 1) := by
    rw [← hv, rd_log, rd_raise_free (by decide), rd_count_same _ _ _ rfl, rd_wr_free (by decide)]
    rfl
  have irq : bit (v.rd (IRQ_RAW 0x0D8)) 0 = true := by
    rw [← hv, rd_log]
    exact bit_raise_same _ _ (by decide)
  have logged : Logged s v 0x5005 (s.rd (OWN_TC 0x0D8)) 0x00D8 := by
    rw [← hv, Logged]
    change (((s.wr CEL_UEADR g).count CEL_UNCN).raise 0x0D8 0).events ++ _ = _
    rw [part_of_except same .events rfl]
  have rest (f : Fld) (h1 : CEL_UEADR.free f = true) (h2 : CEL_UNCN.free f = true) (h3 : (IRQ_RAW 0x0D8).free f = true)
    :
      v.rd f = s.rd f := by
    rw [← hv, rd_log, rd_raise_free h3, rd_count_free h2, rd_wr_free h1]
  have found : s.celFound g = if v.cel.bad.length < 16 then v.celBad (v.cel.bad ++ [g]) else v := by
    unfold State.celFound
    rw [if_neg (by rw [hn]; decide), ← hv]
  rw [found]
  split
  · obtain ⟨bcel, regs⟩ := celBad_parts v (v.cel.bad ++ [g])
    refine ⟨?_, (regs _ (by decide)).trans place, (regs _ (by decide)).trans count, ?_, ?_, fun _ => ?_,
      fun f h1 h2 h3 h4 => (regs f h4).trans (rest f h1 h2 h3)⟩
    · rw [bcel]
      change v.cel.groups = _
      rw [cel]
    · rw [regs _ (by decide)]
      exact irq
    · rw [Logged, part_of_except (State.celBad_same 4194305 rfl _ _) .events rfl]
      exact logged
    · rw [bcel]
      simp
  next full =>
    rw [cel] at full
    exact ⟨by rw [cel], place, count, irq, logged, fun h => absurd h full, fun f h1 h2 h3 _ => rest f h1 h2 h3⟩

/-- A read of a group leaves the place of the scrubber. -/
theorem celRead_place {s : State} {g : Nat} (hg : g < 2 ^ 17) (hn : s.cel.bad.contains g = false) :
    (s.celRead g).2.2.rd CEL_SCPOS = s.rd CEL_SCPOS ∧ (s.celRead g).2.2.rd CEL_SCPASS = s.rd CEL_SCPASS := by
  cases hj : celJudge g (s.celRaw g) with
  | clean d =>
    rw [celRead_clean hj]
    exact ⟨rfl, rfl⟩
  | corrected d =>
    rw [celRead_corrected hj]
    generalize celWord g d = w
    exact ⟨(rd_count_free (by decide) _ _).trans (rd_celPutRaw s g w _),
      (rd_count_free (by decide) _ _).trans (rd_celPutRaw s g w _)⟩
  | bad =>
    obtain ⟨-, -, -, -, -, -, rest⟩ := celFound_parts hg hn
    rw [celRead_bad hj]
    exact ⟨rest _ (by decide) (by decide) (by decide) (by decide),
      rest _ (by decide) (by decide) (by decide) (by decide)⟩

theorem written_put {s t : State} {g d : Nat} (h : t.cel = (s.celPutRaw g (celWord g d)).cel) : Written s t g [d] := by
  refine ⟨fun i x hx => ?_, fun j hj => ?_⟩
  · cases i with
    | zero =>
      obtain rfl := Option.some.inj hx
      exact (celRaw_of_cel h _).trans (celRaw_celPutRaw_same _ _ _)
    | succ i => simp at hx
  · rw [List.length_singleton] at hj
    exact (celRaw_of_cel h _).trans (celPutRaw_other s _ (by omega))

theorem restored_parts (s : State) (g : Nat) (w : BitVec 72) :
    ((s.celPutRaw g w).count CEL_CORRN).rd CEL_CORRN = satNat 16 (s.rd CEL_CORRN + 1) ∧
    ((s.celPutRaw g w).count CEL_CORRN).events = s.events ∧
    ((s.celPutRaw g w).count CEL_CORRN).cel = (s.celPutRaw g w).cel := by
  have same := State.count_same 1 rfl (s.celPutRaw g w) CEL_CORRN 1
  refine ⟨?_, part_of_except same .events rfl, part_of_except same .cel rfl⟩
  rw [rd_count_same _ _ _ rfl, rd_celPutRaw]
  rfl

theorem scrubNext_restored {u v : State} {g d : Nat} (hc : v.rd CEL_CORRN = satNat 16 (u.rd CEL_CORRN + 1))
    (he : v.events = u.events) (hv : v.cel = (u.celPutRaw g (celWord g d)).cel) :
    Written u v.scrubNext g [d] ∧ v.scrubNext.rd CEL_CORRN = satNat 16 (u.rd CEL_CORRN + 1) ∧
    v.scrubNext.events = u.events := by
  obtain ⟨-, -, rest, -⟩ := scrubNext_parts v
  have same := State.scrubNext_same 1 rfl v
  exact ⟨written_put ((part_of_except same .cel rfl).trans hv),
    (rest _ (by decide) (by decide) (by decide)).trans hc, (part_of_except same .events rfl).trans he⟩

/-- A corrected group is counted and restored. -/
theorem scrub_restores {u : State} {g d : Nat} (hj : celJudge g (u.celRaw g) = .corrected d) :
    Written u (u.celRead g).2.2.scrubNext g [d] ∧
    (u.celRead g).2.2.scrubNext.rd CEL_CORRN = satNat 16 (u.rd CEL_CORRN + 1) ∧
    (u.celRead g).2.2.scrubNext.events = u.events := by
  obtain ⟨counted, quiet, cel⟩ := restored_parts u g (celWord g d)
  rw [celRead_corrected hj]
  exact scrubNext_restored counted quiet cel

/-- A bad group is recorded and logged. -/
theorem scrub_finds {u : State} {g : Nat} (hg : g < 2 ^ 17) (hn : u.cel.bad.contains g = false)
    (hj : celJudge g (u.celRaw g) = .bad) :
    (u.celRead g).2.2.scrubNext.cel.groups = u.cel.groups ∧ (u.celRead g).2.2.scrubNext.rd CEL_UEADR = g ∧
    (u.celRead g).2.2.scrubNext.rd CEL_UNCN = satNat 16 (u.rd CEL_UNCN + 1) ∧
    bit ((u.celRead g).2.2.scrubNext.rd (IRQ_RAW 0x0D8)) 0 = true ∧
    Logged u (u.celRead g).2.2.scrubNext 0x5005 (u.rd (OWN_TC 0x0D8)) 0x00D8 ∧
    (u.cel.bad.length < 16 → g ∈ (u.celRead g).2.2.scrubNext.cel.bad) := by
  obtain ⟨groups, place, count, irq, logged, listed, -⟩ := celFound_parts hg hn
  rw [celRead_bad hj]
  dsimp only
  generalize u.celFound g = v at groups place count irq logged listed
  obtain ⟨-, -, rest, kept⟩ := scrubNext_parts v
  have same := State.scrubNext_same 1 rfl v
  refine ⟨by rw [part_of_except same .cel rfl]; exact groups, (rest _ (by decide) (by decide) (by decide)).trans place,
    (rest _ (by decide) (by decide) (by decide)).trans count, kept 0 (by decide) irq, ?_, fun h => ?_⟩
  · rw [Logged, part_of_except same .events rfl]
    exact logged
  · rw [part_of_except same .cel rfl]
    exact listed h

/-- SCRUB reads the next group, restores it or records that it is bad, and moves on. -/
theorem scrub_answers {s u : State} {l : List (Fin 131072 × BitVec 72)} {g : Nat} (hu : u = s.celUpset l)
    (hb : s.celBlocked = false) (hg : g = s.rd CEL_SCPOS) (hn : s.cel.bad.contains g = false) :
    Answers (.scrub l) s fun t =>
      t.rd CEL_SCPOS = (if g = 131071 then 0 else g + 1) ∧
      (g = 131071 → t.rd CEL_SCPASS = (s.rd CEL_SCPASS + 1) % 2 ^ 32 ∧ bit (t.rd (IRQ_RAW 0x0D8)) 2 = true) ∧
      (∀ d, celJudge g (u.celRaw g) = .clean d → t.cel = u.cel ∧ t.events = s.events) ∧
      (∀ d, celJudge g (u.celRaw g) = .corrected d →
        Written u t g [d] ∧ t.rd CEL_CORRN = satNat 16 (s.rd CEL_CORRN + 1) ∧ t.events = s.events) ∧
      (celJudge g (u.celRaw g) = .bad →
        t.cel.groups = u.cel.groups ∧ t.rd CEL_UEADR = g ∧ t.rd CEL_UNCN = satNat 16 (s.rd CEL_UNCN + 1) ∧
        bit (t.rd (IRQ_RAW 0x0D8)) 0 = true ∧ Logged s t 0x5005 (s.rd (OWN_TC 0x0D8)) 0x00D8 ∧
        (s.cel.bad.length < 16 → g ∈ t.cel.bad)) := by
  have kept := celUpset_kept s l
  have ubad := celUpset_bad s l
  have small : g < 2 ^ 17 := hg ▸ rd_lt s rfl
  have command := scrub_command (l := l) hb (hg ▸ hn)
  rw [← hu] at command kept ubad
  rw [← hg] at command
  rw [← ubad] at hn ⊢
  have urd (f : Fld) : u.rd f = s.rd f := rd_of_except kept rfl f
  have uevents : u.events = s.events := part_of_except kept .events rfl
  obtain ⟨place, passes⟩ := celRead_place small hn
  obtain ⟨pos, pass, -, -⟩ := scrubNext_parts (u.celRead g).2.2
  rw [place, passes, urd, urd, ← hg] at pass
  rw [place, urd, ← hg] at pos
  refine ⟨_, command, pos, pass, fun d hj => ?_, fun d hj => ?_, fun hj => ?_⟩
  · have same := State.scrubNext_same 1 rfl (u.celRead g).2.2
    rw [celRead_clean hj] at same ⊢
    exact ⟨part_of_except same .cel rfl, (part_of_except same .events rfl).trans uevents⟩
  · obtain ⟨written, counted, quiet⟩ := scrub_restores hj
    exact ⟨written, by rw [counted, urd], quiet.trans uevents⟩
  · obtain ⟨groups, found, count, irq, logged, listed⟩ := scrub_finds small hn hj
    exact ⟨groups, found, by rw [count, urd], irq, by rw [Logged, logged, uevents, urd], listed⟩

set_option autoImplicit false

/-! ### The unit table -/

theorem devWrite_kept (s : State) (src area g : Nat) (l : List Nat) : CelKept s (s.devWrite src area g l) := by
  unfold State.devWrite
  split
  · exact ⟨rfl, rfl, rfl, rfl, rfl, Nat.le_refl _, fun _ _ => rd_setCel _ _ _⟩
  · exact celWriteRun_kept s g l

theorem devWrite_groups (s : State) (src area g : Nat) (l : List Nat) {j : Nat} (h : j < g ∨ g + l.length ≤ j) :
    (s.devWrite src area g l).celRaw j = s.celRaw j := by
  unfold State.devWrite
  split
  · rfl
  · exact (celWriteRun_written s g l).2 j h

/-- Two fields of the word of one unit. -/
theorem unit_free {u a n b m : Nat} (hn : n ≤ 32) (hm : b + m ≤ 32) (h : a + n ≤ b ∨ b + m ≤ a) :
    (⟨0x0D8, 0x100 + 4 * u, a, n⟩ : Fld).free ⟨0x0D8, 0x100 + 4 * u, b, m⟩ = true :=
  free_of_bits rfl rfl hn hm h

/-- The word of a unit stands apart from the registers below. -/
theorem unit_free_low {f : Fld} {u b m : Nat} (hf : f.width ≤ 32) (hk : f.key < 0xD80F0) (hm : b + m ≤ 32) :
    f.free ⟨0x0D8, 0x100 + 4 * u, b, m⟩ = true :=
  free_of_key hf hm (.inl (by simp only [Fld.key, regKey] at hk ⊢; omega))

/-- A register below the units' words. -/
theorem low_free_unit {g : Fld} {u a n : Nat} (hn : n ≤ 32) (hg : g.lo + g.width ≤ 32) (hk : g.key < 0xD80F0) :
    (⟨0x0D8, 0x100 + 4 * u, a, n⟩ : Fld).free g = true :=
  free_of_key hn hg (.inr (by simp only [Fld.key, regKey] at hk ⊢; omega))

/-- A unit that changes its state shows it, and its state and holder go into the unit table. -/
theorem unitPut_parts (s : State) (u st holder : Nat) :
    (s.unitPut u st holder).unitState u = st % 4 ∧ (s.unitPut u st holder).unitHolder u = holder % 64 ∧
    (s.unitPut u st holder).cel.wipes = s.cel.wipes ∧
    (∀ j, j < 0x10048 ∨ 0x10049 + u / 8 ≤ j → (s.unitPut u st holder).celRaw j = s.celRaw j) ∧
    (∀ g : Fld, g.lo + g.width ≤ 32 → g.key < 0xD80F0 → CEL_BADN.free g = true →
      (s.unitPut u st holder).rd g = s.rd g) := by
  generalize hv : (s.wr (CEL_U_STATE u) st).wr (CEL_U_HOLD u) holder = v
  have same : v.except 1 = s.except 1 := by
    rw [← hv]
    exact (State.wr_same 1 rfl _ _ _).trans (State.wr_same 1 rfl _ _ _)
  have put : s.unitPut u st holder = v.devWrite srcGrant areaUnits (unitTable + u / 8) [v.unitWord (u / 8)] := by
    rw [← hv]
    rfl
  have kept := devWrite_kept v srcGrant areaUnits (unitTable + u / 8) [v.unitWord (u / 8)]
  have state : v.rd (CEL_U_STATE u) = st % 4 := by
    have apart : (CEL_U_HOLD u).free (CEL_U_STATE u) = true := unit_free (by decide) (by decide) (by decide)
    rw [← hv, rd_wr_free apart]
    exact rd_wr_same s (CEL_U_STATE u) st rfl
  have hold : v.rd (CEL_U_HOLD u) = holder % 64 := by
    rw [← hv]
    exact rd_wr_same _ (CEL_U_HOLD u) holder rfl
  have low {g : Fld} (hg : g.lo + g.width ≤ 32) (hk : g.key < 0xD80F0) : v.rd g = s.rd g := by
    have first : (CEL_U_STATE u).free g = true := low_free_unit (by decide) hg hk
    have second : (CEL_U_HOLD u).free g = true := low_free_unit (by decide) hg hk
    rw [← hv, rd_wr_free second, rd_wr_free first]
  rw [put]
  refine ⟨(kept.rd _ (unit_free_low (by decide) (by decide) (by decide))).trans state,
    (kept.rd _ (unit_free_low (by decide) (by decide) (by decide))).trans hold,
    kept.wipes.trans (congrArg CelState.wipes (part_of_except same .cel rfl)), fun j hj => ?_,
    fun g hg hk hb => (kept.rd g hb).trans (low hg hk)⟩
  rw [devWrite_groups]
  · exact celRaw_of_cel (part_of_except same .cel rfl) j
  · have place : unitTable = 0x10048 := by decide
    rw [place, List.length_singleton]
    omega

theorem startWipe_parts (s : State) (w : UnitWipe) :
    (s.startWipe w).unitState w.unit = unitPending ∧ (s.startWipe w).cel.wipes = s.cel.wipes ++ [w] ∧
    (∀ g : Fld, g.lo + g.width ≤ 32 → g.key < 0xD80F0 → CEL_BADN.free g = true → (s.startWipe w).rd g = s.rd g) := by
  obtain ⟨state, -, wipes, -, rest⟩ := unitPut_parts s w.unit unitPending 0
  have rd (g : Fld) : (s.startWipe w).rd g = (s.unitPut w.unit unitPending 0).rd g := rd_setCel _ _ _
  refine ⟨(rd _).trans state, ?_, fun g hg hk hb => (rd g).trans (rest g hg hk hb)⟩
  change (s.unitPut w.unit unitPending 0).cel.wipes ++ [w] = _
  rw [wipes]

/-! ### CEL_UNRESV and CEL_BPARM -/

/-- What a write of page 0x0D8 answers, with its code shown. -/
theorem rd_ccode (s : State) (c : Status) : (s.wr CEL_CCODE (codeOf c)).rd CEL_CCODE = codeOf c :=
  rd_wr_lt rfl (codeOf_lt c) s

/-- The word of CEL_UNRESV and CEL_BPARM is stored, and an arming in it counts from now. -/
def State.celArmWord (s : State) (d : Nat) : State :=
  let s := s.storeWord 0x0D8 0x064 d
  if bit d 0 then s.setCel fun c => { c with armed := some s.ticks } else s

theorem celArmWord_parts (s : State) (d : Nat) :
    (s.celArmWord d).rd CEL_UR_UNIT = bits d 8 6 ∧ (s.celArmWord d).cel.wipes = s.cel.wipes ∧
    (∀ g : Fld, g.width ≤ 32 → g.key ≠ regKey 0x0D8 0x064 → (s.celArmWord d).rd g = s.rd g) ∧
    (bit d 0 = true → (s.celArmWord d).cel = { s.cel with armed := some s.ticks }) := by
  have narrow : wideOf 0x0D8 0x064 = none := by decide
  have unit : (s.storeWord 0x0D8 0x064 d).rd CEL_UR_UNIT = bits d 8 6 :=
    rd_storeWord_set narrow (by decide) (by decide) (by decide) s d
  have same := State.storeWord_same 41 rfl s 0x0D8 0x064 d
  have other (g : Fld) (hg : g.width ≤ 32) (h : g.key ≠ regKey 0x0D8 0x064) :
      (s.storeWord 0x0D8 0x064 d).rd g = s.rd g := rd_storeWord_other narrow hg h s d
  have cel : (s.storeWord 0x0D8 0x064 d).cel = s.cel := part_of_except same .cel rfl
  have ticks : (s.storeWord 0x0D8 0x064 d).ticks = s.ticks := part_of_except same .ticks rfl
  unfold State.celArmWord
  dsimp only
  split
  · refine ⟨(rd_setCel _ _ _).trans unit, by rw [State.setCel, cel], fun g hg h => (rd_setCel _ _ _).trans
      (other g hg h),
      fun _ => ?_⟩
    rw [State.setCel, cel, ticks]
  next clear => exact ⟨unit, congrArg CelState.wipes cel, other, fun h => absurd h clear⟩

theorem celWriter_arm {s : State} {q : Req} {d : Nat} (hq : q.page = 0x0D8 ∧ q.off = 0x064) :
    celWriter none s q d = if bit d 1 then (s.celArmWord d).unitRelease
      else (.ok, (s.celArmWord d).wr CEL_CCODE (codeOf .ok)) := by
  unfold celWriter
  dsimp only
  rw [hq.2, hq.1, if_neg (by decide), if_neg (by decide), if_pos rfl]
  rfl

/-- The unit that is asked to be released as its word stands. -/
theorem unit_celArmWord {s : State} {d u lo wd : Nat} (hw : lo + wd ≤ 32) :
    (s.celArmWord d).rd ⟨0x0D8, 0x100 + 4 * u, lo, wd⟩ = s.rd ⟨0x0D8, 0x100 + 4 * u, lo, wd⟩ :=
  (celArmWord_parts s d).2.2.1 _ (show wd ≤ 32 by omega) (by simp only [Fld.key, regKey]; omega)

theorem unitCovered_celArmWord (s : State) (d u : Nat) : (s.celArmWord d).unitCovered u = s.unitCovered u := by
  rw [State.unitCovered, State.unitCovered, (celArmWord_parts s d).2.2.1 CEL_BP (by decide) (by decide)]

/-- CEL_UNRESV of a reserved unit that is not covered starts its wipe. -/
theorem celUnresv_wipes {s : State} {w : RegWrite} {u : Nat}
    (hw : s.admitsWrite 0x0D8 0x064 w (setBit w.data.toNat 1) = true) (hu : u = bits w.data.toNat 8 6)
    (hs : s.unitState u = unitReserved) (hc : s.unitCovered u = false) :
    Answers (.celUnresv w) s fun t =>
      t.resp.code = .ok ∧ t.rd CEL_CCODE = codeOf .ok ∧ t.unitState u = unitPending ∧
      t.cel.wipes = s.cel.wipes ++ [⟨u, unitHome, 0, false, some (s.unitHolder u)⟩] := by
  let d := (BitVec.ofNat 32 (setBit w.data.toNat 1)).toNat
  obtain ⟨unit, wipes, -, -⟩ := celArmWord_parts s d
  have unitU : (s.celArmWord d).rd CEL_UR_UNIT = u := by
    rw [unit, hu]
    exact bits_command (.inl (by decide)) (by decide)
  have state : (s.celArmWord d).unitState u = s.unitState u := unit_celArmWord (by decide)
  have holder : (s.celArmWord d).unitHolder u = s.unitHolder u := unit_celArmWord (by decide)
  have covered := unitCovered_celArmWord s d u
  have bit1 : bit d 1 = true := (bit_command (by decide)).trans (if_pos rfl)
  have done : celWriter none s ⟨w.port, w.tc.val, 0x0D8, 0x064, none⟩ d =
      (.ok, ((s.celArmWord d).wr CEL_CCODE (codeOf .ok)).startWipe ⟨u, unitHome, 0, false,
        some (((s.celArmWord d).wr CEL_CCODE (codeOf .ok)).unitHolder u)⟩) := by
    rw [celWriter_arm ⟨rfl, rfl⟩, bit1, if_pos rfl]
    unfold State.unitRelease
    dsimp only
    rw [unitU, state, covered, hs, hc, if_neg (fun h => h rfl), if_neg Bool.false_ne_true, if_pos rfl]
  have kept : ((s.celArmWord d).wr CEL_CCODE (codeOf .ok)).unitHolder u = s.unitHolder u := by
    rw [State.unitHolder, rd_wr_free (f := CEL_CCODE) (g := CEL_U_HOLD u)
      (unit_free_low (by decide) (by decide) (by decide))]
    exact holder
  rw [kept] at done
  obtain ⟨pending, started, rest⟩ := startWipe_parts ((s.celArmWord d).wr CEL_CCODE (codeOf .ok))
    ⟨u, unitHome, 0, false, some (s.unitHolder u)⟩
  refine answers_write (f := fun d => setBit d 1) (h := celWriter none) rfl (by decide) hw done ⟨rfl, ?_, ?_, ?_⟩
  · rw [rd_answer, rest _ (by decide) (by decide) (by decide), rd_ccode]
  · rw [State.unitState, rd_answer]
    exact pending
  · rw [part_of_except (State.answer_same 512 rfl _ _) .cel rfl, started,
      part_of_except (State.wr_same 1 rfl _ _ _) .cel rfl, wipes]

/-- CEL_UNRESV of a unit that is not reserved is refused. -/
theorem celUnresv_refuses {s : State} {w : RegWrite} {u : Nat}
    (hw : s.admitsWrite 0x0D8 0x064 w (setBit w.data.toNat 1) = true) (hu : u = bits w.data.toNat 8 6)
    (hs : s.unitState u ≠ unitReserved) :
    Answers (.celUnresv w) s fun t =>
      t.resp.code = .cfgInvalid ∧ t.rd CEL_CCODE = codeOf .cfgInvalid ∧ t.cel.wipes = s.cel.wipes ∧
      t.unitState u = s.unitState u := by
  let d := (BitVec.ofNat 32 (setBit w.data.toNat 1)).toNat
  obtain ⟨unit, wipes, -, -⟩ := celArmWord_parts s d
  have unitU : (s.celArmWord d).rd CEL_UR_UNIT = u := by
    rw [unit, hu]
    exact bits_command (.inl (by decide)) (by decide)
  have state : (s.celArmWord d).unitState u = s.unitState u := unit_celArmWord (by decide)
  have bit1 : bit d 1 = true := (bit_command (by decide)).trans (if_pos rfl)
  have done : celWriter none s ⟨w.port, w.tc.val, 0x0D8, 0x064, none⟩ d =
      (.cfgInvalid, (s.celArmWord d).wr CEL_CCODE (codeOf .cfgInvalid)) := by
    rw [celWriter_arm ⟨rfl, rfl⟩, bit1, if_pos rfl]
    unfold State.unitRelease
    dsimp only
    rw [unitU, state, if_pos hs, if_neg (by decide)]
  refine answers_write_coded (f := fun d => setBit d 1) (h := celWriter none) rfl (by decide) hw done
    ⟨rfl, ?_, ?_, ?_⟩
  · rw [rd_answer, rd_capture_other _ _ _ _ _ (by decide) (by decide) (by decide), rd_ccode]
  · rw [part_of_except ((State.answer_same 513 rfl _ _).trans ((State.capture_same 513 rfl _ _ _ _ _ _).trans
      (State.wr_same 513 rfl _ _ _))) .cel rfl, wipes]
  · rw [State.unitState, rd_answer, rd_capture_other _ _ _ _ _ (show 2 ≤ 32 by decide)
      (by simp only [Fld.key, regKey, CEL_U_STATE]; omega) (by simp only [Fld.key, regKey, CEL_U_STATE]; omega),
      rd_wr_free (f := CEL_CCODE) (g := CEL_U_STATE u) (unit_free_low (by decide) (by decide) (by decide))]
    exact state

/-- CEL_BPARM arms. -/
theorem celBparm_arms {s : State} {w : RegWrite} (hw : s.admitsWrite 0x0D8 0x064 w (setBit w.data.toNat 0) = true)
    (h1 : bit w.data.toNat 1 = false) :
    Answers (.celBparm w) s fun t => t.resp.code = .ok ∧ t.cel = { s.cel with armed := some s.ticks } := by
  let d := (BitVec.ofNat 32 (setBit w.data.toNat 0)).toNat
  obtain ⟨-, -, -, armed⟩ := celArmWord_parts s d
  have bit0 : bit d 0 = true := (bit_command (by decide)).trans (if_pos rfl)
  have bit1 : bit d 1 = false := (bit_command (by decide)).trans ((if_neg (by decide)).trans h1)
  have done : celWriter none s ⟨w.port, w.tc.val, 0x0D8, 0x064, none⟩ d =
      (.ok, (s.celArmWord d).wr CEL_CCODE (codeOf .ok)) := by
    rw [celWriter_arm ⟨rfl, rfl⟩, bit1, if_neg Bool.false_ne_true]
  refine answers_write (f := fun d => setBit d 0) (h := celWriter none) rfl (by decide) hw done ⟨rfl, ?_⟩
  rw [part_of_except ((State.answer_same 513 rfl _ _).trans (State.wr_same 513 rfl _ _ _)) .cel rfl]
  exact armed bit0

/-! ### CEL_BP -/

/-- The bits of the units shown up to the `n`-th. -/
theorem bpShown (s : State) (n : Nat) (hn : n ≤ 64) :
    let t := (List.range n).foldl (fun s u => s.wr (CEL_U_BP u) (b2n (s.unitCovered u))) s
    (∀ g : Fld, g.lo + g.width ≤ 32 → g.key < 0xD80F0 → t.rd g = s.rd g) ∧
    ∀ u < n, t.on (CEL_U_BP u) = s.unitCovered u := by
  induction n with
  | zero => exact ⟨fun _ _ _ => rfl, fun u hu => absurd hu (Nat.not_lt_zero u)⟩
  | succ n ih =>
    obtain ⟨rest, shown⟩ := ih (by omega)
    dsimp only at rest shown ⊢
    rw [List.range_succ, List.foldl_append, List.foldl_cons, List.foldl_nil]
    generalize (List.range n).foldl (fun s u => s.wr (CEL_U_BP u) (b2n (s.unitCovered u))) s = v at rest shown ⊢
    have covered : v.unitCovered n = s.unitCovered n := by
      rw [State.unitCovered, State.unitCovered, rest CEL_BP (by decide) (by decide)]
    refine ⟨fun g hg hk => ?_, fun u hu => ?_⟩
    · have apart : (CEL_U_BP n).free g = true := low_free_unit (by decide) hg hk
      rw [rd_wr_free apart, rest g hg hk]
    · by_cases last : u = n
      · rw [last, covered]
        exact on_wr_b2n rfl (show 0 < 1 by decide) v _
      · have apart : (CEL_U_BP n).free (CEL_U_BP u) = true :=
          free_of_off rfl (show 1 ≤ 32 by decide) (show 13 + 1 ≤ 32 by decide) (by simp only [CEL_U_BP]; omega)
        rw [on_wr_free apart]
        exact shown u (by omega)

theorem bpShow_parts (s : State) : s.bpShow.rd CEL_BP = s.rd CEL_BP ∧ s.bpShow.rd CEL_CCODE = s.rd CEL_CCODE ∧
    ∀ u < 64, s.bpShow.on (CEL_U_BP u) = s.unitCovered u := by
  obtain ⟨rest, shown⟩ := bpShown s 64 (Nat.le_refl _)
  exact ⟨rest _ (by decide) (by decide), rest _ (by decide) (by decide), shown⟩

theorem celWriter_bp {s : State} {q : Req} {d : Nat} (hq : q.page = 0x0D8 ∧ q.off = 0x044) :
    celWriter none s q d = ((s.bpWrite q d).1, (s.bpWrite q d).2.wr CEL_CCODE (codeOf (s.bpWrite q d).1)) := by
  unfold celWriter
  dsimp only
  rw [if_pos hq.2]

/-- CEL_BP is raised, or lowered while armed. -/
theorem celBpWrite_writes {s : State} {w : RegWrite} (hw : s.admitsWrite 0x0D8 0x044 w w.data.toNat = true)
    (ha : s.rd CEL_BP ≤ bits w.data.toNat 0 2 ∨ ∃ a, s.cel.armed = some a ∧ s.ticks ≤ a + 65536) :
    Answers (.celBpWrite w) s fun t =>
      t.resp.code = .ok ∧ t.rd CEL_BP = bits w.data.toNat 0 2 ∧ t.cel.armed = none ∧
      ∀ u < 64, t.on (CEL_U_BP u) = bpCovers (bits w.data.toNat 0 2) u := by
  generalize hv : (s.setCel fun c => { c with armed := none }).storeWord 0x0D8 0x044 w.data.toNat = v
  have narrow : wideOf 0x0D8 0x044 = none := by decide
  have bp : v.rd CEL_BP = bits w.data.toNat 0 2 := by
    rw [← hv]
    exact rd_storeWord_set narrow (by decide) (by decide) (by decide) _ _
  have armed : v.cel.armed = none := by
    rw [← hv, part_of_except (State.storeWord_same 41 rfl _ _ _ _) .cel rfl]
    rfl
  have admitted : ¬(bits w.data.toNat 0 2 < s.rd CEL_BP ∧ s.bpArmed = false) := by
    rintro ⟨lower, unarmed⟩
    rcases ha with raise | ⟨a, arm, soon⟩
    · omega
    · rw [State.bpArmed, arm] at unarmed
      have past : decide (s.ticks ≤ a + 65536) = false := unarmed
      exact absurd ((decide_eq_true soon).symm.trans past) (by decide)
  have done : celWriter none s ⟨w.port, w.tc.val, 0x0D8, 0x044, none⟩ (BitVec.ofNat 32 (id w.data.toNat)).toNat =
      (.ok, v.bpShow.wr CEL_CCODE (codeOf .ok)) := by
    have written : s.bpWrite ⟨w.port, w.tc.val, 0x0D8, 0x044, none⟩ w.data.toNat = (.ok, v.bpShow) := by
      unfold State.bpWrite
      dsimp only
      rw [rd_setCel, if_neg admitted, hv]
    rw [id, BitVec.ofNat_toNat, BitVec.setWidth_eq, celWriter_bp ⟨rfl, rfl⟩, written]
  obtain ⟨kept, -, shown⟩ := bpShow_parts v
  refine answers_write (f := id) (h := celWriter none) rfl (by decide) hw done ⟨rfl, ?_, ?_, fun u hu => ?_⟩
  · rw [rd_answer, rd_wr_free (by decide), kept, bp]
  · rw [part_of_except ((State.answer_same 513 rfl _ _).trans ((State.wr_same 513 rfl _ _ _).trans
      (State.bpShow_same 513 rfl _))) .cel rfl]
    exact armed
  · have apart : CEL_CCODE.free (CEL_U_BP u) = true := unit_free_low (by decide) (by decide) (by decide)
    rw [on_answer, on_wr_free apart, shown u hu, State.unitCovered, bp]

/-- CEL_BP lowered without an arming in time is refused. -/
theorem celBpWrite_refuses {s : State} {w : RegWrite} (hw : s.admitsWrite 0x0D8 0x044 w w.data.toNat = true)
    (hl : bits w.data.toNat 0 2 < s.rd CEL_BP)
    (ha : s.cel.armed = none ∨ ∃ a, s.cel.armed = some a ∧ a + 65536 < s.ticks) :
    Answers (.celBpWrite w) s fun t =>
      t.resp.code = .timeout ∧ t.rd CEL_BP = s.rd CEL_BP ∧ t.rd CEL_CCODE = codeOf .timeout := by
  have unarmed : s.bpArmed = false := by
    rw [State.bpArmed]
    rcases ha with none | ⟨a, arm, late⟩
    · rw [none]
    · rw [arm]
      exact decide_eq_false (by omega)
  have done : celWriter none s ⟨w.port, w.tc.val, 0x0D8, 0x044, none⟩ (BitVec.ofNat 32 (id w.data.toNat)).toNat =
      (.timeout, (s.setCel fun c => { c with armed := none }).wr CEL_CCODE (codeOf .timeout)) := by
    have written : s.bpWrite ⟨w.port, w.tc.val, 0x0D8, 0x044, none⟩ w.data.toNat =
        (.timeout, s.setCel fun c => { c with armed := none }) := by
      unfold State.bpWrite
      dsimp only
      rw [rd_setCel, if_pos ⟨hl, unarmed⟩]
    rw [id, BitVec.ofNat_toNat, BitVec.setWidth_eq, celWriter_bp ⟨rfl, rfl⟩, written]
  refine answers_write_coded (f := id) (h := celWriter none) rfl (by decide) hw done ⟨rfl, ?_, ?_⟩
  · rw [rd_answer, rd_capture_other _ _ _ _ _ (by decide) (by decide) (by decide), rd_wr_free (by decide), rd_setCel]
  · rw [rd_answer, rd_capture_other _ _ _ _ _ (by decide) (by decide) (by decide), rd_ccode]

set_option autoImplicit false

/-! ### The wipe of a unit -/

theorem celWriteRun_zeros (s : State) (g n : Nat) {i : Nat} (h : i < n) :
    (s.celWriteRun g (List.replicate n 0)).celRaw (g + i) = celWord (g + i) 0 :=
  (celWriteRun_written s g _).1 i 0 (by rw [List.getElem?_replicate, if_pos h])

theorem zeroUnit_zero (s : State) (u : Nat) {i : Nat} (h : i < 1024) :
    (s.zeroUnit u).celRaw (unitGroup u + i) = celWord (unitGroup u + i) 0 := by
  rw [State.zeroUnit]
  exact celWriteRun_zeros s (unitGroup u) 1024 h

/-- The end of a grant touches the tenants' pages and page 2. -/
theorem rd_grantEnd (s : State) {f : Fld} (h : f.outside ([0x002] ++ tenantPages) = true) :
    (s.grantEnd 0).rd f = s.rd f := by
  have ring (u : State) (t k c r i : Nat) :
      Past ([0x002] ++ tenantPages) (u.ringRecord t k c r i) = Past ([0x002] ++ tenantPages) u :=
    State.ringRecord_past (coversTenants_append [0x002]) u t k c r i
  refine rd_of_past ?_ h
  unfold State.grantEnd
  split
  · rfl
  · refine (ring _ _ _ _ _ _).trans ((past_of_except (State.log_same _ rfl _ _ _ _)).trans ?_)
    have page : ([0x002] ++ tenantPages).contains 0x002 = true := by decide
    exact (State.wr_past page (by decide) _ _).trans ((State.wr_past page (by decide) _ _).trans
      (past_of_except (State.setTnc_same _ rfl _ _)))

/-- A command of the grants, once it has ended. -/
theorem grantEnd_parts {s : State} (h : s.tnc.grantCmd.isSome = true) :
    (s.grantEnd 0).on TNC_G_BUSY = false ∧ (s.grantEnd 0).rd TNC_G_CODE = codeOf .ok := by
  obtain ⟨g, command⟩ := Option.isSome_iff_exists.mp h
  have ring (u : State) (t k c r i : Nat) (f : Fld) (hf : f.outside ([] ++ tenantPages) = true) :
      (u.ringRecord t k c r i).rd f = u.rd f :=
    rd_of_past (State.ringRecord_past (coversTenants_append []) u t k c r i) hf
  unfold State.grantEnd
  rw [command]
  dsimp only
  refine ⟨?_, ?_⟩
  · rw [State.on, ring _ _ _ _ _ _ TNC_G_BUSY (by decide), rd_log]
    exact on_wr_b2n rfl (by decide) _ false
  · rw [ring _ _ _ _ _ _ TNC_G_CODE (by decide), rd_log, rd_wr_free (by decide)]
    exact rd_wr_lt rfl (codeOf_lt _) _

/-- The word of a unit lies outside the pages of the grants. -/
theorem unit_outside {u b m : Nat} (hu : u < 64) (hm : m ≤ 32) :
    (⟨0x0D8, 0x100 + 4 * u, b, m⟩ : Fld).outside ([0x002] ++ tenantPages) = true := by
  have place : 0x100 + 4 * u < 4096 := by omega
  have page : ([0x002] ++ tenantPages).contains 0x0D8 = false := by decide
  simp only [Fld.outside, page, place, hm, Bool.not_false, decide_true]
  rfl

/-- The release that a wipe ends is logged. -/
def State.wipeLogged (s : State) (x : UnitWipe) : State :=
  match x.release with
  | some t => s.log 0x4012 t (x.unit + t * 2 ^ 10 + 3 * 2 ^ 16)
  | none => s

theorem wipeLogged_parts (s : State) (x : UnitWipe) :
    (s.wipeLogged x).cel = s.cel ∧ (s.wipeLogged x).tnc = s.tnc ∧ (∀ f, (s.wipeLogged x).rd f = s.rd f) ∧
    ∀ r, x.release = some r → Logged s (s.wipeLogged x) 0x4012 r (x.unit + r * 2 ^ 10 + 3 * 2 ^ 16) := by
  unfold State.wipeLogged
  cases x.release with
  | none => exact ⟨rfl, rfl, fun _ => rfl, fun r h => absurd h (by simp)⟩
  | some t =>
    refine ⟨rfl, rfl, fun _ => rd_log _ _ _ _ _, fun r h => ?_⟩
    obtain rfl := Option.some.inj h
    rfl

/-- A wiped unit takes its next state, and the release that it ends is logged. -/
def State.wipeNoted (s : State) (x : UnitWipe) (l : List UnitWipe) : State :=
  (((s.zeroUnit x.unit).setCel fun c => { c with wipes := l }).unitPut x.unit x.state x.holder).wipeLogged x

theorem unitWipeDone_command {s : State} {x : UnitWipe} {l : List UnitWipe} (hw : s.cel.wipes = x :: l)
    (hb : s.celBlocked = false) (hr : s.cel.run = none) :
    exec .unitWipeDone s =
      .next (if x.command then (s.wipeNoted x l).grantEnd 0 else s.wipeNoted x l) := by
  change execUnitWipeDone s = _
  unfold execUnitWipeDone
  rw [hw]
  dsimp only
  rw [if_neg (by rw [hb, hr]; decide)]
  rfl

theorem wipes_set (s : State) (l : List UnitWipe) :
    (s.setCel fun c => { c with wipes := l }).cel.groups = s.cel.groups ∧
    (s.setCel fun c => { c with wipes := l }).cel.wipes = l ∧
    (s.setCel fun c => { c with wipes := l }).except 4194305 = s.except 4194305 :=
  ⟨rfl, rfl, State.setCel_same 4194305 rfl _ _⟩

theorem wipeNoted_parts {s : State} {x : UnitWipe} {l : List UnitWipe} (hu : 16 ≤ x.unit) (hx : x.unit < 64) :
    (s.wipeNoted x l).cel.wipes = l ∧ (s.wipeNoted x l).unitState x.unit = x.state % 4 ∧
    (s.wipeNoted x l).unitHolder x.unit = x.holder % 64 ∧
    (∀ i < 1024, (s.wipeNoted x l).celRaw (unitGroup x.unit + i) = celWord (unitGroup x.unit + i) 0) ∧
    (∀ r, x.release = some r → Logged s (s.wipeNoted x l) 0x4012 r (x.unit + r * 2 ^ 10 + 3 * 2 ^ 16)) ∧
    (s.wipeNoted x l).tnc = s.tnc := by
  have zeroed {i : Nat} (hi : i < 1024) := zeroUnit_zero s x.unit hi
  have zsame := State.zeroUnit_same 4194305 rfl s x.unit
  obtain ⟨groups, vwipes, dropped⟩ := wipes_set (s.zeroUnit x.unit) l
  have vsame := dropped.trans zsame
  unfold State.wipeNoted
  generalize (s.zeroUnit x.unit).setCel (fun c => { c with wipes := l }) = v at groups vwipes vsame ⊢
  obtain ⟨state, holder, wipes, raw, -⟩ := unitPut_parts v x.unit x.state x.holder
  have psame := State.unitPut_same 4194305 rfl v x.unit x.state x.holder
  have written (i : Nat) (hi : i < 1024) :
      (v.unitPut x.unit x.state x.holder).celRaw (unitGroup x.unit + i) = celWord (unitGroup x.unit + i) 0 := by
    rw [raw _ (.inr (by unfold unitGroup; omega)), celRaw_of_groups groups]
    exact zeroed hi
  have quiet := (part_of_except psame .events rfl).trans (part_of_except vsame .events rfl)
  have tnc := (part_of_except psame .tnc rfl).trans (part_of_except vsame .tnc rfl)
  generalize v.unitPut x.unit x.state x.holder = p at state holder wipes written quiet tnc
  obtain ⟨cel, ptnc, rd, logged⟩ := wipeLogged_parts p x
  refine ⟨by rw [cel, wipes, vwipes], (rd _).trans state, (rd _).trans holder, fun i hi => ?_, fun r h => ?_,
    ptnc.trans tnc⟩
  · rw [celRaw_of_cel cel]
    exact written i hi
  · rw [Logged, logged r h, quiet]

/-- A wipe done leaves the unit zero and in its next state. -/
theorem unitWipeDone_answers {s : State} {x : UnitWipe} {l : List UnitWipe} (hw : s.cel.wipes = x :: l)
    (hb : s.celBlocked = false) (hr : s.cel.run = none) (hu : 16 ≤ x.unit) (hx : x.unit < 64) :
    Answers .unitWipeDone s fun t =>
      t.cel.wipes = l ∧ t.unitState x.unit = x.state % 4 ∧ t.unitHolder x.unit = x.holder % 64 ∧
      (∀ i < 1024, t.celRaw (unitGroup x.unit + i) = celWord (unitGroup x.unit + i) 0) ∧
      (∀ r, x.release = some r → x.command = false →
        Logged s t 0x4012 r (x.unit + r * 2 ^ 10 + 3 * 2 ^ 16)) ∧
      (x.command = true → s.tnc.grantCmd.isSome = true → t.on TNC_G_BUSY = false ∧ t.rd TNC_G_CODE = codeOf .ok) := by
  obtain ⟨wipes, state, holder, written, logged, tnc⟩ := wipeNoted_parts (s := s) (l := l) hu hx
  refine ⟨_, unitWipeDone_command hw hb hr, ?_⟩
  generalize s.wipeNoted x l = v at wipes state holder written logged tnc
  split
  next asked =>
    have same := State.grantEnd_same 8449 rfl v 0
    refine ⟨by rw [part_of_except same .cel rfl]; exact wipes, (rd_grantEnd v (unit_outside hx (by decide))).trans
      state,
      (rd_grantEnd v (unit_outside hx (by decide))).trans holder, fun i hi => ?_,
      fun r _ h => absurd (asked.symm.trans h) (by decide), fun _ h => grantEnd_parts (by rw [tnc]; exact h)⟩
    rw [celRaw_of_cel (part_of_except same .cel rfl)]
    exact written i hi
  next plain => exact ⟨wipes, state, holder, written, fun r h _ => logged r h, fun h => absurd h plain⟩

set_option autoImplicit false

/-! ### The management port -/

theorem portEnd_parts (s : State) (c : Status) (n : Nat) :
    (s.portEnd c n).1 = c ∧ (s.portEnd c n).2.rd CEL_M_CODE = codeOf c ∧
    (s.portEnd c n).2.rd CEL_M_LAST = (n + 255) % 256 ∧ bit ((s.portEnd c n).2.rd (IRQ_RAW 0x0D8)) 3 = true ∧
    (s.portEnd c n).2.cel = s.cel ∧ (∀ i, (s.portEnd c n).2.rd (CEL_MBUF i) = s.rd (CEL_MBUF i)) := by
  unfold State.portEnd
  dsimp only
  refine ⟨rfl, ?_, ?_, bit_raise_same _ _ (by decide), ?_, fun i => ?_⟩
  · rw [rd_raise_free (by decide), rd_wr_free (by decide)]
    exact rd_wr_lt rfl (codeOf_lt c) s
  · rw [rd_raise_free (by decide)]
    exact rd_wr_lt rfl (show _ < 2 ^ 8 by omega) _
  · exact part_of_except ((State.raise_same 1 rfl _ _ _).trans ((State.wr_same 1 rfl _ _ _).trans
      (State.wr_same 1 rfl _ _ _))) .cel rfl
  · have apart {f : Fld} (hf : f.width ≤ 32) (hk : f.key < 0xD80B0) : f.free (CEL_MBUF i) = true :=
      free_of_key hf (show 0 + 32 ≤ 32 by decide) (.inl (by simp only [Fld.key, regKey, CEL_MBUF] at hk ⊢; omega))
    rw [rd_raise_free (apart (by decide) (by decide)), rd_wr_free (apart (by decide) (by decide)),
      rd_wr_free (apart (by decide) (by decide))]

/-- The word of the port's command as it is stored. -/
def portWord (s : State) (w : RegWrite) : State :=
  s.storeWord 0x0D8 0x084 (BitVec.ofNat 32 (setBit w.data.toNat 8)).toNat

theorem portWord_parts (s : State) (w : RegWrite) :
    (portWord s w).cel = s.cel ∧ (portWord s w).rd CEL_M_NGRP = bits w.data.toNat 0 4 ∧
    (portWord s w).on CEL_M_DIR = bit w.data.toNat 4 ∧
    (∀ g : Fld, g.width ≤ 32 → g.key ≠ regKey 0x0D8 0x084 → (portWord s w).rd g = s.rd g) := by
  have narrow : wideOf 0x0D8 0x084 = none := by decide
  unfold portWord
  refine ⟨part_of_except (State.storeWord_same 41 rfl _ _ _ _) .cel rfl, ?_, ?_,
    fun g hg h => rd_storeWord_other narrow hg h s _⟩
  · exact (rd_storeWord_set narrow (by decide) (by decide) (by decide) s _).trans
      (bits_command (.inr (by decide)) (by decide))
  · have word : (s.storeWord 0x0D8 0x084 (BitVec.ofNat 32 (setBit w.data.toNat 8)).toNat).rd CEL_M_DIR =
        bits w.data.toNat 4 1 :=
      (rd_storeWord_set narrow (by decide) (by decide) (by decide) s _).trans
        (bits_command (.inr (by decide)) (by decide))
    rw [State.on, word, bit_eq_testBit, Nat.testBit_eq_decide_div_mod_eq]
    rfl

section
variable {s : State} {w : RegWrite} {g n : Nat} (hw : s.admitsWrite 0x0D8 0x084 w (setBit w.data.toNat 8) = true)
  (hp : w.port = .mgmt) (hm : s.on CEL_M_BUSY = false) (hg : g = s.rd CEL_M_GRP) (hn : n = bits w.data.toNat 0 4)
include hp hm

theorem celWriter_port :
    celWriter none s ⟨w.port, w.tc.val, 0x0D8, 0x084, none⟩ (BitVec.ofNat 32 (setBit w.data.toNat 8)).toNat =
      (portWord s w).portGo none := by
  have go : bit (BitVec.ofNat 32 (setBit w.data.toNat 8)).toNat 8 = true := (bit_command (by decide)).trans (if_pos rfl)
  unfold celWriter
  dsimp only
  rw [if_neg (by decide), if_neg (by decide), if_neg (by decide), if_pos (by decide), hp, if_neg (by decide), if_pos
    rfl,
    if_neg (by rw [hm]; decide), go, if_pos rfl]
  rfl

include hw

/-- A command of the port that is performed is answered with its code. -/
theorem celMGo_answers {c : Status} {v : State} {P : State → Prop} (e : (portWord s w).portGo none = (c, v))
    (hP : P ((v.capture 0x0D8 0x084 w.tc.val true c).answer c)) : Answers (.celMGo none w) s P :=
  answers_write_coded (f := fun d => setBit d 8) (h := celWriter none) rfl (by decide) hw
    ((celWriter_port hp hm).trans e) hP

theorem celMGo_ok {v : State} {P : State → Prop} (e : (portWord s w).portGo none = (.ok, v))
    (hP : P (v.answer .ok)) : Answers (.celMGo none w) s P :=
  answers_write (f := fun d => setBit d 8) (h := celWriter none) rfl (by decide) hw ((celWriter_port hp hm).trans e) hP

include hg hn

/-- The group and the number of groups that the command finds, and that no other runs. -/
theorem portWord_finds : (portWord s w).rd CEL_M_GRP = g ∧ (portWord s w).rd CEL_M_NGRP = n ∧
    (portWord s w).on CEL_M_BUSY = false ∧ (portWord s w).celBlocked = s.celBlocked := by
  obtain ⟨-, number, -, other⟩ := portWord_parts s w
  refine ⟨(other _ (by decide) (by decide)).trans hg.symm, number.trans hn.symm, ?_, ?_⟩
  · rw [State.on, other _ (by decide) (by decide)]
    exact hm
  · rw [State.celBlocked, State.celBlocked, State.on, State.on, other _ (by decide) (by decide)]

theorem cel_refused (c : Status) (k : Nat) :
    ((((portWord s w).portEnd c k).2.capture 0x0D8 0x084 w.tc.val true c).answer c).cel = s.cel := by
  rw [part_of_except ((State.answer_same 513 rfl _ _).trans (State.capture_same 513 rfl _ _ _ _ _ _)) .cel rfl,
    (portEnd_parts _ c k).2.2.2.2.1, (portWord_parts s w).1]

theorem celMGo_empty (h0 : n = 0) :
    Answers (.celMGo none w) s fun t => t.resp.code = .zeroLen ∧ t.cel = s.cel := by
  obtain ⟨grp, number, idle, -⟩ := portWord_finds hw hp hm hg hn
  have e : (portWord s w).portGo none = (.zeroLen, ((portWord s w).portEnd .zeroLen 0).2) := by
    unfold State.portGo
    dsimp only
    rw [if_neg (by rw [idle]; decide), if_pos (number.trans h0)]
    rfl
  exact celMGo_answers hw hp hm e ⟨rfl, cel_refused hw hp hm hg hn _ _⟩

theorem celMGo_outside (h0 : n ≠ 0) (hbad : 8 < n ∨ ∃ i < n, portGroup (g + i) = false) :
    Answers (.celMGo none w) s fun t => t.resp.code = .cfgInvalid ∧ t.cel = s.cel := by
  obtain ⟨grp, number, idle, -⟩ := portWord_finds hw hp hm hg hn
  have bad : 8 < n ∨ (!(List.range n).all fun i => portGroup (g + i)) = true := by
    refine hbad.imp_right fun ⟨i, hi, outside⟩ => ?_
    rw [Bool.not_eq_true', List.all_eq_false]
    exact ⟨i, List.mem_range.mpr hi, by rw [outside]; decide⟩
  have e : (portWord s w).portGo none = (.cfgInvalid, ((portWord s w).portEnd .cfgInvalid 0).2) := by
    unfold State.portGo
    dsimp only
    rw [if_neg (by rw [idle]; decide), number, if_neg h0, grp, if_pos bad]
    rfl
  exact celMGo_answers hw hp hm e ⟨rfl, cel_refused hw hp hm hg hn _ _⟩

variable (h0 : n ≠ 0) (h8 : n ≤ 8) (hall : ∀ i < n, portGroup (g + i) = true)
include h0 h8 hall

theorem portGo_checks {v : Status × State} (e : (if s.celBlocked = true then
      ((portWord s w).celLost srcPort 0xFFFF 0
        (if g = 0x10000 then areaBoot else if g < 0x10010 then areaStamp else areaGauge)).portEnd .powerLost 0
    else if bit w.data.toNat 4 = true then
      ((portWord s w).celWriteRun g ((List.range n).map (portWord s w).portData)).portEnd .ok n
    else
      let x := (portWord s w).celReadRun g n
      let s := (List.range x.1.length).foldl (fun s i =>
        let d := x.1.getD i 0
        (s.wr (CEL_MBUF (2 * i)) (d % 2 ^ 32)).wr (CEL_MBUF (2 * i + 1)) (d / 2 ^ 32)) x.2.2
      s.portEnd (if x.1.length < n then .integFail else .ok) x.1.length) = v) : (portWord s w).portGo none = v := by
  obtain ⟨grp, number, idle, blocked⟩ := portWord_finds hw hp hm hg hn
  have dir := (portWord_parts s w).2.2.1
  have good : ¬(8 < n ∨ (!(List.range n).all fun i => portGroup (g + i)) = true) := by
    rintro (many | outside)
    · omega
    · rw [List.all_eq_true.mpr fun i hi => hall i (List.mem_range.mp hi)] at outside
      exact absurd outside (by decide)
  rw [← e]
  unfold State.portGo
  dsimp only
  rw [if_neg (by rw [idle]; decide), number, if_neg h0, grp, if_neg good, blocked, dir]

theorem celMGo_blocked (hb : s.celBlocked = true) :
    Answers (.celMGo none w) s fun t =>
      t.resp.code = .powerLost ∧ t.rd CEL_M_LAST = 0xFF ∧ t.cel.groups = s.cel.groups := by
  generalize hv : (portWord s w).celLost srcPort 0xFFFF 0
    (if g = 0x10000 then areaBoot else if g < 0x10010 then areaStamp else areaGauge) = v
  have e : (portWord s w).portGo none = (.powerLost, (v.portEnd .powerLost 0).2) := by
    refine portGo_checks hw hp hm hg hn h0 h8 hall ?_
    rw [if_pos hb, hv]
    rfl
  have groups : v.cel.groups = s.cel.groups := by
    rw [← hv, State.celLost, part_of_except (State.raise_same 1 rfl _ _ _) .cel rfl]
    change (portWord s w).cel.groups = _
    rw [(portWord_parts s w).1]
  obtain ⟨-, -, last, -, cel, -⟩ := portEnd_parts v .powerLost 0
  refine celMGo_answers hw hp hm e ⟨rfl, ?_, ?_⟩
  · rw [rd_answer, rd_capture_other _ _ _ _ _ (by decide) (by decide) (by decide)]
    exact last
  · rw [part_of_except ((State.answer_same 513 rfl _ _).trans (State.capture_same 513 rfl _ _ _ _ _ _)) .cel rfl, cel]
    exact groups

theorem celMGo_writes (hb : s.celBlocked = false) (hd : bit w.data.toNat 4 = true) :
    Answers (.celMGo none w) s fun t =>
      t.resp.code = .ok ∧ t.rd CEL_M_CODE = codeOf .ok ∧ t.rd CEL_M_LAST = n - 1 ∧
      Written s t g ((List.range n).map s.portData) ∧ bit (t.rd (IRQ_RAW 0x0D8)) 3 = true := by
  obtain ⟨pcel, -, -, other⟩ := portWord_parts s w
  have data : (portWord s w).portData = s.portData := by
    funext i
    have buffer (k : Nat) : (portWord s w).rd (CEL_MBUF k) = s.rd (CEL_MBUF k) :=
      other _ (show 32 ≤ 32 by decide) (by simp only [Fld.key, regKey, CEL_MBUF]; omega)
    rw [State.portData, State.portData, buffer, buffer]
  have written := celWriteRun_written (portWord s w) g ((List.range n).map s.portData)
  have e : (portWord s w).portGo none =
      (.ok, (((portWord s w).celWriteRun g ((List.range n).map s.portData)).portEnd .ok n).2) := by
    refine portGo_checks hw hp hm hg hn h0 h8 hall ?_
    rw [if_neg (by rw [hb]; decide), if_pos hd, data]
    rfl
  generalize (portWord s w).celWriteRun g ((List.range n).map s.portData) = v at written e
  obtain ⟨-, code, last, irq, cel, -⟩ := portEnd_parts v .ok n
  refine celMGo_ok hw hp hm e ⟨rfl, (rd_answer _ _ _).trans code, ?_, ?_, ?_⟩
  · rw [rd_answer, last]
    omega
  · have groups : ((v.portEnd .ok n).2.answer .ok).cel.groups = v.cel.groups := congrArg CelState.groups
      ((part_of_except (State.answer_same 512 rfl _ _) .cel rfl).trans cel)
    obtain ⟨set, rest⟩ := written_of_groups written groups
    exact ⟨set, fun j hj => (rest j hj).trans (celRaw_of_cel pcel j)⟩
  · rw [rd_answer]
    exact irq
end

/-- The words of the port's buffer filled with the data of groups. -/
theorem portFill (s : State) (d : List Nat) (n : Nat) :
    let t := (List.range n).foldl (fun s i =>
      (s.wr (CEL_MBUF (2 * i)) (d.getD i 0 % 2 ^ 32)).wr (CEL_MBUF (2 * i + 1)) (d.getD i 0 / 2 ^ 32)) s
    t.except 1 = s.except 1 ∧ ∀ i < n, d.getD i 0 < 2 ^ 64 → t.portData i = d.getD i 0 := by
  induction n with
  | zero => exact ⟨rfl, fun i hi => absurd hi (Nat.not_lt_zero i)⟩
  | succ n ih =>
    obtain ⟨same, filled⟩ := ih
    dsimp only at same filled ⊢
    rw [List.range_succ, List.foldl_append, List.foldl_cons, List.foldl_nil]
    generalize (List.range n).foldl (fun s i =>
      (s.wr (CEL_MBUF (2 * i)) (d.getD i 0 % 2 ^ 32)).wr (CEL_MBUF (2 * i + 1)) (d.getD i 0 / 2 ^ 32)) s = v
      at same filled ⊢
    have apart {i j : Nat} (h : i ≠ j) : (CEL_MBUF i).free (CEL_MBUF j) = true :=
      free_of_off rfl (show 32 ≤ 32 by decide) (show 0 + 32 ≤ 32 by decide) (by simp only [CEL_MBUF]; omega)
    refine ⟨(State.wr_same 1 rfl _ _ _).trans ((State.wr_same 1 rfl _ _ _).trans same), fun i hi hx => ?_⟩
    by_cases last : i = n
    · subst last
      rw [State.portData, rd_wr_free (apart (by omega)), rd_wr_same _ (CEL_MBUF (2 * i)) _ rfl,
        rd_wr_same _ (CEL_MBUF (2 * i + 1)) _ rfl]
      change d.getD i 0 % 2 ^ 32 % 2 ^ 32 + 2 ^ 32 * (d.getD i 0 / 2 ^ 32 % 2 ^ 32) = _
      omega
    · have kept := filled i (by omega) hx
      rw [State.portData] at kept ⊢
      rw [rd_wr_free (apart (by omega)), rd_wr_free (apart (by omega)), rd_wr_free (apart (by omega)),
        rd_wr_free (apart (by omega))]
      exact kept

theorem celJudge_clean_lt {g x : Nat} {w : BitVec 72} (h : celJudge g w = .clean x) : x < 2 ^ 64 := by
  unfold celJudge at h
  dsimp only at h
  split at h
  · obtain rfl := GroupRead.clean.inj h
    exact Nat.mod_lt _ (by decide)
  · split at h
    · exact absurd h (by simp)
    · split at h <;> exact absurd h (by simp)

/-- A command of the port that reads clean groups shows their data. -/
theorem celMGo_reads {s : State} {w : RegWrite} {g n : Nat} {d : List Nat}
    (hw : s.admitsWrite 0x0D8 0x084 w (setBit w.data.toNat 8) = true) (hp : w.port = .mgmt)
    (hm : s.on CEL_M_BUSY = false) (hg : g = s.rd CEL_M_GRP) (hn : n = bits w.data.toNat 0 4) (h0 : n ≠ 0) (h8 : n ≤ 8)
    (hall : ∀ i < n, portGroup (g + i) = true) (hb : s.celBlocked = false) (hr : bit w.data.toNat 4 = false)
    (hl : d.length = n) (hd : ∀ i x, d[i]? = some x → celJudge (g + i) (s.celRaw (g + i)) = .clean x) :
    Answers (.celMGo none w) s fun t =>
      t.resp.code = .ok ∧ t.rd CEL_M_LAST = n - 1 ∧ t.cel.groups = s.cel.groups ∧
      ∀ i x, d[i]? = some x → t.portData i = x := by
  obtain ⟨pcel, -, -, -⟩ := portWord_parts s w
  have read : (portWord s w).celReadRun g n = (d, 0, portWord s w) := by
    rw [← hl]
    exact celReadRun_clean fun i x hx => by rw [celRaw_of_cel pcel]; exact hd i x hx
  obtain ⟨same, filled⟩ := portFill (portWord s w) d n
  generalize hv : (List.range n).foldl (fun s i =>
    (s.wr (CEL_MBUF (2 * i)) (d.getD i 0 % 2 ^ 32)).wr (CEL_MBUF (2 * i + 1)) (d.getD i 0 / 2 ^ 32)) (portWord s w) = v
    at same filled
  have e : (portWord s w).portGo none = (.ok, (v.portEnd .ok n).2) := by
    refine portGo_checks hw hp hm hg hn h0 h8 hall ?_
    rw [if_neg (by rw [hb]; decide), if_neg (by rw [hr]; decide), read]
    dsimp only
    rw [hl, hv, if_neg (Nat.lt_irrefl n)]
    rfl
  obtain ⟨-, -, last, -, cel, buffer⟩ := portEnd_parts v .ok n
  refine celMGo_ok hw hp hm e ⟨rfl, ?_, ?_, fun i x hx => ?_⟩
  · rw [rd_answer, last]
    omega
  · rw [part_of_except (State.answer_same 512 rfl _ _) .cel rfl, cel, part_of_except same .cel rfl, pcel]
  · have inside : i < n := by
      rw [← hl]
      exact (List.getElem?_eq_some_iff.mp hx).1
    have value : d.getD i 0 = x := by
      rw [List.getD_eq_getElem?_getD, hx]
      rfl
    rw [State.portData, rd_answer, rd_answer, buffer, buffer, ← State.portData,
      filled i inside (by rw [value]; exact celJudge_clean_lt (hd i x hx)), value]

theorem celStartOp_answers {s : State} {c : Instr} {op : Nat} {x : RingItem} (hc : exec c s = .next (s.celStartOp op))
    (h : CelReady s op x) : Answers c s fun t => CelRuns s t x (celData s op x.word.toNat) := ⟨_, hc, celStartOp_runs h⟩

/-- Settles O46. -/
theorem cellarComplete : Obligations.CellarComplete := by
  unfold Obligations.CellarComplete
  refine ⟨?_, fun s x => ⟨celStartOp_answers rfl, celStartOp_answers rfl, celStartOp_answers rfl⟩, ?_,
    fun s u l g hu hb hg hn => scrub_answers hu hb hg hn, fun s w u hw hu => ⟨fun hs hc => celUnresv_wipes hw hu hs hc,
      fun hs => celUnresv_refuses hw hu hs⟩, fun s w hw h1 => celBparm_arms hw h1,
    fun s w hw => ⟨fun ha => celBpWrite_writes hw ha, fun hl ha => celBpWrite_refuses hw hl ha⟩, ?_,
    fun s x l hw hb hr hu hx => unitWipeDone_answers hw hb hr hu hx⟩
  · rintro s k r he hr hl hs hb rfl
    exact ⟨fun hbad hf => celRingPoll_faults he hr hl hs hb hbad hf,
      fun hm h1 hh => celRingPoll_takes he hr hl hs hb hm h1 hh⟩
  · intro s r w l hr hl hw hd
    exact ⟨fun ho => celCommandComplete_writes hr hl hw hd ho,
      fun k ho hk hb => celCommandComplete_fails hr hl hw hd k ho hk hb,
      fun d ho hn hc => celCommandComplete_reads hr hl hw ho hn hc⟩
  · intro s w g n hw hp hm hg hn
    exact ⟨fun h0 => celMGo_empty hw hp hm hg hn h0, fun h0 hbad => celMGo_outside hw hp hm hg hn h0 hbad,
      fun h0 h8 hall => ⟨fun hb => celMGo_blocked hw hp hm hg hn h0 h8 hall hb,
        fun hb hd => celMGo_writes hw hp hm hg hn h0 h8 hall hb hd,
        fun d hb hr hl hc => celMGo_reads hw hp hm hg hn h0 h8 hall hb hr hl hc⟩⟩

end Sys2Proof.Machine

/-! ## The backup gauge (O47) -/

namespace Sys2Proof.Machine

open Reg

set_option autoImplicit false

/-! ### What an operation leaves of the registers, said by the fields that it writes -/

/-- Every field apart from those of `l` reads as before. -/
def RdKept (l : List Fld) (s t : State) : Prop := ∀ g : Fld, l.all (fun f => f.free g) = true → t.rd g = s.rd g

theorem RdKept.on {l : List Fld} {s t : State} (h : RdKept l s t) {g : Fld}
    (hg : l.all (fun f => f.free g) = true) : t.on g = s.on g := by
  rw [State.on, State.on, h g hg]

theorem RdKept.of_rd (l : List Fld) {s t : State} (h : ∀ g, t.rd g = s.rd g) : RdKept l s t := fun g _ => h g

theorem RdKept.refl (l : List Fld) (s : State) : RdKept l s s := .of_rd l fun _ => rfl

theorem RdKept.trans {l : List Fld} {s t u : State} (h : RdKept l s t) (k : RdKept l t u) : RdKept l s u :=
  fun g hg => (k g hg).trans (h g hg)

theorem RdKept.mono {l l' : List Fld} {s t : State} (h : RdKept l s t) (sub : l.all (l'.contains ·) = true) :
    RdKept l' s t := fun g hg => h g (by
  simp only [List.all_eq_true, List.contains_iff_mem] at sub hg ⊢
  exact fun f hf => hg f (sub f hf))

theorem RdKept.wr {l : List Fld} {s t : State} (h : RdKept l s t) {f : Fld} (v : Nat)
    (hf : l.contains f = true) : RdKept l s (t.wr f v) := fun g hg => by
  have free := List.all_eq_true.mp hg f (List.contains_iff_mem.mp hf)
  rw [rd_wr_free free, h g hg]

theorem RdKept.count {l : List Fld} {s t : State} (h : RdKept l s t) {f : Fld}
    (hf : l.contains f = true) : RdKept l s (t.count f) := h.wr _ hf

theorem RdKept.raise {l : List Fld} {s t : State} (h : RdKept l s t) {p : Nat} (b : Nat)
    (hf : l.contains (IRQ_RAW p) = true) : RdKept l s (t.raise p b) := h.wr _ hf

theorem RdKept.setBga {l : List Fld} {s t : State} (h : RdKept l s t) (f : BgaState → BgaState) :
    RdKept l s (t.setBga f) := h.trans (.of_rd l fun g => rd_setBga t f g)

theorem RdKept.setPmu {l : List Fld} {s t : State} (h : RdKept l s t) (f : PmuState → PmuState) :
    RdKept l s (t.setPmu f) := h.trans (.of_rd l fun g => rd_setPmu t f g)

theorem RdKept.ite {l : List Fld} {s t u : State} (h : RdKept l s t) (k : RdKept l s u) (c : Prop) [Decidable c] :
    RdKept l s (if c then t else u) := by split <;> assumption

theorem RdKept.foldl {l : List Fld} {α : Type} {g : State → α → State} (h : ∀ u x, RdKept l u (g u x)) (xs : List α)
    (s : State) : RdKept l s (xs.foldl g s) := by
  induction xs generalizing s with
  | nil => exact .refl l s
  | cons x xs ih => exact (h s x).trans (ih _)

/-! ### The charger and the power path -/

/-- The fields that the charger writes. -/
def chgFlds : List Fld := [PMU_CHG_ST, IRQ_RAW 0x0E8]

theorem setChg_kept (s : State) (c : Nat) : RdKept chgFlds s (s.setChg c) :=
  .ite (.refl _ _) (((RdKept.refl _ s).wr _ (by decide)).raise _ (by decide)) _

theorem chgFollow_kept (s : State) : RdKept chgFlds s s.chgFollow := by
  unfold State.chgFollow State.chgBegin
  exact .ite (.refl _ _) (.ite (((RdKept.refl _ s).setPmu _).trans (setChg_kept _ _))
    (.ite (((RdKept.refl _ s).setPmu _).trans (setChg_kept _ _)) (.refl _ _) _) _) _

/-- The fields that a change of the state of the PMU writes. -/
def pstFlds : List Fld := [PMU_PST, BGA_ONPACK, IRQ_RAW 0x0E0, PMU_CHG_ST, IRQ_RAW 0x0E8]

theorem onpackFollow_kept (s : State) : RdKept [BGA_ONPACK, IRQ_RAW 0x0E0] s s.onpackFollow := by
  unfold State.onpackFollow
  exact .ite (((RdKept.refl _ s).wr _ (by decide)).raise _ (by decide)) ((RdKept.refl _ s).wr _ (by decide)) _

theorem setPst_kept (s : State) (p : Nat) : RdKept pstFlds s (s.setPst p) :=
  (((RdKept.refl pstFlds s).wr _ (by decide)).trans ((onpackFollow_kept _).mono (by decide))).trans
    ((chgFollow_kept _).mono (by decide))

theorem bga_setPst (s : State) (p : Nat) : (s.setPst p).bga = s.bga :=
  part_of_except (State.setPst_same 2147483649 rfl s p) .bga rfl

theorem bga_chgFollow (s : State) : s.chgFollow.bga = s.bga :=
  part_of_except (State.chgFollow_same 2147483649 rfl s) .bga rfl

/-! ### The first part of a second: measurements and sense wires -/

/-- What the estimation reads of the state of the gauge, as before. -/
structure EstKept (a b : BgaState) : Prop where
  table : b.table = a.table
  restClk : b.restClk = a.restClk
  restCyc : b.restCyc = a.restCyc
  cycles : b.cycles = a.cycles
  rests : b.rests = a.rests
  cold : b.cold = a.cold

theorem EstKept.refl (a : BgaState) : EstKept a a := ⟨rfl, rfl, rfl, rfl, rfl, rfl⟩

theorem EstKept.trans {a b c : BgaState} (h : EstKept a b) (k : EstKept b c) : EstKept a c :=
  ⟨k.table.trans h.table, k.restClk.trans h.restClk, k.restCyc.trans h.restCyc, k.cycles.trans h.cycles,
    k.rests.trans h.rests, k.cold.trans h.cold⟩

/-- The fields that the end of learning writes. -/
def learnFlds : List Fld := [BGA_LRNACT, BGA_LRN_CODE, IRQ_RAW 0x0E0]

theorem learnEnd_kept (s : State) (c : Status) : RdKept learnFlds s (s.learnEnd c) :=
  .ite ((((((RdKept.refl _ s).wr _ (by decide)).wr _ (by decide)).raise _ (by decide))).setBga _) (.refl _ _) _

theorem learnEnd_est (s : State) (c : Status) : EstKept s.bga (s.learnEnd c).bga := by
  unfold State.learnEnd
  split
  · exact ⟨rfl, rfl, rfl, rfl, rfl, rfl⟩
  · exact .refl _

theorem learnEnd_lrnact (s : State) (c : Status) : (s.learnEnd c).on BGA_LRNACT = false := by
  unfold State.learnEnd
  split
  · rw [on_setBga]
    rw [on_raise_free (by decide), on_wr_free (by decide)]
    exact on_wr_b2n rfl (by decide) s false
  · simp_all

/-- The fields that the sense verdict writes. -/
def senseFlds : List Fld := [BGA_SV, BGA_SIDX, BGA_LRNACT, BGA_LRN_CODE, IRQ_RAW 0x0E0]

/-- The verdict: kind and index (Table 19-1). -/
def verdict (b : BgaState) : Nat × Nat :=
  if b.measBad then (3, 0)
  else
    match b.opens.foldl (fun a k => some (min k (a.getD k))) (none : Option Nat) with
    | some k => (1, k)
    | none =>
      match b.cellBad with
      | some k => (2, k)
      | none => (0, 0)

/-- The verdict as shown, before it ends learning. -/
def State.showVerdict (s : State) (v : Nat × Nat) : State :=
  if s.rd BGA_SV != v.1 || s.rd BGA_SIDX != v.2 then ((s.wr BGA_SV v.1).wr BGA_SIDX v.2).raise 0x0E0 1
  else (s.wr BGA_SV v.1).wr BGA_SIDX v.2

theorem senseShow_eq (s : State) :
    s.senseShow = if (verdict s.bga).1 = 0 then s.showVerdict (verdict s.bga)
      else (s.showVerdict (verdict s.bga)).learnEnd .skipped := rfl

theorem verdict_lt (b : BgaState) : (verdict b).1 < 2 ^ 2 := by
  unfold verdict
  split
  · decide
  · split
    · show 1 < 4; decide
    · split
      · show 2 < 4; decide
      · decide

theorem showVerdict_kept (s : State) (v : Nat × Nat) :
    RdKept [BGA_SV, BGA_SIDX, IRQ_RAW 0x0E0] s (s.showVerdict v) :=
  .ite ((((RdKept.refl _ s).wr _ (by decide)).wr _ (by decide)).raise _ (by decide))
    (((RdKept.refl _ s).wr _ (by decide)).wr _ (by decide)) _

theorem showVerdict_sv (s : State) (v : Nat × Nat) (h : v.1 < 2 ^ 2) : (s.showVerdict v).rd BGA_SV = v.1 := by
  have shown : ((s.wr BGA_SV v.1).wr BGA_SIDX v.2).rd BGA_SV = v.1 := by
    rw [rd_wr_free (by decide), rd_wr_lt rfl (f := BGA_SV) h]
  unfold State.showVerdict
  split
  · rw [rd_raise_free (by decide), shown]
  · exact shown

theorem bga_showVerdict (s : State) (v : Nat × Nat) : (s.showVerdict v).bga = s.bga := by
  unfold State.showVerdict; split <;> rfl

theorem senseShow_sv (s : State) : s.senseShow.rd BGA_SV = (verdict s.bga).1 := by
  rw [senseShow_eq]
  split
  · exact showVerdict_sv s _ (verdict_lt _)
  · rw [learnEnd_kept _ _ BGA_SV (by decide)]
    exact showVerdict_sv s _ (verdict_lt _)

theorem senseShow_kept (s : State) : RdKept senseFlds s s.senseShow := by
  rw [senseShow_eq]
  have shown : RdKept senseFlds s (s.showVerdict (verdict s.bga)) := (showVerdict_kept s _).mono (by decide)
  exact .ite shown (shown.trans ((learnEnd_kept _ _).mono (by decide))) _

theorem senseShow_est (s : State) : EstKept s.bga s.senseShow.bga := by
  rw [senseShow_eq]
  split
  · rw [bga_showVerdict]; exact .refl _
  · have := learnEnd_est (s.showVerdict (verdict s.bga)) .skipped
    rwa [bga_showVerdict] at this

/-- What the sense checks of a second leave of learning: all of it while no verdict stands. -/
def LearnHeld (s t : State) : Prop :=
  (t.rd BGA_SV = 0 → t.on BGA_LRNACT = s.on BGA_LRNACT ∧ t.bga.dsum = s.bga.dsum) ∧
    (t.rd BGA_SV ≠ 0 → t.on BGA_LRNACT = false)

theorem senseShow_learn (s : State) : LearnHeld s s.senseShow := by
  refine ⟨fun h => ?_, fun h => ?_⟩ <;> rw [senseShow_sv] at h
  · rw [senseShow_eq, if_pos h, bga_showVerdict]
    exact ⟨(showVerdict_kept s _).on (by decide), rfl⟩
  · rw [senseShow_eq, if_neg h]
    exact learnEnd_lrnact _ _

theorem probeSettle_eq (s : State) : ∃ v : State, v.except 1073741824 = s.except 1073741824 ∧ EstKept s.bga v.bga ∧
    v.bga.dsum = s.bga.dsum ∧ v.bga.lines = s.bga.lines ∧ v.bga.opens = s.bga.opens ∧ v.bga.measBad = s.bga.measBad ∧
    s.probeSettle = v.senseShow := by
  unfold State.probeSettle
  refine ⟨_, ?_, ?_, ?_, ?_, ?_, ?_, rfl⟩
  · rw [State.setBga_same 1073741824 rfl, State.setBga_same 1073741824 rfl]
  · exact ⟨rfl, rfl, rfl, rfl, rfl, rfl⟩
  all_goals rfl

set_option autoImplicit false

/-- The fields of the means. -/
def meanFlds : List Fld := [BGA_IMEAN, BGA_VPACK, BGA_VCELL 0, BGA_VCELL 1, BGA_VCELL 2, BGA_VCELL 3]

/-- The cells' means shown. -/
def State.showCells (l : List (Nat × Nat)) (s : State) : State :=
  (List.range 4).foldl (fun s k =>
    let x := l.getD k (0, 1)
    s.wr (BGA_VCELL k) (satNat 16 (divRoundNat x.1 x.2))) s

theorem showCells_kept (l : List (Nat × Nat)) (s : State) :
    RdKept [BGA_VCELL 0, BGA_VCELL 1, BGA_VCELL 2, BGA_VCELL 3] s (s.showCells l) := by
  rw [State.showCells, show List.range 4 = [0, 1, 2, 3] from rfl]
  simp only [List.foldl_cons, List.foldl_nil]
  exact ((((RdKept.refl _ s).wr _ (by decide)).wr _ (by decide)).wr _ (by decide)).wr _ (by decide)

/-- The current and the voltage of the second shown. -/
def State.showMeans (m : GaugeSecond) (s : State) : State :=
  (s.wr BGA_IMEAN (unsigned 16 (satSigned 16 (divRound (m.current * 1525880) (1000 * (1000 * s.rd BGA_RSH)))))).wr
    BGA_VPACK
    (satNat 16 (divRoundNat m.pack 2500))

theorem takeMeans_eq (s : State) (m : GaugeSecond) :
    ∃ l, s.takeMeans m = ((s.setBga fun b => { b with means := l }).showMeans m).showCells l := ⟨_, rfl⟩

theorem takeMeans_kept (s : State) (m : GaugeSecond) : RdKept meanFlds s (s.takeMeans m) := by
  obtain ⟨l, h⟩ := takeMeans_eq s m
  rw [h]
  exact ((((RdKept.refl _ s).setBga _).wr _ (by decide)).wr _ (by decide)).trans ((showCells_kept l _).mono (by decide))

theorem takeMeans_est (s : State) (m : GaugeSecond) :
    EstKept s.bga (s.takeMeans m).bga ∧ (s.takeMeans m).bga.dsum = s.bga.dsum := by
  obtain ⟨l, h⟩ := takeMeans_eq s m
  rw [h]
  exact ⟨⟨rfl, rfl, rfl, rfl, rfl, rfl⟩, rfl⟩

theorem satNat_lt {w n : Nat} : satNat w n < 2 ^ w := by
  have := Nat.two_pow_pos w
  unfold satNat; omega

theorem takeMeans_shown (s : State) (m : GaugeSecond) :
    (s.takeMeans m).rd BGA_IMEAN =
      unsigned 16 (satSigned 16 (divRound (m.current * 1525880) (1000 * (1000 * s.rd BGA_RSH)))) ∧
    (s.takeMeans m).rd BGA_VPACK = satNat 16 (divRoundNat m.pack 2500) := by
  obtain ⟨l, h⟩ := takeMeans_eq s m
  rw [h, showCells_kept _ _ BGA_IMEAN (by decide), showCells_kept _ _ BGA_VPACK (by decide), State.showMeans]
  constructor
  · rw [rd_wr_free (by decide), rd_wr_lt rfl (f := BGA_IMEAN) (unsigned_lt 16 _), rd_setBga]
  · rw [rd_wr_lt rfl (f := BGA_VPACK) (satNat_lt (w := 16))]

theorem LearnHeld.of_before {s t u : State} (h : LearnHeld t u) (on : t.on BGA_LRNACT = s.on BGA_LRNACT)
    (dsum : t.bga.dsum = s.bga.dsum) : LearnHeld s u :=
  ⟨fun k => ⟨(h.1 k).1.trans on, (h.1 k).2.trans dsum⟩, h.2⟩

theorem probeSettle_kept (s : State) : RdKept senseFlds s s.probeSettle := by
  obtain ⟨v, same, -, -, -, -, -, h⟩ := probeSettle_eq s
  rw [h]
  exact (RdKept.of_rd _ fun g => rd_of_except same rfl g).trans (senseShow_kept v)

theorem probeSettle_est (s : State) : EstKept s.bga s.probeSettle.bga := by
  obtain ⟨v, -, est, -, -, -, -, h⟩ := probeSettle_eq s
  rw [h]
  exact est.trans (senseShow_est v)

theorem probeSettle_learn (s : State) : LearnHeld s s.probeSettle := by
  obtain ⟨v, same, -, dsum, -, -, -, h⟩ := probeSettle_eq s
  rw [h]
  exact (senseShow_learn v).of_before (by rw [State.on, rd_of_except same rfl, State.on]) dsum

theorem senseStep_eq (s : State) (m : GaugeSecond) :
    ∃ v : State, v.except 1073741824 = s.except 1073741824 ∧ EstKept s.bga v.bga ∧ v.bga.dsum = s.bga.dsum ∧
      s.senseStep m = v.probeSettle := by
  unfold State.senseStep
  refine ⟨_, ?_, ?_, ?_, rfl⟩
  · rw [State.setBga_same 1073741824 rfl, State.setBga_same 1073741824 rfl, State.setBga_same 1073741824 rfl]
  · exact ⟨rfl, rfl, rfl, rfl, rfl, rfl⟩
  · rfl

/-- The fields of the first part of a second: the supplies, the charger, the means, the verdict and the call for steps.
-/
def secondFlds : List Fld :=
  [PMU_VIN_MV, PMU_VBAT_MV] ++ chgFlds ++ meanFlds ++ senseFlds ++ [BGA_ZWANT]

/-- The supplies shown, and the charger's part. -/
def State.takeSupplies (s : State) (m : GaugeSecond) : State :=
  ((s.wr PMU_VIN_MV m.vin.toNat).wr PMU_VBAT_MV m.vbat.toNat).chgStep

/-- The first part of a second while the gauge is not off. -/
def State.sensed (s : State) (m : GaugeSecond) : State :=
  ((((s.takeSupplies m).setBga fun b => { b with since := b.since + 1 }).takeMeans m).senseStep m).zWant

theorem chgStep_kept (s : State) : RdKept chgFlds s s.chgStep := .ite (setChg_kept _ _) (.refl _ _) _

theorem takeSupplies_kept (s : State) (m : GaugeSecond) :
    RdKept ([PMU_VIN_MV, PMU_VBAT_MV] ++ chgFlds) s (s.takeSupplies m) :=
  (((RdKept.refl _ s).wr _ (by decide)).wr _ (by decide)).trans ((chgStep_kept _).mono (by decide))

theorem bga_takeSupplies (s : State) (m : GaugeSecond) : (s.takeSupplies m).bga = s.bga :=
  part_of_except (State.chgStep_same 1 rfl _) .bga rfl

theorem takeSupplies_shown (s : State) (m : GaugeSecond) :
    (s.takeSupplies m).rd PMU_VIN_MV = m.vin.toNat ∧ (s.takeSupplies m).rd PMU_VBAT_MV = m.vbat.toNat := by
  rw [State.takeSupplies, chgStep_kept _ _ (by decide), chgStep_kept _ _ (by decide), rd_wr_free (by decide)]
  exact ⟨rd_wr_lt rfl (f := PMU_VIN_MV) m.vin.isLt _, rd_wr_lt rfl (f := PMU_VBAT_MV) m.vbat.isLt _⟩

theorem zWant_kept (s : State) : RdKept [BGA_ZWANT, IRQ_RAW 0x0E0] s s.zWant :=
  .ite (((RdKept.refl _ s).wr _ (by decide)).raise _ (by decide)) (.refl _ _) _

theorem bga_zWant (s : State) : s.zWant.bga = s.bga := part_of_except (State.zWant_same 1 rfl s) .bga rfl

theorem execEstimationStep_eq (m : GaugeSecond) (s : State) :
    execEstimationStep m s = .next (
      if (s.takeSupplies m).rd BGA_ST = bgaOff then s.takeSupplies m
      else if !(s.sensed m).bgaRuns then s.sensed m
      else if (s.sensed m).bga.cold then (s.sensed m).coldStep m
      else (s.sensed m).runStep m) := rfl

/-- What the first part of a second leaves as it was. -/
structure Sensed (s t : State) (m : GaugeSecond) : Prop where
  kept : RdKept secondFlds s t
  est : EstKept s.bga t.bga
  learn : LearnHeld s t
  ctf : t.ctf = s.ctf
  current : t.rd BGA_IMEAN =
    unsigned 16 (satSigned 16 (divRound (m.current * 1525880) (1000 * (1000 * s.rd BGA_RSH))))
  pack : t.rd BGA_VPACK = satNat 16 (divRoundNat m.pack 2500)

theorem ctf_sensed (s : State) (m : GaugeSecond) : (s.sensed m).ctf = s.ctf := by
  refine (part_of_except (State.zWant_same 1 rfl _) .ctf rfl).trans ?_
  refine (part_of_except (State.senseStep_same 1073741825 rfl _ _) .ctf rfl).trans ?_
  refine (part_of_except (State.takeMeans_same 1073741825 rfl _ _) .ctf rfl).trans ?_
  exact (part_of_except (State.setBga_same 1073741824 rfl _ _) .ctf rfl).trans
    (part_of_except (State.chgStep_same 1 rfl _) .ctf rfl)

theorem sensed_sensed (s : State) (m : GaugeSecond) : Sensed s (s.sensed m) m := by
  have u_kept : RdKept secondFlds s ((s.takeSupplies m).setBga fun b => { b with since := b.since + 1 }) :=
    ((takeSupplies_kept s m).mono (by decide)).setBga _
  have u_est : EstKept s.bga ((s.takeSupplies m).setBga fun b => { b with since := b.since + 1 }).bga ∧
      ((s.takeSupplies m).setBga fun b => { b with since := b.since + 1 }).bga.dsum = s.bga.dsum := by
    rw [State.setBga, bga_takeSupplies]
    exact ⟨⟨rfl, rfl, rfl, rfl, rfl, rfl⟩, rfl⟩
  have u_on : ((s.takeSupplies m).setBga fun b => { b with since := b.since + 1 }).on BGA_LRNACT = s.on BGA_LRNACT := by
    rw [on_setBga, (takeSupplies_kept s m).on (by decide)]
  have ctf := ctf_sensed s m
  unfold State.sensed at ctf ⊢
  generalize (s.takeSupplies m).setBga (fun b => { b with since := b.since + 1 }) = u at u_kept u_est u_on ctf ⊢
  obtain ⟨means, dsum⟩ := takeMeans_est u m
  have m_kept := takeMeans_kept u m
  obtain ⟨current, pack⟩ := takeMeans_shown u m
  generalize u.takeMeans m = v at means dsum m_kept current pack ctf ⊢
  obtain ⟨x, same, est, xsum, h⟩ := senseStep_eq v m
  rw [h] at ctf ⊢
  have x_kept : RdKept senseFlds v x.probeSettle :=
    (RdKept.of_rd _ fun g => rd_of_except same rfl g).trans (probeSettle_kept x)
  have z := zWant_kept x.probeSettle
  refine ⟨u_kept.trans ((m_kept.mono (by decide)).trans ((x_kept.mono (by decide)).trans (z.mono (by decide)))), ?_, ?_,
    ctf, ?_, ?_⟩
  · rw [bga_zWant]
    exact (u_est.1.trans means).trans (est.trans (probeSettle_est x))
  · have held := (probeSettle_learn x).of_before (s := s) ?_ (by rw [xsum, dsum, u_est.2])
    · unfold LearnHeld at held ⊢
      rwa [z _ (by decide), z.on (by decide), bga_zWant]
    · rw [State.on, rd_of_except same rfl, ← State.on, m_kept.on (by decide), u_on]
  · rw [z _ (by decide), x_kept _ (by decide), current, u_kept _ (by decide)]
  · rw [z _ (by decide), x_kept _ (by decide), pack]

set_option autoImplicit false

/-! ### A charging, a discharging and an idle second -/

theorem charging_current {s : State} {m : GaugeSecond} (h : s.charging m = true) : 0 < m.current := by
  simp only [State.charging, leFrac, State.meanUa, Bool.not_eq_true'] at h
  have : (0 : Int) ≤ ((1000 * s.rd BGA_IREST : Nat) : Int) * ((1000 * s.rd BGA_RSH : Nat) : Int) := by positivity
  have h := of_decide_eq_false h
  push_cast at h this
  linarith

theorem discharging_current {s : State} {m : GaugeSecond} (h : s.discharging m = true) : m.current < 0 := by
  simp only [State.discharging, leFrac, State.meanUa, Bool.not_eq_true'] at h
  have : (0 : Int) ≤ ((1000 * s.rd BGA_IREST : Nat) : Int) * ((1000 * s.rd BGA_RSH : Nat) : Int) := by positivity
  have h := of_decide_eq_false h
  push_cast at h this
  linarith

theorem charging_congr {s t : State} {l : List Fld} (h : RdKept l s t)
    (hl : l.all (fun f => f.free BGA_IREST && f.free BGA_RSH) = true) (m : GaugeSecond) :
    t.charging m = s.charging m ∧ t.discharging m = s.discharging m := by
  simp only [List.all_eq_true, Bool.and_eq_true] at hl
  have ires : t.rd BGA_IREST = s.rd BGA_IREST := h _ (List.all_eq_true.mpr fun f hf => (hl f hf).1)
  have rsh : t.rd BGA_RSH = s.rd BGA_RSH := h _ (List.all_eq_true.mpr fun f hf => (hl f hf).2)
  simp only [State.charging, State.discharging, State.meanUa, ires, rsh, and_self]

/-! ### Coulomb counting (R480) -/

/-- The fields of the counting of charge. -/
def countFlds : List Fld := BGA_Q :: learnFlds

/-- The charge counted into Q and into the sums, before a charging second ends learning. -/
def State.countSums (s : State) (m : GaugeSecond) : State :=
  (s.wr BGA_Q (gaugeCount s m)).setBga fun b => { b with
    thru := b.thru + (-m.current).toNat,
    dsum := if (s.wr BGA_Q (gaugeCount s m)).on BGA_LRNACT then b.dsum + (-m.current).toNat else b.dsum }

theorem countCharge_eq (s : State) (m : GaugeSecond) :
    s.countCharge m = if decide (0 < m.current) && s.charging m then (s.countSums m).learnEnd .skipped
      else s.countSums m := by
  have eff : (if decide (0 < m.current) = true then s.rd BGA_CEFF else 10000) =
      if 0 < m.current then s.rd BGA_CEFF else 10000 := by simp only [decide_eq_true_eq]
  have charging : (s.countSums m).charging m = s.charging m :=
    (charging_congr (l := [BGA_Q]) (((RdKept.refl _ s).wr _ (by decide)).setBga _) (by decide) m).1
  rw [← charging]
  unfold State.countCharge
  dsimp only
  rw [eff]
  rfl

theorem gaugeCount_lt (s : State) (m : GaugeSecond) : gaugeCount s m < 2 ^ 32 := by
  have qmax : s.rd BGA_QMAX < 2 ^ 32 := rd_lt s rfl
  unfold gaugeCount
  omega

theorem countSums_kept (s : State) (m : GaugeSecond) : RdKept [BGA_Q] s (s.countSums m) :=
  ((RdKept.refl _ s).wr _ (by decide)).setBga _

theorem countCharge_kept (s : State) (m : GaugeSecond) : RdKept countFlds s (s.countCharge m) := by
  have sums := (countSums_kept s m).mono (l' := countFlds) (by decide)
  rw [countCharge_eq]
  exact .ite (sums.trans ((learnEnd_kept _ _).mono (by decide))) sums _

theorem countSums_q (s : State) (m : GaugeSecond) : (s.countSums m).rd BGA_Q = gaugeCount s m := by
  rw [State.countSums, rd_setBga, rd_wr_lt rfl (f := BGA_Q) (gaugeCount_lt s m)]

theorem countCharge_q (s : State) (m : GaugeSecond) : (s.countCharge m).rd BGA_Q = gaugeCount s m := by
  rw [countCharge_eq]
  split
  · rw [learnEnd_kept _ _ _ (by decide), countSums_q]
  · exact countSums_q s m

theorem countCharge_est (s : State) (m : GaugeSecond) : EstKept s.bga (s.countCharge m).bga := by
  have sums : EstKept s.bga (s.countSums m).bga := ⟨rfl, rfl, rfl, rfl, rfl, rfl⟩
  rw [countCharge_eq]
  split
  · exact sums.trans (learnEnd_est _ _)
  · exact sums

theorem countCharge_charging {s : State} {m : GaugeSecond} (h : s.charging m = true) :
    (s.countCharge m).on BGA_LRNACT = false := by
  rw [countCharge_eq, h, decide_eq_true (charging_current h), Bool.and_self, if_pos rfl]
  exact learnEnd_lrnact _ _

theorem countCharge_learning {s : State} {m : GaugeSecond} (h : m.current < 0) (on : s.on BGA_LRNACT = true) :
    (s.countCharge m).on BGA_LRNACT = true ∧ (s.countCharge m).bga.dsum = s.bga.dsum + (-m.current).toNat := by
  have held : (s.wr BGA_Q (gaugeCount s m)).on BGA_LRNACT = true := by rw [on_wr_free (by decide), on]
  rw [countCharge_eq, decide_eq_false (by omega : ¬0 < m.current)]
  refine ⟨held, ?_⟩
  change (if _ = true then _ else _ : Nat) = _
  rw [if_pos held]
  rfl

/-! ### The rest timer and the runs towards the end points -/

/-- The fields of the rest timer. -/
def restFlds : List Fld := [BGA_RESTT, BGA_RESTING]

theorem restShow_kept (s : State) : RdKept restFlds s s.restShow :=
  ((RdKept.refl _ s).wr _ (by decide)).wr _ (by decide)

/-- The rest timer counted in the clock that holds now. -/
def State.restClock (s : State) : State :=
  if s.refLocked = s.bga.cycles then s
  else if s.refLocked then
    s.setBga fun b => { b with
      cycles := true, restCyc := b.restClk / max 1 (s.rd CTF_PERIOD), restClk := b.restClk % max 1 (s.rd CTF_PERIOD) }
  else s.setBga fun b => { b with
      cycles := false, restClk := b.restClk + b.restCyc * max 1 (s.rd CTF_PERIOD), restCyc := 0 }

/-- The second counted, or the timer cleared. -/
def State.restCount (s : State) (m : GaugeSecond) : State :=
  if s.charging m || s.discharging m || s.on BGA_RESTPIN then s.restClear
  else if s.bga.cycles then s.setBga fun b => { b with restCyc := b.restCyc + (s.ctf.cyc - b.restAt) }
  else s.setBga fun b => { b with restClk := b.restClk + 48000000 }

theorem restUpdate_eq (s : State) (m : GaugeSecond) : s.restUpdate m =
    ((s.restClock.restCount m).setBga fun b => { b with restAt := (s.restClock.restCount m).ctf.cyc }).restShow := rfl

theorem restClock_rd (s : State) (g : Fld) : s.restClock.rd g = s.rd g := by
  unfold State.restClock; split
  · rfl
  · split <;> rw [rd_setBga]

theorem restCount_rd (s : State) (m : GaugeSecond) (g : Fld) : (s.restCount m).rd g = s.rd g := by
  unfold State.restCount State.restClear; split
  · rw [rd_setBga]
  · split <;> rw [rd_setBga]

theorem restUpdate_kept (s : State) (m : GaugeSecond) : RdKept restFlds s (s.restUpdate m) := by
  rw [restUpdate_eq]
  refine RdKept.trans (t := (s.restClock.restCount m)) ?_ ((RdKept.setBga (.refl _ _) _).trans (restShow_kept _))
  exact .of_rd _ fun g => (restCount_rd _ m g).trans (restClock_rd s g)

/-- What the rest timer leaves of the state of the gauge. -/
structure RestHeld (a b : BgaState) : Prop where
  table : b.table = a.table
  cold : b.cold = a.cold
  dsum : b.dsum = a.dsum

theorem restUpdate_held (s : State) (m : GaugeSecond) : RestHeld s.bga (s.restUpdate m).bga := by
  have clock : RestHeld s.bga s.restClock.bga := by
    unfold State.restClock; split
    · exact ⟨rfl, rfl, rfl⟩
    · split <;> exact ⟨rfl, rfl, rfl⟩
  have count : RestHeld s.restClock.bga (s.restClock.restCount m).bga := by
    unfold State.restCount; split
    · exact ⟨rfl, rfl, rfl⟩
    · split <;> exact ⟨rfl, rfl, rfl⟩
  exact ⟨count.table.trans clock.table, count.cold.trans clock.cold, count.dsum.trans clock.dsum⟩

theorem rest_congr (s : State) (m : GaugeSecond) :
    s.restClock.charging m = s.charging m ∧ s.restClock.discharging m = s.discharging m :=
  charging_congr (l := []) (.of_rd _ (restClock_rd s)) rfl m

theorem restUpdate_moving {s : State} {m : GaugeSecond} (h : s.charging m = true ∨ s.discharging m = true) :
    (s.restUpdate m).bga.restClk = 0 ∧ (s.restUpdate m).bga.restCyc = 0 := by
  obtain ⟨up, down⟩ := rest_congr s m
  have clear : s.restClock.restCount m = s.restClock.restClear := by
    rw [State.restCount, up, down]
    exact if_pos (by rcases h with h | h <;> simp [h])
  rw [restUpdate_eq, clear]
  exact ⟨rfl, rfl⟩

/-- The rest timer after an idle second counted in REF48 clocks. -/
theorem restUpdate_idle {s : State} {m : GaugeSecond} (up : s.charging m = false) (down : s.discharging m = false)
    (pin : s.on BGA_RESTPIN = false) (free : s.refLocked = false) (clocks : s.bga.cycles = false)
    (cyc : s.bga.restCyc = 0) :
    (s.restUpdate m).bga.restClk = s.bga.restClk + 48000000 ∧ (s.restUpdate m).bga.restCyc = 0 ∧
    (s.restUpdate m).bga.rests = s.bga.rests ∧
    (s.restUpdate m).rd BGA_RESTT = satNat 32 ((s.bga.restClk + 48000000) / 48000000) := by
  have clock : s.restClock = s := if_pos (by rw [free, clocks])
  have count : s.restCount m = s.setBga fun b => { b with restClk := b.restClk + 48000000 } := by
    rw [State.restCount, if_neg (by simp [up, down, pin]), if_neg (by simp [clocks])]
  rw [restUpdate_eq, clock, count]
  refine ⟨rfl, cyc, rfl, ?_⟩
  rw [State.restShow, rd_wr_free (by decide), rd_wr_lt rfl (f := BGA_RESTT) (satNat_lt (w := 32)), State.restSeconds]
  change satNat 32 ((s.bga.restClk + 48000000 + s.bga.restCyc * _) / 48000000) = _
  rw [cyc, Nat.zero_mul, Nat.add_zero]

/-- What the end points and the correction leave of the state of the gauge. -/
structure EndHeld (a b : BgaState) : Prop extends EstKept a b where
  full : b.full = a.full
  empty : b.empty = a.empty

theorem EndHeld.refl (a : BgaState) : EndHeld a a := ⟨.refl a, rfl, rfl⟩

theorem EndHeld.trans {a b c : BgaState} (h : EndHeld a b) (k : EndHeld b c) : EndHeld a c :=
  ⟨h.toEstKept.trans k.toEstKept, k.full.trans h.full, k.empty.trans h.empty⟩

theorem endRuns_rd (s : State) (m : GaugeSecond) (g : Fld) : (s.endRuns m).rd g = s.rd g := by
  rw [State.endRuns, rd_setBga]

theorem endRuns_est (s : State) (m : GaugeSecond) : EstKept s.bga (s.endRuns m).bga ∧
    (s.endRuns m).bga.dsum = s.bga.dsum :=
  ⟨⟨rfl, rfl, rfl, rfl, rfl, rfl⟩, rfl⟩

theorem endRuns_full {s : State} {m : GaugeSecond} (h : (s.endRuns m).bga.full ≠ 0) : s.charging m = true := by
  by_contra hc
  refine h (if_neg ?_)
  simp [hc]

theorem endRuns_empty {s : State} {m : GaugeSecond} (h : (s.endRuns m).bga.empty ≠ 0) : s.discharging m = true := by
  by_contra hc
  refine h (if_neg ?_)
  simp [hc]

set_option autoImplicit false

/-! ### The end points (R483, R484, R488) -/

/-- The fields of the end of a maintenance discharge. -/
def doneFlds : List Fld := [BGA_MNT_ST, BGA_MNT_CODE] ++ pstFlds

/-- A maintenance discharge ended, before the path follows. -/
def State.mntShow (s : State) (c : Status) : State :=
  ((s.wr BGA_MNT_ST 0).wr BGA_MNT_CODE (codeOf c)).raise 0x0E0 3

theorem mntDone_eq (s : State) (c : Status) : s.mntDone c =
    if (s.mntShow c).pst = pstOnPack ∧ (s.mntShow c).on PMU_VINOK = true then (s.mntShow c).setPst pstOnVin
    else (s.mntShow c).chgFollow := rfl

theorem mntShow_kept (s : State) (c : Status) : RdKept doneFlds s (s.mntShow c) :=
  (((RdKept.refl _ s).wr _ (by decide)).wr _ (by decide)).raise _ (by decide)

theorem mntDone_kept (s : State) (c : Status) : RdKept doneFlds s (s.mntDone c) := by
  rw [mntDone_eq]
  exact .ite ((mntShow_kept s c).trans ((setPst_kept _ _).mono (by decide)))
    ((mntShow_kept s c).trans ((chgFollow_kept _).mono (by decide))) _

theorem bga_mntDone (s : State) (c : Status) : (s.mntDone c).bga = s.bga := by
  rw [mntDone_eq]
  split
  · exact bga_setPst _ _
  · exact bga_chgFollow _

/-- The fields of the full point. -/
def fullFlds : List Fld := [BGA_Q, BGA_ESTF, IRQ_RAW 0x0E0, BGA_LRNACT, BGA_MNT_ST] ++ pstFlds

/-- The full point up to the start of learning. -/
def State.fullShow (s : State) : State := ((s.wr BGA_Q (s.rd BGA_QMAX)).wr BGA_ESTF 0).raise 0x0E0 0

/-- Learning starts unless a verdict stands. -/
def State.learnBegin (s : State) : State :=
  if s.senseBad then s else (s.wr BGA_LRNACT 1).setBga fun b => { b with dsum := 0 }

/-- A waiting maintenance discharge goes on to its discharge. -/
def State.mntDischarge (s : State) : State :=
  if s.rd BGA_MNT_ST = 1 then
    if (s.wr BGA_MNT_ST 2).pst = pstOnVin then (s.wr BGA_MNT_ST 2).setPst pstOnPack else s.wr BGA_MNT_ST 2
  else s

theorem fullPoint_eq (s : State) : s.fullPoint = s.fullShow.learnBegin.mntDischarge := rfl

theorem fullShow_kept (s : State) : RdKept [BGA_Q, BGA_ESTF, IRQ_RAW 0x0E0] s s.fullShow :=
  (((RdKept.refl _ s).wr _ (by decide)).wr _ (by decide)).raise _ (by decide)

theorem learnBegin_kept (s : State) : RdKept [BGA_LRNACT] s s.learnBegin :=
  .ite (.refl _ _) (((RdKept.refl _ s).wr _ (by decide)).setBga _) _

theorem mntDischarge_kept (s : State) : RdKept (BGA_MNT_ST :: pstFlds) s s.mntDischarge := by
  have shown : RdKept (BGA_MNT_ST :: pstFlds) s (s.wr BGA_MNT_ST 2) := (RdKept.refl _ s).wr _ (by decide)
  exact .ite (.ite (shown.trans ((setPst_kept _ _).mono (by decide))) shown _) (.refl _ _) _

theorem bga_mntDischarge (s : State) : s.mntDischarge.bga = s.bga := by
  unfold State.mntDischarge
  split
  · split
    · rw [bga_setPst]; simp
    · simp
  · rfl

theorem fullPoint_kept (s : State) : RdKept fullFlds s s.fullPoint := by
  rw [fullPoint_eq]
  exact ((fullShow_kept s).mono (by decide)).trans
    (((learnBegin_kept _).mono (by decide)).trans ((mntDischarge_kept _).mono (by decide)))

theorem fullPoint_held (s : State) : EndHeld s.bga s.fullPoint.bga := by
  rw [fullPoint_eq, bga_mntDischarge]
  unfold State.learnBegin
  split
  · exact .refl _
  · exact ⟨⟨rfl, rfl, rfl, rfl, rfl, rfl⟩, rfl, rfl⟩

theorem fullPoint_q (s : State) : s.fullPoint.rd BGA_Q = s.rd BGA_QMAX ∧ s.fullPoint.on BGA_ESTF = false := by
  rw [fullPoint_eq, mntDischarge_kept _ _ (by decide), (mntDischarge_kept _).on (by decide),
    learnBegin_kept _ _ (by decide), (learnBegin_kept _).on (by decide), State.fullShow, rd_raise_free (by decide),
    on_raise_free (by decide), rd_wr_free (by decide)]
  exact ⟨rd_wr_lt rfl (f := BGA_Q) (rd_lt s (f := BGA_QMAX) rfl) _, on_wr_b2n rfl (by decide) _ false⟩

theorem fullPoint_learns {s : State} (h : s.rd BGA_SV = 0) :
    s.fullPoint.on BGA_LRNACT = true ∧ s.fullPoint.bga.dsum = 0 := by
  have clear : s.fullShow.senseBad = false := by
    rw [State.senseBad, fullShow_kept s _ (by decide), h]; rfl
  rw [fullPoint_eq, (mntDischarge_kept _).on (by decide), bga_mntDischarge, State.learnBegin,
    if_neg (by simp [clear]), on_setBga]
  exact ⟨on_wr_b2n rfl (by decide) _ true, rfl⟩

/-- The fields of the empty point. -/
def emptyFlds : List Fld :=
  [BGA_Q, BGA_ESTF, IRQ_RAW 0x0E0, BGA_QMAX, BGA_LEARNED, BGA_LRN, BGA_LRNACT, BGA_LRN_CODE] ++ doneFlds

/-- The empty point before it completes learning. -/
def State.emptyShow (s : State) : State := ((s.wr BGA_Q 0).wr BGA_ESTF 0).raise 0x0E0 0

/-- D lies between 50 % and 120 % of the design capacity (R484). -/
def State.learnGood (s : State) : Bool :=
  s.on BGA_LRNACT && decide (36000 * s.rd BGA_RSH * (s.rd BGA_DESCAP * 1000) * 50 ≤ s.bga.dsum * 1525880)
    && decide (s.bga.dsum * 1525880 ≤ 36000 * s.rd BGA_RSH * (s.rd BGA_DESCAP * 1000) * 120)

/-- D taken over as the capacity. -/
def State.learnTake (s : State) : State :=
  (((s.wr BGA_QMAX s.learned).wr BGA_LEARNED 1).wr BGA_LRN s.learned).setBga fun b =>
    { b with lrnn := satNat 16 (b.lrnn + 1),
             lstamp := stampNat (((s.wr BGA_QMAX s.learned).wr BGA_LEARNED 1).wr BGA_LRN s.learned).stamp }

/-- The empty point's part of learning. -/
def State.learnFinish (s : State) : State :=
  if !s.on BGA_LRNACT then s
  else if s.learnGood then (s.learnTake.learnEnd .ok).raise 0x0E0 0
  else s.learnEnd .cfgInvalid

/-- The discharge of a maintenance ends at the empty point. -/
def State.mntEmpty (s : State) (good : Bool) : State :=
  if s.rd BGA_MNT_ST = 2 then s.mntDone (if good then .ok else .part) else s

theorem emptyPoint_eq (s : State) : s.emptyPoint = s.emptyShow.learnFinish.mntEmpty s.emptyShow.learnGood := rfl

theorem emptyShow_kept (s : State) : RdKept [BGA_Q, BGA_ESTF, IRQ_RAW 0x0E0] s s.emptyShow :=
  (((RdKept.refl _ s).wr _ (by decide)).wr _ (by decide)).raise _ (by decide)

theorem learnTake_kept (s : State) : RdKept [BGA_QMAX, BGA_LEARNED, BGA_LRN] s s.learnTake :=
  ((((RdKept.refl _ s).wr _ (by decide)).wr _ (by decide)).wr _ (by decide)).setBga _

theorem learnFinish_kept (s : State) : RdKept ([BGA_QMAX, BGA_LEARNED, BGA_LRN] ++ learnFlds) s s.learnFinish := by
  refine .ite (.refl _ _) (.ite ?_ ((learnEnd_kept _ _).mono (by decide)) _) _
  exact (((learnTake_kept s).mono (by decide)).trans ((learnEnd_kept _ _).mono (by decide))).raise _ (by decide)

theorem mntEmpty_kept (s : State) (good : Bool) : RdKept doneFlds s (s.mntEmpty good) :=
  .ite (mntDone_kept _ _) (.refl _ _) _

theorem bga_mntEmpty (s : State) (good : Bool) : (s.mntEmpty good).bga = s.bga := by
  unfold State.mntEmpty; split
  · exact bga_mntDone _ _
  · rfl

theorem emptyPoint_kept (s : State) : RdKept emptyFlds s s.emptyPoint := by
  rw [emptyPoint_eq]
  exact ((emptyShow_kept s).mono (by decide)).trans
    (((learnFinish_kept _).mono (by decide)).trans ((mntEmpty_kept _ _).mono (by decide)))

theorem learnEnd_held (s : State) (c : Status) : EndHeld s.bga (s.learnEnd c).bga := by
  unfold State.learnEnd; split
  · exact ⟨⟨rfl, rfl, rfl, rfl, rfl, rfl⟩, rfl, rfl⟩
  · exact .refl _

theorem learnFinish_held (s : State) : EndHeld s.bga s.learnFinish.bga := by
  unfold State.learnFinish
  split
  · exact .refl _
  · split
    · exact EndHeld.trans (b := s.learnTake.bga) ⟨⟨rfl, rfl, rfl, rfl, rfl, rfl⟩, rfl, rfl⟩ (learnEnd_held _ _)
    · exact learnEnd_held _ _

theorem emptyPoint_held (s : State) : EndHeld s.bga s.emptyPoint.bga := by
  rw [emptyPoint_eq, bga_mntEmpty]
  exact learnFinish_held s.emptyShow

theorem emptyPoint_q (s : State) : s.emptyPoint.rd BGA_Q = 0 ∧ s.emptyPoint.on BGA_ESTF = false := by
  rw [emptyPoint_eq, mntEmpty_kept _ _ _ (by decide), (mntEmpty_kept _ _).on (by decide),
    learnFinish_kept _ _ (by decide), (learnFinish_kept _).on (by decide), State.emptyShow, rd_raise_free (by decide),
    on_raise_free (by decide), rd_wr_free (by decide)]
  exact ⟨rd_wr_lt rfl (f := BGA_Q) (v := 0) (by decide) _, on_wr_b2n rfl (by decide) _ false⟩

/-- Learning that completes within the bounds takes D over. -/
theorem learnFinish_good {s : State} (h : s.learnGood = true) (rsh : s.rd BGA_RSH ≠ 0) :
    s.learnFinish.on BGA_LRNACT = false ∧ s.learnFinish.rd BGA_QMAX = s.learned ∧
    s.learnFinish.on BGA_LEARNED = true ∧ s.learnFinish.rd BGA_LRN_CODE = codeOf .ok := by
  simp only [State.learnGood, Bool.and_eq_true, decide_eq_true_eq] at h
  obtain ⟨⟨act, low⟩, high⟩ := h
  have good : s.learnGood = true := by simp [State.learnGood, act, low, high]
  have small : s.learned < 2 ^ 32 := by
    have cap : s.rd BGA_DESCAP < 2 ^ 16 := rd_lt s rfl
    have pos : 0 < 3600000 * s.rd BGA_RSH := by omega
    have most : s.bga.dsum * 1525880 ≤ 1200 * s.rd BGA_DESCAP * (3600000 * s.rd BGA_RSH) := by
      calc _ ≤ _ := high
        _ = _ := by ring
    rw [State.learned, divRoundNat, if_neg pos.ne', Nat.div_lt_iff_lt_mul (by omega)]
    nlinarith
  have acting : s.learnTake.on BGA_LRNACT = true := by rw [(learnTake_kept s).on (by decide), act]
  rw [State.learnFinish, if_neg (by simp [act]), if_pos good]
  refine ⟨?_, ?_, ?_, ?_⟩
  · rw [on_raise_free (by decide), learnEnd_lrnact]
  · rw [rd_raise_free (by decide), learnEnd_kept _ _ _ (by decide), State.learnTake, rd_setBga, rd_wr_free (by decide),
      rd_wr_free (by decide), rd_wr_lt rfl (f := BGA_QMAX) small]
  · rw [on_raise_free (by decide), (learnEnd_kept _ _).on (by decide), State.learnTake, on_setBga, on_wr_free
      (by decide)]
    exact on_wr_b2n rfl (by decide) _ true
  · rw [rd_raise_free (by decide), State.learnEnd, if_pos acting, rd_setBga, rd_raise_free (by decide)]
    exact rd_wr_lt rfl (f := BGA_LRN_CODE) (v := codeOf .ok) (by decide) _

/-- Learning that completes outside the bounds leaves the capacity. -/
theorem learnFinish_bad {s : State} (act : s.on BGA_LRNACT = true) (h : s.learnGood = false) :
    s.learnFinish.on BGA_LRNACT = false ∧ s.learnFinish.rd BGA_QMAX = s.rd BGA_QMAX ∧
    s.learnFinish.rd BGA_LRN_CODE = codeOf .cfgInvalid := by
  rw [State.learnFinish, if_neg (by simp [act]), if_neg (by simp [h])]
  refine ⟨learnEnd_lrnact _ _, learnEnd_kept _ _ _ (by decide), ?_⟩
  rw [State.learnEnd, if_pos act, rd_setBga, rd_raise_free (by decide)]
  exact rd_wr_lt rfl (f := BGA_LRN_CODE) (v := codeOf .cfgInvalid) (by decide) _

/-! ### The OCV correction and the charge shown -/

/-- The fields of an OCV correction. -/
def ocvFlds : List Fld := [BGA_Q, BGA_OCVN, BGA_OCVSKN, BGA_ESTF, IRQ_RAW 0x0E0]

theorem ocvCorrect_kept (s : State) (m : GaugeSecond) : RdKept ocvFlds s (s.ocvCorrect m) :=
  .ite ((RdKept.refl _ s).count (by decide))
    (((((RdKept.refl _ s).wr _ (by decide)).count (by decide)).raise _ (by decide)).wr _ (by decide)) _

theorem ocvDue_kept (s : State) (m : GaugeSecond) : RdKept ocvFlds s (s.ocvDue m) :=
  .ite (((RdKept.refl _ s).setBga _).trans (ocvCorrect_kept _ m)) (.refl _ _) _

theorem ocvDue_moving {s : State} {m : GaugeSecond} (h : s.charging m = true ∨ s.discharging m = true) :
    s.ocvDue m = s := if_neg (by rcases h with h | h <;> simp [h])

theorem bga_ocvCorrect (s : State) (m : GaugeSecond) : (s.ocvCorrect m).bga = s.bga := by
  unfold State.ocvCorrect
  dsimp only
  split <;> rfl

/-- What a correction leaves of the state of the gauge. -/
structure OcvHeld (a b : BgaState) : Prop extends RestHeld a b where
  restClk : b.restClk = a.restClk
  restCyc : b.restCyc = a.restCyc
  full : b.full = a.full
  empty : b.empty = a.empty

theorem ocvDue_held (s : State) (m : GaugeSecond) : OcvHeld s.bga (s.ocvDue m).bga := by
  unfold State.ocvDue
  dsimp only
  split
  · rw [bga_ocvCorrect]; exact ⟨⟨rfl, rfl, rfl⟩, rfl, rfl, rfl, rfl⟩
  · exact ⟨⟨rfl, rfl, rfl⟩, rfl, rfl, rfl, rfl⟩

/-- The fields of the state of charge. -/
def socFlds : List Fld := [BGA_SOCS, BGA_SOCR, IRQ_RAW 0x0E0]

theorem socShow_kept (s : State) (m : GaugeSecond) (full empty : Bool) :
    RdKept socFlds s (s.socShow m full empty) :=
  .ite ((((RdKept.refl _ s).wr _ (by decide)).wr _ (by decide)).raise _ (by decide))
    (((RdKept.refl _ s).wr _ (by decide)).wr _ (by decide)) _

/-- R after a step: at an end point as it is, else held by the clamp (R480). -/
def State.clampedSoc (s : State) (m : GaugeSecond) (full empty : Bool) (soc : Nat) : Nat :=
  if full then 10000
  else if empty then 0
  else if s.charging m then min soc (s.rd BGA_SOCR + (soc - s.rd BGA_SOCS) + s.rd BGA_CATCH)
  else min (s.rd BGA_SOCR) soc

/-- S and R shown. -/
def State.socPut (s : State) (m : GaugeSecond) (full empty : Bool) : State :=
  (s.wr BGA_SOCS (divRoundNat (10000 * s.rd BGA_Q) (s.rd BGA_QMAX))).wr BGA_SOCR
    (s.clampedSoc m full empty (divRoundNat (10000 * s.rd BGA_Q) (s.rd BGA_QMAX)))

theorem socShow_cases (s : State) (m : GaugeSecond) (full empty : Bool) :
    s.socShow m full empty = s.socPut m full empty ∨
    s.socShow m full empty = (s.socPut m full empty).raise 0x0E0 0 := by
  rw [or_comm]
  exact ite_eq_or_eq _ _ _

theorem bga_socShow (s : State) (m : GaugeSecond) (full empty : Bool) : (s.socShow m full empty).bga = s.bga := by
  rcases socShow_cases s m full empty with h | h <;> rw [h]
  all_goals rfl

theorem share_le {q c : Nat} (h : q ≤ c) (hc : c ≠ 0) : divRoundNat (10000 * q) c ≤ 10000 := by
  rw [divRoundNat, if_neg hc]
  have pos := Nat.pos_of_ne_zero hc
  have : (2 * (10000 * q) + c) / (2 * c) < 10001 :=
    (Nat.div_lt_iff_lt_mul (by omega)).mpr (by nlinarith)
  omega

theorem socShow_shown {s : State} {m : GaugeSecond} {full empty : Bool} (h : s.rd BGA_Q ≤ s.rd BGA_QMAX)
    (hc : s.rd BGA_QMAX ≠ 0) :
    (s.socShow m full empty).rd BGA_SOCS = divRoundNat (10000 * s.rd BGA_Q) (s.rd BGA_QMAX) ∧
    (s.socShow m full empty).rd BGA_SOCR =
      s.clampedSoc m full empty (divRoundNat (10000 * s.rd BGA_Q) (s.rd BGA_QMAX)) := by
  have soc : divRoundNat (10000 * s.rd BGA_Q) (s.rd BGA_QMAX) < 2 ^ 14 := (share_le h hc).trans_lt (by decide)
  have r : s.clampedSoc m full empty (divRoundNat (10000 * s.rd BGA_Q) (s.rd BGA_QMAX)) < 2 ^ 14 := by
    unfold State.clampedSoc
    split
    · decide
    · split
      · decide
      · split
        · exact (min_le_left _ _).trans_lt soc
        · exact (min_le_right _ _).trans_lt soc
  have shown : (s.socPut m full empty).rd BGA_SOCS = divRoundNat (10000 * s.rd BGA_Q) (s.rd BGA_QMAX) ∧
      (s.socPut m full empty).rd BGA_SOCR =
        s.clampedSoc m full empty (divRoundNat (10000 * s.rd BGA_Q) (s.rd BGA_QMAX)) :=
    ⟨by rw [State.socPut, rd_wr_free (by decide), rd_wr_lt rfl (f := BGA_SOCS) soc],
      rd_wr_lt rfl (f := BGA_SOCR) r _⟩
  rcases socShow_cases s m full empty with h | h <;> rw [h]
  · exact shown
  · rw [rd_raise_free (by decide), rd_raise_free (by decide)]
    exact shown

set_option autoImplicit false

/-! ### One step of RUN (R480) -/

/-- The charge counted, the rest timer and the runs towards the end points. -/
def State.runCounted (s : State) (m : GaugeSecond) : State := ((s.countCharge m).restUpdate m).endRuns m

/-- The full point where its run is complete. -/
def State.runFull (s : State) : State := if s.bga.full == 60 then s.fullPoint else s

/-- The end points whose runs are complete. -/
def State.runEnds (s : State) : State := if s.bga.empty == 10 then s.runFull.emptyPoint else s.runFull

/-- The charge after the end points and the correction. -/
def State.runCharged (s : State) (m : GaugeSecond) : State := (s.runCounted m).runEnds.ocvDue m

theorem runStep_eq (s : State) (m : GaugeSecond) : s.runStep m =
    ((s.runCharged m).socShow m ((s.runCounted m).bga.full == 60) ((s.runCounted m).bga.empty == 10)).wr BGA_TTE
      ((s.runCharged m).timeToEmpty m) := rfl

section
variable (s : State) (m : GaugeSecond)

theorem runCounted_kept : RdKept (countFlds ++ restFlds) s (s.runCounted m) :=
  ((countCharge_kept s m).mono (by decide)).trans
    (((restUpdate_kept _ m).mono (by decide)).trans (.of_rd _ (endRuns_rd _ m)))

theorem runCounted_q : (s.runCounted m).rd BGA_Q = gaugeCount s m := by
  rw [State.runCounted, endRuns_rd, restUpdate_kept _ _ _ (by decide), countCharge_q]

theorem runCounted_lrnact : (s.runCounted m).on BGA_LRNACT = (s.countCharge m).on BGA_LRNACT := by
  rw [State.runCounted, State.on, endRuns_rd, restUpdate_kept _ _ _ (by decide), State.on]

theorem runCounted_table : (s.runCounted m).bga.table = s.bga.table :=
  (endRuns_est _ m).1.table.trans ((restUpdate_held _ m).table.trans (countCharge_est s m).table)

theorem runCounted_dsum : (s.runCounted m).bga.dsum = (s.countCharge m).bga.dsum :=
  (endRuns_est _ m).2.trans (restUpdate_held _ m).dsum

theorem runCounted_moves (t : State) (h : RdKept (countFlds ++ restFlds) s t) :
    t.charging m = s.charging m ∧ t.discharging m = s.discharging m := charging_congr h (by decide) m

theorem runCounted_full (h : (s.runCounted m).bga.full ≠ 0) : s.charging m = true := by
  have kept : RdKept (countFlds ++ restFlds) s ((s.countCharge m).restUpdate m) :=
    ((countCharge_kept s m).mono (by decide)).trans ((restUpdate_kept _ m).mono (by decide))
  rw [← (runCounted_moves s m _ kept).1]
  exact endRuns_full h

theorem runCounted_empty (h : (s.runCounted m).bga.empty ≠ 0) : s.discharging m = true := by
  have kept : RdKept (countFlds ++ restFlds) s ((s.countCharge m).restUpdate m) :=
    ((countCharge_kept s m).mono (by decide)).trans ((restUpdate_kept _ m).mono (by decide))
  rw [← (runCounted_moves s m _ kept).2]
  exact endRuns_empty h

theorem runCounted_clear (h : s.charging m = true ∨ s.discharging m = true) :
    (s.runCounted m).bga.restClk = 0 ∧ (s.runCounted m).bga.restCyc = 0 := by
  obtain ⟨up, down⟩ := charging_congr (countCharge_kept s m) (by decide) m
  obtain ⟨clk, cyc⟩ := restUpdate_moving (s := s.countCharge m) (m := m) (by rwa [up, down])
  exact ⟨(endRuns_est _ m).1.restClk.trans clk, (endRuns_est _ m).1.restCyc.trans cyc⟩

/-- The fields of the end points. -/
def endFlds : List Fld := fullFlds ++ emptyFlds

theorem runFull_kept : RdKept fullFlds s s.runFull := .ite (fullPoint_kept s) (.refl _ _) _

theorem runFull_held : EndHeld s.bga s.runFull.bga := by
  unfold State.runFull; split
  · exact fullPoint_held s
  · exact .refl _

theorem runEnds_kept : RdKept endFlds s s.runEnds := by
  have full := (runFull_kept s).mono (l' := endFlds) (by decide)
  exact .ite (full.trans ((emptyPoint_kept _).mono (by decide))) full _

theorem runEnds_held : EndHeld s.bga s.runEnds.bga := by
  unfold State.runEnds; split
  · exact (runFull_held s).trans (emptyPoint_held _)
  · exact runFull_held s

variable {s}

theorem runEnds_full (hf : s.bga.full = 60) (he : s.bga.empty ≠ 10) : s.runEnds = s.fullPoint := by
  rw [State.runEnds, if_neg (by simp [he]), State.runFull, if_pos (by simp [hf])]

theorem runEnds_empty (he : s.bga.empty = 10) (hf : s.bga.full ≠ 60) : s.runEnds = s.emptyPoint := by
  rw [State.runEnds, if_pos (by simp [he]), State.runFull, if_neg (by simp [hf])]

theorem runEnds_none (hf : s.bga.full ≠ 60) (he : s.bga.empty ≠ 10) : s.runEnds = s := by
  rw [State.runEnds, if_neg (by simp [he]), State.runFull, if_neg (by simp [hf])]

variable (s)

theorem runCharged_kept : RdKept (countFlds ++ restFlds ++ endFlds ++ ocvFlds) s (s.runCharged m) :=
  ((runCounted_kept s m).mono (by decide)).trans
    (((runEnds_kept _).mono (by decide)).trans ((ocvDue_kept _ m).mono (by decide)))

variable {m}

theorem runCharged_moving (h : s.charging m = true ∨ s.discharging m = true) :
    s.runCharged m = (s.runCounted m).runEnds := by
  have kept : RdKept (countFlds ++ restFlds ++ endFlds) s (s.runCounted m).runEnds :=
    ((runCounted_kept s m).mono (by decide)).trans ((runEnds_kept _).mono (by decide))
  obtain ⟨up, down⟩ := charging_congr kept (by decide) m
  exact ocvDue_moving (by rwa [up, down])

variable (m)

theorem runCharged_bga : (s.runCharged m).bga.table = s.bga.table ∧
    (s.runCharged m).bga.full = (s.runCounted m).bga.full ∧
    (s.runCharged m).bga.empty = (s.runCounted m).bga.empty ∧
    (s.runCharged m).bga.restClk = (s.runCounted m).bga.restClk ∧
    (s.runCharged m).bga.restCyc = (s.runCounted m).bga.restCyc ∧
    (s.runCharged m).bga.dsum = (s.runCounted m).runEnds.bga.dsum := by
  have ends := runEnds_held (s.runCounted m)
  have ocv := ocvDue_held (s.runCounted m).runEnds m
  exact ⟨(ocv.table.trans ends.table).trans (runCounted_table s m), ocv.full.trans ends.full, ocv.empty.trans
    ends.empty,
    ocv.restClk.trans ends.restClk, ocv.restCyc.trans ends.restCyc, ocv.dsum⟩

theorem timeToEmpty_lt : s.timeToEmpty m < 2 ^ 16 := by
  unfold State.timeToEmpty
  split
  · decide
  · exact (min_le_left _ _).trans_lt (by decide)

theorem timeToEmpty_congr {s t : State} {l : List Fld} (h : RdKept l s t)
    (hl : l.all (fun f => f.free BGA_IREST && f.free BGA_RSH) = true)
    (free : l.all (·.free BGA_NCELL) = true ∧ l.all (·.free BGA_VEMPTY) = true ∧ l.all (·.free BGA_Z) = true ∧
      l.all (·.free BGA_Q) = true ∧ l.all (·.free BGA_QMAX) = true ∧ l.all (·.free BGA_RSH) = true)
    (table : t.bga.table = s.bga.table) : t.timeToEmpty m = s.timeToEmpty m := by
  obtain ⟨ncell, vempty, z, q, qmax, rsh⟩ := free
  simp only [State.timeToEmpty, (charging_congr h hl m).2, State.meanUa, h _ ncell, h _ vempty, h _ z, h _ q,
    h _ qmax, h _ rsh, table]

/-- What the end of a step shows of the state charged. -/
theorem runStep_kept : RdKept (BGA_TTE :: socFlds) (s.runCharged m) (s.runStep m) := by
  rw [runStep_eq]
  exact ((socShow_kept _ m _ _).mono (by decide)).wr _ (by decide)

theorem bga_runStep : (s.runStep m).bga = (s.runCharged m).bga := by
  simp only [runStep_eq, wr_frame, bga_socShow]

theorem runStep_tte : (s.runStep m).rd BGA_TTE = (s.runStep m).timeToEmpty m := by
  rw [timeToEmpty_congr m (runStep_kept s m) (by decide) (by decide) (by rw [bga_runStep]), runStep_eq]
  exact rd_wr_lt rfl (f := BGA_TTE) (timeToEmpty_lt _ m) _

theorem runStep_soc (h : (s.runStep m).rd BGA_Q ≤ (s.runStep m).rd BGA_QMAX) (hc : (s.runStep m).rd BGA_QMAX ≠ 0) :
    (s.runStep m).rd BGA_SOCS = divRoundNat (10000 * (s.runStep m).rd BGA_Q) ((s.runStep m).rd BGA_QMAX) ∧
    (s.runStep m).rd BGA_SOCR =
      (s.clampedSoc m ((s.runCounted m).bga.full == 60) ((s.runCounted m).bga.empty == 10)
        ((s.runStep m).rd BGA_SOCS)) := by
  have kept := runStep_kept s m
  have charged := runCharged_kept s m
  rw [kept _ (by decide), kept _ (by decide)] at h
  rw [kept _ (by decide)] at hc
  obtain ⟨soc, r⟩ := socShow_shown (m := m) (full := (s.runCounted m).bga.full == 60)
    (empty := (s.runCounted m).bga.empty == 10) h hc
  have socs : (s.runStep m).rd BGA_SOCS =
      divRoundNat (10000 * (s.runCharged m).rd BGA_Q) ((s.runCharged m).rd BGA_QMAX) := by
    rw [runStep_eq, rd_wr_free (by decide), soc]
  refine ⟨by rw [socs, kept _ (by decide), kept _ (by decide)], ?_⟩
  rw [socs, runStep_eq, rd_wr_free (by decide), r]
  simp only [State.clampedSoc, (charging_congr charged (by decide) m).1, charged BGA_SOCR (by decide),
    charged BGA_SOCS (by decide), charged BGA_CATCH (by decide)]

end

set_option autoImplicit false

/-! ### A second in RUN -/

theorem execEstimationStep_off {s : State} (m : GaugeSecond) (h : s.rd BGA_ST = 0) :
    execEstimationStep m s = .next (s.takeSupplies m) := by
  rw [execEstimationStep_eq, if_pos]
  rw [takeSupplies_kept s m _ (by decide), h]; rfl

theorem bgaRuns_iff (s : State) : s.bgaRuns = true ↔ s.rd BGA_ST = 2 := beq_iff_eq

theorem execEstimationStep_runs {s : State} (m : GaugeSecond) (h : s.rd BGA_ST = 2) :
    execEstimationStep m s = .next (if s.bga.cold then (s.sensed m).coldStep m else (s.sensed m).runStep m) := by
  obtain ⟨kept, est, -, -, -, -⟩ := sensed_sensed s m
  have runs : (s.sensed m).bgaRuns = true := by rw [bgaRuns_iff, kept _ (by decide), h]
  rw [execEstimationStep_eq, if_neg, runs, if_neg (by decide), est.cold]
  rw [takeSupplies_kept s m _ (by decide), h]; decide

section
variable {s v : State} {m : GaugeSecond} (h : Sensed s v m)
include h

theorem Sensed.moves : v.charging m = s.charging m ∧ v.discharging m = s.discharging m :=
  charging_congr h.kept (by decide) m

theorem Sensed.count : gaugeCount v m = gaugeCount s m := by
  unfold gaugeCount
  rw [h.kept BGA_Q (by decide), h.kept BGA_CEFF (by decide), h.kept BGA_RSH (by decide), h.kept BGA_QMAX (by decide)]

/-- What the whole step leaves of the charged state. -/
theorem Sensed.step_rd (g : Fld) (hg : (BGA_TTE :: socFlds).all (·.free g) = true) (ho : ocvFlds.all
    (·.free g) = true) :
    (v.runStep m).rd g = (v.runCounted m).runEnds.rd g := by
  rw [runStep_kept v m g hg]
  exact ocvDue_kept _ m g ho

theorem Sensed.step_shown : (v.runStep m).rd BGA_IMEAN =
      unsigned 16 (satSigned 16 (divRound (m.current * 1525880) (1000 * (1000 * s.rd BGA_RSH)))) ∧
    (v.runStep m).rd BGA_VPACK = satNat 16 (divRoundNat m.pack 2500) := by
  have kept := runStep_kept v m
  have charged := runCharged_kept v m
  rw [kept _ (by decide), kept _ (by decide), charged _ (by decide), charged _ (by decide)]
  exact ⟨h.current, h.pack⟩

theorem Sensed.step_sv : (v.runStep m).rd BGA_SV = v.rd BGA_SV ∧ (v.runCounted m).rd BGA_SV = v.rd BGA_SV := by
  rw [runStep_kept v m _ (by decide), runCharged_kept v m _ (by decide), runCounted_kept v m _ (by decide)]
  exact ⟨rfl, rfl⟩

theorem Sensed.step_soc (hq : (v.runStep m).rd BGA_Q ≤ (v.runStep m).rd BGA_QMAX)
    (hc : (v.runStep m).rd BGA_QMAX ≠ 0) :
    (v.runStep m).rd BGA_SOCS = divRoundNat (10000 * (v.runStep m).rd BGA_Q) ((v.runStep m).rd BGA_QMAX) ∧
    (v.runStep m).rd BGA_SOCR = (if (v.runStep m).bga.full = 60 then 10000 else if (v.runStep m).bga.empty = 10 then 0
      else if s.charging m = true then
        min ((v.runStep m).rd BGA_SOCS)
          (s.rd BGA_SOCR + ((v.runStep m).rd BGA_SOCS - s.rd BGA_SOCS) + s.rd BGA_CATCH)
      else min (s.rd BGA_SOCR) ((v.runStep m).rd BGA_SOCS)) := by
  obtain ⟨soc, r⟩ := runStep_soc v m hq hc
  obtain ⟨-, full, empty, -⟩ := runCharged_bga v m
  refine ⟨soc, ?_⟩
  rw [r, bga_runStep, full, empty, State.clampedSoc]
  simp only [beq_iff_eq, h.moves.1, h.kept BGA_SOCR (by decide), h.kept BGA_SOCS (by decide),
    h.kept BGA_CATCH (by decide)]

/-- The runs at the end of the step. -/
theorem Sensed.step_runs : (v.runStep m).bga.full = (v.runCounted m).bga.full ∧
    (v.runStep m).bga.empty = (v.runCounted m).bga.empty := by
  obtain ⟨-, full, empty, -⟩ := runCharged_bga v m
  rw [bga_runStep]
  exact ⟨full, empty⟩

/-- After a charging or a discharging second nothing follows the end points but the charge shown. -/
theorem Sensed.step_moving (hm : s.charging m = true ∨ s.discharging m = true) (g : Fld)
    (hg : (BGA_TTE :: socFlds).all (·.free g) = true) : (v.runStep m).rd g = (v.runCounted m).runEnds.rd g := by
  rw [runStep_kept v m g hg, runCharged_moving v (by rwa [h.moves.1, h.moves.2])]

theorem Sensed.step_full (hf : (v.runStep m).bga.full = 60) (he : (v.runStep m).bga.empty ≠ 10) :
    (v.runStep m).rd BGA_Q = (v.runStep m).rd BGA_QMAX ∧ (v.runStep m).on BGA_ESTF = false ∧
      ((v.runStep m).rd BGA_SV = 0 → (v.runStep m).on BGA_LRNACT = true ∧ (v.runStep m).bga.dsum = 0) := by
  obtain ⟨full, empty⟩ := h.step_runs
  rw [full] at hf
  rw [empty] at he
  have up : s.charging m = true := by rw [← h.moves.1]; exact runCounted_full v m (by omega)
  have rd := h.step_moving (.inl up)
  have ends := runEnds_full hf he
  obtain ⟨q, estf⟩ := fullPoint_q (v.runCounted m)
  refine ⟨?_, ?_, fun sv => ?_⟩
  · rw [rd _ (by decide), rd _ (by decide), ends, q, fullPoint_kept _ _ (by decide)]
  · rw [State.on, rd _ (by decide), ends]; exact estf
  · rw [h.step_sv.1, ← h.step_sv.2] at sv
    obtain ⟨act, dsum⟩ := fullPoint_learns sv
    refine ⟨by rw [State.on, rd _ (by decide), ends]; exact act, ?_⟩
    rw [bga_runStep, (runCharged_bga v m).2.2.2.2.2, ends, dsum]

theorem Sensed.step_empty (he : (v.runStep m).bga.empty = 10) (hf : (v.runStep m).bga.full ≠ 60) :
    (v.runStep m).rd BGA_Q = 0 ∧ (v.runStep m).on BGA_ESTF = false := by
  obtain ⟨full, empty⟩ := h.step_runs
  rw [full] at hf
  rw [empty] at he
  have down : s.discharging m = true := by rw [← h.moves.2]; exact runCounted_empty v m (by omega)
  obtain ⟨q, estf⟩ := emptyPoint_q (v.runCounted m)
  rw [State.on, h.step_moving (.inr down) _ (by decide), h.step_moving (.inr down) _ (by decide),
    runEnds_empty he hf]
  exact ⟨q, estf⟩

theorem Sensed.step_count (hf : (v.runStep m).bga.full ≠ 60) (he : (v.runStep m).bga.empty ≠ 10)
    (hm : s.charging m = true ∨ s.discharging m = true) :
    (v.runStep m).rd BGA_Q = gaugeCount s m ∧ (v.runStep m).rd BGA_QMAX = s.rd BGA_QMAX ∧
      (v.runStep m).bga.restClk = 0 ∧ (v.runStep m).bga.restCyc = 0 := by
  obtain ⟨full, empty⟩ := h.step_runs
  rw [full] at hf
  rw [empty] at he
  obtain ⟨-, -, -, clk, cyc, -⟩ := runCharged_bga v m
  obtain ⟨clk0, cyc0⟩ := runCounted_clear v m (by rwa [h.moves.1, h.moves.2])
  rw [h.step_moving hm _ (by decide), h.step_moving hm _ (by decide), runEnds_none hf he, runCounted_q, h.count,
    runCounted_kept v m _ (by decide), h.kept _ (by decide), bga_runStep]
  exact ⟨rfl, rfl, clk.trans clk0, cyc.trans cyc0⟩

/-- A charging second is not a discharging one: the empty point is not reached. -/
theorem Sensed.charging_empty (hc : s.charging m = true) : (v.runCounted m).bga.empty ≠ 10 := fun he => by
  have down := runCounted_empty v m (by omega)
  rw [h.moves.2] at down
  have := charging_current hc
  have := discharging_current down
  omega

theorem Sensed.step_charging (hc : s.charging m = true) (hf : (v.runStep m).bga.full ≠ 60) :
    (v.runStep m).on BGA_LRNACT = false := by
  rw [h.step_runs.1] at hf
  rw [State.on, h.step_moving (.inl hc) _ (by decide), runEnds_none hf (h.charging_empty hc), ← State.on,
    runCounted_lrnact]
  exact countCharge_charging (h.moves.1.trans hc)

/-- D after the second, while learning runs on. -/
theorem Sensed.counted_learning (act : s.on BGA_LRNACT = true) (sv : (v.runStep m).rd BGA_SV = 0)
    (neg : m.current < 0) : (v.runCounted m).on BGA_LRNACT = true ∧
      (v.runCounted m).bga.dsum = s.bga.dsum + (-m.current).toNat := by
  rw [h.step_sv.1] at sv
  obtain ⟨on, dsum⟩ := h.learn.1 sv
  obtain ⟨act', dsum'⟩ := countCharge_learning neg (on.trans act)
  rw [runCounted_lrnact, runCounted_dsum, dsum', dsum]
  exact ⟨act', rfl⟩

theorem Sensed.step_learning (act : s.on BGA_LRNACT = true) (sv : (v.runStep m).rd BGA_SV = 0) (neg : m.current < 0)
    (hf : (v.runStep m).bga.full ≠ 60) (he : (v.runStep m).bga.empty ≠ 10) :
    (v.runStep m).on BGA_LRNACT = true ∧ (v.runStep m).bga.dsum = s.bga.dsum + (-m.current).toNat := by
  obtain ⟨on, dsum⟩ := h.counted_learning act sv neg
  obtain ⟨full, empty⟩ := h.step_runs
  rw [full] at hf
  rw [empty] at he
  rw [State.on, h.step_rd _ (by decide) (by decide), bga_runStep, (runCharged_bga v m).2.2.2.2.2,
    runEnds_none hf he]
  exact ⟨on, dsum⟩

theorem Sensed.step_learned (act : s.on BGA_LRNACT = true) (sv : (v.runStep m).rd BGA_SV = 0) (neg : m.current < 0)
    (hf : (v.runStep m).bga.full ≠ 60) (he : (v.runStep m).bga.empty = 10) {num unit : Nat}
    (hn : num = (s.bga.dsum + (-m.current).toNat) * 1525880)
    (hu : unit = 36000 * s.rd BGA_RSH * (s.rd BGA_DESCAP * 1000)) (rsh : s.rd BGA_RSH ≠ 0) :
    (v.runStep m).on BGA_LRNACT = false ∧
      (unit * 50 ≤ num ∧ num ≤ unit * 120 → (v.runStep m).rd BGA_QMAX = divRoundNat num (3600000 * s.rd BGA_RSH) ∧
        (v.runStep m).on BGA_LEARNED = true ∧ (v.runStep m).rd BGA_LRN_CODE = codeOf .ok) ∧
      (num < unit * 50 ∨ unit * 120 < num → (v.runStep m).rd BGA_QMAX = s.rd BGA_QMAX ∧
        (v.runStep m).rd BGA_LRN_CODE = codeOf .cfgInvalid) := by
  obtain ⟨on, dsum⟩ := h.counted_learning act sv neg
  obtain ⟨full, empty⟩ := h.step_runs
  rw [full] at hf
  rw [empty] at he
  have ends := runEnds_empty he hf
  have c_rd : ∀ g : Fld, (countFlds ++ restFlds ++ secondFlds).all (·.free g) = true → (v.runCounted m).rd g = s.rd g :=
    RdKept.trans (h.kept.mono (by decide)) ((runCounted_kept v m).mono (by decide))
  generalize hc : v.runCounted m = c at on dsum ends c_rd
  have e_rd := emptyShow_kept c
  have learned : ∀ g : Fld, doneFlds.all (·.free g) = true → (BGA_TTE :: socFlds).all (·.free g) = true →
      ocvFlds.all (·.free g) = true → (v.runStep m).rd g = c.emptyShow.learnFinish.rd g := fun g hd hs ho => by
    rw [h.step_rd g hs ho, hc, ends, emptyPoint_eq, mntEmpty_kept _ _ g hd]
  have e_on : c.emptyShow.on BGA_LRNACT = true := by rw [e_rd.on (by decide), on]
  have e_num : c.emptyShow.bga.dsum * 1525880 = num := by
    rw [hn, ← dsum]; rfl
  have e_unit : 36000 * c.emptyShow.rd BGA_RSH * (c.emptyShow.rd BGA_DESCAP * 1000) = unit := by
    rw [hu, e_rd _ (by decide), e_rd _ (by decide), c_rd _ (by decide), c_rd _ (by decide)]
  have good : c.emptyShow.learnGood = (decide (unit * 50 ≤ num) && decide (num ≤ unit * 120)) := by
    rw [State.learnGood, e_on, e_num, e_unit, Bool.true_and]
  have e_rsh : c.emptyShow.rd BGA_RSH = s.rd BGA_RSH := by rw [e_rd _ (by decide), c_rd _ (by decide)]
  rw [State.on, State.on, learned _ (by decide) (by decide) (by decide), learned _ (by decide) (by decide) (by decide),
    learned _ (by decide) (by decide) (by decide), learned _ (by decide) (by decide) (by decide)]
  cases hg : c.emptyShow.learnGood with
  | true =>
    obtain ⟨off, qmax, taken, code⟩ := learnFinish_good hg (by rwa [e_rsh])
    refine ⟨off, fun _ => ⟨?_, taken, code⟩, fun out => ?_⟩
    · rw [qmax, State.learned, e_num, e_rsh]
    · rw [good] at hg
      simp only [Bool.and_eq_true, decide_eq_true_eq] at hg
      omega
  | false =>
    obtain ⟨off, qmax, code⟩ := learnFinish_bad e_on hg
    refine ⟨off, fun within => ?_, fun _ => ⟨?_, code⟩⟩
    · rw [good] at hg
      simp [within.1, within.2] at hg
    · rw [qmax, e_rd _ (by decide), c_rd _ (by decide)]

end

set_option autoImplicit false

/-! ### An idle second (R481, R482) -/

/-- An idle second counted in REF48 clocks. -/
structure IdleSecond (s : State) (m : GaugeSecond) : Prop where
  up : s.charging m = false
  down : s.discharging m = false
  pin : s.on BGA_RESTPIN = false
  free : s.refLocked = false
  clocks : s.bga.cycles = false
  cyc : s.bga.restCyc = 0

theorem refLocked_congr {l : List Fld} {s t : State} (h : RdKept l s t) (hl : l.all (·.free CTF_ST) = true) :
    t.refLocked = s.refLocked := by
  simp only [State.refLocked, State.ctfSt, h _ hl]

/-- The state before the correction of an idle second. -/
structure IdleCounted (s c : State) (m : GaugeSecond) : Prop where
  kept : RdKept (secondFlds ++ countFlds ++ restFlds) s c
  table : c.bga.table = s.bga.table
  clk : c.bga.restClk = s.bga.restClk + 48000000
  cyc : c.bga.restCyc = 0
  rests : c.bga.rests = s.bga.rests
  seconds : c.rd BGA_RESTT = satNat 32 ((s.bga.restClk + 48000000) / 48000000)
  q : c.rd BGA_Q = gaugeCount s m
  full : c.bga.full ≠ 60
  empty : c.bga.empty ≠ 10

theorem Sensed.idle {s v : State} {m : GaugeSecond} (h : Sensed s v m) (i : IdleSecond s m) :
    IdleCounted s (v.runCounted m) m := by
  have est := h.est.trans (countCharge_est v m)
  have count := countCharge_kept v m
  obtain ⟨up, down⟩ := charging_congr count (by decide) m
  obtain ⟨clk, cyc, rests, seconds⟩ := restUpdate_idle (s := v.countCharge m) (m := m)
    (by rw [up, h.moves.1, i.up]) (by rw [down, h.moves.2, i.down])
    (by rw [count.on (by decide), h.kept.on (by decide), i.pin])
    (by rw [refLocked_congr count (by decide), refLocked_congr h.kept (by decide), i.free])
    (by rw [est.cycles, i.clocks]) (by rw [est.restCyc, i.cyc])
  have held := (endRuns_est ((v.countCharge m).restUpdate m) m).1
  rw [show ((v.countCharge m).restUpdate m).endRuns m = v.runCounted m from rfl] at held
  refine ⟨(h.kept.mono (by decide)).trans ((runCounted_kept v m).mono (by decide)),
    (runCounted_table v m).trans h.est.table, ?_, held.restCyc.trans cyc,
    held.rests.trans (rests.trans est.rests), ?_, by rw [runCounted_q, h.count], fun full => ?_, fun empty => ?_⟩
  · exact held.restClk.trans (by rw [clk, est.restClk])
  · rw [State.runCounted, endRuns_rd, seconds, est.restClk]
  · have := runCounted_full v m (by omega)
    rw [h.moves.1, i.up] at this
    exact Bool.false_ne_true this
  · have := runCounted_empty v m (by omega)
    rw [h.moves.2, i.down] at this
    exact Bool.false_ne_true this

/-- The correction of a rest, once it is due. -/
theorem ocvDue_due {s c : State} {m : GaugeSecond} (i : IdleSecond s m) (h : IdleCounted s c m)
    (hk : s.bga.rests < (s.bga.restClk + 48000000) / 48000000 / max 1 (s.rd BGA_TREST)) :
    c.ocvDue m = (c.setBga fun b =>
      { b with rests := (s.bga.restClk + 48000000) / 48000000 / max 1 (s.rd BGA_TREST) }).ocvCorrect m := by
  obtain ⟨up, down⟩ := charging_congr h.kept (by decide) m
  have seconds : c.restSeconds = (s.bga.restClk + 48000000) / 48000000 := by
    rw [State.restSeconds, h.clk, h.cyc, Nat.zero_mul, Nat.add_zero]
  unfold State.ocvDue
  rw [seconds, h.kept BGA_TREST (by decide), h.rests]
  exact if_pos ⟨hk, up.trans i.up, down.trans i.down⟩

theorem ocvDue_not {s c : State} {m : GaugeSecond} (h : IdleCounted s c m)
    (hk : (s.bga.restClk + 48000000) / 48000000 / max 1 (s.rd BGA_TREST) ≤ s.bga.rests) : c.ocvDue m = c := by
  have seconds : c.restSeconds = (s.bga.restClk + 48000000) / 48000000 := by
    rw [State.restSeconds, h.clk, h.cyc, Nat.zero_mul, Nat.add_zero]
  unfold State.ocvDue
  rw [seconds, h.kept BGA_TREST (by decide), h.rests]
  exact if_neg fun due => absurd due.1 (by omega)

/-- The table slope at the mean of a second is below BGA_MINSLOPE. -/
def State.flatAt (s : State) (m : GaugeSecond) : Prop :=
  ((s.bga.table.getD ((ocvAt s.bga.table (meanV m (s.rd BGA_NCELL))).1 + 1) (0, 0)).1 -
      (s.bga.table.getD (ocvAt s.bga.table (meanV m (s.rd BGA_NCELL))).1 (0, 0)).1) * 1000 <
    s.rd BGA_MINSLOPE *
      ((s.bga.table.getD ((ocvAt s.bga.table (meanV m (s.rd BGA_NCELL))).1 + 1) (0, 0)).2 -
        (s.bga.table.getD (ocvAt s.bga.table (meanV m (s.rd BGA_NCELL))).1 (0, 0)).2)

theorem ocvCorrect_flat {s : State} {m : GaugeSecond} (h : s.flatAt m) : s.ocvCorrect m = s.count BGA_OCVSKN := if_pos h

theorem ocvCorrect_steep {s : State} {m : GaugeSecond} (h : ¬ s.flatAt m) : s.ocvCorrect m =
    (((s.wr BGA_Q (s.chargeOf (ocvAt s.bga.table (meanV m (s.rd BGA_NCELL))).2)).count BGA_OCVN).raise 0x0E0 4).wr
      BGA_ESTF 0 := if_neg h

theorem flatAt_congr {l : List Fld} {s t : State} (h : RdKept l s t) (table : t.bga.table = s.bga.table)
    (hl : l.all (·.free BGA_NCELL) = true ∧ l.all (·.free BGA_MINSLOPE) = true) (m : GaugeSecond) :
    t.flatAt m ↔ s.flatAt m := by
  unfold State.flatAt
  rw [table, h _ hl.1, h _ hl.2]

theorem flatAt_marked (s : State) (k : Nat) (m : GaugeSecond) :
    (s.setBga fun b => { b with rests := k }).flatAt m ↔ s.flatAt m :=
  flatAt_congr (l := []) ((RdKept.refl _ s).setBga _) rfl ⟨rfl, rfl⟩ m

/-- What an idle second shows at the end of its step. -/
theorem Sensed.idle_step {s v : State} {m : GaugeSecond} (h : Sensed s v m) (i : IdleSecond s m) :
    (v.runCharged m) = (v.runCounted m).ocvDue m := by
  have c := h.idle i
  rw [State.runCharged, runEnds_none c.full c.empty]

theorem bit_runStep {v : State} {m : GaugeSecond} {k : Nat} (hk : k < 32)
    (hb : bit ((v.runCharged m).rd (IRQ_RAW 0x0E0)) k = true) :
    bit ((v.runStep m).rd (IRQ_RAW 0x0E0)) k = true := by
  rw [runStep_eq, rd_wr_free (by decide)]
  have put : bit (((v.runCharged m).socPut m ((v.runCounted m).bga.full == 60)
      ((v.runCounted m).bga.empty == 10)).rd (IRQ_RAW 0x0E0)) k = true := by
    rw [State.socPut, rd_wr_free (by decide), rd_wr_free (by decide)]
    exact hb
  rcases socShow_cases (v.runCharged m) m ((v.runCounted m).bga.full == 60)
    ((v.runCounted m).bga.empty == 10) with e | e <;> rw [e]
  · exact put
  · exact bit_raise_of_bit _ _ _ hk put

/-- A correction that the table's slope does not allow (R482). -/
theorem Sensed.idle_flat {s v : State} {m : GaugeSecond} (h : Sensed s v m) (i : IdleSecond s m)
    (hk : s.bga.rests < (s.bga.restClk + 48000000) / 48000000 / max 1 (s.rd BGA_TREST)) (hf : s.flatAt m) :
    (v.runStep m).rd BGA_Q = gaugeCount s m ∧ (v.runStep m).rd BGA_OCVSKN = satNat 16 (s.rd BGA_OCVSKN + 1) := by
  have c := h.idle i
  have flat : ((v.runCounted m).setBga fun b =>
      { b with rests := (s.bga.restClk + 48000000) / 48000000 / max 1 (s.rd BGA_TREST) }).flatAt m :=
    (flatAt_marked _ _ m).mpr ((flatAt_congr c.kept c.table ⟨by decide, by decide⟩ m).mpr hf)
  rw [runStep_kept v m _ (by decide), runStep_kept v m _ (by decide), h.idle_step i, ocvDue_due i c hk,
    ocvCorrect_flat flat, rd_count_free (by decide), rd_setBga, c.q]
  exact ⟨rfl, by rw [rd_count_same _ _ _ rfl, rd_setBga, c.kept _ (by decide)]; rfl⟩

/-- A correction of Q from the table (R482). -/
theorem Sensed.idle_steep {s v : State} {m : GaugeSecond} (h : Sensed s v m) (i : IdleSecond s m)
    (hk : s.bga.rests < (s.bga.restClk + 48000000) / 48000000 / max 1 (s.rd BGA_TREST)) (hf : ¬ s.flatAt m) :
    (v.runStep m).rd BGA_Q =
      divRoundNat ((ocvAt s.bga.table (meanV m (s.rd BGA_NCELL))).2 * s.rd BGA_QMAX) 10000 % 2 ^ 32 ∧
    (v.runStep m).on BGA_ESTF = false ∧ (v.runStep m).rd BGA_OCVN = satNat 16 (s.rd BGA_OCVN + 1) ∧
    bit ((v.runStep m).rd (IRQ_RAW 0x0E0)) 4 = true := by
  have c := h.idle i
  have charged := h.idle_step i
  have steep : ¬ ((v.runCounted m).setBga fun b =>
      { b with rests := (s.bga.restClk + 48000000) / 48000000 / max 1 (s.rd BGA_TREST) }).flatAt m :=
    fun flat => hf ((flatAt_congr c.kept c.table ⟨by decide, by decide⟩ m).mp ((flatAt_marked _ _ m).mp flat))
  rw [ocvDue_due i c hk, ocvCorrect_steep steep] at charged
  refine ⟨?_, ?_, ?_, bit_runStep (by decide) ?_⟩
  · rw [runStep_kept v m _ (by decide), charged, rd_wr_free (by decide), rd_raise_free (by decide),
      rd_count_free (by decide), rd_wr_same _ BGA_Q _ rfl, State.chargeOf, rd_setBga, rd_setBga, c.kept _ (by decide),
      c.kept _ (by decide)]
    change divRoundNat ((ocvAt (v.runCounted m).bga.table _).2 * _) _ % _ = _
    rw [c.table]
    rfl
  · rw [State.on, runStep_kept v m _ (by decide), charged]
    exact on_wr_b2n (f := BGA_ESTF) rfl (by decide) _ false
  · rw [runStep_kept v m _ (by decide), charged, rd_wr_free (by decide), rd_raise_free (by decide),
      rd_count_same _ _ _ rfl, rd_wr_free (by decide), rd_setBga, c.kept _ (by decide)]
    rfl
  · rw [charged, rd_wr_free (by decide)]
    exact bit_raise_same _ _ (by decide)

theorem Sensed.idle_timer {s v : State} {m : GaugeSecond} (h : Sensed s v m) (i : IdleSecond s m) :
    (v.runStep m).bga.restClk = s.bga.restClk + 48000000 ∧
    (v.runStep m).rd BGA_RESTT = satNat 32 ((s.bga.restClk + 48000000) / 48000000) := by
  have c := h.idle i
  obtain ⟨-, -, -, clk, -⟩ := runCharged_bga v m
  rw [bga_runStep, clk, c.clk, runStep_kept v m _ (by decide), h.idle_step i, ocvDue_kept _ _ _ (by decide), c.seconds]
  exact ⟨rfl, rfl⟩

theorem Sensed.idle_early {s v : State} {m : GaugeSecond} (h : Sensed s v m) (i : IdleSecond s m)
    (hk : (s.bga.restClk + 48000000) / 48000000 / max 1 (s.rd BGA_TREST) ≤ s.bga.rests) :
    (v.runStep m).rd BGA_Q = gaugeCount s m := by
  have c := h.idle i
  rw [runStep_kept v m _ (by decide), h.idle_step i, ocvDue_not c hk, c.q]

theorem Sensed.idle_rests {s v : State} {m : GaugeSecond} (h : Sensed s v m) (i : IdleSecond s m)
    (hk : s.bga.rests < (s.bga.restClk + 48000000) / 48000000 / max 1 (s.rd BGA_TREST)) :
    (v.runStep m).bga.rests = (s.bga.restClk + 48000000) / 48000000 / max 1 (s.rd BGA_TREST) := by
  rw [bga_runStep, h.idle_step i, ocvDue_due i (h.idle i) hk, bga_ocvCorrect]
  rfl

/-- The clauses of a step, for the statement's form of an idle second. -/
theorem estimationStep_idle {s : State} {m : GaugeSecond} {k : Nat} {r : Nat × Nat} {p : Nat → Nat × Nat}
    (st : s.rd BGA_ST = 2) (cold : s.bga.cold = false) (i : IdleSecond s m) (trest : s.rd BGA_TREST ≠ 0)
    (hk : k = (s.bga.restClk + 48000000) / 48000000 / s.rd BGA_TREST)
    (hr : r = ocvAt s.bga.table (meanV m (s.rd BGA_NCELL))) (hp : ∀ j, p j = s.bga.table.getD j (0, 0)) :
    Answers (.estimationStep m) s fun t =>
      t.bga.restClk = s.bga.restClk + 48000000 ∧
      t.rd BGA_RESTT = satNat 32 ((s.bga.restClk + 48000000) / 48000000) ∧
      (k ≤ s.bga.rests → t.rd BGA_Q = gaugeCount s m) ∧
      (s.bga.rests < k → t.bga.rests = k ∧
        (((p (r.1 + 1)).1 - (p r.1).1) * 1000 < s.rd BGA_MINSLOPE * ((p (r.1 + 1)).2 - (p r.1).2) →
          t.rd BGA_Q = gaugeCount s m ∧ t.rd BGA_OCVSKN = satNat 16 (s.rd BGA_OCVSKN + 1)) ∧
        (s.rd BGA_MINSLOPE * ((p (r.1 + 1)).2 - (p r.1).2) ≤ ((p (r.1 + 1)).1 - (p r.1).1) * 1000 →
          t.rd BGA_Q = divRoundNat (r.2 * s.rd BGA_QMAX) 10000 % 2 ^ 32 ∧ t.on BGA_ESTF = false ∧
          t.rd BGA_OCVN = satNat 16 (s.rd BGA_OCVN + 1) ∧ bit (t.rd (IRQ_RAW 0x0E0)) 4 = true)) := by
  have h := sensed_sensed s m
  have k_eq : k = (s.bga.restClk + 48000000) / 48000000 / max 1 (s.rd BGA_TREST) := by
    rw [hk, max_eq_right (Nat.one_le_iff_ne_zero.mpr trest)]
  obtain ⟨clk, seconds⟩ := h.idle_timer i
  subst hr
  refine ⟨(s.sensed m).runStep m, ?_, clk, seconds, fun early => h.idle_early i (k_eq ▸ early), fun late => ?_⟩
  · change execEstimationStep m s = _
    rw [execEstimationStep_runs m st, cold]
    rfl
  · rw [k_eq] at late ⊢
    rw [hp, hp]
    exact ⟨h.idle_rests i late, fun flat => h.idle_flat i late flat, fun steep => h.idle_steep i late
      (not_lt.mpr steep)⟩

set_option autoImplicit false

/-! ### Impedance (R486, R487) -/

/-- An accepted step in Z and in its counts. -/
def State.zTaken (s : State) (z : Int) : State :=
  (((s.wr BGA_Z (if s.rd BGA_ZN = 0 then z else (s.rd BGA_Z : Int) + divRound (z - s.rd BGA_Z) 8).toNat).count
    BGA_ZN).count BGA_ZACCN).setBga fun b => { b with steps := b.steps + 1, since := 0 }

/-- The call for steps after an accepted one. -/
def State.zCalled (s : State) : State := s.wr BGA_ZWANT (b2n (s.on BGA_ZWANT && decide (s.rd BGA_ZN < 8)))

/-- An edge is acceptable (R486). -/
def State.edgeGood (s : State) (alone : Bool) (di z : Int) : Bool :=
  s.on BGA_ONPACK && alone && decide (s.rd BGA_ZMIN * 1000 * s.rd BGA_RSH ≤ di.natAbs * 1525880)
    && decide (5 ≤ z) && decide (z ≤ 20000)

theorem execBurstEdge_on {s : State} {pre post : GaugeSample} {alone : Bool} {di dv z : Int} (h : s.rd BGA_ST ≠ 0)
    (hi : di = signed 16 post.current.toNat - signed 16 pre.current.toNat)
    (hv : dv = (post.pack.toNat : Int) - pre.pack.toNat)
    (hz : z = divRound (dv * di.sign * (400 * s.rd BGA_RSH * 10000)) (di.natAbs * 1525880)) :
    execBurstEdge pre post alone s = .next (if !s.edgeGood alone di z then s.count BGA_ZREJN
      else if (s.zTaken z).zCalled.bgaRuns ∧ (s.zTaken z).zCalled.bga.steps % 8 = 0
        then (s.zTaken z).zCalled.raise 0x0E0 0 else (s.zTaken z).zCalled) := by
  subst hz hv hi
  unfold execBurstEdge
  rw [if_neg (c := s.rd BGA_ST = bgaOff) h]
  rfl

theorem divRound_bounds (a : Int) : min a 0 ≤ divRound a 8 ∧ divRound a 8 ≤ max a 0 := by
  unfold divRound
  rw [if_neg (by decide)]
  split <;> omega

/-- The new impedance. -/
theorem zTaken_shown (s : State) {z : Int} (low : 5 ≤ z) (high : z ≤ 20000) :
    (s.rd BGA_ZN = 0 → ((s.zTaken z).rd BGA_Z : Int) = z) ∧
    (s.rd BGA_ZN ≠ 0 → (s.zTaken z).rd BGA_Z = ((s.rd BGA_Z : Int) + divRound (z - s.rd BGA_Z) 8).toNat) ∧
    (s.zTaken z).rd BGA_ZN = satNat 16 (s.rd BGA_ZN + 1) ∧
    (s.zTaken z).rd BGA_ZACCN = satNat 16 (s.rd BGA_ZACCN + 1) := by
  have old : s.rd BGA_Z < 2 ^ 16 := rd_lt s (f := BGA_Z) rfl
  obtain ⟨from_below, from_above⟩ := divRound_bounds (z - s.rd BGA_Z)
  refine ⟨fun zero => ?_, fun more => ?_, ?_, ?_⟩
  · rw [State.zTaken, rd_setBga, rd_count_free (by decide), rd_count_free (by decide), if_pos zero,
      rd_wr_lt rfl (f := BGA_Z) (show _ < 2 ^ 16 by omega)]
    omega
  · rw [State.zTaken, rd_setBga, rd_count_free (by decide), rd_count_free (by decide), if_neg more,
      rd_wr_lt rfl (f := BGA_Z) (show _ < 2 ^ 16 by omega)]
  · rw [State.zTaken, rd_setBga, rd_count_free (by decide), rd_count_same _ _ _ rfl, rd_wr_free (by decide)]
    rfl
  · rw [State.zTaken, rd_setBga, rd_count_same _ _ _ rfl, rd_count_free (by decide), rd_wr_free (by decide)]
    rfl

theorem zCalled_kept (s : State) : RdKept [BGA_ZWANT, IRQ_RAW 0x0E0] s
    (if s.zCalled.bgaRuns ∧ s.zCalled.bga.steps % 8 = 0 then s.zCalled.raise 0x0E0 0 else s.zCalled) := by
  have called : RdKept [BGA_ZWANT, IRQ_RAW 0x0E0] s s.zCalled := (RdKept.refl _ s).wr _ (by decide)
  exact .ite (called.raise _ (by decide)) called _

theorem burstEdge_answers (s : State) (pre post : GaugeSample) (alone : Bool) (di dv z : Int) (h : s.rd BGA_ST ≠ 0)
    (hi : di = signed 16 post.current.toNat - signed 16 pre.current.toNat)
    (hv : dv = (post.pack.toNat : Int) - pre.pack.toNat)
    (hz : z = divRound (dv * di.sign * (400 * s.rd BGA_RSH * 10000)) (di.natAbs * 1525880)) :
    (s.on BGA_ONPACK = true → alone = true → s.rd BGA_ZMIN * 1000 * s.rd BGA_RSH ≤ di.natAbs * 1525880 → 5 ≤ z →
      z ≤ 20000 →
      Answers (.burstEdge pre post alone) s fun t =>
        (s.rd BGA_ZN = 0 → (t.rd BGA_Z : Int) = z) ∧
        (s.rd BGA_ZN ≠ 0 → t.rd BGA_Z = ((s.rd BGA_Z : Int) + divRound (z - s.rd BGA_Z) 8).toNat) ∧
        t.rd BGA_ZN = satNat 16 (s.rd BGA_ZN + 1) ∧ t.rd BGA_ZACCN = satNat 16 (s.rd BGA_ZACCN + 1)) ∧
    (s.on BGA_ONPACK = false ∨ alone = false ∨ di.natAbs * 1525880 < s.rd BGA_ZMIN * 1000 * s.rd BGA_RSH ∨ z < 5 ∨
        20000 < z →
      Answers (.burstEdge pre post alone) s fun t =>
        t.rd BGA_ZREJN = satNat 16 (s.rd BGA_ZREJN + 1) ∧ t.rd BGA_Z = s.rd BGA_Z ∧ t.rd BGA_ZN = s.rd BGA_ZN) := by
  have command := execBurstEdge_on (alone := alone) h hi hv hz
  refine ⟨fun pack al big low high => ?_, fun bad => ?_⟩
  · have good : s.edgeGood alone di z = true := by simp [State.edgeGood, pack, al, big, low, high]
    rw [good, if_neg (c := (!true) = true) Bool.false_ne_true] at command
    refine ⟨_, command, ?_⟩
    have kept := zCalled_kept (s.zTaken z)
    dsimp only
    rw [kept _ (by decide), kept _ (by decide), kept _ (by decide)]
    exact zTaken_shown s low high
  · have poor : s.edgeGood alone di z = false := by
      rcases bad with bad | bad | bad | bad | bad <;> simp [State.edgeGood, bad]
    rw [poor, if_pos (c := (!false) = true) rfl] at command
    refine ⟨_, command, ?_, rd_count_free (by decide) _ _, rd_count_free (by decide) _ _⟩
    exact rd_count_same _ _ _ rfl

/-! ### Open sense wires (R490) -/

/-- The lines still to be tested, the lines found open and the sum verdict, as before. -/
structure LinesHeld (a b : BgaState) : Prop where
  lines : b.lines = a.lines
  opens : b.opens = a.opens
  measBad : b.measBad = a.measBad

theorem senseShow_lines (s : State) : LinesHeld s.bga s.senseShow.bga := by
  rw [senseShow_eq]
  split
  · rw [bga_showVerdict]; exact ⟨rfl, rfl, rfl⟩
  · have ended : ∀ (v : State) (c : Status), LinesHeld v.bga (v.learnEnd c).bga := fun v c => by
      unfold State.learnEnd
      split <;> exact ⟨rfl, rfl, rfl⟩
    have := ended (s.showVerdict (verdict s.bga)) .skipped
    rwa [bga_showVerdict] at this

theorem probeSettle_lines (s : State) : LinesHeld s.bga s.probeSettle.bga := by
  obtain ⟨v, -, -, -, lines, opens, measBad, h⟩ := probeSettle_eq s
  obtain ⟨lines', opens', measBad'⟩ := senseShow_lines v
  rw [h]
  exact ⟨lines'.trans lines, opens'.trans opens, measBad'.trans measBad⟩

theorem foldl_least (l : List Nat) (k : Nat) :
    ∃ j, l.foldl (fun a k => some (min k (a.getD k))) (some k) = some j := by
  induction l generalizing k with
  | nil => exact ⟨k, rfl⟩
  | cons x l ih => exact ih (min x k)

theorem verdict_open {b : BgaState} {k : Nat} {l : List Nat} (h : b.opens = k :: l) :
    (verdict b).1 = if b.measBad = true then 3 else 1 := by
  obtain ⟨j, hj⟩ := foldl_least l (min k k)
  unfold verdict
  split
  · rfl
  · rw [h, List.foldl_cons]
    simp only [Option.getD_none, hj]

theorem probeSettle_open {s : State} {k : Nat} {l : List Nat} (h : s.bga.opens = k :: l) :
    s.probeSettle.rd BGA_SV = (if s.bga.measBad = true then 3 else 1) ∧ s.probeSettle.on BGA_LRNACT = false := by
  have sv : s.probeSettle.rd BGA_SV = if s.bga.measBad = true then 3 else 1 := by
    obtain ⟨v, -, -, -, -, opens, measBad, hv⟩ := probeSettle_eq s
    rw [hv, senseShow_sv, verdict_open (opens.trans h), measBad]
  exact ⟨sv, (probeSettle_learn s).2 (by rw [sv]; split <;> decide)⟩

/-- A line taken off the queue with its verdict. -/
def State.lineTested (s : State) (k : Nat) (l : List Nat) (bad : Bool) : State :=
  s.setBga fun b => { b with
    lines := l, opens := if bad then k :: b.opens.erase k else b.opens.erase k,
    probes := b.probes.map fun p => { p with lines := p.lines.erase k } }

theorem execOpenWireTest_line {s : State} {before after : BitVec 16} {k : Nat} {l : List Nat} (h : s.rd BGA_ST ≠ 0)
    (hl : s.bga.lines = k :: l) : execOpenWireTest before after s =
      .next (s.lineTested k l (decide (after.toNat + 100 * s.rd BGA_OWTH < before.toNat))).probeSettle := by
  unfold execOpenWireTest
  rw [hl]
  dsimp only
  rw [if_neg (c := s.rd BGA_ST = bgaOff) h]
  rfl

theorem openWireTest_answers (s : State) (before after : BitVec 16) (k : Nat) (l : List Nat) (h : s.rd BGA_ST ≠ 0)
    (hl : s.bga.lines = k :: l) :
    (before.toNat ≤ after.toNat + 100 * s.rd BGA_OWTH →
      Answers (.openWireTest before after) s fun t => t.bga.lines = l ∧ t.bga.opens = s.bga.opens.erase k) ∧
    (after.toNat + 100 * s.rd BGA_OWTH < before.toNat →
      Answers (.openWireTest before after) s fun t =>
        t.bga.lines = l ∧ k ∈ t.bga.opens ∧ t.on BGA_LRNACT = false ∧
        t.rd BGA_SV = (if s.bga.measBad = true then 3 else 1)) := by
  have command := execOpenWireTest_line (before := before) (after := after) h hl
  refine ⟨fun passes => ?_, fun fails => ?_⟩
  · rw [decide_eq_false (by omega)] at command
    obtain ⟨lines, opens, -⟩ := probeSettle_lines (s.lineTested k l false)
    exact ⟨_, command, lines, opens⟩
  · rw [decide_eq_true fails] at command
    obtain ⟨lines, opens, -⟩ := probeSettle_lines (s.lineTested k l true)
    obtain ⟨sv, act⟩ := probeSettle_open (s := s.lineTested k l true) rfl
    exact ⟨_, command, lines, by rw [opens]; exact List.mem_cons_self, act, sv⟩

set_option autoImplicit false

/-! ### The commands of BGA_CMD -/

/-- A field of one word that no capture on the page writes. -/
def Fld.uncaught (g : Fld) (p : Nat) : Bool :=
  decide (g.width ≤ 32) && g.key != regKey p 0x28 && g.key != regKey p 0x10

theorem rd_capture_uncaught {p : Nat} {g : Fld} (h : g.uncaught p = true) (s : State) (off tc : Nat) (write : Bool)
    (c : Status) : (s.capture p off tc write c).rd g = s.rd g := by
  simp only [Fld.uncaught, Bool.and_eq_true, decide_eq_true_eq, bne_iff_ne] at h
  obtain ⟨⟨width, err⟩, irq⟩ := h
  exact rd_capture_other s off tc write c width err irq

/-- The word that a command of bit `b` writes. -/
abbrev gaugeWord (w : RegWrite) (b : Nat) : Nat := (BitVec.ofNat 32 (setBit w.data.toNat b)).toNat

theorem gauge_bit {s : State} {w : RegWrite} {b : Nat} (h : BgaCmd s w b) :
    ∀ i < 6, bit (gaugeWord w b) i = decide (b = i) := fun i hi => by
  obtain ⟨-, word⟩ := h
  have low : bit (setBit w.data.toNat b % 2 ^ 6) i = bit (setBit w.data.toNat b) i := bit_mod hi
  have one : setBit w.data.toNat b % 2 ^ 6 = 2 ^ b := word
  rw [bit_ofNat (by omega), ← low, one, bit_eq_testBit, Nat.testBit_two_pow]

/-- What a command of the gauge leaves after it has been carried out. -/
structure GaugeDone (u t : State) (code : Status) : Prop where
  resp : t.resp.code = code
  ccode : t.rd BGA_CCODE = codeOf code
  bga : t.bga = u.bga
  rd : ∀ g : Fld, BGA_CCODE.free g = true → g.uncaught 0x0E0 = true → t.rd g = u.rd g
  irq : code = .ok → t.rd (IRQ_RAW 0x0E0) = u.rd (IRQ_RAW 0x0E0)

theorem GaugeDone.on {u t : State} {code : Status} (h : GaugeDone u t code) {g : Fld} (hf : BGA_CCODE.free g = true)
    (hg : g.uncaught 0x0E0 = true) : t.on g = u.on g := by rw [State.on, State.on, h.rd g hf hg]

/-- A command of BGA_CMD is answered with the code of what it does. -/
theorem gauge_answers {c : Instr} {s u : State} {w : RegWrite} {b : Nat} {code : Status} {P : State → Prop}
    (hc : exec c s = .next (s.writeReg bgaWrite 0x0E0 0x06C w fun d => setBit d b)) (h : BgaCmd s w b)
    (e : s.bgaCommand (gaugeWord w b) = (code, u)) (hP : ∀ t, GaugeDone u t code → P t) : Answers c s P := by
  have written : bgaWrite s ⟨w.port, w.tc.val, 0x0E0, 0x06C, none⟩ (gaugeWord w b) =
      (code, u.wr BGA_CCODE (codeOf code)) := by
    change ((s.bgaCommand (gaugeWord w b)).1, _) = _
    change (_, (s.bgaCommand (gaugeWord w b)).2.wr BGA_CCODE (codeOf (s.bgaCommand (gaugeWord w b)).1)) = _
    rw [e]
  have shown : (u.wr BGA_CCODE (codeOf code)).rd BGA_CCODE = codeOf code :=
    rd_wr_lt rfl (f := BGA_CCODE) (codeOf_lt code) u
  by_cases ok : code = .ok
  · subst ok
    refine answers_write (f := fun d => setBit d b) (h := bgaWrite) hc (by decide) h.1 written
      (hP _ ⟨rfl, ?_, ?_, ?_, ?_⟩)
    · rw [rd_answer, shown]
    · simp only [answer_frame, wr_frame]
    · exact fun g hf _ => by rw [rd_answer, rd_wr_free hf]
    · exact fun _ => by rw [rd_answer, rd_wr_free (by decide)]
  · refine answers_write_coded (f := fun d => setBit d b) (h := bgaWrite) hc (by decide) h.1 written
      (hP _ ⟨rfl, ?_, ?_, ?_, fun k => absurd k ok⟩)
    · rw [rd_answer, rd_capture_uncaught (by decide), shown]
    · simp only [answer_frame, capture_frame, wr_frame]
    · exact fun g hf hg => by rw [rd_answer, rd_capture_uncaught hg, rd_wr_free hf]

/-- The command that every line be tested (R490). -/
theorem bgaOwnow_answers (s : State) (w : RegWrite) (h : BgaCmd s w 4) (hs : s.rd BGA_ST ≠ 0) :
    Answers (.bgaOwnow w) s fun t =>
      t.resp.code = .ok ∧ t.bga.lines = s.bga.lines ++ List.range (s.rd BGA_NCELL + 1) := by
  have e : s.bgaCommand (gaugeWord w 4) =
      (.ok, s.setBga fun b => { b with lines := b.lines ++ List.range (s.rd BGA_NCELL + 1) }) := by
    have bits := gauge_bit h
    unfold State.bgaCommand
    rw [bits 0 (by decide), bits 1 (by decide), bits 2 (by decide), bits 3 (by decide), bits 4 (by decide),
      bits 5 (by decide)]
    simp only [Nat.reduceEqDiff, decide_false, decide_true, Bool.false_eq_true, if_false, true_and, Bool.or_self]
    rw [if_pos (c := s.rd BGA_ST ≠ bgaOff) hs]
    rfl
  exact gauge_answers rfl h e fun t d => ⟨d.resp, by rw [d.bga]; rfl⟩

/-! ### Maintenance discharge (R488) -/

theorem bgaCommand_mntGo {s : State} {d : Nat} (bits : ∀ i < 6, bit d i = decide (2 = i)) :
    s.bgaCommand d = (firstOf s.mntStart.1 .ok, s.mntStart.2) := by
  unfold State.bgaCommand
  rw [bits 0 (by decide), bits 1 (by decide), bits 2 (by decide), bits 3 (by decide), bits 4 (by decide),
    bits 5 (by decide)]
  rfl

theorem firstOf_ok (c : Status) : firstOf c .ok = c := by cases c <;> rfl

theorem ok_firstOf (c : Status) : firstOf .ok c = c := by cases c <;> rfl

theorem bgaMntGo_answers (s : State) (w : RegWrite) (h : BgaCmd s w 2) :
    (s.rd BGA_ST = 2 → s.on PMU_VINOK = true → s.rd BGA_SV = 0 → s.rd CTF_UTC + 3600 ≤ s.rd BGA_MNT_END →
      s.rd BGA_MNT_END ≤ s.rd CTF_UTC + 604800 → s.rd BGA_MNT_ST = 0 →
      Answers (.bgaMntGo w) s fun t => t.resp.code = .ok ∧ t.rd BGA_MNT_ST = 1 ∧ t.rd BGA_CCODE = codeOf .ok) ∧
    (s.rd BGA_ST ≠ 2 ∨ s.on PMU_VINOK = false ∨ s.rd BGA_SV ≠ 0 ∨ s.rd BGA_MNT_END < s.rd CTF_UTC + 3600 ∨
        s.rd CTF_UTC + 604800 < s.rd BGA_MNT_END ∨ s.rd BGA_MNT_ST ≠ 0 →
      Answers (.bgaMntGo w) s fun t =>
        t.resp.code = .cfgInvalid ∧ t.rd BGA_MNT_ST = s.rd BGA_MNT_ST ∧ t.rd BGA_CCODE = codeOf .cfgInvalid) := by
  have e := bgaCommand_mntGo (s := s) (gauge_bit h)
  rw [firstOf_ok] at e
  refine ⟨fun st vin sv low high mnt => ?_, fun refused => ?_⟩
  · have start : s.mntStart = (.ok, (s.wr BGA_MNT_ST 1).chgFollow) := by
      unfold State.mntStart
      refine if_neg ?_
      simp [(bgaRuns_iff s).mpr st, vin, State.senseBad, sv, mnt, not_lt.mpr low, not_lt.mpr high]
    rw [start] at e
    refine gauge_answers rfl h e fun t d => ⟨d.resp, ?_, d.ccode⟩
    rw [d.rd _ (by decide) (by decide), chgFollow_kept _ _ (by decide)]
    exact rd_wr_lt rfl (f := BGA_MNT_ST) (v := 1) (by decide) s
  · have start : s.mntStart = (.cfgInvalid, s) := by
      unfold State.mntStart
      refine if_pos ?_
      simp only [Bool.or_eq_true, decide_eq_true_eq, Bool.not_eq_true', bne_iff_ne, State.senseBad]
      rcases refused with st | vin | sv | low | high | mnt
      · exact Or.inl (.inl (.inl (.inl (.inl (by simpa [State.bgaRuns, bgaRun] using st)))))
      · exact Or.inl (.inl (.inl (.inl (.inr vin))))
      · exact Or.inl (.inl (.inl (.inr sv)))
      · exact Or.inl (.inl (.inr low))
      · exact Or.inl (.inr high)
      · exact Or.inr mnt
    rw [start] at e
    exact gauge_answers rfl h e fun t d => ⟨d.resp, d.rd _ (by decide) (by decide), d.ccode⟩

theorem mntDone_shown (s : State) (c : Status) :
    (s.mntDone c).rd BGA_MNT_ST = 0 ∧ (s.mntDone c).rd BGA_MNT_CODE = codeOf c ∧
    bit ((s.mntDone c).rd (IRQ_RAW 0x0E0)) 3 = true := by
  have st : (s.mntShow c).rd BGA_MNT_ST = 0 := by
    rw [State.mntShow, rd_raise_free (by decide), rd_wr_free (by decide)]
    exact rd_wr_lt rfl (f := BGA_MNT_ST) (v := 0) (by decide) s
  have code : (s.mntShow c).rd BGA_MNT_CODE = codeOf c := by
    rw [State.mntShow, rd_raise_free (by decide)]
    exact rd_wr_lt rfl (f := BGA_MNT_CODE) (codeOf_lt c) _
  have irq : bit ((s.mntShow c).rd (IRQ_RAW 0x0E0)) 3 = true := bit_raise_same _ _ (by decide)
  rw [mntDone_eq]
  split
  · refine ⟨(setPst_kept _ _ _ (by decide)).trans st, (setPst_kept _ _ _ (by decide)).trans code, ?_⟩
    rw [State.setPst, chgFollow_kept _ _ (by decide)]
    have path : bit (((s.mntShow c).wr PMU_PST pstOnVin).rd (IRQ_RAW 0x0E0)) 3 = true := by
      rw [rd_wr_free (by decide), irq]
    unfold State.onpackFollow
    dsimp only
    split
    · exact bit_raise_of_bit _ _ _ (by decide) (by rw [rd_wr_free (by decide), path])
    · rw [rd_wr_free (by decide), path]
  · rw [chgFollow_kept _ _ (by decide), chgFollow_kept _ _ (by decide), chgFollow_kept _ _ (by decide)]
    exact ⟨st, code, irq⟩

theorem mntDone_path {s : State} (c : Status) (hp : s.pst = pstOnPack) (hv : s.on PMU_VINOK = true) :
    (s.mntDone c).pst = pstOnVin := by
  have pst : (s.mntShow c).pst = pstOnPack := by
    rw [State.pst, State.mntShow, rd_raise_free (by decide), rd_wr_free (by decide), rd_wr_free (by decide), ←
      State.pst, hp]
  have vin : (s.mntShow c).on PMU_VINOK = true := by rw [(mntShow_kept s c).on (by decide), hv]
  rw [mntDone_eq, if_pos ⟨pst, vin⟩, State.pst, State.setPst, chgFollow_kept _ _ (by decide),
    onpackFollow_kept _ _ (by decide)]
  exact rd_wr_lt rfl (f := PMU_PST) (v := pstOnVin) (by decide) _

theorem bgaMntAbort_answers (s : State) (w : RegWrite) (h : BgaCmd s w 3) (hm : s.rd BGA_MNT_ST ≠ 0) :
    Answers (.bgaMntAbort w) s fun t =>
      t.resp.code = .ok ∧ t.rd BGA_MNT_ST = 0 ∧ t.rd BGA_MNT_CODE = codeOf .skipped ∧
      bit (t.rd (IRQ_RAW 0x0E0)) 3 = true := by
  have e : s.bgaCommand (gaugeWord w 3) = (.ok, s.mntDone .skipped) := by
    have bits := gauge_bit h
    unfold State.bgaCommand
    rw [bits 0 (by decide), bits 1 (by decide), bits 2 (by decide), bits 3 (by decide), bits 4 (by decide),
      bits 5 (by decide)]
    change (Status.ok, s.mntAbort) = _
    rw [State.mntAbort, if_neg hm]
  obtain ⟨st, code, irq⟩ := mntDone_shown s .skipped
  exact gauge_answers rfl h e fun t d => ⟨d.resp, by rw [d.rd _ (by decide) (by decide), st],
    by rw [d.rd _ (by decide) (by decide), code], by rw [d.irq rfl, irq]⟩

theorem mntEnd_answers (s : State) (hm : s.rd BGA_MNT_ST ≠ 0) (he : s.rd BGA_MNT_END ≤ s.rd CTF_UTC) :
    Answers .mntEnd s fun t =>
      t.rd BGA_MNT_ST = 0 ∧ t.rd BGA_MNT_CODE = codeOf .timeout ∧ bit (t.rd (IRQ_RAW 0x0E0)) 3 = true ∧
      (s.pst = pstOnPack → s.on PMU_VINOK = true → t.pst = pstOnVin) := by
  have command : exec .mntEnd s = .next (s.mntDone .timeout) := by
    change execMntEnd s = _
    rw [execMntEnd, if_pos ⟨hm, he⟩]
  obtain ⟨st, code, irq⟩ := mntDone_shown s .timeout
  exact ⟨_, command, st, code, irq, mntDone_path .timeout⟩

set_option autoImplicit false

/-! ### Restore and cold start (R496, R497) -/

theorem statusOf_codeOf (c : Status) : statusOf (codeOf c) = c := by cases c <;> rfl

theorem bgaCommand_restore {s : State} {d : Nat} (bits : ∀ i < 6, bit d i = decide (0 = i)) :
    s.bgaCommand d = (statusOf (s.bgaRestore.rd BGA_RST_CODE), s.bgaRestore) := by
  unfold State.bgaCommand
  rw [bits 0 (by decide), bits 1 (by decide), bits 2 (by decide), bits 3 (by decide), bits 4 (by decide),
    bits 5 (by decide)]
  exact Prod.ext (ok_firstOf _) rfl

theorem bgaCommand_cold {s : State} {d : Nat} (bits : ∀ i < 6, bit d i = decide (1 = i)) :
    s.bgaCommand d = (statusOf (s.bgaCold.rd BGA_RST_CODE), s.bgaCold) := by
  unfold State.bgaCommand
  rw [bits 0 (by decide), bits 1 (by decide), bits 2 (by decide), bits 3 (by decide), bits 4 (by decide),
    bits 5 (by decide)]
  exact Prod.ext (ok_firstOf _) rfl

/-- The code of a BGA_RESTORE. -/
def State.restoreCode (s : State) : Status :=
  if s.rd BGA_ST = bgaOff then .cfgInvalid else if s.bgaRuns then .skipped else s.restoreCheck s.rinBytes

/-- The registers of a good record. -/
def State.restoreShow (s : State) (b : List Byte) : State :=
  (((((((s.wr BGA_QMAX (leAt b 8 4)).wr BGA_Q (leAt b 12 4)).wr BGA_SOCS (leAt b 16 2)).wr BGA_SOCR
    (leAt b 18 2)).wr BGA_Z (leAt b 20 2)).wr BGA_ZN (leAt b 22 2)).wr BGA_LEARNED (leAt b 26 1)).wr BGA_ESTF
      (leAt b 26 1 / 2)

/-- A good record taken over, up to the rest timer. -/
def State.restoreTake (s : State) (b : List Byte) : State :=
  (s.bgaEnter.restoreShow b).setBga fun x => { x with
    lrnn := leAt b 24 2, lstamp := leAt b 40 8, seq := leAt b 4 4, base := leAt b 52 4, lastS := leAt b 16 2,
    cold := false }

/-- The rest timer that a record stands for (R496). -/
def State.restoreRest (s : State) (b : List Byte) : State :=
  if s.rd CTF_UTC_EST = 0 ∧ leAt b 36 4 + s.rd BGA_TREST ≤ s.rd CTF_UTC then
    (s.setBga fun x => { x with restClk := s.rd BGA_TREST * 48000000, cycles := false }).restShow
  else s

theorem bgaRestore_eq (s : State) : s.bgaRestore =
    if s.restoreCode ≠ .ok then s.wr BGA_RST_CODE (codeOf s.restoreCode)
    else ((s.wr BGA_RST_CODE (codeOf s.restoreCode)).restoreTake s.rinBytes).restoreRest s.rinBytes := rfl

theorem restoreRest_kept (s : State) (b : List Byte) : RdKept restFlds s (s.restoreRest b) :=
  .ite (((RdKept.refl _ s).setBga _).trans (restShow_kept _)) (.refl _ _) _

theorem restStart_seq (s : State) (n : Nat) :
    (s.setBga fun x => { x with restClk := n, cycles := false }).restShow.bga.seq = s.bga.seq := rfl

theorem restoreRest_seq (s : State) (b : List Byte) : (s.restoreRest b).bga.seq = s.bga.seq := by
  unfold State.restoreRest
  split
  · exact restStart_seq _ _
  · rfl

/-- A start of estimation up to the state shown. -/
def State.enterClear (s : State) : State :=
  ((s.learnEnd .skipped).setBga fun b => { b with
    full := 0, empty := 0, thru := 0, restAt := s.ctf.cyc }).restClear

theorem bgaEnter_eq (s : State) : s.bgaEnter = s.enterClear.wr BGA_ST bgaRun := rfl

theorem enterClear_kept (s : State) : RdKept learnFlds s s.enterClear :=
  ((learnEnd_kept s _).setBga _).setBga _

theorem enterClear_lrnact (s : State) : s.enterClear.on BGA_LRNACT = false := by
  rw [State.enterClear, State.restClear, on_setBga, on_setBga, learnEnd_lrnact]

theorem enterClear_table (s : State) : s.enterClear.bga.table = s.bga.table := (learnEnd_est s .skipped).table

theorem bgaEnter_kept (s : State) : RdKept (BGA_ST :: learnFlds) s s.bgaEnter := by
  rw [bgaEnter_eq]
  exact ((enterClear_kept s).mono (by decide)).wr _ (by decide)

theorem bgaEnter_shown (s : State) : s.bgaEnter.rd BGA_ST = 2 ∧ s.bgaEnter.on BGA_LRNACT = false := by
  rw [bgaEnter_eq, on_wr_free (by decide), enterClear_lrnact]
  exact ⟨rd_wr_lt rfl (f := BGA_ST) (v := 2) (by decide) _, rfl⟩

/-- The fields that a good record fills. -/
def recordFlds : List Fld := [BGA_QMAX, BGA_Q, BGA_SOCS, BGA_SOCR, BGA_Z, BGA_ZN, BGA_LEARNED, BGA_ESTF]

theorem restoreShow_kept (s : State) (b : List Byte) : RdKept recordFlds s (s.restoreShow b) :=
  ((((((((RdKept.refl _ s).wr _ (by decide)).wr _ (by decide)).wr _ (by decide)).wr _ (by decide)).wr _ (by decide)).wr
    _
    (by decide)).wr _ (by decide)).wr _ (by decide)

theorem restoreShow_shown (s : State) {b : List Byte} (socs : leAt b 16 2 ≤ 10000) (socr : leAt b 18 2 ≤ 10000) :
    (s.restoreShow b).rd BGA_QMAX = leAt b 8 4 ∧ (s.restoreShow b).rd BGA_Q = leAt b 12 4 ∧
    (s.restoreShow b).rd BGA_SOCS = leAt b 16 2 ∧ (s.restoreShow b).rd BGA_SOCR = leAt b 18 2 ∧
    (s.restoreShow b).rd BGA_Z = leAt b 20 2 ∧ (s.restoreShow b).rd BGA_LEARNED = leAt b 26 1 % 2 := by
  unfold State.restoreShow
  refine ⟨?_, ?_, ?_, ?_, ?_, ?_⟩
  · simp (disch := decide) only [rd_wr_free]
    exact rd_wr_lt rfl (f := BGA_QMAX) (leAt_lt b 8 4) _
  · simp (disch := decide) only [rd_wr_free]
    exact rd_wr_lt rfl (f := BGA_Q) (leAt_lt b 12 4) _
  · simp (disch := decide) only [rd_wr_free]
    exact rd_wr_lt rfl (f := BGA_SOCS) (socs.trans_lt (by decide)) _
  · simp (disch := decide) only [rd_wr_free]
    exact rd_wr_lt rfl (f := BGA_SOCR) (socr.trans_lt (by decide)) _
  · simp (disch := decide) only [rd_wr_free]
    exact rd_wr_lt rfl (f := BGA_Z) (leAt_lt b 20 2) _
  · simp (disch := decide) only [rd_wr_free]
    exact rd_wr_same _ BGA_LEARNED _ rfl

theorem restoreCheck_bounds {s : State} {b : List Byte} (h : s.restoreCheck b = .ok) :
    leAt b 16 2 ≤ 10000 ∧ leAt b 18 2 ≤ 10000 := by
  unfold State.restoreCheck at h
  dsimp only at h
  split at h
  · cases h
  · split at h
    · cases h
    · rename_i good
      simp only [not_or, not_lt] at good
      obtain ⟨-, -, -, -, -, socs, socr, -, -⟩ := good
      exact ⟨socs, socr⟩

theorem restore_rejects {s : State} {w : RegWrite} {c : Status} (h : BgaCmd s w 0) (hc : s.restoreCode = c)
    (bad : c ≠ .ok) : Answers (.bgaRestore w) s fun t =>
      t.rd BGA_RST_CODE = codeOf c ∧ t.rd BGA_ST = s.rd BGA_ST ∧ t.bga = s.bga ∧ t.rd BGA_Q = s.rd BGA_Q := by
  have done : s.bgaRestore = s.wr BGA_RST_CODE (codeOf c) := by
    rw [bgaRestore_eq, hc, if_pos bad]
  have code : (s.wr BGA_RST_CODE (codeOf c)).rd BGA_RST_CODE = codeOf c :=
    rd_wr_lt rfl (f := BGA_RST_CODE) (codeOf_lt c) s
  have e := bgaCommand_restore (s := s) (gauge_bit h)
  rw [done, code, statusOf_codeOf] at e
  refine gauge_answers rfl h e fun t d => ⟨?_, ?_, ?_, ?_⟩
  · rw [d.rd _ (by decide) (by decide), code]
  · rw [d.rd _ (by decide) (by decide), rd_wr_free (by decide)]
  · rw [d.bga]; simp only [wr_frame]
  · rw [d.rd _ (by decide) (by decide), rd_wr_free (by decide)]

theorem restore_takes {s : State} {w : RegWrite} {b : List Byte} (h : BgaCmd s w 0) (hb : b = s.rinBytes)
    (st : s.rd BGA_ST = 1) (good : s.restoreCheck b = .ok) :
    Answers (.bgaRestore w) s fun t =>
      t.resp.code = .ok ∧ t.rd BGA_ST = 2 ∧ t.rd BGA_RST_CODE = codeOf .ok ∧ t.rd BGA_QMAX = leAt b 8 4 ∧
      t.rd BGA_Q = leAt b 12 4 ∧ t.rd BGA_SOCS = leAt b 16 2 ∧ t.rd BGA_SOCR = leAt b 18 2 ∧ t.rd BGA_Z = leAt b 20 2 ∧
      t.rd BGA_LEARNED = leAt b 26 1 % 2 ∧ t.on BGA_LRNACT = false ∧ t.bga.seq = leAt b 4 4 := by
  subst hb
  have c : s.restoreCode = .ok := by
    rw [State.restoreCode, if_neg (by rw [st]; decide), if_neg (by rw [bgaRuns_iff, st]; decide), good]
  have done : s.bgaRestore =
      ((s.wr BGA_RST_CODE (codeOf .ok)).restoreTake s.rinBytes).restoreRest s.rinBytes := by
    rw [bgaRestore_eq, c, if_neg (not_not.mpr rfl)]
  obtain ⟨socs, socr⟩ := restoreCheck_bounds good
  generalize s.rinBytes = b at done socs socr
  have kept := restoreRest_kept ((s.wr BGA_RST_CODE (codeOf .ok)).restoreTake b) b
  have seq := restoreRest_seq ((s.wr BGA_RST_CODE (codeOf .ok)).restoreTake b) b
  rw [← done] at kept seq
  have show_kept := restoreShow_kept (s.wr BGA_RST_CODE (codeOf .ok)).bgaEnter b
  obtain ⟨qmax, q, s_shown, r_shown, z, learned⟩ := restoreShow_shown (s.wr BGA_RST_CODE (codeOf .ok)).bgaEnter socs
    socr
  obtain ⟨enter, act⟩ := bgaEnter_shown (s.wr BGA_RST_CODE (codeOf .ok))
  have rd (g : Fld) (hg : restFlds.all (·.free g) = true) : s.bgaRestore.rd g =
      ((s.wr BGA_RST_CODE (codeOf .ok)).bgaEnter.restoreShow b).rd g := by
    rw [kept g hg, State.restoreTake, rd_setBga]
  have code : s.bgaRestore.rd BGA_RST_CODE = codeOf .ok := by
    rw [rd _ (by decide), show_kept _ (by decide), bgaEnter_kept _ _ (by decide)]
    exact rd_wr_lt rfl (f := BGA_RST_CODE) (codeOf_lt .ok) s
  have e := bgaCommand_restore (s := s) (gauge_bit h)
  rw [code, statusOf_codeOf] at e
  refine gauge_answers rfl h e fun t d => ⟨d.resp, ?_, ?_, ?_, ?_, ?_, ?_, ?_, ?_, ?_, ?_⟩
  · rw [d.rd _ (by decide) (by decide), rd _ (by decide), show_kept _ (by decide), enter]
  · rw [d.rd _ (by decide) (by decide), code]
  · rw [d.rd _ (by decide) (by decide), rd _ (by decide), qmax]
  · rw [d.rd _ (by decide) (by decide), rd _ (by decide), q]
  · rw [d.rd _ (by decide) (by decide), rd _ (by decide), s_shown]
  · rw [d.rd _ (by decide) (by decide), rd _ (by decide), r_shown]
  · rw [d.rd _ (by decide) (by decide), rd _ (by decide), z]
  · rw [d.rd _ (by decide) (by decide), rd _ (by decide), learned]
  · rw [State.on, d.rd _ (by decide) (by decide), rd _ (by decide), show_kept _ (by decide)]
    exact act
  · rw [d.bga, seq]; rfl

theorem bgaRestore_answers (s : State) (w : RegWrite) (b : List Byte) (h : BgaCmd s w 0) (hb : b = s.rinBytes) :
    (s.rd BGA_ST = 1 → s.restoreCheck b = .ok →
      Answers (.bgaRestore w) s fun t =>
        t.resp.code = .ok ∧ t.rd BGA_ST = 2 ∧ t.rd BGA_RST_CODE = codeOf .ok ∧ t.rd BGA_QMAX = leAt b 8 4 ∧
        t.rd BGA_Q = leAt b 12 4 ∧ t.rd BGA_SOCS = leAt b 16 2 ∧ t.rd BGA_SOCR = leAt b 18 2 ∧ t.rd BGA_Z = leAt b 20 2
          ∧
        t.rd BGA_LEARNED = leAt b 26 1 % 2 ∧ t.on BGA_LRNACT = false ∧ t.bga.seq = leAt b 4 4) ∧
    (s.rd BGA_ST = 1 → leAt b 60 4 ≠ crc32 (b.take 60 ++ s.uidBytes) →
      Answers (.bgaRestore w) s fun t =>
        t.rd BGA_RST_CODE = codeOf .integFail ∧ t.rd BGA_ST = 1 ∧ t.bga = s.bga) ∧
    (s.rd BGA_ST = 1 → leAt b 60 4 = crc32 (b.take 60 ++ s.uidBytes) →
      leAt b 0 2 ≠ 1 ∨ leAt b 2 1 ≠ s.rd BGA_CHEM ∨ leAt b 3 1 ≠ s.rd BGA_NCELL ∨ leAt b 8 4 < leAt b 12 4 ∨
        10000 < leAt b 18 2 →
      Answers (.bgaRestore w) s fun t =>
        t.rd BGA_RST_CODE = codeOf .cfgInvalid ∧ t.rd BGA_ST = 1 ∧ t.bga = s.bga) ∧
    (s.rd BGA_ST = 2 → Answers (.bgaRestore w) s fun t =>
      t.rd BGA_RST_CODE = codeOf .skipped ∧ t.bga = s.bga ∧ t.rd BGA_Q = s.rd BGA_Q) ∧
    (s.rd BGA_ST = 0 → Answers (.bgaRestore w) s fun t =>
      t.rd BGA_RST_CODE = codeOf .cfgInvalid ∧ t.bga = s.bga ∧ t.rd BGA_ST = 0) := by
  have wait (st : s.rd BGA_ST = 1) : s.restoreCode = s.restoreCheck b := by
    rw [State.restoreCode, if_neg (by rw [st]; decide), if_neg (by rw [bgaRuns_iff, st]; decide), hb]
  refine ⟨fun st good => restore_takes h hb st good, fun st crc => ?_, fun st crc bad => ?_,
    fun st => ?_, fun st => ?_⟩
  · obtain ⟨t, run, code, st', bga, -⟩ := restore_rejects (c := .integFail) h
      ((wait st).trans (if_pos crc)) (by decide)
    exact ⟨t, run, code, st'.trans st, bga⟩
  · have check : s.restoreCheck b = .cfgInvalid := by
      refine (if_neg (not_not.mpr crc)).trans (if_pos ?_)
      rcases bad with bad | bad | bad | bad | bad <;> simp [bad]
    obtain ⟨t, run, code, st', bga, -⟩ := restore_rejects (c := .cfgInvalid) h ((wait st).trans check) (by decide)
    exact ⟨t, run, code, st'.trans st, bga⟩
  · have c : s.restoreCode = .skipped := by
      rw [State.restoreCode, if_neg (by rw [st]; decide), if_pos ((bgaRuns_iff s).mpr st)]
    obtain ⟨t, run, code, -, bga, q⟩ := restore_rejects h c (by decide)
    exact ⟨t, run, code, bga, q⟩
  · obtain ⟨t, run, code, st', bga, -⟩ := restore_rejects (c := .cfgInvalid) h (if_pos st) (by decide)
    exact ⟨t, run, code, bga, st'.trans st⟩

set_option autoImplicit false

/-! ### A cold start (R497) -/

/-- The start from the design capacity. -/
def State.coldBegin (s : State) : State :=
  ((((s.bgaEnter.wr BGA_RST_CODE (codeOf .ok)).wr BGA_QMAX
    ((s.bgaEnter.wr BGA_RST_CODE (codeOf .ok)).rd BGA_DESCAP * 1000)).wr BGA_Z
      ((s.bgaEnter.wr BGA_RST_CODE (codeOf .ok)).rd BGA_ZDEF)).wr BGA_ESTF 1).setBga fun x =>
        { x with cold := true, base := 0 }

theorem bgaCold_wait {s : State} (st : s.rd BGA_ST = 1) : s.bgaCold = s.coldBegin := by
  unfold State.bgaCold
  rw [if_neg (c := s.rd BGA_ST = bgaOff) (by rw [st]; decide), if_neg (c := s.bgaRuns = true)
    (by rw [bgaRuns_iff, st]; decide)]
  rfl

theorem bgaCold_run {s : State} (st : s.rd BGA_ST = 2) : s.bgaCold = s.wr BGA_RST_CODE (codeOf .skipped) := by
  unfold State.bgaCold
  rw [if_neg (c := s.rd BGA_ST = bgaOff) (by rw [st]; decide), if_pos ((bgaRuns_iff s).mpr st)]

/-- The fields that a cold start fills. -/
def coldFlds : List Fld := [BGA_RST_CODE, BGA_QMAX, BGA_Z, BGA_ESTF, BGA_ST] ++ learnFlds

theorem coldBegin_kept (s : State) : RdKept coldFlds s s.coldBegin :=
  (((((((bgaEnter_kept s).mono (by decide)).wr _ (by decide)).wr _ (by decide)).wr _ (by decide)).wr _
    (by decide)).setBga
    _)

theorem bgaEnter_table (s : State) : s.bgaEnter.bga.table = s.bga.table := by
  rw [bgaEnter_eq]
  simp only [wr_frame]
  exact enterClear_table s

theorem coldBegin_table (s : State) : s.coldBegin.bga.table = s.bga.table := by
  rw [← bgaEnter_table s, State.coldBegin]
  change (State.bga (State.wr _ _ _)).table = _
  simp only [wr_frame]

theorem coldBegin_shown (s : State) :
    s.coldBegin.rd BGA_RST_CODE = codeOf .ok ∧ s.coldBegin.rd BGA_ST = 2 ∧
    s.coldBegin.rd BGA_QMAX = s.rd BGA_DESCAP * 1000 ∧ s.coldBegin.rd BGA_Z = s.rd BGA_ZDEF ∧
    s.coldBegin.on BGA_ESTF = true := by
  have descap : (s.bgaEnter.wr BGA_RST_CODE (codeOf .ok)).rd BGA_DESCAP = s.rd BGA_DESCAP := by
    rw [rd_wr_free (by decide), bgaEnter_kept s _ (by decide)]
  have zdef : (s.bgaEnter.wr BGA_RST_CODE (codeOf .ok)).rd BGA_ZDEF = s.rd BGA_ZDEF := by
    rw [rd_wr_free (by decide), bgaEnter_kept s _ (by decide)]
  have cap : s.rd BGA_DESCAP < 2 ^ 16 := rd_lt s rfl
  have z : s.rd BGA_ZDEF < 2 ^ 16 := rd_lt s rfl
  unfold State.coldBegin
  rw [descap, zdef, on_setBga, rd_setBga, rd_setBga, rd_setBga, rd_setBga]
  refine ⟨?_, ?_, ?_, ?_, on_wr_b2n rfl (by decide) _ true⟩
  · rw [rd_wr_free (by decide), rd_wr_free (by decide), rd_wr_free (by decide)]
    exact rd_wr_lt rfl (f := BGA_RST_CODE) (codeOf_lt .ok) _
  · rw [rd_wr_free (by decide), rd_wr_free (by decide), rd_wr_free (by decide), rd_wr_free (by decide)]
    exact (bgaEnter_shown s).1
  · rw [rd_wr_free (by decide), rd_wr_free (by decide)]
    exact rd_wr_lt rfl (f := BGA_QMAX) (show _ < 2 ^ 32 by omega) _
  · rw [rd_wr_free (by decide)]
    exact rd_wr_lt rfl (f := BGA_Z) z _

/-- The first second after a cold start (R497). -/
theorem coldStep_answers {t : State} (m : GaugeSecond) (st : t.rd BGA_ST = 2) (cold : t.bga.cold = true) :
    Answers (.estimationStep m) t fun u =>
      u.rd BGA_SOCS = (ocvAt t.bga.table (meanV m (t.rd BGA_NCELL))).2 % 2 ^ 14 ∧ u.rd BGA_SOCR = u.rd BGA_SOCS := by
  have command : exec (.estimationStep m) t = .next ((t.sensed m).coldStep m) := by
    change execEstimationStep m t = _
    rw [execEstimationStep_runs m st, cold]
    rfl
  obtain ⟨kept, est, -, -, -, -⟩ := sensed_sensed t m
  have socs : ((t.sensed m).coldStep m).rd BGA_SOCS =
      (ocvAt t.bga.table (meanV m (t.rd BGA_NCELL))).2 % 2 ^ 14 := by
    unfold State.coldStep
    dsimp only
    rw [rd_setBga, rd_wr_free (by decide), rd_wr_free (by decide), rd_wr_same _ BGA_SOCS _ rfl, est.table,
      kept BGA_NCELL (by decide)]
    rfl
  have socr : ((t.sensed m).coldStep m).rd BGA_SOCR =
      (ocvAt t.bga.table (meanV m (t.rd BGA_NCELL))).2 % 2 ^ 14 := by
    unfold State.coldStep
    dsimp only
    rw [rd_setBga, rd_wr_free (by decide), rd_wr_same _ BGA_SOCR _ rfl, est.table, kept BGA_NCELL (by decide)]
    rfl
  exact ⟨_, command, socs, socr.trans socs.symm⟩

theorem bgaCold_answers (s : State) (w : RegWrite) (h : BgaCmd s w 1) :
    (s.rd BGA_ST = 1 →
      Answers (.bgaCold w) s fun t =>
        t.resp.code = .ok ∧ t.rd BGA_RST_CODE = codeOf .ok ∧ t.rd BGA_ST = 2 ∧
        t.rd BGA_QMAX = s.rd BGA_DESCAP * 1000 ∧ t.rd BGA_Z = s.rd BGA_ZDEF ∧ t.on BGA_ESTF = true ∧
        ∀ m, ocvAt t.bga.table (meanV m (t.rd BGA_NCELL)) = ocvAt s.bga.table (meanV m (s.rd BGA_NCELL)) ∧
          Answers (.estimationStep m) t fun u =>
            u.rd BGA_SOCS = (ocvAt s.bga.table (meanV m (s.rd BGA_NCELL))).2 % 2 ^ 14 ∧
            u.rd BGA_SOCR = u.rd BGA_SOCS) ∧
    (s.rd BGA_ST = 2 → Answers (.bgaCold w) s fun t =>
      t.rd BGA_RST_CODE = codeOf .skipped ∧ t.bga = s.bga ∧ t.rd BGA_QMAX = s.rd BGA_QMAX) := by
  have e := bgaCommand_cold (s := s) (gauge_bit h)
  refine ⟨fun st => ?_, fun st => ?_⟩
  · obtain ⟨code, run, qmax, z, estf⟩ := coldBegin_shown s
    rw [bgaCold_wait st, code, statusOf_codeOf] at e
    refine gauge_answers rfl h e fun t d => ?_
    have st_t : t.rd BGA_ST = 2 := by rw [d.rd _ (by decide) (by decide), run]
    have table : t.bga.table = s.bga.table := by rw [d.bga, coldBegin_table]
    have ncell : t.rd BGA_NCELL = s.rd BGA_NCELL := by
      rw [d.rd _ (by decide) (by decide), coldBegin_kept s _ (by decide)]
    refine ⟨d.resp, ?_, st_t, ?_, ?_, ?_, fun m => ?_⟩
    · rw [d.rd _ (by decide) (by decide), code]
    · rw [d.rd _ (by decide) (by decide), qmax]
    · rw [d.rd _ (by decide) (by decide), z]
    · rw [d.on (by decide) (by decide), estf]
    · have answered := coldStep_answers m st_t (by rw [d.bga]; rfl)
      rw [table, ncell] at answered ⊢
      exact ⟨rfl, answered⟩
  · have code : (s.wr BGA_RST_CODE (codeOf .skipped)).rd BGA_RST_CODE = codeOf .skipped :=
      rd_wr_lt rfl (f := BGA_RST_CODE) (codeOf_lt _) s
    rw [bgaCold_run st, code, statusOf_codeOf] at e
    refine gauge_answers rfl h e fun t d => ⟨?_, ?_, ?_⟩
    · rw [d.rd _ (by decide) (by decide), code]
    · rw [d.bga]; simp only [wr_frame]
    · rw [d.rd _ (by decide) (by decide), rd_wr_free (by decide)]

/-! ### The OCV table (R498) -/

/-- The table in the registers. -/
def State.tableRows (s : State) : List (Nat × Nat) :=
  (List.range 32).map fun j => (s.rd (BGA_OCV_V j), s.rd (BGA_OCV_SOC j))

/-- The rows rise in voltage and do not fall in charge. -/
def rowsRise (t : List (Nat × Nat)) : Bool := (List.range 31).all fun j =>
  decide ((t.getD j (0, 0)).1 < (t.getD (j + 1) (0, 0)).1) && decide ((t.getD j (0, 0)).2 ≤ (t.getD (j + 1) (0, 0)).2)

theorem bgaCommit_eq (s : State) : s.bgaCommit =
    if rowsRise s.tableRows && (s.tableRows.getD 0 (0, 0)).2 == 0 && (s.tableRows.getD 31 (0, 0)).2 == 10000 then
      (.ok, s.setBga fun b => { b with table := s.tableRows }) else (.cfgInvalid, s) := rfl

theorem tableRows_getD (s : State) {j : Nat} (h : j < 32) :
    s.tableRows.getD j (0, 0) = (s.rd (BGA_OCV_V j), s.rd (BGA_OCV_SOC j)) := by
  rw [State.tableRows, List.getD_eq_getElem _ _ (by simpa using h), List.getElem_map, List.getElem_range]

theorem rowsRise_iff (s : State) : rowsRise s.tableRows = true ↔
    ∀ j < 31, s.rd (BGA_OCV_V j) < s.rd (BGA_OCV_V (j + 1)) ∧ s.rd (BGA_OCV_SOC j) ≤ s.rd (BGA_OCV_SOC (j + 1)) := by
  simp only [rowsRise, List.all_eq_true, List.mem_range, Bool.and_eq_true, decide_eq_true_eq]
  refine forall₂_congr fun j hj => ?_
  rw [tableRows_getD s (show j < 32 by omega), tableRows_getD s (show j + 1 < 32 by omega)]

theorem bgaCommand_commit {s : State} {d : Nat} (bits : ∀ i < 6, bit d i = decide (5 = i)) :
    s.bgaCommand d = s.bgaCommit := by
  unfold State.bgaCommand
  rw [bits 0 (by decide), bits 1 (by decide), bits 2 (by decide), bits 3 (by decide), bits 4 (by decide),
    bits 5 (by decide)]
  exact Prod.ext (ok_firstOf _) rfl

theorem bgaTcommit_answers (s : State) (w : RegWrite) (h : BgaCmd s w 5) :
    ((∀ j < 31, s.rd (BGA_OCV_V j) < s.rd (BGA_OCV_V (j + 1)) ∧ s.rd (BGA_OCV_SOC j) ≤ s.rd (BGA_OCV_SOC (j + 1))) →
      s.rd (BGA_OCV_SOC 0) = 0 → s.rd (BGA_OCV_SOC 31) = 10000 →
      Answers (.bgaTcommit w) s fun t =>
        t.resp.code = .ok ∧ t.bga.table = (List.range 32).map fun j => (s.rd (BGA_OCV_V j), s.rd (BGA_OCV_SOC j))) ∧
    ((∃ j < 31, s.rd (BGA_OCV_V (j + 1)) ≤ s.rd (BGA_OCV_V j) ∨ s.rd (BGA_OCV_SOC (j + 1)) < s.rd (BGA_OCV_SOC j)) ∨
        s.rd (BGA_OCV_SOC 0) ≠ 0 ∨ s.rd (BGA_OCV_SOC 31) ≠ 10000 →
      Answers (.bgaTcommit w) s fun t => t.resp.code = .cfgInvalid ∧ t.bga.table = s.bga.table) := by
  have e := bgaCommand_commit (s := s) (gauge_bit h)
  rw [bgaCommit_eq, tableRows_getD s (by decide), tableRows_getD s (by decide)] at e
  refine ⟨fun rise first last => ?_, fun bad => ?_⟩
  · rw [if_pos (by simp [(rowsRise_iff s).mpr rise, first, last])] at e
    exact gauge_answers rfl h e fun t d => ⟨d.resp, by rw [d.bga]; rfl⟩
  · rw [if_neg] at e
    · exact gauge_answers rfl h e fun t d => ⟨d.resp, by rw [d.bga]⟩
    · simp only [Bool.and_eq_true, beq_iff_eq, rowsRise_iff]
      rintro ⟨⟨rise, first⟩, last⟩
      rcases bad with ⟨j, hj, falls⟩ | first' | last'
      · have := rise j hj
        omega
      · exact first' first
      · exact last' last

/-! ### The snapshot (R494) -/

/-- The words of the snapshot. -/
def State.fillRecord (s : State) (b : List Byte) (n : Nat) : State :=
  (List.range n).foldl (fun s k => s.wr (BGA_REC k) (leAt b (4 * k) 4)) s

/-- The snapshot numbered. -/
def State.countSnapshot (s : State) : State :=
  s.setBga fun x => { x with seq := (s.bga.seq + 1) % 2 ^ 32, lastS := s.rd BGA_SOCS }

theorem takeSnapshot_eq (s : State) : s.takeSnapshot =
    (if s.bgaRuns then s.countSnapshot else s).fillRecord
      (if s.bgaRuns then s.gaugeRecord ((s.bga.seq + 1) % 2 ^ 32) else []) 16 := rfl

theorem fillRecord_same (s : State) (b : List Byte) (n : Nat) : (s.fillRecord b n).except 1 = s.except 1 :=
  foldl_keeps (g := State.except 1) (fun u k => State.wr_same 1 rfl u (BGA_REC k) (leAt b (4 * k) 4)) _ s

theorem rec_free {j k : Nat} (h : j ≠ k) : (BGA_REC j).free (BGA_REC k) = true :=
  free_of_off rfl (show 32 ≤ 32 by decide) (show 0 + 32 ≤ 32 by decide) (by simp only [BGA_REC]; omega)

theorem fillRecord_rec (s : State) (b : List Byte) {n k : Nat} (h : k < n) :
    (s.fillRecord b n).rd (BGA_REC k) = leAt b (4 * k) 4 := by
  induction n with
  | zero => exact absurd h (Nat.not_lt_zero k)
  | succ n ih =>
    have step : s.fillRecord b (n + 1) = (s.fillRecord b n).wr (BGA_REC n) (leAt b (4 * n) 4) := by
      rw [State.fillRecord, List.range_succ, List.foldl_append]
      rfl
    rw [step]
    by_cases last : k = n
    · subst last
      exact rd_wr_lt rfl (f := BGA_REC k) (leAt_lt b (4 * k) 4) _
    · rw [rd_wr_free (rec_free (Ne.symm last)), ih (by omega)]

/-- What a read of BGA_REC0 answers. -/
theorem snapshot_reads {s : State} {r : RegRead} {P : State → Prop} (h : s.admitsRead 0x0E0 0x0C0 r = true)
    (hP : ∀ t, t.resp.code = .ok → t.resp.data = [s.takeSnapshot.rd (BGA_REC 0)] → t.bga = s.takeSnapshot.bga →
      (∀ g, t.rd g = s.takeSnapshot.rd g) → P t) : Answers (.snapshot r) s P := by
  have value (u : State) : shownWord (RegMap.fieldsAt 0x0E0 0x0C0) (u.reg 0x0E0 0x0C0) = u.rd (BGA_REC 0) := by
    have mask : RegMap.maskOf .rw (RegMap.fieldsAt 0x0E0 0x0C0) ||| RegMap.maskOf .ro (RegMap.fieldsAt 0x0E0 0x0C0) |||
        RegMap.maskOf .rc (RegMap.fieldsAt 0x0E0 0x0C0) ||| RegMap.maskOf .w1c (RegMap.fieldsAt 0x0E0 0x0C0) |||
        RegMap.maskOf .w1s (RegMap.fieldsAt 0x0E0 0x0C0) = 2 ^ 32 - 1 := by decide
    rw [shownWord, mask, Nat.and_two_pow_sub_one_eq_mod, State.rd, if_pos (by decide)]
    exact (congrArg (· % 2 ^ 32) (Nat.div_one _)).symm
  have done : bgaRead s ⟨r.port, r.tc.val, 0x0E0, 0x0C0, none⟩ =
      (.ok, s.takeSnapshot.rd (BGA_REC 0), s.takeSnapshot) := by
    have wide : wideOf 0x0E0 0x0C0 = none := by decide
    have clears : RegMap.maskOf .rc (RegMap.fieldsAt 0x0E0 0x0C0) = 0 := by decide
    change plainRead s.takeSnapshot ⟨r.port, r.tc.val, 0x0E0, 0x0C0, none⟩ = _
    unfold plainRead State.readWord State.clearOnRead
    dsimp only
    rw [wide, clears]
    dsimp only
    rw [if_pos (Or.inl rfl), ← value]
  refine answers_read (h := bgaRead) rfl (by decide) h done ?_
  rw [State.capture, if_pos (Or.inl rfl)]
  generalize s.takeSnapshot = u at hP ⊢
  exact hP _ rfl rfl (part_of_except (State.answerRead_same 512 rfl _ _ _ _ _) .bga rfl) fun g =>
    rd_of_except (State.answerRead_same 512 rfl _ _ _ _ _) rfl g

theorem snapshot_answers (s : State) (r : RegRead) (h : s.admitsRead 0x0E0 0x0C0 r = true) :
    (s.rd BGA_ST = 2 →
      Answers (.snapshot r) s fun t =>
        t.resp.code = .ok ∧ t.bga.seq = (s.bga.seq + 1) % 2 ^ 32 ∧
        (∀ k < 16, t.rd (BGA_REC k) = leAt (s.gaugeRecord ((s.bga.seq + 1) % 2 ^ 32)) (4 * k) 4) ∧
        t.resp.data = [t.rd (BGA_REC 0)]) ∧
    (s.rd BGA_ST ≠ 2 →
      Answers (.snapshot r) s fun t => t.resp.data = [0] ∧ (∀ k < 16, t.rd (BGA_REC k) = 0) ∧ t.bga = s.bga) := by
  refine ⟨fun st => snapshot_reads h fun t code data bga rd => ?_,
    fun st => snapshot_reads h fun t code data bga rd => ?_⟩
  · have runs : s.bgaRuns = true := (bgaRuns_iff s).mpr st
    have done := takeSnapshot_eq s
    rw [runs, if_pos rfl, if_pos rfl] at done
    rw [done] at bga
    refine ⟨code, ?_, fun k hk => by rw [rd, done, fillRecord_rec _ _ hk], by rw [data, rd]⟩
    rw [bga, part_of_except (fillRecord_same _ _ _) .bga rfl]
    rfl
  · have idle : s.bgaRuns = false := by
      rw [Bool.eq_false_iff]
      exact fun runs => st ((bgaRuns_iff s).mp runs)
    have done := takeSnapshot_eq s
    rw [idle, if_neg Bool.false_ne_true, if_neg Bool.false_ne_true] at done
    have zero (k : Nat) (hk : k < 16) : s.takeSnapshot.rd (BGA_REC k) = 0 := by
      rw [done, fillRecord_rec _ _ hk, leAt]
      simp [leNat]
    refine ⟨by rw [data, zero 0 (by decide)], fun k hk => by rw [rd, zero k hk], ?_⟩
    rw [bga, done]
    exact part_of_except (fillRecord_same _ _ _) .bga rfl

open Sys2Proof.Machine Sys2Proof.Machine.Reg

/-- Settles O47. -/
theorem gaugeComplete : Obligations.GaugeComplete := by
  unfold Obligations.GaugeComplete
  refine ⟨fun s m st => ?_, fun s m st cold => ?_, fun s m k r p st cold up down pin free clocks cyc trest hk hr hp =>
    estimationStep_idle st cold ⟨up, down, pin, free, clocks, cyc⟩ trest hk hr hp,
    fun s pre post alone di dv z st hi hv hz => burstEdge_answers s pre post alone di dv z st hi hv hz,
    fun s before after k l st hl => openWireTest_answers s before after k l st hl,
    fun s w h st => bgaOwnow_answers s w h st, fun s w h => bgaMntGo_answers s w h,
    fun s w h hm => bgaMntAbort_answers s w h hm, fun s hm he => mntEnd_answers s hm he,
    fun s w b h hb => bgaRestore_answers s w b h hb, fun s w h => bgaCold_answers s w h,
    fun s w h => bgaTcommit_answers s w h, fun s r h => snapshot_answers s r h⟩
  · obtain ⟨vin, vbat⟩ := takeSupplies_shown s m
    exact ⟨_, execEstimationStep_off m st, bga_takeSupplies s m, vin, vbat⟩
  · have h := sensed_sensed s m
    have command : exec (.estimationStep m) s = .next ((s.sensed m).runStep m) := by
      change execEstimationStep m s = _
      rw [execEstimationStep_runs m st, cold]
      rfl
    obtain ⟨current, pack⟩ := h.step_shown
    exact ⟨_, command, current, pack, runStep_tte _ m, h.step_soc, h.step_full, h.step_empty, h.step_count,
      h.step_charging, fun act sv neg hf => ⟨h.step_learning act sv neg hf, fun num unit he hn hu rsh =>
        h.step_learned act sv neg hf he hn hu rsh⟩⟩

end Sys2Proof.Machine

/-! ## AUXOUT and the charger (O49) -/

namespace Sys2Proof.Machine

open Reg

set_option autoImplicit false

/-! ### AUXOUT and the tone channel -/

/-- The pages of the tone channel and of the tenants, which an end of a transmission writes. -/
def tonePages : List Nat := 0x0B0 :: tenantPages

theorem tonePages_tenants : CoversTenants tonePages := coversTenants_append [0x0B0]

theorem waitUntil_kept (s : State) (n : Nat) : RdKept [CTF_UTC_FRAC, CTF_UTC] s (s.waitUntil n) := fun g hg => by
  simp only [List.all_cons, List.all_nil, Bool.and_true, Bool.and_eq_true] at hg
  unfold State.waitUntil
  split
  · exact rd_advance hg.1 hg.2 s _
  · rfl

/-- The fields of page 0x0B0 that the end of a transmission writes. -/
def cutFlds : List Fld :=
  [PLT_TXABN, IRQ_RAW 0x0B0, PLT_ROBUST, PLT_BLIND, PLT_DFLTS, PLT_NTONE, PLT_TXACT]

theorem pltShow_kept (s : State) : RdKept cutFlds s s.pltShow :=
  (((((RdKept.refl _ s).wr _ (by decide)).wr _ (by decide)).wr _ (by decide)).wr _ (by decide)).wr _ (by decide)

theorem cutTone_kept (s : State) (g : Fld) (hg : cutFlds.all (·.free g) = true)
    (hp : g.outside tenantPages = true) : s.cutTone.rd g = s.rd g := by
  have counted (u : State) : ((((u.count PLT_TXABN).raise 0x0B0 0).raise 0x0B0 1).pltShow).rd g = u.rd g :=
    ((((RdKept.refl cutFlds u).count (by decide)).raise _ (by decide)).raise _ (by decide)).trans
      (pltShow_kept _) g hg
  unfold State.cutTone
  dsimp only
  split
  · rfl
  · split
    · rw [rd_setPlm, counted, rd_setPlt]
    · rw [rd_of_past (State.requestCut_past (coversTenants_append []) _ _ _) hp, rd_setPlm, counted, rd_setPlt]

theorem pltAuxDown_shown (s : State) : s.pltAuxDown.on PLT_AUXDN = true := by
  unfold State.pltAuxDown
  split
  · assumption
  · have shown (u : State) : (((u.wr PLT_AUXDN 1).cutTone).raise 0x0B0 1).on PLT_AUXDN = true := by
      rw [on_raise_free (by decide), State.on, cutTone_kept _ _ (by decide) (by decide)]
      exact on_wr_b2n rfl (by decide) _ true
    exact shown _

theorem pltAuxDown_rd (s : State) {g : Fld} (hg : g.outside tonePages = true) : s.pltAuxDown.rd g = s.rd g :=
  rd_of_past (State.pltAuxDown_past (by decide) tonePages_tenants s) hg

theorem pltAuxUp_rd (s : State) {g : Fld} (hg : g.outside tonePages = true) : s.pltAuxUp.rd g = s.rd g :=
  rd_of_past (State.pltAuxUp_past (by decide) s) hg

theorem pltAuxDown_events (s : State) : s.events <+: s.pltAuxDown.events := by
  have shown (u : State) : (((u.wr PLT_AUXDN 1).cutTone).raise 0x0B0 1).events = u.events :=
    (part_of_except (State.raise_same 1 rfl _ _ _) .events rfl).trans
      ((part_of_except (State.cutTone_same 34401689601 rfl _) .events rfl).trans
        (part_of_except (State.wr_same 1 rfl _ _ _) .events rfl))
  unfold State.pltAuxDown
  split
  · exact List.prefix_rfl
  · dsimp only
    rw [shown]
    split
    · exact List.prefix_append _ _
    · exact List.prefix_rfl

/-! ### A state of AUXOUT (R507 to R509) -/

/-- The fields that a change of AUXOUT's state shows. -/
def auxFlds : List Fld := [PMU_AUX_ST, PMU_PG, IRQ_RAW 0x0E8]

/-- AUXOUT in its new state, with the moment. -/
def State.auxTaken (s : State) (st : Nat) : State :=
  (s.setPmu fun p => { p with aux := s.clk }).wr PMU_AUX_ST st

/-- The rails that are good shown, and the interrupt of AUXOUT. -/
def State.auxTold (s : State) (st was : Nat) : State :=
  if (st = auxGood ∨ was = auxGood ∨ st = auxLatched) ∧ st ≠ was then (s.wr PMU_PG s.railsGood).raise 0x0E8 3
  else s.wr PMU_PG s.railsGood

theorem setAux_eq (s : State) (st : Nat) : s.setAux st =
    if st = auxGood then ((s.auxTaken st).auxTold st (s.rd PMU_AUX_ST)).pltAuxUp
    else ((s.auxTaken st).auxTold st (s.rd PMU_AUX_ST)).pltAuxDown := rfl

theorem auxTaken_kept (s : State) (st : Nat) : RdKept auxFlds s (s.auxTaken st) :=
  ((RdKept.refl _ s).setPmu _).wr _ (by decide)

theorem auxTold_kept (s : State) (st was : Nat) : RdKept [PMU_PG, IRQ_RAW 0x0E8] s (s.auxTold st was) :=
  .ite (((RdKept.refl _ s).wr _ (by decide)).raise _ (by decide)) ((RdKept.refl _ s).wr _ (by decide)) _

theorem setAux_rd (s : State) (st : Nat) {g : Fld} (hg : g.outside tonePages = true) :
    (s.setAux st).rd g = ((s.auxTaken st).auxTold st (s.rd PMU_AUX_ST)).rd g := by
  rw [setAux_eq]
  split
  · exact pltAuxUp_rd _ hg
  · exact pltAuxDown_rd _ hg

theorem setAux_kept (s : State) (st : Nat) {g : Fld} (hg : g.outside tonePages = true)
    (hf : auxFlds.all (·.free g) = true) : (s.setAux st).rd g = s.rd g := by
  rw [setAux_rd s st hg, (auxTold_kept _ _ _).mono (by decide) g hf, auxTaken_kept s st g hf]

theorem setAux_st (s : State) {st : Nat} (h : st < 8) : (s.setAux st).rd PMU_AUX_ST = st := by
  rw [setAux_rd s st (by decide), auxTold_kept _ _ _ _ (by decide)]
  exact rd_wr_lt rfl (f := PMU_AUX_ST) h _

theorem pmu_setAux (s : State) (st : Nat) : (s.setAux st).pmu = { s.pmu with aux := s.clk } := by
  have told : ((s.auxTaken st).auxTold st (s.rd PMU_AUX_ST)).pmu = { s.pmu with aux := s.clk } := by
    unfold State.auxTold
    split
    · exact (part_of_except (State.raise_same 1 rfl _ _ _) .pmu rfl).trans
        ((part_of_except (State.wr_same 1 rfl _ _ _) .pmu rfl).trans
          (part_of_except (State.wr_same 1 rfl _ _ _) .pmu rfl))
    · exact (part_of_except (State.wr_same 1 rfl _ _ _) .pmu rfl).trans
          (part_of_except (State.wr_same 1 rfl _ _ _) .pmu rfl)
  rw [setAux_eq]
  split
  · exact (part_of_except (State.pltAuxUp_same 1 rfl _) .pmu rfl).trans told
  · exact (part_of_except (State.pltAuxDown_same 34401689857 rfl _) .pmu rfl).trans told

theorem setAux_clk (s : State) (st : Nat) : (s.setAux st).clk = s.clk :=
  part_of_except (State.setAux_same 36549173505 rfl s st) .clk rfl

theorem setAux_down (s : State) {st : Nat} (h : st ≠ auxGood) : (s.setAux st).on PLT_AUXDN = true := by
  rw [setAux_eq, if_neg h]
  exact pltAuxDown_shown _

theorem setAux_up (s : State) : (s.setAux auxGood).on PLT_AUXDN = false := by
  rw [setAux_eq, if_pos rfl]
  exact on_wr_b2n (f := PLT_AUXDN) rfl (by decide) _ false

theorem setAux_irq (s : State) {st : Nat} (h : st = auxGood ∨ s.rd PMU_AUX_ST = auxGood ∨ st = auxLatched)
    (new : st ≠ s.rd PMU_AUX_ST) : bit ((s.setAux st).rd (IRQ_RAW 0x0E8)) 3 = true := by
  rw [setAux_rd s st (by decide), State.auxTold, if_pos ⟨h, new⟩]
  exact bit_raise_same _ _ (by decide)

theorem setAux_events (s : State) (st : Nat) : s.events <+: (s.setAux st).events := by
  have told : ((s.auxTaken st).auxTold st (s.rd PMU_AUX_ST)).events = s.events := by
    unfold State.auxTold
    split
    · exact (part_of_except (State.raise_same 1 rfl _ _ _) .events rfl).trans
        ((part_of_except (State.wr_same 1 rfl _ _ _) .events rfl).trans
          (part_of_except (State.wr_same 1 rfl _ _ _) .events rfl))
    · exact (part_of_except (State.wr_same 1 rfl _ _ _) .events rfl).trans
          (part_of_except (State.wr_same 1 rfl _ _ _) .events rfl)
  rw [setAux_eq]
  split
  · exact (told.symm.trans (part_of_except (State.pltAuxUp_same 1 rfl _) .events rfl).symm) ▸ List.prefix_rfl
  · exact told ▸ pltAuxDown_events _

theorem railsGood_aux {s : State} (up : s.pmu.railsUp = true) (st : s.rd PMU_AUX_ST = 2) :
    bit (s.railsGood % 2 ^ 9) 7 = true := by
  unfold State.railsGood
  rw [up, st, if_neg (by decide), if_pos rfl]
  split <;> split <;> decide

theorem setAux_pg {s : State} (up : s.pmu.railsUp = true) : bit ((s.setAux auxGood).rd PMU_PG) 7 = true := by
  have shown (u : State) : (u.auxTold auxGood (s.rd PMU_AUX_ST)).rd PMU_PG = u.railsGood % 2 ^ 9 := by
    unfold State.auxTold
    split
    · rw [rd_raise_free (by decide)]
      exact rd_wr_same _ PMU_PG _ rfl
    · exact rd_wr_same _ PMU_PG _ rfl
  rw [setAux_rd s _ (by decide), shown]
  refine railsGood_aux ?_ (rd_wr_lt rfl (f := PMU_AUX_ST) (v := 2) (by decide) _)
  exact (congrArg PmuState.railsUp (part_of_except (State.wr_same 1 rfl _ _ _) .pmu rfl)).trans up

set_option autoImplicit false

/-! ### The sequence of attempts -/

theorem auxHolds_iff (s : State) (mv : BitVec 16) : s.auxHolds mv.toNat = true ↔ AuxHolds s mv := by
  unfold State.auxHolds AuxHolds
  rw [decide_eq_true_eq]
  split <;> omega

theorem waitUntil_pmu (s : State) (n : Nat) : (s.waitUntil n).pmu = s.pmu :=
  part_of_except (State.waitUntil_same 4289 rfl s n) .pmu rfl

theorem auxAttempt_answers (s : State) (h : s.rd PMU_AUX_ST = auxWait) (hp : s.rd CTF_PERIOD ≠ 0) :
    Answers .auxAttempt s fun t =>
      t.rd PMU_AUX_ST = auxRamp ∧ s.pmu.aux + msTicks 250 ≤ t.clk ∧ t.pmu.aux = t.clk ∧
      t.rd PMU_AUX_ATT = s.rd PMU_AUX_ATT := by
  have command : exec .auxAttempt s = .next ((s.waitUntil (s.pmu.aux + msTicks 250)).setAux auxRamp) := by
    change execAuxAttempt s = _
    rw [execAuxAttempt, if_neg (not_not.mpr h)]
  have moment (u : State) : (u.setAux auxRamp).pmu.aux = (u.setAux auxRamp).clk := by
    rw [pmu_setAux, setAux_clk]
  refine ⟨_, command, setAux_st _ (by decide), ?_, moment _, ?_⟩
  · rw [setAux_clk]
    exact waitUntil_clk hp _
  · rw [setAux_kept _ _ (by decide) (by decide), waitUntil_kept _ _ _ (by decide)]

/-- A failed attempt counted and logged, before AUXOUT is switched off. -/
def State.auxCounted (s : State) (n : Nat) : State :=
  ((s.wr PMU_AUX_ATT n).count PMU_AUXFLTN).log 0x2034 deviceTc (n + (if n = 4 then 256 else 0))

theorem auxFail_eq (s : State) : s.auxFail = (s.auxCounted (min 4 (s.rd PMU_AUX_ATT + 1))).setAux
    (if min 4 (s.rd PMU_AUX_ATT + 1) = 4 then auxLatched else auxWait) := rfl

theorem auxCounted_events (s : State) (n : Nat) : (s.auxCounted n).events =
    s.events ++ [⟨0x2034, deviceTc, leBytes 8 (n + (if n = 4 then 256 else 0))⟩] := by
  rw [State.auxCounted, State.log]
  exact congrArg (· ++ [_]) ((part_of_except (State.count_same 1 rfl _ _ _) .events rfl).trans
    (part_of_except (State.wr_same 1 rfl _ _ _) .events rfl))

/-- What a failed attempt leaves (R507). -/
theorem auxFail_shown (s : State) {n : Nat} (hn : n = min 4 (s.rd PMU_AUX_ATT + 1)) :
    s.auxFail.rd PMU_AUX_ST = (if n = 4 then auxLatched else auxWait) ∧ s.auxFail.rd PMU_AUX_ATT = n ∧
    s.auxFail.rd PMU_AUXFLTN = satNat 16 (s.rd PMU_AUXFLTN + 1) ∧ s.auxFail.on PLT_AUXDN = true ∧
    LoggedFirst s s.auxFail 0x2034 deviceTc (n + (if n = 4 then 256 else 0)) ∧
    (s.rd PMU_AUX_ST = auxGood → bit (s.auxFail.rd (IRQ_RAW 0x0E8)) 3 = true) := by
  have fails := auxFail_eq s
  rw [← hn] at fails
  have small : n < 2 ^ 3 := by omega
  have st : (if n = 4 then auxLatched else auxWait) ≠ auxGood := by split <;> decide
  rw [fails]
  refine ⟨setAux_st _ (by split <;> decide), ?_, ?_, setAux_down _ st, ?_, fun good => ?_⟩
  · rw [setAux_kept _ _ (by decide) (by decide), State.auxCounted, rd_log, rd_count_free (by decide)]
    exact rd_wr_lt rfl (f := PMU_AUX_ATT) small _
  · rw [setAux_kept _ _ (by decide) (by decide), State.auxCounted, rd_log, rd_count_same _ _ _ rfl,
      rd_wr_free (by decide)]
    rfl
  · obtain ⟨l, later⟩ := setAux_events (s.auxCounted n) (if n = 4 then auxLatched else auxWait)
    rw [auxCounted_events] at later
    exact ⟨l, by rw [← later, List.append_assoc]; rfl⟩
  · have was : (s.auxCounted n).rd PMU_AUX_ST = auxGood := by
      rw [State.auxCounted, rd_log, rd_count_free (by decide), rd_wr_free (by decide), good]
    exact setAux_irq _ (.inr (.inl was)) (by rw [was]; exact st)

theorem auxHolds_congr {l : List Fld} {s t : State} (h : RdKept l s t) (hl : l.all (·.free PMU_AUX_V) = true)
    (mv : Nat) : t.auxHolds mv = s.auxHolds mv := by
  unfold State.auxHolds
  rw [h.on hl]

/-- The reading of AUXOUT, 5 ms after the start of an attempt. -/
def State.auxRead (s : State) (mv : BitVec 16) : State :=
  (s.waitUntil (s.pmu.aux + msTicks 5)).wr PMU_AUX_MV mv.toNat

theorem auxRead_kept (s : State) (mv : BitVec 16) : RdKept [CTF_UTC_FRAC, CTF_UTC, PMU_AUX_MV] s (s.auxRead mv) :=
  ((waitUntil_kept s _).mono (by decide)).wr _ (by decide)

theorem execAuxAttemptCheck_eq {s : State} (mv : BitVec 16) (h : s.rd PMU_AUX_ST = auxRamp) :
    exec (.auxAttemptCheck mv) s =
      .next (if s.auxHolds mv.toNat then (s.auxRead mv).setAux auxGood else (s.auxRead mv).auxFail) := by
  change execAuxAttemptCheck mv s = _
  rw [execAuxAttemptCheck, if_neg (not_not.mpr h), ← auxHolds_congr (auxRead_kept s mv) (by decide)]
  rfl

theorem auxAttemptCheck_answers (s : State) (mv : BitVec 16) (h : s.rd PMU_AUX_ST = auxRamp)
    (hp : s.rd CTF_PERIOD ≠ 0) (up : s.pmu.railsUp = true) :
    (AuxHolds s mv →
      Answers (.auxAttemptCheck mv) s fun t =>
        t.rd PMU_AUX_ST = auxGood ∧ s.pmu.aux + msTicks 5 ≤ t.clk ∧ t.on PLT_AUXDN = false ∧
        bit (t.rd PMU_PG) 7 = true ∧ bit (t.rd (IRQ_RAW 0x0E8)) 3 = true ∧ t.rd PMU_AUX_MV = mv.toNat) ∧
    (∀ n, ¬AuxHolds s mv → n = min 4 (s.rd PMU_AUX_ATT + 1) →
      Answers (.auxAttemptCheck mv) s fun t =>
        t.rd PMU_AUX_ST = (if n = 4 then auxLatched else auxWait) ∧ t.rd PMU_AUX_ATT = n ∧
        t.rd PMU_AUXFLTN = satNat 16 (s.rd PMU_AUXFLTN + 1) ∧ t.on PLT_AUXDN = true ∧
        LoggedFirst s t 0x2034 deviceTc (n + (if n = 4 then 256 else 0))) := by
  have command := execAuxAttemptCheck_eq mv h
  have st : (s.auxRead mv).rd PMU_AUX_ST = auxRamp := by rw [auxRead_kept s mv _ (by decide), h]
  have clk : (s.auxRead mv).clk = (s.waitUntil (s.pmu.aux + msTicks 5)).clk :=
    part_of_except (State.wr_same 1 rfl _ _ _) .clk rfl
  have pmu : (s.auxRead mv).pmu = s.pmu :=
    (part_of_except (State.wr_same 1 rfl _ _ _) .pmu rfl).trans (waitUntil_pmu s _)
  have events : (s.auxRead mv).events = s.events :=
    (part_of_except (State.wr_same 1 rfl _ _ _) .events rfl).trans
      (part_of_except (State.waitUntil_same 4289 rfl s _) .events rfl)
  refine ⟨fun holds => ?_, fun n fails hn => ?_⟩
  · rw [if_pos ((auxHolds_iff s mv).mpr holds)] at command
    refine ⟨_, command, setAux_st _ (by decide), ?_, setAux_up _, setAux_pg (by rw [pmu, up]),
      setAux_irq _ (.inl rfl) (by rw [st]; decide), ?_⟩
    · rw [setAux_clk, clk]
      exact waitUntil_clk hp _
    · rw [setAux_kept _ _ (by decide) (by decide)]
      exact rd_wr_lt rfl (f := PMU_AUX_MV) mv.isLt _
  · rw [if_neg fun holds => fails ((auxHolds_iff s mv).mp holds)] at command
    obtain ⟨shown, att, count, down, ⟨l, logged⟩, -⟩ := auxFail_shown (s.auxRead mv) (n := n)
      (by rw [auxRead_kept s mv _ (by decide), hn])
    exact ⟨_, command, shown, att, by rw [count, auxRead_kept s mv _ (by decide)], down, l, by rw [logged, events]⟩

theorem auxDrop_answers (s : State) (mv : BitVec 16) (n : Nat) (h : s.rd PMU_AUX_ST = auxGood)
    (fails : ¬AuxHolds s mv) (hn : n = min 4 (s.rd PMU_AUX_ATT + 1)) :
    Answers (.auxDrop mv) s fun t =>
      t.rd PMU_AUX_ST = (if n = 4 then auxLatched else auxWait) ∧ t.rd PMU_AUX_ATT = n ∧ t.on PLT_AUXDN = true ∧
      bit (t.rd (IRQ_RAW 0x0E8)) 3 = true ∧ LoggedFirst s t 0x2034 deviceTc (n + (if n = 4 then 256 else 0)) := by
  have command : exec (.auxDrop mv) s = .next (s.wr PMU_AUX_MV mv.toNat).auxFail := by
    change execAuxDrop mv s = _
    rw [execAuxDrop, if_neg]
    rintro (off | holds)
    · exact off h
    · exact fails ((auxHolds_iff s mv).mp holds)
  have events : (s.wr PMU_AUX_MV mv.toNat).events = s.events := part_of_except (State.wr_same 1 rfl _ _ _) .events rfl
  obtain ⟨shown, att, -, down, ⟨l, logged⟩, irq⟩ := auxFail_shown (s.wr PMU_AUX_MV mv.toNat) (n := n)
    (by rw [rd_wr_free (by decide), hn])
  exact ⟨_, command, shown, att, down, irq (by rw [rd_wr_free (by decide), h]), l, by rw [logged, events]⟩

theorem auxGoodHold_answers (s : State) (h : s.rd PMU_AUX_ST = auxGood) (hp : s.rd CTF_PERIOD ≠ 0) :
    Answers .auxGoodHold s fun t =>
      t.rd PMU_AUX_ATT = 0 ∧ s.pmu.aux + msTicks 10000 ≤ t.clk ∧ t.rd PMU_AUX_ST = auxGood := by
  have command : exec .auxGoodHold s =
      .next ((s.waitUntil (s.pmu.aux + msTicks 10000)).wr PMU_AUX_ATT 0) := by
    change execAuxGoodHold s = _
    rw [execAuxGoodHold, if_neg (not_not.mpr h)]
  refine ⟨_, command, rd_wr_lt rfl (f := PMU_AUX_ATT) (v := 0) (by decide) _, ?_, ?_⟩
  · rw [part_of_except (State.wr_same 1 rfl _ _ _) .clk rfl]
    exact waitUntil_clk hp _
  · rw [rd_wr_free (by decide), waitUntil_kept _ _ _ (by decide), h]

/-! ### The writes of PMU_AUXCFG (R506, R508) -/

/-- The word of PMU_AUXCFG stored. -/
theorem storeAux_shown (s : State) (d : Nat) :
    (s.storeWord 0x0E9 0x050 d).rd PMU_AUX_EN = bits d 0 1 ∧ (s.storeWord 0x0E9 0x050 d).rd PMU_AUX_V = bits d 1 1 ∧
    ∀ g : Fld, g.width ≤ 32 → g.key ≠ regKey 0x0E9 0x050 → (s.storeWord 0x0E9 0x050 d).rd g = s.rd g :=
  ⟨rd_storeWord_set (by decide) (by decide) (by decide) (by decide) s d,
    rd_storeWord_set (by decide) (by decide) (by decide) (by decide) s d,
    fun _ hg hk => rd_storeWord_other (by decide) hg hk s d⟩

theorem on_of_bits {s : State} {f : Fld} {d k : Nat} (h : s.rd f = bits d k 1) : s.on f = bit d k := by
  rw [State.on, h]
  rfl

theorem storeAux_pmu (s : State) (d : Nat) : (s.storeWord 0x0E9 0x050 d).pmu = s.pmu ∧
    (s.storeWord 0x0E9 0x050 d).clk = s.clk :=
  ⟨part_of_except (State.storeWord_same 41 rfl s _ _ _) .pmu rfl,
    part_of_except (State.storeWord_same 41 rfl s _ _ _) .clk rfl⟩

theorem storeAux_may {s : State} {d : Nat} (up : s.pmu.railsUp = true) (level : s.level ≤ 2) (on : bit d 0 = true) :
    (s.storeWord 0x0E9 0x050 d).auxMay = true := by
  obtain ⟨en, -, other⟩ := storeAux_shown s d
  have lvl : (s.storeWord 0x0E9 0x050 d).level = s.level := other MON_LVL (by decide) (by decide)
  rw [State.auxMay, (storeAux_pmu s d).1, up, on_of_bits en, on, lvl, decide_eq_true level]
  rfl

/-- Attempt 1 of a start. -/
structure AuxStarted (s t : State) : Prop where
  st : t.rd PMU_AUX_ST = auxRamp
  att : t.rd PMU_AUX_ATT = 0
  aux : t.pmu.aux = s.clk
  rd : ∀ g : Fld, g.outside tonePages = true → auxFlds.all (·.free g) = true → PMU_AUX_ATT.free g = true →
    t.rd g = s.rd g
  clk : t.clk = s.clk

theorem auxStart_started (s : State) : AuxStarted s s.auxStart := by
  have clk : (s.wr PMU_AUX_ATT 0).clk = s.clk := part_of_except (State.wr_same 1 rfl _ _ _) .clk rfl
  refine ⟨setAux_st _ (by decide), ?_, ?_, fun g hp hf ha => ?_, (setAux_clk _ _).trans clk⟩
  · rw [State.auxStart, setAux_kept _ _ (by decide) (by decide)]
    exact rd_wr_lt rfl (f := PMU_AUX_ATT) (v := 0) (by decide) _
  · rw [State.auxStart, pmu_setAux, clk]
  · rw [State.auxStart, setAux_kept _ _ hp hf, rd_wr_free ha]

theorem railConfig_aux (s : State) (q : Req) (d : Nat) (h : q.off = 0x050) : s.railConfig q d = s.auxWrite q d := by
  unfold State.railConfig
  rw [if_pos h]

/-- A write of PMU_AUXCFG that AUXOUT takes or refuses. -/
theorem pmuWrite_aux {s u : State} {port : Port} {tc d : Nat} {c : Status}
    (h : s.auxWrite ⟨port, tc, 0x0E9, 0x050, none⟩ d = (c, u)) :
    pmuWrite s ⟨port, tc, 0x0E9, 0x050, none⟩ d = (c, u.wr PMU_CCODE (codeOf c)) := by
  unfold pmuWrite
  rw [if_neg (fun k => absurd k.1 (show ¬(0x0E9 : Nat) = 0x0E8 by decide)), if_neg
    (show ¬(0x0E9 : Nat) = 0x0E8 by decide), railConfig_aux _ _ _ rfl, h]

set_option autoImplicit false

/-! ### PMU_AUX_RETRY and PMU_AUX_EN -/

theorem auxMay_started {s t : State} (h : AuxStarted s t) (pmu : t.pmu.railsUp = s.pmu.railsUp) :
    t.auxMay = s.auxMay := by
  have en : t.on PMU_AUX_EN = s.on PMU_AUX_EN := by rw [State.on, State.on, h.rd _ (by decide) (by decide) (by decide)]
  have d3 : t.on PMU_AUX_D3 = s.on PMU_AUX_D3 := by rw [State.on, State.on, h.rd _ (by decide) (by decide) (by decide)]
  have lvl : t.level = s.level := h.rd MON_LVL (by decide) (by decide) (by decide)
  rw [State.auxMay, State.auxMay, pmu, en, d3, lvl]

theorem railsUp_auxStart (s : State) : s.auxStart.pmu.railsUp = s.pmu.railsUp := by
  rw [State.auxStart, pmu_setAux]
  change (s.wr PMU_AUX_ATT 0).pmu.railsUp = _
  simp only [wr_frame]

/-- AUXOUT that may run and is not good follows into a state from which a retry starts it. -/
theorem auxFollow_retry {s : State} (may : s.auxMay = true) (bad : s.rd PMU_AUX_ST ≠ auxGood) :
    s.auxFollow.auxMay = true ∧ s.auxFollow.rd PMU_AUX_ST ≠ auxGood ∧ s.auxFollow.clk = s.clk ∧
    s.auxFollow.pmu.railsUp = s.pmu.railsUp := by
  have follow : s.auxFollow = if s.rd PMU_AUX_ST = auxOff then s.auxStart else s := by
    unfold State.auxFollow
    dsimp only
    rw [may, if_neg (c := (!true) = true) Bool.false_ne_true]
  rw [follow]
  split
  · have started := auxStart_started s
    have up := railsUp_auxStart s
    exact ⟨(auxMay_started started up).trans may, by rw [started.st]; decide, started.clk, up⟩
  · exact ⟨may, bad, rfl, rfl⟩

/-- What AUXOUT does with its word stored; `was`: it was enabled. -/
def State.auxApply (s : State) (was : Bool) (d : Nat) : State :=
  if was && !bit d 0 then s.auxStop else if !was && bit d 0 && s.auxMay then s.auxStart else s.auxFollow

/-- The retry that a word asks for. -/
def State.auxAgain (s : State) (d : Nat) : State :=
  if !bit d 3 then s
  else if s.rd PMU_AUX_ST = auxGood ∨ s.auxMay = false then s.wr PMU_AUX_ATT 0
  else s.auxStart

theorem auxWrite_eq (s : State) (q : Req) (d : Nat) : s.auxWrite q d =
    if s.on PMU_AUX_EN && bit d 1 != s.on PMU_AUX_V then (.cfgInvalid, s)
    else (.ok, ((s.storeWord q.page q.off d).auxApply (s.on PMU_AUX_EN) d).auxAgain d) := rfl

theorem auxWrite_refused {s : State} {q : Req} {d : Nat} (on : s.on PMU_AUX_EN = true)
    (v : bit d 1 ≠ s.on PMU_AUX_V) : s.auxWrite q d = (.cfgInvalid, s) := by
  rw [auxWrite_eq]
  exact if_pos (by rw [on, Bool.true_and, bne_iff_ne]; exact v)

theorem auxWrite_retry {s : State} {port : Port} {tc d : Nat} (on : s.on PMU_AUX_EN = true) (b0 : bit d 0 = true)
    (b3 : bit d 3 = true) (v : bit d 1 = s.on PMU_AUX_V) (up : s.pmu.railsUp = true) (level : s.level ≤ 2)
    (bad : s.rd PMU_AUX_ST ≠ auxGood) :
    s.auxWrite ⟨port, tc, 0x0E9, 0x050, none⟩ d = (.ok, (s.storeWord 0x0E9 0x050 d).auxFollow.auxStart) := by
  have may := storeAux_may up level b0
  obtain ⟨may', bad', -, -⟩ := auxFollow_retry may
    (by rw [(storeAux_shown s d).2.2 PMU_AUX_ST (by decide) (by decide)]; exact bad)
  have apply : (s.storeWord 0x0E9 0x050 d).auxApply (s.on PMU_AUX_EN) d = (s.storeWord 0x0E9 0x050 d).auxFollow := by
    rw [State.auxApply, on, b0]
    rfl
  rw [auxWrite_eq, if_neg (by simp [v]), apply, State.auxAgain, b3, if_neg (by decide), if_neg]
  rintro (good | no)
  · exact bad' good
  · rw [may'] at no
    exact absurd no (by decide)

theorem pmu_wr_answer (s : State) (f : Fld) (v : Nat) (c : Status) : ((s.wr f v).answer c).pmu = s.pmu := by
  simp only [answer_frame, wr_frame]

theorem pmuAuxRetry_answers (s : State) (w : RegWrite)
    (h : s.admitsWrite 0x0E9 0x050 w (setBit w.data.toNat 3) = true) (on : s.on PMU_AUX_EN = true)
    (b0 : bit w.data.toNat 0 = true) :
    (bit w.data.toNat 1 = s.on PMU_AUX_V → s.pmu.railsUp = true → s.level ≤ 2 → s.rd PMU_AUX_ST ≠ auxGood →
      Answers (.pmuAuxRetry w) s fun t =>
        t.resp.code = .ok ∧ t.rd PMU_AUX_ST = auxRamp ∧ t.rd PMU_AUX_ATT = 0 ∧ t.pmu.aux = s.clk) ∧
    (bit w.data.toNat 1 ≠ s.on PMU_AUX_V →
      Answers (.pmuAuxRetry w) s fun t =>
        t.resp.code = .cfgInvalid ∧ t.rd PMU_AUX_ST = s.rd PMU_AUX_ST ∧ t.on PMU_AUX_V = s.on PMU_AUX_V) := by
  have word0 : bit (BitVec.ofNat 32 (setBit w.data.toNat 3)).toNat 0 = true := by
    rw [bit_command (by decide), if_neg (by decide), b0]
  have word1 : bit (BitVec.ofNat 32 (setBit w.data.toNat 3)).toNat 1 = bit w.data.toNat 1 := by
    rw [bit_command (by decide), if_neg (by decide)]
  have word3 : bit (BitVec.ofNat 32 (setBit w.data.toNat 3)).toNat 3 = true := by
    rw [bit_command (by decide), if_pos rfl]
  generalize hd : (BitVec.ofNat 32 (setBit w.data.toNat 3)).toNat = d at word0 word1 word3
  refine ⟨fun v up level bad => ?_, fun v => ?_⟩
  · have done := pmuWrite_aux (port := w.port) (tc := w.tc.val) (auxWrite_retry (port := w.port) (tc := w.tc.val) on
      word0 word3
      (word1.trans v) up level bad)
    have may := storeAux_may (d := d) up level word0
    obtain ⟨-, -, clk, -⟩ := auxFollow_retry may
      (by rw [(storeAux_shown s d).2.2 PMU_AUX_ST (by decide) (by decide)]; exact bad)
    have started := auxStart_started (s.storeWord 0x0E9 0x050 d).auxFollow
    rw [← hd] at done
    refine answers_write (f := (setBit · 3)) (h := pmuWrite) rfl (by decide) h done ⟨rfl, ?_, ?_, ?_⟩
    · rw [rd_answer, rd_wr_free (by decide), hd, started.st]
    · rw [rd_answer, rd_wr_free (by decide), hd, started.att]
    · rw [pmu_wr_answer, hd, started.aux, clk, (storeAux_pmu s d).2]
  · have done := pmuWrite_aux (port := w.port) (tc := w.tc.val) (auxWrite_refused
      (q := ⟨w.port, w.tc.val, 0x0E9, 0x050, none⟩)
      on (d := d) (by rw [word1]; exact v))
    rw [← hd] at done
    refine answers_write_coded (f := (setBit · 3)) (h := pmuWrite) rfl (by decide) h done ⟨rfl, ?_, ?_⟩
    · rw [rd_answer, rd_capture_uncaught (by decide), rd_wr_free (by decide)]
    · rw [State.on, rd_answer, rd_capture_uncaught (by decide), rd_wr_free (by decide)]
      rfl

theorem auxWrite_start {s : State} {port : Port} {tc d : Nat} (off : s.on PMU_AUX_EN = false) (b0 : bit d 0 = true)
    (b3 : bit d 3 = false) (up : s.pmu.railsUp = true) (level : s.level ≤ 2) :
    s.auxWrite ⟨port, tc, 0x0E9, 0x050, none⟩ d = (.ok, (s.storeWord 0x0E9 0x050 d).auxStart) := by
  have may := storeAux_may up level b0
  have apply : (s.storeWord 0x0E9 0x050 d).auxApply (s.on PMU_AUX_EN) d = (s.storeWord 0x0E9 0x050 d).auxStart := by
    rw [State.auxApply, off, b0, may]
    rfl
  rw [auxWrite_eq, if_neg (by simp [off]), apply, State.auxAgain, b3, if_pos (by decide)]

theorem auxWrite_stop {s : State} {port : Port} {tc d : Nat} (on : s.on PMU_AUX_EN = true) (b0 : bit d 0 = false)
    (b3 : bit d 3 = false) (v : bit d 1 = s.on PMU_AUX_V) :
    s.auxWrite ⟨port, tc, 0x0E9, 0x050, none⟩ d = (.ok, (s.storeWord 0x0E9 0x050 d).auxStop) := by
  have apply : (s.storeWord 0x0E9 0x050 d).auxApply (s.on PMU_AUX_EN) d = (s.storeWord 0x0E9 0x050 d).auxStop := by
    rw [State.auxApply, on, b0]
    rfl
  rw [auxWrite_eq, if_neg (by simp [v]), apply, State.auxAgain, b3, if_pos (by decide)]

theorem pmuAuxEn_starts (s : State) (w : RegWrite)
    (h : s.admitsWrite 0x0E9 0x050 w (setBit w.data.toNat 0) = true) (off : s.on PMU_AUX_EN = false)
    (b3 : bit w.data.toNat 3 = false) (up : s.pmu.railsUp = true) (level : s.level ≤ 2) :
    Answers (.pmuAuxEn true w) s fun t =>
      t.resp.code = .ok ∧ t.on PMU_AUX_EN = true ∧ t.on PMU_AUX_V = bit w.data.toNat 1 ∧
      t.rd PMU_AUX_ST = auxRamp ∧ t.rd PMU_AUX_ATT = 0 := by
  have word0 : bit (BitVec.ofNat 32 (setBit w.data.toNat 0)).toNat 0 = true := by
    rw [bit_command (by decide), if_pos rfl]
  have word1 : bit (BitVec.ofNat 32 (setBit w.data.toNat 0)).toNat 1 = bit w.data.toNat 1 := by
    rw [bit_command (by decide), if_neg (by decide)]
  have word3 : bit (BitVec.ofNat 32 (setBit w.data.toNat 0)).toNat 3 = false := by
    rw [bit_command (by decide), if_neg (by decide), b3]
  have done := pmuWrite_aux (port := w.port) (tc := w.tc.val)
    (auxWrite_start (port := w.port) (tc := w.tc.val) off word0 word3 up level)
  generalize hd : (BitVec.ofNat 32 (setBit w.data.toNat 0)).toNat = d at word0 word1 done
  obtain ⟨en, v, -⟩ := storeAux_shown s d
  have started := auxStart_started (s.storeWord 0x0E9 0x050 d)
  rw [← hd] at done
  refine answers_write (f := fun d => setBit d 0) (h := pmuWrite) rfl (by decide) h done ⟨rfl, ?_, ?_, ?_, ?_⟩
  · rw [on_answer, on_wr_free (by decide), hd, State.on, started.rd _ (by decide) (by decide) (by decide)]
    exact (on_of_bits en).trans word0
  · rw [on_answer, on_wr_free (by decide), hd, State.on, started.rd _ (by decide) (by decide) (by decide)]
    exact (on_of_bits v).trans word1
  · rw [rd_answer, rd_wr_free (by decide), hd, started.st]
  · rw [rd_answer, rd_wr_free (by decide), hd, started.att]

theorem bit_cleared (d : Word) : bit (BitVec.ofNat 32 (clearBit d.toNat 0)).toNat 0 = false ∧
    ∀ i, 0 < i → i < 32 → bit (BitVec.ofNat 32 (clearBit d.toNat 0)).toNat i = bit d.toNat i := by
  refine ⟨by rw [bit_ofNat (by decide), bit_clearBit_same], fun i pos small => ?_⟩
  rw [bit_ofNat small, clearBit]
  split
  case isTrue h =>
    have odd : d.toNat % 2 = 1 := by simpa [bit] using h
    obtain ⟨j, rfl⟩ : ∃ j, i = j + 1 := ⟨i - 1, by omega⟩
    rw [bit_eq_testBit, bit_eq_testBit, Nat.testBit_succ, Nat.testBit_succ]
    congr 1
    omega
  case isFalse => rfl

theorem pmuAuxEn_stops (s : State) (w : RegWrite)
    (h : s.admitsWrite 0x0E9 0x050 w (clearBit w.data.toNat 0) = true) (on : s.on PMU_AUX_EN = true)
    (v : bit w.data.toNat 1 = s.on PMU_AUX_V) (b3 : bit w.data.toNat 3 = false) :
    Answers (.pmuAuxEn false w) s fun t =>
      t.resp.code = .ok ∧ t.on PMU_AUX_EN = false ∧ t.rd PMU_AUX_ST = auxOff ∧ t.rd PMU_AUX_ATT = 0 ∧
      t.on PLT_AUXDN = true := by
  obtain ⟨word0, other⟩ := bit_cleared w.data
  have word1 := (other 1 (by decide) (by decide)).trans v
  have word3 := (other 3 (by decide) (by decide)).trans b3
  have done := pmuWrite_aux (port := w.port) (tc := w.tc.val)
    (auxWrite_stop (port := w.port) (tc := w.tc.val) on word0 word3 word1)
  generalize hd : (BitVec.ofNat 32 (clearBit w.data.toNat 0)).toNat = d at word0 done
  obtain ⟨en, -, -⟩ := storeAux_shown s d
  rw [← hd] at done
  refine answers_write (f := fun d => clearBit d 0) (h := pmuWrite) rfl (by decide) h done ⟨rfl, ?_, ?_, ?_, ?_⟩
  · rw [on_answer, on_wr_free (by decide), hd, State.on, State.auxStop, setAux_kept _ _ (by decide) (by decide),
      rd_wr_free (by decide), rd_wr_free (by decide)]
    exact (on_of_bits en).trans word0
  · rw [rd_answer, rd_wr_free (by decide)]
    exact setAux_st _ (by decide)
  · rw [rd_answer, rd_wr_free (by decide), State.auxStop, setAux_kept _ _ (by decide) (by decide),
      rd_wr_free (by decide)]
    exact rd_wr_lt rfl (f := PMU_AUX_ATT) (v := 0) (by decide) _
  · rw [on_answer, on_wr_free (by decide)]
    exact setAux_down _ (by decide)

/-! ### The charger (R514) -/

theorem setChg_shown {s : State} {c : Nat} (h : c < 8) : (s.setChg c).rd PMU_CHG_ST = c ∧
    (s.rd PMU_CHG_ST ≠ c → bit ((s.setChg c).rd (IRQ_RAW 0x0E8)) 4 = true) := by
  unfold State.setChg
  split
  case isTrue same => exact ⟨same, fun k => absurd same k⟩
  case isFalse =>
    refine ⟨?_, fun _ => bit_raise_same _ _ (by decide)⟩
    rw [rd_raise_free (by decide)]
    exact rd_wr_lt rfl (f := PMU_CHG_ST) h _

theorem pmu_setChg (s : State) (c : Nat) : (s.setChg c).pmu = s.pmu :=
  part_of_except (State.setChg_same 1 rfl s c) .pmu rfl

theorem chargeDone_answers (s : State) (h : s.rd PMU_CHG_ST = chgVoltage) :
    Answers .chargeDone s fun t =>
      t.rd PMU_CHG_ST = chgDone ∧ t.pmu.charge = none ∧ bit (t.rd (IRQ_RAW 0x0E8)) 4 = true := by
  have command : exec .chargeDone s = .next ((s.setPmu fun p => { p with charge := none }).setChg chgDone) := by
    change execChargeDone s = _
    rw [execChargeDone, if_neg (not_not.mpr h)]
  obtain ⟨st, irq⟩ := setChg_shown (s := s.setPmu fun p => { p with charge := none }) (c := chgDone) (by decide)
  refine ⟨_, command, st, by rw [pmu_setChg]; rfl, irq (by rw [rd_setPmu, h]; decide)⟩

theorem chargeRestart_answers (s : State) (vbat : BitVec 16) (h : s.rd PMU_CHG_ST = chgDone)
    (hv : vbat.toNat ≤ s.rd BGA_NCELL * (s.rd PMU_CHG_VCELL - s.rd PMU_CHG_RECH)) :
    Answers (.chargeRestart vbat) s fun t =>
      t.rd PMU_CHG_ST = (if s.pmu.ntcOut = true then chgTemp else chgCurrent) ∧ t.pmu.charge = some s.clk ∧
      bit (t.rd (IRQ_RAW 0x0E8)) 4 = true := by
  have command : exec (.chargeRestart vbat) s = .next (s.wr PMU_VBAT_MV vbat.toNat).chgBegin := by
    change execChargeRestart vbat s = _
    rw [execChargeRestart, if_neg]
    rintro (off | high)
    · exact off h
    · omega
  have pmu : (s.wr PMU_VBAT_MV vbat.toNat).pmu = s.pmu := part_of_except (State.wr_same 1 rfl _ _ _) .pmu rfl
  have clk : (s.wr PMU_VBAT_MV vbat.toNat).clk = s.clk := part_of_except (State.wr_same 1 rfl _ _ _) .clk rfl
  have begun : (s.wr PMU_VBAT_MV vbat.toNat).chgBegin =
      ((s.wr PMU_VBAT_MV vbat.toNat).setPmu fun p => { p with charge := some s.clk }).setChg
        (if s.pmu.ntcOut then chgTemp else chgCurrent) := by
    unfold State.chgBegin
    rw [pmu, clk]
  obtain ⟨st, irq⟩ := setChg_shown (s := (s.wr PMU_VBAT_MV vbat.toNat).setPmu fun p => { p with charge := some s.clk })
    (c := if s.pmu.ntcOut then chgTemp else chgCurrent) (by split <;> decide)
  refine ⟨_, command.trans (congrArg _ begun), st, by rw [pmu_setChg]; rfl, irq ?_⟩
  rw [rd_setPmu, rd_wr_free (by decide), h]
  split <;> decide

theorem chargeTemp_answers (s : State) (ratio : Byte) :
    (ratio.toNat < s.rd PMU_NTC_HOT ∨ s.rd PMU_NTC_COLD < ratio.toNat ∨ 250 < ratio.toNat →
      s.rd PMU_CHG_ST = chgCurrent ∨ s.rd PMU_CHG_ST = chgVoltage →
      Answers (.chargeTemp ratio) s fun t => t.rd PMU_CHG_ST = chgTemp ∧ bit (t.rd (IRQ_RAW 0x0E8)) 4 = true) ∧
    (s.rd PMU_NTC_HOT ≤ ratio.toNat → ratio.toNat ≤ s.rd PMU_NTC_COLD → ratio.toNat ≤ 250 →
      s.rd PMU_CHG_ST = chgTemp →
      Answers (.chargeTemp ratio) s fun t => t.rd PMU_CHG_ST = chgCurrent) := by
  have shown (out : Bool) (g : Fld) : (s.setPmu fun p => { p with ntcOut := out }).rd g = s.rd g := rd_setPmu s _ g
  refine ⟨fun bad st => ?_, fun hot cold off st => ?_⟩
  · have out : (decide (ratio.toNat < s.rd PMU_NTC_HOT) || decide (s.rd PMU_NTC_COLD < ratio.toNat) ||
        decide (250 < ratio.toNat)) = true := by
      rcases bad with bad | bad | bad <;> simp [bad]
    have command : exec (.chargeTemp ratio) s =
        .next ((s.setPmu fun p => { p with ntcOut := true }).setChg chgTemp) := by
      change execChargeTemp ratio s = _
      unfold execChargeTemp
      dsimp only
      rw [out, shown, if_pos]
      rcases st with st | st <;> rw [st] <;> decide
    obtain ⟨shown', irq⟩ := setChg_shown (s := s.setPmu fun p => { p with ntcOut := true }) (c := chgTemp) (by decide)
    refine ⟨_, command, shown', irq ?_⟩
    rw [shown]
    rcases st with st | st <;> rw [st] <;> decide
  · have inside : (decide (ratio.toNat < s.rd PMU_NTC_HOT) || decide (s.rd PMU_NTC_COLD < ratio.toNat) ||
        decide (250 < ratio.toNat)) = false := by
      simp [not_lt.mpr hot, not_lt.mpr cold, not_lt.mpr off]
    have command : exec (.chargeTemp ratio) s =
        .next ((s.setPmu fun p => { p with ntcOut := false }).setChg chgCurrent) := by
      change execChargeTemp ratio s = _
      unfold execChargeTemp
      dsimp only
      rw [inside, shown, st]
      rfl
    exact ⟨_, command, (setChg_shown (by decide)).1⟩

theorem chargeTimeout_answers (s : State) (c : Nat) (h : s.pmu.charge = some c) (hp : s.rd CTF_PERIOD ≠ 0) :
    Answers .chargeTimeout s fun t =>
      t.rd PMU_CHG_ST = chgFault ∧ t.pmu.charge = none ∧ c + msTicks (3600000 * s.rd PMU_CHG_TMAX) ≤ t.clk := by
  have command : exec .chargeTimeout s = .next
      (((s.waitUntil (c + msTicks (3600000 * s.rd PMU_CHG_TMAX))).setPmu fun p => { p with charge := none }).setChg
        chgFault) := by
    change execChargeTimeout s = _
    unfold execChargeTimeout
    rw [h]
  have late := waitUntil_clk hp (c + msTicks (3600000 * s.rd PMU_CHG_TMAX))
  generalize s.waitUntil (c + msTicks (3600000 * s.rd PMU_CHG_TMAX)) = v at command late
  refine ⟨_, command, (setChg_shown (by decide)).1, by rw [pmu_setChg]; rfl, ?_⟩
  rw [part_of_except (State.setChg_same 1 rfl _ _) .clk rfl]
  exact late

open Sys2Proof.Machine Sys2Proof.Machine.Reg

/-- Settles O49. -/
theorem auxoutChargerComplete : Obligations.AuxoutChargerComplete := by
  unfold Obligations.AuxoutChargerComplete
  exact ⟨auxAttempt_answers, fun s mv h hp up => auxAttemptCheck_answers s mv h hp up,
    fun s mv n h fails hn => auxDrop_answers s mv n h fails hn, auxGoodHold_answers,
    fun s w h on b0 => pmuAuxRetry_answers s w h on b0,
    fun s w h off b3 up level => pmuAuxEn_starts s w h off b3 up level,
    fun s w h on v b3 => pmuAuxEn_stops s w h on v b3, chargeDone_answers,
    fun s vbat h hv => chargeRestart_answers s vbat h hv, chargeTemp_answers,
    fun s c h hp => chargeTimeout_answers s c h hp⟩

end Sys2Proof.Machine

/-! ## The supply path, the pack cut-off and the ladder (O48, O50, O51) -/

namespace Sys2Proof.Machine

open Reg

set_option autoImplicit false

/-- The state that a command answers; without a next state, the state it was given. -/
def State.after (s : State) (c : Instr) : State :=
  match exec c s with
  | .next t => t
  | _ => s

theorem Answers.after {c : Instr} {s : State} {P : State → Prop} (h : Answers c s P) : P (s.after c) := by
  obtain ⟨t, command, holds⟩ := h
  have next : s.after c = t := by
    unfold State.after
    rw [command]
  exact next ▸ holds

/-- A device at D2 on the pack, its loss not settled yet, that holds one pending sweep and would store that sweep's
result at `place`. R399 gives the store 16 places; nothing in the state bounds `swc.next` by 16. -/
def overrun (place : Nat) : State :=
  let s := (State.reset.wr MON_LVL 2).wr PMU_PST pstOnPack
  { s with
    swc := { s.swc with next := place, pending := [{ id := 5, kind := 1, head := 0 }] },
    mon := { s.mon with lost := true },
    ctf := { s.ctf with seeded := true, cyc := 1 } }

/-- The identifier of a result stored at place 5,074 falls on PMU_PST. -/
theorem overrun_pst : ((overrun 5074).after (.vinPresent 12000#16 0#16)).pst = pstStart := by decide +kernel

/-- Refutes O48: VIN_PRESENT settles the loss first, and the entry to D3 stores the pending sweep's result at place
5,074, beyond the 16 places of R399, where its identifier 5 reads as the state CUT_OFF. VIN then starts the device
afresh where the statement has ON_PACK lead to ON_VIN. -/
theorem not_supplyPathComplete : ¬ Obligations.SupplyPathComplete := by
  intro h
  obtain ⟨-, present, -⟩ := h
  have answer := (present (overrun 5074) 12000#16 0#16 (by decide) (by decide) (by decide)).1 (by decide)
  obtain ⟨-, -, -, -, leads, -⟩ := answer.after
  have onVin := leads (Or.inl (by decide))
  exact absurd (overrun_pst.symm.trans onVin) (by decide)

/-- The low stamp word of a result stored at place 5,074 falls on PMU_VIN_MV and PMU_VBAT_MV. -/
theorem overrun_vbat : ((overrun 5074).after (.hardCutoff 0#16)).rd PMU_VBAT_MV = 1 := by decide +kernel

/-- Refutes O50: HARD_CUTOFF shows the voltage 0 and then settles the loss; the entry to D3 stores the pending sweep's
result at place 5,074, beyond the 16 places of R399, and the stamp of cycle 1 puts 1 into PMU_VBAT_MV. -/
theorem not_cutoffKilnComplete : ¬ Obligations.CutoffKilnComplete := by
  intro h
  obtain ⟨-, -, -, hard, -⟩ := h
  have answer := hard (overrun 5074) 0#16 (Or.inl (by decide)) (by decide) (by decide)
  obtain ⟨-, -, shown, -⟩ := answer.after
  exact absurd (overrun_vbat.symm.trans shown) (by decide)

/-- The identifier of a result stored at place 6,103 falls on MON_DEGN. -/
theorem overrun_degn : ((overrun 6103).after .degradeDescent).rd MON_DEGN = 6 := by decide +kernel

/-- Refutes O51: the descent that VIN loss asks for enters D3, which stores the pending sweep's result at place 6,103,
beyond the 16 places of R399. Its identifier 5 falls on MON_DEGN before the transition is counted there, so that
the count reads 6 after its first transition. -/
theorem not_ladderComplete : ¬ Obligations.LadderComplete := by
  intro h
  obtain ⟨-, -, -, -, descent, -⟩ := h
  have answer := (descent (overrun 6103)).1 (by decide) (by decide)
  obtain ⟨⟨-, -, counted, -⟩, -⟩ := answer.after
  exact absurd (overrun_degn.symm.trans counted) (by decide)

end Sys2Proof.Machine

/-! ## Sessions of the host interfaces (O54) -/

namespace Sys2Proof.Machine

open Reg

set_option autoImplicit false

/-! ### The CRC of a request -/

theorem crc16Step_lt {c : Nat} (h : c < 2 ^ 16) (hi : 0x8000 ≤ c) : (2 * c) ^^^ 0x11021 < 2 ^ 16 := by
  refine Nat.lt_pow_two_of_testBit _ fun i hi16 => ?_
  rw [Nat.testBit_xor]
  obtain rfl | above := Nat.eq_or_lt_of_le hi16
  · have top : (2 * c).testBit 16 = true := by
      rw [Nat.testBit_eq_decide_div_mod_eq, decide_eq_true_eq]
      omega
    rw [top, show Nat.testBit 0x11021 16 = true by decide]
    rfl
  · have past17 : 2 ^ 17 ≤ 2 ^ i := Nat.pow_le_pow_right (by decide) above
    rw [Nat.testBit_lt_two_pow (by omega), Nat.testBit_lt_two_pow (by omega)]
    rfl

theorem crc16Bits_lt (n : Nat) {c : Nat} (h : c < 2 ^ 16) : crc16Bits n c < 2 ^ 16 := by
  induction n generalizing c with
  | zero => exact h
  | succ n ih =>
    rw [crc16Bits]
    split
    next hi => exact ih (crc16Step_lt h hi)
    next lo => exact ih (by omega)

theorem crc16Over_lt (l : List Byte) {c : Nat} (h : c < 2 ^ 16) : crc16Over c l < 2 ^ 16 := by
  induction l generalizing c with
  | nil => exact h
  | cons b l ih =>
    have byte := b.isLt
    exact ih (crc16Bits_lt 8 (Nat.xor_lt_two_pow h (by omega)))

theorem crc16_lt (l : List Byte) : crc16 l < 2 ^ 16 := crc16Over_lt l (by decide)

/-! ### A request of one header -/

/-- A request of Table 23-2 as HSP hands it on. -/
def hspFrame (op ses a cnt : Nat) (payload : List Byte) : Request := ⟨1, frameOf op ses a cnt payload, 0⟩

theorem frameOf_length (op ses a cnt : Nat) (p : List Byte) : (frameOf op ses a cnt p).length = 8 + p.length := by
  simp only [frameOf, beBytes, List.length_append, List.length_reverse, leBytes_length, List.length_map,
    List.length_cons, List.length_nil]

theorem toNat_byte {n : Nat} (h : n < 256) : (BitVec.ofNat 8 n).toNat = n := Nat.mod_eq_of_lt h

section
variable {op ses a cnt : Nat} (p : List Byte)

theorem hspFrame_op (h : op < 256) : (hspFrame op ses a cnt p).op = op := toNat_byte h
theorem hspFrame_ses (h : ses < 256) : (hspFrame op ses a cnt p).ses = ses := toNat_byte h
theorem hspFrame_cnt (h : cnt < 256) : (hspFrame op ses a cnt p).cnt = cnt := toNat_byte h

theorem hspFrame_byte2 : (hspFrame op ses a cnt p).byte 2 = a % 256 := toNat_byte (Nat.mod_lt _ (by decide))
theorem hspFrame_byte3 : (hspFrame op ses a cnt p).byte 3 = a / 256 % 256 := toNat_byte (Nat.mod_lt _ (by decide))

theorem hspFrame_crcOk : (hspFrame op ses a cnt p).crcOk = true := by
  have long : 8 ≤ (hspFrame op ses a cnt p).bytes.length := by
    rw [hspFrame, frameOf_length]
    exact Nat.le_add_right 8 _
  have header : (hspFrame op ses a cnt p).bytes.take 6 =
    [op, ses, a % 256, a / 256 % 256, a / 65536 % 256, cnt].map (BitVec.ofNat 8) := rfl
  have crc := crc16_lt ((hspFrame op ses a cnt p).bytes.take 6)
  have high : (hspFrame op ses a cnt p).byte 6 = crc16 ((hspFrame op ses a cnt p).bytes.take 6) / 256 % 256 := by
    rw [header]
    rfl
  have low : (hspFrame op ses a cnt p).byte 7 = crc16 ((hspFrame op ses a cnt p).bytes.take 6) % 256 := by
    rw [header]
    rfl
  rw [Request.crcOk, high, low, Bool.and_eq_true, decide_eq_true_eq, beq_iff_eq]
  exact ⟨long, by omega⟩

end

set_option autoImplicit false

/-! ### Requests of HSP with nothing addressed -/

/-- The state in which HSP has sent the reply `r` to a request of opcode `op` in session `n`. -/
def State.hspReplied (u : State) (op n : Nat) (r : Reply) : State :=
  (u.noteReply r).send (.host 1) (0xA5 :: byteNats (respHead (op + 128) n (codeOf r.code) r.done ++ r.data))

section
variable (u : State) (op n : Nat) (r : Reply)

theorem hspReplied_same : (u.hspReplied op n r).except 1536 = u.except 1536 :=
  (State.send_same 1536 rfl _ _ _).trans (State.noteReply_same 1536 rfl _ _)

@[simp] theorem out_hspReplied :
    (u.hspReplied op n r).out = u.out ++ [hspAnswer op n r.code r.done r.data] := rfl
@[simp] theorem code_hspReplied : (u.hspReplied op n r).resp.code = r.code := rfl
@[simp] theorem done_hspReplied : (u.hspReplied op n r).resp.done = r.done := rfl
@[simp] theorem rd_hspReplied (f : Fld) : (u.hspReplied op n r).rd f = u.rd f :=
  rd_of_except (hspReplied_same u op n r) rfl f
@[simp] theorem on_hspReplied (f : Fld) : (u.hspReplied op n r).on f = u.on f :=
  congrArg (· == 1) (rd_hspReplied u op n r f)
@[simp] theorem hif_hspReplied : (u.hspReplied op n r).hif = u.hif := rfl
@[simp] theorem session_hspReplied (i k : Nat) : (u.hspReplied op n r).session? i k = u.session? i k := rfl
@[simp] theorem events_hspReplied : (u.hspReplied op n r).events = u.events := rfl
@[simp] theorem clk_hspReplied : (u.hspReplied op n r).clk = u.clk := rfl

theorem hspReplied_frame : SameBut [.resp, .out] u (u.hspReplied op n r) :=
  sameBut_of_except (hspReplied_same u op n r)

end

/-- A reply with a code alone leaves all but the record of the response and the output. -/
theorem hspRefused_replied (s : State) (op n : Nat) (c : Status) : HspRefused s
    (s.hspReplied op n { code := c }) op n c :=
  ⟨rfl, rfl, rfl, hspReplied_frame s op n _⟩

/-- HSP hands a request of its own length on and sends the reply. -/
theorem hostFrame_hsp {s : State} {op n a cnt : Nat} {p : List Byte} (runs : s.pageRuns 0x104 = true)
    (hop : op ∈ hostOps) (hn : n < 256) (need : (hspFrame op n a cnt p).need = 8 + p.length) :
    s.hostFrame op (hspReq op n a cnt p) =
      ((s.request (hspFrame op n a cnt p) 0).2.hspReplied op n (s.request (hspFrame op n a cnt p) 0).1) := by
  have small : ∀ o ∈ hostOps, o < 128 ∧ (o + 128) % 256 ||| 128 = o + 128 := by decide
  obtain ⟨below, opcode⟩ := small op hop
  have serialLink : (hspReq op n a cnt p).iface.val + 1 ≠ ifEth := show 0 + 1 ≠ 2 by decide
  have byte0 : (((hspReq op n a cnt p).bytes).getD 0 0).toNat = op := toNat_byte (by omega)
  have up : s.ifaceRuns 1 = true := by
    rw [State.ifaceRuns, show ifacePage 1 = 0x104 from rfl, runs]
    rfl
  have length : (hspFrame op n a cnt p).bytes.length = 8 + p.length := frameOf_length ..
  have whole : ((hspFrame op n a cnt p).iface == ifHsp && decide ((hspFrame op n a cnt p).bytes.length <
      (if (hspFrame op n a cnt p).bytes.length < 8 then 8 else (hspFrame op n a cnt p).need))) = false := by
    rw [length, need, if_neg (by omega), Bool.and_eq_false_iff]
    exact Or.inr (decide_eq_false (Nat.lt_irrefl _))
  have kept : ({ hspFrame op n a cnt p with
      bytes := (hspFrame op n a cnt p).bytes.take (hspFrame op n a cnt p).need } : Request) =
      hspFrame op n a cnt p := by
    rw [need, ← length, List.take_length]
  have serial : s.hostFrame op (hspReq op n a cnt p) = s.serialFrame (hspFrame op n a cnt p) := by
    unfold State.hostFrame
    dsimp only
    rw [if_neg serialLink, byte0,
      if_neg (fun h => h.elim (fun off => absurd up (off ▸ Bool.false_ne_true)) (fun other => other.1 rfl)),
      if_neg serialLink]
    rfl
  rw [serial]
  unfold State.serialFrame
  dsimp only
  rw [if_neg (by rw [whole]; exact Bool.false_ne_true), if_pos (show (hspFrame op n a cnt p).iface = ifHsp from rfl),
    kept]
  unfold State.hspReplied Reply.bytes
  rw [hspFrame_op p (by omega), hspFrame_ses p hn, opcode]
  rfl

/-- A request whose CRC, session and form hold is performed. -/
theorem request_performed {s : State} {op n a cnt : Nat} {p : List Byte} {seq : Nat}
    (session : op ≠ opDiscover → s.sessionCheck (hspFrame op n a cnt p) = .ok) (hop : op < 256)
    (form : (hspFrame op n a cnt p).formCheck = .ok) :
    s.request (hspFrame op n a cnt p) seq = s.performFrame (hspFrame op n a cnt p) seq := by
  have check : (if (hspFrame op n a cnt p).op = opDiscover then Status.ok
      else s.sessionCheck (hspFrame op n a cnt p)) = .ok := by
    rw [hspFrame_op p hop]
    split
    next => rfl
    next other => exact session other
  unfold State.request
  dsimp only
  rw [hspFrame_crcOk, if_neg (show ¬((!true) = true) by decide), check, if_neg (by decide), if_neg (fun h => h rfl),
    if_neg (fun h => h form)]

/-- A request of OPEN, PROVE or DISCOVER addresses nothing, and its form holds. -/
theorem formCheck_free {op n a : Nat} (p : List Byte) (hop : op = opOpen ∨ op = opProve ∨ op = opDiscover) :
    (hspFrame op n a 0 p).formCheck = .ok := by
  obtain ⟨known, words, locks⟩ : op ∈ hostOps ∧ (op ≠ opRead ∧ op ≠ opWrite) ∧ op ≠ opLock := by
    obtain rfl | rfl | rfl := hop <;> decide
  have below : op < 256 := by
    obtain rfl | rfl | rfl := hop <;> decide
  unfold Request.formCheck
  dsimp only
  rw [hspFrame_op p below, hspFrame_cnt p (show 0 < 256 by decide)]
  simp [known, words, locks]

/-- OPEN and PROVE name a session of HSP and need none that is open. -/
theorem sessionCheck_free {s : State} {op n a : Nat} (p : List Byte) (hn : n < 8) (hop : op = opOpen ∨ op = opProve) :
    s.sessionCheck (hspFrame op n a 0 p) = .ok := by
  have below : op < 256 := by
    obtain rfl | rfl := hop <;> decide
  have count : sessionCount (hspFrame op n a 0 p).iface = 8 := rfl
  unfold State.sessionCheck
  rw [hspFrame_ses p (by omega), count, if_neg (by omega), hspFrame_op p below, if_pos hop]

theorem openSession_command {s : State} {n a : Nat} (runs : s.pageRuns 0x104 = true) (hn : n < 8) :
    exec (.openSession (hspReq opOpen n a 0 [])) s =
      .next ((s.openFrame (hspFrame opOpen n a 0 [])).2.hspReplied opOpen n
        (s.openFrame (hspFrame opOpen n a 0 [])).1) := by
  have performed : s.request (hspFrame opOpen n a 0 []) 0 = s.openFrame (hspFrame opOpen n a 0 []) := by
    rw [request_performed (fun _ => sessionCheck_free [] hn (Or.inl rfl)) (by decide) (formCheck_free [] (Or.inl rfl))]
    unfold State.performFrame
    rw [if_pos (hspFrame_op [] (by decide))]
  exact performed ▸ congrArg Host.Outcome.next (hostFrame_hsp runs (by decide) (by omega) rfl)

theorem prove_command {s : State} {n : Nat} {tag : List Byte} (runs : s.pageRuns 0x104 = true) (hn : n < 8)
    (hlen : tag.length = 16) :
    exec (.prove (hspReq opProve n 0 0 tag)) s =
      .next ((s.proveFrame (hspFrame opProve n 0 0 tag) 0).2.hspReplied opProve n
        (s.proveFrame (hspFrame opProve n 0 0 tag) 0).1) := by
  have performed : s.request (hspFrame opProve n 0 0 tag) 0 = s.proveFrame (hspFrame opProve n 0 0 tag) 0 := by
    rw [request_performed (fun _ => sessionCheck_free tag hn (Or.inr rfl)) (by decide)
      (formCheck_free tag (Or.inr (Or.inl rfl)))]
    unfold State.performFrame
    rw [hspFrame_op tag (by decide), if_neg (by decide), if_pos rfl]
  have need : (hspFrame opProve n 0 0 tag).need = 8 + tag.length := by
    rw [Request.need, hspFrame_op tag (by decide), hlen]
    rfl
  exact performed ▸ congrArg Host.Outcome.next (hostFrame_hsp runs (by decide) (by omega) need)

theorem discover_command {s : State} {n : Nat} (runs : s.pageRuns 0x104 = true) (hn : n < 256) :
    exec (.discover (hspReq opDiscover n 0 0 [])) s =
      .next (s.hspReplied opDiscover n { code := .ok, data := s.discoverBytes }) := by
  have performed : s.request (hspFrame opDiscover n 0 0 []) 0 =
      ({ code := .ok, data := s.discoverBytes }, s) := by
    rw [request_performed (fun other => absurd rfl other) (by decide) (formCheck_free [] (Or.inr (Or.inr rfl)))]
    unfold State.performFrame
    rw [hspFrame_op [] (by decide), if_neg (by decide), if_neg (by decide), if_pos rfl]
  have command : exec (.discover (hspReq opDiscover n 0 0 [])) s = .next _ :=
    congrArg Host.Outcome.next (hostFrame_hsp runs (by decide) hn rfl)
  rw [performed] at command
  exact command

set_option autoImplicit false

/-! ### The sessions shown -/

/-- The sum of a bit per number below `m`. -/
def bitSum (f : Nat → Bool) (m : Nat) : Nat := (List.range m).foldl (fun a n => a + b2n (f n) * 2 ^ n) 0

theorem bitSum_succ (f : Nat → Bool) (m : Nat) : bitSum f (m + 1) = bitSum f m + b2n (f m) * 2 ^ m := by
  rw [bitSum, List.range_succ, List.foldl_append]
  rfl

theorem bitSum_lt (f : Nat → Bool) (m : Nat) : bitSum f m < 2 ^ m := by
  induction m with
  | zero => exact Nat.one_pos
  | succ m ih =>
    have one : b2n (f m) * 2 ^ m ≤ 1 * 2 ^ m := Nat.mul_le_mul_right _ (by cases f m <;> decide)
    rw [bitSum_succ, Nat.pow_succ]
    omega

theorem testBit_bitSum (f : Nat → Bool) {m n : Nat} (h : n < m) : (bitSum f m).testBit n = f n := by
  induction m with
  | zero => exact absurd h (Nat.not_lt_zero n)
  | succ m ih =>
    rw [bitSum_succ, Nat.add_comm, Nat.mul_comm, Nat.testBit_two_pow_mul_add _ (bitSum_lt f m)]
    split
    next below => exact ih below
    next top =>
      obtain rfl : n = m := by omega
      rw [Nat.sub_self]
      cases f n <;> rfl

/-- Whether session `n` of an interface is open, and what its page shows of it. -/
def State.openedAt (s : State) (i n : Nat) : Bool :=
  match s.session? i n with
  | some x => x.isOpen
  | none => false

def State.tcAt (s : State) (i n : Nat) : Nat :=
  match s.session? i n with
  | some x => if x.isOpen then x.tc else 0
  | none => 0

def State.slotAt (s : State) (i n : Nat) : Nat :=
  match s.session? i n with
  | some x => if x.isOpen then x.slot else 0
  | none => 0

/-- The words that show one session of HSP. -/
def State.showHsp (s t : State) (n : Nat) : State := (t.wr (HSP_S_TC n) (s.tcAt 1 n)).wr (HSP_S_SLOT n) (s.slotAt 1 n)

/-- The words that show one session of I2T. -/
def State.showI2t (s t : State) (n : Nat) : State :=
  (t.wr (I2T_S_TC n) (s.tcAt 3 n)).wr (I2T_S_OPEN n) (b2n (s.openedAt 3 n))

theorem hifShow_eq (s : State) :
    s.hifShow = ((List.range 2).foldl s.showI2t ((List.range 8).foldl s.showHsp
      (s.wr HSP_OPEN (bitSum (s.openedAt 1) 8)))).wr ETH_NSES
        (s.hif.sessions.filter fun x => x.iface == ifEth && x.isOpen).length := rfl

/-- The fields that show sessions. -/
def showFlds : List Fld :=
  [HSP_OPEN, I2T_S_TC 0, I2T_S_OPEN 0, I2T_S_TC 1, I2T_S_OPEN 1, ETH_NSES] ++
    (List.range 8).map HSP_S_TC ++ (List.range 8).map HSP_S_SLOT

/-- A fold whose steps keep a field keeps it. -/
theorem RdKept.foldl_mem {l : List Fld} {α : Type} {g : State → α → State} {xs : List α}
    (h : ∀ x ∈ xs, ∀ u, RdKept l u (g u x)) (s : State) : RdKept l s (xs.foldl g s) := by
  induction xs generalizing s with
  | nil => exact .refl l s
  | cons x xs ih =>
    exact (h x List.mem_cons_self s).trans (ih (fun y hy => h y (List.mem_cons_of_mem x hy)) (g s x))

theorem showI2t_kept (s t : State) :
    RdKept [I2T_S_TC 0, I2T_S_OPEN 0, I2T_S_TC 1, I2T_S_OPEN 1] t ((List.range 2).foldl s.showI2t t) :=
  .foldl_mem (fun n hn u => by
    have listed : ∀ k : Fin 2, [I2T_S_TC 0, I2T_S_OPEN 0, I2T_S_TC 1, I2T_S_OPEN 1].contains (I2T_S_TC k) = true ∧
      [I2T_S_TC 0, I2T_S_OPEN 0, I2T_S_TC 1, I2T_S_OPEN 1].contains (I2T_S_OPEN k) = true := by decide
    obtain ⟨tc, shown⟩ := listed ⟨n, List.mem_range.mp hn⟩
    exact ((RdKept.refl _ u).wr _ tc).wr _ shown) t

theorem showHsp_kept (s t : State) :
    RdKept ((List.range 8).map HSP_S_TC ++ (List.range 8).map HSP_S_SLOT) t ((List.range 8).foldl s.showHsp t) :=
  .foldl_mem (fun n hn u => by
    have fits : n < 8 := List.mem_range.mp hn
    have listed : ∀ k : Fin 8, ((List.range 8).map HSP_S_TC ++ (List.range 8).map HSP_S_SLOT).contains (HSP_S_TC k) =
      true ∧
      ((List.range 8).map HSP_S_TC ++ (List.range 8).map HSP_S_SLOT).contains (HSP_S_SLOT k) = true := by decide
    obtain ⟨tc, slot⟩ := listed ⟨n, fits⟩
    exact ((RdKept.refl _ u).wr _ tc).wr _ slot) t

theorem hifShow_kept (s : State) : RdKept showFlds s s.hifShow := by
  rw [hifShow_eq]
  exact ((((RdKept.refl _ s).wr _ (by decide)).trans ((showHsp_kept s _).mono (by decide))).trans
    ((showI2t_kept s _).mono (by decide))).wr _ (by decide)

theorem hifShow_open (s : State) {n : Nat} (hn : n < 8) : bit (s.hifShow.rd HSP_OPEN) n = s.openedAt 1 n := by
  rw [hifShow_eq, rd_wr_free (by decide), showI2t_kept s _ _ (by decide), showHsp_kept s _ _ (by decide),
    rd_wr_lt rfl (bitSum_lt _ 8), bit_eq_testBit, testBit_bitSum _ hn]

/-- A fold that reaches `n` once leaves what its step at `n` writes. -/
theorem foldl_range_shows {g : State → Nat → State} {f : Fld} {v m n : Nat} (hn : n < m)
    (sets : ∀ u, (g u n).rd f = v) (keeps : ∀ k, n < k → k < m → ∀ u, (g u k).rd f = u.rd f) (s : State) :
    ((List.range m).foldl g s).rd f = v := by
  induction m with
  | zero => exact absurd hn (Nat.not_lt_zero n)
  | succ m ih =>
    rw [List.range_succ, List.foldl_append]
    obtain rfl | below := Nat.eq_or_lt_of_le (Nat.le_of_lt_succ hn)
    · exact sets _
    · exact (keeps m below (Nat.lt_succ_self m) _).trans
        (ih below fun k after upto => keeps k after (Nat.lt_succ_of_lt upto))

theorem hspWords_free : ∀ n k : Fin 8, n < k →
    (HSP_S_TC k).free (HSP_S_TC n) = true ∧ (HSP_S_SLOT k).free (HSP_S_TC n) = true ∧
    (HSP_S_TC k).free (HSP_S_SLOT n) = true ∧ (HSP_S_SLOT k).free (HSP_S_SLOT n) = true := by decide

theorem hspWord_free : ∀ n : Fin 8, (HSP_S_SLOT n).free (HSP_S_TC n) = true := by decide

theorem hifShow_hsp (s : State) {n : Nat} (hn : n < 8) (htc : s.tcAt 1 n < 64) (hslot : s.slotAt 1 n < 32) :
    s.hifShow.rd (HSP_S_TC n) = s.tcAt 1 n ∧ s.hifShow.rd (HSP_S_SLOT n) = s.slotAt 1 n := by
  have after : ∀ k : Fin 8, ETH_NSES.free (HSP_S_TC k) = true ∧ ETH_NSES.free (HSP_S_SLOT k) = true ∧
      [I2T_S_TC 0, I2T_S_OPEN 0, I2T_S_TC 1, I2T_S_OPEN 1].all (fun f => f.free (HSP_S_TC k)) = true ∧
      [I2T_S_TC 0, I2T_S_OPEN 0, I2T_S_TC 1, I2T_S_OPEN 1].all (fun f => f.free (HSP_S_SLOT k)) = true := by decide
  obtain ⟨nses, nses', i2t, i2t'⟩ := after ⟨n, hn⟩
  have others (k : Nat) (hk : n < k) (upto : k < 8) := hspWords_free ⟨n, hn⟩ ⟨k, upto⟩ hk
  rw [hifShow_eq, rd_wr_free nses, rd_wr_free nses', showI2t_kept s _ _ i2t, showI2t_kept s _ _ i2t']
  constructor
  · refine foldl_range_shows hn (fun u => ?_) (fun k hk upto u => ?_) _
    · rw [State.showHsp, rd_wr_free (hspWord_free ⟨n, hn⟩), rd_wr_lt rfl htc]
    · obtain ⟨tc, slot, -, -⟩ := others k hk upto
      rw [State.showHsp, rd_wr_free slot, rd_wr_free tc]
  · refine foldl_range_shows hn (fun u => ?_) (fun k hk upto u => ?_) _
    · rw [State.showHsp, rd_wr_lt rfl hslot]
    · obtain ⟨-, -, tc, slot⟩ := others k hk upto
      rw [State.showHsp, rd_wr_free slot, rd_wr_free tc]

set_option autoImplicit false

/-! ### Sessions that end and open -/

theorem hif_hifShow (s : State) : s.hifShow.hif = s.hif := part_of_except (State.hifShow_same 1 rfl s) .hif rfl

theorem session_hifShow (s : State) (i n : Nat) : s.hifShow.session? i n = s.session? i n := by
  rw [State.session?, hif_hifShow, State.session?]

theorem hif_sessionEvent (s : State) (i : Nat) : (s.sessionEvent i).hif = s.hif :=
  part_of_except (State.sessionEvent_same 1 rfl s i) .hif rfl

theorem session_none_filter (l : List Session) (i n : Nat) :
    (l.filter fun y => !(y.iface == i && y.num == n)).find? (fun y => y.iface == i && y.num == n) = none := by
  rw [List.find?_eq_none]
  intro y hy same
  have other := (List.mem_filter.mp hy).2
  rw [same] at other
  exact absurd other (by decide)

/-- A session of a number that has none is left out, and the rest stay. -/
theorem session_endSession (s : State) (i n : Nat) : (s.endSession i n).session? i n = none := by
  unfold State.endSession
  split
  next none => exact none
  next x found =>
    rw [session_hifShow]
    have kept (u : State) : (if x.isOpen = true then u.sessionEvent i else u).session? i n = u.session? i n := by
      split
      · rw [State.session?, hif_sessionEvent, State.session?]
      · rfl
    rw [kept]
    exact session_none_filter s.hif.sessions i n

/-- The fields that a session's end or opening can write. -/
def sessionFlds : List Fld := IRQ_RAW 0x104 :: IRQ_RAW 0x108 :: showFlds

theorem setHif_kept (l : List Fld) (s : State) (f : HifState → HifState) : RdKept l s (s.setHif f) :=
  .of_rd l fun g => rd_of_except (State.setHif_same 17179869184 rfl s f) rfl g

theorem sessionEvent_kept (s : State) (i : Nat) : RdKept sessionFlds s (s.sessionEvent i) := by
  unfold State.sessionEvent
  split
  · exact .refl _ s
  · unfold ifacePage
    split
    · exact (RdKept.refl _ s).raise _ (by decide)
    · exact absurd rfl ‹¬_›
    · exact (RdKept.refl _ s).raise _ (by decide)

theorem endSession_kept (s : State) (i n : Nat) : RdKept sessionFlds s (s.endSession i n) := by
  unfold State.endSession
  split
  · exact .refl _ s
  · exact ((setHif_kept _ s _).trans (.ite (sessionEvent_kept _ i) (.refl _ _) _)).trans
      ((hifShow_kept _).mono (by decide))

theorem events_endSession (s : State) (i n : Nat) : (s.endSession i n).events = s.events :=
  part_of_except (State.endSession_same 17179869185 rfl s i n) .events rfl

theorem clk_endSession (s : State) (i n : Nat) : (s.endSession i n).clk = s.clk :=
  part_of_except (State.endSession_same 17179869185 rfl s i n) .clk rfl

theorem out_putSession (s : State) (x : Session) : (s.putSession x).out = s.out :=
  part_of_except (State.putSession_same 17179869185 rfl s x) .out rfl

/-- The state with the session `x` in the place of the one of its number, not yet shown. -/
def State.withSession (s : State) (x : Session) : State :=
  (s.endSession x.iface x.num).setHif fun h => { h with sessions := h.sessions ++ [x] }

theorem putSession_eq (s : State) (x : Session) :
    s.putSession x = if x.isOpen then (s.withSession x).hifShow.sessionEvent x.iface else
    (s.withSession x).hifShow := rfl

theorem session_withSession (s : State) (x : Session) : (s.withSession x).session? x.iface x.num = some x := by
  have gone := session_endSession s x.iface x.num
  rw [State.session?] at gone
  change ((s.endSession x.iface x.num).hif.sessions ++ [x]).find? _ = _
  rw [List.find?_append, gone, Option.none_or, List.find?_cons_of_pos]
  rw [beq_self_eq_true, beq_self_eq_true]
  rfl

theorem session_putSession (s : State) (x : Session) : (s.putSession x).session? x.iface x.num = some x := by
  rw [putSession_eq]
  split
  · rw [State.session?, hif_sessionEvent]
    exact (session_hifShow _ _ _).trans (session_withSession s x)
  · exact (session_hifShow _ _ _).trans (session_withSession s x)

section
variable (s : State) {x : Session} (hsp : x.iface = 1) (hopen : x.isOpen = true) (hn : x.num < 8)
include hsp hopen

theorem putSession_event : s.putSession x = (s.withSession x).hifShow.raise 0x104 0 := by
  rw [putSession_eq, if_pos hopen, hsp]
  rfl

include hn

/-- An open session of HSP is shown among the open ones, with the event. -/
theorem putSession_open :
    bit ((s.putSession x).rd HSP_OPEN) x.num = true ∧ bit ((s.putSession x).rd (IRQ_RAW 0x104)) 0 = true := by
  have found : (s.withSession x).session? 1 x.num = some x := hsp ▸ session_withSession s x
  have opened : (s.withSession x).openedAt 1 x.num = true := by
    rw [State.openedAt, found]
    exact hopen
  rw [putSession_event s hsp hopen, rd_raise_free (by decide), hifShow_open _ hn, opened]
  exact ⟨rfl, bit_raise_same _ _ (by decide)⟩

/-- An open session of HSP is shown with its tenant and slot. -/
theorem putSession_words (htc : x.tc < 64) (hslot : x.slot < 32) :
    (s.putSession x).rd (HSP_S_TC x.num) = x.tc ∧ (s.putSession x).rd (HSP_S_SLOT x.num) = x.slot := by
  have found : (s.withSession x).session? 1 x.num = some x := hsp ▸ session_withSession s x
  have tc : (s.withSession x).tcAt 1 x.num = x.tc := by
    rw [State.tcAt, found]
    exact if_pos hopen
  have slot : (s.withSession x).slotAt 1 x.num = x.slot := by
    rw [State.slotAt, found]
    exact if_pos hopen
  obtain ⟨shownTc, shownSlot⟩ := hifShow_hsp (s.withSession x) hn (tc ▸ htc) (slot ▸ hslot)
  have free : ∀ k : Fin 8, (IRQ_RAW 0x104).free (HSP_S_TC k) = true ∧ (IRQ_RAW 0x104).free (HSP_S_SLOT k) = true := by
    decide
  obtain ⟨freeTc, freeSlot⟩ := free ⟨x.num, hn⟩
  rw [putSession_event s hsp hopen, rd_raise_free freeTc, rd_raise_free freeSlot, shownTc, shownSlot]
  exact ⟨tc, slot⟩

end

set_option autoImplicit false

/-! ### OPEN -/

/-- The session that an OPEN on HSP asks for, before its nonce. -/
def State.hspNew (s : State) (n tc k : Nat) : Session :=
  { iface := 1, num := n, tc := tc, slot := k, gen := s.slotGen k, nonce := [], clk := s.clk, peer := 0 }

/-- What bars an OPEN with NOT_OWNER. -/
abbrev State.openBarred (s : State) (tc k : Nat) : Prop :=
  64 ≤ tc ∨ 32 ≤ k ∨ s.tenant tc ≠ tenActive ∨ s.slotOwn k ≠ tc ∨ s.lockedOut 1 = true

section
variable {s : State} {n k tc : Nat}

theorem openFrame_byte2 (ht : tc < 256) : (hspFrame opOpen n (tc + 256 * k) 0 []).byte 2 = tc := by
  rw [hspFrame_byte2, Nat.add_mul_mod_self_left, Nat.mod_eq_of_lt ht]

theorem openFrame_byte3 (ht : tc < 256) (hk : k < 256) : (hspFrame opOpen n (tc + 256 * k) 0 []).byte 3 = k := by
  rw [hspFrame_byte3, Nat.add_mul_div_left _ _ (by decide), Nat.div_eq_of_lt ht, Nat.zero_add, Nat.mod_eq_of_lt hk]

theorem not_recoveryOpen (hr : s.ccx.recovery = false ∨ tc ≠ 0) : ¬(s.ccx.recovery = true ∧ tc = 0 ∧
    (1 : Nat) ≠ ifEth) := by
  rintro ⟨on, zero, -⟩
  exact hr.elim (fun off => absurd on (off ▸ Bool.false_ne_true)) (fun other => other zero)

variable (hn : n < 256) (hk : k < 256) (ht : tc < 256)
include hn hk ht

theorem openFrame_hsp :
    s.openFrame (hspFrame opOpen n (tc + 256 * k) 0 []) =
      if s.ccx.recovery = true ∧ tc = 0 ∧ (1 : Nat) ≠ ifEth then
        ({ code := .ok }, s.putSession { s.hspNew n tc k with isOpen := true, bare := true })
      else if s.openBarred tc k then ({ code := .notOwner }, s)
      else if s.macSlot k = false then ({ code := .cfgInvalid }, s)
      else if s.on SEC_RBGERR = true then ({ code := .integFail }, s)
      else ({ code := .ok, data := (s.randomBytes 16).1 },
        (s.randomBytes 16).2.putSession { s.hspNew n tc k with nonce := (s.randomBytes 16).1 }) := by
  unfold State.openFrame
  dsimp only
  rw [openFrame_byte2 ht, openFrame_byte3 ht hk, hspFrame_ses [] hn]
  rfl

theorem openFrame_recovery (hr : s.ccx.recovery = true) (h0 : tc = 0) :
    s.openFrame (hspFrame opOpen n (tc + 256 * k) 0 []) =
      ({ code := .ok }, s.putSession { s.hspNew n tc k with isOpen := true, bare := true }) := by
  rw [openFrame_hsp hn hk ht, if_pos ⟨hr, h0, by decide⟩]

section
variable (hr : s.ccx.recovery = false ∨ tc ≠ 0)
include hr

theorem openFrame_barred (bar : s.openBarred tc k) :
    s.openFrame (hspFrame opOpen n (tc + 256 * k) 0 []) = ({ code := .notOwner }, s) := by
  rw [openFrame_hsp hn hk ht, if_neg (not_recoveryOpen hr), if_pos bar]

theorem openFrame_noMac (free : ¬s.openBarred tc k) (mac : s.macSlot k = false) :
    s.openFrame (hspFrame opOpen n (tc + 256 * k) 0 []) = ({ code := .cfgInvalid }, s) := by
  rw [openFrame_hsp hn hk ht, if_neg (not_recoveryOpen hr), if_neg free, if_pos mac]

theorem openFrame_opens (free : ¬s.openBarred tc k) (mac : s.macSlot k = true) (rbg : s.on SEC_RBGERR = false) :
    s.openFrame (hspFrame opOpen n (tc + 256 * k) 0 []) =
      ({ code := .ok, data := (s.randomBytes 16).1 },
        (s.randomBytes 16).2.putSession { s.hspNew n tc k with nonce := (s.randomBytes 16).1 }) := by
  rw [openFrame_hsp hn hk ht, if_neg (not_recoveryOpen hr), if_neg free, if_neg (mac ▸ Bool.noConfusion),
    if_neg (rbg ▸ Bool.false_ne_true)]

end

end

theorem not_openBarred {s : State} {tc k : Nat} (h64 : tc < 64) (h32 : k < 32) (act : s.tenant tc = tenActive)
    (own : s.slotOwn k = tc) (lock : s.lockedOut 1 = false) : ¬s.openBarred tc k := by
  rintro (h | h | h | h | h)
  · exact absurd h64 (Nat.not_lt.mpr h)
  · exact absurd h32 (Nat.not_lt.mpr h)
  · exact h act
  · exact h own
  · exact absurd h (lock ▸ Bool.false_ne_true)

theorem openSession_answers (s : State) (n k tc : Nat) (runs : s.pageRuns 0x104 = true) (hn : n < 8) (hk : k < 256)
    (ht : tc < 256) (hr : s.ccx.recovery = false ∨ tc ≠ 0) :
    (tc < 64 → k < 32 → s.tenant tc = tenActive → s.slotOwn k = tc → s.lockedOut 1 = false → s.macSlot k = true →
      s.on SEC_RBGERR = false →
      Answers (.openSession (hspReq opOpen n (tc + 256 * k) 0 [])) s fun t =>
        ∃ x, t.session? 1 n = some x ∧ x.isOpen = false ∧ x.tc = tc ∧ x.slot = k ∧ x.gen = s.slotGen k ∧
          x.nonce = (s.randomBytes 16).1 ∧ x.nonce.length = 16 ∧ x.clk = s.clk ∧
          t.out = s.out ++ [hspAnswer opOpen n .ok 0 x.nonce]) ∧
    (64 ≤ tc ∨ 32 ≤ k ∨ s.tenant tc ≠ tenActive ∨ s.slotOwn k ≠ tc ∨ s.lockedOut 1 = true →
      Answers (.openSession (hspReq opOpen n (tc + 256 * k) 0 [])) s fun t => HspRefused s t opOpen n .notOwner) ∧
    (tc < 64 → k < 32 → s.tenant tc = tenActive → s.slotOwn k = tc → s.lockedOut 1 = false → s.macSlot k = false →
      Answers (.openSession (hspReq opOpen n (tc + 256 * k) 0 [])) s fun t =>
        HspRefused s t opOpen n .cfgInvalid) := by
  have hn' : n < 256 := Nat.lt_trans hn (by decide)
  have command := openSession_command (a := tc + 256 * k) runs hn
  refine ⟨fun h64 h32 act own lock mac rbg => ?_, fun bar => ?_, fun h64 h32 act own lock mac => ?_⟩
  · rw [openFrame_opens hn' hk ht hr (not_openBarred h64 h32 act own lock) mac rbg] at command
    refine ⟨_, command, { s.hspNew n tc k with nonce := (s.randomBytes 16).1 }, ?_, rfl, rfl, rfl, rfl, rfl,
      randomBytes_length s 16, rfl, ?_⟩
    · rw [session_hspReplied]
      exact session_putSession _ { s.hspNew n tc k with nonce := (s.randomBytes 16).1 }
    · rw [out_hspReplied, out_putSession, part_of_except (State.randomBytes_same 2048 rfl s 16) .out rfl]
  · rw [openFrame_barred hn' hk ht hr bar] at command
    exact ⟨_, command, hspRefused_replied s opOpen n .notOwner⟩
  · rw [openFrame_noMac hn' hk ht hr (not_openBarred h64 h32 act own lock) mac] at command
    exact ⟨_, command, hspRefused_replied s opOpen n .cfgInvalid⟩

theorem openSession_recovery (s : State) (n k : Nat) (runs : s.pageRuns 0x104 = true) (hn : n < 8) (hk : k < 256)
    (hr : s.ccx.recovery = true) :
    Answers (.openSession (hspReq opOpen n (256 * k) 0 [])) s fun t =>
      (∃ x, t.session? 1 n = some x ∧ x.isOpen = true ∧ x.bare = true ∧ x.tc = 0) ∧
      bit (t.rd HSP_OPEN) n = true ∧ t.resp.code = .ok := by
  have hn' : n < 256 := Nat.lt_trans hn (by decide)
  have command := openSession_command (s := s) (a := 0 + 256 * k) runs hn
  rw [openFrame_recovery hn' hk (by decide) hr rfl, Nat.zero_add] at command
  obtain ⟨shown, -⟩ := putSession_open s (x := { s.hspNew n 0 k with isOpen := true, bare := true }) rfl rfl hn
  refine ⟨_, command, ⟨{ s.hspNew n 0 k with isOpen := true, bare := true }, ?_, rfl, rfl, rfl⟩, ?_, rfl⟩
  · rw [session_hspReplied]
    exact session_putSession s { s.hspNew n 0 k with isOpen := true, bare := true }
  · rw [rd_hspReplied]
    exact shown

/-! ### PROVE -/

/-- The session found by its number is of that interface and number. -/
theorem session_some {s : State} {i n : Nat} {x : Session} (h : s.session? i n = some x) : x.iface = i ∧ x.num = n := by
  have same := List.find?_some h
  rw [Bool.and_eq_true, beq_iff_eq, beq_iff_eq] at same
  exact same

set_option autoImplicit false

section
variable {s : State} {x : Session} {n : Nat} {tag : List Byte}

theorem proveFrame_none (hn : n < 256) (h : s.session? 1 n = none) (seq : Nat) :
    s.proveFrame (hspFrame opProve n 0 0 tag) seq = ({ code := .timeout }, s) := by
  unfold State.proveFrame
  rw [hspFrame_ses tag hn]
  change (match s.session? 1 n with | none => _ | some x => _) = _
  rw [h]

/-- The open session that a right proof on HSP leaves. -/
def Session.proved (x : Session) : Session := { x with isOpen := true, key := [], seq := none }

variable (hn : n < 256) (h : s.session? 1 n = some x) (closed : x.isOpen = false) (peer : x.peer = 0)
  (len : tag.length = 16)
include hn h closed peer len

/-- PROVE on HSP for a session that is open for proof. -/
theorem proveFrame_hsp :
    s.proveFrame (hspFrame opProve n 0 0 tag) 0 =
      if x.clk + msTicks 1000 < s.clk then ({ code := .timeout }, s.endSession x.iface x.num)
      else if s.slotGen x.slot ≠ x.gen then ({ code := .keyRetired }, s.endSession x.iface x.num)
      else if tag = (hmac (s.slotMat x.slot) (s.proofMessage x)).take 16 then
        ({ code := .ok }, (s.endSession x.iface x.num).putSession x.proved)
      else ({ code := .notOwner }, (s.endSession x.iface x.num).proofFails x) := by
  have other : x.iface ≠ ifEth := by
    rw [(session_some h).1]
    decide
  have source : (x.clk + msTicks 1000 < s.clk ∨ x.peer ≠ (hspFrame opProve n 0 0 tag).src) =
    (x.clk + msTicks 1000 < s.clk) := by
    rw [peer]
    exact propext (or_iff_left fun other => other rfl)
  have payload : ((hspFrame opProve n 0 0 tag).bytes.drop 8).take 16 = tag := by
    rw [← len]
    exact List.take_length
  unfold State.proveFrame
  rw [hspFrame_ses tag hn]
  change (match s.session? 1 n with | none => _ | some x => _) = _
  rw [h]
  dsimp only
  rw [closed, if_neg Bool.false_ne_true, payload, if_neg other, if_neg other]
  simp only [source, Session.proved]

end

set_option autoImplicit false

/-! ### Proofs that fail -/

/-- The failed proofs of the session's interface of the last second (R561). -/
def State.recentFails (s : State) (i : Nat) : List (Nat × Nat) :=
  s.hif.fails.filter fun e => e.1 == i && decide (s.clk < e.2 + msTicks 1000)

/-- The failed proofs that stay on record, with the one at hand. -/
def State.failsNow (s : State) (i : Nat) : List (Nat × Nat) :=
  (s.hif.fails.filter fun e => e.1 != i || decide (s.clk < e.2 + msTicks 1000)) ++ [(i, s.clk)]

theorem failsNow_own (s : State) (i : Nat) : (s.failsNow i).filter (·.1 == i) = s.recentFails i ++ [(i, s.clk)] := by
  have own : (fun e : Nat × Nat => e.1 == i && (e.1 != i || decide (s.clk < e.2 + msTicks 1000))) =
      fun e => e.1 == i && decide (s.clk < e.2 + msTicks 1000) := by
    funext e
    cases h : e.1 == i
    · rw [Bool.false_and, Bool.false_and]
    · rw [bne, h, Bool.not_true, Bool.false_or]
  have last : [(i, s.clk)].filter (·.1 == i) = [(i, s.clk)] := List.filter_cons_of_pos (beq_self_eq_true i)
  rw [State.failsNow, List.filter_append, List.filter_filter, own, last, State.recentFails]

/-- The state in which a failed proof is logged and counted. -/
def State.failNoted (s : State) (x : Session) : State := (s.log 0x5001 x.tc (ifacePage x.iface)).countProof x.iface

theorem hif_failNoted (s : State) (x : Session) : (s.failNoted x).hif = s.hif :=
  part_of_except ((State.countProof_same 257 rfl _ _).trans (State.log_same 257 rfl s _ _ _)) .hif rfl

theorem clk_failNoted (s : State) (x : Session) : (s.failNoted x).clk = s.clk :=
  part_of_except ((State.countProof_same 257 rfl _ _).trans (State.log_same 257 rfl s _ _ _)) .clk rfl

theorem events_failNoted (s : State) (x : Session) :
    (s.failNoted x).events = s.events ++ [⟨0x5001, x.tc, leBytes 8 (ifacePage x.iface)⟩] :=
  part_of_except (State.countProof_same 1 rfl _ _) .events rfl

/-- What a failed proof changes of the interfaces. -/
def failHeld (s : State) (i : Nat) (h : HifState) : HifState :=
  if 3 ≤ ((s.failsNow i).filter (·.1 == i)).length then
    { h with fails := (s.failsNow i).filter (·.1 != i),
             locks := h.locks.filter (·.1 != i) ++ [(i, s.clk + msTicks 10000)] }
  else { h with fails := s.failsNow i }

theorem failsNow_failNoted (s : State) (x : Session) : (s.failNoted x).failsNow x.iface = s.failsNow x.iface := by
  rw [State.failsNow, hif_failNoted, clk_failNoted, State.failsNow]

theorem proofFails_eq (s : State) (x : Session) : s.proofFails x = (s.failNoted x).setHif (failHeld s x.iface) := by
  have held : (s.failNoted x).setHif (failHeld s x.iface) = if 3 ≤ ((s.failsNow x.iface).filter (·.1 == x.iface)).length
      then (s.failNoted x).setHif fun h => { h with
        fails := (s.failsNow x.iface).filter (·.1 != x.iface)
        locks := h.locks.filter (·.1 != x.iface) ++ [(x.iface, s.clk + msTicks 10000)] }
      else (s.failNoted x).setHif fun h => { h with fails := s.failsNow x.iface } := by
    split
    next many =>
      unfold failHeld
      simp only [if_pos many]
    next few =>
      unfold failHeld
      simp only [if_neg few]
  rw [held, ← failsNow_failNoted, ← clk_failNoted s x]
  rfl

theorem sessions_proofFails (s : State) (x : Session) : (s.proofFails x).hif.sessions = s.hif.sessions := by
  rw [proofFails_eq]
  change (failHeld s x.iface (s.failNoted x).hif).sessions = _
  rw [hif_failNoted, failHeld]
  split <;> rfl

theorem session_proofFails (s : State) (x : Session) (i n : Nat) : (s.proofFails x).session? i n = s.session? i n := by
  rw [State.session?, sessions_proofFails, State.session?]

theorem events_proofFails (s : State) (x : Session) :
    (s.proofFails x).events = s.events ++ [⟨0x5001, x.tc, leBytes 8 (ifacePage x.iface)⟩] := by
  rw [proofFails_eq]
  exact events_failNoted s x

theorem clk_proofFails (s : State) (x : Session) : (s.proofFails x).clk = s.clk := by
  rw [proofFails_eq]
  exact clk_failNoted s x

/-- A failed proof on HSP is counted there. -/
theorem proofFails_counted (s : State) {x : Session} (hsp : x.iface = 1) :
    (s.proofFails x).rd HSP_PROVEN = satNat 16 (s.rd HSP_PROVEN + 1) := by
  have counted : s.failNoted x = (s.log 0x5001 x.tc (ifacePage x.iface)).count HSP_PROVEN := by
    rw [State.failNoted, State.countProof, if_pos (show x.iface = ifHsp from hsp)]
  rw [proofFails_eq, counted, rd_of_except (State.setHif_same 17179869184 rfl _ _) rfl, rd_count_same _ _ _ rfl, rd_log]
  rfl

/-- The third failed proof within a second locks the interface for ten. -/
theorem proofFails_locks {s : State} {x : Session} (third : (s.recentFails x.iface).length = 2) :
    (x.iface, s.clk + msTicks 10000) ∈ (s.proofFails x).hif.locks ∧ (s.proofFails x).lockedOut x.iface = true := by
  have many : 3 ≤ ((s.failsNow x.iface).filter (·.1 == x.iface)).length := by
    rw [failsNow_own, List.length_append, third]
    exact Nat.le_refl 3
  have locked : (x.iface, s.clk + msTicks 10000) ∈ (s.proofFails x).hif.locks := by
    rw [proofFails_eq]
    change _ ∈ (failHeld s x.iface (s.failNoted x).hif).locks
    rw [failHeld, if_pos many]
    exact List.mem_append_right _ List.mem_cons_self
  have later : 0 < msTicks 10000 := Nat.mul_pos (show 0 < 10000 * 48000 by decide) (by decide)
  refine ⟨locked, List.any_eq_true.mpr ⟨_, locked, ?_⟩⟩
  rw [clk_proofFails, beq_self_eq_true, Bool.true_and, decide_eq_true_eq]
  exact Nat.lt_add_of_pos_right later

set_option autoImplicit false

/-! ### PROVE (O54) -/

theorem second_eq : 48000 * 1000 * 65536 = msTicks 1000 := by
  unfold msTicks msClocks
  omega

theorem tenSeconds_eq : 48000 * 10000 * 65536 = msTicks 10000 := by
  unfold msTicks msClocks
  omega

/-- An end of a session leaves the failed proofs on record. -/
theorem fails_endSession (s : State) (i n : Nat) : (s.endSession i n).hif.fails = s.hif.fails := by
  unfold State.endSession
  split
  · rfl
  next x found =>
    rw [hif_hifShow]
    split
    · rw [hif_sessionEvent]
      rfl
    · rfl

section
variable {s : State} {x : Session} {n : Nat} {tag : List Byte} (runs : s.pageRuns 0x104 = true) (hn : n < 8)
  (h : s.session? 1 n = some x) (closed : x.isOpen = false) (peer : x.peer = 0) (len : tag.length = 16)
include runs hn h closed peer len

theorem prove_late (late : x.clk + msTicks 1000 < s.clk) :
    Answers (.prove (hspReq opProve n 0 0 tag)) s fun t => t.resp.code = .timeout ∧ t.session? 1 n = none := by
  obtain ⟨iface, num⟩ := session_some h
  have command := prove_command runs hn len
  rw [proveFrame_hsp (Nat.lt_trans hn (by decide)) h closed peer len, if_pos late, iface, num] at command
  exact ⟨_, command, rfl, session_endSession s 1 n⟩

variable (soon : s.clk ≤ x.clk + msTicks 1000) (gen : s.slotGen x.slot = x.gen)
include soon gen

theorem prove_right (hslot : x.slot < 32) (htc : x.tc < 64)
    (right : tag = (hmac (s.slotMat x.slot) (s.proofMessage x)).take 16) :
    Answers (.prove (hspReq opProve n 0 0 tag)) s fun t =>
      (∃ y, t.session? 1 n = some y ∧ y.isOpen = true ∧ y.tc = x.tc ∧ y.slot = x.slot ∧ y.bare = x.bare) ∧
      bit (t.rd HSP_OPEN) n = true ∧ t.rd (HSP_S_TC n) = x.tc ∧ t.rd (HSP_S_SLOT n) = x.slot ∧
      bit (t.rd (IRQ_RAW 0x104)) 0 = true ∧ t.resp.code = .ok := by
  obtain ⟨iface, rfl⟩ := session_some h
  have command := prove_command runs hn len
  rw [proveFrame_hsp (Nat.lt_trans hn (by decide)) h closed peer len, if_neg (Nat.not_lt.mpr soon),
    if_neg (fun other => other gen), if_pos right] at command
  have opens := session_putSession (s.endSession x.iface x.num) x.proved
  obtain ⟨shown, event⟩ := putSession_open (s.endSession x.iface x.num) (x := x.proved) iface rfl hn
  obtain ⟨tenant, slot⟩ := putSession_words (s.endSession x.iface x.num) (x := x.proved) iface rfl hn htc hslot
  refine ⟨_, command, ⟨x.proved, ?_, rfl, rfl, rfl, rfl⟩, ?_, ?_, ?_, ?_, rfl⟩
  · rw [session_hspReplied, ← iface]
    exact opens
  · rw [rd_hspReplied]
    exact shown
  · rw [rd_hspReplied]
    exact tenant
  · rw [rd_hspReplied]
    exact slot
  · rw [rd_hspReplied]
    exact event

theorem prove_wrong (wrong : tag ≠ (hmac (s.slotMat x.slot) (s.proofMessage x)).take 16) :
    Answers (.prove (hspReq opProve n 0 0 tag)) s fun t =>
      t.session? 1 n = none ∧ t.resp.code = .notOwner ∧ Logged s t 0x5001 x.tc 0x104 ∧
      t.rd HSP_PROVEN = satNat 16 (s.rd HSP_PROVEN + 1) ∧
      ((s.recentFails 1).length = 2 → (1, s.clk + msTicks 10000) ∈ t.hif.locks ∧ t.lockedOut 1 = true) := by
  obtain ⟨iface, rfl⟩ := session_some h
  have command := prove_command runs hn len
  rw [proveFrame_hsp (Nat.lt_trans hn (by decide)) h closed peer len, if_neg (Nat.not_lt.mpr soon),
    if_neg (fun other => other gen), if_neg wrong] at command
  refine ⟨_, command, ?_, rfl, ?_, ?_, fun third => ?_⟩
  · rw [session_hspReplied, session_proofFails, iface, session_endSession]
  · rw [Logged, events_hspReplied, events_proofFails, events_endSession, iface]
    rfl
  · rw [rd_hspReplied, proofFails_counted _ iface, endSession_kept s x.iface x.num HSP_PROVEN (by decide)]
  · have ended : (s.endSession x.iface x.num).recentFails x.iface = s.recentFails 1 := by
      rw [State.recentFails, fails_endSession, clk_endSession, iface, State.recentFails]
    obtain ⟨lock, locked⟩ := proofFails_locks (ended ▸ third)
    rw [clk_endSession] at lock
    rw [iface] at lock locked ⊢
    exact ⟨lock, locked⟩

end

theorem prove_answers (s : State) (x : Session) (n : Nat) (tag : List Byte) (runs : s.pageRuns 0x104 = true)
    (hn : n < 8) (h : s.session? 1 n = some x) (closed : x.isOpen = false) (peer : x.peer = 0) (hslot : x.slot < 32)
    (htc : x.tc < 64) (len : tag.length = 16) :
    (s.clk ≤ x.clk + 48000 * 1000 * 65536 → s.slotGen x.slot = x.gen →
      (tag = (hmac (s.slotMat x.slot) (s.proofMessage x)).take 16 →
        Answers (.prove (hspReq opProve n 0 0 tag)) s fun t =>
          (∃ y, t.session? 1 n = some y ∧ y.isOpen = true ∧ y.tc = x.tc ∧ y.slot = x.slot ∧ y.bare = x.bare) ∧
          bit (t.rd HSP_OPEN) n = true ∧ t.rd (HSP_S_TC n) = x.tc ∧ t.rd (HSP_S_SLOT n) = x.slot ∧
          bit (t.rd (IRQ_RAW 0x104)) 0 = true ∧ t.resp.code = .ok) ∧
      (tag ≠ (hmac (s.slotMat x.slot) (s.proofMessage x)).take 16 →
        Answers (.prove (hspReq opProve n 0 0 tag)) s fun t =>
          t.session? 1 n = none ∧ t.resp.code = .notOwner ∧ Logged s t 0x5001 x.tc 0x104 ∧
          t.rd HSP_PROVEN = satNat 16 (s.rd HSP_PROVEN + 1) ∧
          ((s.hif.fails.filter fun e => e.1 == 1 && decide (s.clk < e.2 + 48000 * 1000 * 65536)).length = 2 →
            (1, s.clk + 48000 * 10000 * 65536) ∈ t.hif.locks ∧ t.lockedOut 1 = true))) ∧
    (x.clk + 48000 * 1000 * 65536 < s.clk →
      Answers (.prove (hspReq opProve n 0 0 tag)) s fun t => t.resp.code = .timeout ∧ t.session? 1 n = none) := by
  rw [second_eq, tenSeconds_eq]
  exact ⟨fun soon gen => ⟨prove_right runs hn h closed peer len soon gen hslot htc,
    prove_wrong runs hn h closed peer len soon gen⟩, prove_late runs hn h closed peer len⟩

theorem prove_unopened (s : State) (n : Nat) (tag : List Byte) (runs : s.pageRuns 0x104 = true) (hn : n < 8)
    (h : s.session? 1 n = none) (len : tag.length = 16) :
    Answers (.prove (hspReq opProve n 0 0 tag)) s fun t => HspRefused s t opProve n .timeout := by
  have command := prove_command runs hn len
  rw [proveFrame_none (Nat.lt_trans hn (by decide)) h] at command
  exact ⟨_, command, hspRefused_replied s opProve n .timeout⟩

/-! ### The end of a lockout, DISCOVER and NOTE -/

theorem lockoutEnd_answers (s : State) (i : Fin 3) (e : Nat) (period : s.rd CTF_PERIOD ≠ 0)
    (h : s.hif.locks.find? (·.1 == i.val + 1) = some (i.val + 1, e)) :
    Answers (.lockoutEnd i) s fun t =>
      t.lockedOut (i.val + 1) = false ∧ e ≤ t.clk ∧ SameBut [.regs, .ticks, .clk, .ctf, .hif] s t := by
  have command : exec (.lockoutEnd i) s = .next ((s.waitUntil e).setHif fun h =>
      { h with locks := h.locks.filter (·.1 != i.val + 1) }) := by
    change execLockoutEnd i s = _
    unfold execLockoutEnd
    dsimp only
    rw [h]
  refine ⟨_, command, ?_, waitUntil_clk period e, sameBut_of_except
    ((State.setHif_same 17179873473 rfl _ _).trans (State.waitUntil_same 17179873473 rfl s e))⟩
  refine List.any_eq_false.mpr fun lock left => ?_
  have other := (List.mem_filter.mp left).2
  rw [bne, Bool.not_eq_true'] at other
  rw [other]
  exact Bool.false_ne_true

theorem uidBytes_length (s : State) : s.uidBytes.length = 16 := by
  simp only [State.uidBytes, List.length_flatMap, leBytes_length]
  rfl

theorem discover_answers (s : State) (n : Nat) (runs : s.pageRuns 0x104 = true) (hn : n < 256) :
    Answers (.discover (hspReq opDiscover n 0 0 [])) s fun t =>
      t.out = s.out ++ [hspAnswer opDiscover n .ok 0 s.discoverBytes] ∧ s.discoverBytes.length = 28 ∧
      SameBut [.resp, .out] s t := by
  refine ⟨_, discover_command runs hn, rfl, ?_, hspReplied_frame _ _ _ _⟩
  simp only [State.discoverBytes, beBytes, List.length_append, List.length_reverse, leBytes_length, uidBytes_length]

theorem session_setSession {s : State} {i n : Nat} {x : Session} (h : s.session? i n = some x) {f : Session → Session}
    (keeps : ∀ y, (f y).iface = y.iface ∧ (f y).num = y.num) : (s.setSession i n f).session? i n = some (f x) := by
  have same (y : Session) : ((if y.iface = i ∧ y.num = n then f y else y).iface == i &&
      (if y.iface = i ∧ y.num = n then f y else y).num == n) = (y.iface == i && y.num == n) := by
    split
    · rw [(keeps y).1, (keeps y).2]
    · rfl
  change (s.hif.sessions.map fun y => if y.iface = i ∧ y.num = n then f y else y).find? _ = _
  rw [List.find?_map]
  change Option.map _ (s.hif.sessions.find? fun y => (if y.iface = i ∧ y.num = n then f y else y).iface == i &&
      (if y.iface = i ∧ y.num = n then f y else y).num == n) = _
  simp only [same]
  change Option.map _ (s.session? i n) = _
  rw [h, Option.map_some, if_pos (session_some h)]

theorem note_answers (s : State) (x : Session) (n : Fin 16) (h : s.session? 2 n.val = some x) (opened : x.isOpen = true)
    (runs : s.ifaceRuns 2 = true) (sum : s.summary x.tc = true) (low : x.high = false) :
    Answers (.note n) s fun t =>
      t.out = s.out ++ [⟨.host 2, x.peer :: byteNats (tagged x.key (2 ^ 31 + x.notes % 2 ^ 31)
        (respHead 0xA0 n.val 0 0))⟩] ∧
      t.session? 2 n.val = some { x with notes := x.notes + 1, high := true, noted := s.clk } ∧ SameBut [.out, .hif] s
        t := by
  have command : exec (.note n) s = .next (s.sendNote x) := by
    change execNote n s = _
    unfold execNote
    rw [show ifEth = 2 from rfl, h]
    dsimp only
    rw [opened, runs, sum, low]
    rfl
  obtain ⟨iface, num⟩ := session_some h
  refine ⟨_, command, ?_, ?_, sameBut_of_except (State.sendNote_same 17179870208 rfl s x)⟩
  · unfold State.sendNote
    rw [num]
    rfl
  · have own (u : State) : u.session? 2 n.val = u.session? x.iface x.num := by rw [iface, num]
    rw [own] at h ⊢
    exact session_setSession h (f := fun y => { y with notes := y.notes + 1, high := true, noted := s.clk })
      fun y => ⟨rfl, rfl⟩

set_option autoImplicit false

/-! ### Datagrams (R568) -/

/-- What a tag covers of the datagram that reads one word at `a` in session `n`. -/
def readBody (seq n a : Nat) : List Byte := leBytes 4 seq ++ frameOf opRead n a 1 []

/-- The request that the datagram carries. -/
def ethRead (n a peer : Nat) : Request := ⟨ifEth, frameOf opRead n a 1 [], peer⟩

/-- The datagram as the interface hands it on. -/
def readDatagram (seq n a peer : Nat) (tag : List Byte) : HostReq :=
  { iface := 1, bytes := readBody seq n a ++ tag, src := BitVec.ofNat 48 peer }

theorem readBody_length (seq n a : Nat) : (readBody seq n a).length = 12 := by
  rw [readBody, List.length_append, leBytes_length, frameOf_length]
  rfl

theorem tagFails_own {x : Session} {n a seq : Nat} {tag : List Byte} :
    tagFails (ethRead n a x.peer) (readBody seq n a) tag (some x) = (tag != (hmac x.key
    (readBody seq n a)).take 8) := by
  change (x.peer != x.peer || _) = _
  rw [bne_self_eq_false, Bool.false_or]

section
variable {s : State} {x : Session} {n a seq : Nat} {tag : List Byte} (runs : s.ifaceRuns 2 = true) (hn : n < 16)
  (hseq : seq < 2 ^ 32) (h : s.session? 2 n = some x) (opened : x.isOpen = true) (len : tag.length = 8)
  (hpeer : x.peer < 2 ^ 48)

include runs hpeer in
theorem hostRead_datagram :
    exec (.hostRead (readDatagram seq n a x.peer tag)) s = .next (s.datagramIn (readBody seq n a ++ tag) x.peer) := by
  have byte0 : ((readDatagram seq n a x.peer tag).bytes.drop 4).getD 0 0 = 1#8 := rfl
  have src : (readDatagram seq n a x.peer tag).src.toNat = x.peer := Nat.mod_eq_of_lt hpeer
  have eth : (readDatagram seq n a x.peer tag).iface.val + 1 = ifEth := rfl
  change Host.Outcome.next (s.hostFrame opRead _) = _
  unfold State.hostFrame
  dsimp only
  rw [if_pos eth, byte0, src, eth, if_neg, if_pos rfl]
  · rfl
  · rintro (off | other)
    · exact absurd runs (off ▸ Bool.false_ne_true)
    · exact other.1 rfl

include hn hseq h opened len

/-- A datagram of an open session: its tag, then its HE_SEQ. -/
theorem datagramIn_read :
    s.datagramIn (readBody seq n a ++ tag) x.peer =
      if (tag != (hmac x.key (readBody seq n a)).take 8) = true then s.count ETH_TAGN
      else if x.seq = some seq then s.send (.host 2) (x.peer :: byteNats x.resp)
      else if (x.seq.any fun last => decide (seq < last)) = true then s.count ETH_SEQN
      else (s.request (ethRead n a x.peer) seq).2.sendReply (ethRead n a x.peer) seq (some x.key)
        (s.request (ethRead n a x.peer) seq).1 := by
  have total : (readBody seq n a ++ tag).length = 20 := by rw [List.length_append, readBody_length, len]
  have cut : (readBody seq n a ++ tag).take (20 - 8) = readBody seq n a :=
    List.take_left' (readBody_length seq n a)
  have rest : (readBody seq n a ++ tag).drop (20 - 8) = tag := List.drop_left' (readBody_length seq n a)
  have first : leNat ((readBody seq n a ++ tag).take 4) = seq := by
    have four : (readBody seq n a ++ tag).take 4 = leBytes 4 seq := rfl
    rw [four, leNat_leBytes, Nat.mod_eq_of_lt (Nat.lt_of_lt_of_le hseq (by decide))]
  have request : (⟨ifEth, (readBody seq n a).drop 4, x.peer⟩ : Request) = ethRead n a x.peer := rfl
  have number : (ethRead n a x.peer).ses = n := toNat_byte (Nat.lt_trans hn (by decide))
  have live : (s.session? ifEth n).filter (·.isOpen) = some x := by
    change (s.session? 2 n).filter (·.isOpen) = some x
    rw [h, Option.filter_some, if_pos opened]
  unfold State.datagramIn
  dsimp only
  have other : ¬((ethRead n a x.peer).op = opDiscover ∧ s.on ETH_DISC_EN = false) :=
    fun named => absurd named.1 (by
      rw [show (ethRead n a x.peer).op = opRead from rfl]
      decide)
  have repeated : repeats (ethRead n a x.peer) seq x = (x.seq == some seq) := by
    change (x.seq == some seq && x.peer == x.peer) = _
    rw [beq_self_eq_true, Bool.and_true]
  have free : (ethRead n a x.peer).free = false := rfl
  rw [total, cut, rest, first, request, number, live, tagFails_own, if_neg other, Option.filter_some, repeated]
  by_cases wrong : (tag != (hmac x.key (readBody seq n a)).take 8) = true
  · rw [if_pos wrong, if_pos (Or.inr wrong)]
  rw [if_neg wrong, if_neg (fun bad => bad.elim (Nat.lt_irrefl 20) wrong)]
  by_cases again : x.seq = some seq
  · rw [if_pos again, again, if_pos (beq_self_eq_true (some seq))]
    rfl
  rw [if_neg again, if_neg (fun same => again (beq_iff_eq.mp same))]
  rw [free]
  rfl

end

set_option autoImplicit false

theorem datagram_answers (s : State) (x : Session) (n A seq : Nat) (r : HostReq) (body tag : List Byte)
    (runs : s.ifaceRuns 2 = true) (hn : n < 16) (_ : A < 2 ^ 24) (hseq : seq < 2 ^ 32) (h : s.session? 2 n = some x)
    (opened : x.isOpen = true) (hbody : body = leBytes 4 seq ++ frameOf opRead n A 1 []) (len : tag.length = 8)
    (hr : r = { iface := 1, bytes := body ++ tag, src := BitVec.ofNat 48 x.peer }) (hpeer : x.peer < 2 ^ 48) :
    (tag ≠ (hmac x.key body).take 8 →
      Answers (.hostRead r) s fun t => t.rd ETH_TAGN = satNat 16 (s.rd ETH_TAGN + 1) ∧ SameBut [.regs] s t) ∧
    (tag = (hmac x.key body).take 8 →
      (x.seq = some seq → Answers (.hostRead r) s fun t =>
        t.out = s.out ++ [⟨.host 2, x.peer :: byteNats x.resp⟩] ∧ SameBut [.out] s t) ∧
      (∀ last, x.seq = some last → seq < last →
        Answers (.hostRead r) s fun t => t.rd ETH_SEQN = satNat 16 (s.rd ETH_SEQN + 1) ∧ SameBut [.regs] s t)) := by
  obtain rfl : body = readBody seq n A := hbody
  subst hr
  have command := (hostRead_datagram (n := n) (a := A) (seq := seq) (tag := tag) runs hpeer).trans
    (congrArg Host.Outcome.next (datagramIn_read hn hseq h opened len))
  refine ⟨fun wrong => ?_, fun right => ⟨fun again => ?_, fun last lastSeq lower => ?_⟩⟩
  · rw [if_pos (bne_iff_ne.mpr wrong)] at command
    exact ⟨_, command, rd_count_same _ _ _ rfl, sameBut_of_except (State.count_same 1 rfl _ _)⟩
  · rw [if_neg (fun bad => bne_iff_ne.mp bad right), if_pos again] at command
    exact ⟨_, command, rfl, sameBut_of_except (State.send_same 1024 rfl _ _ _)⟩
  · have fresh : x.seq ≠ some seq := by
      rw [lastSeq]
      exact fun same => absurd (Option.some.inj same) (Nat.ne_of_gt lower)
    have late : (x.seq.any fun last => decide (seq < last)) = true := by
      rw [lastSeq]
      exact decide_eq_true lower
    rw [if_neg (fun bad => bne_iff_ne.mp bad right), if_neg fresh, if_pos late] at command
    exact ⟨_, command, rd_count_same _ _ _ rfl, sameBut_of_except (State.count_same 1 rfl _ _)⟩

/-- Settles O54: each request of HSP goes through its frame's checks to its one effect on the sessions. -/
theorem sessionsComplete : Obligations.SessionsComplete := by
  unfold Obligations.SessionsComplete
  exact ⟨openSession_answers, openSession_recovery, prove_answers, prove_unopened, lockoutEnd_answers,
    discover_answers, datagram_answers, note_answers⟩

end Sys2Proof.Machine

/-! ## The field interfaces (O55) -/

namespace Sys2Proof.Machine

open Reg

set_option autoImplicit false

/-! ### Memory as the MAC reaches it -/

/-- The addresses of control SRAM that the MAC reaches. -/
abbrev MacSram (a : Nat) : Prop := 0x8000000 ≤ a ∧ a < 0x8400000

section
variable {s u : State} {a b n : Nat}

theorem sysBytes_congr (hc : u.ccx = s.ccx) (hm : u.mem = s.mem) (a n : Nat) : u.sysBytes a n = s.sysBytes a n := by
  rw [State.sysBytes, State.sysBytes, State.bytes, State.bytes, hc, hm]

theorem sysBytes_raise (s : State) (p k a n : Nat) : (s.raise p k).sysBytes a n = s.sysBytes a n :=
  sysBytes_congr (part_of_except (State.raise_same 1 rfl s p k) .ccx rfl)
    (part_of_except (State.raise_same 1 rfl s p k) .mem rfl) a n

theorem sysBytes_stored (h : MacSram a) (s : State) (l : List Byte) : (s.sysStore a l).sysBytes a l.length = l := by
  rw [State.sysBytes, if_pos h, State.sysStore, if_pos h]
  exact memBytes_store_same s.ccx.sram a l

theorem sysBytes_store_other {l : List Byte} (ha : MacSram a) (hb : MacSram b)
    (apart : a + n ≤ b ∨ b + l.length ≤ a) (s : State) : (s.sysStore b l).sysBytes a n = s.sysBytes a n := by
  rw [State.sysBytes, if_pos ha, State.sysStore, if_pos hb, State.sysBytes, if_pos ha]
  exact memBytes_congr fun i lo hi => memByte_store_other s.ccx.sram b i l (by omega)

/-- A completed descriptor carries its code. -/
theorem descDone_code (h : MacSram (a + 8)) (s : State) (c : Status) :
    (s.descDone a c).sysBytes (a + 8) 2 = [BitVec.ofNat 8 (codeOf c), 0] := by
  rw [State.descDone, sysBytes_raise]
  exact sysBytes_stored h s [BitVec.ofNat 8 (codeOf c), 0]

theorem sysBytes_descDone (ha : MacSram a) (hb : MacSram (b + 8)) (below : a + n ≤ b + 8) (s : State) (c : Status) :
    (s.descDone b c).sysBytes a n = s.sysBytes a n := by
  rw [State.descDone, sysBytes_raise]
  exact sysBytes_store_other ha hb (Or.inl below) s

theorem descDone_irq (s : State) (a : Nat) (c : Status) : bit ((s.descDone a c).rd (IRQ_RAW 0x100)) 0 = true :=
  bit_raise_same _ _ (by decide)

theorem rd_sysStore (s : State) (a : Nat) (l : List Byte) (f : Fld) : (s.sysStore a l).rd f = s.rd f :=
  rd_of_except (State.sysStore_same 34361835520 rfl s a l) rfl f

theorem rd_descDone {f : Fld} (h : (IRQ_RAW 0x100).free f = true) (s : State) (a : Nat) (c : Status) :
    (s.descDone a c).rd f = s.rd f := by
  rw [State.descDone, rd_raise_free h, rd_sysStore]

end

/-! ### The rings of Ethernet -/

theorem ring_index_lt {n l w : Nat} (h : l ≤ w) : n % 2 ^ l < 2 ^ w :=
  Nat.lt_of_lt_of_le (Nat.mod_lt _ (Nat.two_pow_pos l)) (Nat.pow_le_pow_right (by decide) h)

/-- The state with the head of a ring of Ethernet one slot on. -/
def State.ethNext (s : State) (head len : Fld) : State := s.wr head ((s.rd head + 1) % 2 ^ s.rd len)

theorem sysBytes_ethNext (s : State) (head len : Fld) (a n : Nat) :
    (s.ethNext head len).sysBytes a n = s.sysBytes a n :=
  sysBytes_congr (part_of_except (State.wr_same 1 rfl s head _) .ccx rfl)
    (part_of_except (State.wr_same 1 rfl s head _) .mem rfl) a n

theorem ethTxDesc_answers (s : State) (a : Nat) (d : List Byte) (runs : s.pageRuns 0x100 = true)
    (on : s.on ETH_EN = true)
    (short : s.rd ETH_TXL ≤ 10) (ha : a = s.txBase + 16 * s.rd ETH_TXHEAD) (hd : d = s.sysBytes a 16)
    (own : bit (leAt d 9 1) 0 = true) :
    Answers .ethTxDesc s fun t =>
      t.rd ETH_TXHEAD = (s.rd ETH_TXHEAD + 1) % 2 ^ s.rd ETH_TXL ∧ bit (t.rd (IRQ_RAW 0x100)) 0 = true ∧
      SameBut [.regs, .ccx, .mem, .out] s t ∧
      (leAt d 6 2 = 0 → t.out = s.out) ∧
      (leAt d 6 2 ≠ 0 → t.out = s.out ++ [⟨.ethernet, byteNats (s.sysBytes (leAt d 0 5) (leAt d 6 2))⟩]) ∧
      (0x8000000 ≤ a → a + 16 ≤ 0x8400000 →
        t.sysBytes (a + 8) 2 = [BitVec.ofNat 8 (if leAt d 6 2 = 0 then codeOf .zeroLen else codeOf .ok), 0]) := by
  subst ha hd
  have command : exec .ethTxDesc s = .next (if leAt (s.sysBytes (s.txBase + 16 * s.rd ETH_TXHEAD) 16) 6 2 = 0 then
      (s.ethNext ETH_TXHEAD ETH_TXL).descDone (s.txBase + 16 * s.rd ETH_TXHEAD) .zeroLen
      else ((s.ethNext ETH_TXHEAD ETH_TXL).send .ethernet (byteNats ((s.ethNext ETH_TXHEAD ETH_TXL).sysBytes
        (leAt (s.sysBytes (s.txBase + 16 * s.rd ETH_TXHEAD) 16) 0 5)
        (leAt (s.sysBytes (s.txBase + 16 * s.rd ETH_TXHEAD) 16) 6 2)))).descDone
          (s.txBase + 16 * s.rd ETH_TXHEAD) .ok) := by
    change execEthTxDesc s = _
    unfold execEthTxDesc
    dsimp only
    rw [runs, on, own, if_neg (show ¬((!(true && true && true)) = true) by decide)]
    rfl
  generalize s.txBase + 16 * s.rd ETH_TXHEAD = a at own command ⊢
  generalize s.sysBytes a 16 = d at own command ⊢
  have head (u : State) (c : Status) (hu : u.rd ETH_TXHEAD = (s.ethNext ETH_TXHEAD ETH_TXL).rd ETH_TXHEAD) :
      (u.descDone a c).rd ETH_TXHEAD = (s.rd ETH_TXHEAD + 1) % 2 ^ s.rd ETH_TXL := by
    rw [rd_descDone (by decide), hu, State.ethNext, rd_wr_lt rfl (ring_index_lt short)]
  have sram (lo : 0x8000000 ≤ a) (hi : a + 16 ≤ 0x8400000) : MacSram (a + 8) := by
    constructor <;> omega
  have out (u : State) (c : Status) : (u.descDone a c).out = u.out :=
    part_of_except (State.descDone_same 34361835521 rfl u a c) .out rfl
  rw [sysBytes_ethNext] at command
  by_cases zero : leAt d 6 2 = 0
  · rw [if_pos zero] at command
    refine ⟨_, command, head _ _ rfl, descDone_irq _ _ _, sameBut_of_except
      ((State.descDone_same 34361836545 rfl _ _ _).trans
      (State.wr_same 34361836545 rfl _ _ _)), fun _ => out _ _, fun other => absurd zero other, fun lo hi => ?_⟩
    rw [if_pos zero]
    exact descDone_code (sram lo hi) _ _
  · rw [if_neg zero] at command
    refine ⟨_, command, head _ _ rfl, descDone_irq _ _ _, sameBut_of_except
      ((State.descDone_same 34361836545 rfl _ _ _).trans
      ((State.send_same 34361836545 rfl _ _ _).trans (State.wr_same 34361836545 rfl _ _ _))), fun none => absurd none
        zero,
      fun _ => out _ _, fun lo hi => ?_⟩
    rw [if_neg zero]
    exact descDone_code (sram lo hi) _ _

set_option autoImplicit false

section
variable {s : State} {frame : List Byte} {a : Nat} {d : List Byte} (runs : s.pageRuns 0x100 = true)
  (on : s.on ETH_EN = true) (ha : a = s.rxBase + 16 * s.rd ETH_RXHEAD) (hd : d = s.sysBytes a 16)
include runs on ha hd

theorem ethRxFrame_dropped (own : bit (leAt d 9 1) 0 = false) :
    Answers (.ethRxFrame frame) s fun t =>
      t.rd ETH_RXDROPN = satNat 16 (s.rd ETH_RXDROPN + 1) ∧ SameBut [.regs] s t := by
  have command : exec (.ethRxFrame frame) s = .next (s.count ETH_RXDROPN) := by
    change execEthRxFrame frame s = _
    unfold execEthRxFrame
    dsimp only
    rw [runs, on, ← ha, ← hd, own, if_neg (show ¬((!(true && true)) = true) by decide),
      if_pos (show (!false) = true by decide)]
  exact ⟨_, command, rd_count_same _ _ _ rfl, sameBut_of_except (State.count_same 1 rfl _ _)⟩

/-- A descriptor that the MAC owns takes the frame. -/
theorem ethRxFrame_taken (own : bit (leAt d 9 1) 0 = true) :
    exec (.ethRxFrame frame) s = .next (
      if s.rd ETH_RXBUF < frame.length then (s.ethNext ETH_RXHEAD ETH_RXL).descDone a .part
      else (((s.ethNext ETH_RXHEAD ETH_RXL).sysStore (leAt d 0 5) frame).sysStore (a + 6)
        (leBytes 2 frame.length)).descDone a .ok) := by
  have room : (s.ethNext ETH_RXHEAD ETH_RXL).rd ETH_RXBUF = s.rd ETH_RXBUF := rd_wr_free (by decide) _ _
  change execEthRxFrame frame s = _
  unfold execEthRxFrame
  dsimp only
  rw [runs, on, ← ha, ← hd, own, if_neg (show ¬((!(true && true)) = true) by decide),
    if_neg (show ¬((!true) = true) by decide), ← room]
  rfl

theorem ethRxFrame_fills (short : s.rd ETH_RXL ≤ 10) (own : bit (leAt d 9 1) 0 = true) (lo : 0x8000000 ≤ a)
    (hi : a + 16 ≤ 0x8400000) :
    Answers (.ethRxFrame frame) s fun t =>
      t.rd ETH_RXHEAD = (s.rd ETH_RXHEAD + 1) % 2 ^ s.rd ETH_RXL ∧ bit (t.rd (IRQ_RAW 0x100)) 0 = true ∧
      (s.rd ETH_RXBUF < frame.length → t.sysBytes (a + 8) 2 = [BitVec.ofNat 8 (codeOf .part), 0]) ∧
      (frame.length ≤ s.rd ETH_RXBUF → t.sysBytes (a + 6) 4 = leBytes 2 frame.length ++ [0, 0] ∧
        ∀ b, b = leAt d 0 5 → 0x8000000 ≤ b → b + frame.length ≤ a → t.sysBytes b frame.length = frame) := by
  have command := ethRxFrame_taken (frame := frame) runs on ha hd own
  have code : MacSram (a + 8) := ⟨by omega, by omega⟩
  have size : MacSram (a + 6) := ⟨by omega, by omega⟩
  have head : (s.ethNext ETH_RXHEAD ETH_RXL).rd ETH_RXHEAD = (s.rd ETH_RXHEAD + 1) % 2 ^ s.rd ETH_RXL :=
    rd_wr_lt rfl (ring_index_lt short) s
  by_cases long : s.rd ETH_RXBUF < frame.length
  · rw [if_pos long] at command
    refine ⟨_, command, ?_, descDone_irq _ _ _, fun _ => descDone_code code _ _,
      fun fits => absurd long (Nat.not_lt.mpr fits)⟩
    rw [rd_descDone (by decide), head]
  rw [if_neg long] at command
  refine ⟨_, command, ?_, descDone_irq _ _ _, fun much => absurd much long, fun _ => ⟨?_, ?_⟩⟩
  · rw [rd_descDone (by decide), rd_sysStore, rd_sysStore, head]
  · have split (u : State) : u.sysBytes (a + 6) 4 = u.sysBytes (a + 6) 2 ++ u.sysBytes (a + 8) 2 := by
      rw [State.sysBytes, State.sysBytes, State.sysBytes, if_pos size, if_pos size, if_pos code]
      exact memBytes_add u.ccx.sram (a + 6) 2 2
    have length (u : State) : (u.sysStore (a + 6) (leBytes 2 frame.length)).sysBytes (a + 6) 2 = leBytes 2
      frame.length :=
      sysBytes_stored size u (leBytes 2 frame.length)
    rw [split, descDone_code code, sysBytes_descDone size code (Nat.le_refl _), length]
    rfl
  · intro b hb above below
    have buffer : MacSram b := ⟨above, by omega⟩
    rw [sysBytes_descDone buffer code (by omega), sysBytes_store_other buffer size (Or.inl (by omega)), ← hb,
      sysBytes_stored buffer]

end

theorem ethRxFrame_answers (s : State) (frame : List Byte) (a : Nat) (d : List Byte) (runs : s.pageRuns 0x100 = true)
    (on : s.on ETH_EN = true) (short : s.rd ETH_RXL ≤ 10) (ha : a = s.rxBase + 16 * s.rd ETH_RXHEAD)
    (hd : d = s.sysBytes a 16) :
    (bit (leAt d 9 1) 0 = false →
      Answers (.ethRxFrame frame) s fun t =>
        t.rd ETH_RXDROPN = satNat 16 (s.rd ETH_RXDROPN + 1) ∧ SameBut [.regs] s t) ∧
    (bit (leAt d 9 1) 0 = true → 0x8000000 ≤ a → a + 16 ≤ 0x8400000 →
      Answers (.ethRxFrame frame) s fun t =>
        t.rd ETH_RXHEAD = (s.rd ETH_RXHEAD + 1) % 2 ^ s.rd ETH_RXL ∧ bit (t.rd (IRQ_RAW 0x100)) 0 = true ∧
        (s.rd ETH_RXBUF < frame.length → t.sysBytes (a + 8) 2 = [BitVec.ofNat 8 (codeOf .part), 0]) ∧
        (frame.length ≤ s.rd ETH_RXBUF → t.sysBytes (a + 6) 4 = leBytes 2 frame.length ++ [0, 0] ∧
          ∀ b, b = leAt d 0 5 → 0x8000000 ≤ b → b + frame.length ≤ a → t.sysBytes b frame.length = frame)) :=
  ⟨ethRxFrame_dropped runs on ha hd, ethRxFrame_fills runs on ha hd short⟩

theorem phyPoll_answers (s : State) (link : Bool) (runs : s.pageRuns 0x100 = true) (poll : s.on ETH_APOLL = true) :
    Answers (.phyPoll link) s fun t => t.on ETH_LINK = link ∧ SameBut [.regs, .out] s t := by
  have command : exec (.phyPoll link) s =
      .next ((s.send .mdio [0, 2, s.rd ETH_PHYAD, 1, 0]).wr ETH_LINK (b2n link)) := by
    change execPhyPoll link s = _
    unfold execPhyPoll
    rw [if_pos ⟨runs, poll⟩]
  exact ⟨_, command, on_wr_b2n rfl (by decide) _ link, sameBut_of_except
    ((State.wr_same 1025 rfl _ _ _).trans (State.send_same 1025 rfl _ _ _))⟩

/-! ### One MDIO operation of firmware -/

/-- The fields of the MDIO word that a write stores. -/
theorem mdioWord_stored (s : State) (d : Nat) :
    (s.storeWord 0x100 0x06C d).rd ETH_MD_DATA = bits d 0 16 ∧ (s.storeWord 0x100 0x06C d).rd ETH_MD_REG = bits d 16 5 ∧
    (s.storeWord 0x100 0x06C d).rd ETH_MD_OP = bits d 24 2 ∧ (s.storeWord 0x100 0x06C d).rd ETH_MD_C45 = bits d 26 1 ∧
    (s.storeWord 0x100 0x06C d).rd ETH_MD_GO = s.rd ETH_MD_GO ∧
    (s.storeWord 0x100 0x06C d).rd ETH_PHYAD = s.rd ETH_PHYAD := by
  have narrow : wideOf 0x100 0x06C = none := by decide
  exact ⟨rd_storeWord_set narrow (by decide) (by decide) (by decide) s d,
    rd_storeWord_set narrow (by decide) (by decide) (by decide) s d,
    rd_storeWord_set narrow (by decide) (by decide) (by decide) s d,
    rd_storeWord_set narrow (by decide) (by decide) (by decide) s d,
    rd_storeWord_kept narrow (by decide) (by decide) s d,
    rd_storeWord_other narrow (by decide) (by decide) s d⟩

/-- The state after one MDIO operation on what the word `d` holds. -/
theorem mdioRun_word (s : State) (d : Nat) (answer : BitVec 16) :
    ((s.storeWord 0x100 0x06C d).mdioRun answer.toNat).rd ETH_MD_GO = s.rd ETH_MD_GO ∧
    ((s.storeWord 0x100 0x06C d).mdioRun answer.toNat).rd ETH_MD_OP = bits d 24 2 ∧
    ((s.storeWord 0x100 0x06C d).mdioRun answer.toNat).out = s.out ++ [⟨.mdio, [bits d 26 1, bits d 24 2,
      s.rd ETH_PHYAD, bits d 16 5, bits d 0 16]⟩] ∧
    ((s.storeWord 0x100 0x06C d).mdioRun answer.toNat).rd ETH_MD_DATA =
      if bits d 24 2 = 2 then answer.toNat else bits d 0 16 := by
  obtain ⟨data, reg, op, c45, go, phy⟩ := mdioWord_stored s d
  have out : (s.storeWord 0x100 0x06C d).out = s.out := part_of_except (State.storeWord_same 41 rfl s _ _ d) .out rfl
  unfold State.mdioRun
  dsimp only
  rw [c45, op, phy, reg, data]
  split
  · refine ⟨?_, ?_, ?_, rd_wr_lt rfl answer.isLt _⟩
    · rw [rd_wr_free (by decide), rd_send, go]
    · rw [rd_wr_free (by decide), rd_send, op]
    · rw [part_of_except (State.wr_same 1 rfl _ _ _) .out rfl, ← out]
      rfl
  · refine ⟨?_, ?_, ?_, ?_⟩
    · rw [rd_send, go]
    · rw [rd_send, op]
    · rw [← out]
      rfl
    · rw [rd_send, data]

theorem ethMdGo_answers (s : State) (answer : BitVec 16) (w : RegWrite)
    (hw : s.admitsWrite 0x100 0x06C w (setBit w.data.toNat 31) = true) (known : bits w.data.toNat 24 2 ≠ 3) :
    Answers (.ethMdGo answer w) s fun t =>
      t.resp.code = .ok ∧ (s.rd ETH_MD_GO = 0 → t.rd ETH_MD_GO = 0) ∧ t.rd ETH_MD_OP = bits w.data.toNat 24 2 ∧
      t.out = s.out ++ [⟨.mdio, [bits w.data.toNat 26 1, bits w.data.toNat 24 2, s.rd ETH_PHYAD, bits w.data.toNat 16 5,
        bits w.data.toNat 0 16]⟩] ∧
      t.rd ETH_MD_DATA = (if bits w.data.toNat 24 2 = 2 then answer.toNat else bits w.data.toNat 0 16) := by
  obtain ⟨d, hd⟩ : ∃ d, d = (BitVec.ofNat 32 (setBit w.data.toNat 31)).toNat := ⟨_, rfl⟩
  have go : bit d 31 = true := by
    rw [hd, bit_command (by decide), if_pos rfl]
  have op : bits d 24 2 = bits w.data.toNat 24 2 := by rw [hd, bits_command (by decide) (by decide)]
  have c45 : bits d 26 1 = bits w.data.toNat 26 1 := by rw [hd, bits_command (by decide) (by decide)]
  have reg : bits d 16 5 = bits w.data.toNat 16 5 := by rw [hd, bits_command (by decide) (by decide)]
  have data : bits d 0 16 = bits w.data.toNat 0 16 := by rw [hd, bits_command (by decide) (by decide)]
  have written (q : Req) (hq : q.page = 0x100 ∧ q.off = 0x06C) : ethWriter answer.toNat s q d =
      (.ok, (s.storeWord 0x100 0x06C d).mdioRun answer.toNat) := by
    unfold ethWriter
    rw [hq.1, hq.2]
    dsimp only
    rw [op, if_neg known, go]
    rfl
  obtain ⟨same, opOf, outOf, dataOf⟩ := mdioRun_word s d answer
  refine answers_write (u := (s.storeWord 0x100 0x06C d).mdioRun answer.toNat) (f := fun d => setBit d 31)
    (h := ethWriter answer.toNat) rfl (by decide) hw
    (hd ▸ written _ ⟨rfl, rfl⟩) ⟨rfl, ?_, ?_, ?_, ?_⟩
  · rw [rd_answer, same]
    exact id
  · rw [rd_answer, opOf, op]
  · rw [op, c45, reg, data] at outOf
    exact outOf
  · rw [rd_answer, dataOf, op, data]

set_option autoImplicit false

/-! ### UARTs -/

/-- The fields that show the FIFOs of UART `n`. -/
def uartFlds (n : Nat) : List Fld := [UART_RXD n, UART_RXERR n, UART_RXVALID n, UART_RXN n, UART_TXN n]

section
variable (s : State) (n : Fin 2) (f : Uart → Uart)

theorem hif_wr (s : State) (f : Fld) (v : Nat) : (s.wr f v).hif = s.hif :=
  part_of_except (State.wr_same 1 rfl s f v) .hif rfl

theorem uart_wr (s : State) (f : Fld) (v k : Nat) : (s.wr f v).uart k = s.uart k := by
  rw [State.uart, hif_wr, State.uart]

theorem uart_answer (s : State) (c : Status) (k : Nat) : (s.answer c).uart k = s.uart k := rfl

theorem uart_count (s : State) (f : Fld) (k : Nat) : (s.count f).uart k = s.uart k := uart_wr s f _ k

theorem uart_raise (s : State) (p b k : Nat) : (s.raise p b).uart k = s.uart k := uart_wr s _ _ k

theorem hif_uartShow (s : State) (n : Nat) : (s.uartShow n).hif = s.hif :=
  part_of_except (State.uartShow_same 1 rfl s n) .hif rfl

theorem uart_setUart (s : State) (n : Nat) (f : Uart → Uart) : (s.setUart n f).uart n = f (s.uart n) := by
  rw [State.setUart, State.uart, hif_uartShow]
  exact cellAt_put_same ({} : Uart) n _ _

theorem out_setUart (s : State) (n : Nat) (f : Uart → Uart) : (s.setUart n f).out = s.out :=
  part_of_except (State.setUart_same 17179869185 rfl s n f) .out rfl

theorem uartShow_kept : RdKept (uartFlds n) s (s.uartShow n) := by
  have listed : ∀ k : Fin 2, (uartFlds k).contains (UART_RXD k) = true ∧ (uartFlds k).contains (UART_RXERR k) = true ∧
      (uartFlds k).contains (UART_RXVALID k) = true ∧ (uartFlds k).contains (UART_RXN k) = true ∧
      (uartFlds k).contains (UART_TXN k) = true := by decide
  obtain ⟨rxd, err, valid, rxn, txn⟩ := listed n
  exact ((((RdKept.refl _ s).wr _ rxd).wr _ err).wr _ valid).wr _ rxn |>.wr _ txn

theorem setUart_kept : RdKept (uartFlds n) s (s.setUart n f) :=
  (setHif_kept _ s _).trans (uartShow_kept _ n)

theorem uartShow_counts : (s.uartShow n).rd (UART_RXN n) = (s.uart n).rx.length % 128 ∧
    (s.uartShow n).rd (UART_TXN n) = (s.uart n).tx.length % 128 := by
  have free : ∀ k : Fin 2, (UART_TXN k).free (UART_RXN k) = true := by decide
  constructor
  · rw [State.uartShow, rd_wr_free (free n), rd_wr_same _ _ _ rfl]
    rfl
  · rw [State.uartShow, rd_wr_same _ _ _ rfl]
    rfl

theorem setUart_counts : (s.setUart n f).rd (UART_RXN n) = (f (s.uart n)).rx.length % 128 ∧
    (s.setUart n f).rd (UART_TXN n) = (f (s.uart n)).tx.length % 128 := by
  have held : (s.setHif fun h => { h with uarts := cellPut {} n.val (f (s.uart n)) h.uarts }).uart n = f (s.uart n) :=
    cellAt_put_same ({} : Uart) n.val _ _
  have shown := uartShow_counts (s.setHif fun h => { h with uarts := cellPut {} n.val (f (s.uart n)) h.uarts }) n
  rw [held] at shown
  exact shown

end

/-- The other fields of a UART's page lie apart from those that show the FIFOs. -/
theorem uartFlds_free : ∀ n : Fin 2, (uartFlds n).all (fun f => f.free (UART_TXOVN n)) = true ∧
    (uartFlds n).all (fun f => f.free (UART_COLLN n)) = true ∧
    (uartFlds n).all (fun f => f.free (IRQ_RAW (0x10C + n))) = true ∧
    (UART_BIAS n).free (UART_RXN n) = true ∧ (UART_BIAS n).free (UART_TXN n) = true ∧
    (UART_BIAS n).free (UART_TXOVN n) = true ∧ (UART_BIAS n).free (UART_COLLN n) = true ∧
    (IRQ_RAW (0x10C + n)).free (UART_COLLN n) = true ∧ (IRQ_RAW (0x10C + n)).free (UART_TXN n) = true ∧
    (UART_BIAS n).free (IRQ_RAW (0x10C + n)) = true := by decide

theorem uartPage_plain : ∀ n : Fin 2, plainWord (0x10C + n.val) 0x048 = true ∧
    plainWord (0x10C + n.val) 0x04C = true := by decide

theorem uartTxdata_answers (s : State) (n : Fin 2) (w : RegWrite)
    (hw : s.admitsWrite (0x10C + n.val) 0x048 w w.data.toNat = true) :
    Answers (.uartTxdata n w) s fun t => t.resp.code = .ok ∧
      ((s.uart n.val).tx.length < 64 →
        (t.uart n.val).tx = (s.uart n.val).tx ++ [BitVec.ofNat 8 w.data.toNat] ∧ (t.uart n.val).rx = (s.uart n.val).rx ∧
        t.rd (UART_TXN n.val) = (s.uart n.val).tx.length + 1) ∧
      (64 ≤ (s.uart n.val).tx.length →
        t.uart n.val = s.uart n.val ∧ t.rd (UART_TXOVN n.val) = satNat 16 (s.rd (UART_TXOVN n.val) + 1)) := by
  have written (q : Req) (hq : q.page = 0x10C + n.val ∧ q.off = 0x048) :
      uartWrite s q (BitVec.ofNat 32 (id w.data.toNat)).toNat = (.ok, s.uartQueue n (BitVec.ofNat 8 w.data.toNat)) := by
    unfold uartWrite
    rw [hq.1, hq.2, Nat.add_sub_cancel_left]
    dsimp only
    rw [id, BitVec.ofNat_toNat, BitVec.setWidth_eq]
    rfl
  refine answers_write (f := id) (h := uartWrite) rfl (uartPage_plain n).1 hw (written _ ⟨rfl, rfl⟩)
    ⟨rfl, fun room => ?_,
    fun full => ?_⟩
  · rw [State.uartQueue, if_neg (Nat.not_le.mpr room), rd_answer, uart_answer, uart_wr, uart_setUart]
    refine ⟨rfl, rfl, ?_⟩
    obtain ⟨-, -, -, -, bias, -⟩ := uartFlds_free n
    rw [rd_wr_free bias, (setUart_counts s n _).2, List.length_append]
    exact Nat.mod_eq_of_lt (by simp only [List.length_cons, List.length_nil]; omega)
  · rw [State.uartQueue, if_pos full, rd_answer, uart_answer]
    exact ⟨uart_count s _ _, rd_count_same _ _ _ rfl⟩

set_option autoImplicit false

theorem uart_send (s : State) (c : Channel) (d : List Nat) (k : Nat) : (s.send c d).uart k = s.uart k := rfl

section
variable (s : State) (n : Fin 2) (char : Byte) (err : Bool) (runs : s.uartRuns n.val = true)
include runs

/-- A character while UARTn_DE is released: it is stored, or lost where the FIFO is full. -/
theorem uartRxChar_released (off : (s.uart n.val).de = false) :
    exec (.uartRxChar n char err) s = .next (if 64 ≤ (s.uart n.val).rx.length then (s.wr (UART_BIAS n) 0).count
    (UART_TXOVN n)
      else (s.wr (UART_BIAS n) 0).setUart n fun u => { u with rx := u.rx ++ [(char, err)] }) := by
  change execUartRxChar n char err s = _
  unfold execUartRxChar
  dsimp only
  rw [runs, off, if_neg (show ¬((!true) = true) by decide)]

/-- A character while UARTn_DE is asserted: the echo of the oldest byte sent. -/
theorem uartRxChar_echo {b : Byte} {l : List Byte} (on : (s.uart n.val).de = true) (tx : (s.uart n.val).tx = b :: l) :
    exec (.uartRxChar n char err) s = .next (
      if char = b ∧ err = false then
        ((s.wr (UART_BIAS n) 0).send (.uart n) [b.toNat]).setUart n fun u => { u with tx := l }
      else ((((s.wr (UART_BIAS n) 0).send (.uart n) [b.toNat]).setUart n fun u =>
        { u with tx := [], de := false }).count
        (UART_COLLN n)).raise (0x10C + n) 1) := by
  change execUartRxChar n char err s = _
  unfold execUartRxChar
  dsimp only
  rw [runs, on, tx, if_neg (show ¬((!true) = true) by decide)]

theorem uartRxChar_stored (off : (s.uart n.val).de = false) (room : (s.uart n.val).rx.length < 64) :
    Answers (.uartRxChar n char err) s fun t =>
      t.uart n.val = { s.uart n.val with rx := (s.uart n.val).rx ++ [(char, err)] } ∧ t.out = s.out ∧
      t.rd (UART_RXN n.val) = (s.uart n.val).rx.length + 1 := by
  have command := uartRxChar_released s n char err runs off
  rw [if_neg (Nat.not_le.mpr room)] at command
  refine ⟨_, command, ?_, ?_, ?_⟩
  · rw [uart_setUart, uart_wr]
  · rw [out_setUart]
    exact part_of_except (State.wr_same 1 rfl s _ 0) .out rfl
  · rw [(setUart_counts _ n _).1, uart_wr, List.length_append]
    exact Nat.mod_eq_of_lt (by simp only [List.length_cons, List.length_nil]; omega)

theorem uartRxChar_lost (off : (s.uart n.val).de = false) (full : 64 ≤ (s.uart n.val).rx.length) :
    Answers (.uartRxChar n char err) s fun t =>
      t.rd (UART_TXOVN n.val) = satNat 16 (s.rd (UART_TXOVN n.val) + 1) ∧ SameBut [.regs] s t := by
  have command := uartRxChar_released s n char err runs off
  rw [if_pos full] at command
  obtain ⟨-, -, -, -, -, bias, -⟩ := uartFlds_free n
  refine ⟨_, command, ?_, sameBut_of_except ((State.count_same 1 rfl _ _).trans (State.wr_same 1 rfl s _ _))⟩
  rw [rd_count_same _ _ _ rfl, rd_wr_free bias]
  rfl

theorem uartRxChar_sent (b : Byte) (l : List Byte) (on : (s.uart n.val).de = true) (tx : (s.uart n.val).tx = b :: l) :
    Answers (.uartRxChar n char err) s fun t =>
      t.out = s.out ++ [⟨.uart n.val, [b.toNat]⟩] ∧ (t.uart n.val).rx = (s.uart n.val).rx ∧
      (char = b → err = false → (t.uart n.val).tx = l ∧ (t.uart n.val).de = true) ∧
      (char ≠ b → (t.uart n.val).tx = [] ∧ (t.uart n.val).de = false ∧
        t.rd (UART_COLLN n.val) = satNat 16 (s.rd (UART_COLLN n.val) + 1) ∧
        bit (t.rd (IRQ_RAW (0x10C + n.val))) 1 = true) := by
  have command := uartRxChar_echo s n char err runs on tx
  have held : ((s.wr (UART_BIAS n) 0).send (.uart n) [b.toNat]).uart n = s.uart n := by
    rw [uart_send, uart_wr]
  have out : ((s.wr (UART_BIAS n) 0).send (.uart n) [b.toNat]).out = s.out ++ [⟨.uart n.val, [b.toNat]⟩] :=
    congrArg (· ++ _) (part_of_except (State.wr_same 1 rfl s (UART_BIAS n) 0) .out rfl)
  by_cases right : char = b ∧ err = false
  · rw [if_pos right] at command
    refine ⟨_, command, ?_, ?_, fun _ _ => ?_, fun other => absurd right.1 other⟩
    · rw [out_setUart, out]
    · rw [uart_setUart, held]
    · rw [uart_setUart, held]
      exact ⟨rfl, on⟩
  · rw [if_neg right] at command
    obtain ⟨-, colln, -, -, -, -, bias, irq, -⟩ := uartFlds_free n
    refine ⟨_, command, ?_, ?_, fun same good => absurd ⟨same, good⟩ right, fun _ => ⟨?_, ?_, ?_, ?_⟩⟩
    · rw [part_of_except ((State.raise_same 1 rfl _ _ _).trans (State.count_same 1 rfl _ _)) .out rfl, out_setUart, out]
    · rw [uart_raise, uart_count, uart_setUart, held]
    · rw [uart_raise, uart_count, uart_setUart]
    · rw [uart_raise, uart_count, uart_setUart]
    · rw [rd_raise_free irq, rd_count_same _ _ _ rfl, setUart_kept _ n _ _ colln, rd_send, rd_wr_free bias]
      rfl
    · exact bit_raise_same _ _ (by decide)

end

theorem uartRxChar_answers (s : State) (n : Fin 2) (char : Byte) (err : Bool) (runs : s.uartRuns n.val = true) :
    ((s.uart n.val).de = false → (s.uart n.val).rx.length < 64 →
      Answers (.uartRxChar n char err) s fun t =>
        t.uart n.val = { s.uart n.val with rx := (s.uart n.val).rx ++ [(char, err)] } ∧ t.out = s.out ∧
        t.rd (UART_RXN n.val) = (s.uart n.val).rx.length + 1) ∧
    ((s.uart n.val).de = false → 64 ≤ (s.uart n.val).rx.length →
      Answers (.uartRxChar n char err) s fun t =>
        t.rd (UART_TXOVN n.val) = satNat 16 (s.rd (UART_TXOVN n.val) + 1) ∧ SameBut [.regs] s t) ∧
    (∀ b l, (s.uart n.val).de = true → (s.uart n.val).tx = b :: l →
      Answers (.uartRxChar n char err) s fun t =>
        t.out = s.out ++ [⟨.uart n.val, [b.toNat]⟩] ∧ (t.uart n.val).rx = (s.uart n.val).rx ∧
        (char = b → err = false → (t.uart n.val).tx = l ∧ (t.uart n.val).de = true) ∧
        (char ≠ b → (t.uart n.val).tx = [] ∧ (t.uart n.val).de = false ∧
          t.rd (UART_COLLN n.val) = satNat 16 (s.rd (UART_COLLN n.val) + 1) ∧
          bit (t.rd (IRQ_RAW (0x10C + n.val))) 1 = true)) :=
  ⟨uartRxChar_stored s n char err runs, uartRxChar_lost s n char err runs, uartRxChar_sent s n char err runs⟩

theorem uartEof_answers (s : State) (n : Fin 2) (idle : Bool) (runs : s.uartRuns n.val = true) :
    Answers (.uartEof n idle) s fun t =>
      bit (t.rd (IRQ_RAW (0x10C + n.val))) 0 = true ∧ t.on (UART_BIAS n.val) = (idle && !(s.uart n.val).de) ∧
      SameBut [.regs] s t := by
  have command : exec (.uartEof n idle) s =
      .next ((s.raise (0x10C + n.val) 0).wr (UART_BIAS n) (b2n (idle && !(s.uart n.val).de))) := by
    change execUartEof n idle s = _
    unfold execUartEof
    dsimp only
    rw [runs, if_neg (show ¬((!true) = true) by decide)]
  obtain ⟨-, -, -, -, -, -, -, -, -, bias⟩ := uartFlds_free n
  refine ⟨_, command, ?_, on_wr_b2n rfl (show 0 < 1 by decide) _ _, sameBut_of_except ((State.wr_same 1 rfl _ _ _).trans
    (State.raise_same 1 rfl _ _ _))⟩
  rw [rd_wr_free bias]
  exact bit_raise_same _ _ (by decide)

/-- The bytes of a FIFO sent one after the other. -/
theorem out_sendAll (n : Nat) (l : List Byte) (s : State) :
    (l.foldl (fun s b => s.send (.uart n) [b.toNat]) s).out = s.out ++ l.map (fun b => ⟨.uart n, [b.toNat]⟩) := by
  induction l generalizing s with
  | nil => exact (List.append_nil _).symm
  | cons b l ih =>
    rw [List.foldl_cons, ih, List.map_cons]
    exact List.append_assoc s.out [⟨.uart n, [b.toNat]⟩] _

theorem hif_sendAll (n : Nat) (l : List Byte) (s : State) :
    (l.foldl (fun s b => s.send (.uart n) [b.toNat]) s).hif = s.hif :=
  foldl_keeps (g := State.hif) (f := fun s (b : Byte) => s.send (.uart n) [b.toNat]) (fun _ _ => rfl) l s

theorem uartTxEnd_answers (s : State) (n : Fin 2) (runs : s.uartRuns n.val = true) (on : (s.uart n.val).de = true) :
    Answers (.uartTxEnd n) s fun t =>
      t.uart n.val = { s.uart n.val with tx := [], de := false } ∧
      t.out = s.out ++ (s.uart n.val).tx.map (fun b => ⟨.uart n.val, [b.toNat]⟩) ∧
      bit (t.rd (IRQ_RAW (0x10C + n.val))) 2 = true ∧ t.rd (UART_TXN n.val) = 0 := by
  have command : exec (.uartTxEnd n) s = .next ((((s.uart n.val).tx.foldl (fun s b => s.send (.uart n.val) [b.toNat])
      s).setUart n fun u => { u with tx := [], de := false }).raise (0x10C + n.val) 2) := by
    change execUartTxEnd n s = _
    unfold execUartTxEnd
    dsimp only
    rw [runs, on]
    rfl
  obtain ⟨-, -, -, -, -, -, -, -, txn, -⟩ := uartFlds_free n
  refine ⟨_, command, ?_, ?_, bit_raise_same _ _ (by decide), ?_⟩
  · rw [uart_raise, uart_setUart, State.uart, hif_sendAll]
    rfl
  · rw [part_of_except (State.raise_same 1 rfl _ _ _) .out rfl, out_setUart, out_sendAll]
  · rw [rd_raise_free txn, (setUart_counts _ n _).2]
    rfl

/-- A word of UART_RXDATA shows the byte, its error bit and whether there is one. -/
theorem rxdata_shown (n : Fin 2) (s : State) :
    shownWord (RegMap.fieldsAt (0x10C + n.val) 0x04C) (s.readWord (0x10C + n.val) 0x04C) =
      s.rd (UART_RXD n) + s.rd (UART_RXERR n) * 2 ^ 8 + s.rd (UART_RXVALID n) * 2 ^ 9 := by
  have mask : ∀ k : Fin 2, (RegMap.maskOf .rw (RegMap.fieldsAt (0x10C + k.val) 0x04C) |||
      RegMap.maskOf .ro (RegMap.fieldsAt (0x10C + k.val) 0x04C) ||| RegMap.maskOf .rc
        (RegMap.fieldsAt (0x10C + k.val) 0x04C)
      ||| RegMap.maskOf .w1c (RegMap.fieldsAt (0x10C + k.val) 0x04C) |||
      RegMap.maskOf .w1s (RegMap.fieldsAt (0x10C + k.val) 0x04C)) = 2 ^ 10 - 1 := by decide
  have narrow : ∀ k : Fin 2, wideOf (0x10C + k.val) 0x04C = none := by decide
  have word : s.readWord (0x10C + n.val) 0x04C = s.reg (0x10C + n.val) 0x04C := by
    unfold State.readWord
    rw [narrow n]
  rw [word, shownWord, mask n, Nat.and_two_pow_sub_one_eq_mod, State.rd, State.rd, State.rd,
    if_pos (show (UART_RXD n).width ≤ 32 from Nat.le_of_ble_eq_true rfl),
    if_pos (show (UART_RXERR n).width ≤ 32 from Nat.le_of_ble_eq_true rfl),
    if_pos (show (UART_RXVALID n).width ≤ 32 from Nat.le_of_ble_eq_true rfl)]
  change s.reg (0x10C + n.val) 0x04C % 2 ^ 10 = bits (s.reg (0x10C + n.val) 0x04C) 0 8 +
    bits (s.reg (0x10C + n.val) 0x04C) 8 1 * 2 ^ 8 + bits (s.reg (0x10C + n.val) 0x04C) 9 1 * 2 ^ 9
  unfold bits
  omega

theorem hif_plainRead (s : State) (q : Req) : (plainRead s q).2.2.hif = s.hif := by
  have cleared (u : State) (v : Nat) : (u.clearOnRead q v).hif = u.hif :=
    part_of_except (State.clearOnRead_same 33 rfl u q v) .hif rfl
  have latched (b n : Nat) : (if q.off = b then s.latchWords q.page (b + 4) (n - 1) else s).hif = s.hif := by
    split
    · exact part_of_except (State.latchWords_same 4 rfl s _ _ _) .hif rfl
    · rfl
  unfold plainRead
  dsimp only
  rw [cleared]
  split
  · exact latched _ _
  · rfl

theorem uart_answerRead (s : State) (tc a : Nat) (c : Status) (v k : Nat) :
    (s.answerRead tc a c v).uart k = s.uart k := rfl

theorem uartRxdataRead_answers (s : State) (n : Fin 2) (r : RegRead) (hr : s.admitsRead (0x10C + n.val) 0x04C r = true)
    (own : s.owns ⟨r.port, r.tc.val, 0x10C + n.val, 0x04C, none⟩ = true) :
    Answers (.uartRxdataRead n r) s fun t =>
      t.resp.code = .ok ∧ (t.uart n.val).rx = (s.uart n.val).rx.drop 1 ∧ (t.uart n.val).tx = (s.uart n.val).tx ∧
      t.rd (UART_RXN n.val) = ((s.uart n.val).rx.length - 1) % 128 ∧
      t.resp.data = [s.rd (UART_RXD n.val) + s.rd (UART_RXERR n.val) * 2 ^ 8 + s.rd (UART_RXVALID n.val) * 2 ^ 9] := by
  have plain : plainRead s ⟨r.port, r.tc.val, 0x10C + n.val, 0x04C, none⟩ =
      (.ok, s.rd (UART_RXD n) + s.rd (UART_RXERR n) * 2 ^ 8 + s.rd (UART_RXVALID n) * 2 ^ 9,
        (plainRead s ⟨r.port, r.tc.val, 0x10C + n.val, 0x04C, none⟩).2.2) :=
    congrArg (fun v => (Status.ok, v, (plainRead s ⟨r.port, r.tc.val, 0x10C + n.val, 0x04C, none⟩).2.2))
      (rxdata_shown n s)
  have same : (plainRead s ⟨r.port, r.tc.val, 0x10C + n.val, 0x04C, none⟩).2.2.hif = s.hif :=
    hif_plainRead s _
  generalize (plainRead s ⟨r.port, r.tc.val, 0x10C + n.val, 0x04C, none⟩).2.2 = u at plain same
  have read : uartRead s ⟨r.port, r.tc.val, 0x10C + n.val, 0x04C, none⟩ =
      (.ok, s.rd (UART_RXD n) + s.rd (UART_RXERR n) * 2 ^ 8 + s.rd (UART_RXVALID n) * 2 ^ 9,
        u.setUart n fun v => { v with rx := v.rx.drop 1 }) := by
    unfold uartRead
    dsimp only
    rw [if_pos rfl, plain, if_pos own, Nat.add_sub_cancel_left]
  have uart : u.uart n.val = s.uart n.val := by rw [State.uart, same, State.uart]
  refine answers_read (h := uartRead) rfl (uartPage_plain n).2 hr read ⟨rfl, ?_, ?_, ?_, rfl⟩
  · rw [uart_answerRead, capture_ok, uart_setUart, uart]
  · rw [uart_answerRead, capture_ok, uart_setUart, uart]
  · rw [rd_answerRead, capture_ok, (setUart_counts u n _).1, uart, List.length_drop]

set_option autoImplicit false

/-! ### Pins -/

theorem gpioFlds_free : ∀ k : Fin 48, (GPIO_IN k).free (GPIO_EDGE k) = true ∧ (GPIO_IN k).free (GPIO_EVT k) = true ∧
    (GPIO_IN k).free (IRQ_RAW 0x110) = true ∧ (GPIO_EVT k).free (GPIO_IN k) = true ∧
    (IRQ_RAW 0x110).free (GPIO_IN k) = true ∧ (IRQ_RAW 0x110).free (GPIO_EVT k) = true ∧
    (GPIO_IN k).narrow = true ∧ (GPIO_EVT k).narrow = true := by decide

theorem gpioEdge_answers (s : State) (pin : Fin 48) (level : Bool) (input : s.on (GPIO_DIR pin.val) = false)
    (changes : s.on (GPIO_IN pin.val) ≠ level) :
    Answers (.gpioEdge pin level) s fun t =>
      t.on (GPIO_IN pin.val) = level ∧ SameBut [.regs] s t ∧
      (bit (s.rd (GPIO_EDGE pin.val)) (if level then 0 else 1) = true →
        t.on (GPIO_EVT pin.val) = true ∧ bit (t.rd (IRQ_RAW 0x110)) 0 = true) ∧
      (bit (s.rd (GPIO_EDGE pin.val)) (if level then 0 else 1) = false →
        t.rd (GPIO_EVT pin.val) = s.rd (GPIO_EVT pin.val) ∧ t.rd (IRQ_RAW 0x110) = s.rd (IRQ_RAW 0x110)) := by
  obtain ⟨edge, evt, irq, evtIn, irqIn, irqEvt, inNarrow, evtNarrow⟩ := gpioFlds_free pin
  have command : exec (.gpioEdge pin level) s = .next (
      if bit (s.rd (GPIO_EDGE pin.val)) (if level then 0 else 1) = true then
        ((s.wr (GPIO_IN pin.val) (b2n level)).wr (GPIO_EVT pin.val) 1).raise 0x110 0
      else s.wr (GPIO_IN pin.val) (b2n level)) := by
    change execGpioEdge pin level s = _
    unfold execGpioEdge
    dsimp only
    rw [if_neg (fun h => h.elim (fun out => absurd out (input ▸ Bool.false_ne_true)) changes), rd_wr_free edge]
  by_cases selected : bit (s.rd (GPIO_EDGE pin.val)) (if level then 0 else 1) = true
  · rw [if_pos selected] at command
    refine ⟨_, command, ?_, sameBut_of_except ((State.raise_same 1 rfl _ _ _).trans ((State.wr_same 1 rfl _ _ _).trans
      (State.wr_same 1 rfl _ _ _))), fun _ => ⟨?_, bit_raise_same _ _ (by decide)⟩, fun off => ?_⟩
    · rw [on_raise_free irqIn, on_wr_free evtIn, on_wr_b2n inNarrow (show 0 < 1 by decide)]
    · rw [on_raise_free irqEvt]
      exact on_wr_b2n evtNarrow (show 0 < 1 by decide) _ true
    · exact absurd selected (off ▸ Bool.false_ne_true)
  · rw [if_neg selected] at command
    refine ⟨_, command, on_wr_b2n inNarrow (show 0 < 1 by decide) s level, sameBut_of_except
      (State.wr_same 1 rfl s _ _),
      fun on => absurd on selected, fun _ => ⟨rd_wr_free evt _ _, rd_wr_free irq _ _⟩⟩

/-! ### Tariff and status inputs -/

theorem bit_clearBit_other {n k i : Nat} (h : i ≠ k) : bit (clearBit n k) i = bit n i := by
  by_cases on : bit n k = true
  · have low : 2 ^ k ≤ n := by
      refine Nat.le_of_not_lt fun small => absurd on ?_
      rw [bit_eq_testBit, Nat.testBit_lt_two_pow small]
      exact Bool.false_ne_true
    have off := bit_clearBit_same n k
    have back : setBit (clearBit n k) k = n := by
      rw [setBit, if_neg (off ▸ Bool.false_ne_true), clearBit, if_pos on, Nat.sub_add_cancel low]
    rw [← bit_setBit_other (n := clearBit n k) h, back]
  · rw [clearBit, if_neg on]

/-- The levels shown with that of input `k` at `now`. -/
def levelsWith (old k : Nat) (now : Bool) : Nat := if now then setBit old k else clearBit old k

theorem bit_levelsWith_same (old k : Nat) (now : Bool) : bit (levelsWith old k now) k = now := by
  cases now
  · exact bit_clearBit_same old k
  · exact bit_setBit_same old k

theorem bit_levelsWith_other {k i : Nat} (h : i ≠ k) (old : Nat) (now : Bool) :
    bit (levelsWith old k now) i = bit old i := by
  cases now
  · exact bit_clearBit_other h
  · exact bit_setBit_other h

/-- The state with the level of input `k` shown at `now`, with its event. -/
def State.tinShow (s : State) (k : Nat) (now : Bool) : State :=
  (s.wr TIN_LVL (levelsWith (s.rd TIN_LVL) k now)).raise 0x114 0

theorem bit_tinShow (s : State) (k : Nat) (now : Bool) {j : Nat} (hj : j < 8) :
    bit ((s.tinShow k now).rd TIN_LVL) j = bit (levelsWith (s.rd TIN_LVL) k now) j := by
  rw [State.tinShow, rd_raise_free (by decide), rd_wr_same _ _ _ rfl]
  exact bit_mod hj

theorem tinFlds_free : ∀ k : Fin 8, (IRQ_RAW 0x114).free (TIN_CNT k) = true ∧ TIN_LVL.free (TIN_CNT k) = true ∧
    (TIN_CNT k).free TIN_LVL = true ∧ (TIN_CNT k).free (IRQ_RAW 0x114) = true := by decide

theorem tinChange_answers (s : State) (k : Fin 8) (level now : Bool) (hnow : now = (level == bit (s.rd TIN_POL) k.val))
    (changes : bit (s.rd TIN_LVL) k.val ≠ now) :
    Answers (.tinChange k level) s fun t =>
      bit (t.rd TIN_LVL) k.val = now ∧ bit (t.rd (IRQ_RAW 0x114)) 0 = true ∧ SameBut [.regs] s t ∧
      (∀ j < 8, j ≠ k.val → bit (t.rd TIN_LVL) j = bit (s.rd TIN_LVL) j) ∧
      t.rd (TIN_CNT k.val) = (if now then satNat 16 (s.rd (TIN_CNT k.val) + 1) else s.rd (TIN_CNT k.val)) := by
  obtain ⟨irq, lvl, cntLvl, cntIrq⟩ := tinFlds_free k
  have command : exec (.tinChange k level) s = .next (
      if now = true then (s.tinShow k now).count (TIN_CNT k) else s.tinShow k now) := by
    change execTinChange k level s = _
    unfold execTinChange
    dsimp only
    rw [← hnow, if_neg changes]
    rfl
  have levels (j : Nat) (hj : j < 8) (other : j ≠ k.val) :
      bit ((s.tinShow k now).rd TIN_LVL) j = bit (s.rd TIN_LVL) j := by
    rw [bit_tinShow s k now hj, bit_levelsWith_other other]
  have own : bit ((s.tinShow k now).rd TIN_LVL) k.val = now := by
    rw [bit_tinShow s k now k.isLt, bit_levelsWith_same]
  have event : bit ((s.tinShow k now).rd (IRQ_RAW 0x114)) 0 = true := bit_raise_same _ _ (by decide)
  have counter : (s.tinShow k now).rd (TIN_CNT k) = s.rd (TIN_CNT k) := by
    rw [State.tinShow, rd_raise_free irq, rd_wr_free lvl]
  have same : (s.tinShow k now).except 1 = s.except 1 := (State.raise_same 1 rfl _ _ _).trans
    (State.wr_same 1 rfl s _ _)
  by_cases active : now = true
  · rw [if_pos active] at command
    refine ⟨_, command, ?_, ?_, sameBut_of_except ((State.count_same 1 rfl _ _).trans same), fun j hj other => ?_, ?_⟩
    · rw [rd_count_free cntLvl, own]
    · rw [rd_count_free cntIrq, event]
    · rw [rd_count_free cntLvl, levels j hj other]
    · rw [rd_count_same _ _ _ rfl, counter, if_pos active]
      rfl
  · rw [if_neg active] at command
    refine ⟨_, command, own, event, sameBut_of_except same, levels, ?_⟩
    rw [counter, if_neg active]

/-! ### The debug port -/

theorem dbgArm_answers (s : State) (w : RegWrite) (hw : s.admitsWrite 0x118 0x044 w (setBit w.data.toNat 0) = true) :
    Answers (.dbgArm w) s fun t =>
      t.resp.code = .ok ∧ t.hif.armed = some s.ticks ∧ t.rd DBG_MODE = s.rd DBG_MODE := by
  have written (q : Req) (hq : q.off = 0x044) : dbgWrite s q (BitVec.ofNat 32 (setBit w.data.toNat 0)).toNat =
      (.ok, s.setHif fun h => { h with armed := some s.ticks }) := by
    unfold dbgWrite
    rw [if_pos hq, bit_command (by decide), if_pos rfl]
    rfl
  refine answers_write (f := fun d => setBit d 0) (h := dbgWrite) rfl (by decide) hw (written _ rfl) ⟨rfl, rfl, ?_⟩
  rw [rd_answer, rd_setHif]

/-- An arming of the debug port that counts now (R576). -/
def State.dbgArmed (s : State) : Bool :=
  match s.hif.armed with
  | some t => decide (s.ticks ≤ t + 65536)
  | none => false

/-- The code that a request of a mode gets. -/
def State.dbgCode (s : State) (mode : Nat) : Status :=
  if mode = 3 then .cfgInvalid else if s.dbgArmed then .ok else .timeout

/-- The state in which a request is answered and its arming used up. -/
def State.dbgAnswered (s : State) (c : Status) : State :=
  (s.setHif fun h => { h with armed := none }).wr DBG_CCODE (codeOf c)

theorem dbgRequest_eq (s : State) (mode : Nat) :
    s.dbgRequest mode = if s.dbgCode mode = .ok ∧ (s.dbgAnswered (s.dbgCode mode)).rd DBG_MODE ≠ mode then
        (s.dbgCode mode, (((s.dbgAnswered (s.dbgCode mode)).wr DBG_MODE mode).raise 0x118 0).log 0x4004
          ((s.dbgAnswered (s.dbgCode mode)).rd (OWN_TC 0x118)) (0x0118 + b2n (mode != 0) * 2 ^ 16))
      else (s.dbgCode mode, s.dbgAnswered (s.dbgCode mode)) := rfl

theorem dbgAnswered_parts (s : State) (c : Status) :
    (s.dbgAnswered c).hif.armed = none ∧ (s.dbgAnswered c).rd DBG_CCODE = codeOf c ∧
    (s.dbgAnswered c).rd DBG_MODE = s.rd DBG_MODE ∧ (s.dbgAnswered c).rd (OWN_TC 0x118) = s.rd (OWN_TC 0x118) ∧
    (s.dbgAnswered c).events = s.events := by
  refine ⟨?_, rd_wr_lt rfl (codeOf_lt c) _, ?_, ?_, part_of_except (State.wr_same 1 rfl _ _ _) .events rfl⟩
  · rw [State.dbgAnswered, hif_wr]
    rfl
  · rw [State.dbgAnswered, rd_wr_free (by decide), rd_setHif]
  · rw [State.dbgAnswered, rd_wr_free (by decide), rd_setHif]

set_option autoImplicit false

theorem dbgRequest_code (s : State) (mode : Nat) : (s.dbgRequest mode).1 = s.dbgCode mode := by
  rw [dbgRequest_eq]
  split <;> rfl

/-- A request that changes the mode. -/
theorem dbgRequest_changes {s : State} {mode : Nat} (small : mode < 4) (ok : s.dbgCode mode = .ok)
    (other : s.rd DBG_MODE ≠ mode) :
    (s.dbgRequest mode).2.hif.armed = none ∧ (s.dbgRequest mode).2.rd DBG_CCODE = codeOf .ok ∧
    (s.dbgRequest mode).2.rd DBG_MODE = mode ∧ bit ((s.dbgRequest mode).2.rd (IRQ_RAW 0x118)) 0 = true ∧
    Logged s (s.dbgRequest mode).2 0x4004 (s.rd (OWN_TC 0x118)) (0x0118 + b2n (mode != 0) * 2 ^ 16) := by
  obtain ⟨armed, code, held, owner, events⟩ := dbgAnswered_parts s .ok
  have done : (s.dbgRequest mode).2 = (((s.dbgAnswered .ok).wr DBG_MODE mode).raise 0x118 0).log 0x4004
      (s.rd (OWN_TC 0x118)) (0x0118 + b2n (mode != 0) * 2 ^ 16) := by
    rw [dbgRequest_eq, ok, held, owner, if_pos ⟨rfl, other⟩]
  have same : (((s.dbgAnswered .ok).wr DBG_MODE mode).raise 0x118 0).except 1 = (s.dbgAnswered .ok).except 1 :=
    (State.raise_same 1 rfl _ _ _).trans (State.wr_same 1 rfl _ _ _)
  rw [done]
  refine ⟨?_, ?_, ?_, ?_, ?_⟩
  · rw [← armed, ← part_of_except same .hif rfl]
    rfl
  · rw [rd_log, rd_raise_free (by decide), rd_wr_free (by decide), code]
  · rw [rd_log, rd_raise_free (by decide), rd_wr_lt rfl small]
  · rw [rd_log]
    exact bit_raise_same _ _ (by decide)
  · rw [Logged, ← events, ← part_of_except same .events rfl]
    rfl

/-- A request that leaves the mode: it is refused, or asks for the present one. -/
theorem dbgRequest_leaves {s : State} {mode : Nat} (h : s.dbgCode mode ≠ .ok ∨ s.rd DBG_MODE = mode) :
    (s.dbgRequest mode).2.hif.armed = none ∧ (s.dbgRequest mode).2.rd DBG_CCODE = codeOf (s.dbgCode mode) ∧
    (s.dbgRequest mode).2.rd DBG_MODE = s.rd DBG_MODE ∧ (s.dbgRequest mode).2.events = s.events := by
  obtain ⟨armed, code, held, -, events⟩ := dbgAnswered_parts s (s.dbgCode mode)
  have done : (s.dbgRequest mode).2 = s.dbgAnswered (s.dbgCode mode) := by
    rw [dbgRequest_eq, held, if_neg (fun both => h.elim (fun refused => refused both.1) both.2)]
  rw [done]
  exact ⟨armed, code, held, events⟩

theorem bits_cleared (d : Word) {lo w : Nat} (h : 0 < lo) (hw : lo + w ≤ 32) :
    bits (BitVec.ofNat 32 (clearBit d.toNat 0)).toNat lo w = bits d.toNat lo w := by
  refine Nat.eq_of_testBit_eq fun i => ?_
  rw [testBit_bits, testBit_bits]
  by_cases inside : i < w
  · rw [← bit_eq_testBit, ← bit_eq_testBit, (bit_cleared d).2 (lo + i) (by omega) (by omega)]
  · rw [decide_eq_false inside, Bool.false_and, Bool.false_and]

theorem dbgArmed_iff (s : State) : s.dbgArmed = true ↔ ∃ a, s.hif.armed = some a ∧ s.ticks ≤ a + 65536 := by
  unfold State.dbgArmed
  split
  next a some =>
    rw [decide_eq_true_eq]
    exact ⟨fun soon => ⟨a, some, soon⟩, fun ⟨b, hb, soon⟩ => Option.some.inj (some.symm.trans hb) ▸ soon⟩
  next none => exact ⟨fun off => absurd off Bool.false_ne_true, fun ⟨b, hb, _⟩ => by
    rw [none] at hb
    exact absurd hb (Option.some_ne_none b).symm⟩

theorem dbgArmed_late {s : State} (h : s.hif.armed = none ∨ ∃ a, s.hif.armed = some a ∧ a + 65536 < s.ticks) :
    s.dbgArmed = false := by
  refine Bool.eq_false_iff.mpr fun on => ?_
  obtain ⟨a, ha, soon⟩ := (dbgArmed_iff s).mp on
  obtain none | ⟨b, hb, late⟩ := h
  · exact absurd (ha.symm.trans none) (Option.some_ne_none a)
  · obtain rfl := Option.some.inj (ha.symm.trans hb)
    exact absurd late (Nat.not_lt.mpr soon)

theorem dbgCode_barred (s : State) : s.dbgCode 3 = .cfgInvalid := if_pos rfl

theorem dbgCode_armed {s : State} {mode : Nat} (h : mode ≠ 3) (on : s.dbgArmed = true) : s.dbgCode mode = .ok := by
  rw [State.dbgCode, if_neg h, if_pos on]

theorem dbgCode_unarmed {s : State} {mode : Nat} (h : mode ≠ 3) (off : s.dbgArmed = false) :
    s.dbgCode mode = .timeout := by
  rw [State.dbgCode, if_neg h, if_neg (off ▸ Bool.false_ne_true)]

/-- A request is answered with its code, and what it changes stands. -/
theorem dbgReq_command {s : State} {w : RegWrite} {P : State → Prop}
    (hw : s.admitsWrite 0x118 0x044 w (clearBit w.data.toNat 0) = true)
    (hP : P (((s.dbgRequest (bits w.data.toNat 8 2)).2.capture 0x118 0x044 w.tc.val true
      (s.dbgCode (bits w.data.toNat 8 2))).answer (s.dbgCode (bits w.data.toNat 8 2)))) :
    Answers (.dbgReq w) s P := by
  have written (q : Req) (hq : q.off = 0x044) : dbgWrite s q (BitVec.ofNat 32 (clearBit w.data.toNat 0)).toNat =
      (s.dbgCode (bits w.data.toNat 8 2), (s.dbgRequest (bits w.data.toNat 8 2)).2) := by
    unfold dbgWrite
    rw [if_pos hq, (bit_cleared w.data).1, if_neg Bool.false_ne_true, bits_cleared w.data (by decide) (by decide),
      ← dbgRequest_code]
  exact answers_write_coded (f := fun d => clearBit d 0) (h := dbgWrite) rfl (by decide) hw (written _ rfl) hP

theorem dbgReq_answers (s : State) (w : RegWrite) (hw : s.admitsWrite 0x118 0x044 w (clearBit w.data.toNat 0) = true) :
    Answers (.dbgReq w) s fun t => t.hif.armed = none ∧ t.rd DBG_CCODE = codeOf t.resp.code ∧
      (bits w.data.toNat 8 2 = 3 → t.resp.code = .cfgInvalid ∧ t.rd DBG_MODE = s.rd DBG_MODE) ∧
      (bits w.data.toNat 8 2 ≠ 3 →
        (∀ a, s.hif.armed = some a → s.ticks ≤ a + 65536 →
          t.resp.code = .ok ∧ t.rd DBG_MODE = bits w.data.toNat 8 2 ∧
          (s.rd DBG_MODE ≠ bits w.data.toNat 8 2 → bit (t.rd (IRQ_RAW 0x118)) 0 = true ∧
            Logged s t 0x4004 (s.rd (OWN_TC 0x118)) (0x0118 + b2n (bits w.data.toNat 8 2 != 0) * 2 ^ 16)) ∧
          (s.rd DBG_MODE = bits w.data.toNat 8 2 → t.events = s.events)) ∧
        (s.hif.armed = none ∨ (∃ a, s.hif.armed = some a ∧ a + 65536 < s.ticks) →
          t.resp.code = .timeout ∧ t.rd DBG_MODE = s.rd DBG_MODE ∧ t.events = s.events)) := by
  refine dbgReq_command hw ?_
  have small : bits w.data.toNat 8 2 < 4 := bits_lt ..
  generalize bits w.data.toNat 8 2 = mode at small ⊢
  have kept (u : State) (c : Status) : (u.capture 0x118 0x044 w.tc.val true c).hif = u.hif ∧
      (u.capture 0x118 0x044 w.tc.val true c).events = u.events ∧
      (u.capture 0x118 0x044 w.tc.val true c).rd DBG_CCODE = u.rd DBG_CCODE ∧
      (u.capture 0x118 0x044 w.tc.val true c).rd DBG_MODE = u.rd DBG_MODE :=
    ⟨part_of_except (State.capture_same 1 rfl _ _ _ _ _ _) .hif rfl,
      part_of_except (State.capture_same 1 rfl _ _ _ _ _ _) .events rfl,
      rd_capture_uncaught (by decide) _ _ _ _ _, rd_capture_uncaught (by decide) _ _ _ _ _⟩
  by_cases changes : s.dbgCode mode = .ok ∧ s.rd DBG_MODE ≠ mode
  · obtain ⟨ok, other⟩ := changes
    obtain ⟨armed, code, held, irq, logged⟩ := dbgRequest_changes small ok other
    rw [ok, capture_ok, rd_answer, rd_answer, rd_answer]
    refine ⟨armed, code, fun bad => ?_, fun known => ⟨fun a _ _ => ⟨rfl, held, fun _ => ⟨irq, logged⟩,
      fun same => absurd same other⟩, fun late => ?_⟩⟩
    · rw [bad, dbgCode_barred] at ok
      exact absurd ok (by decide)
    · rw [dbgCode_unarmed known (dbgArmed_late late)] at ok
      exact absurd ok (by decide)
  · have leaves : s.dbgCode mode ≠ .ok ∨ s.rd DBG_MODE = mode :=
      (Decidable.not_and_iff_or_not.mp changes).imp_right Decidable.not_not.mp
    obtain ⟨armed, code, held, events⟩ := dbgRequest_leaves leaves
    obtain ⟨hif, log, ccode, dmode⟩ := kept (s.dbgRequest mode).2 (s.dbgCode mode)
    have events' := log.trans events
    rw [rd_answer, rd_answer, ccode, dmode, code, held]
    refine ⟨(congrArg _ hif).trans armed, rfl, fun bad => ⟨?_, rfl⟩, fun known => ⟨fun a ha soon => ?_, fun late =>
      ⟨dbgCode_unarmed known (dbgArmed_late late), rfl, events'⟩⟩⟩
    · rw [bad]
      exact dbgCode_barred s
    · have ok := dbgCode_armed known ((dbgArmed_iff s).mpr ⟨a, ha, soon⟩)
      have same := leaves.resolve_left fun refused => refused ok
      exact ⟨ok, same, fun other => absurd same other, fun _ => events'⟩

/-- Settles O55: each field interface answers its command with one change of its page and of what it holds. -/
theorem fieldInterfacesComplete : Obligations.FieldInterfacesComplete := by
  unfold Obligations.FieldInterfacesComplete
  exact ⟨ethTxDesc_answers, ethRxFrame_answers, ethMdGo_answers, phyPoll_answers, uartTxdata_answers,
    uartRxChar_answers,
    uartRxdataRead_answers, uartEof_answers, uartTxEnd_answers, gpioEdge_answers, tinChange_answers, dbgArm_answers,
    dbgReq_answers⟩

end Sys2Proof.Machine
